-- ==== Sys2Proof/Word.lean ====
section
/-! DEFINITION. The byte, the one fixed-width word the wire protocols of the block are made of. -/

namespace Sys2Proof

/-- One byte of a frame, a DOMAIN value or a memory. -/
abbrev Byte := BitVec 8

end Sys2Proof
end

