-- ==== Sys2Proof/Syntax.lean ====
section
/-! DEFINITION. The commands of the block: one constructor of Instr per row of the opcode table, with the operands the
step takes from the outside world, and the types of those operands. -/

namespace Sys2Proof

/-- The sender of one BDAP request (R343 to R346): its source address, the management port that carried it, the
station it addressed (fore = the forerunner station) and its sequence number. -/
structure Client where
  mac : Nat
  port : Fin 2
  fore : Bool
  seq : Nat
deriving DecidableEq, Repr

/-- A value as a request carries it: a number for the fixed-width types, bytes for a DOMAIN. -/
inductive WVal where
  | int (v : Int)
  | bytes (b : List Byte)
deriving DecidableEq, Repr

/-- A well-formed BDAP request (R344) after parsing: what the request queue of R345 holds. -/
inductive ReqBody where
  /-- READ of an index and subindex -/
  | read (ix sub : Nat)
  /-- WRITE: type code, value bytes, and flag bit 0 -/
  | write (ix sub ty : Nat) (val : List Byte) (staged : Bool)
  | readBlock (ix sub offset max : Nat)
  | writeBlock (ix sub : Nat) (first last : Bool) (total offset : Nat) (data : List Byte)
  | commit
  | discard
  | snapshot
  | subscribe (mask : Nat)
  | unsubscribe
  /-- a message that is refused with abort 0x0F -/
  | malformed
deriving DecidableEq, Repr

/-- A request in the queue of R345. -/
structure Request where
  client : Client
  body : ReqBody
deriving DecidableEq, Repr

/-- What the calibration of one slice or sub-converter measured, in the units of Table: Correction record (offset 1/64
LSB, gain correction 1/16384, skew 5 fs), with what limits 7, 8 and 10 of Table: Plausibility limits look at (R89). In background the skew of an ADC
slice is the difference from the unit beside it (R96). -/
structure CalUnit where
  offset : Int
  gain : Int
  skew : Int
  /-- fit residual in 1/1000 LSB RMS -/
  residual : Nat
  /-- on-die reference against its fused value, in 0.01 % of that value -/
  reference : Int
  completed : Bool
deriving DecidableEq, Repr

/-- What the foreground calibration of one converter measured: every unit in order, and for an ADC the gain of VGA codes
0 to 36 in 0.01 dB (R90). A unit the list does not reach was not measured; repeats holds the second measurement of a
unit whose first one failed the fit. -/
structure CalConverter where
  units : List CalUnit
  vga : List Int
  repeats : List (Nat × CalUnit)
deriving DecidableEq, Repr

/-- Where one block of 16 output symbols of the polarisation equaliser lies (R132, R142): place in the frame of its first
symbol, number of the frame in the multiframe once the pad has shown it (R199), where the timing loop begins when it holds no
instant yet (a sample counted since exit from Idle, and 1/1,024 of a sample behind it), the timing error detected since the block
before in 1/1000 symbol period (positive: sampled late), and the phase estimate of carrier recovery for each symbol, X and Y, in
units of π / 4,096. -/
structure PolBlock where
  position : Fin 65536
  frame : Option (Fin 256)
  start : Nat × Fin 1024
  timing : Int
  phi : List (Int × Int)
deriving DecidableEq, Repr

/-- The arrivals at one block of 16 symbols of the second pass (R159): per side and symbol, from 7 before the block's first to
7 after its last, whether the neighbour's decision came outside the window. -/
structure NcBlock where
  lowerLate : List Bool
  upperLate : List Bool
deriving DecidableEq, Repr

/-- What a read of the boot flash finds (R52, R54): the SFDP table as far as it tells how the flash may be read (none: there
is no such table; true: it offers a 1-1-4 fast read), and the image of the selected slot, if one could be read. -/
structure FlashReading where
  sfdp : Option Bool
  image : Option (List Byte)
deriving DecidableEq, Repr

/-- What the receive chain of a carrier measures by a frame start. -/
structure FrameReading where
  /-- quantities q0 to q4 of Table: Monitored quantities, q4 on the stage-8 output, and q4 on the second pass's output
  (R148, R161) -/
  raw : Vector Int 5
  snrSecond : Int
  /-- filtered timing error in 1/1000 symbol period (R132) -/
  timingError : Int
  /-- both equaliser outputs correlate better with one sequence (R144) -/
  sameSequence : Bool
  /-- frame-word metric at the expected start, 0.1 dB, the symbols of it erased on X and Y where the line holds none of it, and
  while the word is looked for the frame start it fixes (R179, R183) -/
  metric : Int
  erased : Vector (Fin 257) 2
  start : Fin 65536
  /-- pilot-based SNR, 0.1 dB, where the line has measured none (R180), and 4000.04 of the four ADCs over the AGC window that holds this frame word
  (R185) -/
  pilotSnr : Int
  rms : Vector (Fin 65536) 4
  /-- front-end errors as measured: phase X and Y in 0.1 degree, gain X and Y in 0.01 dB (R131) -/
  frontEnd : Vector Int 4
deriving DecidableEq, Repr

/-- Survey figures of one candidate rate (R175): clock-line strength in 0.1 dB, frequency offset in kHz. -/
structure SurveyReading where
  strength : Int
  offset : Int
deriving DecidableEq, Repr

/-- A frame word or pilot group found by the correlator (R176): candidate index, metrics of the X and Y sequences in
0.1 dB, 0 for the frame word or g + 1 for pilot group g, the symbol position where it begins, the frequency offset in kHz
and the senses that matched as a wiring map. -/
structure MatchReading where
  candidate : Fin 8
  metricX : Int
  metricY : Int
  kind : Fin 17
  position : Fin 65536
  frequency : Int
  map : Fin 8
deriving DecidableEq, Repr

/-- What decoding one inner codeword decided (R207): the first iteration from the second onward with every check satisfied,
the decisions by position, and in Long the decisions of the ladder decoder on the 616 rows of the rung that leaves its
window, where one does. In Compatible the oFEC decoder says instead how many positions its soft stage took and corrected,
and how many blocks were uncorrectable (R210). -/
structure CodewordReading where
  satisfiedAt : Option Nat
  word : List Bool
  rung : List (List Bool)
  softBits : Fin 9217
  softCorrected : Fin 9217
  blocksFailed : Nat
deriving DecidableEq, Repr

/-- The two runs of a cipher block (R286): the core it runs on, whether its pipelines disagree, and, where they do, the
core of the second run and whether its pipelines disagree. -/
structure TwinReading where
  core : Fin 52
  mismatch : Bool
  second : Fin 52
  mismatchAgain : Bool
deriving DecidableEq, Repr

/-- A receive multiframe boundary (R213, R258): when it came on the common counter in ps, and the 384 sign bits of the phase word
of the multiframe that it ends, in the order sent (R200). -/
structure RxMultiframe where
  arrival : Nat
  signs : List Bool
deriving DecidableEq, Repr

/-- What a received logical frame says (R215): FNUM, the parity bits that disagree, BEI, BDI, STAT, the trail trace byte and the 10
GCC bytes. -/
structure LogicalFrame where
  fnum : Fin 256
  bipErrors : Fin 9
  bei : Fin 16
  bdi : Bool
  stat : Fin 8
  tti : Byte
  gcc : Vector Byte 10
deriving DecidableEq, Repr

/-- What the FlexO and OTUC framers of a Compatible carrier read in a frame (R235): loss of frame and of multiframe alignment; of
OTUC section monitoring the multiframe count, the trail trace byte, BDI and BEI; AIS and CSF of the ODU and OPU of the mapped
client; and GCC0 of OTUC slice 1. -/
structure OtucReading where
  lof : Bool
  lom : Bool
  mfas : Fin 256
  tti : Byte
  bdi : Bool
  bei : Fin 16
  ais : Bool
  csf : Bool
  gcc : Vector Byte 2
deriving DecidableEq, Repr

/-- A received logical frame: its line bits, used where the inverse matcher has delivered none (log entry 46), and, on a Compatible
carrier, what its framers read instead (R235). -/
structure LineFrameReading where
  bits : List Bool
  otuc : OtucReading
deriving DecidableEq, Repr

/-- A tile as a memory or a link gives it back (R319): which one, and its bytes. -/
structure TileRead where
  tile : Nat
  bytes : List Byte
deriving DecidableEq, Repr

/-- What a client port takes from its lanes: a frame from destination address to FCS, or, on a transparent port, 257-bit blocks of
its PCS stream, first bit most significant (R238, R247). -/
inductive HostArrival where
  | frame (bytes : List Byte)
  | blocks (l : List (BitVec 257))
deriving DecidableEq, Repr

/-- Tiles of the queue of a transparent flow, numbered from its first, as its memory gives them back (R322 point 1). -/
structure StreamReading where
  flow : Fin 32768
  reads : List TileRead
deriving DecidableEq, Repr

/-- What the demapper found where a GFP frame of a packet tributary was due (R246, R322): tiles of the bytes that wait for it, by
their first byte, as it read them, and, where the line has brought the tributary no words (log entry 46), a single header error
corrected, a sound type header, delineation leaving the sync state, and the client frame from destination address to FCS. -/
structure GfpReading where
  reads : List TileRead
  corrected : Bool
  typeOk : Bool
  syncLost : Bool
  frame : List Byte
deriving DecidableEq, Repr

/-- What a bring-up step of a host lane found: the CTLE code of the sweep, the DFE taps adapted, markers under the
inverted sense, and the legs-together reading in mV (R296, R297, R305). -/
structure LaneReading where
  ctle : Fin 16
  taps : Vector Int 8
  inverted : Bool
  testReading : Fin 65536
deriving DecidableEq, Repr

/-- What a loop period brings for one paced domain (R23, R26, R414): its capacities in stroke sets/s, whether the setpoint
write and the current read are acknowledged where the period makes them, and the current read in mA. -/
structure GuardReading where
  cRun : Nat
  cDroop : Nat
  cLook : Nat
  writeAck : Bool
  readAck : Bool
  current : Nat
deriving DecidableEq, Repr

/-- A word of the working copy of a table (R327): connection row (3,840 times the memory, transmit 0, plus the row), calendar
entry, span, receive row, binding (3,840 times the direction plus the tributary), flow entry. -/
inductive TableWord where
  | row (u : Fin 7680)
  | calendar (e : Fin 65536)
  | span (t : Fin 3840)
  | receiveRow (t : Fin 3840)
  | binding (u : Fin 7680)
  | flow (f : Fin 32768)
deriving DecidableEq, Repr

/-- What an uncorrectable word held (R327). -/
inductive HeldWord where
  /-- client data of a flow queue, by tile from its first -/
  | flowData (f : Fin 32768) (tile : Nat)
  /-- client data of a receive queue, by tile from its first -/
  | tribData (t : Fin 3840) (tile : Nat)
  /-- client data of a tributary that waits for encryption: payload tile of its next block -/
  | txClearData (t : Fin 3840) (tile : Nat)
  /-- client data of a tributary between mapping or encryption and FEC encoding: line tile of the multiframe under way -/
  | txLineData (t : Fin 3840) (tile : Nat)
  /-- client data of a tributary between FEC decoding and the demapper: 64 words of its oldest multiframe -/
  | rxLineData (t : Fin 3840) (tile : Nat)
  /-- client data of a tributary that wait for the demapper or the egress, deciphered: 512 bytes from the first -/
  | rxClearData (t : Fin 3840) (tile : Nat)
  /-- client data in the boathouse: word of the oldest multiframe that it holds of a carrier -/
  | boatData (c : Fin 12) (word : Nat)
  /-- control of a flow queue -/
  | flowQueue (f : Fin 32768)
  /-- control of a receive tributary queue -/
  | tribQueue (t : Fin 3840)
  /-- a register of a key slot -/
  | keySlot (n : Fin 8192)
  /-- a word of a working copy of a table -/
  | tableCopy (w : TableWord)
  /-- a 64-bit word of the working copy of a coefficient bank -/
  | bankCopy (b : Fin 72) (word : Nat)
  /-- the stroke set at a place of a carrier's receive slack buffer, 0 = oldest -/
  | slackSet (c : Fin 12) (place : Nat)
  /-- LLRs of a carrier: slot of the de-interleaver, 0 = oldest, first position and how many -/
  | llr (c : Fin 12) (slot first : Nat) (count : Fin 17)
  /-- a correction record of a converter: unit and slice -/
  | calRecord (u : Fin 96) (slice : Fin 65)
  /-- the tap store of a lane -/
  | laneTaps (h : Fin 96)
  /-- a capture buffer or telemetry ring -/
  | moverData
  /-- an event ring entry, by its place from the oldest -/
  | ringEntry (place : Nat)
  /-- an event history entry, by its place from the oldest -/
  | historyEntry (place : Nat)
deriving DecidableEq, Repr

/-- A line that a scrubber reads (R325 to R328): one whose valid bit is 0, or one with words in which bits have flipped, each with
how many of its 72 and what it holds. -/
inductive LineReading where
  | invalid
  | valid (flipped : List (Nat × HeldWord))
deriving DecidableEq, Repr

/-- What a heartbeat of the partner brings (R455): its ADDR and PAIR_ROLE straps, mode, role, Pair state, health,
readiness, the check values of its programmed key-encryption keys, and the carriers Carrying on it. -/
structure HeartbeatReading where
  addr : Fin 64
  strap : Bool
  mode : Fin 6
  role : Fin 3
  state : Fin 4
  health : Fin 13
  ready : Bool
  kcv : Vector (Option (BitVec 32)) 4
  carrying : Fin 4096
deriving DecidableEq, Repr

/-- What a housekeeping conversion brings (R441, R443, R448): its raw samples, ns from the multiplexer's move to the
acquisition of the first, and the raw codes A and B of the open-wire test. -/
structure HkReading where
  samples : List (Fin 4096)
  sinceMove : Nat
  openA : Fin 4096
  openB : Fin 4096
deriving DecidableEq, Repr

/-- What a housekeeping calibration finds (R447): offset in 1/16 LSB, gain beside its fused value in 10 ppm, noise on channels
65 and 64 in 1/16 LSB RMS. -/
structure HkCalReading where
  offset : Int
  gain : Int
  noise : Vector Nat 2
deriving DecidableEq, Repr

/-- An uncorrectable word that a mover granule met in its source (R369): the domain and line it lies in, its byte in the granule, and how many
bytes of the granule had landed. -/
structure GranuleError where
  domain : Fin 16
  line : Nat
  at_ : Fin 4096
  landed : Fin 4097
deriving DecidableEq, Repr

/-- The commands: one constructor per row of the opcode table, in the table's order. -/
inductive Instr where
  /-- PORST_N_LOW (R50): PORST_N driven low starts a cold reset: DACs go to code 0, host transmitters turn off and the alert balls are released high. -/
  | porstNLow
  /-- PORST_N_RISE (R51): The rising edge of PORST_N latches the straps and starts the fuse load once the rails are in tolerance. -/
  | porstNRise (straps : Fin 512) (railsOk : Bool)
  /-- SYSRST_N_LOW (R50): SYSRST_N driven low starts a warm reset. -/
  | sysrstNLow
  /-- SYSRST_N_RISE (R50): Release of SYSRST_N starts the boot sequence with the warm-reset effects, leaving the device in Dormant. -/
  | sysrstNRise
  /-- WARM_RESET_COMMAND (R50): A write of 0x5752 to 2000.0A performs a warm reset, as SYSRST_N would. -/
  | warmResetCommand (cl : Client)
  /-- FUSE_LOAD_START (R477): When every rail has been in tolerance for 1 ms after the PORST_N rise, the device starts its fuse load. -/
  | fuseLoadStart
  /-- FUSE_LOAD_END (R52): The fuse load completes: BDAP starts answering, 620 mV is written to every core rail, rail sensing starts and the flash read begins. -/
  | fuseLoadEnd (failed : List (Fin 52))
  /-- IMAGE_LOAD_COMPLETE (R54): A flash image read completes and is checked; it is loaded or refused, with the slot 1 retry under BOOTSEL 0b11. -/
  | imageLoadComplete (flash : FlashReading) (second : Option (List Byte))
  /-- HBM_TRAINING_COMPLETE (R56): HBM PHY training completes after reset. -/
  | hbmTrainingComplete
  /-- HOST_IMAGE_LOAD (R55): A write of 0x01 to 2E01.02 checks the host-supplied image and loads it, or refuses it. -/
  | hostImageLoad (cl : Client)
  /-- FORERUNNER_ENABLE_WRITE (R4): A write of 1F00.01 in Dormant or Trim adds or removes the forerunner view; in other modes it is refused. -/
  | forerunnerEnableWrite (cl : Client) (v : Bool)
  /-- REQUEST_DORMANT (R40): A write of 0 to 2000.01 requests Dormant, which runs the exit actions downward or leaves Haven. -/
  | requestDormant (cl : Client)
  /-- REQUEST_TRIM (R40): A write of 1 to 2000.01 requests Trim, from Dormant, from Haven or downward. -/
  | requestTrim (cl : Client)
  /-- REQUEST_CATCH (R40): A write of 2 to 2000.01 requests Catch. -/
  | requestCatch (cl : Client)
  /-- REQUEST_CARRY (R40): A write of 3 to 2000.01 requests Carry. -/
  | requestCarry (cl : Client)
  /-- REQUEST_PAIR (R456): A write of 4 to 2000.01 requests Pair; it is checked against the Pair preconditions and a role is agreed. -/
  | requestPair (cl : Client)
  /-- REQUEST_HAVEN (R46): A write of 5 to 2000.01 enters Haven, or in Haven sets cause bit 0. -/
  | requestHaven (cl : Client)
  /-- MODE_TRANSITION_COMPLETE (R40): An accepted mode transition completes; 2000.02 takes the new code, busy clears and device-wide source 0 is raised. -/
  | modeTransitionComplete (failed : List (Fin 52))
  /-- CARRIER_REQUEST (R47): A write of 3000.01 requests Idle, line up or carry traffic for a carrier; the request is stored when the mode does not allow it. -/
  | carrierRequest (cl : Client) (c : Fin 12) (v : Fin 256)
  /-- GUARD_LOOP_PERIOD (R26): Every 5 µs each guard loop reads its pace monitor and backlog and raises, holds or steps down its setpoint. -/
  | guardLoopPeriod (m : Vector GuardReading 5) (hand : Vector (Fin 129 × Fin 129) 4)
  /-- GUARD_CONTROL_LOST (R29): The setpoint has stood at 920 mV with backlog for 1 ms, or three AVSBus transactions have gone unacknowledged; the device goes to Haven. -/
  | guardControlLost (g : Fin 5)
  /-- RX_STROKE_ARRIVAL (R19): A receive stroke set arrives from the ADCs; it is stored, or discarded and counted when the buffer is full. -/
  | rxStrokeArrival (c : Fin 12) (codes : List (List Int))
  /-- TX_STROKE_PERIOD (R20): At each stroke period the DACs take a stroke set, or output a mid-scale hold set when the transmit buffer is empty. -/
  | txStrokePeriod (c : Fin 12)
  /-- GAP_MARKER_WRITE (R19): When space frees after discards, the receive buffer writes one gap marker carrying the number of sets discarded. -/
  | gapMarkerWrite (c : Fin 12)
  /-- CORE_STROKE_RELEASE (R16): The paced core takes a stroke set from the receive buffer when the fill exceeds the target. -/
  | coreStrokeRelease (c : Fin 12) (first : Nat) (next : Nat)
  /-- CORE_STROKE_ACCEPT (R16): The core delivers a stroke set to the transmit buffer, or discards one it owes after holds. -/
  | coreStrokeAccept (c : Fin 12) (msaX : List (Int × Int)) (msaY : List (Int × Int)) (reads : List (Nat × TileRead))
  /-- GAP_MARKER_REACHED (R126): The core reaches a gap marker; it inserts flagged zero sets, or clears histories when more than 32 sets were lost. -/
  | gapMarkerReached (c : Fin 12) (symbols : Nat)
  /-- STROKE_BOUNDARY_APPLY (R122): At a stroke boundary, pending skew, wiring map, swing and swap commits and correction-set commits take force. -/
  | strokeBoundaryApply (c : Fin 12)
  /-- REFL_LOSS (R63): A REFL input leaves ±100 ppm or stops; within 10 µs its loops enter holdover, the DACs output code 0 and received strokes are erased. -/
  | reflLoss (k : Fin 4) (present : Bool) (offset : Int)
  /-- REFL_RELOCK (R63): The loops relock after REFL returns within tolerance; carriers not in Idle go to Seeking. -/
  | reflRelock (k : Fin 4) (offset : Int)
  /-- REFL_HOLDOVER_AT_TRIM (R63): 2 ms after a Trim request, a loop whose REFL is absent or out of tolerance enters holdover at its fused nominal tuning word. -/
  | reflHoldoverAtTrim (k : Fin 4)
  /-- AGC_WINDOW_END (R66): A 256-set AGC window ends; each channel's level is computed and a gain step is decided. -/
  | agcWindowEnd (c : Fin 12) (rms : Unit) (unflagged : Unit)
  /-- GAIN_STEP_APPLY (R67): The decided gain steps are applied at stroke set n + 3; sets n + 3 and n + 4 are flagged erased. -/
  | gainStepApply (c : Fin 12)
  /-- MANUAL_GAIN_STEP (R69): In manual mode the gain moves one 0.5 dB step toward the manual target. -/
  | manualGainStep (c : Fin 12)
  /-- OPEN_TEST_REQUEST (R72): A write of 0x01 to 3022.01 starts the open-input test of a carrier, or is refused. -/
  | openTestRequest (cl : Client) (c : Fin 12)
  /-- OPEN_TEST_COMPLETE (R71): The 200 µs open test ends; results are reported and ADC source 0 is raised for an open leg. -/
  | openTestComplete (c : Fin 12) (shiftP : Vector (Fin 65536) 4) (shiftN : Vector (Fin 65536) 4)
  /-- DAC_SHORT_DETECT (R80): The limiter has been engaged for 2 µs; the leg is disabled, DAC source 0 is raised and the episode is counted. -/
  | dacShortDetect (d : Fin 48) (leg : Fin 2)
  /-- SHORT_RETRY_TRIAL (R81): At the retry interval a protected leg is re-enabled for a 10 µs trial. -/
  | shortRetryTrial (d : Fin 48) (leg : Fin 2)
  /-- SHORT_TRIAL_END (R81): A trial ends; the leg returns to protected, or stays enabled and DAC source 1 is raised. -/
  | shortTrialEnd (d : Fin 48) (leg : Fin 2) (engaged : Bool)
  /-- FOREGROUND_CAL_COMPLETE (R91): Foreground calibration completes with plausibility checks, suspect handling and the commit of new correction sets. -/
  | foregroundCalComplete (c : Fin 12) (adcs : Vector CalConverter 4) (dacs : Vector CalConverter 4)
  /-- RECAL_REQUEST (R94): A write of D000.01 in Trim starts the foreground recalibration of the named carriers. -/
  | recalRequest (cl : Client) (mask : Fin 65536)
  /-- BG_CAL_STEP_START (R96): At a converter's background interval a step starts; the resting unit takes over the next slot and the displaced unit is measured offline. -/
  | bgCalStepStart (u : Fin 96)
  /-- BG_CAL_MEASURE_COMPLETE (R96): The offline measurement ends; the new record is accepted or refused, and the unit may become suspect. -/
  | bgCalMeasureComplete (u : Fin 96) (m : CalUnit)
  /-- BANK_STANDBY_WRITE (R117): A write of a filter's .08 loads its standby bank, or is refused. -/
  | bankStandbyWrite (cl : Client) (b : Fin 72) (v : List Byte)
  /-- BANK_COMMIT_SWAP (R118): A write of 0x01 to .09 makes the standby bank active at the next stroke boundary. -/
  | bankCommitSwap (cl : Client) (b : Fin 72)
  /-- BANK_COMMIT_CROSSFADE (R119): A write of 0x02 to .09 of a dispersion filter starts a 4,096-symbol cross-fade at the next stroke set. -/
  | bankCommitCrossfade (cl : Client) (b : Fin 72)
  /-- CROSSFADE_END (R119): A cross-fade ends; the new bank becomes active, and for tracking the correction is recorded. -/
  | crossfadeEnd (b : Fin 72)
  /-- BANK_COMPUTE_COMPLETE (R120): A computed bank is ready in standby and is committed by swap or cross-fade, or put in force at once in Idle. -/
  | bankComputeComplete (b : Fin 72)
  /-- DESKEW_AUTO_TRIM (R130): Every 1 ms, each channel whose residual is at least 2 steps moves its delay one step. -/
  | deskewAutoTrim (c : Fin 12) (residual : Vector Int 4)
  /-- POL_ADAPT_BLOCK (R142): Every 16 output symbols the polarisation equaliser taps are updated by the error of the state. -/
  | polAdaptBlock (c : Fin 12) (k : PolBlock)
  /-- RX_FRAME_START (R148): At a receive frame start, monitors update, side states are evaluated, catch confirmation is counted and defects are evaluated. -/
  | rxFrameStart (c : Fin 12) (m : FrameReading)
  /-- NC_ADAPT_BLOCK (R160): Every 16 symbols the neighbour-cancellation taps of each usable side adapt. -/
  | ncAdaptBlock (c : Fin 12) (k : NcBlock)
  /-- PILOT_GROUP_CHECK (R167): At a known-symbol group, the blind phase track is compared and a slip is resolved, or the track is realigned. -/
  | pilotGroupCheck (c : Fin 12) (ns : Nat) (ps : Fin 1000)
  /-- SURVEY_REFRESH (R175): Every 64 µs, clock-line strength and offset are refreshed per candidate and the gates open or close. -/
  | surveyRefresh (c : Fin 12) (l : Vector SurveyReading 8) (rmsX : Vector (Fin 65536) 2) (rmsY : Vector (Fin 65536) 2)
  /-- CATCH_MATCH (R176): The correlator finds a frame-word or pilot match; it starts a catch, or pre-empts the tentative catch. -/
  | catchMatch (c : Fin 12) (l : List MatchReading)
  /-- TENTATIVE_ENTRY (R177): At the next known-symbol group after a match, frame, timing, frequency and wiring are handed over and the carrier enters Tentative. -/
  | tentativeEntry (c : Fin 12) (frequency : Int)
  /-- RX_LOOP_RELOCK (R62): The receive loop completes a retune relock; the dispersion bank for the new rate is put in force and the frame search restarts. -/
  | rxLoopRelock (c : Fin 12)
  /-- CODEWORD_DECODE (R207): An inner codeword is decoded with adaptive iterations up to the cap, and counted. -/
  | codewordDecode (c : Fin 12) (m : CodewordReading)
  /-- TX_MULTIFRAME_BOUNDARY (R248): At a transmit multiframe boundary Cm is fixed, flips and bindings take force, and announces and fill codes apply. -/
  | txMultiframeBoundary (c : Fin 12) (l : List StreamReading)
  /-- RX_MULTIFRAME_BOUNDARY (R222): At a receive multiframe boundary page flips follow, Cm and fill are taken, phase words compared and bonding measured. -/
  | rxMultiframeBoundary (c : Fin 12) (m : RxMultiframe)
  /-- RX_LOGICAL_FRAME (R229): A received logical frame is evaluated for LOM, BDI, AIS, BIP8, BEI, STAT and the trail trace. -/
  | rxLogicalFrame (c : Fin 12) (m : LineFrameReading)
  /-- TX_PAGE_FLIP (R221): A write of carrier bits to 6800.06 checks and schedules a transmit interchange page flip with its announce. -/
  | txPageFlip (cl : Client) (mask : Fin 65536)
  /-- RX_PAGE_FLIP (R222): A write to 6801.06 schedules a manual receive page flip at the next received boundary. -/
  | rxPageFlip (cl : Client) (mask : Fin 65536)
  /-- DEFECT_DECLARE (R230): A raw defect has been present for its set time; the defect is declared, masks apply and LOS or LOF moves the carrier to Seeking. -/
  | defectDeclare (c : Fin 12) (bit : Fin 10) (t : Fin 3840)
  /-- DEFECT_CLEAR (R230): A raw defect has been absent for its clear time; the defect is cleared. -/
  | defectClear (c : Fin 12) (bit : Fin 10) (t : Fin 3840)
  /-- OHP_IN_BURST (R225): Once per transmitted logical frame the device raises IFRM and takes 80 GCC bits from OHPc_IDAT. -/
  | ohpInBurst (c : Fin 12) (gcc : Vector Byte 10)
  /-- OHP_OUT_BURST (R225): A buffered GCC out burst is sent on the overhead port, at least 80 periods after the last. -/
  | ohpOutBurst (c : Fin 12)
  /-- HOST_FRAME_RECEIVE (R238): A client frame arriving at a port is checked, classified to a flow and admitted or discarded. -/
  | hostFrameReceive (p : Fin 48) (x : HostArrival) (fec : Vector Nat 3)
  /-- PFC_RESEND (R244): Every 32,768 pause quanta while a priority is asserted, the PFC frame is resent. -/
  | pfcResend (p : Fin 48)
  /-- CLS_INSERT (R240): Operation 1 on 6000.03 inserts or replaces a classifier key. -/
  | clsInsert (cl : Client)
  /-- CLS_DELETE (R240): Operation 2 on 6000.03 deletes a classifier key. -/
  | clsDelete (cl : Client)
  /-- CLS_LOOKUP (R240): Operation 3 on 6000.03 looks up a key and reports its flow. -/
  | clsLookup (cl : Client)
  /-- CLS_CLEAR_ALL (R240): Operation 4 on 6000.03 clears the classifier table. -/
  | clsClearAll (cl : Client)
  /-- CLS_OP_COMPLETE (R240): A classifier operation completes within 2 µs; busy clears and the result is recorded. -/
  | clsOpComplete
  /-- CLS_BULK_LOAD (R240): A write of 6000.09 in Dormant or Trim replaces the whole classifier table, or is refused whole. -/
  | clsBulkLoad (cl : Client) (v : List Byte)
  /-- FLOW_ENTRY_WRITE (R242): A write of a flow entry is checked and applied; clearing enable discards the queue. -/
  | flowEntryWrite (cl : Client) (v : BitVec 64)
  /-- FLOW_TABLE_LOAD (R242): A write of 6100.0A in Dormant or Trim loads every flow entry, each checked. -/
  | flowTableLoad (cl : Client) (v : List Byte)
  /-- CALENDAR_FLIP (R251): A write of 0x01 to 6200.06 checks the standby calendar and schedules each tributary's flip. -/
  | calendarFlip (cl : Client)
  /-- MAPPER_NEXT_FRAME (R252): A tributary mapper needs its next GFP frame; the coxswain serves the span by deficit round robin or sends an idle frame. -/
  | mapperNextFrame (t : Fin 3840) (reads : List (Nat × Nat × List Byte))
  /-- RX_TRIB_ROW_WRITE (R253): A write of a receive tributary row is checked and applied at the tributary's next received boundary. -/
  | rxTribRowWrite (cl : Client) (v : Fin 65536)
  /-- EGRESS_FRAME_SEND (R254): An egress port takes the next whole frame from its tributary queues in round robin, honouring host pause. -/
  | egressFrameSend (p : Fin 48) (reads : List TileRead) (late : Bool)
  /-- GROUP_MEMBERS_WRITE (R256): A write of 7800.01 forms or changes a bonding group, or is refused. -/
  | groupMembersWrite (cl : Client) (g : Fin 6) (mask : Fin 65536)
  /-- BOND_EXIT_WAIT_EXPIRY (R257): The 1 ms wait for group members to leave Idle together ends; the ready members leave Idle with BSQ 0. -/
  | bondExitWaitExpiry (g : Fin 6)
  /-- ALIGN_WAIT_EXPIRY (R258): The alignment wait ends; the largest set of members within 2.5 ms is aligned and the holds are fixed. -/
  | alignWaitExpiry (g : Fin 6)
  /-- BOATHOUSE_RELEASE (R259): At release(x) the boathouse hands the words of multiframe x of every aligned member to the demapper. -/
  | boathouseRelease (g : Fin 6) (slots : List (Nat × List (BitVec 64)))
  /-- GROUP_REALIGN (R261): A write of 0x01 to 7800.04 fails the bonded tributaries and realigns the group. -/
  | groupRealign (cl : Client) (g : Fin 6)
  /-- TX_CIPHER_BLOCK (R265): A transmit block of an enciphered tributary is formed, ciphered twice, compared and sent, or refused. -/
  | txCipherBlock (t : Fin 3840) (payload : List Byte) (reads : List TileRead) (k : TwinReading)
  /-- RX_BLOCK_CHECK (R284): A received enciphered block is checked for header, mode, key and tag, then delivered or zeroed. -/
  | rxBlockCheck (t : Fin 3840) (word0 : BitVec 64) (word1 : BitVec 64) (payload : List Byte) (tag : List Byte) (reads : List TileRead) (k : TwinReading)
  /-- KEK_PROGRAM (R276): A write of 0x01 to a key-encryption key's .03 starts programming the staged value into fuses, or is refused. -/
  | kekProgram (cl : Client) (n : Fin 4)
  /-- KEK_REVOKE (R276): A write of 0x02 to .03 revokes a key-encryption key. -/
  | kekRevoke (cl : Client) (n : Fin 4)
  /-- KEK_PROGRAM_COMPLETE (R276): Programming ends with read-back; the state becomes programmed or faulty and source 88 is raised. -/
  | kekProgramComplete (n : Fin 4) (good : Bool)
  /-- KEYPROV_N_RISE (R276): KEYPROV_N going high zeroes every staged key-encryption key value. -/
  | keyprovNRise
  /-- KEY_LOAD (R277): A write of a load descriptor to 7010.02 unwraps a key into the slot's next register, or is refused. -/
  | keyLoad (cl : Client) (d : List Byte)
  /-- KEY_ERASE (R280): A write of 0x01 to 7010.03 erases both registers of the slot at commit. -/
  | keyErase (cl : Client)
  /-- KEY_SWITCH_COMPLETE (R278): The last block under the old register leaves its core; the old register is erased and source 81 is raised. -/
  | keySwitchComplete (n : Fin 8192)
  /-- ZERO_N_FALL (R281): A falling edge of ZERO_N erases every key register and core copy within 10 µs; source 87 is raised. -/
  | zeroNFall
  /-- CIPHER_BINDING_WRITE (R282): A write of a transmit or receive binding is checked and takes force at the next multiframe boundary. -/
  | cipherBindingWrite (cl : Client) (dir : Fin 2) (v : Fin 4294967296)
  /-- LANE_BRINGUP_STEP (R296): A powered host lane completes a bring-up step and moves to the next, up to locked. -/
  | laneBringupStep (h : Fin 96) (m : LaneReading)
  /-- LANE_STEP_TIMEOUT (R296): Step 3 or 4 exceeds its maximum; the lane returns to step 2 and lane source 3 is raised. -/
  | laneStepTimeout (h : Fin 96)
  /-- LANE_LOS_SET (R302): Received amplitude stays below the assert level for 1 µs; raw LOS is set. -/
  | laneLosSet (h : Fin 96)
  /-- LANE_LOS_CLEAR (R302): Amplitude stays above the clear level for 10 µs; raw LOS clears. -/
  | laneLosClear (h : Fin 96)
  /-- LANE_LOCK_LOSS (R303): A locked lane loses lock and relocks from stored taps; lane source 1 is raised. -/
  | laneLockLoss (h : Fin 96)
  /-- LANE_RELOCK_TIMEOUT (R303): A relock fails within 2 ms; the lane runs a full bring-up from step 2. -/
  | laneRelockTimeout (h : Fin 96)
  /-- REFH_LOSS (R304): A REFH input is lost; transmit loops hold and receivers lose lock. -/
  | refhLoss (k : Fin 2)
  /-- PAIR_FAULT_DETECT (R305): A leg outside the common-mode window for 1 ms is a pair fault; raw LOS is held and lane source 2 is raised. -/
  | pairFaultDetect (h : Fin 96) (cmP : Fin 65536) (cmN : Fin 65536)
  /-- PAIR_TEST (R305): A write of 0x01 to 5003.04 runs the legs-together test. -/
  | pairTest (cl : Client) (h : Fin 96) (reading : Fin 65536)
  /-- DFE_ADAPT_WINDOW (R300): Each 4,096-symbol window, DFE taps move by sign-sign LMS. -/
  | dfeAdaptWindow (h : Fin 96) (sums : Vector Int 8) (snr : Int) (bits : List Bool)
  /-- LANE_DEEP_LOW_POWER (R306): A lane enters or leaves the deep low-power state. -/
  | laneDeepLowPower (h : Fin 96)
  /-- OCTET_ORDER_SEARCH (R299): When the octet's lanes have locked, or 100 ms after the first, PCS alignment is tried in both lane orders. -/
  | octetOrderSearch (o : Fin 12) (straight : Fin 16) (reversed : Fin 16)
  /-- PORT_ALIGNED (R307): A port aligns its PCS lanes and starts its up-hold. -/
  | portAligned (p : Fin 48)
  /-- PORT_UP (R307): The up-hold expires without a break; the port is up and any local fault ends. -/
  | portUp (p : Fin 48)
  /-- PORT_LOCAL_FAULT (R308): An up port loses a lane or alignment; it enters local fault and port source 0 is raised. -/
  | portLocalFault (p : Fin 48) (markers : Bool) (skew : Bool) (inFrame : Bool)
  /-- RATE_MATCH_ADJUST (R311): A transparent egress buffer deletes or inserts an idle block, or slips. -/
  | rateMatchAdjust (p : Fin 48) (enter : Nat) (send : Nat) (demap : List TileRead) (egress : List TileRead)
  /-- PRBS_INJECT (R314): A write of 0x01 to F100.07 injects one error into the generator stream. -/
  | prbsInject (cl : Client) (h : Fin 96)
  /-- PRBS_INJECT_PERIODIC (R314): Every 2^n bits the generator injects one error. -/
  | prbsInjectPeriodic (h : Fin 96)
  /-- SCRUB_READ (R329): A scrubber reads one valid line in an idle cycle; ECC errors are handled and laps counted. -/
  | scrubRead (m : Fin 16) (line : Nat) (r : LineReading) (idle : Bool)
  /-- ECC_WRITE_BACK (R326): The corrected line is written back in the memory's next cycle. -/
  | eccWriteBack (m : Fin 16) (line : Nat) (reader : Bool) (covered : Bool)
  /-- SPARE_ROW_COPY_COMPLETE (R331): A weak row has been copied to a spare or reserve row, and accesses are redirected. -/
  | spareRowCopyComplete (m : Fin 16) (row : Nat)
  /-- HBM_REPAIR_COMPLETE (R332): A queued hard post-package repair completes and is tested; the redirect is removed or kept. -/
  | hbmRepairComplete (k : Fin 4) (ok : Bool)
  /-- BDAP_FRAME_RECEIVE (R343): A frame arrives on MGT0 or MGT1; it is filtered, parsed and queued, or discarded. -/
  | bdapFrameReceive (port : Fin 2) (frame : List Byte) (inverted : Bool)
  /-- BDAP_READ (R344): A READ request returns an object's value. -/
  | bdapRead (cl : Client) (ix : Fin 65536) (sub : Fin 256)
  /-- BDAP_WRITE (R338): An unstaged WRITE is checked and applied as its own commit. -/
  | bdapWrite (cl : Client) (ix : Fin 65536) (sub : Fin 256) (ty : Fin 256) (val : List Byte)
  /-- BDAP_STAGED_WRITE (R348): A WRITE with flag bit 0 is checked and placed in its source's staging buffer. -/
  | bdapStagedWrite (cl : Client) (ix : Fin 65536) (sub : Fin 256) (ty : Fin 256) (val : List Byte)
  /-- BDAP_READ_BLOCK (R347): A READ_BLOCK returns a segment of a DOMAIN value. -/
  | bdapReadBlock (cl : Client) (ix : Fin 65536) (sub : Fin 256) (offset : Fin 4294967296) (max : Fin 65536)
  /-- BDAP_WRITE_BLOCK (R347): A WRITE_BLOCK segment opens, continues or completes a block transfer, writing the value at the last segment. -/
  | bdapWriteBlock (cl : Client) (ix : Fin 65536) (sub : Fin 256) (first : Bool) (last : Bool) (total : Fin 4294967296) (offset : Fin 4294967296) (data : List Byte)
  /-- BDAP_COMMIT (R349): COMMIT action 0x01 checks the staging buffer and applies it in one step, or refuses it whole. -/
  | bdapCommit (cl : Client)
  /-- BDAP_COMMIT_DISCARD (R348): COMMIT action 0x02 discards the source's staging buffer. -/
  | bdapCommitDiscard (cl : Client)
  /-- BDAP_SNAPSHOT (R351): A SNAPSHOT request takes a global counter snapshot. -/
  | bdapSnapshot (cl : Client)
  /-- BDAP_SUBSCRIBE (R350): SUBSCRIBE action 0x01 registers a subscriber or replaces its mask. -/
  | bdapSubscribe (cl : Client) (mask : Fin 256)
  /-- BDAP_UNSUBSCRIBE (R350): SUBSCRIBE action 0x00 cancels a subscription. -/
  | bdapUnsubscribe (cl : Client)
  /-- EVENT_ACK_RECEIVE (R350): A subscriber's ACK of an awaiting EVENT releases its next EVENT. -/
  | eventAckReceive (cl : Client)
  /-- EVENT_SEND (R350): Queued records are sent to a subscriber in one EVENT message, when none awaits acknowledgement. -/
  | eventSend (n : Fin 8)
  /-- EVENT_RESEND (R350): An EVENT not acknowledged within 20 ms is resent; after three attempts the subscription lapses. -/
  | eventResend (n : Fin 8)
  /-- STAGING_TIMEOUT (R348): A staging buffer with no staged write for the timeout is discarded; source 115 is raised. -/
  | stagingTimeout (mac : Nat) (fore : Bool)
  /-- BLOCK_TRANSFER_TIMEOUT (R347): A block transfer with no segment for 1 s is discarded. -/
  | blockTransferTimeout (mac : Nat) (fore : Bool)
  /-- RING_POST (R366): A write of 2900.03 appends descriptors to a mover ring. -/
  | ringPost (cl : Client) (n : Fin 64) (b : List Byte)
  /-- RING_RESUME (R370): A write of 0x01 to a halted ring's .04 restarts the faulted granule. -/
  | ringResume (cl : Client) (n : Fin 64)
  /-- RING_SKIP (R370): A write of 0x02 to .04 drops the faulted descriptor. -/
  | ringSkip (cl : Client) (n : Fin 64)
  /-- RING_FLUSH (R370): A write of 0x03 to .04 drops every descriptor of the ring. -/
  | ringFlush (cl : Client) (n : Fin 64)
  /-- MOVER_GRANULE (R368): At a granule boundary the mover chooses a ring by priority and moves one checked granule, or faults. -/
  | moverGranule (bad : Option GranuleError)
  /-- WINDOW_WRITE (R364): A write of a translation window entry is checked and applied; it marks transfers through it faulted. -/
  | windowWrite (cl : Client) (v : List Byte)
  /-- CAPTURE_ARM (R372): A write of 0x01 to F200.01 arms or re-arms a capture. -/
  | captureArm (cl : Client) (c : Fin 12)
  /-- CAPTURE_STOP (R372): A write of 0x02 to F200.01 ends a capture early. -/
  | captureStop (cl : Client) (c : Fin 12)
  /-- CAPTURE_COMPLETE (R372): A filling capture has written its length and completes. -/
  | captureComplete (c : Fin 12)
  /-- CLEAR_ALL_LATCHED (R382): A write of 0x01 to B600.05 clears every latched bit. -/
  | clearAllLatched (cl : Client)
  /-- EVENT_LATCH_CLEAR (R382): A W1C write of a source's .03 clears its latch. -/
  | eventLatchClear (cl : Client) (e : Fin 1408)
  /-- INPUT_SAMPLE (R388): Every 1 µs each external input is sampled and debounced; accepted edges raise events and feed LOS and PPS. -/
  | inputSample (levels : Vector Bool 36) (ago : Vector Nat 4)
  /-- INPUT_STUCK (R389): An input active beyond its stuck limit raises a stuck record and is masked. -/
  | inputStuck (input : Fin 36)
  /-- INPUT_RATE_WINDOW_END (R390): A 100 ms window ends; a summary is raised while rate-limited, and rate limiting may end. -/
  | inputRateWindowEnd
  /-- SNAPSHOT_GATHER_COMPLETE (R395): The gather of latched counters into bank 0 completes. -/
  | snapshotGatherComplete
  /-- CLEAR_WRAPS (R394): A write of a group mask to A001.08 clears wrap bits. -/
  | clearWraps (cl : Client) (mask : Fin 256)
  /-- COUNTER_FILTER_READ (R397): A READ_BLOCK of A010.07 at offset 0 forms and holds the filtered counter result. -/
  | counterFilterRead (cl : Client) (max : Fin 65536)
  /-- TIME_TICK (R400): At each 4 ns tick every time base adds its increment, and pending steps apply. -/
  | timeTick
  /-- TIME_STEP_OFFSET (R402): A write of 8000.03 steps a time base by an offset, or is refused. -/
  | timeStepOffset (cl : Client) (t : Fin 4) (v : Int)
  /-- TIME_SET_ABSOLUTE (R402): A write of 8000.02 sets a time base absolutely, as a step. -/
  | timeSetAbsolute (cl : Client) (t : Fin 4) (b : List Byte)
  /-- TREF_OUT_OF_TOLERANCE (R399): TREF is absent or off by more than 50 ppm for 10 µs; the timing clock moves to XTAL or holdover; source 35 is raised. -/
  | trefOutOfTolerance (offset : Option Int)
  /-- TREF_RETURN (R399): TREF has been in tolerance for 1 s; the timing clock returns to it. -/
  | trefReturn (offset : Int)
  /-- PPS_OUT_FALL (R405): PPS_OUT falls after its width. -/
  | ppsOutFall (j : Fin 4)
  /-- TS_QUEUE_POP (R407): A READ of 8100.01 returns and removes the oldest timestamp entry. -/
  | tsQueuePop (cl : Client)
  /-- RAIL_SAMPLE (R413): Every 1 µs each rail is sampled; below-floor episodes start or end. -/
  | railSample (v : Vector (Fin 65536) 13)
  /-- BROWNOUT (R413): A rail has been below its floor for 200 µs; the device enters Haven with cause bit 1. -/
  | brownout (r : Fin 13)
  /-- SENSOR_SAMPLE (R425): A thermal sensor is sampled; failures, substitutes, compensation and shutdown checks follow. -/
  | sensorSample (sensor : Fin 40) (code : Int)
  /-- SENSOR_READMIT (R428): A write of 0x01 to 2380.05 starts readmission of a failed sensor. -/
  | sensorReadmit (cl : Client) (sensor : Fin 40)
  /-- SENSOR_READMIT_COMPLETE (R428): A sensor passes every test for 1 s and returns to valid. -/
  | sensorReadmitComplete (sensor : Fin 40)
  /-- SHED_RESTORE (R432): A write of 1 to a bit of 2500.08 restores a shed carrier. -/
  | shedRestore (cl : Client) (mask : Fin 65536)
  /-- ORDERLY_SHUTDOWN_COMPLETE (R433): The flush ends; Haven is entered with cause bit 5 and the record is kept. -/
  | orderlyShutdownComplete
  /-- HK_SEQ_START (R444): A write of 0x01 to 9000.04 triggers the regular sequence. -/
  | hkSeqStart (cl : Client) (k : Fin 2)
  /-- HK_INJECT_START (R446): A write of 0x01 to 9000.0A makes the injected entry pending. -/
  | hkInjectStart (cl : Client) (k : Fin 2)
  /-- HK_CONVERSION_COMPLETE (R442): A housekeeping conversion completes; the result, plausibility and limits are written and checked. -/
  | hkConversionComplete (k : Fin 2) (m : HkReading)
  /-- HK_CAL_REQUEST (R447): A write of 0x01 to 9000.0D requests calibration, latched when an injection is pending. -/
  | hkCalRequest (cl : Client) (k : Fin 2)
  /-- HK_CAL_AUTO (R447): The automatic calibration interval expires and calibration is requested. -/
  | hkCalAuto (k : Fin 2)
  /-- HK_CAL_COMPLETE (R447): A 600 µs calibration ends; it takes force or is refused, and the sequence resumes. -/
  | hkCalComplete (k : Fin 2) (m : HkCalReading)
  /-- HK_RESULT_READ (R442): A READ of 9100.01 or 9000.0C returns the result and clears its new and overrun bits. -/
  | hkResultRead (cl : Client) (r : Fin 66)
  /-- TIE_HEARTBEAT (R454): Every 1 µs each module sends a heartbeat on every locked tie lane. -/
  | tieHeartbeat (lanes : Fin 16)
  /-- TIE_HEARTBEAT_RX (R456): A heartbeat from the partner is taken; link state and roles are agreed. -/
  | tieHeartbeatRx (m : HeartbeatReading) (bad : Fin 4)
  /-- TIE_LINK_DOWN (R454): 10 µs pass without a valid tie message; the link goes down and source 145 is raised. -/
  | tieLinkDown
  /-- DIGEST_RECOMPUTE (R457): A configuration digest is recomputed after a change and sent to the partner. -/
  | digestRecompute
  /-- TIE_DIGEST_RX (R457): Partner digests arrive and digest agreement is updated. -/
  | tieDigestRx (d : Vector (BitVec 32) 8) (bad : Fin 4)
  /-- TIE_KEY_RECORD_RX (R458): The standby applies a forwarded key load or erase, or marks the slot unsynchronised. -/
  | tieKeyRecordRx (n : Fin 8192) (d : Option (List Byte)) (bad : Fin 4)
  /-- TIE_LEASE_RX (R459): The standby takes a counter lease and acknowledges it. -/
  | tieLeaseRx (n : Fin 8192) (g : Fin 2) (l : BitVec 64) (bad : Fin 4)
  /-- TIE_LEASE_ACK_RX (R274): The active receives a lease acknowledgement and may count up to it. -/
  | tieLeaseAckRx (n : Fin 8192) (g : Fin 2) (l : BitVec 64) (bad : Fin 4)
  /-- TIE_DELIVERY_RX (R455): The standby records the BSQ at which the active began delivery. -/
  | tieDeliveryRx (c : Fin 12) (bsq : Fin 16777216) (bad : Fin 4)
  /-- TIE_TX_ALIGNMENT_RX (R460): The standby aligns its transmit multiframe boundaries and BSQ to the active. -/
  | tieTxAlignmentRx (bsq : Fin 16777216) (time : Nat) (bad : Fin 4)
  /-- TIE_RELEASE_RX (R464): A release from the active makes a ready standby active, or sends it to state 3. -/
  | tieReleaseRx (cause : Fin 6) (bad : Fin 4)
  /-- TIE_SWITCH_REQUEST_RX (R463): A switch request from the partner moves the roles. -/
  | tieSwitchRequestRx (cause : Fin 6) (bad : Fin 4)
  /-- PAIR_SWITCH (R461): A write of 0x01 to C000.03 switches over when the standby is ready. -/
  | pairSwitch (cl : Client)
  /-- PAIR_SWITCH_FORCE (R461): A write of 0x02 to C000.03 forces a switchover while the tie link is up. -/
  | pairSwitchForce (cl : Client)
  /-- HEALTH_SWITCH (R461): Standby health has exceeded active health by the margin for the hold-off, and a switchover starts. -/
  | healthSwitch
  /-- TIE_LOSS_TAKEOVER (R462): 20 µs after tie loss under take-over policy, the standby becomes active. -/
  | tieLossTakeover
  /-- REFH_RETURN (R304): A lost REFH input returns; the transmit loops of its 48 lanes leave their held tuning word and the receivers relock. -/
  | refhReturn (k : Fin 2)
  /-- SYNTHESISER_LOCK (R90): The sample synthesiser loops lock to REFL within 2 ms of a Trim request, and foreground calibration begins. -/
  | synthesiserLock (k : Fin 4)
  /-- ZERO_N_RISE (R281): ZERO_N returns high; 7000.08 reads 0 and key loads are no longer refused with code 6. -/
  | zeroNRise
  /-- KEYPROV_N_FALL (R276): KEYPROV_N is driven low; 7000.07 reads 1 and key-encryption-key programming and revocation become possible. -/
  | keyprovNFall
  /-- REMOTE_FAULT_RECEIVED (R309): Remote Fault ordered sets from the host start or stop on a port; 5C01.04 follows and port source 1 is raised. -/
  | remoteFaultReceived (p : Fin 48) (present : Bool)
  /-- PAIR_FAULT_CLEAR (R305): A leg has been back within the common-mode window for 1 ms; the pair fault clears, raw LOS is released and lane source 2 is raised. -/
  | pairFaultClear (h : Fin 96) (cmP : Fin 65536) (cmN : Fin 65536)
  /-- PRBS_CHECKER_LOCK (R313): The PRBS checker sees 256 consecutive matching bits and locks, reporting the sense found and starting to count. -/
  | prbsCheckerLock (h : Fin 96) (bits : List Bool)
  /-- PRBS_CHECKER_UNLOCK (R313): More than 64 of 1,024 bits mismatch; the checker unlocks and reseeds. -/
  | prbsCheckerUnlock (h : Fin 96)
  /-- RX_GFP_FRAME (R246): The receive demapper delineates a GFP frame of a packet tributary, corrects or discards it, verifies custody and stores it in the receive queue or drops it when full. -/
  | rxGfpFrame (t : Fin 3840) (m : GfpReading)
  /-- MGT_PLCA_STATUS_CHANGE (R342): The PLCA beacon on a management segment appears or is lost, or the port falls back to CSMA/CD; 1201.05 or 1202.05 changes and device-wide source 113 is raised. -/
  | mgtPlcaStatusChange (port : Fin 2) (status : Fin 3)
  /-- HK_SAMPLE_BOUNDARY (R446): A housekeeping converter finishes one sample; a pending injected entry or calibration starts here, pausing the sequence. -/
  | hkSampleBoundary (k : Fin 2)
deriving DecidableEq, Repr

end Sys2Proof
end

