-- ==== Sys2Proof/Config.lean ====
section
/-! DEFINITION. What one part fixes (fuses) and what the manual leaves open. Every constant here is opaque: nothing in
Lean can evaluate it, so a statement holds for every value it may have. -/

namespace Sys2Proof

/-- 1000.04 (R2): the fused grade, 0 = RNV-9612-AC, 1 = RNV-9612-AE. -/
opaque Config.grade : Fin 2

/-- 1000.05 (R2): the fused serial number. -/
opaque Config.serial : BitVec 64

/-- R480: the manufacturer field of the IDCODE, which the manual does not give. -/
opaque Config.manufacturer : BitVec 11

/-- R412: the fused nominal voltage in mV of VHBMC, VHBMQ and VHBMPP (numbers 0 to 2). -/
opaque Config.hbmNominal : Nat → Nat

/-- E100.06 (R333) of an on-die SRAM domain m: two spare rows per macro, the macros of a domain being the part's. -/
opaque Config.sramSpares : Nat → Nat

/-- R329: the lines of 64 bytes of domain m. -/
opaque Config.memLines : Nat → Nat

/-- R331: the row of on-die SRAM domain m that holds a line, given by its address; and the macro that a row belongs to. -/
opaque Config.memRow : Nat → Nat → Nat

/-- R331: see Config.memRow. -/
opaque Config.memMacro : Nat → Nat → Nat

/-- The supply of free values: the n-th value the manual leaves open in a run (State.free counts them). Assumption 3. -/
opaque Config.freeNat : Nat → Nat

/-- R205: the exact symbol rate, in kBd, that the MSA defines for a Compatible payload of n × 100 Gb/s. -/
opaque Config.msaRate : Nat → Nat

/-- R201: the three ones of an information column of the base matrices, by profile and block column: a number that picks the
block row among those left, and the shift. -/
opaque Config.baseColumn : Nat → Nat → Vector (Nat × Fin 64) 3

/-- How the signal path rounds num / den (den positive) where the manual does not say: up to the next integer, or down. -/
opaque Config.roundUp : Int → Nat → Bool

/-- R113, R128: tap 0 to 15, in Q2.14, of the interpolator that delays a channel by a fraction 1 to 63 of 64 of a sample. -/
opaque Config.delayTap : Nat → Nat → Int

/-- R131, R141: the ADC codes that unit amplitude takes at the receive equaliser's input, in 1/65,536 LSB, less one. -/
opaque Config.unitLsb : Nat

/-- R206: the size of an LLR, in units of 0.5 nat, of a bit of a dimension before the prior: modulation in force, bit (0 first
label bit, 1 second, 2 sign), and by how much the received value lies nearer to the levels of one bit value than to those of the
other, as a difference of squares in 2⁻²⁸. How the demapper weighs noise is not stated. -/
opaque Config.llr : Nat → Nat → Nat → Nat

/-- R205: the known symbol, X and Y in Q2.14, at a place of the frame that the MSA defines for Compatible; none where it carries
data. -/
opaque Config.msaKnown : Nat → Option ((Int × Int) × (Int × Int))

/-- R205: the point of the constellation of that signal, in Q2.14, nearest to a value. -/
opaque Config.msaPoint : Int × Int → Int × Int

/-- R185: the received level in 0.1 dB of four channels given as RMS in 1/256 LSB and gain code, held between the lowest and
the highest of them: how they are averaged is not stated. -/
opaque Config.receivedLevel : List (Nat × Nat) → Int

/-- R100: the VCO bias correction, in 0.1 % of the loop bandwidth, that the fused table of a loop (c receive, 12 + c
transmit) gives at a sensor reading in 0.1 °C. -/
opaque Config.vcoBias : Nat → Int → Int

/-- R100: the trim of the references of converter chiplet c, in 0.01 %, that its fused table gives at a sensor reading in
0.1 °C. -/
opaque Config.referenceTrim : Nat → Int → Int

/-- R433: the slope in 0.01 °C/ms of a sensor's last 16 samples, oldest first, in 1/16 °C: how it is formed is not stated. -/
opaque Config.thermalSlope : List Int → Int

/-- R247: a 257-bit block, first bit most significant, is an alignment marker of the stream of a port with a rate code. -/
opaque Config.isMarker : Nat → Nat → Bool

end Sys2Proof
end

