-- ==== Sys2Proof/Machine/Lines.lean ====
section
/-! DEFINITION. The types of what a carrier's line holds between its stages: encoder, symbols, samples and decoder (R104 to
R119, R124 to R134, R157 to R168, R194 to R209). -/

namespace Sys2Proof.Machine

/-- A complex number as real and imaginary part. -/
abbrev Cx := Int × Int

/-- A sample or symbol of both polarisations, X then Y. -/
abbrev Cx2 := Cx × Cx

/-- A stroke set: 256 samples of the four channels XI, XQ, YI, YQ. -/
abbrev Stroke := List (List Int)

/-- A 64b/66b block: control or data, and its 64 bits behind the synchronisation header, the first sent at bit 0 (R311, log entry
50). -/
structure Block66 where
  control : Bool
  bits : Nat
deriving DecidableEq, Repr

/-! ## Transmit -/

/-- The ladder encoder of a carrier: the rung before the one being filled, its finished rows, the information bits of the row
under way, and the parity queue (R203, R204). -/
structure Ladder where
  prev : List (List Bool)
  rows : List (List Bool)
  part : List Bool
  queue : List Bool
deriving DecidableEq, Repr

/-- The transmit line of a carrier, from the logical frame to the DACs. Values between stages are in units of 2⁻³⁰. -/
structure TxLine where
  /-- scrambled line bits no field has taken yet (R194), each with the tag of the line tile it belongs to, 0 for none (R319) -/
  bits : List (Bool × Nat)
  /-- BIP8 of the last logical frame's payload area (R226) -/
  bip : Byte
  /-- first field of the logical multiframe being formed (R213) -/
  first : Nat
  /-- first free value of the words of that multiframe that no source has given -/
  base : Nat
  /-- q of the next field (R194) -/
  field : Nat
  ladder : Ladder
  /-- the last 16 codewords, newest first (R202) -/
  words : List (List Bool)
  /-- symbol times made since exit from Idle -/
  made : Nat
  /-- the phase word of the pad under way (R200) -/
  phase : Nat
  /-- samples made since exit from Idle -/
  samples : Nat
  /-- the last 48 symbols, newest first (R110) -/
  symbols : List Cx2
  /-- the last 4,096 samples of stage 3, newest first (R111) -/
  shaped : List Cx2
  /-- the last 160 samples of each DAC channel before its delay, newest first (R113) -/
  wired : List (List Int)
  /-- the last 15 samples of each DAC channel behind its delay, newest first (R114) -/
  delayed : List (List Int)
deriving DecidableEq, Repr

/-- The line at exit from Idle: nothing sent, 66 zero bits in the parity queue (R204). -/
def TxLine.start : TxLine where
  bits := []
  bip := 0
  first := 0
  base := 0
  field := 0
  ladder := ⟨[], [], [], List.replicate 66 false⟩
  words := []
  made := 0
  phase := 0
  samples := 0
  symbols := []
  shaped := []
  wired := [[], [], [], []]
  delayed := [[], [], [], []]

/-! ## Receive -/

/-- An equalised symbol (stage 7): its place in the frame, the number of the frame in the multiframe once the pad has shown it
(R199), X and Y in Q2.14, and whether it is erased (R127). -/
structure RxSymbol where
  at_ : Nat
  frame : Option Nat
  y : Cx2
  erased : Bool
deriving DecidableEq, Repr

/-- A symbol released by stage 8: count since exit from Idle, place in frame and multiframe, sampling instant in ps, stage-7
output, first-pass decision d (both in Q2.14), phase estimate φ of X and Y in units of π / 4,096, whether it is erased, and the
valid bit it was exported with (R157). -/
structure Decision where
  n : Nat
  at_ : Nat
  frame : Option Nat
  instant : Nat
  y : Cx2
  d : Cx2
  phi : Int × Int
  erased : Bool
  valid : Bool
deriving DecidableEq, Repr

/-- A symbol of a decision stream: d, φ of X and Y, and the valid bit (R157). -/
structure StreamSymbol where
  d : Cx2
  phi : Int × Int
  valid : Bool
deriving DecidableEq, Repr

/-- A block of up to 16 symbols of a decision stream, with the sampling instant of the first in ps (R157). -/
structure StreamBlock where
  instant : Nat
  symbols : List StreamSymbol
deriving DecidableEq, Repr

/-- A slot demapped: the phase word that described it, where it is the first of a multiframe, and its LLRs by position, none
for an erased one (R199, R200, R206). -/
structure RxSlot where
  word : Option Nat
  llr : List (Option Int)
deriving DecidableEq, Repr

/-- What the logical frames of the received multiframe under way have said (R215 to R223): how many came, how many carried FANN
and TPG, their BSQ, the slot overhead entries by slot, the number of the last frame, the bits of its payload area behind the
last whole word, and the words of bonded tributaries by number. A mark says that a word holds bits of a block delivered as
zeros. -/
structure RxMulti where
  frames : Nat
  announced : Nat
  parity : Nat
  bsqs : List Nat
  entries : List (Nat × Nat)
  last : Option Nat
  tail : List (Bool × Bool)
  words : List (Nat × Nat × Bool)
deriving DecidableEq, Repr

/-- A multiframe of which nothing has come. -/
def RxMulti.start : RxMulti where
  frames := 0
  announced := 0
  parity := 0
  bsqs := []
  entries := []
  last := none
  tail := []
  words := []

/-- A multiframe that the boathouse holds for a carrier (R259): its BSQ, slot overhead entries and words by number. -/
structure Boat where
  bsq : Nat
  entries : List (Nat × Nat)
  words : List (Nat × Nat × Bool)
deriving DecidableEq, Repr

/-- What a received multiframe brings a tributary (R218, R265): its data positions, how many of them have been taken, and the
words that have come by position. -/
structure RxShare where
  cm : Nat
  taken : Nat
  words : List (Nat × Nat × Bool)
deriving DecidableEq, Repr

/-- A tributary between the line and its egress: multiframes not wholly taken, oldest first, and bytes deciphered or plain that
the demapper has not taken; a mark says that a byte lies in a tile that failed. Of a transparent one also the bits behind those bytes
that no whole block has taken, and whether they begin with a block (R247, R311). -/
structure RxTrib where
  shares : List RxShare
  bytes : List (Byte × Bool)
  bits : List (Bool × Bool)
  aligned : Bool
deriving DecidableEq, Repr

/-- A tributary with nothing received. -/
def RxTrib.start : RxTrib where
  shares := []
  bytes := []
  bits := []
  aligned := false

/-- The receive line of a carrier, from the ADCs to the line bits. -/
structure RxLine where
  /-- samples through stage 1 since exit from Idle, those of long gaps included (R126) -/
  samples : Nat
  /-- running mean of each channel, in 2⁻³⁰ LSB (R131) -/
  dc : List Int
  /-- the last 160 samples of each physical channel, newest first, in 2⁻³⁰ LSB (R128) -/
  raw : List (List Int)
  /-- the erasure flags of those samples, newest first (R125) -/
  flags : List Bool
  /-- the last 16,384 erasure flags behind stage 2, newest first (R125, R128) -/
  blank : List Bool
  /-- the last 16,384 samples of stage 4, newest first (R134) -/
  front : List Cx2
  /-- the last 4,096 samples of stage 5, newest first (R132) -/
  equal : List Cx2
  /-- timing loop: the instant of the next symbol in 2⁻²⁰ sample counted since exit from Idle, and the far-end clock against the
  local one in 2⁻¹⁶ ppb (R132) -/
  clock : Option Int
  clockFreq : Int
  /-- symbols of stage 7 that stage 8 still holds, oldest first (R166) -/
  held : List RxSymbol
  /-- power of the known symbols of the frame under way and of what the equaliser output differs from them by, in 2⁻²⁸ (R180) -/
  pilotPower : Nat
  pilotError : Nat
  /-- the phase track of X and Y at the last symbol released, in units of π / 4,096 -/
  track : Int × Int
  /-- phases of X and Y at the centre of the last group measured since the handover, in units of π / 4,096, and half symbols since
  then (R165) -/
  loop : Option (Int × Int)
  since : Nat
  /-- frequency estimate in mHz, and its ramp in mHz per 2²⁰ symbols (R165) -/
  freq : Int
  ramp : Int
  /-- symbols released since exit from Idle -/
  released : Nat
  /-- symbols in the delay line of the second pass, oldest first (R156) -/
  delay : List Decision
  /-- the last 4,096 symbols of the decision stream, newest first (R157) -/
  stream : List Decision
  /-- LLRs of the slot under way, dimension by dimension, oldest first -/
  dims : List (List (Option Int))
  /-- sign bits of the phase word received last (R200) -/
  signs : List Bool
  /-- the phase word received last, until the multiframe that it stands before begins (R199, R209) -/
  phase : Option Nat
  /-- slots of the de-interleaver, oldest first (R202) -/
  slots : List RxSlot
  /-- a phase word has aligned the decoder since the carrier entered Seeking (R199, R209) -/
  aligned : Bool
  /-- q mod 7 of the next codeword decoded, and of the next field delivered -/
  field : Nat
  outField : Nat
  /-- ladder information bits of the row under way, and parity bits of which the first `skip` belong to rows not held -/
  part : List Bool
  parity : List Bool
  skip : Nat
  /-- rows of the ladder window whose parity has not come, and complete rows, oldest first (R207) -/
  open_ : List (List Bool)
  window : List (List Bool)
  /-- the last rung delivered -/
  prev : List (List Bool)
  /-- leading ladder bits that belong to fields not received -/
  void : Nat
  /-- ladder information bits delivered and not yet a whole field -/
  info : List Bool
  /-- line bits delivered by the inverse matcher, each marked where its block was delivered as zeros (R197) -/
  bits : List (Bool × Bool)
  /-- BIP8 of the payload area of the logical frame received last (R226) -/
  bip : Option Byte
  /-- logical frames taken of the multiframe that the delivered bits belong to, and q mod 7 of its first field (R213) -/
  frames : Nat
  first : Nat
  /-- the received multiframe under way, and multiframes in the boathouse, oldest first -/
  multi : RxMulti
  boats : List Boat
deriving DecidableEq, Repr

/-- The receive line at exit from Idle. -/
def RxLine.start : RxLine where
  samples := 0
  dc := [0, 0, 0, 0]
  raw := [[], [], [], []]
  flags := []
  blank := []
  front := []
  equal := []
  clock := none
  clockFreq := 0
  held := []
  pilotPower := 0
  pilotError := 0
  track := (0, 0)
  loop := none
  since := 0
  freq := 0
  ramp := 0
  released := 0
  delay := []
  stream := []
  dims := []
  signs := []
  phase := none
  slots := []
  aligned := false
  field := 0
  outField := 0
  part := []
  parity := []
  skip := 0
  open_ := []
  window := []
  prev := []
  void := 0
  info := []
  bits := []
  bip := none
  frames := 0
  first := 0
  multi := RxMulti.start
  boats := []

end Sys2Proof.Machine
end

