-- ==== Sys2Proof/Machine/Registers.lean ====
section
/-! DEFINITION. Every scalar register of the block: one constructor per object of the dictionary (the docstring gives
its index and subindex, its dotted name and the rule that names it), then the scalar state that the spec implies
without giving it an object (names that begin with x). With each: the value it holds at reset, its wire type, its
access code and the range its own rule states. -/

namespace Sys2Proof.Machine

/-- The registers. Each is an array over the units it has (carriers, converters, lanes, rows ...); the second part of
a register file key says which. -/
inductive Reg where
  /-- 1000.01 identity.vendor (00_scope.md R2): Zipel Lightworks vendor code -/
  | identityVendor
  /-- 1000.02 identity.part (00_scope.md R2): part code of the RNV-9612 -/
  | identityPart
  /-- 1000.03 identity.stepping (00_scope.md R2): bits 7:4 stepping letter (1 = A, 2 = B); bits 3:0 stepping digit. 0x21 is B1 -/
  | identityStepping
  /-- 1000.04 identity.grade (00_scope.md R2): 0 = RNV-9612-AC, 1 = RNV-9612-AE -/
  | identityGrade
  /-- 1000.05 identity.serial (00_scope.md R2): module serial number -/
  | identitySerial
  /-- 1F00.01 forerunner.enable (00_scope.md R3): 1 = forerunner view present -/
  | forerunnerEnable
  /-- 1F00.02 forerunner.active (00_scope.md R3): 1 = forerunner view is answering requests -/
  | forerunnerActive
  /-- 3010.01 carrier[0].slack.rx_fill (01_architecture.md R22): present receive fill -/
  | carrierSlackRxFill
  /-- 3010.02 carrier[0].slack.tx_fill (01_architecture.md R22): present transmit fill -/
  | carrierSlackTxFill
  /-- 3010.03 carrier[0].slack.rx_target (01_architecture.md R22): receive target in force, per R17 -/
  | carrierSlackRxTarget
  /-- 3010.04 carrier[0].slack.tx_target (01_architecture.md R22): transmit target in force, per R17 -/
  | carrierSlackTxTarget
  /-- 3010.05 carrier[0].slack.rx_peak (01_architecture.md R22): highest receive fill seen; writing 1 resets it to the present fill -/
  | carrierSlackRxPeak
  /-- 3010.06 carrier[0].slack.tx_low (01_architecture.md R22): lowest transmit fill seen; writing 1 resets it to the present fill -/
  | carrierSlackTxLow
  /-- 3010.07 carrier[0].slack.held (01_architecture.md R22): 1 = carrier held per R21 -/
  | carrierSlackHeld
  /-- 3010.08 carrier[0].slack.hold_episodes (01_architecture.md R22): number of entries to held -/
  | carrierSlackHoldEpisodes
  /-- 3010.09 carrier[0].slack.rx_discarded (01_architecture.md R22): sets discarded under R19 -/
  | carrierSlackRxDiscarded
  /-- 3010.0A carrier[0].slack.tx_hold_sets (01_architecture.md R22): hold sets emitted under R20 -/
  | carrierSlackTxHoldSets
  /-- 2200.01 guard[0].setpoint (01_architecture.md R30): present AVSBus setpoint -/
  | guardSetpoint
  /-- 2200.02 guard[0].c_run (01_architecture.md R30): per R23 -/
  | guardCRun
  /-- 2200.03 guard[0].c_droop (01_architecture.md R30): per R23 -/
  | guardCDroop
  /-- 2200.04 guard[0].c_look (01_architecture.md R30): per R23 -/
  | guardCLook
  /-- 2200.05 guard[0].requirement (01_architecture.md R30): Q per R25 -/
  | guardRequirement
  /-- 2200.06 guard[0].backlog (01_architecture.md R30): B per R25 -/
  | guardBacklog
  /-- 2200.07 guard[0].state (01_architecture.md R30): state in the last loop period, the first that applies: 3 control lost (R29); 2 setpoint at 920 mV; 1 raising, that is backlog above zero or a 10 mV step of R26 or R27 taken in that period; 0 tracking -/
  | guardState
  /-- 2200.08 guard[0].fast_raises (01_architecture.md R30): number of fast-raise steps of R26 taken; the steps of R27 are not counted -/
  | guardFastRaises
  /-- 2200.09 guard[0].period (01_architecture.md R30): loop period -/
  | guardPeriod
  /-- 2000.01 device.mode.request (02_modes.md R38): write a mode code to request a transition; reads the last accepted request -/
  | deviceModeRequest
  /-- 2000.02 device.mode.state (02_modes.md R38): present mode code -/
  | deviceModeState
  /-- 2000.03 device.mode.busy (02_modes.md R38): 1 = a transition is in progress -/
  | deviceModeBusy
  /-- 2000.04 device.mode.refusal (02_modes.md R38): reason for the last refused request, per Table: Refusal reasons -/
  | deviceModeRefusal
  /-- 2000.05 device.haven.tx_policy (02_modes.md R38): 0 = mute, 1 = idle; taken at each Haven entry (R44); a write while in Haven governs the next entry -/
  | deviceHavenTxPolicy
  /-- 2000.06 device.haven.key_policy (02_modes.md R38): 0 = retain, 1 = zeroise; taken at each Haven entry (R44); a write while in Haven governs the next entry -/
  | deviceHavenKeyPolicy
  /-- 2000.07 device.haven.first_cause (02_modes.md R38): bit number in 2000.08 of the cause that entered Haven; when several causes are established at one instant, the highest of their bit numbers; 0xFF = Haven never entered since reset -/
  | deviceHavenFirstCause
  /-- 2000.08 device.haven.causes (02_modes.md R38): all causes seen since Haven was entered, per Table: Haven cause map -/
  | deviceHavenCauses
  /-- 2000.09 device.haven.entries (02_modes.md R38): Haven entries since cold reset -/
  | deviceHavenEntries
  /-- 2000.0A device.reset (02_modes.md R38): writing 0x5752 performs a warm reset as SYSRST_N; other values are refused with abort 0x07 (R338) -/
  | deviceReset
  /-- 3000.01 carrier[0].request (02_modes.md R49): 0 = Idle, 1 = line up without traffic, 2 = carry traffic -/
  | carrierRequest
  /-- 3000.02 carrier[0].state (02_modes.md R49): state code per Table: Carrier states -/
  | carrierState
  /-- 3000.03 carrier[0].state_changes (02_modes.md R49): transitions since reset -/
  | carrierStateChanges
  /-- 3000.04 carrier[0].last_drop (02_modes.md R49): cause of last exit from Locked or Carrying: 0 none, 1 LOS, 2 LOF, 3 request, 4 device mode (every mode change, Haven under mute included), 5 REFL loss and relock (R63), 6 shed (R432) -/
  | carrierLastDrop
  /-- 2E00.01 boot.straps (02_modes.md R55): per Table: Strap map -/
  | bootStraps
  /-- 2E00.02 boot.status (02_modes.md R55): 0 loading, 1 loaded from flash, 2 CRC mismatch, 3 header invalid, 4 stepping mismatch, 5 flash not responding, 6 loaded from host -/
  | bootStatus
  /-- 2E00.03 boot.slot (02_modes.md R55): slot loaded; 0xFE host; 0xFF none -/
  | bootSlot
  /-- 2E00.04 boot.version (02_modes.md R55): version field of the loaded image -/
  | bootVersion
  /-- 2E00.05 boot.load_time (02_modes.md R55): from fuse load end to 2E00.02 final -/
  | bootLoadTime
  /-- 2E00.06 boot.reset_cause (02_modes.md R55): 0 PORST_N, 1 SYSRST_N, 2 2000.0A -/
  | bootResetCause
  /-- 2E01.01 boot.host_image (02_modes.md R55): host-supplied image; writable in Dormant with no transition in progress and 2E00.02 from 2 to 6; refusals per R55 -/
  | bootHostImage
  /-- 2E01.02 boot.host_load (02_modes.md R55): 0x01 = check and load 2E01.01; as 2E01.01; refusals per R55 -/
  | bootHostLoad
  /-- 2400.01 refl[0].state (03_line_converters.md R63): 0 absent, 1 within ±100 ppm, 2 present but outside ±100 ppm -/
  | reflState
  /-- 2400.02 refl[0].offset (03_line_converters.md R63): REFL0 frequency against XTAL; −2,147,483,648 while absent (R63) -/
  | reflOffset
  /-- 2400.03 refl[0].losses (03_line_converters.md R63): entries to state 0 or 2 since reset -/
  | reflLosses
  /-- 4000.01 adc[0].state (03_line_converters.md R84): 0 unpowered, 1 powered, 2 sampling, 3 loop in holdover -/
  | adcState
  /-- 4000.02 adc[0].sample_rate (03_line_converters.md R84): rate in force, per R62 -/
  | adcSampleRate
  /-- 4000.03 adc[0].clip_count (03_line_converters.md R84): clips per R59 -/
  | adcClipCount
  /-- 4000.04 adc[0].rms (03_line_converters.md R84): RMS of the last completed AGC window -/
  | adcRms
  /-- 4001.01 adc[0].agc.mode (03_line_converters.md R84): 0 hold, 1 auto, 2 manual -/
  | adcAgcMode
  /-- 4001.02 adc[0].agc.gain (03_line_converters.md R84): gain code in force, 0 to 36 -/
  | adcAgcGain
  /-- 4001.03 adc[0].agc.manual_gain (03_line_converters.md R84): manual gain target, 0 to 36; larger values refused -/
  | adcAgcManualGain
  /-- 4001.04 adc[0].agc.target (03_line_converters.md R84): RMS target, 4 to 40; other values refused -/
  | adcAgcTarget
  /-- 4001.05 adc[0].agc.hysteresis (03_line_converters.md R84): W, 1 to 8 (0.5 to 4 dB); other values refused -/
  | adcAgcHysteresis
  /-- 4001.06 adc[0].agc.steps (03_line_converters.md R84): gain steps taken -/
  | adcAgcSteps
  /-- 4001.08 adc[0].agc.at_limit (03_line_converters.md R84): per R70 -/
  | adcAgcAtLimit
  /-- 4002.01 adc[0].open.result (03_line_converters.md R84): per Table: Open test result map -/
  | adcOpenResult
  /-- 4002.02 adc[0].open.shift_p (03_line_converters.md R84): movement of the P leg in the latest test -/
  | adcOpenShiftP
  /-- 4002.03 adc[0].open.shift_n (03_line_converters.md R84): movement of the N leg in the latest test -/
  | adcOpenShiftN
  /-- 4600.01 dac[0].state (03_line_converters.md R84): 0 unpowered, 1 data, 2 code 0 output, 3 a leg protected -/
  | dacState
  /-- 4600.02 dac[0].sample_rate (03_line_converters.md R84): rate in force, per R61 -/
  | dacSampleRate
  /-- 4600.03 dac[0].enable (03_line_converters.md R84): 0 = output code 0 continuously -/
  | dacEnable
  /-- 4600.04 dac[0].swing (03_line_converters.md R84): per R79; values outside 200 to 800, or not a multiple of 10, refused -/
  | dacSwing
  /-- 4601.01 dac[0].short.state (03_line_converters.md R84): bit 1 N leg protected, bit 0 P leg protected; bits 7:2 read 0 -/
  | dacShortState
  /-- 4601.02 dac[0].short.retry_enable (03_line_converters.md R84): per R81 -/
  | dacShortRetryEnable
  /-- 4601.03 dac[0].short.retry_interval (03_line_converters.md R84): 10 to 10,000; other values refused -/
  | dacShortRetryInterval
  /-- 4601.04 dac[0].short.episodes (03_line_converters.md R84): detections per R80 -/
  | dacShortEpisodes
  /-- 4601.05 dac[0].short.retries (03_line_converters.md R84): trials per R81 -/
  | dacShortRetries
  /-- 3020.01 carrier[0].conv.rx_rate (03_line_converters.md R84): receive loop rate in force -/
  | carrierConvRxRate
  /-- 3020.02 carrier[0].conv.tx_rate (03_line_converters.md R84): transmit loop rate in force -/
  | carrierConvTxRate
  /-- 3020.03 carrier[0].conv.synth_state (03_line_converters.md R84): bits 3:2 transmit loop, bits 1:0 receive loop: 0 off, 1 locking, 2 locked, 3 holdover; bits 7:4 read 0 -/
  | carrierConvSynthState
  /-- 3020.04 carrier[0].conv.erased_sets (03_line_converters.md R84): stroke sets flagged by gain steps -/
  | carrierConvErasedSets
  /-- 3020.05 carrier[0].conv.short_policy (03_line_converters.md R84): per R82 -/
  | carrierConvShortPolicy
  /-- 3021.01 carrier[0].wiring.mode (03_line_converters.md R84): 0 fixed, 1 auto -/
  | carrierWiringMode
  /-- 3021.02 carrier[0].wiring.fixed_map (03_line_converters.md R84): map used in fixed mode, per Table: Wiring map -/
  | carrierWiringFixedMap
  /-- 3021.03 carrier[0].wiring.applied_map (03_line_converters.md R84): map in force -/
  | carrierWiringAppliedMap
  /-- 3021.04 carrier[0].wiring.tx_map (03_line_converters.md R84): transmit map, per R77 -/
  | carrierWiringTxMap
  /-- 3022.01 carrier[0].open_test.request (03_line_converters.md R84): 0x01 = start test per R71 -/
  | carrierOpenTestRequest
  /-- 3022.02 carrier[0].open_test.busy (03_line_converters.md R84): 1 = test running -/
  | carrierOpenTestBusy
  /-- D000.01 cal.fg.request (04_converter_calibration.md R102): bit c = recalibrate carrier c (R94); bits 15:12 ignored -/
  | calFgRequest
  /-- D000.02 cal.fg.busy (04_converter_calibration.md R102): bit c = carrier c recalibrating -/
  | calFgBusy
  /-- D000.03 cal.fg.duration (04_converter_calibration.md R102): duration of the last foreground calibration, steps 1 to 7 -/
  | calFgDuration
  /-- D000.04 cal.bg.enable (04_converter_calibration.md R102): per R95 -/
  | calBgEnable
  /-- D000.05 cal.bg.adc_interval (04_converter_calibration.md R102): per R97 -/
  | calBgAdcInterval
  /-- D000.06 cal.bg.dac_interval (04_converter_calibration.md R102): per R97 -/
  | calBgDacInterval
  /-- D109.01 adc[9].cal.state (04_converter_calibration.md R102): 0 nominal, 1 calibrated, 2 background running, 3 frozen, 4 failed -/
  | convCalState
  /-- D109.02 adc[9].cal.resting (04_converter_calibration.md R102): resting slice -/
  | convCalResting
  /-- D109.03 adc[9].cal.suspect (04_converter_calibration.md R102): suspect slice; 0xFF none -/
  | convCalSuspect
  /-- D109.04 adc[9].cal.steps (04_converter_calibration.md R102): background steps completed -/
  | convCalSteps
  /-- D109.05 adc[9].cal.refusals (04_converter_calibration.md R102): results refused under R89 -/
  | convCalRefusals
  /-- D109.06 adc[9].cal.last_limit (04_converter_calibration.md R102): code of the last refusal; 0 none -/
  | convCalLastLimit
  /-- D109.07 adc[9].cal.last_slice (04_converter_calibration.md R102): slice of the last refusal -/
  | convCalLastSlice
  /-- D109.08 adc[9].cal.lap_time (04_converter_calibration.md R102): last full background lap -/
  | convCalLapTime
  /-- D109.09 adc[9].cal.records (04_converter_calibration.md R102): 65 records in slice order, 4 bytes each, little-endian, per Table: Correction record -/
  | convCalRecords
  /-- D109.0A adc[9].cal.slot_map (04_converter_calibration.md R102): 64 bytes in slot order, slice number -/
  | convCalSlotMap
  /-- D109.0C adc[9].cal.vga_table (04_converter_calibration.md R102): 37 I16 values, measured gain of codes 0..36; ADCs only -/
  | convCalVgaTable
  /-- xxxx.08 standby (05_transmit_path.md R117): standby bank; a read returns the standby contents -/
  | bankStandby
  /-- xxxx.09 commit (05_transmit_path.md R117): 0x01 = swap at the next stroke boundary; 0x02 = cross-fade, accepted only for the dispersion filters 3032 (R119) and 3040 (R137), and refused with an abort for every other filter -/
  | bankCommit
  /-- xxxx.0A active_bank (05_transmit_path.md R117): bank in force, 0 or 1 -/
  | bankActiveBank
  /-- xxxx.0B commits (05_transmit_path.md R117): commits completed -/
  | bankCommits
  /-- xxxx.0C busy (05_transmit_path.md R117): 1 = commit pending, computation running or cross-fade running -/
  | bankBusy
  /-- 3030.01 carrier[0].tx.pilot_boost (05_transmit_path.md R121): pilot and frame-word level, 0 to 6; other values refused -/
  | carrierTxPilotBoost
  /-- 3030.02 carrier[0].tx.rms_target (05_transmit_path.md R121): per R115, 16 to 80; other values refused; applied at the next stroke boundary -/
  | carrierTxRmsTarget
  /-- 3030.03 carrier[0].tx.clips (05_transmit_path.md R121): clips per R115, all four DACs -/
  | carrierTxClips
  /-- 3030.04 carrier[0].tx.clip_threshold (05_transmit_path.md R121): per R116 -/
  | carrierTxClipThreshold
  /-- 3031.01 carrier[0].tx.shape.mode (05_transmit_path.md R121): 0 computed, 1 user -/
  | carrierTxShapeMode
  /-- 3031.02 carrier[0].tx.shape.rolloff (05_transmit_path.md R121): 1 to 20; other values refused -/
  | carrierTxShapeRolloff
  /-- 3032.01 carrier[0].tx.cd.mode (05_transmit_path.md R121): 0 computed, 1 user -/
  | carrierTxCdMode
  /-- 3032.02 carrier[0].tx.cd.target (05_transmit_path.md R121): per R111 and R112 -/
  | carrierTxCdTarget
  /-- 3032.03 carrier[0].tx.cd.frequency (05_transmit_path.md R121): 184,000 to 197,000; other values refused -/
  | carrierTxCdFrequency
  /-- 3034.01 carrier[0].tx.skew.xi (05_transmit_path.md R121): per R113; XI -/
  | carrierTxSkewXi
  /-- 3034.02 carrier[0].tx.skew.xq (05_transmit_path.md R121): XQ -/
  | carrierTxSkewXq
  /-- 3034.03 carrier[0].tx.skew.yi (05_transmit_path.md R121): YI -/
  | carrierTxSkewYi
  /-- 3034.04 carrier[0].tx.skew.yq (05_transmit_path.md R121): YQ -/
  | carrierTxSkewYq
  /-- 3041.01 carrier[0].rx.skew.xi (06_receive_equalisation.md R130): delay of ADC 4c, per R128 -/
  | carrierRxSkewXi
  /-- 3041.02 carrier[0].rx.skew.xq (06_receive_equalisation.md R130): ADC 4c + 1 -/
  | carrierRxSkewXq
  /-- 3041.03 carrier[0].rx.skew.yi (06_receive_equalisation.md R130): ADC 4c + 2 -/
  | carrierRxSkewYi
  /-- 3041.04 carrier[0].rx.skew.yq (06_receive_equalisation.md R130): ADC 4c + 3 -/
  | carrierRxSkewYq
  /-- 3041.05 carrier[0].rx.skew.res_xi (06_receive_equalisation.md R130): measured residual, per R130 -/
  | carrierRxSkewResXi
  /-- 3041.06 carrier[0].rx.skew.res_xq (06_receive_equalisation.md R130): as above -/
  | carrierRxSkewResXq
  /-- 3041.07 carrier[0].rx.skew.res_yi (06_receive_equalisation.md R130): as above -/
  | carrierRxSkewResYi
  /-- 3041.08 carrier[0].rx.skew.res_yq (06_receive_equalisation.md R130): as above -/
  | carrierRxSkewResYq
  /-- 3041.09 carrier[0].rx.skew.auto (06_receive_equalisation.md R130): 1 = auto-trim per R130 -/
  | carrierRxSkewAuto
  /-- 3041.0A carrier[0].rx.skew.flagged_sets (06_receive_equalisation.md R130): sets flagged under R129 -/
  | carrierRxSkewFlaggedSets
  /-- 3041.0B carrier[0].rx.skew.auto_steps (06_receive_equalisation.md R130): steps taken by auto-trim -/
  | carrierRxSkewAutoSteps
  /-- 3042.01 carrier[0].rx.fe.enable (06_receive_equalisation.md R131): 1 = correct per R131 -/
  | carrierRxFeEnable
  /-- 3042.02 carrier[0].rx.fe.dc_shift (06_receive_equalisation.md R131): 8 to 16; other values refused -/
  | carrierRxFeDcShift
  /-- 3042.03 carrier[0].rx.fe.iq_shift (06_receive_equalisation.md R131): 10 to 18; other values refused -/
  | carrierRxFeIqShift
  /-- 3042.04 carrier[0].rx.fe.phase_x (06_receive_equalisation.md R131): X phase error corrected -/
  | carrierRxFePhaseX
  /-- 3042.05 carrier[0].rx.fe.phase_y (06_receive_equalisation.md R131): Y phase error corrected -/
  | carrierRxFePhaseY
  /-- 3042.06 carrier[0].rx.fe.gain_x (06_receive_equalisation.md R131): X I/Q gain ratio corrected -/
  | carrierRxFeGainX
  /-- 3042.07 carrier[0].rx.fe.gain_y (06_receive_equalisation.md R131): Y I/Q gain ratio corrected -/
  | carrierRxFeGainY
  /-- 3043.01 carrier[0].rx.timing.bandwidth (06_receive_equalisation.md R133): 100 to 10,000; other values refused -/
  | carrierRxTimingBandwidth
  /-- 3043.02 carrier[0].rx.timing.state (06_receive_equalisation.md R133): 0 off, 1 acquiring, 2 locked, 3 held -/
  | carrierRxTimingState
  /-- 3043.03 carrier[0].rx.timing.offset (06_receive_equalisation.md R133): far-end symbol clock against local -/
  | carrierRxTimingOffset
  /-- 3043.04 carrier[0].rx.timing.unlocks (06_receive_equalisation.md R133): per R132 -/
  | carrierRxTimingUnlocks
  /-- 3040.01 carrier[0].cd.mode (06_receive_equalisation.md R140): 0 computed, 1 user -/
  | carrierCdMode
  /-- 3040.02 carrier[0].cd.target (06_receive_equalisation.md R140): per R135 and R136 -/
  | carrierCdTarget
  /-- 3040.03 carrier[0].cd.frequency (06_receive_equalisation.md R140): 184,000 to 197,000; other values refused -/
  | carrierCdFrequency
  /-- 3040.04 carrier[0].cd.applied (06_receive_equalisation.md R140): dispersion removed by the response in force -/
  | carrierCdApplied
  /-- 3040.05 carrier[0].cd.correction (06_receive_equalisation.md R140): tracking correction, per R140 -/
  | carrierCdCorrection
  /-- 3040.06 carrier[0].cd.track_enable (06_receive_equalisation.md R140): per R140 -/
  | carrierCdTrackEnable
  /-- 3040.07 carrier[0].cd.track_threshold (06_receive_equalisation.md R140): 2 to 200; other values refused -/
  | carrierCdTrackThreshold
  /-- 3040.0D carrier[0].cd.reach (06_receive_equalisation.md R140): reach in force, from the values in force, per R135 -/
  | carrierCdReach
  /-- 3040.0E carrier[0].cd.track_steps (06_receive_equalisation.md R140): tracking steps completed -/
  | carrierCdTrackSteps
  /-- 3040.0F carrier[0].cd.reach_stored (06_receive_equalisation.md R140): stored reach, from the stored values, per R135 -/
  | carrierCdReachStored
  /-- 3044.01 carrier[0].rx.pol.state (06_receive_equalisation.md R145): 0 off, 1 constant modulus, 2 pilot-aided, 3 decision-directed, 4 held -/
  | carrierRxPolState
  /-- 3044.02 carrier[0].rx.pol.init (06_receive_equalisation.md R145): per R143 -/
  | carrierRxPolInit
  /-- 3044.03 carrier[0].rx.pol.k_acq (06_receive_equalisation.md R145): K in Seeking and Tentative, 4 to 16; other values refused -/
  | carrierRxPolKAcq
  /-- 3044.04 carrier[0].rx.pol.k_trk (06_receive_equalisation.md R145): K in Locked and Carrying, 4 to 16; other values refused -/
  | carrierRxPolKTrk
  /-- 3044.05 carrier[0].rx.pol.centring (06_receive_equalisation.md R145): per R133 -/
  | carrierRxPolCentring
  /-- 3044.06 carrier[0].rx.pol.reinits (06_receive_equalisation.md R145): per R144 -/
  | carrierRxPolReinits
  /-- 3044.07 carrier[0].rx.pol.taps (06_receive_equalisation.md R145): live taps at the last frame start, 496 bytes in the 3045 format -/
  | carrierRxPolTaps
  /-- 3048.01 carrier[0].mon[0].raw (06_receive_equalisation.md R150): r of the last update -/
  | carrierMonRaw
  /-- 3048.02 carrier[0].mon[0].filtered (06_receive_equalisation.md R150): v -/
  | carrierMonFiltered
  /-- 3048.03 carrier[0].mon[0].shift (06_receive_equalisation.md R150): a, 0 to 12; other values refused -/
  | carrierMonShift
  /-- 3048.04 carrier[0].mon[0].set (06_receive_equalisation.md R150): set level -/
  | carrierMonSet
  /-- 3048.05 carrier[0].mon[0].clear (06_receive_equalisation.md R150): clear level -/
  | carrierMonClear
  /-- 3048.06 carrier[0].mon[0].state (06_receive_equalisation.md R150): 1 = crossed, per R149 -/
  | carrierMonState
  /-- 3048.07 carrier[0].mon[0].crossings (06_receive_equalisation.md R150): crossings since reset -/
  | carrierMonCrossings
  /-- 3050.01 carrier[0].nc.enable (07_superchannel.md R169): 1 = second pass in force from the next exit from Idle (R155) -/
  | carrierNcEnable
  /-- 3050.02 carrier[0].nc.lower (07_superchannel.md R169): lower neighbour carrier; 0xFF none -/
  | carrierNcLower
  /-- 3050.03 carrier[0].nc.upper (07_superchannel.md R169): upper neighbour carrier; 0xFF none -/
  | carrierNcUpper
  /-- 3050.04 carrier[0].nc.spacing (07_superchannel.md R169): σ, 1,020 to 1,200; other values refused -/
  | carrierNcSpacing
  /-- 3050.05 carrier[0].nc.step (07_superchannel.md R169): step exponent of R160, 8 to 16; other values refused; applies at the next block -/
  | carrierNcStep
  /-- 3050.06 carrier[0].nc.quality_floor (07_superchannel.md R169): neighbour q4 floor, 60 to 200; other values refused -/
  | carrierNcQualityFloor
  /-- 3050.07 carrier[0].nc.guard (07_superchannel.md R169): 1 to 64; other values refused -/
  | carrierNcGuard
  /-- 3050.08 carrier[0].nc.park (07_superchannel.md R169): 1 = parked by host (R164) -/
  | carrierNcPark
  /-- 3050.09 carrier[0].nc.in_force (07_superchannel.md R169): 0 not in force, 1 running, 2 parked by host, 3 parked by throttle, 4 parked by both -/
  | carrierNcInForce
  /-- 3050.0A carrier[0].nc.lower_in_force (07_superchannel.md R169): lower neighbour in force -/
  | carrierNcLowerInForce
  /-- 3050.0B carrier[0].nc.upper_in_force (07_superchannel.md R169): upper neighbour in force -/
  | carrierNcUpperInForce
  /-- 3050.0C carrier[0].nc.spacing_in_force (07_superchannel.md R169): σ in force -/
  | carrierNcSpacingInForce
  /-- 3051.01 carrier[0].nc.lower.state (07_superchannel.md R169): code per Table: Side states -/
  | carrierNcSideState
  /-- 3051.02 carrier[0].nc.lower.losses (07_superchannel.md R169): exits from state 0 for codes 3 to 7 -/
  | carrierNcSideLosses
  /-- 3051.03 carrier[0].nc.lower.out_of_window (07_superchannel.md R169): per R159 -/
  | carrierNcSideOutOfWindow
  /-- 3051.04 carrier[0].nc.lower.taps (07_superchannel.md R169): wXX, wXY, wYX, wYY, 15 taps each, I16 Q2.14 real then imaginary, 240 bytes, at the last frame start -/
  | carrierNcSideTaps
  /-- 3051.05 carrier[0].nc.lower.leakage (07_superchannel.md R169): tap energy relative to the carrier's signal power; −999 when taps are zero -/
  | carrierNcSideLeakage
  /-- 3054.01 carrier[0].cr.state (07_superchannel.md R169): 0 off, 1 acquiring, 2 tracking, 3 held, 4 at range limit -/
  | carrierCrState
  /-- 3054.02 carrier[0].cr.freq_offset (07_superchannel.md R169): far-end laser minus local oscillator -/
  | carrierCrFreqOffset
  /-- 3054.03 carrier[0].cr.bandwidth (07_superchannel.md R169): 10 to 1,000; other values refused -/
  | carrierCrBandwidth
  /-- 3054.04 carrier[0].cr.window (07_superchannel.md R169): 16, 32, 64 or 128; other values refused; applies at the next frame -/
  | carrierCrWindow
  /-- 3054.05 carrier[0].cr.slips_resolved (07_superchannel.md R169): per R167 -/
  | carrierCrSlipsResolved
  /-- 3054.06 carrier[0].cr.slips_unresolved (07_superchannel.md R169): per R167 -/
  | carrierCrSlipsUnresolved
  /-- 3060.01 carrier[0].catch.count (08_catch.md R186): candidates in use, 0 to 8; per R172 and R173 -/
  | carrierCatchCount
  /-- 3060.02 carrier[0].catch.rate[0] (08_catch.md R186): candidate 0, 240 to 960 -/
  | catchRate
  /-- 3061.01 carrier[0].catch.state (08_catch.md R186): 0 stopped, 1 surveying, no gate open, 2 correlating, 3 tentative, 4 relocking -/
  | carrierCatchState
  /-- 3061.02 carrier[0].catch.rate (08_catch.md R186): caught rate; 0 none since reset -/
  | catchCaughtRate
  /-- 3061.03 carrier[0].catch.candidate (08_catch.md R186): caught candidate index; 0xFF none or single rate -/
  | carrierCatchCandidate
  /-- 3061.04 carrier[0].catch.gates (08_catch.md R186): bit i = gate of candidate i open (R175) -/
  | carrierCatchGates
  /-- 3061.05 carrier[0].catch.metric (08_catch.md R186): entry match metric -/
  | carrierCatchMetric
  /-- 3061.06 carrier[0].catch.pilot_snr (08_catch.md R186): per R180, last frame -/
  | carrierCatchPilotSnr
  /-- 3061.07 carrier[0].catch.confirmations (08_catch.md R186): n of R179 -/
  | carrierCatchConfirmations
  /-- 3061.08 carrier[0].catch.entries (08_catch.md R186): entries to Tentative, including pre-emptions -/
  | carrierCatchEntries
  /-- 3061.09 carrier[0].catch.abandons (08_catch.md R186): per R181 -/
  | carrierCatchAbandons
  /-- 3061.0A carrier[0].catch.preemptions (08_catch.md R186): per R182 -/
  | carrierCatchPreemptions
  /-- 3061.0B carrier[0].catch.time (08_catch.md R186): per R184 -/
  | carrierCatchTime
  /-- 3061.0C carrier[0].catch.freq_handover (08_catch.md R186): offset handed to stage 8 (R177) -/
  | carrierCatchFreqHandover
  /-- 3061.0D carrier[0].catch.match_kind (08_catch.md R186): 0 frame word, g + 1 pilot group g -/
  | carrierCatchMatchKind
  /-- 3061.0E carrier[0].catch.list_in_force (08_catch.md R186): count, then rates as U16 little-endian -/
  | carrierCatchListInForce
  /-- 3061.0F carrier[0].catch.frames (08_catch.md R186): m of R179 -/
  | carrierCatchFrames
  /-- 3062.01 carrier[0].catch.window (08_catch.md R186): survey window, 200 to 20,000; other values refused; applies at the next window restart -/
  | carrierCatchWindow
  /-- 3062.02 carrier[0].catch.gate_floor (08_catch.md R186): clock-line floor, 20 to 200; other values refused -/
  | carrierCatchGateFloor
  /-- 3062.03 carrier[0].catch.freq_range (08_catch.md R186): 500 to 6,000; other values refused -/
  | carrierCatchFreqRange
  /-- 3062.04 carrier[0].catch.detect (08_catch.md R186): match threshold, 60 to 200; other values refused -/
  | carrierCatchDetect
  /-- 3062.05 carrier[0].catch.confirm (08_catch.md R186): confirmation threshold, 40 to 200, not above 3062.04; other values refused -/
  | carrierCatchConfirm
  /-- 3062.06 carrier[0].catch.snr_floor (08_catch.md R186): 0 to 200; other values refused -/
  | carrierCatchSnrFloor
  /-- 3062.07 carrier[0].catch.preempt_margin (08_catch.md R186): 10 to 100; other values refused -/
  | carrierCatchPreemptMargin
  /-- 3062.08 carrier[0].catch.fail_limit (08_catch.md R186): abandons in a row for source 39, 1 to 255; other values refused -/
  | carrierCatchFailLimit
  /-- 3063.01 carrier[0].catch.quality_mode (08_catch.md R186): 0 latched power, 1 noise floor (R185) -/
  | carrierCatchQualityMode
  /-- 3063.02 carrier[0].catch.level (08_catch.md R186): relative to 1 mV RMS differential at the ball -/
  | carrierCatchLevel
  /-- 3063.03 carrier[0].catch.level_valid (08_catch.md R186): 1 = 3063.02 holds a computed figure -/
  | carrierCatchLevelValid
  /-- 3063.04 carrier[0].catch.level_updates (08_catch.md R186): computations since reset -/
  | carrierCatchLevelUpdates
  /-- 3063.05 carrier[0].catch.lock_snr (08_catch.md R186): pilot-based SNR mean latched at Locked -/
  | carrierCatchLockSnr
  /-- 3070.01 carrier[0].fec.profile (09_coding.md R191): 0 Long, 1 Sprint, 2 Compatible -/
  | carrierFecProfile
  /-- 3070.02 carrier[0].fec.modulation (09_coding.md R191): 0 QPSK, 1 16QAM, 2 shaped 64QAM -/
  | carrierFecModulation
  /-- 3070.03 carrier[0].fec.entropy (09_coding.md R191): 0 = automatic (R192); otherwise 200 to 560 in steps of 5; other values refused; used with shaped 64QAM only -/
  | carrierFecEntropy
  /-- 3070.04 carrier[0].fec.payload (09_coding.md R191): 4 to 16; other values refused -/
  | carrierFecPayload
  /-- 3070.05 carrier[0].fec.tx_rate (09_coding.md R191): configured transmit symbol rate, 240 to 960; other values refused; ignored in Compatible -/
  | carrierFecTxRate
  /-- 3070.06 carrier[0].fec.rx_rate (09_coding.md R191): configured receive symbol rate, 240 to 960; other values refused; ignored in Compatible -/
  | carrierFecRxRate
  /-- 3070.07 carrier[0].fec.iteration_cap (09_coding.md R191): 2 to 12; other values refused; in Sprint, values above 4 act as 4 -/
  | carrierFecIterationCap
  /-- 3071.01 carrier[0].fec.profile_in_force (09_coding.md R191): as 3070.01 -/
  | carrierFecProfileInForce
  /-- 3071.02 carrier[0].fec.modulation_in_force (09_coding.md R191): as 3070.02 -/
  | carrierFecModulationInForce
  /-- 3071.03 carrier[0].fec.tx_entropy (09_coding.md R191): H in force on transmit -/
  | carrierFecTxEntropy
  /-- 3071.04 carrier[0].fec.rx_entropy (09_coding.md R191): H in force on receive -/
  | carrierFecRxEntropy
  /-- 3071.05 carrier[0].fec.tx_kdm (09_coding.md R191): k_DM on transmit (R195) -/
  | carrierFecTxKdm
  /-- 3071.06 carrier[0].fec.rx_kdm (09_coding.md R191): k_DM on receive -/
  | carrierFecRxKdm
  /-- 3071.07 carrier[0].fec.tx_capacity (09_coding.md R191): C on transmit (R192) -/
  | carrierFecTxCapacity
  /-- 3071.08 carrier[0].fec.rx_capacity (09_coding.md R191): C on receive -/
  | carrierFecRxCapacity
  /-- 3071.09 carrier[0].fec.tx_need (09_coding.md R191): N on transmit -/
  | carrierFecTxNeed
  /-- 3071.0A carrier[0].fec.rx_need (09_coding.md R191): N on receive -/
  | carrierFecRxNeed
  /-- 3071.0B carrier[0].fec.cap_in_force (09_coding.md R191): iteration cap in force (R207) -/
  | carrierFecCapInForce
  /-- 3071.0C carrier[0].fec.tx_composition (09_coding.md R191): n1, n3, n5, n7 as U16 little-endian (R195) -/
  | carrierFecTxComposition
  /-- 3071.0D carrier[0].fec.tx_line_entropy (09_coding.md R191): k_DM / 512 + 2, rounded down; shaped 64QAM only -/
  | carrierFecTxLineEntropy
  /-- 3072.01 carrier[0].fec.bits (09_coding.md R210): positions of converged inner codewords, erased symbols excluded -/
  | carrierFecBits
  /-- 3072.02 carrier[0].fec.corrected (09_coding.md R210): LLR signs that differ from the converged codeword -/
  | carrierFecCorrected
  /-- 3072.03 carrier[0].fec.codewords (09_coding.md R210): inner codewords decoded -/
  | carrierFecCodewords
  /-- 3072.04 carrier[0].fec.cw_failed (09_coding.md R210): inner codewords unconverged at the cap -/
  | carrierFecCwFailed
  /-- 3072.05 carrier[0].fec.ladder_rows_corrected (09_coding.md R210): ladder rows changed by decoding -/
  | carrierFecLadderRowsCorrected
  /-- 3072.06 carrier[0].fec.ladder_bits_corrected (09_coding.md R210): bits changed by the ladder decoder -/
  | carrierFecLadderBitsCorrected
  /-- 3072.07 carrier[0].fec.uncorrectable (09_coding.md R210): Long: ladder rows; Sprint: inner codewords; Compatible: oFEC blocks -/
  | carrierFecUncorrectable
  /-- 3072.08 carrier[0].fec.iterations (09_coding.md R210): inner iterations run -/
  | carrierFecIterations
  /-- 3072.09 carrier[0].fec.pre_fec_ber (09_coding.md R210): last aligned second -/
  | carrierFecPreFecBer
  /-- 3072.0A carrier[0].fec.dm_mismatch (09_coding.md R210): matcher blocks delivered as zeros (R197) -/
  | carrierFecDmMismatch
  /-- 3072.0B carrier[0].fec.ber_warning (09_coding.md R210): warning level; 0 = half the profile threshold, or 1.0 × 10⁻² in Compatible -/
  | carrierFecBerWarning
  /-- 3072.0C carrier[0].fec.phase_mismatch (09_coding.md R210): per R209 -/
  | carrierFecPhaseMismatch
  /-- 6800.01 tsi.tx.row_select (10_line_frame.md R223): row 0 to 3,839; other values refused -/
  | tsiRowSelect
  /-- 6800.02 tsi.tx.standby_row (10_line_frame.md R223): selected row of the standby page -/
  | tsiStandbyRow
  /-- 6800.03 tsi.tx.active_row (10_line_frame.md R223): selected row of the active page -/
  | tsiActiveRow
  /-- 6800.04 tsi.tx.standby_page (10_line_frame.md R223): 3,840 rows, 4 bytes each, little-endian, in row order -/
  | tsiStandbyPage
  /-- 6800.05 tsi.tx.active_page (10_line_frame.md R223): as 6800.04 -/
  | tsiActivePage
  /-- 6800.06 tsi.tx.flip (10_line_frame.md R223): bit c = flip carrier c; bits 15:12 ignored -/
  | tsiFlip
  /-- 6800.07 tsi.tx.pending (10_line_frame.md R223): bit c = flip pending on carrier c -/
  | tsiPending
  /-- 6800.08 tsi.tx.flips (10_line_frame.md R223): flips completed -/
  | tsiFlips
  /-- 6800.09 tsi.tx.refusal (10_line_frame.md R223): reason of the last refusal, per R221; 0 none -/
  | tsiRefusal
  /-- 6801.0A tsi.rx.follow (10_line_frame.md R223): per R222 -/
  | tsiRxFollow
  /-- 6802.01 trib.rx.select (10_line_frame.md R223): tributary 0 to 3,839 -/
  | tribRxSelect
  /-- 6802.02 trib.rx.fill (10_line_frame.md R223): fill code taken in the last multiframe -/
  | tribRxFill
  /-- 6802.03 trib.rx.csf (10_line_frame.md R223): 1 = CSF declared on this tributary -/
  | tribRxCsf
  /-- 6802.04 trib.rx.cm (10_line_frame.md R223): Cm of the last multiframe -/
  | tribRxCm
  /-- 6802.05 trib.rx.capacity (10_line_frame.md R223): T in force -/
  | tribRxCapacity
  /-- 6802.06 trib.rx.cm_lost (10_line_frame.md R223): multiframes with Cm lost (R219) -/
  | tribRxCmLost
  /-- 3080.01 carrier[0].defect.declared (10_line_frame.md R233): per Table: Defect bit map -/
  | carrierDefectDeclared
  /-- 3080.02 carrier[0].defect.raw (10_line_frame.md R233): raw conditions after masking -/
  | carrierDefectRaw
  /-- 3080.03 carrier[0].defect.sticky (10_line_frame.md R233): bit set at each declaration -/
  | carrierDefectSticky
  /-- 3081.01 carrier[0].defect.set_time[0..9] (10_line_frame.md R233): in bit order, 0 to 10,000; other values refused -/
  | defectSetTime
  /-- 3082.01 carrier[0].defect.clear_time[0..9] (10_line_frame.md R233): as above -/
  | defectClearTime
  /-- 3083.01 carrier[0].defect.los_sources (10_line_frame.md R233): bit 0 ENG_LOS_N, bit 1 ADC level -/
  | carrierDefectLosSources
  /-- 3083.02 carrier[0].defect.los_floor (10_line_frame.md R233): 1 to 16; other values refused -/
  | carrierDefectLosFloor
  /-- 3083.03 carrier[0].defect.deg_threshold (10_line_frame.md R233): 0 = threshold of Table: FEC profiles; 2.0 × 10⁻² in Compatible -/
  | carrierDefectDegThreshold
  /-- 3083.04 carrier[0].defect.deg_seconds (10_line_frame.md R233): 1 to 10; other values refused -/
  | carrierDefectDegSeconds
  /-- 3083.05 carrier[0].defect.tim_mode (10_line_frame.md R233): 0 off, 1 SAPI, 2 DAPI, 3 both -/
  | carrierDefectTimMode
  /-- 3083.06 carrier[0].defect.tim_action (10_line_frame.md R233): 1 = TIM fails tributaries and sends BDI -/
  | carrierDefectTimAction
  /-- 3084.01 carrier[0].tti.transmit (10_line_frame.md R233): 64 bytes -/
  | carrierTtiTransmit
  /-- 3084.02 carrier[0].tti.expected (10_line_frame.md R233): 64 bytes -/
  | carrierTtiExpected
  /-- 3084.03 carrier[0].tti.accepted (10_line_frame.md R233): 64 bytes -/
  | carrierTtiAccepted
  /-- 3084.04 carrier[0].tti.valid (10_line_frame.md R233): per R228 -/
  | carrierTtiValid
  /-- 3085.01 carrier[0].oh.bip_errors (10_line_frame.md R233): per R226 -/
  | carrierOhBipErrors
  /-- 3085.02 carrier[0].oh.bei_received (10_line_frame.md R233): per R226 -/
  | carrierOhBeiReceived
  /-- 3085.03 carrier[0].oh.slot_mismatch (10_line_frame.md R233): per R223 -/
  | carrierOhSlotMismatch
  /-- 3085.04 carrier[0].oh.cm_lost (10_line_frame.md R233): tributary multiframes lost, per R219 -/
  | carrierOhCmLost
  /-- 3085.05 carrier[0].oh.late_flips (10_line_frame.md R233): per R222 -/
  | carrierOhLateFlips
  /-- 3085.06 carrier[0].oh.bad_stat (10_line_frame.md R233): per R227 -/
  | carrierOhBadStat
  /-- 3086.01 carrier[0].oh.force_bdi (10_line_frame.md R233): per R232 -/
  | carrierOhForceBdi
  /-- 3086.02 carrier[0].oh.force_ais (10_line_frame.md R233): per R227 -/
  | carrierOhForceAis
  /-- 3086.03 carrier[0].oh.bdi_auto (10_line_frame.md R233): per R232 -/
  | carrierOhBdiAuto
  /-- 3086.04 carrier[0].oh.stat_sent (10_line_frame.md R233): STAT in force on transmit -/
  | carrierOhStatSent
  /-- 3090.01 carrier[0].ohp.enable (10_line_frame.md R233): per R225 -/
  | carrierOhpEnable
  /-- 3090.02 carrier[0].ohp.out_bursts (10_line_frame.md R233): bursts sent -/
  | carrierOhpOutBursts
  /-- 3090.03 carrier[0].ohp.in_bursts (10_line_frame.md R233): bursts taken -/
  | carrierOhpInBursts
  /-- 3090.04 carrier[0].ohp.out_dropped (10_line_frame.md R233): per R225 -/
  | carrierOhpOutDropped
  /-- 6000.01 cls.key (11_flows.md R240): key, per Table: Classifier key -/
  | clsKey
  /-- 6000.02 cls.flow (11_flows.md R240): flow for insert -/
  | clsFlow
  /-- 6000.03 cls.op (11_flows.md R240): 1 insert or replace, 2 delete, 3 lookup, 4 clear all -/
  | clsOp
  /-- 6000.04 cls.busy (11_flows.md R240): 1 = operation running -/
  | clsBusy
  /-- 6000.05 cls.result (11_flows.md R240): 0 done; codes 1 to 4 per R240 -/
  | clsResult
  /-- 6000.06 cls.entries (11_flows.md R240): keys present -/
  | clsEntries
  /-- 6000.07 cls.found (11_flows.md R240): flow found by the last lookup -/
  | clsFound
  /-- 6000.08 cls.table (11_flows.md R240): every entry as key U32 then flow U16, little-endian, in ascending key order -/
  | clsTable
  /-- 6000.09 cls.load (11_flows.md R240): bulk load in the 6000.08 format -/
  | clsLoad
  /-- 5C08.01 port[0].cls.mode (11_flows.md R240): 0 whole port, 1 outer VLAN -/
  | portClsMode
  /-- 5C08.02 port[0].cls.default_flow (11_flows.md R240): 0xFFFF = discard -/
  | portClsDefaultFlow
  /-- 5C08.03 port[0].cls.tpid_set (11_flows.md R240): bit 0 0x8100, bit 1 0x88A8, bit 2 0x9100; bits 7:3 write 0 -/
  | portClsTpidSet
  /-- 5C08.04 port[0].cls.unclassified (11_flows.md R240): discarded under R238, flow 0xFFFF -/
  | portClsUnclassified
  /-- 5C08.05 port[0].cls.disabled_flow (11_flows.md R240): discarded, flow disabled -/
  | portClsDisabledFlow
  /-- 5C08.06 port[0].cls.errored (11_flows.md R240): bad FCS, short or long -/
  | portClsErrored
  /-- 5C08.07 port[0].pfc.sent (11_flows.md R240): PFC frames sent toward the host -/
  | portPfcSent
  /-- 5C08.08 port[0].pfc.received (11_flows.md R240): PFC and PAUSE frames received -/
  | portPfcReceived
  /-- 5C08.09 port[0].pfc.held_mask (11_flows.md R240): bit i = priority i paused by the host -/
  | portPfcHeldMask
  /-- 5C08.0A port[0].pfc.asserted_mask (11_flows.md R240): bit i = priority i asserted toward the host -/
  | portPfcAssertedMask
  /-- 5C08.0B port[0].rx.unmatched (11_flows.md R240): receive frames with no flow for counting (R255) -/
  | portRxUnmatched
  /-- 6100.01 flow.select (11_flows.md R245): flow 0 to 32,767 -/
  | flowSelect
  /-- 6100.02 flow.entry (11_flows.md R245): entry of the selected flow -/
  | flowEntry
  /-- 6100.03 flow.fill (11_flows.md R245): queue fill -/
  | flowFill
  /-- 6100.04 flow.peak (11_flows.md R245): highest fill; writing 1 resets it to the present fill -/
  | flowPeak
  /-- 6100.05 flow.depth_drops (11_flows.md R245): drop policy, R243 -/
  | flowDepthDrops
  /-- 6100.06 flow.pool_drops (11_flows.md R245): pool empty -/
  | flowPoolDrops
  /-- 6100.07 flow.overruns (11_flows.md R245): pause policy beyond depth -/
  | flowOverruns
  /-- 6100.08 flow.asserting (11_flows.md R245): 1 = flow holds its priority asserted -/
  | flowAsserting
  /-- 6100.09 flow.flushed (11_flows.md R245): discarded under R245 -/
  | flowFlushed
  /-- 6100.0A flow.table (11_flows.md R245): 32,768 entries, 8 bytes each, little-endian; each loaded entry is checked as R242 -/
  | flowTable
  /-- 6102.01 pool.free (11_flows.md R245): free tiles of the pool -/
  | poolFree
  /-- 6102.02 pool.low (11_flows.md R245): lowest free seen -/
  | poolLow
  /-- 6102.03 pool.pause_level (11_flows.md R245): per R244; 0 to 33,554,432 -/
  | poolPauseLevel
  /-- 6102.04 pool.drops (11_flows.md R245): all flows -/
  | poolDrops
  /-- 6200.01 cal.select (11_flows.md R252): entry 0 to 65,535 -/
  | calSelect
  /-- 6200.02 cal.standby_entry (11_flows.md R252): selected entry, standby page -/
  | calStandbyEntry
  /-- 6200.03 cal.active_entry (11_flows.md R252): selected entry, active page -/
  | calActiveEntry
  /-- 6200.04 cal.standby_page (11_flows.md R252): 65,536 entries, 4 bytes each, little-endian -/
  | calStandbyPage
  /-- 6200.05 cal.active_page (11_flows.md R252): as 6200.04 -/
  | calActivePage
  /-- 6200.06 cal.flip (11_flows.md R252): 0x01 = flip -/
  | calFlip
  /-- 6200.07 cal.pending (11_flows.md R252): 1 = flip pending -/
  | calPending
  /-- 6200.08 cal.flips (11_flows.md R252): flips completed -/
  | calFlips
  /-- 6200.09 cal.refusal (11_flows.md R252): reason per R251; 0 none -/
  | calRefusal
  /-- 6200.0A cal.slips (11_flows.md R252): transparent underrun and overflow words (R248) -/
  | calSlips
  /-- 6201.01 span.select (11_flows.md R252): tributary 0 to 3,839 -/
  | spanSelect
  /-- 6201.02 span.standby (11_flows.md R252): selected span, standby page -/
  | spanStandby
  /-- 6201.03 span.active (11_flows.md R252): selected span, active page -/
  | spanActive
  /-- 6201.04 span.standby_all (11_flows.md R252): 3,840 spans, 4 bytes each -/
  | spanStandbyAll
  /-- 6201.05 span.active_all (11_flows.md R252): as 6201.04 -/
  | spanActiveAll
  /-- 6900.01 trib.egress.select (11_flows.md R255): tributary 0 to 3,839 -/
  | tribEgressSelect
  /-- 6900.02 trib.egress.row (11_flows.md R255): per Table: Receive tributary row -/
  | tribEgressRow
  /-- 6900.03 trib.egress.dropped (11_flows.md R255): per R246, R253 and R254 -/
  | tribEgressDropped
  /-- 6900.04 trib.egress.hec_corrected (11_flows.md R255): single errors corrected in GFP headers -/
  | tribEgressHecCorrected
  /-- 6900.05 trib.egress.delineation_losses (11_flows.md R255): exits from GFP sync -/
  | tribEgressDelineationLosses
  /-- 6900.06 trib.egress.table (11_flows.md R255): 3,840 rows, 2 bytes each; checked row by row as R253 -/
  | tribEgressTable
  /-- 7800.01 group[0].members (11_flows.md R261): bit c = carrier c; bits 15:12 write 0 -/
  | groupMembers
  /-- 7800.02 group[0].headroom (11_flows.md R261): H, 2 to 500; other values refused; used at the next alignment -/
  | groupHeadroom
  /-- 7800.03 group[0].policy (11_flows.md R261): per R261 -/
  | groupPolicy
  /-- 7800.04 group[0].realign (11_flows.md R261): 0x01 = realign -/
  | groupRealign
  /-- 7800.05 group[0].align_wait (11_flows.md R261): 1 to 10,000; other values refused -/
  | groupAlignWait
  /-- 7800.06 group[0].state (11_flows.md R261): 0 no members, 1 aligning, 2 all aligned, 3 some aligned -/
  | groupState
  /-- 7800.07 group[0].skew (11_flows.md R261): latest minus earliest arrival, aligned members -/
  | groupSkew
  /-- 7800.08 group[0].headroom_left (11_flows.md R261): release minus latest aligned arrival -/
  | groupHeadroomLeft
  /-- 7800.09 group[0].longest_hold (11_flows.md R261): largest hold of an aligned member -/
  | groupLongestHold
  /-- 7800.0A group[0].realigns (11_flows.md R261): per R261 -/
  | groupRealigns
  /-- 7900.01 carrier[0].bond.group (11_flows.md R261): group; 0xFF none -/
  | carrierBondGroup
  /-- 7900.02 carrier[0].bond.state (11_flows.md R261): 0 not a member, 1 waiting, 2 measuring, 3 aligned, 4 out of window, 5 rate mismatch -/
  | carrierBondState
  /-- 7900.03 carrier[0].bond.hold (11_flows.md R261): boathouse hold; 0 unless aligned -/
  | carrierBondHold
  /-- 7900.04 carrier[0].bond.bsq (11_flows.md R261): BSQ of the last received multiframe -/
  | carrierBondBsq
  /-- 7900.05 carrier[0].bond.alignments (11_flows.md R261): entries to state 3 -/
  | carrierBondAlignments
  /-- 7900.06 carrier[0].bond.window_exits (11_flows.md R261): per R260 -/
  | carrierBondWindowExits
  /-- 7900.07 carrier[0].bond.tx_in_sequence (11_flows.md R261): 1 = transmit BSQ in step with the group (R257) -/
  | carrierBondTxInSequence
  /-- 7000.01 cipher.cores_in_service (12_cipher.md R290): per R287 -/
  | cipherCoresInService
  /-- 7000.02 cipher.retired (12_cipher.md R290): bit n = core n retired -/
  | cipherRetired
  /-- 7000.03 cipher.mismatches (12_cipher.md R290): per R286 -/
  | cipherMismatches
  /-- 7000.04 cipher.demand (12_cipher.md R290): per R288 -/
  | cipherDemand
  /-- 7000.05 cipher.capacity (12_cipher.md R290): per R288 -/
  | cipherCapacity
  /-- 7000.06 cipher.shed (12_cipher.md R290): tributaries shed now -/
  | cipherShed
  /-- 7000.07 cipher.keyprov (12_cipher.md R290): 1 = KEYPROV_N low -/
  | cipherKeyprov
  /-- 7000.08 cipher.zero (12_cipher.md R290): 1 = ZERO_N low -/
  | cipherZero
  /-- 7001.01 kek[0].state (12_cipher.md R290): 0 blank, 1 programming, 2 programmed, 3 revoked, 4 faulty -/
  | kekState
  /-- 7001.02 kek[0].value (12_cipher.md R290): 32 bytes, staged (R276) -/
  | kekValue
  /-- 7001.03 kek[0].op (12_cipher.md R290): 0x01 program, 0x02 revoke -/
  | kekOp
  /-- 7001.04 kek[0].kcv (12_cipher.md R290): check value (R275) -/
  | kekKcv
  /-- 7001.05 kek[0].refusal (12_cipher.md R290): code per R276 -/
  | kekRefusal
  /-- 7010.01 slot.select (12_cipher.md R290): slot 0 to 8,191 -/
  | slotSelect
  /-- 7010.02 slot.load (12_cipher.md R290): per Table: Load descriptor -/
  | slotLoad
  /-- 7010.03 slot.erase (12_cipher.md R290): 0x01 = erase (R280) -/
  | slotErase
  /-- 7010.04 slot.status (12_cipher.md R290): per Table: Slot status -/
  | slotStatus
  /-- 7010.05 slot.counter (12_cipher.md R290): next counter value of the active transmit generation -/
  | slotCounter
  /-- 7010.06 slot.refusal (12_cipher.md R290): code per R277 -/
  | slotRefusal
  /-- 7010.07 slot.kid_active (12_cipher.md R290): kid of the active generation -/
  | slotKidActive
  /-- 7010.08 slot.kid_next (12_cipher.md R290): kid of the next generation -/
  | slotKidNext
  /-- 7010.09 slot.lease (12_cipher.md R290): L of the latest lease, Pair only -/
  | slotLease
  /-- 7010.0A slot.loads (12_cipher.md R290): loads accepted, all slots -/
  | slotLoads
  /-- 7010.0B slot.lease_overruns (12_cipher.md R290): per R274 -/
  | slotLeaseOverruns
  /-- 7100.01 bind.tx.select (12_cipher.md R290): tributary 0 to 3,839 -/
  | bindSelect
  /-- 7100.02 bind.tx.entry (12_cipher.md R290): per Table: Cipher binding -/
  | bindEntry
  /-- 7100.03 bind.tx.in_force (12_cipher.md R290): binding in force -/
  | bindInForce
  /-- 7100.04 bind.tx.table (12_cipher.md R290): 3,840 entries, 4 bytes each, little-endian; checked as R282 -/
  | bindTable
  /-- 7200.01 crypt.select (12_cipher.md R290): tributary 0 to 3,839 -/
  | cryptSelect
  /-- 7200.02 crypt.tx_blocks (12_cipher.md R290): data blocks sent -/
  | cryptTxBlocks
  /-- 7200.03 crypt.tx_refused (12_cipher.md R290): refused blocks sent -/
  | cryptTxRefused
  /-- 7200.04 crypt.rx_blocks (12_cipher.md R290): blocks delivered -/
  | cryptRxBlocks
  /-- 7200.05 crypt.rx_tag_failures (12_cipher.md R290): R284 check 5 and R286 -/
  | cryptRxTagFailures
  /-- 7200.06 crypt.rx_key_mismatch (12_cipher.md R290): check 4 -/
  | cryptRxKeyMismatch
  /-- 7200.07 crypt.rx_mode_mismatch (12_cipher.md R290): check 3 -/
  | cryptRxModeMismatch
  /-- 7200.08 crypt.rx_header_errors (12_cipher.md R290): check 1 -/
  | cryptRxHeaderErrors
  /-- 7200.09 crypt.rx_refused (12_cipher.md R290): check 2 -/
  | cryptRxRefused
  /-- 7200.0A crypt.rx_overhead_gen (12_cipher.md R290): majority gen of slot overhead -/
  | cryptRxOverheadGen
  /-- 7200.0B crypt.tx_gen (12_cipher.md R290): gen in force on transmit -/
  | cryptTxGen
  /-- 5000.01 lane[0].power (13_host_lanes.md R316): 0 auto, 1 on, 2 deep low-power (R296, R306) -/
  | lanePower
  /-- 5000.02 lane[0].state (13_host_lanes.md R316): 0 off, 1 deep low-power, 2 no signal, 3 acquiring, 4 adapting, 5 locked, 6 leaving low-power -/
  | laneState
  /-- 5000.03 lane[0].rx_pol_mode (13_host_lanes.md R316): 0 fixed, 1 auto (R297) -/
  | laneRxPolMode
  /-- 5000.04 lane[0].rx_pol_fixed (13_host_lanes.md R316): 1 = invert in fixed mode -/
  | laneRxPolFixed
  /-- 5000.05 lane[0].rx_pol_applied (13_host_lanes.md R316): inversion in force -/
  | laneRxPolApplied
  /-- 5000.06 lane[0].tx_invert (13_host_lanes.md R316): per R298 -/
  | laneTxInvert
  /-- 5000.07 lane[0].bringups (13_host_lanes.md R316): completed bring-ups -/
  | laneBringups
  /-- 5000.08 lane[0].los_assert (13_host_lanes.md R316): 20 to 200; other values refused -/
  | laneLosAssert
  /-- 5000.09 lane[0].los_clear (13_host_lanes.md R316): above 5000.08, at most 250; other values refused -/
  | laneLosClear
  /-- 5000.0A lane[0].los_raw (13_host_lanes.md R316): per R302 -/
  | laneLosRaw
  /-- 5000.0B lane[0].lock (13_host_lanes.md R316): 1 = locked -/
  | laneLock
  /-- 5000.0C lane[0].lock_losses (13_host_lanes.md R316): per R303 -/
  | laneLockLosses
  /-- 5001.01 lane[0].ctle_mode (13_host_lanes.md R316): 0 auto sweep, 1 fixed -/
  | laneCtleMode
  /-- 5001.02 lane[0].ctle_fixed (13_host_lanes.md R316): 0 to 15; other values refused -/
  | laneCtleFixed
  /-- 5001.03 lane[0].ctle_applied (13_host_lanes.md R316): code in force -/
  | laneCtleApplied
  /-- 5001.04 lane[0].dfe_taps (13_host_lanes.md R316): taps 1 to 8, I8 each (R300) -/
  | laneDfeTaps
  /-- 5001.05 lane[0].dfe_freeze (13_host_lanes.md R316): 1 = taps hold -/
  | laneDfeFreeze
  /-- 5001.06 lane[0].dfe_threshold (13_host_lanes.md R316): 64 to 4,096; other values refused -/
  | laneDfeThreshold
  /-- 5001.07 lane[0].eye_snr (13_host_lanes.md R316): slicer SNR, last 1 ms -/
  | laneEyeSnr
  /-- 5002.01 lane[0].tx_swing (13_host_lanes.md R316): per R301 -/
  | laneTxSwing
  /-- 5002.02 lane[0].tx_pre2 (13_host_lanes.md R316): per R301 -/
  | laneTxPre2
  /-- 5002.03 lane[0].tx_pre1 (13_host_lanes.md R316): per R301 -/
  | laneTxPre1
  /-- 5002.04 lane[0].tx_post1 (13_host_lanes.md R316): per R301 -/
  | laneTxPost1
  /-- 5002.05 lane[0].tx_main (13_host_lanes.md R316): derived main tap -/
  | laneTxMain
  /-- 5003.01 lane[0].pair.fault (13_host_lanes.md R316): per R305; bits 7:5 read 0 -/
  | lanePairFault
  /-- 5003.02 lane[0].pair.cm_p (13_host_lanes.md R316): P leg DC level -/
  | lanePairCmP
  /-- 5003.03 lane[0].pair.cm_n (13_host_lanes.md R316): N leg DC level -/
  | lanePairCmN
  /-- 5003.04 lane[0].pair.test (13_host_lanes.md R316): 0x01 = legs-together test (R305) -/
  | lanePairTest
  /-- 5003.05 lane[0].pair.test_reading (13_host_lanes.md R316): last test result -/
  | lanePairTestReading
  /-- 5010.01 octet[0].order_mode (13_host_lanes.md R316): 0 straight, 1 reversed, 2 auto (R299) -/
  | octetOrderMode
  /-- 5010.02 octet[0].order_found (13_host_lanes.md R316): 0 none, 1 straight, 2 reversed, 3 straight by default -/
  | octetOrderFound
  /-- 5010.03 octet[0].tx_order (13_host_lanes.md R316): 0 straight, 1 reversed (R298) -/
  | octetTxOrder
  /-- 5C00.01 port[0].rate (13_host_lanes.md R316): per Table: Port layout -/
  | portRate
  /-- 5C00.02 port[0].enable (13_host_lanes.md R316): 1 = port enabled -/
  | portEnable
  /-- 5C00.03 port[0].up_hold (13_host_lanes.md R316): 0 to 10,000; other values refused -/
  | portUpHold
  /-- 5C00.04 port[0].max_frame (13_host_lanes.md R316): 1,518 to 16,383; other values refused -/
  | portMaxFrame
  /-- 5C00.05 port[0].egress_gap (13_host_lanes.md R316): 12 to 64; other values refused -/
  | portEgressGap
  /-- 5C01.01 port[0].state (13_host_lanes.md R316): 0 disabled, 1 waiting for lanes, 2 aligning or holding, 3 up, 4 local fault -/
  | portState
  /-- 5C01.02 port[0].fault_cause (13_host_lanes.md R316): bits per R308 for the present or last fault; bits 7:6 read 0 -/
  | portFaultCause
  /-- 5C01.03 port[0].faults (13_host_lanes.md R316): entries to local fault -/
  | portFaults
  /-- 5C01.04 port[0].rf_received (13_host_lanes.md R316): Remote Fault arriving from the host -/
  | portRfReceived
  /-- 5C01.05 port[0].sending (13_host_lanes.md R316): 0 data, 1 Local Fault, 2 Remote Fault (R309) -/
  | portSending
  /-- 5C02.01 port[0].fec.corrected (13_host_lanes.md R316): RS-FEC codewords corrected -/
  | portFecCorrected
  /-- 5C02.02 port[0].fec.uncorrected (13_host_lanes.md R316): RS-FEC codewords uncorrectable -/
  | portFecUncorrected
  /-- 5C02.03 port[0].fec.symbols (13_host_lanes.md R316): RS-FEC symbols corrected -/
  | portFecSymbols
  /-- 5C03.01 port[0].rm.fill (13_host_lanes.md R316): per R311 -/
  | portRmFill
  /-- 5C03.02 port[0].rm.inserted (13_host_lanes.md R316): idles inserted -/
  | portRmInserted
  /-- 5C03.03 port[0].rm.deleted (13_host_lanes.md R316): idles deleted -/
  | portRmDeleted
  /-- 5C03.04 port[0].rm.slips (13_host_lanes.md R316): per R311 -/
  | portRmSlips
  /-- F100.01 lane[0].prbs.gen (13_host_lanes.md R316): 0 off, pattern code per Table: PRBS patterns -/
  | lanePrbsGen
  /-- F100.02 lane[0].prbs.check (13_host_lanes.md R316): as F100.01 -/
  | lanePrbsCheck
  /-- F100.03 lane[0].prbs.user (13_host_lanes.md R316): user pattern -/
  | lanePrbsUser
  /-- F100.04 lane[0].prbs.state (13_host_lanes.md R316): 0 off, 1 searching, 2 locked, 3 locked inverted -/
  | lanePrbsState
  /-- F100.05 lane[0].prbs.bits (13_host_lanes.md R316): checked while locked -/
  | lanePrbsBits
  /-- F100.06 lane[0].prbs.errors (13_host_lanes.md R316): errors while locked -/
  | lanePrbsErrors
  /-- F100.07 lane[0].prbs.inject (13_host_lanes.md R316): 0x01 = inject one error -/
  | lanePrbsInject
  /-- F100.08 lane[0].prbs.inject_rate (13_host_lanes.md R316): 0 off; n = 10 to 40; other values refused -/
  | lanePrbsInjectRate
  /-- F100.09 lane[0].prbs.injected (13_host_lanes.md R316): injections made -/
  | lanePrbsInjected
  /-- F100.0A lane[0].loopback (13_host_lanes.md R316): 0 none, 1 far-end, 2 near-end (R315) -/
  | laneLoopback
  /-- E000.01 scrub.enable (14_integrity_memory.md R333): per R329 -/
  | scrubEnable
  /-- E000.02 tracker.used (14_integrity_memory.md R333): entries in use -/
  | trackerUsed
  /-- E000.03 tracker.evictions (14_integrity_memory.md R333): per R330 -/
  | trackerEvictions
  /-- E000.04 weak.list (14_integrity_memory.md R333): domain U8 then line address U64 little-endian, per weak line since reset -/
  | weakList
  /-- E000.05 repair.pending (14_integrity_memory.md R333): HBM rows queued (R332) -/
  | repairPending
  /-- E000.06 repair.done (14_integrity_memory.md R333): repairs completed -/
  | repairDone
  /-- E000.07 repair.failed (14_integrity_memory.md R333): per R332 -/
  | repairFailed
  /-- E010.01 custody.fail[1..6] (14_integrity_memory.md R333): failures at points 1 to 6 of Table: Custody failure outcomes -/
  | custodyFail
  /-- E010.07 custody.frames_discarded (14_integrity_memory.md R333): by R322 and R323 -/
  | custodyFramesDiscarded
  /-- E010.08 custody.frames_errored (14_integrity_memory.md R333): sent with FCS complemented or an error control block -/
  | custodyFramesErrored
  /-- E010.09 custody.tiles_complemented (14_integrity_memory.md R333): points 2 and 3 -/
  | custodyTilesComplemented
  /-- E010.0A custody.blocks_replaced (14_integrity_memory.md R333): transparent blocks replaced -/
  | custodyBlocksReplaced
  /-- E100.01 mem[0].corrected (14_integrity_memory.md R333): per R326 -/
  | memCorrected
  /-- E100.02 mem[0].uncorrectable (14_integrity_memory.md R333): per R327 -/
  | memUncorrectable
  /-- E100.03 mem[0].lap_time (14_integrity_memory.md R333): last full lap -/
  | memLapTime
  /-- E100.04 mem[0].laps (14_integrity_memory.md R333): laps completed -/
  | memLaps
  /-- E100.05 mem[0].weak (14_integrity_memory.md R333): weak marks -/
  | memWeak
  /-- E100.06 mem[0].spares_left (14_integrity_memory.md R333): spare or reserve rows free -/
  | memSparesLeft
  /-- E100.07 mem[0].remaps (14_integrity_memory.md R333): remaps done -/
  | memRemaps
  /-- E100.08 mem[0].lap_limit (14_integrity_memory.md R333): 0 = no event; otherwise 1 to 3,600,000 -/
  | memLapLimit
  /-- 1200.01 bdap.station (15_dictionary.md R360): native station address, bits 47:0 -/
  | bdapStation
  /-- 1200.02 bdap.forerunner_station (15_dictionary.md R360): forerunner station address -/
  | bdapForerunnerStation
  /-- 1200.03 bdap.unregistered_class (15_dictionary.md R360): 0 observer, 1 operator, 3 ignore; 2 refused -/
  | bdapUnregisteredClass
  /-- 1200.04 bdap.staging_timeout (15_dictionary.md R360): 100 to 60,000; other values refused -/
  | bdapStagingTimeout
  /-- 1200.05 bdap.requests (15_dictionary.md R360): requests taken -/
  | bdapRequests
  /-- 1200.06 bdap.duplicates (15_dictionary.md R360): per R346 -/
  | bdapDuplicates
  /-- 1200.07 bdap.aborts (15_dictionary.md R360): aborts sent -/
  | bdapAborts
  /-- 1200.08 bdap.discarded (15_dictionary.md R360): unreadable, over the queue, or ignored as sent only by the device or answering no EVENT (R344, R345) -/
  | bdapDiscarded
  /-- 1200.09 bdap.ignored (15_dictionary.md R360): per R353 -/
  | bdapIgnored
  /-- 1200.0A bdap.subscribers (15_dictionary.md R360): subscriptions held -/
  | bdapSubscribers
  /-- 1200.0B bdap.lapses (15_dictionary.md R360): per R350 -/
  | bdapLapses
  /-- 1201.01 mgt[0].plca.enable (15_dictionary.md R360): 0 = CSMA/CD -/
  | mgtPlcaEnable
  /-- 1201.02 mgt[0].plca.node_id (15_dictionary.md R360): 0 to 254; 0 = coordinator -/
  | mgtPlcaNodeId
  /-- 1201.03 mgt[0].plca.node_count (15_dictionary.md R360): 1 to 255; used as coordinator -/
  | mgtPlcaNodeCount
  /-- 1201.04 mgt[0].plca.to_timer (15_dictionary.md R360): 1 to 255 -/
  | mgtPlcaToTimer
  /-- 1201.05 mgt[0].status (15_dictionary.md R360): 0 no beacon, 1 PLCA active, 2 CSMA/CD -/
  | mgtStatus
  /-- 1201.06 mgt[0].polarity_inverted (15_dictionary.md R360): per R342 -/
  | mgtPolarityInverted
  /-- 1201.07 mgt[0].frames_rx (15_dictionary.md R360): BDAP frames taken -/
  | mgtFramesRx
  /-- 1201.08 mgt[0].frames_tx (15_dictionary.md R360): frames sent -/
  | mgtFramesTx
  /-- 2800.01 mover.granules (16_mover.md R376): granules moved -/
  | moverGranules
  /-- 2800.02 mover.descriptors (16_mover.md R376): descriptors completed -/
  | moverDescriptors
  /-- 2800.03 mover.faults (16_mover.md R376): per R370 -/
  | moverFaults
  /-- 2803.01 mover.mailbox (16_mover.md R376): 1,048,576 bytes, target 7 -/
  | moverMailbox
  /-- 2804.01 telemetry.enable (16_mover.md R376): per R375 -/
  | telemetryEnable
  /-- 2804.02 telemetry.records (16_mover.md R376): per R375 -/
  | telemetryRecords
  /-- 2900.01 ring[0].enable (16_mover.md R376): per R368 -/
  | ringEnable
  /-- 2900.02 ring[0].priority (16_mover.md R376): 0 to 3; other values refused -/
  | ringPriority
  /-- 2900.03 ring[0].post (16_mover.md R376): 32 to 1,376, a multiple of 32 (R366) -/
  | ringPost
  /-- 2900.04 ring[0].control (16_mover.md R376): per R370 -/
  | ringControl
  /-- 2900.05 ring[0].state (16_mover.md R376): 0 disabled, 1 idle, 2 running, 3 pre-empted, 4 waiting, 5 halted -/
  | ringState
  /-- 2900.06 ring[0].queued (16_mover.md R376): descriptors held, head included -/
  | ringQueued
  /-- 2900.07 ring[0].granule (16_mover.md R376): granule offset of the head descriptor -/
  | ringGranule
  /-- 2900.08 ring[0].fault (16_mover.md R376): per Table: Fault record -/
  | ringFault
  /-- 2A00.01 window.select (16_mover.md R376): window 0 to 255 -/
  | windowSelect
  /-- 2A00.02 window.entry (16_mover.md R376): 16 bytes, little-endian, per Table: Window entry -/
  | windowEntry
  /-- 2A00.03 window.table (16_mover.md R376): 256 entries; each checked as R364 against the whole table -/
  | windowTable
  /-- F200.01 capture[0].control (16_mover.md R376): 0x01 arm, 0x02 stop -/
  | captureControl
  /-- F200.02 capture[0].point (16_mover.md R376): per Table: Capture formats -/
  | capturePoint
  /-- F200.03 capture[0].length (16_mover.md R376): 4 to 262,144, a multiple of 4; other values refused -/
  | captureLength
  /-- F200.04 capture[0].trigger (16_mover.md R376): event number e; 0xFFFF = at arming -/
  | captureTrigger
  /-- F200.05 capture[0].state (16_mover.md R376): 0 idle, 1 armed, 2 filling, 3 complete -/
  | captureState
  /-- F200.06 capture[0].arms (16_mover.md R376): per R374 -/
  | captureArms
  /-- F200.07 capture[0].start (16_mover.md R376): time base 0 at the first stroke set stored -/
  | captureStart
  /-- B000.01 event[0].enable (17_events_counters.md R380): 0 = not latched, recorded or sent; a write of 0 also clears .03 -/
  | eventEnable
  /-- B000.02 event[0].severity (17_events_counters.md R380): 0 to 3; other values refused -/
  | eventSeverity
  /-- B000.03 event[0].latched (17_events_counters.md R380): 1 = raised since last cleared -/
  | eventLatched
  /-- B000.04 event[0].count (17_events_counters.md R380): raises since reset, enabled or not; wraps -/
  | eventCount
  /-- B000.05 event[0].last_time (17_events_counters.md R380): time base 0 at the last raise, seconds × 10⁹ + nanoseconds -/
  | eventLastTime
  /-- B600.01 ring.records (17_events_counters.md R386): up to 32,768 bytes, per R384 -/
  | ringRecords
  /-- B600.02 ring.next_seq (17_events_counters.md R386): seq of the next record -/
  | ringNextSeq
  /-- B600.03 ring.overwritten (17_events_counters.md R386): per R384 -/
  | ringOverwritten
  /-- B600.05 ring.clear_latched (17_events_counters.md R386): 0x01 = clear every .03 (R382) -/
  | ringClearLatched
  /-- B601.01 alert.enable0 (17_events_counters.md R386): 0 = ALERT0_N held high -/
  | alertEnable0
  /-- B601.02 alert.enable1 (17_events_counters.md R386): 0 = ALERT1_N held high -/
  | alertEnable1
  /-- B601.03 alert.state (17_events_counters.md R386): bit 0 ALERT0_N low; bit 1 ALERT1_N low -/
  | alertState
  /-- 1003.01 history.records (17_events_counters.md R386): up to 2,048 bytes, oldest first -/
  | historyRecords
  /-- 1003.02 history.written (17_events_counters.md R386): records written since cold reset -/
  | historyWritten
  /-- B700.01 input[0].debounce (17_events_counters.md R391): 0 to 1,000; default 0 for i = 32 to 35; other values refused; applies from the next sample -/
  | inputDebounce
  /-- B700.02 input[0].active_high (17_events_counters.md R391): i = 24 to 35 only; inputs 0 to 23 read 0, and a write is refused -/
  | inputActiveHigh
  /-- B700.03 input[0].stuck_limit (17_events_counters.md R391): 100 to 3,600,000; other values refused -/
  | inputStuckLimit
  /-- B700.04 input[0].rate_limit (17_events_counters.md R391): 10 to 10,000; other values refused; applies from the next window -/
  | inputRateLimit
  /-- B700.05 input[0].state (17_events_counters.md R391): bit 0 active; bit 1 masked; bit 2 rate-limited -/
  | inputState
  /-- B700.06 input[0].edges (17_events_counters.md R391): edges since reset; wraps -/
  | inputEdges
  /-- A000.01 counters.permit[0..2] (17_events_counters.md R397): per R396; keeper only -/
  | countersPermit
  /-- A001.01 snap.every_second (17_events_counters.md R397): per R395 -/
  | snapEverySecond
  /-- A001.02 snap.every_quarter (17_events_counters.md R397): per R395 -/
  | snapEveryQuarter
  /-- A001.03 snap.busy (17_events_counters.md R397): 1 = gather running -/
  | snapBusy
  /-- A001.04 snap.number (17_events_counters.md R397): number of bank 0 -/
  | snapNumber
  /-- A001.05 snap.time (17_events_counters.md R397): time of bank 0 -/
  | snapTime
  /-- A001.06 snap.cause (17_events_counters.md R397): bank 0: bit 0 SNAPSHOT command, bit 1 aligned second, bit 2 aligned quarter hour; every cause of one gather is set, so 0x07 marks all three together; bits 7:3 read 0 -/
  | snapCause
  /-- A001.07 snap.quarter_number (17_events_counters.md R397): number of bank 1 -/
  | snapQuarterNumber
  /-- A001.08 snap.clear_wraps (17_events_counters.md R397): group mask, per R394 -/
  | snapClearWraps
  /-- A010.01 filter.bank (17_events_counters.md R397): 0 or 1 -/
  | filterBank
  /-- A010.02 filter.carriers (17_events_counters.md R397): bit c = carrier c -/
  | filterCarriers
  /-- A010.03 filter.groups (17_events_counters.md R397): per R396 -/
  | filterGroups
  /-- A010.04 filter.directions (17_events_counters.md R397): bit 0 transmit, bit 1 receive, bit 2 none; flows use bits 0 and 1 -/
  | filterDirections
  /-- A010.05 filter.flow_first (17_events_counters.md R397): 0 to 32,767 -/
  | filterFlowFirst
  /-- A010.06 filter.flow_count (17_events_counters.md R397): 0 to 32,768; first + count ≤ 32,768 -/
  | filterFlowCount
  /-- A010.07 filter.result (17_events_counters.md R397): per R397 -/
  | filterResult
  /-- A020.01 flowcount.select (17_events_counters.md R397): flow 0 to 32,767 -/
  | flowcountSelect
  /-- A020.02 flowcount.frames (17_events_counters.md R397): live value -/
  | flowcountFrames
  /-- A020.03 flowcount.bytes (17_events_counters.md R397): live value -/
  | flowcountBytes
  /-- 8000.01 tbase[0].now (18_time.md R409): per R401 -/
  | tbaseNow
  /-- 8000.02 tbase[0].set (18_time.md R409): absolute set, per R402 -/
  | tbaseSet
  /-- 8000.03 tbase[0].offset (18_time.md R409): step, per R402 -/
  | tbaseOffset
  /-- 8000.04 tbase[0].increment (18_time.md R409): per R400 -/
  | tbaseIncrement
  /-- 8000.05 tbase[0].step_threshold (18_time.md R409): 0 to 1,000,000,000; other values refused -/
  | tbaseStepThreshold
  /-- 8000.06 tbase[0].force (18_time.md R409): per R402 -/
  | tbaseForce
  /-- 8000.07 tbase[0].steps_refused (18_time.md R409): per R402 -/
  | tbaseStepsRefused
  /-- 8000.08 tbase[0].refused_flag (18_time.md R409): per R402 -/
  | tbaseRefusedFlag
  /-- 8000.09 tbase[0].steps (18_time.md R409): steps applied -/
  | tbaseSteps
  /-- 8000.0A tbase[0].pps_input (18_time.md R409): 0 to 3, 0xFF none -/
  | tbasePpsInput
  /-- 8000.0B tbase[0].pps_capture (18_time.md R409): per R404 -/
  | tbasePpsCapture
  /-- 8000.0C tbase[0].pps_captures (18_time.md R409): per R404 -/
  | tbasePpsCaptures
  /-- 8040.01 pps_out[0].source (18_time.md R409): 0 to 3, 0xFF off -/
  | ppsOutSource
  /-- 8040.02 pps_out[0].width (18_time.md R409): 1 to 500,000; other values refused -/
  | ppsOutWidth
  /-- 8040.03 pps_out[0].offset (18_time.md R409): −500,000,000 to +500,000,000 -/
  | ppsOutOffset
  /-- 5C04.01 port[0].ptp.enable (18_time.md R409): per R406 -/
  | portPtpEnable
  /-- 5C04.02 port[0].ptp.tbase (18_time.md R409): 0 to 3 -/
  | portPtpTbase
  /-- 5C04.03 port[0].ptp.rx_write (18_time.md R409): per R408 -/
  | portPtpRxWrite
  /-- 8100.01 tsq.pop (18_time.md R409): per R407 -/
  | tsqPop
  /-- 8100.02 tsq.fill (18_time.md R409): entries held -/
  | tsqFill
  /-- 8100.03 tsq.overflow (18_time.md R409): per R407 -/
  | tsqOverflow
  /-- 8100.04 tsq.dropped (18_time.md R409): per R407 -/
  | tsqDropped
  /-- 8F00.01 tclk.mode (18_time.md R409): per R399 -/
  | tclkMode
  /-- 8F00.02 tclk.source (18_time.md R409): 0 TREF, 1 TREF holdover, 2 XTAL -/
  | tclkSource
  /-- 8F00.03 tclk.tref_offset (18_time.md R409): TREF against XTAL: −2,147,483,648 while TREF is absent; otherwise the measured offset, in tolerance or not, saturating at ±2,147,483,647, as 2400.02 (R63) -/
  | tclkTrefOffset
  /-- 2100.01 rail[0].voltage (19_power_thermal.md R413): last sample, averaged over 1 µs -/
  | railVoltage
  /-- 2100.02 rail[0].floor (19_power_thermal.md R413): floor in force; for rails 10 to 12, 90 % of 2100.07 -/
  | railFloor
  /-- 2100.03 rail[0].state (19_power_thermal.md R413): 0 above floor, 1 below floor, 2 brownout -/
  | railState
  /-- 2100.04 rail[0].episodes (19_power_thermal.md R413): episodes below floor -/
  | railEpisodes
  /-- 2100.05 rail[0].lowest (19_power_thermal.md R413): lowest sample; writing 1 resets it to the present sample -/
  | railLowest
  /-- 2100.06 rail[0].avs_failures (19_power_thermal.md R413): unacknowledged AVSBus transactions; rails 0 to 4 only -/
  | railAvsFailures
  /-- 2100.07 rail[0].nominal (19_power_thermal.md R413): nominal in force: the setpoint sent under R414 for rails 0 to 4, the nominal of Table: Supply rails for rails 5 to 9, the fused HBM4 option for rails 10 to 12 -/
  | railNominal
  /-- 2200.0A guard[0].ceiling (19_power_thermal.md R423): 6,200 to 9,200, a multiple of 25; other values refused -/
  | guardCeiling
  /-- 2200.0B guard[0].power_cap (19_power_thermal.md R423): 0 none; otherwise 100 to 1,000; other values refused -/
  | guardPowerCap
  /-- 2200.0C guard[0].power (19_power_thermal.md R423): per R416 -/
  | guardPower
  /-- 2200.0D guard[0].min_safe (19_power_thermal.md R423): setpoint in force during the last period with c_droop ≥ Q and c_look < Q, before any change that period made -/
  | guardMinSafe
  /-- 2200.0E guard[0].conflict (19_power_thermal.md R423): bit 0 ceiling, bit 1 power; bits 7:2 read 0 -/
  | guardConflict
  /-- 2200.0F guard[0].conflict_periods (19_power_thermal.md R423): per R421 -/
  | guardConflictPeriods
  /-- 2300.01 thermal.hottest (19_power_thermal.md R435): per R425 -/
  | thermalHottest
  /-- 2300.02 thermal.hottest_sensor (19_power_thermal.md R435): sensor giving 2300.01 -/
  | thermalHottestSensor
  /-- 2300.03 thermal.slope (19_power_thermal.md R435): s of R433, last evaluation -/
  | thermalSlope
  /-- 2300.04 thermal.failed (19_power_thermal.md R435): bit i = sensor i failed -/
  | thermalFailed
  /-- 2300.05 thermal.last_stop (19_power_thermal.md R435): 0 none, 1 orderly, 2 hard; kept through warm reset -/
  | thermalLastStop
  /-- 2380.01 sensor[0].value (19_power_thermal.md R435): reading, or substitute when failed -/
  | sensorValue
  /-- 2380.02 sensor[0].state (19_power_thermal.md R435): 0 valid; codes 1 to 3 per R426; 4 readmission pending -/
  | sensorState
  /-- 2380.03 sensor[0].rate (19_power_thermal.md R435): 0 at 1 kHz, 1 at 16 kHz -/
  | sensorRate
  /-- 2380.04 sensor[0].raw (19_power_thermal.md R435): last raw reading -/
  | sensorRaw
  /-- 2380.05 sensor[0].readmit (19_power_thermal.md R435): 0x01 = readmit (R428) -/
  | sensorReadmit
  /-- 2380.06 sensor[0].peak (19_power_thermal.md R435): highest value; writing 1 resets it to the present value -/
  | sensorPeak
  /-- 2500.01 throttle.stage (19_power_thermal.md R435): 0 to 3 -/
  | throttleStage
  /-- 2500.02 throttle.point (19_power_thermal.md R435): Tp, 85 to 100; other values refused -/
  | throttlePoint
  /-- 2500.03 throttle.hysteresis (19_power_thermal.md R435): 1 to 10; other values refused -/
  | throttleHysteresis
  /-- 2500.04 throttle.iteration_cap (19_power_thermal.md R435): 2 to 11; other values refused -/
  | throttleIterationCap
  /-- 2500.05 throttle.escalate (19_power_thermal.md R435): 5 to 1,000; other values refused -/
  | throttleEscalate
  /-- 2500.06 throttle.release (19_power_thermal.md R435): 10 to 10,000; other values refused -/
  | throttleRelease
  /-- 2500.07 throttle.auto_restore (19_power_thermal.md R435): per R431 -/
  | throttleAutoRestore
  /-- 2500.08 throttle.shed (19_power_thermal.md R435): bit c = carrier c shed; writing 1 restores it -/
  | throttleShed
  /-- 2500.09 throttle.entries (19_power_thermal.md R435): entries to stage 1 -/
  | throttleEntries
  /-- 2501.01 throttle.shed_rank[0..11] (19_power_thermal.md R435): rank of carriers 0 to 11; 255 never shed -/
  | throttleShedRank
  /-- 9000.01 hk[0].state (20_monitor_adc.md R451): 0 idle, 1 sequence, 2 injected, 3 calibrating -/
  | hkState
  /-- 9000.02 hk[0].seq_trigger (20_monitor_adc.md R451): per R444 -/
  | hkSeqTrigger
  /-- 9000.03 hk[0].seq_event (20_monitor_adc.md R451): event number for source 3 -/
  | hkSeqEvent
  /-- 9000.04 hk[0].seq_start (20_monitor_adc.md R451): 0x01 = trigger -/
  | hkSeqStart
  /-- 9000.05 hk[0].seq_missed (20_monitor_adc.md R451): per R445 -/
  | hkSeqMissed
  /-- 9000.06 hk[0].seq_count (20_monitor_adc.md R451): sequences completed -/
  | hkSeqCount
  /-- 9000.07 hk[0].inj_entry (20_monitor_adc.md R451): per Table: Conversion entry -/
  | hkInjEntry
  /-- 9000.08 hk[0].inj_trigger (20_monitor_adc.md R451): per R446 -/
  | hkInjTrigger
  /-- 9000.09 hk[0].inj_event (20_monitor_adc.md R451): event number for source 3 -/
  | hkInjEvent
  /-- 9000.0A hk[0].inj_start (20_monitor_adc.md R451): 0x01 = trigger -/
  | hkInjStart
  /-- 9000.0B hk[0].inj_missed (20_monitor_adc.md R451): per R446 -/
  | hkInjMissed
  /-- 9000.0C hk[0].inj_result (20_monitor_adc.md R451): per Table: Housekeeping result -/
  | hkInjResult
  /-- 9000.0D hk[0].cal_request (20_monitor_adc.md R451): 0x01 = calibrate -/
  | hkCalRequest
  /-- 9000.0E hk[0].cal_state (20_monitor_adc.md R451): 0 none, 1 latched, 2 running -/
  | hkCalState
  /-- 9000.0F hk[0].cal_interval (20_monitor_adc.md R451): 0 off; 1 to 3,600; other values refused -/
  | hkCalInterval
  /-- 9000.10 hk[0].cal_offset (20_monitor_adc.md R451): offset in force -/
  | hkCalOffset
  /-- 9000.11 hk[0].cal_gain (20_monitor_adc.md R451): gain correction in force -/
  | hkCalGain
  /-- 9000.12 hk[0].cal_refusals (20_monitor_adc.md R451): per R447 -/
  | hkCalRefusals
  /-- 9000.13 hk[0].cal_last_limit (20_monitor_adc.md R451): 0 none; 1 to 3 -/
  | hkCalLastLimit
  /-- 9000.14 hk[0].ref_result (20_monitor_adc.md R451): channel 64 -/
  | hkRefResult
  /-- 9000.15 hk[0].gnd_result (20_monitor_adc.md R451): channel 65 -/
  | hkGndResult
  /-- 9010.01 hkseq[0].entries (20_monitor_adc.md R451): 2 to 64 bytes, U16 entries, little-endian -/
  | hkseqEntries
  /-- 9002.01 hk.plaus_enable (20_monitor_adc.md R451): per R449 -/
  | hkPlausEnable
  /-- 9002.02 hk.plaus_window (20_monitor_adc.md R451): 1 to 1,000; other values refused -/
  | hkPlausWindow
  /-- 9002.03 hk.plaus_limit (20_monitor_adc.md R451): 1,000 to 500,000; other values refused -/
  | hkPlausLimit
  /-- 9002.04 hk.open_threshold (20_monitor_adc.md R451): 100 to 1,400; other values refused -/
  | hkOpenThreshold
  /-- 9002.05 hk.settle_time (20_monitor_adc.md R451): 1 to 50; other values refused -/
  | hkSettleTime
  /-- 9100.01 mon[0].result (20_monitor_adc.md R451): per Table: Housekeeping result -/
  | monResult
  /-- 9100.02 mon[0].microvolts (20_monitor_adc.md R451): per R441 -/
  | monMicrovolts
  /-- 9100.03 mon[0].average (20_monitor_adc.md R451): n, 0 to 8 -/
  | monAverage
  /-- 9100.04 mon[0].shift (20_monitor_adc.md R451): s, 0 to n -/
  | monShift
  /-- 9100.05 mon[0].low (20_monitor_adc.md R451): lower limit -/
  | monLow
  /-- 9100.06 mon[0].high (20_monitor_adc.md R451): upper limit -/
  | monHigh
  /-- 9100.07 mon[0].overruns (20_monitor_adc.md R451): per R442 -/
  | monOverruns
  /-- 9100.08 mon[0].limit_state (20_monitor_adc.md R451): 0 inside, 1 below, 2 above -/
  | monLimitState
  /-- 9100.09 mon[0].implausible (20_monitor_adc.md R451): per R449; shared inputs only -/
  | monImplausible
  /-- 9100.0A mon[0].open (20_monitor_adc.md R451): per R448 -/
  | monOpen
  /-- C000.01 pair.role (21_pair.md R466): 0 none, 1 active, 2 standby -/
  | pairRole
  /-- C000.02 pair.state (21_pair.md R466): 0 not in Pair, 1 joining, 2 paired, 3 partner absent -/
  | pairState
  /-- C000.03 pair.switch (21_pair.md R466): 0x01 switch if ready, 0x02 force (R461) -/
  | pairSwitch
  /-- C000.04 pair.tie_loss_policy (21_pair.md R466): 0 hold, 1 take over (R462) -/
  | pairTieLossPolicy
  /-- C000.05 pair.watch_input (21_pair.md R466): EVT_IN 0 to 7; 0xFF none -/
  | pairWatchInput
  /-- C000.06 pair.health_margin (21_pair.md R466): 0 off; 1 to 12; other values refused -/
  | pairHealthMargin
  /-- C000.07 pair.hold_off (21_pair.md R466): 1 to 10,000; other values refused -/
  | pairHoldOff
  /-- C000.08 pair.switchovers (21_pair.md R466): per R463 -/
  | pairSwitchovers
  /-- C000.09 pair.last_cause (21_pair.md R466): code of Table: Switchover triggers; 0 none -/
  | pairLastCause
  /-- C000.0A pair.host_mute (21_pair.md R466): per Table: Role behaviour -/
  | pairHostMute
  /-- C000.0B pair.partner_addr (21_pair.md R466): partner's ADDR; 0xFF unknown -/
  | pairPartnerAddr
  /-- C000.0C pair.partner_mode (21_pair.md R466): partner's 2000.02; 0xFF unknown -/
  | pairPartnerMode
  /-- C000.0D pair.partner_health (21_pair.md R466): per R461 -/
  | pairPartnerHealth
  /-- C000.0E pair.digest_match (21_pair.md R466): bit n = digest n agrees (R457) -/
  | pairDigestMatch
  /-- C000.0F pair.ready (21_pair.md R466): per R460 -/
  | pairReady
  /-- C000.10 pair.refusal (21_pair.md R466): code of Table: Pair preconditions, or 6 per R465 -/
  | pairRefusal
  /-- C001.01 tie.state (21_pair.md R466): 0 off, 1 down, 2 up -/
  | tieState
  /-- C001.02 tie.lanes_locked (21_pair.md R466): bit n = lane n locked; bits 7:4 read 0 -/
  | tieLanesLocked
  /-- C001.03 tie.downs (21_pair.md R466): entries to down -/
  | tieDowns
  /-- C001.04 tie.sent (21_pair.md R466): messages sent -/
  | tieSent
  /-- C001.05 tie.received (21_pair.md R466): valid messages taken -/
  | tieReceived
  /-- C001.06 tie.crc_errors (21_pair.md R466): copies discarded on CRC -/
  | tieCrcErrors
  /-- C002.01 pair.digest_local[0..7] (21_pair.md R466): R457 -/
  | pairDigestLocal
  /-- C003.01 pair.digest_partner[0..7] (21_pair.md R466): as received -/
  | pairDigestPartner
  /-- 1001.01 error.register (15_dictionary.md R341): per Table: Error register -/
  | errorRegister
  /-- 2F40.01 base_matrix.long (09_coding.md R201): 12 x 144 bytes -/
  | baseMatrixLong
  /-- 2F40.02 base_matrix.sprint (09_coding.md R201): 9 x 144 bytes -/
  | baseMatrixSprint
  /-- 1300.01 registration.select (15_dictionary.md R360): row 0 to 15 -/
  | registrationSelect
  /-- 1300.02 registration.row (15_dictionary.md R355): per Table: Registration row -/
  | registrationRow
  /-- 1300.03 registration.table (15_dictionary.md R360): 16 rows -/
  | registrationTable
  /-- 3046.01 carrier[0].rx.freeze (06_receive_equalisation.md R147): per Table: Freeze map -/
  | carrierRxFreeze
  /-- 3046.02 carrier[0].rx.erased_symbols (06_receive_equalisation.md R147): per R127 -/
  | carrierRxErasedSymbols
  /-- 3046.03 carrier[0].rx.holding (06_receive_equalisation.md R147): what is holding for any reason -/
  | carrierRxHolding
  /-- [time base t] seconds of time base t, 48 bits (18_time.md R400) -/
  | xTbSec
  /-- [time base t] nanoseconds of time base t, 0 to 999,999,999 (18_time.md R400) -/
  | xTbNs
  /-- [time base t] 32 fraction bits of time base t (18_time.md R400) -/
  | xTbFrac
  /-- [-] timing-clock ticks since the end of the fuse load (the phase of the periodic processes) (18_time.md R481) -/
  | xTicks
  /-- [-] time base 0 second number plus one in which source 114 was last raised (0 = none) (15_dictionary.md R353) -/
  | xIgnoredSecond
  /-- [-] time base 0 second number plus one in which source 34 was last raised (18_time.md R407) -/
  | xTsqSecond
  /-- [-] 1 = an uncorrectable error since reset (error register bit 2) (15_dictionary.md R341) -/
  | xMemUncorrected
  /-- [converter k] blob: the sequence entries in force since the last start (20_monitor_adc.md R444) -/
  | xHkSequence
  /-- [converter k] entry of the sequence being converted (20_monitor_adc.md R444) -/
  | xHkIndex
  /-- [converter k] 1 = a sequence is running or paused (20_monitor_adc.md R445) -/
  | xHkSeqActive
  /-- [converter k] 1 = a sequence trigger is held until calibration ends (20_monitor_adc.md R445) -/
  | xHkHeld
  /-- [converter k] 1 = an injected entry is pending (20_monitor_adc.md R446) -/
  | xHkInjPending
  /-- [converter k] the injected entry being converted (20_monitor_adc.md R446) -/
  | xHkInjInForce
  /-- [converter k] n of the conversion under way (20_monitor_adc.md R441) -/
  | xHkAverage
  /-- [converter k] s of the conversion under way (20_monitor_adc.md R441) -/
  | xHkShift
  /-- [-] second mark of source 132 (20_monitor_adc.md R445) -/
  | xHkMissSecond
  /-- [converter k] 1 = a calibration starts at the next sample boundary (20_monitor_adc.md R447) -/
  | xHkCalWait
  /-- [64k + i] latest result of converter k for shared input i, in microvolts (20_monitor_adc.md R449) -/
  | xHkLastUv
  /-- [64k + i] ns since the end of the fuse load of that result, plus one; 0 = none yet (20_monitor_adc.md R449) -/
  | xHkLastTime
  /-- [64k + i] 1 = that result has settling or open set (20_monitor_adc.md R449) -/
  | xHkLastTagged
  /-- [carrier c] 1 = the armed capture has been triggered (16_mover.md R372) -/
  | xCaptureTriggered
  /-- [-] 1 = converters powered (02_modes.md R37) -/
  | xPowered
  /-- [-] loop period, plus one, in which Haven was last entered from another mode; 0 = none since reset (02_modes.md R43) -/
  | xHavenPeriod
  /-- [-] 1 = SYSRST_N is low (02_modes.md R50) -/
  | xSysrst
  /-- [carrier c] 1 = the guard-loop raise for leaving Idle is in progress (01_architecture.md R27) -/
  | xRaising
  /-- [macro] spare rows of a macro that are in use; unit 16 macro + domain (14_integrity_memory.md R331) -/
  | xMacroUsed
  /-- [tributary] the load of its slot after which the tributary has switched (12_cipher.md R278) -/
  | xTxSwitched
  /-- [slot] loads that the slot has taken (12_cipher.md R278) -/
  | xSlotSerial
  /-- [tributary] bytes of the first tile of a receive queue that have been taken (11_flows.md R254) -/
  | xTribOffset
  /-- [tributary] blob: payload tiles of the next transmit block marked failed (14_integrity_memory.md R327) -/
  | xClearMarks
  /-- [tributary] blob: transmit line tiles of this and the last multiframe that failed at FEC encoding (14_integrity_memory.md R322) -/
  | xTxFailed
  /-- [port] an idle control block is owed behind the block sent last (13_host_lanes.md R311) -/
  | xRmIdle
  /-- [flow] blob: bits of a transparent port that fill no word yet (11_flows.md R247) -/
  | xPcsTail
  /-- [flow] the block under way of a transparent flow is replaced (14_integrity_memory.md R322) -/
  | xPcsBad
  /-- [flow] bits of the block under way of a transparent flow that the mapper has sent (14_integrity_memory.md R322) -/
  | xPcsGone
  /-- [flow] words of a transparent flow that have come since the transmit multiframe boundary (11_flows.md R248) -/
  | xFlowCame
  /-- [tributary] the block of a plain transparent tributary under way carries zero words (12_cipher.md R267) -/
  | xTxStop
  /-- [8 × carrier + candidate] length in µs of the survey window of the candidate, as it stood at its restart (08_catch.md R186) -/
  | xSurveyWin
  /-- [filter] 1 = a relock owes the filter a bank computed from the values then written (06_receive_equalisation.md R139) -/
  | xBankDue
  /-- [converter u] D1xx.03 as a recalibration under R94 found it (04_converter_calibration.md R94) -/
  | xCalSuspectWas
  /-- [carrier c] sets before the one at which decided steps land (03_line_converters.md R67) -/
  | xGainWait
  /-- [carrier c] some ADC of the carrier was not at gain code 36 throughout the window (10_line_frame.md R229) -/
  | xAgcBelow
  /-- [carrier c] sets that no window measures before the next one begins (03_line_converters.md R67) -/
  | xAgcSkip
  /-- [ADC a] sum of squares of an ADC over the unflagged samples of the window (03_line_converters.md R66) -/
  | xAgcSum
  /-- [carrier c] stroke sets of the AGC window under way that have no erasure flag (03_line_converters.md R66) -/
  | xAgcGood
  /-- [carrier c] stroke sets of the AGC window under way (03_line_converters.md R66) -/
  | xAgcSets
  /-- [port p] loss of marker lock or skew of a port stands until it aligns anew (13_host_lanes.md R308) -/
  | xPortPcs
  /-- [lane h] polarity search of a lane due: its bring-up has passed step 2 (13_host_lanes.md R297) -/
  | xPolDue
  /-- [-] loop period, plus one, in which a Haven cause last joined a stay in Haven (02_modes.md R43) -/
  | xCausePeriod
  /-- [carrier c] arrival of the boundary that began the multiframe under way, ps, plus one; 0 none since Locked (11_flows.md R258) -/
  | xMfArrival
  /-- [tributary t] blob: bytes of an enciphered packet tributary that no block has taken (12_cipher.md R265) -/
  | xClear
  /-- [tributary t] last 43 bits received in payload areas, newest lowest (11_flows.md R246) -/
  | xGfpDescramble
  /-- [tributary t] GFP delineation: 0 hunt, 1 presync, 2 sync (11_flows.md R246) -/
  | xGfpState
  /-- [HBM stack k] a repair was running when the device entered Haven (14_integrity_memory.md R332) -/
  | xRepairRun
  /-- [tributary t] blob: transmit line tiles marked failed before their check at FEC encoding, by number above the parity of their multiframe, 4 bytes each (14_integrity_memory.md R327) -/
  | xTxTileBad
  /-- [tributary t] blob: tiles of the receive queue that failed, twice their number from the first and 1 where counted, 4 bytes each (14_integrity_memory.md R327) -/
  | xTribMarks
  /-- [flow f] blob: tiles marked failed, counted from the first held, 4 bytes each (14_integrity_memory.md R327) -/
  | xFlowMarks
  /-- [bank b] blob: words of the working copy that read 0 until it is reloaded, 4 bytes each (14_integrity_memory.md R327) -/
  | xBankHole
  /-- [word of a working copy: connection row 0, calendar entry 65536, span 131072, receive row 135168, binding 139264, flow 262144 on] the word reads 0 until the copy is loaded again (14_integrity_memory.md R327) -/
  | xTableLost
  /-- [port p] tick at which the port aligned (13_host_lanes.md R307) -/
  | xPortAlignAt
  /-- [octet o] a lane has locked since that search (13_host_lanes.md R299) -/
  | xOrderDue
  /-- [octet o] a search found no port that aligns (13_host_lanes.md R299) -/
  | xOrderTried
  /-- [lane h] tick of the last lock since the lane was powered, plus one; 0 none (13_host_lanes.md R299) -/
  | xLaneLockAt
  /-- [lane h] more than 64 of 1,024 bits mismatched (13_host_lanes.md R313) -/
  | xPrbsBad
  /-- [lane h] which of the last 1,023 checked bits mismatched, newest in bit 0 (13_host_lanes.md R313) -/
  | xPrbsTail
  /-- [lane h] the checker's own sequence, as xPrbsReg (13_host_lanes.md R313) -/
  | xPrbsCheck
  /-- [lane h] injections accepted and not sent yet (13_host_lanes.md R314) -/
  | xPrbsInjDue
  /-- [lane h] last bits of the PRBS generator, newest lowest, or its place in the user pattern (13_host_lanes.md R312) -/
  | xPrbsReg
  /-- [4 x carrier c + error] front-end estimates of phase X, phase Y, gain X, gain Y in 2^-30 of their objects (06_receive_equalisation.md R131) -/
  | xFe
  /-- [converter u] interval in force until the next step, us; 0 before the first (04_converter_calibration.md R97) -/
  | xCalStepLen
  /-- [converter u] tick of the last background step (04_converter_calibration.md R97) -/
  | xCalStepAt
  /-- [2 x DAC d + leg] tick at which the leg was protected or its last trial began (03_line_converters.md R81) -/
  | xShortAt
  /-- [group g] tick at which the first member began to wait for the others in Idle (11_flows.md R257) -/
  | xBondExitAt
  /-- [group g] tick at which the wait for measurements began (11_flows.md R258) -/
  | xGroupWaitAt
  /-- [tributary t] tick at which fill = 2 was last found in two multiframes, or last ceased (10_line_frame.md R230) -/
  | xCsfAt
  /-- [10 x carrier c + defect] tick of the last change of the raw condition (10_line_frame.md R230) -/
  | xDefectAt
  /-- [-] tick from which the health of the standby exceeds that of the active by the margin, plus one; 0 while it does not (21_pair.md R461) -/
  | xHealthAt
  /-- [-] tick at which the tie link went down (21_pair.md R462) -/
  | xTieDownAt
  /-- [-] tick of the last valid tie message (21_pair.md R454) -/
  | xTieMsgAt
  /-- [converter k] tick at which the last calibration ended (20_monitor_adc.md R447) -/
  | xHkCalAt
  /-- [circuit k] temperature a circuit is compensated at, 0.1 C: host SerDes chiplets 0 to 3, timing clock and XTAL 4, AVSBus references 5 (19_power_thermal.md R429) -/
  | xCompTemp
  /-- [rail r] samples below the floor since the first of the episode, at most 200 (19_power_thermal.md R413) -/
  | xRailRun
  /-- [sensor i] tick from which a sensor awaiting readmission has passed every test (19_power_thermal.md R428) -/
  | xSenPassAt
  /-- [ring n] side of the mark: 0 source, 1 destination (16_mover.md R371) -/
  | xRingMarkSide
  /-- [ring n] windows the transfer has written through, as a mask (16_mover.md R371) -/
  | xRingWindowsDst
  /-- [trib] blob: bytes of mapped GFP frames that do not fill a data word yet (11_flows.md R246) -/
  | xGfpBytes
  /-- [trib] last 43 bits that the x⁴³ + 1 scrambler put out, newest lowest (11_flows.md R246) -/
  | xGfpScramble
  /-- [12 side + c] decisions out of window since the last frame start (07_superchannel.md R162) -/
  | xNcLate
  /-- [c] place of the next pilot SNR among the last 8 (08_catch.md R179) -/
  | xSnrAt
  /-- [c] caught rate in kBd (08_catch.md R182) -/
  | xCaughtRate
  /-- [c] 1 = a gate opened or a match occurred in the present survey window (08_catch.md R185) -/
  | xSurveySeen
  /-- [c] tick from which the present survey window runs, for the noise floor (08_catch.md R185) -/
  | xSurveyEnd
  /-- [c] survey window in force, us (08_catch.md R186) -/
  | xSurveyLen
  /-- [8c + i] tick at which the survey window of candidate i last restarted (08_catch.md R175) -/
  | xSurveyTick
  /-- [8c + k] setting 3062.02 + k in force, k = 0 to 5 (08_catch.md R186) -/
  | xCatchSet
  /-- [c] blind-search window in force, symbols (07_superchannel.md R169) -/
  | xCrWindow
  /-- [c] step exponent of the cancellation block under way (07_superchannel.md R169) -/
  | xNcStep
  /-- [4c + j] tick from which the 1 ms count of a channel runs (06_receive_equalisation.md R130) -/
  | xTrimTick
  /-- [c] 1 = a sample of the deskew measurement window was erased (06_receive_equalisation.md R146) -/
  | xDeskewErased
  /-- [2c + 0 acquisition, 2c + 1 tracking] step exponent of the adaptation block under way (06_receive_equalisation.md R145) -/
  | xPolK
  /-- [c] 1 = the target was rewritten while a tracking step faded in (06_receive_equalisation.md R140) -/
  | xTrackVoid
  /-- [bank b] stroke sets a running cross-fade has passed (05_transmit_path.md R119) -/
  | xFadeSets
  /-- [3b + k, bank b] what the computed contents of the active bank were formed from, as for the standby bank (05_transmit_path.md R120) -/
  | xActParam
  /-- [3b + k, bank b] what the computed contents of the standby bank were formed from: k = 0 roll-off or dispersion, 1 frequency, 2 symbol rate in kBd (05_transmit_path.md R120) -/
  | xSbyParam
  /-- [carrier c] stroke sets discarded for which no gap marker is written yet (01_architecture.md R19) -/
  | xRxLost
  /-- [carrier c] discards the core owes after hold sets (01_architecture.md R20) -/
  | xTxOwed
  /-- [carrier c] stroke sets the core has counted (01_architecture.md R19) -/
  | xRxSets
  /-- [carrier c] stroke sets still to arrive that a gain step flags (03_line_converters.md R67) -/
  | xFlagNext
  /-- [carrier c] stroke sets after a long gap marker still to be flagged (06_receive_equalisation.md R126) -/
  | xGapFlag
  /-- [ADC a] gain step decided, -1, 0 or 1 (03_line_converters.md R67) -/
  | xGainStep
  /-- [carrier c] 1 = decided gain steps wait for their stroke set (03_line_converters.md R67) -/
  | xGainDue
  /-- [ADC a] consecutive windows that wanted a step beyond the limit (03_line_converters.md R70) -/
  | xAgcRun
  /-- [carrier c] 1 = the receive loop is relocking after a retune (03_line_converters.md R62) -/
  | xRelock
  /-- [carrier c] symbol rate the receive loop serves, kBd; 0 = none yet (03_line_converters.md R62) -/
  | xRxRate
  /-- [carrier c] symbol rate the transmit loop serves, kBd; 0 = none yet (03_line_converters.md R61) -/
  | xTxRate
  /-- [carrier c] wiring map plus one to be applied at the next stroke boundary; 0 none (03_line_converters.md R74) -/
  | xWiringDue
  /-- [carrier c] transmit wiring map in force (03_line_converters.md R77) -/
  | xTxMap
  /-- [DAC d] output swing in force, mVppd (03_line_converters.md R79) -/
  | xSwing
  /-- [2d + leg] 1 = a short trial of the leg is running (03_line_converters.md R81) -/
  | xTrial
  /-- [ADC a] per-channel receive delay in force (06_receive_equalisation.md R129) -/
  | xRxSkew
  /-- [DAC d] per-channel transmit delay in force (05_transmit_path.md R122) -/
  | xTxSkew
  /-- [carrier c] transmit RMS target in force (05_transmit_path.md R115) -/
  | xRmsTarget
  /-- [carrier c] pilot boost in force (05_transmit_path.md R109) -/
  | xPilotBoost
  /-- [carrier c] clip count at the last aligned millisecond (05_transmit_path.md R116) -/
  | xClipMark
  /-- [68u + slice, u = ADC a or 48 + DAC d] consecutive refusals of a slice (04_converter_calibration.md R96) -/
  | xCalFailRun
  /-- [u] slot of the next background step (04_converter_calibration.md R96) -/
  | xCalSlot
  /-- [u] 1 = an offline measurement is in progress (04_converter_calibration.md R96) -/
  | xCalBusy
  /-- [u] tick at which the present lap began (04_converter_calibration.md R97) -/
  | xCalLapTick
  /-- [c receive loop, 12 + c transmit loop] sensor reading at the last lock, 0.1 C (04_converter_calibration.md R100) -/
  | xCalBand
  /-- [c receive loop, 12 + c transmit loop] 1 = the reading is outside the VCO band span (04_converter_calibration.md R100) -/
  | xCalBandLeft
  /-- [c receive loop, 12 + c transmit loop] 1 = a VCO band was chosen at a lock and is kept (04_converter_calibration.md R100) -/
  | xCalBandOn
  /-- [c receive loop, 12 + c transmit loop] VCO bias correction in force, in 0.1 % of the loop bandwidth (04_converter_calibration.md R100) -/
  | xVcoBias
  /-- [c] trim of the on-die references by the converter-chiplet sensor, in 0.01 % (04_converter_calibration.md R100) -/
  | xRefTrim
  /-- [u] 1 = a first step has marked a lap (04_converter_calibration.md R97) -/
  | xCalLapStarted
  /-- [bank b] blob: contents of the active bank (05_transmit_path.md R117) -/
  | xBankActive
  /-- [bank b] 1 = swap pending, 2 = cross-fade pending, for the next stroke boundary (05_transmit_path.md R118) -/
  | xBankPending
  /-- [bank b] 1 = a computation into the standby bank is running (05_transmit_path.md R120) -/
  | xBankComputing
  /-- [bank b] 1 = a cross-fade is running (05_transmit_path.md R119) -/
  | xBankFading
  /-- [bank b] mode in force: 0 computed, 1 user (05_transmit_path.md R123) -/
  | xBankMode
  /-- [carrier c] consecutive monitor updates with the residual above the threshold (06_receive_equalisation.md R140) -/
  | xTrackRun
  /-- [carrier c] dispersion tracking step under way, ps/nm; 0 none (06_receive_equalisation.md R140) -/
  | xTrackStep
  /-- [12q + c] filtered monitor value with 8 fraction bits (06_receive_equalisation.md R148) -/
  | xMonV
  /-- [12q + c] 1 = the filter holds a value since the entry to Tentative (06_receive_equalisation.md R148) -/
  | xMonSeen
  /-- [carrier c] consecutive frames with the timing error beyond a quarter symbol (06_receive_equalisation.md R132) -/
  | xTimBad
  /-- [carrier c] consecutive frames with the timing error within a twentieth (06_receive_equalisation.md R132) -/
  | xTimGood
  /-- [carrier c] consecutive frames in which both outputs matched one sequence (06_receive_equalisation.md R144) -/
  | xPolSame
  /-- [carrier c] freeze map in force at the adaptation blocks (06_receive_equalisation.md R147) -/
  | xPolFrozen
  /-- [carrier c] blob: live polarisation taps (06_receive_equalisation.md R142) -/
  | xPolTaps
  /-- [12 side + c] blob: live cancellation taps (07_superchannel.md R160) -/
  | xNcTaps
  /-- [12 side + c] consecutive frames with codes 1 to 8 clear (07_superchannel.md R163) -/
  | xNcGuard
  /-- [carrier c] 1 = frame erased: no update at the next frame start (06_receive_equalisation.md R148) -/
  | xTrackWindow
  /-- [carrier c] candidates in force; 0 = single rate (08_catch.md R173) -/
  | xCatchCount
  /-- [carrier c] 1 = a match waits for the next known-symbol group (08_catch.md R177) -/
  | xMatchPending
  /-- [carrier c] rate of the pending match (08_catch.md R177) -/
  | xMatchRate
  /-- [carrier c] candidate index of the pending match (08_catch.md R177) -/
  | xMatchCand
  /-- [carrier c] metric of the pending match (08_catch.md R177) -/
  | xMatchMetric
  /-- [carrier c] kind of the pending match (08_catch.md R177) -/
  | xMatchKind
  /-- [carrier c] frame start of the pending match, symbols (08_catch.md R176) -/
  | xMatchStart
  /-- [carrier c] frame start of the tentative catch, symbols (08_catch.md R179) -/
  | xFrameStart
  /-- [carrier c] pre-emption reference metric (08_catch.md R182) -/
  | xConfirmRef
  /-- [carrier c] 1 = the frame word is searched after a retune (08_catch.md R179) -/
  | xSearch
  /-- [carrier c] abandonments in a row without Locked (08_catch.md R187) -/
  | xAbandonRun
  /-- [carrier c] 1 = source 39 raised since the last Locked (08_catch.md R187) -/
  | xFailRaised
  /-- [carrier c] tick of the last entry to Seeking (08_catch.md R184) -/
  | xSeekTick
  /-- [8c + j] pilot SNR of the j-th last confirmed frame count (08_catch.md R179) -/
  | xSnr
  /-- [8c + j] 1 = that SNR counts (08_catch.md R183) -/
  | xSnrOk
  /-- [carrier c] transmit multiframes since the exit from Idle (09_coding.md R200) -/
  | xTxMf
  /-- [carrier c] consecutive phase-word disagreements (09_coding.md R209) -/
  | xPhaseBad
  /-- [carrier c] 1 = a received phase word has been adopted (09_coding.md R209) -/
  | xPhaseKnown
  /-- [carrier c] 3072.01 at the last aligned second (09_coding.md R210) -/
  | xSecBits
  /-- [carrier c] 3072.02 at the last aligned second (09_coding.md R210) -/
  | xSecCorrected
  /-- [carrier c] 3072.04 at the last aligned second (09_coding.md R211) -/
  | xSecFailed
  /-- [carrier c] 3072.07 at the last aligned second (09_coding.md R211) -/
  | xSecUncorr
  /-- [carrier c] payload in force, 100 Gb/s (09_coding.md R190) -/
  | xPayload
  /-- [carrier c] receive rate in force, kBd (R190) (09_coding.md R190) -/
  | xRxConf
  /-- [carrier c] entropy setting in force (09_coding.md R190) -/
  | xEntropySet
  /-- [carrier c] 1 = a candidate list is in force (08_catch.md R172) -/
  | xCatchBlind
  /-- [8c + j] rate of candidate j in force, 0.25 GBd (08_catch.md R173) -/
  | xCatchList
  /-- [carrier c] 1 = the raise is complete and the carrier waits for its bonding group to leave Idle together (11_flows.md R257) -/
  | xBondExit
  /-- [-] 1 = the iteration cap of throttle stage 1 or of a power cap is imposed (19_power_thermal.md R430) -/
  | xCapThrottle
  /-- [carrier c] raw defect conditions before masking, bits as 3080.02 (10_line_frame.md R229) -/
  | xRaw
  /-- [carrier c] 1 = foreground calibration of the carrier is running (R90 or R94) (04_converter_calibration.md R90) -/
  | xFgCal
  /-- [carrier c] tick at which that calibration began (04_converter_calibration.md R102) -/
  | xFgCalTick
  /-- [-] 1 = the foreground calibration of the present transition to Trim has begun (04_converter_calibration.md R90) -/
  | xTrimReady
  /-- [carrier c] transmit page flip: 1 = the next multiframe announces it, 2 = this multiframe announces it (10_line_frame.md R221) -/
  | xAnnounce
  /-- [carrier c] TPG sent (10_line_frame.md R221) -/
  | xTpgTx
  /-- [carrier c] received TPG taken as reference (10_line_frame.md R222) -/
  | xTpgRef
  /-- [carrier c] 1 = the reference has been adopted since the entry to Locked (10_line_frame.md R222) -/
  | xTpgKnown
  /-- [carrier c] consecutive received multiframes whose majority TPG differed from the reference (10_line_frame.md R222) -/
  | xTpgRun
  /-- [carrier c] 1 = the last received multiframe had a slot disagreement (10_line_frame.md R223) -/
  | xSlotBad
  /-- [tributary t] consecutive multiframes with fill 2 taken (10_line_frame.md R229) -/
  | xCsfRun
  /-- [tributary t] transmit fill code in force (11_flows.md R249) -/
  | xTribFill
  /-- [tributary t] Cm fixed for the next transmit multiframe (11_flows.md R248) -/
  | xTribCm
  /-- [carrier c] 3072.07 at the last received multiframe boundary (10_line_frame.md R229) -/
  | xUncLast
  /-- [carrier c] consecutive aligned seconds above the DEG threshold (10_line_frame.md R229) -/
  | xDegRun
  /-- [carrier c] 1 = the present aligned second has been spent wholly in Locked or Carrying (10_line_frame.md R229) -/
  | xDegWhole
  /-- [carrier c] frame words not confirmed in a row (negative: confirmed in a row) (10_line_frame.md R229) -/
  | xLofRun
  /-- [carrier c] logical frames with an unexpected FNUM in a row (negative: matching) (10_line_frame.md R229) -/
  | xLomRun
  /-- [carrier c] logical frames with BDI = 1 in a row (negative: BDI = 0) (10_line_frame.md R229) -/
  | xBdiRun
  /-- [carrier c] logical frames with STAT = 7 in a row (negative: other) (10_line_frame.md R229) -/
  | xAisRun
  /-- [carrier c] FNUM expected next (10_line_frame.md R229) -/
  | xFnum
  /-- [carrier c] BEI store (10_line_frame.md R226) -/
  | xBeiStore
  /-- [carrier c] 1 = the last full AGC window met the ADC-level LOS condition (10_line_frame.md R229) -/
  | xAdcLos
  /-- [carrier c] 1 = ENG_LOS_N low after debounce (10_line_frame.md R229) -/
  | xEngLos
  /-- [carrier c] blob: trace of the cycle being received (10_line_frame.md R228) -/
  | xTtiCycle
  /-- [carrier c] blob: trace of the last whole cycle (10_line_frame.md R228) -/
  | xTtiLast
  /-- [carrier c] consecutive cycles with the same trace (10_line_frame.md R228) -/
  | xTtiRun
  /-- [carrier c] blob: trace being transmitted (10_line_frame.md R228) -/
  | xTtiSent
  /-- [carrier c] overhead port running (3090.01 at the last logical frame boundary) (10_line_frame.md R225) -/
  | xOhpOn
  /-- [carrier c] blob: GCC bursts waiting to be sent, 10 bytes each (10_line_frame.md R225) -/
  | xOhpOut
  /-- [carrier c] blob: GCC burst sampled for the next transmitted logical frame (10_line_frame.md R225) -/
  | xOhpIn
  /-- [carrier c] arrival of the multiframe whose BSQ 7900.04 shows, ps on the common counter (11_flows.md R258) -/
  | xBondArrival
  /-- [carrier c] consecutive multiframes whose BSQ rose by 1 (11_flows.md R258) -/
  | xBondRun
  /-- [carrier c] 1 = measurement complete (11_flows.md R258) -/
  | xBondMeasured
  /-- [carrier c] hold in ps (11_flows.md R258) -/
  | xBondHoldPs
  /-- [carrier c] 1 = the data of the member is handed over at releases (11_flows.md R260) -/
  | xBondJoined
  /-- [group g] 1 = the alignment wait runs (11_flows.md R258) -/
  | xGroupWait
  /-- [carrier c] bytes the capture has written (16_mover.md R372) -/
  | xCaptureFilled
  /-- [carrier c] point of the capture armed last (16_mover.md R376) -/
  | xCapturePoint
  /-- [carrier c] length in KiB of the capture armed last (16_mover.md R376) -/
  | xCaptureLength
  /-- [carrier c] trigger of the capture armed last (16_mover.md R376) -/
  | xCaptureTrigger
  /-- [-] mode a transition in progress goes to (02_modes.md R40) -/
  | xTarget
  /-- [-] 1 = the mute policy is in force in Haven (02_modes.md R44) -/
  | xMute
  /-- [carrier c] 1 = the timing loop has become unlocked and not locked again (06_receive_equalisation.md R132) -/
  | xTimLost
  /-- [carrier c] 1 = the last known-symbol group was erased (07_superchannel.md R167) -/
  | xGroupErased
  /-- [carrier c] frequency offset of the pending match, kHz (08_catch.md R177) -/
  | xMatchFreq
  /-- [carrier c] wiring senses of the pending match (08_catch.md R177) -/
  | xMatchMap
  /-- [flow f] position in its tile of the first byte of the flow queue (11_flows.md R237) -/
  | xFlowOffset
  /-- [flow f] 1 = a transmit multiframe has begun since the flow was enabled (11_flows.md R248) -/
  | xFlowMf
  /-- [tributary t] 1 = Cm of the present received multiframe lost (10_line_frame.md R219) -/
  | xCmLost
  /-- [flow f] words that arrived during the last multiframe (11_flows.md R248) -/
  | xFlowArrived
  /-- [flow f] second mark of source 64 (11_flows.md R243) -/
  | xFlowSecond
  /-- [-] 1 = the pool holds every priority asserted (11_flows.md R244) -/
  | xPoolPause
  /-- [-] 1 = the free tiles are below the pause level (source 65 raised) (11_flows.md R245) -/
  | xPoolLow
  /-- [8p + i] time in ns since the end of the fuse load at which the host pause of a priority ends (11_flows.md R254) -/
  | xPfcUntil
  /-- [-] classifier operation running (11_flows.md R240) -/
  | xClsOp
  /-- [tributary t] 1 = the tributary has taken the standby page of a pending calendar flip (11_flows.md R251) -/
  | xCalTaken
  /-- [1024t + k] deficit credit of entry k of the span of tributary t (11_flows.md R252) -/
  | xCalCredit
  /-- [tributary t] calendar pointer of a tributary, as an offset in its span (11_flows.md R252) -/
  | xCalPtr
  /-- [tributary t] receive tributary row in force (11_flows.md R253) -/
  | xTribRow
  /-- [tributary t] 1 = a written receive row waits for its boundary (11_flows.md R253) -/
  | xTribRowDue
  /-- [port p] tributary plus one that the port served last (11_flows.md R254) -/
  | xEgressPtr
  /-- [tributary t] Cm in force on transmit (11_flows.md R248) -/
  | xTribCmNow
  /-- [tributary t] transmit fill code in force (11_flows.md R249) -/
  | xTribFillNow
  /-- [tributary t] 1 = fill code 3 taken (12_cipher.md R283) -/
  | xTribFail3
  /-- [carrier c] FNUM of the next transmitted logical frame (10_line_frame.md R215) -/
  | xTxFnum
  /-- [carrier c] BSQ of the multiframe being transmitted (10_line_frame.md R215) -/
  | xTxBsq
  /-- [carrier c] phase word tracked for the next multiframe start (09_coding.md R209) -/
  | xPhaseWord
  /-- [2s + r] key register r of slot s: 0 empty, 1 active, 2 next, 3 exhausted (12_cipher.md R278) -/
  | xSlotReg
  /-- [2s + r] blob: 32 key bytes then 4 salt bytes (12_cipher.md R277) -/
  | xSlotKey
  /-- [2s + r] key identifier (12_cipher.md R277) -/
  | xSlotKid
  /-- [2s + r] invocation counter, the next value (12_cipher.md R272) -/
  | xSlotCount
  /-- [2s + r] 1 = past half range (12_cipher.md R273) -/
  | xSlotWarned
  /-- [slot s] active register (12_cipher.md R278) -/
  | xSlotActive
  /-- [slot s] 1 = a transmit switch is not yet complete (12_cipher.md R278) -/
  | xSlotTxPend
  /-- [slot s] 1 = a receive switch is not yet complete (12_cipher.md R278) -/
  | xSlotRxPend
  /-- [slot s] 1 = the switch waits only for the last old block to leave its core (12_cipher.md R278) -/
  | xSlotDone
  /-- [slot s] 1 = unsynchronised (21_pair.md R458) -/
  | xSlotUnsync
  /-- [kek n] blob: the fused key (12_cipher.md R275) -/
  | xKekFuse
  /-- [tributary t] 1 = shed on transmit (12_cipher.md R288) -/
  | xShedTx
  /-- [tributary t] 1 = shed on receive (12_cipher.md R288) -/
  | xShedRx
  /-- [tributary t] second mark of source 80 (12_cipher.md R284) -/
  | xCryptBadSecond
  /-- [tributary t] second mark of source 89 (12_cipher.md R284) -/
  | xCryptHdrSecond
  /-- [2s + r] L of the latest lease sent (active) or held (standby); 0 none (12_cipher.md R274) -/
  | xLease
  /-- [2s + r] L of the latest lease acknowledged; 0 none (12_cipher.md R274) -/
  | xLeaseAck
  /-- [2s + r] L of a lease the standby takes up at its next block boundary; 0 none (21_pair.md R459) -/
  | xLeaseNew
  /-- [2s + r] 1 = the standby has run out of its lease (source 148 raised) (21_pair.md R459) -/
  | xLeaseOut
  /-- [lane h] 1 = the lane left the deep low-power state and has not locked since (13_host_lanes.md R306) -/
  | xLaneLow
  /-- [lane h] bring-up step under way, 1 to 5; 0 none (13_host_lanes.md R296) -/
  | xLaneStep
  /-- [lane h] 1 = the lane relocks from its stored taps (13_host_lanes.md R303) -/
  | xLaneRelock
  /-- [REFH k] 1 = the REFH input is lost (13_host_lanes.md R304) -/
  | xRefh
  /-- [port p] 1 = the port has aligned and holds (13_host_lanes.md R307) -/
  | xPortAligned
  /-- [tributary t] second mark of source 96 (14_integrity_memory.md R324) -/
  | xPortSecond96
  /-- [domain m] ns since the end of the fuse load at which the present lap began, plus one (14_integrity_memory.md R329) -/
  | xLapMark
  /-- [domain m] duration of the last full lap in ns; 0 = none since reset (14_integrity_memory.md R330) -/
  | xLapDone
  /-- [domain m] line the scrubber reads next (14_integrity_memory.md R329) -/
  | xScrubAt
  /-- [time base t] step in ns that applies at the next tick (18_time.md R402) -/
  | xStepPending
  /-- [time base t] 1 = a step applies at the next tick (18_time.md R402) -/
  | xStepDue
  /-- [PPS_OUT j] 1 = PPS_OUT[j] is high (18_time.md R405) -/
  | xPpsHigh
  /-- [PPS_OUT j] tick at which the pulse ends (18_time.md R405) -/
  | xPpsUntil
  /-- [-] 1 = TREF in tolerance (18_time.md R399) -/
  | xTrefIn
  /-- [input i] edges in the present window (17_events_counters.md R390) -/
  | xInWindow
  /-- [-] cause of the snapshot being gathered (17_events_counters.md R395) -/
  | xSnapPending
  /-- [-] number of the last snapshot taken (17_events_counters.md R395) -/
  | xSnapNumber
  /-- [-] time of the snapshot being gathered (17_events_counters.md R395) -/
  | xSnapPendTime
  /-- [bank 0 and 1] cause of the snapshot the bank holds (17_events_counters.md R395) -/
  | xBankCause
  /-- [bank 0 and 1] time of the snapshot the bank holds (17_events_counters.md R395) -/
  | xBankTime
  /-- [bank 0 and 1] number of the snapshot the bank holds (17_events_counters.md R395) -/
  | xBankNumber
  /-- [-] level of SWITCH_OUT (21_pair.md R460) -/
  | xSwitchOut
  /-- [-] commit order number of the last key record (21_pair.md R455) -/
  | xTieSlot
  /-- [-] role the partner names: 0 none, 1 active, 2 standby (21_pair.md R456) -/
  | xPartnerRole
  /-- [-] Pair state the partner names (21_pair.md R456) -/
  | xPartnerState
  /-- [-] PAIR_ROLE of the partner (21_pair.md R456) -/
  | xPartnerStrap
  /-- [kek n] check value plus one of a key programmed on the partner; 0 none (21_pair.md R456) -/
  | xPartnerKcv
  /-- [-] mask of the carriers Carrying on the partner (21_pair.md R460) -/
  | xPartnerCarrying
  /-- [carrier c] BSQ plus one of the last delivery message (21_pair.md R463) -/
  | xDelivery
  /-- [carrier c] 1 = the module delivers the carrier to the host (21_pair.md R463) -/
  | xDeliver
  /-- [carrier c] BSQ from which delivery begins (21_pair.md R463) -/
  | xDeliverFrom
  /-- [port p] 1 = the port is in local fault since it was last up (13_host_lanes.md R308) -/
  | xPortFault
  /-- [-] tick of the last role change plus one (21_pair.md R467) -/
  | xSwitchTick
  /-- [guard g] setpoint in force before the present fast raise, 0.1 mV (01_architecture.md R26) -/
  | xGuardBase
  /-- [guard g] consecutive loop periods without backlog (01_architecture.md R26) -/
  | xZeroRun
  /-- [guard g] loop periods since the setpoint changed (01_architecture.md R26) -/
  | xSinceChange
  /-- [guard g] consecutive loop periods at 920 mV with a backlog (01_architecture.md R29) -/
  | xTopRun
  /-- [guard g] setpoint last acknowledged on AVSBus, 0.1 mV (19_power_thermal.md R414) -/
  | xGuardSent
  /-- [guard g] AVSBus transactions unacknowledged in a row (19_power_thermal.md R414) -/
  | xAvsFail
  /-- [guard g] 1 = the setpoint is written again in the next period (19_power_thermal.md R414) -/
  | xAvsRetry
  /-- [guard g] setpoint limit of R419, 0.1 mV (19_power_thermal.md R420) -/
  | xLimit
  /-- [guard g] blob: power readings of the last millisecond, microwatts, 4 bytes each (19_power_thermal.md R416) -/
  | xPowerRing
  /-- [guard g] consecutive loop periods with the power above the cap (19_power_thermal.md R421) -/
  | xOverRun
  /-- [-] number of the loop period (19_power_thermal.md R414) -/
  | xPeriod
  /-- [crew k] fill of the receive hand-off buffer (01_architecture.md R25) -/
  | xHandRx
  /-- [crew k] fill of the transmit hand-off buffer (01_architecture.md R25) -/
  | xHandTx
  /-- [-] 1 = HBM PHY training complete (02_modes.md R56) -/
  | xHbmTrained
  /-- [-] 1 = SYSRST_N fell during the fuse load: a warm reset follows its rise (22_package.md R478) -/
  | xWarmDue
  /-- [sensor i] consecutive samples with one raw code (19_power_thermal.md R426) -/
  | xSenSame
  /-- [sensor i] raw code of that run, 1/16 C (19_power_thermal.md R426) -/
  | xSenSameVal
  /-- [sensor i] consecutive samples that disagree with the neighbours (19_power_thermal.md R426) -/
  | xSenDis
  /-- [sensor i] raw code at the first of those samples, 1/16 C (19_power_thermal.md R426) -/
  | xSenDisVal
  /-- [sensor i] value at the last sample, or at the first sample of the run that failed, 1/16 C (19_power_thermal.md R426) -/
  | xSenLast
  /-- [sensor i] value or substitute, 1/16 C (19_power_thermal.md R427) -/
  | xSenReal
  /-- [sensor i] blob: the last 16 values, 1/16 C, 2 bytes each (19_power_thermal.md R433) -/
  | xSenHist
  /-- [-] 1 = orderly shutdown in progress (19_power_thermal.md R433) -/
  | xShutdown
  /-- [-] sensor of that shutdown (19_power_thermal.md R433) -/
  | xShutSensor
  /-- [-] T at its start, 0.1 C (19_power_thermal.md R433) -/
  | xShutTemp
  /-- [-] 1 = orderly, 2 = hard stop made since T was last below 112 C (19_power_thermal.md R433) -/
  | xShutDone
  /-- [-] evaluations with T at or above the point in this stage, or since the last shed (19_power_thermal.md R430) -/
  | xThrTime
  /-- [-] evaluations below the release temperature in a row (19_power_thermal.md R431) -/
  | xThrRel
  /-- [-] blob: carriers shed, oldest first (19_power_thermal.md R431) -/
  | xShedOrder
  /-- [-] 1 = a warm reset follows the reply being formed (02_modes.md R50) -/
  | xResetDue
  /-- [68u + slice] 1 = the record takes its reset value at the next commit of the converter (14_integrity_memory.md R327) -/
  | xCalLost
  /-- [-] 1 = the partner names itself ready (21_pair.md R460) -/
  | xPartnerReady
  /-- [-] samples of the external inputs taken so far (17_events_counters.md R388) -/
  | xInSamples
  /-- [input i] sample at which the change being debounced began, plus one; 0 none (17_events_counters.md R388) -/
  | xInRun
  /-- [input i] sample of the last edge (17_events_counters.md R389) -/
  | xInLastEdge
  /-- [input i] rate limit in force in the present window, edges per second (17_events_counters.md R390) -/
  | xInLimit
  /-- [4 j + t] time base t in ns at the raw edge of PPS_IN[j] that began the change being debounced (18_time.md R404) -/
  | xPpsEdge
  /-- [time base t] tick at which the last step applied (18_time.md R402) -/
  | xStepTick
  /-- [time base t] the last step applied, in 2⁻³² ns (18_time.md R402) -/
  | xStepBy
  /-- [carrier c] 3072.02 at the last aligned millisecond (16_mover.md R375) -/
  | xTelCorrected
  /-- [carrier c] 3072.04 at the last aligned millisecond (16_mover.md R375) -/
  | xTelFailed
  /-- [-] the running ring, plus one; 0 none (16_mover.md R368) -/
  | xRingRun
  /-- [ring n] 1 = its transfer is pre-empted (16_mover.md R368) -/
  | xRingPre
  /-- [ring n] 1 = halted on a fault (16_mover.md R370) -/
  | xRingHalted
  /-- [ring n] fault code its transfer is marked with; 0 none (16_mover.md R371) -/
  | xRingMark
  /-- [ring n] 1 = marked while pre-empted (16_mover.md R371) -/
  | xRingMarkPre
  /-- [ring n] detail of the mark (16_mover.md R371) -/
  | xRingMarkDetail
  /-- [ring n] time of the mark in ns (16_mover.md R371) -/
  | xRingMarkTime
  /-- [ring n] windows its transfer has moved a granule through, as a mask (16_mover.md R371) -/
  | xRingWindows
  /-- [ring n] captures its transfer has read, as a mask (16_mover.md R374) -/
  | xRingCaptures
  /-- [ring n] blob: bytes of a bank write collected aside (16_mover.md R365) -/
  | xRingAside
  /-- [priority P] the ring last started at that priority, plus one (16_mover.md R368) -/
  | xRingLast
  /-- [ring n] the bank its transfer writes whole, plus one; 0 none (16_mover.md R365) -/
  | xRingBank
deriving DecidableEq, Repr

/-- How a value crosses the wire (R337). -/
inductive Wire where
  | bool | u8 | u16 | u32 | u64 | i8 | i16 | i32 | i64 | domain
deriving DecidableEq, Repr

/-- Access codes (R338). -/
inductive Access where
  | ro | rw | wo | rwd | w1c | const
deriving DecidableEq, Repr

/-- The values an object itself accepts, beside those its wire type can carry. -/
inductive Range where
  | any
  /-- lo to hi -/
  | span (lo hi : Int)
  /-- lo to hi in steps of d from lo -/
  | step (lo hi d : Int)
  /-- the value x, or lo to hi -/
  | spanOr (x lo hi : Int)
  /-- the value x, or lo to hi in steps of d from lo -/
  | stepOr (x lo hi d : Int)
  /-- one of a list -/
  | oneOf (vs : List Int)
deriving DecidableEq, Repr

/-- The default severity of event source e: the event tables of the chapters (R379). -/
def defaultSeverity (e : Nat) : Int :=
  if e < 480 then
    ([3, 3, 2, 2, 1, 2, 1, 1, 2, 1, 1, 0, 2, 0, 2, 2, 1, 2, 2, 1, 0, 0, 1, 1, 1, 2, 1,
      1, 1, 1, 1, 1, 1, 1, 1, 2, 1, 2, 0, 1] : List Int).getD (e % 40) 0
  else if e < 672 then ([2, 1] : List Int).getD (e % 2) 0
  else if e < 1056 then ([2, 2, 2, 1] : List Int).getD (e % 4) 0
  else if e < 1152 then ([3, 1] : List Int).getD (e % 2) 0
  else
    ([1, 0, 2, 0, 0, 0, 0, 0, 0, 0, 0, 0, 0, 0, 0, 0, 1, 1, 1, 1, 1, 1, 1, 1, 1, 1, 1, 1, 0, 0,
     0, 0, 1, 0, 1, 2, 0, 0, 0, 0, 1, 2, 2, 2, 2, 3, 0, 0, 0, 0, 0, 0, 0, 0, 0, 0, 0, 0, 0, 0,
     0, 0, 0, 0, 1, 2, 2, 0, 2, 0, 0, 0, 0, 0, 0, 0, 0, 0, 0, 0, 2, 0, 1, 2, 2, 3, 1, 3, 1, 1,
     0, 0, 0, 0, 0, 0, 2, 1, 2, 2, 1, 2, 0, 0, 0, 0, 0, 0, 0, 0, 0, 0, 1, 1, 1, 0, 0, 0, 0, 0,
     2, 0, 0, 0, 0, 0, 0, 0, 1, 2, 2, 1, 1, 0, 0, 0, 0, 0, 0, 0, 0, 0, 0, 0, 3, 2, 1, 1, 2, 2] : List Int).getD (e - 1152) 0

/-- Default set levels of the monitored quantities (R150), by quantity number. -/
def monitorSet (q : Nat) : Int := ([25, 200, 30, 5000, 120, 50000, 50] : List Int).getD q 0

/-- Default clear levels of the monitored quantities (R150). -/
def monitorClear (q : Nat) : Int := ([15, 150, 20, 4000, 130, 40000, 30] : List Int).getD q 0

/-- Reset value of a flow entry (R241, table Flow entry). -/
def flowEntryReset : Int := 0xFFF * 2 ^ 38 + 2048 * 2 ^ 20 + 1024 * 2 ^ 2

/-- Spare rows of memory domain m at reset (R331). -/
def sparesAtReset (m : Nat) : Int := if 6 ≤ m ∧ m ≤ 9 then 32768 else (Config.sramSpares m : Int)

/-- Brownout floor of rail r at reset (R412), in the units of 2100.02. -/
def railFloorDefault (r : Nat) : Int := if r < 5 then 465 else if r < 10 then ([1080, 810, 810, 1080, 1620] : List Int).getD (r - 5) 0
  else (Config.hbmNominal (r - 10) : Int) * 9 / 10

/-- Nominal voltage of rail r (R412). -/
def railNominalDefault (r : Nat) : Int := if r < 5 then 620 else if r < 10 then ([1200, 900, 900, 1200, 1800] : List Int).getD (r - 5) 0
  else (Config.hbmNominal (r - 10) : Int)

/-- The value a register holds at reset (R339, R50): the spec's default; 0 where the spec states none (assumption 2). -/
def Reg.dflt (r : Reg) (i : Nat) : Int :=
  match r with
  | .identityVendor => 0x5A4C5700
  | .identityPart => 0x00009612
  | .identityStepping => 0x21
  | .identityGrade => (Config.grade.val : Int)
  | .identitySerial => (Config.serial.toNat : Int)
  | .carrierSlackRxTarget => 512
  | .carrierSlackTxTarget => 512
  | .carrierSlackTxLow => 1024
  | .guardSetpoint => 6200
  | .guardPeriod => 5
  | .deviceHavenFirstCause => 0xFF
  | .bootSlot => 0xFF
  | .reflOffset => (-2147483648)
  | .adcAgcMode => 1
  | .adcAgcTarget => 16
  | .adcAgcHysteresis => 3
  | .dacEnable => 1
  | .dacSwing => 500
  | .dacShortRetryEnable => 1
  | .dacShortRetryInterval => 100
  | .carrierWiringMode => 1
  | .calBgEnable => 1
  | .calBgAdcInterval => 2000
  | .calBgDacInterval => 8000
  | .convCalResting => if i < 48 then 64 else 16
  | .convCalSuspect => 0xFF
  | .convCalLastSlice => 0xFF
  | .carrierTxRmsTarget => 42
  | .carrierTxClipThreshold => 1000
  | .carrierTxShapeRolloff => 5
  | .carrierTxCdFrequency => 193100
  | .carrierRxSkewAuto => 1
  | .carrierRxFeEnable => 1
  | .carrierRxFeDcShift => 12
  | .carrierRxFeIqShift => 14
  | .carrierRxTimingBandwidth => 1000
  | .carrierCdFrequency => 193100
  | .carrierCdTrackEnable => 1
  | .carrierCdTrackThreshold => 10
  | .carrierCdReach => 80000
  | .carrierCdReachStored => 80000
  | .carrierRxPolKAcq => 8
  | .carrierRxPolKTrk => 10
  | .carrierRxPolCentring => 1
  | .carrierMonShift => 3
  | .carrierMonSet => monitorSet (i / 12)
  | .carrierMonClear => monitorClear (i / 12)
  | .carrierNcLower => 0xFF
  | .carrierNcUpper => 0xFF
  | .carrierNcSpacing => 1020
  | .carrierNcStep => 12
  | .carrierNcQualityFloor => 100
  | .carrierNcGuard => 8
  | .carrierNcLowerInForce => 0xFF
  | .carrierNcUpperInForce => 0xFF
  | .carrierNcSpacingInForce => 1020
  | .carrierNcSideState => 1
  | .carrierNcSideLeakage => (-999)
  | .carrierCrBandwidth => 100
  | .carrierCrWindow => 64
  | .catchRate => 960
  | .carrierCatchCandidate => 0xFF
  | .carrierCatchWindow => 1950
  | .carrierCatchGateFloor => 60
  | .carrierCatchFreqRange => 6000
  | .carrierCatchDetect => 120
  | .carrierCatchConfirm => 90
  | .carrierCatchSnrFloor => 50
  | .carrierCatchPreemptMargin => 30
  | .carrierCatchFailLimit => 16
  | .carrierFecModulation => 2
  | .carrierFecPayload => 16
  | .carrierFecTxRate => 960
  | .carrierFecRxRate => 960
  | .carrierFecIterationCap => 12
  | .carrierFecModulationInForce => 2
  | .carrierFecCapInForce => 12
  | .tsiRxFollow => 1
  | .defectSetTime => ([0, 3, 3, 1, 0, 0, 0, 0, 0, 0] : List Int).getD (i % 10) 0
  | .defectClearTime => ([100, 3, 3, 10, 0, 1000, 0, 0, 0, 100] : List Int).getD (i % 10) 0
  | .carrierDefectLosSources => 3
  | .carrierDefectLosFloor => 2
  | .carrierDefectDegSeconds => 3
  | .carrierDefectTimAction => 1
  | .carrierOhBdiAuto => 1
  | .clsFound => 0xFFFF
  | .portClsDefaultFlow => 0xFFFF
  | .portClsTpidSet => 0x03
  | .flowEntry => flowEntryReset
  | .poolFree => 67108864
  | .poolLow => 67108864
  | .poolPauseLevel => 2097152
  | .groupHeadroom => 20
  | .groupAlignWait => 50
  | .carrierBondGroup => 0xFF
  | .cipherCoresInService => 52
  | .cipherCapacity => 41600
  | .laneRxPolMode => 1
  | .laneLosAssert => 40
  | .laneLosClear => 60
  | .laneCtleFixed => 8
  | .laneDfeThreshold => 512
  | .laneTxSwing => 750
  | .laneTxPre1 => (-8)
  | .laneTxMain => 120
  | .octetOrderMode => 2
  | .portUpHold => 10
  | .portMaxFrame => 9216
  | .portEgressGap => 12
  | .scrubEnable => 1
  | .memSparesLeft => sparesAtReset i
  | .bdapStagingTimeout => 10000
  | .mgtPlcaEnable => 1
  | .mgtPlcaNodeId => 1
  | .mgtPlcaNodeCount => 8
  | .mgtPlcaToTimer => 32
  | .captureLength => 1024
  | .captureTrigger => 0xFFFF
  | .eventEnable => 1
  | .eventSeverity => defaultSeverity i
  | .alertEnable0 => 1
  | .alertEnable1 => 1
  | .inputDebounce => if i < 32 then 100 else 0
  | .inputActiveHigh => if i < 24 then 0 else 1
  | .inputStuckLimit => 10000
  | .inputRateLimit => 1000
  | .countersPermit => 0x1F
  | .snapEverySecond => 1
  | .snapEveryQuarter => 1
  | .filterCarriers => 0x0FFF
  | .filterGroups => 0x1F
  | .filterDirections => 0x07
  | .tbaseIncrement => 17179869184
  | .tbaseStepThreshold => 1000
  | .tbasePpsInput => i
  | .ppsOutSource => i
  | .ppsOutWidth => 100000
  | .tclkSource => 2
  | .tclkTrefOffset => (-2147483648)
  | .railFloor => railFloorDefault i
  | .railLowest => 0xFFFF
  | .railNominal => railNominalDefault i
  | .guardCeiling => 9200
  | .guardMinSafe => 6200
  | .throttlePoint => 100
  | .throttleHysteresis => 3
  | .throttleIterationCap => 6
  | .throttleEscalate => 20
  | .throttleRelease => 100
  | .throttleAutoRestore => 1
  | .throttleShedRank => 128
  | .hkSeqTrigger => 2
  | .hkSeqEvent => 0xFFFF
  | .hkInjEvent => 0xFFFF
  | .hkCalInterval => 60
  | .hkPlausEnable => 1
  | .hkPlausWindow => 10
  | .hkPlausLimit => 20000
  | .hkOpenThreshold => 600
  | .hkSettleTime => 2
  | .monHigh => 4294967295
  | .pairWatchInput => 0xFF
  | .pairHoldOff => 10
  | .pairPartnerAddr => 0xFF
  | .pairPartnerMode => 0xFF
  | .xSwing => 500
  | .xRmsTarget => 42
  | .xMatchCand => 0xFF
  | .xPayload => 16
  | .xRxConf => 240000000
  | .xTribFill => 1
  | .xCaptureLength => 1024
  | .xCaptureTrigger => 0xFFFF
  | .xTribFillNow => 1
  | .xGuardBase => 6200
  | .xGuardSent => 6200
  | .xLimit => 9200
  | .xHandRx => 8
  | .xHandTx => 8
  | .xInLimit => 1000
  | .xSbyParam => if i % 3 = 2 then 240000000 else if i % 3 = 1 then 193100 else if i < 36 then 5 else 0
  | .xActParam => if i % 3 = 2 then 240000000 else if i % 3 = 1 then 193100 else if i < 36 then 5 else 0
  | .xPolK => if i % 2 = 0 then 8 else 10
  | .xNcStep => 12
  | .xCrWindow => 64
  | .xCatchSet => if i % 8 = 0 then 60 else if i % 8 = 1 then 6000 else if i % 8 = 2 then 120 else if i % 8 = 3 then 90 else if i % 8 = 4 then 50 else 30
  | .xSurveyLen => 1950
  | .xSurveyWin => 1950
  | _ => 0

/-- The wire type of an object (R337); the x registers have none. -/
def Reg.wire (r : Reg) : Wire :=
  match r with
  | .identityStepping | .identityGrade | .guardState | .deviceModeRequest | .deviceModeState |
  .deviceModeRefusal | .deviceHavenTxPolicy | .deviceHavenKeyPolicy | .deviceHavenFirstCause | .carrierRequest |
  .carrierState | .carrierLastDrop | .bootStatus | .bootSlot | .bootResetCause | .bootHostLoad | .reflState |
  .adcState | .adcAgcMode | .adcAgcGain | .adcAgcManualGain | .adcAgcTarget | .adcAgcHysteresis | .adcOpenResult
  | .dacState | .dacShortState | .carrierConvSynthState | .carrierConvShortPolicy | .carrierWiringMode |
  .carrierWiringFixedMap | .carrierWiringAppliedMap | .carrierWiringTxMap | .carrierOpenTestRequest |
  .convCalState | .convCalResting | .convCalSuspect | .convCalLastLimit | .convCalLastSlice | .bankCommit |
  .bankActiveBank | .carrierTxPilotBoost | .carrierTxRmsTarget | .carrierTxShapeMode | .carrierTxShapeRolloff |
  .carrierTxCdMode | .carrierRxFeDcShift | .carrierRxFeIqShift | .carrierRxTimingState | .carrierCdMode |
  .carrierRxPolState | .carrierRxPolInit | .carrierRxPolKAcq | .carrierRxPolKTrk | .carrierMonShift |
  .carrierNcLower | .carrierNcUpper | .carrierNcStep | .carrierNcGuard | .carrierNcInForce |
  .carrierNcLowerInForce | .carrierNcUpperInForce | .carrierNcSideState | .carrierCrState | .carrierCrWindow |
  .carrierCatchCount | .carrierCatchState | .carrierCatchCandidate | .carrierCatchGates |
  .carrierCatchConfirmations | .carrierCatchMatchKind | .carrierCatchFrames | .carrierCatchFailLimit |
  .carrierCatchQualityMode | .carrierFecProfile | .carrierFecModulation | .carrierFecPayload |
  .carrierFecIterationCap | .carrierFecProfileInForce | .carrierFecModulationInForce | .carrierFecCapInForce |
  .tsiRefusal | .tribRxFill | .carrierDefectLosSources | .carrierDefectLosFloor | .carrierDefectDegSeconds |
  .carrierDefectTimMode | .carrierOhStatSent | .clsOp | .clsResult | .portClsMode | .portClsTpidSet |
  .portPfcHeldMask | .portPfcAssertedMask | .calFlip | .calRefusal | .groupPolicy | .groupRealign | .groupState
  | .carrierBondGroup | .carrierBondState | .cipherCoresInService | .kekState | .kekOp | .kekRefusal |
  .slotErase | .slotRefusal | .cryptRxOverheadGen | .cryptTxGen | .lanePower | .laneState | .laneRxPolMode |
  .laneCtleMode | .laneCtleFixed | .laneCtleApplied | .lanePairFault | .lanePairTest | .octetOrderMode |
  .octetOrderFound | .octetTxOrder | .portRate | .portEgressGap | .portState | .portFaultCause | .portSending |
  .lanePrbsGen | .lanePrbsCheck | .lanePrbsState | .lanePrbsInject | .lanePrbsInjectRate | .laneLoopback |
  .trackerUsed | .bdapUnregisteredClass | .bdapSubscribers | .mgtPlcaNodeId | .mgtPlcaNodeCount |
  .mgtPlcaToTimer | .mgtStatus | .ringPriority | .ringControl | .ringState | .windowSelect | .captureControl |
  .capturePoint | .captureState | .eventSeverity | .ringClearLatched | .alertState | .inputState |
  .countersPermit | .snapCause | .snapClearWraps | .filterBank | .filterGroups | .filterDirections |
  .tbasePpsInput | .ppsOutSource | .portPtpTbase | .tsqFill | .tclkMode | .tclkSource | .railState |
  .guardConflict | .thermalHottestSensor | .thermalLastStop | .sensorState | .sensorRate | .sensorReadmit |
  .throttleStage | .throttlePoint | .throttleHysteresis | .throttleIterationCap | .throttleShedRank | .hkState |
  .hkSeqTrigger | .hkSeqStart | .hkInjTrigger | .hkInjStart | .hkCalRequest | .hkCalState | .hkCalLastLimit |
  .hkSettleTime | .monAverage | .monShift | .monLimitState | .pairRole | .pairState | .pairSwitch |
  .pairTieLossPolicy | .pairWatchInput | .pairHealthMargin | .pairLastCause | .pairHostMute | .pairPartnerAddr |
  .pairPartnerMode | .pairPartnerHealth | .pairDigestMatch | .pairRefusal | .tieState | .tieLanesLocked |
  .errorRegister | .registrationSelect | .carrierRxFreeze | .carrierRxHolding => .u8
  | .identitySerial | .carrierSlackRxDiscarded | .carrierSlackTxHoldSets | .adcClipCount |
  .carrierConvErasedSets | .carrierTxClips | .carrierNcSideOutOfWindow | .carrierFecBits | .carrierFecCorrected
  | .carrierFecCodewords | .carrierFecCwFailed | .carrierFecLadderRowsCorrected | .carrierFecLadderBitsCorrected
  | .carrierFecUncorrectable | .carrierFecIterations | .carrierFecDmMismatch | .carrierOhBipErrors |
  .carrierOhBeiReceived | .portClsUnclassified | .portClsDisabledFlow | .portClsErrored | .portPfcSent |
  .portPfcReceived | .portRxUnmatched | .flowEntry | .flowDepthDrops | .flowPoolDrops | .flowOverruns |
  .flowFlushed | .poolDrops | .calSlips | .tribEgressDropped | .tribEgressHecCorrected | .cipherRetired |
  .slotCounter | .slotLease | .cryptTxBlocks | .cryptTxRefused | .cryptRxBlocks | .cryptRxTagFailures |
  .cryptRxKeyMismatch | .cryptRxModeMismatch | .cryptRxHeaderErrors | .cryptRxRefused | .portFecCorrected |
  .portFecUncorrected | .portFecSymbols | .portRmInserted | .portRmDeleted | .portRmSlips | .lanePrbsUser |
  .lanePrbsBits | .lanePrbsErrors | .lanePrbsInjected | .custodyFail | .custodyFramesDiscarded |
  .custodyFramesErrored | .custodyTilesComplemented | .custodyBlocksReplaced | .memCorrected | .memUncorrectable
  | .bdapStation | .bdapForerunnerStation | .moverGranules | .captureStart | .eventLastTime | .snapTime |
  .flowcountFrames | .flowcountBytes | .tbaseIncrement | .thermalFailed | .tieSent | .tieReceived |
  .tieCrcErrors | .registrationRow | .carrierRxErasedSymbols => .u64
  | .forerunnerEnable | .forerunnerActive | .carrierSlackHeld | .deviceModeBusy | .adcAgcAtLimit | .dacEnable |
  .dacShortRetryEnable | .carrierOpenTestBusy | .calBgEnable | .bankBusy | .carrierRxSkewAuto |
  .carrierRxFeEnable | .carrierCdTrackEnable | .carrierRxPolCentring | .carrierMonState | .carrierNcEnable |
  .carrierNcPark | .carrierCatchLevelValid | .tsiRxFollow | .tribRxCsf | .carrierDefectTimAction |
  .carrierTtiValid | .carrierOhForceBdi | .carrierOhForceAis | .carrierOhBdiAuto | .carrierOhpEnable | .clsBusy
  | .flowAsserting | .calPending | .carrierBondTxInSequence | .cipherKeyprov | .cipherZero | .laneRxPolFixed |
  .laneRxPolApplied | .laneTxInvert | .laneLosRaw | .laneLock | .laneDfeFreeze | .portEnable | .portRfReceived |
  .scrubEnable | .mgtPlcaEnable | .mgtPolarityInverted | .telemetryEnable | .ringEnable | .eventEnable |
  .eventLatched | .alertEnable0 | .alertEnable1 | .inputActiveHigh | .snapEverySecond | .snapEveryQuarter |
  .snapBusy | .tbaseForce | .tbaseRefusedFlag | .portPtpEnable | .portPtpRxWrite | .tsqOverflow |
  .throttleAutoRestore | .hkPlausEnable | .monOpen | .pairReady => .bool
  | .carrierSlackRxFill | .carrierSlackTxFill | .carrierSlackRxTarget | .carrierSlackTxTarget |
  .carrierSlackRxPeak | .carrierSlackTxLow | .guardSetpoint | .guardBacklog | .guardPeriod | .deviceHavenCauses
  | .deviceReset | .bootStraps | .adcRms | .adcOpenShiftP | .adcOpenShiftN | .dacSwing | .dacShortRetryInterval
  | .calFgRequest | .calFgBusy | .calBgAdcInterval | .calBgDacInterval | .carrierRxTimingBandwidth |
  .carrierCdTrackThreshold | .carrierNcSpacing | .carrierNcQualityFloor | .carrierNcSpacingInForce |
  .carrierCrBandwidth | .catchRate | .catchCaughtRate | .carrierCatchWindow | .carrierCatchGateFloor |
  .carrierCatchFreqRange | .carrierCatchDetect | .carrierCatchConfirm | .carrierCatchPreemptMargin |
  .carrierFecEntropy | .carrierFecTxRate | .carrierFecRxRate | .carrierFecTxEntropy | .carrierFecRxEntropy |
  .carrierFecTxKdm | .carrierFecRxKdm | .carrierFecTxLineEntropy | .tsiRowSelect | .tsiFlip | .tsiPending |
  .tribRxSelect | .carrierDefectDeclared | .carrierDefectRaw | .carrierDefectSticky | .defectSetTime |
  .defectClearTime | .clsFlow | .clsEntries | .clsFound | .portClsDefaultFlow | .flowSelect | .calSelect |
  .spanSelect | .tribEgressSelect | .tribEgressRow | .groupMembers | .groupHeadroom | .groupAlignWait |
  .cipherShed | .slotSelect | .slotStatus | .slotKidActive | .slotKidNext | .bindSelect | .cryptSelect |
  .laneLosAssert | .laneLosClear | .laneDfeThreshold | .laneTxSwing | .lanePairCmP | .lanePairCmN |
  .lanePairTestReading | .portUpHold | .portMaxFrame | .portRmFill | .repairPending | .bdapStagingTimeout |
  .ringQueued | .captureTrigger | .inputDebounce | .inputRateLimit | .filterCarriers | .filterFlowFirst |
  .filterFlowCount | .flowcountSelect | .railVoltage | .railFloor | .railLowest | .railNominal | .guardCeiling |
  .guardPowerCap | .guardPower | .guardMinSafe | .throttleEscalate | .throttleRelease | .throttleShed |
  .hkSeqEvent | .hkInjEntry | .hkInjEvent | .hkCalInterval | .hkPlausWindow | .hkOpenThreshold | .pairHoldOff => .u16
  | .bootHostImage | .convCalRecords | .convCalSlotMap | .convCalVgaTable | .bankStandby | .carrierRxPolTaps |
  .carrierNcSideTaps | .carrierCatchListInForce | .carrierFecTxComposition | .tsiStandbyPage | .tsiActivePage |
  .carrierTtiTransmit | .carrierTtiExpected | .carrierTtiAccepted | .clsTable | .clsLoad | .flowTable |
  .calStandbyPage | .calActivePage | .spanStandbyAll | .spanActiveAll | .tribEgressTable | .kekValue | .slotLoad
  | .bindTable | .laneDfeTaps | .weakList | .moverMailbox | .ringPost | .ringFault | .windowEntry | .windowTable
  | .ringRecords | .historyRecords | .filterResult | .tbaseNow | .tbaseSet | .tbasePpsCapture | .tsqPop |
  .hkseqEntries | .baseMatrixLong | .baseMatrixSprint | .registrationTable => .domain
  | .reflOffset | .carrierTxCdTarget | .carrierRxTimingOffset | .carrierCdTarget | .carrierCdApplied |
  .carrierCdCorrection | .carrierMonRaw | .carrierMonFiltered | .carrierMonSet | .carrierMonClear |
  .carrierCrFreqOffset | .carrierCatchFreqHandover | .groupHeadroomLeft | .ppsOutOffset | .tclkTrefOffset => .i32
  | .carrierTxSkewXi | .carrierTxSkewXq | .carrierTxSkewYi | .carrierTxSkewYq | .carrierRxSkewXi |
  .carrierRxSkewXq | .carrierRxSkewYi | .carrierRxSkewYq | .carrierRxSkewResXi | .carrierRxSkewResXq |
  .carrierRxSkewResYi | .carrierRxSkewResYq | .carrierRxFePhaseX | .carrierRxFePhaseY | .carrierRxFeGainX |
  .carrierRxFeGainY | .carrierNcSideLeakage | .carrierCatchMetric | .carrierCatchPilotSnr |
  .carrierCatchSnrFloor | .carrierCatchLevel | .carrierCatchLockSnr | .laneEyeSnr | .thermalHottest |
  .thermalSlope | .sensorValue | .sensorRaw | .sensorPeak | .hkCalOffset | .hkCalGain => .i16
  | .laneTxPre2 | .laneTxPre1 | .laneTxPost1 | .laneTxMain => .i8
  | .tbaseOffset => .i64
  | _ => .u32

/-- The access code of an object (R338). -/
def Reg.access (r : Reg) : Access :=
  match r with
  | .identityVendor | .identityPart | .identityStepping | .identityGrade | .identitySerial | .guardPeriod |
  .baseMatrixLong | .baseMatrixSprint => .const
  | .forerunnerEnable | .clsLoad | .flowTable | .portRate | .bdapUnregisteredClass | .mgtPlcaEnable |
  .mgtPlcaNodeId | .mgtPlcaNodeCount | .mgtPlcaToTimer | .registrationRow | .registrationTable => .rwd
  | .carrierSlackRxPeak | .carrierSlackTxLow | .carrierDefectSticky | .flowPeak | .poolLow | .eventLatched |
  .tbaseRefusedFlag | .tsqOverflow | .railLowest | .sensorPeak | .throttleShed => .w1c
  | .deviceModeRequest | .deviceHavenTxPolicy | .deviceHavenKeyPolicy | .carrierRequest | .bootHostImage |
  .adcAgcMode | .adcAgcManualGain | .adcAgcTarget | .adcAgcHysteresis | .dacEnable | .dacSwing |
  .dacShortRetryEnable | .dacShortRetryInterval | .carrierConvShortPolicy | .carrierWiringMode |
  .carrierWiringFixedMap | .carrierWiringTxMap | .calBgEnable | .calBgAdcInterval | .calBgDacInterval |
  .bankStandby | .carrierTxPilotBoost | .carrierTxRmsTarget | .carrierTxClipThreshold | .carrierTxShapeMode |
  .carrierTxShapeRolloff | .carrierTxCdMode | .carrierTxCdTarget | .carrierTxCdFrequency | .carrierTxSkewXi |
  .carrierTxSkewXq | .carrierTxSkewYi | .carrierTxSkewYq | .carrierRxSkewXi | .carrierRxSkewXq |
  .carrierRxSkewYi | .carrierRxSkewYq | .carrierRxSkewAuto | .carrierRxFeEnable | .carrierRxFeDcShift |
  .carrierRxFeIqShift | .carrierRxTimingBandwidth | .carrierCdMode | .carrierCdTarget | .carrierCdFrequency |
  .carrierCdTrackEnable | .carrierCdTrackThreshold | .carrierRxPolInit | .carrierRxPolKAcq | .carrierRxPolKTrk |
  .carrierRxPolCentring | .carrierMonShift | .carrierMonSet | .carrierMonClear | .carrierNcEnable |
  .carrierNcLower | .carrierNcUpper | .carrierNcSpacing | .carrierNcStep | .carrierNcQualityFloor |
  .carrierNcGuard | .carrierNcPark | .carrierCrBandwidth | .carrierCrWindow | .carrierCatchCount | .catchRate |
  .carrierCatchWindow | .carrierCatchGateFloor | .carrierCatchFreqRange | .carrierCatchDetect |
  .carrierCatchConfirm | .carrierCatchSnrFloor | .carrierCatchPreemptMargin | .carrierCatchFailLimit |
  .carrierCatchQualityMode | .carrierFecProfile | .carrierFecModulation | .carrierFecEntropy |
  .carrierFecPayload | .carrierFecTxRate | .carrierFecRxRate | .carrierFecIterationCap | .carrierFecBerWarning |
  .tsiRowSelect | .tsiStandbyRow | .tsiStandbyPage | .tsiRxFollow | .tribRxSelect | .defectSetTime |
  .defectClearTime | .carrierDefectLosSources | .carrierDefectLosFloor | .carrierDefectDegThreshold |
  .carrierDefectDegSeconds | .carrierDefectTimMode | .carrierDefectTimAction | .carrierTtiTransmit |
  .carrierTtiExpected | .carrierOhForceBdi | .carrierOhForceAis | .carrierOhBdiAuto | .carrierOhpEnable |
  .clsKey | .clsFlow | .portClsMode | .portClsDefaultFlow | .portClsTpidSet | .flowSelect | .flowEntry |
  .poolPauseLevel | .calSelect | .calStandbyEntry | .calStandbyPage | .spanSelect | .spanStandby |
  .spanStandbyAll | .tribEgressSelect | .tribEgressRow | .tribEgressTable | .groupMembers | .groupHeadroom |
  .groupPolicy | .groupAlignWait | .slotSelect | .bindSelect | .bindEntry | .bindTable | .cryptSelect |
  .lanePower | .laneRxPolMode | .laneRxPolFixed | .laneTxInvert | .laneLosAssert | .laneLosClear | .laneCtleMode
  | .laneCtleFixed | .laneDfeFreeze | .laneDfeThreshold | .laneTxSwing | .laneTxPre2 | .laneTxPre1 |
  .laneTxPost1 | .octetOrderMode | .octetTxOrder | .portEnable | .portUpHold | .portMaxFrame | .portEgressGap |
  .lanePrbsGen | .lanePrbsCheck | .lanePrbsUser | .lanePrbsInjectRate | .laneLoopback | .scrubEnable |
  .memLapLimit | .bdapStagingTimeout | .moverMailbox | .telemetryEnable | .ringEnable | .ringPriority |
  .windowSelect | .windowEntry | .windowTable | .capturePoint | .captureLength | .captureTrigger | .eventEnable
  | .eventSeverity | .alertEnable0 | .alertEnable1 | .inputDebounce | .inputActiveHigh | .inputStuckLimit |
  .inputRateLimit | .countersPermit | .snapEverySecond | .snapEveryQuarter | .filterBank | .filterCarriers |
  .filterGroups | .filterDirections | .filterFlowFirst | .filterFlowCount | .flowcountSelect | .tbaseIncrement |
  .tbaseStepThreshold | .tbaseForce | .tbasePpsInput | .ppsOutSource | .ppsOutWidth | .ppsOutOffset |
  .portPtpEnable | .portPtpTbase | .portPtpRxWrite | .tclkMode | .guardCeiling | .guardPowerCap | .throttlePoint
  | .throttleHysteresis | .throttleIterationCap | .throttleEscalate | .throttleRelease | .throttleAutoRestore |
  .throttleShedRank | .hkSeqTrigger | .hkSeqEvent | .hkInjEntry | .hkInjTrigger | .hkInjEvent | .hkCalInterval |
  .hkseqEntries | .hkPlausEnable | .hkPlausWindow | .hkPlausLimit | .hkOpenThreshold | .hkSettleTime |
  .monAverage | .monShift | .monLow | .monHigh | .pairTieLossPolicy | .pairWatchInput | .pairHealthMargin |
  .pairHoldOff | .pairHostMute | .registrationSelect | .carrierRxFreeze => .rw
  | .deviceReset | .bootHostLoad | .carrierOpenTestRequest | .calFgRequest | .bankCommit | .tsiFlip | .clsOp |
  .calFlip | .groupRealign | .kekValue | .kekOp | .slotLoad | .slotErase | .lanePairTest | .lanePrbsInject |
  .ringPost | .ringControl | .captureControl | .ringClearLatched | .snapClearWraps | .tbaseSet | .tbaseOffset |
  .sensorReadmit | .hkSeqStart | .hkInjStart | .hkCalRequest | .pairSwitch => .wo
  | _ => .ro

/-- The range an object states for itself. -/
def Reg.range (r : Reg) : Range :=
  match r with
  | .carrierSlackRxPeak | .carrierSlackTxLow | .flowPeak | .poolLow | .railLowest | .sensorPeak => .oneOf [0, 1]
  | .deviceModeRequest => .span 0 5
  | .deviceHavenTxPolicy | .deviceHavenKeyPolicy | .carrierConvShortPolicy | .carrierWiringMode |
  .carrierTxShapeMode | .carrierTxCdMode | .carrierCdMode | .carrierRxPolInit | .carrierCatchQualityMode |
  .portClsMode | .groupPolicy | .laneRxPolMode | .laneCtleMode | .octetTxOrder | .filterBank |
  .pairTieLossPolicy | .pairHostMute => .span 0 1
  | .deviceReset => .oneOf [0x5752]
  | .carrierRequest | .adcAgcMode | .carrierFecProfile | .carrierFecModulation | .lanePower | .octetOrderMode |
  .laneLoopback | .tclkMode => .span 0 2
  | .bootHostLoad | .carrierOpenTestRequest | .calFlip | .groupRealign | .slotErase | .lanePairTest |
  .lanePrbsInject | .ringClearLatched | .sensorReadmit | .hkSeqStart | .hkInjStart | .hkCalRequest => .oneOf [1]
  | .adcAgcManualGain => .span 0 36
  | .adcAgcTarget => .span 4 40
  | .adcAgcHysteresis => .span 1 8
  | .dacSwing => .step 200 800 10
  | .dacShortRetryInterval | .inputRateLimit | .throttleRelease => .span 10 10000
  | .carrierWiringFixedMap | .carrierWiringTxMap | .portClsTpidSet | .lanePrbsGen | .lanePrbsCheck |
  .filterDirections => .span 0 7
  | .calBgAdcInterval | .calBgDacInterval => .span 1500 65000
  | .bankCommit | .kekOp | .pairSwitch => .oneOf [1, 2]
  | .carrierTxPilotBoost => .span 0 6
  | .carrierTxRmsTarget => .span 16 80
  | .carrierTxShapeRolloff => .span 1 20
  | .carrierTxCdFrequency | .carrierCdFrequency => .span 184000 197000
  | .carrierTxSkewXi | .carrierTxSkewXq | .carrierTxSkewYi | .carrierTxSkewYq | .carrierRxSkewXi |
  .carrierRxSkewXq | .carrierRxSkewYi | .carrierRxSkewYq => .span (-4096) 4096
  | .carrierRxFeDcShift | .carrierNcStep => .span 8 16
  | .carrierRxFeIqShift => .span 10 18
  | .carrierRxTimingBandwidth => .span 100 10000
  | .carrierCdTrackThreshold => .span 2 200
  | .carrierRxPolKAcq | .carrierRxPolKTrk | .carrierFecPayload => .span 4 16
  | .carrierMonShift | .pairHealthMargin => .span 0 12
  | .carrierNcLower | .carrierNcUpper => .spanOr 0xFF 0 11
  | .carrierNcSpacing => .span 1020 1200
  | .carrierNcQualityFloor | .carrierCatchDetect => .span 60 200
  | .carrierNcGuard => .span 1 64
  | .carrierCrBandwidth => .span 10 1000
  | .carrierCrWindow => .oneOf [16, 32, 64, 128]
  | .carrierCatchCount | .monAverage | .monShift => .span 0 8
  | .carrierCatchWindow => .span 200 20000
  | .carrierCatchGateFloor | .laneLosAssert => .span 20 200
  | .carrierCatchFreqRange => .span 500 6000
  | .carrierCatchConfirm => .span 40 200
  | .carrierCatchSnrFloor => .span 0 200
  | .carrierCatchPreemptMargin => .span 10 100
  | .carrierCatchFailLimit | .mgtPlcaNodeCount | .mgtPlcaToTimer => .span 1 255
  | .carrierFecEntropy => .stepOr 0 200 560 5
  | .carrierFecTxRate | .carrierFecRxRate => .span 240 960
  | .carrierFecIterationCap => .span 2 12
  | .tsiRowSelect | .tribRxSelect | .spanSelect | .tribEgressSelect | .bindSelect | .cryptSelect => .span 0 3839
  | .defectSetTime | .defectClearTime | .portUpHold => .span 0 10000
  | .carrierDefectLosSources | .carrierDefectTimMode | .ringPriority | .capturePoint | .eventSeverity |
  .portPtpTbase | .hkSeqTrigger => .span 0 3
  | .carrierDefectLosFloor => .span 1 16
  | .carrierDefectDegSeconds | .throttleHysteresis => .span 1 10
  | .clsOp => .span 1 4
  | .portClsDefaultFlow => .spanOr 0xFFFF 0 32767
  | .flowSelect | .filterFlowFirst | .flowcountSelect => .span 0 32767
  | .poolPauseLevel => .span 0 33554432
  | .calSelect => .span 0 65535
  | .groupMembers | .filterCarriers => .span 0 0xFFF
  | .groupHeadroom => .span 2 500
  | .groupAlignWait | .pairHoldOff => .span 1 10000
  | .laneLosClear => .span 0 250
  | .laneCtleFixed | .registrationSelect => .span 0 15
  | .laneDfeThreshold => .span 64 4096
  | .laneTxSwing => .step 400 1000 10
  | .portRate => .span 0 4
  | .portMaxFrame => .span 1518 16383
  | .portEgressGap => .span 12 64
  | .lanePrbsInjectRate => .spanOr 0 10 40
  | .memLapLimit => .spanOr 0 1 3600000
  | .bdapUnregisteredClass => .oneOf [0, 1, 3]
  | .bdapStagingTimeout => .span 100 60000
  | .mgtPlcaNodeId => .span 0 254
  | .ringControl => .span 1 3
  | .captureControl => .span 1 2
  | .captureLength => .step 4 262144 4
  | .captureTrigger | .hkSeqEvent | .hkInjEvent => .spanOr 0xFFFF 0 1407
  | .inputDebounce => .span 0 1000
  | .inputStuckLimit => .span 100 3600000
  | .countersPermit | .snapClearWraps | .filterGroups | .carrierRxFreeze => .span 0 31
  | .filterFlowCount => .span 0 32768
  | .tbaseIncrement => .span 17162689315 17197049053
  | .tbaseStepThreshold => .span 0 1000000000
  | .tbasePpsInput | .ppsOutSource => .spanOr 0xFF 0 3
  | .ppsOutWidth => .span 1 500000
  | .ppsOutOffset => .span (-500000000) 500000000
  | .guardCeiling => .step 6200 9200 25
  | .guardPowerCap => .spanOr 0 100 1000
  | .throttlePoint => .span 85 100
  | .throttleIterationCap => .span 2 11
  | .throttleEscalate => .span 5 1000
  | .hkInjTrigger => .oneOf [0, 2, 3]
  | .hkCalInterval => .spanOr 0 1 3600
  | .hkPlausWindow => .span 1 1000
  | .hkPlausLimit => .span 1000 500000
  | .hkOpenThreshold => .span 100 1400
  | .hkSettleTime => .span 1 50
  | .pairWatchInput => .spanOr 0xFF 0 7
  | _ => .any

end Sys2Proof.Machine
end

