-- ==== Sys2Proof/Machine/Sparse.lean ====
section
/-! DEFINITION. Tables of the block as plain lists: entries with strictly rising keys, none of which holds what an
unlisted key reads as. The register file, the memory of the mover and every queue of a numbered unit are such tables,
so that equal tables are equal data. -/

namespace Sys2Proof.Machine

/-- The value of key k; d where no entry has it. -/
def sget {κ α : Type} [DecidableEq κ] (m : List (κ × α)) (k : κ) (d : α) : α :=
  match m with
  | [] => d
  | (k', v) :: t => if k' = k then v else sget t k d

/-- The table without key k. -/
def sdel {κ α : Type} [DecidableEq κ] (m : List (κ × α)) (k : κ) : List (κ × α) :=
  m.filter fun e => decide (e.1 ≠ k)

/-- Entry (k, v) put before the first larger key. -/
def sins {κ α : Type} (lt : κ → κ → Bool) (m : List (κ × α)) (k : κ) (v : α) : List (κ × α) :=
  match m with
  | [] => [(k, v)]
  | e :: t => if lt k e.1 then (k, v) :: e :: t else e :: sins lt t k v

/-- Key k given value v; the entry goes when v is what an unlisted key reads as. -/
def sput {κ α : Type} [DecidableEq κ] [DecidableEq α] (lt : κ → κ → Bool) (d : α) (m : List (κ × α)) (k : κ)
    (v : α) : List (κ × α) :=
  if v = d then sdel m k else sins lt (sdel m k) k v

/-- Keys strictly rise along the list. -/
def srising {κ α : Type} (lt : κ → κ → Bool) : List (κ × α) → Bool
  | [] => true
  | [_] => true
  | e :: e' :: t => lt e.1 e'.1 && srising lt (e' :: t)

/-- The canonical form: keys strictly rise and no entry holds its key's unlisted value. -/
def swf {κ α : Type} [DecidableEq α] (lt : κ → κ → Bool) (d : κ → α) (m : List (κ × α)) : Bool :=
  srising lt m && m.all fun e => decide (e.2 ≠ d e.1)

/-- Order of numbered units. -/
def natLt (a b : Nat) : Bool := decide (a < b)

end Sys2Proof.Machine
end

