-- ==== Sys2Proof/Machine/State.lean ====
section
/-! DEFINITION. The state of the block as plain data, and the state right after reset. -/

namespace Sys2Proof.Machine

/-- Why a command ends the run with a fault: never. Every command of the block has an effect in every state, and an error
of the hardware is a flag, a counter or an event of the state (no constructor; safe). -/
inductive Fault where
deriving DecidableEq, Repr

/-- Why the model gives a command no meaning. -/
inductive Refusal where
  /-- A command whose meaning is not written yet, by its mnemonic; no command of this model raises it. Safe. -/
  | notModelled (mnemonic : String)
deriving DecidableEq, Repr

/-- Where the block stands between power-up and work (R50 to R52, R477). -/
inductive Phase where
  /-- PORST_N low -/
  | coldReset
  /-- PORST_N high, rails not yet in tolerance for 1 ms -/
  | waitRails
  /-- fuse load running -/
  | fuseLoad
  /-- BDAP answering: every later moment -/
  | running
  /-- SYSRST_N low -/
  | warmReset
deriving DecidableEq, Repr

/-- One event record (R383); detail holds bytes 16 to 31. -/
structure EventRec where
  e : Nat
  flags : Nat
  seq : Nat
  time : Nat
  detail : List Byte
deriving DecidableEq, Repr

/-- A reply to a request (R344, R352): ack with its payload, or abort with index, subindex, code, detail and position. -/
inductive Reply where
  | ack (payload : List Byte)
  | abort (ix sub code detail position : Nat)
deriving DecidableEq, Repr

/-- One request of the duplicate window (R346): its seq, the reply once formed, and the ports on which duplicates wait
for it. -/
structure Recent where
  seq : Nat
  reply : Option Reply
  waiting : List (Fin 2)
deriving DecidableEq, Repr

/-- What the device keeps per source address and station (R340, R346, R384, R397). -/
structure View where
  /-- selects and counter-filter settings, by register -/
  sel : List ((Reg × Nat) × Int)
  /-- the last 16 requests taken, oldest first -/
  recent : List Recent
  /-- ring bytes fixed by the last block read at offset 0 -/
  heldRing : List Byte
  /-- counter result formed by the last block read at offset 0 -/
  heldFilter : List Byte
deriving DecidableEq, Repr

/-- One of the 16 sources most recently heard. -/
structure Source where
  mac : Nat
  native : View
  fore : View
deriving DecidableEq, Repr

/-- A staged entry (R348): the register and unit it writes (selects resolved when staged), the instance it was addressed
as, its address and its value. -/
structure Staged where
  reg : Reg
  unit : Nat
  inst : Nat
  ix : Nat
  sub : Nat
  val : WVal
deriving DecidableEq, Repr

/-- A staging buffer (R348). -/
structure Staging where
  mac : Nat
  fore : Bool
  entries : List Staged
  /-- tick of the last staged write -/
  at_ : Nat
deriving DecidableEq, Repr

/-- An open block transfer (R347). -/
structure Transfer where
  mac : Nat
  fore : Bool
  ix : Nat
  sub : Nat
  total : Nat
  data : List Byte
  /-- tick of the last segment -/
  at_ : Nat
deriving DecidableEq, Repr

/-- An EVENT awaiting acknowledgement (R350). -/
structure Awaiting where
  seq : Nat
  records : List EventRec
  /-- times sent -/
  tries : Nat
deriving DecidableEq, Repr

/-- A subscriber (R350, R386). -/
structure Subscriber where
  slot : Nat
  mac : Nat
  fore : Bool
  port : Fin 2
  mask : Nat
  /-- records queued, oldest first -/
  queue : List EventRec
  /-- seq of the first record lost since the last EVENT, and how many were lost -/
  gapSeq : Nat
  gapCount : Nat
  nextSeq : Nat
  awaiting : Option Awaiting
deriving DecidableEq, Repr

/-- An item of a receive slack buffer: a stroke set with its erasure flag and codes, or a gap marker carrying the number of
sets discarded (R19). -/
inductive SlackItem where
  | set (erased : Bool) (codes : Stroke)
  | gap (n : Nat)
deriving DecidableEq, Repr
/-- Tap updates of the polarisation equaliser computed and not applied yet, oldest first (R142). -/
abbrev TapQueue := List (List Int)

/-- A frame as a queue stores it (R237, R321): its bytes from destination address to FCS, and the poisoned bit of its
length word. -/
structure Stored where
  poisoned : Bool
  bytes : List Byte
deriving DecidableEq, Repr
/-- An entry of the repeat tracker (R330); first is in ns since the end of the fuse load. -/
structure Track where
  domain : Nat
  line : Nat
  count : Nat
  first : Nat
deriving DecidableEq, Repr
/-- A descriptor in a mover ring, with the class it runs under (R366). -/
structure Descriptor where
  source : Nat
  dest : Nat
  length : Nat
  tag : Nat
  report : Bool
  cls : Nat
deriving DecidableEq, Repr
/-- How the boot flash is read, always with 3-byte addresses (R52). -/
inductive FlashRead where
  /-- command 0x5A with 8 dummy cycles, SCK 12.5 MHz: SFDP header and basic parameter table -/
  | sfdp
  /-- 1-1-4 fast read, SCK 50 MHz -/
  | quad
  /-- command 0x0B, 1-1-1 fast read, SCK 50 MHz -/
  | fast
  /-- command 0x03, SCK 12.5 MHz -/
  | slow
deriving DecidableEq, Repr
/-- The instruction register of the TAP (R480); IEEE 1149.1 selects IDCODE at power-up and at its own reset. -/
inductive Tap where
  | idcode
  | bypass
  /-- EXTEST, or an instruction of IEEE 1149.6 -/
  | extest
deriving DecidableEq, Repr
/-- What the block sends outward, in order: the model's own log. -/
inductive Output where
  /-- a stroke set at the DACs of a carrier: full swing in force in mV and codes of its four channels (R16, R78, R79) -/
  | stroke (carrier : Nat) (swing : List Nat) (codes : Stroke)
  /-- the decision stream of a carrier (R157) -/
  | decisions (carrier : Nat) (blocks : List StreamBlock)
  /-- a read of the boot flash from a byte address (R52) -/
  | flash (how : FlashRead) (address : Nat)
  /-- a BDAP reply to a client on its port, and its frame from the destination address up to the FCS (R343, R344) -/
  | reply (client : Client) (r : Reply) (frame : List Byte)
  /-- an EVENT message to a subscriber, and its frame likewise -/
  | event (port : Fin 2) (mac : Nat) (fore : Bool) (seq : Nat) (records : List EventRec) (frame : List Byte)
  /-- an AVSBus target-voltage write to a rail, in mV (R414) -/
  | avsWrite (rail millivolts : Nat)
  /-- a PFC frame of a port: class-enable vector, and which of those priorities are paused (R244) -/
  | pfc (port vector paused : Nat)
  /-- what the mapper of a tributary sends next: a client frame, or a GFP idle frame (R252) -/
  | mapped (trib : Nat) (frame : Option (List Byte))
  /-- a frame of an egress port, the least gap in bytes after it, and whether its end is sent as an error control block (R254,
  R310, R323) -/
  | egress (port : Nat) (frame : List Byte) (gap : Nat) (errorEnd : Bool)
  /-- PAM4 symbols that a PRBS generator sends on a lane, with swing in mV and the taps pre2, pre1, main and post1 (R301,
  R312) -/
  | lane (lane swing : Nat) (taps : List Int) (symbols : List Nat)
  /-- a GCC out burst of the overhead port of a carrier (R225) -/
  | burst (carrier : Nat) (bytes : List Byte)
  /-- overhead of a transmitted logical frame (R215): carrier, FNUM, BSQ, TTI byte, BEI, BDI, STAT, TPG, FANN, GCC -/
  | overhead (carrier fnum bsq : Nat) (tti : Byte) (bei : Nat) (bdi : Bool) (stat : Nat) (tpg fann : Bool)
      (gcc : List Byte)
  /-- a cipher block sent: header, payload and tag words (R265) -/
  | txBlock (trib : Nat) (bytes : List Byte)
  /-- 64b/66b blocks that a transparent port encodes onto its lanes (R254, R311) -/
  | pcs (port : Nat) (blocks : List Block66)
  /-- the payload words of a received block, as delivered (R284) -/
  | rxBlock (trib : Nat) (bytes : List Byte)
  /-- tie link heartbeat: mode, role, Pair state, health and readiness (R455) -/
  | tieHeartbeat (mode role state health ready : Nat)
  /-- tie link digests (R457) -/
  | tieDigest (digests : List Nat)
  /-- tie link key record of a slot, in commit order: a load descriptor, or none for an erase (R458) -/
  | tieKey (order slot : Nat) (descriptor : Option (List Byte))
  /-- tie link lease: slot, generation, L (R274) -/
  | tieLease (slot gen l : Nat)
  /-- tie link lease acknowledgement (R459) -/
  | tieLeaseAck (slot gen l : Nat)
  /-- tie link delivery message: carrier and BSQ (R455) -/
  | tieDelivery (carrier bsq : Nat)
  /-- tie link transmit alignment: BSQ and boundary time in ns (R455) -/
  | tieAlign (bsq time : Nat)
  /-- tie link release of the active role, with its cause (R461) -/
  | tieRelease (cause : Nat)
  /-- tie link switch request, with its cause (R461) -/
  | tieSwitch (cause : Nat)
deriving DecidableEq, Repr

/-- The state of the block. -/
structure State where
  phase : Phase
  /-- the register file: entries (register, unit) ↦ value, canonical, unlisted = Reg.dflt -/
  regs : List ((Reg × Nat) × Int)
  /-- byte strings of DOMAIN objects that hold bytes of their own, canonical, unlisted = empty -/
  blobs : List ((Reg × Nat) × List Byte)
  /-- memory reached by the bulk mover, canonical, unlisted = 0 (R328) -/
  mem : List Host.Cell
  /-- counters whose sticky wrap bit is set (R394), canonical -/
  wraps : List ((Reg × Nat) × Bool)
  /-- the event ring, oldest first (R384) -/
  ring : List EventRec
  /-- the event history, oldest first (R385) -/
  history : List EventRec
  subscribers : List Subscriber
  /-- the request queue of R345 -/
  requests : List Request
  /-- sources, most recently heard first (R340) -/
  sources : List Source
  staging : List Staging
  transfers : List Transfer
  /-- receive slack buffer of each carrier, oldest first (R16, R19) -/
  rxSlack : List (Nat × List SlackItem)
  /-- codes in the transmit slack buffer of each carrier, oldest first (R16); where 3010.04 counts more sets than these, the
  older ones are mid-scale (log entry 5) -/
  txSlack : List (Nat × List Stroke)
  /-- transmit line of each carrier (R104, R194) -/
  txLine : List (Nat × TxLine)
  /-- receive line of each carrier (R124, R206) -/
  rxLine : List (Nat × RxLine)
  /-- words of the cipher blocks or GFP frames of each tributary, in the order of its data positions, for the multiframe under
  way and later ones (R218, R246, R265) -/
  tribWords : List (Nat × List Nat)
  /-- what the line has brought each tributary and its egress has not taken (R218, R246, R259, R284) -/
  rxTribs : List (Nat × RxTrib)
  /-- the TAP (R480) -/
  tap : Tap
  /-- gradients of the polarisation equaliser awaiting their 96 symbols, by carrier (R142) -/
  polQueue : List (Nat × TapQueue)
  /-- bytes of the first tile of each packet flow queue that have been taken already (R237, R319) -/
  flowTaken : List (Nat × List Byte)
  /-- frames of each packet flow queue, oldest first (R237) -/
  flowQueue : List (Nat × List Stored)
  /-- 64-bit words of each transparent flow queue, oldest first, with where blocks begin in them (R247) -/
  flowWords : List (Nat × List Nat)
  /-- frames of each receive tributary queue, oldest first (R254) -/
  tribQueue : List (Nat × List Stored)
  /-- bytes of the first tile of each receive tributary queue that have been taken already (R254, R319) -/
  tribTaken : List (Nat × List Byte)
  /-- egress buffer of each transparent port, oldest first (R311) -/
  egressBlocks : List (Nat × List Block66)
  /-- classifier table: key ↦ flow plus one, by rising key (R239) -/
  classifier : List (Nat × Nat)
  /-- timestamp queue entries as 128-bit values, oldest first (R407) -/
  tsQueue : List Nat
  /-- repeat tracker (R330) -/
  tracker : List Track
  /-- HBM rows queued for repair: stack and row (R332) -/
  repairs : List (Nat × Nat)
  /-- weak rows that accesses are sent away from: domain and row (R331) -/
  redirects : List (Nat × Nat)
  /-- counters as the snapshot being gathered latched them, with wrap bits (R395) -/
  latches : List ((Reg × Nat) × (Nat × Bool))
  /-- counters of snapshot bank 0 (R395) -/
  bank0 : List ((Reg × Nat) × (Nat × Bool))
  /-- counters of snapshot bank 1 (R395) -/
  bank1 : List ((Reg × Nat) × (Nat × Bool))
  /-- descriptors of each mover ring, head first (R366) -/
  descriptors : List (Nat × List Descriptor)
  /-- messages sent, oldest first: the model's own log -/
  out : List Output
  /-- free values taken so far: the model's own counter (assumption 3) -/
  free : Nat
  /-- commands waiting, first in, first out -/
  pending : List Instr
deriving DecidableEq, Repr

/-- The block while PORST_N is low, nothing queued (R50). -/
def State.reset : State where
  phase := .coldReset
  regs := []
  blobs := []
  mem := []
  wraps := []
  ring := []
  history := []
  subscribers := []
  requests := []
  sources := []
  staging := []
  transfers := []
  rxSlack := []
  txSlack := []
  txLine := []
  rxLine := []
  tribWords := []
  rxTribs := []
  tap := .idcode
  polQueue := []
  flowTaken := []
  flowQueue := []
  flowWords := []
  tribQueue := []
  tribTaken := []
  egressBlocks := []
  classifier := []
  tsQueue := []
  tracker := []
  repairs := []
  redirects := []
  latches := []
  bank0 := []
  bank1 := []
  descriptors := []
  out := []
  free := 0
  pending := []

end Sys2Proof.Machine
end

