-- ==== Sys2Proof/Machine/Ops.lean ====
section
/-! DEFINITION. The named operations over the state: registers, counters, memory, time, event raising, output. -/

namespace Sys2Proof.Machine

/-! ## Registers -/

/-- Order of the register file's keys: by register, then by unit. -/
def regLt (a b : Reg × Nat) : Bool :=
  decide (a.1.ctorIdx < b.1.ctorIdx) || (decide (a.1.ctorIdx = b.1.ctorIdx) && decide (a.2 < b.2))

/-- The value of register r of unit i. -/
def State.get (s : State) (r : Reg) (i : Nat) : Int := sget s.regs (r, i) (r.dflt i)

/-- Register r of unit i given value v. -/
def State.set (s : State) (r : Reg) (i : Nat) (v : Int) : State :=
  { s with regs := sput regLt (r.dflt i) s.regs (r, i) v }

/-- A register as a natural number. -/
def State.nat (s : State) (r : Reg) (i : Nat) : Nat := (s.get r i).toNat

/-- A register as a flag. -/
def State.flag (s : State) (r : Reg) (i : Nat) : Bool := decide (s.get r i ≠ 0)

/-- A flag as a register value. -/
def ofFlag (b : Bool) : Int := if b then 1 else 0

/-- A flag register written. -/
def State.setFlag (s : State) (r : Reg) (i : Nat) (b : Bool) : State := s.set r i (ofFlag b)

/-- s' where the condition holds, s where not. -/
def State.when (s : State) (c : Bool) (f : State → State) : State := if c then f s else s

/-- A step for each unit of a list in turn. -/
def State.each {α : Type} (s : State) (l : List α) (f : State → α → State) : State := l.foldl f s

/-- Width in bits of a counter, at which it wraps. -/
def Reg.bits (r : Reg) : Nat :=
  match r.wire with
  | .bool => 1
  | .u8 => 8
  | .i8 => 8
  | .u16 => 16
  | .i16 => 16
  | .u32 => 32
  | .i32 => 32
  | .u64 => 64
  | .i64 => 64
  | .domain => 32

/-- Counter r of unit i raised by n. It restarts from 0 past the maximum of its type and then sets its sticky wrap bit
(R394). -/
def State.bump (s : State) (r : Reg) (i : Nat) (n : Nat := 1) : State :=
  let v := s.nat r i + n
  let m := 2 ^ r.bits
  let t := s.set r i ((v % m : Nat) : Int)
  if m ≤ v then { t with wraps := sput regLt false t.wraps (r, i) true } else t

/-- Register r of unit i raised to v when v is higher. -/
def State.peak (s : State) (r : Reg) (i : Nat) (v : Int) : State := if s.get r i < v then s.set r i v else s

/-- Register r of unit i lowered to v when v is lower. -/
def State.trough (s : State) (r : Reg) (i : Nat) (v : Int) : State := if v < s.get r i then s.set r i v else s

/-- Bit b of a mask. -/
def bitOf (m b : Nat) : Bool := m / 2 ^ b % 2 == 1

/-- Bit b of register r of unit i. -/
def State.bit (s : State) (r : Reg) (i b : Nat) : Bool := bitOf (s.nat r i) b

/-- Bit b of a mask given a value. -/
def withBit (m b : Nat) (v : Bool) : Nat := m - (if bitOf m b then 2 ^ b else 0) + (if v then 2 ^ b else 0)

/-- Bit b of register r of unit i given a value. -/
def State.setBit (s : State) (r : Reg) (i b : Nat) (v : Bool) : State :=
  s.set r i ((withBit (s.nat r i) b v : Nat) : Int)

/-- Field of w bits from bit lo of a number. -/
def field (v lo w : Nat) : Nat := v / 2 ^ lo % 2 ^ w

/-! ## DOMAIN values and mover memory -/

/-- The bytes a DOMAIN object of unit i holds. -/
def State.blob (s : State) (r : Reg) (i : Nat) : List Byte := sget s.blobs (r, i) []

/-- The bytes of a DOMAIN object replaced. -/
def State.setBlob (s : State) (r : Reg) (i : Nat) (b : List Byte) : State :=
  { s with blobs := sput regLt [] s.blobs (r, i) b }

/-- One byte of mover memory; a byte nothing has written reads 0 (R328). -/
def State.readByte (s : State) (a : Nat) : Byte := sget s.mem a 0

/-- One byte of mover memory written. -/
def State.writeByte (s : State) (a : Nat) (b : Byte) : State := { s with mem := sput natLt 0 s.mem a b }

/-- The memory's canonical form: addresses strictly rise, no byte is 0. -/
def Memory.wf (m : List Host.Cell) : Bool := swf natLt (fun _ => 0) m

/-- n bytes of mover memory from address a. -/
def State.readBytes (s : State) (a n : Nat) : List Byte := (List.range n).map fun k => s.readByte (a + k)

/-- Bytes written to mover memory from address a. -/
def State.writeBytes (s : State) (a : Nat) : List Byte → State
  | [] => s
  | b :: t => (s.writeByte a b).writeBytes (a + 1) t

/-! ## Little-endian byte strings (R337) -/

/-- The low w bytes of a number, least significant first, two's complement for a negative one. -/
def leBytes (w : Nat) (v : Int) : List Byte := (List.range w).map fun k => BitVec.ofInt 8 (v / 256 ^ k)

/-- The number a little-endian byte string spells. -/
def leNat : List Byte → Nat
  | [] => 0
  | b :: t => b.toNat + 256 * leNat t

/-- The signed number a little-endian byte string spells. -/
def leInt (l : List Byte) : Int :=
  let n := leNat l
  if 256 ^ l.length ≤ 2 * n then (n : Int) - 256 ^ l.length else n

/-- A byte string cut or filled with zeros to n bytes. -/
def padTo (n : Nat) (l : List Byte) : List Byte := (l ++ List.replicate (n - l.length) 0).take n

/-- Numbers as a byte string, 4 bytes each. -/
def numberBytes (l : List Nat) : List Byte := l.flatMap fun k => leBytes 4 (k : Int)

/-- The numbers of such a byte string. -/
def bytesNumbers (b : List Byte) : List Nat := (List.range (b.length / 4)).map fun k => leNat ((b.drop (4 * k)).take 4)

/-! ## Free values and output -/

/-- The next free value, and the state that has taken it (assumption 3). -/
def State.takeFree (s : State) : Nat × State := (Config.freeNat s.free, { s with free := s.free + 1 })

/-- The mode whose rules hold: 2000.02, and from the acceptance of a downward request, or of an exit from Haven to Dormant, the
mode it goes to, whose exit actions are done (R41, R46). -/
def State.mode (s : State) : Int :=
  let m := s.get .deviceModeState 0
  let t := s.get .xTarget 0
  if s.get .deviceModeBusy 0 = 1 ∧ ((m ≤ 4 ∧ t < m) ∨ (m = 5 ∧ t = 0)) then t else m

/-- A message sent. -/
def State.emit (s : State) (o : Output) : State := { s with out := s.out ++ [o] }

/-! ## Time -/

/-- Time base t in nanoseconds (R380). -/
def State.timeNs (s : State) (t : Nat) : Nat := s.nat .xTbSec t * 1000000000 + s.nat .xTbNs t

/-- Time base 0 in nanoseconds: the time of events. -/
def State.now (s : State) : Nat := s.timeNs 0

/-- True at most once per aligned second of time base 0: the mark register holds the last such second plus one. -/
def State.newSecond (s : State) (mark : Reg) (i : Nat) : Bool := decide (s.get mark i ≠ s.get .xTbSec 0 + 1)

/-- The mark of State.newSecond set. -/
def State.markSecond (s : State) (mark : Reg) (i : Nat) : State := s.set mark i (s.get .xTbSec 0 + 1)

/-- Register r of unit i takes the present tick of the timing clock (R399). -/
def State.markTick (s : State) (r : Reg) (i : Nat) : State := s.set r i (s.get .xTicks 0)

/-- At least n µs have passed since the tick that register r of unit i holds. -/
def State.usSince (s : State) (r : Reg) (i : Nat) (n : Int) : Bool := decide (250 * n ≤ s.get .xTicks 0 - s.get r i)

/-! ## Events (R379 to R386) -/

/-- Event number of source n of carrier c. -/
def evCarrier (c n : Nat) : Nat := 40 * c + n
/-- Event number of source n of ADC a. -/
def evAdc (a n : Nat) : Nat := 480 + 2 * a + n
/-- Event number of source n of DAC d. -/
def evDac (d n : Nat) : Nat := 576 + 2 * d + n
/-- Event number of source n of host lane h. -/
def evLane (h n : Nat) : Nat := 672 + 4 * h + n
/-- Event number of source n of client port p. -/
def evPort (p n : Nat) : Nat := 1056 + 2 * p + n
/-- Event number of device-wide source n. -/
def evDev (n : Nat) : Nat := 1152 + n

/-- One item of an event record's detail: its width in bytes and its value (R383). -/
structure Item where
  width : Nat
  value : Int
deriving DecidableEq, Repr

/-- A code, kind, state, side, map, generation or flag. -/
def u8 (v : Int) : Item := ⟨1, v⟩
/-- A unit number, or the value of a 16-bit object. -/
def u16 (v : Int) : Item := ⟨2, v⟩
/-- The value of a 32-bit object. -/
def u32 (v : Int) : Item := ⟨4, v⟩
/-- A counter, time or address. -/
def u64 (v : Int) : Item := ⟨8, v⟩

/-- Detail bytes so far, with one item more at the next multiple of its width (R383). -/
def layItem (acc : List Byte) (i : Item) : List Byte :=
  acc ++ List.replicate ((i.width - acc.length % i.width) % i.width) 0 ++ leBytes i.width i.value

/-- The 16 detail bytes of a record (R383). -/
def layout (l : List Item) : List Byte := padTo 16 (l.foldl layItem [])

/-- The event number in the forerunner view (R358), where the source appears there. -/
def foreEvent (e : Nat) : Option Nat :=
  if e < 480 then (if e < 160 then some e else none)
  else if e < 576 then (if e < 512 then some (160 + (e - 480)) else none)
  else if e < 672 then (if e < 608 then some (192 + (e - 576)) else none)
  else if e < 1056 then (if e < 864 then some (224 + (e - 672)) else none)
  else if e < 1152 then (if e < 1104 then some (416 + (e - 1056)) else none)
  else some (464 + (e - 1152))

/-- A record queued for a subscriber whose mask holds its severity and whose view has its source (R381, R358). -/
def Subscriber.enqueue (sub : Subscriber) (r : EventRec) : Subscriber :=
  if bitOf sub.mask (r.flags % 4) && (!sub.fore || (foreEvent r.e).isSome) then
    { sub with queue := sub.queue ++ [r] }
  else sub

/-- A record that the ring overwrites is lost to a subscriber it is still queued for (R386). -/
def Subscriber.lose (sub : Subscriber) (r : EventRec) : Subscriber :=
  match sub.queue with
  | [] => sub
  | h :: t =>
    if h.seq = r.seq then
      { sub with queue := t, gapCount := sub.gapCount + 1,
                 gapSeq := if sub.gapCount = 0 then r.seq else sub.gapSeq }
    else sub

/-- One record into the event ring (R384): the oldest of 1,024 gives way and is counted. -/
def State.ringPush (s : State) (r : EventRec) : State :=
  let s := match s.ring with
    | o :: t =>
      if 1024 ≤ s.ring.length then
        ({ s with ring := t, subscribers := s.subscribers.map fun (u : Subscriber) => u.lose o } : State).bump .ringOverwritten 0
      else s
    | [] => s
  ({ s with ring := s.ring ++ [r] } : State).bump .ringNextSeq 0

/-- One record into the event history, which holds the latest 64 (R385). -/
def State.historyPush (s : State) (r : EventRec) : State :=
  let h := s.history ++ [r]
  ({ s with history := h.drop (h.length - 64) } : State).bump .historyWritten 0

/-- How an event record is flagged: cleared = bit 7, summary = bit 6. -/
structure Mark where
  cleared : Bool := false
  summary : Bool := false
deriving DecidableEq, Repr

/-- The flags byte of a record (R383). -/
def Mark.flags (k : Mark) (severity : Nat) : Nat :=
  severity % 4 + (if k.summary then 64 else 0) + (if k.cleared then 128 else 0)

/-- The captures that the raise of event e triggers (R372). -/
def State.captureTrigger (s : State) (e : Nat) : State :=
  s.each (List.range 12) fun s c =>
    if s.get .captureState c = 1 ∧ s.get .xCaptureTrigger c = e then s.set .xCaptureTriggered c 1 else s

/-- Source e is raised (R381): counted and timed; when enabled, also latched, recorded in the ring, in the history when
its severity is 3, queued for subscribers, and offered to the captures as a trigger. Housekeeping triggers are added by
State.raiseMarked. -/
def State.raiseCore (s : State) (e : Nat) (detail : List Item) (k : Mark) : State :=
  let s := (s.bump .eventCount e).set .eventLastTime e s.now
  if s.flag .eventEnable e then
    let sev := s.nat .eventSeverity e
    let r : EventRec := ⟨e, k.flags sev, s.nat .ringNextSeq 0, s.now, layout detail⟩
    let s := (s.set .eventLatched e 1).ringPush r
    let s := if sev = 3 then s.historyPush r else s
    ({ s with subscribers := s.subscribers.map fun (u : Subscriber) => u.enqueue r } : State).captureTrigger e
  else s

/-! ## Housekeeping triggers (R444 to R446)

They stand here because a raise may be one. -/

/-- The entry list of converter k (9010.01): one entry, channel 0, until written. -/
def State.hkEntries (s : State) (k : Nat) : List Byte :=
  let b := s.blob .hkseqEntries k
  if b.isEmpty then [0, 0] else b

/-- Entry n of a list of little-endian U16 entries. -/
def hkEntryAt (b : List Byte) (n : Nat) : Nat := leNat ((b.drop (2 * n)).take 2)

/-- The channel field of a conversion entry (R440). -/
def hkChannel (entry : Nat) : Nat := field entry 0 7

/-- The entry converter k converts, or would convert next: the injected one in state 2, else the sequence's. -/
def State.hkCurrent (s : State) (k : Nat) : Nat :=
  if s.get .hkState k = 2 then s.nat .xHkInjInForce k else hkEntryAt (s.blob .xHkSequence k) (s.nat .xHkIndex k)

/-- The averaging count and shift that the entry about to start will use (R441: a write applies from the next
conversion). -/
def State.hkLatch (s : State) (k : Nat) : State :=
  let ch := hkChannel (s.hkCurrent k)
  if ch < 64 then (s.set .xHkAverage k (s.get .monAverage ch)).set .xHkShift k (s.get .monShift ch)
  else (s.set .xHkAverage k 0).set .xHkShift k 0

/-- The sequence of converter k starts from its first entry; the entries in force are those written by now (R444). -/
def State.hkStart (s : State) (k : Nat) : State :=
  let s := (((s.setBlob .xHkSequence k (s.hkEntries k)).set .xHkIndex k 0).set .xHkSeqActive k 1)
  if s.get .hkState k = 0 then (s.set .hkState k 1).hkLatch k else s

/-- A trigger found the converter unable to take it (R445, R446): source 132 at most once per aligned second. -/
def State.hkMiss (s : State) (k : Nat) (raise : State → Nat → List Item → State) : State :=
  if s.newSecond .xHkMissSecond 0 then raise (s.markSecond .xHkMissSecond 0) (evDev 132) [u16 k] else s

/-- A sequence trigger of converter k (R444, R445). -/
def State.hkSeqTrigger (s : State) (k : Nat) (raise : State → Nat → List Item → State) : State :=
  if s.flag .xHkSeqActive k then (s.bump .hkSeqMissed k).hkMiss k raise
  else if s.get .hkState k = 3 then
    if s.flag .xHkHeld k then (s.bump .hkSeqMissed k).hkMiss k raise else s.set .xHkHeld k 1
  else s.hkStart k

/-- The injected entry of converter k starts, pausing a sequence (R446). -/
def State.hkStartInjected (s : State) (k : Nat) : State :=
  ((((s.set .xHkInjPending k 0).set .xHkInjInForce k (s.get .hkInjEntry k)).set .hkState k 2)).hkLatch k

/-- An injected trigger of converter k (R446). -/
def State.hkInjTrigger (s : State) (k : Nat) (raise : State → Nat → List Item → State) : State :=
  if s.flag .xHkInjPending k ∨ s.get .hkState k = 2 then (s.bump .hkInjMissed k).hkMiss k raise
  else
    let s := s.set .xHkInjPending k 1
    if s.get .hkState k = 0 then s.hkStartInjected k else s

/-- What a raise of event e with record bit 7 = 0 triggers on the housekeeping converters (R444, R446). -/
def State.hkEventTrigger (s : State) (e : Nat) (raise : State → Nat → List Item → State) : State :=
  s.each [0, 1] fun s k =>
    let s := if s.get .hkSeqTrigger k = 3 ∧ s.get .hkSeqEvent k = e then s.hkSeqTrigger k raise else s
    if s.get .hkInjTrigger k = 3 ∧ s.get .hkInjEvent k = e then s.hkInjTrigger k raise else s

/-- Source e is raised, with the housekeeping triggers it sets off. A missed trigger raises source 132, which may be a
trigger itself; it is missed at most once per second, so depth 2 reaches every case. -/
def State.raiseFuel (n : Nat) (s : State) (e : Nat) (detail : List Item) (k : Mark) : State :=
  match n with
  | 0 => s.raiseCore e detail k
  | n + 1 =>
    let t := s.raiseCore e detail k
    if k.cleared || !s.flag .eventEnable e then t
    else t.hkEventTrigger e fun s e d => s.raiseFuel n e d {}

/-- Source e is raised with its detail and flags (R381). -/
def State.raiseMarked (s : State) (e : Nat) (detail : List Item) (k : Mark) : State := s.raiseFuel 2 e detail k

/-- Source e is raised. -/
def State.raise (s : State) (e : Nat) (detail : List Item) : State := s.raiseMarked e detail {}

/-- Source e is raised for a declaration (c = false) or a clearing (c = true): record bit 7. -/
def State.raiseClear (s : State) (e : Nat) (detail : List Item) (c : Bool) : State :=
  s.raiseMarked e detail { cleared := c }

end Sys2Proof.Machine
end

