-- ==== Sys2Proof/Machine/Coding.lean ====
section
/-! DEFINITION. The formats and figures of the coding chapter (R189 to R209) as functions: rates, entropy, capacity and
need, distribution matching, ladder parity, phase word, base matrices, and the known sequences of R108. -/

namespace Sys2Proof.Machine

/-! ## Profiles and rates -/

/-- Profile numbers (3070.01). -/
def profLong : Nat := 0
/-- Sprint. -/
def profSprint : Nat := 1
/-- Compatible. -/
def profCompatible : Nat := 2

/-- Symbol rate in kBd of a rate in units of 0.25 GBd. -/
def kBd (r : Nat) : Nat := 250000 * r

/-- Sample rate in MS/s, 1.2 samples per symbol (R60), rounded to the nearest (R205). -/
def sampleRate (b : Nat) : Nat := (12 * b + 5000) / 10000

/-- Stroke rate in stroke sets per second at b kBd: 1.2 × B / 256 (R15). -/
def strokeRate (b : Nat) : Nat := b * 75 / 16

/-- Code rate R as a fraction (R189). -/
def codeRate (profile : Nat) : Nat × Nat := if profile = profSprint then (15, 16) else (583, 672)

/-- k_DM = ⌈512 × (H × R − 2 + 6 × (1 − R))⌉ with H in 0.01 bit (R195). -/
def kDm (profile h : Nat) : Nat :=
  let (a, b) := codeRate profile
  (512 * (h * a + 400 * b - 600 * a) + (100 * b - 1)) / (100 * b)

/-- Slots per multiframe F by modulation (R192). -/
def slotsPerMultiframe (modulation : Nat) : Nat :=
  if modulation = 2 then 21418 else if modulation = 1 then 14279 else 7139

/-- Capacity C in bits per frame (R192). -/
def capacity (profile modulation h : Nat) : Nat :=
  let f := slotsPerMultiframe modulation
  if modulation = 2 then
    (if profile = profSprint then f * (3 * kDm profile h + 2496) / 256
     else f * (21 * kDm profile h + 12960) / (7 * 256))
  else if profile = profSprint then f * 8640 / 256
  else f * 55968 / (7 * 256)

/-- Need N in bits per frame of a payload of p × 100 Gb/s at b kBd (R192). -/
def need (p b : Nat) : Nat := (p * 100 * 65536 * 1000000 + (b - 1)) / b + 2048

/-- Entropy steps from 2.00 to 5.60 (R192). -/
def entropySteps : List Nat := (List.range 73).map fun k => 200 + 5 * k

/-- The entropy a direction runs at: fixed, or the lowest step that carries the payload; none where none does (R192). -/
def entropyFor (profile modulation setting p b : Nat) : Option Nat :=
  if modulation = 0 then (if need p b ≤ capacity profile 0 0 then some 200 else none)
  else if modulation = 1 then (if need p b ≤ capacity profile 1 0 then some 400 else none)
  else if setting = 0 then entropySteps.find? fun h => decide (need p b ≤ capacity profile 2 h)
  else if need p b ≤ capacity profile 2 setting then some setting
  else none

/-- True where the payload is carried at b kBd (R192); Compatible has no such figure. -/
def carries (profile modulation setting p b : Nat) : Bool :=
  profile == profCompatible || (entropyFor profile modulation setting p b).isSome

/-- 3071.0D: k_DM / 512 + 2 in 0.01 bit, rounded down. -/
def lineEntropy (k : Nat) : Nat := k * 100 / 512 + 200

/-! ## Distribution matching (R195, R197) -/

/-- A composition: counts of the amplitudes 1, 3, 5 and 7. -/
structure Composition where
  n1 : Nat
  n3 : Nat
  n5 : Nat
  n7 : Nat
deriving DecidableEq, Repr

/-- Factorial. -/
def fact : Nat → Nat
  | 0 => 1
  | n + 1 => (n + 1) * fact n

/-- Number of sequences of a composition. -/
def Composition.count (c : Composition) : Nat :=
  fact (c.n1 + c.n3 + c.n5 + c.n7) / (fact c.n1 * fact c.n3 * fact c.n5 * fact c.n7)

/-- Energy of a composition. -/
def Composition.energy (c : Composition) : Nat := c.n1 + 9 * c.n3 + 25 * c.n5 + 49 * c.n7

/-- Better of two compositions: less energy, then larger n1, n3, n5 (R195). -/
def Composition.better (a b : Composition) : Bool :=
  if a.energy ≠ b.energy then decide (a.energy < b.energy)
  else if a.n1 ≠ b.n1 then decide (b.n1 < a.n1)
  else if a.n3 ≠ b.n3 then decide (b.n3 < a.n3)
  else decide (b.n5 ≤ a.n5)

/-- The composition in force for k_DM: the best whose count is at least 2 ^ k (R195). For given n5 and n7 the energy
rises with n3, so the first n3 that suffices is the best of its kind. -/
def compositionFor (k : Nat) : Composition :=
  let cands := (List.range 1025).flatMap fun n7 => (List.range (1025 - n7)).filterMap fun n5 =>
    ((List.range (1025 - n7 - n5)).find? fun n3 =>
      decide (2 ^ k ≤ (Composition.mk (1024 - n3 - n5 - n7) n3 n5 n7).count)).map fun n3 =>
        Composition.mk (1024 - n3 - n5 - n7) n3 n5 n7
  cands.foldl (fun a b => if b.better a then b else a) ⟨0, 0, 0, 1024⟩

/-- One amplitude fewer of a kind (0 to 3 for 1, 3, 5, 7). -/
def Composition.drop (c : Composition) (a : Nat) : Composition :=
  if a = 0 then { c with n1 := c.n1 - 1 } else if a = 1 then { c with n3 := c.n3 - 1 }
  else if a = 2 then { c with n5 := c.n5 - 1 } else { c with n7 := c.n7 - 1 }

/-- Count of a kind. -/
def Composition.of (c : Composition) (a : Nat) : Nat :=
  if a = 0 then c.n1 else if a = 1 then c.n3 else if a = 2 then c.n5 else c.n7

/-- The n-th sequence of a composition in ascending lexicographic order (R195), as kinds 0 to 3. -/
def matchBlock : Nat → Composition → Nat → List Nat
  | 0, _, _ => []
  | len + 1, c, n =>
    let w := fun a => if c.of a = 0 then 0 else (c.drop a).count
    let a := if n < w 0 then 0 else if n < w 0 + w 1 then 1 else if n < w 0 + w 1 + w 2 then 2 else 3
    let base := if a = 0 then 0 else if a = 1 then w 0 else if a = 2 then w 0 + w 1 else w 0 + w 1 + w 2
    a :: matchBlock len (c.drop a) (n - base)

/-- The rank of a sequence among those of its composition (R197). -/
def rankBlock : List Nat → Composition → Nat
  | [], _ => 0
  | a :: t, c =>
    ((List.range a).map fun b => if c.of b = 0 then 0 else (c.drop b).count).sum + rankBlock t (c.drop a)

/-- The inverse matcher on a block of kinds: its rank, or none where the composition differs or the rank reaches 2 ^ k
(R197). -/
def unmatchBlock (k : Nat) (c : Composition) (l : List Nat) : Option Nat :=
  if Composition.mk (l.count 0) (l.count 1) (l.count 2) (l.count 3) = c ∧ rankBlock l c < 2 ^ k then
    some (rankBlock l c)
  else none

/-! ## Ladder and phase word (R200, R203, R204) -/

/-- Ladder parity bits of field q (R204). -/
def ladderParity (q : Nat) : Nat := 3168 * (q + 1) / 7 - 3168 * q / 7

/-- Ladder information bits of the fields before field q. -/
def ladderInfo (q : Nat) : Nat := 8448 * q - 3168 * q / 7

/-- The phase word that describes codeword q (R200); 0 in Sprint. -/
def phaseWord (profile q : Nat) : Nat :=
  if profile = profSprint then 0
  else
    let i := ladderInfo q
    let row := i / 583
    q % 7 * 2 ^ 27 + row % 616 * 2 ^ 17 + i % 583 * 2 ^ 7 + (66 + 33 * row - 3168 * q / 7)

/-- A phase-word bit by majority of its 12 sign bits; a tie reads 0 (R200). -/
def phaseBit (l : List Bool) : Bool := decide (6 < (l.filter id).length)

/-! ## Base matrices (R201) -/

/-- Rows taken from a list one after another, each by a number that picks among those left, with the shift that goes with
it. -/
def pickRows : List Nat → List (Nat × Fin 64) → List (Nat × Fin 64)
  | _, [] => []
  | l, e :: t =>
    let r := l.getD (e.1 % max 1 l.length) 0
    (r, e.2) :: pickRows (l.erase r) t

/-- The ones of information column j: three block rows, all different, and their shifts. -/
def baseOnes (profile m j : Nat) : List (Nat × Fin 64) :=
  pickRows (List.range m) (Config.baseColumn profile j).toList

/-- Block of the base matrix of a profile with m block rows, at block row r and block column j: a shift from 0 to 63, or
0xFF for a zero block. -/
def baseBlock (profile m r j : Nat) : Byte :=
  if j < 144 - m then
    match (baseOnes profile m j).find? fun e => e.1 == r with
    | some e => BitVec.ofNat 8 e.2.val
    | none => 0xFF
  else if j = 144 - m then (if r = 0 ∨ r = m - 1 then 1 else if r = m / 2 then 0 else 0xFF)
  else if r = j - (144 - m) - 1 ∨ r = j - (144 - m) then 0
  else 0xFF

/-- 2F40.01 (profile 0, 12 block rows) and 2F40.02 (profile 1, 9 block rows), row-major. -/
def baseMatrix (profile m : Nat) : List Byte :=
  (List.range m).flatMap fun r => (List.range 144).map fun j => baseBlock profile m r j

/-! ## Known sequences (R107, R108) -/

/-- One step of the generator x¹¹ + x⁹ + 1: the lowest bit leaves, the feedback enters at the top. DEDUCED (log entry 39):
the polynomial is that of the bit sequence, b[n] = b[n − 11] + b[n − 9], so that bits 0 and 2 of the register feed back. -/
def lfsrStep (x : Nat) : Nat := x / 2 + (x % 2 + x / 4 % 2) % 2 * 1024

/-- Generator bits from a register content. -/
def lfsrBits : Nat → Nat → List Bool
  | 0, _ => []
  | n + 1, x => (x % 2 == 1) :: lfsrBits n (lfsrStep x)

/-- Seeds of the channels XI, XQ, YI, YQ. -/
def knownSeed (ch : Nat) : Nat := ([0x7FF, 0x5A5, 0x3C3, 0x6E1] : List Nat).getD ch 0

/-- Frame word of a channel: generator bits 0 to 255. -/
def frameWord (ch : Nat) : List Bool := lfsrBits 256 (knownSeed ch)

/-- Pilot group g of a channel: generator bits 256 + 64g to 319 + 64g. -/
def pilotGroup (ch g : Nat) : List Bool := ((lfsrBits (320 + 64 * g) (knownSeed ch)).drop (256 + 64 * g))

/-- What a symbol position of a frame holds: 0 frame word, g + 1 pilot group g, 17 payload (R107). -/
def symbolKind (n : Nat) : Nat :=
  if n < 256 then 0 else if 4032 ≤ n % 4096 then n / 4096 + 1 else 17

/-! ## Demapper (R206) -/

/-- An LLR saturated to I6, −31 to 31. -/
def llrSat (v : Int) : Int := max (-31) (min 31 v)

/-- Slot position of codeword bit p of codeword q in Long: slot q + ⌊p / 576⌋, same position (R202). -/
def interleave (profile q p : Nat) : Nat × Nat := if profile = profSprint then (q, p) else (q + p / 576, p)

/-! ## Dispersion reach (R112, R135) -/

/-- Transmit pre-compensation reach at b kBd (R112). -/
def txReach (b : Nat) : Nat := min 80000 (20000 * 240000000 ^ 2 / b ^ 2)

/-- Receive dispersion reach of a profile at b kBd (R135). -/
def rxReach (profile b : Nat) : Nat :=
  if profile = profSprint then min 8000 (2000 * 240000000 ^ 2 / b ^ 2)
  else min 160000 (80000 * 240000000 ^ 2 / b ^ 2)

end Sys2Proof.Machine
end

