-- ==== Sys2Proof/Machine/Catalogue.lean ====
section
/-! DEFINITION. The dictionary's index map (R10, R336): for every object, where its instances lie. -/

namespace Sys2Proof.Machine

/-- A run of instances: count of them, the first at base, one every stride. -/
structure Seg where
  base : Nat
  stride : Nat
  count : Nat
deriving DecidableEq, Repr

/-- One object of the dictionary: its register, its runs of instances, its first subindex and how many consecutive
subindices it takes (instance number = unit × subs + subindex offset). -/
structure Obj where
  reg : Reg
  segs : List Seg
  sub : Nat
  subs : Nat
deriving DecidableEq, Repr

/-- Objects of chapter 00_scope.md, part 1. -/
def objects00a : List Obj := [
  ⟨.identityVendor, [⟨0x1000, 1, 1⟩], 0x01, 1⟩,
  ⟨.identityPart, [⟨0x1000, 1, 1⟩], 0x02, 1⟩,
  ⟨.identityStepping, [⟨0x1000, 1, 1⟩], 0x03, 1⟩,
  ⟨.identityGrade, [⟨0x1000, 1, 1⟩], 0x04, 1⟩,
  ⟨.identitySerial, [⟨0x1000, 1, 1⟩], 0x05, 1⟩,
  ⟨.forerunnerEnable, [⟨0x1F00, 1, 1⟩], 0x01, 1⟩,
  ⟨.forerunnerActive, [⟨0x1F00, 1, 1⟩], 0x02, 1⟩]

/-- Objects of chapter 01_architecture.md, part 1. -/
def objects01a : List Obj := [
  ⟨.carrierSlackRxFill, [⟨0x3010, 0x100, 12⟩], 0x01, 1⟩,
  ⟨.carrierSlackTxFill, [⟨0x3010, 0x100, 12⟩], 0x02, 1⟩,
  ⟨.carrierSlackRxTarget, [⟨0x3010, 0x100, 12⟩], 0x03, 1⟩,
  ⟨.carrierSlackTxTarget, [⟨0x3010, 0x100, 12⟩], 0x04, 1⟩,
  ⟨.carrierSlackRxPeak, [⟨0x3010, 0x100, 12⟩], 0x05, 1⟩,
  ⟨.carrierSlackTxLow, [⟨0x3010, 0x100, 12⟩], 0x06, 1⟩,
  ⟨.carrierSlackHeld, [⟨0x3010, 0x100, 12⟩], 0x07, 1⟩,
  ⟨.carrierSlackHoldEpisodes, [⟨0x3010, 0x100, 12⟩], 0x08, 1⟩,
  ⟨.carrierSlackRxDiscarded, [⟨0x3010, 0x100, 12⟩], 0x09, 1⟩,
  ⟨.carrierSlackTxHoldSets, [⟨0x3010, 0x100, 12⟩], 0x0A, 1⟩,
  ⟨.guardSetpoint, [⟨0x2200, 1, 5⟩], 0x01, 1⟩,
  ⟨.guardCRun, [⟨0x2200, 1, 5⟩], 0x02, 1⟩,
  ⟨.guardCDroop, [⟨0x2200, 1, 5⟩], 0x03, 1⟩,
  ⟨.guardCLook, [⟨0x2200, 1, 5⟩], 0x04, 1⟩,
  ⟨.guardRequirement, [⟨0x2200, 1, 5⟩], 0x05, 1⟩,
  ⟨.guardBacklog, [⟨0x2200, 1, 5⟩], 0x06, 1⟩,
  ⟨.guardState, [⟨0x2200, 1, 5⟩], 0x07, 1⟩,
  ⟨.guardFastRaises, [⟨0x2200, 1, 5⟩], 0x08, 1⟩,
  ⟨.guardPeriod, [⟨0x2200, 1, 5⟩], 0x09, 1⟩]

/-- Objects of chapter 02_modes.md, part 1. -/
def objects02a : List Obj := [
  ⟨.deviceModeRequest, [⟨0x2000, 1, 1⟩], 0x01, 1⟩,
  ⟨.deviceModeState, [⟨0x2000, 1, 1⟩], 0x02, 1⟩,
  ⟨.deviceModeBusy, [⟨0x2000, 1, 1⟩], 0x03, 1⟩,
  ⟨.deviceModeRefusal, [⟨0x2000, 1, 1⟩], 0x04, 1⟩,
  ⟨.deviceHavenTxPolicy, [⟨0x2000, 1, 1⟩], 0x05, 1⟩,
  ⟨.deviceHavenKeyPolicy, [⟨0x2000, 1, 1⟩], 0x06, 1⟩,
  ⟨.deviceHavenFirstCause, [⟨0x2000, 1, 1⟩], 0x07, 1⟩,
  ⟨.deviceHavenCauses, [⟨0x2000, 1, 1⟩], 0x08, 1⟩,
  ⟨.deviceHavenEntries, [⟨0x2000, 1, 1⟩], 0x09, 1⟩,
  ⟨.deviceReset, [⟨0x2000, 1, 1⟩], 0x0A, 1⟩,
  ⟨.carrierRequest, [⟨0x3000, 0x100, 12⟩], 0x01, 1⟩,
  ⟨.carrierState, [⟨0x3000, 0x100, 12⟩], 0x02, 1⟩,
  ⟨.carrierStateChanges, [⟨0x3000, 0x100, 12⟩], 0x03, 1⟩,
  ⟨.carrierLastDrop, [⟨0x3000, 0x100, 12⟩], 0x04, 1⟩,
  ⟨.bootStraps, [⟨0x2E00, 1, 1⟩], 0x01, 1⟩,
  ⟨.bootStatus, [⟨0x2E00, 1, 1⟩], 0x02, 1⟩,
  ⟨.bootSlot, [⟨0x2E00, 1, 1⟩], 0x03, 1⟩,
  ⟨.bootVersion, [⟨0x2E00, 1, 1⟩], 0x04, 1⟩,
  ⟨.bootLoadTime, [⟨0x2E00, 1, 1⟩], 0x05, 1⟩,
  ⟨.bootResetCause, [⟨0x2E00, 1, 1⟩], 0x06, 1⟩,
  ⟨.bootHostImage, [⟨0x2E01, 1, 1⟩], 0x01, 1⟩,
  ⟨.bootHostLoad, [⟨0x2E01, 1, 1⟩], 0x02, 1⟩]

/-- Objects of chapter 03_line_converters.md, part 1. -/
def objects03a : List Obj := [
  ⟨.reflState, [⟨0x2400, 1, 4⟩], 0x01, 1⟩,
  ⟨.reflOffset, [⟨0x2400, 1, 4⟩], 0x02, 1⟩,
  ⟨.reflLosses, [⟨0x2400, 1, 4⟩], 0x03, 1⟩,
  ⟨.adcState, [⟨0x4000, 0x20, 48⟩], 0x01, 1⟩,
  ⟨.adcSampleRate, [⟨0x4000, 0x20, 48⟩], 0x02, 1⟩,
  ⟨.adcClipCount, [⟨0x4000, 0x20, 48⟩], 0x03, 1⟩,
  ⟨.adcRms, [⟨0x4000, 0x20, 48⟩], 0x04, 1⟩,
  ⟨.adcAgcMode, [⟨0x4001, 0x20, 48⟩], 0x01, 1⟩,
  ⟨.adcAgcGain, [⟨0x4001, 0x20, 48⟩], 0x02, 1⟩,
  ⟨.adcAgcManualGain, [⟨0x4001, 0x20, 48⟩], 0x03, 1⟩,
  ⟨.adcAgcTarget, [⟨0x4001, 0x20, 48⟩], 0x04, 1⟩,
  ⟨.adcAgcHysteresis, [⟨0x4001, 0x20, 48⟩], 0x05, 1⟩,
  ⟨.adcAgcSteps, [⟨0x4001, 0x20, 48⟩], 0x06, 1⟩,
  ⟨.adcAgcAtLimit, [⟨0x4001, 0x20, 48⟩], 0x08, 1⟩,
  ⟨.adcOpenResult, [⟨0x4002, 0x20, 48⟩], 0x01, 1⟩,
  ⟨.adcOpenShiftP, [⟨0x4002, 0x20, 48⟩], 0x02, 1⟩,
  ⟨.adcOpenShiftN, [⟨0x4002, 0x20, 48⟩], 0x03, 1⟩,
  ⟨.dacState, [⟨0x4600, 0x20, 48⟩], 0x01, 1⟩,
  ⟨.dacSampleRate, [⟨0x4600, 0x20, 48⟩], 0x02, 1⟩,
  ⟨.dacEnable, [⟨0x4600, 0x20, 48⟩], 0x03, 1⟩,
  ⟨.dacSwing, [⟨0x4600, 0x20, 48⟩], 0x04, 1⟩,
  ⟨.dacShortState, [⟨0x4601, 0x20, 48⟩], 0x01, 1⟩,
  ⟨.dacShortRetryEnable, [⟨0x4601, 0x20, 48⟩], 0x02, 1⟩,
  ⟨.dacShortRetryInterval, [⟨0x4601, 0x20, 48⟩], 0x03, 1⟩,
  ⟨.dacShortEpisodes, [⟨0x4601, 0x20, 48⟩], 0x04, 1⟩,
  ⟨.dacShortRetries, [⟨0x4601, 0x20, 48⟩], 0x05, 1⟩,
  ⟨.carrierConvRxRate, [⟨0x3020, 0x100, 12⟩], 0x01, 1⟩,
  ⟨.carrierConvTxRate, [⟨0x3020, 0x100, 12⟩], 0x02, 1⟩,
  ⟨.carrierConvSynthState, [⟨0x3020, 0x100, 12⟩], 0x03, 1⟩,
  ⟨.carrierConvErasedSets, [⟨0x3020, 0x100, 12⟩], 0x04, 1⟩,
  ⟨.carrierConvShortPolicy, [⟨0x3020, 0x100, 12⟩], 0x05, 1⟩,
  ⟨.carrierWiringMode, [⟨0x3021, 0x100, 12⟩], 0x01, 1⟩,
  ⟨.carrierWiringFixedMap, [⟨0x3021, 0x100, 12⟩], 0x02, 1⟩,
  ⟨.carrierWiringAppliedMap, [⟨0x3021, 0x100, 12⟩], 0x03, 1⟩,
  ⟨.carrierWiringTxMap, [⟨0x3021, 0x100, 12⟩], 0x04, 1⟩,
  ⟨.carrierOpenTestRequest, [⟨0x3022, 0x100, 12⟩], 0x01, 1⟩,
  ⟨.carrierOpenTestBusy, [⟨0x3022, 0x100, 12⟩], 0x02, 1⟩]

/-- Objects of chapter 04_converter_calibration.md, part 1. -/
def objects04a : List Obj := [
  ⟨.calFgRequest, [⟨0xD000, 1, 1⟩], 0x01, 1⟩,
  ⟨.calFgBusy, [⟨0xD000, 1, 1⟩], 0x02, 1⟩,
  ⟨.calFgDuration, [⟨0xD000, 1, 1⟩], 0x03, 1⟩,
  ⟨.calBgEnable, [⟨0xD000, 1, 1⟩], 0x04, 1⟩,
  ⟨.calBgAdcInterval, [⟨0xD000, 1, 1⟩], 0x05, 1⟩,
  ⟨.calBgDacInterval, [⟨0xD000, 1, 1⟩], 0x06, 1⟩,
  ⟨.convCalState, [⟨0xD100, 1, 48⟩, ⟨0xD180, 1, 48⟩], 0x01, 1⟩,
  ⟨.convCalResting, [⟨0xD100, 1, 48⟩, ⟨0xD180, 1, 48⟩], 0x02, 1⟩,
  ⟨.convCalSuspect, [⟨0xD100, 1, 48⟩, ⟨0xD180, 1, 48⟩], 0x03, 1⟩,
  ⟨.convCalSteps, [⟨0xD100, 1, 48⟩, ⟨0xD180, 1, 48⟩], 0x04, 1⟩,
  ⟨.convCalRefusals, [⟨0xD100, 1, 48⟩, ⟨0xD180, 1, 48⟩], 0x05, 1⟩,
  ⟨.convCalLastLimit, [⟨0xD100, 1, 48⟩, ⟨0xD180, 1, 48⟩], 0x06, 1⟩,
  ⟨.convCalLastSlice, [⟨0xD100, 1, 48⟩, ⟨0xD180, 1, 48⟩], 0x07, 1⟩,
  ⟨.convCalLapTime, [⟨0xD100, 1, 48⟩, ⟨0xD180, 1, 48⟩], 0x08, 1⟩,
  ⟨.convCalRecords, [⟨0xD100, 1, 48⟩, ⟨0xD180, 1, 48⟩], 0x09, 1⟩,
  ⟨.convCalSlotMap, [⟨0xD100, 1, 48⟩, ⟨0xD180, 1, 48⟩], 0x0A, 1⟩,
  ⟨.convCalVgaTable, [⟨0xD100, 1, 48⟩, ⟨0xD180, 1, 48⟩], 0x0C, 1⟩]

/-- Objects of chapter 05_transmit_path.md, part 1. -/
def objects05a : List Obj := [
  ⟨.bankStandby, [⟨0x3031, 0x100, 12⟩, ⟨0x3032, 0x100, 12⟩, ⟨0x3033, 0x100, 12⟩, ⟨0x3035, 0x100, 12⟩, ⟨0x3040, 0x100, 12⟩, ⟨0x3045, 0x100, 12⟩], 0x08, 1⟩,
  ⟨.bankCommit, [⟨0x3031, 0x100, 12⟩, ⟨0x3032, 0x100, 12⟩, ⟨0x3033, 0x100, 12⟩, ⟨0x3035, 0x100, 12⟩, ⟨0x3040, 0x100, 12⟩, ⟨0x3045, 0x100, 12⟩], 0x09, 1⟩,
  ⟨.bankActiveBank, [⟨0x3031, 0x100, 12⟩, ⟨0x3032, 0x100, 12⟩, ⟨0x3033, 0x100, 12⟩, ⟨0x3035, 0x100, 12⟩, ⟨0x3040, 0x100, 12⟩, ⟨0x3045, 0x100, 12⟩], 0x0A, 1⟩,
  ⟨.bankCommits, [⟨0x3031, 0x100, 12⟩, ⟨0x3032, 0x100, 12⟩, ⟨0x3033, 0x100, 12⟩, ⟨0x3035, 0x100, 12⟩, ⟨0x3040, 0x100, 12⟩, ⟨0x3045, 0x100, 12⟩], 0x0B, 1⟩,
  ⟨.bankBusy, [⟨0x3031, 0x100, 12⟩, ⟨0x3032, 0x100, 12⟩, ⟨0x3033, 0x100, 12⟩, ⟨0x3035, 0x100, 12⟩, ⟨0x3040, 0x100, 12⟩, ⟨0x3045, 0x100, 12⟩], 0x0C, 1⟩,
  ⟨.carrierTxPilotBoost, [⟨0x3030, 0x100, 12⟩], 0x01, 1⟩,
  ⟨.carrierTxRmsTarget, [⟨0x3030, 0x100, 12⟩], 0x02, 1⟩,
  ⟨.carrierTxClips, [⟨0x3030, 0x100, 12⟩], 0x03, 1⟩,
  ⟨.carrierTxClipThreshold, [⟨0x3030, 0x100, 12⟩], 0x04, 1⟩,
  ⟨.carrierTxShapeMode, [⟨0x3031, 0x100, 12⟩], 0x01, 1⟩,
  ⟨.carrierTxShapeRolloff, [⟨0x3031, 0x100, 12⟩], 0x02, 1⟩,
  ⟨.carrierTxCdMode, [⟨0x3032, 0x100, 12⟩], 0x01, 1⟩,
  ⟨.carrierTxCdTarget, [⟨0x3032, 0x100, 12⟩], 0x02, 1⟩,
  ⟨.carrierTxCdFrequency, [⟨0x3032, 0x100, 12⟩], 0x03, 1⟩,
  ⟨.carrierTxSkewXi, [⟨0x3034, 0x100, 12⟩], 0x01, 1⟩,
  ⟨.carrierTxSkewXq, [⟨0x3034, 0x100, 12⟩], 0x02, 1⟩,
  ⟨.carrierTxSkewYi, [⟨0x3034, 0x100, 12⟩], 0x03, 1⟩,
  ⟨.carrierTxSkewYq, [⟨0x3034, 0x100, 12⟩], 0x04, 1⟩]

/-- Objects of chapter 06_receive_equalisation.md, part 1. -/
def objects06a : List Obj := [
  ⟨.carrierRxSkewXi, [⟨0x3041, 0x100, 12⟩], 0x01, 1⟩,
  ⟨.carrierRxSkewXq, [⟨0x3041, 0x100, 12⟩], 0x02, 1⟩,
  ⟨.carrierRxSkewYi, [⟨0x3041, 0x100, 12⟩], 0x03, 1⟩,
  ⟨.carrierRxSkewYq, [⟨0x3041, 0x100, 12⟩], 0x04, 1⟩,
  ⟨.carrierRxSkewResXi, [⟨0x3041, 0x100, 12⟩], 0x05, 1⟩,
  ⟨.carrierRxSkewResXq, [⟨0x3041, 0x100, 12⟩], 0x06, 1⟩,
  ⟨.carrierRxSkewResYi, [⟨0x3041, 0x100, 12⟩], 0x07, 1⟩,
  ⟨.carrierRxSkewResYq, [⟨0x3041, 0x100, 12⟩], 0x08, 1⟩,
  ⟨.carrierRxSkewAuto, [⟨0x3041, 0x100, 12⟩], 0x09, 1⟩,
  ⟨.carrierRxSkewFlaggedSets, [⟨0x3041, 0x100, 12⟩], 0x0A, 1⟩,
  ⟨.carrierRxSkewAutoSteps, [⟨0x3041, 0x100, 12⟩], 0x0B, 1⟩,
  ⟨.carrierRxFeEnable, [⟨0x3042, 0x100, 12⟩], 0x01, 1⟩,
  ⟨.carrierRxFeDcShift, [⟨0x3042, 0x100, 12⟩], 0x02, 1⟩,
  ⟨.carrierRxFeIqShift, [⟨0x3042, 0x100, 12⟩], 0x03, 1⟩,
  ⟨.carrierRxFePhaseX, [⟨0x3042, 0x100, 12⟩], 0x04, 1⟩,
  ⟨.carrierRxFePhaseY, [⟨0x3042, 0x100, 12⟩], 0x05, 1⟩,
  ⟨.carrierRxFeGainX, [⟨0x3042, 0x100, 12⟩], 0x06, 1⟩,
  ⟨.carrierRxFeGainY, [⟨0x3042, 0x100, 12⟩], 0x07, 1⟩,
  ⟨.carrierRxTimingBandwidth, [⟨0x3043, 0x100, 12⟩], 0x01, 1⟩,
  ⟨.carrierRxTimingState, [⟨0x3043, 0x100, 12⟩], 0x02, 1⟩,
  ⟨.carrierRxTimingOffset, [⟨0x3043, 0x100, 12⟩], 0x03, 1⟩,
  ⟨.carrierRxTimingUnlocks, [⟨0x3043, 0x100, 12⟩], 0x04, 1⟩,
  ⟨.carrierCdMode, [⟨0x3040, 0x100, 12⟩], 0x01, 1⟩,
  ⟨.carrierCdTarget, [⟨0x3040, 0x100, 12⟩], 0x02, 1⟩,
  ⟨.carrierCdFrequency, [⟨0x3040, 0x100, 12⟩], 0x03, 1⟩,
  ⟨.carrierCdApplied, [⟨0x3040, 0x100, 12⟩], 0x04, 1⟩,
  ⟨.carrierCdCorrection, [⟨0x3040, 0x100, 12⟩], 0x05, 1⟩,
  ⟨.carrierCdTrackEnable, [⟨0x3040, 0x100, 12⟩], 0x06, 1⟩,
  ⟨.carrierCdTrackThreshold, [⟨0x3040, 0x100, 12⟩], 0x07, 1⟩,
  ⟨.carrierCdReach, [⟨0x3040, 0x100, 12⟩], 0x0D, 1⟩,
  ⟨.carrierCdTrackSteps, [⟨0x3040, 0x100, 12⟩], 0x0E, 1⟩,
  ⟨.carrierCdReachStored, [⟨0x3040, 0x100, 12⟩], 0x0F, 1⟩,
  ⟨.carrierRxPolState, [⟨0x3044, 0x100, 12⟩], 0x01, 1⟩,
  ⟨.carrierRxPolInit, [⟨0x3044, 0x100, 12⟩], 0x02, 1⟩,
  ⟨.carrierRxPolKAcq, [⟨0x3044, 0x100, 12⟩], 0x03, 1⟩,
  ⟨.carrierRxPolKTrk, [⟨0x3044, 0x100, 12⟩], 0x04, 1⟩,
  ⟨.carrierRxPolCentring, [⟨0x3044, 0x100, 12⟩], 0x05, 1⟩,
  ⟨.carrierRxPolReinits, [⟨0x3044, 0x100, 12⟩], 0x06, 1⟩,
  ⟨.carrierRxPolTaps, [⟨0x3044, 0x100, 12⟩], 0x07, 1⟩,
  ⟨.carrierMonRaw, [⟨0x3048, 0x100, 12⟩, ⟨0x3049, 0x100, 12⟩, ⟨0x304A, 0x100, 12⟩, ⟨0x304B, 0x100, 12⟩, ⟨0x304C, 0x100, 12⟩, ⟨0x304D, 0x100, 12⟩, ⟨0x304E, 0x100, 12⟩], 0x01, 1⟩]

/-- Objects of chapter 06_receive_equalisation.md, part 2. -/
def objects06b : List Obj := [
  ⟨.carrierMonFiltered, [⟨0x3048, 0x100, 12⟩, ⟨0x3049, 0x100, 12⟩, ⟨0x304A, 0x100, 12⟩, ⟨0x304B, 0x100, 12⟩, ⟨0x304C, 0x100, 12⟩, ⟨0x304D, 0x100, 12⟩, ⟨0x304E, 0x100, 12⟩], 0x02, 1⟩,
  ⟨.carrierMonShift, [⟨0x3048, 0x100, 12⟩, ⟨0x3049, 0x100, 12⟩, ⟨0x304A, 0x100, 12⟩, ⟨0x304B, 0x100, 12⟩, ⟨0x304C, 0x100, 12⟩, ⟨0x304D, 0x100, 12⟩, ⟨0x304E, 0x100, 12⟩], 0x03, 1⟩,
  ⟨.carrierMonSet, [⟨0x3048, 0x100, 12⟩, ⟨0x3049, 0x100, 12⟩, ⟨0x304A, 0x100, 12⟩, ⟨0x304B, 0x100, 12⟩, ⟨0x304C, 0x100, 12⟩, ⟨0x304D, 0x100, 12⟩, ⟨0x304E, 0x100, 12⟩], 0x04, 1⟩,
  ⟨.carrierMonClear, [⟨0x3048, 0x100, 12⟩, ⟨0x3049, 0x100, 12⟩, ⟨0x304A, 0x100, 12⟩, ⟨0x304B, 0x100, 12⟩, ⟨0x304C, 0x100, 12⟩, ⟨0x304D, 0x100, 12⟩, ⟨0x304E, 0x100, 12⟩], 0x05, 1⟩,
  ⟨.carrierMonState, [⟨0x3048, 0x100, 12⟩, ⟨0x3049, 0x100, 12⟩, ⟨0x304A, 0x100, 12⟩, ⟨0x304B, 0x100, 12⟩, ⟨0x304C, 0x100, 12⟩, ⟨0x304D, 0x100, 12⟩, ⟨0x304E, 0x100, 12⟩], 0x06, 1⟩,
  ⟨.carrierMonCrossings, [⟨0x3048, 0x100, 12⟩, ⟨0x3049, 0x100, 12⟩, ⟨0x304A, 0x100, 12⟩, ⟨0x304B, 0x100, 12⟩, ⟨0x304C, 0x100, 12⟩, ⟨0x304D, 0x100, 12⟩, ⟨0x304E, 0x100, 12⟩], 0x07, 1⟩,
  ⟨.carrierRxFreeze, [⟨0x3046, 0x100, 12⟩], 0x01, 1⟩,
  ⟨.carrierRxErasedSymbols, [⟨0x3046, 0x100, 12⟩], 0x02, 1⟩,
  ⟨.carrierRxHolding, [⟨0x3046, 0x100, 12⟩], 0x03, 1⟩]

/-- Objects of chapter 07_superchannel.md, part 1. -/
def objects07a : List Obj := [
  ⟨.carrierNcEnable, [⟨0x3050, 0x100, 12⟩], 0x01, 1⟩,
  ⟨.carrierNcLower, [⟨0x3050, 0x100, 12⟩], 0x02, 1⟩,
  ⟨.carrierNcUpper, [⟨0x3050, 0x100, 12⟩], 0x03, 1⟩,
  ⟨.carrierNcSpacing, [⟨0x3050, 0x100, 12⟩], 0x04, 1⟩,
  ⟨.carrierNcStep, [⟨0x3050, 0x100, 12⟩], 0x05, 1⟩,
  ⟨.carrierNcQualityFloor, [⟨0x3050, 0x100, 12⟩], 0x06, 1⟩,
  ⟨.carrierNcGuard, [⟨0x3050, 0x100, 12⟩], 0x07, 1⟩,
  ⟨.carrierNcPark, [⟨0x3050, 0x100, 12⟩], 0x08, 1⟩,
  ⟨.carrierNcInForce, [⟨0x3050, 0x100, 12⟩], 0x09, 1⟩,
  ⟨.carrierNcLowerInForce, [⟨0x3050, 0x100, 12⟩], 0x0A, 1⟩,
  ⟨.carrierNcUpperInForce, [⟨0x3050, 0x100, 12⟩], 0x0B, 1⟩,
  ⟨.carrierNcSpacingInForce, [⟨0x3050, 0x100, 12⟩], 0x0C, 1⟩,
  ⟨.carrierNcSideState, [⟨0x3051, 0x100, 12⟩, ⟨0x3052, 0x100, 12⟩], 0x01, 1⟩,
  ⟨.carrierNcSideLosses, [⟨0x3051, 0x100, 12⟩, ⟨0x3052, 0x100, 12⟩], 0x02, 1⟩,
  ⟨.carrierNcSideOutOfWindow, [⟨0x3051, 0x100, 12⟩, ⟨0x3052, 0x100, 12⟩], 0x03, 1⟩,
  ⟨.carrierNcSideTaps, [⟨0x3051, 0x100, 12⟩, ⟨0x3052, 0x100, 12⟩], 0x04, 1⟩,
  ⟨.carrierNcSideLeakage, [⟨0x3051, 0x100, 12⟩, ⟨0x3052, 0x100, 12⟩], 0x05, 1⟩,
  ⟨.carrierCrState, [⟨0x3054, 0x100, 12⟩], 0x01, 1⟩,
  ⟨.carrierCrFreqOffset, [⟨0x3054, 0x100, 12⟩], 0x02, 1⟩,
  ⟨.carrierCrBandwidth, [⟨0x3054, 0x100, 12⟩], 0x03, 1⟩,
  ⟨.carrierCrWindow, [⟨0x3054, 0x100, 12⟩], 0x04, 1⟩,
  ⟨.carrierCrSlipsResolved, [⟨0x3054, 0x100, 12⟩], 0x05, 1⟩,
  ⟨.carrierCrSlipsUnresolved, [⟨0x3054, 0x100, 12⟩], 0x06, 1⟩]

/-- Objects of chapter 08_catch.md, part 1. -/
def objects08a : List Obj := [
  ⟨.carrierCatchCount, [⟨0x3060, 0x100, 12⟩], 0x01, 1⟩,
  ⟨.catchRate, [⟨0x3060, 0x100, 12⟩], 0x02, 8⟩,
  ⟨.carrierCatchState, [⟨0x3061, 0x100, 12⟩], 0x01, 1⟩,
  ⟨.catchCaughtRate, [⟨0x3061, 0x100, 12⟩], 0x02, 1⟩,
  ⟨.carrierCatchCandidate, [⟨0x3061, 0x100, 12⟩], 0x03, 1⟩,
  ⟨.carrierCatchGates, [⟨0x3061, 0x100, 12⟩], 0x04, 1⟩,
  ⟨.carrierCatchMetric, [⟨0x3061, 0x100, 12⟩], 0x05, 1⟩,
  ⟨.carrierCatchPilotSnr, [⟨0x3061, 0x100, 12⟩], 0x06, 1⟩,
  ⟨.carrierCatchConfirmations, [⟨0x3061, 0x100, 12⟩], 0x07, 1⟩,
  ⟨.carrierCatchEntries, [⟨0x3061, 0x100, 12⟩], 0x08, 1⟩,
  ⟨.carrierCatchAbandons, [⟨0x3061, 0x100, 12⟩], 0x09, 1⟩,
  ⟨.carrierCatchPreemptions, [⟨0x3061, 0x100, 12⟩], 0x0A, 1⟩,
  ⟨.carrierCatchTime, [⟨0x3061, 0x100, 12⟩], 0x0B, 1⟩,
  ⟨.carrierCatchFreqHandover, [⟨0x3061, 0x100, 12⟩], 0x0C, 1⟩,
  ⟨.carrierCatchMatchKind, [⟨0x3061, 0x100, 12⟩], 0x0D, 1⟩,
  ⟨.carrierCatchListInForce, [⟨0x3061, 0x100, 12⟩], 0x0E, 1⟩,
  ⟨.carrierCatchFrames, [⟨0x3061, 0x100, 12⟩], 0x0F, 1⟩,
  ⟨.carrierCatchWindow, [⟨0x3062, 0x100, 12⟩], 0x01, 1⟩,
  ⟨.carrierCatchGateFloor, [⟨0x3062, 0x100, 12⟩], 0x02, 1⟩,
  ⟨.carrierCatchFreqRange, [⟨0x3062, 0x100, 12⟩], 0x03, 1⟩,
  ⟨.carrierCatchDetect, [⟨0x3062, 0x100, 12⟩], 0x04, 1⟩,
  ⟨.carrierCatchConfirm, [⟨0x3062, 0x100, 12⟩], 0x05, 1⟩,
  ⟨.carrierCatchSnrFloor, [⟨0x3062, 0x100, 12⟩], 0x06, 1⟩,
  ⟨.carrierCatchPreemptMargin, [⟨0x3062, 0x100, 12⟩], 0x07, 1⟩,
  ⟨.carrierCatchFailLimit, [⟨0x3062, 0x100, 12⟩], 0x08, 1⟩,
  ⟨.carrierCatchQualityMode, [⟨0x3063, 0x100, 12⟩], 0x01, 1⟩,
  ⟨.carrierCatchLevel, [⟨0x3063, 0x100, 12⟩], 0x02, 1⟩,
  ⟨.carrierCatchLevelValid, [⟨0x3063, 0x100, 12⟩], 0x03, 1⟩,
  ⟨.carrierCatchLevelUpdates, [⟨0x3063, 0x100, 12⟩], 0x04, 1⟩,
  ⟨.carrierCatchLockSnr, [⟨0x3063, 0x100, 12⟩], 0x05, 1⟩]

/-- Objects of chapter 09_coding.md, part 1. -/
def objects09a : List Obj := [
  ⟨.carrierFecProfile, [⟨0x3070, 0x100, 12⟩], 0x01, 1⟩,
  ⟨.carrierFecModulation, [⟨0x3070, 0x100, 12⟩], 0x02, 1⟩,
  ⟨.carrierFecEntropy, [⟨0x3070, 0x100, 12⟩], 0x03, 1⟩,
  ⟨.carrierFecPayload, [⟨0x3070, 0x100, 12⟩], 0x04, 1⟩,
  ⟨.carrierFecTxRate, [⟨0x3070, 0x100, 12⟩], 0x05, 1⟩,
  ⟨.carrierFecRxRate, [⟨0x3070, 0x100, 12⟩], 0x06, 1⟩,
  ⟨.carrierFecIterationCap, [⟨0x3070, 0x100, 12⟩], 0x07, 1⟩,
  ⟨.carrierFecProfileInForce, [⟨0x3071, 0x100, 12⟩], 0x01, 1⟩,
  ⟨.carrierFecModulationInForce, [⟨0x3071, 0x100, 12⟩], 0x02, 1⟩,
  ⟨.carrierFecTxEntropy, [⟨0x3071, 0x100, 12⟩], 0x03, 1⟩,
  ⟨.carrierFecRxEntropy, [⟨0x3071, 0x100, 12⟩], 0x04, 1⟩,
  ⟨.carrierFecTxKdm, [⟨0x3071, 0x100, 12⟩], 0x05, 1⟩,
  ⟨.carrierFecRxKdm, [⟨0x3071, 0x100, 12⟩], 0x06, 1⟩,
  ⟨.carrierFecTxCapacity, [⟨0x3071, 0x100, 12⟩], 0x07, 1⟩,
  ⟨.carrierFecRxCapacity, [⟨0x3071, 0x100, 12⟩], 0x08, 1⟩,
  ⟨.carrierFecTxNeed, [⟨0x3071, 0x100, 12⟩], 0x09, 1⟩,
  ⟨.carrierFecRxNeed, [⟨0x3071, 0x100, 12⟩], 0x0A, 1⟩,
  ⟨.carrierFecCapInForce, [⟨0x3071, 0x100, 12⟩], 0x0B, 1⟩,
  ⟨.carrierFecTxComposition, [⟨0x3071, 0x100, 12⟩], 0x0C, 1⟩,
  ⟨.carrierFecTxLineEntropy, [⟨0x3071, 0x100, 12⟩], 0x0D, 1⟩,
  ⟨.carrierFecBits, [⟨0x3072, 0x100, 12⟩], 0x01, 1⟩,
  ⟨.carrierFecCorrected, [⟨0x3072, 0x100, 12⟩], 0x02, 1⟩,
  ⟨.carrierFecCodewords, [⟨0x3072, 0x100, 12⟩], 0x03, 1⟩,
  ⟨.carrierFecCwFailed, [⟨0x3072, 0x100, 12⟩], 0x04, 1⟩,
  ⟨.carrierFecLadderRowsCorrected, [⟨0x3072, 0x100, 12⟩], 0x05, 1⟩,
  ⟨.carrierFecLadderBitsCorrected, [⟨0x3072, 0x100, 12⟩], 0x06, 1⟩,
  ⟨.carrierFecUncorrectable, [⟨0x3072, 0x100, 12⟩], 0x07, 1⟩,
  ⟨.carrierFecIterations, [⟨0x3072, 0x100, 12⟩], 0x08, 1⟩,
  ⟨.carrierFecPreFecBer, [⟨0x3072, 0x100, 12⟩], 0x09, 1⟩,
  ⟨.carrierFecDmMismatch, [⟨0x3072, 0x100, 12⟩], 0x0A, 1⟩,
  ⟨.carrierFecBerWarning, [⟨0x3072, 0x100, 12⟩], 0x0B, 1⟩,
  ⟨.carrierFecPhaseMismatch, [⟨0x3072, 0x100, 12⟩], 0x0C, 1⟩,
  ⟨.baseMatrixLong, [⟨0x2F40, 1, 1⟩], 0x01, 1⟩,
  ⟨.baseMatrixSprint, [⟨0x2F40, 1, 1⟩], 0x02, 1⟩]

/-- Objects of chapter 10_line_frame.md, part 1. -/
def objects10a : List Obj := [
  ⟨.tsiRowSelect, [⟨0x6800, 1, 2⟩], 0x01, 1⟩,
  ⟨.tsiStandbyRow, [⟨0x6800, 1, 2⟩], 0x02, 1⟩,
  ⟨.tsiActiveRow, [⟨0x6800, 1, 2⟩], 0x03, 1⟩,
  ⟨.tsiStandbyPage, [⟨0x6800, 1, 2⟩], 0x04, 1⟩,
  ⟨.tsiActivePage, [⟨0x6800, 1, 2⟩], 0x05, 1⟩,
  ⟨.tsiFlip, [⟨0x6800, 1, 2⟩], 0x06, 1⟩,
  ⟨.tsiPending, [⟨0x6800, 1, 2⟩], 0x07, 1⟩,
  ⟨.tsiFlips, [⟨0x6800, 1, 2⟩], 0x08, 1⟩,
  ⟨.tsiRefusal, [⟨0x6800, 1, 2⟩], 0x09, 1⟩,
  ⟨.tsiRxFollow, [⟨0x6801, 1, 1⟩], 0x0A, 1⟩,
  ⟨.tribRxSelect, [⟨0x6802, 1, 1⟩], 0x01, 1⟩,
  ⟨.tribRxFill, [⟨0x6802, 1, 1⟩], 0x02, 1⟩,
  ⟨.tribRxCsf, [⟨0x6802, 1, 1⟩], 0x03, 1⟩,
  ⟨.tribRxCm, [⟨0x6802, 1, 1⟩], 0x04, 1⟩,
  ⟨.tribRxCapacity, [⟨0x6802, 1, 1⟩], 0x05, 1⟩,
  ⟨.tribRxCmLost, [⟨0x6802, 1, 1⟩], 0x06, 1⟩,
  ⟨.carrierDefectDeclared, [⟨0x3080, 0x100, 12⟩], 0x01, 1⟩,
  ⟨.carrierDefectRaw, [⟨0x3080, 0x100, 12⟩], 0x02, 1⟩,
  ⟨.carrierDefectSticky, [⟨0x3080, 0x100, 12⟩], 0x03, 1⟩,
  ⟨.defectSetTime, [⟨0x3081, 0x100, 12⟩], 0x01, 10⟩,
  ⟨.defectClearTime, [⟨0x3082, 0x100, 12⟩], 0x01, 10⟩,
  ⟨.carrierDefectLosSources, [⟨0x3083, 0x100, 12⟩], 0x01, 1⟩,
  ⟨.carrierDefectLosFloor, [⟨0x3083, 0x100, 12⟩], 0x02, 1⟩,
  ⟨.carrierDefectDegThreshold, [⟨0x3083, 0x100, 12⟩], 0x03, 1⟩,
  ⟨.carrierDefectDegSeconds, [⟨0x3083, 0x100, 12⟩], 0x04, 1⟩,
  ⟨.carrierDefectTimMode, [⟨0x3083, 0x100, 12⟩], 0x05, 1⟩,
  ⟨.carrierDefectTimAction, [⟨0x3083, 0x100, 12⟩], 0x06, 1⟩,
  ⟨.carrierTtiTransmit, [⟨0x3084, 0x100, 12⟩], 0x01, 1⟩,
  ⟨.carrierTtiExpected, [⟨0x3084, 0x100, 12⟩], 0x02, 1⟩,
  ⟨.carrierTtiAccepted, [⟨0x3084, 0x100, 12⟩], 0x03, 1⟩,
  ⟨.carrierTtiValid, [⟨0x3084, 0x100, 12⟩], 0x04, 1⟩,
  ⟨.carrierOhBipErrors, [⟨0x3085, 0x100, 12⟩], 0x01, 1⟩,
  ⟨.carrierOhBeiReceived, [⟨0x3085, 0x100, 12⟩], 0x02, 1⟩,
  ⟨.carrierOhSlotMismatch, [⟨0x3085, 0x100, 12⟩], 0x03, 1⟩,
  ⟨.carrierOhCmLost, [⟨0x3085, 0x100, 12⟩], 0x04, 1⟩,
  ⟨.carrierOhLateFlips, [⟨0x3085, 0x100, 12⟩], 0x05, 1⟩,
  ⟨.carrierOhBadStat, [⟨0x3085, 0x100, 12⟩], 0x06, 1⟩,
  ⟨.carrierOhForceBdi, [⟨0x3086, 0x100, 12⟩], 0x01, 1⟩,
  ⟨.carrierOhForceAis, [⟨0x3086, 0x100, 12⟩], 0x02, 1⟩,
  ⟨.carrierOhBdiAuto, [⟨0x3086, 0x100, 12⟩], 0x03, 1⟩]

/-- Objects of chapter 10_line_frame.md, part 2. -/
def objects10b : List Obj := [
  ⟨.carrierOhStatSent, [⟨0x3086, 0x100, 12⟩], 0x04, 1⟩,
  ⟨.carrierOhpEnable, [⟨0x3090, 0x100, 12⟩], 0x01, 1⟩,
  ⟨.carrierOhpOutBursts, [⟨0x3090, 0x100, 12⟩], 0x02, 1⟩,
  ⟨.carrierOhpInBursts, [⟨0x3090, 0x100, 12⟩], 0x03, 1⟩,
  ⟨.carrierOhpOutDropped, [⟨0x3090, 0x100, 12⟩], 0x04, 1⟩]

/-- Objects of chapter 11_flows.md, part 1. -/
def objects11a : List Obj := [
  ⟨.clsKey, [⟨0x6000, 1, 1⟩], 0x01, 1⟩,
  ⟨.clsFlow, [⟨0x6000, 1, 1⟩], 0x02, 1⟩,
  ⟨.clsOp, [⟨0x6000, 1, 1⟩], 0x03, 1⟩,
  ⟨.clsBusy, [⟨0x6000, 1, 1⟩], 0x04, 1⟩,
  ⟨.clsResult, [⟨0x6000, 1, 1⟩], 0x05, 1⟩,
  ⟨.clsEntries, [⟨0x6000, 1, 1⟩], 0x06, 1⟩,
  ⟨.clsFound, [⟨0x6000, 1, 1⟩], 0x07, 1⟩,
  ⟨.clsTable, [⟨0x6000, 1, 1⟩], 0x08, 1⟩,
  ⟨.clsLoad, [⟨0x6000, 1, 1⟩], 0x09, 1⟩,
  ⟨.portClsMode, [⟨0x5C08, 0x10, 48⟩], 0x01, 1⟩,
  ⟨.portClsDefaultFlow, [⟨0x5C08, 0x10, 48⟩], 0x02, 1⟩,
  ⟨.portClsTpidSet, [⟨0x5C08, 0x10, 48⟩], 0x03, 1⟩,
  ⟨.portClsUnclassified, [⟨0x5C08, 0x10, 48⟩], 0x04, 1⟩,
  ⟨.portClsDisabledFlow, [⟨0x5C08, 0x10, 48⟩], 0x05, 1⟩,
  ⟨.portClsErrored, [⟨0x5C08, 0x10, 48⟩], 0x06, 1⟩,
  ⟨.portPfcSent, [⟨0x5C08, 0x10, 48⟩], 0x07, 1⟩,
  ⟨.portPfcReceived, [⟨0x5C08, 0x10, 48⟩], 0x08, 1⟩,
  ⟨.portPfcHeldMask, [⟨0x5C08, 0x10, 48⟩], 0x09, 1⟩,
  ⟨.portPfcAssertedMask, [⟨0x5C08, 0x10, 48⟩], 0x0A, 1⟩,
  ⟨.portRxUnmatched, [⟨0x5C08, 0x10, 48⟩], 0x0B, 1⟩,
  ⟨.flowSelect, [⟨0x6100, 1, 1⟩], 0x01, 1⟩,
  ⟨.flowEntry, [⟨0x6100, 1, 1⟩], 0x02, 1⟩,
  ⟨.flowFill, [⟨0x6100, 1, 1⟩], 0x03, 1⟩,
  ⟨.flowPeak, [⟨0x6100, 1, 1⟩], 0x04, 1⟩,
  ⟨.flowDepthDrops, [⟨0x6100, 1, 1⟩], 0x05, 1⟩,
  ⟨.flowPoolDrops, [⟨0x6100, 1, 1⟩], 0x06, 1⟩,
  ⟨.flowOverruns, [⟨0x6100, 1, 1⟩], 0x07, 1⟩,
  ⟨.flowAsserting, [⟨0x6100, 1, 1⟩], 0x08, 1⟩,
  ⟨.flowFlushed, [⟨0x6100, 1, 1⟩], 0x09, 1⟩,
  ⟨.flowTable, [⟨0x6100, 1, 1⟩], 0x0A, 1⟩,
  ⟨.poolFree, [⟨0x6102, 1, 1⟩], 0x01, 1⟩,
  ⟨.poolLow, [⟨0x6102, 1, 1⟩], 0x02, 1⟩,
  ⟨.poolPauseLevel, [⟨0x6102, 1, 1⟩], 0x03, 1⟩,
  ⟨.poolDrops, [⟨0x6102, 1, 1⟩], 0x04, 1⟩,
  ⟨.calSelect, [⟨0x6200, 1, 1⟩], 0x01, 1⟩,
  ⟨.calStandbyEntry, [⟨0x6200, 1, 1⟩], 0x02, 1⟩,
  ⟨.calActiveEntry, [⟨0x6200, 1, 1⟩], 0x03, 1⟩,
  ⟨.calStandbyPage, [⟨0x6200, 1, 1⟩], 0x04, 1⟩,
  ⟨.calActivePage, [⟨0x6200, 1, 1⟩], 0x05, 1⟩,
  ⟨.calFlip, [⟨0x6200, 1, 1⟩], 0x06, 1⟩]

/-- Objects of chapter 11_flows.md, part 2. -/
def objects11b : List Obj := [
  ⟨.calPending, [⟨0x6200, 1, 1⟩], 0x07, 1⟩,
  ⟨.calFlips, [⟨0x6200, 1, 1⟩], 0x08, 1⟩,
  ⟨.calRefusal, [⟨0x6200, 1, 1⟩], 0x09, 1⟩,
  ⟨.calSlips, [⟨0x6200, 1, 1⟩], 0x0A, 1⟩,
  ⟨.spanSelect, [⟨0x6201, 1, 1⟩], 0x01, 1⟩,
  ⟨.spanStandby, [⟨0x6201, 1, 1⟩], 0x02, 1⟩,
  ⟨.spanActive, [⟨0x6201, 1, 1⟩], 0x03, 1⟩,
  ⟨.spanStandbyAll, [⟨0x6201, 1, 1⟩], 0x04, 1⟩,
  ⟨.spanActiveAll, [⟨0x6201, 1, 1⟩], 0x05, 1⟩,
  ⟨.tribEgressSelect, [⟨0x6900, 1, 1⟩], 0x01, 1⟩,
  ⟨.tribEgressRow, [⟨0x6900, 1, 1⟩], 0x02, 1⟩,
  ⟨.tribEgressDropped, [⟨0x6900, 1, 1⟩], 0x03, 1⟩,
  ⟨.tribEgressHecCorrected, [⟨0x6900, 1, 1⟩], 0x04, 1⟩,
  ⟨.tribEgressDelineationLosses, [⟨0x6900, 1, 1⟩], 0x05, 1⟩,
  ⟨.tribEgressTable, [⟨0x6900, 1, 1⟩], 0x06, 1⟩,
  ⟨.groupMembers, [⟨0x7800, 0x10, 6⟩], 0x01, 1⟩,
  ⟨.groupHeadroom, [⟨0x7800, 0x10, 6⟩], 0x02, 1⟩,
  ⟨.groupPolicy, [⟨0x7800, 0x10, 6⟩], 0x03, 1⟩,
  ⟨.groupRealign, [⟨0x7800, 0x10, 6⟩], 0x04, 1⟩,
  ⟨.groupAlignWait, [⟨0x7800, 0x10, 6⟩], 0x05, 1⟩,
  ⟨.groupState, [⟨0x7800, 0x10, 6⟩], 0x06, 1⟩,
  ⟨.groupSkew, [⟨0x7800, 0x10, 6⟩], 0x07, 1⟩,
  ⟨.groupHeadroomLeft, [⟨0x7800, 0x10, 6⟩], 0x08, 1⟩,
  ⟨.groupLongestHold, [⟨0x7800, 0x10, 6⟩], 0x09, 1⟩,
  ⟨.groupRealigns, [⟨0x7800, 0x10, 6⟩], 0x0A, 1⟩,
  ⟨.carrierBondGroup, [⟨0x7900, 0x10, 12⟩], 0x01, 1⟩,
  ⟨.carrierBondState, [⟨0x7900, 0x10, 12⟩], 0x02, 1⟩,
  ⟨.carrierBondHold, [⟨0x7900, 0x10, 12⟩], 0x03, 1⟩,
  ⟨.carrierBondBsq, [⟨0x7900, 0x10, 12⟩], 0x04, 1⟩,
  ⟨.carrierBondAlignments, [⟨0x7900, 0x10, 12⟩], 0x05, 1⟩,
  ⟨.carrierBondWindowExits, [⟨0x7900, 0x10, 12⟩], 0x06, 1⟩,
  ⟨.carrierBondTxInSequence, [⟨0x7900, 0x10, 12⟩], 0x07, 1⟩]

/-- Objects of chapter 12_cipher.md, part 1. -/
def objects12a : List Obj := [
  ⟨.cipherCoresInService, [⟨0x7000, 1, 1⟩], 0x01, 1⟩,
  ⟨.cipherRetired, [⟨0x7000, 1, 1⟩], 0x02, 1⟩,
  ⟨.cipherMismatches, [⟨0x7000, 1, 1⟩], 0x03, 1⟩,
  ⟨.cipherDemand, [⟨0x7000, 1, 1⟩], 0x04, 1⟩,
  ⟨.cipherCapacity, [⟨0x7000, 1, 1⟩], 0x05, 1⟩,
  ⟨.cipherShed, [⟨0x7000, 1, 1⟩], 0x06, 1⟩,
  ⟨.cipherKeyprov, [⟨0x7000, 1, 1⟩], 0x07, 1⟩,
  ⟨.cipherZero, [⟨0x7000, 1, 1⟩], 0x08, 1⟩,
  ⟨.kekState, [⟨0x7001, 1, 4⟩], 0x01, 1⟩,
  ⟨.kekValue, [⟨0x7001, 1, 4⟩], 0x02, 1⟩,
  ⟨.kekOp, [⟨0x7001, 1, 4⟩], 0x03, 1⟩,
  ⟨.kekKcv, [⟨0x7001, 1, 4⟩], 0x04, 1⟩,
  ⟨.kekRefusal, [⟨0x7001, 1, 4⟩], 0x05, 1⟩,
  ⟨.slotSelect, [⟨0x7010, 1, 1⟩], 0x01, 1⟩,
  ⟨.slotLoad, [⟨0x7010, 1, 1⟩], 0x02, 1⟩,
  ⟨.slotErase, [⟨0x7010, 1, 1⟩], 0x03, 1⟩,
  ⟨.slotStatus, [⟨0x7010, 1, 1⟩], 0x04, 1⟩,
  ⟨.slotCounter, [⟨0x7010, 1, 1⟩], 0x05, 1⟩,
  ⟨.slotRefusal, [⟨0x7010, 1, 1⟩], 0x06, 1⟩,
  ⟨.slotKidActive, [⟨0x7010, 1, 1⟩], 0x07, 1⟩,
  ⟨.slotKidNext, [⟨0x7010, 1, 1⟩], 0x08, 1⟩,
  ⟨.slotLease, [⟨0x7010, 1, 1⟩], 0x09, 1⟩,
  ⟨.slotLoads, [⟨0x7010, 1, 1⟩], 0x0A, 1⟩,
  ⟨.slotLeaseOverruns, [⟨0x7010, 1, 1⟩], 0x0B, 1⟩,
  ⟨.bindSelect, [⟨0x7100, 1, 2⟩], 0x01, 1⟩,
  ⟨.bindEntry, [⟨0x7100, 1, 2⟩], 0x02, 1⟩,
  ⟨.bindInForce, [⟨0x7100, 1, 2⟩], 0x03, 1⟩,
  ⟨.bindTable, [⟨0x7100, 1, 2⟩], 0x04, 1⟩,
  ⟨.cryptSelect, [⟨0x7200, 1, 1⟩], 0x01, 1⟩,
  ⟨.cryptTxBlocks, [⟨0x7200, 1, 1⟩], 0x02, 1⟩,
  ⟨.cryptTxRefused, [⟨0x7200, 1, 1⟩], 0x03, 1⟩,
  ⟨.cryptRxBlocks, [⟨0x7200, 1, 1⟩], 0x04, 1⟩,
  ⟨.cryptRxTagFailures, [⟨0x7200, 1, 1⟩], 0x05, 1⟩,
  ⟨.cryptRxKeyMismatch, [⟨0x7200, 1, 1⟩], 0x06, 1⟩,
  ⟨.cryptRxModeMismatch, [⟨0x7200, 1, 1⟩], 0x07, 1⟩,
  ⟨.cryptRxHeaderErrors, [⟨0x7200, 1, 1⟩], 0x08, 1⟩,
  ⟨.cryptRxRefused, [⟨0x7200, 1, 1⟩], 0x09, 1⟩,
  ⟨.cryptRxOverheadGen, [⟨0x7200, 1, 1⟩], 0x0A, 1⟩,
  ⟨.cryptTxGen, [⟨0x7200, 1, 1⟩], 0x0B, 1⟩]

/-- Objects of chapter 13_host_lanes.md, part 1. -/
def objects13a : List Obj := [
  ⟨.lanePower, [⟨0x5000, 0x20, 96⟩], 0x01, 1⟩,
  ⟨.laneState, [⟨0x5000, 0x20, 96⟩], 0x02, 1⟩,
  ⟨.laneRxPolMode, [⟨0x5000, 0x20, 96⟩], 0x03, 1⟩,
  ⟨.laneRxPolFixed, [⟨0x5000, 0x20, 96⟩], 0x04, 1⟩,
  ⟨.laneRxPolApplied, [⟨0x5000, 0x20, 96⟩], 0x05, 1⟩,
  ⟨.laneTxInvert, [⟨0x5000, 0x20, 96⟩], 0x06, 1⟩,
  ⟨.laneBringups, [⟨0x5000, 0x20, 96⟩], 0x07, 1⟩,
  ⟨.laneLosAssert, [⟨0x5000, 0x20, 96⟩], 0x08, 1⟩,
  ⟨.laneLosClear, [⟨0x5000, 0x20, 96⟩], 0x09, 1⟩,
  ⟨.laneLosRaw, [⟨0x5000, 0x20, 96⟩], 0x0A, 1⟩,
  ⟨.laneLock, [⟨0x5000, 0x20, 96⟩], 0x0B, 1⟩,
  ⟨.laneLockLosses, [⟨0x5000, 0x20, 96⟩], 0x0C, 1⟩,
  ⟨.laneCtleMode, [⟨0x5001, 0x20, 96⟩], 0x01, 1⟩,
  ⟨.laneCtleFixed, [⟨0x5001, 0x20, 96⟩], 0x02, 1⟩,
  ⟨.laneCtleApplied, [⟨0x5001, 0x20, 96⟩], 0x03, 1⟩,
  ⟨.laneDfeTaps, [⟨0x5001, 0x20, 96⟩], 0x04, 1⟩,
  ⟨.laneDfeFreeze, [⟨0x5001, 0x20, 96⟩], 0x05, 1⟩,
  ⟨.laneDfeThreshold, [⟨0x5001, 0x20, 96⟩], 0x06, 1⟩,
  ⟨.laneEyeSnr, [⟨0x5001, 0x20, 96⟩], 0x07, 1⟩,
  ⟨.laneTxSwing, [⟨0x5002, 0x20, 96⟩], 0x01, 1⟩,
  ⟨.laneTxPre2, [⟨0x5002, 0x20, 96⟩], 0x02, 1⟩,
  ⟨.laneTxPre1, [⟨0x5002, 0x20, 96⟩], 0x03, 1⟩,
  ⟨.laneTxPost1, [⟨0x5002, 0x20, 96⟩], 0x04, 1⟩,
  ⟨.laneTxMain, [⟨0x5002, 0x20, 96⟩], 0x05, 1⟩,
  ⟨.lanePairFault, [⟨0x5003, 0x20, 96⟩], 0x01, 1⟩,
  ⟨.lanePairCmP, [⟨0x5003, 0x20, 96⟩], 0x02, 1⟩,
  ⟨.lanePairCmN, [⟨0x5003, 0x20, 96⟩], 0x03, 1⟩,
  ⟨.lanePairTest, [⟨0x5003, 0x20, 96⟩], 0x04, 1⟩,
  ⟨.lanePairTestReading, [⟨0x5003, 0x20, 96⟩], 0x05, 1⟩,
  ⟨.octetOrderMode, [⟨0x5010, 0x100, 12⟩], 0x01, 1⟩,
  ⟨.octetOrderFound, [⟨0x5010, 0x100, 12⟩], 0x02, 1⟩,
  ⟨.octetTxOrder, [⟨0x5010, 0x100, 12⟩], 0x03, 1⟩,
  ⟨.portRate, [⟨0x5C00, 0x10, 48⟩], 0x01, 1⟩,
  ⟨.portEnable, [⟨0x5C00, 0x10, 48⟩], 0x02, 1⟩,
  ⟨.portUpHold, [⟨0x5C00, 0x10, 48⟩], 0x03, 1⟩,
  ⟨.portMaxFrame, [⟨0x5C00, 0x10, 48⟩], 0x04, 1⟩,
  ⟨.portEgressGap, [⟨0x5C00, 0x10, 48⟩], 0x05, 1⟩,
  ⟨.portState, [⟨0x5C01, 0x10, 48⟩], 0x01, 1⟩,
  ⟨.portFaultCause, [⟨0x5C01, 0x10, 48⟩], 0x02, 1⟩,
  ⟨.portFaults, [⟨0x5C01, 0x10, 48⟩], 0x03, 1⟩]

/-- Objects of chapter 13_host_lanes.md, part 2. -/
def objects13b : List Obj := [
  ⟨.portRfReceived, [⟨0x5C01, 0x10, 48⟩], 0x04, 1⟩,
  ⟨.portSending, [⟨0x5C01, 0x10, 48⟩], 0x05, 1⟩,
  ⟨.portFecCorrected, [⟨0x5C02, 0x10, 48⟩], 0x01, 1⟩,
  ⟨.portFecUncorrected, [⟨0x5C02, 0x10, 48⟩], 0x02, 1⟩,
  ⟨.portFecSymbols, [⟨0x5C02, 0x10, 48⟩], 0x03, 1⟩,
  ⟨.portRmFill, [⟨0x5C03, 0x10, 48⟩], 0x01, 1⟩,
  ⟨.portRmInserted, [⟨0x5C03, 0x10, 48⟩], 0x02, 1⟩,
  ⟨.portRmDeleted, [⟨0x5C03, 0x10, 48⟩], 0x03, 1⟩,
  ⟨.portRmSlips, [⟨0x5C03, 0x10, 48⟩], 0x04, 1⟩,
  ⟨.lanePrbsGen, [⟨0xF100, 1, 96⟩], 0x01, 1⟩,
  ⟨.lanePrbsCheck, [⟨0xF100, 1, 96⟩], 0x02, 1⟩,
  ⟨.lanePrbsUser, [⟨0xF100, 1, 96⟩], 0x03, 1⟩,
  ⟨.lanePrbsState, [⟨0xF100, 1, 96⟩], 0x04, 1⟩,
  ⟨.lanePrbsBits, [⟨0xF100, 1, 96⟩], 0x05, 1⟩,
  ⟨.lanePrbsErrors, [⟨0xF100, 1, 96⟩], 0x06, 1⟩,
  ⟨.lanePrbsInject, [⟨0xF100, 1, 96⟩], 0x07, 1⟩,
  ⟨.lanePrbsInjectRate, [⟨0xF100, 1, 96⟩], 0x08, 1⟩,
  ⟨.lanePrbsInjected, [⟨0xF100, 1, 96⟩], 0x09, 1⟩,
  ⟨.laneLoopback, [⟨0xF100, 1, 96⟩], 0x0A, 1⟩]

/-- Objects of chapter 14_integrity_memory.md, part 1. -/
def objects14a : List Obj := [
  ⟨.scrubEnable, [⟨0xE000, 1, 1⟩], 0x01, 1⟩,
  ⟨.trackerUsed, [⟨0xE000, 1, 1⟩], 0x02, 1⟩,
  ⟨.trackerEvictions, [⟨0xE000, 1, 1⟩], 0x03, 1⟩,
  ⟨.weakList, [⟨0xE000, 1, 1⟩], 0x04, 1⟩,
  ⟨.repairPending, [⟨0xE000, 1, 1⟩], 0x05, 1⟩,
  ⟨.repairDone, [⟨0xE000, 1, 1⟩], 0x06, 1⟩,
  ⟨.repairFailed, [⟨0xE000, 1, 1⟩], 0x07, 1⟩,
  ⟨.custodyFail, [⟨0xE010, 1, 1⟩], 0x01, 6⟩,
  ⟨.custodyFramesDiscarded, [⟨0xE010, 1, 1⟩], 0x07, 1⟩,
  ⟨.custodyFramesErrored, [⟨0xE010, 1, 1⟩], 0x08, 1⟩,
  ⟨.custodyTilesComplemented, [⟨0xE010, 1, 1⟩], 0x09, 1⟩,
  ⟨.custodyBlocksReplaced, [⟨0xE010, 1, 1⟩], 0x0A, 1⟩,
  ⟨.memCorrected, [⟨0xE100, 1, 16⟩], 0x01, 1⟩,
  ⟨.memUncorrectable, [⟨0xE100, 1, 16⟩], 0x02, 1⟩,
  ⟨.memLapTime, [⟨0xE100, 1, 16⟩], 0x03, 1⟩,
  ⟨.memLaps, [⟨0xE100, 1, 16⟩], 0x04, 1⟩,
  ⟨.memWeak, [⟨0xE100, 1, 16⟩], 0x05, 1⟩,
  ⟨.memSparesLeft, [⟨0xE100, 1, 16⟩], 0x06, 1⟩,
  ⟨.memRemaps, [⟨0xE100, 1, 16⟩], 0x07, 1⟩,
  ⟨.memLapLimit, [⟨0xE100, 1, 16⟩], 0x08, 1⟩]

/-- Objects of chapter 15_dictionary.md, part 1. -/
def objects15a : List Obj := [
  ⟨.bdapStation, [⟨0x1200, 1, 1⟩], 0x01, 1⟩,
  ⟨.bdapForerunnerStation, [⟨0x1200, 1, 1⟩], 0x02, 1⟩,
  ⟨.bdapUnregisteredClass, [⟨0x1200, 1, 1⟩], 0x03, 1⟩,
  ⟨.bdapStagingTimeout, [⟨0x1200, 1, 1⟩], 0x04, 1⟩,
  ⟨.bdapRequests, [⟨0x1200, 1, 1⟩], 0x05, 1⟩,
  ⟨.bdapDuplicates, [⟨0x1200, 1, 1⟩], 0x06, 1⟩,
  ⟨.bdapAborts, [⟨0x1200, 1, 1⟩], 0x07, 1⟩,
  ⟨.bdapDiscarded, [⟨0x1200, 1, 1⟩], 0x08, 1⟩,
  ⟨.bdapIgnored, [⟨0x1200, 1, 1⟩], 0x09, 1⟩,
  ⟨.bdapSubscribers, [⟨0x1200, 1, 1⟩], 0x0A, 1⟩,
  ⟨.bdapLapses, [⟨0x1200, 1, 1⟩], 0x0B, 1⟩,
  ⟨.mgtPlcaEnable, [⟨0x1201, 1, 2⟩], 0x01, 1⟩,
  ⟨.mgtPlcaNodeId, [⟨0x1201, 1, 2⟩], 0x02, 1⟩,
  ⟨.mgtPlcaNodeCount, [⟨0x1201, 1, 2⟩], 0x03, 1⟩,
  ⟨.mgtPlcaToTimer, [⟨0x1201, 1, 2⟩], 0x04, 1⟩,
  ⟨.mgtStatus, [⟨0x1201, 1, 2⟩], 0x05, 1⟩,
  ⟨.mgtPolarityInverted, [⟨0x1201, 1, 2⟩], 0x06, 1⟩,
  ⟨.mgtFramesRx, [⟨0x1201, 1, 2⟩], 0x07, 1⟩,
  ⟨.mgtFramesTx, [⟨0x1201, 1, 2⟩], 0x08, 1⟩,
  ⟨.errorRegister, [⟨0x1001, 1, 1⟩], 0x01, 1⟩,
  ⟨.registrationSelect, [⟨0x1300, 1, 1⟩], 0x01, 1⟩,
  ⟨.registrationRow, [⟨0x1300, 1, 1⟩], 0x02, 1⟩,
  ⟨.registrationTable, [⟨0x1300, 1, 1⟩], 0x03, 1⟩]

/-- Objects of chapter 16_mover.md, part 1. -/
def objects16a : List Obj := [
  ⟨.moverGranules, [⟨0x2800, 1, 1⟩], 0x01, 1⟩,
  ⟨.moverDescriptors, [⟨0x2800, 1, 1⟩], 0x02, 1⟩,
  ⟨.moverFaults, [⟨0x2800, 1, 1⟩], 0x03, 1⟩,
  ⟨.moverMailbox, [⟨0x2803, 1, 1⟩], 0x01, 1⟩,
  ⟨.telemetryEnable, [⟨0x2804, 1, 1⟩], 0x01, 1⟩,
  ⟨.telemetryRecords, [⟨0x2804, 1, 1⟩], 0x02, 1⟩,
  ⟨.ringEnable, [⟨0x2900, 1, 64⟩], 0x01, 1⟩,
  ⟨.ringPriority, [⟨0x2900, 1, 64⟩], 0x02, 1⟩,
  ⟨.ringPost, [⟨0x2900, 1, 64⟩], 0x03, 1⟩,
  ⟨.ringControl, [⟨0x2900, 1, 64⟩], 0x04, 1⟩,
  ⟨.ringState, [⟨0x2900, 1, 64⟩], 0x05, 1⟩,
  ⟨.ringQueued, [⟨0x2900, 1, 64⟩], 0x06, 1⟩,
  ⟨.ringGranule, [⟨0x2900, 1, 64⟩], 0x07, 1⟩,
  ⟨.ringFault, [⟨0x2900, 1, 64⟩], 0x08, 1⟩,
  ⟨.windowSelect, [⟨0x2A00, 1, 1⟩], 0x01, 1⟩,
  ⟨.windowEntry, [⟨0x2A00, 1, 1⟩], 0x02, 1⟩,
  ⟨.windowTable, [⟨0x2A00, 1, 1⟩], 0x03, 1⟩,
  ⟨.captureControl, [⟨0xF200, 1, 12⟩], 0x01, 1⟩,
  ⟨.capturePoint, [⟨0xF200, 1, 12⟩], 0x02, 1⟩,
  ⟨.captureLength, [⟨0xF200, 1, 12⟩], 0x03, 1⟩,
  ⟨.captureTrigger, [⟨0xF200, 1, 12⟩], 0x04, 1⟩,
  ⟨.captureState, [⟨0xF200, 1, 12⟩], 0x05, 1⟩,
  ⟨.captureArms, [⟨0xF200, 1, 12⟩], 0x06, 1⟩,
  ⟨.captureStart, [⟨0xF200, 1, 12⟩], 0x07, 1⟩]

/-- Objects of chapter 17_events_counters.md, part 1. -/
def objects17a : List Obj := [
  ⟨.eventEnable, [⟨0xB000, 1, 1408⟩], 0x01, 1⟩,
  ⟨.eventSeverity, [⟨0xB000, 1, 1408⟩], 0x02, 1⟩,
  ⟨.eventLatched, [⟨0xB000, 1, 1408⟩], 0x03, 1⟩,
  ⟨.eventCount, [⟨0xB000, 1, 1408⟩], 0x04, 1⟩,
  ⟨.eventLastTime, [⟨0xB000, 1, 1408⟩], 0x05, 1⟩,
  ⟨.ringRecords, [⟨0xB600, 1, 1⟩], 0x01, 1⟩,
  ⟨.ringNextSeq, [⟨0xB600, 1, 1⟩], 0x02, 1⟩,
  ⟨.ringOverwritten, [⟨0xB600, 1, 1⟩], 0x03, 1⟩,
  ⟨.ringClearLatched, [⟨0xB600, 1, 1⟩], 0x05, 1⟩,
  ⟨.alertEnable0, [⟨0xB601, 1, 1⟩], 0x01, 1⟩,
  ⟨.alertEnable1, [⟨0xB601, 1, 1⟩], 0x02, 1⟩,
  ⟨.alertState, [⟨0xB601, 1, 1⟩], 0x03, 1⟩,
  ⟨.historyRecords, [⟨0x1003, 1, 1⟩], 0x01, 1⟩,
  ⟨.historyWritten, [⟨0x1003, 1, 1⟩], 0x02, 1⟩,
  ⟨.inputDebounce, [⟨0xB700, 1, 36⟩], 0x01, 1⟩,
  ⟨.inputActiveHigh, [⟨0xB700, 1, 36⟩], 0x02, 1⟩,
  ⟨.inputStuckLimit, [⟨0xB700, 1, 36⟩], 0x03, 1⟩,
  ⟨.inputRateLimit, [⟨0xB700, 1, 36⟩], 0x04, 1⟩,
  ⟨.inputState, [⟨0xB700, 1, 36⟩], 0x05, 1⟩,
  ⟨.inputEdges, [⟨0xB700, 1, 36⟩], 0x06, 1⟩,
  ⟨.countersPermit, [⟨0xA000, 1, 1⟩], 0x01, 3⟩,
  ⟨.snapEverySecond, [⟨0xA001, 1, 1⟩], 0x01, 1⟩,
  ⟨.snapEveryQuarter, [⟨0xA001, 1, 1⟩], 0x02, 1⟩,
  ⟨.snapBusy, [⟨0xA001, 1, 1⟩], 0x03, 1⟩,
  ⟨.snapNumber, [⟨0xA001, 1, 1⟩], 0x04, 1⟩,
  ⟨.snapTime, [⟨0xA001, 1, 1⟩], 0x05, 1⟩,
  ⟨.snapCause, [⟨0xA001, 1, 1⟩], 0x06, 1⟩,
  ⟨.snapQuarterNumber, [⟨0xA001, 1, 1⟩], 0x07, 1⟩,
  ⟨.snapClearWraps, [⟨0xA001, 1, 1⟩], 0x08, 1⟩,
  ⟨.filterBank, [⟨0xA010, 1, 1⟩], 0x01, 1⟩,
  ⟨.filterCarriers, [⟨0xA010, 1, 1⟩], 0x02, 1⟩,
  ⟨.filterGroups, [⟨0xA010, 1, 1⟩], 0x03, 1⟩,
  ⟨.filterDirections, [⟨0xA010, 1, 1⟩], 0x04, 1⟩,
  ⟨.filterFlowFirst, [⟨0xA010, 1, 1⟩], 0x05, 1⟩,
  ⟨.filterFlowCount, [⟨0xA010, 1, 1⟩], 0x06, 1⟩,
  ⟨.filterResult, [⟨0xA010, 1, 1⟩], 0x07, 1⟩,
  ⟨.flowcountSelect, [⟨0xA020, 1, 1⟩], 0x01, 1⟩,
  ⟨.flowcountFrames, [⟨0xA020, 1, 1⟩], 0x02, 1⟩,
  ⟨.flowcountBytes, [⟨0xA020, 1, 1⟩], 0x03, 1⟩]

/-- Objects of chapter 18_time.md, part 1. -/
def objects18a : List Obj := [
  ⟨.tbaseNow, [⟨0x8000, 0x10, 4⟩], 0x01, 1⟩,
  ⟨.tbaseSet, [⟨0x8000, 0x10, 4⟩], 0x02, 1⟩,
  ⟨.tbaseOffset, [⟨0x8000, 0x10, 4⟩], 0x03, 1⟩,
  ⟨.tbaseIncrement, [⟨0x8000, 0x10, 4⟩], 0x04, 1⟩,
  ⟨.tbaseStepThreshold, [⟨0x8000, 0x10, 4⟩], 0x05, 1⟩,
  ⟨.tbaseForce, [⟨0x8000, 0x10, 4⟩], 0x06, 1⟩,
  ⟨.tbaseStepsRefused, [⟨0x8000, 0x10, 4⟩], 0x07, 1⟩,
  ⟨.tbaseRefusedFlag, [⟨0x8000, 0x10, 4⟩], 0x08, 1⟩,
  ⟨.tbaseSteps, [⟨0x8000, 0x10, 4⟩], 0x09, 1⟩,
  ⟨.tbasePpsInput, [⟨0x8000, 0x10, 4⟩], 0x0A, 1⟩,
  ⟨.tbasePpsCapture, [⟨0x8000, 0x10, 4⟩], 0x0B, 1⟩,
  ⟨.tbasePpsCaptures, [⟨0x8000, 0x10, 4⟩], 0x0C, 1⟩,
  ⟨.ppsOutSource, [⟨0x8040, 1, 4⟩], 0x01, 1⟩,
  ⟨.ppsOutWidth, [⟨0x8040, 1, 4⟩], 0x02, 1⟩,
  ⟨.ppsOutOffset, [⟨0x8040, 1, 4⟩], 0x03, 1⟩,
  ⟨.portPtpEnable, [⟨0x5C04, 0x10, 48⟩], 0x01, 1⟩,
  ⟨.portPtpTbase, [⟨0x5C04, 0x10, 48⟩], 0x02, 1⟩,
  ⟨.portPtpRxWrite, [⟨0x5C04, 0x10, 48⟩], 0x03, 1⟩,
  ⟨.tsqPop, [⟨0x8100, 1, 1⟩], 0x01, 1⟩,
  ⟨.tsqFill, [⟨0x8100, 1, 1⟩], 0x02, 1⟩,
  ⟨.tsqOverflow, [⟨0x8100, 1, 1⟩], 0x03, 1⟩,
  ⟨.tsqDropped, [⟨0x8100, 1, 1⟩], 0x04, 1⟩,
  ⟨.tclkMode, [⟨0x8F00, 1, 1⟩], 0x01, 1⟩,
  ⟨.tclkSource, [⟨0x8F00, 1, 1⟩], 0x02, 1⟩,
  ⟨.tclkTrefOffset, [⟨0x8F00, 1, 1⟩], 0x03, 1⟩]

/-- Objects of chapter 19_power_thermal.md, part 1. -/
def objects19a : List Obj := [
  ⟨.railVoltage, [⟨0x2100, 1, 13⟩], 0x01, 1⟩,
  ⟨.railFloor, [⟨0x2100, 1, 13⟩], 0x02, 1⟩,
  ⟨.railState, [⟨0x2100, 1, 13⟩], 0x03, 1⟩,
  ⟨.railEpisodes, [⟨0x2100, 1, 13⟩], 0x04, 1⟩,
  ⟨.railLowest, [⟨0x2100, 1, 13⟩], 0x05, 1⟩,
  ⟨.railAvsFailures, [⟨0x2100, 1, 13⟩], 0x06, 1⟩,
  ⟨.railNominal, [⟨0x2100, 1, 13⟩], 0x07, 1⟩,
  ⟨.guardCeiling, [⟨0x2200, 1, 5⟩], 0x0A, 1⟩,
  ⟨.guardPowerCap, [⟨0x2200, 1, 5⟩], 0x0B, 1⟩,
  ⟨.guardPower, [⟨0x2200, 1, 5⟩], 0x0C, 1⟩,
  ⟨.guardMinSafe, [⟨0x2200, 1, 5⟩], 0x0D, 1⟩,
  ⟨.guardConflict, [⟨0x2200, 1, 5⟩], 0x0E, 1⟩,
  ⟨.guardConflictPeriods, [⟨0x2200, 1, 5⟩], 0x0F, 1⟩,
  ⟨.thermalHottest, [⟨0x2300, 1, 1⟩], 0x01, 1⟩,
  ⟨.thermalHottestSensor, [⟨0x2300, 1, 1⟩], 0x02, 1⟩,
  ⟨.thermalSlope, [⟨0x2300, 1, 1⟩], 0x03, 1⟩,
  ⟨.thermalFailed, [⟨0x2300, 1, 1⟩], 0x04, 1⟩,
  ⟨.thermalLastStop, [⟨0x2300, 1, 1⟩], 0x05, 1⟩,
  ⟨.sensorValue, [⟨0x2380, 1, 40⟩], 0x01, 1⟩,
  ⟨.sensorState, [⟨0x2380, 1, 40⟩], 0x02, 1⟩,
  ⟨.sensorRate, [⟨0x2380, 1, 40⟩], 0x03, 1⟩,
  ⟨.sensorRaw, [⟨0x2380, 1, 40⟩], 0x04, 1⟩,
  ⟨.sensorReadmit, [⟨0x2380, 1, 40⟩], 0x05, 1⟩,
  ⟨.sensorPeak, [⟨0x2380, 1, 40⟩], 0x06, 1⟩,
  ⟨.throttleStage, [⟨0x2500, 1, 1⟩], 0x01, 1⟩,
  ⟨.throttlePoint, [⟨0x2500, 1, 1⟩], 0x02, 1⟩,
  ⟨.throttleHysteresis, [⟨0x2500, 1, 1⟩], 0x03, 1⟩,
  ⟨.throttleIterationCap, [⟨0x2500, 1, 1⟩], 0x04, 1⟩,
  ⟨.throttleEscalate, [⟨0x2500, 1, 1⟩], 0x05, 1⟩,
  ⟨.throttleRelease, [⟨0x2500, 1, 1⟩], 0x06, 1⟩,
  ⟨.throttleAutoRestore, [⟨0x2500, 1, 1⟩], 0x07, 1⟩,
  ⟨.throttleShed, [⟨0x2500, 1, 1⟩], 0x08, 1⟩,
  ⟨.throttleEntries, [⟨0x2500, 1, 1⟩], 0x09, 1⟩,
  ⟨.throttleShedRank, [⟨0x2501, 1, 1⟩], 0x01, 12⟩]

/-- Objects of chapter 20_monitor_adc.md, part 1. -/
def objects20a : List Obj := [
  ⟨.hkState, [⟨0x9000, 1, 2⟩], 0x01, 1⟩,
  ⟨.hkSeqTrigger, [⟨0x9000, 1, 2⟩], 0x02, 1⟩,
  ⟨.hkSeqEvent, [⟨0x9000, 1, 2⟩], 0x03, 1⟩,
  ⟨.hkSeqStart, [⟨0x9000, 1, 2⟩], 0x04, 1⟩,
  ⟨.hkSeqMissed, [⟨0x9000, 1, 2⟩], 0x05, 1⟩,
  ⟨.hkSeqCount, [⟨0x9000, 1, 2⟩], 0x06, 1⟩,
  ⟨.hkInjEntry, [⟨0x9000, 1, 2⟩], 0x07, 1⟩,
  ⟨.hkInjTrigger, [⟨0x9000, 1, 2⟩], 0x08, 1⟩,
  ⟨.hkInjEvent, [⟨0x9000, 1, 2⟩], 0x09, 1⟩,
  ⟨.hkInjStart, [⟨0x9000, 1, 2⟩], 0x0A, 1⟩,
  ⟨.hkInjMissed, [⟨0x9000, 1, 2⟩], 0x0B, 1⟩,
  ⟨.hkInjResult, [⟨0x9000, 1, 2⟩], 0x0C, 1⟩,
  ⟨.hkCalRequest, [⟨0x9000, 1, 2⟩], 0x0D, 1⟩,
  ⟨.hkCalState, [⟨0x9000, 1, 2⟩], 0x0E, 1⟩,
  ⟨.hkCalInterval, [⟨0x9000, 1, 2⟩], 0x0F, 1⟩,
  ⟨.hkCalOffset, [⟨0x9000, 1, 2⟩], 0x10, 1⟩,
  ⟨.hkCalGain, [⟨0x9000, 1, 2⟩], 0x11, 1⟩,
  ⟨.hkCalRefusals, [⟨0x9000, 1, 2⟩], 0x12, 1⟩,
  ⟨.hkCalLastLimit, [⟨0x9000, 1, 2⟩], 0x13, 1⟩,
  ⟨.hkRefResult, [⟨0x9000, 1, 2⟩], 0x14, 1⟩,
  ⟨.hkGndResult, [⟨0x9000, 1, 2⟩], 0x15, 1⟩,
  ⟨.hkseqEntries, [⟨0x9010, 1, 2⟩], 0x01, 1⟩,
  ⟨.hkPlausEnable, [⟨0x9002, 1, 1⟩], 0x01, 1⟩,
  ⟨.hkPlausWindow, [⟨0x9002, 1, 1⟩], 0x02, 1⟩,
  ⟨.hkPlausLimit, [⟨0x9002, 1, 1⟩], 0x03, 1⟩,
  ⟨.hkOpenThreshold, [⟨0x9002, 1, 1⟩], 0x04, 1⟩,
  ⟨.hkSettleTime, [⟨0x9002, 1, 1⟩], 0x05, 1⟩,
  ⟨.monResult, [⟨0x9100, 1, 64⟩], 0x01, 1⟩,
  ⟨.monMicrovolts, [⟨0x9100, 1, 64⟩], 0x02, 1⟩,
  ⟨.monAverage, [⟨0x9100, 1, 64⟩], 0x03, 1⟩,
  ⟨.monShift, [⟨0x9100, 1, 64⟩], 0x04, 1⟩,
  ⟨.monLow, [⟨0x9100, 1, 64⟩], 0x05, 1⟩,
  ⟨.monHigh, [⟨0x9100, 1, 64⟩], 0x06, 1⟩,
  ⟨.monOverruns, [⟨0x9100, 1, 64⟩], 0x07, 1⟩,
  ⟨.monLimitState, [⟨0x9100, 1, 64⟩], 0x08, 1⟩,
  ⟨.monImplausible, [⟨0x9100, 1, 64⟩], 0x09, 1⟩,
  ⟨.monOpen, [⟨0x9100, 1, 64⟩], 0x0A, 1⟩]

/-- Objects of chapter 21_pair.md, part 1. -/
def objects21a : List Obj := [
  ⟨.pairRole, [⟨0xC000, 1, 1⟩], 0x01, 1⟩,
  ⟨.pairState, [⟨0xC000, 1, 1⟩], 0x02, 1⟩,
  ⟨.pairSwitch, [⟨0xC000, 1, 1⟩], 0x03, 1⟩,
  ⟨.pairTieLossPolicy, [⟨0xC000, 1, 1⟩], 0x04, 1⟩,
  ⟨.pairWatchInput, [⟨0xC000, 1, 1⟩], 0x05, 1⟩,
  ⟨.pairHealthMargin, [⟨0xC000, 1, 1⟩], 0x06, 1⟩,
  ⟨.pairHoldOff, [⟨0xC000, 1, 1⟩], 0x07, 1⟩,
  ⟨.pairSwitchovers, [⟨0xC000, 1, 1⟩], 0x08, 1⟩,
  ⟨.pairLastCause, [⟨0xC000, 1, 1⟩], 0x09, 1⟩,
  ⟨.pairHostMute, [⟨0xC000, 1, 1⟩], 0x0A, 1⟩,
  ⟨.pairPartnerAddr, [⟨0xC000, 1, 1⟩], 0x0B, 1⟩,
  ⟨.pairPartnerMode, [⟨0xC000, 1, 1⟩], 0x0C, 1⟩,
  ⟨.pairPartnerHealth, [⟨0xC000, 1, 1⟩], 0x0D, 1⟩,
  ⟨.pairDigestMatch, [⟨0xC000, 1, 1⟩], 0x0E, 1⟩,
  ⟨.pairReady, [⟨0xC000, 1, 1⟩], 0x0F, 1⟩,
  ⟨.pairRefusal, [⟨0xC000, 1, 1⟩], 0x10, 1⟩,
  ⟨.tieState, [⟨0xC001, 1, 1⟩], 0x01, 1⟩,
  ⟨.tieLanesLocked, [⟨0xC001, 1, 1⟩], 0x02, 1⟩,
  ⟨.tieDowns, [⟨0xC001, 1, 1⟩], 0x03, 1⟩,
  ⟨.tieSent, [⟨0xC001, 1, 1⟩], 0x04, 1⟩,
  ⟨.tieReceived, [⟨0xC001, 1, 1⟩], 0x05, 1⟩,
  ⟨.tieCrcErrors, [⟨0xC001, 1, 1⟩], 0x06, 1⟩,
  ⟨.pairDigestLocal, [⟨0xC002, 1, 1⟩], 0x01, 8⟩,
  ⟨.pairDigestPartner, [⟨0xC003, 1, 1⟩], 0x01, 8⟩]

/-- Every object of the dictionary. -/
def objects : List Obj :=
  objects00a ++ objects01a ++ objects02a ++ objects03a ++ objects04a ++
  objects05a ++ objects06a ++ objects06b ++ objects07a ++ objects08a ++
  objects09a ++ objects10a ++ objects10b ++ objects11a ++ objects11b ++
  objects12a ++ objects13a ++ objects13b ++ objects14a ++ objects15a ++
  objects16a ++ objects17a ++ objects18a ++ objects19a ++ objects20a ++
  objects21a

/-- The instance that index ix is of a list of runs, counted along them. -/
def segInstance (ix : Nat) : List Seg → Option Nat
  | [] => none
  | g :: t =>
    if g.base ≤ ix ∧ (ix - g.base) % g.stride = 0 ∧ (ix - g.base) / g.stride < g.count then
      some ((ix - g.base) / g.stride)
    else (segInstance ix t).map (g.count + ·)

/-- Objects that some instances of their index range lack: the fabric guard loop has no power objects of a crew, and
only an ADC has a gain table. -/
def objectAbsent (r : Reg) (i : Nat) : Bool :=
  match r with
  | .guardCeiling | .guardPowerCap => i == 4
  | .convCalVgaTable => decide (48 ≤ i)
  | _ => false

/-- The register and instance that an index and a subindex name (R336), if any. -/
def resolve (ix sub : Nat) : Option (Reg × Nat) :=
  objects.findSome? fun o =>
    if o.sub ≤ sub ∧ sub < o.sub + o.subs then
      match segInstance ix o.segs with
      | some n =>
        let i := n * o.subs + (sub - o.sub)
        if objectAbsent o.reg i then none else some (o.reg, i)
      | none => none
    else none

/-- True where some object lies at index ix, whatever the subindex (abort 0x02 against 0x01). -/
def indexPresent (ix : Nat) : Bool := objects.any fun o => (segInstance ix o.segs).isSome

/-- The index and subindex of a register's instance. -/
def addressOf (r : Reg) (i : Nat) : Nat × Nat :=
  match objects.find? (fun o => o.reg == r) with
  | none => (0, 0)
  | some o => (segIndex (i / o.subs) o.segs, o.sub + i % o.subs)
where
  /-- the index of the n-th instance along the runs -/
  segIndex (n : Nat) : List Seg → Nat
    | [] => 0
    | g :: t => if n < g.count then g.base + n * g.stride else segIndex (n - g.count) t

end Sys2Proof.Machine
end

