-- ==== Sys2Proof/Machine/Serve.lean ====
section
/-! DEFINITION. How a request is served whatever it asks (R338 to R346, R353, R354): who sent it, under which class,
which reply it draws, and the checks every write passes before its object's own rule. -/

namespace Sys2Proof.Machine

/-! ## Sources (R340, R346) -/

/-- The view of a source that has not been heard. -/
def emptyView : View := ⟨[], [], [], []⟩

/-- Source mac heard now: first in the list, the least recently heard of more than 16 evicted. -/
def State.hear (s : State) (mac : Nat) : State :=
  let old := (s.sources.find? fun x => x.mac == mac).getD ⟨mac, emptyView, emptyView⟩
  { s with sources := (old :: s.sources.filter fun x => x.mac != mac).take 16 }

/-- What is kept for a client's source and station. -/
def State.view (s : State) (cl : Client) : View :=
  match s.sources.find? fun x => x.mac == cl.mac with
  | some x => if cl.fore then x.fore else x.native
  | none => emptyView

/-- What is kept for a client's source and station, changed. -/
def State.setView (s : State) (cl : Client) (v : View) : State :=
  { s with sources := s.sources.map fun x =>
      if x.mac = cl.mac then (if cl.fore then { x with fore := v } else { x with native := v }) else x }

/-- A select or counter-filter object as its source holds it (R340, R396). -/
def State.sel (s : State) (cl : Client) (r : Reg) (i : Nat := 0) : Int := sget (s.view cl).sel (r, i) (r.dflt i)

/-- A select or counter-filter object of a source written. -/
def State.setSel (s : State) (cl : Client) (r : Reg) (v : Int) (i : Nat := 0) : State :=
  let w := s.view cl
  s.setView cl { w with sel := sput regLt (r.dflt i) w.sel (r, i) v }

/-! ## Classes (R353, R354) -/

/-- The registration row of a source: the first valid row with its address. -/
def State.registrationOf (s : State) (mac : Nat) : Option Nat :=
  (List.range 16).find? fun n =>
    let row := s.nat .registrationRow n
    bitOf row 63 && field row 0 48 == mac

/-- True where some registration row is valid. -/
def State.anyRegistration (s : State) : Bool := (List.range 16).any fun n => bitOf (s.nat .registrationRow n) 63

/-- The class a source is served under (R353): 0 observer, 1 operator, 2 keeper, 3 ignored. -/
def State.clientClass (s : State) (mac : Nat) : Nat :=
  match s.registrationOf mac with
  | some n => field (s.nat .registrationRow n) 48 2
  | none => if s.anyRegistration then s.nat .bdapUnregisteredClass 0 else 2

/-- Objects only a keeper writes (R354, table Keeper-only objects). -/
def Reg.keeperOnly (r : Reg) : Bool :=
  match r with
  | .bdapUnregisteredClass | .bdapStagingTimeout | .mgtPlcaEnable | .mgtPlcaNodeId | .mgtPlcaNodeCount
  | .mgtPlcaToTimer | .registrationSelect | .registrationRow | .registrationTable | .forerunnerEnable
  | .deviceReset | .bootHostImage | .bootHostLoad | .kekValue | .kekOp | .slotLoad | .slotErase
  | .countersPermit => true
  | _ => false

/-! ## The forerunner view (R357) -/

/-- The native index that a forerunner index names, where the forerunner view has it; the ENG pins of carriers 4 to 11 it has not
(R6). -/
def foreToNative (ix : Nat) : Option Nat :=
  if ix = 0x1000 ∨ ix = 0x1001 ∨ (0x1200 ≤ ix ∧ ix ≤ 0x1202) ∨ ix = 0x1300 then some ix
  else if 0x2000 ≤ ix ∧ ix ≤ 0x2FFF then (if 0x2202 ≤ ix ∧ ix ≤ 0x2204 then none else some ix)
  else if 0x3000 ≤ ix ∧ ix ≤ 0x33FF then
    let o := ix % 0x100
    if (0x50 ≤ o ∧ o ≤ 0x52) ∨ o = 0x60 then none else some ix
  else if 0x4000 ≤ ix ∧ ix ≤ 0x41FF then some ix
  else if 0x4200 ≤ ix ∧ ix ≤ 0x43FF then some (ix + 0x400)
  else if 0x5000 ≤ ix ∧ ix ≤ 0x55FF then some ix
  else if 0x5C00 ≤ ix ∧ ix ≤ 0x5D7F then some ix
  else if 0x6000 ≤ ix ∧ ix ≤ 0x6FFF then some ix
  else if ix = 0x7000 ∨ (0x7001 ≤ ix ∧ ix ≤ 0x7004) ∨ ix = 0x7010 ∨ ix = 0x7100 ∨ ix = 0x7101 ∨ ix = 0x7200 then
    some ix
  else if 0x8000 ≤ ix ∧ ix ≤ 0xAFFF then some ix
  else if 0xB000 ≤ ix ∧ ix < 0xB000 + 720 then
    (List.range 1408).findSome? fun e => if foreEvent e = some (ix - 0xB000) then some (0xB000 + e) else none
  else if (0xB704 ≤ ix ∧ ix ≤ 0xB70B) ∨ (0xB710 ≤ ix ∧ ix ≤ 0xB717) then none
  else if 0xB600 ≤ ix ∧ ix ≤ 0xB7FF then some ix
  else if 0xC000 ≤ ix ∧ ix ≤ 0xC3FF then some ix
  else if 0xD000 ≤ ix ∧ ix ≤ 0xD00F then some ix
  else if 0xD100 ≤ ix ∧ ix ≤ 0xD10F then some ix
  else if 0xD110 ≤ ix ∧ ix ≤ 0xD11F then some (ix + 0x70)
  else if 0xE000 ≤ ix ∧ ix ≤ 0xEFFF then some ix
  else if 0xF100 ≤ ix ∧ ix ≤ 0xF12F then some ix
  else none

/-- The forerunner index of a native index, where the forerunner view has it. -/
def nativeToFore (ix : Nat) : Option Nat :=
  if 0x4600 ≤ ix ∧ ix ≤ 0x47FF then some (ix - 0x400)
  else if 0x4200 ≤ ix ∧ ix ≤ 0x43FF then none
  else if 0xD180 ≤ ix ∧ ix ≤ 0xD18F then some (ix - 0x70)
  else if 0xD110 ≤ ix ∧ ix ≤ 0xD11F then none
  else if 0xB000 ≤ ix ∧ ix < 0xB000 + 1408 then (foreEvent (ix - 0xB000)).map (0xB000 + ·)
  else if foreToNative ix = some ix then some ix
  else none

/-- The highest row a select reaches in the forerunner view (R357, R359). -/
def foreSelectLimit (r : Reg) : Option Nat :=
  match r with
  | .flowSelect | .flowcountSelect => some 8191
  | .calSelect => some 16383
  | .tsiRowSelect => some 1279
  | .tribRxSelect | .tribEgressSelect | .spanSelect | .bindSelect | .cryptSelect => some 1279
  | .slotSelect => some 2047
  | _ => none

/-- Objects whose bits name carriers, as bit c for carrier c: in the forerunner view only carriers 0 to 3 exist (R5, R6). -/
def Reg.carrierMask (r : Reg) : Bool :=
  match r with
  | .calFgRequest | .calFgBusy | .tsiFlip | .tsiPending | .throttleShed | .filterCarriers => true
  | _ => false

/-- Unit i of an object lies beyond the carriers of the forerunner view without an index of its own: the shed ranks of
carriers 4 to 11 (R6). -/
def Reg.beyondFore (r : Reg) (i : Nat) : Bool := r == .throttleShedRank && decide (4 ≤ i)

/-- Objects whose value is an event number, 0xFFFF for none: the forerunner view numbers events as R358 has it (R357). -/
def Reg.eventNumber (r : Reg) : Bool := r == .hkSeqEvent || r == .hkInjEvent

/-- An event number in a client's view; one that the view lacks reads as none (DESIGN CHOICE, log entry 48). -/
def foreEventOut (v : Int) : Int :=
  if v = 0xFFFF then v else ((foreEvent v.toNat).map fun (e : Nat) => (e : Int)).getD 0xFFFF

/-- The native event number that one of the forerunner view stands for; one it does not have is out of range. -/
def foreEventIn (v : Int) : Int :=
  if v = 0xFFFF then v
  else (((List.range 1408).find? fun e => decide (foreEvent e = some v.toNat)).map fun (e : Nat) => (e : Int)).getD 0xFFFE

/-- The index and subindex a client uses for a register; none where its view lacks it. -/
def clientAddress (cl : Client) (r : Reg) (i : Nat) : Option (Nat × Nat) :=
  let a := addressOf r i
  if cl.fore then (if r.beyondFore i then none else (nativeToFore a.1).map fun ix => (ix, a.2)) else some a

/-! ## Answers -/

/-- How a request ends: its ACK payload, or an abort code with detail and position. -/
inductive Answer where
  | ack (payload : List Byte)
  | abort (code detail position : Nat)
deriving DecidableEq, Repr

/-- A write accepted: the ACK payload is added when the reply is formed. -/
def accepted : Answer := .ack []
/-- Refused with an abort code, detail 0. -/
def refusedWith (code : Nat) : Answer := .abort code 0 0

/-- Refused by a rule whose reason the object keeps: the abort detail repeats it (R352). -/
def refusedFor (reason : Nat) : Answer := .abort 0x08 reason 0
/-- Refused for such a reason that names the modes in which a write acts (R338). -/
def refusedMode (reason : Nat) : Answer := .abort 0x06 reason 0

/-- The station addresses' common part and the reply's source: native 02:5A:4C:96:12:nn (R343). -/
def nativeStation (addr : Nat) : Nat := 0x025A4C961200 + addr % 64
/-- The forerunner station 02:5A:4C:48:04:nn (R343). -/
def foreStation (addr : Nat) : Nat := 0x025A4C480400 + addr % 64

/-- The station a client addressed, or made its subscription through (R343). -/
def State.station (s : State) (fore : Bool) : Nat :=
  let addr := s.nat .bootStraps 0
  if fore then foreStation addr else nativeStation addr

/-- A message of the device in its Ethernet frame, from the destination address up to the FCS: EtherType 0x88B5, version
1, no flags, header numbers little-endian, padded to 60 bytes (R343, Table: Message header; log entry 45). -/
def messageFrame (dest station opcode seq : Nat) (payload : List Byte) : List Byte :=
  let l := (leBytes 6 dest).reverse ++ (leBytes 6 station).reverse ++ [0x88, 0xB5] ++ leBytes 1 1 ++ leBytes 1 opcode
    ++ leBytes 2 seq ++ [0, 0] ++ leBytes 2 payload.length ++ payload
  l ++ List.replicate (60 - l.length) 0

/-- Opcode 0x09 with the ACK payload, or 0x0A with the eight bytes of an ABORT (Table: Opcodes). -/
def replyFrame (station : Nat) (cl : Client) : Reply → List Byte
  | .ack p => messageFrame cl.mac station 0x09 cl.seq p
  | .abort ix sub c d p => messageFrame cl.mac station 0x0A cl.seq
      (leBytes 2 ix ++ leBytes 1 sub ++ leBytes 1 c ++ leBytes 1 d ++ [0] ++ leBytes 2 p)

/-- A reply formed and sent on the port of its request and on every port where a duplicate waits (R345, R346, R362);
aborts are counted. -/
def State.reply (s : State) (cl : Client) (r : Reply) : State :=
  let w := s.view cl
  let ports := match w.recent.find? fun x => x.seq == cl.seq with
    | some x => x.waiting
    | none => []
  let s := s.setView cl { w with recent := w.recent.map fun x =>
    if x.seq = cl.seq then { x with reply := some r, waiting := [] } else x }
  let s := match r with
    | .abort .. => s.bump .bdapAborts 0
    | .ack _ => s
  let f := replyFrame (s.station cl.fore) cl r
  s.each (cl.port :: ports) fun s p => (s.emit (.reply { cl with port := p } r f)).bump .mgtFramesTx p.val

/-- A request is taken: counted, and its seq enters the duplicate window of 16 (R346). -/
def State.take (s : State) (cl : Client) : State :=
  let w := s.view cl
  let l := (w.recent.filter fun x => x.seq != cl.seq) ++ [⟨cl.seq, none, []⟩]
  (s.setView cl { w with recent := l.drop (l.length - 16) }).bump .bdapRequests 0

/-- A request leaves the queue of R345 where it waits there; one that does not is taken now. -/
def State.dequeue (s : State) (cl : Client) : State :=
  if s.requests.any fun q => q.client == cl then
    { s with requests := s.requests.eraseP fun q => q.client == cl }
  else s.take cl

/-- A request from an ignored source: discarded without reply, counted, source 114 at most once per aligned second
(R353). -/
def State.ignore (s : State) (_cl : Client) : State :=
  let s := s.bump .bdapIgnored 0
  if s.newSecond .xIgnoredSecond 0 then (s.markSecond .xIgnoredSecond 0).raise (evDev 114) [] else s

/-- True where the block answers a client: from the end of the fuse load (R37), and at the forerunner station only
while its view is active (R343). -/
def State.answers (s : State) (cl : Client) : Bool :=
  s.phase == .running && (!cl.fore || s.flag .forerunnerActive 0)

/-- A duplicate (R346): the stored reply is sent again on its port, or it waits there for the reply; nothing runs. -/
def State.duplicate (s : State) (cl : Client) (x : Recent) : State :=
  let s := s.bump .bdapDuplicates 0
  match x.reply with
  | some r => (s.emit (.reply cl r (replyFrame (s.station cl.fore) cl r))).bump .mgtFramesTx cl.port.val
  | none =>
    let w := s.view cl
    s.setView cl { w with recent := w.recent.map fun y =>
      if y.seq = cl.seq then { y with waiting := y.waiting ++ [cl.port] } else y }

/-- The earlier request that a request of a client repeats; none for one that waits in the queue or is new (R346). -/
def State.repeated (s : State) (cl : Client) : Option Recent :=
  if s.requests.any fun q => q.client == cl then none else (s.view cl).recent.find? fun x => x.seq == cl.seq

/-- Malformed messages at the front of the queue draw their abort (R344, R345); n is how many at most. -/
def State.answerMalformed : Nat → State → State
  | 0, s => s
  | n + 1, s =>
    match s.requests with
    | ⟨cl, .malformed⟩ :: t => State.answerMalformed n (({ s with requests := t } : State).reply cl (.abort 0 0 0x0F 0 0))
    | _ => s

/-- A client's request is the next one: nothing waits, or it is the first that does (R345). -/
def State.isNext (s : State) (cl : Client) : Bool :=
  match s.requests with
  | [] => true
  | q :: _ => q.client == cl && q.body != .malformed

/-- A request served: the source is heard, an ignored one is dropped, a duplicate draws its stored reply, any other
request runs and draws its reply. Requests are served in the order of arrival: one that is not the next is not served (R345, log
entry 45). -/
def State.serve (s : State) (cl : Client) (addr : Nat × Nat) (act : State → State × Answer) : State :=
  let s := if s.answers cl then s.answerMalformed s.requests.length else s
  if s.answers cl && s.isNext cl then
    let s := s.hear cl.mac
    if s.clientClass cl.mac = 3 then
      ({ s with requests := s.requests.eraseP fun q => q.client == cl } : State).ignore cl
    else if let some x := s.repeated cl then s.duplicate cl x
    else
      let (t, a) := act (s.dequeue cl)
      match a with
      | .ack p => t.reply cl (.ack p)
      | .abort c d p => t.reply cl (.abort addr.1 addr.2 c d p)
  else s

/-! ## The checks every write passes (R337, R338, R348) -/

/-- The wire type of unit i of an object; the monitored quantities differ in theirs (R150). -/
def Reg.wireAt (r : Reg) (i : Nat) : Wire :=
  match r with
  | .carrierMonRaw | .carrierMonFiltered | .carrierMonSet | .carrierMonClear =>
    ([.i32, .u16, .u16, .u32, .u16, .i32, .u16] : List Wire).getD (i / 12) .i32
  | _ => r.wire

/-- The values a wire type can carry. -/
def Wire.holds (w : Wire) (v : Int) : Bool :=
  match w with
  | .bool => decide (0 ≤ v ∧ v ≤ 1)
  | .u8 => decide (0 ≤ v ∧ v < 2 ^ 8)
  | .u16 => decide (0 ≤ v ∧ v < 2 ^ 16)
  | .u32 => decide (0 ≤ v ∧ v < 2 ^ 32)
  | .u64 => decide (0 ≤ v ∧ v < 2 ^ 64)
  | .i8 => decide (-2 ^ 7 ≤ v ∧ v < 2 ^ 7)
  | .i16 => decide (-2 ^ 15 ≤ v ∧ v < 2 ^ 15)
  | .i32 => decide (-2 ^ 31 ≤ v ∧ v < 2 ^ 31)
  | .i64 => decide (-2 ^ 63 ≤ v ∧ v < 2 ^ 63)
  | .domain => false

/-- True where a value lies in an object's stated range. -/
def Range.holds (g : Range) (v : Int) : Bool :=
  match g with
  | .any => true
  | .span lo hi => decide (lo ≤ v ∧ v ≤ hi)
  | .step lo hi d => decide (lo ≤ v ∧ v ≤ hi ∧ (v - lo) % d = 0)
  | .spanOr x lo hi => decide (v = x ∨ (lo ≤ v ∧ v ≤ hi))
  | .stepOr x lo hi d => decide (v = x ∨ (lo ≤ v ∧ v ≤ hi ∧ (v - lo) % d = 0))
  | .oneOf vs => vs.contains v

/-- The device is in Dormant or Trim with no transition in progress: where an RWD object may be written (R338). -/
def State.rwdOpen (s : State) : Bool :=
  decide (s.get .deviceModeState 0 ≤ 1 ∧ s.get .deviceModeBusy 0 = 0)

/-- The modes in which the object's own rule lets it be written (R55, R72, R94). DESIGN CHOICE (log entry 48): Trim is what 2000.02
reads, so D000.01 may still be written while a request to leave Trim runs; such a recalibration goes on. -/
def State.modeOpen (s : State) (r : Reg) : Bool :=
  match r with
  | .bootHostImage | .bootHostLoad => s.get .deviceModeState 0 == 0 && s.get .deviceModeBusy 0 == 0
  | .carrierOpenTestRequest => s.get .deviceModeState 0 != 0
  | .calFgRequest => s.get .deviceModeState 0 == 1
  | _ => true

/-- True where a byte string has a length the object takes; a wrong length draws 0x03 (R352). -/
def Reg.lengthOk (r : Reg) (i n : Nat) : Bool :=
  match r with
  | .bankStandby => n == ([576, 8192, 120, 1032, 32768, 496] : List Nat).getD (i / 12) 0
  | .carrierTtiTransmit | .carrierTtiExpected => n == 64
  | .tsiStandbyPage => n == 15360
  | .calStandbyPage => n == 262144
  | .spanStandbyAll => n == 15360
  | .flowTable => n == 262144
  | .tribEgressTable => n == 7680
  | .clsLoad => n % 6 == 0 && n ≤ 196608
  | .ringPost => 32 ≤ n && n ≤ 1376 && n % 32 == 0
  | .kekValue => n == 32
  | .tbaseSet => n == 12
  | .windowEntry => n == 16
  | .windowTable => n == 4096
  | .bindTable => n == 15360
  | .registrationTable => n == 128
  | .moverMailbox => n == 1048576
  | .bootHostImage => n ≤ 4194304
  | .hkseqEntries => n % 2 == 0 && 2 ≤ n && n ≤ 64
  | .slotLoad => n == 60
  | _ => true

/-- Bytes that a whole table of row selects has in the forerunner view (R359). -/
def foreTableBytes (r : Reg) : Option Nat :=
  match r with
  | .tsiStandbyPage | .tsiActivePage | .spanStandbyAll | .spanActiveAll | .bindTable => some 5120
  | .flowTable => some 65536
  | .calStandbyPage | .calActivePage => some 65536
  | .tribEgressTable => some 2560
  | _ => none

/-- The abort that the length of a byte string draws from an object in a client's view; none where it is accepted. That of a load
descriptor repeats its reason (R277, R337, R352). -/
def lengthAbort (cl : Client) (r : Reg) (i n : Nat) : Option Answer :=
  match if cl.fore then foreTableBytes r else none with
  | some m => if m < n then some (refusedWith 0x01) else if n < m then some (refusedWith 0x03) else none
  | none =>
    if r.lengthOk i n then none else some (.abort 0x03 (if r = .slotLoad then 9 else 0) 0)

/-- Reserved bits of an object laid out in fields: a write that sets one draws 0x07 (R352). -/
def Reg.reserved (r : Reg) : Nat :=
  match r with
  | .tsiStandbyRow => 0x7000FE00
  | .clsKey => 0xFFF80000
  | .flowEntry => 0x3
  | .calStandbyEntry => 0x7FFF8000
  | .spanStandby => 0x0000F800
  | .tribEgressRow => 0x3FC0
  | .bindEntry => 0x03FFE000
  | .registrationRow => 0x7FFC000000000000
  | .carrierDefectSticky => 0xFC00
  | .throttleShed => 0xF000
  | _ => 0

/-- The abort that the type or length of a value draws. -/
def typeAbort (cl : Client) (r : Reg) (i : Nat) (v : WVal) : Option Answer :=
  match v with
  | .int _ => if r.wireAt i = .domain then some (refusedWith 0x03) else none
  | .bytes b => if r.wireAt i = .domain then lengthAbort cl r i b.length else some (refusedWith 0x03)

/-- Access, mode and class of a write, in the order of R348; none where all pass. -/
def State.accessAbort (s : State) (cl : Client) (r : Reg) : Option Answer :=
  if r.access = .ro ∨ r.access = .const then some (refusedWith 0x04)
  else if (r.access = .rwd ∧ !s.rwdOpen) ∨ !s.modeOpen r then some (refusedWith 0x06)
  else if s.clientClass cl.mac < (if r.keeperOnly then 2 else 1) then some (refusedWith 0x09)
  else none

/-- The abort that the range of a value draws: in the forerunner view a carrier above 3 that a mask names (R6) or a row beyond those
that a select reaches (R359), its stated range, its reserved bits. -/
def rangeAbort (cl : Client) (r : Reg) (i : Nat) (v : WVal) : Option Answer :=
  match v with
  | .int x =>
    let beyond := cl.fore && ((r.carrierMask && field x.toNat 4 8 != 0)
      || (match foreSelectLimit r with
          | some m => decide (m < x.toNat)
          | none => false))
    if beyond then some (refusedWith 0x01)
    else if !((r.wireAt i).holds x && r.range.holds x && (x.toNat &&& r.reserved) == 0) then some (refusedWith 0x07)
    else none
  | .bytes _ => none

/-- Type, access, class and range of a write, in the order of R348; none where all pass. -/
def State.checkWrite (s : State) (cl : Client) (r : Reg) (i : Nat) (v : WVal) : Option Answer :=
  match typeAbort cl r i v with
  | some e => some e
  | none =>
    match s.accessAbort cl r with
    | some e => some e
    | none => rangeAbort cl r i v

/-- What a refusal by length leaves: a load of a wrong length is a refused load of the slot selected (R277 code 9). -/
def State.lengthRefused (s : State) (cl : Client) (r : Reg) (a : Answer) : State :=
  if r = .slotLoad ∧ a = .abort 0x03 9 0 then
    (s.set .slotRefusal (s.sel cl .slotSelect).toNat 9).raise (evDev 86) []
  else s

/-- A write served: the common checks, then the object's own effect. -/
def State.serveWrite (s : State) (cl : Client) (r : Reg) (i : Nat) (v : WVal) (eff : State → State × Answer) : State :=
  match clientAddress cl r i with
  | none => s.serve cl (addressOf r i) fun s => (s, refusedWith 0x01)
  | some a =>
    s.serve cl a fun s =>
      match s.checkWrite cl r i v with
      | some e => (s.lengthRefused cl r e, e)
      | none =>
        match eff s with
        | (t, .ack p) => (t, .ack (leBytes 2 a.1 ++ leBytes 1 a.2 ++ p))
        | (t, e) => (t, e)

/-! ## Reads (R344, R347, R354, R396) -/

/-- The code of a wire type (Table: Wire types). -/
def Wire.code (w : Wire) : Nat :=
  match w with
  | .bool => 1
  | .u8 => 2
  | .u16 => 3
  | .u32 => 4
  | .u64 => 5
  | .i8 => 6
  | .i16 => 7
  | .i32 => 8
  | .domain => 11
  | .i64 => 12

/-- Bytes a value of a wire type takes; 0 for a DOMAIN, whose value says it. -/
def Wire.bytes (w : Wire) : Nat :=
  match w with
  | .bool | .u8 | .i8 => 1
  | .u16 | .i16 => 2
  | .u32 | .i32 => 4
  | .u64 | .i64 => 8
  | .domain => 0

/-- Bits of two masks in common. -/
def commonBits (a b : Nat) : Bool := (List.range 8).any fun n => bitOf a n && bitOf b n

/-- A counter read that involves a group outside the mask of its reader's class (R396). -/
def State.counterDenied (s : State) (cl : Client) (r : Reg) : Bool :=
  let closed := 31 - s.nat .countersPermit (s.clientClass cl.mac)
  match r with
  | .filterResult =>
    commonBits closed (s.sel cl .filterGroups).toNat || (bitOf closed 2 && s.sel cl .filterFlowCount != 0)
  | .flowcountFrames | .flowcountBytes => bitOf closed 2
  | _ => false

/-- Access and permission of a read; none where both pass. -/
def State.checkRead (s : State) (cl : Client) (r : Reg) : Option Answer :=
  if r.access = .wo then some (refusedWith 0x05)
  else if s.counterDenied cl r then some (refusedWith 0x11)
  else none

/-- The answer of a READ that returns a value's bytes (R344, R347). -/
def readAnswer (a : Nat × Nat) (w : Wire) (v : List Byte) : Answer :=
  if 1388 < v.length then refusedWith 0x0B
  else .ack (leBytes 2 a.1 ++ leBytes 1 a.2 ++ leBytes 1 w.code ++ leBytes 2 v.length ++ v)

/-- The answer of a READ_BLOCK of a value from an offset (R347). -/
def blockAnswer (a : Nat × Nat) (v : List Byte) (offset max : Nat) : Answer :=
  if v.length < offset then refusedWith 0x07
  else .ack (leBytes 2 a.1 ++ leBytes 1 a.2 ++ [0] ++ leBytes 4 v.length ++ leBytes 4 offset
    ++ (v.drop offset).take (min max 1388))

/-- A READ of unit i of an object by its own command: its value, and what reading does. -/
def State.serveRead (s : State) (cl : Client) (r : Reg) (i : Nat) (value : State → List Byte) (eff : State → State) :
    State :=
  match clientAddress cl r i with
  | none => s.serve cl (addressOf r i) fun s => (s, refusedWith 0x01)
  | some a =>
    s.serve cl a fun s =>
      match s.checkRead cl r with
      | some e => (s, e)
      | none => (eff s, readAnswer a (r.wireAt i) (value s))

/-- A plain store: the effect of a writable object with no behaviour of its own (R338). -/
def storeReg (r : Reg) (i : Nat) (v : WVal) (s : State) : State × Answer :=
  match v with
  | .int x => (s.set r i x, accepted)
  | .bytes b => (s.setBlob r i b, accepted)

end Sys2Proof.Machine
end

