-- ==== Sys2Proof/Machine/Rows.lean ====
section
/-! DEFINITION. The connection memories as their rows give tributaries and slots (R216, R218, R220), and working copies of tables
(R327). -/

namespace Sys2Proof.Machine

/-! ## Interchange rows (R220) -/

/-- Units of a register that do not hold their reset value, with what they hold. -/
def State.listed (s : State) (r : Reg) : List (Nat × Nat) :=
  s.regs.filterMap fun e => if e.1.1 = r then some (e.1.2, e.2.toNat) else none

/-- A valid connection memory row: row number, tributary and order. -/
structure Row where
  row : Nat
  trib : Nat
  order : Nat
deriving DecidableEq, Repr

/-- A row as its register holds it; none where it is not valid. -/
def rowOf (row v : Nat) : Option Row := if bitOf v 31 then some ⟨row, field v 16 12, field v 0 9⟩ else none

/-- The place of a table word among the lost words (R327). -/
def tableUnit (w : TableWord) : Nat :=
  match w with
  | .row u => u
  | .calendar e => 65536 + e
  | .span t => 131072 + t
  | .receiveRow t => 135168 + t
  | .binding u => 139264 + u
  | .flow f => 262144 + f

/-- A working copy as the datapath reads it: a word lost to an uncorrectable error reads 0 (R327). `base` is the place of the
table among the lost words. -/
def State.working (s : State) (r : Reg) (base i : Nat) : Nat := if s.flag .xTableLost (base + i) then 0 else s.nat r i

/-- Working copies are loaded again at a multiframe boundary (R327). -/
def State.reloadTables (s : State) : State :=
  s.each ((s.listed .xTableLost).map Prod.fst) fun s i => s.set .xTableLost i 0

/-- Valid rows of a page (active or standby register) of memory dir, as the page holds them. -/
def State.tableRows (s : State) (r : Reg) (dir : Nat) : List Row :=
  (s.listed r).filterMap fun e => if e.1 / 3840 = dir then rowOf (e.1 % 3840) e.2 else none

/-- Valid rows of the active page of memory dir, as its working copy holds them (R327). -/
def State.pageRows (s : State) (dir : Nat) : List Row :=
  (s.tableRows .tsiActiveRow dir).filter fun r => !s.flag .xTableLost (3840 * dir + r.row)

/-- Rows of a tributary in the active page of memory dir. -/
def State.tribRows (s : State) (dir t : Nat) : List Row := (s.pageRows dir).filter fun r => r.trib == t

/-- Carrier of a row. -/
def Row.carrier (r : Row) : Nat := r.row / 320

/-- Carriers that hold rows of a tributary. -/
def State.tribCarriers (s : State) (dir t : Nat) : List Nat := ((s.tribRows dir t).map Row.carrier).eraseDups

/-- The carrier of the order-0 slot of a tributary. -/
def State.orderZero (s : State) (dir t : Nat) : Option Nat :=
  ((s.tribRows dir t).find? fun r => r.order == 0).map Row.carrier

/-- Tributaries whose order-0 slot lies on carrier c. -/
def State.tribsOn (s : State) (dir c : Nat) : List Nat :=
  ((s.pageRows dir).filter fun r => r.order == 0 && r.carrier == c).map Row.trib

/-- Tributaries with rows on carrier c. -/
def State.tribsTouching (s : State) (dir c : Nat) : List Nat :=
  (((s.pageRows dir).filter fun r => r.carrier == c).map Row.trib).eraseDups

/-- Words of a slot per multiframe M_s at b kBd (R216). -/
def slotWords (b : Nat) : Nat := if b = 0 then 0 else 1310720 * 1000000 / b

/-- Tributary slots of a carrier n_s (R216). -/
def State.slotCount (s : State) (c : Nat) : Nat := 20 * s.nat .xPayload c

/-- Rate of a carrier in a direction, kBd. -/
def State.dirRate (s : State) (dir c : Nat) : Nat := if dir = 0 then s.nat .xTxRate c else s.nat .xRxRate c

/-- Capacity T of a tributary in words per multiframe (R218). -/
def State.tribCapacity (s : State) (dir t : Nat) : Nat :=
  match s.orderZero dir t with
  | some c => (s.tribRows dir t).length * slotWords (s.dirRate dir c)
  | none => 0

/-- True where the rows of a tributary lie on more than one carrier: a bonded tributary. -/
def State.bonded (s : State) (dir t : Nat) : Bool := decide (1 < (s.tribCarriers dir t).length)

end Sys2Proof.Machine
end

