-- ==== Sys2Proof/Machine/Fixed.lean ====
section
/-! DEFINITION. Fixed-point arithmetic of the signal path: reals and complex numbers in units of 2⁻³⁰, with roundings,
roots, powers of ten, sines and cosines.

DESIGN CHOICE (log entry 38): the spec gives the responses and formulas of the signal path and not the width of what stands
between them. A value between stages is a multiple of 2⁻³⁰, and each rounding to it is down or up as Config.roundUp, a free
value, has it. -/

namespace Sys2Proof.Machine

/-- 1 in units of 2⁻³⁰. -/
def one30 : Int := 1073741824

/-- n / d rounded to one of its two neighbours, which one being open; exact where d divides n. d is positive. -/
def rdiv (n : Int) (d : Nat) : Int :=
  n / d + (if n % d = 0 then 0 else if Config.roundUp n d then 1 else 0)

/-- n / d rounded to the nearest integer, ties away from zero (R115). d is positive. -/
def roundAway (n : Int) (d : Nat) : Int :=
  if 0 ≤ n then (2 * n + d) / (2 * d) else -((2 * (-n) + d) / (2 * d))

/-- Product of two values in units of 2⁻³⁰. -/
def fmul (a b : Int) : Int := rdiv (a * b) 1073741824

/-- Sum. -/
def Cx.add (a b : Cx) : Cx := (a.1 + b.1, a.2 + b.2)
/-- Difference. -/
def Cx.sub (a b : Cx) : Cx := (a.1 - b.1, a.2 - b.2)
/-- Product. -/
def Cx.mul (a b : Cx) : Cx := (a.1 * b.1 - a.2 * b.2, a.1 * b.2 + a.2 * b.1)
/-- Conjugate. -/
def Cx.conj (a : Cx) : Cx := (a.1, -a.2)
/-- Multiple. -/
def Cx.scale (k : Int) (a : Cx) : Cx := (k * a.1, k * a.2)
/-- Squared magnitude. -/
def Cx.norm (a : Cx) : Int := a.1 * a.1 + a.2 * a.2
/-- Sum of a list. -/
def Cx.total (l : List Cx) : Cx := l.foldl Cx.add (0, 0)
/-- Both parts divided by d. -/
def Cx.rdiv (a : Cx) (d : Nat) : Cx := (Sys2Proof.Machine.rdiv a.1 d, Sys2Proof.Machine.rdiv a.2 d)
/-- Product of two values in units of 2⁻³⁰. -/
def Cx.fmul (a b : Cx) : Cx := Cx.rdiv (Cx.mul a b) 1073741824

/-- The largest v below 2 ^ bits with v ^ k ≤ n. -/
def rootBits (k n : Nat) : Nat → Nat → Nat
  | 0, acc => acc
  | b + 1, acc => rootBits k n b (if (acc + 2 ^ b) ^ k ≤ n then acc + 2 ^ b else acc)

/-- Square root of a value in units of 2⁻³⁰, rounded down. -/
def fsqrt (v : Int) : Int := (rootBits 2 (v.toNat * 1073741824) 64 0 : Nat)

/-- 10 ^ (n / d) in units of 2⁻³⁰, rounded down, for n ≥ 0 and a result below 4. -/
def tenTo (n d : Nat) : Int := (rootBits d (10 ^ n * 2 ^ (30 * d)) 32 0 : Nat)

/-- num / den in 0.1 dB, one of the two whole numbers about it, which one being open; both positive, within ±102.4 dB. The largest
L with 10 ^ L ≤ (num / den) ^ 100, found bit by bit. -/
def tenthsDb (num den : Nat) : Int :=
  let x := num ^ 100 * 10 ^ 1024
  let y := den ^ 100
  let a := (List.range 11).foldl (fun (a : Nat) k => if 10 ^ (a + 2 ^ (10 - k)) * y ≤ x then a + 2 ^ (10 - k) else a) 0
  (a : Int) - 1024 + (if 10 ^ a * y = x then 0 else if Config.roundUp num den then 1 else 0)

/-- e in units of 10⁻⁴⁰. -/
def euler40 : Nat := 27182818284590452353602874713526624977572

/-- 2 ln (a / b), one of the two whole numbers about it, which one being open; a and b positive, below 1,025. The largest k with
e ^ k ≤ (a / b) ^ 2 for a not below b. -/
def twiceLn (a b : Nat) : Int :=
  let up := fun (a b : Nat) => ((List.range 15).filter fun k => euler40 ^ (k + 1) * b ^ 2 ≤ a ^ 2 * (10 ^ 40) ^ (k + 1)).length
  let open_ := fun (_ : Unit) => (if Config.roundUp a b then (1 : Int) else 0)
  if a = b then 0 else if b < a then (up a b : Int) + open_ () else -(up b a : Int) - 1 + open_ ()

/-- π in units of 2⁻⁶⁰. -/
def pi60 : Int := 3622009729038561421

/-- Terms of the series of cosine (first = 1) or sine (first = x) at x, both in units of 2⁻⁶⁰: n more terms after the
k-th. -/
def trigTerms (x2 : Int) : Nat → Nat → Int → Int → Int
  | 0, _, _, acc => acc
  | n + 1, k, t, acc =>
    let u := -(t * x2) / (2 ^ 60 * ((k + 1 : Nat) : Int) * ((k + 2 : Nat) : Int))
    trigTerms x2 n (k + 2) u (acc + u)

/-- e ^ (j 2π num / den) in units of 2⁻³⁰. den is positive. -/
def unitPhase (num : Int) (den : Nat) : Cx :=
  let x := 2 * pi60 * (num % den) / den
  let x2 := x * x / 2 ^ 60
  (rdiv (trigTerms x2 24 0 (2 ^ 60) (2 ^ 60)) (2 ^ 30), rdiv (trigTerms x2 24 1 x x) (2 ^ 30))

/-- Sine of π num / den in units of 2⁻³⁰. -/
def sinPi (num : Int) (den : Nat) : Int := (unitPhase num (2 * den)).2
/-- Cosine of π num / den in units of 2⁻³⁰. -/
def cosPi (num : Int) (den : Nat) : Int := (unitPhase num (2 * den)).1

end Sys2Proof.Machine
end

