-- ==== Sys2Proof/Machine/LineCode.lean ====
section
/-! DEFINITION. The bits of the line as functions: scrambler (R214), labels and fields (R105, R194, R195, R198), inner code
(R201), interleaver (R202), ladder code (R203, R204), and the symbols of a multiframe (R106 to R109, R199, R200). -/

namespace Sys2Proof.Machine

/-! ## Bits -/

/-- The n low bits of v, most significant first. -/
def bitsOf (n v : Nat) : List Bool := (List.range n).map fun k => bitOf v (n - 1 - k)

/-- The number whose bits, most significant first, are l. -/
def natOf (l : List Bool) : Nat := l.foldl (fun a b => 2 * a + b.toNat) 0

/-- Bits added modulo 2, position by position. -/
def xorBits (a b : List Bool) : List Bool := List.zipWith xor a b

/-- Bytes as bits, most significant first (R213). -/
def byteBits (l : List Byte) : List Bool := l.flatMap fun b => bitsOf 8 b.toNat

/-- Bits as bytes. -/
def bitBytes (n : Nat) (l : List Bool) : List Byte :=
  (List.range n).map fun k => BitVec.ofNat 8 (natOf ((List.range 8).map fun j => l.getD (8 * k + j) false))

/-! ## Scrambler (R214) -/

/-- One step of the generator x³¹ + x²⁸ + 1: the lowest bit leaves, bits 0 and 3 feed back (log entry 39). -/
def scrambleStep (x : Nat) : Nat := x / 2 + (x % 2 + x / 8 % 2) % 2 * 2 ^ 30

/-- Generator bits from a register content. -/
def scrambleBits : Nat → Nat → List Bool
  | 0, _ => []
  | n + 1, x => (x % 2 == 1) :: scrambleBits n (scrambleStep x)

/-- A logical frame, with the tail that follows it if any, scrambled, or the sequence removed. -/
def scramble (l : List Bool) : List Bool := xorBits l (scrambleBits l.length 0x7FFFFFFF)

/-! ## Labels (R105) -/

/-- The label of an amplitude kind 0 to 3 of shaped 64QAM. -/
def labelOf (kind : Nat) : List Bool := [decide (2 ≤ kind), kind == 1 || kind == 2]

/-- The amplitude kind that two label bits stand for. -/
def kindOf (b₁ b₂ : Bool) : Nat := if b₁ then (if b₂ then 2 else 3) else b₂.toNat

/-- The level of a dimension from its sign bit and label bits. -/
def levelOf (modulation : Nat) (sign b₁ b₂ : Bool) : Int :=
  let a : Int := if modulation = 2 then 2 * kindOf b₁ b₂ + 1 else if modulation = 1 ∧ b₁ then 3 else 1
  if sign then -a else a

/-! ## Fields (R194, R195, R198) -/

/-- What the coding of one direction of a carrier rests on: profile, modulation and k_DM in force. -/
structure LineSet where
  profile : Nat
  modulation : Nat
  kdm : Nat
deriving DecidableEq, Repr

/-- Block rows M of the inner code (R201). -/
def innerRows (profile : Nat) : Nat := if profile = profSprint then 9 else 12

/-- k, the positions of the information part. -/
def infoLength (profile : Nat) : Nat := 9216 - 64 * innerRows profile

/-- Dimensions of a codeword (R198). -/
def dimensions (modulation : Nat) : Nat := if modulation = 2 then 3072 else if modulation = 1 then 4608 else 9216

/-- Label positions of a codeword. -/
def labelLength (modulation : Nat) : Nat := 9216 - dimensions modulation

/-- Ladder parity positions of field q: none in Sprint (R204). -/
def parityLength (l : LineSet) (q : Nat) : Nat := if l.profile = profSprint then 0 else ladderParity q

/-- Positions of field q that the line stream fills. -/
def streamLength (l : LineSet) (q : Nat) : Nat := infoLength l.profile - parityLength l q

/-- Line-frame bits that field q takes: matcher inputs, or label bits, and sign-information bits. -/
def fieldInput (l : LineSet) (q : Nat) : Nat :=
  if l.modulation = 2 then 3 * l.kdm + (streamLength l q - labelLength 2) else streamLength l q

/-- Line-frame bits that n fields from field q on take. -/
def fieldsInput (l : LineSet) (q n : Nat) : Nat := ((List.range n).map fun k => fieldInput l (q + k)).sum

/-- The stream positions of a field from its line bits, in position order (R194): the labels of the amplitudes of the three
matcher blocks, then sign information; without a matcher the bits as they come. -/
def fieldStream (l : LineSet) (bits : List Bool) : List Bool :=
  if l.modulation = 2 then
    let comp := compositionFor l.kdm
    ((List.range 3).flatMap fun b =>
      (matchBlock 1024 comp (natOf ((bits.drop (b * l.kdm)).take l.kdm))).flatMap labelOf) ++ bits.drop (3 * l.kdm)
  else bits

/-- The amplitude kinds of matcher block b of a field. -/
def blockKinds (stream : List Bool) (b : Nat) : List Nat :=
  (List.range 1024).map fun i =>
    kindOf (stream.getD (2 * (1024 * b + i)) false) (stream.getD (2 * (1024 * b + i) + 1) false)

/-- The line bits of a field from its stream positions (R197), each with a mark where it belongs to a matcher block that is
delivered as zeros. -/
def fieldOutput (l : LineSet) (stream : List Bool) : List (Bool × Bool) :=
  if l.modulation = 2 then
    let comp := compositionFor l.kdm
    ((List.range 3).flatMap fun b =>
      match unmatchBlock l.kdm comp (blockKinds stream b) with
      | some n => (bitsOf l.kdm n).map fun v => (v, false)
      | none => List.replicate l.kdm (false, true)) ++ (stream.drop (labelLength 2)).map fun v => (v, false)
  else stream.map fun v => (v, false)

/-- Matcher blocks of a field that are delivered as zeros. -/
def fieldMismatches (l : LineSet) (stream : List Bool) : Nat :=
  if l.modulation = 2 then
    let comp := compositionFor l.kdm
    ((List.range 3).filter fun b => (unmatchBlock l.kdm comp (blockKinds stream b)).isNone).length
  else 0

/-! ## Inner code (R201) -/

/-- The sum at block row r over the first n block columns: bit x adds, for a block with shift s, position (x + s) mod 64 of
its column. -/
def innerSum (profile n : Nat) (word : List Bool) (r : Nat) : List Bool :=
  let m := innerRows profile
  (List.range 64).map fun x => (List.range n).foldl (fun a j =>
    let b := baseBlock profile m r j
    if b = 0xFF then a else xor a (word.getD (64 * j + (x + b.toNat) % 64) false)) false

/-- Every check of a codeword is satisfied. -/
def innerOk (profile : Nat) (word : List Bool) : Bool :=
  (List.range (innerRows profile)).all fun r => !(innerSum profile 144 word r).any id

/-- The inner parity of an information field. The first parity block is the sum of every row; the others follow one from the
other down the double diagonal. -/
def innerParity (profile : Nat) (info : List Bool) : List Bool :=
  let m := innerRows profile
  let zero := List.replicate 64 false
  let s := (List.range m).map (innerSum profile (144 - m) info)
  let p₀ := s.foldl xorBits zero
  let chain := (List.range (m - 1)).foldl (fun (a : List Bool × List Bool) r =>
    let from₀ := if r = 0 then p₀.drop 1 ++ p₀.take 1 else if r = m / 2 then p₀ else zero
    let p := xorBits (xorBits (s.getD r zero) from₀) a.2
    (a.1 ++ p, p)) ([], zero)
  p₀ ++ chain.1

/-! ## Ladder component code (R203) -/

/-- α times an element of GF(2¹¹), whose primitive polynomial is x¹¹ + x² + 1. -/
def bchTwice (x : Nat) : Nat := if x < 1024 then 2 * x else (2 * x) ^^^ 0x805

/-- Product in GF(2¹¹). -/
def bchMul (a b : Nat) : Nat :=
  (List.range 11).foldl (fun acc k => bchTwice acc ^^^ (if bitOf b (10 - k) then a else 0)) 0

/-- α to the n. -/
def bchPow : Nat → Nat
  | 0 => 1
  | n + 1 => bchTwice (bchPow n)

/-- The minimal polynomial of α^i over GF(2), bit k the coefficient of x^k: the product of x + α^(i 2^j), j = 0 to 10. -/
def minimalPoly (i : Nat) : Nat :=
  let p := (List.range 11).foldl (fun (p : List Nat) j =>
    let r := bchPow (i * 2 ^ j % 2047)
    List.zipWith Nat.xor (0 :: p) (p.map (bchMul r) ++ [0])) [1]
  p.foldr (fun a acc => 2 * acc + a) 0

/-- Product of polynomials over GF(2). -/
def polyMul (a b : Nat) : Nat := (List.range 34).foldl (fun acc k => if bitOf b k then acc ^^^ a * 2 ^ k else acc) 0

/-- The generator polynomial m₁ m₃ m₅, of degree 33. -/
def ladderGenerator : Nat := polyMul (polyMul (minimalPoly 1) (minimalPoly 3)) (minimalPoly 5)

/-- The 33 parity bits of 1,199 information bits: the remainder of the information, at the higher degrees, by the generator,
highest degree first. -/
def ladderRemainder (info : List Bool) : List Bool :=
  let g := ladderGenerator % 2 ^ 33
  bitsOf 33 (info.foldl (fun r b => (2 * r % 2 ^ 33) ^^^ (if xor (bitOf r 32) b then g else 0)) 0)

/-- Column j of a rung; one that is not held is all-zero. -/
def rungColumn (rung : List (List Bool)) (j : Nat) : List Bool :=
  (List.range 616).map fun i => (rung.getD i []).getD j false

/-- Row j of a rung from its 583 information bits and the rung before it. -/
def ladderRow (prev : List (List Bool)) (j : Nat) (info : List Bool) : List Bool :=
  info ++ ladderRemainder (rungColumn prev j ++ info)

/-- The component codeword of row j holds: its syndrome is zero. -/
def ladderRowOk (prev : List (List Bool)) (j : Nat) (row : List Bool) : Bool :=
  ladderRemainder (rungColumn prev j ++ row.take 583) == row.drop 583

/-- A full row ends: its parity joins the queue, and after row 615 a new rung begins. -/
def Ladder.endRow (l : Ladder) : Ladder :=
  let row := ladderRow l.prev l.rows.length (l.part.take 583)
  let rows := l.rows ++ [row]
  let l := { l with part := l.part.drop 583, queue := l.queue ++ row.drop 583 }
  if rows.length = 616 then { l with prev := rows, rows := [] } else { l with rows := rows }

/-- Information bits fed to the rows. -/
def Ladder.feed (l : Ladder) (bits : List Bool) : Ladder :=
  let l := { l with part := l.part ++ bits }
  (List.range (l.part.length / 583)).foldl (fun l _ => l.endRow) l

/-- Field q made a codeword, with the ladder encoder after it (R204). `sent` are its line bits as they go out: where they differ, the
parity, ladder and inner, stays that of `bits` (R322 point 3). -/
def encodeField (k : LineSet) (q : Nat) (l : Ladder) (bits sent : List Bool) : List Bool × Ladder :=
  let stream := fieldStream k bits
  let p := parityLength k q
  let l := if p = 0 then l else l.feed stream
  let parity := l.queue.take p
  (fieldStream k sent ++ parity ++ innerParity k.profile (stream ++ parity), { l with queue := l.queue.drop p })

/-! ## Slots (R202) -/

/-- The slot sent when the newest codeword is the first of words, newest first; codewords before the first are all-zero. In
Sprint the slot is the codeword. -/
def slotOf (profile : Nat) (words : List (List Bool)) : List Bool :=
  (List.range 9216).map fun p => (words.getD (if profile = profSprint then 0 else p / 576) []).getD p false

/-- The codeword whose segments lie in slots, oldest first, in the same positions (R202 reversed). -/
def deinterleave {α : Type} (profile : Nat) (slots : List (List α)) (d : α) : List α :=
  (List.range 9216).map fun p => (slots.getD (if profile = profSprint then 0 else p / 576) []).getD p d

/-! ## Symbols (R106 to R109, R199, R200) -/

/-- The square root of a / b in units of 2⁻³⁰, rounded down. -/
def rootRatio (a b : Nat) : Int := (rootBits 2 (a * 2 ^ 60 / b) 64 0 : Nat)

/-- The mapper scale: 1, 1 / √5, or 1 / √E of the composition in force (R106, R196). -/
def mapperScale (l : LineSet) : Int :=
  if l.modulation = 2 then rootRatio 1024 (max 1 (compositionFor l.kdm).energy)
  else if l.modulation = 1 then rootRatio 1 5
  else one30

/-- The pilot level p = 10 ^ (boost / 20), boost in 0.5 dB (R108). -/
def pilotLevel (boost : Nat) : Int := tenTo boost 40

/-- Bit i of the known sequence of a channel. -/
def knownBit (ch i : Nat) : Bool := (lfsrBits (i + 1) (knownSeed ch)).getD i false

/-- Generator bit of a frame-word or pilot position of a frame (R108). -/
def knownIndex (n : Nat) : Nat := if n < 256 then n else 256 + 64 * (n / 4096) + (n % 4096 - 4032)

/-- The place of a payload position among the payload symbols of its frame (R107). -/
def payloadIndex (n : Nat) : Nat := n - 256 - 64 * (n / 4096)

/-- Payload symbol times of a slot (R192). -/
def slotSymbols (modulation : Nat) : Nat := dimensions modulation / 4

/-- What a symbol time of a multiframe carries (R107, R199). -/
inductive SymbolUse where
  /-- frame word or pilot: its generator bit -/
  | known (bit : Nat)
  /-- symbol time `at_` of slot `slot` of the multiframe -/
  | data (slot at_ : Nat)
  /-- phase word: symbol time of the pad -/
  | phase (at_ : Nat)
  /-- the rest of the pad: the generator bit it continues with -/
  | pad (bit : Nat)
deriving DecidableEq, Repr

/-- The use of symbol n of a multiframe. -/
def symbolUse (modulation n : Nat) : SymbolUse :=
  let p := n % 65536
  if symbolKind p ≠ 17 then .known (knownIndex p)
  else
    let t := 64256 * (n / 65536) + payloadIndex p
    let w := slotSymbols modulation
    let data := slotsPerMultiframe modulation * w
    if t < data then .data (t / w) (t % w)
    else if t - data < 96 then .phase (t - data)
    else .pad (1280 + (t - data - 96))

/-- A QPSK dimension at the pilot level: bit 0 sends +p (R108). -/
def qpsk (p : Int) (bit : Bool) : Int := if bit then -p else p

/-- Dimension v of a slot: its scaled level (R105, R198). -/
def slotDimension (l : LineSet) (slot : List Bool) (v : Nat) : Int :=
  let lab := labelLength l.modulation
  let b₁ := if l.modulation = 2 then slot.getD (2 * v) false else slot.getD v false
  levelOf l.modulation (slot.getD (lab + v) false) b₁ (slot.getD (2 * v + 1) false) * mapperScale l

/-- The four dimensions XI, XQ, YI, YQ of symbol n of a multiframe, with the slot under way, the phase word and p. -/
def symbolDims (l : LineSet) (slot : List Bool) (word : Nat) (p : Int) (n : Nat) : List Int :=
  (List.range 4).map fun ch =>
    match symbolUse l.modulation n with
    | .known b => qpsk p (knownBit ch b)
    | .data _ t => slotDimension l slot (4 * t + ch)
    | .phase t => qpsk p (bitOf word (31 - (4 * t + ch) / 12))
    | .pad b => qpsk p (knownBit ch b)

/-- A phase word from its 384 sign bits: 12 to a bit, from bit 31 down, by majority (R200). -/
def phaseWordOf (signs : List Bool) : Nat :=
  natOf ((List.range 32).map fun k => phaseBit ((List.range 12).map fun j => signs.getD (12 * k + j) false))

end Sys2Proof.Machine
end

