-- ==== Sys2Proof/Machine/Response.lean ====
section
/-! DEFINITION. The banks the device computes: the root-raised-cosine shaping filter (R110) and the all-pass dispersion
responses (R111, R136), and the default banks. -/

namespace Sys2Proof.Machine

/-! ## Shaping (R110) -/

/-- The unit-energy root-raised-cosine pulse at n / 6 symbol periods with roll-off b / 100, in Q2.14: rounded down or up as
log entry 38 leaves it. DESIGN CHOICE (log entry 49): the energy is that of the endless continuous pulse over a symbol period; the 288
taps kept are not scaled up for what lies beyond them. -/
def rrcTap (b : Nat) (n : Int) : Int :=
  let bn := (b : Int) * n
  if n = 0 then
    rdiv (((100 - (b : Int)) * pi60 + 4 * b * 2 ^ 60) * 2 ^ 14) (100 * pi60.toNat)
  else if bn.natAbs = 150 then
    rdiv ((b : Int) * ((pi60 + 2 * 2 ^ 60) * sinPi 25 b + (pi60 - 2 * 2 ^ 60) * cosPi 25 b) * 2 ^ 14)
      (100 * (fsqrt (2 * one30)).toNat * pi60.toNat)
  else
    let num := (150 * sinPi (n * (100 - b)) 600 + bn * cosPi (n * (100 + b)) 600) * 135000 * 2 ^ 74
    let den := 150 * 2 ^ 30 * pi60 * n * (22500 - bn * bn)
    rdiv (num * den.sign) den.natAbs

/-- 3031 as computed: six phases of 48 taps, phase-major. DESIGN CHOICE (log entry 40): phase r makes sample r of every six
and tap 0 takes the newest symbol, the pulse being centred 24 symbols back. -/
def rrcBank (b : Nat) : List Byte :=
  (List.range 288).flatMap fun k => leBytes 2 (rrcTap b ((5 * (k / 48) % 6 + 6 * (k % 48) : Nat) - 144))

/-! ## Dispersion (R111, R136) -/

/-- Bin k of n of the all-pass response that cancels d ps/nm at an optical frequency in GHz and kBd symbols, in units of
2⁻³⁰. Fibre of dispersion d turns frequency f by π c d f² / ν², and the response turns it back. -/
def dispersionBin (n : Nat) (d : Int) (freq kBd k : Nat) : Cx :=
  let f : Int := if 2 * k < n then k else (k : Int) - n
  unitPhase (-(299792458 * d * (12 * f * kBd) ^ 2)) (2 * n ^ 2 * freq ^ 2 * 10 ^ 17)

/-- Such a response of n bins as a bank, in Q2.14. -/
def dispersionBank (n : Nat) (d : Int) (freq kBd : Nat) : List Byte :=
  (List.range n).flatMap fun k =>
    let h := Cx.rdiv (dispersionBin n d freq kBd k) 65536
    leBytes 2 h.1 ++ leBytes 2 h.2

/-- One frequency-domain response of n bins that changes nothing: every bin 1.0 in Q2.14. -/
def unitResponse (n : Nat) : List Byte := (List.replicate n (leBytes 2 16384 ++ leBytes 2 0)).flatten

/-- The computed contents of bank b formed from its three numbers: roll-off or dispersion, frequency, symbol rate; 0 ps/nm
is a unit response (R111, R136). -/
def computedBank (b : Nat) (p : List Int) : List Byte :=
  let n := if b / 12 = 1 then 2048 else 8192
  if b / 12 = 0 then rrcBank (p.headD 0).toNat
  else if p.headD 0 = 0 then unitResponse n
  else dispersionBank n (p.headD 0) (p.getD 1 0).toNat (p.getD 2 0).toNat

/-! ## Defaults -/

/-- Pre-emphasis that passes every channel unchanged (R114). -/
def unitPreemphasis : List Byte :=
  (List.range 60).flatMap fun k => leBytes 2 (if k % 15 = 7 then 16384 else 0)

/-- The identity amplitude curve (R115). -/
def identityCurve : List Byte := (List.range 516).flatMap fun k => leBytes 2 ((k % 129 : Nat) * 128 - 8192 : Int)

/-- Initial taps with both straight centre taps 1.0 (R143). -/
def unitTaps : List Byte :=
  (List.range 124).flatMap fun k => leBytes 2 (if k = 15 ∨ k = 108 then 16384 else 0) ++ leBytes 2 0

/-- Taps saturated at ±(2 − 2⁻¹⁴) in each part (R141). -/
def satTaps (b : List Byte) : List Byte :=
  (List.range (b.length / 2)).flatMap fun j => leBytes 2 (max (-32767) (min 32767 (leInt ((b.drop (2 * j)).take 2))))

/-- What a bank without bytes of its own holds: its computed contents, or the default response (R110 to R115, R117). -/
def bankContents (b : Nat) (p : List Int) : List Byte :=
  match b / 12 with
  | 2 => unitPreemphasis
  | 3 => identityCurve
  | 5 => unitTaps
  | _ => computedBank b p

end Sys2Proof.Machine
end

