-- ==== Sys2Proof/Machine/TxLine.lean ====
section
/-! DEFINITION. The transmit line of a carrier on its own data: fields and codewords from line bits, symbols, and stages 3 to
8 of the transmit pipeline (R104 to R119).

DESIGN CHOICE (log entry 40): a stage's latency is not modelled, only the order of its data; what lies before the first
symbol is 0; the reading of tap order, phase order and block alignment is given where it is used. -/

namespace Sys2Proof.Machine

/-- What stages 1 to 8 rest on while a stroke set is made. -/
structure TxSet where
  line : LineSet
  /-- pilot boost in force, and as stored for the next frame start (R109) -/
  boost : Nat
  stored : Nat
  /-- banks in force: shaping, dispersion, pre-emphasis, amplitude curve -/
  shape : List Byte
  cd : List Byte
  fir : List Byte
  curve : List Byte
  /-- the response a cross-fade brings, and its first sample in this set (R119) -/
  fade : Option (List Byte × Nat)
  /-- wiring map and delays in force -/
  map : Nat
  skew : List Int
  rms : Nat
  /-- Compatible: the symbols of the MSA signal, in place of stages 1 and 2 (R205) -/
  msa : Option (List Cx2)
  /-- symbol times made before this set -/
  made : Nat
  /-- free values from here on stand for line bits that no frame has brought -/
  free : Nat
  /-- tags of the line tiles that failed at the encoder (R322 point 3) -/
  failed : List Nat
deriving DecidableEq, Repr

/-- Pilot boost at symbol time n: from a frame start within the set on, the stored one (R109). -/
def TxSet.boostAt (k : TxSet) (n : Nat) : Nat := if k.made ≤ n / 65536 * 65536 then k.stored else k.boost

/-- Tap k of a bank of I16 taps. -/
def realTap (b : List Byte) (k : Nat) : Int := leInt ((b.drop (2 * k)).take 2)

/-- Bin k of a bank of complex Q2.14 values. -/
def binOf (b : List Byte) (k : Nat) : Cx := (realTap b (2 * k), realTap b (2 * k + 1))

/-! ## Stages 1 and 2 -/

/-- The next field is filled from the line bits and made a codeword; bits that no frame has brought are free. The words of a tile
that failed are complemented. -/
def TxLine.encode (t : TxLine) (k : TxSet) : TxLine :=
  let n := fieldInput k.line t.field
  let have_ := t.bits.take n
  let rest := (List.range (n - have_.length)).map fun j => Config.freeNat (k.free + j) % 2 == 1
  let e := encodeField k.line t.field t.ladder (have_.map Prod.fst ++ rest)
    ((have_.map fun b => xor b.1 (k.failed.contains b.2)) ++ rest)
  { t with bits := t.bits.drop n, field := t.field + 1, ladder := e.2, words := (e.1 :: t.words).take 16 }

/-- Symbol times of a multiframe. -/
def multiframeSymbols : Nat := 16777216

/-- The next symbol time (R107, R199): a new slot brings a codeword, and the end of the data the phase word of the codeword
that comes next (R200). -/
def TxLine.symbol (t : TxLine) (k : TxSet) : TxLine :=
  let n := t.made % multiframeSymbols
  let t := match symbolUse k.line.modulation n with
    | .data _ 0 => t.encode k
    | .phase 0 => { t with phase := phaseWord k.line.profile t.field }
    | _ => t
  let d := symbolDims k.line (slotOf k.line.profile t.words) t.phase (pilotLevel (k.boostAt t.made)) n
  let s : Cx2 := ((d.getD 0 0, d.getD 1 0), (d.getD 2 0, d.getD 3 0))
  { t with made := t.made + 1, symbols := (s :: t.symbols).take 48 }

/-- The next symbol of the MSA signal, which replaces frame and codes (R205). -/
def TxLine.msaSymbol (t : TxLine) (s : Cx2) : TxLine :=
  { t with made := t.made + 1, symbols := (s :: t.symbols).take 48 }

/-! ## Stage 3 (R110) -/

/-- A linear map of both polarisations. -/
def onBoth (f : Cx → Cx) (s : Cx2) : Cx2 := (f s.1, f s.2)

/-- Sum of samples of both polarisations. -/
def total2 (l : List Cx2) : Cx2 := (Cx.total (l.map Prod.fst), Cx.total (l.map Prod.snd))

/-- The sample that phase r of the shaping filter makes of the last 48 symbols. -/
def shapeAt (bank : List Byte) (r : Nat) (symbols : List Cx2) : Cx2 :=
  onBoth (Cx.rdiv · 16384) (total2 (symbols.zipIdx.map fun e => onBoth (Cx.scale (realTap bank (48 * r + e.2))) e.1))

/-! ## Overlap-save filters (R111, R134) -/

/-- Output o of an overlap-save filter of n bins over samples x: the block of n samples that o lies in the middle half of,
transformed, multiplied bin by bin, and transformed back. A response reaches n / 4 samples both ways (R111, R134: up to
n / 2 taps). -/
def overlapSave (n : Nat) (bank : List Byte) (x : Int → Cx) (o : Int) : Cx :=
  let at_ := o / (n / 2 : Nat) * (n / 2 : Nat) - (n / 4 : Nat)
  let bin := fun (k : Nat) => Cx.rdiv (Cx.total ((List.range n).map fun (t : Nat) =>
    Cx.mul (x (at_ + t)) (unitPhase (-((k * t : Nat) : Int)) n))) 1073741824
  Cx.rdiv (Cx.total ((List.range n).map fun (k : Nat) =>
    Cx.mul (Cx.rdiv (Cx.mul (bin k) (binOf bank k)) 16384) (unitPhase ((k : Int) * (o - at_)) n))) (1073741824 * n)

/-- Output o on both polarisations alike, with samples newest first from index `last` down. -/
def overlapSave2 (n : Nat) (bank : List Byte) (l : List Cx2) (last o : Int) : Cx2 :=
  let x := fun (p : Cx2 → Cx) (i : Int) => if i ≤ last then p (l.getD (last - i).toNat ((0, 0), (0, 0))) else (0, 0)
  (overlapSave n bank (x Prod.fst) o, overlapSave n bank (x Prod.snd) o)

/-- The weight of the new response at sample i of a cross-fade, in 1/4,096: it rises by one at each symbol period, five to
six samples (R119). -/
def fadeWeight (i : Nat) : Nat := min 4096 (5 * i / 6)

/-- (1 − w) × old + w × new (R119). -/
def fadeMix (w : Nat) (old new : Cx2) : Cx2 :=
  let m := fun (a b : Cx) => Cx.rdiv (Cx.add (Cx.scale (4096 - (w : Int)) a) (Cx.scale w b)) 4096
  (m old.1 new.1, m old.2 new.2)

/-! ## Stages 5 to 8 -/

/-- A wiring map on four channels XI, XQ, YI, YQ (R74, R77): the pairs exchanged, then XQ and YQ inverted. DESIGN CHOICE
(log entry 41): the exchange comes before the inversions. -/
def wireMap (map : Nat) (l : List Int) : List Int :=
  let g := fun (k : Nat) => l.getD (if bitOf map 2 then (k + 2) % 4 else k) 0
  [g 0, if bitOf map 0 then -g 1 else g 1, g 2, if bitOf map 1 then -g 3 else g 3]

/-- A channel delayed by d of 1/64 sample beyond the central delay, its samples newest first (R113, R128). -/
def delayAt (d : Int) (l : List Int) : Int :=
  let whole := (64 + d / 64).toNat
  let frac := (d % 64).toNat
  if frac = 0 then l.getD (whole + 8) 0
  else rdiv (((List.range 16).map fun k => Config.delayTap frac k * l.getD (whole + k) 0).sum) 16384

/-- The 15-tap pre-emphasis of DAC channel j, its samples newest first (R114). -/
def firAt (bank : List Byte) (j : Nat) (l : List Int) : Int :=
  rdiv (((List.range 15).map fun k => realTap bank (15 * j + k) * l.getD k 0).sum) 16384

/-- The amplitude curve of DAC channel j at x code units, x in units of 2⁻³⁰ (R115): held at the end points, interpolated
between points 2 code units apart, rounded to the nearest code, ties away from zero. -/
def curveAt (bank : List Byte) (j : Nat) (x : Int) : Int :=
  let y := max 0 (min (256 * one30) (x + 128 * one30))
  let i := min 127 (y / (2 * one30)).toNat
  let f := y - 2 * one30 * i
  let p := realTap bank (129 * j + i)
  let q := realTap bank (129 * j + i + 1)
  roundAway (p * (2 * one30) + (q - p) * f) (128 * one30.toNat)

/-- A code as the DAC can output it (R115). -/
def clipCode (v : Int) : Int := max (-128) (min 127 v)

/-! ## A stroke set -/

/-- Sample number `t.samples` of the line: a new symbol where one falls, then stages 3 to 8; i is its place in the set. The
answer beside the line is the rounded amplitude-curve output of each DAC channel. -/
def TxLine.sample (k : TxSet) (i : Nat) (t : TxLine) : TxLine × List Int :=
  let r := t.samples % 6
  let t := if r = 1 then t
    else match k.msa with
      | none => t.symbol k
      | some l => t.msaSymbol (l.getD (t.made - k.made) ((0, 0), (0, 0)))
  let shaped := (shapeAt k.shape r t.symbols :: t.shaped).take 4096
  let o : Int := (t.samples : Int) - 2048
  let old := overlapSave2 2048 k.cd shaped t.samples o
  let s := match k.fade with
    | none => old
    | some f => fadeMix (fadeWeight (f.2 + i)) old (overlapSave2 2048 f.1 shaped t.samples o)
  let w := wireMap k.map [s.1.1, s.1.2, s.2.1, s.2.2]
  let wired := (List.range 4).map fun j => (w.getD j 0 :: t.wired.getD j []).take 160
  let delayed := (List.range 4).map fun j =>
    (delayAt (k.skew.getD j 0) (wired.getD j []) :: t.delayed.getD j []).take 15
  ({ t with samples := t.samples + 1, shaped := shaped, wired := wired, delayed := delayed },
    (List.range 4).map fun j => curveAt k.curve j (firAt k.fir j (delayed.getD j []) * (k.rms : Int)))

/-- A stroke set made: the line after it, and 256 rounded outputs of the four DAC channels. -/
def TxLine.stroke (k : TxSet) (t : TxLine) : TxLine × List (List Int) :=
  (List.range 256).foldl (fun a i => let r := a.1.sample k i; (r.1, a.2 ++ [r.2])) (t, [])

/-- Outputs beyond the code range, all four DACs (R115). -/
def clipsOf (l : List (List Int)) : Nat := (l.map fun s => (s.filter fun v => clipCode v != v).length).sum

/-- The codes of a stroke set. -/
def codesOf (l : List (List Int)) : List (List Int) := l.map fun s => s.map clipCode

/-- Line bits that the fields begun in the next set lack (at most one field begins in a set). -/
def TxLine.lack (t : TxLine) (k : TxSet) : Nat :=
  let n := t.made % multiframeSymbols
  if (List.range 214).any fun j => match symbolUse k.line.modulation ((n + j) % multiframeSymbols) with
    | .data _ 0 => true
    | _ => false
  then fieldInput k.line t.field - t.bits.length else 0

end Sys2Proof.Machine
end

