-- ==== Sys2Proof/Machine/RxLine.lean ====
section
/-! DEFINITION. The receive line of a carrier on its own data: stages 1 to 9 of the receive pipeline (R124 to R141, R157 to
R168), the demapper (R206), and the way back from slots to line bits (R197, R202 to R209).

DESIGN CHOICE (log entry 42): as on transmit, a stage's latency is not modelled, only the order of its data. -/

namespace Sys2Proof.Machine

/-! ## Stages 1 to 5 -/

/-- What stages 1 to 5 rest on while a stroke set passes. -/
structure RxSet where
  /-- delays of the four channels and wiring map in force -/
  skew : List Int
  map : Nat
  /-- front end: enabled, adapting, 3042.02, and the phase and gain errors it corrects -/
  fe : Bool
  adapt : Bool
  dcShift : Nat
  phase : List Int
  gain : List Int
  /-- dispersion response in force, and the one a cross-fade brings with its first sample in this set -/
  cd : List Byte
  fade : Option (List Byte × Nat)
deriving DecidableEq, Repr

/-- 10 ^ (n / d) in units of 2⁻³⁰ for n of either sign. -/
def tenRatio (n : Int) (d : Nat) : Int :=
  if 0 ≤ n then tenTo n.toNat d else rdiv (one30 * one30) (max 1 (tenTo n.natAbs d).toNat)

/-- The running mean of a channel takes a sample (R131): step 2 ^ −shift, within ±8 LSB. -/
def dcStep (shift : Nat) (dc v : Int) : Int :=
  max (-8 * one30) (min (8 * one30) (dc + rdiv (v - dc) (2 ^ shift)))

/-- I and Q corrected for a gain ratio in 0.01 dB and a phase error in 0.1° (R131): Q is scaled to I and made orthogonal to
it. DESIGN CHOICE (log entry 42): the ratio is that of I to Q, and the error tilts Q towards I. -/
def iqCorrect (gain phase i q : Int) : Cx :=
  let q := fmul q (tenRatio gain 2000)
  (i, rdiv ((q - fmul i (sinPi phase 1800)) * one30) (max 1 (cosPi phase 1800).toNat))

/-- A sample of the four physical channels through stages 1 to 5; codes in LSB, i its place in the set. A blanked sample is
zero on every channel and teaches the running means nothing (R125, R131). A flag goes with its sample through the central delay of
stage 2, whatever the delays of the channels (DESIGN CHOICE, log entry 49). -/
def RxLine.sample (k : RxSet) (blank : Bool) (i : Nat) (codes : List Int) (r : RxLine) : RxLine :=
  let v := (List.range 4).map fun j => if blank then 0 else codes.getD j 0 * one30
  let raw := (List.range 4).map fun j => (v.getD j 0 :: r.raw.getD j []).take 160
  let flags := (blank :: r.flags).take 160
  let w := wireMap k.map ((List.range 4).map fun j => delayAt (k.skew.getD j 0) (raw.getD j []))
  let dc := if !k.fe || !k.adapt || flags.getD 72 true then r.dc
    else (List.range 4).map fun j => dcStep k.dcShift (r.dc.getD j 0) (w.getD j 0)
  let u := fun (j : Nat) => w.getD j 0 - (if k.fe then dc.getD j 0 else 0)
  let s : Cx2 := if k.fe then
      (iqCorrect (k.gain.getD 0 0) (k.phase.getD 0 0) (u 0) (u 1), iqCorrect (k.gain.getD 1 0) (k.phase.getD 1 0) (u 2) (u 3))
    else ((u 0, u 1), (u 2, u 3))
  let front := (s :: r.front).take 16384
  let o : Int := (r.samples : Int) - 8192
  let old := overlapSave2 8192 k.cd front r.samples o
  let e := match k.fade with
    | none => old
    | some f => fadeMix (fadeWeight (f.2 + i)) old (overlapSave2 8192 f.1 front r.samples o)
  { r with samples := r.samples + 1, dc := dc, raw := raw, flags := flags,
           blank := (flags.getD 72 true :: r.blank).take 16384, front := front,
           equal := (e :: r.equal).take 4096 }

/-- A stroke set through stages 1 to 5 (R124). -/
def RxLine.stroke (k : RxSet) (erased : Bool) (codes : Stroke) (r : RxLine) : RxLine :=
  (List.range 256).foldl (fun r i => r.sample k erased i (codes.getD i [])) r

/-- A gap of more than 32 sets (R126): the histories of stages 2 to 7 are cleared and the sample count moves on. -/
def RxLine.gap (r : RxLine) (n : Nat) : RxLine :=
  { r with samples := r.samples + 256 * n, raw := [[], [], [], []], flags := [], blank := [],
           clock := none, front := [], equal := [] }

/-- The symbols whose nearest sample lies in the 256 samples that end before sample n (R127). -/
def symbolsIn (n : Nat) : Nat := (5 * n + 3) / 6 - (5 * (n - 256) + 3) / 6

/-! ## Stages 6 and 7 (R132, R141) -/

/-- Sample i of stage 5, counted since exit from Idle. Its own delay behind stage 4 is 8,192 samples. -/
def RxLine.equalAt (r : RxLine) (i : Int) : Cx2 :=
  let last : Int := (r.samples : Int) - 8193
  if i ≤ last then r.equal.getD (last - i).toNat ((0, 0), (0, 0)) else ((0, 0), (0, 0))

/-- Sample i was blanked, or lies in a gap. -/
def RxLine.blankAt (r : RxLine) (i : Nat) : Bool := r.blank.getD (r.samples - 1 - i) true

/-- The stage-5 signal at f / 1,024 of a sample behind sample i, by the cubic through the four samples about it (R132). -/
def RxLine.interpolate (r : RxLine) (i f : Nat) : Cx2 :=
  let f : Int := f
  let w : List Int := [-f * (f - 1024) * (f - 2048), 3 * (f + 1024) * (f - 1024) * (f - 2048),
    -3 * (f + 1024) * f * (f - 2048), (f + 1024) * f * (f - 1024)]
  onBoth (Cx.rdiv · (6 * 1024 ^ 3)) (total2 ((List.range 4).map fun k =>
    onBoth (Cx.scale (w.getD k 0)) (r.equalAt ((i : Int) - 1 + k))))

/-- A value in 2⁻³⁰ LSB as Q2.14 of unit amplitude, saturating as the taps do. -/
def toUnit (v : Cx) : Cx := Cx.rdiv (Cx.scale 65536 v) (65536 * (Config.unitLsb + 1))

/-- k half-symbol periods of a far-end clock that leads the local one by freq of 2⁻¹⁶ ppb, in 2⁻²⁰ sample: a local one is 0.6
sample (R60, R132). -/
def halfSymbols (freq k : Int) : Int := rdiv (6 * 2 ^ 20 * 65536 * 1000000000 * k) (10 * (65536 * 1000000000 + freq).toNat)

/-- The timing loop by the end of a block of 16 symbols (R132): second order, natural bandwidth 3043.01 in kHz at b kBd, damping
0.707, driven by the error detected, in 1/1000 symbol period. The integrator holds while hold says so and stays within ±200 ppm.
DESIGN CHOICE (log entry 49): the discrete form of the loop. -/
def RxLine.timingStep (r : RxLine) (bandwidth b : Nat) (hold : Bool) (start err : Int) : RxLine :=
  let w := rdiv (2 * pi60 * bandwidth * 16) (max 1 b)
  let f := if hold then r.clockFreq
    else max (-13107200000) (min 13107200000 (r.clockFreq + rdiv (err * w * w * 65536 * 1000000000) (16000 * 2 ^ 120)))
  { r with clock := some (start + halfSymbols f 32 - rdiv (err * 1414 * w * 12 * 2 ^ 20) (10000000 * 2 ^ 60)), clockFreq := f }

/-! ## Stage 8: decisions and phases (R157, R165 to R167)

Phases are in units of π / 4,096: a turn is 8,192, π / 2 is 2,048 and one of 32 test angles of π / 2 is 64. -/

/-- A value turned by phase a. -/
def turn (a : Int) (v : Cx) : Cx := Cx.fmul v (unitPhase a 8192)

/-- A phase brought to −π to π. -/
def wrapPhase (a : Int) : Int := (a + 4096) % 8192 - 4096

/-- The phase of a complex number: of the 8,192 the one that its turned real part is largest at. -/
def phaseOf (v : Cx) : Int :=
  wrapPhase (((List.range 8192).foldl (fun (b : Int × Int) a =>
    let m := (Cx.mul v (unitPhase (-(a : Int)) 8192)).1
    if b.2 < m then ((a : Int), m) else b) (0, 0)).1)

/-- The nearest level of a dimension in Q2.14: constellation levels 1, 3, 5, 7 times the mapper scale. -/
def decideLevel (l : LineSet) (v : Int) : Int :=
  let unit := rdiv (mapperScale l) 65536
  let n : Nat := if l.modulation = 2 then 4 else if l.modulation = 1 then 2 else 1
  let a := (List.range n).foldl (fun (b : Int) k =>
    if (v.natAbs - (2 * k + 1) * unit).natAbs < (v.natAbs - b).natAbs then (2 * k + 1 : Int) * unit else b) unit
  if v < 0 then -a else a

/-- The nearest constellation point; in Compatible that of the MSA's signal (R205). -/
def decide2 (l : LineSet) (v : Cx) : Cx :=
  if l.profile = profCompatible then Config.msaPoint v else (decideLevel l v.1, decideLevel l v.2)

/-- The symbol at place n of a frame is a known one: frame word or pilot (R107), or in Compatible one of the MSA's (R205). -/
def knownAt (l : LineSet) (n : Nat) : Bool :=
  if l.profile = profCompatible then (Config.msaKnown n).isSome else symbolKind n != 17

/-- The known symbol of polarisation p (0 X, 1 Y) at such a place, in Q2.14, at the pilot level of a boost (R108). DESIGN CHOICE
(log entry 49): the far end's boost is taken to be the carrier's own. -/
def knownSymbol (l : LineSet) (boost p n : Nat) : Cx :=
  if l.profile = profCompatible then
    let e := (Config.msaKnown n).getD ((0, 0), (0, 0))
    if p = 0 then e.1 else e.2
  else
    let a := rdiv (pilotLevel boost) 65536
    (qpsk a (knownBit (2 * p) (knownIndex n)), qpsk a (knownBit (2 * p + 1) (knownIndex n)))

/-- Polarisation p of a pair. -/
def ofPol {α : Type} (p : Nat) (s : α × α) : α := if p = 0 then s.1 else s.2

/-- Phase of polarisation p measured on a known-symbol group, over its symbols that are not erased. -/
def groupPhase (l : LineSet) (boost p : Nat) (group : List RxSymbol) : Int :=
  phaseOf (Cx.rdiv (Cx.total ((group.filter fun s => !s.erased).map fun s =>
    Cx.mul (ofPol p s.y) (Cx.conj (knownSymbol l boost p s.at_)))) 16384)

/-- Phase that a frequency in mHz adds in h half symbols at b kBd. -/
def freqHalf (freq h : Int) (b : Nat) : Int := rdiv (freq * 8192 * h) (2000000 * max 1 b)

/-- Phase that a frequency in mHz adds in n symbols at b kBd. -/
def freqPhase (freq n : Int) (b : Nat) : Int := freqHalf freq (2 * n) b

/-- The blind estimate of symbol n of a list (R166): of 32 angles over π / 2 the one at which the window of symbols centred
on it lies nearest to the constellation, the frequency taken out. -/
def blindAngle (l : LineSet) (freq : Int) (b window p : Nat) (syms : List RxSymbol) (n : Nat) : Nat :=
  let near := (List.range window).filterMap fun k => if n + k < window / 2 then none else
    (syms[n + k - window / 2]?).map fun s => ((n + k - window / 2 : Int) - n, s)
  let cost := fun (a : Nat) => ((near.filter fun e => !e.2.erased).map fun e =>
    let v := turn (-(64 * (a : Int) + freqPhase freq e.1 b))
      (ofPol p e.2.y)
    Cx.norm (Cx.sub v (decide2 l v))).sum
  ((List.range 32).foldl (fun (best : Nat × Int) a => if cost a < best.2 then (a, cost a) else best) (0, cost 0)).1

/-- The angle a, known to a multiple of π / 2, unwrapped to the phase it lies nearest to. -/
def unwrapTo (near a : Int) : Int := a + 2048 * ((near - a + 1024) / 2048)

/-- The blind track of polarisation p over the first n symbols of a list, from the phase before them (R166); before are the symbols
that came before the list, as far as a window reaches. -/
def blindTrack (l : LineSet) (freq : Int) (b window p : Nat) (before syms : List RxSymbol) (start : Int) (n : Nat) : List Int :=
  let all := before ++ syms
  ((List.range n).foldl (fun (a : Int × List Int) k =>
    let phi := unwrapTo (a.1 + freqPhase freq 1 b) (64 * (blindAngle l freq b window p all (before.length + k) : Int))
    (phi, a.2 ++ [phi])) (start, [])).2

/-- The track between two groups in Tentative (R166): linear from the phase at the one to the phase at the other, the turns
between them being those the frequency estimate gives. -/
def linearTrack (freq : Int) (b : Nat) (start stop : Int) (n : Nat) : List Int :=
  let along := freqPhase freq (n + 1) b
  let d := along + wrapPhase (stop - start - along)
  (List.range n).map fun k => start + rdiv (d * (k + 1)) (n + 1)

/-- What a known-symbol group finds of a blind track (R167). -/
inductive Slip where
  | none
  /-- resolved: the multiple of π / 2 -/
  | resolved (k : Int)
  | unresolved
deriving DecidableEq, Repr

/-- A difference classified (R167): within π / 8 of a multiple of π / 2 or farther; after an erased group a slip is
unresolved. -/
def slipOf (delta : Int) (gap : Bool) : Slip :=
  let k := (delta + 1024) / 2048
  if 512 < (delta - 2048 * k).natAbs then .unresolved
  else if k = 0 then .none
  else if gap then .unresolved
  else .resolved k

/-- The place of the largest step of a track that starts from a phase, the frequency taken out (R167). -/
def largestStep (step start : Int) (track : List Int) : Nat :=
  let steps := (List.range track.length).map fun k =>
    (track.getD k 0 - (if k = 0 then start else track.getD (k - 1) 0) - step).natAbs
  ((List.range track.length).foldl (fun (b : Nat × Nat) k =>
    if b.2 < steps.getD k 0 then (k, steps.getD k 0) else b) (0, 0)).1

/-- The track corrected by k quarter turns from the largest step on. -/
def correctTrack (step start k : Int) (track : List Int) : List Int :=
  let at_ := largestStep step start track
  track.zipIdx.map fun e => if at_ ≤ e.2 then e.1 + 2048 * k else e.1

/-! ## Second pass (R157 to R159) -/

/-- n symbols at b kBd of a clock that leads by off ppb, in ps. -/
def symbolPs (b : Nat) (off n : Int) : Int := n * 10 ^ 18 / (max 1 b * max 1 (10 ^ 9 + off))

/-- The decision stream at an instant in ps, its clock leading by off ppb (R158): d and φ of the symbol before it and of the one
after, and how far the instant lies between them in 1/64 symbol; none where the stream does not hold it. -/
def streamAt (l : List Decision) (instant : Int) (b : Nat) (off : Int) : Option (Decision × Nat) :=
  (l.find? fun e => decide ((e.instant : Int) ≤ instant)).bind fun e =>
    let f := ((instant - e.instant) * (max 1 b * (10 ^ 9 + off)) * 64 / 10 ^ 18).toNat
    if f < 64 then some (e, f) else none

/-- u of a polarisation at an instant (R158): d × e^(jφ), resampled by the fractional-delay stage, then turned by Δ n / B, the
turns being num / den. A symbol that is not valid gives 0. DESIGN CHOICE (log entry 49): the fractional-delay stage has 16 taps and
steps of 1/64 symbol, its taps those of a channel delay. -/
def neighbourAt (l : List Decision) (p b : Nat) (off instant num : Int) (den : Nat) : Cx :=
  match streamAt l instant b off with
  | none => (0, 0)
  | some (e, f) =>
    let near := (List.range 16).map fun k =>
      match l.find? fun d => decide (d.n + 7 = e.n + k) with
      | some d => if d.valid then turn (ofPol p d.phi) (ofPol p d.d) else ((0, 0) : Cx)
      | none => (0, 0)
    let v := if f = 0 then near.getD 7 (0, 0)
      else Cx.rdiv (Cx.total ((List.range 16).map fun k => Cx.scale (Config.delayTap f (15 - k)) (near.getD k (0, 0)))) 16384
    if e.valid then Cx.fmul v (unitPhase num den) else (0, 0)

/-! ## Demapper (R196, R206) -/

/-- The LLR, in units of 0.5 nat, that the composition in force alone gives label bit b of a dimension (R196): the logarithm of its
amplitudes with the bit 0 over those with it 1; none of one kind leaves no doubt. -/
def priorOf (l : LineSet) (b : Nat) : Int :=
  if l.modulation ≠ 2 ∨ b = 2 then 0
  else
    let c := compositionFor l.kdm
    let n := if b = 0 then (c.n1 + c.n3, c.n5 + c.n7) else (c.n1 + c.n7, c.n3 + c.n5)
    if n.2 = 0 then 1000000 else if n.1 = 0 then -1000000 else twiceLn n.1 n.2

/-- The levels of a dimension in Q2.14 that bit b (0 first label bit, 1 second, 2 sign) has the value v at (R105, R106). -/
def bitLevels (l : LineSet) (b : Nat) (v : Bool) : List Int :=
  let unit := rdiv (mapperScale l) 65536
  let labels : List (Bool × Bool) := if l.modulation = 2 then [(false, false), (false, true), (true, true), (true, false)]
    else if l.modulation = 1 then [(false, false), (true, false)] else [(false, false)]
  [false, true].flatMap fun sign =>
    (labels.filter fun e => (if b = 0 then e.1 else if b = 1 then e.2 else sign) == v).map fun e =>
      levelOf l.modulation sign e.1 e.2 * unit

/-- The square of the distance from a value to the nearest level of a list. -/
def nearestSquare (levels : List Int) (v : Int) : Nat :=
  match levels with
  | [] => 0
  | h :: t => t.foldl (fun a x => min a ((v - x).natAbs ^ 2)) ((v - h).natAbs ^ 2)

/-- The LLR of bit b of a dimension received at v in Q2.14 (R196, R206): it favours the bit value whose levels are the nearer. DESIGN
CHOICE (log entry 10): which value is favoured goes by the nearest levels; its size is free. -/
def bitLlr (l : LineSet) (b : Nat) (v : Int) : Int :=
  let d₀ := nearestSquare (bitLevels l b false) v
  let d₁ := nearestSquare (bitLevels l b true) v
  let size : Int := Config.llr l.modulation b (max d₀ d₁ - min d₀ d₁)
  let prior := priorOf l b
  if 1000000 ≤ prior.natAbs then llrSat prior
  else llrSat ((if d₀ < d₁ then size else if d₁ < d₀ then -size else 0) + prior)

/-- The LLRs of a dimension: label bits, then sign; none of an erased symbol, which counts as 0 (R206). -/
def demapDimension (l : LineSet) (v : Option Int) : List (Option Int) :=
  let bits := if l.modulation = 2 then [0, 1, 2] else if l.modulation = 1 then [0, 2] else [2]
  bits.map fun b => v.map (bitLlr l b)

/-- The LLRs of a slot by position from those of its dimensions (R198): labels, then signs. -/
def slotLlrs (dims : List (List (Option Int))) : List (Option Int) :=
  (dims.flatMap fun d => d.dropLast) ++ dims.map fun d => (d.getLast?).join

/-- Dimension XI, XQ, YI or YQ of a symbol. -/
def dimOf (s : Cx2) (ch : Nat) : Int := if ch = 0 then s.1.1 else if ch = 1 then s.1.2 else if ch = 2 then s.2.1 else s.2.2

/-- A symbol at the demapper: place in the frame and multiframe, and X and Y as stage 8 or the second pass leaves them; erased =
none. Frame word, pilots and pad give no LLRs (R206); the pad gives the signs of the phase word (R200). In Compatible symbols go to the
decoder of the MSA's code, whose frames and figures come with its commands (R205, log entry 49). -/
def RxLine.demap (l : LineSet) (at_ : Nat) (frame : Option Nat) (v : Option Cx2) (r : RxLine) : RxLine :=
  match frame, decide (l.profile = profCompatible) with
  | none, _ | _, true => r
  | some f, false =>
    let dim := fun (ch : Nat) => v.map fun s => dimOf s ch
    match symbolUse l.modulation (65536 * f + at_) with
    | .data slot t =>
      let dims := (if t = 0 then [] else r.dims) ++ (List.range 4).map fun ch => demapDimension l (dim ch)
      if dims.length = dimensions l.modulation then
        { r with dims := [], signs := [], slots := r.slots ++
            [⟨if slot = 0 ∧ r.signs.length = 384 then some (phaseWordOf r.signs) else none, slotLlrs dims⟩] }
      else { r with dims := dims }
    | .phase t =>
      let signs := (if t = 0 then [] else r.signs) ++ (List.range 4).map fun ch => decide ((dim ch).getD 0 < 0)
      { r with signs := signs, phase := if signs.length = 384 then some (phaseWordOf signs) else none }
    | _ => r

/-- LLRs as a capture takes them: one I8 per codeword position (R372 point 3). -/
def llrBytes (l : List (Option Int)) : List Byte := l.map fun x => BitVec.ofInt 8 (x.getD 0)

/-- The codeword that the newest slot completes, as a capture takes it: in Long the newest 16 slots de-interleaved, none before there
are 16 (R202, R372 point 3). -/
def codewordBytes (profile : Nat) (slots : List RxSlot) : List Byte :=
  if profile = profSprint then (slots.getLast?.map fun e => llrBytes e.llr).getD []
  else if slots.length < 16 then []
  else llrBytes (deinterleave profile ((slots.drop (slots.length - 16)).map RxSlot.llr) none)

/-! ## Decoding (R202 to R209) -/

/-- The decoder takes its place from a phase word (R200, R209): rows before the one it names are not held, and the parity in
its queue belongs to them. -/
def RxLine.align (w : Nat) (r : RxLine) : RxLine :=
  let q := Sys2Proof.Machine.field w 27 3
  let row := Sys2Proof.Machine.field w 17 10
  let bit := Sys2Proof.Machine.field w 7 10
  { r with aligned := true, field := q, outField := q, part := List.replicate bit false, parity := [],
           skip := Sys2Proof.Machine.field w 0 7, open_ := [], window := List.replicate row (List.replicate 616 false),
           prev := [], void := 583 * row + bit, info := [], bits := [], frames := 0, first := q }

/-- The de-interleaver, decoders, ladder window and inverse matcher cleared (R209). -/
def RxLine.clear (r : RxLine) : RxLine :=
  { r with dims := [], signs := [], phase := none, slots := [], clock := none,
            aligned := false, field := 0, outField := 0, part := [], parity := [],
           skip := 0, open_ := [], window := [], prev := [], void := 0, info := [], bits := [], bip := none, frames := 0, first := 0,
           multi := RxMulti.start, boats := [] }

/-- Rows whose 33 parity bits have come join the window (R203, R204). -/
def RxLine.close (r : RxLine) : RxLine :=
  let r := { r with parity := r.parity.drop r.skip, skip := r.skip - r.parity.length }
  let n := min r.open_.length (r.parity.length / 33)
  { r with open_ := r.open_.drop n, parity := r.parity.drop (33 * n),
           window := r.window ++ (List.range n).map fun k => r.open_.getD k [] ++ (r.parity.drop (33 * k)).take 33 }

/-- The information part of a codeword of the Long profile enters the ladder window. -/
def RxLine.ladderIn (l : LineSet) (info : List Bool) (r : RxLine) : RxLine :=
  let n := streamLength l r.field
  let part := r.part ++ info.take n
  let rows := part.length / 583
  ({ r with field := (r.field + 1) % 7, part := part.drop (583 * rows), parity := r.parity ++ info.drop n,
            open_ := r.open_ ++ (List.range rows).map fun k => (part.drop (583 * k)).take 583 } : RxLine).close

/-- The rung that leaves the window of 6, if one does, as received (R207). -/
def RxLine.leaving (r : RxLine) : Option (List (List Bool)) :=
  if 6 * 616 ≤ r.window.length then some (r.window.take 616) else none

/-- The row of a rung as the ladder decoder delivers it: what it decided, or what came. -/
def rowDecided (decided : List (List Bool)) (was : List (List Bool)) (j : Nat) : List Bool :=
  let d := decided.getD j []
  if d.length = 616 then d else was.getD j []

/-- Bits in which two rows differ. -/
def rowChanges (a b : List Bool) : Nat := ((xorBits a b).filter id).length

/-- Fields whose bits have all come leave through the inverse matcher (R197); n is how many at most. -/
def RxLine.deliverFields (l : LineSet) : Nat → RxLine → RxLine × Nat
  | 0, r => (r, 0)
  | n + 1, r =>
    let k := streamLength l r.outField
    if r.info.length < k then (r, 0)
    else
      let stream := r.info.take k
      let a := RxLine.deliverFields l n
        { r with info := r.info.drop k, outField := (r.outField + 1) % 7, bits := r.bits ++ fieldOutput l stream }
      (a.1, a.2 + fieldMismatches l stream)

/-- Ladder information bits leave the decoder: those of fields not received are dropped first. -/
def RxLine.infoOut (bits : List Bool) (r : RxLine) : RxLine :=
  { r with info := r.info ++ bits.drop r.void, void := r.void - bits.length }

/-- The rung that leaves is delivered. -/
def RxLine.rungOut (decided was : List (List Bool)) (r : RxLine) : RxLine :=
  let rows := (List.range 616).map (rowDecided decided was)
  ({ r with window := r.window.drop 616, prev := rows } : RxLine).infoOut (rows.flatMap (List.take 583))

end Sys2Proof.Machine
end

