-- ==== Sys2Proof/Machine/Carrier.lean ====
section
/-! DEFINITION. What several chapters do to a carrier together: the state changes of R47 with everything that goes with
them, slack and backlog, rates, banks put in force, and the states of its converters. -/

namespace Sys2Proof.Machine

/-- Carrier states (R47). -/
def csIdle : Int := 0
/-- Seeking. -/
def csSeeking : Int := 1
/-- Tentative. -/
def csTentative : Int := 2
/-- Locked. -/
def csLocked : Int := 3
/-- Carrying. -/
def csCarrying : Int := 4

/-- The four channels of a carrier: converter numbers 4c to 4c + 3. -/
def channels (c : Nat) : List Nat := [4 * c, 4 * c + 1, 4 * c + 2, 4 * c + 3]

/-- One of four readings, by channel. -/
def chan {α : Type} (v : Vector α 4) (n : Nat) (d : α) : α := v.toList.getD (n % 4) d

/-- What the block does of itself goes on from the end of the fuse load until a reset. -/
def State.live (s : State) (f : State → State) : Host.Outcome State Fault Refusal :=
  .next (if s.phase == .running then f s else s)

/-- All carriers. -/
def carriers : List Nat := List.range 12

/-- The carrier is Locked or Carrying. -/
def State.upLine (s : State) (c : Nat) : Bool := decide (3 ≤ s.get .carrierState c)

/-- The carrier is in Idle. -/
def State.idle (s : State) (c : Nat) : Bool := decide (s.get .carrierState c = 0)

/-! ## Loops and rates (R60 to R63) -/

/-- Receive-loop field of 3020.03: 0 off, 1 locking, 2 locked, 3 holdover. -/
def State.rxLoop (s : State) (c : Nat) : Nat := field (s.nat .carrierConvSynthState c) 0 2
/-- Transmit-loop field of 3020.03. -/
def State.txLoop (s : State) (c : Nat) : Nat := field (s.nat .carrierConvSynthState c) 2 2

/-- Both loop fields written. -/
def State.setLoops (s : State) (c tx rx : Nat) : State := s.set .carrierConvSynthState c ((4 * tx + rx : Nat) : Int)

/-- The receive side is stopped: the loop relocks or is in holdover. -/
def State.rxHeld (s : State) (c : Nat) : Bool := s.flag .xRelock c || s.rxLoop c != 2

/-- The receive loop of a carrier serves b kBd. -/
def State.serveRx (s : State) (c b : Nat) : State :=
  (((s.set .xRxRate c b).set .carrierConvRxRate c (sampleRate b))).each (channels c) fun s a =>
    s.set .adcSampleRate a (sampleRate b)

/-- The transmit loop of a carrier serves b kBd. -/
def State.serveTx (s : State) (c b : Nat) : State :=
  (((s.set .xTxRate c b).set .carrierConvTxRate c (sampleRate b))).each (channels c) fun s d =>
    s.set .dacSampleRate d (sampleRate b)

/-- Stored transmit rate in kBd: the MSA rate in Compatible (R205). -/
def State.storedTxRate (s : State) (c : Nat) : Nat :=
  if s.nat .carrierFecProfile c = profCompatible then Config.msaRate (s.nat .carrierFecPayload c)
  else kBd (s.nat .carrierFecTxRate c)

/-- Stored receive rate in kBd. -/
def State.storedRxRate (s : State) (c : Nat) : Nat :=
  if s.nat .carrierFecProfile c = profCompatible then Config.msaRate (s.nat .carrierFecPayload c)
  else kBd (s.nat .carrierFecRxRate c)

/-- The stored candidate rates, the first 3060.01 of them, in 0.25 GBd. -/
def State.storedList (s : State) (c : Nat) : List Nat :=
  (List.range (s.nat .carrierCatchCount c)).map fun j => s.nat .catchRate (8 * c + j)

/-- The candidate rates in force, in 0.25 GBd. -/
def State.listInForce (s : State) (c : Nat) : List Nat :=
  (List.range (s.nat .xCatchCount c)).map fun j => s.nat .xCatchList (8 * c + j)

/-- The largest of a list of rates, or d where it is empty. -/
def highest (l : List Nat) (d : Nat) : Nat := if l.isEmpty then d else l.foldl max 0

/-- The Seeking rate of R62, in kBd. -/
def State.seekRate (s : State) (c : Nat) : Nat :=
  if s.flag .xCatchBlind c ∧ s.listInForce c ≠ [] then kBd (highest (s.listInForce c) 0) else s.nat .xRxConf c

/-- The stored reach of R135; Compatible uses no list (R205). -/
def State.storedReach (s : State) (c : Nat) : Nat :=
  rxReach (s.nat .carrierFecProfile c)
    (if s.nat .carrierCatchCount c = 0 ∨ s.nat .carrierFecProfile c = profCompatible then s.storedRxRate c
      else kBd (highest (s.storedList c) 0))

/-- 3040.0F, and in Idle 3040.0D with it (R135). -/
def State.refreshReach (s : State) (c : Nat) : State :=
  let s := s.set .carrierCdReachStored c (s.storedReach c)
  if s.idle c then s.set .carrierCdReach c (s.storedReach c) else s

/-- The reach in force of R135, from what is in force. -/
def State.reachNow (s : State) (c : Nat) : Nat := rxReach (s.nat .carrierFecProfileInForce c) (s.seekRate c)

/-- The receive figures 3071.04, .06, .08 and .0A at b kBd (R192); 0 in Compatible (R205). -/
def State.rxFigures (s : State) (c b : Nat) : State :=
  let prof := s.nat .carrierFecProfileInForce c
  let m := s.nat .carrierFecModulationInForce c
  let h := if prof = profCompatible then 0 else (entropyFor prof m (s.nat .xEntropySet c) (s.nat .xPayload c) b).getD 0
  let z := fun n : Nat => if prof = profCompatible then (0 : Int) else n
  s |>.set .carrierFecRxEntropy c (z h)
    |>.set .carrierFecRxKdm c (z (if m = 2 then kDm prof h else 0))
    |>.set .carrierFecRxCapacity c (z (capacity prof m h))
    |>.set .carrierFecRxNeed c (z (need (s.nat .xPayload c) b))

/-- The transmit figures 3071.03, .05, .07, .09 and .0D (R192). -/
def State.txFigures (s : State) (c b : Nat) : State :=
  let prof := s.nat .carrierFecProfileInForce c
  let m := s.nat .carrierFecModulationInForce c
  let h := if prof = profCompatible then 0 else (entropyFor prof m (s.nat .xEntropySet c) (s.nat .xPayload c) b).getD 0
  let z := fun n : Nat => if prof = profCompatible then (0 : Int) else n
  let k := if m = 2 then kDm prof h else 0
  s |>.set .carrierFecTxEntropy c (z h)
    |>.set .carrierFecTxKdm c (z k)
    |>.set .carrierFecTxCapacity c (z (capacity prof m h))
    |>.set .carrierFecTxNeed c (z (need (s.nat .xPayload c) b))
    |>.set .carrierFecTxLineEntropy c (z (if m = 2 then lineEntropy k else 0))

/-- The iteration cap in force (R207): the stored cap, 4 in Sprint, the throttle's cap in stage 1 and above. -/
def State.refreshCap (s : State) (c : Nat) : State :=
  let a := s.nat .carrierFecIterationCap c
  let a := if s.nat .carrierFecProfileInForce c = profSprint then min a 4 else a
  let a := if s.flag .xCapThrottle 0 then min a (s.nat .throttleIterationCap 0) else a
  s.set .carrierFecCapInForce c a

/-! ## Slack and backlog (R16 to R21) -/

/-- The receive slack buffer of a carrier. -/
def State.slack (s : State) (c : Nat) : List SlackItem := sget s.rxSlack c []

/-- The receive slack buffer of a carrier replaced. -/
def State.setSlack (s : State) (c : Nat) (l : List SlackItem) : State :=
  { s with rxSlack := sput natLt [] s.rxSlack c l }

/-- The codes in the transmit slack buffer of a carrier. -/
def State.strokes (s : State) (c : Nat) : List Stroke := sget s.txSlack c []

/-- Those codes replaced. -/
def State.setStrokes (s : State) (c : Nat) (l : List Stroke) : State :=
  { s with txSlack := sput natLt [] s.txSlack c l }

/-- The transmit line of a carrier. -/
def State.tx (s : State) (c : Nat) : TxLine := sget s.txLine c TxLine.start

/-- The transmit line of a carrier replaced. -/
def State.setTx (s : State) (c : Nat) (t : TxLine) : State :=
  { s with txLine := sput natLt TxLine.start s.txLine c t }

/-- The receive line of a carrier. -/
def State.rx (s : State) (c : Nat) : RxLine := sget s.rxLine c RxLine.start

/-- The receive line of a carrier replaced. -/
def State.setRx (s : State) (c : Nat) (r : RxLine) : State :=
  { s with rxLine := sput natLt RxLine.start s.rxLine c r }

/-- What the coding of carrier c rests on in a direction: 0 transmit, 1 receive. -/
def State.lineSet (s : State) (dir c : Nat) : LineSet :=
  ⟨s.nat .carrierFecProfileInForce c, s.nat .carrierFecModulationInForce c,
    if dir = 0 then s.nat .carrierFecTxKdm c else s.nat .carrierFecRxKdm c⟩

/-- First byte of a capture region in mover memory: target 2 + c / 3, offset (c mod 3) × 256 MiB (R364). -/
def captureBase (c : Nat) : Nat := (2 + c / 3) * 2 ^ 33 + c % 3 * 2 ^ 28

/-- A triggered capture fills from the first stroke set after the trigger on (R372). -/
def State.captureBegin (s : State) (c : Nat) : State :=
  if s.get .captureState c = 1 ∧ s.flag .xCaptureTriggered c then
    (s.set .captureState c 2).set .captureStart c s.now |>.set .xCaptureFilled c 0
  else s

/-- A filling capture at a point takes what the point yields, up to its length (R372). -/
def State.capturePut (s : State) (c point : Nat) (data : List Byte) : State :=
  if s.get .captureState c = 2 ∧ s.nat .xCapturePoint c = point then
    let data := data.take (1024 * s.nat .xCaptureLength c - s.nat .xCaptureFilled c)
    (s.writeBytes (captureBase c + s.nat .xCaptureFilled c) data).set .xCaptureFilled c
      (s.nat .xCaptureFilled c + data.length : Nat)
  else s

/-- A value as a saturated I8. -/
def i8 (v : Int) : Byte := BitVec.ofInt 8 (max (-128) (min 127 v))

/-- The backlog of a carrier (R18); an Idle carrier has none. -/
def State.backlog (s : State) (c : Nat) : Int :=
  if s.idle c then 0
  else max 0 (max (s.get .carrierSlackRxFill c - s.get .carrierSlackRxTarget c)
    (s.get .carrierSlackTxTarget c - s.get .carrierSlackTxFill c + s.get .xTxOwed c))

/-- The carrier enters held, if it is not (R21). -/
def State.enterHeld (s : State) (c : Nat) : State :=
  if s.flag .carrierSlackHeld c then s
  else ((s.set .carrierSlackHeld c 1).bump .carrierSlackHoldEpisodes c).raiseClear (evCarrier c 18) [] false

/-- The carrier leaves held (R21). -/
def State.leaveHeld (s : State) (c : Nat) : State :=
  if s.flag .carrierSlackHeld c then
    (s.set .carrierSlackHeld c 0).raiseClear (evCarrier c 18) [] true
  else s

/-- A held carrier whose backlog is zero leaves held (R21). -/
def State.settleHeld (s : State) (c : Nat) : State := if s.backlog c = 0 then s.leaveHeld c else s

/-- Both slack buffers emptied, debts forgotten (R21). DESIGN CHOICE (log entry 48): the emptying of the transmit buffer is no
fill seen by its law, so 3010.06 stays as it is. -/
def State.emptySlack (s : State) (c : Nat) : State :=
  ((s.setSlack c []).setStrokes c []) |>.set .carrierSlackRxFill c 0 |>.set .carrierSlackTxFill c 0 |>.set .xRxLost c 0
    |>.set .xTxOwed c 0 |>.set .xFlagNext c 0 |>.set .xGapFlag c 0

/-! ## Converter states (R79 to R82, R84) -/

/-- Some leg of the carrier's DACs is protected. -/
def State.legProtected (s : State) (c : Nat) : Bool := (channels c).any fun d => s.flag .dacShortState d

/-- The DACs of the carrier output code 0 by rule: Idle, Haven mute, holdover, foreground calibration, or the short
policy. -/
def State.codeZero (s : State) (c : Nat) : Bool :=
  s.idle c || s.txLoop c == 3 || s.flag .xFgCal c
    || (decide (s.get .carrierConvShortPolicy c = 1) && s.legProtected c)

/-- DAC and ADC state objects of a carrier follow from what holds. -/
def State.refreshConv (s : State) (c : Nat) : State :=
  s.each (channels c) fun s n =>
    if s.flag .xPowered 0 then
      let s := s.set .adcState n (if s.rxLoop c = 3 then 3 else if s.rxLoop c = 2 then 2 else 1)
      s.set .dacState n (if s.flag .dacShortState n then 3
        else if s.codeZero c || !s.flag .dacEnable n then 2 else 1)
    else (s.set .adcState n 0).set .dacState n 0

/-! ## Background calibration (R95, R99) -/

/-- Background calibration may run: Catch, Carry, Pair, or Haven under the idle policy with no exit under way, and enabled
(R95). -/
def State.bgOn (s : State) : Bool :=
  s.flag .xPowered 0 && s.flag .calBgEnable 0 &&
    (let m := s.mode
     (decide (2 ≤ m) && decide (m ≤ 4)) || (m == 5 && !s.flag .xMute 0 && !s.flag .deviceModeBusy 0))

/-- States 1 and 2 of converter u follow: 2 while background calibration runs. -/
def State.refreshBgAt (s : State) (u : Nat) : State :=
  let st := s.get .convCalState u
  if st = 1 ∨ st = 2 then s.set .convCalState u (if s.bgOn || s.flag .xCalBusy u then 2 else 1) else s

/-- States 1 and 2 of every converter follow. -/
def State.refreshBg (s : State) : State := s.each (List.range 96) State.refreshBgAt

/-- An offline measurement on converter u is abandoned: discarded, not counted, fail runs unchanged; the next step is due as soon as
steps may start (R99). -/
def State.calDrop (s : State) (u : Nat) : State :=
  ((s.when (s.flag .xCalBusy u) fun s => s.set .xCalStepLen u 0).set .xCalBusy u 0).refreshBgAt u

/-- The offline measurements on the ADCs of carrier c are abandoned. -/
def State.calAbandonAdcs (s : State) (c : Nat) : State := s.each (channels c) State.calDrop

/-- The offline measurements on the DACs of carrier c are abandoned. -/
def State.calAbandonDacs (s : State) (c : Nat) : State := s.each (channels c) fun s d => s.calDrop (48 + d)

/-! ## Banks (R117 to R120, R137)

Bank b of family f and carrier c is 12f + c: f = 0 shaping, 1 transmit dispersion, 2 pre-emphasis, 3 amplitude curve,
4 receive dispersion, 5 polarisation initial taps. -/

/-- What the computed contents of bank b would be formed from now: roll-off or dispersion, frequency, symbol rate. -/
def State.bankParams (s : State) (b : Nat) : List Int :=
  let c := b % 12
  match b / 12 with
  | 0 => [s.get .carrierTxShapeRolloff c, 193100, s.get .xTxRate c]
  | 1 => [s.get .carrierTxCdTarget c, s.get .carrierTxCdFrequency c, s.get .xTxRate c]
  | 4 => [if s.get .xTrackStep c = 0 then s.get .carrierCdTarget c + s.get .carrierCdCorrection c
            else s.get .carrierCdApplied c + s.get .xTrackStep c,
          s.get .carrierCdFrequency c, s.get .xRxRate c]
  | _ => [0, 193100, 240000000]

/-- Three numbers of a bank, as held for its standby or its active contents. -/
def State.bankNumbers (s : State) (r : Reg) (b : Nat) : List Int := [0, 1, 2].map fun k => s.get r (3 * b + k)

/-- Those three numbers replaced. -/
def State.setBankNumbers (s : State) (r : Reg) (b : Nat) (l : List Int) : State :=
  s.each [0, 1, 2] fun s k => s.set r (3 * b + k) (l.getD k 0)

/-- xxxx.08 as read. -/
def State.standbyOf (s : State) (b : Nat) : List Byte :=
  let v := s.blob .bankStandby b
  if v.isEmpty then bankContents b (s.bankNumbers .xSbyParam b) else v

/-- Contents in force. -/
def State.activeOf (s : State) (b : Nat) : List Byte :=
  let v := s.blob .xBankActive b
  let v := if v.isEmpty then bankContents b (s.bankNumbers .xActParam b) else v
  let holes := bytesNumbers (s.blob .xBankHole b)
  if holes.isEmpty then v else v.zipIdx.map fun e => if holes.contains (e.2 / 8) then 0 else e.1

/-- Length of the bank of a filter (R117, R137). -/
def bankLength (b : Nat) : Nat := ([576, 8192, 120, 1032, 32768, 496] : List Nat).getD (b / 12) 0

/-- 3040.04: the dispersion the response in force removes; in user mode the target (R136). -/
def State.refreshApplied (s : State) (c : Nat) : State :=
  s.set .carrierCdApplied c
    (if s.get .xBankMode (48 + c) = 0 then s.get .xActParam (3 * (48 + c)) else s.get .carrierCdTarget c)

/-- xxxx.0C: a commit pending, a computation running or a cross-fade running (R117). -/
def State.refreshBusy (s : State) (b : Nat) : State :=
  s.setFlag .bankBusy b (s.flag .xBankComputing b || s.flag .xBankPending b || s.flag .xBankFading b)

/-- The stored mode of the filter of bank b; the filters without a mode object are loaded by the host. -/
def State.storedMode (s : State) (b : Nat) : Int :=
  match b / 12 with
  | 0 => s.get .carrierTxShapeMode (b % 12)
  | 1 => s.get .carrierTxCdMode (b % 12)
  | 4 => s.get .carrierCdMode (b % 12)
  | _ => 1

/-- The standby bank of a filter put in force, the bank that was in force becoming standby (R118). A computation under way
goes on. -/
def State.bankSwap (s : State) (b : Nat) : State :=
  let act := (s.blob .xBankActive b, s.bankNumbers .xActParam b)
  let s := (s.setBlob .xBankActive b (s.blob .bankStandby b)).setBankNumbers .xActParam b (s.bankNumbers .xSbyParam b)
  let s := (s.setBlob .bankStandby b act.1).setBankNumbers .xSbyParam b act.2
  let s := s |>.set .bankActiveBank b (1 - s.get .bankActiveBank b)
    |>.bump .bankCommits b |>.set .xBankPending b 0 |>.set .xBankFading b 0 |>.set .xFadeSets b 0 |>.setBlob .xBankHole b []
    |>.set .xBankMode b (s.storedMode b) |>.refreshBusy b
  if b / 12 = 4 then s.refreshApplied (b % 12) else s

/-- A bank computed from the values then written goes to standby. -/
def State.bankFill (s : State) (b : Nat) : State :=
  ((s.setBlob .bankStandby b []).setBankNumbers .xSbyParam b (s.bankParams b)).set .xBankComputing b 0

/-- A computed bank written to standby and put in force at once. -/
def State.bankRecompute (s : State) (b : Nat) : State := (s.bankFill b).bankSwap b

/-- A computed bank is in force that was formed for another symbol rate than kBd (R120, R139). -/
def State.bankStale (s : State) (b kBd : Nat) : Bool :=
  s.get .xBankMode b == 0 && (s.blob .xBankActive b).isEmpty && s.nat .xActParam (3 * b + 2) != kBd

/-- The computed bank of a filter put in force for another rate, or because a relock owes it (R139); a user bank is kept as loaded
(R120, R139). -/
def State.bankRefit (s : State) (b kBd : Nat) : State :=
  let due := s.flag .xBankDue b && s.get .xBankMode b == 0
  let s := s.set .xBankDue b 0
  if due || s.bankStale b kBd then s.bankRecompute b else s

/-- A running cross-fade completes at once (R123, R152). -/
def State.bankFinish (s : State) (b : Nat) : State := if s.flag .xBankFading b then s.bankSwap b else s

/-- A computation is abandoned (R123). -/
def State.bankAbandon (s : State) (b : Nat) : State := (s.set .xBankComputing b 0).refreshBusy b

/-- A quantity crosses or clears its levels (R149): quantity 4 has direction below, the others above. -/
def State.monitorLevel (s : State) (q c : Nat) : State :=
  let i := 12 * q + c
  let v := s.get .xMonV i
  let hi := s.get .carrierMonSet i * 256
  let lo := s.get .carrierMonClear i * 256
  let crossed := if q = 4 then decide (v < hi) else decide (hi < (v.natAbs : Int))
  let cleared := if q = 4 then decide (lo < v) else decide ((v.natAbs : Int) < lo)
  if s.get .carrierMonState i = 0 then
    if crossed then
      let s := (s.set .carrierMonState i 1).bump .carrierMonCrossings i
      if s.upLine c then s.raise (evCarrier c (27 + q)) [] else s
    else s
  else if cleared then s.set .carrierMonState i 0 else s

/-- A dispersion tracking step that has faded in is recorded: 3040.05 is what 3040.04 then lies beyond the target (R140). A target
written while it faded in keeps the correction at 0 (R152; DEDUCED, log entry 34). -/
def State.trackDone (s : State) (c : Nat) : State :=
  let d := s.get .xTrackStep c
  if d = 0 then s
  else
    let v := s.get .xMonV c - 256 * d
    let s := if s.flag .xTrackVoid c then s
      else s.set .carrierCdCorrection c (s.get .carrierCdApplied c - s.get .carrierCdTarget c)
    s |>.set .xMonV c v |>.set .carrierMonFiltered c ((v + 128) / 256) |>.set .xTrackVoid c 0
      |>.set .xTrackRun c 0 |>.set .xTrackStep c 0 |>.bump .carrierCdTrackSteps c |>.monitorLevel 0 c

/-- The carrier goes to Idle: a fade of the receive dispersion filter completes, and a tracking computation is given up
(R123, R140). -/
def State.cdSettle (s : State) (c : Nat) : State :=
  if s.flag .xBankFading (48 + c) then (s.bankFinish (48 + c)).trackDone c
  else if s.get .xTrackStep c ≠ 0 then (s.bankAbandon (48 + c)).set .xTrackStep c 0 |>.set .xTrackRun c 0
  else s

/-! ## What the receive chain reports (R146, R168) -/

/-- The receive loop of a carrier is off its rate or its reference: relocking or in holdover, so that adaptation
holds. -/
def State.rxStopped (s : State) (c : Nat) : Bool := s.flag .xRelock c || s.rxLoop c == 3

/-- The timing loop is unlocked in Locked or Carrying. -/
def State.timingLost (s : State) (c : Nat) : Bool := s.upLine c && s.flag .xTimLost c

/-- A cross-fade of the receive dispersion filter is running. -/
def State.cdFading (s : State) (c : Nat) : Bool := s.flag .xBankFading (48 + c)

/-- 3044.01 and 3046.03 from what holds (R146, R147). -/
def State.refreshRx (s : State) (c : Nat) : State :=
  if s.idle c then (s.set .carrierRxPolState c 0).set .carrierRxHolding c 0
  else
    let stop := s.rxStopped c
    let lost := s.timingLost c
    let fz := s.nat .xPolFrozen c
    let early := !s.upLine c
    let pol : Int :=
      if stop || lost || bitOf fz 2 then 4 else if s.upLine c then 3 else if s.get .carrierState c = 2 then 2 else 1
    let b := fun (n : Nat) (v : Bool) => if v then (2 : Int) ^ n else 0
    (s.set .carrierRxPolState c pol).set .carrierRxHolding c
      (b 0 (stop || bitOf fz 0 || !s.flag .carrierRxFeEnable c) + b 1 (stop || bitOf fz 1) + b 2 (stop || lost || bitOf fz 2)
        + b 3 (early || stop || lost || s.cdFading c || bitOf fz 3) + b 4 (early || stop || lost || bitOf fz 4))

/-! ## Defects (R229 to R234) -/

/-- Defects masked by a declared one, as a mask (R231). -/
def defectMasks (bit : Nat) : Nat :=
  if bit = 0 then 0x3FE else if bit = 1 then 0x3FC else if bit = 2 then 0x3E0 else if bit = 7 then 0x340 else 0

/-- Every defect that some declared one masks. -/
def maskedBy (declared : Nat) : Nat :=
  (List.range 10).foldl (fun a b => if bitOf declared b then a ||| defectMasks b else a) 0

/-- 3080.02: the raw conditions after masking. One that changes begins to count its set or clear time (R230). -/
def State.refreshRaw (s : State) (c : Nat) : State :=
  let m := maskedBy (s.nat .carrierDefectDeclared c)
  let r := s.nat .xRaw c
  let was := s.nat .carrierDefectRaw c
  let now := r - (r &&& m)
  (s.each (List.range 10) fun s b => s.when (bitOf was b != bitOf now b) fun s => s.markTick .xDefectAt (10 * c + b)).set
    .carrierDefectRaw c (now : Nat)

/-- A raw condition has stood as it is for the set time of its defect (present) or its clear time (absent); CSF by
tributary (R230). -/
def State.defectTime (s : State) (c bit t : Nat) (set_ : Bool) : Bool :=
  let ms := s.get (if set_ then .defectSetTime else .defectClearTime) (10 * c + bit)
  if bit = 9 ∧ s.nat .carrierFecProfileInForce c ≠ profCompatible then s.usSince .xCsfAt t (1000 * ms) else s.usSince .xDefectAt (10 * c + bit) (1000 * ms)

/-- A raw condition evaluated. -/
def State.setRaw (s : State) (c bit : Nat) (v : Bool) : State :=
  (s.setBit .xRaw c bit v).refreshRaw c

/-- A declared defect is cleared and its clear reported; detail names the tributary of CSF. -/
def State.defectCleared (s : State) (c bit : Nat) (detail : List Item) : State :=
  if s.bit .carrierDefectDeclared c bit then
    ((s.setBit .carrierDefectDeclared c bit false).raiseClear (evCarrier c bit) detail true).refreshRaw c
  else s

/-- A defect is declared (R230): sticky, reported, and every declared defect it masks clears at once (R231). -/
def State.defectDeclared (s : State) (c bit : Nat) (detail : List Item) : State :=
  if s.bit .carrierDefectDeclared c bit then s
  else
    let s := (s.setBit .carrierDefectDeclared c bit true).setBit .carrierDefectSticky c bit true
    let s := (s.raiseClear (evCarrier c bit) detail false).refreshRaw c
    s.each (List.range 10) fun s b => if bitOf (defectMasks bit) b then s.defectCleared c b [] else s

/-- The run of multiframes with fill = 2 of tributary t, 2 at most; reaching it or ceasing begins the count of R230. -/
def State.csfRun (s : State) (t : Nat) (n : Int) : State :=
  (s.when ((s.get .xCsfRun t == 2) != (n == 2)) fun s => s.markTick .xCsfAt t).set .xCsfRun t n

/-- In Idle every defect is cleared and no event raised (R229); the tributaries of the carrier have no CSF and no run of it. -/
def State.defectsIdle (s : State) (c : Nat) : State :=
  let s := s |>.set .carrierDefectDeclared c 0 |>.set .xRaw c 0 |>.set .carrierDefectRaw c 0
    |>.set .xLofRun c 0 |>.set .xLomRun c 0 |>.set .xBdiRun c 0 |>.set .xAisRun c 0 |>.set .xDegRun c 0
    |>.set .xDegWhole c 0
  s.each (s.tribsTouching 1 c) fun s t => (s.csfRun t 0).set .tribRxCsf t 0

/-- Raw conditions where a carrier stands in Seeking or Tentative: LOF is present, and only LOS is evaluated beside
it. -/
def State.defectsSeeking (s : State) (c : Nat) : State :=
  (s.set .xRaw c (s.nat .xRaw c % 2 + 2 : Nat)).set .xDegWhole c 0 |>.refreshRaw c

/-- Raw conditions at the entry to Locked: LOF absent, the others start from absent; the first FNUM received is the one expected
(256 stands for that). -/
def State.defectsLocked (s : State) (c : Nat) : State :=
  s |>.set .xRaw c (s.nat .xRaw c % 2 : Nat) |>.set .xLofRun c 0 |>.set .xLomRun c 0 |>.set .xBdiRun c 0
    |>.set .xAisRun c 0 |>.set .xFnum c 256 |>.set .xUncLast c (s.get .carrierFecUncorrectable c) |>.refreshRaw c

/-- A condition that fails every tributary with receive rows on the carrier is declared (R232, first bullet). -/
def State.lineFailed (s : State) (c : Nat) : Bool :=
  let d := s.nat .carrierDefectDeclared c
  bitOf d 0 || bitOf d 1 || bitOf d 2 || bitOf d 3 || bitOf d 7 || (bitOf d 8 && s.flag .carrierDefectTimAction c)

/-- BDI as carrier c sends it (R232). -/
def State.bdiSent (s : State) (c : Nat) : Bool :=
  s.flag .carrierOhForceBdi c ||
    (s.flag .carrierOhBdiAuto c && (s.get .carrierState c == 1 || s.get .carrierState c == 2 || s.lineFailed c))

/-! ## Interchange pages (R220 to R222)

Memory 0 is transmit, 1 receive; row r of memory d is unit 3840 d + r. -/

/-- The rows of a carrier. -/
def rowsOf (c : Nat) : List Nat := (List.range 320).map (320 * c + ·)

/-- The standby page of a carrier takes force, and the standby rows equal the new active ones: they already do. -/
def State.pageFlip (s : State) (dir c : Nat) : State :=
  let s := s.each (rowsOf c) fun s r => s.set .tsiActiveRow (3840 * dir + r) (s.get .tsiStandbyRow (3840 * dir + r))
  let s := (s.setBit .tsiPending dir c false).bump .tsiFlips dir
  let s := if dir = 0 then (s.set .xTpgTx c (1 - s.get .xTpgTx c)).set .xAnnounce c 0 else s
  s.raise (evCarrier c 11) []

/-- A pending flip of a carrier takes force at once (R236). -/
def State.pageSettle (s : State) (dir c : Nat) : State :=
  if s.bit .tsiPending dir c then s.pageFlip dir c else s

/-! ## Bonding (R256 to R261) -/

/-- Members of a group. -/
def State.groupList (s : State) (g : Nat) : List Nat := carriers.filter fun c => s.bit .groupMembers g c

/-- Aligned members of a group. -/
def State.alignedList (s : State) (g : Nat) : List Nat :=
  (s.groupList g).filter fun c => s.get .carrierBondState c == 3

/-- An aligned member of carrier c's group has another receive rate in force (R258). -/
def State.rateApart (s : State) (c : Nat) : Bool :=
  (s.alignedList (s.nat .carrierBondGroup c)).any fun d => d != c && s.get .xRxRate d != s.get .xRxRate c

/-- The difference x − y of two BSQ values modulo 2^24, from −2^23 to 2^23 − 1 (R258). -/
def bsqDiff (x y : Int) : Int := (x - y + 2 ^ 23) % 2 ^ 24 - 2 ^ 23

/-- Arrival of the multiframe with BSQ x at member c, in ps: its last measured arrival carried on by whole multiframes
of its receive rate. -/
def State.arrivalOf (s : State) (c : Nat) (x : Int) : Int :=
  s.get .xBondArrival c
    + bsqDiff x (s.get .carrierBondBsq c) * (16777216 * 1000000000) / max 1 (s.get .xRxRate c)

/-- Release instant of x: the mean over the aligned members of arrival plus hold (R258). -/
def State.releaseOf (s : State) (g : Nat) (x : Int) : Int :=
  let l := s.alignedList g
  ((l.map fun c => s.arrivalOf c x + s.get .xBondHoldPs c).sum) / max 1 (l.length : Int)

/-- Group figures 7800.06 to .09. -/
def State.refreshGroup (s : State) (g : Nat) : State :=
  let m := s.groupList g
  let l := s.alignedList g
  let st : Int := if m.isEmpty then 0 else if l.isEmpty then 1 else if l.length = m.length then 2 else 3
  let s := s.set .groupState g st
  match l with
  | [] => s |>.set .groupSkew g 0 |>.set .groupHeadroomLeft g 0 |>.set .groupLongestHold g 0
  | h :: _ =>
    let x := s.get .carrierBondBsq h
    let a := l.map fun c => s.arrivalOf c x
    let late := a.foldl max (s.arrivalOf h x)
    let early := a.foldl min (s.arrivalOf h x)
    s |>.set .groupSkew g ((late - early) / 1000)
      |>.set .groupHeadroomLeft g ((s.releaseOf g x - late) / 1000)
      |>.set .groupLongestHold g (((l.map fun c => s.get .xBondHoldPs c).foldl max 0) / 1000)

/-- Member state 7900.02 changes: entering 3 counts and raises source 13, leaving it drops the hold and raises
source 14 (R260). -/
def State.setMember (s : State) (c : Nat) (st : Int) : State :=
  let was := s.get .carrierBondState c
  if was = st then s
  else
    let s := s.set .carrierBondState c st
    let s := if st = 3 then s else (s.set .carrierBondHold c 0).set .xBondHoldPs c 0 |>.set .xBondJoined c 0
    if st = 3 then (s.bump .carrierBondAlignments c).raise (evCarrier c 13) []
    else if was = 3 then s.raise (evCarrier c 14) [u8 st]
    else s

/-- A carrier that leaves Locked or Carrying, as its bonding group sees it (R260): it waits. -/
def State.bondDrop (s : State) (c : Nat) : State :=
  if s.get .carrierBondGroup c = 0xFF then s
  else
    let g := s.nat .carrierBondGroup c
    ((s.set .xBondRun c 0).set .xBondMeasured c 0 |>.setMember c 1).refreshGroup g

/-! ## State changes (R47, R49) -/

/-- 3000.02 written; a change is counted. -/
def State.setCarrierState (s : State) (c : Nat) (v : Int) : State :=
  if s.get .carrierState c = v then s else (s.set .carrierState c v).bump .carrierStateChanges c

/-- 3000.04: the cause of an exit from Locked or Carrying. -/
def State.noteDrop (s : State) (c : Nat) (cause : Int) : State :=
  if s.upLine c then s.set .carrierLastDrop c cause else s

/-- Monitor states clear without event on entry to Seeking or Idle (R149). -/
def State.clearMonitors (s : State) (c : Nat) : State :=
  s.each (List.range 7) fun s q => (s.set .carrierMonState (12 * q + c) 0).set .xMonSeen (12 * q + c) 0

/-- The wiring map in force replaced; a change is reported (R75). -/
def State.applyMap (s : State) (c : Nat) (m : Int) : State :=
  if s.get .carrierWiringAppliedMap c = m then s
  else (s.set .carrierWiringAppliedMap c m).raise (evCarrier c 19) [u8 m]

/-- The AGC window of a carrier is abandoned, and a step decided with it (R83); the next begins with the first set sampled then. -/
def State.agcRestart (s : State) (c : Nat) : State :=
  (s.each (channels c) fun s a => s.set .xAgcSum a 0) |>.set .xAgcSets c 0 |>.set .xAgcGood c 0 |>.set .xAgcSkip c 0
    |>.set .xAgcBelow c 0 |>.set .xGainWait c 0 |>.set .xGainDue c 0

/-- The carrier goes to Idle (R47), recording the cause when it was Locked or Carrying. Slack is emptied and held ends
(R21); de-interleaver, decoders, ladder window and inverse matcher are cleared (R209); fades complete (R123, R152); loops stop
(R146, R168); a raise in progress is abandoned (R27). A relock is abandoned, the receive loop being left off for the next
Seeking rate (R188, log entry 48). -/
def State.toIdle (s : State) (c : Nat) (cause : Int) : State :=
  let s := s.set .xRaising c 0 |>.set .xBondExit c 0
  if s.idle c then s
  else
    let s := (s.noteDrop c cause).bondDrop c
    let s := (s.setCarrierState c csIdle).emptySlack c |>.leaveHeld c
    let s := (s.bankFinish (12 + c)).cdSettle c
    let s := ((s.clearMonitors c).defectsIdle c |>.pageSettle 0 c).pageSettle 1 c
    let s := s |>.setBlob .xOhpOut c [] |>.setBlob .xOhpIn c [] |>.set .carrierOhStatSent c 0 |>.set .carrierTtiValid c 0
    s |>.set .carrierRxTimingState c 0 |>.set .carrierRxPolState c 0 |>.set .carrierCrState c 0
      |>.set .carrierCatchState c 0 |>.set .carrierCatchGates c 0 |>.set .xMatchPending c 0 |>.set .xSearch c 0
      |>.set .carrierNcInForce c 0 |>.set .carrierNcSideState c 1 |>.set .carrierNcSideState (12 + c) 1
      |>.agcRestart c |>.set .carrierBondTxInSequence c 0
      |>.when (s.flag .xRelock c) (fun s => (s.set .xRelock c 0).setLoops c (s.txLoop c) 0)
      |>.setTx c TxLine.start |>.setRx c RxLine.start |>.refreshReach c |>.refreshConv c |>.refreshRx c

/-- The candidate list that takes force at an entry to Seeking (R173): stored rates at which the payload in force is
carried. In Compatible the one candidate is the MSA rate (R205). -/
def State.takeList (s : State) (c : Nat) : State :=
  let prof := s.nat .carrierFecProfileInForce c
  let blind := s.nat .carrierCatchCount c ≠ 0 ∧ prof ≠ profCompatible
  let l := (if blind then s.storedList c else []).filter fun r =>
    carries prof (s.nat .carrierFecModulationInForce c) (s.nat .xEntropySet c) (s.nat .xPayload c) (kBd r)
  let s := (s.set .xCatchBlind c (ofFlag blind)).set .xCatchCount c l.length
  let s := s.each (List.range 8) fun s j => s.set .xCatchList (8 * c + j) (l.getD j 0 : Nat)
  s.setBlob .carrierCatchListInForce c (leBytes 1 (l.length : Int) ++ l.flatMap fun (r : Nat) => leBytes 2 (r : Int))

/-- Frequency recovery holds, 3054.01 = 3, where it runs: from Tentative up (R168). -/
def State.crHold (s : State) (c : Nat) : State :=
  if 2 ≤ s.get .carrierState c then s.set .carrierCrState c 3 else s

/-- The catch settings 3062.02 to .07 take effect (R186). -/
def State.catchSettings (s : State) (c : Nat) : State :=
  s.each ([.carrierCatchGateFloor, .carrierCatchFreqRange, .carrierCatchDetect, .carrierCatchConfirm,
      .carrierCatchSnrFloor, .carrierCatchPreemptMargin] : List Reg).zipIdx fun s e =>
    s.set .xCatchSet (8 * c + e.2) (s.get e.1 c)

/-- The survey window of candidate i restarts empty, with the length then written (R175, R186). -/
def State.surveyRestart (s : State) (c i : Nat) : State :=
  s |>.set .xSurveyTick (8 * c + i) (s.get .xTicks 0) |>.set .xSurveyWin (8 * c + i) (s.get .carrierCatchWindow c)
    |>.setBit .carrierCatchGates c i false

/-- Every survey window of a carrier restarts empty. -/
def State.surveyAll (s : State) (c : Nat) : State :=
  (s.each (List.range 8) fun s i => s.surveyRestart c i)
    |>.set .xSurveyLen c (s.get .carrierCatchWindow c) |>.set .xSurveyEnd c (s.get .xTicks 0)
    |>.set .xSurveySeen c 0

/-- The receive loop of a carrier goes to b kBd: when it serves another rate it relocks, the survey window restarts and
computations and fades of the dispersion filter are abandoned (R62, R152, R175). A loop in holdover takes the rate and
stays in holdover until its reference returns (R63); one that a relock has been abandoned on relocks (R188). -/
def State.retune (s : State) (c b : Nat) : State :=
  if s.nat .xRxRate c = b ∧ s.rxLoop c ≠ 0 then s
  else
    let s := s.serveRx c b
    let s := if s.rxLoop c = 3 ∨ s.txLoop c = 3 then s.setLoops c (s.txLoop c) 3
      else (s.set .xRelock c 1).setLoops c (s.txLoop c) 1
    s |>.surveyAll c |>.set .xBankComputing (48 + c) 0 |>.set .xBankFading (48 + c) 0
      |>.set .xFadeSets (48 + c) 0 |>.set .xBankPending (48 + c) 0 |>.refreshBusy (48 + c) |>.set .xBankDue (48 + c) 1
      |>.set .xTrackStep c 0 |>.set .xTrackVoid c 0 |>.set .xTimGood c 0 |>.set .xTimBad c 0
      |>.set .carrierRxTimingState c 3 |>.crHold c |>.agcRestart c
      |>.calAbandonAdcs c |>.refreshConv c |>.refreshRx c

/-- The transmit loop of a carrier goes to b kBd; at another rate it relocks, and offline measurements on its DACs are
abandoned (R61, R99). A loop in holdover stays there (R63). -/
def State.txRetune (s : State) (c b : Nat) : State :=
  if s.nat .xTxRate c = b then s
  else
    let s := (s.serveTx c b).calAbandonDacs c
    if s.txLoop c = 2 then s.setLoops c 1 (s.rxLoop c) else s

/-- The adaptation blocks and frames of a carrier start with the settings then written (R145, R147, R169). -/
def State.blocksNow (s : State) (c : Nat) : State :=
  s |>.set .xPolK (2 * c) (s.get .carrierRxPolKAcq c) |>.set .xPolK (2 * c + 1) (s.get .carrierRxPolKTrk c)
    |>.set .xPolFrozen c (s.get .carrierRxFreeze c) |>.set .xNcStep c (s.get .carrierNcStep c)
    |>.set .xCrWindow c (s.get .carrierCrWindow c)

/-- Rate of candidate i in force in kBd; none beyond the list. A single rate is candidate 0 (R172). -/
def State.candidateRate (s : State) (c i : Nat) : Option Nat :=
  if s.flag .xCatchBlind c then ((s.listInForce c)[i]?).map kBd
  else if i = 0 then some (s.nat .xRxConf c) else none

/-- The stored list takes force while the engine runs: a candidate that stays keeps its survey, and a new one starts
empty (R173, R175). -/
def State.listTaken (s : State) (c : Nat) : State :=
  let was := (List.range 8).map fun i =>
    (s.candidateRate c i, s.get .xSurveyTick (8 * c + i), s.get .xSurveyWin (8 * c + i), s.bit .carrierCatchGates c i)
  let s := s.takeList c
  s.each (List.range 8) fun s i =>
    match was.find? fun e => e.1 == s.candidateRate c i && e.1.isSome with
    | some e => ((s.set .xSurveyTick (8 * c + i) e.2.1).set .xSurveyWin (8 * c + i) e.2.2.1).setBit .carrierCatchGates c i e.2.2.2
    | none => s.surveyRestart c i

/-- What every entry to Seeking does (R47), the receive loop apart: the cause is recorded when the carrier was Locked or
Carrying, the list takes force (R173), a fade is completed, 3040.05 being kept (R152), taps are initialised (R143), and the decoders are cleared (R209). -/
def State.seekEntry (s : State) (c : Nat) (cause : Int) : State :=
  let running := s.get .carrierState c == 1 || s.get .carrierState c == 2
  let s := (s.noteDrop c cause).bondDrop c
  let s := (s.setCarrierState c csSeeking).listTaken c
  let s := if running then s else s.surveyAll c
  let s := s.set .carrierCdReach c (s.reachNow c)
  let s := if s.flag .xBankFading (48 + c) then
      (s.bankFinish (48 + c)).set .xTrackStep c 0 |>.set .xTrackVoid c 0
    else s
  let s := ((s.clearMonitors c).defectsSeeking c).pageSettle 1 c
  let s := s |>.set .carrierRxTimingState c (if s.rxStopped c then 3 else 1) |>.set .carrierCrState c 0
    |>.set .carrierRxPolState c 1 |>.set .xMatchPending c 0 |>.set .xSearch c 0
    |>.setBlob .xPolTaps c (if s.get .carrierRxPolInit c = 1 then satTaps (s.standbyOf (60 + c)) else unitTaps)
    |>.set .xSeekTick c (s.get .xTicks 0)
    |>.set .xTimLost c 0 |>.set .xTimGood c 0 |>.set .xTimBad c 0 |>.set .xPolSame c 0
    |>.set .xPhaseKnown c 0 |>.set .xTpgKnown c 0 |>.set .carrierTtiValid c 0 |>.catchSettings c
  let s := s.setRx c (s.rx c).clear
  { s with polQueue := sput natLt [] s.polQueue c [] }

/-- 3061.01 in Seeking: relocking, else surveying or correlating as gates stand (R186). -/
def State.seekState (s : State) (c : Nat) : State :=
  s.set .carrierCatchState c (if s.flag .xRelock c then 4 else if s.get .carrierCatchGates c = 0 then 1 else 2)

/-- The carrier enters Seeking (R47): the loop returns to the Seeking rate, whose figures the receive side takes (R62,
R192). -/
def State.toSeeking (s : State) (c : Nat) (cause : Int) : State :=
  let s := s.seekEntry c cause
  let s := (s.retune c (s.seekRate c)).seekState c
  (s.rxFigures c (s.seekRate c)).refreshConv c |>.refreshRx c

/-- Names c on the side opposite to side d of c: the neighbour's in-force map reciprocates (R162). -/
def State.reciprocates (s : State) (c side n : Nat) : Bool :=
  if side = 0 then decide (s.get .carrierNcUpperInForce n = c) else decide (s.get .carrierNcLowerInForce n = c)

/-- The neighbour in force on a side: 0 lower, 1 upper; 0xFF none. -/
def State.neighbour (s : State) (c side : Nat) : Nat :=
  if side = 0 then s.nat .carrierNcLowerInForce c else s.nat .carrierNcUpperInForce c

/-- The code of 3050.09 for a carrier with cancellation in force (R164). -/
def State.ncCode (s : State) (c : Nat) : Int :=
  if s.flag .carrierNcPark c then (if 2 ≤ s.get .throttleStage 0 then 4 else 2)
  else if 2 ≤ s.get .throttleStage 0 then 3 else 1

/-- Code 2 raises source 36 once at the exit from Idle (R163). -/
def State.reportUnreciprocated (s : State) (c side : Nat) : State :=
  let n := s.neighbour c side
  if s.get .carrierNcInForce c ≠ 0 ∧ n ≠ 0xFF ∧ !s.reciprocates c side n then
    s.raise (evCarrier c 36) [u8 side, u8 2]
  else s

/-- The carrier leaves Idle (R47, R17, R155, R190, R120): what is stored takes force, computed banks are recomputed for
a new rate, cancellation taps are cleared, and the carrier enters Seeking. The transmit buffer stands at its target and
the receive buffer is empty (assumption 5). -/
def State.leaveIdle (s : State) (c : Nat) : State :=
  let prof := s.get .carrierFecProfile c
  let target : Int × Int := if prof = 1 then (64, 16) else (512, 512)
  let s := s |>.set .xRaising c 0 |>.set .xBondExit c 0
    |>.set .carrierFecProfileInForce c prof
    |>.set .carrierFecModulationInForce c (s.get .carrierFecModulation c)
    |>.set .xEntropySet c (s.get .carrierFecEntropy c) |>.set .xPayload c (s.get .carrierFecPayload c)
    |>.set .xRxConf c (s.storedRxRate c)
    |>.txRetune c (s.storedTxRate c)
    |>.set .carrierSlackRxTarget c target.1 |>.set .carrierSlackTxTarget c target.2
  let s := s.emptySlack c |>.set .carrierSlackTxFill c target.2 |>.setTx c TxLine.start |>.setRx c RxLine.start
  let s := (s.txFigures c (s.nat .xTxRate c)).refreshCap c
  let s := s |>.set .carrierNcLowerInForce c (s.get .carrierNcLower c)
    |>.set .carrierNcUpperInForce c (s.get .carrierNcUpper c)
    |>.set .carrierNcSpacingInForce c (s.get .carrierNcSpacing c)
    |>.set .carrierNcInForce c (if s.flag .carrierNcEnable c then s.ncCode c else 0)
    |>.setBlob .xNcTaps c [] |>.setBlob .xNcTaps (12 + c) []
    |>.setBlob .carrierNcSideTaps c [] |>.setBlob .carrierNcSideTaps (12 + c) []
    |>.set .carrierNcSideLeakage c (-999) |>.set .carrierNcSideLeakage (12 + c) (-999)
    |>.set .xNcGuard c 0 |>.set .xNcGuard (12 + c) 0 |>.set .xTxMf c 0
  let s := (s.bankRefit c (s.nat .xTxRate c)).bankRefit (12 + c) (s.nat .xTxRate c)
  let s := (s.blocksNow c).toSeeking c 0
  let s := if s.flag .xRelock c then s else s.bankRefit (48 + c) (s.nat .xRxRate c)
  (s.reportUnreciprocated c 0).reportUnreciprocated c 1

/-- The device mode and the requests let carrier c leave Idle (R27, R47, R93, R432). DESIGN CHOICE (log entry 48): in Haven under
the idle policy no carrier leaves Idle, a raise under way at the entry included; "from an existing state only" is read so. -/
def State.mayLeaveIdle (s : State) (c : Nat) : Bool :=
  let m := s.mode
  decide (2 ≤ m ∧ m ≤ 4 ∧ 1 ≤ s.get .carrierRequest c)
    && !s.bit .throttleShed 0 c
    && !((channels c).any fun n => s.get .convCalState n == 4 || s.get .convCalState (48 + n) == 4)

end Sys2Proof.Machine
end

