-- ==== Sys2Proof/Machine/Converter.lean ====
section
/-! DEFINITION. Line converters: references, gain, open-input test, short protection and what stroke boundaries apply
(R57 to R85, R113 to R122, R129). -/

namespace Sys2Proof.Machine

/-- Carriers on REFL input k: those of crew k. -/
def crewCarriers (k : Nat) : List Nat := [3 * k, 3 * k + 1, 3 * k + 2]

/-! ## References (R63) -/

/-- A measured offset as 2400.02 reports it. -/
def reflOffsetOf (v : Int) : Int := max (-2147483647) (min 2147483647 v)

/-- The offline measurements on all converters of carrier c are abandoned and not counted (R99). -/
def State.calAbandonOffline (s : State) (c : Nat) : State := (s.calAbandonAdcs c).calAbandonDacs c

/-- The loops of a carrier enter holdover (R63 steps 1 and 2), one that is off staying so: the AGC window is abandoned (R83), and an
offline measurement (R99). -/
def State.toHoldover (s : State) (c : Nat) : State :=
  if s.rxLoop c = 0 ∧ s.txLoop c = 0 then s
  else
    let s := s.setLoops c (if s.txLoop c = 0 then 0 else 3) (if s.rxLoop c = 0 then 0 else 3) |>.set .xRelock c 0
      |>.agcRestart c |>.calAbandonOffline c
    let s := if s.idle c then s else (s.set .carrierRxTimingState c 3).crHold c
    (s.refreshConv c).refreshRx c

/-- The state of a REFL input as measured (R63): 0 absent, 1 within ±100 ppm, 2 outside. -/
def reflStateOf (present : Bool) (offset : Int) : Int :=
  if !present then 0 else if offset.natAbs ≤ 100000 then 1 else 2

/-- REFL input k as measured: its state, its offset in ppb, and an entry to state 0 or 2 counted (Table: Reference input
objects). -/
def State.reflMeasured (s : State) (k : Nat) (present : Bool) (offset : Int) : State :=
  let new := reflStateOf present offset
  let s := if new = 1 ∨ s.get .reflState k = new then s else s.bump .reflLosses k
  s.set .reflState k new |>.set .reflOffset k (if present then reflOffsetOf offset else -2147483648)

/-- REFL input k is lost: it stops, or is present beyond ±100 ppm (R63). A measurement within ±100 ppm is no loss. -/
def State.reflLoss (s : State) (k : Nat) (present : Bool) (offset : Int) : State :=
  let s := s.reflMeasured k present offset
  if s.get .reflState k = 1 then s
  else s.each (crewCarriers k) fun s c => if s.rxLoop c = 1 && !s.flag .xRelock c then s else s.toHoldover c

/-- REFL_LOSS (R63). -/
def execReflLoss (k : Fin 4) (present : Bool) (offset : Int) (s : State) : Host.Outcome State Fault Refusal :=
  s.live fun s => s.reflLoss k present offset

/-- Loop l (c receive, 12 + c transmit) locks: the sensor reading fixes its VCO band (R100). -/
def State.bandChosen (s : State) (l : Nat) : State :=
  s |>.set .xCalBand l (s.get .sensorValue (12 + l % 12)) |>.set .xCalBandLeft l 0 |>.set .xCalBandOn l 1

/-- The loops of a carrier that are on lock; each that was not locked chooses its band (R100). -/
def State.loopsLock (s : State) (c : Nat) : State :=
  let tx := s.txLoop c
  let rx := s.rxLoop c
  let s := s.setLoops c (if tx = 0 then 0 else 2) (if rx = 0 then 0 else 2)
  let s := if rx = 1 ∨ rx = 3 then s.bandChosen c else s
  if tx = 1 ∨ tx = 3 then s.bandChosen (12 + c) else s

/-- After a relock (R63 step 3, R35): a computed dispersion bank fits the rate served (R139); a carrier not in Idle goes to
Seeking, code 5, and one in Seeking restarts its survey. -/
def State.afterRelock (s : State) (c : Nat) : State :=
  let s := s.bankRefit (48 + c) (s.nat .xRxRate c)
  if s.idle c then (s.refreshConv c).refreshRx c
  else if s.get .carrierState c = 1 then
    let s := (s.surveyAll c).set .carrierRxTimingState c 1
    (((s.retune c (s.seekRate c)).seekState c).refreshConv c).refreshRx c
  else s.toSeeking c 5

/-- REFL input k is measured again; within tolerance, the loops in holdover on it relock (R63 step 3). -/
def State.reflRelock (s : State) (k : Nat) (offset : Int) : State :=
  let s := s.reflMeasured k true offset
  if s.get .reflState k ≠ 1 then s
  else s.each (crewCarriers k) fun s c =>
    if s.rxLoop c = 3 || s.txLoop c = 3 then (s.loopsLock c).afterRelock c else s

/-- REFL_RELOCK (R63). -/
def execReflRelock (k : Fin 4) (offset : Int) (s : State) : Host.Outcome State Fault Refusal :=
  s.live fun s => s.reflRelock k offset

/-- Queued repairs are begun: in Dormant, and on the way from Dormant or Haven to Trim in parallel with foreground calibration, up
to its end (R332; log entry 45). -/
def State.repairTime (s : State) : Bool :=
  let m := s.get .deviceModeState 0
  if s.flag .deviceModeBusy 0 then
    (m == 0 || m == 5) && s.get .xTarget 0 == 1
      && (!s.flag .xTrimReady 0 || carriers.any fun c => s.flag .xFgCal c)
  else m == 0

/-- The repair running on stack k: the first queued, where repairs are begun or one begun before still runs. -/
def State.repairRunning (s : State) (k : Nat) : Option (Nat × Nat) :=
  if s.repairTime || s.flag .xRepairRun k then s.repairs.find? fun x => x.1 == k else none

/-- Repairs that the end of foreground calibration, or a Haven cause, meets go on (R332, R335). -/
def State.repairsGoOn (s : State) : State :=
  if s.repairTime then
    s.each [0, 1, 2, 3] fun s k => if (s.repairRunning k).isSome then s.set .xRepairRun k 1 else s
  else s

/-- Foreground calibration begins in a transition from Dormant or Haven to Trim once no loop is still locking (R90). -/
def State.calBegin (s : State) : State :=
  let m := s.get .deviceModeState 0
  if s.flag .deviceModeBusy 0 && (m == 0 || m == 5) && s.get .xTarget 0 == 1 && !s.flag .xTrimReady 0
      && carriers.all (fun c => s.rxLoop c != 1 && s.txLoop c != 1) then
    (s.set .xTrimReady 0 1).each carriers fun s c =>
      ((s.set .xFgCal c 1).set .xFgCalTick c (s.get .xTicks 0)).refreshConv c
  else s

/-- Loops still locking on input k lock, where the input is within tolerance (R63). -/
def State.synthLock (s : State) (k : Nat) : State :=
  if s.get .reflState k ≠ 1 then s
  else
    (s.each (crewCarriers k) fun s c =>
      if (s.rxLoop c = 1 || s.txLoop c = 1) && !s.flag .xRelock c then (s.loopsLock c).refreshConv c else s).calBegin

/-- SYNTHESISER_LOCK (R90). -/
def execSynthesiserLock (k : Fin 4) (s : State) : Host.Outcome State Fault Refusal := s.live fun s => s.synthLock k

/-- Loops on an input that is absent or outside tolerance 2 ms after the Trim request go to holdover at their fused
tuning word (R63). -/
def State.synthHoldover (s : State) (k : Nat) : State :=
  if s.get .reflState k = 1 then s
  else
    (s.each (crewCarriers k) fun s c =>
      if (s.rxLoop c = 1 || s.txLoop c = 1) && !s.flag .xRelock c then (s.setLoops c 3 3).refreshConv c else s).calBegin

/-- REFL_HOLDOVER_AT_TRIM (R63). -/
def execReflHoldoverAtTrim (k : Fin 4) (s : State) : Host.Outcome State Fault Refusal :=
  s.live fun s => s.synthHoldover k

/-! ## Gain (R66 to R70, R83) -/

/-- RMS / target > 10 ^ (h / 80), with the sum of squares of n samples, target in LSB and h half-decibel steps of hysteresis:
L > h / 4 dB. -/
def aboveWindow (sum n target h : Nat) : Bool := decide (10 ^ h * (n * target ^ 2) ^ 40 < sum ^ 40)

/-- The mirror image: L < −h / 4 dB. -/
def belowWindow (sum n target h : Nat) : Bool := decide (10 ^ h * sum ^ 40 < (n * target ^ 2) ^ 40)

/-- RMS in 1/256 LSB of n samples with a sum of squares, to a whole number next to it (log entry 48). n is positive. -/
def rmsOf (sum n : Nat) : Nat :=
  let r := rootBits 2 (65536 * sum / n) 16 0
  if r * r * n = 65536 * sum then r else if Config.roundUp (65536 * sum) n then r + 1 else r

/-- A channel at the end of a measured window of n unflagged samples: its step is decided, or its demand beyond the code range
counted (R66, R70). -/
def State.agcChannel (s : State) (a n : Nat) : State :=
  let sum := s.nat .xAgcSum a
  let s := s.set .adcRms a (rmsOf sum n : Nat)
  let t := s.nat .adcAgcTarget a
  let h := s.nat .adcAgcHysteresis a
  let g := s.get .adcAgcGain a
  let auto := s.get .adcAgcMode a == 1
  let down := auto && aboveWindow sum n t h
  let up := auto && belowWindow sum n t h
  let beyond := (down && g == 0) || (up && g == 36)
  let s := s.set .xGainStep a (if beyond then 0 else if down then -1 else if up then 1 else 0)
  if beyond then
    let s := s.set .xAgcRun a (s.get .xAgcRun a + 1)
    if 16 ≤ s.get .xAgcRun a ∧ s.get .adcAgcAtLimit a = 0 then (s.set .adcAgcAtLimit a 1).raise (evAdc a 1) [] else s
  else (s.set .xAgcRun a 0).set .adcAgcAtLimit a 0

/-- The AGC window of a carrier that has its 256 stroke sets ends (R66, R67): fewer than 16 unflagged sets measure nothing; where
a channel steps, the steps land two sets on and the next window begins two sets behind them. The ADC-level LOS condition of R229
is taken from a measured window. -/
def State.agcWindow (s : State) (c : Nat) : State :=
  if s.nat .xAgcSets c < 256 then s
  else
    let good := s.nat .xAgcGood c
    let full := !s.flag .xAgcBelow c
    let s := if good < 16 then s
      else
        let s := s.each (channels c) fun s a => s.agcChannel a (256 * good)
        s.setFlag .xAdcLos c (full && (channels c).all fun a => decide (s.nat .adcRms a < 256 * s.nat .carrierDefectLosFloor c))
    let step := decide (16 ≤ good) && (channels c).any fun a => s.get .xGainStep a != 0
    let s := s.agcRestart c
    if step then s.set .xGainDue c 1 |>.set .xGainWait c 2 |>.set .xAgcSkip c 4 else s

/-- AGC_WINDOW_END (R66): the window ends behind its last set. What it measures has come with the sets. -/
def execAgcWindowEnd (c : Fin 12) (_rms _unflagged : Unit) (s : State) : Host.Outcome State Fault Refusal :=
  s.live fun s => s.agcWindow c

/-- Gain of ADC a moves by d codes. -/
def State.gainStep (s : State) (a : Nat) (d : Int) : State :=
  if d = 0 then s else (s.set .adcAgcGain a (s.get .adcAgcGain a + d)).bump .adcAgcSteps a

/-- Decided steps applied together at their set: it and the next carry the erasure flag (R67). -/
def State.gainApply (s : State) (c : Nat) : State :=
  if s.idle c || s.rxHeld c || !s.flag .xGainDue c || s.get .xGainWait c != 0 then s
  else
    let s := s.each (channels c) fun s a => (s.gainStep a (s.get .xGainStep a)).set .xGainStep a 0
    (s.set .xGainDue c 0).set .xFlagNext c 2

/-- GAIN_STEP_APPLY (R67). -/
def execGainStepApply (c : Fin 12) (s : State) : Host.Outcome State Fault Refusal := s.live fun s => s.gainApply c

/-- The manual step due on ADC a (R69). -/
def State.manualDue (s : State) (a : Nat) : Int :=
  let d := s.get .adcAgcManualGain a - s.get .adcAgcGain a
  if s.get .adcAgcMode a ≠ 2 then 0 else if 0 < d then 1 else if d < 0 then -1 else 0

/-- Manual steps due together are applied together, two stroke sets after the last at the earliest (R69); a step already
decided comes first (R83). -/
def State.manualStep (s : State) (c : Nat) : State :=
  if s.idle c || s.rxHeld c || s.flag .xGainDue c || s.get .xFlagNext c ≠ 0 || (channels c).all (fun a => s.manualDue a == 0) then s
  else (s.each (channels c) fun s a => s.gainStep a (s.manualDue a)).set .xFlagNext c 2

/-- MANUAL_GAIN_STEP (R69). -/
def execManualGainStep (c : Fin 12) (s : State) : Host.Outcome State Fault Refusal := s.live fun s => s.manualStep c

/-! ## Open-input test (R71, R72) -/

/-- 3022.01 written 0x01, past the mode check of R72. -/
def writeOpenTest (c : Nat) (s : State) : State × Answer :=
  if s.flag .carrierOpenTestBusy c then (s, refusedWith 0x0A)
  else if !s.idle c then (s, refusedWith 0x08)
  else (s.set .carrierOpenTestBusy c 1, accepted)

/-- OPEN_TEST_REQUEST (R72). -/
def execOpenTestRequest (cl : Client) (c : Fin 12) (s : State) : Host.Outcome State Fault Refusal :=
  .next (s.serveWrite cl .carrierOpenTestRequest c (.int 1) (writeOpenTest c))

/-- A test ends: legs that moved more than 100 mV are open (R71, R73). -/
def State.openResult (s : State) (c : Nat) (p n : Vector (Fin 65536) 4) : State :=
  if s.flag .carrierOpenTestBusy c then
    (s.set .carrierOpenTestBusy c 0).each (channels c) fun s a =>
      let sp := (chan p a 0).val
      let sn := (chan n a 0).val
      let r : Nat := 1 + (if 100 < sp then 2 else 0) + (if 100 < sn then 4 else 0)
      let s := s.set .adcOpenShiftP a sp |>.set .adcOpenShiftN a sn |>.set .adcOpenResult a r
      if r = 1 then s else s.raise (evAdc a 0) []
  else s

/-- OPEN_TEST_COMPLETE (R71). -/
def execOpenTestComplete (c : Fin 12) (shiftP shiftN : Vector (Fin 65536) 4) (s : State) :
    Host.Outcome State Fault Refusal :=
  s.live fun s => s.openResult c shiftP shiftN

/-! ## Output shorts (R80 to R82) -/

/-- A leg becomes protected: its driver is disabled and shown so (0 = P, 1 = N). -/
def State.legProtect (s : State) (d leg : Nat) : State :=
  (s.setBit .dacShortState d leg true).refreshConv (d / 4)

/-- A short found on a driving leg (R80). -/
def State.shortDetect (s : State) (d leg : Nat) : State :=
  if !s.flag .xPowered 0 || s.bit .dacShortState d leg then s
  else
    (((s.legProtect d leg).bump .dacShortEpisodes d |>.set .xTrial (2 * d + leg) 0).markTick .xShortAt (2 * d + leg)).raise
      (evDac d 0) []

/-- DAC_SHORT_DETECT (R80). -/
def execDacShortDetect (d : Fin 48) (leg : Fin 2) (s : State) : Host.Outcome State Fault Refusal :=
  s.live fun s => s.shortDetect d leg

/-- A trial of a protected leg begins and is counted, 4601.03 ms after it was protected or last tried (R81). -/
def State.shortTrial (s : State) (d leg : Nat) : State :=
  if s.flag .xPowered 0 && s.bit .dacShortState d leg && s.flag .dacShortRetryEnable d && !s.flag .xTrial (2 * d + leg)
      && s.usSince .xShortAt (2 * d + leg) (1000 * s.get .dacShortRetryInterval d) then
    ((s.set .xTrial (2 * d + leg) 1).bump .dacShortRetries d).markTick .xShortAt (2 * d + leg)
  else s

/-- SHORT_RETRY_TRIAL (R81). -/
def execShortRetryTrial (d : Fin 48) (leg : Fin 2) (s : State) : Host.Outcome State Fault Refusal :=
  s.live fun s => s.shortTrial d leg

/-- A trial ends: back to protected without event when the limiter engaged, else the leg stays enabled (R81). -/
def State.shortTrialEnd (s : State) (d leg : Nat) (engaged : Bool) : State :=
  if s.flag .xTrial (2 * d + leg) then
    let s := s.set .xTrial (2 * d + leg) 0
    if engaged then s
    else ((s.setBit .dacShortState d leg false).refreshConv (d / 4)).raise (evDac d 1) []
  else s

/-- SHORT_TRIAL_END (R81). -/
def execShortTrialEnd (d : Fin 48) (leg : Fin 2) (engaged : Bool) (s : State) : Host.Outcome State Fault Refusal :=
  s.live fun s => s.shortTrialEnd d leg engaged

/-- 4601.02 written: 1 ends protection that waited for it when retries had been off (R81). DESIGN CHOICE (log entry 48): it ends at
once, "stays protected until 4601.02 is written to 1", without a trial and without source 1. -/
def writeShortRetry (d : Nat) (v : Int) (s : State) : State × Answer :=
  let was := s.get .dacShortRetryEnable d
  let s := s.set .dacShortRetryEnable d v
  (if was = 0 ∧ v = 1 then (s.set .dacShortState d 0).refreshConv (d / 4) else s, accepted)

/-- 3020.05 or 4600.03 written: the converter states follow at once (R79, R82). -/
def writeConvPolicy (r : Reg) (i c : Nat) (v : Int) (s : State) : State × Answer :=
  ((s.set r i v).refreshConv c, accepted)

/-! ## Stroke boundaries -/

/-- 3021.02 in fixed mode, and a change of mode, take force at the next stroke boundary (R74). -/
def writeWiring (r : Reg) (c : Nat) (v : Int) (s : State) : State × Answer :=
  let s := s.set r c v
  (if s.get .carrierWiringMode c = 0 then s.set .xWiringDue c (s.get .carrierWiringFixedMap c + 1) else s, accepted)

/-- The skew object of channel j of a carrier, receive or transmit. -/
def rxSkewReg (j : Nat) : Reg :=
  if j = 0 then .carrierRxSkewXi else if j = 1 then .carrierRxSkewXq else if j = 2 then .carrierRxSkewYi
  else .carrierRxSkewYq
/-- Transmit counterpart. -/
def txSkewReg (j : Nat) : Reg :=
  if j = 0 then .carrierTxSkewXi else if j = 1 then .carrierTxSkewXq else if j = 2 then .carrierTxSkewYi
  else .carrierTxSkewYq

/-- Receive delays take force: more than one step on any channel flags one set (R129). DESIGN CHOICE (log entry 48): 3041.0A counts
it in Idle too, where no set passes. -/
def State.applyRxSkew (s : State) (c : Nat) : State :=
  let far := [0, 1, 2, 3].any fun j => decide (1 < (s.get (rxSkewReg j) c - s.get .xRxSkew (4 * c + j)).natAbs)
  let s := s.each [0, 1, 2, 3] fun s j => s.set .xRxSkew (4 * c + j) (s.get (rxSkewReg j) c)
  if far then (s.bump .carrierRxSkewFlaggedSets c).set .xGapFlag c (max 1 (s.get .xGapFlag c)) else s

/-- A pending swap or the start of a pending cross-fade of bank b (R118, R119). A swap of the initial taps loads the
live taps, which become the standby bank (R143). DEDUCED (log entry 34): in Idle a pending cross-fade is put in force at
once, as R120 has a computed bank. -/
def State.applyBank (s : State) (b : Nat) : State :=
  let c := b % 12
  if s.get .xBankPending b = 2 then
    if s.idle c then s.bankSwap b
    else (s.set .xBankPending b 0).set .xBankFading b 1 |>.set .xFadeSets b 0 |>.refreshBusy b
  else if s.get .xBankPending b = 1 then
    if b / 12 = 5 then
      let live := s.blob .xPolTaps c
      let s := s.setBlob .xPolTaps c (satTaps (s.standbyOf b))
      (s.bankSwap b).setBlob .bankStandby b live |>.set .xPolSame c 0
    else s.bankSwap b
  else s

/-- A due wiring map is applied: map + 1 from a write, map + 17 from an entry to Tentative, where a non-zero map that
stays is reported as well (R75). -/
def State.dueMap (s : State) (c : Nat) : State :=
  let due := s.get .xWiringDue c
  if due = 0 then s
  else if due < 17 then s.applyMap c (due - 1)
  else if s.get .carrierWiringAppliedMap c = due - 17 ∧ due ≠ 17 then s.raise (evCarrier c 19) [u8 (due - 17)]
  else s.applyMap c (due - 17)

/-- What the next stroke boundary of a carrier puts in force: wiring maps (R74, R77), delays (R113, R122, R129), swing
(R79), RMS target (R121), and bank commits (R118, R119), all together (R123). -/
def State.strokeBoundary (s : State) (c : Nat) : State :=
  let s := (s.dueMap c).set .xWiringDue c 0
  let s := s.set .xTxMap c (s.get .carrierWiringTxMap c) |>.set .xRmsTarget c (s.get .carrierTxRmsTarget c)
  let s := s.each [0, 1, 2, 3] fun s j =>
    (s.set .xTxSkew (4 * c + j) (s.get (txSkewReg j) c)).set .xSwing (4 * c + j) (s.get .dacSwing (4 * c + j))
  let s := s.applyRxSkew c
  (s.each [0, 1, 2, 3, 4, 5] fun s f => (s.setBlob .xBankHole (12 * f + c) []).applyBank (12 * f + c)).refreshRx c

/-- STROKE_BOUNDARY_APPLY (R122). -/
def execStrokeBoundaryApply (c : Fin 12) (s : State) : Host.Outcome State Fault Refusal :=
  s.live fun s => if s.flag .xPowered 0 then s.strokeBoundary c else s

end Sys2Proof.Machine
end

