-- ==== Sys2Proof/Machine/Banks.lean ====
section
/-! DEFINITION. Coefficient banks, the parameters they are computed from, and per-channel delays (R110 to R123, R128 to
R140). Bank b of filter f and carrier c is 12 f + c. -/

namespace Sys2Proof.Machine

/-- xxxx.08 written: refused while a commit, computation or fade of the filter is in progress (R117, R123). -/
def writeStandby (b : Nat) (v : List Byte) (s : State) : State × Answer :=
  if s.flag .bankBusy b then (s, refusedWith 0x0A)
  else ((s.setBlob .bankStandby b v).setBankNumbers .xSbyParam b (s.bankParams b), accepted)

/-- BANK_STANDBY_WRITE (R117). -/
def execBankStandbyWrite (cl : Client) (b : Fin 72) (v : List Byte) (s : State) : Host.Outcome State Fault Refusal :=
  .next (s.serveWrite cl .bankStandby b (.bytes v) (writeStandby b v))

/-- xxxx.09 written: 1 swaps, 2 cross-fades a dispersion filter (R117 to R119, R137). -/
def writeCommit (b : Nat) (v : Int) (s : State) : State × Answer :=
  if v = 2 ∧ b / 12 ≠ 1 ∧ b / 12 ≠ 4 then (s, refusedWith 0x08)
  else if s.flag .bankBusy b then (s, refusedWith 0x0A)
  else ((s.set .xBankPending b v).refreshBusy b, accepted)

/-- BANK_COMMIT_SWAP (R118). -/
def execBankCommitSwap (cl : Client) (b : Fin 72) (s : State) : Host.Outcome State Fault Refusal :=
  .next (s.serveWrite cl .bankCommit b (.int 1) (writeCommit b 1))

/-- BANK_COMMIT_CROSSFADE (R119). -/
def execBankCommitCrossfade (cl : Client) (b : Fin 72) (s : State) : Host.Outcome State Fault Refusal :=
  .next (s.serveWrite cl .bankCommit b (.int 2) (writeCommit b 2))

/-- A computation into the standby bank starts, or starts again (R120, R139). -/
def State.bankStart (s : State) (b : Nat) : State := (s.set .xBankComputing b 1).refreshBusy b

/-- The tracking step that the filtered residual asks for (R140): rounded to 1 ps/nm, limited to ±200. -/
def State.trackWanted (s : State) (c : Nat) : Int := max (-200) (min 200 ((s.get .xMonV c + 128) / 256))

/-- A tracking computation starts when every condition of R140 holds. -/
def State.trackStart (s : State) (c : Nat) : State :=
  let d := s.trackWanted c
  if s.flag .carrierCdTrackEnable c && s.get .xBankMode (48 + c) == 0 && s.upLine c && decide (8 ≤ s.get .xTrackRun c)
      && !s.flag .bankBusy (48 + c) && !s.bit .carrierRxHolding c 3
      && decide ((s.get .carrierCdApplied c + d - s.get .carrierCdTarget c).natAbs ≤ 2000)
      && decide ((s.get .carrierCdApplied c + d).natAbs ≤ s.nat .carrierCdReach c) then
    (s.set .xTrackStep c d).bankStart (48 + c)
  else s

/-- A cross-fade that has run its 4,096 symbols, 4,916 samples, ends within its 20th stroke set: the new bank is active,
and for a tracking step the correction is recorded (R119, R138, R140). -/
def State.fadeEnd (s : State) (b : Nat) : State :=
  if s.flag .xBankFading b ∧ 20 ≤ s.get .xFadeSets b then
    let c := b % 12
    let s := s.bankSwap b
    if b / 12 = 4 then ((s.trackDone c).refreshRx c).trackStart c else s
  else s

/-- CROSSFADE_END (R119). -/
def execCrossfadeEnd (b : Fin 72) (s : State) : Host.Outcome State Fault Refusal := s.live fun s => s.fadeEnd b

/-- A computed bank is ready: in Idle it goes into force at once, else a shaping bank is swapped and a dispersion bank
cross-faded at the next stroke boundary (R120, R139). It waits for a commit or fade under way. -/
def State.bankReady (s : State) (b : Nat) : State :=
  if !s.flag .xBankComputing b || s.get .xBankPending b != 0 || s.flag .xBankFading b then s
  else
    let s := s.bankFill b
    if s.idle (b % 12) then s.bankSwap b else (s.set .xBankPending b (if b / 12 = 0 then 1 else 2)).refreshBusy b

/-- BANK_COMPUTE_COMPLETE (R120). -/
def execBankComputeComplete (b : Fin 72) (s : State) : Host.Outcome State Fault Refusal := s.live fun s => s.bankReady b

/-! ## Transmit parameters (R110 to R112, R120) -/

/-- A parameter write computes: the mode in force is computed, and user mode has not been selected (R120, R123; DEDUCED,
log entry 33). -/
def State.computes (s : State) (b : Nat) : Bool := s.get .xBankMode b == 0 && s.storedMode b == 0

/-- A parameter of bank b has been written (R120). -/
def State.parameterWritten (s : State) (b : Nat) : State := if s.computes b then s.bankStart b else s

/-- 3031.02 written. -/
def writeRolloff (c : Nat) (v : Int) (s : State) : State × Answer :=
  ((s.set .carrierTxShapeRolloff c v).parameterWritten c, accepted)

/-- A mode object of transmit bank b written (R123): user abandons a computation; outside Idle the mode takes force at the
filter's next commit. DESIGN CHOICE (log entry 33): in Idle, where R123 says nothing, the mode is in force at once, and
computed starts a computation. -/
def State.bankMode (s : State) (b : Nat) (v : Int) : State :=
  let s := if v = 1 then s.bankAbandon b else s
  if s.idle (b % 12) then
    let s := s.set .xBankMode b v
    if v = 0 then s.bankStart b else s
  else s

/-- 3031.01 written. -/
def writeShapeMode (c : Nat) (v : Int) (s : State) : State × Answer :=
  ((s.set .carrierTxShapeMode c v).bankMode c v, accepted)

/-- 3032.01 written: 0 needs the stored target within reach at the stored transmit rate (R112). -/
def writeTxCdMode (c : Nat) (v : Int) (s : State) : State × Answer :=
  if v = 0 ∧ txReach (s.storedTxRate c) < (s.get .carrierTxCdTarget c).natAbs then (s, refusedWith 0x08)
  else ((s.set .carrierTxCdMode c v).bankMode (12 + c) v, accepted)

/-- 3032.02 written: in computed mode within reach (R112). -/
def writeTxCdTarget (c : Nat) (v : Int) (s : State) : State × Answer :=
  if s.get .carrierTxCdMode c = 0 ∧ txReach (s.storedTxRate c) < v.natAbs then (s, refusedWith 0x08)
  else ((s.set .carrierTxCdTarget c v).parameterWritten (12 + c), accepted)

/-- 3032.03 written. -/
def writeTxCdFrequency (c : Nat) (v : Int) (s : State) : State × Answer :=
  ((s.set .carrierTxCdFrequency c v).parameterWritten (12 + c), accepted)

/-! ## Receive dispersion (R135 to R140) -/

/-- A tracking computation gives way to the host; a step that fades in completes (R152). The count of updates goes on: it restarts
when a fade ends (R140). -/
def State.trackAbandon (s : State) (c : Nat) : State :=
  if s.get .xBankPending (48 + c) ≠ 0 ∨ s.flag .xBankFading (48 + c) then s else s.set .xTrackStep c 0

/-- 3040.02 written: within the stored reach and the reach in force (R135); the correction returns to 0, and stays there
when a step is fading in (DEDUCED, log entry 34). -/
def writeCdTarget (c : Nat) (v : Int) (s : State) : State × Answer :=
  if s.storedReach c < v.natAbs ∨ s.nat .carrierCdReach c < v.natAbs then (s, refusedWith 0x08)
  else
    let s := (s.set .carrierCdTarget c v).set .carrierCdCorrection c 0 |>.trackAbandon c
    let s := s.setFlag .xTrackVoid c (s.get .xTrackStep c != 0)
    ((s.parameterWritten (48 + c)).refreshApplied c, accepted)

/-- 3040.03 written. -/
def writeCdFrequency (c : Nat) (v : Int) (s : State) : State × Answer :=
  (((s.set .carrierCdFrequency c v).trackAbandon c).parameterWritten (48 + c), accepted)

/-- 3040.01 written: the mode is in force at once (R136). User mode ends a computation and 3040.04 reads the target;
computed mode builds the response for it. -/
def writeCdMode (c : Nat) (v : Int) (s : State) : State × Answer :=
  let b := 48 + c
  let s := ((s.set .carrierCdMode c v).trackAbandon c).set .xBankMode b v
  ((if v = 1 then s.bankAbandon b else s.bankStart b).refreshApplied c, accepted)

/-! ## Deskew (R128 to R130) -/

/-- One channel's auto-trim step (R130): toward cancelling a residual of 2 steps or more, inside the range of R128, when
its 1 ms count has run since the last turn or host write. -/
def State.trimChannel (s : State) (c j : Nat) (res : Int) : State :=
  if s.get .xTicks 0 < s.get .xTrimTick (4 * c + j) + 250000 then s
  else
    let d := s.get (rxSkewReg j) c
    let n := if 0 < res then d - 1 else d + 1
    let s := s.set .xTrimTick (4 * c + j) (s.get .xTicks 0)
    if 2 ≤ res.natAbs ∧ -4096 ≤ n ∧ n ≤ 4096 then (s.set (rxSkewReg j) c n).bump .carrierRxSkewAutoSteps c else s

/-- A receive delay written: applied as written, and the channel's 1 ms count starts again (R130). -/
def writeRxSkew (r : Reg) (c j : Nat) (v : Int) (s : State) : State × Answer :=
  ((s.set r c v).set .xTrimTick (4 * c + j) (s.get .xTicks 0), accepted)

/-- The register that reports the residual of channel j. -/
def rxResidualReg (j : Nat) : Reg :=
  if j = 0 then .carrierRxSkewResXi else if j = 1 then .carrierRxSkewResXq else if j = 2 then .carrierRxSkewResYi
  else .carrierRxSkewResYq

/-- Residuals are measured and trimmed while the carrier is Locked or Carrying and nothing holds the trim (R130, R146). A
window with erased samples is skipped; the freeze bit in force is that of the window that ends (R147). -/
def State.autoTrim (s : State) (c : Nat) (residual : Vector Int 4) : State :=
  let skip := s.flag .xDeskewErased c
  let held := s.bit .carrierRxHolding c 4
  let s := (s.set .xDeskewErased c 0).setBit .xPolFrozen c 4 (s.bit .carrierRxFreeze c 4)
  if !s.upLine c || !s.flag .carrierRxSkewAuto c || skip then s.refreshRx c
  else
    let s := s.each [0, 1, 2, 3] fun s j => s.set (rxResidualReg j) c (max (-32768) (min 32767 (chan residual j 0)))
    if held then s.refreshRx c
    else (s.each [0, 1, 2, 3] fun s j => s.trimChannel c j (chan residual j 0)).refreshRx c

/-- DESKEW_AUTO_TRIM (R130). -/
def execDeskewAutoTrim (c : Fin 12) (residual : Vector Int 4) (s : State) : Host.Outcome State Fault Refusal :=
  s.live fun s => s.autoTrim c residual

end Sys2Proof.Machine
end

