-- ==== Sys2Proof/Machine/Calibration.lean ====
section
/-! DEFINITION. Converter calibration: correction sets, plausibility, foreground and background (R86 to R103).

Unit u is a converter: ADC a is u = a, DAC d is u = 48 + d. -/

namespace Sys2Proof.Machine

/-- Carrier of converter u. -/
def convCarrier (u : Nat) : Nat := u % 48 / 4
/-- Number of the converter within its kind, as the records of source 24 name it. DESIGN CHOICE (log entry 31): the spec
lists the converter as one item and gives it no numbering, so ADC n and DAC n read alike. -/
def convNumber (u : Nat) : Nat := u % 48

/-- Slots of converter u. -/
def slotsOf (u : Nat) : Nat := if u < 48 then 64 else 16

/-- A correction record (R87). -/
def packRecord (m : CalUnit) : Nat :=
  (m.skew % 2048).toNat * 2 ^ 21 + ((m.gain + 2048) % 4096).toNat * 2 ^ 9 + (m.offset % 512).toNat

/-- The nominal record. -/
def nominalRecord : Nat := 2048 * 2 ^ 9

/-- Offset, gain correction and skew of a record. -/
def recordOffset (r : Nat) : Int := if field r 8 1 = 1 then (field r 0 9 : Int) - 512 else field r 0 9
/-- Gain correction. -/
def recordGain (r : Nat) : Int := (field r 9 12 : Int) - 2048
/-- Skew. -/
def recordSkew (r : Nat) : Int := if field r 31 1 = 1 then (field r 21 11 : Int) - 2048 else field r 21 11

/-- D1xx.09 as bytes: nominal until a commit (R87). -/
def State.calRecords (s : State) (u : Nat) : List Byte :=
  let b := s.blob .convCalRecords u
  if b.isEmpty then (List.replicate (slotsOf u + 1) (leBytes 4 (nominalRecord : Int))).flatten else b

/-- D1xx.0A as bytes: slot n served by unit n until a commit. -/
def State.calMap (s : State) (u : Nat) : List Byte :=
  let b := s.blob .convCalSlotMap u
  if b.isEmpty then (List.range (slotsOf u)).map fun n => BitVec.ofNat 8 n else b

/-- D1xx.0C as bytes: 0.5 dB per code until measured. -/
def State.calVga (s : State) (u : Nat) : List Byte :=
  let b := s.blob .convCalVgaTable u
  if b.isEmpty then (List.range 37).flatMap fun n => leBytes 2 (50 * n : Nat) else b

/-- One record of a converter replaced. -/
def State.setRecord (s : State) (u slice v : Nat) : State :=
  s.setBlob .convCalRecords u
    ((s.calRecords u).take (4 * slice) ++ leBytes 4 (v : Nat) ++ (s.calRecords u).drop (4 * slice + 4))

/-- Records lost to an uncorrectable error take their reset value at a commit (R327). -/
def State.calDropLost (s : State) (u : Nat) : State :=
  s.each ((List.range (slotsOf u + 1)).filter fun k => s.flag .xCalLost (68 * u + k)) fun s k =>
    (s.setRecord u k nominalRecord).set .xCalLost (68 * u + k) 0

/-- Record of a unit in force. -/
def State.recordAt (s : State) (u slice : Nat) : Nat := leNat (((s.calRecords u).drop (4 * slice)).take 4)

/-- The compensated value the on-die references of carrier c are checked against, in 0.01 % of the fused value (R100). -/
def State.referenceAim (s : State) (c : Nat) : Int := 10000 + s.get .xRefTrim c

/-- Lowest limit code a measurement breaks; none where all hold (R89). An abandoned measurement breaks code 10 alone.
Codes 4 to 6 compare with the record in force and apply in background. aim is the compensated reference (R100). -/
def brokenLimit (aim : Int) (m : CalUnit) (old : Option Nat) : Option Nat :=
  if !m.completed then some 10
  else
    let c : List (Nat × Bool) :=
      [(1, decide (192 < m.offset.natAbs)), (2, decide (1310 < m.gain.natAbs)), (3, decide (400 < m.skew.natAbs)),
       (4, old.any fun r => decide (32 < (m.offset - recordOffset r).natAbs)),
       (5, old.any fun r => decide (163 < (m.gain - recordGain r).natAbs)),
       (6, old.any fun r => decide (40 < (m.skew - recordSkew r).natAbs)),
       (7, decide (500 ≤ m.residual)), (8, decide (aim < 50 * (m.reference - aim).natAbs))]
    (c.find? fun x => x.2).map fun x => x.1

/-- A result is refused: counted, its limit shown, source 24 raised (R89). -/
def State.calRefuse (s : State) (u slice limit : Nat) : State :=
  (s.bump .convCalRefusals u |>.set .convCalLastLimit u limit |>.set .convCalLastSlice u slice).raise
    (evCarrier (convCarrier u) 24) [u16 (convNumber u), u16 slice, u8 limit]

/-- The converter enters state 3 or 4: source 25 (R103). A second failing unit of a foreground calibration raises it in
state 4 too (R91). -/
def State.calStop (s : State) (u : Nat) (st : Int) : State :=
  if s.get .convCalState u = st ∧ st ≠ 4 then s
  else (s.set .convCalState u st).raise (evCarrier (convCarrier u) 25) []

/-! ## Foreground (R90 to R94) -/

/-- The measurement of unit k of a foreground calibration: the repeat where the first one fails limit 7 (R90); a list that
ends early leaves the rest abandoned. -/
def calUnitOf (m : CalConverter) (k : Nat) : CalUnit :=
  let first := m.units.getD k ⟨0, 0, 0, 0, 0, false⟩
  if first.completed ∧ 500 ≤ first.residual then ((m.repeats.find? fun e => e.1 == k).map (·.2)).getD first else first

/-- VGA code n within 0.25 dB of nominal (limit 9). -/
def vgaOk (m : CalConverter) (n : Nat) : Bool := decide ((m.vga.getD n (50 * n) - 50 * n).natAbs ≤ 25)

/-- The units of converter u that a foreground calibration leaves without a new record: those that fail (R91). -/
def State.calBad (s : State) (u : Nat) (m : CalConverter) : List Nat :=
  (List.range (slotsOf u + 1)).filter fun k =>
    (brokenLimit (s.referenceAim (convCarrier u)) (calUnitOf m k) none).isSome

/-- Converter u is frozen and not being recalibrated under R94: it keeps its set and its state (R98). -/
def State.calFrozen (s : State) (u : Nat) : Bool :=
  s.get .convCalState u == 3 && !s.bit .calFgBusy 0 (convCarrier u)

/-- Converter u ends its foreground calibration (R91, R88); the set of a frozen one is kept (R98). DESIGN CHOICE (log entry 31): a VGA code has no slice, so .07
and the record of its refusal carry 0xFF; a commit zeroes the fail runs of R96, and a converter that ends in state 4,
where nothing is committed, keeps them. -/
def State.calConverter (s : State) (u : Nat) (m : CalConverter) : State :=
  let n := slotsOf u
  let units := List.range (n + 1)
  let limit := fun k => brokenLimit (s.referenceAim (convCarrier u)) (calUnitOf m k) none
  let bad := s.calBad u m
  let s := s.each units fun s k => match limit k with
    | some l => s.calRefuse u k l
    | none => s
  if s.calFrozen u then s
  else
  let s :=
    if u < 48 then
      let s := s.each (List.range 37) fun s k => if vgaOk m k then s else s.calRefuse u 0xFF 9
      s.setBlob .convCalVgaTable u ((List.range 37).flatMap fun k =>
        leBytes 2 (if vgaOk m k then m.vga.getD k (50 * k) else 50 * k))
    else s
  match bad with
  | k :: _ :: _ => (s.set .convCalSuspect u (k : Nat)).calStop u 4
  | _ =>
    let old := s.calRecords u
    let rest := bad.headD n
    let s := s.setBlob .convCalRecords u (units.flatMap fun k =>
        if bad.contains k then (old.drop (4 * k)).take 4 else leBytes 4 (packRecord (calUnitOf m k) : Nat))
      |>.setBlob .convCalSlotMap u ((List.range n).map fun k => BitVec.ofNat 8 (if k < rest then k else k + 1))
      |>.set .convCalResting u rest |>.set .convCalSuspect u (if bad.isEmpty then 0xFF else rest)
      |>.set .xCalSlot u 0 |>.set .xCalLapStarted u 0
      |>.each units fun s k => (s.set .xCalFailRun (68 * u + k) 0).set .xCalLost (68 * u + k) 0
    if bad.isEmpty then s.set .convCalState u 1 else s.calStop u 3

/-- Foreground calibration of carrier c ends: its eight converters commit together (R92) and the open test starts
(R71). -/
def State.calComplete (s : State) (c : Nat) (adcs dacs : Vector CalConverter 4) : State :=
  if s.flag .xFgCal c then
    let s := s.each (channels c) fun s a => s.calConverter a (chan adcs a ⟨[], [], []⟩)
    let s := s.each (channels c) fun s d => s.calConverter (48 + d) (chan dacs d ⟨[], [], []⟩)
    let s := s.repairsGoOn |>.set .xFgCal c 0 |>.setBit .calFgBusy 0 c false
      |>.set .calFgDuration 0 ((s.get .xTicks 0 - s.get .xFgCalTick c) / 250)
      |>.set .carrierOpenTestBusy c 1
    s.refreshConv c
  else s

/-- The next background step of converter u is due: the interval that was in force at the last step has passed (R97). -/
def State.bgDue (s : State) (u : Nat) : Bool := s.usSince .xCalStepAt u (s.get .xCalStepLen u)

/-- FOREGROUND_CAL_COMPLETE (R91). -/
def execForegroundCalComplete (c : Fin 12) (adcs dacs : Vector CalConverter 4) (s : State) :
    Host.Outcome State Fault Refusal :=
  s.live fun s => s.calComplete c adcs dacs

/-- A foreground calibration under way is abandoned, previous sets staying in force (R99); refused with limit 10 where limit holds.
DESIGN CHOICE: D1xx.03 returns to what a recalibration found (log entry 48), and the abandonment is reported as one refusal per
converter, all eight of the carrier, with slice 0xFF (log entry 31). -/
def State.calAbandon (s : State) (c : Nat) (limit : Bool) : State :=
  if s.flag .xFgCal c then
    let s := if s.bit .calFgBusy 0 c then
        s.each ((channels c) ++ (channels c).map (48 + ·)) fun s u => s.set .convCalSuspect u (s.get .xCalSuspectWas u)
      else s
    let s := s.set .xFgCal c 0 |>.setBit .calFgBusy 0 c false
    let s := if limit then s.each (channels c) fun s n => (s.calRefuse n 0xFF 10).calRefuse (48 + n) 0xFF 10 else s
    s.refreshConv c
  else s

/-- D000.01 written in Trim: the named carriers recalibrate, with no suspect units (R94). Bits 15:12 are ignored. -/
def writeRecal (v : Int) (s : State) : State × Answer :=
  let l := carriers.filter fun c => bitOf v.toNat c
  if l.any fun c => s.flag .xFgCal c then (s, refusedWith 0x0A)
  else
    (s.each l fun s c =>
      let s := (s.set .xFgCal c 1 |>.setBit .calFgBusy 0 c true).set .xFgCalTick c (s.get .xTicks 0)
      (s.each ((channels c) ++ (channels c).map (48 + ·)) fun s u =>
        (s.set .xCalSuspectWas u (s.get .convCalSuspect u)).set .convCalSuspect u 0xFF).refreshConv c,
     accepted)

/-- RECAL_REQUEST (R94). -/
def execRecalRequest (cl : Client) (mask : Fin 65536) (s : State) : Host.Outcome State Fault Refusal :=
  .next (s.serveWrite cl .calFgRequest 0 (.int mask.val) (writeRecal mask.val))

/-! ## Background (R95 to R99) -/

/-- A background step (R96): the resting unit takes the next slot, a commit (R88), and the displaced one is measured
offline. It waits while the loop relocks or is in holdover (R99). -/
def State.bgStep (s : State) (u : Nat) : State :=
  let c := convCarrier u
  let st := s.get .convCalState u
  let held := if u < 48 then s.rxHeld c else s.txLoop c != 2
  if !s.bgOn || (st != 1 && st != 2) || s.flag .xCalBusy u || held || !s.bgDue u then s
  else
    let slot := s.nat .xCalSlot u
    let p := ((s.calMap u).getD slot 0).toNat
    let s := s.setBlob .convCalSlotMap u ((s.calMap u).set slot (BitVec.ofNat 8 (s.nat .convCalResting u)))
    let s := s.calDropLost u |>.set .convCalResting u p |>.set .xCalBusy u 1 |>.set .convCalState u 2
      |>.set .xCalSlot u ((slot + 1) % slotsOf u : Nat)
    let s := (s.markTick .xCalStepAt u).set .xCalStepLen u (s.get (if u < 48 then .calBgAdcInterval else .calBgDacInterval) 0)
    if slot = 0 then
      let s := if s.flag .xCalLapStarted u then
          s.set .convCalLapTime u ((s.get .xTicks 0 - s.get .xCalLapTick u) / 250)
        else s
      (s.set .xCalLapStarted u 1).set .xCalLapTick u (s.get .xTicks 0)
    else s

/-- BG_CAL_STEP_START (R96). -/
def execBgCalStepStart (u : Fin 96) (s : State) : Host.Outcome State Fault Refusal := s.live fun s => s.bgStep u

/-- The offline measurement of unit p ends with record m: accepted, or refused; three refusals in a row make the unit
suspect (R96). -/
def State.bgJudge (s : State) (u p : Nat) (m : CalUnit) : State :=
  match brokenLimit (s.referenceAim (convCarrier u)) m (some (s.recordAt u p)) with
  | none => (s.setRecord u p (packRecord m)).set .xCalFailRun (68 * u + p) 0 |>.set .xCalLost (68 * u + p) 0
  | some l =>
    let s := (s.calRefuse u p l).set .xCalFailRun (68 * u + p) (s.get .xCalFailRun (68 * u + p) + 1)
    if s.get .xCalFailRun (68 * u + p) = 3 then (s.set .convCalSuspect u p).calStop u 3 else s

/-- The unit that serves the slot of the step under way: R of R96. -/
def State.calServing (s : State) (u : Nat) : Nat :=
  ((s.calMap u).getD ((s.nat .xCalSlot u + slotsOf u - 1) % slotsOf u) 0).toNat

/-- The offline measurement ends. The skew of an ADC slice is the measured difference plus the recorded skew of the unit
beside it (R96). -/
def State.bgResult (s : State) (u : Nat) (m : CalUnit) : State :=
  if s.flag .xCalBusy u then
    let m := if u < 48 then { m with skew := m.skew + recordSkew (s.recordAt u (s.calServing u)) } else m
    ((s.set .xCalBusy u 0 |>.bump .convCalSteps u).bgJudge u (s.nat .convCalResting u) m).refreshBgAt u
  else s

/-- BG_CAL_MEASURE_COMPLETE (R96). -/
def execBgCalMeasureComplete (u : Fin 96) (m : CalUnit) (s : State) : Host.Outcome State Fault Refusal :=
  s.live fun s => s.bgResult u m

/-- D000.04 written: a step under way finishes, no other starts (R99). -/
def writeBgEnable (v : Int) (s : State) : State × Answer := ((s.set .calBgEnable 0 v).refreshBg, accepted)

end Sys2Proof.Machine
end

