-- ==== Sys2Proof/Machine/Dsp.lean ====
section
/-! DEFINITION. Adaptive filters of the receive chain on their own numbers: complex taps in Q2.14, gradients, updates
(R141 to R144, R158, R160). -/

namespace Sys2Proof.Machine

/-- Each part saturated at ±(2 − 2⁻¹⁴) (R141). -/
def tapSat (v : Int) : Int := max (-32767) (min 32767 v)

/-- Taps as bytes, saturated: I16 real, then I16 imaginary. -/
def packTaps (l : List Cx) : List Byte := l.flatMap fun t => leBytes 2 (tapSat t.1) ++ leBytes 2 (tapSat t.2)

/-- Tap k of a byte string; 0 past its end. -/
def tapOf (b : List Byte) (k : Nat) : Cx :=
  (leInt ((b.drop (4 * k)).take 2), leInt ((b.drop (4 * k + 2)).take 2))

/-- n taps of a byte string. -/
def tapsOf (b : List Byte) (n : Nat) : List Cx := (List.range n).map (tapOf b)

/-- Filter output at position n: the sum over k of tap k times sample start + n·step − k. -/
def filterAt (taps : List Cx) (samples : List Cx) (at_ : Nat) : Cx :=
  Cx.total ((List.range taps.length).map fun k => Cx.mul (taps.getD k (0, 0)) (samples.getD (at_ - k) (0, 0)))

/-- The gradient of tap k: the sum over symbols of error times the conjugate sample. at_ n is the position of tap 0 for
symbol n. -/
def gradient (err : List Cx) (samples : List Cx) (at_ : Nat → Nat) (k : Nat) : Cx :=
  Cx.total ((List.range err.length).map fun n => Cx.mul (err.getD n (0, 0)) (Cx.conj (samples.getD (at_ n - k) (0, 0))))

/-! ## Polarisation equaliser -/

/-- Fourth over squared second moment of the amplitudes of a dimension, as a fraction, for the constellation and
distribution in force. -/
def momentRatio (modulation k : Nat) : Int × Int :=
  if modulation = 0 then (1, 1)
  else if modulation = 1 then (41, 25)
  else
    let c := compositionFor k
    let m2 : Nat := c.n1 + 9 * c.n3 + 25 * c.n5 + 49 * c.n7
    let m4 : Nat := c.n1 + 81 * c.n3 + 625 * c.n5 + 2401 * c.n7
    ((1024 * m4 : Nat), (m2 * m2 : Nat))

/-- Γ of R142 as a fraction: E|s|⁴ / E|s|² with unit power per dimension is 1 plus that ratio. -/
def cmaGamma (modulation k : Nat) : Int × Int :=
  let r := momentRatio modulation k
  (r.1 + r.2, r.2)

/-- The error of one symbol and the power of two it is scaled by beyond Q2.14 (R142): constant modulus in Seeking
(scale 70, over the denominator of Γ), else against the reference (scale 14). -/
def polError (blind : Bool) (gamma : Int × Int) (y ref : Cx) : Cx :=
  if blind then Cx.scale (Cx.norm y * gamma.2 - gamma.1 * 2 ^ 56) y
  else Cx.sub y (Cx.scale (2 ^ 14) ref)

/-- A block of 16 output symbols as the equaliser sees it (R142). Inputs are at 2 samples per symbol, first entry 15 samples
before symbol 0; references are the known symbol or decision turned by the phase estimate. Values are Q2.14. usable says per
symbol that no sample of its window was blanked, known that it is a frame-word or pilot symbol. -/
structure PolData where
  x : List Cx
  y : List Cx
  refX : List Cx
  refY : List Cx
  usable : List Bool
  known : List Bool
deriving DecidableEq, Repr

/-- Output symbol n of a block in Q2.14 (R141). -/
def polOutput (taps : List Byte) (x y : List Cx) (n : Nat) : Cx2 :=
  let h := tapsOf taps 124
  let row := fun (a : Nat) => (h.drop (31 * a)).take 31
  (Cx.rdiv (Cx.add (filterAt (row 0) x (2 * n + 30)) (filterAt (row 1) y (2 * n + 30))) 16384,
    Cx.rdiv (Cx.add (filterAt (row 2) x (2 * n + 30)) (filterAt (row 3) y (2 * n + 30))) 16384)

/-- The 248 tap changes a block of 16 symbols asks for, in the order hxx, hxy, hyx, hyy, real then imaginary. -/
def polChanges (taps : List Byte) (blind pilotsOnly : Bool) (gamma : Int × Int) (step : Nat) (k : PolData) :
    List Int :=
  let h := tapsOf taps 124
  let row := fun (a : Nat) => (h.drop (31 * a)).take 31
  let used := fun n => k.usable.getD n false && (!pilotsOnly || k.known.getD n false)
  let errs := fun (a : Nat) (ref : List Cx) => (List.range 16).map fun n =>
    if used n then
      polError blind gamma (Cx.add (filterAt (row a) k.x (2 * n + 30)) (filterAt (row (a + 1)) k.y (2 * n + 30)))
        (ref.getD n (0, 0))
    else (0, 0)
  let ex := errs 0 k.refX
  let ey := errs 2 k.refY
  let den := if blind then gamma.2.toNat * 2 ^ (88 + step) else 2 ^ (32 + step)
  [(ex, k.x), (ex, k.y), (ey, k.x), (ey, k.y)].flatMap fun p =>
    (List.range 31).flatMap fun t =>
      let g := gradient p.1 p.2 (fun n => 2 * n + 30) t
      [rdiv (-g.1) den, rdiv (-g.2) den]

/-- Changes added to taps, saturating. -/
def addChanges (taps : List Byte) (d : List Int) : List Byte :=
  (List.range d.length).flatMap fun j =>
    leBytes 2 (tapSat (leInt ((taps.drop (2 * j)).take 2) + d.getD j 0))

/-- The Y output rebuilt from the X output (R144). -/
def rebuildY (taps : List Byte) : List Byte :=
  let h := tapsOf taps 62
  packTaps (h
    ++ (List.range 31).map (fun k => Cx.scale (-1) (Cx.conj (h.getD (31 + (30 - k)) (0, 0))))
    ++ (List.range 31).map (fun k => Cx.conj (h.getD (30 - k) (0, 0))))

/-- Twice the first moment about tap 15 and the energy of the 31 taps of all four filters (R133). -/
def centroid (taps : List Byte) : Int × Int :=
  let e := (List.range 124).map fun j => (((j % 31 : Nat) : Int) - 15, Cx.norm (tapOf taps j))
  ((e.map fun p => 2 * p.1 * p.2).sum, (e.map fun p => p.2).sum)

/-- Every tap moved one position: down when the centroid lies above tap 15 (up = true), else up; the vacated tap is 0
(R133). -/
def shiftTaps (up : Bool) (taps : List Byte) : List Byte :=
  (List.range 4).flatMap fun f =>
    let row := (tapsOf (taps.drop (124 * f)) 31)
    packTaps (if up then row.drop 1 ++ [(0, 0)] else (0, 0) :: row.take 30)

/-! ## Second pass -/

/-- The leakage estimate of one side for output p at symbol n (R158); taps in the order wXX, wXY, wYX, wYY. -/
def leakAt (taps : List Byte) (u : Vector (List Cx) 2) (p n : Nat) : Cx :=
  let h := tapsOf taps 60
  Cx.add (filterAt ((h.drop (30 * p)).take 15) (u.toList.getD 0 []) (n + 14))
    (filterAt ((h.drop (30 * p + 15)).take 15) (u.toList.getD 1 []) (n + 14))

/-- A block of 16 symbols at the second pass (R158, R160): stage-7 output of X and Y, and the neighbour streams of both sides,
X and Y, first entry 7 symbols before symbol 0; Q2.14. ref is d2 × e^(jφ) once z is known. -/
structure NcData where
  y : Vector (List Cx) 2
  ref : Vector (List Cx) 2
  lower : Vector (List Cx) 2
  upper : Vector (List Cx) 2
  usable : List Bool
deriving DecidableEq, Repr

/-- The second-pass output z at symbol n of output p, with both usable sides subtracted (R158), in 2⁻²⁸. -/
def ncOutput (lower upper : Option (List Byte)) (k : NcData) (p n : Nat) : Cx :=
  let y := (k.y.toList.getD p []).getD n (0, 0)
  let leak := fun (t : Option (List Byte)) (u : Vector (List Cx) 2) =>
    match t with
    | some t => leakAt t u p n
    | none => (0, 0)
  Cx.sub (Cx.sub (Cx.scale (2 ^ 14) y) (leak lower k.lower)) (leak upper k.upper)

/-- The error of the second pass at symbol n of output p (R160). -/
def ncError (lower upper : Option (List Byte)) (k : NcData) (p n : Nat) : Cx :=
  Cx.sub (ncOutput lower upper k p n) (Cx.scale (2 ^ 14) ((k.ref.toList.getD p []).getD n (0, 0)))

/-- The tap changes of one side (R160): a symbol that is erased, or whose neighbour stream is 0, contributes nothing. -/
def ncChanges (lower upper : Option (List Byte)) (k : NcData) (u : Vector (List Cx) 2) (step : Nat) : List Int :=
  let live := fun n => k.usable.getD n false
    && ((u.toList.getD 0 []).getD (n + 7) (0, 0) != (0, 0) || (u.toList.getD 1 []).getD (n + 7) (0, 0) != (0, 0))
  (List.range 2).flatMap fun p =>
    let err := (List.range 16).map fun n => if live n then ncError lower upper k p n else (0, 0)
    (List.range 2).flatMap fun q => (List.range 15).flatMap fun t =>
    let g := gradient err (u.toList.getD q []) (fun n => n + 14) t
    [rdiv g.1 (2 ^ (32 + step)), rdiv g.2 (2 ^ (32 + step))]

end Sys2Proof.Machine
end

