-- ==== Sys2Proof/Machine/Super.lean ====
section
/-! DEFINITION. Neighbour cancellation and carrier recovery (R153 to R171). Side 0 is the lower neighbour, 1 the upper;
unit 12 side + c. -/

namespace Sys2Proof.Machine

/-- 3050.09 where cancellation is in force (R164). -/
def State.refreshNc (s : State) (c : Nat) : State :=
  if s.get .carrierNcInForce c = 0 then s else s.set .carrierNcInForce c (s.ncCode c)

/-- Cancellation is parked by the host or the throttle. -/
def State.ncParked (s : State) (c : Nat) : Bool := s.flag .carrierNcPark c || decide (2 ≤ s.get .throttleStage 0)

/-- The lowest of codes 1 to 8 whose condition holds on a side; none where all are clear (R162). -/
def State.sideCode (s : State) (c side : Nat) : Option Int :=
  let n := s.neighbour c side
  if s.get .carrierNcInForce c = 0 ∨ n = 0xFF then some 1
  else if !s.reciprocates c side n then some 2
  else if !s.upLine n then some 3
  else if s.get .carrierFecProfileInForce n = 1 then some 4
  else if s.get .xRxRate n ≠ s.get .xRxRate c
      ∨ 20000 < (s.get .carrierRxTimingOffset n - s.get .carrierRxTimingOffset c).natAbs then some 5
  else if s.get .carrierMonFiltered (48 + n) < s.get .carrierNcQualityFloor c then some 6
  else if s.get .xNcLate (12 * side + c) ≠ 0 then some 7
  else if s.ncParked c then some 8
  else none

/-- 3051.05 of the taps of a side (R169): their energy relative to the signal power, in 0.1 dB. DESIGN CHOICE (log entry 49): the
power that all taps bring to both outputs over that of both polarisations. -/
def leakageOf (taps : List Byte) : Int :=
  let e := ((tapsOf (padTo 240 taps) 60).map Cx.norm).sum.toNat
  if e = 0 then -999 else tenthsDb e (2 * 2 ^ 28)

/-- A side evaluated at a frame start (R162, R163): the guard counts clear evaluations; leaving 0 for codes 3 to 7 in
Locked or Carrying is reported. -/
def State.sideEval (s : State) (c side : Nat) : State :=
  let i := 12 * side + c
  let code := s.sideCode c side
  let s := s.set .xNcLate i 0
    |>.setBlob .carrierNcSideTaps i (s.blob .xNcTaps i)
    |>.set .carrierNcSideLeakage i (leakageOf (s.blob .xNcTaps i))
  let was := s.get .carrierNcSideState i
  match code with
  | none =>
    let g := s.get .xNcGuard i + 1
    let s := s.set .xNcGuard i (min g 64)
    s.set .carrierNcSideState i (if was = 0 ∨ s.get .carrierNcGuard c ≤ g then 0 else 9)
  | some code =>
    let s := (s.set .xNcGuard i 0).set .carrierNcSideState i code
    if was = 0 ∧ 3 ≤ code ∧ code ≤ 7 ∧ s.upLine c then
      (s.bump .carrierNcSideLosses i).raise (evCarrier c 36) [u8 side, u8 code]
    else s

/-- A side subtracts: usable by the evaluation that governs the frame, with the carrier Locked or Carrying and nothing
holding the pass (R160, R162, R168). Parking reaches it through code 8 at the next frame start (R164). -/
def State.sideLive (s : State) (c side : Nat) : Bool :=
  s.upLine c && s.get .carrierNcInForce c != 0 && s.get .carrierNcSideState (12 * side + c) == 0
    && !s.rxStopped c && !s.timingLost c

/-- Live taps of a side that subtracts. -/
def State.sideTaps (s : State) (c side : Nat) : Option (List Byte) :=
  if s.sideLive c side then some (padTo 240 (s.blob .xNcTaps (12 * side + c))) else none

/-- Δ n / B in turns for a side and symbol n, as a fraction (R158): the packing distance, up or down, with the difference of
the two frequency offsets. -/
def State.sideTurns (s : State) (c side n : Nat) : Int × Nat :=
  let b := s.nat .xRxRate c
  let m := s.neighbour c side
  let spacing := s.get .carrierNcSpacingInForce c * b
  (n * ((if side = 0 then -spacing else spacing)
    + 1000 * (s.get .carrierCrFreqOffset m - s.get .carrierCrFreqOffset c)), 1000 * max 1 b)

/-- The decision stream of the neighbour on a side, as exported (R157). -/
def State.streamOf (s : State) (c side : Nat) : List Decision :=
  let m := s.neighbour c side
  if m = 0xFF then [] else (s.rx m).stream

/-- u of polarisation p of a side at symbol k of a block, counted from 7 before its first (R158, R159): 0 where its decision
came outside the window. -/
def State.sideAt (s : State) (c side : Nat) (late : List Bool) (first : Decision) (p k : Nat) : Cx :=
  let b := s.nat .xRxRate c
  let instant := first.instant + symbolPs b (s.get .carrierRxTimingOffset c) ((k : Int) - 7)
  let turns := s.sideTurns c side (first.n + k - 7)
  if late.getD k false then (0, 0)
  else neighbourAt (s.streamOf c side) p b (s.get .carrierRxTimingOffset (s.neighbour c side)) instant turns.1 turns.2

/-- Decisions of a block's 16 symbols that came outside the window of a side (R159); a neighbour below Tentative exports none. DESIGN
CHOICE (log entry 37): a symbol instant counts once, not once per polarisation. -/
def State.lateCount (s : State) (c side : Nat) (late : List Bool) : Nat :=
  if s.get .carrierState (s.neighbour c side) < 2 then 0
  else ((List.range 16).filter fun n => late.getD (n + 7) false).length

/-- The data of a block of 16 symbols at the second pass (R158, R160). d2 is decided on z turned by φ. -/
def State.ncData (s : State) (c : Nat) (k : NcBlock) (block : List Decision) (first : Decision) : NcData :=
  let u := fun (side : Nat) (late : List Bool) => #v[(List.range 30).map (s.sideAt c side late first 0),
    (List.range 30).map (s.sideAt c side late first 1)]
  let d : NcData := ⟨#v[block.map fun e => e.y.1, block.map fun e => e.y.2], #v[[], []], u 0 k.lowerLate, u 1 k.upperLate,
    block.map fun e => !e.erased⟩
  let ref := fun (p : Nat) => block.zipIdx.map fun e =>
    let z := Cx.rdiv (ncOutput (s.sideTaps c 0) (s.sideTaps c 1) d p e.2) 16384
    let phi := ofPol p e.1.phi
    turn phi (decide2 (s.lineSet 1 c) (turn (-phi) z))
  { d with ref := #v[ref 0, ref 1] }

/-- A symbol goes to the demapper; a codeword that it completes reaches a capture (R206, R372 point 3). -/
def State.demapOne (s : State) (c : Nat) (e : Decision) (v : Cx2) : State :=
  let r := s.rx c
  let l := s.lineSet 1 c
  let t := r.demap l e.at_ e.frame (if e.erased then none else some v)
  (s.setRx c t).capturePut c 3 (if r.slots.length < t.slots.length then codewordBytes l.profile t.slots else [])

/-- The output of stage 8, or of the second pass, for a symbol: turned by −φ (R158). -/
def phased (e : Decision) (z : Cx2) : Cx2 := (turn (-e.phi.1) z.1, turn (-e.phi.2) z.2)

/-- A block of up to 16 symbols passes the second pass (R158, R160): the taps of each usable side adapt, late decisions are
counted, and what is left after subtraction goes to the demapper. A step exponent written during the block holds from the
next one (R169). -/
def State.ncBlock (s : State) (c : Nat) (k : NcBlock) : State :=
  let block := (s.rx c).delay.take 16
  match block with
  | [] => s.set .xNcStep c (s.get .carrierNcStep c)
  | first :: _ =>
    let lo := s.sideTaps c 0
    let up := s.sideTaps c 1
    let step := s.nat .xNcStep c
    let d := s.ncData c k block first
    let z := fun (n : Nat) => (Cx.rdiv (ncOutput lo up d 0 n) 16384, Cx.rdiv (ncOutput lo up d 1 n) 16384)
    let s := s.each [(0, k.lowerLate), (1, k.upperLate)] fun s e =>
      if s.neighbour c e.1 = 0xFF then s
      else
        let n := s.lateCount c e.1 e.2
        (s.bump .carrierNcSideOutOfWindow (12 * e.1 + c) n).set .xNcLate (12 * e.1 + c)
          (s.get .xNcLate (12 * e.1 + c) + n)
    let s := match lo with
      | some t => s.setBlob .xNcTaps c (addChanges t (ncChanges lo up d d.lower step))
      | none => s
    let s := match up with
      | some t => s.setBlob .xNcTaps (12 + c) (addChanges t (ncChanges lo up d d.upper step))
      | none => s
    let s := s.setRx c { s.rx c with delay := (s.rx c).delay.drop 16 }
    (s.each block.zipIdx fun s e => s.demapOne c e.1 (phased e.1 (z e.2))).set .xNcStep c (s.get .carrierNcStep c)

/-- NC_ADAPT_BLOCK (R160). -/
def execNcAdaptBlock (c : Fin 12) (k : NcBlock) (s : State) : Host.Outcome State Fault Refusal :=
  s.live fun s => s.ncBlock c k

/-- Unresolved slip (R167). -/
def State.slipUnresolved (s : State) (c : Nat) : State :=
  (s.bump .carrierCrSlipsUnresolved c).raise (evCarrier c 37) []

/-- More than half of the symbols of a group are erased, or none came (R167). DESIGN CHOICE (log entry 36): the half is that of
R183 for a frame word. -/
def groupErased (group : List RxSymbol) : Bool :=
  decide (group.length ≤ 2 * (group.filter fun e => e.erased).length)

/-- Phases of one polarisation over an interval and the group that closes it. -/
structure PhaseTrack where
  /-- of every symbol -/
  phases : List Int
  /-- at the centre of the group -/
  group : Int
  slip : Slip
deriving DecidableEq, Repr

/-- The phase of polarisation p over the payload symbols of an interval and its group (R166, R167): linear between groups in
Tentative, the blind track with its slips resolved from Locked up. A stopped receive side holds: its phase goes on at the frequency
held (R146, R168; DESIGN CHOICE, log entry 49). A phase measured on a group is that of its centre. -/
def State.phaseTrack (s : State) (c p : Nat) (l : List RxSymbol) (n : Nat) (erased : Bool) : PhaseTrack :=
  let r := s.rx c
  let k := s.lineSet 1 c
  let b := s.nat .xRxRate c
  let start := ofPol p r.track
  let group := l.drop n
  let m := group.length
  let along := fun (phi : Int) (from_ : Int) => (List.range m).map fun j => phi + freqHalf r.freq (2 * (j : Int) + from_) b
  let measured := groupPhase k (s.nat .xPilotBoost c) p group
  let onGroup := along measured (1 - (m : Int))
  if s.rxStopped c then
    ⟨(List.range l.length).map fun j => start + freqPhase r.freq ((j : Int) + 1) b,
      start + freqHalf r.freq (2 * (n : Int) + m + 1) b, .none⟩
  else if !s.upLine c then
    let stop := if erased then start + freqPhase r.freq ((n : Int) + 1) b else onGroup.headD measured
    ⟨linearTrack r.freq b start stop n ++ along stop 0, if erased then stop + freqHalf r.freq ((m : Int) - 1) b else measured, .none⟩
  else
    let before := ((r.stream.take 64).reverse).map fun d => (⟨d.at_, d.frame, d.y, d.erased⟩ : RxSymbol)
    let track := blindTrack k r.freq b (s.nat .xCrWindow c) p before l start n
    let last := track.getLast?.getD start
    let centre := last + freqHalf r.freq ((m : Int) + 1) b
    if erased then ⟨track ++ along last 2, centre, .none⟩
    else
      match slipOf (wrapPhase (measured - centre)) (s.flag .xGroupErased c) with
      | .none => ⟨track ++ along last 2, centre, .none⟩
      | .resolved k =>
        ⟨correctTrack (freqPhase r.freq 1 b) start k track ++ along (last + 2048 * k) 2, centre + 2048 * k, .resolved k⟩
      | .unresolved => ⟨track ++ onGroup, measured, .unresolved⟩

/-- The frequency loop takes the phases at the centre of a group, h half symbols behind the last symbol of the group before (R165):
second order, natural bandwidth 3054.03, damping 0.707. DESIGN CHOICE (log entry 36): the phase advance beyond the estimate, as a
frequency, steers the estimate and its ramp once a group. -/
def RxLine.loopTake (r : RxLine) (bandwidth b h : Nat) (phi : Int × Int) : RxLine :=
  match r.loop with
  | none => { r with loop := some phi }
  | some was =>
    let h := r.since + h
    let along := freqHalf r.freq h b
    let e := rdiv (wrapPhase (phi.1 - was.1 - along) + wrapPhase (phi.2 - was.2 - along)) 2
    let d := rdiv (e * 2000000 * b) (8192 * max 1 h)
    let w := rdiv (pi60 * bandwidth * h) (max 1 b)
    let f := r.freq + rdiv (r.ramp * h) (2 ^ 21) + rdiv (1414 * w * d) (1000 * 2 ^ 60)
    { r with loop := some phi, freq := max (-6000000000000) (min 6000000000000 f),
             ramp := r.ramp + rdiv (2 * w * w * d) (max 1 h * 2 ^ 100) }

/-- The symbols of an interval released by stage 8 (R157, R166): phase and first-pass decision of each, and its valid bit, which up
and no erasure give. Instants follow the far-end clock, which leads by off ppb. -/
def decisionsOf (l : LineSet) (boost : Nat) (up : Bool) (r : RxLine) (b instant : Nat) (off : Int) (syms : List RxSymbol)
    (x y : PhaseTrack) : List Decision :=
  syms.zipIdx.map fun e =>
    let phi := (x.phases.getD e.2 0, y.phases.getD e.2 0)
    let d := fun (p : Nat) => if knownAt l e.1.at_ then knownSymbol l boost p e.1.at_
      else decide2 l (turn (-(ofPol p phi)) (ofPol p e.1.y))
    ⟨r.released + e.2, e.1.at_, e.1.frame, instant + (symbolPs b off e.2).toNat, e.1.y, (d 0, d 1), phi, e.1.erased,
      up && !e.1.erased⟩

/-- A decision stream in blocks of 16 symbols (R157). -/
def streamBlocks : Nat → List Decision → List StreamBlock
  | 0, _ => []
  | _, [] => []
  | n + 1, d :: t => ⟨d.instant, ((d :: t).take 16).map fun e => ⟨e.d, e.phi, e.valid⟩⟩ :: streamBlocks n ((d :: t).drop 16)

/-- Another carrier names carrier c as a neighbour in force (R157). -/
def State.exported (s : State) (c : Nat) : Bool :=
  carriers.any fun d => d != c && (s.neighbour d 0 == c || s.neighbour d 1 == c)

/-- What a polarisation's slip does to the counters (R167). -/
def State.slipCount (s : State) (c : Nat) (k : Slip) : State :=
  match k with
  | .none => s
  | .resolved _ => s.bump .carrierCrSlipsResolved c
  | .unresolved => s.slipUnresolved c

/-- What the known symbols of a group add to the pilot-based SNR of the frame (R180): their power, and that of what the equaliser
output differs from them by once they are turned by the phase measured on the group. Erased symbols add nothing (R183). -/
def State.pilotPowers (s : State) (c : Nat) (group : List RxSymbol) : State :=
  let r := s.rx c
  let l := s.lineSet 1 c
  let boost := s.nat .xPilotBoost c
  let known := group.filter fun e => knownAt l e.at_ && !e.erased
  let sum := fun (f : Nat → RxSymbol → Int) => (([0, 1].flatMap fun p => known.map (f p)).sum).toNat
  s.setRx c { r with
    pilotPower := r.pilotPower + sum fun p e => Cx.norm (knownSymbol l boost p e.at_)
    pilotError := r.pilotError + sum fun p e =>
      Cx.norm (Cx.sub (ofPol p e.y) (turn (groupPhase l boost p group) (knownSymbol l boost p e.at_))) }

/-- A known-symbol group closes an interval (R165 to R167): phases are found, slips resolved, symbols released with their
decisions, the decision stream exported, and the symbols go on to the second pass, or to the demapper where none is in
force. In Seeking stage 8 is stopped; a stopped receive side holds frequency and phase and goes on (R146, R168). In Tentative the
group counts in the pilot-based SNR (R180). -/
def State.pilotCheck (s : State) (c instant : Nat) : State :=
  if s.get .carrierState c < 2 then s.setRx c { s.rx c with held := [] }
  else
    let r := s.rx c
    let l := r.held
    let k := s.lineSet 1 c
    let n := (l.takeWhile fun e => !knownAt k e.at_).length
    let m := l.length - n
    let erased := groupErased (l.drop n)
    let x := s.phaseTrack c 0 l n erased
    let y := s.phaseTrack c 1 l n erased
    let b := s.nat .xRxRate c
    let dec := decisionsOf k (s.nat .xPilotBoost c) (s.upLine c) r b instant (s.get .carrierRxTimingOffset c) l x y
    let r := if erased || s.rxStopped c || s.flag .xTimLost c then { r with since := r.since + 2 * l.length }
      else { r.loopTake (s.nat .carrierCrBandwidth c) b (2 * n + m) (x.group, y.group) with since := m }
    let r := { r with held := [], released := r.released + l.length, stream := (dec.reverse ++ r.stream).take 4096,
                      track := (x.phases.getLast?.getD r.track.1, y.phases.getLast?.getD r.track.2) }
    let s := s.setRx c r
    let s := if s.get .carrierState c = 2 && !s.rxStopped c then s.pilotPowers c (l.drop n) else s
    let s := if s.exported c then s.emit (.decisions c (streamBlocks dec.length dec)) else s
    let s := if s.upLine c then ((s.slipCount c x.slip).slipCount c y.slip).setFlag .xGroupErased c erased else s
    if s.get .carrierNcInForce c ≠ 0 then s.setRx c { s.rx c with delay := (s.rx c).delay ++ dec }
    else s.each dec fun s e => s.demapOne c e (phased e e.y)

/-- PILOT_GROUP_CHECK (R167). ns and ps give the sampling instant of the interval's first symbol on the common counter
(R157). -/
def execPilotGroupCheck (c : Fin 12) (ns : Nat) (ps : Fin 1000) (s : State) : Host.Outcome State Fault Refusal :=
  s.live fun s => s.pilotCheck c (1000 * ns + ps.val)

/-- Frequency recovery by a frame start (R165, R168): the estimate saturates at 6 GHz, which is reported once while the
carrier is Locked or Carrying. -/
def State.frequencyEval (s : State) (c : Nat) (f : Int) : State :=
  if s.rxStopped c then s.set .carrierCrState c 3
  else if s.flag .xTimLost c then s.set .carrierCrState c 3
  else
    let was := s.get .carrierCrState c
    let s := s.set .carrierCrFreqOffset c (max (-6000000) (min 6000000 f))
    if 6000000 ≤ f.natAbs then
      let s := s.set .carrierCrState c 4
      if was ≠ 4 ∧ s.upLine c then s.raise (evCarrier c 37) [] else s
    else s.set .carrierCrState c (if s.upLine c then 2 else 1)

/-- 3050.01 to .03 written (R155): a neighbour is another carrier, not both sides; not in Sprint. -/
def writeNc (r : Reg) (c : Nat) (v : Int) (s : State) : State × Answer :=
  let clash := v ≠ 0xFF ∧ (v = c ∨
    (r = .carrierNcLower ∧ s.get .carrierNcUpper c = v) ∨ (r = .carrierNcUpper ∧ s.get .carrierNcLower c = v))
  if (r = .carrierNcLower ∨ r = .carrierNcUpper) ∧ clash then (s, refusedWith 0x08)
  else if r = .carrierNcEnable ∧ v = 1 ∧ s.get .carrierFecProfile c = 1 then (s, refusedWith 0x08)
  else (s.set r c v, accepted)

/-- 3050.08 written (R164). -/
def writeNcPark (c : Nat) (v : Int) (s : State) : State × Answer :=
  ((s.set .carrierNcPark c v).refreshNc c, accepted)

end Sys2Proof.Machine
end

