-- ==== Sys2Proof/Machine/Catch.lean ====
section
/-! DEFINITION. The catch: survey, matches, Tentative, confirmation and lock (R172 to R188). -/

namespace Sys2Proof.Machine

/-- The gate of candidate i is open (R175). -/
def State.gateOpen (s : State) (c i : Nat) : Bool := s.bit .carrierCatchGates c i

/-- The engine runs: Seeking or Tentative, receiving strokes (R172, R177, R183). -/
def State.engineRuns (s : State) (c : Nat) : Bool :=
  (s.get .carrierState c == 1 || s.get .carrierState c == 2) && !s.rxStopped c

/-- Channel RMS at the ball in 0.1 dB relative to 1 mV, rounded down, for an RMS in 1/256 LSB at gain code g (R185): one LSB
is 3.906 mV / 10 ^ (g / 40). The largest L with 10 ^ (L + 5 g) (256,000) ^ 200 ≤ (3,906 rms) ^ 200, found bit by bit. -/
def ballLevel (rms g : Nat) : Int :=
  let x := (3906 * rms) ^ 200 * 10 ^ 2048
  let y := 256000 ^ 200 * 10 ^ (5 * g)
  let a := (List.range 12).foldl (fun (a : Nat) k => if 10 ^ (a + 2 ^ (11 - k)) * y ≤ x then a + 2 ^ (11 - k) else a) 0
  (a : Int) - 2048

/-- The received level of four channels (R185). How they are averaged is not stated, so the figure is free between the
lowest and the highest channel; an RMS of 0 has no level, and the figure is free (log entry 35). -/
def receivedLevel (l : List (Nat × Nat)) : Int :=
  let v := l.map fun e => ballLevel e.1 e.2
  let lo := v.foldl min (v.headD 0)
  let hi := v.foldl max (v.headD 0)
  if l.any fun e => e.1 == 0 then Config.receivedLevel l else max lo (min (hi + 1) (Config.receivedLevel l))

/-- A received-level figure is computed (R185). -/
def State.levelTake (s : State) (c : Nat) (rms : List Nat) : State :=
  s.set .carrierCatchLevel c (receivedLevel (rms.zip ((channels c).map fun a => s.nat .adcAgcGain a)))
    |>.set .carrierCatchLevelValid c 1 |>.bump .carrierCatchLevelUpdates c

/-- Setting 3062.02 + k in force (R186). -/
def State.catchSet (s : State) (c k : Nat) : Int := s.get .xCatchSet (8 * c + k)

/-! ## Survey (R175) -/

/-- The gate of candidate i is open (R175): strength and offset meet their limits over a full window. -/
def State.gateOpens (s : State) (c : Nat) (l : Vector SurveyReading 8) (i : Nat) : Bool :=
  match s.candidateRate c i, l.toList[i]? with
  | some r, some m =>
    decide (r ≤ s.nat .xRxRate c) && decide (s.get .xSurveyTick (8 * c + i) + 250 * s.get .xSurveyWin (8 * c + i) ≤ s.get .xTicks 0)
      && decide (s.catchSet c 0 ≤ m.strength) && decide ((m.offset.natAbs : Int) ≤ 1000 * s.catchSet c 1)
  | _, _ => false

/-- A survey window ends (R185): in Seeking, with no gate opened and no match in it, mode 1 takes its level from rms. The
next window begins. DESIGN CHOICE (log entry 35): windows for this figure follow one another from a restart, and one ends
at the first refresh at which its length has passed. -/
def State.surveyWindow (s : State) (c : Nat) (rms : Vector (Fin 65536) 4) : State :=
  if s.get .xTicks 0 < s.get .xSurveyEnd c + 250 * s.get .xSurveyLen c then s
  else
    let quiet := s.get .carrierState c == 1 && !s.flag .xSurveySeen c && s.get .carrierCatchQualityMode c == 1
    let s := if quiet then s.levelTake c ((channels c).map fun a => (chan rms a 0).val) else s
    ((s.set .xSurveyEnd c (s.get .xTicks 0)).set .xSurveyLen c (s.get .carrierCatchWindow c)).set .xSurveySeen c 0

/-- Survey figures of every candidate refresh (R175), and settings written before take effect (R186). rms is of the present
window. -/
def State.survey (s : State) (c : Nat) (l : Vector SurveyReading 8) (rms : Vector (Fin 65536) 4) : State :=
  if !s.engineRuns c then s
  else
    let gates := (List.range 8).foldl (fun a i => if s.gateOpens c l i then a + 2 ^ i else a) 0
    let s := s.set .carrierCatchGates c (gates : Nat)
    let s := if gates = 0 then s else s.set .xSurveySeen c 1
    let s := if s.get .carrierState c = 1 then s.seekState c else s
    (s.surveyWindow c rms).catchSettings c

/-- SURVEY_REFRESH (R175). -/
def execSurveyRefresh (c : Fin 12) (l : Vector SurveyReading 8) (rmsX rmsY : Vector (Fin 65536) 2) (s : State) :
    Host.Outcome State Fault Refusal :=
  s.live fun s => s.survey c l (rmsX ++ rmsY)

/-! ## Entering Tentative (R177, R179) -/

/-- The receive loop of a tentative catch retunes to its own rate; the counts restart once it has relocked (R62, R179). -/
def State.catchRetune (s : State) (c rate : Nat) : State :=
  if rate = s.nat .xRxRate c then s else (s.retune c rate).set .carrierCatchState c 4

/-- The pending match becomes the tentative catch, with the frequency offset as refined (R177). -/
def State.tentative (s : State) (c : Nat) (frequency : Int) : State :=
  let kind := s.get .xMatchKind c
  let rate := s.nat .xMatchRate c
  let s := s.setCarrierState c csTentative |>.set .xMatchPending c 0
  let s := s
    |>.set .catchCaughtRate c (rate / 250000 : Nat) |>.set .xCaughtRate c (rate : Nat)
    |>.set .carrierCatchMetric c (s.get .xMatchMetric c)
    |>.set .carrierCatchCandidate c (if s.flag .xCatchBlind c then s.get .xMatchCand c else 0xFF)
    |>.set .carrierCatchMatchKind c kind |>.set .carrierCatchFreqHandover c frequency
    |>.bump .carrierCatchEntries c |>.set .xFrameStart c (s.get .xMatchStart c)
    |>.set .carrierCatchConfirmations c (if kind = 0 then 1 else 0) |>.set .carrierCatchFrames c 0
    |>.set .xConfirmRef c (s.get .xMatchMetric c) |>.set .xSearch c 0 |>.set .carrierCatchState c 3
    |>.set .carrierCrState c 1 |>.set .carrierCrFreqOffset c frequency |>.set .carrierRxTimingState c 1
    |>.set .xTrackWindow c 0 |>.set .xTimGood c 0 |>.set .xTimBad c 0 |>.set .xSnrAt c 0
    |>.each (List.range 8) (fun s j => s.set .xSnrOk (8 * c + j) 0)
    |>.each (List.range 7) (fun s q => s.set .xMonSeen (12 * q + c) 0)
  let s := if s.get .carrierWiringMode c = 1 then s.set .xWiringDue c (s.get .xMatchMap c + 17) else s
  let s := s.setRx c { s.rx c with freq := 1000000 * frequency, ramp := 0, loop := none, since := 0, pilotPower := 0, pilotError := 0 }
  ((s.rxFigures c rate).catchRetune c rate).refreshRx c

/-- TENTATIVE_ENTRY (R177): at the next known-symbol group after a match in Seeking. -/
def execTentativeEntry (c : Fin 12) (frequency : Int) (s : State) : Host.Outcome State Fault Refusal :=
  s.live fun s =>
    if s.get .carrierState c.val = 1 ∧ s.flag .xMatchPending c.val ∧ !s.rxStopped c.val then
      s.tentative c.val frequency
    else s

/-- Metric of a match: the lower of the two sequences (R176). -/
def matchMetric (m : MatchReading) : Int := min m.metricX m.metricY

/-- The frame start a match fixes (R176): its position for the frame word, 4,096g + 4,032 symbols before it for group g. -/
def matchStart (m : MatchReading) : Nat :=
  (m.position.val + 65536 - (if m.kind.val = 0 then 0 else 4096 * (m.kind.val - 1) + 4032)) % 65536

/-- A match kept as the pending one. -/
def State.keepMatch (s : State) (c rate : Nat) (m : MatchReading) : State :=
  s |>.set .xMatchPending c 1 |>.set .xMatchRate c rate |>.set .xMatchCand c m.candidate.val
    |>.set .xMatchMetric c (matchMetric m) |>.set .xMatchKind c m.kind.val |>.set .xMatchStart c (matchStart m)
    |>.set .xMatchFreq c m.frequency |>.set .xMatchMap c m.map.val

/-- A match counts when its candidate is in force, served, its gate open and its metric at the threshold (R176). -/
def State.matchCounts (s : State) (c : Nat) (m : MatchReading) : Option Nat :=
  match s.candidateRate c m.candidate with
  | some r =>
    if s.gateOpen c m.candidate && decide (r ≤ s.nat .xRxRate c) && decide (s.catchSet c 2 ≤ matchMetric m) then some r
    else none
  | none => none

/-- Match m is preferred to n: the higher metric, then the lower candidate index (R176). -/
def matchBetter (m n : MatchReading) : Bool :=
  decide (matchMetric n < matchMetric m)
    || (decide (matchMetric n = matchMetric m) && decide (m.candidate.val < n.candidate.val))

/-- A match at the tentative candidate and frame start, which is ignored (R182). -/
def State.matchSame (s : State) (c rate : Nat) (m : MatchReading) : Bool :=
  s.get .carrierState c == 2 && decide (rate = s.nat .xCaughtRate c)
    && decide ((matchStart m : Int) = s.get .xFrameStart c)

/-- The match taken of those found within one known-symbol interval, with its rate (R176). -/
def State.bestMatch (s : State) (c : Nat) (l : List MatchReading) : Option (Nat × MatchReading) :=
  l.foldl (fun a m =>
    match s.matchCounts c m with
    | none => a
    | some rate =>
      if s.matchSame c rate m then a
      else match a with
        | none => some (rate, m)
        | some b => if matchBetter m b.2 then some (rate, m) else some b) none

/-- The pre-emption reference (R182): the metric of the latest confirmed frame word, or the entry metric while n = 0. -/
def State.preemptReference (s : State) (c : Nat) : Int :=
  if s.get .carrierCatchConfirmations c = 0 then s.get .carrierCatchMetric c else s.get .xConfirmRef c

/-- The matches of one known-symbol interval (R176): in Seeking the best becomes the pending match; in Tentative it
pre-empts when it exceeds the reference by the margin, through an entry to Seeking (R182). -/
def State.matchFound (s : State) (c : Nat) (l : List MatchReading) : State :=
  if !s.engineRuns c then s
  else
    match s.bestMatch c l with
    | none => s
    | some e =>
      let s := s.set .xSurveySeen c 1
      if s.get .carrierState c = 1 then
        if s.flag .xMatchPending c && decide (matchMetric e.2 ≤ s.get .xMatchMetric c) then s else s.keepMatch c e.1 e.2
      else if s.flag .xSearch c || decide (matchMetric e.2 < s.preemptReference c + s.catchSet c 5) then s
      else (((s.bump .carrierCatchPreemptions c).seekEntry c 0).keepMatch c e.1 e.2).tentative c e.2.frequency

/-- CATCH_MATCH (R176): what the correlator found within one known-symbol interval. -/
def execCatchMatch (c : Fin 12) (l : List MatchReading) (s : State) : Host.Outcome State Fault Refusal :=
  s.live fun s => s.matchFound c l

/-- The transmit loop of a carrier completes its relock at the rate it took at the exit from Idle (R61, R99, R100; log
entry 48). -/
def State.txRelocked (s : State) (c : Nat) : State :=
  if s.txLoop c = 1 ∧ !s.idle c then (s.setLoops c 2 (s.rxLoop c)).bandChosen (12 + c) else s

/-- The loops of a carrier complete a retune (R61, R62): the dispersion bank for the new rate is put in force by swap
(R139), the survey windows start empty, and a tentative catch looks for its frame word, its counts restarted (R179). -/
def State.loopRelocked (s : State) (c : Nat) : State :=
  let s := s.txRelocked c
  if !s.flag .xRelock c || s.rxLoop c == 3 then s
  else
    let s := (s.set .xRelock c 0).setLoops c (s.txLoop c) 2 |>.bandChosen c
    let s := s.bankRefit (48 + c) (s.nat .xRxRate c)
    let s := (s.surveyAll c).set .xTimGood c 0 |>.set .xTimBad c 0 |>.setRx c { s.rx c with clock := none, pilotPower := 0, pilotError := 0 }
    let s := if s.idle c then s else s.set .carrierRxTimingState c 1
    let s := if s.get .carrierState c = 2 then
        s.set .carrierCatchState c 3 |>.set .carrierCatchConfirmations c 0 |>.set .carrierCatchFrames c 0
          |>.set .xSearch c 1 |>.set .carrierCrState c 1
      else if s.get .carrierState c = 1 then s.seekState c
      else s
    (s.refreshConv c).refreshRx c

/-- RX_LOOP_RELOCK (R62). -/
def execRxLoopRelock (c : Fin 12) (s : State) : Host.Outcome State Fault Refusal := s.live fun s => s.loopRelocked c

/-! ## Confirmation and lock (R179 to R181) -/

/-- The pilot SNR figures that count among the last 8 frames. -/
def State.snrList (s : State) (c : Nat) : List Int :=
  ((List.range 8).filter fun j => s.flag .xSnrOk (8 * c + j)).map fun j => s.get .xSnr (8 * c + j)

/-- Locked (R179): level and SNR are latched (R185), source 38 raised, defects and bonding start. rms is of the AGC window
that holds the frame word. 3061.0B is in whole µs, rounded up (DEDUCED, log entry 35: 2,123.55 µs reads 2,124). -/
def State.enterLocked (s : State) (c : Nat) (rms : Vector (Fin 65536) 4) : State :=
  let l := s.snrList c
  let s := s.setCarrierState c csLocked
  let s := s.set .carrierCatchLockSnr c (l.sum / max 1 (l.length : Int))
  let s := if s.get .carrierCatchQualityMode c = 0 then s.levelTake c ((channels c).map fun a => (chan rms a 0).val)
    else s
  let s := s |>.set .carrierCatchState c 0 |>.set .carrierCatchGates c 0
    |>.set .carrierCatchTime c ((s.get .xTicks 0 - s.get .xSeekTick c + 249) / 250)
    |>.set .xAbandonRun c 0 |>.set .xFailRaised c 0 |>.set .carrierCrState c 2
    |>.set .xTpgKnown c 0 |>.set .carrierTtiValid c 0 |>.set .xTtiRun c 0 |>.set .xGroupErased c 0 |>.set .xMfArrival c 0
  let s := s.defectsLocked c
  let s := if s.get .carrierBondGroup c = 0xFF then s else (s.set .xBondRun c 0).setMember c (if s.rateApart c then 5 else 2)
  let s := s.raise (evCarrier c 38)
    [u16 (s.get .catchCaughtRate c), u8 (s.get .carrierCatchCandidate c), u16 (s.get .carrierCatchLockSnr c),
     u16 (s.get .carrierCatchLevel c)]
  s.refreshRx c

/-- 32 frames without Locked (R181, R187). -/
def State.abandonCatch (s : State) (c : Nat) : State :=
  let s := (s.bump .carrierCatchAbandons c).set .xAbandonRun c (s.get .xAbandonRun c + 1)
  let s := if s.get .carrierCatchFailLimit c ≤ s.get .xAbandonRun c ∧ !s.flag .xFailRaised c then
      (s.set .xFailRaised c 1).raise (evCarrier c 39) []
    else s
  s.toSeeking c 0

/-- The symbols of the last frame word that the line still holds. -/
def RxLine.lastWord (r : RxLine) : List Bool :=
  let held := (r.held.filter fun e => decide (e.at_ < 256)).map fun e => e.erased
  let past := ((r.stream.dropWhile fun e => decide (256 ≤ e.at_)).takeWhile fun e => decide (e.at_ < 256)).map fun e => e.erased
  if held.isEmpty then past else held

/-- A frame word with more than 128 of its symbols erased on either polarisation (R183). An erased symbol is erased on both. -/
def State.wordErased (s : State) (c : Nat) (m : FrameReading) : Bool :=
  let l := (s.rx c).lastWord
  if l.isEmpty then m.erased.toList.any fun n => decide (128 < n.val) else decide (128 < (l.filter id).length)

/-- The pilot-based SNR of the frame that ends, in 0.1 dB (R180). -/
def State.pilotSnr (s : State) (c : Nat) (m : FrameReading) : Int :=
  let r := s.rx c
  if r.pilotPower = 0 ∨ r.pilotError = 0 then m.pilotSnr else tenthsDb r.pilotPower r.pilotError

/-- The pilot SNR of a frame, or none where its word was erased, takes its place among the last 8 (R179, R183). -/
def State.snrTake (s : State) (c : Nat) (snr : Option Int) : State :=
  let j := 8 * c + s.nat .xSnrAt c % 8
  let s := match snr with
    | some v => (s.set .carrierCatchPilotSnr c v).set .xSnr j v |>.set .xSnrOk j 1
    | none => s.set .xSnrOk j 0
  s.set .xSnrAt c ((s.nat .xSnrAt c + 1) % 8 : Nat)

/-- An expected frame start in Tentative (R179, R183). -/
def State.confirmEval (s : State) (c : Nat) (m : FrameReading) : State :=
  let erased := s.wordErased c m
  let snr := s.pilotSnr c m
  let s := s.setRx c { s.rx c with pilotPower := 0, pilotError := 0 }
  let s :=
    if s.flag .xSearch c then
      if !erased ∧ s.catchSet c 2 ≤ m.metric then
        (s |>.set .xSearch c 0 |>.set .carrierCatchConfirmations c 1 |>.set .xConfirmRef c m.metric
          |>.set .xFrameStart c m.start.val).snrTake c (some snr)
      else s.set .carrierCatchFrames c (s.get .carrierCatchFrames c + 1)
    else
      let s := (s.set .carrierCatchFrames c (s.get .carrierCatchFrames c + 1)).snrTake c
        (if erased then none else some snr)
      if erased then s
      else if s.catchSet c 3 ≤ m.metric then
        (s.set .carrierCatchConfirmations c (min 255 (s.get .carrierCatchConfirmations c + 1))).set .xConfirmRef c m.metric
      else s.set .carrierCatchConfirmations c 0
  let l := s.snrList c
  if 8 ≤ s.get .carrierCatchConfirmations c ∧ l ≠ [] ∧ s.catchSet c 4 * l.length ≤ l.sum then s.enterLocked c m.rms
  else if 32 ≤ s.get .carrierCatchFrames c then s.abandonCatch c
  else s

/-! ## Settings (R173, R186) -/

/-- The candidate rates that would be in use, in 0.25 GBd, are legal (R173). -/
def legalRates (l : List Nat) : Bool := l.all (fun r => decide (240 ≤ r ∧ r ≤ 960)) && decide l.Nodup

/-- The stored target lies within the stored reach (R135). -/
def State.reachOk (s : State) (c : Nat) : Bool := decide ((s.get .carrierCdTarget c).natAbs ≤ s.storedReach c)

/-- Every stored candidate in use, or the stored rate, carries the stored payload (R190, R192). -/
def State.listCarries (s : State) (c : Nat) : Bool :=
  (s.storedList c).all fun r =>
    carries (s.nat .carrierFecProfile c) (s.nat .carrierFecModulation c) (s.nat .carrierFecEntropy c)
      (s.nat .carrierFecPayload c) (kBd r)

/-- 3060.01 to .09 written: refused where an entry in use would be illegal (R173), beyond reach (R135) or unable to
carry the payload (R190). -/
def writeCandidate (r : Reg) (i c : Nat) (v : Int) (s : State) : State × Answer :=
  let t := s.set r i v
  if !legalRates (t.storedList c) || !t.reachOk c || !t.listCarries c then (s, refusedWith 0x08)
  else (t.refreshReach c, accepted)

/-- 3062.05 written: not above 3062.04 (R186). -/
def writeConfirm (c : Nat) (v : Int) (s : State) : State × Answer :=
  if s.get .carrierCatchDetect c < v then (s, refusedWith 0x08) else (s.set .carrierCatchConfirm c v, accepted)

end Sys2Proof.Machine
end

