-- ==== Sys2Proof/Machine/Receive.lean ====
section
/-! DEFINITION. Receive frame starts: timing, monitors, tracking, equaliser upkeep, sides, catch confirmation and the
defects of every frame (R131 to R152, R161 to R165, R179, R229). -/

namespace Sys2Proof.Machine

/-! ## Polarisation equaliser (R142 to R144, R133) -/

/-- The instant of the first symbol of a block in 2⁻²⁰ sample: the timing loop's, or where it begins (R132). -/
def State.blockStart (s : State) (c : Nat) (k : PolBlock) : Int :=
  (s.rx c).clock.getD ((k.start.1 : Int) * 2 ^ 20 + k.start.2.val * 1024)

/-- The data of a block of 16 symbols (R132, R141, R142): its input window interpolated from stage 5 at the instants of the timing
loop, its references, and which of its symbols are usable and known. A half-symbol sample is blanked when its nearest sample was. -/
def State.polData (s : State) (c : Nat) (k : PolBlock) : PolData × List Bool :=
  let r := s.rx c
  let l := s.lineSet 1 c
  let instants := (List.range 61).map fun m => s.blockStart c k + halfSymbols r.clockFreq ((m : Int) - 15)
  let v := instants.map fun t => onBoth toUnit (r.interpolate (t / 2 ^ 20).toNat (t % 2 ^ 20 / 1024).toNat)
  let bad := instants.map fun t => r.blankAt ((t + 2 ^ 19) / 2 ^ 20).toNat
  let x := v.map Prod.fst
  let y := v.map Prod.snd
  let place := fun n => (k.position.val + n) % 65536
  let known := fun n => knownAt l (place n)
  let taps := s.blob .xPolTaps c
  let ref := fun (p : Nat) => (List.range 16).map fun n =>
    let phi := ofPol p (k.phi.getD n (0, 0))
    turn phi (if known n then knownSymbol l (s.nat .xPilotBoost c) p (place n)
      else decide2 l (turn (-phi) (ofPol p (polOutput taps x y n))))
  (⟨x, y, ref 0, ref 1, (List.range 16).map fun n => !((bad.drop (2 * n)).take 31).any id, (List.range 16).map known⟩, bad)

/-- The 16 symbols of a block as stage 7 puts them out; a symbol is erased when the sample nearest its centre was blanked
(R127). -/
def State.polSymbols (s : State) (c : Nat) (k : PolBlock) (d : PolData) (bad : List Bool) : List RxSymbol :=
  (List.range 16).map fun n =>
    let at_ := (k.position.val + n) % 65536
    let frame := k.frame.map fun f => (f.val + (k.position.val + n) / 65536) % 256
    ⟨at_, frame, polOutput (s.blob .xPolTaps c) d.x d.y n, bad.getD (2 * n + 15) true⟩

/-- Symbols as a capture takes them behind stage 7: in 1/32 of unit amplitude (R372 point 2). -/
def stageSevenBytes (l : List RxSymbol) : List Byte :=
  l.flatMap fun e => [e.y.1.1, e.y.1.2, e.y.2.1, e.y.2.2].map fun v => i8 (rdiv v 512)

/-- The timing loop by the end of a block: its instants go on and 3043.03 follows (R132). It holds its integrator while the receive
side is stopped or freeze bit 1 is in force (R146, R147). -/
def State.timingBlock (s : State) (c : Nat) (k : PolBlock) : State :=
  let r := (s.rx c).timingStep (s.nat .carrierRxTimingBandwidth c) (s.nat .xRxRate c)
    (s.rxStopped c || s.bit .xPolFrozen c 1) (s.blockStart c k) k.timing
  (s.setRx c r).set .carrierRxTimingOffset c (rdiv r.clockFreq 65536)

/-- Tap changes that a block asks for join those awaiting their 96 symbols, six blocks; one that is due is applied, or lost while
the equaliser is held (R142, R146). -/
def State.polAdapt (s : State) (c : Nat) (changes : List Int) : State :=
  let held := s.get .carrierRxPolState c == 4
  let q := sget s.polQueue c [] ++ [if held then [] else changes]
  match q with
  | g :: t =>
    if 6 < q.length then
      let s : State := { s with polQueue := sput natLt [] s.polQueue c t }
      if held || g.isEmpty then s else s.setBlob .xPolTaps c (addChanges (s.blob .xPolTaps c) g)
    else { s with polQueue := sput natLt [] s.polQueue c q }
  | [] => s

/-- A block of 16 output symbols passes stages 6 and 7 and adapts the taps by the error of the state (R142). A step exponent or
freeze bit written during the block holds from the next one (R145, R147). -/
def State.polBlock (s : State) (c : Nat) (k : PolBlock) : State :=
  if s.idle c then s
  else
    let st := s.get .carrierState c
    let taps := s.blob .xPolTaps c
    let d := s.polData c k
    let out := s.polSymbols c k d.1 d.2
    let s := (s.setRx c { s.rx c with held := (s.rx c).held ++ out }).capturePut c 2 (stageSevenBytes out)
    let gamma := cmaGamma (s.nat .carrierFecModulationInForce c) (s.nat .carrierFecRxKdm c)
    let step := s.nat .xPolK (2 * c + (if st ≤ 2 then 0 else 1))
    let s := (s.polAdapt c (polChanges taps (st == 1) (st == 2) gamma step d.1)).timingBlock c k
    let s := (s.set .xPolK (2 * c) (s.get .carrierRxPolKAcq c)).set .xPolK (2 * c + 1) (s.get .carrierRxPolKTrk c)
    (s.setBit .xPolFrozen c 2 (s.bit .carrierRxFreeze c 2)).refreshRx c

/-- POL_ADAPT_BLOCK (R142). -/
def execPolAdaptBlock (c : Fin 12) (k : PolBlock) (s : State) : Host.Outcome State Fault Refusal :=
  s.live fun s => s.polBlock c k

/-- Both outputs on one sequence in 2 consecutive frames: Y is rebuilt from X (R144). DESIGN CHOICE (log entry
49): a re-initialisation is no adaptation, and is made while the equaliser holds too. -/
def State.polReinit (s : State) (c : Nat) (same : Bool) : State :=
  let s := s.set .xPolSame c (if same then s.get .xPolSame c + 1 else 0)
  if 2 ≤ s.get .xPolSame c then
    ((s.setBlob .xPolTaps c (rebuildY (s.blob .xPolTaps c))).set .xPolSame c 0 |>.bump .carrierRxPolReinits c).raise
      (evCarrier c 34) []
  else s

/-- The energy centroid more than 1.5 taps off centre moves the interpolator half a symbol toward it and the taps back (R133): a
higher tap takes an earlier sample, so a centroid above tap 15 moves the instants back. -/
def State.polCentre (s : State) (c : Nat) : State :=
  if s.upLine c && s.flag .carrierRxPolCentring c && !s.timingLost c && s.get .carrierRxPolState c != 4 then
    let m := centroid (s.blob .xPolTaps c)
    let r := s.rx c
    let move := fun (up : Bool) =>
      (s.setBlob .xPolTaps c (shiftTaps up (s.blob .xPolTaps c))).setRx c
        { r with clock := r.clock.map (· + halfSymbols r.clockFreq (if up then -1 else 1)) }
    if 3 * m.2 < m.1 then move true else if m.1 < -3 * m.2 then move false else s
  else s

/-! ## Timing loop (R132) -/

/-- The filtered timing error of a frame, in 1/1000 symbol period: 4 frames beyond a quarter unlock, 16 within a
twentieth lock. -/
def State.timingEval (s : State) (c : Nat) (err : Int) : State :=
  if s.rxStopped c then s
  else
    let s := s.set .xTimBad c (if 250 < err.natAbs then s.get .xTimBad c + 1 else 0)
      |>.set .xTimGood c (if err.natAbs ≤ 50 then s.get .xTimGood c + 1 else 0)
    if 16 ≤ s.get .xTimGood c then (s.set .carrierRxTimingState c 2).set .xTimLost c 0
    else if 4 ≤ s.get .xTimBad c ∧ !s.flag .xTimLost c then
      let s := (s.set .carrierRxTimingState c 1).set .xTimLost c 1
      if s.upLine c then (s.bump .carrierRxTimingUnlocks c).raise (evCarrier c 35) [] else s
    else s

/-- Front-end errors measured in a frame (R131): the estimates move towards them by 2^−3042.03 of the difference, and are
corrected up to ±15° and ±3 dB. DESIGN CHOICE (log entry 49): an estimate is a multiple of 2⁻³⁰ of its unit, a step is rounded down,
and the figure corrected is the nearest, ties up. -/
def State.frontEnd (s : State) (c : Nat) (e : Vector Int 4) : State :=
  if !s.flag .carrierRxFeEnable c || s.bit .carrierRxHolding c 0 then s
  else
    let s := s.each (List.range 4) fun s k =>
      let v := s.get .xFe (4 * c + k)
      s.set .xFe (4 * c + k) (v + (2 ^ 30 * chan e k 0 - v) / 2 ^ s.nat .carrierRxFeIqShift c)
    let lim := fun (l : Int) k => max (-l) (min l ((s.get .xFe (4 * c + k) + 2 ^ 29) / 2 ^ 30))
    s |>.set .carrierRxFePhaseX c (lim 150 0) |>.set .carrierRxFePhaseY c (lim 150 1)
      |>.set .carrierRxFeGainX c (lim 300 2) |>.set .carrierRxFeGainY c (lim 300 3)

/-- 3042.01 written: 3046.03 follows (R131, R147). -/
def writeFrontEnd (c : Nat) (v : Int) (s : State) : State × Answer :=
  ((s.set .carrierRxFeEnable c v).refreshRx c, accepted)

/-! ## Monitors (R148, R149) -/

/-- A quantity takes a frame's raw value (R148): v := v + (r − v) / 2^a with 8 further fraction bits. DESIGN CHOICE (log entry
49): the step is rounded down, and the figure reported is the nearest, ties up. -/
def State.monitorTake (s : State) (q c : Nat) (r : Int) : State :=
  let i := 12 * q + c
  let v := s.get .xMonV i
  let n := if s.flag .xMonSeen i then v + (256 * r - v) / 2 ^ (s.nat .carrierMonShift i) else 256 * r
  (s.set .carrierMonRaw i r |>.set .xMonV i n |>.set .carrierMonFiltered i ((n + 128) / 256)
    |>.set .xMonSeen i 1).monitorLevel q c

/-- Dispersion tracking at a monitor update (R140). -/
def State.trackEval (s : State) (c : Nat) : State :=
  (s.set .xTrackRun c
    (if 256 * s.get .carrierCdTrackThreshold c < ((s.get .xMonV c).natAbs : Int) then s.get .xTrackRun c + 1
      else 0)).trackStart c

/-- The raw value of quantity q at a frame (R148): q5 is the offset of the timing loop and q6 the larger phase error of the
front end; q4 is measured behind the second pass where it subtracted in the frame (R161). -/
def State.rawQuantity (s : State) (c : Nat) (second : Bool) (m : FrameReading) (q : Nat) : Int :=
  if q = 4 ∧ second then m.snrSecond
  else if q = 5 then s.get .carrierRxTimingOffset c
  else if q = 6 then (max (s.get .carrierRxFePhaseX c).natAbs (s.get .carrierRxFePhaseY c).natAbs : Nat)
  else m.raw.toList.getD q 0

/-- Monitors of a frame (R146, R148): Tentative, Locked and Carrying update unless a symbol of the frame was erased; a
running fade holds quantity 0. -/
def State.monitors (s : State) (c : Nat) (second : Bool) (m : FrameReading) : State :=
  let bad := s.flag .xTrackWindow c
  let s := s.set .xTrackWindow c 0
  if bad || s.get .carrierState c < 2 then s
  else
    let q0 := !s.cdFading c
    let s := s.each (List.range 7) fun s q => if q = 0 ∧ !q0 then s else s.monitorTake q c (s.rawQuantity c second m q)
    if q0 then s.trackEval c else s

/-- Settings and freeze bits written during the frame hold from the next one (R147, R169, R186): front end, timing and
tracking, the blind-search window, and the catch settings. -/
def State.frameSettings (s : State) (c : Nat) : State :=
  let s := s.each [0, 1, 3] fun s b => s.setBit .xPolFrozen c b (s.bit .carrierRxFreeze c b)
  (s.set .xCrWindow c (s.get .carrierCrWindow c)).catchSettings c

/-! ## Defects of every frame (R229) -/

/-- The raw LOS condition. -/
def State.rawLos (s : State) (c : Nat) : Bool :=
  let e := s.nat .carrierDefectLosSources c
  (bitOf e 0 && s.flag .xEngLos c) || (bitOf e 1 && s.flag .xAdcLos c)

/-- Frame words missed or confirmed in a row in Locked and Carrying (R229 bit 1, R183). -/
def State.lofEval (s : State) (c : Nat) (metric : Int) (erased : Bool) : State :=
  if erased then s
  else
    let n := s.get .xLofRun c
    let s := s.set .xLofRun c
      (if s.get .carrierCatchConfirm c ≤ metric then (if 0 < n then -1 else n - 1) else (if n < 0 then 1 else n + 1))
    if 5 ≤ s.get .xLofRun c then s.setRaw c 1 true
    else if s.get .xLofRun c ≤ -2 then s.setRaw c 1 false
    else s

/-- LOS, LOF and LOL at a frame; LOF of a Compatible carrier that is up comes from FlexO alignment (R235). -/
def State.frameDefects (s : State) (c : Nat) (metric : Int) (erased : Bool) : State :=
  let s := s.setRaw c 0 (s.rawLos c)
  if s.upLine c then
    let s := if s.rxStopped c || s.nat .carrierFecProfileInForce c == profCompatible then s else s.lofEval c metric erased
    s.setRaw c 3 (s.rxStopped c || s.get .carrierRxTimingState c != 2)
  else s.setRaw c 1 true

/-! ## The frame start -/

/-- What a receive side that is not stopped does at a frame start: in Seeking its front end adapts (R131, R146). -/
def State.frameMeasure (s : State) (c : Nat) (second : Bool) (m : FrameReading) : State :=
  if s.get .carrierState c = 1 then s.frontEnd c m.frontEnd
  else
    let s := (s.timingEval c m.timingError).refreshRx c
    let s := (s.frontEnd c m.frontEnd).monitors c second m
    let s := if s.wordErased c m then s else s.polReinit c m.sameSequence
    let s := (s.polCentre c).frequencyEval c (rdiv (s.rx c).freq 1000000)
    if s.get .carrierState c = 2 then s.confirmEval c m else s

/-- A receive frame start of carrier c. Its measurements are of the frame that ends, whose side states say where q4 was taken; sides
are judged every frame; a stopped receive side measures and counts nothing. -/
def State.frameStart (s : State) (c : Nat) (m : FrameReading) : State :=
  if s.idle c then s
  else
    let erased := s.wordErased c m
    let second := s.sideLive c 0 || s.sideLive c 1
    let s := (s.sideEval c 0).sideEval c 1
    let s := s.setBlob .carrierRxPolTaps c (s.blob .xPolTaps c)
    let s := if s.rxStopped c then s else s.frameMeasure c second m
    ((s.frameDefects c m.metric erased).frameSettings c).refreshRx c

/-- RX_FRAME_START (R148). -/
def execRxFrameStart (c : Fin 12) (m : FrameReading) (s : State) : Host.Outcome State Fault Refusal :=
  s.live fun s => s.frameStart c m

/-- 304x.04 or .05 written: the clear level must not lie on the set side; the filtered value is held against the new levels
at once where it is measured (R149). -/
def writeMonitor (r : Reg) (i : Nat) (v : Int) (s : State) : State × Answer :=
  let t := s.set r i v
  let hi := t.get .carrierMonSet i
  let lo := t.get .carrierMonClear i
  if (if i / 12 = 4 then lo < hi else hi < lo) then (s, refusedWith 0x08)
  else (if s.flag .xMonSeen i && decide (2 ≤ s.get .carrierState (i % 12)) then t.monitorLevel (i / 12) (i % 12) else t,
    accepted)

end Sys2Proof.Machine
end

