-- ==== Sys2Proof/Machine/Aes.lean ====
section
/-! DEFINITION. AES-256, AES-GCM and AES key wrap, which the cipher chapter names by their standards (R270, R275, R277:
FIPS 197, NIST SP 800-38D, RFC 3394). Bytes are numbers below 256, most significant byte of a word first. PRESUMED: the
standards' contents are taken from outside the manual (assumption 20). -/

namespace Sys2Proof.Machine

/-- The S-box, 16 bytes to an entry, byte x at bits 8x + 7 to 8x of its entry. -/
def sboxRows : List Nat := [
  0x76ABD7FE2B670130C56F6BF27B777C63, 0xC072A49CAFA2D4ADF04759FA7DC982CA,
  0x1531D871F1E5A534CCF73F362693FDB7, 0x75B227EBE28012079A059618C323C704,
  0x842FE329B3D63B52A05A6E1B1A2C8309, 0xCF584C4A39BECB6A5BB1FC20ED00D153,
  0xA89F3C507F02F94585334D43FBAAEFD0, 0xD2F3FF1021DAB6BCF5389D928F40A351,
  0x73195D643D7EA7C41744975FEC130CCD, 0xDB0B5EDE14B8EE4688902A22DC4F8160,
  0x79E4959162ACD3C25C2406490A3A32E0, 0x08AE7A65EAF4566CA94ED58D6D37C8E7,
  0x8A8BBD4B1F74DDE8C6B4A61C2E2578BA, 0x9E1DC186B95735610EF6034866B53E70,
  0xDF2855CEE9871E9B948ED9691198F8E1, 0x16BB54B00F2D99416842E6BF0D89A18C]

/-- The inverse S-box. -/
def sboxInvRows : List Nat := [
  0xFBD7F3819EA340BF38A53630D56A0952, 0xCBE9DEC444438E3487FF2F9B8239E37C,
  0x4EC3FA420B954CEE3D23C2A632947B54, 0x25D18B6D49A25B76B224D92866A12E08,
  0x92B6655DCC5CA4D41698688664F6F872, 0x849D8DA75746155EDAB9EDFD5048706C,
  0x0645B3B80558E4F70AD3BC8C00ABD890, 0x6B8A130103BDAFC1020F3FCA8F1E2CD0,
  0x73E6B4F0CECFF297EADC674F4111913A, 0x6EDF751CE837F9E28535ADE72274AC96,
  0x1BBE18AA0E62B76F89C5291D711AF147, 0xF45ACD78FEC0DB9A2079D2C64B3E56FC,
  0x5FEC8027591012B131C7078833A8DD1F, 0xEF9CC9939F7AE52D0D4AB519A97F5160,
  0x619953833CBBEBC8B0F52AAE4D3BE0A0, 0x7D0C2155631469E126D677BA7E042B17]

/-- A byte of a table of 16 rows. -/
def boxAt (t : List Nat) (x : Nat) : Nat := t.getD (x / 16) 0 / 256 ^ (x % 16) % 256

/-- Doubling in GF(2⁸). -/
def xtime (x : Nat) : Nat := if x < 128 then 2 * x else Nat.xor (2 * x) 0x11B

/-- Multiplication in GF(2⁸) by a constant of 4 bits. -/
def gfMul (k x : Nat) : Nat :=
  let a := if k % 2 = 1 then x else 0
  let b := if k / 2 % 2 = 1 then xtime x else 0
  let c := if k / 4 % 2 = 1 then xtime (xtime x) else 0
  let d := if k / 8 % 2 = 1 then xtime (xtime (xtime x)) else 0
  Nat.xor (Nat.xor a b) (Nat.xor c d)

/-- Byte-wise sum of two strings. -/
def xorBytes (a b : List Nat) : List Nat := List.zipWith Nat.xor a b

/-- One column times the circulant matrix of first row k. -/
def mixColumn (k : List Nat) (col : List Nat) : List Nat :=
  (List.range 4).map fun r => (List.range 4).foldl
    (fun acc j => Nat.xor acc (gfMul (k.getD ((j + 4 - r) % 4) 0) (col.getD j 0))) 0

/-- All four columns of a block. -/
def mixColumns (k : List Nat) (b : List Nat) : List Nat :=
  (List.range 4).flatMap fun c => mixColumn k ((b.drop (4 * c)).take 4)

/-- Row r moves r columns to the left (or to the right). -/
def shiftRows (left : Bool) (b : List Nat) : List Nat :=
  (List.range 16).map fun i =>
    let r := i % 4
    let c := i / 4
    b.getD (4 * ((if left then c + r else c + 4 - r) % 4) + r) 0

/-- The 60 words of the key schedule, oldest first. -/
def expandKey : Nat → Nat → List (List Nat) → List (List Nat)
  | 0, _, w => w
  | n + 1, rcon, w =>
    let i := w.length
    let prev := w.getD (i - 1) []
    let t :=
      if i % 8 = 0 then
        xorBytes ((prev.drop 1 ++ prev.take 1).map (boxAt sboxRows)) [rcon, 0, 0, 0]
      else if i % 8 = 4 then prev.map (boxAt sboxRows)
      else prev
    expandKey n (if i % 8 = 0 then xtime rcon else rcon) (w ++ [xorBytes (w.getD (i - 8) []) t])

/-- Round keys 0 to 14 of a 32-byte key. -/
def roundKeys (key : List Nat) : List (List Nat) :=
  let w := expandKey 52 1 ((List.range 8).map fun i => (key.drop (4 * i)).take 4)
  (List.range 15).map fun r => ((w.drop (4 * r)).take 4).flatten

/-- A block of 16 bytes enciphered under round keys. -/
def aesEncrypt (rk : List (List Nat)) (block : List Nat) : List Nat :=
  let s := (List.range 13).foldl
    (fun s r => xorBytes (mixColumns [2, 3, 1, 1] (shiftRows true (s.map (boxAt sboxRows)))) (rk.getD (r + 1) []))
    (xorBytes block (rk.getD 0 []))
  xorBytes (shiftRows true (s.map (boxAt sboxRows))) (rk.getD 14 [])

/-- A block of 16 bytes deciphered under round keys. -/
def aesDecrypt (rk : List (List Nat)) (block : List Nat) : List Nat :=
  let s := (List.range 13).foldl
    (fun s r => mixColumns [14, 11, 13, 9]
      (xorBytes ((shiftRows false s).map (boxAt sboxInvRows)) (rk.getD (13 - r) [])))
    (xorBytes block (rk.getD 14 []))
  xorBytes ((shiftRows false s).map (boxAt sboxInvRows)) (rk.getD 0 [])

/-- The number a string spells, most significant byte first. -/
def beNat (l : List Nat) : Nat := l.foldl (fun a b => 256 * a + b) 0

/-- The low w bytes of a number, most significant first. -/
def beBytes (w v : Nat) : List Nat := ((List.range w).map fun k => v / 256 ^ k % 256).reverse

/-- RFC 3394 unwrap of n 64-bit registers: steps 6n − 1 down to 0. -/
def unwrapSteps (rk : List (List Nat)) (n : Nat) : Nat → Nat → List Nat → Nat × List Nat
  | 0, a, r => (a, r)
  | t + 1, a, r =>
    let i := t % n
    let b := aesDecrypt rk (beBytes 8 (Nat.xor a (t + 1)) ++ beBytes 8 (r.getD i 0))
    unwrapSteps rk n t (beNat (b.take 8)) (r.set i (beNat (b.drop 8)))

/-- The data an RFC 3394 string wraps, where its integrity check passes. -/
def keyUnwrap (kek wrapped : List Nat) : Option (List Nat) :=
  let n := wrapped.length / 8 - 1
  let r := (List.range n).map fun i => beNat ((wrapped.drop (8 * (i + 1))).take 8)
  let (a, d) := unwrapSteps (roundKeys kek) n (6 * n) (beNat (wrapped.take 8)) r
  if a = 0xA6A6A6A6A6A6A6A6 then some (d.flatMap (beBytes 8)) else none

/-- Product in GF(2¹²⁸) as GHASH orders its bits. -/
def ghashMul (x y : Nat) : Nat :=
  ((List.range 128).foldl (fun (a : Nat × Nat) i =>
    (if x / 2 ^ (127 - i) % 2 = 1 then Nat.xor a.1 a.2 else a.1,
     if a.2 % 2 = 1 then Nat.xor (a.2 / 2) (0xE1 * 2 ^ 120) else a.2 / 2)) (0, y)).1

/-- A string cut into blocks of 16, the last filled with zeros. -/
def blocks16 (l : List Nat) : List (List Nat) :=
  (List.range ((l.length + 15) / 16)).map fun i =>
    let b := (l.drop (16 * i)).take 16
    b ++ List.replicate (16 - b.length) 0

/-- GHASH of authenticated data and ciphertext under subkey h. -/
def ghash (h : Nat) (aad ct : List Nat) : Nat :=
  (blocks16 aad ++ blocks16 ct ++ [beBytes 8 (8 * aad.length) ++ beBytes 8 (8 * ct.length)]).foldl
    (fun a b => ghashMul (Nat.xor a (beNat b)) h) 0

/-- Text exclusive-or keystream that starts at counter block IV ‖ 0x00000002 (R270). -/
def counterMode (rk : List (List Nat)) (iv text : List Nat) : List Nat :=
  xorBytes text ((List.range ((text.length + 15) / 16)).flatMap fun i => aesEncrypt rk (iv ++ beBytes 4 (i + 2)))

/-- The GCM tag of authenticated data and ciphertext. -/
def gcmTag (rk : List (List Nat)) (iv aad ct : List Nat) : List Nat :=
  let h := beNat (aesEncrypt rk (List.replicate 16 0))
  xorBytes (beBytes 16 (ghash h aad ct)) (aesEncrypt rk (iv ++ beBytes 4 1))

/-- Bytes as numbers. -/
def natBytes (l : List Byte) : List Nat := l.map BitVec.toNat
/-- Numbers as bytes. -/
def byteList (l : List Nat) : List Byte := l.map (BitVec.ofNat 8)

end Sys2Proof.Machine
end

