-- ==== Sys2Proof/Machine/Crc.lean ====
section
/-! DEFINITION. The cyclic checks of the block: CRC-32C (R319), the Ethernet FCS, and CRC-8 (R217). -/

namespace Sys2Proof.Machine

/-- One bit of a reflected 32-bit check. -/
def crcBit (poly x : Nat) : Nat := if x % 2 = 1 then Nat.xor (x / 2) poly else x / 2

/-- One byte of a reflected 32-bit check. -/
def crcByte (poly x b : Nat) : Nat := (List.range 8).foldl (fun a _ => crcBit poly a) (Nat.xor x b)

/-- A reflected 32-bit check, initial value and final XOR of ones. -/
def crcReflected (poly : Nat) (l : List Byte) : Nat :=
  Nat.xor (l.foldl (fun a b => crcByte poly a b.toNat) 0xFFFFFFFF) 0xFFFFFFFF

/-- CRC-32C: polynomial 0x1EDC6F41, reflected (R319). -/
def crc32c (l : List Byte) : Nat := crcReflected 0x82F63B78 l

/-- The frame check sequence of IEEE 802.3: polynomial 0x04C11DB7, reflected (PRESUMED, assumption 20). -/
def fcs32 (l : List Byte) : Nat := crcReflected 0xEDB88320 l

/-- The last four bytes of a frame are its FCS, lowest byte first. -/
def fcsOk (l : List Byte) : Bool :=
  decide (4 ≤ l.length) && leNat (l.drop (l.length - 4)) == fcs32 (l.take (l.length - 4))

/-- A frame with its FCS computed anew. -/
def withFcs (l : List Byte) : List Byte :=
  let d := l.take (l.length - 4)
  d ++ leBytes 4 (fcs32 d : Nat)

/-- CRC-8 of the n bits below bit n of a number, from the top: polynomial x⁸ + x² + x + 1, initial value 0 (R217). -/
def crc8 (n v : Nat) : Nat :=
  (List.range n).foldl (fun a i =>
    let b := (a / 128 + v / 2 ^ (n - 1 - i)) % 2
    Nat.xor (a * 2 % 256) (if b = 1 then 7 else 0)) 0

/-- A slot overhead entry whose CRC-8 is valid (R217). -/
def slotEntryOk (w : Nat) : Bool := w % 256 == crc8 56 (w / 256)

end Sys2Proof.Machine
end

