-- ==== Sys2Proof/Machine/LineFrame.lean ====
section
/-! DEFINITION. The logical frame as bits: overhead bytes, slot overhead entries, parity, and what a received frame says (R213 to
R219, R226, R227). -/

namespace Sys2Proof.Machine

/-! ## Overhead (R215, R217) -/

/-- The overhead of a logical frame: FNUM, BSQ, trace byte, BIP8, BEI, BDI, STAT, TPG, FANN, the 10 GCC bytes and the five slot
overhead entries. -/
structure FrameHead where
  fnum : Nat
  bsq : Nat
  tti : Byte
  bip : Byte
  bei : Nat
  bdi : Bool
  stat : Nat
  tpg : Bool
  fann : Bool
  gcc : List Byte
  entries : List Nat
deriving DecidableEq, Repr

/-- n bytes of a number, most significant first. -/
def bigEndian (n v : Nat) : List Byte := (List.range n).map fun k => BitVec.ofNat 8 (v / 256 ^ (n - 1 - k))

/-- A list brought to n entries by filling with z. -/
def fillTo {α : Type} (n : Nat) (z : α) (l : List α) : List α := (List.range n).map fun k => l.getD k z

/-- Bytes 0 to 255 of a logical frame (Table: Logical frame overhead); reserved bytes are 0. -/
def FrameHead.bytes (h : FrameHead) : List Byte :=
  bigEndian 1 h.fnum ++ bigEndian 3 h.bsq ++ [h.tti, h.bip]
    ++ bigEndian 1 (16 * h.bei + 8 * h.bdi.toNat + h.stat) ++ bigEndian 1 (128 * h.tpg.toNat + 64 * h.fann.toNat)
    ++ fillTo 10 0 h.gcc ++ List.replicate 14 0 ++ (fillTo 5 0 h.entries).flatMap (bigEndian 8) ++ List.replicate 184 0

/-- A slot overhead entry with its CRC-8 (R217). -/
def slotEntry (trib order fill gen cm : Nat) : Nat :=
  let top := trib * 2 ^ 44 + order * 2 ^ 35 + fill * 2 ^ 33 + gen * 2 ^ 32 + cm
  top * 256 + crc8 56 top

/-- The slots whose entries frame f carries, in byte order (R217). -/
def entrySlots (f : Nat) : List Nat := (List.range 5).map fun i => (5 * f + i) % 320

/-- BIP8 of a payload area before scrambling (R226). -/
def bipOf (area : List Bool) : Byte :=
  let m := area.zipIdx.foldl (fun (a : Nat) e => if e.1 then a ^^^ 2 ^ (7 - e.2 % 8) else a) 0
  BitVec.ofNat 8 m

/-! ## Payload area (R216, R218) -/

/-- Position i of a tributary of capacity T carries data when Cm positions do. -/
def carriesData (cm t i : Nat) : Bool := decide (i * cm / t < (i + 1) * cm / t)

/-- The data word of its multiframe that position i carries. -/
def dataIndex (cm t i : Nat) : Nat := i * cm / t

/-- Bits n × a to n × a + a − 1 of words laid end to end, most significant bit first. -/
def areaBits (a n : Nat) (word : Nat → Nat) : List Bool :=
  let w := n * a / 64
  let l := (List.range ((n * a + a + 63) / 64 - w)).flatMap fun k => bitsOf 64 (word (w + k))
  (l.drop (n * a - 64 * w)).take a

/-- The tags of those bits, each that of its word. -/
def areaTags (a n : Nat) (tag : Nat → Nat) : List Nat :=
  let w := n * a / 64
  let l := (List.range ((n * a + a + 63) / 64 - w)).flatMap fun k => List.replicate 64 (tag (w + k))
  (l.drop (n * a - 64 * w)).take a

/-- Words from a byte string, first byte in bits 63:56 (R246, R266). -/
def wordsOfBytes (l : List Byte) : List Nat :=
  (List.range (l.length / 8)).map fun k => ((l.drop (8 * k)).take 8).foldl (fun a b => 256 * a + b.toNat) 0

/-! ## Received words (R216, R218, R265, R319) -/

/-- A word by position among words in rising position; a position that has come already keeps its word. -/
def wordInsert (e : Nat × Nat × Bool) : List (Nat × Nat × Bool) → List (Nat × Nat × Bool)
  | [] => [e]
  | x :: t => if e.1 < x.1 then e :: x :: t else if e.1 = x.1 then x :: t else x :: wordInsert e t

/-- A word of a multiframe comes at data position d; one behind the positions taken is late and lost. -/
def RxShare.put (d word : Nat) (bad : Bool) (x : RxShare) : RxShare :=
  if d < x.taken ∨ x.cm ≤ d then x else { x with words := wordInsert (d, word, bad) x.words }

/-- Positions that have not come when the multiframe is over are words of 0 in a failed tile. -/
def RxShare.close (x : RxShare) : RxShare :=
  (List.range (x.cm - x.taken)).foldl (fun x k => x.put (x.taken + k) 0 true) x

/-- How many of the next positions have come. -/
def readyFrom : Nat → List (Nat × Nat × Bool) → Nat
  | _, [] => 0
  | d, x :: t => if x.1 = d then readyFrom (d + 1) t + 1 else 0

/-- Line tile k of the multiframe, its 64 positions from 64 k on, has a word marked bad (R219, R319). -/
def RxShare.tileBad (x : RxShare) (k : Nat) : Bool := x.words.any fun e => e.1 / 64 == k && e.2.2

/-- The next n words, with the marks of their tiles, and what is left. -/
def RxShare.take (n : Nat) (x : RxShare) : List (Nat × Nat × Bool) × RxShare :=
  ((x.words.take n).map fun e => (e.1, e.2.1, x.tileBad (e.1 / 64)), { x with taken := x.taken + n, words := x.words.drop n })

/-- All words of a plain tributary that may go to the demapper: those that have come in order, multiframe by multiframe. -/
def sharesReady : List RxShare → List (Nat × Nat × Nat × Bool) × List RxShare
  | [] => ([], [])
  | x :: t =>
    let a := x.take (readyFrom x.taken x.words)
    let l := a.1.map fun e => (x.cm, e)
    if a.2.taken = x.cm ∧ !t.isEmpty then
      let r := sharesReady t
      (l ++ r.1, r.2)
    else (l, a.2 :: t)

/-- Tiles among such words that failed: each counts where its last position is taken. -/
def failedTilesIn (l : List (Nat × Nat × Nat × Bool)) : Nat :=
  (l.filter fun e => e.2.2.2 && (e.2.1 % 64 == 63 || e.2.1 + 1 == e.1)).length

/-- Bytes of words, most significant first, each with its word's mark. -/
def markedBytes (l : List (Nat × Bool)) : List (Byte × Bool) :=
  l.flatMap fun e => (bigEndian 8 e.1).map fun b => (b, e.2)

/-! ## Received frames -/

/-- The bits of byte k of a frame, as a number. -/
def byteAt (bits : List Bool) (k : Nat) : Nat := natOf ((List.range 8).map fun j => bits.getD (8 * k + j) false)

/-- Bits in which a received BIP8 differs from the parity of the area before it; none where there was no area (R226). -/
def bipErrors (was : Option Byte) (b : Nat) : Fin 9 :=
  match was with
  | none => 0
  | some w => Fin.ofNat 9 ((List.range 8).filter fun k => bitOf (Nat.xor w.toNat b) k).length

/-- What a received logical frame says once its sequence is removed, against the parity of the area before it. -/
def parseFrame (was : Option Byte) (bits : List Bool) : LogicalFrame where
  fnum := Fin.ofNat 256 (byteAt bits 0)
  bipErrors := bipErrors was (byteAt bits 5)
  bei := Fin.ofNat 16 (byteAt bits 6 / 16)
  bdi := bitOf (byteAt bits 6) 3
  stat := Fin.ofNat 8 (byteAt bits 6)
  tti := BitVec.ofNat 8 (byteAt bits 4)
  gcc := Vector.ofFn fun k => BitVec.ofNat 8 (byteAt bits (8 + k.val))

/-- The bits of the next logical frame, with their marks: those that the inverse matcher has delivered, else those given. -/
def RxLine.nextFrame (r : RxLine) (n : Nat) (given : List Bool) : List (Bool × Bool) :=
  if r.aligned ∧ n ≤ r.bits.length then r.bits.take n else fillTo n (false, false) (given.map fun b => (b, false))

/-- The next logical frame leaves what the inverse matcher has delivered, and the tail goes with the last of a multiframe
(R213, R214). area is the payload area of the frame. -/
def RxLine.frameTaken (l : LineSet) (n : Nat) (area : List Bool) (r : RxLine) : RxLine :=
  let r := { r with bip := some (bipOf area) }
  if !r.aligned || r.bits.length < n then r
  else
    let f := slotsPerMultiframe l.modulation
    if r.frames = 255 then
      { r with bits := r.bits.drop (n + (fieldsInput l r.first f - 256 * n)), frames := 0, first := (r.first + f) % 7 }
    else { r with bits := r.bits.drop n, frames := r.frames + 1 }

/-- The whole words of frame f's payload area, by number in the multiframe, a word being bad where one of its bits is; and the
bits behind them (R216). The bits of a word that begins in the frame before come from it, where it was taken. -/
def areaWords (f : Nat) (m : RxMulti) (area : List (Bool × Bool)) : List (Nat × Nat × Bool) × List (Bool × Bool) :=
  let p := f * area.length
  let lead := if 0 < f ∧ m.last = some (f - 1) ∧ m.tail.length = p % 64 then m.tail else List.replicate (p % 64) (false, true)
  let all := lead ++ area
  ((List.range (all.length / 64)).map fun k =>
      let w := (all.drop (64 * k)).take 64
      (p / 64 + k, natOf (w.map Prod.fst), w.any Prod.snd),
    all.drop (all.length / 64 * 64))

/-- The multiframe under way takes frame f: its announce, parity and BSQ, its five slot overhead entries, and the bits left
over. -/
def RxMulti.hear (f : Nat) (bits : List Bool) (tail : List (Bool × Bool)) (m : RxMulti) : RxMulti :=
  let tsic := byteAt bits 7
  { m with
    frames := m.frames + 1, announced := m.announced + (bitOf tsic 6).toNat, parity := m.parity + (bitOf tsic 7).toNat
    bsqs := m.bsqs ++ [65536 * byteAt bits 1 + 256 * byteAt bits 2 + byteAt bits 3]
    entries := m.entries ++ (entrySlots f).zipIdx.map fun e => (e.1, natOf ((bits.drop (8 * (32 + 8 * e.2))).take 64))
    last := some f, tail := tail }

/-- Entries as copies by slot. -/
def copiesByEntry (l : List (Nat × Nat)) : List (Nat × List (BitVec 64)) := l.map fun e => (e.1, [BitVec.ofNat 64 e.2])

end Sys2Proof.Machine
end

