-- ==== Sys2Proof/Machine/Pcs.lean ====
section
/-! DEFINITION. The blocks of a transparent port (R247, R311, R322): 257-bit blocks in 64-bit words, 64b/66b blocks in them, and the
egress buffer. PRESUMED (log entry 50): the two block codes are those of IEEE 802.3, and the stream is not scrambled. -/

namespace Sys2Proof.Machine

/-! ## 64b/66b blocks -/

/-- Block type fields of control blocks. -/
def blockTypes : List Nat :=
  [0x1E, 0x2D, 0x33, 0x4B, 0x55, 0x66, 0x78, 0x87, 0x99, 0xAA, 0xB4, 0xCC, 0xD2, 0xE1, 0xFF]

/-- The idle control block. -/
def idleBlock : Block66 := ⟨true, 0x1E⟩

/-- The error control block: eight error characters. -/
def errorBlock : Block66 := ⟨true, (List.range 8).foldl (fun a k => a + 0x1E * 2 ^ (8 + 7 * k)) 0x1E⟩

/-- A block that ends a frame. -/
def Block66.ends (b : Block66) : Bool :=
  b.control && ([0x87, 0x99, 0xAA, 0xB4, 0xCC, 0xD2, 0xE1, 0xFF] : List Nat).contains (b.bits % 256)

/-! ## 257-bit blocks -/

/-- n bits of a number, the lowest first. -/
def lowFirst (n v : Nat) : List Bool := (List.range n).map (bitOf v)

/-- The number whose bits, the lowest first, are l. -/
def lowNat (l : List Bool) : Nat := l.foldr (fun b a => 2 * a + b.toNat) 0

/-- Four blocks as 257 bits: of the first control block the upper half of the type field is left out. -/
def encode257 (l : List Block66) : List Bool :=
  match l.findIdx? Block66.control with
  | none => true :: l.flatMap fun b => lowFirst 64 b.bits
  | some c => false :: (l.map fun b => !b.control) ++ l.zipIdx.flatMap fun e =>
      if e.2 = c then (lowFirst 64 e.1.bits).take 4 ++ (lowFirst 64 e.1.bits).drop 8 else lowFirst 64 e.1.bits

/-- The four blocks of 257 bits; bits that no four blocks make are four error blocks. -/
def decode257 (l : List Bool) : List Block66 :=
  let cut := fun (p : List Bool) (k : Nat) => lowNat ((p.drop (64 * k)).take 64)
  if l.getD 0 false then [0, 1, 2, 3].map fun k => ⟨false, cut (l.drop 1) k⟩
  else
    let data := (l.drop 1).take 4
    let p := l.drop 5
    match data.findIdx? not with
    | none => List.replicate 4 errorBlock
    | some c =>
      match blockTypes.find? fun v => v % 16 == lowNat ((p.drop (64 * c)).take 4) with
      | none => List.replicate 4 errorBlock
      | some v =>
        let p := p.take (64 * c + 4) ++ lowFirst 4 (v / 16) ++ p.drop (64 * c + 4)
        [0, 1, 2, 3].map fun k => ⟨!data.getD k false, cut p k⟩

/-- A block that holds four error control blocks (R322). -/
def errorBits : List Bool := encode257 (List.replicate 4 errorBlock)

/-! ## Words of a transparent flow (R247)

An entry of its queue is a 64-bit word, and above it one more than the bit, from the most significant, at which a block begins in
it; 0 where none does. -/

/-- Blocks packed end to end behind the bits left over, first bit most significant: the words they fill, and the bits then left
over. -/
def pcsWords (tail : List Bool) (l : List (BitVec 257)) : List Nat × List Bool :=
  let bits := tail ++ l.flatMap fun b => bitsOf 257 b.toNat
  ((List.range (bits.length / 64)).map fun j =>
      let start := (List.range 64).find? fun i => decide (tail.length ≤ 64 * j + i ∧ (64 * j + i - tail.length) % 257 = 0)
      natOf ((bits.drop (64 * j)).take 64) + 2 ^ 64 * (match start with
        | some i => i + 1
        | none => 0),
    bits.drop (bits.length / 64 * 64))

/-- The mapper on its way through the words: bits of the block under way that have gone, whether it is replaced, and how many
blocks have been (R322 point 1). -/
structure PcsRun where
  gone : Nat
  bad : Bool
  count : Nat
deriving DecidableEq, Repr

/-- A word as it is mapped, with whether its tile failed: of a block that begins in a failed tile the bits are those of a block of
error control blocks. -/
def PcsRun.word (r : PcsRun) (e : Nat × Bool) : PcsRun × Nat :=
  let w := e.1 % 2 ^ 64
  let k := e.1 / 2 ^ 64 - 1
  if e.1 < 2 ^ 64 then
    ({ r with gone := r.gone + 64 }, if r.bad then natOf ((List.range 64).map fun i => errorBits.getD (r.gone + i) false) else w)
  else
    (⟨64 - k, e.2, r.count + e.2.toNat⟩, natOf ((List.range 64).map fun i =>
      if i < k then (if r.bad then errorBits.getD (r.gone + i) false else bitOf w (63 - i))
      else if e.2 then errorBits.getD (i - k) false else bitOf w (63 - i)))

/-- Words as they are mapped. -/
def PcsRun.words : PcsRun → List (Nat × Bool) → PcsRun × List Nat
  | r, [] => (r, [])
  | r, e :: l =>
    let a := r.word e
    let b := a.1.words l
    (b.1, a.2 :: b.2)

/-! ## Received blocks (R247, R311) -/

/-- Marked bits from the first alignment marker of a rate code on; where none stands among them, those in which one may have begun.
The answer says whether one does. -/
def delineate257 (rate : Nat) (bits : List (Bool × Bool)) : Bool × List (Bool × Bool) :=
  match (List.range (bits.length - 256)).find? fun k => Config.isMarker rate (natOf (((bits.drop k).take 257).map Prod.fst)) with
  | some k => (true, bits.drop k)
  | none => (false, bits.drop (bits.length - 256))

/-- Up to n whole blocks of delineated bits as 64b/66b blocks, without the alignment markers; those of a block with a bit of a
failed tile are error control blocks (R322 point 6). With how many are, and the bits left. -/
def takeBlocks (rate : Nat) : Nat → List (Bool × Bool) → List Block66 × Nat × List (Bool × Bool)
  | 0, bits => ([], 0, bits)
  | n + 1, bits =>
    if bits.length < 257 then ([], 0, bits)
    else
      let b := bits.take 257
      let r := takeBlocks rate n (bits.drop 257)
      let l := b.map Prod.fst
      if b.any Prod.snd then (List.replicate 4 errorBlock ++ r.1, r.2.1 + 4, r.2.2)
      else if Config.isMarker rate (natOf l) then r
      else (decode257 l ++ r.1, r.2.1, r.2.2)

/-! ## The egress buffer (R311) -/

/-- The buffer of a transparent port as its PCS runs: blocks waiting, oldest first, an idle owed, what has been sent, and the idles
inserted, idles deleted and slips. -/
structure Egress where
  waiting : List Block66
  owed : Bool
  sent : List Block66
  inserted : Nat
  deleted : Nat
  slips : Nat
deriving DecidableEq, Repr

/-- A block arrives; a full buffer discards it. -/
def Egress.arrive (x : Egress) (b : Block66) : Egress :=
  if 4096 ≤ x.waiting.length then { x with slips := x.slips + 1 } else { x with waiting := x.waiting ++ [b] }

/-- The idles at the head that go because the fill is above 2,176, and the blocks behind them. -/
def trimIdles : List Block66 → Nat × List Block66
  | [] => (0, [])
  | b :: l =>
    if 2176 < l.length + 1 ∧ b = idleBlock then
      let r := trimIdles l
      (r.1 + 1, r.2)
    else (0, b :: l)

/-- The PCS takes its next block: an idle owed, else the oldest that is no idle to be deleted, else an error control block. Below
1,920 a block that ends a frame or is idle brings an idle behind it. DESIGN CHOICE (log entry 50): an idle inserted brings none. -/
def Egress.send (x : Egress) : Egress :=
  if x.owed then { x with owed := false, sent := x.sent ++ [idleBlock], inserted := x.inserted + 1 }
  else
    let r := trimIdles x.waiting
    let x := { x with deleted := x.deleted + r.1 }
    match r.2 with
    | [] => { x with waiting := [], sent := x.sent ++ [errorBlock], slips := x.slips + 1 }
    | b :: l => { x with waiting := l, sent := x.sent ++ [b]
                         owed := decide (l.length < 1920) && (b.ends || b == idleBlock) }

/-- n blocks are taken. -/
def Egress.run (n : Nat) (x : Egress) : Egress := (List.range n).foldl (fun x _ => x.send) x

end Sys2Proof.Machine
end

