-- ==== Sys2Proof/Machine/Trib.lean ====
section
/-! DEFINITION. Tributaries and queues: interchange pages, calendar, flow entries, the tile pool, pause, and what fails a
tributary (R216 to R221, R232, R237 to R250, R259). -/

namespace Sys2Proof.Machine

/-! ## Page checks (R221) -/

/-- The rows that would be active in memory dir after a flip of the carriers of a mask. -/
def State.rowsAfter (s : State) (dir mask : Nat) : List Row :=
  (s.tableRows .tsiStandbyRow dir).filter (fun r => bitOf mask r.carrier)
    ++ (s.tableRows .tsiActiveRow dir).filter fun r => !bitOf mask r.carrier

/-- Orders 0 to n − 1 once each. -/
def ordersOk (l : List Nat) : Bool := decide l.Nodup && l.all fun o => decide (o < l.length)

/-- All carriers of a list belong to one bonding group, or there is one only. -/
def State.oneGroup (s : State) (l : List Nat) : Bool :=
  match l with
  | [] => true
  | [_] => true
  | h :: t => s.get .carrierBondGroup h != 0xFF && t.all fun c => s.get .carrierBondGroup c == s.get .carrierBondGroup h

/-- The reason a flip of the carriers of a mask is refused; 0 where it is accepted (R221). -/
def State.flipReason (s : State) (dir mask : Nat) : Nat :=
  let rows := s.rowsAfter dir mask
  let tribs := (rows.map Row.trib).eraseDups
  let of := fun t => rows.filter fun r => r.trib == t
  if carriers.any fun c => bitOf mask c && s.bit .tsiPending dir c then 1
  else if rows.any fun r => decide (s.slotCount r.carrier ≤ r.row % 320) then 2
  else if tribs.any fun t => !ordersOk ((of t).map Row.order) then 3
  else if tribs.any fun t => !s.oneGroup ((of t).map Row.carrier).eraseDups then 4
  else 0

/-! ## Flow entries (R241) -/

/-- Enable. -/
def fEnable (v : Nat) : Bool := bitOf v 63
/-- Transparent. -/
def fTransparent (v : Nat) : Bool := bitOf v 62
/-- Pause policy. -/
def fPause (v : Nat) : Bool := bitOf v 61
/-- Flow counters count receive frames. -/
def fCountRx (v : Nat) : Bool := bitOf v 60
/-- Tile policy 1. -/
def fTile (v : Nat) : Bool := bitOf v 59
/-- Priority. -/
def fPrio (v : Nat) : Nat := field v 56 3
/-- Ingress port. -/
def fPort (v : Nat) : Nat := field v 50 6
/-- Tributary fed. -/
def fTrib (v : Nat) : Nat := field v 38 12
/-- Depth limit in tiles. -/
def fDepth (v : Nat) : Nat := field v 20 18
/-- Pause threshold in tiles. -/
def fXoff (v : Nat) : Nat := field v 2 18

/-- Entry of a flow. -/
def State.flow (s : State) (f : Nat) : Nat := s.working .flowEntry 262144 f

/-- The default flow of a port is a transparent flow. -/
def State.defaultTransparent (s : State) (p : Nat) : Bool :=
  s.get .portClsDefaultFlow p != 0xFFFF && fTransparent (s.flow (s.nat .portClsDefaultFlow p))

/-- A port carried transparently: its default flow, to which every frame goes, is a transparent flow (R247). -/
def State.transparentPort (s : State) (p : Nat) : Bool := s.get .portClsMode p == 0 && s.defaultTransparent p

/-- A port whose flows are not served (R249, R295): disabled, or not up. -/
def State.portDown (s : State) (p : Nat) : Bool := s.get .portState p != 3

/-! ## Calendar (R250, R251) -/

/-- Span of a tributary in force. -/
def State.spanOf (s : State) (t : Nat) : Nat :=
  if s.flag .xCalTaken t then s.working .spanStandby 131072 t else s.working .spanActive 131072 t

/-- First entry of a span. -/
def spanBase (v : Nat) : Nat := field v 16 16
/-- Entries of a span. -/
def spanLength (v : Nat) : Nat := field v 0 11

/-- Calendar entry e as tributary t sees it. -/
def State.calEntry (s : State) (t e : Nat) : Nat :=
  if s.flag .xCalTaken t then s.working .calStandbyEntry 65536 e else s.working .calActiveEntry 65536 e

/-- Flows of the span of a tributary in entry order. -/
def State.spanFlows (s : State) (t : Nat) : List Nat :=
  (List.range (spanLength (s.spanOf t))).map fun k => field (s.calEntry t (spanBase (s.spanOf t) + k)) 0 15

/-- The transparent flow that is the only entry of the span of a tributary (R251 reason 5). -/
def State.transparentFlow (s : State) (t : Nat) : Option Nat :=
  match s.spanFlows t with
  | [f] => if fTransparent (s.flow f) then some f else none
  | _ => none

/-! ## What a tributary sends and delivers (R44, R48, R232, R249, R259, R283) -/

/-- The transmit direction of a carrier carries client tributaries (R48). -/
def State.carriesClients (s : State) (c : Nat) : Bool :=
  (s.mode == 3 || s.mode == 4) && !s.idle c && s.get .carrierRequest c == 2

/-- Every carrier of a tributary carries client tributaries, and there is one. -/
def State.tribCarries (s : State) (t : Nat) : Bool :=
  let l := s.tribCarriers 0 t
  !l.isEmpty && l.all s.carriesClients

/-- Transmit fill code of tributary t where the carriers of a list hold its slots (R249). -/
def State.fillOn (s : State) (carriers : List Nat) (t : Nat) : Nat :=
  let l := s.spanFlows t
  if s.get .deviceModeState 0 = 5 ∨ s.flag .xShutdown 0 then 2
  else if !l.isEmpty && l.all (fun f => s.portDown (fPort (s.flow f))) then 2
  else if l.isEmpty || carriers.isEmpty || !carriers.all s.carriesClients then 1
  else 0

/-- Transmit fill code of a tributary as its slots lie (R249). -/
def State.txFill (s : State) (t : Nat) : Nat := s.fillOn (s.tribCarriers 0 t) t

/-- CSF is declared on a tributary (6802.03). -/
def State.csfOn (s : State) (t : Nat) : Bool :=
  s.flag .tribRxCsf t && (s.tribCarriers 1 t).any fun c => s.bit .carrierDefectDeclared c 9

/-- A tributary is failed on receive (R232, R259, R283). -/
def State.tribFailed (s : State) (t : Nat) : Bool :=
  let l := s.tribCarriers 1 t
  l.any (fun c => s.lineFailed c || s.get .carrierState c != 4)
    || s.csfOn t || s.flag .xTribFail3 t
    || (decide (1 < l.length) && l.any fun c => s.get .carrierBondState c != 3 || !s.flag .xBondJoined c)

/-- Receive row of a tributary: valid, transparent, egress port (R253). -/
def rtValid (v : Nat) : Bool := bitOf v 15
/-- Transparent row. -/
def rtTransparent (v : Nat) : Bool := bitOf v 14
/-- Egress port of a row. -/
def rtPort (v : Nat) : Nat := field v 0 6

/-- The receive row in force of tributary t. -/
def State.egressRow (s : State) (t : Nat) : Nat := s.working .xTribRow 135168 t

/-- Tributaries with a valid row in force to port p. -/
def State.portTribs (s : State) (p : Nat) : List Nat :=
  ((s.listed .xTribRow).filter fun e => rtValid (s.egressRow e.1) && rtPort (s.egressRow e.1) == p).map Prod.fst

/-- What a port sends toward the host (R309): 0 data, 1 Local Fault, 2 Remote Fault. -/
def State.sendingNow (s : State) (p : Nat) : Nat :=
  let m := s.mode
  let l := s.portTribs p
  if !s.flag .portEnable p || m == 0 then 0
  else if (m != 3 && m != 4) || (!l.isEmpty && l.all s.tribFailed)
      || (m == 4 && s.get .pairRole 0 == 2 && s.get .pairHostMute 0 == 1) then 1
  else if s.flag .xPortFault p && !s.transparentPort p then 2
  else 0

/-! ## Queues and the tile pool (R237, R243 to R245) -/

/-- Frames of a packet flow. -/
def State.queueOf (s : State) (f : Nat) : List Stored := sget s.flowQueue f []

/-- Words of a transparent flow. -/
def State.wordsOf (s : State) (f : Nat) : List Nat := sget s.flowWords f []

/-- Bytes a frame takes in a queue: its length word and itself. -/
def Stored.size (x : Stored) : Nat := 8 + x.bytes.length

/-- A frame as it is stored: its length word, poisoned in bit 63, and itself (R237, R321). DESIGN CHOICE (log entry 43): the word
stands most significant byte first. -/
def Stored.image (x : Stored) : List Byte :=
  ((List.range 8).map fun k => BitVec.ofNat 8 ((x.poisoned.toNat * 2 ^ 63 + x.bytes.length) / 256 ^ (7 - k))) ++ x.bytes

/-- Frames packed end to end (R237). -/
def queueStream (q : List Stored) : List Byte := q.flatMap Stored.image

/-- Tile k of a queue whose first tile has given up the bytes `taken` (R237, R319). -/
def queueTile (taken : List Byte) (q : List Stored) (k : Nat) : List Byte :=
  ((taken ++ queueStream q).drop (512 * k)).take 512

/-- A tile that is read as other bytes fails its tile check (R36, R319): CRC-32C over the bytes read against the check that
went with the bytes stored. -/
def tileFails (tile read : List Byte) : Bool := crc32c read != crc32c tile

/-- Bytes that frames take. -/
def queueBytes (q : List Stored) : Nat := (q.map Stored.size).sum

/-- Tiles that n bytes from position o of a tile take. -/
def tilesFor (o n : Nat) : Nat := if n = 0 then 0 else (o + n + 511) / 512

/-- A flow holds its priority asserted, with hysteresis (R244). -/
def State.assertEval (s : State) (f : Nat) : State :=
  let v := s.flow f
  let fill := s.nat .flowFill f
  if fEnable v && fPause v then
    if 512 * fXoff v ≤ fill then s.set .flowAsserting f 1
    else if fill ≤ 256 * fXoff v then s.set .flowAsserting f 0
    else s
  else s.set .flowAsserting f 0

/-- The priorities that a port asserts toward the host (R244). -/
def State.assertedNow (s : State) (p : Nat) : Nat :=
  let l := (s.listed .flowAsserting).filterMap fun e =>
    let v := s.flow e.1
    if fEnable v && fPause v && fPort v == p then some (fPrio v) else none
  (List.range 8).foldl (fun a i => if s.flag .xPoolPause 0 || l.contains i then a + 2 ^ i else a) 0

/-- A PFC frame leaves a port that is up. -/
def State.sendPfc (s : State) (p vector paused : Nat) : State :=
  if s.portDown p then s else (s.bump .portPfcSent p).emit (.pfc p vector paused)

/-- Port p asserts what its flows and the pool ask for; a change sends a PFC frame (R244). -/
def State.pfcEval (s : State) (p : Nat) : State :=
  if !s.flag .portEnable p then s.set .portPfcAssertedMask p 0
  else
    let was := s.nat .portPfcAssertedMask p
    let now := s.assertedNow p
    if was = now then s
    else
      let s := s.set .portPfcAssertedMask p (now : Nat)
      let gone := was - (was &&& now)
      let s := if now &&& was = now then s else s.sendPfc p now now
      if gone = 0 then s else s.sendPfc p gone 0

/-- The pool takes `used` tiles in place of `was`: free and lowest figures, source 65 and the pause of every port. -/
def State.poolMove (s : State) (was used : Nat) : State :=
  let s := s.set .poolFree 0 (s.get .poolFree 0 + was - used)
  let s := s.trough .poolLow 0 (s.get .poolFree 0)
  let low := decide (s.get .poolFree 0 < s.get .poolPauseLevel 0)
  let s := if low && !s.flag .xPoolLow 0 then (s.set .xPoolLow 0 1).raise (evDev 65) [] else s.setFlag .xPoolLow 0 low
  let pause := s.flag .xPoolPause 0
  if low && !pause then (s.set .xPoolPause 0 1).each (List.range 48) State.pfcEval
  else if pause && decide (s.get .poolPauseLevel 0 + 1048576 ≤ s.get .poolFree 0) then
    (s.set .xPoolPause 0 0).each (List.range 48) State.pfcEval
  else s

/-- Numbers that stand for places behind the n first, counted from there. -/
def movedUp (n : Nat) (l : List Nat) : List Nat := (l.filter fun k => decide (n ≤ k)).map (· - n)

/-- Tiles of flow f marked failed (R327). -/
def State.flowMarks (s : State) (f : Nat) : List Nat := bytesNumbers (s.blob .xFlowMarks f)

/-- n tiles of flow f are gone from its head. -/
def State.passMarks (s : State) (f n : Nat) : State :=
  if n = 0 then s else s.setBlob .xFlowMarks f (numberBytes (movedUp n (s.flowMarks f)))

/-- Fill of a flow set to n bytes, the head standing at position o of its tile. -/
def State.setFill (s : State) (f o n : Nat) : State :=
  let was := tilesFor (s.nat .xFlowOffset f) (s.nat .flowFill f)
  let s := if n = 0 then s.setBlob .xFlowMarks f [] else s.passMarks f (o / 512)
  let o := if n = 0 then 0 else o % 512
  let s := (s.set .flowFill f (n : Nat)).peak .flowPeak f n |>.set .xFlowOffset f (o : Nat)
  let s := (s.poolMove was (tilesFor o n)).assertEval f
  s.pfcEval (fPort (s.flow f))

/-- The taken bytes of the first tile of a packet queue replaced. -/
def State.setTaken (s : State) (f : Nat) (l : List Byte) : State :=
  { s with flowTaken := sput natLt [] s.flowTaken f l }

/-- A packet queue replaced, n bytes having left its head. -/
def State.putQueue (s : State) (f : Nat) (q : List Stored) (n : Nat) : State :=
  let o := s.nat .xFlowOffset f + n
  let taken := if q.isEmpty then []
    else ((sget s.flowTaken f [] ++ queueStream (s.queueOf f)).take o).drop (o / 512 * 512)
  let s := s.setTaken f taken
  ({ s with flowQueue := sput natLt [] s.flowQueue f q } : State).setFill f o (queueBytes q)

/-- Tile k of the queue of packet flow f, counted from its first. -/
def State.flowTile (s : State) (f k : Nat) : List Byte := queueTile (sget s.flowTaken f []) (s.queueOf f) k

/-- The words of a transparent flow replaced, n bytes having left its head. -/
def State.putWords (s : State) (f : Nat) (q : List Nat) (n : Nat) : State :=
  ({ s with flowWords := sput natLt [] s.flowWords f q } : State).setFill f (s.nat .xFlowOffset f + n) (8 * q.length)

/-- The contents of a flow queue discarded and counted (R245). -/
def State.flushFlow (s : State) (f : Nat) : State :=
  let n := s.nat .flowFill f
  if n = 0 then s else ((s.bump .flowFlushed f n).putQueue f [] 0).putWords f [] 0

/-- Every flow queue discarded (R41, R46). -/
def State.flushAll (s : State) : State := s.each ((s.listed .flowFill).map Prod.fst) State.flushFlow

/-- Words waiting for the line positions of a tributary replaced (R218). -/
def State.setWords (s : State) (t : Nat) (l : List Nat) : State :=
  { s with tribWords := sput natLt [] s.tribWords t l }

/-- Words waiting for the line positions of a tributary. -/
def State.lineWords (s : State) (t : Nat) : List Nat := sget s.tribWords t []

/-- What the line has brought tributary t. -/
def State.rxTrib (s : State) (t : Nat) : RxTrib := sget s.rxTribs t RxTrib.start

/-- What the line has brought a tributary replaced. -/
def State.setRxTrib (s : State) (t : Nat) (x : RxTrib) : State :=
  { s with rxTribs := sput natLt RxTrib.start s.rxTribs t x }

/-- Blocks in the egress buffer of a transparent port (R311). -/
def State.egressOf (s : State) (p : Nat) : List Block66 := sget s.egressBlocks p []

/-- The egress buffer of a transparent port replaced, its fill shown. -/
def State.setEgress (s : State) (p : Nat) (l : List Block66) (owed : Bool) : State :=
  ({ s with egressBlocks := sput natLt [] s.egressBlocks p l } : State).set .portRmFill p (l.length : Nat) |>.setFlag .xRmIdle p owed

/-- Frames of a receive tributary queue. -/
def State.tribQueueOf (s : State) (t : Nat) : List Stored := sget s.tribQueue t []

/-- Tiles of the receive queue of tributary t that failed, twice their number from the first and 1 more where counted (R323, R327). -/
def State.tribMarks (s : State) (t : Nat) : List Nat := bytesNumbers (s.blob .xTribMarks t)

/-- A receive queue replaced, n bytes having left its head; it takes tiles of the pool (R254). -/
def State.putTribQueue (s : State) (t : Nat) (q : List Stored) (n : Nat) : State :=
  let was := s.nat .xTribOffset t
  let all := s.tribQueueOf t
  let o := if q.isEmpty then 0 else was + n
  let taken := if q.isEmpty then [] else ((sget s.tribTaken t [] ++ queueStream all).take o).drop (o / 512 * 512)
  let s := s.setBlob .xTribMarks t (if q.isEmpty then [] else numberBytes (movedUp (2 * (o / 512)) (s.tribMarks t)))
  let s := { s with tribQueue := sput natLt [] s.tribQueue t q }
  let s := { s with tribTaken := sput natLt [] s.tribTaken t taken }
  (s.set .xTribOffset t (o % 512 : Nat)).poolMove (tilesFor was (queueBytes all)) (tilesFor (o % 512) (queueBytes q))

/-- Frames of a receive queue discarded and counted in 6900.03. -/
def State.dropTribQueue (s : State) (t : Nat) : State :=
  (s.bump .tribEgressDropped t (s.tribQueueOf t).length).putTribQueue t [] 0

/-- Tile k of the receive queue of tributary t, counted from its first. -/
def State.tribTile (s : State) (t k : Nat) : List Byte := queueTile (sget s.tribTaken t []) (s.tribQueueOf t) k

/-- A tile of the receive queue of tributary t is marked failed. -/
def State.markTrib (s : State) (t k : Nat) : State :=
  if (s.tribQueueOf t).isEmpty ∨ (s.tribMarks t).any fun m => m / 2 == k then s
  else s.setBlob .xTribMarks t (numberBytes (s.tribMarks t ++ [2 * k]))

/-- The oldest frame x of the receive queue of tributary t has left, q behind it: how many failed tiles its verification meets
first, and whether one of them holds a byte of it (R323). -/
def State.takeTrib (s : State) (t : Nat) (x : Stored) (q : List Stored) : State × Nat × Bool :=
  let last := (s.nat .xTribOffset t + x.size - 1) / 512
  let met := (s.tribMarks t).filter fun m => decide (m / 2 ≤ last)
  let s := s.when (!met.isEmpty) fun s => s.setBlob .xTribMarks t (numberBytes ((s.tribMarks t).map fun m =>
    if m / 2 ≤ last then m / 2 * 2 + 1 else m))
  (s.putTribQueue t q x.size, (met.filter fun m => m % 2 == 0).length, !met.isEmpty)

/-! ## Custody counts (R322, R324) -/

/-- n tile checks of tributary t failed at a custody point, carrier c where one holds it: counted, and source 96 once per
tributary per aligned second. -/
def State.custodyAt (s : State) (point t : Nat) (c : Option Nat) (n : Nat) (flow : Option Nat) : State :=
  if n = 0 then s
  else
    let s := s.bump .custodyFail (point - 1) n
    if s.newSecond .xPortSecond96 t then
      (s.markSecond .xPortSecond96 t).raise (evDev 96)
        [u8 point, u16 t, u16 ((c.getD 0xFFFF : Nat)), u16 ((flow.getD 0xFFFF : Nat))]
    else s

/-- n tile checks of tributary t failed at a custody point of the fabric, which names the carrier of its order-0 slot. -/
def State.custodyFailed (s : State) (point t n : Nat) (flow : Option Nat) : State :=
  s.custodyAt point t (s.orderZero (if point ≤ 3 then 0 else 1) t) n flow

/-! ## Transparent streams (R247, R248, R322 point 1) -/

/-- Transparent words lost or missing: counted, and source 66 names the tributary. -/
def State.slip (s : State) (t n : Nat) : State :=
  if n = 0 then s else (s.bump .calSlips 0 n).raise (evDev 66) [u16 t]

/-- The next n words of transparent flow f as the mapper sends them on tributary t: zero words where the queue is empty. Tiles that
failed count as their last word goes; a word that is missing costs the block under way and counts a tile. -/
def State.takeWords (s : State) (f t n : Nat) : State × List Nat :=
  let q := s.wordsOf f
  let o := s.nat .xFlowOffset f
  let marks := s.flowMarks f
  let got := (q.take n).zipIdx.map fun e => (e.1, marks.contains ((o + 8 * e.2) / 512))
  let r := PcsRun.words ⟨s.nat .xPcsGone f, s.flag .xPcsBad f, 0⟩ got
  let short := n - got.length
  let met := marks.filter fun k => decide (512 * (k + 1) ≤ o + 8 * got.length) || q.length ≤ n
  let s := (s.putWords f (q.drop n) (8 * got.length)).set .xPcsGone f (r.1.gone : Nat)
  let s := s.setFlag .xPcsBad f (r.1.bad || decide (0 < short))
  let s := (s.custodyFailed 1 t (met.length + (if short = 0 then 0 else 1)) (some f)).bump .custodyBlocksReplaced 0 r.1.count
  (s.slip t short, r.2 ++ List.replicate short 0)

/-- Tiles of the queue of a transparent flow come back from its memory: those that fail are marked. -/
def State.readWords (s : State) (f : Nat) (reads : List TileRead) : State :=
  s.each reads fun s e =>
    let tile := ((s.wordsOf f).zipIdx.filter fun w => (s.nat .xFlowOffset f + 8 * w.2) / 512 == e.tile).flatMap
      fun w => bigEndian 8 (w.1 % 2 ^ 64)
    if tile.isEmpty ∨ !tileFails tile e.bytes ∨ (s.flowMarks f).contains e.tile then s
    else s.setBlob .xFlowMarks f (numberBytes (s.flowMarks f ++ [e.tile]))

/-! ## Frames (R238, R240, R255) -/

/-- The outer tag of a frame from byte k on: the first VLAN tag whose TPID is enabled, as its 16 bits (R238); tags whose TPID is not
enabled are passed over. -/
def tagFrom (tpids : Nat) (l : List Byte) : Nat → Nat → Option Nat
  | 0, _ => none
  | n + 1, k =>
    let ty := 256 * (l.getD k 0).toNat + (l.getD (k + 1) 0).toNat
    let hit := (ty == 0x8100 && bitOf tpids 0) || (ty == 0x88A8 && bitOf tpids 1) || (ty == 0x9100 && bitOf tpids 2)
    if hit then some (256 * (l.getD (k + 2) 0).toNat + (l.getD (k + 3) 0).toNat)
    else if ty = 0x8100 ∨ ty = 0x88A8 ∨ ty = 0x9100 then tagFrom tpids l n (k + 4)
    else none

/-- The outer tag of a frame: tags stand from byte 12 on, as many as the frame holds. -/
def outerTag (tpids : Nat) (l : List Byte) : Option Nat := tagFrom tpids l (l.length / 4) 12

/-- Classifier key of a frame on a port (R238). -/
def frameKey (tpids p : Nat) (l : List Byte) : Nat :=
  match outerTag tpids l with
  | some tag =>
    let vid := tag % 4096
    if 1 ≤ vid ∧ vid ≤ 4094 then p * 8192 + 4096 + vid else p * 8192
  | none => p * 8192

/-- Priority of a frame: the PCP of its outer tag, 0 without one (R254). -/
def framePriority (tpids : Nat) (l : List Byte) : Nat :=
  match outerTag tpids l with
  | some tag => tag / 8192
  | none => 0

/-- The flow that a key names in the classifier table. -/
def State.lookup (s : State) (key : Nat) : Option Nat :=
  let v := sget s.classifier key 0
  if v = 0 then none else some (v - 1)

/-- The flow of a frame by the classifier key of a port, in mode 1; the default flow where there is none (R238). -/
def State.classify (s : State) (p : Nat) (l : List Byte) : Nat :=
  let dflt := s.nat .portClsDefaultFlow p
  if s.get .portClsMode p = 0 then dflt
  else (s.lookup (frameKey (s.nat .portClsTpidSet p) p l)).getD dflt

/-- A flow's frame and byte counters take a frame (R393). -/
def State.countFlow (s : State) (f n : Nat) : State := (s.bump .flowcountFrames f).bump .flowcountBytes f n

end Sys2Proof.Machine
end

