-- ==== Sys2Proof/Machine/Cipher.lean ====
section
/-! DEFINITION. Key slots, key-encryption keys, bindings, cipher blocks and the twin-checked cores (R264 to R292), with the
counter leases of Pair (R274, R459). Register r of slot n is unit 2n + r; transmit bindings are units 0 to 3,839, receive
bindings 3,840 on. -/

namespace Sys2Proof.Machine

/-! ## Pair, as the cipher sees it (R273, R274, R458) -/

/-- The device is in Pair. -/
def State.inPair (s : State) : Bool := s.mode == 4
/-- In the active role of Pair. -/
def State.pairActive (s : State) : Bool := s.inPair && s.get .pairRole 0 == 1
/-- In the standby role of Pair. -/
def State.pairStandby (s : State) : Bool := s.inPair && s.get .pairRole 0 == 2
/-- The tie link is up. -/
def State.tieUp (s : State) : Bool := s.get .tieState 0 == 2

/-- A tie message leaves on the locked lanes, where there is one (R454). -/
def State.tieSend (s : State) (o : Output) : State :=
  if s.get .tieLanesLocked 0 = 0 then s else (s.bump .tieSent 0).emit o

/-! ## Slots (R277, R278) -/

/-- State of register r of slot n. -/
def State.regState (s : State) (n r : Nat) : Nat := s.nat .xSlotReg (2 * n + r)

/-- Binding mode. -/
def bMode (v : Nat) : Nat := field v 30 2
/-- Block length code. -/
def bBlen (v : Nat) : Nat := field v 28 2
/-- Shedding rank. -/
def bShed (v : Nat) : Nat := field v 26 2
/-- Key slot. -/
def bSlot (v : Nat) : Nat := field v 0 13

/-- Positions that a block adds to its payload words (R265). -/
def blockOverhead (mode : Nat) : Nat := if mode = 0 then 0 else if mode = 3 then 2 else 4

/-- Payload words of a full block (Table: Block positions). -/
def blockWords (v : Nat) : Nat := 64 * 2 ^ bBlen v

/-- Payload words that n data positions of a tributary carry (R265). -/
def payloadOf (v n : Nat) : Nat :=
  let h := blockOverhead (bMode v)
  let b := blockWords v
  n / (b + h) * b + (n % (b + h) - h)

/-- Binding in force of tributary t in direction dir; plain on a Compatible carrier (R264). -/
def State.binding (s : State) (dir t : Nat) : Nat :=
  if (s.tribCarriers dir t).any fun c => s.nat .carrierFecProfileInForce c == profCompatible then 0
  else s.working .bindInForce 139264 (3840 * dir + t)

/-- Tributaries that use slot n in direction dir (R278): bound, enciphered, with a row on a carrier not in Idle. -/
def State.slotUsers (s : State) (dir n : Nat) : List Nat :=
  ((s.listed .bindInForce).filterMap fun e => if e.1 / 3840 = dir then some (e.1 % 3840) else none).filter fun t =>
    let v := s.binding dir t
    bMode v != 0 && bSlot v == n && (s.tribCarriers dir t).any fun c => !s.idle c

/-- Slot n is in use in direction dir. -/
def State.slotInUse (s : State) (dir n : Nat) : Bool := !(s.slotUsers dir n).isEmpty

/-- 7010.04 (table Slot status). -/
def State.slotStatusOf (s : State) (n : Nat) : Nat :=
  let a := s.nat .xSlotActive n
  let b := fun (v : Bool) (k : Nat) => if v then 2 ^ k else 0
  1024 * s.regState n 1 + 256 * s.regState n 0 + b (s.flag .xSlotWarned (2 * n + a)) 5 + b (s.slotInUse 0 n) 4
    + b (s.slotInUse 1 n) 3 + b (s.flag .xSlotTxPend n || s.flag .xSlotRxPend n) 2 + 2 * a
    + b (s.regState n 0 != 0 || s.regState n 1 != 0) 0

/-- The sender bit of the counters: PAIR_ROLE in Pair, else 0 (R273). -/
def State.senderBit (s : State) : Nat := if s.inPair && s.bit .bootStraps 0 8 then 2 ^ 63 else 0

/-- Count bits of a counter: 63 in Pair, else 64. -/
def State.countBits (s : State) : Nat := if s.inPair then 63 else 64

/-- Next invocation counter of a register. -/
def State.invocation (s : State) (i : Nat) : Nat := s.nat .xSlotCount i % 2 ^ s.countBits + s.senderBit

/-- A register erased. -/
def State.eraseReg (s : State) (i : Nat) : State :=
  s |>.set .xSlotReg i 0 |>.setBlob .xSlotKey i [] |>.set .xSlotKid i 0 |>.set .xSlotCount i 0 |>.set .xSlotWarned i 0
    |>.set .xLease i 0 |>.set .xLeaseAck i 0 |>.set .xLeaseNew i 0 |>.set .xLeaseOut i 0

/-- Both registers of a slot erased; a pending switch is abandoned (R280, R292). -/
def State.eraseSlot (s : State) (n : Nat) : State :=
  (s.eraseReg (2 * n)).eraseReg (2 * n + 1) |>.set .xSlotActive n 0 |>.set .xSlotTxPend n 0 |>.set .xSlotRxPend n 0
    |>.set .xSlotDone n 0

/-- Every slot erased, as by ZERO_N (R281). -/
def State.eraseAllSlots (s : State) : State :=
  s.each (((s.listed .xSlotReg).map fun e => e.1 / 2).eraseDups) State.eraseSlot

/-- A lease of a generation sent to the standby (R274). -/
def State.leaseGrant (s : State) (i l : Nat) : State :=
  (s.set .xLease i (l : Nat)).tieSend (.tieLease (i / 2) (i % 2) l)

/-- The first lease of a generation in use on transmit, for the active role (R274). -/
def State.leaseFirst (s : State) (i : Nat) : State :=
  if s.pairActive && s.slotInUse 0 (i / 2) then s.leaseGrant i (s.nat .xSlotCount i + 2 ^ 32) else s

/-- Generations in use on transmit. -/
def State.txGenerations (s : State) : List Nat :=
  (s.listed .xSlotReg).filterMap fun e => if s.slotInUse 0 (e.1 / 2) && (e.2 == 1 || e.2 == 2) then some e.1 else none

/-- A key taken into slot n (R278): into register 0 of an empty slot, else into the register that is not active, it becomes the
next generation, or the active one where the slot is not in use. -/
def State.installKey (s : State) (n : Nat) (key : List Byte) (kid count : Nat) : State :=
  let empty := s.regState n 0 == 0 && s.regState n 1 == 0
  let r := if empty then 0 else 1 - s.nat .xSlotActive n
  let i := 2 * n + r
  let s := (s.eraseReg i).setBlob .xSlotKey i key |>.set .xSlotKid i (kid : Nat)
    |>.set .xSlotCount i (count % 2 ^ s.countBits : Nat) |>.set .xSlotDone n 0 |>.set .xSlotSerial n (s.get .xSlotSerial n + 1)
  let tx := s.slotInUse 0 n
  let rx := s.slotInUse 1 n
  let s :=
    if !(tx || rx) then
      ((s.set .xSlotReg i 1).set .xSlotActive n (r : Nat) |>.set .xSlotTxPend n 0 |>.set .xSlotRxPend n 0).eraseReg
        (2 * n + (1 - r))
    else
      ((s.set .xSlotReg i 2).set .xSlotActive n ((1 - r : Nat) : Int)).setFlag .xSlotTxPend n tx |>.setFlag .xSlotRxPend n rx
  (s.set .xSlotUnsync n 0).leaseFirst i

/-- A load descriptor read: key-encryption key, counter, and the wrapped 48 bytes. -/
structure LoadDescriptor where
  kek : Nat
  count : Nat
  wrapped : List Byte
deriving DecidableEq, Repr

/-- Table Load descriptor. -/
def loadDescriptor (d : List Byte) : LoadDescriptor :=
  ⟨(d.getD 0 0).toNat, leNat ((d.drop 4).take 8), (d.drop 12).take 48⟩

/-- The wrapped key data under a programmed key-encryption key. -/
def State.unwrap (s : State) (x : LoadDescriptor) : Option (List Byte) :=
  (keyUnwrap (natBytes (s.blob .xKekFuse x.kek)) (natBytes x.wrapped)).map byteList

/-- The code a load of slot n is refused with, 0 where it is accepted (R277); `forwarded` leaves out code 8 (R458). The mode is asked
first, as R348 has it; of the other codes the order is the model's (DESIGN CHOICE, log entry 48). -/
def State.loadCode (s : State) (n : Nat) (d : List Byte) (forwarded : Bool) : Nat :=
  let x := loadDescriptor d
  let whole := d.length == 60
  if 8191 < n then 1
  else if s.mode = 0 then 5
  else if whole && (3 < x.kek || s.get .kekState x.kek != 2) then 2
  else if whole && (s.unwrap x).isNone then 3
  else if whole && ((s.unwrap x).map fun k => leNat ((k.drop 36).take 2)) != some n then 4
  else if s.flag .cipherZero 0 then 6
  else if s.flag .xSlotTxPend n then 7
  else if !forwarded && s.pairStandby then 8
  else if !whole || ((d.drop 1).take 3).any (fun b => b != 0) then 9
  else 0

/-- The key of an accepted descriptor installed. -/
def State.loadKey (s : State) (n : Nat) (d : List Byte) : State :=
  let x := loadDescriptor d
  match s.unwrap x with
  | some k => (s.installKey n (k.take 36) (leNat ((k.drop 38).take 2)) x.count).bump .slotLoads 0
  | none => s

/-- 7010.02 written (R277): a refused load leaves the slot and raises source 86; an accepted one is forwarded in Pair
(R458). -/
def writeSlotLoad (n : Nat) (d : List Byte) (s : State) : State × Answer :=
  let code := s.loadCode n d false
  if code ≠ 0 then
    ((s.set .slotRefusal n (code : Nat)).raise (evDev 86) [], if code = 5 then refusedMode 5 else refusedFor code)
  else
    let s := s.loadKey n d
    (if s.pairActive then (s.bump .xTieSlot 0).tieSend (.tieKey (s.nat .xTieSlot 0) n (some d)) else s, accepted)

/-- The slot that a client's select names. -/
def State.slotSel (s : State) (cl : Client) : Nat := (s.sel cl .slotSelect).toNat

/-- KEY_LOAD (R277). -/
def execKeyLoad (cl : Client) (d : List Byte) (s : State) : Host.Outcome State Fault Refusal :=
  .next (s.serveWrite cl .slotLoad 0 (.bytes d) (writeSlotLoad (s.slotSel cl) d))

/-- 7010.03 written (R280); refused on the standby like a load (R460), forwarded by the active (R458). -/
def writeSlotErase (n : Nat) (s : State) : State × Answer :=
  if 8191 < n then ((s.set .slotRefusal n 1).raise (evDev 86) [], refusedFor 1)
  else if s.pairStandby then ((s.set .slotRefusal n 8).raise (evDev 86) [], refusedFor 8)
  else
    let s := s.eraseSlot n
    (if s.pairActive then (s.bump .xTieSlot 0).tieSend (.tieKey (s.nat .xTieSlot 0) n none) else s, accepted)

/-- KEY_ERASE (R280). -/
def execKeyErase (cl : Client) (s : State) : Host.Outcome State Fault Refusal :=
  .next (s.serveWrite cl .slotErase 0 (.int 1) (writeSlotErase (s.slotSel cl)))

/-- Every tributary that uses slot n on transmit has switched to the generation loaded last (R278). -/
def State.txSwitched (s : State) (n : Nat) : Bool :=
  (s.slotUsers 0 n).all fun t => s.get .xTxSwitched t == s.get .xSlotSerial n

/-- The next register of slot n is the active one, exhausted where it has become so meanwhile (R273); the other is erased. -/
def State.nextActive (s : State) (n : Nat) : State :=
  let a := s.nat .xSlotActive n
  ((s.eraseReg (2 * n + a)).set .xSlotActive n ((1 - a : Nat) : Int)).set .xSlotReg (2 * n + (1 - a))
    (if s.regState n (1 - a) = 3 then 3 else 1)

/-- The last block under the old register leaves its core (R278): once every transmit tributary has switched, or a good block has
come under the next register, the old one is erased and source 81 raised. A switch that no tributary is left to make is made (DESIGN
CHOICE, log entry 48). -/
def State.switchComplete (s : State) (n : Nat) : State :=
  let clear := fun (s : State) =>
    (s.set .xSlotTxPend n 0 |>.set .xSlotRxPend n 0 |>.set .xSlotDone n 0).raise (evDev 81) []
  if s.flag .xSlotTxPend n then (if s.txSwitched n then clear (s.nextActive n) else s)
  else if !s.flag .xSlotRxPend n then s
  else if s.flag .xSlotDone n then clear (s.eraseReg (2 * n + (1 - s.nat .xSlotActive n)))
  else if s.slotInUse 1 n then s
  else clear (s.nextActive n)

/-- KEY_SWITCH_COMPLETE (R278). -/
def execKeySwitchComplete (n : Fin 8192) (s : State) : Host.Outcome State Fault Refusal :=
  s.live fun s => s.switchComplete n

/-- ZERO_N low works in every mode and during reset (R281); a standby's slots are unsynchronised until reloaded (R467). -/
def State.zeroFall (s : State) : State :=
  let held := ((s.listed .xSlotReg).map fun e => e.1 / 2).eraseDups
  let s := if s.pairStandby then s.each held fun s n => s.set .xSlotUnsync n 1 else s
  (s.set .cipherZero 0 1).eraseAllSlots.raise (evDev 87) []

/-- ZERO_N_FALL (R281). -/
def execZeroNFall (s : State) : Host.Outcome State Fault Refusal :=
  .next (if s.phase == .running then s.zeroFall else (s.set .cipherZero 0 1).eraseAllSlots)

/-- ZERO_N_RISE (R281). -/
def execZeroNRise (s : State) : Host.Outcome State Fault Refusal := .next (s.set .cipherZero 0 0)

/-! ## Key-encryption keys (R275, R276) -/

/-- The check value of a key: the first 4 bytes of a zero block enciphered, most significant first. -/
def kcvOf (key : List Byte) : Nat := beNat ((aesEncrypt (roundKeys (natBytes key)) (List.replicate 16 0)).take 4)

/-- The code a key-encryption key operation is refused with; 0 where it is accepted. -/
def State.kekCode (s : State) (n : Nat) (op : Int) : Nat :=
  let m := s.get .deviceModeState 0
  let st := s.get .kekState n
  if m ≠ 0 ∧ m ≠ 1 then 1
  else if !s.flag .cipherKeyprov 0 then 2
  else if op = 1 then (if st ≠ 0 then 3 else if (s.blob .kekValue n).isEmpty then 4 else 0)
  else if st ≠ 2 ∧ st ≠ 4 then 3
  else 0

/-- 7001.03 written (R276): a refusal zeroes the staged value; a revocation completes at once. -/
def writeKek (n : Nat) (op : Int) (s : State) : State × Answer :=
  let code := s.kekCode n op
  if code ≠ 0 then
    ((s.set .kekRefusal n (code : Nat)).setBlob .kekValue n [], if code = 1 then refusedMode 1 else refusedFor code)
  else if op = 1 then ((s.set .kekState n 1).setBlob .xKekFuse n (s.blob .kekValue n), accepted)
  else
    ((s.set .kekState n 3).setBlob .xKekFuse n [] |>.set .kekKcv n 0 |>.raise (evDev 88) [], accepted)

/-- KEK_PROGRAM (R276). -/
def execKekProgram (cl : Client) (n : Fin 4) (s : State) : Host.Outcome State Fault Refusal :=
  .next (s.serveWrite cl .kekOp n (.int 1) (writeKek n 1))

/-- KEK_REVOKE (R276). -/
def execKekRevoke (cl : Client) (n : Fin 4) (s : State) : Host.Outcome State Fault Refusal :=
  .next (s.serveWrite cl .kekOp n (.int 2) (writeKek n 2))

/-- Programming ends with the read-back. -/
def State.kekComplete (s : State) (n : Nat) (good : Bool) : State :=
  if s.get .kekState n ≠ 1 then s
  else
    let s := if good then (s.set .kekState n 2).set .kekKcv n (kcvOf (s.blob .xKekFuse n) : Nat)
      else s.set .kekState n 4
    (s.setBlob .kekValue n []).raise (evDev 88) []

/-- KEK_PROGRAM_COMPLETE (R276). The fuses hold the value that was staged when programming began, whether or not
KEYPROV_N has risen since. -/
def execKekProgramComplete (n : Fin 4) (good : Bool) (s : State) : Host.Outcome State Fault Refusal :=
  s.live fun s => s.kekComplete n good

/-- KEYPROV_N high zeroes every staged value (R276). -/
def State.keyprovRise (s : State) : State :=
  (s.set .cipherKeyprov 0 0).each [0, 1, 2, 3] fun s n => s.setBlob .kekValue n []

/-- KEYPROV_N_RISE (R276). -/
def execKeyprovNRise (s : State) : Host.Outcome State Fault Refusal := .next s.keyprovRise

/-- KEYPROV_N_FALL (R276). -/
def execKeyprovNFall (s : State) : Host.Outcome State Fault Refusal := .next (s.set .cipherKeyprov 0 1)

/-! ## Cores and shedding (R285 to R288) -/

/-- Capacity of a tributary in units of 2⁻⁶ Gb/s per multiframe time: T words at b kBd, as T × 64 × b (R288). -/
def State.demandOf (s : State) (dir t : Nat) : Nat :=
  match s.orderZero dir t with
  | some c => s.tribCapacity dir t * 64 * s.dirRate dir c
  | none => 0

/-- Enciphered tributaries in force in a direction. -/
def State.enciphered (s : State) (dir : Nat) : List Nat :=
  (((s.listed .bindInForce).filterMap fun e => if e.1 / 3840 = dir then some (e.1 % 3840) else none)).filter fun t =>
    bMode (s.binding dir t) != 0

/-- One Gb/s in the units of State.demandOf. -/
def demandUnit : Nat := 16777216 * 1000000

/-- Tributaries refused, in order of the list, until the demand left fits. -/
def shedUntil (cap : Nat) : Nat → List (Nat × Nat) → List Nat
  | _, [] => []
  | d, (t, x) :: l => if d ≤ cap then [] else t :: shedUntil cap (d - x) l

/-- Insertion of a tributary by (rank, highest number first). -/
def shedInsert (rank : Nat → Nat) (t : Nat) : List Nat → List Nat
  | [] => [t]
  | h :: l => if rank t < rank h ∨ (rank t = rank h ∧ h < t) then t :: h :: l else h :: shedInsert rank t l

/-- Demand against capacity (R288): 7000.01, .04, .05, .06 and the shed sets; a change raises source 85. -/
def State.capacityCheck (s : State) : State :=
  let tx := s.enciphered 0
  let rx := s.enciphered 1
  let cores := 52 - ((List.range 52).filter fun n => s.bit .cipherRetired 0 n).length
  let cap := cores * 800
  let d := (tx.map (s.demandOf 0)).sum + (rx.map (s.demandOf 1)).sum
  let order := fun (l : List Nat) (rank : Nat → Nat) => l.foldl (fun a t => shedInsert rank t a) []
  let outTx := shedUntil (cap * demandUnit) d
    ((order tx fun t => bShed (s.binding 0 t)).map fun t => (t, s.demandOf 0 t))
  let left := d - (outTx.map (s.demandOf 0)).sum
  let outRx := if outTx.length < tx.length then []
    else shedUntil (cap * demandUnit) left ((order rx fun _ => 0).map fun t => (t, s.demandOf 1 t))
  let same := tx.all (fun t => s.flag .xShedTx t == outTx.contains t)
    && rx.all (fun t => s.flag .xShedRx t == outRx.contains t)
    && ((s.listed .xShedTx).length == outTx.length) && ((s.listed .xShedRx).length == outRx.length)
  let s := s |>.set .cipherCoresInService 0 (cores : Nat) |>.set .cipherCapacity 0 (cap : Nat)
    |>.set .cipherDemand 0 (d / demandUnit : Nat)
  if same then s
  else
    let s := s.each ((s.listed .xShedTx).map Prod.fst) fun s t => s.set .xShedTx t 0
    let s := s.each ((s.listed .xShedRx).map Prod.fst) fun s t => s.set .xShedRx t 0
    let s := s.each outTx fun s t => s.set .xShedTx t 1
    let s := s.each outRx fun s t => s.set .xShedRx t 1
    (s.set .cipherShed 0 (outTx.length + outRx.length : Nat)).raise (evDev 85) []

/-- A core retired after a twin mismatch (R286). -/
def State.retireCore (s : State) (core : Nat) : State :=
  ((s.bump .cipherMismatches 0).setBit .cipherRetired 0 core true).raise (evDev 84) [] |>.capacityCheck

/-- The core that takes a block given to core n: the scheduler passes over cores out of service (R285). -/
def State.coreFor (s : State) (n : Nat) : Nat :=
  if s.bit .cipherRetired 0 n then ((List.range 52).find? fun k => !s.bit .cipherRetired 0 k).getD n else n

/-- Both runs of a block: the state after the retirements, and whether the block may be released (R286). -/
def State.twins (s : State) (k : TwinReading) : State × Bool :=
  if !k.mismatch then (s, true)
  else
    let s := s.retireCore (s.coreFor k.core)
    if !k.mismatchAgain then (s, true) else (s.retireCore (s.coreFor k.second), false)

/-- Every core back in service after its known-answer test (R287): those that fail stay retired. -/
def State.coresTested (s : State) (failed : List Nat) : State :=
  (s.set .cipherRetired 0 ((List.range 52).foldl (fun a n => if failed.contains n then a + 2 ^ n else a) 0 : Nat)).capacityCheck

/-! ## Transmit blocks (R265 to R274, R286) -/

/-- Header word 1 of a block (R266). -/
def headerOne (word0 gen mode len kid : Nat) : Nat :=
  let top := gen * 2 ^ 63 + mode * 2 ^ 61 + len * 2 ^ 48 + kid * 2 ^ 32
  top + crc8 120 (word0 * 2 ^ 56 + top / 256)

/-- Header bytes. -/
def headerBytes (word0 word1 : Nat) : List Nat := beBytes 8 word0 ++ beBytes 8 word1

/-- The payload and tag words that a block carries in its mode under a key register (R270, R271). -/
def cipherWords (mode : Nat) (key salt header : List Nat) (payload : List Nat) : List Nat × List Nat :=
  let rk := roundKeys key
  let iv := salt ++ header.take 8
  if mode = 1 then
    let ct := counterMode rk iv payload
    (ct, gcmTag rk iv header ct)
  else if mode = 2 then (payload, gcmTag rk iv (header ++ payload) [])
  else (counterMode rk iv payload, [])

/-- The bytes of failed payload tiles (64 words each) complemented (R322 point 2). -/
def complementTiles (failed : List Nat) (l : List Nat) : List Nat :=
  l.zipIdx.map fun x => if failed.contains (x.2 / 512) then 255 - x.1 else x.1

/-- Tiles of 512 bytes that are read as other bytes (R36, R319). -/
def failedReads (l : List Byte) (reads : List TileRead) : List Nat :=
  (reads.filter fun e => let tile := (l.drop (512 * e.tile)).take 512; !tile.isEmpty && tileFails tile e.bytes).map TileRead.tile

/-- Bytes of a refused block in the place of a data block of a mode (R267). -/
def refusedBlock (mode len : Nat) : List Nat :=
  headerBytes 0 (headerOne 0 0 0 len 0) ++ List.replicate (len + (if mode = 3 then 0 else 16)) 0

/-- The standby moves to a new lease at a block boundary (R459). -/
def State.leaseTake (s : State) (i : Nat) : State :=
  if s.pairStandby ∧ s.get .xLeaseNew i ≠ 0 then
    s |>.set .xLease i (s.get .xLeaseNew i) |>.set .xSlotCount i (s.get .xLeaseNew i) |>.set .xLeaseNew i 0
      |>.set .xLeaseOut i 0
  else s

/-- The lease lets the next count be sent (R274, R459). -/
def State.leaseOk (s : State) (i : Nat) : Bool :=
  if s.pairActive then !s.tieUp || s.get .xLeaseAck i == 0 || decide (s.get .xSlotCount i < s.get .xLeaseAck i)
  else if s.pairStandby then
    s.get .xLease i != 0 && decide (s.get .xSlotCount i < s.get .xLease i + 2 ^ 32 - 1)
  else true

/-- Data may not be sent on an enciphered tributary: no generation to send under, shed, or out of lease (R267, R273). -/
def State.cipherRefuses (s : State) (t : Nat) : Bool :=
  let v := s.binding 0 t
  let n := bSlot v
  let a := s.nat .xSlotActive n
  let g := if s.flag .xSlotTxPend n && decide (2 ≤ s.regState n (1 - a)) then 1 - a else a
  let i := 2 * n + g
  bMode v != 0 && (s.flag .xShedTx t || !(s.regState n g == 1 || s.regState n g == 2)
    || !(s.leaseOk i || (s.pairStandby && s.get .xLeaseNew i != 0)))

/-- Transmit fill code where the carriers of a list hold the slots of a tributary (R249, R267). -/
def State.fillCodeOn (s : State) (carriers : List Nat) (t : Nat) : Nat :=
  if s.fillOn carriers t = 0 ∧ s.cipherRefuses t then 3 else s.fillOn carriers t

/-- Transmit fill code of a tributary (R249, R267). -/
def State.fillCode (s : State) (t : Nat) : Nat := s.fillCodeOn (s.tribCarriers 0 t) t

/-- The key generation tributary t sends under at this block boundary: a pending switch takes it to the next register
(R278). -/
def State.txSwitch (s : State) (t n : Nat) : State :=
  let a := s.nat .xSlotActive n
  if s.flag .xSlotTxPend n && decide (2 ≤ s.regState n (1 - a)) then
    (s.set .cryptTxGen t (1 - a : Nat)).set .xTxSwitched t (s.get .xSlotSerial n)
  else s.set .cryptTxGen t (a : Nat)

/-- A generation in use that has no lease, or whose count has come within 2³¹ of it, is granted one (R274). -/
def State.leaseDue (s : State) (i : Nat) : State :=
  if !s.pairActive then s
  else if s.get .xLease i = 0 then s.leaseFirst i
  else if s.get .xLease i ≤ s.get .xSlotCount i + 2 ^ 31 then s.leaseGrant i (s.nat .xLease i + 2 ^ 32)
  else s

/-- A data block was sent under register i: its counter rises; half range warns, the last value exhausts (R272, R273);
in Pair leases are granted and overruns counted (R274). -/
def State.countBlock (s : State) (i : Nat) : State :=
  let bits := s.countBits
  let v := s.nat .xSlotCount i % 2 ^ bits
  let s := if s.pairActive && !s.tieUp && s.get .xLeaseAck i != 0 && decide (s.get .xLeaseAck i ≤ v) then
      s.bump .slotLeaseOverruns (i / 2)
    else s
  let s :=
    if v + 1 = 2 ^ bits then (s.set .xSlotReg i 3).raise (evDev 83) []
    else
      let s := s.set .xSlotCount i (v + 1 : Nat)
      if 2 ^ (bits - 1) ≤ v + 1 ∧ !s.flag .xSlotWarned i then (s.set .xSlotWarned i 1).raise (evDev 82) [] else s
  s.leaseDue i

/-- Core header of a GFP idle frame (R246, log entry 44). -/
def gfpIdle : List Byte := [0xB6, 0xAB, 0x31, 0xE0]

/-- GFP bytes fill the data words of a tributary, first byte in bits 63:56; those of an enciphered one wait for its blocks
(R265). -/
def State.gfpPut (s : State) (t : Nat) (l : List Byte) : State :=
  if bMode (s.binding 0 t) ≠ 0 then s.setBlob .xClear t (s.blob .xClear t ++ l)
  else
  let b := s.blob .xGfpBytes t ++ l
  let n := b.length / 8 * 8
  (s.setWords t (s.lineWords t ++ wordsOfBytes (b.take n))).setBlob .xGfpBytes t (b.drop n)

/-- A block goes to the data positions of its tributary (R265). -/
def State.sendBlock (s : State) (t : Nat) (l : List Byte) : State :=
  (s.setWords t (s.lineWords t ++ wordsOfBytes l)).emit (.txBlock t l)

/-- A refused block sent and counted. -/
def State.txRefuse (s : State) (t mode len : Nat) : State :=
  (s.bump .cryptTxRefused t).sendBlock t (byteList (refusedBlock mode len))

/-- Data positions of the multiframe under way of tributary t that no block has (R265). -/
def State.blockRoom (s : State) (t : Nat) : Nat := s.nat .xTribCmNow t - (s.lineWords t).length

/-- Payload words of the next block of a binding with n positions left (R265): b, or in the final block all that its overhead
leaves. -/
def blockPayload (v n : Nat) : Nat := min (blockWords v) (n - blockOverhead (bMode v))

/-- The payload of the next block of tributary t, n bytes (R265): of a transparent flow the next words of its queue, of packet flows
their GFP frames filled up with idle frames; where those hold nothing, the words given, filled up alike. Of an idle frame begun in
the block the rest goes into the next. -/
def State.takeContent (s : State) (t n : Nat) (given : List Byte) : State × List Byte :=
  match s.transparentFlow t with
  | some f =>
    let r := s.takeWords f t (n / 8)
    (r.1, r.2.flatMap (bigEndian 8))
  | none =>
    let b := s.blob .xClear t
    let s := if b.isEmpty then s
      else s.setBlob .xClear t (if n ≤ b.length then b.drop n else gfpIdle.drop (4 - (4 - (n - b.length) % 4) % 4))
    (s, ((if b.isEmpty then given else b) ++ (List.replicate (n / 4 + 1) gfpIdle).flatten).take n)

/-- The positions left are too few for a block: they carry zero words (R265). -/
def State.zeroWords (s : State) (t n : Nat) : State := s.setWords t (s.lineWords t ++ List.replicate n 0)

/-- A data block of tributary t under register i of its slot, key identifier and counter those of the register, in n bytes of payload:
tiles whose plaintext check fails go out complemented (R322 point 2). -/
def State.txData (s : State) (t i n : Nat) (given : List Byte) (reads : List TileRead) (k : TwinReading) : State :=
  let mode := bMode (s.binding 0 t)
  let (s, payload) := s.takeContent t n given
  let failed := ((failedReads payload reads) ++ bytesNumbers (s.blob .xClearMarks t)).eraseDups
  let key := natBytes (s.blob .xSlotKey i)
  let word0 := s.invocation i
  let header := headerBytes word0 (headerOne word0 (i % 2) mode n (s.nat .xSlotKid i))
  let w := cipherWords mode (key.take 32) (key.drop 32) header (natBytes payload)
  let (s, good) := s.twins k
  let s := ((s.custodyFailed 2 t failed.length (s.transparentFlow t)).bump .custodyTilesComplemented 0 failed.length).setBlob
    .xClearMarks t []
  if good then
    ((s.countBlock i).bump .cryptTxBlocks t).sendBlock t (byteList (header ++ complementTiles failed w.1 ++ w.2))
  else s.txRefuse t mode n

/-- A transmit block of tributary t falls due while the multiframe under way has data positions left (R265 to R274); reads are payload
tiles as they come from the mapping (R289). Where no data may be sent it is a refused block, and the data wait (R267). -/
def State.txBlock (s : State) (t : Nat) (given : List Byte) (reads : List TileRead) (k : TwinReading) : State :=
  let b := s.binding 0 t
  let n := bSlot b
  let room := s.blockRoom t
  let len := 8 * blockPayload b room
  if bMode b = 0 ∨ room = 0 then s
  else if len = 0 then s.zeroWords t room
  else
    let s := s.txSwitch t n
    let g := s.nat .cryptTxGen t
    let i := 2 * n + g
    let s := s.leaseTake i
    let alive := s.regState n g == 1 || s.regState n g == 2
    let s := if s.pairStandby && alive && !s.leaseOk i && s.get .xLease i != 0 && !s.flag .xLeaseOut i then
        (s.set .xLeaseOut i 1).raise (evDev 148) []
      else s
    if s.txFill t == 0 && alive && !s.flag .xShedTx t && s.leaseOk i then s.txData t i len given reads k
    else s.txRefuse t (bMode b) len

/-- TX_CIPHER_BLOCK (R265). -/
def execTxCipherBlock (t : Fin 3840) (payload : List Byte) (reads : List TileRead) (k : TwinReading) (s : State) :
    Host.Outcome State Fault Refusal :=
  s.live fun s => s.txBlock t payload reads k

/-! ## Receive blocks (R284) -/

/-- Source 80 or 89, once per tributary per aligned second, naming tributary, slot, gen and counter. -/
def State.rxReport (s : State) (src : Nat) (mark : Reg) (t n gen count : Nat) : State :=
  if s.newSecond mark t then
    (s.markSecond mark t).raise (evDev src) [u16 t, u16 n, u8 gen, u64 count]
  else s

/-- What a received block's payload is after its checks: the clear words, or none where the tag fails. -/
def decipher (mode : Nat) (key salt header payload tag : List Nat) : Option (List Nat) :=
  let rk := roundKeys key
  let iv := salt ++ header.take 8
  if mode = 1 then
    if gcmTag rk iv header payload = tag then some (counterMode rk iv payload) else none
  else if mode = 2 then (if gcmTag rk iv (header ++ payload) [] = tag then some payload else none)
  else some (counterMode rk iv payload)

/-- A good block under the next register makes it active (R278); the old register waits for the cores. -/
def State.rxSwitch (s : State) (n g : Nat) : State :=
  if s.flag .xSlotRxPend n && !s.flag .xSlotDone n && s.regState n g == 2 && !s.flag .xSlotTxPend n then
    (s.set .xSlotActive n (g : Nat)).set .xSlotReg (2 * n + g) 1 |>.set .xSlotDone n 1
  else s

/-- Bytes delivered toward the demapper, with the marks of their tiles of 64 words (R289). -/
def State.rxDeliver (s : State) (t : Nat) (l : List Byte) (bad : List Nat) : State :=
  let x := s.rxTrib t
  let s := s.setRxTrib t { x with bytes := x.bytes ++ l.zipIdx.map fun e => (e.1, bad.contains (e.2 / 512)) }
  s.emit (.rxBlock t l)

/-- Header word 1 bears the check of both header words (R266). -/
def headerSound (word0 word1 : Nat) : Bool := word1 % 256 == crc8 120 (word0 * 2 ^ 56 + word1 / 256)

/-- Received words as a block: header words, payload, tag, the payload tiles with a word marked bad, and whether a header or tag word
is (R319). -/
structure RxBlock where
  word0 : Nat
  word1 : Nat
  payload : List Byte
  tag : List Byte
  bad : List Nat
  badEnds : Bool
deriving DecidableEq, Repr

/-- Words from a block's first on, read in the order of R265: len payload bytes, then the tag. Behind an unsound header all that
follows is payload. -/
def RxBlock.ofWords (l : List (Nat × Nat × Bool)) : RxBlock :=
  let w := l.map fun e => e.2.1
  let word0 := w.getD 0 0
  let word1 := w.getD 1 0
  let n := if headerSound word0 word1 then min (l.length - 2) (field word1 48 13 / 8) else l.length - 2
  { word0 := word0, word1 := word1
    payload := ((w.drop 2).take n).flatMap (bigEndian 8), tag := (w.drop (2 + n)).flatMap (bigEndian 8)
    bad := ((((l.drop 2).take n).zipIdx.filter fun e => e.1.2.2).map fun e => e.2 / 64).eraseDups
    badEnds := (l.take 2 ++ l.drop (2 + n)).any fun e => e.2.2 }

/-- A block as the command gives it, its payload as long as a sound header says (R271). -/
def RxBlock.given (word0 word1 : Nat) (payload tag : List Byte) : RxBlock :=
  ⟨word0, word1, if headerSound word0 word1 then padTo (field word1 48 13) payload else payload, tag, [], false⟩

/-- Positions of the block that begins with a header, among n left (R265, R271): len says where it ends, with the overhead of its
mode, that of the binding for a refused block; an unsound header takes all positions left (R284 check 1). -/
def blockSpan (v word0 word1 n : Nat) : Nat :=
  let mode := field word1 61 2
  if headerSound word0 word1 then min n (field word1 48 13 / 8 + blockOverhead (if mode = 0 then bMode v else mode)) else n

/-- The next block of an enciphered tributary among its multiframes, and what is left; positions too few for a block are passed
over once a later multiframe has begun (R265). -/
def blockOf (v : Nat) : List RxShare → Option (List (Nat × Nat × Bool) × List RxShare)
  | [] => none
  | x :: t =>
    let left := x.cm - x.taken
    let ready := readyFrom x.taken x.words
    let w := fun k => (x.words.getD k (0, 0, false)).2.1
    if left ≤ blockOverhead (bMode v) then (if t.isEmpty then none else blockOf v t)
    else if ready < 2 ∨ ready < blockSpan v (w 0) (w 1) left then none
    else
      let n := max 2 (blockSpan v (w 0) (w 1) left)
      some (x.words.take n, { x with taken := x.taken + n, words := x.words.drop n } :: t)

/-- A received block of tributary t (R284): the first check that applies decides. Line tiles that failed count at point 4 whatever
the checks say, but for a refused block, which lies outside custody (R289, R319); their marks go with what is delivered. -/
def State.rxCheck (s : State) (t : Nat) (x : RxBlock) (reads : List TileRead) (k : TwinReading) : State :=
  let b := s.binding 1 t
  let n := bSlot b
  let g := x.word1 / 2 ^ 63 % 2
  let i := 2 * n + g
  let bad := (x.bad ++ failedReads x.payload reads).eraseDups
  let count := fun (s : State) => s.custodyFailed 4 t (bad.length + x.badEnds.toNat) none
  let zero := fun (s : State) => s.rxDeliver t (List.replicate x.payload.length 0) bad
  if !headerSound x.word0 x.word1 then
    (zero (count (s.bump .cryptRxHeaderErrors t))).rxReport 89 .xCryptHdrSecond t n g x.word0
  else if field x.word1 61 2 = 0 then
    ((s.bump .cryptRxRefused t).rxDeliver t (List.replicate x.payload.length 0) []).rxReport 89 .xCryptHdrSecond t n g x.word0
  else if field x.word1 61 2 ≠ bMode b then
    (zero (count (s.bump .cryptRxModeMismatch t))).rxReport 80 .xCryptBadSecond t n g x.word0
  else if s.regState n g = 0 ∨ s.nat .xSlotKid i ≠ field x.word1 32 16 then
    (zero (count (s.bump .cryptRxKeyMismatch t))).rxReport 80 .xCryptBadSecond t n g x.word0
  else if s.flag .xShedRx t then zero (count s)
  else
    let key := natBytes (s.blob .xSlotKey i)
    let clear := decipher (bMode b) (key.take 32) (key.drop 32) (headerBytes x.word0 x.word1) (natBytes x.payload)
      (natBytes x.tag)
    let (s, good) := s.twins k
    let s := count s
    match clear with
    | some p =>
      if good then ((s.bump .cryptRxBlocks t).rxSwitch n g).rxDeliver t (byteList p) bad
      else zero (s.bump .cryptRxTagFailures t)
    | none => (zero (s.bump .cryptRxTagFailures t)).rxReport 80 .xCryptBadSecond t n g x.word0

/-- The next block of tributary t: of the words that the line has brought, or, where there are none, as given (log entry 46); reads
are its payload tiles as they come from the FEC decoder (R289). -/
def State.rxBlock (s : State) (t word0 word1 : Nat) (payload tag : List Byte) (reads : List TileRead) (k : TwinReading) :
    State :=
  let v := s.binding 1 t
  let x := s.rxTrib t
  if bMode v = 0 then s
  else if x.shares.isEmpty then s.rxCheck t (RxBlock.given word0 word1 payload tag) reads k
  else
    match blockOf v x.shares with
    | none => s
    | some a => (s.setRxTrib t { x with shares := a.2 }).rxCheck t (RxBlock.ofWords a.1) reads k

/-- RX_BLOCK_CHECK (R284). -/
def execRxBlockCheck (t : Fin 3840) (word0 word1 : BitVec 64) (payload tag : List Byte) (reads : List TileRead)
    (k : TwinReading) (s : State) : Host.Outcome State Fault Refusal :=
  s.live fun s => s.rxBlock t word0.toNat word1.toNat payload tag reads k

/-! ## Bindings (R282) -/

/-- A binding written for tributary t in direction dir may stand (R282); a plain one too names a slot. -/
def State.bindingOk (s : State) (dir v : Nat) : Bool :=
  let other := (s.listed .bindEntry).any fun e => e.1 / 3840 != dir && bMode e.2 != 0 && bSlot e.2 == bSlot v
  !(dir == 1 && bShed v != 0) && !other

/-- 7100.02 or 7101.02 written for unit i. -/
def writeBinding (i : Nat) (v : Int) (s : State) : State × Answer :=
  if s.bindingOk (i / 3840) v.toNat then (s.set .bindEntry i v, accepted) else (s, refusedWith 0x08)

/-- The tributary that a client's binding select of a direction names. -/
def State.bindSel (s : State) (cl : Client) (dir : Nat) : Nat := (s.sel cl .bindSelect dir).toNat

/-- CIPHER_BINDING_WRITE (R282). -/
def execCipherBindingWrite (cl : Client) (dir : Fin 2) (v : Fin 4294967296) (s : State) :
    Host.Outcome State Fault Refusal :=
  let i := 3840 * dir.val + s.bindSel cl dir
  .next (s.serveWrite cl .bindEntry dir (.int v) (writeBinding i v))

/-- Bindings of the tributaries that a multiframe boundary of a direction reaches take force (R282). -/
def State.bindingsTake (s : State) (dir : Nat) (l : List Nat) : State :=
  let l := l.filter fun t => s.get .bindInForce (3840 * dir + t) != s.get .bindEntry (3840 * dir + t)
  if l.isEmpty then s
  else (s.each l fun s t => s.set .bindInForce (3840 * dir + t) (s.get .bindEntry (3840 * dir + t))).capacityCheck

/-! ## Line tiles on transmit (R319, R320, R322 point 3) -/

/-- The line tile of data position d among cm of a binding (R319): 64 words of a plain tributary; of a block its payload tiles, and
its header and tag words as one tile of their own. Tiles of block j are 16 j and what follows. -/
def lineTile (v cm d : Nat) : Nat :=
  if bMode v = 0 then d / 64
  else
    let span := blockWords v + blockOverhead (bMode v)
    let n := min span (cm - d / span * span)
    let p := d % span
    if p < 2 ∨ (bMode v ≠ 3 ∧ n ≤ p + 2) then 16 * (d / span) else 16 * (d / span) + 1 + (p - 2) / 64

/-- Parity of the transmit multiframe that tributary t is in. -/
def State.tileParity (s : State) (t : Nat) : Nat := s.nat .xTxMf ((s.orderZero 0 t).getD 0) % 2

/-- The bytes of a line tile of the multiframe under way, as the mapper or the cipher has made them. -/
def State.lineTileBytes (s : State) (t k : Nat) : List Byte :=
  ((s.lineWords t).zipIdx.filter fun e => lineTile (s.binding 0 t) (s.nat .xTribCmNow t) e.2 == k).flatMap fun e => bigEndian 8 e.1

/-- Line tile k of the multiframe under way of tributary t is marked failed. -/
def State.markTx (s : State) (t k : Nat) : State :=
  let m := s.tileParity t * 2 ^ 20 + k
  if (s.lineTileBytes t k).isEmpty ∨ (bytesNumbers (s.blob .xTxTileBad t) ++ bytesNumbers (s.blob .xTxFailed t)).contains m then s
  else s.setBlob .xTxTileBad t (numberBytes (bytesNumbers (s.blob .xTxTileBad t) ++ [m]))

/-- The tag that the line bits of a tile bear. -/
def tileTag (t parity k : Nat) : Nat := 1 + (2 * t + parity) * 2 ^ 20 + k

/-- The tags of failed line tiles of the tributaries of carrier c. -/
def State.failedTags (s : State) (c : Nat) : List Nat :=
  (s.tribsTouching 0 c).flatMap fun t =>
    (bytesNumbers (s.blob .xTxTileBad t) ++ bytesNumbers (s.blob .xTxFailed t)).map fun m => tileTag t 0 m

/-- The encoder of carrier c meets line tiles that fail: counted once each, their words going out complemented. -/
def State.encoderCount (s : State) (c : Nat) : State :=
  s.each ((s.tribsTouching 0 c).filter fun t => !(s.blob .xTxTileBad t).isEmpty) fun s t =>
    let n := (bytesNumbers (s.blob .xTxTileBad t)).length
    ((s.custodyAt 3 t (some c) n none).bump .custodyTilesComplemented 0 n).setBlob .xTxFailed t
      (s.blob .xTxFailed t ++ s.blob .xTxTileBad t) |>.setBlob .xTxTileBad t []

end Sys2Proof.Machine
end

