-- ==== Sys2Proof/Machine/Slack.lean ====
section
/-! DEFINITION. Stroke sets at the slack buffers (R16 to R22, R67, R125, R126, R322). -/

namespace Sys2Proof.Machine

/-- Gap marker for sets discarded, written once space is free (R19). -/
def State.writeGap (s : State) (c : Nat) : State :=
  if s.get .xRxLost c ≠ 0 ∧ s.get .carrierSlackRxFill c < 1024 then
    (s.setSlack c (s.slack c ++ [.gap (s.nat .xRxLost c)])).set .xRxLost c 0
  else s

/-- A 7-bit code of an ADC. -/
def adcCode (v : Int) : Int := max (-64) (min 63 v)

/-- The 256 samples of a channel of a stroke set. -/
def channelOf (codes : Stroke) (j : Nat) : List Int := (List.range 256).map fun i => (codes.getD i []).getD j 0

/-- Samples of a channel at −64 or +63 (R59). -/
def adcClips (codes : Stroke) (j : Nat) : Nat :=
  ((channelOf codes j).filter fun v => adcCode v == -64 || adcCode v == 63).length

/-- Samples at −64 or +63 are clips (R59). -/
def State.countClips (s : State) (c : Nat) (codes : Stroke) : State :=
  s.each (channels c) fun s a => s.bump .adcClipCount a (adcClips codes (a % 4))

/-- A stroke set as the AGC window takes it (R66, R67): those between a decided step and the next window are measured by none. -/
def State.agcTake (s : State) (c : Nat) (erased : Bool) (codes : Stroke) : State :=
  if s.rxHeld c then s
  else if s.get .xAgcSkip c ≠ 0 then s.set .xAgcSkip c (s.get .xAgcSkip c - 1)
  else
    let low := (channels c).any fun a => s.get .adcAgcGain a != 36
    let s := (s.set .xAgcSets c (s.get .xAgcSets c + 1)).when low fun s => s.set .xAgcBelow c 1
    if erased then s
    else (s.set .xAgcGood c (s.get .xAgcGood c + 1)).each (channels c) fun s a =>
      s.set .xAgcSum a (s.get .xAgcSum a + ((channelOf codes (a % 4)).map fun v => adcCode v * adcCode v).sum)

/-- A stroke set sampled. Its clips count while the ADCs sample, in Idle too (R59). It is stored or discarded (R19); one in
relock is not received at all (R62), one in holdover or after a gain step carries the erasure flag (R63, R67). Before it an AGC
window that has its sets ends at the latest, and steps decided two sets before land (R67). -/
def State.rxArrival (s : State) (c : Nat) (codes : Stroke) : State :=
  let s := if 2 ≤ s.rxLoop c then s.countClips c codes else s
  if s.idle c || s.flag .xRelock c || s.rxLoop c < 2 then s
  else
    let s := (s.agcWindow c).gainApply c
    let s := s.when (s.get .xGainWait c != 0) fun s => s.set .xGainWait c (s.get .xGainWait c - 1)
    let stepped := s.get .xFlagNext c ≠ 0
    let s := if stepped then (s.set .xFlagNext c (s.get .xFlagNext c - 1)).bump .carrierConvErasedSets c else s
    let erased := stepped || s.rxLoop c == 3
    let s := s.agcTake c erased codes
    if 1024 ≤ s.get .carrierSlackRxFill c then
      ((s.bump .carrierSlackRxDiscarded c).set .xRxLost c (s.get .xRxLost c + 1)).enterHeld c
    else
      let s := s.writeGap c
      let f := s.get .carrierSlackRxFill c + 1
      ((s.setSlack c (s.slack c ++ [.set erased (codes.map (List.map adcCode))])).set .carrierSlackRxFill c f).peak .carrierSlackRxPeak c f

/-- RX_STROKE_ARRIVAL (R19). -/
def execRxStrokeArrival (c : Fin 12) (codes : List (List Int)) (s : State) : Host.Outcome State Fault Refusal :=
  s.live fun s => s.rxArrival c codes

/-- A mid-scale stroke set: code 0 throughout (R20). -/
def midScale : Stroke := List.replicate 256 [0, 0, 0, 0]

/-- A stroke set at the DACs: code 0 from a DAC that is off or a carrier whose DACs are held at code 0 (R44, R79, R82). -/
def State.dacCodes (s : State) (c : Nat) (codes : Stroke) : Stroke :=
  codes.map fun l => (List.range 4).map fun j =>
    if s.codeZero c || !s.flag .dacEnable (4 * c + j) then 0 else l.getD j 0

/-- The full swing in force at the DACs of a carrier, in mV (R79). -/
def State.swings (s : State) (c : Nat) : List Nat := (List.range 4).map fun j => s.nat .xSwing (4 * c + j)

/-- A transmit stroke period (R20): a set leaves, or a hold set goes out and is owed. Sets older than those the buffer holds
codes of are mid-scale (log entry 5). -/
def State.txPeriod (s : State) (c : Nat) : State :=
  if s.idle c then s
  else if s.get .carrierSlackTxFill c = 0 then
    (((s.bump .carrierSlackTxHoldSets c).set .xTxOwed c (s.get .xTxOwed c + 1)).emit
      (.stroke c (s.swings c) (s.dacCodes c midScale))).enterHeld c
  else
    let f := s.get .carrierSlackTxFill c - 1
    let l := s.strokes c
    let s := s.emit (.stroke c (s.swings c) (s.dacCodes c (if (l.length : Int) = f + 1 then l.headD midScale else midScale)))
    let s := if (l.length : Int) = f + 1 then s.setStrokes c l.tail else s
    (s.set .carrierSlackTxFill c f).trough .carrierSlackTxLow c f

/-- TX_STROKE_PERIOD (R20). -/
def execTxStrokePeriod (c : Fin 12) (s : State) : Host.Outcome State Fault Refusal := s.live fun s => s.txPeriod c

/-- GAP_MARKER_WRITE (R19). -/
def execGapMarkerWrite (c : Fin 12) (s : State) : Host.Outcome State Fault Refusal := s.live fun s => s.writeGap c

/-- Symbols erased by flagged sets are counted; the frame they fall in gives the monitors no update, and the deskew window
is skipped (R127, R146, R148). DESIGN CHOICE (log entry 37): 3046.02 counts a symbol instant once, not once per
polarisation. -/
def State.eraseSymbols (s : State) (c n : Nat) : State :=
  (s.bump .carrierRxErasedSymbols c n).set .xTrackWindow c 1 |>.set .xDeskewErased c 1

/-- A running cross-fade of bank b passes n stroke sets (R119, R123, R138). -/
def State.fadePass (s : State) (b n : Nat) : State :=
  if s.flag .xBankFading b then s.set .xFadeSets b (min 20 (s.get .xFadeSets b + n)) else s

/-- The crew of a carrier cannot pass a received set on: its hand-off buffer to the fabric is full (R25). The fills are
those of the last loop period (log entry 26). -/
def State.handRxFull (s : State) (c : Nat) : Bool := decide (128 ≤ s.get .xHandRx (c / 3))

/-- The crew of a carrier has nothing to encode: its hand-off buffer from the fabric is empty (R25). -/
def State.handTxEmpty (s : State) (c : Nat) : Bool := s.get .xHandTx (c / 3) == 0

/-- The settings of stages 1 to 5 that hold for a stroke set (R124). -/
def State.rxSet (s : State) (c : Nat) : RxSet where
  skew := (List.range 4).map fun j => s.get .xRxSkew (4 * c + j)
  map := s.nat .carrierWiringAppliedMap c
  fe := s.flag .carrierRxFeEnable c
  adapt := !s.bit .carrierRxHolding c 0
  dcShift := s.nat .carrierRxFeDcShift c
  phase := [s.get .carrierRxFePhaseX c, s.get .carrierRxFePhaseY c]
  gain := [s.get .carrierRxFeGainX c, s.get .carrierRxFeGainY c]
  cd := s.activeOf (48 + c)
  fade := if s.cdFading c then some (s.standbyOf (48 + c), 256 * s.nat .xFadeSets (48 + c)) else none

/-- A stroke set as a capture takes it behind stage 1 (R372 point 0). -/
def stageOneBytes (erased : Bool) (codes : Stroke) : List Byte :=
  (List.range 4).flatMap fun j => (channelOf codes j).map fun v => if erased then 0 else i8 v

/-- The last 256 samples of stage 5 as a capture takes them, in LSB (R372 point 1). -/
def stageFiveBytes (r : RxLine) : List Byte :=
  let l := (r.equal.take 256).reverse
  [fun (v : Cx2) => v.1.1, fun v => v.1.2, fun v => v.2.1, fun v => v.2.2].flatMap fun part =>
    l.map fun v => i8 (rdiv (part v) one30.toNat)

/-- A stroke set passes stages 1 to 5, and a capture takes what they yield (R124, R125, R372). -/
def State.passStroke (s : State) (c : Nat) (erased : Bool) (codes : Stroke) : State :=
  let r := (s.rx c).stroke (s.rxSet c) erased codes
  ((((s.setRx c r).captureBegin c).capturePut c 0 (stageOneBytes erased codes)).capturePut c 1 (stageFiveBytes r)).fadePass
    (48 + c) 1

/-- The core takes a stroke set (R16): above the target, not past a gap marker, and not while the hand-off to the fabric
is full (R25). symbols is how many symbols have their nearest sample in the set. -/
def State.coreTake (s : State) (c symbols : Nat) : State :=
  if s.idle c || s.handRxFull c || s.get .carrierSlackRxFill c ≤ s.get .carrierSlackRxTarget c then s
  else
    match s.slack c with
    | .set erased codes :: t =>
      let late := s.get .xGapFlag c ≠ 0
      let s := (s.setSlack c t).set .carrierSlackRxFill c (s.get .carrierSlackRxFill c - 1)
      let s := (s.bump .xRxSets c).passStroke c (erased || late) codes
      let s := if late then s.set .xGapFlag c (s.get .xGapFlag c - 1) else s
      let s := if erased || late then s.eraseSymbols c symbols else s
      s.settleHeld c
    | _ => s

/-- CORE_STROKE_RELEASE (R16). first is the number of the first symbol whose nearest sample is in the set, next that of the
first one behind it (the instants of stage 6, R132); at 1.2 samples a symbol a set holds at most 214. -/
def execCoreStrokeRelease (c : Fin 12) (first next : Nat) (s : State) : Host.Outcome State Fault Refusal :=
  s.live fun s => s.coreTake c (min 214 (next - first))

/-- The settings of stages 1 to 8 that hold for a stroke set (R104). In Compatible the symbols are those of the MSA signal
(R205). -/
def State.txSet (s : State) (c : Nat) (msa : List Cx2) : TxSet where
  line := s.lineSet 0 c
  boost := s.nat .xPilotBoost c
  stored := s.nat .carrierTxPilotBoost c
  shape := s.activeOf c
  cd := s.activeOf (12 + c)
  fir := s.activeOf (24 + c)
  curve := s.activeOf (36 + c)
  fade := if s.flag .xBankFading (12 + c) then some (s.standbyOf (12 + c), 256 * s.nat .xFadeSets (12 + c)) else none
  map := s.nat .xTxMap c
  skew := (List.range 4).map fun j => s.get .xTxSkew (4 * c + j)
  rms := s.nat .xRmsTarget c
  msa := if s.nat .carrierFecProfileInForce c = profCompatible then some msa else none
  made := (s.tx c).made
  free := s.free
  failed := s.failedTags c

/-- A stroke set of carrier c is made (R104): its clips are counted, a pilot level stored before a frame start in it takes
force (R109), and line bits that no frame has brought are free values. The answer is the state and the codes. -/
def State.makeStroke (s : State) (c : Nat) (msa : List Cx2) : State × Stroke :=
  let k := s.txSet c msa
  let t := s.tx c
  let r := t.stroke k
  let s := (s.setTx c r.1).bump .carrierTxClips c (clipsOf r.2)
  let s := if k.msa.isNone then s.set .xPilotBoost c (k.boostAt (r.1.made - 1) : Nat) else s
  ({ s with free := s.free + (if k.msa.isNone then t.lack k else 0) }, codesOf r.2)

/-- The core delivers a set to the transmit buffer, discards one it owes, or is refused at the target (R16, R20); it makes
none while its hand-off from the fabric is empty (R25). reads are line tiles of tributaries as the FEC encoder reads them: those that
fail go out complemented (R322 point 3). -/
def State.coreGive (s : State) (c : Nat) (msa : List Cx2) (reads : List (Nat × TileRead)) : State :=
  if s.idle c || s.handTxEmpty c then s
  else
    let owed := s.get .xTxOwed c
    if owed = 0 ∧ s.get .carrierSlackTxTarget c ≤ s.get .carrierSlackTxFill c then s
    else
      let s := s.each (reads.filter fun e => tileFails (s.lineTileBytes e.1 e.2.tile) e.2.bytes) fun s e => s.markTx e.1 e.2.tile
      let a := s.makeStroke c msa
      let s := (a.1.encoderCount c).fadePass (12 + c) 1
      let s := if owed = 0 then
          (s.setStrokes c (s.strokes c ++ [a.2])).set .carrierSlackTxFill c (s.get .carrierSlackTxFill c + 1)
        else s.set .xTxOwed c (owed - 1)
      s.settleHeld c

/-- CORE_STROKE_ACCEPT (R16). -/
def execCoreStrokeAccept (c : Fin 12) (msaX msaY : List (Int × Int)) (reads : List (Nat × TileRead)) (s : State) :
    Host.Outcome State Fault Refusal :=
  s.live fun s => s.coreGive c (msaX.zip msaY) reads

/-- The core reaches a gap marker of n sets (R126): up to 32 are replaced by flagged zero sets, which pass stages 1 to 5 and
a capture like any other; a longer gap clears histories, pending adaptation blocks and the delay line of the second pass
(R171), completes a fade (R152), and flags the 32 sets that follow. symbols is how many symbols the inserted sets hold. -/
def State.gapReached (s : State) (c symbols : Nat) : State :=
  match s.slack c with
  | .gap n :: t =>
    let s := (s.setSlack c t).bump .xRxSets c n
    if n ≤ 32 then (s.each (List.range n) fun s _ => s.passStroke c true []).eraseSymbols c symbols
    else
      let s := s.set .xGapFlag c 32 |>.set .xTrackWindow c 1 |>.set .xDeskewErased c 1
        |>.setRx c { (s.rx c).gap n with delay := [] }
      let s := { s with polQueue := sput natLt [] s.polQueue c [] }
      if s.cdFading c then ((s.bankFinish (48 + c)).trackDone c).refreshRx c else s
  | _ => s

/-- GAP_MARKER_REACHED (R126). -/
def execGapMarkerReached (c : Fin 12) (symbols : Nat) (s : State) : Host.Outcome State Fault Refusal :=
  s.live fun s => s.gapReached c symbols

/-- Writing 1 to 3010.05 or 3010.06 resets it to the present fill (R22). -/
def State.resetSlackMark (s : State) (r : Reg) (c : Nat) : State :=
  if r = .carrierSlackRxPeak then s.set .carrierSlackRxPeak c (s.get .carrierSlackRxFill c)
  else s.set .carrierSlackTxLow c (s.get .carrierSlackTxFill c)

end Sys2Proof.Machine
end

