-- ==== Sys2Proof/Machine/CodingCmds.lean ====
section
/-! DEFINITION. Decoding and the coding settings (R190 to R211). -/

namespace Sys2Proof.Machine

/-! ## Decoding (R197, R207, R210) -/

/-- Iterations run on a codeword (R207): at least 2, at most the cap. -/
def iterationsRun (cap : Nat) (satisfiedAt : Option Nat) : Nat :=
  match satisfiedAt with
  | some n => min cap (max 2 n)
  | none => cap

/-- The codeword converges: every check satisfied by the cap. -/
def converges (cap : Nat) (satisfiedAt : Option Nat) : Bool :=
  match satisfiedAt with
  | some n => decide (max 2 n ≤ cap)
  | none => false

/-- The LLR of a position speaks for the other bit than the one decided (R206, R210); 0 speaks for neither. -/
def llrDiffers (llr : Option Int) (bit : Bool) : Bool :=
  match llr with
  | some v => if bit then decide (0 < v) else decide (v < 0)
  | none => false

/-- The de-interleaver at the slot where the next codeword begins: after Seeking or Idle, the first slot that a phase word
describes (R199, R209). -/
def RxLine.atCodeword (r : RxLine) : RxLine :=
  if r.aligned then r
  else
    let l := r.slots.dropWhile fun e => e.word.isNone
    match l with
    | ⟨some w, _⟩ :: _ => ({ r with slots := l } : RxLine).align w
    | _ => { r with slots := [] }

/-- LLRs of the codeword under decoding, by position; none for one that no slot brought (R202, R206). -/
def RxLine.codeword (profile : Nat) (r : RxLine) : List (Option Int) :=
  deinterleave profile (r.slots.map RxSlot.llr) none

/-- The ladder figures of the rung that leaves the window (R207, R210): rows changed, bits changed, rows not zero. -/
def rungFigures (prev was rung : List (List Bool)) : Nat × Nat × Nat :=
  let rows := (List.range 616).map fun j => (j, rowDecided rung was j)
  let changes := rows.map fun e => rowChanges (was.getD e.1 []) e.2
  ((changes.filter fun n => 0 < n).length, changes.sum, (rows.filter fun e => !ladderRowOk prev e.1 e.2).length)

/-- The rung that leaves the ladder window, if one does, is counted and delivered. -/
def State.ladderOut (s : State) (c : Nat) (rung : List (List Bool)) : State :=
  let r := s.rx c
  match r.leaving with
  | none => s
  | some was =>
    let n := rungFigures r.prev was rung
    (((s.setRx c (r.rungOut rung was)).bump .carrierFecLadderRowsCorrected c n.1).bump .carrierFecLadderBitsCorrected c
      n.2.1).bump .carrierFecUncorrectable c n.2.2

/-- A decoded information part goes on: through the ladder window in Long, at once in Sprint (R207). -/
def State.outerDecode (s : State) (c : Nat) (info : List Bool) (rung : List (List Bool)) : State :=
  let l := s.lineSet 1 c
  if l.profile = profSprint then s.setRx c ((s.rx c).infoOut info)
  else (s.setRx c ((s.rx c).ladderIn l info)).ladderOut c rung

/-- Whole fields leave the inverse matcher as line bits; blocks delivered as zeros count (R197). -/
def State.matcherOut (s : State) (c : Nat) (counted : Bool) : State :=
  let r := s.rx c
  let a := r.deliverFields (s.lineSet 1 c) r.info.length
  let s := s.setRx c a.1
  if counted then s.bump .carrierFecDmMismatch c a.2 else s

/-- The oFEC decoder of a Compatible carrier (R210). -/
def State.decodeCompatible (s : State) (c : Nat) (ok : Bool) (m : CodewordReading) : State :=
  let s := s.bump .carrierFecCodewords c
  let s := if ok then (s.bump .carrierFecBits c m.softBits).bump .carrierFecCorrected c m.softCorrected
    else s.bump .carrierFecCwFailed c
  s.bump .carrierFecUncorrectable c m.blocksFailed

/-- A codeword decoded and counted (R202, R206, R207, R210). It converges where every check of its decisions is satisfied by
the cap; one that does not is delivered on its hard decisions and counts in 3072.03 and 3072.04 only, and in Sprint in
3072.07, whose meaning there is inner codewords. Ladder figures are those of the rung that leaves, not of the codeword. -/
def State.decodeOne (s : State) (c : Nat) (m : CodewordReading) : State :=
  if s.get .carrierState c < 2 || s.flag .xRelock c then s
  else
    let prof := s.nat .carrierFecProfileInForce c
    let cap := s.nat .carrierFecCapInForce c
    if prof = profCompatible then s.decodeCompatible c (converges cap m.satisfiedAt) m
    else
      let word := fillTo 9216 false m.word
      let ok := converges cap m.satisfiedAt && innerOk prof word
      let r := (s.rx c).atCodeword
      let llr := r.codeword prof
      let s := (s.setRx c { r with slots := r.slots.drop 1 }).bump .carrierFecCodewords c
      let s :=
        if ok then
          ((s.bump .carrierFecIterations c (iterationsRun cap m.satisfiedAt)).bump .carrierFecBits c
            (llr.filter Option.isSome).length).bump .carrierFecCorrected c
            ((List.zipWith llrDiffers llr word).filter id).length
        else (s.bump .carrierFecCwFailed c).when (prof == profSprint) fun s => s.bump .carrierFecUncorrectable c
      (s.outerDecode c (word.take (infoLength prof)) m.rung).matcherOut c (ok || prof == profLong)

/-- CODEWORD_DECODE (R207). -/
def execCodewordDecode (c : Fin 12) (m : CodewordReading) (s : State) : Host.Outcome State Fault Refusal :=
  s.live fun s => s.decodeOne c m

/-- What a U64 counter has counted since it stood at `was`: counters wrap (R394). -/
def counted64 (now was : Int) : Int := (now - was) % 2 ^ 64

/-- The coding figures of the aligned second that ends (R210, R211). -/
def State.codingSecond (s : State) (c : Nat) : State :=
  let bits := counted64 (s.get .carrierFecBits c) (s.get .xSecBits c)
  let corrected := counted64 (s.get .carrierFecCorrected c) (s.get .xSecCorrected c)
  let failed := counted64 (s.get .carrierFecCwFailed c) (s.get .xSecFailed c)
  let uncorr := counted64 (s.get .carrierFecUncorrectable c) (s.get .xSecUncorr c)
  let ber := if 0 < bits then corrected * 10 ^ 10 / bits else 0
  let prof := s.nat .carrierFecProfileInForce c
  let level := if s.get .carrierFecBerWarning c ≠ 0 then s.get .carrierFecBerWarning c
    else if prof = profCompatible then 100000000 else if prof = profSprint then 22500000 else 120000000
  let s := s.set .carrierFecPreFecBer c ber
    |>.set .xSecBits c (s.get .carrierFecBits c) |>.set .xSecCorrected c (s.get .carrierFecCorrected c)
    |>.set .xSecFailed c (s.get .carrierFecCwFailed c) |>.set .xSecUncorr c (s.get .carrierFecUncorrectable c)
  let s := if level < ber then s.raise (evCarrier c 22) [] else s
  if prof = profLong ∧ 0 < failed ∧ uncorr = 0 then s.raise (evCarrier c 23) [] else s

/-- 3071.0C as read: the composition in force on transmit (R195); empty where no matcher runs (R205, R190). -/
def State.compositionOf (s : State) (c : Nat) : List Byte :=
  if s.get .carrierFecTxKdm c = 0 then []
  else
    let m := compositionFor (s.nat .carrierFecTxKdm c)
    [m.n1, m.n3, m.n5, m.n7].flatMap fun (n : Nat) => leBytes 2 (n : Int)

/-! ## Settings (R190, R256) -/

/-- The stored coding set of a carrier is one the device takes (R190). -/
def State.fecOk (s : State) (c : Nat) : Bool :=
  let prof := s.nat .carrierFecProfile c
  let p := s.nat .carrierFecPayload c
  let at_ := fun b => carries prof (s.nat .carrierFecModulation c) (s.nat .carrierFecEntropy c) p b
  !(prof == profSprint && s.flag .carrierNcEnable c)
    && !(prof == profCompatible && ((p != 4 && p != 8) || s.get .carrierCatchCount c != 0))
    && at_ (s.storedTxRate c) && at_ (s.storedRxRate c) && s.listCarries c
    && s.reachOk c
    && (s.flag .carrierTxCdMode c || decide ((s.get .carrierTxCdTarget c).natAbs ≤ txReach (s.storedTxRate c)))

/-- The stored profiles and transmit rates of a list of carriers are one, and none is Compatible (R256). -/
def State.bondEqual (s : State) (l : List Nat) : Bool :=
  match l with
  | [] => true
  | h :: _ => l.all fun c => s.get .carrierFecProfile c == s.get .carrierFecProfile h
      && s.get .carrierFecTxRate c == s.get .carrierFecTxRate h && s.get .carrierFecProfile c != 2

/-- 3070.01 to .06 written (R190, R256). -/
def writeFec (r : Reg) (c : Nat) (v : Int) (s : State) : State × Answer :=
  let t := s.set r c v
  let g := s.get .carrierBondGroup c
  let equal := (r != .carrierFecProfile && r != .carrierFecTxRate) || g == 0xFF || t.bondEqual (t.groupList g.toNat)
  if !t.fecOk c || !equal then (s, refusedWith 0x08) else (t.refreshReach c, accepted)

/-- 3070.07 written (R207). -/
def writeCap (c : Nat) (v : Int) (s : State) : State × Answer :=
  ((s.set .carrierFecIterationCap c v).refreshCap c, accepted)

end Sys2Proof.Machine
end

