-- ==== Sys2Proof/Machine/Bonding.lean ====
section
/-! DEFINITION. Bonding groups: leaving Idle together, measuring arrivals, alignment, absorption and release (R256 to
R261). Arrivals and holds are in ps on the common counter of R157. -/

namespace Sys2Proof.Machine

/-! ## Leaving Idle (R27, R47, R257) -/

/-- Other members of a carrier's group. -/
def State.partners (s : State) (c : Nat) : List Nat :=
  if s.get .carrierBondGroup c = 0xFF then []
  else (s.groupList (s.nat .carrierBondGroup c)).filter fun d => d != c

/-- Waiting members of a group leave Idle at one instant, in sequence (R257). -/
def State.leaveTogether (s : State) (g : Nat) : State :=
  let l := (s.groupList g).filter fun c => s.flag .xBondExit c && s.mayLeaveIdle c
  s.each l fun s c => (s.leaveIdle c).set .carrierBondTxInSequence c 1

/-- A carrier whose guard-loop raise is complete leaves Idle, or waits for its group (R257). -/
def State.exitIdle (s : State) (c : Nat) : State :=
  if !s.idle c || !s.mayLeaveIdle c then s
  else
    let others := s.partners c
    if s.get .carrierBondGroup c = 0xFF then s.leaveIdle c
    else if others.any fun d => !s.idle d then (s.leaveIdle c).set .carrierBondTxInSequence c 0
    else
      let g := s.nat .carrierBondGroup c
      let s := s.when (!others.any fun d => s.flag .xBondExit d) fun s => s.markTick .xBondExitAt g
      let s := (s.set .xBondExit c 1).set .xRaising c 0
      if others.all fun d => s.get .carrierRequest d == 0 || s.flag .xBondExit d then
        s.leaveTogether g
      else s

/-- BOND_EXIT_WAIT_EXPIRY (R257): the 1 ms wait ends. -/
def execBondExitWaitExpiry (g : Fin 6) (s : State) : Host.Outcome State Fault Refusal :=
  s.live fun s =>
    if ((s.groupList g).any fun c => !s.idle c) || !s.usSince .xBondExitAt g 1000 then s else s.leaveTogether g

/-! ## Alignment (R258, R260) -/

/-- Members whose measurement is complete and whose carrier is up. -/
def State.measured (s : State) (g : Nat) : List Nat :=
  (s.groupList g).filter fun c => s.upLine c && s.flag .xBondMeasured c

/-- The largest set of members within 2.5 ms of one another: (carrier, arrival) pairs against each as the earliest; among
equal sizes the one with the lowest carrier. -/
def bestSet (l : List (Nat × Int)) : List (Nat × Int) :=
  let sets := l.map fun e => l.filter fun d => decide (e.2 ≤ d.2 ∧ d.2 ≤ e.2 + 2500000000)
  let low := fun (q : List (Nat × Int)) => (q.map Prod.fst).foldl min 12
  sets.foldl (fun a b => if a.length < b.length ∨ (a.length = b.length ∧ low b < low a) then b else a) []

/-- The members that an alignment on the measured ones takes, with the arrivals of one multiframe: the largest set of one receive
rate (R258). -/
def State.alignSet (s : State) (g : Nat) : List (Nat × Int) :=
  match s.measured g with
  | [] => []
  | h :: l =>
    bestSet (((h :: l).filter fun c => s.get .xRxRate c == s.get .xRxRate h).map fun c =>
      (c, s.arrivalOf c (s.get .carrierBondBsq h)))

/-- The group aligns on the measured members (R258): release is the latest arrival plus the headroom; those left out
read 4. -/
def State.align (s : State) (g : Nat) : State :=
  let all := s.measured g
  let set_ := s.alignSet g
  match set_ with
  | [] => s.set .xGroupWait g 0
  | e :: l =>
    let late := (l.map Prod.snd).foldl max e.2
    let release := late + s.get .groupHeadroom g * 1000000
    let s := s.set .xGroupWait g 0
    let s := s.each all fun s c =>
      match set_.find? fun e => e.1 == c with
      | some e =>
        (s.setMember c 3).set .xBondHoldPs c (release - e.2) |>.set .carrierBondHold c ((release - e.2) / 1000)
      | none => s.setMember c (if s.get .xRxRate c = s.get .xRxRate (all.headD 0) then 4 else 5)
    s.refreshGroup g

/-- A group without aligned members waits for measurements, and aligns once every member with a request has one
(R258). -/
def State.tryAlign (s : State) (g : Nat) : State :=
  let s := if s.flag .xGroupWait g then s else (s.set .xGroupWait g 1).markTick .xGroupWaitAt g
  let need := (s.groupList g).filter fun c => s.get .carrierRequest c != 0
  if need.all fun c => (s.measured g).contains c then s.align g else s

/-- ALIGN_WAIT_EXPIRY (R258). -/
def execAlignWaitExpiry (g : Fin 6) (s : State) : Host.Outcome State Fault Refusal :=
  s.live fun s =>
    if s.flag .xGroupWait g && (s.alignedList g).isEmpty && s.usSince .xGroupWaitAt g (1000 * s.get .groupAlignWait g) then
      s.align g
    else s

/-- Bonded tributaries of a group are failed until the next release; alignment runs without the wait (R261). -/
def State.realign (s : State) (g : Nat) : State :=
  let s := s.each (s.groupList g) fun s c => s.set .xBondJoined c 0
  ((s.align g).bump .groupRealigns g).raise (evDev 68) []

/-- The window of R260 for a member at multiframe x. -/
def State.inWindow (s : State) (g c : Nat) (x : Int) : Bool :=
  let r := s.releaseOf g x
  let a := s.arrivalOf c x
  decide (r - 3000000000 ≤ a ∧ a ≤ r - 1000000)

/-- Under policy 1 the group realigns for a member in state 4 (R261). DESIGN CHOICE (log entry 48): for one that an alignment has
left out only once it would give it a place, since no realignment before would change anything. -/
def State.realignFor (s : State) (g c : Nat) : State :=
  if s.get .groupPolicy g = 1 ∧ (s.alignSet g).any fun e => e.1 == c then s.realign g else s

/-- A measured member meets an aligned group (R260). -/
def State.absorb (s : State) (g c : Nat) (x : Int) : State :=
  if s.inWindow g c x then
    let hold := s.releaseOf g x - s.arrivalOf c x
    ((s.setMember c 3).set .xBondHoldPs c hold |>.set .carrierBondHold c (hold / 1000)).refreshGroup g
  else if s.get .carrierBondState c = 4 then s.realignFor g c
  else
    let s := (s.setMember c 4).refreshGroup g
    if s.get .groupPolicy g = 1 then s.realign g else s

/-- A received multiframe boundary as bonding sees it: BSQ, arrival, measurement, window. -/
def State.bondBoundary (s : State) (c : Nat) (bsq arrival : Int) : State :=
  let run := if s.get .xBondRun c ≠ 0 ∧ bsqDiff bsq (s.get .carrierBondBsq c) = 1 then s.get .xBondRun c + 1 else 1
  let s := s.set .carrierBondBsq c bsq |>.set .xBondArrival c arrival |>.set .xBondRun c (min run 3)
  if s.get .carrierBondGroup c = 0xFF then s
  else
    let g := s.nat .carrierBondGroup c
    let st := s.get .carrierBondState c
    if s.rateApart c then
      ((s.set .xBondMeasured c 0).setMember c 5).refreshGroup g
    else if st = 3 then
      if s.inWindow g c bsq then s.refreshGroup g
      else
        let s := ((s.bump .carrierBondWindowExits c).setMember c 4).refreshGroup g
        if s.get .groupPolicy g = 1 then s.realign g else s
    else
      let s := if st = 1 ∨ st = 5 then (s.setMember c 2).set .xBondRun c 1 else s
      let s := if 3 ≤ s.get .xBondRun c then s.set .xBondMeasured c 1 else s
      if !s.flag .xBondMeasured c then s
      else if (s.alignedList g).isEmpty then s.tryAlign g
      else s.absorb g c bsq

/-! ## Settings and commands (R256, R261) -/

/-- 7800.01 written (R256). -/
def writeMembers (g : Nat) (v : Int) (s : State) : State × Answer :=
  let m := v.toNat
  let was := s.nat .groupMembers g
  let new := carriers.filter fun c => bitOf m c
  let moved := carriers.filter fun c => bitOf m c != bitOf was c
  let removed := moved.filter fun c => bitOf was c
  let bondedRows := fun c => [0, 1].any fun d => (s.tribsTouching d c).any fun t => s.bonded d t
  if moved.any (fun c => !s.idle c)
      || (moved.filter fun c => bitOf m c).any (fun c => s.get .carrierBondGroup c != 0xFF)
      || new.length == 1
      || !s.bondEqual new
      || removed.any bondedRows then (s, refusedWith 0x08)
  else
    let s := s.set .groupMembers g v
    let s := s.each removed fun s c =>
      s.set .carrierBondGroup c 0xFF |>.set .carrierBondState c 0 |>.set .carrierBondTxInSequence c 0
        |>.set .xBondMeasured c 0 |>.set .xBondExit c 0
    let s := s.each (moved.filter fun c => bitOf m c) fun s c =>
      s.set .carrierBondGroup c g |>.set .carrierBondState c 1 |>.set .xBondMeasured c 0 |>.set .xBondRun c 0
    (s.refreshGroup g, accepted)

/-- GROUP_MEMBERS_WRITE (R256). -/
def execGroupMembersWrite (cl : Client) (g : Fin 6) (mask : Fin 65536) (s : State) :
    Host.Outcome State Fault Refusal :=
  .next (s.serveWrite cl .groupMembers g (.int mask) (writeMembers g mask))

/-- 7800.04 written (R261). -/
def writeRealign (g : Nat) (s : State) : State × Answer :=
  if s.get .groupState g ≤ 1 then (s, refusedWith 0x08) else (s.realign g, accepted)

/-- GROUP_REALIGN (R261). -/
def execGroupRealign (cl : Client) (g : Fin 6) (s : State) : Host.Outcome State Fault Refusal :=
  .next (s.serveWrite cl .groupRealign g (.int 1) (writeRealign g))

/-- 7800.03 written (R261): policy 1 acts on a member that is in state 4 already. -/
def writePolicy (g : Nat) (v : Int) (s : State) : State × Answer :=
  let s := s.set .groupPolicy g v
  (if v = 1 ∧ (s.groupList g).any fun c => s.get .carrierBondState c == 4 then s.realign g else s, accepted)

end Sys2Proof.Machine
end

