-- ==== Sys2Proof/Machine/Frame.lean ====
section
/-! DEFINITION. Multiframe boundaries, logical frames, interchange page flips, overhead port and defects (R213 to R236,
R248 to R251, R259). -/

namespace Sys2Proof.Machine

/-! ## Majorities (R219) -/

/-- The value held by more of a list than any other; none where there is none. -/
def majority (l : List Nat) : Option Nat :=
  let best := (l.eraseDups.map fun v => (v, l.count v)).foldl (fun a e => if a.2 < e.2 then e else a) (0, 0)
  if l.isEmpty ∨ l.eraseDups.any (fun v => v != best.1 && l.count v == best.2) then none else some best.1

/-- A run of n outcomes one way: positive for one, negative for the other. -/
def runStep (n : Int) (yes : Bool) : Int := if yes then (if n < 0 then 1 else n + 1) else (if 0 < n then -1 else n - 1)

/-! ## Capacity and Cm (R218, R248, R268) -/

/-- Line positions that n payload words count as (R268). -/
def positionsOf (v n : Nat) : Nat := n * (blockWords v + blockOverhead (bMode v)) / blockWords v

/-- Carrier d has still to reach the transmit boundary that carrier c has passed: members of a group in sequence pass it at one
instant (R257). -/
def State.behind (s : State) (c d : Nat) : Bool :=
  s.get .carrierBondGroup c != 0xFF && s.get .carrierBondGroup d == s.get .carrierBondGroup c
    && s.flag .carrierBondTxInSequence c && s.flag .carrierBondTxInSequence d && decide (s.get .xTxMf d < s.get .xTxMf c)

/-- Transmit rows of the multiframe after the one that carrier c is in: announced pages included (R217, R221), those too that a
member of its group announces at the boundary that c has passed. -/
def State.rowsNext (s : State) (c : Nat) : List Row :=
  let on := carriers.filter fun d => s.get .xAnnounce d == 2 || (s.get .xAnnounce d == 1 && s.behind c d)
  s.rowsAfter 0 (on.foldl (fun a d => a + 2 ^ d) 0)

/-- T of tributary t on those rows. -/
def State.capacityNext (s : State) (rows : List Row) (t : Nat) : Nat :=
  let l := rows.filter fun r => r.trib == t
  match l.find? fun r => r.order == 0 with
  | some r => l.length * slotWords (s.nat .xTxRate r.carrier)
  | none => 0

/-- The law of R248 for a transparent flow, in line positions. -/
def cmLaw (arrived fill cap : Int) : Int := max 0 (min cap (arrived + (fill - 4096).tdiv 16))

/-- Cm for the next multiframe of tributary t with capacity T and fill code `fill` (R248); `first` in the first multiframe after
the exit from Idle. A flow that is not enabled has none, and one enabled in a multiframe none in the next two. -/
def State.cmNext (s : State) (t cap fill : Nat) (first : Bool) : Nat :=
  if fill ≠ 0 then 0
  else
    match s.transparentFlow t with
    | none => cap
    | some f =>
      let v := s.binding 0 t
      if first || !fEnable (s.flow f) || !s.flag .xFlowMf f then 0
      else (cmLaw (positionsOf v (s.nat .xFlowArrived f)) (positionsOf v (s.wordsOf f).length) cap).toNat

/-! ## What falls due (R246 to R248, R265, R267) -/

/-- Client data is admitted in Carry and Pair only (table Device modes), and not during an orderly shutdown. -/
def State.admits (s : State) : Bool := (s.mode == 3 || s.mode == 4) && !s.flag .xShutdown 0

/-- n more words of plain transparent tributary t: of its flow, or zero words where it may not send (R267). -/
def State.putStream (s : State) (t f n : Nat) (stop : Bool) : State :=
  if n = 0 then s
  else if stop then s.setWords t (s.lineWords t ++ List.replicate n 0)
  else
    let r := s.takeWords f t n
    r.1.setWords t (s.lineWords t ++ r.2)

/-- The first n data positions of plain tributary t in the multiframe under way have fallen due: a transparent flow goes on by blocks
of 64 words (R265, R267), and GFP idle frames fill what the mapper has not (R246, R248). -/
def State.fallDue (s : State) (t n : Nat) : State :=
  let has := (s.lineWords t).length
  let n := min n (s.nat .xTribCmNow t) - has
  if n = 0 ∨ bMode (s.binding 0 t) ≠ 0 then s
  else
    match s.transparentFlow t with
    | some f =>
      let a := min n ((64 - has % 64) % 64)
      let s := s.putStream t f a (s.flag .xTxStop t)
      let s := s.when (decide (a < n)) fun s => s.setFlag .xTxStop t (s.fillCode t != 0)
      s.putStream t f (n - a) (s.flag .xTxStop t)
    | none => s.gfpPut t (List.replicate ((8 * n - (s.blob .xGfpBytes t).length + 3) / 4) gfpIdle).flatten

/-- The multiframe under way ends for tributary t: all its data positions have fallen due, and the words that came for a transparent
flow are those of R248's next A. -/
def State.streamEnd (s : State) (t : Nat) : State :=
  let s := s.fallDue t (s.nat .xTribCmNow t)
  match s.transparentFlow t with
  | some f => (s.set .xFlowArrived f (s.get .xFlowCame f)).set .xFlowCame f 0
  | none => s

/-! ## Calendar flips (R251) -/

/-- Tributaries that hold a span in either page. -/
def State.spanTribs (s : State) : List Nat :=
  ((s.listed .spanStandby).map Prod.fst ++ (s.listed .spanActive).map Prod.fst).eraseDups

/-- Credits of a tributary cleared, its pointer at the first entry. -/
def State.clearCredits (s : State) (t : Nat) : State :=
  let l := (s.listed .xCalCredit).filter fun e => e.1 / 1024 == t
  (s.each l fun s e => s.set .xCalCredit e.1 0).set .xCalPtr t 0

/-- Tributary t takes the standby page. -/
def State.calTake (s : State) (t : Nat) : State :=
  if s.flag .xCalTaken t then s else (s.clearCredits t).set .xCalTaken t 1

/-- A register's units copied from another's. -/
def State.copyUnits (s : State) (dst src : Reg) : State :=
  let s := s.each ((s.listed dst).map Prod.fst) fun s i => s.set dst i (s.get src i)
  s.each ((s.listed src).map Prod.fst) fun s i => s.set dst i (s.get src i)

/-- Tributaries without slots, or whose carrier is in Idle, take a pending calendar at once; when every tributary has,
the flip is complete. -/
def State.calSettle (s : State) : State :=
  if !s.flag .calPending 0 then s
  else
    let wait := fun (s : State) (t : Nat) =>
      match s.orderZero 0 t with
      | some c => !s.idle c
      | none => false
    let s := s.each (s.spanTribs.filter fun t => !wait s t) State.calTake
    if s.spanTribs.any fun t => !s.flag .xCalTaken t then s
    else
      let s := (s.copyUnits .calActiveEntry .calStandbyEntry).copyUnits .spanActive .spanStandby
      let s := s.each ((s.listed .xCalTaken).map Prod.fst) fun s t => s.set .xCalTaken t 0
      ((s.set .calPending 0 0).bump .calFlips 0).raise (evDev 67) []

/-! ## The transmit boundary -/

/-- Announce and flip of a pending transmit page (R221). -/
def State.announce (s : State) (c : Nat) : State :=
  if s.get .xAnnounce c = 1 then s.set .xAnnounce c 2
  else if s.get .xAnnounce c = 2 then s.pageFlip 0 c
  else s

/-- Cm and fill code of a tributary for the multiframe after the one that starts, as its rows then lie; those fixed before take
force. -/
def State.fixCm (s : State) (rows : List Row) (first : Bool) (t : Nat) : State :=
  let cap := s.capacityNext rows t
  let fill := s.fillCodeOn ((rows.filter fun r => r.trib == t).map Row.carrier).eraseDups t
  let cm := s.cmNext t cap fill first
  let s := s |>.set .xTribCmNow t (if first then 0 else s.get .xTribCm t)
    |>.set .xTribFillNow t (if first then 1 else s.get .xTribFill t)
    |>.set .xTribCm t (cm : Nat) |>.set .xTribFill t (fill : Nat)
  match s.transparentFlow t with
  | some f => if fEnable (s.flow f) then s.set .xFlowMf f 1 else s
  | none => s

/-- Words that the multiframe that ends has carried are gone, and the tile marks of the one before it; none wait at the first boundary
after Idle. -/
def State.dropWords (s : State) (t : Nat) (first : Bool) : State :=
  if first then
    (((s.setBlob .xGfpBytes t []).setWords t []).setBlob .xTxTileBad t []).setBlob .xTxFailed t [] |>.set .xTxStop t 0
  else
    let keep := fun (l : List Nat) => l.filter fun k => k / 2 ^ 20 == s.tileParity t
    let s := (s.setBlob .xTxTileBad t (numberBytes (keep (bytesNumbers (s.blob .xTxTileBad t))))).setBlob .xTxFailed t
      (numberBytes (keep (bytesNumbers (s.blob .xTxFailed t))))
    s.setWords t ((s.lineWords t).drop (s.nat .xTribCmNow t))

/-- The line of carrier c at a transmit multiframe boundary: the first field of the multiframe, and free values for words
that no source will have given (R213). -/
def State.lineBoundary (s : State) (c : Nat) (first : Bool) : State :=
  let t := s.tx c
  let f := slotsPerMultiframe (s.nat .carrierFecModulationInForce c)
  let s := s.setTx c { t with first := if first then 0 else t.first + f, base := s.free }
  { s with free := s.free + s.slotCount c * slotWords (s.nat .xTxRate c) }

/-- A transmit multiframe boundary of carrier c (R215, R221, R248, R251, R282). A Compatible carrier has no frame to form (R235). -/
def State.txBoundary (s : State) (c : Nat) (l : List StreamReading) : State :=
  if s.idle c then s
  else if s.nat .carrierFecProfileInForce c = profCompatible then s.reloadTables.pageSettle 0 c
  else
    let first := s.get .xTxMf c == 0
    let s := (s.each (if first then [] else s.tribsOn 0 c) State.streamEnd).each l fun s r => s.readWords r.flow r.reads
    let s := s.reloadTables.announce c
    let s := if s.flag .calPending 0 then
        (s.each ((s.tribsOn 0 c).filter fun t => s.spanTribs.contains t) State.calTake).calSettle
      else s
    let s := s.bindingsTake 0 (s.tribsOn 0 c)
    let s := (s.each (s.tribsOn 0 c) fun s t => s.dropWords t first).lineBoundary c first
    let s := s |>.set .xTxBsq c (if first then 0 else (s.get .xTxBsq c + 1) % 2 ^ 24)
      |>.set .xTxMf c (s.get .xTxMf c + 1) |>.set .xTxFnum c 0
    let rows := s.rowsNext c
    let on := (s.tribsOn 0 c ++ (rows.filter fun r => r.order == 0 && r.carrier == c).map Row.trib).eraseDups
    let s := s.each on fun s t => s.fixCm rows first t
    if s.pairActive && c == 0 then s.tieSend (.tieAlign (s.nat .xTxBsq 0) s.now) else s

/-- TX_MULTIFRAME_BOUNDARY (R248). -/
def execTxMultiframeBoundary (c : Fin 12) (l : List StreamReading) (s : State) : Host.Outcome State Fault Refusal :=
  s.live fun s => s.txBoundary c l

/-! ## Transmitted logical frames (R215, R225 to R228) -/

/-- 3086.04 (R227): STAT in force on transmit. -/
def State.statSent (s : State) (c : Nat) : Nat :=
  if s.idle c then 0
  else if s.get .deviceModeState 0 = 5 ∨ s.flag .carrierOhForceAis c then 7
  else if s.carriesClients c then 0
  else 1

/-- 64 bytes of a trail trace object. -/
def State.traceOf (s : State) (r : Reg) (c : Nat) : List Byte := padTo 64 (s.blob r c)

/-- 10 GCC bytes as the overhead port carries them: in Compatible GCC-A is 0 (R235). -/
def State.gccOf (s : State) (c : Nat) (g : List Byte) : List Byte :=
  if s.nat .carrierFecProfileInForce c = profCompatible then List.replicate 8 0 ++ (g.drop 8) else g

/-- The overhead port takes its enable at a logical frame boundary (R225). -/
def State.portTake (s : State) (c : Nat) : State :=
  let s := s.set .xOhpOn c (s.get .carrierOhpEnable c)
  if s.flag .xOhpOn c then s else s.setBlob .xOhpOut c []

/-- The row of memory dir that slot j of carrier c has in force. -/
def State.slotRow (s : State) (dir c j : Nat) : Option Row :=
  rowOf (320 * c + j) (s.working .tsiActiveRow 0 (3840 * dir + 320 * c + j))

/-- Data word d of tributary t in the multiframe under way: of its cipher blocks, its GFP frames or its flow. What no source has given
is the free value (log entry 40). -/
def State.dataWord (s : State) (t d free : Nat) : Nat := (s.lineWords t).getD d free

/-- Word w of the payload areas of the multiframe that carrier c sends (R216, R218): data, or stuff, which is 0; with the tag of its
line tile, 0 for stuff (R319). -/
def State.payloadWord (s : State) (c w : Nat) : Nat × Nat :=
  let n := s.slotCount c
  let m := slotWords (s.nat .xTxRate c)
  if n * m ≤ w then (0, 0)
  else
    match s.slotRow 0 c (w % n) with
    | none => (0, 0)
    | some r =>
      let l := s.tribRows 0 r.trib
      let i := w / n * l.length + r.order
      let cm := s.nat .xTribCmNow r.trib
      if carriesData cm (l.length * m) i then
        let d := dataIndex cm (l.length * m) i
        (s.dataWord r.trib d (Config.freeNat ((s.tx c).base + w) % 2 ^ 64),
          tileTag r.trib (s.tileParity r.trib) (lineTile (s.binding 0 r.trib) cm d))
      else (0, 0)

/-- Data positions of tributary t that have fallen due when carrier c has sent frame f of its multiframe. -/
def State.dueBy (s : State) (c f t : Nat) : Nat :=
  let n := s.slotCount c
  let l := (s.tribRows 0 t).length
  let all := l * slotWords (s.nat .xTxRate c)
  let words := ((f + 1) * (s.nat .carrierFecTxNeed c - 2048) + 63) / 64
  min all ((words + n - 1) / n * l) * s.nat .xTribCmNow t / all

/-- The slot overhead entry of slot j of carrier c for the multiframe after the one under way (R217); 0 where the slot does not
exist. -/
def State.entryFor (s : State) (c j : Nat) (rows : List Row) : Nat :=
  if s.slotCount c ≤ j then 0
  else
    match rows.find? fun r => r.row == 320 * c + j with
    | none => slotEntry 0xFFF 0 1 0 0
    | some r => slotEntry r.trib r.order (s.nat .xTribFill r.trib) (s.nat .cryptTxGen r.trib) (s.nat .xTribCm r.trib)

/-- A logical frame of carrier c enters the coding chain (R213, R214): overhead, payload area and, after frame 255, the tail of
zeros, with the sequence added; its payload area gives the BIP8 of the next. What its positions carry has fallen due. -/
def State.frameOut (s : State) (c : Nat) (head : FrameHead) : State :=
  let t := s.tx c
  let l := s.lineSet 0 c
  let n := s.nat .carrierFecTxNeed c
  let s := s.each (s.tribsTouching 0 c) fun s t => s.fallDue t (s.dueBy c head.fnum t)
  let area := areaBits (n - 2048) head.fnum fun w => (s.payloadWord c w).1
  let tags := areaTags (n - 2048) head.fnum fun w => (s.payloadWord c w).2
  let tail := if head.fnum = 255 then fieldsInput l t.first (slotsPerMultiframe l.modulation) - 256 * n else 0
  let bits := scramble (byteBits head.bytes ++ area ++ List.replicate tail false)
  s.setTx c { t with
    bits := t.bits ++ bits.zip (List.replicate 2048 0 ++ tags ++ List.replicate tail 0), bip := bipOf area }

/-- The 10 GCC bytes of the next transmitted frame are taken from the overhead port while it runs (R225). -/
def State.gccTake (s : State) (c : Nat) (gcc : List Byte) : State :=
  let s := s.portTake c
  if s.flag .xOhpOn c then (s.setBlob .xOhpIn c (s.gccOf c gcc)).bump .carrierOhpInBursts c else s.setBlob .xOhpIn c []

/-- A logical frame is transmitted: BEI drains its store, the trace is taken at FNUM mod 64 = 0, and a GCC burst is
sampled while the port runs. In Compatible the burst is all there is of it (R235). -/
def State.txLogical (s : State) (c : Nat) (gcc : Vector Byte 10) : State :=
  if s.idle c then s
  else if s.nat .carrierFecProfileInForce c = profCompatible then s.gccTake c gcc.toList
  else
    let rows := s.rowsNext c
    let n := s.nat .xTxFnum c
    let bdi := s.bdiSent c
    let bei := if bdi then 0 else min (s.nat .xBeiStore c) 15
    let s := s.set .xBeiStore c (if bdi then 0 else s.get .xBeiStore c - bei)
    let s := if n % 64 = 0 then s.setBlob .xTtiSent c (s.traceOf .carrierTtiTransmit c) else s
    let s := (s.gccTake c gcc.toList).set .xTxFnum c (((n + 1) % 256 : Nat) : Int)
    let h : FrameHead := ⟨n, s.nat .xTxBsq c, (s.traceOf .xTtiSent c).getD (n % 64) 0, (s.tx c).bip, bei, bdi, s.statSent c,
      s.flag .xTpgTx c, s.get .xAnnounce c == 2, padTo 10 (s.blob .xOhpIn c),
      (entrySlots n).map fun j => s.entryFor c j rows⟩
    (s.frameOut c h).emit (.overhead c n h.bsq h.tti bei bdi h.stat h.tpg h.fann h.gcc)

/-- OHP_IN_BURST (R225): once per transmitted logical frame. -/
def execOhpInBurst (c : Fin 12) (gcc : Vector Byte 10) (s : State) : Host.Outcome State Fault Refusal :=
  s.live fun s => s.txLogical c gcc

/-- A waiting out burst leaves the overhead port. -/
def State.burstOut (s : State) (c : Nat) : State :=
  let l := s.blob .xOhpOut c
  if l.isEmpty then s
  else ((s.setBlob .xOhpOut c (l.drop 10)).bump .carrierOhpOutBursts c).emit (.burst c (l.take 10))

/-- OHP_OUT_BURST (R225). -/
def execOhpOutBurst (c : Fin 12) (s : State) : Host.Outcome State Fault Refusal := s.live fun s => s.burstOut c

/-! ## Received logical frames (R226 to R229) -/

/-- A raw condition judged by the run of its outcomes: present at n in a row, absent at m; while a declared defect masks
it, it is held absent and the run starts anew (R231). -/
def State.judge (s : State) (c bit : Nat) (run : Reg) (yes : Bool) (n m : Int) : State :=
  if bitOf (maskedBy (s.nat .carrierDefectDeclared c)) bit then (s.set run c 0).setRaw c bit false
  else
    let s := s.set run c (runStep (s.get run c) yes)
    if n ≤ s.get run c then s.setRaw c bit true
    else if s.get run c ≤ -m then s.setRaw c bit false
    else s

/-- A raw condition that has no run of its own. -/
def State.judgeNow (s : State) (c bit : Nat) (yes : Bool) : State :=
  s.setRaw c bit (yes && !bitOf (maskedBy (s.nat .carrierDefectDeclared c)) bit)

/-- FNUM tracked: LOM after 5 unexpected, none after 2 expected; at the entry to Locked and in LOM the count follows the line (R229
bit 2). -/
def State.fnumEval (s : State) (c fnum : Nat) : State :=
  let good := s.nat .xFnum c == 256 || s.nat .xFnum c == fnum
  let s := s.judge c 2 .xLomRun (!good) 5 2
  let next := if good || s.bit .xRaw c 2 then fnum else s.nat .xFnum c
  s.set .xFnum c (((next + 1) % 256 : Nat) : Int)

/-- TIM as a whole trace cycle leaves it (R229 bit 8). -/
def State.timRaw (s : State) (c : Nat) : Bool :=
  let a := s.traceOf .carrierTtiAccepted c
  let e := s.traceOf .carrierTtiExpected c
  let m := s.nat .carrierDefectTimMode c
  s.flag .carrierTtiValid c
    && ((bitOf m 0 && a.take 16 != e.take 16) || (bitOf m 1 && (a.drop 16).take 16 != (e.drop 16).take 16))

/-- A trail trace byte received at FNUM; 64 in order make a cycle, three equal cycles one behind the other an accepted trace
(R228). -/
def State.traceEval (s : State) (c fnum : Nat) (b : Byte) : State :=
  let k := fnum % 64
  let cyc := s.blob .xTtiCycle c
  let s := s.when (cyc.length != k) fun s => (s.set .xTtiRun c 0).setBlob .xTtiLast c []
  let l := if k = 0 then [b] else if cyc.length = k then cyc ++ [b] else []
  let s := s.setBlob .xTtiCycle c l
  if l.length < 64 then s
  else
    let same := s.get .xTtiRun c ≠ 0 ∧ s.blob .xTtiLast c = l
    let s := (s.setBlob .xTtiLast c l).setBlob .xTtiCycle c [] |>.set .xTtiRun c
      (if same then min 3 (s.get .xTtiRun c + 1) else 1)
    let s := if s.get .xTtiRun c = 3 then (s.setBlob .carrierTtiAccepted c l).set .carrierTtiValid c 1 else s
    s.judgeNow c 8 (s.timRaw c)

/-- Word w of the payload areas of carrier c's multiframe goes to the tributary that the receive page names (R216, R218): at once
where it is not bonded, else into the boathouse with its multiframe. Stuff goes nowhere. -/
def State.wordIn (s : State) (c : Nat) (e : Nat × Nat × Bool) : State :=
  let n := s.slotCount c
  let m := slotWords (s.nat .xRxRate c)
  if n * m ≤ e.1 then s
  else
    match s.slotRow 1 c (e.1 % n) with
    | none => s
    | some r =>
      if s.bonded 1 r.trib then
        let x := s.rx c
        s.setRx c { x with multi := { x.multi with words := x.multi.words ++ [e] } }
      else
        let l := s.tribRows 1 r.trib
        let i := e.1 / n * l.length + r.order
        let x := s.rxTrib r.trib
        match x.shares.getLast? with
        | none => s
        | some h =>
          if carriesData h.cm (l.length * m) i then
            s.setRxTrib r.trib { x with shares := x.shares.dropLast
              ++ [h.put (dataIndex h.cm (l.length * m) i) e.2.1 (e.2.2 || s.flag .xCmLost r.trib)] }
          else s

/-- Frame f of carrier c's multiframe under way: its overhead is heard and its words go on (R215 to R219); bits carry the marks of
blocks delivered as zeros (R197). -/
def State.hearFrame (s : State) (c f : Nat) (bits : List (Bool × Bool)) : State :=
  let x := s.rx c
  let a := areaWords f x.multi (bits.drop 2048)
  (s.setRx c { x with multi := x.multi.hear f (bits.map Prod.fst) a.2 }).each a.1 fun s e => s.wordIn c e

/-- A received logical frame: its bits with their marks, those that the inverse matcher has delivered or else those given, with
the sequence removed (R213, R214). -/
def State.lineFrameIn (s : State) (c : Nat) (given : List Bool) : State × List (Bool × Bool) :=
  let n := s.nat .carrierFecRxNeed c
  let l := (s.rx c).nextFrame n given
  let bits := scramble (l.map Prod.fst)
  (s.setRx c ((s.rx c).frameTaken (s.lineSet 1 c) n (bits.drop 2048)), bits.zip (l.map Prod.snd))

/-- 10 received GCC bytes go to the buffer of the overhead port (R225). -/
def State.gccIn (s : State) (c : Nat) (gcc : List Byte) : State :=
  if !s.flag .xOhpOn c || s.bit .carrierDefectDeclared c 1 || s.bit .carrierDefectDeclared c 2 then s
  else if (s.blob .xOhpOut c).length < 40 then s.setBlob .xOhpOut c (s.blob .xOhpOut c ++ s.gccOf c gcc)
  else s.bump .carrierOhpOutDropped c

/-- A frame of a Compatible carrier in Locked or Carrying, as the FlexO and OTUC framers read it (R235): LOF and LOM from the
alignment, TIM, BDI and BEI from the section monitoring overhead, AIS and CSF from ODU and OPU, GCC0 in the GCC-B place. The frames
themselves are of ITU-T G.709 and G.709.1, which the spec does not hold (log entry 49). -/
def State.rxOtuc (s : State) (c : Nat) (m : OtucReading) : State :=
  let s := (((s.portTake c).judgeNow c 1 m.lof).judgeNow c 2 m.lom).bump .carrierOhBeiReceived c m.bei
  let s := (s.judge c 6 .xBdiRun m.bdi 5 5).judge c 7 .xAisRun m.ais 3 3
  let s := (s.traceEval c m.mfas m.tti).judgeNow c 9 m.csf
  s.gccIn c (List.replicate 8 0 ++ m.gcc.toList)

/-- A received logical frame of carrier c in Locked or Carrying. -/
def State.rxLogical (s : State) (c : Nat) (x : LineFrameReading) : State :=
  if !s.upLine c || s.rxStopped c then s
  else if s.nat .carrierFecProfileInForce c = profCompatible then s.rxOtuc c x.otuc
  else
    let was := (s.rx c).bip
    let a := s.lineFrameIn c x.bits
    let m := parseFrame was (a.2.map Prod.fst)
    let s := (a.1.portTake c).fnumEval c m.fnum
    let s := s.hearFrame c ((s.nat .xFnum c + 255) % 256) a.2
    let s := (s.bump .carrierOhBipErrors c m.bipErrors).set .xBeiStore c (s.get .xBeiStore c + m.bipErrors.val)
    let s := s.bump .carrierOhBeiReceived c m.bei
    let s := if 2 ≤ m.stat.val ∧ m.stat.val ≤ 6 then s.bump .carrierOhBadStat c else s
    let s := (s.judge c 6 .xBdiRun m.bdi 5 5).judge c 7 .xAisRun (m.stat.val == 7) 3 3
    (s.traceEval c m.fnum m.tti).gccIn c m.gcc.toList

/-- RX_LOGICAL_FRAME (R229). -/
def execRxLogicalFrame (c : Fin 12) (m : LineFrameReading) (s : State) : Host.Outcome State Fault Refusal :=
  s.live fun s => s.rxLogical c m

/-! ## Slot overhead (R217, R219, R223) -/

/-- Fields of a slot overhead entry. -/
def seTrib (w : Nat) : Nat := field w 52 12
/-- Order. -/
def seOrder (w : Nat) : Nat := field w 43 9
/-- Fill code. -/
def seFill (w : Nat) : Nat := field w 41 2
/-- Generation bit. -/
def seGen (w : Nat) : Nat := field w 40 1
/-- Cm. -/
def seCm (w : Nat) : Nat := field w 8 24

/-- Valid copies of the entry of slot j. -/
def copiesOf (slots : List (Nat × List (BitVec 64))) (j : Nat) : List Nat :=
  ((slots.filter fun e => e.1 == j).flatMap fun e => e.2.map BitVec.toNat).filter slotEntryOk

/-- The entry of slot j disagrees with the receive row in force for the multiframe it describes. -/
def State.slotDisagrees (s : State) (c : Nat) (slots : List (Nat × List (BitVec 64))) (j : Nat) : Bool :=
  match majority ((copiesOf slots j).map fun w => field w 43 21) with
  | none => false
  | some v =>
    match s.slotRow 1 c j with
    | none => v / 512 != 0xFFF
    | some r => v / 512 != r.trib || v % 512 != r.order

/-- Disagreements of a received multiframe (R223). -/
def State.slotsEval (s : State) (c : Nat) (slots : List (Nat × List (BitVec 64))) : State :=
  if (List.range (s.slotCount c)).any (s.slotDisagrees c slots) then
    let s := s.bump .carrierOhSlotMismatch c
    if s.flag .xSlotBad c then s else (s.set .xSlotBad c 1).raise (evCarrier c 10) []
  else s.set .xSlotBad c 0

/-- Cm, fill and gen of tributary t from the copies of its slots (R219, R283, R285); c is the carrier that counts a
loss. -/
def State.overheadTake (s : State) (c t : Nat) (copies : List Nat) : State :=
  let s :=
    match majority (copies.map seCm) with
    | some v => (s.set .tribRxCm t (v : Nat)).set .xCmLost t 0
    | none => ((s.set .xCmLost t 1).bump .carrierOhCmLost c |>.bump .tribRxCmLost t).raise (evCarrier c 12) [u16 t]
  let s :=
    match majority (copies.map seFill) with
    | some v =>
      (s.set .tribRxFill t (v : Nat)).csfRun t (if v = 2 then min 2 (s.get .xCsfRun t + 1) else 0) |>.setFlag .xTribFail3 t
        (v == 3)
    | none => s.csfRun t 0
  let s :=
    match majority (copies.map seGen) with
    | some v => s.set .cryptRxOverheadGen t (v : Nat)
    | none => s
  s.set .tribRxCapacity t (s.tribCapacity 1 t : Nat)

/-- Copies of every slot that the receive page gives tributary t on the carriers of a list of entries, numbered by
row. -/
def State.copiesFor (s : State) (t : Nat) (rows : List (Nat × List (BitVec 64))) : List Nat :=
  (s.tribRows 1 t).flatMap fun r => copiesOf rows r.row

/-! ## The receive boundary -/

/-- A follow or parity flip of the receive pages of c, checked as in R221; a refusal leaves the page and its reason. -/
def State.followFlip (s : State) (c : Nat) (late : Bool) : State :=
  let why := s.flipReason 1 (2 ^ c)
  if why ≠ 0 then s.set .tsiRefusal 1 (why : Nat)
  else
    let s := (s.pageFlip 1 c).set .xTpgRef c (1 - s.get .xTpgRef c) |>.set .xTpgRun c 0
    if late then s.bump .carrierOhLateFlips c else s

/-- Receive pages at the boundary that ends multiframe m (R222, R236): the majority TPG against the reference, where a frame has
come. -/
def State.rxPages (s : State) (c : Nat) (m : RxMulti) : State :=
  let parity := if m.frames = 0 then s.get .xTpgRef c else ofFlag (decide (m.frames < 2 * m.parity))
  let s := if s.flag .xTpgKnown c then s else (s.set .xTpgKnown c 1).set .xTpgRef c parity |>.set .xTpgRun c 0
  let s := s.set .xTpgRun c (if s.get .xTpgRef c = parity then 0 else min 2 (s.get .xTpgRun c + 1))
  if s.bit .tsiPending 1 c then s.pageFlip 1 c
  else if !s.flag .tsiRxFollow 0 then s.set .xTpgRun c 0
  else
    let blind := s.bit .carrierDefectDeclared c 1 || s.bit .carrierDefectDeclared c 2 || s.flag .carrierSlackHeld c
    if 128 ≤ m.announced ∧ !blind then s.followFlip c false
    else if s.get .xTpgRun c = 2 then s.followFlip c true
    else s

/-- Received phase word against the tracked one (R209). -/
def phaseAdvance (f w : Nat) : Nat :=
  let q := field w 27 3
  let i := field w 17 10 * 583 + field w 7 10
  let j := i + (ladderInfo (q + f) - ladderInfo q)
  let queue := field w 0 7 + 33 * (j / 583 - i / 583) - (3168 * (q + f) / 7 - 3168 * q / 7)
  (q + f) % 7 * 2 ^ 27 + j / 583 % 616 * 2 ^ 17 + j % 583 * 2 ^ 7 + queue % 128

/-- The phase word of a received multiframe: the first adopts it, a disagreement counts, three in a row adopt it. -/
def State.phaseEval (s : State) (c w : Nat) : State :=
  let prof := s.nat .carrierFecProfileInForce c
  let next := fun (x : Nat) =>
    if prof = profSprint then 0 else phaseAdvance (slotsPerMultiframe (s.nat .carrierFecModulationInForce c)) x
  if prof = profCompatible then s
  else if !s.flag .xPhaseKnown c then
    s.set .xPhaseKnown c 1 |>.set .xPhaseWord c (next w : Nat) |>.set .xPhaseBad c 0
  else if s.nat .xPhaseWord c = w then s.set .xPhaseWord c (next w : Nat) |>.set .xPhaseBad c 0
  else
    let s := (s.bump .carrierFecPhaseMismatch c).set .xPhaseBad c (s.get .xPhaseBad c + 1)
    if 3 ≤ s.get .xPhaseBad c then
      (s.set .xPhaseWord c (next w : Nat) |>.set .xPhaseBad c 0).setRx c { s.rx c with aligned := false }
    else s.set .xPhaseWord c (next (s.nat .xPhaseWord c) : Nat)

/-- Written receive rows of tributaries take force at their boundary; frames held for a port that changes are discarded
(R253). -/
def State.rowsTake (s : State) (l : List Nat) : State :=
  s.each (l.filter fun t => s.flag .xTribRowDue t) fun s t =>
    let was := s.nat .xTribRow t
    let now := s.nat .tribEgressRow t
    let s := if rtValid was && (!rtValid now || rtPort was != rtPort now) then s.dropTribQueue t else s
    let s := if rtTransparent was && rtPort was != rtPort now then s.setEgress (rtPort was) [] false else s
    (s.set .xTribRow t (now : Nat)).set .xTribRowDue t 0

/-- Locked advances to Carrying at a multiframe boundary (R47). -/
def State.advance (s : State) (c : Nat) : State :=
  let m := s.mode
  if s.get .carrierState c = 3 ∧ s.get .carrierRequest c = 2 ∧ (m = 3 ∨ m = 4) then s.setCarrierState c csCarrying else s

/-- UNC and CSF at a multiframe (R229 bits 5 and 9); in Compatible CSF comes from elsewhere (R235). -/
def State.multiframeDefects (s : State) (c : Nat) : State :=
  let s := s.judgeNow c 5 (s.get .carrierFecUncorrectable c != s.get .xUncLast c)
    |>.set .xUncLast c (s.get .carrierFecUncorrectable c)
  if s.nat .carrierFecProfileInForce c = profCompatible then s
  else if bitOf (maskedBy (s.nat .carrierDefectDeclared c)) 9 then
    (s.each (s.tribsTouching 1 c) fun s t => s.csfRun t 0).setRaw c 9 false
  else s.setRaw c 9 ((s.tribsTouching 1 c).any fun t => s.get .xCsfRun t == 2)

/-- Delivery in Pair at the boundary of a Carrying carrier (R455, R463). -/
def State.deliveryEval (s : State) (c : Nat) (bsq : Int) : State :=
  if !s.pairActive || s.get .carrierState c != 4 then s
  else
    let s := if !s.flag .xDeliver c && decide (0 ≤ bsqDiff bsq (s.get .xDeliverFrom c)) then s.set .xDeliver c 1 else s
    if s.flag .xDeliver c then s.tieSend (.tieDelivery c bsq.toNat) else s

/-- Slot overhead of a received multiframe. -/
def State.slotsTake (s : State) (c : Nat) (slots : List (Nat × List (BitVec 64))) : State :=
  let rows := slots.map fun e => (320 * c + e.1, e.2)
  (s.slotsEval c slots).each ((s.tribsTouching 1 c).filter fun t => !s.bonded 1 t) fun s t =>
    s.overheadTake c t (s.copiesFor t rows)

/-- A multiframe begins for tributary t with the Cm taken for it (R218, R219); what has not come of the one before is lost. A
tributary that is not delivered, or failed, takes nothing (R232, R253). -/
def State.openShare (s : State) (t : Nat) : State :=
  let x := s.rxTrib t
  if !rtValid (s.egressRow t) || s.tribFailed t || !s.admits then
    (if x.shares.isEmpty then s else s.setRxTrib t { x with shares := [] })
  else
    let l := x.shares.map RxShare.close
    s.setRxTrib t { x with shares := (l.filter fun h => decide (h.taken < h.cm)) ++ [⟨s.nat .tribRxCm t, 0, []⟩] }

/-- The multiframe that ends goes to the boathouse where its carrier is an aligned member (R259). -/
def State.stow (s : State) (c : Nat) (bsq : Option Nat) : State :=
  let x := s.rx c
  match bsq with
  | some b =>
    if s.get .carrierBondState c = 3 then
      s.setRx c { x with multi := RxMulti.start, boats := x.boats ++ [⟨b, x.multi.entries, x.multi.words⟩] }
    else s.setRx c { x with multi := RxMulti.start, boats := [] }
  | none => s.setRx c { x with multi := RxMulti.start }

/-- Bonding and delivery at the end of a multiframe with BSQ b, which began at the boundary before (R258, R455). -/
def State.boundaryBonds (s : State) (c : Nat) (bsq : Option Nat) : State :=
  match bsq with
  | none => s
  | some b =>
    let s := if s.flag .xMfArrival c then s.bondBoundary c b (s.get .xMfArrival c - 1) else s
    s.deliveryEval c b

/-- What a receive multiframe boundary does where the frame, its overhead and the rows of chapter 10 are not used (R235). -/
def State.rxBoundaryCompatible (s : State) (c : Nat) : State :=
  ((s.reloadTables.pageSettle 1 c).advance c).multiframeDefects c

/-- A receive multiframe boundary of carrier c (R209, R219, R222, R223, R229, R253, R258, R282), as the logical frames of the
multiframe that it ends have it. The phase word compared is the one that the demapper holds, or, where it has taken none (log
entry 46), the one given. -/
def State.rxBoundary (s : State) (c : Nat) (m : RxMultiframe) : State :=
  if !s.upLine c || s.rxStopped c then s
  else if s.nat .carrierFecProfileInForce c = profCompatible then s.rxBoundaryCompatible c
  else
    let h := (s.rx c).multi
    let word := (s.rx c).phase.getD (phaseWordOf m.signs)
    let bsq := majority h.bsqs
    let s := ((s.reloadTables.rxPages c h).advance c).slotsTake c (copiesByEntry h.entries)
    let s := s.setRx c { s.rx c with phase := none }
    let s := (s.phaseEval c word).bindingsTake 1 (s.tribsOn 1 c)
    let s := (s.rowsTake (s.tribsOn 1 c)).multiframeDefects c
    let s := ((s.boundaryBonds c bsq).stow c bsq).set .xMfArrival c (m.arrival + 1 : Nat) |>.set .xFnum c 0
    s.each ((s.tribsOn 1 c).filter fun t => !s.bonded 1 t) State.openShare

/-- RX_MULTIFRAME_BOUNDARY (R222). -/
def execRxMultiframeBoundary (c : Fin 12) (m : RxMultiframe) (s : State) : Host.Outcome State Fault Refusal :=
  s.live fun s => s.rxBoundary c m

/-- The multiframe that the aligned members of a list release next: the earliest that one of them holds. -/
def State.boatNext (s : State) (l : List Nat) : Option Nat :=
  (l.filterMap fun c => ((s.rx c).boats.head?).map Boat.bsq).foldl (fun (a : Option Nat) b =>
    match a with
    | none => some b
    | some x => some (if bsqDiff b x < 0 then b else x)) none

/-- The word of a boat by its number; one that has not come is 0 and lies in a failed tile. -/
def Boat.word (b : Option Boat) (w : Nat) : Nat × Bool :=
  match b with
  | none => (0, true)
  | some x =>
    match x.words.find? fun e => e.1 == w with
    | some e => e.2
    | none => (0, true)

/-- Bonded tributary t of multiframe x rebuilt from the members' words (R218, R259). -/
def State.rebuild (s : State) (x t : Nat) : State :=
  let rows := s.tribRows 1 t
  let n := rows.length
  let m := slotWords (s.nat .xRxRate ((s.orderZero 1 t).getD 0))
  let cm := s.nat .tribRxCm t
  let boat := fun (c : Nat) => (s.rx c).boats.find? fun b => b.bsq == x
  let words := ((List.range (n * m)).filter (carriesData cm (n * m))).map fun i =>
    match rows.find? fun r => r.order == i % n with
    | none => (dataIndex cm (n * m) i, 0, true)
    | some r =>
      let e := Boat.word (boat r.carrier) (i / n * s.slotCount r.carrier + r.row % 320)
      (dataIndex cm (n * m) i, e.1, e.2 || s.flag .xCmLost t)
  let y := s.rxTrib t
  if !rtValid (s.egressRow t) || s.tribFailed t || !s.admits then
    (if y.shares.isEmpty then s else s.setRxTrib t { y with shares := [] })
  else s.setRxTrib t { y with shares := (y.shares.filter fun h => decide (h.taken < h.cm)) ++ [⟨cm, 0, words⟩] }

/-- At release(x) the bonded tributaries of a group are rebuilt from the aligned members' words, and take Cm and fill of the next
multiframe from their entries (R259): entries are numbered by row; members absorbed since join (R260). Where the boathouse holds
nothing of the aligned members, the entries are those given. -/
def State.release (s : State) (g : Nat) (slots : List (Nat × List (BitVec 64))) : State :=
  let l := s.alignedList g
  if l.isEmpty then s
  else
    let s := s.each l fun s c => s.set .xBondJoined c 1
    let tribs := (((l.flatMap (s.tribsTouching 1)).eraseDups).filter (s.bonded 1)).filter fun t =>
      (s.tribCarriers 1 t).all l.contains
    let next := s.boatNext l
    let s := match next with
      | none => s
      | some x => s.each tribs fun s t => s.rebuild x t
    let held := l.flatMap fun c => ((s.rx c).boats.filter fun b => next == some b.bsq).flatMap fun b =>
      b.entries.map fun e => (320 * c + e.1, [BitVec.ofNat 64 e.2])
    let mine := if next.isNone then slots.filter fun e => l.contains (e.1 / 320) else held
    let s := match next with
      | none => s
      | some x => s.each l fun s c => s.setRx c { s.rx c with
          boats := (s.rx c).boats.filter fun b => decide (0 < bsqDiff b.bsq x) }
    s.each tribs fun s t => s.overheadTake ((s.orderZero 1 t).getD 0) t (s.copiesFor t mine)

/-- BOATHOUSE_RELEASE (R259). -/
def execBoathouseRelease (g : Fin 6) (slots : List (Nat × List (BitVec 64))) (s : State) :
    Host.Outcome State Fault Refusal :=
  s.live fun s => s.release g slots

/-! ## Page flips (R221, R222) -/

/-- 6800.06 or 6801.06 written. -/
def writeFlip (dir : Nat) (v : Int) (s : State) : State × Answer :=
  let mask := v.toNat % 4096
  let why := s.flipReason dir mask
  if why ≠ 0 then (s.set .tsiRefusal dir (why : Nat), refusedFor why)
  else
    (s.each (carriers.filter (bitOf mask)) fun s c =>
      let s := s.setBit .tsiPending dir c true
      if s.idle c then s.pageFlip dir c else if dir = 0 then s.set .xAnnounce c 1 else s, accepted)

/-- TX_PAGE_FLIP (R221). -/
def execTxPageFlip (cl : Client) (mask : Fin 65536) (s : State) : Host.Outcome State Fault Refusal :=
  .next (s.serveWrite cl .tsiFlip 0 (.int mask) (writeFlip 0 mask))

/-- RX_PAGE_FLIP (R222). -/
def execRxPageFlip (cl : Client) (mask : Fin 65536) (s : State) : Host.Outcome State Fault Refusal :=
  .next (s.serveWrite cl .tsiFlip 1 (.int mask) (writeFlip 1 mask))

/-- A standby row written; one of a carrier with a pending flip is refused with reason 5 (R221). -/
def writeStandbyRow (dir row : Nat) (v : Int) (s : State) : State × Answer :=
  let t := field v.toNat 16 12
  if 3839 < t then (s, refusedWith 0x07)
  else if s.bit .tsiPending dir (row / 320) then (s.set .tsiRefusal dir 5, refusedFor 5)
  else (s.set .tsiStandbyRow (3840 * dir + row) v, accepted)

/-- Entries of a byte string, w bytes each. -/
def entriesOf (w : Nat) (b : List Byte) : List Nat :=
  (List.range (b.length / w)).map fun k => leNat ((b.drop (w * k)).take w)

/-- A standby page written whole (R221): refused whole where a row of a carrier with a pending flip would change, or a
row breaks Table: Connection memory row. -/
def writeStandbyPage (dir : Nat) (b : List Byte) (s : State) : State × Answer :=
  let l := (entriesOf 4 b).zipIdx
  if l.any fun e => (e.1 &&& Reg.reserved .tsiStandbyRow) != 0 || decide (3839 < field e.1 16 12) then
    (s, refusedWith 0x07)
  else if l.any fun e => s.bit .tsiPending dir (e.2 / 320) then (s.set .tsiRefusal dir 5, refusedFor 5)
  else (s.each l fun s e => s.set .tsiStandbyRow (3840 * dir + e.2) (e.1 : Nat), accepted)

/-! ## Defects (R229 to R232) -/

/-- CSF flags of the tributaries of carrier c, cleared one by one with their records. -/
def State.csfClear (s : State) (c : Nat) : State :=
  if !s.bit .carrierDefectDeclared c 9 then s
  else
    let s := s.each ((s.tribsTouching 1 c).filter fun t => s.flag .tribRxCsf t) fun s t =>
      (s.set .tribRxCsf t 0).raiseClear (evCarrier c 9) [u16 t] true
    (s.setBit .carrierDefectDeclared c 9 false).refreshRaw c

/-- A defect present for its set time is declared; CSF by tributary. LOS and LOF send Locked and Carrying to Seeking
whether or not they were declared already (R230). -/
def State.declare (s : State) (c bit t : Nat) : State :=
  if s.idle c || !s.bit .carrierDefectRaw c bit || !s.defectTime c bit t true then s
  else if bit = 9 ∧ s.nat .carrierFecProfileInForce c ≠ profCompatible then
    if !(s.tribsTouching 1 c).contains t || s.get .xCsfRun t != 2 then s
    else
      let s := if s.bit .carrierDefectDeclared c 9 then s
        else s.each (s.tribsTouching 1 c) fun s u => s.set .tribRxCsf u 0
      if s.flag .tribRxCsf t then s
      else
        (((s.set .tribRxCsf t 1).setBit .carrierDefectDeclared c 9 true).setBit .carrierDefectSticky c 9 true).raiseClear
          (evCarrier c 9) [u16 t] false
  else
    let s := if bitOf (defectMasks bit) 9 then s.csfClear c else s
    let s := s.defectDeclared c bit []
    if bit ≤ 1 ∧ s.upLine c then s.toSeeking c (bit + 1) else s

/-- DEFECT_DECLARE (R230). -/
def execDefectDeclare (c : Fin 12) (bit : Fin 10) (t : Fin 3840) (s : State) : Host.Outcome State Fault Refusal :=
  s.live fun s => s.declare c bit t

/-- A defect absent for its clear time is cleared; CSF by tributary. -/
def State.clearDefect (s : State) (c bit t : Nat) : State :=
  if !s.defectTime c bit t false then s
  else if bit = 9 ∧ s.nat .carrierFecProfileInForce c ≠ profCompatible then
    if !s.bit .carrierDefectDeclared c 9 || !s.flag .tribRxCsf t || s.get .xCsfRun t == 2 then s
    else
      let s := (s.set .tribRxCsf t 0).raiseClear (evCarrier c 9) [u16 t] true
      if (s.tribsTouching 1 c).any fun u => s.flag .tribRxCsf u then s
      else (s.setBit .carrierDefectDeclared c 9 false).refreshRaw c
  else if s.bit .carrierDefectRaw c bit then s
  else s.defectCleared c bit []

/-- DEFECT_CLEAR (R230). -/
def execDefectClear (c : Fin 12) (bit : Fin 10) (t : Fin 3840) (s : State) : Host.Outcome State Fault Refusal :=
  s.live fun s => s.clearDefect c bit t

/-- The DEG threshold in force. -/
def State.degLevel (s : State) (c : Nat) : Int :=
  let v := s.get .carrierDefectDegThreshold c
  let prof := s.nat .carrierFecProfileInForce c
  if v ≠ 0 then v else if prof = profCompatible then 200000000 else if prof = profSprint then 45000000 else 240000000

/-- DEG at the end of an aligned second, after the coding figures of that second (R229 bit 4). -/
def State.degSecond (s : State) (c : Nat) : State :=
  let up := s.upLine c
  if !s.flag .xDegWhole c then (s.set .xDegRun c 0).setFlag .xDegWhole c up
  else if bitOf (maskedBy (s.nat .carrierDefectDeclared c)) 4 then (s.set .xDegRun c 0).setRaw c 4 false
  else if s.degLevel c < s.get .carrierFecPreFecBer c then
    let s := s.set .xDegRun c (s.get .xDegRun c + 1)
    if s.get .carrierDefectDegSeconds c ≤ s.get .xDegRun c then s.setRaw c 4 true else s
  else (s.set .xDegRun c 0).setRaw c 4 false

end Sys2Proof.Machine
end

