-- ==== Sys2Proof/Machine/Ptp.lean ====
section
/-! DEFINITION. PTP event messages: where they lie in a frame, the timestamp queue, and the timestamp written on egress
(R401, R406 to R408). -/

namespace Sys2Proof.Machine

/-- Two bytes of a frame, most significant first. -/
def be16 (l : List Byte) (n : Nat) : Nat := 256 * (l.getD n 0).toNat + (l.getD (n + 1) 0).toNat

/-- A TPID that a port has enabled (R238). -/
def tpidOn (tpids ty : Nat) : Bool :=
  (ty == 0x8100 && bitOf tpids 0) || (ty == 0x88A8 && bitOf tpids 1) || (ty == 0x9100 && bitOf tpids 2)

/-- How a frame carries a PTP event message: EtherType 0x88F7, UDP over IPv4, UDP over IPv6 (R406). -/
inductive PtpKind where
  | ethernet
  | udp4
  | udp6
deriving DecidableEq, Repr

/-- Where the PTP common header of an event message begins, and how it is carried; none for any other frame. -/
def ptpAt (tpids : Nat) (l : List Byte) : Option (Nat × PtpKind) :=
  let o1 := if tpidOn tpids (be16 l 12) then 16 else 12
  let o := if o1 = 16 ∧ tpidOn tpids (be16 l 16) then 20 else o1
  let hit :=
    if be16 l o = 0x88F7 then some (o + 2, PtpKind.ethernet)
    else if be16 l 12 = 0x0800 ∧ l.getD 14 0 = 0x45 ∧ l.getD 23 0 = 17 ∧ be16 l 36 = 319 then some (42, .udp4)
    else if be16 l 12 = 0x86DD ∧ (l.getD 14 0).toNat / 16 = 6 ∧ l.getD 20 0 = 17 ∧ be16 l 56 = 319 then
      some (62, .udp6)
    else none
  match hit with
  | some (h, k) => if (l.getD h 0).toNat % 16 ≤ 3 ∧ h + 34 ≤ l.length then some (h, k) else none
  | none => none

/-- Seconds, nanoseconds and fraction of time base t as one number in the layout of the timestamp queue entry. -/
def State.stamp (s : State) (t : Nat) : Nat :=
  s.nat .xTbSec t % 2 ^ 48 * 2 ^ 48 + s.nat .xTbNs t * 2 ^ 16 + s.nat .xTbFrac t / 2 ^ 16 % 2 ^ 16

/-- A time base value as 12 bytes: U48 seconds, U32 nanoseconds, U16 fraction (R401). -/
def State.timeBytes (s : State) (t : Nat) : List Byte :=
  leBytes 6 (s.get .xTbSec t) ++ leBytes 4 (s.get .xTbNs t) ++ leBytes 2 (s.get .xTbFrac t / 2 ^ 16)

/-- An event message arriving from the host is timestamped; a full queue of 64 drops the entry (R407). -/
def State.ptpArrive (s : State) (p : Nat) (l : List Byte) : State :=
  if !s.flag .portPtpEnable p then s
  else
    match ptpAt (s.nat .portClsTpidSet p) l with
    | none => s
    | some (h, _) =>
      let t := s.nat .portPtpTbase p
      let e := 2 ^ 127 + (l.getD h 0).toNat % 16 * 2 ^ 122 + t * 2 ^ 120 + p * 2 ^ 112 + be16 l (h + 30) * 2 ^ 96
        + s.stamp t
      if s.tsQueue.length < 64 then { s with tsQueue := s.tsQueue ++ [e] }
      else
        let s := (s.set .tsqOverflow 0 1).bump .tsqDropped 0
        if s.newSecond .xTsqSecond 0 then (s.markSecond .xTsqSecond 0).raise (evDev 34) [u16 t] else s

/-- Bytes of a list replaced from position n. -/
def spliceBytes (l : List Byte) (n : Nat) (v : List Byte) : List Byte := l.take n ++ v ++ l.drop (n + v.length)

/-- Sum of the 16-bit words of a byte string, most significant byte first, an odd last byte filled with 0. -/
def wordSum : List Byte → Nat
  | [] => 0
  | [a] => 256 * a.toNat
  | a :: b :: t => 256 * a.toNat + b.toNat + wordSum t

/-- Ones' complement checksum of a sum of 16-bit words; 0 is sent as 0xFFFF. -/
def onesComplement (n : Nat) : Nat :=
  let v := 0xFFFF - (if n = 0 then 0 else (n - 1) % 0xFFFF + 1)
  if v = 0 then 0xFFFF else v

/-- The UDP checksum of an IPv6 frame whose checksum field is 0. -/
def udp6Checksum (l : List Byte) : Nat :=
  let n := be16 l 58
  onesComplement (wordSum ((l.drop 22).take 32) + n + 17 + wordSum ((l.drop 54).take n))

/-- Two bytes, most significant first. -/
def beTwo (v : Nat) : List Byte := [BitVec.ofNat 8 (v / 256), BitVec.ofNat 8 v]

/-- An event message leaving toward the host with its nanoseconds written, the UDP checksum and the FCS renewed
(R408). -/
def State.ptpWrite (s : State) (p : Nat) (l : List Byte) : List Byte :=
  if !s.flag .portPtpEnable p || !s.flag .portPtpRxWrite p then l
  else
    match ptpAt (s.nat .portClsTpidSet p) l with
    | none => l
    | some (h, k) =>
      let ns := s.nat .xTbNs (s.nat .portPtpTbase p)
      let l := spliceBytes l (h + 16) (beTwo (ns / 65536) ++ beTwo (ns % 65536))
      let l := match k with
        | .ethernet => l
        | .udp4 => spliceBytes l 40 [0, 0]
        | .udp6 =>
          let z := spliceBytes l 60 [0, 0]
          spliceBytes z 60 (beTwo (udp6Checksum z))
      withFcs l

end Sys2Proof.Machine
end

