-- ==== Sys2Proof/Machine/Flows.lean ====
section
/-! DEFINITION. Client frames: classification, admission, pause, the coxswain's calendar, receive queues and egress
(R238 to R255, R322, R323, R393). -/

namespace Sys2Proof.Machine

/-! ## Ingress (R238, R243, R254) -/

/-- Gb/s of a port by its rate code (R294). -/
def portRate (code : Nat) : Nat := ([0, 200, 400, 800, 1600] : List Nat).getD code 0

/-- Nanoseconds of n pause quanta of 512 bit times, rounded up. -/
def quantaNs (rate n : Nat) : Nat := (512 * n + (max 1 rate - 1)) / max 1 rate

/-- The host holds priority i of port p paused. -/
def State.heldPrio (s : State) (p i : Nat) : Bool := decide (4 * s.get .xTicks 0 < s.get .xPfcUntil (8 * p + i))

/-- 5C08.09 as read. -/
def State.heldMask (s : State) (p : Nat) : Nat :=
  (List.range 8).foldl (fun a i => if s.heldPrio p i then a + 2 ^ i else a) 0

/-- The host pauses priority i of port p for n quanta; 0 ends its pause. -/
def State.holdPrio (s : State) (p i n : Nat) : State :=
  s.set .xPfcUntil (8 * p + i) (4 * s.get .xTicks 0 + quantaNs (portRate (s.nat .portRate p)) n)

/-- The pause times that a PFC or PAUSE frame names, by priority; none for any other frame (R254). -/
def pauseOf (l : List Byte) : Option (List (Nat × Nat)) :=
  if be16 l 12 ≠ 0x8808 then none
  else if be16 l 14 = 1 then some ((List.range 8).map fun i => (i, be16 l 16))
  else if be16 l 14 = 0x0101 then
    some (((List.range 8).filter fun i => bitOf (be16 l 16) i).map fun i => (i, be16 l (18 + 2 * i)))
  else none

/-- A frame that the port takes as it came: sound FCS, 64 bytes to the port's maximum. -/
def State.frameSound (s : State) (p : Nat) (l : List Byte) : Bool :=
  fcsOk l && decide (64 ≤ l.length) && decide ((l.length : Int) ≤ s.get .portMaxFrame p)

/-- Source 64 names a flow that discards (R243). -/
def State.flowDiscard (s : State) (f : Nat) : State :=
  if s.newSecond .xFlowSecond f then (s.markSecond .xFlowSecond f).raise (evDev 64) [u16 f] else s

/-- Admission of a frame to an enabled packet flow (R243). -/
def State.takeIn (s : State) (f : Nat) (l : List Byte) : State :=
  let v := s.flow f
  if 512 * fDepth v < s.nat .flowFill f + 8 + l.length then
    (if fPause v then s.bump .flowOverruns f else s.bump .flowDepthDrops f).flowDiscard f
  else if s.nat .poolFree 0 < (8 + l.length + 511) / 512 then
    ((s.bump .flowPoolDrops f).bump .poolDrops 0).flowDiscard f
  else
    let s := s.putQueue f (s.queueOf f ++ [⟨false, l⟩]) 0
    if fCountRx v then s else s.countFlow f l.length

/-- Blocks of the PCS stream of transparent port p: packed into words of its default flow (R247). Words that come at a full queue, or
while the pool has no tile for them, are discarded, and the tile in which they are missing fails custody (R248); those that come
outside Carry are discarded too (log entry 28). -/
def State.pcsIn (s : State) (p : Nat) (l : List (BitVec 257)) : State :=
  let f := s.nat .portClsDefaultFlow p
  let v := s.flow f
  if !s.transparentPort p || !fEnable v then s
  else
    let r := pcsWords ((s.blob .xPcsTail f).map fun b => b != 0) l
    let n := r.1.length
    let s := s.setBlob .xPcsTail f (r.2.map fun b => BitVec.ofNat 8 b.toNat)
    if !s.admits then s.bump .flowFlushed f (8 * n)
    else
      let q := s.wordsOf f
      let o := s.nat .xFlowOffset f
      let held := 8 * q.length
      let room := min (64 * fDepth v - q.length) ((512 * (s.nat .poolFree 0 + tilesFor o held) - (o + held)) / 8)
      let s := (s.bump .xFlowCame f n).putWords f (q ++ r.1.take room) 0
      let s := if fCountRx v then s else s.bump .flowcountBytes f (8 * min room n)
      if n ≤ room then s
      else
        let tile := (o + 8 * (s.wordsOf f).length - 1) / 512
        let s := if (s.flowMarks f).contains tile then s else s.setBlob .xFlowMarks f (numberBytes (s.flowMarks f ++ [tile]))
        s.slip (fTrib v) (n - room)

/-- A client frame arriving at port p: what is errored is discarded first, then event messages are timestamped, pause frames
consumed, and the rest classified. -/
def State.frameArrives (s : State) (p : Nat) (l : List Byte) : State :=
  if s.transparentPort p then s
  else if !s.frameSound p l then s.bump .portClsErrored p
  else
    let s := s.ptpArrive p l
    match pauseOf l with
    | some q => (s.bump .portPfcReceived p).each q fun s e => s.holdPrio p e.1 e.2
    | none =>
      let f := s.classify p l
      if f = 0xFFFF then s.bump .portClsUnclassified p
      else if !fEnable (s.flow f) || !s.admits then s.bump .portClsDisabledFlow p
      else s.takeIn f l

/-- What port p takes from its lanes. fec counts the RS-FEC codewords corrected, uncorrectable, and the symbols corrected since the
arrival before (Table: Port objects). -/
def State.hostFrame (s : State) (p : Nat) (x : HostArrival) (fec : Vector Nat 3) : State :=
  let n := fun k => fec.toList.getD k 0
  let s := s.bump .portFecCorrected p (n 0) |>.bump .portFecUncorrected p (n 1) |>.bump .portFecSymbols p (n 2)
  if !s.flag .portEnable p || s.portDown p then s
  else
    match x with
    | .frame l => s.frameArrives p l
    | .blocks l => s.pcsIn p l

/-- HOST_FRAME_RECEIVE (R238). -/
def execHostFrameReceive (p : Fin 48) (x : HostArrival) (fec : Vector Nat 3) (s : State) :
    Host.Outcome State Fault Refusal :=
  s.live fun s => s.hostFrame p x fec

/-- PFC_RESEND (R244). -/
def execPfcResend (p : Fin 48) (s : State) : Host.Outcome State Fault Refusal :=
  s.live fun s =>
    let m := s.nat .portPfcAssertedMask p
    if m = 0 then s else s.sendPfc p m m

/-! ## Classifier (R239, R240) -/

/-- A key laid out as Table: Classifier key. -/
def keyOk (k : Nat) : Bool :=
  let vid := k % 4096
  decide (k < 48 * 8192) && (if bitOf k 12 then decide (1 ≤ vid ∧ vid ≤ 4094) else vid == 0)

/-- A flow that a key may name (R240 code 4). -/
def State.keyFlowOk (s : State) (k f : Nat) : Bool :=
  decide (f ≤ 32767) && fPort (s.nat .flowEntry f) == k / 8192 && !fTransparent (s.nat .flowEntry f)

/-- The table with key k naming flow f. -/
def State.clsPut (s : State) (k f : Nat) : State :=
  let s := { s with classifier := sput natLt 0 s.classifier k (f + 1) }
  s.set .clsEntries 0 (s.classifier.length : Nat)

/-- 6000.03 written: the operation runs for up to 2 µs. -/
def writeClsOp (op : Int) (s : State) : State × Answer :=
  if s.flag .clsBusy 0 then (s, refusedWith 0x0A) else ((s.set .clsBusy 0 1).set .xClsOp 0 op, accepted)

/-- 6000.01 or .02 written. -/
def writeClsSetting (r : Reg) (v : Int) (s : State) : State × Answer :=
  if s.flag .clsBusy 0 then (s, refusedWith 0x0A) else (s.set r 0 v, accepted)

/-- CLS_INSERT (R240). -/
def execClsInsert (cl : Client) (s : State) : Host.Outcome State Fault Refusal :=
  .next (s.serveWrite cl .clsOp 0 (.int 1) (writeClsOp 1))

/-- CLS_DELETE (R240). -/
def execClsDelete (cl : Client) (s : State) : Host.Outcome State Fault Refusal :=
  .next (s.serveWrite cl .clsOp 0 (.int 2) (writeClsOp 2))

/-- CLS_LOOKUP (R240). -/
def execClsLookup (cl : Client) (s : State) : Host.Outcome State Fault Refusal :=
  .next (s.serveWrite cl .clsOp 0 (.int 3) (writeClsOp 3))

/-- CLS_CLEAR_ALL (R240). -/
def execClsClearAll (cl : Client) (s : State) : Host.Outcome State Fault Refusal :=
  .next (s.serveWrite cl .clsOp 0 (.int 4) (writeClsOp 4))

/-- The code a classifier operation ends with (R240); 0 done. -/
def State.clsCode (s : State) (op k f : Nat) : Nat :=
  let known := (s.lookup k).isSome
  if op = 4 then 0
  else if !keyOk k then 1
  else if op = 1 then
    (if !s.keyFlowOk k f then 4 else if !known && decide (32768 ≤ s.classifier.length) then 2 else 0)
  else if known then 0
  else 3

/-- The operation that runs completes; one that fails leaves the table. -/
def State.clsComplete (s : State) : State :=
  if !s.flag .clsBusy 0 then s
  else
    let op := s.nat .xClsOp 0
    let k := s.nat .clsKey 0
    let f := s.nat .clsFlow 0
    let code := s.clsCode op k f
    let s := (s.set .clsBusy 0 0).set .clsResult 0 (code : Nat)
    if code ≠ 0 then s
    else if op = 1 then s.clsPut k f
    else if op = 2 then
      let s := { s with classifier := sdel s.classifier k }
      s.set .clsEntries 0 (s.classifier.length : Nat)
    else if op = 3 then s.set .clsFound 0 ((s.lookup k).getD 0xFFFF : Nat)
    else ({ s with classifier := [] } : State).set .clsEntries 0 0

/-- CLS_OP_COMPLETE (R240). -/
def execClsOpComplete (s : State) : Host.Outcome State Fault Refusal := s.live State.clsComplete

/-- 6000.09 written: the whole table replaced, or refused whole. -/
def writeClsLoad (b : List Byte) (s : State) : State × Answer :=
  let l := (List.range (b.length / 6)).map fun k => (leNat ((b.drop (6 * k)).take 4), leNat ((b.drop (6 * k + 4)).take 2))
  if !(l.all fun e => keyOk e.1) || !decide (l.map Prod.fst).Nodup then (s, refusedWith 0x07)
  else if s.flag .clsBusy 0 then (s, refusedWith 0x0A)
  else if !(l.all fun e => s.keyFlowOk e.1 e.2) then (s, refusedWith 0x08)
  else
    let s := ({ s with classifier := [] } : State).set .clsEntries 0 0
    (s.each l fun s e => s.clsPut e.1 e.2, accepted)

/-- CLS_BULK_LOAD (R240). -/
def execClsBulkLoad (cl : Client) (v : List Byte) (s : State) : Host.Outcome State Fault Refusal :=
  .next (s.serveWrite cl .clsLoad 0 (.bytes v) (writeClsLoad v))

/-- 6000.08 as read. -/
def State.clsTableBytes (s : State) : List Byte :=
  s.classifier.flatMap fun e => leBytes 4 (e.1 : Int) ++ leBytes 2 ((e.2 - 1 : Nat) : Int)

/-- 5C08.01 or .02 of port p written (R240). -/
def writePortCls (r : Reg) (p : Nat) (v : Int) (s : State) : State × Answer :=
  let t := s.set r p v
  let f := t.nat .portClsDefaultFlow p
  if f ≠ 0xFFFF ∧ ((r = .portClsDefaultFlow ∧ fPort (t.nat .flowEntry f) ≠ p)
      ∨ (t.get .portClsMode p = 1 ∧ fTransparent (t.nat .flowEntry f))) then (s, refusedWith 0x08)
  else (t, accepted)

/-! ## Flow entries (R241, R242, R245) -/

/-- The abort code that a flow entry draws; 0 where it may stand (R242). -/
def State.flowEntryCode (s : State) (f v : Nat) : Nat :=
  let old := s.nat .flowEntry f
  let free := 2 ^ 63 + 2 ^ 59 + (2 ^ 38 - 2 ^ 2)
  let kept := fun (x : Nat) => Nat.xor x (Nat.land x free)
  if v % 4 ≠ 0 ∨ 47 < fPort v ∨ (3839 < fTrib v ∧ fTrib v ≠ 0xFFF) ∨ fDepth v = 0 then 0x07
  else if fPause v ∧ (fXoff v = 0 ∨ fDepth v < fXoff v) then 0x07
  else if fTransparent v ∧ (fPause v ∨ fDepth v < 128) then 0x07
  else if fEnable v ∧ fTrib v = 0xFFF then 0x07
  else if fEnable old ∧ kept v ≠ kept old then 0x08
  else if fTransparent v ∧ s.classifier.any (fun e => e.2 == f + 1) then 0x08
  else 0

/-- A flow entry takes force: clearing enable discards the queue. -/
def State.setFlow (s : State) (f v : Nat) : State :=
  let old := s.nat .flowEntry f
  let s := s.set .flowEntry f (v : Nat)
  let s := if fEnable old && !fEnable v then s.flushFlow f else s
  let s := if !fEnable old && fEnable v then
      (s.set .xFlowMf f 0 |>.set .xFlowArrived f 0 |>.set .xFlowCame f 0 |>.set .xPcsGone f 0 |>.set .xPcsBad f 0).setBlob
        .xPcsTail f []
    else s
  ((s.assertEval f).pfcEval (fPort old)).pfcEval (fPort v)

/-- 6100.02 written for flow f. -/
def writeFlow (f v : Nat) (s : State) : State × Answer :=
  let code := s.flowEntryCode f v
  if code = 0 then (s.setFlow f v, accepted) else (s, refusedWith code)

/-- The flow that a client's select names. -/
def State.flowSel (s : State) (cl : Client) : Nat := (s.sel cl .flowSelect).toNat

/-- FLOW_ENTRY_WRITE (R242). -/
def execFlowEntryWrite (cl : Client) (v : BitVec 64) (s : State) : Host.Outcome State Fault Refusal :=
  .next (s.serveWrite cl .flowEntry 0 (.int v.toNat) (writeFlow (s.flowSel cl) v.toNat))

/-- 6100.0A written: every entry checked as R242, refused whole where one fails. -/
def writeFlowTable (b : List Byte) (s : State) : State × Answer :=
  let l := (entriesOf 8 b).zipIdx
  match l.find? fun e => s.flowEntryCode e.2 e.1 != 0 with
  | some e => (s, refusedWith (s.flowEntryCode e.2 e.1))
  | none => (s.each l fun s e => s.setFlow e.2 e.1, accepted)

/-- FLOW_TABLE_LOAD (R242). -/
def execFlowTableLoad (cl : Client) (v : List Byte) (s : State) : Host.Outcome State Fault Refusal :=
  .next (s.serveWrite cl .flowTable 0 (.bytes v) (writeFlowTable v))

/-- 6102.03 written. -/
def writePoolLevel (v : Int) (s : State) : State × Answer := ((s.set .poolPauseLevel 0 v).poolMove 0 0, accepted)

/-! ## Calendar (R251) -/

/-- Non-empty standby spans: tributary, first entry, length. -/
def State.standbySpans (s : State) : List (Nat × Nat × Nat) :=
  ((s.listed .spanStandby).map fun e => (e.1, spanBase e.2, spanLength e.2)).filter fun e => e.2.2 != 0

/-- Two spans share an entry. -/
def spansMeet (a b : Nat × Nat × Nat) : Bool :=
  a.1 != b.1 && decide (a.2.1 < b.2.1 + b.2.2 ∧ b.2.1 < a.2.1 + a.2.2)

/-- The standby entries of a span. -/
def State.spanEntries (s : State) (e : Nat × Nat × Nat) : List Nat :=
  (List.range e.2.2).map fun k => s.nat .calStandbyEntry (e.2.1 + k)

/-- The reason a calendar flip is refused; 0 where it is accepted (R251). -/
def State.calReason (s : State) : Nat :=
  let l := s.standbySpans
  if s.flag .calPending 0 then 1
  else if l.any fun e => decide (65536 < e.2.1 + e.2.2 ∨ 1024 < e.2.2) then 2
  else if l.any fun a => l.any (spansMeet a) then 3
  else if l.any fun e => (s.spanEntries e).any fun w =>
      !bitOf w 31 || fTrib (s.nat .flowEntry (field w 0 15)) != e.1 then 4
  else if l.any fun e => e.2.2 != 1 && (s.spanEntries e).any fun w =>
      fTransparent (s.nat .flowEntry (field w 0 15)) then 5
  else 0

/-- 6200.06 written. -/
def writeCalFlip (s : State) : State × Answer :=
  let why := s.calReason
  if why ≠ 0 then (s.set .calRefusal 0 (why : Nat), refusedFor why) else ((s.set .calPending 0 1).calSettle, accepted)

/-- CALENDAR_FLIP (R251). -/
def execCalendarFlip (cl : Client) (s : State) : Host.Outcome State Fault Refusal :=
  .next (s.serveWrite cl .calFlip 0 (.int 1) writeCalFlip)

/-- A standby calendar object written: refused while a flip is pending (R251 reason 6). -/
def calWrite (s : State) (code : Nat) (t : State) : State × Answer :=
  if s.flag .calPending 0 then (s.set .calRefusal 0 6, refusedFor 6)
  else if code ≠ 0 then (s, refusedWith code)
  else (t, accepted)

/-- 6200.02 written for entry e. -/
def writeCalEntry (e : Nat) (v : Int) (s : State) : State × Answer := calWrite s 0 (s.set .calStandbyEntry e v)

/-- 6201.02 written for tributary t. -/
def writeSpan (t : Nat) (v : Int) (s : State) : State × Answer :=
  calWrite s (if 1024 < spanLength v.toNat then 0x07 else 0) (s.set .spanStandby t v)

/-- 6200.04 or 6201.04 written. -/
def writeCalPage (r : Reg) (b : List Byte) (s : State) : State × Answer :=
  let l := (entriesOf 4 b).zipIdx
  let bad := l.any fun e => (e.1 &&& Reg.reserved r) != 0 || (r == .spanStandby && decide (1024 < spanLength e.1))
  calWrite s (if bad then 0x07 else 0) (s.each l fun s e => s.set r e.2 (e.1 : Nat))

/-! ## GFP (R246)

PRESUMED (log entry 44): what R246 takes from ITU-T G.7041: the two-byte length and type fields each with a CRC-16, x¹⁶ + x¹² +
x⁵ + 1, initial value 0, the core header pattern 0xB6AB31E0, and an idle frame of length 0. -/

/-- The header check of 16 bits. -/
def hec16 (v : Nat) : Nat :=
  (List.range 16).foldl (fun a i =>
    let b := (a / 32768 + v / 2 ^ (15 - i)) % 2
    Nat.xor (a * 2 % 65536) (if b = 1 then 0x1021 else 0)) 0

/-- A core header for n bytes of payload area, scrambled by its pattern; n = 0 is an idle frame. -/
def gfpCore (n : Nat) : List Byte := bigEndian 4 (Nat.xor (65536 * n + hec16 n) 0xB6AB31E0)

/-- One bit of the self-synchronous x⁴³ + 1 scrambler: its register and what it puts out. -/
def gfpBit (x : Nat) (b : Bool) : Nat × Bool :=
  let o := xor b (bitOf x 42)
  ((2 * x + o.toNat) % 2 ^ 43, o)

/-- Bits through the scrambler. -/
def gfpScramble (x : Nat) (l : List Bool) : Nat × List Bool :=
  l.foldl (fun a b => let r := gfpBit a.1 b; (r.1, a.2 ++ [r.2])) (x, [])

/-- The payload area of a client frame: type header PTI 000, PFI 0, EXI 0000, UPI 0x01 with its check, and the frame. -/
def gfpPayload (frame : List Byte) : List Byte := bigEndian 4 (65536 + hec16 1) ++ frame

/-- The mapper of a tributary sends a client frame, or an idle frame (R246). On an enciphered tributary the stream goes into
the payload words of its blocks (R265). -/
def State.mapOut (s : State) (t : Nat) (frame : Option (List Byte)) : State :=
  let s := s.emit (.mapped t frame)
  match frame with
  | none => s.gfpPut t (gfpCore 0)
  | some l =>
    let p := gfpPayload l
    let e := gfpScramble (s.nat .xGfpScramble t) (byteBits p)
    (s.set .xGfpScramble t (e.1 : Nat)).gfpPut t (gfpCore p.length ++ bitBytes p.length e.2)

/-! ## Mapping (R245, R252, R322 point 1) -/

/-- Flow f can be served on tributary t (R249, R252, R273). -/
def State.eligible (s : State) (t f : Nat) : Bool :=
  let v := s.flow f
  fEnable v && !fTransparent v && s.get .deviceModeState 0 != 5 && !s.portDown (fPort v) && !s.cipherRefuses t

/-- The failed tiles that hold a byte or the length word of the frame from byte position n of the first tile on. -/
def tilesHit (bad : List Nat) (n : Nat) (x : Stored) : List Nat :=
  bad.filter fun k => decide (n / 512 ≤ k ∧ k ≤ (n + x.size - 1) / 512)

/-- What custody does to that frame (R322): 0 mapped, 1 mapped with its FCS complemented, 2 discarded. A tile that holds the length
word costs the frame under either policy. -/
def mapOutcome (policy : Bool) (bad : List Nat) (n : Nat) (x : Stored) : Nat :=
  let hit := tilesHit bad n x
  if hit.isEmpty then 0
  else if hit.any fun k => decide (k ≤ (n + 7) / 512) then 2
  else if policy then 1
  else 2

/-- Where the frames of a queue begin, the first at byte position n. -/
def startsOf (n : Nat) : List Stored → List Nat
  | [] => []
  | x :: q => n :: startsOf (n + x.size) q

/-- The first-frame offset that tile k of a queue carries beside its check (R321): where the first length word that begins in it
stands, in units of 8 bytes; 0x1FF where none does. -/
def firstOffset (n : Nat) (q : List Stored) (k : Nat) : Nat :=
  match (startsOf n q).find? fun p => p / 512 == k with
  | some p => p % 512 / 8
  | none => 0x1FF

/-- Where the mapper resumes when a failed tile holds the length word at position n (R322): at the first length word of the next
tile whose first-frame offset is not 0x1FF. -/
def resumeAt (bad : List Nat) (n : Nat) (x : Stored) (q : List Stored) : Nat :=
  let k := ((tilesHit bad n x).filter fun k => decide (k ≤ (n + 7) / 512)).foldl max 0
  let ends := n + queueBytes (x :: q)
  match (List.range (ends / 512 + 1 - k)).find? fun j => firstOffset n (x :: q) (k + 1 + j) != 0x1FF with
  | some j => ((startsOf n (x :: q)).find? fun p => p / 512 == k + 1 + j).getD ends
  | none => ends

/-- A frame with its four FCS bytes complemented. -/
def complementFcs (l : List Byte) : List Byte := l.take (l.length - 4) ++ (l.drop (l.length - 4)).map fun b => ~~~b

/-- One turn of flow f at the mapper: failed frames go, and all up to position skip; frames within the credit are mapped. n is the
position of the head in the tiles counted from the first; the answer holds the credit left and whether a frame was mapped. -/
def State.mapTurn (t f : Nat) (bad : List Nat) : List Stored → State → Nat → Nat → Nat → Bool → State × Nat × Nat × Bool
  | [], s, n, _, credit, got => (s, n, credit, got)
  | x :: q, s, n, skip, credit, got =>
    let out := mapOutcome (fTile (s.flow f)) bad n x
    let lost := (tilesHit bad n x).any fun k => decide (k ≤ (n + 7) / 512)
    let skip := if lost then max skip (resumeAt bad n x q) else skip
    if n < skip ∨ out = 2 then
      State.mapTurn t f bad q ((s.putQueue f q x.size).bump .custodyFramesDiscarded 0) (n + x.size) skip credit got
    else if credit < x.bytes.length then (s, n, credit, got)
    else
      let s := s.putQueue f q x.size
      let s := if out = 1 then (s.bump .custodyFramesErrored 0).mapOut t (some (complementFcs x.bytes))
        else s.mapOut t (some x.bytes)
      State.mapTurn t f bad q s (n + x.size) skip (credit - x.bytes.length) true

/-- The pseudo-code of R252 from the pointer on, until the mapper has a frame; the quantum of an entry is 2,048 bytes. -/
def State.coxswain (t : Nat) (bad : List (Nat × Nat)) : Nat → State → State
  | 0, s => s.mapOut t none
  | fuel + 1, s =>
    let flows := s.spanFlows t
    let k := s.nat .xCalPtr t % max 1 flows.length
    let f := flows.getD k 0
    let next := (k + 1) % max 1 flows.length
    let whole := !(s.queueOf f).isEmpty
    if !(s.eligible t f && whole) then State.coxswain t bad fuel (s.set .xCalPtr t (next : Nat))
    else
      let mine := (bad.filter fun e => e.1 == f).map Prod.snd
      let start := s.nat .xFlowOffset f
      let r := State.mapTurn t f mine (s.queueOf f) s start 0 (s.nat .xCalCredit (1024 * t + k) + 2048) false
      let s := r.1
      let taken := mine.filter fun i => decide (512 * (i + 1) ≤ r.2.1) || (s.queueOf f).isEmpty
      let s := s.custodyFailed 1 t taken.length (some f)
      let s := s.set .xCalCredit (1024 * t + k) (if (s.queueOf f).isEmpty then 0 else (r.2.2.1 : Nat))
      let s := s.set .xCalPtr t (next : Nat)
      if r.2.2.2 then s else State.coxswain t (bad.filter fun e => e.1 != f) fuel s

/-- The mapper of a packet tributary needs its next GFP frame (R252); reads are queue tiles, by flow and number, that the memory
gives back as other bytes than it holds; a tile marked failed fails with them (R322 point 1, R327). -/
def State.mapNext (s : State) (t : Nat) (reads : List (Nat × Nat × List Byte)) : State :=
  let bad := (reads.filter fun e => tileFails (s.flowTile e.1 e.2.1) e.2.2).map fun e => (e.1, e.2.1)
  let bad := (bad ++ (s.spanFlows t).flatMap fun f => (s.flowMarks f).map fun k => (f, k)).eraseDups
  if (s.transparentFlow t).isSome then s
  else if s.get .xTribFillNow t ≠ 0 then s
  else if s.fillCode t ≠ 0 then s.mapOut t none
  else if (s.spanFlows t).any fun f => s.eligible t f && !(s.queueOf f).isEmpty then
    State.coxswain t bad (9 * (s.spanFlows t).length) s
  else s.mapOut t none

/-- MAPPER_NEXT_FRAME (R252). -/
def execMapperNextFrame (t : Fin 3840) (reads : List (Nat × Nat × List Byte)) (s : State) :
    Host.Outcome State Fault Refusal :=
  s.live fun s => s.mapNext t reads

/-! ## Receive rows and queues (R246, R253, R254) -/

/-- A receive row may stand beside the rows of the other tributaries (R253). -/
def State.tribRowOk (s : State) (t v : Nat) : Bool :=
  let others := (s.listed .tribEgressRow).filter fun e => e.1 != t && rtValid e.2 && rtPort e.2 == rtPort v
  if !rtValid v then true
  else if rtTransparent v then others.isEmpty && s.defaultTransparent (rtPort v)
  else !(others.any fun e => rtTransparent e.2)

/-- A receive row taken: at the tributary's next received multiframe boundary, at once where no slot carries it. -/
def State.takeRow (s : State) (t v : Nat) : State :=
  let s := (s.set .tribEgressRow t (v : Nat)).set .xTribRowDue t 1
  if (s.orderZero 1 t).isNone then s.rowsTake [t] else s

/-- The abort code a receive row draws, 0 where it may stand. -/
def State.tribRowCode (s : State) (t v : Nat) : Nat :=
  if 47 < rtPort v ∨ (v &&& Reg.reserved .tribEgressRow) ≠ 0 then 0x07 else if s.tribRowOk t v then 0 else 0x08

/-- 6900.02 written for tributary t. -/
def writeTribRow (t : Nat) (v : Int) (s : State) : State × Answer :=
  let code := s.tribRowCode t v.toNat
  if code = 0 then (s.takeRow t v.toNat, accepted) else (s, refusedWith code)

/-- 6900.06 written: row by row, refused whole where one fails. -/
def writeTribTable (b : List Byte) (s : State) : State × Answer :=
  (entriesOf 2 b).zipIdx.foldl (fun (a : State × Answer) e =>
    match a.2 with
    | .ack _ =>
      let code := a.1.tribRowCode e.2 e.1
      if code = 0 then (a.1.takeRow e.2 e.1, accepted) else (s, refusedWith code)
    | _ => a) (s, accepted)

/-- RX_TRIB_ROW_WRITE (R253). -/
def execRxTribRowWrite (cl : Client) (v : Fin 65536) (s : State) : Host.Outcome State Fault Refusal :=
  .next (s.serveWrite cl .tribEgressRow 0 (.int v) (writeTribRow (s.sel cl .tribEgressSelect).toNat v))

/-- The flow of a frame toward the host, where one is found (R255). -/
def State.egressFlow (s : State) (p : Nat) (l : List Byte) : Option Nat :=
  let f := s.classify p l
  if f = 0xFFFF then none else some f

/-- Plain words that have come go to the demapper; tiles that failed count at point 5 (R218, R322). -/
def State.demapPlain (s : State) (t : Nat) : State :=
  let x := s.rxTrib t
  if bMode (s.binding 1 t) ≠ 0 then s
  else
    let a := sharesReady x.shares
    if a.1.isEmpty then s
    else
      (s.custodyFailed 5 t (failedTilesIn a.1) none).setRxTrib t
        { x with shares := a.2, bytes := x.bytes ++ markedBytes (a.1.map fun e => e.2.2) }

/-- The demapper as it delineates (R246): state, descrambler, bytes to come with their marks, and the counts of corrected
headers, losses of delineation and frames discarded. -/
structure Delineator where
  st : Nat
  descramble : Nat
  bytes : List (Byte × Bool)
  corrected : Nat
  lost : Nat
  dropped : Nat
deriving DecidableEq, Repr

/-- Bits through the self-synchronous x⁴³ + 1 descrambler. -/
def gfpDescramble (x : Nat) (l : List Bool) : Nat × List Bool :=
  l.foldl (fun a b => ((2 * a.1 + b.toNat) % 2 ^ 43, a.2 ++ [xor b (bitOf a.1 42)])) (x, [])

/-- A 32-bit header of 16 bits and their check, as it is or with one bit corrected; whether one was. -/
def hecCheck (v : Nat) (correct : Bool) : Option (Nat × Bool) :=
  let good := fun (x : Nat) => hec16 (x / 65536) == x % 65536
  if good v then some (v / 65536, false)
  else if correct then
    ((List.range 32).map fun i => Nat.xor v (2 ^ i)).find? good |>.map fun x => (x / 65536, true)
  else none

/-- A frame of n payload-area bytes after its core header: a client frame with a sound type header of the options of R246 comes
out; another is discarded and counted. -/
def Delineator.frame (n : Nat) (d : Delineator) : Delineator × Option (List Byte × Bool) :=
  let area := (d.bytes.drop 4).take n
  let e := gfpDescramble d.descramble (byteBits (area.map Prod.fst))
  let clear := bitBytes n e.2
  let d := { d with descramble := e.1, bytes := d.bytes.drop (4 + n) }
  match hecCheck (natOf (byteBits (clear.take 4))) true with
  | some (1, fixed) =>
    ({ d with corrected := d.corrected + fixed.toNat }, some (clear.drop 4, area.any Prod.snd))
  | some (_, fixed) => ({ d with corrected := d.corrected + fixed.toNat, dropped := d.dropped + 1 }, none)
  | none => ({ d with dropped := d.dropped + 1 }, none)

/-- The demapper runs until a client frame is out or bytes are wanting. PRESUMED (log entry 44), from ITU-T G.7041: hunting
looks at every byte for a sound core header, presync for DELTA = 1 more where the first says the next begins, and sync corrects
a single error and falls back to hunting at more. -/
def Delineator.run : Nat → Delineator → Delineator × Option (List Byte × Bool)
  | 0, d => (d, none)
  | fuel + 1, d =>
    if d.bytes.length < 4 then (d, none)
    else
      let core := Nat.xor (natOf (byteBits ((d.bytes.take 4).map Prod.fst))) 0xB6AB31E0
      match hecCheck core (d.st == 2) with
      | none =>
        if d.st = 0 then ({ d with bytes := d.bytes.drop 1 } : Delineator).run fuel
        else ({ d with st := 0, lost := d.lost + (if d.st = 2 then 1 else 0) } : Delineator).run fuel
      | some (pli, fixed) =>
        let n := if pli < 4 then 0 else pli
        if d.bytes.length < 4 + n then (d, none)
        else if d.st = 0 then ({ d with st := 1, bytes := d.bytes.drop (4 + n) } : Delineator).run fuel
        else
          let d := { d with st := 2, corrected := d.corrected + fixed.toNat }
          if n = 0 then ({ d with bytes := d.bytes.drop 4 } : Delineator).run fuel
          else
            let r := d.frame n
            match r.2 with
            | some x => (r.1, some x)
            | none => r.1.run fuel

/-- The demapper of tributary t goes on from the bytes that the line has brought. -/
def State.delineate (s : State) (t : Nat) : State × Option (List Byte × Bool) :=
  let x := s.rxTrib t
  let r := Delineator.run (2 * x.bytes.length + 1) ⟨s.nat .xGfpState t, s.nat .xGfpDescramble t, x.bytes, 0, 0, 0⟩
  let d := r.1
  let s := (s.setRxTrib t { x with bytes := d.bytes }).set .xGfpState t (d.st : Nat) |>.set .xGfpDescramble t (d.descramble : Nat)
  let s := (s.bump .tribEgressHecCorrected t d.corrected).bump .tribEgressDelineationLosses t d.lost
  (s.bump .tribEgressDropped t d.dropped, r.2)

/-- What waits for the demapper of a tributary that delivers nothing is gone (R232, R253). -/
def State.demapNone (s : State) (t : Nat) : State :=
  let x := s.rxTrib t
  if x.bytes.isEmpty && x.bits.isEmpty && !x.aligned then s
  else (s.setRxTrib t { x with bytes := [], bits := [], aligned := false }).set .xGfpState t 0

/-- Bytes that wait for the demapper of tributary t are read, by tiles from a first byte on: those that fail are marked, and counted
at a custody point (R322 points 5 and 6); one that has failed before is not counted anew. -/
def State.demapReads (s : State) (t point : Nat) (flow : Option Nat) (reads : List TileRead) : State :=
  s.each reads fun s e =>
    let x := s.rxTrib t
    let tile := (x.bytes.drop e.tile).take (min 512 e.bytes.length)
    if tile.isEmpty ∨ tile.any Prod.snd ∨ !tileFails (tile.map Prod.fst) e.bytes then s
    else
      let l := x.bytes.take e.tile ++ tile.map (fun b => (b.1, true)) ++ x.bytes.drop (e.tile + tile.length)
      (s.setRxTrib t { x with bytes := l }).custodyFailed point t 1 flow

/-- A client frame that the demapper has put together, poisoned where a byte of it came in a failed tile: into the receive queue of
256 KiB, or dropped (R254, R321, R322). -/
def State.storeFrame (s : State) (t : Nat) (poisoned : Bool) (frame : List Byte) : State :=
  let p := rtPort (s.egressRow t)
  let q := s.tribQueueOf t
  let o := s.nat .xTribOffset t
  let q' := q ++ [⟨poisoned || s.flag .xCmLost t, frame⟩]
  let full := decide (262144 < queueBytes q')
    || decide (s.nat .poolFree 0 + tilesFor o (queueBytes q) < tilesFor o (queueBytes q'))
  if s.pairActive && !s.flag .xDeliver ((s.orderZero 1 t).getD 0) then s
  else if s.portDown p || full then s.bump .tribEgressDropped t
  else s.putTribQueue t q' 0

/-- A GFP frame of a packet tributary on receive: header corrections, loss of delineation, a bad type header, custody, and the
receive queue. It comes out of the words that the line has brought, or, where there are none, as the command says (log entry
46). A failed tributary delivers nothing. -/
def State.gfpFrame (s : State) (t : Nat) (m : GfpReading) : State :=
  let row := s.egressRow t
  if !rtValid row || rtTransparent row || !s.admits || s.tribFailed t then s.demapNone t
  else
    let s := (s.demapPlain t).demapReads t 5 none m.reads
    if !(s.rxTrib t).bytes.isEmpty then
      let r := s.delineate t
      match r.2 with
      | some x => r.1.storeFrame t x.2 x.1
      | none => r.1
    else
      let s := if m.corrected then s.bump .tribEgressHecCorrected t else s
      if m.syncLost then s.bump .tribEgressDelineationLosses t
      else if !m.typeOk then s.bump .tribEgressDropped t
      else s.storeFrame t false m.frame

/-- RX_GFP_FRAME (R246). -/
def execRxGfpFrame (t : Fin 3840) (m : GfpReading) (s : State) : Host.Outcome State Fault Refusal :=
  s.live fun s => s.gfpFrame t m

/-! ## Egress (R254, R255, R323) -/

/-- Tributaries of port p with a frame that may leave, in rising number. -/
def State.egressReady (s : State) (p : Nat) : List Nat :=
  (s.portTribs p).filter fun t =>
    !s.tribFailed t &&
      match s.tribQueueOf t with
      | x :: _ => !s.heldPrio p (framePriority (s.nat .portClsTpidSet p) x.bytes)
      | [] => false

/-- The tributary whose turn it is: the first after the one served last. -/
def State.egressPick (s : State) (p : Nat) : Option Nat :=
  let l := s.egressReady p
  match l.find? fun t => decide (s.nat .xEgressPtr p ≤ t) with
  | some t => some t
  | none => l.head?

/-- A frame delivered toward the host: counted under R255, its timestamp written under R408. -/
def State.deliver (s : State) (p : Nat) (l : List Byte) (errored : Bool) : State :=
  let s := match s.egressFlow p l with
    | some f => if fCountRx (s.flow f) then s.countFlow f l.length else s
    | none => s.bump .portRxUnmatched p
  let s := if errored then s.bump .custodyFramesErrored 0 else s
  s.emit (.egress p (s.ptpWrite p l) (s.nat .portEgressGap p) errored)

/-- A frame that has left its receive queue goes to port p; one that is poisoned, or of which a tile failed its verification, fails,
`late` after its first byte had entered the encoder (R323). -/
def State.egressFrame (s : State) (p : Nat) (x : Stored) (failed late : Bool) : State :=
  let one := match s.egressFlow p x.bytes with
    | some f => fTile (s.flow f)
    | none => true
  if !(x.poisoned || failed) then s.deliver p x.bytes false
  else if one then s.deliver p x.bytes true
  else if x.poisoned || !late then s.bump .custodyFramesDiscarded 0
  else s.deliver p x.bytes true

/-- The oldest frame of the receive queue of tributary t goes to port p, its tiles verified (R323). -/
def State.egressNext (s : State) (p t : Nat) (late : Bool) : State :=
  match s.tribQueueOf t with
  | [] => s
  | x :: q =>
    let a := s.takeTrib t x q
    (a.1.custodyFailed 6 t a.2.1 (a.1.egressFlow p x.bytes)).egressFrame p x a.2.2 late

/-- The receive queue of tributary t delivered at once: what a port that is down cannot take is dropped and counted. -/
def State.drainTrib (s : State) (t : Nat) : State :=
  let p := rtPort (s.egressRow t)
  if s.portDown p then s.dropTribQueue t
  else s.each (s.tribQueueOf t) fun s _ => s.egressNext p t false

/-- The data inside the receive path is delivered as Carry is left (R41), tributary by tributary in rising number. -/
def State.drainTribs (s : State) : State := s.each (s.tribQueue.map Prod.fst) State.drainTrib

/-- An egress port takes its next frame; reads are tiles of its receive queue as the memory gives them back, `late` after its first
byte had entered the encoder. The standby of a pair discards it uncounted (R460). -/
def State.egressSend (s : State) (p : Nat) (reads : List TileRead) (late : Bool) : State :=
  match s.egressPick p with
  | none => s
  | some t =>
    if s.pairStandby then
      match s.tribQueueOf t with
      | [] => s
      | x :: q => ((s.set .xEgressPtr p (t + 1 : Nat)).takeTrib t x q).1
    else if s.sendingNow p ≠ 0 ∨ s.portDown p then s
    else
      ((s.set .xEgressPtr p (t + 1 : Nat)).each (reads.filter fun e => tileFails (s.tribTile t e.tile) e.bytes) fun s e =>
        s.markTrib t e.tile).egressNext p t late

/-- EGRESS_FRAME_SEND (R254). -/
def execEgressFrameSend (p : Fin 48) (reads : List TileRead) (late : Bool) (s : State) :
    Host.Outcome State Fault Refusal :=
  s.live fun s => s.egressSend p reads late

end Sys2Proof.Machine
end

