-- ==== Sys2Proof/Machine/HostLanes.lean ====
section
/-! DEFINITION. Host lanes, octets and client ports (R293 to R318). -/

namespace Sys2Proof.Machine

/-! ## Layout (R294, R298, R299) -/

/-- Lanes of a rate code. -/
def laneCount (code : Nat) : Nat := ([0, 1, 2, 4, 8] : List Nat).getD code 0

/-- Logical lanes of port p. -/
def State.logicalLanes (s : State) (p : Nat) : List Nat :=
  (List.range (laneCount (s.nat .portRate p))).map fun i => 8 * (p / 4) + 2 * (p % 4) + i

/-- Lane order of an octet: straight, or reversed. -/
def ordered (rev : Bool) (h : Nat) : Nat := if rev then 8 * (h / 8) + (7 - h % 8) else h

/-- The receive order in force of octet o is reversed (R299). -/
def State.rxReversed (s : State) (o : Nat) : Bool :=
  s.get .octetOrderMode o == 1 || (s.get .octetOrderMode o == 2 && s.get .octetOrderFound o == 2)

/-- Physical receive lanes of port p. -/
def State.rxLanes (s : State) (p : Nat) : List Nat := (s.logicalLanes p).map (ordered (s.rxReversed (p / 4)))

/-- Physical transmit lanes of port p (R298). -/
def State.txLanes (s : State) (p : Nat) : List Nat := (s.logicalLanes p).map (ordered (s.get .octetTxOrder (p / 4) == 1))

/-- Ports of an octet. -/
def portsOf (o : Nat) : List Nat := [4 * o, 4 * o + 1, 4 * o + 2, 4 * o + 3]

/-- Enabled ports of an octet. -/
def State.enabledPorts (s : State) (o : Nat) : List Nat :=
  (portsOf o).filter fun p => s.flag .portEnable p && s.get .portRate p != 0

/-- Lane h belongs to an enabled port. -/
def State.onEnabledPort (s : State) (h : Nat) : Bool :=
  (s.enabledPorts (h / 8)).any fun p => (s.rxLanes p).contains h || (s.txLanes p).contains h

/-- Lane h belongs to a port. -/
def State.onPort (s : State) (h : Nat) : Bool := (portsOf (h / 8)).any fun p => (s.rxLanes p).contains h

/-- The rate codes of an octet keep Table: Port layout. -/
def State.layoutOk (s : State) (o : Nat) : Bool :=
  let c := fun q => s.nat .portRate (4 * o + q)
  (if c 0 = 4 then c 1 == 0 && c 2 == 0 && c 3 == 0 else c 0 != 3 || c 1 == 0)
    && decide (c 1 ≤ 2) && decide (c 3 ≤ 2) && decide (c 2 ≠ 4) && (c 2 != 3 || c 3 == 0)

/-! ## Power (R296, R306) -/

/-- Order search under R299 needs every lane of the octet. -/
def State.searching (s : State) (o : Nat) : Bool :=
  s.get .octetOrderMode o == 2 && s.get .octetOrderFound o == 0 && !(s.enabledPorts o).isEmpty

/-- Lane h is called to be powered. -/
def State.lanePowered (s : State) (h : Nat) : Bool :=
  s.mode != 0 &&
    (s.get .lanePower h == 1 ||
      (s.get .lanePower h == 0 &&
        (s.onEnabledPort h || s.flag .lanePrbsGen h || s.flag .lanePrbsCheck h || s.searching (h / 8))))

/-- A lane that is up in some step of its bring-up or beyond. -/
def State.laneOn (s : State) (h : Nat) : Bool := decide (2 ≤ s.get .laneState h)

/-! ## Port states (R307, R308) -/

/-- Every receive lane of port p is locked with no raw LOS and no pair fault. -/
def State.lanesReady (s : State) (p : Nat) : Bool :=
  let l := s.rxLanes p
  !l.isEmpty && l.all fun h => s.flag .laneLock h && !s.flag .laneLosRaw h && s.get .lanePairFault h == 0

/-- A port not up follows its lanes: it waits for them, or aligns once they are locked (R307); loss of markers and skew stand until
it has aligned (R308). -/
def State.portEval (s : State) (p : Nat) : State :=
  if !s.flag .portEnable p ∨ s.get .portState p = 3 then s
  else if s.lanesReady p then
    if s.get .portState p = 2 ∨ s.flag .xPortPcs p then s else (s.set .portState p 2).set .xPortAligned p 0
  else (s.set .portState p (if s.flag .xPortFault p then 4 else 1)).set .xPortAligned p 0

/-- The ports of an octet follow its lanes. -/
def State.portsEval (s : State) (o : Nat) : State := s.each (portsOf o) State.portEval

/-- Causes of local fault that the lanes of port p give (R308 bits 0 to 3). -/
def State.laneCauses (s : State) (p : Nat) : Nat :=
  let l := s.rxLanes p
  let b := fun (v : Bool) (k : Nat) => if v then 2 ^ k else 0
  b (l.any fun h => s.flag .laneLosRaw h) 0 + b (l.any fun h => !s.flag .laneLock h) 1
    + b (l.any fun h => s.get .lanePairFault h != 0) 2 + b (l.any fun h => s.get .laneState h == 1) 3

/-- Port p meets causes of local fault (R308): an up port enters it, a port in it takes the cause bits, a port that
holds its alignment starts again. -/
def State.portLose (s : State) (p cause : Nat) (inFrame : Bool) : State :=
  if cause = 0 ∨ !s.flag .portEnable p then s
  else if s.get .portState p = 3 then
    let s := s |>.set .portState p 4 |>.set .xPortFault p 1 |>.set .portFaultCause p (cause : Nat) |>.bump .portFaults p
      |>.setFlag .xPortPcs p (decide (16 ≤ cause))
    let s := if inFrame then s.bump .portClsErrored p else s
    (s.raiseClear (evPort p 0) [] false).portEval p
  else
    let s := if s.flag .xPortFault p then s.set .portFaultCause p (s.nat .portFaultCause p ||| cause : Nat) else s
    (s.set .xPortAligned p 0).portEval p

/-- PORT_LOCAL_FAULT (R308): the causes of the lanes, with loss of markers and skew as the port finds them. -/
def execPortLocalFault (p : Fin 48) (markers skew inFrame : Bool) (s : State) : Host.Outcome State Fault Refusal :=
  s.live fun s =>
    s.portLose p (s.laneCauses p + (if markers then 16 else 0) + (if skew then 32 else 0)) inFrame

/-- PORT_ALIGNED (R307): PCS lanes, markers and deskew are aligned, which ends their loss; the hold starts. -/
def execPortAligned (p : Fin 48) (s : State) : Host.Outcome State Fault Refusal :=
  s.live fun s =>
    if (s.get .portState p = 2 ∨ s.flag .xPortPcs p) ∧ s.lanesReady p ∧ !s.flag .xPortAligned p then
      ((s.set .portState p 2).set .xPortPcs p 0 |>.set .xPortAligned p 1).markTick .xPortAlignAt p
    else s

/-- Port p has held its alignment for 5C00.03 ms (R307). -/
def State.portHeld (s : State) (p : Nat) : Bool :=
  s.flag .xPortAligned p && s.usSince .xPortAlignAt p (1000 * s.get .portUpHold p)

/-- The hold has passed without a break: the port is up, and a local fault ends. -/
def State.portUp (s : State) (p : Nat) : State :=
  if s.get .portState p = 2 ∧ s.portHeld p ∧ s.lanesReady p then
    let s := s.set .portState p 3
    let s := if s.flag .xPortFault p then (s.set .xPortFault p 0).raiseClear (evPort p 0) [] true else s
    s.pfcEval p
  else s

/-- PORT_UP (R307). -/
def execPortUp (p : Fin 48) (s : State) : Host.Outcome State Fault Refusal := s.live fun s => s.portUp p

/-- REMOTE_FAULT_RECEIVED (R309): source 1 tells that Remote Fault is received; its end is shown and raises nothing. -/
def execRemoteFaultReceived (p : Fin 48) (present : Bool) (s : State) : Host.Outcome State Fault Refusal :=
  s.live fun s =>
    if !s.flag .portEnable p || s.flag .portRfReceived p == present then s
    else if present then (s.set .portRfReceived p 1).raise (evPort p 1) []
    else s.set .portRfReceived p 0

/-! ## Pair faults (R302, R305) -/

/-- Raw LOS of lane h set, with its event. -/
def State.losSet (s : State) (h : Nat) : State :=
  if s.laneOn h && !s.flag .laneLosRaw h then
    ((s.set .laneLosRaw h 1).raiseClear (evLane h 0) [] false).portsEval (h / 8)
  else s

/-- A pair-fault map of lane h: found or cleared faults raise source 2; any fault holds raw LOS set. -/
def State.pairSet (s : State) (h map : Nat) : State :=
  let was := s.nat .lanePairFault h
  if was = map then (if map = 0 then s else s.losSet h)
  else
    let s := s.set .lanePairFault h (map : Nat)
    let s := if map &&& was ≠ map then s.raiseClear (evLane h 2) [] false else s
    let s := if map &&& was ≠ was then s.raiseClear (evLane h 2) [] true else s
    (if map = 0 then s else s.losSet h).portsEval (h / 8)

/-- Common-mode part of the fault map: P low, P high, N low, N high of levels in mV. -/
def cmMap (p n : Nat) : Nat :=
  (if p < 300 then 1 else 0) + (if 600 < p then 2 else 0) + (if n < 300 then 4 else 0) + (if 600 < n then 8 else 0)

/-- The common-mode monitor of lane h has seen levels for 1 ms: faults that it finds are added. -/
def State.cmFound (s : State) (h p n : Nat) : State :=
  if !s.laneOn h then s
  else
    let s := (s.set .lanePairCmP h (p : Nat)).set .lanePairCmN h (n : Nat)
    s.pairSet h (s.nat .lanePairFault h ||| cmMap p n)

/-- PAIR_FAULT_DETECT (R305). -/
def execPairFaultDetect (h : Fin 96) (cmP cmN : Fin 65536) (s : State) : Host.Outcome State Fault Refusal :=
  s.live fun s => s.cmFound h cmP cmN

/-- Legs back within the window for 1 ms: their faults clear. -/
def State.cmCleared (s : State) (h p n : Nat) : State :=
  if !s.laneOn h then s
  else
    let s := (s.set .lanePairCmP h (p : Nat)).set .lanePairCmN h (n : Nat)
    let was := s.nat .lanePairFault h
    s.pairSet h (was / 16 * 16 + (was % 16 &&& cmMap p n))

/-- PAIR_FAULT_CLEAR (R305). -/
def execPairFaultClear (h : Fin 96) (cmP cmN : Fin 65536) (s : State) : Host.Outcome State Fault Refusal :=
  s.live fun s => s.cmCleared h cmP cmN

/-- A legs-together reading in mV: below 4 the legs are shorted together. -/
def State.pairTest (s : State) (h reading : Nat) : State :=
  let s := s.set .lanePairTestReading h (reading : Nat)
  s.pairSet h (s.nat .lanePairFault h % 16 + (if reading < 4 then 16 else 0))

/-- 5003.04 written: on a powered lane of no enabled port. -/
def writePairTest (h reading : Nat) (s : State) : State × Answer :=
  if s.onEnabledPort h || !s.laneOn h then (s, refusedWith 0x08) else (s.pairTest h reading, accepted)

/-- PAIR_TEST (R305). -/
def execPairTest (cl : Client) (h : Fin 96) (reading : Fin 65536) (s : State) : Host.Outcome State Fault Refusal :=
  .next (s.serveWrite cl .lanePairTest h (.int 1) (writePairTest h reading))

/-! ## Bring-up (R296, R297, R303, R304, R306) -/

/-- Lane h starts step n in a state of 5000.02. -/
def State.laneStep (s : State) (h : Nat) (n state : Int) : State := (s.set .xLaneStep h n).set .laneState h state

/-- Lane h starts its bring-up: from step 1 in full, or leaving the deep low-power state. -/
def State.laneStart (s : State) (h : Nat) (low : Bool) : State :=
  (s.set .xLaneRelock h 0).setFlag .xLaneLow h low |>.set .laneLock h 0 |>.laneStep h 1 (if low then 6 else 3)

/-- Lane h loses its power: off in Dormant, deep low-power otherwise. LOS, lock and pair-fault detection stop, without
event; legs found together stay so until a test passes (R305). -/
def State.laneDown (s : State) (h : Nat) : State :=
  (s |>.set .laneLock h 0 |>.set .laneLosRaw h 0 |>.set .lanePairFault h (s.nat .lanePairFault h / 16 * 16 : Nat)
    |>.set .xLaneRelock h 0 |>.set .xLaneLow h 0 |>.set .xLaneLockAt h 0
    |>.laneStep h 0 (if s.mode = 0 then 0 else 1)).portsEval (h / 8)

/-- Lane h goes where R296 calls it. -/
def State.lanePowerEval (s : State) (h : Nat) : State :=
  if s.lanePowered h then (if s.laneOn h then s else s.laneStart h true)
  else if s.laneOn h then s.laneDown h
  else s

/-- Lanes of a list that are in the deep low-power state and are called to be powered leave it (R306). -/
def State.lanesWake (s : State) (l : List Nat) : State :=
  s.each l fun s h => if s.get .laneState h = 1 ∧ s.lanePowered h then s.laneStart h true else s

/-- The eight lanes of octet o. -/
def lanesOf (o : Nat) : List Nat := (List.range 8).map (8 * o + ·)

/-- LANE_DEEP_LOW_POWER (R306). -/
def execLaneDeepLowPower (h : Fin 96) (s : State) : Host.Outcome State Fault Refusal :=
  s.live fun s => s.lanePowerEval h

/-- Host lanes as the device reaches Trim or Haven (R37, R296): of the lanes that were unpowered, those the settings power
start their bring-up, and the others are in the deep low-power state. -/
def State.lanesUp (s : State) : State :=
  s.each (List.range 96) fun s h =>
    if s.get .laneState h ≠ 0 then s else if s.lanePowered h then s.laneStart h false else s.set .laneState h 1

/-- Host lanes as the device reaches Dormant: unpowered. -/
def State.lanesOff (s : State) : State :=
  let s := s.each (List.range 96) fun s h => if s.get .laneState h = 0 then s else s.laneDown h
  s.each (List.range 48) fun s p => s.portLose p (s.laneCauses p) false

/-- Eight taps as bytes, each within its range (R300). -/
def tapBytes (l : List Int) : List Byte :=
  l.zipIdx.flatMap fun e =>
    let m : Int := if e.2 = 0 then 64 else 32
    leBytes 1 (max (-m) (min m e.1))

/-- Eight signed taps of a lane. -/
def State.taps (s : State) (h : Nat) : List Int := (padTo 8 (s.blob .laneDfeTaps h)).map BitVec.toInt

/-- The receiver of lane h has a signal: raw LOS is absent, or the transmitter feeds it on die (R302, R315). -/
def State.laneSignal (s : State) (h : Nat) : Bool := !s.flag .laneLosRaw h || s.get .laneLoopback h == 2

/-- The receiver of lane h can lock: a signal and its clock. -/
def State.canLock (s : State) (h : Nat) : Bool := s.laneSignal h && !s.flag .xRefh (h / 48)

/-- Lane h has locked: it counts for the order search of its octet (R299). -/
def State.orderLocked (s : State) (h : Nat) : State :=
  let s := if s.flag .xLaneLockAt h then s else s.set .xLaneLockAt h (s.get .xTicks 0 + 1)
  if s.flag .xOrderTried (h / 8) then s.set .xOrderDue (h / 8) 1 else s

/-- Polarity found under the auto mode (R297); the inverted sense raises source 3. The sense found before holds where the
bring-up has not passed step 2. -/
def State.polarity (s : State) (h : Nat) (inverted : Bool) : State :=
  let due := s.flag .xPolDue h
  let s := s.set .xPolDue h 0
  if s.get .laneRxPolMode h = 0 then s.set .laneRxPolApplied h (s.get .laneRxPolFixed h)
  else if due && s.onPort h then
    let s := s.setFlag .laneRxPolApplied h inverted
    if inverted then s.raise (evLane h 3) [] else s
  else s

/-- A bring-up step of lane h is complete: a relock skips the sweep, and step 5 where the search of R297 has been made; a return
from the deep low-power state skips step 2. -/
def State.bringup (s : State) (h : Nat) (m : LaneReading) : State :=
  let step := s.get .xLaneStep h
  let relock := s.flag .xLaneRelock h
  let low := s.flag .xLaneLow h
  if step = 1 then
    let s := s.pairTest h m.testReading
    if low then s.laneStep h 3 6 else s.laneStep h 2 2
  else if step = 2 then
    if s.laneSignal h then (s.laneStep h 3 3).set .xPolDue h 1 else s
  else if !s.canLock h then s
  else if step = 3 then
    let s := if relock || low then s
      else s.set .laneCtleApplied h (if s.get .laneCtleMode h = 1 then s.get .laneCtleFixed h else m.ctle.val)
    s.laneStep h 4 (if low then 6 else if relock then 3 else 4)
  else if step = 4 then
    let s := if s.flag .laneDfeFreeze h then s else s.setBlob .laneDfeTaps h (tapBytes m.taps.toList)
    let s := ((s.set .laneLock h 1).set .xLaneLow h 0).orderLocked h
    (if relock then (s.laneStep h (if s.flag .xPolDue h then 5 else 0) 5).set .xLaneRelock h 0
      else s.laneStep h 5 5).portsEval (h / 8)
  else if step = 5 then (((s.polarity h m.inverted).bump .laneBringups h).laneStep h 0 5).portsEval (h / 8)
  else s

/-- LANE_BRINGUP_STEP (R296). -/
def execLaneBringupStep (h : Fin 96) (m : LaneReading) (s : State) : Host.Outcome State Fault Refusal :=
  s.live fun s => s.bringup h m

/-- Step 3 or 4 of a full bring-up has exceeded its maximum. -/
def State.stepTimeout (s : State) (h : Nat) : State :=
  let step := s.get .xLaneStep h
  if (step = 3 ∨ step = 4) ∧ !s.flag .xLaneRelock h ∧ !s.flag .xLaneLow h then
    (s.laneStep h 2 2).raise (evLane h 3) [u8 step]
  else s

/-- LANE_STEP_TIMEOUT (R296). -/
def execLaneStepTimeout (h : Fin 96) (s : State) : Host.Outcome State Fault Refusal := s.live fun s => s.stepTimeout h

/-- LANE_LOS_SET (R302). -/
def execLaneLosSet (h : Fin 96) (s : State) : Host.Outcome State Fault Refusal := s.live fun s => s.losSet h

/-- LANE_LOS_CLEAR (R302): a pair fault holds raw LOS. -/
def execLaneLosClear (h : Fin 96) (s : State) : Host.Outcome State Fault Refusal :=
  s.live fun s =>
    if s.laneOn h && s.flag .laneLosRaw h && s.get .lanePairFault h == 0 then
      ((s.set .laneLosRaw h 0).raiseClear (evLane h 0) [] true).portsEval (h / 8)
    else s

/-- A locked lane loses lock (R303): it relocks from its stored CTLE and taps. -/
def State.lockLoss (s : State) (h : Nat) : State :=
  if !s.flag .laneLock h then s
  else
    ((((s.set .laneLock h 0).set .xLaneRelock h 1).laneStep h 3 3 |>.bump .laneLockLosses h).raise (evLane h 1) []).portsEval
      (h / 8)

/-- LANE_LOCK_LOSS (R303). -/
def execLaneLockLoss (h : Fin 96) (s : State) : Host.Outcome State Fault Refusal := s.live fun s => s.lockLoss h

/-- A relock, or a return from the deep low-power state, has not locked within 2 ms: a full bring-up from step 2. -/
def State.relockTimeout (s : State) (h : Nat) : State :=
  if s.flag .xLaneRelock h || s.flag .xLaneLow h then
    ((s.set .xLaneRelock h 0).set .xLaneLow h 0).laneStep h 2 2
  else s

/-- LANE_RELOCK_TIMEOUT (R303, R306). -/
def execLaneRelockTimeout (h : Fin 96) (s : State) : Host.Outcome State Fault Refusal :=
  s.live fun s => s.relockTimeout h

/-- REFH_LOSS (R304): the receivers of its 48 lanes lose lock. -/
def execRefhLoss (k : Fin 2) (s : State) : Host.Outcome State Fault Refusal :=
  s.live fun s => (s.set .xRefh k 1).each ((List.range 48).map (48 * k.val + ·)) State.lockLoss

/-- REFH_RETURN (R304): the receivers relock. -/
def execRefhReturn (k : Fin 2) (s : State) : Host.Outcome State Fault Refusal :=
  s.live fun s => s.set .xRefh k 0

/-! ### Test patterns (R312 to R314) -/

/-- Degree and lower exponents of the polynomial of a PRBS code (Table: PRBS patterns); each bit is the sum of the bits that
many places before it. -/
def prbsTaps (code : Nat) : Nat × List Nat :=
  ([(0, []), (7, [6]), (9, [5]), (13, [12, 2, 1]), (15, [14]), (23, [18]), (31, [28])] : List (Nat × List Nat)).getD code (0, [])

/-- Lane h's main tap and its neighbours as sent: pre2, pre1, main, post1 (R301). -/
def State.txTaps (s : State) (h : Nat) : List Int :=
  [s.get .laneTxPre2 h, s.get .laneTxPre1 h, s.get .laneTxMain h, s.get .laneTxPost1 h]

/-- The next bit of a pattern after the bits of x, newest lowest, or of the user pattern at place x; and what follows. -/
def prbsNext (code user x : Nat) : Bool × Nat :=
  if code = 7 then (bitOf user (63 - x % 64), (x + 1) % 64)
  else
    let p := prbsTaps code
    let b := (p.2.map fun k => x / 2 ^ (k - 1) % 2).sum + x / 2 ^ (p.1 - 1) % 2
    (b % 2 == 1, (2 * x + b % 2) % 2 ^ p.1)

/-- n bits of a pattern, and what follows. -/
def prbsRun (code user : Nat) : Nat → Nat → List Bool × Nat
  | 0, x => ([], x)
  | n + 1, x =>
    let (b, y) := prbsNext code user x
    let r := prbsRun code user n y
    (b :: r.1, r.2)

/-- Bits with every first bit of a pair complemented: a symbol's most significant bit (R293, R297). -/
def flipMsb : List Bool → List Bool
  | a :: b :: t => (!a) :: b :: flipMsb t
  | l => l

/-- Gray-coded PAM4 symbols of bits taken in pairs (R293). -/
def pam4 : List Bool → List Nat
  | a :: b :: t => (if a then (if b then 2 else 3) else (if b then 1 else 0)) :: pam4 t
  | _ => []

/-- What a lane that sends 4,096 symbols of its generator feeds its own receiver under loopback 2, else the bits received; and
the state that has sent them (R298, R312, R314, R315). Under loopback 1 a lane whose generator is off sends the bits received
(log entry 48). -/
def State.prbsSend (s : State) (h : Nat) (received : List Bool) : List Bool × State :=
  let code := s.nat .lanePrbsGen h
  let sent := fun (s : State) (bits : List Bool) =>
    s.emit (.lane h (s.nat .laneTxSwing h) (s.txTaps h) (pam4 (if s.flag .laneTxInvert h then flipMsb bits else bits)))
  if !s.laneOn h then (received, s)
  else if code = 0 then
    (received, if s.get .laneLoopback h = 1 ∧ s.flag .laneLock h then sent s received else s)
  else
    let r := prbsRun code (s.nat .lanePrbsUser h) 8192 (s.nat .xPrbsReg h)
    let n := 2 * min 4096 (s.nat .xPrbsInjDue h)
    let bits := flipMsb (r.1.take n) ++ r.1.drop n
    let s := (s.set .xPrbsReg h (r.2 : Nat)).set .xPrbsInjDue h (s.get .xPrbsInjDue h - (n / 2 : Nat))
    let s := sent s bits
    let bits := if s.flag .laneTxInvert h then flipMsb bits else bits
    if s.get .laneLoopback h = 2 then (if s.flag .laneRxPolApplied h then flipMsb bits else bits, s) else (received, s)

/-- Bits checked and errors among them up to the bit at which more than 64 of the last 1,024 mismatch, and whether there is
such a bit. `recent` are the flags of the last 1,023 bits, newest first, `n` how many of them are set. -/
def prbsWindow : List Bool → List Bool → Nat → Nat × Nat × Bool × List Bool
  | [], recent, _ => (0, 0, false, recent)
  | f :: t, recent, n =>
    let n := n + f.toNat
    if 64 < n then (1, f.toNat, true, f :: recent)
    else
      let all := f :: recent
      let r := prbsWindow t (all.take 1023) (n - ((all.getD 1023 false).toNat))
      (r.1 + 1, r.2.1 + f.toNat, r.2.2)

/-- A number's low n bits, lowest first. -/
def bitsOfNat (n v : Nat) : List Bool := (List.range n).map (bitOf v)

/-- A locked checker checks received bits against its own sequence under the sense it found (R313). -/
def State.prbsCheck (s : State) (h : Nat) (bits : List Bool) : State :=
  if s.get .lanePrbsState h < 2 ∨ s.flag .xPrbsBad h then s
  else
    let bits := if s.get .lanePrbsState h = 3 then flipMsb bits else bits
    let own := prbsRun (s.nat .lanePrbsCheck h) (s.nat .lanePrbsUser h) bits.length (s.nat .xPrbsCheck h)
    let recent := bitsOfNat 1023 (s.nat .xPrbsTail h)
    let r := prbsWindow (List.zipWith (· != ·) bits own.1) recent (recent.count true)
    let s := (s.bump .lanePrbsBits h r.1).bump .lanePrbsErrors h r.2.1
    ((s.set .xPrbsCheck h (own.2 : Nat)).set .xPrbsTail h ((natOf (r.2.2.2.take 1023).reverse : Nat) : Int)).setFlag
      .xPrbsBad h r.2.2.1

/-- Where a checker stands after bits, of which those after its seed match for 256 in a row (R313); none where they do not. -/
def prbsLock (code user : Nat) (bits : List Bool) : Option Nat :=
  let n := (prbsTaps code).1
  let seeds := if code = 7 then List.range 64 else [natOf (bits.take n)]
  let rest := bits.drop n
  if rest.length < 256 then none
  else
    match seeds.find? fun x => (prbsRun code user 256 x).1 == rest.take 256 with
    | some x => some (prbsRun code user rest.length x).2
    | none => none

/-- The checker of lane h looks for its pattern in received bits, straight first, then with the most significant bits
complemented (R313). -/
def State.prbsSearch (s : State) (h : Nat) (bits : List Bool) : State :=
  let code := s.nat .lanePrbsCheck h
  let user := s.nat .lanePrbsUser h
  let found := fun (s : State) (x : Nat) (sense : Int) =>
    ((s.set .lanePrbsState h sense).set .xPrbsCheck h (x : Nat)).set .xPrbsTail h 0 |>.set .xPrbsBad h 0
  if s.get .lanePrbsState h ≠ 1 then s
  else
    match prbsLock code user bits, prbsLock code user (flipMsb bits) with
    | some x, _ => found s x 2
    | none, some x => found s x 3
    | none, none => s

/-- A window of 4,096 symbols (R300): the generator of lane h sends its symbols; a locked checker checks the bits received,
which are the generator's own under loopback 2 (R315); each tap of a locked lane moves one LSB where its sum reaches the
threshold. -/
def State.dfeWindow (s : State) (h : Nat) (sums : Vector Int 8) (snr : Int) (received : List Bool) : State :=
  let (bits, s) := s.prbsSend h received
  if !s.flag .laneLock h then s
  else
    let s := (s.set .laneEyeSnr h snr).prbsCheck h bits
    if s.flag .laneDfeFreeze h then s
    else
      let th := s.nat .laneDfeThreshold h
      s.setBlob .laneDfeTaps h (tapBytes ((s.taps h).zipIdx.map fun e =>
        let v := sums.toList.getD e.2 0
        if th ≤ v.natAbs then e.1 + v.sign else e.1))

/-- DFE_ADAPT_WINDOW (R300). -/
def execDfeAdaptWindow (h : Fin 96) (sums : Vector Int 8) (snr : Int) (bits : List Bool) (s : State) :
    Host.Outcome State Fault Refusal :=
  s.live fun s => s.dfeWindow h sums snr bits

/-! ## Octet order (R299) -/

/-- The lanes of the octet's enabled ports, taken in both orders (R299). -/
def State.searchLanes (s : State) (o : Nat) : List Nat :=
  (s.enabledPorts o).flatMap fun p => (s.logicalLanes p).flatMap fun h => [h, ordered true h]

/-- The order search of octet o is due (R299): all those lanes are locked, or 100 ms have passed since the first of them
locked; after a search that found nothing, a lane has locked since. -/
def State.orderDue (s : State) (o : Nat) : Bool :=
  if s.flag .xOrderTried o then s.flag .xOrderDue o
  else
    let l := s.searchLanes o
    l.all (fun h => s.flag .laneLock h) || l.any fun h => s.flag .xLaneLockAt h && s.usSince .xLaneLockAt h 100000

/-- PCS alignment has been tried in both orders: masks of the octet's ports, by quarter, that align. -/
def State.orderSearch (s : State) (o straight reversed : Nat) : State :=
  if !s.searching o ∨ !s.orderDue o then s
  else
    let e := (s.enabledPorts o).map (· % 4)
    let n := (e.filter (bitOf straight)).length
    let r := (e.filter (bitOf reversed)).length
    let found : Int :=
      if n = 0 ∧ r = 0 then 0 else if n = e.length ∧ r = e.length then 3 else if n < r then 2 else 1
    let s := ((s.set .octetOrderFound o found).setFlag .xOrderTried o (found == 0)).set .xOrderDue o 0
    let s := if found = 2 then s.raise (evLane (8 * o) 3) [] else s
    s.portsEval o

/-- The order found is forgotten (R299). -/
def State.orderForget (s : State) (o : Nat) : State :=
  ((s.set .octetOrderFound o 0).set .xOrderTried o 0).set .xOrderDue o 0

/-- OCTET_ORDER_SEARCH (R299). -/
def execOctetOrderSearch (o : Fin 12) (straight reversed : Fin 16) (s : State) : Host.Outcome State Fault Refusal :=
  s.live fun s => s.orderSearch o straight reversed

/-- An up port whose lanes have changed is judged again; every port follows. -/
def State.octetChanged (s : State) (o : Nat) : State :=
  (s.each (s.enabledPorts o) fun s p => s.portLose p (s.laneCauses p) false).portsEval o

/-! ## Transparent egress and rate matching (R247, R254, R311, R322 points 5 and 6) -/

/-- The transparent tributary of port p, where it has one. -/
def State.streamTrib (s : State) (p : Nat) : Option Nat := (s.portTribs p).find? fun t => rtTransparent (s.egressRow t)

/-- Up to n 257-bit blocks that transparent tributary t has received are decoded, alignment markers delineating them, and go to the
egress buffer of port p, discarded where it is full. The answer holds the buffer. -/
def State.pcsEnter (s : State) (p t n : Nat) : State × Egress :=
  let x := s.rxTrib t
  let bits := x.bits ++ x.bytes.flatMap fun e => (bitsOf 8 e.1.toNat).map fun b => (b, e.2)
  let a := if x.aligned then (true, bits) else delineate257 (s.nat .portRate p) bits
  let r := if a.1 then takeBlocks (s.nat .portRate p) n a.2 else ([], 0, a.2)
  let s := (s.setRxTrib t { x with bytes := [], bits := r.2.2, aligned := a.1 }).bump .custodyBlocksReplaced 0 r.2.1
  let start : Egress := ⟨s.egressOf p, s.flag .xRmIdle p, [], 0, 0, 0⟩
  (s, if s.pairActive && !s.flag .xDeliver ((s.orderZero 1 t).getD 0) then start else r.1.foldl Egress.arrive start)

/-- Port p has sent what the buffer gave it; the standby of a pair, and a port that sends ordered sets, sends none of it (R309, R460).
Slips are counted, each with port event source 1. -/
def State.pcsSent (s : State) (p : Nat) (x : Egress) : State :=
  let s := s.setEgress p x.waiting x.owed
  let s := s.bump .portRmInserted p x.inserted |>.bump .portRmDeleted p x.deleted |>.bump .portRmSlips p x.slips
  let s := s.each (List.range x.slips) fun s _ => s.raise (evPort p 1) []
  if x.sent.isEmpty ∨ s.pairStandby ∨ s.sendingNow p ≠ 0 then s else s.emit (.pcs p x.sent)

/-- What a transparent tributary has received goes out of port p as Carry is left (R41). -/
def State.streamOut (s : State) (p t : Nat) : State :=
  if !s.admits || s.tribFailed t || s.portDown p then (s.demapNone t).setEgress p [] false
  else
    let s := s.demapPlain t
    let a := s.pcsEnter p t ((s.rxTrib t).bytes.length + (s.rxTrib t).bits.length)
    (a.1.pcsSent p { a.2 with waiting := [], owed := false, sent := a.2.waiting }).demapNone t

/-- The egress of transparent port p at work: `enter` blocks of 257 bits are decoded into the buffer and the PCS takes `send` blocks
from it; demap and egress are tiles of the bytes that wait, by their first byte, as the demapper and the PCS encoder read them. A
tributary that is failed or not delivered drives nothing, and its buffer empties (DESIGN CHOICE, log entry 50). -/
def State.rateMatch (s : State) (p enter send : Nat) (demap egress : List TileRead) : State :=
  match s.streamTrib p with
  | none => s
  | some t =>
    if !s.admits || s.tribFailed t || s.portDown p then (s.demapNone t).setEgress p [] false
    else
      let flow := if s.get .portClsDefaultFlow p = 0xFFFF then none else some (s.nat .portClsDefaultFlow p)
      let s := ((s.demapPlain t).demapReads t 5 flow demap).demapReads t 6 flow egress
      let a := s.pcsEnter p t enter
      a.1.pcsSent p (a.2.run send)

/-- RATE_MATCH_ADJUST (R311). -/
def execRateMatchAdjust (p : Fin 48) (enter send : Nat) (demap egress : List TileRead) (s : State) :
    Host.Outcome State Fault Refusal :=
  s.live fun s => s.rateMatch p enter send demap egress

/-! ## PRBS and loopback (R312 to R315) -/

/-- A generator or loopback may be enabled on lane h (R312). -/
def State.testAllowed (s : State) (h : Nat) : Bool := s.get .deviceModeState 0 == 1 || !s.onEnabledPort h

/-- The counters of the checker of lane h cleared (R313). -/
def State.prbsClear (s : State) (h : Nat) : State :=
  s |>.set .lanePrbsBits h 0 |>.set .lanePrbsErrors h 0 |>.set .lanePrbsInjected h 0

/-- The generator of lane h starts on a pattern: from the user pattern's bit 63, or from a state that is not 0 (R312). -/
def State.prbsSeed (s : State) (h code : Nat) : State :=
  let s := s.set .xPrbsInjDue h 0
  if code = 0 ∨ code = 7 then s.set .xPrbsReg h 0
  else
    let (x, s) := s.takeFree
    s.set .xPrbsReg h ((x % (2 ^ (prbsTaps code).1 - 1) + 1 : Nat) : Int)

/-- F100.01 or .02 written for lane h. -/
def writePrbs (r : Reg) (h : Nat) (v : Int) (s : State) : State × Answer :=
  if r = .lanePrbsGen ∧ v ≠ 0 ∧ !s.testAllowed h then (s, refusedWith 0x08)
  else
    let s := ((s.set r h v).prbsClear h).lanesWake [h]
    (if r = .lanePrbsCheck then (s.set .lanePrbsState h (if v = 0 then 0 else 1)).set .xPrbsBad h 0
      else s.prbsSeed h v.toNat, accepted)

/-- Lane h runs its bring-up again from step 3. -/
def State.laneAgain (s : State) (h : Nat) : State :=
  if s.laneOn h then
    (((s.set .laneLock h 0).set .xLaneRelock h 0).set .xLaneLow h 0 |>.laneStep h 3 3).octetChanged (h / 8)
  else s

/-- F100.0A written for lane h (R315); the value it has changes nothing. -/
def writeLoopback (h : Nat) (v : Int) (s : State) : State × Answer :=
  if v ≠ 0 ∧ !s.testAllowed h then (s, refusedWith 0x08)
  else if v = s.get .laneLoopback h then (s, accepted)
  else ((s.set .laneLoopback h v).laneAgain h, accepted)

/-- Generators and loopbacks on lanes of enabled ports go off as the device leaves Trim upward (R312). -/
def State.testsOff (s : State) : State :=
  s.each ((List.range 96).filter s.onEnabledPort) fun s h =>
    let s := s.set .lanePrbsGen h 0
    if s.flag .laneLoopback h then (s.set .laneLoopback h 0).laneAgain h else s

/-- One symbol of the generator of lane h is to be sent with its most significant bit complemented (R314). -/
def State.inject (s : State) (h : Nat) : State :=
  if s.flag .lanePrbsGen h && s.laneOn h then (s.bump .lanePrbsInjected h).set .xPrbsInjDue h (s.get .xPrbsInjDue h + 1) else s

/-- F100.07 written for lane h: one error while the generator runs (R314). -/
def writeInject (h : Nat) (s : State) : State × Answer := (s.inject h, accepted)

/-- PRBS_INJECT (R314). -/
def execPrbsInject (cl : Client) (h : Fin 96) (s : State) : Host.Outcome State Fault Refusal :=
  .next (s.serveWrite cl .lanePrbsInject h (.int 1) (writeInject h))

/-- PRBS_INJECT_PERIODIC (R314). -/
def execPrbsInjectPeriodic (h : Fin 96) (s : State) : Host.Outcome State Fault Refusal :=
  s.live fun s =>
    if s.flag .lanePrbsInjectRate h && s.laneOn h then s.inject h else s

/-- PRBS_CHECKER_LOCK (R313): the bits received last, whole symbols. -/
def execPrbsCheckerLock (h : Fin 96) (bits : List Bool) (s : State) : Host.Outcome State Fault Refusal :=
  s.live fun s => s.prbsSearch h bits

/-- PRBS_CHECKER_UNLOCK (R313). -/
def execPrbsCheckerUnlock (h : Fin 96) (s : State) : Host.Outcome State Fault Refusal :=
  s.live fun s =>
    if 2 ≤ s.get .lanePrbsState h ∧ s.flag .xPrbsBad h then (s.set .lanePrbsState h 1).set .xPrbsBad h 0 else s

/-! ## Settings (R294, R297, R299, R301, R306) -/

/-- 5000.01 written: a generator or checker that is enabled keeps the lane out of the deep low-power state. -/
def writeLanePower (h : Nat) (v : Int) (s : State) : State × Answer :=
  if v = 2 ∧ (s.flag .lanePrbsGen h ∨ s.flag .lanePrbsCheck h) then (s, refusedWith 0x08)
  else ((s.set .lanePower h v).lanesWake [h], accepted)

/-- 5000.03 or .04 written: a fixed polarity applies. -/
def writePolarity (r : Reg) (h : Nat) (v : Int) (s : State) : State × Answer :=
  let s := s.set r h v
  (if s.get .laneRxPolMode h = 0 then s.set .laneRxPolApplied h (s.get .laneRxPolFixed h) else s, accepted)

/-- 5000.09 written: above 5000.08. -/
def writeLosClear (h : Nat) (v : Int) (s : State) : State × Answer :=
  if v ≤ s.get .laneLosAssert h then (s, refusedWith 0x08) else (s.set .laneLosClear h v, accepted)

/-- 5001.01 or .02 written: the code in force is held until the next full bring-up (R300). -/
def writeCtle (r : Reg) (h : Nat) (v : Int) (s : State) : State × Answer := (s.set r h v, accepted)

/-- The main tap of lane h (R301). -/
def State.mainTap (s : State) (h : Nat) : Int :=
  128 - (s.get .laneTxPre2 h).natAbs - (s.get .laneTxPre1 h).natAbs - (s.get .laneTxPost1 h).natAbs

/-- 5002.02 to .04 written. -/
def writeTxTap (r : Reg) (h : Nat) (v : Int) (s : State) : State × Answer :=
  let t := s.set r h v
  if t.mainTap h < 64 then (s, refusedWith 0x08) else (t.set .laneTxMain h (t.mainTap h), accepted)

/-- 5010.01 written: the order found is forgotten, a fixed order applies at once. -/
def writeOrderMode (o : Nat) (v : Int) (s : State) : State × Answer :=
  ((((s.set .octetOrderMode o v).orderForget o).lanesWake (lanesOf o)).octetChanged o, accepted)

/-- 5C00.01 written: the octet must keep its layout. Another code forms the port anew, which waits for its lanes and aligns again
(R307, log entry 48), and the order found is forgotten (R299). -/
def writePortRate (p : Nat) (v : Int) (s : State) : State × Answer :=
  if v = s.get .portRate p then (s, accepted)
  else
    let t := (s.set .portRate p v).orderForget (p / 4)
    if t.layoutOk (p / 4) then
      let t := if t.flag .portEnable p then (t.set .portState p 1).set .xPortAligned p 0 |>.set .xPortPcs p 0 else t
      ((t.lanesWake (lanesOf (p / 4))).octetChanged (p / 4), accepted)
    else (s, refusedWith 0x08)

/-- 5C00.02 written: a disabled port is down and asserts nothing; a frame in progress at its ingress, which no command tells of, is
discarded and counted (R318, log entry 48). -/
def writePortEnable (p : Nat) (v : Int) (s : State) : State × Answer :=
  if v = s.get .portEnable p then (s, accepted)
  else
    let s := if s.get .portState p = 3 then
        let (x, s) := s.takeFree
        if x % 2 = 1 then s.bump .portClsErrored p else s
      else s
    let s := (s.set .portEnable p v).set .xPortFault p 0 |>.set .xPortAligned p 0 |>.set .xPortPcs p 0
      |>.set .portState p v
    (((s.lanesWake (lanesOf (p / 4))).pfcEval p).octetChanged (p / 4), accepted)

end Sys2Proof.Machine
end

