-- ==== Sys2Proof/Machine/Role.lean ====
section
/-! DEFINITION. The roles of a pair: taking and leaving the active role, readiness (R460 to R465). -/

namespace Sys2Proof.Machine

/-- C000.0F follows readiness; a change raises source 147 (R460). -/
def State.setReady (s : State) (v : Bool) : State :=
  if s.flag .pairReady 0 == v then s else (s.setFlag .pairReady 0 v).raise (evDev 147) []

/-- Some slot is unsynchronised. -/
def State.anyUnsync (s : State) : Bool := !(s.listed .xSlotUnsync).isEmpty

/-- The standby is ready (R460). -/
def State.readyNow (s : State) : Bool :=
  let up := carriers.filter fun c => s.bit .xPartnerCarrying 0 c
  s.tieUp && s.get .pairDigestMatch 0 == 255 && !s.anyUnsync
    && s.txGenerations.all (fun i => s.get .xLease i != 0)
    && up.all fun c => s.get .carrierState c == 4

/-- On the standby, readiness is judged anew. -/
def State.judgeReady (s : State) : State := if s.pairStandby then s.setReady s.readyNow else s

/-- The health of the module (R461): carriers Carrying with request 2. -/
def State.health (s : State) : Nat :=
  (carriers.filter fun c => s.get .carrierState c == 4 && s.get .carrierRequest c == 2).length

/-- Every receive queue emptied uncounted: what it held has been delivered, or is not this module's to deliver. -/
def State.emptyTribQueues (s : State) : State :=
  s.each (s.tribQueue.map Prod.fst) fun s t => s.putTribQueue t [] 0

/-- SWITCH_OUT driven. -/
def State.switchOut (s : State) (v : Int) : State := s.set .xSwitchOut 0 v

/-- The active role taken (R463): counts start beyond the last lease, delivery begins at the multiframe after the last
one the partner delivered, and new leases are granted. -/
def State.becomeActive (s : State) (cause : Nat) : State :=
  let gens := (s.listed .xLease).map Prod.fst
  let s := (s.set .pairRole 0 1).switchOut 1 |>.set .xSwitchTick 0 (s.get .xTicks 0 + 1)
    |>.set .pairState 0 (if cause = 3 ∨ cause = 5 then 3 else 2)
  let s := s.each gens fun s i =>
    let l := if s.get .xLeaseNew i = 0 then s.get .xLease i else s.get .xLeaseNew i
    s |>.set .xSlotCount i ((l + 2 ^ 32) % 2 ^ s.countBits) |>.set .xLease i 0 |>.set .xLeaseAck i 0
      |>.set .xLeaseNew i 0 |>.set .xLeaseOut i 0
  let s := s.each carriers fun s c =>
    (s.set .xDeliver c 0).set .xDeliverFrom c
      (if s.get .xDelivery c = 0 then (s.get .carrierBondBsq c + 1) % 2 ^ 24 else s.get .xDelivery c % 2 ^ 24)
  let s := s.emptyTribQueues.each s.txGenerations State.leaseFirst
  ((s.bump .pairSwitchovers 0).set .pairLastCause 0 (cause : Nat)).setReady false |>.raise (evDev 144) []

/-- The active role left for the standby role (R463). -/
def State.becomeStandby (s : State) : State :=
  let s := (s.set .pairRole 0 2).switchOut 0 |>.set .xSwitchTick 0 (s.get .xTicks 0 + 1)
  let s := s.each ((s.listed .xLease).map Prod.fst ++ (s.listed .xLeaseAck).map Prod.fst) fun s i =>
    s |>.set .xLease i 0 |>.set .xLeaseAck i 0
  (s.each carriers fun s c => (s.set .xDeliver c 0).set .xDelivery c 0).judgeReady

/-- Pair is left (R465): the active sends release first; counter bit 63 becomes 0 as the mode goes. -/
def State.endRole (s : State) : State :=
  let s := if s.get .pairRole 0 = 1 then s.tieSend (.tieRelease 3) else s
  let s := s.each ((s.listed .xLease).map Prod.fst ++ (s.listed .xLeaseAck).map Prod.fst ++ (s.listed .xLeaseNew).map Prod.fst)
    fun s i => s |>.set .xLease i 0 |>.set .xLeaseAck i 0 |>.set .xLeaseNew i 0 |>.set .xLeaseOut i 0
  let s := s.each ((s.listed .xSlotCount).map Prod.fst) fun s i => s.set .xSlotCount i (s.get .xSlotCount i % 2 ^ 63)
  let s := if s.get .pairRole 0 = 2 then s.emptyTribQueues else s
  (((s.set .pairRole 0 0).set .pairState 0 0).switchOut 0).setReady false

/-- Pair is entered in the role agreed (R456): the active grants leases and delivers, the standby waits for them. -/
def State.startRole (s : State) : State :=
  let s := s.set .pairState 0 2
  let s := s.each carriers fun s c => (s.setFlag .xDeliver c (s.get .pairRole 0 == 1)).set .xDelivery c 0
  if s.get .pairRole 0 = 1 then (s.switchOut 1).each s.txGenerations State.leaseFirst else s.judgeReady

/-- A switchover by command or by judgement of this module (R461, R463): the partner is told. -/
def State.switchOver (s : State) (cause : Nat) : State :=
  let s := s.tieSend (.tieSwitch cause)
  if s.pairActive then s.becomeStandby else s.becomeActive cause

end Sys2Proof.Machine
end

