-- ==== Sys2Proof/Machine/Mode.lean ====
section
/-! DEFINITION. Device modes: requests, exit actions, Haven, carrier requests, completion (R37 to R49, R456, R465). -/

namespace Sys2Proof.Machine

/-! ## Records kept whatever their severity (R44, R385) -/

/-- Source e is raised, and its record enters the event history whatever its severity and enable (R385). -/
def State.raiseKept (s : State) (e : Nat) (detail : List Item) : State :=
  let on := s.flag .eventEnable e
  let sev := s.nat .eventSeverity e
  let r : EventRec := ⟨e, sev % 4, if on then s.nat .ringNextSeq 0 else 0xFFFFFFFF, s.now, layout detail⟩
  let s := s.raise e detail
  if on && sev == 3 then s else s.historyPush r

/-- The mode-change event (R40, R44): previous and new mode, Haven causes, first cause. -/
def State.modeDetail (s : State) (was new : Int) : List Item :=
  [u8 was, u8 new, u16 (s.get .deviceHavenCauses 0), u8 (s.get .deviceHavenFirstCause 0)]

/-! ## Thermal sensors as the modes see them (R424, R427) -/

/-- The neighbours of sensor i (R424). -/
def sensorNeighbours (i : Nat) : List Nat :=
  if i < 24 then ([0, 1, 2].map (3 * (i / 3) + ·)).filter fun j => j != i
  else if i < 28 then [24 + (i - 24 + 1) % 4, 24 + (i - 24 + 3) % 4]
  else if i < 36 then [28 + (i - 28 + 7) % 8, 28 + (i - 28 + 1) % 8]
  else [36 + (i - 36 + 3) % 4, 36 + (i - 36 + 1) % 4]

/-- Sensor i is valid. -/
def State.sensorValid (s : State) (i : Nat) : Bool := s.get .sensorState i == 0

/-- Some failed sensor has no valid neighbour (R427). -/
def State.sensingLost (s : State) : Bool :=
  (List.range 40).any fun i => !s.sensorValid i && !(sensorNeighbours i).any s.sensorValid

/-! ## Exit actions (R41) -/

/-- Pair is left. -/
def State.leavePair (s : State) : State := s.endRole

/-- The cipher blocks of tributary t that have come go through their checks, their cores in agreement (R284, R286). -/
def State.openBlocks (t : Nat) : Nat → State → State
  | 0, s => s
  | n + 1, s =>
    if bMode (s.binding 1 t) ≠ 0 ∧ (blockOf (s.binding 1 t) (s.rxTrib t).shares).isSome then
      State.openBlocks t n (s.rxBlock t 0 0 [] [] [] ⟨0, false, 0, false⟩)
    else s

/-- The client frames of tributary t that have come are delineated and delivered one by one (R246). -/
def State.deliverFrames (t : Nat) : Nat → State → State
  | 0, s => s
  | n + 1, s =>
    let r := s.demapPlain t |>.delineate t
    match r.2 with
    | some x => State.deliverFrames t n ((r.1.storeFrame t x.2 x.1).when (!r.1.pairStandby) fun s => s.drainTrib t)
    | none => r.1

/-- Multiframes that the boathouse holds for group g are released (R259). -/
def State.releaseAll (g : Nat) : Nat → State → State
  | 0, s => s
  | n + 1, s => if (s.boatNext (s.alignedList g)).isSome then State.releaseAll g n (s.release g []) else s

/-- What the line has brought tributary t goes on to its port (R41). -/
def State.finishTrib (s : State) (t : Nat) : State :=
  let x := s.rxTrib t
  let n := x.bytes.length + 8 * (x.shares.map fun h => h.words.length).sum + 1
  let s := s.openBlocks t n
  let row := s.egressRow t
  if !rtValid row || s.tribFailed t then s
  else if rtTransparent row then s.streamOut (rtPort row) t
  else s.deliverFrames t n

/-- Data inside the receive path as Carry is left is delivered (R41): the boathouse, the cipher, the demappers. -/
def State.finishReceive (s : State) : State :=
  let s := s.each (List.range 6) fun s g =>
    s.releaseAll g (((s.alignedList g).map fun c => (s.rx c).boats.length).sum)
  s.each (s.rxTribs.map Prod.fst) State.finishTrib

/-- Carry is left: queues discarded and counted, Carrying carriers Locked, received data delivered. -/
def State.leaveCarry (s : State) : State :=
  let s := s.flushAll
  let s := s.each carriers fun s c =>
    if s.get .carrierState c = 4 then (s.setCarrierState c csLocked).set .carrierLastDrop c 4 else s
  s.drainTribs

/-- Catch is left: every carrier Idle, background calibration off. DESIGN CHOICE (log entry 31): an offline measurement in
progress is abandoned, as for an entry to Haven under mute (R99). -/
def State.leaveCatch (s : State) : State :=
  ((s.each carriers fun s c => (s.toIdle c 4).calAbandonOffline c).calSettle).refreshBg

/-- The loops of a carrier are off: no VCO band, no relock (R100). DESIGN CHOICE (log entry 30): 3020.01, 3020.02, 4000.02
and 4600.02 keep the rates last served. -/
def State.loopsOff (s : State) (c : Nat) : State :=
  s.setLoops c 0 0 |>.set .xRelock c 0 |>.set .xCalBandOn c 0 |>.set .xCalBandOn (12 + c) 0

/-- Trim is left downward: lanes, converters and tie lanes unpowered, slots erased. -/
def State.leaveTrim (s : State) : State :=
  let s := s.lanesOff.set .xPowered 0 0
  let s := s.each carriers fun s c =>
    (((s.calAbandon c false).calAbandonOffline c).loopsOff c).set .carrierOpenTestBusy c 0
  let s := s.each (List.range 48) fun s d =>
    s |>.set .dacShortState d 0 |>.set .xTrial (2 * d) 0 |>.set .xTrial (2 * d + 1) 0
  let s := (s.each carriers fun s c => s.refreshConv c).refreshBg
  (s.eraseAllSlots.set .tieState 0 0).set .tieLanesLocked 0 0 |>.set .xTrimReady 0 0

/-- The exit actions from mode m down to mode t, in descending order. -/
def State.exitActions (s : State) (m t : Int) : State :=
  let s := s.when (decide (m = 4 ∧ t < 4)) State.leavePair
  let s := s.when (decide (3 ≤ m ∧ t < 3)) State.leaveCarry
  let s := s.when (decide (2 ≤ m ∧ t < 2)) State.leaveCatch
  s.when (decide (1 ≤ m ∧ t < 1)) State.leaveTrim

/-- The rate at which the ADCs of carrier c are calibrated: the Seeking rate that the stored settings give (R62, R90). -/
def State.trimRxRate (s : State) (c : Nat) : Nat :=
  if s.get .carrierCatchCount c = 0 then s.storedRxRate c else kBd (highest (s.storedList c) 0)

/-- The loops of carrier c go to the rates of a calibration (R61, R62, R90): a loop that is off or serves another rate
locks, one in holdover stays there. DESIGN CHOICE (log entry 30): the stored rates are served from the Trim request until
the carrier leaves Idle. -/
def State.trimLoops (s : State) (c : Nat) : State :=
  let rx := s.trimRxRate c
  let tx := s.storedTxRate c
  let next := fun (loop : Nat) (same : Bool) => if loop = 3 then 3 else if loop = 2 && same then 2 else 1
  let l := (next (s.txLoop c) (s.nat .xTxRate c == tx), next (s.rxLoop c) (s.nat .xRxRate c == rx))
  (((s.serveRx c rx).serveTx c tx).setLoops c l.1 l.2).set .xRelock c 0

/-- The start of a transition to Trim from Dormant or Haven (R63, R90): converters powered, offline measurements abandoned
(R99), loops locking at the Seeking and transmit rates, calibration once none is still locking. -/
def State.startTrim (s : State) : State :=
  let s := (s.set .xPowered 0 1).set .xTrimReady 0 0
  let s := s.each carriers fun s c => (s.calAbandonOffline c).trimLoops c
  (s.each carriers fun s c => s.refreshConv c).calBegin

/-! ## Haven (R44 to R46) -/

/-- Mute takes force: every carrier Idle, every DAC at code 0, so converters powered, offline measurements abandoned, loops held
at 620 mV (R44, R45, R99; log entry 48). -/
def State.muteOn (s : State) : State :=
  let s := ((s.set .xMute 0 1).set .xPowered 0 1).each carriers fun s c =>
    ((s.toIdle c 4).calAbandonOffline c).refreshConv c
  let s := s.calSettle.refreshBg
  s.each (List.range 5) fun s g => (s.set .guardSetpoint g 6200).set .xGuardBase g 6200

/-- A transition in progress is abandoned where it stands (R42, R99). -/
def State.abandonTransition (s : State) : State :=
  let s := (s.set .deviceModeBusy 0 0).set .xTrimReady 0 0
  s.each carriers fun s c => s.calAbandon c false

/-- An orderly shutdown that Haven completes is recorded (R433). -/
def State.stopRecord (s : State) : State :=
  if s.flag .xShutdown 0 then
    let s := (s.set .xShutdown 0 0).set .thermalLastStop 0 1 |>.set .xShutDone 0 1
    s.raiseKept (evDev 45) [u16 (s.get .xShutSensor 0), u16 (s.get .xShutTemp 0), u16 (s.get .thermalSlope 0)]
  else s

/-- Highest bit of a cause mask. -/
def topBit (m : Nat) : Nat := (List.range 6).foldl (fun a b => if bitOf m b then b else a) 0

/-- The loop period that now runs, plus one: whole periods of 5 µs from the end of the fuse load (R26, R481). -/
def State.loopPeriod (s : State) : Int := s.get .xTicks 0 / 1250 + 1

/-- An exit from Haven abandoned (R42): the lanes it had powered down come up again, converters are powered again, and the
transmit policy in force is applied again (log entry 48). -/
def State.backInHaven (s : State) : State :=
  let s := (s.abandonTransition.set .xPowered 0 1).lanesUp
  let s := s.each carriers fun s c => s.refreshConv c
  if s.flag .xMute 0 then s.muteOn else s.refreshBg

/-- Causes of Haven are established (R39, R42, R44): Haven is entered, or the causes join those of the present stay. Host
lanes are up in Haven (table Device modes). -/
def State.haven (s : State) (bits : Nat) : State :=
  let s := s.repairsGoOn
  let bits := if s.flag .xShutdown 0 then bits ||| 32 else bits
  let was := s.get .deviceModeState 0
  let hard := bits &&& 0x32 != 0
  let s :=
    if was = 5 then
      let s := s.set .deviceHavenCauses 0 (s.nat .deviceHavenCauses 0 ||| bits : Nat)
      let s := if bits = 1 then s else s.set .xCausePeriod 0 s.loopPeriod
      let s := if s.flag .deviceModeBusy 0 then s.backInHaven else s
      if hard && !s.flag .xMute 0 then s.muteOn else s
    else
      let s := s.abandonTransition
      let s := s.bump .deviceHavenEntries 0 |>.set .deviceHavenCauses 0 (bits : Nat)
        |>.set .deviceHavenFirstCause 0 (topBit bits : Nat)
      let s := if s.get .pairRole 0 = 0 then s else s.endRole
      let s := (s.set .deviceModeState 0 5).set .xMute 0 0 |>.set .xHavenPeriod 0 s.loopPeriod |>.lanesUp
      let s := if hard || s.get .deviceHavenTxPolicy 0 == 0 then s.muteOn else s.refreshBg
      let s := if s.get .deviceHavenKeyPolicy 0 = 1 then s.eraseAllSlots else s
      s.raiseKept (evDev 0) (s.modeDetail was 5)
  s.stopRecord

/-- What an exit from Haven to Trim waits for (R46). -/
def State.causePersists (s : State) : Bool :=
  (List.range 13).any (fun r => s.get .railState r != 0) || s.sensingLost
    || (List.range 5).any (fun g => s.get .xAvsFail g != 0) || decide (1000 ≤ s.get .thermalHottest 0)

/-- A configuration object or a table of index 2000 to FFFF, or what it holds in force (R46, R328). -/
def Reg.isConfig (r : Reg) (i : Nat) : Bool :=
  match r with
  | .tsiActiveRow | .calActiveEntry | .spanActive | .bindInForce | .xTribRow | .clsEntries | .carrierBondGroup
  | .carrierBondState | .bankActiveBank | .xBankActive | .xBankMode => true
  | _ => (r.access = .rw || r.access = .rwd) && decide (0x2000 ≤ (addressOf r i).1)

/-- A source's selects and filter settings at their defaults, where they are configuration. -/
def View.dropConfig (v : View) : View := { v with sel := v.sel.filter fun e => !e.1.1.isConfig e.1.2 }

/-- Every configuration object of index 2000 to FFFF returns to its default: configuration memory reads as never
written (R46). Queues of flows so disabled are discarded (R245), and demand is compared with capacity anew (R288). -/
def State.dropConfiguration (s : State) : State :=
  let s := s.flushAll
  State.capacityCheck
    { s with regs := s.regs.filter fun e => !e.1.1.isConfig e.1.2
             blobs := s.blobs.filter fun e => !e.1.1.isConfig e.1.2
             classifier := []
             sources := s.sources.map fun (x : Source) =>
               { x with native := x.native.dropConfig, fore := x.fore.dropConfig } }

/-! ## Requests (R40, R42, R46, R456, R465) -/

/-- A request refused: 2000.04 keeps the reason. -/
def State.refuseMode (s : State) (reason : Nat) : State × Answer :=
  (s.set .deviceModeRefusal 0 (reason : Nat), refusedFor reason)

/-- A key-encryption key's check value plus one; 0 where none is programmed. -/
def State.kcvMark (s : State) (n : Nat) : Int := if s.get .kekState n = 2 then s.get .kekKcv n + 1 else 0

/-- The role this module's strap prefers: 1 active, 2 standby. -/
def State.preferredRole (s : State) : Int := if s.bit .bootStraps 0 8 then 2 else 1

/-- The first condition of Table: Pair preconditions that holds; 0 none (R456). -/
def State.pairBlock (s : State) : Nat :=
  if !s.tieUp then 1
  else if s.get .pairPartnerMode 0 ≠ 3 ∧ s.get .pairPartnerMode 0 ≠ 4 then 2
  else if s.get .xPartnerStrap 0 = ofFlag (s.bit .bootStraps 0 8) then 3
  else if (List.range 4).any fun n => s.kcvMark n != s.get .xPartnerKcv n then 4
  else if s.get .xPartnerState 0 = 1 ∧ s.get .xPartnerRole 0 = s.preferredRole then 5
  else 0

/-- The role taken at an accepted request for Pair (R456). -/
def State.agreedRole (s : State) : Int :=
  if s.get .pairPartnerMode 0 = 4 ∧ s.get .xPartnerRole 0 = 1 then 2
  else if s.get .pairPartnerMode 0 = 4 ∧ s.get .xPartnerRole 0 = 2 then 1
  else s.preferredRole

/-- A transition to mode v starts. -/
def State.startTransition (s : State) (v : Int) : State :=
  s |>.set .deviceModeRequest 0 v |>.set .deviceModeBusy 0 1 |>.set .xTarget 0 v

/-- The exit from Haven is accepted: carriers go to Idle (R46). -/
def State.leaveHaven (s : State) (v : Int) : State :=
  let hurt := s.bit .deviceHavenCauses 0 3
  let s := (s.each carriers fun s c => s.toIdle c 4).calSettle
  if v = 1 then (s.flushAll.startTransition 1).startTrim
  else
    let s := (s.startTransition 0).leaveTrim
    if hurt then s.dropConfiguration else s

/-- 2000.01 written (R40). A request in the loop period in which a cause entered Haven is taken and not acted on; in the period
in which a cause joins a stay in Haven a request for Trim is refused (R43, log entry 27). -/
def writeModeRequest (v : Int) (s : State) : State × Answer :=
  let m := s.get .deviceModeState 0
  let booted := s.get .bootStatus 0 = 1 ∨ s.get .bootStatus 0 = 6
  if v = 5 then ((s.set .deviceModeRequest 0 5).haven 1, accepted)
  else if m = 5 ∧ s.get .xHavenPeriod 0 = s.loopPeriod ∧ v ≤ 4 then (s.set .deviceModeRequest 0 v, accepted)
  else if s.flag .deviceModeBusy 0 then s.refuseMode 2
  else if v = m then (s.set .deviceModeRequest 0 v, accepted)
  else if m = 5 then
    if v = 0 then (s.leaveHaven 0, accepted)
    else if v ≠ 1 then s.refuseMode 1
    else if s.bit .deviceHavenCauses 0 3 then s.refuseMode 5
    else if s.causePersists || s.get .xCausePeriod 0 = s.loopPeriod then s.refuseMode 4
    else (s.leaveHaven 1, accepted)
  else if v < m then
    if m = 4 ∧ v = 3 ∧ s.get .pairRole 0 = 2 ∧ s.get .xPartnerRole 0 = 1 ∧ s.tieUp then
      (s.set .pairRefusal 0 6).refuseMode 6
    else
      let s := s.when (decide (3 ≤ m ∧ v < 3)) State.finishReceive
      ((s.startTransition v).exitActions m v, accepted)
  else if m + 1 < v then s.refuseMode 1
  else if v = 1 then
    if !booted then s.refuseMode 3
    else if !s.flag .xHbmTrained 0 then s.refuseMode 7
    else ((s.startTransition 1).startTrim, accepted)
  else if v = 2 then ((s.startTransition 2).each carriers fun s c => s.calAbandon c true, accepted)
  else if v = 3 then (s.startTransition 3, accepted)
  else
    let b := s.pairBlock
    if b = 0 then (((s.startTransition 4).set .pairRole 0 s.agreedRole).set .pairState 0 1, accepted)
    else (s.set .pairRefusal 0 (b : Nat)).refuseMode 6

/-- A write of a mode code served. -/
def State.requestMode (s : State) (cl : Client) (v : Int) : State :=
  s.serveWrite cl .deviceModeRequest 0 (.int v) (writeModeRequest v)

/-- REQUEST_DORMANT (R40). -/
def execRequestDormant (cl : Client) (s : State) : Host.Outcome State Fault Refusal := .next (s.requestMode cl 0)
/-- REQUEST_TRIM (R40). -/
def execRequestTrim (cl : Client) (s : State) : Host.Outcome State Fault Refusal := .next (s.requestMode cl 1)
/-- REQUEST_CATCH (R40). -/
def execRequestCatch (cl : Client) (s : State) : Host.Outcome State Fault Refusal := .next (s.requestMode cl 2)
/-- REQUEST_CARRY (R40). -/
def execRequestCarry (cl : Client) (s : State) : Host.Outcome State Fault Refusal := .next (s.requestMode cl 3)
/-- REQUEST_PAIR (R456). -/
def execRequestPair (cl : Client) (s : State) : Host.Outcome State Fault Refusal := .next (s.requestMode cl 4)
/-- REQUEST_HAVEN (R46). -/
def execRequestHaven (cl : Client) (s : State) : Host.Outcome State Fault Refusal := .next (s.requestMode cl 5)

/-! ## Completion (R40) -/

/-- What the transition in progress waits for has come about. -/
def State.transitionReady (s : State) : Bool :=
  let m := s.get .deviceModeState 0
  let t := s.get .xTarget 0
  if t = 1 ∧ (m = 0 ∨ m = 5) then
    s.flag .xTrimReady 0 && carriers.all (fun c => !s.flag .xFgCal c && !s.flag .carrierOpenTestBusy c)
      && [0, 1, 2, 3].all fun k => (s.repairRunning k).isNone
  else if t = 4 then
    s.tieUp && s.get .xPartnerState 0 != 0 && s.get .xPartnerRole 0 == 3 - s.get .pairRole 0
  else true

/-- The transition completes: 2000.02 takes its code, and the mode-change event is raised. -/
def State.transitionDone (s : State) (failed : List Nat) : State :=
  let m := s.get .deviceModeState 0
  let t := s.get .xTarget 0
  let s := (s.set .deviceModeState 0 t).set .deviceModeBusy 0 0 |>.set .xTrimReady 0 0
  let s := if m = 5 then (s.set .deviceHavenCauses 0 0).set .xMute 0 0 else s
  let s := if t = 1 then
      let s := (s.lanesUp).coresTested failed
      if s.get .tieState 0 = 0 then s.set .tieState 0 1 else s
    else s
  let s := if m = 1 ∧ t = 2 then s.testsOff else s
  let s := if t = 4 then s.startRole else s
  (s.refreshBg).raise (evDev 0) (s.modeDetail m t)

/-- MODE_TRANSITION_COMPLETE (R40); `failed` are the cipher cores that fail the known-answer test at an entry to Trim
(R287). -/
def execModeTransitionComplete (failed : List (Fin 52)) (s : State) : Host.Outcome State Fault Refusal :=
  s.live fun s =>
    if s.flag .deviceModeBusy 0 && s.transitionReady then s.transitionDone (failed.map Fin.val) else s

/-! ## Carrier requests (R47, R49) -/

/-- 3000.01 written for carrier c. -/
def writeCarrierRequest (c : Nat) (v : Int) (s : State) : State × Answer :=
  let s := s.set .carrierRequest c v
  let s :=
    if v = 0 then (s.toIdle c 3).calSettle
    else if v = 1 ∧ s.get .carrierState c = 4 then (s.setCarrierState c csLocked).set .carrierLastDrop c 3
    else s
  if s.get .carrierBondGroup c = 0xFF then (s, accepted)
  else
    let g := s.nat .carrierBondGroup c
    let others := s.groupList g
    let s :=
      if others.all (fun d => s.idle d && (s.get .carrierRequest d == 0 || s.flag .xBondExit d)) then s.leaveTogether g
      else s
    (if s.flag .xGroupWait g then s.tryAlign g else s, accepted)

/-- CARRIER_REQUEST (R47). -/
def execCarrierRequest (cl : Client) (c : Fin 12) (v : Fin 256) (s : State) : Host.Outcome State Fault Refusal :=
  .next (s.serveWrite cl .carrierRequest c (.int v.val) (writeCarrierRequest c v.val))

end Sys2Proof.Machine
end

