-- ==== Sys2Proof/Machine/Boot.lean ====
section
/-! DEFINITION. Resets, straps, the fuse load and the microcode boot (R50 to R56, R476, R477, R482), and the switch of the
forerunner view (R4). -/

namespace Sys2Proof.Machine

/-! ## What a reset keeps (R50) -/

/-- Kept by every reset: key-encryption key fuses, and the levels of pins. -/
def Reg.keptCold (r : Reg) : Bool :=
  match r with
  | .xKekFuse | .kekState | .kekKcv | .cipherZero | .cipherKeyprov | .xRefh | .xSysrst => true
  | _ => false

/-- Kept by a warm reset: also straps, Haven entries, the last thermal stop, and the counts of the event history and of
spare and queued rows. -/
def Reg.keptWarm (r : Reg) : Bool :=
  match r with
  | .bootStraps | .deviceHavenEntries | .thermalLastStop | .historyWritten | .repairPending | .memSparesLeft | .xMacroUsed => true
  | r => r.keptCold

/-- Everything at its reset value but the registers kept; what the model itself keeps goes on. -/
def State.wipe (s : State) (kept : Reg → Bool) : State :=
  { State.reset with
    regs := s.regs.filter fun e => kept e.1.1
    blobs := s.blobs.filter fun e => kept e.1.1
    tap := s.tap, out := s.out, free := s.free, pending := s.pending }

/-- A cold reset (R50). -/
def State.coldReset (s : State) : State := s.wipe Reg.keptCold

/-- A warm reset with its cause code (R50): the event history, HBM redirects and the repair queue stay (R331, R332). -/
def State.warmReset (s : State) (cause : Int) : State :=
  { s.wipe Reg.keptWarm with history := s.history, repairs := s.repairs, redirects := s.redirects }.set
    .bootResetCause 0 cause

/-- A warm reset commanded by a write takes place once its reply is formed (R50). -/
def State.afterReset (s : State) : State :=
  if s.flag .xResetDue 0 then { s.warmReset 2 with phase := .fuseLoad } else s

/-! ## TAP (R480) -/

/-- The IDCODE: version 2 for stepping B, part 0x9612, manufacturer, 1. -/
def idCode : Nat := 2 * 2 ^ 28 + 0x9612 * 2 ^ 12 + 2 * Config.manufacturer.toNat + 1

/-- The instruction as it acts: EXTEST and those of IEEE 1149.6 act only while PORST_N is low, and as BYPASS at other times. No
row of the opcode table scans the TAP (log entry 25); every reset leaves it as it is. -/
def State.tapActs (s : State) : Tap :=
  match s.tap with
  | .extest => if s.phase = .coldReset then .extest else .bypass
  | .idcode => .idcode
  | .bypass => .bypass

/-- Bits of the data register the TAP puts between TDI and TDO: the IDCODE, or the one bypass bit; none for EXTEST, which
takes the chain. -/
def State.tapCapture (s : State) : Option (List Bool) :=
  match s.tapActs with
  | .idcode => some ((List.range 32).map fun k => bitOf idCode k)
  | .bypass => some [false]
  | .extest => none

/-! ## Pins -/

/-- PORST_N_LOW (R50). -/
def execPorstNLow (s : State) : Host.Outcome State Fault Refusal := .next { s.coldReset with phase := .coldReset }

/-- PORST_N_RISE (R51, R477): straps latched; the fuse load starts, or waits for the rails. A SYSRST_N that is low then
holds the device in a warm reset after the fuse load (R50, R478). -/
def execPorstNRise (straps : Fin 512) (railsOk : Bool) (s : State) : Host.Outcome State Fault Refusal :=
  .next (if s.phase = .coldReset then
    { (s.set .bootStraps 0 straps.val).set .xWarmDue 0 (s.get .xSysrst 0) with
      phase := if railsOk then .fuseLoad else .waitRails }
  else s)

/-- SYSRST_N low (R50, R478): a fuse load after PORST_N completes first. The level is kept whatever the phase. -/
def State.sysrstLow (s : State) : State :=
  let s := s.set .xSysrst 0 1
  match s.phase with
  | .running => { s.warmReset 1 with phase := .warmReset }
  | .fuseLoad => if s.get .bootResetCause 0 = 0 then s.set .xWarmDue 0 1 else { s.warmReset 1 with phase := .warmReset }
  | .waitRails => s.set .xWarmDue 0 1
  | .coldReset => s
  | .warmReset => s

/-- SYSRST_N_LOW (R50). -/
def execSysrstNLow (s : State) : Host.Outcome State Fault Refusal := .next s.sysrstLow

/-- SYSRST_N rises. -/
def State.sysrstRise (s : State) : State :=
  let s := s.set .xSysrst 0 0
  match s.phase with
  | .warmReset => { s with phase := .fuseLoad }
  | .fuseLoad => if s.flag .xWarmDue 0 then (s.set .xWarmDue 0 0).set .bootResetCause 0 1 else s
  | .waitRails => if s.flag .xWarmDue 0 then (s.set .xWarmDue 0 0).set .bootResetCause 0 1 else s
  | .coldReset => s
  | .running => s

/-- SYSRST_N_RISE (R50). -/
def execSysrstNRise (s : State) : Host.Outcome State Fault Refusal := .next s.sysrstRise

/-- 2000.0A written 0x5752. -/
def writeReset (s : State) : State × Answer := (s.set .xResetDue 0 1, accepted)

/-- WARM_RESET_COMMAND (R50): acknowledged, then reset. -/
def execWarmResetCommand (cl : Client) (s : State) : Host.Outcome State Fault Refusal :=
  .next (s.serveWrite cl .deviceReset 0 (.int 0x5752) writeReset).afterReset

/-! ## Fuse load (R52, R476, R477) -/

/-- FUSE_LOAD_START (R477). -/
def execFuseLoadStart (s : State) : Host.Outcome State Fault Refusal :=
  .next (if s.phase = .waitRails then { s with phase := .fuseLoad } else s)

/-- The fuse load ends: BDAP answers, 620 mV goes to every core rail, the flash is asked for its SFDP tables (R52), the cipher cores have passed their known-answer
test but for those named (R287), the PLCA node numbers stand at ADDR + 1 (R360), and the housekeeping converters calibrate
(R438). -/
def State.fuseLoaded (s : State) (failed : List Nat) : State :=
  if s.flag .xWarmDue 0 then { s.warmReset 1 with phase := .warmReset }
  else
    let s := ({ s with phase := .running } : State).each (List.range 5) fun s r => s.emit (.avsWrite r 620)
    let s := s.emit (.flash .sfdp 0)
    let s := s.each [0, 1] fun s k => s.set .mgtPlcaNodeId k (s.get .bootStraps 0 % 64 + 1)
    (s.coresTested failed).each [0, 1] fun s k => (s.set .hkState k 3).set .hkCalState k 2

/-- FUSE_LOAD_END (R52). -/
def execFuseLoadEnd (failed : List (Fin 52)) (s : State) : Host.Outcome State Fault Refusal :=
  .next (if s.phase = .fuseLoad then s.fuseLoaded (failed.map Fin.val) else s)

/-! ## Microcode (R52 to R56) -/

/-- How images are read (R52): none = no valid SFDP signature, some true = the table advertises 1-1-4 fast read. -/
def imageRead (sfdp : Option Bool) : FlashRead :=
  match sfdp with
  | some true => .quad
  | some false => .fast
  | none => .slow

/-- Flash address of an image slot (R52). -/
def slotAddress (slot : Nat) : Nat := slot * 0x400000

/-- The status an image draws, 0 where every check passes (R53, R54); none = the flash does not respond. DESIGN CHOICE
(log entry 29): an image shorter than its header draws 3, one shorter than its header and stated length draws 2, and
bytes past the stated length are not looked at. -/
def imageStatus (img : Option (List Byte)) : Nat :=
  match img with
  | none => 5
  | some b =>
    let at_ := fun (o n : Nat) => leNat ((b.drop o).take n)
    let len := at_ 8 4
    if b.length < 32 ∨ at_ 0 4 ≠ 0x314D435A ∨ at_ 4 2 ≠ 1 then 3
    else if 0x21 < at_ 6 1 ∨ at_ 7 1 < 0x21 then 4
    else if len % 4 ≠ 0 ∨ 0x3FFFE0 < len then 3
    else if b.length < 32 + len ∨ crc32c (b.take 28 ++ (b.drop 32).take len) ≠ at_ 28 4 then 2
    else 0

/-- The version field of an image. -/
def imageVersion (img : Option (List Byte)) : Nat := leNat (((img.getD []).drop 12).take 4)

/-- Microseconds since the end of the fuse load, as 2E00.05 holds them. -/
def State.sinceFuse (s : State) : Int := s.get .xTicks 0 / 250 % 2 ^ 32

/-- An image loaded from a slot: status, slot, version, source 1. -/
def State.imageLoaded (s : State) (status slot version : Nat) : State :=
  (s |>.set .bootStatus 0 (status : Nat) |>.set .bootSlot 0 (slot : Nat) |>.set .bootVersion 0 (version : Nat)
    |>.set .bootLoadTime 0 s.sinceFuse).raise (evDev 1) [u8 slot, u32 version]

/-- An image refused: source 2. -/
def State.imageRefused (s : State) (slot status : Nat) : State := s.raise (evDev 2) [u8 slot, u8 status]

/-- The final status of a load that found no image. -/
def State.bootFailed (s : State) (status : Nat) : State :=
  s |>.set .bootStatus 0 (status : Nat) |>.set .bootSlot 0 0xFF |>.set .bootVersion 0 0 |>.set .bootLoadTime 0 s.sinceFuse

/-- The flash read completes: `sfdp` is what the SFDP tables said, `first` the image of the slot BOOTSEL names, `second`
that of slot 1, tried once under 0b11. -/
def State.imageLoad (s : State) (sfdp : Option Bool) (first second : Option (List Byte)) : State :=
  if s.get .bootStatus 0 ≠ 0 then s
  else
    let sel := field (s.nat .bootStraps 0) 6 2
    let slot := if sel = 3 then 0 else sel
    let a := imageStatus first
    let s := s.emit (.flash (imageRead sfdp) (slotAddress slot))
    if a = 0 then s.imageLoaded 1 slot (imageVersion first)
    else if sel = 3 then
      let b := imageStatus second
      let s := (s.imageRefused slot a).emit (.flash (imageRead sfdp) (slotAddress 1))
      if b = 0 then s.imageLoaded 1 1 (imageVersion second) else (s.bootFailed b).imageRefused 1 b
    else (s.bootFailed a).imageRefused slot a

/-- IMAGE_LOAD_COMPLETE (R54). -/
def execImageLoadComplete (flash : FlashReading) (second : Option (List Byte)) (s : State) :
    Host.Outcome State Fault Refusal :=
  s.live fun s => s.imageLoad flash.sfdp flash.image second

/-- HBM_TRAINING_COMPLETE (R56): it runs from the release of a reset. -/
def execHbmTrainingComplete (s : State) : Host.Outcome State Fault Refusal :=
  .next (if s.phase = .coldReset ∨ s.phase = .warmReset then s else s.set .xHbmTrained 0 1)

/-- Why a write of a boot object is refused while a flash load runs or has succeeded (R55). -/
def State.hostBootBlocked (s : State) : Option Answer :=
  if s.get .bootStatus 0 = 0 then some (refusedWith 0x0A)
  else if s.get .bootStatus 0 = 1 then some (refusedWith 0x08)
  else none

/-- 2E01.01 written (R55). -/
def writeHostImage (b : List Byte) (s : State) : State × Answer :=
  match s.hostBootBlocked with
  | some a => (s, a)
  | none => (s.setBlob .bootHostImage 0 b, accepted)

/-- 2E01.02 written (R55). -/
def writeHostLoad (s : State) : State × Answer :=
  match s.hostBootBlocked with
  | some a => (s, a)
  | none =>
    let img := some (s.blob .bootHostImage 0)
    let st := imageStatus img
    (if st = 0 then s.imageLoaded 6 0xFE (imageVersion img) else (s.bootFailed st).imageRefused 0xFE st, accepted)

/-- HOST_IMAGE_LOAD (R55). -/
def execHostImageLoad (cl : Client) (s : State) : Host.Outcome State Fault Refusal :=
  .next (s.serveWrite cl .bootHostLoad 0 (.int 1) writeHostLoad)

/-! ## The forerunner view (R4, R362) -/

/-- 1F00.01 written: 1F00.02 follows; removing the view drops its transfers, buffers and subscriptions. -/
def writeForerunner (v : Int) (s : State) : State × Answer :=
  let s := (s.set .forerunnerEnable 0 v).set .forerunnerActive 0 v
  (if v = 0 then
    { s with transfers := s.transfers.filter fun x => !x.fore
             staging := s.staging.filter fun x => !x.fore
             subscribers := s.subscribers.filter fun x => !x.fore }
  else s, accepted)

/-- FORERUNNER_ENABLE_WRITE (R4). -/
def execForerunnerEnableWrite (cl : Client) (v : Bool) (s : State) : Host.Outcome State Fault Refusal :=
  .next (s.serveWrite cl .forerunnerEnable 0 (.int (ofFlag v)) (writeForerunner (ofFlag v)))

end Sys2Proof.Machine
end

