-- ==== Sys2Proof/Machine/Power.lean ====
section
/-! DEFINITION. Guard loops, rails, AVSBus, ceilings and power caps, thermal sensors, throttling and shutdown (R23 to R32,
R412 to R437). Domain g is crew g, or the fabric for g = 4; setpoints are in 0.1 mV, sensor values in 1/16 °C. -/

namespace Sys2Proof.Machine

/-! ## Requirement and backlog (R15, R18, R25) -/

/-- The carrier raises its setpoints, or waits for its group with its raise complete (R27, R257). -/
def State.rising (s : State) (c : Nat) : Bool := s.flag .xRaising c || s.flag .xBondExit c

/-- The requirement of carrier c in 1/16 stroke set/s: in force, or as it will be for a carrier leaving Idle; 0 for any
other (R25, R27). -/
def State.demand (s : State) (c : Nat) : Nat :=
  if s.idle c && !s.rising c then 0
  else
    let stored := if s.get .carrierCatchCount c = 0 then s.storedRxRate c else kBd (highest (s.storedList c) 0)
    let b := if s.idle c then max (s.storedTxRate c) stored else max (s.nat .xTxRate c) (s.nat .xRxRate c)
    let p := if s.idle c then s.nat .carrierFecProfile c else s.nat .carrierFecProfileInForce c
    75 * b - 16 * (if p = profSprint then 2000000 else 10240000)

/-- Carriers of a domain. -/
def domainCarriers (g : Nat) : List Nat := if g = 4 then carriers else crewCarriers g

/-- The requirement Q of a domain in 1/16 stroke set/s (R25). -/
def State.requirement (s : State) (g : Nat) : Nat := ((domainCarriers g).map s.demand).foldl max 0

/-- The backlog B of a domain (R25): carriers of a crew, hand-off buffers of the fabric. -/
def State.domainBacklog (s : State) (g : Nat) : Nat :=
  if g = 4 then
    (List.range 4).foldl (fun a k => max a (max (s.nat .xHandRx k - 8) (8 - s.nat .xHandTx k))) 0
  else ((crewCarriers g).map fun c => (s.backlog c).toNat).foldl max 0

/-! ## The law (R26, R27, R418, R419, R45) -/

/-- What the law of one domain works from. -/
structure Law where
  set : Int
  base : Int
  zeroRun : Int
  since : Int
  /-- fast-raise steps, and any 10 mV step, taken in this period -/
  fast : Bool
  raised : Bool
deriving DecidableEq, Repr

/-- One period of the law of R26 with the raise of R27: Q and readings in 1/16 stroke set/s; `waived` drops the wait of 20
periods (R418, R420). Steps are in 0.1 mV; since counts this period. -/
def lawStep (l : Law) (backlog q droop look : Nat) (raising waived : Bool) : Law :=
  let short := decide (droop < q)
  let t : Law :=
    if 0 < backlog then
      if l.set < l.base + 400 then
        { l with set := min (l.set + 100) (l.base + 400), zeroRun := 0, fast := true, raised := true }
      else if raising && short then { l with set := l.set + 100, zeroRun := 0, raised := true }
      else { l with zeroRun := 0 }
    else
      let run := min (l.zeroRun + 1) 20
      let l := { l with zeroRun := run, base := if 20 ≤ run then l.set else l.base }
      if short then { l with set := l.set + (if raising then 100 else 25), raised := raising }
      else if q ≤ look ∧ (20 ≤ l.since ∨ waived) then { l with set := l.set - 25 }
      else l
  { t with set := max 6200 (min 9200 t.set) }

/-- Ceiling and power limits act through the step down only (R418). -/
def State.trafficFirst (s : State) : Bool := s.mode == 3 || s.mode == 4

/-- The highest setpoint a domain may take (R27). -/
def State.topSetpoint (s : State) (g : Nat) : Int := if s.trafficFirst then 9200 else s.get .xLimit g

/-- The power of a domain exceeds its cap. -/
def State.overCap (s : State) (g : Nat) : Bool :=
  s.get .guardPowerCap g != 0 && decide (s.get .guardPowerCap g < s.get .guardPower g)

/-- A conflict of one kind (bit 0 ceiling, 1 power) starts or ends: source 40 (R421). -/
def State.setConflict (s : State) (g kind : Nat) (v : Bool) : State :=
  if s.bit .guardConflict g kind == v then s
  else (s.setBit .guardConflict g kind v).raiseClear (evDev 40) [u16 g, u8 kind] (!v)

/-- Brownout floor of a core rail in mV, as its object shows it (R412). -/
def coreFloor (base : Int) : Int := max 465 ((3 * base + 20) / 40)

/-- A domain's period: requirement, law, limits, conflict, state (R26 to R30, R418 to R421). In Haven under mute the loop
holds 620 mV (R45). State 1 and a count of 2200.08 follow a step that moved the setpoint. DESIGN CHOICE (log entry 26):
2200.02 to .05 show whole k stroke sets/s, rounded down. -/
def State.guardDomain (s : State) (g : Nat) (m : GuardReading) : State :=
  let q := s.requirement g
  let b := s.domainBacklog g
  let was := s.get .guardSetpoint g
  let raising := (domainCarriers g).any fun c => s.flag .xRaising c
  let above := decide (s.get .guardCeiling g < was)
  let l : Law := ⟨was, s.get .xGuardBase g, s.get .xZeroRun g, min (s.get .xSinceChange g + 1) 20, false, false⟩
  let t := lawStep l b q (16 * m.cDroop) (16 * m.cLook) raising (s.trafficFirst && (above || s.overCap g))
  let hold := s.get .deviceModeState 0 == 5 && s.flag .xMute 0
  let new := if hold then 6200 else min t.set (s.topSetpoint g)
  let top := if was = 9200 ∧ 0 < b ∧ !hold then s.get .xTopRun g + 1 else 0
  let st : Int := if new = 9200 then 2 else if 0 < b ∨ (t.raised ∧ was < new) then 1 else 0
  let above := if s.overCap g then min (s.get .xOverRun g + 1) 200 else 0
  let s := s |>.set .guardCRun g (m.cRun / 1000 : Nat) |>.set .guardCDroop g (m.cDroop / 1000 : Nat)
    |>.set .guardCLook g (m.cLook / 1000 : Nat) |>.set .guardRequirement g (q / 16000 : Nat) |>.set .guardBacklog g (b : Nat)
  let s := if q ≤ 16 * m.cDroop ∧ 16 * m.cLook < q then s.set .guardMinSafe g was else s
  let s := s |>.set .guardSetpoint g new |>.set .xGuardBase g (if hold then 6200 else t.base)
    |>.set .xZeroRun g t.zeroRun |>.set .xSinceChange g (if new = was then l.since else 0)
    |>.set .xTopRun g (min top 200) |>.set .guardState g st |>.set .xOverRun g above
    |>.set .railFloor g (coreFloor (if hold then 6200 else t.base))
  let s := if t.fast && decide (was < new) then s.bump .guardFastRaises g else s
  let s := s.setConflict g 0 (!hold && decide (s.get .guardCeiling g < t.set ∧ b = 0 ∧ 16 * m.cLook < q))
  let s := s.setConflict g 1 (decide (200 ≤ above))
  if s.get .guardConflict g = 0 then s else s.bump .guardConflictPeriods g

/-! ## AVSBus (R414, R416) -/

/-- A transaction on rail g ends: counted, and retried when it is not acknowledged. -/
def State.avsResult (s : State) (g : Nat) (ack : Bool) : State :=
  if ack then s.set .xAvsFail g 0
  else
    ((s.bump .railAvsFailures g).set .xAvsFail g (min 3 (s.get .xAvsFail g + 1)) |>.set .xAvsRetry g 1).raise (evDev 42)
      [u16 g]

/-- Setpoint in whole millivolts, rounded up. -/
def millivolts (v : Int) : Nat := ((v + 9) / 10).toNat

/-- The target voltage of a domain whose setpoint changed, or whose last transaction failed, is written. -/
def State.avsTarget (s : State) (g : Nat) (m : GuardReading) : State :=
  let v := s.get .guardSetpoint g
  if v = s.get .xGuardSent g ∧ !s.flag .xAvsRetry g then s
  else
    let s := ((s.emit (.avsWrite g (millivolts v))).set .railNominal g (millivolts v)).set .xAvsRetry g 0
    let s := if m.writeAck then s.set .xGuardSent g v else s
    s.avsResult g m.writeAck

/-- Mean of the power readings of a domain in 0.1 W (R416). -/
def State.meanPower (s : State) (g : Nat) : Int :=
  let b := s.blob .xPowerRing g
  let n := b.length / 4
  if n = 0 then 0
  else ((List.range n).map fun k => leNat ((b.drop (4 * k)).take 4)).sum / (n * 100000)

/-- The current of one rail is read, in rotation; a millisecond holds 40 readings of a rail. -/
def State.avsCurrent (s : State) (g : Nat) (m : GuardReading) : State :=
  let s := s.avsResult g m.readAck
  if !m.readAck then s
  else
    let b := s.blob .xPowerRing g ++ leBytes 4 (m.current * s.nat .railVoltage g : Nat)
    let s := s.setBlob .xPowerRing g (b.drop (b.length - 160))
    s.set .guardPower g (min 65535 (s.meanPower g))

/-! ## The loop period (R26, R27) -/

/-- A raise in progress goes on: in Haven under idle too, where the carrier cannot leave Idle yet (R27, R47). -/
def State.raiseGoesOn (s : State) (c : Nat) : Bool :=
  s.rising c && s.get .deviceModeState 0 == 5 && s.get .deviceModeBusy 0 == 0 && !s.flag .xMute 0
    && s.get .carrierRequest c != 0 && !s.bit .throttleShed 0 c

/-- Raises start for carriers that may leave Idle, and are abandoned where the request falls to 0, the carrier is shed or
the mode is Trim, Dormant or Haven under mute (R27). -/
def State.raisesNow (s : State) : State :=
  s.each carriers fun s c =>
    let may := s.idle c && (s.mayLeaveIdle c || s.raiseGoesOn c)
    (s.setFlag .xRaising c (may && !s.flag .xBondExit c)).setFlag .xBondExit c (may && s.flag .xBondExit c)

/-- The raise of carrier c is complete: crew and fabric meet Q or stand at their highest setpoint (R27). -/
def State.raiseDone (s : State) (c : Nat) (m : Vector GuardReading 5) : Bool :=
  s.flag .xRaising c && [c / 3, 4].all fun g =>
    let r := m.toList.getD g ⟨0, 0, 0, true, true, 0⟩
    decide (s.requirement g ≤ 16 * r.cDroop ∨ s.topSetpoint g ≤ s.get .guardSetpoint g)

/-- A guard loop has lost control of its rail: 1 ms at 920 mV with a backlog, or three transactions unacknowledged (R29). -/
def State.controlLost (s : State) (g : Nat) : Bool := decide (200 ≤ s.get .xTopRun g ∨ 3 ≤ s.get .xAvsFail g)

/-- 2200.07 reads 3 where control is lost, this period's transactions included (R30). -/
def State.guardJudge (s : State) (g : Nat) : State := if s.controlLost g then s.set .guardState g 3 else s

/-- GUARD_CONTROL_LOST (R29): the loop that has lost control of its rail sends the device to Haven. -/
def execGuardControlLost (g : Fin 5) (s : State) : Host.Outcome State Fault Refusal :=
  s.live fun s => if s.controlLost g then (s.set .guardState g 3).haven 16 else s

/-- One period of every guard loop. -/
def State.guardPeriod (s : State) (m : Vector GuardReading 5) (hand : Vector (Fin 129 × Fin 129) 4) : State :=
  let reading := fun g => m.toList.getD g ⟨0, 0, 0, true, true, 0⟩
  let s := s.each hand.toList.zipIdx fun s e => (s.set .xHandRx e.2 e.1.1.val).set .xHandTx e.2 e.1.2.val
  let s := s.raisesNow
  let done := carriers.filter fun c => s.raiseDone c m
  let s := s.each (List.range 5) fun s g => s.guardDomain g (reading g)
  let s := s.each (List.range 5) fun s g => s.avsTarget g (reading g)
  let g := s.nat .xPeriod 0 % 5
  let s := (s.avsCurrent g (reading g)).set .xPeriod 0 ((g + 1) % 5 : Nat)
  (s.each (List.range 5) State.guardJudge).each done State.exitIdle

/-- GUARD_LOOP_PERIOD (R26). -/
def execGuardLoopPeriod (m : Vector GuardReading 5) (hand : Vector (Fin 129 × Fin 129) 4) (s : State) :
    Host.Outcome State Fault Refusal :=
  s.live fun s => s.guardPeriod m hand

/-- The limit of R419 at an aligned millisecond (R420). -/
def State.limitMs (s : State) : State :=
  if s.trafficFirst then s
  else s.each (List.range 4) fun s g =>
    let cap := s.get .guardPowerCap g
    let p := s.get .guardPower g
    let l := s.get .xLimit g
    if cap = 0 then s.set .xLimit g (s.get .guardCeiling g)
    else if cap < p then s.set .xLimit g (max 6200 (l - 25))
    else if 20 * p ≤ 19 * cap then s.set .xLimit g (min (s.get .guardCeiling g) (l + 25))
    else s

/-- 2200.0A or .0B written (R420). -/
def writeGuardLimit (r : Reg) (g : Nat) (v : Int) (s : State) : State × Answer :=
  let s := s.set r g v
  let c := s.get .guardCeiling g
  (s.set .xLimit g (if s.get .guardPowerCap g = 0 then c else min c (s.get .xLimit g)), accepted)

/-! ## Rails (R413) -/

/-- A sample lies below the floor of its rail (R412). -/
def State.belowFloor (s : State) (r : Nat) (v : Nat) : Bool :=
  if r < 5 then decide (v < 465 ∨ (40 * v : Int) < 3 * s.get .xGuardBase r)
  else if r < 10 then decide ((v : Int) < s.get .railFloor r)
  else decide (10 * v < 9 * Config.hbmNominal (r - 10))

/-- A rail sampled (R413). -/
def State.railSample (s : State) (r v : Nat) : State :=
  let s := (s.set .railVoltage r v).trough .railLowest r v
  if !s.belowFloor r v then s.set .railState r 0
  else if s.get .railState r = 0 then
    (((s.set .railState r 1).set .xRailRun r 0).bump .railEpisodes r).raise (evDev 41) [u16 r]
  else s.set .xRailRun r (min 200 (s.get .xRailRun r + 1))

/-- RAIL_SAMPLE (R413): one sample of every rail; a rail below its floor stops a fuse load (R478). -/
def execRailSample (v : Vector (Fin 65536) 13) (s : State) : Host.Outcome State Fault Refusal :=
  .next (match s.phase with
  | .running => s.each v.toList.zipIdx fun s e => s.railSample e.2 e.1.val
  | .fuseLoad => if v.toList.zipIdx.any fun e => s.belowFloor e.2 e.1.val then { s with phase := .waitRails } else s
  | _ => s)

/-- BROWNOUT (R413): an episode has lasted 200 µs, which is 200 samples after its first. -/
def execBrownout (r : Fin 13) (s : State) : Host.Outcome State Fault Refusal :=
  s.live fun s => if s.get .railState r.val = 1 ∧ 200 ≤ s.get .xRailRun r.val then (s.set .railState r.val 2).haven 2 else s

/-! ## Sensors (R424 to R429) -/

/-- A value in 1/16 °C as objects show it, in 0.1 °C. -/
def tenths (v : Int) : Int := (10 * v + 8) / 16

/-- The substitute of a failed sensor (R427). -/
def State.substitute (s : State) (i : Nat) : Int :=
  let l := (sensorNeighbours i).filter s.sensorValid
  l.foldl (fun a j => max a (s.get .xSenReal j + 80)) (s.get .xSenLast i + 48)

/-- A reading differs by more than 12 °C from the mean of the valid neighbours; false where none is valid (R426). -/
def State.disagrees (s : State) (i : Nat) (code : Int) : Bool :=
  match (sensorNeighbours i).filter s.sensorValid with
  | [] => false
  | [j] => decide (192 < (code - s.get .xSenReal j).natAbs)
  | j :: k :: _ => decide (384 < (2 * code - s.get .xSenReal j - s.get .xSenReal k).natAbs)

/-- The failure code a sample completes, with the value at the first sample of its run; none where it passes (R426).
DEDUCED (log entry 45): a run out of range is one sample long, so its last valid value is that sample. -/
def State.sensorFault (s : State) (i : Nat) (code : Int) : Option (Nat × Int) :=
  if code < -720 ∨ 2400 < code then some (1, code)
  else if 64 ≤ s.get .xSenSame i then some (2, code)
  else if 16 ≤ s.get .xSenDis i then some (3, s.get .xSenDisVal i)
  else none

/-- The value of a sensor, or its substitute, takes force: objects, peak, rate, history (R425, R427). -/
def State.sensorValue (s : State) (i : Nat) (v : Int) : State :=
  let tp := s.get .throttlePoint 0
  let s := (s.set .xSenReal i v).set .sensorValue i (tenths v) |>.peak .sensorPeak i (tenths v)
  let s := if 16 * (tp - 5) ≤ v then s.set .sensorRate i 1 else if v < 16 * (tp - 6) then s.set .sensorRate i 0 else s
  let b := s.blob .xSenHist i ++ leBytes 2 v
  s.setBlob .xSenHist i (b.drop (b.length - 32))

/-- The hottest value and its sensor (R425). -/
def State.refreshHottest (s : State) : State :=
  let h := (List.range 40).foldl (fun a i => if s.get .sensorValue a < s.get .sensorValue i then i else a) 0
  (s.set .thermalHottest 0 (s.get .sensorValue h)).set .thermalHottestSensor 0 (h : Nat)

/-- Loop l has left the span of its VCO band, ±60 °C of the reading at its lock (R100). -/
def State.bandLeft (s : State) (l : Nat) (v : Int) : Bool :=
  s.flag .xCalBandOn l && decide (600 < (v - s.get .xCalBand l).natAbs)

/-- A step of at most 0.1 % of the loop bandwidth toward the fused table (R100). -/
def State.biasStep (s : State) (l : Nat) (v : Int) : State :=
  let was := s.get .xVcoBias l
  s.set .xVcoBias l (max (was - 1) (min (was + 1) (Config.vcoBias l v)))

/-- Temperature compensation of converter chiplet c at a sample of its sensor: VCO bias, reference trim, VCO bands (R100).
DESIGN CHOICE (log entry 32): two loops that leave their spans at one sample are one raise of source 25. -/
def State.compensate (s : State) (c : Nat) : State :=
  let v := s.get .sensorValue (12 + c)
  let left := [c, 12 + c].any fun l => s.bandLeft l v && !s.flag .xCalBandLeft l
  let s := s.each [c, 12 + c] fun s l => (s.biasStep l v).setFlag .xCalBandLeft l (s.bandLeft l v)
  let s := s.set .xRefTrim c (Config.referenceTrim c v)
  if left then s.raise (evCarrier c 25) [] else s

/-- The circuits other than those of a converter chiplet that sensor i compensates (Table: Compensation sensors): the hotter
of the two of a SerDes chiplet, the fabric quadrant of the timing clock and of the references. -/
def State.followTemp (s : State) (i : Nat) : State :=
  if 28 ≤ i ∧ i < 36 then
    let j := (i - 28) / 2
    s.set .xCompTemp j (max (s.get .sensorValue (28 + 2 * j)) (s.get .sensorValue (29 + 2 * j)))
  else if i = 36 then (s.set .xCompTemp 4 (s.get .sensorValue 36)).set .xCompTemp 5 (s.get .sensorValue 36)
  else s

/-- Sensor i compensates its circuits, with its substitute when failed (R100, R429). A failed sensor without a valid
neighbour leaves no value, and the last corrections hold (R101; DEDUCED, log entry 32). -/
def State.bandCheck (s : State) (i : Nat) : State :=
  if s.sensorValid i ∨ (sensorNeighbours i).any s.sensorValid then
    if 12 ≤ i ∧ i < 24 then s.when (s.flag .xPowered 0) fun s => s.compensate (i - 12) else s.followTemp i
  else s

/-- Shutdown is judged at a sample (R433, R434). -/
def State.shutdownCheck (s : State) : State :=
  let t := s.get .thermalHottest 0
  let h := s.nat .thermalHottestSensor 0
  if t < 1120 then (if s.flag .xShutdown 0 then s else s.set .xShutDone 0 0)
  else
    let b := s.blob .xSenHist h
    let slope := Config.thermalSlope ((List.range (b.length / 2)).map fun k => leInt ((b.drop (2 * k)).take 2))
    if 1150 ≤ t then
      if s.get .xShutDone 0 = 2 then s
      else
        let s := (s.set .thermalSlope 0 slope).set .xShutdown 0 0 |>.set .xShutDone 0 2 |>.set .thermalLastStop 0 2
        (s.haven 32).raise (evDev 45) [u16 h, u16 t, u16 slope, u8 1]
    else if s.flag .xShutdown 0 || s.get .xShutDone 0 != 0 then s
    else
      let s := s.set .thermalSlope 0 slope
      if slope ≤ 0 ∨ 5 * slope ≤ 10 * (1150 - t) then
        (s.set .xShutdown 0 1).set .xShutSensor 0 (h : Nat) |>.set .xShutTemp 0 t
      else s

/-- A sensor sampled (R425 to R427). -/
def State.sensorSample (s : State) (i : Nat) (code : Int) : State :=
  let same := if s.get .xSenSame i ≠ 0 ∧ s.get .xSenSameVal i = code then s.get .xSenSame i + 1 else 1
  let off := s.disagrees i code
  let s := s |>.set .sensorRaw i (tenths code) |>.set .xSenSame i (min same 64) |>.set .xSenSameVal i code
  let s := if off && s.get .xSenDis i == 0 then s.set .xSenDisVal i code else s
  let s := s.set .xSenDis i (if off then min 16 (s.get .xSenDis i + 1) else 0)
  let s :=
    if !s.sensorValid i then
      (s.when (s.sensorFault i code).isSome fun s => s.markTick .xSenPassAt i).sensorValue i (s.substitute i)
    else
      match s.sensorFault i code with
      | none => s.sensorValue i code
      | some f =>
        let s := s |>.set .sensorState i (f.1 : Nat) |>.set .xSenLast i f.2 |>.setBit .thermalFailed 0 i true
        (s.sensorValue i (s.substitute i)).raiseClear (evDev 44) [u16 i, u8 f.1] false
  let s := (s.refreshHottest).bandCheck i
  let s := if s.sensingLost && !(s.get .deviceModeState 0 == 5 && s.bit .deviceHavenCauses 0 2) then s.haven 4 else s
  s.shutdownCheck

/-- SENSOR_SAMPLE (R425); code in 1/16 °C. -/
def execSensorSample (i : Fin 40) (code : Int) (s : State) : Host.Outcome State Fault Refusal :=
  s.live fun s => s.sensorSample i code

/-- 2380.05 written 0x01 (R428). -/
def writeReadmit (i : Nat) (s : State) : State × Answer :=
  if s.get .sensorState i = 0 ∨ s.get .sensorState i = 4 then (s, refusedWith 0x08)
  else (((s.set .sensorState i 4).set .xSenSame i 0 |>.set .xSenDis i 0).markTick .xSenPassAt i, accepted)

/-- SENSOR_READMIT (R428). -/
def execSensorReadmit (cl : Client) (i : Fin 40) (s : State) : Host.Outcome State Fault Refusal :=
  .next (s.serveWrite cl .sensorReadmit i (.int 1) (writeReadmit i))

/-- SENSOR_READMIT_COMPLETE (R428): every test passed for 1 s. -/
def execSensorReadmitComplete (i : Fin 40) (s : State) : Host.Outcome State Fault Refusal :=
  s.live fun s =>
    if s.get .sensorState i.val = 4 ∧ s.usSince .xSenPassAt i.val 1000000 then
      let s := ((s.set .sensorState i.val 0).setBit .thermalFailed 0 i.val false).sensorValue i.val (s.get .xSenSameVal i.val)
      s.refreshHottest.raiseClear (evDev 44) [u16 i.val, u8 0] true
    else s

/-- ORDERLY_SHUTDOWN_COMPLETE (R433). -/
def execOrderlyShutdownComplete (s : State) : Host.Outcome State Fault Refusal :=
  s.live fun s => if s.flag .xShutdown 0 then s.haven 32 else s

/-! ## Throttling (R430 to R432) -/

/-- The carrier to shed: lowest rank, then highest number; none where none may be shed (R432). -/
def State.shedChoice (s : State) : Option Nat :=
  (carriers.filter fun c => !s.idle c && s.get .throttleShedRank c != 255).foldl (fun a c =>
    match a with
    | none => some c
    | some d => if s.get .throttleShedRank c ≤ s.get .throttleShedRank d then some c else some d) none

/-- One carrier is shed (R432). -/
def State.shedOne (s : State) : State :=
  match s.shedChoice with
  | none => s
  | some c =>
    let s := (s.setBit .throttleShed 0 c true).setBlob .xShedOrder 0 (s.blob .xShedOrder 0 ++ [BitVec.ofNat 8 c])
    ((s.toIdle c 6).calSettle.set .xThrTime 0 0).raiseClear (evCarrier c 17) [] false

/-- A shed carrier is restored (R432). -/
def State.unshed (s : State) (c : Nat) : State :=
  if s.bit .throttleShed 0 c then
    let s := s.setBlob .xShedOrder 0 ((s.blob .xShedOrder 0).filter fun b => b.toNat != c)
    (s.setBit .throttleShed 0 c false).raiseClear (evCarrier c 17) [] true
  else s

/-- The stage changes: its cap and its parking, 3050.09 included, follow, source 43 is raised (R164, R430, R431). -/
def State.setStage (s : State) (n : Nat) : State :=
  let s := if s.get .throttleStage 0 = 0 then s.bump .throttleEntries 0 else s
  let s := (s.set .throttleStage 0 (n : Nat)).set .xThrTime 0 0 |>.setFlag .xCapThrottle 0 (n != 0)
  (s.each carriers fun s c => (s.refreshCap c).refreshNc c).raise (evDev 43) [u8 n]

/-- Escalation at one evaluation; stages whose conditions hold follow one another (R430). -/
def State.escalate (t tp interval : Int) : Nat → State → State
  | 0, s => s
  | n + 1, s =>
    let st := s.nat .throttleStage 0
    let long := decide (interval ≤ s.get .xThrTime 0)
    if st = 0 ∧ tp ≤ t then State.escalate t tp interval n (s.setStage 1)
    else if st = 1 ∧ (long ∨ tp + 30 ≤ t) then State.escalate t tp interval n (s.setStage 2)
    else if st = 2 ∧ (long ∨ tp + 60 ≤ t) then (s.setStage 3).shedOne
    else if st = 3 ∧ long then s.shedOne
    else s

/-- One release step (R431). -/
def State.releaseStep (s : State) : State :=
  let st := s.nat .throttleStage 0
  match (s.blob .xShedOrder 0).getLast? with
  | some b => if st = 3 ∧ s.flag .throttleAutoRestore 0 then s.unshed b.toNat else s.setStage (st - 1)
  | none => s.setStage (st - 1)

/-- The throttle evaluated at an aligned millisecond (R430, R431). -/
def State.throttleMs (s : State) : State :=
  let t := s.get .thermalHottest 0
  let tp := 10 * s.get .throttlePoint 0
  let s := if s.flag .xCapThrottle 0 then s.each carriers State.refreshCap else s
  if tp ≤ t then
    let s := (s.set .xThrRel 0 0).set .xThrTime 0 (min 65535 (s.get .xThrTime 0 + 1))
    s.escalate t tp (s.get .throttleEscalate 0) 3
  else if s.get .throttleStage 0 ≠ 0 ∧ t < tp - 10 * s.get .throttleHysteresis 0 then
    let n := s.get .xThrRel 0 + 1
    if s.get .throttleRelease 0 < n then (s.releaseStep).set .xThrRel 0 1 else s.set .xThrRel 0 n
  else s.set .xThrRel 0 0

/-- 2500.08 written: each bit set restores its carrier (R432). -/
def writeShed (v : Int) (s : State) : State × Answer :=
  (s.each (carriers.filter fun c => bitOf v.toNat c) State.unshed, accepted)

/-- SHED_RESTORE (R432). -/
def execShedRestore (cl : Client) (mask : Fin 65536) (s : State) : Host.Outcome State Fault Refusal :=
  .next (s.serveWrite cl .throttleShed 0 (.int mask.val) (writeShed mask.val))

end Sys2Proof.Machine
end

