-- ==== Sys2Proof/Machine/Integrity.lean ====
section
/-! DEFINITION. ECC, scrubbing, the repeat tracker, remapping and repair (R325 to R335). Domains 6 to 9 are HBM stacks 0 to
3; times are ns since the end of the fuse load. -/

namespace Sys2Proof.Machine

/-- Nanoseconds since the end of the fuse load. -/
def State.uptime (s : State) : Nat := 4 * s.nat .xTicks 0

/-- Domain m is an HBM stack. -/
def isHbm (m : Nat) : Bool := decide (6 ≤ m ∧ m ≤ 9)

/-- The row of domain m that holds a line: 2 KiB in HBM, a row of its macro elsewhere (R331). -/
def rowOfLine (m line : Nat) : Nat := if isHbm m then line / 2048 else Config.memRow m line

/-- The unit of Reg.xMacroUsed of the macro of a row. -/
def macroUnit (m row : Nat) : Nat := 16 * Config.memMacro m row + m

/-- A row of domain m can be moved: a row of the reserve region is free, or a spare row of its macro, which has two (R325, R331). -/
def State.spareFor (s : State) (m row : Nat) : Bool :=
  decide (0 < s.get .memSparesLeft m) && (isHbm m || decide (s.get .xMacroUsed (macroUnit m row) < 2))

/-- A line is marked weak (R330, R331): counted, listed and reported; without a spare row it stays in service and source
98 is raised. -/
def State.markWeak (s : State) (m line : Nat) : State :=
  let s := (s.bump .memWeak m).setBlob .weakList 0 (s.blob .weakList 0 ++ leBytes 1 (m : Nat) ++ leBytes 8 (line : Nat))
  let s := s.raise (evDev 97) []
  let row := rowOfLine m line
  if s.redirects.contains (m, row) || s.spareFor m row then s else s.raise (evDev 98) []

/-- An entry of the tracker still counts: its first correction lies within the lap time, unbounded before the first lap
(R330). -/
def State.inLap (s : State) (x : Track) : Bool :=
  s.get .xLapDone x.domain == 0 || decide (s.uptime ≤ x.first + s.nat .xLapDone x.domain)

/-- The tracker's entries replaced. -/
def State.setTracker (s : State) (l : List Track) : State :=
  ({ s with tracker := l } : State).set .trackerUsed 0 (l.length : Nat)

/-- The entry a full tracker gives up: the one with the oldest first. -/
def oldestTrack : List Track → Option Track
  | [] => none
  | x :: t => some (t.foldl (fun a b => if b.first < a.first then b else a) x)

/-- The count of a line after one correction more, in a tracker that holds it (R330). -/
def State.trackTaken (s : State) (m line : Nat) : State × Nat :=
  let same := fun (x : Track) => x.domain == m && x.line == line
  match s.tracker.find? same with
  | some x =>
    let y : Track := if s.inLap x then { x with count := x.count + 1 } else { x with count := 1, first := s.uptime }
    (s.setTracker (s.tracker.map fun z => if same z then y else z), y.count)
  | none =>
    let s :=
      if s.tracker.length < 64 then s
      else
        match oldestTrack s.tracker with
        | some o =>
          let s := if s.inLap o then s.bump .trackerEvictions 0 else s
          s.setTracker (s.tracker.erase o)
        | none => s
    (s.setTracker (s.tracker ++ [⟨m, line, 1, s.uptime⟩]), 1)

/-- A correctable error (R326, R330): counted and offered to the tracker; the third within a lap marks the line weak and
frees its entry. -/
def State.correction (s : State) (m line : Nat) : State :=
  let r := (s.bump .memCorrected m).trackTaken m line
  if r.2 = 3 then
    (r.1.setTracker (r.1.tracker.filter fun x => !(x.domain == m && x.line == line))).markWeak m line
  else r.1

/-- The record that replaces a damaged event entry names the address (R327). -/
def damaged (r : EventRec) (line : Nat) : EventRec := { r with e := 0xFFFF, detail := layout [u64 line] }

/-- The memory domain that holds such a word (Table: Memory domains): 1 for the fabric, 2 to 5 for the crews, 6 to 9 for the HBM
stacks, over which the pool and the boathouse are interleaved (R14), 10 to 13 for the converter chiplets, 14 and 15. -/
def heldIn (h : HeldWord) (m : Nat) : Bool :=
  match h with
  | .moverData | .flowData _ _ | .tribData _ _ | .boatData _ _ => isHbm m
  | .txClearData _ _ | .txLineData _ _ | .rxLineData _ _ | .rxClearData _ _ | .flowQueue _ | .tribQueue _ | .keySlot _
  | .tableCopy _ => m == 1
  | .bankCopy b _ => m == 2 + b.val % 12 / 3
  | .slackSet c _ | .llr c _ _ _ => m == 2 + c.val / 3
  | .calRecord u _ => m == 10 + u.val % 48 / 12
  | .laneTaps _ => m == 14
  | .ringEntry _ | .historyEntry _ => m == 15

/-- Client data lost in a queue, the boathouse or a buffer: its tile is marked failed (R327). -/
def State.clientLost (s : State) (h : HeldWord) : State :=
  match h with
  | .flowData f k =>
    if s.nat .flowFill f = 0 ∨ (s.flowMarks f).contains k then s else s.setBlob .xFlowMarks f (numberBytes (s.flowMarks f ++ [k]))
  | .tribData t k => s.markTrib t k
  | .txClearData t k => if (s.blob .xClear t).isEmpty then s else s.setBlob .xClearMarks t (s.blob .xClearMarks t ++ numberBytes [k])
  | .txLineData t k => s.markTx t k
  | .rxLineData t k =>
    let x := s.rxTrib t
    s.setRxTrib t { x with shares := x.shares.modifyHead fun h =>
      { h with words := h.words.map fun e => if e.1 / 64 = k then (e.1, e.2.1, true) else e } }
  | .rxClearData t k =>
    let x := s.rxTrib t
    s.setRxTrib t { x with bytes := x.bytes.zipIdx.map fun e => if e.2 / 512 = k then (e.1.1, true) else e.1 }
  | .boatData c w =>
    let r := s.rx c
    s.setRx c { r with boats := r.boats.modifyHead fun b =>
      { b with words := b.words.map fun e => if e.1 = w then (e.1, e.2.1, true) else e } }
  | _ => s

/-- The outcome of an uncorrectable word by what it held (Table: Uncorrectable outcomes). -/
def State.heldOutcome (s : State) (h : HeldWord) (line : Nat) : State :=
  match h with
  | .flowData _ _ | .tribData _ _ | .txClearData _ _ | .txLineData _ _ | .rxLineData _ _ | .rxClearData _ _ | .boatData _ _ =>
    s.clientLost h
  | .moverData => s
  | .tableCopy w => s.set .xTableLost (tableUnit w) 1
  | .llr c slot first count =>
    let r := s.rx c
    s.setRx c { r with slots := r.slots.modify slot fun x =>
      { x with llr := x.llr.zipIdx.map fun e => if first ≤ e.2 ∧ e.2 < first + count then some 0 else e.1 } }
  | .flowQueue f => s.flushFlow f
  | .tribQueue t => s.dropTribQueue t
  | .keySlot n => s.eraseSlot n
  | .bankCopy b k => s.setBlob .xBankHole b (s.blob .xBankHole b ++ numberBytes [k])
  | .slackSet c k =>
    s.setSlack c ((s.slack c).zipIdx.map fun e => match e.1 with
      | .set er codes => SlackItem.set (er || e.2 == k) codes
      | .gap n => .gap n)
  | .calRecord u k => s.set .xCalLost (68 * u.val + k.val) 1
  | .laneTaps n => if s.laneOn n then (s.set .laneLock n 0 |>.set .xLaneRelock n 0 |>.set .xLaneLow n 0
      |>.laneStep n 2 2).octetChanged (n / 8) else s
  | .ringEntry k => { s with ring := s.ring.modify k fun r => damaged r line }
  | .historyEntry k => { s with history := s.history.modify k fun r => damaged r line }

/-- An uncorrectable error (R327): counted, its line marked weak at once; domain 0 sends the device to Haven. A word that the domain
does not hold loses nothing. -/
def State.uncorrectable (s : State) (m line : Nat) (h : HeldWord) : State :=
  let s := ((s.bump .memUncorrectable m).set .xMemUncorrected 0 1).markWeak m line
  if m = 0 then s.haven 8
  else (if heldIn h m then s.heldOutcome h line else s).raise (evDev 99) [u16 m, u64 line]

/-- A lap ends (R329). -/
def State.lapEnd (s : State) (m : Nat) : State :=
  let d := s.uptime + 1 - s.nat .xLapMark m
  let ms := d / 1000000
  let s := (s.bump .memLaps m).set .memLapTime m (min ms (2 ^ 32 - 1) : Nat) |>.set .xLapDone m (max 1 d : Nat)
    |>.set .xLapMark m (s.uptime + 1 : Nat)
  if s.get .memLapLimit m ≠ 0 ∧ s.nat .memLapLimit m * 1000000 < d then s.raise (evDev 100) [] else s

/-- What the code makes of a word with n of its 72 bits flipped (R325): 0 sound, 1 corrected, 2 detected and not correctable. More
than two lie beyond what the code promises: any of them, a free value (log entry 45). -/
def State.wordOutcome (s : State) (n : Nat) : Nat × State :=
  if n ≤ 2 then (n, s)
  else
    let r := s.takeFree
    (r.1 % 3, r.2)

/-- The words of a line are read: each that is lost has its outcome, and those that are corrected count once for the line (R326,
R327). -/
def State.lineRead (s : State) (m line : Nat) (l : List (Nat × HeldWord)) : State :=
  let a := (l.take 8).foldl (fun (a : State × Bool) e =>
    let r := a.1.wordOutcome e.1
    if r.1 = 2 then (r.2.uncorrectable m line e.2, a.2) else (r.2, a.2 || r.1 == 1)) (s, false)
  if a.2 then a.1.correction m line else a.1

/-- A scrub read in an idle cycle (R328, R329): the next line in ascending order, of which an invalid one is passed over; the last
line of the domain ends the lap. -/
def State.scrubRead (s : State) (m line : Nat) (r : LineReading) (idle : Bool) : State :=
  if !s.flag .scrubEnable 0 ∨ !idle ∨ line ≠ s.nat .xScrubAt m then s
  else
    let last := decide (Config.memLines m ≤ line / 64 + 1)
    let s := if s.get .xLapMark m = 0 then s.set .xLapMark m (s.uptime + 1 : Nat) else s
    let s := s.set .xScrubAt m (if last then 0 else line + 64 : Nat)
    let s := match r with
      | .invalid => s
      | .valid l => s.lineRead m line l
    if last then s.lapEnd m else s

/-- SCRUB_READ (R329). -/
def execScrubRead (m : Fin 16) (line : Nat) (r : LineReading) (idle : Bool) (s : State) :
    Host.Outcome State Fault Refusal :=
  s.live fun s => s.scrubRead m line r idle

/-- ECC_WRITE_BACK (R326). The model's memories hold corrected words, so the write-back leaves them as they are, and so does a queued
write that covers the whole word and replaces it; a correction found by a reader other than the scrubber is counted here. -/
def execEccWriteBack (m : Fin 16) (line : Nat) (reader _covered : Bool) (s : State) : Host.Outcome State Fault Refusal :=
  s.live fun s => if reader then s.correction m line else s

/-- A line of the row has been marked weak. -/
def State.rowWeak (s : State) (m row : Nat) : Bool :=
  let b := s.blob .weakList 0
  (List.range (b.length / 9)).any fun k =>
    let e := (b.drop (9 * k)).take 9
    (e.getD 0 0).toNat == m && rowOfLine m (leNat (e.drop 1)) == row

/-- A row with a weak line has been copied to a spare row of its macro or a row of the reserve region and is served from there; an HBM
row is queued for repair (R331). -/
def State.rowCopied (s : State) (m row : Nat) : State :=
  if !s.spareFor m row ∨ s.redirects.contains (m, row) ∨ !s.rowWeak m row then s
  else
    let s := (s.set .memSparesLeft m (s.get .memSparesLeft m - 1)).bump .memRemaps m
    let s := ({ s with redirects := s.redirects ++ [(m, row)] } : State)
    if isHbm m then
      ({ s with repairs := s.repairs ++ [(m - 6, row)] } : State).set .repairPending 0 (s.repairs.length + 1 : Nat)
    else s.bump .xMacroUsed (macroUnit m row)

/-- SPARE_ROW_COPY_COMPLETE (R331). -/
def execSpareRowCopyComplete (m : Fin 16) (row : Nat) (s : State) : Host.Outcome State Fault Refusal :=
  s.live fun s => s.rowCopied m row

/-- The repair running on stack k ends (R332): the redirect goes, or stays when the repair failed. -/
def State.repairDone (s : State) (k : Nat) (ok : Bool) : State :=
  match s.repairRunning k with
  | none => s
  | some x =>
    let l := s.repairs.erase x
    let s := (({ s with repairs := l } : State).set .repairPending 0 (l.length : Nat)).set .xRepairRun k 0
    if ok then
      (({ s with redirects := s.redirects.filter fun y => y != (k + 6, x.2) } : State).bump .repairDone 0).set .memSparesLeft
        (k + 6) (s.get .memSparesLeft (k + 6) + 1)
    else (s.bump .repairFailed 0).raise (evDev 101) []

/-- HBM_REPAIR_COMPLETE (R332). -/
def execHbmRepairComplete (k : Fin 4) (ok : Bool) (s : State) : Host.Outcome State Fault Refusal :=
  s.live fun s => s.repairDone k ok

end Sys2Proof.Machine
end

