-- ==== Sys2Proof/Machine/Tables.lean ====
section
/-! DEFINITION. Whole tables as DOMAIN objects return them (R220, R242, R251 to R253, R282, R355), and the digests of a pair
over them (R457). -/

namespace Sys2Proof.Machine

/-- n units of a register from unit b on, each as w little-endian bytes. -/
def State.unitBytes (s : State) (r : Reg) (b n w : Nat) : List Byte :=
  (List.range n).flatMap fun k => leBytes w (s.get r (b + k))

/-- A whole table read through DOMAIN object r of unit i; none where r is no such table. -/
def State.tableOf (s : State) (r : Reg) (i : Nat) : Option (List Byte) :=
  match r with
  | .tsiStandbyPage => some (s.unitBytes .tsiStandbyRow (3840 * i) 3840 4)
  | .tsiActivePage => some (s.unitBytes .tsiActiveRow (3840 * i) 3840 4)
  | .calStandbyPage => some (s.unitBytes .calStandbyEntry 0 65536 4)
  | .calActivePage => some (s.unitBytes .calActiveEntry 0 65536 4)
  | .spanStandbyAll => some (s.unitBytes .spanStandby 0 3840 4)
  | .spanActiveAll => some (s.unitBytes .spanActive 0 3840 4)
  | .flowTable => some (s.unitBytes .flowEntry 0 32768 8)
  | .clsTable => some s.clsTableBytes
  | .bindTable => some (s.unitBytes .bindEntry (3840 * i) 3840 4)
  | .tribEgressTable => some (s.unitBytes .tribEgressRow 0 3840 2)
  | .registrationTable => some (s.unitBytes .registrationRow 0 16 8)
  | _ => none

/-- The value of a scalar object as bytes of its type. -/
def State.objBytes (s : State) (r : Reg) (i : Nat) : List Byte := leBytes (r.bits / 8 + r.bits % 8) (s.get r i)

/-- The bytes of digest set n (Table: Digest sets), in ascending index and subindex and in row order. -/
def State.digestSet (s : State) (n : Nat) : List Byte :=
  match n with
  | 0 => carriers.flatMap fun c =>
      ([.carrierRequest, .carrierNcEnable, .carrierNcLower, .carrierNcUpper, .carrierNcSpacing, .carrierFecProfile,
        .carrierFecModulation, .carrierFecEntropy, .carrierFecPayload, .carrierFecTxRate, .carrierFecRxRate,
        .carrierFecIterationCap] : List Reg).flatMap fun r => s.objBytes r c
  | 1 => (s.tableOf .tsiActivePage 0).getD [] ++ (s.tableOf .tsiActivePage 1).getD []
  | 2 => (s.tableOf .calActivePage 0).getD [] ++ (s.tableOf .spanActiveAll 0).getD []
  | 3 => (s.tableOf .flowTable 0).getD []
  | 4 => s.clsTableBytes
  | 5 => s.unitBytes .bindInForce 0 7680 4
  | 6 => (s.tableOf .tribEgressTable 0).getD []
  | _ => (List.range 48).flatMap fun p =>
      ([.portRate, .portEnable, .portMaxFrame, .portClsMode, .portClsDefaultFlow, .portClsTpidSet] : List Reg).flatMap fun r =>
        s.objBytes r p

/-- A digest of R457. -/
def State.digest (s : State) (n : Nat) : Nat := crc32c (s.digestSet n)

end Sys2Proof.Machine
end

