-- ==== Sys2Proof/Machine/Pair.lean ====
section
/-! DEFINITION. The tie link's messages and the switchovers of a pair (R453 to R467). -/

namespace Sys2Proof.Machine

/-! ## The link (R454, R462, R464) -/

/-- The tie link goes down (R454, R462): a standby under hold stands alone, and is not ready. -/
def State.tieDown (s : State) : State :=
  if !s.tieUp then s
  else
    let s := ((s.set .tieState 0 1).bump .tieDowns 0).markTick .xTieDownAt 0
    let s := s.raiseClear (evDev 145) [] false
    let s := if s.pairStandby && s.get .pairTieLossPolicy 0 == 0 then s.set .pairState 0 3 else s
    s.judgeReady

/-- TIE_LINK_DOWN (R454): 10 µs without a valid message. -/
def execTieLinkDown (s : State) : Host.Outcome State Fault Refusal :=
  s.live fun s => s.when (s.usSince .xTieMsgAt 0 10) State.tieDown

/-- A valid message is taken, `bad` copies having been discarded on CRC: the link is up (R454). -/
def State.tieTake (s : State) (bad : Nat) (f : State → State) : State :=
  if s.get .tieState 0 = 0 ∨ s.get .tieLanesLocked 0 = 0 then s
  else
    let s := ((s.bump .tieReceived 0).bump .tieCrcErrors 0 bad).markTick .xTieMsgAt 0
    let s := if s.tieUp then s else (s.set .tieState 0 2).raiseClear (evDev 145) [] true
    (f s).judgeReady

/-- The standby of the pair is ready, as this module knows it. -/
def State.standbyReady (s : State) : Bool :=
  (s.pairStandby && s.flag .pairReady 0) || (s.pairActive && s.flag .xPartnerReady 0)

/-- The health of the standby exceeds that of the active by the margin (R461, cause 4). -/
def State.healthFavours (s : State) : Bool :=
  let own := (s.health : Int)
  let other := s.get .pairPartnerHealth 0
  let d := if s.pairStandby then own - other else other - own
  s.get .pairHealthMargin 0 != 0 && s.standbyReady && decide (s.get .pairHealthMargin 0 ≤ d)

/-- The condition of cause 4 is judged anew; the hold-off counts from the moment it came to hold (R461, R467). DEDUCED (log
entry 45): it is judged at each heartbeat sent or taken. -/
def State.judgeHealth (s : State) : State :=
  if !s.healthFavours then s.set .xHealthAt 0 0
  else if s.get .xHealthAt 0 = 0 then s.set .xHealthAt 0 (s.get .xTicks 0 + 1)
  else s

/-- The heartbeat due is sent, on the lanes locked by now (R454, R455). -/
def State.heartbeat (s : State) (lanes : Nat) : State :=
  if s.get .tieState 0 = 0 then s
  else
    let s := s.set .tieLanesLocked 0 lanes
    let s := (if lanes = 0 then s.tieDown else s.judgeReady).judgeHealth
    s.tieSend (.tieHeartbeat (s.nat .deviceModeState 0) (s.nat .pairRole 0) (s.nat .pairState 0) s.health
      (s.nat .pairReady 0))

/-- TIE_HEARTBEAT (R454). -/
def execTieHeartbeat (lanes : Fin 16) (s : State) : Host.Outcome State Fault Refusal := s.live fun s => s.heartbeat lanes

/-- What a heartbeat of the partner tells (R455, R464): a partner that has left Pair is absent, one that names the other
role within Pair is paired. -/
def State.heartbeatTaken (s : State) (m : HeartbeatReading) : State :=
  let s := s |>.set .pairPartnerAddr 0 m.addr.val |>.set .pairPartnerMode 0 m.mode.val
    |>.set .pairPartnerHealth 0 m.health.val |>.set .xPartnerRole 0 m.role.val |>.set .xPartnerState 0 m.state.val
    |>.set .xPartnerStrap 0 (ofFlag m.strap) |>.set .xPartnerReady 0 (ofFlag m.ready)
    |>.set .xPartnerCarrying 0 m.carrying.val
  let s := s.each m.kcv.toList.zipIdx fun s e => s.set .xPartnerKcv e.2 (match e.1 with
    | some k => (k.toNat : Int) + 1
    | none => 0)
  if !s.inPair then s
  else if m.mode.val ≠ 4 then s.set .pairState 0 3
  else if (m.role.val : Int) = 3 - s.get .pairRole 0 then s.set .pairState 0 2
  else s

/-- TIE_HEARTBEAT_RX (R454). -/
def execTieHeartbeatRx (m : HeartbeatReading) (bad : Fin 4) (s : State) : Host.Outcome State Fault Refusal :=
  s.live fun s => (s.tieTake bad fun s => s.heartbeatTaken m).judgeHealth

/-! ## Digests (R457) -/

/-- C000.0E follows the two sets of digests; a change raises source 146. -/
def State.digestMatch (s : State) : State :=
  let m : Nat := (List.range 8).foldl
    (fun a n => if s.get .pairDigestLocal n = s.get .pairDigestPartner n then a + 2 ^ n else a) 0
  if s.get .pairDigestMatch 0 = m then s else (s.set .pairDigestMatch 0 (m : Nat)).raise (evDev 146) []

/-- The digests are recomputed and sent. -/
def State.digestsNow (s : State) : State :=
  let d := (List.range 8).map s.digest
  let s := s.each d.zipIdx fun s e => s.set .pairDigestLocal e.2 (e.1 : Nat)
  (s.tieSend (.tieDigest d)).digestMatch.judgeReady

/-- DIGEST_RECOMPUTE (R457). -/
def execDigestRecompute (s : State) : Host.Outcome State Fault Refusal := s.live State.digestsNow

/-- TIE_DIGEST_RX (R457). -/
def execTieDigestRx (d : Vector (BitVec 32) 8) (bad : Fin 4) (s : State) : Host.Outcome State Fault Refusal :=
  s.live fun s => s.tieTake bad fun s =>
    (s.each d.toList.zipIdx fun s e => s.set .pairDigestPartner e.2 (e.1.toNat : Nat)).digestMatch

/-! ## Keys and leases (R458, R459, R274) -/

/-- A key record applied on the standby (R458). -/
def State.keyRecord (s : State) (n : Nat) (d : Option (List Byte)) : State :=
  if !s.pairStandby then s
  else
    match d with
    | none => s.eraseSlot n
    | some d =>
      let code := s.loadCode n d true
      if code = 0 then s.loadKey n d else (s.set .xSlotUnsync n 1).raise (evDev 149) [u16 n, u8 code]

/-- TIE_KEY_RECORD_RX (R458). -/
def execTieKeyRecordRx (n : Fin 8192) (d : Option (List Byte)) (bad : Fin 4) (s : State) :
    Host.Outcome State Fault Refusal :=
  s.live fun s => s.tieTake bad fun s => s.keyRecord n d

/-- A lease reaches the standby: the first is taken and acknowledged at once, a later one waits for the next block
boundary of its generation (R459). -/
def State.leaseArrives (s : State) (n g l : Nat) : State :=
  let i := 2 * n + g
  if !s.pairStandby || s.regState n g == 0 then s
  else
    let s := if s.get .xLease i = 0 then (s.set .xLease i (l : Nat)).set .xSlotCount i (l : Nat)
      else s.set .xLeaseNew i (l : Nat)
    (s.set .xLeaseAck i (l : Nat)).tieSend (.tieLeaseAck n g l)

/-- TIE_LEASE_RX (R459). -/
def execTieLeaseRx (n : Fin 8192) (g : Fin 2) (l : BitVec 64) (bad : Fin 4) (s : State) :
    Host.Outcome State Fault Refusal :=
  s.live fun s => s.tieTake bad fun s => s.leaseArrives n g l.toNat

/-- The active's lease of a generation is acknowledged (R274). -/
def State.leaseAcked (s : State) (i l : Nat) : State :=
  if s.pairActive && s.get .xLease i == l then (s.set .xLeaseAck i (l : Nat)).leaseDue i else s

/-- TIE_LEASE_ACK_RX (R274). -/
def execTieLeaseAckRx (n : Fin 8192) (g : Fin 2) (l : BitVec 64) (bad : Fin 4) (s : State) :
    Host.Outcome State Fault Refusal :=
  s.live fun s => s.tieTake bad fun s => s.leaseAcked (2 * n.val + g.val) l.toNat

/-! ## Delivery and alignment (R455, R460) -/

/-- TIE_DELIVERY_RX (R455). -/
def execTieDeliveryRx (c : Fin 12) (bsq : Fin 16777216) (bad : Fin 4) (s : State) : Host.Outcome State Fault Refusal :=
  s.live fun s => s.tieTake bad fun s => if s.pairStandby then s.set .xDelivery c (bsq.val + 1 : Nat) else s

/-- The standby's transmit multiframes take the BSQ of the active's (R460): carriers at the rate of carrier 0. -/
def State.alignTx (s : State) (bsq : Nat) : State :=
  if !s.pairStandby then s
  else
    s.each (carriers.filter fun c => !s.idle c && s.get .xTxRate c == s.get .xTxRate 0) fun s c =>
      s.set .xTxBsq c (bsq : Nat)

/-- TIE_TX_ALIGNMENT_RX (R460). The boundary time serves the alignment within 100 ns, which is timing. -/
def execTieTxAlignmentRx (bsq : Fin 16777216) (_time : Nat) (bad : Fin 4) (s : State) :
    Host.Outcome State Fault Refusal :=
  s.live fun s => s.tieTake bad fun s => s.alignTx bsq

/-! ## Switchover (R461 to R464, R467) -/

/-- A release of the active role reaches the standby: it takes the role when ready, and stands alone otherwise (R464). -/
def State.released (s : State) : State :=
  if !s.pairStandby then s else if s.flag .pairReady 0 then s.becomeActive 3 else s.set .pairState 0 3

/-- TIE_RELEASE_RX (R464). -/
def execTieReleaseRx (_cause : Fin 6) (bad : Fin 4) (s : State) : Host.Outcome State Fault Refusal :=
  s.live fun s => s.tieTake bad State.released

/-- A switch request of the partner: the roles change, unless this module changed its own within the same heartbeat
(R463, R467). -/
def State.switchRequested (s : State) (cause : Nat) : State :=
  if s.get .xSwitchTick 0 ≠ 0 ∧ s.get .xTicks 0 < s.get .xSwitchTick 0 - 1 + 250 then s
  else if s.pairActive then s.becomeStandby
  else if s.pairStandby then s.becomeActive cause
  else s

/-- TIE_SWITCH_REQUEST_RX (R463). -/
def execTieSwitchRequestRx (cause : Fin 6) (bad : Fin 4) (s : State) : Host.Outcome State Fault Refusal :=
  s.live fun s => s.tieTake bad fun s => s.switchRequested cause

/-- C000.03 written (R461). -/
def writePairSwitch (v : Int) (s : State) : State × Answer :=
  if v = 1 then (if s.standbyReady then (s.switchOver 1, accepted) else (s, refusedFor 1))
  else if s.inPair && s.tieUp then (s.switchOver 2, accepted)
  else (s, refusedFor 2)

/-- PAIR_SWITCH (R461). -/
def execPairSwitch (cl : Client) (s : State) : Host.Outcome State Fault Refusal :=
  .next (s.serveWrite cl .pairSwitch 0 (.int 1) (writePairSwitch 1))

/-- PAIR_SWITCH_FORCE (R461). -/
def execPairSwitchForce (cl : Client) (s : State) : Host.Outcome State Fault Refusal :=
  .next (s.serveWrite cl .pairSwitch 0 (.int 2) (writePairSwitch 2))

/-- HEALTH_SWITCH (R461): the condition has held for the hold-off. -/
def execHealthSwitch (s : State) : Host.Outcome State Fault Refusal :=
  s.live fun s =>
    if s.healthFavours && s.get .xHealthAt 0 != 0
        && decide (250000 * s.get .pairHoldOff 0 ≤ s.get .xTicks 0 - (s.get .xHealthAt 0 - 1)) then s.switchOver 4
    else s

/-- The watch input reads the partner's SWITCH_OUT low, or none is watched (R462). -/
def State.partnerOff (s : State) : Bool :=
  let w := s.nat .pairWatchInput 0
  w == 0xFF || s.bit .inputState (24 + w) 0 != s.flag .inputActiveHigh (24 + w)

/-- TIE_LOSS_TAKEOVER (R462): 20 µs have passed since the link went down. -/
def execTieLossTakeover (s : State) : Host.Outcome State Fault Refusal :=
  s.live fun s =>
    if s.pairStandby && s.get .tieState 0 == 1 && s.get .pairTieLossPolicy 0 == 1 && s.usSince .xTieDownAt 0 20
        && s.partnerOff then s.becomeActive 5
    else s

end Sys2Proof.Machine
end

