-- ==== Sys2Proof/Machine/Monitor.lean ====
section
/-! DEFINITION. The housekeeping converters (R438 to R452). Triggers stand in Ops, since a raise may be one. -/

namespace Sys2Proof.Machine

/-! ## Entries (R439, R440) -/

/-- Converter k reaches a channel (Table: Housekeeping channels). -/
def hkReach (k ch : Nat) : Bool :=
  if k = 0 then ch < 24 || (48 ≤ ch && ch < 66) else 24 ≤ ch && ch < 66

/-- The answer to an entry for converter k (R338, R439): 0x07 for a channel that there is not or a reserved bit set, 0x08 for a
channel that only the other converter reaches. -/
def hkEntryAnswer (k entry : Nat) : Answer :=
  if 65 < hkChannel entry ∨ field entry 7 5 ≠ 0 then refusedWith 0x07
  else if hkReach k (hkChannel entry) then accepted else refusedWith 0x08

/-- 9010.01 written (R439, R444): in force at the next start; a value out of range comes before the other rule (R348). -/
def writeHkSequence (k : Nat) (b : List Byte) (s : State) : State × Answer :=
  let l := (List.range (b.length / 2)).map fun n => hkEntryAnswer k (hkEntryAt b n)
  match l.find? fun a => a == refusedWith 0x07, l.find? fun a => a != accepted with
  | some a, _ | none, some a => (s, a)
  | none, none => (s.setBlob .hkseqEntries k b, accepted)

/-- 9000.07 written (R439). -/
def writeHkInjected (k : Nat) (v : Int) (s : State) : State × Answer :=
  if hkEntryAnswer k v.toNat = accepted then (s.set .hkInjEntry k v, accepted) else (s, hkEntryAnswer k v.toNat)

/-- 9000.02 written (R444): continuous running starts an idle sequence. -/
def writeHkTrigger (k : Nat) (v : Int) (s : State) : State × Answer :=
  let s := s.set .hkSeqTrigger k v
  if v = 1 && !s.flag .xHkSeqActive k then
    (if s.get .hkState k = 3 then s.set .xHkHeld k 1 else s.hkStart k, accepted)
  else (s, accepted)

/-- 9100.03 or .04 written: s stays at most n (R441). -/
def writeHkAverage (r : Reg) (i : Nat) (v : Int) (s : State) : State × Answer :=
  let t := s.set r i v
  if t.get .monAverage i < t.get .monShift i then (s, refusedWith 0x08) else (t, accepted)

/-! ## Triggers by write (R444, R446) -/

/-- 9000.04 written 0x01: a trigger where the source is 0. -/
def writeHkSeqStart (k : Nat) (s : State) : State × Answer :=
  (if s.get .hkSeqTrigger k = 0 then s.hkSeqTrigger k State.raise else s, accepted)

/-- HK_SEQ_START (R444). -/
def execHkSeqStart (cl : Client) (k : Fin 2) (s : State) : Host.Outcome State Fault Refusal :=
  .next (s.serveWrite cl .hkSeqStart k (.int 1) (writeHkSeqStart k))

/-- 9000.0A written 0x01: a trigger where the source is 0. -/
def writeHkInjStart (k : Nat) (s : State) : State × Answer :=
  (if s.get .hkInjTrigger k = 0 then s.hkInjTrigger k State.raise else s, accepted)

/-- HK_INJECT_START (R446). -/
def execHkInjectStart (cl : Client) (k : Fin 2) (s : State) : Host.Outcome State Fault Refusal :=
  .next (s.serveWrite cl .hkInjStart k (.int 1) (writeHkInjStart k))

/-- The millisecond triggers of both converters (R444, R446). -/
def State.hkMs (s : State) : State :=
  s.each [0, 1] fun s k =>
    let s := if s.get .hkSeqTrigger k = 2 then s.hkSeqTrigger k State.raise else s
    if s.get .hkInjTrigger k = 2 then s.hkInjTrigger k State.raise else s

/-! ## Calibration (R447) -/

/-- Calibration of converter k starts. -/
def State.hkCalStart (s : State) (k : Nat) : State :=
  ((s.set .hkState k 3).set .hkCalState k 2).set .xHkCalWait k 0

/-- A calibration is asked for: latched behind an injected entry, at once when idle, else at the next sample boundary. -/
def State.hkCalAsk (s : State) (k : Nat) : State :=
  if s.flag .xHkInjPending k ∨ s.get .hkState k = 2 then s.set .hkCalState k 1
  else if s.get .hkState k = 0 then s.hkCalStart k
  else s.set .xHkCalWait k 1

/-- A calibration is latched, waiting or running. -/
def State.hkCalBusy (s : State) (k : Nat) : Bool := s.get .hkCalState k != 0 || s.flag .xHkCalWait k

/-- 9000.0D written 0x01. -/
def writeHkCal (k : Nat) (s : State) : State × Answer :=
  if s.hkCalBusy k then (s, refusedWith 0x0A) else (s.hkCalAsk k, accepted)

/-- HK_CAL_REQUEST (R447). -/
def execHkCalRequest (cl : Client) (k : Fin 2) (s : State) : Host.Outcome State Fault Refusal :=
  .next (s.serveWrite cl .hkCalRequest k (.int 1) (writeHkCal k))

/-- HK_CAL_AUTO (R447): the interval has passed since the last calibration ended. -/
def execHkCalAuto (k : Fin 2) (s : State) : Host.Outcome State Fault Refusal :=
  s.live fun s =>
    if s.get .hkCalInterval k.val = 0 || s.hkCalBusy k || !s.usSince .xHkCalAt k (1000000 * s.get .hkCalInterval k.val) then s
    else s.hkCalAsk k

/-- What waits for a sample boundary or an idle converter starts: a calibration asked for first, then a pending injected
entry (R446, R447). -/
def State.hkBoundary (s : State) (k : Nat) : State :=
  if 2 ≤ s.get .hkState k then s
  else if s.flag .xHkCalWait k then s.hkCalStart k
  else if s.flag .xHkInjPending k then s.hkStartInjected k
  else s

/-- HK_SAMPLE_BOUNDARY (R446). -/
def execHkSampleBoundary (k : Fin 2) (s : State) : Host.Outcome State Fault Refusal := s.live fun s => s.hkBoundary k

/-- What the converter does after an injected entry or a calibration: the interrupted sequence goes on, or it idles. -/
def State.hkResume (s : State) (k : Nat) : State :=
  if s.flag .xHkSeqActive k then (s.set .hkState k 1).hkLatch k else s.set .hkState k 0

/-- The lowest limit a calibration breaks (R447). -/
def hkBroken (m : HkCalReading) : Nat :=
  if 64 < m.offset.natAbs then 1 else if 1000 < m.gain.natAbs then 2 else if m.noise.toList.any (32 < ·) then 3 else 0

/-- A calibration ends: in force or refused; then a pending injected entry, a held trigger, or the paused sequence. -/
def State.hkCalDone (s : State) (k : Nat) (m : HkCalReading) : State :=
  if s.get .hkState k ≠ 3 then s
  else
    let b := hkBroken m
    let s :=
      if b = 0 then (s.set .hkCalOffset k m.offset).set .hkCalGain k m.gain
      else ((s.bump .hkCalRefusals k).set .hkCalLastLimit k (b : Nat)).raise (evDev 131) [u16 k, u8 b]
    let s := ((s.set .hkCalState k 0).set .hkState k 0).markTick .xHkCalAt k
    let s := if s.flag .xHkSeqActive k then s.hkResume k
      else if s.flag .xHkHeld k || s.get .hkSeqTrigger k == 1 then (s.set .xHkHeld k 0).hkStart k
      else s
    s.hkBoundary k

/-- HK_CAL_COMPLETE (R447). -/
def execHkCalComplete (k : Fin 2) (m : HkCalReading) (s : State) : Host.Outcome State Fault Refusal :=
  s.live fun s => s.hkCalDone k m

/-! ## Results (R441 to R443, R448 to R450) -/

/-- The result value of a sum under n and s (R441). -/
def hkValue (sum sh : Nat) : Nat := if sh = 0 then sum else (sum + 2 ^ (sh - 1)) / 2 ^ sh

/-- A sample of converter k corrected by the calibration in force (R441): the offset taken off, then the gain. DESIGN CHOICE
(log entry 38): the correction ends in a whole code, with its rounding open. -/
def State.hkCorrect (s : State) (k code : Nat) : Nat :=
  (max 0 (min 4095 (rdiv ((16 * code - s.get .hkCalOffset k) * (100000 + s.get .hkCalGain k)) 1600000))).toNat

/-- The sum of the first 2^n samples, corrected (R441). -/
def State.hkSum (s : State) (k n : Nat) (l : List (Fin 4096)) : Nat :=
  ((l.take (2 ^ n)).map fun x => s.hkCorrect k x.val).sum

/-- An open-wire test finds the input open: A − B beyond 9002.04 mV (R448). -/
def State.hkFoundOpen (s : State) (k : Nat) (m : HkReading) : Bool :=
  decide (4096 * s.get .hkOpenThreshold 0 < 1500 * ((s.hkCorrect k m.openA.val : Int) - s.hkCorrect k m.openB.val))

/-- A value in microvolts, to the nearest (R441). -/
def hkMicrovolts (v n sh : Nat) : Nat := (2 * v * 1500000 + 2 ^ (12 + n - sh)) / (2 * 2 ^ (12 + n - sh))

/-- A housekeeping result register (Table: Housekeeping result), beside overrun. -/
def hkWord (k v : Nat) (fresh settling implausible open_ : Bool) : Nat :=
  let b := fun (x : Bool) (n : Nat) => if x then 2 ^ n else 0
  2 ^ 31 + b fresh 30 + b settling 29 + b implausible 28 + b open_ 27 + 2 ^ 24 * k + v % 2 ^ 20

/-- A result register written: unread results overrun (R442). -/
def State.hkStore (s : State) (r : Reg) (i w : Nat) : State :=
  s.set r i ((w + (if s.bit r i 30 then 2 ^ 26 else 0) : Nat) : Int)

/-- The open state of input i after a test: each change raises source 129 (R448). -/
def State.hkOpen (s : State) (i : Nat) (v : Bool) : State :=
  if s.flag .monOpen i == v then s else (s.setFlag .monOpen i v).raiseClear (evDev 129) [] (!v)

/-- The result of converter k for input i against the other converter's (R449). -/
def State.hkDiffers (s : State) (k i uv : Nat) (tagged : Bool) : Bool :=
  let o := 64 * (1 - k) + i
  s.flag .hkPlausEnable 0 && decide (48 ≤ i) && !tagged && s.get .xHkLastTime o != 0 && !s.flag .xHkLastTagged o
    && decide (s.uptime + 1 < s.nat .xHkLastTime o + s.nat .hkPlausWindow 0 * 1000000)
    && decide (s.nat .hkPlausLimit 0 < max uv (s.nat .xHkLastUv o) - min uv (s.nat .xHkLastUv o))

/-- Limits of input i against a result (R450). -/
def State.hkLimits (s : State) (i uv : Nat) : State :=
  let n : Int := if (uv : Int) < s.get .monLow i then 1 else if s.get .monHigh i < uv then 2 else 0
  if (s.get .monLimitState i = 0) = (n = 0) then s
  else (s.set .monLimitState i n).raiseClear (evDev 128) [] (n == 0)

/-- The result of an input written, with everything that follows from it. -/
def State.hkInput (s : State) (k i : Nat) (entry : Nat) (m : HkReading) (injected : Bool) : State :=
  let n := s.nat .xHkAverage k
  let sh := s.nat .xHkShift k
  let v := hkValue (s.hkSum k n m.samples) sh
  let uv := hkMicrovolts v n sh
  let s := if bitOf entry 15 then s.hkOpen i (s.hkFoundOpen k m) else s
  let settling := bitOf entry 14 && decide (m.sinceMove < 1000 * s.nat .hkSettleTime 0)
  let open_ := s.flag .monOpen i
  let tagged := settling || open_
  let bad := s.hkDiffers k i uv tagged
  let s := if bad then
      (s.bump .monImplausible i).raise (evDev 130) [u16 i, u32 uv, u32 (s.get .xHkLastUv (64 * (1 - k) + i))]
    else s
  let w := hkWord k v true settling bad open_
  let s := if s.bit .monResult i 30 then s.bump .monOverruns i else s
  let s := (s.hkStore .monResult i w).set .monMicrovolts i (uv : Nat)
  let s := if injected then s.hkStore .hkInjResult k w else s
  let s := s |>.set .xHkLastUv (64 * k + i) (uv : Nat) |>.set .xHkLastTime (64 * k + i) (s.uptime + 1 : Nat)
    |>.set .xHkLastTagged (64 * k + i) (ofFlag tagged)
  if tagged || bad then s else s.hkLimits i uv

/-- What follows a completed entry: the next of the sequence, its end, or the return from an injected entry. -/
def State.hkNext (s : State) (k : Nat) : State :=
  if s.get .hkState k = 2 then
    if s.get .hkCalState k = 1 then s.hkCalStart k else s.hkResume k
  else
    let n := s.nat .xHkIndex k + 1
    if n < (s.blob .xHkSequence k).length / 2 then (s.set .xHkIndex k (n : Nat)).hkLatch k
    else
      let s := ((s.bump .hkSeqCount k).set .xHkSeqActive k 0).set .hkState k 0
      if s.get .hkSeqTrigger k = 1 then s.hkStart k else s

/-- A conversion completes (R442). -/
def State.hkConverted (s : State) (k : Nat) (m : HkReading) : State :=
  let st := s.get .hkState k
  if st ≠ 1 ∧ st ≠ 2 then s
  else
    let e := s.hkCurrent k
    let ch := hkChannel e
    let s :=
      if ch < 64 then s.hkInput k ch e m (st == 2)
      else
        let settling := bitOf e 14 && decide (m.sinceMove < 1000 * s.nat .hkSettleTime 0)
        s.set (if ch = 64 then .hkRefResult else .hkGndResult) k (hkWord k (s.hkSum k 0 m.samples) false settling false false : Nat)
    (s.hkNext k).hkBoundary k

/-- HK_CONVERSION_COMPLETE (R442). -/
def execHkConversionComplete (k : Fin 2) (m : HkReading) (s : State) : Host.Outcome State Fault Refusal :=
  s.live fun s => s.hkConverted k m

/-- A result register is read: its new and overrun bits clear (R442). -/
def State.hkRead (s : State) (r : Reg) (i : Nat) : State :=
  (s.setBit r i 30 false).setBit r i 26 false

end Sys2Proof.Machine
end

