-- ==== Sys2Proof/Machine/Inputs.lean ====
section
/-! DEFINITION. Event source controls and the external inputs (R380 to R382, R387 to R391, R404). -/

namespace Sys2Proof.Machine

/-! ## Event sources (R380 to R382, R387) -/

/-- xxxx.01 of a source written: disabling clears its latch (R380). -/
def writeEventEnable (e : Nat) (v : Int) (s : State) : State × Answer :=
  let s := s.set .eventEnable e v
  (if v = 0 then s.set .eventLatched e 0 else s, accepted)

/-- A W1C flag written: 1 clears it (R338). -/
def writeClear (r : Reg) (i : Nat) (v : Int) (s : State) : State × Answer :=
  (if v = 1 then s.set r i 0 else s, accepted)

/-- EVENT_LATCH_CLEAR (R382): the W1C write of a source's latch. -/
def execEventLatchClear (cl : Client) (e : Fin 1408) (s : State) : Host.Outcome State Fault Refusal :=
  .next (s.serveWrite cl .eventLatched e (.int 1) (writeClear .eventLatched e 1))

/-- Every latched bit cleared (R382). -/
def State.clearLatched (s : State) : State :=
  { s with regs := s.regs.filter fun x => x.1.1 != .eventLatched }

/-- B600.05 written 0x01. -/
def writeClearLatched (s : State) : State × Answer := (s.clearLatched, accepted)

/-- CLEAR_ALL_LATCHED (R382). -/
def execClearAllLatched (cl : Client) (s : State) : Host.Outcome State Fault Refusal :=
  .next (s.serveWrite cl .ringClearLatched 0 (.int 1) writeClearLatched)

/-- Some enabled latched source has a severity from lo to hi (R341, R387). -/
def State.latchedAt (s : State) (lo hi : Nat) : Bool :=
  s.regs.any fun x => x.1.1 == .eventLatched && s.flag .eventLatched x.1.2 && s.flag .eventEnable x.1.2
    && decide (lo ≤ s.nat .eventSeverity x.1.2 ∧ s.nat .eventSeverity x.1.2 ≤ hi)

/-- B601.03 as read: bit 0 ALERT0_N low, bit 1 ALERT1_N low (R387). -/
def State.alertNow (s : State) : Int :=
  (if s.flag .alertEnable0 0 && s.latchedAt 2 3 then 1 else 0) + (if s.flag .alertEnable1 0 && s.latchedAt 0 1 then 2 else 0)

/-! ## External inputs (R388 to R391) -/

/-- Event source of input i (Table: Input numbering). -/
def inputSource (i : Nat) : Nat :=
  if i < 12 then evCarrier i 15 else if i < 24 then evCarrier (i - 12) 16 else evDev (i - 8)

/-- B700.02 written: refused for the engine inputs, which are active low. -/
def writeActiveHigh (i : Nat) (v : Int) (s : State) : State × Answer :=
  if i < 24 then (s, refusedWith 0x08) else (s.set .inputActiveHigh i v, accepted)

/-- An input record: i, kind and edges, then the count of a window for a summary (R388, R390). -/
def State.inputRecord (s : State) (i kind : Nat) (more : List Item) (k : Mark) : State :=
  s.raiseMarked (inputSource i) ([u16 i, u8 kind, u32 (s.get .inputEdges i)] ++ more) k

/-- The level of a ball taken as active or not. -/
def State.inputActive (s : State) (i : Nat) (level : Bool) : Bool :=
  if i < 24 then !level else level == s.flag .inputActiveHigh i

/-- An accepted PPS edge to active: the raw edge's time is published by every time base that takes the input (R404). -/
def State.ppsCapture (s : State) (j : Nat) : State :=
  s.each (List.range 4) fun s t =>
    if s.get .tbasePpsInput t = j then
      let v := s.nat .xPpsEdge (4 * j + t)
      (s.setBlob .tbasePpsCapture t
        (leBytes 6 (v / 1000000000 : Nat) ++ leBytes 4 (v % 1000000000 : Nat) ++ leBytes 2 0)).bump .tbasePpsCaptures t
    else s

/-- An edge of the debounced level of input i to a level (R388 to R391): counted; reported unless the input is
rate-limited; an edge to inactive ends a mask. -/
def State.inputEdge (s : State) (i : Nat) (active : Bool) : State :=
  let s := (s.bump .inputEdges i).set .xInWindow i (s.get .xInWindow i + 1) |>.set .xInLastEdge i (s.get .xInSamples 0)
    |>.set .xInRun i 0
  let limited := s.bit .inputState i 2 || decide (s.get .xInLimit i < 10 * s.get .xInWindow i)
  let s := ((s.setBit .inputState i 0 active).setBit .inputState i 1 (s.bit .inputState i 1 && active)).setBit
    .inputState i 2 limited
  let s := if limited || s.bit .inputState i 1 then s else s.inputRecord i 0 [] { cleared := !active }
  let s := if 12 ≤ i ∧ i < 24 then s.setFlag .xEngLos (i - 12) active else s
  if 32 ≤ i ∧ active then s.ppsCapture (i - 32) else s

/-- Time base t in ns at a raw edge that lies `ago` ns back, in the scale it had at that instant (R404, R411). -/
def State.edgeTime (s : State) (t ago : Nat) : Int :=
  let now : Int := s.timeNs t * 2 ^ 32 + s.get .xTbFrac t
  let v := now - ago * s.get .tbaseIncrement t / 4
  let before := s.get .xStepTick t ≠ 0 ∧ 4 * (s.get .xTicks 0 - s.get .xStepTick t) < ago
  (if before then v - s.get .xStepBy t else v) / 2 ^ 32

/-- One sample of input i: a change of level that has held for the debounce time is an edge (R388). -/
def State.inputSample (s : State) (i : Nat) (level : Bool) (ago : Nat) : State :=
  let active := s.inputActive i level
  if active == s.bit .inputState i 0 then s.set .xInRun i 0
  else
    let s :=
      if s.get .xInRun i ≠ 0 then s
      else
        let s := s.set .xInRun i (s.get .xInSamples 0 + 1)
        if 32 ≤ i then
          s.each (List.range 4) fun s t => s.set .xPpsEdge (4 * (i - 32) + t) (s.edgeTime t ago)
        else s
    if s.get .inputDebounce i ≤ s.get .xInSamples 0 - (s.get .xInRun i - 1) then s.inputEdge i active else s

/-- Every input sampled (R388). -/
def State.inputsSample (s : State) (levels : Vector Bool 36) (ago : Vector Nat 4) : State :=
  let s := s.set .xInSamples 0 (s.get .xInSamples 0 + 1)
  s.each (List.range 36) fun s i => s.inputSample i (levels.toList.getD i false) (ago.toList.getD (i - 32) 0)

/-- INPUT_SAMPLE (R388): levels are those of the balls; ago gives, for each PPS input, the ns since its last raw edge to
the active level. -/
def execInputSample (levels : Vector Bool 36) (ago : Vector Nat 4) (s : State) : Host.Outcome State Fault Refusal :=
  s.live fun s => s.inputsSample levels ago

/-- The stuck limit compared with the time since the last edge (R389). -/
def State.inputStuck (s : State) (i : Nat) : State :=
  if s.bit .inputState i 0 && !s.bit .inputState i 1
      && decide (1000 * s.get .inputStuckLimit i < s.get .xInSamples 0 - s.get .xInLastEdge i) then
    (s.setBit .inputState i 1 true).inputRecord i 1 [] {}
  else s

/-- INPUT_STUCK (R389). -/
def execInputStuck (i : Fin 36) (s : State) : Host.Outcome State Fault Refusal := s.live fun s => s.inputStuck i

/-- A rate window of input i ends (R390). -/
def State.inputWindow (s : State) (i : Nat) : State :=
  let n := s.get .xInWindow i
  let s :=
    if s.bit .inputState i 2 then
      let s := s.inputRecord i 2 [u32 n] { cleared := !s.bit .inputState i 0, summary := true }
      if 10 * n ≤ s.get .xInLimit i then s.setBit .inputState i 2 false else s
    else s
  (s.set .xInWindow i 0).set .xInLimit i (s.get .inputRateLimit i)

/-- INPUT_RATE_WINDOW_END (R390): every input's window of 100 ms ends. -/
def execInputRateWindowEnd (s : State) : Host.Outcome State Fault Refusal :=
  s.live fun s => s.each (List.range 36) State.inputWindow

end Sys2Proof.Machine
end

