-- ==== Sys2Proof/Machine/Counters.lean ====
section
/-! DEFINITION. Counters, snapshots and filtered counter reads (R392 to R397). -/

namespace Sys2Proof.Machine

/-! ## Block counters (R392) -/

/-- Where a block counter belongs: group (0 line, 1 host, 2 flow, 3 custody, 4 device) and direction (0 transmit,
1 receive, 2 none). -/
structure Slot where
  reg : Reg
  group : Nat
  dir : Nat
deriving DecidableEq, Repr

/-- Slots of a carrier. -/
def carrierSlots : List Slot := [
  ⟨.carrierFecBits, 0, 1⟩, ⟨.carrierFecCorrected, 0, 1⟩, ⟨.carrierFecCodewords, 0, 1⟩, ⟨.carrierFecCwFailed, 0, 1⟩,
  ⟨.carrierFecLadderRowsCorrected, 0, 1⟩, ⟨.carrierFecLadderBitsCorrected, 0, 1⟩, ⟨.carrierFecUncorrectable, 0, 1⟩,
  ⟨.carrierFecIterations, 0, 1⟩, ⟨.carrierFecDmMismatch, 0, 1⟩, ⟨.carrierOhBipErrors, 0, 1⟩,
  ⟨.carrierOhBeiReceived, 0, 1⟩, ⟨.carrierOhSlotMismatch, 0, 1⟩, ⟨.carrierRxErasedSymbols, 0, 1⟩,
  ⟨.carrierConvErasedSets, 0, 1⟩, ⟨.carrierSlackRxDiscarded, 0, 1⟩, ⟨.carrierSlackTxHoldSets, 0, 0⟩,
  ⟨.carrierTxClips, 0, 1⟩]

/-- Slots of a port. -/
def portSlots : List Slot := [
  ⟨.portClsUnclassified, 1, 0⟩, ⟨.portClsDisabledFlow, 1, 0⟩, ⟨.portClsErrored, 1, 0⟩, ⟨.portPfcSent, 1, 1⟩,
  ⟨.portPfcReceived, 1, 0⟩, ⟨.portRxUnmatched, 1, 1⟩, ⟨.portFecCorrected, 1, 0⟩, ⟨.portFecUncorrected, 1, 0⟩,
  ⟨.portFecSymbols, 1, 0⟩, ⟨.portRmInserted, 1, 1⟩, ⟨.portRmDeleted, 1, 1⟩, ⟨.portRmSlips, 1, 1⟩]

/-- Slots of a host lane. -/
def laneSlots : List Slot := [
  ⟨.laneBringups, 1, 2⟩, ⟨.laneLockLosses, 1, 1⟩, ⟨.lanePrbsBits, 1, 1⟩, ⟨.lanePrbsErrors, 1, 1⟩]

/-- A register of the device-wide slots, with its unit. -/
def deviceSlots : List (Slot × Nat) :=
  [(⟨.poolDrops, 2, 0⟩, 0), (⟨.calSlips, 2, 0⟩, 0)]
    ++ ((List.range 6).map fun k => (⟨.custodyFail, 3, 2⟩, k))
    ++ [(⟨.custodyFramesDiscarded, 3, 2⟩, 0), (⟨.custodyFramesErrored, 3, 2⟩, 0),
        (⟨.custodyTilesComplemented, 3, 2⟩, 0), (⟨.custodyBlocksReplaced, 3, 2⟩, 0), (⟨.cipherMismatches, 3, 2⟩, 0),
        (⟨.bdapRequests, 4, 2⟩, 0), (⟨.bdapDuplicates, 4, 2⟩, 0), (⟨.bdapAborts, 4, 2⟩, 0), (⟨.bdapDiscarded, 4, 2⟩, 0),
        (⟨.moverGranules, 4, 2⟩, 0), (⟨.moverDescriptors, 4, 2⟩, 0), (⟨.moverFaults, 4, 2⟩, 0)]

/-- Block counter b: its slot and unit; none for a slot not listed. -/
def blockCounter (b : Nat) : Option (Slot × Nat) :=
  if b < 1152 then carrierSlots[b % 96]?.map fun x => (x, b / 96)
  else if b < 1728 then portSlots[(b - 1152) % 12]?.map fun x => (x, (b - 1152) / 12)
  else if b < 2112 then laneSlots[(b - 1728) % 4]?.map fun x => (x, (b - 1728) / 4)
  else deviceSlots[b - 2112]?

/-- The group of a block or flow counter register; none for any other register. -/
def counterGroup (r : Reg) : Option Nat :=
  if r = .flowcountFrames ∨ r = .flowcountBytes then some 2
  else ((carrierSlots ++ portSlots ++ laneSlots ++ deviceSlots.map (·.1)).find? fun x => x.reg == r).map (·.group)

/-- A001.08 written: the wrap bits of the groups named clear (R394). -/
def writeClearWraps (v : Int) (s : State) : State × Answer :=
  ({ s with wraps := s.wraps.filter fun x =>
      match counterGroup x.1.1 with
      | some g => !bitOf v.toNat g
      | none => true }, accepted)

/-- CLEAR_WRAPS (R394). -/
def execClearWraps (cl : Client) (mask : Fin 256) (s : State) : Host.Outcome State Fault Refusal :=
  .next (s.serveWrite cl .snapClearWraps 0 (.int mask.val) (writeClearWraps mask.val))

/-! ## Snapshots (R395, R398) -/

/-- Counters latched with their wrap bits. -/
abbrev Latched := List ((Reg × Nat) × (Nat × Bool))

/-- Every block and flow counter as it stands, those that are 0 and not wrapped left out. -/
def State.latchNow (s : State) : Latched :=
  ((s.regs.map (·.1) ++ s.wraps.map (·.1)).filter fun k => (counterGroup k.1).isSome).foldl
    (fun m k => sput regLt (0, false) m k (s.nat k.1 k.2, sget s.wraps k false)) []

/-- A snapshot with a cause mask: taken now, or joined to the gather that runs. -/
def State.snapshot (s : State) (cause : Nat) : State :=
  if s.flag .snapBusy 0 then s.set .xSnapPending 0 ((s.nat .xSnapPending 0 ||| cause : Nat) : Int)
  else
    ({ s with latches := s.latchNow } : State).set .xSnapPending 0 (cause : Nat) |>.set .xSnapPendTime 0 (s.now : Nat)
      |>.set .xSnapNumber 0 ((s.nat .xSnapNumber 0 + 1) % 2 ^ 32 : Nat) |>.set .snapBusy 0 1

/-- The header of a bank set from the gather. -/
def State.bankHeader (s : State) (b : Nat) : State :=
  s |>.set .xBankCause b (s.get .xSnapPending 0) |>.set .xBankTime b (s.get .xSnapPendTime 0)
    |>.set .xBankNumber b (s.get .xSnapNumber 0)

/-- The gather completes: bank 0 holds the snapshot, bank 1 too where a quarter hour is among its causes. -/
def State.gathered (s : State) : State :=
  if !s.flag .snapBusy 0 then s
  else
    let s := ({ s with bank0 := s.latches, latches := [] } : State).set .snapBusy 0 0
    let s := s.bankHeader 0 |>.set .snapNumber 0 (s.get .xSnapNumber 0) |>.set .snapTime 0 (s.get .xSnapPendTime 0)
      |>.set .snapCause 0 (s.get .xSnapPending 0)
    if s.bit .xSnapPending 0 2 then
      (({ s with bank1 := s.bank0 } : State).bankHeader 1).set .snapQuarterNumber 0 (s.get .xSnapNumber 0)
    else s

/-- SNAPSHOT_GATHER_COMPLETE (R395). -/
def execSnapshotGatherComplete (s : State) : Host.Outcome State Fault Refusal := s.live State.gathered

/-! ## Filtered reads (R396, R397) -/

/-- The settings of one filtered read. -/
structure Filter where
  fore : Bool
  bank : Nat
  carriers : Nat
  groups : Nat
  dirs : Nat
  first : Nat
  count : Nat
deriving DecidableEq, Repr

/-- A client's filter settings. -/
def State.filterOf (s : State) (cl : Client) : Filter :=
  ⟨cl.fore, (s.sel cl .filterBank).toNat, (s.sel cl .filterCarriers).toNat, (s.sel cl .filterGroups).toNat,
    (s.sel cl .filterDirections).toNat, (s.sel cl .filterFlowFirst).toNat, (s.sel cl .filterFlowCount).toNat⟩

/-- The unit a block counter counts for lies in the view of its reader: in the forerunner view only carriers 0 to 3,
ports 0 to 23 and host lanes 0 to 47 exist (R5, R357). -/
def Filter.sees (f : Filter) (b : Nat) : Bool :=
  !f.fore || decide (b < 384 ∨ (1152 ≤ b ∧ b < 1440) ∨ (1728 ≤ b ∧ b < 1920) ∨ 2112 ≤ b)

/-- A block counter passes the filter. -/
def Filter.takes (f : Filter) (b : Nat) (x : Slot) : Bool :=
  f.sees b && bitOf f.groups x.group && bitOf f.dirs x.dir && (decide (1152 ≤ b) || bitOf f.carriers (b / 96))

/-- The entry of a block counter. -/
def blockEntry (m : Latched) (f : Filter) (b : Nat) : List Byte :=
  match blockCounter b with
  | none => []
  | some (x, i) =>
    if f.takes b x then
      let v := sget m (x.reg, i) (0, false)
      leBytes 2 b ++ leBytes 1 (ofFlag v.2) ++ List.replicate 5 0 ++ leBytes 8 (v.1 : Nat)
    else []

/-- The entry of a flow whose direction is that of the filter. -/
def State.flowEntryOf (s : State) (m : Latched) (f : Filter) (n : Nat) : List Byte :=
  if bitOf f.dirs (if fCountRx (s.nat .flowEntry n) then 1 else 0) && (!f.fore || decide (n < 8192)) then
    let a := sget m (.flowcountFrames, n) (0, false)
    let b := sget m (.flowcountBytes, n) (0, false)
    leBytes 2 n ++ leBytes 1 (ofFlag a.2 + 2 * ofFlag b.2) ++ List.replicate 5 0 ++ leBytes 8 (a.1 : Nat)
      ++ leBytes 8 (b.1 : Nat)
  else []

/-- The result of R397. -/
def State.filterResult (s : State) (f : Filter) : List Byte :=
  let m := if f.bank = 0 then s.bank0 else s.bank1
  leBytes 4 (s.get .xBankNumber f.bank) ++ leBytes 1 (s.get .xBankCause f.bank) ++ List.replicate 3 0
    ++ leBytes 8 (s.get .xBankTime f.bank)
    ++ ((List.range 2304).flatMap fun b => blockEntry m f b)
    ++ ((List.range f.count).flatMap fun k => s.flowEntryOf m f (f.first + k))

/-- The value of A010.07 that a read at an offset answers from: formed and held at offset 0 (R397). -/
def State.filterRead (s : State) (cl : Client) (offset : Nat) : List Byte × State :=
  if offset = 0 then
    let v := s.filterResult (s.filterOf cl)
    (v, s.setView cl { s.view cl with heldFilter := v })
  else ((s.view cl).heldFilter, s)

/-- COUNTER_FILTER_READ (R397): a READ_BLOCK of A010.07 at offset 0. -/
def execCounterFilterRead (cl : Client) (max : Fin 65536) (s : State) : Host.Outcome State Fault Refusal :=
  let a := addressOf .filterResult 0
  .next (s.serve cl a fun s =>
    match s.checkRead cl .filterResult with
    | some e => (s, e)
    | none =>
      let r := s.filterRead cl 0
      (r.2, blockAnswer a r.1 0 max))

/-- A010.05 or .06 written: first + count stays within the flows. -/
def State.filterRangeOk (s : State) (cl : Client) (r : Reg) (v : Int) : Bool :=
  if r = .filterFlowFirst then decide (v + s.sel cl .filterFlowCount ≤ 32768)
  else if r = .filterFlowCount then decide (s.sel cl .filterFlowFirst + v ≤ 32768)
  else true

end Sys2Proof.Machine
end

