-- ==== Sys2Proof/Machine/Mover.lean ====
section
/-! DEFINITION. The bulk mover: translation windows, rings, granules, captures and telemetry (R363 to R378). -/

namespace Sys2Proof.Machine

/-! ## Windows (R363, R364) -/

/-- A translation window (Table: Window entry). -/
structure Window where
  enable : Bool
  target : Nat
  size : Nat
  perm : Nat
  offset : Nat
  base : Nat
deriving DecidableEq, Repr

/-- A window entry read from its 128 bits. -/
def windowOf (n : Nat) : Window :=
  ⟨bitOf n 127, field n 116 4, field n 111 5, field n 96 6, field n 32 32, field n 0 32⟩

/-- Reserved bits of a window entry that are set. -/
def windowReserved (n : Nat) : Bool := field n 120 7 != 0 || field n 102 9 != 0 || field n 64 32 != 0

/-- Bytes of a window. -/
def Window.bytes (w : Window) : Nat := 4096 * 2 ^ w.size

/-- Size of a target (Table: Mover targets); 0 for a code that is none. -/
def targetSize (t : Nat) : Nat :=
  2 ^ 20 * ([0, 4352, 768, 768, 768, 768, 512, 1, 192] : List Nat).getD t 0

/-- A mover address lies in the window. -/
def Window.holds (w : Window) (a : Nat) : Bool := decide (4096 * w.base ≤ a ∧ a < 4096 * w.base + w.bytes)

/-- The two windows share an address. -/
def Window.meets (a b : Window) : Bool :=
  decide (4096 * a.base < 4096 * b.base + b.bytes ∧ 4096 * b.base < 4096 * a.base + a.bytes)

/-- The entry breaks a rule that concerns it alone (R364). -/
def Window.bad (w : Window) : Bool :=
  targetSize w.target == 0 || decide (20 < w.size) || 4096 * w.base % w.bytes != 0
    || decide (targetSize w.target < 4096 * w.offset + w.bytes)
    || (decide (2 ≤ w.target ∧ w.target ≤ 6) && (bitOf w.perm 1 || bitOf w.perm 3 || bitOf w.perm 5))

/-- Entry w of the window table as 16 bytes. -/
def State.windowBytes (s : State) (w : Nat) : List Byte := padTo 16 (s.blob .windowEntry w)

/-- Window w. -/
def State.window (s : State) (w : Nat) : Window := windowOf (leNat (s.windowBytes w))

/-- The whole table (2A00.03). -/
def State.windowTable (s : State) : List Byte := (List.range 256).flatMap s.windowBytes

/-- Transfers that `hit` finds concerned, on the source side 0 or the destination side 1, are marked faulted (R371). -/
def State.markRings (s : State) (code detail : Nat) (hit : State → Nat → Option Nat) : State :=
  s.each (List.range 64) fun s n =>
    let pre := s.flag .xRingPre n
    if (pre || s.get .xRingRun 0 == n + 1) && s.get .xRingMark n == 0 then
      match hit s n with
      | some side =>
        s.set .xRingMark n (code : Nat) |>.set .xRingMarkPre n (ofFlag pre) |>.set .xRingMarkDetail n (detail : Nat)
          |>.set .xRingMarkSide n (side : Nat) |>.set .xRingMarkTime n (s.now : Nat)
      | none => s
    else s

/-- The side on which ring n has moved a granule through a window of those that p picks, the source first; none where it has
not. -/
def State.windowSide (s : State) (p : Nat → Bool) (n : Nat) : Option Nat :=
  if p (s.nat .xRingWindows n) then some 0 else if p (s.nat .xRingWindowsDst n) then some 1 else none

/-- 2A00.02 written: entry w checked and stored (R364). -/
def writeWindow (w : Nat) (v : List Byte) (s : State) : State × Answer :=
  let n := leNat v
  let x := windowOf n
  if windowReserved n then (s, refusedWith 0x07)
  else if x.bad || (x.enable && (List.range 256).any fun k => k != w && (s.window k).enable && x.meets (s.window k)) then
    (s, refusedWith 0x08)
  else ((s.setBlob .windowEntry w v).markRings 1 0 (State.windowSide · fun m => bitOf m w), accepted)

/-- WINDOW_WRITE (R364). -/
def execWindowWrite (cl : Client) (v : List Byte) (s : State) : Host.Outcome State Fault Refusal :=
  .next (s.serveWrite cl .windowEntry 0 (.bytes v) fun s => writeWindow (s.sel cl .windowSelect).toNat v s)

/-- Entry k of a table of 16-byte entries. -/
def windowAt (v : List Byte) (k : Nat) : Nat := leNat ((v.drop (16 * k)).take 16)

/-- 2A00.03 written: every entry is checked against the whole new table (R376). -/
def writeWindowTable (v : List Byte) (s : State) : State × Answer :=
  let l := (List.range 256).map fun k => windowOf (windowAt v k)
  let clash := fun (k : Nat) (x : Window) => x.enable && l.zipIdx.any fun y => y.2 != k && y.1.enable && x.meets y.1
  if (List.range 256).any fun k => windowReserved (windowAt v k) then (s, refusedWith 0x07)
  else if l.zipIdx.any fun x => x.1.bad || clash x.2 x.1 then (s, refusedWith 0x08)
  else
    let s := s.each (List.range 256) fun s k => s.setBlob .windowEntry k ((v.drop (16 * k)).take 16)
    (s.markRings 1 0 (State.windowSide · fun m => m != 0), accepted)

/-! ## Translation (R363, R365) -/

/-- Where a byte of a mover address lies: its window, target and offset in the target. -/
structure Place where
  window : Nat
  target : Nat
  off : Nat
deriving DecidableEq, Repr

/-- The bank whose contents the bank port shows at an offset (R365). -/
def bankAt (off : Nat) : Option Nat :=
  match resolve (0x3000 + off / 65536) 8 with
  | some (.bankStandby, b) => if off % 65536 < ([576, 8192, 120, 1032, 32768, 496] : List Nat).getD (b / 12) 0 then some b else none
  | _ => none

/-- The place of a mover address; none where it has no translation. -/
def State.translate (s : State) (a : Nat) : Option Place :=
  (List.range 256).findSome? fun k =>
    let w := s.window k
    if w.enable && w.holds a then
      let off := a - 4096 * w.base + 4096 * w.offset
      if w.target = 8 ∧ bankAt off = none then none else some ⟨k, w.target, off⟩
    else none

/-- First byte of the mailbox in mover memory. -/
def mailboxBase : Nat := 7 * 2 ^ 33

/-- n bytes at a place (R365: the bank port reads the standby contents). -/
def State.placeBytes (s : State) (p : Place) (n : Nat) : List Byte :=
  if p.target = 8 then
    match bankAt p.off with
    | some b => padTo n ((s.standbyOf b).drop (p.off % 65536))
    | none => List.replicate n 0
  else s.readBytes (p.target * 2 ^ 33 + p.off) n

/-! ## Faults (R369, R370) -/

/-- A fault of a granule (Table: Mover faults): code, side, detail, mover address. -/
structure MoverFault where
  code : Nat
  side : Nat
  detail : Nat
  addr : Nat
deriving DecidableEq, Repr

/-- The descriptors of ring n. -/
def State.descs (s : State) (n : Nat) : List Descriptor := sget s.descriptors n []

/-- The descriptors of ring n replaced. -/
def State.setDescs (s : State) (n : Nat) (l : List Descriptor) : State :=
  { s with descriptors := sput natLt [] s.descriptors n l }

/-- The transfer at the head of ring n starts from nothing. -/
def State.transferClear (s : State) (n : Nat) : State :=
  (s.set .ringGranule n 0 |>.set .xRingPre n 0 |>.set .xRingHalted n 0 |>.set .xRingMark n 0 |>.set .xRingWindows n 0
    |>.set .xRingWindowsDst n 0 |>.set .xRingCaptures n 0 |>.set .xRingBank n 0).setBlob .xRingAside n []

/-- Ring n halts on a fault: record, count and event (R370). -/
def State.ringHalt (s : State) (n : Nat) (d : Descriptor) (f : MoverFault) (pre : Bool) (time : Nat) : State :=
  let r := [BitVec.ofNat 8 f.code, BitVec.ofNat 8 f.side, (if pre then 1 else 0), BitVec.ofNat 8 f.detail]
    ++ leBytes 2 (d.tag : Nat) ++ [0, 0] ++ leBytes 4 (s.get .ringGranule n) ++ List.replicate 4 0
    ++ leBytes 8 (f.addr : Nat) ++ leBytes 8 (time : Nat)
  let s := s.set .xRingHalted n 1 |>.set .xRingPre n 0 |>.set .xRingMark n 0
  let s := if s.get .xRingRun 0 = n + 1 then s.set .xRingRun 0 0 else s
  ((s.setBlob .ringFault n r).bump .moverFaults 0).raise (evDev 120) [u16 n, u16 d.tag]

/-- Code 4: what keeps a place busy (Table: Mover faults). -/
def State.placeBusy (s : State) (side : Nat) (p : Place) : Nat :=
  if p.target = 8 then
    match bankAt p.off with
    | some b => if s.flag .bankBusy b then 1 else 0
    | none => 0
  else if side = 0 ∧ 2 ≤ p.target ∧ p.target ≤ 5 ∧ s.get .captureState (3 * (p.target - 2) + p.off / 2 ^ 28) = 2 then 2
  else if p.target ≤ 6 ∧ !s.flag .xHbmTrained 0 then 3
  else 0

/-- The first fault of one side of a granule of n bytes from address a: translation, then permission, then busy. -/
def State.sideFault (s : State) (cls side a n : Nat) : Option MoverFault :=
  let l := (List.range ((n + 7) / 8)).map fun k => (a + 8 * k, s.translate (a + 8 * k))
  match l.find? fun x => x.2.isNone with
  | some x => some ⟨1, side, 0, x.1⟩
  | none =>
    let bad := fun (x : Nat × Option Place) => match x.2 with
      | some p => !bitOf (s.window p.window).perm (2 * cls + side)
      | none => false
    match l.find? bad with
    | some x => some ⟨2, side, cls, x.1⟩
    | none =>
      l.findSome? fun x => match x.2 with
        | some p => if s.placeBusy side p = 0 then none else some ⟨4, side, s.placeBusy side p, x.1⟩
        | none => none

/-- A mover address no descriptor may name (R363). -/
def badAddress (a : Nat) : Bool := decide (2 ^ 44 ≤ a) || a % 8 != 0

/-- The fault of granule g of a descriptor, found before it moves (R369). -/
def State.granuleFault (s : State) (d : Descriptor) (g : Nat) : Option MoverFault :=
  if g = 0 ∧ (d.length < 8 ∨ 2 ^ 30 < d.length ∨ d.length % 8 ≠ 0) then some ⟨6, 0, 1, d.source⟩
  else if g = 0 ∧ badAddress d.source then some ⟨6, 0, 2, d.source⟩
  else if g = 0 ∧ badAddress d.dest then some ⟨6, 1, 2, d.dest⟩
  else
    let o := 4096 * g
    let n := min 4096 (d.length - o)
    match s.sideFault d.cls 0 (d.source + o) n with
    | some f => some f
    | none => s.sideFault d.cls 1 (d.dest + o) n

/-! ## Granules (R365, R367, R368) -/

/-- Bytes of a granule written at its destination; those of a bank are collected aside. -/
def State.landBytes (s : State) (n a : Nat) : List Byte → State
  | [] => s
  | b :: t =>
    let s := match s.translate a with
      | some p =>
        if p.target = 8 then s.setBlob .xRingAside n (s.blob .xRingAside n ++ [b])
        else s.writeByte (p.target * 2 ^ 33 + p.off) b
      | none => s
    s.landBytes n (a + 1) t

/-- What a granule's source holds. -/
def State.sourceBytes (s : State) (a n : Nat) : List Byte :=
  (List.range ((n + 7) / 8)).flatMap fun k => match s.translate (a + 8 * k) with
    | some p => s.placeBytes p 8
    | none => []

/-- The windows and captures that a granule of n bytes at a and b goes through, added to those of the transfer, by side. -/
def State.noteUse (s : State) (r a b n : Nat) : State :=
  s.each (List.range ((n + 7) / 8)) fun s k =>
    let s := match s.translate (a + 8 * k) with
      | some p =>
        let s := s.setBit .xRingWindows r p.window true
        if 2 ≤ p.target ∧ p.target ≤ 5 then s.setBit .xRingCaptures r (3 * (p.target - 2) + p.off / 2 ^ 28) true else s
      | none => s
    match s.translate (b + 8 * k) with
    | some p => s.setBit .xRingWindowsDst r p.window true
    | none => s

/-- The bank that a descriptor writes whole, plus one; 0 where it does not (R365). -/
def State.wholeBank (s : State) (d : Descriptor) : Nat :=
  match s.translate d.dest with
  | some p =>
    if p.target = 8 ∧ p.off % 65536 = 0 then
      match bankAt p.off with
      | some b => if d.length = (s.standbyOf b).length then b + 1 else 0
      | none => 0
    else 0
  | none => 0

/-- Ring n starts a granule: its checks hold. An uncorrectable source word halts it on the way (R369). -/
def State.granuleMove (s : State) (n : Nat) (d : Descriptor) (bad : Option GranuleError) : State :=
  let g := s.nat .ringGranule n
  let o := 4096 * g
  let len := min 4096 (d.length - o)
  let s := s.noteUse n (d.source + o) (d.dest + o) len
  let s := if g = 0 then s.set .xRingBank n (s.wholeBank d : Nat) else s
  let s := s.setBlob .xRingAside n ((s.blob .xRingAside n).take o)
  let data := s.sourceBytes (d.source + o) len
  match bad with
  | none => s.landBytes n (d.dest + o) data
  | some e =>
    if len ≤ e.at_ then s.landBytes n (d.dest + o) data
    else
      let s := s.landBytes n (d.dest + o) (data.take (min e.landed e.at_))
      let s := s.uncorrectable e.domain e.line .moverData
      s.ringHalt n d ⟨3, 0, e.domain, d.source + o + e.at_ / 8 * 8⟩ false s.now

/-- The bank replacement of a completed bank write (R365): its fault, or the state with the bank replaced. -/
def State.bankReplace (s : State) (n : Nat) (d : Descriptor) : Except MoverFault State :=
  let v := s.blob .xRingAside n
  if v.isEmpty then .ok s
  else if s.get .xRingBank n = 0 ∨ v.length ≠ d.length then .error ⟨6, 1, 3, d.dest⟩
  else
    let b := s.nat .xRingBank n - 1
    match writeStandby b v s with
    | (t, .ack _) => .ok t
    | (_, .abort ..) => if s.flag .bankBusy b then .error ⟨4, 1, 1, d.dest⟩ else .error ⟨6, 1, 4, d.dest⟩

/-- The descriptor at the head of ring n is done (R366, R377). -/
def State.descDone (s : State) (n : Nat) (d : Descriptor) : State :=
  let s := ((s.setDescs n ((s.descs n).drop 1)).transferClear n).set .xRingRun 0 0
  let s := s.bump .moverDescriptors 0
  if d.report then s.raise (evDev 121) [u16 n, u16 d.tag] else s

/-- The granule in flight completes. -/
def State.granuleDone (s : State) : State :=
  if s.get .xRingRun 0 = 0 then s
  else
    let n := s.nat .xRingRun 0 - 1
    match s.descs n with
    | [] => s.set .xRingRun 0 0
    | d :: _ =>
      let g := s.nat .ringGranule n
      if d.length ≤ 4096 * (g + 1) then
        match s.bankReplace n d with
        | .ok t => (t.bump .moverGranules 0).descDone n d
        | .error f => s.ringHalt n d f false s.now
      else (s.bump .moverGranules 0).set .ringGranule n (g + 1 : Nat)

/-- Ring n may run: enabled, not halted, holding a descriptor. -/
def State.ringReady (s : State) (n : Nat) : Bool :=
  s.flag .ringEnable n && !s.flag .xRingHalted n && !(s.descs n).isEmpty

/-- The rings of the highest priority among those that may run. -/
def State.topRings (s : State) : List Nat :=
  let l := (List.range 64).filter s.ringReady
  let p := l.foldl (fun a n => max a (s.nat .ringPriority n)) 0
  l.filter fun n => s.nat .ringPriority n == p

/-- The ring the mover runs next (R368). -/
def State.chooseRing (s : State) : Option Nat × State :=
  let l := s.topRings
  let r := s.nat .xRingRun 0
  if 0 < r ∧ l.contains (r - 1) then (some (r - 1), s)
  else
    let s := if 0 < r then (s.set .xRingPre (r - 1) 1).set .xRingRun 0 0 else s
    match l with
    | [] => (none, s)
    | h :: _ =>
      match l.find? fun n => s.flag .xRingPre n with
      | some n => (some n, (s.set .xRingPre n 0).set .xRingRun 0 (n + 1 : Nat))
      | none =>
        let p := s.nat .ringPriority h
        let n := (l.find? fun n => decide (s.nat .xRingLast p ≤ n)).getD h
        (some n, (s.set .xRingLast p (n + 1 : Nat)).set .xRingRun 0 (n + 1 : Nat))

/-- The mover starts a granule: a marked or failing ring halts and it chooses again (R369, R371). -/
def State.moverStart (fuel : Nat) (s : State) (bad : Option GranuleError) : State :=
  match fuel with
  | 0 => s
  | fuel + 1 =>
    match s.chooseRing with
    | (none, s) => s
    | (some n, s) =>
      match s.descs n with
      | [] => s
      | d :: _ =>
        if s.get .xRingMark n ≠ 0 then
          let pre := s.flag .xRingMarkPre n
          let side := s.nat .xRingMarkSide n
          let f : MoverFault := ⟨s.nat .xRingMark n, side, s.nat .xRingMarkDetail n,
            (if side = 0 then d.source else d.dest) + 4096 * s.nat .ringGranule n⟩
          (s.ringHalt n d f pre (if pre then s.nat .xRingMarkTime n else s.now)).moverStart fuel bad
        else
          match s.granuleFault d (s.nat .ringGranule n) with
          | some f => (s.ringHalt n d f false s.now).moverStart fuel bad
          | none => s.granuleMove n d bad

/-- MOVER_GRANULE (R368): at a granule boundary the granule in flight completes and the next one starts; bad is an
uncorrectable word that the starting granule meets. -/
def execMoverGranule (bad : Option GranuleError) (s : State) : Host.Outcome State Fault Refusal :=
  s.live fun s => (s.granuleDone).moverStart 65 bad

/-! ## Rings as written and read (R366, R370, R376) -/

/-- xxxx.05 as read. -/
def State.ringStateNow (s : State) (n : Nat) : Int :=
  if s.flag .xRingHalted n then 5
  else if s.get .xRingRun 0 = n + 1 then 2
  else if !s.flag .ringEnable n then 0
  else if (s.descs n).isEmpty then 1
  else if s.flag .xRingPre n then 3
  else 4

/-- A descriptor read from its 32 bytes, under a class. -/
def descriptorOf (cls : Nat) (b : List Byte) : Descriptor :=
  let f := fun (o n : Nat) => leNat ((b.drop o).take n)
  ⟨f 0 8, f 8 8, f 16 4, f 20 2, bitOf (f 22 1) 0, cls⟩

/-- The bits of a descriptor that must be zero are. -/
def descriptorOk (b : List Byte) : Bool := leNat ((b.drop 22).take 1) < 2 && leNat ((b.drop 23).take 9) == 0

/-- 32-byte pieces of a post. -/
def pieces (b : List Byte) : List (List Byte) := (List.range (b.length / 32)).map fun k => (b.drop (32 * k)).take 32

/-- xxxx.03 written: descriptors appended, or the post refused whole (R366). -/
def writeRingPost (cls n : Nat) (b : List Byte) (s : State) : State × Answer :=
  let l := pieces b
  if l.any fun x => !descriptorOk x then (s, refusedWith 0x07)
  else if 256 < (s.descs n).length + l.length then (s, refusedFor 1)
  else (s.setDescs n (s.descs n ++ l.map (descriptorOf cls)), accepted)

/-- RING_POST (R366). -/
def execRingPost (cl : Client) (n : Fin 64) (b : List Byte) (s : State) : Host.Outcome State Fault Refusal :=
  .next (s.serveWrite cl .ringPost n (.bytes b) fun s => writeRingPost (s.clientClass cl.mac) n b s)

/-- xxxx.04 written (R370): resume, skip, flush. -/
def writeRingControl (n : Nat) (v : Int) (s : State) : State × Answer :=
  if s.flag .xRingHalted n then
    if v = 1 then (s.set .xRingHalted n 0, accepted)
    else
      let l := if v = 2 then (s.descs n).drop 1 else []
      ((s.setDescs n l).transferClear n, accepted)
  else if v = 3 ∧ s.ringStateNow n ≠ 2 ∧ s.ringStateNow n ≠ 3 then ((s.setDescs n []).transferClear n, accepted)
  else (s, refusedWith 0x08)

/-- RING_RESUME (R370). -/
def execRingResume (cl : Client) (n : Fin 64) (s : State) : Host.Outcome State Fault Refusal :=
  .next (s.serveWrite cl .ringControl n (.int 1) (writeRingControl n 1))

/-- RING_SKIP (R370). -/
def execRingSkip (cl : Client) (n : Fin 64) (s : State) : Host.Outcome State Fault Refusal :=
  .next (s.serveWrite cl .ringControl n (.int 2) (writeRingControl n 2))

/-- RING_FLUSH (R370). -/
def execRingFlush (cl : Client) (n : Fin 64) (s : State) : Host.Outcome State Fault Refusal :=
  .next (s.serveWrite cl .ringControl n (.int 3) (writeRingControl n 3))

/-! ## Captures (R372 to R374) -/

/-- A capture is armed, or armed again while armed, filling or complete: then transfers that have read the discarded one are marked
(R371, R374). -/
def State.captureArm (s : State) (c : Nat) : State :=
  let e := s.get .captureTrigger c
  let again := s.get .captureState c != 0
  let s := s.set .xCapturePoint c (s.get .capturePoint c) |>.set .xCaptureLength c (s.get .captureLength c)
    |>.set .xCaptureTrigger c e |>.set .xCaptureTriggered c (if e = 0xFFFF then 1 else 0) |>.set .xCaptureFilled c 0
    |>.set .captureState c 1
  (s.bump .captureArms c).when again fun s =>
    s.markRings 5 c fun s n => if bitOf (s.nat .xRingCaptures n) c then some 0 else none

/-- xxxx.01 written: 1 arms, 2 ends a capture early. -/
def writeCapture (c : Nat) (v : Int) (s : State) : State × Answer :=
  if v = 1 then (s.captureArm c, accepted)
  else if s.get .captureState c = 2 then (s.set .captureState c 3, accepted)
  else if s.get .captureState c = 1 then (s.set .captureState c 0, accepted)
  else (s, accepted)

/-- CAPTURE_ARM (R372). -/
def execCaptureArm (cl : Client) (c : Fin 12) (s : State) : Host.Outcome State Fault Refusal :=
  .next (s.serveWrite cl .captureControl c (.int 1) (writeCapture c 1))

/-- CAPTURE_STOP (R372). -/
def execCaptureStop (cl : Client) (c : Fin 12) (s : State) : Host.Outcome State Fault Refusal :=
  .next (s.serveWrite cl .captureControl c (.int 2) (writeCapture c 2))

/-- A filling capture has its whole length. -/
def State.captureDone (s : State) (c : Nat) : State :=
  if s.get .captureState c = 2 ∧ 1024 * s.get .xCaptureLength c ≤ s.get .xCaptureFilled c then s.set .captureState c 3
  else s

/-- CAPTURE_COMPLETE (R372). -/
def execCaptureComplete (c : Fin 12) (s : State) : Host.Outcome State Fault Refusal := s.live fun s => s.captureDone c

/-! ## Telemetry (R375) -/

/-- The telemetry record of carrier c. -/
def State.telemetry (s : State) (c : Nat) : List Byte :=
  let rise := fun (r m : Reg) => min (2 ^ 32 - 1) ((s.get r c - s.get m c) % 2 ^ 64)
  leBytes 8 (s.now : Nat) ++ leBytes 1 (s.get .carrierState c) ++ [0] ++ leBytes 2 (s.get .carrierMonFiltered (48 + c))
    ++ leBytes 4 (rise .carrierFecCorrected .xTelCorrected) ++ leBytes 4 (rise .carrierFecCwFailed .xTelFailed)
    ++ leBytes 4 (s.get .carrierMonFiltered c) ++ leBytes 4 (s.get .carrierMonFiltered (36 + c))
    ++ leBytes 4 (s.get .carrierCrFreqOffset c) ++ leBytes 2 (s.get .carrierSlackRxFill c)
    ++ leBytes 2 (s.get .carrierSlackTxFill c) ++ leBytes 2 (s.get .carrierDefectDeclared c)
    ++ leBytes 2 (s.get .guardSetpoint (c / 3)) ++ List.replicate 24 0

/-- Telemetry of an aligned millisecond. -/
def State.telemetryMs (s : State) : State :=
  let i := s.nat .telemetryRecords 0
  let on := s.flag .telemetryEnable 0
  let s := s.each carriers fun s c =>
    let s := if on then s.writeBytes (6 * 2 ^ 33 + c * 2 ^ 25 + i % 524288 * 64) (s.telemetry c) else s
    (s.set .xTelCorrected c (s.get .carrierFecCorrected c)).set .xTelFailed c (s.get .carrierFecCwFailed c)
  if on then s.bump .telemetryRecords 0 else s

/-- 2804.01 written: enabling starts the records at 0. -/
def writeTelemetry (v : Int) (s : State) : State × Answer :=
  let s := if v = 1 && !s.flag .telemetryEnable 0 then s.set .telemetryRecords 0 0 else s
  (s.set .telemetryEnable 0 v, accepted)

end Sys2Proof.Machine
end

