-- ==== Sys2Proof/Machine/Time.lean ====
section
/-! DEFINITION. Time bases, their steps, the timing clock, PPS outputs and the timestamp queue (R399 to R411). -/

namespace Sys2Proof.Machine

/-! ## Counting and steps (R400, R402, R403) -/

/-- One second in units of 2⁻³² ns. -/
def secondUnits : Nat := 1000000000 * 2 ^ 32

/-- Time base t in 2⁻³² ns. -/
def State.tbTotal (s : State) (t : Nat) : Nat := s.timeNs t * 2 ^ 32 + s.nat .xTbFrac t

/-- Time base t set to a total in 2⁻³² ns; its accumulator is 112 bits wide. -/
def State.setTb (s : State) (t v : Nat) : State :=
  s |>.set .xTbSec t (v / secondUnits % 2 ^ 48 : Nat) |>.set .xTbNs t (v / 2 ^ 32 % 1000000000 : Nat)
    |>.set .xTbFrac t (v % 2 ^ 32 : Nat)

/-- What time base t will hold after the next tick, in 2⁻³² ns, with the step accepted for it. -/
def State.nextTotal (s : State) (t : Nat) : Int :=
  let v : Int := s.tbTotal t + s.get .tbaseIncrement t
  if s.get .xStepDue t = 2 then s.get .xStepPending t
  else if s.get .xStepDue t = 1 then v + s.get .xStepPending t
  else v

/-- A step of time base t by d (2⁻³² ns), refused over the threshold unless forced; otherwise noted by `take` for the next
tick (R402). -/
def State.stepChecked (s : State) (t : Nat) (d : Int) (take : State → State) : State × Answer :=
  if s.get .tbaseForce t = 0 ∧ s.get .tbaseStepThreshold t * 2 ^ 32 < d.natAbs then
    (((s.bump .tbaseStepsRefused t).set .tbaseRefusedFlag t 1).raise (evDev 32) [u16 t], refusedFor 1)
  else ((((take s).bump .tbaseSteps t).raise (evDev 33) [u16 t]).set .tbaseForce t 0, accepted)

/-- 8000.03 written: a step by an offset in ns. -/
def writeTimeOffset (t : Nat) (v : Int) (s : State) : State × Answer :=
  let n := s.nextTotal t + v * 2 ^ 32
  if n < 0 ∨ 2 ^ 48 * (secondUnits : Int) ≤ n then (s, refusedWith 0x07)
  else s.stepChecked t (v * 2 ^ 32) fun s =>
    (s.set .xStepPending t (s.get .xStepPending t + v * 2 ^ 32)).set .xStepDue t (max 1 (s.get .xStepDue t))

/-- TIME_STEP_OFFSET (R402). -/
def execTimeStepOffset (cl : Client) (t : Fin 4) (v : Int) (s : State) : Host.Outcome State Fault Refusal :=
  .next (s.serveWrite cl .tbaseOffset t (.int v) (writeTimeOffset t v))

/-- 8000.02 written: a step to an absolute value of 12 bytes. -/
def writeTimeSet (t : Nat) (b : List Byte) (s : State) : State × Answer :=
  let ns := leNat ((b.drop 6).take 4)
  if 1000000000 ≤ ns then (s, refusedWith 0x07)
  else
    let v : Int := (leNat (b.take 6) * 1000000000 + ns) * 2 ^ 32 + leNat ((b.drop 10).take 2) * 2 ^ 16
    s.stepChecked t (v - s.nextTotal t) fun s => (s.set .xStepPending t v).set .xStepDue t 2

/-- TIME_SET_ABSOLUTE (R402). -/
def execTimeSetAbsolute (cl : Client) (t : Fin 4) (b : List Byte) (s : State) : Host.Outcome State Fault Refusal :=
  .next (s.serveWrite cl .tbaseSet t (.bytes b) (writeTimeSet t b))

/-! ## PPS outputs (R405) -/

/-- PPS_OUT[j] rises where counting took its time base across an aligned second plus the offset. -/
def State.ppsRise (s : State) (j : Nat) (before after : Nat → Nat) : State :=
  let t := s.nat .ppsOutSource j
  let off := s.get .ppsOutOffset j * 2 ^ 32
  if t < 4 ∧ s.get .xPpsHigh j = 0 ∧ (before t - off) / (secondUnits : Int) < (after t - off) / (secondUnits : Int) then
    (s.set .xPpsHigh j 1).set .xPpsUntil j (s.get .xTicks 0 + 250 * s.get .ppsOutWidth j)
  else s

/-- PPS_OUT[j] falls once its width has passed. -/
def State.ppsFall (s : State) (j : Nat) : State :=
  if s.get .xPpsUntil j ≤ s.get .xTicks 0 then s.set .xPpsHigh j 0 else s

/-- PPS_OUT_FALL (R405). -/
def execPpsOutFall (j : Fin 4) (s : State) : Host.Outcome State Fault Refusal := s.live fun s => s.ppsFall j

/-! ## The tick (R400, R403) -/

/-- The clip counts of an aligned millisecond (R116). -/
def State.clipMs (s : State) : State :=
  s.each carriers fun s c =>
    let d := s.get .carrierTxClips c - s.get .xClipMark c
    let s := s.set .xClipMark c (s.get .carrierTxClips c)
    if s.get .carrierTxClipThreshold c < d then s.raise (evCarrier c 26) [] else s

/-- What an aligned millisecond of time base 0 brings. -/
def State.alignedMs (s : State) : State := (((s.telemetryMs).clipMs).limitMs).throttleMs.hkMs

/-- What an aligned second of time base 0 brings; quarter = it is also an aligned quarter hour. -/
def State.alignedSecond (s : State) (quarter : Bool) : State :=
  let s := s.each carriers fun s c => (s.codingSecond c).degSecond c
  let cause := (if s.flag .snapEverySecond 0 then 2 else 0) + (if quarter && s.flag .snapEveryQuarter 0 then 4 else 0)
  if cause = 0 then s else s.snapshot cause

/-- The step accepted for time base t applies (R402). -/
def State.stepApply (s : State) (t : Nat) : State :=
  if s.get .xStepDue t = 0 then s
  else
    let v := if s.get .xStepDue t = 2 then s.get .xStepPending t else s.tbTotal t + s.get .xStepPending t
    let s := s.set .xStepTick t (s.get .xTicks 0) |>.set .xStepBy t (v - s.tbTotal t)
    ((s.setTb t v.toNat).set .xStepDue t 0).set .xStepPending t 0

/-- One tick: every time base counts, boundaries occur as counting crosses them, then steps apply. -/
def State.tick (s : State) : State :=
  let before := s.tbTotal
  let s := s.set .xTicks 0 (s.get .xTicks 0 + 1)
  let s := s.each (List.range 4) fun s t => s.setTb t (before t + s.nat .tbaseIncrement t)
  let after := fun t => before t + s.nat .tbaseIncrement t
  let s := s.each (List.range 4) fun s j => s.ppsRise j before after
  let ms := 1000000 * 2 ^ 32
  let s := if before 0 / ms < after 0 / ms then s.alignedMs else s
  let s :=
    if before 0 / secondUnits < after 0 / secondUnits then
      s.alignedSecond (decide (before 0 / (900 * secondUnits) < after 0 / (900 * secondUnits)))
    else s
  s.each (List.range 4) State.stepApply

/-- TIME_TICK (R400). -/
def execTimeTick (s : State) : Host.Outcome State Fault Refusal := s.live State.tick

/-! ## The timing clock (R399) -/

/-- The source in force changes: device-wide source 35. -/
def State.timingSource (s : State) (v : Int) : State :=
  if s.get .tclkSource 0 = v then s else (s.set .tclkSource 0 v).raise (evDev 35) [u8 v]

/-- TREF leaves tolerance; offset is none while it is absent. -/
def State.trefOut (s : State) (offset : Option Int) : State :=
  let v := match offset with
    | some o => max (-2147483647) (min 2147483647 o)
    | none => -2147483648
  let s := (s.set .xTrefIn 0 0).set .tclkTrefOffset 0 v
  if s.get .tclkSource 0 = 0 then s.timingSource (if s.get .tclkMode 0 = 1 then 1 else 2) else s

/-- TREF_OUT_OF_TOLERANCE (R399). -/
def execTrefOutOfTolerance (offset : Option Int) (s : State) : Host.Outcome State Fault Refusal :=
  s.live fun s => s.trefOut offset

/-- TREF returns: after 1 s in tolerance in mode 0, at its first sample in tolerance in mode 1. -/
def State.trefReturn (s : State) (offset : Int) : State :=
  let s := (s.set .xTrefIn 0 1).set .tclkTrefOffset 0 (max (-2147483647) (min 2147483647 offset))
  if s.get .tclkMode 0 = 2 then s else s.timingSource 0

/-- TREF_RETURN (R399). -/
def execTrefReturn (offset : Int) (s : State) : Host.Outcome State Fault Refusal := s.live fun s => s.trefReturn offset

/-- 8F00.01 written: the source the new mode uses. -/
def writeTimingMode (v : Int) (s : State) : State × Answer :=
  let s := s.set .tclkMode 0 v
  (if v = 2 then s.timingSource 2
   else if s.flag .xTrefIn 0 then s.timingSource 0
   else if v = 0 then s.timingSource 2
   else s, accepted)

/-! ## The timestamp queue (R407) -/

/-- The oldest entry as 16 bytes; an entry with valid = 0 where the queue is empty. -/
def State.tsqOldest (s : State) : List Byte := leBytes 16 (s.tsQueue.headD 0 : Nat)

/-- The oldest entry removed. -/
def State.tsqDrop (s : State) : State := { s with tsQueue := s.tsQueue.drop 1 }

/-- TS_QUEUE_POP (R407): a READ of 8100.01. -/
def execTsQueuePop (cl : Client) (s : State) : Host.Outcome State Fault Refusal :=
  .next (s.serveRead cl .tsqPop 0 State.tsqOldest State.tsqDrop)

/-- HK_RESULT_READ (R442): a READ of 9100.01 of input r, or of 9000.0C of converter r − 64. -/
def execHkResultRead (cl : Client) (r : Fin 66) (s : State) : Host.Outcome State Fault Refusal :=
  let reg := if r.val < 64 then Reg.monResult else Reg.hkInjResult
  let i := if r.val < 64 then r.val else r.val - 64
  .next (s.serveRead cl reg i (fun s => leBytes 4 (s.get reg i)) fun s => s.hkRead reg i)

end Sys2Proof.Machine
end

