-- ==== Sys2Proof/Machine/Dictionary.lean ====
section
/-! DEFINITION. The object dictionary as a whole: what a read of any object returns, and what a write of any object does
(R336 to R341, R355, R359). -/

namespace Sys2Proof.Machine

/-! ## Units behind selects (R340) -/

/-- The unit that instance i of an object stands for, through the selects of its client. -/
def State.unitOf (s : State) (cl : Client) (r : Reg) (i : Nat) : Nat :=
  let at_ := fun (x : Reg) => (s.sel cl x).toNat
  match r with
  | .tsiStandbyRow | .tsiActiveRow => 3840 * i + (s.sel cl .tsiRowSelect i).toNat
  | .tribRxFill | .tribRxCsf | .tribRxCm | .tribRxCapacity | .tribRxCmLost => at_ .tribRxSelect
  | .flowEntry | .flowFill | .flowPeak | .flowDepthDrops | .flowPoolDrops | .flowOverruns | .flowAsserting
  | .flowFlushed => at_ .flowSelect
  | .calStandbyEntry | .calActiveEntry => at_ .calSelect
  | .spanStandby | .spanActive => at_ .spanSelect
  | .tribEgressRow | .tribEgressDropped | .tribEgressHecCorrected | .tribEgressDelineationLosses => at_ .tribEgressSelect
  | .slotLoad | .slotErase | .slotStatus | .slotCounter | .slotRefusal | .slotKidActive | .slotKidNext | .slotLease
  | .slotLeaseOverruns => s.slotSel cl
  | .bindEntry | .bindInForce => 3840 * i + s.bindSel cl i
  | .cryptTxBlocks | .cryptTxRefused | .cryptRxBlocks | .cryptRxTagFailures | .cryptRxKeyMismatch | .cryptRxModeMismatch
  | .cryptRxHeaderErrors | .cryptRxRefused | .cryptRxOverheadGen | .cryptTxGen => at_ .cryptSelect
  | .windowEntry => at_ .windowSelect
  | .flowcountFrames | .flowcountBytes => at_ .flowcountSelect
  | .registrationRow => at_ .registrationSelect
  | _ => i

/-- Held per source (R340, R396). -/
def Reg.perSource (r : Reg) : Bool :=
  match r with
  | .tsiRowSelect | .tribRxSelect | .flowSelect | .calSelect | .spanSelect | .tribEgressSelect | .slotSelect | .bindSelect
  | .cryptSelect | .windowSelect | .flowcountSelect | .registrationSelect | .filterBank | .filterCarriers | .filterGroups
  | .filterDirections | .filterFlowFirst | .filterFlowCount => true
  | _ => false

/-! ## Reads -/

/-- The 32 bytes of an event record (Table: Event record). -/
def EventRec.bytes (r : EventRec) : List Byte :=
  leBytes 2 (r.e : Nat) ++ leBytes 1 (r.flags : Nat) ++ [0] ++ leBytes 4 (r.seq : Nat) ++ leBytes 8 (r.time : Nat)
    ++ padTo 16 r.detail

/-- A record in a client's view; none where the forerunner view lacks its source (R358). -/
def EventRec.seen (fore : Bool) (r : EventRec) : Option EventRec :=
  if fore then (if r.e = 0xFFFF then some r else (foreEvent r.e).map fun e => { r with e := e }) else some r

/-- 1001.01 (Table: Error register). -/
def State.errorNow (s : State) : Nat :=
  let b := fun (v : Bool) (n : Nat) => if v then 2 ^ n else 0
  b (s.get .deviceModeState 0 == 5) 7 + b (s.latchedAt 3 3) 6 + b (s.latchedAt 2 2) 5
    + b (carriers.any fun c => s.get .carrierDefectDeclared c != 0) 4
    + b ((List.range 48).any fun p => s.flag .portEnable p && s.flag .xPortFault p) 3
    + b (s.flag .xMemUncorrected 0) 2 + b (s.get .throttleStage 0 != 0) 1
    + b ((List.range 5).any fun g => s.get .guardConflict g != 0) 0

/-- The number that a scalar object of unit u holds: the register, or what it is computed from. -/
def State.scalarValue (s : State) (cl : Client) (r : Reg) (u : Nat) : Int :=
  let a := 2 * u + s.nat .xSlotActive u
  let nx := 2 * u + (1 - s.nat .xSlotActive u)
  if r.perSource then s.sel cl r u
  else
    match r with
    | .identityPart => if cl.fore then 0x00004804 else s.get r u
    | .identityStepping => if cl.fore then 0x33 else s.get r u
    | .portPfcHeldMask => s.heldMask u
    | .carrierFecLadderRowsCorrected | .carrierFecLadderBitsCorrected =>
      if s.nat .carrierFecProfileInForce u = profCompatible then 0 else s.get r u
    | .slotStatus => s.slotStatusOf u
    | .slotCounter => s.invocation a
    | .slotKidActive => s.get .xSlotKid a
    | .slotKidNext => s.get .xSlotKid nx
    | .slotLease => if s.get .xLeaseNew a = 0 then s.get .xLease a else s.get .xLeaseNew a
    | .portSending => s.sendingNow u
    | .carrierOhStatSent => s.statSent u
    | .bdapStation => nativeStation (s.nat .bootStraps 0)
    | .bdapForerunnerStation => foreStation (s.nat .bootStraps 0)
    | .bdapSubscribers => s.subscribers.length
    | .ringState => s.ringStateNow u
    | .ringQueued => (s.descs u).length
    | .alertState => s.alertNow
    | .tsqFill => s.tsQueue.length
    | .errorRegister => s.errorNow
    | _ => s.get r u

/-- The number that a scalar object of unit u reads as; in the forerunner view a mask of carriers shows carriers 0 to 3 (R5) and an
event is numbered as there (R358). -/
def State.scalar (s : State) (cl : Client) (r : Reg) (u : Nat) : Int :=
  let v := s.scalarValue cl r u
  if cl.fore && r.carrierMask then (v.toNat % 16 : Nat)
  else if cl.fore && r.eventNumber then foreEventOut v
  else v

/-- The bytes that a DOMAIN object of unit u reads as. -/
def State.domainBytes (s : State) (cl : Client) (r : Reg) (u : Nat) : List Byte :=
  let v :=
    match s.tableOf r u with
    | some b => b
    | none =>
      match r with
      | .convCalRecords => s.calRecords u
      | .convCalSlotMap => s.calMap u
      | .convCalVgaTable => s.calVga u
      | .bankStandby => s.standbyOf u
      | .carrierRxPolTaps => padTo 496 (s.blob r u)
      | .carrierNcSideTaps => padTo 240 (s.blob r u)
      | .carrierFecTxComposition => s.compositionOf u
      | .carrierTtiTransmit | .carrierTtiExpected | .carrierTtiAccepted => padTo 64 (s.blob r u)
      | .clsLoad => s.clsTableBytes
      | .laneDfeTaps => padTo 8 (s.blob r u)
      | .moverMailbox => s.readBytes mailboxBase 1048576
      | .ringFault => padTo 32 (s.blob r u)
      | .windowEntry => s.windowBytes u
      | .windowTable => s.windowTable
      | .ringRecords => (s.ring.filterMap fun x => x.seen cl.fore).flatMap EventRec.bytes
      | .historyRecords => (s.history.filterMap fun x => x.seen cl.fore).flatMap EventRec.bytes
      | .filterResult => s.filterResult (s.filterOf cl)
      | .tbaseNow => s.timeBytes u
      | .tbasePpsCapture => padTo 12 (s.blob r u)
      | .tsqPop => s.tsqOldest
      | .hkseqEntries => s.hkEntries u
      | .baseMatrixLong => baseMatrix 0 12
      | .baseMatrixSprint => baseMatrix 1 9
      | _ => s.blob r u
  match if cl.fore then foreTableBytes r else none with
  | some n => v.take n
  | none => v

/-- The bytes of an object's value, unit u behind its selects. -/
def State.valueBytes (s : State) (cl : Client) (r : Reg) (u : Nat) : List Byte :=
  if r.wireAt u = .domain then s.domainBytes cl r u else leBytes (r.wireAt u).bytes (s.scalar cl r u)

/-- What a READ does beside returning the value (R407, R442). -/
def State.readEffect (s : State) (r : Reg) (u : Nat) : State :=
  match r with
  | .tsqPop => s.tsqDrop
  | .monResult | .hkInjResult => s.hkRead r u
  | _ => s

/-! ## Registration (R353, R355) -/

/-- Rank of a class: an ignored source is below an observer. -/
def classRank (c : Nat) : Nat := if c = 3 then 0 else c + 1

/-- Staging buffers and open transfers of sources whose class has become lower are discarded (R348, R362); t is the state
before. -/
def State.dropLowered (s t : State) : State :=
  let keep := fun (mac : Nat) => decide (classRank (t.clientClass mac) ≤ classRank (s.clientClass mac))
  { s with staging := s.staging.filter fun x => keep x.mac, transfers := s.transfers.filter fun x => keep x.mac }

/-- A registration table whose rows may stand: no two valid rows with one address, no group address. -/
def rowsOk (l : List Nat) : Bool :=
  let v := (l.filter fun w => bitOf w 63).map fun w => field w 0 48
  decide v.Nodup && v.all fun m => !bitOf m 40

/-- 1300.02 written for row n. -/
def writeRegistration (n : Nat) (v : Int) (s : State) : State × Answer :=
  let t := s.set .registrationRow n v
  if field v.toNat 48 2 = 3 then (s, refusedWith 0x07)
  else if !rowsOk ((List.range 16).map fun k => t.nat .registrationRow k) then (s, refusedWith 0x08)
  else (t.dropLowered s, accepted)

/-- 1300.03 written. -/
def writeRegistrationTable (b : List Byte) (s : State) : State × Answer :=
  let l := entriesOf 8 b
  if l.any fun w => field w 48 2 == 3 || (w &&& Reg.reserved .registrationRow) != 0 then (s, refusedWith 0x07)
  else if !rowsOk l then (s, refusedWith 0x08)
  else ((s.each l.zipIdx fun s e => s.set .registrationRow e.2 (e.1 : Nat)).dropLowered s, accepted)

/-! ## Further writes -/

/-- A W1C mask written: each bit set clears (R338). -/
def writeClearBits (r : Reg) (i : Nat) (v : Int) (s : State) : State × Answer :=
  (s.set r i ((s.nat r i - (s.nat r i &&& v.toNat) : Nat) : Int), accepted)

/-- A W1C extreme written: 1 resets it to the present reading. -/
def writeResetTo (r : Reg) (i : Nat) (present : Int) (v : Int) (s : State) : State × Answer :=
  (if v = 1 then s.set r i present else s, accepted)

/-- 3010.05 or 3010.06 written. -/
def writeSlackMark (r : Reg) (c : Nat) (v : Int) (s : State) : State × Answer :=
  (if v = 1 then s.resetSlackMark r c else s, accepted)

/-- 7100.04 or 7101.04 written: entry by entry, refused whole where one fails (R282). -/
def writeBindTable (dir : Nat) (b : List Byte) (s : State) : State × Answer :=
  let l := (entriesOf 4 b).zipIdx
  if l.any fun e => (e.1 &&& Reg.reserved .bindEntry) != 0 then (s, refusedWith 0x07)
  else if l.any fun e => !s.bindingOk dir e.1 then (s, refusedWith 0x08)
  else (s.each l fun s e => s.set .bindEntry (3840 * dir + e.2) (e.1 : Nat), accepted)

/-- 2803.01 written whole. -/
def writeMailbox (b : List Byte) (s : State) : State × Answer := (s.writeBytes mailboxBase b, accepted)

/-- 1201.05 or 1202.05 takes a value; a change is reported. -/
def State.setPlca (s : State) (port status : Nat) : State :=
  if s.get .mgtStatus port = status then s else (s.set .mgtStatus port (status : Nat)).raise (evDev 113) [u16 port]

/-- A port is the coordinator of its segment: PLCA with node ID 0 (R342). -/
def State.plcaCoordinator (s : State) (port : Nat) : Bool :=
  s.flag .mgtPlcaEnable port && s.get .mgtPlcaNodeId port == 0

/-- 120x.01 or .02 written (R342): without PLCA the port runs CSMA/CD; a coordinator has its own beacon; PLCA enabled anew has seen
none yet (DEDUCED, log entry 48). -/
def writePlca (r : Reg) (port : Nat) (v : Int) (s : State) : State × Answer :=
  let s := s.set r port v
  (if !s.flag .mgtPlcaEnable port then s.setPlca port 2
    else if s.plcaCoordinator port then s.setPlca port 1
    else if s.get .mgtStatus port = 2 then s.setPlca port 0
    else s, accepted)

/-- An object held per source written. -/
def writeSelect (cl : Client) (r : Reg) (i : Nat) (v : Int) (s : State) : State × Answer :=
  if s.filterRangeOk cl r v then (s.setSel cl r v i, accepted) else (s, refusedWith 0x08)

/-- The number a value carries. -/
def writtenNum (v : WVal) : Int :=
  match v with
  | .int x => x
  | .bytes _ => 0

/-- The bytes a value carries. -/
def writtenBytes (v : WVal) : List Byte :=
  match v with
  | .int _ => []
  | .bytes b => b

/-! ## Writes (R338) -/

/-- Objects of the management plane, the mover, time, power, monitoring and Pair (chapters 15 to 21). -/
def writeDevice (cl : Client) (r : Reg) (u : Nat) (v : WVal) (s : State) : State × Answer :=
  let x := writtenNum v
  let b := writtenBytes v
  match r with
  | .mgtPlcaEnable | .mgtPlcaNodeId => writePlca r u x s
  | .registrationRow => writeRegistration u x s
  | .registrationTable => writeRegistrationTable b s
  | .moverMailbox => writeMailbox b s
  | .telemetryEnable => writeTelemetry x s
  | .ringPost => writeRingPost (s.clientClass cl.mac) u b s
  | .ringControl => writeRingControl u x s
  | .windowEntry => writeWindow u b s
  | .windowTable => writeWindowTable b s
  | .captureControl => writeCapture u x s
  | .eventEnable => writeEventEnable u x s
  | .eventLatched | .tbaseRefusedFlag | .tsqOverflow => writeClear r u x s
  | .ringClearLatched => writeClearLatched s
  | .inputActiveHigh => writeActiveHigh u x s
  | .snapClearWraps => writeClearWraps x s
  | .tbaseSet => writeTimeSet u b s
  | .tbaseOffset => writeTimeOffset u x s
  | .tclkMode => writeTimingMode x s
  | .railLowest => writeResetTo r u (s.get .railVoltage u) x s
  | .guardCeiling | .guardPowerCap => writeGuardLimit r u x s
  | .sensorReadmit => writeReadmit u s
  | .sensorPeak => writeResetTo r u (s.get .sensorValue u) x s
  | .throttleShed => writeShed x s
  | .hkSeqTrigger => writeHkTrigger u x s
  | .hkSeqStart => writeHkSeqStart u s
  | .hkInjEntry => writeHkInjected u x s
  | .hkInjStart => writeHkInjStart u s
  | .hkCalRequest => writeHkCal u s
  | .hkseqEntries => writeHkSequence u b s
  | .monAverage | .monShift => writeHkAverage r u x s
  | .pairSwitch => writePairSwitch x s
  | _ => storeReg r u v s

/-- Objects of the host lanes and client ports (chapter 13). -/
def writeHost (cl : Client) (r : Reg) (u : Nat) (v : WVal) (s : State) : State × Answer :=
  let x := writtenNum v
  match r with
  | .lanePower => writeLanePower u x s
  | .laneRxPolMode | .laneRxPolFixed => writePolarity r u x s
  | .laneLosClear => writeLosClear u x s
  | .laneCtleMode | .laneCtleFixed => writeCtle r u x s
  | .laneTxPre2 | .laneTxPre1 | .laneTxPost1 => writeTxTap r u x s
  | .lanePairTest => let (n, t) := s.takeFree; writePairTest u (n % 65536) t
  | .octetOrderMode => writeOrderMode u x s
  | .portRate => writePortRate u x s
  | .portEnable => writePortEnable u x s
  | .lanePrbsGen | .lanePrbsCheck => writePrbs r u x s
  | .lanePrbsInject => writeInject u s
  | .laneLoopback => writeLoopback u x s
  | _ => writeDevice cl r u v s

/-- Objects of coding, frame, flows and cipher (chapters 09 to 12). -/
def writeTraffic (cl : Client) (r : Reg) (u : Nat) (v : WVal) (s : State) : State × Answer :=
  let x := writtenNum v
  let b := writtenBytes v
  match r with
  | .carrierFecProfile | .carrierFecModulation | .carrierFecEntropy | .carrierFecPayload | .carrierFecTxRate
  | .carrierFecRxRate => writeFec r u x s
  | .carrierFecIterationCap => writeCap u x s
  | .tsiStandbyRow => writeStandbyRow (u / 3840) (u % 3840) x s
  | .tsiStandbyPage => writeStandbyPage u b s
  | .tsiFlip => writeFlip u x s
  | .carrierDefectSticky => writeClearBits r u x s
  | .clsKey | .clsFlow => writeClsSetting r x s
  | .clsOp => writeClsOp x s
  | .clsLoad => writeClsLoad b s
  | .portClsMode | .portClsDefaultFlow => writePortCls r u x s
  | .flowEntry => writeFlow u x.toNat s
  | .flowPeak => writeResetTo r u (s.get .flowFill u) x s
  | .flowTable => writeFlowTable b s
  | .poolLow => writeResetTo r u (s.get .poolFree 0) x s
  | .poolPauseLevel => writePoolLevel x s
  | .calStandbyEntry => writeCalEntry u x s
  | .calStandbyPage => writeCalPage .calStandbyEntry b s
  | .calFlip => writeCalFlip s
  | .spanStandby => writeSpan u x s
  | .spanStandbyAll => writeCalPage .spanStandby b s
  | .tribEgressRow => writeTribRow u x s
  | .tribEgressTable => writeTribTable b s
  | .groupMembers => writeMembers u x s
  | .groupRealign => writeRealign u s
  | .groupPolicy => writePolicy u x s
  | .kekOp => writeKek u x s
  | .slotLoad => writeSlotLoad u b s
  | .slotErase => writeSlotErase u s
  | .bindEntry => writeBinding u x s
  | .bindTable => writeBindTable u b s
  | _ => writeHost cl r u v s

/-- Objects of the carriers, converters and equalisers, and of the device as a whole (chapters 00 to 08). -/
def writeLine (cl : Client) (r : Reg) (u : Nat) (v : WVal) (s : State) : State × Answer :=
  let x := writtenNum v
  let b := writtenBytes v
  match r with
  | .forerunnerEnable => writeForerunner x s
  | .carrierSlackRxPeak | .carrierSlackTxLow => writeSlackMark r u x s
  | .deviceModeRequest => writeModeRequest x s
  | .deviceReset => writeReset s
  | .carrierRequest => writeCarrierRequest u x s
  | .bootHostImage => writeHostImage b s
  | .bootHostLoad => writeHostLoad s
  | .dacEnable => writeConvPolicy r u (u / 4) x s
  | .dacShortRetryEnable => writeShortRetry u x s
  | .carrierConvShortPolicy => writeConvPolicy r u u x s
  | .carrierWiringMode | .carrierWiringFixedMap => writeWiring r u x s
  | .carrierOpenTestRequest => writeOpenTest u s
  | .calFgRequest => writeRecal x s
  | .calBgEnable => writeBgEnable x s
  | .bankStandby => writeStandby u b s
  | .bankCommit => writeCommit u x s
  | .carrierTxShapeMode => writeShapeMode u x s
  | .carrierTxShapeRolloff => writeRolloff u x s
  | .carrierTxCdMode => writeTxCdMode u x s
  | .carrierTxCdTarget => writeTxCdTarget u x s
  | .carrierTxCdFrequency => writeTxCdFrequency u x s
  | .carrierCdMode => writeCdMode u x s
  | .carrierCdTarget => writeCdTarget u x s
  | .carrierCdFrequency => writeCdFrequency u x s
  | .carrierRxSkewXi => writeRxSkew r u 0 x s
  | .carrierRxSkewXq => writeRxSkew r u 1 x s
  | .carrierRxSkewYi => writeRxSkew r u 2 x s
  | .carrierRxSkewYq => writeRxSkew r u 3 x s
  | .carrierRxFeEnable => writeFrontEnd u x s
  | .carrierMonSet | .carrierMonClear => writeMonitor r u x s
  | .carrierNcEnable | .carrierNcLower | .carrierNcUpper => writeNc r u x s
  | .carrierNcPark => writeNcPark u x s
  | .carrierCatchCount => writeCandidate r u u x s
  | .catchRate => writeCandidate r u (u / 8) x s
  | .carrierCatchConfirm => writeConfirm u x s
  | _ => writeTraffic cl r u v s

/-- What a write of unit u of an object does, past the checks every write passes. -/
def applyWrite (cl : Client) (r : Reg) (u : Nat) (v : WVal) (s : State) : State × Answer :=
  if r.perSource then writeSelect cl r u (writtenNum v) s else writeLine cl r u v s

end Sys2Proof.Machine
end

