-- ==== Sys2Proof/Machine/Bdap.lean ====
section
/-! DEFINITION. The dictionary access protocol: frames, generic requests, staging and COMMIT, block transfers, subscriptions
(R342 to R351, R362). -/

namespace Sys2Proof.Machine

/-! ## Any object by index and subindex (R336) -/

/-- The object that an index and a subindex name in a client's view, or the abort they draw. -/
def findObject (cl : Client) (ix sub : Nat) : Except Answer (Reg × Nat) :=
  match if cl.fore then foreToNative ix else some ix with
  | none => .error (refusedWith 0x01)
  | some nx =>
    match resolve nx sub with
    | some o => if cl.fore && o.1.beyondFore o.2 then .error (refusedWith 0x01) else .ok o
    | none => .error (refusedWith (if indexPresent nx then 0x02 else 0x01))

/-- A request about the object at an index and a subindex. -/
def State.serveObject (s : State) (cl : Client) (ix sub : Nat) (act : State → Reg → Nat → State × Answer) : State :=
  s.serve cl (ix, sub) fun s =>
    match findObject cl ix sub with
    | .error a => (s, a)
    | .ok (r, i) => act s r i

/-! ## READ and READ_BLOCK (R344, R347) -/

/-- BDAP_READ (R344). -/
def execBdapRead (cl : Client) (ix : Fin 65536) (sub : Fin 256) (s : State) : Host.Outcome State Fault Refusal :=
  .next (s.serveObject cl ix sub fun s r i =>
    match s.checkRead cl r with
    | some a => (s, a)
    | none =>
      let u := s.unitOf cl r i
      let v := s.valueBytes cl r u
      if 1388 < v.length then (s, refusedWith 0x0B) else (s.readEffect r u, readAnswer (ix, sub) (r.wireAt i) v))

/-- The value a block read at an offset answers from: the ring and the filter result hold what their source's last read
at offset 0 fixed (R384, R397). -/
def State.blockValue (s : State) (cl : Client) (r : Reg) (u offset : Nat) : List Byte × State :=
  match r with
  | .filterResult => s.filterRead cl offset
  | .ringRecords =>
    if offset = 0 then
      let v := s.valueBytes cl r u
      (v, s.setView cl { s.view cl with heldRing := v })
    else ((s.view cl).heldRing, s)
  | _ => (s.valueBytes cl r u, s)

/-- BDAP_READ_BLOCK (R347). -/
def execBdapReadBlock (cl : Client) (ix : Fin 65536) (sub : Fin 256) (offset : Fin 4294967296) (max : Fin 65536) (s : State) :
    Host.Outcome State Fault Refusal :=
  .next (s.serveObject cl ix sub fun s r i =>
    if r.wireAt i ≠ .domain then (s, refusedWith 0x03)
    else
      match s.checkRead cl r with
      | some a => (s, a)
      | none =>
        let (v, s) := s.blockValue cl r (s.unitOf cl r i) offset
        (s, blockAnswer (ix, sub) v offset max))

/-! ## WRITE (R338, R348) -/

/-- A value read from its wire bytes. -/
def valueOf (w : Wire) (b : List Byte) : WVal :=
  match w with
  | .domain => .bytes b
  | .i8 | .i16 | .i32 | .i64 => .int (leInt b)
  | .bool | .u8 | .u16 | .u32 | .u64 => .int (leNat b)

/-- The value that a client's WRITE carries for unit i of an object (R357, R358). -/
def clientValue (cl : Client) (r : Reg) (i : Nat) (b : List Byte) : WVal :=
  match valueOf (r.wireAt i) b with
  | .int v => .int (if cl.fore && r.eventNumber then foreEventIn v else v)
  | v => v

/-- Objects whose every value is longer than 1,388 bytes (R347). -/
def Reg.blockOnly (r : Reg) (i : Nat) : Bool :=
  match r with
  | .bankStandby => i / 12 == 1 || i / 12 == 4
  | .tsiStandbyPage | .tsiActivePage | .calStandbyPage | .calActivePage | .spanStandbyAll | .spanActiveAll | .flowTable
  | .tribEgressTable | .bindTable | .windowTable | .moverMailbox | .baseMatrixLong => true
  | _ => false

/-- The abort that the type code and length of a WRITE draw. -/
def wireAbort (r : Reg) (i ty n : Nat) : Option Answer :=
  let w := r.wireAt i
  if r.blockOnly i then some (refusedWith 0x0B)
  else if ty ≠ w.code ∨ (w ≠ .domain ∧ n ≠ w.bytes) then some (refusedWith 0x03)
  else none

/-- An unstaged write of an object, checked and applied as its own commit. -/
def State.writeObject (s : State) (cl : Client) (r : Reg) (i : Nat) (v : WVal) : State × Answer :=
  match s.checkWrite cl r i v with
  | some a => (s.lengthRefused cl r a, a)
  | none => applyWrite cl r (s.unitOf cl r i) v s

/-- The answer of a write with its ACK payload. -/
def writeAck (ix sub : Nat) (x : State × Answer) (more : List Byte) : State × Answer :=
  match x with
  | (s, .ack _) => (s, .ack (leBytes 2 ix ++ leBytes 1 sub ++ more))
  | (s, a) => (s, a)

/-- BDAP_WRITE (R338). -/
def execBdapWrite (cl : Client) (ix : Fin 65536) (sub : Fin 256) (ty : Fin 256) (val : List Byte) (s : State) :
    Host.Outcome State Fault Refusal :=
  .next (s.serveObject cl ix sub fun s r i =>
    match wireAbort r i ty val.length with
    | some a => (s, a)
    | none => writeAck ix sub (s.writeObject cl r i (clientValue cl r i val)) []).afterReset

/-! ## Staging (R348, R349) -/

/-- A client's staging buffer. -/
def State.stagedBy (s : State) (cl : Client) : Option Staging :=
  s.staging.find? fun x => x.mac == cl.mac && x.fore == cl.fore

/-- The state without a client's staging buffer. -/
def State.unstage (s : State) (mac : Nat) (fore : Bool) : State :=
  { s with staging := s.staging.filter fun x => !(x.mac == mac && x.fore == fore) }

/-- Bytes a staged value takes. -/
def Staged.size (e : Staged) : Nat :=
  match e.val with
  | .int _ => (e.reg.wireAt e.inst).bytes
  | .bytes b => b.length

/-- An entry added to a client's buffer: 64 entries, 8 KiB, 4 buffers. -/
def State.stage (s : State) (cl : Client) (e : Staged) : State × Answer :=
  match s.stagedBy cl with
  | none =>
    if 4 ≤ s.staging.length ∨ 8192 < e.size then (s, refusedWith 0x0D)
    else ({ s with staging := s.staging ++ [⟨cl.mac, cl.fore, [e], s.nat .xTicks 0⟩] }, accepted)
  | some b =>
    if 64 ≤ b.entries.length ∨ 8192 < (b.entries.map Staged.size).sum + e.size then (s, refusedWith 0x0D)
    else
      ({ s with staging := s.staging.map fun x =>
          if x.mac == cl.mac && x.fore == cl.fore then { x with entries := x.entries ++ [e], at_ := s.nat .xTicks 0 }
          else x }, accepted)

/-- What the refusal of a write of a key-encryption key or a key load leaves (R276, R277): the state after it is t. -/
def State.keyRefused (s t : State) (r : Reg) (u : Nat) : State :=
  match r with
  | .kekOp => (s.set .kekRefusal u (t.get .kekRefusal u)).setBlob .kekValue u []
  | .slotLoad | .slotErase => (s.set .slotRefusal u (t.get .slotRefusal u)).raise (evDev 86) []
  | _ => s

/-- A checked entry staged; a select also takes its value at once (R349). The mode and range rules of an object are those that its
write answers with 0x06 and 0x07: they refuse at staging too (R348). -/
def State.stageObject (s : State) (cl : Client) (ix sub : Nat) (r : Reg) (i : Nat) (v : WVal) : State × Answer :=
  match s.checkWrite cl r i v with
  | some a => (s.lengthRefused cl r a, a)
  | none =>
    let go := fun (s : State) => match s.stage cl ⟨r, s.unitOf cl r i, i, ix, sub, v⟩ with
      | (t, .ack _) => (if r.perSource then (writeSelect cl r i (writtenNum v) t).1 else t, accepted)
      | (t, a) => (t, a)
    match applyWrite cl r (s.unitOf cl r i) v s with
    | (t, .abort c d p) =>
      if c = 0x06 ∨ c = 0x07 then (s.keyRefused t r (s.unitOf cl r i), .abort c d p) else go s
    | (_, .ack _) => go s

/-- BDAP_STAGED_WRITE (R348). -/
def execBdapStagedWrite (cl : Client) (ix : Fin 65536) (sub : Fin 256) (ty : Fin 256) (val : List Byte) (s : State) :
    Host.Outcome State Fault Refusal :=
  .next (s.serveObject cl ix sub fun s r i =>
    match wireAbort r i ty val.length with
    | some a => (s, a)
    | none => writeAck ix sub (s.stageObject cl ix sub r i (clientValue cl r i val)) [])

/-- An object whose write starts an action (R349). -/
def Reg.isAction (r : Reg) : Bool :=
  decide (r.access = .wo) || r == .deviceModeRequest || r == .carrierRequest || r == .calFgRequest

/-- Two entries start one action: of one object, or two steps of one time base (R411). -/
def Staged.sameAction (a b : Staged) : Bool :=
  let step := fun (r : Reg) => r == .tbaseSet || r == .tbaseOffset
  (a.reg == b.reg || (step a.reg && step b.reg)) && a.unit == b.unit

/-- An object whose write clears latched events (R382). -/
def Reg.clearsLatched (r : Reg) : Bool := r == .eventLatched || r == .ringClearLatched

/-- The clears among the entries of a COMMIT, ahead of the rest: an event that the COMMIT raises is taken after them (R382). -/
def State.commitClears (s : State) (cl : Client) (l : List Staged) : State :=
  s.each (l.filter fun e => e.reg.clearsLatched) fun s e =>
    match s.checkWrite cl e.reg e.inst e.val with
    | some _ => s
    | none => (applyWrite cl e.reg e.unit e.val s).1

/-- One entry of a COMMIT: every check again; of the earlier entries of an action's object only mode and range (R349), and a clear
has been made already. -/
def State.commitEntry (s : State) (cl : Client) (e : Staged) (superseded : Bool) : State × Answer :=
  match s.checkWrite cl e.reg e.inst e.val with
  | some a => (s, a)
  | none =>
    if e.reg.clearsLatched then (s, accepted)
    else
      match applyWrite cl e.reg e.unit e.val s with
      | (t, .abort c d p) => if superseded ∧ c ≠ 0x06 ∧ c ≠ 0x07 then (s, accepted) else (t, .abort c d p)
      | (t, .ack p) => (if superseded then s else t, .ack p)

/-- The objects that keep a refusal reason of their own and the unit that an entry for unit u concerns (R352). -/
def reasonsKept (u : Nat) : List (Reg × Nat) := [
  (.deviceModeRefusal, 0), (.pairRefusal, 0), (.tsiRefusal, 0), (.tsiRefusal, 1), (.calRefusal, 0), (.kekRefusal, u),
  (.slotRefusal, u)]

/-- What a refusal leaves of an entry that would not be refused before its commit. -/
def State.keepOther (s t : State) (e : Staged) : State :=
  let s := s.each (reasonsKept e.unit) fun s x => s.set x.1 x.2 (t.get x.1 x.2)
  match e.reg with
  | .tbaseSet | .tbaseOffset => ((s.bump .tbaseStepsRefused e.unit).set .tbaseRefusedFlag e.unit 1).raise (evDev 32) [u16 e.unit]
  | _ => s.keyRefused t e.reg e.unit

/-- What a refusal leaves though nothing of its commit is applied (R40): the reason recorded, the staged value of a key-encryption
key zeroed (R276), the event of a refused load or erase (R277), and count, flag and event of a refused time step (R402). s is the
state before the commit, t that after the refused entry. Where the entry is refused alike before the commit, that says it all. -/
def State.keepRefusal (s t : State) (cl : Client) (e : Staged) (a : Answer) : State :=
  match s.commitEntry cl e false with
  | (u, .abort c d p) => if a = .abort c d p then u else s.keepOther t e
  | _ => s.keepOther t e

/-- The entries of a COMMIT from place n on; s0 is what a refusal leaves, with the refused entry's reason. -/
def commitFrom (s0 : State) (cl : Client) (n : Nat) : List Staged → State → State × Answer
  | [], s => (s, .ack (leBytes 2 n))
  | e :: t, s =>
    match s.commitEntry cl e (e.reg.isAction && t.any e.sameAction) with
    | (s, .ack _) => commitFrom s0 cl (n + 1) t s
    | (t', .abort c d p) => (s0.keepRefusal t' cl e (.abort c d p), .abort 0x0E c n)

/-- A client's buffer applied in one step, or refused whole. -/
def State.commit (s : State) (cl : Client) : State × Answer :=
  match s.stagedBy cl with
  | none => (s, .ack (leBytes 2 0))
  | some b =>
    let s := s.unstage cl.mac cl.fore
    commitFrom s cl 0 b.entries (s.commitClears cl b.entries)

/-- BDAP_COMMIT (R349). -/
def execBdapCommit (cl : Client) (s : State) : Host.Outcome State Fault Refusal :=
  .next (s.serve cl (0, 0) fun s =>
    if s.clientClass cl.mac < 1 then (s, refusedWith 0x09) else s.commit cl).afterReset

/-- BDAP_COMMIT_DISCARD (R348). -/
def execBdapCommitDiscard (cl : Client) (s : State) : Host.Outcome State Fault Refusal :=
  .next (s.serve cl (0, 0) fun s =>
    if s.clientClass cl.mac < 1 then (s, refusedWith 0x09)
    else (s.unstage cl.mac cl.fore, .ack (leBytes 2 0)))

/-- STAGING_TIMEOUT (R348): no staged write from the source for 1200.04 ms. -/
def execStagingTimeout (mac : Nat) (fore : Bool) (s : State) : Host.Outcome State Fault Refusal :=
  s.live fun s =>
    if s.staging.any fun x => x.mac == mac && x.fore == fore
        && decide (250000 * s.get .bdapStagingTimeout 0 ≤ s.get .xTicks 0 - x.at_) then
      (s.unstage mac fore).raise (evDev 115) []
    else s

/-! ## WRITE_BLOCK (R347) -/

/-- The state without a source's open transfer: it has at most one, whichever station it addresses (R347, R357). -/
def State.dropTransfer (s : State) (mac : Nat) : State :=
  { s with transfers := s.transfers.filter fun x => x.mac != mac }

/-- The bytes received so far joined by a segment; the last segment writes the value. -/
def State.segment (s : State) (cl : Client) (x : Transfer) (r : Reg) (i : Nat) (last : Bool) (data : List Byte) :
    State × Answer :=
  let d := x.data ++ data
  let s := s.dropTransfer cl.mac
  if x.total < d.length ∨ (last ∧ d.length ≠ x.total) then (s, refusedWith 0x0C)
  else
    let next := leBytes 4 (d.length : Nat)
    if last then writeAck x.ix x.sub (s.writeObject cl r i (.bytes d)) next
    else
      ({ s with transfers := s.transfers ++ [{ x with data := d, at_ := s.nat .xTicks 0 }] },
        .ack (leBytes 2 x.ix ++ leBytes 1 x.sub ++ next))

/-- A first segment: type, access, class, mode and total are checked before its data is taken. -/
def State.firstSegment (s : State) (cl : Client) (x : Transfer) (r : Reg) (i offset : Nat) (last : Bool)
    (data : List Byte) : State × Answer :=
  let s := s.dropTransfer cl.mac
  if r.wireAt i ≠ .domain then (s, refusedWith 0x03)
  else
    match s.accessAbort cl r with
    | some a => (s, a)
    | none =>
      match lengthAbort cl r i x.total with
      | some a => (s.lengthRefused cl r a, a)
      | none => if offset ≠ 0 then (s, refusedWith 0x0C) else s.segment cl x r i last data

/-- A later segment continues the open transfer of its source. -/
def State.laterSegment (s : State) (cl : Client) (ix sub : Nat) (r : Reg) (i total offset : Nat) (last : Bool)
    (data : List Byte) : State × Answer :=
  match s.transfers.find? fun x => x.mac == cl.mac && x.fore == cl.fore with
  | none => (s, refusedWith (if r.wireAt i = .domain then 0x0C else 0x03))
  | some x =>
    if x.ix ≠ ix ∨ x.sub ≠ sub ∨ x.total ≠ total ∨ offset ≠ x.data.length then
      (s.dropTransfer cl.mac, refusedWith 0x0C)
    else s.segment cl x r i last data

/-- BDAP_WRITE_BLOCK (R347). -/
def execBdapWriteBlock (cl : Client) (ix : Fin 65536) (sub : Fin 256) (first last : Bool) (total offset : Fin 4294967296)
    (data : List Byte) (s : State) : Host.Outcome State Fault Refusal :=
  .next (s.serveObject cl ix sub fun s r i =>
    if first then s.firstSegment cl ⟨cl.mac, cl.fore, ix, sub, total, [], 0⟩ r i offset last data
    else s.laterSegment cl ix sub r i total offset last data).afterReset

/-- BLOCK_TRANSFER_TIMEOUT (R347): no segment from the source for 1 s. -/
def execBlockTransferTimeout (mac : Nat) (fore : Bool) (s : State) : Host.Outcome State Fault Refusal :=
  s.live fun s =>
    if s.transfers.any fun x => x.mac == mac && x.fore == fore && decide (x.at_ + 250000000 ≤ s.nat .xTicks 0) then
      s.dropTransfer mac
    else s

/-! ## SNAPSHOT (R351) -/

/-- BDAP_SNAPSHOT (R351). -/
def execBdapSnapshot (cl : Client) (s : State) : Host.Outcome State Fault Refusal :=
  .next (s.serve cl (0, 0) fun s =>
    if s.clientClass cl.mac < 1 then (s, refusedWith 0x09)
    else
      let s := s.snapshot 1
      let t := s.nat .xSnapPendTime 0
      (s, .ack (leBytes 4 (s.get .xSnapNumber 0) ++ leBytes 6 (t / 1000000000 : Nat) ++ leBytes 4 (t % 1000000000 : Nat))))

/-! ## Subscriptions (R350, R386) -/

/-- A subscription of a client. -/
def Subscriber.is (u : Subscriber) (mac : Nat) (fore : Bool) : Bool := u.mac == mac && u.fore == fore

/-- The lowest free subscriber slot. -/
def State.freeSlot (s : State) : Option Nat := (List.range 8).find? fun n => s.subscribers.all fun u => u.slot != n

/-- A client subscribes, or replaces its mask and port. -/
def State.subscribe (s : State) (cl : Client) (mask : Nat) : State × Answer :=
  match s.subscribers.find? fun u => u.is cl.mac cl.fore with
  | some u =>
    ({ s with subscribers := s.subscribers.map fun x =>
        if x.slot = u.slot then { x with mask := mask, port := cl.port } else x }, .ack (leBytes 1 u.slot))
  | none =>
    match s.freeSlot with
    | none => (s, refusedWith 0x10)
    | some n =>
      ({ s with subscribers := s.subscribers ++ [⟨n, cl.mac, cl.fore, cl.port, mask, [], 0, 0, 0, none⟩] },
        .ack (leBytes 1 n))

/-- BDAP_SUBSCRIBE (R350). -/
def execBdapSubscribe (cl : Client) (mask : Fin 256) (s : State) : Host.Outcome State Fault Refusal :=
  .next (s.serve cl (0, 0) fun s => s.subscribe cl mask)

/-- BDAP_UNSUBSCRIBE (R350). -/
def execBdapUnsubscribe (cl : Client) (s : State) : Host.Outcome State Fault Refusal :=
  .next (s.serve cl (0, 0) fun s =>
    match s.subscribers.find? fun u => u.is cl.mac cl.fore with
    | some u => ({ s with subscribers := s.subscribers.filter fun x => x.slot != u.slot }, .ack (leBytes 1 u.slot))
    | none => (s, .ack [0xFF]))

/-- The subscriber in a slot replaced. -/
def State.setSubscriber (s : State) (u : Subscriber) : State :=
  { s with subscribers := s.subscribers.map fun x => if x.slot = u.slot then u else x }

/-- An EVENT sent on its subscriber's port: the number of records, 0, and the records (R350). -/
def State.sendEvent (s : State) (u : Subscriber) (a : Awaiting) : State :=
  let f := messageFrame u.mac (s.station u.fore) 0x08 a.seq
    (leBytes 1 a.records.length ++ [0] ++ a.records.flatMap EventRec.bytes)
  (s.emit (.event u.port u.mac u.fore a.seq a.records f)).bump .mgtFramesTx u.port.val

/-- The gap record of an EVENT formed now (R386). -/
def State.gapRecord (s : State) (u : Subscriber) : List EventRec :=
  if u.gapCount = 0 then [] else [⟨0xFFFF, 32, u.gapSeq, s.now, layout [u32 u.gapCount]⟩]

/-- The next EVENT of a subscriber: at most 43 records, when none awaits acknowledgement (R350, R386). -/
def State.eventSend (s : State) (n : Nat) : State :=
  match s.subscribers.find? fun u => u.slot == n with
  | none => s
  | some u =>
    if u.awaiting.isSome || (u.queue.isEmpty && u.gapCount == 0) then s
    else
      let gap := s.gapRecord u
      let k := 43 - gap.length
      let a : Awaiting := ⟨u.nextSeq, gap ++ (u.queue.take k).filterMap fun r => r.seen u.fore, 1⟩
      (s.setSubscriber { u with queue := u.queue.drop k, gapCount := 0, gapSeq := 0,
                                nextSeq := (u.nextSeq + 1) % 65536, awaiting := some a }).sendEvent u a

/-- EVENT_SEND (R350). -/
def execEventSend (n : Fin 8) (s : State) : Host.Outcome State Fault Refusal := s.live fun s => s.eventSend n

/-- 20 ms without acknowledgement: the EVENT is sent again, up to 3 times, then the subscription lapses (R350). -/
def State.eventResend (s : State) (n : Nat) : State :=
  match s.subscribers.find? fun u => u.slot == n with
  | none => s
  | some u =>
    match u.awaiting with
    | none => s
    | some a =>
      if a.tries < 4 then
        (s.setSubscriber { u with awaiting := some { a with tries := a.tries + 1 } }).sendEvent u a
      else
        (({ s with subscribers := s.subscribers.filter fun x => x.slot != n } : State).bump .bdapLapses 0).raise (evDev 112) []

/-- EVENT_RESEND (R350). -/
def execEventResend (n : Fin 8) (s : State) : Host.Outcome State Fault Refusal := s.live fun s => s.eventResend n

/-- A subscriber's ACK: it releases the EVENT it answers, or is counted as ignored (R344, R350). -/
def State.eventAck (s : State) (cl : Client) : State :=
  match s.subscribers.find? fun u => u.is cl.mac cl.fore with
  | some u =>
    match u.awaiting with
    | some a => if a.seq = cl.seq then s.setSubscriber { u with awaiting := none } else s.bump .bdapDiscarded 0
    | none => s.bump .bdapDiscarded 0
  | none => s.bump .bdapDiscarded 0

/-- EVENT_ACK_RECEIVE (R350). -/
def execEventAckReceive (cl : Client) (s : State) : Host.Outcome State Fault Refusal :=
  .next (if s.answers cl then (s.hear cl.mac).eventAck cl else s)

/-! ## Frames (R343 to R346) -/

/-- The 48-bit address that six bytes spell, first octet highest. -/
def macOf (b : List Byte) : Nat := (b.take 6).foldl (fun a x => 256 * a + x.toNat) 0

/-- The payload of a request read into a request body; none where it does not match the opcode (R344). -/
def parseBody (op flags : Nat) (p : List Byte) : Option ReqBody :=
  let n := fun (o w : Nat) => leNat ((p.drop o).take w)
  if (if op = 2 then 1 else if op = 4 then 6 else 0) ||| flags ≠ (if op = 2 then 1 else if op = 4 then 6 else 0) then none
  else
    match op with
    | 1 => if p.length = 4 then some (.read (n 0 2) (n 2 1)) else none
    | 2 =>
      if 6 ≤ p.length ∧ p.length = 6 + n 4 2 ∧ n 4 2 ≤ 1388 then
        some (.write (n 0 2) (n 2 1) (n 3 1) (p.drop 6) (bitOf flags 0))
      else none
    | 3 => if p.length = 10 then some (.readBlock (n 0 2) (n 2 1) (n 4 4) (n 8 2)) else none
    | 4 =>
      if 12 ≤ p.length ∧ p.length ≤ 1400 then
        some (.writeBlock (n 0 2) (n 2 1) (bitOf flags 1) (bitOf flags 2) (n 4 4) (n 8 4) (p.drop 12))
      else none
    | 5 => if p.length = 1 then (if n 0 1 = 1 then some .commit else if n 0 1 = 2 then some .discard else none) else none
    | 6 => if p.isEmpty then some .snapshot else none
    | 7 =>
      if p.length = 2 then (if n 1 1 = 1 then some (.subscribe (n 0 1)) else if n 1 1 = 0 then some .unsubscribe else none)
      else none
    | _ => none

/-- The body of a message of which the data field of a frame of `size` bytes before the FCS begins with the header
(R344). -/
def parseMessage (size : Nat) (d : List Byte) : ReqBody :=
  let n := fun (o w : Nat) => leNat ((d.drop o).take w)
  let len := n 6 2
  if n 0 1 ≠ 1 ∨ 1400 < len ∨ d.length < 8 + len ∨ (8 + len ≠ d.length ∧ size ≠ 60) then .malformed
  else (parseBody (n 1 1) (n 4 1) ((d.drop 8).take len)).getD .malformed

/-- A request message from a source at a station: ignored, a duplicate, turned away by a full queue, refused as malformed
where nothing waits before it, or queued (R345, R346, R353). -/
def State.arrive (s : State) (cl : Client) (body : ReqBody) : State :=
  let s := s.hear cl.mac
  if s.clientClass cl.mac = 3 then s.ignore cl
  else
    match (s.view cl).recent.find? fun x => x.seq == cl.seq with
    | some x => s.duplicate cl x
    | none =>
      if 32 ≤ s.requests.length then s.bump .bdapDiscarded 0
      else if body = .malformed ∧ s.requests = [] then (s.take cl).reply cl (.abort 0 0 0x0F 0 0)
      else let s := s.take cl; { s with requests := s.requests ++ [⟨cl, body⟩] }

/-- A message taken at a station: an ACK is matched, other opcodes only the device sends are counted, requests arrive. -/
def State.message (s : State) (port : Fin 2) (fore : Bool) (src size : Nat) (d : List Byte) : State :=
  if d.length < 8 then s.bump .bdapDiscarded 0
  else
    let op := leNat ((d.drop 1).take 1)
    let cl : Client := ⟨src, port, fore, leNat ((d.drop 2).take 2)⟩
    if op = 8 ∨ op = 10 then s.bump .bdapDiscarded 0
    else if op = 9 then (s.hear src).eventAck cl
    else s.arrive cl (parseMessage size d)

/-- A READ of index 1000 (R343). -/
def isIdentityRead (size : Nat) (d : List Byte) : Bool :=
  match parseMessage size d with
  | .read ix _ => ix == 0x1000
  | _ => false

/-- The stations that take a frame: none ignores it (R343). -/
def State.stationsFor (s : State) (f : List Byte) : List Bool :=
  let dst := macOf f
  let addr := s.nat .bootStraps 0
  let on := s.flag .forerunnerActive 0
  if be16 f 12 ≠ 0x88B5 then []
  else if dst = nativeStation addr then [false]
  else if dst = foreStation addr && on then [true]
  else if dst = 0xFFFFFFFFFFFF && isIdentityRead f.length (f.drop 14) then (if on then [false, true] else [false])
  else []

/-- A frame arrives on a management port: its bytes from destination address to the end of the data field. -/
def State.frameIn (s : State) (port : Fin 2) (f : List Byte) (inverted : Bool) : State :=
  let s := s.setFlag .mgtPolarityInverted port inverted
  let l := s.stationsFor f
  if l.isEmpty then s
  else (s.bump .mgtFramesRx port).each l fun s fore => s.message port fore (macOf (f.drop 6)) f.length (f.drop 14)

/-- BDAP_FRAME_RECEIVE (R343); inverted = the pair's polarity is reversed. -/
def execBdapFrameReceive (port : Fin 2) (frame : List Byte) (inverted : Bool) (s : State) :
    Host.Outcome State Fault Refusal :=
  s.live fun s => s.frameIn port frame inverted

/-! ## PLCA (R342) -/

/-- The status of a management port changes: 2 (CSMA/CD) is that of a port whose PLCA is disabled, and of no other; a coordinator
sends the beacon itself (log entry 48). -/
def State.plcaStatus (s : State) (port status : Nat) : State :=
  if decide (status = 2) = s.flag .mgtPlcaEnable port ∨ (s.plcaCoordinator port ∧ status ≠ 1) then s else s.setPlca port status

/-- MGT_PLCA_STATUS_CHANGE (R342). -/
def execMgtPlcaStatusChange (port : Fin 2) (status : Fin 3) (s : State) : Host.Outcome State Fault Refusal :=
  s.live fun s => s.plcaStatus port status

end Sys2Proof.Machine
end

