-- ==== Sys2Proof/Machine/Dispatch.lean ====
section
/-! DEFINITION. One arm per command: the meaning it calls. -/

namespace Sys2Proof.Machine

/-- The effect of a command on everything but the queue of waiting commands. -/
def exec (i : Instr) (s : State) : Host.Outcome State Fault Refusal :=
  match i with
  | .porstNLow => Sys2Proof.Machine.execPorstNLow s
  | .porstNRise straps railsOk => Sys2Proof.Machine.execPorstNRise straps railsOk s
  | .sysrstNLow => Sys2Proof.Machine.execSysrstNLow s
  | .sysrstNRise => Sys2Proof.Machine.execSysrstNRise s
  | .warmResetCommand cl => Sys2Proof.Machine.execWarmResetCommand cl s
  | .fuseLoadStart => Sys2Proof.Machine.execFuseLoadStart s
  | .fuseLoadEnd failed => Sys2Proof.Machine.execFuseLoadEnd failed s
  | .imageLoadComplete flash second => Sys2Proof.Machine.execImageLoadComplete flash second s
  | .hbmTrainingComplete => Sys2Proof.Machine.execHbmTrainingComplete s
  | .hostImageLoad cl => Sys2Proof.Machine.execHostImageLoad cl s
  | .forerunnerEnableWrite cl v => Sys2Proof.Machine.execForerunnerEnableWrite cl v s
  | .requestDormant cl => Sys2Proof.Machine.execRequestDormant cl s
  | .requestTrim cl => Sys2Proof.Machine.execRequestTrim cl s
  | .requestCatch cl => Sys2Proof.Machine.execRequestCatch cl s
  | .requestCarry cl => Sys2Proof.Machine.execRequestCarry cl s
  | .requestPair cl => Sys2Proof.Machine.execRequestPair cl s
  | .requestHaven cl => Sys2Proof.Machine.execRequestHaven cl s
  | .modeTransitionComplete failed => Sys2Proof.Machine.execModeTransitionComplete failed s
  | .carrierRequest cl c v => Sys2Proof.Machine.execCarrierRequest cl c v s
  | .guardLoopPeriod m hand => Sys2Proof.Machine.execGuardLoopPeriod m hand s
  | .guardControlLost g => Sys2Proof.Machine.execGuardControlLost g s
  | .rxStrokeArrival c codes => Sys2Proof.Machine.execRxStrokeArrival c codes s
  | .txStrokePeriod c => Sys2Proof.Machine.execTxStrokePeriod c s
  | .gapMarkerWrite c => Sys2Proof.Machine.execGapMarkerWrite c s
  | .coreStrokeRelease c first next => Sys2Proof.Machine.execCoreStrokeRelease c first next s
  | .coreStrokeAccept c msaX msaY reads => Sys2Proof.Machine.execCoreStrokeAccept c msaX msaY reads s
  | .gapMarkerReached c symbols => Sys2Proof.Machine.execGapMarkerReached c symbols s
  | .strokeBoundaryApply c => Sys2Proof.Machine.execStrokeBoundaryApply c s
  | .reflLoss k present offset => Sys2Proof.Machine.execReflLoss k present offset s
  | .reflRelock k offset => Sys2Proof.Machine.execReflRelock k offset s
  | .reflHoldoverAtTrim k => Sys2Proof.Machine.execReflHoldoverAtTrim k s
  | .agcWindowEnd c rms unflagged => Sys2Proof.Machine.execAgcWindowEnd c rms unflagged s
  | .gainStepApply c => Sys2Proof.Machine.execGainStepApply c s
  | .manualGainStep c => Sys2Proof.Machine.execManualGainStep c s
  | .openTestRequest cl c => Sys2Proof.Machine.execOpenTestRequest cl c s
  | .openTestComplete c shiftP shiftN => Sys2Proof.Machine.execOpenTestComplete c shiftP shiftN s
  | .dacShortDetect d leg => Sys2Proof.Machine.execDacShortDetect d leg s
  | .shortRetryTrial d leg => Sys2Proof.Machine.execShortRetryTrial d leg s
  | .shortTrialEnd d leg engaged => Sys2Proof.Machine.execShortTrialEnd d leg engaged s
  | .foregroundCalComplete c adcs dacs => Sys2Proof.Machine.execForegroundCalComplete c adcs dacs s
  | .recalRequest cl mask => Sys2Proof.Machine.execRecalRequest cl mask s
  | .bgCalStepStart u => Sys2Proof.Machine.execBgCalStepStart u s
  | .bgCalMeasureComplete u m => Sys2Proof.Machine.execBgCalMeasureComplete u m s
  | .bankStandbyWrite cl b v => Sys2Proof.Machine.execBankStandbyWrite cl b v s
  | .bankCommitSwap cl b => Sys2Proof.Machine.execBankCommitSwap cl b s
  | .bankCommitCrossfade cl b => Sys2Proof.Machine.execBankCommitCrossfade cl b s
  | .crossfadeEnd b => Sys2Proof.Machine.execCrossfadeEnd b s
  | .bankComputeComplete b => Sys2Proof.Machine.execBankComputeComplete b s
  | .deskewAutoTrim c residual => Sys2Proof.Machine.execDeskewAutoTrim c residual s
  | .polAdaptBlock c k => Sys2Proof.Machine.execPolAdaptBlock c k s
  | .rxFrameStart c m => Sys2Proof.Machine.execRxFrameStart c m s
  | .ncAdaptBlock c k => Sys2Proof.Machine.execNcAdaptBlock c k s
  | .pilotGroupCheck c ns ps => Sys2Proof.Machine.execPilotGroupCheck c ns ps s
  | .surveyRefresh c l rmsX rmsY => Sys2Proof.Machine.execSurveyRefresh c l rmsX rmsY s
  | .catchMatch c l => Sys2Proof.Machine.execCatchMatch c l s
  | .tentativeEntry c frequency => Sys2Proof.Machine.execTentativeEntry c frequency s
  | .rxLoopRelock c => Sys2Proof.Machine.execRxLoopRelock c s
  | .codewordDecode c m => Sys2Proof.Machine.execCodewordDecode c m s
  | .txMultiframeBoundary c l => Sys2Proof.Machine.execTxMultiframeBoundary c l s
  | .rxMultiframeBoundary c m => Sys2Proof.Machine.execRxMultiframeBoundary c m s
  | .rxLogicalFrame c m => Sys2Proof.Machine.execRxLogicalFrame c m s
  | .txPageFlip cl mask => Sys2Proof.Machine.execTxPageFlip cl mask s
  | .rxPageFlip cl mask => Sys2Proof.Machine.execRxPageFlip cl mask s
  | .defectDeclare c bit t => Sys2Proof.Machine.execDefectDeclare c bit t s
  | .defectClear c bit t => Sys2Proof.Machine.execDefectClear c bit t s
  | .ohpInBurst c gcc => Sys2Proof.Machine.execOhpInBurst c gcc s
  | .ohpOutBurst c => Sys2Proof.Machine.execOhpOutBurst c s
  | .hostFrameReceive p x fec => Sys2Proof.Machine.execHostFrameReceive p x fec s
  | .pfcResend p => Sys2Proof.Machine.execPfcResend p s
  | .clsInsert cl => Sys2Proof.Machine.execClsInsert cl s
  | .clsDelete cl => Sys2Proof.Machine.execClsDelete cl s
  | .clsLookup cl => Sys2Proof.Machine.execClsLookup cl s
  | .clsClearAll cl => Sys2Proof.Machine.execClsClearAll cl s
  | .clsOpComplete => Sys2Proof.Machine.execClsOpComplete s
  | .clsBulkLoad cl v => Sys2Proof.Machine.execClsBulkLoad cl v s
  | .flowEntryWrite cl v => Sys2Proof.Machine.execFlowEntryWrite cl v s
  | .flowTableLoad cl v => Sys2Proof.Machine.execFlowTableLoad cl v s
  | .calendarFlip cl => Sys2Proof.Machine.execCalendarFlip cl s
  | .mapperNextFrame t reads => Sys2Proof.Machine.execMapperNextFrame t reads s
  | .rxTribRowWrite cl v => Sys2Proof.Machine.execRxTribRowWrite cl v s
  | .egressFrameSend p reads late => Sys2Proof.Machine.execEgressFrameSend p reads late s
  | .groupMembersWrite cl g mask => Sys2Proof.Machine.execGroupMembersWrite cl g mask s
  | .bondExitWaitExpiry g => Sys2Proof.Machine.execBondExitWaitExpiry g s
  | .alignWaitExpiry g => Sys2Proof.Machine.execAlignWaitExpiry g s
  | .boathouseRelease g slots => Sys2Proof.Machine.execBoathouseRelease g slots s
  | .groupRealign cl g => Sys2Proof.Machine.execGroupRealign cl g s
  | .txCipherBlock t payload reads k => Sys2Proof.Machine.execTxCipherBlock t payload reads k s
  | .rxBlockCheck t word0 word1 payload tag reads k => Sys2Proof.Machine.execRxBlockCheck t word0 word1 payload tag reads k s
  | .kekProgram cl n => Sys2Proof.Machine.execKekProgram cl n s
  | .kekRevoke cl n => Sys2Proof.Machine.execKekRevoke cl n s
  | .kekProgramComplete n good => Sys2Proof.Machine.execKekProgramComplete n good s
  | .keyprovNRise => Sys2Proof.Machine.execKeyprovNRise s
  | .keyLoad cl d => Sys2Proof.Machine.execKeyLoad cl d s
  | .keyErase cl => Sys2Proof.Machine.execKeyErase cl s
  | .keySwitchComplete n => Sys2Proof.Machine.execKeySwitchComplete n s
  | .zeroNFall => Sys2Proof.Machine.execZeroNFall s
  | .cipherBindingWrite cl dir v => Sys2Proof.Machine.execCipherBindingWrite cl dir v s
  | .laneBringupStep h m => Sys2Proof.Machine.execLaneBringupStep h m s
  | .laneStepTimeout h => Sys2Proof.Machine.execLaneStepTimeout h s
  | .laneLosSet h => Sys2Proof.Machine.execLaneLosSet h s
  | .laneLosClear h => Sys2Proof.Machine.execLaneLosClear h s
  | .laneLockLoss h => Sys2Proof.Machine.execLaneLockLoss h s
  | .laneRelockTimeout h => Sys2Proof.Machine.execLaneRelockTimeout h s
  | .refhLoss k => Sys2Proof.Machine.execRefhLoss k s
  | .pairFaultDetect h cmP cmN => Sys2Proof.Machine.execPairFaultDetect h cmP cmN s
  | .pairTest cl h reading => Sys2Proof.Machine.execPairTest cl h reading s
  | .dfeAdaptWindow h sums snr bits => Sys2Proof.Machine.execDfeAdaptWindow h sums snr bits s
  | .laneDeepLowPower h => Sys2Proof.Machine.execLaneDeepLowPower h s
  | .octetOrderSearch o straight reversed => Sys2Proof.Machine.execOctetOrderSearch o straight reversed s
  | .portAligned p => Sys2Proof.Machine.execPortAligned p s
  | .portUp p => Sys2Proof.Machine.execPortUp p s
  | .portLocalFault p markers skew inFrame => Sys2Proof.Machine.execPortLocalFault p markers skew inFrame s
  | .rateMatchAdjust p enter send demap egress => Sys2Proof.Machine.execRateMatchAdjust p enter send demap egress s
  | .prbsInject cl h => Sys2Proof.Machine.execPrbsInject cl h s
  | .prbsInjectPeriodic h => Sys2Proof.Machine.execPrbsInjectPeriodic h s
  | .scrubRead m line r idle => Sys2Proof.Machine.execScrubRead m line r idle s
  | .eccWriteBack m line reader covered => Sys2Proof.Machine.execEccWriteBack m line reader covered s
  | .spareRowCopyComplete m row => Sys2Proof.Machine.execSpareRowCopyComplete m row s
  | .hbmRepairComplete k ok => Sys2Proof.Machine.execHbmRepairComplete k ok s
  | .bdapFrameReceive port frame inverted => Sys2Proof.Machine.execBdapFrameReceive port frame inverted s
  | .bdapRead cl ix sub => Sys2Proof.Machine.execBdapRead cl ix sub s
  | .bdapWrite cl ix sub ty val => Sys2Proof.Machine.execBdapWrite cl ix sub ty val s
  | .bdapStagedWrite cl ix sub ty val => Sys2Proof.Machine.execBdapStagedWrite cl ix sub ty val s
  | .bdapReadBlock cl ix sub offset max => Sys2Proof.Machine.execBdapReadBlock cl ix sub offset max s
  | .bdapWriteBlock cl ix sub first last total offset data => Sys2Proof.Machine.execBdapWriteBlock cl ix sub first last total offset data s
  | .bdapCommit cl => Sys2Proof.Machine.execBdapCommit cl s
  | .bdapCommitDiscard cl => Sys2Proof.Machine.execBdapCommitDiscard cl s
  | .bdapSnapshot cl => Sys2Proof.Machine.execBdapSnapshot cl s
  | .bdapSubscribe cl mask => Sys2Proof.Machine.execBdapSubscribe cl mask s
  | .bdapUnsubscribe cl => Sys2Proof.Machine.execBdapUnsubscribe cl s
  | .eventAckReceive cl => Sys2Proof.Machine.execEventAckReceive cl s
  | .eventSend n => Sys2Proof.Machine.execEventSend n s
  | .eventResend n => Sys2Proof.Machine.execEventResend n s
  | .stagingTimeout mac fore => Sys2Proof.Machine.execStagingTimeout mac fore s
  | .blockTransferTimeout mac fore => Sys2Proof.Machine.execBlockTransferTimeout mac fore s
  | .ringPost cl n b => Sys2Proof.Machine.execRingPost cl n b s
  | .ringResume cl n => Sys2Proof.Machine.execRingResume cl n s
  | .ringSkip cl n => Sys2Proof.Machine.execRingSkip cl n s
  | .ringFlush cl n => Sys2Proof.Machine.execRingFlush cl n s
  | .moverGranule bad => Sys2Proof.Machine.execMoverGranule bad s
  | .windowWrite cl v => Sys2Proof.Machine.execWindowWrite cl v s
  | .captureArm cl c => Sys2Proof.Machine.execCaptureArm cl c s
  | .captureStop cl c => Sys2Proof.Machine.execCaptureStop cl c s
  | .captureComplete c => Sys2Proof.Machine.execCaptureComplete c s
  | .clearAllLatched cl => Sys2Proof.Machine.execClearAllLatched cl s
  | .eventLatchClear cl e => Sys2Proof.Machine.execEventLatchClear cl e s
  | .inputSample levels ago => Sys2Proof.Machine.execInputSample levels ago s
  | .inputStuck input => Sys2Proof.Machine.execInputStuck input s
  | .inputRateWindowEnd => Sys2Proof.Machine.execInputRateWindowEnd s
  | .snapshotGatherComplete => Sys2Proof.Machine.execSnapshotGatherComplete s
  | .clearWraps cl mask => Sys2Proof.Machine.execClearWraps cl mask s
  | .counterFilterRead cl max => Sys2Proof.Machine.execCounterFilterRead cl max s
  | .timeTick => Sys2Proof.Machine.execTimeTick s
  | .timeStepOffset cl t v => Sys2Proof.Machine.execTimeStepOffset cl t v s
  | .timeSetAbsolute cl t b => Sys2Proof.Machine.execTimeSetAbsolute cl t b s
  | .trefOutOfTolerance offset => Sys2Proof.Machine.execTrefOutOfTolerance offset s
  | .trefReturn offset => Sys2Proof.Machine.execTrefReturn offset s
  | .ppsOutFall j => Sys2Proof.Machine.execPpsOutFall j s
  | .tsQueuePop cl => Sys2Proof.Machine.execTsQueuePop cl s
  | .railSample v => Sys2Proof.Machine.execRailSample v s
  | .brownout r => Sys2Proof.Machine.execBrownout r s
  | .sensorSample sensor code => Sys2Proof.Machine.execSensorSample sensor code s
  | .sensorReadmit cl sensor => Sys2Proof.Machine.execSensorReadmit cl sensor s
  | .sensorReadmitComplete sensor => Sys2Proof.Machine.execSensorReadmitComplete sensor s
  | .shedRestore cl mask => Sys2Proof.Machine.execShedRestore cl mask s
  | .orderlyShutdownComplete => Sys2Proof.Machine.execOrderlyShutdownComplete s
  | .hkSeqStart cl k => Sys2Proof.Machine.execHkSeqStart cl k s
  | .hkInjectStart cl k => Sys2Proof.Machine.execHkInjectStart cl k s
  | .hkConversionComplete k m => Sys2Proof.Machine.execHkConversionComplete k m s
  | .hkCalRequest cl k => Sys2Proof.Machine.execHkCalRequest cl k s
  | .hkCalAuto k => Sys2Proof.Machine.execHkCalAuto k s
  | .hkCalComplete k m => Sys2Proof.Machine.execHkCalComplete k m s
  | .hkResultRead cl r => Sys2Proof.Machine.execHkResultRead cl r s
  | .tieHeartbeat lanes => Sys2Proof.Machine.execTieHeartbeat lanes s
  | .tieHeartbeatRx m bad => Sys2Proof.Machine.execTieHeartbeatRx m bad s
  | .tieLinkDown => Sys2Proof.Machine.execTieLinkDown s
  | .digestRecompute => Sys2Proof.Machine.execDigestRecompute s
  | .tieDigestRx d bad => Sys2Proof.Machine.execTieDigestRx d bad s
  | .tieKeyRecordRx n d bad => Sys2Proof.Machine.execTieKeyRecordRx n d bad s
  | .tieLeaseRx n g l bad => Sys2Proof.Machine.execTieLeaseRx n g l bad s
  | .tieLeaseAckRx n g l bad => Sys2Proof.Machine.execTieLeaseAckRx n g l bad s
  | .tieDeliveryRx c bsq bad => Sys2Proof.Machine.execTieDeliveryRx c bsq bad s
  | .tieTxAlignmentRx bsq time bad => Sys2Proof.Machine.execTieTxAlignmentRx bsq time bad s
  | .tieReleaseRx cause bad => Sys2Proof.Machine.execTieReleaseRx cause bad s
  | .tieSwitchRequestRx cause bad => Sys2Proof.Machine.execTieSwitchRequestRx cause bad s
  | .pairSwitch cl => Sys2Proof.Machine.execPairSwitch cl s
  | .pairSwitchForce cl => Sys2Proof.Machine.execPairSwitchForce cl s
  | .healthSwitch => Sys2Proof.Machine.execHealthSwitch s
  | .tieLossTakeover => Sys2Proof.Machine.execTieLossTakeover s
  | .refhReturn k => Sys2Proof.Machine.execRefhReturn k s
  | .synthesiserLock k => Sys2Proof.Machine.execSynthesiserLock k s
  | .zeroNRise => Sys2Proof.Machine.execZeroNRise s
  | .keyprovNFall => Sys2Proof.Machine.execKeyprovNFall s
  | .remoteFaultReceived p present => Sys2Proof.Machine.execRemoteFaultReceived p present s
  | .pairFaultClear h cmP cmN => Sys2Proof.Machine.execPairFaultClear h cmP cmN s
  | .prbsCheckerLock h bits => Sys2Proof.Machine.execPrbsCheckerLock h bits s
  | .prbsCheckerUnlock h => Sys2Proof.Machine.execPrbsCheckerUnlock h s
  | .rxGfpFrame t m => Sys2Proof.Machine.execRxGfpFrame t m s
  | .mgtPlcaStatusChange port status => Sys2Proof.Machine.execMgtPlcaStatusChange port status s
  | .hkSampleBoundary k => Sys2Proof.Machine.execHkSampleBoundary k s

end Sys2Proof.Machine
end

