-- ==== Sys2Proof/Safety.lean ====
section
/-! DEFINITION. What counts as a sound state of the block: every table in its canonical form and every queue within the
capacity the manual gives it. -/

namespace Sys2Proof

open Sys2Proof.Machine

/-- Registers, DOMAIN bytes, mover memory and wrap bits are in canonical form. -/
def Safety.tablesCanonical (s : State) : Prop :=
  swf regLt (fun k => Reg.dflt k.1 k.2) s.regs = true ∧ swf regLt (fun _ => []) s.blobs = true
    ∧ Memory.wf s.mem = true ∧ swf regLt (fun _ => false) s.wraps = true

/-- So are the queues of numbered units, the mover's descriptors and the classifier table. -/
def Safety.queuesCanonical (s : State) : Prop :=
  swf natLt (fun _ => []) s.rxSlack = true ∧ swf natLt (fun _ => []) s.polQueue = true
    ∧ swf natLt (fun _ => []) s.flowQueue = true ∧ swf natLt (fun _ => []) s.flowWords = true
    ∧ swf natLt (fun _ => []) s.tribQueue = true ∧ swf natLt (fun _ => []) s.descriptors = true
    ∧ swf natLt (fun _ => 0) s.classifier = true

/-- So are what each carrier's line holds, the words waiting for line positions, the taken bytes of queue tiles, the egress buffers,
and what each tributary holds of the words received for it. -/
def Safety.linesCanonical (s : State) : Prop :=
  swf natLt (fun _ => []) s.txSlack = true ∧ swf natLt (fun _ => TxLine.start) s.txLine = true
    ∧ swf natLt (fun _ => RxLine.start) s.rxLine = true ∧ swf natLt (fun _ => []) s.tribWords = true
    ∧ swf natLt (fun _ => []) s.flowTaken = true ∧ swf natLt (fun _ => []) s.tribTaken = true
    ∧ swf natLt (fun _ => []) s.egressBlocks = true ∧ swf natLt (fun _ => RxTrib.start) s.rxTribs = true

/-- The event ring holds at most 1,024 records and the history at most 64 (R384, R385). -/
def Safety.ringsBounded (s : State) : Prop := s.ring.length ≤ 1024 ∧ s.history.length ≤ 64

/-- At most 16 sources are kept, 32 messages queued and 4 staging buffers open (R340, R345, R348). -/
def Safety.managementBounded (s : State) : Prop :=
  s.sources.length ≤ 16 ∧ s.requests.length ≤ 32 ∧ s.staging.length ≤ 4

/-- Subscribers hold different slots of 0 to 7, so that there are at most 8 of them (R350). -/
def Safety.slotsDistinct (s : State) : Prop :=
  (s.subscribers.map Subscriber.slot).Nodup ∧ ∀ n ∈ s.subscribers.map Subscriber.slot, n < 8

/-- The timestamp queue and the repeat tracker hold at most 64 entries each (R330, R407). -/
def Safety.entriesBounded (s : State) : Prop := s.tsQueue.length ≤ 64 ∧ s.tracker.length ≤ 64

/-- Every queue is within its capacity. -/
def Safety.capacities (s : State) : Prop :=
  Safety.ringsBounded s ∧ Safety.managementBounded s ∧ Safety.slotsDistinct s ∧ Safety.entriesBounded s

/-! ## The parts of the state -/

/-- The parts of the state: the fields that are not registers, and the registers of each group of objects. -/
inductive Safety.Part where
  /-- where the block stands between power-up and work, and whether a warm reset is due -/
  | phase
  /-- every byte the mover reaches but the device's own windows -/
  | memory
  /-- event records, ring, history, latches and counts (B000, B600, 1003) -/
  | events
  /-- subscribers by slot -/
  | subscribers
  /-- sources, request queue, staging buffers and transfers, management counters (1200, 1201) -/
  | management
  /-- the forerunner view and the registration table (1300, 1F00) -/
  | views
  /-- identity objects (1000) -/
  | identity
  /-- configuration that only a write of its object changes -/
  | settings
  /-- device mode, its transition, Haven (2000) -/
  | mode
  /-- straps, microcode, resets (2E00, 2E01) -/
  | boot
  /-- power rails (2100) -/
  | rails
  /-- guard loops and power (2200) -/
  | guard
  /-- sensors, throttle stages, orderly shutdown (2300, 2380, 2500) -/
  | thermal
  /-- carrier states and requests (3000) -/
  | carriers
  /-- slack buffers (3010) -/
  | slack
  /-- transmit line: bits, symbols and samples between the logical frame and the DACs (R104, R194) -/
  | txLine
  /-- receive line: samples, symbols, decisions and LLRs between the ADCs and the line bits (R124, R206) -/
  | rxLine
  /-- references, synthesisers, loops (2400, 3020) -/
  | clocks
  /-- converters, gain, wiring, open test, shorts (3021, 3022, 4000 to 4601) -/
  | converters
  /-- converter calibration (D000, D100) -/
  | calibration
  /-- filter banks, transmit shaping and dispersion (3030 to 3034) -/
  | banks
  /-- receive dispersion (3040) -/
  | dispersion
  /-- deskew, front end, timing (3041, 3042, 3043) -/
  | frontEnd
  /-- polarisation equaliser and its queue (3044, 3046) -/
  | equaliser
  /-- monitored quantities (3048) -/
  | monitors
  /-- neighbour cancellation (3050, 3051) -/
  | neighbours
  /-- carrier recovery (3054) -/
  | recovery
  /-- survey, correlation, lock (3060 to 3063) -/
  | catching
  /-- profiles in force, decoding, loads (3070 to 3072) -/
  | coding
  /-- defects (3080 to 3083) -/
  | defects
  /-- line overhead (3084 to 3090) -/
  | overhead
  /-- host lanes and octets (5000 to 5010) -/
  | lanes
  /-- test patterns and loopback (F100) -/
  | patterns
  /-- client ports (5C00 to 5C08) -/
  | ports
  /-- timestamping and its queue (5C04, 8100) -/
  | ptp
  /-- classifier (6000) -/
  | classifier
  /-- flow entries and queues (6100, 6102) -/
  | flows
  /-- mapping calendar (6200, 6201) -/
  | calendar
  /-- tributary slot pages (6800, 6801) -/
  | pages
  /-- receive tributaries, egress, their queues (6802, 6900) -/
  | tributaries
  /-- bonding groups (7800, 7900) -/
  | bonding
  /-- cipher cores, shedding, key-erase and provisioning pins (7000) -/
  | cores
  /-- key-encryption keys (7001) -/
  | fuses
  /-- key slots: state, counters, leases (7010) -/
  | slots
  /-- traffic keys and their numbers -/
  | keys
  /-- cipher bindings (7100) -/
  | bindings
  /-- cipher block counters (7200) -/
  | crypt
  /-- time bases (8000) -/
  | time
  /-- pulse outputs and time reference (8040, 8F00) -/
  | timing
  /-- housekeeping converters (9000 to 9100) -/
  | housekeeping
  /-- counter snapshots and filters (A000 to A020) -/
  | snapshots
  /-- logic inputs and alert pins (B601, B700) -/
  | inputs
  /-- Pair and the tie link (C000 to C003) -/
  | pair
  /-- scrubbing and repair (E000, E100) -/
  | integrity
  /-- custody failures (E010) -/
  | custody
  /-- rings, windows and descriptors of the mover (2800 to 2A00) -/
  | mover
  /-- sample captures (F200) -/
  | captures
deriving DecidableEq, Repr

/-- The part a register belongs to. -/
def Safety.part (r : Reg) : Safety.Part :=
  match r with
  | .eventEnable | .eventLatched | .eventCount | .eventLastTime | .ringNextSeq | .ringOverwritten | .historyWritten =>
  .events
  | .bdapRequests | .bdapDuplicates | .bdapAborts | .bdapDiscarded | .bdapIgnored | .bdapLapses | .mgtPlcaNodeId |
  .mgtStatus | .mgtPolarityInverted | .mgtFramesRx | .mgtFramesTx | .xIgnoredSecond => .management
  | .forerunnerEnable | .forerunnerActive | .registrationRow => .views
  | .identityVendor | .identityPart | .identityStepping | .identityGrade | .identitySerial => .identity
  | .guardPeriod | .deviceHavenTxPolicy | .deviceHavenKeyPolicy | .deviceReset | .bootHostLoad | .adcAgcMode |
  .adcAgcManualGain | .adcAgcTarget | .adcAgcHysteresis | .dacEnable | .dacSwing | .dacShortRetryInterval |
  .carrierConvShortPolicy | .carrierWiringMode | .carrierWiringFixedMap | .carrierWiringTxMap |
  .carrierOpenTestRequest | .calFgRequest | .calBgAdcInterval | .calBgDacInterval | .bankCommit | .carrierTxPilotBoost
  | .carrierTxRmsTarget | .carrierTxClipThreshold | .carrierTxSkewXi | .carrierTxSkewXq | .carrierTxSkewYi |
  .carrierTxSkewYq | .carrierRxSkewAuto | .carrierRxFeEnable | .carrierRxFeDcShift | .carrierRxFeIqShift |
  .carrierRxTimingBandwidth | .carrierCdTrackEnable | .carrierCdTrackThreshold | .carrierRxPolInit | .carrierRxPolKAcq
  | .carrierRxPolKTrk | .carrierRxPolCentring | .carrierMonShift | .carrierMonSet | .carrierMonClear |
  .carrierNcEnable | .carrierNcLower | .carrierNcUpper | .carrierNcSpacing | .carrierNcStep | .carrierNcQualityFloor |
  .carrierNcGuard | .carrierCrBandwidth | .carrierCrWindow | .carrierCatchCount | .catchRate | .carrierCatchWindow |
  .carrierCatchGateFloor | .carrierCatchFreqRange | .carrierCatchDetect | .carrierCatchSnrFloor |
  .carrierCatchPreemptMargin | .carrierCatchFailLimit | .carrierCatchQualityMode | .carrierFecProfile |
  .carrierFecModulation | .carrierFecEntropy | .carrierFecPayload | .carrierFecTxRate | .carrierFecRxRate |
  .carrierFecTxComposition | .carrierFecBerWarning | .tsiRowSelect | .tsiStandbyPage | .tsiActivePage | .tsiFlip |
  .tsiRxFollow | .tribRxSelect | .defectSetTime | .defectClearTime | .carrierDefectLosSources | .carrierDefectLosFloor
  | .carrierDefectDegThreshold | .carrierDefectDegSeconds | .carrierDefectTimMode | .carrierDefectTimAction |
  .carrierTtiTransmit | .carrierTtiExpected | .carrierOhForceBdi | .carrierOhForceAis | .carrierOhBdiAuto |
  .carrierOhpEnable | .clsKey | .clsFlow | .clsOp | .clsTable | .clsLoad | .portClsMode | .portClsDefaultFlow |
  .portClsTpidSet | .portPfcHeldMask | .flowSelect | .flowTable | .calSelect | .calStandbyPage | .calActivePage |
  .calFlip | .spanSelect | .spanStandbyAll | .spanActiveAll | .tribEgressSelect | .tribEgressTable | .groupHeadroom |
  .groupPolicy | .groupRealign | .groupAlignWait | .kekOp | .slotSelect | .slotLoad | .slotErase | .slotStatus |
  .slotCounter | .slotKidActive | .slotKidNext | .slotLease | .bindSelect | .bindTable | .cryptSelect | .laneRxPolMode
  | .laneRxPolFixed | .laneTxInvert | .laneLosAssert | .laneCtleMode | .laneCtleFixed | .laneDfeFreeze |
  .laneDfeThreshold | .laneTxSwing | .laneTxPre2 | .laneTxPre1 | .laneTxPost1 | .lanePairTest | .octetTxOrder |
  .portUpHold | .portMaxFrame | .portEgressGap | .portSending | .lanePrbsCheck | .lanePrbsUser | .lanePrbsInject |
  .lanePrbsInjectRate | .scrubEnable | .memLapLimit | .bdapStation | .bdapForerunnerStation | .bdapUnregisteredClass |
  .bdapStagingTimeout | .bdapSubscribers | .mgtPlcaEnable | .mgtPlcaNodeCount | .mgtPlcaToTimer | .moverMailbox |
  .ringEnable | .ringPriority | .ringPost | .ringControl | .ringState | .ringQueued | .windowSelect | .windowTable |
  .captureControl | .capturePoint | .captureLength | .captureTrigger | .eventSeverity | .ringRecords |
  .ringClearLatched | .alertEnable0 | .alertEnable1 | .alertState | .historyRecords | .inputDebounce |
  .inputStuckLimit | .inputRateLimit | .countersPermit | .snapEverySecond | .snapEveryQuarter | .snapClearWraps |
  .filterBank | .filterCarriers | .filterGroups | .filterDirections | .filterFlowFirst | .filterFlowCount |
  .filterResult | .flowcountSelect | .tbaseNow | .tbaseSet | .tbaseOffset | .tbaseIncrement | .tbaseStepThreshold |
  .tbasePpsInput | .ppsOutSource | .ppsOutWidth | .ppsOutOffset | .portPtpEnable | .portPtpTbase | .portPtpRxWrite |
  .tsqPop | .tsqFill | .guardCeiling | .guardPowerCap | .sensorReadmit | .throttlePoint | .throttleHysteresis |
  .throttleIterationCap | .throttleEscalate | .throttleRelease | .throttleAutoRestore | .throttleShedRank |
  .hkSeqEvent | .hkSeqStart | .hkInjTrigger | .hkInjEvent | .hkInjStart | .hkCalRequest | .hkCalInterval |
  .hkPlausEnable | .hkPlausWindow | .hkPlausLimit | .hkOpenThreshold | .hkSettleTime | .monAverage | .monShift |
  .monLow | .monHigh | .pairSwitch | .pairTieLossPolicy | .pairWatchInput | .pairHealthMargin | .pairHoldOff |
  .pairHostMute | .errorRegister | .baseMatrixLong | .baseMatrixSprint | .registrationSelect | .registrationTable |
  .carrierRxFreeze => .settings
  | .deviceModeRequest | .deviceModeState | .deviceModeBusy | .deviceModeRefusal | .deviceHavenFirstCause |
  .deviceHavenCauses | .deviceHavenEntries | .xPowered | .xTrimReady | .xTarget | .xMute |
  .xHavenPeriod |
  .xCausePeriod => .mode
  | .bootStraps | .bootStatus | .bootSlot | .bootVersion | .bootLoadTime | .bootResetCause | .bootHostImage |
  .xHbmTrained | .xWarmDue |
  .xSysrst => .boot
  | .xResetDue => .phase
  | .railVoltage | .railFloor | .railState | .railEpisodes | .railLowest | .railAvsFailures | .railNominal |
  .xRailRun => .rails
  | .guardSetpoint | .guardCRun | .guardCDroop | .guardCLook | .guardRequirement | .guardBacklog | .guardState |
  .guardFastRaises | .guardPower | .guardMinSafe | .guardConflict | .guardConflictPeriods | .xGuardBase | .xZeroRun |
  .xSinceChange | .xTopRun | .xGuardSent | .xAvsFail | .xAvsRetry | .xLimit | .xPowerRing | .xOverRun | .xPeriod |
  .xHandRx | .xHandTx => .guard
  | .thermalHottest | .thermalHottestSensor | .thermalSlope | .thermalFailed | .thermalLastStop | .sensorValue |
  .sensorState | .sensorRate | .sensorRaw | .sensorPeak | .throttleStage | .throttleShed | .throttleEntries |
  .xCapThrottle | .xSenSame | .xSenSameVal | .xSenDis | .xSenDisVal | .xSenLast | .xSenReal | .xSenHist | .xShutdown |
  .xShutSensor | .xShutTemp | .xShutDone | .xThrTime | .xThrRel | .xShedOrder |
  .xSenPassAt |
  .xCompTemp => .thermal
  | .carrierRequest | .carrierState | .carrierStateChanges | .carrierLastDrop => .carriers
  | .carrierSlackRxFill | .carrierSlackTxFill | .carrierSlackRxTarget | .carrierSlackTxTarget | .carrierSlackRxPeak |
  .carrierSlackTxLow | .carrierSlackHeld | .carrierSlackHoldEpisodes | .carrierSlackRxDiscarded |
  .carrierSlackTxHoldSets | .xRaising | .xRxLost | .xTxOwed | .xRxSets | .xFlagNext | .xGapFlag => .slack
  | .reflState | .reflOffset | .reflLosses | .carrierConvRxRate | .carrierConvTxRate | .carrierConvSynthState |
  .carrierConvErasedSets | .xRelock | .xRxRate | .xTxRate => .clocks
  | .adcState | .adcSampleRate | .adcClipCount | .adcRms | .adcAgcGain | .adcAgcSteps | .adcAgcAtLimit |
  .adcOpenResult | .adcOpenShiftP | .adcOpenShiftN | .dacState | .dacSampleRate | .dacShortState |
  .dacShortRetryEnable | .dacShortEpisodes | .dacShortRetries | .carrierWiringAppliedMap | .carrierOpenTestBusy |
  .xGainStep | .xGainDue | .xAgcRun | .xWiringDue | .xTxMap | .xSwing | .xTrial | .xRxSkew | .xTxSkew |
  .xRefTrim |
  .xVcoBias |
  .xCalBandOn |
  .xShortAt |
  .xAgcSets |
  .xAgcGood |
  .xAgcSum |
  .xAgcSkip |
  .xAgcBelow |
  .xGainWait => .converters
  | .calFgBusy | .calFgDuration | .calBgEnable | .convCalState | .convCalResting | .convCalSuspect | .convCalSteps |
  .convCalRefusals | .convCalLastLimit | .convCalLastSlice | .convCalLapTime | .convCalRecords | .convCalSlotMap |
  .convCalVgaTable | .xCalFailRun | .xCalSlot | .xCalBusy | .xCalLapTick | .xCalBand | .xCalBandLeft | .xCalLapStarted
  | .xFgCal | .xFgCalTick | .xCalLost |
  .xCalStepAt |
  .xCalStepLen |
  .xCalSuspectWas => .calibration
  | .bankStandby | .bankActiveBank | .bankCommits | .bankBusy | .carrierTxClips | .carrierTxShapeMode |
  .carrierTxShapeRolloff | .carrierTxCdMode | .carrierTxCdTarget | .carrierTxCdFrequency | .xRmsTarget | .xPilotBoost
  | .xClipMark | .xBankActive | .xBankPending | .xBankComputing | .xBankFading | .xBankMode |
  .xSbyParam |
  .xActParam |
  .xFadeSets |
  .xBankHole |
  .xBankDue => .banks
  | .carrierCdMode | .carrierCdTarget | .carrierCdFrequency | .carrierCdApplied | .carrierCdCorrection |
  .carrierCdReach | .carrierCdTrackSteps | .carrierCdReachStored | .xTrackRun | .xTrackStep | .xTrackWindow |
  .xTrackVoid |
  .xDeskewErased =>
  .dispersion
  | .carrierRxSkewXi | .carrierRxSkewXq | .carrierRxSkewYi | .carrierRxSkewYq | .carrierRxSkewResXi |
  .carrierRxSkewResXq | .carrierRxSkewResYi | .carrierRxSkewResYq | .carrierRxSkewFlaggedSets |
  .carrierRxSkewAutoSteps | .carrierRxFePhaseX | .carrierRxFePhaseY | .carrierRxFeGainX | .carrierRxFeGainY |
  .carrierRxTimingState | .carrierRxTimingOffset | .carrierRxTimingUnlocks | .xTimBad | .xTimGood |
  .xTimLost |
  .xTrimTick |
  .xFe => .frontEnd
  | .carrierRxPolState | .carrierRxPolReinits | .carrierRxPolTaps | .carrierRxErasedSymbols | .carrierRxHolding |
  .xPolSame | .xPolFrozen | .xPolTaps |
  .xPolK => .equaliser
  | .carrierMonRaw | .carrierMonFiltered | .carrierMonState | .carrierMonCrossings | .xMonV | .xMonSeen => .monitors
  | .carrierNcPark | .carrierNcInForce | .carrierNcLowerInForce | .carrierNcUpperInForce | .carrierNcSpacingInForce |
  .carrierNcSideState | .carrierNcSideLosses | .carrierNcSideOutOfWindow | .carrierNcSideTaps | .carrierNcSideLeakage
  | .xNcTaps | .xNcGuard |
  .xNcStep |
  .xNcLate => .neighbours
  | .carrierCrState | .carrierCrFreqOffset | .carrierCrSlipsResolved | .carrierCrSlipsUnresolved |
  .xCrWindow => .recovery
  | .carrierCatchState | .catchCaughtRate | .carrierCatchCandidate | .carrierCatchGates | .carrierCatchMetric |
  .carrierCatchPilotSnr | .carrierCatchConfirmations | .carrierCatchEntries | .carrierCatchAbandons |
  .carrierCatchPreemptions | .carrierCatchTime | .carrierCatchFreqHandover | .carrierCatchMatchKind |
  .carrierCatchListInForce | .carrierCatchFrames | .carrierCatchConfirm | .carrierCatchLevel | .carrierCatchLevelValid
  | .carrierCatchLevelUpdates | .carrierCatchLockSnr | .xCatchCount | .xMatchPending | .xMatchRate | .xMatchCand |
  .xMatchMetric | .xMatchKind | .xMatchStart | .xFrameStart | .xConfirmRef | .xSearch | .xAbandonRun | .xFailRaised |
  .xSeekTick | .xSnr | .xSnrOk | .xCatchBlind | .xCatchList | .xMatchFreq | .xMatchMap |
  .xCatchSet |
  .xSurveyTick |
  .xSurveyLen |
  .xSurveyEnd |
  .xSurveySeen |
  .xCaughtRate |
  .xSnrAt |
  .xSurveyWin => .catching
  | .carrierFecIterationCap | .carrierFecProfileInForce | .carrierFecModulationInForce | .carrierFecTxEntropy |
  .carrierFecRxEntropy | .carrierFecTxKdm | .carrierFecRxKdm | .carrierFecTxCapacity | .carrierFecRxCapacity |
  .carrierFecTxNeed | .carrierFecRxNeed | .carrierFecCapInForce | .carrierFecTxLineEntropy | .carrierFecBits |
  .carrierFecCorrected | .carrierFecCodewords | .carrierFecCwFailed | .carrierFecLadderRowsCorrected |
  .carrierFecLadderBitsCorrected | .carrierFecUncorrectable | .carrierFecIterations | .carrierFecPreFecBer |
  .carrierFecDmMismatch | .carrierFecPhaseMismatch | .xPhaseBad | .xPhaseKnown | .xSecBits | .xSecCorrected |
  .xSecFailed | .xSecUncorr | .xPayload | .xRxConf | .xEntropySet | .xTelCorrected | .xTelFailed => .coding
  | .carrierDefectDeclared | .carrierDefectRaw | .carrierDefectSticky | .xRaw | .xUncLast | .xDegRun | .xDegWhole |
  .xLofRun | .xLomRun | .xBdiRun | .xAisRun | .xAdcLos | .xEngLos |
  .xDefectAt => .defects
  | .carrierTtiAccepted | .carrierTtiValid | .carrierOhBipErrors | .carrierOhBeiReceived | .carrierOhSlotMismatch |
  .carrierOhCmLost | .carrierOhLateFlips | .carrierOhBadStat | .carrierOhStatSent | .carrierOhpOutBursts |
  .carrierOhpInBursts | .carrierOhpOutDropped | .xTxMf | .xAnnounce | .xTpgTx | .xTpgRef | .xTpgKnown | .xTpgRun |
  .xSlotBad | .xFnum | .xBeiStore | .xTtiCycle | .xTtiLast | .xTtiRun | .xTtiSent | .xOhpOn | .xOhpOut | .xOhpIn |
  .xTxFnum | .xTxBsq | .xPhaseWord => .overhead
  | .lanePower | .laneState | .laneRxPolApplied | .laneBringups | .laneLosClear | .laneLosRaw | .laneLock |
  .laneLockLosses | .laneCtleApplied | .laneDfeTaps | .laneEyeSnr | .laneTxMain | .lanePairFault | .lanePairCmP |
  .lanePairCmN | .lanePairTestReading | .octetOrderMode | .octetOrderFound | .xLaneLow | .xLaneStep | .xLaneRelock |
  .xRefh |
  .xLaneLockAt |
  .xOrderTried |
  .xOrderDue |
  .xPolDue => .lanes
  | .lanePrbsGen | .lanePrbsState | .lanePrbsBits | .lanePrbsErrors | .lanePrbsInjected | .laneLoopback |
  .xPrbsReg |
  .xPrbsInjDue |
  .xPrbsCheck |
  .xPrbsTail |
  .xPrbsBad => .patterns
  | .portClsUnclassified | .portClsDisabledFlow | .portClsErrored | .portPfcSent | .portPfcReceived |
  .portPfcAssertedMask | .portRxUnmatched | .portRate | .portEnable | .portState | .portFaultCause | .portFaults |
  .portRfReceived | .portFecCorrected | .portFecUncorrected | .portFecSymbols | .portRmFill | .portRmInserted |
  .portRmDeleted | .portRmSlips | .xPfcUntil | .xPortAligned | .xPortFault |
  .xPortAlignAt |
  .xPortPcs |
  .xRmIdle => .ports
  | .tsqOverflow | .tsqDropped | .xTsqSecond => .ptp
  | .clsBusy | .clsResult | .clsEntries | .clsFound | .xClsOp => .classifier
  | .flowEntry | .flowFill | .flowPeak | .flowDepthDrops | .flowPoolDrops | .flowOverruns | .flowAsserting |
  .flowFlushed | .poolFree | .poolLow | .poolPauseLevel | .poolDrops | .xFlowOffset | .xFlowMf | .xFlowArrived |
  .xFlowSecond | .xPoolPause | .xPoolLow |
  .xFlowMarks |
  .xFlowCame |
  .xPcsGone |
  .xPcsBad |
  .xPcsTail => .flows
  | .calStandbyEntry | .calActiveEntry | .calPending | .calFlips | .calRefusal | .calSlips | .spanStandby |
  .spanActive | .xCalTaken | .xCalCredit | .xCalPtr => .calendar
  | .tsiStandbyRow | .tsiActiveRow | .tsiPending | .tsiFlips | .tsiRefusal => .pages
  | .tribRxFill | .tribRxCsf | .tribRxCm | .tribRxCapacity | .tribRxCmLost | .tribEgressRow | .tribEgressDropped |
  .tribEgressHecCorrected | .tribEgressDelineationLosses | .xCsfRun | .xTribFill | .xTribCm | .xCmLost |
  .xTribRow | .xTribRowDue | .xEgressPtr | .xTribCmNow | .xTribFillNow | .xTribFail3 |
  .xGfpScramble |
  .xGfpBytes |
  .xCsfAt |
  .xTribMarks |
  .xTxTileBad |
  .xGfpState |
  .xGfpDescramble |
  .xClear |
  .xTxStop |
  .xTribOffset => .tributaries
  | .groupMembers | .groupState | .groupSkew | .groupHeadroomLeft | .groupLongestHold | .groupRealigns |
  .carrierBondGroup | .carrierBondState | .carrierBondHold | .carrierBondBsq | .carrierBondAlignments |
  .carrierBondWindowExits | .carrierBondTxInSequence | .xBondExit | .xBondArrival | .xBondRun | .xBondMeasured |
  .xBondHoldPs | .xBondJoined | .xGroupWait | .xGroupErased |
  .xGroupWaitAt |
  .xBondExitAt |
  .xMfArrival => .bonding
  | .cipherCoresInService | .cipherRetired | .cipherMismatches | .cipherDemand | .cipherCapacity | .cipherShed |
  .cipherKeyprov | .cipherZero | .xShedTx | .xShedRx => .cores
  | .kekState | .kekValue | .kekKcv | .kekRefusal | .xKekFuse => .fuses
  | .slotRefusal | .slotLoads | .slotLeaseOverruns | .xSlotReg | .xSlotCount | .xSlotWarned | .xSlotActive |
  .xSlotTxPend | .xSlotRxPend | .xSlotDone | .xSlotUnsync | .xLease | .xLeaseAck | .xLeaseNew | .xLeaseOut |
  .xSlotSerial |
  .xTxSwitched => .slots
  | .xSlotKey | .xSlotKid => .keys
  | .bindEntry | .bindInForce => .bindings
  | .cryptTxBlocks | .cryptTxRefused | .cryptRxBlocks | .cryptRxTagFailures | .cryptRxKeyMismatch |
  .cryptRxModeMismatch | .cryptRxHeaderErrors | .cryptRxRefused | .cryptRxOverheadGen | .cryptTxGen | .xCryptBadSecond
  | .xCryptHdrSecond => .crypt
  | .tbaseForce | .tbaseStepsRefused | .tbaseRefusedFlag | .tbaseSteps | .tbasePpsCapture | .tbasePpsCaptures |
  .xTbSec | .xTbNs | .xTbFrac | .xTicks | .xStepPending | .xStepDue | .xPpsEdge | .xStepTick | .xStepBy => .time
  | .tclkMode | .tclkSource | .tclkTrefOffset | .xPpsHigh | .xPpsUntil | .xTrefIn => .timing
  | .hkState | .hkSeqTrigger | .hkSeqMissed | .hkSeqCount | .hkInjEntry | .hkInjMissed | .hkInjResult | .hkCalState |
  .hkCalOffset | .hkCalGain | .hkCalRefusals | .hkCalLastLimit | .hkRefResult | .hkGndResult | .hkseqEntries |
  .monResult | .monMicrovolts | .monOverruns | .monLimitState | .monImplausible | .monOpen | .xHkSequence | .xHkIndex
  | .xHkSeqActive | .xHkHeld | .xHkInjPending | .xHkInjInForce | .xHkAverage | .xHkShift | .xHkMissSecond |
  .xHkCalWait | .xHkLastUv | .xHkLastTime | .xHkLastTagged |
  .xHkCalAt => .housekeeping
  | .snapBusy | .snapNumber | .snapTime | .snapCause | .snapQuarterNumber | .flowcountFrames | .flowcountBytes |
  .xInWindow | .xSnapPending | .xSnapNumber | .xSnapPendTime | .xBankCause | .xBankTime | .xBankNumber => .snapshots
  | .inputActiveHigh | .inputState | .inputEdges | .xInSamples | .xInRun | .xInLastEdge | .xInLimit => .inputs
  | .pairRole | .pairState | .pairSwitchovers | .pairLastCause | .pairPartnerAddr | .pairPartnerMode |
  .pairPartnerHealth | .pairDigestMatch | .pairReady | .pairRefusal | .tieState | .tieLanesLocked | .tieDowns |
  .tieSent | .tieReceived | .tieCrcErrors | .pairDigestLocal | .pairDigestPartner | .xSwitchOut | .xTieSlot |
  .xPartnerRole | .xPartnerState | .xPartnerStrap | .xPartnerKcv | .xPartnerCarrying | .xDelivery | .xDeliver |
  .xDeliverFrom | .xSwitchTick | .xPartnerReady |
  .xTieMsgAt |
  .xTieDownAt |
  .xHealthAt => .pair
  | .trackerUsed | .trackerEvictions | .weakList | .repairPending | .repairDone | .repairFailed | .memCorrected |
  .memUncorrectable | .memLapTime | .memLaps | .memWeak | .memSparesLeft | .memRemaps | .xMemUncorrected | .xLapMark |
  .xLapDone | .xScrubAt |
  .xTableLost |
  .xRepairRun |
  .xMacroUsed => .integrity
  | .custodyFail | .custodyFramesDiscarded | .custodyFramesErrored | .custodyTilesComplemented |
  .custodyBlocksReplaced | .xPortSecond96 |
  .xTxFailed |
  .xClearMarks => .custody
  | .moverGranules | .moverDescriptors | .moverFaults | .telemetryEnable | .telemetryRecords | .ringGranule |
  .ringFault | .windowEntry | .xRingRun | .xRingPre | .xRingHalted | .xRingMark | .xRingMarkPre | .xRingMarkDetail |
  .xRingMarkTime | .xRingWindows | .xRingCaptures | .xRingAside | .xRingLast | .xRingBank |
  .xRingWindowsDst |
  .xRingMarkSide => .mover
  | .captureState | .captureArms | .captureStart | .xCaptureTriggered | .xCaptureFilled | .xCapturePoint |
  .xCaptureLength | .xCaptureTrigger => .captures

/-- The fields of a part that are not registers are as they were. -/
def Safety.sameFields (p : Safety.Part) (s t : State) : Prop :=
  match p with
  | .phase => t.phase = s.phase
  | .memory => t.mem = s.mem
  | .events => t.ring = s.ring ∧ t.history = s.history
  | .subscribers => t.subscribers.map Subscriber.slot = s.subscribers.map Subscriber.slot
  | .management =>
    t.sources = s.sources ∧ t.requests = s.requests ∧ t.staging = s.staging ∧ t.transfers = s.transfers
  | .boot => t.tap = s.tap
  | .slack => t.rxSlack = s.rxSlack ∧ t.txSlack = s.txSlack
  | .txLine => t.txLine = s.txLine
  | .rxLine => t.rxLine = s.rxLine
  | .equaliser => t.polQueue = s.polQueue
  | .ptp => t.tsQueue = s.tsQueue
  | .classifier => t.classifier = s.classifier
  | .flows => t.flowQueue = s.flowQueue ∧ t.flowWords = s.flowWords ∧ t.flowTaken = s.flowTaken
  | .tributaries =>
    t.tribQueue = s.tribQueue ∧ t.tribTaken = s.tribTaken ∧ t.tribWords = s.tribWords ∧ t.rxTribs = s.rxTribs
  | .ports => t.egressBlocks = s.egressBlocks
  | .snapshots => t.latches = s.latches ∧ t.bank0 = s.bank0 ∧ t.bank1 = s.bank1
  | .integrity => t.tracker = s.tracker ∧ t.repairs = s.repairs ∧ t.redirects = s.redirects
  | .mover => t.descriptors = s.descriptors
  | _ => True

/-- A part of the state is as it was. -/
def Safety.samePart (p : Safety.Part) (s t : State) : Prop :=
  Safety.sameFields p s t ∧ ∀ r i, Safety.part r = p → t.get r i = s.get r i ∧ t.blob r i = s.blob r i

/-! ## What a command changes beside its own effect -/

/-- What raising an event may change: its record, and the captures and housekeeping sequences it triggers (R372, R381,
R444, R446). -/
def Safety.raising : List Safety.Part := [
  .events, .housekeeping, .captures]

/-- What serving a request may change whatever it asks. -/
def Safety.serving : List Safety.Part := .management :: Safety.raising

/-- What a carrier entering or leaving a state may change beside the state itself (R47, R49, R143, R188). -/
def Safety.lineParts : List Safety.Part := [
  .rxLine, .clocks, .converters, .calibration, .banks, .dispersion, .frontEnd, .equaliser, .monitors, .recovery,
  .catching, .coding]

/-- What a carrier dropped from the line may change, with those bonded to it (R143, R257). -/
def Safety.dropParts : List Safety.Part := [
  .carriers, .slack, .txLine, .rxLine, .clocks, .converters, .calibration, .banks, .dispersion, .frontEnd, .equaliser,
  .monitors, .neighbours, .recovery, .catching, .coding, .defects, .overhead, .pages, .bonding]

/-- What an entry to Haven may change (R42, R44, R45). -/
def Safety.havenParts : List Safety.Part := [
  .mode, .guard, .thermal, .carriers, .slack, .txLine, .rxLine, .clocks, .converters, .calibration, .banks, .dispersion,
  .frontEnd, .equaliser, .monitors, .neighbours, .recovery, .catching, .defects, .overhead, .lanes, .ports, .flows,
  .calendar, .pages, .tributaries, .bonding, .slots, .keys, .pair]

/-- What a change of device mode may change (R41 to R46). -/
def Safety.modeParts : List Safety.Part := [
  .views, .settings, .mode, .boot, .guard, .thermal, .carriers, .slack, .txLine, .rxLine, .clocks, .converters,
  .calibration, .banks, .dispersion, .frontEnd, .equaliser, .monitors, .neighbours, .recovery, .catching, .coding,
  .defects, .overhead, .lanes, .patterns, .ports, .classifier, .flows, .calendar, .pages, .tributaries, .bonding, .slots,
  .keys, .bindings, .time, .timing, .snapshots, .inputs, .pair, .custody, .mover]

/-- Every part. -/
def Safety.allParts : List Safety.Part := [
  .phase, .memory, .events, .subscribers, .management, .views, .identity, .settings, .mode, .boot, .rails, .guard,
  .thermal, .carriers, .slack, .txLine, .rxLine, .clocks, .converters, .calibration, .banks, .dispersion, .frontEnd,
  .equaliser, .monitors, .neighbours, .recovery, .catching, .coding, .defects, .overhead, .lanes, .patterns, .ports, .ptp,
  .classifier, .flows, .calendar, .pages, .tributaries, .bonding, .cores, .fuses, .slots, .keys, .bindings,
  .crypt, .time, .timing, .housekeeping, .snapshots, .inputs, .pair, .integrity, .custody, .mover, .captures]

/-- The parts of the state that a command may change; it leaves every other as it is. -/
def Safety.mayChange (c : Instr) : List Safety.Part :=
  match c with
  | .porstNLow | .sysrstNLow | .warmResetCommand .. | .fuseLoadEnd .. | .bdapWrite .. | .bdapWriteBlock .. | .bdapCommit .. =>
    Safety.allParts
  | .porstNRise .. | .sysrstNRise => [.phase, .boot]
  | .fuseLoadStart => [.phase]
  | .imageLoadComplete .. => Safety.raising ++ [.boot]
  | .hbmTrainingComplete => [.boot]
  | .hostImageLoad .. => Safety.serving ++ [.boot]
  | .forerunnerEnableWrite .. => Safety.serving ++ [.subscribers, .views]
  | .requestDormant .. | .requestTrim .. | .requestCatch .. | .requestCarry .. | .requestPair .. | .requestHaven .. =>
    Safety.serving ++ Safety.modeParts ++ [.cores, .crypt, .integrity]
  | .modeTransitionComplete .. =>
    Safety.raising ++ [.mode, .calibration, .lanes, .patterns, .ports, .cores, .slots, .pair]
  | .carrierRequest .. => Safety.serving ++ Safety.dropParts ++ [.calendar, .tributaries]
  | .guardLoopPeriod .. => Safety.raising ++ Safety.dropParts ++ [.rails, .guard]
  | .guardControlLost .. | .sensorSample .. | .orderlyShutdownComplete =>
    Safety.raising ++ Safety.havenParts ++ [.integrity]
  | .rxStrokeArrival .. => Safety.raising ++ [.slack, .clocks, .converters, .defects]
  | .txStrokePeriod .. => Safety.raising ++ [.slack]
  | .gapMarkerWrite .. => [.slack]
  | .coreStrokeRelease .. => Safety.raising ++ [.memory, .slack, .rxLine, .banks, .dispersion, .equaliser]
  | .coreStrokeAccept .. => Safety.raising ++ [.slack, .txLine, .banks, .tributaries, .custody]
  | .gapMarkerReached .. =>
    Safety.raising ++ [.memory, .slack, .rxLine, .banks, .dispersion, .equaliser, .monitors]
  | .strokeBoundaryApply .. => Safety.raising ++ [.slack, .converters, .banks, .dispersion, .frontEnd, .equaliser]
  | .reflLoss .. => [.clocks, .converters, .calibration, .frontEnd, .equaliser, .recovery]
  | .reflRelock .. => Safety.raising ++ Safety.lineParts ++ [.carriers, .defects, .overhead, .pages, .bonding]
  | .reflHoldoverAtTrim .. | .synthesiserLock .. => [.mode, .clocks, .converters, .calibration]
  | .agcWindowEnd .. => Safety.raising ++ [.converters, .defects]
  | .gainStepApply .. | .manualGainStep .. => [.slack, .converters]
  | .openTestRequest .. => Safety.serving ++ [.converters]
  | .openTestComplete .. | .dacShortDetect .. | .shortTrialEnd .. => Safety.raising ++ [.converters]
  | .shortRetryTrial .. => [.converters]
  | .foregroundCalComplete .. => Safety.raising ++ [.converters, .calibration, .integrity]
  | .recalRequest .. => Safety.serving ++ [.converters, .calibration]
  | .bgCalStepStart .. => [.calibration]
  | .bgCalMeasureComplete .. => Safety.raising ++ [.calibration]
  | .bankStandbyWrite .. | .bankCommitSwap .. | .bankCommitCrossfade .. => Safety.serving ++ [.banks]
  | .crossfadeEnd .. => Safety.raising ++ [.banks, .dispersion, .equaliser, .monitors]
  | .bankComputeComplete .. => [.banks, .dispersion]
  | .deskewAutoTrim .. => [.dispersion, .frontEnd, .equaliser]
  | .polAdaptBlock .. => [.memory, .rxLine, .frontEnd, .equaliser, .captures]
  | .rxFrameStart .. =>
    Safety.raising ++ Safety.lineParts ++ [.carriers, .neighbours, .defects, .overhead, .pages, .bonding]
  | .ncAdaptBlock .. => [.memory, .rxLine, .neighbours, .captures]
  | .pilotGroupCheck .. => Safety.raising ++ [.memory, .rxLine, .recovery, .bonding]
  | .surveyRefresh .. => [.catching]
  | .catchMatch .. => Safety.raising ++ Safety.lineParts ++ [.carriers, .defects, .overhead, .pages, .bonding]
  | .tentativeEntry .. => Safety.lineParts ++ [.carriers]
  | .rxLoopRelock .. =>
    [.rxLine, .clocks, .converters, .calibration, .banks, .dispersion, .frontEnd, .equaliser, .recovery, .catching]
  | .codewordDecode .. => [.rxLine, .coding]
  | .txMultiframeBoundary .. =>
    Safety.raising ++ [.txLine, .overhead, .ports, .flows, .calendar, .pages, .tributaries, .cores, .bindings,
    .snapshots, .pair, .integrity, .custody]
  | .rxMultiframeBoundary .. =>
    Safety.raising ++ [.carriers, .rxLine, .coding, .defects, .overhead, .ports, .flows, .pages, .tributaries,
    .bonding, .cores, .bindings, .crypt, .pair, .integrity]
  | .rxLogicalFrame .. => [.rxLine, .defects, .overhead, .tributaries]
  | .txPageFlip .. | .rxPageFlip .. => Safety.serving ++ [.overhead, .pages]
  | .defectDeclare .. =>
    Safety.raising ++ Safety.lineParts ++ [.carriers, .defects, .overhead, .pages, .tributaries, .bonding]
  | .defectClear .. => Safety.raising ++ [.defects, .tributaries]
  | .ohpInBurst .. =>
    Safety.raising ++ [.txLine, .overhead, .ports, .flows, .calendar, .tributaries, .custody]
  | .ohpOutBurst .. => [.overhead]
  | .hostFrameReceive .. => Safety.raising ++ [.ports, .ptp, .flows, .calendar, .snapshots]
  | .pfcResend .. | .portAligned .. => [.ports]
  | .clsInsert .. | .clsDelete .. | .clsLookup .. | .clsClearAll .. | .clsBulkLoad .. =>
    Safety.serving ++ [.classifier]
  | .clsOpComplete => [.classifier]
  | .flowEntryWrite .. | .flowTableLoad .. => Safety.serving ++ [.ports, .flows]
  | .calendarFlip .. => Safety.serving ++ [.calendar]
  | .mapperNextFrame .. => Safety.raising ++ [.ports, .flows, .calendar, .tributaries, .custody]
  | .rxTribRowWrite .. => Safety.serving ++ [.ports, .flows, .tributaries]
  | .egressFrameSend .. => Safety.raising ++ [.ports, .flows, .tributaries, .snapshots, .custody]
  | .groupMembersWrite .. | .groupRealign .. => Safety.serving ++ [.bonding]
  | .bondExitWaitExpiry .. => Safety.raising ++ Safety.dropParts
  | .alignWaitExpiry .. => Safety.raising ++ [.bonding]
  | .boathouseRelease .. => Safety.raising ++ [.rxLine, .overhead, .tributaries, .bonding, .crypt]
  | .txCipherBlock .. =>
    Safety.raising ++ [.ports, .flows, .calendar, .tributaries, .cores, .slots, .crypt, .pair, .custody]
  | .rxBlockCheck .. => Safety.raising ++ [.tributaries, .cores, .slots, .crypt, .custody]
  | .kekProgram .. | .kekRevoke .. => Safety.serving ++ [.fuses]
  | .kekProgramComplete .. => Safety.raising ++ [.fuses]
  | .keyprovNRise => [.cores, .fuses]
  | .keyLoad .. | .keyErase .. => Safety.serving ++ [.slots, .keys, .pair]
  | .keySwitchComplete .. => Safety.raising ++ [.slots, .keys]
  | .zeroNFall => Safety.raising ++ [.cores, .slots, .keys]
  | .cipherBindingWrite .. => Safety.serving ++ [.bindings]
  | .laneBringupStep .. | .laneLosSet .. | .laneLosClear .. | .laneLockLoss .. | .refhLoss .. | .pairFaultDetect .. |
  .octetOrderSearch .. | .pairFaultClear .. =>
    Safety.raising ++ [.lanes, .ports]
  | .laneStepTimeout .. => Safety.raising ++ [.lanes]
  | .laneRelockTimeout .. | .refhReturn .. => [.lanes]
  | .pairTest .. => Safety.serving ++ [.lanes, .ports]
  | .dfeAdaptWindow .. => [.lanes, .patterns]
  | .laneDeepLowPower .. => [.lanes, .ports]
  | .portUp .. | .portLocalFault .. | .remoteFaultReceived .. => Safety.raising ++ [.ports]
  | .rateMatchAdjust .. => Safety.raising ++ [.ports, .tributaries, .custody]
  | .prbsInject .. => Safety.serving ++ [.patterns]
  | .prbsInjectPeriodic .. | .prbsCheckerLock .. | .prbsCheckerUnlock .. => [.patterns]
  | .scrubRead .. => Safety.raising ++ Safety.havenParts ++ [.lanes, .integrity, .custody]
  | .eccWriteBack .. | .hbmRepairComplete .. => Safety.raising ++ [.integrity]
  | .spareRowCopyComplete .. => [.integrity]
  | .bdapFrameReceive .. | .bdapReadBlock .. | .bdapCommitDiscard .. | .stagingTimeout .. |
  .clearAllLatched .. | .eventLatchClear .. | .clearWraps .. | .counterFilterRead .. | .hkSeqStart .. | .hkInjectStart .. |
  .hkCalRequest .. | .hkResultRead .. | .mgtPlcaStatusChange .. =>
    Safety.serving
  | .bdapStagedWrite .. => Safety.serving ++ [.fuses, .slots]
  | .bdapRead .. | .tsQueuePop .. => Safety.serving ++ [.ptp]
  | .bdapSnapshot .. => Safety.serving ++ [.snapshots]
  | .bdapSubscribe .. | .bdapUnsubscribe .. | .eventResend .. => Safety.serving ++ [.subscribers]
  | .eventAckReceive .. | .eventSend .. | .blockTransferTimeout .. => [.management]
  | .ringPost .. | .ringResume .. | .ringSkip .. | .ringFlush .. | .windowWrite .. | .captureArm .. | .captureStop .. =>
    Safety.serving ++ [.mover]
  | .moverGranule .. => Safety.raising ++ Safety.havenParts ++ [.memory, .lanes, .integrity, .custody, .mover]
  | .captureComplete .. => [.captures]
  | .inputSample .. => Safety.raising ++ [.defects, .time, .snapshots, .inputs]
  | .inputStuck .. => Safety.raising ++ [.inputs]
  | .inputRateWindowEnd => Safety.raising ++ [.snapshots, .inputs]
  | .snapshotGatherComplete => [.snapshots]
  | .timeTick =>
    Safety.raising ++ [.memory, .guard, .thermal, .carriers, .slack, .txLine, .rxLine, .clocks, .converters, .banks,
    .dispersion, .frontEnd, .equaliser, .monitors, .neighbours, .recovery, .catching, .coding, .defects, .overhead, .calendar,
    .pages, .tributaries, .bonding, .time, .timing, .snapshots, .mover]
  | .timeStepOffset .. | .timeSetAbsolute .. => Safety.serving ++ [.time]
  | .trefOutOfTolerance .. | .trefReturn .. => Safety.raising ++ [.timing]
  | .ppsOutFall .. => [.timing]
  | .railSample .. => Safety.raising ++ [.phase, .rails]
  | .brownout .. => Safety.raising ++ Safety.havenParts ++ [.rails, .integrity]
  | .sensorReadmit .. | .shedRestore .. => Safety.serving ++ [.thermal]
  | .sensorReadmitComplete .. => Safety.raising ++ [.thermal]
  | .hkConversionComplete .. | .hkCalComplete .. => Safety.raising
  | .hkCalAuto .. | .hkSampleBoundary .. => [.housekeeping]
  | .tieHeartbeat .. | .tieHeartbeatRx .. | .tieLinkDown | .digestRecompute | .tieDigestRx .. | .tieDeliveryRx .. =>
    Safety.raising ++ [.pair]
  | .tieKeyRecordRx .. => Safety.raising ++ [.slots, .keys, .pair]
  | .tieLeaseRx .. | .tieLeaseAckRx .. => Safety.raising ++ [.slots, .pair]
  | .tieTxAlignmentRx .. => Safety.raising ++ [.overhead, .pair]
  | .tieReleaseRx .. | .tieSwitchRequestRx .. | .healthSwitch | .tieLossTakeover =>
    Safety.raising ++ [.ports, .flows, .tributaries, .slots, .pair]
  | .pairSwitch .. | .pairSwitchForce .. => Safety.serving ++ [.ports, .flows, .tributaries, .slots, .pair]
  | .zeroNRise | .keyprovNFall => [.cores]
  | .rxGfpFrame .. => Safety.raising ++ [.ports, .flows, .tributaries, .custody]

/-- Registers that raising an event may change (R381, R383 to R385, R372, R444 to R446). -/
def Safety.eventSide (r : Reg) : Bool :=
  match r with
  | .eventCount | .eventLastTime | .eventLatched | .ringOverwritten | .ringNextSeq | .historyWritten
  | .xCaptureTriggered | .xHkSequence | .xHkIndex | .xHkSeqActive | .xHkHeld | .hkState | .xHkAverage | .xHkShift
  | .hkSeqMissed | .hkInjMissed | .xHkMissSecond | .xHkInjPending | .xHkInjInForce => true
  | _ => false

/-- Registers that serving any request may change (R345, R346, R352, R353). -/
def Safety.requestSide (r : Reg) : Bool :=
  match r with
  | .bdapRequests | .bdapAborts | .bdapDuplicates | .bdapIgnored | .mgtFramesTx | .xIgnoredSecond => true
  | r => Safety.eventSide r

/-- Outside the registers of K, every register and every byte string of t is as in s. -/
def Safety.sameOutside (K : Reg → Bool) (s t : State) : Prop :=
  ∀ r i, K r = false → t.get r i = s.get r i ∧ t.blob r i = s.blob r i

/-- Registers and byte strings but those of l are unchanged. -/
def Safety.changesOnly (l : List Reg) (s t : State) : Prop := Safety.sameOutside (fun r => l.contains r) s t

/-- So are all but those of l and those that raising events changes. -/
def Safety.eventChanges (l : List Reg) (s t : State) : Prop :=
  Safety.sameOutside (fun r => Safety.eventSide r || l.contains r) s t

/-- So are all but those of l and those that serving a request changes. -/
def Safety.requestChanges (l : List Reg) (s t : State) : Prop :=
  Safety.sameOutside (fun r => Safety.requestSide r || l.contains r) s t

/-- t is s after a reset: registers that the reset keeps are as they were, and but for the cause code every other register,
every byte string and table, every byte of memory and every queue is as at power-up; commands wait as before. -/
def Safety.wiped (kept : Reg → Bool) (s t : State) : Prop :=
  (∀ r i, kept r = true → t.get r i = s.get r i ∧ t.blob r i = s.blob r i)
    ∧ (∀ r i, kept r = false → (r ≠ .bootResetCause → t.get r i = r.dflt i) ∧ t.blob r i = [])
    ∧ (∀ a, t.readByte a = 0) ∧ t.wraps = [] ∧ t.ring = [] ∧ t.subscribers = [] ∧ t.requests = [] ∧ t.sources = []
    ∧ t.staging = [] ∧ t.transfers = [] ∧ t.rxSlack = [] ∧ t.txSlack = [] ∧ t.txLine = [] ∧ t.rxLine = []
    ∧ t.polQueue = [] ∧ t.flowTaken = [] ∧ t.flowQueue = [] ∧ t.flowWords = [] ∧ t.tribQueue = [] ∧ t.tribTaken = []
    ∧ t.egressBlocks = [] ∧ t.tribWords = [] ∧ t.rxTribs = [] ∧ t.classifier = [] ∧ t.tsQueue = [] ∧ t.tracker = [] ∧ t.latches = [] ∧ t.bank0 = []
    ∧ t.bank1 = [] ∧ t.descriptors = [] ∧ t.tap = s.tap ∧ t.pending = s.pending

/-! ## Requests -/

/-- A request is taken and runs: the block answers its client, whose source is not ignored, it is the next in the queue, and it
repeats no earlier one (R37, R343, R345, R346, R353). -/
def Safety.fresh (s : State) (cl : Client) : Prop :=
  s.answers cl = true ∧ s.isNext cl = true ∧ s.clientClass cl.mac ≠ 3 ∧ s.repeated cl = none

/-- A fresh write of unit i of a register passes the checks every write passes (R338, R348): the client's view has the
object, and type, length, access, mode, class and range are right. -/
def Safety.allowed (s : State) (cl : Client) (r : Reg) (i : Nat) (v : WVal) : Prop :=
  Safety.fresh s cl ∧ (clientAddress cl r i).isSome = true ∧ s.checkWrite cl r i v = none

/-- Between s and t a client was sent a reply. -/
def Safety.replied (s t : State) (cl : Client) (a : Reply) : Prop :=
  ∃ l station, t.out = s.out ++ l ∧ Output.reply cl a (replyFrame station cl a) ∈ l

/-- Between s and t a client was sent an ACK. -/
def Safety.acked (s t : State) (cl : Client) : Prop := ∃ p, Safety.replied s t cl (.ack p)

/-- Between s and t a client was sent an ABORT with a code. -/
def Safety.aborted (s t : State) (cl : Client) (code : Nat) : Prop :=
  ∃ ix sub detail position, Safety.replied s t cl (.abort ix sub code detail position)

/-- Between s and t the block sent a message. -/
def Safety.sent (s t : State) (o : Output) : Prop := ∃ l, t.out = s.out ++ l ∧ o ∈ l

/-- The counter r of unit i went up by n, from 0 again past the maximum of its type (R394). -/
def Safety.countedBy (s t : State) (r : Reg) (i n : Nat) : Prop := t.get r i = ((s.nat r i + n) % 2 ^ r.bits : Nat)

/-- Source e was raised once more than before: its count went up by one (R381, R394). -/
def Safety.raised (s t : State) (e : Nat) : Prop := Safety.countedBy s t .eventCount e 1

/-- The write that a command is: its client, register, unit and value; none for a command that is no write of one
object. -/
def Safety.writeOf (c : Instr) : Option (Client × Reg × Nat × WVal) :=
  match c with
  | .warmResetCommand cl => some (cl, .deviceReset, 0, .int 0x5752)
  | .hostImageLoad cl => some (cl, .bootHostLoad, 0, .int 1)
  | .forerunnerEnableWrite cl v => some (cl, .forerunnerEnable, 0, .int (ofFlag v))
  | .requestDormant cl => some (cl, .deviceModeRequest, 0, .int 0)
  | .requestTrim cl => some (cl, .deviceModeRequest, 0, .int 1)
  | .requestCatch cl => some (cl, .deviceModeRequest, 0, .int 2)
  | .requestCarry cl => some (cl, .deviceModeRequest, 0, .int 3)
  | .requestPair cl => some (cl, .deviceModeRequest, 0, .int 4)
  | .requestHaven cl => some (cl, .deviceModeRequest, 0, .int 5)
  | .carrierRequest cl c v => some (cl, .carrierRequest, c, .int v.val)
  | .openTestRequest cl c => some (cl, .carrierOpenTestRequest, c, .int 1)
  | .recalRequest cl m => some (cl, .calFgRequest, 0, .int m.val)
  | .bankStandbyWrite cl b v => some (cl, .bankStandby, b, .bytes v)
  | .bankCommitSwap cl b => some (cl, .bankCommit, b, .int 1)
  | .bankCommitCrossfade cl b => some (cl, .bankCommit, b, .int 2)
  | .txPageFlip cl m => some (cl, .tsiFlip, 0, .int m.val)
  | .rxPageFlip cl m => some (cl, .tsiFlip, 1, .int m.val)
  | .clsInsert cl => some (cl, .clsOp, 0, .int 1)
  | .clsDelete cl => some (cl, .clsOp, 0, .int 2)
  | .clsLookup cl => some (cl, .clsOp, 0, .int 3)
  | .clsClearAll cl => some (cl, .clsOp, 0, .int 4)
  | .clsBulkLoad cl v => some (cl, .clsLoad, 0, .bytes v)
  | .flowEntryWrite cl v => some (cl, .flowEntry, 0, .int v.toNat)
  | .flowTableLoad cl v => some (cl, .flowTable, 0, .bytes v)
  | .calendarFlip cl => some (cl, .calFlip, 0, .int 1)
  | .rxTribRowWrite cl v => some (cl, .tribEgressRow, 0, .int v.val)
  | .groupMembersWrite cl g m => some (cl, .groupMembers, g, .int m.val)
  | .groupRealign cl g => some (cl, .groupRealign, g, .int 1)
  | .kekProgram cl n => some (cl, .kekOp, n, .int 1)
  | .kekRevoke cl n => some (cl, .kekOp, n, .int 2)
  | .keyLoad cl d => some (cl, .slotLoad, 0, .bytes d)
  | .keyErase cl => some (cl, .slotErase, 0, .int 1)
  | .cipherBindingWrite cl dir v => some (cl, .bindEntry, dir, .int v.val)
  | .pairTest cl h _ => some (cl, .lanePairTest, h, .int 1)
  | .prbsInject cl h => some (cl, .lanePrbsInject, h, .int 1)
  | .ringPost cl n b => some (cl, .ringPost, n, .bytes b)
  | .ringResume cl n => some (cl, .ringControl, n, .int 1)
  | .ringSkip cl n => some (cl, .ringControl, n, .int 2)
  | .ringFlush cl n => some (cl, .ringControl, n, .int 3)
  | .windowWrite cl v => some (cl, .windowEntry, 0, .bytes v)
  | .captureArm cl c => some (cl, .captureControl, c, .int 1)
  | .captureStop cl c => some (cl, .captureControl, c, .int 2)
  | .clearAllLatched cl => some (cl, .ringClearLatched, 0, .int 1)
  | .eventLatchClear cl e => some (cl, .eventLatched, e, .int 1)
  | .clearWraps cl m => some (cl, .snapClearWraps, 0, .int m.val)
  | .timeStepOffset cl t v => some (cl, .tbaseOffset, t, .int v)
  | .timeSetAbsolute cl t b => some (cl, .tbaseSet, t, .bytes b)
  | .sensorReadmit cl i => some (cl, .sensorReadmit, i, .int 1)
  | .shedRestore cl m => some (cl, .throttleShed, 0, .int m.val)
  | .hkSeqStart cl k => some (cl, .hkSeqStart, k, .int 1)
  | .hkInjectStart cl k => some (cl, .hkInjStart, k, .int 1)
  | .hkCalRequest cl k => some (cl, .hkCalRequest, k, .int 1)
  | .pairSwitch cl => some (cl, .pairSwitch, 0, .int 1)
  | .pairSwitchForce cl => some (cl, .pairSwitch, 0, .int 2)
  | _ => none

end Sys2Proof
end

