-- ==== Sys2Proof/WellFormed.lean ====
section
/-! DEFINITION. Which commands the environment can give: the limits of the wire (R340, R344, R347) that the operand types
do not state. -/

namespace Sys2Proof

/-- The sender of a request command; none for a command that no request carries. -/
def Instr.sender (i : Instr) : Option Client :=
  match i with
  | .warmResetCommand cl | .hostImageLoad cl | .forerunnerEnableWrite cl _ | .requestDormant cl
  | .requestTrim cl | .requestCatch cl | .requestCarry cl | .requestPair cl | .requestHaven cl
  | .carrierRequest cl _ _ | .openTestRequest cl _ | .recalRequest cl _ | .bankStandbyWrite cl _ _
  | .bankCommitSwap cl _ | .bankCommitCrossfade cl _ | .txPageFlip cl _ | .rxPageFlip cl _ | .clsInsert cl
  | .clsDelete cl | .clsLookup cl | .clsClearAll cl | .clsBulkLoad cl _ | .flowEntryWrite cl _
  | .flowTableLoad cl _ | .calendarFlip cl | .rxTribRowWrite cl _ | .groupMembersWrite cl _ _
  | .groupRealign cl _ | .kekProgram cl _ | .kekRevoke cl _ | .keyLoad cl _ | .keyErase cl
  | .cipherBindingWrite cl _ _ | .pairTest cl _ _ | .prbsInject cl _ | .bdapRead cl _ _ | .bdapWrite cl _ _ _ _
  | .bdapStagedWrite cl _ _ _ _ | .bdapReadBlock cl _ _ _ _ | .bdapWriteBlock cl _ _ _ _ _ _ _ | .bdapCommit cl
  | .bdapCommitDiscard cl | .bdapSnapshot cl | .bdapSubscribe cl _ | .bdapUnsubscribe cl | .eventAckReceive cl
  | .ringPost cl _ _ | .ringResume cl _ | .ringSkip cl _ | .ringFlush cl _ | .windowWrite cl _
  | .captureArm cl _ | .captureStop cl _ | .clearAllLatched cl | .eventLatchClear cl _ | .clearWraps cl _
  | .counterFilterRead cl _ | .timeStepOffset cl _ _ | .timeSetAbsolute cl _ _ | .tsQueuePop cl
  | .sensorReadmit cl _ | .shedRestore cl _ | .hkSeqStart cl _ | .hkInjectStart cl _ | .hkCalRequest cl _
  | .hkResultRead cl _ | .pairSwitch cl | .pairSwitchForce cl => some cl
  | .porstNLow | .porstNRise _ _ | .sysrstNLow | .sysrstNRise | .fuseLoadStart | .fuseLoadEnd _
  | .imageLoadComplete _ _ | .hbmTrainingComplete | .modeTransitionComplete _ | .guardLoopPeriod _ _
  | .guardControlLost _ | .rxStrokeArrival _ _ | .txStrokePeriod _ | .gapMarkerWrite _
  | .coreStrokeRelease _ _ _ | .coreStrokeAccept _ _ _ _ | .gapMarkerReached _ _ | .strokeBoundaryApply _
  | .reflLoss _ _ _ | .reflRelock _ _ | .reflHoldoverAtTrim _ | .agcWindowEnd _ _ _ | .gainStepApply _
  | .manualGainStep _ | .openTestComplete _ _ _ | .dacShortDetect _ _ | .shortRetryTrial _ _
  | .shortTrialEnd _ _ _ | .foregroundCalComplete _ _ _ | .bgCalStepStart _ | .bgCalMeasureComplete _ _
  | .crossfadeEnd _ | .bankComputeComplete _ | .deskewAutoTrim _ _ | .polAdaptBlock _ _ | .rxFrameStart _ _
  | .ncAdaptBlock _ _ | .pilotGroupCheck _ _ _ | .surveyRefresh _ _ _ _ | .catchMatch _ _ | .tentativeEntry _ _
  | .rxLoopRelock _ | .codewordDecode _ _ | .txMultiframeBoundary _ _ | .rxMultiframeBoundary _ _
  | .rxLogicalFrame _ _ | .defectDeclare _ _ _ | .defectClear _ _ _ | .ohpInBurst _ _ | .ohpOutBurst _
  | .hostFrameReceive _ _ _ | .pfcResend _ | .clsOpComplete | .mapperNextFrame _ _ | .egressFrameSend _ _ _
  | .bondExitWaitExpiry _ | .alignWaitExpiry _ | .boathouseRelease _ _ | .txCipherBlock _ _ _ _
  | .rxBlockCheck _ _ _ _ _ _ _ | .kekProgramComplete _ _ | .keyprovNRise | .keySwitchComplete _ | .zeroNFall
  | .laneBringupStep _ _ | .laneStepTimeout _ | .laneLosSet _ | .laneLosClear _ | .laneLockLoss _
  | .laneRelockTimeout _ | .refhLoss _ | .pairFaultDetect _ _ _ | .dfeAdaptWindow _ _ _ _ | .laneDeepLowPower _
  | .octetOrderSearch _ _ _ | .portAligned _ | .portUp _ | .portLocalFault _ _ _ _ | .rateMatchAdjust _ _ _ _ _
  | .prbsInjectPeriodic _ | .scrubRead _ _ _ _ | .eccWriteBack _ _ _ _ | .spareRowCopyComplete _ _
  | .hbmRepairComplete _ _ | .bdapFrameReceive _ _ _ | .eventSend _ | .eventResend _ | .stagingTimeout _ _
  | .blockTransferTimeout _ _ | .moverGranule _ | .captureComplete _ | .inputSample _ _ | .inputStuck _
  | .inputRateWindowEnd | .snapshotGatherComplete | .timeTick | .trefOutOfTolerance _ | .trefReturn _
  | .ppsOutFall _ | .railSample _ | .brownout _ | .sensorSample _ _ | .sensorReadmitComplete _
  | .orderlyShutdownComplete | .hkConversionComplete _ _ | .hkCalAuto _ | .hkCalComplete _ _ | .tieHeartbeat _
  | .tieHeartbeatRx _ _ | .tieLinkDown | .digestRecompute | .tieDigestRx _ _ | .tieKeyRecordRx _ _ _
  | .tieLeaseRx _ _ _ _ | .tieLeaseAckRx _ _ _ _ | .tieDeliveryRx _ _ _ | .tieTxAlignmentRx _ _ _
  | .tieReleaseRx _ _ | .tieSwitchRequestRx _ _ | .healthSwitch | .tieLossTakeover | .refhReturn _
  | .synthesiserLock _ | .zeroNRise | .keyprovNFall | .remoteFaultReceived _ _ | .pairFaultClear _ _ _
  | .prbsCheckerLock _ _ | .prbsCheckerUnlock _ | .rxGfpFrame _ _ | .mgtPlcaStatusChange _ _
  | .hkSampleBoundary _ => none

/-- A source address has 48 bits and a sequence number 16 (R344). -/
def Client.wellFormed (cl : Client) : Bool := decide (cl.mac < 2 ^ 48 ∧ cl.seq < 65536)

/-- A frame has at least 60 bytes before the FCS, and at most 1,514 (R344). -/
def frameSizeOk (f : List Byte) : Bool := decide (60 ≤ f.length ∧ f.length ≤ 1514)

/-- A value or segment of one message has at most 1,388 bytes (R344). -/
def valueSizeOk (b : List Byte) : Bool := decide (b.length ≤ 1388)

/-- A step offset is an I64 (R402). -/
def offsetOk (v : Int) : Bool := decide (-2 ^ 63 ≤ v ∧ v < 2 ^ 63)

/-- The checks on a command's operands beside its sender. -/
def Instr.operandsOk (i : Instr) : Bool :=
  match i with
  | .bdapFrameReceive _ frame _ => frameSizeOk frame
  | .bdapWrite _ _ _ _ val => valueSizeOk val
  | .bdapStagedWrite _ _ _ _ val => valueSizeOk val
  | .bdapWriteBlock _ _ _ _ _ _ _ data => valueSizeOk data
  | .timeStepOffset _ _ v => offsetOk v
  | _ => true

/-- A command that the environment can give. -/
def Instr.wellFormed (i : Instr) : Bool :=
  (match i.sender with
    | some cl => cl.wellFormed
    | none => true) && i.operandsOk

end Sys2Proof
end

