-- ==== Sys2Proof/Certificates/Slice0/Obligations.lean ====
section
/-! DEFINITION. What is stated of the model: the step and the queue of commands, what every command keeps and leaves, and,
chapter by chapter, what each command of the opcode table does. -/

open Sys2Proof Sys2Proof.Machine

/-! ## The queue of commands and the whole machine -/

/-- A step takes the command at the front of the queue and runs it with the rest of the queue; with no command waiting the
block idles (the model's choice, assumption 1). -/
def Obligations.StepRunsTheFrontCommand : Prop :=
  (∀ (s : State) (c : Instr) (rest : List Instr), s.pending = c :: rest → step s = exec c (s.setPending rest))
    ∧ ∀ s : State, s.pending = [] → step s = .next s

/-- The state after reset is sound: every table canonical, every queue within its capacity; nothing waits, and no reset is
due. -/
def Obligations.ResetIsSound : Prop :=
  Safety.tablesCanonical State.reset ∧ Safety.queuesCanonical State.reset ∧ Safety.linesCanonical State.reset
    ∧ Safety.capacities State.reset ∧ State.reset.flag .xResetDue 0 = false ∧ State.reset.pending = []

/-- Every step keeps the tables, the queues of numbered units and what the carriers' lines hold in canonical form, the
capacities the manual gives (1,024 ring and 64 history records, 16 sources, 32 queued messages, 4 staging buffers, 8
subscribers, 64 timestamps, 64 tracker entries), and leaves no reset due: a warm reset that a write commands takes place
within its command (R50). -/
def Obligations.StepKeepsTheStateSound : Prop :=
  (∀ s t : State, Safety.tablesCanonical s → Safety.queuesCanonical s → Safety.linesCanonical s → step s = .next t →
    Safety.tablesCanonical t ∧ Safety.queuesCanonical t ∧ Safety.linesCanonical t)
    ∧ (∀ s t : State, Safety.capacities s → step s = .next t → Safety.capacities t)
    ∧ ∀ s t : State, s.flag .xResetDue 0 = false → step s = .next t → t.flag .xResetDue 0 = false

/-- No step stops the block: every command completes in every state. It leaves the parts of the state that
Safety.mayChange does not list for it as they were, and the queue of waiting commands; what was sent before stays sent. -/
def Obligations.EveryCommandCompletesInItsFrame : Prop :=
  (∀ s : State, ∃ t, step s = .next t)
    ∧ ∀ (c : Instr) (s : State), ∃ t, exec c s = .next t ∧ (∀ p, p ∉ Safety.mayChange c → Safety.samePart p s t)
      ∧ t.pending = s.pending ∧ s.out <+: t.out

/-- Mover memory: a byte written is read back, every other byte is unchanged, and the canonical form is kept; a byte
nothing has written reads 0 (R328). What an unwritten byte reads as is the model's reading of R328 (assumption 11). -/
def Obligations.MoverMemoryReadsWhatWasWritten : Prop :=
  ∀ (s : State) (a : Nat) (b : Byte), (s.writeByte a b).readByte a = b
    ∧ (∀ a', a' ≠ a → (s.writeByte a b).readByte a' = s.readByte a')
    ∧ (Memory.wf s.mem = true → Memory.wf (s.writeByte a b).mem = true) ∧ State.reset.readByte a = 0

/-! ## What every write request draws -/

/-- A write that a common check refuses (type, access, mode, class or range) draws that abort, and no register changes
but those that serving any request may change; a key load of a wrong length also leaves its reason in its slot (R277). A
client below operator, or below keeper for a keeper-only object, is
refused with abort 0x09 when the object may be written at all: the class check follows access and mode (R348, R353,
R354). -/
def Obligations.RefusedWritesChangeNothing : Prop :=
  (∀ (c : Instr) (s : State) (cl : Client) (r : Reg) (i : Nat) (v : WVal) (a : Nat × Nat) (code detail position : Nat),
    Safety.writeOf c = some (cl, r, i, v) → Safety.fresh s cl → clientAddress cl r i = some a →
    s.checkWrite cl r i v = some (.abort code detail position) → s.flag .xResetDue 0 = false →
    ∃ t, exec c s = .next t ∧ Safety.replied s t cl (.abort a.1 a.2 code detail position)
      ∧ Safety.requestChanges (if r = .slotLoad then [.slotRefusal] else []) s t)
    ∧ ∀ (s : State) (cl : Client) (r : Reg) (i : Nat) (v : WVal),
    typeAbort cl r i v = none → r.access ≠ .ro → r.access ≠ .const → (r.access = .rwd → s.rwdOpen = true) →
    s.modeOpen r = true → s.clientClass cl.mac < (if r.keeperOnly then 2 else 1) →
    s.checkWrite cl r i v = some (.abort 0x09 0 0)

/-- Before the end of the fuse load, and at the forerunner station while its view is off, no request is answered:
nothing changes (R37, R343). While another client's request waits at the front of the queue, none but that one is served
(R345). A request whose sequence number is among the last 16 of its source draws its stored reply, is counted as a
duplicate and runs nothing (R346). A request from a source of class ignored is discarded without reply and counted
(R353). An acknowledgement of an EVENT is no request (R350). -/
def Obligations.RequestsNotServedRunNothing : Prop :=
  (∀ (c : Instr) (s : State) (cl : Client), c.sender = some cl → s.answers cl = false → s.flag .xResetDue 0 = false →
    exec c s = .next s)
    ∧ (∀ (c : Instr) (s : State) (cl : Client) (q : Request) (rest : List Request),
    c.sender = some cl → c ≠ .eventAckReceive cl → s.requests = q :: rest → q.client ≠ cl → q.body ≠ .malformed →
    s.flag .xResetDue 0 = false → exec c s = .next s)
    ∧ (∀ (c : Instr) (s : State) (cl : Client) (x : Recent) (a : Reply),
    c.sender = some cl → c ≠ .eventAckReceive cl → s.answers cl = true → s.isNext cl = true → s.clientClass cl.mac ≠ 3 →
    s.repeated cl = some x → x.reply = some a → s.flag .xResetDue 0 = false →
    ∃ t, exec c s = .next t ∧ Safety.replied s t cl a ∧ Safety.countedBy s t .bdapDuplicates 0 1
      ∧ Safety.changesOnly [.bdapDuplicates, .mgtFramesTx] s t)
    ∧ (∀ (c : Instr) (s : State) (cl : Client),
    c.sender = some cl → c ≠ .eventAckReceive cl → s.answers cl = true → s.isNext cl = true → s.clientClass cl.mac = 3 →
    s.flag .xResetDue 0 = false →
    ∃ t, exec c s = .next t ∧ t.out = s.out ∧ Safety.countedBy s t .bdapIgnored 0 1
      ∧ Safety.requestChanges [] s t)

/-! ## Boot and reset (02_modes.md, 22_package.md) -/

/-- PORST_N low is a cold reset in every state; SYSRST_N low of a device that runs, and a write of 0x5752 to 2000.0A, are
warm resets. Each erases the key slots, takes configuration and client registration back to their defaults, counters and
time bases to zero, the microcode and what HBM held with them. A cold reset also clears the event history and 2000.09;
a warm one keeps them, the straps and the key-encryption-key fuses, and gives its code in 2E00.06, 1 or 2. The rise of
SYSRST_N, or the command at once, starts the fuse load again (R50). -/
def Obligations.ResetsKeepTheirItems : Prop :=
  let cleared := fun t : State => (∀ r i, r.isConfig i = true → t.get r i = r.dflt i ∧ t.blob r i = [])
    ∧ (∀ r i, (counterGroup r).isSome = true → r ≠ .deviceHavenEntries → t.get r i = 0)
    ∧ (∀ n : Fin 4, t.get .xTbSec n = 0 ∧ t.get .xTbNs n = 0 ∧ t.get .xTbFrac n = 0)
    ∧ (∀ i, t.get .xSlotReg i = 0 ∧ t.blob .xSlotKey i = [] ∧ t.get .registrationRow i = Reg.dflt .registrationRow i)
    ∧ t.get .bootStatus 0 = 0 ∧ t.get .xHbmTrained 0 = 0 ∧ (∀ a, t.readByte a = 0) ∧ t.flowQueue = [] ∧ t.tribQueue = []
  let kept := fun s t : State => t.get .bootStraps 0 = s.get .bootStraps 0 ∧ t.history = s.history
    ∧ t.get .deviceHavenEntries 0 = s.get .deviceHavenEntries 0
    ∧ ∀ n : Fin 4, t.blob .xKekFuse n = s.blob .xKekFuse n ∧ t.get .kekState n = s.get .kekState n
  (∀ s : State, ∃ t, exec .porstNLow s = .next t ∧ t.phase = .coldReset ∧ cleared t ∧ t.history = []
      ∧ t.get .deviceHavenEntries 0 = 0 ∧ t.get .bootResetCause 0 = 0)
    ∧ (∀ s : State, s.phase = .running → ∃ t, exec .sysrstNLow s = .next t ∧ t.phase = .warmReset ∧ cleared t ∧ kept s t
      ∧ t.get .bootResetCause 0 = 1)
    ∧ (∀ s : State, s.phase = .warmReset → ∃ t, exec .sysrstNRise s = .next t ∧ t.phase = .fuseLoad
      ∧ t.get .xSysrst 0 = 0 ∧ Safety.changesOnly [.xSysrst] s t)
    ∧ ∀ (s : State) (cl : Client), Safety.allowed s cl .deviceReset 0 (.int 0x5752) →
      ∃ t, exec (.warmResetCommand cl) s = .next t ∧ t.phase = .fuseLoad ∧ cleared t ∧ kept s t
        ∧ t.get .bootResetCause 0 = 2 ∧ Safety.acked s t cl

/-- The model's readings about resets. What Table: Reset effects does not name goes to its value at power-up: every
register, byte string and queue, but for key fuses and the levels of pins, and in a warm reset straps, event history,
Haven entries and the HBM redirects with their repairs (assumption 13). SYSRST_N low before the first fuse load ends is
kept, and holds the device in a warm reset after it; where it rises before that, 2E00.06 tells of it at once
(assumption 45, of R478). -/
def Obligations.ResetsAsTheModelReadsThem : Prop :=
  (∀ s : State, ∃ t, exec .porstNLow s = .next t ∧ Safety.wiped Reg.keptCold s t ∧ t.repairs = [] ∧ t.redirects = []
      ∧ t.out = s.out)
    ∧ (∀ s : State, s.phase = .running ∨ s.phase = .fuseLoad ∧ s.get .bootResetCause 0 ≠ 0 →
      ∃ t, exec .sysrstNLow s = .next t ∧ t.phase = .warmReset ∧ Safety.wiped Reg.keptWarm (s.set .xSysrst 0 1) t
        ∧ t.get .bootResetCause 0 = 1 ∧ t.history = s.history ∧ t.repairs = s.repairs ∧ t.redirects = s.redirects)
    ∧ (∀ s : State, s.phase = .waitRails ∨ s.phase = .fuseLoad ∧ s.get .bootResetCause 0 = 0 →
      ∃ t, exec .sysrstNLow s = .next t ∧ t.phase = s.phase ∧ t.get .xWarmDue 0 = 1
        ∧ Safety.changesOnly [.xSysrst, .xWarmDue] s t)
    ∧ (∀ s : State, s.phase = .coldReset ∨ s.phase = .warmReset → ∃ t, exec .sysrstNLow s = .next t ∧ t.phase = s.phase
      ∧ t.get .xSysrst 0 = 1 ∧ Safety.changesOnly [.xSysrst] s t)
    ∧ (∀ (s : State) (failed : List (Fin 52)), s.phase = .fuseLoad → s.flag .xWarmDue 0 = true →
      ∃ t, exec (.fuseLoadEnd failed) s = .next t ∧ t.phase = .warmReset ∧ Safety.wiped Reg.keptWarm s t
        ∧ t.get .bootResetCause 0 = 1 ∧ t.history = s.history ∧ t.repairs = s.repairs ∧ t.redirects = s.redirects)
    ∧ (∀ (s : State) (cl : Client), Safety.allowed s cl .deviceReset 0 (.int 0x5752) →
      ∃ t, exec (.warmResetCommand cl) s = .next t ∧ Safety.wiped Reg.keptWarm s t
        ∧ t.repairs = s.repairs ∧ t.redirects = s.redirects)
    ∧ ∀ s : State, s.phase = .fuseLoad ∨ s.phase = .waitRails → s.flag .xWarmDue 0 = true →
      ∃ t, exec .sysrstNRise s = .next t ∧ t.phase = s.phase ∧ t.get .xWarmDue 0 = 0 ∧ t.get .bootResetCause 0 = 1
        ∧ Safety.changesOnly [.xSysrst, .xWarmDue, .bootResetCause] s t

/-- The rise of PORST_N latches the straps; with the rails in tolerance the fuse load starts, otherwise the block
waits for them and starts it then; the end of the fuse load writes 620 mV to every core rail, asks the flash for its SFDP
tables, sets the PLCA node numbers to ADDR + 1 and starts the calibration of the housekeeping converters (R51, R52, R360,
R438, R477). A SYSRST_N that is low then is noted (assumption 45). -/
def Obligations.PowerUpLatchesStrapsAndLoadsFuses : Prop :=
  (∀ (s : State) (straps : Fin 512) (railsOk : Bool), s.phase = .coldReset →
      ∃ t, exec (.porstNRise straps railsOk) s = .next t ∧ t.phase = (if railsOk then .fuseLoad else .waitRails)
        ∧ t.get .bootStraps 0 = straps.val ∧ t.get .xWarmDue 0 = s.get .xSysrst 0
        ∧ Safety.changesOnly [.bootStraps, .xWarmDue] s t)
    ∧ (∀ s : State, s.phase = .waitRails →
      ∃ t, exec .fuseLoadStart s = .next t ∧ t.phase = .fuseLoad ∧ Safety.changesOnly [] s t)
    ∧ (∀ (s : State) (failed : List (Fin 52)), s.phase = .fuseLoad → s.flag .xWarmDue 0 = false →
      ∃ t, exec (.fuseLoadEnd failed) s = .next t ∧ t.phase = .running
        ∧ (∀ r < 5, Safety.sent s t (.avsWrite r 620)) ∧ Safety.sent s t (.flash .sfdp 0)
        ∧ ∀ k < 2, t.get .mgtPlcaNodeId k = s.get .bootStraps 0 % 64 + 1 ∧ t.get .hkState k = 3
          ∧ t.get .hkCalState k = 2)

/-- The straps are latched at the rising edge of PORST_N and reported in 2E00.01, PAIR_ROLE in bit 8, BOOTSEL in bits
7 to 6, ADDR in bits 5 to 0 and bits 15 to 9 at 0, and they are not sampled at any other time: no other command
changes 2E00.01 but the cold reset that clears it (R51). -/
def Obligations.StrapsAreSampledOnce : Prop :=
  (∀ (s : State) (addr : Fin 64) (bootsel : Fin 4) (role : Fin 2) (straps : Fin 512) (railsOk : Bool),
      s.phase = .coldReset → straps.val = 256 * role.val + 64 * bootsel.val + addr.val →
      ∃ t, exec (.porstNRise straps railsOk) s = .next t ∧ field (t.nat .bootStraps 0) 0 6 = addr.val
        ∧ field (t.nat .bootStraps 0) 6 2 = bootsel.val ∧ field (t.nat .bootStraps 0) 8 1 = role.val
        ∧ field (t.nat .bootStraps 0) 9 7 = 0 ∧ t.get .bootStraps 0 = straps.val)
    ∧ (∀ (s : State) (cl : Client), Safety.fresh s cl →
      ∃ t, exec (.bdapRead cl 0x2E00 1) s = .next t
        ∧ Safety.replied s t cl (.ack (leBytes 2 0x2E00 ++ [1, 3] ++ leBytes 2 2 ++ leBytes 2 (s.get .bootStraps 0))))
    ∧ ∀ (c : Instr) (s t : State), s.flag .xResetDue 0 = false →
      (∀ straps railsOk, c ≠ .porstNRise straps railsOk) → c ≠ .porstNLow → exec c s = .next t →
      t.get .bootStraps 0 = s.get .bootStraps 0

/-- The flash is read at the address of the slot that BOOTSEL names, by the command its SFDP tables allow (R52). A
flash image that passes every check is loaded: status 1, slot and version are reported and source 1 is raised; under
BOOTSEL 0b11 a refused slot 0 raises source 2 and slot 1 is tried once; the last refusal gives its status (R54). A
host image written in Dormant after a failed flash load is checked: a good one gives status 6 and slot 0xFE, a bad one
its status and source 2; while a flash load runs, or after one that succeeded, it is refused with abort 0x0A or 0x08.
HBM training is noted; the forerunner view follows 1F00.01 in Dormant and Trim (R4, R55, R56). The status of an image
shorter than it says is the model's choice (assumption 29). -/
def Obligations.ImagesAreCheckedAndReported : Prop :=
  (∀ (s : State) (flash : FlashReading) (second : Option (List Byte)), s.phase = .running →
    s.get .bootStatus 0 = 0 →
    ∃ t, exec (.imageLoadComplete flash second) s = .next t
      ∧ Safety.sent s t (.flash (imageRead flash.sfdp) (slotAddress (if field (s.nat .bootStraps 0) 6 2 = 3 then 0
          else field (s.nat .bootStraps 0) 6 2)))
      ∧ (imageStatus flash.image = 0 → t.get .bootStatus 0 = 1
        ∧ t.nat .bootSlot 0 = (if field (s.nat .bootStraps 0) 6 2 = 3
            then 0 else field (s.nat .bootStraps 0) 6 2)
          ∧ t.nat .bootVersion 0 = imageVersion flash.image ∧ Safety.raised s t (evDev 1))
      ∧ (imageStatus flash.image ≠ 0 → field (s.nat .bootStraps 0) 6 2 ≠ 3 →
          t.nat .bootStatus 0 = imageStatus flash.image ∧ t.get .bootSlot 0 = 0xFF ∧ Safety.raised s t (evDev 2))
      ∧ (imageStatus flash.image ≠ 0 → field (s.nat .bootStraps 0) 6 2 = 3 → imageStatus second = 0 →
          t.get .bootStatus 0 = 1 ∧ t.get .bootSlot 0 = 1 ∧ t.nat .bootVersion 0 = imageVersion second
          ∧ Safety.raised s t (evDev 1) ∧ Safety.raised s t (evDev 2))
      ∧ (imageStatus flash.image ≠ 0 → field (s.nat .bootStraps 0) 6 2 = 3 → imageStatus second ≠ 0 →
          t.nat .bootStatus 0 = imageStatus second ∧ t.get .bootSlot 0 = 0xFF)
      ∧ Safety.eventChanges [.bootStatus, .bootSlot, .bootVersion, .bootLoadTime] s t)
    ∧ (∀ (s : State) (flash : FlashReading) (second : Option (List Byte)), s.get .bootStatus 0 ≠ 0 →
      exec (.imageLoadComplete flash second) s = .next s)
    ∧ (∀ (s : State) (cl : Client), Safety.allowed s cl .bootHostLoad 0 (.int 1) →
      (s.get .bootStatus 0 = 0 → ∃ t, exec (.hostImageLoad cl) s = .next t ∧ Safety.aborted s t cl 0x0A
        ∧ Safety.requestChanges [] s t)
      ∧ (s.get .bootStatus 0 = 1 → ∃ t, exec (.hostImageLoad cl) s = .next t ∧ Safety.aborted s t cl 0x08
        ∧ Safety.requestChanges [] s t))
    ∧ ((∀ (s : State) (cl : Client), Safety.allowed s cl .bootHostLoad 0 (.int 1) → s.get .bootStatus 0 ≠ 0 →
      s.get .bootStatus 0 ≠ 1 →
      ∃ t, exec (.hostImageLoad cl) s = .next t ∧ Safety.acked s t cl
        ∧ (imageStatus (some (s.blob .bootHostImage 0)) = 0 → t.get .bootStatus 0 = 6 ∧ t.get .bootSlot 0 = 0xFE
          ∧ Safety.raised s t (evDev 1))
        ∧ (imageStatus (some (s.blob .bootHostImage 0)) ≠ 0 →
          t.nat .bootStatus 0 = imageStatus (some (s.blob .bootHostImage 0)) ∧ t.get .bootSlot 0 = 0xFF
          ∧ Safety.raised s t (evDev 2))
        ∧ Safety.requestChanges [.bootStatus, .bootSlot, .bootVersion, .bootLoadTime] s t)
    ∧ (∀ s : State, s.phase ≠ .coldReset → s.phase ≠ .warmReset →
      ∃ t, exec .hbmTrainingComplete s = .next t ∧ t.get .xHbmTrained 0 = 1 ∧ Safety.changesOnly [.xHbmTrained] s t)
    ∧ (∀ (s : State) (cl : Client) (v : Bool), Safety.allowed s cl .forerunnerEnable 0 (.int (ofFlag v)) →
      ∃ t, exec (.forerunnerEnableWrite cl v) s = .next t ∧ Safety.acked s t cl
        ∧ t.get .forerunnerEnable 0 = ofFlag v ∧ t.get .forerunnerActive 0 = ofFlag v
        ∧ (v = false → ∀ u ∈ t.subscribers, u.fore = false)
        ∧ Safety.requestChanges [.forerunnerEnable, .forerunnerActive] s t))

/-! ## Device modes and carrier requests (02_modes.md) -/

/-- A write of 2000.01 that its rules refuse draws an abort, 2000.04 keeps the reason, and 2000.01 and 2000.02 keep
their values; what is refused: any code but 5 during a transition (2), an unlisted transition (1), Trim without
microcode (3) or before HBM training (7), from Haven as R46 says (4, 5), and Pair while a precondition fails, which
C000.0A keeps, or a standby's Carry while its partner is active on a link that is up, which it keeps as 6 (6) (R40, R42,
R46, R56, R456, R465). In the loop period in which a cause entered Haven a request is taken and not
acted on (the model's reading of R43, assumption 27); one for Trim in the period of a later cause is refused with 4. -/
def Obligations.ModeRequestsAreRefused : Prop :=
  (∀ (s : State) (cl : Client) (v : Fin 5), Safety.allowed s cl .deviceModeRequest 0 (.int v.val) →
    ∀ c, Safety.writeOf c = some (cl, .deviceModeRequest, 0, .int v.val) → ∀ reason : Nat,
    (s.get .deviceModeState 0 = 5 → s.get .xHavenPeriod 0 ≠ s.loopPeriod) →
    (s.flag .deviceModeBusy 0 = true ∧ reason = 2
      ∨ s.flag .deviceModeBusy 0 = false ∧ s.get .deviceModeState 0 < 5 ∧ s.get .deviceModeState 0 + 1 < v.val
        ∧ reason = 1
      ∨ s.flag .deviceModeBusy 0 = false ∧ s.get .deviceModeState 0 = 0 ∧ v.val = 1 ∧ s.get .bootStatus 0 ≠ 1
        ∧ s.get .bootStatus 0 ≠ 6 ∧ reason = 3
      ∨ s.flag .deviceModeBusy 0 = false ∧ s.get .deviceModeState 0 = 0 ∧ v.val = 1
        ∧ (s.get .bootStatus 0 = 1 ∨ s.get .bootStatus 0 = 6) ∧ s.flag .xHbmTrained 0 = false ∧ reason = 7
      ∨ s.flag .deviceModeBusy 0 = false ∧ s.get .deviceModeState 0 = 5 ∧ 2 ≤ v.val ∧ reason = 1
      ∨ s.flag .deviceModeBusy 0 = false ∧ s.get .deviceModeState 0 = 5 ∧ v.val = 1
        ∧ s.bit .deviceHavenCauses 0 3 = true ∧ reason = 5
      ∨ s.flag .deviceModeBusy 0 = false ∧ s.get .deviceModeState 0 = 5 ∧ v.val = 1
        ∧ s.bit .deviceHavenCauses 0 3 = false ∧ (s.causePersists = true ∨ s.get .xCausePeriod 0 = s.loopPeriod)
        ∧ reason = 4) →
    ∃ t, exec c s = .next t ∧ Safety.aborted s t cl 0x08 ∧ t.get .deviceModeRefusal 0 = reason
      ∧ Safety.requestChanges [.deviceModeRefusal] s t)
    ∧ (∀ (s : State) (cl : Client), Safety.allowed s cl .deviceModeRequest 0 (.int 4) →
      s.flag .deviceModeBusy 0 = false → s.get .deviceModeState 0 = 3 → s.pairBlock ≠ 0 →
      ∃ t, exec (.requestPair cl) s = .next t ∧ Safety.aborted s t cl 0x08 ∧ t.get .deviceModeRefusal 0 = 6
        ∧ t.get .pairRefusal 0 = (s.pairBlock : Nat) ∧ Safety.requestChanges [.deviceModeRefusal, .pairRefusal] s t)
    ∧ (∀ (s : State) (cl : Client), Safety.allowed s cl .deviceModeRequest 0 (.int 3) →
      s.flag .deviceModeBusy 0 = false → s.get .deviceModeState 0 = 4 → s.get .pairRole 0 = 2 →
      s.get .xPartnerRole 0 = 1 → s.tieUp = true →
      ∃ t, exec (.requestCarry cl) s = .next t ∧ Safety.aborted s t cl 0x08 ∧ t.get .deviceModeRefusal 0 = 6
        ∧ t.get .pairRefusal 0 = 6 ∧ Safety.requestChanges [.deviceModeRefusal, .pairRefusal] s t)
    ∧ ∀ (s : State) (cl : Client) (v : Fin 5), Safety.allowed s cl .deviceModeRequest 0 (.int v.val) →
      ∀ c, Safety.writeOf c = some (cl, .deviceModeRequest, 0, .int v.val) →
      s.get .deviceModeState 0 = 5 → s.get .xHavenPeriod 0 = s.loopPeriod →
      ∃ t, exec c s = .next t ∧ Safety.acked s t cl ∧ t.get .deviceModeRequest 0 = (v.val : Int)
        ∧ Safety.requestChanges [.deviceModeRequest] s t

/-- An accepted mode request starts its transition: 2000.01 takes the code, 2000.03 reads 1 and 2000.02 keeps the old
code. Upward one mode at a time (Trim from Dormant with microcode and trained HBM, Catch from Trim, Carry from Catch,
Pair from Carry), downward to any lower code (but where R465 keeps a standby in Pair), and from Haven to Dormant
always and to Trim when R46 lets it. A request for Trim powers the converters, one for Dormant takes their power away,
one for Pair agrees the role. A request for the mode that stands is accepted and starts nothing. From Haven this holds
outside the 5 µs period of a cause (R40, R43, R46, R56, R456). -/
def Obligations.ModeTransitionsStart : Prop :=
  (∀ (s : State) (cl : Client), Safety.allowed s cl .deviceModeRequest 0 (.int 1) →
      s.flag .deviceModeBusy 0 = false →
      (s.get .deviceModeState 0 = 0 ∧ (s.get .bootStatus 0 = 1 ∨ s.get .bootStatus 0 = 6)
          ∧ s.flag .xHbmTrained 0 = true
        ∨ s.get .deviceModeState 0 = 5 ∧ s.get .xHavenPeriod 0 ≠ s.loopPeriod ∧ s.get .xCausePeriod 0 ≠ s.loopPeriod
          ∧ s.bit .deviceHavenCauses 0 3 = false ∧ s.causePersists = false) →
      ∃ t, exec (.requestTrim cl) s = .next t ∧ Safety.acked s t cl ∧ t.get .deviceModeRequest 0 = 1
        ∧ t.get .deviceModeBusy 0 = 1 ∧ t.get .xTarget 0 = 1
        ∧ t.get .deviceModeState 0 = s.get .deviceModeState 0 ∧ t.get .xPowered 0 = 1)
    ∧ (∀ (s : State) (cl : Client), Safety.allowed s cl .deviceModeRequest 0 (.int 2) →
      s.flag .deviceModeBusy 0 = false → s.get .deviceModeState 0 = 1 →
      ∃ t, exec (.requestCatch cl) s = .next t ∧ Safety.acked s t cl ∧ t.get .deviceModeRequest 0 = 2
        ∧ t.get .deviceModeBusy 0 = 1 ∧ t.get .xTarget 0 = 2 ∧ t.get .deviceModeState 0 = 1)
    ∧ (∀ (s : State) (cl : Client), Safety.allowed s cl .deviceModeRequest 0 (.int 3) →
      s.flag .deviceModeBusy 0 = false → s.get .deviceModeState 0 = 2 →
      ∃ t, exec (.requestCarry cl) s = .next t ∧ Safety.acked s t cl ∧ t.get .deviceModeRequest 0 = 3
        ∧ t.get .deviceModeBusy 0 = 1 ∧ t.get .xTarget 0 = 3 ∧ t.get .deviceModeState 0 = 2
        ∧ Safety.requestChanges [.deviceModeRequest, .deviceModeBusy, .xTarget] s t)
    ∧ (∀ (s : State) (cl : Client), Safety.allowed s cl .deviceModeRequest 0 (.int 4) →
      s.flag .deviceModeBusy 0 = false → s.get .deviceModeState 0 = 3 → s.pairBlock = 0 →
      ∃ t, exec (.requestPair cl) s = .next t ∧ Safety.acked s t cl ∧ t.get .deviceModeRequest 0 = 4
        ∧ t.get .deviceModeBusy 0 = 1 ∧ t.get .xTarget 0 = 4 ∧ t.get .deviceModeState 0 = 3
        ∧ t.get .pairRole 0 = s.agreedRole ∧ t.get .pairState 0 = 1
        ∧ Safety.requestChanges [.deviceModeRequest, .deviceModeBusy, .xTarget, .pairRole, .pairState] s t)
    ∧ (let falls := fun (s t : State) (cl : Client) (v : Int) => Safety.acked s t cl ∧ t.get .deviceModeRequest 0 = v
        ∧ t.get .deviceModeBusy 0 = 1 ∧ t.get .xTarget 0 = v ∧ t.get .deviceModeState 0 = s.get .deviceModeState 0
      ∀ (s : State) (cl : Client), s.flag .deviceModeBusy 0 = false → s.get .deviceModeState 0 ≤ 4 →
        (Safety.allowed s cl .deviceModeRequest 0 (.int 1) → 1 < s.get .deviceModeState 0 →
          ∃ t, exec (.requestTrim cl) s = .next t ∧ falls s t cl 1 ∧ ∀ c < 12, t.get .carrierState c = 0)
        ∧ (Safety.allowed s cl .deviceModeRequest 0 (.int 2) → 2 < s.get .deviceModeState 0 →
          ∃ t, exec (.requestCatch cl) s = .next t ∧ falls s t cl 2 ∧ ∀ c < 12, s.get .carrierState c = 4 →
            t.get .carrierState c = 3 ∧ t.get .carrierLastDrop c = 4)
        ∧ (Safety.allowed s cl .deviceModeRequest 0 (.int 3) → s.get .deviceModeState 0 = 4 →
          ¬ (s.get .pairRole 0 = 2 ∧ s.get .xPartnerRole 0 = 1 ∧ s.tieUp = true) →
          ∃ t, exec (.requestCarry cl) s = .next t ∧ falls s t cl 3))
    ∧ (∀ (s : State) (cl : Client) (v : Fin 5), Safety.allowed s cl .deviceModeRequest 0 (.int v.val) →
      s.flag .deviceModeBusy 0 = false → s.get .deviceModeState 0 = v.val →
      ∀ c, Safety.writeOf c = some (cl, .deviceModeRequest, 0, .int v.val) →
      ∃ t, exec c s = .next t ∧ Safety.acked s t cl ∧ t.get .deviceModeRequest 0 = v.val
        ∧ Safety.requestChanges [.deviceModeRequest] s t)
    ∧ ∀ (s : State) (cl : Client), Safety.allowed s cl .deviceModeRequest 0 (.int 0) →
      s.flag .deviceModeBusy 0 = false → 1 ≤ s.get .deviceModeState 0 →
      (s.get .deviceModeState 0 = 5 → s.get .xHavenPeriod 0 ≠ s.loopPeriod) →
      ∃ t, exec (.requestDormant cl) s = .next t ∧ Safety.acked s t cl ∧ t.get .deviceModeRequest 0 = 0
        ∧ t.get .deviceModeBusy 0 = 1 ∧ t.get .xTarget 0 = 0
        ∧ t.get .deviceModeState 0 = s.get .deviceModeState 0 ∧ t.get .xPowered 0 = 0

/-- A write of 5 enters Haven whatever the mode and whatever transition runs: 2000.02 reads 5, 2000.03 reads 0, the
entry is counted, 2000.08 holds bit 0 and 2000.07 names it, an orderly shutdown in progress giving bit 5 with it; with
mute as its policy every carrier is Idle and every guard setpoint stands at 620 mV. In Haven it only sets bit 0 of
2000.08 and abandons a transition (R42, R44, R45, R46). At completion 2000.02 takes the new code, 2000.03 returns to 0
and device-wide source 0 is raised; a transition that still waits for something is not completed (R40). -/
def Obligations.HavenIsEnteredAndTransitionsComplete : Prop :=
  ((∀ (s : State) (cl : Client), Safety.allowed s cl .deviceModeRequest 0 (.int 5) → s.get .deviceModeState 0 ≠ 5 →
      ∃ t, exec (.requestHaven cl) s = .next t ∧ Safety.acked s t cl ∧ t.get .deviceModeState 0 = 5
        ∧ t.get .deviceModeBusy 0 = 0 ∧ t.get .deviceHavenCauses 0 = (if s.flag .xShutdown 0 = true then 33 else 1)
        ∧ t.get .deviceHavenFirstCause 0 = (if s.flag .xShutdown 0 = true then 5 else 0)
        ∧ Safety.countedBy s t .deviceHavenEntries 0 1
        ∧ (s.get .deviceHavenTxPolicy 0 = 0 ∨ s.flag .xShutdown 0 = true → t.get .xMute 0 = 1
          ∧ (∀ c < 12, t.get .carrierState c = 0) ∧ ∀ g < 5, t.get .guardSetpoint g = 6200))
    ∧ (∀ (s : State) (cl : Client), Safety.allowed s cl .deviceModeRequest 0 (.int 5) → s.get .deviceModeState 0 = 5 →
      ∃ t, exec (.requestHaven cl) s = .next t ∧ Safety.acked s t cl ∧ t.get .deviceModeState 0 = 5
        ∧ t.get .deviceModeBusy 0 = 0 ∧ t.nat .deviceHavenCauses 0
          = s.nat .deviceHavenCauses 0 ||| (if s.flag .xShutdown 0 = true then 33 else 1)
        ∧ t.get .deviceHavenFirstCause 0 = s.get .deviceHavenFirstCause 0
        ∧ t.get .deviceHavenEntries 0 = s.get .deviceHavenEntries 0))
    ∧ (∀ (s : State) (failed : List (Fin 52)), s.phase = .running → s.flag .deviceModeBusy 0 = true →
    ∃ t, exec (.modeTransitionComplete failed) s = .next t
      ∧ (s.transitionReady = true → t.get .deviceModeState 0 = s.get .xTarget 0 ∧ t.get .deviceModeBusy 0 = 0
        ∧ Safety.raised s t (evDev 0))
      ∧ (s.transitionReady = false → t = s))

/-- A carrier request is stored whatever the mode; 0 takes the carrier to Idle, and 1 takes a Carrying carrier to
Locked with last drop 3; any other is stored and acted on later (R47, R49). The carrier is in no bonding group here;
R257 says what its group does. -/
def Obligations.CarrierRequestsAreStoredAndActedOn : Prop :=
  ∀ (s : State) (cl : Client) (c : Fin 12) (v : Fin 256), Safety.allowed s cl .carrierRequest c (.int v.val) →
    ∃ t, exec (.carrierRequest cl c v) s = .next t ∧ Safety.acked s t cl ∧ t.get .carrierRequest c = v.val
      ∧ (s.get .carrierBondGroup c = 0xFF → v.val = 0 → t.get .carrierState c = 0)
      ∧ (s.get .carrierBondGroup c = 0xFF → v.val = 1 → s.get .carrierState c = 4 →
        t.get .carrierState c = 3 ∧ t.get .carrierLastDrop c = 3)
      ∧ (s.get .carrierBondGroup c = 0xFF → v.val ≠ 0 → ¬ (v.val = 1 ∧ s.get .carrierState c = 4) →
        Safety.requestChanges [.carrierRequest] s t)

/-! ## Guard loops, rails, temperature (01_architecture.md, 19_power_thermal.md) -/

/-- One period of the law: with backlog the setpoint rises by 10 mV up to 40 mV above its base; without backlog it
rises by 2.5 mV (10 mV for a carrier leaving Idle) while the droop capacity is short, falls by 2.5 mV when the
look-ahead capacity suffices and 20 periods have passed since the last change, and otherwise stays; always from 620 to
920 mV (R26, R27). Every period reports the readings, rounded down (assumption 26), and moves each setpoint by at most
10 mV within 620 to 920 mV in Carry and Pair; in Haven under mute it stands at 620 mV. Losing control of a rail (200
periods at 920 mV with a backlog, or three AVSBus transactions in a row that fail) enters Haven with cause bit 4; a
loop in control does not (R26, R29, R30, R45). A rail sample is reported and lowers the lowest voltage seen; below its
floor an episode starts and is counted, above it the episode ends; an episode that has lasted 200 µs (200 samples
after its first), and no shorter one, enters Haven with cause bit 1 (R413). -/
def Obligations.GuardPeriodsAndRailSamplesAreJudged : Prop :=
  (∀ (l : Law) (backlog q droop look : Nat) (raising waived : Bool), 6200 ≤ l.set → l.set ≤ 9200 →
      let t := lawStep l backlog q droop look raising waived
      (0 < backlog → l.set < l.base + 400 →
          t.set = max 6200 (min 9200 (min (l.set + 100) (l.base + 400))) ∧ t.zeroRun = 0 ∧ t.fast = true)
        ∧ (0 < backlog → l.base + 400 ≤ l.set → (raising = false ∨ q ≤ droop) → t.set = l.set ∧ t.zeroRun = 0)
        ∧ (backlog = 0 → droop < q → t.set = min 9200 (l.set + if raising then 100 else 25))
        ∧ (backlog = 0 → q ≤ droop → q ≤ look → 20 ≤ l.since ∨ waived = true → t.set = max 6200 (l.set - 25))
        ∧ (backlog = 0 → q ≤ droop → look < q → t.set = l.set)
        ∧ (backlog = 0 → 19 ≤ l.zeroRun → t.base = l.set))
    ∧ ((∀ (s : State) (m : Vector GuardReading 5) (hand : Vector (Fin 129 × Fin 129) 4), s.phase = .running →
      ∃ t, exec (.guardLoopPeriod m hand) s = .next t ∧ ∀ g : Fin 5,
        t.get .guardCRun g = (m[g].cRun / 1000 : Nat) ∧ t.get .guardCDroop g = (m[g].cDroop / 1000 : Nat)
        ∧ t.get .guardCLook g = (m[g].cLook / 1000 : Nat)
        ∧ (s.get .deviceModeState 0 = 5 → s.flag .xMute 0 = true → t.get .guardSetpoint g = 6200)
        ∧ (s.trafficFirst = true → 6200 ≤ s.get .guardSetpoint g → s.get .guardSetpoint g ≤ 9200 →
          s.get .guardSetpoint g - 25 ≤ t.get .guardSetpoint g ∧ t.get .guardSetpoint g ≤ s.get .guardSetpoint g + 100
          ∧ 6200 ≤ t.get .guardSetpoint g ∧ t.get .guardSetpoint g ≤ 9200))
    ∧ (∀ (s : State) (g : Fin 5), s.controlLost g = false → exec (.guardControlLost g) s = .next s)
    ∧ (∀ (s : State) (g : Fin 5), s.phase = .running → 200 ≤ s.get .xTopRun g ∨ 3 ≤ s.get .xAvsFail g →
      let bits := if s.flag .xShutdown 0 = true then 48 else 16
      ∃ t, exec (.guardControlLost g) s = .next t ∧ t.get .deviceModeState 0 = 5 ∧ t.get .guardState g = 3
        ∧ (s.get .deviceModeState 0 = 5 → t.nat .deviceHavenCauses 0 = s.nat .deviceHavenCauses 0 ||| bits)
        ∧ (s.get .deviceModeState 0 ≠ 5 → t.nat .deviceHavenCauses 0 = bits
          ∧ t.get .deviceHavenFirstCause 0 = (if s.flag .xShutdown 0 = true then 5 else 4)
          ∧ ∀ c < 12, t.get .carrierState c = 0)))
    ∧ ((∀ (s : State) (v : Vector (Fin 65536) 13), s.phase = .running →
      ∃ t, exec (.railSample v) s = .next t ∧ ∀ r : Fin 13,
        t.get .railVoltage r = (v[r].val : Int) ∧ t.get .railLowest r = min (s.get .railLowest r) (v[r].val : Int)
        ∧ (s.belowFloor r v[r].val = false → t.get .railState r = 0 ∧ t.get .railEpisodes r = s.get .railEpisodes r)
        ∧ (s.belowFloor r v[r].val = true → s.get .railState r = 0 →
          t.get .railState r = 1 ∧ Safety.countedBy s t .railEpisodes r 1)
        ∧ (s.belowFloor r v[r].val = true → s.get .railState r ≠ 0 → t.get .railState r = s.get .railState r
          ∧ t.get .xRailRun r = min 200 (s.get .xRailRun r + 1)))
    ∧ (∀ (s : State) (r : Fin 13), s.get .xRailRun r < 200 → exec (.brownout r) s = .next s)
    ∧ (∀ (s : State) (r : Fin 13), s.phase = .running → s.get .railState r = 1 → 200 ≤ s.get .xRailRun r →
      let bits := if s.flag .xShutdown 0 = true then 34 else 2
      ∃ t, exec (.brownout r) s = .next t ∧ t.get .railState r = 2 ∧ t.get .deviceModeState 0 = 5
        ∧ (s.get .deviceModeState 0 = 5 → t.nat .deviceHavenCauses 0 = s.nat .deviceHavenCauses 0 ||| bits)
        ∧ (s.get .deviceModeState 0 ≠ 5 → t.nat .deviceHavenCauses 0 = bits
          ∧ t.get .deviceHavenFirstCause 0 = (if s.flag .xShutdown 0 = true then 5 else 1)
          ∧ ∀ c < 12, t.get .carrierState c = 0)))

/-- A sample of a valid sensor that passes every test is its value; one outside −45 to 150 °C fails the sensor with
code 1, sets its bit in 2300.04 and raises source 44; readmission sets state 4 and, completed after a second without a
failed test, returns the sensor to valid (R425, R426, R428). An orderly shutdown ends in Haven with cause bit 5 and is
recorded; a write of 2500.08 restores exactly the carriers of its bits (R432, R433). A test is passed at a sample that
fails none: the model's reading of R428 (assumption 45). -/
def Obligations.SensorsFailAndShutdownIsRecorded : Prop :=
  ((∀ (s : State) (i : Fin 40) (code : Int), s.phase = .running →
      ∃ t, exec (.sensorSample i code) s = .next t ∧ t.get .sensorRaw i = tenths code
        ∧ (s.sensorValid i = true → -720 ≤ code → code ≤ 2400 →
          (s.get .xSenSameVal i ≠ code ∨ s.get .xSenSame i < 63) → s.disagrees i code = false →
          t.get .sensorValue i = tenths code ∧ t.get .sensorState i = 0)
        ∧ (s.sensorValid i = true → (code < -720 ∨ 2400 < code) →
          t.get .sensorState i = 1 ∧ t.bit .thermalFailed 0 i = true ∧ Safety.raised s t (evDev 44)))
    ∧ (∀ (s : State) (cl : Client) (i : Fin 40), Safety.allowed s cl .sensorReadmit i (.int 1) →
      s.get .sensorState i ≠ 0 → s.get .sensorState i ≠ 4 →
      ∃ t, exec (.sensorReadmit cl i) s = .next t ∧ Safety.acked s t cl ∧ t.get .sensorState i = 4
        ∧ t.get .xSenSame i = 0 ∧ t.get .xSenDis i = 0
        ∧ Safety.requestChanges [.sensorState, .xSenSame, .xSenDis, .xSenPassAt] s t)
    ∧ (∀ (s : State) (i : Fin 40), s.usSince .xSenPassAt i 1000000 = false →
      exec (.sensorReadmitComplete i) s = .next s)
    ∧ (∀ (s : State) (i : Fin 40), s.phase = .running → s.get .sensorState i = 4 →
      s.usSince .xSenPassAt i 1000000 = true →
      ∃ t, exec (.sensorReadmitComplete i) s = .next t ∧ t.get .sensorState i = 0 ∧ t.bit .thermalFailed 0 i = false
        ∧ t.get .sensorValue i = tenths (s.get .xSenSameVal i) ∧ Safety.raised s t (evDev 44)
        ∧ Safety.eventChanges [.sensorState, .thermalFailed, .xSenReal, .sensorValue, .sensorPeak, .sensorRate,
          .xSenHist, .thermalHottest, .thermalHottestSensor] s t))
    ∧ ((∀ s : State, s.phase = .running → s.flag .xShutdown 0 = true →
      ∃ t, exec .orderlyShutdownComplete s = .next t ∧ t.get .deviceModeState 0 = 5
        ∧ (s.get .deviceModeState 0 ≠ 5 → t.get .deviceHavenCauses 0 = 32 ∧ t.get .deviceHavenFirstCause 0 = 5)
        ∧ (s.get .deviceModeState 0 = 5 → t.nat .deviceHavenCauses 0 = s.nat .deviceHavenCauses 0 ||| 32)
          ∧ t.get .thermalLastStop 0 = 1
        ∧ t.flag .xShutdown 0 = false)
    ∧ (∀ (s : State) (cl : Client) (mask : Fin 65536), Safety.allowed s cl .throttleShed 0 (.int mask.val) →
      ∃ t, exec (.shedRestore cl mask) s = .next t ∧ Safety.acked s t cl
        ∧ (∀ c < 12, t.bit .throttleShed 0 c = (s.bit .throttleShed 0 c && !bitOf mask.val c))
        ∧ Safety.requestChanges [.throttleShed, .xShedOrder] s t))

/-! ## Slack buffers (01_architecture.md R16 to R22, 06_receive_equalisation.md R126) -/

/-- Clips of an arriving stroke set are counted per channel while the ADCs sample, in Idle too; the set is stored at
the end of the receive slack buffer, behind a gap marker for what was discarded before it; with 1,024 sets held it is
discarded, counted and the carrier is held (R19, R21, R59). At a transmit stroke period the oldest set leaves the
transmit buffer, or a hold set goes out, is counted and owed; the core makes a set as stages 1 to 8 say, counts its
clips, and delivers it up to the target, or discards one it owes (R16, R20, R21, R104, R115). The core takes the
oldest set above the target through receive stages 1 to 5, replaces a gap marker of up to 32 sets by flagged ones and
treats a longer one as a break; a gap marker is written once space is free (R16, R19, R124, R126, R127). The model's own:
the fills between which a hand-off starts and ends (assumption 26), what the buffers hold when a carrier leaves Idle (5),
at which known instants symbols are erased (37), and the width of what stands between the stages (38, 40, 42). -/
def Obligations.StrokesPassTheSlackBuffers : Prop :=
  (∀ (s : State) (c : Fin 12) (codes : List (List Int)), s.phase = .running → 2 ≤ s.rxLoop c →
    s.flag .xGainDue c = false →
    ∃ t, exec (.rxStrokeArrival c codes) s = .next t
      ∧ (∀ n : Fin 4, Safety.countedBy s t .adcClipCount (4 * c.val + n.val) (adcClips codes n.val))
      ∧ (s.get .carrierState c = 0 → t.slack c = s.slack c)
      ∧ (s.get .carrierState c ≠ 0 → s.flag .xRelock c = false → s.get .carrierSlackRxFill c < 1024 →
        t.slack c = s.slack c ++ (if s.get .xRxLost c = 0 then [] else [.gap (s.nat .xRxLost c)])
          ++ [.set (decide (s.get .xFlagNext c ≠ 0) || decide (s.rxLoop c = 3)) (codes.map (List.map adcCode))]
        ∧ t.get .carrierSlackRxFill c = s.get .carrierSlackRxFill c + 1
        ∧ t.get .carrierSlackRxPeak c = max (s.get .carrierSlackRxPeak c) (s.get .carrierSlackRxFill c + 1)
        ∧ t.get .xRxLost c = 0)
      ∧ (s.get .carrierState c ≠ 0 → s.flag .xRelock c = false → 1024 ≤ s.get .carrierSlackRxFill c →
        t.slack c = s.slack c ∧ Safety.countedBy s t .carrierSlackRxDiscarded c 1
        ∧ t.get .xRxLost c = s.get .xRxLost c + 1 ∧ t.get .carrierSlackHeld c ≠ 0)
      ∧ ∀ d : Nat, d ≠ c.val → t.slack d = s.slack d)
    ∧ (∀ (s : State) (c : Fin 12), s.phase = .running → s.get .carrierState c ≠ 0 →
      ∃ t, exec (.txStrokePeriod c) s = .next t
        ∧ (s.get .carrierSlackTxFill c = 0 → Safety.countedBy s t .carrierSlackTxHoldSets c 1
          ∧ t.get .xTxOwed c = s.get .xTxOwed c + 1 ∧ t.get .carrierSlackHeld c ≠ 0 ∧ t.get .carrierSlackTxFill c = 0
          ∧ Safety.sent s t (.stroke c (s.swings c) (s.dacCodes c midScale)))
        ∧ (s.get .carrierSlackTxFill c ≠ 0 → t.get .carrierSlackTxFill c = s.get .carrierSlackTxFill c - 1
          ∧ t.get .carrierSlackTxLow c = min (s.get .carrierSlackTxLow c) (s.get .carrierSlackTxFill c - 1)
          ∧ Safety.changesOnly [.carrierSlackTxFill, .carrierSlackTxLow] s t)
        ∧ ∀ x l, s.strokes c = x :: l → s.get .carrierSlackTxFill c = ((x :: l).length : Nat) →
          t.strokes c = l ∧ Safety.sent s t (.stroke c (s.swings c) (s.dacCodes c x)))
    ∧ (∀ (s : State) (c : Fin 12) (msaX msaY : List (Int × Int)) (reads : List (Nat × TileRead)),
      s.phase = .running → s.get .carrierState c ≠ 0 → s.get .xHandTx (c.val / 3) ≠ 0 →
      (s.get .xTxOwed c ≠ 0 ∨ s.get .carrierSlackTxFill c < s.get .carrierSlackTxTarget c) →
      let failed := reads.filter fun e => tileFails (s.lineTileBytes e.1 e.2.tile) e.2.bytes
      let marked := s.each failed fun s e => s.markTx e.1 e.2.tile
      let made := (s.tx c).stroke (marked.txSet c (msaX.zip msaY))
      ∃ t, exec (.coreStrokeAccept c msaX msaY reads) s = .next t ∧ t.tx c = made.1
        ∧ Safety.countedBy s t .carrierTxClips c (clipsOf made.2)
        ∧ (s.get .xTxOwed c = 0 → t.get .carrierSlackTxFill c = s.get .carrierSlackTxFill c + 1
          ∧ t.strokes c = s.strokes c ++ [codesOf made.2])
        ∧ (s.get .xTxOwed c ≠ 0 → t.get .xTxOwed c = s.get .xTxOwed c - 1 ∧ t.strokes c = s.strokes c
          ∧ t.get .carrierSlackTxFill c = s.get .carrierSlackTxFill c))
    ∧ (∀ (s : State) (c : Fin 12) (first next : Nat) (codes : Stroke) (erased : Bool) (rest : List SlackItem),
      s.phase = .running → s.get .carrierState c ≠ 0 → s.get .xHandRx (c.val / 3) < 128 →
      s.get .carrierSlackRxTarget c < s.get .carrierSlackRxFill c → s.slack c = .set erased codes :: rest →
      ∃ t, exec (.coreStrokeRelease c first next) s = .next t ∧ t.slack c = rest
        ∧ t.get .carrierSlackRxFill c = s.get .carrierSlackRxFill c - 1 ∧ Safety.countedBy s t .xRxSets c 1
        ∧ t.rx c = (s.rx c).stroke (s.rxSet c) (erased || decide (s.get .xGapFlag c ≠ 0)) codes
        ∧ (erased = true → Safety.countedBy s t .carrierRxErasedSymbols c (min 214 (next - first)))
        ∧ (s.get .captureState c ≠ 1 → s.get .captureState c ≠ 2 → t.mem = s.mem))
    ∧ (∀ (s : State) (c : Fin 12) (symbols n : Nat) (rest : List SlackItem), s.phase = .running →
      s.slack c = .gap n :: rest →
      ∃ t, exec (.gapMarkerReached c symbols) s = .next t ∧ t.slack c = rest ∧ Safety.countedBy s t .xRxSets c n
        ∧ (n ≤ 32 → Safety.countedBy s t .carrierRxErasedSymbols c symbols)
        ∧ (32 < n → t.get .xGapFlag c = 32 ∧ sget t.polQueue c.val [] = [] ∧ (t.rx c).delay = []))
    ∧ ∀ (s : State) (c : Fin 12), s.phase = .running → s.get .xRxLost c ≠ 0 → s.get .carrierSlackRxFill c < 1024 →
      ∃ t, exec (.gapMarkerWrite c) s = .next t ∧ t.slack c = s.slack c ++ [.gap (s.nat .xRxLost c)]
        ∧ t.get .xRxLost c = 0 ∧ Safety.changesOnly [.xRxLost] s t

/-! ## Line converters (03_line_converters.md) -/

/-- A REFL input is reported lost, within 100 ppm or beyond them, and counted where it ceases to be within; lost or
beyond, it sends the locked loops of its carriers to holdover; its return within 100 ppm locks them again and sends
carriers that are not Idle to Seeking with last drop 5, and one that is beyond only reports its offset (R63). Loops still
locking lock while REFL is within 100 ppm, and go to holdover at a Trim request while it is not (R63, R90). A loop that
is off stays off. -/
def Obligations.ReferencesDriveTheirLoops : Prop :=
  let mine := fun (k : Fin 4) (c : Fin 12) => c.val / 3 = k.val
  let go := fun (s t : State) (c : Fin 12) (v : Nat) =>
    t.rxLoop c = (if s.rxLoop c = 0 then 0 else v) ∧ t.txLoop c = (if s.txLoop c = 0 then 0 else v)
  (∀ (s : State) (k : Fin 4) (present : Bool) (offset : Int), s.phase = .running →
      let new : Int := if present = false then 0 else if offset.natAbs ≤ 100000 then 1 else 2
      ∃ t, exec (.reflLoss k present offset) s = .next t ∧ t.get .reflState k = new
        ∧ t.get .reflOffset k = (if present = true then max (-2147483647) (min 2147483647 offset) else -2147483648)
        ∧ (new ≠ 1 → s.get .reflState k ≠ new → Safety.countedBy s t .reflLosses k 1)
        ∧ (new = 1 ∨ s.get .reflState k = new → t.get .reflLosses k = s.get .reflLosses k)
        ∧ (new = 1 → Safety.changesOnly [.reflState, .reflOffset] s t)
        ∧ (new ≠ 1 → ∀ c : Fin 12, mine k c → 2 ≤ s.rxLoop c → go s t c 3))
    ∧ (∀ (s : State) (k : Fin 4) (offset : Int), s.phase = .running → offset.natAbs ≤ 100000 →
      ∃ t, exec (.reflRelock k offset) s = .next t ∧ t.get .reflState k = 1 ∧ t.get .reflOffset k = offset
        ∧ ∀ c : Fin 12, mine k c → s.rxLoop c = 3 →
          (s.get .carrierState c = 0 → go s t c 2)
          ∧ (s.get .carrierState c ≠ 0 → t.get .carrierState c = 1)
          ∧ (3 ≤ s.get .carrierState c → t.get .carrierLastDrop c = 5))
    ∧ (∀ (s : State) (k : Fin 4) (offset : Int), s.phase = .running → 100000 < offset.natAbs →
      ∃ t, exec (.reflRelock k offset) s = .next t ∧ t.get .reflState k = 2
        ∧ t.get .reflOffset k = max (-2147483647) (min 2147483647 offset)
        ∧ Safety.changesOnly [.reflState, .reflOffset, .reflLosses] s t)
    ∧ (∀ (s : State) (k : Fin 4), s.phase = .running → s.get .reflState k = 1 →
      ∃ t, exec (.synthesiserLock k) s = .next t ∧ ∀ c : Fin 12, mine k c → s.rxLoop c = 1 ∨ s.txLoop c = 1 →
        s.flag .xRelock c = false → go s t c 2)
    ∧ (∀ (s : State) (k : Fin 4), s.get .reflState k ≠ 1 → exec (.synthesiserLock k) s = .next s)
    ∧ (∀ (s : State) (k : Fin 4), s.phase = .running → s.get .reflState k ≠ 1 →
      ∃ t, exec (.reflHoldoverAtTrim k) s = .next t ∧ ∀ c : Fin 12, mine k c → s.rxLoop c = 1 ∨ s.txLoop c = 1 →
        s.flag .xRelock c = false → t.rxLoop c = 3 ∧ t.txLoop c = 3)
    ∧ ∀ (s : State) (k : Fin 4), s.get .reflState k = 1 → exec (.reflHoldoverAtTrim k) s = .next s

/-- A full AGC window of 256 sets with 16 unflagged ones reports each channel's RMS and decides a step down above the
window and up below it, none at the end of the gain's range or in another mode; a decided step waits for two sets, and
the next window starts four sets on; a window of fewer unflagged sets decides and reports nothing (R66, R67). The
decided steps are applied together with two flagged sets (R67); in manual mode the gain moves one code toward its
target, a decided step first (R69, R83). How the RMS is rounded is the model's choice (assumption 48). -/
def Obligations.GainStepsFollowTheWindow : Prop :=
  let restarted := fun (t : State) (c : Fin 12) => t.get .xAgcSets c = 0 ∧ t.get .xAgcGood c = 0
    ∧ ∀ n : Fin 4, t.get .xAgcSum (4 * c.val + n.val) = 0
  (∀ (s : State) (c : Fin 12), s.phase = .running → 256 ≤ s.nat .xAgcSets c → 16 ≤ s.nat .xAgcGood c →
      let many := 256 * s.nat .xAgcGood c
      ∃ t, exec (.agcWindowEnd c () ()) s = .next t ∧ restarted t c
        ∧ (∀ n : Fin 4,
          let a := 4 * c.val + n.val
          let sum := s.nat .xAgcSum a
          let above := aboveWindow sum many (s.nat .adcAgcTarget a) (s.nat .adcAgcHysteresis a)
          let below := belowWindow sum many (s.nat .adcAgcTarget a) (s.nat .adcAgcHysteresis a)
          t.get .adcRms a = (rmsOf sum many : Nat)
          ∧ (s.get .adcAgcMode a = 1 → above = true → t.get .xGainStep a = if s.get .adcAgcGain a = 0 then 0 else -1)
          ∧ (s.get .adcAgcMode a = 1 → above = false → below = true → s.get .adcAgcGain a ≠ 36 → t.get .xGainStep a = 1)
          ∧ (s.get .adcAgcMode a = 1 → above = false → below = true → s.get .adcAgcGain a = 36 → t.get .xGainStep a = 0)
          ∧ (s.get .adcAgcMode a ≠ 1 ∨ above = false ∧ below = false → t.get .xGainStep a = 0))
        ∧ ((∃ n : Fin 4, t.get .xGainStep (4 * c.val + n.val) ≠ 0) →
          t.get .xGainDue c = 1 ∧ t.get .xGainWait c = 2 ∧ t.get .xAgcSkip c = 4)
        ∧ ((∀ n : Fin 4, t.get .xGainStep (4 * c.val + n.val) = 0) → t.get .xGainDue c = 0 ∧ t.get .xAgcSkip c = 0))
    ∧ (∀ (s : State) (c : Fin 12), s.phase = .running → 256 ≤ s.nat .xAgcSets c → s.nat .xAgcGood c < 16 →
      ∃ t, exec (.agcWindowEnd c () ()) s = .next t ∧ restarted t c
        ∧ Safety.changesOnly [.xAgcSum, .xAgcSets, .xAgcGood, .xAgcSkip, .xAgcBelow, .xGainWait, .xGainDue] s t)
    ∧ (∀ (s : State) (c : Fin 12), s.nat .xAgcSets c < 256 → exec (.agcWindowEnd c () ()) s = .next s)
    ∧ (∀ (s : State) (c : Fin 12), s.phase = .running → s.get .carrierState c ≠ 0 → s.rxHeld c = false →
      s.flag .xGainDue c = true → s.get .xGainWait c = 0 →
      ∃ t, exec (.gainStepApply c) s = .next t ∧ t.get .xFlagNext c = 2 ∧ t.get .xGainDue c = 0
        ∧ (∀ n : Fin 4, t.get .adcAgcGain (4 * c.val + n.val)
            = s.get .adcAgcGain (4 * c.val + n.val) + s.get .xGainStep (4 * c.val + n.val))
        ∧ Safety.changesOnly [.adcAgcGain, .adcAgcSteps, .xGainStep, .xGainDue, .xFlagNext] s t)
    ∧ (∀ (s : State) (c : Fin 12), s.flag .xGainDue c = false ∨ s.get .xGainWait c ≠ 0 →
      exec (.gainStepApply c) s = .next s)
    ∧ (∀ (s : State) (c : Fin 12) (n : Fin 4), s.phase = .running → s.get .carrierState c ≠ 0 → s.rxHeld c = false →
      s.flag .xGainDue c = false → s.get .xFlagNext c = 0 → s.get .adcAgcMode (4 * c.val + n.val) = 2 →
      s.get .adcAgcGain (4 * c.val + n.val) < s.get .adcAgcManualGain (4 * c.val + n.val) →
      ∃ t, exec (.manualGainStep c) s = .next t ∧ t.get .xFlagNext c = 2
        ∧ t.get .adcAgcGain (4 * c.val + n.val) = s.get .adcAgcGain (4 * c.val + n.val) + 1
        ∧ Safety.changesOnly [.adcAgcGain, .adcAgcSteps, .xFlagNext] s t)

/-- The open-input test runs on an Idle carrier and reports per leg; a shorted leg is protected, counted and reported;
retries try it at the interval set, and a trial without current limiting re-enables it (R71, R72, R80, R81). -/
def Obligations.ConverterTestsReport : Prop :=
  (∀ (s : State) (cl : Client) (c : Fin 12), Safety.allowed s cl .carrierOpenTestRequest c (.int 1) →
      s.flag .carrierOpenTestBusy c = false → s.get .carrierState c = 0 →
      ∃ t, exec (.openTestRequest cl c) s = .next t ∧ Safety.acked s t cl ∧ t.get .carrierOpenTestBusy c = 1
        ∧ Safety.requestChanges [.carrierOpenTestBusy] s t)
    ∧ (∀ (s : State) (c : Fin 12) (p n : Vector (Fin 65536) 4), s.phase = .running →
      s.flag .carrierOpenTestBusy c = true →
      ∃ t, exec (.openTestComplete c p n) s = .next t ∧ t.get .carrierOpenTestBusy c = 0
        ∧ (∀ k : Fin 4, t.get .adcOpenShiftP (4 * c.val + k.val) = (p[k].val : Int)
          ∧ t.get .adcOpenShiftN (4 * c.val + k.val) = (n[k].val : Int)
          ∧ t.get .adcOpenResult (4 * c.val + k.val)
            = 1 + (if 100 < p[k].val then 2 else 0) + (if 100 < n[k].val then 4 else 0))
        ∧ Safety.eventChanges [.carrierOpenTestBusy, .adcOpenShiftP, .adcOpenShiftN, .adcOpenResult] s t)
    ∧ (∀ (s : State) (d : Fin 48) (leg : Fin 2), s.phase = .running → s.flag .xPowered 0 = true →
      s.bit .dacShortState d leg = false →
      ∃ t, exec (.dacShortDetect d leg) s = .next t ∧ t.bit .dacShortState d leg = true
        ∧ Safety.countedBy s t .dacShortEpisodes d 1 ∧ Safety.raised s t (evDac d 0)
        ∧ Safety.eventChanges [.dacShortState, .dacShortEpisodes, .xTrial, .xShortAt, .adcState, .dacState] s t)
    ∧ (∀ (s : State) (d : Fin 48) (leg : Fin 2), s.phase = .running → s.flag .xPowered 0 = true →
      s.bit .dacShortState d leg = true → s.flag .dacShortRetryEnable d = true →
      s.flag .xTrial (2 * d.val + leg.val) = false →
      s.usSince .xShortAt (2 * d.val + leg.val) (1000 * s.get .dacShortRetryInterval d) = true →
      ∃ t, exec (.shortRetryTrial d leg) s = .next t ∧ t.get .xTrial (2 * d.val + leg.val) = 1
        ∧ t.get .xShortAt (2 * d.val + leg.val) = s.get .xTicks 0
        ∧ Safety.countedBy s t .dacShortRetries d 1 ∧ Safety.changesOnly [.xTrial, .dacShortRetries, .xShortAt] s t)
    ∧ (∀ (s : State) (d : Fin 48) (leg : Fin 2),
      s.usSince .xShortAt (2 * d.val + leg.val) (1000 * s.get .dacShortRetryInterval d) = false →
      exec (.shortRetryTrial d leg) s = .next s)
    ∧ (∀ (s : State) (d : Fin 48) (leg : Fin 2) (engaged : Bool), s.phase = .running →
      s.flag .xTrial (2 * d.val + leg.val) = true →
      ∃ t, exec (.shortTrialEnd d leg engaged) s = .next t ∧ t.get .xTrial (2 * d.val + leg.val) = 0
        ∧ (engaged = true → t.get .dacShortState d = s.get .dacShortState d ∧ Safety.changesOnly [.xTrial] s t)
        ∧ (engaged = false → t.bit .dacShortState d leg = false ∧ Safety.raised s t (evDac d 1)))

/-- A stroke boundary of a powered device puts the stored wiring, RMS target, swing and delays in force (R74, R77,
R79, R113, R121, R122, R129). -/
def Obligations.StrokeBoundariesPutSettingsInForce : Prop :=
  ∀ (s : State) (c : Fin 12), s.phase = .running → s.flag .xPowered 0 = true →
    ∃ t, exec (.strokeBoundaryApply c) s = .next t ∧ t.get .xTxMap c = s.get .carrierWiringTxMap c
      ∧ t.get .xRmsTarget c = s.get .carrierTxRmsTarget c ∧ t.get .xWiringDue c = 0
      ∧ (∀ j : Fin 4, t.get .xTxSkew (4 * c.val + j.val) = s.get (txSkewReg j) c
        ∧ t.get .xRxSkew (4 * c.val + j.val) = s.get (rxSkewReg j) c
        ∧ t.get .xSwing (4 * c.val + j.val) = s.get .dacSwing (4 * c.val + j.val))
      ∧ (∀ m : Fin 8, s.get .xWiringDue c = m.val + 1 → t.get .carrierWiringAppliedMap c = (m.val : Int))

/-! ## Converter calibration (04_converter_calibration.md) -/

/-- A recalibration starts the named carriers, or is refused with abort 0x0A while one of them calibrates (R94). A
completed foreground calibration gives every converter whose units all hold the limits state 1, its record from the
measurement, the spare unit resting and none suspect; one with two or more units beyond a limit goes to state 4, keeps
its records and makes the first failing unit its suspect; the open test starts (R71, R88, R89, R91). A background
step, at the interval in force, rests the unit that serves the next slot, which the resting one takes over; its
measurement is accepted into its record, or refused, counted and reported, and the third refusal in a row makes it
suspect (R89, R95 to R97, R99). A converter whose rotation has stopped on a suspect keeps all it has until a
recalibration is asked for (R98). What the reports leave open, and how the band of a loop is kept, are the model's choices
(assumptions 31, 32). -/
def Obligations.CalibrationCommitsRotatesAndRefuses : Prop :=
  ((∀ (s : State) (cl : Client) (m : Fin 65536), Safety.allowed s cl .calFgRequest 0 (.int m.val) →
      (∀ c < 12, bitOf m.val c = true → s.flag .xFgCal c = false) →
      ∃ t, exec (.recalRequest cl m) s = .next t ∧ Safety.acked s t cl
        ∧ (∀ c < 12, bitOf m.val c = true → t.get .xFgCal c = 1 ∧ t.get .xFgCalTick c = s.get .xTicks 0)
        ∧ Safety.requestChanges [.xFgCal, .xFgCalTick, .calFgBusy, .convCalSuspect, .xCalSuspectWas, .adcState,
          .dacState] s t
        ∧ ∀ c < 12, bitOf m.val c = true → ∀ n < 4, t.get .convCalSuspect (4 * c + n) = 0xFF
          ∧ t.get .convCalSuspect (48 + 4 * c + n) = 0xFF)
    ∧ (∀ (s : State) (cl : Client) (m : Fin 65536), Safety.allowed s cl .calFgRequest 0 (.int m.val) →
      (∃ c < 12, bitOf m.val c = true ∧ s.flag .xFgCal c = true) →
      ∃ t, exec (.recalRequest cl m) s = .next t ∧ Safety.aborted s t cl 0x0A ∧ Safety.requestChanges [] s t)
    ∧ (∀ (s : State) (c : Fin 12) (adcs dacs : Vector CalConverter 4), s.phase = .running →
      s.flag .xFgCal c = true →
      let bad := fun (m : CalConverter) (k : Nat) => (brokenLimit (s.referenceAim c) (calUnitOf m k) none).isSome
      let free := fun (u : Nat) => s.get .convCalState u ≠ 3 ∨ s.bit .calFgBusy 0 c = true
      ∃ t, exec (.foregroundCalComplete c adcs dacs) s = .next t ∧ t.get .xFgCal c = 0
        ∧ t.get .carrierOpenTestBusy c = 1
        ∧ t.get .calFgDuration 0 = (s.get .xTicks 0 - s.get .xFgCalTick c) / 250
        ∧ (∀ n : Fin 4, free (4 * c.val + n.val) → (∀ k < 65, bad adcs[n] k = false) →
          t.get .convCalState (4 * c.val + n.val) = 1 ∧ t.get .convCalResting (4 * c.val + n.val) = 64
          ∧ t.get .convCalSuspect (4 * c.val + n.val) = 0xFF
          ∧ t.blob .convCalRecords (4 * c.val + n.val)
            = (List.range 65).flatMap fun k => leBytes 4 (packRecord (calUnitOf adcs[n] k) : Nat))
        ∧ (∀ n : Fin 4, free (48 + 4 * c.val + n.val) → (∀ k < 17, bad dacs[n] k = false) →
          t.get .convCalState (48 + 4 * c.val + n.val) = 1 ∧ t.get .convCalResting (48 + 4 * c.val + n.val) = 16
          ∧ t.get .convCalSuspect (48 + 4 * c.val + n.val) = 0xFF)
        ∧ (∀ (n : Fin 4) (j k : Nat), free (4 * c.val + n.val) → j < k → k < 65 → bad adcs[n] j = true →
          bad adcs[n] k = true →
          t.get .convCalState (4 * c.val + n.val) = 4
          ∧ ((∀ i < j, bad adcs[n] i = false) → t.get .convCalSuspect (4 * c.val + n.val) = j)
          ∧ t.blob .convCalRecords (4 * c.val + n.val) = s.blob .convCalRecords (4 * c.val + n.val))
        ∧ ∀ n : Fin 4, ¬ free (4 * c.val + n.val) → t.get .convCalState (4 * c.val + n.val) = 3
          ∧ t.get .convCalSuspect (4 * c.val + n.val) = s.get .convCalSuspect (4 * c.val + n.val)
          ∧ t.blob .convCalRecords (4 * c.val + n.val) = s.blob .convCalRecords (4 * c.val + n.val)))
    ∧ ((∀ (s : State) (u : Fin 96), s.phase = .running → s.bgOn = true →
      (s.get .convCalState u = 1 ∨ s.get .convCalState u = 2) → s.flag .xCalBusy u = false → s.bgDue u = true →
      (if u.val < 48 then s.rxHeld (convCarrier u) = false else s.txLoop (convCarrier u) = 2) →
      ∃ t, exec (.bgCalStepStart u) s = .next t ∧ t.get .xCalBusy u = 1 ∧ t.get .convCalState u = 2
        ∧ t.get .convCalResting u = (((s.calMap u).getD (s.nat .xCalSlot u) 0).toNat : Int)
        ∧ t.blob .convCalSlotMap u
          = (s.calMap u).set (s.nat .xCalSlot u) (BitVec.ofNat 8 (s.nat .convCalResting u))
        ∧ t.get .xCalSlot u = ((s.nat .xCalSlot u + 1) % slotsOf u : Nat)
        ∧ Safety.changesOnly [.convCalSlotMap, .convCalResting, .xCalBusy, .convCalState, .xCalSlot, .convCalLapTime,
          .xCalLapStarted, .xCalLapTick, .convCalRecords, .xCalLost, .xCalStepAt, .xCalStepLen] s t
        ∧ ((∀ k < 65, s.flag .xCalLost (68 * u.val + k) = false) →
          t.blob .convCalRecords u = s.blob .convCalRecords u ∧ ∀ i, t.get .xCalLost i = s.get .xCalLost i))
    ∧ (∀ (s : State) (u : Fin 96), s.bgOn = false ∨ s.bgDue u = false → exec (.bgCalStepStart u) s = .next s)
    ∧ (∀ (s : State) (u : Fin 96) (m : CalUnit), s.phase = .running → s.flag .xCalBusy u = true →
      let m' : CalUnit :=
        if u.val < 48 then { m with skew := m.skew + recordSkew (s.recordAt u (s.calServing u)) } else m
      brokenLimit (s.referenceAim (convCarrier u)) m' (some (s.recordAt u (s.nat .convCalResting u))) = none →
      ∃ t, exec (.bgCalMeasureComplete u m) s = .next t ∧ t.get .xCalBusy u = 0
        ∧ Safety.countedBy s t .convCalSteps u 1
        ∧ t.blob .convCalRecords u = (s.calRecords u).take (4 * s.nat .convCalResting u)
          ++ leBytes 4 (packRecord m' : Nat) ++ (s.calRecords u).drop (4 * s.nat .convCalResting u + 4)
        ∧ Safety.changesOnly [.xCalBusy, .convCalSteps, .convCalRecords, .xCalFailRun, .xCalLost,
          .convCalState] s t)
    ∧ (∀ (s : State) (u : Fin 96) (m : CalUnit) (l : Nat), s.phase = .running → s.flag .xCalBusy u = true →
      let m' : CalUnit :=
        if u.val < 48 then { m with skew := m.skew + recordSkew (s.recordAt u (s.calServing u)) } else m
      brokenLimit (s.referenceAim (convCarrier u)) m' (some (s.recordAt u (s.nat .convCalResting u))) = some l →
      ∃ t, exec (.bgCalMeasureComplete u m) s = .next t ∧ t.get .xCalBusy u = 0
        ∧ Safety.countedBy s t .convCalRefusals u 1 ∧ t.get .convCalLastLimit u = l
        ∧ t.get .convCalLastSlice u = s.nat .convCalResting u
        ∧ Safety.raised s t (evCarrier (convCarrier u) 24)
        ∧ t.blob .convCalRecords u = s.blob .convCalRecords u
        ∧ (s.get .xCalFailRun (68 * u.val + s.nat .convCalResting u) = 2 →
          t.get .convCalSuspect u = s.nat .convCalResting u ∧ t.get .convCalState u = 3)
        ∧ (s.get .xCalFailRun (68 * u.val + s.nat .convCalResting u) ≠ 2 →
          t.get .convCalSuspect u = s.get .convCalSuspect u)))

/-! ## Transmit shaping, dispersion and deskew (05_transmit_path.md, 06_receive_equalisation.md) -/

/-- A filter's standby bank takes a written bank; a commit waits for the next stroke boundary as a swap, or as a
cross-fade for a dispersion filter alone; both are refused with abort 0x0A while the filter is busy. A cross-fade that
has run into its 20th stroke set and a computed bank in Idle put the standby bank in force, the bank that was in force
becoming standby; a filter stays busy while a computation runs on (R117 to R120). Auto-trim reports the residuals and
moves each channel whose residual is 2 steps or more, and whose 1 ms count has run since its last turn or host write, by
one step toward cancelling it, inside −4096 to 4096, while nothing holds the trim; a window with erased samples is
skipped (R128, R130, R146). A bank mode written in Idle, and a target written during a cross-fade, are met as assumptions
33 and 34 say. -/
def Obligations.BanksTakeForceAndDeskewTrims : Prop :=
  ((∀ (s : State) (cl : Client) (b : Fin 72) (v : List Byte), Safety.allowed s cl .bankStandby b (.bytes v) →
      s.flag .bankBusy b = false →
      ∃ t, exec (.bankStandbyWrite cl b v) s = .next t ∧ Safety.acked s t cl ∧ t.blob .bankStandby b = v
        ∧ Safety.requestChanges [.bankStandby, .xSbyParam] s t)
    ∧ (∀ (s : State) (cl : Client) (b : Fin 72) (v : List Byte), Safety.allowed s cl .bankStandby b (.bytes v) →
      s.flag .bankBusy b = true →
      ∃ t, exec (.bankStandbyWrite cl b v) s = .next t ∧ Safety.aborted s t cl 0x0A ∧ Safety.requestChanges [] s t)
    ∧ (∀ (s : State) (cl : Client) (b : Fin 72), Safety.allowed s cl .bankCommit b (.int 1) →
      s.flag .bankBusy b = false →
      ∃ t, exec (.bankCommitSwap cl b) s = .next t ∧ Safety.acked s t cl ∧ t.get .xBankPending b = 1
        ∧ t.get .bankBusy b = 1 ∧ Safety.requestChanges [.xBankPending, .bankBusy] s t)
    ∧ (∀ (s : State) (cl : Client) (b : Fin 72), Safety.allowed s cl .bankCommit b (.int 2) →
      s.flag .bankBusy b = false → b.val / 12 = 1 ∨ b.val / 12 = 4 →
      ∃ t, exec (.bankCommitCrossfade cl b) s = .next t ∧ Safety.acked s t cl ∧ t.get .xBankPending b = 2
        ∧ t.get .bankBusy b = 1 ∧ Safety.requestChanges [.xBankPending, .bankBusy] s t)
    ∧ (∀ (s : State) (cl : Client) (b : Fin 72), Safety.allowed s cl .bankCommit b (.int 2) →
      b.val / 12 ≠ 1 → b.val / 12 ≠ 4 →
      ∃ t, exec (.bankCommitCrossfade cl b) s = .next t ∧ Safety.aborted s t cl 0x08
        ∧ Safety.requestChanges [] s t)
    ∧ (∀ (s : State) (b : Fin 72), s.phase = .running → s.flag .xBankFading b = true → 20 ≤ s.get .xFadeSets b →
      ∃ t, exec (.crossfadeEnd b) s = .next t ∧ t.get .bankActiveBank b = 1 - s.get .bankActiveBank b
        ∧ t.activeOf b = s.standbyOf b ∧ (s.blob .xBankHole b = [] → t.standbyOf b = s.activeOf b)
        ∧ Safety.countedBy s t .bankCommits b 1 ∧ t.get .xBankFading b = 0
        ∧ (b.val / 12 ≠ 4 → t.get .bankBusy b = ofFlag (s.flag .xBankComputing b)))
    ∧ (∀ (s : State) (b : Fin 72), s.flag .xBankFading b = false ∨ s.get .xFadeSets b < 20 →
      exec (.crossfadeEnd b) s = .next s)
    ∧ (∀ (s : State) (b : Fin 72), s.phase = .running → s.flag .xBankComputing b = true →
      s.get .xBankPending b = 0 → s.flag .xBankFading b = false →
      ∃ t, exec (.bankComputeComplete b) s = .next t ∧ t.get .xBankComputing b = 0
        ∧ (s.idle (b.val % 12) = true → t.activeOf b = bankContents b (s.bankParams b)
          ∧ (s.blob .xBankHole b = [] → t.standbyOf b = s.activeOf b)
          ∧ t.get .bankActiveBank b = 1 - s.get .bankActiveBank b ∧ Safety.countedBy s t .bankCommits b 1)
        ∧ (s.idle (b.val % 12) = false → t.standbyOf b = bankContents b (s.bankParams b)
          ∧ t.get .xBankPending b = (if b.val / 12 = 0 then 1 else 2) ∧ t.get .bankBusy b = 1
          ∧ Safety.changesOnly [.bankStandby, .xSbyParam, .xBankComputing, .xBankPending, .bankBusy] s t)))
    ∧ (∀ (s : State) (c : Fin 12) (residual : Vector Int 4), s.phase = .running →
      s.upLine c = true → s.flag .carrierRxSkewAuto c = true → s.flag .xDeskewErased c = false →
      ∃ t, exec (.deskewAutoTrim c residual) s = .next t
        ∧ (∀ j : Fin 4, t.get (rxResidualReg j) c = max (-32768) (min 32767 residual[j]))
        ∧ (∀ j : Fin 4, s.bit .carrierRxHolding c 4 = true ∨ residual[j].natAbs < 2
            ∨ s.get .xTicks 0 < s.get .xTrimTick (4 * c.val + j.val) + 250000 →
          t.get (rxSkewReg j) c = s.get (rxSkewReg j) c)
        ∧ (∀ j : Fin 4, s.bit .carrierRxHolding c 4 = false →
          s.get .xTrimTick (4 * c.val + j.val) + 250000 ≤ s.get .xTicks 0 →
          t.get .xTrimTick (4 * c.val + j.val) = s.get .xTicks 0
          ∧ (2 ≤ residual[j] → -4095 ≤ s.get (rxSkewReg j) c → s.get (rxSkewReg j) c ≤ 4096 →
            t.get (rxSkewReg j) c = s.get (rxSkewReg j) c - 1)
          ∧ (residual[j] ≤ -2 → -4096 ≤ s.get (rxSkewReg j) c → s.get (rxSkewReg j) c ≤ 4095 →
            t.get (rxSkewReg j) c = s.get (rxSkewReg j) c + 1))
        ∧ Safety.changesOnly [.carrierRxSkewResXi, .carrierRxSkewResXq, .carrierRxSkewResYi, .carrierRxSkewResYq,
          .carrierRxSkewXi, .carrierRxSkewXq, .carrierRxSkewYi, .carrierRxSkewYq, .carrierRxSkewAutoSteps, .xTrimTick,
          .xDeskewErased, .xPolFrozen, .carrierRxPolState, .carrierRxHolding] s t)
    ∧ (∀ (s : State) (c : Fin 12) (residual : Vector Int 4), s.phase = .running → s.flag .xDeskewErased c = true →
      ∃ t, exec (.deskewAutoTrim c residual) s = .next t ∧ t.get .xDeskewErased c = 0
        ∧ Safety.changesOnly [.xDeskewErased, .xPolFrozen, .carrierRxPolState, .carrierRxHolding] s t)

/-! ## The receive chain (06_receive_equalisation.md, 07_superchannel.md) -/

/-- A block of 16 symbols passes the polarisation equaliser to stage 8; the tap change it asks for lands six blocks
later, and none is asked for and none lands while it holds; the timing loop follows it, its integrator held while the
receive loop has stopped or freeze bit 1 stands (R132). A block passes the second pass: the cancellation taps of each
side that subtracts move by that side's gradient, no other does, and late decisions are counted (R141, R142, R146,
R147, R158 to R160, R168). A known-symbol group of a carrier past Seeking releases the symbols held with their
decisions and phases, exports them where a neighbour in force takes them, and judges the blind track: within π/8 of a
whole number of quarter turns it is resolved, counted where that number is not 0 and no erased group stood between;
any other difference is an unresolved slip, counted and reported; an erased group is remembered (R157, R166, R167).
The forms that the rules leave open are the model's: the frequency loop and what makes a group erased (assumption 36),
the steps of 2⁻³⁰ (38), the signs of the front end (42), the timing loop and the phase in holdover (49). -/
def Obligations.ReceiveTapsAdaptAndSlipsResolve : Prop :=
  ((∀ (s : State) (c : Fin 12) (k : PolBlock), s.phase = .running → s.idle c = false →
      let st := s.get .carrierState c
      let d := s.polData c k
      let asked := polChanges (s.blob .xPolTaps c) (st == 1) (st == 2)
        (cmaGamma (s.nat .carrierFecModulationInForce c) (s.nat .carrierFecRxKdm c))
        (s.nat .xPolK (2 * c.val + if st ≤ 2 then 0 else 1)) d.1
      let put := if s.get .carrierRxPolState c = 4 then [] else asked
      let q := sget s.polQueue c.val []
      ∃ t, exec (.polAdaptBlock c k) s = .next t
        ∧ (t.rx c).held = (s.rx c).held ++ s.polSymbols c k d.1 d.2
        ∧ t.bit .xPolFrozen c 2 = s.bit .carrierRxFreeze c 2
        ∧ (q.length < 6 → sget t.polQueue c.val [] = q ++ [put] ∧ t.blob .xPolTaps c = s.blob .xPolTaps c)
        ∧ (∀ g rest, q = g :: rest → 6 ≤ q.length → sget t.polQueue c.val [] = rest ++ [put]
          ∧ t.blob .xPolTaps c = (if s.get .carrierRxPolState c = 4 ∨ g = [] then s.blob .xPolTaps c
            else addChanges (s.blob .xPolTaps c) g))
        ∧ t.get .carrierRxTimingOffset c = rdiv (t.rx c).clockFreq 65536
        ∧ (s.rxStopped c = true ∨ s.bit .xPolFrozen c 1 = true → (t.rx c).clockFreq = (s.rx c).clockFreq)
        ∧ Safety.changesOnly [.xPolTaps, .xPolFrozen, .xPolK, .carrierRxPolState, .carrierRxHolding, .xCaptureFilled,
          .carrierRxTimingOffset] s t)
    ∧ (∀ (s : State) (c : Fin 12) (k : NcBlock) (first : Decision) (rest : List Decision), s.phase = .running →
      (s.rx c).delay.take 16 = first :: rest →
      let lo := s.sideTaps c 0
      let up := s.sideTaps c 1
      let d := s.ncData c k (first :: rest) first
      let step := s.nat .xNcStep c
      ∃ t, exec (.ncAdaptBlock c k) s = .next t ∧ (t.rx c).delay = (s.rx c).delay.drop 16
        ∧ (∀ w, lo = some w → t.blob .xNcTaps c = addChanges w (ncChanges lo up d d.lower step))
        ∧ (∀ w, up = some w → t.blob .xNcTaps (12 + c.val) = addChanges w (ncChanges lo up d d.upper step))
        ∧ (lo = none → t.blob .xNcTaps c = s.blob .xNcTaps c)
        ∧ (up = none → t.blob .xNcTaps (12 + c.val) = s.blob .xNcTaps (12 + c.val))
        ∧ (s.neighbour c 0 ≠ 0xFF →
          Safety.countedBy s t .carrierNcSideOutOfWindow c (s.lateCount c 0 k.lowerLate))
        ∧ (s.neighbour c 1 ≠ 0xFF →
          Safety.countedBy s t .carrierNcSideOutOfWindow (12 + c.val) (s.lateCount c 1 k.upperLate))
        ∧ Safety.changesOnly [.xNcTaps, .carrierNcSideOutOfWindow, .xNcLate, .xNcStep, .xCaptureFilled] s t))
    ∧ (∀ (s : State) (c : Fin 12) (ns : Nat) (ps : Fin 1000), s.phase = .running → s.get .carrierState c < 2 →
      ∃ t, exec (.pilotGroupCheck c ns ps) s = .next t ∧ (t.rx c).held = [] ∧ Safety.changesOnly [] s t)
    ∧ (∀ (s : State) (c : Fin 12) (ns : Nat) (ps : Fin 1000), s.phase = .running → 2 ≤ s.get .carrierState c →
      let l := (s.rx c).held
      let n := (l.takeWhile fun e => !knownAt (s.lineSet 1 c) e.at_).length
      let erased := groupErased (l.drop n)
      let x := s.phaseTrack c 0 l n erased
      let y := s.phaseTrack c 1 l n erased
      let d := decisionsOf (s.lineSet 1 c) (s.nat .xPilotBoost c) (s.upLine c) (s.rx c) (s.nat .xRxRate c)
        (1000 * ns + ps.val) (s.get .carrierRxTimingOffset c) l x y
      let resolved := fun (v : Slip) => match v with
        | .resolved _ => 1
        | _ => 0
      let unresolved := fun (v : Slip) => match v with
        | .unresolved => 1
        | _ => 0
      ∃ t, exec (.pilotGroupCheck c ns ps) s = .next t ∧ (t.rx c).held = []
        ∧ (t.rx c).track = (x.phases.getLast?.getD (s.rx c).track.1, y.phases.getLast?.getD (s.rx c).track.2)
        ∧ (t.rx c).stream = (d.reverse ++ (s.rx c).stream).take 4096
        ∧ (s.exported c = true → Safety.sent s t (.decisions c (streamBlocks d.length d)))
        ∧ (s.get .carrierNcInForce c ≠ 0 → (t.rx c).delay = (s.rx c).delay ++ d)
        ∧ (erased = true ∨ s.rxStopped c = true → (t.rx c).freq = (s.rx c).freq)
        ∧ (s.upLine c = true → t.get .xGroupErased c = ofFlag erased
          ∧ Safety.countedBy s t .carrierCrSlipsResolved c (resolved x.slip + resolved y.slip)
          ∧ Safety.countedBy s t .carrierCrSlipsUnresolved c (unresolved x.slip + unresolved y.slip)
          ∧ Safety.countedBy s t .eventCount (evCarrier c 37) (unresolved x.slip + unresolved y.slip)
          ∧ Safety.eventChanges [.xGroupErased, .carrierCrSlipsResolved, .carrierCrSlipsUnresolved, .xCaptureFilled]
            s t)
        ∧ (s.upLine c = false → Safety.changesOnly [.xCaptureFilled] s t))
    ∧ (∀ (delta : Int) (gap : Bool),
      (∀ k off : Int, delta = 2048 * k + off → off.natAbs ≤ 512 →
        slipOf delta gap = if k = 0 then .none else if gap = true then .unresolved else .resolved k)
      ∧ ((∀ k : Int, 512 < (delta - 2048 * k).natAbs) → slipOf delta gap = .unresolved))

/-- A frame start of a Locked or Carrying carrier takes the monitored quantities into their filters, judges each side,
takes the frequency estimate, counts missed frame words and rebuilds Y after two frames on one sequence; the pilot SNR
is that of the second pass where a side subtracted in the frame that ended; in Idle nothing happens (R144, R148, R161 to
R163, R165, R169, R229). How the results are rounded is left open (assumptions 10 and 49). -/
def Obligations.FrameStartsUpdateTheReceiveChain : Prop :=
  (∀ (s : State) (c : Fin 12) (m : FrameReading), s.phase = .running → s.get .carrierState c = 0 →
      exec (.rxFrameStart c m) s = .next s)
    ∧ (∀ (s : State) (c : Fin 12) (m : FrameReading), s.phase = .running → s.upLine c = true →
      s.rxStopped c = false →
      ∃ t, exec (.rxFrameStart c m) s = .next t
        ∧ (∀ q : Fin 7, s.get .xTrackWindow c = 0 → 1 ≤ q.val →
          let i := 12 * q.val + c.val
          let r := t.get .carrierMonRaw i
          t.get .xMonV i = (if s.flag .xMonSeen i = true then
              s.get .xMonV i + (256 * r - s.get .xMonV i) / 2 ^ (s.nat .carrierMonShift i) else 256 * r)
          ∧ t.get .carrierMonFiltered i = (t.get .xMonV i + 128) / 256
          ∧ (∀ h : q.val < 4, r = m.raw[q.val])
          ∧ (q.val = 4 → r = if s.sideLive c 0 = true ∨ s.sideLive c 1 = true then m.snrSecond else m.raw[4])
          ∧ (q.val = 5 → r = t.get .carrierRxTimingOffset c)
          ∧ (q.val = 6 → r = (max (t.get .carrierRxFePhaseX c).natAbs (t.get .carrierRxFePhaseY c).natAbs : Nat)))
        ∧ (∀ (d : Fin 2) code, s.sideCode c d = some code →
          t.get .carrierNcSideState (12 * d.val + c.val) = code ∧ t.get .xNcGuard (12 * d.val + c.val) = 0)
        ∧ (s.flag .xTimLost c = false → m.timingError.natAbs ≤ 250 →
          t.get .carrierCrFreqOffset c = max (-6000000) (min 6000000 (rdiv (s.rx c).freq 1000000)))
        ∧ (∀ d : Fin 2, t.get .carrierNcSideLeakage (12 * d.val + c.val)
          = leakageOf (s.blob .xNcTaps (12 * d.val + c.val)))
        ∧ t.get .xCrWindow c = s.get .carrierCrWindow c
        ∧ (s.wordErased c m = false → s.nat .carrierFecProfileInForce c ≠ 2 →
          (s.get .carrierCatchConfirm c ≤ m.metric → 0 < s.get .xLofRun c → t.get .xLofRun c = -1)
          ∧ (m.metric < s.get .carrierCatchConfirm c → 0 ≤ s.get .xLofRun c →
            t.get .xLofRun c = s.get .xLofRun c + 1))
        ∧ (s.wordErased c m = false → m.sameSequence = true → s.get .xPolSame c = 1 →
          Safety.countedBy s t .carrierRxPolReinits c 1 ∧ Safety.raised s t (evCarrier c 34)))

/-! ## The catch (08_catch.md) -/

/-- A survey refresh opens the gates of the candidates that meet strength and offset over a full window; of the
matches found in one known-symbol interval in Seeking one of the highest metric is kept, and becomes the tentative
catch at the next known-symbol group; in Tentative one that exceeds the reference by the margin pre-empts; a relocked
receive loop restarts the survey or the frame-word search (R62, R175 to R177, R179, R182). The eighth confirmation
with enough pilot SNR locks the carrier, latches the SNR and raises carrier source 38; 32 expected frame starts
without a lock abandon the catch, which is counted, and the carrier seeks again (R179 to R181). The model's own: when the
catch settings and survey windows take effect (assumption 35), how the pilot SNR is rounded (10), and which candidate is
kept among equal ones (22). -/
def Obligations.TheCatchLeadsToLockOrIsAbandoned : Prop :=
  ((∀ (s : State) (c : Fin 12) (l : Vector SurveyReading 8) (rmsX rmsY : Vector (Fin 65536) 2),
      s.phase = .running → s.engineRuns c = true →
      ∃ t, exec (.surveyRefresh c l rmsX rmsY) s = .next t
        ∧ (∀ i : Fin 8, s.candidateRate c i = none → t.bit .carrierCatchGates c i = false)
        ∧ (∀ (i : Fin 8) r, s.candidateRate c i = some r → t.bit .carrierCatchGates c i
            = (decide (r ≤ s.nat .xRxRate c)
              && decide (s.get .xSurveyTick (8 * c.val + i.val) + 250 * s.get .xSurveyWin (8 * c.val + i.val)
                ≤ s.get .xTicks 0)
              && decide (s.catchSet c 0 ≤ l[i].strength)
              && decide ((l[i].offset.natAbs : Int) ≤ 1000 * s.catchSet c 1)))
        ∧ (s.get .carrierState c = 1 → t.get .carrierCatchState c = (if t.get .carrierCatchGates c = 0 then 1 else 2)))
    ∧ (∀ (s : State) (c : Fin 12) (l : List MatchReading) (m : MatchReading), s.phase = .running →
      s.engineRuns c = true → s.get .carrierState c = 1 → s.flag .xMatchPending c = false → m ∈ l →
      (s.matchCounts c m).isSome = true →
      ∃ t b r, exec (.catchMatch c l) s = .next t ∧ b ∈ l ∧ s.matchCounts c b = some r
        ∧ (∀ n ∈ l, (s.matchCounts c n).isSome = true → matchMetric n ≤ matchMetric b)
        ∧ t.get .xMatchPending c = 1 ∧ t.get .xMatchRate c = (r : Int) ∧ t.get .xMatchMetric c = matchMetric b
        ∧ t.get .xMatchKind c = b.kind.val ∧ t.get .xMatchStart c = (matchStart b : Int)
        ∧ Safety.changesOnly [.xMatchPending, .xMatchRate, .xMatchCand, .xMatchMetric, .xMatchKind, .xMatchStart,
          .xMatchFreq, .xMatchMap, .xSurveySeen] s t)
    ∧ (∀ (s : State) (c : Fin 12) (l : List MatchReading), (∀ m ∈ l, s.matchCounts c m = none) →
      exec (.catchMatch c l) s = .next s)
    ∧ (∀ (s : State) (c : Fin 12) (m : MatchReading) (r : Nat), s.phase = .running → s.engineRuns c = true →
      s.get .carrierState c = 2 → s.flag .xSearch c = false → s.matchCounts c m = some r →
      s.matchSame c r m = false → s.preemptReference c + s.catchSet c 5 ≤ matchMetric m →
      ∃ t, exec (.catchMatch c [m]) s = .next t ∧ Safety.countedBy s t .carrierCatchPreemptions c 1
        ∧ t.get .carrierState c = 2 ∧ t.get .carrierCatchMetric c = matchMetric m
        ∧ t.get .xFrameStart c = (matchStart m : Int) ∧ t.get .carrierCatchFrames c = 0)
    ∧ (∀ (s : State) (c : Fin 12) (frequency : Int), s.phase = .running → s.get .carrierState c = 1 →
      s.flag .xMatchPending c = true → s.rxStopped c = false →
      ∃ t, exec (.tentativeEntry c frequency) s = .next t ∧ t.get .carrierState c = 2
        ∧ t.get .xMatchPending c = 0 ∧ t.get .carrierCatchMetric c = s.get .xMatchMetric c
        ∧ t.get .carrierCatchMatchKind c = s.get .xMatchKind c ∧ t.get .carrierCatchFreqHandover c = frequency
        ∧ t.get .xFrameStart c = s.get .xMatchStart c ∧ t.get .carrierCatchFrames c = 0
        ∧ Safety.countedBy s t .carrierCatchEntries c 1
        ∧ t.get .carrierCatchConfirmations c = (if s.get .xMatchKind c = 0 then 1 else 0))
    ∧ (∀ (s : State) (c : Fin 12), s.phase = .running → s.flag .xRelock c = true → s.rxLoop c ≠ 3 →
      ∃ t, exec (.rxLoopRelock c) s = .next t ∧ t.get .xRelock c = 0 ∧ t.rxLoop c = 2
        ∧ t.txLoop c = (if s.txLoop c = 1 ∧ s.get .carrierState c ≠ 0 then 2 else s.txLoop c)
        ∧ (s.get .carrierState c = 1 → t.get .carrierCatchState c = (if t.get .carrierCatchGates c = 0 then 1 else 2)
          ∧ ∀ i < 8, t.bit .carrierCatchGates c i = false)
        ∧ (s.get .carrierState c = 2 → t.get .carrierCatchState c = 3 ∧ t.get .carrierCatchConfirmations c = 0
          ∧ t.get .xSearch c = 1)))
    ∧ ((∀ (s : State) (c : Fin 12) (m : FrameReading), s.phase = .running → s.get .carrierState c = 2 →
      s.rxStopped c = false → s.flag .xSearch c = false → s.wordErased c m = false →
      s.catchSet c 3 ≤ m.metric → 7 ≤ s.get .carrierCatchConfirmations c →
      (∀ j : Fin 8, s.flag .xSnrOk (8 * c.val + j.val) = false) → s.catchSet c 4 ≤ s.pilotSnr c m →
      ∃ t, exec (.rxFrameStart c m) s = .next t ∧ t.get .carrierState c = 3
        ∧ t.get .carrierCatchLockSnr c = s.pilotSnr c m ∧ t.get .carrierCatchState c = 0
        ∧ Safety.raised s t (evCarrier c 38))
    ∧ (∀ (s : State) (c : Fin 12) (m : FrameReading), s.phase = .running → s.get .carrierState c = 2 →
      s.rxStopped c = false → s.flag .xSearch c = false → s.wordErased c m = true →
      s.get .carrierCatchConfirmations c < 8 → s.get .carrierCatchFrames c = 31 →
      ∃ t, exec (.rxFrameStart c m) s = .next t ∧ t.get .carrierState c = 1
        ∧ Safety.countedBy s t .carrierCatchAbandons c 1))

/-! ## Coding (09_coding.md) -/

/-- A codeword of a carrier that decodes is counted. One whose decisions satisfy every check by the cap counts its
iterations, at least 2, its positions that were not erased and the errors corrected; one that does not counts as
failed, in Sprint as uncorrectable too, and in nothing else of the inner code. In Long the rung that leaves the ladder
window is counted: rows and bits corrected and rows left wrong. In Compatible the oFEC decoder's figures are counted
(R202, R206, R207, R210). Which bits a decoder converges to, and when, comes with the command, as no rule gives its
arithmetic (assumption 6); windows that the line has not filled stand as erased (assumption 46). -/
def Obligations.CodewordsAreDecodedAndCounted : Prop :=
  (∀ (s : State) (c : Fin 12) (m : CodewordReading), s.get .carrierState c < 2 →
      exec (.codewordDecode c m) s = .next s)
    ∧ (∀ (s : State) (c : Fin 12) (m : CodewordReading), s.phase = .running → 2 ≤ s.get .carrierState c →
      s.flag .xRelock c = false → s.nat .carrierFecProfileInForce c ≠ 2 →
      let prof := s.nat .carrierFecProfileInForce c
      let word := fillTo 9216 false m.word
      let r := (s.rx c).atCodeword
      let llr := r.codeword prof
      let after := RxLine.ladderIn (s.lineSet 1 c) (word.take (infoLength prof)) { r with slots := r.slots.drop 1 }
      let ok := converges (s.nat .carrierFecCapInForce c) m.satisfiedAt && innerOk prof word
      ∃ t, exec (.codewordDecode c m) s = .next t ∧ Safety.countedBy s t .carrierFecCodewords c 1
        ∧ (t.rx c).slots = r.slots.drop 1
        ∧ (∀ n, ok = true → m.satisfiedAt = some n →
          Safety.countedBy s t .carrierFecIterations c (max 2 n)
          ∧ Safety.countedBy s t .carrierFecBits c (llr.filter Option.isSome).length
          ∧ Safety.countedBy s t .carrierFecCorrected c ((List.zipWith llrDiffers llr word).filter id).length
          ∧ t.get .carrierFecCwFailed c = s.get .carrierFecCwFailed c)
        ∧ (ok = false → Safety.countedBy s t .carrierFecCwFailed c 1
          ∧ t.get .carrierFecIterations c = s.get .carrierFecIterations c
          ∧ t.get .carrierFecBits c = s.get .carrierFecBits c
          ∧ t.get .carrierFecCorrected c = s.get .carrierFecCorrected c)
        ∧ (prof = 1 → (ok = false → Safety.countedBy s t .carrierFecUncorrectable c 1)
          ∧ (ok = true → t.get .carrierFecUncorrectable c = s.get .carrierFecUncorrectable c))
        ∧ (∀ was, prof = 0 → after.leaving = some was →
          let n := rungFigures after.prev was m.rung
          Safety.countedBy s t .carrierFecLadderRowsCorrected c n.1
          ∧ Safety.countedBy s t .carrierFecLadderBitsCorrected c n.2.1
          ∧ Safety.countedBy s t .carrierFecUncorrectable c n.2.2)
        ∧ Safety.changesOnly [.carrierFecCodewords, .carrierFecIterations, .carrierFecBits, .carrierFecCorrected,
          .carrierFecCwFailed, .carrierFecUncorrectable, .carrierFecLadderRowsCorrected,
          .carrierFecLadderBitsCorrected, .carrierFecDmMismatch] s t)
    ∧ ∀ (s : State) (c : Fin 12) (m : CodewordReading), s.phase = .running → 2 ≤ s.get .carrierState c →
      s.flag .xRelock c = false → s.nat .carrierFecProfileInForce c = 2 →
      let ok := converges (s.nat .carrierFecCapInForce c) m.satisfiedAt
      ∃ t, exec (.codewordDecode c m) s = .next t ∧ Safety.countedBy s t .carrierFecCodewords c 1
        ∧ (ok = true → Safety.countedBy s t .carrierFecBits c m.softBits
          ∧ Safety.countedBy s t .carrierFecCorrected c m.softCorrected)
        ∧ (ok = false → Safety.countedBy s t .carrierFecCwFailed c 1
          ∧ t.get .carrierFecBits c = s.get .carrierFecBits c)
        ∧ Safety.countedBy s t .carrierFecUncorrectable c m.blocksFailed
        ∧ Safety.changesOnly [.carrierFecCodewords, .carrierFecBits, .carrierFecCorrected, .carrierFecCwFailed,
          .carrierFecUncorrectable] s t

/-! ## Framing, pages, overhead and defects (10_line_frame.md) -/

/-- A transmit multiframe boundary starts the next multiframe with its BSQ and FNUM 0, puts the Cm and fill codes that
were fixed before in force, sends an announced page for one multiframe and then makes its standby rows the active ones
(R215, R221, R248). A receive multiframe boundary of a Locked or Carrying carrier: a pending page takes force, else an
announced page is followed; a carrier that is asked to carry advances to Carrying in Carry and Pair; a phase word that
disagrees is counted (R47, R209, R222). In Compatible the pages alone move, and the carrier advances (R205, R235). The
phase word is the line's, or the command's where the line has brought none (the model's reading, assumption 46), and a
lost word of a table comes back at a boundary (45). -/
def Obligations.MultiframesFlipPagesAndAdvance : Prop :=
  ((∀ (s : State) (c : Fin 12) (l : List StreamReading), s.phase = .running → s.get .carrierState c = 0 →
      exec (.txMultiframeBoundary c l) s = .next s)
    ∧ (∀ (s : State) (c : Fin 12) (l : List StreamReading), s.phase = .running → s.get .carrierState c ≠ 0 →
      s.nat .carrierFecProfileInForce c = 2 →
      ∃ t, exec (.txMultiframeBoundary c l) s = .next t ∧ t.get .xTxMf c = s.get .xTxMf c
        ∧ (s.bit .tsiPending 0 c = true → t.bit .tsiPending 0 c = false ∧ Safety.countedBy s t .tsiFlips 0 1
          ∧ ∀ r ∈ rowsOf c, t.get .tsiActiveRow r = s.get .tsiStandbyRow r))
    ∧ ∀ (s : State) (c : Fin 12) (l : List StreamReading), s.phase = .running → s.get .carrierState c ≠ 0 →
      s.nat .carrierFecProfileInForce c ≠ 2 →
      ∃ t, exec (.txMultiframeBoundary c l) s = .next t ∧ t.get .xTxMf c = s.get .xTxMf c + 1
        ∧ t.get .xTxFnum c = 0
        ∧ t.get .xTxBsq c = (if s.get .xTxMf c = 0 then 0 else (s.get .xTxBsq c + 1) % 2 ^ 24)
        ∧ (s.get .xAnnounce c = 1 → t.get .xAnnounce c = 2)
        ∧ (s.get .xAnnounce c = 2 → t.get .xAnnounce c = 0 ∧ t.get .xTpgTx c = 1 - s.get .xTpgTx c
          ∧ Safety.raised s t (evCarrier c 11)
          ∧ ∀ r ∈ rowsOf c, t.get .tsiActiveRow r = s.get .tsiStandbyRow r)
        ∧ (s.get .xAnnounce c ≠ 2 → s.flag .calPending 0 = false → s.get .xTxMf c ≠ 0 → ∀ u ∈ s.tribsOn 0 c,
          t.get .xTribCmNow u = s.get .xTribCm u ∧ t.get .xTribFillNow u = s.get .xTribFill u))
    ∧ ((∀ (s : State) (c : Fin 12) (m : RxMultiframe), s.upLine c = false →
      exec (.rxMultiframeBoundary c m) s = .next s)
    ∧ (∀ (s : State) (c : Fin 12) (m : RxMultiframe), s.phase = .running → s.upLine c = true →
      s.rxStopped c = false → s.nat .carrierFecProfileInForce c = 2 →
      ∃ t, exec (.rxMultiframeBoundary c m) s = .next t ∧ t.rx c = s.rx c
        ∧ (s.bit .tsiPending 1 c = true → t.bit .tsiPending 1 c = false ∧ Safety.countedBy s t .tsiFlips 1 1
          ∧ ∀ r ∈ rowsOf c, t.get .tsiActiveRow (3840 + r) = s.get .tsiStandbyRow (3840 + r))
        ∧ (s.get .carrierState c = 3 → s.get .carrierRequest c = 2 → (s.mode = 3 ∨ s.mode = 4) →
          t.get .carrierState c = 4))
    ∧ ∀ (s : State) (c : Fin 12) (m : RxMultiframe), s.phase = .running → s.upLine c = true →
      s.rxStopped c = false → s.nat .carrierFecProfileInForce c ≠ 2 →
      ∃ t, exec (.rxMultiframeBoundary c m) s = .next t ∧ t.get .xFnum c = 0
        ∧ t.get .xMfArrival c = (m.arrival + 1 : Nat)
        ∧ (∀ b, majority (s.rx c).multi.bsqs = some b → s.flag .xMfArrival c = true →
          t.get .carrierBondBsq c = (b : Nat))
        ∧ (t.rx c).multi = RxMulti.start
        ∧ (s.bit .tsiPending 1 c = true → t.bit .tsiPending 1 c = false ∧ Safety.countedBy s t .tsiFlips 1 1
          ∧ ∀ r ∈ rowsOf c, t.get .tsiActiveRow (3840 + r) = s.get .tsiStandbyRow (3840 + r))
        ∧ (s.bit .tsiPending 1 c = false → s.flag .tsiRxFollow 0 = true → 128 ≤ (s.rx c).multi.announced →
          s.bit .carrierDefectDeclared c 1 = false → s.bit .carrierDefectDeclared c 2 = false →
          s.flag .carrierSlackHeld c = false → s.flipReason 1 (2 ^ c.val) = 0 →
          ∀ r ∈ rowsOf c, t.get .tsiActiveRow (3840 + r) = s.get .tsiStandbyRow (3840 + r))
        ∧ (s.get .carrierState c = 3 → s.get .carrierRequest c = 2 → (s.mode = 3 ∨ s.mode = 4) →
          t.get .carrierState c = 4)
        ∧ (s.flag .xPhaseKnown c = true → s.nat .xPhaseWord c ≠ (s.rx c).phase.getD (phaseWordOf m.signs) →
          Safety.countedBy s t .carrierFecPhaseMismatch c 1))

/-- A received logical frame counts parity errors, BEI and reserved STAT codes and follows FNUM; a transmitted one
sends its overhead with the parity of the frame before it, its bits, with the sequence added, follow those that wait
for the coding chain, and with the port enabled it takes a burst; a waiting out burst leaves in 10 bytes (R213 to
R215, R225 to R229). In Compatible what the OTUC overhead tells comes with the command, and the burst alone is taken
(R235; the model's reading, assumption 49). Bits the line has not brought are the command's (assumption 46). -/
def Obligations.LogicalFramesCarryOverhead : Prop :=
  (∀ (s : State) (c : Fin 12) (x : LineFrameReading), s.phase = .running → s.upLine c = true →
      s.rxStopped c = false → s.nat .carrierFecProfileInForce c = 2 →
      ∃ t, exec (.rxLogicalFrame c x) s = .next t ∧ t.rx c = s.rx c
        ∧ Safety.countedBy s t .carrierOhBeiReceived c x.otuc.bei.val
        ∧ t.get .carrierOhBipErrors c = s.get .carrierOhBipErrors c)
    ∧ (∀ (s : State) (c : Fin 12) (x : LineFrameReading), s.phase = .running → s.upLine c = true →
      s.rxStopped c = false → s.nat .carrierFecProfileInForce c ≠ 2 →
      let m := parseFrame (s.rx c).bip ((s.lineFrameIn c x.bits).2.map Prod.fst)
      ∃ t, exec (.rxLogicalFrame c x) s = .next t ∧ Safety.countedBy s t .carrierOhBipErrors c m.bipErrors.val
        ∧ Safety.countedBy s t .carrierOhBeiReceived c m.bei.val
        ∧ t.get .xBeiStore c = s.get .xBeiStore c + m.bipErrors.val
        ∧ (2 ≤ m.stat.val → m.stat.val ≤ 6 → Safety.countedBy s t .carrierOhBadStat c 1)
        ∧ (s.get .xFnum c = (m.fnum.val : Int) → t.get .xFnum c = ((m.fnum.val + 1) % 256 : Nat)))
    ∧ (∀ (s : State) (c : Fin 12) (gcc : Vector Byte 10), s.phase = .running → s.get .carrierState c ≠ 0 →
      ∃ t, exec (.ohpInBurst c gcc) s = .next t
        ∧ t.get .xTxFnum c = (if s.nat .carrierFecProfileInForce c = 2 then s.get .xTxFnum c
          else ((s.nat .xTxFnum c + 1) % 256 : Nat))
        ∧ (s.get .carrierOhpEnable c = 0 → t.get .carrierOhpInBursts c = s.get .carrierOhpInBursts c
          ∧ t.blob .xOhpOut c = [])
        ∧ (s.get .carrierOhpEnable c ≠ 0 → Safety.countedBy s t .carrierOhpInBursts c 1)
        ∧ (s.nat .carrierFecProfileInForce c ≠ 2 → ∃ h : FrameHead, h.fnum = s.nat .xTxFnum c
          ∧ h.bsq = s.nat .xTxBsq c ∧ h.bip = (s.tx c).bip
          ∧ h.stat = s.statSent c ∧ h.tpg = s.flag .xTpgTx c ∧ h.fann = (s.get .xAnnounce c == 2)
          ∧ Safety.sent s t (.overhead c h.fnum h.bsq h.tti h.bei h.bdi h.stat h.tpg h.fann h.gcc)
          ∧ (∃ word tail,
            let area := areaBits (s.nat .carrierFecTxNeed c - 2048) h.fnum word
            (t.tx c).bits.map Prod.fst
              = (s.tx c).bits.map Prod.fst ++ scramble (byteBits h.bytes ++ area ++ tail)
            ∧ (h.fnum ≠ 255 → tail = []) ∧ (t.tx c).bip = bipOf area)))
    ∧ (∀ (s : State) (c : Fin 12), s.phase = .running → s.blob .xOhpOut c ≠ [] →
      ∃ t, exec (.ohpOutBurst c) s = .next t ∧ t.blob .xOhpOut c = (s.blob .xOhpOut c).drop 10
        ∧ Safety.countedBy s t .carrierOhpOutBursts c 1
        ∧ Safety.sent s t (.burst c ((s.blob .xOhpOut c).take 10))
        ∧ Safety.changesOnly [.xOhpOut, .carrierOhpOutBursts] s t)

/-- An accepted page flip waits for its boundary, transmit ones with their announce, and takes force at once in Idle;
a refused one draws abort 0x08 with its reason, which the page keeps (R221, R222). The checks read the tables, not
their working copies (assumption 45). -/
def Obligations.PageFlipsAreCheckedAndScheduled : Prop :=
  (∀ (s : State) (cl : Client) (m : Fin 65536), Safety.allowed s cl .tsiFlip 0 (.int m.val) →
      s.flipReason 0 (m.val % 4096) = 0 →
      ∃ t, exec (.txPageFlip cl m) s = .next t ∧ Safety.acked s t cl
        ∧ ∀ c : Fin 12, bitOf m.val c = true →
          (s.get .carrierState c ≠ 0 → t.bit .tsiPending 0 c = true ∧ t.get .xAnnounce c = 1)
          ∧ (s.get .carrierState c = 0 → ∀ r ∈ rowsOf c, t.get .tsiActiveRow r = s.get .tsiStandbyRow r))
    ∧ (∀ (s : State) (cl : Client) (m : Fin 65536), Safety.allowed s cl .tsiFlip 1 (.int m.val) →
      s.flipReason 1 (m.val % 4096) = 0 →
      ∃ t, exec (.rxPageFlip cl m) s = .next t ∧ Safety.acked s t cl
        ∧ ∀ c : Fin 12, bitOf m.val c = true →
          (s.get .carrierState c ≠ 0 → t.bit .tsiPending 1 c = true)
          ∧ (s.get .carrierState c = 0 → ∀ r ∈ rowsOf c, t.get .tsiActiveRow (3840 + r)
            = s.get .tsiStandbyRow (3840 + r)))
    ∧ (∀ (s : State) (cl : Client) (m : Fin 65536), Safety.allowed s cl .tsiFlip 0 (.int m.val) →
      s.flipReason 0 (m.val % 4096) ≠ 0 →
      ∃ t, exec (.txPageFlip cl m) s = .next t ∧ Safety.aborted s t cl 0x08
        ∧ t.get .tsiRefusal 0 = s.flipReason 0 (m.val % 4096) ∧ Safety.requestChanges [.tsiRefusal] s t)
    ∧ (∀ (s : State) (cl : Client) (m : Fin 65536), Safety.allowed s cl .tsiFlip 1 (.int m.val) →
      s.flipReason 1 (m.val % 4096) ≠ 0 →
      ∃ t, exec (.rxPageFlip cl m) s = .next t ∧ Safety.aborted s t cl 0x08
        ∧ t.get .tsiRefusal 1 = s.flipReason 1 (m.val % 4096) ∧ Safety.requestChanges [.tsiRefusal] s t)

/-- A raw defect present for its set time is declared, sticks and is reported, LOS and LOF sending the carrier to
Seeking with last drop 1 or 2; one whose raw condition is absent for its clear time is cleared and reported; CSF is
declared and cleared per tributary, but of the whole carrier in Compatible (R235); in Idle, or before those times,
nothing is (R229 to R231). -/
def Obligations.DefectsAreDeclaredAndCleared : Prop :=
  (∀ (s : State) (c : Fin 12) (b : Fin 10) (u : Fin 3840), s.phase = .running →
      b.val ≠ 9 ∨ s.nat .carrierFecProfileInForce c = 2 → s.get .carrierState c ≠ 0 →
        s.bit .carrierDefectRaw c b = true → s.bit .carrierDefectDeclared c b = false →
      s.defectTime c b u true = true →
      ∃ t, exec (.defectDeclare c b u) s = .next t ∧ t.bit .carrierDefectDeclared c b = true
        ∧ t.bit .carrierDefectSticky c b = true ∧ Safety.raised s t (evCarrier c b)
        ∧ (b.val ≤ 1 → s.upLine c = true → t.get .carrierState c = 1 ∧ t.get .carrierLastDrop c = (b.val : Int) + 1)
        ∧ (2 ≤ b.val → t.get .carrierState c = s.get .carrierState c))
    ∧ (∀ (s : State) (c : Fin 12) (b : Fin 10) (u : Fin 3840),
      s.get .carrierState c = 0 ∨ s.defectTime c b u true = false → exec (.defectDeclare c b u) s = .next s)
    ∧ (∀ (s : State) (c : Fin 12) (b : Fin 10) (u : Fin 3840), s.defectTime c b u false = false →
      exec (.defectClear c b u) s = .next s)
    ∧ (∀ (s : State) (c : Fin 12) (u : Fin 3840), s.phase = .running → s.get .carrierState c ≠ 0 →
      s.nat .carrierFecProfileInForce c ≠ 2 → s.bit .carrierDefectRaw c 9 = true → u.val ∈ s.tribsTouching 1 c →
        s.get .xCsfRun u = 2 →
      s.flag .tribRxCsf u = false → s.defectTime c 9 u true = true →
      ∃ t, exec (.defectDeclare c 9 u) s = .next t ∧ t.get .tribRxCsf u = 1
        ∧ t.bit .carrierDefectDeclared c 9 = true ∧ Safety.raised s t (evCarrier c 9))
    ∧ (∀ (s : State) (c : Fin 12) (b : Fin 10) (u : Fin 3840), s.phase = .running →
      b.val ≠ 9 ∨ s.nat .carrierFecProfileInForce c = 2 → s.bit .carrierDefectDeclared c b = true →
        s.bit .carrierDefectRaw c b = false → s.defectTime c b u false = true →
      ∃ t, exec (.defectClear c b u) s = .next t ∧ t.bit .carrierDefectDeclared c b = false
        ∧ Safety.raised s t (evCarrier c b)
        ∧ Safety.eventChanges [.carrierDefectDeclared, .carrierDefectRaw, .xDefectAt] s t)
    ∧ (∀ (s : State) (c : Fin 12) (u : Fin 3840), s.phase = .running → s.nat .carrierFecProfileInForce c ≠ 2 →
      s.bit .carrierDefectDeclared c 9 = true → s.flag .tribRxCsf u = true → s.get .xCsfRun u ≠ 2 →
        s.defectTime c 9 u false = true →
      ∃ t, exec (.defectClear c 9 u) s = .next t ∧ t.get .tribRxCsf u = 0 ∧ Safety.raised s t (evCarrier c 9)
        ∧ Safety.eventChanges [.tribRxCsf, .carrierDefectDeclared, .carrierDefectRaw, .xDefectAt] s t)

/-! ## Bonding (11_flows.md) -/

/-- Group members are taken from Idle carriers of no group with equal rates and profiles, and wait; a realignment
fails the bonded tributaries until the next release, is counted and reported; at the end of the wait the group aligns;
the members of a group whose exit wait ends leave Idle together, in sequence; a release marks the aligned members
absorbed, takes their multiframe from the boathouse, and needs one (R256 to R261). -/
def Obligations.BondingGroupsFormAndAlign : Prop :=
  (∀ (s : State) (cl : Client) (g : Fin 6) (m : Fin 65536), Safety.allowed s cl .groupMembers g (.int m.val) →
      s.nat .groupMembers g = 0 → (carriers.filter (bitOf m.val)).length ≠ 1 →
      (∀ c < 12, bitOf m.val c = true → s.get .carrierState c = 0 ∧ s.get .carrierBondGroup c = 0xFF) →
      s.bondEqual (carriers.filter (bitOf m.val)) = true →
      ∃ t, exec (.groupMembersWrite cl g m) s = .next t ∧ Safety.acked s t cl
        ∧ t.get .groupMembers g = (m.val : Int)
        ∧ ∀ c < 12, bitOf m.val c = true → t.get .carrierBondGroup c = (g.val : Int)
          ∧ t.get .carrierBondState c = 1)
    ∧ (∀ (s : State) (cl : Client) (g : Fin 6) (m : Fin 65536), Safety.allowed s cl .groupMembers g (.int m.val) →
      (carriers.filter (bitOf m.val)).length = 1 →
      ∃ t, exec (.groupMembersWrite cl g m) s = .next t ∧ Safety.aborted s t cl 0x08
        ∧ Safety.requestChanges [] s t)
    ∧ (∀ (s : State) (cl : Client) (g : Fin 6), Safety.allowed s cl .groupRealign g (.int 1) →
      2 ≤ s.get .groupState g →
      ∃ t, exec (.groupRealign cl g) s = .next t ∧ Safety.acked s t cl
        ∧ Safety.countedBy s t .groupRealigns g 1 ∧ Safety.raised s t (evDev 68)
        ∧ ∀ c ∈ s.groupList g, t.get .xBondJoined c = 0)
    ∧ (∀ (s : State) (cl : Client) (g : Fin 6), Safety.allowed s cl .groupRealign g (.int 1) →
      s.get .groupState g ≤ 1 →
      ∃ t, exec (.groupRealign cl g) s = .next t ∧ Safety.aborted s t cl 0x08 ∧ Safety.requestChanges [] s t)
    ∧ (∀ (s : State) (g : Fin 6), s.phase = .running → s.flag .xGroupWait g = true → s.alignedList g = [] →
      s.usSince .xGroupWaitAt g (1000 * s.get .groupAlignWait g) = true →
      ∃ t, exec (.alignWaitExpiry g) s = .next t ∧ t.get .xGroupWait g = 0
        ∧ ∀ c < 12, s.measured g = [c] → t.get .carrierBondState c = 3
          ∧ t.get .xBondHoldPs c = s.get .groupHeadroom g * 1000000)
    ∧ (∀ (s : State) (g : Fin 6), s.usSince .xGroupWaitAt g (1000 * s.get .groupAlignWait g) = false →
      exec (.alignWaitExpiry g) s = .next s)
    ∧ (∀ (s : State) (g : Fin 6), s.usSince .xBondExitAt g 1000 = false → exec (.bondExitWaitExpiry g) s = .next s)
    ∧ (∀ (s : State) (g : Fin 6), s.phase = .running → (∀ c ∈ s.groupList g, s.get .carrierState c = 0) →
      s.usSince .xBondExitAt g 1000 = true →
      ∃ t, exec (.bondExitWaitExpiry g) s = .next t ∧ ∀ c ∈ s.groupList g, s.flag .xBondExit c = true →
        s.mayLeaveIdle c = true → t.get .carrierBondTxInSequence c = 1 ∧ t.get .carrierState c = 1)
    ∧ (∀ (s : State) (g : Fin 6) (slots : List (Nat × List (BitVec 64))), s.phase = .running →
      ∃ t, exec (.boathouseRelease g slots) s = .next t
        ∧ (s.alignedList g = [] → t = s)
        ∧ (∀ c ∈ s.alignedList g, t.get .xBondJoined c = 1)
        ∧ ∀ x, s.boatNext (s.alignedList g) = some x → ∀ c ∈ s.alignedList g,
          (t.rx c).boats = (s.rx c).boats.filter fun b => decide (0 < bsqDiff b.bsq x))

/-! ## Client frames (11_flows.md) -/

/-- A frame at an enabled port that is up is counted when it is errored, unclassified, or for a flow that takes none,
is appended to its flow's queue while depth and pool leave room, and is counted as dropped beyond the depth; an
asserted priority is sent again (R238, R243, R244). On a transparent port the 64-bit words that its 257-bit blocks
fill are appended to the queue of its flow while depth and pool leave room; outside Carry and Pair they are discarded
and counted (R247; the model's readings, assumptions 28 and 50). -/
def Obligations.HostFramesAreClassifiedAndAdmitted : Prop :=
  (∀ (s : State) (p : Fin 48) (l : List Byte) (fec : Vector Nat 3), s.phase = .running →
      s.flag .portEnable p = true → s.portDown p = false → s.transparentPort p = false →
      ∃ t, exec (.hostFrameReceive p (.frame l) fec) s = .next t
        ∧ Safety.countedBy s t .portFecCorrected p fec[0]
        ∧ (s.frameSound p l = false → Safety.countedBy s t .portClsErrored p 1 ∧ t.flowQueue = s.flowQueue)
        ∧ (s.frameSound p l = true → pauseOf l = none → s.classify p l = 0xFFFF →
          Safety.countedBy s t .portClsUnclassified p 1 ∧ t.flowQueue = s.flowQueue)
        ∧ (s.frameSound p l = true → (pauseOf l).isSome = true → Safety.countedBy s t .portPfcReceived p 1)
        ∧ ∀ f, f ≠ 0xFFFF → s.frameSound p l = true → pauseOf l = none → s.classify p l = f →
          (fEnable (s.flow f) = false → Safety.countedBy s t .portClsDisabledFlow p 1)
          ∧ (fEnable (s.flow f) = true → s.admits = true →
            s.nat .flowFill f + 8 + l.length ≤ 512 * fDepth (s.flow f) →
            (8 + l.length + 511) / 512 ≤ s.nat .poolFree 0 → t.queueOf f = s.queueOf f ++ [⟨false, l⟩])
          ∧ (fEnable (s.flow f) = true → s.admits = true →
            512 * fDepth (s.flow f) < s.nat .flowFill f + 8 + l.length → fPause (s.flow f) = false →
            Safety.countedBy s t .flowDepthDrops f 1 ∧ t.flowQueue = s.flowQueue))
    ∧ (∀ (s : State) (p : Fin 48) (l : List (BitVec 257)) (fec : Vector Nat 3), s.phase = .running →
      s.flag .portEnable p = true → s.portDown p = false → s.transparentPort p = true →
      let f := s.nat .portClsDefaultFlow p
      let w := (pcsWords ((s.blob .xPcsTail f).map fun b => b != 0) l).1
      let q := s.wordsOf f
      let o := s.nat .xFlowOffset f
      fEnable (s.flow f) = true →
      ∃ t, exec (.hostFrameReceive p (.blocks l) fec) s = .next t ∧ Safety.countedBy s t .portFecCorrected p fec[0]
        ∧ (s.admits = true → q.length + w.length ≤ 64 * fDepth (s.flow f) →
          o + 8 * q.length + 8 * w.length ≤ 512 * (s.nat .poolFree 0 + tilesFor o (8 * q.length)) →
            t.wordsOf f = q ++ w)
        ∧ (s.admits = false → t.flowWords = s.flowWords ∧ Safety.countedBy s t .flowFlushed f (8 * w.length)))
    ∧ (∀ (s : State) (p : Fin 48), s.phase = .running → s.nat .portPfcAssertedMask p ≠ 0 → s.portDown p = false →
      ∃ t, exec (.pfcResend p) s = .next t
        ∧ Safety.sent s t (.pfc p (s.nat .portPfcAssertedMask p) (s.nat .portPfcAssertedMask p))
        ∧ Safety.countedBy s t .portPfcSent p 1 ∧ Safety.changesOnly [.portPfcSent] s t)
    ∧ (∀ (s : State) (p : Fin 48), s.nat .portPfcAssertedMask p = 0 → exec (.pfcResend p) s = .next s)

/-- A classifier operation starts unless one runs, which is refused with abort 0x0A; it ends with code 0 and its
effect, or with its code and the table as it was; a bulk load replaces the table (R239, R240). -/
def Obligations.ClassifierOperationsRunAndComplete : Prop :=
  (let starts := fun (s t : State) (cl : Client) (op : Int) => Safety.acked s t cl ∧ t.get .clsBusy 0 = 1
      ∧ t.get .xClsOp 0 = op ∧ Safety.requestChanges [.clsBusy, .xClsOp] s t
    ∀ (s : State) (cl : Client), s.flag .clsBusy 0 = false →
      (Safety.allowed s cl .clsOp 0 (.int 1) → ∃ t, exec (.clsInsert cl) s = .next t ∧ starts s t cl 1)
      ∧ (Safety.allowed s cl .clsOp 0 (.int 2) → ∃ t, exec (.clsDelete cl) s = .next t ∧ starts s t cl 2)
      ∧ (Safety.allowed s cl .clsOp 0 (.int 3) → ∃ t, exec (.clsLookup cl) s = .next t ∧ starts s t cl 3)
      ∧ (Safety.allowed s cl .clsOp 0 (.int 4) → ∃ t, exec (.clsClearAll cl) s = .next t ∧ starts s t cl 4))
    ∧ (∀ (c : Instr) (s : State) (cl : Client) (op : Int), Safety.writeOf c = some (cl, .clsOp, 0, .int op) →
      Safety.allowed s cl .clsOp 0 (.int op) → s.flag .clsBusy 0 = true →
      ∃ t, exec c s = .next t ∧ Safety.aborted s t cl 0x0A ∧ Safety.requestChanges [] s t)
    ∧ (∀ s : State, s.phase = .running → s.flag .clsBusy 0 = true →
      let k := s.nat .clsKey 0
      let f := s.nat .clsFlow 0
      let code := s.clsCode (s.nat .xClsOp 0) k f
      ∃ t, exec .clsOpComplete s = .next t ∧ t.get .clsBusy 0 = 0 ∧ t.get .clsResult 0 = code
        ∧ (code ≠ 0 → t.classifier = s.classifier ∧ Safety.changesOnly [.clsBusy, .clsResult] s t)
        ∧ (code = 0 → s.nat .xClsOp 0 = 1 → t.lookup k = some f ∧ (∀ j, j ≠ k → t.lookup j = s.lookup j)
          ∧ t.get .clsEntries 0 = t.classifier.length)
        ∧ (code = 0 → s.nat .xClsOp 0 = 2 → t.lookup k = none ∧ (∀ j, j ≠ k → t.lookup j = s.lookup j)
          ∧ t.get .clsEntries 0 = t.classifier.length)
        ∧ (code = 0 → s.nat .xClsOp 0 = 3 → t.classifier = s.classifier
          ∧ t.get .clsFound 0 = ((s.lookup k).getD 0xFFFF : Nat))
        ∧ (code = 0 → s.nat .xClsOp 0 = 4 → t.classifier = [] ∧ t.get .clsEntries 0 = 0))
    ∧ ∀ (s : State) (cl : Client) (v : List Byte), Safety.allowed s cl .clsLoad 0 (.bytes v) →
      let l := (List.range (v.length / 6)).map fun k =>
        (leNat ((v.drop (6 * k)).take 4), leNat ((v.drop (6 * k + 4)).take 2))
      s.flag .clsBusy 0 = false → (∀ e ∈ l, keyOk e.1 = true ∧ s.keyFlowOk e.1 e.2 = true) →
      (l.map Prod.fst).Nodup →
      ∃ t, exec (.clsBulkLoad cl v) s = .next t ∧ Safety.acked s t cl ∧ (∀ e ∈ l, t.lookup e.1 = some e.2)
        ∧ (∀ k, k ∉ l.map Prod.fst → t.lookup k = none) ∧ Safety.requestChanges [.clsEntries] s t

/-- Flow entries that pass the checks take force, alone or as a table, and one that fails draws its code and leaves
every entry; an entry whose enable is cleared loses its queue (R241, R242, R245). A calendar flip is refused with its
reason or becomes pending, and completes at once where no tributary of a span has to wait for its boundary; the mapper
of a packet tributary sends the head frame of its flow within the credit, or an idle frame where no flow has one
or the fill code stops it (R251, R252, R267). -/
def Obligations.FlowsAndCalendarAreCheckedAndServed : Prop :=
  ((∀ (s : State) (cl : Client) (v : BitVec 64), Safety.allowed s cl .flowEntry 0 (.int v.toNat) →
      s.flowEntryCode (s.flowSel cl) v.toNat = 0 →
      ∃ t, exec (.flowEntryWrite cl v) s = .next t ∧ Safety.acked s t cl ∧ t.nat .flowEntry (s.flowSel cl) = v.toNat
        ∧ (∀ f, f ≠ s.flowSel cl → t.nat .flowEntry f = s.nat .flowEntry f)
        ∧ (fEnable (s.nat .flowEntry (s.flowSel cl)) = true → fEnable v.toNat = false →
          s.nat .flowFill (s.flowSel cl) ≠ 0 → t.queueOf (s.flowSel cl) = [] ∧ t.wordsOf (s.flowSel cl) = []))
    ∧ (∀ (s : State) (cl : Client) (v : BitVec 64), Safety.allowed s cl .flowEntry 0 (.int v.toNat) →
      s.flowEntryCode (s.flowSel cl) v.toNat ≠ 0 →
      ∃ t, exec (.flowEntryWrite cl v) s = .next t
        ∧ Safety.aborted s t cl (s.flowEntryCode (s.flowSel cl) v.toNat) ∧ Safety.requestChanges [] s t)
    ∧ (∀ (s : State) (cl : Client) (v : List Byte), Safety.allowed s cl .flowTable 0 (.bytes v) →
      (∀ e ∈ (entriesOf 8 v).zipIdx, s.flowEntryCode e.2 e.1 = 0) →
      ∃ t, exec (.flowTableLoad cl v) s = .next t ∧ Safety.acked s t cl
        ∧ ∀ e ∈ (entriesOf 8 v).zipIdx, t.nat .flowEntry e.2 = e.1)
    ∧ (∀ (s : State) (cl : Client) (v : List Byte), Safety.allowed s cl .flowTable 0 (.bytes v) →
      (∃ e ∈ (entriesOf 8 v).zipIdx, s.flowEntryCode e.2 e.1 ≠ 0) →
      ∃ t, exec (.flowTableLoad cl v) s = .next t ∧ (∃ code, Safety.aborted s t cl code)
        ∧ Safety.requestChanges [] s t))
    ∧ ((∀ (s : State) (cl : Client), Safety.allowed s cl .calFlip 0 (.int 1) → s.calReason ≠ 0 →
      ∃ t, exec (.calendarFlip cl) s = .next t ∧ Safety.aborted s t cl 0x08
        ∧ t.get .calRefusal 0 = s.calReason ∧ Safety.requestChanges [.calRefusal] s t)
    ∧ (∀ (s : State) (cl : Client), Safety.allowed s cl .calFlip 0 (.int 1) → s.calReason = 0 →
      ∃ t, exec (.calendarFlip cl) s = .next t ∧ Safety.acked s t cl
        ∧ ((∀ u ∈ s.spanTribs, s.orderZero 0 u = none) → t.get .calPending 0 = 0
          ∧ Safety.countedBy s t .calFlips 0 1 ∧ Safety.raised s t (evDev 67)
          ∧ ∀ e, t.get .calActiveEntry e = s.get .calStandbyEntry e)
        ∧ (∀ u ∈ s.spanTribs, ∀ c, s.orderZero 0 u = some c → s.idle c = false → s.flag .xCalTaken u = false →
          t.get .calPending 0 = 1))
    ∧ (∀ (s : State) (u : Fin 3840) (reads : List (Nat × Nat × List Byte)), s.phase = .running →
      s.transparentFlow u = none →
      s.get .xTribFillNow u = 0 → s.fillCode u ≠ 0 ∨ (∀ f ∈ s.spanFlows u, s.queueOf f = []) →
      ∃ t, exec (.mapperNextFrame u reads) s = .next t ∧ Safety.sent s t (.mapped u none)
        ∧ Safety.changesOnly [.xGfpBytes, .xClear] s t)
    ∧ (∀ (s : State) (u : Fin 3840) (f : Nat) (x : Stored) (q : List Stored), s.phase = .running →
      s.get .xTribFillNow u = 0 → s.fillCode u = 0 → s.transparentFlow u = none → s.flowMarks f = [] →
      s.spanFlows u = [f] → s.eligible u f = true → s.queueOf f = x :: q →
      x.bytes.length ≤ s.nat .xCalCredit (1024 * u.val) + 2048 →
      ∃ t, exec (.mapperNextFrame u []) s = .next t ∧ Safety.sent s t (.mapped u (some x.bytes))))

/-- A receive row that may stand takes force at the next received boundary, or at once where no slot carries its
tributary; a received frame, delineated from the words that the line has brought or given by the command where it has
brought none (the model's reading, assumption 46), is queued for its port, marked where a tile of it failed custody;
the port whose turn it is sends the head frame toward the host (R197, R246, R253 to R255, R322). Delineation follows ITU-T
G.7041, which is taken from outside the spec (assumption 44), and tiles count from the queue (43). -/
def Obligations.ReceivedFramesReachTheirPort : Prop :=
  (∀ (s : State) (cl : Client) (v : Fin 65536), Safety.allowed s cl .tribEgressRow 0 (.int v.val) →
      let u := (s.sel cl .tribEgressSelect).toNat
      (s.tribRowCode u v.val = 0 →
        ∃ t, exec (.rxTribRowWrite cl v) s = .next t ∧ Safety.acked s t cl ∧ t.get .tribEgressRow u = (v.val : Int)
          ∧ (s.orderZero 1 u = none → t.get .xTribRow u = (v.val : Int) ∧ t.get .xTribRowDue u = 0)
          ∧ (s.orderZero 1 u ≠ none → t.get .xTribRow u = s.get .xTribRow u ∧ t.get .xTribRowDue u = 1))
      ∧ (s.tribRowCode u v.val ≠ 0 →
        ∃ t, exec (.rxTribRowWrite cl v) s = .next t ∧ Safety.aborted s t cl (s.tribRowCode u v.val)
          ∧ Safety.requestChanges [] s t))
    ∧ (∀ (s : State) (u : Fin 3840) (m : GfpReading), s.phase = .running → rtValid (s.egressRow u) = true →
      rtTransparent (s.egressRow u) = false → s.admits = true → s.tribFailed u = false →
      (s.rxTrib u).bytes = [] → bMode (s.binding 1 u) ≠ 0 ∨ (sharesReady (s.rxTrib u).shares).1 = [] →
      ∃ t, exec (.rxGfpFrame u m) s = .next t
        ∧ (m.corrected = true → Safety.countedBy s t .tribEgressHecCorrected u 1)
        ∧ (m.syncLost = true → Safety.countedBy s t .tribEgressDelineationLosses u 1)
        ∧ (m.syncLost = false → m.typeOk = false → Safety.countedBy s t .tribEgressDropped u 1)
        ∧ (m.syncLost = false → m.typeOk = true → s.pairActive = false →
          s.portDown (rtPort (s.egressRow u)) = false →
          let x : Stored := ⟨s.flag .xCmLost u, m.frame⟩
          queueBytes (s.tribQueueOf u ++ [x]) ≤ 262144 →
          tilesFor (s.nat .xTribOffset u) (queueBytes (s.tribQueueOf u ++ [x]))
            ≤ s.nat .poolFree 0 + tilesFor (s.nat .xTribOffset u) (queueBytes (s.tribQueueOf u)) →
          t.tribQueueOf u = s.tribQueueOf u ++ [x]))
    ∧ (∀ (s : State) (u : Fin 3840) (m : GfpReading), s.phase = .running → rtValid (s.egressRow u) = true →
      rtTransparent (s.egressRow u) = false → s.admits = true → s.tribFailed u = false →
      ((s.demapPlain u).rxTrib u).bytes ≠ [] →
      let d := ((s.demapPlain u).demapReads u 5 none m.reads).delineate u
      (d.2 = none → exec (.rxGfpFrame u m) s = .next d.1)
        ∧ ∀ frame marked, d.2 = some (frame, marked) → s.pairActive = false →
          s.portDown (rtPort (s.egressRow u)) = false →
          let x : Stored := ⟨marked || s.flag .xCmLost u, frame⟩
          queueBytes (s.tribQueueOf u ++ [x]) ≤ 262144 →
          tilesFor (s.nat .xTribOffset u) (queueBytes (s.tribQueueOf u ++ [x]))
            ≤ s.nat .poolFree 0 + tilesFor (s.nat .xTribOffset u) (queueBytes (s.tribQueueOf u)) →
          ∃ t, exec (.rxGfpFrame u m) s = .next t ∧ t.tribQueueOf u = s.tribQueueOf u ++ [x])
    ∧ (∀ (s : State) (p : Fin 48) (reads : List TileRead) (late : Bool), s.egressPick p = none →
      exec (.egressFrameSend p reads late) s = .next s)
    ∧ (∀ (s : State) (p : Fin 48) (reads : List TileRead) (late : Bool) (u : Nat) (x : Stored) (q : List Stored),
      s.phase = .running →
      s.egressPick p = some u → s.tribQueueOf u = x :: q → s.pairStandby = false → s.sendingNow p = 0 →
      s.portDown p = false → x.poisoned = false → s.tribMarks u = [] →
      (∀ e ∈ reads, tileFails (s.tribTile u e.tile) e.bytes = false) →
      ∃ t, exec (.egressFrameSend p reads late) s = .next t ∧ t.tribQueueOf u = q
        ∧ t.get .xEgressPtr p = (u + 1 : Nat)
          ∧ ∃ bytes, Safety.sent s t (.egress p bytes (s.nat .portEgressGap p) false))

/-! ## The cipher (12_cipher.md) -/

/-- A key load is refused with its code, which the slot keeps and source 86 reports, or installs the unwrapped key:
into register 0 of an empty slot, else into the register that is not active; active at once where no tributary uses the
slot, else the next one, to be switched to. A transmit switch is done when every user sends under the new register, a
receive one when a block under it has come; the new register is then the active one, exhausted if it already was, and the
old one is zeroed, source 81. An erase zeroes both registers, or is refused on the standby or of no slot, likewise kept
and reported (R277, R278, R280, R460). A pending switch that no tributary is left to make is done at once: the model's
choice (assumption 48). -/
def Obligations.KeysAreLoadedSwitchedAndErased : Prop :=
  (∀ (s : State) (cl : Client) (d : List Byte), Safety.allowed s cl .slotLoad 0 (.bytes d) →
      let n := s.slotSel cl
      (s.loadCode n d false ≠ 0 →
        ∃ t, exec (.keyLoad cl d) s = .next t
          ∧ Safety.aborted s t cl (if s.loadCode n d false = 5 then 0x06 else 0x08)
          ∧ t.get .slotRefusal n = s.loadCode n d false ∧ Safety.raised s t (evDev 86)
          ∧ Safety.requestChanges [.slotRefusal] s t)
      ∧ ∀ k, s.loadCode n d false = 0 → s.unwrap (loadDescriptor d) = some k →
        ∃ t, exec (.keyLoad cl d) s = .next t ∧ Safety.acked s t cl ∧ Safety.countedBy s t .slotLoads 0 1
          ∧ (let r := if s.regState n 0 = 0 ∧ s.regState n 1 = 0 then 0 else 1 - s.nat .xSlotActive n
            t.blob .xSlotKey (2 * n + r) = k.take 36 ∧ t.get .xSlotDone n = 0
            ∧ (s.slotInUse 0 n = false → s.slotInUse 1 n = false → t.get .xSlotReg (2 * n + r) = 1
              ∧ t.get .xSlotActive n = (r : Nat) ∧ t.get .xSlotReg (2 * n + (1 - r)) = 0
              ∧ t.get .xSlotTxPend n = 0 ∧ t.get .xSlotRxPend n = 0)
            ∧ (s.slotInUse 0 n = true ∨ s.slotInUse 1 n = true → t.get .xSlotReg (2 * n + r) = 2
              ∧ t.get .xSlotActive n = (1 - r : Nat) ∧ t.get .xSlotTxPend n = ofFlag (s.slotInUse 0 n)
              ∧ t.get .xSlotRxPend n = ofFlag (s.slotInUse 1 n))))
    ∧ (∀ (s : State) (cl : Client), Safety.allowed s cl .slotErase 0 (.int 1) → s.slotSel cl ≤ 8191 →
      s.pairStandby = false →
      ∃ t, exec (.keyErase cl) s = .next t ∧ Safety.acked s t cl ∧ ∀ r : Fin 2,
        t.get .xSlotReg (2 * s.slotSel cl + r.val) = 0 ∧ t.blob .xSlotKey (2 * s.slotSel cl + r.val) = []
        ∧ t.get .xSlotCount (2 * s.slotSel cl + r.val) = 0)
    ∧ (∀ (s : State) (cl : Client), Safety.allowed s cl .slotErase 0 (.int 1) →
      8191 < s.slotSel cl ∨ s.pairStandby = true →
      ∃ t, exec (.keyErase cl) s = .next t ∧ Safety.aborted s t cl 0x08
        ∧ t.get .slotRefusal (s.slotSel cl) = (if 8191 < s.slotSel cl then 1 else 8) ∧ Safety.raised s t (evDev 86)
        ∧ Safety.requestChanges [.slotRefusal] s t)
    ∧ (∀ (s : State) (n : Fin 8192), s.phase = .running →
      let a := s.nat .xSlotActive n
      let gone := fun (t : State) (old : Nat) => t.get .xSlotReg (2 * n.val + old) = 0
        ∧ t.blob .xSlotKey (2 * n.val + old) = [] ∧ t.get .xSlotTxPend n = 0 ∧ t.get .xSlotRxPend n = 0
        ∧ t.get .xSlotDone n = 0 ∧ Safety.raised s t (evDev 81)
      let next := fun (t : State) => gone t a ∧ t.get .xSlotActive n = (1 - a : Nat)
        ∧ t.get .xSlotReg (2 * n.val + (1 - a)) = (if s.regState n (1 - a) = 3 then 3 else 1)
      (s.flag .xSlotTxPend n = true → s.txSwitched n = true →
        ∃ t, exec (.keySwitchComplete n) s = .next t ∧ next t)
      ∧ (s.flag .xSlotTxPend n = false → s.flag .xSlotRxPend n = true → s.flag .xSlotDone n = true →
        ∃ t, exec (.keySwitchComplete n) s = .next t ∧ gone t (1 - a) ∧ t.get .xSlotActive n = s.get .xSlotActive n)
      ∧ (s.flag .xSlotTxPend n = false → s.flag .xSlotRxPend n = true → s.flag .xSlotDone n = false →
        s.slotInUse 1 n = false → ∃ t, exec (.keySwitchComplete n) s = .next t ∧ next t))
    ∧ (∀ (s : State) (n : Fin 8192),
      (s.flag .xSlotTxPend n = true → s.txSwitched n = false → exec (.keySwitchComplete n) s = .next s)
      ∧ (s.flag .xSlotTxPend n = false → s.flag .xSlotRxPend n = false → exec (.keySwitchComplete n) s = .next s)
      ∧ (s.flag .xSlotTxPend n = false → s.flag .xSlotDone n = false → s.slotInUse 1 n = true →
        exec (.keySwitchComplete n) s = .next s))

/-- ZERO_N low zeroes every key slot in every phase and raises source 87 where the block runs; KEYPROV_N high zeroes every
staged key-encryption key; the key-encryption keys are programmed from what is staged, verified and revoked, each refusal
keeping its code and zeroing the staged value; a binding that breaks a rule draws abort 0x08, another is stored (R275,
R276, R281, R282). -/
def Obligations.FusesPinsAndBindingsGuardKeys : Prop :=
  (∀ s : State, ∃ t, exec .zeroNFall s = .next t ∧ t.get .cipherZero 0 = 1
      ∧ (∀ i, t.get .xSlotReg i = 0) ∧ (∀ i, s.get .xSlotReg i ≠ 0 → t.blob .xSlotKey i = [])
      ∧ (s.phase = .running → Safety.raised s t (evDev 87)))
    ∧ (∀ s : State, ∃ t, exec .zeroNRise s = .next t ∧ t.get .cipherZero 0 = 0
      ∧ Safety.changesOnly [.cipherZero] s t)
    ∧ (∀ s : State, ∃ t, exec .keyprovNFall s = .next t ∧ t.get .cipherKeyprov 0 = 1
      ∧ Safety.changesOnly [.cipherKeyprov] s t)
    ∧ (∀ s : State, ∃ t, exec .keyprovNRise s = .next t ∧ t.get .cipherKeyprov 0 = 0
      ∧ (∀ n : Fin 4, t.blob .kekValue n = []) ∧ Safety.changesOnly [.cipherKeyprov, .kekValue] s t)
    ∧ (∀ (s : State) (cl : Client) (n : Fin 4), Safety.allowed s cl .kekOp n (.int 1) → s.kekCode n 1 = 0 →
      ∃ t, exec (.kekProgram cl n) s = .next t ∧ Safety.acked s t cl ∧ t.get .kekState n = 1
        ∧ t.blob .xKekFuse n = s.blob .kekValue n ∧ Safety.requestChanges [.kekState, .xKekFuse] s t)
    ∧ (∀ (s : State) (cl : Client) (n : Fin 4), Safety.allowed s cl .kekOp n (.int 1) → s.kekCode n 1 ≠ 0 →
      ∃ t, exec (.kekProgram cl n) s = .next t
        ∧ Safety.aborted s t cl (if s.kekCode n 1 = 1 then 0x06 else 0x08)
        ∧ t.get .kekRefusal n = s.kekCode n 1 ∧ t.blob .kekValue n = []
        ∧ Safety.requestChanges [.kekRefusal, .kekValue] s t)
    ∧ (∀ (s : State) (cl : Client) (n : Fin 4), Safety.allowed s cl .kekOp n (.int 2) → s.kekCode n 2 ≠ 0 →
      ∃ t, exec (.kekRevoke cl n) s = .next t
        ∧ Safety.aborted s t cl (if s.kekCode n 2 = 1 then 0x06 else 0x08)
        ∧ t.get .kekRefusal n = s.kekCode n 2 ∧ t.blob .kekValue n = []
        ∧ Safety.requestChanges [.kekRefusal, .kekValue] s t)
    ∧ (∀ (s : State) (cl : Client) (n : Fin 4), Safety.allowed s cl .kekOp n (.int 2) → s.kekCode n 2 = 0 →
      ∃ t, exec (.kekRevoke cl n) s = .next t ∧ Safety.acked s t cl ∧ t.get .kekState n = 3
        ∧ t.blob .xKekFuse n = [] ∧ t.get .kekKcv n = 0 ∧ Safety.raised s t (evDev 88))
    ∧ (∀ (s : State) (n : Fin 4) (good : Bool), s.phase = .running → s.get .kekState n = 1 →
      ∃ t, exec (.kekProgramComplete n good) s = .next t ∧ t.blob .kekValue n = [] ∧ Safety.raised s t (evDev 88)
        ∧ (good = true → t.get .kekState n = 2 ∧ t.get .kekKcv n = (kcvOf (s.blob .xKekFuse n) : Nat))
        ∧ (good = false → t.get .kekState n = 4 ∧ t.get .kekKcv n = s.get .kekKcv n))
    ∧ (∀ (s : State) (cl : Client) (d : Fin 2) (v : Fin 4294967296),
      Safety.allowed s cl .bindEntry d (.int v.val) →
      let i := 3840 * d.val + s.bindSel cl d
      (s.bindingOk (i / 3840) v.val = true →
        ∃ t, exec (.cipherBindingWrite cl d v) s = .next t ∧ Safety.acked s t cl
          ∧ t.get .bindEntry i = (v.val : Int) ∧ Safety.requestChanges [.bindEntry] s t)
      ∧ (s.bindingOk (i / 3840) v.val = false →
        ∃ t, exec (.cipherBindingWrite cl d v) s = .next t ∧ Safety.aborted s t cl 0x08
          ∧ Safety.requestChanges [] s t))

/-- While positions of its multiframe are left, a transmit block leaves enciphered under the active key with its
invocation counter, which rises by one (alone or as the active module of a pair, within its lease, with no switch pending
and the twin pipelines agreeing), the tiles that failed custody complemented; a shed or unfed tributary, or one without a
key, sends a refused block; positions too few for a block carry zero words; with none left nothing happens. A received
block, the next of the words brought by the line or, where there are none, the one given (assumption 46), is delivered
in clear when its checks hold, and as zeros, counted, when one fails; words too few for a block wait (R265 to R273,
R284). -/
def Obligations.CipherBlocksAreSentAndChecked : Prop :=
  (∀ (s : State) (u : Fin 3840) (payload : List Byte) (reads : List TileRead) (k : TwinReading), s.phase = .running →
      let b := s.binding 0 u
      let n := bSlot b
      let a := s.nat .xSlotActive n
      let i := 2 * n + a
      let key := natBytes (s.blob .xSlotKey i)
      let count := s.nat .xSlotCount i % 2 ^ s.countBits
      let word0 := s.invocation i
      let len := 8 * blockPayload b (s.blockRoom u)
      let header := headerBytes word0 (headerOne word0 (i % 2) (bMode b) len (s.nat .xSlotKid i))
      let clear := (s.takeContent u len payload).2
      let failed := (failedReads clear reads ++ bytesNumbers (s.blob .xClearMarks u)).eraseDups
      let w := cipherWords (bMode b) (key.take 32) (key.drop 32) header (natBytes clear)
      bMode b ≠ 0 → len ≠ 0 → s.pairStandby = false → s.leaseOk i = true → s.flag .xSlotTxPend n = false →
      s.regState n a = 1 → s.txFill u = 0 → s.flag .xShedTx u = false → k.mismatch = false →
      count + 1 < 2 ^ s.countBits →
      ∃ t, exec (.txCipherBlock u payload reads k) s = .next t ∧ Safety.countedBy s t .cryptTxBlocks u 1
        ∧ t.get .xSlotCount i = (count + 1 : Nat)
        ∧ Safety.sent s t (.txBlock u (byteList (header ++ complementTiles failed w.1 ++ w.2))))
    ∧ (∀ (s : State) (u : Fin 3840) (payload : List Byte) (reads : List TileRead) (k : TwinReading), s.phase = .running →
      let b := s.binding 0 u
      let n := bSlot b
      let room := s.blockRoom u
      let len := 8 * blockPayload b room
      (bMode b = 0 ∨ room = 0 → exec (.txCipherBlock u payload reads k) s = .next s)
      ∧ (bMode b ≠ 0 → room ≠ 0 → len = 0 → ∃ t, exec (.txCipherBlock u payload reads k) s = .next t
        ∧ t.lineWords u = s.lineWords u ++ List.replicate room 0)
      ∧ (bMode b ≠ 0 → len ≠ 0 → s.txFill u ≠ 0 ∨ s.flag .xShedTx u = true
          ∨ s.flag .xSlotTxPend n = false ∧ s.regState n (s.nat .xSlotActive n) ≠ 1
            ∧ s.regState n (s.nat .xSlotActive n) ≠ 2 →
        ∃ t, exec (.txCipherBlock u payload reads k) s = .next t ∧ Safety.countedBy s t .cryptTxRefused u 1
          ∧ Safety.sent s t (.txBlock u (byteList (refusedBlock (bMode b) len)))))
    ∧ ∀ (s : State) (u : Fin 3840) (w0 w1 : BitVec 64) (payload tag : List Byte) (reads : List TileRead)
      (k : TwinReading), s.phase = .running →
      let b := s.binding 1 u
      let shares := (s.rxTrib u).shares
      bMode b ≠ 0 →
      (shares ≠ [] → blockOf b shares = none → exec (.rxBlockCheck u w0 w1 payload tag reads k) s = .next s)
      ∧ ∀ x : RxBlock, (shares = [] ∧ x = RxBlock.given w0.toNat w1.toNat payload tag
          ∨ shares ≠ [] ∧ ∃ a, blockOf b shares = some a ∧ x = RxBlock.ofWords a.1) →
        let check := x.word1 % 256 = crc8 120 (x.word0 * 2 ^ 56 + x.word1 / 256)
        let mode := field x.word1 61 2
        let g := x.word1 / 2 ^ 63 % 2
        let i := 2 * bSlot b + g
        let mine := s.regState (bSlot b) g ≠ 0 ∧ s.nat .xSlotKid i = field x.word1 32 16
        let key := natBytes (s.blob .xSlotKey i)
        let clear := decipher (bMode b) (key.take 32) (key.drop 32) (headerBytes x.word0 x.word1)
          (natBytes x.payload) (natBytes x.tag)
        let zeroed := fun (t : State) => Safety.sent s t (.rxBlock u (List.replicate x.payload.length 0))
        let counted := fun (r : Reg) => ∃ t, exec (.rxBlockCheck u w0 w1 payload tag reads k) s = .next t
          ∧ Safety.countedBy s t r u 1 ∧ zeroed t
        (¬ check → counted .cryptRxHeaderErrors)
        ∧ (check → mode = 0 → counted .cryptRxRefused)
        ∧ (check → mode ≠ 0 → mode ≠ bMode b → counted .cryptRxModeMismatch)
        ∧ (check → mode = bMode b → ¬ mine → counted .cryptRxKeyMismatch)
        ∧ (check → mode = bMode b → mine → s.flag .xShedRx u = true →
          ∃ t, exec (.rxBlockCheck u w0 w1 payload tag reads k) s = .next t ∧ zeroed t)
        ∧ (check → mode = bMode b → mine → s.flag .xShedRx u = false → k.mismatch = false →
          (clear = none → counted .cryptRxTagFailures)
          ∧ ∀ p, clear = some p → ∃ t, exec (.rxBlockCheck u w0 w1 payload tag reads k) s = .next t
            ∧ Safety.countedBy s t .cryptRxBlocks u 1 ∧ Safety.sent s t (.rxBlock u (byteList p)))

/-! ## Host lanes and ports (13_host_lanes.md) -/

/-- A full bring-up of a lane goes through its steps: pair test, signal, CTLE, DFE with lock, polarity; a step 3 or 4
that exceeds its maximum goes back to step 2 with source 3, a relock likewise; a lane goes to the deep low-power state
when nothing powers it and starts again when something does; the octet's order is found from the ports that align
(R296, R297, R299, R303, R306). When the order search starts is the model's reading (assumption 47). -/
def Obligations.LanesComeUpInSteps : Prop :=
  (∀ (s : State) (h : Fin 96) (m : LaneReading), s.phase = .running → s.flag .xLaneRelock h = false →
      s.flag .xLaneLow h = false →
      ∃ t, exec (.laneBringupStep h m) s = .next t
        ∧ (s.get .xLaneStep h = 1 → t.get .xLaneStep h = 2 ∧ t.get .laneState h = 2
          ∧ t.get .lanePairTestReading h = m.testReading.val)
        ∧ (s.get .xLaneStep h = 2 → s.laneSignal h = true → t.get .xLaneStep h = 3 ∧ t.get .laneState h = 3)
        ∧ (s.get .xLaneStep h = 3 → s.canLock h = true → t.get .xLaneStep h = 4 ∧ t.get .laneState h = 4
          ∧ t.get .laneCtleApplied h
            = (if s.get .laneCtleMode h = 1 then s.get .laneCtleFixed h else (m.ctle.val : Int)))
        ∧ (s.get .xLaneStep h = 4 → s.canLock h = true → t.get .xLaneStep h = 5 ∧ t.get .laneState h = 5
          ∧ t.get .laneLock h = 1 ∧ t.blob .laneDfeTaps h
            = (if s.flag .laneDfeFreeze h = true then s.blob .laneDfeTaps h else tapBytes m.taps.toList))
        ∧ (s.get .xLaneStep h = 5 → s.canLock h = true → t.get .xLaneStep h = 0 ∧ t.get .laneState h = 5
          ∧ Safety.countedBy s t .laneBringups h 1)
        ∧ (2 < s.get .xLaneStep h → s.canLock h = false → t = s))
    ∧ (∀ (s : State) (h : Fin 96), s.phase = .running → s.get .xLaneStep h = 3 ∨ s.get .xLaneStep h = 4 →
      s.flag .xLaneRelock h = false → s.flag .xLaneLow h = false →
      ∃ t, exec (.laneStepTimeout h) s = .next t ∧ t.get .xLaneStep h = 2 ∧ t.get .laneState h = 2
        ∧ Safety.raised s t (evLane h 3) ∧ Safety.eventChanges [.xLaneStep, .laneState] s t)
    ∧ (∀ (s : State) (h : Fin 96), s.phase = .running → s.flag .xLaneRelock h = true ∨ s.flag .xLaneLow h = true →
      ∃ t, exec (.laneRelockTimeout h) s = .next t ∧ t.get .xLaneStep h = 2 ∧ t.get .laneState h = 2
        ∧ t.get .xLaneRelock h = 0 ∧ t.get .xLaneLow h = 0
        ∧ Safety.changesOnly [.xLaneStep, .laneState, .xLaneRelock, .xLaneLow] s t)
    ∧ (∀ (s : State) (h : Fin 96), s.phase = .running →
      ∃ t, exec (.laneDeepLowPower h) s = .next t
        ∧ (s.lanePowered h = s.laneOn h → t = s)
        ∧ (s.lanePowered h = true → s.laneOn h = false → t.get .laneState h = 6 ∧ t.get .xLaneStep h = 1)
        ∧ (s.lanePowered h = false → s.laneOn h = true → t.get .laneState h = (if s.mode = 0 then 0 else 1)
          ∧ t.get .laneLock h = 0 ∧ t.get .lanePairFault h = 0))
    ∧ (∀ (s : State) (o : Fin 12) (straight reversed : Fin 16), s.phase = .running → s.searching o = true →
      s.orderDue o = true →
      let e := (s.enabledPorts o).map (· % 4)
      let n := (e.filter (bitOf straight)).length
      let r := (e.filter (bitOf reversed)).length
      ∃ t, exec (.octetOrderSearch o straight reversed) s = .next t
        ∧ (n = 0 → r = 0 → t.get .octetOrderFound o = 0)
        ∧ (0 < r → n < r → t.get .octetOrderFound o = 2 ∧ Safety.raised s t (evLane (8 * o.val) 3))
        ∧ (0 < n → n = e.length → r = e.length → t.get .octetOrderFound o = 3)
        ∧ (0 < n → r ≤ n → r < e.length → t.get .octetOrderFound o = 1))
    ∧ (∀ (s : State) (o : Fin 12) (straight reversed : Fin 16), s.searching o = false ∨ s.orderDue o = false →
      exec (.octetOrderSearch o straight reversed) s = .next s)

/-- Lane faults: LOS set and cleared, lock lost, REFH lost and back, pair faults found, cleared and tested, each with its
events and counts; a pair test is refused with abort 0x08 on a lane of an enabled port or one that is off (R302 to
R305). -/
def Obligations.LaneFaultsAreReported : Prop :=
  (∀ (s : State) (h : Fin 96), s.phase = .running → s.laneOn h = true → s.flag .laneLosRaw h = false →
      ∃ t, exec (.laneLosSet h) s = .next t ∧ t.get .laneLosRaw h = 1 ∧ Safety.raised s t (evLane h 0)
        ∧ Safety.eventChanges [.laneLosRaw, .portState, .xPortAligned] s t)
    ∧ (∀ (s : State) (h : Fin 96), s.phase = .running → s.laneOn h = true → s.flag .laneLosRaw h = true →
      s.get .lanePairFault h = 0 →
      ∃ t, exec (.laneLosClear h) s = .next t ∧ t.get .laneLosRaw h = 0 ∧ Safety.raised s t (evLane h 0)
        ∧ Safety.eventChanges [.laneLosRaw, .portState, .xPortAligned] s t)
    ∧ (∀ (s : State) (h : Fin 96), s.phase = .running → s.flag .laneLock h = true →
      ∃ t, exec (.laneLockLoss h) s = .next t ∧ t.get .laneLock h = 0 ∧ t.get .xLaneRelock h = 1
        ∧ t.get .laneState h = 3 ∧ Safety.countedBy s t .laneLockLosses h 1 ∧ Safety.raised s t (evLane h 1))
    ∧ (∀ (s : State) (k : Fin 2), s.phase = .running →
      ∃ t, exec (.refhLoss k) s = .next t ∧ t.get .xRefh k = 1 ∧ ∀ h < 96, h / 48 = k.val →
        s.flag .laneLock h = true → t.get .laneLock h = 0 ∧ Safety.countedBy s t .laneLockLosses h 1)
    ∧ (∀ (s : State) (k : Fin 2), s.phase = .running →
      ∃ t, exec (.refhReturn k) s = .next t ∧ t.get .xRefh k = 0 ∧ Safety.changesOnly [.xRefh] s t)
    ∧ (∀ (s : State) (h : Fin 96) (p n : Fin 65536), s.phase = .running → s.laneOn h = true →
      ∃ t, exec (.pairFaultDetect h p n) s = .next t ∧ t.get .lanePairCmP h = (p.val : Int)
        ∧ t.get .lanePairCmN h = (n.val : Int)
        ∧ t.nat .lanePairFault h = s.nat .lanePairFault h ||| cmMap p n
        ∧ (s.nat .lanePairFault h ||| cmMap p n ≠ s.nat .lanePairFault h →
          t.flag .laneLosRaw h = true ∧ Safety.raised s t (evLane h 2)))
    ∧ (∀ (s : State) (h : Fin 96) (p n : Fin 65536), s.phase = .running → s.laneOn h = true →
      300 ≤ p.val → p.val ≤ 600 → 300 ≤ n.val → n.val ≤ 600 → 0 < s.nat .lanePairFault h →
      s.nat .lanePairFault h < 16 →
      ∃ t, exec (.pairFaultClear h p n) s = .next t ∧ t.get .lanePairFault h = 0
        ∧ Safety.raised s t (evLane h 2))
    ∧ (∀ (s : State) (cl : Client) (h : Fin 96) (v : Fin 65536), Safety.allowed s cl .lanePairTest h (.int 1) →
      (s.onEnabledPort h = false → s.laneOn h = true →
        ∃ t, exec (.pairTest cl h v) s = .next t ∧ Safety.acked s t cl
          ∧ t.get .lanePairTestReading h = (v.val : Int)
          ∧ t.nat .lanePairFault h = s.nat .lanePairFault h % 16 + (if v.val < 4 then 16 else 0))
      ∧ (s.onEnabledPort h = true ∨ s.laneOn h = false →
        ∃ t, exec (.pairTest cl h v) s = .next t ∧ Safety.aborted s t cl 0x08 ∧ Safety.requestChanges [] s t))

/-- A DFE window moves each tap by the sign of a sum that reaches the threshold. The PRBS generator of a lane sends its
pattern, complemented in its most significant bits where transmit inversion is on, and errors injected while it runs. A
checker locks on bits whose last 256 follow its pattern, straight or complemented, compares what it then receives with
its own sequence, counting bits and mismatches, and unlocks when more than 64 of 1,024 mismatch (R298, R300, R312 to
R315). Seeds are free, and bits are those of a whole window: the model's choices (assumptions 39, 47). -/
def Obligations.LanePatternsAreCheckedAndInjected : Prop :=
  (∀ (s : State) (h : Fin 96) (sums : Vector Int 8) (snr : Int) (bits : List Bool), s.phase = .running →
      s.flag .laneLock h = true →
      let seen := (s.prbsSend h bits).1
      let heard := if s.get .lanePrbsState h = 3 then flipMsb seen else seen
      let own := prbsRun (s.nat .lanePrbsCheck h) (s.nat .lanePrbsUser h) heard.length (s.nat .xPrbsCheck h)
      let recent := bitsOfNat 1023 (s.nat .xPrbsTail h)
      let r := prbsWindow (List.zipWith (· != ·) heard own.1) recent (recent.count true)
      ∃ t, exec (.dfeAdaptWindow h sums snr bits) s = .next t ∧ t.get .laneEyeSnr h = snr
        ∧ (2 ≤ s.get .lanePrbsState h → s.flag .xPrbsBad h = false → Safety.countedBy s t .lanePrbsBits h r.1
          ∧ Safety.countedBy s t .lanePrbsErrors h r.2.1 ∧ t.flag .xPrbsBad h = r.2.2.1
          ∧ t.get .xPrbsCheck h = (own.2 : Nat))
        ∧ (s.get .lanePrbsState h < 2 ∨ s.flag .xPrbsBad h = true → t.get .lanePrbsBits h = s.get .lanePrbsBits h
          ∧ t.get .lanePrbsErrors h = s.get .lanePrbsErrors h)
        ∧ (s.flag .laneDfeFreeze h = true → t.blob .laneDfeTaps h = s.blob .laneDfeTaps h)
        ∧ (s.flag .laneDfeFreeze h = false → t.blob .laneDfeTaps h
          = tapBytes ((s.taps h).zipIdx.map fun e =>
            if s.nat .laneDfeThreshold h ≤ (sums.toList.getD e.2 0).natAbs then e.1 + (sums.toList.getD e.2 0).sign
            else e.1))
        ∧ Safety.changesOnly [.laneEyeSnr, .lanePrbsBits, .lanePrbsErrors, .laneDfeTaps, .xPrbsReg, .xPrbsInjDue,
          .xPrbsCheck, .xPrbsTail, .xPrbsBad] s t)
    ∧ (∀ (s : State) (h : Fin 96) (sums : Vector Int 8) (snr : Int) (bits : List Bool), s.phase = .running →
      s.get .lanePrbsGen h ≠ 0 → s.laneOn h = true →
      let r := prbsRun (s.nat .lanePrbsGen h) (s.nat .lanePrbsUser h) 8192 (s.nat .xPrbsReg h)
      let n := 2 * min 4096 (s.nat .xPrbsInjDue h)
      let sent := flipMsb (r.1.take n) ++ r.1.drop n
      ∃ t, exec (.dfeAdaptWindow h sums snr bits) s = .next t ∧ t.get .xPrbsReg h = (r.2 : Nat)
        ∧ Safety.sent s t (.lane h (s.nat .laneTxSwing h) (s.txTaps h)
          (pam4 (if s.flag .laneTxInvert h = true then flipMsb sent else sent))))
    ∧ (∀ (s : State) (cl : Client) (h : Fin 96), Safety.allowed s cl .lanePrbsInject h (.int 1) →
      ∃ t, exec (.prbsInject cl h) s = .next t ∧ Safety.acked s t cl
        ∧ (s.flag .lanePrbsGen h = true → Safety.countedBy s t .lanePrbsInjected h 1
          ∧ t.get .xPrbsInjDue h = s.get .xPrbsInjDue h + 1)
        ∧ (s.flag .lanePrbsGen h = false → t.get .lanePrbsInjected h = s.get .lanePrbsInjected h
          ∧ t.get .xPrbsInjDue h = s.get .xPrbsInjDue h))
    ∧ (∀ (s : State) (h : Fin 96), s.phase = .running → s.flag .lanePrbsGen h = true →
      s.flag .lanePrbsInjectRate h = true → s.laneOn h = true →
      ∃ t, exec (.prbsInjectPeriodic h) s = .next t ∧ Safety.countedBy s t .lanePrbsInjected h 1
        ∧ t.get .xPrbsInjDue h = s.get .xPrbsInjDue h + 1
        ∧ Safety.changesOnly [.lanePrbsInjected, .xPrbsInjDue] s t)
    ∧ (∀ (s : State) (h : Fin 96) (bits : List Bool), s.phase = .running → s.get .lanePrbsState h = 1 →
      let lock := fun (l : List Bool) => prbsLock (s.nat .lanePrbsCheck h) (s.nat .lanePrbsUser h) l
      ∃ t, exec (.prbsCheckerLock h bits) s = .next t
        ∧ (∀ x, lock bits = some x → t.get .lanePrbsState h = 2 ∧ t.get .xPrbsCheck h = (x : Nat))
        ∧ (∀ x, lock bits = none → lock (flipMsb bits) = some x →
          t.get .lanePrbsState h = 3 ∧ t.get .xPrbsCheck h = (x : Nat))
        ∧ (lock bits = none → lock (flipMsb bits) = none → t = s)
        ∧ Safety.changesOnly [.lanePrbsState, .xPrbsCheck, .xPrbsTail, .xPrbsBad] s t)
    ∧ (∀ (s : State) (h : Fin 96), s.phase = .running → 2 ≤ s.get .lanePrbsState h → s.flag .xPrbsBad h = true →
      ∃ t, exec (.prbsCheckerUnlock h) s = .next t ∧ t.get .lanePrbsState h = 1 ∧ t.get .xPrbsBad h = 0
        ∧ Safety.changesOnly [.lanePrbsState, .xPrbsBad] s t)
    ∧ ∀ (s : State) (h : Fin 96), s.flag .xPrbsBad h = false → exec (.prbsCheckerUnlock h) s = .next s

/-- A port aligns, holds its alignment for the time set and comes up; an up port that loses a lane, its markers or its
skew is in local fault, counted and reported with its causes; remote fault follows the host; a transparent egress
buffer of 4,096 blocks deletes idles above 2,176, inserts one after a packet or an idle below 1,920, and slips when it is
full or empty (R307 to R311). The forms of the blocks are taken from IEEE 802.3 (assumption 50). -/
def Obligations.PortsAlignFaultAndMatchRates : Prop :=
  (∀ (s : State) (p : Fin 48), s.phase = .running → s.get .portState p = 2 ∨ s.flag .xPortPcs p = true →
      s.lanesReady p = true → s.flag .xPortAligned p = false →
      ∃ t, exec (.portAligned p) s = .next t ∧ t.get .portState p = 2 ∧ t.get .xPortPcs p = 0
        ∧ t.get .xPortAligned p = 1 ∧ t.get .xPortAlignAt p = s.get .xTicks 0
        ∧ Safety.changesOnly [.portState, .xPortPcs, .xPortAligned, .xPortAlignAt] s t)
    ∧ (∀ (s : State) (p : Fin 48), s.portHeld p = false → exec (.portUp p) s = .next s)
    ∧ (∀ (s : State) (p : Fin 48), s.phase = .running → s.get .portState p = 2 → s.portHeld p = true →
      s.lanesReady p = true →
      ∃ t, exec (.portUp p) s = .next t ∧ t.get .portState p = 3
        ∧ (s.flag .xPortFault p = true → t.get .xPortFault p = 0 ∧ Safety.raised s t (evPort p 0)))
    ∧ (∀ (s : State) (p : Fin 48) (markers skew inFrame : Bool), s.phase = .running →
      s.flag .portEnable p = true → s.get .portState p = 3 →
      let cause := s.laneCauses p + (if markers = true then 16 else 0) + (if skew = true then 32 else 0)
      cause ≠ 0 →
      ∃ t, exec (.portLocalFault p markers skew inFrame) s = .next t
        ∧ t.get .portState p = (if s.lanesReady p = true ∧ cause < 16 then 2 else 4)
        ∧ t.get .xPortFault p = 1 ∧ t.get .portFaultCause p = (cause : Nat)
        ∧ Safety.countedBy s t .portFaults p 1 ∧ Safety.raised s t (evPort p 0)
        ∧ (inFrame = true → Safety.countedBy s t .portClsErrored p 1))
    ∧ (∀ (s : State) (p : Fin 48) (present : Bool), s.phase = .running → s.flag .portEnable p = true →
      s.flag .portRfReceived p ≠ present →
      ∃ t, exec (.remoteFaultReceived p present) s = .next t ∧ t.get .portRfReceived p = ofFlag present
        ∧ (present = true → Safety.raised s t (evPort p 1) ∧ Safety.eventChanges [.portRfReceived] s t)
        ∧ (present = false → Safety.changesOnly [.portRfReceived] s t))
    ∧ (∀ (s : State) (p : Fin 48) (enter send : Nat) (demap egress : List TileRead) (u : Nat), s.phase = .running →
      s.streamTrib p = some u → s.admits = true → s.tribFailed u = false → s.portDown p = false →
      let flow := if s.get .portClsDefaultFlow p = 0xFFFF then none else some (s.nat .portClsDefaultFlow p)
      let x := ((((s.demapPlain u).demapReads u 5 flow demap).demapReads u 6 flow egress).pcsEnter p u enter).2.run send
      ∃ t, exec (.rateMatchAdjust p enter send demap egress) s = .next t ∧ t.egressOf p = x.waiting
        ∧ t.get .portRmFill p = (x.waiting.length : Nat) ∧ Safety.countedBy s t .portRmInserted p x.inserted
        ∧ Safety.countedBy s t .portRmDeleted p x.deleted ∧ Safety.countedBy s t .portRmSlips p x.slips
        ∧ (x.slips = 1 → Safety.raised s t (evPort p 1))
        ∧ (x.sent ≠ [] → s.pairStandby = false → s.sendingNow p = 0 → Safety.sent s t (.pcs p x.sent)))
    ∧ (∀ (s : State) (p : Fin 48) (enter send : Nat) (demap egress : List TileRead) (u : Nat), s.phase = .running →
      s.streamTrib p = some u → s.admits = false ∨ s.tribFailed u = true ∨ s.portDown p = true →
      ∃ t, exec (.rateMatchAdjust p enter send demap egress) s = .next t ∧ t.egressOf p = [] ∧ t.get .portRmFill p = 0)
    ∧ (∀ (s : State) (p : Fin 48) (enter send : Nat) (demap egress : List TileRead), s.streamTrib p = none →
      exec (.rateMatchAdjust p enter send demap egress) s = .next s)
    ∧ (∀ (x : Egress) (b : Block66), x.arrive b = if x.waiting.length < 4096 then { x with waiting := x.waiting ++ [b] }
      else { x with slips := x.slips + 1 })
    ∧ (∀ x : Egress, x.owed = true →
      x.send = { x with owed := false, sent := x.sent ++ [idleBlock], inserted := x.inserted + 1 })
    ∧ (∀ x : Egress, x.owed = false → x.waiting = [] →
      x.send = { x with sent := x.sent ++ [errorBlock], slips := x.slips + 1 })
    ∧ (∀ (x : Egress) (l : List Block66), x.owed = false → x.waiting = idleBlock :: l → 2176 < x.waiting.length →
      x.send = ({ x with waiting := l, deleted := x.deleted + 1 } : Egress).send)
    ∧ ∀ (x : Egress) (b : Block66) (l : List Block66), x.owed = false → x.waiting = b :: l →
      x.waiting.length ≤ 2176 ∨ b ≠ idleBlock →
      x.send = { x with
        waiting := l, sent := x.sent ++ [b], owed := decide (l.length < 1920) && (b.ends || b == idleBlock) }

/-! ## Memory integrity (14_integrity_memory.md) -/

/-- The scrubber reads the lines of a domain in order, each when the memory is idle, and starts anew after its last. A
corrected word is counted, and the third correction of a line within a lap marks it weak; an uncorrectable word
is counted, its line marked weak at once and the outcome reported, domain 0 sending the device to Haven; a line whose
valid bit is 0 is not checked. A weak row with a spare for it is redirected once copied, in HBM queued for repair, and the
repair keeps or removes the redirect (R325 to R332). How many lines a domain has and which row and macro a line lies in,
is per part, and one line read counts one correction: the model's readings (assumptions 10, 16, 45). -/
def Obligations.MemoryErrorsAreHandled : Prop :=
  (∀ (s : State) (m : Fin 16) (line : Nat) (r : LineReading) (idle : Bool),
      s.flag .scrubEnable 0 = false ∨ idle = false ∨ line ≠ s.nat .xScrubAt m →
      exec (.scrubRead m line r idle) s = .next s)
    ∧ (∀ (s : State) (m : Fin 16) (line : Nat) (r : LineReading), s.phase = .running →
      s.flag .scrubEnable 0 = true → line = s.nat .xScrubAt m →
      let last := decide (Config.memLines m ≤ line / 64 + 1)
      let rises := fun (t : State) (x : Reg) (n : Nat) => (0 < n → Safety.countedBy s t x m n) ∧ (n = 0 →
        t.get x m = s.get x m)
      let counts := fun (t : State) (corrected uncorrectable : Nat) => rises t .memCorrected corrected
        ∧ rises t .memUncorrectable uncorrectable
      ∃ t, exec (.scrubRead m line r true) s = .next t
        ∧ t.get .xScrubAt m = (if last = true then 0 else line + 64 : Nat)
        ∧ (last = true → Safety.countedBy s t .memLaps m 1)
        ∧ (r = .invalid → counts t 0 0 ∧ t.get .memWeak m = s.get .memWeak m)
        ∧ (∀ l, r = .valid l → l.length ≤ 8 → (∀ e ∈ l, e.1 ≤ 2) →
          counts t (if l.any (fun e => e.1 == 1) then 1 else 0) (l.filter fun e => e.1 == 2).length)
        ∧ (∀ held, r = .valid [(1, held)] →
          ∀ x, s.tracker.find? (fun x => x.domain == m.val && x.line == line) = some x → x.count = 2 →
            s.inLap x = true → Safety.countedBy s t .memWeak m 1 ∧ Safety.raised s t (evDev 97))
        ∧ (∀ held, r = .valid [(2, held)] → Safety.countedBy s t .memWeak m 1 ∧ Safety.raised s t (evDev 97)
          ∧ (m.val ≠ 0 → Safety.raised s t (evDev 99))
          ∧ (m.val = 0 → t.get .deviceModeState 0 = 5 ∧ t.bit .deviceHavenCauses 0 3 = true)))
    ∧ (∀ (s : State) (m : Fin 16) (line : Nat) (covered : Bool), s.phase = .running →
      ∃ t, exec (.eccWriteBack m line true covered) s = .next t ∧ Safety.countedBy s t .memCorrected m 1)
    ∧ (∀ (s : State) (m : Fin 16) (line : Nat) (covered : Bool),
      exec (.eccWriteBack m line false covered) s = .next s)
    ∧ (∀ (s : State) (m : Fin 16) (row : Nat), s.phase = .running → s.spareFor m row = true →
      (m.val, row) ∉ s.redirects → s.rowWeak m row = true →
      ∃ t, exec (.spareRowCopyComplete m row) s = .next t ∧ t.redirects = s.redirects ++ [(m.val, row)]
        ∧ t.get .memSparesLeft m = s.get .memSparesLeft m - 1 ∧ Safety.countedBy s t .memRemaps m 1
        ∧ (isHbm m = true → t.repairs = s.repairs ++ [(m.val - 6, row)]
          ∧ t.get .repairPending 0 = (s.repairs.length + 1 : Nat))
        ∧ (isHbm m = false → t.repairs = s.repairs ∧ Safety.countedBy s t .xMacroUsed (macroUnit m row) 1))
    ∧ (∀ (s : State) (m : Fin 16) (row : Nat),
      s.spareFor m row = false ∨ (m.val, row) ∈ s.redirects ∨ s.rowWeak m row = false →
      exec (.spareRowCopyComplete m row) s = .next s)
    ∧ (∀ (s : State) (k : Fin 4) (ok : Bool) (x : Nat × Nat), s.phase = .running →
      s.repairRunning k = some x →
      ∃ t, exec (.hbmRepairComplete k ok) s = .next t ∧ t.repairs = s.repairs.erase x
        ∧ (ok = true → (k.val + 6, x.2) ∉ t.redirects ∧ Safety.countedBy s t .repairDone 0 1
          ∧ t.get .memSparesLeft (k.val + 6) = s.get .memSparesLeft (k.val + 6) + 1)
        ∧ (ok = false → t.redirects = s.redirects ∧ Safety.countedBy s t .repairFailed 0 1
          ∧ Safety.raised s t (evDev 101)))
    ∧ ∀ (s : State) (k : Fin 4) (ok : Bool), s.repairRunning k = none → exec (.hbmRepairComplete k ok) s = .next s

/-! ## The bulk mover (16_mover.md) -/

/-- Posted descriptors are appended to their ring under the poster's class, or refused whole; a halted ring resumes,
skips or flushes, and a running one is not flushed; a window entry that keeps the rules replaces its entry (R364,
R366, R370). A capture is armed with the settings that stand, ends when it has its length, and is stopped early or
disarmed by a write (R372). A capture that is armed and has not begun is idle once stopped: the model's reading of
R372 (assumption 45). -/
def Obligations.RingsWindowsAndCapturesAreControlled : Prop :=
  ((∀ (s : State) (cl : Client) (n : Fin 64) (b : List Byte), Safety.allowed s cl .ringPost n (.bytes b) →
      ((pieces b).all descriptorOk = true → (s.descs n).length + (pieces b).length ≤ 256 →
        ∃ t, exec (.ringPost cl n b) s = .next t ∧ Safety.acked s t cl
          ∧ t.descs n = s.descs n ++ (pieces b).map (descriptorOf (s.clientClass cl.mac))
          ∧ Safety.requestChanges [] s t)
      ∧ ((pieces b).all descriptorOk = false →
        ∃ t, exec (.ringPost cl n b) s = .next t ∧ Safety.aborted s t cl 0x07 ∧ t.descriptors = s.descriptors)
      ∧ ((pieces b).all descriptorOk = true → 256 < (s.descs n).length + (pieces b).length →
        ∃ t, exec (.ringPost cl n b) s = .next t ∧ Safety.aborted s t cl 0x08 ∧ t.descriptors = s.descriptors))
    ∧ (∀ (s : State) (cl : Client) (n : Fin 64), Safety.allowed s cl .ringControl n (.int 1) →
      (s.flag .xRingHalted n = true →
        ∃ t, exec (.ringResume cl n) s = .next t ∧ Safety.acked s t cl ∧ t.get .xRingHalted n = 0
          ∧ t.descriptors = s.descriptors ∧ Safety.requestChanges [.xRingHalted] s t)
      ∧ (s.flag .xRingHalted n = false →
        ∃ t, exec (.ringResume cl n) s = .next t ∧ Safety.aborted s t cl 0x08 ∧ Safety.requestChanges [] s t))
    ∧ (∀ (s : State) (cl : Client) (n : Fin 64), Safety.allowed s cl .ringControl n (.int 2) →
      s.flag .xRingHalted n = true →
      ∃ t, exec (.ringSkip cl n) s = .next t ∧ Safety.acked s t cl ∧ t.get .xRingHalted n = 0
        ∧ t.descs n = (s.descs n).drop 1 ∧ t.get .ringGranule n = 0)
    ∧ (∀ (s : State) (cl : Client) (n : Fin 64), Safety.allowed s cl .ringControl n (.int 3) →
      (s.flag .xRingHalted n = true ∨ s.ringStateNow n ≠ 2 ∧ s.ringStateNow n ≠ 3 →
        ∃ t, exec (.ringFlush cl n) s = .next t ∧ Safety.acked s t cl ∧ t.get .xRingHalted n = 0
          ∧ t.descs n = [] ∧ t.get .ringGranule n = 0)
      ∧ (s.ringStateNow n = 2 ∨ s.ringStateNow n = 3 →
        ∃ t, exec (.ringFlush cl n) s = .next t ∧ Safety.aborted s t cl 0x08 ∧ t.descriptors = s.descriptors))
    ∧ (∀ (s : State) (cl : Client) (v : List Byte), Safety.allowed s cl .windowEntry 0 (.bytes v) →
      let w := (s.sel cl .windowSelect).toNat
      let x := windowOf (leNat v)
      (windowReserved (leNat v) = true →
        ∃ t, exec (.windowWrite cl v) s = .next t ∧ Safety.aborted s t cl 0x07 ∧ Safety.requestChanges [] s t)
      ∧ (windowReserved (leNat v) = false → x.bad = true →
        ∃ t, exec (.windowWrite cl v) s = .next t ∧ Safety.aborted s t cl 0x08 ∧ Safety.requestChanges [] s t)
      ∧ (windowReserved (leNat v) = false → x.bad = false →
        (x.enable = true → ∀ k < 256, k ≠ w → (s.window k).enable = true → x.meets (s.window k) = false) →
        ∃ t, exec (.windowWrite cl v) s = .next t ∧ Safety.acked s t cl ∧ t.blob .windowEntry w = v)))
    ∧ ((∀ (s : State) (cl : Client) (c : Fin 12), Safety.allowed s cl .captureControl c (.int 1) →
      ∃ t, exec (.captureArm cl c) s = .next t ∧ Safety.acked s t cl ∧ t.get .captureState c = 1
        ∧ t.get .xCaptureFilled c = 0 ∧ t.get .xCapturePoint c = s.get .capturePoint c
        ∧ t.get .xCaptureLength c = s.get .captureLength c ∧ Safety.countedBy s t .captureArms c 1)
    ∧ (∀ (s : State) (cl : Client) (c : Fin 12), Safety.allowed s cl .captureControl c (.int 2) →
      ∃ t, exec (.captureStop cl c) s = .next t ∧ Safety.acked s t cl
        ∧ t.get .captureState c = (if s.get .captureState c = 2 then 3 else if s.get .captureState c = 1 then 0
          else s.get .captureState c) ∧ Safety.requestChanges [.captureState] s t)
    ∧ (∀ (s : State) (c : Fin 12), s.phase = .running → s.get .captureState c = 2 →
      1024 * s.get .xCaptureLength c ≤ s.get .xCaptureFilled c →
      ∃ t, exec (.captureComplete c) s = .next t ∧ t.get .captureState c = 3
        ∧ Safety.changesOnly [.captureState] s t))

/-- At a granule boundary the granule in flight completes: the last one ends its descriptor, counted and reported
where it asks; the ring chosen next halts on the fault its granule has, or moves it, writing the bytes of its source
at the places its destination translates to and no other byte of memory (R363 to R370). -/
def Obligations.GranulesMoveCheckedBytes : Prop :=
  (∀ s : State, s.get .xRingRun 0 = 0 → s.topRings = [] → exec (.moverGranule none) s = .next s)
    ∧ (∀ (s : State) (n : Nat) (d : Descriptor) (rest : List Descriptor), s.phase = .running →
      s.get .xRingRun 0 = (n + 1 : Nat) → s.descs n = d :: rest →
      d.length ≤ 4096 * (s.nat .ringGranule n + 1) → s.blob .xRingAside n = [] →
      ∃ t, exec (.moverGranule none) s = .next t ∧ t.descs n = rest ∧ Safety.countedBy s t .moverDescriptors 0 1
        ∧ Safety.countedBy s t .moverGranules 0 1 ∧ (d.report = true → Safety.raised s t (evDev 121)))
    ∧ (∀ (s : State) (n : Nat) (d : Descriptor) (rest : List Descriptor), s.phase = .running →
      s.get .xRingRun 0 = (n + 1 : Nat) → s.descs n = d :: rest →
      4096 * (s.nat .ringGranule n + 1) < d.length →
      ∃ t, exec (.moverGranule none) s = .next t ∧ t.descs n = d :: rest
        ∧ t.get .ringGranule n = (s.nat .ringGranule n + 1 : Nat) ∧ Safety.countedBy s t .moverGranules 0 1)
    ∧ (∀ (s : State) (n : Nat) (d : Descriptor) (rest : List Descriptor) (f : MoverFault), s.phase = .running →
      s.get .xRingRun 0 = 0 → s.chooseRing.1 = some n → s.descs n = d :: rest → s.get .xRingMark n = 0 →
      s.granuleFault d (s.nat .ringGranule n) = some f →
      ∃ t, exec (.moverGranule none) s = .next t ∧ t.get .xRingHalted n = 1
        ∧ (t.blob .ringFault n).head? = some (BitVec.ofNat 8 f.code))
    ∧ (∀ (s : State) (n : Nat) (d : Descriptor) (rest : List Descriptor), s.phase = .running →
      s.get .xRingRun 0 = 0 → s.chooseRing.1 = some n → s.descs n = d :: rest → s.get .xRingMark n = 0 →
      s.granuleFault d (s.nat .ringGranule n) = none →
      let o := 4096 * s.nat .ringGranule n
      let stored := fun (k : Nat) => (s.translate (d.dest + o + k)).map fun p => p.target * 2 ^ 33 + p.off
      ∃ t, exec (.moverGranule none) s = .next t ∧ t.get .xRingRun 0 = (n + 1 : Nat) ∧ t.descs n = d :: rest
        ∧ (∀ a, (∀ k < 4096, stored k ≠ some a) → t.readByte a = s.readByte a)
        ∧ (∀ k p, k < min 4096 (d.length - o) → s.translate (d.dest + o + k) = some p → p.target ≠ 8 →
          (∀ j < 4096, j ≠ k → stored j ≠ stored k) →
          t.readByte (p.target * 2 ^ 33 + p.off)
            = (s.sourceBytes (d.source + o) (min 4096 (d.length - o))).getD k 0))

/-! ## The management plane (15_dictionary.md, 17_events_counters.md) -/

/-- A read of an object answers its wire type, its length and its value as it stands once the request is taken; a
longer value than 1,388 bytes draws abort 0x0B, and what cannot be read draws its own abort. A block read answers the
rest of a DOMAIN from its offset, at most 1,388 bytes; a filtered counter read answers and holds its result; reading
the timestamp queue removes the oldest entry, and reading a housekeeping result clears its new and overrun bits (R344,
R347, R397, R407, R442). -/
def Obligations.ReadsAnswerValuesAndTakeEffect : Prop :=
  (∀ (s : State) (cl : Client) (ix : Fin 65536) (sub : Fin 256) (r : Reg) (i : Nat), Safety.fresh s cl →
      findObject cl ix sub = .ok (r, i) →
      let u := (s.hear cl.mac).dequeue cl
      let v := u.valueBytes cl r (u.unitOf cl r i)
      (∀ code detail position, u.checkRead cl r = some (.abort code detail position) →
        ∃ t, exec (.bdapRead cl ix sub) s = .next t
          ∧ Safety.replied s t cl (.abort ix sub code detail position) ∧ Safety.requestChanges [] s t)
      ∧ (u.checkRead cl r = none → 1388 < v.length →
        ∃ t, exec (.bdapRead cl ix sub) s = .next t ∧ Safety.aborted s t cl 0x0B ∧ Safety.requestChanges [] s t)
      ∧ (u.checkRead cl r = none → v.length ≤ 1388 →
        ∃ t, exec (.bdapRead cl ix sub) s = .next t
          ∧ Safety.replied s t cl (.ack (leBytes 2 ix ++ leBytes 1 sub ++ leBytes 1 (r.wireAt i).code
            ++ leBytes 2 v.length ++ v))
          ∧ Safety.requestChanges [.monResult, .hkInjResult] s t))
    ∧ (∀ (s : State) (cl : Client) (ix : Fin 65536) (sub : Fin 256) (offset : Fin 4294967296) (max : Fin 65536)
      (r : Reg) (i : Nat), Safety.fresh s cl → findObject cl ix sub = .ok (r, i) → r.wireAt i = .domain →
      let u := (s.hear cl.mac).dequeue cl
      let v := (u.blockValue cl r (u.unitOf cl r i) offset).1
      u.checkRead cl r = none → offset.val ≤ v.length →
      ∃ t, exec (.bdapReadBlock cl ix sub offset max) s = .next t
        ∧ Safety.replied s t cl (.ack (leBytes 2 ix ++ leBytes 1 sub ++ [0] ++ leBytes 4 v.length
          ++ leBytes 4 offset ++ (v.drop offset).take (min max 1388)))
        ∧ Safety.requestChanges [] s t)
    ∧ (∀ (s : State) (cl : Client) (max : Fin 65536), Safety.fresh s cl →
      let u := (s.hear cl.mac).dequeue cl
      let v := u.filterResult (u.filterOf cl)
      u.checkRead cl .filterResult = none →
      ∃ t, exec (.counterFilterRead cl max) s = .next t ∧ (t.view cl).heldFilter = v
        ∧ Safety.replied s t cl (.ack (leBytes 2 (addressOf .filterResult 0).1 ++ leBytes 1 (addressOf .filterResult 0).2
          ++ [0] ++ leBytes 4 v.length ++ leBytes 4 0 ++ v.take (min max 1388)))
        ∧ Safety.requestChanges [] s t)
    ∧ (∀ (s : State) (cl : Client) (a : Nat × Nat), Safety.fresh s cl → clientAddress cl .tsqPop 0 = some a →
      ∃ t, exec (.tsQueuePop cl) s = .next t ∧ t.tsQueue = s.tsQueue.drop 1
        ∧ Safety.replied s t cl (.ack (leBytes 2 a.1 ++ leBytes 1 a.2 ++ [11] ++ leBytes 2 16
          ++ leBytes 16 (s.tsQueue.headD 0 : Nat)))
        ∧ Safety.requestChanges [] s t)
    ∧ ∀ (s : State) (cl : Client) (n : Fin 66) (a : Nat × Nat), Safety.fresh s cl →
      let r := if n.val < 64 then Reg.monResult else Reg.hkInjResult
      let i := if n.val < 64 then n.val else n.val - 64
      clientAddress cl r i = some a →
      ∃ t, exec (.hkResultRead cl n) s = .next t ∧ t.bit r i 30 = false ∧ t.bit r i 26 = false
        ∧ Safety.replied s t cl (.ack (leBytes 2 a.1 ++ leBytes 1 a.2 ++ [4] ++ leBytes 2 4 ++ leBytes 4 (s.get r i)))
        ∧ Safety.requestChanges [r] s t

/-- A read of the present time of a time base returns seconds, nanoseconds and fraction latched at one tick, as a
12-byte DOMAIN: seconds U48, nanoseconds U32, fraction U16, all little-endian (R401). -/
def Obligations.TimeReadsAnswerTwelveBytes : Prop :=
  ∀ (s : State) (cl : Client) (n : Fin 4) (ix : Fin 65536), Safety.fresh s cl → ix.val = 0x8000 + 16 * n.val →
    ∃ t, exec (.bdapRead cl ix 1) s = .next t
      ∧ Safety.replied s t cl (.ack (leBytes 2 ix ++ [1, 11] ++ leBytes 2 12 ++ (leBytes 6 (s.get .xTbSec n)
        ++ leBytes 4 (s.get .xTbNs n) ++ leBytes 2 (s.get .xTbFrac n / 2 ^ 16))))
      ∧ Safety.requestChanges [] s t

/-- A write of a plain object stores its value; a staged write that fits is kept in its source's buffer and changes no
register, and one that its mode or its value refuses is refused at once (R348); COMMIT takes the buffer, and applies every
entry or, where one is refused, none but the reason it keeps (R276, R277, R352); DISCARD and the staging timeout drop it
(R338, R348, R349). The first segment of a block write, once its checks pass, is kept as its source's
open transfer and answered with the next offset; the segment that completes a plain DOMAIN writes it and closes the
transfer; one at a wrong offset draws abort 0x0C and closes it; a source silent for 1 s loses its transfer (R347). What a
refused COMMIT leaves is the model's reading (assumption 45). -/
def Obligations.WritesAreStoredStagedAndCommitted : Prop :=
  ((∀ (s : State) (cl : Client) (ix : Fin 65536) (sub ty : Fin 256) (val : List Byte) (r : Reg) (i : Nat) (x : Int),
      Safety.fresh s cl → s.flag .xResetDue 0 = false → findObject cl ix sub = .ok (r, i) →
      wireAbort r i ty val.length = none → clientValue cl r i val = .int x →
      s.checkWrite cl r i (.int x) = none → (∀ u, applyWrite cl r u (.int x) = storeReg r u (.int x)) →
      ∃ t, exec (.bdapWrite cl ix sub ty val) s = .next t ∧ t.get r (s.unitOf cl r i) = x
        ∧ Safety.replied s t cl (.ack (leBytes 2 ix ++ leBytes 1 sub)) ∧ Safety.requestChanges [r] s t)
    ∧ (∀ (s : State) (cl : Client) (ix : Fin 65536) (sub ty : Fin 256) (val : List Byte) (r : Reg) (i : Nat),
      Safety.fresh s cl → findObject cl ix sub = .ok (r, i) → wireAbort r i ty val.length = none →
      let v := clientValue cl r i val
      let w := applyWrite cl r (s.unitOf cl r i) v ((s.hear cl.mac).dequeue cl)
      s.checkWrite cl r i v = none →
      (∀ c d p, w.2 = .abort c d p → c = 0x06 ∨ c = 0x07 →
        ∃ t, exec (.bdapStagedWrite cl ix sub ty val) s = .next t ∧ Safety.replied s t cl (.abort ix sub c d p)
          ∧ t.staging = s.staging ∧ Safety.requestChanges [.slotRefusal, .kekRefusal, .kekValue] s t) ∧
      let e : Staged := ⟨r, s.unitOf cl r i, i, ix, sub, v⟩
      (∀ c d p, w.2 = .abort c d p → c ≠ 0x06 ∧ c ≠ 0x07) →
      (s.stagedBy cl = none → s.staging.length < 4 → e.size ≤ 8192 →
        ∃ t, exec (.bdapStagedWrite cl ix sub ty val) s = .next t ∧ Safety.acked s t cl
          ∧ t.stagedBy cl = some ⟨cl.mac, cl.fore, [e], s.nat .xTicks 0⟩ ∧ Safety.requestChanges [] s t)
      ∧ (∀ b, s.stagedBy cl = some b → b.entries.length < 64 → (b.entries.map Staged.size).sum + e.size ≤ 8192 →
        ∃ t, exec (.bdapStagedWrite cl ix sub ty val) s = .next t ∧ Safety.acked s t cl
          ∧ t.stagedBy cl = some { b with entries := b.entries ++ [e], at_ := s.nat .xTicks 0 }
            ∧ Safety.requestChanges [] s t)
      ∧ (s.stagedBy cl = none → 4 ≤ s.staging.length →
        ∃ t, exec (.bdapStagedWrite cl ix sub ty val) s = .next t ∧ Safety.aborted s t cl 0x0D
          ∧ t.staging = s.staging ∧ Safety.requestChanges [] s t))
    ∧ (∀ (s : State) (cl : Client), Safety.fresh s cl → s.flag .xResetDue 0 = false → 1 ≤ s.clientClass cl.mac →
      (s.stagedBy cl = none →
        ∃ t, exec (.bdapCommit cl) s = .next t ∧ Safety.replied s t cl (.ack (leBytes 2 0))
          ∧ Safety.requestChanges [] s t)
      ∧ (∀ b, s.stagedBy cl = some b →
        ∃ t, exec (.bdapCommit cl) s = .next t ∧ t.stagedBy cl = none
          ∧ (Safety.replied s t cl (.ack (leBytes 2 b.entries.length))
            ∨ (∃ detail n, n < b.entries.length ∧ Safety.replied s t cl (.abort 0 0 0x0E detail n))
              ∧ Safety.requestChanges [.deviceModeRefusal, .pairRefusal, .tsiRefusal, .calRefusal, .kekRefusal, .kekValue,
                .slotRefusal, .tbaseStepsRefused, .tbaseRefusedFlag] s t)))
    ∧ (∀ (s : State) (cl : Client), Safety.fresh s cl → 1 ≤ s.clientClass cl.mac →
      ∃ t, exec (.bdapCommitDiscard cl) s = .next t ∧ Safety.replied s t cl (.ack (leBytes 2 0))
        ∧ t.staging = s.staging.filter (fun x => !(x.mac == cl.mac && x.fore == cl.fore))
        ∧ Safety.requestChanges [] s t)
    ∧ ∀ (s : State) (mac : Nat) (fore : Bool), s.phase = .running →
      ∃ t, exec (.stagingTimeout mac fore) s = .next t
        ∧ ((∃ x ∈ s.staging, x.mac = mac ∧ x.fore = fore
            ∧ 250000 * s.get .bdapStagingTimeout 0 ≤ s.get .xTicks 0 - (x.at_ : Int)) → Safety.raised s t (evDev 115)
          ∧ t.staging = s.staging.filter (fun x => !(x.mac == mac && x.fore == fore)) ∧ Safety.eventChanges [] s t)
        ∧ ((∀ x ∈ s.staging, x.mac = mac → x.fore = fore →
            s.get .xTicks 0 - (x.at_ : Int) < 250000 * s.get .bdapStagingTimeout 0) → t = s))
    ∧ ((∀ (s : State) (cl : Client) (ix : Fin 65536) (sub : Fin 256) (total : Fin 4294967296) (data : List Byte) (r : Reg)
      (i : Nat), Safety.fresh s cl → s.flag .xResetDue 0 = false → findObject cl ix sub = .ok (r, i) →
      r.wireAt i = .domain → s.accessAbort cl r = none → lengthAbort cl r i total = none → data.length ≤ total.val →
      ∃ t, exec (.bdapWriteBlock cl ix sub true false total 0 data) s = .next t
        ∧ Safety.replied s t cl (.ack (leBytes 2 ix ++ leBytes 1 sub ++ leBytes 4 data.length))
        ∧ t.transfers = s.transfers.filter (fun x => x.mac != cl.mac)
          ++ [⟨cl.mac, cl.fore, ix, sub, total, data, s.nat .xTicks 0⟩] ∧ Safety.requestChanges [] s t)
    ∧ (∀ (s : State) (cl : Client) (ix : Fin 65536) (sub : Fin 256) (total offset : Fin 4294967296) (data : List Byte)
      (r : Reg) (i : Nat) (x : Transfer), Safety.fresh s cl → s.flag .xResetDue 0 = false →
      findObject cl ix sub = .ok (r, i) →
      s.transfers.find? (fun x => x.mac == cl.mac && x.fore == cl.fore) = some x →
      (x.ix = ix.val → x.sub = sub.val → x.total = total.val → offset.val = x.data.length →
        (x.data ++ data).length = total.val → s.checkWrite cl r i (.bytes (x.data ++ data)) = none →
        (∀ u, applyWrite cl r u (.bytes (x.data ++ data)) = storeReg r u (.bytes (x.data ++ data))) →
        ∃ t, exec (.bdapWriteBlock cl ix sub false true total offset data) s = .next t
          ∧ t.blob r (s.unitOf cl r i) = x.data ++ data
          ∧ Safety.replied s t cl (.ack (leBytes 2 ix ++ leBytes 1 sub ++ leBytes 4 total.val))
          ∧ t.transfers = s.transfers.filter (fun x => x.mac != cl.mac)
          ∧ Safety.requestChanges [r] s t)
      ∧ (offset.val ≠ x.data.length →
        ∃ t, exec (.bdapWriteBlock cl ix sub false false total offset data) s = .next t
          ∧ Safety.aborted s t cl 0x0C
          ∧ t.transfers = s.transfers.filter (fun x => x.mac != cl.mac)
          ∧ Safety.requestChanges [] s t))
    ∧ ∀ (s : State) (mac : Nat) (fore : Bool), s.phase = .running →
      let due := ∃ x ∈ s.transfers, x.mac = mac ∧ x.fore = fore ∧ x.at_ + 250000000 ≤ s.nat .xTicks 0
      (due → ∃ t, exec (.blockTransferTimeout mac fore) s = .next t
        ∧ t.transfers = s.transfers.filter (fun x => x.mac != mac) ∧ Safety.changesOnly [] s t)
      ∧ (¬ due → exec (.blockTransferTimeout mac fore) s = .next s))

/-- A source subscribes into the lowest free slot, or is refused with abort 0x10 when all eight are taken; it
unsubscribes; an EVENT takes the next records, waits for its acknowledgement, is released by it, and is sent again
without it, until after the fourth sending the subscription lapses, which is counted and reported (R350). -/
def Obligations.SubscribersAreServedAndLapse : Prop :=
  (∀ (s : State) (cl : Client) (mask : Fin 256), Safety.fresh s cl →
      (∀ u ∈ s.subscribers, u.is cl.mac cl.fore = false) →
      (∀ n, s.freeSlot = some n →
        ∃ t, exec (.bdapSubscribe cl mask) s = .next t ∧ Safety.replied s t cl (.ack (leBytes 1 n))
          ∧ t.subscribers = s.subscribers ++ [⟨n, cl.mac, cl.fore, cl.port, mask, [], 0, 0, 0, none⟩]
          ∧ Safety.requestChanges [] s t)
      ∧ (s.freeSlot = none →
        ∃ t, exec (.bdapSubscribe cl mask) s = .next t ∧ Safety.aborted s t cl 0x10
          ∧ t.subscribers = s.subscribers ∧ Safety.requestChanges [] s t))
    ∧ (∀ (s : State) (cl : Client) (u : Subscriber), Safety.fresh s cl →
      s.subscribers.find? (fun u => u.is cl.mac cl.fore) = some u →
      ∃ t, exec (.bdapUnsubscribe cl) s = .next t ∧ Safety.replied s t cl (.ack (leBytes 1 u.slot))
        ∧ t.subscribers = s.subscribers.filter (fun x => x.slot != u.slot) ∧ Safety.requestChanges [] s t)
    ∧ (∀ (s : State) (n : Fin 8) (u : Subscriber), s.phase = .running →
      s.subscribers.find? (fun u => u.slot == n.val) = some u → u.awaiting = none → u.queue ≠ [] →
      u.gapCount = 0 → u.fore = false →
      let l := u.queue.take 43
      ∃ t, exec (.eventSend n) s = .next t
        ∧ Safety.sent s t (.event u.port u.mac false u.nextSeq l (messageFrame u.mac (s.station false) 0x08 u.nextSeq
          (leBytes 1 l.length ++ [0] ++ l.flatMap EventRec.bytes)))
        ∧ t.subscribers.find? (fun u => u.slot == n.val) = some (⟨u.slot, u.mac, false, u.port, u.mask, u.queue.drop 43, 0,
          0, (u.nextSeq + 1) % 65536, some ⟨u.nextSeq, u.queue.take 43, 1⟩⟩ : Subscriber)
        ∧ Safety.changesOnly [.mgtFramesTx] s t)
    ∧ (∀ (s : State) (n : Fin 8) (u : Subscriber) (a : Awaiting), s.phase = .running →
      s.subscribers.find? (fun u => u.slot == n.val) = some u → u.awaiting = some a →
      (a.tries < 4 → ∃ t, exec (.eventResend n) s = .next t
        ∧ Safety.sent s t (.event u.port u.mac u.fore a.seq a.records (messageFrame u.mac (s.station u.fore) 0x08 a.seq
          (leBytes 1 a.records.length ++ [0] ++ a.records.flatMap EventRec.bytes)))
        ∧ t.subscribers.find? (fun u => u.slot == n.val)
          = some { u with awaiting := some { a with tries := a.tries + 1 } }
        ∧ Safety.changesOnly [.mgtFramesTx] s t)
      ∧ (4 ≤ a.tries → ∃ t, exec (.eventResend n) s = .next t
        ∧ t.subscribers.find? (fun u => u.slot == n.val) = none ∧ Safety.countedBy s t .bdapLapses 0 1
        ∧ Safety.raised s t (evDev 112) ∧ Safety.eventChanges [.bdapLapses] s t))
    ∧ ∀ (s : State) (cl : Client) (u : Subscriber) (a : Awaiting), s.answers cl = true →
      s.subscribers.find? (fun u => u.is cl.mac cl.fore) = some u → u.awaiting = some a →
      (a.seq = cl.seq → ∃ t, exec (.eventAckReceive cl) s = .next t
        ∧ t.subscribers.find? (fun x => x.slot == u.slot) = some { u with awaiting := none }
        ∧ Safety.changesOnly [] s t)
      ∧ (a.seq ≠ cl.seq → ∃ t, exec (.eventAckReceive cl) s = .next t ∧ t.subscribers = s.subscribers
        ∧ Safety.countedBy s t .bdapDiscarded 0 1 ∧ Safety.changesOnly [.bdapDiscarded] s t)

/-- A frame for neither station changes nothing but the noted polarity of its port; one at a station is counted, and a
well-formed request of a source that is not ignored, new and with room in the queue, waits there with its body; one
from a full queue is discarded and counted, and a malformed one draws abort 0x0F, in its turn (R345). A changed port
status that its settings allow is stored and reported: a coordinator's is 1 (R342 to R346; the model's reading of R342,
assumption 48). -/
def Obligations.ManagementFramesAreTakenOrDiscarded : Prop :=
  (∀ (s : State) (port : Fin 2) (f : List Byte) (inverted : Bool), s.phase = .running → s.stationsFor f = [] →
      ∃ t, exec (.bdapFrameReceive port f inverted) s = .next t ∧ t.get .mgtPolarityInverted port = ofFlag inverted
        ∧ t.requests = s.requests ∧ Safety.changesOnly [.mgtPolarityInverted] s t)
    ∧ (∀ (s : State) (port : Fin 2) (f : List Byte) (inverted fore : Bool), s.phase = .running →
      s.stationsFor f = [fore] → 22 ≤ f.length → leNat ((f.drop 15).take 1) < 8 →
      let cl : Client := ⟨macOf (f.drop 6), port, fore, leNat ((f.drop 16).take 2)⟩
      let body := parseMessage f.length (f.drop 14)
      s.clientClass cl.mac ≠ 3 → (s.view cl).recent.find? (fun x => x.seq == cl.seq) = none →
      (s.requests.length < 32 → body ≠ .malformed →
        ∃ t, exec (.bdapFrameReceive port f inverted) s = .next t ∧ t.requests = s.requests ++ [⟨cl, body⟩]
          ∧ t.out = s.out ∧ Safety.countedBy s t .bdapRequests 0 1 ∧ Safety.countedBy s t .mgtFramesRx port 1
          ∧ Safety.changesOnly [.mgtPolarityInverted, .mgtFramesRx, .bdapRequests] s t)
      ∧ (s.requests.length < 32 → s.requests ≠ [] → body = .malformed →
        ∃ t, exec (.bdapFrameReceive port f inverted) s = .next t ∧ t.requests = s.requests ++ [⟨cl, body⟩]
          ∧ t.out = s.out ∧ Safety.countedBy s t .bdapRequests 0 1)
      ∧ (s.requests = [] → body = .malformed →
        ∃ t, exec (.bdapFrameReceive port f inverted) s = .next t ∧ t.requests = s.requests
          ∧ Safety.replied s t cl (.abort 0 0 0x0F 0 0))
      ∧ (32 ≤ s.requests.length →
        ∃ t, exec (.bdapFrameReceive port f inverted) s = .next t ∧ t.requests = s.requests ∧ t.out = s.out
          ∧ Safety.countedBy s t .bdapDiscarded 0 1
          ∧ Safety.changesOnly [.mgtPolarityInverted, .mgtFramesRx, .bdapDiscarded] s t))
    ∧ ∀ (s : State) (port : Fin 2) (status : Fin 3), s.phase = .running →
      let allowed := decide (status.val = 2) ≠ s.flag .mgtPlcaEnable port
        ∧ (s.plcaCoordinator port = true → status.val = 1)
      (s.get .mgtStatus port ≠ (status.val : Int) → allowed →
        ∃ t, exec (.mgtPlcaStatusChange port status) s = .next t ∧ t.get .mgtStatus port = (status.val : Int)
          ∧ Safety.raised s t (evDev 113) ∧ Safety.eventChanges [.mgtStatus] s t)
      ∧ (s.get .mgtStatus port = (status.val : Int) ∨ ¬ allowed →
        exec (.mgtPlcaStatusChange port status) s = .next s)

/-! ## Events, inputs, counters (17_events_counters.md) -/

/-- A source that is raised is counted and timed. When it is enabled it is latched, one record is written to the ring,
the oldest of 1,024 giving way, and to the history where its severity is 3, and the record waits for every subscriber
whose mask holds that severity; when it is not, nothing else happens (R381, R384, R385). The housekeeping sequences an
event may start are another operation. Conversions whose miss raises an event again are followed two deep (assumption
15). -/
def Obligations.RaisingAnEventRecordsIt : Prop :=
  ∀ (s : State) (e : Nat) (detail : List Item) (k : Mark),
    let t := s.raiseCore e detail k
    let r : EventRec := ⟨e, k.flags (s.nat .eventSeverity e), s.nat .ringNextSeq 0, s.now, layout detail⟩
    Safety.raised s t e ∧ t.get .eventLastTime e = (s.now : Nat)
      ∧ (s.flag .eventEnable e = false → t.ring = s.ring ∧ t.history = s.history ∧ t.subscribers = s.subscribers
        ∧ Safety.changesOnly [.eventCount, .eventLastTime] s t)
      ∧ (s.flag .eventEnable e = true → t.get .eventLatched e = 1
        ∧ (s.ring.length < 1024 → t.ring = s.ring ++ [r])
        ∧ (1024 ≤ s.ring.length → t.ring = s.ring.drop 1 ++ [r] ∧ Safety.countedBy s t .ringOverwritten 0 1)
        ∧ (s.nat .eventSeverity e = 3 → t.history = (s.history ++ [r]).drop (s.history.length + 1 - 64))
        ∧ (s.nat .eventSeverity e ≠ 3 → t.history = s.history)
        ∧ (s.ring.length < 1024 → t.subscribers = s.subscribers.map (fun u => u.enqueue r))
        ∧ Safety.changesOnly [.eventCount, .eventLastTime, .eventLatched, .ringNextSeq, .ringOverwritten,
          .historyWritten, .xCaptureTriggered] s t)

/-- A latch is cleared by its write, and every latch by the write of B600.05; inputs are sampled together, an input
that has been active too long is marked stuck and reported, and a window's end restarts every count (R382, R388 to
R390). The summary at a window's end is raised though the stuck limit has masked the input: the model's reading of
R389 and R390 (assumption 45). -/
def Obligations.LatchesClearAndInputsAreSampled : Prop :=
  (∀ (s : State) (cl : Client) (e : Fin 1408), Safety.allowed s cl .eventLatched e (.int 1) →
      ∃ t, exec (.eventLatchClear cl e) s = .next t ∧ Safety.acked s t cl ∧ t.get .eventLatched e = 0
        ∧ (∀ i, i ≠ e.val → t.get .eventLatched i = s.get .eventLatched i)
        ∧ Safety.requestChanges [] s t)
    ∧ (∀ (s : State) (cl : Client), Safety.allowed s cl .ringClearLatched 0 (.int 1) →
      ∃ t, exec (.clearAllLatched cl) s = .next t ∧ Safety.acked s t cl ∧ (∀ e, t.get .eventLatched e = 0)
        ∧ Safety.requestChanges [] s t)
    ∧ (∀ (s : State) (levels : Vector Bool 36) (ago : Vector Nat 4), s.phase = .running →
      ∃ t, exec (.inputSample levels ago) s = .next t ∧ t.get .xInSamples 0 = s.get .xInSamples 0 + 1
        ∧ (∀ i : Fin 36, s.inputActive i levels[i] = s.bit .inputState i 0 → t.get .xInRun i = 0
          ∧ t.get .inputState i = s.get .inputState i ∧ t.get .inputEdges i = s.get .inputEdges i)
        ∧ (∀ i : Fin 36, s.inputActive i levels[i] ≠ s.bit .inputState i 0 → s.get .inputDebounce i = 0 →
          s.get .xInRun i = 0 → Safety.countedBy s t .inputEdges i 1
          ∧ t.bit .inputState i 0 = s.inputActive i levels[i] ∧ t.get .xInRun i = 0)
        ∧ (∀ i : Fin 36, s.inputActive i levels[i] ≠ s.bit .inputState i 0 → s.get .xInRun i = 0 →
          0 < s.get .inputDebounce i → t.get .inputState i = s.get .inputState i
          ∧ t.get .inputEdges i = s.get .inputEdges i ∧ t.get .xInRun i = s.get .xInSamples 0 + 2))
    ∧ (∀ (s : State) (i : Fin 36), s.phase = .running → s.bit .inputState i 0 = true → s.bit .inputState i 1 = false →
      1000 * s.get .inputStuckLimit i < s.get .xInSamples 0 - s.get .xInLastEdge i →
      ∃ t, exec (.inputStuck i) s = .next t ∧ t.bit .inputState i 1 = true ∧ Safety.raised s t (inputSource i)
        ∧ Safety.eventChanges [.inputState] s t)
    ∧ (∀ (s : State) (i : Fin 36), s.bit .inputState i 0 = false → exec (.inputStuck i) s = .next s)
    ∧ ∀ s : State, s.phase = .running →
      ∃ t, exec .inputRateWindowEnd s = .next t ∧ ∀ i : Fin 36, t.get .xInWindow i = 0
        ∧ t.get .xInLimit i = s.get .inputRateLimit i
        ∧ (s.bit .inputState i 2 = true → 10 * s.get .xInWindow i ≤ s.get .xInLimit i → t.bit .inputState i 2 = false)
        ∧ (s.bit .inputState i 2 = true → s.get .xInLimit i < 10 * s.get .xInWindow i →
          t.bit .inputState i 2 = true)
        ∧ (s.bit .inputState i 2 = true → Safety.raised s t (inputSource i))

/-- A snapshot latches every counter, starts its gather and answers its number and time, or joins the gather that runs; at
the gather's end bank 0 holds it, bank 1 too where a quarter hour asked for it; a write of A001.08 clears the wrap bits of
its groups and no other (R351, R394, R395). -/
def Obligations.SnapshotsAreGatheredAndWrapsCleared : Prop :=
  (∀ (s : State) (cl : Client), Safety.fresh s cl → 1 ≤ s.clientClass cl.mac → s.flag .snapBusy 0 = false →
      ∃ t, exec (.bdapSnapshot cl) s = .next t ∧ t.get .snapBusy 0 = 1
        ∧ t.latches = ((s.hear cl.mac).dequeue cl).latchNow ∧ t.get .xSnapPending 0 = 1
        ∧ t.get .xSnapPendTime 0 = (s.now : Nat) ∧ t.get .xSnapNumber 0 = ((s.nat .xSnapNumber 0 + 1) % 2 ^ 32 : Nat)
        ∧ Safety.replied s t cl (.ack (leBytes 4 (t.get .xSnapNumber 0) ++ leBytes 6 (s.now / 1000000000 : Nat)
          ++ leBytes 4 (s.now % 1000000000 : Nat)))
        ∧ Safety.requestChanges [.snapBusy, .xSnapPending, .xSnapPendTime, .xSnapNumber] s t)
    ∧ (∀ (s : State) (cl : Client), Safety.fresh s cl → 1 ≤ s.clientClass cl.mac → s.flag .snapBusy 0 = true →
      ∃ t, exec (.bdapSnapshot cl) s = .next t ∧ t.latches = s.latches
        ∧ t.nat .xSnapPending 0 = s.nat .xSnapPending 0 ||| 1 ∧ Safety.acked s t cl
        ∧ Safety.requestChanges [.xSnapPending] s t)
    ∧ (∀ s : State, s.phase = .running → s.flag .snapBusy 0 = true →
      ∃ t, exec .snapshotGatherComplete s = .next t ∧ t.bank0 = s.latches ∧ t.latches = [] ∧ t.get .snapBusy 0 = 0
        ∧ t.get .snapNumber 0 = s.get .xSnapNumber 0 ∧ t.get .snapTime 0 = s.get .xSnapPendTime 0
        ∧ t.get .snapCause 0 = s.get .xSnapPending 0
        ∧ (s.bit .xSnapPending 0 2 = true → t.bank1 = s.latches
          ∧ t.get .snapQuarterNumber 0 = s.get .xSnapNumber 0)
        ∧ (s.bit .xSnapPending 0 2 = false → t.bank1 = s.bank1
          ∧ t.get .snapQuarterNumber 0 = s.get .snapQuarterNumber 0)
        ∧ Safety.changesOnly [.snapBusy, .xBankCause, .xBankTime, .xBankNumber, .snapNumber, .snapTime, .snapCause,
          .snapQuarterNumber] s t)
    ∧ ∀ (s : State) (cl : Client) (m : Fin 256), Safety.allowed s cl .snapClearWraps 0 (.int m.val) →
      ∃ t, exec (.clearWraps cl m) s = .next t ∧ Safety.acked s t cl
        ∧ (∀ r i g, counterGroup r = some g → bitOf m.val g = true → r ≠ .bdapRequests →
          sget t.wraps (r, i) false = false)
        ∧ (∀ r i g, counterGroup r = some g → bitOf m.val g = false → r ≠ .bdapRequests →
          sget t.wraps (r, i) false = sget s.wraps (r, i) false)
        ∧ Safety.requestChanges [] s t

/-! ## Time (18_time.md) -/

/-- A tick adds its increment to every time base and then applies the step accepted for it; a pulse output rises where
counting crosses its second. A step is refused beyond the range of the time base (abort 0x07), and over the threshold
unless forced (abort 0x08), counted and reported; an accepted one waits for the next tick, is counted and reported and
takes the force away. The timing source follows TREF by its mode; a pulse falls once its width has passed (R399 to
R405). -/
def Obligations.TimeBasesCountAndStep : Prop :=
  (∀ s : State, s.phase = .running → ∃ t, exec .timeTick s = .next t ∧ t.get .xTicks 0 = s.get .xTicks 0 + 1
      ∧ (∀ n : Fin 4, 0 ≤ s.get .tbaseIncrement n →
        s.get .xStepDue n = 0 ∨ s.get .xStepDue n = 1 ∨ s.get .xStepDue n = 2 →
        s.tbTotal n + s.nat .tbaseIncrement n < 2 ^ 48 * secondUnits →
        0 ≤ s.nextTotal n → s.nextTotal n < 2 ^ 48 * (secondUnits : Int) →
        (t.tbTotal n : Int) = s.nextTotal n ∧ t.get .xStepDue n = 0)
      ∧ ∀ j : Fin 4, s.nat .ppsOutSource j < 4 → s.get .xPpsHigh j = 0 →
        ((s.tbTotal (s.nat .ppsOutSource j) : Int) - s.get .ppsOutOffset j * 2 ^ 32) / (secondUnits : Int)
          < ((s.tbTotal (s.nat .ppsOutSource j) + s.nat .tbaseIncrement (s.nat .ppsOutSource j) : Nat)
            - s.get .ppsOutOffset j * 2 ^ 32) / (secondUnits : Int) →
        t.get .xPpsHigh j = 1 ∧ t.get .xPpsUntil j = s.get .xTicks 0 + 1 + 250 * s.get .ppsOutWidth j)
    ∧ (∀ (s : State) (cl : Client) (n : Fin 4) (v : Int), Safety.allowed s cl .tbaseOffset n (.int v) →
      let new := s.nextTotal n + v * 2 ^ 32
      (new < 0 ∨ 2 ^ 48 * (secondUnits : Int) ≤ new →
        ∃ t, exec (.timeStepOffset cl n v) s = .next t ∧ Safety.aborted s t cl 0x07 ∧ Safety.requestChanges [] s t)
      ∧ (0 ≤ new → new < 2 ^ 48 * (secondUnits : Int) → s.get .tbaseForce n = 0 →
        s.get .tbaseStepThreshold n * 2 ^ 32 < ((v * 2 ^ 32).natAbs : Int) →
        ∃ t, exec (.timeStepOffset cl n v) s = .next t ∧ Safety.aborted s t cl 0x08
          ∧ Safety.countedBy s t .tbaseStepsRefused n 1 ∧ t.get .tbaseRefusedFlag n = 1 ∧ Safety.raised s t (evDev 32)
          ∧ Safety.requestChanges [.tbaseStepsRefused, .tbaseRefusedFlag] s t)
      ∧ (0 ≤ new → new < 2 ^ 48 * (secondUnits : Int) →
        s.get .tbaseForce n ≠ 0 ∨ ((v * 2 ^ 32).natAbs : Int) ≤ s.get .tbaseStepThreshold n * 2 ^ 32 →
        ∃ t, exec (.timeStepOffset cl n v) s = .next t ∧ Safety.acked s t cl ∧ t.get .tbaseForce n = 0
          ∧ t.get .xStepPending n = s.get .xStepPending n + v * 2 ^ 32
          ∧ t.get .xStepDue n = max 1 (s.get .xStepDue n) ∧ Safety.countedBy s t .tbaseSteps n 1
          ∧ Safety.raised s t (evDev 33)
          ∧ Safety.requestChanges [.tbaseForce, .xStepPending, .xStepDue, .tbaseSteps] s t))
    ∧ (∀ (s : State) (cl : Client) (n : Fin 4) (b : List Byte), Safety.allowed s cl .tbaseSet n (.bytes b) →
      let sec := leNat (b.take 6)
      let ns := leNat ((b.drop 6).take 4)
      let new : Int := (sec * 1000000000 + ns) * 2 ^ 32 + leNat ((b.drop 10).take 2) * 2 ^ 16
      (1000000000 ≤ ns →
        ∃ t, exec (.timeSetAbsolute cl n b) s = .next t ∧ Safety.aborted s t cl 0x07 ∧ Safety.requestChanges [] s t)
      ∧ (ns < 1000000000 → s.get .tbaseForce n = 0 →
        s.get .tbaseStepThreshold n * 2 ^ 32 < ((new - s.nextTotal n).natAbs : Int) →
        ∃ t, exec (.timeSetAbsolute cl n b) s = .next t ∧ Safety.aborted s t cl 0x08
          ∧ Safety.countedBy s t .tbaseStepsRefused n 1 ∧ Safety.raised s t (evDev 32)
          ∧ Safety.requestChanges [.tbaseStepsRefused, .tbaseRefusedFlag] s t)
      ∧ (ns < 1000000000 → s.get .tbaseForce n ≠ 0
          ∨ ((new - s.nextTotal n).natAbs : Int) ≤ s.get .tbaseStepThreshold n * 2 ^ 32 →
        ∃ t, exec (.timeSetAbsolute cl n b) s = .next t ∧ Safety.acked s t cl ∧ t.get .xStepPending n = new
          ∧ t.get .xStepDue n = 2 ∧ t.get .tbaseForce n = 0 ∧ Safety.countedBy s t .tbaseSteps n 1
          ∧ Safety.raised s t (evDev 33)
          ∧ Safety.requestChanges [.tbaseForce, .xStepPending, .xStepDue, .tbaseSteps] s t))
    ∧ (∀ (s : State) (offset : Option Int), s.phase = .running →
      ∃ t, exec (.trefOutOfTolerance offset) s = .next t ∧ t.get .xTrefIn 0 = 0
        ∧ (offset = none → t.get .tclkTrefOffset 0 = -2147483648)
        ∧ (∀ o, offset = some o → t.get .tclkTrefOffset 0 = max (-2147483647) (min 2147483647 o))
        ∧ (s.get .tclkSource 0 = 0 → t.get .tclkSource 0 = (if s.get .tclkMode 0 = 1 then 1 else 2)
          ∧ Safety.raised s t (evDev 35))
        ∧ (s.get .tclkSource 0 ≠ 0 → t.get .tclkSource 0 = s.get .tclkSource 0)
        ∧ Safety.eventChanges [.xTrefIn, .tclkTrefOffset, .tclkSource] s t)
    ∧ (∀ (s : State) (offset : Int), s.phase = .running →
      ∃ t, exec (.trefReturn offset) s = .next t ∧ t.get .xTrefIn 0 = 1
        ∧ t.get .tclkTrefOffset 0 = max (-2147483647) (min 2147483647 offset)
        ∧ (s.get .tclkMode 0 = 2 → t.get .tclkSource 0 = s.get .tclkSource 0)
        ∧ (s.get .tclkMode 0 ≠ 2 → t.get .tclkSource 0 = 0
          ∧ (s.get .tclkSource 0 ≠ 0 → Safety.raised s t (evDev 35)))
        ∧ Safety.eventChanges [.xTrefIn, .tclkTrefOffset, .tclkSource] s t)
    ∧ ∀ (s : State) (j : Fin 4),
      (s.phase = .running → s.get .xPpsUntil j ≤ s.get .xTicks 0 →
        ∃ t, exec (.ppsOutFall j) s = .next t ∧ t.get .xPpsHigh j = 0 ∧ Safety.changesOnly [.xPpsHigh] s t)
      ∧ (s.get .xTicks 0 < s.get .xPpsUntil j → exec (.ppsOutFall j) s = .next s)

/-! ## Housekeeping (20_monitor_adc.md) -/

/-- A conversion writes its input's result in microvolts and as a register with the new bit, unread results
overrunning, and goes on to the next entry or ends the sequence; a trigger by write starts a sequence or an injected
entry, holds, or is missed and counted; a calibration is asked for, waits or starts, and ends in force or refused,
counted and reported (R439 to R447). Which results count as overrun, and when a continuous sequence starts, are the
model's readings (assumption 45). -/
def Obligations.HousekeepingConvertsAndCalibrates : Prop :=
  (∀ (s : State) (k : Fin 2) (m : HkReading), s.phase = .running →
      s.get .hkState k = 1 ∨ s.get .hkState k = 2 →
      let ch := hkChannel (s.hkCurrent k)
      let v := hkValue (s.hkSum k (s.nat .xHkAverage k) m.samples) (s.nat .xHkShift k)
      ∃ t, exec (.hkConversionComplete k m) s = .next t
        ∧ (ch < 64 → t.get .monMicrovolts ch = (hkMicrovolts v (s.nat .xHkAverage k) (s.nat .xHkShift k) : Nat)
          ∧ t.nat .monResult ch % 2 ^ 20 = v % 2 ^ 20 ∧ t.bit .monResult ch 30 = true
          ∧ t.bit .monResult ch 26 = s.bit .monResult ch 30
          ∧ (s.bit .monResult ch 30 = true → Safety.countedBy s t .monOverruns ch 1))
        ∧ (ch = 64 → t.nat .hkRefResult k % 2 ^ 20 = s.hkSum k 0 m.samples % 2 ^ 20)
        ∧ (65 ≤ ch → t.nat .hkGndResult k % 2 ^ 20 = s.hkSum k 0 m.samples % 2 ^ 20)
        ∧ (s.get .hkState k = 2 → ch < 64 → t.nat .hkInjResult k % 2 ^ 20 = v % 2 ^ 20)
        ∧ (s.get .hkState k = 1 → s.flag .xHkSeqActive k = true →
          (s.nat .xHkIndex k + 1 < (s.blob .xHkSequence k).length / 2 →
            t.get .xHkIndex k = (s.nat .xHkIndex k + 1 : Nat) ∧ t.get .hkSeqCount k = s.get .hkSeqCount k)
          ∧ ((s.blob .xHkSequence k).length / 2 ≤ s.nat .xHkIndex k + 1 → Safety.countedBy s t .hkSeqCount k 1)))
    ∧ (∀ (s : State) (k : Fin 2) (m : HkReading), s.get .hkState k ≠ 1 → s.get .hkState k ≠ 2 →
      exec (.hkConversionComplete k m) s = .next s)
    ∧ (∀ (s : State) (cl : Client) (k : Fin 2), Safety.allowed s cl .hkSeqStart k (.int 1) →
      ∃ t, exec (.hkSeqStart cl k) s = .next t ∧ Safety.acked s t cl
        ∧ (s.get .hkSeqTrigger k ≠ 0 → t.get .xHkSeqActive k = s.get .xHkSeqActive k
          ∧ t.get .hkSeqMissed k = s.get .hkSeqMissed k)
        ∧ (s.get .hkSeqTrigger k = 0 → s.flag .xHkSeqActive k = true → Safety.countedBy s t .hkSeqMissed k 1)
        ∧ (s.get .hkSeqTrigger k = 0 → s.flag .xHkSeqActive k = false → s.get .hkState k ≠ 3 →
          t.get .xHkSeqActive k = 1 ∧ t.get .xHkIndex k = 0 ∧ t.blob .xHkSequence k = s.hkEntries k
          ∧ (s.get .hkState k = 0 → t.get .hkState k = 1))
        ∧ (s.get .hkSeqTrigger k = 0 → s.flag .xHkSeqActive k = false → s.get .hkState k = 3 →
          s.flag .xHkHeld k = false → t.get .xHkHeld k = 1 ∧ t.get .xHkSeqActive k = s.get .xHkSeqActive k)
        ∧ Safety.requestChanges [] s t)
    ∧ (∀ (s : State) (cl : Client) (k : Fin 2), Safety.allowed s cl .hkInjStart k (.int 1) →
      ∃ t, exec (.hkInjectStart cl k) s = .next t ∧ Safety.acked s t cl
        ∧ (s.get .hkInjTrigger k = 0 → s.flag .xHkInjPending k = false → s.get .hkState k = 0 →
          t.get .hkState k = 2 ∧ t.get .xHkInjInForce k = s.get .hkInjEntry k ∧ t.get .xHkInjPending k = 0)
        ∧ (s.get .hkInjTrigger k = 0 → s.flag .xHkInjPending k = false → s.get .hkState k = 1 ∨ s.get .hkState k = 3 →
          t.get .xHkInjPending k = 1 ∧ t.get .hkState k = s.get .hkState k)
        ∧ (s.get .hkInjTrigger k = 0 → s.flag .xHkInjPending k = true → Safety.countedBy s t .hkInjMissed k 1)
        ∧ Safety.requestChanges [] s t)
    ∧ (∀ (s : State) (cl : Client) (k : Fin 2), Safety.allowed s cl .hkCalRequest k (.int 1) →
      (s.hkCalBusy k = true →
        ∃ t, exec (.hkCalRequest cl k) s = .next t ∧ Safety.aborted s t cl 0x0A ∧ Safety.requestChanges [] s t)
      ∧ (s.hkCalBusy k = false →
        ∃ t, exec (.hkCalRequest cl k) s = .next t ∧ Safety.acked s t cl
          ∧ (s.flag .xHkInjPending k = true ∨ s.get .hkState k = 2 → t.get .hkCalState k = 1)
          ∧ (s.flag .xHkInjPending k = false → s.get .hkState k = 0 → t.get .hkState k = 3
            ∧ t.get .hkCalState k = 2)
          ∧ (s.flag .xHkInjPending k = false → s.get .hkState k = 1 → t.get .xHkCalWait k = 1)
          ∧ Safety.requestChanges [.hkState, .hkCalState, .xHkCalWait] s t))
    ∧ (∀ (s : State) (k : Fin 2),
      (s.phase = .running → s.get .hkCalInterval k ≠ 0 → s.hkCalBusy k = false →
        s.usSince .xHkCalAt k (1000000 * s.get .hkCalInterval k) = true →
        ∃ t, exec (.hkCalAuto k) s = .next t
          ∧ (s.flag .xHkInjPending k = true ∨ s.get .hkState k = 2 → t.get .hkCalState k = 1)
          ∧ (s.flag .xHkInjPending k = false → s.get .hkState k = 0 → t.get .hkState k = 3
            ∧ t.get .hkCalState k = 2)
          ∧ Safety.changesOnly [.hkState, .hkCalState, .xHkCalWait] s t)
      ∧ (s.get .hkCalInterval k = 0 ∨ s.hkCalBusy k = true
          ∨ s.usSince .xHkCalAt k (1000000 * s.get .hkCalInterval k) = false → exec (.hkCalAuto k) s = .next s))
    ∧ (∀ (s : State) (k : Fin 2),
      (s.phase = .running → s.get .hkState k < 2 → s.flag .xHkCalWait k = true →
        ∃ t, exec (.hkSampleBoundary k) s = .next t ∧ t.get .hkState k = 3 ∧ t.get .hkCalState k = 2
          ∧ t.get .xHkCalWait k = 0 ∧ Safety.changesOnly [.hkState, .hkCalState, .xHkCalWait] s t)
      ∧ (s.phase = .running → s.get .hkState k < 2 → s.flag .xHkCalWait k = false → s.flag .xHkInjPending k = true →
        ∃ t, exec (.hkSampleBoundary k) s = .next t ∧ t.get .hkState k = 2
          ∧ t.get .xHkInjInForce k = s.get .hkInjEntry k ∧ t.get .xHkInjPending k = 0)
      ∧ (2 ≤ s.get .hkState k → exec (.hkSampleBoundary k) s = .next s))
    ∧ ∀ (s : State) (k : Fin 2) (m : HkCalReading), s.phase = .running → s.get .hkState k = 3 →
      ∃ t, exec (.hkCalComplete k m) s = .next t
        ∧ (hkBroken m = 0 → t.get .hkCalOffset k = m.offset ∧ t.get .hkCalGain k = m.gain
          ∧ t.get .hkCalRefusals k = s.get .hkCalRefusals k)
        ∧ (hkBroken m ≠ 0 → Safety.countedBy s t .hkCalRefusals k 1 ∧ t.get .hkCalLastLimit k = (hkBroken m : Nat)
          ∧ Safety.raised s t (evDev 131) ∧ t.get .hkCalOffset k = s.get .hkCalOffset k)
        ∧ (s.flag .xHkCalWait k = false → t.get .hkCalState k = 0)
        ∧ (hkBroken m = 0 → s.flag .xHkCalWait k = false → s.flag .xHkInjPending k = false →
          s.flag .xHkSeqActive k = true → t.get .hkState k = 1)

/-! ## Pair (21_pair.md) -/

/-- A valid message of the tie link is counted with the copies discarded on CRC and brings the link up, and then acts:
a heartbeat tells the partner's state, digests are compared, a key record is applied, a lease is taken and
acknowledged, an acknowledged lease is extended when it is due, deliveries are noted and the transmit multiframes
aligned. A link that is not powered or has no locked lane takes none; one that is silent goes down, is counted and
reported (R454, R455, R457 to R460, R274). The instant that an alignment message brings is timing and is not kept
(assumption 17). -/
def Obligations.TieMessagesAreTaken : Prop :=
  (let up := fun s : State => s.phase = .running ∧ s.get .tieState 0 ≠ 0 ∧ s.get .tieLanesLocked 0 ≠ 0
    let taken := fun (s t : State) (bad : Fin 4) => Safety.countedBy s t .tieReceived 0 1
      ∧ Safety.countedBy s t .tieCrcErrors 0 bad.val ∧ t.get .tieState 0 = 2
      ∧ (s.get .tieState 0 ≠ 2 → Safety.raised s t (evDev 145))
    (∀ (s : State) (m : HeartbeatReading) (bad : Fin 4), up s →
      ∃ t, exec (.tieHeartbeatRx m bad) s = .next t ∧ taken s t bad
        ∧ t.get .pairPartnerMode 0 = (m.mode.val : Int)
        ∧ t.get .pairPartnerHealth 0 = (m.health.val : Int) ∧ t.get .pairPartnerAddr 0 = (m.addr.val : Int)
        ∧ (s.inPair = true → m.mode.val ≠ 4 → t.get .pairState 0 = 3)
        ∧ (s.inPair = true → m.mode.val = 4 → (m.role.val : Int) = 3 - s.get .pairRole 0 → t.get .pairState 0 = 2))
    ∧ (∀ (s : State) (d : Vector (BitVec 32) 8) (bad : Fin 4), up s →
      ∃ t, exec (.tieDigestRx d bad) s = .next t ∧ taken s t bad
        ∧ ∀ n : Fin 8, t.get .pairDigestPartner n = (d[n].toNat : Int)
          ∧ t.bit .pairDigestMatch 0 n = decide (s.get .pairDigestLocal n = (d[n].toNat : Int)))
    ∧ (∀ (s : State) (n : Fin 8192) (d : Option (List Byte)) (bad : Fin 4), up s →
      ∃ t, exec (.tieKeyRecordRx n d bad) s = .next t ∧ taken s t bad
        ∧ (s.pairStandby = false → ∀ i, t.get .xSlotReg i = s.get .xSlotReg i ∧ t.blob .xSlotKey i = s.blob .xSlotKey i)
        ∧ (s.pairStandby = true → d = none → ∀ r : Fin 2, t.get .xSlotReg (2 * n.val + r.val) = 0
          ∧ t.blob .xSlotKey (2 * n.val + r.val) = [])
        ∧ (∀ x, s.pairStandby = true → d = some x → s.loadCode n x true = 0 → Safety.countedBy s t .slotLoads 0 1)
        ∧ (∀ x, s.pairStandby = true → d = some x → s.loadCode n x true ≠ 0 → t.get .xSlotUnsync n = 1
          ∧ Safety.raised s t (evDev 149)))
    ∧ (∀ (s : State) (n : Fin 8192) (g : Fin 2) (l : BitVec 64) (bad : Fin 4), up s →
      ∃ t, exec (.tieLeaseRx n g l bad) s = .next t ∧ taken s t bad
        ∧ (s.pairStandby = true → s.regState n g ≠ 0 →
          t.get .xLeaseAck (2 * n.val + g.val) = (l.toNat : Int) ∧ Safety.sent s t (.tieLeaseAck n g l.toNat)
          ∧ (s.get .xLease (2 * n.val + g.val) = 0 → t.get .xLease (2 * n.val + g.val) = (l.toNat : Int)
            ∧ t.get .xSlotCount (2 * n.val + g.val) = (l.toNat : Int))
          ∧ (s.get .xLease (2 * n.val + g.val) ≠ 0 → t.get .xLeaseNew (2 * n.val + g.val) = (l.toNat : Int)
            ∧ t.get .xLease (2 * n.val + g.val) = s.get .xLease (2 * n.val + g.val))))
    ∧ (∀ (s : State) (n : Fin 8192) (g : Fin 2) (l : BitVec 64) (bad : Fin 4), up s →
      ∃ t, exec (.tieLeaseAckRx n g l bad) s = .next t ∧ taken s t bad
        ∧ (s.pairActive = true → s.get .xLease (2 * n.val + g.val) = (l.toNat : Int) → l.toNat ≠ 0 →
          t.get .xLeaseAck (2 * n.val + g.val) = (l.toNat : Int)
          ∧ ((l.toNat : Int) ≤ s.get .xSlotCount (2 * n.val + g.val) + 2 ^ 31 →
            t.get .xLease (2 * n.val + g.val) = (l.toNat + 2 ^ 32 : Nat)
            ∧ Safety.sent s t (.tieLease n g (l.toNat + 2 ^ 32)))
          ∧ (s.get .xSlotCount (2 * n.val + g.val) + 2 ^ 31 < (l.toNat : Int) →
            t.get .xLease (2 * n.val + g.val) = (l.toNat : Int))))
    ∧ (∀ (s : State) (k : Fin 12) (bsq : Fin 16777216) (bad : Fin 4), up s →
      ∃ t, exec (.tieDeliveryRx k bsq bad) s = .next t ∧ taken s t bad
        ∧ t.get .xDelivery k = (if s.pairStandby = true then (bsq.val : Int) + 1 else s.get .xDelivery k))
    ∧ (∀ (s : State) (bsq : Fin 16777216) (time : Nat) (bad : Fin 4), up s →
      ∃ t, exec (.tieTxAlignmentRx bsq time bad) s = .next t ∧ taken s t bad ∧ ∀ k : Fin 12, t.get .xTxBsq k
          = (if s.pairStandby = true ∧ s.idle k = false ∧ s.get .xTxRate k = s.get .xTxRate 0 then (bsq.val : Int)
            else s.get .xTxBsq k))
    ∧ (∀ (s : State) (cause : Fin 6) (bad : Fin 4), up s →
      ∃ t, exec (.tieReleaseRx cause bad) s = .next t ∧ taken s t bad)
    ∧ ∀ (s : State) (cause : Fin 6) (bad : Fin 4), up s →
      ∃ t, exec (.tieSwitchRequestRx cause bad) s = .next t ∧ taken s t bad)
    ∧ (∀ (s : State) (c : Instr) (bad : Fin 4), s.get .tieState 0 = 0 ∨ s.get .tieLanesLocked 0 = 0 →
      ((∃ m, c = .tieHeartbeatRx m bad) ∨ (∃ d, c = .tieDigestRx d bad) ∨ (∃ n d, c = .tieKeyRecordRx n d bad)
        ∨ (∃ n g l, c = .tieLeaseRx n g l bad) ∨ (∃ n g l, c = .tieLeaseAckRx n g l bad)
        ∨ (∃ k bsq, c = .tieDeliveryRx k bsq bad) ∨ (∃ bsq time, c = .tieTxAlignmentRx bsq time bad)
        ∨ (∃ cause, c = .tieReleaseRx cause bad) ∨ ∃ cause, c = .tieSwitchRequestRx cause bad) →
      exec c s = .next s)
    ∧ (∀ (s : State) (lanes : Fin 16), s.phase = .running → s.get .tieState 0 ≠ 0 →
      ∃ t, exec (.tieHeartbeat lanes) s = .next t ∧ t.get .tieLanesLocked 0 = (lanes.val : Int)
        ∧ (lanes.val ≠ 0 → Safety.countedBy s t .tieSent 0 1
          ∧ Safety.sent s t (.tieHeartbeat (s.nat .deviceModeState 0) (s.nat .pairRole 0) (s.nat .pairState 0) s.health
            (t.nat .pairReady 0)))
        ∧ (lanes.val = 0 → t.out = s.out ∧ (s.get .tieState 0 = 2 → t.get .tieState 0 = 1
          ∧ Safety.countedBy s t .tieDowns 0 1 ∧ Safety.raised s t (evDev 145))))
    ∧ (∀ (s : State) (lanes : Fin 16), s.get .tieState 0 = 0 → exec (.tieHeartbeat lanes) s = .next s)
    ∧ (∀ s : State, s.phase = .running → s.get .tieState 0 = 2 → s.usSince .xTieMsgAt 0 10 = true →
      ∃ t, exec .tieLinkDown s = .next t ∧ t.get .tieState 0 = 1 ∧ Safety.countedBy s t .tieDowns 0 1
        ∧ Safety.raised s t (evDev 145)
        ∧ (s.pairStandby = true → t.get .pairReady 0 = 0 ∧ (s.get .pairTieLossPolicy 0 = 0 → t.get .pairState 0 = 3))
        ∧ Safety.eventChanges [.tieState, .tieDowns, .xTieDownAt, .pairState, .pairReady] s t)
    ∧ (∀ s : State, s.get .tieState 0 ≠ 2 ∨ s.usSince .xTieMsgAt 0 10 = false → exec .tieLinkDown s = .next s)
    ∧ ∀ s : State, s.phase = .running →
      ∃ t, exec .digestRecompute s = .next t ∧ (∀ n : Fin 8, t.get .pairDigestLocal n = (s.digest n : Nat))
        ∧ (s.get .tieLanesLocked 0 ≠ 0 → Safety.sent s t (.tieDigest ((List.range 8).map s.digest)))
        ∧ Safety.eventChanges [.pairDigestLocal, .tieSent, .pairDigestMatch, .pairReady] s t

/-- A switchover by write, by health that has favoured the standby for the hold-off, or on request exchanges the
roles: the module that was active drives SWITCH_OUT low as standby, the one that was standby takes the active role,
counted, with its cause and source 144. A switch by write is refused with abort 0x08 without a ready standby, a forced
one without the link; a standby takes over on release when it is ready, and 20 µs after link loss, under its policy,
when the partner is off (R461 to R464, R467). Crossing requests fall together within 250 ticks: the model's reading
(assumption 18). -/
def Obligations.PairRolesSwitch : Prop :=
  (∀ (s : State) (cl : Client), Safety.allowed s cl .pairSwitch 0 (.int 1) →
      (s.standbyReady = false →
        ∃ t, exec (.pairSwitch cl) s = .next t ∧ Safety.aborted s t cl 0x08 ∧ Safety.requestChanges [] s t)
      ∧ (s.standbyReady = true → s.pairActive = true →
        ∃ t, exec (.pairSwitch cl) s = .next t ∧ Safety.acked s t cl ∧ t.get .pairRole 0 = 2 ∧ t.get .xSwitchOut 0 = 0
          ∧ (s.get .tieLanesLocked 0 ≠ 0 → Safety.sent s t (.tieSwitch 1)))
      ∧ (s.standbyReady = true → s.pairStandby = true →
        ∃ t, exec (.pairSwitch cl) s = .next t ∧ Safety.acked s t cl ∧ t.get .pairRole 0 = 1 ∧ t.get .xSwitchOut 0 = 1
          ∧ t.get .pairLastCause 0 = 1 ∧ t.get .pairReady 0 = 0 ∧ Safety.countedBy s t .pairSwitchovers 0 1
          ∧ Safety.raised s t (evDev 144)))
    ∧ (∀ (s : State) (cl : Client), Safety.allowed s cl .pairSwitch 0 (.int 2) →
      (s.inPair = false ∨ s.get .tieState 0 ≠ 2 →
        ∃ t, exec (.pairSwitchForce cl) s = .next t ∧ Safety.aborted s t cl 0x08 ∧ Safety.requestChanges [] s t)
      ∧ (s.get .tieState 0 = 2 → s.pairActive = true →
        ∃ t, exec (.pairSwitchForce cl) s = .next t ∧ Safety.acked s t cl ∧ t.get .pairRole 0 = 2
          ∧ t.get .xSwitchOut 0 = 0)
      ∧ (s.get .tieState 0 = 2 → s.pairStandby = true →
        ∃ t, exec (.pairSwitchForce cl) s = .next t ∧ Safety.acked s t cl ∧ t.get .pairRole 0 = 1
          ∧ t.get .pairLastCause 0 = 2 ∧ t.get .pairState 0 = 2 ∧ Safety.countedBy s t .pairSwitchovers 0 1
          ∧ Safety.raised s t (evDev 144)))
    ∧ (∀ s : State,
      let held := s.get .xHealthAt 0 ≠ 0 ∧ 250000 * s.get .pairHoldOff 0 ≤ s.get .xTicks 0 - (s.get .xHealthAt 0 - 1)
      (s.phase = .running → s.healthFavours = true → held → s.pairActive = true →
        ∃ t, exec .healthSwitch s = .next t ∧ t.get .pairRole 0 = 2 ∧ t.get .xSwitchOut 0 = 0)
      ∧ (s.phase = .running → s.healthFavours = true → held → s.pairStandby = true →
        ∃ t, exec .healthSwitch s = .next t ∧ t.get .pairRole 0 = 1 ∧ t.get .pairLastCause 0 = 4
          ∧ Safety.raised s t (evDev 144))
      ∧ (s.healthFavours = false ∨ ¬ held → exec .healthSwitch s = .next s))
    ∧ (∀ (s : State) (cause : Fin 6) (bad : Fin 4), s.phase = .running → s.get .tieState 0 ≠ 0 →
      s.get .tieLanesLocked 0 ≠ 0 →
      (s.get .xSwitchTick 0 = 0 ∨ s.get .xSwitchTick 0 - 1 + 250 ≤ s.get .xTicks 0 →
        ∃ t, exec (.tieSwitchRequestRx cause bad) s = .next t
          ∧ (s.pairActive = true → t.get .pairRole 0 = 2 ∧ t.get .xSwitchOut 0 = 0)
          ∧ (s.pairStandby = true → t.get .pairRole 0 = 1 ∧ t.get .pairLastCause 0 = (cause.val : Int)
            ∧ Safety.raised s t (evDev 144)))
      ∧ (s.get .xSwitchTick 0 ≠ 0 → s.get .xTicks 0 < s.get .xSwitchTick 0 - 1 + 250 →
        ∃ t, exec (.tieSwitchRequestRx cause bad) s = .next t ∧ t.get .pairRole 0 = s.get .pairRole 0))
    ∧ (∀ (s : State) (cause : Fin 6) (bad : Fin 4), s.phase = .running → s.get .tieState 0 ≠ 0 →
      s.get .tieLanesLocked 0 ≠ 0 → s.pairStandby = true →
      ∃ t, exec (.tieReleaseRx cause bad) s = .next t ∧ t.get .pairState 0 = 3
        ∧ (s.flag .pairReady 0 = true → t.get .pairRole 0 = 1 ∧ t.get .pairLastCause 0 = 3
          ∧ Safety.raised s t (evDev 144))
        ∧ (s.flag .pairReady 0 = false → t.get .pairRole 0 = 2))
    ∧ ∀ s : State,
      (s.phase = .running → s.pairStandby = true → s.get .tieState 0 = 1 → s.get .pairTieLossPolicy 0 = 1 →
        s.usSince .xTieDownAt 0 20 = true → s.partnerOff = true →
        ∃ t, exec .tieLossTakeover s = .next t ∧ t.get .pairRole 0 = 1 ∧ t.get .pairState 0 = 3
          ∧ t.get .pairLastCause 0 = 5 ∧ t.get .pairReady 0 = 0 ∧ Safety.raised s t (evDev 144))
      ∧ (s.pairStandby = false ∨ s.usSince .xTieDownAt 0 20 = false → exec .tieLossTakeover s = .next s)
end

