-- ==== Sys2Proof/Laws/Sparse.lean ====
section
/-! SUPPORT. What a write to a table does: the key reads the written value, every other key reads as before, and the
canonical form is kept. -/

set_option Elab.async false

namespace Sys2Proof.Laws

open Sys2Proof.Machine

variable {κ α : Type} [DecidableEq κ]

theorem sget_sdel_same (m : List (κ × α)) (k : κ) (d : α) : sget (sdel m k) k d = d := by
  induction m with
  | nil => rfl
  | cons e t ih =>
    obtain ⟨k', v⟩ := e
    by_cases h : k' = k
    · simpa [sdel, h] using ih
    · have : sdel ((k', v) :: t) k = (k', v) :: sdel t k := by simp [sdel, h]
      rw [this, sget, if_neg h, ih]

theorem sget_sdel_other (m : List (κ × α)) {k j : κ} (d : α) (h : j ≠ k) : sget (sdel m k) j d = sget m j d := by
  induction m with
  | nil => rfl
  | cons e t ih =>
    obtain ⟨k', v⟩ := e
    by_cases hk : k' = k
    · have : sdel ((k', v) :: t) k = sdel t k := by simp [sdel, hk]
      have hj : ¬ k' = j := fun hh => h (hh ▸ hk)
      rw [this, ih, sget, if_neg hj]
    · have : sdel ((k', v) :: t) k = (k', v) :: sdel t k := by simp [sdel, hk]
      rw [this, sget, sget, ih]

theorem sget_sins_other (lt : κ → κ → Bool) (m : List (κ × α)) {k j : κ} (v d : α) (h : j ≠ k) :
    sget (sins lt m k v) j d = sget m j d := by
  induction m with
  | nil => simp [sins, sget, Ne.symm h]
  | cons e t ih =>
    obtain ⟨k', w⟩ := e
    simp only [sins]
    split
    · rw [sget, if_neg (Ne.symm h)]
    · rw [sget, sget, ih]

theorem sget_sins_same (lt : κ → κ → Bool) (m : List (κ × α)) (k : κ) (v d : α) (h : ∀ e ∈ m, e.1 ≠ k) :
    sget (sins lt m k v) k d = v := by
  induction m with
  | nil => simp [sins, sget]
  | cons e t ih =>
    obtain ⟨k', w⟩ := e
    simp only [sins]
    split
    · simp [sget]
    · have : k' ≠ k := h (k', w) (by simp)
      rw [sget, if_neg this, ih (fun e he => h e (by simp [he]))]

theorem sdel_no_key (m : List (κ × α)) (k : κ) : ∀ e ∈ sdel m k, e.1 ≠ k := by
  intro e he
  have := List.mem_filter.1 he
  simpa using this.2

variable [DecidableEq α]

/-- A write is read back. -/
theorem sget_sput_same (lt : κ → κ → Bool) (m : List (κ × α)) (k : κ) (v d : α) :
    sget (sput lt d m k v) k d = v := by
  unfold sput
  split
  · rename_i h; rw [sget_sdel_same, h]
  · exact sget_sins_same lt _ k v d (sdel_no_key m k)

/-- A write leaves every other key. -/
theorem sget_sput_other (lt : κ → κ → Bool) (m : List (κ × α)) {k j : κ} (v d d' : α) (h : j ≠ k) :
    sget (sput lt d' m k v) j d = sget m j d := by
  unfold sput
  split
  · exact sget_sdel_other m d h
  · rw [sget_sins_other lt _ v d h, sget_sdel_other m d h]

omit [DecidableEq κ] [DecidableEq α] in
theorem srising_cons {lt : κ → κ → Bool} (tr : ∀ a b c, lt a b = true → lt b c = true → lt a c = true)
    {e : κ × α} {t : List (κ × α)} :
    srising lt (e :: t) = true ↔ (∀ x ∈ t, lt e.1 x.1 = true) ∧ srising lt t = true := by
  induction t generalizing e with
  | nil => simp [srising]
  | cons a t ih =>
    simp only [srising, Bool.and_eq_true, List.mem_cons, forall_eq_or_imp]
    constructor
    · rintro ⟨h1, h2⟩
      exact ⟨⟨h1, fun x hx => tr _ _ _ h1 ((ih.1 h2).1 x hx)⟩, h2⟩
    · rintro ⟨⟨h1, _⟩, h3⟩
      exact ⟨h1, h3⟩

omit [DecidableEq α] in
theorem srising_sdel {lt : κ → κ → Bool} (tr : ∀ a b c, lt a b = true → lt b c = true → lt a c = true)
    (m : List (κ × α)) (k : κ) (h : srising lt m = true) : srising lt (sdel m k) = true := by
  induction m with
  | nil => rfl
  | cons e t ih =>
    have h' := (srising_cons tr).1 h
    by_cases hk : e.1 = k
    · have : sdel (e :: t) k = sdel t k := by simp [sdel, hk]
      rw [this]; exact ih h'.2
    · have : sdel (e :: t) k = e :: sdel t k := by simp [sdel, hk]
      rw [this, srising_cons tr]
      exact ⟨fun x hx => h'.1 x ((List.mem_filter.1 hx).1), ih h'.2⟩

omit [DecidableEq κ] [DecidableEq α] in
theorem mem_sins {lt : κ → κ → Bool} {m : List (κ × α)} {k : κ} {v : α} {x : κ × α} (h : x ∈ sins lt m k v) :
    x = (k, v) ∨ x ∈ m := by
  induction m with
  | nil => simpa [sins] using h
  | cons e t ih =>
    simp only [sins] at h
    split at h
    · simpa using h
    · rcases List.mem_cons.1 h with h | h
      · exact .inr (by simp [h])
      · rcases ih h with h | h
        · exact .inl h
        · exact .inr (by simp [h])

omit [DecidableEq κ] [DecidableEq α] in
theorem srising_sins {lt : κ → κ → Bool} (tr : ∀ a b c, lt a b = true → lt b c = true → lt a c = true)
    (tot : ∀ a b, a ≠ b → lt a b = false → lt b a = true)
    (m : List (κ × α)) (k : κ) (v : α) (hk : ∀ e ∈ m, e.1 ≠ k) (h : srising lt m = true) :
    srising lt (sins lt m k v) = true := by
  induction m with
  | nil => rfl
  | cons e t ih =>
    have h' := (srising_cons tr).1 h
    simp only [sins]
    split
    · rename_i hlt
      rw [srising_cons tr]
      refine ⟨?_, h⟩
      intro x hx
      rcases List.mem_cons.1 hx with hx | hx
      · exact hx ▸ hlt
      · exact tr _ _ _ hlt (h'.1 x hx)
    · rename_i hlt
      rw [srising_cons tr]
      refine ⟨?_, ih (fun e he => hk e (by simp [he])) h'.2⟩
      intro x hx
      rcases mem_sins hx with hx | hx
      · have hne : e.1 ≠ k := hk e (by simp)
        rw [hx]
        exact tot k e.1 (Ne.symm hne) (by simpa using hlt)
      · exact h'.1 x hx

/-- A write keeps the canonical form. -/
theorem swf_sput {lt : κ → κ → Bool} (tr : ∀ a b c, lt a b = true → lt b c = true → lt a c = true)
    (tot : ∀ a b, a ≠ b → lt a b = false → lt b a = true) (d : κ → α) (m : List (κ × α)) (k : κ) (v : α)
    (h : swf lt d m = true) : swf lt d (sput lt (d k) m k v) = true := by
  simp only [swf, Bool.and_eq_true, List.all_eq_true] at h ⊢
  have hd : ∀ x ∈ sdel m k, decide (x.2 ≠ d x.1) = true := fun x hx => h.2 x ((List.mem_filter.1 hx).1)
  unfold sput
  split
  · exact ⟨srising_sdel tr m k h.1, hd⟩
  · rename_i hv
    refine ⟨srising_sins tr tot _ k v (sdel_no_key m k) (srising_sdel tr m k h.1), ?_⟩
    intro x hx
    rcases mem_sins hx with hx | hx
    · subst hx; simpa using hv
    · exact hd x hx

theorem natLt_trans (a b c : Nat) : natLt a b = true → natLt b c = true → natLt a c = true := by
  simp only [natLt, decide_eq_true_eq]; omega

theorem natLt_total (a b : Nat) : a ≠ b → natLt a b = false → natLt b a = true := by
  simp only [natLt, decide_eq_true_eq, decide_eq_false_iff_not]; omega

end Sys2Proof.Laws
end

