-- ==== Sys2Proof/Laws/State.lean ====
section
/-! SUPPORT. What the named updates of the state do to each of its fields, and what reading a register, a byte string or a
byte of memory gives after each of them. -/

set_option Elab.async false

namespace Sys2Proof.Laws

open Sys2Proof.Machine

variable (s : State) (r : Reg) (i : Nat) (v : Int) (b : List Byte) (a : Nat) (x : Byte) (o : Output) (l : List Instr)

/-! ## s.set r i v -/

@[simp] theorem set_phase : (s.set r i v).phase = s.phase := rfl
@[simp] theorem set_blobs : (s.set r i v).blobs = s.blobs := rfl
@[simp] theorem set_mem : (s.set r i v).mem = s.mem := rfl
@[simp] theorem set_wraps : (s.set r i v).wraps = s.wraps := rfl
@[simp] theorem set_ring : (s.set r i v).ring = s.ring := rfl
@[simp] theorem set_history : (s.set r i v).history = s.history := rfl
@[simp] theorem set_subscribers : (s.set r i v).subscribers = s.subscribers := rfl
@[simp] theorem set_requests : (s.set r i v).requests = s.requests := rfl
@[simp] theorem set_sources : (s.set r i v).sources = s.sources := rfl
@[simp] theorem set_staging : (s.set r i v).staging = s.staging := rfl
@[simp] theorem set_transfers : (s.set r i v).transfers = s.transfers := rfl
@[simp] theorem set_rxSlack : (s.set r i v).rxSlack = s.rxSlack := rfl
@[simp] theorem set_txSlack : (s.set r i v).txSlack = s.txSlack := rfl
@[simp] theorem set_txLine : (s.set r i v).txLine = s.txLine := rfl
@[simp] theorem set_rxLine : (s.set r i v).rxLine = s.rxLine := rfl
@[simp] theorem set_tap : (s.set r i v).tap = s.tap := rfl
@[simp] theorem set_polQueue : (s.set r i v).polQueue = s.polQueue := rfl
@[simp] theorem set_flowQueue : (s.set r i v).flowQueue = s.flowQueue := rfl
@[simp] theorem set_flowWords : (s.set r i v).flowWords = s.flowWords := rfl
@[simp] theorem set_flowTaken : (s.set r i v).flowTaken = s.flowTaken := rfl
@[simp] theorem set_tribQueue : (s.set r i v).tribQueue = s.tribQueue := rfl
@[simp] theorem set_tribTaken : (s.set r i v).tribTaken = s.tribTaken := rfl
@[simp] theorem set_egressBlocks : (s.set r i v).egressBlocks = s.egressBlocks := rfl
@[simp] theorem set_tribWords : (s.set r i v).tribWords = s.tribWords := rfl
@[simp] theorem set_rxTribs : (s.set r i v).rxTribs = s.rxTribs := rfl
@[simp] theorem set_classifier : (s.set r i v).classifier = s.classifier := rfl
@[simp] theorem set_tsQueue : (s.set r i v).tsQueue = s.tsQueue := rfl
@[simp] theorem set_tracker : (s.set r i v).tracker = s.tracker := rfl
@[simp] theorem set_repairs : (s.set r i v).repairs = s.repairs := rfl
@[simp] theorem set_redirects : (s.set r i v).redirects = s.redirects := rfl
@[simp] theorem set_latches : (s.set r i v).latches = s.latches := rfl
@[simp] theorem set_bank0 : (s.set r i v).bank0 = s.bank0 := rfl
@[simp] theorem set_bank1 : (s.set r i v).bank1 = s.bank1 := rfl
@[simp] theorem set_descriptors : (s.set r i v).descriptors = s.descriptors := rfl
@[simp] theorem set_out : (s.set r i v).out = s.out := rfl
@[simp] theorem set_free : (s.set r i v).free = s.free := rfl
@[simp] theorem set_pending : (s.set r i v).pending = s.pending := rfl

/-! ## s.setBlob r i b -/

@[simp] theorem setBlob_phase : (s.setBlob r i b).phase = s.phase := rfl
@[simp] theorem setBlob_regs : (s.setBlob r i b).regs = s.regs := rfl
@[simp] theorem setBlob_mem : (s.setBlob r i b).mem = s.mem := rfl
@[simp] theorem setBlob_wraps : (s.setBlob r i b).wraps = s.wraps := rfl
@[simp] theorem setBlob_ring : (s.setBlob r i b).ring = s.ring := rfl
@[simp] theorem setBlob_history : (s.setBlob r i b).history = s.history := rfl
@[simp] theorem setBlob_subscribers : (s.setBlob r i b).subscribers = s.subscribers := rfl
@[simp] theorem setBlob_requests : (s.setBlob r i b).requests = s.requests := rfl
@[simp] theorem setBlob_sources : (s.setBlob r i b).sources = s.sources := rfl
@[simp] theorem setBlob_staging : (s.setBlob r i b).staging = s.staging := rfl
@[simp] theorem setBlob_transfers : (s.setBlob r i b).transfers = s.transfers := rfl
@[simp] theorem setBlob_rxSlack : (s.setBlob r i b).rxSlack = s.rxSlack := rfl
@[simp] theorem setBlob_txSlack : (s.setBlob r i b).txSlack = s.txSlack := rfl
@[simp] theorem setBlob_txLine : (s.setBlob r i b).txLine = s.txLine := rfl
@[simp] theorem setBlob_rxLine : (s.setBlob r i b).rxLine = s.rxLine := rfl
@[simp] theorem setBlob_tap : (s.setBlob r i b).tap = s.tap := rfl
@[simp] theorem setBlob_polQueue : (s.setBlob r i b).polQueue = s.polQueue := rfl
@[simp] theorem setBlob_flowQueue : (s.setBlob r i b).flowQueue = s.flowQueue := rfl
@[simp] theorem setBlob_flowWords : (s.setBlob r i b).flowWords = s.flowWords := rfl
@[simp] theorem setBlob_flowTaken : (s.setBlob r i b).flowTaken = s.flowTaken := rfl
@[simp] theorem setBlob_tribQueue : (s.setBlob r i b).tribQueue = s.tribQueue := rfl
@[simp] theorem setBlob_tribTaken : (s.setBlob r i b).tribTaken = s.tribTaken := rfl
@[simp] theorem setBlob_egressBlocks : (s.setBlob r i b).egressBlocks = s.egressBlocks := rfl
@[simp] theorem setBlob_tribWords : (s.setBlob r i b).tribWords = s.tribWords := rfl
@[simp] theorem setBlob_rxTribs : (s.setBlob r i b).rxTribs = s.rxTribs := rfl
@[simp] theorem setBlob_classifier : (s.setBlob r i b).classifier = s.classifier := rfl
@[simp] theorem setBlob_tsQueue : (s.setBlob r i b).tsQueue = s.tsQueue := rfl
@[simp] theorem setBlob_tracker : (s.setBlob r i b).tracker = s.tracker := rfl
@[simp] theorem setBlob_repairs : (s.setBlob r i b).repairs = s.repairs := rfl
@[simp] theorem setBlob_redirects : (s.setBlob r i b).redirects = s.redirects := rfl
@[simp] theorem setBlob_latches : (s.setBlob r i b).latches = s.latches := rfl
@[simp] theorem setBlob_bank0 : (s.setBlob r i b).bank0 = s.bank0 := rfl
@[simp] theorem setBlob_bank1 : (s.setBlob r i b).bank1 = s.bank1 := rfl
@[simp] theorem setBlob_descriptors : (s.setBlob r i b).descriptors = s.descriptors := rfl
@[simp] theorem setBlob_out : (s.setBlob r i b).out = s.out := rfl
@[simp] theorem setBlob_free : (s.setBlob r i b).free = s.free := rfl
@[simp] theorem setBlob_pending : (s.setBlob r i b).pending = s.pending := rfl

/-! ## s.writeByte a x -/

@[simp] theorem writeByte_phase : (s.writeByte a x).phase = s.phase := rfl
@[simp] theorem writeByte_regs : (s.writeByte a x).regs = s.regs := rfl
@[simp] theorem writeByte_blobs : (s.writeByte a x).blobs = s.blobs := rfl
@[simp] theorem writeByte_wraps : (s.writeByte a x).wraps = s.wraps := rfl
@[simp] theorem writeByte_ring : (s.writeByte a x).ring = s.ring := rfl
@[simp] theorem writeByte_history : (s.writeByte a x).history = s.history := rfl
@[simp] theorem writeByte_subscribers : (s.writeByte a x).subscribers = s.subscribers := rfl
@[simp] theorem writeByte_requests : (s.writeByte a x).requests = s.requests := rfl
@[simp] theorem writeByte_sources : (s.writeByte a x).sources = s.sources := rfl
@[simp] theorem writeByte_staging : (s.writeByte a x).staging = s.staging := rfl
@[simp] theorem writeByte_transfers : (s.writeByte a x).transfers = s.transfers := rfl
@[simp] theorem writeByte_rxSlack : (s.writeByte a x).rxSlack = s.rxSlack := rfl
@[simp] theorem writeByte_txSlack : (s.writeByte a x).txSlack = s.txSlack := rfl
@[simp] theorem writeByte_txLine : (s.writeByte a x).txLine = s.txLine := rfl
@[simp] theorem writeByte_rxLine : (s.writeByte a x).rxLine = s.rxLine := rfl
@[simp] theorem writeByte_tap : (s.writeByte a x).tap = s.tap := rfl
@[simp] theorem writeByte_polQueue : (s.writeByte a x).polQueue = s.polQueue := rfl
@[simp] theorem writeByte_flowQueue : (s.writeByte a x).flowQueue = s.flowQueue := rfl
@[simp] theorem writeByte_flowWords : (s.writeByte a x).flowWords = s.flowWords := rfl
@[simp] theorem writeByte_flowTaken : (s.writeByte a x).flowTaken = s.flowTaken := rfl
@[simp] theorem writeByte_tribQueue : (s.writeByte a x).tribQueue = s.tribQueue := rfl
@[simp] theorem writeByte_tribTaken : (s.writeByte a x).tribTaken = s.tribTaken := rfl
@[simp] theorem writeByte_egressBlocks : (s.writeByte a x).egressBlocks = s.egressBlocks := rfl
@[simp] theorem writeByte_tribWords : (s.writeByte a x).tribWords = s.tribWords := rfl
@[simp] theorem writeByte_rxTribs : (s.writeByte a x).rxTribs = s.rxTribs := rfl
@[simp] theorem writeByte_classifier : (s.writeByte a x).classifier = s.classifier := rfl
@[simp] theorem writeByte_tsQueue : (s.writeByte a x).tsQueue = s.tsQueue := rfl
@[simp] theorem writeByte_tracker : (s.writeByte a x).tracker = s.tracker := rfl
@[simp] theorem writeByte_repairs : (s.writeByte a x).repairs = s.repairs := rfl
@[simp] theorem writeByte_redirects : (s.writeByte a x).redirects = s.redirects := rfl
@[simp] theorem writeByte_latches : (s.writeByte a x).latches = s.latches := rfl
@[simp] theorem writeByte_bank0 : (s.writeByte a x).bank0 = s.bank0 := rfl
@[simp] theorem writeByte_bank1 : (s.writeByte a x).bank1 = s.bank1 := rfl
@[simp] theorem writeByte_descriptors : (s.writeByte a x).descriptors = s.descriptors := rfl
@[simp] theorem writeByte_out : (s.writeByte a x).out = s.out := rfl
@[simp] theorem writeByte_free : (s.writeByte a x).free = s.free := rfl
@[simp] theorem writeByte_pending : (s.writeByte a x).pending = s.pending := rfl

/-! ## s.emit o -/

@[simp] theorem emit_phase : (s.emit o).phase = s.phase := rfl
@[simp] theorem emit_regs : (s.emit o).regs = s.regs := rfl
@[simp] theorem emit_blobs : (s.emit o).blobs = s.blobs := rfl
@[simp] theorem emit_mem : (s.emit o).mem = s.mem := rfl
@[simp] theorem emit_wraps : (s.emit o).wraps = s.wraps := rfl
@[simp] theorem emit_ring : (s.emit o).ring = s.ring := rfl
@[simp] theorem emit_history : (s.emit o).history = s.history := rfl
@[simp] theorem emit_subscribers : (s.emit o).subscribers = s.subscribers := rfl
@[simp] theorem emit_requests : (s.emit o).requests = s.requests := rfl
@[simp] theorem emit_sources : (s.emit o).sources = s.sources := rfl
@[simp] theorem emit_staging : (s.emit o).staging = s.staging := rfl
@[simp] theorem emit_transfers : (s.emit o).transfers = s.transfers := rfl
@[simp] theorem emit_rxSlack : (s.emit o).rxSlack = s.rxSlack := rfl
@[simp] theorem emit_txSlack : (s.emit o).txSlack = s.txSlack := rfl
@[simp] theorem emit_txLine : (s.emit o).txLine = s.txLine := rfl
@[simp] theorem emit_rxLine : (s.emit o).rxLine = s.rxLine := rfl
@[simp] theorem emit_tap : (s.emit o).tap = s.tap := rfl
@[simp] theorem emit_polQueue : (s.emit o).polQueue = s.polQueue := rfl
@[simp] theorem emit_flowQueue : (s.emit o).flowQueue = s.flowQueue := rfl
@[simp] theorem emit_flowWords : (s.emit o).flowWords = s.flowWords := rfl
@[simp] theorem emit_flowTaken : (s.emit o).flowTaken = s.flowTaken := rfl
@[simp] theorem emit_tribQueue : (s.emit o).tribQueue = s.tribQueue := rfl
@[simp] theorem emit_tribTaken : (s.emit o).tribTaken = s.tribTaken := rfl
@[simp] theorem emit_egressBlocks : (s.emit o).egressBlocks = s.egressBlocks := rfl
@[simp] theorem emit_tribWords : (s.emit o).tribWords = s.tribWords := rfl
@[simp] theorem emit_rxTribs : (s.emit o).rxTribs = s.rxTribs := rfl
@[simp] theorem emit_classifier : (s.emit o).classifier = s.classifier := rfl
@[simp] theorem emit_tsQueue : (s.emit o).tsQueue = s.tsQueue := rfl
@[simp] theorem emit_tracker : (s.emit o).tracker = s.tracker := rfl
@[simp] theorem emit_repairs : (s.emit o).repairs = s.repairs := rfl
@[simp] theorem emit_redirects : (s.emit o).redirects = s.redirects := rfl
@[simp] theorem emit_latches : (s.emit o).latches = s.latches := rfl
@[simp] theorem emit_bank0 : (s.emit o).bank0 = s.bank0 := rfl
@[simp] theorem emit_bank1 : (s.emit o).bank1 = s.bank1 := rfl
@[simp] theorem emit_descriptors : (s.emit o).descriptors = s.descriptors := rfl
@[simp] theorem emit_free : (s.emit o).free = s.free := rfl
@[simp] theorem emit_pending : (s.emit o).pending = s.pending := rfl

/-! ## s.setPending l -/

@[simp] theorem setPending_phase : (s.setPending l).phase = s.phase := rfl
@[simp] theorem setPending_regs : (s.setPending l).regs = s.regs := rfl
@[simp] theorem setPending_blobs : (s.setPending l).blobs = s.blobs := rfl
@[simp] theorem setPending_mem : (s.setPending l).mem = s.mem := rfl
@[simp] theorem setPending_wraps : (s.setPending l).wraps = s.wraps := rfl
@[simp] theorem setPending_ring : (s.setPending l).ring = s.ring := rfl
@[simp] theorem setPending_history : (s.setPending l).history = s.history := rfl
@[simp] theorem setPending_subscribers : (s.setPending l).subscribers = s.subscribers := rfl
@[simp] theorem setPending_requests : (s.setPending l).requests = s.requests := rfl
@[simp] theorem setPending_sources : (s.setPending l).sources = s.sources := rfl
@[simp] theorem setPending_staging : (s.setPending l).staging = s.staging := rfl
@[simp] theorem setPending_transfers : (s.setPending l).transfers = s.transfers := rfl
@[simp] theorem setPending_rxSlack : (s.setPending l).rxSlack = s.rxSlack := rfl
@[simp] theorem setPending_txSlack : (s.setPending l).txSlack = s.txSlack := rfl
@[simp] theorem setPending_txLine : (s.setPending l).txLine = s.txLine := rfl
@[simp] theorem setPending_rxLine : (s.setPending l).rxLine = s.rxLine := rfl
@[simp] theorem setPending_tap : (s.setPending l).tap = s.tap := rfl
@[simp] theorem setPending_polQueue : (s.setPending l).polQueue = s.polQueue := rfl
@[simp] theorem setPending_flowQueue : (s.setPending l).flowQueue = s.flowQueue := rfl
@[simp] theorem setPending_flowWords : (s.setPending l).flowWords = s.flowWords := rfl
@[simp] theorem setPending_flowTaken : (s.setPending l).flowTaken = s.flowTaken := rfl
@[simp] theorem setPending_tribQueue : (s.setPending l).tribQueue = s.tribQueue := rfl
@[simp] theorem setPending_tribTaken : (s.setPending l).tribTaken = s.tribTaken := rfl
@[simp] theorem setPending_egressBlocks : (s.setPending l).egressBlocks = s.egressBlocks := rfl
@[simp] theorem setPending_tribWords : (s.setPending l).tribWords = s.tribWords := rfl
@[simp] theorem setPending_rxTribs : (s.setPending l).rxTribs = s.rxTribs := rfl
@[simp] theorem setPending_classifier : (s.setPending l).classifier = s.classifier := rfl
@[simp] theorem setPending_tsQueue : (s.setPending l).tsQueue = s.tsQueue := rfl
@[simp] theorem setPending_tracker : (s.setPending l).tracker = s.tracker := rfl
@[simp] theorem setPending_repairs : (s.setPending l).repairs = s.repairs := rfl
@[simp] theorem setPending_redirects : (s.setPending l).redirects = s.redirects := rfl
@[simp] theorem setPending_latches : (s.setPending l).latches = s.latches := rfl
@[simp] theorem setPending_bank0 : (s.setPending l).bank0 = s.bank0 := rfl
@[simp] theorem setPending_bank1 : (s.setPending l).bank1 = s.bank1 := rfl
@[simp] theorem setPending_descriptors : (s.setPending l).descriptors = s.descriptors := rfl
@[simp] theorem setPending_out : (s.setPending l).out = s.out := rfl
@[simp] theorem setPending_free : (s.setPending l).free = s.free := rfl

@[simp] theorem emit_out : (s.emit o).out = s.out ++ [o] := rfl
@[simp] theorem setPending_pending : (s.setPending l).pending = l := rfl

/-! ## Readers -/

@[simp] theorem get_set_same : (s.set r i v).get r i = v := sget_sput_same _ _ _ _ _

theorem get_set_other {r r' : Reg} {i j : Nat} (h : (r', j) ≠ (r, i)) : (s.set r i v).get r' j = s.get r' j :=
  sget_sput_other _ _ _ _ _ h

theorem get_set_reg {r r' : Reg} {i j : Nat} (h : r' ≠ r) : (s.set r i v).get r' j = s.get r' j :=
  get_set_other s v fun e => h (Prod.mk.inj e).1

theorem get_set_unit {r r' : Reg} {i j : Nat} (h : j ≠ i) : (s.set r i v).get r' j = s.get r' j :=
  get_set_other s v fun e => h (Prod.mk.inj e).2

theorem get_set {r r' : Reg} {i j : Nat} :
    (s.set r i v).get r' j = if r' = r ∧ j = i then v else s.get r' j := by
  split
  · rename_i h; rw [h.1, h.2, get_set_same]
  · rename_i h; exact get_set_other s v fun e => h ⟨(Prod.mk.inj e).1, (Prod.mk.inj e).2⟩

@[simp] theorem blob_setBlob_same : (s.setBlob r i b).blob r i = b := sget_sput_same _ _ _ _ _

theorem blob_setBlob_other {r r' : Reg} {i j : Nat} (h : (r', j) ≠ (r, i)) :
    (s.setBlob r i b).blob r' j = s.blob r' j := sget_sput_other _ _ _ _ _ h

@[simp] theorem readByte_writeByte_same : (s.writeByte a x).readByte a = x := sget_sput_same _ _ _ _ _

theorem readByte_writeByte_other {a a' : Nat} (h : a' ≠ a) : (s.writeByte a x).readByte a' = s.readByte a' :=
  sget_sput_other _ _ _ _ _ h

@[simp] theorem set_blob (r' : Reg) (j : Nat) : (s.set r i v).blob r' j = s.blob r' j := rfl
@[simp] theorem set_readByte (k : Nat) : (s.set r i v).readByte k = s.readByte k := rfl
@[simp] theorem setBlob_get (r' : Reg) (j : Nat) : (s.setBlob r i b).get r' j = s.get r' j := rfl
@[simp] theorem setBlob_readByte (k : Nat) : (s.setBlob r i b).readByte k = s.readByte k := rfl
@[simp] theorem writeByte_get (r' : Reg) (j : Nat) : (s.writeByte a x).get r' j = s.get r' j := rfl
@[simp] theorem writeByte_blob (r' : Reg) (j : Nat) : (s.writeByte a x).blob r' j = s.blob r' j := rfl
@[simp] theorem emit_get (r' : Reg) (j : Nat) : (s.emit o).get r' j = s.get r' j := rfl
@[simp] theorem emit_blob (r' : Reg) (j : Nat) : (s.emit o).blob r' j = s.blob r' j := rfl
@[simp] theorem emit_readByte (k : Nat) : (s.emit o).readByte k = s.readByte k := rfl
@[simp] theorem setPending_get (r' : Reg) (j : Nat) : (s.setPending l).get r' j = s.get r' j := rfl
@[simp] theorem setPending_blob (r' : Reg) (j : Nat) : (s.setPending l).blob r' j = s.blob r' j := rfl
@[simp] theorem setPending_readByte (k : Nat) : (s.setPending l).readByte k = s.readByte k := rfl

/-! ## A carrier's line -/

variable (c : Nat) (tx : TxLine) (rx : RxLine) (q : List Stroke) (k : Nat) (y : RxTrib)

/-! ## s.setTx c tx -/

@[simp] theorem setTx_phase : (s.setTx c tx).phase = s.phase := rfl
@[simp] theorem setTx_regs : (s.setTx c tx).regs = s.regs := rfl
@[simp] theorem setTx_blobs : (s.setTx c tx).blobs = s.blobs := rfl
@[simp] theorem setTx_mem : (s.setTx c tx).mem = s.mem := rfl
@[simp] theorem setTx_wraps : (s.setTx c tx).wraps = s.wraps := rfl
@[simp] theorem setTx_ring : (s.setTx c tx).ring = s.ring := rfl
@[simp] theorem setTx_history : (s.setTx c tx).history = s.history := rfl
@[simp] theorem setTx_subscribers : (s.setTx c tx).subscribers = s.subscribers := rfl
@[simp] theorem setTx_requests : (s.setTx c tx).requests = s.requests := rfl
@[simp] theorem setTx_sources : (s.setTx c tx).sources = s.sources := rfl
@[simp] theorem setTx_staging : (s.setTx c tx).staging = s.staging := rfl
@[simp] theorem setTx_transfers : (s.setTx c tx).transfers = s.transfers := rfl
@[simp] theorem setTx_rxSlack : (s.setTx c tx).rxSlack = s.rxSlack := rfl
@[simp] theorem setTx_txSlack : (s.setTx c tx).txSlack = s.txSlack := rfl
@[simp] theorem setTx_rxLine : (s.setTx c tx).rxLine = s.rxLine := rfl
@[simp] theorem setTx_tap : (s.setTx c tx).tap = s.tap := rfl
@[simp] theorem setTx_polQueue : (s.setTx c tx).polQueue = s.polQueue := rfl
@[simp] theorem setTx_flowQueue : (s.setTx c tx).flowQueue = s.flowQueue := rfl
@[simp] theorem setTx_flowWords : (s.setTx c tx).flowWords = s.flowWords := rfl
@[simp] theorem setTx_flowTaken : (s.setTx c tx).flowTaken = s.flowTaken := rfl
@[simp] theorem setTx_tribQueue : (s.setTx c tx).tribQueue = s.tribQueue := rfl
@[simp] theorem setTx_tribTaken : (s.setTx c tx).tribTaken = s.tribTaken := rfl
@[simp] theorem setTx_egressBlocks : (s.setTx c tx).egressBlocks = s.egressBlocks := rfl
@[simp] theorem setTx_tribWords : (s.setTx c tx).tribWords = s.tribWords := rfl
@[simp] theorem setTx_rxTribs : (s.setTx c tx).rxTribs = s.rxTribs := rfl
@[simp] theorem setTx_classifier : (s.setTx c tx).classifier = s.classifier := rfl
@[simp] theorem setTx_tsQueue : (s.setTx c tx).tsQueue = s.tsQueue := rfl
@[simp] theorem setTx_tracker : (s.setTx c tx).tracker = s.tracker := rfl
@[simp] theorem setTx_repairs : (s.setTx c tx).repairs = s.repairs := rfl
@[simp] theorem setTx_redirects : (s.setTx c tx).redirects = s.redirects := rfl
@[simp] theorem setTx_latches : (s.setTx c tx).latches = s.latches := rfl
@[simp] theorem setTx_bank0 : (s.setTx c tx).bank0 = s.bank0 := rfl
@[simp] theorem setTx_bank1 : (s.setTx c tx).bank1 = s.bank1 := rfl
@[simp] theorem setTx_descriptors : (s.setTx c tx).descriptors = s.descriptors := rfl
@[simp] theorem setTx_free : (s.setTx c tx).free = s.free := rfl
@[simp] theorem setTx_pending : (s.setTx c tx).pending = s.pending := rfl
@[simp] theorem setTx_out : (s.setTx c tx).out = s.out := rfl
@[simp] theorem setTx_get (r' : Reg) (j : Nat) : (s.setTx c tx).get r' j = s.get r' j := rfl
@[simp] theorem setTx_blob (r' : Reg) (j : Nat) : (s.setTx c tx).blob r' j = s.blob r' j := rfl
@[simp] theorem setTx_readByte (k : Nat) : (s.setTx c tx).readByte k = s.readByte k := rfl
@[simp] theorem setTx_tx : (s.setTx c tx).tx c = tx := sget_sput_same _ _ _ _ _

/-! ## s.setRx c rx -/

@[simp] theorem setRx_phase : (s.setRx c rx).phase = s.phase := rfl
@[simp] theorem setRx_regs : (s.setRx c rx).regs = s.regs := rfl
@[simp] theorem setRx_blobs : (s.setRx c rx).blobs = s.blobs := rfl
@[simp] theorem setRx_mem : (s.setRx c rx).mem = s.mem := rfl
@[simp] theorem setRx_wraps : (s.setRx c rx).wraps = s.wraps := rfl
@[simp] theorem setRx_ring : (s.setRx c rx).ring = s.ring := rfl
@[simp] theorem setRx_history : (s.setRx c rx).history = s.history := rfl
@[simp] theorem setRx_subscribers : (s.setRx c rx).subscribers = s.subscribers := rfl
@[simp] theorem setRx_requests : (s.setRx c rx).requests = s.requests := rfl
@[simp] theorem setRx_sources : (s.setRx c rx).sources = s.sources := rfl
@[simp] theorem setRx_staging : (s.setRx c rx).staging = s.staging := rfl
@[simp] theorem setRx_transfers : (s.setRx c rx).transfers = s.transfers := rfl
@[simp] theorem setRx_rxSlack : (s.setRx c rx).rxSlack = s.rxSlack := rfl
@[simp] theorem setRx_txSlack : (s.setRx c rx).txSlack = s.txSlack := rfl
@[simp] theorem setRx_txLine : (s.setRx c rx).txLine = s.txLine := rfl
@[simp] theorem setRx_tap : (s.setRx c rx).tap = s.tap := rfl
@[simp] theorem setRx_polQueue : (s.setRx c rx).polQueue = s.polQueue := rfl
@[simp] theorem setRx_flowQueue : (s.setRx c rx).flowQueue = s.flowQueue := rfl
@[simp] theorem setRx_flowWords : (s.setRx c rx).flowWords = s.flowWords := rfl
@[simp] theorem setRx_flowTaken : (s.setRx c rx).flowTaken = s.flowTaken := rfl
@[simp] theorem setRx_tribQueue : (s.setRx c rx).tribQueue = s.tribQueue := rfl
@[simp] theorem setRx_tribTaken : (s.setRx c rx).tribTaken = s.tribTaken := rfl
@[simp] theorem setRx_egressBlocks : (s.setRx c rx).egressBlocks = s.egressBlocks := rfl
@[simp] theorem setRx_tribWords : (s.setRx c rx).tribWords = s.tribWords := rfl
@[simp] theorem setRx_rxTribs : (s.setRx c rx).rxTribs = s.rxTribs := rfl
@[simp] theorem setRx_classifier : (s.setRx c rx).classifier = s.classifier := rfl
@[simp] theorem setRx_tsQueue : (s.setRx c rx).tsQueue = s.tsQueue := rfl
@[simp] theorem setRx_tracker : (s.setRx c rx).tracker = s.tracker := rfl
@[simp] theorem setRx_repairs : (s.setRx c rx).repairs = s.repairs := rfl
@[simp] theorem setRx_redirects : (s.setRx c rx).redirects = s.redirects := rfl
@[simp] theorem setRx_latches : (s.setRx c rx).latches = s.latches := rfl
@[simp] theorem setRx_bank0 : (s.setRx c rx).bank0 = s.bank0 := rfl
@[simp] theorem setRx_bank1 : (s.setRx c rx).bank1 = s.bank1 := rfl
@[simp] theorem setRx_descriptors : (s.setRx c rx).descriptors = s.descriptors := rfl
@[simp] theorem setRx_free : (s.setRx c rx).free = s.free := rfl
@[simp] theorem setRx_pending : (s.setRx c rx).pending = s.pending := rfl
@[simp] theorem setRx_out : (s.setRx c rx).out = s.out := rfl
@[simp] theorem setRx_get (r' : Reg) (j : Nat) : (s.setRx c rx).get r' j = s.get r' j := rfl
@[simp] theorem setRx_blob (r' : Reg) (j : Nat) : (s.setRx c rx).blob r' j = s.blob r' j := rfl
@[simp] theorem setRx_readByte (k : Nat) : (s.setRx c rx).readByte k = s.readByte k := rfl
@[simp] theorem setRx_rx : (s.setRx c rx).rx c = rx := sget_sput_same _ _ _ _ _

/-! ## s.setStrokes c q -/

@[simp] theorem setStrokes_phase : (s.setStrokes c q).phase = s.phase := rfl
@[simp] theorem setStrokes_regs : (s.setStrokes c q).regs = s.regs := rfl
@[simp] theorem setStrokes_blobs : (s.setStrokes c q).blobs = s.blobs := rfl
@[simp] theorem setStrokes_mem : (s.setStrokes c q).mem = s.mem := rfl
@[simp] theorem setStrokes_wraps : (s.setStrokes c q).wraps = s.wraps := rfl
@[simp] theorem setStrokes_ring : (s.setStrokes c q).ring = s.ring := rfl
@[simp] theorem setStrokes_history : (s.setStrokes c q).history = s.history := rfl
@[simp] theorem setStrokes_subscribers : (s.setStrokes c q).subscribers = s.subscribers := rfl
@[simp] theorem setStrokes_requests : (s.setStrokes c q).requests = s.requests := rfl
@[simp] theorem setStrokes_sources : (s.setStrokes c q).sources = s.sources := rfl
@[simp] theorem setStrokes_staging : (s.setStrokes c q).staging = s.staging := rfl
@[simp] theorem setStrokes_transfers : (s.setStrokes c q).transfers = s.transfers := rfl
@[simp] theorem setStrokes_rxSlack : (s.setStrokes c q).rxSlack = s.rxSlack := rfl
@[simp] theorem setStrokes_txLine : (s.setStrokes c q).txLine = s.txLine := rfl
@[simp] theorem setStrokes_rxLine : (s.setStrokes c q).rxLine = s.rxLine := rfl
@[simp] theorem setStrokes_tap : (s.setStrokes c q).tap = s.tap := rfl
@[simp] theorem setStrokes_polQueue : (s.setStrokes c q).polQueue = s.polQueue := rfl
@[simp] theorem setStrokes_flowQueue : (s.setStrokes c q).flowQueue = s.flowQueue := rfl
@[simp] theorem setStrokes_flowWords : (s.setStrokes c q).flowWords = s.flowWords := rfl
@[simp] theorem setStrokes_flowTaken : (s.setStrokes c q).flowTaken = s.flowTaken := rfl
@[simp] theorem setStrokes_tribQueue : (s.setStrokes c q).tribQueue = s.tribQueue := rfl
@[simp] theorem setStrokes_tribTaken : (s.setStrokes c q).tribTaken = s.tribTaken := rfl
@[simp] theorem setStrokes_egressBlocks : (s.setStrokes c q).egressBlocks = s.egressBlocks := rfl
@[simp] theorem setStrokes_tribWords : (s.setStrokes c q).tribWords = s.tribWords := rfl
@[simp] theorem setStrokes_rxTribs : (s.setStrokes c q).rxTribs = s.rxTribs := rfl
@[simp] theorem setStrokes_classifier : (s.setStrokes c q).classifier = s.classifier := rfl
@[simp] theorem setStrokes_tsQueue : (s.setStrokes c q).tsQueue = s.tsQueue := rfl
@[simp] theorem setStrokes_tracker : (s.setStrokes c q).tracker = s.tracker := rfl
@[simp] theorem setStrokes_repairs : (s.setStrokes c q).repairs = s.repairs := rfl
@[simp] theorem setStrokes_redirects : (s.setStrokes c q).redirects = s.redirects := rfl
@[simp] theorem setStrokes_latches : (s.setStrokes c q).latches = s.latches := rfl
@[simp] theorem setStrokes_bank0 : (s.setStrokes c q).bank0 = s.bank0 := rfl
@[simp] theorem setStrokes_bank1 : (s.setStrokes c q).bank1 = s.bank1 := rfl
@[simp] theorem setStrokes_descriptors : (s.setStrokes c q).descriptors = s.descriptors := rfl
@[simp] theorem setStrokes_free : (s.setStrokes c q).free = s.free := rfl
@[simp] theorem setStrokes_pending : (s.setStrokes c q).pending = s.pending := rfl
@[simp] theorem setStrokes_out : (s.setStrokes c q).out = s.out := rfl
@[simp] theorem setStrokes_get (r' : Reg) (j : Nat) : (s.setStrokes c q).get r' j = s.get r' j := rfl
@[simp] theorem setStrokes_blob (r' : Reg) (j : Nat) : (s.setStrokes c q).blob r' j = s.blob r' j := rfl
@[simp] theorem setStrokes_readByte (k : Nat) : (s.setStrokes c q).readByte k = s.readByte k := rfl
@[simp] theorem setStrokes_strokes : (s.setStrokes c q).strokes c = q := sget_sput_same _ _ _ _ _

/-! ## s.setRxTrib k y -/

@[simp] theorem setRxTrib_phase : (s.setRxTrib k y).phase = s.phase := rfl
@[simp] theorem setRxTrib_regs : (s.setRxTrib k y).regs = s.regs := rfl
@[simp] theorem setRxTrib_blobs : (s.setRxTrib k y).blobs = s.blobs := rfl
@[simp] theorem setRxTrib_mem : (s.setRxTrib k y).mem = s.mem := rfl
@[simp] theorem setRxTrib_wraps : (s.setRxTrib k y).wraps = s.wraps := rfl
@[simp] theorem setRxTrib_ring : (s.setRxTrib k y).ring = s.ring := rfl
@[simp] theorem setRxTrib_history : (s.setRxTrib k y).history = s.history := rfl
@[simp] theorem setRxTrib_subscribers : (s.setRxTrib k y).subscribers = s.subscribers := rfl
@[simp] theorem setRxTrib_requests : (s.setRxTrib k y).requests = s.requests := rfl
@[simp] theorem setRxTrib_sources : (s.setRxTrib k y).sources = s.sources := rfl
@[simp] theorem setRxTrib_staging : (s.setRxTrib k y).staging = s.staging := rfl
@[simp] theorem setRxTrib_transfers : (s.setRxTrib k y).transfers = s.transfers := rfl
@[simp] theorem setRxTrib_rxSlack : (s.setRxTrib k y).rxSlack = s.rxSlack := rfl
@[simp] theorem setRxTrib_txSlack : (s.setRxTrib k y).txSlack = s.txSlack := rfl
@[simp] theorem setRxTrib_txLine : (s.setRxTrib k y).txLine = s.txLine := rfl
@[simp] theorem setRxTrib_rxLine : (s.setRxTrib k y).rxLine = s.rxLine := rfl
@[simp] theorem setRxTrib_tap : (s.setRxTrib k y).tap = s.tap := rfl
@[simp] theorem setRxTrib_polQueue : (s.setRxTrib k y).polQueue = s.polQueue := rfl
@[simp] theorem setRxTrib_flowQueue : (s.setRxTrib k y).flowQueue = s.flowQueue := rfl
@[simp] theorem setRxTrib_flowWords : (s.setRxTrib k y).flowWords = s.flowWords := rfl
@[simp] theorem setRxTrib_flowTaken : (s.setRxTrib k y).flowTaken = s.flowTaken := rfl
@[simp] theorem setRxTrib_tribQueue : (s.setRxTrib k y).tribQueue = s.tribQueue := rfl
@[simp] theorem setRxTrib_tribTaken : (s.setRxTrib k y).tribTaken = s.tribTaken := rfl
@[simp] theorem setRxTrib_egressBlocks : (s.setRxTrib k y).egressBlocks = s.egressBlocks := rfl
@[simp] theorem setRxTrib_tribWords : (s.setRxTrib k y).tribWords = s.tribWords := rfl
@[simp] theorem setRxTrib_classifier : (s.setRxTrib k y).classifier = s.classifier := rfl
@[simp] theorem setRxTrib_tsQueue : (s.setRxTrib k y).tsQueue = s.tsQueue := rfl
@[simp] theorem setRxTrib_tracker : (s.setRxTrib k y).tracker = s.tracker := rfl
@[simp] theorem setRxTrib_repairs : (s.setRxTrib k y).repairs = s.repairs := rfl
@[simp] theorem setRxTrib_redirects : (s.setRxTrib k y).redirects = s.redirects := rfl
@[simp] theorem setRxTrib_latches : (s.setRxTrib k y).latches = s.latches := rfl
@[simp] theorem setRxTrib_bank0 : (s.setRxTrib k y).bank0 = s.bank0 := rfl
@[simp] theorem setRxTrib_bank1 : (s.setRxTrib k y).bank1 = s.bank1 := rfl
@[simp] theorem setRxTrib_descriptors : (s.setRxTrib k y).descriptors = s.descriptors := rfl
@[simp] theorem setRxTrib_free : (s.setRxTrib k y).free = s.free := rfl
@[simp] theorem setRxTrib_pending : (s.setRxTrib k y).pending = s.pending := rfl
@[simp] theorem setRxTrib_out : (s.setRxTrib k y).out = s.out := rfl
@[simp] theorem setRxTrib_get (r' : Reg) (j : Nat) : (s.setRxTrib k y).get r' j = s.get r' j := rfl
@[simp] theorem setRxTrib_blob (r' : Reg) (j : Nat) : (s.setRxTrib k y).blob r' j = s.blob r' j := rfl
@[simp] theorem setRxTrib_readByte (j : Nat) : (s.setRxTrib k y).readByte j = s.readByte j := rfl
@[simp] theorem setRxTrib_rxTrib : (s.setRxTrib k y).rxTrib k = y := sget_sput_same _ _ _ _ _

end Sys2Proof.Laws
end

