-- ==== Sys2Proof/Laws/Frames.lean ====
section
/-! SUPPORT. Which registers the shared operations write: raising an event, taking, answering and refusing a request.
Apart K s t says that t came from s by writes to registers of K. -/

set_option Elab.async false

namespace Sys2Proof.Laws

open Sys2Proof.Machine

/-- Registers and byte strings outside K are as they were. -/
structure Apart (K : Reg → Bool) (s t : State) : Prop where
  regs : ∀ r i, K r = false → t.get r i = s.get r i
  blobs : ∀ r i, K r = false → t.blob r i = s.blob r i

theorem apart_iff {K : Reg → Bool} {s t : State} : Safety.sameOutside K s t ↔ Apart K s t :=
  ⟨fun h => ⟨fun r i e => (h r i e).1, fun r i e => (h r i e).2⟩, fun h r i e => ⟨h.regs r i e, h.blobs r i e⟩⟩

variable {K : Reg → Bool} {s₀ s t : State}

theorem Apart.refl (s : State) : Apart K s s := ⟨fun _ _ _ => rfl, fun _ _ _ => rfl⟩

theorem Apart.trans (h : Apart K s₀ s) (g : Apart K s t) : Apart K s₀ t :=
  ⟨fun r i e => (g.regs r i e).trans (h.regs r i e), fun r i e => (g.blobs r i e).trans (h.blobs r i e)⟩

/-- A wider set of registers. -/
theorem Apart.mono {L : Reg → Bool} (hK : ∀ r, L r = false → K r = false) (h : Apart K s t) : Apart L s t :=
  ⟨fun r i e => h.regs r i (hK r e), fun r i e => h.blobs r i (hK r e)⟩

/-- An update of neither registers nor byte strings. -/
theorem Apart.other (h : Apart K s₀ s) (e : (t.regs, t.blobs) = (s.regs, s.blobs)) : Apart K s₀ t := by
  simp only [Prod.mk.injEq] at e
  exact h.trans ⟨fun r i _ => by simp only [State.get, e.1], fun r i _ => by simp only [State.blob, e.2]⟩

theorem apart_set {r : Reg} {i : Nat} {v : Int} (h : Apart K s₀ s) (hr : K r = true := by first | rfl | assumption) :
    Apart K s₀ (s.set r i v) :=
  h.trans ⟨fun r' j e => get_set_reg s v (fun he => by rw [he, hr] at e; cases e), fun _ _ _ => rfl⟩

theorem apart_setBlob {r : Reg} {i : Nat} {b : List Byte} (h : Apart K s₀ s)
    (hr : K r = true := by first | rfl | assumption) : Apart K s₀ (s.setBlob r i b) :=
  h.trans ⟨fun _ _ _ => rfl, fun r' j e => blob_setBlob_other s b fun he => by
    rw [(Prod.mk.inj he).1, hr] at e
    cases e⟩

theorem apart_bump {r : Reg} {i n : Nat} (h : Apart K s₀ s) (hr : K r = true := by first | rfl | assumption) :
    Apart K s₀ (s.bump r i n) := by
  have h1 : Apart K s₀ (s.set r i (((s.nat r i + n) % 2 ^ r.bits : Nat) : Int)) := apart_set h hr
  unfold State.bump
  dsimp only
  split
  · exact h1.other rfl
  · exact h1

theorem apart_ite {a b : State} {c : Prop} [Decidable c] (ha : Apart K s₀ a) (hb : Apart K s₀ b) :
    Apart K s₀ (if c then a else b) := by
  split <;> assumption

theorem apart_each {α : Type} {l : List α} {f : State → α → State} (h : Apart K s₀ s)
    (hf : ∀ t a, Apart K s₀ t → Apart K s₀ (f t a)) : Apart K s₀ (s.each l f) := by
  unfold State.each
  induction l generalizing s with
  | nil => exact h
  | cons a l ih => exact ih (hf s a h)

/-! ## Raising an event -/

theorem apart_markSecond {r : Reg} {i : Nat} (h : Apart K s₀ s) (hr : K r = true := by first | rfl | assumption) :
    Apart K s₀ (s.markSecond r i) := apart_set h hr

/-- The registers of an event raise are all in K. -/
structure Wide (K : Reg → Bool) : Prop where
  wide : ∀ r, Safety.eventSide r = true → K r = true

theorem wide_eventSide : Wide Safety.eventSide := ⟨fun _ h => h⟩

theorem wide_requestSide : Wide Safety.requestSide := ⟨fun r h => by
  unfold Safety.requestSide
  split <;> first | rfl | exact h⟩

theorem apart_ringPush (w : Wide K) {r : EventRec} (h : Apart K s₀ s) : Apart K s₀ (s.ringPush r) := by
  have push : ∀ a : State, Apart K s₀ a →
      Apart K s₀ (({ a with ring := a.ring ++ [r] } : State).bump .ringNextSeq 0) :=
    fun a ha => apart_bump (ha.other rfl) (w.wide _ rfl)
  unfold State.ringPush
  dsimp only
  split
  · split
    · exact push _ (apart_bump (h.other rfl) (w.wide _ rfl))
    · exact push _ h
  · exact push _ h

theorem apart_historyPush (w : Wide K) {r : EventRec} (h : Apart K s₀ s) : Apart K s₀ (s.historyPush r) :=
  apart_bump (h.other rfl) (w.wide _ rfl)

theorem apart_captureTrigger (w : Wide K) {e : Nat} (h : Apart K s₀ s) : Apart K s₀ (s.captureTrigger e) :=
  apart_each h fun _ _ ht => apart_ite (apart_set ht (w.wide _ rfl)) ht

theorem apart_raiseCore (w : Wide K) {e : Nat} {detail : List Item} {k : Mark} (h : Apart K s₀ s) :
    Apart K s₀ (s.raiseCore e detail k) := by
  have h1 : Apart K s₀ ((s.bump .eventCount e 1).set .eventLastTime e (s.now : Nat)) :=
    apart_set (apart_bump h (w.wide _ rfl)) (w.wide _ rfl)
  have record : ∀ (a : State) (r : EventRec) (c : Prop) [Decidable c], Apart K s₀ a →
      Apart K s₀ (let t := if c then (a.ringPush r).historyPush r else a.ringPush r
        ({ t with subscribers := t.subscribers.map fun (u : Subscriber) => u.enqueue r } : State).captureTrigger e) := by
    intro a r c _ ha
    have ht : Apart K s₀ (if c then (a.ringPush r).historyPush r else a.ringPush r) :=
      apart_ite (apart_historyPush w (apart_ringPush w ha)) (apart_ringPush w ha)
    generalize (if c then (a.ringPush r).historyPush r else a.ringPush r) = t at ht
    exact apart_captureTrigger w (ht.other rfl)
  unfold State.raiseCore
  dsimp only
  generalize ((s.bump .eventCount e 1).set .eventLastTime e (s.now : Nat)) = a at *
  split
  · exact record _ _ _ (apart_set h1 (w.wide _ rfl))
  · exact h1

theorem apart_hkLatch (w : Wide K) {k : Nat} (h : Apart K s₀ s) : Apart K s₀ (s.hkLatch k) := by
  unfold State.hkLatch
  exact apart_ite (apart_set (apart_set h (w.wide _ rfl)) (w.wide _ rfl))
    (apart_set (apart_set h (w.wide _ rfl)) (w.wide _ rfl))

theorem apart_hkStart (w : Wide K) {k : Nat} (h : Apart K s₀ s) : Apart K s₀ (s.hkStart k) := by
  have h1 : Apart K s₀ (((s.setBlob .xHkSequence k (s.hkEntries k)).set .xHkIndex k 0).set .xHkSeqActive k 1) :=
    apart_set (apart_set (apart_setBlob h (w.wide _ rfl)) (w.wide _ rfl)) (w.wide _ rfl)
  exact apart_ite (apart_hkLatch w (apart_set h1 (w.wide _ rfl))) h1

theorem apart_hkMiss (w : Wide K) {k : Nat} {raise : State → Nat → List Item → State} (h : Apart K s₀ s)
    (hr : ∀ t e d, Apart K s₀ t → Apart K s₀ (raise t e d)) : Apart K s₀ (s.hkMiss k raise) :=
  apart_ite (hr _ _ _ (apart_set h (w.wide _ rfl))) h

theorem apart_hkSeqTrigger (w : Wide K) {k : Nat} {raise : State → Nat → List Item → State} (h : Apart K s₀ s)
    (hr : ∀ t e d, Apart K s₀ t → Apart K s₀ (raise t e d)) : Apart K s₀ (s.hkSeqTrigger k raise) := by
  have miss : Apart K s₀ ((s.bump .hkSeqMissed k).hkMiss k raise) :=
    apart_hkMiss w (apart_bump h (w.wide _ rfl)) hr
  exact apart_ite miss (apart_ite (apart_ite miss (apart_set h (w.wide _ rfl))) (apart_hkStart w h))

theorem apart_hkInjTrigger (w : Wide K) {k : Nat} {raise : State → Nat → List Item → State} (h : Apart K s₀ s)
    (hr : ∀ t e d, Apart K s₀ t → Apart K s₀ (raise t e d)) : Apart K s₀ (s.hkInjTrigger k raise) := by
  have h1 : Apart K s₀ (s.set .xHkInjPending k 1) := apart_set h (w.wide _ rfl)
  exact apart_ite (apart_hkMiss w (apart_bump h (w.wide _ rfl)) hr) (apart_ite
    (apart_hkLatch w (apart_set (apart_set (apart_set h1 (w.wide _ rfl)) (w.wide _ rfl)) (w.wide _ rfl))) h1)

theorem apart_hkEventTrigger (w : Wide K) {e : Nat} {raise : State → Nat → List Item → State} (h : Apart K s₀ s)
    (hr : ∀ t e d, Apart K s₀ t → Apart K s₀ (raise t e d)) : Apart K s₀ (s.hkEventTrigger e raise) := by
  refine apart_each h fun t k ht => ?_
  have h1 : Apart K s₀ (if t.get .hkSeqTrigger k = 3 ∧ t.get .hkSeqEvent k = e then t.hkSeqTrigger k raise else t) :=
    apart_ite (apart_hkSeqTrigger w ht hr) ht
  exact apart_ite (apart_hkInjTrigger w h1 hr) h1

theorem apart_raiseFuel (w : Wide K) {n e : Nat} {detail : List Item} {k : Mark} (h : Apart K s₀ s) :
    Apart K s₀ (State.raiseFuel n s e detail k) := by
  induction n generalizing s e detail k with
  | zero => exact apart_raiseCore w h
  | succ n ih =>
    unfold State.raiseFuel
    exact apart_ite (apart_raiseCore w h) (apart_hkEventTrigger w (apart_raiseCore w h) fun t e d ht => ih ht)

theorem apart_raise (w : Wide K) {e : Nat} {detail : List Item} (h : Apart K s₀ s) : Apart K s₀ (s.raise e detail) :=
  apart_raiseFuel w h

theorem apart_raiseClear (w : Wide K) {e : Nat} {detail : List Item} {c : Bool} (h : Apart K s₀ s) :
    Apart K s₀ (s.raiseClear e detail c) := apart_raiseFuel w h

/-- A raise leaves a register it does not write. -/
theorem get_raise {e : Nat} {detail : List Item} {r : Reg} {i : Nat} (h : Safety.eventSide r = false := by rfl) :
    (s.raise e detail).get r i = s.get r i :=
  (apart_raise wide_eventSide (Apart.refl s)).regs r i h

theorem get_raiseClear {e : Nat} {detail : List Item} {c : Bool} {r : Reg} {i : Nat}
    (h : Safety.eventSide r = false := by rfl) : (s.raiseClear e detail c).get r i = s.get r i :=
  (apart_raiseClear wide_eventSide (Apart.refl s)).regs r i h

theorem get_bump_other {r r' : Reg} {i j n : Nat} (h : r' ≠ r ∨ j ≠ i) : (s.bump r i n).get r' j = s.get r' j := by
  have hk : (r', j) ≠ (r, i) := fun e => h.elim (fun g => g (Prod.mk.inj e).1) fun g => g (Prod.mk.inj e).2
  unfold State.bump
  dsimp only
  split <;> exact get_set_other s _ hk

/-- A counter below its maximum goes up by n. -/
theorem get_bump_same {r : Reg} {i n : Nat} : (s.bump r i n).get r i = ((s.nat r i + n) % 2 ^ r.bits : Nat) := by
  unfold State.bump
  dsimp only
  split <;> exact get_set_same s r i _

/-! ## How often a source was raised -/

/-- A register that no step of a loop changes. -/
theorem get_each {α : Type} {l : List α} {f : State → α → State} {s : State} {r : Reg} {i : Nat}
    (h : ∀ t a, (f t a).get r i = t.get r i) : (s.each l f).get r i = s.get r i := by
  unfold State.each
  induction l generalizing s with
  | nil => rfl
  | cons a l ih => exact (ih (s := f s a)).trans (h s a)

/-- A raise counts its source and no other. -/
theorem count_raiseCore {s : State} {e e' : Nat} {d : List Item} {k : Mark} :
    (s.raiseCore e d k).get .eventCount e' = if e' = e then (((s.nat .eventCount e + 1) % 2 ^ Reg.bits .eventCount : Nat) : Int)
      else s.get .eventCount e' := by
  have hb : ∀ u : State, ∀ n, (u.bump .ringNextSeq 0 n).get .eventCount e' = u.get .eventCount e' := fun u n => get_bump_other (.inl (by decide))
  have hc : ∀ u : State, ∀ n, (u.bump .ringOverwritten 0 n).get .eventCount e' = u.get .eventCount e' := fun u n => get_bump_other (.inl (by decide))
  have hh : ∀ u : State, ∀ n, (u.bump .historyWritten 0 n).get .eventCount e' = u.get .eventCount e' := fun u n => get_bump_other (.inl (by decide))
  have hr : ∀ (u : State) r, (u.ringPush r).get .eventCount e' = u.get .eventCount e' := by
    intro u r; unfold State.ringPush; dsimp only; rw [hb]; split
    · split
      · exact hc _ _
      · rfl
    · rfl
  have hhp : ∀ (u : State) r, (u.historyPush r).get .eventCount e' = u.get .eventCount e' := by
    intro u r; unfold State.historyPush; rw [hh]; rfl
  have hct : ∀ (u : State) x, (u.captureTrigger x).get .eventCount e' = u.get .eventCount e' := by
    intro u x
    exact (apart_each (K := fun r => r == .xCaptureTriggered) (Apart.refl u) fun _ _ ht => apart_ite (apart_set ht (by rfl)) ht).regs .eventCount e' rfl
  have base : ((s.bump .eventCount e).set .eventLastTime e s.now).get .eventCount e' = if e' = e then (((s.nat .eventCount e + 1) % 2 ^ Reg.bits .eventCount : Nat) : Int)
      else s.get .eventCount e' := by
    rw [get_set_reg _ _ (by decide)]
    split
    · rename_i h; subst h; exact get_bump_same
    · rename_i h; exact get_bump_other (.inr h)
  have record : ∀ (a : State) (r : EventRec) (c : Prop) [Decidable c], 
      State.get (let t := if c then (a.ringPush r).historyPush r else a.ringPush r
        ({ t with subscribers := t.subscribers.map fun (u : Subscriber) => u.enqueue r } : State).captureTrigger e) .eventCount e' = a.get .eventCount e' := by
    intro a r c _
    dsimp only
    rw [hct]
    have : (if c then (a.ringPush r).historyPush r else a.ringPush r).get .eventCount e' = a.get .eventCount e' := by
      split
      · rw [hhp, hr]
      · rw [hr]
    generalize (if c then (a.ringPush r).historyPush r else a.ringPush r) = t at *
    exact this
  unfold State.raiseCore
  dsimp only
  generalize ((s.bump .eventCount e).set .eventLastTime e (s.now : Nat)) = a at *
  split
  · refine (record _ _ _).trans ?_
    rw [get_set_reg _ _ (by decide), base]
  · exact base

/-- A raise with its triggers counts its source; only source 132 may be counted beside it. -/
theorem count_raiseMarked {s : State} {e e' : Nat} {d : List Item} {k : Mark} (h : e' ≠ evDev 132) :
    (s.raiseMarked e d k).get .eventCount e' = if e' = e then (((s.nat .eventCount e + 1) % 2 ^ Reg.bits .eventCount : Nat) : Int)
      else s.get .eventCount e' := by
  have key : ∀ (n : Nat) (s : State) (e : Nat) (d : List Item) (k : Mark),
     (State.raiseFuel n s e d k).get .eventCount e' = if e' = e then (((s.nat .eventCount e + 1) % 2 ^ Reg.bits .eventCount : Nat) : Int)
      else s.get .eventCount e' := by
    intro n
    induction n with
    | zero => intro s e d k; exact count_raiseCore
    | succ n ih =>
      intro s e d k
      unfold State.raiseFuel
      dsimp only
      split
      · exact count_raiseCore
      · rw [← count_raiseCore (d := d) (k := k)]
        generalize s.raiseCore e d k = t
        have hm : ∀ (u : State) k, (u.hkMiss k (fun s e d => State.raiseFuel n s e d {})).get .eventCount e' = u.get .eventCount e' := by
          intro u k; unfold State.hkMiss; split
          · rw [ih, if_neg h]; unfold State.markSecond; exact get_set_reg _ _ (by decide)
          · rfl
        have hl : ∀ (u : State) k, (u.hkLatch k).get .eventCount e' = u.get .eventCount e' := by
          intro u k; unfold State.hkLatch; dsimp only; split <;> rw [get_set_reg _ _ (by decide), get_set_reg _ _ (by decide)]
        have hs : ∀ (u : State) k, (u.hkSeqTrigger k (fun s e d => State.raiseFuel n s e d {})).get .eventCount e' = u.get .eventCount e' := by
          intro u k; unfold State.hkSeqTrigger; split
          · rw [hm]; exact get_bump_other (.inl (by decide))
          · split
            · split
              · rw [hm]; exact get_bump_other (.inl (by decide))
              · exact get_set_reg _ _ (by decide)
            · unfold State.hkStart; dsimp only; split
              · rw [hl, get_set_reg _ _ (by decide), get_set_reg _ _ (by decide), get_set_reg _ _ (by decide)]; rfl
              · rw [get_set_reg _ _ (by decide), get_set_reg _ _ (by decide)]; rfl
        have hi : ∀ (u : State) k, (u.hkInjTrigger k (fun s e d => State.raiseFuel n s e d {})).get .eventCount e' = u.get .eventCount e' := by
          intro u k; unfold State.hkInjTrigger; split
          · rw [hm]; exact get_bump_other (.inl (by decide))
          · dsimp only; split
            · unfold State.hkStartInjected; rw [hl, get_set_reg _ _ (by decide), get_set_reg _ _ (by decide), get_set_reg _ _ (by decide), get_set_reg _ _ (by decide)]
            · exact get_set_reg _ _ (by decide)
        refine get_each fun u k => ?_
        have h1 : (if u.get .hkSeqTrigger k = 3 ∧ u.get .hkSeqEvent k = e then u.hkSeqTrigger k (fun s e d => State.raiseFuel n s e d {}) else u).get .eventCount e' = u.get .eventCount e' := by
          split
          · exact hs _ _
          · rfl
        dsimp only
        generalize (if u.get .hkSeqTrigger k = 3 ∧ u.get .hkSeqEvent k = e then u.hkSeqTrigger k (fun s e d => State.raiseFuel n s e d {}) else u) = v at *
        split
        · rw [hi, h1]
        · exact h1
  exact key 2 s e d k

end Sys2Proof.Laws
end

