-- ==== Sys2Proof/Laws/Kept.lean ====
section
/-! SUPPORT. What every operation of the block keeps, said once: Kept s t holds where t came from s by operations of the
block other than those that take a command from the queue. Each operation has a lemma that it keeps; the invariants of
Safety follow from them. -/

set_option Elab.async false

namespace Sys2Proof.Laws

open Sys2Proof.Machine

theorem ctorIdx_inj {a b : Reg} (h : a.ctorIdx = b.ctorIdx) : a = b := by
  rw [← Reg.ofNat_ctorIdx a, ← Reg.ofNat_ctorIdx b, h]

theorem regLt_trans (a b c : Reg × Nat) : regLt a b = true → regLt b c = true → regLt a c = true := by
  simp only [regLt, Bool.or_eq_true, Bool.and_eq_true, decide_eq_true_eq]
  omega

theorem regLt_total (a b : Reg × Nat) : a ≠ b → regLt a b = false → regLt b a = true := by
  obtain ⟨r, i⟩ := a
  obtain ⟨r', j⟩ := b
  intro h
  have h' : r.ctorIdx = r'.ctorIdx → i ≠ j := fun e he => h (by rw [ctorIdx_inj e, he])
  simp only [regLt, Bool.or_eq_false_iff, Bool.and_eq_false_iff, decide_eq_false_iff_not, Bool.or_eq_true,
    Bool.and_eq_true, decide_eq_true_eq]
  omega

theorem swf_regs {α : Type} [DecidableEq α] (d : Reg × Nat → α) (m : List ((Reg × Nat) × α)) (k : Reg × Nat) (v : α)
    (h : swf regLt d m = true) : swf regLt d (sput regLt (d k) m k v) = true :=
  swf_sput regLt_trans regLt_total d m k v h

theorem swf_nats {α : Type} [DecidableEq α] (d : Nat → α) (m : List (Nat × α)) (k : Nat) (v : α)
    (h : swf natLt d m = true) : swf natLt d (sput natLt (d k) m k v) = true :=
  swf_sput natLt_trans natLt_total d m k v h

/-- Entries left out of a table in canonical form leave it in canonical form. -/
theorem swf_filter {κ α : Type} [DecidableEq α] {lt : κ → κ → Bool}
    (tr : ∀ a b c, lt a b = true → lt b c = true → lt a c = true) (d : κ → α) (p : κ × α → Bool)
    (m : List (κ × α)) (h : swf lt d m = true) : swf lt d (m.filter p) = true := by
  simp only [swf, Bool.and_eq_true, List.all_eq_true] at h ⊢
  refine ⟨?_, fun x hx => h.2 x (List.mem_filter.1 hx).1⟩
  have h1 := h.1
  clear h
  induction m with
  | nil => rfl
  | cons e t ih =>
    have h' := (srising_cons tr).1 h1
    by_cases hp : p e = true
    · rw [List.filter_cons_of_pos hp, srising_cons tr]
      exact ⟨fun x hx => h'.1 x (List.mem_filter.1 hx).1, ih h'.2⟩
    · rw [List.filter_cons_of_neg hp]
      exact ih h'.2

/-- Which parts of the state are said to be left as they are. -/
abbrev Scope := Safety.Part → Bool

/-- What every operation of the block keeps, and the parts of the state that κ says it leaves. -/
structure Kept (κ : Scope) (s t : State) : Prop where
  tables : Safety.tablesCanonical s → Safety.tablesCanonical t
  queues : Safety.queuesCanonical s → Safety.queuesCanonical t
  lines : Safety.linesCanonical s → Safety.linesCanonical t
  rings : Safety.ringsBounded s → Safety.ringsBounded t
  management : Safety.managementBounded s → Safety.managementBounded t
  slots : Safety.slotsDistinct s → Safety.slotsDistinct t
  entries : Safety.entriesBounded s → Safety.entriesBounded t
  out : s.out <+: t.out
  pending : t.pending = s.pending
  sameMem : κ .memory = true → t.mem = s.mem
  sameClassifier : κ .classifier = true → t.classifier = s.classifier
  sameTsQueue : κ .ptp = true → t.tsQueue = s.tsQueue
  sameManagement : κ .management = true →
    t.sources = s.sources ∧ t.requests = s.requests ∧ t.staging = s.staging ∧ t.transfers = s.transfers
  sameDescriptors : κ .mover = true → t.descriptors = s.descriptors
  sameFlows : κ .flows = true → t.flowQueue = s.flowQueue ∧ t.flowWords = s.flowWords ∧ t.flowTaken = s.flowTaken
  sameTribs : κ .tributaries = true →
    t.tribQueue = s.tribQueue ∧ t.tribTaken = s.tribTaken ∧ t.tribWords = s.tribWords ∧ t.rxTribs = s.rxTribs
  sameEgress : κ .ports = true → t.egressBlocks = s.egressBlocks
  sameSlack : κ .slack = true → t.rxSlack = s.rxSlack ∧ t.txSlack = s.txSlack
  sameTxLine : κ .txLine = true → t.txLine = s.txLine
  sameRxLine : κ .rxLine = true → t.rxLine = s.rxLine
  sameTap : t.tap = s.tap
  samePol : κ .equaliser = true → t.polQueue = s.polQueue
  sameIntegrity : κ .integrity = true → t.tracker = s.tracker ∧ t.repairs = s.repairs ∧ t.redirects = s.redirects
  sameSnapshots : κ .snapshots = true → t.latches = s.latches ∧ t.bank0 = s.bank0 ∧ t.bank1 = s.bank1
  sameSubscribers : κ .subscribers = true →
    t.subscribers.map Subscriber.slot = s.subscribers.map Subscriber.slot
  samePhase : κ .phase = true → t.phase = s.phase
  sameEvents : κ .events = true → t.ring = s.ring ∧ t.history = s.history
  sameRegs : ∀ r i, κ (Safety.part r) = true → t.get r i = s.get r i ∧ t.blob r i = s.blob r i

theorem Kept.refl {κ : Scope} (s : State) : Kept κ s s where
  tables := id
  queues := id
  lines := id
  rings := id
  management := id
  slots := id
  entries := id
  out := List.prefix_rfl
  pending := rfl
  sameMem _ := rfl
  sameClassifier _ := rfl
  sameTsQueue _ := rfl
  sameManagement _ := ⟨rfl, rfl, rfl, rfl⟩
  sameDescriptors _ := rfl
  sameFlows _ := ⟨rfl, rfl, rfl⟩
  sameTribs _ := ⟨rfl, rfl, rfl, rfl⟩
  sameEgress _ := rfl
  sameSlack _ := ⟨rfl, rfl⟩
  sameTxLine _ := rfl
  sameRxLine _ := rfl
  sameTap := rfl
  samePol _ := rfl
  sameIntegrity _ := ⟨rfl, rfl, rfl⟩
  sameSnapshots _ := ⟨rfl, rfl, rfl⟩
  sameSubscribers _ := rfl
  samePhase _ := rfl
  sameEvents _ := ⟨rfl, rfl⟩
  sameRegs _ _ _ := ⟨rfl, rfl⟩

theorem Kept.trans {κ : Scope} {s t u : State} (h : Kept κ s t) (g : Kept κ t u) : Kept κ s u where
  tables := g.tables ∘ h.tables
  queues := g.queues ∘ h.queues
  lines := g.lines ∘ h.lines
  rings := g.rings ∘ h.rings
  management := g.management ∘ h.management
  slots := g.slots ∘ h.slots
  entries := g.entries ∘ h.entries
  out := h.out.trans g.out
  pending := g.pending.trans h.pending
  sameMem e := (g.sameMem e).trans (h.sameMem e)
  sameClassifier e := (g.sameClassifier e).trans (h.sameClassifier e)
  sameTsQueue e := (g.sameTsQueue e).trans (h.sameTsQueue e)
  sameManagement e := by
    obtain ⟨a1, a2, a3, a4⟩ := h.sameManagement e
    obtain ⟨b1, b2, b3, b4⟩ := g.sameManagement e
    exact ⟨b1.trans a1, b2.trans a2, b3.trans a3, b4.trans a4⟩
  sameDescriptors e := (g.sameDescriptors e).trans (h.sameDescriptors e)
  sameFlows e := by
    obtain ⟨a1, a2, a3⟩ := h.sameFlows e
    obtain ⟨b1, b2, b3⟩ := g.sameFlows e
    exact ⟨b1.trans a1, b2.trans a2, b3.trans a3⟩
  sameTribs e := by
    obtain ⟨a1, a2, a3, a4⟩ := h.sameTribs e
    obtain ⟨b1, b2, b3, b4⟩ := g.sameTribs e
    exact ⟨b1.trans a1, b2.trans a2, b3.trans a3, b4.trans a4⟩
  sameEgress e := (g.sameEgress e).trans (h.sameEgress e)
  sameSlack e := ⟨(g.sameSlack e).1.trans (h.sameSlack e).1, (g.sameSlack e).2.trans (h.sameSlack e).2⟩
  sameTxLine e := (g.sameTxLine e).trans (h.sameTxLine e)
  sameRxLine e := (g.sameRxLine e).trans (h.sameRxLine e)
  sameTap := g.sameTap.trans h.sameTap
  samePol e := (g.samePol e).trans (h.samePol e)
  sameIntegrity e := by
    obtain ⟨a1, a2, a3⟩ := h.sameIntegrity e
    obtain ⟨b1, b2, b3⟩ := g.sameIntegrity e
    exact ⟨b1.trans a1, b2.trans a2, b3.trans a3⟩
  sameSnapshots e := by
    obtain ⟨a1, a2, a3⟩ := h.sameSnapshots e
    obtain ⟨b1, b2, b3⟩ := g.sameSnapshots e
    exact ⟨b1.trans a1, b2.trans a2, b3.trans a3⟩
  sameSubscribers e := (g.sameSubscribers e).trans (h.sameSubscribers e)
  samePhase e := (g.samePhase e).trans (h.samePhase e)
  sameEvents e := ⟨(g.sameEvents e).1.trans (h.sameEvents e).1, (g.sameEvents e).2.trans (h.sameEvents e).2⟩
  sameRegs r i e := ⟨(g.sameRegs r i e).1.trans (h.sameRegs r i e).1, (g.sameRegs r i e).2.trans (h.sameRegs r i e).2⟩

variable {κ : Scope}

/-- What κ does not say is left need not be left. -/
theorem touched {b : Bool} [f : Fact (b = false)] {p : Prop} (e : b = true) : p := by
  rw [f.out] at e
  cases e

/-- A part is not said to be left. -/
abbrev Scope.Out (κ : Scope) (p : Safety.Part) : Prop := Fact (κ p = false)

/-- A scope that leaves no register. -/
theorem leaves_none
    [κ.Out .phase] [κ.Out .events] [κ.Out .management] [κ.Out .views] [κ.Out .identity] [κ.Out .settings] [κ.Out .mode] [κ.Out
    .boot] [κ.Out .rails] [κ.Out .guard] [κ.Out .thermal] [κ.Out .carriers] [κ.Out .slack] [κ.Out .txLine] [κ.Out .rxLine] [κ.Out .clocks] [κ.Out
    .converters] [κ.Out .calibration] [κ.Out .banks] [κ.Out .dispersion] [κ.Out .frontEnd] [κ.Out .equaliser] [κ.Out
    .monitors] [κ.Out .neighbours] [κ.Out .recovery] [κ.Out .catching] [κ.Out .coding] [κ.Out .defects] [κ.Out
    .overhead] [κ.Out .lanes] [κ.Out .patterns] [κ.Out .ports] [κ.Out .ptp] [κ.Out .classifier] [κ.Out .flows]
    [κ.Out .calendar] [κ.Out .pages] [κ.Out .tributaries] [κ.Out .bonding] [κ.Out .cores] [κ.Out .fuses] [κ.Out
    .slots] [κ.Out .keys] [κ.Out .bindings] [κ.Out .crypt] [κ.Out .time] [κ.Out .timing] [κ.Out .housekeeping]
    [κ.Out .snapshots] [κ.Out .inputs] [κ.Out .pair] [κ.Out .integrity] [κ.Out .custody] [κ.Out .mover] [κ.Out
    .captures]
    (r : Reg) : κ (Safety.part r) = false := by
  cases h : Safety.part r <;> first | exact Fact.out | (exfalso; revert h; cases r <;> decide)

theorem kept_ite {s₀ a b : State} {c : Prop} [Decidable c] (ha : Kept κ s₀ a) (hb : Kept κ s₀ b) :
    Kept κ s₀ (if c then a else b) := by
  split <;> assumption

theorem kept_ite_fst {α : Type} {s₀ : State} {a b : State × α} {c : Prop} [Decidable c] (ha : Kept κ s₀ a.1)
    (hb : Kept κ s₀ b.1) : Kept κ s₀ (if c then a else b).1 := by
  split <;> assumption

/-! ## Primitive updates -/

theorem kept_set {s₀ s : State} {r : Reg} {i : Nat} {v : Int} (h : Kept κ s₀ s)
    (hr : κ (Safety.part r) = false := by first
      | assumption
      | ((conv in Safety.part _ => whnf); exact Fact.out)
      | exact leaves_none _) : Kept κ s₀ (s.set r i v) :=
  h.trans { Kept.refl s with
    tables := fun q => ⟨swf_regs (fun k => Reg.dflt k.1 k.2) s.regs (r, i) v q.1, q.2⟩
    sameRegs := fun r' j e => ⟨get_set_reg s v (fun he => by rw [he, hr] at e; cases e), rfl⟩ }

theorem kept_setBlob {s₀ s : State} {r : Reg} {i : Nat} {b : List Byte} (h : Kept κ s₀ s)
    (hr : κ (Safety.part r) = false := by first
      | assumption
      | ((conv in Safety.part _ => whnf); exact Fact.out)
      | exact leaves_none _) : Kept κ s₀ (s.setBlob r i b) :=
  h.trans { Kept.refl s with
    tables := fun q => ⟨q.1, swf_regs (fun _ => []) s.blobs (r, i) b q.2.1, q.2.2⟩
    sameRegs := fun r' j e => ⟨rfl, blob_setBlob_other s b fun he => by
      rw [(Prod.mk.inj he).1, hr] at e
      cases e⟩ }

theorem kept_writeByte [κ.Out .memory] {s₀ s : State} {a : Nat} {b : Byte} (h : Kept κ s₀ s) :
    Kept κ s₀ (s.writeByte a b) :=
  h.trans { Kept.refl s with
    tables := fun q => ⟨q.1, q.2.1, swf_nats (fun _ => 0) s.mem a b q.2.2.1, q.2.2.2⟩
    sameMem := touched }

theorem kept_emit {s₀ s : State} {o : Output} (h : Kept κ s₀ s) : Kept κ s₀ (s.emit o) :=
  h.trans { Kept.refl s with out := List.prefix_append _ _ }

theorem kept_wrap {s₀ s : State} {r : Reg} {i : Nat} {b : Bool} (h : Kept κ s₀ s) :
    Kept κ s₀ { s with wraps := sput regLt false s.wraps (r, i) b } :=
  h.trans { Kept.refl s with
    tables := fun q => ⟨q.1, q.2.1, q.2.2.1, swf_regs (fun _ => false) s.wraps (r, i) b q.2.2.2⟩ }

/-- Entries left out of a table whose keys all pass the filter where they are looked for. -/
theorem sget_filter {κ α : Type} [DecidableEq κ] (m : List (κ × α)) (p : κ → Bool) {k : κ} (d : α) (h : p k = true) :
    sget (m.filter fun e => p e.1) k d = sget m k d := by
  induction m with
  | nil => rfl
  | cons e t ih =>
    obtain ⟨k', v⟩ := e
    by_cases hk : k' = k
    · subst hk
      simp [h, sget]
    · cases hp : p k' <;> simp [hp, sget, hk, ih]

theorem kept_regs_filter {s₀ s : State} {p : Reg × Nat → Bool} (hp : ∀ r i, κ (Safety.part r) = true → p (r, i) = true)
    (h : Kept κ s₀ s) : Kept κ s₀ { s with regs := s.regs.filter fun e => p e.1 } :=
  h.trans { Kept.refl s with
    tables := fun q => ⟨swf_filter regLt_trans _ _ _ q.1, q.2⟩
    sameRegs := fun r i e => ⟨sget_filter s.regs p _ (hp r i e), rfl⟩ }

theorem kept_wraps_filter {s₀ s : State} {p : (Reg × Nat) × Bool → Bool} (h : Kept κ s₀ s) :
    Kept κ s₀ { s with wraps := s.wraps.filter p } :=
  h.trans { Kept.refl s with
    tables := fun q => ⟨q.1, q.2.1, q.2.2.1, swf_filter regLt_trans _ p _ q.2.2.2⟩ }

theorem kept_phase [κ.Out .phase] {s₀ s : State} {p : Phase} (h : Kept κ s₀ s) : Kept κ s₀ { s with phase := p } :=
  h.trans { Kept.refl s with samePhase := touched }

theorem kept_free {s₀ s : State} {n : Nat} (h : Kept κ s₀ s) : Kept κ s₀ { s with free := n } :=
  h.trans { Kept.refl s with }

/-! ## Combinators -/

theorem kept_when {s₀ s : State} {c : Bool} {f : State → State} (h : Kept κ s₀ s)
    (hf : ∀ t, Kept κ s₀ t → Kept κ s₀ (f t)) : Kept κ s₀ (s.when c f) := by
  unfold State.when; split
  · exact hf s h
  · exact h

theorem kept_foldl {α : Type} {s₀ s : State} {l : List α} {f : State → α → State} (h : Kept κ s₀ s)
    (hf : ∀ t a, Kept κ s₀ t → Kept κ s₀ (f t a)) : Kept κ s₀ (l.foldl f s) := by
  induction l generalizing s with
  | nil => exact h
  | cons a l ih => exact ih (hf s a h)

theorem kept_each {α : Type} {s₀ s : State} {l : List α} {f : State → α → State} (h : Kept κ s₀ s)
    (hf : ∀ t a, Kept κ s₀ t → Kept κ s₀ (f t a)) : Kept κ s₀ (s.each l f) := kept_foldl h hf

theorem kept_foldl_fst {α β : Type} {s₀ : State} {p : State × β} {l : List α} {f : State × β → α → State × β}
    (h : Kept κ s₀ p.1) (hf : ∀ q a, Kept κ s₀ q.1 → Kept κ s₀ (f q a).1) : Kept κ s₀ (l.foldl f p).1 := by
  induction l generalizing p with
  | nil => exact h
  | cons a l ih => exact ih (hf p a h)

theorem kept_fst {α : Type} {s₀ t : State} {a : α} {p : State × α} (e : p = (t, a)) (h : Kept κ s₀ p.1) :
    Kept κ s₀ t := by
  subst e; exact h

theorem kept_snd {α : Type} {s₀ t : State} {a : α} {p : α × State} (e : p = (a, t)) (h : Kept κ s₀ p.2) :
    Kept κ s₀ t := by
  subst e; exact h

/-! ## Parts of the state that few operations touch -/

theorem kept_transfers [κ.Out .management] {s₀ s : State} {l : List Transfer} (h : Kept κ s₀ s) :
    Kept κ s₀ { s with transfers := l } :=
  h.trans { Kept.refl s with sameManagement := touched }

theorem kept_rows [κ.Out .integrity] {s₀ s : State} {l l' : List (Nat × Nat)} (h : Kept κ s₀ s) :
    Kept κ s₀ { s with repairs := l, redirects := l' } :=
  h.trans { Kept.refl s with sameIntegrity := touched }

theorem kept_snaps [κ.Out .snapshots] {s₀ s : State} {l l0 l1 : List ((Reg × Nat) × (Nat × Bool))}
    (h : Kept κ s₀ s) : Kept κ s₀ { s with latches := l, bank0 := l0, bank1 := l1 } :=
  h.trans { Kept.refl s with sameSnapshots := touched }

theorem kept_rxSlack [κ.Out .slack] {s₀ s : State} {c : Nat} {l : List SlackItem} (h : Kept κ s₀ s) :
    Kept κ s₀ { s with rxSlack := sput natLt [] s.rxSlack c l } :=
  h.trans { Kept.refl s with
    queues := fun q => ⟨swf_nats (fun _ => []) s.rxSlack c l q.1, q.2⟩
    sameSlack := touched }

theorem kept_txSlack [κ.Out .slack] {s₀ s : State} {c : Nat} {l : List Stroke} (h : Kept κ s₀ s) :
    Kept κ s₀ { s with txSlack := sput natLt [] s.txSlack c l } :=
  h.trans { Kept.refl s with
    lines := fun q => ⟨swf_nats (fun _ => []) s.txSlack c l q.1, q.2⟩
    sameSlack := touched }

theorem kept_txLine [κ.Out .txLine] {s₀ s : State} {c : Nat} {t : TxLine} (h : Kept κ s₀ s) :
    Kept κ s₀ { s with txLine := sput natLt TxLine.start s.txLine c t } :=
  h.trans { Kept.refl s with
    lines := fun q => ⟨q.1, swf_nats (fun _ => TxLine.start) s.txLine c t q.2.1, q.2.2⟩
    sameTxLine := touched }

theorem kept_rxLine [κ.Out .rxLine] {s₀ s : State} {c : Nat} {r : RxLine} (h : Kept κ s₀ s) :
    Kept κ s₀ { s with rxLine := sput natLt RxLine.start s.rxLine c r } :=
  h.trans { Kept.refl s with
    lines := fun q => ⟨q.1, q.2.1, swf_nats (fun _ => RxLine.start) s.rxLine c r q.2.2.1, q.2.2.2⟩
    sameRxLine := touched }

theorem kept_tribWords [κ.Out .tributaries] {s₀ s : State} {t : Nat} {l : List Nat} (h : Kept κ s₀ s) :
    Kept κ s₀ { s with tribWords := sput natLt [] s.tribWords t l } :=
  h.trans { Kept.refl s with
    lines := fun q => ⟨q.1, q.2.1, q.2.2.1, swf_nats (fun _ => []) s.tribWords t l q.2.2.2.1, q.2.2.2.2⟩
    sameTribs := touched }

theorem kept_flowTaken [κ.Out .flows] {s₀ s : State} {f : Nat} {l : List Byte} (h : Kept κ s₀ s) :
    Kept κ s₀ { s with flowTaken := sput natLt [] s.flowTaken f l } :=
  h.trans { Kept.refl s with
    lines := fun q => ⟨q.1, q.2.1, q.2.2.1, q.2.2.2.1, swf_nats (fun _ => []) s.flowTaken f l q.2.2.2.2.1, q.2.2.2.2.2⟩
    sameFlows := touched }

theorem kept_rxTribs [κ.Out .tributaries] {s₀ s : State} {t : Nat} {x : RxTrib} (h : Kept κ s₀ s) :
    Kept κ s₀ { s with rxTribs := sput natLt RxTrib.start s.rxTribs t x } :=
  h.trans { Kept.refl s with
    lines := fun q => ⟨q.1, q.2.1, q.2.2.1, q.2.2.2.1, q.2.2.2.2.1,
      q.2.2.2.2.2.1, q.2.2.2.2.2.2.1, swf_nats (fun _ => RxTrib.start) s.rxTribs t x q.2.2.2.2.2.2.2⟩
    sameTribs := touched }

theorem kept_polQueue [κ.Out .equaliser] {s₀ s : State} {c : Nat} {l : TapQueue} (h : Kept κ s₀ s) :
    Kept κ s₀ { s with polQueue := sput natLt [] s.polQueue c l } :=
  h.trans { Kept.refl s with
    queues := fun q => ⟨q.1, swf_nats (fun _ => []) s.polQueue c l q.2.1, q.2.2⟩
    samePol := touched }

theorem kept_flowQueue [κ.Out .flows] {s₀ s : State} {f : Nat} {l : List Stored} (h : Kept κ s₀ s) :
    Kept κ s₀ { s with flowQueue := sput natLt [] s.flowQueue f l } :=
  h.trans { Kept.refl s with
    queues := fun q => ⟨q.1, q.2.1, swf_nats (fun _ => []) s.flowQueue f l q.2.2.1, q.2.2.2⟩
    sameFlows := touched }

theorem kept_flowWords [κ.Out .flows] {s₀ s : State} {f : Nat} {l : List Nat} (h : Kept κ s₀ s) :
    Kept κ s₀ { s with flowWords := sput natLt [] s.flowWords f l } :=
  h.trans { Kept.refl s with
    queues := fun q => ⟨q.1, q.2.1, q.2.2.1, swf_nats (fun _ => []) s.flowWords f l q.2.2.2.1, q.2.2.2.2⟩
    sameFlows := touched }

theorem kept_tribTaken [κ.Out .tributaries] {s₀ s : State} {t : Nat} {l : List Byte} (h : Kept κ s₀ s) :
    Kept κ s₀ { s with tribTaken := sput natLt [] s.tribTaken t l } :=
  h.trans { Kept.refl s with
    lines := fun q => ⟨q.1, q.2.1, q.2.2.1, q.2.2.2.1, q.2.2.2.2.1,
      swf_nats (fun _ => []) s.tribTaken t l q.2.2.2.2.2.1, q.2.2.2.2.2.2⟩
    sameTribs := touched }

theorem kept_egressBlocks [κ.Out .ports] {s₀ s : State} {p : Nat} {l : List Block66} (h : Kept κ s₀ s) :
    Kept κ s₀ { s with egressBlocks := sput natLt [] s.egressBlocks p l } :=
  h.trans { Kept.refl s with
    lines := fun q => ⟨q.1, q.2.1, q.2.2.1, q.2.2.2.1, q.2.2.2.2.1, q.2.2.2.2.2.1,
      swf_nats (fun _ => []) s.egressBlocks p l q.2.2.2.2.2.2.1, q.2.2.2.2.2.2.2⟩
    sameEgress := touched }

theorem kept_tribQueue [κ.Out .tributaries] {s₀ s : State} {t : Nat} {l : List Stored} (h : Kept κ s₀ s) :
    Kept κ s₀ { s with tribQueue := sput natLt [] s.tribQueue t l } :=
  h.trans { Kept.refl s with
    queues := fun q => ⟨q.1, q.2.1, q.2.2.1, q.2.2.2.1, swf_nats (fun _ => []) s.tribQueue t l q.2.2.2.2.1, q.2.2.2.2.2⟩
    sameTribs := touched }

theorem kept_descriptors [κ.Out .mover] {s₀ s : State} {n : Nat} {l : List Descriptor}
    (h : Kept κ s₀ s) : Kept κ s₀ { s with descriptors := sput natLt [] s.descriptors n l } :=
  h.trans { Kept.refl s with
    queues := fun q => ⟨q.1, q.2.1, q.2.2.1, q.2.2.2.1, q.2.2.2.2.1,
      swf_nats (fun _ => []) s.descriptors n l q.2.2.2.2.2.1, q.2.2.2.2.2.2⟩
    sameDescriptors := touched }

/-- The classifier table given a form of its own. -/
theorem kept_classifier [κ.Out .classifier] {s₀ s : State} {l : List (Nat × Nat)}
    (hl : swf natLt (fun _ => 0) s.classifier = true → swf natLt (fun _ => 0) l = true) (h : Kept κ s₀ s) :
    Kept κ s₀ { s with classifier := l } :=
  h.trans { Kept.refl s with
    queues := fun q => ⟨q.1, q.2.1, q.2.2.1, q.2.2.2.1, q.2.2.2.2.1, q.2.2.2.2.2.1, hl q.2.2.2.2.2.2⟩
    sameClassifier := touched }

theorem kept_classifier_put [κ.Out .classifier] {s₀ s : State} {n f : Nat} (h : Kept κ s₀ s) :
    Kept κ s₀ { s with classifier := sput natLt 0 s.classifier n f } :=
  kept_classifier (swf_nats (fun _ => 0) s.classifier n f) h

theorem kept_classifier_del [κ.Out .classifier] {s₀ s : State} {n : Nat} (h : Kept κ s₀ s) :
    Kept κ s₀ { s with classifier := sdel s.classifier n } :=
  kept_classifier (swf_filter natLt_trans _ _ s.classifier) h

theorem kept_classifier_nil [κ.Out .classifier] {s₀ s : State} (h : Kept κ s₀ s) :
    Kept κ s₀ { s with classifier := [] } :=
  kept_classifier (fun _ => rfl) h

/-! ## Lists with a capacity -/

theorem kept_subscribers_map {s₀ s : State} {f : Subscriber → Subscriber} (hf : ∀ u, (f u).slot = u.slot)
    (h : Kept κ s₀ s) : Kept κ s₀ { s with subscribers := s.subscribers.map f } := by
  have hl : (s.subscribers.map f).map Subscriber.slot = s.subscribers.map Subscriber.slot := by simp [hf]
  exact h.trans { Kept.refl s with
    slots := fun q => by simpa only [Safety.slotsDistinct, hl] using q
    sameSubscribers := fun _ => hl }

theorem kept_subscribers_sub [κ.Out .subscribers] {s₀ s : State} {p : Subscriber → Bool} (h : Kept κ s₀ s) :
    Kept κ s₀ { s with subscribers := s.subscribers.filter p } := by
  have hs : List.Sublist ((s.subscribers.filter p).map Subscriber.slot) (s.subscribers.map Subscriber.slot) :=
    List.filter_sublist.map _
  exact h.trans { Kept.refl s with
    slots := fun q => ⟨hs.nodup q.1, fun n hn => q.2 n (hs.subset hn)⟩
    sameSubscribers := touched }

theorem kept_sources [κ.Out .management] {s₀ s : State} {l : List Source}
    (hl : l.length ≤ s.sources.length ∨ l.length ≤ 16) (h : Kept κ s₀ s) : Kept κ s₀ { s with sources := l } :=
  h.trans { Kept.refl s with
    management := fun q => ⟨hl.elim (·.trans q.1) id, q.2⟩
    sameManagement := touched }

theorem kept_requests [κ.Out .management] {s₀ s : State} {l : List Request}
    (hl : l.length ≤ s.requests.length ∨ l.length ≤ 32) (h : Kept κ s₀ s) : Kept κ s₀ { s with requests := l } :=
  h.trans { Kept.refl s with
    management := fun q => ⟨q.1, hl.elim (·.trans q.2.1) id, q.2.2⟩
    sameManagement := touched }

theorem kept_staging [κ.Out .management] {s₀ s : State} {l : List Staging}
    (hl : l.length ≤ s.staging.length ∨ l.length ≤ 4) (h : Kept κ s₀ s) : Kept κ s₀ { s with staging := l } :=
  h.trans { Kept.refl s with
    management := fun q => ⟨q.1, q.2.1, hl.elim (·.trans q.2.2) id⟩
    sameManagement := touched }

theorem kept_ring [κ.Out .events] {s₀ s : State} {l : List EventRec} (hl : s.ring.length ≤ 1024 → l.length ≤ 1024)
    (h : Kept κ s₀ s) : Kept κ s₀ { s with ring := l } :=
  h.trans { Kept.refl s with rings := fun q => ⟨hl q.1, q.2⟩, sameEvents := touched }

theorem kept_history [κ.Out .events] {s₀ s : State} {l : List EventRec} (hl : s.history.length ≤ 64 → l.length ≤ 64)
    (h : Kept κ s₀ s) : Kept κ s₀ { s with history := l } :=
  h.trans { Kept.refl s with rings := fun q => ⟨q.1, hl q.2⟩, sameEvents := touched }

theorem kept_tsQueue [κ.Out .ptp] {s₀ s : State} {l : List Nat}
    (hl : s.tsQueue.length ≤ 64 → l.length ≤ 64) (h : Kept κ s₀ s) : Kept κ s₀ { s with tsQueue := l } :=
  h.trans { Kept.refl s with
    entries := fun q => ⟨hl q.1, q.2⟩
    sameTsQueue := touched }

theorem kept_tracker [κ.Out .integrity] {s₀ s : State} {l : List Track}
    (hl : s.tracker.length ≤ 64 → l.length ≤ 64) (h : Kept κ s₀ s) : Kept κ s₀ { s with tracker := l } :=
  h.trans { Kept.refl s with
    entries := fun q => ⟨q.1, hl q.2⟩
    sameIntegrity := touched }

/-! ## Outcomes -/

/-- Where the outcome is a next state, the step to it keeps. -/
structure KeptO (κ : Scope) (s : State) (o : Host.Outcome State Fault Refusal) : Prop where
  keeps : ∀ t, o = .next t → Kept κ s t

theorem kept_next {s₀ s : State} (h : Kept κ s₀ s) : KeptO κ s₀ (.next s) :=
  ⟨fun t e => by cases e; exact h⟩

/-- What κ says is left is as it was. -/
theorem Kept.samePart {s t : State} (h : Kept κ s t) {p : Safety.Part} (hp : κ p = true) : Safety.samePart p s t := by
  refine ⟨?_, fun r i e => h.sameRegs r i (e ▸ hp)⟩
  cases p <;> first
    | trivial
    | exact h.samePhase hp
    | exact h.sameMem hp
    | exact h.sameEvents hp
    | exact h.sameSubscribers hp
    | exact h.sameManagement hp
    | exact h.sameTap
    | exact h.sameSlack hp
    | exact h.sameTxLine hp
    | exact h.sameRxLine hp
    | exact h.samePol hp
    | exact h.sameEgress hp
    | exact h.sameTsQueue hp
    | exact h.sameClassifier hp
    | exact h.sameFlows hp
    | exact h.sameTribs hp
    | exact h.sameSnapshots hp
    | exact h.sameIntegrity hp
    | exact h.sameDescriptors hp

end Sys2Proof.Laws
end

