-- ==== Sys2Proof/Laws/Kept/Ops.lean ====
section
/-! SUPPORT. Every operation of Machine/Ops.lean keeps (Laws/Kept.lean). -/

set_option Elab.async false
set_option linter.unusedTactic false
set_option linter.unreachableTactic false
set_option linter.unusedVariables false

namespace Sys2Proof.Laws

open Sys2Proof.Machine

variable {κ : Scope}

theorem kept_setFlag {s₀ s : State} {r : Reg} {i : Nat} {b : Bool} (h : Kept κ s₀ s)
    (hr : κ (Safety.part r) = false := by
      first | assumption | ((conv in Safety.part _ => whnf); exact Fact.out) | exact leaves_none _)
    :
    Kept κ s₀ (State.setFlag s r i b) := by
  unfold State.setFlag
  repeat' first
    | intro _ | with_reducible apply kept_set | with_reducible apply kept_ite | split | dsimp only
    | with_reducible assumption | refine kept_fst (by assumption) ?_ | refine kept_snd (by assumption) ?_
    | exact rfl | assumption

theorem kept_bump {s₀ s : State} {r : Reg} {i n : Nat} (h : Kept κ s₀ s)
    (hr : κ (Safety.part r) = false := by
      first | assumption | ((conv in Safety.part _ => whnf); exact Fact.out) | exact leaves_none _) : Kept κ s₀ (State.bump s r i n) := by
  unfold State.bump
  exact kept_ite (kept_wrap (kept_set h)) (kept_set h)

theorem kept_peak {s₀ s : State} {r : Reg} {i : Nat} {v : Int} (h : Kept κ s₀ s)
    (hr : κ (Safety.part r) = false := by
      first | assumption | ((conv in Safety.part _ => whnf); exact Fact.out) | exact leaves_none _)
    :
    Kept κ s₀ (State.peak s r i v) := by
  unfold State.peak
  repeat' first
    | intro _ | with_reducible apply kept_set | with_reducible apply kept_ite | split | dsimp only
    | with_reducible assumption | refine kept_fst (by assumption) ?_ | refine kept_snd (by assumption) ?_
    | exact rfl | assumption

theorem kept_trough {s₀ s : State} {r : Reg} {i : Nat} {v : Int} (h : Kept κ s₀ s)
    (hr : κ (Safety.part r) = false := by
      first | assumption | ((conv in Safety.part _ => whnf); exact Fact.out) | exact leaves_none _)
    :
    Kept κ s₀ (State.trough s r i v) := by
  unfold State.trough
  repeat' first
    | intro _ | with_reducible apply kept_set | with_reducible apply kept_ite | split | dsimp only
    | with_reducible assumption | refine kept_fst (by assumption) ?_ | refine kept_snd (by assumption) ?_
    | exact rfl | assumption

theorem kept_setBit {s₀ s : State} {r : Reg} {i : Nat} {b : Nat} {v : Bool} (h : Kept κ s₀ s)
    (hr : κ (Safety.part r) = false := by
      first | assumption | ((conv in Safety.part _ => whnf); exact Fact.out) | exact leaves_none _)
    :
    Kept κ s₀ (State.setBit s r i b v) := by
  unfold State.setBit
  repeat' first
    | intro _ | with_reducible apply kept_set | with_reducible apply kept_ite | split | dsimp only
    | with_reducible assumption | refine kept_fst (by assumption) ?_ | refine kept_snd (by assumption) ?_
    | exact rfl | assumption

theorem kept_writeBytes [κ.Out .memory] {s₀ s : State} {a : Nat} {l : List Byte} (h : Kept κ s₀ s) : Kept κ s₀
    (s.writeBytes a l) := by
  induction l generalizing s a with
  | nil => exact h
  | cons b t ih => exact ih (kept_writeByte h)

theorem kept_takeFree {s₀ s : State} (h : Kept κ s₀ s) :
    Kept κ s₀ (State.takeFree s).2 := by
  unfold State.takeFree
  repeat' first
    | intro _ | with_reducible apply kept_ite | split | dsimp only | with_reducible assumption
    | with_reducible apply kept_free | refine kept_fst (by assumption) ?_ | refine kept_snd (by assumption) ?_
    | exact rfl | assumption

theorem kept_markSecond {s₀ s : State} {mark : Reg} {i : Nat} (h : Kept κ s₀ s)
    (hmark : κ (Safety.part mark) = false := by
      first | assumption | ((conv in Safety.part _ => whnf); exact Fact.out) | exact leaves_none _)
    :
    Kept κ s₀ (State.markSecond s mark i) := by
  unfold State.markSecond
  repeat' first
    | intro _ | with_reducible apply kept_set | with_reducible apply kept_ite | split | dsimp only
    | with_reducible assumption | refine kept_fst (by assumption) ?_ | refine kept_snd (by assumption) ?_
    | exact rfl | assumption

theorem kept_markTick {s₀ s : State} {r : Reg} {i : Nat} (h : Kept κ s₀ s)
    (hr : κ (Safety.part r) = false := by first | assumption | ((conv in Safety.part _ => whnf); exact Fact.out) | exact leaves_none _) :
    Kept κ s₀ (State.markTick s r i) := by
  unfold State.markTick
  repeat' first
    | intro _ | with_reducible apply kept_set | with_reducible apply kept_ite | split | dsimp only
    | with_reducible assumption | refine kept_fst (by assumption) ?_ | refine kept_snd (by assumption) ?_
    | exact rfl | assumption

theorem bump_ring {s : State} {r : Reg} {i n : Nat} : (s.bump r i n).ring = s.ring := by
  unfold State.bump
  dsimp only
  split <;> rfl

theorem lose_slot (u : Subscriber) (o : EventRec) : (u.lose o).slot = u.slot := by
  unfold Subscriber.lose
  split
  · rfl
  · split <;> rfl

theorem enqueue_slot (u : Subscriber) (r : EventRec) : (u.enqueue r).slot = u.slot := by
  unfold Subscriber.enqueue
  split <;> rfl

theorem kept_ringPush [κ.Out .events] {s₀ s : State} {r : EventRec} (h : Kept κ s₀ s) : Kept κ s₀ (s.ringPush r) := by
  have push : ∀ a : State, Kept κ s a → (s.ring.length ≤ 1024 → a.ring.length ≤ 1023) →
      Kept κ s₀ (({ a with ring := a.ring ++ [r] } : State).bump .ringNextSeq 0) := by
    intro a ha hl
    refine kept_bump (h.trans { ha with rings := fun q => ⟨?_, (ha.rings q).2⟩, sameEvents := touched })
    have := hl q.1
    simp only [List.length_append, List.length_cons, List.length_nil]
    omega
  unfold State.ringPush
  split
  · rename_i o t e
    split
    · refine push _ (kept_bump (kept_subscribers_map (s := { s with ring := t }) (fun u => lose_slot u o)
        (kept_ring (fun q => ?_) (Kept.refl s))))
        fun q => ?_
      · rw [e] at q
        exact (Nat.le_succ _).trans q
      · rw [bump_ring]
        rw [e] at q
        exact Nat.le_of_succ_le_succ q
    · rename_i hl
      exact push s (Kept.refl s) fun _ => by omega
  · rename_i e
    exact push s (Kept.refl s) fun _ => by simp [e]

theorem kept_historyPush [κ.Out .events] {s₀ s : State} {r : EventRec} (h : Kept κ s₀ s) : Kept κ s₀
    (s.historyPush r) :=
  kept_bump (kept_history (fun _ => by simp only [List.length_drop]; omega) h)

theorem kept_captureTrigger [κ.Out .captures] {s₀ s : State} {e : Nat} (h : Kept κ s₀ s) :
    Kept κ s₀ (State.captureTrigger s e) := by
  unfold State.captureTrigger
  repeat' first
    | intro _ | with_reducible apply kept_each | with_reducible apply kept_set | with_reducible apply kept_ite
    | split | dsimp only | with_reducible assumption | refine kept_fst (by assumption) ?_
    | refine kept_snd (by assumption) ?_ | exact rfl | assumption | exact (Fact.out : κ .captures = false)

theorem kept_record [κ.Out .events] [κ.Out .captures] {s₀ s : State} {e : Nat} {r : EventRec} {c : Prop}
    [Decidable c] (h : Kept κ s₀ s) :
    Kept κ s₀ (let t := if c then (s.ringPush r).historyPush r else s.ringPush r
      ({ t with subscribers := t.subscribers.map fun (u : Subscriber) => u.enqueue r } : State).captureTrigger e) := by
  have ht : Kept κ s₀ (if c then (s.ringPush r).historyPush r else s.ringPush r) :=
    kept_ite (kept_historyPush (kept_ringPush h)) (kept_ringPush h)
  generalize (if c then (s.ringPush r).historyPush r else s.ringPush r) = t at ht
  exact kept_captureTrigger (kept_subscribers_map (fun u => enqueue_slot u _) ht)

theorem kept_raiseCore [κ.Out .events] [κ.Out .captures] {s₀ s : State} {e : Nat} {detail : List Item} {k : Mark}
    (h : Kept κ s₀ s) :
    Kept κ s₀ (s.raiseCore e detail k) := by
  have h1 := kept_set (r := .eventLastTime) (i := e) (v := (s.now : Nat)) (kept_bump (r := .eventCount) (i := e) (n := 1) h)
  unfold State.raiseCore
  dsimp only
  generalize ((s.bump .eventCount e 1).set .eventLastTime e (s.now : Nat)) = a at *
  split
  · exact kept_record (kept_set h1)
  · exact h1

theorem kept_hkLatch [κ.Out .housekeeping] {s₀ s : State} {k : Nat} (h : Kept κ s₀ s) :
    Kept κ s₀ (State.hkLatch s k) := by
  unfold State.hkLatch
  repeat' first
    | intro _ | with_reducible apply kept_set | with_reducible apply kept_ite | split | dsimp only
    | with_reducible assumption | refine kept_fst (by assumption) ?_ | refine kept_snd (by assumption) ?_
    | exact rfl | assumption | exact (Fact.out : κ .housekeeping = false)

theorem kept_hkStart [κ.Out .housekeeping] {s₀ s : State} {k : Nat} (h : Kept κ s₀ s) :
    Kept κ s₀ (State.hkStart s k) := by
  unfold State.hkStart
  repeat' first
    | intro _ | with_reducible apply kept_set | with_reducible apply kept_setBlob
    | with_reducible apply kept_hkLatch | with_reducible apply kept_ite | split | dsimp only
    | with_reducible assumption | refine kept_fst (by assumption) ?_ | refine kept_snd (by assumption) ?_
    | exact rfl | assumption | exact (Fact.out : κ .housekeeping = false)

theorem kept_hkMiss [κ.Out .housekeeping] {s₀ s : State} {k : Nat} {raise : State → Nat → List Item → State}
    (h : Kept κ s₀ s) (hraise : ∀ t e d, Kept κ s₀ t → Kept κ s₀ (raise t e d)) :
    Kept κ s₀ (State.hkMiss s k raise) := by
  unfold State.hkMiss
  repeat' first
    | intro _ | with_reducible apply hraise | with_reducible apply kept_markSecond
    | with_reducible apply kept_ite | split | dsimp only | with_reducible assumption
    | refine kept_fst (by assumption) ?_ | refine kept_snd (by assumption) ?_ | exact rfl | assumption
    | exact (Fact.out : κ .housekeeping = false)

theorem kept_hkSeqTrigger [κ.Out .housekeeping] {s₀ s : State} {k : Nat} {raise : State → Nat → List Item → State}
    (h : Kept κ s₀ s) (hraise : ∀ t e d, Kept κ s₀ t → Kept κ s₀ (raise t e d)) :
    Kept κ s₀ (State.hkSeqTrigger s k raise) := by
  unfold State.hkSeqTrigger
  repeat' first
    | intro _ | with_reducible apply hraise | with_reducible apply kept_hkMiss | with_reducible apply kept_bump
    | with_reducible apply kept_set | with_reducible apply kept_hkStart | with_reducible apply kept_ite | split
    | dsimp only | with_reducible assumption | refine kept_fst (by assumption) ?_
    | refine kept_snd (by assumption) ?_ | exact rfl | assumption | exact (Fact.out : κ .housekeeping = false)

theorem kept_hkStartInjected [κ.Out .housekeeping] {s₀ s : State} {k : Nat} (h : Kept κ s₀ s) :
    Kept κ s₀ (State.hkStartInjected s k) := by
  unfold State.hkStartInjected
  repeat' first
    | intro _ | with_reducible apply kept_hkLatch | with_reducible apply kept_set
    | with_reducible apply kept_ite | split | dsimp only | with_reducible assumption
    | refine kept_fst (by assumption) ?_ | refine kept_snd (by assumption) ?_ | exact rfl | assumption
    | exact (Fact.out : κ .housekeeping = false)

theorem kept_hkInjTrigger [κ.Out .housekeeping] {s₀ s : State} {k : Nat} {raise : State → Nat → List Item → State}
    (h : Kept κ s₀ s) (hraise : ∀ t e d, Kept κ s₀ t → Kept κ s₀ (raise t e d)) :
    Kept κ s₀ (State.hkInjTrigger s k raise) := by
  unfold State.hkInjTrigger
  repeat' first
    | intro _ | with_reducible apply hraise | with_reducible apply kept_hkMiss | with_reducible apply kept_bump
    | with_reducible apply kept_set | with_reducible apply kept_hkStartInjected | with_reducible apply kept_ite
    | split | dsimp only | with_reducible assumption | refine kept_fst (by assumption) ?_
    | refine kept_snd (by assumption) ?_ | exact rfl | assumption | exact (Fact.out : κ .housekeeping = false)

theorem kept_hkEventTrigger [κ.Out .housekeeping] {s₀ s : State} {e : Nat} {raise : State → Nat → List Item → State}
    (h : Kept κ s₀ s) (hraise : ∀ t e d, Kept κ s₀ t → Kept κ s₀ (raise t e d)) :
    Kept κ s₀ (State.hkEventTrigger s e raise) := by
  unfold State.hkEventTrigger
  repeat' first
    | intro _ | with_reducible apply hraise | with_reducible apply kept_each
    | with_reducible apply kept_hkSeqTrigger | with_reducible apply kept_hkInjTrigger
    | with_reducible apply kept_ite | split | dsimp only | with_reducible assumption
    | refine kept_fst (by assumption) ?_ | refine kept_snd (by assumption) ?_ | exact rfl | assumption

theorem kept_raiseFuel [κ.Out .events] [κ.Out .housekeeping] [κ.Out .captures] {s₀ s : State} {n e : Nat}
    {detail : List Item} {k : Mark} (h : Kept κ s₀ s) :
    Kept κ s₀ (State.raiseFuel n s e detail k) := by
  induction n generalizing s e detail k with
  | zero => exact kept_raiseCore h
  | succ n ih =>
    unfold State.raiseFuel
    exact kept_ite (kept_raiseCore h) (kept_hkEventTrigger (kept_raiseCore h) fun t e d ht => ih ht)

theorem kept_raiseMarked [κ.Out .events] [κ.Out .housekeeping] [κ.Out .captures] {s₀ s : State} {e : Nat}
    {detail : List Item} {k : Mark} (h : Kept κ s₀ s) :
    Kept κ s₀ (State.raiseMarked s e detail k) := by
  unfold State.raiseMarked
  repeat' first
    | intro _ | with_reducible apply kept_raiseFuel | with_reducible apply kept_ite | split | dsimp only
    | with_reducible assumption | refine kept_fst (by assumption) ?_ | refine kept_snd (by assumption) ?_
    | exact rfl | assumption

theorem kept_raise [κ.Out .events] [κ.Out .housekeeping] [κ.Out .captures] {s₀ s : State} {e : Nat}
    {detail : List Item} (h : Kept κ s₀ s) :
    Kept κ s₀ (State.raise s e detail) := by
  unfold State.raise
  repeat' first
    | intro _ | with_reducible apply kept_raiseMarked | with_reducible apply kept_ite | split | dsimp only
    | with_reducible assumption | refine kept_fst (by assumption) ?_ | refine kept_snd (by assumption) ?_
    | exact rfl | assumption

theorem kept_raiseClear [κ.Out .events] [κ.Out .housekeeping] [κ.Out .captures] {s₀ s : State} {e : Nat}
    {detail : List Item} {c : Bool} (h : Kept κ s₀ s) :
    Kept κ s₀ (State.raiseClear s e detail c) := by
  unfold State.raiseClear
  repeat' first
    | intro _ | with_reducible apply kept_raiseMarked | with_reducible apply kept_ite | split | dsimp only
    | with_reducible assumption | refine kept_fst (by assumption) ?_ | refine kept_snd (by assumption) ?_
    | exact rfl | assumption

end Sys2Proof.Laws
end

