-- ==== Sys2Proof/Laws/Kept/Carrier.lean ====
section
/-! SUPPORT. Every operation of Machine/Carrier.lean keeps (Laws/Kept.lean). -/

set_option Elab.async false
set_option linter.unusedTactic false
set_option linter.unreachableTactic false
set_option linter.unusedVariables false

namespace Sys2Proof.Laws

open Sys2Proof.Machine

variable {κ : Scope}

theorem kept_live {s₀ s : State} {f : State → State} (h : Kept κ s₀ s) (hf : ∀ t, Kept κ s₀ t → Kept κ s₀ (f t)) :
    KeptO κ s₀ (State.live s f) := by
  unfold State.live
  repeat' first
    | intro _ | with_reducible apply kept_next | with_reducible apply hf | with_reducible apply kept_ite | split
    | dsimp only | with_reducible assumption | refine kept_fst (by assumption) ?_
    | refine kept_snd (by assumption) ?_ | exact rfl | assumption

theorem kept_setLoops [κ.Out .clocks] {s₀ s : State} {c : Nat} {tx : Nat} {rx : Nat} (h : Kept κ s₀ s) :
    Kept κ s₀ (State.setLoops s c tx rx) := by
  unfold State.setLoops
  repeat' first
    | intro _ | with_reducible apply kept_set | with_reducible apply kept_ite | split | dsimp only
    | with_reducible assumption | refine kept_fst (by assumption) ?_ | refine kept_snd (by assumption) ?_
    | exact rfl | assumption | exact (Fact.out : κ .clocks = false)

theorem kept_serveRx [κ.Out .clocks] [κ.Out .converters] {s₀ s : State} {c : Nat} {b : Nat} (h : Kept κ s₀ s) :
    Kept κ s₀ (State.serveRx s c b) := by
  unfold State.serveRx
  repeat' first
    | intro _ | with_reducible apply kept_each | with_reducible apply kept_set | with_reducible apply kept_ite
    | split | dsimp only | with_reducible assumption | refine kept_fst (by assumption) ?_
    | refine kept_snd (by assumption) ?_ | exact rfl | assumption | exact (Fact.out : κ .clocks = false)
    | exact (Fact.out : κ .converters = false)

theorem kept_serveTx [κ.Out .clocks] [κ.Out .converters] {s₀ s : State} {c : Nat} {b : Nat} (h : Kept κ s₀ s) :
    Kept κ s₀ (State.serveTx s c b) := by
  unfold State.serveTx
  repeat' first
    | intro _ | with_reducible apply kept_each | with_reducible apply kept_set | with_reducible apply kept_ite
    | split | dsimp only | with_reducible assumption | refine kept_fst (by assumption) ?_
    | refine kept_snd (by assumption) ?_ | exact rfl | assumption | exact (Fact.out : κ .clocks = false)
    | exact (Fact.out : κ .converters = false)

theorem kept_refreshReach [κ.Out .dispersion] {s₀ s : State} {c : Nat} (h : Kept κ s₀ s) :
    Kept κ s₀ (State.refreshReach s c) := by
  unfold State.refreshReach
  repeat' first
    | intro _ | with_reducible apply kept_set | with_reducible apply kept_ite | split | dsimp only
    | with_reducible assumption | refine kept_fst (by assumption) ?_ | refine kept_snd (by assumption) ?_
    | exact rfl | assumption | exact (Fact.out : κ .dispersion = false)

theorem kept_rxFigures [κ.Out .coding] {s₀ s : State} {c : Nat} {b : Nat} (h : Kept κ s₀ s) :
    Kept κ s₀ (State.rxFigures s c b) := by
  unfold State.rxFigures
  repeat' first
    | intro _ | with_reducible apply kept_set | with_reducible apply kept_ite | split | dsimp only
    | with_reducible assumption | refine kept_fst (by assumption) ?_ | refine kept_snd (by assumption) ?_
    | exact rfl | assumption | exact (Fact.out : κ .coding = false)

theorem kept_txFigures [κ.Out .coding] {s₀ s : State} {c : Nat} {b : Nat} (h : Kept κ s₀ s) :
    Kept κ s₀ (State.txFigures s c b) := by
  unfold State.txFigures
  repeat' first
    | intro _ | with_reducible apply kept_set | with_reducible apply kept_ite | split | dsimp only
    | with_reducible assumption | refine kept_fst (by assumption) ?_ | refine kept_snd (by assumption) ?_
    | exact rfl | assumption | exact (Fact.out : κ .coding = false)

theorem kept_refreshCap [κ.Out .coding] {s₀ s : State} {c : Nat} (h : Kept κ s₀ s) :
    Kept κ s₀ (State.refreshCap s c) := by
  unfold State.refreshCap
  repeat' first
    | intro _ | with_reducible apply kept_set | with_reducible apply kept_ite | split | dsimp only
    | with_reducible assumption | refine kept_fst (by assumption) ?_ | refine kept_snd (by assumption) ?_
    | exact rfl | assumption | exact (Fact.out : κ .coding = false)

theorem kept_setSlack [κ.Out .slack] {s₀ s : State} {c : Nat} {l : List SlackItem} (h : Kept κ s₀ s) : Kept κ s₀
    (s.setSlack c l) :=
  kept_rxSlack h

theorem kept_setStrokes [κ.Out .slack] {s₀ s : State} {c : Nat} {l : List Stroke} (h : Kept κ s₀ s) :
    Kept κ s₀ (State.setStrokes s c l) := by
  unfold State.setStrokes
  repeat' first
    | intro _ | with_reducible apply kept_ite | split | dsimp only | with_reducible assumption
    | with_reducible apply kept_txSlack | refine kept_fst (by assumption) ?_ | refine kept_snd (by assumption) ?_
    | exact rfl | assumption | exact (Fact.out : κ .slack = false)

theorem kept_setTx [κ.Out .txLine] {s₀ s : State} {c : Nat} {t : TxLine} (h : Kept κ s₀ s) :
    Kept κ s₀ (State.setTx s c t) := by
  unfold State.setTx
  repeat' first
    | intro _ | with_reducible apply kept_ite | split | dsimp only | with_reducible assumption
    | with_reducible apply kept_txLine | refine kept_fst (by assumption) ?_ | refine kept_snd (by assumption) ?_
    | exact rfl | assumption | exact (Fact.out : κ .txLine = false)

theorem kept_setRx [κ.Out .rxLine] {s₀ s : State} {c : Nat} {r : RxLine} (h : Kept κ s₀ s) :
    Kept κ s₀ (State.setRx s c r) := by
  unfold State.setRx
  repeat' first
    | intro _ | with_reducible apply kept_ite | split | dsimp only | with_reducible assumption
    | with_reducible apply kept_rxLine | refine kept_fst (by assumption) ?_ | refine kept_snd (by assumption) ?_
    | exact rfl | assumption | exact (Fact.out : κ .rxLine = false)

theorem kept_captureBegin [κ.Out .captures] {s₀ s : State} {c : Nat} (h : Kept κ s₀ s) :
    Kept κ s₀ (State.captureBegin s c) := by
  unfold State.captureBegin
  repeat' first
    | intro _ | with_reducible apply kept_set | with_reducible apply kept_ite | split | dsimp only
    | with_reducible assumption | refine kept_fst (by assumption) ?_ | refine kept_snd (by assumption) ?_
    | exact rfl | assumption | exact (Fact.out : κ .captures = false)

theorem kept_capturePut [κ.Out .memory] [κ.Out .captures] {s₀ s : State} {c : Nat} {point : Nat} {data : List Byte}
    (h : Kept κ s₀ s) :
    Kept κ s₀ (State.capturePut s c point data) := by
  unfold State.capturePut
  repeat' first
    | intro _ | with_reducible apply kept_writeBytes | with_reducible apply kept_set
    | with_reducible apply kept_ite | split | dsimp only | with_reducible assumption
    | refine kept_fst (by assumption) ?_ | refine kept_snd (by assumption) ?_ | exact rfl | assumption
    | exact (Fact.out : κ .captures = false)

theorem kept_enterHeld [κ.Out .events] [κ.Out .slack] [κ.Out .housekeeping] [κ.Out .captures] {s₀ s : State}
    {c : Nat} (h : Kept κ s₀ s) :
    Kept κ s₀ (State.enterHeld s c) := by
  unfold State.enterHeld
  repeat' first
    | intro _ | with_reducible apply kept_raiseClear | with_reducible apply kept_bump
    | with_reducible apply kept_set | with_reducible apply kept_ite | split | dsimp only
    | with_reducible assumption | refine kept_fst (by assumption) ?_ | refine kept_snd (by assumption) ?_
    | exact rfl | assumption | exact (Fact.out : κ .slack = false)

theorem kept_leaveHeld [κ.Out .events] [κ.Out .slack] [κ.Out .housekeeping] [κ.Out .captures] {s₀ s : State}
    {c : Nat} (h : Kept κ s₀ s) :
    Kept κ s₀ (State.leaveHeld s c) := by
  unfold State.leaveHeld
  repeat' first
    | intro _ | with_reducible apply kept_raiseClear | with_reducible apply kept_set
    | with_reducible apply kept_ite | split | dsimp only | with_reducible assumption
    | refine kept_fst (by assumption) ?_ | refine kept_snd (by assumption) ?_ | exact rfl | assumption
    | exact (Fact.out : κ .slack = false)

theorem kept_settleHeld [κ.Out .events] [κ.Out .slack] [κ.Out .housekeeping] [κ.Out .captures] {s₀ s : State}
    {c : Nat} (h : Kept κ s₀ s) :
    Kept κ s₀ (State.settleHeld s c) := by
  unfold State.settleHeld
  repeat' first
    | intro _ | with_reducible apply kept_leaveHeld | with_reducible apply kept_ite | split | dsimp only
    | with_reducible assumption | refine kept_fst (by assumption) ?_ | refine kept_snd (by assumption) ?_
    | exact rfl | assumption

theorem kept_emptySlack [κ.Out .slack] {s₀ s : State} {c : Nat} (h : Kept κ s₀ s) :
    Kept κ s₀ (State.emptySlack s c) := by
  unfold State.emptySlack
  repeat' first
    | intro _ | with_reducible apply kept_setSlack | with_reducible apply kept_setStrokes
    | with_reducible apply kept_set | with_reducible apply kept_ite | split | dsimp only
    | with_reducible assumption | refine kept_fst (by assumption) ?_ | refine kept_snd (by assumption) ?_
    | exact rfl | assumption | exact (Fact.out : κ .slack = false)

theorem kept_refreshConv [κ.Out .converters] {s₀ s : State} {c : Nat} (h : Kept κ s₀ s) :
    Kept κ s₀ (State.refreshConv s c) := by
  unfold State.refreshConv
  repeat' first
    | intro _ | with_reducible apply kept_each | with_reducible apply kept_set | with_reducible apply kept_ite
    | split | dsimp only | with_reducible assumption | refine kept_fst (by assumption) ?_
    | refine kept_snd (by assumption) ?_ | exact rfl | assumption | exact (Fact.out : κ .converters = false)

theorem kept_refreshBgAt [κ.Out .calibration] {s₀ s : State} {u : Nat} (h : Kept κ s₀ s) :
    Kept κ s₀ (State.refreshBgAt s u) := by
  unfold State.refreshBgAt
  repeat' first
    | intro _ | with_reducible apply kept_set | with_reducible apply kept_ite | split | dsimp only
    | with_reducible assumption | refine kept_fst (by assumption) ?_ | refine kept_snd (by assumption) ?_
    | exact rfl | assumption | exact (Fact.out : κ .calibration = false)

theorem kept_refreshBg [κ.Out .calibration] {s₀ s : State} (h : Kept κ s₀ s) :
    Kept κ s₀ (State.refreshBg s) := by
  unfold State.refreshBg
  repeat' first
    | intro _ | with_reducible apply kept_each | with_reducible apply kept_refreshBgAt
    | with_reducible apply kept_ite | split | dsimp only | with_reducible assumption
    | refine kept_fst (by assumption) ?_ | refine kept_snd (by assumption) ?_ | exact rfl | assumption

theorem kept_calDrop [κ.Out .calibration] {s₀ s : State} {u : Nat} (h : Kept κ s₀ s) :
    Kept κ s₀ (State.calDrop s u) := by
  unfold State.calDrop
  repeat' first
    | intro _ | with_reducible apply kept_when | with_reducible apply kept_set
    | with_reducible apply kept_refreshBgAt | with_reducible apply kept_ite | split | dsimp only
    | with_reducible assumption | refine kept_fst (by assumption) ?_ | refine kept_snd (by assumption) ?_
    | exact rfl | assumption | exact (Fact.out : κ .calibration = false)

theorem kept_calAbandonAdcs [κ.Out .calibration] {s₀ s : State} {c : Nat} (h : Kept κ s₀ s) :
    Kept κ s₀ (State.calAbandonAdcs s c) := by
  unfold State.calAbandonAdcs
  repeat' first
    | intro _ | with_reducible apply kept_each | with_reducible apply kept_calDrop | with_reducible apply kept_ite
    | split | dsimp only | with_reducible assumption | refine kept_fst (by assumption) ?_
    | refine kept_snd (by assumption) ?_ | exact rfl | assumption

theorem kept_calAbandonDacs [κ.Out .calibration] {s₀ s : State} {c : Nat} (h : Kept κ s₀ s) :
    Kept κ s₀ (State.calAbandonDacs s c) := by
  unfold State.calAbandonDacs
  repeat' first
    | intro _ | with_reducible apply kept_each | with_reducible apply kept_calDrop | with_reducible apply kept_ite
    | split | dsimp only | with_reducible assumption | refine kept_fst (by assumption) ?_
    | refine kept_snd (by assumption) ?_ | exact rfl | assumption

theorem kept_setBankNumbers {s₀ s : State} {r : Reg} {b : Nat} {l : List Int} (h : Kept κ s₀ s)
    (hr : κ (Safety.part r) = false := by first | assumption | ((conv in Safety.part _ => whnf); exact Fact.out) | exact leaves_none _) :
    Kept κ s₀ (State.setBankNumbers s r b l) := by
  unfold State.setBankNumbers
  repeat' first
    | intro _ | with_reducible apply kept_each | with_reducible apply kept_set | with_reducible apply kept_ite
    | split | dsimp only | with_reducible assumption | refine kept_fst (by assumption) ?_
    | refine kept_snd (by assumption) ?_ | exact rfl | assumption

theorem kept_refreshApplied [κ.Out .dispersion] {s₀ s : State} {c : Nat} (h : Kept κ s₀ s) :
    Kept κ s₀ (State.refreshApplied s c) := by
  unfold State.refreshApplied
  repeat' first
    | intro _ | with_reducible apply kept_set | with_reducible apply kept_ite | split | dsimp only
    | with_reducible assumption | refine kept_fst (by assumption) ?_ | refine kept_snd (by assumption) ?_
    | exact rfl | assumption | exact (Fact.out : κ .dispersion = false)

theorem kept_refreshBusy [κ.Out .banks] {s₀ s : State} {b : Nat} (h : Kept κ s₀ s) :
    Kept κ s₀ (State.refreshBusy s b) := by
  unfold State.refreshBusy
  repeat' first
    | intro _ | with_reducible apply kept_setFlag | with_reducible apply kept_ite | split | dsimp only
    | with_reducible assumption | refine kept_fst (by assumption) ?_ | refine kept_snd (by assumption) ?_
    | exact rfl | assumption | exact (Fact.out : κ .banks = false)

theorem kept_bankSwap [κ.Out .banks] [κ.Out .dispersion] {s₀ s : State} {b : Nat} (h : Kept κ s₀ s) :
    Kept κ s₀ (State.bankSwap s b) := by
  unfold State.bankSwap
  extract_lets x1 x2 x3 x4
  have k2 : Kept κ s₀ x2 := by
    unfold x2
    repeat' first
      | intro _ | with_reducible apply kept_setBlob | with_reducible apply kept_setBankNumbers
      | with_reducible apply kept_set | with_reducible apply kept_bump | with_reducible apply kept_refreshBusy
      | with_reducible apply kept_refreshApplied | with_reducible apply kept_ite | split | dsimp only
      | with_reducible assumption | refine kept_fst (by assumption) ?_ | refine kept_snd (by assumption) ?_
      | exact rfl | assumption | exact (Fact.out : κ .banks = false)
  clear_value x2
  have k3 : Kept κ s₀ x3 := by
    unfold x3
    repeat' first
      | intro _ | with_reducible apply kept_setBlob | with_reducible apply kept_setBankNumbers
      | with_reducible apply kept_set | with_reducible apply kept_bump | with_reducible apply kept_refreshBusy
      | with_reducible apply kept_refreshApplied | with_reducible apply kept_ite | split | dsimp only
      | with_reducible assumption | refine kept_fst (by assumption) ?_ | refine kept_snd (by assumption) ?_
      | exact rfl | assumption | exact (Fact.out : κ .banks = false)
  clear_value x3
  repeat' first
    | intro _ | with_reducible apply kept_setBlob | with_reducible apply kept_setBankNumbers
    | with_reducible apply kept_set | with_reducible apply kept_bump | with_reducible apply kept_refreshBusy
    | with_reducible apply kept_refreshApplied | with_reducible apply kept_ite | split | dsimp only
    | with_reducible assumption | refine kept_fst (by assumption) ?_ | refine kept_snd (by assumption) ?_
    | exact rfl | assumption | exact (Fact.out : κ .banks = false)

theorem kept_bankFill [κ.Out .banks] {s₀ s : State} {b : Nat} (h : Kept κ s₀ s) :
    Kept κ s₀ (State.bankFill s b) := by
  unfold State.bankFill
  repeat' first
    | intro _ | with_reducible apply kept_setBlob | with_reducible apply kept_setBankNumbers
    | with_reducible apply kept_set | with_reducible apply kept_ite | split | dsimp only
    | with_reducible assumption | refine kept_fst (by assumption) ?_ | refine kept_snd (by assumption) ?_
    | exact rfl | assumption | exact (Fact.out : κ .banks = false)

theorem kept_bankRecompute [κ.Out .banks] [κ.Out .dispersion] {s₀ s : State} {b : Nat} (h : Kept κ s₀ s) :
    Kept κ s₀ (State.bankRecompute s b) := by
  unfold State.bankRecompute
  repeat' first
    | intro _ | with_reducible apply kept_bankFill | with_reducible apply kept_bankSwap
    | with_reducible apply kept_ite | split | dsimp only | with_reducible assumption
    | refine kept_fst (by assumption) ?_ | refine kept_snd (by assumption) ?_ | exact rfl | assumption

theorem kept_bankRefit [κ.Out .banks] [κ.Out .dispersion] {s₀ s : State} {b : Nat} {kBd : Nat} (h : Kept κ s₀ s) :
    Kept κ s₀ (State.bankRefit s b kBd) := by
  unfold State.bankRefit
  repeat' first
    | intro _ | with_reducible apply kept_set | with_reducible apply kept_bankRecompute
    | with_reducible apply kept_ite | split | dsimp only | with_reducible assumption
    | refine kept_fst (by assumption) ?_ | refine kept_snd (by assumption) ?_ | exact rfl | assumption
    | exact (Fact.out : κ .banks = false)

theorem kept_bankFinish [κ.Out .banks] [κ.Out .dispersion]
    {s₀ s : State} {b : Nat} (h : Kept κ s₀ s) :
    Kept κ s₀ (State.bankFinish s b) := by
  unfold State.bankFinish
  repeat' first
    | intro _ | with_reducible apply kept_bankSwap | with_reducible apply kept_ite | split | dsimp only
    | with_reducible assumption | refine kept_fst (by assumption) ?_ | refine kept_snd (by assumption) ?_
    | exact rfl | assumption

theorem kept_bankAbandon [κ.Out .banks] {s₀ s : State} {b : Nat} (h : Kept κ s₀ s) :
    Kept κ s₀ (State.bankAbandon s b) := by
  unfold State.bankAbandon
  repeat' first
    | intro _ | with_reducible apply kept_set | with_reducible apply kept_refreshBusy
    | with_reducible apply kept_ite | split | dsimp only | with_reducible assumption
    | refine kept_fst (by assumption) ?_ | refine kept_snd (by assumption) ?_ | exact rfl | assumption
    | exact (Fact.out : κ .banks = false)

theorem kept_monitorLevel [κ.Out .events] [κ.Out .monitors] [κ.Out .housekeeping] [κ.Out .captures] {s₀ s : State}
    {q : Nat} {c : Nat} (h : Kept κ s₀ s) :
    Kept κ s₀ (State.monitorLevel s q c) := by
  unfold State.monitorLevel
  repeat' first
    | intro _ | with_reducible apply kept_bump | with_reducible apply kept_set | with_reducible apply kept_raise
    | with_reducible apply kept_ite | split | dsimp only | with_reducible assumption
    | refine kept_fst (by assumption) ?_ | refine kept_snd (by assumption) ?_ | exact rfl | assumption
    | exact (Fact.out : κ .monitors = false)

theorem kept_trackDone [κ.Out .events] [κ.Out .dispersion] [κ.Out .monitors] [κ.Out .housekeeping] [κ.Out .captures]
    {s₀ s : State} {c : Nat} (h : Kept κ s₀ s) :
    Kept κ s₀ (State.trackDone s c) := by
  unfold State.trackDone
  repeat' first
    | intro _ | with_reducible apply kept_set | with_reducible apply kept_bump
    | with_reducible apply kept_monitorLevel | with_reducible apply kept_ite | split | dsimp only
    | with_reducible assumption | refine kept_fst (by assumption) ?_ | refine kept_snd (by assumption) ?_
    | exact rfl | assumption | exact (Fact.out : κ .dispersion = false) | exact (Fact.out : κ .monitors = false)

theorem kept_cdSettle [κ.Out .events] [κ.Out .banks] [κ.Out .dispersion] [κ.Out .monitors] [κ.Out .housekeeping]
    [κ.Out .captures] {s₀ s : State} {c : Nat} (h : Kept κ s₀ s) :
    Kept κ s₀ (State.cdSettle s c) := by
  unfold State.cdSettle
  repeat' first
    | intro _ | with_reducible apply kept_bankFinish | with_reducible apply kept_trackDone
    | with_reducible apply kept_bankAbandon | with_reducible apply kept_set | with_reducible apply kept_ite | split
    | dsimp only | with_reducible assumption | refine kept_fst (by assumption) ?_
    | refine kept_snd (by assumption) ?_ | exact rfl | assumption | exact (Fact.out : κ .dispersion = false)

theorem kept_refreshRx [κ.Out .equaliser] {s₀ s : State} {c : Nat} (h : Kept κ s₀ s) :
    Kept κ s₀ (State.refreshRx s c) := by
  unfold State.refreshRx
  repeat' first
    | intro _ | with_reducible apply kept_set | with_reducible apply kept_ite | split | dsimp only
    | with_reducible assumption | refine kept_fst (by assumption) ?_ | refine kept_snd (by assumption) ?_
    | exact rfl | assumption | exact (Fact.out : κ .equaliser = false)

theorem kept_refreshRaw [κ.Out .defects] {s₀ s : State} {c : Nat} (h : Kept κ s₀ s) :
    Kept κ s₀ (State.refreshRaw s c) := by
  unfold State.refreshRaw
  repeat' first
    | intro _ | with_reducible apply kept_each | with_reducible apply kept_when
    | with_reducible apply kept_markTick | with_reducible apply kept_set | with_reducible apply kept_ite | split
    | dsimp only | with_reducible assumption | refine kept_fst (by assumption) ?_
    | refine kept_snd (by assumption) ?_ | exact rfl | assumption | exact (Fact.out : κ .defects = false)

theorem kept_setRaw [κ.Out .defects] {s₀ s : State} {c : Nat} {bit : Nat} {v : Bool} (h : Kept κ s₀ s) :
    Kept κ s₀ (State.setRaw s c bit v) := by
  unfold State.setRaw
  repeat' first
    | intro _ | with_reducible apply kept_refreshRaw | with_reducible apply kept_setBit
    | with_reducible apply kept_ite | split | dsimp only | with_reducible assumption
    | refine kept_fst (by assumption) ?_ | refine kept_snd (by assumption) ?_ | exact rfl | assumption
    | exact (Fact.out : κ .defects = false)

theorem kept_defectCleared [κ.Out .events] [κ.Out .defects] [κ.Out .housekeeping] [κ.Out .captures] {s₀ s : State}
    {c : Nat} {bit : Nat} {detail : List Item} (h : Kept κ s₀ s) :
    Kept κ s₀ (State.defectCleared s c bit detail) := by
  unfold State.defectCleared
  repeat' first
    | intro _ | with_reducible apply kept_refreshRaw | with_reducible apply kept_raiseClear
    | with_reducible apply kept_setBit | with_reducible apply kept_ite | split | dsimp only
    | with_reducible assumption | refine kept_fst (by assumption) ?_ | refine kept_snd (by assumption) ?_
    | exact rfl | assumption | exact (Fact.out : κ .defects = false)

theorem kept_defectDeclared [κ.Out .events] [κ.Out .defects] [κ.Out .housekeeping] [κ.Out .captures] {s₀ s : State}
    {c : Nat} {bit : Nat} {detail : List Item} (h : Kept κ s₀ s) :
    Kept κ s₀ (State.defectDeclared s c bit detail) := by
  unfold State.defectDeclared
  repeat' first
    | intro _ | with_reducible apply kept_setBit | with_reducible apply kept_refreshRaw
    | with_reducible apply kept_raiseClear | with_reducible apply kept_each
    | with_reducible apply kept_defectCleared | with_reducible apply kept_ite | split | dsimp only
    | with_reducible assumption | refine kept_fst (by assumption) ?_ | refine kept_snd (by assumption) ?_
    | exact rfl | assumption | exact (Fact.out : κ .defects = false)

theorem kept_csfRun [κ.Out .tributaries] {s₀ s : State} {t : Nat} {n : Int} (h : Kept κ s₀ s) :
    Kept κ s₀ (State.csfRun s t n) := by
  unfold State.csfRun
  repeat' first
    | intro _ | with_reducible apply kept_when | with_reducible apply kept_markTick | with_reducible apply kept_set
    | with_reducible apply kept_ite | split | dsimp only | with_reducible assumption
    | refine kept_fst (by assumption) ?_ | refine kept_snd (by assumption) ?_ | exact rfl | assumption
    | exact (Fact.out : κ .tributaries = false)

theorem kept_defectsIdle [κ.Out .defects] [κ.Out .tributaries] {s₀ s : State} {c : Nat} (h : Kept κ s₀ s) :
    Kept κ s₀ (State.defectsIdle s c) := by
  unfold State.defectsIdle
  repeat' first
    | intro _ | with_reducible apply kept_set | with_reducible apply kept_each | with_reducible apply kept_csfRun
    | with_reducible apply kept_ite | split | dsimp only | with_reducible assumption
    | refine kept_fst (by assumption) ?_ | refine kept_snd (by assumption) ?_ | exact rfl | assumption
    | exact (Fact.out : κ .defects = false) | exact (Fact.out : κ .tributaries = false)

theorem kept_defectsSeeking [κ.Out .defects] {s₀ s : State} {c : Nat} (h : Kept κ s₀ s) :
    Kept κ s₀ (State.defectsSeeking s c) := by
  unfold State.defectsSeeking
  repeat' first
    | intro _ | with_reducible apply kept_refreshRaw | with_reducible apply kept_set
    | with_reducible apply kept_ite | split | dsimp only | with_reducible assumption
    | refine kept_fst (by assumption) ?_ | refine kept_snd (by assumption) ?_ | exact rfl | assumption
    | exact (Fact.out : κ .defects = false)

theorem kept_defectsLocked [κ.Out .defects] [κ.Out .overhead] {s₀ s : State} {c : Nat} (h : Kept κ s₀ s) :
    Kept κ s₀ (State.defectsLocked s c) := by
  unfold State.defectsLocked
  repeat' first
    | intro _ | with_reducible apply kept_set | with_reducible apply kept_refreshRaw
    | with_reducible apply kept_ite | split | dsimp only | with_reducible assumption
    | refine kept_fst (by assumption) ?_ | refine kept_snd (by assumption) ?_ | exact rfl | assumption
    | exact (Fact.out : κ .defects = false) | exact (Fact.out : κ .overhead = false)

theorem kept_pageFlip [κ.Out .events] [κ.Out .overhead] [κ.Out .pages] [κ.Out .housekeeping] [κ.Out .captures]
    {s₀ s : State} {dir : Nat} {c : Nat} (h : Kept κ s₀ s) :
    Kept κ s₀ (State.pageFlip s dir c) := by
  unfold State.pageFlip
  extract_lets x1 x2 x3
  have k1 : Kept κ s₀ x1 := by
    unfold x1
    repeat' first
      | intro _ | with_reducible apply kept_each | with_reducible apply kept_set
      | with_reducible apply kept_bump | with_reducible apply kept_setBit | with_reducible apply kept_raise
      | with_reducible apply kept_ite | split | dsimp only | with_reducible assumption
      | refine kept_fst (by assumption) ?_ | refine kept_snd (by assumption) ?_ | exact rfl | assumption
      | exact (Fact.out : κ .overhead = false) | exact (Fact.out : κ .pages = false)
  clear_value x1
  have k2 : Kept κ s₀ x2 := by
    unfold x2
    repeat' first
      | intro _ | with_reducible apply kept_each | with_reducible apply kept_set
      | with_reducible apply kept_bump | with_reducible apply kept_setBit | with_reducible apply kept_raise
      | with_reducible apply kept_ite | split | dsimp only | with_reducible assumption
      | refine kept_fst (by assumption) ?_ | refine kept_snd (by assumption) ?_ | exact rfl | assumption
      | exact (Fact.out : κ .overhead = false) | exact (Fact.out : κ .pages = false)
  clear_value x2
  have k3 : Kept κ s₀ x3 := by
    unfold x3
    repeat' first
      | intro _ | with_reducible apply kept_each | with_reducible apply kept_set
      | with_reducible apply kept_bump | with_reducible apply kept_setBit | with_reducible apply kept_raise
      | with_reducible apply kept_ite | split | dsimp only | with_reducible assumption
      | refine kept_fst (by assumption) ?_ | refine kept_snd (by assumption) ?_ | exact rfl | assumption
      | exact (Fact.out : κ .overhead = false) | exact (Fact.out : κ .pages = false)
  clear_value x3
  repeat' first
    | intro _ | with_reducible apply kept_each | with_reducible apply kept_set | with_reducible apply kept_bump
    | with_reducible apply kept_setBit | with_reducible apply kept_raise | with_reducible apply kept_ite | split
    | dsimp only | with_reducible assumption | refine kept_fst (by assumption) ?_
    | refine kept_snd (by assumption) ?_ | exact rfl | assumption | exact (Fact.out : κ .overhead = false)
    | exact (Fact.out : κ .pages = false)

theorem kept_pageSettle [κ.Out .events] [κ.Out .overhead] [κ.Out .pages] [κ.Out .housekeeping] [κ.Out .captures]
    {s₀ s : State} {dir : Nat} {c : Nat} (h : Kept κ s₀ s) :
    Kept κ s₀ (State.pageSettle s dir c) := by
  unfold State.pageSettle
  repeat' first
    | intro _ | with_reducible apply kept_pageFlip | with_reducible apply kept_ite | split | dsimp only
    | with_reducible assumption | refine kept_fst (by assumption) ?_ | refine kept_snd (by assumption) ?_
    | exact rfl | assumption

theorem kept_refreshGroup [κ.Out .bonding] {s₀ s : State} {g : Nat} (h : Kept κ s₀ s) :
    Kept κ s₀ (State.refreshGroup s g) := by
  unfold State.refreshGroup
  repeat' first
    | intro _ | with_reducible apply kept_set | with_reducible apply kept_foldl | with_reducible apply kept_ite
    | split | dsimp only | with_reducible assumption | refine kept_fst (by assumption) ?_
    | refine kept_snd (by assumption) ?_ | exact rfl | assumption | exact (Fact.out : κ .bonding = false)

theorem kept_setMember [κ.Out .events] [κ.Out .bonding] [κ.Out .housekeeping] [κ.Out .captures] {s₀ s : State}
    {c : Nat} {st : Int} (h : Kept κ s₀ s) :
    Kept κ s₀ (State.setMember s c st) := by
  unfold State.setMember
  repeat' first
    | intro _ | with_reducible apply kept_set | with_reducible apply kept_raise | with_reducible apply kept_bump
    | with_reducible apply kept_ite | split | dsimp only | with_reducible assumption
    | refine kept_fst (by assumption) ?_ | refine kept_snd (by assumption) ?_ | exact rfl | assumption
    | exact (Fact.out : κ .bonding = false)

theorem kept_bondDrop [κ.Out .events] [κ.Out .bonding] [κ.Out .housekeeping] [κ.Out .captures] {s₀ s : State}
    {c : Nat} (h : Kept κ s₀ s) :
    Kept κ s₀ (State.bondDrop s c) := by
  unfold State.bondDrop
  repeat' first
    | intro _ | with_reducible apply kept_refreshGroup | with_reducible apply kept_setMember
    | with_reducible apply kept_set | with_reducible apply kept_ite | split | dsimp only
    | with_reducible assumption | refine kept_fst (by assumption) ?_ | refine kept_snd (by assumption) ?_
    | exact rfl | assumption | exact (Fact.out : κ .bonding = false)

theorem kept_setCarrierState [κ.Out .carriers] {s₀ s : State} {c : Nat} {v : Int} (h : Kept κ s₀ s) :
    Kept κ s₀ (State.setCarrierState s c v) := by
  unfold State.setCarrierState
  repeat' first
    | intro _ | with_reducible apply kept_bump | with_reducible apply kept_set | with_reducible apply kept_ite
    | split | dsimp only | with_reducible assumption | refine kept_fst (by assumption) ?_
    | refine kept_snd (by assumption) ?_ | exact rfl | assumption | exact (Fact.out : κ .carriers = false)

theorem kept_noteDrop [κ.Out .carriers] {s₀ s : State} {c : Nat} {cause : Int} (h : Kept κ s₀ s) :
    Kept κ s₀ (State.noteDrop s c cause) := by
  unfold State.noteDrop
  repeat' first
    | intro _ | with_reducible apply kept_set | with_reducible apply kept_ite | split | dsimp only
    | with_reducible assumption | refine kept_fst (by assumption) ?_ | refine kept_snd (by assumption) ?_
    | exact rfl | assumption | exact (Fact.out : κ .carriers = false)

theorem kept_clearMonitors [κ.Out .monitors] {s₀ s : State} {c : Nat} (h : Kept κ s₀ s) :
    Kept κ s₀ (State.clearMonitors s c) := by
  unfold State.clearMonitors
  repeat' first
    | intro _ | with_reducible apply kept_each | with_reducible apply kept_set | with_reducible apply kept_ite
    | split | dsimp only | with_reducible assumption | refine kept_fst (by assumption) ?_
    | refine kept_snd (by assumption) ?_ | exact rfl | assumption | exact (Fact.out : κ .monitors = false)

theorem kept_applyMap [κ.Out .events] [κ.Out .converters] [κ.Out .housekeeping] [κ.Out .captures] {s₀ s : State}
    {c : Nat} {m : Int} (h : Kept κ s₀ s) :
    Kept κ s₀ (State.applyMap s c m) := by
  unfold State.applyMap
  repeat' first
    | intro _ | with_reducible apply kept_raise | with_reducible apply kept_set | with_reducible apply kept_ite
    | split | dsimp only | with_reducible assumption | refine kept_fst (by assumption) ?_
    | refine kept_snd (by assumption) ?_ | exact rfl | assumption | exact (Fact.out : κ .converters = false)

theorem kept_agcRestart [κ.Out .converters] {s₀ s : State} {c : Nat} (h : Kept κ s₀ s) :
    Kept κ s₀ (State.agcRestart s c) := by
  unfold State.agcRestart
  repeat' first
    | intro _ | with_reducible apply kept_each | with_reducible apply kept_set | with_reducible apply kept_ite
    | split | dsimp only | with_reducible assumption | refine kept_fst (by assumption) ?_
    | refine kept_snd (by assumption) ?_ | exact rfl | assumption | exact (Fact.out : κ .converters = false)

theorem kept_toIdle [κ.Out .events] [κ.Out .carriers] [κ.Out .slack] [κ.Out .txLine] [κ.Out .rxLine] [κ.Out .clocks]
    [κ.Out .converters] [κ.Out .banks] [κ.Out .dispersion] [κ.Out .frontEnd] [κ.Out .equaliser] [κ.Out .monitors]
    [κ.Out .neighbours] [κ.Out .recovery] [κ.Out .catching] [κ.Out .defects] [κ.Out .overhead] [κ.Out .pages]
    [κ.Out .tributaries] [κ.Out .bonding] [κ.Out .housekeeping] [κ.Out .captures] {s₀ s : State} {c : Nat}
    {cause : Int} (h : Kept κ s₀ s) :
    Kept κ s₀ (State.toIdle s c cause) := by
  unfold State.toIdle
  repeat' first
    | intro _ | with_reducible apply kept_set | with_reducible apply kept_noteDrop
    | with_reducible apply kept_bondDrop | with_reducible apply kept_setCarrierState
    | with_reducible apply kept_emptySlack | with_reducible apply kept_leaveHeld
    | with_reducible apply kept_bankFinish | with_reducible apply kept_cdSettle
    | with_reducible apply kept_clearMonitors | with_reducible apply kept_defectsIdle
    | with_reducible apply kept_pageSettle | with_reducible apply kept_setBlob
    | with_reducible apply kept_agcRestart | with_reducible apply kept_when | with_reducible apply kept_setLoops
    | with_reducible apply kept_setTx | with_reducible apply kept_setRx | with_reducible apply kept_refreshReach
    | with_reducible apply kept_refreshConv | with_reducible apply kept_refreshRx | with_reducible apply kept_ite
    | split | dsimp only | with_reducible assumption | refine kept_fst (by assumption) ?_
    | refine kept_snd (by assumption) ?_ | exact rfl | assumption | exact (Fact.out : κ .slack = false)
    | exact (Fact.out : κ .clocks = false) | exact (Fact.out : κ .frontEnd = false)
    | exact (Fact.out : κ .equaliser = false) | exact (Fact.out : κ .neighbours = false)
    | exact (Fact.out : κ .recovery = false) | exact (Fact.out : κ .catching = false)
    | exact (Fact.out : κ .overhead = false) | exact (Fact.out : κ .bonding = false)

theorem kept_takeList [κ.Out .catching] {s₀ s : State} {c : Nat} (h : Kept κ s₀ s) :
    Kept κ s₀ (State.takeList s c) := by
  unfold State.takeList
  extract_lets x1 x2 x3 x4 x5
  have k4 : Kept κ s₀ x4 := by
    unfold x4
    repeat' first
      | intro _ | with_reducible apply kept_set | with_reducible apply kept_each
      | with_reducible apply kept_setBlob | with_reducible apply kept_ite | split | dsimp only
      | with_reducible assumption | refine kept_fst (by assumption) ?_ | refine kept_snd (by assumption) ?_
      | exact rfl | assumption | exact (Fact.out : κ .catching = false)
  clear_value x4
  have k5 : Kept κ s₀ x5 := by
    unfold x5
    repeat' first
      | intro _ | with_reducible apply kept_set | with_reducible apply kept_each
      | with_reducible apply kept_setBlob | with_reducible apply kept_ite | split | dsimp only
      | with_reducible assumption | refine kept_fst (by assumption) ?_ | refine kept_snd (by assumption) ?_
      | exact rfl | assumption | exact (Fact.out : κ .catching = false)
  clear_value x5
  repeat' first
    | intro _ | with_reducible apply kept_set | with_reducible apply kept_each | with_reducible apply kept_setBlob
    | with_reducible apply kept_ite | split | dsimp only | with_reducible assumption
    | refine kept_fst (by assumption) ?_ | refine kept_snd (by assumption) ?_ | exact rfl | assumption
    | exact (Fact.out : κ .catching = false)

theorem kept_crHold [κ.Out .recovery] {s₀ s : State} {c : Nat} (h : Kept κ s₀ s) :
    Kept κ s₀ (State.crHold s c) := by
  unfold State.crHold
  repeat' first
    | intro _ | with_reducible apply kept_set | with_reducible apply kept_ite | split | dsimp only
    | with_reducible assumption | refine kept_fst (by assumption) ?_ | refine kept_snd (by assumption) ?_
    | exact rfl | assumption | exact (Fact.out : κ .recovery = false)

theorem kept_catchSettings [κ.Out .catching] {s₀ s : State} {c : Nat} (h : Kept κ s₀ s) :
    Kept κ s₀ (State.catchSettings s c) := by
  unfold State.catchSettings
  repeat' first
    | intro _ | with_reducible apply kept_each | with_reducible apply kept_set | with_reducible apply kept_ite
    | split | dsimp only | with_reducible assumption | refine kept_fst (by assumption) ?_
    | refine kept_snd (by assumption) ?_ | exact rfl | assumption | exact (Fact.out : κ .catching = false)

theorem kept_surveyRestart [κ.Out .catching] {s₀ s : State} {c : Nat} {i : Nat} (h : Kept κ s₀ s) :
    Kept κ s₀ (State.surveyRestart s c i) := by
  unfold State.surveyRestart
  repeat' first
    | intro _ | with_reducible apply kept_set | with_reducible apply kept_setBit | with_reducible apply kept_ite
    | split | dsimp only | with_reducible assumption | refine kept_fst (by assumption) ?_
    | refine kept_snd (by assumption) ?_ | exact rfl | assumption | exact (Fact.out : κ .catching = false)

theorem kept_surveyAll [κ.Out .catching] {s₀ s : State} {c : Nat} (h : Kept κ s₀ s) :
    Kept κ s₀ (State.surveyAll s c) := by
  unfold State.surveyAll
  repeat' first
    | intro _ | with_reducible apply kept_each | with_reducible apply kept_surveyRestart
    | with_reducible apply kept_set | with_reducible apply kept_ite | split | dsimp only
    | with_reducible assumption | refine kept_fst (by assumption) ?_ | refine kept_snd (by assumption) ?_
    | exact rfl | assumption | exact (Fact.out : κ .catching = false)

theorem kept_retune [κ.Out .clocks] [κ.Out .converters] [κ.Out .calibration] [κ.Out .banks] [κ.Out .dispersion]
    [κ.Out .frontEnd] [κ.Out .equaliser] [κ.Out .recovery] [κ.Out .catching] {s₀ s : State} {c : Nat} {b : Nat}
    (h : Kept κ s₀ s) :
    Kept κ s₀ (State.retune s c b) := by
  unfold State.retune
  repeat' first
    | intro _ | with_reducible apply kept_serveRx | with_reducible apply kept_setLoops
    | with_reducible apply kept_set | with_reducible apply kept_surveyAll | with_reducible apply kept_refreshBusy
    | with_reducible apply kept_crHold | with_reducible apply kept_agcRestart
    | with_reducible apply kept_calAbandonAdcs | with_reducible apply kept_refreshConv
    | with_reducible apply kept_refreshRx | with_reducible apply kept_ite | split | dsimp only
    | with_reducible assumption | refine kept_fst (by assumption) ?_ | refine kept_snd (by assumption) ?_
    | exact rfl | assumption | exact (Fact.out : κ .clocks = false) | exact (Fact.out : κ .banks = false)
    | exact (Fact.out : κ .dispersion = false) | exact (Fact.out : κ .frontEnd = false)

theorem kept_txRetune [κ.Out .clocks] [κ.Out .converters] [κ.Out .calibration] {s₀ s : State} {c : Nat} {b : Nat}
    (h : Kept κ s₀ s) :
    Kept κ s₀ (State.txRetune s c b) := by
  unfold State.txRetune
  repeat' first
    | intro _ | with_reducible apply kept_serveTx | with_reducible apply kept_calAbandonDacs
    | with_reducible apply kept_setLoops | with_reducible apply kept_ite | split | dsimp only
    | with_reducible assumption | refine kept_fst (by assumption) ?_ | refine kept_snd (by assumption) ?_
    | exact rfl | assumption

theorem kept_blocksNow [κ.Out .equaliser] [κ.Out .neighbours] [κ.Out .recovery] {s₀ s : State} {c : Nat}
    (h : Kept κ s₀ s) :
    Kept κ s₀ (State.blocksNow s c) := by
  unfold State.blocksNow
  repeat' first
    | intro _ | with_reducible apply kept_set | with_reducible apply kept_ite | split | dsimp only
    | with_reducible assumption | refine kept_fst (by assumption) ?_ | refine kept_snd (by assumption) ?_
    | exact rfl | assumption | exact (Fact.out : κ .equaliser = false) | exact (Fact.out : κ .neighbours = false)
    | exact (Fact.out : κ .recovery = false)

theorem kept_listTaken [κ.Out .catching] {s₀ s : State} {c : Nat} (h : Kept κ s₀ s) :
    Kept κ s₀ (State.listTaken s c) := by
  unfold State.listTaken
  repeat' first
    | intro _ | with_reducible apply kept_takeList | with_reducible apply kept_each | with_reducible apply kept_set
    | with_reducible apply kept_setBit | with_reducible apply kept_surveyRestart | with_reducible apply kept_ite
    | split | dsimp only | with_reducible assumption | refine kept_fst (by assumption) ?_
    | refine kept_snd (by assumption) ?_ | exact rfl | assumption | exact (Fact.out : κ .catching = false)

theorem kept_seekEntry [κ.Out .events] [κ.Out .carriers] [κ.Out .rxLine] [κ.Out .banks] [κ.Out .dispersion]
    [κ.Out .frontEnd] [κ.Out .equaliser] [κ.Out .monitors] [κ.Out .recovery] [κ.Out .catching] [κ.Out .coding]
    [κ.Out .defects] [κ.Out .overhead] [κ.Out .pages] [κ.Out .bonding] [κ.Out .housekeeping] [κ.Out .captures]
    {s₀ s : State} {c : Nat} {cause : Int} (h : Kept κ s₀ s) :
    Kept κ s₀ (State.seekEntry s c cause) := by
  unfold State.seekEntry
  extract_lets x1 x2 x3 x4 x5 x6 x7 x8 x9
  have k2 : Kept κ s₀ x2 := by
    unfold x2
    repeat' first
      | intro _ | with_reducible apply kept_noteDrop | with_reducible apply kept_bondDrop
      | with_reducible apply kept_setCarrierState | with_reducible apply kept_listTaken
      | with_reducible apply kept_surveyAll | with_reducible apply kept_set | with_reducible apply kept_bankFinish
      | with_reducible apply kept_clearMonitors | with_reducible apply kept_defectsSeeking
      | with_reducible apply kept_pageSettle | with_reducible apply kept_setBlob
      | with_reducible apply kept_catchSettings | with_reducible apply kept_setRx | with_reducible apply kept_ite
      | split | dsimp only | with_reducible assumption | with_reducible apply kept_polQueue
      | refine kept_fst (by assumption) ?_ | refine kept_snd (by assumption) ?_ | exact rfl | assumption
      | exact (Fact.out : κ .dispersion = false) | exact (Fact.out : κ .frontEnd = false)
      | exact (Fact.out : κ .equaliser = false) | exact (Fact.out : κ .recovery = false)
      | exact (Fact.out : κ .catching = false) | exact (Fact.out : κ .coding = false)
      | exact (Fact.out : κ .overhead = false)
  clear_value x2
  have k3 : Kept κ s₀ x3 := by
    unfold x3
    repeat' first
      | intro _ | with_reducible apply kept_noteDrop | with_reducible apply kept_bondDrop
      | with_reducible apply kept_setCarrierState | with_reducible apply kept_listTaken
      | with_reducible apply kept_surveyAll | with_reducible apply kept_set | with_reducible apply kept_bankFinish
      | with_reducible apply kept_clearMonitors | with_reducible apply kept_defectsSeeking
      | with_reducible apply kept_pageSettle | with_reducible apply kept_setBlob
      | with_reducible apply kept_catchSettings | with_reducible apply kept_setRx | with_reducible apply kept_ite
      | split | dsimp only | with_reducible assumption | with_reducible apply kept_polQueue
      | refine kept_fst (by assumption) ?_ | refine kept_snd (by assumption) ?_ | exact rfl | assumption
      | exact (Fact.out : κ .dispersion = false) | exact (Fact.out : κ .frontEnd = false)
      | exact (Fact.out : κ .equaliser = false) | exact (Fact.out : κ .recovery = false)
      | exact (Fact.out : κ .catching = false) | exact (Fact.out : κ .coding = false)
      | exact (Fact.out : κ .overhead = false)
  clear_value x3
  have k5 : Kept κ s₀ x5 := by
    unfold x5
    repeat' first
      | intro _ | with_reducible apply kept_noteDrop | with_reducible apply kept_bondDrop
      | with_reducible apply kept_setCarrierState | with_reducible apply kept_listTaken
      | with_reducible apply kept_surveyAll | with_reducible apply kept_set | with_reducible apply kept_bankFinish
      | with_reducible apply kept_clearMonitors | with_reducible apply kept_defectsSeeking
      | with_reducible apply kept_pageSettle | with_reducible apply kept_setBlob
      | with_reducible apply kept_catchSettings | with_reducible apply kept_setRx | with_reducible apply kept_ite
      | split | dsimp only | with_reducible assumption | with_reducible apply kept_polQueue
      | refine kept_fst (by assumption) ?_ | refine kept_snd (by assumption) ?_ | exact rfl | assumption
      | exact (Fact.out : κ .dispersion = false) | exact (Fact.out : κ .frontEnd = false)
      | exact (Fact.out : κ .equaliser = false) | exact (Fact.out : κ .recovery = false)
      | exact (Fact.out : κ .catching = false) | exact (Fact.out : κ .coding = false)
      | exact (Fact.out : κ .overhead = false)
  clear_value x5
  have k6 : Kept κ s₀ x6 := by
    unfold x6
    repeat' first
      | intro _ | with_reducible apply kept_noteDrop | with_reducible apply kept_bondDrop
      | with_reducible apply kept_setCarrierState | with_reducible apply kept_listTaken
      | with_reducible apply kept_surveyAll | with_reducible apply kept_set | with_reducible apply kept_bankFinish
      | with_reducible apply kept_clearMonitors | with_reducible apply kept_defectsSeeking
      | with_reducible apply kept_pageSettle | with_reducible apply kept_setBlob
      | with_reducible apply kept_catchSettings | with_reducible apply kept_setRx | with_reducible apply kept_ite
      | split | dsimp only | with_reducible assumption | with_reducible apply kept_polQueue
      | refine kept_fst (by assumption) ?_ | refine kept_snd (by assumption) ?_ | exact rfl | assumption
      | exact (Fact.out : κ .dispersion = false) | exact (Fact.out : κ .frontEnd = false)
      | exact (Fact.out : κ .equaliser = false) | exact (Fact.out : κ .recovery = false)
      | exact (Fact.out : κ .catching = false) | exact (Fact.out : κ .coding = false)
      | exact (Fact.out : κ .overhead = false)
  clear_value x6
  have k7 : Kept κ s₀ x7 := by
    unfold x7
    repeat' first
      | intro _ | with_reducible apply kept_noteDrop | with_reducible apply kept_bondDrop
      | with_reducible apply kept_setCarrierState | with_reducible apply kept_listTaken
      | with_reducible apply kept_surveyAll | with_reducible apply kept_set | with_reducible apply kept_bankFinish
      | with_reducible apply kept_clearMonitors | with_reducible apply kept_defectsSeeking
      | with_reducible apply kept_pageSettle | with_reducible apply kept_setBlob
      | with_reducible apply kept_catchSettings | with_reducible apply kept_setRx | with_reducible apply kept_ite
      | split | dsimp only | with_reducible assumption | with_reducible apply kept_polQueue
      | refine kept_fst (by assumption) ?_ | refine kept_snd (by assumption) ?_ | exact rfl | assumption
      | exact (Fact.out : κ .dispersion = false) | exact (Fact.out : κ .frontEnd = false)
      | exact (Fact.out : κ .equaliser = false) | exact (Fact.out : κ .recovery = false)
      | exact (Fact.out : κ .catching = false) | exact (Fact.out : κ .coding = false)
      | exact (Fact.out : κ .overhead = false)
  clear_value x7
  have k9 : Kept κ s₀ x9 := by
    unfold x9
    repeat' first
      | intro _ | with_reducible apply kept_noteDrop | with_reducible apply kept_bondDrop
      | with_reducible apply kept_setCarrierState | with_reducible apply kept_listTaken
      | with_reducible apply kept_surveyAll | with_reducible apply kept_set | with_reducible apply kept_bankFinish
      | with_reducible apply kept_clearMonitors | with_reducible apply kept_defectsSeeking
      | with_reducible apply kept_pageSettle | with_reducible apply kept_setBlob
      | with_reducible apply kept_catchSettings | with_reducible apply kept_setRx | with_reducible apply kept_ite
      | split | dsimp only | with_reducible assumption | with_reducible apply kept_polQueue
      | refine kept_fst (by assumption) ?_ | refine kept_snd (by assumption) ?_ | exact rfl | assumption
      | exact (Fact.out : κ .dispersion = false) | exact (Fact.out : κ .frontEnd = false)
      | exact (Fact.out : κ .equaliser = false) | exact (Fact.out : κ .recovery = false)
      | exact (Fact.out : κ .catching = false) | exact (Fact.out : κ .coding = false)
      | exact (Fact.out : κ .overhead = false)
  clear_value x9
  repeat' first
    | intro _ | with_reducible apply kept_noteDrop | with_reducible apply kept_bondDrop
    | with_reducible apply kept_setCarrierState | with_reducible apply kept_listTaken
    | with_reducible apply kept_surveyAll | with_reducible apply kept_set | with_reducible apply kept_bankFinish
    | with_reducible apply kept_clearMonitors | with_reducible apply kept_defectsSeeking
    | with_reducible apply kept_pageSettle | with_reducible apply kept_setBlob
    | with_reducible apply kept_catchSettings | with_reducible apply kept_setRx | with_reducible apply kept_ite
    | split | dsimp only | with_reducible assumption | with_reducible apply kept_polQueue
    | refine kept_fst (by assumption) ?_ | refine kept_snd (by assumption) ?_ | exact rfl | assumption
    | exact (Fact.out : κ .dispersion = false) | exact (Fact.out : κ .frontEnd = false)
    | exact (Fact.out : κ .equaliser = false) | exact (Fact.out : κ .recovery = false)
    | exact (Fact.out : κ .catching = false) | exact (Fact.out : κ .coding = false)
    | exact (Fact.out : κ .overhead = false)

theorem kept_seekState [κ.Out .catching] {s₀ s : State} {c : Nat} (h : Kept κ s₀ s) :
    Kept κ s₀ (State.seekState s c) := by
  unfold State.seekState
  repeat' first
    | intro _ | with_reducible apply kept_set | with_reducible apply kept_ite | split | dsimp only
    | with_reducible assumption | refine kept_fst (by assumption) ?_ | refine kept_snd (by assumption) ?_
    | exact rfl | assumption | exact (Fact.out : κ .catching = false)

theorem kept_toSeeking [κ.Out .events] [κ.Out .carriers] [κ.Out .rxLine] [κ.Out .clocks] [κ.Out .converters]
    [κ.Out .calibration] [κ.Out .banks] [κ.Out .dispersion] [κ.Out .frontEnd] [κ.Out .equaliser] [κ.Out .monitors]
    [κ.Out .recovery] [κ.Out .catching] [κ.Out .coding] [κ.Out .defects] [κ.Out .overhead] [κ.Out .pages]
    [κ.Out .bonding] [κ.Out .housekeeping] [κ.Out .captures] {s₀ s : State} {c : Nat} {cause : Int} (h : Kept κ s₀ s) :
    Kept κ s₀ (State.toSeeking s c cause) := by
  unfold State.toSeeking
  extract_lets x1 x2
  have k1 : Kept κ s₀ x1 := by
    unfold x1
    repeat' first
      | intro _ | with_reducible apply kept_seekEntry | with_reducible apply kept_retune
      | with_reducible apply kept_seekState | with_reducible apply kept_rxFigures
      | with_reducible apply kept_refreshConv | with_reducible apply kept_refreshRx | with_reducible apply kept_ite
      | split | dsimp only | with_reducible assumption | refine kept_fst (by assumption) ?_
      | refine kept_snd (by assumption) ?_ | exact rfl | assumption
  clear_value x1
  have k2 : Kept κ s₀ x2 := by
    unfold x2
    repeat' first
      | intro _ | with_reducible apply kept_seekEntry | with_reducible apply kept_retune
      | with_reducible apply kept_seekState | with_reducible apply kept_rxFigures
      | with_reducible apply kept_refreshConv | with_reducible apply kept_refreshRx | with_reducible apply kept_ite
      | split | dsimp only | with_reducible assumption | refine kept_fst (by assumption) ?_
      | refine kept_snd (by assumption) ?_ | exact rfl | assumption
  clear_value x2
  repeat' first
    | intro _ | with_reducible apply kept_seekEntry | with_reducible apply kept_retune
    | with_reducible apply kept_seekState | with_reducible apply kept_rxFigures
    | with_reducible apply kept_refreshConv | with_reducible apply kept_refreshRx | with_reducible apply kept_ite
    | split | dsimp only | with_reducible assumption | refine kept_fst (by assumption) ?_
    | refine kept_snd (by assumption) ?_ | exact rfl | assumption

theorem kept_reportUnreciprocated [κ.Out .events] [κ.Out .housekeeping] [κ.Out .captures] {s₀ s : State} {c : Nat}
    {side : Nat} (h : Kept κ s₀ s) :
    Kept κ s₀ (State.reportUnreciprocated s c side) := by
  unfold State.reportUnreciprocated
  repeat' first
    | intro _ | with_reducible apply kept_raise | with_reducible apply kept_ite | split | dsimp only
    | with_reducible assumption | refine kept_fst (by assumption) ?_ | refine kept_snd (by assumption) ?_
    | exact rfl | assumption

theorem kept_leaveIdle [κ.Out .events] [κ.Out .carriers] [κ.Out .slack] [κ.Out .txLine] [κ.Out .rxLine]
    [κ.Out .clocks] [κ.Out .converters] [κ.Out .calibration] [κ.Out .banks] [κ.Out .dispersion] [κ.Out .frontEnd]
    [κ.Out .equaliser] [κ.Out .monitors] [κ.Out .neighbours] [κ.Out .recovery] [κ.Out .catching] [κ.Out .coding]
    [κ.Out .defects] [κ.Out .overhead] [κ.Out .pages] [κ.Out .bonding] [κ.Out .housekeeping] [κ.Out .captures]
    {s₀ s : State} {c : Nat} (h : Kept κ s₀ s) :
    Kept κ s₀ (State.leaveIdle s c) := by
  unfold State.leaveIdle
  extract_lets x1 x2 x3 x4 x5 x6 x7 x8 x9
  have k4 : Kept κ s₀ x4 := by
    unfold x4
    repeat' first
      | intro _ | with_reducible apply kept_set | with_reducible apply kept_txRetune
      | with_reducible apply kept_emptySlack | with_reducible apply kept_setTx | with_reducible apply kept_setRx
      | with_reducible apply kept_txFigures | with_reducible apply kept_refreshCap
      | with_reducible apply kept_setBlob | with_reducible apply kept_bankRefit
      | with_reducible apply kept_blocksNow | with_reducible apply kept_toSeeking
      | with_reducible apply kept_reportUnreciprocated | with_reducible apply kept_ite | split | dsimp only
      | with_reducible assumption | refine kept_fst (by assumption) ?_ | refine kept_snd (by assumption) ?_
      | exact rfl | assumption | exact (Fact.out : κ .slack = false) | exact (Fact.out : κ .neighbours = false)
      | exact (Fact.out : κ .coding = false) | exact (Fact.out : κ .overhead = false)
      | exact (Fact.out : κ .bonding = false)
  clear_value x4
  have k5 : Kept κ s₀ x5 := by
    unfold x5
    repeat' first
      | intro _ | with_reducible apply kept_set | with_reducible apply kept_txRetune
      | with_reducible apply kept_emptySlack | with_reducible apply kept_setTx | with_reducible apply kept_setRx
      | with_reducible apply kept_txFigures | with_reducible apply kept_refreshCap
      | with_reducible apply kept_setBlob | with_reducible apply kept_bankRefit
      | with_reducible apply kept_blocksNow | with_reducible apply kept_toSeeking
      | with_reducible apply kept_reportUnreciprocated | with_reducible apply kept_ite | split | dsimp only
      | with_reducible assumption | refine kept_fst (by assumption) ?_ | refine kept_snd (by assumption) ?_
      | exact rfl | assumption | exact (Fact.out : κ .slack = false) | exact (Fact.out : κ .neighbours = false)
      | exact (Fact.out : κ .coding = false) | exact (Fact.out : κ .overhead = false)
      | exact (Fact.out : κ .bonding = false)
  clear_value x5
  have k7 : Kept κ s₀ x7 := by
    unfold x7
    repeat' first
      | intro _ | with_reducible apply kept_set | with_reducible apply kept_txRetune
      | with_reducible apply kept_emptySlack | with_reducible apply kept_setTx | with_reducible apply kept_setRx
      | with_reducible apply kept_txFigures | with_reducible apply kept_refreshCap
      | with_reducible apply kept_setBlob | with_reducible apply kept_bankRefit
      | with_reducible apply kept_blocksNow | with_reducible apply kept_toSeeking
      | with_reducible apply kept_reportUnreciprocated | with_reducible apply kept_ite | split | dsimp only
      | with_reducible assumption | refine kept_fst (by assumption) ?_ | refine kept_snd (by assumption) ?_
      | exact rfl | assumption | exact (Fact.out : κ .slack = false) | exact (Fact.out : κ .neighbours = false)
      | exact (Fact.out : κ .coding = false) | exact (Fact.out : κ .overhead = false)
      | exact (Fact.out : κ .bonding = false)
  clear_value x7
  have k8 : Kept κ s₀ x8 := by
    unfold x8
    repeat' first
      | intro _ | with_reducible apply kept_set | with_reducible apply kept_txRetune
      | with_reducible apply kept_emptySlack | with_reducible apply kept_setTx | with_reducible apply kept_setRx
      | with_reducible apply kept_txFigures | with_reducible apply kept_refreshCap
      | with_reducible apply kept_setBlob | with_reducible apply kept_bankRefit
      | with_reducible apply kept_blocksNow | with_reducible apply kept_toSeeking
      | with_reducible apply kept_reportUnreciprocated | with_reducible apply kept_ite | split | dsimp only
      | with_reducible assumption | refine kept_fst (by assumption) ?_ | refine kept_snd (by assumption) ?_
      | exact rfl | assumption | exact (Fact.out : κ .slack = false) | exact (Fact.out : κ .neighbours = false)
      | exact (Fact.out : κ .coding = false) | exact (Fact.out : κ .overhead = false)
      | exact (Fact.out : κ .bonding = false)
  clear_value x8
  repeat' first
    | intro _ | with_reducible apply kept_set | with_reducible apply kept_txRetune
    | with_reducible apply kept_emptySlack | with_reducible apply kept_setTx | with_reducible apply kept_setRx
    | with_reducible apply kept_txFigures | with_reducible apply kept_refreshCap
    | with_reducible apply kept_setBlob | with_reducible apply kept_bankRefit | with_reducible apply kept_blocksNow
    | with_reducible apply kept_toSeeking | with_reducible apply kept_reportUnreciprocated
    | with_reducible apply kept_ite | split | dsimp only | with_reducible assumption
    | refine kept_fst (by assumption) ?_ | refine kept_snd (by assumption) ?_ | exact rfl | assumption
    | exact (Fact.out : κ .slack = false) | exact (Fact.out : κ .neighbours = false)
    | exact (Fact.out : κ .coding = false) | exact (Fact.out : κ .overhead = false)
    | exact (Fact.out : κ .bonding = false)

end Sys2Proof.Laws
end

