-- ==== Sys2Proof/Laws/Kept/Serve.lean ====
section
/-! SUPPORT. Every operation of Machine/Serve.lean keeps (Laws/Kept.lean). -/

set_option Elab.async false
set_option linter.unusedTactic false
set_option linter.unreachableTactic false
set_option linter.unusedVariables false

namespace Sys2Proof.Laws

open Sys2Proof.Machine

variable {κ : Scope}

theorem kept_hear [κ.Out .management] {s₀ s : State} {mac : Nat} (h : Kept κ s₀ s) : Kept κ s₀ (s.hear mac) :=
  kept_sources (.inr (by simp only [List.length_take]; omega)) h

theorem kept_setView [κ.Out .management] {s₀ s : State} {cl : Client} {v : View} (h : Kept κ s₀ s) : Kept κ s₀
    (s.setView cl v) :=
  kept_sources (.inl (by simp only [List.length_map]; exact Nat.le_refl _)) h

theorem kept_setSel [κ.Out .management] {s₀ s : State} {cl : Client} {r : Reg} {v : Int} {i : optParam Nat 0}
    (h : Kept κ s₀ s) :
    Kept κ s₀ (State.setSel s cl r v i) := by
  unfold State.setSel
  repeat' first
    | intro _ | with_reducible apply kept_setView | with_reducible apply kept_ite | split | dsimp only
    | with_reducible assumption | refine kept_fst (by assumption) ?_ | refine kept_snd (by assumption) ?_
    | exact rfl | assumption

theorem kept_reply [κ.Out .management] {s₀ s : State} {cl : Client} {r : Reply} (h : Kept κ s₀ s) :
    Kept κ s₀ (State.reply s cl r) := by
  unfold State.reply
  repeat' first
    | intro _ | with_reducible apply kept_setView | with_reducible apply kept_bump | with_reducible apply kept_each
    | with_reducible apply kept_emit | with_reducible apply kept_ite | split | dsimp only
    | with_reducible assumption | refine kept_fst (by assumption) ?_ | refine kept_snd (by assumption) ?_
    | exact rfl | assumption | exact (Fact.out : κ .management = false)

theorem kept_take [κ.Out .management] {s₀ s : State} {cl : Client} (h : Kept κ s₀ s) :
    Kept κ s₀ (State.take s cl) := by
  unfold State.take
  repeat' first
    | intro _ | with_reducible apply kept_bump | with_reducible apply kept_setView
    | with_reducible apply kept_ite | split | dsimp only | with_reducible assumption
    | refine kept_fst (by assumption) ?_ | refine kept_snd (by assumption) ?_ | exact rfl | assumption
    | exact (Fact.out : κ .management = false)

theorem kept_dequeue [κ.Out .management] {s₀ s : State} {cl : Client} (h : Kept κ s₀ s) : Kept κ s₀ (s.dequeue cl)
    := by
  unfold State.dequeue
  split
  · exact kept_requests (.inl List.length_eraseP_le) h
  · exact kept_take h

theorem kept_ignore [κ.Out .events] [κ.Out .management] [κ.Out .housekeeping] [κ.Out .captures] {s₀ s : State}
    {_cl : Client} (h : Kept κ s₀ s) :
    Kept κ s₀ (State.ignore s _cl) := by
  unfold State.ignore
  repeat' first
    | intro _ | with_reducible apply kept_bump | with_reducible apply kept_raise
    | with_reducible apply kept_markSecond | with_reducible apply kept_ite | split | dsimp only
    | with_reducible assumption | refine kept_fst (by assumption) ?_ | refine kept_snd (by assumption) ?_
    | exact rfl | assumption | exact (Fact.out : κ .management = false)

theorem kept_duplicate [κ.Out .management] {s₀ s : State} {cl : Client} {x : Recent} (h : Kept κ s₀ s) :
    Kept κ s₀ (State.duplicate s cl x) := by
  unfold State.duplicate
  repeat' first
    | intro _ | with_reducible apply kept_bump | with_reducible apply kept_reply | with_reducible apply kept_emit
    | with_reducible apply kept_setView | with_reducible apply kept_ite | split | dsimp only
    | with_reducible assumption | refine kept_fst (by assumption) ?_ | refine kept_snd (by assumption) ?_
    | exact rfl | assumption | exact (Fact.out : κ .management = false)

theorem kept_answerMalformed [κ.Out .management]
    {s₀ : State} (n : Nat) {s : State} (h : Kept κ s₀ s) : Kept κ s₀ (State.answerMalformed n s) := by
  induction n generalizing s with
  | zero => exact h
  | succ n ih =>
    unfold State.answerMalformed
    split
    · rename_i e
      exact ih (kept_reply (kept_requests (.inl (by rw [e]; exact Nat.le_succ _)) h))
    · exact h

theorem kept_serve [κ.Out .events] [κ.Out .management] [κ.Out .housekeeping] [κ.Out .captures]
    {s₀ s : State} {cl : Client} {addr : Nat × Nat} {act : State → State × Answer}
    (h : Kept κ s₀ s) (hact : ∀ t, Kept κ s₀ t → Kept κ s₀ (act t).1) : Kept κ s₀ (s.serve cl addr act) := by
  unfold State.serve
  extract_lets x
  have k : Kept κ s₀ x := kept_ite (kept_answerMalformed _ h) h
  clear_value x
  split
  · dsimp only
    split
    · exact kept_ignore (kept_requests (.inl List.length_eraseP_le) (kept_hear k))
    · split
      · exact kept_duplicate (kept_hear k)
      · split <;> exact kept_reply (hact _ (kept_dequeue (kept_hear k)))
  · exact k

theorem kept_lengthRefused [κ.Out .events] [κ.Out .slots] [κ.Out .housekeeping] [κ.Out .captures] {s₀ s : State}
    {cl : Client} {r : Reg} {a : Answer} (h : Kept κ s₀ s) :
    Kept κ s₀ (State.lengthRefused s cl r a) := by
  unfold State.lengthRefused
  repeat' first
    | intro _ | with_reducible apply kept_set | with_reducible apply kept_raise | with_reducible apply kept_ite
    | split | dsimp only | with_reducible assumption | refine kept_fst (by assumption) ?_
    | refine kept_snd (by assumption) ?_ | exact rfl | assumption | exact (Fact.out : κ .slots = false)

theorem kept_serveWrite [κ.Out .events] [κ.Out .management] [κ.Out .housekeeping] [κ.Out .captures]
    {s₀ s : State} {cl : Client} {r : Reg} {i : Nat} {v : WVal} {eff : State → State × Answer}
    (h : Kept κ s₀ s) (heff : ∀ t, Kept κ s₀ t → Kept κ s₀ (eff t).1)
    (hl : r ≠ .slotLoad ∨ κ .slots = false := by first | exact .inl (by decide) | exact .inr Fact.out) :
    Kept κ s₀ (s.serveWrite cl r i v eff) := by
  unfold State.serveWrite
  split
  · exact kept_serve h fun t ht => ht
  · refine kept_serve h fun t ht => ?_
    have he := heff t ht
    split
    · dsimp only
      unfold State.lengthRefused
      split
      · rename_i hr
        have : κ.Out .slots := ⟨hl.resolve_left fun hn => hn hr.1⟩
        exact kept_raise (kept_set ht)
      · exact ht
    · split <;> rename_i e <;> rw [e] at he <;> exact he

theorem kept_serveRead [κ.Out .events] [κ.Out .management] [κ.Out .housekeeping] [κ.Out .captures] {s₀ s : State}
    {cl : Client} {r : Reg} {i : Nat} {value : State → List Byte} {eff : State → State}
    (h : Kept κ s₀ s) (heff : ∀ t, Kept κ s₀ t → Kept κ s₀ (eff t)) : Kept κ s₀ (s.serveRead cl r i value eff) := by
  unfold State.serveRead
  split
  · exact kept_serve h fun t ht => ht
  · refine kept_serve h fun t ht => ?_
    split
    · exact ht
    · exact heff t ht

theorem kept_storeReg {s₀ : State} {r : Reg} {i : Nat} {v : WVal} {s : State}
    (hr : κ (Safety.part r) = false := by
      first | assumption | ((conv in Safety.part _ => whnf); exact Fact.out) | exact leaves_none _)
    (h : Kept κ s₀ s) :
    Kept κ s₀ (storeReg r i v s).1 := by
  unfold storeReg
  repeat' first
    | intro _ | with_reducible apply kept_set | with_reducible apply kept_setBlob
    | with_reducible apply kept_ite | with_reducible apply kept_ite_fst | split | dsimp only
    | with_reducible assumption | refine kept_fst (by assumption) ?_ | refine kept_snd (by assumption) ?_
    | exact rfl | assumption

end Sys2Proof.Laws
end

