-- ==== Sys2Proof/Laws/Kept/Banks.lean ====
section
/-! SUPPORT. Every operation of Machine/Banks.lean keeps (Laws/Kept.lean). -/

set_option Elab.async false
set_option linter.unusedTactic false
set_option linter.unreachableTactic false
set_option linter.unusedVariables false

namespace Sys2Proof.Laws

open Sys2Proof.Machine

variable {κ : Scope}

theorem kept_writeStandby [κ.Out .banks] {s₀ s : State} {b : Nat} {v : List Byte} (h : Kept κ s₀ s) :
    Kept κ s₀ (writeStandby b v s).1 := by
  unfold writeStandby
  repeat' first
    | intro _ | with_reducible apply kept_setBlob | with_reducible apply kept_setBankNumbers
    | with_reducible apply kept_ite | with_reducible apply kept_ite_fst | split | dsimp only
    | with_reducible assumption | refine kept_fst (by assumption) ?_ | refine kept_snd (by assumption) ?_
    | exact rfl | assumption | exact (Fact.out : κ .banks = false)

theorem kept_execBankStandbyWrite [κ.Out .events] [κ.Out .management] [κ.Out .banks] [κ.Out .housekeeping]
    [κ.Out .captures] {s₀ : State} {cl : Client} {b : Fin 72} {v : List Byte} {s : State} (h : Kept κ s₀ s) :
    KeptO κ s₀ (execBankStandbyWrite cl b v s) := by
  unfold execBankStandbyWrite
  repeat' first
    | intro _ | with_reducible apply kept_next | with_reducible refine kept_serveWrite ?_ ?_ (by first | exact .inl (by decide) | exact .inr Fact.out)
    | with_reducible apply kept_writeStandby | with_reducible apply kept_ite | split | dsimp only
    | with_reducible assumption | refine kept_fst (by assumption) ?_ | refine kept_snd (by assumption) ?_
    | exact rfl | assumption

theorem kept_writeCommit [κ.Out .banks] {s₀ s : State} {b : Nat} {v : Int} (h : Kept κ s₀ s) :
    Kept κ s₀ (writeCommit b v s).1 := by
  unfold writeCommit
  repeat' first
    | intro _ | with_reducible apply kept_set | with_reducible apply kept_refreshBusy
    | with_reducible apply kept_ite | with_reducible apply kept_ite_fst | split | dsimp only
    | with_reducible assumption | refine kept_fst (by assumption) ?_ | refine kept_snd (by assumption) ?_
    | exact rfl | assumption | exact (Fact.out : κ .banks = false)

theorem kept_execBankCommitSwap [κ.Out .events] [κ.Out .management] [κ.Out .banks] [κ.Out .housekeeping]
    [κ.Out .captures] {s₀ : State} {cl : Client} {b : Fin 72} {s : State} (h : Kept κ s₀ s) :
    KeptO κ s₀ (execBankCommitSwap cl b s) := by
  unfold execBankCommitSwap
  repeat' first
    | intro _ | with_reducible apply kept_next | with_reducible refine kept_serveWrite ?_ ?_ (by first | exact .inl (by decide) | exact .inr Fact.out)
    | with_reducible apply kept_writeCommit | with_reducible apply kept_ite | split | dsimp only
    | with_reducible assumption | refine kept_fst (by assumption) ?_ | refine kept_snd (by assumption) ?_
    | exact rfl | assumption

theorem kept_execBankCommitCrossfade [κ.Out .events] [κ.Out .management] [κ.Out .banks] [κ.Out .housekeeping]
    [κ.Out .captures] {s₀ : State} {cl : Client} {b : Fin 72} {s : State} (h : Kept κ s₀ s) :
    KeptO κ s₀ (execBankCommitCrossfade cl b s) := by
  unfold execBankCommitCrossfade
  repeat' first
    | intro _ | with_reducible apply kept_next | with_reducible refine kept_serveWrite ?_ ?_ (by first | exact .inl (by decide) | exact .inr Fact.out)
    | with_reducible apply kept_writeCommit | with_reducible apply kept_ite | split | dsimp only
    | with_reducible assumption | refine kept_fst (by assumption) ?_ | refine kept_snd (by assumption) ?_
    | exact rfl | assumption

theorem kept_bankStart [κ.Out .banks] {s₀ s : State} {b : Nat} (h : Kept κ s₀ s) :
    Kept κ s₀ (State.bankStart s b) := by
  unfold State.bankStart
  repeat' first
    | intro _ | with_reducible apply kept_set | with_reducible apply kept_refreshBusy
    | with_reducible apply kept_ite | split | dsimp only | with_reducible assumption
    | refine kept_fst (by assumption) ?_ | refine kept_snd (by assumption) ?_ | exact rfl | assumption
    | exact (Fact.out : κ .banks = false)

theorem kept_trackStart [κ.Out .banks] [κ.Out .dispersion] {s₀ s : State} {c : Nat} (h : Kept κ s₀ s) :
    Kept κ s₀ (State.trackStart s c) := by
  unfold State.trackStart
  repeat' first
    | intro _ | with_reducible apply kept_set | with_reducible apply kept_bankStart | with_reducible apply kept_ite
    | split | dsimp only | with_reducible assumption | refine kept_fst (by assumption) ?_
    | refine kept_snd (by assumption) ?_ | exact rfl | assumption | exact (Fact.out : κ .dispersion = false)

theorem kept_fadeEnd [κ.Out .events] [κ.Out .banks] [κ.Out .dispersion] [κ.Out .equaliser] [κ.Out .monitors]
    [κ.Out .housekeeping] [κ.Out .captures] {s₀ s : State} {b : Nat} (h : Kept κ s₀ s) :
    Kept κ s₀ (State.fadeEnd s b) := by
  unfold State.fadeEnd
  repeat' first
    | intro _ | with_reducible apply kept_bankSwap | with_reducible apply kept_trackDone
    | with_reducible apply kept_refreshRx | with_reducible apply kept_trackStart | with_reducible apply kept_ite
    | split | dsimp only | with_reducible assumption | refine kept_fst (by assumption) ?_
    | refine kept_snd (by assumption) ?_ | exact rfl | assumption

theorem kept_execCrossfadeEnd [κ.Out .events] [κ.Out .banks] [κ.Out .dispersion] [κ.Out .equaliser] [κ.Out .monitors]
    [κ.Out .housekeeping] [κ.Out .captures]
    {s₀ : State}
    {b : Fin 72} {s : State} (h : Kept κ s₀ s) :
    KeptO κ s₀ (execCrossfadeEnd b s) := by
  unfold execCrossfadeEnd
  repeat' first
    | intro _ | with_reducible apply kept_next | with_reducible apply kept_live
    | with_reducible apply kept_fadeEnd | with_reducible apply kept_ite | split | dsimp only
    | with_reducible assumption | refine kept_fst (by assumption) ?_ | refine kept_snd (by assumption) ?_
    | exact rfl | assumption

theorem kept_bankReady [κ.Out .banks] [κ.Out .dispersion] {s₀ s : State} {b : Nat} (h : Kept κ s₀ s) :
    Kept κ s₀ (State.bankReady s b) := by
  unfold State.bankReady
  repeat' first
    | intro _ | with_reducible apply kept_bankFill | with_reducible apply kept_bankSwap
    | with_reducible apply kept_set | with_reducible apply kept_refreshBusy | with_reducible apply kept_ite | split
    | dsimp only | with_reducible assumption | refine kept_fst (by assumption) ?_
    | refine kept_snd (by assumption) ?_ | exact rfl | assumption | exact (Fact.out : κ .banks = false)

theorem kept_execBankComputeComplete [κ.Out .banks] [κ.Out .dispersion] {s₀ : State} {b : Fin 72} {s : State}
    (h : Kept κ s₀ s) :
    KeptO κ s₀ (execBankComputeComplete b s) := by
  unfold execBankComputeComplete
  repeat' first
    | intro _ | with_reducible apply kept_next | with_reducible apply kept_live
    | with_reducible apply kept_bankReady | with_reducible apply kept_ite | split | dsimp only
    | with_reducible assumption | refine kept_fst (by assumption) ?_ | refine kept_snd (by assumption) ?_
    | exact rfl | assumption

theorem kept_parameterWritten [κ.Out .banks] {s₀ s : State} {b : Nat} (h : Kept κ s₀ s) :
    Kept κ s₀ (State.parameterWritten s b) := by
  unfold State.parameterWritten
  repeat' first
    | intro _ | with_reducible apply kept_bankStart | with_reducible apply kept_ite | split | dsimp only
    | with_reducible assumption | refine kept_fst (by assumption) ?_ | refine kept_snd (by assumption) ?_
    | exact rfl | assumption

theorem kept_writeRolloff [κ.Out .banks] {s₀ s : State} {c : Nat} {v : Int} (h : Kept κ s₀ s) :
    Kept κ s₀ (writeRolloff c v s).1 := by
  unfold writeRolloff
  repeat' first
    | intro _ | with_reducible apply kept_set | with_reducible apply kept_parameterWritten
    | with_reducible apply kept_ite | with_reducible apply kept_ite_fst | split | dsimp only
    | with_reducible assumption | refine kept_fst (by assumption) ?_ | refine kept_snd (by assumption) ?_
    | exact rfl | assumption | exact (Fact.out : κ .banks = false)

theorem kept_bankMode [κ.Out .banks] {s₀ s : State} {b : Nat} {v : Int} (h : Kept κ s₀ s) :
    Kept κ s₀ (State.bankMode s b v) := by
  unfold State.bankMode
  repeat' first
    | intro _ | with_reducible apply kept_bankAbandon | with_reducible apply kept_set
    | with_reducible apply kept_bankStart | with_reducible apply kept_ite | split | dsimp only
    | with_reducible assumption | refine kept_fst (by assumption) ?_ | refine kept_snd (by assumption) ?_
    | exact rfl | assumption | exact (Fact.out : κ .banks = false)

theorem kept_writeShapeMode [κ.Out .banks] {s₀ : State} {c : Nat} {v : Int} {s : State} (h : Kept κ s₀ s) :
    Kept κ s₀ (writeShapeMode c v s).1 := by
  unfold writeShapeMode
  repeat' first
    | intro _ | with_reducible apply kept_bankMode | with_reducible apply kept_set
    | with_reducible apply kept_ite | with_reducible apply kept_ite_fst | split | dsimp only
    | with_reducible assumption | refine kept_fst (by assumption) ?_ | refine kept_snd (by assumption) ?_
    | exact rfl | assumption | exact (Fact.out : κ .banks = false)

theorem kept_writeTxCdMode [κ.Out .banks] {s₀ : State} {c : Nat} {v : Int} {s : State} (h : Kept κ s₀ s) :
    Kept κ s₀ (writeTxCdMode c v s).1 := by
  unfold writeTxCdMode
  repeat' first
    | intro _ | with_reducible apply kept_bankMode | with_reducible apply kept_set
    | with_reducible apply kept_ite | with_reducible apply kept_ite_fst | split | dsimp only
    | with_reducible assumption | refine kept_fst (by assumption) ?_ | refine kept_snd (by assumption) ?_
    | exact rfl | assumption | exact (Fact.out : κ .banks = false)

theorem kept_writeTxCdTarget [κ.Out .banks] {s₀ s : State} {c : Nat} {v : Int} (h : Kept κ s₀ s) :
    Kept κ s₀ (writeTxCdTarget c v s).1 := by
  unfold writeTxCdTarget
  repeat' first
    | intro _ | with_reducible apply kept_set | with_reducible apply kept_parameterWritten
    | with_reducible apply kept_ite | with_reducible apply kept_ite_fst | split | dsimp only
    | with_reducible assumption | refine kept_fst (by assumption) ?_ | refine kept_snd (by assumption) ?_
    | exact rfl | assumption | exact (Fact.out : κ .banks = false)

theorem kept_writeTxCdFrequency [κ.Out .banks] {s₀ s : State} {c : Nat} {v : Int} (h : Kept κ s₀ s) :
    Kept κ s₀ (writeTxCdFrequency c v s).1 := by
  unfold writeTxCdFrequency
  repeat' first
    | intro _ | with_reducible apply kept_set | with_reducible apply kept_parameterWritten
    | with_reducible apply kept_ite | with_reducible apply kept_ite_fst | split | dsimp only
    | with_reducible assumption | refine kept_fst (by assumption) ?_ | refine kept_snd (by assumption) ?_
    | exact rfl | assumption | exact (Fact.out : κ .banks = false)

theorem kept_trackAbandon [κ.Out .dispersion] {s₀ s : State} {c : Nat} (h : Kept κ s₀ s) :
    Kept κ s₀ (State.trackAbandon s c) := by
  unfold State.trackAbandon
  repeat' first
    | intro _ | with_reducible apply kept_set | with_reducible apply kept_ite | split | dsimp only
    | with_reducible assumption | refine kept_fst (by assumption) ?_ | refine kept_snd (by assumption) ?_
    | exact rfl | assumption | exact (Fact.out : κ .dispersion = false)

theorem kept_writeCdTarget [κ.Out .banks] [κ.Out .dispersion] {s₀ s : State} {c : Nat} {v : Int} (h : Kept κ s₀ s) :
    Kept κ s₀ (writeCdTarget c v s).1 := by
  unfold writeCdTarget
  repeat' first
    | intro _ | with_reducible apply kept_set | with_reducible apply kept_trackAbandon
    | with_reducible apply kept_setFlag | with_reducible apply kept_parameterWritten
    | with_reducible apply kept_refreshApplied | with_reducible apply kept_ite | with_reducible apply kept_ite_fst
    | split | dsimp only | with_reducible assumption | refine kept_fst (by assumption) ?_
    | refine kept_snd (by assumption) ?_ | exact rfl | assumption | exact (Fact.out : κ .dispersion = false)

theorem kept_writeCdFrequency [κ.Out .banks] [κ.Out .dispersion] {s₀ s : State} {c : Nat} {v : Int} (h : Kept κ s₀ s) :
    Kept κ s₀ (writeCdFrequency c v s).1 := by
  unfold writeCdFrequency
  repeat' first
    | intro _ | with_reducible apply kept_set | with_reducible apply kept_trackAbandon
    | with_reducible apply kept_parameterWritten | with_reducible apply kept_ite
    | with_reducible apply kept_ite_fst | split | dsimp only | with_reducible assumption
    | refine kept_fst (by assumption) ?_ | refine kept_snd (by assumption) ?_ | exact rfl | assumption
    | exact (Fact.out : κ .dispersion = false)

theorem kept_writeCdMode [κ.Out .banks] [κ.Out .dispersion] {s₀ s : State} {c : Nat} {v : Int} (h : Kept κ s₀ s) :
    Kept κ s₀ (writeCdMode c v s).1 := by
  unfold writeCdMode
  repeat' first
    | intro _ | with_reducible apply kept_set | with_reducible apply kept_trackAbandon
    | with_reducible apply kept_bankAbandon | with_reducible apply kept_bankStart
    | with_reducible apply kept_refreshApplied | with_reducible apply kept_ite | with_reducible apply kept_ite_fst
    | split | dsimp only | with_reducible assumption | refine kept_fst (by assumption) ?_
    | refine kept_snd (by assumption) ?_ | exact rfl | assumption | exact (Fact.out : κ .banks = false)
    | exact (Fact.out : κ .dispersion = false)

theorem kept_trimChannel [κ.Out .frontEnd] {s₀ s : State} {c : Nat} {j : Nat} {res : Int} (h : Kept κ s₀ s) :
    Kept κ s₀ (State.trimChannel s c j res) := by
  unfold State.trimChannel
  repeat' first
    | intro _ | with_reducible apply kept_set | with_reducible apply kept_bump | with_reducible apply kept_ite
    | split | dsimp only | with_reducible assumption | refine kept_fst (by assumption) ?_
    | refine kept_snd (by assumption) ?_ | exact rfl | assumption
    | (unfold rxSkewReg; split_ifs <;> exact (Fact.out : κ .frontEnd = false))
    | exact (Fact.out : κ .frontEnd = false)

theorem kept_writeRxSkew [κ.Out .frontEnd] {s₀ s : State} {r : Reg} {c : Nat} {j : Nat} {v : Int} (h : Kept κ s₀ s)
    (hr : κ (Safety.part r) = false := by first | assumption | ((conv in Safety.part _ => whnf); exact Fact.out) | exact leaves_none _) :
    Kept κ s₀ (writeRxSkew r c j v s).1 := by
  unfold writeRxSkew
  repeat' first
    | intro _ | with_reducible apply kept_set | with_reducible apply kept_ite | with_reducible apply kept_ite_fst
    | split | dsimp only | with_reducible assumption | refine kept_fst (by assumption) ?_
    | refine kept_snd (by assumption) ?_ | exact rfl | assumption | exact (Fact.out : κ .frontEnd = false)

theorem kept_autoTrim [κ.Out .dispersion] [κ.Out .frontEnd] [κ.Out .equaliser] {s₀ s : State} {c : Nat}
    {residual : Vector Int 4} (h : Kept κ s₀ s) :
    Kept κ s₀ (State.autoTrim s c residual) := by
  unfold State.autoTrim
  repeat' first
    | intro _ | with_reducible apply kept_set | with_reducible apply kept_setBit
    | with_reducible apply kept_refreshRx | with_reducible apply kept_each | with_reducible apply kept_trimChannel
    | with_reducible apply kept_ite | split | dsimp only | with_reducible assumption
    | refine kept_fst (by assumption) ?_ | refine kept_snd (by assumption) ?_ | exact rfl | assumption
    | (unfold rxResidualReg; split_ifs <;> exact (Fact.out : κ .frontEnd = false))
    | exact (Fact.out : κ .dispersion = false) | exact (Fact.out : κ .equaliser = false)

theorem kept_execDeskewAutoTrim [κ.Out .dispersion] [κ.Out .frontEnd] [κ.Out .equaliser]
    {s₀ : State} {c : Fin 12} {residual : Vector Int 4} {s : State}
    (h : Kept κ s₀ s) :
    KeptO κ s₀ (execDeskewAutoTrim c residual s) := by
  unfold execDeskewAutoTrim
  repeat' first
    | intro _ | with_reducible apply kept_next | with_reducible apply kept_live
    | with_reducible apply kept_autoTrim | with_reducible apply kept_ite | split | dsimp only
    | with_reducible assumption | refine kept_fst (by assumption) ?_ | refine kept_snd (by assumption) ?_
    | exact rfl | assumption

end Sys2Proof.Laws
end

