-- ==== Sys2Proof/Laws/Kept/Trib.lean ====
section
/-! SUPPORT. Every operation of Machine/Trib.lean keeps (Laws/Kept.lean). -/

set_option Elab.async false
set_option linter.unusedTactic false
set_option linter.unreachableTactic false
set_option linter.unusedVariables false

namespace Sys2Proof.Laws

open Sys2Proof.Machine

variable {κ : Scope}

theorem kept_assertEval [κ.Out .flows] {s₀ s : State} {f : Nat} (h : Kept κ s₀ s) :
    Kept κ s₀ (State.assertEval s f) := by
  unfold State.assertEval
  repeat' first
    | intro _ | with_reducible apply kept_set | with_reducible apply kept_ite | split | dsimp only
    | with_reducible assumption | refine kept_fst (by assumption) ?_ | refine kept_snd (by assumption) ?_
    | exact rfl | assumption | exact (Fact.out : κ .flows = false)

theorem kept_sendPfc [κ.Out .ports] {s₀ s : State} {p : Nat} {vector : Nat} {paused : Nat} (h : Kept κ s₀ s) :
    Kept κ s₀ (State.sendPfc s p vector paused) := by
  unfold State.sendPfc
  repeat' first
    | intro _ | with_reducible apply kept_emit | with_reducible apply kept_bump | with_reducible apply kept_ite
    | split | dsimp only | with_reducible assumption | refine kept_fst (by assumption) ?_
    | refine kept_snd (by assumption) ?_ | exact rfl | assumption | exact (Fact.out : κ .ports = false)

theorem kept_pfcEval [κ.Out .ports] {s₀ s : State} {p : Nat} (h : Kept κ s₀ s) :
    Kept κ s₀ (State.pfcEval s p) := by
  unfold State.pfcEval
  repeat' first
    | intro _ | with_reducible apply kept_set | with_reducible apply kept_sendPfc
    | with_reducible apply kept_ite | split | dsimp only | with_reducible assumption
    | refine kept_fst (by assumption) ?_ | refine kept_snd (by assumption) ?_ | exact rfl | assumption
    | exact (Fact.out : κ .ports = false)

theorem kept_poolMove [κ.Out .events] [κ.Out .ports] [κ.Out .flows] [κ.Out .housekeeping] [κ.Out .captures]
    {s₀ s : State} {was : Nat} {used : Nat} (h : Kept κ s₀ s) :
    Kept κ s₀ (State.poolMove s was used) := by
  unfold State.poolMove
  extract_lets x1 x2 x3 x4 x5
  have k1 : Kept κ s₀ x1 := by
    unfold x1
    repeat' first
      | intro _ | with_reducible apply kept_set | with_reducible apply kept_trough
      | with_reducible apply kept_raise | with_reducible apply kept_setFlag | with_reducible apply kept_each
      | with_reducible apply kept_pfcEval | with_reducible apply kept_ite | split | dsimp only
      | with_reducible assumption | refine kept_fst (by assumption) ?_ | refine kept_snd (by assumption) ?_
      | exact rfl | assumption | exact (Fact.out : κ .flows = false)
  clear_value x1
  have k2 : Kept κ s₀ x2 := by
    unfold x2
    repeat' first
      | intro _ | with_reducible apply kept_set | with_reducible apply kept_trough
      | with_reducible apply kept_raise | with_reducible apply kept_setFlag | with_reducible apply kept_each
      | with_reducible apply kept_pfcEval | with_reducible apply kept_ite | split | dsimp only
      | with_reducible assumption | refine kept_fst (by assumption) ?_ | refine kept_snd (by assumption) ?_
      | exact rfl | assumption | exact (Fact.out : κ .flows = false)
  clear_value x2
  have k4 : Kept κ s₀ x4 := by
    unfold x4
    repeat' first
      | intro _ | with_reducible apply kept_set | with_reducible apply kept_trough
      | with_reducible apply kept_raise | with_reducible apply kept_setFlag | with_reducible apply kept_each
      | with_reducible apply kept_pfcEval | with_reducible apply kept_ite | split | dsimp only
      | with_reducible assumption | refine kept_fst (by assumption) ?_ | refine kept_snd (by assumption) ?_
      | exact rfl | assumption | exact (Fact.out : κ .flows = false)
  clear_value x4
  repeat' first
    | intro _ | with_reducible apply kept_set | with_reducible apply kept_trough
    | with_reducible apply kept_raise | with_reducible apply kept_setFlag | with_reducible apply kept_each
    | with_reducible apply kept_pfcEval | with_reducible apply kept_ite | split | dsimp only
    | with_reducible assumption | refine kept_fst (by assumption) ?_ | refine kept_snd (by assumption) ?_
    | exact rfl | assumption | exact (Fact.out : κ .flows = false)

theorem kept_passMarks [κ.Out .flows] {s₀ s : State} {f : Nat} {n : Nat} (h : Kept κ s₀ s) :
    Kept κ s₀ (State.passMarks s f n) := by
  unfold State.passMarks
  repeat' first
    | intro _ | with_reducible apply kept_setBlob | with_reducible apply kept_ite | split | dsimp only
    | with_reducible assumption | refine kept_fst (by assumption) ?_ | refine kept_snd (by assumption) ?_
    | exact rfl | assumption | exact (Fact.out : κ .flows = false)

theorem kept_setFill [κ.Out .events] [κ.Out .ports] [κ.Out .flows] [κ.Out .housekeeping] [κ.Out .captures]
    {s₀ s : State} {f : Nat} {o : Nat} {n : Nat} (h : Kept κ s₀ s) :
    Kept κ s₀ (State.setFill s f o n) := by
  unfold State.setFill
  extract_lets x1 x2 x3 x4 x5
  have k2 : Kept κ s₀ x2 := by
    unfold x2
    repeat' first
      | intro _ | with_reducible apply kept_setBlob | with_reducible apply kept_passMarks
      | with_reducible apply kept_set | with_reducible apply kept_peak | with_reducible apply kept_poolMove
      | with_reducible apply kept_assertEval | with_reducible apply kept_pfcEval | with_reducible apply kept_ite
      | split | dsimp only | with_reducible assumption | refine kept_fst (by assumption) ?_
      | refine kept_snd (by assumption) ?_ | exact rfl | assumption | exact (Fact.out : κ .flows = false)
  clear_value x2
  have k4 : Kept κ s₀ x4 := by
    unfold x4
    repeat' first
      | intro _ | with_reducible apply kept_setBlob | with_reducible apply kept_passMarks
      | with_reducible apply kept_set | with_reducible apply kept_peak | with_reducible apply kept_poolMove
      | with_reducible apply kept_assertEval | with_reducible apply kept_pfcEval | with_reducible apply kept_ite
      | split | dsimp only | with_reducible assumption | refine kept_fst (by assumption) ?_
      | refine kept_snd (by assumption) ?_ | exact rfl | assumption | exact (Fact.out : κ .flows = false)
  clear_value x4
  have k5 : Kept κ s₀ x5 := by
    unfold x5
    repeat' first
      | intro _ | with_reducible apply kept_setBlob | with_reducible apply kept_passMarks
      | with_reducible apply kept_set | with_reducible apply kept_peak | with_reducible apply kept_poolMove
      | with_reducible apply kept_assertEval | with_reducible apply kept_pfcEval | with_reducible apply kept_ite
      | split | dsimp only | with_reducible assumption | refine kept_fst (by assumption) ?_
      | refine kept_snd (by assumption) ?_ | exact rfl | assumption | exact (Fact.out : κ .flows = false)
  clear_value x5
  repeat' first
    | intro _ | with_reducible apply kept_setBlob | with_reducible apply kept_passMarks
    | with_reducible apply kept_set | with_reducible apply kept_peak | with_reducible apply kept_poolMove
    | with_reducible apply kept_assertEval | with_reducible apply kept_pfcEval | with_reducible apply kept_ite
    | split | dsimp only | with_reducible assumption | refine kept_fst (by assumption) ?_
    | refine kept_snd (by assumption) ?_ | exact rfl | assumption | exact (Fact.out : κ .flows = false)

theorem kept_setTaken [κ.Out .flows] {s₀ s : State} {f : Nat} {l : List Byte} (h : Kept κ s₀ s) :
    Kept κ s₀ (State.setTaken s f l) := by
  unfold State.setTaken
  repeat' first
    | intro _ | with_reducible apply kept_ite | split | dsimp only | with_reducible assumption
    | with_reducible apply kept_flowTaken | refine kept_fst (by assumption) ?_ | refine kept_snd (by assumption) ?_
    | exact rfl | assumption | exact (Fact.out : κ .flows = false)

theorem kept_putQueue [κ.Out .events] [κ.Out .ports] [κ.Out .flows] [κ.Out .housekeeping] [κ.Out .captures]
    {s₀ s : State} {f : Nat} {q : List Stored} {n : Nat} (h : Kept κ s₀ s) :
    Kept κ s₀ (State.putQueue s f q n) := by
  unfold State.putQueue
  repeat' first
    | intro _ | with_reducible apply kept_setTaken | with_reducible apply kept_setFill
    | with_reducible apply kept_ite | split | dsimp only | with_reducible assumption
    | with_reducible apply kept_flowQueue | refine kept_fst (by assumption) ?_ | refine kept_snd (by assumption) ?_
    | exact rfl | assumption | exact (Fact.out : κ .flows = false)

theorem kept_putWords [κ.Out .events] [κ.Out .ports] [κ.Out .flows] [κ.Out .housekeeping] [κ.Out .captures]
    {s₀ s : State} {f : Nat} {q : List Nat} {n : Nat} (h : Kept κ s₀ s) :
    Kept κ s₀ (State.putWords s f q n) := by
  unfold State.putWords
  repeat' first
    | intro _ | with_reducible apply kept_setFill | with_reducible apply kept_ite | split | dsimp only
    | with_reducible assumption | with_reducible apply kept_flowWords | refine kept_fst (by assumption) ?_
    | refine kept_snd (by assumption) ?_ | exact rfl | assumption

theorem kept_flushFlow [κ.Out .events] [κ.Out .ports] [κ.Out .flows] [κ.Out .housekeeping] [κ.Out .captures]
    {s₀ s : State} {f : Nat} (h : Kept κ s₀ s) :
    Kept κ s₀ (State.flushFlow s f) := by
  unfold State.flushFlow
  repeat' first
    | intro _ | with_reducible apply kept_putWords | with_reducible apply kept_putQueue
    | with_reducible apply kept_bump | with_reducible apply kept_ite | split | dsimp only
    | with_reducible assumption | refine kept_fst (by assumption) ?_ | refine kept_snd (by assumption) ?_
    | exact rfl | assumption | exact (Fact.out : κ .flows = false)

theorem kept_flushAll [κ.Out .events] [κ.Out .ports] [κ.Out .flows] [κ.Out .housekeeping] [κ.Out .captures]
    {s₀ s : State} (h : Kept κ s₀ s) :
    Kept κ s₀ (State.flushAll s) := by
  unfold State.flushAll
  repeat' first
    | intro _ | with_reducible apply kept_each | with_reducible apply kept_flushFlow
    | with_reducible apply kept_ite | split | dsimp only | with_reducible assumption
    | refine kept_fst (by assumption) ?_ | refine kept_snd (by assumption) ?_ | exact rfl | assumption

theorem kept_setWords [κ.Out .tributaries] {s₀ s : State} {t : Nat} {l : List Nat} (h : Kept κ s₀ s) :
    Kept κ s₀ (State.setWords s t l) := by
  unfold State.setWords
  repeat' first
    | intro _ | with_reducible apply kept_ite | split | dsimp only | with_reducible assumption
    | with_reducible apply kept_tribWords | refine kept_fst (by assumption) ?_ | refine kept_snd (by assumption) ?_
    | exact rfl | assumption | exact (Fact.out : κ .tributaries = false)

theorem kept_setRxTrib [κ.Out .tributaries] {s₀ s : State} {t : Nat} {x : RxTrib} (h : Kept κ s₀ s) :
    Kept κ s₀ (State.setRxTrib s t x) := by
  unfold State.setRxTrib
  repeat' first
    | intro _ | with_reducible apply kept_ite | split | dsimp only | with_reducible assumption
    | with_reducible apply kept_rxTribs | refine kept_fst (by assumption) ?_ | refine kept_snd (by assumption) ?_
    | exact rfl | assumption | exact (Fact.out : κ .tributaries = false)

theorem kept_setEgress [κ.Out .ports] {s₀ s : State} {p : Nat} {l : List Block66} {owed : Bool} (h : Kept κ s₀ s) :
    Kept κ s₀ (State.setEgress s p l owed) := by
  unfold State.setEgress
  repeat' first
    | intro _ | with_reducible apply kept_set | with_reducible apply kept_setFlag | with_reducible apply kept_ite
    | split | dsimp only | with_reducible assumption | with_reducible apply kept_egressBlocks
    | refine kept_fst (by assumption) ?_ | refine kept_snd (by assumption) ?_ | exact rfl | assumption
    | exact (Fact.out : κ .ports = false)

theorem kept_putTribQueue [κ.Out .events] [κ.Out .ports] [κ.Out .flows] [κ.Out .tributaries] [κ.Out .housekeeping]
    [κ.Out .captures] {s₀ s : State} {t : Nat} {q : List Stored} {n : Nat} (h : Kept κ s₀ s) :
    Kept κ s₀ (State.putTribQueue s t q n) := by
  unfold State.putTribQueue
  extract_lets x1 x2 x3 x4 x5 x6 x7
  have k5 : Kept κ s₀ x5 := by
    unfold x5
    repeat' first
      | intro _ | with_reducible apply kept_setBlob | with_reducible apply kept_set
      | with_reducible apply kept_poolMove | with_reducible apply kept_ite | split | dsimp only
      | with_reducible assumption | with_reducible apply kept_tribQueue | with_reducible apply kept_tribTaken
      | refine kept_fst (by assumption) ?_ | refine kept_snd (by assumption) ?_ | exact rfl | assumption
      | exact (Fact.out : κ .tributaries = false)
  clear_value x5
  have k6 : Kept κ s₀ x6 := by
    unfold x6
    repeat' first
      | intro _ | with_reducible apply kept_setBlob | with_reducible apply kept_set
      | with_reducible apply kept_poolMove | with_reducible apply kept_ite | split | dsimp only
      | with_reducible assumption | with_reducible apply kept_tribQueue | with_reducible apply kept_tribTaken
      | refine kept_fst (by assumption) ?_ | refine kept_snd (by assumption) ?_ | exact rfl | assumption
      | exact (Fact.out : κ .tributaries = false)
  clear_value x6
  have k7 : Kept κ s₀ x7 := by
    unfold x7
    repeat' first
      | intro _ | with_reducible apply kept_setBlob | with_reducible apply kept_set
      | with_reducible apply kept_poolMove | with_reducible apply kept_ite | split | dsimp only
      | with_reducible assumption | with_reducible apply kept_tribQueue | with_reducible apply kept_tribTaken
      | refine kept_fst (by assumption) ?_ | refine kept_snd (by assumption) ?_ | exact rfl | assumption
      | exact (Fact.out : κ .tributaries = false)
  clear_value x7
  repeat' first
    | intro _ | with_reducible apply kept_setBlob | with_reducible apply kept_set
    | with_reducible apply kept_poolMove | with_reducible apply kept_ite | split | dsimp only
    | with_reducible assumption | with_reducible apply kept_tribQueue | with_reducible apply kept_tribTaken
    | refine kept_fst (by assumption) ?_ | refine kept_snd (by assumption) ?_ | exact rfl | assumption
    | exact (Fact.out : κ .tributaries = false)

theorem kept_dropTribQueue [κ.Out .events] [κ.Out .ports] [κ.Out .flows] [κ.Out .tributaries] [κ.Out .housekeeping]
    [κ.Out .captures] {s₀ s : State} {t : Nat} (h : Kept κ s₀ s) :
    Kept κ s₀ (State.dropTribQueue s t) := by
  unfold State.dropTribQueue
  repeat' first
    | intro _ | with_reducible apply kept_bump | with_reducible apply kept_putTribQueue
    | with_reducible apply kept_ite | split | dsimp only | with_reducible assumption
    | refine kept_fst (by assumption) ?_ | refine kept_snd (by assumption) ?_ | exact rfl | assumption
    | exact (Fact.out : κ .tributaries = false)

theorem kept_markTrib [κ.Out .tributaries] {s₀ s : State} {t : Nat} {k : Nat} (h : Kept κ s₀ s) :
    Kept κ s₀ (State.markTrib s t k) := by
  unfold State.markTrib
  repeat' first
    | intro _ | with_reducible apply kept_setBlob | with_reducible apply kept_ite | split | dsimp only
    | with_reducible assumption | refine kept_fst (by assumption) ?_ | refine kept_snd (by assumption) ?_
    | exact rfl | assumption | exact (Fact.out : κ .tributaries = false)

theorem kept_takeTrib [κ.Out .events] [κ.Out .ports] [κ.Out .flows] [κ.Out .tributaries] [κ.Out .housekeeping]
    [κ.Out .captures] {s₀ s : State} {t : Nat} {x : Stored} {q : List Stored} (h : Kept κ s₀ s) :
    Kept κ s₀ (State.takeTrib s t x q).1 := by
  unfold State.takeTrib
  repeat' first
    | intro _ | with_reducible apply kept_when | with_reducible apply kept_setBlob
    | with_reducible apply kept_putTribQueue | with_reducible apply kept_ite | with_reducible apply kept_ite_fst
    | split | dsimp only | with_reducible assumption | refine kept_fst (by assumption) ?_
    | refine kept_snd (by assumption) ?_ | exact rfl | assumption | exact (Fact.out : κ .tributaries = false)

theorem kept_custodyAt [κ.Out .events] [κ.Out .housekeeping] [κ.Out .custody] [κ.Out .captures] {s₀ s : State}
    {point : Nat} {t : Nat} {c : Option Nat} {n : Nat} {flow : Option Nat} (h : Kept κ s₀ s) :
    Kept κ s₀ (State.custodyAt s point t c n flow) := by
  unfold State.custodyAt
  repeat' first
    | intro _ | with_reducible apply kept_bump | with_reducible apply kept_markSecond
    | with_reducible apply kept_raise | with_reducible apply kept_ite | split | dsimp only
    | with_reducible assumption | refine kept_fst (by assumption) ?_ | refine kept_snd (by assumption) ?_
    | exact rfl | assumption | exact (Fact.out : κ .custody = false)

theorem kept_custodyFailed [κ.Out .events] [κ.Out .housekeeping] [κ.Out .custody] [κ.Out .captures] {s₀ s : State}
    {point : Nat} {t : Nat} {n : Nat} {flow : Option Nat} (h : Kept κ s₀ s) :
    Kept κ s₀ (State.custodyFailed s point t n flow) := by
  unfold State.custodyFailed
  repeat' first
    | intro _ | with_reducible apply kept_custodyAt | with_reducible apply kept_ite | split | dsimp only
    | with_reducible assumption | refine kept_fst (by assumption) ?_ | refine kept_snd (by assumption) ?_
    | exact rfl | assumption

theorem kept_slip [κ.Out .events] [κ.Out .calendar] [κ.Out .housekeeping] [κ.Out .captures] {s₀ s : State} {t : Nat}
    {n : Nat} (h : Kept κ s₀ s) :
    Kept κ s₀ (State.slip s t n) := by
  unfold State.slip
  repeat' first
    | intro _ | with_reducible apply kept_raise | with_reducible apply kept_bump | with_reducible apply kept_ite
    | split | dsimp only | with_reducible assumption | refine kept_fst (by assumption) ?_
    | refine kept_snd (by assumption) ?_ | exact rfl | assumption | exact (Fact.out : κ .calendar = false)

theorem kept_takeWords [κ.Out .events] [κ.Out .ports] [κ.Out .flows] [κ.Out .calendar] [κ.Out .housekeeping]
    [κ.Out .custody] [κ.Out .captures] {s₀ s : State} {f : Nat} {t : Nat} {n : Nat} (h : Kept κ s₀ s) :
    Kept κ s₀ (State.takeWords s f t n).1 := by
  unfold State.takeWords
  extract_lets x1 x2 x3 x4 x5 x6 x7 x8 x9 x10
  have k8 : Kept κ s₀ x8 := by
    unfold x8
    repeat' first
      | intro _ | with_reducible apply kept_putWords | with_reducible apply kept_set
      | with_reducible apply kept_setFlag | with_reducible apply kept_custodyFailed
      | with_reducible apply kept_bump | with_reducible apply kept_slip | with_reducible apply kept_ite
      | with_reducible apply kept_ite_fst | split | dsimp only | with_reducible assumption
      | refine kept_fst (by assumption) ?_ | refine kept_snd (by assumption) ?_ | exact rfl | assumption
      | exact (Fact.out : κ .flows = false) | exact (Fact.out : κ .custody = false)
  clear_value x8
  have k9 : Kept κ s₀ x9 := by
    unfold x9
    repeat' first
      | intro _ | with_reducible apply kept_putWords | with_reducible apply kept_set
      | with_reducible apply kept_setFlag | with_reducible apply kept_custodyFailed
      | with_reducible apply kept_bump | with_reducible apply kept_slip | with_reducible apply kept_ite
      | with_reducible apply kept_ite_fst | split | dsimp only | with_reducible assumption
      | refine kept_fst (by assumption) ?_ | refine kept_snd (by assumption) ?_ | exact rfl | assumption
      | exact (Fact.out : κ .flows = false) | exact (Fact.out : κ .custody = false)
  clear_value x9
  have k10 : Kept κ s₀ x10 := by
    unfold x10
    repeat' first
      | intro _ | with_reducible apply kept_putWords | with_reducible apply kept_set
      | with_reducible apply kept_setFlag | with_reducible apply kept_custodyFailed
      | with_reducible apply kept_bump | with_reducible apply kept_slip | with_reducible apply kept_ite
      | with_reducible apply kept_ite_fst | split | dsimp only | with_reducible assumption
      | refine kept_fst (by assumption) ?_ | refine kept_snd (by assumption) ?_ | exact rfl | assumption
      | exact (Fact.out : κ .flows = false) | exact (Fact.out : κ .custody = false)
  clear_value x10
  repeat' first
    | intro _ | with_reducible apply kept_putWords | with_reducible apply kept_set
    | with_reducible apply kept_setFlag | with_reducible apply kept_custodyFailed | with_reducible apply kept_bump
    | with_reducible apply kept_slip | with_reducible apply kept_ite | with_reducible apply kept_ite_fst | split
    | dsimp only | with_reducible assumption | refine kept_fst (by assumption) ?_
    | refine kept_snd (by assumption) ?_ | exact rfl | assumption | exact (Fact.out : κ .flows = false)
    | exact (Fact.out : κ .custody = false)

theorem kept_readWords [κ.Out .flows] {s₀ s : State} {f : Nat} {reads : List TileRead} (h : Kept κ s₀ s) :
    Kept κ s₀ (State.readWords s f reads) := by
  unfold State.readWords
  repeat' first
    | intro _ | with_reducible apply kept_each | with_reducible apply kept_setBlob | with_reducible apply kept_ite
    | split | dsimp only | with_reducible assumption | refine kept_fst (by assumption) ?_
    | refine kept_snd (by assumption) ?_ | exact rfl | assumption | exact (Fact.out : κ .flows = false)

theorem kept_countFlow [κ.Out .snapshots] {s₀ s : State} {f : Nat} {n : Nat} (h : Kept κ s₀ s) :
    Kept κ s₀ (State.countFlow s f n) := by
  unfold State.countFlow
  repeat' first
    | intro _ | with_reducible apply kept_bump | with_reducible apply kept_ite | split | dsimp only
    | with_reducible assumption | refine kept_fst (by assumption) ?_ | refine kept_snd (by assumption) ?_
    | exact rfl | assumption | exact (Fact.out : κ .snapshots = false)

end Sys2Proof.Laws
end

