-- ==== Sys2Proof/Laws/Kept/Cipher.lean ====
section
/-! SUPPORT. Every operation of Machine/Cipher.lean keeps (Laws/Kept.lean). -/

set_option Elab.async false
set_option linter.unusedTactic false
set_option linter.unreachableTactic false
set_option linter.unusedVariables false

namespace Sys2Proof.Laws

open Sys2Proof.Machine

variable {κ : Scope}

theorem kept_tieSend [κ.Out .pair] {s₀ s : State} {o : Output} (h : Kept κ s₀ s) :
    Kept κ s₀ (State.tieSend s o) := by
  unfold State.tieSend
  repeat' first
    | intro _ | with_reducible apply kept_emit | with_reducible apply kept_bump | with_reducible apply kept_ite
    | split | dsimp only | with_reducible assumption | refine kept_fst (by assumption) ?_
    | refine kept_snd (by assumption) ?_ | exact rfl | assumption | exact (Fact.out : κ .pair = false)

theorem kept_eraseReg [κ.Out .slots] [κ.Out .keys] {s₀ s : State} {i : Nat} (h : Kept κ s₀ s) :
    Kept κ s₀ (State.eraseReg s i) := by
  unfold State.eraseReg
  repeat' first
    | intro _ | with_reducible apply kept_set | with_reducible apply kept_setBlob
    | with_reducible apply kept_ite | split | dsimp only | with_reducible assumption
    | refine kept_fst (by assumption) ?_ | refine kept_snd (by assumption) ?_ | exact rfl | assumption
    | exact (Fact.out : κ .slots = false) | exact (Fact.out : κ .keys = false)

theorem kept_eraseSlot [κ.Out .slots] [κ.Out .keys] {s₀ s : State} {n : Nat} (h : Kept κ s₀ s) :
    Kept κ s₀ (State.eraseSlot s n) := by
  unfold State.eraseSlot
  repeat' first
    | intro _ | with_reducible apply kept_set | with_reducible apply kept_eraseReg
    | with_reducible apply kept_ite | split | dsimp only | with_reducible assumption
    | refine kept_fst (by assumption) ?_ | refine kept_snd (by assumption) ?_ | exact rfl | assumption
    | exact (Fact.out : κ .slots = false)

theorem kept_eraseAllSlots [κ.Out .slots] [κ.Out .keys] {s₀ s : State} (h : Kept κ s₀ s) :
    Kept κ s₀ (State.eraseAllSlots s) := by
  unfold State.eraseAllSlots
  repeat' first
    | intro _ | with_reducible apply kept_each | with_reducible apply kept_eraseSlot
    | with_reducible apply kept_ite | split | dsimp only | with_reducible assumption
    | refine kept_fst (by assumption) ?_ | refine kept_snd (by assumption) ?_ | exact rfl | assumption

theorem kept_leaseGrant [κ.Out .slots] [κ.Out .pair] {s₀ s : State} {i : Nat} {l : Nat} (h : Kept κ s₀ s) :
    Kept κ s₀ (State.leaseGrant s i l) := by
  unfold State.leaseGrant
  repeat' first
    | intro _ | with_reducible apply kept_tieSend | with_reducible apply kept_set
    | with_reducible apply kept_ite | split | dsimp only | with_reducible assumption
    | refine kept_fst (by assumption) ?_ | refine kept_snd (by assumption) ?_ | exact rfl | assumption
    | exact (Fact.out : κ .slots = false)

theorem kept_leaseFirst [κ.Out .slots] [κ.Out .pair] {s₀ s : State} {i : Nat} (h : Kept κ s₀ s) :
    Kept κ s₀ (State.leaseFirst s i) := by
  unfold State.leaseFirst
  repeat' first
    | intro _ | with_reducible apply kept_leaseGrant | with_reducible apply kept_ite | split | dsimp only
    | with_reducible assumption | refine kept_fst (by assumption) ?_ | refine kept_snd (by assumption) ?_
    | exact rfl | assumption

theorem kept_installKey [κ.Out .slots] [κ.Out .keys] [κ.Out .pair] {s₀ s : State} {n : Nat} {key : List Byte}
    {kid : Nat} {count : Nat} (h : Kept κ s₀ s) :
    Kept κ s₀ (State.installKey s n key kid count) := by
  unfold State.installKey
  extract_lets x1 x2 x3 x4 x5 x6 x7
  have k4 : Kept κ s₀ x4 := by
    unfold x4
    repeat' first
      | intro _ | with_reducible apply kept_eraseReg | with_reducible apply kept_setBlob
      | with_reducible apply kept_set | with_reducible apply kept_setFlag | with_reducible apply kept_leaseFirst
      | with_reducible apply kept_ite | split | dsimp only | with_reducible assumption
      | refine kept_fst (by assumption) ?_ | refine kept_snd (by assumption) ?_ | exact rfl | assumption
      | exact (Fact.out : κ .slots = false) | exact (Fact.out : κ .keys = false)
  clear_value x4
  have k7 : Kept κ s₀ x7 := by
    unfold x7
    repeat' first
      | intro _ | with_reducible apply kept_eraseReg | with_reducible apply kept_setBlob
      | with_reducible apply kept_set | with_reducible apply kept_setFlag | with_reducible apply kept_leaseFirst
      | with_reducible apply kept_ite | split | dsimp only | with_reducible assumption
      | refine kept_fst (by assumption) ?_ | refine kept_snd (by assumption) ?_ | exact rfl | assumption
      | exact (Fact.out : κ .slots = false) | exact (Fact.out : κ .keys = false)
  clear_value x7
  repeat' first
    | intro _ | with_reducible apply kept_eraseReg | with_reducible apply kept_setBlob
    | with_reducible apply kept_set | with_reducible apply kept_setFlag | with_reducible apply kept_leaseFirst
    | with_reducible apply kept_ite | split | dsimp only | with_reducible assumption
    | refine kept_fst (by assumption) ?_ | refine kept_snd (by assumption) ?_ | exact rfl | assumption
    | exact (Fact.out : κ .slots = false) | exact (Fact.out : κ .keys = false)

theorem kept_loadKey [κ.Out .slots] [κ.Out .keys] [κ.Out .pair] {s₀ s : State} {n : Nat} {d : List Byte}
    (h : Kept κ s₀ s) :
    Kept κ s₀ (State.loadKey s n d) := by
  unfold State.loadKey
  repeat' first
    | intro _ | with_reducible apply kept_bump | with_reducible apply kept_installKey
    | with_reducible apply kept_ite | split | dsimp only | with_reducible assumption
    | refine kept_fst (by assumption) ?_ | refine kept_snd (by assumption) ?_ | exact rfl | assumption
    | exact (Fact.out : κ .slots = false)

theorem kept_writeSlotLoad [κ.Out .events] [κ.Out .slots] [κ.Out .keys] [κ.Out .housekeeping] [κ.Out .pair]
    [κ.Out .captures] {s₀ : State} {n : Nat} {d : List Byte} {s : State} (h : Kept κ s₀ s) :
    Kept κ s₀ (writeSlotLoad n d s).1 := by
  unfold writeSlotLoad
  repeat' first
    | intro _ | with_reducible apply kept_raise | with_reducible apply kept_set
    | with_reducible apply kept_loadKey | with_reducible apply kept_tieSend | with_reducible apply kept_bump
    | with_reducible apply kept_ite | with_reducible apply kept_ite_fst | split | dsimp only
    | with_reducible assumption | refine kept_fst (by assumption) ?_ | refine kept_snd (by assumption) ?_
    | exact rfl | assumption | exact (Fact.out : κ .slots = false) | exact (Fact.out : κ .pair = false)

theorem kept_execKeyLoad [κ.Out .events] [κ.Out .management] [κ.Out .slots] [κ.Out .keys] [κ.Out .housekeeping]
    [κ.Out .pair] [κ.Out .captures] {s₀ : State} {cl : Client} {d : List Byte} {s : State} (h : Kept κ s₀ s) :
    KeptO κ s₀ (execKeyLoad cl d s) := by
  unfold execKeyLoad
  repeat' first
    | intro _ | with_reducible apply kept_next | with_reducible refine kept_serveWrite ?_ ?_ (by first | exact .inl (by decide) | exact .inr Fact.out)
    | with_reducible apply kept_writeSlotLoad | with_reducible apply kept_ite | split | dsimp only
    | with_reducible assumption | refine kept_fst (by assumption) ?_ | refine kept_snd (by assumption) ?_
    | exact rfl | assumption

theorem kept_writeSlotErase [κ.Out .events] [κ.Out .slots] [κ.Out .keys] [κ.Out .housekeeping] [κ.Out .pair]
    [κ.Out .captures] {s₀ : State} {n : Nat} {s : State} (h : Kept κ s₀ s) :
    Kept κ s₀ (writeSlotErase n s).1 := by
  unfold writeSlotErase
  repeat' first
    | intro _ | with_reducible apply kept_raise | with_reducible apply kept_set
    | with_reducible apply kept_eraseSlot | with_reducible apply kept_tieSend | with_reducible apply kept_bump
    | with_reducible apply kept_ite | with_reducible apply kept_ite_fst | split | dsimp only
    | with_reducible assumption | refine kept_fst (by assumption) ?_ | refine kept_snd (by assumption) ?_
    | exact rfl | assumption | exact (Fact.out : κ .slots = false) | exact (Fact.out : κ .pair = false)

theorem kept_execKeyErase [κ.Out .events] [κ.Out .management] [κ.Out .slots] [κ.Out .keys] [κ.Out .housekeeping]
    [κ.Out .pair] [κ.Out .captures] {s₀ : State} {cl : Client} {s : State} (h : Kept κ s₀ s) :
    KeptO κ s₀ (execKeyErase cl s) := by
  unfold execKeyErase
  repeat' first
    | intro _ | with_reducible apply kept_next | with_reducible refine kept_serveWrite ?_ ?_ (by first | exact .inl (by decide) | exact .inr Fact.out)
    | with_reducible apply kept_writeSlotErase | with_reducible apply kept_ite | split | dsimp only
    | with_reducible assumption | refine kept_fst (by assumption) ?_ | refine kept_snd (by assumption) ?_
    | exact rfl | assumption

theorem kept_nextActive [κ.Out .slots] [κ.Out .keys] {s₀ s : State} {n : Nat} (h : Kept κ s₀ s) :
    Kept κ s₀ (State.nextActive s n) := by
  unfold State.nextActive
  repeat' first
    | intro _ | with_reducible apply kept_eraseReg | with_reducible apply kept_set | with_reducible apply kept_ite
    | split | dsimp only | with_reducible assumption | refine kept_fst (by assumption) ?_
    | refine kept_snd (by assumption) ?_ | exact rfl | assumption | exact (Fact.out : κ .slots = false)

theorem kept_switchComplete [κ.Out .events] [κ.Out .slots] [κ.Out .keys] [κ.Out .housekeeping] [κ.Out .captures]
    {s₀ s : State} {n : Nat} (h : Kept κ s₀ s) :
    Kept κ s₀ (State.switchComplete s n) := by
  unfold State.switchComplete
  repeat' first
    | intro _ | with_reducible apply kept_set | with_reducible apply kept_raise
    | with_reducible apply kept_nextActive | with_reducible apply kept_eraseReg | with_reducible apply kept_ite
    | split | dsimp only | with_reducible assumption | refine kept_fst (by assumption) ?_
    | refine kept_snd (by assumption) ?_ | exact rfl | assumption | exact (Fact.out : κ .slots = false)

theorem kept_execKeySwitchComplete [κ.Out .events] [κ.Out .slots] [κ.Out .keys] [κ.Out .housekeeping]
    [κ.Out .captures] {s₀ : State} {n : Fin 8192} {s : State} (h : Kept κ s₀ s) :
    KeptO κ s₀ (execKeySwitchComplete n s) := by
  unfold execKeySwitchComplete
  repeat' first
    | intro _ | with_reducible apply kept_next | with_reducible apply kept_live
    | with_reducible apply kept_switchComplete | with_reducible apply kept_ite | split | dsimp only
    | with_reducible assumption | refine kept_fst (by assumption) ?_ | refine kept_snd (by assumption) ?_
    | exact rfl | assumption

theorem kept_zeroFall [κ.Out .events] [κ.Out .cores] [κ.Out .slots] [κ.Out .keys] [κ.Out .housekeeping]
    [κ.Out .captures] {s₀ s : State} (h : Kept κ s₀ s) :
    Kept κ s₀ (State.zeroFall s) := by
  unfold State.zeroFall
  repeat' first
    | intro _ | with_reducible apply kept_each | with_reducible apply kept_set | with_reducible apply kept_raise
    | with_reducible apply kept_eraseAllSlots | with_reducible apply kept_ite | split | dsimp only
    | with_reducible assumption | refine kept_fst (by assumption) ?_ | refine kept_snd (by assumption) ?_
    | exact rfl | assumption | exact (Fact.out : κ .cores = false) | exact (Fact.out : κ .slots = false)

theorem kept_execZeroNFall [κ.Out .events] [κ.Out .cores] [κ.Out .slots] [κ.Out .keys] [κ.Out .housekeeping]
    [κ.Out .captures] {s₀ s : State} (h : Kept κ s₀ s) :
    KeptO κ s₀ (execZeroNFall s) := by
  unfold execZeroNFall
  repeat' first
    | intro _ | with_reducible apply kept_next | with_reducible apply kept_zeroFall
    | with_reducible apply kept_eraseAllSlots | with_reducible apply kept_set | with_reducible apply kept_ite
    | split | dsimp only | with_reducible assumption | refine kept_fst (by assumption) ?_
    | refine kept_snd (by assumption) ?_ | exact rfl | assumption | exact (Fact.out : κ .cores = false)

theorem kept_execZeroNRise [κ.Out .cores] {s₀ s : State} (h : Kept κ s₀ s) :
    KeptO κ s₀ (execZeroNRise s) := by
  unfold execZeroNRise
  repeat' first
    | intro _ | with_reducible apply kept_next | with_reducible apply kept_set | with_reducible apply kept_ite
    | split | dsimp only | with_reducible assumption | refine kept_fst (by assumption) ?_
    | refine kept_snd (by assumption) ?_ | exact rfl | assumption | exact (Fact.out : κ .cores = false)

theorem kept_writeKek [κ.Out .events] [κ.Out .fuses] [κ.Out .housekeeping] [κ.Out .captures] {s₀ : State} {n : Nat}
    {op : Int} {s : State} (h : Kept κ s₀ s) :
    Kept κ s₀ (writeKek n op s).1 := by
  unfold writeKek
  repeat' first
    | intro _ | with_reducible apply kept_setBlob | with_reducible apply kept_set
    | with_reducible apply kept_raise | with_reducible apply kept_ite | with_reducible apply kept_ite_fst
    | split | dsimp only | with_reducible assumption | refine kept_fst (by assumption) ?_
    | refine kept_snd (by assumption) ?_ | exact rfl | assumption | exact (Fact.out : κ .fuses = false)

theorem kept_execKekProgram [κ.Out .events] [κ.Out .management] [κ.Out .fuses] [κ.Out .housekeeping]
    [κ.Out .captures] {s₀ : State} {cl : Client} {n : Fin 4} {s : State} (h : Kept κ s₀ s) :
    KeptO κ s₀ (execKekProgram cl n s) := by
  unfold execKekProgram
  repeat' first
    | intro _ | with_reducible apply kept_next | with_reducible refine kept_serveWrite ?_ ?_ (by first | exact .inl (by decide) | exact .inr Fact.out)
    | with_reducible apply kept_writeKek | with_reducible apply kept_ite | split | dsimp only
    | with_reducible assumption | refine kept_fst (by assumption) ?_ | refine kept_snd (by assumption) ?_
    | exact rfl | assumption

theorem kept_execKekRevoke [κ.Out .events] [κ.Out .management] [κ.Out .fuses] [κ.Out .housekeeping]
    [κ.Out .captures] {s₀ : State} {cl : Client} {n : Fin 4} {s : State} (h : Kept κ s₀ s) :
    KeptO κ s₀ (execKekRevoke cl n s) := by
  unfold execKekRevoke
  repeat' first
    | intro _ | with_reducible apply kept_next | with_reducible refine kept_serveWrite ?_ ?_ (by first | exact .inl (by decide) | exact .inr Fact.out)
    | with_reducible apply kept_writeKek | with_reducible apply kept_ite | split | dsimp only
    | with_reducible assumption | refine kept_fst (by assumption) ?_ | refine kept_snd (by assumption) ?_
    | exact rfl | assumption

theorem kept_kekComplete [κ.Out .events] [κ.Out .fuses] [κ.Out .housekeeping] [κ.Out .captures] {s₀ s : State}
    {n : Nat} {good : Bool} (h : Kept κ s₀ s) :
    Kept κ s₀ (State.kekComplete s n good) := by
  unfold State.kekComplete
  repeat' first
    | intro _ | with_reducible apply kept_set | with_reducible apply kept_raise
    | with_reducible apply kept_setBlob | with_reducible apply kept_ite | split | dsimp only
    | with_reducible assumption | refine kept_fst (by assumption) ?_ | refine kept_snd (by assumption) ?_
    | exact rfl | assumption | exact (Fact.out : κ .fuses = false)

theorem kept_execKekProgramComplete [κ.Out .events] [κ.Out .fuses] [κ.Out .housekeeping] [κ.Out .captures]
    {s₀ : State} {n : Fin 4} {good : Bool} {s : State} (h : Kept κ s₀ s) :
    KeptO κ s₀ (execKekProgramComplete n good s) := by
  unfold execKekProgramComplete
  repeat' first
    | intro _ | with_reducible apply kept_next | with_reducible apply kept_live
    | with_reducible apply kept_kekComplete | with_reducible apply kept_ite | split | dsimp only
    | with_reducible assumption | refine kept_fst (by assumption) ?_ | refine kept_snd (by assumption) ?_
    | exact rfl | assumption

theorem kept_keyprovRise [κ.Out .cores] [κ.Out .fuses] {s₀ s : State} (h : Kept κ s₀ s) :
    Kept κ s₀ (State.keyprovRise s) := by
  unfold State.keyprovRise
  repeat' first
    | intro _ | with_reducible apply kept_each | with_reducible apply kept_set
    | with_reducible apply kept_setBlob | with_reducible apply kept_ite | split | dsimp only
    | with_reducible assumption | refine kept_fst (by assumption) ?_ | refine kept_snd (by assumption) ?_
    | exact rfl | assumption | exact (Fact.out : κ .cores = false) | exact (Fact.out : κ .fuses = false)

theorem kept_execKeyprovNRise [κ.Out .cores] [κ.Out .fuses] {s₀ s : State} (h : Kept κ s₀ s) :
    KeptO κ s₀ (execKeyprovNRise s) := by
  unfold execKeyprovNRise
  repeat' first
    | intro _ | with_reducible apply kept_next | with_reducible apply kept_keyprovRise
    | with_reducible apply kept_ite | split | dsimp only | with_reducible assumption
    | refine kept_fst (by assumption) ?_ | refine kept_snd (by assumption) ?_ | exact rfl | assumption

theorem kept_execKeyprovNFall [κ.Out .cores] {s₀ s : State} (h : Kept κ s₀ s) :
    KeptO κ s₀ (execKeyprovNFall s) := by
  unfold execKeyprovNFall
  repeat' first
    | intro _ | with_reducible apply kept_next | with_reducible apply kept_set | with_reducible apply kept_ite
    | split | dsimp only | with_reducible assumption | refine kept_fst (by assumption) ?_
    | refine kept_snd (by assumption) ?_ | exact rfl | assumption | exact (Fact.out : κ .cores = false)

theorem kept_capacityCheck [κ.Out .events] [κ.Out .cores] [κ.Out .housekeeping] [κ.Out .captures] {s₀ s : State}
    (h : Kept κ s₀ s) :
    Kept κ s₀ (State.capacityCheck s) := by
  unfold State.capacityCheck
  repeat' first
    | intro _ | with_reducible apply kept_set | with_reducible apply kept_each | with_reducible apply kept_raise
    | with_reducible apply kept_foldl | with_reducible apply kept_ite | split | dsimp only
    | with_reducible assumption | refine kept_fst (by assumption) ?_ | refine kept_snd (by assumption) ?_
    | exact rfl | assumption | exact (Fact.out : κ .cores = false)

theorem kept_retireCore [κ.Out .events] [κ.Out .cores] [κ.Out .housekeeping] [κ.Out .captures] {s₀ s : State}
    {core : Nat} (h : Kept κ s₀ s) :
    Kept κ s₀ (State.retireCore s core) := by
  unfold State.retireCore
  repeat' first
    | intro _ | with_reducible apply kept_capacityCheck | with_reducible apply kept_raise
    | with_reducible apply kept_setBit | with_reducible apply kept_bump | with_reducible apply kept_ite | split
    | dsimp only | with_reducible assumption | refine kept_fst (by assumption) ?_
    | refine kept_snd (by assumption) ?_ | exact rfl | assumption | exact (Fact.out : κ .cores = false)

theorem kept_twins [κ.Out .events] [κ.Out .cores] [κ.Out .housekeeping] [κ.Out .captures] {s₀ s : State}
    {k : TwinReading} (h : Kept κ s₀ s) :
    Kept κ s₀ (State.twins s k).1 := by
  unfold State.twins
  repeat' first
    | intro _ | with_reducible apply kept_retireCore | with_reducible apply kept_ite
    | with_reducible apply kept_ite_fst | split | dsimp only | with_reducible assumption
    | refine kept_fst (by assumption) ?_ | refine kept_snd (by assumption) ?_ | exact rfl | assumption

theorem kept_coresTested [κ.Out .events] [κ.Out .cores] [κ.Out .housekeeping] [κ.Out .captures] {s₀ s : State}
    {failed : List Nat} (h : Kept κ s₀ s) :
    Kept κ s₀ (State.coresTested s failed) := by
  unfold State.coresTested
  repeat' first
    | intro _ | with_reducible apply kept_capacityCheck | with_reducible apply kept_set
    | with_reducible apply kept_foldl | with_reducible apply kept_ite | split | dsimp only
    | with_reducible assumption | refine kept_fst (by assumption) ?_ | refine kept_snd (by assumption) ?_
    | exact rfl | assumption | exact (Fact.out : κ .cores = false)

theorem kept_leaseTake [κ.Out .slots] {s₀ s : State} {i : Nat} (h : Kept κ s₀ s) :
    Kept κ s₀ (State.leaseTake s i) := by
  unfold State.leaseTake
  repeat' first
    | intro _ | with_reducible apply kept_set | with_reducible apply kept_ite | split | dsimp only
    | with_reducible assumption | refine kept_fst (by assumption) ?_ | refine kept_snd (by assumption) ?_
    | exact rfl | assumption | exact (Fact.out : κ .slots = false)

theorem kept_txSwitch [κ.Out .slots] [κ.Out .crypt] {s₀ s : State} {t : Nat} {n : Nat} (h : Kept κ s₀ s) :
    Kept κ s₀ (State.txSwitch s t n) := by
  unfold State.txSwitch
  repeat' first
    | intro _ | with_reducible apply kept_set | with_reducible apply kept_ite | split | dsimp only
    | with_reducible assumption | refine kept_fst (by assumption) ?_ | refine kept_snd (by assumption) ?_
    | exact rfl | assumption | exact (Fact.out : κ .slots = false) | exact (Fact.out : κ .crypt = false)

theorem kept_leaseDue [κ.Out .slots] [κ.Out .pair] {s₀ s : State} {i : Nat} (h : Kept κ s₀ s) :
    Kept κ s₀ (State.leaseDue s i) := by
  unfold State.leaseDue
  repeat' first
    | intro _ | with_reducible apply kept_leaseFirst | with_reducible apply kept_leaseGrant
    | with_reducible apply kept_ite | split | dsimp only | with_reducible assumption
    | refine kept_fst (by assumption) ?_ | refine kept_snd (by assumption) ?_ | exact rfl | assumption

theorem kept_countBlock [κ.Out .events] [κ.Out .slots] [κ.Out .housekeeping] [κ.Out .pair] [κ.Out .captures]
    {s₀ s : State} {i : Nat} (h : Kept κ s₀ s) :
    Kept κ s₀ (State.countBlock s i) := by
  unfold State.countBlock
  repeat' first
    | intro _ | with_reducible apply kept_bump | with_reducible apply kept_raise | with_reducible apply kept_set
    | with_reducible apply kept_leaseDue | with_reducible apply kept_ite | split | dsimp only
    | with_reducible assumption | refine kept_fst (by assumption) ?_ | refine kept_snd (by assumption) ?_
    | exact rfl | assumption | exact (Fact.out : κ .slots = false)

theorem kept_gfpPut [κ.Out .tributaries] {s₀ s : State} {t : Nat} {l : List Byte} (h : Kept κ s₀ s) :
    Kept κ s₀ (State.gfpPut s t l) := by
  unfold State.gfpPut
  repeat' first
    | intro _ | with_reducible apply kept_setBlob | with_reducible apply kept_setWords
    | with_reducible apply kept_ite | split | dsimp only | with_reducible assumption
    | refine kept_fst (by assumption) ?_ | refine kept_snd (by assumption) ?_ | exact rfl | assumption
    | exact (Fact.out : κ .tributaries = false)

theorem kept_sendBlock [κ.Out .tributaries] {s₀ s : State} {t : Nat} {l : List Byte} (h : Kept κ s₀ s) :
    Kept κ s₀ (State.sendBlock s t l) := by
  unfold State.sendBlock
  repeat' first
    | intro _ | with_reducible apply kept_setWords | with_reducible apply kept_emit | with_reducible apply kept_ite
    | split | dsimp only | with_reducible assumption | refine kept_fst (by assumption) ?_
    | refine kept_snd (by assumption) ?_ | exact rfl | assumption

theorem kept_txRefuse [κ.Out .tributaries] [κ.Out .crypt] {s₀ s : State} {t : Nat} {mode : Nat} {len : Nat}
    (h : Kept κ s₀ s) :
    Kept κ s₀ (State.txRefuse s t mode len) := by
  unfold State.txRefuse
  repeat' first
    | intro _ | with_reducible apply kept_bump | with_reducible apply kept_sendBlock
    | with_reducible apply kept_ite | split | dsimp only | with_reducible assumption
    | refine kept_fst (by assumption) ?_ | refine kept_snd (by assumption) ?_ | exact rfl | assumption
    | exact (Fact.out : κ .crypt = false)

theorem kept_takeContent [κ.Out .events] [κ.Out .ports] [κ.Out .flows] [κ.Out .calendar] [κ.Out .tributaries]
    [κ.Out .housekeeping] [κ.Out .custody] [κ.Out .captures] {s₀ s : State} {t : Nat} {n : Nat} {given : List Byte}
    (h : Kept κ s₀ s) :
    Kept κ s₀ (State.takeContent s t n given).1 := by
  unfold State.takeContent
  repeat' first
    | intro _ | with_reducible apply kept_takeWords | with_reducible apply kept_setBlob
    | with_reducible apply kept_ite | with_reducible apply kept_ite_fst | split | dsimp only
    | with_reducible assumption | refine kept_fst (by assumption) ?_ | refine kept_snd (by assumption) ?_
    | exact rfl | assumption | exact (Fact.out : κ .tributaries = false)

theorem kept_zeroWords [κ.Out .tributaries] {s₀ s : State} {t : Nat} {n : Nat} (h : Kept κ s₀ s) :
    Kept κ s₀ (State.zeroWords s t n) := by
  unfold State.zeroWords
  repeat' first
    | intro _ | with_reducible apply kept_setWords | with_reducible apply kept_ite | split | dsimp only
    | with_reducible assumption | refine kept_fst (by assumption) ?_ | refine kept_snd (by assumption) ?_
    | exact rfl | assumption

theorem kept_txData [κ.Out .events] [κ.Out .ports] [κ.Out .flows] [κ.Out .calendar] [κ.Out .tributaries]
    [κ.Out .cores] [κ.Out .slots] [κ.Out .crypt] [κ.Out .housekeeping] [κ.Out .pair] [κ.Out .custody]
    [κ.Out .captures] {s₀ s : State} {t : Nat} {i : Nat} {n : Nat} {given : List Byte} {reads : List TileRead}
    {k : TwinReading} (h : Kept κ s₀ s) :
    Kept κ s₀ (State.txData s t i n given reads k) := by
  unfold State.txData
  repeat' first
    | intro _ | with_reducible apply kept_takeContent | with_reducible apply kept_twins
    | with_reducible apply kept_custodyFailed | with_reducible apply kept_bump | with_reducible apply kept_setBlob
    | with_reducible apply kept_countBlock | with_reducible apply kept_sendBlock
    | with_reducible apply kept_txRefuse | with_reducible apply kept_ite | split | dsimp only
    | with_reducible assumption | refine kept_fst (by assumption) ?_ | refine kept_snd (by assumption) ?_
    | exact rfl | assumption | exact (Fact.out : κ .crypt = false) | exact (Fact.out : κ .custody = false)

theorem kept_txBlock [κ.Out .events] [κ.Out .ports] [κ.Out .flows] [κ.Out .calendar] [κ.Out .tributaries]
    [κ.Out .cores] [κ.Out .slots] [κ.Out .crypt] [κ.Out .housekeeping] [κ.Out .pair] [κ.Out .custody]
    [κ.Out .captures] {s₀ s : State} {t : Nat} {given : List Byte} {reads : List TileRead} {k : TwinReading}
    (h : Kept κ s₀ s) :
    Kept κ s₀ (State.txBlock s t given reads k) := by
  unfold State.txBlock
  repeat' first
    | intro _ | with_reducible apply kept_zeroWords | with_reducible apply kept_txSwitch
    | with_reducible apply kept_leaseTake | with_reducible apply kept_set | with_reducible apply kept_raise
    | with_reducible apply kept_txData | with_reducible apply kept_txRefuse | with_reducible apply kept_ite | split
    | dsimp only | with_reducible assumption | refine kept_fst (by assumption) ?_
    | refine kept_snd (by assumption) ?_ | exact rfl | assumption | exact (Fact.out : κ .slots = false)

theorem kept_execTxCipherBlock [κ.Out .events] [κ.Out .ports] [κ.Out .flows] [κ.Out .calendar] [κ.Out .tributaries]
    [κ.Out .cores] [κ.Out .slots] [κ.Out .crypt] [κ.Out .housekeeping] [κ.Out .pair] [κ.Out .custody]
    [κ.Out .captures] {s₀ s : State} {t : Fin 3840} {payload : List Byte} {reads : List TileRead} {k : TwinReading}
    (h : Kept κ s₀ s) :
    KeptO κ s₀ (execTxCipherBlock t payload reads k s) := by
  unfold execTxCipherBlock
  repeat' first
    | intro _ | with_reducible apply kept_live | with_reducible apply kept_txBlock | with_reducible apply kept_ite
    | split | dsimp only | with_reducible assumption | refine kept_fst (by assumption) ?_
    | refine kept_snd (by assumption) ?_ | exact rfl | assumption

theorem kept_rxReport [κ.Out .events] [κ.Out .housekeeping] [κ.Out .captures] {s₀ s : State} {src : Nat}
    {mark : Reg} {t : Nat} {n : Nat} {gen : Nat} {count : Nat} (h : Kept κ s₀ s)
    (hmark : κ (Safety.part mark) = false := by
      first | assumption | ((conv in Safety.part _ => whnf); exact Fact.out) | exact leaves_none _)
    :
    Kept κ s₀ (State.rxReport s src mark t n gen count) := by
  unfold State.rxReport
  repeat' first
    | intro _ | with_reducible apply kept_raise | with_reducible apply kept_markSecond
    | with_reducible apply kept_ite | split | dsimp only | with_reducible assumption
    | refine kept_fst (by assumption) ?_ | refine kept_snd (by assumption) ?_ | exact rfl | assumption

theorem kept_rxSwitch [κ.Out .slots] {s₀ s : State} {n : Nat} {g : Nat} (h : Kept κ s₀ s) :
    Kept κ s₀ (State.rxSwitch s n g) := by
  unfold State.rxSwitch
  repeat' first
    | intro _ | with_reducible apply kept_set | with_reducible apply kept_ite | split | dsimp only
    | with_reducible assumption | refine kept_fst (by assumption) ?_ | refine kept_snd (by assumption) ?_
    | exact rfl | assumption | exact (Fact.out : κ .slots = false)

theorem kept_rxDeliver [κ.Out .tributaries] {s₀ s : State} {t : Nat} {l : List Byte} {bad : List Nat}
    (h : Kept κ s₀ s) :
    Kept κ s₀ (State.rxDeliver s t l bad) := by
  unfold State.rxDeliver
  repeat' first
    | intro _ | with_reducible apply kept_setRxTrib | with_reducible apply kept_emit
    | with_reducible apply kept_ite | split | dsimp only | with_reducible assumption
    | refine kept_fst (by assumption) ?_ | refine kept_snd (by assumption) ?_ | exact rfl | assumption

theorem kept_rxCheck [κ.Out .events] [κ.Out .tributaries] [κ.Out .cores] [κ.Out .slots] [κ.Out .crypt]
    [κ.Out .housekeeping] [κ.Out .custody] [κ.Out .captures] {s₀ s : State} {t : Nat} {x : RxBlock}
    {reads : List TileRead} {k : TwinReading} (h : Kept κ s₀ s) :
    Kept κ s₀ (State.rxCheck s t x reads k) := by
  unfold State.rxCheck
  repeat' first
    | intro _ | with_reducible apply kept_custodyFailed | with_reducible apply kept_rxDeliver
    | with_reducible apply kept_bump | with_reducible apply kept_rxReport | with_reducible apply kept_twins
    | with_reducible apply kept_rxSwitch | with_reducible apply kept_ite | split | dsimp only
    | with_reducible assumption | refine kept_fst (by assumption) ?_ | refine kept_snd (by assumption) ?_
    | exact rfl | assumption | exact (Fact.out : κ .crypt = false)

theorem kept_rxBlock [κ.Out .events] [κ.Out .tributaries] [κ.Out .cores] [κ.Out .slots] [κ.Out .crypt]
    [κ.Out .housekeeping] [κ.Out .custody] [κ.Out .captures] {s₀ s : State} {t : Nat} {word0 : Nat} {word1 : Nat}
    {payload : List Byte} {tag : List Byte} {reads : List TileRead} {k : TwinReading} (h : Kept κ s₀ s) :
    Kept κ s₀ (State.rxBlock s t word0 word1 payload tag reads k) := by
  unfold State.rxBlock
  repeat' first
    | intro _ | with_reducible apply kept_rxCheck | with_reducible apply kept_setRxTrib
    | with_reducible apply kept_ite | split | dsimp only | with_reducible assumption
    | refine kept_fst (by assumption) ?_ | refine kept_snd (by assumption) ?_ | exact rfl | assumption

theorem kept_execRxBlockCheck [κ.Out .events] [κ.Out .tributaries] [κ.Out .cores] [κ.Out .slots] [κ.Out .crypt]
    [κ.Out .housekeeping] [κ.Out .custody] [κ.Out .captures] {s₀ s : State} {t : Fin 3840} {word0 : BitVec 64}
    {word1 : BitVec 64} {payload : List Byte} {tag : List Byte} {reads : List TileRead} {k : TwinReading}
    (h : Kept κ s₀ s) :
    KeptO κ s₀ (execRxBlockCheck t word0 word1 payload tag reads k s) := by
  unfold execRxBlockCheck
  repeat' first
    | intro _ | with_reducible apply kept_live | with_reducible apply kept_rxBlock | with_reducible apply kept_ite
    | split | dsimp only | with_reducible assumption | refine kept_fst (by assumption) ?_
    | refine kept_snd (by assumption) ?_ | exact rfl | assumption

theorem kept_writeBinding [κ.Out .bindings] {s₀ : State} {i : Nat} {v : Int} {s : State} (h : Kept κ s₀ s) :
    Kept κ s₀ (writeBinding i v s).1 := by
  unfold writeBinding
  repeat' first
    | intro _ | with_reducible apply kept_set | with_reducible apply kept_ite
    | with_reducible apply kept_ite_fst | split | dsimp only | with_reducible assumption
    | refine kept_fst (by assumption) ?_ | refine kept_snd (by assumption) ?_ | exact rfl | assumption
    | exact (Fact.out : κ .bindings = false)

theorem kept_execCipherBindingWrite [κ.Out .events] [κ.Out .management] [κ.Out .bindings] [κ.Out .housekeeping]
    [κ.Out .captures] {s₀ : State} {cl : Client} {dir : Fin 2} {v : Fin 4294967296} {s : State} (h : Kept κ s₀ s) :
    KeptO κ s₀ (execCipherBindingWrite cl dir v s) := by
  unfold execCipherBindingWrite
  repeat' first
    | intro _ | with_reducible apply kept_next | with_reducible refine kept_serveWrite ?_ ?_ (by first | exact .inl (by decide) | exact .inr Fact.out)
    | with_reducible apply kept_writeBinding | with_reducible apply kept_ite | split | dsimp only
    | with_reducible assumption | refine kept_fst (by assumption) ?_ | refine kept_snd (by assumption) ?_
    | exact rfl | assumption

theorem kept_bindingsTake [κ.Out .events] [κ.Out .cores] [κ.Out .bindings] [κ.Out .housekeeping] [κ.Out .captures]
    {s₀ s : State} {dir : Nat} {l : List Nat} (h : Kept κ s₀ s) :
    Kept κ s₀ (State.bindingsTake s dir l) := by
  unfold State.bindingsTake
  repeat' first
    | intro _ | with_reducible apply kept_capacityCheck | with_reducible apply kept_each
    | with_reducible apply kept_set | with_reducible apply kept_ite | split | dsimp only
    | with_reducible assumption | refine kept_fst (by assumption) ?_ | refine kept_snd (by assumption) ?_
    | exact rfl | assumption | exact (Fact.out : κ .bindings = false)

theorem kept_markTx [κ.Out .tributaries] {s₀ s : State} {t : Nat} {k : Nat} (h : Kept κ s₀ s) :
    Kept κ s₀ (State.markTx s t k) := by
  unfold State.markTx
  repeat' first
    | intro _ | with_reducible apply kept_setBlob | with_reducible apply kept_ite | split | dsimp only
    | with_reducible assumption | refine kept_fst (by assumption) ?_ | refine kept_snd (by assumption) ?_
    | exact rfl | assumption | exact (Fact.out : κ .tributaries = false)

theorem kept_encoderCount [κ.Out .events] [κ.Out .tributaries] [κ.Out .housekeeping] [κ.Out .custody]
    [κ.Out .captures] {s₀ s : State} {c : Nat} (h : Kept κ s₀ s) :
    Kept κ s₀ (State.encoderCount s c) := by
  unfold State.encoderCount
  repeat' first
    | intro _ | with_reducible apply kept_each | with_reducible apply kept_custodyAt
    | with_reducible apply kept_bump | with_reducible apply kept_setBlob | with_reducible apply kept_ite | split
    | dsimp only | with_reducible assumption | refine kept_fst (by assumption) ?_
    | refine kept_snd (by assumption) ?_ | exact rfl | assumption | exact (Fact.out : κ .tributaries = false)
    | exact (Fact.out : κ .custody = false)

end Sys2Proof.Laws
end

