-- ==== Sys2Proof/Laws/Kept/Boot.lean ====
section
/-! SUPPORT. Every operation of Machine/Boot.lean keeps (Laws/Kept.lean). -/

set_option Elab.async false
set_option linter.unusedTactic false
set_option linter.unreachableTactic false
set_option linter.unusedVariables false

namespace Sys2Proof.Laws

open Sys2Proof.Machine

variable {κ : Scope}

theorem kept_wipe [κ.Out .phase] [κ.Out .memory] [κ.Out .events] [κ.Out .subscribers] [κ.Out .management] [κ.Out .views]
    [κ.Out .identity] [κ.Out .settings] [κ.Out .mode] [κ.Out .boot] [κ.Out .rails] [κ.Out .guard] [κ.Out .thermal]
    [κ.Out .carriers] [κ.Out .slack] [κ.Out .txLine] [κ.Out .rxLine] [κ.Out .clocks] [κ.Out .converters]
    [κ.Out .calibration] [κ.Out .banks] [κ.Out .dispersion] [κ.Out .frontEnd] [κ.Out .equaliser] [κ.Out .monitors]
    [κ.Out .neighbours] [κ.Out .recovery] [κ.Out .catching] [κ.Out .coding] [κ.Out .defects] [κ.Out .overhead]
    [κ.Out .lanes] [κ.Out .patterns] [κ.Out .ports] [κ.Out .ptp] [κ.Out .classifier] [κ.Out .flows] [κ.Out .calendar]
    [κ.Out .pages] [κ.Out .tributaries] [κ.Out .bonding] [κ.Out .cores] [κ.Out .fuses] [κ.Out .slots] [κ.Out .keys]
    [κ.Out .bindings] [κ.Out .crypt] [κ.Out .time] [κ.Out .timing] [κ.Out .housekeeping] [κ.Out .snapshots]
    [κ.Out .inputs] [κ.Out .pair] [κ.Out .integrity] [κ.Out .custody] [κ.Out .mover] [κ.Out .captures]
    {s₀ s : State} {kept : Reg → Bool} (h : Kept κ s₀ s) : Kept κ s₀ (s.wipe kept) :=
  h.trans {
    tables := fun q => ⟨swf_filter regLt_trans _ _ s.regs q.1, swf_filter regLt_trans _ _ s.blobs q.2.1, rfl, rfl⟩
    queues := fun _ => ⟨rfl, rfl, rfl, rfl, rfl, rfl, rfl⟩
    lines := fun _ => ⟨rfl, rfl, rfl, rfl, rfl, rfl, rfl, rfl⟩
    rings := fun _ => ⟨Nat.zero_le _, Nat.zero_le _⟩
    management := fun _ => ⟨Nat.zero_le _, Nat.zero_le _, Nat.zero_le _⟩
    slots := fun _ => ⟨List.nodup_nil, fun _ hn => nomatch (show _ ∈ ([] : List Nat) from hn)⟩
    entries := fun _ => ⟨Nat.zero_le _, Nat.zero_le _⟩
    out := List.prefix_rfl
    pending := rfl
    sameMem := touched
    sameClassifier := touched
    sameTsQueue := touched
    sameManagement := touched
    sameDescriptors := touched
    sameFlows := touched
    sameTribs := touched
    sameSlack := touched
    sameEgress := touched
    sameTxLine := touched
    sameRxLine := touched
    sameTap := rfl
    samePol := touched
    samePhase := touched
    sameEvents := touched
    sameIntegrity := touched
    sameSnapshots := touched
    sameSubscribers := touched
    sameRegs := fun r i e => by rw [leaves_none (κ := κ) r] at e; cases e }

theorem kept_coldReset [κ.Out .phase] [κ.Out .memory] [κ.Out .events] [κ.Out .subscribers] [κ.Out .management]
    [κ.Out .views] [κ.Out .identity] [κ.Out .settings] [κ.Out .mode] [κ.Out .boot] [κ.Out .rails] [κ.Out .guard]
    [κ.Out .thermal] [κ.Out .carriers] [κ.Out .slack] [κ.Out .txLine] [κ.Out .rxLine] [κ.Out .clocks]
    [κ.Out .converters] [κ.Out .calibration] [κ.Out .banks] [κ.Out .dispersion] [κ.Out .frontEnd] [κ.Out .equaliser]
    [κ.Out .monitors] [κ.Out .neighbours] [κ.Out .recovery] [κ.Out .catching] [κ.Out .coding] [κ.Out .defects]
    [κ.Out .overhead] [κ.Out .lanes] [κ.Out .patterns] [κ.Out .ports] [κ.Out .ptp] [κ.Out .classifier] [κ.Out .flows]
    [κ.Out .calendar] [κ.Out .pages] [κ.Out .tributaries] [κ.Out .bonding] [κ.Out .cores] [κ.Out .fuses]
    [κ.Out .slots] [κ.Out .keys] [κ.Out .bindings] [κ.Out .crypt] [κ.Out .time] [κ.Out .timing] [κ.Out .housekeeping]
    [κ.Out .snapshots] [κ.Out .inputs] [κ.Out .pair] [κ.Out .integrity] [κ.Out .custody] [κ.Out .mover]
    [κ.Out .captures]
    {s₀ s : State} (h : Kept κ s₀ s) :
    Kept κ s₀ (State.coldReset s) := by
  unfold State.coldReset
  repeat' first
    | intro _ | with_reducible apply kept_wipe | with_reducible apply kept_ite | split | dsimp only
    | with_reducible assumption | refine kept_fst (by assumption) ?_ | refine kept_snd (by assumption) ?_
    | exact rfl | assumption | exact leaves_none _

theorem kept_warmReset [κ.Out .phase] [κ.Out .memory] [κ.Out .events] [κ.Out .subscribers] [κ.Out .management]
    [κ.Out .views] [κ.Out .identity] [κ.Out .settings] [κ.Out .mode] [κ.Out .boot] [κ.Out .rails] [κ.Out .guard]
    [κ.Out .thermal] [κ.Out .carriers] [κ.Out .slack] [κ.Out .txLine] [κ.Out .rxLine] [κ.Out .clocks]
    [κ.Out .converters] [κ.Out .calibration] [κ.Out .banks] [κ.Out .dispersion] [κ.Out .frontEnd] [κ.Out .equaliser]
    [κ.Out .monitors] [κ.Out .neighbours] [κ.Out .recovery] [κ.Out .catching] [κ.Out .coding] [κ.Out .defects]
    [κ.Out .overhead] [κ.Out .lanes] [κ.Out .patterns] [κ.Out .ports] [κ.Out .ptp] [κ.Out .classifier] [κ.Out .flows]
    [κ.Out .calendar] [κ.Out .pages] [κ.Out .tributaries] [κ.Out .bonding] [κ.Out .cores] [κ.Out .fuses]
    [κ.Out .slots] [κ.Out .keys] [κ.Out .bindings] [κ.Out .crypt] [κ.Out .time] [κ.Out .timing] [κ.Out .housekeeping]
    [κ.Out .snapshots] [κ.Out .inputs] [κ.Out .pair] [κ.Out .integrity] [κ.Out .custody] [κ.Out .mover]
    [κ.Out .captures]
    {s₀ s : State} {cause : Int} (h : Kept κ s₀ s) : Kept κ s₀ (s.warmReset cause) := by
  have w : Kept κ s (s.wipe Reg.keptWarm) := kept_wipe (Kept.refl s)
  exact kept_set (h.trans { w with rings := fun q => ⟨Nat.zero_le _, q.2⟩, sameIntegrity := touched, sameEvents := touched })

theorem kept_afterReset [κ.Out .phase] [κ.Out .memory] [κ.Out .events] [κ.Out .subscribers] [κ.Out .management]
    [κ.Out .views] [κ.Out .identity] [κ.Out .settings] [κ.Out .mode] [κ.Out .boot] [κ.Out .rails] [κ.Out .guard]
    [κ.Out .thermal] [κ.Out .carriers] [κ.Out .slack] [κ.Out .txLine] [κ.Out .rxLine] [κ.Out .clocks]
    [κ.Out .converters] [κ.Out .calibration] [κ.Out .banks] [κ.Out .dispersion] [κ.Out .frontEnd] [κ.Out .equaliser]
    [κ.Out .monitors] [κ.Out .neighbours] [κ.Out .recovery] [κ.Out .catching] [κ.Out .coding] [κ.Out .defects]
    [κ.Out .overhead] [κ.Out .lanes] [κ.Out .patterns] [κ.Out .ports] [κ.Out .ptp] [κ.Out .classifier] [κ.Out .flows]
    [κ.Out .calendar] [κ.Out .pages] [κ.Out .tributaries] [κ.Out .bonding] [κ.Out .cores] [κ.Out .fuses]
    [κ.Out .slots] [κ.Out .keys] [κ.Out .bindings] [κ.Out .crypt] [κ.Out .time] [κ.Out .timing] [κ.Out .housekeeping]
    [κ.Out .snapshots] [κ.Out .inputs] [κ.Out .pair] [κ.Out .integrity] [κ.Out .custody] [κ.Out .mover]
    [κ.Out .captures]
    {s₀ s : State} (h : Kept κ s₀ s) :
    Kept κ s₀ (State.afterReset s) := by
  unfold State.afterReset
  repeat' first
    | intro _ | with_reducible apply kept_warmReset | with_reducible apply kept_ite | split | dsimp only
    | with_reducible assumption | with_reducible apply kept_phase | refine kept_fst (by assumption) ?_
    | refine kept_snd (by assumption) ?_ | exact rfl | assumption | exact leaves_none _

theorem kept_execPorstNLow [κ.Out .phase] [κ.Out .memory] [κ.Out .events] [κ.Out .subscribers] [κ.Out .management]
    [κ.Out .views] [κ.Out .identity] [κ.Out .settings] [κ.Out .mode] [κ.Out .boot] [κ.Out .rails] [κ.Out .guard]
    [κ.Out .thermal] [κ.Out .carriers] [κ.Out .slack] [κ.Out .txLine] [κ.Out .rxLine] [κ.Out .clocks]
    [κ.Out .converters] [κ.Out .calibration] [κ.Out .banks] [κ.Out .dispersion] [κ.Out .frontEnd] [κ.Out .equaliser]
    [κ.Out .monitors] [κ.Out .neighbours] [κ.Out .recovery] [κ.Out .catching] [κ.Out .coding] [κ.Out .defects]
    [κ.Out .overhead] [κ.Out .lanes] [κ.Out .patterns] [κ.Out .ports] [κ.Out .ptp] [κ.Out .classifier] [κ.Out .flows]
    [κ.Out .calendar] [κ.Out .pages] [κ.Out .tributaries] [κ.Out .bonding] [κ.Out .cores] [κ.Out .fuses]
    [κ.Out .slots] [κ.Out .keys] [κ.Out .bindings] [κ.Out .crypt] [κ.Out .time] [κ.Out .timing] [κ.Out .housekeeping]
    [κ.Out .snapshots] [κ.Out .inputs] [κ.Out .pair] [κ.Out .integrity] [κ.Out .custody] [κ.Out .mover]
    [κ.Out .captures]
    {s₀ s : State} (h : Kept κ s₀ s) :
    KeptO κ s₀ (execPorstNLow s) := by
  unfold execPorstNLow
  repeat' first
    | intro _ | with_reducible apply kept_next | with_reducible apply kept_coldReset
    | with_reducible apply kept_ite | split | dsimp only | with_reducible assumption
    | with_reducible apply kept_phase | refine kept_fst (by assumption) ?_ | refine kept_snd (by assumption) ?_
    | exact rfl | assumption | exact leaves_none _

theorem kept_execPorstNRise [κ.Out .phase] [κ.Out .boot] {s₀ s : State} {straps : Fin 512} {railsOk : Bool}
    (h : Kept κ s₀ s) :
    KeptO κ s₀ (execPorstNRise straps railsOk s) := by
  unfold execPorstNRise
  repeat' first
    | intro _ | with_reducible apply kept_next | with_reducible apply kept_set | with_reducible apply kept_ite
    | split | dsimp only | with_reducible assumption | with_reducible apply kept_phase
    | refine kept_fst (by assumption) ?_ | refine kept_snd (by assumption) ?_ | exact rfl | assumption
    | exact (Fact.out : κ .phase = false) | exact (Fact.out : κ .boot = false)

theorem kept_sysrstLow [κ.Out .phase] [κ.Out .memory] [κ.Out .events] [κ.Out .subscribers] [κ.Out .management]
    [κ.Out .views] [κ.Out .identity] [κ.Out .settings] [κ.Out .mode] [κ.Out .boot] [κ.Out .rails] [κ.Out .guard]
    [κ.Out .thermal] [κ.Out .carriers] [κ.Out .slack] [κ.Out .txLine] [κ.Out .rxLine] [κ.Out .clocks]
    [κ.Out .converters] [κ.Out .calibration] [κ.Out .banks] [κ.Out .dispersion] [κ.Out .frontEnd] [κ.Out .equaliser]
    [κ.Out .monitors] [κ.Out .neighbours] [κ.Out .recovery] [κ.Out .catching] [κ.Out .coding] [κ.Out .defects]
    [κ.Out .overhead] [κ.Out .lanes] [κ.Out .patterns] [κ.Out .ports] [κ.Out .ptp] [κ.Out .classifier] [κ.Out .flows]
    [κ.Out .calendar] [κ.Out .pages] [κ.Out .tributaries] [κ.Out .bonding] [κ.Out .cores] [κ.Out .fuses]
    [κ.Out .slots] [κ.Out .keys] [κ.Out .bindings] [κ.Out .crypt] [κ.Out .time] [κ.Out .timing] [κ.Out .housekeeping]
    [κ.Out .snapshots] [κ.Out .inputs] [κ.Out .pair] [κ.Out .integrity] [κ.Out .custody] [κ.Out .mover]
    [κ.Out .captures] {s₀ s : State} (h : Kept κ s₀ s) :
    Kept κ s₀ (State.sysrstLow s) := by
  unfold State.sysrstLow
  repeat' first
    | intro _ | with_reducible apply kept_set | with_reducible apply kept_warmReset | with_reducible apply kept_ite
    | split | dsimp only | with_reducible assumption | with_reducible apply kept_phase
    | refine kept_fst (by assumption) ?_ | refine kept_snd (by assumption) ?_ | exact rfl | assumption
    | exact leaves_none _ | exact (Fact.out : κ .phase = false) | exact (Fact.out : κ .boot = false)

theorem kept_execSysrstNLow [κ.Out .phase] [κ.Out .memory] [κ.Out .events] [κ.Out .subscribers] [κ.Out .management]
    [κ.Out .views] [κ.Out .identity] [κ.Out .settings] [κ.Out .mode] [κ.Out .boot] [κ.Out .rails] [κ.Out .guard]
    [κ.Out .thermal] [κ.Out .carriers] [κ.Out .slack] [κ.Out .txLine] [κ.Out .rxLine] [κ.Out .clocks]
    [κ.Out .converters] [κ.Out .calibration] [κ.Out .banks] [κ.Out .dispersion] [κ.Out .frontEnd] [κ.Out .equaliser]
    [κ.Out .monitors] [κ.Out .neighbours] [κ.Out .recovery] [κ.Out .catching] [κ.Out .coding] [κ.Out .defects]
    [κ.Out .overhead] [κ.Out .lanes] [κ.Out .patterns] [κ.Out .ports] [κ.Out .ptp] [κ.Out .classifier] [κ.Out .flows]
    [κ.Out .calendar] [κ.Out .pages] [κ.Out .tributaries] [κ.Out .bonding] [κ.Out .cores] [κ.Out .fuses]
    [κ.Out .slots] [κ.Out .keys] [κ.Out .bindings] [κ.Out .crypt] [κ.Out .time] [κ.Out .timing] [κ.Out .housekeeping]
    [κ.Out .snapshots] [κ.Out .inputs] [κ.Out .pair] [κ.Out .integrity] [κ.Out .custody] [κ.Out .mover]
    [κ.Out .captures]
    {s₀ s : State} (h : Kept κ s₀ s) :
    KeptO κ s₀ (execSysrstNLow s) := by
  unfold execSysrstNLow
  repeat' first
    | intro _ | with_reducible apply kept_next | with_reducible apply kept_sysrstLow
    | with_reducible apply kept_ite | split | dsimp only | with_reducible assumption
    | refine kept_fst (by assumption) ?_ | refine kept_snd (by assumption) ?_ | exact rfl | assumption
    | exact leaves_none _

theorem kept_sysrstRise [κ.Out .phase] [κ.Out .boot] {s₀ s : State} (h : Kept κ s₀ s) :
    Kept κ s₀ (State.sysrstRise s) := by
  unfold State.sysrstRise
  repeat' first
    | intro _ | with_reducible apply kept_set | with_reducible apply kept_ite | split | dsimp only
    | with_reducible assumption | with_reducible apply kept_phase | refine kept_fst (by assumption) ?_
    | refine kept_snd (by assumption) ?_ | exact rfl | assumption | exact (Fact.out : κ .phase = false)
    | exact (Fact.out : κ .boot = false)

theorem kept_execSysrstNRise [κ.Out .phase] [κ.Out .boot] {s₀ s : State} (h : Kept κ s₀ s) :
    KeptO κ s₀ (execSysrstNRise s) := by
  unfold execSysrstNRise
  repeat' first
    | intro _ | with_reducible apply kept_next | with_reducible apply kept_sysrstRise
    | with_reducible apply kept_ite | split | dsimp only | with_reducible assumption
    | refine kept_fst (by assumption) ?_ | refine kept_snd (by assumption) ?_ | exact rfl | assumption

theorem kept_writeReset [κ.Out .phase] {s₀ s : State} (h : Kept κ s₀ s) :
    Kept κ s₀ (writeReset s).1 := by
  unfold writeReset
  repeat' first
    | intro _ | with_reducible apply kept_set | with_reducible apply kept_ite
    | with_reducible apply kept_ite_fst | split | dsimp only | with_reducible assumption
    | refine kept_fst (by assumption) ?_ | refine kept_snd (by assumption) ?_ | exact rfl | assumption
    | exact (Fact.out : κ .phase = false)

theorem kept_execWarmResetCommand [κ.Out .phase] [κ.Out .memory] [κ.Out .events] [κ.Out .subscribers]
    [κ.Out .management] [κ.Out .views] [κ.Out .identity] [κ.Out .settings] [κ.Out .mode] [κ.Out .boot] [κ.Out .rails]
    [κ.Out .guard] [κ.Out .thermal] [κ.Out .carriers] [κ.Out .slack] [κ.Out .txLine] [κ.Out .rxLine] [κ.Out .clocks]
    [κ.Out .converters] [κ.Out .calibration] [κ.Out .banks] [κ.Out .dispersion] [κ.Out .frontEnd] [κ.Out .equaliser]
    [κ.Out .monitors] [κ.Out .neighbours] [κ.Out .recovery] [κ.Out .catching] [κ.Out .coding] [κ.Out .defects]
    [κ.Out .overhead] [κ.Out .lanes] [κ.Out .patterns] [κ.Out .ports] [κ.Out .ptp] [κ.Out .classifier] [κ.Out .flows]
    [κ.Out .calendar] [κ.Out .pages] [κ.Out .tributaries] [κ.Out .bonding] [κ.Out .cores] [κ.Out .fuses]
    [κ.Out .slots] [κ.Out .keys] [κ.Out .bindings] [κ.Out .crypt] [κ.Out .time] [κ.Out .timing] [κ.Out .housekeeping]
    [κ.Out .snapshots] [κ.Out .inputs] [κ.Out .pair] [κ.Out .integrity] [κ.Out .custody] [κ.Out .mover]
    [κ.Out .captures]
    {s₀ : State} {cl : Client} {s : State} (h : Kept κ s₀ s) :
    KeptO κ s₀ (execWarmResetCommand cl s) := by
  unfold execWarmResetCommand
  repeat' first
    | intro _ | with_reducible apply kept_next | with_reducible apply kept_afterReset
    | with_reducible refine kept_serveWrite ?_ ?_ (by first | exact .inl (by decide) | exact .inr Fact.out) | with_reducible apply kept_writeReset
    | with_reducible apply kept_ite | split | dsimp only | with_reducible assumption
    | refine kept_fst (by assumption) ?_ | refine kept_snd (by assumption) ?_ | exact rfl | assumption
    | exact leaves_none _

theorem kept_execFuseLoadStart [κ.Out .phase] {s₀ s : State} (h : Kept κ s₀ s) :
    KeptO κ s₀ (execFuseLoadStart s) := by
  unfold execFuseLoadStart
  repeat' first
    | intro _ | with_reducible apply kept_next | with_reducible apply kept_ite | split | dsimp only
    | with_reducible assumption | with_reducible apply kept_phase | refine kept_fst (by assumption) ?_
    | refine kept_snd (by assumption) ?_ | exact rfl | assumption

theorem kept_fuseLoaded [κ.Out .phase] [κ.Out .memory] [κ.Out .events] [κ.Out .subscribers] [κ.Out .management]
    [κ.Out .views] [κ.Out .identity] [κ.Out .settings] [κ.Out .mode] [κ.Out .boot] [κ.Out .rails] [κ.Out .guard]
    [κ.Out .thermal] [κ.Out .carriers] [κ.Out .slack] [κ.Out .txLine] [κ.Out .rxLine] [κ.Out .clocks]
    [κ.Out .converters] [κ.Out .calibration] [κ.Out .banks] [κ.Out .dispersion] [κ.Out .frontEnd] [κ.Out .equaliser]
    [κ.Out .monitors] [κ.Out .neighbours] [κ.Out .recovery] [κ.Out .catching] [κ.Out .coding] [κ.Out .defects]
    [κ.Out .overhead] [κ.Out .lanes] [κ.Out .patterns] [κ.Out .ports] [κ.Out .ptp] [κ.Out .classifier] [κ.Out .flows]
    [κ.Out .calendar] [κ.Out .pages] [κ.Out .tributaries] [κ.Out .bonding] [κ.Out .cores] [κ.Out .fuses]
    [κ.Out .slots] [κ.Out .keys] [κ.Out .bindings] [κ.Out .crypt] [κ.Out .time] [κ.Out .timing] [κ.Out .housekeeping]
    [κ.Out .snapshots] [κ.Out .inputs] [κ.Out .pair] [κ.Out .integrity] [κ.Out .custody] [κ.Out .mover]
    [κ.Out .captures] {s₀ s : State} {failed : List Nat} (h : Kept κ s₀ s) :
    Kept κ s₀ (State.fuseLoaded s failed) := by
  unfold State.fuseLoaded
  repeat' first
    | intro _ | with_reducible apply kept_warmReset | with_reducible apply kept_each
    | with_reducible apply kept_emit | with_reducible apply kept_set | with_reducible apply kept_coresTested
    | with_reducible apply kept_ite | split | dsimp only | with_reducible assumption
    | with_reducible apply kept_phase | refine kept_fst (by assumption) ?_ | refine kept_snd (by assumption) ?_
    | exact rfl | assumption | exact leaves_none _ | exact (Fact.out : κ .phase = false)
    | exact (Fact.out : κ .management = false) | exact (Fact.out : κ .housekeeping = false)

theorem kept_execFuseLoadEnd [κ.Out .phase] [κ.Out .memory] [κ.Out .events] [κ.Out .subscribers] [κ.Out .management]
    [κ.Out .views] [κ.Out .identity] [κ.Out .settings] [κ.Out .mode] [κ.Out .boot] [κ.Out .rails] [κ.Out .guard]
    [κ.Out .thermal] [κ.Out .carriers] [κ.Out .slack] [κ.Out .txLine] [κ.Out .rxLine] [κ.Out .clocks]
    [κ.Out .converters] [κ.Out .calibration] [κ.Out .banks] [κ.Out .dispersion] [κ.Out .frontEnd] [κ.Out .equaliser]
    [κ.Out .monitors] [κ.Out .neighbours] [κ.Out .recovery] [κ.Out .catching] [κ.Out .coding] [κ.Out .defects]
    [κ.Out .overhead] [κ.Out .lanes] [κ.Out .patterns] [κ.Out .ports] [κ.Out .ptp] [κ.Out .classifier] [κ.Out .flows]
    [κ.Out .calendar] [κ.Out .pages] [κ.Out .tributaries] [κ.Out .bonding] [κ.Out .cores] [κ.Out .fuses]
    [κ.Out .slots] [κ.Out .keys] [κ.Out .bindings] [κ.Out .crypt] [κ.Out .time] [κ.Out .timing] [κ.Out .housekeeping]
    [κ.Out .snapshots] [κ.Out .inputs] [κ.Out .pair] [κ.Out .integrity] [κ.Out .custody] [κ.Out .mover]
    [κ.Out .captures]
    {s₀ : State}
    {failed : List (Fin 52)} {s : State} (h : Kept κ s₀ s) :
    KeptO κ s₀ (execFuseLoadEnd failed s) := by
  unfold execFuseLoadEnd
  repeat' first
    | intro _ | with_reducible apply kept_next | with_reducible apply kept_fuseLoaded
    | with_reducible apply kept_ite | split | dsimp only | with_reducible assumption
    | refine kept_fst (by assumption) ?_ | refine kept_snd (by assumption) ?_ | exact rfl | assumption
    | exact leaves_none _

theorem kept_imageLoaded [κ.Out .events] [κ.Out .boot] [κ.Out .housekeeping] [κ.Out .captures] {s₀ s : State}
    {status : Nat} {slot : Nat} {version : Nat} (h : Kept κ s₀ s) :
    Kept κ s₀ (State.imageLoaded s status slot version) := by
  unfold State.imageLoaded
  repeat' first
    | intro _ | with_reducible apply kept_raise | with_reducible apply kept_set | with_reducible apply kept_ite
    | split | dsimp only | with_reducible assumption | refine kept_fst (by assumption) ?_
    | refine kept_snd (by assumption) ?_ | exact rfl | assumption | exact (Fact.out : κ .boot = false)

theorem kept_imageRefused [κ.Out .events] [κ.Out .housekeeping] [κ.Out .captures] {s₀ s : State} {slot : Nat}
    {status : Nat} (h : Kept κ s₀ s) :
    Kept κ s₀ (State.imageRefused s slot status) := by
  unfold State.imageRefused
  repeat' first
    | intro _ | with_reducible apply kept_raise | with_reducible apply kept_ite | split | dsimp only
    | with_reducible assumption | refine kept_fst (by assumption) ?_ | refine kept_snd (by assumption) ?_
    | exact rfl | assumption

theorem kept_bootFailed [κ.Out .boot] {s₀ s : State} {status : Nat} (h : Kept κ s₀ s) :
    Kept κ s₀ (State.bootFailed s status) := by
  unfold State.bootFailed
  repeat' first
    | intro _ | with_reducible apply kept_set | with_reducible apply kept_ite | split | dsimp only
    | with_reducible assumption | refine kept_fst (by assumption) ?_ | refine kept_snd (by assumption) ?_
    | exact rfl | assumption | exact (Fact.out : κ .boot = false)

theorem kept_imageLoad [κ.Out .events] [κ.Out .boot] [κ.Out .housekeeping] [κ.Out .captures] {s₀ s : State}
    {sfdp : Option Bool} {first : Option (List Byte)} {second : Option (List Byte)} (h : Kept κ s₀ s) :
    Kept κ s₀ (State.imageLoad s sfdp first second) := by
  unfold State.imageLoad
  repeat' first
    | intro _ | with_reducible apply kept_emit | with_reducible apply kept_imageLoaded
    | with_reducible apply kept_imageRefused | with_reducible apply kept_bootFailed | with_reducible apply kept_ite
    | split | dsimp only | with_reducible assumption | refine kept_fst (by assumption) ?_
    | refine kept_snd (by assumption) ?_ | exact rfl | assumption

theorem kept_execImageLoadComplete [κ.Out .events] [κ.Out .boot] [κ.Out .housekeeping] [κ.Out .captures]
    {s₀ s : State} {flash : FlashReading} {second : Option (List Byte)} (h : Kept κ s₀ s) :
    KeptO κ s₀ (execImageLoadComplete flash second s) := by
  unfold execImageLoadComplete
  repeat' first
    | intro _ | with_reducible apply kept_live | with_reducible apply kept_imageLoad
    | with_reducible apply kept_ite | split | dsimp only | with_reducible assumption
    | refine kept_fst (by assumption) ?_ | refine kept_snd (by assumption) ?_ | exact rfl | assumption

theorem kept_execHbmTrainingComplete [κ.Out .boot] {s₀ s : State} (h : Kept κ s₀ s) :
    KeptO κ s₀ (execHbmTrainingComplete s) := by
  unfold execHbmTrainingComplete
  repeat' first
    | intro _ | with_reducible apply kept_next | with_reducible apply kept_set | with_reducible apply kept_ite
    | split | dsimp only | with_reducible assumption | refine kept_fst (by assumption) ?_
    | refine kept_snd (by assumption) ?_ | exact rfl | assumption | exact (Fact.out : κ .boot = false)

theorem kept_writeHostImage [κ.Out .boot] {s₀ : State} {b : List Byte} {s : State} (h : Kept κ s₀ s) :
    Kept κ s₀ (writeHostImage b s).1 := by
  unfold writeHostImage
  repeat' first
    | intro _ | with_reducible apply kept_setBlob | with_reducible apply kept_ite
    | with_reducible apply kept_ite_fst | split | dsimp only | with_reducible assumption
    | refine kept_fst (by assumption) ?_ | refine kept_snd (by assumption) ?_ | exact rfl | assumption
    | exact (Fact.out : κ .boot = false)

theorem kept_writeHostLoad [κ.Out .events] [κ.Out .boot] [κ.Out .housekeeping] [κ.Out .captures] {s₀ s : State}
    (h : Kept κ s₀ s) :
    Kept κ s₀ (writeHostLoad s).1 := by
  unfold writeHostLoad
  repeat' first
    | intro _ | with_reducible apply kept_imageLoaded | with_reducible apply kept_imageRefused
    | with_reducible apply kept_bootFailed | with_reducible apply kept_ite | with_reducible apply kept_ite_fst
    | split | dsimp only | with_reducible assumption | refine kept_fst (by assumption) ?_
    | refine kept_snd (by assumption) ?_ | exact rfl | assumption

theorem kept_execHostImageLoad [κ.Out .events] [κ.Out .management] [κ.Out .boot] [κ.Out .housekeeping]
    [κ.Out .captures] {s₀ : State} {cl : Client} {s : State} (h : Kept κ s₀ s) :
    KeptO κ s₀ (execHostImageLoad cl s) := by
  unfold execHostImageLoad
  repeat' first
    | intro _ | with_reducible apply kept_next | with_reducible refine kept_serveWrite ?_ ?_ (by first | exact .inl (by decide) | exact .inr Fact.out)
    | with_reducible apply kept_writeHostLoad | with_reducible apply kept_ite | split | dsimp only
    | with_reducible assumption | refine kept_fst (by assumption) ?_ | refine kept_snd (by assumption) ?_
    | exact rfl | assumption

theorem kept_writeForerunner [κ.Out .subscribers] [κ.Out .management] [κ.Out .views] {s₀ s : State} {v : Int}
    (h : Kept κ s₀ s) : Kept κ s₀ (writeForerunner v s).1 := by
  unfold writeForerunner
  dsimp only
  have h1 : Kept κ s₀ ((s.set .forerunnerEnable 0 v).set .forerunnerActive 0 v) := kept_set (kept_set h)
  generalize (s.set .forerunnerEnable 0 v).set .forerunnerActive 0 v = a at h1
  refine kept_ite ?_ h1
  have h2 : Kept κ s₀ { a with transfers := a.transfers.filter fun x => !x.fore } := kept_transfers h1
  refine kept_subscribers_sub (p := fun x => !x.fore) (kept_staging (l := a.staging.filter fun x => !x.fore) ?_ h2)
  exact .inl (List.length_filter_le _ _)

theorem kept_execForerunnerEnableWrite [κ.Out .events] [κ.Out .subscribers] [κ.Out .management] [κ.Out .views]
    [κ.Out .housekeeping] [κ.Out .captures] {s₀ : State} {cl : Client} {v : Bool} {s : State} (h : Kept κ s₀ s) :
    KeptO κ s₀ (execForerunnerEnableWrite cl v s) := by
  unfold execForerunnerEnableWrite
  repeat' first
    | intro _ | with_reducible apply kept_next | with_reducible refine kept_serveWrite ?_ ?_ (by first | exact .inl (by decide) | exact .inr Fact.out)
    | with_reducible apply kept_writeForerunner | with_reducible apply kept_ite | split | dsimp only
    | with_reducible assumption | refine kept_fst (by assumption) ?_ | refine kept_snd (by assumption) ?_
    | exact rfl | assumption

end Sys2Proof.Laws
end

