-- ==== Sys2Proof/Laws/Kept/Inputs.lean ====
section
/-! SUPPORT. Every operation of Machine/Inputs.lean keeps (Laws/Kept.lean). -/

set_option Elab.async false
set_option linter.unusedTactic false
set_option linter.unreachableTactic false
set_option linter.unusedVariables false

namespace Sys2Proof.Laws

open Sys2Proof.Machine

variable {κ : Scope}

theorem kept_writeEventEnable [κ.Out .events] {s₀ : State} {e : Nat} {v : Int} {s : State} (h : Kept κ s₀ s) :
    Kept κ s₀ (writeEventEnable e v s).1 := by
  unfold writeEventEnable
  repeat' first
    | intro _ | with_reducible apply kept_set | with_reducible apply kept_ite
    | with_reducible apply kept_ite_fst | split | dsimp only | with_reducible assumption
    | refine kept_fst (by assumption) ?_ | refine kept_snd (by assumption) ?_ | exact rfl | assumption
    | exact (Fact.out : κ .events = false)

theorem kept_writeClear {s₀ : State} {r : Reg} {i : Nat} {v : Int} {s : State}
    (hr : κ (Safety.part r) = false := by
      first | assumption | ((conv in Safety.part _ => whnf); exact Fact.out) | exact leaves_none _)
    (h : Kept κ s₀ s) :
    Kept κ s₀ (writeClear r i v s).1 := by
  unfold writeClear
  repeat' first
    | intro _ | with_reducible apply kept_set | with_reducible apply kept_ite
    | with_reducible apply kept_ite_fst | split | dsimp only | with_reducible assumption
    | refine kept_fst (by assumption) ?_ | refine kept_snd (by assumption) ?_ | exact rfl | assumption

theorem kept_execEventLatchClear [κ.Out .events] [κ.Out .management] [κ.Out .housekeeping] [κ.Out .captures]
    {s₀ : State} {cl : Client} {e : Fin 1408} {s : State} (h : Kept κ s₀ s) :
    KeptO κ s₀ (execEventLatchClear cl e s) := by
  unfold execEventLatchClear
  repeat' first
    | intro _ | with_reducible apply kept_next | with_reducible refine kept_serveWrite ?_ ?_ (by first | exact .inl (by decide) | exact .inr Fact.out)
    | with_reducible apply kept_writeClear | with_reducible apply kept_ite | split | dsimp only
    | with_reducible assumption | refine kept_fst (by assumption) ?_ | refine kept_snd (by assumption) ?_
    | exact rfl | assumption | exact (Fact.out : κ .events = false)

theorem kept_clearLatched [κ.Out .events] {s₀ s : State} (h : Kept κ s₀ s) : Kept κ s₀ s.clearLatched := by
  refine kept_regs_filter (p := fun k => k.1 != .eventLatched) (fun r i e => ?_) h
  have hr : r ≠ .eventLatched := by
    rintro rfl
    exact touched (b := κ .events) e
  simpa using hr

theorem kept_writeClearLatched [κ.Out .events] {s₀ s : State} (h : Kept κ s₀ s) :
    Kept κ s₀ (writeClearLatched s).1 := by
  unfold writeClearLatched
  repeat' first
    | intro _ | with_reducible apply kept_clearLatched | with_reducible apply kept_ite
    | with_reducible apply kept_ite_fst | split | dsimp only | with_reducible assumption
    | refine kept_fst (by assumption) ?_ | refine kept_snd (by assumption) ?_ | exact rfl | assumption

theorem kept_execClearAllLatched [κ.Out .events] [κ.Out .management] [κ.Out .housekeeping] [κ.Out .captures]
    {s₀ : State} {cl : Client} {s : State} (h : Kept κ s₀ s) :
    KeptO κ s₀ (execClearAllLatched cl s) := by
  unfold execClearAllLatched
  repeat' first
    | intro _ | with_reducible apply kept_next | with_reducible refine kept_serveWrite ?_ ?_ (by first | exact .inl (by decide) | exact .inr Fact.out)
    | with_reducible apply kept_writeClearLatched | with_reducible apply kept_ite | split | dsimp only
    | with_reducible assumption | refine kept_fst (by assumption) ?_ | refine kept_snd (by assumption) ?_
    | exact rfl | assumption

theorem kept_writeActiveHigh [κ.Out .inputs] {s₀ : State} {i : Nat} {v : Int} {s : State} (h : Kept κ s₀ s) :
    Kept κ s₀ (writeActiveHigh i v s).1 := by
  unfold writeActiveHigh
  repeat' first
    | intro _ | with_reducible apply kept_set | with_reducible apply kept_ite
    | with_reducible apply kept_ite_fst | split | dsimp only | with_reducible assumption
    | refine kept_fst (by assumption) ?_ | refine kept_snd (by assumption) ?_ | exact rfl | assumption
    | exact (Fact.out : κ .inputs = false)

theorem kept_inputRecord [κ.Out .events] [κ.Out .housekeeping] [κ.Out .captures] {s₀ s : State} {i : Nat}
    {kind : Nat} {more : List Item} {k : Mark} (h : Kept κ s₀ s) :
    Kept κ s₀ (State.inputRecord s i kind more k) := by
  unfold State.inputRecord
  repeat' first
    | intro _ | with_reducible apply kept_raiseMarked | with_reducible apply kept_ite | split | dsimp only
    | with_reducible assumption | refine kept_fst (by assumption) ?_ | refine kept_snd (by assumption) ?_
    | exact rfl | assumption

theorem kept_ppsCapture [κ.Out .time] {s₀ s : State} {j : Nat} (h : Kept κ s₀ s) :
    Kept κ s₀ (State.ppsCapture s j) := by
  unfold State.ppsCapture
  repeat' first
    | intro _ | with_reducible apply kept_each | with_reducible apply kept_bump
    | with_reducible apply kept_setBlob | with_reducible apply kept_ite | split | dsimp only
    | with_reducible assumption | refine kept_fst (by assumption) ?_ | refine kept_snd (by assumption) ?_
    | exact rfl | assumption | exact (Fact.out : κ .time = false)

theorem kept_inputEdge [κ.Out .events] [κ.Out .defects] [κ.Out .time] [κ.Out .housekeeping] [κ.Out .snapshots]
    [κ.Out .inputs] [κ.Out .captures] {s₀ s : State} {i : Nat} {active : Bool} (h : Kept κ s₀ s) :
    Kept κ s₀ (State.inputEdge s i active) := by
  unfold State.inputEdge
  extract_lets x1 x2 x3 x4 x5
  have k1 : Kept κ s₀ x1 := by
    unfold x1
    repeat' first
      | intro _ | with_reducible apply kept_set | with_reducible apply kept_bump
      | with_reducible apply kept_setBit | with_reducible apply kept_inputRecord
      | with_reducible apply kept_setFlag | with_reducible apply kept_ppsCapture | with_reducible apply kept_ite
      | split | dsimp only | with_reducible assumption | refine kept_fst (by assumption) ?_
      | refine kept_snd (by assumption) ?_ | exact rfl | assumption | exact (Fact.out : κ .defects = false)
      | exact (Fact.out : κ .snapshots = false) | exact (Fact.out : κ .inputs = false)
  clear_value x1
  have k3 : Kept κ s₀ x3 := by
    unfold x3
    repeat' first
      | intro _ | with_reducible apply kept_set | with_reducible apply kept_bump
      | with_reducible apply kept_setBit | with_reducible apply kept_inputRecord
      | with_reducible apply kept_setFlag | with_reducible apply kept_ppsCapture | with_reducible apply kept_ite
      | split | dsimp only | with_reducible assumption | refine kept_fst (by assumption) ?_
      | refine kept_snd (by assumption) ?_ | exact rfl | assumption | exact (Fact.out : κ .defects = false)
      | exact (Fact.out : κ .snapshots = false) | exact (Fact.out : κ .inputs = false)
  clear_value x3
  have k4 : Kept κ s₀ x4 := by
    unfold x4
    repeat' first
      | intro _ | with_reducible apply kept_set | with_reducible apply kept_bump
      | with_reducible apply kept_setBit | with_reducible apply kept_inputRecord
      | with_reducible apply kept_setFlag | with_reducible apply kept_ppsCapture | with_reducible apply kept_ite
      | split | dsimp only | with_reducible assumption | refine kept_fst (by assumption) ?_
      | refine kept_snd (by assumption) ?_ | exact rfl | assumption | exact (Fact.out : κ .defects = false)
      | exact (Fact.out : κ .snapshots = false) | exact (Fact.out : κ .inputs = false)
  clear_value x4
  have k5 : Kept κ s₀ x5 := by
    unfold x5
    repeat' first
      | intro _ | with_reducible apply kept_set | with_reducible apply kept_bump
      | with_reducible apply kept_setBit | with_reducible apply kept_inputRecord
      | with_reducible apply kept_setFlag | with_reducible apply kept_ppsCapture | with_reducible apply kept_ite
      | split | dsimp only | with_reducible assumption | refine kept_fst (by assumption) ?_
      | refine kept_snd (by assumption) ?_ | exact rfl | assumption | exact (Fact.out : κ .defects = false)
      | exact (Fact.out : κ .snapshots = false) | exact (Fact.out : κ .inputs = false)
  clear_value x5
  repeat' first
    | intro _ | with_reducible apply kept_set | with_reducible apply kept_bump
    | with_reducible apply kept_setBit | with_reducible apply kept_inputRecord
    | with_reducible apply kept_setFlag | with_reducible apply kept_ppsCapture | with_reducible apply kept_ite
    | split | dsimp only | with_reducible assumption | refine kept_fst (by assumption) ?_
    | refine kept_snd (by assumption) ?_ | exact rfl | assumption | exact (Fact.out : κ .defects = false)
    | exact (Fact.out : κ .snapshots = false) | exact (Fact.out : κ .inputs = false)

theorem kept_inputSample [κ.Out .events] [κ.Out .defects] [κ.Out .time] [κ.Out .housekeeping] [κ.Out .snapshots]
    [κ.Out .inputs] [κ.Out .captures] {s₀ s : State} {i : Nat} {level : Bool} {ago : Nat} (h : Kept κ s₀ s) :
    Kept κ s₀ (State.inputSample s i level ago) := by
  unfold State.inputSample
  repeat' first
    | intro _ | with_reducible apply kept_set | with_reducible apply kept_each
    | with_reducible apply kept_inputEdge | with_reducible apply kept_ite | split | dsimp only
    | with_reducible assumption | refine kept_fst (by assumption) ?_ | refine kept_snd (by assumption) ?_
    | exact rfl | assumption | exact (Fact.out : κ .time = false) | exact (Fact.out : κ .inputs = false)

theorem kept_inputsSample [κ.Out .events] [κ.Out .defects] [κ.Out .time] [κ.Out .housekeeping] [κ.Out .snapshots]
    [κ.Out .inputs] [κ.Out .captures] {s₀ s : State} {levels : Vector Bool 36} {ago : Vector Nat 4}
    (h : Kept κ s₀ s) :
    Kept κ s₀ (State.inputsSample s levels ago) := by
  unfold State.inputsSample
  repeat' first
    | intro _ | with_reducible apply kept_set | with_reducible apply kept_each
    | with_reducible apply kept_inputSample | with_reducible apply kept_ite | split | dsimp only
    | with_reducible assumption | refine kept_fst (by assumption) ?_ | refine kept_snd (by assumption) ?_
    | exact rfl | assumption | exact (Fact.out : κ .inputs = false)

theorem kept_execInputSample [κ.Out .events] [κ.Out .defects] [κ.Out .time] [κ.Out .housekeeping] [κ.Out .snapshots]
    [κ.Out .inputs] [κ.Out .captures] {s₀ : State} {levels : Vector Bool 36} {ago : Vector Nat 4} {s : State}
    (h : Kept κ s₀ s) :
    KeptO κ s₀ (execInputSample levels ago s) := by
  unfold execInputSample
  repeat' first
    | intro _ | with_reducible apply kept_next | with_reducible apply kept_live
    | with_reducible apply kept_inputsSample | with_reducible apply kept_ite | split | dsimp only
    | with_reducible assumption | refine kept_fst (by assumption) ?_ | refine kept_snd (by assumption) ?_
    | exact rfl | assumption

theorem kept_inputStuck [κ.Out .events] [κ.Out .housekeeping] [κ.Out .inputs] [κ.Out .captures] {s₀ s : State}
    {i : Nat} (h : Kept κ s₀ s) :
    Kept κ s₀ (State.inputStuck s i) := by
  unfold State.inputStuck
  repeat' first
    | intro _ | with_reducible apply kept_inputRecord | with_reducible apply kept_setBit
    | with_reducible apply kept_ite | split | dsimp only | with_reducible assumption
    | refine kept_fst (by assumption) ?_ | refine kept_snd (by assumption) ?_ | exact rfl | assumption
    | exact (Fact.out : κ .inputs = false)

theorem kept_execInputStuck [κ.Out .events] [κ.Out .housekeeping] [κ.Out .inputs] [κ.Out .captures] {s₀ : State}
    {i : Fin 36} {s : State} (h : Kept κ s₀ s) :
    KeptO κ s₀ (execInputStuck i s) := by
  unfold execInputStuck
  repeat' first
    | intro _ | with_reducible apply kept_next | with_reducible apply kept_live
    | with_reducible apply kept_inputStuck | with_reducible apply kept_ite | split | dsimp only
    | with_reducible assumption | refine kept_fst (by assumption) ?_ | refine kept_snd (by assumption) ?_
    | exact rfl | assumption

theorem kept_inputWindow [κ.Out .events] [κ.Out .housekeeping] [κ.Out .snapshots] [κ.Out .inputs] [κ.Out .captures]
    {s₀ s : State} {i : Nat} (h : Kept κ s₀ s) :
    Kept κ s₀ (State.inputWindow s i) := by
  unfold State.inputWindow
  repeat' first
    | intro _ | with_reducible apply kept_inputRecord | with_reducible apply kept_setBit
    | with_reducible apply kept_set | with_reducible apply kept_ite | split | dsimp only
    | with_reducible assumption | refine kept_fst (by assumption) ?_ | refine kept_snd (by assumption) ?_
    | exact rfl | assumption | exact (Fact.out : κ .snapshots = false) | exact (Fact.out : κ .inputs = false)

theorem kept_execInputRateWindowEnd [κ.Out .events] [κ.Out .housekeeping] [κ.Out .snapshots] [κ.Out .inputs]
    [κ.Out .captures] {s₀ s : State} (h : Kept κ s₀ s) :
    KeptO κ s₀ (execInputRateWindowEnd s) := by
  unfold execInputRateWindowEnd
  repeat' first
    | intro _ | with_reducible apply kept_next | with_reducible apply kept_live | with_reducible apply kept_each
    | with_reducible apply kept_inputWindow | with_reducible apply kept_ite | split | dsimp only
    | with_reducible assumption | refine kept_fst (by assumption) ?_ | refine kept_snd (by assumption) ?_
    | exact rfl | assumption

end Sys2Proof.Laws
end

