-- ==== Sys2Proof/Laws/Kept/Role.lean ====
section
/-! SUPPORT. Every operation of Machine/Role.lean keeps (Laws/Kept.lean). -/

set_option Elab.async false
set_option linter.unusedTactic false
set_option linter.unreachableTactic false
set_option linter.unusedVariables false

namespace Sys2Proof.Laws

open Sys2Proof.Machine

variable {κ : Scope}

theorem kept_setReady [κ.Out .events] [κ.Out .housekeeping] [κ.Out .pair] [κ.Out .captures] {s₀ s : State}
    {v : Bool} (h : Kept κ s₀ s) :
    Kept κ s₀ (State.setReady s v) := by
  unfold State.setReady
  repeat' first
    | intro _ | with_reducible apply kept_raise | with_reducible apply kept_setFlag
    | with_reducible apply kept_ite | split | dsimp only | with_reducible assumption
    | refine kept_fst (by assumption) ?_ | refine kept_snd (by assumption) ?_ | exact rfl | assumption
    | exact (Fact.out : κ .pair = false)

theorem kept_judgeReady [κ.Out .events] [κ.Out .housekeeping] [κ.Out .pair] [κ.Out .captures] {s₀ s : State}
    (h : Kept κ s₀ s) :
    Kept κ s₀ (State.judgeReady s) := by
  unfold State.judgeReady
  repeat' first
    | intro _ | with_reducible apply kept_setReady | with_reducible apply kept_ite | split | dsimp only
    | with_reducible assumption | refine kept_fst (by assumption) ?_ | refine kept_snd (by assumption) ?_
    | exact rfl | assumption

theorem kept_emptyTribQueues [κ.Out .events] [κ.Out .ports] [κ.Out .flows] [κ.Out .tributaries] [κ.Out .housekeeping]
    [κ.Out .captures] {s₀ s : State} (h : Kept κ s₀ s) :
    Kept κ s₀ (State.emptyTribQueues s) := by
  unfold State.emptyTribQueues
  repeat' first
    | intro _ | with_reducible apply kept_each | with_reducible apply kept_putTribQueue
    | with_reducible apply kept_ite | split | dsimp only | with_reducible assumption
    | refine kept_fst (by assumption) ?_ | refine kept_snd (by assumption) ?_ | exact rfl | assumption

theorem kept_switchOut [κ.Out .pair] {s₀ s : State} {v : Int} (h : Kept κ s₀ s) :
    Kept κ s₀ (State.switchOut s v) := by
  unfold State.switchOut
  repeat' first
    | intro _ | with_reducible apply kept_set | with_reducible apply kept_ite | split | dsimp only
    | with_reducible assumption | refine kept_fst (by assumption) ?_ | refine kept_snd (by assumption) ?_
    | exact rfl | assumption | exact (Fact.out : κ .pair = false)

theorem kept_becomeActive [κ.Out .events] [κ.Out .ports] [κ.Out .flows] [κ.Out .tributaries] [κ.Out .slots]
    [κ.Out .housekeeping] [κ.Out .pair] [κ.Out .captures] {s₀ s : State} {cause : Nat} (h : Kept κ s₀ s) :
    Kept κ s₀ (State.becomeActive s cause) := by
  unfold State.becomeActive
  extract_lets x1 x2 x3 x4 x5
  have k2 : Kept κ s₀ x2 := by
    unfold x2
    repeat' first
      | intro _ | with_reducible apply kept_set | with_reducible apply kept_switchOut
      | with_reducible apply kept_each | with_reducible apply kept_emptyTribQueues
      | with_reducible apply kept_leaseFirst | with_reducible apply kept_bump | with_reducible apply kept_setReady
      | with_reducible apply kept_raise | with_reducible apply kept_ite | split | dsimp only
      | with_reducible assumption | refine kept_fst (by assumption) ?_ | refine kept_snd (by assumption) ?_
      | exact rfl | assumption | exact (Fact.out : κ .slots = false) | exact (Fact.out : κ .pair = false)
  clear_value x2
  have k3 : Kept κ s₀ x3 := by
    unfold x3
    repeat' first
      | intro _ | with_reducible apply kept_set | with_reducible apply kept_switchOut
      | with_reducible apply kept_each | with_reducible apply kept_emptyTribQueues
      | with_reducible apply kept_leaseFirst | with_reducible apply kept_bump | with_reducible apply kept_setReady
      | with_reducible apply kept_raise | with_reducible apply kept_ite | split | dsimp only
      | with_reducible assumption | refine kept_fst (by assumption) ?_ | refine kept_snd (by assumption) ?_
      | exact rfl | assumption | exact (Fact.out : κ .slots = false) | exact (Fact.out : κ .pair = false)
  clear_value x3
  have k4 : Kept κ s₀ x4 := by
    unfold x4
    repeat' first
      | intro _ | with_reducible apply kept_set | with_reducible apply kept_switchOut
      | with_reducible apply kept_each | with_reducible apply kept_emptyTribQueues
      | with_reducible apply kept_leaseFirst | with_reducible apply kept_bump | with_reducible apply kept_setReady
      | with_reducible apply kept_raise | with_reducible apply kept_ite | split | dsimp only
      | with_reducible assumption | refine kept_fst (by assumption) ?_ | refine kept_snd (by assumption) ?_
      | exact rfl | assumption | exact (Fact.out : κ .slots = false) | exact (Fact.out : κ .pair = false)
  clear_value x4
  have k5 : Kept κ s₀ x5 := by
    unfold x5
    repeat' first
      | intro _ | with_reducible apply kept_set | with_reducible apply kept_switchOut
      | with_reducible apply kept_each | with_reducible apply kept_emptyTribQueues
      | with_reducible apply kept_leaseFirst | with_reducible apply kept_bump | with_reducible apply kept_setReady
      | with_reducible apply kept_raise | with_reducible apply kept_ite | split | dsimp only
      | with_reducible assumption | refine kept_fst (by assumption) ?_ | refine kept_snd (by assumption) ?_
      | exact rfl | assumption | exact (Fact.out : κ .slots = false) | exact (Fact.out : κ .pair = false)
  clear_value x5
  repeat' first
    | intro _ | with_reducible apply kept_set | with_reducible apply kept_switchOut
    | with_reducible apply kept_each | with_reducible apply kept_emptyTribQueues
    | with_reducible apply kept_leaseFirst | with_reducible apply kept_bump | with_reducible apply kept_setReady
    | with_reducible apply kept_raise | with_reducible apply kept_ite | split | dsimp only
    | with_reducible assumption | refine kept_fst (by assumption) ?_ | refine kept_snd (by assumption) ?_
    | exact rfl | assumption | exact (Fact.out : κ .slots = false) | exact (Fact.out : κ .pair = false)

theorem kept_becomeStandby [κ.Out .events] [κ.Out .slots] [κ.Out .housekeeping] [κ.Out .pair] [κ.Out .captures]
    {s₀ s : State} (h : Kept κ s₀ s) :
    Kept κ s₀ (State.becomeStandby s) := by
  unfold State.becomeStandby
  repeat' first
    | intro _ | with_reducible apply kept_set | with_reducible apply kept_switchOut
    | with_reducible apply kept_each | with_reducible apply kept_judgeReady | with_reducible apply kept_ite
    | split | dsimp only | with_reducible assumption | refine kept_fst (by assumption) ?_
    | refine kept_snd (by assumption) ?_ | exact rfl | assumption | exact (Fact.out : κ .slots = false)
    | exact (Fact.out : κ .pair = false)

theorem kept_endRole [κ.Out .events] [κ.Out .ports] [κ.Out .flows] [κ.Out .tributaries] [κ.Out .slots]
    [κ.Out .housekeeping] [κ.Out .pair] [κ.Out .captures] {s₀ s : State} (h : Kept κ s₀ s) :
    Kept κ s₀ (State.endRole s) := by
  unfold State.endRole
  extract_lets x1 x2 x3 x4
  have k1 : Kept κ s₀ x1 := by
    unfold x1
    repeat' first
      | intro _ | with_reducible apply kept_tieSend | with_reducible apply kept_each
      | with_reducible apply kept_set | with_reducible apply kept_emptyTribQueues
      | with_reducible apply kept_switchOut | with_reducible apply kept_setReady | with_reducible apply kept_ite
      | split | dsimp only | with_reducible assumption | refine kept_fst (by assumption) ?_
      | refine kept_snd (by assumption) ?_ | exact rfl | assumption | exact (Fact.out : κ .slots = false)
      | exact (Fact.out : κ .pair = false)
  clear_value x1
  have k2 : Kept κ s₀ x2 := by
    unfold x2
    repeat' first
      | intro _ | with_reducible apply kept_tieSend | with_reducible apply kept_each
      | with_reducible apply kept_set | with_reducible apply kept_emptyTribQueues
      | with_reducible apply kept_switchOut | with_reducible apply kept_setReady | with_reducible apply kept_ite
      | split | dsimp only | with_reducible assumption | refine kept_fst (by assumption) ?_
      | refine kept_snd (by assumption) ?_ | exact rfl | assumption | exact (Fact.out : κ .slots = false)
      | exact (Fact.out : κ .pair = false)
  clear_value x2
  have k3 : Kept κ s₀ x3 := by
    unfold x3
    repeat' first
      | intro _ | with_reducible apply kept_tieSend | with_reducible apply kept_each
      | with_reducible apply kept_set | with_reducible apply kept_emptyTribQueues
      | with_reducible apply kept_switchOut | with_reducible apply kept_setReady | with_reducible apply kept_ite
      | split | dsimp only | with_reducible assumption | refine kept_fst (by assumption) ?_
      | refine kept_snd (by assumption) ?_ | exact rfl | assumption | exact (Fact.out : κ .slots = false)
      | exact (Fact.out : κ .pair = false)
  clear_value x3
  have k4 : Kept κ s₀ x4 := by
    unfold x4
    repeat' first
      | intro _ | with_reducible apply kept_tieSend | with_reducible apply kept_each
      | with_reducible apply kept_set | with_reducible apply kept_emptyTribQueues
      | with_reducible apply kept_switchOut | with_reducible apply kept_setReady | with_reducible apply kept_ite
      | split | dsimp only | with_reducible assumption | refine kept_fst (by assumption) ?_
      | refine kept_snd (by assumption) ?_ | exact rfl | assumption | exact (Fact.out : κ .slots = false)
      | exact (Fact.out : κ .pair = false)
  clear_value x4
  repeat' first
    | intro _ | with_reducible apply kept_tieSend | with_reducible apply kept_each | with_reducible apply kept_set
    | with_reducible apply kept_emptyTribQueues | with_reducible apply kept_switchOut
    | with_reducible apply kept_setReady | with_reducible apply kept_ite | split | dsimp only
    | with_reducible assumption | refine kept_fst (by assumption) ?_ | refine kept_snd (by assumption) ?_
    | exact rfl | assumption | exact (Fact.out : κ .slots = false) | exact (Fact.out : κ .pair = false)

theorem kept_startRole [κ.Out .events] [κ.Out .slots] [κ.Out .housekeeping] [κ.Out .pair] [κ.Out .captures]
    {s₀ s : State} (h : Kept κ s₀ s) :
    Kept κ s₀ (State.startRole s) := by
  unfold State.startRole
  repeat' first
    | intro _ | with_reducible apply kept_set | with_reducible apply kept_each
    | with_reducible apply kept_setFlag | with_reducible apply kept_switchOut
    | with_reducible apply kept_leaseFirst | with_reducible apply kept_judgeReady
    | with_reducible apply kept_ite | split | dsimp only | with_reducible assumption
    | refine kept_fst (by assumption) ?_ | refine kept_snd (by assumption) ?_ | exact rfl | assumption
    | exact (Fact.out : κ .pair = false)

theorem kept_switchOver [κ.Out .events] [κ.Out .ports] [κ.Out .flows] [κ.Out .tributaries] [κ.Out .slots]
    [κ.Out .housekeeping] [κ.Out .pair] [κ.Out .captures] {s₀ s : State} {cause : Nat} (h : Kept κ s₀ s) :
    Kept κ s₀ (State.switchOver s cause) := by
  unfold State.switchOver
  repeat' first
    | intro _ | with_reducible apply kept_tieSend | with_reducible apply kept_becomeStandby
    | with_reducible apply kept_becomeActive | with_reducible apply kept_ite | split | dsimp only
    | with_reducible assumption | refine kept_fst (by assumption) ?_ | refine kept_snd (by assumption) ?_
    | exact rfl | assumption

end Sys2Proof.Laws
end

