-- ==== Sys2Proof/Laws/Kept/Pair.lean ====
section
/-! SUPPORT. Every operation of Machine/Pair.lean keeps (Laws/Kept.lean). -/

set_option Elab.async false
set_option linter.unusedTactic false
set_option linter.unreachableTactic false
set_option linter.unusedVariables false

namespace Sys2Proof.Laws

open Sys2Proof.Machine

variable {κ : Scope}

theorem kept_tieDown [κ.Out .events] [κ.Out .housekeeping] [κ.Out .pair] [κ.Out .captures] {s₀ s : State}
    (h : Kept κ s₀ s) :
    Kept κ s₀ (State.tieDown s) := by
  unfold State.tieDown
  repeat' first
    | intro _ | with_reducible apply kept_set | with_reducible apply kept_bump | with_reducible apply kept_markTick
    | with_reducible apply kept_raiseClear | with_reducible apply kept_judgeReady | with_reducible apply kept_ite
    | split | dsimp only | with_reducible assumption | refine kept_fst (by assumption) ?_
    | refine kept_snd (by assumption) ?_ | exact rfl | assumption | exact (Fact.out : κ .pair = false)

theorem kept_execTieLinkDown [κ.Out .events] [κ.Out .housekeeping] [κ.Out .pair] [κ.Out .captures] {s₀ s : State}
    (h : Kept κ s₀ s) :
    KeptO κ s₀ (execTieLinkDown s) := by
  unfold execTieLinkDown
  repeat' first
    | intro _ | with_reducible apply kept_live | with_reducible apply kept_when | with_reducible apply kept_tieDown
    | with_reducible apply kept_ite | split | dsimp only | with_reducible assumption
    | refine kept_fst (by assumption) ?_ | refine kept_snd (by assumption) ?_ | exact rfl | assumption

theorem kept_tieTake [κ.Out .events] [κ.Out .housekeeping] [κ.Out .pair] [κ.Out .captures]
    {s₀ s : State}
    {bad : Nat} {f : State → State} (h : Kept κ s₀ s) (hf : ∀ t, Kept κ s₀ t → Kept κ s₀ (f t)) :
    Kept κ s₀ (State.tieTake s bad f) := by
  unfold State.tieTake
  repeat' first
    | intro _ | with_reducible apply hf | with_reducible apply kept_bump | with_reducible apply kept_markTick | with_reducible apply kept_raiseClear
    | with_reducible apply kept_set | with_reducible apply kept_judgeReady | with_reducible apply kept_ite
    | split | dsimp only | with_reducible assumption | refine kept_fst (by assumption) ?_
    | refine kept_snd (by assumption) ?_ | exact rfl | assumption | exact (Fact.out : κ .pair = false)

theorem kept_judgeHealth [κ.Out .pair] {s₀ s : State} (h : Kept κ s₀ s) :
    Kept κ s₀ (State.judgeHealth s) := by
  unfold State.judgeHealth
  repeat' first
    | intro _ | with_reducible apply kept_set | with_reducible apply kept_ite | split | dsimp only
    | with_reducible assumption | refine kept_fst (by assumption) ?_ | refine kept_snd (by assumption) ?_
    | exact rfl | assumption | exact (Fact.out : κ .pair = false)

theorem kept_heartbeat [κ.Out .events] [κ.Out .housekeeping] [κ.Out .pair] [κ.Out .captures] {s₀ s : State}
    {lanes : Nat} (h : Kept κ s₀ s) :
    Kept κ s₀ (State.heartbeat s lanes) := by
  unfold State.heartbeat
  repeat' first
    | intro _ | with_reducible apply kept_set | with_reducible apply kept_tieDown
    | with_reducible apply kept_judgeReady | with_reducible apply kept_judgeHealth
    | with_reducible apply kept_tieSend | with_reducible apply kept_ite | split | dsimp only
    | with_reducible assumption | refine kept_fst (by assumption) ?_ | refine kept_snd (by assumption) ?_
    | exact rfl | assumption | exact (Fact.out : κ .pair = false)

theorem kept_execTieHeartbeat [κ.Out .events] [κ.Out .housekeeping] [κ.Out .pair] [κ.Out .captures] {s₀ : State}
    {lanes : Fin 16} {s : State} (h : Kept κ s₀ s) :
    KeptO κ s₀ (execTieHeartbeat lanes s) := by
  unfold execTieHeartbeat
  repeat' first
    | intro _ | with_reducible apply kept_next | with_reducible apply kept_live
    | with_reducible apply kept_heartbeat | with_reducible apply kept_ite | split | dsimp only
    | with_reducible assumption | refine kept_fst (by assumption) ?_ | refine kept_snd (by assumption) ?_
    | exact rfl | assumption

theorem kept_heartbeatTaken [κ.Out .pair] {s₀ s : State} {m : HeartbeatReading} (h : Kept κ s₀ s) :
    Kept κ s₀ (State.heartbeatTaken s m) := by
  unfold State.heartbeatTaken
  repeat' first
    | intro _ | with_reducible apply kept_set | with_reducible apply kept_each | with_reducible apply kept_ite
    | split | dsimp only | with_reducible assumption | refine kept_fst (by assumption) ?_
    | refine kept_snd (by assumption) ?_ | exact rfl | assumption | exact (Fact.out : κ .pair = false)

theorem kept_execTieHeartbeatRx [κ.Out .events] [κ.Out .housekeeping] [κ.Out .pair] [κ.Out .captures] {s₀ s : State}
    {m : HeartbeatReading} {bad : Fin 4} (h : Kept κ s₀ s) :
    KeptO κ s₀ (execTieHeartbeatRx m bad s) := by
  unfold execTieHeartbeatRx
  repeat' first
    | intro _ | with_reducible apply kept_live | with_reducible apply kept_tieTake
    | with_reducible apply kept_heartbeatTaken | with_reducible apply kept_judgeHealth
    | with_reducible apply kept_ite | split | dsimp only | with_reducible assumption
    | refine kept_fst (by assumption) ?_ | refine kept_snd (by assumption) ?_ | exact rfl | assumption

theorem kept_digestMatch [κ.Out .events] [κ.Out .housekeeping] [κ.Out .pair] [κ.Out .captures] {s₀ s : State}
    (h : Kept κ s₀ s) :
    Kept κ s₀ (State.digestMatch s) := by
  unfold State.digestMatch
  repeat' first
    | intro _ | with_reducible apply kept_raise | with_reducible apply kept_set
    | with_reducible apply kept_foldl | with_reducible apply kept_ite | split | dsimp only
    | with_reducible assumption | refine kept_fst (by assumption) ?_ | refine kept_snd (by assumption) ?_
    | exact rfl | assumption | exact (Fact.out : κ .pair = false)

theorem kept_digestsNow [κ.Out .events] [κ.Out .housekeeping] [κ.Out .pair] [κ.Out .captures] {s₀ s : State}
    (h : Kept κ s₀ s) :
    Kept κ s₀ (State.digestsNow s) := by
  unfold State.digestsNow
  repeat' first
    | intro _ | with_reducible apply kept_each | with_reducible apply kept_set
    | with_reducible apply kept_judgeReady | with_reducible apply kept_digestMatch
    | with_reducible apply kept_tieSend | with_reducible apply kept_ite | split | dsimp only
    | with_reducible assumption | refine kept_fst (by assumption) ?_ | refine kept_snd (by assumption) ?_
    | exact rfl | assumption | exact (Fact.out : κ .pair = false)

theorem kept_execDigestRecompute [κ.Out .events] [κ.Out .housekeeping] [κ.Out .pair] [κ.Out .captures]
    {s₀ s : State} (h : Kept κ s₀ s) :
    KeptO κ s₀ (execDigestRecompute s) := by
  unfold execDigestRecompute
  repeat' first
    | intro _ | with_reducible apply kept_next | with_reducible apply kept_live
    | with_reducible apply kept_digestsNow | with_reducible apply kept_ite | split | dsimp only
    | with_reducible assumption | refine kept_fst (by assumption) ?_ | refine kept_snd (by assumption) ?_
    | exact rfl | assumption

theorem kept_execTieDigestRx [κ.Out .events] [κ.Out .housekeeping] [κ.Out .pair] [κ.Out .captures] {s₀ : State}
    {d : Vector (BitVec 32) 8} {bad : Fin 4} {s : State} (h : Kept κ s₀ s) :
    KeptO κ s₀ (execTieDigestRx d bad s) := by
  unfold execTieDigestRx
  repeat' first
    | intro _ | with_reducible apply kept_next | with_reducible apply kept_live
    | with_reducible apply kept_tieTake | with_reducible apply kept_digestMatch | with_reducible apply kept_each
    | with_reducible apply kept_set | with_reducible apply kept_ite | split | dsimp only
    | with_reducible assumption | refine kept_fst (by assumption) ?_ | refine kept_snd (by assumption) ?_
    | exact rfl | assumption | exact (Fact.out : κ .pair = false)

theorem kept_keyRecord [κ.Out .events] [κ.Out .slots] [κ.Out .keys] [κ.Out .housekeeping] [κ.Out .pair]
    [κ.Out .captures] {s₀ s : State} {n : Nat} {d : Option (List Byte)} (h : Kept κ s₀ s) :
    Kept κ s₀ (State.keyRecord s n d) := by
  unfold State.keyRecord
  repeat' first
    | intro _ | with_reducible apply kept_eraseSlot | with_reducible apply kept_loadKey
    | with_reducible apply kept_raise | with_reducible apply kept_set | with_reducible apply kept_ite | split
    | dsimp only | with_reducible assumption | refine kept_fst (by assumption) ?_
    | refine kept_snd (by assumption) ?_ | exact rfl | assumption | exact (Fact.out : κ .slots = false)

theorem kept_execTieKeyRecordRx [κ.Out .events] [κ.Out .slots] [κ.Out .keys] [κ.Out .housekeeping] [κ.Out .pair]
    [κ.Out .captures] {s₀ : State} {n : Fin 8192} {d : Option (List Byte)} {bad : Fin 4} {s : State}
    (h : Kept κ s₀ s) :
    KeptO κ s₀ (execTieKeyRecordRx n d bad s) := by
  unfold execTieKeyRecordRx
  repeat' first
    | intro _ | with_reducible apply kept_next | with_reducible apply kept_live
    | with_reducible apply kept_tieTake | with_reducible apply kept_keyRecord | with_reducible apply kept_ite
    | split | dsimp only | with_reducible assumption | refine kept_fst (by assumption) ?_
    | refine kept_snd (by assumption) ?_ | exact rfl | assumption

theorem kept_leaseArrives [κ.Out .slots] [κ.Out .pair] {s₀ s : State} {n : Nat} {g : Nat} {l : Nat}
    (h : Kept κ s₀ s) :
    Kept κ s₀ (State.leaseArrives s n g l) := by
  unfold State.leaseArrives
  repeat' first
    | intro _ | with_reducible apply kept_set | with_reducible apply kept_tieSend
    | with_reducible apply kept_ite | split | dsimp only | with_reducible assumption
    | refine kept_fst (by assumption) ?_ | refine kept_snd (by assumption) ?_ | exact rfl | assumption
    | exact (Fact.out : κ .slots = false)

theorem kept_execTieLeaseRx [κ.Out .events] [κ.Out .slots] [κ.Out .housekeeping] [κ.Out .pair] [κ.Out .captures]
    {s₀ : State} {n : Fin 8192} {g : Fin 2} {l : BitVec 64} {bad : Fin 4} {s : State} (h : Kept κ s₀ s) :
    KeptO κ s₀ (execTieLeaseRx n g l bad s) := by
  unfold execTieLeaseRx
  repeat' first
    | intro _ | with_reducible apply kept_next | with_reducible apply kept_live
    | with_reducible apply kept_tieTake | with_reducible apply kept_leaseArrives | with_reducible apply kept_ite
    | split | dsimp only | with_reducible assumption | refine kept_fst (by assumption) ?_
    | refine kept_snd (by assumption) ?_ | exact rfl | assumption

theorem kept_leaseAcked [κ.Out .slots] [κ.Out .pair] {s₀ s : State} {i : Nat} {l : Nat} (h : Kept κ s₀ s) :
    Kept κ s₀ (State.leaseAcked s i l) := by
  unfold State.leaseAcked
  repeat' first
    | intro _ | with_reducible apply kept_leaseDue | with_reducible apply kept_set
    | with_reducible apply kept_ite | split | dsimp only | with_reducible assumption
    | refine kept_fst (by assumption) ?_ | refine kept_snd (by assumption) ?_ | exact rfl | assumption
    | exact (Fact.out : κ .slots = false)

theorem kept_execTieLeaseAckRx [κ.Out .events] [κ.Out .slots] [κ.Out .housekeeping] [κ.Out .pair] [κ.Out .captures]
    {s₀ : State} {n : Fin 8192} {g : Fin 2} {l : BitVec 64} {bad : Fin 4} {s : State} (h : Kept κ s₀ s) :
    KeptO κ s₀ (execTieLeaseAckRx n g l bad s) := by
  unfold execTieLeaseAckRx
  repeat' first
    | intro _ | with_reducible apply kept_next | with_reducible apply kept_live
    | with_reducible apply kept_tieTake | with_reducible apply kept_leaseAcked | with_reducible apply kept_ite
    | split | dsimp only | with_reducible assumption | refine kept_fst (by assumption) ?_
    | refine kept_snd (by assumption) ?_ | exact rfl | assumption

theorem kept_execTieDeliveryRx [κ.Out .events] [κ.Out .housekeeping] [κ.Out .pair] [κ.Out .captures] {s₀ : State}
    {c : Fin 12} {bsq : Fin 16777216} {bad : Fin 4} {s : State} (h : Kept κ s₀ s) :
    KeptO κ s₀ (execTieDeliveryRx c bsq bad s) := by
  unfold execTieDeliveryRx
  repeat' first
    | intro _ | with_reducible apply kept_next | with_reducible apply kept_live
    | with_reducible apply kept_tieTake | with_reducible apply kept_set | with_reducible apply kept_ite | split
    | dsimp only | with_reducible assumption | refine kept_fst (by assumption) ?_
    | refine kept_snd (by assumption) ?_ | exact rfl | assumption | exact (Fact.out : κ .pair = false)

theorem kept_alignTx [κ.Out .overhead] {s₀ s : State} {bsq : Nat} (h : Kept κ s₀ s) :
    Kept κ s₀ (State.alignTx s bsq) := by
  unfold State.alignTx
  repeat' first
    | intro _ | with_reducible apply kept_each | with_reducible apply kept_set | with_reducible apply kept_ite
    | split | dsimp only | with_reducible assumption | refine kept_fst (by assumption) ?_
    | refine kept_snd (by assumption) ?_ | exact rfl | assumption | exact (Fact.out : κ .overhead = false)

theorem kept_execTieTxAlignmentRx [κ.Out .events] [κ.Out .overhead] [κ.Out .housekeeping] [κ.Out .pair]
    [κ.Out .captures] {s₀ : State} {bsq : Fin 16777216} {_time : Nat} {bad : Fin 4} {s : State} (h : Kept κ s₀ s) :
    KeptO κ s₀ (execTieTxAlignmentRx bsq _time bad s) := by
  unfold execTieTxAlignmentRx
  repeat' first
    | intro _ | with_reducible apply kept_next | with_reducible apply kept_live
    | with_reducible apply kept_tieTake | with_reducible apply kept_alignTx | with_reducible apply kept_ite
    | split | dsimp only | with_reducible assumption | refine kept_fst (by assumption) ?_
    | refine kept_snd (by assumption) ?_ | exact rfl | assumption

theorem kept_released [κ.Out .events] [κ.Out .ports] [κ.Out .flows] [κ.Out .tributaries] [κ.Out .slots]
    [κ.Out .housekeeping] [κ.Out .pair] [κ.Out .captures] {s₀ s : State} (h : Kept κ s₀ s) :
    Kept κ s₀ (State.released s) := by
  unfold State.released
  repeat' first
    | intro _ | with_reducible apply kept_becomeActive | with_reducible apply kept_set
    | with_reducible apply kept_ite | split | dsimp only | with_reducible assumption
    | refine kept_fst (by assumption) ?_ | refine kept_snd (by assumption) ?_ | exact rfl | assumption
    | exact (Fact.out : κ .pair = false)

theorem kept_execTieReleaseRx [κ.Out .events] [κ.Out .ports] [κ.Out .flows] [κ.Out .tributaries] [κ.Out .slots]
    [κ.Out .housekeeping] [κ.Out .pair] [κ.Out .captures] {s₀ : State} {_cause : Fin 6} {bad : Fin 4} {s : State}
    (h : Kept κ s₀ s) :
    KeptO κ s₀ (execTieReleaseRx _cause bad s) := by
  unfold execTieReleaseRx
  repeat' first
    | intro _ | with_reducible apply kept_next | with_reducible apply kept_live
    | with_reducible apply kept_tieTake | with_reducible apply kept_released | with_reducible apply kept_ite
    | split | dsimp only | with_reducible assumption | refine kept_fst (by assumption) ?_
    | refine kept_snd (by assumption) ?_ | exact rfl | assumption

theorem kept_switchRequested [κ.Out .events] [κ.Out .ports] [κ.Out .flows] [κ.Out .tributaries] [κ.Out .slots]
    [κ.Out .housekeeping] [κ.Out .pair] [κ.Out .captures] {s₀ s : State} {cause : Nat} (h : Kept κ s₀ s) :
    Kept κ s₀ (State.switchRequested s cause) := by
  unfold State.switchRequested
  repeat' first
    | intro _ | with_reducible apply kept_becomeStandby | with_reducible apply kept_becomeActive
    | with_reducible apply kept_ite | split | dsimp only | with_reducible assumption
    | refine kept_fst (by assumption) ?_ | refine kept_snd (by assumption) ?_ | exact rfl | assumption

theorem kept_execTieSwitchRequestRx [κ.Out .events] [κ.Out .ports] [κ.Out .flows] [κ.Out .tributaries]
    [κ.Out .slots] [κ.Out .housekeeping] [κ.Out .pair] [κ.Out .captures] {s₀ : State} {cause : Fin 6} {bad : Fin 4}
    {s : State} (h : Kept κ s₀ s) :
    KeptO κ s₀ (execTieSwitchRequestRx cause bad s) := by
  unfold execTieSwitchRequestRx
  repeat' first
    | intro _ | with_reducible apply kept_next | with_reducible apply kept_live
    | with_reducible apply kept_tieTake | with_reducible apply kept_switchRequested
    | with_reducible apply kept_ite | split | dsimp only | with_reducible assumption
    | refine kept_fst (by assumption) ?_ | refine kept_snd (by assumption) ?_ | exact rfl | assumption

theorem kept_writePairSwitch [κ.Out .events] [κ.Out .ports] [κ.Out .flows] [κ.Out .tributaries] [κ.Out .slots]
    [κ.Out .housekeeping] [κ.Out .pair] [κ.Out .captures] {s₀ : State} {v : Int} {s : State} (h : Kept κ s₀ s) :
    Kept κ s₀ (writePairSwitch v s).1 := by
  unfold writePairSwitch
  repeat' first
    | intro _ | with_reducible apply kept_switchOver | with_reducible apply kept_ite
    | with_reducible apply kept_ite_fst | split | dsimp only | with_reducible assumption
    | refine kept_fst (by assumption) ?_ | refine kept_snd (by assumption) ?_ | exact rfl | assumption

theorem kept_execPairSwitch [κ.Out .events] [κ.Out .management] [κ.Out .ports] [κ.Out .flows] [κ.Out .tributaries]
    [κ.Out .slots] [κ.Out .housekeeping] [κ.Out .pair] [κ.Out .captures] {s₀ : State} {cl : Client} {s : State}
    (h : Kept κ s₀ s) :
    KeptO κ s₀ (execPairSwitch cl s) := by
  unfold execPairSwitch
  repeat' first
    | intro _ | with_reducible apply kept_next | with_reducible refine kept_serveWrite ?_ ?_ (by first | exact .inl (by decide) | exact .inr Fact.out)
    | with_reducible apply kept_writePairSwitch | with_reducible apply kept_ite | split | dsimp only
    | with_reducible assumption | refine kept_fst (by assumption) ?_ | refine kept_snd (by assumption) ?_
    | exact rfl | assumption

theorem kept_execPairSwitchForce [κ.Out .events] [κ.Out .management] [κ.Out .ports] [κ.Out .flows]
    [κ.Out .tributaries] [κ.Out .slots] [κ.Out .housekeeping] [κ.Out .pair] [κ.Out .captures] {s₀ : State}
    {cl : Client} {s : State} (h : Kept κ s₀ s) :
    KeptO κ s₀ (execPairSwitchForce cl s) := by
  unfold execPairSwitchForce
  repeat' first
    | intro _ | with_reducible apply kept_next | with_reducible refine kept_serveWrite ?_ ?_ (by first | exact .inl (by decide) | exact .inr Fact.out)
    | with_reducible apply kept_writePairSwitch | with_reducible apply kept_ite | split | dsimp only
    | with_reducible assumption | refine kept_fst (by assumption) ?_ | refine kept_snd (by assumption) ?_
    | exact rfl | assumption

theorem kept_execHealthSwitch [κ.Out .events] [κ.Out .ports] [κ.Out .flows] [κ.Out .tributaries] [κ.Out .slots]
    [κ.Out .housekeeping] [κ.Out .pair] [κ.Out .captures] {s₀ s : State} (h : Kept κ s₀ s) :
    KeptO κ s₀ (execHealthSwitch s) := by
  unfold execHealthSwitch
  repeat' first
    | intro _ | with_reducible apply kept_live | with_reducible apply kept_switchOver
    | with_reducible apply kept_ite | split | dsimp only | with_reducible assumption
    | refine kept_fst (by assumption) ?_ | refine kept_snd (by assumption) ?_ | exact rfl | assumption

theorem kept_execTieLossTakeover [κ.Out .events] [κ.Out .ports] [κ.Out .flows] [κ.Out .tributaries] [κ.Out .slots]
    [κ.Out .housekeeping] [κ.Out .pair] [κ.Out .captures] {s₀ s : State} (h : Kept κ s₀ s) :
    KeptO κ s₀ (execTieLossTakeover s) := by
  unfold execTieLossTakeover
  repeat' first
    | intro _ | with_reducible apply kept_live | with_reducible apply kept_becomeActive
    | with_reducible apply kept_ite | split | dsimp only | with_reducible assumption
    | refine kept_fst (by assumption) ?_ | refine kept_snd (by assumption) ?_ | exact rfl | assumption

end Sys2Proof.Laws
end

