-- ==== Sys2Proof/Laws/Kept/Converter.lean ====
section
/-! SUPPORT. Every operation of Machine/Converter.lean keeps (Laws/Kept.lean). -/

set_option Elab.async false
set_option linter.unusedTactic false
set_option linter.unreachableTactic false
set_option linter.unusedVariables false

namespace Sys2Proof.Laws

open Sys2Proof.Machine

variable {κ : Scope}

theorem kept_calAbandonOffline [κ.Out .calibration] {s₀ s : State} {c : Nat} (h : Kept κ s₀ s) :
    Kept κ s₀ (State.calAbandonOffline s c) := by
  unfold State.calAbandonOffline
  repeat' first
    | intro _ | with_reducible apply kept_calAbandonAdcs | with_reducible apply kept_calAbandonDacs
    | with_reducible apply kept_ite | split | dsimp only | with_reducible assumption
    | refine kept_fst (by assumption) ?_ | refine kept_snd (by assumption) ?_ | exact rfl | assumption

theorem kept_toHoldover [κ.Out .clocks] [κ.Out .converters] [κ.Out .calibration] [κ.Out .frontEnd] [κ.Out .equaliser]
    [κ.Out .recovery] {s₀ s : State} {c : Nat} (h : Kept κ s₀ s) :
    Kept κ s₀ (State.toHoldover s c) := by
  unfold State.toHoldover
  repeat' first
    | intro _ | with_reducible apply kept_setLoops | with_reducible apply kept_set
    | with_reducible apply kept_agcRestart | with_reducible apply kept_calAbandonOffline
    | with_reducible apply kept_crHold | with_reducible apply kept_refreshConv
    | with_reducible apply kept_refreshRx | with_reducible apply kept_ite | split | dsimp only
    | with_reducible assumption | refine kept_fst (by assumption) ?_ | refine kept_snd (by assumption) ?_
    | exact rfl | assumption | exact (Fact.out : κ .clocks = false) | exact (Fact.out : κ .frontEnd = false)

theorem kept_reflMeasured [κ.Out .clocks] {s₀ s : State} {k : Nat} {present : Bool} {offset : Int} (h : Kept κ s₀ s) :
    Kept κ s₀ (State.reflMeasured s k present offset) := by
  unfold State.reflMeasured
  repeat' first
    | intro _ | with_reducible apply kept_bump | with_reducible apply kept_set | with_reducible apply kept_ite
    | split | dsimp only | with_reducible assumption | refine kept_fst (by assumption) ?_
    | refine kept_snd (by assumption) ?_ | exact rfl | assumption | exact (Fact.out : κ .clocks = false)

theorem kept_reflLoss [κ.Out .clocks] [κ.Out .converters] [κ.Out .calibration] [κ.Out .frontEnd] [κ.Out .equaliser]
    [κ.Out .recovery] {s₀ s : State} {k : Nat} {present : Bool} {offset : Int} (h : Kept κ s₀ s) :
    Kept κ s₀ (State.reflLoss s k present offset) := by
  unfold State.reflLoss
  repeat' first
    | intro _ | with_reducible apply kept_reflMeasured | with_reducible apply kept_each
    | with_reducible apply kept_toHoldover | with_reducible apply kept_ite | split | dsimp only
    | with_reducible assumption | refine kept_fst (by assumption) ?_ | refine kept_snd (by assumption) ?_
    | exact rfl | assumption

theorem kept_execReflLoss [κ.Out .clocks] [κ.Out .converters] [κ.Out .calibration] [κ.Out .frontEnd]
    [κ.Out .equaliser] [κ.Out .recovery] {s₀ : State} {k : Fin 4} {present : Bool} {offset : Int} {s : State}
    (h : Kept κ s₀ s) :
    KeptO κ s₀ (execReflLoss k present offset s) := by
  unfold execReflLoss
  repeat' first
    | intro _ | with_reducible apply kept_next | with_reducible apply kept_live
    | with_reducible apply kept_reflLoss | with_reducible apply kept_ite | split | dsimp only
    | with_reducible assumption | refine kept_fst (by assumption) ?_ | refine kept_snd (by assumption) ?_
    | exact rfl | assumption

theorem kept_bandChosen [κ.Out .converters] [κ.Out .calibration] {s₀ s : State} {l : Nat} (h : Kept κ s₀ s) :
    Kept κ s₀ (State.bandChosen s l) := by
  unfold State.bandChosen
  repeat' first
    | intro _ | with_reducible apply kept_set | with_reducible apply kept_ite | split | dsimp only
    | with_reducible assumption | refine kept_fst (by assumption) ?_ | refine kept_snd (by assumption) ?_
    | exact rfl | assumption | exact (Fact.out : κ .converters = false) | exact (Fact.out : κ .calibration = false)

theorem kept_loopsLock [κ.Out .clocks] [κ.Out .converters] [κ.Out .calibration] {s₀ s : State} {c : Nat}
    (h : Kept κ s₀ s) :
    Kept κ s₀ (State.loopsLock s c) := by
  unfold State.loopsLock
  extract_lets x1 x2 x3 x4
  have k3 : Kept κ s₀ x3 := by
    unfold x3
    repeat' first
      | intro _ | with_reducible apply kept_setLoops | with_reducible apply kept_bandChosen
      | with_reducible apply kept_ite | split | dsimp only | with_reducible assumption
      | refine kept_fst (by assumption) ?_ | refine kept_snd (by assumption) ?_ | exact rfl | assumption
  clear_value x3
  have k4 : Kept κ s₀ x4 := by
    unfold x4
    repeat' first
      | intro _ | with_reducible apply kept_setLoops | with_reducible apply kept_bandChosen
      | with_reducible apply kept_ite | split | dsimp only | with_reducible assumption
      | refine kept_fst (by assumption) ?_ | refine kept_snd (by assumption) ?_ | exact rfl | assumption
  clear_value x4
  repeat' first
    | intro _ | with_reducible apply kept_setLoops | with_reducible apply kept_bandChosen
    | with_reducible apply kept_ite | split | dsimp only | with_reducible assumption
    | refine kept_fst (by assumption) ?_ | refine kept_snd (by assumption) ?_ | exact rfl | assumption

theorem kept_afterRelock [κ.Out .events] [κ.Out .carriers] [κ.Out .rxLine] [κ.Out .clocks] [κ.Out .converters]
    [κ.Out .calibration] [κ.Out .banks] [κ.Out .dispersion] [κ.Out .frontEnd] [κ.Out .equaliser] [κ.Out .monitors]
    [κ.Out .recovery] [κ.Out .catching] [κ.Out .coding] [κ.Out .defects] [κ.Out .overhead] [κ.Out .pages]
    [κ.Out .bonding] [κ.Out .housekeeping] [κ.Out .captures] {s₀ s : State} {c : Nat} (h : Kept κ s₀ s) :
    Kept κ s₀ (State.afterRelock s c) := by
  unfold State.afterRelock
  repeat' first
    | intro _ | with_reducible apply kept_bankRefit | with_reducible apply kept_refreshConv
    | with_reducible apply kept_refreshRx | with_reducible apply kept_surveyAll | with_reducible apply kept_set
    | with_reducible apply kept_retune | with_reducible apply kept_seekState | with_reducible apply kept_toSeeking
    | with_reducible apply kept_ite | split | dsimp only | with_reducible assumption
    | refine kept_fst (by assumption) ?_ | refine kept_snd (by assumption) ?_ | exact rfl | assumption
    | exact (Fact.out : κ .frontEnd = false)

theorem kept_reflRelock [κ.Out .events] [κ.Out .carriers] [κ.Out .rxLine] [κ.Out .clocks] [κ.Out .converters]
    [κ.Out .calibration] [κ.Out .banks] [κ.Out .dispersion] [κ.Out .frontEnd] [κ.Out .equaliser] [κ.Out .monitors]
    [κ.Out .recovery] [κ.Out .catching] [κ.Out .coding] [κ.Out .defects] [κ.Out .overhead] [κ.Out .pages]
    [κ.Out .bonding] [κ.Out .housekeeping] [κ.Out .captures] {s₀ s : State} {k : Nat} {offset : Int} (h : Kept κ s₀ s) :
    Kept κ s₀ (State.reflRelock s k offset) := by
  unfold State.reflRelock
  repeat' first
    | intro _ | with_reducible apply kept_reflMeasured | with_reducible apply kept_each
    | with_reducible apply kept_loopsLock | with_reducible apply kept_afterRelock | with_reducible apply kept_ite
    | split | dsimp only | with_reducible assumption | refine kept_fst (by assumption) ?_
    | refine kept_snd (by assumption) ?_ | exact rfl | assumption

theorem kept_execReflRelock [κ.Out .events] [κ.Out .carriers] [κ.Out .rxLine] [κ.Out .clocks] [κ.Out .converters]
    [κ.Out .calibration] [κ.Out .banks] [κ.Out .dispersion] [κ.Out .frontEnd] [κ.Out .equaliser] [κ.Out .monitors]
    [κ.Out .recovery] [κ.Out .catching] [κ.Out .coding] [κ.Out .defects] [κ.Out .overhead] [κ.Out .pages]
    [κ.Out .bonding] [κ.Out .housekeeping] [κ.Out .captures]
    {s₀ : State} {k : Fin 4} {offset : Int} {s : State}
    (h : Kept κ s₀ s) :
    KeptO κ s₀ (execReflRelock k offset s) := by
  unfold execReflRelock
  repeat' first
    | intro _ | with_reducible apply kept_next | with_reducible apply kept_live
    | with_reducible apply kept_reflRelock | with_reducible apply kept_ite | split | dsimp only
    | with_reducible assumption | refine kept_fst (by assumption) ?_ | refine kept_snd (by assumption) ?_
    | exact rfl | assumption

theorem kept_repairsGoOn [κ.Out .integrity] {s₀ s : State} (h : Kept κ s₀ s) :
    Kept κ s₀ (State.repairsGoOn s) := by
  unfold State.repairsGoOn
  repeat' first
    | intro _ | with_reducible apply kept_each | with_reducible apply kept_set | with_reducible apply kept_ite
    | split | dsimp only | with_reducible assumption | refine kept_fst (by assumption) ?_
    | refine kept_snd (by assumption) ?_ | exact rfl | assumption | exact (Fact.out : κ .integrity = false)

theorem kept_calBegin [κ.Out .mode] [κ.Out .converters] [κ.Out .calibration] {s₀ s : State} (h : Kept κ s₀ s) :
    Kept κ s₀ (State.calBegin s) := by
  unfold State.calBegin
  repeat' first
    | intro _ | with_reducible apply kept_set | with_reducible apply kept_each
    | with_reducible apply kept_refreshConv | with_reducible apply kept_ite | split | dsimp only
    | with_reducible assumption | refine kept_fst (by assumption) ?_ | refine kept_snd (by assumption) ?_
    | exact rfl | assumption | exact (Fact.out : κ .mode = false) | exact (Fact.out : κ .calibration = false)

theorem kept_synthLock [κ.Out .mode] [κ.Out .clocks] [κ.Out .converters] [κ.Out .calibration] {s₀ s : State} {k : Nat}
    (h : Kept κ s₀ s) :
    Kept κ s₀ (State.synthLock s k) := by
  unfold State.synthLock
  repeat' first
    | intro _ | with_reducible apply kept_each | with_reducible apply kept_loopsLock
    | with_reducible apply kept_refreshConv | with_reducible apply kept_calBegin | with_reducible apply kept_ite
    | split | dsimp only | with_reducible assumption | refine kept_fst (by assumption) ?_
    | refine kept_snd (by assumption) ?_ | exact rfl | assumption

theorem kept_execSynthesiserLock [κ.Out .mode] [κ.Out .clocks] [κ.Out .converters] [κ.Out .calibration] {s₀ : State}
    {k : Fin 4} {s : State} (h : Kept κ s₀ s) :
    KeptO κ s₀ (execSynthesiserLock k s) := by
  unfold execSynthesiserLock
  repeat' first
    | intro _ | with_reducible apply kept_next | with_reducible apply kept_live
    | with_reducible apply kept_synthLock | with_reducible apply kept_ite | split | dsimp only
    | with_reducible assumption | refine kept_fst (by assumption) ?_ | refine kept_snd (by assumption) ?_
    | exact rfl | assumption

theorem kept_synthHoldover [κ.Out .mode] [κ.Out .clocks] [κ.Out .converters] [κ.Out .calibration] {s₀ s : State}
    {k : Nat} (h : Kept κ s₀ s) :
    Kept κ s₀ (State.synthHoldover s k) := by
  unfold State.synthHoldover
  repeat' first
    | intro _ | with_reducible apply kept_each | with_reducible apply kept_setLoops
    | with_reducible apply kept_refreshConv | with_reducible apply kept_calBegin | with_reducible apply kept_ite
    | split | dsimp only | with_reducible assumption | refine kept_fst (by assumption) ?_
    | refine kept_snd (by assumption) ?_ | exact rfl | assumption

theorem kept_execReflHoldoverAtTrim [κ.Out .mode] [κ.Out .clocks] [κ.Out .converters] [κ.Out .calibration]
    {s₀ : State} {k : Fin 4} {s : State} (h : Kept κ s₀ s) :
    KeptO κ s₀ (execReflHoldoverAtTrim k s) := by
  unfold execReflHoldoverAtTrim
  repeat' first
    | intro _ | with_reducible apply kept_next | with_reducible apply kept_live
    | with_reducible apply kept_synthHoldover | with_reducible apply kept_ite | split | dsimp only
    | with_reducible assumption | refine kept_fst (by assumption) ?_ | refine kept_snd (by assumption) ?_
    | exact rfl | assumption

theorem kept_agcChannel [κ.Out .events] [κ.Out .converters] [κ.Out .housekeeping] [κ.Out .captures] {s₀ s : State}
    {a : Nat} {n : Nat} (h : Kept κ s₀ s) :
    Kept κ s₀ (State.agcChannel s a n) := by
  unfold State.agcChannel
  extract_lets x1 x2 x3 x4 x5 x6 x7 x8 x9 x10
  have k2 : Kept κ s₀ x2 := by
    unfold x2
    repeat' first
      | intro _ | with_reducible apply kept_set | with_reducible apply kept_raise | with_reducible apply kept_ite
      | split | dsimp only | with_reducible assumption | refine kept_fst (by assumption) ?_
      | refine kept_snd (by assumption) ?_ | exact rfl | assumption | exact (Fact.out : κ .converters = false)
  clear_value x2
  have k10 : Kept κ s₀ x10 := by
    unfold x10
    repeat' first
      | intro _ | with_reducible apply kept_set | with_reducible apply kept_raise | with_reducible apply kept_ite
      | split | dsimp only | with_reducible assumption | refine kept_fst (by assumption) ?_
      | refine kept_snd (by assumption) ?_ | exact rfl | assumption | exact (Fact.out : κ .converters = false)
  clear_value x10
  repeat' first
    | intro _ | with_reducible apply kept_set | with_reducible apply kept_raise | with_reducible apply kept_ite
    | split | dsimp only | with_reducible assumption | refine kept_fst (by assumption) ?_
    | refine kept_snd (by assumption) ?_ | exact rfl | assumption | exact (Fact.out : κ .converters = false)

theorem kept_agcWindow [κ.Out .events] [κ.Out .converters] [κ.Out .defects] [κ.Out .housekeeping] [κ.Out .captures]
    {s₀ s : State} {c : Nat} (h : Kept κ s₀ s) :
    Kept κ s₀ (State.agcWindow s c) := by
  unfold State.agcWindow
  repeat' first
    | intro _ | with_reducible apply kept_each | with_reducible apply kept_agcChannel
    | with_reducible apply kept_setFlag | with_reducible apply kept_step | with_reducible apply kept_agcRestart
    | with_reducible apply kept_set | with_reducible apply kept_ite | split | dsimp only
    | with_reducible assumption | refine kept_fst (by assumption) ?_ | refine kept_snd (by assumption) ?_
    | exact rfl | assumption | exact (Fact.out : κ .converters = false) | exact (Fact.out : κ .defects = false)

theorem kept_execAgcWindowEnd [κ.Out .events] [κ.Out .converters] [κ.Out .defects] [κ.Out .housekeeping]
    [κ.Out .captures] {s₀ s : State} {c : Fin 12} {_rms : Unit} {_unflagged : Unit} (h : Kept κ s₀ s) :
    KeptO κ s₀ (execAgcWindowEnd c _rms _unflagged s) := by
  unfold execAgcWindowEnd
  repeat' first
    | intro _ | with_reducible apply kept_live | with_reducible apply kept_agcWindow
    | with_reducible apply kept_ite | split | dsimp only | with_reducible assumption
    | refine kept_fst (by assumption) ?_ | refine kept_snd (by assumption) ?_ | exact rfl | assumption

theorem kept_gainStep [κ.Out .converters] {s₀ s : State} {a : Nat} {d : Int} (h : Kept κ s₀ s) :
    Kept κ s₀ (State.gainStep s a d) := by
  unfold State.gainStep
  repeat' first
    | intro _ | with_reducible apply kept_bump | with_reducible apply kept_set | with_reducible apply kept_ite
    | split | dsimp only | with_reducible assumption | refine kept_fst (by assumption) ?_
    | refine kept_snd (by assumption) ?_ | exact rfl | assumption | exact (Fact.out : κ .converters = false)

theorem kept_gainApply [κ.Out .slack] [κ.Out .converters] {s₀ s : State} {c : Nat} (h : Kept κ s₀ s) :
    Kept κ s₀ (State.gainApply s c) := by
  unfold State.gainApply
  repeat' first
    | intro _ | with_reducible apply kept_each | with_reducible apply kept_gainStep | with_reducible apply kept_set
    | with_reducible apply kept_ite | split | dsimp only | with_reducible assumption
    | refine kept_fst (by assumption) ?_ | refine kept_snd (by assumption) ?_ | exact rfl | assumption
    | exact (Fact.out : κ .slack = false) | exact (Fact.out : κ .converters = false)

theorem kept_execGainStepApply [κ.Out .slack] [κ.Out .converters] {s₀ : State} {c : Fin 12} {s : State}
    (h : Kept κ s₀ s) :
    KeptO κ s₀ (execGainStepApply c s) := by
  unfold execGainStepApply
  repeat' first
    | intro _ | with_reducible apply kept_next | with_reducible apply kept_live
    | with_reducible apply kept_gainApply | with_reducible apply kept_ite | split | dsimp only
    | with_reducible assumption | refine kept_fst (by assumption) ?_ | refine kept_snd (by assumption) ?_
    | exact rfl | assumption

theorem kept_manualStep [κ.Out .slack] [κ.Out .converters] {s₀ s : State} {c : Nat} (h : Kept κ s₀ s) :
    Kept κ s₀ (State.manualStep s c) := by
  unfold State.manualStep
  repeat' first
    | intro _ | with_reducible apply kept_each | with_reducible apply kept_gainStep | with_reducible apply kept_set
    | with_reducible apply kept_ite | split | dsimp only | with_reducible assumption
    | refine kept_fst (by assumption) ?_ | refine kept_snd (by assumption) ?_ | exact rfl | assumption
    | exact (Fact.out : κ .slack = false)

theorem kept_execManualGainStep [κ.Out .slack] [κ.Out .converters] {s₀ : State} {c : Fin 12} {s : State}
    (h : Kept κ s₀ s) :
    KeptO κ s₀ (execManualGainStep c s) := by
  unfold execManualGainStep
  repeat' first
    | intro _ | with_reducible apply kept_next | with_reducible apply kept_live
    | with_reducible apply kept_manualStep | with_reducible apply kept_ite | split | dsimp only
    | with_reducible assumption | refine kept_fst (by assumption) ?_ | refine kept_snd (by assumption) ?_
    | exact rfl | assumption

theorem kept_writeOpenTest [κ.Out .converters] {s₀ : State} {c : Nat} {s : State} (h : Kept κ s₀ s) :
    Kept κ s₀ (writeOpenTest c s).1 := by
  unfold writeOpenTest
  repeat' first
    | intro _ | with_reducible apply kept_set | with_reducible apply kept_ite
    | with_reducible apply kept_ite_fst | split | dsimp only | with_reducible assumption
    | refine kept_fst (by assumption) ?_ | refine kept_snd (by assumption) ?_ | exact rfl | assumption
    | exact (Fact.out : κ .converters = false)

theorem kept_execOpenTestRequest [κ.Out .events] [κ.Out .management] [κ.Out .converters] [κ.Out .housekeeping]
    [κ.Out .captures] {s₀ : State} {cl : Client} {c : Fin 12} {s : State} (h : Kept κ s₀ s) :
    KeptO κ s₀ (execOpenTestRequest cl c s) := by
  unfold execOpenTestRequest
  repeat' first
    | intro _ | with_reducible apply kept_next | with_reducible refine kept_serveWrite ?_ ?_ (by first | exact .inl (by decide) | exact .inr Fact.out)
    | with_reducible apply kept_writeOpenTest | with_reducible apply kept_ite | split | dsimp only
    | with_reducible assumption | refine kept_fst (by assumption) ?_ | refine kept_snd (by assumption) ?_
    | exact rfl | assumption

theorem kept_openResult [κ.Out .events] [κ.Out .converters] [κ.Out .housekeeping] [κ.Out .captures] {s₀ s : State}
    {c : Nat} {p : Vector (Fin 65536) 4} {n : Vector (Fin 65536) 4} (h : Kept κ s₀ s) :
    Kept κ s₀ (State.openResult s c p n) := by
  unfold State.openResult
  repeat' first
    | intro _ | with_reducible apply kept_each | with_reducible apply kept_set | with_reducible apply kept_raise
    | with_reducible apply kept_ite | split | dsimp only | with_reducible assumption
    | refine kept_fst (by assumption) ?_ | refine kept_snd (by assumption) ?_ | exact rfl | assumption
    | exact (Fact.out : κ .converters = false)

theorem kept_execOpenTestComplete [κ.Out .events] [κ.Out .converters] [κ.Out .housekeeping] [κ.Out .captures]
    {s₀ : State} {c : Fin 12} {shiftP : Vector (Fin 65536) 4} {shiftN : Vector (Fin 65536) 4} {s : State}
    (h : Kept κ s₀ s) :
    KeptO κ s₀ (execOpenTestComplete c shiftP shiftN s) := by
  unfold execOpenTestComplete
  repeat' first
    | intro _ | with_reducible apply kept_next | with_reducible apply kept_live
    | with_reducible apply kept_openResult | with_reducible apply kept_ite | split | dsimp only
    | with_reducible assumption | refine kept_fst (by assumption) ?_ | refine kept_snd (by assumption) ?_
    | exact rfl | assumption

theorem kept_legProtect [κ.Out .converters] {s₀ s : State} {d : Nat} {leg : Nat} (h : Kept κ s₀ s) :
    Kept κ s₀ (State.legProtect s d leg) := by
  unfold State.legProtect
  repeat' first
    | intro _ | with_reducible apply kept_refreshConv | with_reducible apply kept_setBit
    | with_reducible apply kept_ite | split | dsimp only | with_reducible assumption
    | refine kept_fst (by assumption) ?_ | refine kept_snd (by assumption) ?_ | exact rfl | assumption
    | exact (Fact.out : κ .converters = false)

theorem kept_shortDetect [κ.Out .events] [κ.Out .converters] [κ.Out .housekeeping] [κ.Out .captures] {s₀ s : State}
    {d : Nat} {leg : Nat} (h : Kept κ s₀ s) :
    Kept κ s₀ (State.shortDetect s d leg) := by
  unfold State.shortDetect
  repeat' first
    | intro _ | with_reducible apply kept_legProtect | with_reducible apply kept_bump
    | with_reducible apply kept_set | with_reducible apply kept_markTick | with_reducible apply kept_raise
    | with_reducible apply kept_ite | split | dsimp only | with_reducible assumption
    | refine kept_fst (by assumption) ?_ | refine kept_snd (by assumption) ?_ | exact rfl | assumption
    | exact (Fact.out : κ .converters = false)

theorem kept_execDacShortDetect [κ.Out .events] [κ.Out .converters] [κ.Out .housekeeping] [κ.Out .captures]
    {s₀ : State} {d : Fin 48} {leg : Fin 2} {s : State} (h : Kept κ s₀ s) :
    KeptO κ s₀ (execDacShortDetect d leg s) := by
  unfold execDacShortDetect
  repeat' first
    | intro _ | with_reducible apply kept_next | with_reducible apply kept_live
    | with_reducible apply kept_shortDetect | with_reducible apply kept_ite | split | dsimp only
    | with_reducible assumption | refine kept_fst (by assumption) ?_ | refine kept_snd (by assumption) ?_
    | exact rfl | assumption

theorem kept_shortTrial [κ.Out .converters] {s₀ s : State} {d : Nat} {leg : Nat} (h : Kept κ s₀ s) :
    Kept κ s₀ (State.shortTrial s d leg) := by
  unfold State.shortTrial
  repeat' first
    | intro _ | with_reducible apply kept_set | with_reducible apply kept_bump | with_reducible apply kept_markTick
    | with_reducible apply kept_ite | split | dsimp only | with_reducible assumption
    | refine kept_fst (by assumption) ?_ | refine kept_snd (by assumption) ?_ | exact rfl | assumption
    | exact (Fact.out : κ .converters = false)

theorem kept_execShortRetryTrial [κ.Out .converters] {s₀ : State} {d : Fin 48} {leg : Fin 2} {s : State}
    (h : Kept κ s₀ s) :
    KeptO κ s₀ (execShortRetryTrial d leg s) := by
  unfold execShortRetryTrial
  repeat' first
    | intro _ | with_reducible apply kept_next | with_reducible apply kept_live
    | with_reducible apply kept_shortTrial | with_reducible apply kept_ite | split | dsimp only
    | with_reducible assumption | refine kept_fst (by assumption) ?_ | refine kept_snd (by assumption) ?_
    | exact rfl | assumption

theorem kept_shortTrialEnd [κ.Out .events] [κ.Out .converters] [κ.Out .housekeeping] [κ.Out .captures]
    {s₀ s : State} {d : Nat} {leg : Nat} {engaged : Bool} (h : Kept κ s₀ s) :
    Kept κ s₀ (State.shortTrialEnd s d leg engaged) := by
  unfold State.shortTrialEnd
  repeat' first
    | intro _ | with_reducible apply kept_set | with_reducible apply kept_raise
    | with_reducible apply kept_refreshConv | with_reducible apply kept_setBit | with_reducible apply kept_ite
    | split | dsimp only | with_reducible assumption | refine kept_fst (by assumption) ?_
    | refine kept_snd (by assumption) ?_ | exact rfl | assumption | exact (Fact.out : κ .converters = false)

theorem kept_execShortTrialEnd [κ.Out .events] [κ.Out .converters] [κ.Out .housekeeping] [κ.Out .captures]
    {s₀ : State} {d : Fin 48} {leg : Fin 2} {engaged : Bool} {s : State} (h : Kept κ s₀ s) :
    KeptO κ s₀ (execShortTrialEnd d leg engaged s) := by
  unfold execShortTrialEnd
  repeat' first
    | intro _ | with_reducible apply kept_next | with_reducible apply kept_live
    | with_reducible apply kept_shortTrialEnd | with_reducible apply kept_ite | split | dsimp only
    | with_reducible assumption | refine kept_fst (by assumption) ?_ | refine kept_snd (by assumption) ?_
    | exact rfl | assumption

theorem kept_writeShortRetry [κ.Out .converters] {s₀ : State} {d : Nat} {v : Int} {s : State} (h : Kept κ s₀ s) :
    Kept κ s₀ (writeShortRetry d v s).1 := by
  unfold writeShortRetry
  repeat' first
    | intro _ | with_reducible apply kept_set | with_reducible apply kept_refreshConv
    | with_reducible apply kept_ite | with_reducible apply kept_ite_fst | split | dsimp only
    | with_reducible assumption | refine kept_fst (by assumption) ?_ | refine kept_snd (by assumption) ?_
    | exact rfl | assumption | exact (Fact.out : κ .converters = false)

theorem kept_writeConvPolicy [κ.Out .converters] {s₀ : State} {r : Reg} {i : Nat} {c : Nat} {v : Int} {s : State}
    (hr : κ (Safety.part r) = false := by
      first | assumption | ((conv in Safety.part _ => whnf); exact Fact.out) | exact leaves_none _)
    (h : Kept κ s₀ s) :
    Kept κ s₀ (writeConvPolicy r i c v s).1 := by
  unfold writeConvPolicy
  repeat' first
    | intro _ | with_reducible apply kept_refreshConv | with_reducible apply kept_set
    | with_reducible apply kept_ite | with_reducible apply kept_ite_fst | split | dsimp only
    | with_reducible assumption | refine kept_fst (by assumption) ?_ | refine kept_snd (by assumption) ?_
    | exact rfl | assumption

theorem kept_writeWiring [κ.Out .converters] {s₀ : State} {r : Reg} {c : Nat} {v : Int} {s : State}
    (hr : κ (Safety.part r) = false := by
      first | assumption | ((conv in Safety.part _ => whnf); exact Fact.out) | exact leaves_none _)
    (h : Kept κ s₀ s) :
    Kept κ s₀ (writeWiring r c v s).1 := by
  unfold writeWiring
  repeat' first
    | intro _ | with_reducible apply kept_set | with_reducible apply kept_ite
    | with_reducible apply kept_ite_fst | split | dsimp only | with_reducible assumption
    | refine kept_fst (by assumption) ?_ | refine kept_snd (by assumption) ?_ | exact rfl | assumption
    | exact (Fact.out : κ .converters = false)

theorem kept_applyRxSkew [κ.Out .slack] [κ.Out .converters] [κ.Out .frontEnd] {s₀ s : State} {c : Nat}
    (h : Kept κ s₀ s) :
    Kept κ s₀ (State.applyRxSkew s c) := by
  unfold State.applyRxSkew
  repeat' first
    | intro _ | with_reducible apply kept_each | with_reducible apply kept_set | with_reducible apply kept_bump
    | with_reducible apply kept_ite | split | dsimp only | with_reducible assumption
    | refine kept_fst (by assumption) ?_ | refine kept_snd (by assumption) ?_ | exact rfl | assumption
    | (unfold rxSkewReg; split_ifs <;> exact rfl) | exact (Fact.out : κ .slack = false)
    | exact (Fact.out : κ .converters = false) | exact (Fact.out : κ .frontEnd = false)

theorem kept_applyBank [κ.Out .banks] [κ.Out .dispersion] [κ.Out .equaliser] {s₀ s : State} {b : Nat}
    (h : Kept κ s₀ s) :
    Kept κ s₀ (State.applyBank s b) := by
  unfold State.applyBank
  repeat' first
    | intro _ | with_reducible apply kept_bankSwap | with_reducible apply kept_set
    | with_reducible apply kept_refreshBusy | with_reducible apply kept_setBlob | with_reducible apply kept_ite
    | split | dsimp only | with_reducible assumption | refine kept_fst (by assumption) ?_
    | refine kept_snd (by assumption) ?_ | exact rfl | assumption | exact (Fact.out : κ .banks = false)
    | exact (Fact.out : κ .equaliser = false)

theorem kept_dueMap [κ.Out .events] [κ.Out .converters] [κ.Out .housekeeping] [κ.Out .captures] {s₀ s : State}
    {c : Nat} (h : Kept κ s₀ s) :
    Kept κ s₀ (State.dueMap s c) := by
  unfold State.dueMap
  repeat' first
    | intro _ | with_reducible apply kept_applyMap | with_reducible apply kept_raise
    | with_reducible apply kept_ite | split | dsimp only | with_reducible assumption
    | refine kept_fst (by assumption) ?_ | refine kept_snd (by assumption) ?_ | exact rfl | assumption

theorem kept_strokeBoundary [κ.Out .events] [κ.Out .slack] [κ.Out .converters] [κ.Out .banks] [κ.Out .dispersion]
    [κ.Out .frontEnd] [κ.Out .equaliser] [κ.Out .housekeeping] [κ.Out .captures] {s₀ s : State} {c : Nat}
    (h : Kept κ s₀ s) :
    Kept κ s₀ (State.strokeBoundary s c) := by
  unfold State.strokeBoundary
  extract_lets x1 x2 x3 x4
  have k1 : Kept κ s₀ x1 := by
    unfold x1
    repeat' first
      | intro _ | with_reducible apply kept_dueMap | with_reducible apply kept_set | with_reducible apply kept_each
      | with_reducible apply kept_applyRxSkew | with_reducible apply kept_setBlob
      | with_reducible apply kept_applyBank | with_reducible apply kept_refreshRx | with_reducible apply kept_ite
      | split | dsimp only | with_reducible assumption | refine kept_fst (by assumption) ?_
      | refine kept_snd (by assumption) ?_ | exact rfl | assumption | exact (Fact.out : κ .converters = false)
      | exact (Fact.out : κ .banks = false)
  clear_value x1
  have k2 : Kept κ s₀ x2 := by
    unfold x2
    repeat' first
      | intro _ | with_reducible apply kept_dueMap | with_reducible apply kept_set | with_reducible apply kept_each
      | with_reducible apply kept_applyRxSkew | with_reducible apply kept_setBlob
      | with_reducible apply kept_applyBank | with_reducible apply kept_refreshRx | with_reducible apply kept_ite
      | split | dsimp only | with_reducible assumption | refine kept_fst (by assumption) ?_
      | refine kept_snd (by assumption) ?_ | exact rfl | assumption | exact (Fact.out : κ .converters = false)
      | exact (Fact.out : κ .banks = false)
  clear_value x2
  have k3 : Kept κ s₀ x3 := by
    unfold x3
    repeat' first
      | intro _ | with_reducible apply kept_dueMap | with_reducible apply kept_set | with_reducible apply kept_each
      | with_reducible apply kept_applyRxSkew | with_reducible apply kept_setBlob
      | with_reducible apply kept_applyBank | with_reducible apply kept_refreshRx | with_reducible apply kept_ite
      | split | dsimp only | with_reducible assumption | refine kept_fst (by assumption) ?_
      | refine kept_snd (by assumption) ?_ | exact rfl | assumption | exact (Fact.out : κ .converters = false)
      | exact (Fact.out : κ .banks = false)
  clear_value x3
  have k4 : Kept κ s₀ x4 := by
    unfold x4
    repeat' first
      | intro _ | with_reducible apply kept_dueMap | with_reducible apply kept_set | with_reducible apply kept_each
      | with_reducible apply kept_applyRxSkew | with_reducible apply kept_setBlob
      | with_reducible apply kept_applyBank | with_reducible apply kept_refreshRx | with_reducible apply kept_ite
      | split | dsimp only | with_reducible assumption | refine kept_fst (by assumption) ?_
      | refine kept_snd (by assumption) ?_ | exact rfl | assumption | exact (Fact.out : κ .converters = false)
      | exact (Fact.out : κ .banks = false)
  clear_value x4
  repeat' first
    | intro _ | with_reducible apply kept_dueMap | with_reducible apply kept_set | with_reducible apply kept_each
    | with_reducible apply kept_applyRxSkew | with_reducible apply kept_setBlob
    | with_reducible apply kept_applyBank | with_reducible apply kept_refreshRx | with_reducible apply kept_ite
    | split | dsimp only | with_reducible assumption | refine kept_fst (by assumption) ?_
    | refine kept_snd (by assumption) ?_ | exact rfl | assumption | exact (Fact.out : κ .converters = false)
    | exact (Fact.out : κ .banks = false)

theorem kept_execStrokeBoundaryApply [κ.Out .events] [κ.Out .slack] [κ.Out .converters] [κ.Out .banks]
    [κ.Out .dispersion] [κ.Out .frontEnd] [κ.Out .equaliser] [κ.Out .housekeeping] [κ.Out .captures] {s₀ : State}
    {c : Fin 12} {s : State} (h : Kept κ s₀ s) :
    KeptO κ s₀ (execStrokeBoundaryApply c s) := by
  unfold execStrokeBoundaryApply
  repeat' first
    | intro _ | with_reducible apply kept_next | with_reducible apply kept_live
    | with_reducible apply kept_strokeBoundary | with_reducible apply kept_ite | split | dsimp only
    | with_reducible assumption | refine kept_fst (by assumption) ?_ | refine kept_snd (by assumption) ?_
    | exact rfl | assumption

end Sys2Proof.Laws
end

