-- ==== Sys2Proof/Laws/Kept/Catch.lean ====
section
/-! SUPPORT. Every operation of Machine/Catch.lean keeps (Laws/Kept.lean). -/

set_option Elab.async false
set_option linter.unusedTactic false
set_option linter.unreachableTactic false
set_option linter.unusedVariables false

namespace Sys2Proof.Laws

open Sys2Proof.Machine

variable {κ : Scope}

theorem kept_levelTake [κ.Out .catching] {s₀ s : State} {c : Nat} {rms : List Nat} (h : Kept κ s₀ s) :
    Kept κ s₀ (State.levelTake s c rms) := by
  unfold State.levelTake
  repeat' first
    | intro _ | with_reducible apply kept_set | with_reducible apply kept_bump | with_reducible apply kept_ite
    | split | dsimp only | with_reducible assumption | refine kept_fst (by assumption) ?_
    | refine kept_snd (by assumption) ?_ | exact rfl | assumption | exact (Fact.out : κ .catching = false)

theorem kept_surveyWindow [κ.Out .catching] {s₀ s : State} {c : Nat} {rms : Vector (Fin 65536) 4} (h : Kept κ s₀ s) :
    Kept κ s₀ (State.surveyWindow s c rms) := by
  unfold State.surveyWindow
  repeat' first
    | intro _ | with_reducible apply kept_levelTake | with_reducible apply kept_set | with_reducible apply kept_ite
    | split | dsimp only | with_reducible assumption | refine kept_fst (by assumption) ?_
    | refine kept_snd (by assumption) ?_ | exact rfl | assumption | exact (Fact.out : κ .catching = false)

theorem kept_survey [κ.Out .catching] {s₀ s : State} {c : Nat} {l : Vector SurveyReading 8}
    {rms : Vector (Fin 65536) 4} (h : Kept κ s₀ s) :
    Kept κ s₀ (State.survey s c l rms) := by
  unfold State.survey
  repeat' first
    | intro _ | with_reducible apply kept_foldl | with_reducible apply kept_set
    | with_reducible apply kept_seekState | with_reducible apply kept_surveyWindow
    | with_reducible apply kept_catchSettings | with_reducible apply kept_foldl_fst | with_reducible apply kept_ite
    | split | dsimp only | with_reducible assumption | refine kept_fst (by assumption) ?_
    | refine kept_snd (by assumption) ?_ | exact rfl | assumption | exact (Fact.out : κ .catching = false)

theorem kept_execSurveyRefresh [κ.Out .catching] {s₀ s : State} {c : Fin 12} {l : Vector SurveyReading 8}
    {rmsX : Vector (Fin 65536) 2} {rmsY : Vector (Fin 65536) 2} (h : Kept κ s₀ s) :
    KeptO κ s₀ (execSurveyRefresh c l rmsX rmsY s) := by
  unfold execSurveyRefresh
  repeat' first
    | intro _ | with_reducible apply kept_live | with_reducible apply kept_survey | with_reducible apply kept_ite
    | split | dsimp only | with_reducible assumption | refine kept_fst (by assumption) ?_
    | refine kept_snd (by assumption) ?_ | exact rfl | assumption

theorem kept_catchRetune [κ.Out .clocks] [κ.Out .converters] [κ.Out .calibration] [κ.Out .banks] [κ.Out .dispersion]
    [κ.Out .frontEnd] [κ.Out .equaliser] [κ.Out .recovery] [κ.Out .catching] {s₀ s : State} {c : Nat} {rate : Nat}
    (h : Kept κ s₀ s) :
    Kept κ s₀ (State.catchRetune s c rate) := by
  unfold State.catchRetune
  repeat' first
    | intro _ | with_reducible apply kept_retune | with_reducible apply kept_set | with_reducible apply kept_ite
    | split | dsimp only | with_reducible assumption | refine kept_fst (by assumption) ?_
    | refine kept_snd (by assumption) ?_ | exact rfl | assumption | exact (Fact.out : κ .catching = false)

theorem kept_tentative [κ.Out .carriers] [κ.Out .rxLine] [κ.Out .clocks] [κ.Out .converters] [κ.Out .calibration]
    [κ.Out .banks] [κ.Out .dispersion] [κ.Out .frontEnd] [κ.Out .equaliser] [κ.Out .monitors] [κ.Out .recovery]
    [κ.Out .catching] [κ.Out .coding] {s₀ s : State} {c : Nat} {frequency : Int} (h : Kept κ s₀ s) :
    Kept κ s₀ (State.tentative s c frequency) := by
  unfold State.tentative
  extract_lets x1 x2 x3 x4 x5 x6 x7
  have k3 : Kept κ s₀ x3 := by
    unfold x3
    repeat' first
      | intro _ | with_reducible apply kept_setCarrierState | with_reducible apply kept_set
      | with_reducible apply kept_bump | with_reducible apply kept_each | with_reducible apply kept_setRx
      | with_reducible apply kept_rxFigures | with_reducible apply kept_catchRetune
      | with_reducible apply kept_refreshRx | with_reducible apply kept_ite | split | dsimp only
      | with_reducible assumption | refine kept_fst (by assumption) ?_ | refine kept_snd (by assumption) ?_
      | exact rfl | assumption | exact (Fact.out : κ .converters = false)
      | exact (Fact.out : κ .dispersion = false) | exact (Fact.out : κ .frontEnd = false)
      | exact (Fact.out : κ .monitors = false) | exact (Fact.out : κ .recovery = false)
      | exact (Fact.out : κ .catching = false)
  clear_value x3
  have k5 : Kept κ s₀ x5 := by
    unfold x5
    repeat' first
      | intro _ | with_reducible apply kept_setCarrierState | with_reducible apply kept_set
      | with_reducible apply kept_bump | with_reducible apply kept_each | with_reducible apply kept_setRx
      | with_reducible apply kept_rxFigures | with_reducible apply kept_catchRetune
      | with_reducible apply kept_refreshRx | with_reducible apply kept_ite | split | dsimp only
      | with_reducible assumption | refine kept_fst (by assumption) ?_ | refine kept_snd (by assumption) ?_
      | exact rfl | assumption | exact (Fact.out : κ .converters = false)
      | exact (Fact.out : κ .dispersion = false) | exact (Fact.out : κ .frontEnd = false)
      | exact (Fact.out : κ .monitors = false) | exact (Fact.out : κ .recovery = false)
      | exact (Fact.out : κ .catching = false)
  clear_value x5
  have k7 : Kept κ s₀ x7 := by
    unfold x7
    repeat' first
      | intro _ | with_reducible apply kept_setCarrierState | with_reducible apply kept_set
      | with_reducible apply kept_bump | with_reducible apply kept_each | with_reducible apply kept_setRx
      | with_reducible apply kept_rxFigures | with_reducible apply kept_catchRetune
      | with_reducible apply kept_refreshRx | with_reducible apply kept_ite | split | dsimp only
      | with_reducible assumption | refine kept_fst (by assumption) ?_ | refine kept_snd (by assumption) ?_
      | exact rfl | assumption | exact (Fact.out : κ .converters = false)
      | exact (Fact.out : κ .dispersion = false) | exact (Fact.out : κ .frontEnd = false)
      | exact (Fact.out : κ .monitors = false) | exact (Fact.out : κ .recovery = false)
      | exact (Fact.out : κ .catching = false)
  clear_value x7
  repeat' first
    | intro _ | with_reducible apply kept_setCarrierState | with_reducible apply kept_set
    | with_reducible apply kept_bump | with_reducible apply kept_each | with_reducible apply kept_setRx
    | with_reducible apply kept_rxFigures | with_reducible apply kept_catchRetune
    | with_reducible apply kept_refreshRx | with_reducible apply kept_ite | split | dsimp only
    | with_reducible assumption | refine kept_fst (by assumption) ?_ | refine kept_snd (by assumption) ?_
    | exact rfl | assumption | exact (Fact.out : κ .converters = false) | exact (Fact.out : κ .dispersion = false)
    | exact (Fact.out : κ .frontEnd = false) | exact (Fact.out : κ .monitors = false)
    | exact (Fact.out : κ .recovery = false) | exact (Fact.out : κ .catching = false)

theorem kept_execTentativeEntry [κ.Out .carriers] [κ.Out .rxLine] [κ.Out .clocks] [κ.Out .converters]
    [κ.Out .calibration] [κ.Out .banks] [κ.Out .dispersion] [κ.Out .frontEnd] [κ.Out .equaliser] [κ.Out .monitors]
    [κ.Out .recovery] [κ.Out .catching] [κ.Out .coding]
    {s₀ : State} {c : Fin 12} {frequency : Int} {s : State} (h : Kept κ s₀ s) :
    KeptO κ s₀ (execTentativeEntry c frequency s) := by
  unfold execTentativeEntry
  repeat' first
    | intro _ | with_reducible apply kept_next | with_reducible apply kept_live
    | with_reducible apply kept_tentative | with_reducible apply kept_ite | split | dsimp only
    | with_reducible assumption | refine kept_fst (by assumption) ?_ | refine kept_snd (by assumption) ?_
    | exact rfl | assumption

theorem kept_keepMatch [κ.Out .catching] {s₀ s : State} {c : Nat} {rate : Nat} {m : MatchReading} (h : Kept κ s₀ s) :
    Kept κ s₀ (State.keepMatch s c rate m) := by
  unfold State.keepMatch
  repeat' first
    | intro _ | with_reducible apply kept_set | with_reducible apply kept_ite | split | dsimp only
    | with_reducible assumption | refine kept_fst (by assumption) ?_ | refine kept_snd (by assumption) ?_
    | exact rfl | assumption | exact (Fact.out : κ .catching = false)

theorem kept_matchFound [κ.Out .events] [κ.Out .carriers] [κ.Out .rxLine] [κ.Out .clocks] [κ.Out .converters]
    [κ.Out .calibration] [κ.Out .banks] [κ.Out .dispersion] [κ.Out .frontEnd] [κ.Out .equaliser] [κ.Out .monitors]
    [κ.Out .recovery] [κ.Out .catching] [κ.Out .coding] [κ.Out .defects] [κ.Out .overhead] [κ.Out .pages]
    [κ.Out .bonding] [κ.Out .housekeeping] [κ.Out .captures] {s₀ s : State} {c : Nat} {l : List MatchReading}
    (h : Kept κ s₀ s) :
    Kept κ s₀ (State.matchFound s c l) := by
  unfold State.matchFound
  repeat' first
    | intro _ | with_reducible apply kept_set | with_reducible apply kept_keepMatch
    | with_reducible apply kept_bump | with_reducible apply kept_seekEntry | with_reducible apply kept_tentative
    | with_reducible apply kept_ite | split | dsimp only | with_reducible assumption
    | refine kept_fst (by assumption) ?_ | refine kept_snd (by assumption) ?_ | exact rfl | assumption
    | exact (Fact.out : κ .catching = false)

theorem kept_execCatchMatch [κ.Out .events] [κ.Out .carriers] [κ.Out .rxLine] [κ.Out .clocks] [κ.Out .converters]
    [κ.Out .calibration] [κ.Out .banks] [κ.Out .dispersion] [κ.Out .frontEnd] [κ.Out .equaliser] [κ.Out .monitors]
    [κ.Out .recovery] [κ.Out .catching] [κ.Out .coding] [κ.Out .defects] [κ.Out .overhead] [κ.Out .pages]
    [κ.Out .bonding] [κ.Out .housekeeping] [κ.Out .captures] {s₀ s : State} {c : Fin 12} {l : List MatchReading}
    (h : Kept κ s₀ s) :
    KeptO κ s₀ (execCatchMatch c l s) := by
  unfold execCatchMatch
  repeat' first
    | intro _ | with_reducible apply kept_live | with_reducible apply kept_matchFound
    | with_reducible apply kept_ite | split | dsimp only | with_reducible assumption
    | refine kept_fst (by assumption) ?_ | refine kept_snd (by assumption) ?_ | exact rfl | assumption

theorem kept_txRelocked [κ.Out .clocks] [κ.Out .converters] [κ.Out .calibration] {s₀ s : State} {c : Nat}
    (h : Kept κ s₀ s) :
    Kept κ s₀ (State.txRelocked s c) := by
  unfold State.txRelocked
  repeat' first
    | intro _ | with_reducible apply kept_setLoops | with_reducible apply kept_bandChosen
    | with_reducible apply kept_ite | split | dsimp only | with_reducible assumption
    | refine kept_fst (by assumption) ?_ | refine kept_snd (by assumption) ?_ | exact rfl | assumption

theorem kept_loopRelocked [κ.Out .rxLine] [κ.Out .clocks] [κ.Out .converters] [κ.Out .calibration] [κ.Out .banks]
    [κ.Out .dispersion] [κ.Out .frontEnd] [κ.Out .equaliser] [κ.Out .recovery] [κ.Out .catching] {s₀ s : State}
    {c : Nat} (h : Kept κ s₀ s) :
    Kept κ s₀ (State.loopRelocked s c) := by
  unfold State.loopRelocked
  repeat' first
    | intro _ | with_reducible apply kept_txRelocked | with_reducible apply kept_set
    | with_reducible apply kept_setLoops | with_reducible apply kept_bandChosen
    | with_reducible apply kept_bankRefit | with_reducible apply kept_surveyAll | with_reducible apply kept_setRx
    | with_reducible apply kept_seekState | with_reducible apply kept_refreshConv
    | with_reducible apply kept_refreshRx | with_reducible apply kept_ite | split | dsimp only
    | with_reducible assumption | refine kept_fst (by assumption) ?_ | refine kept_snd (by assumption) ?_
    | exact rfl | assumption | exact (Fact.out : κ .clocks = false) | exact (Fact.out : κ .frontEnd = false)
    | exact (Fact.out : κ .recovery = false) | exact (Fact.out : κ .catching = false)

theorem kept_execRxLoopRelock [κ.Out .rxLine] [κ.Out .clocks] [κ.Out .converters] [κ.Out .calibration] [κ.Out .banks]
    [κ.Out .dispersion] [κ.Out .frontEnd] [κ.Out .equaliser] [κ.Out .recovery] [κ.Out .catching]
    {s₀ : State} {c : Fin 12} {s : State}
    (h : Kept κ s₀ s) :
    KeptO κ s₀ (execRxLoopRelock c s) := by
  unfold execRxLoopRelock
  repeat' first
    | intro _ | with_reducible apply kept_next | with_reducible apply kept_live
    | with_reducible apply kept_loopRelocked | with_reducible apply kept_ite | split | dsimp only
    | with_reducible assumption | refine kept_fst (by assumption) ?_ | refine kept_snd (by assumption) ?_
    | exact rfl | assumption

theorem kept_enterLocked [κ.Out .events] [κ.Out .carriers] [κ.Out .equaliser] [κ.Out .recovery] [κ.Out .catching]
    [κ.Out .defects] [κ.Out .overhead] [κ.Out .bonding] [κ.Out .housekeeping] [κ.Out .captures] {s₀ s : State}
    {c : Nat} {rms : Vector (Fin 65536) 4} (h : Kept κ s₀ s) :
    Kept κ s₀ (State.enterLocked s c rms) := by
  unfold State.enterLocked
  extract_lets x1 x2 x3 x4 x5 x6 x7 x8
  have k2 : Kept κ s₀ x2 := by
    unfold x2
    repeat' first
      | intro _ | with_reducible apply kept_setCarrierState | with_reducible apply kept_set
      | with_reducible apply kept_levelTake | with_reducible apply kept_defectsLocked
      | with_reducible apply kept_setMember | with_reducible apply kept_raise | with_reducible apply kept_refreshRx
      | with_reducible apply kept_ite | split | dsimp only | with_reducible assumption
      | refine kept_fst (by assumption) ?_ | refine kept_snd (by assumption) ?_ | exact rfl | assumption
      | exact (Fact.out : κ .recovery = false) | exact (Fact.out : κ .catching = false)
      | exact (Fact.out : κ .overhead = false) | exact (Fact.out : κ .bonding = false)
  clear_value x2
  have k3 : Kept κ s₀ x3 := by
    unfold x3
    repeat' first
      | intro _ | with_reducible apply kept_setCarrierState | with_reducible apply kept_set
      | with_reducible apply kept_levelTake | with_reducible apply kept_defectsLocked
      | with_reducible apply kept_setMember | with_reducible apply kept_raise | with_reducible apply kept_refreshRx
      | with_reducible apply kept_ite | split | dsimp only | with_reducible assumption
      | refine kept_fst (by assumption) ?_ | refine kept_snd (by assumption) ?_ | exact rfl | assumption
      | exact (Fact.out : κ .recovery = false) | exact (Fact.out : κ .catching = false)
      | exact (Fact.out : κ .overhead = false) | exact (Fact.out : κ .bonding = false)
  clear_value x3
  have k4 : Kept κ s₀ x4 := by
    unfold x4
    repeat' first
      | intro _ | with_reducible apply kept_setCarrierState | with_reducible apply kept_set
      | with_reducible apply kept_levelTake | with_reducible apply kept_defectsLocked
      | with_reducible apply kept_setMember | with_reducible apply kept_raise | with_reducible apply kept_refreshRx
      | with_reducible apply kept_ite | split | dsimp only | with_reducible assumption
      | refine kept_fst (by assumption) ?_ | refine kept_snd (by assumption) ?_ | exact rfl | assumption
      | exact (Fact.out : κ .recovery = false) | exact (Fact.out : κ .catching = false)
      | exact (Fact.out : κ .overhead = false) | exact (Fact.out : κ .bonding = false)
  clear_value x4
  have k6 : Kept κ s₀ x6 := by
    unfold x6
    repeat' first
      | intro _ | with_reducible apply kept_setCarrierState | with_reducible apply kept_set
      | with_reducible apply kept_levelTake | with_reducible apply kept_defectsLocked
      | with_reducible apply kept_setMember | with_reducible apply kept_raise | with_reducible apply kept_refreshRx
      | with_reducible apply kept_ite | split | dsimp only | with_reducible assumption
      | refine kept_fst (by assumption) ?_ | refine kept_snd (by assumption) ?_ | exact rfl | assumption
      | exact (Fact.out : κ .recovery = false) | exact (Fact.out : κ .catching = false)
      | exact (Fact.out : κ .overhead = false) | exact (Fact.out : κ .bonding = false)
  clear_value x6
  have k8 : Kept κ s₀ x8 := by
    unfold x8
    repeat' first
      | intro _ | with_reducible apply kept_setCarrierState | with_reducible apply kept_set
      | with_reducible apply kept_levelTake | with_reducible apply kept_defectsLocked
      | with_reducible apply kept_setMember | with_reducible apply kept_raise | with_reducible apply kept_refreshRx
      | with_reducible apply kept_ite | split | dsimp only | with_reducible assumption
      | refine kept_fst (by assumption) ?_ | refine kept_snd (by assumption) ?_ | exact rfl | assumption
      | exact (Fact.out : κ .recovery = false) | exact (Fact.out : κ .catching = false)
      | exact (Fact.out : κ .overhead = false) | exact (Fact.out : κ .bonding = false)
  clear_value x8
  repeat' first
    | intro _ | with_reducible apply kept_setCarrierState | with_reducible apply kept_set
    | with_reducible apply kept_levelTake | with_reducible apply kept_defectsLocked
    | with_reducible apply kept_setMember | with_reducible apply kept_raise | with_reducible apply kept_refreshRx
    | with_reducible apply kept_ite | split | dsimp only | with_reducible assumption
    | refine kept_fst (by assumption) ?_ | refine kept_snd (by assumption) ?_ | exact rfl | assumption
    | exact (Fact.out : κ .recovery = false) | exact (Fact.out : κ .catching = false)
    | exact (Fact.out : κ .overhead = false) | exact (Fact.out : κ .bonding = false)

theorem kept_abandonCatch [κ.Out .events] [κ.Out .carriers] [κ.Out .rxLine] [κ.Out .clocks] [κ.Out .converters]
    [κ.Out .calibration] [κ.Out .banks] [κ.Out .dispersion] [κ.Out .frontEnd] [κ.Out .equaliser] [κ.Out .monitors]
    [κ.Out .recovery] [κ.Out .catching] [κ.Out .coding] [κ.Out .defects] [κ.Out .overhead] [κ.Out .pages]
    [κ.Out .bonding] [κ.Out .housekeeping] [κ.Out .captures]
    {s₀ s : State} {c : Nat} (h : Kept κ s₀ s) :
    Kept κ s₀ (State.abandonCatch s c) := by
  unfold State.abandonCatch
  repeat' first
    | intro _ | with_reducible apply kept_set | with_reducible apply kept_bump | with_reducible apply kept_raise
    | with_reducible apply kept_toSeeking | with_reducible apply kept_ite | split | dsimp only
    | with_reducible assumption | refine kept_fst (by assumption) ?_ | refine kept_snd (by assumption) ?_
    | exact rfl | assumption | exact (Fact.out : κ .catching = false)

theorem kept_snrTake [κ.Out .catching] {s₀ s : State} {c : Nat} {snr : Option Int} (h : Kept κ s₀ s) :
    Kept κ s₀ (State.snrTake s c snr) := by
  unfold State.snrTake
  repeat' first
    | intro _ | with_reducible apply kept_set | with_reducible apply kept_ite | split | dsimp only
    | with_reducible assumption | refine kept_fst (by assumption) ?_ | refine kept_snd (by assumption) ?_
    | exact rfl | assumption | exact (Fact.out : κ .catching = false)

theorem kept_confirmEval [κ.Out .events] [κ.Out .carriers] [κ.Out .rxLine] [κ.Out .clocks] [κ.Out .converters]
    [κ.Out .calibration] [κ.Out .banks] [κ.Out .dispersion] [κ.Out .frontEnd] [κ.Out .equaliser] [κ.Out .monitors]
    [κ.Out .recovery] [κ.Out .catching] [κ.Out .coding] [κ.Out .defects] [κ.Out .overhead] [κ.Out .pages]
    [κ.Out .bonding] [κ.Out .housekeeping] [κ.Out .captures] {s₀ s : State} {c : Nat} {m : FrameReading}
    (h : Kept κ s₀ s) :
    Kept κ s₀ (State.confirmEval s c m) := by
  unfold State.confirmEval
  repeat' first
    | intro _ | with_reducible apply kept_setRx | with_reducible apply kept_set | with_reducible apply kept_snrTake
    | with_reducible apply kept_enterLocked | with_reducible apply kept_abandonCatch
    | with_reducible apply kept_ite | split | dsimp only | with_reducible assumption
    | refine kept_fst (by assumption) ?_ | refine kept_snd (by assumption) ?_ | exact rfl | assumption
    | exact (Fact.out : κ .catching = false)

theorem kept_writeCandidate [κ.Out .dispersion] {s₀ : State} {r : Reg} {i : Nat} {c : Nat} {v : Int} {s : State}
    (hr : κ (Safety.part r) = false := by
      first | assumption | ((conv in Safety.part _ => whnf); exact Fact.out) | exact leaves_none _)
    (h : Kept κ s₀ s) :
    Kept κ s₀ (writeCandidate r i c v s).1 := by
  unfold writeCandidate
  repeat' first
    | intro _ | with_reducible apply kept_set | with_reducible apply kept_refreshReach
    | with_reducible apply kept_ite | with_reducible apply kept_ite_fst | split | dsimp only
    | with_reducible assumption | refine kept_fst (by assumption) ?_ | refine kept_snd (by assumption) ?_
    | exact rfl | assumption

theorem kept_writeConfirm [κ.Out .catching] {s₀ : State} {c : Nat} {v : Int} {s : State} (h : Kept κ s₀ s) :
    Kept κ s₀ (writeConfirm c v s).1 := by
  unfold writeConfirm
  repeat' first
    | intro _ | with_reducible apply kept_set | with_reducible apply kept_ite
    | with_reducible apply kept_ite_fst | split | dsimp only | with_reducible assumption
    | refine kept_fst (by assumption) ?_ | refine kept_snd (by assumption) ?_ | exact rfl | assumption
    | exact (Fact.out : κ .catching = false)

end Sys2Proof.Laws
end

