-- ==== Sys2Proof/Laws/Kept/Super.lean ====
section
/-! SUPPORT. Every operation of Machine/Super.lean keeps (Laws/Kept.lean). -/

set_option Elab.async false
set_option linter.unusedTactic false
set_option linter.unreachableTactic false
set_option linter.unusedVariables false

namespace Sys2Proof.Laws

open Sys2Proof.Machine

variable {κ : Scope}

theorem kept_refreshNc [κ.Out .neighbours] {s₀ s : State} {c : Nat} (h : Kept κ s₀ s) :
    Kept κ s₀ (State.refreshNc s c) := by
  unfold State.refreshNc
  repeat' first
    | intro _ | with_reducible apply kept_set | with_reducible apply kept_ite | split | dsimp only
    | with_reducible assumption | refine kept_fst (by assumption) ?_ | refine kept_snd (by assumption) ?_
    | exact rfl | assumption | exact (Fact.out : κ .neighbours = false)

theorem kept_sideEval [κ.Out .events] [κ.Out .neighbours] [κ.Out .housekeeping] [κ.Out .captures] {s₀ s : State}
    {c : Nat} {side : Nat} (h : Kept κ s₀ s) :
    Kept κ s₀ (State.sideEval s c side) := by
  unfold State.sideEval
  repeat' first
    | intro _ | with_reducible apply kept_set | with_reducible apply kept_setBlob | with_reducible apply kept_bump
    | with_reducible apply kept_raise | with_reducible apply kept_ite | split | dsimp only
    | with_reducible assumption | refine kept_fst (by assumption) ?_ | refine kept_snd (by assumption) ?_
    | exact rfl | assumption | exact (Fact.out : κ .neighbours = false)

theorem kept_demapOne [κ.Out .memory] [κ.Out .rxLine] [κ.Out .captures] {s₀ s : State} {c : Nat} {e : Decision}
    {v : Cx2} (h : Kept κ s₀ s) :
    Kept κ s₀ (State.demapOne s c e v) := by
  unfold State.demapOne
  repeat' first
    | intro _ | with_reducible apply kept_setRx | with_reducible apply kept_capturePut
    | with_reducible apply kept_ite | split | dsimp only | with_reducible assumption
    | refine kept_fst (by assumption) ?_ | refine kept_snd (by assumption) ?_ | exact rfl | assumption

theorem kept_ncBlock [κ.Out .memory] [κ.Out .rxLine] [κ.Out .neighbours] [κ.Out .captures] {s₀ s : State} {c : Nat}
    {k : NcBlock} (h : Kept κ s₀ s) :
    Kept κ s₀ (State.ncBlock s c k) := by
  unfold State.ncBlock
  repeat' first
    | intro _ | with_reducible apply kept_set | with_reducible apply kept_step | with_reducible apply kept_each
    | with_reducible apply kept_bump | with_reducible apply kept_setBlob | with_reducible apply kept_setRx
    | with_reducible apply kept_demapOne | with_reducible apply kept_ite | split | dsimp only
    | with_reducible assumption | refine kept_fst (by assumption) ?_ | refine kept_snd (by assumption) ?_
    | exact rfl | assumption | exact (Fact.out : κ .neighbours = false)

theorem kept_execNcAdaptBlock [κ.Out .memory] [κ.Out .rxLine] [κ.Out .neighbours] [κ.Out .captures]
    {s₀ : State} {c : Fin 12} {k : NcBlock} {s : State}
    (h : Kept κ s₀ s) :
    KeptO κ s₀ (execNcAdaptBlock c k s) := by
  unfold execNcAdaptBlock
  repeat' first
    | intro _ | with_reducible apply kept_next | with_reducible apply kept_live
    | with_reducible apply kept_ncBlock | with_reducible apply kept_ite | split | dsimp only
    | with_reducible assumption | refine kept_fst (by assumption) ?_ | refine kept_snd (by assumption) ?_
    | exact rfl | assumption

theorem kept_slipUnresolved [κ.Out .events] [κ.Out .recovery] [κ.Out .housekeeping] [κ.Out .captures] {s₀ s : State}
    {c : Nat} (h : Kept κ s₀ s) :
    Kept κ s₀ (State.slipUnresolved s c) := by
  unfold State.slipUnresolved
  repeat' first
    | intro _ | with_reducible apply kept_raise | with_reducible apply kept_bump | with_reducible apply kept_ite
    | split | dsimp only | with_reducible assumption | refine kept_fst (by assumption) ?_
    | refine kept_snd (by assumption) ?_ | exact rfl | assumption | exact (Fact.out : κ .recovery = false)

theorem kept_slipCount [κ.Out .events] [κ.Out .recovery] [κ.Out .housekeeping] [κ.Out .captures] {s₀ s : State}
    {c : Nat} {k : Slip} (h : Kept κ s₀ s) :
    Kept κ s₀ (State.slipCount s c k) := by
  unfold State.slipCount
  repeat' first
    | intro _ | with_reducible apply kept_bump | with_reducible apply kept_slipUnresolved
    | with_reducible apply kept_ite | split | dsimp only | with_reducible assumption
    | refine kept_fst (by assumption) ?_ | refine kept_snd (by assumption) ?_ | exact rfl | assumption
    | exact (Fact.out : κ .recovery = false)

theorem kept_pilotPowers [κ.Out .rxLine] {s₀ s : State} {c : Nat} {group : List RxSymbol} (h : Kept κ s₀ s) :
    Kept κ s₀ (State.pilotPowers s c group) := by
  unfold State.pilotPowers
  repeat' first
    | intro _ | with_reducible apply kept_setRx | with_reducible apply kept_ite | split | dsimp only
    | with_reducible assumption | refine kept_fst (by assumption) ?_ | refine kept_snd (by assumption) ?_
    | exact rfl | assumption

theorem kept_pilotCheck [κ.Out .memory] [κ.Out .events] [κ.Out .rxLine] [κ.Out .recovery] [κ.Out .bonding]
    [κ.Out .housekeeping] [κ.Out .captures] {s₀ s : State} {c : Nat} {instant : Nat} (h : Kept κ s₀ s) :
    Kept κ s₀ (State.pilotCheck s c instant) := by
  unfold State.pilotCheck
  repeat' first
    | intro _ | with_reducible apply kept_setRx | with_reducible apply kept_pilotPowers
    | with_reducible apply kept_emit | with_reducible apply kept_slipCount | with_reducible apply kept_setFlag
    | with_reducible apply kept_each | with_reducible apply kept_demapOne | with_reducible apply kept_ite | split
    | dsimp only | with_reducible assumption | refine kept_fst (by assumption) ?_
    | refine kept_snd (by assumption) ?_ | exact rfl | assumption | exact (Fact.out : κ .bonding = false)

theorem kept_execPilotGroupCheck [κ.Out .memory] [κ.Out .events] [κ.Out .rxLine] [κ.Out .recovery] [κ.Out .bonding]
    [κ.Out .housekeeping] [κ.Out .captures] {s₀ s : State} {c : Fin 12} {ns : Nat} {ps : Fin 1000} (h : Kept κ s₀ s) :
    KeptO κ s₀ (execPilotGroupCheck c ns ps s) := by
  unfold execPilotGroupCheck
  repeat' first
    | intro _ | with_reducible apply kept_live | with_reducible apply kept_pilotCheck
    | with_reducible apply kept_ite | split | dsimp only | with_reducible assumption
    | refine kept_fst (by assumption) ?_ | refine kept_snd (by assumption) ?_ | exact rfl | assumption

theorem kept_frequencyEval [κ.Out .events] [κ.Out .recovery] [κ.Out .housekeeping] [κ.Out .captures] {s₀ s : State}
    {c : Nat} {f : Int} (h : Kept κ s₀ s) :
    Kept κ s₀ (State.frequencyEval s c f) := by
  unfold State.frequencyEval
  repeat' first
    | intro _ | with_reducible apply kept_set | with_reducible apply kept_raise | with_reducible apply kept_ite
    | split | dsimp only | with_reducible assumption | refine kept_fst (by assumption) ?_
    | refine kept_snd (by assumption) ?_ | exact rfl | assumption | exact (Fact.out : κ .recovery = false)

theorem kept_writeNc {s₀ : State} {r : Reg} {c : Nat} {v : Int} {s : State}
    (hr : κ (Safety.part r) = false := by
      first | assumption | ((conv in Safety.part _ => whnf); exact Fact.out) | exact leaves_none _)
    (h : Kept κ s₀ s) :
    Kept κ s₀ (writeNc r c v s).1 := by
  unfold writeNc
  repeat' first
    | intro _ | with_reducible apply kept_set | with_reducible apply kept_ite
    | with_reducible apply kept_ite_fst | split | dsimp only | with_reducible assumption
    | refine kept_fst (by assumption) ?_ | refine kept_snd (by assumption) ?_ | exact rfl | assumption

theorem kept_writeNcPark [κ.Out .neighbours] {s₀ : State} {c : Nat} {v : Int} {s : State} (h : Kept κ s₀ s) :
    Kept κ s₀ (writeNcPark c v s).1 := by
  unfold writeNcPark
  repeat' first
    | intro _ | with_reducible apply kept_refreshNc | with_reducible apply kept_set
    | with_reducible apply kept_ite | with_reducible apply kept_ite_fst | split | dsimp only
    | with_reducible assumption | refine kept_fst (by assumption) ?_ | refine kept_snd (by assumption) ?_
    | exact rfl | assumption | exact (Fact.out : κ .neighbours = false)

end Sys2Proof.Laws
end

