-- ==== Sys2Proof/Laws/Kept/Receive.lean ====
section
/-! SUPPORT. Every operation of Machine/Receive.lean keeps (Laws/Kept.lean). -/

set_option Elab.async false
set_option linter.unusedTactic false
set_option linter.unreachableTactic false
set_option linter.unusedVariables false

namespace Sys2Proof.Laws

open Sys2Proof.Machine

variable {κ : Scope}

theorem kept_timingBlock [κ.Out .rxLine] [κ.Out .frontEnd] {s₀ s : State} {c : Nat} {k : PolBlock} (h : Kept κ s₀ s) :
    Kept κ s₀ (State.timingBlock s c k) := by
  unfold State.timingBlock
  repeat' first
    | intro _ | with_reducible apply kept_setRx | with_reducible apply kept_set | with_reducible apply kept_ite
    | split | dsimp only | with_reducible assumption | refine kept_fst (by assumption) ?_
    | refine kept_snd (by assumption) ?_ | exact rfl | assumption | exact (Fact.out : κ .frontEnd = false)

theorem kept_polAdapt [κ.Out .equaliser] {s₀ s : State} {c : Nat} {changes : List Int} (h : Kept κ s₀ s) :
    Kept κ s₀ (State.polAdapt s c changes) := by
  unfold State.polAdapt
  repeat' first
    | intro _ | with_reducible apply kept_setBlob | with_reducible apply kept_ite | split | dsimp only
    | with_reducible assumption | with_reducible apply kept_polQueue | refine kept_fst (by assumption) ?_
    | refine kept_snd (by assumption) ?_ | exact rfl | assumption | exact (Fact.out : κ .equaliser = false)

theorem kept_polBlock [κ.Out .memory] [κ.Out .rxLine] [κ.Out .frontEnd] [κ.Out .equaliser] [κ.Out .captures]
    {s₀ s : State} {c : Nat} {k : PolBlock} (h : Kept κ s₀ s) :
    Kept κ s₀ (State.polBlock s c k) := by
  unfold State.polBlock
  repeat' first
    | intro _ | with_reducible apply kept_setRx | with_reducible apply kept_capturePut
    | with_reducible apply kept_step | with_reducible apply kept_polAdapt | with_reducible apply kept_timingBlock
    | with_reducible apply kept_set | with_reducible apply kept_setBit | with_reducible apply kept_refreshRx
    | with_reducible apply kept_ite | split | dsimp only | with_reducible assumption
    | refine kept_fst (by assumption) ?_ | refine kept_snd (by assumption) ?_ | exact rfl | assumption
    | exact (Fact.out : κ .equaliser = false)

theorem kept_execPolAdaptBlock [κ.Out .memory] [κ.Out .rxLine] [κ.Out .frontEnd] [κ.Out .equaliser] [κ.Out .captures]
    {s₀ : State} {c : Fin 12} {k : PolBlock} {s : State}
    (h : Kept κ s₀ s) :
    KeptO κ s₀ (execPolAdaptBlock c k s) := by
  unfold execPolAdaptBlock
  repeat' first
    | intro _ | with_reducible apply kept_next | with_reducible apply kept_live
    | with_reducible apply kept_polBlock | with_reducible apply kept_ite | split | dsimp only
    | with_reducible assumption | refine kept_fst (by assumption) ?_ | refine kept_snd (by assumption) ?_
    | exact rfl | assumption

theorem kept_polReinit [κ.Out .events] [κ.Out .equaliser] [κ.Out .housekeeping] [κ.Out .captures] {s₀ s : State}
    {c : Nat} {same : Bool} (h : Kept κ s₀ s) :
    Kept κ s₀ (State.polReinit s c same) := by
  unfold State.polReinit
  repeat' first
    | intro _ | with_reducible apply kept_set | with_reducible apply kept_raise | with_reducible apply kept_bump
    | with_reducible apply kept_setBlob | with_reducible apply kept_ite | split | dsimp only
    | with_reducible assumption | refine kept_fst (by assumption) ?_ | refine kept_snd (by assumption) ?_
    | exact rfl | assumption | exact (Fact.out : κ .equaliser = false)

theorem kept_polCentre [κ.Out .rxLine] [κ.Out .equaliser] {s₀ s : State} {c : Nat} (h : Kept κ s₀ s) :
    Kept κ s₀ (State.polCentre s c) := by
  unfold State.polCentre
  repeat' first
    | intro _ | with_reducible apply kept_setBlob | with_reducible apply kept_setRx | with_reducible apply kept_ite
    | split | dsimp only | with_reducible assumption | refine kept_fst (by assumption) ?_
    | refine kept_snd (by assumption) ?_ | exact rfl | assumption | exact (Fact.out : κ .equaliser = false)

theorem kept_timingEval [κ.Out .events] [κ.Out .frontEnd] [κ.Out .housekeeping] [κ.Out .captures] {s₀ s : State}
    {c : Nat} {err : Int} (h : Kept κ s₀ s) :
    Kept κ s₀ (State.timingEval s c err) := by
  unfold State.timingEval
  repeat' first
    | intro _ | with_reducible apply kept_set | with_reducible apply kept_bump | with_reducible apply kept_raise
    | with_reducible apply kept_ite | split | dsimp only | with_reducible assumption
    | refine kept_fst (by assumption) ?_ | refine kept_snd (by assumption) ?_ | exact rfl | assumption
    | exact (Fact.out : κ .frontEnd = false)

theorem kept_frontEnd [κ.Out .frontEnd] {s₀ s : State} {c : Nat} {e : Vector Int 4} (h : Kept κ s₀ s) :
    Kept κ s₀ (State.frontEnd s c e) := by
  unfold State.frontEnd
  repeat' first
    | intro _ | with_reducible apply kept_each | with_reducible apply kept_set | with_reducible apply kept_ite
    | split | dsimp only | with_reducible assumption | refine kept_fst (by assumption) ?_
    | refine kept_snd (by assumption) ?_ | exact rfl | assumption | exact (Fact.out : κ .frontEnd = false)

theorem kept_writeFrontEnd [κ.Out .settings] [κ.Out .equaliser] {s₀ s : State} {c : Nat} {v : Int} (h : Kept κ s₀ s) :
    Kept κ s₀ (writeFrontEnd c v s).1 := by
  unfold writeFrontEnd
  repeat' first
    | intro _ | with_reducible apply kept_set | with_reducible apply kept_refreshRx | with_reducible apply kept_ite
    | with_reducible apply kept_ite_fst | split | dsimp only | with_reducible assumption
    | refine kept_fst (by assumption) ?_ | refine kept_snd (by assumption) ?_ | exact rfl | assumption
    | exact (Fact.out : κ .settings = false)

theorem kept_monitorTake [κ.Out .events] [κ.Out .monitors] [κ.Out .housekeeping] [κ.Out .captures] {s₀ s : State}
    {q : Nat} {c : Nat} {r : Int} (h : Kept κ s₀ s) :
    Kept κ s₀ (State.monitorTake s q c r) := by
  unfold State.monitorTake
  repeat' first
    | intro _ | with_reducible apply kept_monitorLevel | with_reducible apply kept_set
    | with_reducible apply kept_ite | split | dsimp only | with_reducible assumption
    | refine kept_fst (by assumption) ?_ | refine kept_snd (by assumption) ?_ | exact rfl | assumption
    | exact (Fact.out : κ .monitors = false)

theorem kept_trackEval [κ.Out .banks] [κ.Out .dispersion] {s₀ s : State} {c : Nat} (h : Kept κ s₀ s) :
    Kept κ s₀ (State.trackEval s c) := by
  unfold State.trackEval
  repeat' first
    | intro _ | with_reducible apply kept_set | with_reducible apply kept_trackStart
    | with_reducible apply kept_ite | split | dsimp only | with_reducible assumption
    | refine kept_fst (by assumption) ?_ | refine kept_snd (by assumption) ?_ | exact rfl | assumption
    | exact (Fact.out : κ .dispersion = false)

theorem kept_monitors [κ.Out .events] [κ.Out .banks] [κ.Out .dispersion] [κ.Out .monitors] [κ.Out .housekeeping]
    [κ.Out .captures] {s₀ s : State} {c : Nat} {second : Bool} {m : FrameReading} (h : Kept κ s₀ s) :
    Kept κ s₀ (State.monitors s c second m) := by
  unfold State.monitors
  repeat' first
    | intro _ | with_reducible apply kept_set | with_reducible apply kept_each
    | with_reducible apply kept_monitorTake | with_reducible apply kept_trackEval | with_reducible apply kept_ite
    | split | dsimp only | with_reducible assumption | refine kept_fst (by assumption) ?_
    | refine kept_snd (by assumption) ?_ | exact rfl | assumption | exact (Fact.out : κ .dispersion = false)

theorem kept_frameSettings [κ.Out .equaliser] [κ.Out .recovery] [κ.Out .catching] {s₀ s : State} {c : Nat}
    (h : Kept κ s₀ s) :
    Kept κ s₀ (State.frameSettings s c) := by
  unfold State.frameSettings
  repeat' first
    | intro _ | with_reducible apply kept_each | with_reducible apply kept_setBit | with_reducible apply kept_set
    | with_reducible apply kept_catchSettings | with_reducible apply kept_ite | split | dsimp only
    | with_reducible assumption | refine kept_fst (by assumption) ?_ | refine kept_snd (by assumption) ?_
    | exact rfl | assumption | exact (Fact.out : κ .equaliser = false) | exact (Fact.out : κ .recovery = false)

theorem kept_lofEval [κ.Out .defects] {s₀ s : State} {c : Nat} {metric : Int} {erased : Bool} (h : Kept κ s₀ s) :
    Kept κ s₀ (State.lofEval s c metric erased) := by
  unfold State.lofEval
  repeat' first
    | intro _ | with_reducible apply kept_set | with_reducible apply kept_setRaw | with_reducible apply kept_ite
    | split | dsimp only | with_reducible assumption | refine kept_fst (by assumption) ?_
    | refine kept_snd (by assumption) ?_ | exact rfl | assumption | exact (Fact.out : κ .defects = false)

theorem kept_frameDefects [κ.Out .defects] {s₀ s : State} {c : Nat} {metric : Int} {erased : Bool} (h : Kept κ s₀ s) :
    Kept κ s₀ (State.frameDefects s c metric erased) := by
  unfold State.frameDefects
  repeat' first
    | intro _ | with_reducible apply kept_setRaw | with_reducible apply kept_lofEval
    | with_reducible apply kept_ite | split | dsimp only | with_reducible assumption
    | refine kept_fst (by assumption) ?_ | refine kept_snd (by assumption) ?_ | exact rfl | assumption

theorem kept_frameMeasure [κ.Out .events] [κ.Out .carriers] [κ.Out .rxLine] [κ.Out .clocks] [κ.Out .converters]
    [κ.Out .calibration] [κ.Out .banks] [κ.Out .dispersion] [κ.Out .frontEnd] [κ.Out .equaliser] [κ.Out .monitors]
    [κ.Out .recovery] [κ.Out .catching] [κ.Out .coding] [κ.Out .defects] [κ.Out .overhead] [κ.Out .pages]
    [κ.Out .bonding] [κ.Out .housekeeping] [κ.Out .captures] {s₀ s : State} {c : Nat} {second : Bool}
    {m : FrameReading} (h : Kept κ s₀ s) :
    Kept κ s₀ (State.frameMeasure s c second m) := by
  unfold State.frameMeasure
  repeat' first
    | intro _ | with_reducible apply kept_frontEnd | with_reducible apply kept_timingEval
    | with_reducible apply kept_refreshRx | with_reducible apply kept_monitors
    | with_reducible apply kept_polReinit | with_reducible apply kept_polCentre
    | with_reducible apply kept_frequencyEval | with_reducible apply kept_confirmEval
    | with_reducible apply kept_ite | split | dsimp only | with_reducible assumption
    | refine kept_fst (by assumption) ?_ | refine kept_snd (by assumption) ?_ | exact rfl | assumption

theorem kept_frameStart [κ.Out .events] [κ.Out .carriers] [κ.Out .rxLine] [κ.Out .clocks] [κ.Out .converters]
    [κ.Out .calibration] [κ.Out .banks] [κ.Out .dispersion] [κ.Out .frontEnd] [κ.Out .equaliser] [κ.Out .monitors]
    [κ.Out .neighbours] [κ.Out .recovery] [κ.Out .catching] [κ.Out .coding] [κ.Out .defects] [κ.Out .overhead]
    [κ.Out .pages] [κ.Out .bonding] [κ.Out .housekeeping] [κ.Out .captures] {s₀ s : State} {c : Nat}
    {m : FrameReading} (h : Kept κ s₀ s) :
    Kept κ s₀ (State.frameStart s c m) := by
  unfold State.frameStart
  repeat' first
    | intro _ | with_reducible apply kept_sideEval | with_reducible apply kept_setBlob
    | with_reducible apply kept_frameMeasure | with_reducible apply kept_frameDefects
    | with_reducible apply kept_frameSettings | with_reducible apply kept_refreshRx | with_reducible apply kept_ite
    | split | dsimp only | with_reducible assumption | refine kept_fst (by assumption) ?_
    | refine kept_snd (by assumption) ?_ | exact rfl | assumption | exact (Fact.out : κ .equaliser = false)

theorem kept_execRxFrameStart [κ.Out .events] [κ.Out .carriers] [κ.Out .rxLine] [κ.Out .clocks] [κ.Out .converters]
    [κ.Out .calibration] [κ.Out .banks] [κ.Out .dispersion] [κ.Out .frontEnd] [κ.Out .equaliser] [κ.Out .monitors]
    [κ.Out .neighbours] [κ.Out .recovery] [κ.Out .catching] [κ.Out .coding] [κ.Out .defects] [κ.Out .overhead]
    [κ.Out .pages] [κ.Out .bonding] [κ.Out .housekeeping] [κ.Out .captures]
    {s₀ : State} {c : Fin 12}
    {m : FrameReading} {s : State} (h : Kept κ s₀ s) :
    KeptO κ s₀ (execRxFrameStart c m s) := by
  unfold execRxFrameStart
  repeat' first
    | intro _ | with_reducible apply kept_next | with_reducible apply kept_live
    | with_reducible apply kept_frameStart | with_reducible apply kept_ite | split | dsimp only
    | with_reducible assumption | refine kept_fst (by assumption) ?_ | refine kept_snd (by assumption) ?_
    | exact rfl | assumption

theorem kept_writeMonitor [κ.Out .events] [κ.Out .monitors] [κ.Out .housekeeping] [κ.Out .captures] {s₀ s : State}
    {r : Reg} {i : Nat} {v : Int} (h : Kept κ s₀ s)
    (hr : κ (Safety.part r) = false := by first | assumption | ((conv in Safety.part _ => whnf); exact Fact.out) | exact leaves_none _) :
    Kept κ s₀ (writeMonitor r i v s).1 := by
  unfold writeMonitor
  repeat' first
    | intro _ | with_reducible apply kept_set | with_reducible apply kept_monitorLevel
    | with_reducible apply kept_ite | with_reducible apply kept_ite_fst | split | dsimp only
    | with_reducible assumption | refine kept_fst (by assumption) ?_ | refine kept_snd (by assumption) ?_
    | exact rfl | assumption

end Sys2Proof.Laws
end

