-- ==== Sys2Proof/Laws/Kept/Slack.lean ====
section
/-! SUPPORT. Every operation of Machine/Slack.lean keeps (Laws/Kept.lean). -/

set_option Elab.async false
set_option linter.unusedTactic false
set_option linter.unreachableTactic false
set_option linter.unusedVariables false

namespace Sys2Proof.Laws

open Sys2Proof.Machine

variable {κ : Scope}

theorem kept_writeGap [κ.Out .slack] {s₀ s : State} {c : Nat} (h : Kept κ s₀ s) :
    Kept κ s₀ (State.writeGap s c) := by
  unfold State.writeGap
  repeat' first
    | intro _ | with_reducible apply kept_set | with_reducible apply kept_setSlack
    | with_reducible apply kept_ite | split | dsimp only | with_reducible assumption
    | refine kept_fst (by assumption) ?_ | refine kept_snd (by assumption) ?_ | exact rfl | assumption
    | exact (Fact.out : κ .slack = false)

theorem kept_countClips [κ.Out .converters] {s₀ s : State} {c : Nat} {codes : Stroke} (h : Kept κ s₀ s) :
    Kept κ s₀ (State.countClips s c codes) := by
  unfold State.countClips
  repeat' first
    | intro _ | with_reducible apply kept_each | with_reducible apply kept_bump | with_reducible apply kept_ite
    | split | dsimp only | with_reducible assumption | refine kept_fst (by assumption) ?_
    | refine kept_snd (by assumption) ?_ | exact rfl | assumption | exact (Fact.out : κ .converters = false)

theorem kept_agcTake [κ.Out .converters] {s₀ s : State} {c : Nat} {erased : Bool} {codes : Stroke} (h : Kept κ s₀ s) :
    Kept κ s₀ (State.agcTake s c erased codes) := by
  unfold State.agcTake
  repeat' first
    | intro _ | with_reducible apply kept_set | with_reducible apply kept_when | with_reducible apply kept_each
    | with_reducible apply kept_ite | split | dsimp only | with_reducible assumption
    | refine kept_fst (by assumption) ?_ | refine kept_snd (by assumption) ?_ | exact rfl | assumption
    | exact (Fact.out : κ .converters = false)

theorem kept_rxArrival [κ.Out .events] [κ.Out .slack] [κ.Out .clocks] [κ.Out .converters] [κ.Out .defects]
    [κ.Out .housekeeping] [κ.Out .captures] {s₀ s : State} {c : Nat} {codes : Stroke} (h : Kept κ s₀ s) :
    Kept κ s₀ (State.rxArrival s c codes) := by
  unfold State.rxArrival
  repeat' first
    | intro _ | with_reducible apply kept_countClips | with_reducible apply kept_agcWindow
    | with_reducible apply kept_gainApply | with_reducible apply kept_when | with_reducible apply kept_set
    | with_reducible apply kept_bump | with_reducible apply kept_agcTake | with_reducible apply kept_enterHeld
    | with_reducible apply kept_writeGap | with_reducible apply kept_setSlack | with_reducible apply kept_peak
    | with_reducible apply kept_ite | split | dsimp only | with_reducible assumption
    | refine kept_fst (by assumption) ?_ | refine kept_snd (by assumption) ?_ | exact rfl | assumption
    | exact (Fact.out : κ .slack = false) | exact (Fact.out : κ .clocks = false)
    | exact (Fact.out : κ .converters = false)

theorem kept_execRxStrokeArrival [κ.Out .events] [κ.Out .slack] [κ.Out .clocks] [κ.Out .converters] [κ.Out .defects]
    [κ.Out .housekeeping] [κ.Out .captures] {s₀ s : State} {c : Fin 12} {codes : List (List Int)} (h : Kept κ s₀ s) :
    KeptO κ s₀ (execRxStrokeArrival c codes s) := by
  unfold execRxStrokeArrival
  repeat' first
    | intro _ | with_reducible apply kept_live | with_reducible apply kept_rxArrival
    | with_reducible apply kept_ite | split | dsimp only | with_reducible assumption
    | refine kept_fst (by assumption) ?_ | refine kept_snd (by assumption) ?_ | exact rfl | assumption

theorem kept_txPeriod [κ.Out .events] [κ.Out .slack] [κ.Out .housekeeping] [κ.Out .captures] {s₀ s : State} {c : Nat}
    (h : Kept κ s₀ s) :
    Kept κ s₀ (State.txPeriod s c) := by
  unfold State.txPeriod
  repeat' first
    | intro _ | with_reducible apply kept_bump | with_reducible apply kept_set | with_reducible apply kept_emit
    | with_reducible apply kept_enterHeld | with_reducible apply kept_setStrokes | with_reducible apply kept_trough
    | with_reducible apply kept_ite | split | dsimp only | with_reducible assumption
    | refine kept_fst (by assumption) ?_ | refine kept_snd (by assumption) ?_ | exact rfl | assumption
    | exact (Fact.out : κ .slack = false)

theorem kept_execTxStrokePeriod [κ.Out .events] [κ.Out .slack] [κ.Out .housekeeping] [κ.Out .captures] {s₀ : State}
    {c : Fin 12} {s : State} (h : Kept κ s₀ s) :
    KeptO κ s₀ (execTxStrokePeriod c s) := by
  unfold execTxStrokePeriod
  repeat' first
    | intro _ | with_reducible apply kept_next | with_reducible apply kept_live
    | with_reducible apply kept_txPeriod | with_reducible apply kept_ite | split | dsimp only
    | with_reducible assumption | refine kept_fst (by assumption) ?_ | refine kept_snd (by assumption) ?_
    | exact rfl | assumption

theorem kept_execGapMarkerWrite [κ.Out .slack] {s₀ : State} {c : Fin 12} {s : State} (h : Kept κ s₀ s) :
    KeptO κ s₀ (execGapMarkerWrite c s) := by
  unfold execGapMarkerWrite
  repeat' first
    | intro _ | with_reducible apply kept_next | with_reducible apply kept_live
    | with_reducible apply kept_writeGap | with_reducible apply kept_ite | split | dsimp only
    | with_reducible assumption | refine kept_fst (by assumption) ?_ | refine kept_snd (by assumption) ?_
    | exact rfl | assumption

theorem kept_eraseSymbols [κ.Out .dispersion] [κ.Out .equaliser] {s₀ s : State} {c : Nat} {n : Nat} (h : Kept κ s₀ s) :
    Kept κ s₀ (State.eraseSymbols s c n) := by
  unfold State.eraseSymbols
  repeat' first
    | intro _ | with_reducible apply kept_bump | with_reducible apply kept_set | with_reducible apply kept_ite
    | split | dsimp only | with_reducible assumption | refine kept_fst (by assumption) ?_
    | refine kept_snd (by assumption) ?_ | exact rfl | assumption | exact (Fact.out : κ .dispersion = false)
    | exact (Fact.out : κ .equaliser = false)

theorem kept_fadePass [κ.Out .banks] {s₀ s : State} {b : Nat} {n : Nat} (h : Kept κ s₀ s) :
    Kept κ s₀ (State.fadePass s b n) := by
  unfold State.fadePass
  repeat' first
    | intro _ | with_reducible apply kept_set | with_reducible apply kept_ite | split | dsimp only
    | with_reducible assumption | refine kept_fst (by assumption) ?_ | refine kept_snd (by assumption) ?_
    | exact rfl | assumption | exact (Fact.out : κ .banks = false)

theorem kept_passStroke [κ.Out .memory] [κ.Out .rxLine] [κ.Out .banks] [κ.Out .captures] {s₀ s : State} {c : Nat}
    {erased : Bool} {codes : Stroke} (h : Kept κ s₀ s) :
    Kept κ s₀ (State.passStroke s c erased codes) := by
  unfold State.passStroke
  repeat' first
    | intro _ | with_reducible apply kept_setRx | with_reducible apply kept_captureBegin
    | with_reducible apply kept_capturePut | with_reducible apply kept_fadePass | with_reducible apply kept_ite
    | split | dsimp only | with_reducible assumption | refine kept_fst (by assumption) ?_
    | refine kept_snd (by assumption) ?_ | exact rfl | assumption

theorem kept_coreTake [κ.Out .memory] [κ.Out .events] [κ.Out .slack] [κ.Out .rxLine] [κ.Out .banks]
    [κ.Out .dispersion] [κ.Out .equaliser] [κ.Out .housekeeping] [κ.Out .captures] {s₀ s : State} {c : Nat}
    {symbols : Nat} (h : Kept κ s₀ s) :
    Kept κ s₀ (State.coreTake s c symbols) := by
  unfold State.coreTake
  repeat' first
    | intro _ | with_reducible apply kept_set | with_reducible apply kept_setSlack | with_reducible apply kept_bump
    | with_reducible apply kept_passStroke | with_reducible apply kept_eraseSymbols
    | with_reducible apply kept_settleHeld | with_reducible apply kept_ite | split | dsimp only
    | with_reducible assumption | refine kept_fst (by assumption) ?_ | refine kept_snd (by assumption) ?_
    | exact rfl | assumption | exact (Fact.out : κ .slack = false)

theorem kept_execCoreStrokeRelease [κ.Out .memory] [κ.Out .events] [κ.Out .slack] [κ.Out .rxLine] [κ.Out .banks]
    [κ.Out .dispersion] [κ.Out .equaliser] [κ.Out .housekeeping] [κ.Out .captures] {s₀ s : State} {c : Fin 12}
    {first : Nat} {next : Nat} (h : Kept κ s₀ s) :
    KeptO κ s₀ (execCoreStrokeRelease c first next s) := by
  unfold execCoreStrokeRelease
  repeat' first
    | intro _ | with_reducible apply kept_live | with_reducible apply kept_coreTake
    | with_reducible apply kept_next | with_reducible apply kept_ite | split | dsimp only
    | with_reducible assumption | refine kept_fst (by assumption) ?_ | refine kept_snd (by assumption) ?_
    | exact rfl | assumption

theorem kept_makeStroke [κ.Out .txLine] [κ.Out .banks] {s₀ s : State} {c : Nat} {msa : List Cx2} (h : Kept κ s₀ s) :
    Kept κ s₀ (State.makeStroke s c msa).1 := by
  unfold State.makeStroke
  extract_lets x1 x2 x3 x4 x5
  have k4 : Kept κ s₀ x4 := by
    unfold x4
    repeat' first
      | intro _ | with_reducible apply kept_setTx | with_reducible apply kept_bump | with_reducible apply kept_set
      | with_reducible apply kept_ite | with_reducible apply kept_ite_fst | split | dsimp only
      | with_reducible assumption | with_reducible apply kept_free | refine kept_fst (by assumption) ?_
      | refine kept_snd (by assumption) ?_ | exact rfl | assumption | exact (Fact.out : κ .banks = false)
  clear_value x4
  have k5 : Kept κ s₀ x5 := by
    unfold x5
    repeat' first
      | intro _ | with_reducible apply kept_setTx | with_reducible apply kept_bump | with_reducible apply kept_set
      | with_reducible apply kept_ite | with_reducible apply kept_ite_fst | split | dsimp only
      | with_reducible assumption | with_reducible apply kept_free | refine kept_fst (by assumption) ?_
      | refine kept_snd (by assumption) ?_ | exact rfl | assumption | exact (Fact.out : κ .banks = false)
  clear_value x5
  repeat' first
    | intro _ | with_reducible apply kept_setTx | with_reducible apply kept_bump | with_reducible apply kept_set
    | with_reducible apply kept_ite | with_reducible apply kept_ite_fst | split | dsimp only
    | with_reducible assumption | with_reducible apply kept_free | refine kept_fst (by assumption) ?_
    | refine kept_snd (by assumption) ?_ | exact rfl | assumption | exact (Fact.out : κ .banks = false)

theorem kept_coreGive [κ.Out .events] [κ.Out .slack] [κ.Out .txLine] [κ.Out .banks] [κ.Out .tributaries]
    [κ.Out .housekeeping] [κ.Out .custody] [κ.Out .captures] {s₀ s : State} {c : Nat} {msa : List Cx2}
    {reads : List (Nat × TileRead)} (h : Kept κ s₀ s) :
    Kept κ s₀ (State.coreGive s c msa reads) := by
  unfold State.coreGive
  repeat' first
    | intro _ | with_reducible apply kept_each | with_reducible apply kept_markTx
    | with_reducible apply kept_makeStroke | with_reducible apply kept_encoderCount
    | with_reducible apply kept_fadePass | with_reducible apply kept_setStrokes | with_reducible apply kept_set
    | with_reducible apply kept_settleHeld | with_reducible apply kept_ite | split | dsimp only
    | with_reducible assumption | refine kept_fst (by assumption) ?_ | refine kept_snd (by assumption) ?_
    | exact rfl | assumption | exact (Fact.out : κ .slack = false)

theorem kept_execCoreStrokeAccept [κ.Out .events] [κ.Out .slack] [κ.Out .txLine] [κ.Out .banks] [κ.Out .tributaries]
    [κ.Out .housekeeping] [κ.Out .custody] [κ.Out .captures] {s₀ s : State} {c : Fin 12} {msaX : List (Int × Int)}
    {msaY : List (Int × Int)} {reads : List (Nat × TileRead)} (h : Kept κ s₀ s) :
    KeptO κ s₀ (execCoreStrokeAccept c msaX msaY reads s) := by
  unfold execCoreStrokeAccept
  repeat' first
    | intro _ | with_reducible apply kept_live | with_reducible apply kept_coreGive | with_reducible apply kept_ite
    | split | dsimp only | with_reducible assumption | refine kept_fst (by assumption) ?_
    | refine kept_snd (by assumption) ?_ | exact rfl | assumption

theorem kept_gapReached [κ.Out .memory] [κ.Out .events] [κ.Out .slack] [κ.Out .rxLine] [κ.Out .banks]
    [κ.Out .dispersion] [κ.Out .equaliser] [κ.Out .monitors] [κ.Out .housekeeping] [κ.Out .captures] {s₀ s : State}
    {c : Nat} {symbols : Nat} (h : Kept κ s₀ s) :
    Kept κ s₀ (State.gapReached s c symbols) := by
  unfold State.gapReached
  repeat' first
    | intro _ | with_reducible apply kept_setSlack | with_reducible apply kept_bump
    | with_reducible apply kept_each | with_reducible apply kept_passStroke
    | with_reducible apply kept_eraseSymbols | with_reducible apply kept_set | with_reducible apply kept_setRx
    | with_reducible apply kept_bankFinish | with_reducible apply kept_trackDone
    | with_reducible apply kept_refreshRx | with_reducible apply kept_ite | split | dsimp only
    | with_reducible assumption | with_reducible apply kept_polQueue | refine kept_fst (by assumption) ?_
    | refine kept_snd (by assumption) ?_ | exact rfl | assumption | exact (Fact.out : κ .slack = false)
    | exact (Fact.out : κ .dispersion = false) | exact (Fact.out : κ .equaliser = false)

theorem kept_execGapMarkerReached [κ.Out .memory] [κ.Out .events] [κ.Out .slack] [κ.Out .rxLine] [κ.Out .banks]
    [κ.Out .dispersion] [κ.Out .equaliser] [κ.Out .monitors] [κ.Out .housekeeping] [κ.Out .captures]
    {s₀ : State} {c : Fin 12} {symbols : Nat} {s : State} (h : Kept κ s₀ s) :
    KeptO κ s₀ (execGapMarkerReached c symbols s) := by
  unfold execGapMarkerReached
  repeat' first
    | intro _ | with_reducible apply kept_next | with_reducible apply kept_live
    | with_reducible apply kept_gapReached | with_reducible apply kept_ite | split | dsimp only
    | with_reducible assumption | refine kept_fst (by assumption) ?_ | refine kept_snd (by assumption) ?_
    | exact rfl | assumption

theorem kept_resetSlackMark [κ.Out .slack] {s₀ s : State} {r : Reg} {c : Nat} (h : Kept κ s₀ s)
    (hr : κ (Safety.part r) = false := by
      first | assumption | ((conv in Safety.part _ => whnf); exact Fact.out) | exact leaves_none _)
    :
    Kept κ s₀ (State.resetSlackMark s r c) := by
  unfold State.resetSlackMark
  repeat' first
    | intro _ | with_reducible apply kept_set | with_reducible apply kept_ite | split | dsimp only
    | with_reducible assumption | refine kept_fst (by assumption) ?_ | refine kept_snd (by assumption) ?_
    | exact rfl | assumption | exact (Fact.out : κ .slack = false)

end Sys2Proof.Laws
end

