-- ==== Sys2Proof/Laws/Kept/CodingCmds.lean ====
section
/-! SUPPORT. Every operation of Machine/CodingCmds.lean keeps (Laws/Kept.lean). -/

set_option Elab.async false
set_option linter.unusedTactic false
set_option linter.unreachableTactic false
set_option linter.unusedVariables false

namespace Sys2Proof.Laws

open Sys2Proof.Machine

variable {κ : Scope}

theorem kept_ladderOut [κ.Out .rxLine] [κ.Out .coding] {s₀ s : State} {c : Nat} {rung : List (List Bool)}
    (h : Kept κ s₀ s) :
    Kept κ s₀ (State.ladderOut s c rung) := by
  unfold State.ladderOut
  repeat' first
    | intro _ | with_reducible apply kept_setRx | with_reducible apply kept_bump | with_reducible apply kept_ite
    | split | dsimp only | with_reducible assumption | refine kept_fst (by assumption) ?_
    | refine kept_snd (by assumption) ?_ | exact rfl | assumption | exact (Fact.out : κ .coding = false)

theorem kept_outerDecode [κ.Out .rxLine] [κ.Out .coding] {s₀ s : State} {c : Nat} {info : List Bool}
    {rung : List (List Bool)} (h : Kept κ s₀ s) :
    Kept κ s₀ (State.outerDecode s c info rung) := by
  unfold State.outerDecode
  repeat' first
    | intro _ | with_reducible apply kept_setRx | with_reducible apply kept_ladderOut
    | with_reducible apply kept_ite | split | dsimp only | with_reducible assumption
    | refine kept_fst (by assumption) ?_ | refine kept_snd (by assumption) ?_ | exact rfl | assumption

theorem kept_matcherOut [κ.Out .rxLine] [κ.Out .coding] {s₀ s : State} {c : Nat} {counted : Bool} (h : Kept κ s₀ s) :
    Kept κ s₀ (State.matcherOut s c counted) := by
  unfold State.matcherOut
  repeat' first
    | intro _ | with_reducible apply kept_setRx | with_reducible apply kept_bump | with_reducible apply kept_ite
    | split | dsimp only | with_reducible assumption | refine kept_fst (by assumption) ?_
    | refine kept_snd (by assumption) ?_ | exact rfl | assumption | exact (Fact.out : κ .coding = false)

theorem kept_decodeCompatible [κ.Out .coding] {s₀ s : State} {c : Nat} {ok : Bool} {m : CodewordReading}
    (h : Kept κ s₀ s) :
    Kept κ s₀ (State.decodeCompatible s c ok m) := by
  unfold State.decodeCompatible
  extract_lets x1 x2
  have k1 : Kept κ s₀ x1 := by
    unfold x1
    repeat' first
      | intro _ | with_reducible apply kept_bump | with_reducible apply kept_ite | split | dsimp only
      | with_reducible assumption | refine kept_fst (by assumption) ?_ | refine kept_snd (by assumption) ?_
      | exact rfl | assumption | exact (Fact.out : κ .coding = false)
  clear_value x1
  have k2 : Kept κ s₀ x2 := by
    unfold x2
    repeat' first
      | intro _ | with_reducible apply kept_bump | with_reducible apply kept_ite | split | dsimp only
      | with_reducible assumption | refine kept_fst (by assumption) ?_ | refine kept_snd (by assumption) ?_
      | exact rfl | assumption | exact (Fact.out : κ .coding = false)
  clear_value x2
  repeat' first
    | intro _ | with_reducible apply kept_bump | with_reducible apply kept_ite | split | dsimp only
    | with_reducible assumption | refine kept_fst (by assumption) ?_ | refine kept_snd (by assumption) ?_
    | exact rfl | assumption | exact (Fact.out : κ .coding = false)

theorem kept_decodeOne [κ.Out .rxLine] [κ.Out .coding] {s₀ s : State} {c : Nat} {m : CodewordReading}
    (h : Kept κ s₀ s) :
    Kept κ s₀ (State.decodeOne s c m) := by
  unfold State.decodeOne
  repeat' first
    | intro _ | with_reducible apply kept_decodeCompatible | with_reducible apply kept_setRx
    | with_reducible apply kept_bump | with_reducible apply kept_when | with_reducible apply kept_outerDecode
    | with_reducible apply kept_matcherOut | with_reducible apply kept_ite | split | dsimp only
    | with_reducible assumption | refine kept_fst (by assumption) ?_ | refine kept_snd (by assumption) ?_
    | exact rfl | assumption | exact (Fact.out : κ .coding = false)

theorem kept_execCodewordDecode [κ.Out .rxLine] [κ.Out .coding]
    {s₀ : State} {c : Fin 12} {m : CodewordReading} {s : State}
    (h : Kept κ s₀ s) :
    KeptO κ s₀ (execCodewordDecode c m s) := by
  unfold execCodewordDecode
  repeat' first
    | intro _ | with_reducible apply kept_next | with_reducible apply kept_live
    | with_reducible apply kept_decodeOne | with_reducible apply kept_ite | split | dsimp only
    | with_reducible assumption | refine kept_fst (by assumption) ?_ | refine kept_snd (by assumption) ?_
    | exact rfl | assumption

theorem kept_codingSecond [κ.Out .events] [κ.Out .coding] [κ.Out .housekeeping] [κ.Out .captures] {s₀ s : State}
    {c : Nat} (h : Kept κ s₀ s) :
    Kept κ s₀ (State.codingSecond s c) := by
  unfold State.codingSecond
  extract_lets x1 x2 x3 x4 x5 x6 x7 x8 x9
  have k8 : Kept κ s₀ x8 := by
    unfold x8
    repeat' first
      | intro _ | with_reducible apply kept_set | with_reducible apply kept_raise | with_reducible apply kept_ite
      | split | dsimp only | with_reducible assumption | refine kept_fst (by assumption) ?_
      | refine kept_snd (by assumption) ?_ | exact rfl | assumption | exact (Fact.out : κ .coding = false)
  clear_value x8
  have k9 : Kept κ s₀ x9 := by
    unfold x9
    repeat' first
      | intro _ | with_reducible apply kept_set | with_reducible apply kept_raise | with_reducible apply kept_ite
      | split | dsimp only | with_reducible assumption | refine kept_fst (by assumption) ?_
      | refine kept_snd (by assumption) ?_ | exact rfl | assumption | exact (Fact.out : κ .coding = false)
  clear_value x9
  repeat' first
    | intro _ | with_reducible apply kept_set | with_reducible apply kept_raise | with_reducible apply kept_ite
    | split | dsimp only | with_reducible assumption | refine kept_fst (by assumption) ?_
    | refine kept_snd (by assumption) ?_ | exact rfl | assumption | exact (Fact.out : κ .coding = false)

theorem kept_writeFec [κ.Out .dispersion] {s₀ : State} {r : Reg} {c : Nat} {v : Int} {s : State}
    (hr : κ (Safety.part r) = false := by
      first | assumption | ((conv in Safety.part _ => whnf); exact Fact.out) | exact leaves_none _)
    (h : Kept κ s₀ s) :
    Kept κ s₀ (writeFec r c v s).1 := by
  unfold writeFec
  repeat' first
    | intro _ | with_reducible apply kept_set | with_reducible apply kept_refreshReach
    | with_reducible apply kept_ite | with_reducible apply kept_ite_fst | split | dsimp only
    | with_reducible assumption | refine kept_fst (by assumption) ?_ | refine kept_snd (by assumption) ?_
    | exact rfl | assumption

theorem kept_writeCap [κ.Out .coding] {s₀ : State} {c : Nat} {v : Int} {s : State} (h : Kept κ s₀ s) :
    Kept κ s₀ (writeCap c v s).1 := by
  unfold writeCap
  repeat' first
    | intro _ | with_reducible apply kept_refreshCap | with_reducible apply kept_set
    | with_reducible apply kept_ite | with_reducible apply kept_ite_fst | split | dsimp only
    | with_reducible assumption | refine kept_fst (by assumption) ?_ | refine kept_snd (by assumption) ?_
    | exact rfl | assumption | exact (Fact.out : κ .coding = false)

end Sys2Proof.Laws
end

