-- ==== Sys2Proof/Laws/Kept/Counters.lean ====
section
/-! SUPPORT. Every operation of Machine/Counters.lean keeps (Laws/Kept.lean). -/

set_option Elab.async false
set_option linter.unusedTactic false
set_option linter.unreachableTactic false
set_option linter.unusedVariables false

namespace Sys2Proof.Laws

open Sys2Proof.Machine

variable {κ : Scope}

theorem kept_writeClearWraps {s₀ : State} {v : Int} {s : State} (h : Kept κ s₀ s) :
    Kept κ s₀ (writeClearWraps v s).1 := by
  unfold writeClearWraps
  repeat' first
    | intro _ | with_reducible apply kept_ite | with_reducible apply kept_ite_fst | split | dsimp only
    | with_reducible assumption | with_reducible apply kept_wraps_filter | refine kept_fst (by assumption) ?_
    | refine kept_snd (by assumption) ?_ | exact rfl | assumption

theorem kept_execClearWraps [κ.Out .events] [κ.Out .management] [κ.Out .housekeeping] [κ.Out .captures] {s₀ : State}
    {cl : Client} {mask : Fin 256} {s : State} (h : Kept κ s₀ s) :
    KeptO κ s₀ (execClearWraps cl mask s) := by
  unfold execClearWraps
  repeat' first
    | intro _ | with_reducible apply kept_next | with_reducible refine kept_serveWrite ?_ ?_ (by first | exact .inl (by decide) | exact .inr Fact.out)
    | with_reducible apply kept_writeClearWraps | with_reducible apply kept_ite | split | dsimp only
    | with_reducible assumption | refine kept_fst (by assumption) ?_ | refine kept_snd (by assumption) ?_
    | exact rfl | assumption

theorem kept_snapshot [κ.Out .snapshots] {s₀ s : State} {cause : Nat} (h : Kept κ s₀ s) :
    Kept κ s₀ (State.snapshot s cause) := by
  unfold State.snapshot
  repeat' first
    | intro _ | with_reducible apply kept_set | with_reducible apply kept_ite | split | dsimp only
    | with_reducible assumption | with_reducible apply kept_snaps | refine kept_fst (by assumption) ?_
    | refine kept_snd (by assumption) ?_ | exact rfl | assumption | exact (Fact.out : κ .snapshots = false)

theorem kept_bankHeader [κ.Out .snapshots] {s₀ s : State} {b : Nat} (h : Kept κ s₀ s) :
    Kept κ s₀ (State.bankHeader s b) := by
  unfold State.bankHeader
  repeat' first
    | intro _ | with_reducible apply kept_set | with_reducible apply kept_ite | split | dsimp only
    | with_reducible assumption | refine kept_fst (by assumption) ?_ | refine kept_snd (by assumption) ?_
    | exact rfl | assumption | exact (Fact.out : κ .snapshots = false)

theorem kept_gathered [κ.Out .snapshots] {s₀ s : State} (h : Kept κ s₀ s) :
    Kept κ s₀ (State.gathered s) := by
  unfold State.gathered
  repeat' first
    | intro _ | with_reducible apply kept_set | with_reducible apply kept_bankHeader
    | with_reducible apply kept_ite | split | dsimp only | with_reducible assumption
    | with_reducible apply kept_snaps | refine kept_fst (by assumption) ?_ | refine kept_snd (by assumption) ?_
    | exact rfl | assumption | exact (Fact.out : κ .snapshots = false)

theorem kept_execSnapshotGatherComplete [κ.Out .snapshots] {s₀ s : State} (h : Kept κ s₀ s) :
    KeptO κ s₀ (execSnapshotGatherComplete s) := by
  unfold execSnapshotGatherComplete
  repeat' first
    | intro _ | with_reducible apply kept_next | with_reducible apply kept_live
    | with_reducible apply kept_gathered | with_reducible apply kept_ite | split | dsimp only
    | with_reducible assumption | refine kept_fst (by assumption) ?_ | refine kept_snd (by assumption) ?_
    | exact rfl | assumption

theorem kept_filterRead [κ.Out .management] {s₀ s : State} {cl : Client} {offset : Nat} (h : Kept κ s₀ s) :
    Kept κ s₀ (State.filterRead s cl offset).2 := by
  unfold State.filterRead
  repeat' first
    | intro _ | with_reducible apply kept_setView | with_reducible apply kept_ite | split | dsimp only
    | with_reducible assumption | refine kept_fst (by assumption) ?_ | refine kept_snd (by assumption) ?_
    | exact rfl | assumption

theorem kept_execCounterFilterRead [κ.Out .events] [κ.Out .management] [κ.Out .housekeeping] [κ.Out .captures]
    {s₀ : State} {cl : Client} {max : Fin 65536} {s : State} (h : Kept κ s₀ s) :
    KeptO κ s₀ (execCounterFilterRead cl max s) := by
  unfold execCounterFilterRead
  repeat' first
    | intro _ | with_reducible apply kept_next | with_reducible apply kept_serve
    | with_reducible apply kept_filterRead | with_reducible apply kept_ite | with_reducible apply kept_ite_fst
    | split | dsimp only | with_reducible assumption | refine kept_fst (by assumption) ?_
    | refine kept_snd (by assumption) ?_ | exact rfl | assumption

end Sys2Proof.Laws
end

