-- ==== Sys2Proof/Laws/Kept/Monitor.lean ====
section
/-! SUPPORT. Every operation of Machine/Monitor.lean keeps (Laws/Kept.lean). -/

set_option Elab.async false
set_option linter.unusedTactic false
set_option linter.unreachableTactic false
set_option linter.unusedVariables false

namespace Sys2Proof.Laws

open Sys2Proof.Machine

variable {κ : Scope}

theorem kept_writeHkSequence [κ.Out .housekeeping] {s₀ s : State} {k : Nat} {b : List Byte} (h : Kept κ s₀ s) :
    Kept κ s₀ (writeHkSequence k b s).1 := by
  unfold writeHkSequence
  repeat' first
    | intro _ | with_reducible apply kept_setBlob | with_reducible apply kept_ite
    | with_reducible apply kept_ite_fst | split | dsimp only | with_reducible assumption
    | refine kept_fst (by assumption) ?_ | refine kept_snd (by assumption) ?_ | exact rfl | assumption
    | exact (Fact.out : κ .housekeeping = false)

theorem kept_writeHkInjected [κ.Out .housekeeping] {s₀ s : State} {k : Nat} {v : Int} (h : Kept κ s₀ s) :
    Kept κ s₀ (writeHkInjected k v s).1 := by
  unfold writeHkInjected
  repeat' first
    | intro _ | with_reducible apply kept_set | with_reducible apply kept_ite | with_reducible apply kept_ite_fst
    | split | dsimp only | with_reducible assumption | refine kept_fst (by assumption) ?_
    | refine kept_snd (by assumption) ?_ | exact rfl | assumption | exact (Fact.out : κ .housekeeping = false)

theorem kept_writeHkTrigger [κ.Out .housekeeping] {s₀ : State} {k : Nat} {v : Int} {s : State} (h : Kept κ s₀ s) :
    Kept κ s₀ (writeHkTrigger k v s).1 := by
  unfold writeHkTrigger
  repeat' first
    | intro _ | with_reducible apply kept_set | with_reducible apply kept_hkStart
    | with_reducible apply kept_ite | with_reducible apply kept_ite_fst | split | dsimp only
    | with_reducible assumption | refine kept_fst (by assumption) ?_ | refine kept_snd (by assumption) ?_
    | exact rfl | assumption | exact (Fact.out : κ .housekeeping = false)

theorem kept_writeHkAverage {s₀ : State} {r : Reg} {i : Nat} {v : Int} {s : State}
    (hr : κ (Safety.part r) = false := by
      first | assumption | ((conv in Safety.part _ => whnf); exact Fact.out) | exact leaves_none _)
    (h : Kept κ s₀ s) :
    Kept κ s₀ (writeHkAverage r i v s).1 := by
  unfold writeHkAverage
  repeat' first
    | intro _ | with_reducible apply kept_set | with_reducible apply kept_ite
    | with_reducible apply kept_ite_fst | split | dsimp only | with_reducible assumption
    | refine kept_fst (by assumption) ?_ | refine kept_snd (by assumption) ?_ | exact rfl | assumption

theorem kept_writeHkSeqStart [κ.Out .events] [κ.Out .housekeeping] [κ.Out .captures] {s₀ : State} {k : Nat}
    {s : State} (h : Kept κ s₀ s) :
    Kept κ s₀ (writeHkSeqStart k s).1 := by
  unfold writeHkSeqStart
  repeat' first
    | intro _ | with_reducible apply kept_hkSeqTrigger | with_reducible apply kept_raise
    | with_reducible apply kept_ite | with_reducible apply kept_ite_fst | split | dsimp only
    | with_reducible assumption | refine kept_fst (by assumption) ?_ | refine kept_snd (by assumption) ?_
    | exact rfl | assumption

theorem kept_execHkSeqStart [κ.Out .events] [κ.Out .management] [κ.Out .housekeeping] [κ.Out .captures] {s₀ : State}
    {cl : Client} {k : Fin 2} {s : State} (h : Kept κ s₀ s) :
    KeptO κ s₀ (execHkSeqStart cl k s) := by
  unfold execHkSeqStart
  repeat' first
    | intro _ | with_reducible apply kept_next | with_reducible refine kept_serveWrite ?_ ?_ (by first | exact .inl (by decide) | exact .inr Fact.out)
    | with_reducible apply kept_writeHkSeqStart | with_reducible apply kept_ite | split | dsimp only
    | with_reducible assumption | refine kept_fst (by assumption) ?_ | refine kept_snd (by assumption) ?_
    | exact rfl | assumption

theorem kept_writeHkInjStart [κ.Out .events] [κ.Out .housekeeping] [κ.Out .captures] {s₀ : State} {k : Nat}
    {s : State} (h : Kept κ s₀ s) :
    Kept κ s₀ (writeHkInjStart k s).1 := by
  unfold writeHkInjStart
  repeat' first
    | intro _ | with_reducible apply kept_hkInjTrigger | with_reducible apply kept_raise
    | with_reducible apply kept_ite | with_reducible apply kept_ite_fst | split | dsimp only
    | with_reducible assumption | refine kept_fst (by assumption) ?_ | refine kept_snd (by assumption) ?_
    | exact rfl | assumption

theorem kept_execHkInjectStart [κ.Out .events] [κ.Out .management] [κ.Out .housekeeping] [κ.Out .captures]
    {s₀ : State} {cl : Client} {k : Fin 2} {s : State} (h : Kept κ s₀ s) :
    KeptO κ s₀ (execHkInjectStart cl k s) := by
  unfold execHkInjectStart
  repeat' first
    | intro _ | with_reducible apply kept_next | with_reducible refine kept_serveWrite ?_ ?_ (by first | exact .inl (by decide) | exact .inr Fact.out)
    | with_reducible apply kept_writeHkInjStart | with_reducible apply kept_ite | split | dsimp only
    | with_reducible assumption | refine kept_fst (by assumption) ?_ | refine kept_snd (by assumption) ?_
    | exact rfl | assumption

theorem kept_hkMs [κ.Out .events] [κ.Out .housekeeping] [κ.Out .captures] {s₀ s : State} (h : Kept κ s₀ s) :
    Kept κ s₀ (State.hkMs s) := by
  unfold State.hkMs
  repeat' first
    | intro _ | with_reducible apply kept_each | with_reducible apply kept_hkSeqTrigger
    | with_reducible apply kept_raise | with_reducible apply kept_hkInjTrigger | with_reducible apply kept_ite
    | split | dsimp only | with_reducible assumption | refine kept_fst (by assumption) ?_
    | refine kept_snd (by assumption) ?_ | exact rfl | assumption

theorem kept_hkCalStart [κ.Out .housekeeping] {s₀ s : State} {k : Nat} (h : Kept κ s₀ s) :
    Kept κ s₀ (State.hkCalStart s k) := by
  unfold State.hkCalStart
  repeat' first
    | intro _ | with_reducible apply kept_set | with_reducible apply kept_ite | split | dsimp only
    | with_reducible assumption | refine kept_fst (by assumption) ?_ | refine kept_snd (by assumption) ?_
    | exact rfl | assumption | exact (Fact.out : κ .housekeeping = false)

theorem kept_hkCalAsk [κ.Out .housekeeping] {s₀ s : State} {k : Nat} (h : Kept κ s₀ s) :
    Kept κ s₀ (State.hkCalAsk s k) := by
  unfold State.hkCalAsk
  repeat' first
    | intro _ | with_reducible apply kept_set | with_reducible apply kept_hkCalStart
    | with_reducible apply kept_ite | split | dsimp only | with_reducible assumption
    | refine kept_fst (by assumption) ?_ | refine kept_snd (by assumption) ?_ | exact rfl | assumption
    | exact (Fact.out : κ .housekeeping = false)

theorem kept_writeHkCal [κ.Out .housekeeping] {s₀ : State} {k : Nat} {s : State} (h : Kept κ s₀ s) :
    Kept κ s₀ (writeHkCal k s).1 := by
  unfold writeHkCal
  repeat' first
    | intro _ | with_reducible apply kept_hkCalAsk | with_reducible apply kept_ite
    | with_reducible apply kept_ite_fst | split | dsimp only | with_reducible assumption
    | refine kept_fst (by assumption) ?_ | refine kept_snd (by assumption) ?_ | exact rfl | assumption

theorem kept_execHkCalRequest [κ.Out .events] [κ.Out .management] [κ.Out .housekeeping] [κ.Out .captures]
    {s₀ : State} {cl : Client} {k : Fin 2} {s : State} (h : Kept κ s₀ s) :
    KeptO κ s₀ (execHkCalRequest cl k s) := by
  unfold execHkCalRequest
  repeat' first
    | intro _ | with_reducible apply kept_next | with_reducible refine kept_serveWrite ?_ ?_ (by first | exact .inl (by decide) | exact .inr Fact.out)
    | with_reducible apply kept_writeHkCal | with_reducible apply kept_ite | split | dsimp only
    | with_reducible assumption | refine kept_fst (by assumption) ?_ | refine kept_snd (by assumption) ?_
    | exact rfl | assumption

theorem kept_execHkCalAuto [κ.Out .housekeeping] {s₀ s : State} {k : Fin 2} (h : Kept κ s₀ s) :
    KeptO κ s₀ (execHkCalAuto k s) := by
  unfold execHkCalAuto
  repeat' first
    | intro _ | with_reducible apply kept_live | with_reducible apply kept_hkCalAsk | with_reducible apply kept_ite
    | split | dsimp only | with_reducible assumption | refine kept_fst (by assumption) ?_
    | refine kept_snd (by assumption) ?_ | exact rfl | assumption

theorem kept_hkBoundary [κ.Out .housekeeping] {s₀ s : State} {k : Nat} (h : Kept κ s₀ s) :
    Kept κ s₀ (State.hkBoundary s k) := by
  unfold State.hkBoundary
  repeat' first
    | intro _ | with_reducible apply kept_hkCalStart | with_reducible apply kept_hkStartInjected
    | with_reducible apply kept_ite | split | dsimp only | with_reducible assumption
    | refine kept_fst (by assumption) ?_ | refine kept_snd (by assumption) ?_ | exact rfl | assumption

theorem kept_execHkSampleBoundary [κ.Out .housekeeping] {s₀ : State} {k : Fin 2} {s : State} (h : Kept κ s₀ s) :
    KeptO κ s₀ (execHkSampleBoundary k s) := by
  unfold execHkSampleBoundary
  repeat' first
    | intro _ | with_reducible apply kept_next | with_reducible apply kept_live
    | with_reducible apply kept_hkBoundary | with_reducible apply kept_ite | split | dsimp only
    | with_reducible assumption | refine kept_fst (by assumption) ?_ | refine kept_snd (by assumption) ?_
    | exact rfl | assumption

theorem kept_hkResume [κ.Out .housekeeping] {s₀ s : State} {k : Nat} (h : Kept κ s₀ s) :
    Kept κ s₀ (State.hkResume s k) := by
  unfold State.hkResume
  repeat' first
    | intro _ | with_reducible apply kept_hkLatch | with_reducible apply kept_set
    | with_reducible apply kept_ite | split | dsimp only | with_reducible assumption
    | refine kept_fst (by assumption) ?_ | refine kept_snd (by assumption) ?_ | exact rfl | assumption
    | exact (Fact.out : κ .housekeeping = false)

theorem kept_hkCalDone [κ.Out .events] [κ.Out .housekeeping] [κ.Out .captures] {s₀ s : State} {k : Nat}
    {m : HkCalReading} (h : Kept κ s₀ s) :
    Kept κ s₀ (State.hkCalDone s k m) := by
  unfold State.hkCalDone
  repeat' first
    | intro _ | with_reducible apply kept_set | with_reducible apply kept_bump | with_reducible apply kept_raise
    | with_reducible apply kept_markTick | with_reducible apply kept_hkResume | with_reducible apply kept_hkStart
    | with_reducible apply kept_hkBoundary | with_reducible apply kept_ite | split | dsimp only
    | with_reducible assumption | refine kept_fst (by assumption) ?_ | refine kept_snd (by assumption) ?_
    | exact rfl | assumption | exact (Fact.out : κ .housekeeping = false)

theorem kept_execHkCalComplete [κ.Out .events] [κ.Out .housekeeping] [κ.Out .captures] {s₀ : State} {k : Fin 2}
    {m : HkCalReading} {s : State} (h : Kept κ s₀ s) :
    KeptO κ s₀ (execHkCalComplete k m s) := by
  unfold execHkCalComplete
  repeat' first
    | intro _ | with_reducible apply kept_next | with_reducible apply kept_live
    | with_reducible apply kept_hkCalDone | with_reducible apply kept_ite | split | dsimp only
    | with_reducible assumption | refine kept_fst (by assumption) ?_ | refine kept_snd (by assumption) ?_
    | exact rfl | assumption

theorem kept_hkStore {s₀ s : State} {r : Reg} {i : Nat} {w : Nat} (h : Kept κ s₀ s)
    (hr : κ (Safety.part r) = false := by
      first | assumption | ((conv in Safety.part _ => whnf); exact Fact.out) | exact leaves_none _)
    :
    Kept κ s₀ (State.hkStore s r i w) := by
  unfold State.hkStore
  repeat' first
    | intro _ | with_reducible apply kept_set | with_reducible apply kept_ite | split | dsimp only
    | with_reducible assumption | refine kept_fst (by assumption) ?_ | refine kept_snd (by assumption) ?_
    | exact rfl | assumption

theorem kept_hkOpen [κ.Out .events] [κ.Out .housekeeping] [κ.Out .captures] {s₀ s : State} {i : Nat} {v : Bool}
    (h : Kept κ s₀ s) :
    Kept κ s₀ (State.hkOpen s i v) := by
  unfold State.hkOpen
  repeat' first
    | intro _ | with_reducible apply kept_raiseClear | with_reducible apply kept_setFlag
    | with_reducible apply kept_ite | split | dsimp only | with_reducible assumption
    | refine kept_fst (by assumption) ?_ | refine kept_snd (by assumption) ?_ | exact rfl | assumption
    | exact (Fact.out : κ .housekeeping = false)

theorem kept_hkLimits [κ.Out .events] [κ.Out .housekeeping] [κ.Out .captures] {s₀ s : State} {i : Nat} {uv : Nat}
    (h : Kept κ s₀ s) :
    Kept κ s₀ (State.hkLimits s i uv) := by
  unfold State.hkLimits
  repeat' first
    | intro _ | with_reducible apply kept_raiseClear | with_reducible apply kept_set
    | with_reducible apply kept_ite | split | dsimp only | with_reducible assumption
    | refine kept_fst (by assumption) ?_ | refine kept_snd (by assumption) ?_ | exact rfl | assumption
    | exact (Fact.out : κ .housekeeping = false)

theorem kept_hkInput [κ.Out .events] [κ.Out .housekeeping] [κ.Out .captures] {s₀ s : State} {k : Nat} {i : Nat}
    {entry : Nat} {m : HkReading} {injected : Bool} (h : Kept κ s₀ s) :
    Kept κ s₀ (State.hkInput s k i entry m injected) := by
  unfold State.hkInput
  extract_lets x1 x2 x3 x4 x5 x6 x7 x8 x9 x10 x11 x12 x13 x14 x15
  have k5 : Kept κ s₀ x5 := by
    unfold x5
    repeat' first
      | intro _ | with_reducible apply kept_hkOpen | with_reducible apply kept_bump
      | with_reducible apply kept_raise | with_reducible apply kept_hkStore | with_reducible apply kept_set
      | with_reducible apply kept_hkLimits | with_reducible apply kept_ite | split | dsimp only
      | with_reducible assumption | refine kept_fst (by assumption) ?_ | refine kept_snd (by assumption) ?_
      | exact rfl | assumption | exact (Fact.out : κ .housekeeping = false)
  clear_value x5
  have k10 : Kept κ s₀ x10 := by
    unfold x10
    repeat' first
      | intro _ | with_reducible apply kept_hkOpen | with_reducible apply kept_bump
      | with_reducible apply kept_raise | with_reducible apply kept_hkStore | with_reducible apply kept_set
      | with_reducible apply kept_hkLimits | with_reducible apply kept_ite | split | dsimp only
      | with_reducible assumption | refine kept_fst (by assumption) ?_ | refine kept_snd (by assumption) ?_
      | exact rfl | assumption | exact (Fact.out : κ .housekeeping = false)
  clear_value x10
  have k12 : Kept κ s₀ x12 := by
    unfold x12
    repeat' first
      | intro _ | with_reducible apply kept_hkOpen | with_reducible apply kept_bump
      | with_reducible apply kept_raise | with_reducible apply kept_hkStore | with_reducible apply kept_set
      | with_reducible apply kept_hkLimits | with_reducible apply kept_ite | split | dsimp only
      | with_reducible assumption | refine kept_fst (by assumption) ?_ | refine kept_snd (by assumption) ?_
      | exact rfl | assumption | exact (Fact.out : κ .housekeeping = false)
  clear_value x12
  have k13 : Kept κ s₀ x13 := by
    unfold x13
    repeat' first
      | intro _ | with_reducible apply kept_hkOpen | with_reducible apply kept_bump
      | with_reducible apply kept_raise | with_reducible apply kept_hkStore | with_reducible apply kept_set
      | with_reducible apply kept_hkLimits | with_reducible apply kept_ite | split | dsimp only
      | with_reducible assumption | refine kept_fst (by assumption) ?_ | refine kept_snd (by assumption) ?_
      | exact rfl | assumption | exact (Fact.out : κ .housekeeping = false)
  clear_value x13
  have k14 : Kept κ s₀ x14 := by
    unfold x14
    repeat' first
      | intro _ | with_reducible apply kept_hkOpen | with_reducible apply kept_bump
      | with_reducible apply kept_raise | with_reducible apply kept_hkStore | with_reducible apply kept_set
      | with_reducible apply kept_hkLimits | with_reducible apply kept_ite | split | dsimp only
      | with_reducible assumption | refine kept_fst (by assumption) ?_ | refine kept_snd (by assumption) ?_
      | exact rfl | assumption | exact (Fact.out : κ .housekeeping = false)
  clear_value x14
  repeat' first
    | intro _ | with_reducible apply kept_hkOpen | with_reducible apply kept_bump | with_reducible apply kept_raise
    | with_reducible apply kept_hkStore | with_reducible apply kept_set | with_reducible apply kept_hkLimits
    | with_reducible apply kept_ite | split | dsimp only | with_reducible assumption
    | refine kept_fst (by assumption) ?_ | refine kept_snd (by assumption) ?_ | exact rfl | assumption
    | exact (Fact.out : κ .housekeeping = false)

theorem kept_hkNext [κ.Out .housekeeping] {s₀ s : State} {k : Nat} (h : Kept κ s₀ s) :
    Kept κ s₀ (State.hkNext s k) := by
  unfold State.hkNext
  repeat' first
    | intro _ | with_reducible apply kept_hkCalStart | with_reducible apply kept_hkResume
    | with_reducible apply kept_hkLatch | with_reducible apply kept_set | with_reducible apply kept_bump
    | with_reducible apply kept_hkStart | with_reducible apply kept_ite | split | dsimp only
    | with_reducible assumption | refine kept_fst (by assumption) ?_ | refine kept_snd (by assumption) ?_
    | exact rfl | assumption | exact (Fact.out : κ .housekeeping = false)

theorem kept_hkConverted [κ.Out .events] [κ.Out .housekeeping] [κ.Out .captures] {s₀ s : State} {k : Nat}
    {m : HkReading} (h : Kept κ s₀ s) :
    Kept κ s₀ (State.hkConverted s k m) := by
  unfold State.hkConverted
  repeat' first
    | intro _ | with_reducible apply kept_hkInput | with_reducible apply kept_set
    | with_reducible apply kept_hkNext | with_reducible apply kept_hkBoundary | with_reducible apply kept_ite
    | split | dsimp only | with_reducible assumption | refine kept_fst (by assumption) ?_
    | refine kept_snd (by assumption) ?_ | exact rfl | assumption | exact (Fact.out : κ .housekeeping = false)

theorem kept_execHkConversionComplete [κ.Out .events] [κ.Out .housekeeping] [κ.Out .captures] {s₀ : State}
    {k : Fin 2} {m : HkReading} {s : State} (h : Kept κ s₀ s) :
    KeptO κ s₀ (execHkConversionComplete k m s) := by
  unfold execHkConversionComplete
  repeat' first
    | intro _ | with_reducible apply kept_next | with_reducible apply kept_live
    | with_reducible apply kept_hkConverted | with_reducible apply kept_ite | split | dsimp only
    | with_reducible assumption | refine kept_fst (by assumption) ?_ | refine kept_snd (by assumption) ?_
    | exact rfl | assumption

theorem kept_hkRead {s₀ s : State} {r : Reg} {i : Nat} (h : Kept κ s₀ s)
    (hr : κ (Safety.part r) = false := by
      first | assumption | ((conv in Safety.part _ => whnf); exact Fact.out) | exact leaves_none _)
    :
    Kept κ s₀ (State.hkRead s r i) := by
  unfold State.hkRead
  repeat' first
    | intro _ | with_reducible apply kept_setBit | with_reducible apply kept_ite | split | dsimp only
    | with_reducible assumption | refine kept_fst (by assumption) ?_ | refine kept_snd (by assumption) ?_
    | exact rfl | assumption

end Sys2Proof.Laws
end

