-- ==== Sys2Proof/Laws/Kept/Calibration.lean ====
section
/-! SUPPORT. Every operation of Machine/Calibration.lean keeps (Laws/Kept.lean). -/

set_option Elab.async false
set_option linter.unusedTactic false
set_option linter.unreachableTactic false
set_option linter.unusedVariables false

namespace Sys2Proof.Laws

open Sys2Proof.Machine

variable {κ : Scope}

theorem kept_setRecord [κ.Out .calibration] {s₀ s : State} {u : Nat} {slice : Nat} {v : Nat} (h : Kept κ s₀ s) :
    Kept κ s₀ (State.setRecord s u slice v) := by
  unfold State.setRecord
  repeat' first
    | intro _ | with_reducible apply kept_setBlob | with_reducible apply kept_ite | split | dsimp only
    | with_reducible assumption | refine kept_fst (by assumption) ?_ | refine kept_snd (by assumption) ?_
    | exact rfl | assumption | exact (Fact.out : κ .calibration = false)

theorem kept_calDropLost [κ.Out .calibration] {s₀ s : State} {u : Nat} (h : Kept κ s₀ s) :
    Kept κ s₀ (State.calDropLost s u) := by
  unfold State.calDropLost
  repeat' first
    | intro _ | with_reducible apply kept_each | with_reducible apply kept_set
    | with_reducible apply kept_setRecord | with_reducible apply kept_ite | split | dsimp only
    | with_reducible assumption | refine kept_fst (by assumption) ?_ | refine kept_snd (by assumption) ?_
    | exact rfl | assumption | exact (Fact.out : κ .calibration = false)

theorem kept_calRefuse [κ.Out .events] [κ.Out .calibration] [κ.Out .housekeeping] [κ.Out .captures] {s₀ s : State}
    {u : Nat} {slice : Nat} {limit : Nat} (h : Kept κ s₀ s) :
    Kept κ s₀ (State.calRefuse s u slice limit) := by
  unfold State.calRefuse
  repeat' first
    | intro _ | with_reducible apply kept_raise | with_reducible apply kept_set | with_reducible apply kept_bump
    | with_reducible apply kept_ite | split | dsimp only | with_reducible assumption
    | refine kept_fst (by assumption) ?_ | refine kept_snd (by assumption) ?_ | exact rfl | assumption
    | exact (Fact.out : κ .calibration = false)

theorem kept_calStop [κ.Out .events] [κ.Out .calibration] [κ.Out .housekeeping] [κ.Out .captures] {s₀ s : State}
    {u : Nat} {st : Int} (h : Kept κ s₀ s) :
    Kept κ s₀ (State.calStop s u st) := by
  unfold State.calStop
  repeat' first
    | intro _ | with_reducible apply kept_set | with_reducible apply kept_raise | with_reducible apply kept_ite
    | split | dsimp only | with_reducible assumption | refine kept_fst (by assumption) ?_
    | refine kept_snd (by assumption) ?_ | exact rfl | assumption | exact (Fact.out : κ .calibration = false)

theorem kept_calConverter [κ.Out .events] [κ.Out .calibration] [κ.Out .housekeeping] [κ.Out .captures] {s₀ s : State}
    {u : Nat} {m : CalConverter} (h : Kept κ s₀ s) :
    Kept κ s₀ (State.calConverter s u m) := by
  unfold State.calConverter
  repeat' first
    | intro _ | with_reducible apply kept_each | with_reducible apply kept_calRefuse
    | with_reducible apply kept_setBlob | with_reducible apply kept_set | with_reducible apply kept_calStop
    | with_reducible apply kept_ite | split | dsimp only | with_reducible assumption
    | refine kept_fst (by assumption) ?_ | refine kept_snd (by assumption) ?_ | exact rfl | assumption
    | exact (Fact.out : κ .calibration = false)

theorem kept_calComplete [κ.Out .events] [κ.Out .converters] [κ.Out .calibration] [κ.Out .housekeeping]
    [κ.Out .integrity] [κ.Out .captures] {s₀ s : State} {c : Nat} {adcs : Vector CalConverter 4}
    {dacs : Vector CalConverter 4} (h : Kept κ s₀ s) :
    Kept κ s₀ (State.calComplete s c adcs dacs) := by
  unfold State.calComplete
  repeat' first
    | intro _ | with_reducible apply kept_each | with_reducible apply kept_calConverter
    | with_reducible apply kept_repairsGoOn | with_reducible apply kept_set | with_reducible apply kept_setBit
    | with_reducible apply kept_refreshConv | with_reducible apply kept_ite | split | dsimp only
    | with_reducible assumption | refine kept_fst (by assumption) ?_ | refine kept_snd (by assumption) ?_
    | exact rfl | assumption | exact (Fact.out : κ .converters = false) | exact (Fact.out : κ .calibration = false)

theorem kept_execForegroundCalComplete [κ.Out .events] [κ.Out .converters] [κ.Out .calibration] [κ.Out .housekeeping]
    [κ.Out .integrity] [κ.Out .captures]
    {s₀ : State} {c : Fin 12} {adcs : Vector CalConverter 4}
    {dacs : Vector CalConverter 4} {s : State} (h : Kept κ s₀ s) :
    KeptO κ s₀ (execForegroundCalComplete c adcs dacs s) := by
  unfold execForegroundCalComplete
  repeat' first
    | intro _ | with_reducible apply kept_next | with_reducible apply kept_live
    | with_reducible apply kept_calComplete | with_reducible apply kept_ite | split | dsimp only
    | with_reducible assumption | refine kept_fst (by assumption) ?_ | refine kept_snd (by assumption) ?_
    | exact rfl | assumption

theorem kept_calAbandon [κ.Out .events] [κ.Out .converters] [κ.Out .calibration] [κ.Out .housekeeping]
    [κ.Out .captures] {s₀ s : State} {c : Nat} {limit : Bool} (h : Kept κ s₀ s) :
    Kept κ s₀ (State.calAbandon s c limit) := by
  unfold State.calAbandon
  repeat' first
    | intro _ | with_reducible apply kept_each | with_reducible apply kept_set | with_reducible apply kept_setBit
    | with_reducible apply kept_calRefuse | with_reducible apply kept_refreshConv | with_reducible apply kept_ite
    | split | dsimp only | with_reducible assumption | refine kept_fst (by assumption) ?_
    | refine kept_snd (by assumption) ?_ | exact rfl | assumption | exact (Fact.out : κ .calibration = false)

theorem kept_writeRecal [κ.Out .converters] [κ.Out .calibration] {s₀ s : State} {v : Int} (h : Kept κ s₀ s) :
    Kept κ s₀ (writeRecal v s).1 := by
  unfold writeRecal
  repeat' first
    | intro _ | with_reducible apply kept_each | with_reducible apply kept_set | with_reducible apply kept_setBit
    | with_reducible apply kept_refreshConv | with_reducible apply kept_ite | with_reducible apply kept_ite_fst
    | split | dsimp only | with_reducible assumption | refine kept_fst (by assumption) ?_
    | refine kept_snd (by assumption) ?_ | exact rfl | assumption | exact (Fact.out : κ .calibration = false)

theorem kept_execRecalRequest [κ.Out .events] [κ.Out .management] [κ.Out .converters] [κ.Out .calibration]
    [κ.Out .housekeeping] [κ.Out .captures] {s₀ : State} {cl : Client} {mask : Fin 65536} {s : State}
    (h : Kept κ s₀ s) :
    KeptO κ s₀ (execRecalRequest cl mask s) := by
  unfold execRecalRequest
  repeat' first
    | intro _ | with_reducible apply kept_next | with_reducible refine kept_serveWrite ?_ ?_ (by first | exact .inl (by decide) | exact .inr Fact.out)
    | with_reducible apply kept_writeRecal | with_reducible apply kept_ite | split | dsimp only
    | with_reducible assumption | refine kept_fst (by assumption) ?_ | refine kept_snd (by assumption) ?_
    | exact rfl | assumption

theorem kept_bgStep [κ.Out .calibration] {s₀ s : State} {u : Nat} (h : Kept κ s₀ s) :
    Kept κ s₀ (State.bgStep s u) := by
  unfold State.bgStep
  repeat' first
    | intro _ | with_reducible apply kept_setBlob | with_reducible apply kept_set
    | with_reducible apply kept_calDropLost | with_reducible apply kept_markTick | with_reducible apply kept_ite
    | split | dsimp only | with_reducible assumption | refine kept_fst (by assumption) ?_
    | refine kept_snd (by assumption) ?_ | exact rfl | assumption | exact (Fact.out : κ .calibration = false)

theorem kept_execBgCalStepStart [κ.Out .calibration] {s₀ : State} {u : Fin 96} {s : State} (h : Kept κ s₀ s) :
    KeptO κ s₀ (execBgCalStepStart u s) := by
  unfold execBgCalStepStart
  repeat' first
    | intro _ | with_reducible apply kept_next | with_reducible apply kept_live
    | with_reducible apply kept_bgStep | with_reducible apply kept_ite | split | dsimp only
    | with_reducible assumption | refine kept_fst (by assumption) ?_ | refine kept_snd (by assumption) ?_
    | exact rfl | assumption

theorem kept_bgJudge [κ.Out .events] [κ.Out .calibration] [κ.Out .housekeeping] [κ.Out .captures] {s₀ s : State}
    {u : Nat} {p : Nat} {m : CalUnit} (h : Kept κ s₀ s) :
    Kept κ s₀ (State.bgJudge s u p m) := by
  unfold State.bgJudge
  repeat' first
    | intro _ | with_reducible apply kept_setRecord | with_reducible apply kept_set
    | with_reducible apply kept_calRefuse | with_reducible apply kept_calStop | with_reducible apply kept_ite
    | split | dsimp only | with_reducible assumption | refine kept_fst (by assumption) ?_
    | refine kept_snd (by assumption) ?_ | exact rfl | assumption | exact (Fact.out : κ .calibration = false)

theorem kept_bgResult [κ.Out .events] [κ.Out .calibration] [κ.Out .housekeeping] [κ.Out .captures] {s₀ s : State}
    {u : Nat} {m : CalUnit} (h : Kept κ s₀ s) :
    Kept κ s₀ (State.bgResult s u m) := by
  unfold State.bgResult
  repeat' first
    | intro _ | with_reducible apply kept_set | with_reducible apply kept_bump | with_reducible apply kept_bgJudge
    | with_reducible apply kept_refreshBgAt | with_reducible apply kept_ite | split | dsimp only
    | with_reducible assumption | refine kept_fst (by assumption) ?_ | refine kept_snd (by assumption) ?_
    | exact rfl | assumption | exact (Fact.out : κ .calibration = false)

theorem kept_execBgCalMeasureComplete [κ.Out .events] [κ.Out .calibration] [κ.Out .housekeeping] [κ.Out .captures]
    {s₀ : State} {u : Fin 96} {m : CalUnit} {s : State} (h : Kept κ s₀ s) :
    KeptO κ s₀ (execBgCalMeasureComplete u m s) := by
  unfold execBgCalMeasureComplete
  repeat' first
    | intro _ | with_reducible apply kept_next | with_reducible apply kept_live
    | with_reducible apply kept_bgResult | with_reducible apply kept_ite | split | dsimp only
    | with_reducible assumption | refine kept_fst (by assumption) ?_ | refine kept_snd (by assumption) ?_
    | exact rfl | assumption

theorem kept_writeBgEnable [κ.Out .calibration] {s₀ : State} {v : Int} {s : State} (h : Kept κ s₀ s) :
    Kept κ s₀ (writeBgEnable v s).1 := by
  unfold writeBgEnable
  repeat' first
    | intro _ | with_reducible apply kept_refreshBg | with_reducible apply kept_set
    | with_reducible apply kept_ite | with_reducible apply kept_ite_fst | split | dsimp only
    | with_reducible assumption | refine kept_fst (by assumption) ?_ | refine kept_snd (by assumption) ?_
    | exact rfl | assumption | exact (Fact.out : κ .calibration = false)

end Sys2Proof.Laws
end

