-- ==== Sys2Proof/Laws/Kept/Bonding.lean ====
section
/-! SUPPORT. Every operation of Machine/Bonding.lean keeps (Laws/Kept.lean). -/

set_option Elab.async false
set_option linter.unusedTactic false
set_option linter.unreachableTactic false
set_option linter.unusedVariables false

namespace Sys2Proof.Laws

open Sys2Proof.Machine

variable {κ : Scope}

theorem kept_leaveTogether [κ.Out .events] [κ.Out .carriers] [κ.Out .slack] [κ.Out .txLine] [κ.Out .rxLine]
    [κ.Out .clocks] [κ.Out .converters] [κ.Out .calibration] [κ.Out .banks] [κ.Out .dispersion] [κ.Out .frontEnd]
    [κ.Out .equaliser] [κ.Out .monitors] [κ.Out .neighbours] [κ.Out .recovery] [κ.Out .catching] [κ.Out .coding]
    [κ.Out .defects] [κ.Out .overhead] [κ.Out .pages] [κ.Out .bonding] [κ.Out .housekeeping] [κ.Out .captures]
    {s₀ s : State} {g : Nat}
    (h : Kept κ s₀ s) :
    Kept κ s₀ (State.leaveTogether s g) := by
  unfold State.leaveTogether
  repeat' first
    | intro _ | with_reducible apply kept_each | with_reducible apply kept_set
    | with_reducible apply kept_leaveIdle | with_reducible apply kept_ite | split | dsimp only
    | with_reducible assumption | refine kept_fst (by assumption) ?_ | refine kept_snd (by assumption) ?_
    | exact rfl | assumption | exact (Fact.out : κ .bonding = false)

theorem kept_exitIdle [κ.Out .events] [κ.Out .carriers] [κ.Out .slack] [κ.Out .txLine] [κ.Out .rxLine] [κ.Out .clocks]
    [κ.Out .converters] [κ.Out .calibration] [κ.Out .banks] [κ.Out .dispersion] [κ.Out .frontEnd] [κ.Out .equaliser]
    [κ.Out .monitors] [κ.Out .neighbours] [κ.Out .recovery] [κ.Out .catching] [κ.Out .coding] [κ.Out .defects]
    [κ.Out .overhead] [κ.Out .pages] [κ.Out .bonding] [κ.Out .housekeeping] [κ.Out .captures] {s₀ s : State} {c : Nat}
    (h : Kept κ s₀ s) :
    Kept κ s₀ (State.exitIdle s c) := by
  unfold State.exitIdle
  repeat' first
    | intro _ | with_reducible apply kept_leaveIdle | with_reducible apply kept_set
    | with_reducible apply kept_when | with_reducible apply kept_markTick | with_reducible apply kept_leaveTogether
    | with_reducible apply kept_ite | split | dsimp only | with_reducible assumption
    | refine kept_fst (by assumption) ?_ | refine kept_snd (by assumption) ?_ | exact rfl | assumption
    | exact (Fact.out : κ .slack = false) | exact (Fact.out : κ .bonding = false)

theorem kept_execBondExitWaitExpiry [κ.Out .events] [κ.Out .carriers] [κ.Out .slack] [κ.Out .txLine] [κ.Out .rxLine]
    [κ.Out .clocks] [κ.Out .converters] [κ.Out .calibration] [κ.Out .banks] [κ.Out .dispersion] [κ.Out .frontEnd]
    [κ.Out .equaliser] [κ.Out .monitors] [κ.Out .neighbours] [κ.Out .recovery] [κ.Out .catching] [κ.Out .coding]
    [κ.Out .defects] [κ.Out .overhead] [κ.Out .pages] [κ.Out .bonding] [κ.Out .housekeeping] [κ.Out .captures]
    {s₀ s : State} {g : Fin 6} (h : Kept κ s₀ s) :
    KeptO κ s₀ (execBondExitWaitExpiry g s) := by
  unfold execBondExitWaitExpiry
  repeat' first
    | intro _ | with_reducible apply kept_live | with_reducible apply kept_leaveTogether
    | with_reducible apply kept_ite | split | dsimp only | with_reducible assumption
    | refine kept_fst (by assumption) ?_ | refine kept_snd (by assumption) ?_ | exact rfl | assumption

theorem kept_align [κ.Out .events] [κ.Out .bonding] [κ.Out .housekeeping] [κ.Out .captures] {s₀ s : State} {g : Nat}
    (h : Kept κ s₀ s) :
    Kept κ s₀ (State.align s g) := by
  unfold State.align
  repeat' first
    | intro _ | with_reducible apply kept_set | with_reducible apply kept_foldl | with_reducible apply kept_each
    | with_reducible apply kept_setMember | with_reducible apply kept_refreshGroup
    | with_reducible apply kept_foldl_fst | with_reducible apply kept_ite | split | dsimp only
    | with_reducible assumption | refine kept_fst (by assumption) ?_ | refine kept_snd (by assumption) ?_
    | exact rfl | assumption | exact (Fact.out : κ .bonding = false)

theorem kept_tryAlign [κ.Out .events] [κ.Out .bonding] [κ.Out .housekeeping] [κ.Out .captures] {s₀ s : State}
    {g : Nat} (h : Kept κ s₀ s) :
    Kept κ s₀ (State.tryAlign s g) := by
  unfold State.tryAlign
  repeat' first
    | intro _ | with_reducible apply kept_set | with_reducible apply kept_markTick
    | with_reducible apply kept_align | with_reducible apply kept_ite | split | dsimp only
    | with_reducible assumption | refine kept_fst (by assumption) ?_ | refine kept_snd (by assumption) ?_
    | exact rfl | assumption | exact (Fact.out : κ .bonding = false)

theorem kept_execAlignWaitExpiry [κ.Out .events] [κ.Out .bonding] [κ.Out .housekeeping] [κ.Out .captures]
    {s₀ s : State} {g : Fin 6} (h : Kept κ s₀ s) :
    KeptO κ s₀ (execAlignWaitExpiry g s) := by
  unfold execAlignWaitExpiry
  repeat' first
    | intro _ | with_reducible apply kept_live | with_reducible apply kept_align | with_reducible apply kept_ite
    | split | dsimp only | with_reducible assumption | refine kept_fst (by assumption) ?_
    | refine kept_snd (by assumption) ?_ | exact rfl | assumption

theorem kept_realign [κ.Out .events] [κ.Out .bonding] [κ.Out .housekeeping] [κ.Out .captures] {s₀ s : State}
    {g : Nat} (h : Kept κ s₀ s) :
    Kept κ s₀ (State.realign s g) := by
  unfold State.realign
  repeat' first
    | intro _ | with_reducible apply kept_each | with_reducible apply kept_set | with_reducible apply kept_raise
    | with_reducible apply kept_bump | with_reducible apply kept_align | with_reducible apply kept_ite | split
    | dsimp only | with_reducible assumption | refine kept_fst (by assumption) ?_
    | refine kept_snd (by assumption) ?_ | exact rfl | assumption | exact (Fact.out : κ .bonding = false)

theorem kept_realignFor [κ.Out .events] [κ.Out .bonding] [κ.Out .housekeeping] [κ.Out .captures] {s₀ s : State}
    {g : Nat} {c : Nat} (h : Kept κ s₀ s) :
    Kept κ s₀ (State.realignFor s g c) := by
  unfold State.realignFor
  repeat' first
    | intro _ | with_reducible apply kept_realign | with_reducible apply kept_ite | split | dsimp only
    | with_reducible assumption | refine kept_fst (by assumption) ?_ | refine kept_snd (by assumption) ?_
    | exact rfl | assumption

theorem kept_absorb [κ.Out .events] [κ.Out .bonding] [κ.Out .housekeeping] [κ.Out .captures] {s₀ s : State} {g : Nat}
    {c : Nat} {x : Int} (h : Kept κ s₀ s) :
    Kept κ s₀ (State.absorb s g c x) := by
  unfold State.absorb
  repeat' first
    | intro _ | with_reducible apply kept_setMember | with_reducible apply kept_set
    | with_reducible apply kept_refreshGroup | with_reducible apply kept_realignFor
    | with_reducible apply kept_realign | with_reducible apply kept_ite | split | dsimp only
    | with_reducible assumption | refine kept_fst (by assumption) ?_ | refine kept_snd (by assumption) ?_
    | exact rfl | assumption | exact (Fact.out : κ .bonding = false)

theorem kept_bondBoundary [κ.Out .events] [κ.Out .bonding] [κ.Out .housekeeping] [κ.Out .captures] {s₀ s : State}
    {c : Nat} {bsq : Int} {arrival : Int} (h : Kept κ s₀ s) :
    Kept κ s₀ (State.bondBoundary s c bsq arrival) := by
  unfold State.bondBoundary
  repeat' first
    | intro _ | with_reducible apply kept_set | with_reducible apply kept_setMember
    | with_reducible apply kept_refreshGroup | with_reducible apply kept_bump | with_reducible apply kept_realign
    | with_reducible apply kept_tryAlign | with_reducible apply kept_absorb | with_reducible apply kept_ite | split
    | dsimp only | with_reducible assumption | refine kept_fst (by assumption) ?_
    | refine kept_snd (by assumption) ?_ | exact rfl | assumption | exact (Fact.out : κ .bonding = false)

theorem kept_writeMembers [κ.Out .bonding] {s₀ : State} {g : Nat} {v : Int} {s : State} (h : Kept κ s₀ s) :
    Kept κ s₀ (writeMembers g v s).1 := by
  unfold writeMembers
  repeat' first
    | intro _ | with_reducible apply kept_set | with_reducible apply kept_each
    | with_reducible apply kept_refreshGroup | with_reducible apply kept_ite | with_reducible apply kept_ite_fst
    | split | dsimp only | with_reducible assumption | refine kept_fst (by assumption) ?_
    | refine kept_snd (by assumption) ?_ | exact rfl | assumption | exact (Fact.out : κ .bonding = false)

theorem kept_execGroupMembersWrite [κ.Out .events] [κ.Out .management] [κ.Out .bonding] [κ.Out .housekeeping]
    [κ.Out .captures] {s₀ : State} {cl : Client} {g : Fin 6} {mask : Fin 65536} {s : State} (h : Kept κ s₀ s) :
    KeptO κ s₀ (execGroupMembersWrite cl g mask s) := by
  unfold execGroupMembersWrite
  repeat' first
    | intro _ | with_reducible apply kept_next | with_reducible refine kept_serveWrite ?_ ?_ (by first | exact .inl (by decide) | exact .inr Fact.out)
    | with_reducible apply kept_writeMembers | with_reducible apply kept_ite | split | dsimp only
    | with_reducible assumption | refine kept_fst (by assumption) ?_ | refine kept_snd (by assumption) ?_
    | exact rfl | assumption

theorem kept_writeRealign [κ.Out .events] [κ.Out .bonding] [κ.Out .housekeeping] [κ.Out .captures] {s₀ : State}
    {g : Nat} {s : State} (h : Kept κ s₀ s) :
    Kept κ s₀ (writeRealign g s).1 := by
  unfold writeRealign
  repeat' first
    | intro _ | with_reducible apply kept_realign | with_reducible apply kept_ite
    | with_reducible apply kept_ite_fst | split | dsimp only | with_reducible assumption
    | refine kept_fst (by assumption) ?_ | refine kept_snd (by assumption) ?_ | exact rfl | assumption

theorem kept_execGroupRealign [κ.Out .events] [κ.Out .management] [κ.Out .bonding] [κ.Out .housekeeping]
    [κ.Out .captures] {s₀ : State} {cl : Client} {g : Fin 6} {s : State} (h : Kept κ s₀ s) :
    KeptO κ s₀ (execGroupRealign cl g s) := by
  unfold execGroupRealign
  repeat' first
    | intro _ | with_reducible apply kept_next | with_reducible refine kept_serveWrite ?_ ?_ (by first | exact .inl (by decide) | exact .inr Fact.out)
    | with_reducible apply kept_writeRealign | with_reducible apply kept_ite | split | dsimp only
    | with_reducible assumption | refine kept_fst (by assumption) ?_ | refine kept_snd (by assumption) ?_
    | exact rfl | assumption

theorem kept_writePolicy [κ.Out .events] [κ.Out .settings] [κ.Out .bonding] [κ.Out .housekeeping] [κ.Out .captures]
    {s₀ s : State} {g : Nat} {v : Int} (h : Kept κ s₀ s) :
    Kept κ s₀ (writePolicy g v s).1 := by
  unfold writePolicy
  repeat' first
    | intro _ | with_reducible apply kept_set | with_reducible apply kept_realign | with_reducible apply kept_ite
    | with_reducible apply kept_ite_fst | split | dsimp only | with_reducible assumption
    | refine kept_fst (by assumption) ?_ | refine kept_snd (by assumption) ?_ | exact rfl | assumption
    | exact (Fact.out : κ .settings = false)

end Sys2Proof.Laws
end

