-- ==== Sys2Proof/Laws/Kept/Rows.lean ====
section
/-! SUPPORT. Every operation of Machine/Rows.lean keeps (Laws/Kept.lean). -/

set_option Elab.async false
set_option linter.unusedTactic false
set_option linter.unreachableTactic false
set_option linter.unusedVariables false

namespace Sys2Proof.Laws

open Sys2Proof.Machine

variable {κ : Scope}

theorem kept_reloadTables [κ.Out .integrity] {s₀ s : State} (h : Kept κ s₀ s) :
    Kept κ s₀ (State.reloadTables s) := by
  unfold State.reloadTables
  repeat' first
    | intro _ | with_reducible apply kept_each | with_reducible apply kept_set | with_reducible apply kept_ite
    | split | dsimp only | with_reducible assumption | refine kept_fst (by assumption) ?_
    | refine kept_snd (by assumption) ?_ | exact rfl | assumption | exact (Fact.out : κ .integrity = false)

end Sys2Proof.Laws
end

