-- ==== Sys2Proof/Laws/Kept/Frame.lean ====
section
/-! SUPPORT. Every operation of Machine/Frame.lean keeps (Laws/Kept.lean). -/

set_option Elab.async false
set_option linter.unusedTactic false
set_option linter.unreachableTactic false
set_option linter.unusedVariables false

namespace Sys2Proof.Laws

open Sys2Proof.Machine

variable {κ : Scope}

theorem kept_putStream [κ.Out .events] [κ.Out .ports] [κ.Out .flows] [κ.Out .calendar] [κ.Out .tributaries]
    [κ.Out .housekeeping] [κ.Out .custody] [κ.Out .captures] {s₀ s : State} {t : Nat} {f : Nat} {n : Nat}
    {stop : Bool} (h : Kept κ s₀ s) :
    Kept κ s₀ (State.putStream s t f n stop) := by
  unfold State.putStream
  repeat' first
    | intro _ | with_reducible apply kept_setWords | with_reducible apply kept_takeWords
    | with_reducible apply kept_ite | split | dsimp only | with_reducible assumption
    | refine kept_fst (by assumption) ?_ | refine kept_snd (by assumption) ?_ | exact rfl | assumption

theorem kept_fallDue [κ.Out .events] [κ.Out .ports] [κ.Out .flows] [κ.Out .calendar] [κ.Out .tributaries]
    [κ.Out .housekeeping] [κ.Out .custody] [κ.Out .captures] {s₀ s : State} {t : Nat} {n : Nat} (h : Kept κ s₀ s) :
    Kept κ s₀ (State.fallDue s t n) := by
  unfold State.fallDue
  repeat' first
    | intro _ | with_reducible apply kept_putStream | with_reducible apply kept_when
    | with_reducible apply kept_setFlag | with_reducible apply kept_gfpPut | with_reducible apply kept_ite | split
    | dsimp only | with_reducible assumption | refine kept_fst (by assumption) ?_
    | refine kept_snd (by assumption) ?_ | exact rfl | assumption | exact (Fact.out : κ .tributaries = false)

theorem kept_streamEnd [κ.Out .events] [κ.Out .ports] [κ.Out .flows] [κ.Out .calendar] [κ.Out .tributaries]
    [κ.Out .housekeeping] [κ.Out .custody] [κ.Out .captures] {s₀ s : State} {t : Nat} (h : Kept κ s₀ s) :
    Kept κ s₀ (State.streamEnd s t) := by
  unfold State.streamEnd
  repeat' first
    | intro _ | with_reducible apply kept_fallDue | with_reducible apply kept_set | with_reducible apply kept_ite
    | split | dsimp only | with_reducible assumption | refine kept_fst (by assumption) ?_
    | refine kept_snd (by assumption) ?_ | exact rfl | assumption | exact (Fact.out : κ .flows = false)

theorem kept_clearCredits [κ.Out .calendar] {s₀ s : State} {t : Nat} (h : Kept κ s₀ s) :
    Kept κ s₀ (State.clearCredits s t) := by
  unfold State.clearCredits
  repeat' first
    | intro _ | with_reducible apply kept_set | with_reducible apply kept_each | with_reducible apply kept_ite
    | split | dsimp only | with_reducible assumption | refine kept_fst (by assumption) ?_
    | refine kept_snd (by assumption) ?_ | exact rfl | assumption | exact (Fact.out : κ .calendar = false)

theorem kept_calTake [κ.Out .calendar] {s₀ s : State} {t : Nat} (h : Kept κ s₀ s) :
    Kept κ s₀ (State.calTake s t) := by
  unfold State.calTake
  repeat' first
    | intro _ | with_reducible apply kept_set | with_reducible apply kept_clearCredits
    | with_reducible apply kept_ite | split | dsimp only | with_reducible assumption
    | refine kept_fst (by assumption) ?_ | refine kept_snd (by assumption) ?_ | exact rfl | assumption
    | exact (Fact.out : κ .calendar = false)

theorem kept_copyUnits {s₀ s : State} {dst : Reg} {src : Reg} (h : Kept κ s₀ s)
    (hdst : κ (Safety.part dst) = false := by
      first | assumption | ((conv in Safety.part _ => whnf); exact Fact.out) | exact leaves_none _)
    (hsrc : κ (Safety.part src) = false := by
      first | assumption | ((conv in Safety.part _ => whnf); exact Fact.out) | exact leaves_none _)
    :
    Kept κ s₀ (State.copyUnits s dst src) := by
  unfold State.copyUnits
  repeat' first
    | intro _ | with_reducible apply kept_each | with_reducible apply kept_set | with_reducible apply kept_ite
    | split | dsimp only | with_reducible assumption | refine kept_fst (by assumption) ?_
    | refine kept_snd (by assumption) ?_ | exact rfl | assumption

theorem kept_calSettle [κ.Out .events] [κ.Out .calendar] [κ.Out .housekeeping] [κ.Out .captures] {s₀ s : State}
    (h : Kept κ s₀ s) :
    Kept κ s₀ (State.calSettle s) := by
  unfold State.calSettle
  repeat' first
    | intro _ | with_reducible apply kept_each | with_reducible apply kept_calTake
    | with_reducible apply kept_copyUnits | with_reducible apply kept_set | with_reducible apply kept_raise
    | with_reducible apply kept_bump | with_reducible apply kept_ite | split | dsimp only
    | with_reducible assumption | refine kept_fst (by assumption) ?_ | refine kept_snd (by assumption) ?_
    | exact rfl | assumption | exact (Fact.out : κ .calendar = false)

theorem kept_announce [κ.Out .events] [κ.Out .overhead] [κ.Out .pages] [κ.Out .housekeeping] [κ.Out .captures]
    {s₀ s : State} {c : Nat} (h : Kept κ s₀ s) :
    Kept κ s₀ (State.announce s c) := by
  unfold State.announce
  repeat' first
    | intro _ | with_reducible apply kept_set | with_reducible apply kept_pageFlip
    | with_reducible apply kept_ite | split | dsimp only | with_reducible assumption
    | refine kept_fst (by assumption) ?_ | refine kept_snd (by assumption) ?_ | exact rfl | assumption
    | exact (Fact.out : κ .overhead = false)

theorem kept_fixCm [κ.Out .flows] [κ.Out .tributaries] {s₀ s : State} {rows : List Row} {first : Bool} {t : Nat}
    (h : Kept κ s₀ s) :
    Kept κ s₀ (State.fixCm s rows first t) := by
  unfold State.fixCm
  repeat' first
    | intro _ | with_reducible apply kept_set | with_reducible apply kept_ite | split | dsimp only
    | with_reducible assumption | refine kept_fst (by assumption) ?_ | refine kept_snd (by assumption) ?_
    | exact rfl | assumption | exact (Fact.out : κ .flows = false) | exact (Fact.out : κ .tributaries = false)

theorem kept_dropWords [κ.Out .tributaries] [κ.Out .custody] {s₀ s : State} {t : Nat} {first : Bool} (h : Kept κ s₀ s) :
    Kept κ s₀ (State.dropWords s t first) := by
  unfold State.dropWords
  repeat' first
    | intro _ | with_reducible apply kept_setBlob | with_reducible apply kept_setWords
    | with_reducible apply kept_set | with_reducible apply kept_ite | split | dsimp only
    | with_reducible assumption | refine kept_fst (by assumption) ?_ | refine kept_snd (by assumption) ?_
    | exact rfl | assumption | exact (Fact.out : κ .tributaries = false) | exact (Fact.out : κ .custody = false)

theorem kept_lineBoundary [κ.Out .txLine] {s₀ s : State} {c : Nat} {first : Bool} (h : Kept κ s₀ s) :
    Kept κ s₀ (State.lineBoundary s c first) := by
  unfold State.lineBoundary
  repeat' first
    | intro _ | with_reducible apply kept_setTx | with_reducible apply kept_ite | split | dsimp only
    | with_reducible assumption | with_reducible apply kept_free | refine kept_fst (by assumption) ?_
    | refine kept_snd (by assumption) ?_ | exact rfl | assumption

theorem kept_txBoundary [κ.Out .events] [κ.Out .txLine] [κ.Out .overhead] [κ.Out .ports] [κ.Out .flows]
    [κ.Out .calendar] [κ.Out .pages] [κ.Out .tributaries] [κ.Out .cores] [κ.Out .bindings] [κ.Out .housekeeping]
    [κ.Out .pair] [κ.Out .integrity] [κ.Out .custody] [κ.Out .captures] {s₀ s : State} {c : Nat}
    {l : List StreamReading} (h : Kept κ s₀ s) :
    Kept κ s₀ (State.txBoundary s c l) := by
  unfold State.txBoundary
  repeat' first
    | intro _ | with_reducible apply kept_reloadTables | with_reducible apply kept_pageSettle
    | with_reducible apply kept_each | with_reducible apply kept_streamEnd | with_reducible apply kept_readWords
    | with_reducible apply kept_announce | with_reducible apply kept_calTake | with_reducible apply kept_calSettle
    | with_reducible apply kept_bindingsTake | with_reducible apply kept_dropWords
    | with_reducible apply kept_lineBoundary | with_reducible apply kept_set | with_reducible apply kept_fixCm
    | with_reducible apply kept_tieSend | with_reducible apply kept_ite | split | dsimp only
    | with_reducible assumption | refine kept_fst (by assumption) ?_ | refine kept_snd (by assumption) ?_
    | exact rfl | assumption | exact (Fact.out : κ .overhead = false)

theorem kept_execTxMultiframeBoundary [κ.Out .events] [κ.Out .txLine] [κ.Out .overhead] [κ.Out .ports] [κ.Out .flows]
    [κ.Out .calendar] [κ.Out .pages] [κ.Out .tributaries] [κ.Out .cores] [κ.Out .bindings] [κ.Out .housekeeping]
    [κ.Out .snapshots] [κ.Out .pair] [κ.Out .integrity] [κ.Out .custody] [κ.Out .captures]
    {s₀ : State} {c : Fin 12}
    {l : List StreamReading} {s : State} (h : Kept κ s₀ s) :
    KeptO κ s₀ (execTxMultiframeBoundary c l s) := by
  unfold execTxMultiframeBoundary
  repeat' first
    | intro _ | with_reducible apply kept_next | with_reducible apply kept_live
    | with_reducible apply kept_txBoundary | with_reducible apply kept_ite | split | dsimp only
    | with_reducible assumption | refine kept_fst (by assumption) ?_ | refine kept_snd (by assumption) ?_
    | exact rfl | assumption

theorem kept_portTake [κ.Out .overhead] {s₀ s : State} {c : Nat} (h : Kept κ s₀ s) :
    Kept κ s₀ (State.portTake s c) := by
  unfold State.portTake
  repeat' first
    | intro _ | with_reducible apply kept_set | with_reducible apply kept_setBlob
    | with_reducible apply kept_ite | split | dsimp only | with_reducible assumption
    | refine kept_fst (by assumption) ?_ | refine kept_snd (by assumption) ?_ | exact rfl | assumption
    | exact (Fact.out : κ .overhead = false)

theorem kept_frameOut [κ.Out .events] [κ.Out .txLine] [κ.Out .ports] [κ.Out .flows] [κ.Out .calendar]
    [κ.Out .tributaries] [κ.Out .housekeeping] [κ.Out .custody] [κ.Out .captures] {s₀ s : State} {c : Nat}
    {head : FrameHead} (h : Kept κ s₀ s) :
    Kept κ s₀ (State.frameOut s c head) := by
  unfold State.frameOut
  repeat' first
    | intro _ | with_reducible apply kept_each | with_reducible apply kept_fallDue
    | with_reducible apply kept_setTx | with_reducible apply kept_ite | split | dsimp only
    | with_reducible assumption | refine kept_fst (by assumption) ?_ | refine kept_snd (by assumption) ?_
    | exact rfl | assumption

theorem kept_gccTake [κ.Out .overhead] {s₀ s : State} {c : Nat} {gcc : List Byte} (h : Kept κ s₀ s) :
    Kept κ s₀ (State.gccTake s c gcc) := by
  unfold State.gccTake
  repeat' first
    | intro _ | with_reducible apply kept_portTake | with_reducible apply kept_setBlob
    | with_reducible apply kept_bump | with_reducible apply kept_ite | split | dsimp only
    | with_reducible assumption | refine kept_fst (by assumption) ?_ | refine kept_snd (by assumption) ?_
    | exact rfl | assumption | exact (Fact.out : κ .overhead = false)

theorem kept_txLogical [κ.Out .events] [κ.Out .txLine] [κ.Out .overhead] [κ.Out .ports] [κ.Out .flows]
    [κ.Out .calendar] [κ.Out .tributaries] [κ.Out .housekeeping] [κ.Out .custody] [κ.Out .captures] {s₀ s : State}
    {c : Nat} {gcc : Vector Byte 10} (h : Kept κ s₀ s) :
    Kept κ s₀ (State.txLogical s c gcc) := by
  unfold State.txLogical
  repeat' first
    | intro _ | with_reducible apply kept_gccTake | with_reducible apply kept_set
    | with_reducible apply kept_setBlob | with_reducible apply kept_frameOut | with_reducible apply kept_emit
    | with_reducible apply kept_ite | split | dsimp only | with_reducible assumption
    | refine kept_fst (by assumption) ?_ | refine kept_snd (by assumption) ?_ | exact rfl | assumption
    | exact (Fact.out : κ .overhead = false)

theorem kept_execOhpInBurst [κ.Out .events] [κ.Out .txLine] [κ.Out .overhead] [κ.Out .ports] [κ.Out .flows]
    [κ.Out .calendar] [κ.Out .tributaries] [κ.Out .housekeeping] [κ.Out .custody] [κ.Out .captures]
    {s₀ : State} {c : Fin 12} {gcc : Vector Byte 10} {s : State}
    (h : Kept κ s₀ s) :
    KeptO κ s₀ (execOhpInBurst c gcc s) := by
  unfold execOhpInBurst
  repeat' first
    | intro _ | with_reducible apply kept_next | with_reducible apply kept_live
    | with_reducible apply kept_txLogical | with_reducible apply kept_ite | split | dsimp only
    | with_reducible assumption | refine kept_fst (by assumption) ?_ | refine kept_snd (by assumption) ?_
    | exact rfl | assumption

theorem kept_burstOut [κ.Out .overhead] {s₀ s : State} {c : Nat} (h : Kept κ s₀ s) :
    Kept κ s₀ (State.burstOut s c) := by
  unfold State.burstOut
  repeat' first
    | intro _ | with_reducible apply kept_emit | with_reducible apply kept_bump
    | with_reducible apply kept_setBlob | with_reducible apply kept_ite | split | dsimp only
    | with_reducible assumption | refine kept_fst (by assumption) ?_ | refine kept_snd (by assumption) ?_
    | exact rfl | assumption | exact (Fact.out : κ .overhead = false)

theorem kept_execOhpOutBurst [κ.Out .overhead] {s₀ : State} {c : Fin 12} {s : State} (h : Kept κ s₀ s) :
    KeptO κ s₀ (execOhpOutBurst c s) := by
  unfold execOhpOutBurst
  repeat' first
    | intro _ | with_reducible apply kept_next | with_reducible apply kept_live
    | with_reducible apply kept_burstOut | with_reducible apply kept_ite | split | dsimp only
    | with_reducible assumption | refine kept_fst (by assumption) ?_ | refine kept_snd (by assumption) ?_
    | exact rfl | assumption

theorem kept_judge [κ.Out .defects] {s₀ s : State} {c : Nat} {bit : Nat} {run : Reg} {yes : Bool} {n : Int}
    {m : Int} (h : Kept κ s₀ s)
    (hrun : κ (Safety.part run) = false := by
      first | assumption | ((conv in Safety.part _ => whnf); exact Fact.out) | exact leaves_none _)
    :
    Kept κ s₀ (State.judge s c bit run yes n m) := by
  unfold State.judge
  repeat' first
    | intro _ | with_reducible apply kept_setRaw | with_reducible apply kept_set | with_reducible apply kept_ite
    | split | dsimp only | with_reducible assumption | refine kept_fst (by assumption) ?_
    | refine kept_snd (by assumption) ?_ | exact rfl | assumption

theorem kept_judgeNow [κ.Out .defects] {s₀ s : State} {c : Nat} {bit : Nat} {yes : Bool} (h : Kept κ s₀ s) :
    Kept κ s₀ (State.judgeNow s c bit yes) := by
  unfold State.judgeNow
  repeat' first
    | intro _ | with_reducible apply kept_setRaw | with_reducible apply kept_ite | split | dsimp only
    | with_reducible assumption | refine kept_fst (by assumption) ?_ | refine kept_snd (by assumption) ?_
    | exact rfl | assumption

theorem kept_fnumEval [κ.Out .defects] [κ.Out .overhead] {s₀ s : State} {c : Nat} {fnum : Nat} (h : Kept κ s₀ s) :
    Kept κ s₀ (State.fnumEval s c fnum) := by
  unfold State.fnumEval
  repeat' first
    | intro _ | with_reducible apply kept_judge | with_reducible apply kept_next | with_reducible apply kept_set
    | with_reducible apply kept_ite | split | dsimp only | with_reducible assumption
    | refine kept_fst (by assumption) ?_ | refine kept_snd (by assumption) ?_ | exact rfl | assumption
    | exact (Fact.out : κ .defects = false) | exact (Fact.out : κ .overhead = false)

theorem kept_traceEval [κ.Out .defects] [κ.Out .overhead] {s₀ s : State} {c : Nat} {fnum : Nat} {b : Byte}
    (h : Kept κ s₀ s) :
    Kept κ s₀ (State.traceEval s c fnum b) := by
  unfold State.traceEval
  extract_lets x1 x2 x3 x4 x5
  have k3 : Kept κ s₀ x3 := by
    unfold x3
    repeat' first
      | intro _ | with_reducible apply kept_when | with_reducible apply kept_set
      | with_reducible apply kept_setBlob | with_reducible apply kept_judgeNow | with_reducible apply kept_ite
      | split | dsimp only | with_reducible assumption | refine kept_fst (by assumption) ?_
      | refine kept_snd (by assumption) ?_ | exact rfl | assumption | exact (Fact.out : κ .overhead = false)
  clear_value x3
  have k5 : Kept κ s₀ x5 := by
    unfold x5
    repeat' first
      | intro _ | with_reducible apply kept_when | with_reducible apply kept_set
      | with_reducible apply kept_setBlob | with_reducible apply kept_judgeNow | with_reducible apply kept_ite
      | split | dsimp only | with_reducible assumption | refine kept_fst (by assumption) ?_
      | refine kept_snd (by assumption) ?_ | exact rfl | assumption | exact (Fact.out : κ .overhead = false)
  clear_value x5
  repeat' first
    | intro _ | with_reducible apply kept_when | with_reducible apply kept_set | with_reducible apply kept_setBlob
    | with_reducible apply kept_judgeNow | with_reducible apply kept_ite | split | dsimp only
    | with_reducible assumption | refine kept_fst (by assumption) ?_ | refine kept_snd (by assumption) ?_
    | exact rfl | assumption | exact (Fact.out : κ .overhead = false)

theorem kept_wordIn [κ.Out .rxLine] [κ.Out .tributaries] {s₀ s : State} {c : Nat} {e : Nat × Nat × Bool}
    (h : Kept κ s₀ s) :
    Kept κ s₀ (State.wordIn s c e) := by
  unfold State.wordIn
  repeat' first
    | intro _ | with_reducible apply kept_setRx | with_reducible apply kept_setRxTrib
    | with_reducible apply kept_ite | split | dsimp only | with_reducible assumption
    | refine kept_fst (by assumption) ?_ | refine kept_snd (by assumption) ?_ | exact rfl | assumption

theorem kept_hearFrame [κ.Out .rxLine] [κ.Out .tributaries] {s₀ s : State} {c : Nat} {f : Nat}
    {bits : List (Bool × Bool)} (h : Kept κ s₀ s) :
    Kept κ s₀ (State.hearFrame s c f bits) := by
  unfold State.hearFrame
  repeat' first
    | intro _ | with_reducible apply kept_setRx | with_reducible apply kept_each | with_reducible apply kept_wordIn
    | with_reducible apply kept_ite | split | dsimp only | with_reducible assumption
    | refine kept_fst (by assumption) ?_ | refine kept_snd (by assumption) ?_ | exact rfl | assumption

theorem kept_lineFrameIn [κ.Out .rxLine] {s₀ s : State} {c : Nat} {given : List Bool} (h : Kept κ s₀ s) :
    Kept κ s₀ (State.lineFrameIn s c given).1 := by
  unfold State.lineFrameIn
  repeat' first
    | intro _ | with_reducible apply kept_setRx | with_reducible apply kept_ite | with_reducible apply kept_ite_fst
    | split | dsimp only | with_reducible assumption | refine kept_fst (by assumption) ?_
    | refine kept_snd (by assumption) ?_ | exact rfl | assumption

theorem kept_gccIn [κ.Out .overhead] {s₀ s : State} {c : Nat} {gcc : List Byte} (h : Kept κ s₀ s) :
    Kept κ s₀ (State.gccIn s c gcc) := by
  unfold State.gccIn
  repeat' first
    | intro _ | with_reducible apply kept_setBlob | with_reducible apply kept_bump | with_reducible apply kept_ite
    | split | dsimp only | with_reducible assumption | refine kept_fst (by assumption) ?_
    | refine kept_snd (by assumption) ?_ | exact rfl | assumption | exact (Fact.out : κ .overhead = false)

theorem kept_rxOtuc [κ.Out .defects] [κ.Out .overhead] {s₀ s : State} {c : Nat} {m : OtucReading} (h : Kept κ s₀ s) :
    Kept κ s₀ (State.rxOtuc s c m) := by
  unfold State.rxOtuc
  extract_lets x1 x2 x3
  have k1 : Kept κ s₀ x1 := by
    unfold x1
    repeat' first
      | intro _ | with_reducible apply kept_portTake | with_reducible apply kept_judgeNow
      | with_reducible apply kept_bump | with_reducible apply kept_judge | with_reducible apply kept_traceEval
      | with_reducible apply kept_gccIn | with_reducible apply kept_ite | split | dsimp only
      | with_reducible assumption | refine kept_fst (by assumption) ?_ | refine kept_snd (by assumption) ?_
      | exact rfl | assumption | exact (Fact.out : κ .defects = false) | exact (Fact.out : κ .overhead = false)
  clear_value x1
  have k2 : Kept κ s₀ x2 := by
    unfold x2
    repeat' first
      | intro _ | with_reducible apply kept_portTake | with_reducible apply kept_judgeNow
      | with_reducible apply kept_bump | with_reducible apply kept_judge | with_reducible apply kept_traceEval
      | with_reducible apply kept_gccIn | with_reducible apply kept_ite | split | dsimp only
      | with_reducible assumption | refine kept_fst (by assumption) ?_ | refine kept_snd (by assumption) ?_
      | exact rfl | assumption | exact (Fact.out : κ .defects = false) | exact (Fact.out : κ .overhead = false)
  clear_value x2
  have k3 : Kept κ s₀ x3 := by
    unfold x3
    repeat' first
      | intro _ | with_reducible apply kept_portTake | with_reducible apply kept_judgeNow
      | with_reducible apply kept_bump | with_reducible apply kept_judge | with_reducible apply kept_traceEval
      | with_reducible apply kept_gccIn | with_reducible apply kept_ite | split | dsimp only
      | with_reducible assumption | refine kept_fst (by assumption) ?_ | refine kept_snd (by assumption) ?_
      | exact rfl | assumption | exact (Fact.out : κ .defects = false) | exact (Fact.out : κ .overhead = false)
  clear_value x3
  repeat' first
    | intro _ | with_reducible apply kept_portTake | with_reducible apply kept_judgeNow
    | with_reducible apply kept_bump | with_reducible apply kept_judge | with_reducible apply kept_traceEval
    | with_reducible apply kept_gccIn | with_reducible apply kept_ite | split | dsimp only
    | with_reducible assumption | refine kept_fst (by assumption) ?_ | refine kept_snd (by assumption) ?_
    | exact rfl | assumption | exact (Fact.out : κ .defects = false) | exact (Fact.out : κ .overhead = false)

theorem kept_rxLogical [κ.Out .rxLine] [κ.Out .defects] [κ.Out .overhead] [κ.Out .tributaries] {s₀ s : State}
    {c : Nat} {x : LineFrameReading} (h : Kept κ s₀ s) :
    Kept κ s₀ (State.rxLogical s c x) := by
  unfold State.rxLogical
  repeat' first
    | intro _ | with_reducible apply kept_rxOtuc | with_reducible apply kept_lineFrameIn
    | with_reducible apply kept_portTake | with_reducible apply kept_fnumEval | with_reducible apply kept_hearFrame
    | with_reducible apply kept_bump | with_reducible apply kept_set | with_reducible apply kept_judge
    | with_reducible apply kept_traceEval | with_reducible apply kept_gccIn | with_reducible apply kept_ite | split
    | dsimp only | with_reducible assumption | refine kept_fst (by assumption) ?_
    | refine kept_snd (by assumption) ?_ | exact rfl | assumption | exact (Fact.out : κ .defects = false)
    | exact (Fact.out : κ .overhead = false)

theorem kept_execRxLogicalFrame [κ.Out .rxLine] [κ.Out .defects] [κ.Out .overhead] [κ.Out .tributaries] {s₀ s : State}
    {c : Fin 12} {m : LineFrameReading} (h : Kept κ s₀ s) :
    KeptO κ s₀ (execRxLogicalFrame c m s) := by
  unfold execRxLogicalFrame
  repeat' first
    | intro _ | with_reducible apply kept_live | with_reducible apply kept_rxLogical
    | with_reducible apply kept_ite | split | dsimp only | with_reducible assumption
    | refine kept_fst (by assumption) ?_ | refine kept_snd (by assumption) ?_ | exact rfl | assumption

theorem kept_slotsEval [κ.Out .events] [κ.Out .overhead] [κ.Out .housekeeping] [κ.Out .captures] {s₀ s : State}
    {c : Nat} {slots : List (Nat × List (BitVec 64))} (h : Kept κ s₀ s) :
    Kept κ s₀ (State.slotsEval s c slots) := by
  unfold State.slotsEval
  repeat' first
    | intro _ | with_reducible apply kept_bump | with_reducible apply kept_raise | with_reducible apply kept_set
    | with_reducible apply kept_ite | split | dsimp only | with_reducible assumption
    | refine kept_fst (by assumption) ?_ | refine kept_snd (by assumption) ?_ | exact rfl | assumption
    | exact (Fact.out : κ .overhead = false)

theorem kept_overheadTake [κ.Out .events] [κ.Out .overhead] [κ.Out .tributaries] [κ.Out .crypt] [κ.Out .housekeeping]
    [κ.Out .captures] {s₀ s : State} {c : Nat} {t : Nat} {copies : List Nat} (h : Kept κ s₀ s) :
    Kept κ s₀ (State.overheadTake s c t copies) := by
  unfold State.overheadTake
  repeat' first
    | intro _ | with_reducible apply kept_set | with_reducible apply kept_bump | with_reducible apply kept_raise
    | with_reducible apply kept_csfRun | with_reducible apply kept_setFlag | with_reducible apply kept_ite | split
    | dsimp only | with_reducible assumption | refine kept_fst (by assumption) ?_
    | refine kept_snd (by assumption) ?_ | exact rfl | assumption | exact (Fact.out : κ .overhead = false)
    | exact (Fact.out : κ .tributaries = false) | exact (Fact.out : κ .crypt = false)

theorem kept_followFlip [κ.Out .events] [κ.Out .overhead] [κ.Out .pages] [κ.Out .housekeeping] [κ.Out .captures]
    {s₀ s : State} {c : Nat} {late : Bool} (h : Kept κ s₀ s) :
    Kept κ s₀ (State.followFlip s c late) := by
  unfold State.followFlip
  repeat' first
    | intro _ | with_reducible apply kept_set | with_reducible apply kept_pageFlip
    | with_reducible apply kept_bump | with_reducible apply kept_ite | split | dsimp only
    | with_reducible assumption | refine kept_fst (by assumption) ?_ | refine kept_snd (by assumption) ?_
    | exact rfl | assumption | exact (Fact.out : κ .overhead = false) | exact (Fact.out : κ .pages = false)

theorem kept_rxPages [κ.Out .events] [κ.Out .overhead] [κ.Out .pages] [κ.Out .housekeeping] [κ.Out .captures]
    {s₀ s : State} {c : Nat} {m : RxMulti} (h : Kept κ s₀ s) :
    Kept κ s₀ (State.rxPages s c m) := by
  unfold State.rxPages
  repeat' first
    | intro _ | with_reducible apply kept_set | with_reducible apply kept_pageFlip
    | with_reducible apply kept_followFlip | with_reducible apply kept_ite | split | dsimp only
    | with_reducible assumption | refine kept_fst (by assumption) ?_ | refine kept_snd (by assumption) ?_
    | exact rfl | assumption | exact (Fact.out : κ .overhead = false)

theorem kept_phaseEval [κ.Out .rxLine] [κ.Out .coding] [κ.Out .overhead] {s₀ s : State} {c : Nat} {w : Nat}
    (h : Kept κ s₀ s) :
    Kept κ s₀ (State.phaseEval s c w) := by
  unfold State.phaseEval
  repeat' first
    | intro _ | with_reducible apply kept_next | with_reducible apply kept_set | with_reducible apply kept_bump
    | with_reducible apply kept_setRx | with_reducible apply kept_ite | split | dsimp only
    | with_reducible assumption | refine kept_fst (by assumption) ?_ | refine kept_snd (by assumption) ?_
    | exact rfl | assumption | exact (Fact.out : κ .coding = false) | exact (Fact.out : κ .overhead = false)

theorem kept_rowsTake [κ.Out .events] [κ.Out .ports] [κ.Out .flows] [κ.Out .tributaries] [κ.Out .housekeeping]
    [κ.Out .captures] {s₀ s : State} {l : List Nat} (h : Kept κ s₀ s) :
    Kept κ s₀ (State.rowsTake s l) := by
  unfold State.rowsTake
  repeat' first
    | intro _ | with_reducible apply kept_each | with_reducible apply kept_dropTribQueue
    | with_reducible apply kept_setEgress | with_reducible apply kept_set | with_reducible apply kept_ite | split
    | dsimp only | with_reducible assumption | refine kept_fst (by assumption) ?_
    | refine kept_snd (by assumption) ?_ | exact rfl | assumption | exact (Fact.out : κ .tributaries = false)

theorem kept_advance [κ.Out .carriers] {s₀ s : State} {c : Nat} (h : Kept κ s₀ s) :
    Kept κ s₀ (State.advance s c) := by
  unfold State.advance
  repeat' first
    | intro _ | with_reducible apply kept_setCarrierState | with_reducible apply kept_ite | split | dsimp only
    | with_reducible assumption | refine kept_fst (by assumption) ?_ | refine kept_snd (by assumption) ?_
    | exact rfl | assumption

theorem kept_multiframeDefects [κ.Out .defects] [κ.Out .tributaries] {s₀ s : State} {c : Nat} (h : Kept κ s₀ s) :
    Kept κ s₀ (State.multiframeDefects s c) := by
  unfold State.multiframeDefects
  repeat' first
    | intro _ | with_reducible apply kept_judgeNow | with_reducible apply kept_set | with_reducible apply kept_each
    | with_reducible apply kept_csfRun | with_reducible apply kept_setRaw | with_reducible apply kept_ite | split
    | dsimp only | with_reducible assumption | refine kept_fst (by assumption) ?_
    | refine kept_snd (by assumption) ?_ | exact rfl | assumption | exact (Fact.out : κ .defects = false)

theorem kept_deliveryEval [κ.Out .pair] {s₀ s : State} {c : Nat} {bsq : Int} (h : Kept κ s₀ s) :
    Kept κ s₀ (State.deliveryEval s c bsq) := by
  unfold State.deliveryEval
  repeat' first
    | intro _ | with_reducible apply kept_set | with_reducible apply kept_tieSend
    | with_reducible apply kept_ite | split | dsimp only | with_reducible assumption
    | refine kept_fst (by assumption) ?_ | refine kept_snd (by assumption) ?_ | exact rfl | assumption
    | exact (Fact.out : κ .pair = false)

theorem kept_slotsTake [κ.Out .events] [κ.Out .overhead] [κ.Out .tributaries] [κ.Out .crypt] [κ.Out .housekeeping]
    [κ.Out .captures] {s₀ s : State} {c : Nat} {slots : List (Nat × List (BitVec 64))} (h : Kept κ s₀ s) :
    Kept κ s₀ (State.slotsTake s c slots) := by
  unfold State.slotsTake
  repeat' first
    | intro _ | with_reducible apply kept_slotsEval | with_reducible apply kept_each
    | with_reducible apply kept_overheadTake | with_reducible apply kept_ite | split | dsimp only
    | with_reducible assumption | refine kept_fst (by assumption) ?_ | refine kept_snd (by assumption) ?_
    | exact rfl | assumption

theorem kept_openShare [κ.Out .tributaries] {s₀ s : State} {t : Nat} (h : Kept κ s₀ s) :
    Kept κ s₀ (State.openShare s t) := by
  unfold State.openShare
  repeat' first
    | intro _ | with_reducible apply kept_setRxTrib | with_reducible apply kept_ite | split | dsimp only
    | with_reducible assumption | refine kept_fst (by assumption) ?_ | refine kept_snd (by assumption) ?_
    | exact rfl | assumption

theorem kept_stow [κ.Out .rxLine] {s₀ s : State} {c : Nat} {bsq : Option Nat} (h : Kept κ s₀ s) :
    Kept κ s₀ (State.stow s c bsq) := by
  unfold State.stow
  repeat' first
    | intro _ | with_reducible apply kept_setRx | with_reducible apply kept_ite | split | dsimp only
    | with_reducible assumption | refine kept_fst (by assumption) ?_ | refine kept_snd (by assumption) ?_
    | exact rfl | assumption

theorem kept_boundaryBonds [κ.Out .events] [κ.Out .bonding] [κ.Out .housekeeping] [κ.Out .pair] [κ.Out .captures]
    {s₀ s : State} {c : Nat} {bsq : Option Nat} (h : Kept κ s₀ s) :
    Kept κ s₀ (State.boundaryBonds s c bsq) := by
  unfold State.boundaryBonds
  repeat' first
    | intro _ | with_reducible apply kept_bondBoundary | with_reducible apply kept_deliveryEval
    | with_reducible apply kept_ite | split | dsimp only | with_reducible assumption
    | refine kept_fst (by assumption) ?_ | refine kept_snd (by assumption) ?_ | exact rfl | assumption

theorem kept_rxBoundaryCompatible [κ.Out .events] [κ.Out .carriers] [κ.Out .defects] [κ.Out .overhead] [κ.Out .pages]
    [κ.Out .tributaries] [κ.Out .housekeeping] [κ.Out .integrity] [κ.Out .captures] {s₀ s : State} {c : Nat}
    (h : Kept κ s₀ s) :
    Kept κ s₀ (State.rxBoundaryCompatible s c) := by
  unfold State.rxBoundaryCompatible
  repeat' first
    | intro _ | with_reducible apply kept_reloadTables | with_reducible apply kept_pageSettle
    | with_reducible apply kept_advance | with_reducible apply kept_multiframeDefects
    | with_reducible apply kept_ite | split | dsimp only | with_reducible assumption
    | refine kept_fst (by assumption) ?_ | refine kept_snd (by assumption) ?_ | exact rfl | assumption

theorem kept_rxBoundary [κ.Out .events] [κ.Out .carriers] [κ.Out .rxLine] [κ.Out .coding] [κ.Out .defects]
    [κ.Out .overhead] [κ.Out .ports] [κ.Out .flows] [κ.Out .pages] [κ.Out .tributaries] [κ.Out .bonding]
    [κ.Out .cores] [κ.Out .bindings] [κ.Out .crypt] [κ.Out .housekeeping] [κ.Out .pair] [κ.Out .integrity]
    [κ.Out .captures] {s₀ s : State} {c : Nat} {m : RxMultiframe} (h : Kept κ s₀ s) :
    Kept κ s₀ (State.rxBoundary s c m) := by
  unfold State.rxBoundary
  repeat' first
    | intro _ | with_reducible apply kept_rxBoundaryCompatible | with_reducible apply kept_reloadTables
    | with_reducible apply kept_rxPages | with_reducible apply kept_advance | with_reducible apply kept_slotsTake
    | with_reducible apply kept_setRx | with_reducible apply kept_phaseEval
    | with_reducible apply kept_bindingsTake | with_reducible apply kept_rowsTake
    | with_reducible apply kept_multiframeDefects | with_reducible apply kept_boundaryBonds
    | with_reducible apply kept_stow | with_reducible apply kept_set | with_reducible apply kept_each
    | with_reducible apply kept_openShare | with_reducible apply kept_ite | split | dsimp only
    | with_reducible assumption | with_reducible apply kept_phase | refine kept_fst (by assumption) ?_
    | refine kept_snd (by assumption) ?_ | exact rfl | assumption | exact (Fact.out : κ .phase = false)
    | exact (Fact.out : κ .overhead = false) | exact (Fact.out : κ .bonding = false)

theorem kept_execRxMultiframeBoundary [κ.Out .events] [κ.Out .carriers] [κ.Out .rxLine] [κ.Out .coding]
    [κ.Out .defects] [κ.Out .overhead] [κ.Out .ports] [κ.Out .flows] [κ.Out .pages] [κ.Out .tributaries]
    [κ.Out .bonding] [κ.Out .cores] [κ.Out .bindings] [κ.Out .crypt] [κ.Out .housekeeping] [κ.Out .pair]
    [κ.Out .integrity] [κ.Out .captures]
    {s₀ : State} {c : Fin 12} {m : RxMultiframe} {s : State} (h : Kept κ s₀ s) :
    KeptO κ s₀ (execRxMultiframeBoundary c m s) := by
  unfold execRxMultiframeBoundary
  repeat' first
    | intro _ | with_reducible apply kept_next | with_reducible apply kept_live
    | with_reducible apply kept_rxBoundary | with_reducible apply kept_ite | split | dsimp only
    | with_reducible assumption | refine kept_fst (by assumption) ?_ | refine kept_snd (by assumption) ?_
    | exact rfl | assumption

theorem kept_rebuild [κ.Out .tributaries] {s₀ s : State} {x : Nat} {t : Nat} (h : Kept κ s₀ s) :
    Kept κ s₀ (State.rebuild s x t) := by
  unfold State.rebuild
  repeat' first
    | intro _ | with_reducible apply kept_setRxTrib | with_reducible apply kept_ite | split | dsimp only
    | with_reducible assumption | refine kept_fst (by assumption) ?_ | refine kept_snd (by assumption) ?_
    | exact rfl | assumption

theorem kept_release [κ.Out .events] [κ.Out .rxLine] [κ.Out .overhead] [κ.Out .tributaries] [κ.Out .bonding]
    [κ.Out .crypt] [κ.Out .housekeeping] [κ.Out .captures] {s₀ s : State} {g : Nat}
    {slots : List (Nat × List (BitVec 64))} (h : Kept κ s₀ s) :
    Kept κ s₀ (State.release s g slots) := by
  unfold State.release
  repeat' first
    | intro _ | with_reducible apply kept_each | with_reducible apply kept_set | with_reducible apply kept_next
    | with_reducible apply kept_rebuild | with_reducible apply kept_setRx | with_reducible apply kept_overheadTake
    | with_reducible apply kept_ite | split | dsimp only | with_reducible assumption
    | refine kept_fst (by assumption) ?_ | refine kept_snd (by assumption) ?_ | exact rfl | assumption
    | exact (Fact.out : κ .bonding = false)

theorem kept_execBoathouseRelease [κ.Out .events] [κ.Out .rxLine] [κ.Out .overhead] [κ.Out .tributaries]
    [κ.Out .bonding] [κ.Out .crypt] [κ.Out .housekeeping] [κ.Out .captures]
    {s₀ : State} {g : Fin 6}
    {slots : List (Nat × List (BitVec 64))} {s : State} (h : Kept κ s₀ s) :
    KeptO κ s₀ (execBoathouseRelease g slots s) := by
  unfold execBoathouseRelease
  repeat' first
    | intro _ | with_reducible apply kept_next | with_reducible apply kept_live
    | with_reducible apply kept_release | with_reducible apply kept_ite | split | dsimp only
    | with_reducible assumption | refine kept_fst (by assumption) ?_ | refine kept_snd (by assumption) ?_
    | exact rfl | assumption

theorem kept_writeFlip [κ.Out .events] [κ.Out .overhead] [κ.Out .pages] [κ.Out .housekeeping] [κ.Out .captures]
    {s₀ : State} {dir : Nat} {v : Int} {s : State} (h : Kept κ s₀ s) :
    Kept κ s₀ (writeFlip dir v s).1 := by
  unfold writeFlip
  repeat' first
    | intro _ | with_reducible apply kept_set | with_reducible apply kept_each
    | with_reducible apply kept_setBit | with_reducible apply kept_pageFlip | with_reducible apply kept_ite
    | with_reducible apply kept_ite_fst | split | dsimp only | with_reducible assumption
    | refine kept_fst (by assumption) ?_ | refine kept_snd (by assumption) ?_ | exact rfl | assumption
    | exact (Fact.out : κ .overhead = false) | exact (Fact.out : κ .pages = false)

theorem kept_execTxPageFlip [κ.Out .events] [κ.Out .management] [κ.Out .overhead] [κ.Out .pages]
    [κ.Out .housekeeping] [κ.Out .captures] {s₀ : State} {cl : Client} {mask : Fin 65536} {s : State}
    (h : Kept κ s₀ s) :
    KeptO κ s₀ (execTxPageFlip cl mask s) := by
  unfold execTxPageFlip
  repeat' first
    | intro _ | with_reducible apply kept_next | with_reducible refine kept_serveWrite ?_ ?_ (by first | exact .inl (by decide) | exact .inr Fact.out)
    | with_reducible apply kept_writeFlip | with_reducible apply kept_ite | split | dsimp only
    | with_reducible assumption | refine kept_fst (by assumption) ?_ | refine kept_snd (by assumption) ?_
    | exact rfl | assumption

theorem kept_execRxPageFlip [κ.Out .events] [κ.Out .management] [κ.Out .overhead] [κ.Out .pages]
    [κ.Out .housekeeping] [κ.Out .captures] {s₀ : State} {cl : Client} {mask : Fin 65536} {s : State}
    (h : Kept κ s₀ s) :
    KeptO κ s₀ (execRxPageFlip cl mask s) := by
  unfold execRxPageFlip
  repeat' first
    | intro _ | with_reducible apply kept_next | with_reducible refine kept_serveWrite ?_ ?_ (by first | exact .inl (by decide) | exact .inr Fact.out)
    | with_reducible apply kept_writeFlip | with_reducible apply kept_ite | split | dsimp only
    | with_reducible assumption | refine kept_fst (by assumption) ?_ | refine kept_snd (by assumption) ?_
    | exact rfl | assumption

theorem kept_writeStandbyRow [κ.Out .pages] {s₀ s : State} {dir : Nat} {row : Nat} {v : Int} (h : Kept κ s₀ s) :
    Kept κ s₀ (writeStandbyRow dir row v s).1 := by
  unfold writeStandbyRow
  repeat' first
    | intro _ | with_reducible apply kept_set | with_reducible apply kept_ite | with_reducible apply kept_ite_fst
    | split | dsimp only | with_reducible assumption | refine kept_fst (by assumption) ?_
    | refine kept_snd (by assumption) ?_ | exact rfl | assumption | exact (Fact.out : κ .pages = false)

theorem kept_writeStandbyPage [κ.Out .pages] {s₀ s : State} {dir : Nat} {b : List Byte} (h : Kept κ s₀ s) :
    Kept κ s₀ (writeStandbyPage dir b s).1 := by
  unfold writeStandbyPage
  repeat' first
    | intro _ | with_reducible apply kept_set | with_reducible apply kept_each | with_reducible apply kept_ite
    | with_reducible apply kept_ite_fst | split | dsimp only | with_reducible assumption
    | refine kept_fst (by assumption) ?_ | refine kept_snd (by assumption) ?_ | exact rfl | assumption
    | exact (Fact.out : κ .pages = false)

theorem kept_csfClear [κ.Out .events] [κ.Out .defects] [κ.Out .tributaries] [κ.Out .housekeeping] [κ.Out .captures]
    {s₀ s : State} {c : Nat} (h : Kept κ s₀ s) :
    Kept κ s₀ (State.csfClear s c) := by
  unfold State.csfClear
  repeat' first
    | intro _ | with_reducible apply kept_each | with_reducible apply kept_raiseClear
    | with_reducible apply kept_set | with_reducible apply kept_refreshRaw | with_reducible apply kept_setBit
    | with_reducible apply kept_ite | split | dsimp only | with_reducible assumption
    | refine kept_fst (by assumption) ?_ | refine kept_snd (by assumption) ?_ | exact rfl | assumption
    | exact (Fact.out : κ .defects = false) | exact (Fact.out : κ .tributaries = false)

theorem kept_declare [κ.Out .events] [κ.Out .carriers] [κ.Out .rxLine] [κ.Out .clocks] [κ.Out .converters]
    [κ.Out .calibration] [κ.Out .banks] [κ.Out .dispersion] [κ.Out .frontEnd] [κ.Out .equaliser] [κ.Out .monitors]
    [κ.Out .recovery] [κ.Out .catching] [κ.Out .coding] [κ.Out .defects] [κ.Out .overhead] [κ.Out .pages]
    [κ.Out .tributaries] [κ.Out .bonding] [κ.Out .housekeeping] [κ.Out .captures] {s₀ s : State} {c : Nat} {bit : Nat}
    {t : Nat} (h : Kept κ s₀ s) :
    Kept κ s₀ (State.declare s c bit t) := by
  unfold State.declare
  repeat' first
    | intro _ | with_reducible apply kept_each | with_reducible apply kept_set | with_reducible apply kept_setBit
    | with_reducible apply kept_raiseClear | with_reducible apply kept_csfClear
    | with_reducible apply kept_defectDeclared | with_reducible apply kept_toSeeking
    | with_reducible apply kept_ite | split | dsimp only | with_reducible assumption
    | refine kept_fst (by assumption) ?_ | refine kept_snd (by assumption) ?_ | exact rfl | assumption
    | exact (Fact.out : κ .defects = false) | exact (Fact.out : κ .tributaries = false)

theorem kept_execDefectDeclare [κ.Out .events] [κ.Out .carriers] [κ.Out .rxLine] [κ.Out .clocks] [κ.Out .converters]
    [κ.Out .calibration] [κ.Out .banks] [κ.Out .dispersion] [κ.Out .frontEnd] [κ.Out .equaliser] [κ.Out .monitors]
    [κ.Out .recovery] [κ.Out .catching] [κ.Out .coding] [κ.Out .defects] [κ.Out .overhead] [κ.Out .pages]
    [κ.Out .tributaries] [κ.Out .bonding] [κ.Out .housekeeping] [κ.Out .captures]
    {s₀ : State} {c : Fin 12}
    {bit : Fin 10} {t : Fin 3840} {s : State} (h : Kept κ s₀ s) :
    KeptO κ s₀ (execDefectDeclare c bit t s) := by
  unfold execDefectDeclare
  repeat' first
    | intro _ | with_reducible apply kept_next | with_reducible apply kept_live
    | with_reducible apply kept_declare | with_reducible apply kept_ite | split | dsimp only
    | with_reducible assumption | refine kept_fst (by assumption) ?_ | refine kept_snd (by assumption) ?_
    | exact rfl | assumption

theorem kept_clearDefect [κ.Out .events] [κ.Out .defects] [κ.Out .tributaries] [κ.Out .housekeeping] [κ.Out .captures]
    {s₀ s : State} {c : Nat} {bit : Nat} {t : Nat} (h : Kept κ s₀ s) :
    Kept κ s₀ (State.clearDefect s c bit t) := by
  unfold State.clearDefect
  repeat' first
    | intro _ | with_reducible apply kept_set | with_reducible apply kept_raiseClear
    | with_reducible apply kept_setBit | with_reducible apply kept_refreshRaw
    | with_reducible apply kept_defectCleared | with_reducible apply kept_ite | split | dsimp only
    | with_reducible assumption | refine kept_fst (by assumption) ?_ | refine kept_snd (by assumption) ?_
    | exact rfl | assumption | exact (Fact.out : κ .defects = false) | exact (Fact.out : κ .tributaries = false)

theorem kept_execDefectClear [κ.Out .events] [κ.Out .defects] [κ.Out .tributaries] [κ.Out .housekeeping]
    [κ.Out .captures] {s₀ : State} {c : Fin 12} {bit : Fin 10} {t : Fin 3840} {s : State} (h : Kept κ s₀ s) :
    KeptO κ s₀ (execDefectClear c bit t s) := by
  unfold execDefectClear
  repeat' first
    | intro _ | with_reducible apply kept_next | with_reducible apply kept_live
    | with_reducible apply kept_clearDefect | with_reducible apply kept_ite | split | dsimp only
    | with_reducible assumption | refine kept_fst (by assumption) ?_ | refine kept_snd (by assumption) ?_
    | exact rfl | assumption

theorem kept_degSecond [κ.Out .defects] {s₀ s : State} {c : Nat} (h : Kept κ s₀ s) :
    Kept κ s₀ (State.degSecond s c) := by
  unfold State.degSecond
  repeat' first
    | intro _ | with_reducible apply kept_setFlag | with_reducible apply kept_set
    | with_reducible apply kept_setRaw | with_reducible apply kept_ite | split | dsimp only
    | with_reducible assumption | refine kept_fst (by assumption) ?_ | refine kept_snd (by assumption) ?_
    | exact rfl | assumption | exact (Fact.out : κ .defects = false)

end Sys2Proof.Laws
end

