-- ==== Sys2Proof/Laws/Kept/Ptp.lean ====
section
/-! SUPPORT. Every operation of Machine/Ptp.lean keeps (Laws/Kept.lean). -/

set_option Elab.async false
set_option linter.unusedTactic false
set_option linter.unreachableTactic false
set_option linter.unusedVariables false

namespace Sys2Proof.Laws

open Sys2Proof.Machine

variable {κ : Scope}

theorem kept_ptpArrive [κ.Out .events] [κ.Out .ptp] [κ.Out .housekeeping] [κ.Out .captures] {s₀ s : State} {p : Nat}
    {l : List Byte} (h : Kept κ s₀ s) : Kept κ s₀ (s.ptpArrive p l) := by
  unfold State.ptpArrive
  split
  · exact h
  · split
    · exact h
    · dsimp only
      split
      · rename_i hl
        exact kept_tsQueue (fun _ => by simp only [List.length_append, List.length_cons, List.length_nil]; omega) h
      · exact kept_ite (kept_raise (kept_markSecond (kept_bump (kept_set h)))) (kept_bump (kept_set h))

end Sys2Proof.Laws
end

