-- ==== Sys2Proof/Laws/Kept/Flows.lean ====
section
/-! SUPPORT. Every operation of Machine/Flows.lean keeps (Laws/Kept.lean). -/

set_option Elab.async false
set_option linter.unusedTactic false
set_option linter.unreachableTactic false
set_option linter.unusedVariables false

namespace Sys2Proof.Laws

open Sys2Proof.Machine

variable {κ : Scope}

theorem kept_holdPrio [κ.Out .ports] {s₀ s : State} {p : Nat} {i : Nat} {n : Nat} (h : Kept κ s₀ s) :
    Kept κ s₀ (State.holdPrio s p i n) := by
  unfold State.holdPrio
  repeat' first
    | intro _ | with_reducible apply kept_set | with_reducible apply kept_ite | split | dsimp only
    | with_reducible assumption | refine kept_fst (by assumption) ?_ | refine kept_snd (by assumption) ?_
    | exact rfl | assumption | exact (Fact.out : κ .ports = false)

theorem kept_flowDiscard [κ.Out .events] [κ.Out .flows] [κ.Out .housekeeping] [κ.Out .captures] {s₀ s : State}
    {f : Nat} (h : Kept κ s₀ s) :
    Kept κ s₀ (State.flowDiscard s f) := by
  unfold State.flowDiscard
  repeat' first
    | intro _ | with_reducible apply kept_raise | with_reducible apply kept_markSecond
    | with_reducible apply kept_ite | split | dsimp only | with_reducible assumption
    | refine kept_fst (by assumption) ?_ | refine kept_snd (by assumption) ?_ | exact rfl | assumption
    | exact (Fact.out : κ .flows = false)

theorem kept_takeIn [κ.Out .events] [κ.Out .ports] [κ.Out .flows] [κ.Out .housekeeping] [κ.Out .snapshots]
    [κ.Out .captures] {s₀ s : State} {f : Nat} {l : List Byte} (h : Kept κ s₀ s) :
    Kept κ s₀ (State.takeIn s f l) := by
  unfold State.takeIn
  repeat' first
    | intro _ | with_reducible apply kept_flowDiscard | with_reducible apply kept_bump
    | with_reducible apply kept_putQueue | with_reducible apply kept_countFlow | with_reducible apply kept_ite
    | split | dsimp only | with_reducible assumption | refine kept_fst (by assumption) ?_
    | refine kept_snd (by assumption) ?_ | exact rfl | assumption | exact (Fact.out : κ .flows = false)

theorem kept_pcsIn [κ.Out .events] [κ.Out .ports] [κ.Out .flows] [κ.Out .calendar] [κ.Out .housekeeping]
    [κ.Out .snapshots] [κ.Out .captures] {s₀ s : State} {p : Nat} {l : List (BitVec 257)} (h : Kept κ s₀ s) :
    Kept κ s₀ (State.pcsIn s p l) := by
  unfold State.pcsIn
  repeat' first
    | intro _ | with_reducible apply kept_setBlob | with_reducible apply kept_bump
    | with_reducible apply kept_putWords | with_reducible apply kept_slip | with_reducible apply kept_ite | split
    | dsimp only | with_reducible assumption | refine kept_fst (by assumption) ?_
    | refine kept_snd (by assumption) ?_ | exact rfl | assumption | exact (Fact.out : κ .flows = false)
    | exact (Fact.out : κ .snapshots = false)

theorem kept_frameArrives [κ.Out .events] [κ.Out .ports] [κ.Out .ptp] [κ.Out .flows] [κ.Out .housekeeping]
    [κ.Out .snapshots] [κ.Out .captures] {s₀ s : State} {p : Nat} {l : List Byte} (h : Kept κ s₀ s) :
    Kept κ s₀ (State.frameArrives s p l) := by
  unfold State.frameArrives
  repeat' first
    | intro _ | with_reducible apply kept_bump | with_reducible apply kept_ptpArrive
    | with_reducible apply kept_each | with_reducible apply kept_holdPrio | with_reducible apply kept_takeIn
    | with_reducible apply kept_ite | split | dsimp only | with_reducible assumption
    | refine kept_fst (by assumption) ?_ | refine kept_snd (by assumption) ?_ | exact rfl | assumption
    | exact (Fact.out : κ .ports = false)

theorem kept_hostFrame [κ.Out .events] [κ.Out .ports] [κ.Out .ptp] [κ.Out .flows] [κ.Out .calendar]
    [κ.Out .housekeeping] [κ.Out .snapshots] [κ.Out .captures] {s₀ s : State} {p : Nat} {x : HostArrival}
    {fec : Vector Nat 3} (h : Kept κ s₀ s) :
    Kept κ s₀ (State.hostFrame s p x fec) := by
  unfold State.hostFrame
  repeat' first
    | intro _ | with_reducible apply kept_bump | with_reducible apply kept_frameArrives
    | with_reducible apply kept_pcsIn | with_reducible apply kept_ite | split | dsimp only
    | with_reducible assumption | refine kept_fst (by assumption) ?_ | refine kept_snd (by assumption) ?_
    | exact rfl | assumption | exact (Fact.out : κ .ports = false)

theorem kept_execHostFrameReceive [κ.Out .events] [κ.Out .ports] [κ.Out .ptp] [κ.Out .flows] [κ.Out .calendar]
    [κ.Out .housekeeping] [κ.Out .snapshots] [κ.Out .captures] {s₀ s : State} {p : Fin 48} {x : HostArrival}
    {fec : Vector Nat 3} (h : Kept κ s₀ s) :
    KeptO κ s₀ (execHostFrameReceive p x fec s) := by
  unfold execHostFrameReceive
  repeat' first
    | intro _ | with_reducible apply kept_live | with_reducible apply kept_hostFrame
    | with_reducible apply kept_ite | split | dsimp only | with_reducible assumption
    | refine kept_fst (by assumption) ?_ | refine kept_snd (by assumption) ?_ | exact rfl | assumption

theorem kept_execPfcResend [κ.Out .ports] {s₀ : State} {p : Fin 48} {s : State} (h : Kept κ s₀ s) :
    KeptO κ s₀ (execPfcResend p s) := by
  unfold execPfcResend
  repeat' first
    | intro _ | with_reducible apply kept_next | with_reducible apply kept_live
    | with_reducible apply kept_sendPfc | with_reducible apply kept_ite | split | dsimp only
    | with_reducible assumption | refine kept_fst (by assumption) ?_ | refine kept_snd (by assumption) ?_
    | exact rfl | assumption

theorem kept_clsPut [κ.Out .classifier] {s₀ s : State} {k : Nat} {f : Nat} (h : Kept κ s₀ s) :
    Kept κ s₀ (State.clsPut s k f) := by
  unfold State.clsPut
  repeat' first
    | intro _ | with_reducible apply kept_set | with_reducible apply kept_ite | split | dsimp only
    | with_reducible assumption | with_reducible apply kept_classifier_put
    | with_reducible apply kept_classifier_del | with_reducible apply kept_classifier_nil
    | refine kept_fst (by assumption) ?_ | refine kept_snd (by assumption) ?_ | exact rfl | assumption
    | exact (Fact.out : κ .classifier = false)

theorem kept_writeClsOp [κ.Out .classifier] {s₀ : State} {op : Int} {s : State} (h : Kept κ s₀ s) :
    Kept κ s₀ (writeClsOp op s).1 := by
  unfold writeClsOp
  repeat' first
    | intro _ | with_reducible apply kept_set | with_reducible apply kept_ite
    | with_reducible apply kept_ite_fst | split | dsimp only | with_reducible assumption
    | refine kept_fst (by assumption) ?_ | refine kept_snd (by assumption) ?_ | exact rfl | assumption
    | exact (Fact.out : κ .classifier = false)

theorem kept_writeClsSetting {s₀ : State} {r : Reg} {v : Int} {s : State}
    (hr : κ (Safety.part r) = false := by
      first | assumption | ((conv in Safety.part _ => whnf); exact Fact.out) | exact leaves_none _)
    (h : Kept κ s₀ s) :
    Kept κ s₀ (writeClsSetting r v s).1 := by
  unfold writeClsSetting
  repeat' first
    | intro _ | with_reducible apply kept_set | with_reducible apply kept_ite
    | with_reducible apply kept_ite_fst | split | dsimp only | with_reducible assumption
    | refine kept_fst (by assumption) ?_ | refine kept_snd (by assumption) ?_ | exact rfl | assumption

theorem kept_execClsInsert [κ.Out .events] [κ.Out .management] [κ.Out .classifier] [κ.Out .housekeeping]
    [κ.Out .captures] {s₀ : State} {cl : Client} {s : State} (h : Kept κ s₀ s) :
    KeptO κ s₀ (execClsInsert cl s) := by
  unfold execClsInsert
  repeat' first
    | intro _ | with_reducible apply kept_next | with_reducible refine kept_serveWrite ?_ ?_ (by first | exact .inl (by decide) | exact .inr Fact.out)
    | with_reducible apply kept_writeClsOp | with_reducible apply kept_ite | split | dsimp only
    | with_reducible assumption | refine kept_fst (by assumption) ?_ | refine kept_snd (by assumption) ?_
    | exact rfl | assumption

theorem kept_execClsDelete [κ.Out .events] [κ.Out .management] [κ.Out .classifier] [κ.Out .housekeeping]
    [κ.Out .captures] {s₀ : State} {cl : Client} {s : State} (h : Kept κ s₀ s) :
    KeptO κ s₀ (execClsDelete cl s) := by
  unfold execClsDelete
  repeat' first
    | intro _ | with_reducible apply kept_next | with_reducible refine kept_serveWrite ?_ ?_ (by first | exact .inl (by decide) | exact .inr Fact.out)
    | with_reducible apply kept_writeClsOp | with_reducible apply kept_ite | split | dsimp only
    | with_reducible assumption | refine kept_fst (by assumption) ?_ | refine kept_snd (by assumption) ?_
    | exact rfl | assumption

theorem kept_execClsLookup [κ.Out .events] [κ.Out .management] [κ.Out .classifier] [κ.Out .housekeeping]
    [κ.Out .captures] {s₀ : State} {cl : Client} {s : State} (h : Kept κ s₀ s) :
    KeptO κ s₀ (execClsLookup cl s) := by
  unfold execClsLookup
  repeat' first
    | intro _ | with_reducible apply kept_next | with_reducible refine kept_serveWrite ?_ ?_ (by first | exact .inl (by decide) | exact .inr Fact.out)
    | with_reducible apply kept_writeClsOp | with_reducible apply kept_ite | split | dsimp only
    | with_reducible assumption | refine kept_fst (by assumption) ?_ | refine kept_snd (by assumption) ?_
    | exact rfl | assumption

theorem kept_execClsClearAll [κ.Out .events] [κ.Out .management] [κ.Out .classifier] [κ.Out .housekeeping]
    [κ.Out .captures] {s₀ : State} {cl : Client} {s : State} (h : Kept κ s₀ s) :
    KeptO κ s₀ (execClsClearAll cl s) := by
  unfold execClsClearAll
  repeat' first
    | intro _ | with_reducible apply kept_next | with_reducible refine kept_serveWrite ?_ ?_ (by first | exact .inl (by decide) | exact .inr Fact.out)
    | with_reducible apply kept_writeClsOp | with_reducible apply kept_ite | split | dsimp only
    | with_reducible assumption | refine kept_fst (by assumption) ?_ | refine kept_snd (by assumption) ?_
    | exact rfl | assumption

theorem kept_clsComplete [κ.Out .classifier] {s₀ s : State} (h : Kept κ s₀ s) :
    Kept κ s₀ (State.clsComplete s) := by
  unfold State.clsComplete
  repeat' first
    | intro _ | with_reducible apply kept_set | with_reducible apply kept_clsPut | with_reducible apply kept_ite
    | split | dsimp only | with_reducible assumption | with_reducible apply kept_classifier_put
    | with_reducible apply kept_classifier_del | with_reducible apply kept_classifier_nil
    | refine kept_fst (by assumption) ?_ | refine kept_snd (by assumption) ?_ | exact rfl | assumption
    | exact (Fact.out : κ .classifier = false)

theorem kept_execClsOpComplete [κ.Out .classifier] {s₀ s : State} (h : Kept κ s₀ s) :
    KeptO κ s₀ (execClsOpComplete s) := by
  unfold execClsOpComplete
  repeat' first
    | intro _ | with_reducible apply kept_next | with_reducible apply kept_live
    | with_reducible apply kept_clsComplete | with_reducible apply kept_ite | split | dsimp only
    | with_reducible assumption | refine kept_fst (by assumption) ?_ | refine kept_snd (by assumption) ?_
    | exact rfl | assumption

theorem kept_writeClsLoad [κ.Out .classifier] {s₀ s : State} {b : List Byte} (h : Kept κ s₀ s) :
    Kept κ s₀ (writeClsLoad b s).1 := by
  unfold writeClsLoad
  repeat' first
    | intro _ | with_reducible apply kept_set | with_reducible apply kept_each | with_reducible apply kept_clsPut
    | with_reducible apply kept_ite | with_reducible apply kept_ite_fst | split | dsimp only
    | with_reducible assumption | refine kept_fst (by assumption) ?_ | refine kept_snd (by assumption) ?_
    | exact rfl | assumption | with_reducible apply kept_classifier_nil | exact (Fact.out : κ .classifier = false)

theorem kept_execClsBulkLoad [κ.Out .events] [κ.Out .management] [κ.Out .classifier] [κ.Out .housekeeping]
    [κ.Out .captures] {s₀ : State} {cl : Client} {v : List Byte} {s : State} (h : Kept κ s₀ s) :
    KeptO κ s₀ (execClsBulkLoad cl v s) := by
  unfold execClsBulkLoad
  repeat' first
    | intro _ | with_reducible apply kept_next | with_reducible refine kept_serveWrite ?_ ?_ (by first | exact .inl (by decide) | exact .inr Fact.out)
    | with_reducible apply kept_writeClsLoad | with_reducible apply kept_ite | split | dsimp only
    | with_reducible assumption | refine kept_fst (by assumption) ?_ | refine kept_snd (by assumption) ?_
    | exact rfl | assumption

theorem kept_writePortCls {s₀ s : State} {r : Reg} {p : Nat} {v : Int} (h : Kept κ s₀ s)
    (hr : κ (Safety.part r) = false := by first | assumption | ((conv in Safety.part _ => whnf); exact Fact.out) | exact leaves_none _) :
    Kept κ s₀ (writePortCls r p v s).1 := by
  unfold writePortCls
  repeat' first
    | intro _ | with_reducible apply kept_set | with_reducible apply kept_ite | with_reducible apply kept_ite_fst
    | split | dsimp only | with_reducible assumption | refine kept_fst (by assumption) ?_
    | refine kept_snd (by assumption) ?_ | exact rfl | assumption

theorem kept_setFlow [κ.Out .events] [κ.Out .ports] [κ.Out .flows] [κ.Out .housekeeping] [κ.Out .captures]
    {s₀ s : State} {f : Nat} {v : Nat} (h : Kept κ s₀ s) :
    Kept κ s₀ (State.setFlow s f v) := by
  unfold State.setFlow
  extract_lets x1 x2 x3 x4
  have k2 : Kept κ s₀ x2 := by
    unfold x2
    repeat' first
      | intro _ | with_reducible apply kept_set | with_reducible apply kept_flushFlow
      | with_reducible apply kept_setBlob | with_reducible apply kept_assertEval
      | with_reducible apply kept_pfcEval | with_reducible apply kept_ite | split | dsimp only
      | with_reducible assumption | refine kept_fst (by assumption) ?_ | refine kept_snd (by assumption) ?_
      | exact rfl | assumption | exact (Fact.out : κ .flows = false)
  clear_value x2
  have k3 : Kept κ s₀ x3 := by
    unfold x3
    repeat' first
      | intro _ | with_reducible apply kept_set | with_reducible apply kept_flushFlow
      | with_reducible apply kept_setBlob | with_reducible apply kept_assertEval
      | with_reducible apply kept_pfcEval | with_reducible apply kept_ite | split | dsimp only
      | with_reducible assumption | refine kept_fst (by assumption) ?_ | refine kept_snd (by assumption) ?_
      | exact rfl | assumption | exact (Fact.out : κ .flows = false)
  clear_value x3
  have k4 : Kept κ s₀ x4 := by
    unfold x4
    repeat' first
      | intro _ | with_reducible apply kept_set | with_reducible apply kept_flushFlow
      | with_reducible apply kept_setBlob | with_reducible apply kept_assertEval
      | with_reducible apply kept_pfcEval | with_reducible apply kept_ite | split | dsimp only
      | with_reducible assumption | refine kept_fst (by assumption) ?_ | refine kept_snd (by assumption) ?_
      | exact rfl | assumption | exact (Fact.out : κ .flows = false)
  clear_value x4
  repeat' first
    | intro _ | with_reducible apply kept_set | with_reducible apply kept_flushFlow
    | with_reducible apply kept_setBlob | with_reducible apply kept_assertEval | with_reducible apply kept_pfcEval
    | with_reducible apply kept_ite | split | dsimp only | with_reducible assumption
    | refine kept_fst (by assumption) ?_ | refine kept_snd (by assumption) ?_ | exact rfl | assumption
    | exact (Fact.out : κ .flows = false)

theorem kept_writeFlow [κ.Out .events] [κ.Out .ports] [κ.Out .flows] [κ.Out .housekeeping] [κ.Out .captures]
    {s₀ : State} {f : Nat} {v : Nat} {s : State} (h : Kept κ s₀ s) :
    Kept κ s₀ (writeFlow f v s).1 := by
  unfold writeFlow
  repeat' first
    | intro _ | with_reducible apply kept_setFlow | with_reducible apply kept_ite
    | with_reducible apply kept_ite_fst | split | dsimp only | with_reducible assumption
    | refine kept_fst (by assumption) ?_ | refine kept_snd (by assumption) ?_ | exact rfl | assumption

theorem kept_execFlowEntryWrite [κ.Out .events] [κ.Out .management] [κ.Out .ports] [κ.Out .flows]
    [κ.Out .housekeeping] [κ.Out .captures] {s₀ : State} {cl : Client} {v : BitVec 64} {s : State} (h : Kept κ s₀ s)
    :
    KeptO κ s₀ (execFlowEntryWrite cl v s) := by
  unfold execFlowEntryWrite
  repeat' first
    | intro _ | with_reducible apply kept_next | with_reducible refine kept_serveWrite ?_ ?_ (by first | exact .inl (by decide) | exact .inr Fact.out)
    | with_reducible apply kept_writeFlow | with_reducible apply kept_ite | split | dsimp only
    | with_reducible assumption | refine kept_fst (by assumption) ?_ | refine kept_snd (by assumption) ?_
    | exact rfl | assumption

theorem kept_writeFlowTable [κ.Out .events] [κ.Out .ports] [κ.Out .flows] [κ.Out .housekeeping] [κ.Out .captures]
    {s₀ : State} {b : List Byte} {s : State} (h : Kept κ s₀ s) :
    Kept κ s₀ (writeFlowTable b s).1 := by
  unfold writeFlowTable
  repeat' first
    | intro _ | with_reducible apply kept_each | with_reducible apply kept_setFlow
    | with_reducible apply kept_ite | with_reducible apply kept_ite_fst | split | dsimp only
    | with_reducible assumption | refine kept_fst (by assumption) ?_ | refine kept_snd (by assumption) ?_
    | exact rfl | assumption

theorem kept_execFlowTableLoad [κ.Out .events] [κ.Out .management] [κ.Out .ports] [κ.Out .flows]
    [κ.Out .housekeeping] [κ.Out .captures] {s₀ : State} {cl : Client} {v : List Byte} {s : State} (h : Kept κ s₀ s)
    :
    KeptO κ s₀ (execFlowTableLoad cl v s) := by
  unfold execFlowTableLoad
  repeat' first
    | intro _ | with_reducible apply kept_next | with_reducible refine kept_serveWrite ?_ ?_ (by first | exact .inl (by decide) | exact .inr Fact.out)
    | with_reducible apply kept_writeFlowTable | with_reducible apply kept_ite | split | dsimp only
    | with_reducible assumption | refine kept_fst (by assumption) ?_ | refine kept_snd (by assumption) ?_
    | exact rfl | assumption

theorem kept_writePoolLevel [κ.Out .events] [κ.Out .ports] [κ.Out .flows] [κ.Out .housekeeping] [κ.Out .captures]
    {s₀ : State} {v : Int} {s : State} (h : Kept κ s₀ s) :
    Kept κ s₀ (writePoolLevel v s).1 := by
  unfold writePoolLevel
  repeat' first
    | intro _ | with_reducible apply kept_poolMove | with_reducible apply kept_set
    | with_reducible apply kept_ite | with_reducible apply kept_ite_fst | split | dsimp only
    | with_reducible assumption | refine kept_fst (by assumption) ?_ | refine kept_snd (by assumption) ?_
    | exact rfl | assumption | exact (Fact.out : κ .flows = false)

theorem kept_writeCalFlip [κ.Out .events] [κ.Out .calendar] [κ.Out .housekeeping] [κ.Out .captures] {s₀ s : State}
    (h : Kept κ s₀ s) :
    Kept κ s₀ (writeCalFlip s).1 := by
  unfold writeCalFlip
  repeat' first
    | intro _ | with_reducible apply kept_set | with_reducible apply kept_calSettle
    | with_reducible apply kept_ite | with_reducible apply kept_ite_fst | split | dsimp only
    | with_reducible assumption | refine kept_fst (by assumption) ?_ | refine kept_snd (by assumption) ?_
    | exact rfl | assumption | exact (Fact.out : κ .calendar = false)

theorem kept_execCalendarFlip [κ.Out .events] [κ.Out .management] [κ.Out .calendar] [κ.Out .housekeeping]
    [κ.Out .captures] {s₀ : State} {cl : Client} {s : State} (h : Kept κ s₀ s) :
    KeptO κ s₀ (execCalendarFlip cl s) := by
  unfold execCalendarFlip
  repeat' first
    | intro _ | with_reducible apply kept_next | with_reducible refine kept_serveWrite ?_ ?_ (by first | exact .inl (by decide) | exact .inr Fact.out)
    | with_reducible apply kept_writeCalFlip | with_reducible apply kept_ite | split | dsimp only
    | with_reducible assumption | refine kept_fst (by assumption) ?_ | refine kept_snd (by assumption) ?_
    | exact rfl | assumption

theorem kept_calWrite [κ.Out .calendar] {s₀ s : State} {code : Nat} {t : State} (hs : Kept κ s₀ s)
    (ht : Kept κ s₀ t) :
    Kept κ s₀ (calWrite s code t).1 := by
  unfold calWrite
  repeat' first
    | intro _ | with_reducible apply kept_set | with_reducible apply kept_ite
    | with_reducible apply kept_ite_fst | split | dsimp only | with_reducible assumption
    | refine kept_fst (by assumption) ?_ | refine kept_snd (by assumption) ?_ | exact rfl | assumption
    | exact (Fact.out : κ .calendar = false)

theorem kept_writeCalEntry [κ.Out .calendar] {s₀ : State} {e : Nat} {v : Int} {s : State} (h : Kept κ s₀ s) :
    Kept κ s₀ (writeCalEntry e v s).1 := by
  unfold writeCalEntry
  repeat' first
    | intro _ | with_reducible apply kept_calWrite | with_reducible apply kept_set
    | with_reducible apply kept_ite | with_reducible apply kept_ite_fst | split | dsimp only
    | with_reducible assumption | refine kept_fst (by assumption) ?_ | refine kept_snd (by assumption) ?_
    | exact rfl | assumption | exact (Fact.out : κ .calendar = false)

theorem kept_writeSpan [κ.Out .calendar] {s₀ : State} {t : Nat} {v : Int} {s : State} (h : Kept κ s₀ s) :
    Kept κ s₀ (writeSpan t v s).1 := by
  unfold writeSpan
  repeat' first
    | intro _ | with_reducible apply kept_calWrite | with_reducible apply kept_set
    | with_reducible apply kept_ite | with_reducible apply kept_ite_fst | split | dsimp only
    | with_reducible assumption | refine kept_fst (by assumption) ?_ | refine kept_snd (by assumption) ?_
    | exact rfl | assumption | exact (Fact.out : κ .calendar = false)

theorem kept_writeCalPage [κ.Out .calendar] {s₀ : State} {r : Reg} {b : List Byte} {s : State}
    (hr : κ (Safety.part r) = false := by
      first | assumption | ((conv in Safety.part _ => whnf); exact Fact.out) | exact leaves_none _)
    (h : Kept κ s₀ s) :
    Kept κ s₀ (writeCalPage r b s).1 := by
  unfold writeCalPage
  repeat' first
    | intro _ | with_reducible apply kept_calWrite | with_reducible apply kept_each
    | with_reducible apply kept_set | with_reducible apply kept_ite | with_reducible apply kept_ite_fst | split
    | dsimp only | with_reducible assumption | refine kept_fst (by assumption) ?_
    | refine kept_snd (by assumption) ?_ | exact rfl | assumption

theorem kept_mapOut [κ.Out .tributaries] {s₀ s : State} {t : Nat} {frame : Option (List Byte)} (h : Kept κ s₀ s) :
    Kept κ s₀ (State.mapOut s t frame) := by
  unfold State.mapOut
  repeat' first
    | intro _ | with_reducible apply kept_emit | with_reducible apply kept_gfpPut | with_reducible apply kept_set
    | with_reducible apply kept_ite | split | dsimp only | with_reducible assumption
    | refine kept_fst (by assumption) ?_ | refine kept_snd (by assumption) ?_ | exact rfl | assumption
    | exact (Fact.out : κ .tributaries = false)

theorem kept_mapTurn [κ.Out .events] [κ.Out .ports] [κ.Out .flows] [κ.Out .tributaries] [κ.Out .housekeeping] [κ.Out .custody]
    [κ.Out .captures]
    {s₀ s : State} {t f : Nat} {bad : List Nat} {q : List Stored} {n skip credit : Nat} {got : Bool}
    (h : Kept κ s₀ s) : Kept κ s₀ (State.mapTurn t f bad q s n skip credit got).1 := by
  induction q generalizing s n skip credit got with
  | nil => exact h
  | cons x q ih =>
    unfold State.mapTurn
    extract_lets out lost skip'
    split
    · exact ih (kept_bump (kept_putQueue h))
    · split
      · exact h
      · exact ih (kept_ite (kept_mapOut (kept_bump (kept_putQueue h))) (kept_mapOut (kept_putQueue h)))

theorem kept_coxswain [κ.Out .events] [κ.Out .ports] [κ.Out .flows] [κ.Out .calendar] [κ.Out .tributaries] [κ.Out .housekeeping]
    [κ.Out .custody] [κ.Out .captures]
    {s₀ s : State} {t : Nat} {bad : List (Nat × Nat)} {fuel : Nat}
    (h : Kept κ s₀ s) :
    Kept κ s₀ (State.coxswain t bad fuel s) := by
  induction fuel generalizing s bad with
  | zero => exact kept_mapOut h
  | succ fuel ih =>
    unfold State.coxswain
    dsimp only
    split
    · exact ih (kept_set h)
    · split
      · exact kept_set (kept_set (kept_custodyFailed (kept_mapTurn h)))
      · exact ih (kept_set (kept_set (kept_custodyFailed (kept_mapTurn h))))

theorem kept_mapNext [κ.Out .events] [κ.Out .ports] [κ.Out .flows] [κ.Out .calendar] [κ.Out .tributaries]
    [κ.Out .housekeeping] [κ.Out .custody] [κ.Out .captures] {s₀ s : State} {t : Nat}
    {reads : List (Nat × Nat × List Byte)} (h : Kept κ s₀ s) :
    Kept κ s₀ (State.mapNext s t reads) := by
  unfold State.mapNext
  repeat' first
    | intro _ | with_reducible apply kept_mapOut | with_reducible apply kept_coxswain
    | with_reducible apply kept_ite | split | dsimp only | with_reducible assumption
    | refine kept_fst (by assumption) ?_ | refine kept_snd (by assumption) ?_ | exact rfl | assumption

theorem kept_execMapperNextFrame [κ.Out .events] [κ.Out .ports] [κ.Out .flows] [κ.Out .calendar] [κ.Out .tributaries]
    [κ.Out .housekeeping] [κ.Out .custody] [κ.Out .captures] {s₀ s : State} {t : Fin 3840}
    {reads : List (Nat × Nat × List Byte)} (h : Kept κ s₀ s) :
    KeptO κ s₀ (execMapperNextFrame t reads s) := by
  unfold execMapperNextFrame
  repeat' first
    | intro _ | with_reducible apply kept_live | with_reducible apply kept_mapNext | with_reducible apply kept_ite
    | split | dsimp only | with_reducible assumption | refine kept_fst (by assumption) ?_
    | refine kept_snd (by assumption) ?_ | exact rfl | assumption

theorem kept_takeRow [κ.Out .events] [κ.Out .ports] [κ.Out .flows] [κ.Out .tributaries] [κ.Out .housekeeping]
    [κ.Out .captures] {s₀ s : State} {t : Nat} {v : Nat} (h : Kept κ s₀ s) :
    Kept κ s₀ (State.takeRow s t v) := by
  unfold State.takeRow
  repeat' first
    | intro _ | with_reducible apply kept_set | with_reducible apply kept_rowsTake
    | with_reducible apply kept_ite | split | dsimp only | with_reducible assumption
    | refine kept_fst (by assumption) ?_ | refine kept_snd (by assumption) ?_ | exact rfl | assumption
    | exact (Fact.out : κ .tributaries = false)

theorem kept_writeTribRow [κ.Out .events] [κ.Out .ports] [κ.Out .flows] [κ.Out .tributaries] [κ.Out .housekeeping]
    [κ.Out .captures] {s₀ : State} {t : Nat} {v : Int} {s : State} (h : Kept κ s₀ s) :
    Kept κ s₀ (writeTribRow t v s).1 := by
  unfold writeTribRow
  repeat' first
    | intro _ | with_reducible apply kept_takeRow | with_reducible apply kept_ite
    | with_reducible apply kept_ite_fst | split | dsimp only | with_reducible assumption
    | refine kept_fst (by assumption) ?_ | refine kept_snd (by assumption) ?_ | exact rfl | assumption

theorem kept_writeTribTable [κ.Out .events] [κ.Out .ports] [κ.Out .flows] [κ.Out .tributaries] [κ.Out .housekeeping]
    [κ.Out .captures] {s₀ s : State} {b : List Byte} (h : Kept κ s₀ s) : Kept κ s₀ (writeTribTable b s).1 := by
  refine kept_foldl_fst h fun q a hq => ?_
  split
  · dsimp only
    split
    · exact kept_takeRow hq
    · exact h
  · exact hq

theorem kept_execRxTribRowWrite [κ.Out .events] [κ.Out .management] [κ.Out .ports] [κ.Out .flows]
    [κ.Out .tributaries] [κ.Out .housekeeping] [κ.Out .captures] {s₀ : State} {cl : Client} {v : Fin 65536}
    {s : State} (h : Kept κ s₀ s) :
    KeptO κ s₀ (execRxTribRowWrite cl v s) := by
  unfold execRxTribRowWrite
  repeat' first
    | intro _ | with_reducible apply kept_next | with_reducible refine kept_serveWrite ?_ ?_ (by first | exact .inl (by decide) | exact .inr Fact.out)
    | with_reducible apply kept_writeTribRow | with_reducible apply kept_ite | split | dsimp only
    | with_reducible assumption | refine kept_fst (by assumption) ?_ | refine kept_snd (by assumption) ?_
    | exact rfl | assumption

theorem kept_demapPlain [κ.Out .events] [κ.Out .tributaries] [κ.Out .housekeeping] [κ.Out .custody] [κ.Out .captures]
    {s₀ s : State} {t : Nat} (h : Kept κ s₀ s) :
    Kept κ s₀ (State.demapPlain s t) := by
  unfold State.demapPlain
  repeat' first
    | intro _ | with_reducible apply kept_custodyFailed | with_reducible apply kept_setRxTrib
    | with_reducible apply kept_ite | split | dsimp only | with_reducible assumption
    | refine kept_fst (by assumption) ?_ | refine kept_snd (by assumption) ?_ | exact rfl | assumption

theorem kept_delineate [κ.Out .tributaries] {s₀ s : State} {t : Nat} (h : Kept κ s₀ s) :
    Kept κ s₀ (State.delineate s t).1 := by
  unfold State.delineate
  extract_lets x1 x2 x3 x4 x5
  have k4 : Kept κ s₀ x4 := by
    unfold x4
    repeat' first
      | intro _ | with_reducible apply kept_setRxTrib | with_reducible apply kept_set
      | with_reducible apply kept_bump | with_reducible apply kept_ite | with_reducible apply kept_ite_fst | split
      | dsimp only | with_reducible assumption | refine kept_fst (by assumption) ?_
      | refine kept_snd (by assumption) ?_ | exact rfl | assumption | exact (Fact.out : κ .tributaries = false)
  clear_value x4
  have k5 : Kept κ s₀ x5 := by
    unfold x5
    repeat' first
      | intro _ | with_reducible apply kept_setRxTrib | with_reducible apply kept_set
      | with_reducible apply kept_bump | with_reducible apply kept_ite | with_reducible apply kept_ite_fst | split
      | dsimp only | with_reducible assumption | refine kept_fst (by assumption) ?_
      | refine kept_snd (by assumption) ?_ | exact rfl | assumption | exact (Fact.out : κ .tributaries = false)
  clear_value x5
  repeat' first
    | intro _ | with_reducible apply kept_setRxTrib | with_reducible apply kept_set
    | with_reducible apply kept_bump | with_reducible apply kept_ite | with_reducible apply kept_ite_fst | split
    | dsimp only | with_reducible assumption | refine kept_fst (by assumption) ?_
    | refine kept_snd (by assumption) ?_ | exact rfl | assumption | exact (Fact.out : κ .tributaries = false)

theorem kept_demapNone [κ.Out .tributaries] {s₀ s : State} {t : Nat} (h : Kept κ s₀ s) :
    Kept κ s₀ (State.demapNone s t) := by
  unfold State.demapNone
  repeat' first
    | intro _ | with_reducible apply kept_setRxTrib | with_reducible apply kept_set | with_reducible apply kept_ite
    | split | dsimp only | with_reducible assumption | refine kept_fst (by assumption) ?_
    | refine kept_snd (by assumption) ?_ | exact rfl | assumption | exact (Fact.out : κ .tributaries = false)

theorem kept_demapReads [κ.Out .events] [κ.Out .tributaries] [κ.Out .housekeeping] [κ.Out .custody] [κ.Out .captures]
    {s₀ s : State} {t : Nat} {point : Nat} {flow : Option Nat} {reads : List TileRead} (h : Kept κ s₀ s) :
    Kept κ s₀ (State.demapReads s t point flow reads) := by
  unfold State.demapReads
  repeat' first
    | intro _ | with_reducible apply kept_each | with_reducible apply kept_setRxTrib
    | with_reducible apply kept_custodyFailed | with_reducible apply kept_ite | split | dsimp only
    | with_reducible assumption | refine kept_fst (by assumption) ?_ | refine kept_snd (by assumption) ?_
    | exact rfl | assumption

theorem kept_storeFrame [κ.Out .events] [κ.Out .ports] [κ.Out .flows] [κ.Out .tributaries] [κ.Out .housekeeping]
    [κ.Out .captures] {s₀ s : State} {t : Nat} {poisoned : Bool} {frame : List Byte} (h : Kept κ s₀ s) :
    Kept κ s₀ (State.storeFrame s t poisoned frame) := by
  unfold State.storeFrame
  repeat' first
    | intro _ | with_reducible apply kept_bump | with_reducible apply kept_putTribQueue
    | with_reducible apply kept_ite | split | dsimp only | with_reducible assumption
    | refine kept_fst (by assumption) ?_ | refine kept_snd (by assumption) ?_ | exact rfl | assumption
    | exact (Fact.out : κ .tributaries = false)

theorem kept_gfpFrame [κ.Out .events] [κ.Out .ports] [κ.Out .flows] [κ.Out .tributaries] [κ.Out .housekeeping]
    [κ.Out .custody] [κ.Out .captures] {s₀ s : State} {t : Nat} {m : GfpReading} (h : Kept κ s₀ s) :
    Kept κ s₀ (State.gfpFrame s t m) := by
  unfold State.gfpFrame
  repeat' first
    | intro _ | with_reducible apply kept_demapNone | with_reducible apply kept_demapPlain
    | with_reducible apply kept_demapReads | with_reducible apply kept_delineate
    | with_reducible apply kept_storeFrame | with_reducible apply kept_bump | with_reducible apply kept_ite | split
    | dsimp only | with_reducible assumption | refine kept_fst (by assumption) ?_
    | refine kept_snd (by assumption) ?_ | exact rfl | assumption | exact (Fact.out : κ .tributaries = false)

theorem kept_execRxGfpFrame [κ.Out .events] [κ.Out .ports] [κ.Out .flows] [κ.Out .tributaries] [κ.Out .housekeeping]
    [κ.Out .custody] [κ.Out .captures] {s₀ : State} {t : Fin 3840} {m : GfpReading} {s : State} (h : Kept κ s₀ s) :
    KeptO κ s₀ (execRxGfpFrame t m s) := by
  unfold execRxGfpFrame
  repeat' first
    | intro _ | with_reducible apply kept_next | with_reducible apply kept_live
    | with_reducible apply kept_gfpFrame | with_reducible apply kept_ite | split | dsimp only
    | with_reducible assumption | refine kept_fst (by assumption) ?_ | refine kept_snd (by assumption) ?_
    | exact rfl | assumption

theorem kept_deliver [κ.Out .ports] [κ.Out .snapshots] [κ.Out .custody] {s₀ s : State} {p : Nat} {l : List Byte}
    {errored : Bool} (h : Kept κ s₀ s) :
    Kept κ s₀ (State.deliver s p l errored) := by
  unfold State.deliver
  repeat' first
    | intro _ | with_reducible apply kept_countFlow | with_reducible apply kept_bump
    | with_reducible apply kept_emit | with_reducible apply kept_ite | split | dsimp only
    | with_reducible assumption | refine kept_fst (by assumption) ?_ | refine kept_snd (by assumption) ?_
    | exact rfl | assumption | exact (Fact.out : κ .ports = false) | exact (Fact.out : κ .custody = false)

theorem kept_egressFrame [κ.Out .ports] [κ.Out .snapshots] [κ.Out .custody] {s₀ s : State} {p : Nat} {x : Stored}
    {failed : Bool} {late : Bool} (h : Kept κ s₀ s) :
    Kept κ s₀ (State.egressFrame s p x failed late) := by
  unfold State.egressFrame
  repeat' first
    | intro _ | with_reducible apply kept_deliver | with_reducible apply kept_bump | with_reducible apply kept_ite
    | split | dsimp only | with_reducible assumption | refine kept_fst (by assumption) ?_
    | refine kept_snd (by assumption) ?_ | exact rfl | assumption | exact (Fact.out : κ .custody = false)

theorem kept_egressNext [κ.Out .events] [κ.Out .ports] [κ.Out .flows] [κ.Out .tributaries] [κ.Out .housekeeping]
    [κ.Out .snapshots] [κ.Out .custody] [κ.Out .captures] {s₀ s : State} {p : Nat} {t : Nat} {late : Bool}
    (h : Kept κ s₀ s) :
    Kept κ s₀ (State.egressNext s p t late) := by
  unfold State.egressNext
  repeat' first
    | intro _ | with_reducible apply kept_takeTrib | with_reducible apply kept_custodyFailed
    | with_reducible apply kept_egressFrame | with_reducible apply kept_ite | split | dsimp only
    | with_reducible assumption | refine kept_fst (by assumption) ?_ | refine kept_snd (by assumption) ?_
    | exact rfl | assumption

theorem kept_drainTrib [κ.Out .events] [κ.Out .ports] [κ.Out .flows] [κ.Out .tributaries] [κ.Out .housekeeping]
    [κ.Out .snapshots] [κ.Out .custody] [κ.Out .captures] {s₀ s : State} {t : Nat} (h : Kept κ s₀ s) :
    Kept κ s₀ (State.drainTrib s t) := by
  unfold State.drainTrib
  repeat' first
    | intro _ | with_reducible apply kept_dropTribQueue | with_reducible apply kept_each
    | with_reducible apply kept_egressNext | with_reducible apply kept_ite | split | dsimp only
    | with_reducible assumption | refine kept_fst (by assumption) ?_ | refine kept_snd (by assumption) ?_
    | exact rfl | assumption

theorem kept_drainTribs [κ.Out .events] [κ.Out .ports] [κ.Out .flows] [κ.Out .tributaries] [κ.Out .housekeeping]
    [κ.Out .snapshots] [κ.Out .custody] [κ.Out .captures] {s₀ s : State} (h : Kept κ s₀ s) :
    Kept κ s₀ (State.drainTribs s) := by
  unfold State.drainTribs
  repeat' first
    | intro _ | with_reducible apply kept_each | with_reducible apply kept_drainTrib
    | with_reducible apply kept_ite | split | dsimp only | with_reducible assumption
    | refine kept_fst (by assumption) ?_ | refine kept_snd (by assumption) ?_ | exact rfl | assumption

theorem kept_egressSend [κ.Out .events] [κ.Out .ports] [κ.Out .flows] [κ.Out .tributaries] [κ.Out .housekeeping]
    [κ.Out .snapshots] [κ.Out .custody] [κ.Out .captures] {s₀ s : State} {p : Nat} {reads : List TileRead}
    {late : Bool} (h : Kept κ s₀ s) :
    Kept κ s₀ (State.egressSend s p reads late) := by
  unfold State.egressSend
  repeat' first
    | intro _ | with_reducible apply kept_set | with_reducible apply kept_takeTrib | with_reducible apply kept_each
    | with_reducible apply kept_markTrib | with_reducible apply kept_egressNext | with_reducible apply kept_ite
    | split | dsimp only | with_reducible assumption | refine kept_fst (by assumption) ?_
    | refine kept_snd (by assumption) ?_ | exact rfl | assumption | exact (Fact.out : κ .tributaries = false)

theorem kept_execEgressFrameSend [κ.Out .events] [κ.Out .ports] [κ.Out .flows] [κ.Out .tributaries]
    [κ.Out .housekeeping] [κ.Out .snapshots] [κ.Out .custody] [κ.Out .captures] {s₀ s : State} {p : Fin 48}
    {reads : List TileRead} {late : Bool} (h : Kept κ s₀ s) :
    KeptO κ s₀ (execEgressFrameSend p reads late s) := by
  unfold execEgressFrameSend
  repeat' first
    | intro _ | with_reducible apply kept_live | with_reducible apply kept_egressSend
    | with_reducible apply kept_ite | split | dsimp only | with_reducible assumption
    | refine kept_fst (by assumption) ?_ | refine kept_snd (by assumption) ?_ | exact rfl | assumption

end Sys2Proof.Laws
end

