-- ==== Sys2Proof/Laws/Kept/HostLanes.lean ====
section
/-! SUPPORT. Every operation of Machine/HostLanes.lean keeps (Laws/Kept.lean). -/

set_option Elab.async false
set_option linter.unusedTactic false
set_option linter.unreachableTactic false
set_option linter.unusedVariables false

namespace Sys2Proof.Laws

open Sys2Proof.Machine

variable {κ : Scope}

theorem kept_portEval [κ.Out .ports] {s₀ s : State} {p : Nat} (h : Kept κ s₀ s) :
    Kept κ s₀ (State.portEval s p) := by
  unfold State.portEval
  repeat' first
    | intro _ | with_reducible apply kept_set | with_reducible apply kept_ite | split | dsimp only
    | with_reducible assumption | refine kept_fst (by assumption) ?_ | refine kept_snd (by assumption) ?_
    | exact rfl | assumption | exact (Fact.out : κ .ports = false)

theorem kept_portsEval [κ.Out .ports] {s₀ s : State} {o : Nat} (h : Kept κ s₀ s) :
    Kept κ s₀ (State.portsEval s o) := by
  unfold State.portsEval
  repeat' first
    | intro _ | with_reducible apply kept_each | with_reducible apply kept_portEval
    | with_reducible apply kept_ite | split | dsimp only | with_reducible assumption
    | refine kept_fst (by assumption) ?_ | refine kept_snd (by assumption) ?_ | exact rfl | assumption

theorem kept_portLose [κ.Out .events] [κ.Out .ports] [κ.Out .housekeeping] [κ.Out .captures] {s₀ s : State} {p : Nat}
    {cause : Nat} {inFrame : Bool} (h : Kept κ s₀ s) :
    Kept κ s₀ (State.portLose s p cause inFrame) := by
  unfold State.portLose
  repeat' first
    | intro _ | with_reducible apply kept_set | with_reducible apply kept_bump | with_reducible apply kept_setFlag
    | with_reducible apply kept_raiseClear | with_reducible apply kept_portEval | with_reducible apply kept_ite
    | split | dsimp only | with_reducible assumption | refine kept_fst (by assumption) ?_
    | refine kept_snd (by assumption) ?_ | exact rfl | assumption | exact (Fact.out : κ .ports = false)

theorem kept_execPortLocalFault [κ.Out .events] [κ.Out .ports] [κ.Out .housekeeping] [κ.Out .captures] {s₀ : State}
    {p : Fin 48} {markers : Bool} {skew : Bool} {inFrame : Bool} {s : State} (h : Kept κ s₀ s) :
    KeptO κ s₀ (execPortLocalFault p markers skew inFrame s) := by
  unfold execPortLocalFault
  repeat' first
    | intro _ | with_reducible apply kept_next | with_reducible apply kept_live
    | with_reducible apply kept_portLose | with_reducible apply kept_ite | split | dsimp only
    | with_reducible assumption | refine kept_fst (by assumption) ?_ | refine kept_snd (by assumption) ?_
    | exact rfl | assumption

theorem kept_execPortAligned [κ.Out .ports] {s₀ s : State} {p : Fin 48} (h : Kept κ s₀ s) :
    KeptO κ s₀ (execPortAligned p s) := by
  unfold execPortAligned
  repeat' first
    | intro _ | with_reducible apply kept_live | with_reducible apply kept_set | with_reducible apply kept_markTick
    | with_reducible apply kept_ite | split | dsimp only | with_reducible assumption
    | refine kept_fst (by assumption) ?_ | refine kept_snd (by assumption) ?_ | exact rfl | assumption
    | exact (Fact.out : κ .ports = false)

theorem kept_portUp [κ.Out .events] [κ.Out .ports] [κ.Out .housekeeping] [κ.Out .captures] {s₀ s : State} {p : Nat}
    (h : Kept κ s₀ s) :
    Kept κ s₀ (State.portUp s p) := by
  unfold State.portUp
  repeat' first
    | intro _ | with_reducible apply kept_set | with_reducible apply kept_raiseClear
    | with_reducible apply kept_pfcEval | with_reducible apply kept_ite | split | dsimp only
    | with_reducible assumption | refine kept_fst (by assumption) ?_ | refine kept_snd (by assumption) ?_
    | exact rfl | assumption | exact (Fact.out : κ .ports = false)

theorem kept_execPortUp [κ.Out .events] [κ.Out .ports] [κ.Out .housekeeping] [κ.Out .captures] {s₀ : State}
    {p : Fin 48} {s : State} (h : Kept κ s₀ s) :
    KeptO κ s₀ (execPortUp p s) := by
  unfold execPortUp
  repeat' first
    | intro _ | with_reducible apply kept_next | with_reducible apply kept_live
    | with_reducible apply kept_portUp | with_reducible apply kept_ite | split | dsimp only
    | with_reducible assumption | refine kept_fst (by assumption) ?_ | refine kept_snd (by assumption) ?_
    | exact rfl | assumption

theorem kept_execRemoteFaultReceived [κ.Out .events] [κ.Out .ports] [κ.Out .housekeeping] [κ.Out .captures]
    {s₀ s : State} {p : Fin 48} {present : Bool} (h : Kept κ s₀ s) :
    KeptO κ s₀ (execRemoteFaultReceived p present s) := by
  unfold execRemoteFaultReceived
  repeat' first
    | intro _ | with_reducible apply kept_live | with_reducible apply kept_set | with_reducible apply kept_raise
    | with_reducible apply kept_ite | split | dsimp only | with_reducible assumption
    | refine kept_fst (by assumption) ?_ | refine kept_snd (by assumption) ?_ | exact rfl | assumption
    | exact (Fact.out : κ .ports = false)

theorem kept_losSet [κ.Out .events] [κ.Out .lanes] [κ.Out .ports] [κ.Out .housekeeping] [κ.Out .captures]
    {s₀ s : State} {h0 : Nat} (h : Kept κ s₀ s) :
    Kept κ s₀ (State.losSet s h0) := by
  unfold State.losSet
  repeat' first
    | intro _ | with_reducible apply kept_portsEval | with_reducible apply kept_raiseClear
    | with_reducible apply kept_set | with_reducible apply kept_ite | split | dsimp only
    | with_reducible assumption | refine kept_fst (by assumption) ?_ | refine kept_snd (by assumption) ?_
    | exact rfl | assumption | exact (Fact.out : κ .lanes = false)

theorem kept_pairSet [κ.Out .events] [κ.Out .lanes] [κ.Out .ports] [κ.Out .housekeeping] [κ.Out .captures]
    {s₀ s : State} {h0 : Nat} {map : Nat} (h : Kept κ s₀ s) :
    Kept κ s₀ (State.pairSet s h0 map) := by
  unfold State.pairSet
  repeat' first
    | intro _ | with_reducible apply kept_losSet | with_reducible apply kept_set
    | with_reducible apply kept_raiseClear | with_reducible apply kept_portsEval | with_reducible apply kept_ite
    | split | dsimp only | with_reducible assumption | refine kept_fst (by assumption) ?_
    | refine kept_snd (by assumption) ?_ | exact rfl | assumption | exact (Fact.out : κ .lanes = false)

theorem kept_cmFound [κ.Out .events] [κ.Out .lanes] [κ.Out .ports] [κ.Out .housekeeping] [κ.Out .captures]
    {s₀ s : State} {h0 : Nat} {p : Nat} {n : Nat} (h : Kept κ s₀ s) :
    Kept κ s₀ (State.cmFound s h0 p n) := by
  unfold State.cmFound
  repeat' first
    | intro _ | with_reducible apply kept_set | with_reducible apply kept_pairSet
    | with_reducible apply kept_ite | split | dsimp only | with_reducible assumption
    | refine kept_fst (by assumption) ?_ | refine kept_snd (by assumption) ?_ | exact rfl | assumption
    | exact (Fact.out : κ .lanes = false)

theorem kept_execPairFaultDetect [κ.Out .events] [κ.Out .lanes] [κ.Out .ports] [κ.Out .housekeeping]
    [κ.Out .captures] {s₀ : State} {h0 : Fin 96} {cmP : Fin 65536} {cmN : Fin 65536} {s : State} (h : Kept κ s₀ s) :
    KeptO κ s₀ (execPairFaultDetect h0 cmP cmN s) := by
  unfold execPairFaultDetect
  repeat' first
    | intro _ | with_reducible apply kept_next | with_reducible apply kept_live
    | with_reducible apply kept_cmFound | with_reducible apply kept_ite | split | dsimp only
    | with_reducible assumption | refine kept_fst (by assumption) ?_ | refine kept_snd (by assumption) ?_
    | exact rfl | assumption

theorem kept_cmCleared [κ.Out .events] [κ.Out .lanes] [κ.Out .ports] [κ.Out .housekeeping] [κ.Out .captures]
    {s₀ s : State} {h0 : Nat} {p : Nat} {n : Nat} (h : Kept κ s₀ s) :
    Kept κ s₀ (State.cmCleared s h0 p n) := by
  unfold State.cmCleared
  repeat' first
    | intro _ | with_reducible apply kept_set | with_reducible apply kept_pairSet
    | with_reducible apply kept_ite | split | dsimp only | with_reducible assumption
    | refine kept_fst (by assumption) ?_ | refine kept_snd (by assumption) ?_ | exact rfl | assumption
    | exact (Fact.out : κ .lanes = false)

theorem kept_execPairFaultClear [κ.Out .events] [κ.Out .lanes] [κ.Out .ports] [κ.Out .housekeeping]
    [κ.Out .captures] {s₀ : State} {h0 : Fin 96} {cmP : Fin 65536} {cmN : Fin 65536} {s : State} (h : Kept κ s₀ s) :
    KeptO κ s₀ (execPairFaultClear h0 cmP cmN s) := by
  unfold execPairFaultClear
  repeat' first
    | intro _ | with_reducible apply kept_next | with_reducible apply kept_live
    | with_reducible apply kept_cmCleared | with_reducible apply kept_ite | split | dsimp only
    | with_reducible assumption | refine kept_fst (by assumption) ?_ | refine kept_snd (by assumption) ?_
    | exact rfl | assumption

theorem kept_pairTest [κ.Out .events] [κ.Out .lanes] [κ.Out .ports] [κ.Out .housekeeping] [κ.Out .captures]
    {s₀ s : State} {h0 : Nat} {reading : Nat} (h : Kept κ s₀ s) :
    Kept κ s₀ (State.pairTest s h0 reading) := by
  unfold State.pairTest
  repeat' first
    | intro _ | with_reducible apply kept_set | with_reducible apply kept_pairSet
    | with_reducible apply kept_ite | split | dsimp only | with_reducible assumption
    | refine kept_fst (by assumption) ?_ | refine kept_snd (by assumption) ?_ | exact rfl | assumption
    | exact (Fact.out : κ .lanes = false)

theorem kept_writePairTest [κ.Out .events] [κ.Out .lanes] [κ.Out .ports] [κ.Out .housekeeping] [κ.Out .captures]
    {s₀ : State} {h0 : Nat} {reading : Nat} {s : State} (h : Kept κ s₀ s) :
    Kept κ s₀ (writePairTest h0 reading s).1 := by
  unfold writePairTest
  repeat' first
    | intro _ | with_reducible apply kept_pairTest | with_reducible apply kept_ite
    | with_reducible apply kept_ite_fst | split | dsimp only | with_reducible assumption
    | refine kept_fst (by assumption) ?_ | refine kept_snd (by assumption) ?_ | exact rfl | assumption

theorem kept_execPairTest [κ.Out .events] [κ.Out .management] [κ.Out .lanes] [κ.Out .ports] [κ.Out .housekeeping]
    [κ.Out .captures] {s₀ : State} {cl : Client} {h0 : Fin 96} {reading : Fin 65536} {s : State} (h : Kept κ s₀ s) :
    KeptO κ s₀ (execPairTest cl h0 reading s) := by
  unfold execPairTest
  repeat' first
    | intro _ | with_reducible apply kept_next | with_reducible refine kept_serveWrite ?_ ?_ (by first | exact .inl (by decide) | exact .inr Fact.out)
    | with_reducible apply kept_writePairTest | with_reducible apply kept_ite | split | dsimp only
    | with_reducible assumption | refine kept_fst (by assumption) ?_ | refine kept_snd (by assumption) ?_
    | exact rfl | assumption

theorem kept_laneStep [κ.Out .lanes] {s₀ s : State} {h0 : Nat} {n : Int} {state : Int} (h : Kept κ s₀ s) :
    Kept κ s₀ (State.laneStep s h0 n state) := by
  unfold State.laneStep
  repeat' first
    | intro _ | with_reducible apply kept_set | with_reducible apply kept_ite | split | dsimp only
    | with_reducible assumption | refine kept_fst (by assumption) ?_ | refine kept_snd (by assumption) ?_
    | exact rfl | assumption | exact (Fact.out : κ .lanes = false)

theorem kept_laneStart [κ.Out .lanes] {s₀ s : State} {h0 : Nat} {low : Bool} (h : Kept κ s₀ s) :
    Kept κ s₀ (State.laneStart s h0 low) := by
  unfold State.laneStart
  repeat' first
    | intro _ | with_reducible apply kept_laneStep | with_reducible apply kept_set
    | with_reducible apply kept_setFlag | with_reducible apply kept_ite | split | dsimp only
    | with_reducible assumption | refine kept_fst (by assumption) ?_ | refine kept_snd (by assumption) ?_
    | exact rfl | assumption | exact (Fact.out : κ .lanes = false)

theorem kept_laneDown [κ.Out .lanes] [κ.Out .ports] {s₀ s : State} {h0 : Nat} (h : Kept κ s₀ s) :
    Kept κ s₀ (State.laneDown s h0) := by
  unfold State.laneDown
  repeat' first
    | intro _ | with_reducible apply kept_set | with_reducible apply kept_laneStep
    | with_reducible apply kept_portsEval | with_reducible apply kept_ite | split | dsimp only
    | with_reducible assumption | refine kept_fst (by assumption) ?_ | refine kept_snd (by assumption) ?_
    | exact rfl | assumption | exact (Fact.out : κ .lanes = false)

theorem kept_lanePowerEval [κ.Out .lanes] [κ.Out .ports] {s₀ s : State} {h0 : Nat} (h : Kept κ s₀ s) :
    Kept κ s₀ (State.lanePowerEval s h0) := by
  unfold State.lanePowerEval
  repeat' first
    | intro _ | with_reducible apply kept_laneStart | with_reducible apply kept_laneDown
    | with_reducible apply kept_ite | split | dsimp only | with_reducible assumption
    | refine kept_fst (by assumption) ?_ | refine kept_snd (by assumption) ?_ | exact rfl | assumption

theorem kept_lanesWake [κ.Out .lanes] {s₀ s : State} {l : List Nat} (h : Kept κ s₀ s) :
    Kept κ s₀ (State.lanesWake s l) := by
  unfold State.lanesWake
  repeat' first
    | intro _ | with_reducible apply kept_each | with_reducible apply kept_laneStart
    | with_reducible apply kept_ite | split | dsimp only | with_reducible assumption
    | refine kept_fst (by assumption) ?_ | refine kept_snd (by assumption) ?_ | exact rfl | assumption

theorem kept_execLaneDeepLowPower [κ.Out .lanes] [κ.Out .ports] {s₀ : State} {h0 : Fin 96} {s : State}
    (h : Kept κ s₀ s) :
    KeptO κ s₀ (execLaneDeepLowPower h0 s) := by
  unfold execLaneDeepLowPower
  repeat' first
    | intro _ | with_reducible apply kept_next | with_reducible apply kept_live
    | with_reducible apply kept_lanePowerEval | with_reducible apply kept_ite | split | dsimp only
    | with_reducible assumption | refine kept_fst (by assumption) ?_ | refine kept_snd (by assumption) ?_
    | exact rfl | assumption

theorem kept_lanesUp [κ.Out .lanes] {s₀ s : State} (h : Kept κ s₀ s) :
    Kept κ s₀ (State.lanesUp s) := by
  unfold State.lanesUp
  repeat' first
    | intro _ | with_reducible apply kept_each | with_reducible apply kept_laneStart
    | with_reducible apply kept_set | with_reducible apply kept_ite | split | dsimp only
    | with_reducible assumption | refine kept_fst (by assumption) ?_ | refine kept_snd (by assumption) ?_
    | exact rfl | assumption | exact (Fact.out : κ .lanes = false)

theorem kept_lanesOff [κ.Out .events] [κ.Out .lanes] [κ.Out .ports] [κ.Out .housekeeping] [κ.Out .captures]
    {s₀ s : State} (h : Kept κ s₀ s) :
    Kept κ s₀ (State.lanesOff s) := by
  unfold State.lanesOff
  repeat' first
    | intro _ | with_reducible apply kept_each | with_reducible apply kept_laneDown
    | with_reducible apply kept_portLose | with_reducible apply kept_ite | split | dsimp only
    | with_reducible assumption | refine kept_fst (by assumption) ?_ | refine kept_snd (by assumption) ?_
    | exact rfl | assumption

theorem kept_orderLocked [κ.Out .lanes] {s₀ s : State} {h0 : Nat} (h : Kept κ s₀ s) :
    Kept κ s₀ (State.orderLocked s h0) := by
  unfold State.orderLocked
  repeat' first
    | intro _ | with_reducible apply kept_set | with_reducible apply kept_ite | split | dsimp only
    | with_reducible assumption | refine kept_fst (by assumption) ?_ | refine kept_snd (by assumption) ?_
    | exact rfl | assumption | exact (Fact.out : κ .lanes = false)

theorem kept_polarity [κ.Out .events] [κ.Out .lanes] [κ.Out .housekeeping] [κ.Out .captures] {s₀ s : State} {h0 : Nat}
    {inverted : Bool} (h : Kept κ s₀ s) :
    Kept κ s₀ (State.polarity s h0 inverted) := by
  unfold State.polarity
  repeat' first
    | intro _ | with_reducible apply kept_set | with_reducible apply kept_setFlag | with_reducible apply kept_raise
    | with_reducible apply kept_ite | split | dsimp only | with_reducible assumption
    | refine kept_fst (by assumption) ?_ | refine kept_snd (by assumption) ?_ | exact rfl | assumption
    | exact (Fact.out : κ .lanes = false)

theorem kept_bringup [κ.Out .events] [κ.Out .lanes] [κ.Out .ports] [κ.Out .housekeeping] [κ.Out .captures]
    {s₀ s : State} {h0 : Nat} {m : LaneReading} (h : Kept κ s₀ s) :
    Kept κ s₀ (State.bringup s h0 m) := by
  unfold State.bringup
  repeat' first
    | intro _ | with_reducible apply kept_step | with_reducible apply kept_pairTest
    | with_reducible apply kept_laneStep | with_reducible apply kept_set | with_reducible apply kept_setBlob
    | with_reducible apply kept_orderLocked | with_reducible apply kept_portsEval
    | with_reducible apply kept_polarity | with_reducible apply kept_bump | with_reducible apply kept_ite | split
    | dsimp only | with_reducible assumption | refine kept_fst (by assumption) ?_
    | refine kept_snd (by assumption) ?_ | exact rfl | assumption | exact (Fact.out : κ .lanes = false)

theorem kept_execLaneBringupStep [κ.Out .events] [κ.Out .lanes] [κ.Out .ports] [κ.Out .housekeeping]
    [κ.Out .captures] {s₀ : State} {h0 : Fin 96} {m : LaneReading} {s : State} (h : Kept κ s₀ s) :
    KeptO κ s₀ (execLaneBringupStep h0 m s) := by
  unfold execLaneBringupStep
  repeat' first
    | intro _ | with_reducible apply kept_next | with_reducible apply kept_live
    | with_reducible apply kept_bringup | with_reducible apply kept_ite | split | dsimp only
    | with_reducible assumption | refine kept_fst (by assumption) ?_ | refine kept_snd (by assumption) ?_
    | exact rfl | assumption

theorem kept_stepTimeout [κ.Out .events] [κ.Out .lanes] [κ.Out .housekeeping] [κ.Out .captures] {s₀ s : State}
    {h0 : Nat} (h : Kept κ s₀ s) :
    Kept κ s₀ (State.stepTimeout s h0) := by
  unfold State.stepTimeout
  repeat' first
    | intro _ | with_reducible apply kept_raise | with_reducible apply kept_laneStep
    | with_reducible apply kept_ite | split | dsimp only | with_reducible assumption
    | refine kept_fst (by assumption) ?_ | refine kept_snd (by assumption) ?_ | exact rfl | assumption

theorem kept_execLaneStepTimeout [κ.Out .events] [κ.Out .lanes] [κ.Out .housekeeping] [κ.Out .captures] {s₀ : State}
    {h0 : Fin 96} {s : State} (h : Kept κ s₀ s) :
    KeptO κ s₀ (execLaneStepTimeout h0 s) := by
  unfold execLaneStepTimeout
  repeat' first
    | intro _ | with_reducible apply kept_next | with_reducible apply kept_live
    | with_reducible apply kept_stepTimeout | with_reducible apply kept_ite | split | dsimp only
    | with_reducible assumption | refine kept_fst (by assumption) ?_ | refine kept_snd (by assumption) ?_
    | exact rfl | assumption

theorem kept_execLaneLosSet [κ.Out .events] [κ.Out .lanes] [κ.Out .ports] [κ.Out .housekeeping] [κ.Out .captures]
    {s₀ : State} {h0 : Fin 96} {s : State} (h : Kept κ s₀ s) :
    KeptO κ s₀ (execLaneLosSet h0 s) := by
  unfold execLaneLosSet
  repeat' first
    | intro _ | with_reducible apply kept_next | with_reducible apply kept_live
    | with_reducible apply kept_losSet | with_reducible apply kept_ite | split | dsimp only
    | with_reducible assumption | refine kept_fst (by assumption) ?_ | refine kept_snd (by assumption) ?_
    | exact rfl | assumption

theorem kept_execLaneLosClear [κ.Out .events] [κ.Out .lanes] [κ.Out .ports] [κ.Out .housekeeping] [κ.Out .captures]
    {s₀ : State} {h0 : Fin 96} {s : State} (h : Kept κ s₀ s) :
    KeptO κ s₀ (execLaneLosClear h0 s) := by
  unfold execLaneLosClear
  repeat' first
    | intro _ | with_reducible apply kept_next | with_reducible apply kept_live
    | with_reducible apply kept_portsEval | with_reducible apply kept_raiseClear | with_reducible apply kept_set
    | with_reducible apply kept_ite | split | dsimp only | with_reducible assumption
    | refine kept_fst (by assumption) ?_ | refine kept_snd (by assumption) ?_ | exact rfl | assumption
    | exact (Fact.out : κ .lanes = false)

theorem kept_lockLoss [κ.Out .events] [κ.Out .lanes] [κ.Out .ports] [κ.Out .housekeeping] [κ.Out .captures]
    {s₀ s : State} {h0 : Nat} (h : Kept κ s₀ s) :
    Kept κ s₀ (State.lockLoss s h0) := by
  unfold State.lockLoss
  repeat' first
    | intro _ | with_reducible apply kept_portsEval | with_reducible apply kept_raise
    | with_reducible apply kept_bump | with_reducible apply kept_laneStep | with_reducible apply kept_set
    | with_reducible apply kept_ite | split | dsimp only | with_reducible assumption
    | refine kept_fst (by assumption) ?_ | refine kept_snd (by assumption) ?_ | exact rfl | assumption
    | exact (Fact.out : κ .lanes = false)

theorem kept_execLaneLockLoss [κ.Out .events] [κ.Out .lanes] [κ.Out .ports] [κ.Out .housekeeping] [κ.Out .captures]
    {s₀ : State} {h0 : Fin 96} {s : State} (h : Kept κ s₀ s) :
    KeptO κ s₀ (execLaneLockLoss h0 s) := by
  unfold execLaneLockLoss
  repeat' first
    | intro _ | with_reducible apply kept_next | with_reducible apply kept_live
    | with_reducible apply kept_lockLoss | with_reducible apply kept_ite | split | dsimp only
    | with_reducible assumption | refine kept_fst (by assumption) ?_ | refine kept_snd (by assumption) ?_
    | exact rfl | assumption

theorem kept_relockTimeout [κ.Out .lanes] {s₀ s : State} {h0 : Nat} (h : Kept κ s₀ s) :
    Kept κ s₀ (State.relockTimeout s h0) := by
  unfold State.relockTimeout
  repeat' first
    | intro _ | with_reducible apply kept_laneStep | with_reducible apply kept_set
    | with_reducible apply kept_ite | split | dsimp only | with_reducible assumption
    | refine kept_fst (by assumption) ?_ | refine kept_snd (by assumption) ?_ | exact rfl | assumption
    | exact (Fact.out : κ .lanes = false)

theorem kept_execLaneRelockTimeout [κ.Out .lanes] {s₀ : State} {h0 : Fin 96} {s : State} (h : Kept κ s₀ s) :
    KeptO κ s₀ (execLaneRelockTimeout h0 s) := by
  unfold execLaneRelockTimeout
  repeat' first
    | intro _ | with_reducible apply kept_next | with_reducible apply kept_live
    | with_reducible apply kept_relockTimeout | with_reducible apply kept_ite | split | dsimp only
    | with_reducible assumption | refine kept_fst (by assumption) ?_ | refine kept_snd (by assumption) ?_
    | exact rfl | assumption

theorem kept_execRefhLoss [κ.Out .events] [κ.Out .lanes] [κ.Out .ports] [κ.Out .housekeeping] [κ.Out .captures]
    {s₀ : State} {k : Fin 2} {s : State} (h : Kept κ s₀ s) :
    KeptO κ s₀ (execRefhLoss k s) := by
  unfold execRefhLoss
  repeat' first
    | intro _ | with_reducible apply kept_next | with_reducible apply kept_live | with_reducible apply kept_each
    | with_reducible apply kept_set | with_reducible apply kept_lockLoss | with_reducible apply kept_ite | split
    | dsimp only | with_reducible assumption | refine kept_fst (by assumption) ?_
    | refine kept_snd (by assumption) ?_ | exact rfl | assumption | exact (Fact.out : κ .lanes = false)

theorem kept_execRefhReturn [κ.Out .lanes] {s₀ : State} {k : Fin 2} {s : State} (h : Kept κ s₀ s) :
    KeptO κ s₀ (execRefhReturn k s) := by
  unfold execRefhReturn
  repeat' first
    | intro _ | with_reducible apply kept_next | with_reducible apply kept_live | with_reducible apply kept_set
    | with_reducible apply kept_ite | split | dsimp only | with_reducible assumption
    | refine kept_fst (by assumption) ?_ | refine kept_snd (by assumption) ?_ | exact rfl | assumption
    | exact (Fact.out : κ .lanes = false)

theorem kept_prbsSend [κ.Out .patterns] {s₀ s : State} {h0 : Nat} {received : List Bool} (h : Kept κ s₀ s) :
    Kept κ s₀ (State.prbsSend s h0 received).2 := by
  unfold State.prbsSend
  repeat' first
    | intro _ | with_reducible apply kept_emit | with_reducible apply kept_set | with_reducible apply kept_ite
    | split | dsimp only | with_reducible assumption | refine kept_fst (by assumption) ?_
    | refine kept_snd (by assumption) ?_ | exact rfl | assumption | exact (Fact.out : κ .patterns = false)

theorem kept_prbsCheck [κ.Out .patterns] {s₀ s : State} {h0 : Nat} {bits : List Bool} (h : Kept κ s₀ s) :
    Kept κ s₀ (State.prbsCheck s h0 bits) := by
  unfold State.prbsCheck
  repeat' first
    | intro _ | with_reducible apply kept_bump | with_reducible apply kept_set | with_reducible apply kept_setFlag
    | with_reducible apply kept_ite | split | dsimp only | with_reducible assumption
    | refine kept_fst (by assumption) ?_ | refine kept_snd (by assumption) ?_ | exact rfl | assumption
    | exact (Fact.out : κ .patterns = false)

theorem kept_prbsSearch [κ.Out .patterns] {s₀ s : State} {h0 : Nat} {bits : List Bool} (h : Kept κ s₀ s) :
    Kept κ s₀ (State.prbsSearch s h0 bits) := by
  unfold State.prbsSearch
  repeat' first
    | intro _ | with_reducible apply kept_set | with_reducible apply kept_ite | split | dsimp only
    | with_reducible assumption | refine kept_fst (by assumption) ?_ | refine kept_snd (by assumption) ?_
    | exact rfl | assumption | exact (Fact.out : κ .patterns = false)

theorem kept_dfeWindow [κ.Out .lanes] [κ.Out .patterns] {s₀ s : State} {h0 : Nat} {sums : Vector Int 8} {snr : Int}
    {received : List Bool} (h : Kept κ s₀ s) :
    Kept κ s₀ (State.dfeWindow s h0 sums snr received) := by
  unfold State.dfeWindow
  repeat' first
    | intro _ | with_reducible apply kept_prbsSend | with_reducible apply kept_set
    | with_reducible apply kept_prbsCheck | with_reducible apply kept_setBlob | with_reducible apply kept_ite
    | split | dsimp only | with_reducible assumption | refine kept_fst (by assumption) ?_
    | refine kept_snd (by assumption) ?_ | exact rfl | assumption | exact (Fact.out : κ .lanes = false)

theorem kept_execDfeAdaptWindow [κ.Out .lanes] [κ.Out .patterns] {s₀ s : State} {h0 : Fin 96} {sums : Vector Int 8}
    {snr : Int} {bits : List Bool} (h : Kept κ s₀ s) :
    KeptO κ s₀ (execDfeAdaptWindow h0 sums snr bits s) := by
  unfold execDfeAdaptWindow
  repeat' first
    | intro _ | with_reducible apply kept_live | with_reducible apply kept_dfeWindow
    | with_reducible apply kept_ite | split | dsimp only | with_reducible assumption
    | refine kept_fst (by assumption) ?_ | refine kept_snd (by assumption) ?_ | exact rfl | assumption

theorem kept_orderSearch [κ.Out .events] [κ.Out .lanes] [κ.Out .ports] [κ.Out .housekeeping] [κ.Out .captures]
    {s₀ s : State} {o : Nat} {straight : Nat} {reversed : Nat} (h : Kept κ s₀ s) :
    Kept κ s₀ (State.orderSearch s o straight reversed) := by
  unfold State.orderSearch
  repeat' first
    | intro _ | with_reducible apply kept_set | with_reducible apply kept_setFlag | with_reducible apply kept_raise
    | with_reducible apply kept_portsEval | with_reducible apply kept_ite | split | dsimp only
    | with_reducible assumption | refine kept_fst (by assumption) ?_ | refine kept_snd (by assumption) ?_
    | exact rfl | assumption | exact (Fact.out : κ .lanes = false)

theorem kept_orderForget [κ.Out .lanes] {s₀ s : State} {o : Nat} (h : Kept κ s₀ s) :
    Kept κ s₀ (State.orderForget s o) := by
  unfold State.orderForget
  repeat' first
    | intro _ | with_reducible apply kept_set | with_reducible apply kept_ite | split | dsimp only
    | with_reducible assumption | refine kept_fst (by assumption) ?_ | refine kept_snd (by assumption) ?_
    | exact rfl | assumption | exact (Fact.out : κ .lanes = false)

theorem kept_execOctetOrderSearch [κ.Out .events] [κ.Out .lanes] [κ.Out .ports] [κ.Out .housekeeping]
    [κ.Out .captures] {s₀ : State} {o : Fin 12} {straight : Fin 16} {reversed : Fin 16} {s : State}
    (h : Kept κ s₀ s) :
    KeptO κ s₀ (execOctetOrderSearch o straight reversed s) := by
  unfold execOctetOrderSearch
  repeat' first
    | intro _ | with_reducible apply kept_next | with_reducible apply kept_live
    | with_reducible apply kept_orderSearch | with_reducible apply kept_ite | split | dsimp only
    | with_reducible assumption | refine kept_fst (by assumption) ?_ | refine kept_snd (by assumption) ?_
    | exact rfl | assumption

theorem kept_octetChanged [κ.Out .events] [κ.Out .ports] [κ.Out .housekeeping] [κ.Out .captures] {s₀ s : State}
    {o : Nat} (h : Kept κ s₀ s) :
    Kept κ s₀ (State.octetChanged s o) := by
  unfold State.octetChanged
  repeat' first
    | intro _ | with_reducible apply kept_portsEval | with_reducible apply kept_each
    | with_reducible apply kept_portLose | with_reducible apply kept_ite | split | dsimp only
    | with_reducible assumption | refine kept_fst (by assumption) ?_ | refine kept_snd (by assumption) ?_
    | exact rfl | assumption

theorem kept_pcsEnter [κ.Out .tributaries] [κ.Out .custody] {s₀ s : State} {p : Nat} {t : Nat} {n : Nat}
    (h : Kept κ s₀ s) :
    Kept κ s₀ (State.pcsEnter s p t n).1 := by
  unfold State.pcsEnter
  repeat' first
    | intro _ | with_reducible apply kept_setRxTrib | with_reducible apply kept_bump
    | with_reducible apply kept_foldl | with_reducible apply kept_foldl_fst | with_reducible apply kept_ite
    | with_reducible apply kept_ite_fst | split | dsimp only | with_reducible assumption
    | refine kept_fst (by assumption) ?_ | refine kept_snd (by assumption) ?_ | exact rfl | assumption
    | exact (Fact.out : κ .custody = false)

theorem kept_pcsSent [κ.Out .events] [κ.Out .ports] [κ.Out .housekeeping] [κ.Out .captures] {s₀ s : State} {p : Nat}
    {x : Egress} (h : Kept κ s₀ s) :
    Kept κ s₀ (State.pcsSent s p x) := by
  unfold State.pcsSent
  extract_lets x1 x2 x3
  have k1 : Kept κ s₀ x1 := by
    unfold x1
    repeat' first
      | intro _ | with_reducible apply kept_setEgress | with_reducible apply kept_bump
      | with_reducible apply kept_each | with_reducible apply kept_raise | with_reducible apply kept_emit
      | with_reducible apply kept_ite | split | dsimp only | with_reducible assumption
      | refine kept_fst (by assumption) ?_ | refine kept_snd (by assumption) ?_ | exact rfl | assumption
      | exact (Fact.out : κ .ports = false)
  clear_value x1
  have k2 : Kept κ s₀ x2 := by
    unfold x2
    repeat' first
      | intro _ | with_reducible apply kept_setEgress | with_reducible apply kept_bump
      | with_reducible apply kept_each | with_reducible apply kept_raise | with_reducible apply kept_emit
      | with_reducible apply kept_ite | split | dsimp only | with_reducible assumption
      | refine kept_fst (by assumption) ?_ | refine kept_snd (by assumption) ?_ | exact rfl | assumption
      | exact (Fact.out : κ .ports = false)
  clear_value x2
  have k3 : Kept κ s₀ x3 := by
    unfold x3
    repeat' first
      | intro _ | with_reducible apply kept_setEgress | with_reducible apply kept_bump
      | with_reducible apply kept_each | with_reducible apply kept_raise | with_reducible apply kept_emit
      | with_reducible apply kept_ite | split | dsimp only | with_reducible assumption
      | refine kept_fst (by assumption) ?_ | refine kept_snd (by assumption) ?_ | exact rfl | assumption
      | exact (Fact.out : κ .ports = false)
  clear_value x3
  repeat' first
    | intro _ | with_reducible apply kept_setEgress | with_reducible apply kept_bump
    | with_reducible apply kept_each | with_reducible apply kept_raise | with_reducible apply kept_emit
    | with_reducible apply kept_ite | split | dsimp only | with_reducible assumption
    | refine kept_fst (by assumption) ?_ | refine kept_snd (by assumption) ?_ | exact rfl | assumption
    | exact (Fact.out : κ .ports = false)

theorem kept_streamOut [κ.Out .events] [κ.Out .ports] [κ.Out .tributaries] [κ.Out .housekeeping] [κ.Out .custody]
    [κ.Out .captures] {s₀ s : State} {p : Nat} {t : Nat} (h : Kept κ s₀ s) :
    Kept κ s₀ (State.streamOut s p t) := by
  unfold State.streamOut
  repeat' first
    | intro _ | with_reducible apply kept_demapNone | with_reducible apply kept_setEgress
    | with_reducible apply kept_demapPlain | with_reducible apply kept_pcsEnter | with_reducible apply kept_pcsSent
    | with_reducible apply kept_ite | split | dsimp only | with_reducible assumption
    | refine kept_fst (by assumption) ?_ | refine kept_snd (by assumption) ?_ | exact rfl | assumption

theorem kept_rateMatch [κ.Out .events] [κ.Out .ports] [κ.Out .tributaries] [κ.Out .housekeeping] [κ.Out .custody]
    [κ.Out .captures] {s₀ s : State} {p : Nat} {enter : Nat} {send : Nat} {demap : List TileRead}
    {egress : List TileRead} (h : Kept κ s₀ s) :
    Kept κ s₀ (State.rateMatch s p enter send demap egress) := by
  unfold State.rateMatch
  repeat' first
    | intro _ | with_reducible apply kept_demapNone | with_reducible apply kept_setEgress
    | with_reducible apply kept_demapPlain | with_reducible apply kept_demapReads
    | with_reducible apply kept_pcsEnter | with_reducible apply kept_pcsSent | with_reducible apply kept_ite
    | split | dsimp only | with_reducible assumption | refine kept_fst (by assumption) ?_
    | refine kept_snd (by assumption) ?_ | exact rfl | assumption

theorem kept_execRateMatchAdjust [κ.Out .events] [κ.Out .ports] [κ.Out .tributaries] [κ.Out .housekeeping]
    [κ.Out .custody] [κ.Out .captures] {s₀ s : State} {p : Fin 48} {enter : Nat} {send : Nat} {demap : List TileRead}
    {egress : List TileRead} (h : Kept κ s₀ s) :
    KeptO κ s₀ (execRateMatchAdjust p enter send demap egress s) := by
  unfold execRateMatchAdjust
  repeat' first
    | intro _ | with_reducible apply kept_live | with_reducible apply kept_rateMatch
    | with_reducible apply kept_ite | split | dsimp only | with_reducible assumption
    | refine kept_fst (by assumption) ?_ | refine kept_snd (by assumption) ?_ | exact rfl | assumption

theorem kept_prbsClear [κ.Out .patterns] {s₀ s : State} {h0 : Nat} (h : Kept κ s₀ s) :
    Kept κ s₀ (State.prbsClear s h0) := by
  unfold State.prbsClear
  repeat' first
    | intro _ | with_reducible apply kept_set | with_reducible apply kept_ite | split | dsimp only
    | with_reducible assumption | refine kept_fst (by assumption) ?_ | refine kept_snd (by assumption) ?_
    | exact rfl | assumption | exact (Fact.out : κ .patterns = false)

theorem kept_prbsSeed [κ.Out .patterns] {s₀ s : State} {h0 : Nat} {code : Nat} (h : Kept κ s₀ s) :
    Kept κ s₀ (State.prbsSeed s h0 code) := by
  unfold State.prbsSeed
  repeat' first
    | intro _ | with_reducible apply kept_set | with_reducible apply kept_takeFree | with_reducible apply kept_ite
    | split | dsimp only | with_reducible assumption | refine kept_fst (by assumption) ?_
    | refine kept_snd (by assumption) ?_ | exact rfl | assumption | exact (Fact.out : κ .patterns = false)

theorem kept_writePrbs [κ.Out .lanes] [κ.Out .patterns] {s₀ s : State} {r : Reg} {h0 : Nat} {v : Int}
    (h : Kept κ s₀ s)
    (hr : κ (Safety.part r) = false := by first | assumption | ((conv in Safety.part _ => whnf); exact Fact.out) | exact leaves_none _) :
    Kept κ s₀ (writePrbs r h0 v s).1 := by
  unfold writePrbs
  repeat' first
    | intro _ | with_reducible apply kept_set | with_reducible apply kept_prbsClear
    | with_reducible apply kept_lanesWake | with_reducible apply kept_prbsSeed | with_reducible apply kept_ite
    | with_reducible apply kept_ite_fst | split | dsimp only | with_reducible assumption
    | refine kept_fst (by assumption) ?_ | refine kept_snd (by assumption) ?_ | exact rfl | assumption
    | exact (Fact.out : κ .patterns = false)

theorem kept_laneAgain [κ.Out .events] [κ.Out .lanes] [κ.Out .ports] [κ.Out .housekeeping] [κ.Out .captures]
    {s₀ s : State} {h0 : Nat} (h : Kept κ s₀ s) :
    Kept κ s₀ (State.laneAgain s h0) := by
  unfold State.laneAgain
  repeat' first
    | intro _ | with_reducible apply kept_set | with_reducible apply kept_laneStep
    | with_reducible apply kept_octetChanged | with_reducible apply kept_ite | split | dsimp only
    | with_reducible assumption | refine kept_fst (by assumption) ?_ | refine kept_snd (by assumption) ?_
    | exact rfl | assumption | exact (Fact.out : κ .lanes = false)

theorem kept_writeLoopback [κ.Out .events] [κ.Out .lanes] [κ.Out .patterns] [κ.Out .ports] [κ.Out .housekeeping]
    [κ.Out .captures] {s₀ s : State} {h0 : Nat} {v : Int} (h : Kept κ s₀ s) :
    Kept κ s₀ (writeLoopback h0 v s).1 := by
  unfold writeLoopback
  repeat' first
    | intro _ | with_reducible apply kept_set | with_reducible apply kept_laneAgain | with_reducible apply kept_ite
    | with_reducible apply kept_ite_fst | split | dsimp only | with_reducible assumption
    | refine kept_fst (by assumption) ?_ | refine kept_snd (by assumption) ?_ | exact rfl | assumption
    | exact (Fact.out : κ .patterns = false)

theorem kept_testsOff [κ.Out .events] [κ.Out .lanes] [κ.Out .patterns] [κ.Out .ports] [κ.Out .housekeeping]
    [κ.Out .captures] {s₀ s : State} (h : Kept κ s₀ s) :
    Kept κ s₀ (State.testsOff s) := by
  unfold State.testsOff
  repeat' first
    | intro _ | with_reducible apply kept_each | with_reducible apply kept_set
    | with_reducible apply kept_laneAgain | with_reducible apply kept_ite | split | dsimp only
    | with_reducible assumption | refine kept_fst (by assumption) ?_ | refine kept_snd (by assumption) ?_
    | exact rfl | assumption | exact (Fact.out : κ .patterns = false)

theorem kept_inject [κ.Out .patterns] {s₀ s : State} {h0 : Nat} (h : Kept κ s₀ s) :
    Kept κ s₀ (State.inject s h0) := by
  unfold State.inject
  repeat' first
    | intro _ | with_reducible apply kept_bump | with_reducible apply kept_set | with_reducible apply kept_ite
    | split | dsimp only | with_reducible assumption | refine kept_fst (by assumption) ?_
    | refine kept_snd (by assumption) ?_ | exact rfl | assumption | exact (Fact.out : κ .patterns = false)

theorem kept_writeInject [κ.Out .patterns] {s₀ s : State} {h0 : Nat} (h : Kept κ s₀ s) :
    Kept κ s₀ (writeInject h0 s).1 := by
  unfold writeInject
  repeat' first
    | intro _ | with_reducible apply kept_inject | with_reducible apply kept_ite
    | with_reducible apply kept_ite_fst | split | dsimp only | with_reducible assumption
    | refine kept_fst (by assumption) ?_ | refine kept_snd (by assumption) ?_ | exact rfl | assumption

theorem kept_execPrbsInject [κ.Out .events] [κ.Out .management] [κ.Out .patterns] [κ.Out .housekeeping]
    [κ.Out .captures] {s₀ : State} {cl : Client} {h0 : Fin 96} {s : State} (h : Kept κ s₀ s) :
    KeptO κ s₀ (execPrbsInject cl h0 s) := by
  unfold execPrbsInject
  repeat' first
    | intro _ | with_reducible apply kept_next | with_reducible refine kept_serveWrite ?_ ?_ (by first | exact .inl (by decide) | exact .inr Fact.out)
    | with_reducible apply kept_writeInject | with_reducible apply kept_ite | split | dsimp only
    | with_reducible assumption | refine kept_fst (by assumption) ?_ | refine kept_snd (by assumption) ?_
    | exact rfl | assumption

theorem kept_execPrbsInjectPeriodic [κ.Out .patterns] {s₀ s : State} {h0 : Fin 96} (h : Kept κ s₀ s) :
    KeptO κ s₀ (execPrbsInjectPeriodic h0 s) := by
  unfold execPrbsInjectPeriodic
  repeat' first
    | intro _ | with_reducible apply kept_live | with_reducible apply kept_inject | with_reducible apply kept_ite
    | split | dsimp only | with_reducible assumption | refine kept_fst (by assumption) ?_
    | refine kept_snd (by assumption) ?_ | exact rfl | assumption

theorem kept_execPrbsCheckerLock [κ.Out .patterns] {s₀ s : State} {h0 : Fin 96} {bits : List Bool} (h : Kept κ s₀ s) :
    KeptO κ s₀ (execPrbsCheckerLock h0 bits s) := by
  unfold execPrbsCheckerLock
  repeat' first
    | intro _ | with_reducible apply kept_live | with_reducible apply kept_prbsSearch
    | with_reducible apply kept_ite | split | dsimp only | with_reducible assumption
    | refine kept_fst (by assumption) ?_ | refine kept_snd (by assumption) ?_ | exact rfl | assumption

theorem kept_execPrbsCheckerUnlock [κ.Out .patterns] {s₀ s : State} {h0 : Fin 96} (h : Kept κ s₀ s) :
    KeptO κ s₀ (execPrbsCheckerUnlock h0 s) := by
  unfold execPrbsCheckerUnlock
  repeat' first
    | intro _ | with_reducible apply kept_live | with_reducible apply kept_set | with_reducible apply kept_ite
    | split | dsimp only | with_reducible assumption | refine kept_fst (by assumption) ?_
    | refine kept_snd (by assumption) ?_ | exact rfl | assumption | exact (Fact.out : κ .patterns = false)

theorem kept_writeLanePower [κ.Out .lanes] {s₀ s : State} {h0 : Nat} {v : Int} (h : Kept κ s₀ s) :
    Kept κ s₀ (writeLanePower h0 v s).1 := by
  unfold writeLanePower
  repeat' first
    | intro _ | with_reducible apply kept_set | with_reducible apply kept_lanesWake | with_reducible apply kept_ite
    | with_reducible apply kept_ite_fst | split | dsimp only | with_reducible assumption
    | refine kept_fst (by assumption) ?_ | refine kept_snd (by assumption) ?_ | exact rfl | assumption
    | exact (Fact.out : κ .lanes = false)

theorem kept_writePolarity [κ.Out .lanes] {s₀ : State} {r : Reg} {h0 : Nat} {v : Int} {s : State}
    (hr : κ (Safety.part r) = false := by
      first | assumption | ((conv in Safety.part _ => whnf); exact Fact.out) | exact leaves_none _)
    (h : Kept κ s₀ s) :
    Kept κ s₀ (writePolarity r h0 v s).1 := by
  unfold writePolarity
  repeat' first
    | intro _ | with_reducible apply kept_set | with_reducible apply kept_ite
    | with_reducible apply kept_ite_fst | split | dsimp only | with_reducible assumption
    | refine kept_fst (by assumption) ?_ | refine kept_snd (by assumption) ?_ | exact rfl | assumption
    | exact (Fact.out : κ .lanes = false)

theorem kept_writeLosClear [κ.Out .lanes] {s₀ : State} {h0 : Nat} {v : Int} {s : State} (h : Kept κ s₀ s) :
    Kept κ s₀ (writeLosClear h0 v s).1 := by
  unfold writeLosClear
  repeat' first
    | intro _ | with_reducible apply kept_set | with_reducible apply kept_ite
    | with_reducible apply kept_ite_fst | split | dsimp only | with_reducible assumption
    | refine kept_fst (by assumption) ?_ | refine kept_snd (by assumption) ?_ | exact rfl | assumption
    | exact (Fact.out : κ .lanes = false)

theorem kept_writeCtle {s₀ : State} {r : Reg} {h0 : Nat} {v : Int} {s : State}
    (hr : κ (Safety.part r) = false := by
      first | assumption | ((conv in Safety.part _ => whnf); exact Fact.out) | exact leaves_none _)
    (h : Kept κ s₀ s) :
    Kept κ s₀ (writeCtle r h0 v s).1 := by
  unfold writeCtle
  repeat' first
    | intro _ | with_reducible apply kept_set | with_reducible apply kept_ite
    | with_reducible apply kept_ite_fst | split | dsimp only | with_reducible assumption
    | refine kept_fst (by assumption) ?_ | refine kept_snd (by assumption) ?_ | exact rfl | assumption

theorem kept_writeTxTap [κ.Out .lanes] {s₀ : State} {r : Reg} {h0 : Nat} {v : Int} {s : State}
    (hr : κ (Safety.part r) = false := by
      first | assumption | ((conv in Safety.part _ => whnf); exact Fact.out) | exact leaves_none _)
    (h : Kept κ s₀ s) :
    Kept κ s₀ (writeTxTap r h0 v s).1 := by
  unfold writeTxTap
  repeat' first
    | intro _ | with_reducible apply kept_set | with_reducible apply kept_ite
    | with_reducible apply kept_ite_fst | split | dsimp only | with_reducible assumption
    | refine kept_fst (by assumption) ?_ | refine kept_snd (by assumption) ?_ | exact rfl | assumption
    | exact (Fact.out : κ .lanes = false)

theorem kept_writeOrderMode [κ.Out .events] [κ.Out .lanes] [κ.Out .ports] [κ.Out .housekeeping] [κ.Out .captures]
    {s₀ s : State} {o : Nat} {v : Int} (h : Kept κ s₀ s) :
    Kept κ s₀ (writeOrderMode o v s).1 := by
  unfold writeOrderMode
  repeat' first
    | intro _ | with_reducible apply kept_set | with_reducible apply kept_orderForget
    | with_reducible apply kept_lanesWake | with_reducible apply kept_octetChanged | with_reducible apply kept_ite
    | with_reducible apply kept_ite_fst | split | dsimp only | with_reducible assumption
    | refine kept_fst (by assumption) ?_ | refine kept_snd (by assumption) ?_ | exact rfl | assumption
    | exact (Fact.out : κ .lanes = false)

theorem kept_writePortRate [κ.Out .events] [κ.Out .lanes] [κ.Out .ports] [κ.Out .housekeeping] [κ.Out .captures]
    {s₀ s : State} {p : Nat} {v : Int} (h : Kept κ s₀ s) :
    Kept κ s₀ (writePortRate p v s).1 := by
  unfold writePortRate
  repeat' first
    | intro _ | with_reducible apply kept_set | with_reducible apply kept_orderForget
    | with_reducible apply kept_lanesWake | with_reducible apply kept_octetChanged | with_reducible apply kept_ite
    | with_reducible apply kept_ite_fst | split | dsimp only | with_reducible assumption
    | refine kept_fst (by assumption) ?_ | refine kept_snd (by assumption) ?_ | exact rfl | assumption
    | exact (Fact.out : κ .ports = false)

theorem kept_writePortEnable [κ.Out .events] [κ.Out .lanes] [κ.Out .ports] [κ.Out .housekeeping] [κ.Out .captures]
    {s₀ s : State} {p : Nat} {v : Int} (h : Kept κ s₀ s) :
    Kept κ s₀ (writePortEnable p v s).1 := by
  unfold writePortEnable
  repeat' first
    | intro _ | with_reducible apply kept_takeFree | with_reducible apply kept_bump | with_reducible apply kept_set
    | with_reducible apply kept_lanesWake | with_reducible apply kept_pfcEval
    | with_reducible apply kept_octetChanged | with_reducible apply kept_ite | with_reducible apply kept_ite_fst
    | split | dsimp only | with_reducible assumption | refine kept_fst (by assumption) ?_
    | refine kept_snd (by assumption) ?_ | exact rfl | assumption | exact (Fact.out : κ .ports = false)

end Sys2Proof.Laws
end

