-- ==== Sys2Proof/Laws/Kept/Mode.lean ====
section
/-! SUPPORT. Every operation of Machine/Mode.lean keeps (Laws/Kept.lean). -/

set_option Elab.async false
set_option linter.unusedTactic false
set_option linter.unreachableTactic false
set_option linter.unusedVariables false

namespace Sys2Proof.Laws

open Sys2Proof.Machine

variable {κ : Scope}

theorem kept_raiseKept [κ.Out .events] [κ.Out .housekeeping] [κ.Out .captures] {s₀ s : State} {e : Nat}
    {detail : List Item} (h : Kept κ s₀ s) :
    Kept κ s₀ (State.raiseKept s e detail) := by
  unfold State.raiseKept
  repeat' first
    | intro _ | with_reducible apply kept_raise | with_reducible apply kept_historyPush
    | with_reducible apply kept_ite | split | dsimp only | with_reducible assumption
    | refine kept_fst (by assumption) ?_ | refine kept_snd (by assumption) ?_ | exact rfl | assumption

theorem kept_leavePair [κ.Out .events] [κ.Out .ports] [κ.Out .flows] [κ.Out .tributaries] [κ.Out .slots]
    [κ.Out .housekeeping] [κ.Out .pair] [κ.Out .captures] {s₀ s : State} (h : Kept κ s₀ s) :
    Kept κ s₀ (State.leavePair s) := by
  unfold State.leavePair
  repeat' first
    | intro _ | with_reducible apply kept_endRole | with_reducible apply kept_ite | split | dsimp only
    | with_reducible assumption | refine kept_fst (by assumption) ?_ | refine kept_snd (by assumption) ?_
    | exact rfl | assumption

theorem kept_openBlocks [κ.Out .events] [κ.Out .tributaries] [κ.Out .cores] [κ.Out .slots] [κ.Out .crypt] [κ.Out .housekeeping]
    [κ.Out .custody] [κ.Out .captures]
    {s₀ s : State} {t n : Nat} (h : Kept κ s₀ s) : Kept κ s₀ (State.openBlocks t n s) := by
  induction n generalizing s with
  | zero => exact h
  | succ n ih =>
    unfold State.openBlocks
    split
    · exact ih (kept_rxBlock h)
    · exact h

theorem kept_deliverFrames [κ.Out .events] [κ.Out .ports] [κ.Out .flows] [κ.Out .tributaries] [κ.Out .housekeeping] [κ.Out .snapshots]
    [κ.Out .custody] [κ.Out .captures]
    {s₀ s : State} {t n : Nat} (h : Kept κ s₀ s) : Kept κ s₀ (State.deliverFrames t n s) := by
  induction n generalizing s with
  | zero => exact h
  | succ n ih =>
    unfold State.deliverFrames
    extract_lets r
    have k : Kept κ s₀ r.1 := kept_delineate (kept_demapPlain h)
    split
    · exact ih (kept_when (kept_storeFrame k) fun t ht => kept_drainTrib ht)
    · exact k

theorem kept_releaseAll [κ.Out .events] [κ.Out .rxLine] [κ.Out .overhead] [κ.Out .tributaries] [κ.Out .bonding] [κ.Out .crypt]
    [κ.Out .housekeeping] [κ.Out .captures]
    {s₀ s : State} {g n : Nat} (h : Kept κ s₀ s) : Kept κ s₀ (State.releaseAll g n s) := by
  induction n generalizing s with
  | zero => exact h
  | succ n ih =>
    unfold State.releaseAll
    split
    · exact ih (kept_release h)
    · exact h

theorem kept_finishTrib [κ.Out .events] [κ.Out .ports] [κ.Out .flows] [κ.Out .tributaries] [κ.Out .cores]
    [κ.Out .slots] [κ.Out .crypt] [κ.Out .housekeeping] [κ.Out .snapshots] [κ.Out .custody] [κ.Out .captures]
    {s₀ s : State} {t : Nat} (h : Kept κ s₀ s) :
    Kept κ s₀ (State.finishTrib s t) := by
  unfold State.finishTrib
  repeat' first
    | intro _ | with_reducible apply kept_openBlocks | with_reducible apply kept_streamOut
    | with_reducible apply kept_deliverFrames | with_reducible apply kept_ite | split | dsimp only
    | with_reducible assumption | refine kept_fst (by assumption) ?_ | refine kept_snd (by assumption) ?_
    | exact rfl | assumption

theorem kept_finishReceive [κ.Out .events] [κ.Out .rxLine] [κ.Out .overhead] [κ.Out .ports] [κ.Out .flows]
    [κ.Out .tributaries] [κ.Out .bonding] [κ.Out .cores] [κ.Out .slots] [κ.Out .crypt] [κ.Out .housekeeping]
    [κ.Out .snapshots] [κ.Out .custody] [κ.Out .captures] {s₀ s : State} (h : Kept κ s₀ s) :
    Kept κ s₀ (State.finishReceive s) := by
  unfold State.finishReceive
  repeat' first
    | intro _ | with_reducible apply kept_each | with_reducible apply kept_releaseAll
    | with_reducible apply kept_finishTrib | with_reducible apply kept_ite | split | dsimp only
    | with_reducible assumption | refine kept_fst (by assumption) ?_ | refine kept_snd (by assumption) ?_
    | exact rfl | assumption

theorem kept_leaveCarry [κ.Out .events] [κ.Out .carriers] [κ.Out .ports] [κ.Out .flows] [κ.Out .tributaries]
    [κ.Out .housekeeping] [κ.Out .snapshots] [κ.Out .custody] [κ.Out .captures] {s₀ s : State} (h : Kept κ s₀ s) :
    Kept κ s₀ (State.leaveCarry s) := by
  unfold State.leaveCarry
  extract_lets x1 x2
  have k1 : Kept κ s₀ x1 := by
    unfold x1
    repeat' first
      | intro _ | with_reducible apply kept_flushAll | with_reducible apply kept_each
      | with_reducible apply kept_setCarrierState | with_reducible apply kept_set
      | with_reducible apply kept_drainTribs | with_reducible apply kept_ite | split | dsimp only
      | with_reducible assumption | refine kept_fst (by assumption) ?_ | refine kept_snd (by assumption) ?_
      | exact rfl | assumption | exact (Fact.out : κ .carriers = false)
  clear_value x1
  have k2 : Kept κ s₀ x2 := by
    unfold x2
    repeat' first
      | intro _ | with_reducible apply kept_flushAll | with_reducible apply kept_each
      | with_reducible apply kept_setCarrierState | with_reducible apply kept_set
      | with_reducible apply kept_drainTribs | with_reducible apply kept_ite | split | dsimp only
      | with_reducible assumption | refine kept_fst (by assumption) ?_ | refine kept_snd (by assumption) ?_
      | exact rfl | assumption | exact (Fact.out : κ .carriers = false)
  clear_value x2
  repeat' first
    | intro _ | with_reducible apply kept_flushAll | with_reducible apply kept_each
    | with_reducible apply kept_setCarrierState | with_reducible apply kept_set
    | with_reducible apply kept_drainTribs | with_reducible apply kept_ite | split | dsimp only
    | with_reducible assumption | refine kept_fst (by assumption) ?_ | refine kept_snd (by assumption) ?_
    | exact rfl | assumption | exact (Fact.out : κ .carriers = false)

theorem kept_leaveCatch [κ.Out .events] [κ.Out .carriers] [κ.Out .slack] [κ.Out .txLine] [κ.Out .rxLine]
    [κ.Out .clocks] [κ.Out .converters] [κ.Out .calibration] [κ.Out .banks] [κ.Out .dispersion] [κ.Out .frontEnd]
    [κ.Out .equaliser] [κ.Out .monitors] [κ.Out .neighbours] [κ.Out .recovery] [κ.Out .catching] [κ.Out .defects]
    [κ.Out .overhead] [κ.Out .calendar] [κ.Out .pages] [κ.Out .tributaries] [κ.Out .bonding] [κ.Out .housekeeping]
    [κ.Out .captures] {s₀ s : State} (h : Kept κ s₀ s) :
    Kept κ s₀ (State.leaveCatch s) := by
  unfold State.leaveCatch
  repeat' first
    | intro _ | with_reducible apply kept_each | with_reducible apply kept_toIdle
    | with_reducible apply kept_calAbandonOffline | with_reducible apply kept_calSettle
    | with_reducible apply kept_refreshBg | with_reducible apply kept_ite | split | dsimp only
    | with_reducible assumption | refine kept_fst (by assumption) ?_ | refine kept_snd (by assumption) ?_
    | exact rfl | assumption

theorem kept_loopsOff [κ.Out .clocks] [κ.Out .converters] {s₀ s : State} {c : Nat} (h : Kept κ s₀ s) :
    Kept κ s₀ (State.loopsOff s c) := by
  unfold State.loopsOff
  repeat' first
    | intro _ | with_reducible apply kept_setLoops | with_reducible apply kept_set | with_reducible apply kept_ite
    | split | dsimp only | with_reducible assumption | refine kept_fst (by assumption) ?_
    | refine kept_snd (by assumption) ?_ | exact rfl | assumption | exact (Fact.out : κ .clocks = false)
    | exact (Fact.out : κ .converters = false)

theorem kept_leaveTrim [κ.Out .events] [κ.Out .mode] [κ.Out .clocks] [κ.Out .converters] [κ.Out .calibration]
    [κ.Out .lanes] [κ.Out .ports] [κ.Out .slots] [κ.Out .keys] [κ.Out .housekeeping] [κ.Out .pair] [κ.Out .captures]
    {s₀ s : State} (h : Kept κ s₀ s) :
    Kept κ s₀ (State.leaveTrim s) := by
  unfold State.leaveTrim
  extract_lets x1 x2 x3 x4
  have k1 : Kept κ s₀ x1 := by
    unfold x1
    repeat' first
      | intro _ | with_reducible apply kept_lanesOff | with_reducible apply kept_set
      | with_reducible apply kept_each | with_reducible apply kept_calAbandon
      | with_reducible apply kept_calAbandonOffline | with_reducible apply kept_loopsOff
      | with_reducible apply kept_refreshConv | with_reducible apply kept_refreshBg
      | with_reducible apply kept_eraseAllSlots | with_reducible apply kept_ite | split | dsimp only
      | with_reducible assumption | refine kept_fst (by assumption) ?_ | refine kept_snd (by assumption) ?_
      | exact rfl | assumption | exact (Fact.out : κ .mode = false) | exact (Fact.out : κ .converters = false)
      | exact (Fact.out : κ .pair = false)
  clear_value x1
  have k2 : Kept κ s₀ x2 := by
    unfold x2
    repeat' first
      | intro _ | with_reducible apply kept_lanesOff | with_reducible apply kept_set
      | with_reducible apply kept_each | with_reducible apply kept_calAbandon
      | with_reducible apply kept_calAbandonOffline | with_reducible apply kept_loopsOff
      | with_reducible apply kept_refreshConv | with_reducible apply kept_refreshBg
      | with_reducible apply kept_eraseAllSlots | with_reducible apply kept_ite | split | dsimp only
      | with_reducible assumption | refine kept_fst (by assumption) ?_ | refine kept_snd (by assumption) ?_
      | exact rfl | assumption | exact (Fact.out : κ .mode = false) | exact (Fact.out : κ .converters = false)
      | exact (Fact.out : κ .pair = false)
  clear_value x2
  have k3 : Kept κ s₀ x3 := by
    unfold x3
    repeat' first
      | intro _ | with_reducible apply kept_lanesOff | with_reducible apply kept_set
      | with_reducible apply kept_each | with_reducible apply kept_calAbandon
      | with_reducible apply kept_calAbandonOffline | with_reducible apply kept_loopsOff
      | with_reducible apply kept_refreshConv | with_reducible apply kept_refreshBg
      | with_reducible apply kept_eraseAllSlots | with_reducible apply kept_ite | split | dsimp only
      | with_reducible assumption | refine kept_fst (by assumption) ?_ | refine kept_snd (by assumption) ?_
      | exact rfl | assumption | exact (Fact.out : κ .mode = false) | exact (Fact.out : κ .converters = false)
      | exact (Fact.out : κ .pair = false)
  clear_value x3
  have k4 : Kept κ s₀ x4 := by
    unfold x4
    repeat' first
      | intro _ | with_reducible apply kept_lanesOff | with_reducible apply kept_set
      | with_reducible apply kept_each | with_reducible apply kept_calAbandon
      | with_reducible apply kept_calAbandonOffline | with_reducible apply kept_loopsOff
      | with_reducible apply kept_refreshConv | with_reducible apply kept_refreshBg
      | with_reducible apply kept_eraseAllSlots | with_reducible apply kept_ite | split | dsimp only
      | with_reducible assumption | refine kept_fst (by assumption) ?_ | refine kept_snd (by assumption) ?_
      | exact rfl | assumption | exact (Fact.out : κ .mode = false) | exact (Fact.out : κ .converters = false)
      | exact (Fact.out : κ .pair = false)
  clear_value x4
  repeat' first
    | intro _ | with_reducible apply kept_lanesOff | with_reducible apply kept_set | with_reducible apply kept_each
    | with_reducible apply kept_calAbandon | with_reducible apply kept_calAbandonOffline
    | with_reducible apply kept_loopsOff | with_reducible apply kept_refreshConv
    | with_reducible apply kept_refreshBg | with_reducible apply kept_eraseAllSlots | with_reducible apply kept_ite
    | split | dsimp only | with_reducible assumption | refine kept_fst (by assumption) ?_
    | refine kept_snd (by assumption) ?_ | exact rfl | assumption | exact (Fact.out : κ .mode = false)
    | exact (Fact.out : κ .converters = false) | exact (Fact.out : κ .pair = false)

theorem kept_exitActions [κ.Out .events] [κ.Out .mode] [κ.Out .carriers] [κ.Out .slack] [κ.Out .txLine]
    [κ.Out .rxLine] [κ.Out .clocks] [κ.Out .converters] [κ.Out .calibration] [κ.Out .banks] [κ.Out .dispersion]
    [κ.Out .frontEnd] [κ.Out .equaliser] [κ.Out .monitors] [κ.Out .neighbours] [κ.Out .recovery] [κ.Out .catching]
    [κ.Out .defects] [κ.Out .overhead] [κ.Out .lanes] [κ.Out .ports] [κ.Out .flows] [κ.Out .calendar] [κ.Out .pages]
    [κ.Out .tributaries] [κ.Out .bonding] [κ.Out .slots] [κ.Out .keys] [κ.Out .housekeeping] [κ.Out .snapshots]
    [κ.Out .pair] [κ.Out .custody] [κ.Out .captures]
    {s₀ s : State} {m : Int} {t : Int} (h : Kept κ s₀ s) :
    Kept κ s₀ (State.exitActions s m t) := by
  unfold State.exitActions
  extract_lets x1 x2 x3
  have k1 : Kept κ s₀ x1 := by
    unfold x1
    repeat' first
      | intro _ | with_reducible apply kept_when | with_reducible apply kept_leavePair
      | with_reducible apply kept_leaveCarry | with_reducible apply kept_leaveCatch
      | with_reducible apply kept_leaveTrim | with_reducible apply kept_ite | split | dsimp only
      | with_reducible assumption | refine kept_fst (by assumption) ?_ | refine kept_snd (by assumption) ?_
      | exact rfl | assumption
  clear_value x1
  have k2 : Kept κ s₀ x2 := by
    unfold x2
    repeat' first
      | intro _ | with_reducible apply kept_when | with_reducible apply kept_leavePair
      | with_reducible apply kept_leaveCarry | with_reducible apply kept_leaveCatch
      | with_reducible apply kept_leaveTrim | with_reducible apply kept_ite | split | dsimp only
      | with_reducible assumption | refine kept_fst (by assumption) ?_ | refine kept_snd (by assumption) ?_
      | exact rfl | assumption
  clear_value x2
  have k3 : Kept κ s₀ x3 := by
    unfold x3
    repeat' first
      | intro _ | with_reducible apply kept_when | with_reducible apply kept_leavePair
      | with_reducible apply kept_leaveCarry | with_reducible apply kept_leaveCatch
      | with_reducible apply kept_leaveTrim | with_reducible apply kept_ite | split | dsimp only
      | with_reducible assumption | refine kept_fst (by assumption) ?_ | refine kept_snd (by assumption) ?_
      | exact rfl | assumption
  clear_value x3
  repeat' first
    | intro _ | with_reducible apply kept_when | with_reducible apply kept_leavePair
    | with_reducible apply kept_leaveCarry | with_reducible apply kept_leaveCatch
    | with_reducible apply kept_leaveTrim | with_reducible apply kept_ite | split | dsimp only
    | with_reducible assumption | refine kept_fst (by assumption) ?_ | refine kept_snd (by assumption) ?_
    | exact rfl | assumption

theorem kept_trimLoops [κ.Out .clocks] [κ.Out .converters] {s₀ s : State} {c : Nat} (h : Kept κ s₀ s) :
    Kept κ s₀ (State.trimLoops s c) := by
  unfold State.trimLoops
  repeat' first
    | intro _ | with_reducible apply kept_next | with_reducible apply kept_serveRx
    | with_reducible apply kept_serveTx | with_reducible apply kept_setLoops | with_reducible apply kept_set
    | with_reducible apply kept_ite | split | dsimp only | with_reducible assumption
    | refine kept_fst (by assumption) ?_ | refine kept_snd (by assumption) ?_ | exact rfl | assumption
    | exact (Fact.out : κ .clocks = false)

theorem kept_startTrim [κ.Out .mode] [κ.Out .clocks] [κ.Out .converters] [κ.Out .calibration] {s₀ s : State}
    (h : Kept κ s₀ s) :
    Kept κ s₀ (State.startTrim s) := by
  unfold State.startTrim
  extract_lets x1 x2
  have k1 : Kept κ s₀ x1 := by
    unfold x1
    repeat' first
      | intro _ | with_reducible apply kept_set | with_reducible apply kept_each
      | with_reducible apply kept_calAbandonOffline | with_reducible apply kept_trimLoops
      | with_reducible apply kept_refreshConv | with_reducible apply kept_calBegin | with_reducible apply kept_ite
      | split | dsimp only | with_reducible assumption | refine kept_fst (by assumption) ?_
      | refine kept_snd (by assumption) ?_ | exact rfl | assumption | exact (Fact.out : κ .mode = false)
  clear_value x1
  have k2 : Kept κ s₀ x2 := by
    unfold x2
    repeat' first
      | intro _ | with_reducible apply kept_set | with_reducible apply kept_each
      | with_reducible apply kept_calAbandonOffline | with_reducible apply kept_trimLoops
      | with_reducible apply kept_refreshConv | with_reducible apply kept_calBegin | with_reducible apply kept_ite
      | split | dsimp only | with_reducible assumption | refine kept_fst (by assumption) ?_
      | refine kept_snd (by assumption) ?_ | exact rfl | assumption | exact (Fact.out : κ .mode = false)
  clear_value x2
  repeat' first
    | intro _ | with_reducible apply kept_set | with_reducible apply kept_each
    | with_reducible apply kept_calAbandonOffline | with_reducible apply kept_trimLoops
    | with_reducible apply kept_refreshConv | with_reducible apply kept_calBegin | with_reducible apply kept_ite
    | split | dsimp only | with_reducible assumption | refine kept_fst (by assumption) ?_
    | refine kept_snd (by assumption) ?_ | exact rfl | assumption | exact (Fact.out : κ .mode = false)

theorem kept_muteOn [κ.Out .events] [κ.Out .mode] [κ.Out .guard] [κ.Out .carriers] [κ.Out .slack] [κ.Out .txLine]
    [κ.Out .rxLine] [κ.Out .clocks] [κ.Out .converters] [κ.Out .calibration] [κ.Out .banks] [κ.Out .dispersion]
    [κ.Out .frontEnd] [κ.Out .equaliser] [κ.Out .monitors] [κ.Out .neighbours] [κ.Out .recovery] [κ.Out .catching]
    [κ.Out .defects] [κ.Out .overhead] [κ.Out .calendar] [κ.Out .pages] [κ.Out .tributaries] [κ.Out .bonding]
    [κ.Out .housekeeping] [κ.Out .captures] {s₀ s : State} (h : Kept κ s₀ s) :
    Kept κ s₀ (State.muteOn s) := by
  unfold State.muteOn
  extract_lets x1 x2
  have k1 : Kept κ s₀ x1 := by
    unfold x1
    repeat' first
      | intro _ | with_reducible apply kept_set | with_reducible apply kept_each | with_reducible apply kept_toIdle
      | with_reducible apply kept_calAbandonOffline | with_reducible apply kept_refreshConv
      | with_reducible apply kept_calSettle | with_reducible apply kept_refreshBg | with_reducible apply kept_ite
      | split | dsimp only | with_reducible assumption | refine kept_fst (by assumption) ?_
      | refine kept_snd (by assumption) ?_ | exact rfl | assumption | exact (Fact.out : κ .mode = false)
      | exact (Fact.out : κ .guard = false)
  clear_value x1
  have k2 : Kept κ s₀ x2 := by
    unfold x2
    repeat' first
      | intro _ | with_reducible apply kept_set | with_reducible apply kept_each | with_reducible apply kept_toIdle
      | with_reducible apply kept_calAbandonOffline | with_reducible apply kept_refreshConv
      | with_reducible apply kept_calSettle | with_reducible apply kept_refreshBg | with_reducible apply kept_ite
      | split | dsimp only | with_reducible assumption | refine kept_fst (by assumption) ?_
      | refine kept_snd (by assumption) ?_ | exact rfl | assumption | exact (Fact.out : κ .mode = false)
      | exact (Fact.out : κ .guard = false)
  clear_value x2
  repeat' first
    | intro _ | with_reducible apply kept_set | with_reducible apply kept_each | with_reducible apply kept_toIdle
    | with_reducible apply kept_calAbandonOffline | with_reducible apply kept_refreshConv
    | with_reducible apply kept_calSettle | with_reducible apply kept_refreshBg | with_reducible apply kept_ite
    | split | dsimp only | with_reducible assumption | refine kept_fst (by assumption) ?_
    | refine kept_snd (by assumption) ?_ | exact rfl | assumption | exact (Fact.out : κ .mode = false)
    | exact (Fact.out : κ .guard = false)

theorem kept_abandonTransition [κ.Out .events] [κ.Out .mode] [κ.Out .converters] [κ.Out .calibration]
    [κ.Out .housekeeping] [κ.Out .captures] {s₀ s : State} (h : Kept κ s₀ s) :
    Kept κ s₀ (State.abandonTransition s) := by
  unfold State.abandonTransition
  repeat' first
    | intro _ | with_reducible apply kept_set | with_reducible apply kept_each
    | with_reducible apply kept_calAbandon | with_reducible apply kept_ite | split | dsimp only
    | with_reducible assumption | refine kept_fst (by assumption) ?_ | refine kept_snd (by assumption) ?_
    | exact rfl | assumption | exact (Fact.out : κ .mode = false)

theorem kept_stopRecord [κ.Out .events] [κ.Out .thermal] [κ.Out .housekeeping] [κ.Out .captures] {s₀ s : State}
    (h : Kept κ s₀ s) :
    Kept κ s₀ (State.stopRecord s) := by
  unfold State.stopRecord
  repeat' first
    | intro _ | with_reducible apply kept_set | with_reducible apply kept_raiseKept
    | with_reducible apply kept_ite | split | dsimp only | with_reducible assumption
    | refine kept_fst (by assumption) ?_ | refine kept_snd (by assumption) ?_ | exact rfl | assumption
    | exact (Fact.out : κ .thermal = false)

theorem kept_backInHaven [κ.Out .events] [κ.Out .mode] [κ.Out .guard] [κ.Out .carriers] [κ.Out .slack] [κ.Out .txLine]
    [κ.Out .rxLine] [κ.Out .clocks] [κ.Out .converters] [κ.Out .calibration] [κ.Out .banks] [κ.Out .dispersion]
    [κ.Out .frontEnd] [κ.Out .equaliser] [κ.Out .monitors] [κ.Out .neighbours] [κ.Out .recovery] [κ.Out .catching]
    [κ.Out .defects] [κ.Out .overhead] [κ.Out .lanes] [κ.Out .calendar] [κ.Out .pages] [κ.Out .tributaries]
    [κ.Out .bonding] [κ.Out .housekeeping] [κ.Out .captures] {s₀ s : State} (h : Kept κ s₀ s) :
    Kept κ s₀ (State.backInHaven s) := by
  unfold State.backInHaven
  extract_lets x1 x2
  have k1 : Kept κ s₀ x1 := by
    unfold x1
    repeat' first
      | intro _ | with_reducible apply kept_abandonTransition | with_reducible apply kept_set
      | with_reducible apply kept_lanesUp | with_reducible apply kept_each | with_reducible apply kept_refreshConv
      | with_reducible apply kept_muteOn | with_reducible apply kept_refreshBg | with_reducible apply kept_ite
      | split | dsimp only | with_reducible assumption | refine kept_fst (by assumption) ?_
      | refine kept_snd (by assumption) ?_ | exact rfl | assumption | exact (Fact.out : κ .mode = false)
  clear_value x1
  have k2 : Kept κ s₀ x2 := by
    unfold x2
    repeat' first
      | intro _ | with_reducible apply kept_abandonTransition | with_reducible apply kept_set
      | with_reducible apply kept_lanesUp | with_reducible apply kept_each | with_reducible apply kept_refreshConv
      | with_reducible apply kept_muteOn | with_reducible apply kept_refreshBg | with_reducible apply kept_ite
      | split | dsimp only | with_reducible assumption | refine kept_fst (by assumption) ?_
      | refine kept_snd (by assumption) ?_ | exact rfl | assumption | exact (Fact.out : κ .mode = false)
  clear_value x2
  repeat' first
    | intro _ | with_reducible apply kept_abandonTransition | with_reducible apply kept_set
    | with_reducible apply kept_lanesUp | with_reducible apply kept_each | with_reducible apply kept_refreshConv
    | with_reducible apply kept_muteOn | with_reducible apply kept_refreshBg | with_reducible apply kept_ite
    | split | dsimp only | with_reducible assumption | refine kept_fst (by assumption) ?_
    | refine kept_snd (by assumption) ?_ | exact rfl | assumption | exact (Fact.out : κ .mode = false)

theorem kept_haven [κ.Out .events] [κ.Out .mode] [κ.Out .guard] [κ.Out .thermal] [κ.Out .carriers] [κ.Out .slack]
    [κ.Out .txLine] [κ.Out .rxLine] [κ.Out .clocks] [κ.Out .converters] [κ.Out .calibration] [κ.Out .banks]
    [κ.Out .dispersion] [κ.Out .frontEnd] [κ.Out .equaliser] [κ.Out .monitors] [κ.Out .neighbours] [κ.Out .recovery]
    [κ.Out .catching] [κ.Out .defects] [κ.Out .overhead] [κ.Out .lanes] [κ.Out .ports] [κ.Out .flows]
    [κ.Out .calendar] [κ.Out .pages] [κ.Out .tributaries] [κ.Out .bonding] [κ.Out .slots] [κ.Out .keys]
    [κ.Out .housekeeping] [κ.Out .pair] [κ.Out .integrity] [κ.Out .captures] {s₀ s : State} {bits : Nat}
    (h : Kept κ s₀ s) :
    Kept κ s₀ (State.haven s bits) := by
  unfold State.haven
  repeat' first
    | intro _ | with_reducible apply kept_repairsGoOn | with_reducible apply kept_set
    | with_reducible apply kept_backInHaven | with_reducible apply kept_muteOn
    | with_reducible apply kept_abandonTransition | with_reducible apply kept_bump
    | with_reducible apply kept_endRole | with_reducible apply kept_lanesUp | with_reducible apply kept_refreshBg
    | with_reducible apply kept_eraseAllSlots | with_reducible apply kept_raiseKept
    | with_reducible apply kept_stopRecord | with_reducible apply kept_ite | split | dsimp only
    | with_reducible assumption | refine kept_fst (by assumption) ?_ | refine kept_snd (by assumption) ?_
    | exact rfl | assumption | exact (Fact.out : κ .mode = false)

/-- Parts that hold configuration. -/
def configParts : List Safety.Part := [
  .events, .management, .views, .settings, .mode, .boot, .carriers, .converters, .calibration, .banks,
  .dispersion, .frontEnd, .neighbours, .catching, .coding, .lanes, .patterns, .ports, .classifier, .flows,
  .calendar, .pages, .tributaries, .bonding, .bindings, .time, .timing, .housekeeping, .inputs, .mover]

theorem isConfig_part (r : Reg) (i : Nat) : r.isConfig i = true → configParts.contains (Safety.part r) = true := by
  cases r <;> first | (intro _; decide) | (intro h; cases h)

theorem kept_dropConfiguration [κ.Out .events] [κ.Out .management] [κ.Out .views] [κ.Out .settings] [κ.Out .mode] [κ.Out .boot] [κ.Out .carriers]
    [κ.Out .converters] [κ.Out .calibration] [κ.Out .banks] [κ.Out .dispersion] [κ.Out .frontEnd] [κ.Out .neighbours]
    [κ.Out .catching] [κ.Out .coding] [κ.Out .lanes] [κ.Out .patterns] [κ.Out .ports] [κ.Out .classifier]
    [κ.Out .flows] [κ.Out .calendar] [κ.Out .pages] [κ.Out .tributaries] [κ.Out .bonding] [κ.Out .cores]
    [κ.Out .bindings] [κ.Out .time] [κ.Out .timing] [κ.Out .housekeeping] [κ.Out .inputs] [κ.Out .mover]
    [κ.Out .captures]
    {s₀ s : State} (h : Kept κ s₀ s) : Kept κ s₀ s.dropConfiguration := by
  have hf : Kept κ s₀ s.flushAll := kept_flushAll h
  unfold State.dropConfiguration
  dsimp only
  generalize s.flushAll = a at hf
  have hp : ∀ r i, κ (Safety.part r) = true → (!r.isConfig i) = true := by
    intro r i e
    cases hc : r.isConfig i with
    | false => rfl
    | true =>
      exfalso
      have hq := isConfig_part r i hc
      generalize Safety.part r = p at e hq
      cases p <;> first | exact absurd hq (by decide) | exact touched e
  exact kept_capacityCheck (hf.trans { Kept.refl a with
    tables := fun q => ⟨swf_filter regLt_trans _ _ a.regs q.1, swf_filter regLt_trans _ _ a.blobs q.2.1, q.2.2⟩
    queues := fun q => ⟨q.1, q.2.1, q.2.2.1, q.2.2.2.1, q.2.2.2.2.1, q.2.2.2.2.2.1, rfl⟩
    management := fun q => ⟨by simpa only [List.length_map] using q.1, q.2⟩
    sameClassifier := touched
    sameManagement := touched
    sameRegs := fun r i e => ⟨sget_filter a.regs (fun k => !k.1.isConfig k.2) _ (hp r i e),
      sget_filter a.blobs (fun k => !k.1.isConfig k.2) _ (hp r i e)⟩ })

theorem kept_refuseMode [κ.Out .mode] {s₀ s : State} {reason : Nat} (h : Kept κ s₀ s) :
    Kept κ s₀ (State.refuseMode s reason).1 := by
  unfold State.refuseMode
  repeat' first
    | intro _ | with_reducible apply kept_set | with_reducible apply kept_ite
    | with_reducible apply kept_ite_fst | split | dsimp only | with_reducible assumption
    | refine kept_fst (by assumption) ?_ | refine kept_snd (by assumption) ?_ | exact rfl | assumption
    | exact (Fact.out : κ .mode = false)

theorem kept_startTransition [κ.Out .mode] {s₀ s : State} {v : Int} (h : Kept κ s₀ s) :
    Kept κ s₀ (State.startTransition s v) := by
  unfold State.startTransition
  repeat' first
    | intro _ | with_reducible apply kept_set | with_reducible apply kept_ite | split | dsimp only
    | with_reducible assumption | refine kept_fst (by assumption) ?_ | refine kept_snd (by assumption) ?_
    | exact rfl | assumption | exact (Fact.out : κ .mode = false)

theorem kept_leaveHaven [κ.Out .events] [κ.Out .management] [κ.Out .views] [κ.Out .settings] [κ.Out .mode]
    [κ.Out .boot] [κ.Out .carriers] [κ.Out .slack] [κ.Out .txLine] [κ.Out .rxLine] [κ.Out .clocks] [κ.Out .converters]
    [κ.Out .calibration] [κ.Out .banks] [κ.Out .dispersion] [κ.Out .frontEnd] [κ.Out .equaliser] [κ.Out .monitors]
    [κ.Out .neighbours] [κ.Out .recovery] [κ.Out .catching] [κ.Out .coding] [κ.Out .defects] [κ.Out .overhead]
    [κ.Out .lanes] [κ.Out .patterns] [κ.Out .ports] [κ.Out .classifier] [κ.Out .flows] [κ.Out .calendar]
    [κ.Out .pages] [κ.Out .tributaries] [κ.Out .bonding] [κ.Out .cores] [κ.Out .slots] [κ.Out .keys] [κ.Out .bindings]
    [κ.Out .time] [κ.Out .timing] [κ.Out .housekeeping] [κ.Out .inputs] [κ.Out .pair] [κ.Out .mover] [κ.Out .captures]
    {s₀ s : State} {v : Int} (h : Kept κ s₀ s) :
    Kept κ s₀ (State.leaveHaven s v) := by
  unfold State.leaveHaven
  repeat' first
    | intro _ | with_reducible apply kept_each | with_reducible apply kept_toIdle
    | with_reducible apply kept_calSettle | with_reducible apply kept_flushAll
    | with_reducible apply kept_startTransition | with_reducible apply kept_startTrim
    | with_reducible apply kept_leaveTrim | with_reducible apply kept_dropConfiguration
    | with_reducible apply kept_ite | split | dsimp only | with_reducible assumption
    | refine kept_fst (by assumption) ?_ | refine kept_snd (by assumption) ?_ | exact rfl | assumption

theorem kept_writeModeRequest [κ.Out .events] [κ.Out .management] [κ.Out .views] [κ.Out .settings] [κ.Out .mode]
    [κ.Out .boot] [κ.Out .guard] [κ.Out .thermal] [κ.Out .carriers] [κ.Out .slack] [κ.Out .txLine] [κ.Out .rxLine]
    [κ.Out .clocks] [κ.Out .converters] [κ.Out .calibration] [κ.Out .banks] [κ.Out .dispersion] [κ.Out .frontEnd]
    [κ.Out .equaliser] [κ.Out .monitors] [κ.Out .neighbours] [κ.Out .recovery] [κ.Out .catching] [κ.Out .coding]
    [κ.Out .defects] [κ.Out .overhead] [κ.Out .lanes] [κ.Out .patterns] [κ.Out .ports] [κ.Out .classifier]
    [κ.Out .flows] [κ.Out .calendar] [κ.Out .pages] [κ.Out .tributaries] [κ.Out .bonding] [κ.Out .cores]
    [κ.Out .slots] [κ.Out .keys] [κ.Out .bindings] [κ.Out .crypt] [κ.Out .time] [κ.Out .timing] [κ.Out .housekeeping]
    [κ.Out .snapshots] [κ.Out .inputs] [κ.Out .pair] [κ.Out .integrity] [κ.Out .custody] [κ.Out .mover]
    [κ.Out .captures] {s₀ s : State} {v : Int} (h : Kept κ s₀ s) :
    Kept κ s₀ (writeModeRequest v s).1 := by
  unfold writeModeRequest
  repeat' first
    | intro _ | with_reducible apply kept_set | with_reducible apply kept_haven
    | with_reducible apply kept_refuseMode | with_reducible apply kept_leaveHaven | with_reducible apply kept_when
    | with_reducible apply kept_finishReceive | with_reducible apply kept_startTransition
    | with_reducible apply kept_exitActions | with_reducible apply kept_startTrim | with_reducible apply kept_each
    | with_reducible apply kept_calAbandon | with_reducible apply kept_ite | with_reducible apply kept_ite_fst
    | split | dsimp only | with_reducible assumption | refine kept_fst (by assumption) ?_
    | refine kept_snd (by assumption) ?_ | exact rfl | assumption | exact (Fact.out : κ .mode = false)
    | exact (Fact.out : κ .pair = false)

theorem kept_requestMode [κ.Out .events] [κ.Out .management] [κ.Out .views] [κ.Out .settings] [κ.Out .mode]
    [κ.Out .boot] [κ.Out .guard] [κ.Out .thermal] [κ.Out .carriers] [κ.Out .slack] [κ.Out .txLine] [κ.Out .rxLine]
    [κ.Out .clocks] [κ.Out .converters] [κ.Out .calibration] [κ.Out .banks] [κ.Out .dispersion] [κ.Out .frontEnd]
    [κ.Out .equaliser] [κ.Out .monitors] [κ.Out .neighbours] [κ.Out .recovery] [κ.Out .catching] [κ.Out .coding]
    [κ.Out .defects] [κ.Out .overhead] [κ.Out .lanes] [κ.Out .patterns] [κ.Out .ports] [κ.Out .classifier]
    [κ.Out .flows] [κ.Out .calendar] [κ.Out .pages] [κ.Out .tributaries] [κ.Out .bonding] [κ.Out .cores]
    [κ.Out .slots] [κ.Out .keys] [κ.Out .bindings] [κ.Out .crypt] [κ.Out .time] [κ.Out .timing] [κ.Out .housekeeping]
    [κ.Out .snapshots] [κ.Out .inputs] [κ.Out .pair] [κ.Out .integrity] [κ.Out .custody] [κ.Out .mover]
    [κ.Out .captures]
    {s₀ s : State} {cl : Client} {v : Int} (h : Kept κ s₀ s) :
    Kept κ s₀ (State.requestMode s cl v) := by
  unfold State.requestMode
  repeat' first
    | intro _ | with_reducible refine kept_serveWrite ?_ ?_ (by first | exact .inl (by decide) | exact .inr Fact.out) | with_reducible apply kept_writeModeRequest
    | with_reducible apply kept_ite | split | dsimp only | with_reducible assumption
    | refine kept_fst (by assumption) ?_ | refine kept_snd (by assumption) ?_ | exact rfl | assumption

theorem kept_execRequestDormant [κ.Out .events] [κ.Out .management] [κ.Out .views] [κ.Out .settings] [κ.Out .mode]
    [κ.Out .boot] [κ.Out .guard] [κ.Out .thermal] [κ.Out .carriers] [κ.Out .slack] [κ.Out .txLine] [κ.Out .rxLine]
    [κ.Out .clocks] [κ.Out .converters] [κ.Out .calibration] [κ.Out .banks] [κ.Out .dispersion] [κ.Out .frontEnd]
    [κ.Out .equaliser] [κ.Out .monitors] [κ.Out .neighbours] [κ.Out .recovery] [κ.Out .catching] [κ.Out .coding]
    [κ.Out .defects] [κ.Out .overhead] [κ.Out .lanes] [κ.Out .patterns] [κ.Out .ports] [κ.Out .classifier]
    [κ.Out .flows] [κ.Out .calendar] [κ.Out .pages] [κ.Out .tributaries] [κ.Out .bonding] [κ.Out .cores]
    [κ.Out .slots] [κ.Out .keys] [κ.Out .bindings] [κ.Out .crypt] [κ.Out .time] [κ.Out .timing] [κ.Out .housekeeping]
    [κ.Out .snapshots] [κ.Out .inputs] [κ.Out .pair] [κ.Out .integrity] [κ.Out .custody] [κ.Out .mover]
    [κ.Out .captures]
    {s₀ : State} {cl : Client} {s : State} (h : Kept κ s₀ s) :
    KeptO κ s₀ (execRequestDormant cl s) := by
  unfold execRequestDormant
  repeat' first
    | intro _ | with_reducible apply kept_next | with_reducible apply kept_requestMode
    | with_reducible apply kept_ite | split | dsimp only | with_reducible assumption
    | refine kept_fst (by assumption) ?_ | refine kept_snd (by assumption) ?_ | exact rfl | assumption

theorem kept_execRequestTrim [κ.Out .events] [κ.Out .management] [κ.Out .views] [κ.Out .settings] [κ.Out .mode]
    [κ.Out .boot] [κ.Out .guard] [κ.Out .thermal] [κ.Out .carriers] [κ.Out .slack] [κ.Out .txLine] [κ.Out .rxLine]
    [κ.Out .clocks] [κ.Out .converters] [κ.Out .calibration] [κ.Out .banks] [κ.Out .dispersion] [κ.Out .frontEnd]
    [κ.Out .equaliser] [κ.Out .monitors] [κ.Out .neighbours] [κ.Out .recovery] [κ.Out .catching] [κ.Out .coding]
    [κ.Out .defects] [κ.Out .overhead] [κ.Out .lanes] [κ.Out .patterns] [κ.Out .ports] [κ.Out .classifier]
    [κ.Out .flows] [κ.Out .calendar] [κ.Out .pages] [κ.Out .tributaries] [κ.Out .bonding] [κ.Out .cores]
    [κ.Out .slots] [κ.Out .keys] [κ.Out .bindings] [κ.Out .crypt] [κ.Out .time] [κ.Out .timing] [κ.Out .housekeeping]
    [κ.Out .snapshots] [κ.Out .inputs] [κ.Out .pair] [κ.Out .integrity] [κ.Out .custody] [κ.Out .mover]
    [κ.Out .captures]
    {s₀ : State} {cl : Client} {s : State} (h : Kept κ s₀ s) :
    KeptO κ s₀ (execRequestTrim cl s) := by
  unfold execRequestTrim
  repeat' first
    | intro _ | with_reducible apply kept_next | with_reducible apply kept_requestMode
    | with_reducible apply kept_ite | split | dsimp only | with_reducible assumption
    | refine kept_fst (by assumption) ?_ | refine kept_snd (by assumption) ?_ | exact rfl | assumption

theorem kept_execRequestCatch [κ.Out .events] [κ.Out .management] [κ.Out .views] [κ.Out .settings] [κ.Out .mode]
    [κ.Out .boot] [κ.Out .guard] [κ.Out .thermal] [κ.Out .carriers] [κ.Out .slack] [κ.Out .txLine] [κ.Out .rxLine]
    [κ.Out .clocks] [κ.Out .converters] [κ.Out .calibration] [κ.Out .banks] [κ.Out .dispersion] [κ.Out .frontEnd]
    [κ.Out .equaliser] [κ.Out .monitors] [κ.Out .neighbours] [κ.Out .recovery] [κ.Out .catching] [κ.Out .coding]
    [κ.Out .defects] [κ.Out .overhead] [κ.Out .lanes] [κ.Out .patterns] [κ.Out .ports] [κ.Out .classifier]
    [κ.Out .flows] [κ.Out .calendar] [κ.Out .pages] [κ.Out .tributaries] [κ.Out .bonding] [κ.Out .cores]
    [κ.Out .slots] [κ.Out .keys] [κ.Out .bindings] [κ.Out .crypt] [κ.Out .time] [κ.Out .timing] [κ.Out .housekeeping]
    [κ.Out .snapshots] [κ.Out .inputs] [κ.Out .pair] [κ.Out .integrity] [κ.Out .custody] [κ.Out .mover]
    [κ.Out .captures]
    {s₀ : State} {cl : Client} {s : State} (h : Kept κ s₀ s) :
    KeptO κ s₀ (execRequestCatch cl s) := by
  unfold execRequestCatch
  repeat' first
    | intro _ | with_reducible apply kept_next | with_reducible apply kept_requestMode
    | with_reducible apply kept_ite | split | dsimp only | with_reducible assumption
    | refine kept_fst (by assumption) ?_ | refine kept_snd (by assumption) ?_ | exact rfl | assumption

theorem kept_execRequestCarry [κ.Out .events] [κ.Out .management] [κ.Out .views] [κ.Out .settings] [κ.Out .mode]
    [κ.Out .boot] [κ.Out .guard] [κ.Out .thermal] [κ.Out .carriers] [κ.Out .slack] [κ.Out .txLine] [κ.Out .rxLine]
    [κ.Out .clocks] [κ.Out .converters] [κ.Out .calibration] [κ.Out .banks] [κ.Out .dispersion] [κ.Out .frontEnd]
    [κ.Out .equaliser] [κ.Out .monitors] [κ.Out .neighbours] [κ.Out .recovery] [κ.Out .catching] [κ.Out .coding]
    [κ.Out .defects] [κ.Out .overhead] [κ.Out .lanes] [κ.Out .patterns] [κ.Out .ports] [κ.Out .classifier]
    [κ.Out .flows] [κ.Out .calendar] [κ.Out .pages] [κ.Out .tributaries] [κ.Out .bonding] [κ.Out .cores]
    [κ.Out .slots] [κ.Out .keys] [κ.Out .bindings] [κ.Out .crypt] [κ.Out .time] [κ.Out .timing] [κ.Out .housekeeping]
    [κ.Out .snapshots] [κ.Out .inputs] [κ.Out .pair] [κ.Out .integrity] [κ.Out .custody] [κ.Out .mover]
    [κ.Out .captures]
    {s₀ : State} {cl : Client} {s : State} (h : Kept κ s₀ s) :
    KeptO κ s₀ (execRequestCarry cl s) := by
  unfold execRequestCarry
  repeat' first
    | intro _ | with_reducible apply kept_next | with_reducible apply kept_requestMode
    | with_reducible apply kept_ite | split | dsimp only | with_reducible assumption
    | refine kept_fst (by assumption) ?_ | refine kept_snd (by assumption) ?_ | exact rfl | assumption

theorem kept_execRequestPair [κ.Out .events] [κ.Out .management] [κ.Out .views] [κ.Out .settings] [κ.Out .mode]
    [κ.Out .boot] [κ.Out .guard] [κ.Out .thermal] [κ.Out .carriers] [κ.Out .slack] [κ.Out .txLine] [κ.Out .rxLine]
    [κ.Out .clocks] [κ.Out .converters] [κ.Out .calibration] [κ.Out .banks] [κ.Out .dispersion] [κ.Out .frontEnd]
    [κ.Out .equaliser] [κ.Out .monitors] [κ.Out .neighbours] [κ.Out .recovery] [κ.Out .catching] [κ.Out .coding]
    [κ.Out .defects] [κ.Out .overhead] [κ.Out .lanes] [κ.Out .patterns] [κ.Out .ports] [κ.Out .classifier]
    [κ.Out .flows] [κ.Out .calendar] [κ.Out .pages] [κ.Out .tributaries] [κ.Out .bonding] [κ.Out .cores]
    [κ.Out .slots] [κ.Out .keys] [κ.Out .bindings] [κ.Out .crypt] [κ.Out .time] [κ.Out .timing] [κ.Out .housekeeping]
    [κ.Out .snapshots] [κ.Out .inputs] [κ.Out .pair] [κ.Out .integrity] [κ.Out .custody] [κ.Out .mover]
    [κ.Out .captures]
    {s₀ : State} {cl : Client} {s : State} (h : Kept κ s₀ s) :
    KeptO κ s₀ (execRequestPair cl s) := by
  unfold execRequestPair
  repeat' first
    | intro _ | with_reducible apply kept_next | with_reducible apply kept_requestMode
    | with_reducible apply kept_ite | split | dsimp only | with_reducible assumption
    | refine kept_fst (by assumption) ?_ | refine kept_snd (by assumption) ?_ | exact rfl | assumption

theorem kept_execRequestHaven [κ.Out .events] [κ.Out .management] [κ.Out .views] [κ.Out .settings] [κ.Out .mode]
    [κ.Out .boot] [κ.Out .guard] [κ.Out .thermal] [κ.Out .carriers] [κ.Out .slack] [κ.Out .txLine] [κ.Out .rxLine]
    [κ.Out .clocks] [κ.Out .converters] [κ.Out .calibration] [κ.Out .banks] [κ.Out .dispersion] [κ.Out .frontEnd]
    [κ.Out .equaliser] [κ.Out .monitors] [κ.Out .neighbours] [κ.Out .recovery] [κ.Out .catching] [κ.Out .coding]
    [κ.Out .defects] [κ.Out .overhead] [κ.Out .lanes] [κ.Out .patterns] [κ.Out .ports] [κ.Out .classifier]
    [κ.Out .flows] [κ.Out .calendar] [κ.Out .pages] [κ.Out .tributaries] [κ.Out .bonding] [κ.Out .cores]
    [κ.Out .slots] [κ.Out .keys] [κ.Out .bindings] [κ.Out .crypt] [κ.Out .time] [κ.Out .timing] [κ.Out .housekeeping]
    [κ.Out .snapshots] [κ.Out .inputs] [κ.Out .pair] [κ.Out .integrity] [κ.Out .custody] [κ.Out .mover]
    [κ.Out .captures]
    {s₀ : State} {cl : Client} {s : State} (h : Kept κ s₀ s) :
    KeptO κ s₀ (execRequestHaven cl s) := by
  unfold execRequestHaven
  repeat' first
    | intro _ | with_reducible apply kept_next | with_reducible apply kept_requestMode
    | with_reducible apply kept_ite | split | dsimp only | with_reducible assumption
    | refine kept_fst (by assumption) ?_ | refine kept_snd (by assumption) ?_ | exact rfl | assumption

theorem kept_transitionDone [κ.Out .events] [κ.Out .mode] [κ.Out .calibration] [κ.Out .lanes] [κ.Out .patterns]
    [κ.Out .ports] [κ.Out .cores] [κ.Out .slots] [κ.Out .housekeeping] [κ.Out .pair] [κ.Out .captures]
    {s₀ s : State} {failed : List Nat} (h : Kept κ s₀ s) :
    Kept κ s₀ (State.transitionDone s failed) := by
  unfold State.transitionDone
  extract_lets x1 x2 x3 x4 x5 x6 x7
  have k3 : Kept κ s₀ x3 := by
    unfold x3
    repeat' first
      | intro _ | with_reducible apply kept_set | with_reducible apply kept_coresTested
      | with_reducible apply kept_lanesUp | with_reducible apply kept_testsOff
      | with_reducible apply kept_startRole | with_reducible apply kept_raise
      | with_reducible apply kept_refreshBg | with_reducible apply kept_ite | split | dsimp only
      | with_reducible assumption | refine kept_fst (by assumption) ?_ | refine kept_snd (by assumption) ?_
      | exact rfl | assumption | exact (Fact.out : κ .mode = false) | exact (Fact.out : κ .pair = false)
  clear_value x3
  have k4 : Kept κ s₀ x4 := by
    unfold x4
    repeat' first
      | intro _ | with_reducible apply kept_set | with_reducible apply kept_coresTested
      | with_reducible apply kept_lanesUp | with_reducible apply kept_testsOff
      | with_reducible apply kept_startRole | with_reducible apply kept_raise
      | with_reducible apply kept_refreshBg | with_reducible apply kept_ite | split | dsimp only
      | with_reducible assumption | refine kept_fst (by assumption) ?_ | refine kept_snd (by assumption) ?_
      | exact rfl | assumption | exact (Fact.out : κ .mode = false) | exact (Fact.out : κ .pair = false)
  clear_value x4
  have k5 : Kept κ s₀ x5 := by
    unfold x5
    repeat' first
      | intro _ | with_reducible apply kept_set | with_reducible apply kept_coresTested
      | with_reducible apply kept_lanesUp | with_reducible apply kept_testsOff
      | with_reducible apply kept_startRole | with_reducible apply kept_raise
      | with_reducible apply kept_refreshBg | with_reducible apply kept_ite | split | dsimp only
      | with_reducible assumption | refine kept_fst (by assumption) ?_ | refine kept_snd (by assumption) ?_
      | exact rfl | assumption | exact (Fact.out : κ .mode = false) | exact (Fact.out : κ .pair = false)
  clear_value x5
  have k6 : Kept κ s₀ x6 := by
    unfold x6
    repeat' first
      | intro _ | with_reducible apply kept_set | with_reducible apply kept_coresTested
      | with_reducible apply kept_lanesUp | with_reducible apply kept_testsOff
      | with_reducible apply kept_startRole | with_reducible apply kept_raise
      | with_reducible apply kept_refreshBg | with_reducible apply kept_ite | split | dsimp only
      | with_reducible assumption | refine kept_fst (by assumption) ?_ | refine kept_snd (by assumption) ?_
      | exact rfl | assumption | exact (Fact.out : κ .mode = false) | exact (Fact.out : κ .pair = false)
  clear_value x6
  have k7 : Kept κ s₀ x7 := by
    unfold x7
    repeat' first
      | intro _ | with_reducible apply kept_set | with_reducible apply kept_coresTested
      | with_reducible apply kept_lanesUp | with_reducible apply kept_testsOff
      | with_reducible apply kept_startRole | with_reducible apply kept_raise
      | with_reducible apply kept_refreshBg | with_reducible apply kept_ite | split | dsimp only
      | with_reducible assumption | refine kept_fst (by assumption) ?_ | refine kept_snd (by assumption) ?_
      | exact rfl | assumption | exact (Fact.out : κ .mode = false) | exact (Fact.out : κ .pair = false)
  clear_value x7
  repeat' first
    | intro _ | with_reducible apply kept_set | with_reducible apply kept_coresTested
    | with_reducible apply kept_lanesUp | with_reducible apply kept_testsOff
    | with_reducible apply kept_startRole | with_reducible apply kept_raise
    | with_reducible apply kept_refreshBg | with_reducible apply kept_ite | split | dsimp only
    | with_reducible assumption | refine kept_fst (by assumption) ?_ | refine kept_snd (by assumption) ?_
    | exact rfl | assumption | exact (Fact.out : κ .mode = false) | exact (Fact.out : κ .pair = false)

theorem kept_execModeTransitionComplete [κ.Out .events] [κ.Out .mode] [κ.Out .calibration] [κ.Out .lanes]
    [κ.Out .patterns] [κ.Out .ports] [κ.Out .cores] [κ.Out .slots] [κ.Out .housekeeping] [κ.Out .pair]
    [κ.Out .captures] {s₀ : State} {failed : List (Fin 52)} {s : State} (h : Kept κ s₀ s) :
    KeptO κ s₀ (execModeTransitionComplete failed s) := by
  unfold execModeTransitionComplete
  repeat' first
    | intro _ | with_reducible apply kept_next | with_reducible apply kept_live
    | with_reducible apply kept_transitionDone | with_reducible apply kept_ite | split | dsimp only
    | with_reducible assumption | refine kept_fst (by assumption) ?_ | refine kept_snd (by assumption) ?_
    | exact rfl | assumption

theorem kept_writeCarrierRequest [κ.Out .events] [κ.Out .carriers] [κ.Out .slack] [κ.Out .txLine] [κ.Out .rxLine]
    [κ.Out .clocks] [κ.Out .converters] [κ.Out .calibration] [κ.Out .banks] [κ.Out .dispersion] [κ.Out .frontEnd]
    [κ.Out .equaliser] [κ.Out .monitors] [κ.Out .neighbours] [κ.Out .recovery] [κ.Out .catching] [κ.Out .coding]
    [κ.Out .defects] [κ.Out .overhead] [κ.Out .calendar] [κ.Out .pages] [κ.Out .tributaries] [κ.Out .bonding]
    [κ.Out .housekeeping] [κ.Out .captures]
    {s₀ : State} {c : Nat} {v : Int} {s : State} (h : Kept κ s₀ s) :
    Kept κ s₀ (writeCarrierRequest c v s).1 := by
  unfold writeCarrierRequest
  repeat' first
    | intro _ | with_reducible apply kept_set | with_reducible apply kept_calSettle
    | with_reducible apply kept_toIdle | with_reducible apply kept_setCarrierState
    | with_reducible apply kept_leaveTogether | with_reducible apply kept_tryAlign
    | with_reducible apply kept_ite | with_reducible apply kept_ite_fst | split | dsimp only
    | with_reducible assumption | refine kept_fst (by assumption) ?_ | refine kept_snd (by assumption) ?_
    | exact rfl | assumption | exact (Fact.out : κ .carriers = false)

theorem kept_execCarrierRequest [κ.Out .events] [κ.Out .management] [κ.Out .carriers] [κ.Out .slack] [κ.Out .txLine]
    [κ.Out .rxLine] [κ.Out .clocks] [κ.Out .converters] [κ.Out .calibration] [κ.Out .banks] [κ.Out .dispersion]
    [κ.Out .frontEnd] [κ.Out .equaliser] [κ.Out .monitors] [κ.Out .neighbours] [κ.Out .recovery] [κ.Out .catching]
    [κ.Out .coding] [κ.Out .defects] [κ.Out .overhead] [κ.Out .calendar] [κ.Out .pages] [κ.Out .tributaries]
    [κ.Out .bonding] [κ.Out .housekeeping] [κ.Out .captures]
    {s₀ : State} {cl : Client} {c : Fin 12} {v : Fin 256} {s : State} (h : Kept κ s₀ s) :
    KeptO κ s₀ (execCarrierRequest cl c v s) := by
  unfold execCarrierRequest
  repeat' first
    | intro _ | with_reducible apply kept_next | with_reducible refine kept_serveWrite ?_ ?_ (by first | exact .inl (by decide) | exact .inr Fact.out)
    | with_reducible apply kept_writeCarrierRequest | with_reducible apply kept_ite | split | dsimp only
    | with_reducible assumption | refine kept_fst (by assumption) ?_ | refine kept_snd (by assumption) ?_
    | exact rfl | assumption

end Sys2Proof.Laws
end

