-- ==== Sys2Proof/Laws/Kept/Integrity.lean ====
section
/-! SUPPORT. Every operation of Machine/Integrity.lean keeps (Laws/Kept.lean). -/

set_option Elab.async false
set_option linter.unusedTactic false
set_option linter.unreachableTactic false
set_option linter.unusedVariables false

namespace Sys2Proof.Laws

open Sys2Proof.Machine

variable {κ : Scope}

theorem kept_markWeak [κ.Out .events] [κ.Out .housekeeping] [κ.Out .integrity] [κ.Out .captures] {s₀ s : State}
    {m : Nat} {line : Nat} (h : Kept κ s₀ s) :
    Kept κ s₀ (State.markWeak s m line) := by
  unfold State.markWeak
  extract_lets x1 x2 x3
  have k1 : Kept κ s₀ x1 := by
    unfold x1
    repeat' first
      | intro _ | with_reducible apply kept_bump | with_reducible apply kept_setBlob
      | with_reducible apply kept_raise | with_reducible apply kept_ite | split | dsimp only
      | with_reducible assumption | refine kept_fst (by assumption) ?_ | refine kept_snd (by assumption) ?_
      | exact rfl | assumption | exact (Fact.out : κ .integrity = false)
  clear_value x1
  have k2 : Kept κ s₀ x2 := by
    unfold x2
    repeat' first
      | intro _ | with_reducible apply kept_bump | with_reducible apply kept_setBlob
      | with_reducible apply kept_raise | with_reducible apply kept_ite | split | dsimp only
      | with_reducible assumption | refine kept_fst (by assumption) ?_ | refine kept_snd (by assumption) ?_
      | exact rfl | assumption | exact (Fact.out : κ .integrity = false)
  clear_value x2
  repeat' first
    | intro _ | with_reducible apply kept_bump | with_reducible apply kept_setBlob
    | with_reducible apply kept_raise | with_reducible apply kept_ite | split | dsimp only
    | with_reducible assumption | refine kept_fst (by assumption) ?_ | refine kept_snd (by assumption) ?_
    | exact rfl | assumption | exact (Fact.out : κ .integrity = false)

theorem kept_setTracker [κ.Out .integrity] {s₀ s : State} {l : List Track}
    (hl : s.tracker.length ≤ 64 → l.length ≤ 64) (h : Kept κ s₀ s) :
    Kept κ s₀ (s.setTracker l) :=
  kept_set (kept_tracker hl h)

theorem bump_tracker {s : State} {r : Reg} {i n : Nat} : (s.bump r i n).tracker = s.tracker := by
  unfold State.bump
  dsimp only
  split <;> rfl

theorem oldestTrack_mem {l : List Track} {o : Track} (h : oldestTrack l = some o) : o ∈ l := by
  have fold : ∀ (t : List Track) (x : Track),
      t.foldl (fun a b => if b.first < a.first then b else a) x ∈ x :: t := by
    intro t
    induction t with
    | nil => intro x; exact List.mem_cons_self
    | cons y t ih =>
      intro x
      rw [List.foldl_cons]
      split
      · exact List.mem_cons_of_mem _ (ih y)
      · rcases List.mem_cons.1 (ih x) with e | m
        · rw [e]
          exact List.mem_cons_self
        · exact List.mem_cons_of_mem _ (List.mem_cons_of_mem _ m)
  cases l with
  | nil => cases h
  | cons x t =>
    cases h
    exact fold t x

theorem kept_trackTaken [κ.Out .integrity] {s₀ s : State} {m line : Nat} (h : Kept κ s₀ s) : Kept κ s₀
    (s.trackTaken m line).1 := by
  have push : ∀ (a : State) (x : Track), Kept κ s a → (s.tracker.length ≤ 64 → a.tracker.length ≤ 63) →
      Kept κ s₀ (a.setTracker (a.tracker ++ [x])) := by
    intro a x ha hl
    refine kept_set (h.trans { ha with entries := fun q => ⟨(ha.entries q).1, ?_⟩, sameIntegrity := touched })
    have := hl q.2
    simp only [List.length_append, List.length_cons, List.length_nil]
    omega
  have same : ∀ c : Bool, (if c = true then s.bump .trackerEvictions 0 1 else s).tracker = s.tracker := by
    intro c
    split
    · exact bump_tracker
    · rfl
  unfold State.trackTaken
  dsimp only
  split
  · exact kept_setTracker (fun k => by simpa only [List.length_map] using k) h
  · refine push _ _ ?_ ?_
    · split
      · exact Kept.refl s
      · split
        · exact kept_setTracker (fun k => (List.length_erase_le).trans k)
            (kept_ite (kept_bump (Kept.refl s)) (Kept.refl s))
        · exact Kept.refl s
    · intro k
      split
      · omega
      · split
        · rename_i o e
          show ((if s.inLap o = true then s.bump .trackerEvictions 0 1 else s).tracker.erase o).length ≤ 63
          rw [same, List.length_erase_of_mem (oldestTrack_mem e)]
          omega
        · rename_i hl e
          cases ht : s.tracker with
          | nil => simp
          | cons x t => rw [ht] at e; cases e

theorem kept_correction [κ.Out .events] [κ.Out .housekeeping] [κ.Out .integrity] [κ.Out .captures]
    {s₀ s : State} {m line : Nat} (h : Kept κ s₀ s) : Kept κ s₀ (s.correction m line) := by
  have ht : Kept κ s₀ ((s.bump .memCorrected m).trackTaken m line).1 := kept_trackTaken (kept_bump h)
  unfold State.correction
  exact kept_ite (kept_markWeak (kept_setTracker (fun k => (List.length_filter_le _ _).trans k) ht)) ht

theorem kept_clientLost [κ.Out .rxLine] [κ.Out .flows] [κ.Out .tributaries] [κ.Out .custody] {s₀ s : State}
    {h0 : HeldWord} (h : Kept κ s₀ s) :
    Kept κ s₀ (State.clientLost s h0) := by
  unfold State.clientLost
  repeat' first
    | intro _ | with_reducible apply kept_setBlob | with_reducible apply kept_markTrib
    | with_reducible apply kept_markTx | with_reducible apply kept_setRxTrib | with_reducible apply kept_setRx
    | with_reducible apply kept_ite | split | dsimp only | with_reducible assumption
    | refine kept_fst (by assumption) ?_ | refine kept_snd (by assumption) ?_ | exact rfl | assumption
    | exact (Fact.out : κ .flows = false) | exact (Fact.out : κ .custody = false)

theorem kept_heldOutcome [κ.Out .events] [κ.Out .slack] [κ.Out .rxLine] [κ.Out .calibration] [κ.Out .banks] [κ.Out .lanes] [κ.Out .ports]
    [κ.Out .flows] [κ.Out .tributaries] [κ.Out .slots] [κ.Out .keys] [κ.Out .housekeeping] [κ.Out .integrity]
    [κ.Out .custody] [κ.Out .captures]
    {s₀ s : State} {w : HeldWord} {line : Nat} (h : Kept κ s₀ s) : Kept κ s₀ (s.heldOutcome w line) := by
  unfold State.heldOutcome
  split
  all_goals first
    | with_reducible exact h
    | with_reducible exact kept_clientLost h
    | with_reducible exact kept_setRx h
    | with_reducible exact kept_flushFlow h
    | with_reducible exact kept_dropTribQueue h
    | with_reducible exact kept_eraseSlot h
    | (with_reducible refine kept_setBlob h ?_); ((conv in Safety.part _ => whnf); exact Fact.out)
    | with_reducible exact kept_setSlack h
    | (with_reducible refine kept_set h ?_); ((conv in Safety.part _ => whnf); exact Fact.out)
    | (with_reducible refine kept_ite (kept_octetChanged (kept_laneStep (kept_set (kept_set (kept_set h ?_) ?_) ?_))) h) <;>
      ((conv in Safety.part _ => whnf); exact Fact.out)
    | exact kept_ring (fun k => by simpa only [List.length_modify] using k) h
    | exact kept_history (fun k => by simpa only [List.length_modify] using k) h

theorem kept_uncorrectable [κ.Out .events] [κ.Out .mode] [κ.Out .guard] [κ.Out .thermal] [κ.Out .carriers]
    [κ.Out .slack] [κ.Out .txLine] [κ.Out .rxLine] [κ.Out .clocks] [κ.Out .converters] [κ.Out .calibration]
    [κ.Out .banks] [κ.Out .dispersion] [κ.Out .frontEnd] [κ.Out .equaliser] [κ.Out .monitors] [κ.Out .neighbours]
    [κ.Out .recovery] [κ.Out .catching] [κ.Out .defects] [κ.Out .overhead] [κ.Out .lanes] [κ.Out .ports]
    [κ.Out .flows] [κ.Out .calendar] [κ.Out .pages] [κ.Out .tributaries] [κ.Out .bonding] [κ.Out .slots] [κ.Out .keys]
    [κ.Out .housekeeping] [κ.Out .pair] [κ.Out .integrity] [κ.Out .custody] [κ.Out .captures] {s₀ s : State} {m : Nat}
    {line : Nat} {h0 : HeldWord} (h : Kept κ s₀ s) :
    Kept κ s₀ (State.uncorrectable s m line h0) := by
  unfold State.uncorrectable
  repeat' first
    | intro _ | with_reducible apply kept_bump | with_reducible apply kept_set | with_reducible apply kept_markWeak
    | with_reducible apply kept_haven | with_reducible apply kept_heldOutcome | with_reducible apply kept_raise
    | with_reducible apply kept_ite | split | dsimp only | with_reducible assumption
    | refine kept_fst (by assumption) ?_ | refine kept_snd (by assumption) ?_ | exact rfl | assumption
    | exact (Fact.out : κ .integrity = false)

theorem kept_lapEnd [κ.Out .events] [κ.Out .housekeeping] [κ.Out .integrity] [κ.Out .captures] {s₀ s : State}
    {m : Nat} (h : Kept κ s₀ s) :
    Kept κ s₀ (State.lapEnd s m) := by
  unfold State.lapEnd
  repeat' first
    | intro _ | with_reducible apply kept_set | with_reducible apply kept_bump | with_reducible apply kept_raise
    | with_reducible apply kept_ite | split | dsimp only | with_reducible assumption
    | refine kept_fst (by assumption) ?_ | refine kept_snd (by assumption) ?_ | exact rfl | assumption
    | exact (Fact.out : κ .integrity = false)

theorem kept_wordOutcome {s₀ s : State} {n : Nat} (h : Kept κ s₀ s) :
    Kept κ s₀ (State.wordOutcome s n).2 := by
  unfold State.wordOutcome
  repeat' first
    | intro _ | with_reducible apply kept_takeFree | with_reducible apply kept_ite | split | dsimp only
    | with_reducible assumption | refine kept_fst (by assumption) ?_ | refine kept_snd (by assumption) ?_
    | exact rfl | assumption

theorem kept_lineRead [κ.Out .events] [κ.Out .mode] [κ.Out .guard] [κ.Out .thermal] [κ.Out .carriers] [κ.Out .slack]
    [κ.Out .txLine] [κ.Out .rxLine] [κ.Out .clocks] [κ.Out .converters] [κ.Out .calibration] [κ.Out .banks]
    [κ.Out .dispersion] [κ.Out .frontEnd] [κ.Out .equaliser] [κ.Out .monitors] [κ.Out .neighbours] [κ.Out .recovery]
    [κ.Out .catching] [κ.Out .defects] [κ.Out .overhead] [κ.Out .lanes] [κ.Out .ports] [κ.Out .flows]
    [κ.Out .calendar] [κ.Out .pages] [κ.Out .tributaries] [κ.Out .bonding] [κ.Out .slots] [κ.Out .keys]
    [κ.Out .housekeeping] [κ.Out .pair] [κ.Out .integrity] [κ.Out .custody] [κ.Out .captures] {s₀ s : State} {m : Nat}
    {line : Nat} {l : List (Nat × HeldWord)} (h : Kept κ s₀ s) :
    Kept κ s₀ (State.lineRead s m line l) := by
  unfold State.lineRead
  repeat' first
    | intro _ | with_reducible apply kept_foldl | with_reducible apply kept_wordOutcome
    | with_reducible apply kept_uncorrectable | with_reducible apply kept_correction
    | with_reducible apply kept_foldl_fst | with_reducible apply kept_ite | split | dsimp only
    | with_reducible assumption | refine kept_fst (by assumption) ?_ | refine kept_snd (by assumption) ?_
    | exact rfl | assumption

theorem kept_scrubRead [κ.Out .events] [κ.Out .mode] [κ.Out .guard] [κ.Out .thermal] [κ.Out .carriers] [κ.Out .slack]
    [κ.Out .txLine] [κ.Out .rxLine] [κ.Out .clocks] [κ.Out .converters] [κ.Out .calibration] [κ.Out .banks]
    [κ.Out .dispersion] [κ.Out .frontEnd] [κ.Out .equaliser] [κ.Out .monitors] [κ.Out .neighbours] [κ.Out .recovery]
    [κ.Out .catching] [κ.Out .defects] [κ.Out .overhead] [κ.Out .lanes] [κ.Out .ports] [κ.Out .flows]
    [κ.Out .calendar] [κ.Out .pages] [κ.Out .tributaries] [κ.Out .bonding] [κ.Out .slots] [κ.Out .keys]
    [κ.Out .housekeeping] [κ.Out .pair] [κ.Out .integrity] [κ.Out .custody] [κ.Out .captures] {s₀ s : State} {m : Nat}
    {line : Nat} {r : LineReading} {idle : Bool} (h : Kept κ s₀ s) :
    Kept κ s₀ (State.scrubRead s m line r idle) := by
  unfold State.scrubRead
  repeat' first
    | intro _ | with_reducible apply kept_set | with_reducible apply kept_lineRead
    | with_reducible apply kept_lapEnd | with_reducible apply kept_ite | split | dsimp only
    | with_reducible assumption | refine kept_fst (by assumption) ?_ | refine kept_snd (by assumption) ?_
    | exact rfl | assumption | exact (Fact.out : κ .integrity = false)

theorem kept_execScrubRead [κ.Out .events] [κ.Out .mode] [κ.Out .guard] [κ.Out .thermal] [κ.Out .carriers]
    [κ.Out .slack] [κ.Out .txLine] [κ.Out .rxLine] [κ.Out .clocks] [κ.Out .converters] [κ.Out .calibration]
    [κ.Out .banks] [κ.Out .dispersion] [κ.Out .frontEnd] [κ.Out .equaliser] [κ.Out .monitors] [κ.Out .neighbours]
    [κ.Out .recovery] [κ.Out .catching] [κ.Out .defects] [κ.Out .overhead] [κ.Out .lanes] [κ.Out .ports]
    [κ.Out .flows] [κ.Out .calendar] [κ.Out .pages] [κ.Out .tributaries] [κ.Out .bonding] [κ.Out .slots] [κ.Out .keys]
    [κ.Out .housekeeping] [κ.Out .pair] [κ.Out .integrity] [κ.Out .custody] [κ.Out .captures] {s₀ s : State}
    {m : Fin 16} {line : Nat} {r : LineReading} {idle : Bool} (h : Kept κ s₀ s) :
    KeptO κ s₀ (execScrubRead m line r idle s) := by
  unfold execScrubRead
  repeat' first
    | intro _ | with_reducible apply kept_live | with_reducible apply kept_scrubRead
    | with_reducible apply kept_ite | split | dsimp only | with_reducible assumption
    | refine kept_fst (by assumption) ?_ | refine kept_snd (by assumption) ?_ | exact rfl | assumption

theorem kept_execEccWriteBack [κ.Out .events] [κ.Out .housekeeping] [κ.Out .integrity] [κ.Out .captures]
    {s₀ s : State} {m : Fin 16} {line : Nat} {reader : Bool} {_covered : Bool} (h : Kept κ s₀ s) :
    KeptO κ s₀ (execEccWriteBack m line reader _covered s) := by
  unfold execEccWriteBack
  repeat' first
    | intro _ | with_reducible apply kept_live | with_reducible apply kept_correction
    | with_reducible apply kept_ite | split | dsimp only | with_reducible assumption
    | refine kept_fst (by assumption) ?_ | refine kept_snd (by assumption) ?_ | exact rfl | assumption

theorem kept_rowCopied [κ.Out .integrity] {s₀ s : State} {m : Nat} {row : Nat} (h : Kept κ s₀ s) :
    Kept κ s₀ (State.rowCopied s m row) := by
  unfold State.rowCopied
  repeat' first
    | intro _ | with_reducible apply kept_set | with_reducible apply kept_bump | with_reducible apply kept_ite
    | split | dsimp only | with_reducible assumption | refine kept_fst (by assumption) ?_
    | refine kept_snd (by assumption) ?_ | exact rfl | assumption | with_reducible apply kept_rows
    | exact (Fact.out : κ .integrity = false)

theorem kept_execSpareRowCopyComplete [κ.Out .integrity] {s₀ : State} {m : Fin 16} {row : Nat} {s : State}
    (h : Kept κ s₀ s) :
    KeptO κ s₀ (execSpareRowCopyComplete m row s) := by
  unfold execSpareRowCopyComplete
  repeat' first
    | intro _ | with_reducible apply kept_next | with_reducible apply kept_live
    | with_reducible apply kept_rowCopied | with_reducible apply kept_ite | split | dsimp only
    | with_reducible assumption | refine kept_fst (by assumption) ?_ | refine kept_snd (by assumption) ?_
    | exact rfl | assumption

theorem kept_repairDone [κ.Out .events] [κ.Out .housekeeping] [κ.Out .integrity] [κ.Out .captures] {s₀ s : State}
    {k : Nat} {ok : Bool} (h : Kept κ s₀ s) :
    Kept κ s₀ (State.repairDone s k ok) := by
  unfold State.repairDone
  repeat' first
    | intro _ | with_reducible apply kept_set | with_reducible apply kept_bump | with_reducible apply kept_raise
    | with_reducible apply kept_ite | split | dsimp only | with_reducible assumption
    | refine kept_fst (by assumption) ?_ | refine kept_snd (by assumption) ?_ | exact rfl | assumption
    | with_reducible apply kept_rows | exact (Fact.out : κ .integrity = false)

theorem kept_execHbmRepairComplete [κ.Out .events] [κ.Out .housekeeping] [κ.Out .integrity] [κ.Out .captures]
    {s₀ : State} {k : Fin 4} {ok : Bool} {s : State} (h : Kept κ s₀ s) :
    KeptO κ s₀ (execHbmRepairComplete k ok s) := by
  unfold execHbmRepairComplete
  repeat' first
    | intro _ | with_reducible apply kept_next | with_reducible apply kept_live
    | with_reducible apply kept_repairDone | with_reducible apply kept_ite | split | dsimp only
    | with_reducible assumption | refine kept_fst (by assumption) ?_ | refine kept_snd (by assumption) ?_
    | exact rfl | assumption

end Sys2Proof.Laws
end

