-- ==== Sys2Proof/Laws/Kept/Mover.lean ====
section
/-! SUPPORT. Every operation of Machine/Mover.lean keeps (Laws/Kept.lean). -/

set_option Elab.async false
set_option linter.unusedTactic false
set_option linter.unreachableTactic false
set_option linter.unusedVariables false

namespace Sys2Proof.Laws

open Sys2Proof.Machine

variable {κ : Scope}

theorem kept_markRings [κ.Out .mover] {s₀ s : State} {code : Nat} {detail : Nat} {hit : State → Nat → Option Nat}
    (h : Kept κ s₀ s) :
    Kept κ s₀ (State.markRings s code detail hit) := by
  unfold State.markRings
  repeat' first
    | intro _ | with_reducible apply kept_each | with_reducible apply kept_set | with_reducible apply kept_ite
    | split | dsimp only | with_reducible assumption | refine kept_fst (by assumption) ?_
    | refine kept_snd (by assumption) ?_ | exact rfl | assumption | exact (Fact.out : κ .mover = false)

theorem kept_writeWindow [κ.Out .mover] {s₀ s : State} {w : Nat} {v : List Byte} (h : Kept κ s₀ s) :
    Kept κ s₀ (writeWindow w v s).1 := by
  unfold writeWindow
  repeat' first
    | intro _ | with_reducible apply kept_setBlob | with_reducible apply kept_markRings
    | with_reducible apply kept_ite | with_reducible apply kept_ite_fst | split | dsimp only
    | with_reducible assumption | refine kept_fst (by assumption) ?_ | refine kept_snd (by assumption) ?_
    | exact rfl | assumption | exact (Fact.out : κ .mover = false)

theorem kept_execWindowWrite [κ.Out .events] [κ.Out .management] [κ.Out .housekeeping] [κ.Out .mover]
    [κ.Out .captures] {s₀ : State} {cl : Client} {v : List Byte} {s : State} (h : Kept κ s₀ s) :
    KeptO κ s₀ (execWindowWrite cl v s) := by
  unfold execWindowWrite
  repeat' first
    | intro _ | with_reducible apply kept_next | with_reducible refine kept_serveWrite ?_ ?_ (by first | exact .inl (by decide) | exact .inr Fact.out)
    | with_reducible apply kept_writeWindow | with_reducible apply kept_ite | split | dsimp only
    | with_reducible assumption | refine kept_fst (by assumption) ?_ | refine kept_snd (by assumption) ?_
    | exact rfl | assumption

theorem kept_writeWindowTable [κ.Out .mover] {s₀ s : State} {v : List Byte} (h : Kept κ s₀ s) :
    Kept κ s₀ (writeWindowTable v s).1 := by
  unfold writeWindowTable
  repeat' first
    | intro _ | with_reducible apply kept_each | with_reducible apply kept_setBlob
    | with_reducible apply kept_markRings | with_reducible apply kept_ite | with_reducible apply kept_ite_fst
    | split | dsimp only | with_reducible assumption | refine kept_fst (by assumption) ?_
    | refine kept_snd (by assumption) ?_ | exact rfl | assumption | exact (Fact.out : κ .mover = false)

theorem kept_setDescs [κ.Out .mover] {s₀ s : State} {n : Nat} {l : List Descriptor} (h : Kept κ s₀ s) :
    Kept κ s₀ (State.setDescs s n l) := by
  unfold State.setDescs
  repeat' first
    | intro _ | with_reducible apply kept_ite | split | dsimp only | with_reducible assumption
    | with_reducible apply kept_descriptors | refine kept_fst (by assumption) ?_
    | refine kept_snd (by assumption) ?_ | exact rfl | assumption

theorem kept_transferClear [κ.Out .mover] {s₀ s : State} {n : Nat} (h : Kept κ s₀ s) :
    Kept κ s₀ (State.transferClear s n) := by
  unfold State.transferClear
  repeat' first
    | intro _ | with_reducible apply kept_set | with_reducible apply kept_setBlob | with_reducible apply kept_ite
    | split | dsimp only | with_reducible assumption | refine kept_fst (by assumption) ?_
    | refine kept_snd (by assumption) ?_ | exact rfl | assumption | exact (Fact.out : κ .mover = false)

theorem kept_ringHalt [κ.Out .events] [κ.Out .housekeeping] [κ.Out .mover] [κ.Out .captures] {s₀ s : State}
    {n : Nat} {d : Descriptor} {f : MoverFault} {pre : Bool} {time : Nat} (h : Kept κ s₀ s) :
    Kept κ s₀ (State.ringHalt s n d f pre time) := by
  unfold State.ringHalt
  repeat' first
    | intro _ | with_reducible apply kept_set | with_reducible apply kept_raise | with_reducible apply kept_bump
    | with_reducible apply kept_setBlob | with_reducible apply kept_ite | split | dsimp only
    | with_reducible assumption | refine kept_fst (by assumption) ?_ | refine kept_snd (by assumption) ?_
    | exact rfl | assumption | exact (Fact.out : κ .mover = false)

theorem kept_landBytes [κ.Out .memory] [κ.Out .mover] {s₀ s : State} {n a : Nat} {l : List Byte} (h : Kept κ s₀ s) :
    Kept κ s₀ (s.landBytes n a l) := by
  induction l generalizing s a with
  | nil => exact h
  | cons b t ih =>
    unfold State.landBytes
    refine ih ?_
    split
    · exact kept_ite (kept_setBlob h) (kept_writeByte h)
    · exact h

theorem kept_noteUse [κ.Out .mover] {s₀ s : State} {r : Nat} {a : Nat} {b : Nat} {n : Nat} (h : Kept κ s₀ s) :
    Kept κ s₀ (State.noteUse s r a b n) := by
  unfold State.noteUse
  repeat' first
    | intro _ | with_reducible apply kept_each | with_reducible apply kept_setBit | with_reducible apply kept_ite
    | split | dsimp only | with_reducible assumption | refine kept_fst (by assumption) ?_
    | refine kept_snd (by assumption) ?_ | exact rfl | assumption | exact (Fact.out : κ .mover = false)

theorem kept_granuleMove [κ.Out .memory] [κ.Out .events] [κ.Out .mode] [κ.Out .guard] [κ.Out .thermal]
    [κ.Out .carriers] [κ.Out .slack] [κ.Out .txLine] [κ.Out .rxLine] [κ.Out .clocks] [κ.Out .converters]
    [κ.Out .calibration] [κ.Out .banks] [κ.Out .dispersion] [κ.Out .frontEnd] [κ.Out .equaliser] [κ.Out .monitors]
    [κ.Out .neighbours] [κ.Out .recovery] [κ.Out .catching] [κ.Out .defects] [κ.Out .overhead] [κ.Out .lanes]
    [κ.Out .ports] [κ.Out .flows] [κ.Out .calendar] [κ.Out .pages] [κ.Out .tributaries] [κ.Out .bonding]
    [κ.Out .slots] [κ.Out .keys] [κ.Out .housekeeping] [κ.Out .pair] [κ.Out .integrity] [κ.Out .custody]
    [κ.Out .mover] [κ.Out .captures] {s₀ s : State} {n : Nat} {d : Descriptor} {bad : Option GranuleError}
    (h : Kept κ s₀ s) :
    Kept κ s₀ (State.granuleMove s n d bad) := by
  unfold State.granuleMove
  extract_lets x1 x2 x3 x4 x5 x6 x7
  have k4 : Kept κ s₀ x4 := by
    unfold x4
    repeat' first
      | intro _ | with_reducible apply kept_noteUse | with_reducible apply kept_set
      | with_reducible apply kept_setBlob | with_reducible apply kept_landBytes
      | with_reducible apply kept_uncorrectable | with_reducible apply kept_ringHalt
      | with_reducible apply kept_ite | split | dsimp only | with_reducible assumption
      | refine kept_fst (by assumption) ?_ | refine kept_snd (by assumption) ?_ | exact rfl | assumption
      | exact (Fact.out : κ .mover = false)
  clear_value x4
  have k5 : Kept κ s₀ x5 := by
    unfold x5
    repeat' first
      | intro _ | with_reducible apply kept_noteUse | with_reducible apply kept_set
      | with_reducible apply kept_setBlob | with_reducible apply kept_landBytes
      | with_reducible apply kept_uncorrectable | with_reducible apply kept_ringHalt
      | with_reducible apply kept_ite | split | dsimp only | with_reducible assumption
      | refine kept_fst (by assumption) ?_ | refine kept_snd (by assumption) ?_ | exact rfl | assumption
      | exact (Fact.out : κ .mover = false)
  clear_value x5
  have k6 : Kept κ s₀ x6 := by
    unfold x6
    repeat' first
      | intro _ | with_reducible apply kept_noteUse | with_reducible apply kept_set
      | with_reducible apply kept_setBlob | with_reducible apply kept_landBytes
      | with_reducible apply kept_uncorrectable | with_reducible apply kept_ringHalt
      | with_reducible apply kept_ite | split | dsimp only | with_reducible assumption
      | refine kept_fst (by assumption) ?_ | refine kept_snd (by assumption) ?_ | exact rfl | assumption
      | exact (Fact.out : κ .mover = false)
  clear_value x6
  repeat' first
    | intro _ | with_reducible apply kept_noteUse | with_reducible apply kept_set
    | with_reducible apply kept_setBlob | with_reducible apply kept_landBytes
    | with_reducible apply kept_uncorrectable | with_reducible apply kept_ringHalt | with_reducible apply kept_ite
    | split | dsimp only | with_reducible assumption | refine kept_fst (by assumption) ?_
    | refine kept_snd (by assumption) ?_ | exact rfl | assumption | exact (Fact.out : κ .mover = false)

theorem kept_bankReplace [κ.Out .events] [κ.Out .banks] [κ.Out .housekeeping] [κ.Out .mover] [κ.Out .captures]
    {s₀ s t : State} {n : Nat} {d : Descriptor} (h : Kept κ s₀ s) (e : s.bankReplace n d = .ok t) :
    Kept κ s₀ t := by
  unfold State.bankReplace at e
  dsimp only at e
  split at e
  · cases e
    exact h
  · split at e
    · cases e
    · split at e
      · cases e
        rename_i eq
        exact kept_fst eq (kept_writeStandby h)
      · split at e <;> cases e

theorem kept_descDone [κ.Out .events] [κ.Out .housekeeping] [κ.Out .mover] [κ.Out .captures] {s₀ s : State}
    {n : Nat} {d : Descriptor} (h : Kept κ s₀ s) :
    Kept κ s₀ (State.descDone s n d) := by
  unfold State.descDone
  repeat' first
    | intro _ | with_reducible apply kept_set | with_reducible apply kept_transferClear
    | with_reducible apply kept_setDescs | with_reducible apply kept_bump | with_reducible apply kept_raise
    | with_reducible apply kept_ite | split | dsimp only | with_reducible assumption
    | refine kept_fst (by assumption) ?_ | refine kept_snd (by assumption) ?_ | exact rfl | assumption
    | exact (Fact.out : κ .mover = false)

theorem kept_granuleDone [κ.Out .events] [κ.Out .banks] [κ.Out .housekeeping] [κ.Out .mover] [κ.Out .captures]
    {s₀ s : State} (h : Kept κ s₀ s) : Kept κ s₀ s.granuleDone := by
  unfold State.granuleDone
  split
  · exact h
  · dsimp only
    split
    · exact kept_set h
    · refine kept_ite ?_ (kept_set (kept_bump h))
      split
      · rename_i e
        exact kept_descDone (kept_bump (kept_bankReplace h e))
      · exact kept_ringHalt h

theorem kept_chooseRing [κ.Out .mover] {s₀ s : State} (h : Kept κ s₀ s) :
    Kept κ s₀ (State.chooseRing s).2 := by
  unfold State.chooseRing
  repeat' first
    | intro _ | with_reducible apply kept_set | with_reducible apply kept_ite | split | dsimp only
    | with_reducible assumption | refine kept_fst (by assumption) ?_ | refine kept_snd (by assumption) ?_
    | exact rfl | assumption | exact (Fact.out : κ .mover = false)

theorem kept_moverStart [κ.Out .memory] [κ.Out .events] [κ.Out .mode] [κ.Out .guard] [κ.Out .thermal] [κ.Out .carriers] [κ.Out .slack]
    [κ.Out .txLine] [κ.Out .rxLine] [κ.Out .clocks] [κ.Out .converters] [κ.Out .calibration] [κ.Out .banks]
    [κ.Out .dispersion] [κ.Out .frontEnd] [κ.Out .equaliser] [κ.Out .monitors] [κ.Out .neighbours] [κ.Out .recovery]
    [κ.Out .catching] [κ.Out .defects] [κ.Out .overhead] [κ.Out .lanes] [κ.Out .ports] [κ.Out .flows]
    [κ.Out .calendar] [κ.Out .pages] [κ.Out .tributaries] [κ.Out .bonding] [κ.Out .slots] [κ.Out .keys]
    [κ.Out .housekeeping] [κ.Out .pair] [κ.Out .integrity] [κ.Out .custody] [κ.Out .mover] [κ.Out .captures]
    {s₀ s : State}
    {fuel : Nat} {bad : Option GranuleError} (h : Kept κ s₀ s) :
    Kept κ s₀ (State.moverStart fuel s bad) := by
  induction fuel generalizing s with
  | zero => exact h
  | succ fuel ih =>
    have hc := kept_chooseRing h
    unfold State.moverStart
    split <;> rename_i e <;> rw [e] at hc
    · exact hc
    · split
      · exact hc
      · refine kept_ite (ih (kept_ringHalt hc)) ?_
        split
        · exact ih (kept_ringHalt hc)
        · exact kept_granuleMove hc

theorem kept_execMoverGranule [κ.Out .memory] [κ.Out .events] [κ.Out .mode] [κ.Out .guard] [κ.Out .thermal]
    [κ.Out .carriers] [κ.Out .slack] [κ.Out .txLine] [κ.Out .rxLine] [κ.Out .clocks] [κ.Out .converters]
    [κ.Out .calibration] [κ.Out .banks] [κ.Out .dispersion] [κ.Out .frontEnd] [κ.Out .equaliser] [κ.Out .monitors]
    [κ.Out .neighbours] [κ.Out .recovery] [κ.Out .catching] [κ.Out .defects] [κ.Out .overhead] [κ.Out .lanes]
    [κ.Out .ports] [κ.Out .flows] [κ.Out .calendar] [κ.Out .pages] [κ.Out .tributaries] [κ.Out .bonding]
    [κ.Out .slots] [κ.Out .keys] [κ.Out .housekeeping] [κ.Out .pair] [κ.Out .integrity] [κ.Out .custody]
    [κ.Out .mover] [κ.Out .captures]
    {s₀ : State}
    {bad : Option GranuleError} {s : State} (h : Kept κ s₀ s) :
    KeptO κ s₀ (execMoverGranule bad s) := by
  unfold execMoverGranule
  repeat' first
    | intro _ | with_reducible apply kept_next | with_reducible apply kept_live
    | with_reducible apply kept_moverStart | with_reducible apply kept_granuleDone
    | with_reducible apply kept_ite | split | dsimp only | with_reducible assumption
    | refine kept_fst (by assumption) ?_ | refine kept_snd (by assumption) ?_ | exact rfl | assumption

theorem kept_writeRingPost [κ.Out .mover] {s₀ : State} {cls : Nat} {n : Nat} {b : List Byte} {s : State}
    (h : Kept κ s₀ s) :
    Kept κ s₀ (writeRingPost cls n b s).1 := by
  unfold writeRingPost
  repeat' first
    | intro _ | with_reducible apply kept_setDescs | with_reducible apply kept_ite
    | with_reducible apply kept_ite_fst | split | dsimp only | with_reducible assumption
    | refine kept_fst (by assumption) ?_ | refine kept_snd (by assumption) ?_ | exact rfl | assumption

theorem kept_execRingPost [κ.Out .events] [κ.Out .management] [κ.Out .housekeeping] [κ.Out .mover] [κ.Out .captures]
    {s₀ : State} {cl : Client} {n : Fin 64} {b : List Byte} {s : State} (h : Kept κ s₀ s) :
    KeptO κ s₀ (execRingPost cl n b s) := by
  unfold execRingPost
  repeat' first
    | intro _ | with_reducible apply kept_next | with_reducible refine kept_serveWrite ?_ ?_ (by first | exact .inl (by decide) | exact .inr Fact.out)
    | with_reducible apply kept_writeRingPost | with_reducible apply kept_ite | split | dsimp only
    | with_reducible assumption | refine kept_fst (by assumption) ?_ | refine kept_snd (by assumption) ?_
    | exact rfl | assumption

theorem kept_writeRingControl [κ.Out .mover] {s₀ : State} {n : Nat} {v : Int} {s : State} (h : Kept κ s₀ s) :
    Kept κ s₀ (writeRingControl n v s).1 := by
  unfold writeRingControl
  repeat' first
    | intro _ | with_reducible apply kept_set | with_reducible apply kept_transferClear
    | with_reducible apply kept_setDescs | with_reducible apply kept_ite | with_reducible apply kept_ite_fst
    | split | dsimp only | with_reducible assumption | refine kept_fst (by assumption) ?_
    | refine kept_snd (by assumption) ?_ | exact rfl | assumption | exact (Fact.out : κ .mover = false)

theorem kept_execRingResume [κ.Out .events] [κ.Out .management] [κ.Out .housekeeping] [κ.Out .mover]
    [κ.Out .captures] {s₀ : State} {cl : Client} {n : Fin 64} {s : State} (h : Kept κ s₀ s) :
    KeptO κ s₀ (execRingResume cl n s) := by
  unfold execRingResume
  repeat' first
    | intro _ | with_reducible apply kept_next | with_reducible refine kept_serveWrite ?_ ?_ (by first | exact .inl (by decide) | exact .inr Fact.out)
    | with_reducible apply kept_writeRingControl | with_reducible apply kept_ite | split | dsimp only
    | with_reducible assumption | refine kept_fst (by assumption) ?_ | refine kept_snd (by assumption) ?_
    | exact rfl | assumption

theorem kept_execRingSkip [κ.Out .events] [κ.Out .management] [κ.Out .housekeeping] [κ.Out .mover] [κ.Out .captures]
    {s₀ : State} {cl : Client} {n : Fin 64} {s : State} (h : Kept κ s₀ s) :
    KeptO κ s₀ (execRingSkip cl n s) := by
  unfold execRingSkip
  repeat' first
    | intro _ | with_reducible apply kept_next | with_reducible refine kept_serveWrite ?_ ?_ (by first | exact .inl (by decide) | exact .inr Fact.out)
    | with_reducible apply kept_writeRingControl | with_reducible apply kept_ite | split | dsimp only
    | with_reducible assumption | refine kept_fst (by assumption) ?_ | refine kept_snd (by assumption) ?_
    | exact rfl | assumption

theorem kept_execRingFlush [κ.Out .events] [κ.Out .management] [κ.Out .housekeeping] [κ.Out .mover]
    [κ.Out .captures] {s₀ : State} {cl : Client} {n : Fin 64} {s : State} (h : Kept κ s₀ s) :
    KeptO κ s₀ (execRingFlush cl n s) := by
  unfold execRingFlush
  repeat' first
    | intro _ | with_reducible apply kept_next | with_reducible refine kept_serveWrite ?_ ?_ (by first | exact .inl (by decide) | exact .inr Fact.out)
    | with_reducible apply kept_writeRingControl | with_reducible apply kept_ite | split | dsimp only
    | with_reducible assumption | refine kept_fst (by assumption) ?_ | refine kept_snd (by assumption) ?_
    | exact rfl | assumption

theorem kept_captureArm [κ.Out .mover] [κ.Out .captures] {s₀ s : State} {c : Nat} (h : Kept κ s₀ s) :
    Kept κ s₀ (State.captureArm s c) := by
  unfold State.captureArm
  repeat' first
    | intro _ | with_reducible apply kept_set | with_reducible apply kept_bump | with_reducible apply kept_when
    | with_reducible apply kept_markRings | with_reducible apply kept_ite | split | dsimp only
    | with_reducible assumption | refine kept_fst (by assumption) ?_ | refine kept_snd (by assumption) ?_
    | exact rfl | assumption | exact (Fact.out : κ .captures = false)

theorem kept_writeCapture [κ.Out .mover] [κ.Out .captures] {s₀ : State} {c : Nat} {v : Int} {s : State}
    (h : Kept κ s₀ s) :
    Kept κ s₀ (writeCapture c v s).1 := by
  unfold writeCapture
  repeat' first
    | intro _ | with_reducible apply kept_captureArm | with_reducible apply kept_set
    | with_reducible apply kept_ite | with_reducible apply kept_ite_fst | split | dsimp only
    | with_reducible assumption | refine kept_fst (by assumption) ?_ | refine kept_snd (by assumption) ?_
    | exact rfl | assumption | exact (Fact.out : κ .captures = false)

theorem kept_execCaptureArm [κ.Out .events] [κ.Out .management] [κ.Out .housekeeping] [κ.Out .mover]
    [κ.Out .captures] {s₀ : State} {cl : Client} {c : Fin 12} {s : State} (h : Kept κ s₀ s) :
    KeptO κ s₀ (execCaptureArm cl c s) := by
  unfold execCaptureArm
  repeat' first
    | intro _ | with_reducible apply kept_next | with_reducible refine kept_serveWrite ?_ ?_ (by first | exact .inl (by decide) | exact .inr Fact.out)
    | with_reducible apply kept_writeCapture | with_reducible apply kept_ite | split | dsimp only
    | with_reducible assumption | refine kept_fst (by assumption) ?_ | refine kept_snd (by assumption) ?_
    | exact rfl | assumption

theorem kept_execCaptureStop [κ.Out .events] [κ.Out .management] [κ.Out .housekeeping] [κ.Out .mover]
    [κ.Out .captures] {s₀ : State} {cl : Client} {c : Fin 12} {s : State} (h : Kept κ s₀ s) :
    KeptO κ s₀ (execCaptureStop cl c s) := by
  unfold execCaptureStop
  repeat' first
    | intro _ | with_reducible apply kept_next | with_reducible refine kept_serveWrite ?_ ?_ (by first | exact .inl (by decide) | exact .inr Fact.out)
    | with_reducible apply kept_writeCapture | with_reducible apply kept_ite | split | dsimp only
    | with_reducible assumption | refine kept_fst (by assumption) ?_ | refine kept_snd (by assumption) ?_
    | exact rfl | assumption

theorem kept_captureDone [κ.Out .captures] {s₀ s : State} {c : Nat} (h : Kept κ s₀ s) :
    Kept κ s₀ (State.captureDone s c) := by
  unfold State.captureDone
  repeat' first
    | intro _ | with_reducible apply kept_set | with_reducible apply kept_ite | split | dsimp only
    | with_reducible assumption | refine kept_fst (by assumption) ?_ | refine kept_snd (by assumption) ?_
    | exact rfl | assumption | exact (Fact.out : κ .captures = false)

theorem kept_execCaptureComplete [κ.Out .captures] {s₀ : State} {c : Fin 12} {s : State} (h : Kept κ s₀ s) :
    KeptO κ s₀ (execCaptureComplete c s) := by
  unfold execCaptureComplete
  repeat' first
    | intro _ | with_reducible apply kept_next | with_reducible apply kept_live
    | with_reducible apply kept_captureDone | with_reducible apply kept_ite | split | dsimp only
    | with_reducible assumption | refine kept_fst (by assumption) ?_ | refine kept_snd (by assumption) ?_
    | exact rfl | assumption

theorem kept_telemetryMs [κ.Out .memory] [κ.Out .coding] [κ.Out .mover] {s₀ s : State} (h : Kept κ s₀ s) :
    Kept κ s₀ (State.telemetryMs s) := by
  unfold State.telemetryMs
  repeat' first
    | intro _ | with_reducible apply kept_each | with_reducible apply kept_writeBytes
    | with_reducible apply kept_set | with_reducible apply kept_bump | with_reducible apply kept_ite | split
    | dsimp only | with_reducible assumption | refine kept_fst (by assumption) ?_
    | refine kept_snd (by assumption) ?_ | exact rfl | assumption | exact (Fact.out : κ .coding = false)
    | exact (Fact.out : κ .mover = false)

theorem kept_writeTelemetry [κ.Out .mover] {s₀ : State} {v : Int} {s : State} (h : Kept κ s₀ s) :
    Kept κ s₀ (writeTelemetry v s).1 := by
  unfold writeTelemetry
  repeat' first
    | intro _ | with_reducible apply kept_set | with_reducible apply kept_ite
    | with_reducible apply kept_ite_fst | split | dsimp only | with_reducible assumption
    | refine kept_fst (by assumption) ?_ | refine kept_snd (by assumption) ?_ | exact rfl | assumption
    | exact (Fact.out : κ .mover = false)

end Sys2Proof.Laws
end

