-- ==== Sys2Proof/Laws/Kept/Power.lean ====
section
/-! SUPPORT. Every operation of Machine/Power.lean keeps (Laws/Kept.lean). -/

set_option Elab.async false
set_option linter.unusedTactic false
set_option linter.unreachableTactic false
set_option linter.unusedVariables false

namespace Sys2Proof.Laws

open Sys2Proof.Machine

variable {κ : Scope}

theorem kept_setConflict [κ.Out .events] [κ.Out .guard] [κ.Out .housekeeping] [κ.Out .captures] {s₀ s : State}
    {g : Nat} {kind : Nat} {v : Bool} (h : Kept κ s₀ s) :
    Kept κ s₀ (State.setConflict s g kind v) := by
  unfold State.setConflict
  repeat' first
    | intro _ | with_reducible apply kept_raiseClear | with_reducible apply kept_setBit
    | with_reducible apply kept_ite | split | dsimp only | with_reducible assumption
    | refine kept_fst (by assumption) ?_ | refine kept_snd (by assumption) ?_ | exact rfl | assumption
    | exact (Fact.out : κ .guard = false)

theorem kept_guardDomain [κ.Out .events] [κ.Out .rails] [κ.Out .guard] [κ.Out .housekeeping] [κ.Out .captures]
    {s₀ s : State} {g : Nat} {m : GuardReading} (h : Kept κ s₀ s) :
    Kept κ s₀ (State.guardDomain s g m) := by
  unfold State.guardDomain
  extract_lets x1 x2 x3 x4 x5 x6 x7 x8 x9 x10 x11 x12 x13 x14 x15 x16 x17 x18
  have k14 : Kept κ s₀ x14 := by
    unfold x14
    repeat' first
      | intro _ | with_reducible apply kept_set | with_reducible apply kept_bump
      | with_reducible apply kept_setConflict | with_reducible apply kept_ite | split | dsimp only
      | with_reducible assumption | refine kept_fst (by assumption) ?_ | refine kept_snd (by assumption) ?_
      | exact rfl | assumption | exact (Fact.out : κ .rails = false) | exact (Fact.out : κ .guard = false)
  clear_value x14
  have k16 : Kept κ s₀ x16 := by
    unfold x16
    repeat' first
      | intro _ | with_reducible apply kept_set | with_reducible apply kept_bump
      | with_reducible apply kept_setConflict | with_reducible apply kept_ite | split | dsimp only
      | with_reducible assumption | refine kept_fst (by assumption) ?_ | refine kept_snd (by assumption) ?_
      | exact rfl | assumption | exact (Fact.out : κ .rails = false) | exact (Fact.out : κ .guard = false)
  clear_value x16
  have k17 : Kept κ s₀ x17 := by
    unfold x17
    repeat' first
      | intro _ | with_reducible apply kept_set | with_reducible apply kept_bump
      | with_reducible apply kept_setConflict | with_reducible apply kept_ite | split | dsimp only
      | with_reducible assumption | refine kept_fst (by assumption) ?_ | refine kept_snd (by assumption) ?_
      | exact rfl | assumption | exact (Fact.out : κ .rails = false) | exact (Fact.out : κ .guard = false)
  clear_value x17
  have k18 : Kept κ s₀ x18 := by
    unfold x18
    repeat' first
      | intro _ | with_reducible apply kept_set | with_reducible apply kept_bump
      | with_reducible apply kept_setConflict | with_reducible apply kept_ite | split | dsimp only
      | with_reducible assumption | refine kept_fst (by assumption) ?_ | refine kept_snd (by assumption) ?_
      | exact rfl | assumption | exact (Fact.out : κ .rails = false) | exact (Fact.out : κ .guard = false)
  clear_value x18
  repeat' first
    | intro _ | with_reducible apply kept_set | with_reducible apply kept_bump
    | with_reducible apply kept_setConflict | with_reducible apply kept_ite | split | dsimp only
    | with_reducible assumption | refine kept_fst (by assumption) ?_ | refine kept_snd (by assumption) ?_
    | exact rfl | assumption | exact (Fact.out : κ .rails = false) | exact (Fact.out : κ .guard = false)

theorem kept_avsResult [κ.Out .events] [κ.Out .rails] [κ.Out .guard] [κ.Out .housekeeping] [κ.Out .captures]
    {s₀ s : State} {g : Nat} {ack : Bool} (h : Kept κ s₀ s) :
    Kept κ s₀ (State.avsResult s g ack) := by
  unfold State.avsResult
  repeat' first
    | intro _ | with_reducible apply kept_set | with_reducible apply kept_raise | with_reducible apply kept_bump
    | with_reducible apply kept_ite | split | dsimp only | with_reducible assumption
    | refine kept_fst (by assumption) ?_ | refine kept_snd (by assumption) ?_ | exact rfl | assumption
    | exact (Fact.out : κ .rails = false) | exact (Fact.out : κ .guard = false)

theorem kept_avsTarget [κ.Out .events] [κ.Out .rails] [κ.Out .guard] [κ.Out .housekeeping] [κ.Out .captures]
    {s₀ s : State} {g : Nat} {m : GuardReading} (h : Kept κ s₀ s) :
    Kept κ s₀ (State.avsTarget s g m) := by
  unfold State.avsTarget
  repeat' first
    | intro _ | with_reducible apply kept_set | with_reducible apply kept_emit
    | with_reducible apply kept_avsResult | with_reducible apply kept_ite | split | dsimp only
    | with_reducible assumption | refine kept_fst (by assumption) ?_ | refine kept_snd (by assumption) ?_
    | exact rfl | assumption | exact (Fact.out : κ .rails = false) | exact (Fact.out : κ .guard = false)

theorem kept_avsCurrent [κ.Out .events] [κ.Out .rails] [κ.Out .guard] [κ.Out .housekeeping] [κ.Out .captures]
    {s₀ s : State} {g : Nat} {m : GuardReading} (h : Kept κ s₀ s) :
    Kept κ s₀ (State.avsCurrent s g m) := by
  unfold State.avsCurrent
  repeat' first
    | intro _ | with_reducible apply kept_avsResult | with_reducible apply kept_setBlob
    | with_reducible apply kept_set | with_reducible apply kept_ite | split | dsimp only
    | with_reducible assumption | refine kept_fst (by assumption) ?_ | refine kept_snd (by assumption) ?_
    | exact rfl | assumption | exact (Fact.out : κ .guard = false)

theorem kept_raisesNow [κ.Out .slack] [κ.Out .bonding] {s₀ s : State} (h : Kept κ s₀ s) :
    Kept κ s₀ (State.raisesNow s) := by
  unfold State.raisesNow
  repeat' first
    | intro _ | with_reducible apply kept_each | with_reducible apply kept_setFlag | with_reducible apply kept_ite
    | split | dsimp only | with_reducible assumption | refine kept_fst (by assumption) ?_
    | refine kept_snd (by assumption) ?_ | exact rfl | assumption | exact (Fact.out : κ .slack = false)
    | exact (Fact.out : κ .bonding = false)

theorem kept_guardJudge [κ.Out .guard] {s₀ s : State} {g : Nat} (h : Kept κ s₀ s) :
    Kept κ s₀ (State.guardJudge s g) := by
  unfold State.guardJudge
  repeat' first
    | intro _ | with_reducible apply kept_set | with_reducible apply kept_ite | split | dsimp only
    | with_reducible assumption | refine kept_fst (by assumption) ?_ | refine kept_snd (by assumption) ?_
    | exact rfl | assumption | exact (Fact.out : κ .guard = false)

theorem kept_execGuardControlLost [κ.Out .events] [κ.Out .mode] [κ.Out .guard] [κ.Out .thermal] [κ.Out .carriers]
    [κ.Out .slack] [κ.Out .txLine] [κ.Out .rxLine] [κ.Out .clocks] [κ.Out .converters] [κ.Out .calibration]
    [κ.Out .banks] [κ.Out .dispersion] [κ.Out .frontEnd] [κ.Out .equaliser] [κ.Out .monitors] [κ.Out .neighbours]
    [κ.Out .recovery] [κ.Out .catching] [κ.Out .defects] [κ.Out .overhead] [κ.Out .lanes] [κ.Out .ports]
    [κ.Out .flows] [κ.Out .calendar] [κ.Out .pages] [κ.Out .tributaries] [κ.Out .bonding] [κ.Out .slots] [κ.Out .keys]
    [κ.Out .housekeeping] [κ.Out .pair] [κ.Out .integrity] [κ.Out .captures] {s₀ s : State} {g : Fin 5}
    (h : Kept κ s₀ s) :
    KeptO κ s₀ (execGuardControlLost g s) := by
  unfold execGuardControlLost
  repeat' first
    | intro _ | with_reducible apply kept_live | with_reducible apply kept_set | with_reducible apply kept_haven
    | with_reducible apply kept_ite | split | dsimp only | with_reducible assumption
    | refine kept_fst (by assumption) ?_ | refine kept_snd (by assumption) ?_ | exact rfl | assumption
    | exact (Fact.out : κ .guard = false)

theorem kept_guardPeriod [κ.Out .events] [κ.Out .rails] [κ.Out .guard] [κ.Out .carriers] [κ.Out .slack]
    [κ.Out .txLine] [κ.Out .rxLine] [κ.Out .clocks] [κ.Out .converters] [κ.Out .calibration] [κ.Out .banks]
    [κ.Out .dispersion] [κ.Out .frontEnd] [κ.Out .equaliser] [κ.Out .monitors] [κ.Out .neighbours] [κ.Out .recovery]
    [κ.Out .catching] [κ.Out .coding] [κ.Out .defects] [κ.Out .overhead] [κ.Out .pages] [κ.Out .bonding]
    [κ.Out .housekeeping] [κ.Out .captures] {s₀ s : State} {m : Vector GuardReading 5}
    {hand : Vector (Fin 129 × Fin 129) 4} (h : Kept κ s₀ s) :
    Kept κ s₀ (State.guardPeriod s m hand) := by
  unfold State.guardPeriod
  extract_lets x1 x2 x3 x4 x5 x6 x7 x8
  have k2 : Kept κ s₀ x2 := by
    unfold x2
    repeat' first
      | intro _ | with_reducible apply kept_each | with_reducible apply kept_set
      | with_reducible apply kept_raisesNow | with_reducible apply kept_guardDomain
      | with_reducible apply kept_avsTarget | with_reducible apply kept_avsCurrent
      | with_reducible apply kept_guardJudge | with_reducible apply kept_exitIdle | with_reducible apply kept_ite
      | split | dsimp only | with_reducible assumption | refine kept_fst (by assumption) ?_
      | refine kept_snd (by assumption) ?_ | exact rfl | assumption | exact (Fact.out : κ .guard = false)
  clear_value x2
  have k3 : Kept κ s₀ x3 := by
    unfold x3
    repeat' first
      | intro _ | with_reducible apply kept_each | with_reducible apply kept_set
      | with_reducible apply kept_raisesNow | with_reducible apply kept_guardDomain
      | with_reducible apply kept_avsTarget | with_reducible apply kept_avsCurrent
      | with_reducible apply kept_guardJudge | with_reducible apply kept_exitIdle | with_reducible apply kept_ite
      | split | dsimp only | with_reducible assumption | refine kept_fst (by assumption) ?_
      | refine kept_snd (by assumption) ?_ | exact rfl | assumption | exact (Fact.out : κ .guard = false)
  clear_value x3
  have k5 : Kept κ s₀ x5 := by
    unfold x5
    repeat' first
      | intro _ | with_reducible apply kept_each | with_reducible apply kept_set
      | with_reducible apply kept_raisesNow | with_reducible apply kept_guardDomain
      | with_reducible apply kept_avsTarget | with_reducible apply kept_avsCurrent
      | with_reducible apply kept_guardJudge | with_reducible apply kept_exitIdle | with_reducible apply kept_ite
      | split | dsimp only | with_reducible assumption | refine kept_fst (by assumption) ?_
      | refine kept_snd (by assumption) ?_ | exact rfl | assumption | exact (Fact.out : κ .guard = false)
  clear_value x5
  have k6 : Kept κ s₀ x6 := by
    unfold x6
    repeat' first
      | intro _ | with_reducible apply kept_each | with_reducible apply kept_set
      | with_reducible apply kept_raisesNow | with_reducible apply kept_guardDomain
      | with_reducible apply kept_avsTarget | with_reducible apply kept_avsCurrent
      | with_reducible apply kept_guardJudge | with_reducible apply kept_exitIdle | with_reducible apply kept_ite
      | split | dsimp only | with_reducible assumption | refine kept_fst (by assumption) ?_
      | refine kept_snd (by assumption) ?_ | exact rfl | assumption | exact (Fact.out : κ .guard = false)
  clear_value x6
  have k8 : Kept κ s₀ x8 := by
    unfold x8
    repeat' first
      | intro _ | with_reducible apply kept_each | with_reducible apply kept_set
      | with_reducible apply kept_raisesNow | with_reducible apply kept_guardDomain
      | with_reducible apply kept_avsTarget | with_reducible apply kept_avsCurrent
      | with_reducible apply kept_guardJudge | with_reducible apply kept_exitIdle | with_reducible apply kept_ite
      | split | dsimp only | with_reducible assumption | refine kept_fst (by assumption) ?_
      | refine kept_snd (by assumption) ?_ | exact rfl | assumption | exact (Fact.out : κ .guard = false)
  clear_value x8
  repeat' first
    | intro _ | with_reducible apply kept_each | with_reducible apply kept_set
    | with_reducible apply kept_raisesNow | with_reducible apply kept_guardDomain
    | with_reducible apply kept_avsTarget | with_reducible apply kept_avsCurrent
    | with_reducible apply kept_guardJudge | with_reducible apply kept_exitIdle | with_reducible apply kept_ite
    | split | dsimp only | with_reducible assumption | refine kept_fst (by assumption) ?_
    | refine kept_snd (by assumption) ?_ | exact rfl | assumption | exact (Fact.out : κ .guard = false)

theorem kept_execGuardLoopPeriod [κ.Out .events] [κ.Out .rails] [κ.Out .guard] [κ.Out .carriers] [κ.Out .slack]
    [κ.Out .txLine] [κ.Out .rxLine] [κ.Out .clocks] [κ.Out .converters] [κ.Out .calibration] [κ.Out .banks]
    [κ.Out .dispersion] [κ.Out .frontEnd] [κ.Out .equaliser] [κ.Out .monitors] [κ.Out .neighbours] [κ.Out .recovery]
    [κ.Out .catching] [κ.Out .coding] [κ.Out .defects] [κ.Out .overhead] [κ.Out .pages] [κ.Out .bonding]
    [κ.Out .housekeeping] [κ.Out .captures]
    {s₀ : State} {m : Vector GuardReading 5} {hand : Vector (Fin 129 × Fin 129) 4} {s : State} (h : Kept κ s₀ s) :
    KeptO κ s₀ (execGuardLoopPeriod m hand s) := by
  unfold execGuardLoopPeriod
  repeat' first
    | intro _ | with_reducible apply kept_next | with_reducible apply kept_live
    | with_reducible apply kept_guardPeriod | with_reducible apply kept_ite | split | dsimp only
    | with_reducible assumption | refine kept_fst (by assumption) ?_ | refine kept_snd (by assumption) ?_
    | exact rfl | assumption

theorem kept_limitMs [κ.Out .guard] {s₀ s : State} (h : Kept κ s₀ s) :
    Kept κ s₀ (State.limitMs s) := by
  unfold State.limitMs
  repeat' first
    | intro _ | with_reducible apply kept_each | with_reducible apply kept_set | with_reducible apply kept_ite
    | split | dsimp only | with_reducible assumption | refine kept_fst (by assumption) ?_
    | refine kept_snd (by assumption) ?_ | exact rfl | assumption | exact (Fact.out : κ .guard = false)

theorem kept_writeGuardLimit [κ.Out .guard] {s₀ : State} {r : Reg} {g : Nat} {v : Int} {s : State}
    (hr : κ (Safety.part r) = false := by
      first | assumption | ((conv in Safety.part _ => whnf); exact Fact.out) | exact leaves_none _)
    (h : Kept κ s₀ s) :
    Kept κ s₀ (writeGuardLimit r g v s).1 := by
  unfold writeGuardLimit
  repeat' first
    | intro _ | with_reducible apply kept_set | with_reducible apply kept_ite
    | with_reducible apply kept_ite_fst | split | dsimp only | with_reducible assumption
    | refine kept_fst (by assumption) ?_ | refine kept_snd (by assumption) ?_ | exact rfl | assumption
    | exact (Fact.out : κ .guard = false)

theorem kept_railSample [κ.Out .events] [κ.Out .rails] [κ.Out .housekeeping] [κ.Out .captures] {s₀ s : State}
    {r : Nat} {v : Nat} (h : Kept κ s₀ s) :
    Kept κ s₀ (State.railSample s r v) := by
  unfold State.railSample
  repeat' first
    | intro _ | with_reducible apply kept_set | with_reducible apply kept_trough | with_reducible apply kept_bump
    | with_reducible apply kept_raise | with_reducible apply kept_ite | split | dsimp only
    | with_reducible assumption | refine kept_fst (by assumption) ?_ | refine kept_snd (by assumption) ?_
    | exact rfl | assumption | exact (Fact.out : κ .rails = false)

theorem kept_execRailSample [κ.Out .phase] [κ.Out .events] [κ.Out .rails] [κ.Out .housekeeping] [κ.Out .captures]
    {s₀ : State} {v : Vector (Fin 65536) 13} {s : State} (h : Kept κ s₀ s) :
    KeptO κ s₀ (execRailSample v s) := by
  unfold execRailSample
  repeat' first
    | intro _ | with_reducible apply kept_next | with_reducible apply kept_each
    | with_reducible apply kept_railSample | with_reducible apply kept_ite | split | dsimp only
    | with_reducible assumption | with_reducible apply kept_phase | refine kept_fst (by assumption) ?_
    | refine kept_snd (by assumption) ?_ | exact rfl | assumption

theorem kept_execBrownout [κ.Out .events] [κ.Out .mode] [κ.Out .rails] [κ.Out .guard] [κ.Out .thermal]
    [κ.Out .carriers] [κ.Out .slack] [κ.Out .txLine] [κ.Out .rxLine] [κ.Out .clocks] [κ.Out .converters]
    [κ.Out .calibration] [κ.Out .banks] [κ.Out .dispersion] [κ.Out .frontEnd] [κ.Out .equaliser] [κ.Out .monitors]
    [κ.Out .neighbours] [κ.Out .recovery] [κ.Out .catching] [κ.Out .defects] [κ.Out .overhead] [κ.Out .lanes]
    [κ.Out .ports] [κ.Out .flows] [κ.Out .calendar] [κ.Out .pages] [κ.Out .tributaries] [κ.Out .bonding]
    [κ.Out .slots] [κ.Out .keys] [κ.Out .housekeeping] [κ.Out .pair] [κ.Out .integrity] [κ.Out .captures]
    {s₀ s : State} {r : Fin 13} (h : Kept κ s₀ s) :
    KeptO κ s₀ (execBrownout r s) := by
  unfold execBrownout
  repeat' first
    | intro _ | with_reducible apply kept_live | with_reducible apply kept_set | with_reducible apply kept_haven
    | with_reducible apply kept_ite | split | dsimp only | with_reducible assumption
    | refine kept_fst (by assumption) ?_ | refine kept_snd (by assumption) ?_ | exact rfl | assumption
    | exact (Fact.out : κ .rails = false)

theorem kept_sensorValue [κ.Out .thermal] {s₀ s : State} {i : Nat} {v : Int} (h : Kept κ s₀ s) :
    Kept κ s₀ (State.sensorValue s i v) := by
  unfold State.sensorValue
  repeat' first
    | intro _ | with_reducible apply kept_peak | with_reducible apply kept_set
    | with_reducible apply kept_setBlob | with_reducible apply kept_ite | split | dsimp only
    | with_reducible assumption | refine kept_fst (by assumption) ?_ | refine kept_snd (by assumption) ?_
    | exact rfl | assumption | exact (Fact.out : κ .thermal = false)

theorem kept_refreshHottest [κ.Out .thermal] {s₀ s : State} (h : Kept κ s₀ s) :
    Kept κ s₀ (State.refreshHottest s) := by
  unfold State.refreshHottest
  repeat' first
    | intro _ | with_reducible apply kept_set | with_reducible apply kept_foldl | with_reducible apply kept_ite
    | split | dsimp only | with_reducible assumption | refine kept_fst (by assumption) ?_
    | refine kept_snd (by assumption) ?_ | exact rfl | assumption | exact (Fact.out : κ .thermal = false)

theorem kept_biasStep [κ.Out .converters] {s₀ s : State} {l : Nat} {v : Int} (h : Kept κ s₀ s) :
    Kept κ s₀ (State.biasStep s l v) := by
  unfold State.biasStep
  repeat' first
    | intro _ | with_reducible apply kept_set | with_reducible apply kept_ite | split | dsimp only
    | with_reducible assumption | refine kept_fst (by assumption) ?_ | refine kept_snd (by assumption) ?_
    | exact rfl | assumption | exact (Fact.out : κ .converters = false)

theorem kept_compensate [κ.Out .events] [κ.Out .converters] [κ.Out .calibration] [κ.Out .housekeeping]
    [κ.Out .captures] {s₀ s : State} {c : Nat} (h : Kept κ s₀ s) :
    Kept κ s₀ (State.compensate s c) := by
  unfold State.compensate
  extract_lets x1 x2 x3 x4
  have k3 : Kept κ s₀ x3 := by
    unfold x3
    repeat' first
      | intro _ | with_reducible apply kept_each | with_reducible apply kept_biasStep
      | with_reducible apply kept_setFlag | with_reducible apply kept_set | with_reducible apply kept_raise
      | with_reducible apply kept_ite | split | dsimp only | with_reducible assumption
      | refine kept_fst (by assumption) ?_ | refine kept_snd (by assumption) ?_ | exact rfl | assumption
      | exact (Fact.out : κ .converters = false) | exact (Fact.out : κ .calibration = false)
  clear_value x3
  have k4 : Kept κ s₀ x4 := by
    unfold x4
    repeat' first
      | intro _ | with_reducible apply kept_each | with_reducible apply kept_biasStep
      | with_reducible apply kept_setFlag | with_reducible apply kept_set | with_reducible apply kept_raise
      | with_reducible apply kept_ite | split | dsimp only | with_reducible assumption
      | refine kept_fst (by assumption) ?_ | refine kept_snd (by assumption) ?_ | exact rfl | assumption
      | exact (Fact.out : κ .converters = false) | exact (Fact.out : κ .calibration = false)
  clear_value x4
  repeat' first
    | intro _ | with_reducible apply kept_each | with_reducible apply kept_biasStep
    | with_reducible apply kept_setFlag | with_reducible apply kept_set | with_reducible apply kept_raise
    | with_reducible apply kept_ite | split | dsimp only | with_reducible assumption
    | refine kept_fst (by assumption) ?_ | refine kept_snd (by assumption) ?_ | exact rfl | assumption
    | exact (Fact.out : κ .converters = false) | exact (Fact.out : κ .calibration = false)

theorem kept_followTemp [κ.Out .thermal] {s₀ s : State} {i : Nat} (h : Kept κ s₀ s) :
    Kept κ s₀ (State.followTemp s i) := by
  unfold State.followTemp
  repeat' first
    | intro _ | with_reducible apply kept_set | with_reducible apply kept_ite | split | dsimp only
    | with_reducible assumption | refine kept_fst (by assumption) ?_ | refine kept_snd (by assumption) ?_
    | exact rfl | assumption | exact (Fact.out : κ .thermal = false)

theorem kept_bandCheck [κ.Out .events] [κ.Out .thermal] [κ.Out .converters] [κ.Out .calibration] [κ.Out .housekeeping]
    [κ.Out .captures] {s₀ s : State} {i : Nat} (h : Kept κ s₀ s) :
    Kept κ s₀ (State.bandCheck s i) := by
  unfold State.bandCheck
  repeat' first
    | intro _ | with_reducible apply kept_when | with_reducible apply kept_compensate
    | with_reducible apply kept_followTemp | with_reducible apply kept_ite | split | dsimp only
    | with_reducible assumption | refine kept_fst (by assumption) ?_ | refine kept_snd (by assumption) ?_
    | exact rfl | assumption

theorem kept_shutdownCheck [κ.Out .events] [κ.Out .mode] [κ.Out .guard] [κ.Out .thermal] [κ.Out .carriers]
    [κ.Out .slack] [κ.Out .txLine] [κ.Out .rxLine] [κ.Out .clocks] [κ.Out .converters] [κ.Out .calibration]
    [κ.Out .banks] [κ.Out .dispersion] [κ.Out .frontEnd] [κ.Out .equaliser] [κ.Out .monitors] [κ.Out .neighbours]
    [κ.Out .recovery] [κ.Out .catching] [κ.Out .defects] [κ.Out .overhead] [κ.Out .lanes] [κ.Out .ports]
    [κ.Out .flows] [κ.Out .calendar] [κ.Out .pages] [κ.Out .tributaries] [κ.Out .bonding] [κ.Out .slots] [κ.Out .keys]
    [κ.Out .housekeeping] [κ.Out .pair] [κ.Out .integrity] [κ.Out .captures]
    {s₀ s : State} (h : Kept κ s₀ s) :
    Kept κ s₀ (State.shutdownCheck s) := by
  unfold State.shutdownCheck
  repeat' first
    | intro _ | with_reducible apply kept_set | with_reducible apply kept_raise
    | with_reducible apply kept_haven | with_reducible apply kept_ite | split | dsimp only
    | with_reducible assumption | refine kept_fst (by assumption) ?_ | refine kept_snd (by assumption) ?_
    | exact rfl | assumption | exact (Fact.out : κ .thermal = false)

theorem kept_sensorSample [κ.Out .events] [κ.Out .mode] [κ.Out .guard] [κ.Out .thermal] [κ.Out .carriers]
    [κ.Out .slack] [κ.Out .txLine] [κ.Out .rxLine] [κ.Out .clocks] [κ.Out .converters] [κ.Out .calibration]
    [κ.Out .banks] [κ.Out .dispersion] [κ.Out .frontEnd] [κ.Out .equaliser] [κ.Out .monitors] [κ.Out .neighbours]
    [κ.Out .recovery] [κ.Out .catching] [κ.Out .defects] [κ.Out .overhead] [κ.Out .lanes] [κ.Out .ports]
    [κ.Out .flows] [κ.Out .calendar] [κ.Out .pages] [κ.Out .tributaries] [κ.Out .bonding] [κ.Out .slots] [κ.Out .keys]
    [κ.Out .housekeeping] [κ.Out .pair] [κ.Out .integrity] [κ.Out .captures] {s₀ s : State} {i : Nat} {code : Int}
    (h : Kept κ s₀ s) :
    Kept κ s₀ (State.sensorSample s i code) := by
  unfold State.sensorSample
  extract_lets x1 x2 x3 x4 x5 x6 x7 x8
  have k4 : Kept κ s₀ x4 := by
    unfold x4
    repeat' first
      | intro _ | with_reducible apply kept_set | with_reducible apply kept_when
      | with_reducible apply kept_markTick | with_reducible apply kept_sensorValue
      | with_reducible apply kept_setBit | with_reducible apply kept_raiseClear
      | with_reducible apply kept_refreshHottest | with_reducible apply kept_bandCheck
      | with_reducible apply kept_haven | with_reducible apply kept_shutdownCheck | with_reducible apply kept_ite
      | split | dsimp only | with_reducible assumption | refine kept_fst (by assumption) ?_
      | refine kept_snd (by assumption) ?_ | exact rfl | assumption | exact (Fact.out : κ .thermal = false)
  clear_value x4
  have k5 : Kept κ s₀ x5 := by
    unfold x5
    repeat' first
      | intro _ | with_reducible apply kept_set | with_reducible apply kept_when
      | with_reducible apply kept_markTick | with_reducible apply kept_sensorValue
      | with_reducible apply kept_setBit | with_reducible apply kept_raiseClear
      | with_reducible apply kept_refreshHottest | with_reducible apply kept_bandCheck
      | with_reducible apply kept_haven | with_reducible apply kept_shutdownCheck | with_reducible apply kept_ite
      | split | dsimp only | with_reducible assumption | refine kept_fst (by assumption) ?_
      | refine kept_snd (by assumption) ?_ | exact rfl | assumption | exact (Fact.out : κ .thermal = false)
  clear_value x5
  have k6 : Kept κ s₀ x6 := by
    unfold x6
    repeat' first
      | intro _ | with_reducible apply kept_set | with_reducible apply kept_when
      | with_reducible apply kept_markTick | with_reducible apply kept_sensorValue
      | with_reducible apply kept_setBit | with_reducible apply kept_raiseClear
      | with_reducible apply kept_refreshHottest | with_reducible apply kept_bandCheck
      | with_reducible apply kept_haven | with_reducible apply kept_shutdownCheck | with_reducible apply kept_ite
      | split | dsimp only | with_reducible assumption | refine kept_fst (by assumption) ?_
      | refine kept_snd (by assumption) ?_ | exact rfl | assumption | exact (Fact.out : κ .thermal = false)
  clear_value x6
  have k7 : Kept κ s₀ x7 := by
    unfold x7
    repeat' first
      | intro _ | with_reducible apply kept_set | with_reducible apply kept_when
      | with_reducible apply kept_markTick | with_reducible apply kept_sensorValue
      | with_reducible apply kept_setBit | with_reducible apply kept_raiseClear
      | with_reducible apply kept_refreshHottest | with_reducible apply kept_bandCheck
      | with_reducible apply kept_haven | with_reducible apply kept_shutdownCheck | with_reducible apply kept_ite
      | split | dsimp only | with_reducible assumption | refine kept_fst (by assumption) ?_
      | refine kept_snd (by assumption) ?_ | exact rfl | assumption | exact (Fact.out : κ .thermal = false)
  clear_value x7
  have k8 : Kept κ s₀ x8 := by
    unfold x8
    repeat' first
      | intro _ | with_reducible apply kept_set | with_reducible apply kept_when
      | with_reducible apply kept_markTick | with_reducible apply kept_sensorValue
      | with_reducible apply kept_setBit | with_reducible apply kept_raiseClear
      | with_reducible apply kept_refreshHottest | with_reducible apply kept_bandCheck
      | with_reducible apply kept_haven | with_reducible apply kept_shutdownCheck | with_reducible apply kept_ite
      | split | dsimp only | with_reducible assumption | refine kept_fst (by assumption) ?_
      | refine kept_snd (by assumption) ?_ | exact rfl | assumption | exact (Fact.out : κ .thermal = false)
  clear_value x8
  repeat' first
    | intro _ | with_reducible apply kept_set | with_reducible apply kept_when | with_reducible apply kept_markTick
    | with_reducible apply kept_sensorValue | with_reducible apply kept_setBit
    | with_reducible apply kept_raiseClear | with_reducible apply kept_refreshHottest
    | with_reducible apply kept_bandCheck | with_reducible apply kept_haven
    | with_reducible apply kept_shutdownCheck | with_reducible apply kept_ite | split | dsimp only
    | with_reducible assumption | refine kept_fst (by assumption) ?_ | refine kept_snd (by assumption) ?_
    | exact rfl | assumption | exact (Fact.out : κ .thermal = false)

theorem kept_execSensorSample [κ.Out .events] [κ.Out .mode] [κ.Out .guard] [κ.Out .thermal] [κ.Out .carriers]
    [κ.Out .slack] [κ.Out .txLine] [κ.Out .rxLine] [κ.Out .clocks] [κ.Out .converters] [κ.Out .calibration]
    [κ.Out .banks] [κ.Out .dispersion] [κ.Out .frontEnd] [κ.Out .equaliser] [κ.Out .monitors] [κ.Out .neighbours]
    [κ.Out .recovery] [κ.Out .catching] [κ.Out .defects] [κ.Out .overhead] [κ.Out .lanes] [κ.Out .ports]
    [κ.Out .flows] [κ.Out .calendar] [κ.Out .pages] [κ.Out .tributaries] [κ.Out .bonding] [κ.Out .slots] [κ.Out .keys]
    [κ.Out .housekeeping] [κ.Out .pair] [κ.Out .integrity] [κ.Out .captures]
    {s₀ : State} {i : Fin 40} {code : Int} {s : State} (h : Kept κ s₀ s) :
    KeptO κ s₀ (execSensorSample i code s) := by
  unfold execSensorSample
  repeat' first
    | intro _ | with_reducible apply kept_next | with_reducible apply kept_live
    | with_reducible apply kept_sensorSample | with_reducible apply kept_ite | split | dsimp only
    | with_reducible assumption | refine kept_fst (by assumption) ?_ | refine kept_snd (by assumption) ?_
    | exact rfl | assumption

theorem kept_writeReadmit [κ.Out .thermal] {s₀ s : State} {i : Nat} (h : Kept κ s₀ s) :
    Kept κ s₀ (writeReadmit i s).1 := by
  unfold writeReadmit
  repeat' first
    | intro _ | with_reducible apply kept_set | with_reducible apply kept_markTick | with_reducible apply kept_ite
    | with_reducible apply kept_ite_fst | split | dsimp only | with_reducible assumption
    | refine kept_fst (by assumption) ?_ | refine kept_snd (by assumption) ?_ | exact rfl | assumption
    | exact (Fact.out : κ .thermal = false)

theorem kept_execSensorReadmit [κ.Out .events] [κ.Out .management] [κ.Out .thermal] [κ.Out .housekeeping]
    [κ.Out .captures] {s₀ : State} {cl : Client} {i : Fin 40} {s : State} (h : Kept κ s₀ s) :
    KeptO κ s₀ (execSensorReadmit cl i s) := by
  unfold execSensorReadmit
  repeat' first
    | intro _ | with_reducible apply kept_next | with_reducible refine kept_serveWrite ?_ ?_ (by first | exact .inl (by decide) | exact .inr Fact.out)
    | with_reducible apply kept_writeReadmit | with_reducible apply kept_ite | split | dsimp only
    | with_reducible assumption | refine kept_fst (by assumption) ?_ | refine kept_snd (by assumption) ?_
    | exact rfl | assumption

theorem kept_execSensorReadmitComplete [κ.Out .events] [κ.Out .thermal] [κ.Out .housekeeping] [κ.Out .captures]
    {s₀ s : State} {i : Fin 40} (h : Kept κ s₀ s) :
    KeptO κ s₀ (execSensorReadmitComplete i s) := by
  unfold execSensorReadmitComplete
  repeat' first
    | intro _ | with_reducible apply kept_live | with_reducible apply kept_set | with_reducible apply kept_setBit
    | with_reducible apply kept_sensorValue | with_reducible apply kept_refreshHottest
    | with_reducible apply kept_raiseClear | with_reducible apply kept_ite | split | dsimp only
    | with_reducible assumption | refine kept_fst (by assumption) ?_ | refine kept_snd (by assumption) ?_
    | exact rfl | assumption | exact (Fact.out : κ .thermal = false)

theorem kept_execOrderlyShutdownComplete [κ.Out .events] [κ.Out .mode] [κ.Out .guard] [κ.Out .thermal]
    [κ.Out .carriers] [κ.Out .slack] [κ.Out .txLine] [κ.Out .rxLine] [κ.Out .clocks] [κ.Out .converters]
    [κ.Out .calibration] [κ.Out .banks] [κ.Out .dispersion] [κ.Out .frontEnd] [κ.Out .equaliser] [κ.Out .monitors]
    [κ.Out .neighbours] [κ.Out .recovery] [κ.Out .catching] [κ.Out .defects] [κ.Out .overhead] [κ.Out .lanes]
    [κ.Out .ports] [κ.Out .flows] [κ.Out .calendar] [κ.Out .pages] [κ.Out .tributaries] [κ.Out .bonding]
    [κ.Out .slots] [κ.Out .keys] [κ.Out .housekeeping] [κ.Out .pair] [κ.Out .integrity] [κ.Out .captures]
    {s₀ s : State} (h : Kept κ s₀ s) :
    KeptO κ s₀ (execOrderlyShutdownComplete s) := by
  unfold execOrderlyShutdownComplete
  repeat' first
    | intro _ | with_reducible apply kept_next | with_reducible apply kept_live
    | with_reducible apply kept_haven | with_reducible apply kept_ite | split | dsimp only
    | with_reducible assumption | refine kept_fst (by assumption) ?_ | refine kept_snd (by assumption) ?_
    | exact rfl | assumption

theorem kept_shedOne [κ.Out .events] [κ.Out .thermal] [κ.Out .carriers] [κ.Out .slack] [κ.Out .txLine] [κ.Out .rxLine]
    [κ.Out .clocks] [κ.Out .converters] [κ.Out .banks] [κ.Out .dispersion] [κ.Out .frontEnd] [κ.Out .equaliser]
    [κ.Out .monitors] [κ.Out .neighbours] [κ.Out .recovery] [κ.Out .catching] [κ.Out .defects] [κ.Out .overhead]
    [κ.Out .calendar] [κ.Out .pages] [κ.Out .tributaries] [κ.Out .bonding] [κ.Out .housekeeping] [κ.Out .captures]
    {s₀ s : State} (h : Kept κ s₀ s) :
    Kept κ s₀ (State.shedOne s) := by
  unfold State.shedOne
  repeat' first
    | intro _ | with_reducible apply kept_setBlob | with_reducible apply kept_setBit
    | with_reducible apply kept_raiseClear | with_reducible apply kept_set | with_reducible apply kept_calSettle
    | with_reducible apply kept_toIdle | with_reducible apply kept_ite | split | dsimp only
    | with_reducible assumption | refine kept_fst (by assumption) ?_ | refine kept_snd (by assumption) ?_
    | exact rfl | assumption | exact (Fact.out : κ .thermal = false)

theorem kept_unshed [κ.Out .events] [κ.Out .thermal] [κ.Out .housekeeping] [κ.Out .captures] {s₀ s : State}
    {c : Nat} (h : Kept κ s₀ s) :
    Kept κ s₀ (State.unshed s c) := by
  unfold State.unshed
  repeat' first
    | intro _ | with_reducible apply kept_setBlob | with_reducible apply kept_raiseClear
    | with_reducible apply kept_setBit | with_reducible apply kept_ite | split | dsimp only
    | with_reducible assumption | refine kept_fst (by assumption) ?_ | refine kept_snd (by assumption) ?_
    | exact rfl | assumption | exact (Fact.out : κ .thermal = false)

theorem kept_setStage [κ.Out .events] [κ.Out .thermal] [κ.Out .neighbours] [κ.Out .coding] [κ.Out .housekeeping]
    [κ.Out .captures] {s₀ s : State} {n : Nat} (h : Kept κ s₀ s) :
    Kept κ s₀ (State.setStage s n) := by
  unfold State.setStage
  extract_lets x1 x2
  have k1 : Kept κ s₀ x1 := by
    unfold x1
    repeat' first
      | intro _ | with_reducible apply kept_bump | with_reducible apply kept_set
      | with_reducible apply kept_setFlag | with_reducible apply kept_each | with_reducible apply kept_refreshCap
      | with_reducible apply kept_refreshNc | with_reducible apply kept_raise | with_reducible apply kept_ite
      | split | dsimp only | with_reducible assumption | refine kept_fst (by assumption) ?_
      | refine kept_snd (by assumption) ?_ | exact rfl | assumption | exact (Fact.out : κ .thermal = false)
  clear_value x1
  have k2 : Kept κ s₀ x2 := by
    unfold x2
    repeat' first
      | intro _ | with_reducible apply kept_bump | with_reducible apply kept_set
      | with_reducible apply kept_setFlag | with_reducible apply kept_each | with_reducible apply kept_refreshCap
      | with_reducible apply kept_refreshNc | with_reducible apply kept_raise | with_reducible apply kept_ite
      | split | dsimp only | with_reducible assumption | refine kept_fst (by assumption) ?_
      | refine kept_snd (by assumption) ?_ | exact rfl | assumption | exact (Fact.out : κ .thermal = false)
  clear_value x2
  repeat' first
    | intro _ | with_reducible apply kept_bump | with_reducible apply kept_set | with_reducible apply kept_setFlag
    | with_reducible apply kept_each | with_reducible apply kept_refreshCap | with_reducible apply kept_refreshNc
    | with_reducible apply kept_raise | with_reducible apply kept_ite | split | dsimp only
    | with_reducible assumption | refine kept_fst (by assumption) ?_ | refine kept_snd (by assumption) ?_
    | exact rfl | assumption | exact (Fact.out : κ .thermal = false)

theorem kept_escalate [κ.Out .events] [κ.Out .thermal] [κ.Out .carriers] [κ.Out .slack] [κ.Out .txLine]
    [κ.Out .rxLine] [κ.Out .clocks] [κ.Out .converters] [κ.Out .banks] [κ.Out .dispersion] [κ.Out .frontEnd]
    [κ.Out .equaliser] [κ.Out .monitors] [κ.Out .neighbours] [κ.Out .recovery] [κ.Out .catching] [κ.Out .coding]
    [κ.Out .defects] [κ.Out .overhead] [κ.Out .calendar] [κ.Out .pages] [κ.Out .tributaries] [κ.Out .bonding]
    [κ.Out .housekeeping] [κ.Out .captures]
    {s₀ s : State}
    {t tp interval : Int} {n : Nat} (h : Kept κ s₀ s) :
    Kept κ s₀ (State.escalate t tp interval n s) := by
  induction n generalizing s with
  | zero => exact h
  | succ n ih =>
    unfold State.escalate
    exact kept_ite (ih (kept_setStage h)) (kept_ite (ih (kept_setStage h)) (kept_ite (kept_shedOne (kept_setStage h))
      (kept_ite (kept_shedOne h) h)))

theorem kept_releaseStep [κ.Out .events] [κ.Out .thermal] [κ.Out .neighbours] [κ.Out .coding] [κ.Out .housekeeping]
    [κ.Out .captures]
    {s₀ s : State} (h : Kept κ s₀ s) :
    Kept κ s₀ (State.releaseStep s) := by
  unfold State.releaseStep
  repeat' first
    | intro _ | with_reducible apply kept_unshed | with_reducible apply kept_setStage
    | with_reducible apply kept_ite | split | dsimp only | with_reducible assumption
    | refine kept_fst (by assumption) ?_ | refine kept_snd (by assumption) ?_ | exact rfl | assumption

theorem kept_throttleMs [κ.Out .events] [κ.Out .thermal] [κ.Out .carriers] [κ.Out .slack] [κ.Out .txLine]
    [κ.Out .rxLine] [κ.Out .clocks] [κ.Out .converters] [κ.Out .banks] [κ.Out .dispersion] [κ.Out .frontEnd]
    [κ.Out .equaliser] [κ.Out .monitors] [κ.Out .neighbours] [κ.Out .recovery] [κ.Out .catching] [κ.Out .coding]
    [κ.Out .defects] [κ.Out .overhead] [κ.Out .calendar] [κ.Out .pages] [κ.Out .tributaries] [κ.Out .bonding]
    [κ.Out .housekeeping] [κ.Out .captures]
    {s₀ s : State}
    (h : Kept κ s₀ s) :
    Kept κ s₀ (State.throttleMs s) := by
  unfold State.throttleMs
  repeat' first
    | intro _ | with_reducible apply kept_each | with_reducible apply kept_refreshCap
    | with_reducible apply kept_set | with_reducible apply kept_escalate | with_reducible apply kept_releaseStep
    | with_reducible apply kept_ite | split | dsimp only | with_reducible assumption
    | refine kept_fst (by assumption) ?_ | refine kept_snd (by assumption) ?_ | exact rfl | assumption
    | exact (Fact.out : κ .thermal = false)

theorem kept_writeShed [κ.Out .events] [κ.Out .thermal] [κ.Out .housekeeping] [κ.Out .captures] {s₀ : State}
    {v : Int} {s : State} (h : Kept κ s₀ s) :
    Kept κ s₀ (writeShed v s).1 := by
  unfold writeShed
  repeat' first
    | intro _ | with_reducible apply kept_each | with_reducible apply kept_unshed
    | with_reducible apply kept_ite | with_reducible apply kept_ite_fst | split | dsimp only
    | with_reducible assumption | refine kept_fst (by assumption) ?_ | refine kept_snd (by assumption) ?_
    | exact rfl | assumption

theorem kept_execShedRestore [κ.Out .events] [κ.Out .management] [κ.Out .thermal] [κ.Out .housekeeping]
    [κ.Out .captures] {s₀ : State} {cl : Client} {mask : Fin 65536} {s : State} (h : Kept κ s₀ s) :
    KeptO κ s₀ (execShedRestore cl mask s) := by
  unfold execShedRestore
  repeat' first
    | intro _ | with_reducible apply kept_next | with_reducible refine kept_serveWrite ?_ ?_ (by first | exact .inl (by decide) | exact .inr Fact.out)
    | with_reducible apply kept_writeShed | with_reducible apply kept_ite | split | dsimp only
    | with_reducible assumption | refine kept_fst (by assumption) ?_ | refine kept_snd (by assumption) ?_
    | exact rfl | assumption

end Sys2Proof.Laws
end

