-- ==== Sys2Proof/Laws/Kept/Time.lean ====
section
/-! SUPPORT. Every operation of Machine/Time.lean keeps (Laws/Kept.lean). -/

set_option Elab.async false
set_option linter.unusedTactic false
set_option linter.unreachableTactic false
set_option linter.unusedVariables false

namespace Sys2Proof.Laws

open Sys2Proof.Machine

variable {κ : Scope}

theorem kept_setTb [κ.Out .time] {s₀ s : State} {t : Nat} {v : Nat} (h : Kept κ s₀ s) :
    Kept κ s₀ (State.setTb s t v) := by
  unfold State.setTb
  repeat' first
    | intro _ | with_reducible apply kept_set | with_reducible apply kept_ite | split | dsimp only
    | with_reducible assumption | refine kept_fst (by assumption) ?_ | refine kept_snd (by assumption) ?_
    | exact rfl | assumption | exact (Fact.out : κ .time = false)

theorem kept_stepChecked [κ.Out .events] [κ.Out .time] [κ.Out .housekeeping] [κ.Out .captures] {s₀ s : State}
    {t : Nat} {d : Int} {take : State → State} (h : Kept κ s₀ s) (htake : ∀ t, Kept κ s₀ t → Kept κ s₀ (take t)) :
    Kept κ s₀ (State.stepChecked s t d take).1 := by
  unfold State.stepChecked
  repeat' first
    | intro _ | with_reducible apply htake | with_reducible apply kept_raise | with_reducible apply kept_set
    | with_reducible apply kept_bump | with_reducible apply kept_ite | with_reducible apply kept_ite_fst | split
    | dsimp only | with_reducible assumption | refine kept_fst (by assumption) ?_
    | refine kept_snd (by assumption) ?_ | exact rfl | assumption | exact (Fact.out : κ .time = false)

theorem kept_writeTimeOffset [κ.Out .events] [κ.Out .time] [κ.Out .housekeeping] [κ.Out .captures] {s₀ : State}
    {t : Nat} {v : Int} {s : State} (h : Kept κ s₀ s) :
    Kept κ s₀ (writeTimeOffset t v s).1 := by
  unfold writeTimeOffset
  repeat' first
    | intro _ | with_reducible apply kept_stepChecked | with_reducible apply kept_set
    | with_reducible apply kept_ite | with_reducible apply kept_ite_fst | split | dsimp only
    | with_reducible assumption | refine kept_fst (by assumption) ?_ | refine kept_snd (by assumption) ?_
    | exact rfl | assumption | exact (Fact.out : κ .time = false)

theorem kept_execTimeStepOffset [κ.Out .events] [κ.Out .management] [κ.Out .time] [κ.Out .housekeeping]
    [κ.Out .captures] {s₀ : State} {cl : Client} {t : Fin 4} {v : Int} {s : State} (h : Kept κ s₀ s) :
    KeptO κ s₀ (execTimeStepOffset cl t v s) := by
  unfold execTimeStepOffset
  repeat' first
    | intro _ | with_reducible apply kept_next | with_reducible refine kept_serveWrite ?_ ?_ (by first | exact .inl (by decide) | exact .inr Fact.out)
    | with_reducible apply kept_writeTimeOffset | with_reducible apply kept_ite | split | dsimp only
    | with_reducible assumption | refine kept_fst (by assumption) ?_ | refine kept_snd (by assumption) ?_
    | exact rfl | assumption

theorem kept_writeTimeSet [κ.Out .events] [κ.Out .time] [κ.Out .housekeeping] [κ.Out .captures] {s₀ : State}
    {t : Nat} {b : List Byte} {s : State} (h : Kept κ s₀ s) :
    Kept κ s₀ (writeTimeSet t b s).1 := by
  unfold writeTimeSet
  repeat' first
    | intro _ | with_reducible apply kept_stepChecked | with_reducible apply kept_set
    | with_reducible apply kept_ite | with_reducible apply kept_ite_fst | split | dsimp only
    | with_reducible assumption | refine kept_fst (by assumption) ?_ | refine kept_snd (by assumption) ?_
    | exact rfl | assumption | exact (Fact.out : κ .time = false)

theorem kept_execTimeSetAbsolute [κ.Out .events] [κ.Out .management] [κ.Out .time] [κ.Out .housekeeping]
    [κ.Out .captures] {s₀ : State} {cl : Client} {t : Fin 4} {b : List Byte} {s : State} (h : Kept κ s₀ s) :
    KeptO κ s₀ (execTimeSetAbsolute cl t b s) := by
  unfold execTimeSetAbsolute
  repeat' first
    | intro _ | with_reducible apply kept_next | with_reducible refine kept_serveWrite ?_ ?_ (by first | exact .inl (by decide) | exact .inr Fact.out)
    | with_reducible apply kept_writeTimeSet | with_reducible apply kept_ite | split | dsimp only
    | with_reducible assumption | refine kept_fst (by assumption) ?_ | refine kept_snd (by assumption) ?_
    | exact rfl | assumption

theorem kept_ppsRise [κ.Out .timing] {s₀ s : State} {j : Nat} {before : Nat → Nat} {after : Nat → Nat}
    (h : Kept κ s₀ s) :
    Kept κ s₀ (State.ppsRise s j before after) := by
  unfold State.ppsRise
  repeat' first
    | intro _ | with_reducible apply kept_set | with_reducible apply kept_ite | split | dsimp only
    | with_reducible assumption | refine kept_fst (by assumption) ?_ | refine kept_snd (by assumption) ?_
    | exact rfl | assumption | exact (Fact.out : κ .timing = false)

theorem kept_ppsFall [κ.Out .timing] {s₀ s : State} {j : Nat} (h : Kept κ s₀ s) :
    Kept κ s₀ (State.ppsFall s j) := by
  unfold State.ppsFall
  repeat' first
    | intro _ | with_reducible apply kept_set | with_reducible apply kept_ite | split | dsimp only
    | with_reducible assumption | refine kept_fst (by assumption) ?_ | refine kept_snd (by assumption) ?_
    | exact rfl | assumption | exact (Fact.out : κ .timing = false)

theorem kept_execPpsOutFall [κ.Out .timing] {s₀ : State} {j : Fin 4} {s : State} (h : Kept κ s₀ s) :
    KeptO κ s₀ (execPpsOutFall j s) := by
  unfold execPpsOutFall
  repeat' first
    | intro _ | with_reducible apply kept_next | with_reducible apply kept_live
    | with_reducible apply kept_ppsFall | with_reducible apply kept_ite | split | dsimp only
    | with_reducible assumption | refine kept_fst (by assumption) ?_ | refine kept_snd (by assumption) ?_
    | exact rfl | assumption

theorem kept_clipMs [κ.Out .events] [κ.Out .banks] [κ.Out .housekeeping] [κ.Out .captures] {s₀ s : State}
    (h : Kept κ s₀ s) :
    Kept κ s₀ (State.clipMs s) := by
  unfold State.clipMs
  repeat' first
    | intro _ | with_reducible apply kept_each | with_reducible apply kept_set | with_reducible apply kept_raise
    | with_reducible apply kept_ite | split | dsimp only | with_reducible assumption
    | refine kept_fst (by assumption) ?_ | refine kept_snd (by assumption) ?_ | exact rfl | assumption
    | exact (Fact.out : κ .banks = false)

theorem kept_alignedMs [κ.Out .memory] [κ.Out .events] [κ.Out .guard] [κ.Out .thermal] [κ.Out .carriers]
    [κ.Out .slack] [κ.Out .txLine] [κ.Out .rxLine] [κ.Out .clocks] [κ.Out .converters] [κ.Out .banks]
    [κ.Out .dispersion] [κ.Out .frontEnd] [κ.Out .equaliser] [κ.Out .monitors] [κ.Out .neighbours] [κ.Out .recovery]
    [κ.Out .catching] [κ.Out .coding] [κ.Out .defects] [κ.Out .overhead] [κ.Out .calendar] [κ.Out .pages]
    [κ.Out .tributaries] [κ.Out .bonding] [κ.Out .housekeeping] [κ.Out .mover] [κ.Out .captures]
    {s₀ s : State} (h : Kept κ s₀ s) :
    Kept κ s₀ (State.alignedMs s) := by
  unfold State.alignedMs
  repeat' first
    | intro _ | with_reducible apply kept_hkMs | with_reducible apply kept_throttleMs
    | with_reducible apply kept_limitMs | with_reducible apply kept_clipMs
    | with_reducible apply kept_telemetryMs | with_reducible apply kept_ite | split | dsimp only
    | with_reducible assumption | refine kept_fst (by assumption) ?_ | refine kept_snd (by assumption) ?_
    | exact rfl | assumption

theorem kept_alignedSecond [κ.Out .events] [κ.Out .coding] [κ.Out .defects] [κ.Out .housekeeping] [κ.Out .snapshots]
    [κ.Out .captures] {s₀ s : State} {quarter : Bool} (h : Kept κ s₀ s) :
    Kept κ s₀ (State.alignedSecond s quarter) := by
  unfold State.alignedSecond
  repeat' first
    | intro _ | with_reducible apply kept_each | with_reducible apply kept_degSecond
    | with_reducible apply kept_codingSecond | with_reducible apply kept_snapshot
    | with_reducible apply kept_ite | split | dsimp only | with_reducible assumption
    | refine kept_fst (by assumption) ?_ | refine kept_snd (by assumption) ?_ | exact rfl | assumption

theorem kept_stepApply [κ.Out .time] {s₀ s : State} {t : Nat} (h : Kept κ s₀ s) :
    Kept κ s₀ (State.stepApply s t) := by
  unfold State.stepApply
  repeat' first
    | intro _ | with_reducible apply kept_set | with_reducible apply kept_setTb | with_reducible apply kept_ite
    | split | dsimp only | with_reducible assumption | refine kept_fst (by assumption) ?_
    | refine kept_snd (by assumption) ?_ | exact rfl | assumption | exact (Fact.out : κ .time = false)

theorem kept_tick [κ.Out .memory] [κ.Out .events] [κ.Out .guard] [κ.Out .thermal] [κ.Out .carriers] [κ.Out .slack]
    [κ.Out .txLine] [κ.Out .rxLine] [κ.Out .clocks] [κ.Out .converters] [κ.Out .banks] [κ.Out .dispersion]
    [κ.Out .frontEnd] [κ.Out .equaliser] [κ.Out .monitors] [κ.Out .neighbours] [κ.Out .recovery] [κ.Out .catching]
    [κ.Out .coding] [κ.Out .defects] [κ.Out .overhead] [κ.Out .calendar] [κ.Out .pages] [κ.Out .tributaries]
    [κ.Out .bonding] [κ.Out .time] [κ.Out .timing] [κ.Out .housekeeping] [κ.Out .snapshots] [κ.Out .mover]
    [κ.Out .captures]
    {s₀ s : State} (h : Kept κ s₀ s) :
    Kept κ s₀ (State.tick s) := by
  unfold State.tick
  extract_lets x1 x2 x3 x4 x5 x6 x7 x8
  have k2 : Kept κ s₀ x2 := by
    unfold x2
    repeat' first
      | intro _ | with_reducible apply kept_set | with_reducible apply kept_each
      | with_reducible apply kept_setTb | with_reducible apply kept_ppsRise
      | with_reducible apply kept_alignedMs | with_reducible apply kept_alignedSecond
      | with_reducible apply kept_stepApply | with_reducible apply kept_ite | split | dsimp only
      | with_reducible assumption | refine kept_fst (by assumption) ?_ | refine kept_snd (by assumption) ?_
      | exact rfl | assumption | exact (Fact.out : κ .time = false)
  clear_value x2
  have k3 : Kept κ s₀ x3 := by
    unfold x3
    repeat' first
      | intro _ | with_reducible apply kept_set | with_reducible apply kept_each
      | with_reducible apply kept_setTb | with_reducible apply kept_ppsRise
      | with_reducible apply kept_alignedMs | with_reducible apply kept_alignedSecond
      | with_reducible apply kept_stepApply | with_reducible apply kept_ite | split | dsimp only
      | with_reducible assumption | refine kept_fst (by assumption) ?_ | refine kept_snd (by assumption) ?_
      | exact rfl | assumption | exact (Fact.out : κ .time = false)
  clear_value x3
  have k5 : Kept κ s₀ x5 := by
    unfold x5
    repeat' first
      | intro _ | with_reducible apply kept_set | with_reducible apply kept_each
      | with_reducible apply kept_setTb | with_reducible apply kept_ppsRise
      | with_reducible apply kept_alignedMs | with_reducible apply kept_alignedSecond
      | with_reducible apply kept_stepApply | with_reducible apply kept_ite | split | dsimp only
      | with_reducible assumption | refine kept_fst (by assumption) ?_ | refine kept_snd (by assumption) ?_
      | exact rfl | assumption | exact (Fact.out : κ .time = false)
  clear_value x5
  have k7 : Kept κ s₀ x7 := by
    unfold x7
    repeat' first
      | intro _ | with_reducible apply kept_set | with_reducible apply kept_each
      | with_reducible apply kept_setTb | with_reducible apply kept_ppsRise
      | with_reducible apply kept_alignedMs | with_reducible apply kept_alignedSecond
      | with_reducible apply kept_stepApply | with_reducible apply kept_ite | split | dsimp only
      | with_reducible assumption | refine kept_fst (by assumption) ?_ | refine kept_snd (by assumption) ?_
      | exact rfl | assumption | exact (Fact.out : κ .time = false)
  clear_value x7
  have k8 : Kept κ s₀ x8 := by
    unfold x8
    repeat' first
      | intro _ | with_reducible apply kept_set | with_reducible apply kept_each
      | with_reducible apply kept_setTb | with_reducible apply kept_ppsRise
      | with_reducible apply kept_alignedMs | with_reducible apply kept_alignedSecond
      | with_reducible apply kept_stepApply | with_reducible apply kept_ite | split | dsimp only
      | with_reducible assumption | refine kept_fst (by assumption) ?_ | refine kept_snd (by assumption) ?_
      | exact rfl | assumption | exact (Fact.out : κ .time = false)
  clear_value x8
  repeat' first
    | intro _ | with_reducible apply kept_set | with_reducible apply kept_each | with_reducible apply kept_setTb
    | with_reducible apply kept_ppsRise | with_reducible apply kept_alignedMs
    | with_reducible apply kept_alignedSecond | with_reducible apply kept_stepApply
    | with_reducible apply kept_ite | split | dsimp only | with_reducible assumption
    | refine kept_fst (by assumption) ?_ | refine kept_snd (by assumption) ?_ | exact rfl | assumption
    | exact (Fact.out : κ .time = false)

theorem kept_execTimeTick [κ.Out .memory] [κ.Out .events] [κ.Out .guard] [κ.Out .thermal] [κ.Out .carriers]
    [κ.Out .slack] [κ.Out .txLine] [κ.Out .rxLine] [κ.Out .clocks] [κ.Out .converters] [κ.Out .banks]
    [κ.Out .dispersion] [κ.Out .frontEnd] [κ.Out .equaliser] [κ.Out .monitors] [κ.Out .neighbours] [κ.Out .recovery]
    [κ.Out .catching] [κ.Out .coding] [κ.Out .defects] [κ.Out .overhead] [κ.Out .calendar] [κ.Out .pages]
    [κ.Out .tributaries] [κ.Out .bonding] [κ.Out .time] [κ.Out .timing] [κ.Out .housekeeping] [κ.Out .snapshots]
    [κ.Out .mover] [κ.Out .captures]
    {s₀ s : State}
    (h : Kept κ s₀ s) :
    KeptO κ s₀ (execTimeTick s) := by
  unfold execTimeTick
  repeat' first
    | intro _ | with_reducible apply kept_next | with_reducible apply kept_live | with_reducible apply kept_tick
    | with_reducible apply kept_ite | split | dsimp only | with_reducible assumption
    | refine kept_fst (by assumption) ?_ | refine kept_snd (by assumption) ?_ | exact rfl | assumption

theorem kept_timingSource [κ.Out .events] [κ.Out .timing] [κ.Out .housekeeping] [κ.Out .captures] {s₀ s : State}
    {v : Int} (h : Kept κ s₀ s) :
    Kept κ s₀ (State.timingSource s v) := by
  unfold State.timingSource
  repeat' first
    | intro _ | with_reducible apply kept_raise | with_reducible apply kept_set | with_reducible apply kept_ite
    | split | dsimp only | with_reducible assumption | refine kept_fst (by assumption) ?_
    | refine kept_snd (by assumption) ?_ | exact rfl | assumption | exact (Fact.out : κ .timing = false)

theorem kept_trefOut [κ.Out .events] [κ.Out .timing] [κ.Out .housekeeping] [κ.Out .captures] {s₀ s : State}
    {offset : Option Int} (h : Kept κ s₀ s) :
    Kept κ s₀ (State.trefOut s offset) := by
  unfold State.trefOut
  repeat' first
    | intro _ | with_reducible apply kept_set | with_reducible apply kept_timingSource
    | with_reducible apply kept_ite | split | dsimp only | with_reducible assumption
    | refine kept_fst (by assumption) ?_ | refine kept_snd (by assumption) ?_ | exact rfl | assumption
    | exact (Fact.out : κ .timing = false)

theorem kept_execTrefOutOfTolerance [κ.Out .events] [κ.Out .timing] [κ.Out .housekeeping] [κ.Out .captures]
    {s₀ : State} {offset : Option Int} {s : State} (h : Kept κ s₀ s) :
    KeptO κ s₀ (execTrefOutOfTolerance offset s) := by
  unfold execTrefOutOfTolerance
  repeat' first
    | intro _ | with_reducible apply kept_next | with_reducible apply kept_live
    | with_reducible apply kept_trefOut | with_reducible apply kept_ite | split | dsimp only
    | with_reducible assumption | refine kept_fst (by assumption) ?_ | refine kept_snd (by assumption) ?_
    | exact rfl | assumption

theorem kept_trefReturn [κ.Out .events] [κ.Out .timing] [κ.Out .housekeeping] [κ.Out .captures] {s₀ s : State}
    {offset : Int} (h : Kept κ s₀ s) :
    Kept κ s₀ (State.trefReturn s offset) := by
  unfold State.trefReturn
  repeat' first
    | intro _ | with_reducible apply kept_set | with_reducible apply kept_timingSource
    | with_reducible apply kept_ite | split | dsimp only | with_reducible assumption
    | refine kept_fst (by assumption) ?_ | refine kept_snd (by assumption) ?_ | exact rfl | assumption
    | exact (Fact.out : κ .timing = false)

theorem kept_execTrefReturn [κ.Out .events] [κ.Out .timing] [κ.Out .housekeeping] [κ.Out .captures] {s₀ : State}
    {offset : Int} {s : State} (h : Kept κ s₀ s) :
    KeptO κ s₀ (execTrefReturn offset s) := by
  unfold execTrefReturn
  repeat' first
    | intro _ | with_reducible apply kept_next | with_reducible apply kept_live
    | with_reducible apply kept_trefReturn | with_reducible apply kept_ite | split | dsimp only
    | with_reducible assumption | refine kept_fst (by assumption) ?_ | refine kept_snd (by assumption) ?_
    | exact rfl | assumption

theorem kept_writeTimingMode [κ.Out .events] [κ.Out .timing] [κ.Out .housekeeping] [κ.Out .captures] {s₀ : State}
    {v : Int} {s : State} (h : Kept κ s₀ s) :
    Kept κ s₀ (writeTimingMode v s).1 := by
  unfold writeTimingMode
  repeat' first
    | intro _ | with_reducible apply kept_set | with_reducible apply kept_timingSource
    | with_reducible apply kept_ite | with_reducible apply kept_ite_fst | split | dsimp only
    | with_reducible assumption | refine kept_fst (by assumption) ?_ | refine kept_snd (by assumption) ?_
    | exact rfl | assumption | exact (Fact.out : κ .timing = false)

theorem kept_tsqDrop [κ.Out .ptp] {s₀ s : State} (h : Kept κ s₀ s) : Kept κ s₀ s.tsqDrop :=
  kept_tsQueue (fun k => by rw [List.length_drop]; omega) h

theorem kept_execTsQueuePop [κ.Out .events] [κ.Out .management] [κ.Out .ptp] [κ.Out .housekeeping] [κ.Out .captures]
    {s₀ : State} {cl : Client} {s : State} (h : Kept κ s₀ s) :
    KeptO κ s₀ (execTsQueuePop cl s) := by
  unfold execTsQueuePop
  repeat' first
    | intro _ | with_reducible apply kept_next | with_reducible apply kept_serveRead
    | with_reducible apply kept_tsqDrop | with_reducible apply kept_ite | split | dsimp only
    | with_reducible assumption | refine kept_fst (by assumption) ?_ | refine kept_snd (by assumption) ?_
    | exact rfl | assumption

theorem kept_execHkResultRead [κ.Out .events] [κ.Out .management] [κ.Out .housekeeping] [κ.Out .captures]
    {s₀ : State} {cl : Client} {r : Fin 66} {s : State} (h : Kept κ s₀ s) :
    KeptO κ s₀ (execHkResultRead cl r s) := by
  unfold execHkResultRead
  repeat' first
    | intro _ | with_reducible apply kept_next | with_reducible apply kept_serveRead
    | with_reducible apply kept_hkRead | with_reducible apply kept_ite | split | dsimp only
    | with_reducible assumption | refine kept_fst (by assumption) ?_ | refine kept_snd (by assumption) ?_
    | exact rfl | assumption | (split_ifs <;> exact (Fact.out : κ .housekeeping = false))
    | exact (Fact.out : κ .housekeeping = false)

end Sys2Proof.Laws
end

