-- ==== Sys2Proof/Laws/Kept/Dictionary.lean ====
section
/-! SUPPORT. Every operation of Machine/Dictionary.lean keeps (Laws/Kept.lean). -/

set_option Elab.async false
set_option linter.unusedTactic false
set_option linter.unreachableTactic false
set_option linter.unusedVariables false

namespace Sys2Proof.Laws

open Sys2Proof.Machine

variable {κ : Scope}

theorem kept_readEffect [κ.Out .ptp] [κ.Out .housekeeping] {s₀ s : State} {r : Reg} {u : Nat} (h : Kept κ s₀ s) :
    Kept κ s₀ (State.readEffect s r u) := by
  unfold State.readEffect
  repeat' first
    | intro _ | with_reducible apply kept_tsqDrop | with_reducible apply kept_hkRead
    | with_reducible apply kept_ite | split | dsimp only | with_reducible assumption
    | refine kept_fst (by assumption) ?_ | refine kept_snd (by assumption) ?_ | exact rfl | assumption
    | exact (Fact.out : κ .housekeeping = false)

theorem kept_dropLowered [κ.Out .management] {s₀ s t : State} (h : Kept κ s₀ s) : Kept κ s₀ (s.dropLowered t) := by
  unfold State.dropLowered
  dsimp only
  generalize s.transfers.filter _ = l
  have h2 : Kept κ s₀ { s with transfers := l } := kept_transfers h
  exact kept_staging (.inl (List.length_filter_le _ _)) h2

theorem kept_writeRegistration [κ.Out .management] [κ.Out .views] {s₀ : State} {n : Nat} {v : Int} {s : State}
    (h : Kept κ s₀ s) :
    Kept κ s₀ (writeRegistration n v s).1 := by
  unfold writeRegistration
  repeat' first
    | intro _ | with_reducible apply kept_set | with_reducible apply kept_dropLowered
    | with_reducible apply kept_ite | with_reducible apply kept_ite_fst | split | dsimp only
    | with_reducible assumption | refine kept_fst (by assumption) ?_ | refine kept_snd (by assumption) ?_
    | exact rfl | assumption | exact (Fact.out : κ .views = false)

theorem kept_writeRegistrationTable [κ.Out .management] [κ.Out .views] {s₀ : State} {b : List Byte} {s : State}
    (h : Kept κ s₀ s) :
    Kept κ s₀ (writeRegistrationTable b s).1 := by
  unfold writeRegistrationTable
  repeat' first
    | intro _ | with_reducible apply kept_dropLowered | with_reducible apply kept_each
    | with_reducible apply kept_set | with_reducible apply kept_ite | with_reducible apply kept_ite_fst | split
    | dsimp only | with_reducible assumption | refine kept_fst (by assumption) ?_
    | refine kept_snd (by assumption) ?_ | exact rfl | assumption | exact (Fact.out : κ .views = false)

theorem kept_writeClearBits [κ.Out .phase] [κ.Out .events] [κ.Out .management] [κ.Out .views] [κ.Out .identity]
    [κ.Out .settings] [κ.Out .mode] [κ.Out .boot] [κ.Out .rails] [κ.Out .guard] [κ.Out .thermal] [κ.Out .carriers]
    [κ.Out .slack] [κ.Out .txLine] [κ.Out .rxLine] [κ.Out .clocks] [κ.Out .converters] [κ.Out .calibration]
    [κ.Out .banks] [κ.Out .dispersion] [κ.Out .frontEnd] [κ.Out .equaliser] [κ.Out .monitors] [κ.Out .neighbours]
    [κ.Out .recovery] [κ.Out .catching] [κ.Out .coding] [κ.Out .defects] [κ.Out .overhead] [κ.Out .lanes]
    [κ.Out .patterns] [κ.Out .ports] [κ.Out .ptp] [κ.Out .classifier] [κ.Out .flows] [κ.Out .calendar] [κ.Out .pages]
    [κ.Out .tributaries] [κ.Out .bonding] [κ.Out .cores] [κ.Out .fuses] [κ.Out .slots] [κ.Out .keys] [κ.Out .bindings]
    [κ.Out .crypt] [κ.Out .time] [κ.Out .timing] [κ.Out .housekeeping] [κ.Out .snapshots] [κ.Out .inputs]
    [κ.Out .pair] [κ.Out .integrity] [κ.Out .custody] [κ.Out .mover] [κ.Out .captures]
    {s₀ : State} {r : Reg} {i : Nat} {v : Int} {s : State}
    (h : Kept κ s₀ s) :
    Kept κ s₀ (writeClearBits r i v s).1 := by
  unfold writeClearBits
  repeat' first
    | intro _ | with_reducible apply kept_set | with_reducible apply kept_ite
    | with_reducible apply kept_ite_fst | split | dsimp only | with_reducible assumption
    | refine kept_fst (by assumption) ?_ | refine kept_snd (by assumption) ?_ | exact rfl | assumption
    | exact leaves_none _

theorem kept_writeResetTo [κ.Out .phase] [κ.Out .events] [κ.Out .management] [κ.Out .views] [κ.Out .identity]
    [κ.Out .settings] [κ.Out .mode] [κ.Out .boot] [κ.Out .rails] [κ.Out .guard] [κ.Out .thermal] [κ.Out .carriers]
    [κ.Out .slack] [κ.Out .txLine] [κ.Out .rxLine] [κ.Out .clocks] [κ.Out .converters] [κ.Out .calibration]
    [κ.Out .banks] [κ.Out .dispersion] [κ.Out .frontEnd] [κ.Out .equaliser] [κ.Out .monitors] [κ.Out .neighbours]
    [κ.Out .recovery] [κ.Out .catching] [κ.Out .coding] [κ.Out .defects] [κ.Out .overhead] [κ.Out .lanes]
    [κ.Out .patterns] [κ.Out .ports] [κ.Out .ptp] [κ.Out .classifier] [κ.Out .flows] [κ.Out .calendar] [κ.Out .pages]
    [κ.Out .tributaries] [κ.Out .bonding] [κ.Out .cores] [κ.Out .fuses] [κ.Out .slots] [κ.Out .keys] [κ.Out .bindings]
    [κ.Out .crypt] [κ.Out .time] [κ.Out .timing] [κ.Out .housekeeping] [κ.Out .snapshots] [κ.Out .inputs]
    [κ.Out .pair] [κ.Out .integrity] [κ.Out .custody] [κ.Out .mover] [κ.Out .captures]
    {s₀ : State} {r : Reg} {i : Nat} {present : Int} {v : Int}
    {s : State} (h : Kept κ s₀ s) :
    Kept κ s₀ (writeResetTo r i present v s).1 := by
  unfold writeResetTo
  repeat' first
    | intro _ | with_reducible apply kept_set | with_reducible apply kept_ite
    | with_reducible apply kept_ite_fst | split | dsimp only | with_reducible assumption
    | refine kept_fst (by assumption) ?_ | refine kept_snd (by assumption) ?_ | exact rfl | assumption
    | exact leaves_none _

theorem kept_writeSlackMark [κ.Out .phase] [κ.Out .events] [κ.Out .management] [κ.Out .views] [κ.Out .identity]
    [κ.Out .settings] [κ.Out .mode] [κ.Out .boot] [κ.Out .rails] [κ.Out .guard] [κ.Out .thermal] [κ.Out .carriers]
    [κ.Out .slack] [κ.Out .txLine] [κ.Out .rxLine] [κ.Out .clocks] [κ.Out .converters] [κ.Out .calibration]
    [κ.Out .banks] [κ.Out .dispersion] [κ.Out .frontEnd] [κ.Out .equaliser] [κ.Out .monitors] [κ.Out .neighbours]
    [κ.Out .recovery] [κ.Out .catching] [κ.Out .coding] [κ.Out .defects] [κ.Out .overhead] [κ.Out .lanes]
    [κ.Out .patterns] [κ.Out .ports] [κ.Out .ptp] [κ.Out .classifier] [κ.Out .flows] [κ.Out .calendar] [κ.Out .pages]
    [κ.Out .tributaries] [κ.Out .bonding] [κ.Out .cores] [κ.Out .fuses] [κ.Out .slots] [κ.Out .keys] [κ.Out .bindings]
    [κ.Out .crypt] [κ.Out .time] [κ.Out .timing] [κ.Out .housekeeping] [κ.Out .snapshots] [κ.Out .inputs]
    [κ.Out .pair] [κ.Out .integrity] [κ.Out .custody] [κ.Out .mover] [κ.Out .captures]
    {s₀ : State} {r : Reg} {c : Nat} {v : Int} {s : State}
    (h : Kept κ s₀ s) :
    Kept κ s₀ (writeSlackMark r c v s).1 := by
  unfold writeSlackMark
  repeat' first
    | intro _ | with_reducible apply kept_resetSlackMark | with_reducible apply kept_ite
    | with_reducible apply kept_ite_fst | split | dsimp only | with_reducible assumption
    | refine kept_fst (by assumption) ?_ | refine kept_snd (by assumption) ?_ | exact rfl | assumption
    | exact leaves_none _

theorem kept_writeBindTable [κ.Out .bindings] {s₀ : State} {dir : Nat} {b : List Byte} {s : State} (h : Kept κ s₀ s) :
    Kept κ s₀ (writeBindTable dir b s).1 := by
  unfold writeBindTable
  repeat' first
    | intro _ | with_reducible apply kept_each | with_reducible apply kept_set | with_reducible apply kept_ite
    | with_reducible apply kept_ite_fst | split | dsimp only | with_reducible assumption
    | refine kept_fst (by assumption) ?_ | refine kept_snd (by assumption) ?_ | exact rfl | assumption
    | exact (Fact.out : κ .bindings = false)

theorem kept_writeMailbox [κ.Out .memory] {s₀ : State} {b : List Byte} {s : State} (h : Kept κ s₀ s) :
    Kept κ s₀ (writeMailbox b s).1 := by
  unfold writeMailbox
  repeat' first
    | intro _ | with_reducible apply kept_writeBytes | with_reducible apply kept_ite
    | with_reducible apply kept_ite_fst | split | dsimp only | with_reducible assumption
    | refine kept_fst (by assumption) ?_ | refine kept_snd (by assumption) ?_ | exact rfl | assumption

theorem kept_setPlca [κ.Out .events] [κ.Out .management] [κ.Out .housekeeping] [κ.Out .captures] {s₀ s : State}
    {port : Nat} {status : Nat} (h : Kept κ s₀ s) :
    Kept κ s₀ (State.setPlca s port status) := by
  unfold State.setPlca
  repeat' first
    | intro _ | with_reducible apply kept_set | with_reducible apply kept_raise | with_reducible apply kept_ite
    | split | dsimp only | with_reducible assumption | refine kept_fst (by assumption) ?_
    | refine kept_snd (by assumption) ?_ | exact rfl | assumption | exact (Fact.out : κ .management = false)

theorem kept_writePlca [κ.Out .events] [κ.Out .management] [κ.Out .housekeeping] [κ.Out .captures] {s₀ s : State}
    {r : Reg} {port : Nat} {v : Int} (h : Kept κ s₀ s)
    (hr : κ (Safety.part r) = false := by first | assumption | ((conv in Safety.part _ => whnf); exact Fact.out) | exact leaves_none _) :
    Kept κ s₀ (writePlca r port v s).1 := by
  unfold writePlca
  repeat' first
    | intro _ | with_reducible apply kept_set | with_reducible apply kept_setPlca | with_reducible apply kept_ite
    | with_reducible apply kept_ite_fst | split | dsimp only | with_reducible assumption
    | refine kept_fst (by assumption) ?_ | refine kept_snd (by assumption) ?_ | exact rfl | assumption

theorem kept_writeSelect [κ.Out .management] {s₀ : State} {cl : Client} {r : Reg} {i : Nat} {v : Int} {s : State}
    (h : Kept κ s₀ s) :
    Kept κ s₀ (writeSelect cl r i v s).1 := by
  unfold writeSelect
  repeat' first
    | intro _ | with_reducible apply kept_setSel | with_reducible apply kept_ite
    | with_reducible apply kept_ite_fst | split | dsimp only | with_reducible assumption
    | refine kept_fst (by assumption) ?_ | refine kept_snd (by assumption) ?_ | exact rfl | assumption

theorem kept_writeDevice [κ.Out .phase] [κ.Out .memory] [κ.Out .events] [κ.Out .management] [κ.Out .views]
    [κ.Out .identity] [κ.Out .settings] [κ.Out .mode] [κ.Out .boot] [κ.Out .rails] [κ.Out .guard] [κ.Out .thermal]
    [κ.Out .carriers] [κ.Out .slack] [κ.Out .txLine] [κ.Out .rxLine] [κ.Out .clocks] [κ.Out .converters]
    [κ.Out .calibration] [κ.Out .banks] [κ.Out .dispersion] [κ.Out .frontEnd] [κ.Out .equaliser] [κ.Out .monitors]
    [κ.Out .neighbours] [κ.Out .recovery] [κ.Out .catching] [κ.Out .coding] [κ.Out .defects] [κ.Out .overhead]
    [κ.Out .lanes] [κ.Out .patterns] [κ.Out .ports] [κ.Out .ptp] [κ.Out .classifier] [κ.Out .flows] [κ.Out .calendar]
    [κ.Out .pages] [κ.Out .tributaries] [κ.Out .bonding] [κ.Out .cores] [κ.Out .fuses] [κ.Out .slots] [κ.Out .keys]
    [κ.Out .bindings] [κ.Out .crypt] [κ.Out .time] [κ.Out .timing] [κ.Out .housekeeping] [κ.Out .snapshots]
    [κ.Out .inputs] [κ.Out .pair] [κ.Out .integrity] [κ.Out .custody] [κ.Out .mover] [κ.Out .captures] {s₀ s : State}
    {cl : Client} {r : Reg} {u : Nat} {v : WVal} (h : Kept κ s₀ s)
    (hr : κ (Safety.part r) = false := by first | assumption | ((conv in Safety.part _ => whnf); exact Fact.out) | exact leaves_none _) :
    Kept κ s₀ (writeDevice cl r u v s).1 := by
  unfold writeDevice
  repeat' first
    | intro _ | with_reducible apply kept_writePlca | with_reducible apply kept_writeRegistration
    | with_reducible apply kept_writeRegistrationTable | with_reducible apply kept_writeMailbox
    | with_reducible apply kept_writeTelemetry | with_reducible apply kept_writeRingPost
    | with_reducible apply kept_writeRingControl | with_reducible apply kept_writeWindow
    | with_reducible apply kept_writeWindowTable | with_reducible apply kept_writeCapture
    | with_reducible apply kept_writeEventEnable | with_reducible apply kept_writeClear
    | with_reducible apply kept_writeClearLatched | with_reducible apply kept_writeActiveHigh
    | with_reducible apply kept_writeClearWraps | with_reducible apply kept_writeTimeSet
    | with_reducible apply kept_writeTimeOffset | with_reducible apply kept_writeTimingMode
    | with_reducible apply kept_writeResetTo | with_reducible apply kept_writeGuardLimit
    | with_reducible apply kept_writeReadmit | with_reducible apply kept_writeShed
    | with_reducible apply kept_writeHkTrigger | with_reducible apply kept_writeHkSeqStart
    | with_reducible apply kept_writeHkInjected | with_reducible apply kept_writeHkInjStart
    | with_reducible apply kept_writeHkCal | with_reducible apply kept_writeHkSequence
    | with_reducible apply kept_writeHkAverage | with_reducible apply kept_writePairSwitch
    | with_reducible apply kept_storeReg | with_reducible apply kept_ite | with_reducible apply kept_ite_fst
    | split | dsimp only | with_reducible assumption | refine kept_fst (by assumption) ?_
    | refine kept_snd (by assumption) ?_ | exact rfl | assumption

theorem kept_writeHost [κ.Out .phase] [κ.Out .memory] [κ.Out .events] [κ.Out .management] [κ.Out .views]
    [κ.Out .identity] [κ.Out .settings] [κ.Out .mode] [κ.Out .boot] [κ.Out .rails] [κ.Out .guard] [κ.Out .thermal]
    [κ.Out .carriers] [κ.Out .slack] [κ.Out .txLine] [κ.Out .rxLine] [κ.Out .clocks] [κ.Out .converters]
    [κ.Out .calibration] [κ.Out .banks] [κ.Out .dispersion] [κ.Out .frontEnd] [κ.Out .equaliser] [κ.Out .monitors]
    [κ.Out .neighbours] [κ.Out .recovery] [κ.Out .catching] [κ.Out .coding] [κ.Out .defects] [κ.Out .overhead]
    [κ.Out .lanes] [κ.Out .patterns] [κ.Out .ports] [κ.Out .ptp] [κ.Out .classifier] [κ.Out .flows] [κ.Out .calendar]
    [κ.Out .pages] [κ.Out .tributaries] [κ.Out .bonding] [κ.Out .cores] [κ.Out .fuses] [κ.Out .slots] [κ.Out .keys]
    [κ.Out .bindings] [κ.Out .crypt] [κ.Out .time] [κ.Out .timing] [κ.Out .housekeeping] [κ.Out .snapshots]
    [κ.Out .inputs] [κ.Out .pair] [κ.Out .integrity] [κ.Out .custody] [κ.Out .mover] [κ.Out .captures]
    {s₀ : State} {cl : Client} {r : Reg} {u : Nat} {v : WVal}
    {s : State} (h : Kept κ s₀ s) :
    Kept κ s₀ (writeHost cl r u v s).1 := by
  unfold writeHost
  repeat' first
    | intro _ | with_reducible apply kept_writeLanePower | with_reducible apply kept_writePolarity
    | with_reducible apply kept_writeLosClear | with_reducible apply kept_writeCtle
    | with_reducible apply kept_writeTxTap | with_reducible apply kept_takeFree
    | with_reducible apply kept_writePairTest | with_reducible apply kept_writeOrderMode
    | with_reducible apply kept_writePortRate | with_reducible apply kept_writePortEnable
    | with_reducible apply kept_writePrbs | with_reducible apply kept_writeInject
    | with_reducible apply kept_writeLoopback | with_reducible apply kept_writeDevice
    | with_reducible apply kept_ite | with_reducible apply kept_ite_fst | split | dsimp only
    | with_reducible assumption | refine kept_fst (by assumption) ?_ | refine kept_snd (by assumption) ?_
    | exact rfl | assumption | exact leaves_none _

theorem kept_writeTraffic [κ.Out .phase] [κ.Out .memory] [κ.Out .events] [κ.Out .management] [κ.Out .views]
    [κ.Out .identity] [κ.Out .settings] [κ.Out .mode] [κ.Out .boot] [κ.Out .rails] [κ.Out .guard] [κ.Out .thermal]
    [κ.Out .carriers] [κ.Out .slack] [κ.Out .txLine] [κ.Out .rxLine] [κ.Out .clocks] [κ.Out .converters]
    [κ.Out .calibration] [κ.Out .banks] [κ.Out .dispersion] [κ.Out .frontEnd] [κ.Out .equaliser] [κ.Out .monitors]
    [κ.Out .neighbours] [κ.Out .recovery] [κ.Out .catching] [κ.Out .coding] [κ.Out .defects] [κ.Out .overhead]
    [κ.Out .lanes] [κ.Out .patterns] [κ.Out .ports] [κ.Out .ptp] [κ.Out .classifier] [κ.Out .flows] [κ.Out .calendar]
    [κ.Out .pages] [κ.Out .tributaries] [κ.Out .bonding] [κ.Out .cores] [κ.Out .fuses] [κ.Out .slots] [κ.Out .keys]
    [κ.Out .bindings] [κ.Out .crypt] [κ.Out .time] [κ.Out .timing] [κ.Out .housekeeping] [κ.Out .snapshots]
    [κ.Out .inputs] [κ.Out .pair] [κ.Out .integrity] [κ.Out .custody] [κ.Out .mover] [κ.Out .captures] {s₀ s : State}
    {cl : Client} {r : Reg} {u : Nat} {v : WVal} (h : Kept κ s₀ s)
    (hr : κ (Safety.part r) = false := by first | assumption | ((conv in Safety.part _ => whnf); exact Fact.out) | exact leaves_none _) :
    Kept κ s₀ (writeTraffic cl r u v s).1 := by
  unfold writeTraffic
  repeat' first
    | intro _ | with_reducible apply kept_writeFec | with_reducible apply kept_writeCap
    | with_reducible apply kept_writeStandbyRow | with_reducible apply kept_writeStandbyPage
    | with_reducible apply kept_writeFlip | with_reducible apply kept_writeClearBits
    | with_reducible apply kept_writeClsSetting | with_reducible apply kept_writeClsOp
    | with_reducible apply kept_writeClsLoad | with_reducible apply kept_writePortCls
    | with_reducible apply kept_writeFlow | with_reducible apply kept_writeResetTo
    | with_reducible apply kept_writeFlowTable | with_reducible apply kept_writePoolLevel
    | with_reducible apply kept_writeCalEntry | with_reducible apply kept_writeCalPage
    | with_reducible apply kept_writeCalFlip | with_reducible apply kept_writeSpan
    | with_reducible apply kept_writeTribRow | with_reducible apply kept_writeTribTable
    | with_reducible apply kept_writeMembers | with_reducible apply kept_writeRealign
    | with_reducible apply kept_writePolicy | with_reducible apply kept_writeKek
    | with_reducible apply kept_writeSlotLoad | with_reducible apply kept_writeSlotErase
    | with_reducible apply kept_writeBinding | with_reducible apply kept_writeBindTable
    | with_reducible apply kept_writeHost | with_reducible apply kept_ite | with_reducible apply kept_ite_fst
    | split | dsimp only | with_reducible assumption | refine kept_fst (by assumption) ?_
    | refine kept_snd (by assumption) ?_ | exact rfl | assumption | exact (Fact.out : κ .calendar = false)

theorem kept_writeLine [κ.Out .phase] [κ.Out .memory] [κ.Out .events] [κ.Out .subscribers] [κ.Out .management]
    [κ.Out .views] [κ.Out .identity] [κ.Out .settings] [κ.Out .mode] [κ.Out .boot] [κ.Out .rails] [κ.Out .guard]
    [κ.Out .thermal] [κ.Out .carriers] [κ.Out .slack] [κ.Out .txLine] [κ.Out .rxLine] [κ.Out .clocks]
    [κ.Out .converters] [κ.Out .calibration] [κ.Out .banks] [κ.Out .dispersion] [κ.Out .frontEnd] [κ.Out .equaliser]
    [κ.Out .monitors] [κ.Out .neighbours] [κ.Out .recovery] [κ.Out .catching] [κ.Out .coding] [κ.Out .defects]
    [κ.Out .overhead] [κ.Out .lanes] [κ.Out .patterns] [κ.Out .ports] [κ.Out .ptp] [κ.Out .classifier] [κ.Out .flows]
    [κ.Out .calendar] [κ.Out .pages] [κ.Out .tributaries] [κ.Out .bonding] [κ.Out .cores] [κ.Out .fuses]
    [κ.Out .slots] [κ.Out .keys] [κ.Out .bindings] [κ.Out .crypt] [κ.Out .time] [κ.Out .timing] [κ.Out .housekeeping]
    [κ.Out .snapshots] [κ.Out .inputs] [κ.Out .pair] [κ.Out .integrity] [κ.Out .custody] [κ.Out .mover]
    [κ.Out .captures] {s₀ s : State} {cl : Client} {r : Reg} {u : Nat} {v : WVal} (h : Kept κ s₀ s)
    (hr : κ (Safety.part r) = false := by first | assumption | ((conv in Safety.part _ => whnf); exact Fact.out) | exact leaves_none _) :
    Kept κ s₀ (writeLine cl r u v s).1 := by
  unfold writeLine
  repeat' first
    | intro _ | with_reducible apply kept_writeForerunner | with_reducible apply kept_writeSlackMark
    | with_reducible apply kept_writeModeRequest | with_reducible apply kept_writeReset
    | with_reducible apply kept_writeCarrierRequest | with_reducible apply kept_writeHostImage
    | with_reducible apply kept_writeHostLoad | with_reducible apply kept_writeConvPolicy
    | with_reducible apply kept_writeShortRetry | with_reducible apply kept_writeWiring
    | with_reducible apply kept_writeOpenTest | with_reducible apply kept_writeRecal
    | with_reducible apply kept_writeBgEnable | with_reducible apply kept_writeStandby
    | with_reducible apply kept_writeCommit | with_reducible apply kept_writeShapeMode
    | with_reducible apply kept_writeRolloff | with_reducible apply kept_writeTxCdMode
    | with_reducible apply kept_writeTxCdTarget | with_reducible apply kept_writeTxCdFrequency
    | with_reducible apply kept_writeCdMode | with_reducible apply kept_writeCdTarget
    | with_reducible apply kept_writeCdFrequency | with_reducible apply kept_writeRxSkew
    | with_reducible apply kept_writeFrontEnd | with_reducible apply kept_writeMonitor
    | with_reducible apply kept_writeNc | with_reducible apply kept_writeNcPark
    | with_reducible apply kept_writeCandidate | with_reducible apply kept_writeConfirm
    | with_reducible apply kept_writeTraffic | with_reducible apply kept_ite | with_reducible apply kept_ite_fst
    | split | dsimp only | with_reducible assumption | refine kept_fst (by assumption) ?_
    | refine kept_snd (by assumption) ?_ | exact rfl | assumption | exact leaves_none _

theorem kept_applyWrite [κ.Out .phase] [κ.Out .memory] [κ.Out .events] [κ.Out .subscribers] [κ.Out .management]
    [κ.Out .views] [κ.Out .identity] [κ.Out .settings] [κ.Out .mode] [κ.Out .boot] [κ.Out .rails] [κ.Out .guard]
    [κ.Out .thermal] [κ.Out .carriers] [κ.Out .slack] [κ.Out .txLine] [κ.Out .rxLine] [κ.Out .clocks]
    [κ.Out .converters] [κ.Out .calibration] [κ.Out .banks] [κ.Out .dispersion] [κ.Out .frontEnd] [κ.Out .equaliser]
    [κ.Out .monitors] [κ.Out .neighbours] [κ.Out .recovery] [κ.Out .catching] [κ.Out .coding] [κ.Out .defects]
    [κ.Out .overhead] [κ.Out .lanes] [κ.Out .patterns] [κ.Out .ports] [κ.Out .ptp] [κ.Out .classifier] [κ.Out .flows]
    [κ.Out .calendar] [κ.Out .pages] [κ.Out .tributaries] [κ.Out .bonding] [κ.Out .cores] [κ.Out .fuses]
    [κ.Out .slots] [κ.Out .keys] [κ.Out .bindings] [κ.Out .crypt] [κ.Out .time] [κ.Out .timing] [κ.Out .housekeeping]
    [κ.Out .snapshots] [κ.Out .inputs] [κ.Out .pair] [κ.Out .integrity] [κ.Out .custody] [κ.Out .mover]
    [κ.Out .captures]
    {s₀ : State}
    {cl : Client} {r : Reg} {u : Nat} {v : WVal} {s : State} (h : Kept κ s₀ s) :
    Kept κ s₀ (applyWrite cl r u v s).1 := by
  unfold applyWrite
  repeat' first
    | intro _ | with_reducible apply kept_writeSelect | with_reducible apply kept_writeLine
    | with_reducible apply kept_ite | with_reducible apply kept_ite_fst | split | dsimp only
    | with_reducible assumption | refine kept_fst (by assumption) ?_ | refine kept_snd (by assumption) ?_
    | exact rfl | assumption | exact leaves_none _

end Sys2Proof.Laws
end

