-- ==== Sys2Proof/Laws/Kept/Bdap.lean ====
section
/-! SUPPORT. Every operation of Machine/Bdap.lean keeps (Laws/Kept.lean). -/

set_option Elab.async false
set_option linter.unusedTactic false
set_option linter.unreachableTactic false
set_option linter.unusedVariables false

namespace Sys2Proof.Laws

open Sys2Proof.Machine

variable {κ : Scope}

theorem kept_serveObject [κ.Out .events] [κ.Out .management] [κ.Out .housekeeping] [κ.Out .captures] {s₀ s : State}
    {cl : Client} {ix : Nat} {sub : Nat} {act : State → Reg → Nat → State × Answer} (h : Kept κ s₀ s)
    (hact : ∀ t r i, Kept κ s₀ t → Kept κ s₀ (act t r i).1) :
    Kept κ s₀ (State.serveObject s cl ix sub act) := by
  unfold State.serveObject
  repeat' first
    | intro _ | with_reducible apply hact | with_reducible apply kept_serve | with_reducible apply kept_ite
    | with_reducible apply kept_ite_fst | split | dsimp only | with_reducible assumption
    | refine kept_fst (by assumption) ?_ | refine kept_snd (by assumption) ?_ | exact rfl | assumption

theorem kept_execBdapRead [κ.Out .events] [κ.Out .management] [κ.Out .ptp] [κ.Out .housekeeping] [κ.Out .captures]
    {s₀ : State} {cl : Client} {ix : Fin 65536} {sub : Fin 256} {s : State} (h : Kept κ s₀ s) :
    KeptO κ s₀ (execBdapRead cl ix sub s) := by
  unfold execBdapRead
  repeat' first
    | intro _ | with_reducible apply kept_next | with_reducible apply kept_serveObject
    | with_reducible apply kept_readEffect | with_reducible apply kept_ite | with_reducible apply kept_ite_fst
    | split | dsimp only | with_reducible assumption | refine kept_fst (by assumption) ?_
    | refine kept_snd (by assumption) ?_ | exact rfl | assumption

theorem kept_blockValue [κ.Out .management] {s₀ s : State} {cl : Client} {r : Reg} {u : Nat} {offset : Nat}
    (h : Kept κ s₀ s) :
    Kept κ s₀ (State.blockValue s cl r u offset).2 := by
  unfold State.blockValue
  repeat' first
    | intro _ | with_reducible apply kept_filterRead | with_reducible apply kept_setView
    | with_reducible apply kept_ite | split | dsimp only | with_reducible assumption
    | refine kept_fst (by assumption) ?_ | refine kept_snd (by assumption) ?_ | exact rfl | assumption

theorem kept_execBdapReadBlock [κ.Out .events] [κ.Out .management] [κ.Out .housekeeping] [κ.Out .captures]
    {s₀ : State} {cl : Client} {ix : Fin 65536} {sub : Fin 256} {offset : Fin 4294967296} {max : Fin 65536}
    {s : State} (h : Kept κ s₀ s) :
    KeptO κ s₀ (execBdapReadBlock cl ix sub offset max s) := by
  unfold execBdapReadBlock
  repeat' first
    | intro _ | with_reducible apply kept_next | with_reducible apply kept_serveObject
    | with_reducible apply kept_blockValue | with_reducible apply kept_ite | with_reducible apply kept_ite_fst
    | split | dsimp only | with_reducible assumption | refine kept_fst (by assumption) ?_
    | refine kept_snd (by assumption) ?_ | exact rfl | assumption

theorem kept_writeObject [κ.Out .phase] [κ.Out .memory] [κ.Out .events] [κ.Out .subscribers] [κ.Out .management]
    [κ.Out .views] [κ.Out .identity] [κ.Out .settings] [κ.Out .mode] [κ.Out .boot] [κ.Out .rails] [κ.Out .guard]
    [κ.Out .thermal] [κ.Out .carriers] [κ.Out .slack] [κ.Out .txLine] [κ.Out .rxLine] [κ.Out .clocks]
    [κ.Out .converters] [κ.Out .calibration] [κ.Out .banks] [κ.Out .dispersion] [κ.Out .frontEnd] [κ.Out .equaliser]
    [κ.Out .monitors] [κ.Out .neighbours] [κ.Out .recovery] [κ.Out .catching] [κ.Out .coding] [κ.Out .defects]
    [κ.Out .overhead] [κ.Out .lanes] [κ.Out .patterns] [κ.Out .ports] [κ.Out .ptp] [κ.Out .classifier] [κ.Out .flows]
    [κ.Out .calendar] [κ.Out .pages] [κ.Out .tributaries] [κ.Out .bonding] [κ.Out .cores] [κ.Out .fuses]
    [κ.Out .slots] [κ.Out .keys] [κ.Out .bindings] [κ.Out .crypt] [κ.Out .time] [κ.Out .timing] [κ.Out .housekeeping]
    [κ.Out .snapshots] [κ.Out .inputs] [κ.Out .pair] [κ.Out .integrity] [κ.Out .custody] [κ.Out .mover]
    [κ.Out .captures] {s₀ s : State} {cl : Client} {r : Reg} {i : Nat} {v : WVal} (h : Kept κ s₀ s) :
    Kept κ s₀ (State.writeObject s cl r i v).1 := by
  unfold State.writeObject
  repeat' first
    | intro _ | with_reducible apply kept_lengthRefused | with_reducible apply kept_applyWrite
    | with_reducible apply kept_ite | with_reducible apply kept_ite_fst | split | dsimp only
    | with_reducible assumption | refine kept_fst (by assumption) ?_ | refine kept_snd (by assumption) ?_
    | exact rfl | assumption

theorem kept_writeAck {s₀ : State} {ix sub : Nat} {x : State × Answer} {more : List Byte} (h : Kept κ s₀ x.1) :
    Kept κ s₀ (writeAck ix sub x more).1 := by
  unfold writeAck
  split <;> exact h

theorem kept_execBdapWrite [κ.Out .phase] [κ.Out .memory] [κ.Out .events] [κ.Out .subscribers] [κ.Out .management]
    [κ.Out .views] [κ.Out .identity] [κ.Out .settings] [κ.Out .mode] [κ.Out .boot] [κ.Out .rails] [κ.Out .guard]
    [κ.Out .thermal] [κ.Out .carriers] [κ.Out .slack] [κ.Out .txLine] [κ.Out .rxLine] [κ.Out .clocks]
    [κ.Out .converters] [κ.Out .calibration] [κ.Out .banks] [κ.Out .dispersion] [κ.Out .frontEnd] [κ.Out .equaliser]
    [κ.Out .monitors] [κ.Out .neighbours] [κ.Out .recovery] [κ.Out .catching] [κ.Out .coding] [κ.Out .defects]
    [κ.Out .overhead] [κ.Out .lanes] [κ.Out .patterns] [κ.Out .ports] [κ.Out .ptp] [κ.Out .classifier] [κ.Out .flows]
    [κ.Out .calendar] [κ.Out .pages] [κ.Out .tributaries] [κ.Out .bonding] [κ.Out .cores] [κ.Out .fuses]
    [κ.Out .slots] [κ.Out .keys] [κ.Out .bindings] [κ.Out .crypt] [κ.Out .time] [κ.Out .timing] [κ.Out .housekeeping]
    [κ.Out .snapshots] [κ.Out .inputs] [κ.Out .pair] [κ.Out .integrity] [κ.Out .custody] [κ.Out .mover]
    [κ.Out .captures] {s₀ s : State} {cl : Client} {ix : Fin 65536} {sub : Fin 256} {ty : Fin 256} {val : List Byte}
    (h : Kept κ s₀ s) :
    KeptO κ s₀ (execBdapWrite cl ix sub ty val s) := by
  unfold execBdapWrite
  repeat' first
    | intro _ | with_reducible apply kept_next | with_reducible apply kept_serveObject
    | with_reducible apply kept_writeAck | with_reducible apply kept_writeObject
    | with_reducible apply kept_afterReset | with_reducible apply kept_ite | split | dsimp only
    | with_reducible assumption | refine kept_fst (by assumption) ?_ | refine kept_snd (by assumption) ?_
    | exact rfl | assumption

theorem kept_unstage [κ.Out .management] {s₀ s : State} {mac : Nat} {fore : Bool} (h : Kept κ s₀ s) : Kept κ s₀
    (s.unstage mac fore) :=
  kept_staging (.inl (List.length_filter_le _ _)) h

theorem kept_stage [κ.Out .management]
    {s₀ s : State} {cl : Client} {e : Staged} (h : Kept κ s₀ s) : Kept κ s₀
    (s.stage cl e).1 := by
  unfold State.stage
  split
  · split
    · exact h
    · rename_i hl
      exact kept_staging (.inr (by simp only [List.length_append, List.length_cons, List.length_nil]; omega)) h
  · split
    · exact h
    · exact kept_staging (.inl (by simp only [List.length_map]; exact Nat.le_refl _)) h

theorem kept_keyRefused [κ.Out .events] [κ.Out .fuses] [κ.Out .slots] [κ.Out .housekeeping] [κ.Out .captures]
    {s₀ s t : State} {r : Reg} {u : Nat} (h : Kept κ s₀ s) : Kept κ s₀ (s.keyRefused t r u) := by
  unfold State.keyRefused
  split <;> first | exact h | exact kept_setBlob (kept_set h) | exact kept_raise (kept_set h)

theorem kept_stageObject [κ.Out .events] [κ.Out .management] [κ.Out .fuses] [κ.Out .slots] [κ.Out .housekeeping]
    [κ.Out .captures] {s₀ s : State} {cl : Client} {ix : Nat} {sub : Nat} {r : Reg} {i : Nat} {v : WVal}
    (h : Kept κ s₀ s) :
    Kept κ s₀ (State.stageObject s cl ix sub r i v).1 := by
  unfold State.stageObject
  repeat' first
    | intro _ | with_reducible apply kept_lengthRefused | with_reducible apply kept_stage
    | with_reducible apply kept_writeSelect | with_reducible apply kept_keyRefused | with_reducible apply kept_ite
    | with_reducible apply kept_ite_fst | split | dsimp only | with_reducible assumption
    | refine kept_fst (by assumption) ?_ | refine kept_snd (by assumption) ?_ | exact rfl | assumption

theorem kept_execBdapStagedWrite [κ.Out .events] [κ.Out .management] [κ.Out .fuses] [κ.Out .slots]
    [κ.Out .housekeeping] [κ.Out .captures] {s₀ s : State} {cl : Client} {ix : Fin 65536} {sub : Fin 256}
    {ty : Fin 256} {val : List Byte} (h : Kept κ s₀ s) :
    KeptO κ s₀ (execBdapStagedWrite cl ix sub ty val s) := by
  unfold execBdapStagedWrite
  repeat' first
    | intro _ | with_reducible apply kept_next | with_reducible apply kept_serveObject
    | with_reducible apply kept_writeAck | with_reducible apply kept_stageObject | with_reducible apply kept_ite
    | split | dsimp only | with_reducible assumption | refine kept_fst (by assumption) ?_
    | refine kept_snd (by assumption) ?_ | exact rfl | assumption

theorem kept_commitClears [κ.Out .phase] [κ.Out .memory] [κ.Out .events] [κ.Out .subscribers] [κ.Out .management]
    [κ.Out .views] [κ.Out .identity] [κ.Out .settings] [κ.Out .mode] [κ.Out .boot] [κ.Out .rails] [κ.Out .guard]
    [κ.Out .thermal] [κ.Out .carriers] [κ.Out .slack] [κ.Out .txLine] [κ.Out .rxLine] [κ.Out .clocks]
    [κ.Out .converters] [κ.Out .calibration] [κ.Out .banks] [κ.Out .dispersion] [κ.Out .frontEnd] [κ.Out .equaliser]
    [κ.Out .monitors] [κ.Out .neighbours] [κ.Out .recovery] [κ.Out .catching] [κ.Out .coding] [κ.Out .defects]
    [κ.Out .overhead] [κ.Out .lanes] [κ.Out .patterns] [κ.Out .ports] [κ.Out .ptp] [κ.Out .classifier] [κ.Out .flows]
    [κ.Out .calendar] [κ.Out .pages] [κ.Out .tributaries] [κ.Out .bonding] [κ.Out .cores] [κ.Out .fuses]
    [κ.Out .slots] [κ.Out .keys] [κ.Out .bindings] [κ.Out .crypt] [κ.Out .time] [κ.Out .timing] [κ.Out .housekeeping]
    [κ.Out .snapshots] [κ.Out .inputs] [κ.Out .pair] [κ.Out .integrity] [κ.Out .custody] [κ.Out .mover]
    [κ.Out .captures] {s₀ s : State} {cl : Client} {l : List Staged} (h : Kept κ s₀ s) :
    Kept κ s₀ (State.commitClears s cl l) := by
  unfold State.commitClears
  repeat' first
    | intro _ | with_reducible apply kept_each | with_reducible apply kept_applyWrite
    | with_reducible apply kept_ite | split | dsimp only | with_reducible assumption
    | refine kept_fst (by assumption) ?_ | refine kept_snd (by assumption) ?_ | exact rfl | assumption

theorem kept_commitEntry [κ.Out .phase] [κ.Out .memory] [κ.Out .events] [κ.Out .subscribers] [κ.Out .management]
    [κ.Out .views] [κ.Out .identity] [κ.Out .settings] [κ.Out .mode] [κ.Out .boot] [κ.Out .rails] [κ.Out .guard]
    [κ.Out .thermal] [κ.Out .carriers] [κ.Out .slack] [κ.Out .txLine] [κ.Out .rxLine] [κ.Out .clocks]
    [κ.Out .converters] [κ.Out .calibration] [κ.Out .banks] [κ.Out .dispersion] [κ.Out .frontEnd] [κ.Out .equaliser]
    [κ.Out .monitors] [κ.Out .neighbours] [κ.Out .recovery] [κ.Out .catching] [κ.Out .coding] [κ.Out .defects]
    [κ.Out .overhead] [κ.Out .lanes] [κ.Out .patterns] [κ.Out .ports] [κ.Out .ptp] [κ.Out .classifier] [κ.Out .flows]
    [κ.Out .calendar] [κ.Out .pages] [κ.Out .tributaries] [κ.Out .bonding] [κ.Out .cores] [κ.Out .fuses]
    [κ.Out .slots] [κ.Out .keys] [κ.Out .bindings] [κ.Out .crypt] [κ.Out .time] [κ.Out .timing] [κ.Out .housekeeping]
    [κ.Out .snapshots] [κ.Out .inputs] [κ.Out .pair] [κ.Out .integrity] [κ.Out .custody] [κ.Out .mover]
    [κ.Out .captures] {s₀ s : State} {cl : Client} {e : Staged} {superseded : Bool} (h : Kept κ s₀ s) :
    Kept κ s₀ (State.commitEntry s cl e superseded).1 := by
  unfold State.commitEntry
  repeat' first
    | intro _ | with_reducible apply kept_applyWrite | with_reducible apply kept_ite
    | with_reducible apply kept_ite_fst | split | dsimp only | with_reducible assumption
    | refine kept_fst (by assumption) ?_ | refine kept_snd (by assumption) ?_ | exact rfl | assumption

theorem kept_keepOther [κ.Out .phase] [κ.Out .memory] [κ.Out .events] [κ.Out .subscribers] [κ.Out .management] [κ.Out .views]
    [κ.Out .identity] [κ.Out .settings] [κ.Out .mode] [κ.Out .boot] [κ.Out .rails] [κ.Out .guard] [κ.Out .thermal]
    [κ.Out .carriers] [κ.Out .slack] [κ.Out .txLine] [κ.Out .rxLine] [κ.Out .clocks] [κ.Out .converters]
    [κ.Out .calibration] [κ.Out .banks] [κ.Out .dispersion] [κ.Out .frontEnd] [κ.Out .equaliser] [κ.Out .monitors]
    [κ.Out .neighbours] [κ.Out .recovery] [κ.Out .catching] [κ.Out .coding] [κ.Out .defects] [κ.Out .overhead]
    [κ.Out .lanes] [κ.Out .patterns] [κ.Out .ports] [κ.Out .ptp] [κ.Out .classifier] [κ.Out .flows] [κ.Out .calendar]
    [κ.Out .pages] [κ.Out .tributaries] [κ.Out .bonding] [κ.Out .cores] [κ.Out .fuses] [κ.Out .slots] [κ.Out .keys]
    [κ.Out .bindings] [κ.Out .crypt] [κ.Out .time] [κ.Out .timing] [κ.Out .housekeeping] [κ.Out .snapshots]
    [κ.Out .inputs] [κ.Out .pair] [κ.Out .integrity] [κ.Out .custody] [κ.Out .mover] [κ.Out .captures]
    {s₀ s t : State} {e : Staged} (h : Kept κ s₀ s) : Kept κ s₀ (s.keepOther t e) := by
  unfold State.keepOther
  extract_lets x
  have hx : Kept κ s₀ x := kept_each h fun a y ha => kept_set ha (leaves_none _)
  clear_value x
  split
  · exact kept_raise (kept_set (kept_bump hx))
  · exact kept_raise (kept_set (kept_bump hx))
  · exact kept_keyRefused hx

theorem kept_keepRefusal [κ.Out .phase] [κ.Out .memory] [κ.Out .events] [κ.Out .subscribers] [κ.Out .management] [κ.Out .views]
    [κ.Out .identity] [κ.Out .settings] [κ.Out .mode] [κ.Out .boot] [κ.Out .rails] [κ.Out .guard] [κ.Out .thermal]
    [κ.Out .carriers] [κ.Out .slack] [κ.Out .txLine] [κ.Out .rxLine] [κ.Out .clocks] [κ.Out .converters]
    [κ.Out .calibration] [κ.Out .banks] [κ.Out .dispersion] [κ.Out .frontEnd] [κ.Out .equaliser] [κ.Out .monitors]
    [κ.Out .neighbours] [κ.Out .recovery] [κ.Out .catching] [κ.Out .coding] [κ.Out .defects] [κ.Out .overhead]
    [κ.Out .lanes] [κ.Out .patterns] [κ.Out .ports] [κ.Out .ptp] [κ.Out .classifier] [κ.Out .flows] [κ.Out .calendar]
    [κ.Out .pages] [κ.Out .tributaries] [κ.Out .bonding] [κ.Out .cores] [κ.Out .fuses] [κ.Out .slots] [κ.Out .keys]
    [κ.Out .bindings] [κ.Out .crypt] [κ.Out .time] [κ.Out .timing] [κ.Out .housekeeping] [κ.Out .snapshots]
    [κ.Out .inputs] [κ.Out .pair] [κ.Out .integrity] [κ.Out .custody] [κ.Out .mover] [κ.Out .captures]
    {s₀ s t : State} {cl : Client} {e : Staged} {a : Answer} (h : Kept κ s₀ s) :
    Kept κ s₀ (s.keepRefusal t cl e a) := by
  have hc := kept_commitEntry (cl := cl) (e := e) (superseded := false) h
  unfold State.keepRefusal
  split
  · rename_i eq
    rw [eq] at hc
    exact kept_ite hc (kept_keepOther h)
  · exact kept_keepOther h

theorem kept_commitFrom [κ.Out .phase] [κ.Out .memory] [κ.Out .events] [κ.Out .subscribers] [κ.Out .management] [κ.Out .views]
    [κ.Out .identity] [κ.Out .settings] [κ.Out .mode] [κ.Out .boot] [κ.Out .rails] [κ.Out .guard] [κ.Out .thermal]
    [κ.Out .carriers] [κ.Out .slack] [κ.Out .txLine] [κ.Out .rxLine] [κ.Out .clocks] [κ.Out .converters]
    [κ.Out .calibration] [κ.Out .banks] [κ.Out .dispersion] [κ.Out .frontEnd] [κ.Out .equaliser] [κ.Out .monitors]
    [κ.Out .neighbours] [κ.Out .recovery] [κ.Out .catching] [κ.Out .coding] [κ.Out .defects] [κ.Out .overhead]
    [κ.Out .lanes] [κ.Out .patterns] [κ.Out .ports] [κ.Out .ptp] [κ.Out .classifier] [κ.Out .flows] [κ.Out .calendar]
    [κ.Out .pages] [κ.Out .tributaries] [κ.Out .bonding] [κ.Out .cores] [κ.Out .fuses] [κ.Out .slots] [κ.Out .keys]
    [κ.Out .bindings] [κ.Out .crypt] [κ.Out .time] [κ.Out .timing] [κ.Out .housekeeping] [κ.Out .snapshots]
    [κ.Out .inputs] [κ.Out .pair] [κ.Out .integrity] [κ.Out .custody] [κ.Out .mover] [κ.Out .captures]
    {s₀ b s : State} {cl : Client} {n : Nat} {l : List Staged} (hb : Kept κ s₀ b) (h : Kept κ s₀ s) :
    Kept κ s₀ (commitFrom b cl n l s).1 := by
  induction l generalizing s n with
  | nil => exact h
  | cons e t ih =>
    unfold commitFrom
    have he := kept_commitEntry (cl := cl) (e := e) (superseded := e.reg.isAction && t.any e.sameAction) h
    split <;> rename_i eq
    · rw [eq] at he
      exact ih he
    · exact kept_keepRefusal hb

theorem kept_commit [κ.Out .phase] [κ.Out .memory] [κ.Out .events] [κ.Out .subscribers] [κ.Out .management]
    [κ.Out .views] [κ.Out .identity] [κ.Out .settings] [κ.Out .mode] [κ.Out .boot] [κ.Out .rails] [κ.Out .guard]
    [κ.Out .thermal] [κ.Out .carriers] [κ.Out .slack] [κ.Out .txLine] [κ.Out .rxLine] [κ.Out .clocks]
    [κ.Out .converters] [κ.Out .calibration] [κ.Out .banks] [κ.Out .dispersion] [κ.Out .frontEnd] [κ.Out .equaliser]
    [κ.Out .monitors] [κ.Out .neighbours] [κ.Out .recovery] [κ.Out .catching] [κ.Out .coding] [κ.Out .defects]
    [κ.Out .overhead] [κ.Out .lanes] [κ.Out .patterns] [κ.Out .ports] [κ.Out .ptp] [κ.Out .classifier] [κ.Out .flows]
    [κ.Out .calendar] [κ.Out .pages] [κ.Out .tributaries] [κ.Out .bonding] [κ.Out .cores] [κ.Out .fuses]
    [κ.Out .slots] [κ.Out .keys] [κ.Out .bindings] [κ.Out .crypt] [κ.Out .time] [κ.Out .timing] [κ.Out .housekeeping]
    [κ.Out .snapshots] [κ.Out .inputs] [κ.Out .pair] [κ.Out .integrity] [κ.Out .custody] [κ.Out .mover]
    [κ.Out .captures] {s₀ s : State} {cl : Client} (h : Kept κ s₀ s) :
    Kept κ s₀ (State.commit s cl).1 := by
  unfold State.commit
  repeat' first
    | intro _ | with_reducible apply kept_unstage | with_reducible apply kept_commitFrom
    | with_reducible apply kept_commitClears | with_reducible apply kept_ite | with_reducible apply kept_ite_fst
    | split | dsimp only | with_reducible assumption | refine kept_fst (by assumption) ?_
    | refine kept_snd (by assumption) ?_ | exact rfl | assumption

theorem kept_execBdapCommit [κ.Out .phase] [κ.Out .memory] [κ.Out .events] [κ.Out .subscribers] [κ.Out .management]
    [κ.Out .views] [κ.Out .identity] [κ.Out .settings] [κ.Out .mode] [κ.Out .boot] [κ.Out .rails] [κ.Out .guard]
    [κ.Out .thermal] [κ.Out .carriers] [κ.Out .slack] [κ.Out .txLine] [κ.Out .rxLine] [κ.Out .clocks]
    [κ.Out .converters] [κ.Out .calibration] [κ.Out .banks] [κ.Out .dispersion] [κ.Out .frontEnd] [κ.Out .equaliser]
    [κ.Out .monitors] [κ.Out .neighbours] [κ.Out .recovery] [κ.Out .catching] [κ.Out .coding] [κ.Out .defects]
    [κ.Out .overhead] [κ.Out .lanes] [κ.Out .patterns] [κ.Out .ports] [κ.Out .ptp] [κ.Out .classifier] [κ.Out .flows]
    [κ.Out .calendar] [κ.Out .pages] [κ.Out .tributaries] [κ.Out .bonding] [κ.Out .cores] [κ.Out .fuses]
    [κ.Out .slots] [κ.Out .keys] [κ.Out .bindings] [κ.Out .crypt] [κ.Out .time] [κ.Out .timing] [κ.Out .housekeeping]
    [κ.Out .snapshots] [κ.Out .inputs] [κ.Out .pair] [κ.Out .integrity] [κ.Out .custody] [κ.Out .mover]
    [κ.Out .captures]
    {s₀ : State}
    {cl : Client} {s : State} (h : Kept κ s₀ s) :
    KeptO κ s₀ (execBdapCommit cl s) := by
  unfold execBdapCommit
  repeat' first
    | intro _ | with_reducible apply kept_next | with_reducible apply kept_afterReset
    | with_reducible apply kept_serve | with_reducible apply kept_commit | with_reducible apply kept_ite | split
    | dsimp only | with_reducible assumption | refine kept_fst (by assumption) ?_
    | refine kept_snd (by assumption) ?_ | exact rfl | assumption | exact leaves_none _

theorem kept_execBdapCommitDiscard [κ.Out .events] [κ.Out .management] [κ.Out .housekeeping] [κ.Out .captures]
    {s₀ : State} {cl : Client} {s : State} (h : Kept κ s₀ s) :
    KeptO κ s₀ (execBdapCommitDiscard cl s) := by
  unfold execBdapCommitDiscard
  repeat' first
    | intro _ | with_reducible apply kept_next | with_reducible apply kept_serve
    | with_reducible apply kept_unstage | with_reducible apply kept_ite | split | dsimp only
    | with_reducible assumption | refine kept_fst (by assumption) ?_ | refine kept_snd (by assumption) ?_
    | exact rfl | assumption

theorem kept_execStagingTimeout [κ.Out .events] [κ.Out .management] [κ.Out .housekeeping] [κ.Out .captures]
    {s₀ s : State} {mac : Nat} {fore : Bool} (h : Kept κ s₀ s) :
    KeptO κ s₀ (execStagingTimeout mac fore s) := by
  unfold execStagingTimeout
  repeat' first
    | intro _ | with_reducible apply kept_live | with_reducible apply kept_unstage
    | with_reducible apply kept_raise | with_reducible apply kept_ite | split | dsimp only
    | with_reducible assumption | refine kept_fst (by assumption) ?_ | refine kept_snd (by assumption) ?_
    | exact rfl | assumption

theorem kept_dropTransfer [κ.Out .management]
    {s₀ s : State} {mac : Nat} (h : Kept κ s₀ s) : Kept κ s₀ (s.dropTransfer mac) := by
  unfold State.dropTransfer
  exact kept_transfers h

theorem kept_segment [κ.Out .phase] [κ.Out .memory] [κ.Out .events] [κ.Out .subscribers] [κ.Out .management] [κ.Out .views]
    [κ.Out .identity] [κ.Out .settings] [κ.Out .mode] [κ.Out .boot] [κ.Out .rails] [κ.Out .guard] [κ.Out .thermal]
    [κ.Out .carriers] [κ.Out .slack] [κ.Out .txLine] [κ.Out .rxLine] [κ.Out .clocks] [κ.Out .converters]
    [κ.Out .calibration] [κ.Out .banks] [κ.Out .dispersion] [κ.Out .frontEnd] [κ.Out .equaliser] [κ.Out .monitors]
    [κ.Out .neighbours] [κ.Out .recovery] [κ.Out .catching] [κ.Out .coding] [κ.Out .defects] [κ.Out .overhead]
    [κ.Out .lanes] [κ.Out .patterns] [κ.Out .ports] [κ.Out .ptp] [κ.Out .classifier] [κ.Out .flows] [κ.Out .calendar]
    [κ.Out .pages] [κ.Out .tributaries] [κ.Out .bonding] [κ.Out .cores] [κ.Out .fuses] [κ.Out .slots] [κ.Out .keys]
    [κ.Out .bindings] [κ.Out .crypt] [κ.Out .time] [κ.Out .timing] [κ.Out .housekeeping] [κ.Out .snapshots]
    [κ.Out .inputs] [κ.Out .pair] [κ.Out .integrity] [κ.Out .custody] [κ.Out .mover] [κ.Out .captures]
    {s₀ s : State} {cl : Client} {x : Transfer} {r : Reg} {i : Nat} {last : Bool} {data : List Byte}
    (h : Kept κ s₀ s) : Kept κ s₀ (s.segment cl x r i last data).1 := by
  have h1 : Kept κ s₀ (s.dropTransfer cl.mac) := kept_dropTransfer h
  unfold State.segment
  dsimp only
  generalize s.dropTransfer cl.mac = a at h1
  split
  · exact h1
  · split
    · exact kept_writeAck (kept_writeObject h1)
    · exact kept_transfers h1

theorem kept_firstSegment [κ.Out .phase] [κ.Out .memory] [κ.Out .events] [κ.Out .subscribers] [κ.Out .management]
    [κ.Out .views] [κ.Out .identity] [κ.Out .settings] [κ.Out .mode] [κ.Out .boot] [κ.Out .rails] [κ.Out .guard]
    [κ.Out .thermal] [κ.Out .carriers] [κ.Out .slack] [κ.Out .txLine] [κ.Out .rxLine] [κ.Out .clocks]
    [κ.Out .converters] [κ.Out .calibration] [κ.Out .banks] [κ.Out .dispersion] [κ.Out .frontEnd] [κ.Out .equaliser]
    [κ.Out .monitors] [κ.Out .neighbours] [κ.Out .recovery] [κ.Out .catching] [κ.Out .coding] [κ.Out .defects]
    [κ.Out .overhead] [κ.Out .lanes] [κ.Out .patterns] [κ.Out .ports] [κ.Out .ptp] [κ.Out .classifier] [κ.Out .flows]
    [κ.Out .calendar] [κ.Out .pages] [κ.Out .tributaries] [κ.Out .bonding] [κ.Out .cores] [κ.Out .fuses]
    [κ.Out .slots] [κ.Out .keys] [κ.Out .bindings] [κ.Out .crypt] [κ.Out .time] [κ.Out .timing] [κ.Out .housekeeping]
    [κ.Out .snapshots] [κ.Out .inputs] [κ.Out .pair] [κ.Out .integrity] [κ.Out .custody] [κ.Out .mover]
    [κ.Out .captures] {s₀ s : State} {cl : Client} {x : Transfer} {r : Reg} {i : Nat} {offset : Nat} {last : Bool}
    {data : List Byte} (h : Kept κ s₀ s) :
    Kept κ s₀ (State.firstSegment s cl x r i offset last data).1 := by
  unfold State.firstSegment
  repeat' first
    | intro _ | with_reducible apply kept_dropTransfer | with_reducible apply kept_lengthRefused
    | with_reducible apply kept_segment | with_reducible apply kept_ite | with_reducible apply kept_ite_fst | split
    | dsimp only | with_reducible assumption | refine kept_fst (by assumption) ?_
    | refine kept_snd (by assumption) ?_ | exact rfl | assumption

theorem kept_laterSegment [κ.Out .phase] [κ.Out .memory] [κ.Out .events] [κ.Out .subscribers] [κ.Out .management]
    [κ.Out .views] [κ.Out .identity] [κ.Out .settings] [κ.Out .mode] [κ.Out .boot] [κ.Out .rails] [κ.Out .guard]
    [κ.Out .thermal] [κ.Out .carriers] [κ.Out .slack] [κ.Out .txLine] [κ.Out .rxLine] [κ.Out .clocks]
    [κ.Out .converters] [κ.Out .calibration] [κ.Out .banks] [κ.Out .dispersion] [κ.Out .frontEnd] [κ.Out .equaliser]
    [κ.Out .monitors] [κ.Out .neighbours] [κ.Out .recovery] [κ.Out .catching] [κ.Out .coding] [κ.Out .defects]
    [κ.Out .overhead] [κ.Out .lanes] [κ.Out .patterns] [κ.Out .ports] [κ.Out .ptp] [κ.Out .classifier] [κ.Out .flows]
    [κ.Out .calendar] [κ.Out .pages] [κ.Out .tributaries] [κ.Out .bonding] [κ.Out .cores] [κ.Out .fuses]
    [κ.Out .slots] [κ.Out .keys] [κ.Out .bindings] [κ.Out .crypt] [κ.Out .time] [κ.Out .timing] [κ.Out .housekeeping]
    [κ.Out .snapshots] [κ.Out .inputs] [κ.Out .pair] [κ.Out .integrity] [κ.Out .custody] [κ.Out .mover]
    [κ.Out .captures] {s₀ s : State} {cl : Client} {ix : Nat} {sub : Nat} {r : Reg} {i : Nat} {total : Nat}
    {offset : Nat} {last : Bool} {data : List Byte} (h : Kept κ s₀ s) :
    Kept κ s₀ (State.laterSegment s cl ix sub r i total offset last data).1 := by
  unfold State.laterSegment
  repeat' first
    | intro _ | with_reducible apply kept_dropTransfer | with_reducible apply kept_segment
    | with_reducible apply kept_ite | with_reducible apply kept_ite_fst | split | dsimp only
    | with_reducible assumption | refine kept_fst (by assumption) ?_ | refine kept_snd (by assumption) ?_
    | exact rfl | assumption

theorem kept_execBdapWriteBlock [κ.Out .phase] [κ.Out .memory] [κ.Out .events] [κ.Out .subscribers]
    [κ.Out .management] [κ.Out .views] [κ.Out .identity] [κ.Out .settings] [κ.Out .mode] [κ.Out .boot] [κ.Out .rails]
    [κ.Out .guard] [κ.Out .thermal] [κ.Out .carriers] [κ.Out .slack] [κ.Out .txLine] [κ.Out .rxLine] [κ.Out .clocks]
    [κ.Out .converters] [κ.Out .calibration] [κ.Out .banks] [κ.Out .dispersion] [κ.Out .frontEnd] [κ.Out .equaliser]
    [κ.Out .monitors] [κ.Out .neighbours] [κ.Out .recovery] [κ.Out .catching] [κ.Out .coding] [κ.Out .defects]
    [κ.Out .overhead] [κ.Out .lanes] [κ.Out .patterns] [κ.Out .ports] [κ.Out .ptp] [κ.Out .classifier] [κ.Out .flows]
    [κ.Out .calendar] [κ.Out .pages] [κ.Out .tributaries] [κ.Out .bonding] [κ.Out .cores] [κ.Out .fuses]
    [κ.Out .slots] [κ.Out .keys] [κ.Out .bindings] [κ.Out .crypt] [κ.Out .time] [κ.Out .timing] [κ.Out .housekeeping]
    [κ.Out .snapshots] [κ.Out .inputs] [κ.Out .pair] [κ.Out .integrity] [κ.Out .custody] [κ.Out .mover]
    [κ.Out .captures] {s₀ s : State} {cl : Client} {ix : Fin 65536} {sub : Fin 256} {first : Bool} {last : Bool}
    {total : Fin 4294967296} {offset : Fin 4294967296} {data : List Byte} (h : Kept κ s₀ s) :
    KeptO κ s₀ (execBdapWriteBlock cl ix sub first last total offset data s) := by
  unfold execBdapWriteBlock
  repeat' first
    | intro _ | with_reducible apply kept_next | with_reducible apply kept_serveObject
    | with_reducible apply kept_firstSegment | with_reducible apply kept_laterSegment
    | with_reducible apply kept_afterReset | with_reducible apply kept_ite | split | dsimp only
    | with_reducible assumption | refine kept_fst (by assumption) ?_ | refine kept_snd (by assumption) ?_
    | exact rfl | assumption

theorem kept_execBlockTransferTimeout [κ.Out .management] {s₀ s : State} {mac : Nat} {fore : Bool} (h : Kept κ s₀ s) :
    KeptO κ s₀ (execBlockTransferTimeout mac fore s) := by
  unfold execBlockTransferTimeout
  repeat' first
    | intro _ | with_reducible apply kept_live | with_reducible apply kept_dropTransfer
    | with_reducible apply kept_ite | split | dsimp only | with_reducible assumption
    | refine kept_fst (by assumption) ?_ | refine kept_snd (by assumption) ?_ | exact rfl | assumption

theorem kept_execBdapSnapshot [κ.Out .events] [κ.Out .management] [κ.Out .housekeeping] [κ.Out .snapshots]
    [κ.Out .captures] {s₀ : State} {cl : Client} {s : State} (h : Kept κ s₀ s) :
    KeptO κ s₀ (execBdapSnapshot cl s) := by
  unfold execBdapSnapshot
  repeat' first
    | intro _ | with_reducible apply kept_next | with_reducible apply kept_serve
    | with_reducible apply kept_snapshot | with_reducible apply kept_ite | split | dsimp only
    | with_reducible assumption | refine kept_fst (by assumption) ?_ | refine kept_snd (by assumption) ?_
    | exact rfl | assumption

theorem kept_subscribe [κ.Out .subscribers] {s₀ s : State} {cl : Client} {mask : Nat} (h : Kept κ s₀ s) : Kept κ s₀
    (s.subscribe cl mask).1 := by
  unfold State.subscribe
  split
  · exact kept_subscribers_map (fun x => by split <;> rfl) h
  · split
    · exact h
    · rename_i n e
      have hn := List.find?_some e
      have hm := List.mem_range.1 (List.mem_of_find?_eq_some e)
      refine h.trans { Kept.refl s with slots := fun q => ⟨?_, ?_⟩, sameSubscribers := touched }
      · simp only [List.map_append, List.map_cons, List.map_nil]
        refine List.Nodup.append q.1 (List.nodup_singleton n) ?_
        intro a ha hb
        rw [List.mem_singleton.1 hb] at ha
        obtain ⟨u, hu, he⟩ := List.mem_map.1 ha
        have := List.all_eq_true.1 hn u hu
        simp only [he, bne_self_eq_false] at this
        exact Bool.noConfusion this
      · intro a ha
        simp only [List.map_append, List.map_cons, List.map_nil, List.mem_append, List.mem_singleton] at ha
        rcases ha with ha | ha
        · exact q.2 a ha
        · exact ha ▸ hm

theorem kept_execBdapSubscribe [κ.Out .events] [κ.Out .subscribers] [κ.Out .management] [κ.Out .housekeeping]
    [κ.Out .captures] {s₀ : State} {cl : Client} {mask : Fin 256} {s : State} (h : Kept κ s₀ s) :
    KeptO κ s₀ (execBdapSubscribe cl mask s) := by
  unfold execBdapSubscribe
  repeat' first
    | intro _ | with_reducible apply kept_next | with_reducible apply kept_serve
    | with_reducible apply kept_subscribe | with_reducible apply kept_ite | split | dsimp only
    | with_reducible assumption | refine kept_fst (by assumption) ?_ | refine kept_snd (by assumption) ?_
    | exact rfl | assumption

theorem kept_execBdapUnsubscribe [κ.Out .events] [κ.Out .subscribers] [κ.Out .management] [κ.Out .housekeeping]
    [κ.Out .captures] {s₀ : State} {cl : Client} {s : State} (h : Kept κ s₀ s) :
    KeptO κ s₀ (execBdapUnsubscribe cl s) := by
  unfold execBdapUnsubscribe
  repeat' first
    | intro _ | with_reducible apply kept_next | with_reducible apply kept_serve | with_reducible apply kept_ite
    | split | dsimp only | with_reducible assumption | with_reducible apply kept_subscribers_sub
    | refine kept_fst (by assumption) ?_ | refine kept_snd (by assumption) ?_ | exact rfl | assumption

theorem kept_setSubscriber {s₀ s : State} {u : Subscriber} (h : Kept κ s₀ s) : Kept κ s₀ (s.setSubscriber u) :=
  kept_subscribers_map (fun x => by split <;> simp_all) h

theorem kept_sendEvent [κ.Out .management] {s₀ s : State} {u : Subscriber} {a : Awaiting} (h : Kept κ s₀ s) :
    Kept κ s₀ (State.sendEvent s u a) := by
  unfold State.sendEvent
  repeat' first
    | intro _ | with_reducible apply kept_emit | with_reducible apply kept_bump | with_reducible apply kept_ite
    | split | dsimp only | with_reducible assumption | refine kept_fst (by assumption) ?_
    | refine kept_snd (by assumption) ?_ | exact rfl | assumption | exact (Fact.out : κ .management = false)

theorem kept_eventSend [κ.Out .management] {s₀ s : State} {n : Nat} (h : Kept κ s₀ s) :
    Kept κ s₀ (State.eventSend s n) := by
  unfold State.eventSend
  repeat' first
    | intro _ | with_reducible apply kept_sendEvent | with_reducible apply kept_setSubscriber
    | with_reducible apply kept_ite | split | dsimp only | with_reducible assumption
    | refine kept_fst (by assumption) ?_ | refine kept_snd (by assumption) ?_ | exact rfl | assumption

theorem kept_execEventSend [κ.Out .management] {s₀ : State} {n : Fin 8} {s : State} (h : Kept κ s₀ s) :
    KeptO κ s₀ (execEventSend n s) := by
  unfold execEventSend
  repeat' first
    | intro _ | with_reducible apply kept_next | with_reducible apply kept_live
    | with_reducible apply kept_eventSend | with_reducible apply kept_ite | split | dsimp only
    | with_reducible assumption | refine kept_fst (by assumption) ?_ | refine kept_snd (by assumption) ?_
    | exact rfl | assumption

theorem kept_eventResend [κ.Out .events] [κ.Out .subscribers] [κ.Out .management] [κ.Out .housekeeping]
    [κ.Out .captures] {s₀ s : State} {n : Nat} (h : Kept κ s₀ s) :
    Kept κ s₀ (State.eventResend s n) := by
  unfold State.eventResend
  repeat' first
    | intro _ | with_reducible apply kept_sendEvent | with_reducible apply kept_setSubscriber
    | with_reducible apply kept_raise | with_reducible apply kept_bump | with_reducible apply kept_ite | split
    | dsimp only | with_reducible assumption | with_reducible apply kept_subscribers_sub
    | refine kept_fst (by assumption) ?_ | refine kept_snd (by assumption) ?_ | exact rfl | assumption
    | exact (Fact.out : κ .management = false)

theorem kept_execEventResend [κ.Out .events] [κ.Out .subscribers] [κ.Out .management] [κ.Out .housekeeping]
    [κ.Out .captures] {s₀ : State} {n : Fin 8} {s : State} (h : Kept κ s₀ s) :
    KeptO κ s₀ (execEventResend n s) := by
  unfold execEventResend
  repeat' first
    | intro _ | with_reducible apply kept_next | with_reducible apply kept_live
    | with_reducible apply kept_eventResend | with_reducible apply kept_ite | split | dsimp only
    | with_reducible assumption | refine kept_fst (by assumption) ?_ | refine kept_snd (by assumption) ?_
    | exact rfl | assumption

theorem kept_eventAck [κ.Out .management] {s₀ s : State} {cl : Client} (h : Kept κ s₀ s) :
    Kept κ s₀ (State.eventAck s cl) := by
  unfold State.eventAck
  repeat' first
    | intro _ | with_reducible apply kept_setSubscriber | with_reducible apply kept_bump
    | with_reducible apply kept_ite | split | dsimp only | with_reducible assumption
    | refine kept_fst (by assumption) ?_ | refine kept_snd (by assumption) ?_ | exact rfl | assumption
    | exact (Fact.out : κ .management = false)

theorem kept_execEventAckReceive [κ.Out .management] {s₀ : State} {cl : Client} {s : State} (h : Kept κ s₀ s) :
    KeptO κ s₀ (execEventAckReceive cl s) := by
  unfold execEventAckReceive
  repeat' first
    | intro _ | with_reducible apply kept_next | with_reducible apply kept_eventAck
    | with_reducible apply kept_hear | with_reducible apply kept_ite | split | dsimp only
    | with_reducible assumption | refine kept_fst (by assumption) ?_ | refine kept_snd (by assumption) ?_
    | exact rfl | assumption

theorem bump_requests {s : State} {r : Reg} {i n : Nat} : (s.bump r i n).requests = s.requests := by
  unfold State.bump
  dsimp only
  split <;> rfl

theorem take_requests {s : State} {cl : Client} : (s.take cl).requests = s.requests := by
  unfold State.take
  exact bump_requests

theorem kept_arrive [κ.Out .events] [κ.Out .management] [κ.Out .housekeeping] [κ.Out .captures]
    {s₀ s : State}
    {cl : Client} {body : ReqBody} (h : Kept κ s₀ s) : Kept κ s₀ (s.arrive cl body) := by
  have h1 : Kept κ s₀ (s.hear cl.mac) := kept_hear h
  unfold State.arrive
  dsimp only
  generalize s.hear cl.mac = a at h1
  split
  · exact kept_ignore h1
  · split
    · exact kept_duplicate h1
    · split
      · exact kept_bump h1
      · rename_i hl
        refine kept_ite (kept_reply (kept_take h1)) (kept_requests (.inr ?_) (kept_take h1))
        simp only [take_requests, List.length_append, List.length_cons, List.length_nil]
        omega

theorem kept_message [κ.Out .events] [κ.Out .management] [κ.Out .housekeeping] [κ.Out .captures] {s₀ s : State}
    {port : Fin 2} {fore : Bool} {src : Nat} {size : Nat} {d : List Byte} (h : Kept κ s₀ s) :
    Kept κ s₀ (State.message s port fore src size d) := by
  unfold State.message
  repeat' first
    | intro _ | with_reducible apply kept_bump | with_reducible apply kept_eventAck
    | with_reducible apply kept_hear | with_reducible apply kept_arrive | with_reducible apply kept_ite | split
    | dsimp only | with_reducible assumption | refine kept_fst (by assumption) ?_
    | refine kept_snd (by assumption) ?_ | exact rfl | assumption | exact (Fact.out : κ .management = false)

theorem kept_frameIn [κ.Out .events] [κ.Out .management] [κ.Out .housekeeping] [κ.Out .captures] {s₀ s : State}
    {port : Fin 2} {f : List Byte} {inverted : Bool} (h : Kept κ s₀ s) :
    Kept κ s₀ (State.frameIn s port f inverted) := by
  unfold State.frameIn
  repeat' first
    | intro _ | with_reducible apply kept_setFlag | with_reducible apply kept_each
    | with_reducible apply kept_bump | with_reducible apply kept_message | with_reducible apply kept_ite | split
    | dsimp only | with_reducible assumption | refine kept_fst (by assumption) ?_
    | refine kept_snd (by assumption) ?_ | exact rfl | assumption | exact (Fact.out : κ .management = false)

theorem kept_execBdapFrameReceive [κ.Out .events] [κ.Out .management] [κ.Out .housekeeping] [κ.Out .captures]
    {s₀ : State} {port : Fin 2} {frame : List Byte} {inverted : Bool} {s : State} (h : Kept κ s₀ s) :
    KeptO κ s₀ (execBdapFrameReceive port frame inverted s) := by
  unfold execBdapFrameReceive
  repeat' first
    | intro _ | with_reducible apply kept_next | with_reducible apply kept_live
    | with_reducible apply kept_frameIn | with_reducible apply kept_ite | split | dsimp only
    | with_reducible assumption | refine kept_fst (by assumption) ?_ | refine kept_snd (by assumption) ?_
    | exact rfl | assumption

theorem kept_plcaStatus [κ.Out .events] [κ.Out .management] [κ.Out .housekeeping] [κ.Out .captures] {s₀ s : State}
    {port : Nat} {status : Nat} (h : Kept κ s₀ s) :
    Kept κ s₀ (State.plcaStatus s port status) := by
  unfold State.plcaStatus
  repeat' first
    | intro _ | with_reducible apply kept_setPlca | with_reducible apply kept_ite | split | dsimp only
    | with_reducible assumption | refine kept_fst (by assumption) ?_ | refine kept_snd (by assumption) ?_
    | exact rfl | assumption

theorem kept_execMgtPlcaStatusChange [κ.Out .events] [κ.Out .management] [κ.Out .housekeeping] [κ.Out .captures]
    {s₀ : State} {port : Fin 2} {status : Fin 3} {s : State} (h : Kept κ s₀ s) :
    KeptO κ s₀ (execMgtPlcaStatusChange port status s) := by
  unfold execMgtPlcaStatusChange
  repeat' first
    | intro _ | with_reducible apply kept_next | with_reducible apply kept_live
    | with_reducible apply kept_plcaStatus | with_reducible apply kept_ite | split | dsimp only
    | with_reducible assumption | refine kept_fst (by assumption) ?_ | refine kept_snd (by assumption) ?_
    | exact rfl | assumption

end Sys2Proof.Laws
end

