-- ==== Sys2Proof/Laws/Serving.lean ====
section
/-! SUPPORT. What serving a request does: a fresh one runs on the state that has taken it and its answer is sent; a
repeated, ignored or unanswered one runs nothing. -/

set_option Elab.async false

namespace Sys2Proof.Laws

open Sys2Proof.Machine

variable {s t : State} {cl : Client}

/-- The state in which a request runs: its source heard, the request taken or out of the queue. -/
def ready (s : State) (cl : Client) : State := (s.hear cl.mac).dequeue cl

theorem take_get {r : Reg} {i : Nat} (h : r ≠ .bdapRequests) : (s.take cl).get r i = s.get r i := by
  unfold State.take
  rw [get_bump_other (.inl h)]
  rfl

theorem ready_get {r : Reg} {i : Nat} (h : r ≠ .bdapRequests) : (ready s cl).get r i = s.get r i := by
  unfold ready State.dequeue
  split
  · rfl
  · exact take_get h

theorem take_blob {r : Reg} {i : Nat} : (s.take cl).blob r i = s.blob r i := by
  unfold State.take State.bump
  dsimp only
  split <;> rfl

theorem ready_blob {r : Reg} {i : Nat} : (ready s cl).blob r i = s.blob r i := by
  unfold ready State.dequeue
  split
  · rfl
  · exact take_blob

theorem take_out : (s.take cl).out = s.out := by
  unfold State.take State.bump
  dsimp only
  split <;> rfl

theorem ready_out : (ready s cl).out = s.out := by
  unfold ready State.dequeue
  split
  · rfl
  · exact take_out

theorem find_hear (mac : Nat) : ((s.hear mac).sources.find? fun x => x.mac == mac)
    = some ((s.sources.find? fun x => x.mac == mac).getD ⟨mac, emptyView, emptyView⟩) := by
  unfold State.hear
  simp only [List.take_succ_cons, List.find?_cons]
  have : (((s.sources.find? fun x => x.mac == mac).getD ⟨mac, emptyView, emptyView⟩).mac == mac) = true := by
    cases h : s.sources.find? fun x => x.mac == mac with
    | none => simp
    | some x => simpa using List.find?_some h
  rw [this]

theorem hear_view : (s.hear cl.mac).view cl = s.view cl := by
  unfold State.view
  rw [find_hear]
  cases h : s.sources.find? fun x => x.mac == cl.mac with
  | none => cases cl.fore <;> rfl
  | some x => rfl

theorem hear_repeated : (s.hear cl.mac).repeated cl = s.repeated cl := by
  unfold State.repeated
  rw [hear_view]
  rfl

/-- No malformed message stands ahead of the next request. -/
theorem answerMalformed_next {n : Nat} (h : s.isNext cl = true) : s.answerMalformed n = s := by
  unfold State.isNext at h
  cases n with
  | zero => rfl
  | succ n =>
    unfold State.answerMalformed
    split
    · rename_i e
      rw [e] at h
      simp at h
    · rfl

/-- The next request is heard, and dropped, answered from what was sent, or run. -/
theorem serve_next {addr : Nat × Nat} {act : State → State × Answer} (ha : s.answers cl = true)
    (hn : s.isNext cl = true) (hc : s.clientClass cl.mac ≠ 3) :
    s.serve cl addr act = if let some x := s.repeated cl then (s.hear cl.mac).duplicate cl x
      else match act (ready s cl) with
        | (t, .ack p) => t.reply cl (.ack p)
        | (t, .abort c d p) => t.reply cl (.abort addr.1 addr.2 c d p) := by
  have hc' : ¬ (s.hear cl.mac).clientClass cl.mac = 3 := hc
  unfold State.serve
  simp only [ha, if_true, answerMalformed_next hn, hn, Bool.and_self, hc', if_false, hear_repeated]
  cases s.repeated cl with
  | some x => rfl
  | none =>
    show _ = match act ((s.hear cl.mac).dequeue cl) with
      | (t, .ack p) => t.reply cl (.ack p)
      | (t, .abort c d p) => t.reply cl (.abort addr.1 addr.2 c d p)
    generalize act ((s.hear cl.mac).dequeue cl) = x
    obtain ⟨u, _ | _⟩ := x <;> rfl

/-- A fresh request runs on the state that has taken it. -/
theorem serve_fresh {addr : Nat × Nat} {act : State → State × Answer} (h : Safety.fresh s cl) :
    s.serve cl addr act = match act (ready s cl) with
      | (t, .ack p) => t.reply cl (.ack p)
      | (t, .abort c d p) => t.reply cl (.abort addr.1 addr.2 c d p) := by
  obtain ⟨ha, hn, hc, hr⟩ := h
  rw [serve_next ha hn hc, hr]

/-- A repeated request draws its stored reply, or waits for it, and runs nothing. -/
theorem serve_repeated {addr : Nat × Nat} {act : State → State × Answer} {x : Recent} (ha : s.answers cl = true)
    (hn : s.isNext cl = true) (hc : s.clientClass cl.mac ≠ 3) (hr : s.repeated cl = some x) :
    s.serve cl addr act = (s.hear cl.mac).duplicate cl x := by
  rw [serve_next ha hn hc, hr]

/-- A request that the block does not answer changes nothing. -/
theorem serve_unanswered {addr : Nat × Nat} {act : State → State × Answer} (h : s.answers cl = false) :
    s.serve cl addr act = s := by
  unfold State.serve
  simp [h]

/-- Sending a reply writes no register but two counters. -/
theorem apart_reply {K : Reg → Bool} {s₀ : State} {a : Reply} (h : Apart K s₀ s) (h1 : K .bdapAborts = true)
    (h2 : K .mgtFramesTx = true) : Apart K s₀ (s.reply cl a) := by
  unfold State.reply
  refine apart_each ?_ fun t p ht => apart_bump (ht.other rfl) h2
  split
  · exact apart_bump (h.other rfl) h1
  · exact h.other rfl

theorem reply_get {a : Reply} {r : Reg} {i : Nat} (h1 : r ≠ .bdapAborts) (h2 : r ≠ .mgtFramesTx) :
    (s.reply cl a).get r i = s.get r i :=
  (apart_reply (K := fun x => decide (x = .bdapAborts) || decide (x = .mgtFramesTx)) (Apart.refl s) (by simp)
    (by simp)).regs r i (by simp [h1, h2])

theorem reply_blob {a : Reply} {r : Reg} {i : Nat} (h1 : r ≠ .bdapAborts) (h2 : r ≠ .mgtFramesTx) :
    (s.reply cl a).blob r i = s.blob r i :=
  (apart_reply (K := fun x => decide (x = .bdapAborts) || decide (x = .mgtFramesTx)) (Apart.refl s) (by simp)
    (by simp)).blobs r i (by simp [h1, h2])

theorem bump_out {r : Reg} {i n : Nat} : (s.bump r i n).out = s.out := by
  unfold State.bump
  dsimp only
  split <;> rfl

/-- The reply goes out on the port of its request first, then where duplicates wait. -/
theorem reply_out {a : Reply} :
    ∃ l n, (s.reply cl a).out = s.out ++ Output.reply cl a (replyFrame n cl a) :: l := by
  have each : ∀ (f : List Byte) (l : List (Fin 2)) (u : State), ∃ l', (u.each l fun s p =>
      (s.emit (.reply { cl with port := p } a f)).bump .mgtFramesTx p.val).out = u.out ++ l' := by
    intro f l
    induction l with
    | nil => intro u; exact ⟨[], by simp [State.each]⟩
    | cons p l ih =>
      intro u
      obtain ⟨l', h⟩ := ih ((u.emit (.reply { cl with port := p } a f)).bump .mgtFramesTx p.val)
      refine ⟨.reply { cl with port := p } a f :: l', ?_⟩
      unfold State.each at h ⊢
      rw [List.foldl_cons, h, bump_out]
      simp
  have main : ∀ (f : List Byte) (ports : List (Fin 2)) (u : State), u.out = s.out → ∃ l,
      (u.each (cl.port :: ports) fun s p => (s.emit (.reply { cl with port := p } a f)).bump .mgtFramesTx p.val).out
        = s.out ++ Output.reply cl a f :: l := by
    intro f ports u hu
    obtain ⟨l', h⟩ := each f ports ((u.emit (.reply cl a f)).bump .mgtFramesTx cl.port.val)
    refine ⟨l', ?_⟩
    unfold State.each at h ⊢
    rw [List.foldl_cons, h, bump_out]
    simp [hu]
  rw [exists_comm]
  unfold State.reply
  dsimp only
  refine ⟨_, main _ _ _ ?_⟩
  split
  · exact bump_out
  · rfl

/-- A reply sent after s counts as sent between s and t. -/
theorem replied_reply {s₀ : State} {a : Reply} (h : s₀.out <+: s.out) : Safety.replied s₀ (s.reply cl a) cl a := by
  obtain ⟨l, hl⟩ := h
  obtain ⟨l', n, h'⟩ := reply_out (s := s) (cl := cl) (a := a)
  exact ⟨l ++ .reply cl a (replyFrame n cl a) :: l', n, by rw [h', ← hl, List.append_assoc], by simp⟩

/-! ## Writes -/

/-- The checks of a write read registers alone, and not the count of requests. -/
theorem checkWrite_congr {r : Reg} {i : Nat} {v : WVal} (h : ∀ r i, r ≠ .bdapRequests → t.get r i = s.get r i) :
    t.checkWrite cl r i v = s.checkWrite cl r i v := by
  have n : ∀ r i, r ≠ .bdapRequests → t.nat r i = s.nat r i := fun r i hr => by simp only [State.nat, h r i hr]
  have hc : ∀ m, t.clientClass m = s.clientClass m := by
    intro m
    have e1 : t.registrationOf m = s.registrationOf m := by
      unfold State.registrationOf
      simp only [n .registrationRow _ (by decide)]
    have e2 : t.anyRegistration = s.anyRegistration := by
      unfold State.anyRegistration
      simp only [n .registrationRow _ (by decide)]
    unfold State.clientClass
    simp only [e1, e2, n .registrationRow _ (by decide), n .bdapUnregisteredClass _ (by decide)]
  have hd : t.rwdOpen = s.rwdOpen := by
    unfold State.rwdOpen
    simp only [h .deviceModeState _ (by decide), h .deviceModeBusy _ (by decide)]
  have hm : ∀ r, t.modeOpen r = s.modeOpen r := by
    intro r
    unfold State.modeOpen
    simp only [h .deviceModeState _ (by decide), h .deviceModeBusy _ (by decide)]
  unfold State.checkWrite State.accessAbort
  simp only [hc, hd, hm]

/-- A write that passes the checks has its object's own effect on the state that has taken it. -/
theorem serveWrite_allowed {r : Reg} {i : Nat} {v : WVal} {eff : State → State × Answer}
    (h : Safety.allowed s cl r i v) :
    ∃ a, clientAddress cl r i = some a ∧ s.serveWrite cl r i v eff = match eff (ready s cl) with
      | (t, .ack p) => t.reply cl (.ack (leBytes 2 a.1 ++ leBytes 1 a.2 ++ p))
      | (t, .abort c d p) => t.reply cl (.abort a.1 a.2 c d p) := by
  obtain ⟨hf, ha, hc⟩ := h
  obtain ⟨a, ha⟩ := Option.isSome_iff_exists.1 ha
  refine ⟨a, ha, ?_⟩
  unfold State.serveWrite
  rw [ha]
  simp only []
  rw [serve_fresh hf, checkWrite_congr (s := s) (fun r i hr => ready_get hr), hc]
  dsimp only
  split <;> rename_i e <;> split at e <;> simp_all

/-- A write that a check refuses draws the check's abort; a load of a wrong length also leaves its reason (R277). -/
theorem serveWrite_refused {r : Reg} {i : Nat} {v : WVal} {eff : State → State × Answer} {c d p : Nat}
    {a : Nat × Nat} (hf : Safety.fresh s cl) (ha : clientAddress cl r i = some a)
    (hc : s.checkWrite cl r i v = some (.abort c d p)) :
    s.serveWrite cl r i v eff
      = ((ready s cl).lengthRefused cl r (.abort c d p)).reply cl (.abort a.1 a.2 c d p) := by
  unfold State.serveWrite
  rw [ha]
  simp only []
  rw [serve_fresh hf, checkWrite_congr (s := s) (fun r i hr => ready_get hr), hc]

/-! ## A request that completes -/

theorem wide_events (l : List Reg) : Wide fun r => Safety.eventSide r || l.contains r := ⟨fun r h => by simp [h]⟩
theorem wide_requests (l : List Reg) : Wide fun r => Safety.requestSide r || l.contains r :=
  ⟨fun r h => by simp [wide_requestSide.wide r h]⟩

/-- Taking a request writes no register but its counter. -/
theorem apart_ready {K : Reg → Bool} (h : K .bdapRequests = true) : Apart K s (ready s cl) where
  regs r i e := ready_get (fun g => by rw [g, h] at e; cases e)
  blobs r i e := ready_blob

theorem bump_form (r : Reg) (i n : Nat) : ∃ a w, s.bump r i n = { s with regs := a, wraps := w } := by
  unfold State.bump
  dsimp only
  split <;> exact ⟨_, _, rfl⟩

/-- Beside registers, taking a request changes only the sources and the queue of requests. -/
theorem ready_form : ∃ a w q l, ready s cl = { s with regs := a, wraps := w, requests := q, sources := l } := by
  unfold ready State.dequeue
  split
  · exact ⟨_, _, _, _, rfl⟩
  · unfold State.take
    obtain ⟨a, w, h⟩ := bump_form (s := (s.hear cl.mac).setView cl _) .bdapRequests 0 1
    rw [h]
    exact ⟨_, _, _, _, rfl⟩

/-- Beside registers, sending a reply changes only the sources and what was sent. -/
theorem reply_form (a : Reply) : ∃ b w l o, s.reply cl a = { s with regs := b, wraps := w, sources := l, out := o } := by
  have each : ∀ (f : List Byte) (l : List (Fin 2)) (u : State), ∃ b w o, (u.each l fun s p =>
      (s.emit (.reply { cl with port := p } a f)).bump .mgtFramesTx p.val)
      = { u with regs := b, wraps := w, out := o } := by
    intro f l
    induction l with
    | nil => intro u; exact ⟨_, _, _, rfl⟩
    | cons p l ih =>
      intro u
      obtain ⟨b', w', h'⟩ := bump_form (s := u.emit (.reply { cl with port := p } a f)) .mgtFramesTx p.val 1
      obtain ⟨b, w, o, h⟩ := ih ((u.emit (.reply { cl with port := p } a f)).bump .mgtFramesTx p.val)
      unfold State.each at h ⊢
      rw [List.foldl_cons, h, h']
      exact ⟨_, _, _, rfl⟩
  have view : ∀ w, ∃ l, s.setView cl w = { s with sources := l } := fun w => ⟨_, rfl⟩
  unfold State.reply
  cases a with
  | ack p =>
    dsimp only
    generalize hv : s.setView cl _ = v
    obtain ⟨l, hl⟩ := view _
    rw [hl] at hv
    obtain ⟨b, w, o, h⟩ := each _ (cl.port :: _) v
    refine ⟨b, w, l, o, h.trans ?_⟩
    rw [← hv]
  | abort ix sub c d q =>
    dsimp only
    generalize hv : s.setView cl _ = v
    obtain ⟨l, hl⟩ := view _
    rw [hl] at hv
    obtain ⟨b', w', h'⟩ := bump_form (s := v) .bdapAborts 0 1
    obtain ⟨b, w, o, h⟩ := each _ (cl.port :: _) (v.bump .bdapAborts 0)
    refine ⟨b, w, l, o, h.trans ?_⟩
    rw [h', ← hv]

/-- A write that passes the checks and whose effect is accepted: what it leaves, and its ACK. -/
theorem write_completes {r : Reg} {i : Nat} {v : WVal} {eff : State → State × Answer} {p : List Byte}
    (h : Safety.allowed s cl r i v) (he : eff (ready s cl) = (t, .ack p)) (ho : s.out <+: t.out) :
    Safety.acked s (s.serveWrite cl r i v eff) cl ∧ (∀ r' j, r' ≠ .bdapAborts → r' ≠ .mgtFramesTx →
      (s.serveWrite cl r i v eff).get r' j = t.get r' j ∧ (s.serveWrite cl r i v eff).blob r' j = t.blob r' j) := by
  obtain ⟨a, -, hs⟩ := serveWrite_allowed (eff := eff) h
  rw [he] at hs
  dsimp only at hs
  rw [hs]
  exact ⟨⟨_, replied_reply ho⟩, fun r' j h1 h2 => ⟨reply_get h1 h2, reply_blob h1 h2⟩⟩

theorem write_frame {r : Reg} {i : Nat} {v : WVal} {eff : State → State × Answer} {p : List Byte} {l : List Reg}
    (h : Safety.allowed s cl r i v) (he : eff (ready s cl) = (t, .ack p))
    (hA : Apart (fun r => Safety.requestSide r || l.contains r) (ready s cl) t) :
    Safety.requestChanges l s (s.serveWrite cl r i v eff) := by
  obtain ⟨a, -, hs⟩ := serveWrite_allowed (eff := eff) h
  rw [he] at hs
  dsimp only at hs
  rw [hs]
  exact apart_iff.2 (apart_reply ((apart_ready rfl).trans hA) rfl rfl)

end Sys2Proof.Laws
end

