-- ==== Sys2Proof/Tests/Slice0.lean ====
section
/-! SUPPORT. Tests: the checks of WellFormed refuse, values taken from the manual's own examples and tables and from the
standards it names come out, and the hypotheses of every statement are met by a concrete state and operands, clause by
clause. -/

set_option Elab.async false

namespace Sys2Proof.Tests

open Sys2Proof Sys2Proof.Machine

/-- The block at work in Dormant with every other field as at reset. -/
def live : State := { State.reset with phase := .running }

/-- The same with some registers written. -/
def st (l : List (Reg × Nat × Int)) : State := l.foldl (fun s e => s.set e.1 e.2.1 e.2.2) live

/-- The block at work in a device mode. -/
def inMode (m : Int) (l : List (Reg × Nat × Int)) : State := st ((.deviceModeState, 0, m) :: l)

/-- A client at the native station; no registration row is valid, so it is a keeper (R353). -/
def cl : Client := ⟨5, 0, false, 1⟩

/-- A property of a state. -/
abbrev on (s : State) (p : State → Prop) : Prop := p s

/-- A property of another value. -/
abbrev about {α : Type} (a : α) (p : α → Prop) : Prop := p a

/-! ## Ill-formed commands -/

theorem test_wf_keeper : (Instr.bdapCommit cl).wellFormed = true := by decide
theorem test_wf_mac : (Instr.bdapCommit { cl with mac := 2 ^ 48 }).wellFormed = false := by decide
theorem test_wf_seq : (Instr.bdapCommit { cl with seq := 65536 }).wellFormed = false := by decide
theorem test_wf_frame_short : (Instr.bdapFrameReceive 0 (List.replicate 59 0) false).wellFormed = false := by
  decide +kernel
theorem test_wf_frame_long : (Instr.bdapFrameReceive 0 (List.replicate 1515 0) false).wellFormed = false := by
  decide +kernel
theorem test_wf_value : (Instr.bdapWrite cl 0x2000 1 0 (List.replicate 1389 0)).wellFormed = false := by
  decide +kernel
theorem test_wf_staged : (Instr.bdapStagedWrite cl 0x2000 1 0 (List.replicate 1389 0)).wellFormed = false := by
  decide +kernel
theorem test_wf_segment :
    (Instr.bdapWriteBlock cl 0x2E01 1 true true 2000 0 (List.replicate 1389 0)).wellFormed = false := by decide +kernel
theorem test_wf_offset : (Instr.timeStepOffset cl 0 (2 ^ 63)).wellFormed = false := by decide

/-! ## The queue of commands and the whole machine -/

theorem test_witness_StepRunsTheFrontCommand :
    ({ live with pending := [.timeTick] } : State).pending = .timeTick :: [] ∧ State.reset.pending = [] := ⟨rfl, rfl⟩

theorem test_witness_StepKeepsTheStateSound :
    let s : State := { live with pending := [.timeTick] }
    Safety.tablesCanonical s ∧ Safety.queuesCanonical s ∧ Safety.linesCanonical s ∧ Safety.capacities s
      ∧ ∃ t, step s = .next t ∧ t.get .xTicks 0 = 1 := by
  refine ⟨?_, ?_, ?_, ?_, _, rfl, ?_⟩
  · unfold Safety.tablesCanonical; decide +kernel
  · unfold Safety.queuesCanonical; decide +kernel
  · unfold Safety.linesCanonical; decide +kernel
  · unfold Safety.capacities Safety.ringsBounded Safety.managementBounded Safety.slotsDistinct Safety.entriesBounded
    decide +kernel
  · decide +kernel

theorem test_witness_EveryCommandCompletesInItsFrame :
    ∃ t, exec .keyprovNFall live = .next t ∧ t.get .cipherKeyprov 0 = 1
      ∧ Safety.Part.memory ∉ Safety.mayChange .keyprovNFall := by
  refine ⟨_, rfl, ?_⟩
  decide +kernel

theorem test_witness_MoverMemoryReadsWhatWasWritten : (1 : Nat) ≠ 0 ∧ Memory.wf State.reset.mem = true := by decide

/-! ## What every write request draws -/

/-- A registration row that makes the client's source of a class (R353). -/
def classed (k : Int) : State := st [(.registrationRow, 0, 2 ^ 63 + k * 2 ^ 48 + 5)]

theorem test_witness_RefusedWritesChangeNothing :
    Safety.writeOf (.warmResetCommand cl) = some (cl, .deviceReset, 0, .int 0x5752) ∧ Safety.fresh (classed 1) cl
      ∧ clientAddress cl .deviceReset 0 = some (0x2000, 10)
      ∧ (classed 1).checkWrite cl .deviceReset 0 (.int 0x5752) = some (.abort 9 0 0)
      ∧ (classed 1).flag .xResetDue 0 = false := by unfold Safety.fresh; decide +kernel

theorem test_witness_RefusedWritesChangeNothing_class :
    typeAbort cl .deviceReset 0 (.int 0x5752) = none
      ∧ typeAbort cl .bankStandby 24 (.bytes (List.replicate 120 1)) = none
      ∧ Reg.access .deviceReset ≠ .ro ∧ Reg.access .deviceReset ≠ .const
      ∧ (Reg.access .deviceReset = .rwd → (classed 1).rwdOpen = true) ∧ (classed 1).modeOpen .deviceReset = true
      ∧ (classed 1).clientClass cl.mac < 2 ∧ Reg.keeperOnly .deviceReset = true
      ∧ typeAbort cl .eventEnable 0 (.int 1) = none ∧ Reg.access .eventEnable ≠ .ro ∧ Reg.access .eventEnable ≠ .const
      ∧ (Reg.access .eventEnable = .rwd → (classed 0).rwdOpen = true) ∧ (classed 0).modeOpen .eventEnable = true
      ∧ (classed 0).clientClass cl.mac < 1 ∧ Reg.keeperOnly .eventEnable = false := by decide +kernel

theorem test_witness_StepKeepsTheStateSound_reset :
    ({ live with pending := [.warmResetCommand cl] } : State).flag .xResetDue 0 = false
      ∧ ∃ t, step { live with pending := [.warmResetCommand cl] } = .next t ∧ t.phase = .fuseLoad := by
  refine ⟨by decide +kernel, _, rfl, by decide +kernel⟩

/-- The client's source with one request answered before. -/
def answered : State := { live with sources := [⟨5, ⟨[], [⟨1, some (.ack []), []⟩], [], []⟩, emptyView⟩] }

theorem test_witness_RequestsNotServedRunNothing :
    ((Instr.bdapCommit cl).sender = some cl ∧ State.reset.answers cl = false ∧ State.reset.flag .xResetDue 0 = false
      ∧ (Instr.bdapCommit { cl with fore := true }).sender = some { cl with fore := true }
      ∧ live.answers { cl with fore := true } = false ∧ live.flag .xResetDue 0 = false)
      ∧ (on { live with requests := [⟨{ cl with mac := 6 }, .commit⟩] } fun s => s.requests = ⟨{ cl with mac := 6 }, .commit⟩ :: []
        ∧ { cl with mac := 6 } ≠ cl ∧ ReqBody.commit ≠ .malformed ∧ s.flag .xResetDue 0 = false)
      ∧ ((Instr.bdapCommit cl).sender = some cl ∧ Instr.bdapCommit cl ≠ .eventAckReceive cl ∧ answered.answers cl = true
        ∧ answered.isNext cl = true ∧ answered.clientClass cl.mac ≠ 3
          ∧ answered.repeated cl = some ⟨1, some (.ack []), []⟩
        ∧ answered.flag .xResetDue 0 = false)
      ∧ (classed 3).answers cl = true ∧ (classed 3).isNext cl = true ∧ (classed 3).clientClass cl.mac = 3
      ∧ (classed 3).flag .xResetDue 0 = false := by decide +kernel

/-! ## Boot and reset -/

theorem test_witness_ResetsKeepTheirItems :
    live.phase = .running ∧ ({ live with phase := .warmReset } : State).phase = .warmReset
      ∧ Safety.allowed live cl .deviceReset 0 (.int 0x5752) := by
  unfold Safety.allowed Safety.fresh; decide +kernel

theorem test_witness_ResetsAsTheModelReadsThem :
    live.phase = .running ∧ State.reset.phase = .coldReset
      ∧ (on { live with phase := .waitRails } fun s => s.phase = .waitRails)
      ∧ (on { live with phase := .fuseLoad } fun s => s.phase = .fuseLoad ∧ s.get .bootResetCause 0 = 0)
      ∧ (on { st [(.bootResetCause, 0, 2)] with phase := .fuseLoad } fun s =>
        s.phase = .fuseLoad ∧ s.get .bootResetCause 0 ≠ 0)
      ∧ (on { st [(.xWarmDue, 0, 1)] with phase := .fuseLoad } fun s =>
        s.phase = .fuseLoad ∧ s.flag .xWarmDue 0 = true)
      ∧ Safety.allowed live cl .deviceReset 0 (.int 0x5752) := by
  unfold Safety.allowed Safety.fresh; decide +kernel

theorem test_witness_PowerUpLatchesStrapsAndLoadsFuses :
    State.reset.phase = .coldReset ∧ ({ live with phase := .waitRails } : State).phase = .waitRails
      ∧ ({ live with phase := .fuseLoad } : State).phase = .fuseLoad
      ∧ ({ live with phase := .fuseLoad } : State).flag .xWarmDue 0 = false := by decide +kernel

theorem test_witness_StrapsAreSampledOnce :
    State.reset.phase = .coldReset
      ∧ ((511 : Fin 512).val = 256 * (1 : Fin 2).val + 64 * (3 : Fin 4).val + (63 : Fin 64).val)
      ∧ Safety.fresh live cl ∧ live.flag .xResetDue 0 = false ∧ Instr.timeTick ≠ .porstNLow
      ∧ ∃ t, exec .timeTick live = .next t ∧ t.get .xTicks 0 = 1 := by
  refine ⟨by decide, by decide, by unfold Safety.fresh; decide +kernel, by decide +kernel, by decide, _, rfl,
    by decide +kernel⟩

/-- A microcode image that passes every check: format 1, steppings 0x20 to 0x30, no payload, version 7. -/
def goodImage : List Byte :=
  let head := leBytes 4 0x314D435A ++ leBytes 2 1 ++ [0x20, 0x30] ++ leBytes 4 0 ++ leBytes 4 7
    ++ List.replicate 12 0
  head ++ leBytes 4 (crc32c head : Nat)

theorem test_witness_ImagesAreCheckedAndReported :
    (live.phase = .running ∧ live.get .bootStatus 0 = 0 ∧ imageStatus (some goodImage) = 0 ∧ imageStatus none ≠ 0
      ∧ field (live.nat .bootStraps 0) 6 2 ≠ 3)
      ∧ (on (st [(.bootStraps, 0, 192)]) fun s =>
        s.phase = .running ∧ s.get .bootStatus 0 = 0 ∧ field (s.nat .bootStraps 0) 6 2 = 3)
      ∧ (on (st [(.bootStatus, 0, 2)]) fun s =>
        Safety.allowed s cl .bootHostLoad 0 (.int 1) ∧ s.get .bootStatus 0 ≠ 0 ∧ s.get .bootStatus 0 ≠ 1
          ∧ imageStatus (some (s.blob .bootHostImage 0)) ≠ 0)
      ∧ (on ((st [(.bootStatus, 0, 2)]).setBlob .bootHostImage 0 goodImage) fun s =>
        Safety.allowed s cl .bootHostLoad 0 (.int 1) ∧ s.get .bootStatus 0 ≠ 0 ∧ s.get .bootStatus 0 ≠ 1
          ∧ imageStatus (some (s.blob .bootHostImage 0)) = 0)
      ∧ (Safety.allowed live cl .bootHostLoad 0 (.int 1) ∧ live.get .bootStatus 0 = 0
        ∧ Safety.allowed (st [(.bootStatus, 0, 1)]) cl .bootHostLoad 0 (.int 1)
        ∧ (st [(.bootStatus, 0, 1)]).get .bootStatus 0 = 1)
      ∧ live.phase ≠ .coldReset ∧ live.phase ≠ .warmReset
      ∧ Safety.allowed live cl .forerunnerEnable 0 (.int (ofFlag false))
      ∧ Safety.allowed live cl .forerunnerEnable 0 (.int (ofFlag true)) := by
  unfold Safety.allowed Safety.fresh; decide +kernel

/-! ## Device modes and carrier requests -/

/-- Refused requests: the reasons in the order of the statement. -/
theorem test_witness_ModeRequestsAreRefused :
    Safety.writeOf (.requestTrim cl) = some (cl, .deviceModeRequest, 0, .int (1 : Fin 5).val)
      ∧ Safety.writeOf (.requestCatch cl) = some (cl, .deviceModeRequest, 0, .int (2 : Fin 5).val)
      ∧ (on (st [(.deviceModeBusy, 0, 1)]) fun s =>
        Safety.allowed s cl .deviceModeRequest 0 (.int 1) ∧ s.flag .deviceModeBusy 0 = true)
      ∧ (Safety.allowed live cl .deviceModeRequest 0 (.int 2) ∧ live.flag .deviceModeBusy 0 = false
        ∧ live.get .deviceModeState 0 < 5 ∧ live.get .deviceModeState 0 + 1 < 2)
      ∧ (Safety.allowed live cl .deviceModeRequest 0 (.int 1) ∧ live.get .deviceModeState 0 = 0
        ∧ live.get .bootStatus 0 ≠ 1 ∧ live.get .bootStatus 0 ≠ 6)
      ∧ (on (st [(.bootStatus, 0, 1)]) fun s =>
        Safety.allowed s cl .deviceModeRequest 0 (.int 1) ∧ s.flag .deviceModeBusy 0 = false
          ∧ s.get .deviceModeState 0 = 0 ∧ s.get .bootStatus 0 = 1 ∧ s.flag .xHbmTrained 0 = false) := by
  refine ⟨rfl, rfl, ?_⟩
  unfold Safety.allowed Safety.fresh; decide +kernel

theorem test_witness_ModeRequestsAreRefused_in_haven :
    (on (inMode 5 []) fun s =>
        Safety.allowed s cl .deviceModeRequest 0 (.int 2) ∧ s.get .xHavenPeriod 0 ≠ s.loopPeriod
          ∧ s.flag .deviceModeBusy 0 = false
          ∧ s.get .deviceModeState 0 = 5)
      ∧ (on (inMode 5 [(.deviceHavenCauses, 0, 8)]) fun s =>
        Safety.allowed s cl .deviceModeRequest 0 (.int 1) ∧ s.flag .deviceModeBusy 0 = false
          ∧ s.get .deviceModeState 0 = 5 ∧ s.bit .deviceHavenCauses 0 3 = true)
      ∧ (on (inMode 5 [(.deviceHavenCauses, 0, 2), (.railState, 0, 1)]) fun s =>
        Safety.allowed s cl .deviceModeRequest 0 (.int 1) ∧ s.flag .deviceModeBusy 0 = false
          ∧ s.get .deviceModeState 0 = 5 ∧ s.bit .deviceHavenCauses 0 3 = false ∧ s.causePersists = true)
      ∧ (on (inMode 5 [(.xHavenPeriod, 0, 1)]) fun s =>
        Safety.allowed s cl .deviceModeRequest 0 (.int 4) ∧ s.get .xHavenPeriod 0 = s.loopPeriod)
      ∧ (on (inMode 3 []) fun s => Safety.allowed s cl .deviceModeRequest 0 (.int 4) ∧ s.flag .deviceModeBusy 0 = false
        ∧ s.pairBlock ≠ 0)
      ∧ (on (inMode 4 [(.pairRole, 0, 2), (.xPartnerRole, 0, 1), (.tieState, 0, 2), (.tieLanesLocked, 0, 15)]) fun s =>
        Safety.allowed s cl .deviceModeRequest 0 (.int 3) ∧ s.flag .deviceModeBusy 0 = false
          ∧ s.get .deviceModeState 0 = 4 ∧ s.get .pairRole 0 = 2 ∧ s.get .xPartnerRole 0 = 1 ∧ s.tieUp = true) := by
  unfold Safety.allowed Safety.fresh; decide +kernel

theorem test_witness_ModeRequestsAreRefused_cause :
    on (inMode 5 [(.xCausePeriod, 0, 1)]) fun s =>
      Safety.allowed s cl .deviceModeRequest 0 (.int 1) ∧ s.get .xHavenPeriod 0 ≠ s.loopPeriod
        ∧ s.flag .deviceModeBusy 0 = false ∧ s.get .deviceModeState 0 = 5 ∧ s.bit .deviceHavenCauses 0 3 = false
        ∧ s.get .xCausePeriod 0 = s.loopPeriod := by
  unfold Safety.allowed Safety.fresh; decide +kernel

theorem test_witness_ModeTransitionsStart :
    (on (st [(.bootStatus, 0, 6), (.xHbmTrained, 0, 1)]) fun s =>
      Safety.allowed s cl .deviceModeRequest 0 (.int 1) ∧ s.flag .deviceModeBusy 0 = false
        ∧ s.get .deviceModeState 0 = 0 ∧ s.get .bootStatus 0 = 6 ∧ s.flag .xHbmTrained 0 = true)
      ∧ (on (inMode 5 [(.deviceHavenCauses, 0, 1)]) fun s =>
        Safety.allowed s cl .deviceModeRequest 0 (.int 1) ∧ s.flag .deviceModeBusy 0 = false
          ∧ s.get .deviceModeState 0 = 5 ∧ s.get .xHavenPeriod 0 ≠ s.loopPeriod ∧ s.get .xCausePeriod 0 ≠ s.loopPeriod
          ∧ s.bit .deviceHavenCauses 0 3 = false ∧ s.causePersists = false)
      ∧ (Safety.allowed (inMode 1 []) cl .deviceModeRequest 0 (.int 2) ∧ (inMode 1 []).flag .deviceModeBusy 0 = false)
      ∧ (Safety.allowed (inMode 2 []) cl .deviceModeRequest 0 (.int 3) ∧ (inMode 2 []).flag .deviceModeBusy 0 = false)
      ∧ (on (inMode 3 [(.tieState, 0, 2), (.tieLanesLocked, 0, 15), (.pairPartnerMode, 0, 3),
            (.xPartnerStrap, 0, 1)]) fun s =>
        Safety.allowed s cl .deviceModeRequest 0 (.int 4) ∧ s.flag .deviceModeBusy 0 = false
          ∧ s.get .deviceModeState 0 = 3 ∧ s.pairBlock = 0) := by
  unfold Safety.allowed Safety.fresh; decide +kernel

theorem test_witness_ModeTransitionsStart_downward :
    (on (inMode 4 [(.carrierState, 0, 4)]) fun s => s.flag .deviceModeBusy 0 = false ∧ s.get .deviceModeState 0 ≤ 4
        ∧ Safety.allowed s cl .deviceModeRequest 0 (.int 1) ∧ Safety.allowed s cl .deviceModeRequest 0 (.int 2)
        ∧ s.get .carrierState 0 = 4 ∧ Safety.allowed s cl .deviceModeRequest 0 (.int 3) ∧ s.get .deviceModeState 0 = 4
        ∧ ¬ (s.get .pairRole 0 = 2 ∧ s.get .xPartnerRole 0 = 1 ∧ s.tieUp = true))
      ∧ (Safety.allowed (inMode 2 []) cl .deviceModeRequest 0 (.int (2 : Fin 5).val)
        ∧ (inMode 2 []).get .deviceModeState 0 = (2 : Fin 5).val)
      ∧ Safety.allowed (inMode 1 []) cl .deviceModeRequest 0 (.int 0) ∧ 1 ≤ (inMode 1 []).get .deviceModeState 0 := by
  unfold Safety.allowed Safety.fresh; decide +kernel

theorem test_witness_HavenIsEnteredAndTransitionsComplete :
    (on (inMode 3 [(.deviceModeBusy, 0, 1)]) fun s =>
      Safety.allowed s cl .deviceModeRequest 0 (.int 5) ∧ s.get .deviceModeState 0 ≠ 5
        ∧ s.get .deviceHavenTxPolicy 0 = 0)
      ∧ (on (inMode 3 [(.xShutdown, 0, 1)]) fun s => Safety.allowed s cl .deviceModeRequest 0 (.int 5)
        ∧ s.flag .xShutdown 0 = true)
      ∧ (Safety.allowed (inMode 5 []) cl .deviceModeRequest 0 (.int 5) ∧ (inMode 5 []).get .deviceModeState 0 = 5)
      ∧ (on (inMode 1 [(.deviceModeBusy, 0, 1), (.xTarget, 0, 2)]) fun s =>
        s.phase = .running ∧ s.flag .deviceModeBusy 0 = true ∧ s.transitionReady = true)
      ∧ (on (st [(.deviceModeBusy, 0, 1), (.xTarget, 0, 1)]) fun s =>
        s.phase = .running ∧ s.flag .deviceModeBusy 0 = true ∧ s.transitionReady = false) := by
  unfold Safety.allowed Safety.fresh; decide +kernel

theorem test_witness_CarrierRequestsAreStoredAndActedOn :
    Safety.allowed (st [(.carrierState, 11, 4)]) cl .carrierRequest 11 (.int (0 : Fin 256).val)
      ∧ Safety.allowed (st [(.carrierState, 11, 4)]) cl .carrierRequest 11 (.int (1 : Fin 256).val)
      ∧ (Safety.allowed live cl .carrierRequest 0 (.int (2 : Fin 256).val) ∧ live.get .carrierBondGroup 0 = 0xFF
        ∧ live.get .carrierState 0 ≠ 4)
      ∧ (st [(.carrierState, 11, 4)]).get .carrierBondGroup 11 = 0xFF
      ∧ (st [(.carrierState, 11, 4)]).get .carrierState 11 = 4 := by
  unfold Safety.allowed Safety.fresh; decide +kernel

/-! ## Guard loops, rails, temperature -/

/-- A law at 620 mV with 20 periods since its last change. -/
def law : Law := ⟨6200, 6200, 19, 20, false, false⟩

theorem test_witness_GuardPeriodsAndRailSamplesAreJudged_law :
    6200 ≤ law.set ∧ law.set ≤ 9200 ∧ law.set < law.base + 400 ∧ { law with set := 6600 }.base + 400 ≤ (6600 : Int)
      ∧ 19 ≤ law.zeroRun ∧ 20 ≤ law.since := by decide

theorem test_witness_GuardPeriodsAndRailSamplesAreJudged :
    (live.phase = .running ∧ (inMode 5 [(.xMute, 0, 1)]).phase = .running
      ∧ (inMode 5 [(.xMute, 0, 1)]).get .deviceModeState 0 = 5 ∧ (inMode 5 [(.xMute, 0, 1)]).flag .xMute 0 = true
      ∧ (inMode 3 []).trafficFirst = true ∧ 6200 ≤ (inMode 3 []).get .guardSetpoint 4
      ∧ (inMode 3 []).get .guardSetpoint 4 ≤ 9200)
      ∧ (live.controlLost 4 = false ∧ live.get .deviceModeState 0 ≠ 5 ∧ 200 ≤ (st [(.xTopRun, 4, 200)]).get .xTopRun 4
        ∧ 3 ≤ (inMode 5 [(.xAvsFail, 0, 3)]).get .xAvsFail 0)
      ∧ (live.belowFloor 0 65535 = false ∧ live.belowFloor 0 0 = true ∧ live.get .railState 0 = 0
        ∧ (st [(.railState, 9, 1)]).belowFloor 9 0 = true ∧ (st [(.railState, 9, 1)]).get .railState 9 ≠ 0)
      ∧ live.get .xRailRun 0 < 200
      ∧ (on (st [(.railState, 9, 1), (.xRailRun, 9, 200)]) fun s => s.phase = .running ∧ s.get .railState 9 = 1
        ∧ 200 ≤ s.get .xRailRun 9 ∧ s.get .deviceModeState 0 ≠ 5)
      ∧ (on (inMode 5 [(.railState, 9, 1), (.xRailRun, 9, 200)]) fun s => s.get .railState 9 = 1
        ∧ 200 ≤ s.get .xRailRun 9 ∧ s.get .deviceModeState 0 = 5) := by
  decide +kernel

theorem test_witness_SensorsFailAndShutdownIsRecorded :
    (live.phase = .running ∧ live.sensorValid 39 = true ∧ (-720 : Int) ≤ 0 ∧ (0 : Int) ≤ 2400
      ∧ live.get .xSenSame 39 < 63 ∧ live.disagrees 39 0 = false ∧ (-721 : Int) < -720 ∧ (2400 : Int) < 2401)
      ∧ (on (st [(.sensorState, 39, 1)]) fun s =>
        Safety.allowed s cl .sensorReadmit 39 (.int 1) ∧ s.get .sensorState 39 ≠ 0 ∧ s.get .sensorState 39 ≠ 4)
      ∧ live.usSince .xSenPassAt 39 1000000 = false
      ∧ (on (st [(.sensorState, 39, 4), (.xTicks, 0, 250000000)]) fun s => s.phase = .running
        ∧ s.get .sensorState 39 = 4 ∧ s.usSince .xSenPassAt 39 1000000 = true)
      ∧ ((st [(.xShutdown, 0, 1)]).phase = .running ∧ (st [(.xShutdown, 0, 1)]).flag .xShutdown 0 = true
        ∧ (st [(.xShutdown, 0, 1)]).get .deviceModeState 0 ≠ 5
          ∧ (inMode 5 [(.xShutdown, 0, 1)]).flag .xShutdown 0 = true
        ∧ (inMode 5 [(.xShutdown, 0, 1)]).get .deviceModeState 0 = 5)
      ∧ Safety.allowed (st [(.throttleShed, 0, 2049)]) cl .throttleShed 0 (.int (2048 : Fin 65536).val) := by
  unfold Safety.allowed Safety.fresh; decide +kernel

/-! ## Slack buffers -/

/-- The block with the receive slack buffer of carrier 0 filled in. -/
def slacked (l : List SlackItem) (r : List (Reg × Nat × Int)) : State := { st r with rxSlack := [(0, l)] }

theorem test_witness_StrokesPassTheSlackBuffers :
    (on (st [(.carrierState, 0, 1), (.carrierConvSynthState, 0, 10), (.xRxLost, 0, 3)]) fun s =>
      s.phase = .running ∧ s.get .carrierState 0 ≠ 0 ∧ s.flag .xRelock 0 = false ∧ 2 ≤ s.rxLoop 0
        ∧ s.flag .xGainDue 0 = false ∧ s.get .carrierSlackRxFill 0 < 1024)
      ∧ (on (st [(.carrierState, 0, 1), (.carrierConvSynthState, 0, 10), (.carrierSlackRxFill, 0, 1024)]) fun s =>
        s.phase = .running ∧ s.get .carrierState 0 ≠ 0 ∧ s.flag .xRelock 0 = false ∧ 2 ≤ s.rxLoop 0
          ∧ s.flag .xGainDue 0 = false ∧ 1024 ≤ s.get .carrierSlackRxFill 0)
      ∧ (on (st [(.carrierConvSynthState, 11, 10)]) fun s => s.phase = .running ∧ s.get .carrierState 11 = 0
        ∧ 2 ≤ s.rxLoop 11 ∧ s.flag .xGainDue 11 = false)
      ∧ (on (slacked [.set true []] [(.carrierState, 0, 1), (.carrierSlackRxFill, 0, 513)]) fun s =>
        s.phase = .running ∧ s.get .carrierState 0 ≠ 0 ∧ s.get .xHandRx (0 / 3) < 128
          ∧ s.get .carrierSlackRxTarget 0 < s.get .carrierSlackRxFill 0
          ∧ s.slack 0 = [.set true []] ∧ s.get .captureState 0 ≠ 1 ∧ s.get .captureState 0 ≠ 2)
      ∧ ((slacked [.gap 32] []).slack 0 = .gap 32 :: [] ∧ (slacked [.gap 33] []).slack 0 = .gap 33 :: []
        ∧ (slacked [.gap 32] []).phase = .running)
      ∧ (on (st [(.xRxLost, 0, 1)]) fun s =>
        s.phase = .running ∧ s.get .xRxLost 0 ≠ 0 ∧ s.get .carrierSlackRxFill 0 < 1024) := by decide +kernel

theorem test_witness_StrokesPassTheSlackBuffers_transmit :
    (on (st [(.carrierState, 0, 1), (.xHandTx, 0, 1)]) fun s =>
        s.phase = .running ∧ s.get .carrierState 0 ≠ 0 ∧ s.get .carrierSlackTxFill 0 = 0 ∧ s.get .xTxOwed 0 = 0
          ∧ s.get .xHandTx (0 / 3) ≠ 0 ∧ s.get .carrierSlackTxFill 0 < s.get .carrierSlackTxTarget 0)
      ∧ (on { st [(.carrierState, 0, 1), (.carrierSlackTxFill, 0, 1), (.xTxOwed, 0, 1)] with
          txSlack := [(0, [[]])] } fun s =>
        s.phase = .running ∧ s.get .carrierState 0 ≠ 0 ∧ s.get .carrierSlackTxFill 0 ≠ 0 ∧ s.get .xTxOwed 0 ≠ 0
          ∧ s.strokes 0 = [] :: [] ∧ s.get .carrierSlackTxFill 0 = (([] :: [] : List Stroke).length : Nat)) := by
  decide +kernel

/-! ## Line converters -/

theorem test_witness_ReferencesDriveTheirLoops :
    (on (st [(.reflState, 3, 1), (.carrierConvSynthState, 11, 10)]) fun s =>
      s.phase = .running ∧ s.get .reflState 3 = 1 ∧ 11 / 3 = (3 : Fin 4).val ∧ 2 ≤ s.rxLoop 11)
      ∧ (on (st [(.carrierConvSynthState, 10, 15), (.carrierConvSynthState, 11, 15), (.carrierState, 11, 3)]) fun s =>
        s.phase = .running ∧ s.rxLoop 10 = 3 ∧ s.get .carrierState 10 = 0 ∧ s.rxLoop 11 = 3
          ∧ s.get .carrierState 11 ≠ 0 ∧ 3 ≤ s.get .carrierState 11)
      ∧ (100000 : Int).natAbs ≤ 100000 ∧ 100000 < (-100001 : Int).natAbs
      ∧ (on (st [(.reflState, 3, 1), (.carrierConvSynthState, 11, 5)]) fun s => s.phase = .running
        ∧ s.get .reflState 3 = 1 ∧ s.rxLoop 11 = 1 ∧ s.flag .xRelock 11 = false)
      ∧ (on (st [(.reflState, 3, 2), (.carrierConvSynthState, 11, 5)]) fun s => s.phase = .running
        ∧ s.get .reflState 3 ≠ 1 ∧ s.rxLoop 11 = 1 ∧ s.flag .xRelock 11 = false) := by decide +kernel

/-- Carrier 0 seeks with its receive loop locked. -/
def seeking (l : List (Reg × Nat × Int)) : State :=
  st ((.carrierState, 0, 1) :: (.carrierConvSynthState, 0, 10) :: l)

theorem test_witness_GainStepsFollowTheWindow :
    (on (seeking [(.xAgcSets, 0, 256), (.xAgcGood, 0, 16), (.xAgcSum, 0, 65535 ^ 2 * 4096), (.adcAgcMode, 2, 0),
        (.adcAgcGain, 0, 5), (.adcAgcGain, 3, 36)]) fun s =>
      s.phase = .running ∧ 256 ≤ s.nat .xAgcSets 0 ∧ 16 ≤ s.nat .xAgcGood 0
        ∧ (let above := fun n => aboveWindow (s.nat .xAgcSum n) (256 * s.nat .xAgcGood 0) (s.nat .adcAgcTarget n)
              (s.nat .adcAgcHysteresis n)
          let below := fun n => belowWindow (s.nat .xAgcSum n) (256 * s.nat .xAgcGood 0) (s.nat .adcAgcTarget n)
              (s.nat .adcAgcHysteresis n)
          s.get .adcAgcMode 0 = 1 ∧ above 0 = true ∧ s.get .adcAgcMode 1 = 1 ∧ above 1 = false ∧ below 1 = true
            ∧ s.get .adcAgcGain 1 ≠ 36 ∧ s.get .adcAgcMode 2 ≠ 1 ∧ s.get .adcAgcMode 3 = 1 ∧ above 3 = false
            ∧ below 3 = true ∧ s.get .adcAgcGain 3 = 36))
      ∧ (on (st [(.xAgcSets, 0, 256), (.xAgcGood, 0, 16), (.adcAgcMode, 0, 0), (.adcAgcMode, 1, 0), (.adcAgcMode, 2, 0),
          (.adcAgcMode, 3, 0)]) fun s => 256 ≤ s.nat .xAgcSets 0 ∧ 16 ≤ s.nat .xAgcGood 0
        ∧ ∀ n : Fin 4, s.get .adcAgcMode n ≠ 1)
      ∧ (on (st [(.xAgcSets, 11, 256), (.xAgcGood, 11, 15)]) fun s => s.phase = .running ∧ 256 ≤ s.nat .xAgcSets 11
        ∧ s.nat .xAgcGood 11 < 16)
      ∧ (st [(.xAgcSets, 11, 255)]).nat .xAgcSets 11 < 256
      ∧ (on (seeking [(.xGainDue, 0, 1)]) fun s =>
        s.phase = .running ∧ s.get .carrierState 0 ≠ 0 ∧ s.rxHeld 0 = false ∧ s.flag .xGainDue 0 = true
          ∧ s.get .xGainWait 0 = 0)
      ∧ live.flag .xGainDue 11 = false ∧ (st [(.xGainWait, 11, 1)]).get .xGainWait 11 ≠ 0
      ∧ (on (seeking [(.adcAgcMode, 3, 2), (.adcAgcManualGain, 3, 1)]) fun s =>
        s.phase = .running ∧ s.get .carrierState 0 ≠ 0 ∧ s.rxHeld 0 = false ∧ s.flag .xGainDue 0 = false
          ∧ s.get .xFlagNext 0 = 0
          ∧ s.get .adcAgcMode 3 = 2 ∧ s.get .adcAgcGain 3 < s.get .adcAgcManualGain 3) := by decide +kernel

theorem test_witness_ConverterTestsReport :
    (on (inMode 1 []) fun s =>
        Safety.allowed s cl .carrierOpenTestRequest 0 (.int 1) ∧ s.flag .carrierOpenTestBusy 0 = false
          ∧ s.get .carrierState 0 = 0)
      ∧ (st [(.carrierOpenTestBusy, 0, 1)]).flag .carrierOpenTestBusy 0 = true
      ∧ ((st [(.xPowered, 0, 1)]).phase = .running ∧ (st [(.xPowered, 0, 1)]).flag .xPowered 0 = true
        ∧ (st [(.xPowered, 0, 1)]).bit .dacShortState 47 1 = false)
      ∧ (on (st [(.xPowered, 0, 1), (.dacShortState, 47, 2), (.xTicks, 0, 25000000)]) fun s =>
        s.bit .dacShortState 47 1 = true ∧ s.flag .dacShortRetryEnable 47 = true ∧ s.flag .xTrial 95 = false
          ∧ s.usSince .xShortAt (2 * 47 + 1) (1000 * s.get .dacShortRetryInterval 47) = true)
      ∧ live.usSince .xShortAt (2 * 47 + 1) (1000 * live.get .dacShortRetryInterval 47) = false
      ∧ (st [(.xTrial, 95, 1)]).flag .xTrial 95 = true := by
  unfold Safety.allowed Safety.fresh; decide +kernel

theorem test_witness_StrokeBoundariesPutSettingsInForce :
    (on (st [(.xPowered, 0, 1), (.xWiringDue, 0, 1), (.xWiringDue, 11, 8)]) fun s =>
      s.phase = .running ∧ s.flag .xPowered 0 = true ∧ s.get .xWiringDue 0 = (0 : Fin 8).val + 1
        ∧ s.get .xWiringDue 11 = (7 : Fin 8).val + 1) := by decide +kernel

/-! ## Converter calibration -/

/-- A measurement inside every limit, and one that did not complete. -/
def goodUnit : CalUnit := ⟨0, 0, 0, 0, 10000, true⟩
def badUnit : CalUnit := ⟨0, 0, 0, 0, 0, false⟩

/-- A converter with one background measurement under way. -/
def measuring (l : List ((Reg × Nat) × Int)) : State := { live with regs := l ++ [((.xCalBusy, 0), 1)] }

theorem test_witness_CalibrationCommitsRotatesAndRefuses :
    (Safety.allowed (inMode 1 []) cl .calFgRequest 0 (.int (2049 : Fin 65536).val)
      ∧ ∀ c < 12, bitOf 2049 c = true → (inMode 1 []).flag .xFgCal c = false)
      ∧ (Safety.allowed (inMode 1 [(.xFgCal, 11, 1)]) cl .calFgRequest 0 (.int (2048 : Fin 65536).val)
        ∧ ∃ c < 12, bitOf 2048 c = true ∧ (inMode 1 [(.xFgCal, 11, 1)]).flag .xFgCal c = true)
      ∧ ((st [(.xFgCal, 11, 1)]).flag .xFgCal 11 = true
        ∧ (∀ k < 65, brokenLimit ((st []).referenceAim 11) (calUnitOf ⟨List.replicate 65 goodUnit, [], []⟩ k) none = none)
        ∧ ((st []).get .convCalState 47 ≠ 3 ∧ (st []).get .convCalState 95 ≠ 3)
        ∧ (on (st [(.xFgCal, 11, 1), (.convCalState, 47, 3)]) fun s => s.flag .xFgCal 11 = true
          ∧ ¬ (s.get .convCalState 47 ≠ 3 ∨ s.bit .calFgBusy 0 11 = true))
        ∧ (st [(.convCalState, 47, 3), (.calFgBusy, 0, 2048)]).bit .calFgBusy 0 11 = true
        ∧ ∃ j < 65, ∃ k < 65, j < k
          ∧ (brokenLimit ((st []).referenceAim 11) (calUnitOf ⟨[], [], []⟩ j) none).isSome = true
          ∧ (brokenLimit ((st []).referenceAim 11) (calUnitOf ⟨[], [], []⟩ k) none).isSome = true
          ∧ ∀ i < j, (brokenLimit ((st []).referenceAim 11) (calUnitOf ⟨[], [], []⟩ i) none).isSome = false)
      ∧ (on (inMode 2 [(.xPowered, 0, 1), (.convCalState, 0, 1), (.convCalState, 95, 2),
            (.carrierConvSynthState, 0, 10), (.carrierConvSynthState, 11, 10)]) fun s =>
        s.phase = .running ∧ s.bgOn = true ∧ s.get .convCalState 0 = 1 ∧ s.get .convCalState 95 = 2
          ∧ s.flag .xCalBusy 0 = false ∧ s.flag .xCalBusy 95 = false ∧ s.rxHeld (convCarrier 0) = false
          ∧ s.bgDue 0 = true ∧ s.bgDue 95 = true
          ∧ s.txLoop (convCarrier 95) = 2)
      ∧ live.bgOn = false ∧ (st [(.xCalStepLen, 95, 1)]).bgDue 95 = false
      ∧ (on (measuring [((.xCalFailRun, 64), 2)]) fun s =>
        s.flag .xCalBusy 0 = true
          ∧ brokenLimit (s.referenceAim (convCarrier 0)) { goodUnit with skew := goodUnit.skew + recordSkew (s.recordAt 0 (s.calServing 0)) }
          (some (s.recordAt 0 (s.nat .convCalResting 0))) = none
          ∧ brokenLimit (s.referenceAim (convCarrier 0)) { badUnit with skew := badUnit.skew + recordSkew (s.recordAt 0 (s.calServing 0)) }
          (some (s.recordAt 0 (s.nat .convCalResting 0))) = some 10
          ∧ s.get .xCalFailRun (68 * 0 + s.nat .convCalResting 0) = 2)
      ∧ (measuring []).get .xCalFailRun (68 * 0 + (measuring []).nat .convCalResting 0) ≠ 2 := by
  unfold Safety.allowed Safety.fresh; decide +kernel

theorem test_witness_CalibrationCommitsRotatesAndRefuses_lost (k : Nat) :
    (measuring []).flag .xCalLost (68 * 0 + k) = false := by
  simp only [State.flag, State.get, measuring, live, State.reset, List.nil_append, sget]; rfl

/-! ## Transmit shaping, dispersion and deskew -/

theorem test_witness_BanksTakeForceAndDeskewTrims :
    (Safety.allowed live cl .bankStandby 24 (.bytes (List.replicate 120 1)) ∧ live.flag .bankBusy 24 = false)
      ∧ (on (st [(.bankBusy, 24, 1)]) fun s =>
        Safety.allowed s cl .bankStandby 24 (.bytes (List.replicate 120 1)) ∧ s.flag .bankBusy 24 = true)
      ∧ (Safety.allowed live cl .bankCommit 71 (.int 1) ∧ live.flag .bankBusy 71 = false)
      ∧ (Safety.allowed live cl .bankCommit 12 (.int 2) ∧ live.flag .bankBusy 12 = false ∧ 12 / 12 = 1)
      ∧ (Safety.allowed live cl .bankCommit 59 (.int 2) ∧ live.flag .bankBusy 59 = false ∧ 59 / 12 = 4)
      ∧ (Safety.allowed live cl .bankCommit 0 (.int 2) ∧ 0 / 12 ≠ 1 ∧ 0 / 12 ≠ 4) := by
  unfold Safety.allowed Safety.fresh; decide +kernel

theorem test_witness_BanksTakeForceAndDeskewTrims_ends :
    (on (st [(.xBankFading, 12, 1), (.xFadeSets, 12, 20)]) fun s => s.phase = .running ∧ s.flag .xBankFading 12 = true
        ∧ 20 ≤ s.get .xFadeSets 12 ∧ s.blob .xBankHole 12 = [])
      ∧ (live.flag .xBankFading 12 = false ∧ (st [(.xFadeSets, 12, 19)]).get .xFadeSets 12 < 20)
      ∧ (on (st [(.xBankComputing, 12, 1), (.xBankComputing, 13, 1), (.carrierState, 1, 1)]) fun s =>
        s.phase = .running ∧ s.flag .xBankComputing 12 = true ∧ s.get .xBankPending 12 = 0
          ∧ s.flag .xBankFading 12 = false ∧ s.idle (12 % 12) = true ∧ s.blob .xBankHole 12 = []
            ∧ s.flag .xBankComputing 13 = true
          ∧ s.get .xBankPending 13 = 0 ∧ s.flag .xBankFading 13 = false ∧ s.idle (13 % 12) = false)
      ∧ (on (st [(.carrierState, 0, 3), (.carrierRxSkewAuto, 0, 1), (.carrierRxSkewXi, 0, -4095),
            (.carrierRxSkewXq, 0, 4095), (.xTicks, 0, 250000)]) fun s =>
        s.phase = .running ∧ s.upLine 0 = true ∧ s.flag .carrierRxSkewAuto 0 = true
          ∧ s.bit .carrierRxHolding 0 4 = false ∧ s.flag .xDeskewErased 0 = false
          ∧ s.get .xTrimTick (4 * 0 + 0) + 250000 ≤ s.get .xTicks 0 ∧ (1 : Int).natAbs < 2
            ∧ -4095 ≤ s.get (rxSkewReg 0) 0
          ∧ s.get (rxSkewReg 0) 0 ≤ 4096 ∧ -4096 ≤ s.get (rxSkewReg 1) 0 ∧ s.get (rxSkewReg 1) 0 ≤ 4095)
      ∧ (st [(.xDeskewErased, 11, 1)]).flag .xDeskewErased 11 = true := by
  decide +kernel

/-! ## The receive chain -/

/-- Carrier 0 is Locked with its receive loop locked. -/
def locked (l : List (Reg × Nat × Int)) : State := st ((.carrierState, 0, 3) :: (.carrierConvSynthState, 0, 10) :: l)

/-- A symbol released by stage 8, and one that waits there, erased. -/
def anyDecision : Decision := ⟨0, 0, none, 0, ((0, 0), (0, 0)), ((0, 0), (0, 0)), (0, 0), false, true⟩
def erasedSymbol : RxSymbol := ⟨0, none, ((0, 0), (0, 0)), true⟩

theorem test_witness_ReceiveTapsAdaptAndSlipsResolve :
    (on (locked []) fun s => s.phase = .running ∧ s.idle 0 = false ∧ s.get .carrierRxPolState 0 ≠ 4
        ∧ (sget s.polQueue 0 []).length < 6)
      ∧ (on { locked [(.carrierRxPolState, 0, 4)] with polQueue := [(0, List.replicate 6 [])] } fun s =>
        s.phase = .running ∧ s.idle 0 = false ∧ s.get .carrierRxPolState 0 = 4
          ∧ sget s.polQueue 0 [] = [] :: List.replicate 5 [] ∧ 6 ≤ (sget s.polQueue 0 []).length)
      ∧ (st [(.carrierState, 0, 3), (.carrierConvSynthState, 0, 15)]).rxStopped 0 = true
      ∧ (locked [(.xPolFrozen, 0, 2)]).bit .xPolFrozen 0 1 = true
      ∧ (on (locked [(.carrierNcInForce, 0, 1), (.carrierNcSideState, 0, 0), (.carrierNcSideState, 12, 0)]) fun s =>
        s.sideTaps 0 0 = some (List.replicate 240 0) ∧ s.sideTaps 0 1 = some (List.replicate 240 0))
      ∧ live.sideTaps 0 0 = none ∧ live.sideTaps 0 1 = none
      ∧ (on { live with rxLine := [(0, { RxLine.start with delay := [anyDecision] })] } fun s =>
        s.phase = .running ∧ (s.rx 0).delay.take 16 = anyDecision :: [])
      ∧ (st [(.carrierNcLowerInForce, 0, 1), (.carrierNcUpperInForce, 0, 2)]).neighbour 0 0 ≠ 0xFF
      ∧ (st [(.carrierNcLowerInForce, 0, 1), (.carrierNcUpperInForce, 0, 2)]).neighbour 0 1 ≠ 0xFF
      ∧ (512 : Int).natAbs ≤ 512 ∧ (2560 : Int) = 2048 * 1 + 512 := by decide +kernel

theorem test_witness_ReceiveTapsAdaptAndSlipsResolve_group :
    (on (locked [(.carrierNcInForce, 0, 1)]) fun s => s.phase = .running ∧ 2 ≤ s.get .carrierState 0
        ∧ s.upLine 0 = true ∧ s.get .carrierNcInForce 0 ≠ 0)
      ∧ (on (st [(.carrierState, 0, 2), (.carrierConvSynthState, 0, 10)]) fun s => 2 ≤ s.get .carrierState 0
        ∧ s.upLine 0 = false)
      ∧ (live.phase = .running ∧ live.get .carrierState 0 < 2)
      ∧ (on (st [(.carrierState, 0, 4), (.carrierConvSynthState, 0, 15)]) fun s => 2 ≤ s.get .carrierState 0
        ∧ s.rxStopped 0 = true)
      ∧ (on (locked [(.carrierNcInForce, 1, 1), (.carrierNcLowerInForce, 1, 0)]) fun s => s.exported 0 = true)
      ∧ groupErased [erasedSymbol] = true := by decide +kernel

theorem test_witness_ReceiveTapsAdaptAndSlipsResolve_slip (k : Int) : 512 < ((1024 : Int) - 2048 * k).natAbs := by
  omega

/-- What a frame start reads: a metric in 0.1 dB, 128 symbols of the word erased on X, both outputs on one sequence. -/
def aFrame (metric : Int) : FrameReading :=
  ⟨#v[0, 0, 0, 0, 0], 0, 250, true, metric, #v[128, 0], 0, 200, #v[0, 0, 0, 0], #v[0, 0, 0, 0]⟩

theorem test_witness_FrameStartsUpdateTheReceiveChain :
    (live.phase = .running ∧ live.get .carrierState 0 = 0)
      ∧ (on (locked [(.xLofRun, 0, 2), (.xPolSame, 0, 1), (.xMonSeen, 24, 1)]) fun s =>
        s.phase = .running ∧ s.upLine 0 = true ∧ s.rxStopped 0 = false ∧ s.get .xTrackWindow 0 = 0
          ∧ s.flag .xMonSeen 24 = true ∧ s.flag .xMonSeen 84 = false ∧ s.sideCode 0 0 = some 1
          ∧ s.flag .xTimLost 0 = false ∧ (aFrame 100).timingError.natAbs ≤ 250
          ∧ s.get .carrierCatchConfirm 0 ≤ (aFrame 100).metric ∧ 0 < s.get .xLofRun 0
          ∧ (aFrame 0).metric < s.get .carrierCatchConfirm 0 ∧ 0 ≤ s.get .xLofRun 0
            ∧ s.wordErased 0 (aFrame 100) = false
          ∧ s.nat .carrierFecProfileInForce 0 ≠ 2 ∧ (aFrame 100).sameSequence = true
            ∧ s.bit .xPolFrozen 0 1 = false ∧ s.get .xPolSame 0 = 1) := by
  decide +kernel

/-! ## The catch -/

/-- A match of the configured rate's frame word with a metric of 100 dB. -/
def found : MatchReading := ⟨0, 1000, 1000, 0, 5, 0, 0⟩

theorem test_witness_TheCatchLeadsToLockOrIsAbandoned :
    (on (seeking []) fun s => s.phase = .running ∧ s.engineRuns 0 = true ∧ s.candidateRate 0 1 = none
        ∧ s.candidateRate 0 0 = some (s.nat .xRxConf 0) ∧ s.get .carrierState 0 = 1)
      ∧ (on (seeking [(.carrierCatchGates, 0, 1), (.xRxRate, 0, 240000000), (.xRxConf, 0, 240000000)]) fun s =>
        s.phase = .running ∧ s.engineRuns 0 = true ∧ s.get .carrierState 0 = 1 ∧ s.flag .xMatchPending 0 = false
          ∧ found ∈ [found]
          ∧ s.matchCounts 0 found = some (s.nat .xRxConf 0))
      ∧ (seeking []).matchCounts 0 found = none
      ∧ (on (seeking [(.xMatchPending, 0, 1)]) fun s =>
        s.phase = .running ∧ s.get .carrierState 0 = 1 ∧ s.flag .xMatchPending 0 = true ∧ s.rxStopped 0 = false
          ∧ s.nat .xMatchRate 0 = s.nat .xRxRate 0)
      ∧ (on (st [(.carrierState, 0, 1), (.carrierState, 1, 2), (.xRelock, 0, 1), (.xRelock, 1, 1)]) fun s =>
        s.phase = .running ∧ s.flag .xRelock 0 = true ∧ s.rxLoop 0 ≠ 3 ∧ s.get .carrierState 0 = 1
          ∧ s.flag .xRelock 1 = true ∧ s.rxLoop 1 ≠ 3 ∧ s.get .carrierState 1 = 2) := by decide +kernel

theorem test_witness_TheCatchLeadsToLockOrIsAbandoned_tentative :
    (on (st [(.carrierState, 0, 2), (.carrierConvSynthState, 0, 10), (.carrierCatchConfirmations, 0, 7)]) fun s =>
      s.phase = .running ∧ s.get .carrierState 0 = 2 ∧ s.rxStopped 0 = false ∧ s.flag .xSearch 0 = false
        ∧ s.wordErased 0 (aFrame 100) = false ∧ s.catchSet 0 3 ≤ (aFrame 100).metric
          ∧ 7 ≤ s.get .carrierCatchConfirmations 0
        ∧ (∀ j : Fin 8, s.flag .xSnrOk (8 * 0 + j.val) = false)
        ∧ s.catchSet 0 4 ≤ s.pilotSnr 0 (aFrame 100))
      ∧ (on (st [(.carrierState, 0, 2), (.carrierConvSynthState, 0, 10), (.carrierCatchFrames, 0, 31)]) fun s =>
        s.phase = .running ∧ s.get .carrierState 0 = 2 ∧ s.rxStopped 0 = false ∧ s.flag .xSearch 0 = false
          ∧ s.get .carrierCatchConfirmations 0 < 8 ∧ s.get .carrierCatchFrames 0 = 31
          ∧ s.wordErased 0 { aFrame 0 with erased := #v[129, 0] } = true)
      ∧ (on (st [(.carrierState, 0, 2), (.carrierConvSynthState, 0, 10), (.carrierCatchGates, 0, 1),
            (.xRxRate, 0, 240000000), (.xRxConf, 0, 240000000)]) fun s =>
        s.phase = .running ∧ s.engineRuns 0 = true ∧ s.get .carrierState 0 = 2 ∧ s.flag .xSearch 0 = false
          ∧ s.matchCounts 0 found = some 240000000 ∧ s.matchSame 0 240000000 found = false
          ∧ s.preemptReference 0 + s.catchSet 0 5 ≤ matchMetric found) := by decide +kernel

/-! ## Coding -/

theorem foldl_xor_false {α : Type} (f : α → Bool → Bool) (h : ∀ j, f j false = false) (l : List α) :
    l.foldl (fun a j => f j a) false = false := by
  induction l with
  | nil => rfl
  | cons j l ih => rw [List.foldl_cons, h, ih]

/-- A codeword of zeros satisfies every check, whatever the shifts of the base matrices are (R201). -/
theorem zeros_ok (profile : Nat) : innerOk profile (fillTo 9216 false []) = true := by
  have z : ∀ k, (fillTo 9216 false []).getD k false = false := by
    intro k
    unfold fillTo
    rw [List.getD_eq_getElem?_getD, List.getElem?_map]
    cases (List.range 9216)[k]? <;> rfl
  unfold innerOk
  rw [List.all_eq_true]
  intro r _
  rw [Bool.not_eq_true', List.any_eq_false]
  intro b hb
  unfold innerSum at hb
  obtain ⟨x, _, rfl⟩ := List.mem_map.mp hb
  rw [foldl_xor_false (fun j a => let b := baseBlock profile (innerRows profile) r j
    if b = 0xFF then a else xor a ((fillTo 9216 false []).getD (64 * j + (x + b.toNat) % 64) false))]
  · decide
  · intro j
    dsimp only
    rw [z]
    split <;> rfl

/-- A line aligned, with six rungs of rows in its ladder window. -/
def fullWindow : RxLine := { RxLine.start with aligned := true, window := List.replicate 3696 [] }

theorem test_witness_CodewordsAreDecodedAndCounted :
    live.get .carrierState 0 < 2
      ∧ (on (st [(.carrierState, 0, 2), (.carrierFecCapInForce, 0, 2)]) fun s =>
        s.phase = .running ∧ 2 ≤ s.get .carrierState 0 ∧ s.flag .xRelock 0 = false
          ∧ converges (s.nat .carrierFecCapInForce 0) (some 2) = true
          ∧ converges (s.nat .carrierFecCapInForce 0) (some 3) = false)
      ∧ (on (st [(.carrierFecProfileInForce, 0, 0), (.carrierFecProfileInForce, 1, 1),
            (.carrierFecProfileInForce, 2, 2)]) fun s =>
        s.nat .carrierFecProfileInForce 0 = 0 ∧ s.nat .carrierFecProfileInForce 1 = 1
          ∧ s.nat .carrierFecProfileInForce 2 = 2) := by decide +kernel

theorem test_witness_CodewordsAreDecodedAndCounted_rung (s : State) (info : List Bool) :
    ∃ was, (RxLine.ladderIn (s.lineSet 1 0) info { fullWindow.atCodeword with slots := fullWindow.slots.drop 1 }).leaving
      = some was := by
  refine ⟨_, if_pos ?_⟩
  unfold RxLine.ladderIn RxLine.close
  dsimp only
  rw [List.length_append]
  have : fullWindow.atCodeword.window.length = 3696 := List.length_replicate
  omega

/-! ## Framing, pages, overhead and defects -/

/-- A valid row of tributary 7 in order 0. -/
def row7 : Int := 2 ^ 31 + 7 * 2 ^ 16

/-- A receive line whose multiframe announces a flip in 128 frames and carries BSQ 3. -/
def announcing : RxLine :=
  { RxLine.start with multi := { RxMulti.start with announced := 128, bsqs := [3, 3, 0] } }

theorem test_witness_MultiframesFlipPagesAndAdvance :
    (live.phase = .running ∧ live.get .carrierState 0 = 0)
      ∧ (on (locked [(.xAnnounce, 0, 1), (.xTxMf, 0, 1), (.tsiActiveRow, 0, row7)]) fun s =>
        s.phase = .running ∧ s.get .carrierState 0 ≠ 0 ∧ s.nat .carrierFecProfileInForce 0 ≠ 2 ∧ s.get .xAnnounce 0 = 1
          ∧ s.get .xAnnounce 0 ≠ 2 ∧ s.flag .calPending 0 = false ∧ s.get .xTxMf 0 ≠ 0 ∧ 7 ∈ s.tribsOn 0 0)
      ∧ (locked [(.xAnnounce, 0, 2)]).get .xAnnounce 0 = 2
      ∧ live.upLine 0 = false
      ∧ (on (locked [(.tsiPending, 1, 1), (.xPhaseKnown, 0, 1), (.xPhaseWord, 0, 5)]) fun s =>
        s.phase = .running ∧ s.upLine 0 = true ∧ s.rxStopped 0 = false ∧ s.bit .tsiPending 1 0 = true
          ∧ s.nat .carrierFecProfileInForce 0 ≠ 2 ∧ s.flag .xPhaseKnown 0 = true
          ∧ s.nat .xPhaseWord 0 ≠ (s.rx 0).phase.getD (phaseWordOf []))
      ∧ (on { locked [(.tsiRxFollow, 0, 1), (.deviceModeState, 0, 3), (.carrierRequest, 0, 2), (.xMfArrival, 0, 1)] with
          rxLine := [(0, announcing)] } fun s =>
        s.bit .tsiPending 1 0 = false ∧ s.flag .tsiRxFollow 0 = true ∧ 128 ≤ (s.rx 0).multi.announced
          ∧ s.bit .carrierDefectDeclared 0 1 = false ∧ s.bit .carrierDefectDeclared 0 2 = false
          ∧ s.flag .carrierSlackHeld 0 = false ∧ s.flipReason 1 (2 ^ 0) = 0 ∧ s.get .carrierState 0 = 3
          ∧ s.get .carrierRequest 0 = 2 ∧ s.mode = 3
          ∧ majority (s.rx 0).multi.bsqs = some 3 ∧ s.flag .xMfArrival 0 = true) := by decide +kernel

/-- Carrier 0 is Locked and in Compatible. -/
def compatible (l : List (Reg × Nat × Int)) : State := locked ((.carrierFecProfileInForce, 0, 2) :: l)

theorem test_witness_MultiframesFlipPagesAndAdvance_compatible :
    on (compatible [(.tsiPending, 0, 1), (.tsiPending, 1, 1), (.deviceModeState, 0, 3), (.carrierRequest, 0, 2)]) fun s =>
      s.phase = .running ∧ s.get .carrierState 0 ≠ 0 ∧ s.nat .carrierFecProfileInForce 0 = 2
        ∧ s.bit .tsiPending 0 0 = true ∧ s.upLine 0 = true ∧ s.rxStopped 0 = false ∧ s.bit .tsiPending 1 0 = true
        ∧ s.get .carrierState 0 = 3 ∧ s.get .carrierRequest 0 = 2 ∧ s.mode = 3 := by decide +kernel

/-- The first 8 bytes of a logical frame on the line: FNUM 255, STAT 2, the rest 0. -/
def lineHead : List Bool := scramble (byteBits [255, 0, 0, 0, 0, 0, 2, 0])

theorem test_witness_LogicalFramesCarryOverhead :
    (on (locked [(.xFnum, 0, 255), (.carrierFecRxNeed, 0, 64)]) fun s =>
      s.phase = .running ∧ s.upLine 0 = true ∧ s.rxStopped 0 = false ∧ s.nat .carrierFecProfileInForce 0 ≠ 2
        ∧ (parseFrame (s.rx 0).bip ((s.lineFrameIn 0 lineHead).2.map Prod.fst)).stat = 2
        ∧ s.get .xFnum 0 = ((parseFrame (s.rx 0).bip ((s.lineFrameIn 0 lineHead).2.map Prod.fst)).fnum.val : Int))
      ∧ (on (locked [(.carrierOhpEnable, 0, 1)]) fun s =>
        s.phase = .running ∧ s.get .carrierState 0 ≠ 0 ∧ s.get .carrierOhpEnable 0 ≠ 0)
      ∧ (on (compatible []) fun s => s.phase = .running ∧ s.upLine 0 = true ∧ s.rxStopped 0 = false
        ∧ s.nat .carrierFecProfileInForce 0 = 2)
      ∧ (locked []).get .carrierOhpEnable 0 = 0 ∧ (locked []).nat .carrierFecProfileInForce 0 ≠ 2
      ∧ (on (live.setBlob .xOhpOut 0 (List.replicate 10 1)) fun s =>
        s.phase = .running ∧ s.blob .xOhpOut 0 ≠ []) := by decide +kernel

theorem test_witness_PageFlipsAreCheckedAndScheduled :
    (on (locked []) fun s => Safety.allowed s cl .tsiFlip 0 (.int (2049 : Fin 65536).val)
        ∧ s.flipReason 0 (2049 % 4096) = 0 ∧ s.get .carrierState 0 ≠ 0 ∧ s.get .carrierState 11 = 0)
      ∧ (on (locked []) fun s => Safety.allowed s cl .tsiFlip 1 (.int (2049 : Fin 65536).val)
        ∧ s.flipReason 1 (2049 % 4096) = 0 ∧ s.get .carrierState 0 ≠ 0 ∧ s.get .carrierState 11 = 0)
      ∧ (on (st [(.tsiPending, 0, 1), (.tsiPending, 1, 1)]) fun s =>
        Safety.allowed s cl .tsiFlip 0 (.int (1 : Fin 65536).val) ∧ s.flipReason 0 (1 % 4096) ≠ 0
          ∧ Safety.allowed s cl .tsiFlip 1 (.int (1 : Fin 65536).val) ∧ s.flipReason 1 (1 % 4096) ≠ 0) := by
  unfold Safety.allowed Safety.fresh; decide +kernel

theorem test_witness_DefectsAreDeclaredAndCleared :
    (on (locked [(.carrierDefectRaw, 0, 3), (.xTicks, 0, 750000)]) fun s => s.phase = .running
      ∧ s.get .carrierState 0 ≠ 0
        ∧ s.defectTime 0 1 0 true = true
        ∧ s.bit .carrierDefectRaw 0 1 = true ∧ s.bit .carrierDefectDeclared 0 1 = false ∧ s.upLine 0 = true)
      ∧ (on (locked [(.carrierDefectRaw, 0, 256), (.xTicks, 0, 750000)]) fun s => s.bit .carrierDefectRaw 0 8 = true
        ∧ s.bit .carrierDefectDeclared 0 8 = false ∧ 2 ≤ (8 : Fin 10).val
        ∧ s.defectTime 0 8 0 true = true)
      ∧ (on (compatible [(.carrierDefectRaw, 0, 512), (.xTicks, 0, 750000)]) fun s => s.bit .carrierDefectRaw 0 9 = true
        ∧ s.bit .carrierDefectDeclared 0 9 = false ∧ s.nat .carrierFecProfileInForce 0 = 2
        ∧ s.defectTime 0 9 0 true = true)
      ∧ live.get .carrierState 0 = 0 ∧ (st [(.defectSetTime, 119, 1)]).defectTime 11 9 3839 true = false
      ∧ (live.defectTime 11 5 0 false = false ∧ live.defectTime 11 9 3839 false = false)
      ∧ (on (locked [(.carrierDefectRaw, 0, 512), (.tsiActiveRow, 3840, row7), (.xCsfRun, 7, 2)]) fun s =>
        s.get .carrierState 0 ≠ 0 ∧ s.nat .carrierFecProfileInForce 0 ≠ 2 ∧ s.bit .carrierDefectRaw 0 9 = true
          ∧ 7 ∈ s.tribsTouching 1 0
          ∧ s.get .xCsfRun 7 = 2 ∧ s.flag .tribRxCsf 7 = false ∧ s.defectTime 0 9 7 true = true)
      ∧ (on (locked [(.carrierDefectDeclared, 0, 513), (.tribRxCsf, 7, 1), (.xTicks, 0, 25000000)]) fun s =>
        s.phase = .running ∧ s.bit .carrierDefectDeclared 0 0 = true ∧ s.bit .carrierDefectRaw 0 0 = false
          ∧ s.nat .carrierFecProfileInForce 0 ≠ 2
          ∧ s.bit .carrierDefectDeclared 0 9 = true ∧ s.flag .tribRxCsf 7 = true ∧ s.get .xCsfRun 7 ≠ 2
          ∧ s.defectTime 0 0 0 false = true ∧ s.defectTime 0 9 7 false = true)
      ∧ (on (compatible [(.carrierDefectDeclared, 0, 512), (.xTicks, 0, 25000000)]) fun s =>
        s.nat .carrierFecProfileInForce 0 = 2 ∧ s.bit .carrierDefectDeclared 0 9 = true
          ∧ s.bit .carrierDefectRaw 0 9 = false ∧ s.defectTime 0 9 0 false = true) := by
  decide +kernel

/-! ## Bonding -/

theorem test_witness_BondingGroupsFormAndAlign :
    (Safety.allowed live cl .groupMembers 5 (.int (3 : Fin 65536).val) ∧ live.nat .groupMembers 5 = 0
        ∧ (carriers.filter (bitOf 3)).length ≠ 1
        ∧ (∀ c < 12, bitOf 3 c = true → live.get .carrierState c = 0 ∧ live.get .carrierBondGroup c = 0xFF)
        ∧ live.bondEqual (carriers.filter (bitOf 3)) = true)
      ∧ (Safety.allowed live cl .groupMembers 5 (.int (2048 : Fin 65536).val)
        ∧ (carriers.filter (bitOf 2048)).length = 1)
      ∧ (on (st [(.groupState, 5, 2)]) fun s => Safety.allowed s cl .groupRealign 5 (.int 1) ∧ 2 ≤ s.get .groupState 5)
      ∧ (on (st [(.groupState, 5, 1)]) fun s =>
        Safety.allowed s cl .groupRealign 5 (.int 1) ∧ s.get .groupState 5 ≤ 1) := by
  unfold Safety.allowed Safety.fresh; decide +kernel

theorem test_witness_BondingGroupsFormAndAlign_members :
    (on (st [(.xGroupWait, 5, 1), (.groupMembers, 5, 3), (.carrierState, 1, 3), (.xBondMeasured, 1, 1),
        (.xTicks, 0, 12500000)]) fun s =>
        s.phase = .running ∧ s.flag .xGroupWait 5 = true ∧ s.alignedList 5 = [] ∧ s.measured 5 = [1]
          ∧ s.usSince .xGroupWaitAt 5 (1000 * s.get .groupAlignWait 5) = true)
      ∧ (live.usSince .xGroupWaitAt 5 (1000 * live.get .groupAlignWait 5) = false
        ∧ live.usSince .xBondExitAt 5 1000 = false)
      ∧ (on (inMode 2 [(.groupMembers, 5, 3), (.xBondExit, 1, 1), (.carrierRequest, 1, 1),
        (.xTicks, 0, 250000)]) fun s =>
        s.phase = .running ∧ (∀ c ∈ s.groupList 5, s.get .carrierState c = 0) ∧ 1 ∈ s.groupList 5
          ∧ s.flag .xBondExit 1 = true ∧ s.mayLeaveIdle 1 = true
          ∧ s.usSince .xBondExitAt 5 1000 = true)
      ∧ live.alignedList 5 = []
      ∧ (on { st [(.groupMembers, 5, 3), (.carrierBondState, 1, 3)] with
          rxLine := [(1, { RxLine.start with boats := [⟨9, [], []⟩] })] } fun s =>
        s.alignedList 5 = [1] ∧ s.boatNext (s.alignedList 5) = some 9) := by decide +kernel

/-! ## Client frames -/

/-- A 64-byte frame of zeros with its FCS, and a pause frame. -/
def frame64 : List Byte := withFcs (List.replicate 64 0)
def pauseFrame : List Byte := withFcs (List.replicate 12 0 ++ [0x88, 0x08, 1, 1] ++ List.replicate 48 0)

/-- Entry of a flow: enabled, tributary 7, depth 128 tiles; and the same entry disabled. -/
def flowOn : Nat := 2 ^ 63 + 7 * 2 ^ 38 + 128 * 2 ^ 20
def flowOff : Nat := 7 * 2 ^ 38 + 128 * 2 ^ 20

/-- The same entry, transparent. -/
def flowStream : Nat := 2 ^ 63 + 2 ^ 62 + 7 * 2 ^ 38 + 128 * 2 ^ 20

/-- Port 0 is up in Carry, its frames going to flow f. -/
def hosted (f : Int) (l : List (Reg × Nat × Int)) : State :=
  inMode 3 ([(.portEnable, 0, 1), (.portState, 0, 3), (.portClsMode, 0, 0), (.portClsDefaultFlow, 0, f)] ++ l)

theorem test_witness_HostFramesAreClassifiedAndAdmitted :
    (on (hosted 0xFFFF []) fun s => s.phase = .running ∧ s.flag .portEnable 0 = true ∧ s.portDown 0 = false
        ∧ s.transparentPort 0 = false ∧ s.frameSound 0 [] = false ∧ s.frameSound 0 frame64 = true
        ∧ pauseOf frame64 = none ∧ s.classify 0 frame64 = 0xFFFF
        ∧ s.frameSound 0 pauseFrame = true ∧ (pauseOf pauseFrame).isSome = true)
      ∧ (on (hosted 5 []) fun s => s.phase = .running ∧ s.transparentPort 0 = false ∧ s.classify 0 frame64 = 5
        ∧ fEnable (s.flow 5) = false)
      ∧ (on (hosted 5 [(.flowEntry, 5, flowOn)]) fun s => s.phase = .running ∧ s.transparentPort 0 = false
        ∧ s.classify 0 frame64 = 5 ∧ fEnable (s.flow 5) = true ∧ s.admits = true
        ∧ s.nat .flowFill 5 + 8 + frame64.length ≤ 512 * fDepth (s.flow 5)
        ∧ (8 + frame64.length + 511) / 512 ≤ s.nat .poolFree 0)
      ∧ (on (hosted 5 [(.flowEntry, 5, flowOn), (.flowFill, 5, 65465)]) fun s =>
        fEnable (s.flow 5) = true ∧ s.admits = true
          ∧ 512 * fDepth (s.flow 5) < s.nat .flowFill 5 + 8 + frame64.length ∧ fPause (s.flow 5) = false)
      ∧ (on (hosted 5 [(.flowEntry, 5, flowStream)]) fun s => s.phase = .running ∧ s.flag .portEnable 0 = true
        ∧ s.portDown 0 = false ∧ s.transparentPort 0 = true ∧ s.nat .portClsDefaultFlow 0 = 5
        ∧ fEnable (s.flow 5) = true ∧ s.admits = true
        ∧ (pcsWords ((s.blob .xPcsTail 5).map fun b => b != 0) [1, 2]).1.length = 8
        ∧ (s.wordsOf 5).length + 8 ≤ 64 * fDepth (s.flow 5)
        ∧ s.nat .xFlowOffset 5 + 8 * (s.wordsOf 5).length + 8 * 8
          ≤ 512 * (s.nat .poolFree 0 + tilesFor (s.nat .xFlowOffset 5) (8 * (s.wordsOf 5).length)))
      ∧ (on (inMode 2 [(.portEnable, 0, 1), (.portState, 0, 3), (.portClsMode, 0, 0), (.portClsDefaultFlow, 0, 5),
          (.flowEntry, 5, flowStream)]) fun s => s.portDown 0 = false ∧ s.transparentPort 0 = true
        ∧ fEnable (s.flow 5) = true ∧ s.admits = false)
      ∧ (on (hosted 5 [(.portPfcAssertedMask, 0, 128)]) fun s =>
        s.phase = .running ∧ s.nat .portPfcAssertedMask 0 ≠ 0 ∧ s.portDown 0 = false)
      ∧ live.nat .portPfcAssertedMask 0 = 0 := by decide +kernel

/-- A classifier with key 0 of port 0 known, and an operation under way. -/
def busyCls (op : Int) (l : List (Reg × Nat × Int)) : State :=
  { st ([(.clsBusy, 0, 1), (.xClsOp, 0, op)] ++ l) with classifier := [(0, 6)] }

/-- Two keys for a bulk load: port 0 untagged to flow 5, VLAN 1 to flow 5. -/
def twoKeys : List Byte := leBytes 4 0 ++ leBytes 2 5 ++ leBytes 4 4097 ++ leBytes 2 5

theorem test_witness_ClassifierOperationsRunAndComplete :
    (∀ op ∈ [(1 : Nat), 2, 3, 4], Safety.allowed live cl .clsOp 0 (.int op)
        ∧ Safety.allowed (busyCls 4 []) cl .clsOp 0 (.int op))
      ∧ live.flag .clsBusy 0 = false ∧ (busyCls 4 []).flag .clsBusy 0 = true := by
  unfold Safety.allowed Safety.fresh; decide +kernel

theorem test_witness_ClassifierOperationsRunAndComplete_codes :
    (busyCls 4 []).phase = .running
      ∧ (on (busyCls 2 [(.clsKey, 0, 8192)]) fun s => s.clsCode 2 (s.nat .clsKey 0) (s.nat .clsFlow 0) ≠ 0)
      ∧ (∀ op ∈ [(1 : Nat), 2, 3, 4], on (busyCls op []) fun s =>
        s.nat .xClsOp 0 = op ∧ s.clsCode op (s.nat .clsKey 0) (s.nat .clsFlow 0) = 0) := by decide +kernel

theorem test_witness_ClassifierOperationsRunAndComplete_load :
    Safety.allowed live cl .clsLoad 0 (.bytes twoKeys) ∧ live.flag .clsBusy 0 = false
      ∧ (∀ e ∈ [((0 : Nat), (5 : Nat)), (4097, 5)], keyOk e.1 = true ∧ live.keyFlowOk e.1 e.2 = true)
      ∧ ((List.range (twoKeys.length / 6)).map fun k =>
        (leNat ((twoKeys.drop (6 * k)).take 4), leNat ((twoKeys.drop (6 * k + 4)).take 2))) = [(0, 5), (4097, 5)]
      ∧ [(0 : Nat), 4097].Nodup := by unfold Safety.allowed Safety.fresh; decide +kernel

theorem test_witness_FlowsAndCalendarAreCheckedAndServed_entry :
    (on (st [(.flowEntry, 0, flowOn), (.flowFill, 0, 72)]) fun s =>
        Safety.allowed s cl .flowEntry 0 (.int (BitVec.ofNat 64 flowOff).toNat) ∧ s.flowSel cl = 0
          ∧ s.flowEntryCode (s.flowSel cl) flowOff = 0 ∧ fEnable (s.nat .flowEntry 0) = true ∧ fEnable flowOff = false
          ∧ s.nat .flowFill 0 ≠ 0)
      ∧ Safety.allowed live cl .flowEntry 0 (.int (0 : BitVec 64).toNat)
      ∧ live.flowEntryCode (live.flowSel cl) (0 : BitVec 64).toNat ≠ 0 := by
  unfold Safety.allowed Safety.fresh; decide +kernel

/-- A flow table all of whose entries are one entry: every byte is b. -/
def flatTable (b : Byte) : List Byte := List.replicate 262144 b

/-- Every entry of a flat table is the number its eight bytes spell. -/
theorem flatTable_entry {b : Byte} {e : Nat} (h : e ∈ entriesOf 8 (flatTable b)) : e = leNat (List.replicate 8 b) := by
  unfold entriesOf flatTable at h
  obtain ⟨k, hk, rfl⟩ := List.mem_map.mp h
  rw [List.length_replicate, List.mem_range] at hk
  rw [List.drop_replicate, List.take_replicate]
  congr 2
  omega

/-- A whole flow table of the right length passes the common checks. -/
theorem table_allowed {v : List Byte} (h : v.length = 262144) : Safety.allowed live cl .flowTable 0 (.bytes v) := by
  refine ⟨by unfold Safety.fresh; decide +kernel, by decide +kernel, ?_⟩
  have e : live.accessAbort cl .flowTable = none := by decide +kernel
  have w : Reg.wireAt .flowTable 0 = .domain := by decide +kernel
  have l : lengthAbort cl .flowTable 0 262144 = none := by decide +kernel
  simp only [State.checkWrite, typeAbort, w, if_true, h, l, e, rangeAbort]

theorem test_witness_FlowsAndCalendarAreCheckedAndServed_table :
    Safety.allowed live cl .flowTable 0 (.bytes (flatTable 4))
      ∧ ∀ e ∈ (entriesOf 8 (flatTable 4)).zipIdx, live.flowEntryCode e.2 e.1 = 0 := by
  refine ⟨table_allowed List.length_replicate, fun e h => ?_⟩
  rw [flatTable_entry (List.fst_mem_of_mem_zipIdx h)]
  have h0 : live.nat .flowEntry e.2 = flowEntryReset.toNat := rfl
  have h1 : live.classifier = [] := rfl
  unfold State.flowEntryCode
  rw [h0, h1, List.any_nil]
  decide +kernel

theorem test_witness_FlowsAndCalendarAreCheckedAndServed_refused_table :
    Safety.allowed live cl .flowTable 0 (.bytes (flatTable 0))
      ∧ ∃ e ∈ (entriesOf 8 (flatTable 0)).zipIdx, live.flowEntryCode e.2 e.1 ≠ 0 := by
  refine ⟨table_allowed List.length_replicate, (leNat (List.replicate 8 0), 0), ?_, by decide +kernel⟩
  rw [List.mem_zipIdx_iff_getElem?]
  unfold entriesOf flatTable
  rw [List.length_replicate, List.getElem?_map, List.getElem?_range (by decide), Option.map_some, List.drop_replicate,
    List.take_replicate]
  rfl

/-- Tributary 7 with one calendar entry, its order-0 row on carrier 0, which is Locked. -/
def served (l : List (Reg × Nat × Int)) : State :=
  locked ([(.tsiActiveRow, 0, row7), (.spanStandby, 7, 1), (.calStandbyEntry, 0, 2 ^ 31), (.flowEntry, 0, flowOn)] ++ l)

theorem test_witness_FlowsAndCalendarAreCheckedAndServed_calendar :
    (Safety.allowed (st [(.calPending, 0, 1)]) cl .calFlip 0 (.int 1) ∧ (st [(.calPending, 0, 1)]).calReason ≠ 0)
      ∧ (Safety.allowed live cl .calFlip 0 (.int 1) ∧ live.calReason = 0
        ∧ ∀ u ∈ live.spanTribs, live.orderZero 0 u = none)
      ∧ (on (served []) fun s => Safety.allowed s cl .calFlip 0 (.int 1) ∧ s.calReason = 0 ∧ 7 ∈ s.spanTribs
        ∧ s.orderZero 0 7 = some 0 ∧ s.idle 0 = false ∧ s.flag .xCalTaken 7 = false) := by
  unfold Safety.allowed Safety.fresh; decide +kernel

theorem test_witness_FlowsAndCalendarAreCheckedAndServed_mapper :
    (on (inMode 3 [(.xTribFillNow, 7, 0), (.spanActive, 7, 1), (.calActiveEntry, 0, 2 ^ 31), (.flowEntry, 0, flowOn)]) fun s =>
        s.phase = .running ∧ s.transparentFlow 7 = none ∧ s.get .xTribFillNow 7 = 0
          ∧ ∀ f ∈ s.spanFlows 7, s.queueOf f = [])
      ∧ (on (inMode 2 [(.xTribFillNow, 7, 0)]) fun s => s.transparentFlow 7 = none ∧ s.fillCode 7 ≠ 0)
      ∧ (on { inMode 3 [(.carrierState, 0, 4), (.carrierRequest, 0, 2), (.tsiActiveRow, 0, row7), (.portState, 0, 3), (.xTribFillNow, 7, 0), (.spanActive, 7, 1), (.calActiveEntry, 0, 2 ^ 31),
            (.flowEntry, 0, flowOn)] with flowQueue := [(0, [⟨false, frame64⟩])] } fun s =>
        s.phase = .running ∧ s.get .xTribFillNow 7 = 0 ∧ s.spanFlows 7 = [0] ∧ s.eligible 7 0 = true
          ∧ s.fillCode 7 = 0 ∧ s.transparentFlow 7 = none ∧ s.flowMarks 0 = []
          ∧ s.queueOf 0 = [⟨false, frame64⟩] ∧ frame64.length ≤ s.nat .xCalCredit (1024 * 7) + 2048) := by
  decide +kernel

theorem test_witness_ReceivedFramesReachTheirPort_row :
    (Safety.allowed live cl .tribEgressRow 0 (.int (32768 : Fin 65536).val)
        ∧ live.tribRowCode (live.sel cl .tribEgressSelect).toNat 32768 = 0
        ∧ live.orderZero 1 (live.sel cl .tribEgressSelect).toNat = none)
      ∧ (on (locked [(.tsiActiveRow, 3840, 2 ^ 31)]) fun s =>
        Safety.allowed s cl .tribEgressRow 0 (.int (32768 : Fin 65536).val)
          ∧ s.tribRowCode (s.sel cl .tribEgressSelect).toNat 32768 = 0
          ∧ s.orderZero 1 (s.sel cl .tribEgressSelect).toNat ≠ none)
      ∧ live.tribRowCode (live.sel cl .tribEgressSelect).toNat 32816 ≠ 0 := by
  unfold Safety.allowed Safety.fresh; decide +kernel

/-- Tributary 7 carries packets on carrier 0, Carrying in Carry, to port 0, which is up. -/
def received (q : List (Nat × List Stored)) : State :=
  { inMode 3 [(.carrierState, 0, 4), (.carrierRequest, 0, 2), (.tsiActiveRow, 3840, row7), (.xTribRow, 7, 32768),
      (.portState, 0, 3), (.portEnable, 0, 1)] with tribQueue := q }

/-- An idle frame and a client frame of three bytes as the line brings them (G.7041). -/
def delineated : List (Byte × Bool) :=
  let area := gfpPayload [1, 2, 3]
  let line := gfpIdle ++ gfpCore area.length ++ bitBytes area.length (gfpScramble 0 (byteBits area)).2
  line.map fun b => (b, false)

theorem test_witness_ReceivedFramesReachTheirPort :
    (on (received []) fun s => s.phase = .running ∧ rtValid (s.egressRow 7) = true
        ∧ rtTransparent (s.egressRow 7) = false ∧ s.admits = true ∧ s.tribFailed 7 = false
        ∧ s.pairActive = false ∧ s.portDown (rtPort (s.egressRow 7)) = false
        ∧ queueBytes (s.tribQueueOf 7 ++ [⟨s.flag .xCmLost 7, frame64⟩]) ≤ 262144
        ∧ tilesFor (s.nat .xTribOffset 7) (queueBytes (s.tribQueueOf 7 ++ [⟨s.flag .xCmLost 7, frame64⟩]))
          ≤ s.nat .poolFree 0 + tilesFor (s.nat .xTribOffset 7) (queueBytes (s.tribQueueOf 7))
        ∧ s.egressPick 0 = none ∧ (s.rxTrib 7).bytes = [] ∧ (sharesReady (s.rxTrib 7).shares).1 = [])
      ∧ (on (received [(7, [⟨false, frame64⟩])]) fun s => s.phase = .running ∧ s.egressPick 0 = some 7
        ∧ s.tribQueueOf 7 = [⟨false, frame64⟩] ∧ s.pairStandby = false ∧ s.sendingNow 0 = 0
        ∧ s.portDown 0 = false ∧ s.tribMarks 7 = []
        ∧ ∀ e ∈ [(⟨0, s.tribTile 7 0⟩ : TileRead)], tileFails (s.tribTile 7 e.tile) e.bytes = false)
      ∧ (on { received [] with rxTribs := [(7, { RxTrib.start with bytes := [(0, false)] })] } fun s =>
        ((s.demapPlain 7).rxTrib 7).bytes ≠ [] ∧ (((s.demapPlain 7).demapReads 7 5 none []).delineate 7).2 = none)
      ∧ (on { received [] with rxTribs := [(7, { RxTrib.start with bytes := delineated })] } fun s =>
        rtValid (s.egressRow 7) = true ∧ rtTransparent (s.egressRow 7) = false ∧ s.admits = true
          ∧ s.tribFailed 7 = false ∧ s.pairActive = false ∧ s.portDown (rtPort (s.egressRow 7)) = false
          ∧ ((s.demapPlain 7).rxTrib 7).bytes ≠ []
          ∧ (((s.demapPlain 7).demapReads 7 5 none []).delineate 7).2 = some ([1, 2, 3], false)
          ∧ queueBytes (s.tribQueueOf 7 ++ [⟨false, [1, 2, 3]⟩]) ≤ 262144
          ∧ tilesFor (s.nat .xTribOffset 7) (queueBytes (s.tribQueueOf 7 ++ [⟨false, [1, 2, 3]⟩]))
            ≤ s.nat .poolFree 0 + tilesFor (s.nat .xTribOffset 7) (queueBytes (s.tribQueueOf 7))) := by decide +kernel

/-! ## The cipher -/

/-- AES-256 of FIPS 197, example C.3. -/
theorem test_aes_fips197_c3 :
    aesEncrypt (roundKeys (List.range 32)) ((List.range 16).map (17 * ·))
      = beBytes 16 0x8EA2B7CA516745BFEAFC49904B496089 := by decide +kernel

/-- AES-GCM with a zero key, a zero IV and nothing to protect (the algorithm's test case 13). -/
theorem test_gcm_case13 :
    gcmTag (roundKeys (List.replicate 32 0)) (List.replicate 12 0) [] []
      = beBytes 16 0x530F8AFBC74536B9A963B4F1C4CB738B := by decide +kernel

/-- A key-encryption key, and a load descriptor under key 0 that wraps 36 bytes of 7 and slot number 0. -/
def kekBytes : List Byte := byteList (List.range 32)
def goodLoad : List Byte :=
  List.replicate 12 0
    ++ byteList (beBytes 48
      0x4476D31B813855F9546DD68FAEF82439F94BE9160C69F26D31F853EE4A8ED538A619911A0A129218ADD393B9BA0904FD)

/-- The block in Trim with key-encryption key 0 programmed. -/
def keyed (l : List (Reg × Nat × Int)) : State :=
  (inMode 1 ((.kekState, 0, 2) :: l)).setBlob .xKekFuse 0 kekBytes

/-- The descriptor unwraps to what was wrapped by an implementation of RFC 3394 of its own, checked on example 4.6 there. -/
theorem test_unwrap :
    keyUnwrap (natBytes kekBytes) (natBytes (loadDescriptor goodLoad).wrapped)
      = some (List.replicate 36 7 ++ [0, 0, 0, 0]) := by decide +kernel

/-- The load of `goodLoad` into slot 0 is accepted where key-encryption key 0 is programmed and nothing stands against
it. -/
theorem goodLoad_accepted {s : State} (hb : s.blob .xKekFuse 0 = kekBytes) (hk : s.get .kekState 0 = 2)
    (hm : s.mode = 1) (hz : s.flag .cipherZero 0 = false) (hp : s.flag .xSlotTxPend 0 = false)
    (hs : s.pairStandby = false) :
    s.loadCode 0 goodLoad false = 0
      ∧ s.unwrap (loadDescriptor goodLoad) = some (byteList (List.replicate 36 7 ++ [0, 0, 0, 0])) := by
  have hx : (loadDescriptor goodLoad).kek = 0 := by decide +kernel
  have hu : s.unwrap (loadDescriptor goodLoad) = some (byteList (List.replicate 36 7 ++ [0, 0, 0, 0])) := by
    unfold State.unwrap
    rw [hx, hb, test_unwrap]
    rfl
  refine ⟨?_, hu⟩
  unfold State.loadCode
  simp only [hx, hu, hk, hm, hz, hp, hs]
  decide +kernel

theorem test_witness_KeysAreLoadedSwitchedAndErased_load :
    (on (inMode 1 []) fun s => Safety.allowed s cl .slotLoad 0 (.bytes goodLoad)
      ∧ s.loadCode (s.slotSel cl) goodLoad false = 2)
      ∧ (on (keyed []) fun s => Safety.allowed s cl .slotLoad 0 (.bytes goodLoad) ∧ s.slotSel cl = 0
        ∧ s.regState 0 0 = 0 ∧ s.regState 0 1 = 0 ∧ s.slotInUse 0 0 = false ∧ s.slotInUse 1 0 = false) := by
  unfold Safety.allowed Safety.fresh; decide +kernel

theorem test_witness_KeysAreLoadedSwitchedAndErased_empty :
    (keyed []).loadCode 0 goodLoad false = 0
      ∧ (keyed []).unwrap (loadDescriptor goodLoad) = some (byteList (List.replicate 36 7 ++ [0, 0, 0, 0])) :=
  goodLoad_accepted (by decide +kernel) (by decide +kernel) (by decide +kernel) (by decide +kernel) (by decide +kernel)
    (by decide +kernel)

/-- Slot 0 holds a key and is in use on carrier 0. -/
def used : State := keyed [(.xSlotReg, 0, 1), (.bindInForce, 7, 2 ^ 30), (.tsiActiveRow, 0, row7), (.carrierState, 0, 1)]

theorem test_witness_KeysAreLoadedSwitchedAndErased_next :
    used.loadCode 0 goodLoad false = 0
      ∧ used.unwrap (loadDescriptor goodLoad) = some (byteList (List.replicate 36 7 ++ [0, 0, 0, 0])) :=
  goodLoad_accepted (by decide +kernel) (by decide +kernel) (by decide +kernel) (by decide +kernel) (by decide +kernel)
    (by decide +kernel)

theorem test_witness_KeysAreLoadedSwitchedAndErased_slots :
    (Safety.allowed used cl .slotLoad 0 (.bytes goodLoad) ∧ used.slotSel cl = 0 ∧ used.regState 0 0 ≠ 0
        ∧ used.slotInUse 0 0 = true)
      ∧ (on (keyed []) fun s => Safety.allowed s cl .slotErase 0 (.int 1) ∧ s.slotSel cl ≤ 8191
        ∧ s.pairStandby = false)
      ∧ (on (inMode 4 [(.pairRole, 0, 2)]) fun s => Safety.allowed s cl .slotErase 0 (.int 1)
        ∧ s.pairStandby = true) := by unfold Safety.allowed Safety.fresh; decide +kernel

theorem test_witness_KeysAreLoadedSwitchedAndErased_switches :
    (on (st [(.xSlotTxPend, 8191, 1)]) fun s => s.phase = .running ∧ s.flag .xSlotTxPend 8191 = true
        ∧ s.txSwitched 8191 = true)
      ∧ (on (st [(.xSlotRxPend, 8191, 1), (.xSlotDone, 8191, 1)]) fun s => s.flag .xSlotTxPend 8191 = false
        ∧ s.flag .xSlotRxPend 8191 = true ∧ s.flag .xSlotDone 8191 = true)
      ∧ (on (st [(.xSlotRxPend, 8191, 1)]) fun s => s.flag .xSlotTxPend 8191 = false
        ∧ s.flag .xSlotRxPend 8191 = true ∧ s.flag .xSlotDone 8191 = false ∧ s.slotInUse 1 8191 = false)
      ∧ (on (used.set .xSlotTxPend 0 1 |>.set .xSlotSerial 0 1) fun s => s.flag .xSlotTxPend 0 = true
        ∧ s.txSwitched 0 = false)
      ∧ (live.flag .xSlotTxPend 8191 = false ∧ live.flag .xSlotRxPend 8191 = false)
      ∧ (on (locked [(.bindInForce, 3847, 2 ^ 30), (.tsiActiveRow, 3840, row7)]) fun s => s.flag .xSlotTxPend 0 = false
        ∧ s.flag .xSlotDone 0 = false ∧ s.slotInUse 1 0 = true) := by decide +kernel

theorem test_witness_FusesPinsAndBindingsGuardKeys :
    (live.phase = .running ∧ (st [(.xSlotReg, 3, 1)]).get .xSlotReg 3 ≠ 0)
      ∧ (on ((st [(.cipherKeyprov, 0, 1)]).setBlob .kekValue 3 kekBytes) fun s =>
        Safety.allowed s cl .kekOp 3 (.int 1) ∧ s.kekCode 3 1 = 0)
      ∧ (Safety.allowed live cl .kekOp 3 (.int 1) ∧ live.kekCode 3 1 ≠ 0)
      ∧ (on (st [(.cipherKeyprov, 0, 1), (.kekState, 3, 2)]) fun s =>
        Safety.allowed s cl .kekOp 3 (.int 2) ∧ s.kekCode 3 2 = 0)
      ∧ (Safety.allowed live cl .kekOp 3 (.int 2) ∧ live.kekCode 3 2 ≠ 0)
      ∧ (st [(.kekState, 3, 1)]).get .kekState 3 = 1
      ∧ (Safety.allowed live cl .bindEntry 0 (.int (1073741824 : Fin 4294967296).val)
        ∧ live.bindingOk ((3840 * (0 : Fin 2).val + live.bindSel cl 0) / 3840) 1073741824 = true)
      ∧ (Safety.allowed live cl .bindEntry 1 (.int (67108864 : Fin 4294967296).val)
        ∧ live.bindingOk ((3840 * (1 : Fin 2).val + live.bindSel cl 1) / 3840) 67108864 = false) := by
  unfold Safety.allowed Safety.fresh; decide +kernel

/-- Tributary 7 carries clients on carrier 0 and is enciphered in mode 1 under slot 0, whose register 0 holds a key. -/
def enciphered (l : List (Reg × Nat × Int)) : State :=
  (inMode 3 ([(.carrierState, 0, 4), (.carrierRequest, 0, 2), (.tsiActiveRow, 0, row7), (.tsiActiveRow, 3840, row7),
    (.bindInForce, 7, 2 ^ 30), (.bindInForce, 3847, 2 ^ 30), (.xSlotReg, 0, 1)] ++ l)).setBlob .xSlotKey 0
    (List.replicate 36 7)

/-- Two pipelines that agree. -/
def agree : TwinReading := ⟨0, false, 0, false⟩

theorem test_witness_CipherBlocksAreSentAndChecked_tx :
    (on (enciphered [(.xTribCmNow, 7, 68), (.calActiveEntry, 0, 2 ^ 31), (.spanActive, 7, 1), (.flowEntry, 0, flowOn),
        (.portState, 0, 3), (.portEnable, 0, 1)]) fun s =>
      s.phase = .running ∧ bMode (s.binding 0 7) ≠ 0
      ∧ 8 * blockPayload (s.binding 0 7) (s.blockRoom 7) ≠ 0
        ∧ s.pairStandby = false ∧ s.leaseOk 0 = true
        ∧ s.flag .xSlotTxPend (bSlot (s.binding 0 7)) = false
        ∧ s.regState (bSlot (s.binding 0 7)) (s.nat .xSlotActive (bSlot (s.binding 0 7))) = 1
        ∧ s.txFill 7 = 0 ∧ s.flag .xShedTx 7 = false ∧ agree.mismatch = false
        ∧ s.nat .xSlotCount 0 % 2 ^ s.countBits + 1 < 2 ^ s.countBits)
      ∧ (on (enciphered [(.xTribCmNow, 7, 5), (.xShedTx, 7, 1)]) fun s => s.flag .xShedTx 7 = true
        ∧ bMode (s.binding 0 7) ≠ 0
        ∧ 8 * blockPayload (s.binding 0 7) (s.blockRoom 7) ≠ 0)
      ∧ (on (enciphered [(.xTribCmNow, 7, 4)]) fun s => bMode (s.binding 0 7) ≠ 0 ∧ s.blockRoom 7 ≠ 0
        ∧ 8 * blockPayload (s.binding 0 7) (s.blockRoom 7) = 0)
      ∧ (enciphered [(.carrierRequest, 0, 1)]).txFill 7 ≠ 0
      ∧ (on (enciphered [(.xSlotReg, 0, 0)]) fun s => s.flag .xSlotTxPend (bSlot (s.binding 0 7)) = false
        ∧ s.regState 0 0 ≠ 1 ∧ s.regState 0 0 ≠ 2)
      ∧ (bMode (live.binding 0 7) = 0 ∧ (enciphered []).blockRoom 7 = 0) := by decide +kernel

/-- Header word 1 of a received block in mode 1 under register 0, key identity 0, with a sound check. -/
def word1 : BitVec 64 := BitVec.ofNat 64 (headerOne 0 0 1 0 0)

/-- Key and salt of `enciphered`. -/
def sevens (n : Nat) : List Nat := List.replicate n 7

theorem test_witness_CipherBlocksAreSentAndChecked_rx :
    ((RxBlock.given 0 1 [] []).word1 % 256
        ≠ crc8 120 ((RxBlock.given 0 1 [] []).word0 * 2 ^ 56 + (RxBlock.given 0 1 [] []).word1 / 256))
      ∧ (on (enciphered []) fun s => s.phase = .running ∧ bMode (s.binding 1 7) ≠ 0 ∧ (s.rxTrib 7).shares = []
        ∧ word1.toNat % 256 = crc8 120 ((0 : BitVec 64).toNat * 2 ^ 56 + word1.toNat / 256)
        ∧ (RxBlock.given 0 word1.toNat [] []).word1 = word1.toNat ∧ (RxBlock.given 0 word1.toNat [] []).payload = []
        ∧ field word1.toNat 61 2 = bMode (s.binding 1 7)
        ∧ s.regState (bSlot (s.binding 1 7)) (word1.toNat / 2 ^ 63 % 2) ≠ 0
        ∧ s.nat .xSlotKid (2 * bSlot (s.binding 1 7) + word1.toNat / 2 ^ 63 % 2) = field word1.toNat 32 16
        ∧ s.flag .xShedRx 7 = false ∧ natBytes (s.blob .xSlotKey 0) = sevens 36)
      ∧ decipher 1 (sevens 32) (sevens 4) (headerBytes 0 word1.toNat) [] [] = none
      ∧ decipher 1 (sevens 32) (sevens 4) (headerBytes 0 word1.toNat) []
        (gcmTag (roundKeys (sevens 32)) (sevens 4 ++ (headerBytes 0 word1.toNat).take 8) (headerBytes 0 word1.toNat) [])
        = some []
      ∧ (on { enciphered [] with rxTribs := [(7, { RxTrib.start with shares := [⟨5, 0, []⟩] })] } fun s =>
        bMode (s.binding 1 7) ≠ 0 ∧ (s.rxTrib 7).shares ≠ [] ∧ blockOf (s.binding 1 7) (s.rxTrib 7).shares = none)
      ∧ (on { enciphered [] with
            rxTribs := [(7, { RxTrib.start with shares := [⟨5, 0, (List.range 5).map fun k => (k, k, false)⟩] })] } fun s =>
        bMode (s.binding 1 7) ≠ 0 ∧ (s.rxTrib 7).shares ≠ []
          ∧ ∃ a, blockOf (s.binding 1 7) (s.rxTrib 7).shares = some a ∧ (RxBlock.ofWords a.1).word1 = 1) := by
  decide +kernel

/-! ## Host lanes and ports -/

theorem test_witness_LanesComeUpInSteps :
    (∀ k ∈ [(1 : Int), 2, 3, 4, 5], on (st [(.xLaneStep, 95, k)]) fun s => s.phase = .running
        ∧ s.flag .xLaneRelock 95 = false ∧ s.flag .xLaneLow 95 = false ∧ s.get .xLaneStep 95 = k
        ∧ s.laneSignal 95 = true ∧ s.canLock 95 = true)
      ∧ (st [(.xLaneStep, 95, 5), (.laneLosRaw, 95, 1)]).canLock 95 = false
      ∧ ((st [(.xLaneRelock, 95, 1)]).flag .xLaneRelock 95 = true ∧ (st [(.xLaneLow, 95, 1)]).flag .xLaneLow 95 = true)
      ∧ (live.lanePowered 95 = live.laneOn 95)
      ∧ (on (inMode 1 [(.lanePower, 95, 1)]) fun s => s.lanePowered 95 = true ∧ s.laneOn 95 = false)
      ∧ (on (inMode 1 [(.laneState, 95, 5)]) fun s => s.lanePowered 95 = false ∧ s.laneOn 95 = true)
      ∧ (on (inMode 1 [(.octetOrderMode, 11, 2), (.portEnable, 44, 1), (.portEnable, 45, 1), (.portRate, 44, 1),
            (.portRate, 45, 1), (.xOrderTried, 11, 1), (.xOrderDue, 11, 1)]) fun s =>
        s.searching 11 = true ∧ s.orderDue 11 = true ∧ (s.enabledPorts 11).map (· % 4) = [0, 1]
          ∧ ((s.enabledPorts 11).map (· % 4)).filter (bitOf 3) = [0, 1]
          ∧ ((s.enabledPorts 11).map (· % 4)).filter (bitOf 1) = [0]
          ∧ ((s.enabledPorts 11).map (· % 4)).filter (bitOf 0) = [])
      ∧ live.searching 11 = false
      ∧ (inMode 1 [(.xOrderTried, 11, 1)]).orderDue 11 = false := by decide +kernel

/-- Lane 95 is locked and checks a pattern. -/
def laned (l : List (Reg × Nat × Int)) : State := inMode 1 ((.laneState, 95, 5) :: (.laneLock, 95, 1) :: l)

theorem test_witness_LaneFaultsAreReported :
    (on (laned []) fun s => s.phase = .running ∧ s.laneOn 95 = true ∧ s.flag .laneLosRaw 95 = false
        ∧ s.flag .laneLock 95 = true ∧ 95 / 48 = (1 : Fin 2).val
        ∧ s.nat .lanePairFault 95 ||| cmMap 299 601 ≠ s.nat .lanePairFault 95)
      ∧ (on (laned [(.laneLosRaw, 95, 1)]) fun s => s.flag .laneLosRaw 95 = true ∧ s.get .lanePairFault 95 = 0)
      ∧ (on (laned [(.lanePairFault, 95, 15)]) fun s => s.laneOn 95 = true ∧ 0 < s.nat .lanePairFault 95
        ∧ s.nat .lanePairFault 95 < 16)
      ∧ (on (laned []) fun s => Safety.allowed s cl .lanePairTest 95 (.int 1) ∧ s.onEnabledPort 95 = false
        ∧ s.laneOn 95 = true)
      ∧ (Safety.allowed live cl .lanePairTest 95 (.int 1) ∧ live.laneOn 95 = false) := by
  unfold Safety.allowed Safety.fresh; decide +kernel

theorem test_witness_LanePatternsAreCheckedAndInjected :
    (on (laned []) fun s => s.phase = .running ∧ s.flag .laneLock 95 = true ∧ s.flag .laneDfeFreeze 95 = false
        ∧ s.get .lanePrbsState 95 < 2)
      ∧ (on (laned [(.lanePrbsState, 95, 2), (.laneDfeFreeze, 95, 1)]) fun s => 2 ≤ s.get .lanePrbsState 95
        ∧ s.flag .laneDfeFreeze 95 = true ∧ s.flag .xPrbsBad 95 = false)
      ∧ (on (laned [(.lanePrbsState, 95, 3), (.xPrbsBad, 95, 1)]) fun s => s.get .lanePrbsState 95 = 3
        ∧ s.flag .xPrbsBad 95 = true)
      ∧ (on (laned [(.lanePrbsState, 95, 1), (.lanePrbsGen, 95, 1), (.lanePrbsInjectRate, 95, 1), (.lanePrbsCheck, 95, 1)])
          fun s => s.phase = .running ∧ s.get .lanePrbsState 95 = 1 ∧ s.flag .lanePrbsGen 95 = true
          ∧ s.get .lanePrbsGen 95 ≠ 0 ∧ s.flag .lanePrbsInjectRate 95 = true ∧ s.laneOn 95 = true
          ∧ Safety.allowed s cl .lanePrbsInject 95 (.int 1)
          ∧ (prbsLock (s.nat .lanePrbsCheck 95) (s.nat .lanePrbsUser 95) (prbsRun 1 0 300 1).1).isSome = true
          ∧ prbsLock (s.nat .lanePrbsCheck 95) (s.nat .lanePrbsUser 95) (flipMsb (prbsRun 1 0 300 1).1) = none
          ∧ prbsLock (s.nat .lanePrbsCheck 95) (s.nat .lanePrbsUser 95) [] = none)
      ∧ Safety.allowed live cl .lanePrbsInject 95 (.int 1) ∧ live.flag .lanePrbsGen 95 = false := by
  unfold Safety.allowed Safety.fresh; decide +kernel

/-- Port 0 at one lane of 100 Gb/s, its lane 0 locked, in a port state. -/
def ported (k : Int) (l : List (Reg × Nat × Int)) : State :=
  inMode 1 ([(.portEnable, 0, 1), (.portRate, 0, 1), (.portState, 0, k), (.laneState, 0, 5), (.laneLock, 0, 1)] ++ l)

/-- Port 0 is up and sends the stream of tributary 7, which carrier 0 brings in Carry. -/
def streaming (l : List (Reg × Nat × Int)) : State :=
  inMode 3 ([(.carrierState, 0, 4), (.carrierRequest, 0, 2), (.tsiActiveRow, 3840, row7), (.xTribRow, 7, 49152),
    (.portState, 0, 3), (.portEnable, 0, 1), (.portClsDefaultFlow, 0, 0xFFFF)] ++ l)

theorem test_witness_PortsAlignFaultAndMatchRates :
    (on (ported 2 []) fun s => s.phase = .running ∧ s.get .portState 0 = 2 ∧ s.lanesReady 0 = true
        ∧ s.flag .xPortAligned 0 = false ∧ s.portHeld 0 = false)
      ∧ (on (ported 4 [(.xPortPcs, 0, 1)]) fun s => s.flag .xPortPcs 0 = true ∧ s.lanesReady 0 = true
        ∧ s.flag .xPortAligned 0 = false)
      ∧ (on (ported 2 [(.xPortAligned, 0, 1), (.xPortFault, 0, 1), (.xTicks, 0, 2500000)]) fun s => s.phase = .running
        ∧ s.get .portState 0 = 2 ∧ s.lanesReady 0 = true ∧ s.portHeld 0 = true ∧ s.flag .xPortFault 0 = true)
      ∧ (on (ported 3 []) fun s => s.phase = .running ∧ s.flag .portEnable 0 = true ∧ s.get .portState 0 = 3
        ∧ s.laneCauses 0 + 16 + 0 ≠ 0 ∧ s.flag .portRfReceived 0 ≠ true)
      ∧ (on (ported 3 [(.portRfReceived, 0, 1)]) fun s => s.flag .portEnable 0 = true
        ∧ s.flag .portRfReceived 0 ≠ false)
      ∧ (on (streaming []) fun s => s.phase = .running ∧ s.streamTrib 0 = some 7 ∧ s.admits = true
        ∧ s.tribFailed 7 = false
        ∧ s.portDown 0 = false ∧ s.pairStandby = false ∧ s.sendingNow 0 = 0
        ∧ (let x := ((((s.demapPlain 7).demapReads 7 5 none []).demapReads 7 6 none []).pcsEnter 0 7 0).2.run 1
          x.slips = 1 ∧ x.sent ≠ []))
      ∧ (streaming [(.deviceModeState, 0, 2)]).admits = false ∧ (streaming [(.carrierState, 0, 3)]).tribFailed 7 = true
      ∧ (streaming [(.portState, 0, 4)]).portDown 0 = true ∧ live.streamTrib 47 = none := by decide +kernel

/-- The egress buffer of a port with what waits in it. -/
def waiting (owed : Bool) (l : List Block66) : Egress := ⟨l, owed, [], 0, 0, 0⟩

theorem test_witness_PortsAlignFaultAndMatchRates_buffer :
    (waiting true []).owed = true ∧ (about (waiting false []) fun x => x.owed = false ∧ x.waiting = [])
      ∧ (about (waiting false [idleBlock]) fun x => x.owed = false ∧ x.waiting = idleBlock :: []
        ∧ x.waiting.length ≤ 2176)
      ∧ (about (waiting false (List.replicate 2177 idleBlock)) fun x => x.owed = false
        ∧ x.waiting = idleBlock :: List.replicate 2176 idleBlock ∧ 2176 < x.waiting.length)
      ∧ (about (waiting false (errorBlock :: List.replicate 2176 idleBlock)) fun x => x.owed = false
        ∧ x.waiting = errorBlock :: List.replicate 2176 idleBlock ∧ errorBlock ≠ idleBlock) := by decide +kernel

/-! ## Memory integrity -/

/-- A line of row 9 of stack 0, and line 64 of domain 15, are weak. -/
def weakAt (s : State) : State := s.setBlob .weakList 0 ([6] ++ leBytes 8 (2048 * 9) ++ [15] ++ leBytes 8 64)

/-- A stack that repairs a row, with a weak one beside it. -/
def spared : State :=
  weakAt { live with
    regs := [((.memSparesLeft, 6), 1), ((.memSparesLeft, 15), 1), ((.xRepairRun, 3), 1)]
    repairs := [(3, 8)], redirects := [(9, 8)] }

theorem test_witness_MemoryErrorsAreHandled :
    ((st [(.scrubEnable, 0, 0)]).flag .scrubEnable 0 = false ∧ 64 ≠ (st [(.xScrubAt, 15, 128)]).nat .xScrubAt 15)
      ∧ (on { st [(.scrubEnable, 0, 1), (.xScrubAt, 15, 64)] with tracker := [⟨15, 64, 2, 0⟩] } fun s => s.phase = .running
        ∧ s.flag .scrubEnable 0 = true ∧ 64 = s.nat .xScrubAt 15
        ∧ s.tracker.find? (fun x => x.domain == (15 : Fin 16).val && x.line == 64) = some ⟨15, 64, 2, 0⟩
        ∧ s.inLap ⟨15, 64, 2, 0⟩ = true)
      ∧ (about ([(0, .txClearData 0 0), (1, .flowData 0 0), (2, .tribData 0 0)] : List (Nat × HeldWord)) fun l => l.length ≤ 8 ∧ ∀ e ∈ l, e.1 ≤ 2)
      ∧ (spared.phase = .running ∧ spared.spareFor 6 9 = true ∧ isHbm 6 = true ∧ (6, 9) ∉ spared.redirects
        ∧ spared.rowWeak 6 9 = true ∧ (st [(.memSparesLeft, 6, 0)]).spareFor 6 9 = false
          ∧ (9, 8) ∈ spared.redirects ∧ live.rowWeak 6 9 = false
        ∧ spared.repairRunning 3 = some (3, 8) ∧ spared.repairRunning 2 = none) := by decide +kernel

theorem test_witness_MemoryErrorsAreHandled_static :
    isHbm 15 = false ∧ spared.spareFor 15 (rowOfLine 15 64) = true ∧ (15, rowOfLine 15 64) ∉ spared.redirects
      ∧ spared.rowWeak 15 (rowOfLine 15 64) = true := by
  have u : ∀ i, spared.get .xMacroUsed i = 0 := fun i => by
    have e : spared.regs = [((.memSparesLeft, 6), 1), ((.memSparesLeft, 15), 1), ((.xRepairRun, 3), 1)] := rfl
    unfold State.get
    rw [e]
    unfold sget sget sget sget
    rw [if_neg (fun h => nomatch h), if_neg (fun h => nomatch h), if_neg (fun h => nomatch h)]
    rfl
  refine ⟨by decide, ?_, ?_, ?_⟩
  · unfold State.spareFor
    rw [u]
    decide +kernel
  · intro h
    have h : (15, rowOfLine 15 64) ∈ [(9, 8)] := h
    simp at h
  · unfold State.rowWeak
    rw [List.any_eq_true]
    refine ⟨1, by decide +kernel, ?_⟩
    have e : ((spared.blob .weakList 0).drop (9 * 1)).take 9 = [15] ++ leBytes 8 64 := by decide +kernel
    rw [e]
    simp only [Bool.and_eq_true, beq_iff_eq]
    exact ⟨by decide, congrArg (rowOfLine 15) (by decide)⟩

/-! ## The bulk mover -/

/-- One descriptor: 8 bytes from address 2048 to address 0, and its 32 bytes. -/
def moved : Descriptor := ⟨2048, 0, 8, 1, true, 2⟩
def posted : List Byte := leBytes 8 2048 ++ leBytes 8 0 ++ leBytes 4 8 ++ leBytes 2 1 ++ [1] ++ List.replicate 9 0

/-- The block with ring 63 enabled and holding descriptors. -/
def ringed (d : List Descriptor) (l : List (Reg × Nat × Int)) : State :=
  { st ((.ringEnable, 63, 1) :: l) with descriptors := [(63, d)] }

theorem test_witness_RingsWindowsAndCapturesAreControlled_rings :
    (Safety.allowed live cl .ringPost 63 (.bytes posted) ∧ (pieces posted).all descriptorOk = true
        ∧ (live.descs 63).length + (pieces posted).length ≤ 256)
      ∧ (Safety.allowed live cl .ringPost 63 (.bytes (List.replicate 32 255))
        ∧ (pieces (List.replicate 32 255)).all descriptorOk = false)
      ∧ (on (ringed (List.replicate 256 moved) []) fun s => Safety.allowed s cl .ringPost 63 (.bytes posted)
        ∧ 256 < (s.descs 63).length + (pieces posted).length)
      ∧ (on (ringed [moved] [(.xRingHalted, 63, 1)]) fun s => Safety.allowed s cl .ringControl 63 (.int 1)
        ∧ Safety.allowed s cl .ringControl 63 (.int 2) ∧ Safety.allowed s cl .ringControl 63 (.int 3)
        ∧ s.flag .xRingHalted 63 = true)
      ∧ (Safety.allowed live cl .ringControl 63 (.int 1) ∧ live.flag .xRingHalted 63 = false) := by
  unfold Safety.allowed Safety.fresh; decide +kernel

/-- A window of 4 KiB at mover address 0 into HBM scratch, open to every class, as 16 bytes. -/
def openWindow : List Byte := leBytes 16 (2 ^ 127 + 2 ^ 116 + 63 * 2 ^ 96)

theorem test_witness_RingsWindowsAndCapturesAreControlled_windows :
    (on (ringed [moved] []) fun s => Safety.allowed s cl .ringControl 63 (.int 3) ∧ s.ringStateNow 63 ≠ 2
        ∧ s.ringStateNow 63 ≠ 3)
      ∧ (on (ringed [moved] [(.xRingRun, 0, 64)]) fun s => Safety.allowed s cl .ringControl 63 (.int 3)
        ∧ s.ringStateNow 63 = 2)
      ∧ (Safety.allowed live cl .windowEntry 0 (.bytes (List.replicate 16 255))
        ∧ windowReserved (leNat (List.replicate 16 (255 : Byte))) = true)
      ∧ (Safety.allowed live cl .windowEntry 0 (.bytes (leBytes 16 (2 ^ 127)))
        ∧ windowReserved (leNat (leBytes 16 (2 ^ 127))) = false ∧ (windowOf (leNat (leBytes 16 (2 ^ 127)))).bad = true)
      ∧ (Safety.allowed live cl .windowEntry 0 (.bytes openWindow) ∧ windowReserved (leNat openWindow) = false
        ∧ (windowOf (leNat openWindow)).bad = false
        ∧ ∀ k < 256, k ≠ 0 → (live.window k).enable = true →
          (windowOf (leNat openWindow)).meets (live.window k) = false) := by
  unfold Safety.allowed Safety.fresh; decide +kernel

theorem test_witness_RingsWindowsAndCapturesAreControlled_captures :
    Safety.allowed live cl .captureControl 11 (.int 1) ∧ Safety.allowed live cl .captureControl 11 (.int 2)
      ∧ (on (st [(.captureState, 11, 2), (.xCaptureLength, 11, 4), (.xCaptureFilled, 11, 4096)]) fun s =>
        s.phase = .running ∧ s.get .captureState 11 = 2
          ∧ 1024 * s.get .xCaptureLength 11 ≤ s.get .xCaptureFilled 11) := by
  unfold Safety.allowed Safety.fresh; decide +kernel

theorem test_witness_GranulesMoveCheckedBytes :
    (live.get .xRingRun 0 = 0 ∧ live.topRings = [])
      ∧ (on (ringed [moved] [(.xRingRun, 0, 64)]) fun s => s.phase = .running ∧ s.get .xRingRun 0 = (63 + 1 : Nat)
        ∧ s.descs 63 = moved :: [] ∧ moved.length ≤ 4096 * (s.nat .ringGranule 63 + 1)
        ∧ s.blob .xRingAside 63 = [])
      ∧ (on (ringed [{ moved with length := 8192 }] [(.xRingRun, 0, 64)]) fun s =>
        4096 * (s.nat .ringGranule 63 + 1) < { moved with length := 8192 }.length)
      ∧ (on (ringed [moved] []) fun s => s.phase = .running ∧ s.get .xRingRun 0 = 0 ∧ s.chooseRing.1 = some 63
        ∧ s.descs 63 = moved :: [] ∧ s.get .xRingMark 63 = 0
        ∧ (s.granuleFault moved (s.nat .ringGranule 63)).isSome = true) := by decide +kernel

/-- The block with that window and the descriptor ready to move. -/
def moving : State := (ringed [moved] [(.xHbmTrained, 0, 1)]).setBlob .windowEntry 0 openWindow

/-- Where a byte of the first granule is stored, as the statement computes it. -/
def storedAt (k : Nat) : Option Nat := (moving.translate (moved.dest + 0 + k)).map fun p => p.target * 2 ^ 33 + p.off

theorem storedAt_row : ∀ a < 64, ∀ b < 64, storedAt (64 * a + b) = some (2 ^ 33 + (64 * a + b)) := by decide +kernel

theorem storedAt_eq {k : Nat} (h : k < 4096) : storedAt k = some (2 ^ 33 + k) := by
  have r := storedAt_row (k / 64) (by omega) (k % 64) (by omega)
  rwa [Nat.div_add_mod] at r

theorem test_witness_GranulesMoveCheckedBytes_moved :
    (moving.phase = .running ∧ moving.get .xRingRun 0 = 0 ∧ moving.chooseRing.1 = some 63
      ∧ moving.descs 63 = moved :: [] ∧ moving.get .xRingMark 63 = 0 ∧ moving.nat .ringGranule 63 = 0
      ∧ moving.granuleFault moved 0 = none ∧ (moving.translate (moved.dest + 0 + 5)).map Place.target = some 1)
      ∧ (∀ k < 4096, storedAt k ≠ some 7) ∧ ∀ j < 4096, j ≠ 5 → storedAt j ≠ storedAt 5 := by
  refine ⟨by decide +kernel, fun k h => ?_, fun j h n => ?_⟩
  · rw [storedAt_eq h]
    intro e
    injection e
    omega
  · rw [storedAt_eq h, storedAt_eq (by decide)]
    intro e
    injection e
    omega

/-! ## The management plane -/

/-- The block once the client's request is taken. -/
def taken (s : State) : State := (s.hear cl.mac).dequeue cl

/-- A list of weak lines of more bytes than one message carries. -/
def weak (n : Nat) : State := live.setBlob .weakList 0 (List.replicate n 1)

theorem test_found :
    (findObject cl 0x2000 10).toOption = some (.deviceReset, 0)
      ∧ (findObject cl 0x2000 5).toOption = some (.deviceHavenTxPolicy, 0)
      ∧ (findObject cl 0xE000 4).toOption = some (.weakList, 0)
      ∧ (findObject cl 0x3084 1).toOption = some (.carrierTtiTransmit, 0) := by
  decide +kernel

theorem test_witness_ReadsAnswerValuesAndTakeEffect :
    (Safety.fresh live cl ∧ (taken live).checkRead cl .deviceReset = some (.abort 5 0 0))
      ∧ ((taken live).checkRead cl .deviceHavenTxPolicy = none
        ∧ ((taken live).valueBytes cl .deviceHavenTxPolicy ((taken live).unitOf cl .deviceHavenTxPolicy 0)).length ≤ 1388)
      ∧ (Safety.fresh (weak 1400) cl ∧ (taken (weak 1400)).checkRead cl .weakList = none
        ∧ 1388 < ((taken (weak 1400)).valueBytes cl .weakList ((taken (weak 1400)).unitOf cl .weakList 0)).length)
      ∧ (Safety.fresh (weak 9) cl ∧ Reg.wireAt .weakList 0 = .domain ∧ (taken (weak 9)).checkRead cl .weakList = none
        ∧ (9 : Fin 4294967296).val
          ≤ ((taken (weak 9)).blockValue cl .weakList ((taken (weak 9)).unitOf cl .weakList 0) 9).1.length)
      ∧ (taken live).checkRead cl .filterResult = none
      ∧ clientAddress cl .tsqPop 0 = some (0x8100, 1) ∧ clientAddress cl .monResult 63 = some (0x913F, 1)
      ∧ clientAddress cl .hkInjResult 1 = some (0x9001, 12) := by unfold Safety.fresh; decide +kernel

theorem test_witness_TimeReadsAnswerTwelveBytes :
    Safety.fresh live cl ∧ (0x8030 : Fin 65536).val = 0x8000 + 16 * (3 : Fin 4).val := by
  unfold Safety.fresh; decide +kernel

theorem test_witness_WritesAreStoredStagedAndCommitted_plain :
    Safety.fresh live cl ∧ live.flag .xResetDue 0 = false
      ∧ wireAbort .deviceHavenTxPolicy 0 (2 : Fin 256) [(1 : Byte)].length = none
      ∧ clientValue cl .deviceHavenTxPolicy 0 [1] = .int 1
      ∧ live.checkWrite cl .deviceHavenTxPolicy 0 (.int 1) = none := by unfold Safety.fresh; decide +kernel

theorem test_witness_WritesAreStoredStagedAndCommitted_stores (u : Nat) (b : List Byte) :
    applyWrite cl .deviceHavenTxPolicy u (.int 1) = storeReg .deviceHavenTxPolicy u (.int 1)
      ∧ applyWrite cl .carrierTtiTransmit u (.bytes b) = storeReg .carrierTtiTransmit u (.bytes b) := ⟨rfl, rfl⟩

/-- The entry that a staged write of 1 to 2000.05 makes. -/
def entry : Staged := ⟨.deviceHavenTxPolicy, live.unitOf cl .deviceHavenTxPolicy 0, 0, 0x2000, 5, .int 1⟩

/-- The block with staging buffers open. -/
def staged (l : List Staging) : State := { live with staging := l }

/-- A source's write of an absolute time of a whole second of nanoseconds, and of a key in Dormant, are refused as they are
staged. -/
theorem test_witness_WritesAreStoredStagedAndCommitted_refused :
    (wireAbort .tbaseSet 3 (11 : Fin 256) 12 = none
        ∧ about (clientValue cl .tbaseSet 3 (leBytes 6 0 ++ leBytes 4 1000000000 ++ leBytes 2 0)) fun v =>
          live.checkWrite cl .tbaseSet 3 v = none ∧ (applyWrite cl .tbaseSet 3 v (taken live)).2 = .abort 7 0 0)
      ∧ (wireAbort .slotLoad 0 (11 : Fin 256) 60 = none
        ∧ about (clientValue cl .slotLoad 0 goodLoad) fun v =>
          live.checkWrite cl .slotLoad 0 v = none
            ∧ (applyWrite cl .slotLoad (live.unitOf cl .slotLoad 0) v (taken live)).2 = .abort 6 5 0) := by
  decide +kernel

theorem test_witness_WritesAreStoredStagedAndCommitted_staged :
    ((applyWrite cl .deviceHavenTxPolicy 0 (clientValue cl .deviceHavenTxPolicy 0 [1]) (taken live)).2 = accepted
      ∧ live.checkWrite cl .deviceHavenTxPolicy 0 (clientValue cl .deviceHavenTxPolicy 0 [1]) = none
      ∧ live.stagedBy cl = none ∧ live.staging.length < 4 ∧ entry.size ≤ 8192)
      ∧ (on (staged [⟨5, false, [entry], 0⟩]) fun s => Safety.fresh s cl
        ∧ s.checkWrite cl .deviceHavenTxPolicy 0 (clientValue cl .deviceHavenTxPolicy 0 [1]) = none
        ∧ s.stagedBy cl = some ⟨5, false, [entry], 0⟩ ∧ [entry].length < 64
        ∧ ([entry].map Staged.size).sum + entry.size ≤ 8192)
      ∧ (on (staged [⟨1, false, [], 0⟩, ⟨2, false, [], 0⟩, ⟨3, false, [], 0⟩, ⟨4, false, [], 0⟩]) fun s => Safety.fresh s cl
        ∧ s.checkWrite cl .deviceHavenTxPolicy 0 (clientValue cl .deviceHavenTxPolicy 0 [1]) = none
        ∧ s.stagedBy cl = none ∧ 4 ≤ s.staging.length) := by unfold Safety.fresh; decide +kernel

theorem test_witness_WritesAreStoredStagedAndCommitted_commit :
    (Safety.fresh live cl ∧ live.flag .xResetDue 0 = false ∧ 1 ≤ live.clientClass cl.mac ∧ live.stagedBy cl = none)
      ∧ (on (staged [⟨5, false, [entry], 0⟩]) fun s => s.flag .xResetDue 0 = false ∧ 1 ≤ s.clientClass cl.mac
        ∧ s.stagedBy cl = some ⟨5, false, [entry], 0⟩ ∧ s.phase = .running
        ∧ ∀ x ∈ s.staging, x.mac = 5 → x.fore = false →
          s.get .xTicks 0 - (x.at_ : Int) < 250000 * s.get .bdapStagingTimeout 0)
      ∧ (on { st [(.xTicks, 0, 2500000000)] with staging := [⟨5, false, [entry], 0⟩] } fun s =>
        ∃ x ∈ s.staging, x.mac = 5 ∧ x.fore = false
          ∧ 250000 * s.get .bdapStagingTimeout 0 ≤ s.get .xTicks 0 - (x.at_ : Int)) := by
  unfold Safety.fresh; decide +kernel

/-- An open transfer of 64 bytes to 3084.01, 32 of them taken. -/
def opened : State := { live with transfers := [⟨5, false, 0x3084, 1, 64, List.replicate 32 1, 0⟩] }

theorem test_witness_WritesAreStoredStagedAndCommitted_blocks :
    (Safety.fresh live cl ∧ live.flag .xResetDue 0 = false ∧ Reg.wireAt .carrierTtiTransmit 0 = .domain
      ∧ live.accessAbort cl .carrierTtiTransmit = none ∧ lengthAbort cl .carrierTtiTransmit 0 64 = none
      ∧ (List.replicate 32 (1 : Byte)).length ≤ (64 : Fin 4294967296).val)
      ∧ (Safety.fresh opened cl ∧ opened.flag .xResetDue 0 = false
        ∧ opened.transfers.find? (fun x => x.mac == cl.mac && x.fore == cl.fore)
          = some ⟨5, false, 0x3084, 1, 64, List.replicate 32 1, 0⟩
        ∧ (32 : Fin 4294967296).val = (List.replicate 32 (1 : Byte)).length
        ∧ (List.replicate 32 (1 : Byte) ++ List.replicate 32 2).length = (64 : Fin 4294967296).val
        ∧ opened.checkWrite cl .carrierTtiTransmit 0 (.bytes (List.replicate 32 1 ++ List.replicate 32 2)) = none
        ∧ (31 : Fin 4294967296).val ≠ (List.replicate 32 (1 : Byte)).length)
      ∧ (on { st [(.xTicks, 0, 250000000)] with transfers := [⟨5, false, 0x3084, 1, 64, [], 0⟩] } fun s => s.phase = .running
        ∧ ∃ x ∈ s.transfers, x.mac = 5 ∧ x.fore = false ∧ x.at_ + 250000000 ≤ s.nat .xTicks 0)
      ∧ (¬ ∃ x ∈ opened.transfers, x.mac = 5 ∧ x.fore = false ∧ x.at_ + 250000000 ≤ opened.nat .xTicks 0) := by
  unfold Safety.fresh; decide +kernel

/-- Two records, and a subscriber in slot 7 that may wait for an acknowledgement of them. -/
def records : List EventRec := [⟨1152, 3, 0, 0, []⟩, ⟨1152, 3, 1, 0, []⟩]
def listener (a : Option Awaiting) : Subscriber := ⟨7, 5, false, 0, 15, records, 0, 0, 0, a⟩
def heard (l : List Subscriber) : State := { live with subscribers := l }

theorem test_witness_SubscribersAreServedAndLapse :
    (Safety.fresh live cl ∧ (∀ u ∈ live.subscribers, u.is cl.mac cl.fore = false) ∧ live.freeSlot = some 0)
      ∧ (on (heard ((List.range 8).map fun n => ⟨n, 6, false, 0, 15, [], 0, 0, 0, none⟩)) fun s => Safety.fresh s cl
        ∧ (∀ u ∈ s.subscribers, u.is cl.mac cl.fore = false) ∧ s.freeSlot = none)
      ∧ (on (heard [listener none]) fun s => Safety.fresh s cl
        ∧ s.subscribers.find? (fun u => u.is cl.mac cl.fore) = some (listener none) ∧ s.phase = .running
        ∧ s.subscribers.find? (fun u => u.slot == (7 : Fin 8).val) = some (listener none)
        ∧ (listener none).awaiting = none ∧ (listener none).queue ≠ [] ∧ (listener none).gapCount = 0
        ∧ (listener none).fore = false)
      ∧ (∀ n ∈ [3, 4], on (heard [listener (some ⟨1, records, n⟩)]) fun s => s.answers cl = true
        ∧ s.subscribers.find? (fun u => u.slot == (7 : Fin 8).val) = some (listener (some ⟨1, records, n⟩))
        ∧ s.subscribers.find? (fun u => u.is cl.mac cl.fore) = some (listener (some ⟨1, records, n⟩)))
      ∧ (1 : Nat) = cl.seq ∧ (2 : Nat) ≠ cl.seq := by unfold Safety.fresh; decide +kernel

/-- A frame to the native station of ADDR 0 from source 5: version 1, an opcode, sequence 1, and its payload. -/
def framed (op : Byte) (payload : List Byte) : List Byte :=
  [0x02, 0x5A, 0x4C, 0x96, 0x12, 0, 0, 0, 0, 0, 0, 5, 0x88, 0xB5, 1, op, 1, 0, 0, 0] ++ leBytes 2 payload.length ++ payload

/-- A READ of 2000.01. -/
def readFrame : List Byte := framed 1 [0x00, 0x20, 1, 0]

theorem test_witness_ManagementFramesAreTakenOrDiscarded :
    (live.phase = .running ∧ live.stationsFor [] = [])
      ∧ (live.stationsFor readFrame = [false] ∧ 22 ≤ readFrame.length ∧ leNat ((readFrame.drop 15).take 1) < 8
        ∧ macOf (readFrame.drop 6) = 5 ∧ live.clientClass 5 ≠ 3
        ∧ (live.view ⟨5, 0, false, leNat ((readFrame.drop 16).take 2)⟩).recent.find? (fun x => x.seq == 1) = none
        ∧ live.requests.length < 32 ∧ parseMessage readFrame.length (readFrame.drop 14) = .read 0x2000 1)
      ∧ (live.stationsFor (framed 1 []) = [false] ∧ 22 ≤ (framed 1 []).length ∧ live.requests = []
        ∧ leNat (((framed 1 []).drop 15).take 1) < 8
        ∧ parseMessage (framed 1 []).length ((framed 1 []).drop 14) = .malformed)
      ∧ (on { live with requests := [⟨{ cl with mac := 6 }, .commit⟩] } fun s => s.stationsFor (framed 1 []) = [false]
        ∧ s.clientClass 5 ≠ 3 ∧ (s.view ⟨5, 0, false, 1⟩).recent.find? (fun x => x.seq == 1) = none
        ∧ s.requests.length < 32 ∧ s.requests ≠ [])
      ∧ (on { live with requests := List.replicate 32 ⟨{ cl with mac := 6 }, .commit⟩ } fun s =>
        s.stationsFor readFrame = [false] ∧ s.clientClass 5 ≠ 3
          ∧ (s.view ⟨5, 0, false, 1⟩).recent.find? (fun x => x.seq == 1) = none ∧ 32 ≤ s.requests.length)
      ∧ (on (st [(.mgtPlcaEnable, 1, 1), (.mgtPlcaNodeId, 1, 0), (.mgtStatus, 1, 0)]) fun s =>
        s.get .mgtStatus 1 ≠ ((1 : Fin 3).val : Int) ∧ decide ((1 : Fin 3).val = 2) ≠ s.flag .mgtPlcaEnable 1
          ∧ (s.plcaCoordinator 1 = true → (1 : Fin 3).val = 1))
      ∧ (live.get .mgtStatus 1 = ((2 : Fin 3).val : Int) ∨ live.get .mgtStatus 1 = ((0 : Fin 3).val : Int))
      ∧ ¬ (decide ((1 : Fin 3).val = 2) ≠ (st [(.mgtPlcaEnable, 1, 0)]).flag .mgtPlcaEnable 1
        ∧ ((st [(.mgtPlcaEnable, 1, 0)]).plcaCoordinator 1 = true → (1 : Fin 3).val = 1)) := by
  decide +kernel

/-! ## Events, inputs, counters -/

theorem test_witness_RaisingAnEventRecordsIt :
    (on (st [(.eventEnable, 0, 0), (.eventEnable, 1, 1), (.eventSeverity, 1, 3), (.eventSeverity, 2, 2)]) fun s =>
        s.flag .eventEnable 0 = false ∧ s.flag .eventEnable 1 = true ∧ s.ring.length < 1024
          ∧ s.nat .eventSeverity 1 = 3 ∧ s.nat .eventSeverity 2 ≠ 3)
      ∧ on { live with ring := List.replicate 1024 ⟨0, 0, 0, 0, []⟩ } fun s => 1024 ≤ s.ring.length := by
  decide +kernel

theorem test_witness_LatchesClearAndInputsAreSampled :
    Safety.allowed live cl .eventLatched 1407 (.int 1) ∧ Safety.allowed live cl .ringClearLatched 0 (.int 1)
      ∧ (on (st [(.inputDebounce, 0, 0), (.inputDebounce, 1, 1)]) fun s => s.phase = .running
        ∧ s.inputActive 0 true = s.bit .inputState 0 0 ∧ s.inputActive 0 false ≠ s.bit .inputState 0 0
        ∧ s.get .inputDebounce 0 = 0 ∧ s.get .xInRun 0 = 0 ∧ s.inputActive 1 false ≠ s.bit .inputState 1 0
        ∧ s.get .xInRun 1 = 0 ∧ 0 < s.get .inputDebounce 1)
      ∧ (on (st [(.inputState, 35, 1), (.inputStuckLimit, 35, 1), (.xInSamples, 0, 1001)]) fun s => s.phase = .running
        ∧ s.bit .inputState 35 0 = true ∧ s.bit .inputState 35 1 = false
        ∧ 1000 * s.get .inputStuckLimit 35 < s.get .xInSamples 0 - s.get .xInLastEdge 35)
      ∧ live.bit .inputState 35 0 = false
      ∧ (on (st [(.inputState, 0, 4), (.xInLimit, 0, 10), (.xInWindow, 0, 1), (.inputState, 1, 4), (.xInLimit, 1, 9),
            (.xInWindow, 1, 1)]) fun s =>
        s.bit .inputState 0 2 = true ∧ 10 * s.get .xInWindow 0 ≤ s.get .xInLimit 0 ∧ s.bit .inputState 1 2 = true
          ∧ s.get .xInLimit 1 < 10 * s.get .xInWindow 1) := by unfold Safety.allowed Safety.fresh; decide +kernel

theorem test_witness_SnapshotsAreGatheredAndWrapsCleared :
    (Safety.fresh live cl ∧ 1 ≤ live.clientClass cl.mac ∧ live.flag .snapBusy 0 = false)
      ∧ (on (st [(.snapBusy, 0, 1), (.xSnapPending, 0, 4)]) fun s => Safety.fresh s cl ∧ 1 ≤ s.clientClass cl.mac
        ∧ s.flag .snapBusy 0 = true ∧ s.phase = .running ∧ s.bit .xSnapPending 0 2 = true)
      ∧ (on (st [(.snapBusy, 0, 1), (.xSnapPending, 0, 1)]) fun s => s.bit .xSnapPending 0 2 = false)
      ∧ Safety.allowed live cl .snapClearWraps 0 (.int (1 : Fin 256).val)
      ∧ counterGroup .carrierFecCodewords = some 0 ∧ bitOf 1 0 = true ∧ Reg.carrierFecCodewords ≠ .bdapRequests
      ∧ counterGroup .bdapAborts = some 4 ∧ bitOf 1 4 = false ∧ Reg.bdapAborts ≠ .bdapRequests := by
  unfold Safety.allowed Safety.fresh; decide +kernel

/-! ## Time -/

theorem test_witness_TimeBasesCountAndStep_ticks :
    (on (st [(.xTbNs, 0, 999999996)]) fun s => s.phase = .running ∧ 0 ≤ s.get .tbaseIncrement 0
        ∧ s.get .xStepDue 0 = 0 ∧ s.tbTotal 0 + s.nat .tbaseIncrement 0 < 2 ^ 48 * secondUnits ∧ 0 ≤ s.nextTotal 0
        ∧ s.nextTotal 0 < 2 ^ 48 * (secondUnits : Int) ∧ s.nat .ppsOutSource 0 < 4 ∧ s.get .xPpsHigh 0 = 0
        ∧ ((s.tbTotal (s.nat .ppsOutSource 0) : Int) - s.get .ppsOutOffset 0 * 2 ^ 32) / (secondUnits : Int)
          < ((s.tbTotal (s.nat .ppsOutSource 0) + s.nat .tbaseIncrement (s.nat .ppsOutSource 0) : Nat)
            - s.get .ppsOutOffset 0 * 2 ^ 32) / (secondUnits : Int))
      ∧ (on (st [(.xStepDue, 1, 1), (.xStepPending, 1, 2 ^ 32), (.xStepDue, 2, 2), (.xStepPending, 2, 5)]) fun s =>
        s.get .xStepDue 1 = 1 ∧ 0 ≤ s.nextTotal 1 ∧ s.get .xStepDue 2 = 2 ∧ 0 ≤ s.nextTotal 2)
      ∧ (live.get .tclkSource 0 ≠ 0 ∧ (st [(.tclkSource, 0, 0)]).get .tclkSource 0 = 0
        ∧ (st [(.tclkMode, 0, 2)]).get .tclkMode 0 = 2 ∧ live.get .tclkMode 0 ≠ 2)
      ∧ (live.get .xPpsUntil 3 ≤ live.get .xTicks 0
        ∧ (st [(.xPpsUntil, 3, 1)]).get .xTicks 0 < (st [(.xPpsUntil, 3, 1)]).get .xPpsUntil 3) := by decide +kernel

theorem test_witness_TimeBasesCountAndStep_offset :
    (Safety.allowed live cl .tbaseOffset 3 (.int (-5)) ∧ live.nextTotal 3 + -5 * 2 ^ 32 < 0)
      ∧ (Safety.allowed live cl .tbaseOffset 3 (.int 1001) ∧ 0 ≤ live.nextTotal 3 + 1001 * 2 ^ 32
        ∧ live.nextTotal 3 + 1001 * 2 ^ 32 < 2 ^ 48 * (secondUnits : Int) ∧ live.get .tbaseForce 3 = 0
        ∧ live.get .tbaseStepThreshold 3 * 2 ^ 32 < (((1001 : Int) * 2 ^ 32).natAbs : Int))
      ∧ (Safety.allowed live cl .tbaseOffset 3 (.int 1000) ∧ 0 ≤ live.nextTotal 3 + 1000 * 2 ^ 32
        ∧ live.nextTotal 3 + 1000 * 2 ^ 32 < 2 ^ 48 * (secondUnits : Int)
        ∧ (((1000 : Int) * 2 ^ 32).natAbs : Int) ≤ live.get .tbaseStepThreshold 3 * 2 ^ 32) := by
  unfold Safety.allowed Safety.fresh; decide +kernel

/-- The 12 bytes of an absolute time of seconds and nanoseconds. -/
def clock (sec ns : Nat) : List Byte := leBytes 6 sec ++ leBytes 4 ns ++ leBytes 2 0

theorem test_witness_TimeBasesCountAndStep_set :
    (Safety.allowed live cl .tbaseSet 3 (.bytes (clock 0 1000000000))
        ∧ 1000000000 ≤ leNat (((clock 0 1000000000).drop 6).take 4))
      ∧ (Safety.allowed live cl .tbaseSet 3 (.bytes (clock 1 0)) ∧ leNat (((clock 1 0).drop 6).take 4) < 1000000000
        ∧ live.get .tbaseForce 3 = 0
        ∧ live.get .tbaseStepThreshold 3 * 2 ^ 32 < (((secondUnits : Int) - live.nextTotal 3).natAbs : Int))
      ∧ (Safety.allowed live cl .tbaseSet 3 (.bytes (clock 0 999)) ∧ leNat (((clock 0 999).drop 6).take 4) < 1000000000
        ∧ (((999 * 2 ^ 32 : Int) - live.nextTotal 3).natAbs : Int) ≤ live.get .tbaseStepThreshold 3 * 2 ^ 32) := by
  unfold Safety.allowed Safety.fresh; decide +kernel

/-! ## Housekeeping -/

/-- Converter 1 converts an entry of its sequence: inputs 5, the reference, ground. -/
def converting (l : List (Reg × Nat × Int)) : State :=
  (st ((.hkState, 1, 1) :: (.xHkSeqActive, 1, 1) :: l)).setBlob .xHkSequence 1 [5, 0, 64, 0, 65, 0]

theorem test_witness_HousekeepingConvertsAndCalibrates_conversions :
    (on (converting [(.monResult, 5, 2 ^ 30)]) fun s => s.phase = .running ∧ s.get .hkState 1 = 1
        ∧ hkChannel (s.hkCurrent 1) = 5 ∧ s.bit .monResult 5 30 = true ∧ s.flag .xHkSeqActive 1 = true
        ∧ s.nat .xHkIndex 1 + 1 < (s.blob .xHkSequence 1).length / 2)
      ∧ hkChannel ((converting [(.xHkIndex, 1, 1)]).hkCurrent 1) = 64
      ∧ (on (converting [(.xHkIndex, 1, 2)]) fun s => 65 ≤ hkChannel (s.hkCurrent 1)
        ∧ (s.blob .xHkSequence 1).length / 2 ≤ s.nat .xHkIndex 1 + 1)
      ∧ (on (st [(.hkState, 1, 2), (.xHkInjInForce, 1, 5)]) fun s => s.get .hkState 1 = 2
        ∧ hkChannel (s.hkCurrent 1) < 64)
      ∧ live.get .hkState 1 ≠ 1 ∧ live.get .hkState 1 ≠ 2 := by decide +kernel

theorem test_witness_HousekeepingConvertsAndCalibrates_sequences :
    (Safety.allowed live cl .hkSeqStart 1 (.int 1) ∧ live.get .hkSeqTrigger 1 ≠ 0)
      ∧ (on (st [(.hkSeqTrigger, 1, 0)]) fun s => Safety.allowed s cl .hkSeqStart 1 (.int 1)
        ∧ s.get .hkSeqTrigger 1 = 0 ∧ s.flag .xHkSeqActive 1 = false ∧ s.get .hkState 1 ≠ 3 ∧ s.get .hkState 1 = 0)
      ∧ (on (converting [(.hkSeqTrigger, 1, 0)]) fun s => Safety.allowed s cl .hkSeqStart 1 (.int 1)
        ∧ s.get .hkSeqTrigger 1 = 0 ∧ s.flag .xHkSeqActive 1 = true)
      ∧ (on (st [(.hkSeqTrigger, 1, 0), (.hkState, 1, 3)]) fun s => Safety.allowed s cl .hkSeqStart 1 (.int 1)
        ∧ s.flag .xHkSeqActive 1 = false ∧ s.get .hkState 1 = 3 ∧ s.flag .xHkHeld 1 = false) := by
  unfold Safety.allowed Safety.fresh; decide +kernel

theorem test_witness_HousekeepingConvertsAndCalibrates_injected :
    (Safety.allowed live cl .hkInjStart 1 (.int 1) ∧ live.get .hkInjTrigger 1 = 0 ∧ live.flag .xHkInjPending 1 = false
        ∧ live.get .hkState 1 = 0)
      ∧ (∀ k ∈ [(1 : Int), 3], on (st [(.hkState, 1, k)]) fun s => Safety.allowed s cl .hkInjStart 1 (.int 1)
        ∧ s.get .hkInjTrigger 1 = 0 ∧ s.flag .xHkInjPending 1 = false ∧ s.get .hkState 1 = k)
      ∧ (on (st [(.xHkInjPending, 1, 1)]) fun s => Safety.allowed s cl .hkInjStart 1 (.int 1)
        ∧ s.flag .xHkInjPending 1 = true) := by unfold Safety.allowed Safety.fresh; decide +kernel

theorem test_witness_HousekeepingConvertsAndCalibrates_requests :
    (on (st [(.hkCalState, 1, 2)]) fun s => Safety.allowed s cl .hkCalRequest 1 (.int 1) ∧ s.hkCalBusy 1 = true)
      ∧ (Safety.allowed live cl .hkCalRequest 1 (.int 1) ∧ live.hkCalBusy 1 = false ∧ live.flag .xHkInjPending 1 = false
        ∧ live.get .hkState 1 = 0)
      ∧ (on (st [(.hkState, 1, 2)]) fun s => Safety.allowed s cl .hkCalRequest 1 (.int 1) ∧ s.hkCalBusy 1 = false
        ∧ s.get .hkState 1 = 2)
      ∧ (on (st [(.hkState, 1, 1)]) fun s => Safety.allowed s cl .hkCalRequest 1 (.int 1) ∧ s.hkCalBusy 1 = false
        ∧ s.flag .xHkInjPending 1 = false ∧ s.get .hkState 1 = 1) := by
  unfold Safety.allowed Safety.fresh; decide +kernel

theorem test_witness_HousekeepingConvertsAndCalibrates_calibration :
    (live.usSince .xHkCalAt 1 (1000000 * live.get .hkCalInterval 1) = false
        ∧ (on (st [(.xTicks, 0, 15000000000)]) fun s => s.phase = .running ∧ s.get .hkCalInterval 1 ≠ 0
          ∧ s.hkCalBusy 1 = false ∧ s.usSince .xHkCalAt 1 (1000000 * s.get .hkCalInterval 1) = true)
        ∧ (st [(.hkCalInterval, 1, 0)]).get .hkCalInterval 1 = 0)
      ∧ (on (st [(.xHkCalWait, 1, 1)]) fun s => s.phase = .running ∧ s.get .hkState 1 < 2
        ∧ s.flag .xHkCalWait 1 = true)
      ∧ (on (st [(.hkState, 1, 1), (.xHkInjPending, 1, 1)]) fun s => s.get .hkState 1 < 2
        ∧ s.flag .xHkCalWait 1 = false ∧ s.flag .xHkInjPending 1 = true)
      ∧ (on (st [(.hkState, 1, 3), (.xHkSeqActive, 1, 1)]) fun s => s.phase = .running ∧ 2 ≤ s.get .hkState 1
        ∧ s.get .hkState 1 = 3 ∧ s.flag .xHkCalWait 1 = false ∧ s.flag .xHkInjPending 1 = false
        ∧ s.flag .xHkSeqActive 1 = true)
      ∧ hkBroken ⟨64, 1000, #v[32, 0]⟩ = 0 ∧ hkBroken ⟨65, 0, #v[0, 0]⟩ ≠ 0
        ∧ hkBroken ⟨0, 0, #v[0, 33]⟩ = 3 := by decide +kernel

/-! ## Pair -/

/-- The block in Pair in a role (1 active, 2 standby), the tie link up on four lanes. -/
def paired (role : Int) (l : List (Reg × Nat × Int)) : State :=
  inMode 4 ([(.pairRole, 0, role), (.tieState, 0, 2), (.tieLanesLocked, 0, 15)] ++ l)

theorem test_witness_TieMessagesAreTaken :
    (on (inMode 3 [(.tieState, 0, 1), (.tieLanesLocked, 0, 1)]) fun s => s.phase = .running ∧ s.get .tieState 0 ≠ 0
        ∧ s.get .tieLanesLocked 0 ≠ 0 ∧ s.get .tieState 0 ≠ 2 ∧ s.pairStandby = false)
      ∧ (on (paired 2 []) fun s => s.inPair = true ∧ ((1 : Fin 3).val : Int) = 3 - s.get .pairRole 0
        ∧ s.pairStandby = true ∧ s.loadCode 0 [] true ≠ 0)
      ∧ (on ((paired 2 [(.kekState, 0, 2)]).setBlob .xKekFuse 0 kekBytes) fun s => s.pairStandby = true ∧ s.mode ≠ 0
        ∧ s.flag .cipherZero 0 = false ∧ s.flag .xSlotTxPend 0 = false)
      ∧ (on (paired 2 [(.xSlotReg, 0, 1), (.xSlotReg, 1, 1), (.xLease, 1, 4294967296)]) fun s => s.regState 0 0 ≠ 0
        ∧ s.get .xLease 0 = 0 ∧ s.regState 0 1 ≠ 0 ∧ s.get .xLease 1 ≠ 0)
      ∧ (on (paired 1 [(.xLease, 0, 4294967296), (.xSlotCount, 0, 2147483648), (.xLease, 1, 4294967296)]) fun s =>
        s.pairActive = true ∧ s.get .xLease 0 = ((4294967296 : BitVec 64).toNat : Int)
          ∧ (4294967296 : BitVec 64).toNat ≠ 0
          ∧ ((4294967296 : BitVec 64).toNat : Int) ≤ s.get .xSlotCount 0 + 2 ^ 31
          ∧ s.get .xSlotCount 1 + 2 ^ 31 < ((4294967296 : BitVec 64).toNat : Int))
      ∧ live.get .tieState 0 = 0 ∧ live.get .tieLanesLocked 0 = 0 ∧ (0 : Fin 16).val = 0 ∧ (15 : Fin 16).val ≠ 0
      ∧ (on (paired 2 [(.xTicks, 0, 2500)]) fun s => s.phase = .running ∧ s.get .tieState 0 = 2
        ∧ s.usSince .xTieMsgAt 0 10 = true ∧ s.get .pairTieLossPolicy 0 = 0)
      ∧ live.get .tieState 0 ≠ 2 ∧ (paired 2 []).usSince .xTieMsgAt 0 10 = false := by decide +kernel

theorem test_witness_PairRolesSwitch_writes :
    (Safety.allowed live cl .pairSwitch 0 (.int 1) ∧ live.standbyReady = false)
      ∧ (on (paired 1 [(.xPartnerReady, 0, 1)]) fun s => Safety.allowed s cl .pairSwitch 0 (.int 1)
        ∧ s.standbyReady = true ∧ s.pairActive = true ∧ s.get .tieLanesLocked 0 ≠ 0)
      ∧ (on (paired 2 [(.pairReady, 0, 1)]) fun s => Safety.allowed s cl .pairSwitch 0 (.int 1)
        ∧ s.standbyReady = true ∧ s.pairStandby = true)
      ∧ (Safety.allowed live cl .pairSwitch 0 (.int 2) ∧ live.inPair = false)
      ∧ (on (paired 1 []) fun s => Safety.allowed s cl .pairSwitch 0 (.int 2) ∧ s.get .tieState 0 = 2
        ∧ s.pairActive = true)
      ∧ (on (paired 2 []) fun s => Safety.allowed s cl .pairSwitch 0 (.int 2) ∧ s.get .tieState 0 = 2
        ∧ s.pairStandby = true) := by unfold Safety.allowed Safety.fresh; decide +kernel

theorem test_witness_PairRolesSwitch_causes :
    (on (paired 1 [(.xPartnerReady, 0, 1), (.pairHealthMargin, 0, 1), (.pairPartnerHealth, 0, 12),
        (.xHealthAt, 0, 1), (.xTicks, 0, 2500000)]) fun s =>
        s.phase = .running ∧ s.healthFavours = true ∧ s.pairActive = true
          ∧ s.get .xHealthAt 0 ≠ 0 ∧ 250000 * s.get .pairHoldOff 0 ≤ s.get .xTicks 0 - (s.get .xHealthAt 0 - 1))
      ∧ (on (paired 2 [(.pairReady, 0, 1), (.pairHealthMargin, 0, 1), (.carrierState, 0, 4), (.carrierRequest, 0, 2),
        (.xHealthAt, 0, 1), (.xTicks, 0, 2500000)])
        fun s => s.phase = .running ∧ s.healthFavours = true ∧ s.pairStandby = true
          ∧ s.get .xHealthAt 0 ≠ 0 ∧ 250000 * s.get .pairHoldOff 0 ≤ s.get .xTicks 0 - (s.get .xHealthAt 0 - 1))
      ∧ live.healthFavours = false
      ∧ (on (paired 2 []) fun s => s.phase = .running ∧ s.get .tieState 0 ≠ 0 ∧ s.get .tieLanesLocked 0 ≠ 0
        ∧ s.get .xSwitchTick 0 = 0 ∧ s.flag .pairReady 0 = false)
      ∧ (on (paired 2 [(.xSwitchTick, 0, 1), (.xTicks, 0, 249), (.pairReady, 0, 1)]) fun s => s.get .xSwitchTick 0 ≠ 0
        ∧ s.get .xTicks 0 < s.get .xSwitchTick 0 - 1 + 250 ∧ s.flag .pairReady 0 = true)
      ∧ (on (paired 2 [(.tieState, 0, 1), (.pairTieLossPolicy, 0, 1), (.xTicks, 0, 5000)]) fun s => s.phase = .running
        ∧ s.pairStandby = true ∧ s.get .tieState 0 = 1 ∧ s.get .pairTieLossPolicy 0 = 1 ∧ s.partnerOff = true
        ∧ s.usSince .xTieDownAt 0 20 = true)
      ∧ live.pairStandby = false ∧ (paired 2 []).usSince .xTieDownAt 0 20 = false
        ∧ ¬(live.get .xHealthAt 0 ≠ 0) := by decide +kernel

end Sys2Proof.Tests
end

/-! # The straps (R51)

Settles the statement that the straps are sampled at the rise of PORST_N and at no other time. Kept (Laws/Kept.lean)
speaks of the parts of the state as wholes: with the scope that leaves the part boot it covers every command that writes
no register of that part. The commands that do write one (resets, fuse load, microcode boot, and writes of any object)
are followed with Apart (Laws/Frames.lean), by the registers they write. -/

namespace Sys2Proof.Laws

open Sys2Proof.Machine

/-! ## What keeps the straps -/

/-- The scope that leaves the registers of 2E00 and 2E01 and says nothing of the rest. -/
abbrev bootScope : Scope := fun p => match p with
  | .boot => true
  | _ => false

/-- What bootScope says of each part it does not leave, as the laws of Kept ask for it. -/
theorem fact_false : Fact (false = false) := ⟨rfl⟩

/-- Every register but 2E00.01. -/
def besideStraps (r : Reg) : Bool := decide (r ≠ .bootStraps)

/-- t came from s by writes to registers other than 2E00.01. -/
abbrev StrapsKept (s t : State) : Prop := Apart besideStraps s t

/-- Where the outcome is a next state, the step to it keeps the straps. -/
def StrapsKeptO (s : State) (o : Host.Outcome State Fault Refusal) : Prop := ∀ t, o = .next t → StrapsKept s t

variable {s t u : State} {cl : Client} {r : Reg} {i : Nat} {v : WVal}

theorem strapsKeptO_next (h : StrapsKept s t) : StrapsKeptO s (.next t) := by
  rintro _ ⟨rfl⟩
  exact h

theorem strapsKeptO_live {f : State → State} (hf : StrapsKept s (f s)) : StrapsKeptO s (s.live f) := by
  unfold State.live
  split
  · exact strapsKeptO_next hf
  · exact strapsKeptO_next (Apart.refl s)

theorem strapsKept_iff : StrapsKept s t ↔
    ∀ i, t.get .bootStraps i = s.get .bootStraps i ∧ t.blob .bootStraps i = s.blob .bootStraps i := by
  have only : ∀ {r : Reg}, besideStraps r = false → r = .bootStraps := fun e => by simpa [besideStraps] using e
  refine ⟨fun h i => ⟨h.regs _ i rfl, h.blobs _ i rfl⟩, fun h => ⟨fun r i e => ?_, fun r i e => ?_⟩⟩
  · rw [only e]
    exact (h i).1
  · rw [only e]
    exact (h i).2

theorem Kept.strapsKept (h : Kept bootScope s t) : StrapsKept s t :=
  strapsKept_iff.2 fun i => h.sameRegs .bootStraps i rfl

/-- Registers and byte strings filtered by a condition that the straps meet. -/
theorem strapsKept_filter {p : Reg × Nat → Bool} (hp : ∀ i, p (.bootStraps, i) = true)
    (hr : t.regs = s.regs.filter fun e => p e.1) (hb : t.blobs = s.blobs.filter fun e => p e.1) : StrapsKept s t := by
  refine strapsKept_iff.2 fun i => ?_
  simp only [State.get, State.blob, hr, hb]
  exact ⟨sget_filter s.regs p _ (hp i), sget_filter s.blobs p _ (hp i)⟩

theorem KeptO.strapsKept {o : Host.Outcome State Fault Refusal} (h : KeptO bootScope s o) : StrapsKeptO s o :=
  fun t e => (h.keeps t e).strapsKept

/-- Raising an event writes registers other than the straps. -/
theorem wide_besideStraps : Wide besideStraps := ⟨fun r h => by
  refine decide_eq_true ?_
  rintro rfl
  cases h⟩

theorem strapsKept_emit {o : Output} (h : StrapsKept s t) : StrapsKept s (t.emit o) := h.other rfl

theorem strapsKept_fst_ite {α : Type} {a b : State × α} {c : Prop} [Decidable c] (ha : StrapsKept s a.1)
    (hb : StrapsKept s b.1) : StrapsKept s (if c then a else b).1 := by
  split <;> assumption

theorem strapsKept_mk {α : Type} {a : α} (h : StrapsKept s t) : StrapsKept s (t, a).1 := h

/-! ## Serving a request -/

theorem strapsKept_reply {a : Reply} (h : StrapsKept s t) : StrapsKept s (t.reply cl a) := apart_reply h rfl rfl

/-- A request keeps the straps where what it runs does. -/
theorem strapsKept_serve {addr : Nat × Nat} {act : State → State × Answer} (hact : ∀ t, StrapsKept t (act t).1) :
    StrapsKept s (s.serve cl addr act) := by
  have := fact_false
  unfold State.serve
  extract_lets x
  have k : Kept bootScope s x := kept_ite (kept_answerMalformed _ (Kept.refl s)) (Kept.refl s)
  clear_value x
  split
  · dsimp only
    split
    · exact (kept_ignore (kept_requests (.inl List.length_eraseP_le) (kept_hear k))).strapsKept
    · split
      · exact (kept_duplicate (kept_hear k)).strapsKept
      · have run := (kept_dequeue (cl := cl) (kept_hear (mac := cl.mac) k)).strapsKept.trans (hact _)
        split <;> exact strapsKept_reply run
  · exact k.strapsKept

theorem strapsKept_serveObject {ix sub : Nat} {act : State → Reg → Nat → State × Answer}
    (hact : ∀ t r i, StrapsKept t (act t r i).1) : StrapsKept s (s.serveObject cl ix sub act) := by
  refine strapsKept_serve fun t => ?_
  split
  · exact Apart.refl t
  · exact hact t _ _

theorem strapsKept_lengthRefused {a : Answer} : StrapsKept s (s.lengthRefused cl r a) := by
  have := fact_false
  exact (kept_lengthRefused (Kept.refl s)).strapsKept

theorem strapsKept_serveWrite {eff : State → State × Answer} (heff : ∀ t, StrapsKept t (eff t).1) :
    StrapsKept s (s.serveWrite cl r i v eff) := by
  unfold State.serveWrite
  split
  · exact strapsKept_serve fun t => Apart.refl t
  · refine strapsKept_serve fun t => ?_
    have he := heff t
    split
    · exact strapsKept_lengthRefused
    · split <;> rename_i e <;> rw [e] at he <;> exact he

/-! ## Resets (R50) and the fuse load (R52) -/

/-- The straps are among what a warm reset keeps. -/
theorem strapsKept_wipe : StrapsKept s (s.wipe Reg.keptWarm) :=
  strapsKept_filter (p := fun k => Reg.keptWarm k.1) (fun _ => rfl) rfl rfl

theorem strapsKept_warmReset (cause : Int) : StrapsKept s (s.warmReset cause) :=
  apart_set (strapsKept_wipe.other rfl)

theorem strapsKept_afterReset (h : StrapsKept s t) : StrapsKept s t.afterReset :=
  apart_ite ((h.trans (strapsKept_warmReset 2)).other rfl) h

theorem strapsKept_execSysrstNLow : StrapsKeptO s (execSysrstNLow s) := by
  have hs : StrapsKept s (s.set .xSysrst 0 1) := apart_set (Apart.refl s)
  have reset : StrapsKept s { (s.set .xSysrst 0 1).warmReset 1 with phase := .warmReset } :=
    (hs.trans (strapsKept_warmReset 1)).other rfl
  refine strapsKeptO_next ?_
  unfold State.sysrstLow
  dsimp only
  split
  · exact reset
  · exact apart_ite (apart_set hs) reset
  · exact apart_set hs
  · exact hs
  · exact hs

theorem strapsKept_execSysrstNRise : StrapsKeptO s (execSysrstNRise s) := by
  have hs : StrapsKept s (s.set .xSysrst 0 0) := apart_set (Apart.refl s)
  refine strapsKeptO_next ?_
  unfold State.sysrstRise
  dsimp only
  split
  · exact hs.other rfl
  · exact apart_ite (apart_set (apart_set hs)) hs
  · exact apart_ite (apart_set (apart_set hs)) hs
  · exact hs
  · exact hs

theorem strapsKept_writeReset : StrapsKept s (writeReset s).1 := apart_set (Apart.refl s)

theorem strapsKept_execWarmResetCommand : StrapsKeptO s (execWarmResetCommand cl s) :=
  strapsKeptO_next (strapsKept_afterReset (strapsKept_serveWrite fun _ => strapsKept_writeReset))

theorem strapsKept_fuseLoaded {failed : List Nat} : StrapsKept s (s.fuseLoaded failed) := by
  have := fact_false
  unfold State.fuseLoaded
  refine apart_ite ((strapsKept_warmReset 1).other rfl) ?_
  extract_lets s1 s2 s3
  have h1 : StrapsKept s s1 := apart_each ((Apart.refl s).other rfl) fun _ _ ht => strapsKept_emit ht
  have h3 : StrapsKept s s3 := apart_each (strapsKept_emit h1) fun _ _ ht => apart_set ht
  have h4 : StrapsKept s (s3.coresTested failed) := h3.trans (kept_coresTested (Kept.refl s3)).strapsKept
  exact apart_each h4 fun _ _ ht => apart_set (apart_set ht)

theorem strapsKept_execFuseLoadEnd {failed : List (Fin 52)} : StrapsKeptO s (execFuseLoadEnd failed s) :=
  strapsKeptO_next (apart_ite strapsKept_fuseLoaded (Apart.refl s))

/-! ## Microcode (R52 to R56) -/

theorem strapsKept_imageLoaded {status slot version : Nat} (h : StrapsKept s t) :
    StrapsKept s (t.imageLoaded status slot version) :=
  apart_raise wide_besideStraps (apart_set (apart_set (apart_set (apart_set h))))

theorem strapsKept_imageRefused {slot status : Nat} (h : StrapsKept s t) : StrapsKept s (t.imageRefused slot status) :=
  apart_raise wide_besideStraps h

theorem strapsKept_bootFailed {status : Nat} (h : StrapsKept s t) : StrapsKept s (t.bootFailed status) :=
  apart_set (apart_set (apart_set (apart_set h)))

theorem strapsKept_imageLoad {sfdp : Option Bool} {first second : Option (List Byte)} :
    StrapsKept s (s.imageLoad sfdp first second) := by
  unfold State.imageLoad
  refine apart_ite (Apart.refl s) ?_
  extract_lets sel slot a s1 b s2
  have h1 : StrapsKept s s1 := strapsKept_emit (Apart.refl s)
  have h2 : StrapsKept s s2 := strapsKept_emit (strapsKept_imageRefused h1)
  have failed : ∀ (u : State) (slot status : Nat), StrapsKept s u →
      StrapsKept s ((u.bootFailed status).imageRefused slot status) :=
    fun u slot status hu => strapsKept_imageRefused (strapsKept_bootFailed hu)
  exact apart_ite (strapsKept_imageLoaded h1)
    (apart_ite (apart_ite (strapsKept_imageLoaded h2) (failed s2 1 b h2)) (failed s1 slot a h1))

theorem strapsKept_execImageLoadComplete {flash : FlashReading} {second : Option (List Byte)} :
    StrapsKeptO s (execImageLoadComplete flash second s) :=
  strapsKeptO_live strapsKept_imageLoad

theorem strapsKept_execHbmTrainingComplete : StrapsKeptO s (execHbmTrainingComplete s) :=
  strapsKeptO_next (apart_ite (Apart.refl s) (apart_set (Apart.refl s)))

theorem strapsKept_writeHostImage {b : List Byte} : StrapsKept s (writeHostImage b s).1 := by
  unfold writeHostImage
  split
  · exact Apart.refl s
  · exact apart_setBlob (Apart.refl s)

theorem strapsKept_writeHostLoad : StrapsKept s (writeHostLoad s).1 := by
  unfold writeHostLoad
  split
  · exact Apart.refl s
  · exact apart_ite (strapsKept_imageLoaded (Apart.refl s))
      (strapsKept_imageRefused (strapsKept_bootFailed (Apart.refl s)))

theorem strapsKept_execHostImageLoad : StrapsKeptO s (execHostImageLoad cl s) :=
  strapsKeptO_next (strapsKept_serveWrite fun _ => strapsKept_writeHostLoad)

/-! ## Requests for a mode (R40, R46) -/

/-- The straps are no configuration object. -/
theorem isConfig_bootStraps : Reg.isConfig .bootStraps i = false := by
  have ha : Reg.access .bootStraps = .ro := rfl
  simp [Reg.isConfig, ha]

/-- The straps outlast the return of configuration to its defaults (R46). -/
theorem strapsKept_dropConfiguration : StrapsKept s s.dropConfiguration := by
  have := fact_false
  have hf : StrapsKept s s.flushAll := (kept_flushAll (Kept.refl s)).strapsKept
  unfold State.dropConfiguration
  extract_lets a
  refine Apart.trans ?_ (kept_capacityCheck (Kept.refl _)).strapsKept
  exact hf.trans (strapsKept_filter (p := fun k => !k.1.isConfig k.2) (fun i => by simp [isConfig_bootStraps]) rfl rfl)

theorem strapsKept_leaveHaven {m : Int} : StrapsKept s (s.leaveHaven m) := by
  have := fact_false
  unfold State.leaveHaven
  extract_lets hurt a b
  have ha : Kept bootScope s a := kept_calSettle (kept_each (Kept.refl s) fun _ _ ht => kept_toIdle ht)
  have hb : StrapsKept s b := (kept_leaveTrim (kept_startTransition ha)).strapsKept
  exact apart_ite (kept_startTrim (kept_startTransition (kept_flushAll ha))).strapsKept
    (apart_ite (hb.trans strapsKept_dropConfiguration) hb)

/-- Only the exit from Haven drops configuration; what else a request for a mode does leaves the part boot. -/
theorem strapsKept_writeModeRequest {m : Int} : StrapsKept s (writeModeRequest m s).1 := by
  have := fact_false
  have refused : ∀ {t : State} (n : Nat), StrapsKept s t → StrapsKept s (t.refuseMode n).1 :=
    fun _ ht => ht.trans (kept_refuseMode (Kept.refl _)).strapsKept
  have stored : ∀ m, StrapsKept s (s.set .deviceModeRequest 0 m) := fun _ => apart_set (Apart.refl s)
  have started : ∀ {t : State} (m : Int), StrapsKept s t → StrapsKept s (t.startTransition m) :=
    fun _ ht => ht.trans (kept_startTransition (Kept.refl _)).strapsKept
  have h : StrapsKept s s := Apart.refl s
  unfold writeModeRequest
  extract_lets now booted a b
  refine strapsKept_fst_ite (strapsKept_mk ((stored 5).trans (kept_haven (Kept.refl _)).strapsKept)) ?_
  refine strapsKept_fst_ite (stored m) (strapsKept_fst_ite (refused 2 h) (strapsKept_fst_ite (stored m) ?_))
  refine strapsKept_fst_ite ?fromHaven (strapsKept_fst_ite ?down (strapsKept_fst_ite (refused 1 h) ?up))
  case fromHaven =>
    exact strapsKept_fst_ite (strapsKept_mk strapsKept_leaveHaven) (strapsKept_fst_ite (refused 1 h)
      (strapsKept_fst_ite (refused 5 h) (strapsKept_fst_ite (refused 4 h) (strapsKept_mk strapsKept_leaveHaven))))
  case down =>
    have ha : StrapsKept s a := (kept_when (Kept.refl s) fun _ ht => kept_finishReceive ht).strapsKept
    have exits : StrapsKept s ((a.startTransition m).exitActions now m) :=
      (started m ha).trans (kept_exitActions (Kept.refl _)).strapsKept
    exact strapsKept_fst_ite (refused 6 (apart_set h)) (strapsKept_mk exits)
  case up =>
    have trim : StrapsKept s (s.startTransition 1).startTrim :=
      (started 1 h).trans (kept_startTrim (Kept.refl _)).strapsKept
    have seek : StrapsKept s ((s.startTransition 2).each carriers fun s c => s.calAbandon c true) :=
      (started 2 h).trans (kept_each (Kept.refl _) fun _ _ ht => kept_calAbandon ht).strapsKept
    have pair : StrapsKept s (((s.startTransition 4).set .pairRole 0 s.agreedRole).set .pairState 0 1) :=
      apart_set (apart_set (started 4 h))
    exact strapsKept_fst_ite (strapsKept_fst_ite (refused 3 h) (strapsKept_fst_ite (refused 7 h) (strapsKept_mk trim)))
      (strapsKept_fst_ite (strapsKept_mk seek) (strapsKept_fst_ite (started 3 h)
        (strapsKept_fst_ite (strapsKept_mk pair) (refused 6 (apart_set h)))))

theorem strapsKept_requestMode {m : Int} : StrapsKept s (s.requestMode cl m) :=
  strapsKept_serveWrite fun _ => strapsKept_writeModeRequest

/-! ## Writes of any object (R338)

The laws stand in the order of the tables' rows. -/

theorem strapsKept_storeReg (hr : r ≠ .bootStraps) : StrapsKept s (storeReg r i v s).1 := by
  have hb : besideStraps r = true := decide_eq_true hr
  unfold storeReg
  split
  · exact apart_set (Apart.refl s)
  · exact apart_setBlob (Apart.refl s)

theorem strapsKept_writeClearBits {x : Int} (hr : besideStraps r = true) : StrapsKept s (writeClearBits r i x s).1 :=
  apart_set (Apart.refl s)

theorem strapsKept_writeResetTo {present x : Int} (hr : besideStraps r = true) :
    StrapsKept s (writeResetTo r i present x s).1 :=
  apart_ite (apart_set (Apart.refl s)) (Apart.refl s)

theorem strapsKept_writeSlackMark {x : Int} : StrapsKept s (writeSlackMark r i x s).1 :=
  apart_ite (apart_ite (apart_set (Apart.refl s)) (apart_set (Apart.refl s))) (Apart.refl s)

theorem strapsKept_writeDevice (hr : r ≠ .bootStraps) : StrapsKept s (writeDevice cl r i v s).1 := by
  have := fact_false
  have h : Kept bootScope s s := Kept.refl s
  unfold writeDevice
  dsimp only
  split
  exacts [(kept_writePlca h rfl).strapsKept, (kept_writePlca h rfl).strapsKept, (kept_writeRegistration h).strapsKept,
    (kept_writeRegistrationTable h).strapsKept, (kept_writeMailbox h).strapsKept, (kept_writeTelemetry h).strapsKept,
    (kept_writeRingPost h).strapsKept, (kept_writeRingControl h).strapsKept, (kept_writeWindow h).strapsKept,
    (kept_writeWindowTable h).strapsKept, (kept_writeCapture h).strapsKept, (kept_writeEventEnable h).strapsKept,
    (kept_writeClear (hr := rfl) h).strapsKept, (kept_writeClear (hr := rfl) h).strapsKept,
    (kept_writeClear (hr := rfl) h).strapsKept, (kept_writeClearLatched h).strapsKept,
    (kept_writeActiveHigh h).strapsKept, (kept_writeClearWraps h).strapsKept, (kept_writeTimeSet h).strapsKept,
    (kept_writeTimeOffset h).strapsKept, (kept_writeTimingMode h).strapsKept, strapsKept_writeResetTo rfl,
    (kept_writeGuardLimit (hr := rfl) h).strapsKept, (kept_writeGuardLimit (hr := rfl) h).strapsKept,
    (kept_writeReadmit h).strapsKept, strapsKept_writeResetTo rfl, (kept_writeShed h).strapsKept,
    (kept_writeHkTrigger h).strapsKept, (kept_writeHkSeqStart h).strapsKept, (kept_writeHkInjected h).strapsKept,
    (kept_writeHkInjStart h).strapsKept, (kept_writeHkCal h).strapsKept, (kept_writeHkSequence h).strapsKept,
    (kept_writeHkAverage (hr := rfl) h).strapsKept, (kept_writeHkAverage (hr := rfl) h).strapsKept,
    (kept_writePairSwitch h).strapsKept, strapsKept_storeReg hr]

theorem strapsKept_writeHost (hr : r ≠ .bootStraps) : StrapsKept s (writeHost cl r i v s).1 := by
  have := fact_false
  have h : Kept bootScope s s := Kept.refl s
  unfold writeHost
  dsimp only
  split
  exacts [(kept_writeLanePower h).strapsKept, (kept_writePolarity (hr := rfl) h).strapsKept,
    (kept_writePolarity (hr := rfl) h).strapsKept, (kept_writeLosClear h).strapsKept,
    (kept_writeCtle (hr := rfl) h).strapsKept, (kept_writeCtle (hr := rfl) h).strapsKept,
    (kept_writeTxTap (hr := rfl) h).strapsKept, (kept_writeTxTap (hr := rfl) h).strapsKept,
    (kept_writeTxTap (hr := rfl) h).strapsKept, (kept_writePairTest (kept_takeFree h)).strapsKept,
    (kept_writeOrderMode h).strapsKept, (kept_writePortRate h).strapsKept, (kept_writePortEnable h).strapsKept,
    (kept_writePrbs h rfl).strapsKept, (kept_writePrbs h rfl).strapsKept, (kept_writeInject h).strapsKept,
    (kept_writeLoopback h).strapsKept, strapsKept_writeDevice hr]

theorem strapsKept_writeTraffic (hr : r ≠ .bootStraps) : StrapsKept s (writeTraffic cl r i v s).1 := by
  have := fact_false
  have h : Kept bootScope s s := Kept.refl s
  unfold writeTraffic
  dsimp only
  split
  exacts [(kept_writeFec (hr := rfl) h).strapsKept, (kept_writeFec (hr := rfl) h).strapsKept,
    (kept_writeFec (hr := rfl) h).strapsKept, (kept_writeFec (hr := rfl) h).strapsKept,
    (kept_writeFec (hr := rfl) h).strapsKept, (kept_writeFec (hr := rfl) h).strapsKept, (kept_writeCap h).strapsKept,
    (kept_writeStandbyRow h).strapsKept, (kept_writeStandbyPage h).strapsKept, (kept_writeFlip h).strapsKept,
    strapsKept_writeClearBits rfl, (kept_writeClsSetting (hr := rfl) h).strapsKept,
    (kept_writeClsSetting (hr := rfl) h).strapsKept, (kept_writeClsOp h).strapsKept, (kept_writeClsLoad h).strapsKept,
    (kept_writePortCls h rfl).strapsKept, (kept_writePortCls h rfl).strapsKept, (kept_writeFlow h).strapsKept,
    strapsKept_writeResetTo rfl, (kept_writeFlowTable h).strapsKept, strapsKept_writeResetTo rfl,
    (kept_writePoolLevel h).strapsKept, (kept_writeCalEntry h).strapsKept,
    (kept_writeCalPage (hr := rfl) h).strapsKept, (kept_writeCalFlip h).strapsKept, (kept_writeSpan h).strapsKept,
    (kept_writeCalPage (hr := rfl) h).strapsKept, (kept_writeTribRow h).strapsKept,
    (kept_writeTribTable h).strapsKept, (kept_writeMembers h).strapsKept, (kept_writeRealign h).strapsKept,
    (kept_writePolicy h).strapsKept, (kept_writeKek h).strapsKept, (kept_writeSlotLoad h).strapsKept,
    (kept_writeSlotErase h).strapsKept, (kept_writeBinding h).strapsKept, (kept_writeBindTable h).strapsKept,
    strapsKept_writeHost hr]

theorem strapsKept_writeLine (hr : r ≠ .bootStraps) : StrapsKept s (writeLine cl r i v s).1 := by
  have := fact_false
  have h : Kept bootScope s s := Kept.refl s
  unfold writeLine
  dsimp only
  split
  exacts [(kept_writeForerunner h).strapsKept, strapsKept_writeSlackMark, strapsKept_writeSlackMark,
    strapsKept_writeModeRequest, strapsKept_writeReset, (kept_writeCarrierRequest h).strapsKept,
    strapsKept_writeHostImage, strapsKept_writeHostLoad, (kept_writeConvPolicy (hr := rfl) h).strapsKept,
    (kept_writeShortRetry h).strapsKept, (kept_writeConvPolicy (hr := rfl) h).strapsKept,
    (kept_writeWiring (hr := rfl) h).strapsKept, (kept_writeWiring (hr := rfl) h).strapsKept,
    (kept_writeOpenTest h).strapsKept, (kept_writeRecal h).strapsKept, (kept_writeBgEnable h).strapsKept,
    (kept_writeStandby h).strapsKept, (kept_writeCommit h).strapsKept, (kept_writeShapeMode h).strapsKept,
    (kept_writeRolloff h).strapsKept, (kept_writeTxCdMode h).strapsKept, (kept_writeTxCdTarget h).strapsKept,
    (kept_writeTxCdFrequency h).strapsKept, (kept_writeCdMode h).strapsKept, (kept_writeCdTarget h).strapsKept,
    (kept_writeCdFrequency h).strapsKept, (kept_writeRxSkew h rfl).strapsKept, (kept_writeRxSkew h rfl).strapsKept,
    (kept_writeRxSkew h rfl).strapsKept, (kept_writeRxSkew h rfl).strapsKept, (kept_writeFrontEnd h).strapsKept,
    (kept_writeMonitor h rfl).strapsKept, (kept_writeMonitor h rfl).strapsKept,
    (kept_writeNc (hr := rfl) h).strapsKept, (kept_writeNc (hr := rfl) h).strapsKept,
    (kept_writeNc (hr := rfl) h).strapsKept, (kept_writeNcPark h).strapsKept,
    (kept_writeCandidate (hr := rfl) h).strapsKept, (kept_writeCandidate (hr := rfl) h).strapsKept,
    (kept_writeConfirm h).strapsKept, strapsKept_writeTraffic hr]

theorem strapsKept_applyWrite (hr : r ≠ .bootStraps) : StrapsKept s (applyWrite cl r i v s).1 := by
  have := fact_false
  exact strapsKept_fst_ite (kept_writeSelect (Kept.refl s)).strapsKept (strapsKept_writeLine hr)

/-- The straps are read-only: no write of 2E00.01 passes the checks (R338). -/
theorem ne_bootStraps_of_checkWrite (h : s.checkWrite cl r i v = none) : r ≠ .bootStraps := by
  rintro rfl
  have ha : s.accessAbort cl .bootStraps = some (refusedWith 0x04) := rfl
  unfold State.checkWrite at h
  rw [ha] at h
  split at h <;> cases h

theorem strapsKept_writeObject : StrapsKept s (s.writeObject cl r i v).1 := by
  unfold State.writeObject
  split
  · exact strapsKept_lengthRefused
  · rename_i hc
    exact strapsKept_applyWrite (ne_bootStraps_of_checkWrite hc)

theorem strapsKept_writeAck {ix sub : Nat} {x : State × Answer} {more : List Byte} (h : StrapsKept s x.1) :
    StrapsKept s (writeAck ix sub x more).1 := by
  unfold writeAck
  split <;> exact h

theorem strapsKept_execBdapWrite {ix : Fin 65536} {sub ty : Fin 256} {b : List Byte} :
    StrapsKeptO s (execBdapWrite cl ix sub ty b s) := by
  refine strapsKeptO_next (strapsKept_afterReset (strapsKept_serveObject fun t r i => ?_))
  split
  · exact Apart.refl t
  · exact strapsKept_writeAck strapsKept_writeObject

/-! ## COMMIT (R349)

The staged entries of a state are any registers at all: each passes the checks of a write before it is applied. -/

theorem strapsKept_commitClears {l : List Staged} : StrapsKept s (s.commitClears cl l) := by
  refine apart_each (Apart.refl s) fun t e ht => ?_
  split
  · exact ht
  · rename_i hc
    exact ht.trans (strapsKept_applyWrite (ne_bootStraps_of_checkWrite hc))

theorem strapsKept_commitEntry {e : Staged} {superseded : Bool} : StrapsKept s (s.commitEntry cl e superseded).1 := by
  unfold State.commitEntry
  split
  · exact Apart.refl s
  · rename_i hc
    have ha := strapsKept_applyWrite (s := s) (cl := cl) (i := e.unit) (v := e.val) (ne_bootStraps_of_checkWrite hc)
    refine strapsKept_fst_ite (Apart.refl s) ?_
    split <;> rename_i eq <;> rw [eq] at ha
    · exact strapsKept_fst_ite (Apart.refl s) ha
    · exact apart_ite (Apart.refl s) ha

theorem strapsKept_each {α : Type} {l : List α} {f : State → α → State} (h : StrapsKept s t)
    (hf : ∀ u, ∀ a ∈ l, StrapsKept s u → StrapsKept s (f u a)) : StrapsKept s (t.each l f) := by
  unfold State.each
  induction l generalizing t with
  | nil => exact h
  | cons a l ih =>
    exact ih (hf t a List.mem_cons_self h) fun u b hb => hf u b (List.mem_cons_of_mem a hb)

/-- The straps are not among the refusal reasons that outlast a refused COMMIT. -/
theorem strapsKept_keepOther {e : Staged} : StrapsKept s (s.keepOther t e) := by
  have := fact_false
  have reasons : ∀ x ∈ reasonsKept e.unit, besideStraps x.1 = true := by simp [reasonsKept, besideStraps]
  unfold State.keepOther
  extract_lets a
  have ha : StrapsKept s a := strapsKept_each (Apart.refl s) fun _ x hx hu => apart_set hu (reasons x hx)
  split
  · exact apart_raise wide_besideStraps (apart_set (apart_bump ha))
  · exact apart_raise wide_besideStraps (apart_set (apart_bump ha))
  · exact ha.trans (kept_keyRefused (Kept.refl a)).strapsKept

theorem strapsKept_keepRefusal {e : Staged} {a : Answer} : StrapsKept s (s.keepRefusal t cl e a) := by
  have hc := strapsKept_commitEntry (s := s) (cl := cl) (e := e) (superseded := false)
  unfold State.keepRefusal
  split
  · rename_i eq
    rw [eq] at hc
    exact apart_ite hc strapsKept_keepOther
  · exact strapsKept_keepOther

theorem strapsKept_commitFrom {n : Nat} {l : List Staged} (ht : StrapsKept s t) (hu : StrapsKept s u) :
    StrapsKept s (commitFrom t cl n l u).1 := by
  induction l generalizing u n with
  | nil => exact hu
  | cons e l ih =>
    unfold commitFrom
    have he := strapsKept_commitEntry (s := u) (cl := cl) (e := e)
      (superseded := e.reg.isAction && l.any e.sameAction)
    split <;> rename_i eq
    · rw [eq] at he
      exact ih (hu.trans he)
    · exact ht.trans strapsKept_keepRefusal

theorem strapsKept_commit : StrapsKept s (s.commit cl).1 := by
  unfold State.commit
  split
  · exact Apart.refl s
  · have hu : StrapsKept s (s.unstage cl.mac cl.fore) := (Apart.refl s).other rfl
    exact strapsKept_commitFrom hu (hu.trans strapsKept_commitClears)

theorem strapsKept_execBdapCommit : StrapsKeptO s (execBdapCommit cl s) :=
  strapsKeptO_next (strapsKept_afterReset (strapsKept_serve fun t =>
    strapsKept_fst_ite (Apart.refl t) strapsKept_commit))

/-! ## WRITE_BLOCK (R347) -/

theorem strapsKept_dropTransfer {mac : Nat} : StrapsKept s (s.dropTransfer mac) := (Apart.refl s).other rfl

theorem strapsKept_segment {x : Transfer} {last : Bool} {b : List Byte} :
    StrapsKept s (s.segment cl x r i last b).1 := by
  have hd : StrapsKept s (s.dropTransfer cl.mac) := strapsKept_dropTransfer
  exact strapsKept_fst_ite hd
    (strapsKept_fst_ite (strapsKept_writeAck (hd.trans strapsKept_writeObject)) (hd.other rfl))

theorem strapsKept_firstSegment {x : Transfer} {offset : Nat} {last : Bool} {b : List Byte} :
    StrapsKept s (s.firstSegment cl x r i offset last b).1 := by
  have hd : StrapsKept s (s.dropTransfer cl.mac) := strapsKept_dropTransfer
  refine strapsKept_fst_ite hd ?_
  split
  · exact hd
  · split
    · exact hd.trans strapsKept_lengthRefused
    · exact strapsKept_fst_ite hd (hd.trans strapsKept_segment)

theorem strapsKept_laterSegment {ix sub total offset : Nat} {last : Bool} {b : List Byte} :
    StrapsKept s (s.laterSegment cl ix sub r i total offset last b).1 := by
  unfold State.laterSegment
  split
  · exact Apart.refl s
  · exact strapsKept_fst_ite strapsKept_dropTransfer strapsKept_segment

theorem strapsKept_execBdapWriteBlock {ix : Fin 65536} {sub : Fin 256} {first last : Bool}
    {total offset : Fin 4294967296} {b : List Byte} :
    StrapsKeptO s (execBdapWriteBlock cl ix sub first last total offset b s) :=
  strapsKeptO_next (strapsKept_afterReset (strapsKept_serveObject fun _ _ _ =>
    strapsKept_fst_ite strapsKept_firstSegment strapsKept_laterSegment))

/-! ## Every command -/

/-- Every command but the two edges of PORST_N leaves 2E00.01 as it is (R51). -/
theorem strapsKept_exec {c : Instr} (hrise : ∀ straps railsOk, c ≠ .porstNRise straps railsOk)
    (hlow : c ≠ .porstNLow) : StrapsKeptO s (exec c s) := by
  have := fact_false
  have h : Kept bootScope s s := Kept.refl s
  cases c with
  | porstNLow => exact absurd rfl hlow
  | porstNRise _ _ => exact absurd rfl (hrise _ _)
  | sysrstNLow => exact strapsKept_execSysrstNLow
  | sysrstNRise => exact strapsKept_execSysrstNRise
  | warmResetCommand _ => exact strapsKept_execWarmResetCommand
  | fuseLoadStart => exact (kept_execFuseLoadStart h).strapsKept
  | fuseLoadEnd _ => exact strapsKept_execFuseLoadEnd
  | imageLoadComplete _ _ => exact strapsKept_execImageLoadComplete
  | hbmTrainingComplete => exact strapsKept_execHbmTrainingComplete
  | hostImageLoad _ => exact strapsKept_execHostImageLoad
  | forerunnerEnableWrite _ _ => exact (kept_execForerunnerEnableWrite h).strapsKept
  | requestDormant _ => exact strapsKeptO_next strapsKept_requestMode
  | requestTrim _ => exact strapsKeptO_next strapsKept_requestMode
  | requestCatch _ => exact strapsKeptO_next strapsKept_requestMode
  | requestCarry _ => exact strapsKeptO_next strapsKept_requestMode
  | requestPair _ => exact strapsKeptO_next strapsKept_requestMode
  | requestHaven _ => exact strapsKeptO_next strapsKept_requestMode
  | modeTransitionComplete _ => exact (kept_execModeTransitionComplete h).strapsKept
  | carrierRequest _ _ _ => exact (kept_execCarrierRequest h).strapsKept
  | guardLoopPeriod _ _ => exact (kept_execGuardLoopPeriod h).strapsKept
  | guardControlLost _ => exact (kept_execGuardControlLost h).strapsKept
  | rxStrokeArrival _ _ => exact (kept_execRxStrokeArrival h).strapsKept
  | txStrokePeriod _ => exact (kept_execTxStrokePeriod h).strapsKept
  | gapMarkerWrite _ => exact (kept_execGapMarkerWrite h).strapsKept
  | coreStrokeRelease _ _ _ => exact (kept_execCoreStrokeRelease h).strapsKept
  | coreStrokeAccept _ _ _ _ => exact (kept_execCoreStrokeAccept h).strapsKept
  | gapMarkerReached _ _ => exact (kept_execGapMarkerReached h).strapsKept
  | strokeBoundaryApply _ => exact (kept_execStrokeBoundaryApply h).strapsKept
  | reflLoss _ _ _ => exact (kept_execReflLoss h).strapsKept
  | reflRelock _ _ => exact (kept_execReflRelock h).strapsKept
  | reflHoldoverAtTrim _ => exact (kept_execReflHoldoverAtTrim h).strapsKept
  | agcWindowEnd _ rms unflagged =>
    exact (kept_execAgcWindowEnd (_rms := rms) (_unflagged := unflagged) h).strapsKept
  | gainStepApply _ => exact (kept_execGainStepApply h).strapsKept
  | manualGainStep _ => exact (kept_execManualGainStep h).strapsKept
  | openTestRequest _ _ => exact (kept_execOpenTestRequest h).strapsKept
  | openTestComplete _ _ _ => exact (kept_execOpenTestComplete h).strapsKept
  | dacShortDetect _ _ => exact (kept_execDacShortDetect h).strapsKept
  | shortRetryTrial _ _ => exact (kept_execShortRetryTrial h).strapsKept
  | shortTrialEnd _ _ _ => exact (kept_execShortTrialEnd h).strapsKept
  | foregroundCalComplete _ _ _ => exact (kept_execForegroundCalComplete h).strapsKept
  | recalRequest _ _ => exact (kept_execRecalRequest h).strapsKept
  | bgCalStepStart _ => exact (kept_execBgCalStepStart h).strapsKept
  | bgCalMeasureComplete _ _ => exact (kept_execBgCalMeasureComplete h).strapsKept
  | bankStandbyWrite _ _ _ => exact (kept_execBankStandbyWrite h).strapsKept
  | bankCommitSwap _ _ => exact (kept_execBankCommitSwap h).strapsKept
  | bankCommitCrossfade _ _ => exact (kept_execBankCommitCrossfade h).strapsKept
  | crossfadeEnd _ => exact (kept_execCrossfadeEnd h).strapsKept
  | bankComputeComplete _ => exact (kept_execBankComputeComplete h).strapsKept
  | deskewAutoTrim _ _ => exact (kept_execDeskewAutoTrim h).strapsKept
  | polAdaptBlock _ _ => exact (kept_execPolAdaptBlock h).strapsKept
  | rxFrameStart _ _ => exact (kept_execRxFrameStart h).strapsKept
  | ncAdaptBlock _ _ => exact (kept_execNcAdaptBlock h).strapsKept
  | pilotGroupCheck _ _ _ => exact (kept_execPilotGroupCheck h).strapsKept
  | surveyRefresh _ _ _ _ => exact (kept_execSurveyRefresh h).strapsKept
  | catchMatch _ _ => exact (kept_execCatchMatch h).strapsKept
  | tentativeEntry _ _ => exact (kept_execTentativeEntry h).strapsKept
  | rxLoopRelock _ => exact (kept_execRxLoopRelock h).strapsKept
  | codewordDecode _ _ => exact (kept_execCodewordDecode h).strapsKept
  | txMultiframeBoundary _ _ => exact (kept_execTxMultiframeBoundary h).strapsKept
  | rxMultiframeBoundary _ _ => exact (kept_execRxMultiframeBoundary h).strapsKept
  | rxLogicalFrame _ _ => exact (kept_execRxLogicalFrame h).strapsKept
  | txPageFlip _ _ => exact (kept_execTxPageFlip h).strapsKept
  | rxPageFlip _ _ => exact (kept_execRxPageFlip h).strapsKept
  | defectDeclare _ _ _ => exact (kept_execDefectDeclare h).strapsKept
  | defectClear _ _ _ => exact (kept_execDefectClear h).strapsKept
  | ohpInBurst _ _ => exact (kept_execOhpInBurst h).strapsKept
  | ohpOutBurst _ => exact (kept_execOhpOutBurst h).strapsKept
  | hostFrameReceive _ _ _ => exact (kept_execHostFrameReceive h).strapsKept
  | pfcResend _ => exact (kept_execPfcResend h).strapsKept
  | clsInsert _ => exact (kept_execClsInsert h).strapsKept
  | clsDelete _ => exact (kept_execClsDelete h).strapsKept
  | clsLookup _ => exact (kept_execClsLookup h).strapsKept
  | clsClearAll _ => exact (kept_execClsClearAll h).strapsKept
  | clsOpComplete => exact (kept_execClsOpComplete h).strapsKept
  | clsBulkLoad _ _ => exact (kept_execClsBulkLoad h).strapsKept
  | flowEntryWrite _ _ => exact (kept_execFlowEntryWrite h).strapsKept
  | flowTableLoad _ _ => exact (kept_execFlowTableLoad h).strapsKept
  | calendarFlip _ => exact (kept_execCalendarFlip h).strapsKept
  | mapperNextFrame _ _ => exact (kept_execMapperNextFrame h).strapsKept
  | rxTribRowWrite _ _ => exact (kept_execRxTribRowWrite h).strapsKept
  | egressFrameSend _ _ _ => exact (kept_execEgressFrameSend h).strapsKept
  | groupMembersWrite _ _ _ => exact (kept_execGroupMembersWrite h).strapsKept
  | bondExitWaitExpiry _ => exact (kept_execBondExitWaitExpiry h).strapsKept
  | alignWaitExpiry _ => exact (kept_execAlignWaitExpiry h).strapsKept
  | boathouseRelease _ _ => exact (kept_execBoathouseRelease h).strapsKept
  | groupRealign _ _ => exact (kept_execGroupRealign h).strapsKept
  | txCipherBlock _ _ _ _ => exact (kept_execTxCipherBlock h).strapsKept
  | rxBlockCheck _ _ _ _ _ _ _ => exact (kept_execRxBlockCheck h).strapsKept
  | kekProgram _ _ => exact (kept_execKekProgram h).strapsKept
  | kekRevoke _ _ => exact (kept_execKekRevoke h).strapsKept
  | kekProgramComplete _ _ => exact (kept_execKekProgramComplete h).strapsKept
  | keyprovNRise => exact (kept_execKeyprovNRise h).strapsKept
  | keyLoad _ _ => exact (kept_execKeyLoad h).strapsKept
  | keyErase _ => exact (kept_execKeyErase h).strapsKept
  | keySwitchComplete _ => exact (kept_execKeySwitchComplete h).strapsKept
  | zeroNFall => exact (kept_execZeroNFall h).strapsKept
  | cipherBindingWrite _ _ _ => exact (kept_execCipherBindingWrite h).strapsKept
  | laneBringupStep _ _ => exact (kept_execLaneBringupStep h).strapsKept
  | laneStepTimeout _ => exact (kept_execLaneStepTimeout h).strapsKept
  | laneLosSet _ => exact (kept_execLaneLosSet h).strapsKept
  | laneLosClear _ => exact (kept_execLaneLosClear h).strapsKept
  | laneLockLoss _ => exact (kept_execLaneLockLoss h).strapsKept
  | laneRelockTimeout _ => exact (kept_execLaneRelockTimeout h).strapsKept
  | refhLoss _ => exact (kept_execRefhLoss h).strapsKept
  | pairFaultDetect _ _ _ => exact (kept_execPairFaultDetect h).strapsKept
  | pairTest _ _ _ => exact (kept_execPairTest h).strapsKept
  | dfeAdaptWindow _ _ _ _ => exact (kept_execDfeAdaptWindow h).strapsKept
  | laneDeepLowPower _ => exact (kept_execLaneDeepLowPower h).strapsKept
  | octetOrderSearch _ _ _ => exact (kept_execOctetOrderSearch h).strapsKept
  | portAligned _ => exact (kept_execPortAligned h).strapsKept
  | portUp _ => exact (kept_execPortUp h).strapsKept
  | portLocalFault _ _ _ _ => exact (kept_execPortLocalFault h).strapsKept
  | rateMatchAdjust _ _ _ _ _ => exact (kept_execRateMatchAdjust h).strapsKept
  | prbsInject _ _ => exact (kept_execPrbsInject h).strapsKept
  | prbsInjectPeriodic _ => exact (kept_execPrbsInjectPeriodic h).strapsKept
  | scrubRead _ _ _ _ => exact (kept_execScrubRead h).strapsKept
  | eccWriteBack _ _ _ covered => exact (kept_execEccWriteBack (_covered := covered) h).strapsKept
  | spareRowCopyComplete _ _ => exact (kept_execSpareRowCopyComplete h).strapsKept
  | hbmRepairComplete _ _ => exact (kept_execHbmRepairComplete h).strapsKept
  | bdapFrameReceive _ _ _ => exact (kept_execBdapFrameReceive h).strapsKept
  | bdapRead _ _ _ => exact (kept_execBdapRead h).strapsKept
  | bdapWrite _ _ _ _ _ => exact strapsKept_execBdapWrite
  | bdapStagedWrite _ _ _ _ _ => exact (kept_execBdapStagedWrite h).strapsKept
  | bdapReadBlock _ _ _ _ _ => exact (kept_execBdapReadBlock h).strapsKept
  | bdapWriteBlock _ _ _ _ _ _ _ _ => exact strapsKept_execBdapWriteBlock
  | bdapCommit _ => exact strapsKept_execBdapCommit
  | bdapCommitDiscard _ => exact (kept_execBdapCommitDiscard h).strapsKept
  | bdapSnapshot _ => exact (kept_execBdapSnapshot h).strapsKept
  | bdapSubscribe _ _ => exact (kept_execBdapSubscribe h).strapsKept
  | bdapUnsubscribe _ => exact (kept_execBdapUnsubscribe h).strapsKept
  | eventAckReceive _ => exact (kept_execEventAckReceive h).strapsKept
  | eventSend _ => exact (kept_execEventSend h).strapsKept
  | eventResend _ => exact (kept_execEventResend h).strapsKept
  | stagingTimeout _ _ => exact (kept_execStagingTimeout h).strapsKept
  | blockTransferTimeout _ _ => exact (kept_execBlockTransferTimeout h).strapsKept
  | ringPost _ _ _ => exact (kept_execRingPost h).strapsKept
  | ringResume _ _ => exact (kept_execRingResume h).strapsKept
  | ringSkip _ _ => exact (kept_execRingSkip h).strapsKept
  | ringFlush _ _ => exact (kept_execRingFlush h).strapsKept
  | moverGranule _ => exact (kept_execMoverGranule h).strapsKept
  | windowWrite _ _ => exact (kept_execWindowWrite h).strapsKept
  | captureArm _ _ => exact (kept_execCaptureArm h).strapsKept
  | captureStop _ _ => exact (kept_execCaptureStop h).strapsKept
  | captureComplete _ => exact (kept_execCaptureComplete h).strapsKept
  | clearAllLatched _ => exact (kept_execClearAllLatched h).strapsKept
  | eventLatchClear _ _ => exact (kept_execEventLatchClear h).strapsKept
  | inputSample _ _ => exact (kept_execInputSample h).strapsKept
  | inputStuck _ => exact (kept_execInputStuck h).strapsKept
  | inputRateWindowEnd => exact (kept_execInputRateWindowEnd h).strapsKept
  | snapshotGatherComplete => exact (kept_execSnapshotGatherComplete h).strapsKept
  | clearWraps _ _ => exact (kept_execClearWraps h).strapsKept
  | counterFilterRead _ _ => exact (kept_execCounterFilterRead h).strapsKept
  | timeTick => exact (kept_execTimeTick h).strapsKept
  | timeStepOffset _ _ _ => exact (kept_execTimeStepOffset h).strapsKept
  | timeSetAbsolute _ _ _ => exact (kept_execTimeSetAbsolute h).strapsKept
  | trefOutOfTolerance _ => exact (kept_execTrefOutOfTolerance h).strapsKept
  | trefReturn _ => exact (kept_execTrefReturn h).strapsKept
  | ppsOutFall _ => exact (kept_execPpsOutFall h).strapsKept
  | tsQueuePop _ => exact (kept_execTsQueuePop h).strapsKept
  | railSample _ => exact (kept_execRailSample h).strapsKept
  | brownout _ => exact (kept_execBrownout h).strapsKept
  | sensorSample _ _ => exact (kept_execSensorSample h).strapsKept
  | sensorReadmit _ _ => exact (kept_execSensorReadmit h).strapsKept
  | sensorReadmitComplete _ => exact (kept_execSensorReadmitComplete h).strapsKept
  | shedRestore _ _ => exact (kept_execShedRestore h).strapsKept
  | orderlyShutdownComplete => exact (kept_execOrderlyShutdownComplete h).strapsKept
  | hkSeqStart _ _ => exact (kept_execHkSeqStart h).strapsKept
  | hkInjectStart _ _ => exact (kept_execHkInjectStart h).strapsKept
  | hkConversionComplete _ _ => exact (kept_execHkConversionComplete h).strapsKept
  | hkCalRequest _ _ => exact (kept_execHkCalRequest h).strapsKept
  | hkCalAuto _ => exact (kept_execHkCalAuto h).strapsKept
  | hkCalComplete _ _ => exact (kept_execHkCalComplete h).strapsKept
  | hkResultRead _ _ => exact (kept_execHkResultRead h).strapsKept
  | tieHeartbeat _ => exact (kept_execTieHeartbeat h).strapsKept
  | tieHeartbeatRx _ _ => exact (kept_execTieHeartbeatRx h).strapsKept
  | tieLinkDown => exact (kept_execTieLinkDown h).strapsKept
  | digestRecompute => exact (kept_execDigestRecompute h).strapsKept
  | tieDigestRx _ _ => exact (kept_execTieDigestRx h).strapsKept
  | tieKeyRecordRx _ _ _ => exact (kept_execTieKeyRecordRx h).strapsKept
  | tieLeaseRx _ _ _ _ => exact (kept_execTieLeaseRx h).strapsKept
  | tieLeaseAckRx _ _ _ _ => exact (kept_execTieLeaseAckRx h).strapsKept
  | tieDeliveryRx _ _ _ => exact (kept_execTieDeliveryRx h).strapsKept
  | tieTxAlignmentRx _ time _ => exact (kept_execTieTxAlignmentRx (_time := time) h).strapsKept
  | tieReleaseRx cause _ => exact (kept_execTieReleaseRx (_cause := cause) h).strapsKept
  | tieSwitchRequestRx _ _ => exact (kept_execTieSwitchRequestRx h).strapsKept
  | pairSwitch _ => exact (kept_execPairSwitch h).strapsKept
  | pairSwitchForce _ => exact (kept_execPairSwitchForce h).strapsKept
  | healthSwitch => exact (kept_execHealthSwitch h).strapsKept
  | tieLossTakeover => exact (kept_execTieLossTakeover h).strapsKept
  | refhReturn _ => exact (kept_execRefhReturn h).strapsKept
  | synthesiserLock _ => exact (kept_execSynthesiserLock h).strapsKept
  | zeroNRise => exact (kept_execZeroNRise h).strapsKept
  | keyprovNFall => exact (kept_execKeyprovNFall h).strapsKept
  | remoteFaultReceived _ _ => exact (kept_execRemoteFaultReceived h).strapsKept
  | pairFaultClear _ _ _ => exact (kept_execPairFaultClear h).strapsKept
  | prbsCheckerLock _ _ => exact (kept_execPrbsCheckerLock h).strapsKept
  | prbsCheckerUnlock _ => exact (kept_execPrbsCheckerUnlock h).strapsKept
  | rxGfpFrame _ _ => exact (kept_execRxGfpFrame h).strapsKept
  | mgtPlcaStatusChange _ _ => exact (kept_execMgtPlcaStatusChange h).strapsKept
  | hkSampleBoundary _ => exact (kept_execHkSampleBoundary h).strapsKept

/-! ## What the rise of PORST_N latches and a read returns -/

/-- The rise of PORST_N in a cold reset latches the straps (R51). -/
theorem porstNRise_latches {straps : Fin 512} {railsOk : Bool} (hp : s.phase = .coldReset) :
    ∃ t, exec (.porstNRise straps railsOk) s = .next t ∧ t.get .bootStraps 0 = straps.val := by
  refine ⟨_, congrArg Host.Outcome.next (if_pos hp), ?_⟩
  show (State.set _ .xWarmDue 0 _).get .bootStraps 0 = _
  rw [get_set_reg _ _ (by decide), get_set_same]

/-- 2E00.01 lies at one place in both views (R357). -/
theorem findObject_straps : findObject cl 0x2E00 1 = .ok (.bootStraps, 0) := by
  unfold findObject
  cases cl.fore <;> decide

theorem valueBytes_straps : s.valueBytes cl .bootStraps 0 = leBytes 2 (s.get .bootStraps 0) := by
  have hw : Reg.wireAt .bootStraps 0 = .u16 := rfl
  have hm : Reg.carrierMask .bootStraps = false := rfl
  have he : Reg.eventNumber .bootStraps = false := rfl
  have hv : s.scalarValue cl .bootStraps 0 = s.get .bootStraps 0 := rfl
  simp [State.valueBytes, State.scalar, hw, hm, he, hv, Wire.bytes]

/-- A READ of 2E00.01 returns the straps. -/
theorem bdapRead_straps (hf : Safety.fresh s cl) : exec (.bdapRead cl 0x2E00 1) s = .next ((ready s cl).reply cl
    (.ack (leBytes 2 0x2E00 ++ [1, 3] ++ leBytes 2 2 ++ leBytes 2 (s.get .bootStraps 0)))) := by
  have hv : (ready s cl).valueBytes cl .bootStraps 0 = leBytes 2 (s.get .bootStraps 0) := by
    rw [valueBytes_straps, ready_get (by decide)]
  have hc : (ready s cl).checkRead cl .bootStraps = none := rfl
  have hu : (ready s cl).unitOf cl .bootStraps 0 = 0 := rfl
  have hl : (leBytes 2 (s.get .bootStraps 0)).length = 2 := rfl
  show Host.Outcome.next (State.serve s cl (0x2E00, 1) _) = _
  rw [serve_fresh hf]
  have hfind : findObject cl ((0x2E00 : Fin 65536) : Nat) ((1 : Fin 256) : Nat) = .ok (.bootStraps, 0) :=
    findObject_straps
  simp only [hfind, hc, hu, hv, hl]
  rfl

end Sys2Proof.Laws

namespace Sys2Proof

open Sys2Proof.Machine Sys2Proof.Laws

/-- Settles O11: of all commands only those of PORST_N write 2E00.01, which its rise latches and a READ returns. -/
theorem strapsAreSampledOnce : Obligations.StrapsAreSampledOnce := by
  refine ⟨fun s addr bootsel role straps railsOk hp hs => ?_, fun s cl hf => ?_, fun c s t _ hrise hlow he => ?_⟩
  · obtain ⟨t, he, hg⟩ := porstNRise_latches (straps := straps) (railsOk := railsOk) hp
    have hn : t.nat .bootStraps 0 = straps.val := by rw [State.nat, hg, Int.toNat_natCast]
    refine ⟨t, he, ?_, ?_, ?_, ?_, hg⟩ <;> simp only [field, hn] <;> omega
  · exact ⟨_, bdapRead_straps hf, replied_reply (by rw [ready_out])⟩
  · exact (strapsKept_exec hrise hlow t he).regs .bootStraps 0 rfl

end Sys2Proof

/-! # Reads of the present time (R401)

Settles the statement that a READ of 8000.01 and of its three counterparts answers the 12 bytes of the time base. What a
READ of any object answers is said once (`bdapRead_answers`); a time base's value is one function of the state that runs
the READ, so its three fields are of one tick. -/

namespace Sys2Proof.Laws

open Sys2Proof.Machine

variable {s : State} {cl : Client}

/-! ## A READ that returns a value -/

/-- A READ of a readable object of at most 1388 bytes answers the value that the object has once the request is taken,
and then has the object's own effect (R344, R347). -/
theorem bdapRead_answers {ix : Fin 65536} {sub : Fin 256} {r : Reg} {i : Nat} {v : List Byte} (hf : Safety.fresh s cl)
    (hfind : findObject cl ix sub = .ok (r, i)) (hc : (ready s cl).checkRead cl r = none)
    (hv : (ready s cl).valueBytes cl r ((ready s cl).unitOf cl r i) = v) (hl : v.length ≤ 1388) :
    exec (.bdapRead cl ix sub) s = .next (((ready s cl).readEffect r ((ready s cl).unitOf cl r i)).reply cl
      (.ack (leBytes 2 ix ++ leBytes 1 sub ++ leBytes 1 (r.wireAt i).code ++ leBytes 2 v.length ++ v))) := by
  have hl' : ¬ 1388 < v.length := hl.not_gt
  show Host.Outcome.next (State.serve s cl (ix, sub) _) = _
  rw [serve_fresh hf]
  simp only [hfind, hc, hv, hl', readAnswer, if_false]

/-- Taking a request and sending its reply change no register but those that serving any request may. -/
theorem requestChanges_reply_ready {l : List Reg} {a : Reply} :
    Safety.requestChanges l s ((ready s cl).reply cl a) :=
  apart_iff.2 (apart_reply (apart_ready rfl) rfl rfl)

/-! ## The time base as an object -/

/-- 8000.01, 8010.01, 8020.01 and 8030.01 name the present time of the four time bases (R336). -/
theorem resolve_tbaseNow (n : Fin 4) : resolve (0x8000 + 16 * n.val) 1 = some (.tbaseNow, n.val) := by
  revert n
  decide +kernel

/-- The forerunner view has the time bases where the native view has them (R357). -/
theorem foreToNative_tbase (n : Fin 4) : foreToNative (0x8000 + 16 * n.val) = some (0x8000 + 16 * n.val) := by
  revert n
  decide

theorem findObject_tbaseNow (n : Fin 4) : findObject cl (0x8000 + 16 * n.val) 1 = .ok (.tbaseNow, n.val) := by
  have hview : (if cl.fore then foreToNative (0x8000 + 16 * n.val) else some (0x8000 + 16 * n.val))
      = some (0x8000 + 16 * n.val) := by
    split
    · exact foreToNative_tbase n
    · rfl
  have hseen : (cl.fore && Reg.beyondFore .tbaseNow n) = false := by simp [Reg.beyondFore]
  simp [findObject, hview, resolve_tbaseNow, hseen]

theorem length_leBytes (w : Nat) (v : Int) : (leBytes w v).length = w := by simp [leBytes]

theorem length_timeBytes (t : Nat) : (s.timeBytes t).length = 12 := by
  simp [State.timeBytes, length_leBytes]

theorem wireAt_tbaseNow (t : Nat) : Reg.wireAt .tbaseNow t = .domain := rfl

/-- No client's view shortens the bytes of a time base. -/
theorem valueBytes_tbaseNow (t : Nat) : s.valueBytes cl .tbaseNow t = s.timeBytes t := by
  have hv : s.domainBytes cl .tbaseNow t = s.timeBytes t := by
    unfold State.domainBytes
    cases cl.fore <;> rfl
  rw [State.valueBytes, if_pos (wireAt_tbaseNow t), hv]

/-- Taking a request does not move a time base. -/
theorem ready_timeBytes (t : Nat) : (ready s cl).timeBytes t = s.timeBytes t := by
  have sec : (ready s cl).get .xTbSec t = s.get .xTbSec t := ready_get (by decide)
  have ns : (ready s cl).get .xTbNs t = s.get .xTbNs t := ready_get (by decide)
  have frac : (ready s cl).get .xTbFrac t = s.get .xTbFrac t := ready_get (by decide)
  rw [State.timeBytes, sec, ns, frac, State.timeBytes]

/-- A READ of the present time answers a DOMAIN of 12 bytes and has no other effect. -/
theorem bdapRead_tbaseNow {ix : Fin 65536} {n : Fin 4} (hf : Safety.fresh s cl) (hix : ix.val = 0x8000 + 16 * n.val) :
    exec (.bdapRead cl ix 1) s = .next ((ready s cl).reply cl
      (.ack (leBytes 2 ix ++ [1, 11] ++ leBytes 2 12 ++ s.timeBytes n))) := by
  have hfind : findObject cl ix ((1 : Fin 256) : Nat) = .ok (.tbaseNow, n.val) := by
    rw [hix]
    exact findObject_tbaseNow n
  have hv : (ready s cl).valueBytes cl .tbaseNow n = s.timeBytes n := by rw [valueBytes_tbaseNow, ready_timeBytes]
  have hhead : leBytes 1 ((1 : Fin 256) : Nat) ++ leBytes 1 Wire.domain.code = [1, 11] := by decide
  rw [bdapRead_answers hf hfind rfl hv (by rw [length_timeBytes]; decide), length_timeBytes, wireAt_tbaseNow,
    List.append_assoc (leBytes 2 ix), hhead]
  rfl

end Sys2Proof.Laws

namespace Sys2Proof

open Sys2Proof.Machine Sys2Proof.Laws

/-- Settles O50: the READ finds the time base in either view, and taking the request leaves its three registers as they
were. -/
theorem timeReadsAnswerTwelveBytes : Obligations.TimeReadsAnswerTwelveBytes := fun _ _ _ _ hf hix =>
  ⟨_, bdapRead_tbaseNow hf hix, replied_reply (by rw [ready_out]), requestChanges_reply_ready⟩

end Sys2Proof

/-! # Every step (R50, 95_what_each_step_holds.md)

Settles the statements about the step as a whole. Kept (Laws/Kept.lean) has one lemma per command; each is applied with
the scope that leaves exactly what Safety.mayChange does not list. -/

namespace Sys2Proof.Laws

set_option Elab.async false

open Sys2Proof.Machine

/-- What a command may not change is left. -/
def frameOf (c : Instr) : Scope := fun p => decide (p ∉ Safety.mayChange c)

theorem kept_exec (c : Instr) (s : State) : Kept (frameOf c) s s → KeptO (frameOf c) s (exec c s) := by
  cases c with
  | porstNLow => apply +allowSynthFailures kept_execPorstNLow <;> exact ⟨rfl⟩
  | porstNRise _ _ => apply +allowSynthFailures kept_execPorstNRise <;> exact ⟨rfl⟩
  | sysrstNLow => apply +allowSynthFailures kept_execSysrstNLow <;> exact ⟨rfl⟩
  | sysrstNRise => apply +allowSynthFailures kept_execSysrstNRise <;> exact ⟨rfl⟩
  | warmResetCommand _ => apply +allowSynthFailures kept_execWarmResetCommand <;> exact ⟨rfl⟩
  | fuseLoadStart => apply +allowSynthFailures kept_execFuseLoadStart; exact ⟨rfl⟩
  | fuseLoadEnd _ => apply +allowSynthFailures kept_execFuseLoadEnd <;> exact ⟨rfl⟩
  | imageLoadComplete _ _ => apply +allowSynthFailures kept_execImageLoadComplete <;> exact ⟨rfl⟩
  | hbmTrainingComplete => apply +allowSynthFailures kept_execHbmTrainingComplete; exact ⟨rfl⟩
  | hostImageLoad _ => apply +allowSynthFailures kept_execHostImageLoad <;> exact ⟨rfl⟩
  | forerunnerEnableWrite _ _ => apply +allowSynthFailures kept_execForerunnerEnableWrite <;> exact ⟨rfl⟩
  | requestDormant _ => apply +allowSynthFailures kept_execRequestDormant <;> exact ⟨rfl⟩
  | requestTrim _ => apply +allowSynthFailures kept_execRequestTrim <;> exact ⟨rfl⟩
  | requestCatch _ => apply +allowSynthFailures kept_execRequestCatch <;> exact ⟨rfl⟩
  | requestCarry _ => apply +allowSynthFailures kept_execRequestCarry <;> exact ⟨rfl⟩
  | requestPair _ => apply +allowSynthFailures kept_execRequestPair <;> exact ⟨rfl⟩
  | requestHaven _ => apply +allowSynthFailures kept_execRequestHaven <;> exact ⟨rfl⟩
  | modeTransitionComplete _ => apply +allowSynthFailures kept_execModeTransitionComplete <;> exact ⟨rfl⟩
  | carrierRequest _ _ _ => apply +allowSynthFailures kept_execCarrierRequest <;> exact ⟨rfl⟩
  | guardLoopPeriod _ _ => apply +allowSynthFailures kept_execGuardLoopPeriod <;> exact ⟨rfl⟩
  | guardControlLost _ => apply +allowSynthFailures kept_execGuardControlLost <;> exact ⟨rfl⟩
  | rxStrokeArrival _ _ => apply +allowSynthFailures kept_execRxStrokeArrival <;> exact ⟨rfl⟩
  | txStrokePeriod _ => apply +allowSynthFailures kept_execTxStrokePeriod <;> exact ⟨rfl⟩
  | gapMarkerWrite _ => apply +allowSynthFailures kept_execGapMarkerWrite; exact ⟨rfl⟩
  | coreStrokeRelease _ _ _ => apply +allowSynthFailures kept_execCoreStrokeRelease <;> exact ⟨rfl⟩
  | coreStrokeAccept _ _ _ _ => apply +allowSynthFailures kept_execCoreStrokeAccept <;> exact ⟨rfl⟩
  | gapMarkerReached _ _ => apply +allowSynthFailures kept_execGapMarkerReached <;> exact ⟨rfl⟩
  | strokeBoundaryApply _ => apply +allowSynthFailures kept_execStrokeBoundaryApply <;> exact ⟨rfl⟩
  | reflLoss _ _ _ => apply +allowSynthFailures kept_execReflLoss <;> exact ⟨rfl⟩
  | reflRelock _ _ => apply +allowSynthFailures kept_execReflRelock <;> exact ⟨rfl⟩
  | reflHoldoverAtTrim _ => apply +allowSynthFailures kept_execReflHoldoverAtTrim <;> exact ⟨rfl⟩
  | agcWindowEnd _ rms unflagged =>
    apply +allowSynthFailures kept_execAgcWindowEnd
    case _rms => exact rms
    case _unflagged => exact unflagged
    all_goals exact ⟨rfl⟩
  | gainStepApply _ => apply +allowSynthFailures kept_execGainStepApply <;> exact ⟨rfl⟩
  | manualGainStep _ => apply +allowSynthFailures kept_execManualGainStep <;> exact ⟨rfl⟩
  | openTestRequest _ _ => apply +allowSynthFailures kept_execOpenTestRequest <;> exact ⟨rfl⟩
  | openTestComplete _ _ _ => apply +allowSynthFailures kept_execOpenTestComplete <;> exact ⟨rfl⟩
  | dacShortDetect _ _ => apply +allowSynthFailures kept_execDacShortDetect <;> exact ⟨rfl⟩
  | shortRetryTrial _ _ => apply +allowSynthFailures kept_execShortRetryTrial; exact ⟨rfl⟩
  | shortTrialEnd _ _ _ => apply +allowSynthFailures kept_execShortTrialEnd <;> exact ⟨rfl⟩
  | foregroundCalComplete _ _ _ => apply +allowSynthFailures kept_execForegroundCalComplete <;> exact ⟨rfl⟩
  | recalRequest _ _ => apply +allowSynthFailures kept_execRecalRequest <;> exact ⟨rfl⟩
  | bgCalStepStart _ => apply +allowSynthFailures kept_execBgCalStepStart; exact ⟨rfl⟩
  | bgCalMeasureComplete _ _ => apply +allowSynthFailures kept_execBgCalMeasureComplete <;> exact ⟨rfl⟩
  | bankStandbyWrite _ _ _ => apply +allowSynthFailures kept_execBankStandbyWrite <;> exact ⟨rfl⟩
  | bankCommitSwap _ _ => apply +allowSynthFailures kept_execBankCommitSwap <;> exact ⟨rfl⟩
  | bankCommitCrossfade _ _ => apply +allowSynthFailures kept_execBankCommitCrossfade <;> exact ⟨rfl⟩
  | crossfadeEnd _ => apply +allowSynthFailures kept_execCrossfadeEnd <;> exact ⟨rfl⟩
  | bankComputeComplete _ => apply +allowSynthFailures kept_execBankComputeComplete <;> exact ⟨rfl⟩
  | deskewAutoTrim _ _ => apply +allowSynthFailures kept_execDeskewAutoTrim <;> exact ⟨rfl⟩
  | polAdaptBlock _ _ => apply +allowSynthFailures kept_execPolAdaptBlock <;> exact ⟨rfl⟩
  | rxFrameStart _ _ => apply +allowSynthFailures kept_execRxFrameStart <;> exact ⟨rfl⟩
  | ncAdaptBlock _ _ => apply +allowSynthFailures kept_execNcAdaptBlock <;> exact ⟨rfl⟩
  | pilotGroupCheck _ _ _ => apply +allowSynthFailures kept_execPilotGroupCheck <;> exact ⟨rfl⟩
  | surveyRefresh _ _ _ _ => apply +allowSynthFailures kept_execSurveyRefresh; exact ⟨rfl⟩
  | catchMatch _ _ => apply +allowSynthFailures kept_execCatchMatch <;> exact ⟨rfl⟩
  | tentativeEntry _ _ => apply +allowSynthFailures kept_execTentativeEntry <;> exact ⟨rfl⟩
  | rxLoopRelock _ => apply +allowSynthFailures kept_execRxLoopRelock <;> exact ⟨rfl⟩
  | codewordDecode _ _ => apply +allowSynthFailures kept_execCodewordDecode <;> exact ⟨rfl⟩
  | txMultiframeBoundary _ _ => apply +allowSynthFailures kept_execTxMultiframeBoundary <;> exact ⟨rfl⟩
  | rxMultiframeBoundary _ _ => apply +allowSynthFailures kept_execRxMultiframeBoundary <;> exact ⟨rfl⟩
  | rxLogicalFrame _ _ => apply +allowSynthFailures kept_execRxLogicalFrame <;> exact ⟨rfl⟩
  | txPageFlip _ _ => apply +allowSynthFailures kept_execTxPageFlip <;> exact ⟨rfl⟩
  | rxPageFlip _ _ => apply +allowSynthFailures kept_execRxPageFlip <;> exact ⟨rfl⟩
  | defectDeclare _ _ _ => apply +allowSynthFailures kept_execDefectDeclare <;> exact ⟨rfl⟩
  | defectClear _ _ _ => apply +allowSynthFailures kept_execDefectClear <;> exact ⟨rfl⟩
  | ohpInBurst _ _ => apply +allowSynthFailures kept_execOhpInBurst <;> exact ⟨rfl⟩
  | ohpOutBurst _ => apply +allowSynthFailures kept_execOhpOutBurst; exact ⟨rfl⟩
  | hostFrameReceive _ _ _ => apply +allowSynthFailures kept_execHostFrameReceive <;> exact ⟨rfl⟩
  | pfcResend _ => apply +allowSynthFailures kept_execPfcResend; exact ⟨rfl⟩
  | clsInsert _ => apply +allowSynthFailures kept_execClsInsert <;> exact ⟨rfl⟩
  | clsDelete _ => apply +allowSynthFailures kept_execClsDelete <;> exact ⟨rfl⟩
  | clsLookup _ => apply +allowSynthFailures kept_execClsLookup <;> exact ⟨rfl⟩
  | clsClearAll _ => apply +allowSynthFailures kept_execClsClearAll <;> exact ⟨rfl⟩
  | clsOpComplete => apply +allowSynthFailures kept_execClsOpComplete; exact ⟨rfl⟩
  | clsBulkLoad _ _ => apply +allowSynthFailures kept_execClsBulkLoad <;> exact ⟨rfl⟩
  | flowEntryWrite _ _ => apply +allowSynthFailures kept_execFlowEntryWrite <;> exact ⟨rfl⟩
  | flowTableLoad _ _ => apply +allowSynthFailures kept_execFlowTableLoad <;> exact ⟨rfl⟩
  | calendarFlip _ => apply +allowSynthFailures kept_execCalendarFlip <;> exact ⟨rfl⟩
  | mapperNextFrame _ _ => apply +allowSynthFailures kept_execMapperNextFrame <;> exact ⟨rfl⟩
  | rxTribRowWrite _ _ => apply +allowSynthFailures kept_execRxTribRowWrite <;> exact ⟨rfl⟩
  | egressFrameSend _ _ _ => apply +allowSynthFailures kept_execEgressFrameSend <;> exact ⟨rfl⟩
  | groupMembersWrite _ _ _ => apply +allowSynthFailures kept_execGroupMembersWrite <;> exact ⟨rfl⟩
  | bondExitWaitExpiry _ => apply +allowSynthFailures kept_execBondExitWaitExpiry <;> exact ⟨rfl⟩
  | alignWaitExpiry _ => apply +allowSynthFailures kept_execAlignWaitExpiry <;> exact ⟨rfl⟩
  | boathouseRelease _ _ => apply +allowSynthFailures kept_execBoathouseRelease <;> exact ⟨rfl⟩
  | groupRealign _ _ => apply +allowSynthFailures kept_execGroupRealign <;> exact ⟨rfl⟩
  | txCipherBlock _ _ _ _ => apply +allowSynthFailures kept_execTxCipherBlock <;> exact ⟨rfl⟩
  | rxBlockCheck _ _ _ _ _ _ _ => apply +allowSynthFailures kept_execRxBlockCheck <;> exact ⟨rfl⟩
  | kekProgram _ _ => apply +allowSynthFailures kept_execKekProgram <;> exact ⟨rfl⟩
  | kekRevoke _ _ => apply +allowSynthFailures kept_execKekRevoke <;> exact ⟨rfl⟩
  | kekProgramComplete _ _ => apply +allowSynthFailures kept_execKekProgramComplete <;> exact ⟨rfl⟩
  | keyprovNRise => apply +allowSynthFailures kept_execKeyprovNRise <;> exact ⟨rfl⟩
  | keyLoad _ _ => apply +allowSynthFailures kept_execKeyLoad <;> exact ⟨rfl⟩
  | keyErase _ => apply +allowSynthFailures kept_execKeyErase <;> exact ⟨rfl⟩
  | keySwitchComplete _ => apply +allowSynthFailures kept_execKeySwitchComplete <;> exact ⟨rfl⟩
  | zeroNFall => apply +allowSynthFailures kept_execZeroNFall <;> exact ⟨rfl⟩
  | cipherBindingWrite _ _ _ => apply +allowSynthFailures kept_execCipherBindingWrite <;> exact ⟨rfl⟩
  | laneBringupStep _ _ => apply +allowSynthFailures kept_execLaneBringupStep <;> exact ⟨rfl⟩
  | laneStepTimeout _ => apply +allowSynthFailures kept_execLaneStepTimeout <;> exact ⟨rfl⟩
  | laneLosSet _ => apply +allowSynthFailures kept_execLaneLosSet <;> exact ⟨rfl⟩
  | laneLosClear _ => apply +allowSynthFailures kept_execLaneLosClear <;> exact ⟨rfl⟩
  | laneLockLoss _ => apply +allowSynthFailures kept_execLaneLockLoss <;> exact ⟨rfl⟩
  | laneRelockTimeout _ => apply +allowSynthFailures kept_execLaneRelockTimeout; exact ⟨rfl⟩
  | refhLoss _ => apply +allowSynthFailures kept_execRefhLoss <;> exact ⟨rfl⟩
  | pairFaultDetect _ _ _ => apply +allowSynthFailures kept_execPairFaultDetect <;> exact ⟨rfl⟩
  | pairTest _ _ _ => apply +allowSynthFailures kept_execPairTest <;> exact ⟨rfl⟩
  | dfeAdaptWindow _ _ _ _ => apply +allowSynthFailures kept_execDfeAdaptWindow <;> exact ⟨rfl⟩
  | laneDeepLowPower _ => apply +allowSynthFailures kept_execLaneDeepLowPower <;> exact ⟨rfl⟩
  | octetOrderSearch _ _ _ => apply +allowSynthFailures kept_execOctetOrderSearch <;> exact ⟨rfl⟩
  | portAligned _ => apply +allowSynthFailures kept_execPortAligned; exact ⟨rfl⟩
  | portUp _ => apply +allowSynthFailures kept_execPortUp <;> exact ⟨rfl⟩
  | portLocalFault _ _ _ _ => apply +allowSynthFailures kept_execPortLocalFault <;> exact ⟨rfl⟩
  | rateMatchAdjust _ _ _ _ _ => apply +allowSynthFailures kept_execRateMatchAdjust <;> exact ⟨rfl⟩
  | prbsInject _ _ => apply +allowSynthFailures kept_execPrbsInject <;> exact ⟨rfl⟩
  | prbsInjectPeriodic _ => apply +allowSynthFailures kept_execPrbsInjectPeriodic; exact ⟨rfl⟩
  | scrubRead _ _ _ _ => apply +allowSynthFailures kept_execScrubRead <;> exact ⟨rfl⟩
  | eccWriteBack _ _ _ covered =>
    apply +allowSynthFailures kept_execEccWriteBack
    case _covered => exact covered
    all_goals exact ⟨rfl⟩
  | spareRowCopyComplete _ _ => apply +allowSynthFailures kept_execSpareRowCopyComplete; exact ⟨rfl⟩
  | hbmRepairComplete _ _ => apply +allowSynthFailures kept_execHbmRepairComplete <;> exact ⟨rfl⟩
  | bdapFrameReceive _ _ _ => apply +allowSynthFailures kept_execBdapFrameReceive <;> exact ⟨rfl⟩
  | bdapRead _ _ _ => apply +allowSynthFailures kept_execBdapRead <;> exact ⟨rfl⟩
  | bdapWrite _ _ _ _ _ => apply +allowSynthFailures kept_execBdapWrite <;> exact ⟨rfl⟩
  | bdapStagedWrite _ _ _ _ _ => apply +allowSynthFailures kept_execBdapStagedWrite <;> exact ⟨rfl⟩
  | bdapReadBlock _ _ _ _ _ => apply +allowSynthFailures kept_execBdapReadBlock <;> exact ⟨rfl⟩
  | bdapWriteBlock _ _ _ _ _ _ _ _ => apply +allowSynthFailures kept_execBdapWriteBlock <;> exact ⟨rfl⟩
  | bdapCommit _ => apply +allowSynthFailures kept_execBdapCommit <;> exact ⟨rfl⟩
  | bdapCommitDiscard _ => apply +allowSynthFailures kept_execBdapCommitDiscard <;> exact ⟨rfl⟩
  | bdapSnapshot _ => apply +allowSynthFailures kept_execBdapSnapshot <;> exact ⟨rfl⟩
  | bdapSubscribe _ _ => apply +allowSynthFailures kept_execBdapSubscribe <;> exact ⟨rfl⟩
  | bdapUnsubscribe _ => apply +allowSynthFailures kept_execBdapUnsubscribe <;> exact ⟨rfl⟩
  | eventAckReceive _ => apply +allowSynthFailures kept_execEventAckReceive; exact ⟨rfl⟩
  | eventSend _ => apply +allowSynthFailures kept_execEventSend; exact ⟨rfl⟩
  | eventResend _ => apply +allowSynthFailures kept_execEventResend <;> exact ⟨rfl⟩
  | stagingTimeout _ _ => apply +allowSynthFailures kept_execStagingTimeout <;> exact ⟨rfl⟩
  | blockTransferTimeout _ _ => apply +allowSynthFailures kept_execBlockTransferTimeout; exact ⟨rfl⟩
  | ringPost _ _ _ => apply +allowSynthFailures kept_execRingPost <;> exact ⟨rfl⟩
  | ringResume _ _ => apply +allowSynthFailures kept_execRingResume <;> exact ⟨rfl⟩
  | ringSkip _ _ => apply +allowSynthFailures kept_execRingSkip <;> exact ⟨rfl⟩
  | ringFlush _ _ => apply +allowSynthFailures kept_execRingFlush <;> exact ⟨rfl⟩
  | moverGranule _ => apply +allowSynthFailures kept_execMoverGranule <;> exact ⟨rfl⟩
  | windowWrite _ _ => apply +allowSynthFailures kept_execWindowWrite <;> exact ⟨rfl⟩
  | captureArm _ _ => apply +allowSynthFailures kept_execCaptureArm <;> exact ⟨rfl⟩
  | captureStop _ _ => apply +allowSynthFailures kept_execCaptureStop <;> exact ⟨rfl⟩
  | captureComplete _ => apply +allowSynthFailures kept_execCaptureComplete; exact ⟨rfl⟩
  | clearAllLatched _ => apply +allowSynthFailures kept_execClearAllLatched <;> exact ⟨rfl⟩
  | eventLatchClear _ _ => apply +allowSynthFailures kept_execEventLatchClear <;> exact ⟨rfl⟩
  | inputSample _ _ => apply +allowSynthFailures kept_execInputSample <;> exact ⟨rfl⟩
  | inputStuck _ => apply +allowSynthFailures kept_execInputStuck <;> exact ⟨rfl⟩
  | inputRateWindowEnd => apply +allowSynthFailures kept_execInputRateWindowEnd <;> exact ⟨rfl⟩
  | snapshotGatherComplete => apply +allowSynthFailures kept_execSnapshotGatherComplete; exact ⟨rfl⟩
  | clearWraps _ _ => apply +allowSynthFailures kept_execClearWraps <;> exact ⟨rfl⟩
  | counterFilterRead _ _ => apply +allowSynthFailures kept_execCounterFilterRead <;> exact ⟨rfl⟩
  | timeTick => apply +allowSynthFailures kept_execTimeTick <;> exact ⟨rfl⟩
  | timeStepOffset _ _ _ => apply +allowSynthFailures kept_execTimeStepOffset <;> exact ⟨rfl⟩
  | timeSetAbsolute _ _ _ => apply +allowSynthFailures kept_execTimeSetAbsolute <;> exact ⟨rfl⟩
  | trefOutOfTolerance _ => apply +allowSynthFailures kept_execTrefOutOfTolerance <;> exact ⟨rfl⟩
  | trefReturn _ => apply +allowSynthFailures kept_execTrefReturn <;> exact ⟨rfl⟩
  | ppsOutFall _ => apply +allowSynthFailures kept_execPpsOutFall; exact ⟨rfl⟩
  | tsQueuePop _ => apply +allowSynthFailures kept_execTsQueuePop <;> exact ⟨rfl⟩
  | railSample _ => apply +allowSynthFailures kept_execRailSample <;> exact ⟨rfl⟩
  | brownout _ => apply +allowSynthFailures kept_execBrownout <;> exact ⟨rfl⟩
  | sensorSample _ _ => apply +allowSynthFailures kept_execSensorSample <;> exact ⟨rfl⟩
  | sensorReadmit _ _ => apply +allowSynthFailures kept_execSensorReadmit <;> exact ⟨rfl⟩
  | sensorReadmitComplete _ => apply +allowSynthFailures kept_execSensorReadmitComplete <;> exact ⟨rfl⟩
  | shedRestore _ _ => apply +allowSynthFailures kept_execShedRestore <;> exact ⟨rfl⟩
  | orderlyShutdownComplete => apply +allowSynthFailures kept_execOrderlyShutdownComplete <;> exact ⟨rfl⟩
  | hkSeqStart _ _ => apply +allowSynthFailures kept_execHkSeqStart <;> exact ⟨rfl⟩
  | hkInjectStart _ _ => apply +allowSynthFailures kept_execHkInjectStart <;> exact ⟨rfl⟩
  | hkConversionComplete _ _ => apply +allowSynthFailures kept_execHkConversionComplete <;> exact ⟨rfl⟩
  | hkCalRequest _ _ => apply +allowSynthFailures kept_execHkCalRequest <;> exact ⟨rfl⟩
  | hkCalAuto _ => apply +allowSynthFailures kept_execHkCalAuto; exact ⟨rfl⟩
  | hkCalComplete _ _ => apply +allowSynthFailures kept_execHkCalComplete <;> exact ⟨rfl⟩
  | hkResultRead _ _ => apply +allowSynthFailures kept_execHkResultRead <;> exact ⟨rfl⟩
  | tieHeartbeat _ => apply +allowSynthFailures kept_execTieHeartbeat <;> exact ⟨rfl⟩
  | tieHeartbeatRx _ _ => apply +allowSynthFailures kept_execTieHeartbeatRx <;> exact ⟨rfl⟩
  | tieLinkDown => apply +allowSynthFailures kept_execTieLinkDown <;> exact ⟨rfl⟩
  | digestRecompute => apply +allowSynthFailures kept_execDigestRecompute <;> exact ⟨rfl⟩
  | tieDigestRx _ _ => apply +allowSynthFailures kept_execTieDigestRx <;> exact ⟨rfl⟩
  | tieKeyRecordRx _ _ _ => apply +allowSynthFailures kept_execTieKeyRecordRx <;> exact ⟨rfl⟩
  | tieLeaseRx _ _ _ _ => apply +allowSynthFailures kept_execTieLeaseRx <;> exact ⟨rfl⟩
  | tieLeaseAckRx _ _ _ _ => apply +allowSynthFailures kept_execTieLeaseAckRx <;> exact ⟨rfl⟩
  | tieDeliveryRx _ _ _ => apply +allowSynthFailures kept_execTieDeliveryRx <;> exact ⟨rfl⟩
  | tieTxAlignmentRx _ time _ =>
    apply +allowSynthFailures kept_execTieTxAlignmentRx
    case _time => exact time
    all_goals exact ⟨rfl⟩
  | tieReleaseRx cause _ =>
    apply +allowSynthFailures kept_execTieReleaseRx
    case _cause => exact cause
    all_goals exact ⟨rfl⟩
  | tieSwitchRequestRx _ _ => apply +allowSynthFailures kept_execTieSwitchRequestRx <;> exact ⟨rfl⟩
  | pairSwitch _ => apply +allowSynthFailures kept_execPairSwitch <;> exact ⟨rfl⟩
  | pairSwitchForce _ => apply +allowSynthFailures kept_execPairSwitchForce <;> exact ⟨rfl⟩
  | healthSwitch => apply +allowSynthFailures kept_execHealthSwitch <;> exact ⟨rfl⟩
  | tieLossTakeover => apply +allowSynthFailures kept_execTieLossTakeover <;> exact ⟨rfl⟩
  | refhReturn _ => apply +allowSynthFailures kept_execRefhReturn; exact ⟨rfl⟩
  | synthesiserLock _ => apply +allowSynthFailures kept_execSynthesiserLock <;> exact ⟨rfl⟩
  | zeroNRise => apply +allowSynthFailures kept_execZeroNRise; exact ⟨rfl⟩
  | keyprovNFall => apply +allowSynthFailures kept_execKeyprovNFall; exact ⟨rfl⟩
  | remoteFaultReceived _ _ => apply +allowSynthFailures kept_execRemoteFaultReceived <;> exact ⟨rfl⟩
  | pairFaultClear _ _ _ => apply +allowSynthFailures kept_execPairFaultClear <;> exact ⟨rfl⟩
  | prbsCheckerLock _ _ => apply +allowSynthFailures kept_execPrbsCheckerLock; exact ⟨rfl⟩
  | prbsCheckerUnlock _ => apply +allowSynthFailures kept_execPrbsCheckerUnlock; exact ⟨rfl⟩
  | rxGfpFrame _ _ => apply +allowSynthFailures kept_execRxGfpFrame <;> exact ⟨rfl⟩
  | mgtPlcaStatusChange _ _ => apply +allowSynthFailures kept_execMgtPlcaStatusChange <;> exact ⟨rfl⟩
  | hkSampleBoundary _ => apply +allowSynthFailures kept_execHkSampleBoundary; exact ⟨rfl⟩

variable {c : Instr} {s t : State}

theorem exec_keeps (h : exec c s = .next t) : Kept (frameOf c) s t := (kept_exec c s (Kept.refl s)).keeps t h

/-- No command faults and none is refused. -/
theorem exec_completes (c : Instr) (s : State) : ∃ t, exec c s = .next t := by
  cases c <;> exact ⟨_, rfl⟩

/-! ## The reset that a write commands (R50) -/

/-- A register that a reset does not keep is at its default after it. -/
theorem get_wipe_cleared {kept : Reg → Bool} {r : Reg} {i : Nat} (h : kept r = false) :
    (s.wipe kept).get r i = r.dflt i := by
  have cleared : ∀ l : List ((Reg × Nat) × Int), sget (l.filter fun e => kept e.1.1) (r, i) (r.dflt i) = r.dflt i := by
    intro l
    induction l with
    | nil => rfl
    | cons e l ih =>
      cases hk : kept e.1.1 with
      | false => simpa [hk] using ih
      | true =>
        have hne : e.1 ≠ (r, i) := fun he => by simp [he, h] at hk
        simpa [hk, sget, hne] using ih
  exact cleared s.regs

theorem resetDue_warmReset {n : Int} : (s.warmReset n).flag .xResetDue 0 = false := by
  have h : (s.warmReset n).get .xResetDue 0 = 0 :=
    (get_set_reg _ _ (by decide)).trans (get_wipe_cleared (r := .xResetDue) rfl)
  simp [State.flag, h]

theorem resetDue_afterReset : s.afterReset.flag .xResetDue 0 = false := by
  unfold State.afterReset
  split
  · exact (resetDue_warmReset : (s.warmReset 2).flag .xResetDue 0 = false)
  · exact Bool.eq_false_iff.2 ‹_›

/-- The scope that leaves the phase and the mark of a due reset, and says nothing of the rest. -/
abbrev phaseScope : Scope := fun p => match p with
  | .phase => true
  | _ => false

/-- t has the mark of a due reset as s has it. -/
def SameDue (s t : State) : Prop := t.get .xResetDue 0 = s.get .xResetDue 0

theorem SameDue.flag (h : SameDue s t) (hs : s.flag .xResetDue 0 = false) : t.flag .xResetDue 0 = false := by
  rw [← hs]
  simp only [State.flag, show t.get .xResetDue 0 = s.get .xResetDue 0 from h]

theorem sameDue_set {r : Reg} {i : Nat} {v : Int} (hr : .xResetDue ≠ r) : SameDue s (s.set r i v) :=
  get_set_reg s v hr

theorem SameDue.set {r : Reg} {i : Nat} {v : Int} (h : SameDue s t) (hr : .xResetDue ≠ r := by decide) :
    SameDue s (t.set r i v) :=
  (sameDue_set hr).trans h

theorem Kept.sameDue (h : Kept phaseScope s t) : SameDue s t := (h.sameRegs .xResetDue 0 rfl).1

theorem resetDue_sysrstLow (hs : s.flag .xResetDue 0 = false) : s.sysrstLow.flag .xResetDue 0 = false := by
  have low : SameDue s (s.set .xSysrst 0 1) := sameDue_set (by decide)
  have reset : ((s.set .xSysrst 0 1).warmReset 1).flag .xResetDue 0 = false := resetDue_warmReset
  unfold State.sysrstLow
  dsimp only
  split
  · exact reset
  · split
    · exact low.set.flag hs
    · exact reset
  · exact low.set.flag hs
  · exact low.flag hs
  · exact low.flag hs

theorem resetDue_sysrstRise (hs : s.flag .xResetDue 0 = false) : s.sysrstRise.flag .xResetDue 0 = false := by
  have rise : SameDue s (s.set .xSysrst 0 0) := sameDue_set (by decide)
  have told : SameDue s (if (s.set .xSysrst 0 0).flag .xWarmDue 0 then
      ((s.set .xSysrst 0 0).set .xWarmDue 0 0).set .bootResetCause 0 1 else s.set .xSysrst 0 0) := by
    split
    · exact rise.set.set
    · exact rise
  unfold State.sysrstRise
  dsimp only
  split
  · exact rise.flag hs
  · exact told.flag hs
  · exact told.flag hs
  · exact rise.flag hs
  · exact rise.flag hs

theorem resetDue_fuseLoaded {failed : List Nat} (hs : s.flag .xResetDue 0 = false) :
    (s.fuseLoaded failed).flag .xResetDue 0 = false := by
  have := fact_false
  unfold State.fuseLoaded
  split
  · exact (resetDue_warmReset : (s.warmReset 1).flag .xResetDue 0 = false)
  · extract_lets s1 s2 s3
    have h1 : Kept phaseScope { s with phase := .running } s1 := kept_each (Kept.refl _) fun _ _ ht => kept_emit ht
    have h3 : Kept phaseScope { s with phase := .running } s3 := kept_each (kept_emit h1) fun _ _ ht => kept_set ht rfl
    exact (kept_each (kept_coresTested h3) fun _ _ ht => kept_set (kept_set ht rfl) rfl).sameDue.flag hs

theorem resetDue_railSamples {v : Vector (Fin 65536) 13} (h : execRailSample v s = .next t)
    (hs : s.flag .xResetDue 0 = false) : t.flag .xResetDue 0 = false := by
  have := fact_false
  cases h
  split
  · exact (kept_each (Kept.refl s) fun _ _ ht => kept_railSample ht).sameDue.flag hs
  · split <;> exact hs
  · exact hs

/-- A reset that a command makes due takes place within it. -/
theorem resetDue_exec (h : exec c s = .next t) (hs : s.flag .xResetDue 0 = false) :
    t.flag .xResetDue 0 = false := by
  have left (hp : frameOf c .phase = true) : t.flag .xResetDue 0 = false :=
    SameDue.flag ((exec_keeps h).sameRegs .xResetDue 0 hp).1 hs
  have after {u : State} (hu : (.next u.afterReset : Host.Outcome State Fault Refusal) = .next t) : t.flag .xResetDue 0 = false := by
    cases hu
    exact resetDue_afterReset
  cases c with
  | porstNLow =>
    cases h
    exact decide_eq_false (not_not.2 (get_wipe_cleared (s := s) (kept := Reg.keptCold) rfl))
  | porstNRise straps railsOk =>
    cases h
    split
    · exact ((sameDue_set (by decide) : SameDue s (s.set .bootStraps 0 _)).set (r := .xWarmDue)).flag hs
    · exact hs
  | sysrstNLow => cases h; exact resetDue_sysrstLow hs
  | sysrstNRise => cases h; exact resetDue_sysrstRise hs
  | fuseLoadStart => cases h; split <;> exact hs
  | fuseLoadEnd failed =>
    cases h
    split
    · exact resetDue_fuseLoaded hs
    · exact hs
  | railSample v => exact resetDue_railSamples h hs
  | warmResetCommand cl => exact after h
  | bdapWrite cl ix sub ty val => exact after h
  | bdapWriteBlock cl ix sub first last total offset data => exact after h
  | bdapCommit cl => exact after h
  | _ => exact left rfl

/-! ## The queue of commands -/

theorem step_of_pending {rest : List Instr} (h : s.pending = c :: rest) : step s = exec c (s.setPending rest) := by
  simp only [step, h]

theorem step_of_idle (h : s.pending = []) : step s = .next s := by simp only [step, h]

/-- What holds of every state, is kept by taking a command from the queue and by running it, is kept by a step. -/
theorem step_keeps {P : State → Prop} (hq : ∀ s l, P s → P (s.setPending l))
    (hx : ∀ {c s t}, exec c s = .next t → P s → P t) (h : step s = .next t) (hs : P s) : P t := by
  cases hl : s.pending with
  | nil =>
    rw [step_of_idle hl] at h
    cases h
    exact hs
  | cons c rest =>
    rw [step_of_pending hl] at h
    exact hx h (hq s rest hs)

end Sys2Proof.Laws

namespace Sys2Proof

open Sys2Proof.Machine Sys2Proof.Laws

/-- Settles O1. -/
theorem stepRunsTheFrontCommand : Obligations.StepRunsTheFrontCommand :=
  ⟨fun _ _ _ => step_of_pending, fun _ => step_of_idle⟩

/-- Settles O2: the tables and queues of the state after reset are empty. -/
theorem resetIsSound : Obligations.ResetIsSound := by
  refine ⟨⟨rfl, rfl, rfl, rfl⟩, ⟨rfl, rfl, rfl, rfl, rfl, rfl, rfl⟩, ⟨rfl, rfl, rfl, rfl, rfl, rfl, rfl, rfl⟩, ?_, rfl, rfl⟩
  exact ⟨⟨Nat.zero_le _, Nat.zero_le _⟩, ⟨Nat.zero_le _, Nat.zero_le _, Nat.zero_le _⟩,
    ⟨List.nodup_nil, fun _ hn => absurd hn List.not_mem_nil⟩, ⟨Nat.zero_le _, Nat.zero_le _⟩⟩

/-- Settles O3: what Kept says of every command, and the resets within the commands that make one due. -/
theorem stepKeepsTheStateSound : Obligations.StepKeepsTheStateSound := by
  refine ⟨fun s t h1 h2 h3 h => ?_, fun s t hs h => ?_, fun s t hs h => ?_⟩
  · refine step_keeps (P := fun s => Safety.tablesCanonical s ∧ Safety.queuesCanonical s ∧ Safety.linesCanonical s)
      (fun _ _ => id) (fun h hs => ?_) h ⟨h1, h2, h3⟩
    exact ⟨(exec_keeps h).tables hs.1, (exec_keeps h).queues hs.2.1, (exec_keeps h).lines hs.2.2⟩
  · refine step_keeps (P := Safety.capacities) (fun _ _ => id) (fun h hs => ?_) h hs
    have k := exec_keeps h
    exact ⟨k.rings hs.1, k.management hs.2.1, k.slots hs.2.2.1, k.entries hs.2.2.2⟩
  · exact step_keeps (P := fun s => s.flag .xResetDue 0 = false) (fun _ _ => id) resetDue_exec h hs

/-- Settles O4: every command has a next state, and Kept says what it leaves. -/
theorem everyCommandCompletesInItsFrame : Obligations.EveryCommandCompletesInItsFrame := by
  refine ⟨fun s => ?_, fun c s => ?_⟩
  · cases hl : s.pending with
    | nil => exact ⟨s, step_of_idle hl⟩
    | cons c rest =>
      rw [step_of_pending hl]
      exact exec_completes c _
  · obtain ⟨t, h⟩ := exec_completes c s
    have k := exec_keeps h
    exact ⟨t, h, fun p hp => k.samePart (decide_eq_true hp), k.pending, k.out⟩

/-- Settles O5: mover memory is a sparse table whose unlisted bytes read 0. -/
theorem moverMemoryReadsWhatWasWritten : Obligations.MoverMemoryReadsWhatWasWritten := fun s a b =>
  ⟨readByte_writeByte_same s a b, fun _ h => readByte_writeByte_other s b h, swf_nats (fun _ => 0) s.mem a b, rfl⟩

end Sys2Proof

/-! # What raising an event leaves, and what a request draws (R343 to R353, R381) -/

namespace Sys2Proof.Laws

set_option Elab.async false

open Sys2Proof.Machine

variable {s t u : State} {cl : Client} {c : Instr}

/-! ## What raising an event leaves beside registers -/

/-- The fields of a state that an event raise does not write. -/
def beside (s : State) : State :=
  { s with regs := [], blobs := [], wraps := [], ring := [], history := [], subscribers := [] }

theorem beside_bump {r : Reg} {i n : Nat} : beside (s.bump r i n) = beside s := by
  obtain ⟨a, w, h⟩ := bump_form (s := s) r i n
  rw [h]
  rfl

theorem beside_ite {p : Prop} [Decidable p] (ht : beside t = beside s) (hu : beside u = beside s) :
    beside (if p then t else u) = beside s := by
  split <;> assumption

theorem beside_each {α : Type} {l : List α} {f : State → α → State} (hf : ∀ t a, beside (f t a) = beside t) :
    beside (s.each l f) = beside s := by
  unfold State.each
  induction l generalizing s with
  | nil => rfl
  | cons a l ih => exact ih.trans (hf s a)

theorem beside_ringPush {r : EventRec} : beside (s.ringPush r) = beside s := by
  unfold State.ringPush
  dsimp only
  refine beside_bump.trans ?_
  split
  · split
    · exact beside_bump.trans rfl
    · rfl
  · rfl

theorem beside_historyPush {r : EventRec} : beside (s.historyPush r) = beside s := beside_bump.trans rfl

theorem beside_captureTrigger {e : Nat} : beside (s.captureTrigger e) = beside s :=
  beside_each fun _ _ => beside_ite rfl rfl

theorem beside_subscribers {l : List Subscriber} : beside { s with subscribers := l } = beside s := rfl

theorem beside_set {r : Reg} {i : Nat} {v : Int} : beside (s.set r i v) = beside s := rfl

theorem beside_raiseCore {e : Nat} {d : List Item} {k : Mark} : beside (s.raiseCore e d k) = beside s := by
  have counted : ∀ v, beside ((s.bump .eventCount e).set .eventLastTime e v) = beside s :=
    fun _ => beside_set.trans beside_bump
  unfold State.raiseCore
  extract_lets a sev r b b'
  have ha : beside a = beside s := counted _
  have hb : beside b = beside s := beside_ringPush.trans (beside_set.trans ha)
  have hb' : beside b' = beside s := beside_ite (beside_historyPush.trans hb) hb
  exact beside_ite (beside_captureTrigger.trans (beside_subscribers.trans hb')) ha

theorem beside_hkLatch {k : Nat} : beside (s.hkLatch k) = beside s := beside_ite rfl rfl

section Triggers

variable {k : Nat} {raise : State → Nat → List Item → State} (hr : ∀ t e d, beside (raise t e d) = beside t)
include hr

theorem beside_hkMiss : beside (s.hkMiss k raise) = beside s := beside_ite (hr _ _ _) rfl

theorem beside_hkSeqTrigger : beside (s.hkSeqTrigger k raise) = beside s := by
  have miss : beside ((s.bump .hkSeqMissed k).hkMiss k raise) = beside s := (beside_hkMiss hr).trans beside_bump
  exact beside_ite miss (beside_ite (beside_ite miss rfl) (beside_ite beside_hkLatch rfl))

theorem beside_hkInjTrigger : beside (s.hkInjTrigger k raise) = beside s :=
  beside_ite ((beside_hkMiss hr).trans beside_bump) (beside_ite beside_hkLatch rfl)

theorem beside_hkEventTrigger {e : Nat} : beside (s.hkEventTrigger e raise) = beside s :=
  beside_each fun t k => by
    have h : beside (if t.get .hkSeqTrigger k = 3 ∧ t.get .hkSeqEvent k = e then t.hkSeqTrigger k raise else t)
      = beside t := beside_ite (beside_hkSeqTrigger hr) rfl
    exact beside_ite ((beside_hkInjTrigger hr).trans h) h

end Triggers

theorem beside_raiseFuel {n e : Nat} {d : List Item} {k : Mark} : beside (State.raiseFuel n s e d k) = beside s := by
  induction n generalizing s e d k with
  | zero => exact beside_raiseCore
  | succ n ih =>
    exact beside_ite beside_raiseCore ((beside_hkEventTrigger fun _ _ _ => ih).trans beside_raiseCore)

theorem beside_raise {e : Nat} {d : List Item} : beside (s.raise e d) = beside s := beside_raiseFuel

theorem beside_raiseClear {e : Nat} {d : List Item} {b : Bool} : beside (s.raiseClear e d b) = beside s :=
  beside_raiseFuel

/-- Raising an event sends nothing. -/
theorem raise_out {e : Nat} {d : List Item} : (s.raise e d).out = s.out := by
  show (beside (s.raise e d)).out = (beside s).out
  rw [beside_raise]

theorem raiseClear_out {e : Nat} {d : List Item} {b : Bool} : (s.raiseClear e d b).out = s.out := by
  show (beside (s.raiseClear e d b)).out = (beside s).out
  rw [beside_raiseClear]

/-! ## Requests as they are served -/

/-- What a write request runs is served like any other request. -/
theorem serveWrite_serves {r : Reg} {i : Nat} {v : WVal} {eff : State → State × Answer} :
    ∃ addr act, s.serveWrite cl r i v eff = s.serve cl addr act := by
  unfold State.serveWrite
  split <;> exact ⟨_, _, rfl⟩

theorem serveRead_serves {r : Reg} {i : Nat} {value : State → List Byte} {eff : State → State} :
    ∃ addr act, s.serveRead cl r i value eff = s.serve cl addr act := by
  unfold State.serveRead
  split <;> exact ⟨_, _, rfl⟩

theorem serveObject_serves {ix sub : Nat} {act : State → Reg → Nat → State × Answer} :
    ∃ addr act', s.serveObject cl ix sub act = s.serve cl addr act' := ⟨_, _, rfl⟩

/-- The command serves a request; a write or a commit may make a reset due, which then takes place. -/
def Serves (c : Instr) (s : State) (cl : Client) : Prop :=
  ∃ addr act, exec c s = .next (s.serve cl addr act) ∨ exec c s = .next (s.serve cl addr act).afterReset

theorem serves_of_eq (h : ∃ addr act, u = s.serve cl addr act) (he : exec c s = .next u) : Serves c s cl := by
  obtain ⟨addr, act, rfl⟩ := h
  exact ⟨addr, act, .inl he⟩

theorem serves_of_eq_afterReset (h : ∃ addr act, u = s.serve cl addr act) (he : exec c s = .next u.afterReset) :
    Serves c s cl := by
  obtain ⟨addr, act, rfl⟩ := h
  exact ⟨addr, act, .inr he⟩

/-- A command that is a write of one object serves that write. -/
theorem exec_write {r : Reg} {i : Nat} {v : WVal} (h : Safety.writeOf c = some (cl, r, i, v)) :
    ∃ eff, exec c s = .next (s.serveWrite cl r i v eff) ∨ exec c s = .next (s.serveWrite cl r i v eff).afterReset := by
  cases c with
  | warmResetCommand x => cases h; exact ⟨_, .inr rfl⟩
  | _ => cases h <;> exact ⟨_, .inl rfl⟩

theorem afterReset_of_not_due (h : s.flag .xResetDue 0 = false) : s.afterReset = s := by
  simp [State.afterReset, h]

/-- Every request but an acknowledgement of an EVENT is served (R350). -/
theorem serves_of_sender (h : c.sender = some cl) (hc : c ≠ .eventAckReceive cl) : Serves c s cl := by
  have write {r i v} (hw : Safety.writeOf c = some (cl, r, i, v)) : Serves c s cl := by
    obtain ⟨eff, he | he⟩ := exec_write (s := s) hw
    · exact serves_of_eq serveWrite_serves he
    · exact serves_of_eq_afterReset serveWrite_serves he
  cases c with
  | eventAckReceive x => cases h; exact absurd rfl hc
  | bdapRead x ix sub => cases h; exact serves_of_eq serveObject_serves rfl
  | bdapWrite x ix sub ty val => cases h; exact serves_of_eq_afterReset serveObject_serves rfl
  | bdapStagedWrite x ix sub ty val => cases h; exact serves_of_eq serveObject_serves rfl
  | bdapReadBlock x ix sub offset max => cases h; exact serves_of_eq serveObject_serves rfl
  | bdapWriteBlock x ix sub first last total offset data =>
    cases h
    exact serves_of_eq_afterReset serveObject_serves rfl
  | bdapCommit x => cases h; exact serves_of_eq_afterReset ⟨_, _, rfl⟩ rfl
  | bdapCommitDiscard x => cases h; exact serves_of_eq ⟨_, _, rfl⟩ rfl
  | bdapSnapshot x => cases h; exact serves_of_eq ⟨_, _, rfl⟩ rfl
  | bdapSubscribe x mask => cases h; exact serves_of_eq ⟨_, _, rfl⟩ rfl
  | bdapUnsubscribe x => cases h; exact serves_of_eq ⟨_, _, rfl⟩ rfl
  | counterFilterRead x max => cases h; exact serves_of_eq ⟨_, _, rfl⟩ rfl
  | tsQueuePop x => cases h; exact serves_of_eq serveRead_serves rfl
  | hkResultRead x r => cases h; exact serves_of_eq serveRead_serves rfl
  | _ => cases h <;> exact write rfl

/-- Where serving leaves the mark of a due reset, the command does no more than serve. -/
theorem Serves.runs (h : Serves c s cl) {t : State} (ht : ∀ addr act, s.serve cl addr act = t)
    (hd : t.flag .xResetDue 0 = false) : exec c s = .next t := by
  obtain ⟨addr, act, he | he⟩ := h
  · rw [he, ht]
  · rw [he, ht, afterReset_of_not_due hd]

/-! ## Requests that run nothing -/

/-- Behind another client's request nothing is served (R345). -/
theorem serve_out_of_turn {addr : Nat × Nat} {act : State → State × Answer} {q : Request} {rest : List Request}
    (hq : s.requests = q :: rest) (hne : q.client ≠ cl) (hb : q.body ≠ .malformed) : s.serve cl addr act = s := by
  have first : ∀ n, s.answerMalformed n = s := by
    intro n
    cases n with
    | zero => rfl
    | succ n =>
      unfold State.answerMalformed
      split
      · rename_i e
        rw [hq] at e
        cases e
        exact absurd rfl hb
      · rfl
  have turn : s.isNext cl = false := by
    unfold State.isNext
    simp [hq, hne]
  unfold State.serve
  simp [first, turn]

/-- A request of an ignored source is dropped (R353). -/
theorem serve_ignored {addr : Nat × Nat} {act : State → State × Answer} (ha : s.answers cl = true)
    (hn : s.isNext cl = true) (hc : s.clientClass cl.mac = 3) : s.serve cl addr act
      = ({ s.hear cl.mac with requests := s.requests.eraseP fun q => q.client == cl } : State).ignore cl := by
  have hc' : (s.hear cl.mac).clientClass cl.mac = 3 := hc
  unfold State.serve
  simp only [ha, if_true, answerMalformed_next hn, hn, Bool.and_self, hc']
  rfl

theorem duplicate_answers {x : Recent} {a : Reply} (hx : x.reply = some a) :
    Safety.replied s (s.duplicate cl x) cl a ∧ Safety.countedBy s (s.duplicate cl x) .bdapDuplicates 0 1
      ∧ Safety.changesOnly [.bdapDuplicates, .mgtFramesTx] s (s.duplicate cl x) := by
  have form : s.duplicate cl x = ((s.bump .bdapDuplicates 0).emit (.reply cl a
      (replyFrame ((s.bump .bdapDuplicates 0).station cl.fore) cl a))).bump .mgtFramesTx cl.port.val := by
    simp only [State.duplicate, hx]
  rw [form]
  refine ⟨⟨[_], (s.bump .bdapDuplicates 0).station cl.fore, ?_, List.mem_singleton.2 rfl⟩, ?_, ?_⟩
  · rw [bump_out, emit_out, bump_out]
  · exact (get_bump_other (.inl (by decide))).trans get_bump_same
  · exact apart_iff.2 (apart_bump ((apart_bump (Apart.refl s)).other rfl))

theorem ignore_counts : (s.ignore cl).out = s.out ∧ Safety.countedBy s (s.ignore cl) .bdapIgnored 0 1
    ∧ Safety.requestChanges [] s (s.ignore cl) := by
  have wide : Wide fun r => Safety.requestSide r || List.contains [] r := wide_requests []
  have counted : Safety.countedBy s (s.bump .bdapIgnored 0) .bdapIgnored 0 1 := get_bump_same
  have apart : Safety.requestChanges [] s (s.bump .bdapIgnored 0) := apart_iff.2 (apart_bump (Apart.refl s))
  unfold State.ignore
  dsimp only
  split
  · refine ⟨?_, ?_, apart_iff.2 (apart_raise wide (apart_markSecond (apart_iff.1 apart)))⟩
    · rw [raise_out]
      exact bump_out
    · exact (get_raise (r := .bdapIgnored)).trans ((get_set_reg _ _ (by decide)).trans counted)
  · exact ⟨bump_out, counted, apart⟩

/-! ## A write that a common check refuses -/

/-- What a refusal leaves beside its abort: the reason of a load of a wrong length (R277). -/
theorem lengthRefused_out {r : Reg} {a : Answer} : (s.lengthRefused cl r a).out = s.out := by
  unfold State.lengthRefused
  split
  · exact raise_out
  · rfl

theorem requestChanges_lengthRefused {r : Reg} {a : Answer} :
    Safety.requestChanges (if r = .slotLoad then [.slotRefusal] else []) s (s.lengthRefused cl r a) := by
  unfold State.lengthRefused
  by_cases hr : r = .slotLoad
  · rw [if_pos hr]
    exact apart_iff.2 (apart_ite (apart_raise (wide_requests _) (apart_set (Apart.refl s))) (Apart.refl s))
  · rw [if_neg hr, if_neg fun h => hr h.1]
    exact apart_iff.2 (Apart.refl s)

theorem requestChanges_serving {l : List Reg} {a : Reply} (h : Safety.requestChanges l (ready s cl) t) :
    Safety.requestChanges l s (t.reply cl a) :=
  apart_iff.2 (apart_reply ((apart_ready rfl).trans (apart_iff.1 h)) rfl rfl)

theorem serveWrite_refused_answers {r : Reg} {i : Nat} {v : WVal} {eff : State → State × Answer} {k d p : Nat}
    {a : Nat × Nat} (hf : Safety.fresh s cl) (ha : clientAddress cl r i = some a)
    (hc : s.checkWrite cl r i v = some (.abort k d p)) :
    Safety.replied s (s.serveWrite cl r i v eff) cl (.abort a.1 a.2 k d p)
      ∧ Safety.requestChanges (if r = .slotLoad then [.slotRefusal] else []) s (s.serveWrite cl r i v eff) := by
  rw [serveWrite_refused hf ha hc]
  exact ⟨replied_reply (by rw [lengthRefused_out, ready_out]), requestChanges_serving requestChanges_lengthRefused⟩

/-- The class is checked once type, access and mode have passed (R348). -/
theorem checkWrite_class {r : Reg} {i : Nat} {v : WVal} (ht : typeAbort cl r i v = none) (hro : r.access ≠ .ro)
    (hconst : r.access ≠ .const) (hrwd : r.access = .rwd → s.rwdOpen = true) (hm : s.modeOpen r = true)
    (hc : s.clientClass cl.mac < (if r.keeperOnly then 2 else 1)) :
    s.checkWrite cl r i v = some (.abort 0x09 0 0) := by
  have hopen : ¬ ((r.access = .rwd ∧ !s.rwdOpen) ∨ !s.modeOpen r) := by
    rintro (⟨h, hd⟩ | h)
    · simp [hrwd h] at hd
    · simp [hm] at h
  simp only [State.checkWrite, ht, State.accessAbort, hro, hconst, or_self, if_false, hopen, hc, if_true]
  rfl

theorem resetDue_of_requestChanges {l : List Reg} (h : Safety.requestChanges l s t)
    (hl : l.contains .xResetDue = false) (hs : s.flag .xResetDue 0 = false) : t.flag .xResetDue 0 = false :=
  SameDue.flag (h .xResetDue 0 (Bool.or_eq_false_iff.2 ⟨rfl, hl⟩)).1 hs

end Sys2Proof.Laws

namespace Sys2Proof

open Sys2Proof.Machine Sys2Proof.Laws

/-- Settles O6: the abort is drawn before the write's own effect is run. -/
theorem refusedWritesChangeNothing : Obligations.RefusedWritesChangeNothing := by
  refine ⟨fun c s cl r i v a code detail position hw hf ha hc hd => ?_,
    fun s cl r i v ht hro hconst hrwd hm hc => checkWrite_class ht hro hconst hrwd hm hc⟩
  obtain ⟨eff, he⟩ := exec_write (s := s) hw
  obtain ⟨hrep, hch⟩ := serveWrite_refused_answers (eff := eff) hf ha hc
  have due : (s.serveWrite cl r i v eff).flag .xResetDue 0 = false :=
    resetDue_of_requestChanges hch (by split <;> rfl) hd
  rw [afterReset_of_not_due due] at he
  exact ⟨_, he.elim id id, hrep, hch⟩

/-- Settles O7: each case is one branch of State.serve. -/
theorem requestsNotServedRunNothing : Obligations.RequestsNotServedRunNothing := by
  refine ⟨fun c s cl h ha hd => ?_, fun c s cl q rest h hc hq hne hb hd => ?_,
    fun c s cl x a h hc ha hn hcl hr hx hd => ?_, fun c s cl h hc ha hn hcl hd => ?_⟩
  · by_cases hc : c = .eventAckReceive cl
    · subst hc
      exact congrArg Host.Outcome.next (if_neg (by simp [ha]))
    · exact (serves_of_sender h hc).runs (fun _ _ => serve_unanswered ha) hd
  · exact (serves_of_sender h hc).runs (fun _ _ => serve_out_of_turn hq hne hb) hd
  · obtain ⟨hrep, hcount, hch⟩ := duplicate_answers (s := s.hear cl.mac) (cl := cl) hx
    have due : ((s.hear cl.mac).duplicate cl x).flag .xResetDue 0 = false :=
      SameDue.flag (s := s.hear cl.mac) (hch .xResetDue 0 rfl).1 hd
    exact ⟨_, (serves_of_sender h hc).runs (fun _ _ => serve_repeated ha hn hcl hr) due, hrep, hcount, hch⟩
  · obtain ⟨hout, hcount, hch⟩ := ignore_counts (cl := cl)
      (s := { s.hear cl.mac with requests := s.requests.eraseP fun q => q.client == cl })
    have due := resetDue_of_requestChanges hch rfl hd
    exact ⟨_, (serves_of_sender h hc).runs (fun _ _ => serve_ignored ha hn hcl) due, hout, hcount, hch⟩

end Sys2Proof

/-! # Power-up and resets (R50 to R52, R477, R478) -/

namespace Sys2Proof.Laws

set_option Elab.async false

open Sys2Proof.Machine

variable {s t u : State} {cl : Client} {kept : Reg → Bool}

/-! ## What a reset leaves -/

theorem sget_filter_out {κ α : Type} [DecidableEq κ] (m : List (κ × α)) (p : κ → Bool) {k : κ} (d : α)
    (h : p k = false) : sget (m.filter fun e => p e.1) k d = d := by
  induction m with
  | nil => rfl
  | cons e t ih =>
    cases hp : p e.1 with
    | false => simpa [hp] using ih
    | true =>
      have hne : e.1 ≠ k := fun he => by simp [he, h] at hp
      simpa [hp, sget, hne] using ih

/-- A register that a reset keeps is as it was. -/
theorem get_wipe_kept {r : Reg} {i : Nat} (h : kept r = true) : (s.wipe kept).get r i = s.get r i :=
  sget_filter s.regs (fun k => kept k.1) _ h

theorem blob_wipe_kept {r : Reg} {i : Nat} (h : kept r = true) : (s.wipe kept).blob r i = s.blob r i :=
  sget_filter s.blobs (fun k => kept k.1) _ h

theorem blob_wipe_cleared {r : Reg} {i : Nat} (h : kept r = false) : (s.wipe kept).blob r i = [] :=
  sget_filter_out s.blobs (fun k => kept k.1) _ h

theorem wiped_wipe {p : Phase} : Safety.wiped kept s { s.wipe kept with phase := p } :=
  ⟨fun _ _ h => ⟨get_wipe_kept (s := s) h, blob_wipe_kept (s := s) h⟩,
    fun _ _ h => ⟨fun _ => get_wipe_cleared (s := s) h, blob_wipe_cleared (s := s) h⟩, fun _ => rfl,
    rfl, rfl, rfl, rfl, rfl, rfl, rfl, rfl, rfl, rfl, rfl, rfl, rfl, rfl, rfl, rfl, rfl, rfl, rfl, rfl, rfl, rfl, rfl, rfl,
    rfl, rfl, rfl, rfl, rfl⟩

/-- A warm reset keeps its items and writes its cause beside. -/
theorem wiped_warmReset {n : Int} {p : Phase} : Safety.wiped Reg.keptWarm s { s.warmReset n with phase := p } := by
  obtain ⟨hk, hc, rest⟩ := wiped_wipe (s := s) (kept := Reg.keptWarm) (p := p)
  refine ⟨fun r i h => ⟨(get_set_reg _ _ ?_).trans (hk r i h).1, (hk r i h).2⟩,
    fun r i h => ⟨fun hr => (get_set_reg _ _ hr).trans ((hc r i h).1 hr), (hc r i h).2⟩, rest⟩
  rintro rfl
  cases h

theorem warmReset_cause {n : Int} {p : Phase} :
    ({ s.warmReset n with phase := p } : State).get .bootResetCause 0 = n :=
  get_set_same (s := { s.wipe Reg.keptWarm with history := s.history, repairs := s.repairs, redirects := s.redirects }) ..

theorem apart_phase {K : Reg → Bool} {p : Phase} (h : Apart K s t) : Apart K s { t with phase := p } := h.other rfl

/-- A reset of a state that agrees with s on all a reset keeps is a reset of s. -/
theorem wiped_congr (hr : ∀ r i, kept r = true → u.get r i = s.get r i ∧ u.blob r i = s.blob r i)
    (htap : u.tap = s.tap) (hpend : u.pending = s.pending) (h : Safety.wiped kept u t) : Safety.wiped kept s t := by
  obtain ⟨hk, hc, mem, q1, q2, q3, q4, q5, q6, q7, q8, q9, q10, q11, q12, q13, q14, q15, q16, q17, q18, q19, q20, q21, q22, q23,
    q24, q25, q26, q27, tap, pend⟩ := h
  exact ⟨fun r i e => ⟨(hk r i e).1.trans (hr r i e).1, (hk r i e).2.trans (hr r i e).2⟩, hc, mem, q1, q2, q3, q4, q5, q6, q7,
    q8, q9, q10, q11, q12, q13, q14, q15, q16, q17, q18, q19, q20, q21, q22, q23, q24, q25, q26, q27, tap.trans htap,
    pend.trans hpend⟩

/-! ## What every reset clears (Table: Reset effects) -/

theorem keptCold_keptWarm {r : Reg} (h : Reg.keptCold r = true) : Reg.keptWarm r = true := by
  unfold Reg.keptWarm
  split <;> first | rfl | exact h

/-- No configuration object is kept by a reset, and the cause code is none. -/
theorem cleared_of_isConfig {r : Reg} {i : Nat} (h : r.isConfig i = true) :
    Reg.keptWarm r = false ∧ r ≠ .bootResetCause := by
  refine ⟨Bool.eq_false_iff.2 fun hk => ?_, ?_⟩
  · have no : r.isConfig i = false := by
      unfold Reg.keptWarm Reg.keptCold at hk
      repeat' split at hk
      all_goals first | rfl | cases hk
    simp [no] at h
  · rintro rfl
    cases h

/-- A counter is cleared by every reset but for the Haven entries, and rests at 0. -/
theorem cleared_of_counterGroup {r : Reg} (h : (counterGroup r).isSome = true) :
    Reg.keptWarm r = false ∧ r ≠ .bootResetCause ∧ ∀ i, r.dflt i = 0 := by
  have slots : ∀ x ∈ carrierSlots ++ portSlots ++ laneSlots ++ deviceSlots.map (·.1),
      Reg.keptWarm x.reg = false ∧ x.reg ≠ .bootResetCause ∧ ∀ i, x.reg.dflt i = 0 := by
    intro x hx
    fin_cases hx <;> exact ⟨rfl, by decide, fun _ => rfl⟩
  unfold counterGroup at h
  split at h
  · rename_i hr
    rcases hr with rfl | rfl <;> exact ⟨rfl, by decide, fun _ => rfl⟩
  · rw [Option.isSome_map, List.find?_isSome] at h
    obtain ⟨x, hx, hxr⟩ := h
    rw [← of_decide_eq_true hxr]
    exact slots x hx

/-- What every reset clears. -/
structure Cleared (t : State) : Prop where
  regs : ∀ r i, Reg.keptWarm r = false → r ≠ .bootResetCause → t.get r i = r.dflt i
  blobs : ∀ r i, Reg.keptWarm r = false → t.blob r i = []
  mem : ∀ a, t.readByte a = 0
  flowQueue : t.flowQueue = []
  tribQueue : t.tribQueue = []

theorem cleared_of_wiped (hkept : ∀ r, Reg.keptWarm r = false → kept r = false) (h : Safety.wiped kept s t) :
    Cleared t := by
  obtain ⟨-, hc, mem, -, -, -, -, -, -, -, -, -, -, -, -, -, hf, -, ht, -⟩ := h
  exact ⟨fun r i e hr => (hc r i (hkept r e)).1 hr, fun r i e => (hc r i (hkept r e)).2, mem, hf, ht⟩

/-- Table: Reset effects, as the statement on resets has it. -/
theorem Cleared.table (h : Cleared t) :
    (∀ r i, r.isConfig i = true → t.get r i = r.dflt i ∧ t.blob r i = [])
      ∧ (∀ r i, (counterGroup r).isSome = true → r ≠ .deviceHavenEntries → t.get r i = 0)
      ∧ (∀ n : Fin 4, t.get .xTbSec n = 0 ∧ t.get .xTbNs n = 0 ∧ t.get .xTbFrac n = 0)
      ∧ (∀ i, t.get .xSlotReg i = 0 ∧ t.blob .xSlotKey i = [] ∧ t.get .registrationRow i = Reg.dflt .registrationRow i)
      ∧ t.get .bootStatus 0 = 0 ∧ t.get .xHbmTrained 0 = 0 ∧ (∀ a, t.readByte a = 0) ∧ t.flowQueue = []
      ∧ t.tribQueue = [] := by
  have rest : ∀ {r : Reg} {i : Nat}, Reg.keptWarm r = false → r ≠ .bootResetCause → t.get r i = r.dflt i :=
    fun e hr => h.regs _ _ e hr
  refine ⟨fun r i hr => ?_, fun r i hr _ => ?_, fun n => ⟨?_, ?_, ?_⟩, fun i => ⟨?_, ?_, ?_⟩, ?_, ?_, h.mem, h.flowQueue,
    h.tribQueue⟩
  · obtain ⟨hk, hc⟩ := cleared_of_isConfig hr
    exact ⟨h.regs r i hk hc, h.blobs r i hk⟩
  · obtain ⟨hk, hc, h0⟩ := cleared_of_counterGroup hr
    exact (h.regs r i hk hc).trans (h0 i)
  case refine_7 => exact h.blobs _ _ rfl
  all_goals exact rest rfl (by decide)

/-- What a warm reset keeps, as the statement on resets has it. -/
theorem kept_of_wiped (h : Safety.wiped Reg.keptWarm s t) (hist : t.history = s.history) :
    t.get .bootStraps 0 = s.get .bootStraps 0 ∧ t.history = s.history
      ∧ t.get .deviceHavenEntries 0 = s.get .deviceHavenEntries 0
      ∧ ∀ n : Fin 4, t.blob .xKekFuse n = s.blob .xKekFuse n ∧ t.get .kekState n = s.get .kekState n := by
  obtain ⟨hk, -⟩ := h
  exact ⟨(hk .bootStraps 0 rfl).1, hist, (hk .deviceHavenEntries 0 rfl).1, fun n =>
    ⟨(hk .xKekFuse n rfl).2, (hk .kekState n rfl).1⟩⟩

/-! ## SYSRST_N -/

theorem sysrstLow_resets (h : s.phase = .running ∨ s.phase = .fuseLoad ∧ s.get .bootResetCause 0 ≠ 0) :
    s.sysrstLow = { (s.set .xSysrst 0 1).warmReset 1 with phase := .warmReset } := by
  have cause : (s.set .xSysrst 0 1).get .bootResetCause 0 = s.get .bootResetCause 0 := get_set_reg _ _ (by decide)
  unfold State.sysrstLow
  rcases h with h | ⟨h, hc⟩
  · simp only [set_phase, h]
  · simp only [set_phase, h, cause, hc, if_false]

/-- The level of SYSRST_N is no item that the statement on resets names. -/
theorem kept_of_wiped_sysrst (h : Safety.wiped Reg.keptWarm (s.set .xSysrst 0 1) t) (hist : t.history = s.history) :
    t.get .bootStraps 0 = s.get .bootStraps 0 ∧ t.history = s.history
      ∧ t.get .deviceHavenEntries 0 = s.get .deviceHavenEntries 0
      ∧ ∀ n : Fin 4, t.blob .xKekFuse n = s.blob .xKekFuse n ∧ t.get .kekState n = s.get .kekState n := by
  have other : ∀ r i, r ≠ .xSysrst → (s.set .xSysrst 0 1).get r i = s.get r i := fun r i hr => get_set_reg s _ hr
  obtain ⟨h1, h2, h3, h4⟩ := kept_of_wiped (s := s.set .xSysrst 0 1) h hist
  exact ⟨h1.trans (other _ _ (by decide)), h2, h3.trans (other _ _ (by decide)), fun n =>
    ⟨(h4 n).1, (h4 n).2.trans (other _ _ (by decide))⟩⟩

theorem sysrstLow_waits (h : s.phase = .waitRails ∨ s.phase = .fuseLoad ∧ s.get .bootResetCause 0 = 0) :
    s.sysrstLow = (s.set .xSysrst 0 1).set .xWarmDue 0 1 := by
  have cause : (s.set .xSysrst 0 1).get .bootResetCause 0 = s.get .bootResetCause 0 := get_set_reg _ _ (by decide)
  unfold State.sysrstLow
  rcases h with h | ⟨h, hc⟩
  · simp only [set_phase, h]
  · simp only [set_phase, h, cause, hc, if_true]

theorem sysrstLow_held (h : s.phase = .coldReset ∨ s.phase = .warmReset) : s.sysrstLow = s.set .xSysrst 0 1 := by
  unfold State.sysrstLow
  rcases h with h | h <;> simp only [set_phase, h]

theorem sysrstRise_loads (h : s.phase = .warmReset) :
    s.sysrstRise = { s.set .xSysrst 0 0 with phase := .fuseLoad } := by
  unfold State.sysrstRise
  simp only [set_phase, h]

theorem sysrstRise_tells (h : s.phase = .fuseLoad ∨ s.phase = .waitRails) (hd : s.flag .xWarmDue 0 = true) :
    s.sysrstRise = ((s.set .xSysrst 0 0).set .xWarmDue 0 0).set .bootResetCause 0 1 := by
  have due : (s.set .xSysrst 0 0).flag .xWarmDue 0 = true := by
    rw [← hd]
    simp only [State.flag, get_set_reg s _ (show Reg.xWarmDue ≠ .xSysrst by decide)]
  unfold State.sysrstRise
  rcases h with h | h <;> simp only [set_phase, h, due, if_true]

theorem fuseLoaded_resets {failed : List Nat} (hd : s.flag .xWarmDue 0 = true) :
    s.fuseLoaded failed = { s.warmReset 1 with phase := .warmReset } := if_pos hd

/-! ## The reset that a write commands -/

/-- Beside registers, an accepted write leaves what its effect leaves, but sources and what was sent. -/
theorem serveWrite_form {r : Reg} {i : Nat} {v : WVal} {eff : State → State × Answer} {p : List Byte}
    (h : Safety.allowed s cl r i v) (he : eff (ready s cl) = (t, .ack p)) :
    ∃ b w l o, s.serveWrite cl r i v eff = { t with regs := b, wraps := w, sources := l, out := o } := by
  obtain ⟨a, -, hs⟩ := serveWrite_allowed (eff := eff) h
  rw [he] at hs
  rw [hs]
  exact reply_form _

theorem warmResetCommand_resets (h : Safety.allowed s cl .deviceReset 0 (.int 0x5752)) :
    ∃ u, exec (.warmResetCommand cl) s = .next { u.warmReset 2 with phase := .fuseLoad } ∧ Safety.acked s u cl
      ∧ (∀ r i, Reg.keptWarm r = true → u.get r i = s.get r i ∧ u.blob r i = s.blob r i)
      ∧ u.tap = s.tap ∧ u.pending = s.pending ∧ u.history = s.history ∧ u.repairs = s.repairs
      ∧ u.redirects = s.redirects := by
  have eff : writeReset (ready s cl) = ((ready s cl).set .xResetDue 0 1, .ack []) := rfl
  obtain ⟨hack, hget⟩ := write_completes h eff (by simp [ready_out])
  obtain ⟨a, w, q, l, hr⟩ := ready_form (s := s) (cl := cl)
  obtain ⟨a', w', l', o', hu⟩ := serveWrite_form h eff
  have due : (s.serveWrite cl .deviceReset 0 (.int 0x5752) writeReset).flag .xResetDue 0 = true := by
    rw [State.flag, (hget .xResetDue 0 (by decide) (by decide)).1, get_set_same]
    rfl
  refine ⟨_, congrArg Host.Outcome.next (if_pos due), hack, fun r i hk => ?_, ?_⟩
  · have hne : ∀ {x : Reg}, Reg.keptWarm x = false → r ≠ x := fun hx e => by simp [← e, hk] at hx
    obtain ⟨hg, hb⟩ := hget r i (hne rfl) (hne rfl)
    exact ⟨hg.trans ((get_set_reg _ _ (hne rfl)).trans (ready_get (hne rfl))), hb.trans ready_blob⟩
  · rw [hu, hr]
    exact ⟨rfl, rfl, rfl, rfl, rfl⟩

/-! ## Power-up (R51, R52, R477) -/

theorem porstNRise_powersUp {straps : Fin 512} {railsOk : Bool} (h : s.phase = .coldReset) :
    exec (.porstNRise straps railsOk) s = .next { (s.set .bootStraps 0 straps.val).set .xWarmDue 0 (s.get .xSysrst 0)
      with phase := if railsOk then .fuseLoad else .waitRails } := congrArg Host.Outcome.next (if_pos h)

theorem emits_form {α : Type} {l : List α} {f : α → Output} :
    s.each l (fun s a => s.emit (f a)) = { s with out := s.out ++ l.map f } := by
  unfold State.each
  induction l generalizing s with
  | nil => simp
  | cons a l ih =>
    rw [List.foldl_cons, ih]
    simp

/-- What the end of a first fuse load does before the cipher cores are tested and the converters calibrate. -/
theorem fuseLoaded_form {failed : List Nat} (hd : s.flag .xWarmDue 0 = false) :
    s.fuseLoaded failed = ((({ s with phase := .running, out := s.out ++ ((List.range 5).map fun r => .avsWrite r 620)
        ++ [.flash .sfdp 0] } : State).each [0, 1] fun t k =>
          t.set .mgtPlcaNodeId k (t.get .bootStraps 0 % 64 + 1)).coresTested failed).each [0, 1]
      fun t k => (t.set .hkState k 3).set .hkCalState k 2 := by
  unfold State.fuseLoaded
  rw [if_neg (by simp [hd])]
  dsimp only
  rw [emits_form]
  rfl

theorem sent_of_prefix {o : Output} {l : List Output} (h : s.out ++ l <+: t.out) (ho : o ∈ l) : Safety.sent s t o := by
  obtain ⟨l', h⟩ := h
  exact ⟨l ++ l', by rw [← h, List.append_assoc], List.mem_append_left _ ho⟩

/-- The scope that leaves the management counters and says nothing of the rest. -/
abbrev managementScope : Scope := fun p => match p with
  | .management => true
  | .phase => true
  | _ => false

/-- The two units of a pair of registers, each written. -/
theorem each_pair {f : State → Nat → State} : s.each [0, 1] f = f (f s 0) 1 := rfl

theorem fuseLoaded_runs {failed : List Nat} (hd : s.flag .xWarmDue 0 = false) :
    (s.fuseLoaded failed).phase = .running
      ∧ s.out ++ (((List.range 5).map fun r => .avsWrite r 620) ++ [.flash .sfdp 0]) <+: (s.fuseLoaded failed).out
      ∧ ∀ k < 2, (s.fuseLoaded failed).get .mgtPlcaNodeId k = s.get .bootStraps 0 % 64 + 1
        ∧ (s.fuseLoaded failed).get .hkState k = 3 ∧ (s.fuseLoaded failed).get .hkCalState k = 2 := by
  have := fact_false
  rw [fuseLoaded_form hd, each_pair, each_pair]
  generalize ha : ({ s with phase := .running, out := s.out ++ ((List.range 5).map fun r => Output.avsWrite r 620)
    ++ [.flash .sfdp 0] } : State) = a
  have straps : a.get .bootStraps 0 = s.get .bootStraps 0 := by rw [← ha]; rfl
  have phase : a.phase = .running := by rw [← ha]
  have out : a.out = s.out ++ (((List.range 5).map fun r => Output.avsWrite r 620) ++ [.flash .sfdp 0]) := by
    rw [← ha]
    exact List.append_assoc ..
  clear ha
  generalize hb : (a.set .mgtPlcaNodeId 0 (a.get .bootStraps 0 % 64 + 1)).set .mgtPlcaNodeId 1
    ((a.set .mgtPlcaNodeId 0 (a.get .bootStraps 0 % 64 + 1)).get .bootStraps 0 % 64 + 1) = b
  have kb : Kept managementScope b (b.coresTested failed) := kept_coresTested (Kept.refl b)
  have nodes : ∀ k < 2, b.get .mgtPlcaNodeId k = s.get .bootStraps 0 % 64 + 1 := by
    intro k hk
    rw [← hb, ← straps]
    interval_cases k <;> simp [get_set]
  have phaseb : b.phase = .running := by rw [← hb]; exact phase
  have outb : b.out = a.out := by rw [← hb]; rfl
  have phased := (kb.samePhase rfl).trans phaseb
  have outd := kb.out
  have noded : ∀ k < 2, _ := fun k hk => (kb.sameRegs .mgtPlcaNodeId k rfl).1.trans (nodes k hk)
  clear kb
  generalize b.coresTested failed = d at phased outd noded
  refine ⟨phased, ?_, fun k hk => ?_⟩
  · rw [← out, ← outb]
    exact outd
  · rw [← noded k hk]
    interval_cases k <;> simp [get_set]

end Sys2Proof.Laws

namespace Sys2Proof

open Sys2Proof.Machine Sys2Proof.Laws

/-- Settles O8: each reset is a wipe that keeps at most what a warm reset keeps. -/
theorem resetsKeepTheirItems : Obligations.ResetsKeepTheirItems := by
  have warm {s : State} {n : Int} {p : Phase} : Cleared { s.warmReset n with phase := p } :=
    cleared_of_wiped (fun _ => id) (wiped_warmReset (s := s))
  refine ⟨fun s => ?_, fun s hp => ?_, fun s hp => ?_, fun s cl h => ?_⟩
  · have wiped : Safety.wiped Reg.keptCold s { s.coldReset with phase := .coldReset } := wiped_wipe
    have zero : ∀ r, Reg.keptCold r = false → ({ s.coldReset with phase := .coldReset } : State).get r 0 = r.dflt 0 :=
      fun r hr => get_wipe_cleared (s := s) hr
    exact ⟨_, rfl, rfl, (cleared_of_wiped (fun r hr => Bool.eq_false_iff.2 fun h => by simp [keptCold_keptWarm h] at hr)
      wiped).table, rfl, zero _ rfl, zero _ rfl⟩
  · have hr := sysrstLow_resets (s := s) (.inl hp)
    refine ⟨_, congrArg Host.Outcome.next hr, rfl, warm.table, kept_of_wiped_sysrst wiped_warmReset rfl,
      warmReset_cause⟩
  · refine ⟨_, congrArg Host.Outcome.next (sysrstRise_loads hp), rfl, get_set_same s .xSysrst 0 0, ?_⟩
    exact apart_iff.2 (apart_phase (apart_set (Apart.refl s)))
  · obtain ⟨u, he, hack, hk, htap, hpend, hist, hrep, hred⟩ := warmResetCommand_resets h
    have wiped : Safety.wiped Reg.keptWarm s { u.warmReset 2 with phase := .fuseLoad } :=
      wiped_congr hk htap hpend wiped_warmReset
    exact ⟨_, he, rfl, warm.table, kept_of_wiped wiped hist, warmReset_cause, hack⟩

/-- Settles O9: a wipe leaves every table and queue empty, and every register it does not keep at its default. -/
theorem resetsAsTheModelReadsThem : Obligations.ResetsAsTheModelReadsThem := by
  refine ⟨fun s => ⟨_, rfl, wiped_wipe, rfl, rfl, rfl⟩, fun s hp => ?_, fun s hp => ?_, fun s hp => ?_,
    fun s failed hp hd => ?_, fun s cl h => ?_, fun s hp hd => ?_⟩
  · exact ⟨_, congrArg Host.Outcome.next (sysrstLow_resets hp), rfl, wiped_warmReset,
      warmReset_cause, rfl, rfl, rfl⟩
  · exact ⟨_, congrArg Host.Outcome.next (sysrstLow_waits hp), rfl, get_set_same _ _ _ _,
      apart_iff.2 (apart_set (apart_set (Apart.refl s)))⟩
  · exact ⟨_, congrArg Host.Outcome.next (sysrstLow_held hp), rfl, get_set_same _ _ _ _,
      apart_iff.2 (apart_set (Apart.refl s))⟩
  · have he : exec (.fuseLoadEnd failed) s = .next { s.warmReset 1 with phase := .warmReset } := by
      refine congrArg Host.Outcome.next ?_
      rw [if_pos hp, fuseLoaded_resets hd]
    exact ⟨_, he, rfl, wiped_warmReset, warmReset_cause, rfl, rfl, rfl⟩
  · obtain ⟨u, he, -, hk, htap, hpend, -, hrep, hred⟩ := warmResetCommand_resets h
    exact ⟨_, he, wiped_congr hk htap hpend wiped_warmReset, hrep, hred⟩
  · refine ⟨_, congrArg Host.Outcome.next (sysrstRise_tells hp hd), rfl, ?_, get_set_same _ _ _ _,
      apart_iff.2 (apart_set (apart_set (apart_set (Apart.refl s))))⟩
    rw [get_set_reg _ _ (by decide), get_set_same]

/-- Settles O10. -/
theorem powerUpLatchesStrapsAndLoadsFuses : Obligations.PowerUpLatchesStrapsAndLoadsFuses := by
  refine ⟨fun s straps railsOk hp => ?_, fun s hp => ?_, fun s failed hp hd => ?_⟩
  · refine ⟨_, porstNRise_powersUp hp, rfl, ?_, get_set_same (s.set .bootStraps 0 straps.val) .xWarmDue 0 _,
      apart_iff.2 (apart_phase (apart_set (apart_set (Apart.refl s))))⟩
    exact (get_set_reg (s.set .bootStraps 0 straps.val) _ (by decide)).trans (get_set_same s _ _ _)
  · exact ⟨_, congrArg Host.Outcome.next (if_pos hp), rfl, apart_iff.2 (apart_phase (Apart.refl s))⟩
  · obtain ⟨hphase, hout, hregs⟩ := fuseLoaded_runs (failed := failed.map Fin.val) hd
    refine ⟨_, congrArg Host.Outcome.next (if_pos hp), hphase, fun r hr => sent_of_prefix hout ?_,
      sent_of_prefix hout (List.mem_append_right _ (List.mem_singleton.2 rfl)), hregs⟩
    exact List.mem_append_left _ (List.mem_map.2 ⟨r, List.mem_range.2 hr, rfl⟩)

end Sys2Proof

/-! # Microcode images and the forerunner view (R4, R52 to R56) -/

namespace Sys2Proof.Laws

set_option Elab.async false

open Sys2Proof.Machine

variable {s t u : State} {cl : Client} {c : Instr} {r : Reg} {i : Nat} {v : WVal} {eff : State → State × Answer}

/-! ## Writes that run -/

/-- A command that is an allowed write and whose effect accepts it. -/
theorem write_acked {p : List Byte} (h : Safety.allowed s cl r i v) (hx : exec c s = .next (s.serveWrite cl r i v eff))
    (he : eff (ready s cl) = (u, .ack p)) (ho : s.out <+: u.out) :
    ∃ a, exec c s = .next (u.reply cl a) ∧ Safety.acked s (u.reply cl a) cl := by
  obtain ⟨a, -, hs⟩ := serveWrite_allowed (eff := eff) h
  rw [he] at hs
  exact ⟨_, hx.trans (congrArg _ hs), _, replied_reply ho⟩

/-- A command that is an allowed write and whose own effect refuses it. -/
theorem write_aborted {k d p : Nat} (h : Safety.allowed s cl r i v)
    (hx : exec c s = .next (s.serveWrite cl r i v eff)) (he : eff (ready s cl) = (u, .abort k d p))
    (ho : s.out <+: u.out) : ∃ a, exec c s = .next (u.reply cl a) ∧ Safety.aborted s (u.reply cl a) cl k := by
  obtain ⟨a, -, hs⟩ := serveWrite_allowed (eff := eff) h
  rw [he] at hs
  exact ⟨_, hx.trans (congrArg _ hs), _, _, _, _, replied_reply ho⟩

/-- What was sent before a request is served was sent before its effect. -/
theorem out_of_ready (h : u.out = (ready s cl).out) : s.out <+: u.out := by rw [h, ready_out]

theorem reply_subscribers {a : Reply} : (s.reply cl a).subscribers = s.subscribers := by
  obtain ⟨b, w, l, o, h⟩ := reply_form (s := s) (cl := cl) a
  rw [h]

theorem ready_nat (h : r ≠ .bdapRequests) : (ready s cl).nat r i = s.nat r i := by
  simp only [State.nat, ready_get h]

/-- A command of the running block has its effect. -/
theorem live_running {f : State → State} (h : s.phase = .running) : s.live f = .next (f s) := by
  simp [State.live, h]

/-! ## How often a source is raised -/

theorem count_raise {e e' : Nat} {d : List Item} (h : e' ≠ evDev 132) : (s.raise e d).get .eventCount e'
    = if e' = e then (((s.nat .eventCount e + 1) % 2 ^ Reg.bits .eventCount : Nat) : Int) else s.get .eventCount e' :=
  count_raiseMarked h

/-- The raise itself, where the source was not raised before. -/
theorem raised_raise {e : Nat} {d : List Item} (hu : u.get .eventCount e = s.get .eventCount e) (h : e ≠ evDev 132) :
    Safety.raised s (u.raise e d) e := by
  unfold Safety.raised Safety.countedBy
  rw [count_raise h, if_pos rfl, State.nat, State.nat, hu]

/-- A raise of another source does not count this one. -/
theorem count_raise_other {e e' : Nat} {d : List Item} (h : e' ≠ evDev 132) (he : e' ≠ e) :
    (s.raise e d).get .eventCount e' = s.get .eventCount e' := by rw [count_raise h, if_neg he]

/-- Later operations that leave the count of a source leave it raised. -/
theorem raised_of_count {e : Nat} (hu : t.get .eventCount e = u.get .eventCount e) (h : Safety.raised s u e) :
    Safety.raised s t e := hu.trans h

/-! ## Images -/

variable {status slot version : Nat}

theorem imageLoaded_reports : (s.imageLoaded status slot version).nat .bootStatus 0 = status
    ∧ (s.imageLoaded status slot version).nat .bootSlot 0 = slot
    ∧ (s.imageLoaded status slot version).nat .bootVersion 0 = version := by
  refine ⟨?_, ?_, ?_⟩ <;>
    simp (disch := decide) only [State.nat, State.imageLoaded, get_raise, get_set_reg, get_set_same, Int.toNat_natCast]

theorem bootFailed_reports : ((s.bootFailed status).imageRefused slot version).nat .bootStatus 0 = status
    ∧ ((s.bootFailed status).imageRefused slot version).get .bootSlot 0 = 0xFF := by
  refine ⟨?_, ?_⟩ <;> simp (disch := decide) only [State.nat, State.imageRefused, State.bootFailed, get_raise, get_set_reg,
    get_set_same, Int.toNat_natCast]

/-- What a load may write, and that it raises events beside. -/
abbrev imageRegs : List Reg := [.bootStatus, .bootSlot, .bootVersion, .bootLoadTime]

theorem apart_imageLoaded (h : Safety.eventChanges imageRegs s t) :
    Safety.eventChanges imageRegs s (t.imageLoaded status slot version) := by
  refine apart_iff.2 (apart_raise (wide_events _) ?_)
  apply_rules [apart_set, apart_iff.1]

theorem apart_imageRefused (h : Safety.eventChanges imageRegs s t) :
    Safety.eventChanges imageRegs s (t.imageRefused slot status) :=
  apart_iff.2 (apart_raise (wide_events _) (apart_iff.1 h))

theorem apart_bootFailed (h : Safety.eventChanges imageRegs s t) :
    Safety.eventChanges imageRegs s (t.bootFailed status) := by
  refine apart_iff.2 ?_
  apply_rules [apart_set, apart_iff.1]

theorem imageLoaded_out : (s.imageLoaded status slot version).out = s.out := by
  unfold State.imageLoaded
  exact raise_out

theorem imageRefused_out : (s.imageRefused slot status).out = s.out := by
  unfold State.imageRefused
  exact raise_out

/-- Where a load is noted, its source counted and the other one as before. -/
theorem raised_imageLoaded (h : t.get .eventCount (evDev 1) = s.get .eventCount (evDev 1)) :
    Safety.raised s (t.imageLoaded status slot version) (evDev 1) := by
  unfold State.imageLoaded
  exact raised_raise (by simpa (disch := decide) only [get_set_reg] using h) (by decide)

theorem raised_imageRefused (h : t.get .eventCount (evDev 2) = s.get .eventCount (evDev 2)) :
    Safety.raised s (t.imageRefused slot status) (evDev 2) := raised_raise h (by decide)

/-! ## The flash load (R52, R54) -/

section Flash

variable {sfdp : Option Bool} {first second : Option (List Byte)}

/-- The state once slot BOOTSEL names has been read. -/
def flashRead (s : State) (sfdp : Option Bool) : State :=
  s.emit (.flash (imageRead sfdp) (slotAddress (if field (s.nat .bootStraps 0) 6 2 = 3 then 0
    else field (s.nat .bootStraps 0) 6 2)))

/-- The state once slot 0 has been refused under BOOTSEL 0b11 and slot 1 has been read. -/
def secondRead (s : State) (sfdp : Option Bool) (first : Option (List Byte)) : State :=
  ((flashRead s sfdp).imageRefused 0 (imageStatus first)).emit (.flash (imageRead sfdp) (slotAddress 1))

theorem imageLoad_first (h : s.get .bootStatus 0 = 0) (h1 : imageStatus first = 0) : s.imageLoad sfdp first second
    = (flashRead s sfdp).imageLoaded 1 (if field (s.nat .bootStraps 0) 6 2 = 3 then 0
      else field (s.nat .bootStraps 0) 6 2) (imageVersion first) := by
  unfold State.imageLoad
  rw [if_neg (not_not.2 h)]
  exact if_pos h1

theorem imageLoad_refused (h : s.get .bootStatus 0 = 0) (h1 : imageStatus first ≠ 0)
    (hsel : field (s.nat .bootStraps 0) 6 2 ≠ 3) : s.imageLoad sfdp first second
      = ((flashRead s sfdp).bootFailed (imageStatus first)).imageRefused (field (s.nat .bootStraps 0) 6 2)
        (imageStatus first) := by
  unfold State.imageLoad flashRead
  simp only [h, ne_eq, not_true_eq_false, h1, hsel, if_false]

theorem imageLoad_second (h : s.get .bootStatus 0 = 0) (h1 : imageStatus first ≠ 0)
    (hsel : field (s.nat .bootStraps 0) 6 2 = 3) : s.imageLoad sfdp first second
      = if imageStatus second = 0 then (secondRead s sfdp first).imageLoaded 1 1 (imageVersion second)
        else ((secondRead s sfdp first).bootFailed (imageStatus second)).imageRefused 1 (imageStatus second) := by
  unfold State.imageLoad secondRead flashRead
  simp only [h, ne_eq, not_true_eq_false, h1, hsel, if_false, if_true]

theorem eventChanges_flashRead {l : List Reg} : Safety.eventChanges l s (flashRead s sfdp) :=
  apart_iff.2 ((Apart.refl s).other rfl)

theorem eventChanges_secondRead : Safety.eventChanges imageRegs s (secondRead s sfdp first) :=
  apart_iff.2 ((apart_iff.1 (apart_imageRefused eventChanges_flashRead)).other rfl)

theorem secondRead_out : (flashRead s sfdp).out <+: (secondRead s sfdp first).out := by
  unfold secondRead
  rw [emit_out, imageRefused_out]
  exact List.prefix_append _ _

theorem count_secondRead : (secondRead s sfdp first).get .eventCount (evDev 1) = s.get .eventCount (evDev 1) :=
  count_raise_other (by decide) (by decide)

theorem raised_secondRead : Safety.raised s (secondRead s sfdp first) (evDev 2) :=
  raised_imageRefused (s := s) (t := flashRead s sfdp) rfl

theorem imageLoad_reports (h : s.get .bootStatus 0 = 0) :
    let t := s.imageLoad sfdp first second
    (flashRead s sfdp).out <+: t.out ∧ Safety.eventChanges imageRegs s t := by
  by_cases h1 : imageStatus first = 0
  · rw [imageLoad_first h h1]
    exact ⟨by rw [imageLoaded_out], apart_imageLoaded eventChanges_flashRead⟩
  · by_cases hsel : field (s.nat .bootStraps 0) 6 2 = 3
    · rw [imageLoad_second h h1 hsel]
      split
      · exact ⟨by rw [imageLoaded_out]; exact secondRead_out, apart_imageLoaded eventChanges_secondRead⟩
      · exact ⟨by rw [imageRefused_out]; exact secondRead_out,
          apart_imageRefused (apart_bootFailed eventChanges_secondRead)⟩
    · rw [imageLoad_refused h h1 hsel]
      exact ⟨by rw [imageRefused_out]; exact List.prefix_rfl,
        apart_imageRefused (apart_bootFailed eventChanges_flashRead)⟩

end Flash

theorem get_eq_of_nat {n : Nat} (hn : n ≠ 0) (h : s.nat r i = n) : s.get r i = n := by
  rw [State.nat] at h
  omega

theorem imageLoadComplete_reports (flash : FlashReading) (second : Option (List Byte)) (hp : s.phase = .running)
    (h : s.get .bootStatus 0 = 0) :
    ∃ t, exec (.imageLoadComplete flash second) s = .next t
      ∧ Safety.sent s t (.flash (imageRead flash.sfdp) (slotAddress (if field (s.nat .bootStraps 0) 6 2 = 3 then 0
          else field (s.nat .bootStraps 0) 6 2)))
      ∧ (imageStatus flash.image = 0 → t.get .bootStatus 0 = 1
        ∧ t.nat .bootSlot 0 = (if field (s.nat .bootStraps 0) 6 2 = 3 then 0 else field (s.nat .bootStraps 0) 6 2)
        ∧ t.nat .bootVersion 0 = imageVersion flash.image ∧ Safety.raised s t (evDev 1))
      ∧ (imageStatus flash.image ≠ 0 → field (s.nat .bootStraps 0) 6 2 ≠ 3 →
        t.nat .bootStatus 0 = imageStatus flash.image ∧ t.get .bootSlot 0 = 0xFF ∧ Safety.raised s t (evDev 2))
      ∧ (imageStatus flash.image ≠ 0 → field (s.nat .bootStraps 0) 6 2 = 3 → imageStatus second = 0 →
        t.get .bootStatus 0 = 1 ∧ t.get .bootSlot 0 = 1 ∧ t.nat .bootVersion 0 = imageVersion second
        ∧ Safety.raised s t (evDev 1) ∧ Safety.raised s t (evDev 2))
      ∧ (imageStatus flash.image ≠ 0 → field (s.nat .bootStraps 0) 6 2 = 3 → imageStatus second ≠ 0 →
        t.nat .bootStatus 0 = imageStatus second ∧ t.get .bootSlot 0 = 0xFF)
      ∧ Safety.eventChanges imageRegs s t := by
  obtain ⟨hout, happ⟩ := imageLoad_reports (sfdp := flash.sfdp) (first := flash.image) (second := second) h
  have he : exec (.imageLoadComplete flash second) s = .next (s.imageLoad flash.sfdp flash.image second) :=
    live_running (f := fun s => s.imageLoad flash.sfdp flash.image second) hp
  refine ⟨_, he, sent_of_prefix hout (List.mem_singleton.2 rfl), fun h1 => ?_, fun h1 hsel => ?_,
    fun h1 hsel h2 => ?_, fun h1 hsel h2 => ?_, happ⟩
  · obtain ⟨r1, r2, r3⟩ := imageLoaded_reports (s := flashRead s flash.sfdp) (status := 1)
      (slot := if field (s.nat .bootStraps 0) 6 2 = 3 then 0 else field (s.nat .bootStraps 0) 6 2)
      (version := imageVersion flash.image)
    rw [imageLoad_first h h1]
    exact ⟨get_eq_of_nat one_ne_zero r1, r2, r3, raised_imageLoaded rfl⟩
  · rw [imageLoad_refused h h1 hsel]
    obtain ⟨r1, r2⟩ := bootFailed_reports (s := flashRead s flash.sfdp) (status := imageStatus flash.image)
      (slot := field (s.nat .bootStraps 0) 6 2) (version := imageStatus flash.image)
    refine ⟨r1, r2, raised_imageRefused ?_⟩
    simp (disch := decide) only [State.bootFailed, get_set_reg]
    rfl
  · rw [imageLoad_second h h1 hsel, if_pos h2]
    obtain ⟨r1, r2, r3⟩ := imageLoaded_reports (s := secondRead s flash.sfdp flash.image) (status := 1) (slot := 1)
      (version := imageVersion second)
    refine ⟨get_eq_of_nat one_ne_zero r1, get_eq_of_nat one_ne_zero r2, r3, raised_imageLoaded count_secondRead, ?_⟩
    refine raised_of_count ?_ (raised_secondRead (sfdp := flash.sfdp) (first := flash.image))
    unfold State.imageLoaded
    rw [count_raise_other (by decide) (by decide)]
    simp (disch := decide) only [get_set_reg]
  · rw [imageLoad_second h h1 hsel, if_neg h2]
    exact bootFailed_reports

/-! ## The host load (R55) -/

theorem hostBootBlocked_ready : (ready s cl).hostBootBlocked = s.hostBootBlocked := by
  simp (disch := decide) only [State.hostBootBlocked, ready_get]

theorem writeHostLoad_refused {k d p : Nat} (h : s.hostBootBlocked = some (.abort k d p)) :
    writeHostLoad (ready s cl) = (ready s cl, .abort k d p) := by
  simp only [writeHostLoad, hostBootBlocked_ready, h]

theorem hostImageLoad_refused {k d p : Nat} (ha : Safety.allowed s cl .bootHostLoad 0 (.int 1))
    (h : s.hostBootBlocked = some (.abort k d p)) :
    ∃ t, exec (.hostImageLoad cl) s = .next t ∧ Safety.aborted s t cl k ∧ Safety.requestChanges [] s t := by
  obtain ⟨a, he, hab⟩ := write_aborted (c := .hostImageLoad cl) ha rfl (writeHostLoad_refused h) (out_of_ready rfl)
  exact ⟨_, he, hab, requestChanges_serving (apart_iff.2 (Apart.refl _))⟩

/-- What raising events may change, serving a request may change. -/
theorem requestChanges_of_eventChanges {l : List Reg} (h : Safety.eventChanges l s t) : Safety.requestChanges l s t :=
  apart_iff.2 ((apart_iff.1 h).mono fun r hr => by
    obtain ⟨h1, h2⟩ := Bool.or_eq_false_iff.1 hr
    rw [h2, Bool.or_false]
    exact Bool.eq_false_iff.2 fun he => by simp [wide_requestSide.wide r he] at h1)

theorem hostImageLoad_reports (ha : Safety.allowed s cl .bootHostLoad 0 (.int 1)) (h : s.hostBootBlocked = none) :
    ∃ t, exec (.hostImageLoad cl) s = .next t ∧ Safety.acked s t cl
      ∧ (imageStatus (some (s.blob .bootHostImage 0)) = 0 → t.get .bootStatus 0 = 6 ∧ t.get .bootSlot 0 = 0xFE
        ∧ Safety.raised s t (evDev 1))
      ∧ (imageStatus (some (s.blob .bootHostImage 0)) ≠ 0 →
        t.nat .bootStatus 0 = imageStatus (some (s.blob .bootHostImage 0)) ∧ t.get .bootSlot 0 = 0xFF
        ∧ Safety.raised s t (evDev 2))
      ∧ Safety.requestChanges imageRegs s t := by
  have count : ∀ e, (ready s cl).get .eventCount e = s.get .eventCount e := fun e => ready_get (by decide)
  have apart : Safety.eventChanges imageRegs (ready s cl) (ready s cl) := apart_iff.2 (Apart.refl _)
  by_cases hi : imageStatus (some (s.blob .bootHostImage 0)) = 0
  · obtain ⟨r1, r2, -⟩ := imageLoaded_reports (s := ready s cl) (status := 6) (slot := 0xFE)
      (version := imageVersion (some (s.blob .bootHostImage 0)))
    have eff : writeHostLoad (ready s cl) = ((ready s cl).imageLoaded 6 0xFE
        (imageVersion (some (s.blob .bootHostImage 0))), accepted) := by
      simp only [writeHostLoad, hostBootBlocked_ready, h, ready_blob, hi, if_true]
    obtain ⟨a, he, hack⟩ := write_acked (c := .hostImageLoad cl) ha rfl eff (out_of_ready imageLoaded_out)
    refine ⟨_, he, hack, fun _ => ⟨?_, ?_, ?_⟩, fun hn => absurd hi hn,
      requestChanges_serving (requestChanges_of_eventChanges (apart_imageLoaded apart))⟩
    · rw [reply_get (by decide) (by decide)]
      exact get_eq_of_nat (by decide) r1
    · rw [reply_get (by decide) (by decide)]
      exact get_eq_of_nat (by decide) r2
    · exact raised_of_count (reply_get (by decide) (by decide)) (raised_imageLoaded (count _))
  · obtain ⟨r1, r2⟩ := bootFailed_reports (s := ready s cl) (status := imageStatus (some (s.blob .bootHostImage 0)))
      (slot := 0xFE) (version := imageStatus (some (s.blob .bootHostImage 0)))
    have eff : writeHostLoad (ready s cl) = (((ready s cl).bootFailed (imageStatus (some (s.blob .bootHostImage 0)))
        ).imageRefused 0xFE (imageStatus (some (s.blob .bootHostImage 0))), accepted) := by
      simp only [writeHostLoad, hostBootBlocked_ready, h, ready_blob, hi, if_false]
    obtain ⟨a, he, hack⟩ := write_acked (c := .hostImageLoad cl) ha rfl eff (out_of_ready imageRefused_out)
    refine ⟨_, he, hack, fun hn => absurd hn hi, fun _ => ⟨?_, ?_, ?_⟩,
      requestChanges_serving (requestChanges_of_eventChanges (apart_imageRefused (apart_bootFailed apart)))⟩
    · rw [State.nat, reply_get (by decide) (by decide)]
      exact r1
    · rw [reply_get (by decide) (by decide)]
      exact r2
    · refine raised_of_count (reply_get (by decide) (by decide)) (raised_imageRefused ?_)
      simp (disch := decide) only [State.bootFailed, get_set_reg, count]

/-! ## The forerunner view (R4) -/

theorem forerunnerEnableWrite_follows {on : Bool}
    (ha : Safety.allowed s cl .forerunnerEnable 0 (.int (ofFlag on))) :
    ∃ t, exec (.forerunnerEnableWrite cl on) s = .next t ∧ Safety.acked s t cl
      ∧ t.get .forerunnerEnable 0 = ofFlag on ∧ t.get .forerunnerActive 0 = ofFlag on
      ∧ (on = false → ∀ u ∈ t.subscribers, u.fore = false)
      ∧ Safety.requestChanges [.forerunnerEnable, .forerunnerActive] s t := by
  generalize hu : (writeForerunner (ofFlag on) (ready s cl)).1 = u
  have eff : writeForerunner (ofFlag on) (ready s cl) = (u, accepted) := by rw [← hu]; rfl
  have regs : (u.regs, u.blobs, u.out)
      = let x := ((ready s cl).set .forerunnerEnable 0 (ofFlag on)).set .forerunnerActive 0 (ofFlag on)
        (x.regs, x.blobs, x.out) := by
    rw [← hu]
    unfold writeForerunner
    dsimp only
    split <;> rfl
  simp only [Prod.mk.injEq] at regs
  obtain ⟨hregs, hblobs, hout⟩ := regs
  have get : ∀ r i, u.get r i
      = (((ready s cl).set .forerunnerEnable 0 (ofFlag on)).set .forerunnerActive 0 (ofFlag on)).get r i :=
    fun r i => by simp only [State.get, hregs]
  obtain ⟨a, he, hack⟩ := write_acked (c := .forerunnerEnableWrite cl on) ha rfl eff (out_of_ready hout)
  refine ⟨_, he, hack, ?_, ?_, fun hoff x hx => ?_, requestChanges_serving (apart_iff.2 ?_)⟩
  · simp (disch := decide) only [reply_get, get, get_set_reg, get_set_same]
  · simp (disch := decide) only [reply_get, get, get_set_same]
  · subst hoff
    rw [reply_subscribers, ← hu] at hx
    have hf := (List.mem_filter.1 (show x ∈ (ready s cl).subscribers.filter fun x => !x.fore from hx)).2
    simpa using hf
  · exact Apart.other (s := ((ready s cl).set .forerunnerEnable 0 _).set .forerunnerActive 0 _)
      (apart_set (apart_set (Apart.refl _))) (by rw [hregs, hblobs])

end Sys2Proof.Laws

namespace Sys2Proof

open Sys2Proof.Machine Sys2Proof.Laws

/-- Settles O12: a flash load has four outcomes, a host load two. -/
theorem imagesAreCheckedAndReported : Obligations.ImagesAreCheckedAndReported := by
  refine ⟨fun s flash second hp h => imageLoadComplete_reports flash second hp h, fun s flash second h => ?_,
    fun s cl ha => ⟨fun h => hostImageLoad_refused (d := 0) (p := 0) ha ?_,
      fun h => hostImageLoad_refused (d := 0) (p := 0) ha ?_⟩,
    fun s cl ha h0 h1 => hostImageLoad_reports ha ?_, fun s hc hw => ?_, fun s cl v ha => forerunnerEnableWrite_follows ha⟩
  · show State.live s (fun s => s.imageLoad flash.sfdp flash.image second) = _
    simp only [State.live, State.imageLoad, h, ne_eq, not_false_eq_true, if_true, ite_self]
  · simp only [State.hostBootBlocked, h, if_true]
    rfl
  · simp only [State.hostBootBlocked, h, one_ne_zero, if_false, if_true]
    rfl
  · simp only [State.hostBootBlocked, h0, h1, if_false]
  · exact ⟨_, congrArg Host.Outcome.next (if_neg (by simp [hc, hw])), get_set_same _ _ _ _,
      apart_iff.2 (apart_set (Apart.refl s))⟩

end Sys2Proof

/-! # Requests for a mode that are refused (R40, R42, R43, R46, R56, R456, R465) -/

namespace Sys2Proof.Laws

set_option Elab.async false

open Sys2Proof.Machine

variable {s t u : State} {cl : Client} {c : Instr} {m : Int}

/-- The requests for a mode are writes of 2000.01. -/
theorem exec_modeRequest (h : Safety.writeOf c = some (cl, .deviceModeRequest, 0, .int m)) :
    exec c s = .next (s.serveWrite cl .deviceModeRequest 0 (.int m) (writeModeRequest m)) := by
  cases c <;> cases h <;> rfl

/-- A request is judged by the rules on mode and cause: in the period of the entry to Haven it would be stored. -/
def Judged (s : State) : Prop := s.get .deviceModeState 0 = 5 → s.get .xHavenPeriod 0 ≠ s.loopPeriod

/-- Why a request for a mode is refused with a reason of 1 to 5 or 7. -/
def ModeRefusal (s : State) (m : Int) (reason : Nat) : Prop :=
  s.flag .deviceModeBusy 0 = true ∧ reason = 2
    ∨ s.flag .deviceModeBusy 0 = false ∧ s.get .deviceModeState 0 < 5 ∧ s.get .deviceModeState 0 + 1 < m ∧ reason = 1
    ∨ s.flag .deviceModeBusy 0 = false ∧ s.get .deviceModeState 0 = 0 ∧ m = 1 ∧ s.get .bootStatus 0 ≠ 1
      ∧ s.get .bootStatus 0 ≠ 6 ∧ reason = 3
    ∨ s.flag .deviceModeBusy 0 = false ∧ s.get .deviceModeState 0 = 0 ∧ m = 1
      ∧ (s.get .bootStatus 0 = 1 ∨ s.get .bootStatus 0 = 6) ∧ s.flag .xHbmTrained 0 = false ∧ reason = 7
    ∨ s.flag .deviceModeBusy 0 = false ∧ s.get .deviceModeState 0 = 5 ∧ 2 ≤ m ∧ reason = 1
    ∨ s.flag .deviceModeBusy 0 = false ∧ s.get .deviceModeState 0 = 5 ∧ m = 1
      ∧ s.bit .deviceHavenCauses 0 3 = true ∧ reason = 5
    ∨ s.flag .deviceModeBusy 0 = false ∧ s.get .deviceModeState 0 = 5 ∧ m = 1
      ∧ s.bit .deviceHavenCauses 0 3 = false ∧ (s.causePersists = true ∨ s.get .xCausePeriod 0 = s.loopPeriod)
      ∧ reason = 4

theorem writeModeRequest_refused {reason : Nat} (hj : Judged s) (hm : m < 5) (h : ModeRefusal s m reason) :
    writeModeRequest m s = s.refuseMode reason := by
  have outside : ¬ (s.get .deviceModeState 0 = 5 ∧ s.get .xHavenPeriod 0 = s.loopPeriod ∧ m ≤ 4) :=
    fun h => hj h.1 h.2.1
  unfold writeModeRequest
  dsimp only
  rw [if_neg (by omega), if_neg outside]
  rcases h with ⟨hb, rfl⟩ | ⟨hb, hs, hu, rfl⟩ | ⟨hb, hs, rfl, h1, h6, rfl⟩ | ⟨hb, hs, rfl, h16, ht, rfl⟩ | ⟨hb, hs, h2, rfl⟩ |
    ⟨hb, hs, rfl, h3, rfl⟩ | ⟨hb, hs, rfl, h3, hc, rfl⟩
  · rw [if_pos hb]
  · rw [if_neg (by simp [hb]), if_neg (by omega), if_neg (by omega), if_neg (by omega), if_pos hu]
  · simp [hb, hs, h1, h6]
  · simp [hb, hs, h16, ht]
  · rw [if_neg (by simp [hb]), if_neg (by omega), if_pos hs, if_neg (by omega), if_pos (by omega)]
  · simp [hb, hs, h3]
  · simp [hb, hs, h3, hc]

/-- Pair is refused while a precondition fails (R456). -/
theorem writeModeRequest_pairBlocked (hb : s.flag .deviceModeBusy 0 = false) (hs : s.get .deviceModeState 0 = 3)
    (hp : s.pairBlock ≠ 0) :
    writeModeRequest 4 s = (s.set .pairRefusal 0 (s.pairBlock : Nat)).refuseMode 6 := by
  simp [writeModeRequest, hb, hs, hp]

/-- A standby is kept in Pair while its partner is active (R465). -/
theorem writeModeRequest_standby (hb : s.flag .deviceModeBusy 0 = false) (hs : s.get .deviceModeState 0 = 4)
    (hr : s.get .pairRole 0 = 2) (hp : s.get .xPartnerRole 0 = 1) (ht : s.tieUp = true) :
    writeModeRequest 3 s = (s.set .pairRefusal 0 6).refuseMode 6 := by
  simp [writeModeRequest, hb, hs, hr, hp, ht]

/-- In the period of the entry to Haven a request is stored (R43). -/
theorem writeModeRequest_stored (hm : m < 5) (hs : s.get .deviceModeState 0 = 5)
    (hp : s.get .xHavenPeriod 0 = s.loopPeriod) :
    writeModeRequest m s = (s.set .deviceModeRequest 0 m, accepted) := by
  unfold writeModeRequest
  dsimp only
  rw [if_neg (by omega), if_pos ⟨hs, hp, by omega⟩]

/-! ## Taking a request changes nothing that the rules read -/

section Taken

theorem ready_flag {r : Reg} {i : Nat} (h : r ≠ .bdapRequests) : (ready s cl).flag r i = s.flag r i := by
  simp only [State.flag, ready_get h]

theorem ready_bit {r : Reg} {i b : Nat} (h : r ≠ .bdapRequests) : (ready s cl).bit r i b = s.bit r i b := by
  simp only [State.bit, ready_nat h]

theorem ready_loopPeriod : (ready s cl).loopPeriod = s.loopPeriod := by
  simp (disch := decide) only [State.loopPeriod, ready_get]

theorem ready_tieUp : (ready s cl).tieUp = s.tieUp := by simp (disch := decide) only [State.tieUp, ready_get]

theorem ready_causePersists : (ready s cl).causePersists = s.causePersists := by
  have valid : (ready s cl).sensorValid = s.sensorValid := by
    funext i
    simp (disch := decide) only [State.sensorValid, ready_get]
  simp (disch := decide) only [State.causePersists, State.sensingLost, valid, ready_get]

theorem ready_pairBlock : (ready s cl).pairBlock = s.pairBlock := by
  have kcv : ∀ n, (ready s cl).kcvMark n = s.kcvMark n := fun n => by
    simp (disch := decide) only [State.kcvMark, ready_get]
  have role : (ready s cl).preferredRole = s.preferredRole := by
    simp (disch := decide) only [State.preferredRole, ready_bit]
  simp (disch := decide) only [State.pairBlock, ready_tieUp, ready_get, ready_bit, kcv, role]

theorem judged_ready : Judged (ready s cl) ↔ Judged s := by
  simp (disch := decide) only [Judged, ready_get, ready_loopPeriod]

theorem modeRefusal_ready {reason : Nat} : ModeRefusal (ready s cl) m reason ↔ ModeRefusal s m reason := by
  simp (disch := decide) only [ModeRefusal, ready_flag, ready_get, ready_bit, ready_loopPeriod, ready_causePersists]

end Taken

/-! ## Requests refused -/

theorem modeRequest_aborts {reason : Nat} {l : List Reg}
    (ha : Safety.allowed s cl .deviceModeRequest 0 (.int m))
    (hc : Safety.writeOf c = some (cl, .deviceModeRequest, 0, .int m))
    (hw : writeModeRequest m (ready s cl) = u.refuseMode reason) (hu : u.out = (ready s cl).out)
    (hl : Apart (fun r => Safety.requestSide r || l.contains r) (ready s cl) u)
    (hmem : (Safety.requestSide .deviceModeRefusal || l.contains .deviceModeRefusal) = true) :
    ∃ t, exec c s = .next t ∧ Safety.aborted s t cl 0x08 ∧ t.get .deviceModeRefusal 0 = reason
      ∧ (∀ r i, r ≠ .deviceModeRefusal → r ≠ .bdapAborts → r ≠ .mgtFramesTx → t.get r i = u.get r i)
      ∧ Safety.requestChanges l s t := by
  obtain ⟨a, he, hab⟩ := write_aborted ha (exec_modeRequest hc) hw (out_of_ready hu)
  refine ⟨_, he, hab, ?_, fun r i h1 h2 h3 => ?_, requestChanges_serving (apart_iff.2 (apart_set hl hmem))⟩
  · rw [reply_get (by decide) (by decide), get_set_same]
  · rw [reply_get h2 h3, get_set_reg _ _ h1]

theorem modeRequest_refused {reason : Nat} (hm : m < 5) (ha : Safety.allowed s cl .deviceModeRequest 0 (.int m))
    (hc : Safety.writeOf c = some (cl, .deviceModeRequest, 0, .int m)) (hj : Judged s) (h : ModeRefusal s m reason) :
    ∃ t, exec c s = .next t ∧ Safety.aborted s t cl 0x08 ∧ t.get .deviceModeRefusal 0 = reason
      ∧ Safety.requestChanges [.deviceModeRefusal] s t := by
  obtain ⟨t, he, hab, hr, -, hch⟩ := modeRequest_aborts (l := [.deviceModeRefusal]) ha hc
    (writeModeRequest_refused (judged_ready.2 hj) hm (modeRefusal_ready.2 h)) rfl (Apart.refl _) rfl
  exact ⟨t, he, hab, hr, hch⟩

/-- A refusal that C000.0A keeps. -/
theorem modeRequest_refused_pair {reason : Nat} (ha : Safety.allowed s cl .deviceModeRequest 0 (.int m))
    (hc : Safety.writeOf c = some (cl, .deviceModeRequest, 0, .int m))
    (hw : writeModeRequest m (ready s cl) = ((ready s cl).set .pairRefusal 0 reason).refuseMode 6) :
    ∃ t, exec c s = .next t ∧ Safety.aborted s t cl 0x08 ∧ t.get .deviceModeRefusal 0 = 6
      ∧ t.get .pairRefusal 0 = reason ∧ Safety.requestChanges [.deviceModeRefusal, .pairRefusal] s t := by
  obtain ⟨t, he, hab, hr, hg, hch⟩ := modeRequest_aborts (l := [.deviceModeRefusal, .pairRefusal]) ha hc hw rfl
    (apart_set (Apart.refl _)) rfl
  exact ⟨t, he, hab, hr, (hg _ _ (by decide) (by decide) (by decide)).trans (get_set_same _ _ _ _), hch⟩

theorem modeRequest_stored (ha : Safety.allowed s cl .deviceModeRequest 0 (.int m))
    (hc : Safety.writeOf c = some (cl, .deviceModeRequest, 0, .int m))
    (hw : writeModeRequest m (ready s cl) = ((ready s cl).set .deviceModeRequest 0 m, accepted)) :
    ∃ t, exec c s = .next t ∧ Safety.acked s t cl ∧ t.get .deviceModeRequest 0 = m
      ∧ Safety.requestChanges [.deviceModeRequest] s t := by
  obtain ⟨a, he, hack⟩ := write_acked ha (exec_modeRequest hc) hw (out_of_ready rfl)
  refine ⟨_, he, hack, ?_, requestChanges_serving (apart_iff.2 (apart_set (Apart.refl _)))⟩
  rw [reply_get (by decide) (by decide), get_set_same]

end Sys2Proof.Laws

namespace Sys2Proof

open Sys2Proof.Machine Sys2Proof.Laws

/-- Settles O13: each reason is one branch of writeModeRequest. -/
theorem modeRequestsAreRefused : Obligations.ModeRequestsAreRefused := by
  refine ⟨fun s cl v ha c hc reason hj h => ?_, fun s cl ha hb hs hp => ?_, fun s cl ha hb hs hr hp ht => ?_,
    fun s cl v ha c hc hs hp => ?_⟩
  · refine modeRequest_refused (by omega) ha hc hj ?_
    simpa only [ModeRefusal, Nat.cast_eq_one, Nat.ofNat_le_cast] using h
  · refine modeRequest_refused_pair (c := .requestPair cl) ha rfl ?_
    rw [writeModeRequest_pairBlocked (by rwa [ready_flag (by decide)]) (by rwa [ready_get (by decide)])
      (by rwa [ready_pairBlock]), ready_pairBlock]
  · refine modeRequest_refused_pair (reason := 6) (c := .requestCarry cl) ha rfl ?_
    exact writeModeRequest_standby (by rwa [ready_flag (by decide)]) (by rwa [ready_get (by decide)])
      (by rwa [ready_get (by decide)]) (by rwa [ready_get (by decide)]) (by rwa [ready_tieUp])
  · refine modeRequest_stored ha hc (writeModeRequest_stored (by omega) ?_ ?_)
    · rwa [ready_get (by decide)]
    · rwa [ready_get (by decide), ready_loopPeriod]

end Sys2Proof

/-! # Requests for a mode that are accepted, Haven, completion, carrier requests (R40 to R49) -/

namespace Sys2Proof.Laws

set_option Elab.async false

open Sys2Proof.Machine

variable {s t u : State} {cl : Client} {c : Instr} {r : Reg} {i : Nat} {m v : Int} {κ : Scope} {l : List Reg}

/-! ## Registers that an operation leaves -/

/-- What the scope says is left is left. -/
theorem Kept.get (h : Kept κ s t) (hr : κ (Safety.part r) = true := by rfl) : t.get r i = s.get r i :=
  (h.sameRegs r i hr).1

/-- The registers beyond those listed: Apart (beyond l) says that each of l is as it was. -/
def beyond (l : List Reg) (r : Reg) : Bool := !l.contains r

theorem beyond_eq_false : beyond l r = false ↔ r ∈ l := by simp [beyond]

theorem beyond_eq_true : beyond l r = true ↔ r ∉ l := by simp [beyond]

theorem Apart.get (h : Apart (beyond l) s t) (hr : r ∈ l := by decide) : t.get r i = s.get r i :=
  h.regs r i (beyond_eq_false.2 hr)

theorem Kept.beyond (h : Kept κ s t) (hl : ∀ r ∈ l, κ (Safety.part r) = true := by decide) : Apart (beyond l) s t :=
  ⟨fun r i e => (h.sameRegs r i (hl r (beyond_eq_false.1 e))).1, fun r i e => (h.sameRegs r i (hl r (beyond_eq_false.1 e))).2⟩

theorem wide_beyond (hl : ∀ r ∈ l, Safety.eventSide r = false := by decide) : Wide (beyond l) :=
  ⟨fun r h => beyond_eq_true.2 fun hr => by rw [hl r hr] at h; cases h⟩

/-! ## Loops over the carriers -/

theorem each_cons {α : Type} {a : α} {l : List α} {f : State → α → State} : s.each (a :: l) f = (f s a).each l f := rfl

/-- A loop over distinct units, each of which changes what is seen of it and of no other. -/
theorem each_views {α : Type} {l : List Nat} {f : State → Nat → State} {view : State → Nat → α} {g : α → α}
    (hf : ∀ t a i, view (f t a) i = if i = a then g (view t i) else view t i) (hl : l.Nodup) :
    view (s.each l f) i = if i ∈ l then g (view s i) else view s i := by
  induction l generalizing s with
  | nil => simp [State.each]
  | cons a l ih =>
    obtain ⟨ha, hl⟩ := List.nodup_cons.1 hl
    rw [each_cons, ih hl, hf]
    by_cases hi : i = a
    · subst hi
      simp [ha]
    · simp [hi]

theorem mem_carriers {n : Nat} : n ∈ carriers ↔ n < 12 := by simp [carriers]

theorem nodup_carriers : carriers.Nodup := List.nodup_range

/-- A loop over the carriers that gives a register of each a value. -/
theorem each_carriers_get {f : State → Nat → State} (hf : ∀ t a i, (f t a).get r i = if i = a then v else t.get r i)
    (hi : i < 12) : (s.each carriers f).get r i = v := by
  have h := each_views (s := s) (i := i) (view := fun t i => t.get r i) (g := fun _ => v) hf nodup_carriers
  rwa [if_pos (mem_carriers.2 hi)] at h

/-! ## Carrier states -/

/-- The scope that leaves the carriers' states and requests. -/
abbrev carriersScope : Scope := fun p => match p with
  | .carriers => true
  | _ => false

theorem setCarrierState_get {n k : Nat} : (s.setCarrierState n v).get .carrierState k
    = if k = n then v else s.get .carrierState k := by
  unfold State.setCarrierState
  split
  · split <;> simp_all
  · rw [get_bump_other (.inl (by decide)), get_set]
    simp [eq_comm]

theorem setCarrierState_get_other {n k : Nat} (h1 : r ≠ .carrierState) (h2 : r ≠ .carrierStateChanges) :
    (s.setCarrierState n v).get r k = s.get r k := by
  unfold State.setCarrierState
  split
  · rfl
  · rw [get_bump_other (.inl h2), get_set_reg _ _ h1]

theorem noteDrop_get {n k : Nat} (h : r ≠ .carrierLastDrop) : (s.noteDrop n v).get r k = s.get r k := by
  unfold State.noteDrop
  split
  · rw [get_set_reg _ _ h]
  · rfl

/-- The scope that leaves carriers and bonding groups. -/
abbrev membersScope : Scope := fun p => match p with
  | .carriers => true
  | .bonding => true
  | _ => false

/-- What an entry to Idle clears once the state is noted, up to what the carrier's bonding group is told. -/
def idleCleared (n : Nat) (s : State) : State :=
  let s := (s.bankFinish (12 + n)).cdSettle n
  let s := ((s.clearMonitors n).defectsIdle n |>.pageSettle 0 n).pageSettle 1 n
  s |>.setBlob .xOhpOut n [] |>.setBlob .xOhpIn n [] |>.set .carrierOhStatSent n 0 |>.set .carrierTtiValid n 0

/-- The registers of the receive chain at the entry to Idle. -/
def idleReceive (n : Nat) (s : State) : State :=
  s |>.set .carrierRxTimingState n 0 |>.set .carrierRxPolState n 0 |>.set .carrierCrState n 0
      |>.set .carrierCatchState n 0 |>.set .carrierCatchGates n 0 |>.set .xMatchPending n 0 |>.set .xSearch n 0
      |>.set .carrierNcInForce n 0 |>.set .carrierNcSideState n 1 |>.set .carrierNcSideState (12 + n) 1
      |>.agcRestart n

/-- The lines and the settings in force at the entry to Idle; `relock` is a relock that is given up. -/
def idleLines (n : Nat) (relock : Bool) (s : State) : State :=
  s |>.when relock (fun s => (s.set .xRelock n 0).setLoops n (s.txLoop n) 0)
      |>.setTx n TxLine.start |>.setRx n RxLine.start |>.refreshReach n |>.refreshConv n |>.refreshRx n

/-- The entry to Idle with its state noted. -/
def idleNoted (n : Nat) (v : Int) (s : State) : State :=
  (((((s.set .xRaising n 0).set .xBondExit n 0).noteDrop n v).bondDrop n).setCarrierState n csIdle).emptySlack n
    |>.leaveHeld n

theorem toIdle_eq {n : Nat} (h : s.idle n = false) : s.toIdle n v
    = idleLines n ((idleCleared n (idleNoted n v s)).flag .xRelock n)
      ((idleReceive n (idleCleared n (idleNoted n v s))).set .carrierBondTxInSequence n 0) := by
  have hi : ((s.set .xRaising n 0).set .xBondExit n 0).idle n = false := by
    simpa (disch := decide) only [State.idle, get_set_reg] using h
  unfold State.toIdle
  dsimp only
  rw [if_neg (by simp [hi])]
  rfl

theorem toIdle_of_idle {n : Nat} (h : s.idle n = true) :
    s.toIdle n v = (s.set .xRaising n 0).set .xBondExit n 0 := by
  have hi : ((s.set .xRaising n 0).set .xBondExit n 0).idle n = true := by
    simpa (disch := decide) only [State.idle, get_set_reg] using h
  exact if_pos hi

theorem kept_idleReceive {n : Nat} : Kept membersScope s (idleReceive n (idleCleared n s)) := by
  have := fact_false
  have kf : Kept membersScope s (((((s.bankFinish (12 + n)).cdSettle n).clearMonitors n).defectsIdle n |>.pageSettle 0 n
      ).pageSettle 1 n) :=
    kept_pageSettle (kept_pageSettle (kept_defectsIdle (kept_clearMonitors (kept_cdSettle (kept_bankFinish (Kept.refl s))))))
  refine kept_agcRestart ?_
  repeat' first | with_reducible apply kept_set | exact rfl
  exact kept_set (kept_set (kept_setBlob (kept_setBlob kf (hr := rfl)) (hr := rfl)) (hr := rfl)) (hr := rfl)

theorem kept_idleLines {n : Nat} {b : Bool} : Kept membersScope s (idleLines n b s) := by
  have := fact_false
  exact kept_refreshRx (kept_refreshConv (kept_refreshReach (kept_setRx (kept_setTx
    (kept_when (Kept.refl s) fun u hu => kept_setLoops (kept_set hu (hr := rfl)))))))

/-- Idle is state 0. -/
theorem toIdle_carrierState {n k : Nat} : (s.toIdle n v).get .carrierState k
    = if k = n then 0 else s.get .carrierState k := by
  have := fact_false
  cases hi : s.idle n with
  | true =>
    rw [State.idle, decide_eq_true_eq] at hi
    rw [toIdle_of_idle (by simp [State.idle, hi]), get_set_reg _ _ (by decide), get_set_reg _ _ (by decide)]
    split
    · rename_i hk
      rw [hk, hi]
    · rfl
  | false =>
    rw [toIdle_eq hi, kept_idleLines.get, get_set_reg _ _ (by decide), kept_idleReceive.get, idleNoted,
      (kept_leaveHeld (κ := carriersScope) (kept_emptySlack (Kept.refl _))).get, setCarrierState_get,
      (kept_bondDrop (κ := carriersScope) (Kept.refl _)).get, noteDrop_get (by decide), get_set_reg _ _ (by decide),
      get_set_reg _ _ (by decide)]
    rfl

/-! ## The registers of a request under way -/

/-- The scope that leaves the device's mode. -/
abbrev modeScope : Scope := fun p => match p with
  | .mode => true
  | _ => false

/-- What a request for a mode writes and its transition keeps. -/
abbrev requestRegs : List Reg := [.deviceModeRequest, .deviceModeBusy, .xTarget, .deviceModeState]

theorem apart_when {K : Reg → Bool} {b : Bool} {f : State → State} (h : Apart K s t)
    (hf : b = true → Apart K t (f t)) : Apart K s (t.when b f) := by
  unfold State.when
  split
  · rename_i hb
    exact h.trans (hf hb)
  · exact h

theorem apart_calBegin : Apart (beyond (.xPowered :: requestRegs)) s s.calBegin := by
  have := fact_false
  unfold State.calBegin
  dsimp only
  split
  · refine (apart_set (Apart.refl s)).trans (Kept.beyond (κ := modeScope) (kept_each (Kept.refl _) fun _ _ ht => ?_))
    exact kept_refreshConv (kept_set (kept_set ht (hr := rfl)) (hr := rfl))
  · exact Apart.refl s

theorem apart_startTrim : Apart (beyond (.xPowered :: requestRegs)) (s.set .xPowered 0 1) s.startTrim := by
  have := fact_false
  have h : Apart (beyond (.xPowered :: requestRegs)) (s.set .xPowered 0 1) ((s.set .xPowered 0 1).set .xTrimReady 0 0) :=
    apart_set (Apart.refl _)
  unfold State.startTrim
  refine h.trans (Apart.trans ?_ apart_calBegin)
  exact Kept.beyond (κ := modeScope) (kept_each (kept_each (Kept.refl _) fun _ _ ht =>
    kept_trimLoops (kept_calAbandonOffline ht)) fun _ _ ht => kept_refreshConv ht)

theorem leaveTrim_keeps : Apart (beyond (.xPowered :: requestRegs)) (s.lanesOff.set .xPowered 0 0) s.leaveTrim := by
  have := fact_false
  unfold State.leaveTrim
  extract_lets a b d e
  refine apart_set (Kept.beyond (κ := modeScope) ?_)
  have kb : Kept modeScope a b := kept_each (Kept.refl a) fun _ _ ht =>
    kept_set (kept_loopsOff (kept_calAbandonOffline (kept_calAbandon ht))) (hr := rfl)
  have kd : Kept modeScope a d := kept_each kb fun _ _ ht =>
    kept_set (kept_set (kept_set ht (hr := rfl)) (hr := rfl)) (hr := rfl)
  have ke : Kept modeScope a e := kept_refreshBg (kept_each kd fun _ _ ht => kept_refreshConv ht)
  exact kept_set (kept_set (kept_eraseAllSlots ke) (hr := rfl)) (hr := rfl)

theorem leaveTrim_powered : s.leaveTrim.get .xPowered 0 = 0 := by
  rw [leaveTrim_keeps.get, get_set_same]

theorem Apart.tail (h : Apart (beyond (r :: l)) s t) : Apart (beyond l) s t :=
  h.mono fun _ h' => beyond_eq_false.2 (List.mem_cons_of_mem _ (beyond_eq_false.1 h'))

theorem apart_leaveTrim : Apart (beyond requestRegs) s s.leaveTrim := by
  have := fact_false
  have h : Apart (beyond requestRegs) s s.lanesOff := Kept.beyond (κ := modeScope) (kept_lanesOff (Kept.refl s))
  exact (apart_set h).trans leaveTrim_keeps.tail

theorem apart_exitActions {n : Int} : Apart (beyond requestRegs) s (s.exitActions m n) := by
  have := fact_false
  unfold State.exitActions
  refine apart_when (apart_when (apart_when (apart_when (Apart.refl s) fun _ => ?_) fun _ => ?_) fun _ => ?_)
    fun _ => apart_leaveTrim
  · exact Kept.beyond (κ := modeScope) (kept_leavePair (Kept.refl _))
  · exact Kept.beyond (κ := modeScope) (kept_leaveCarry (Kept.refl _))
  · exact Kept.beyond (κ := modeScope) (kept_leaveCatch (Kept.refl _))

theorem startTransition_get : (s.startTransition v).get .deviceModeRequest 0 = v
    ∧ (s.startTransition v).get .deviceModeBusy 0 = 1 ∧ (s.startTransition v).get .xTarget 0 = v
    ∧ ∀ r i, r ∉ [Reg.deviceModeRequest, .deviceModeBusy, .xTarget] → (s.startTransition v).get r i = s.get r i := by
  refine ⟨?_, ?_, ?_, fun r i h => ?_⟩
  · simp (disch := decide) only [State.startTransition, get_set_reg, get_set_same]
  · simp (disch := decide) only [State.startTransition, get_set_reg, get_set_same]
  · simp (disch := decide) only [State.startTransition, get_set_same]
  · simp only [List.mem_cons, List.not_mem_nil, or_false, not_or] at h
    obtain ⟨h1, h2, h3⟩ := h
    rw [State.startTransition, get_set_reg _ _ h3, get_set_reg _ _ h2, get_set_reg _ _ h1]

/-- What a request under way for mode v tells. -/
def UnderWay (v : Int) (s t : State) : Prop :=
  t.get .deviceModeRequest 0 = v ∧ t.get .deviceModeBusy 0 = 1 ∧ t.get .xTarget 0 = v
    ∧ t.get .deviceModeState 0 = s.get .deviceModeState 0

theorem UnderWay.of_apart (h : Apart (beyond requestRegs) (t.startTransition v) u)
    (ht : t.get .deviceModeState 0 = s.get .deviceModeState 0) : UnderWay v s u := by
  obtain ⟨h1, h2, h3, h4⟩ := startTransition_get (s := t) (v := v)
  exact ⟨h.get.trans h1, h.get.trans h2, h.get.trans h3, h.get.trans ((h4 _ _ (by decide)).trans ht)⟩

/-! ## Exits -/

theorem leaveCatch_idle {n : Nat} (h : n < 12) : s.leaveCatch.get .carrierState n = 0 := by
  have := fact_false
  unfold State.leaveCatch
  rw [(kept_refreshBg (κ := carriersScope) (kept_calSettle (Kept.refl _))).get]
  refine each_carriers_get (fun t a i => ?_) h
  rw [(kept_calAbandonOffline (κ := carriersScope) (Kept.refl _)).get, toIdle_carrierState]

/-- What the exit from Carry does to a carrier's state and last drop. -/
def lockedDrop (x : Int × Int) : Int × Int := if x.1 = 4 then (3, 4) else x

theorem leaveCarry_carrier {n : Nat} (h : n < 12) : (s.leaveCarry.get .carrierState n, s.leaveCarry.get .carrierLastDrop n)
    = lockedDrop (s.get .carrierState n, s.get .carrierLastDrop n) := by
  have := fact_false
  unfold State.leaveCarry
  have kd : ∀ a : State, Kept carriersScope a a.drainTribs := fun a => kept_drainTribs (Kept.refl a)
  have kf : Kept carriersScope s s.flushAll := kept_flushAll (Kept.refl s)
  rw [(kd _).get, (kd _).get, ← kf.get (r := .carrierState), ← kf.get (r := .carrierLastDrop)]
  have hv := each_views (s := s.flushAll) (i := n)
    (view := fun t i => (t.get .carrierState i, t.get .carrierLastDrop i)) (g := lockedDrop)
    (f := fun s c => if s.get .carrierState c = 4 then (s.setCarrierState c csLocked).set .carrierLastDrop c 4 else s)
    (fun t a i => ?_) nodup_carriers
  · rwa [if_pos (mem_carriers.2 h)] at hv
  · split
    · rename_i h4
      rw [get_set_reg _ _ (by decide), setCarrierState_get, get_set, setCarrierState_get_other (by decide) (by decide)]
      by_cases hi : i = a
      · subst hi
        simp [lockedDrop, h4, csLocked]
      · simp [hi]
    · rename_i h4
      by_cases hi : i = a
      · subst hi
        simp [lockedDrop, h4]
      · simp [hi]

/-- Registers of the device's mode that are no configuration outlast its return to defaults (R46). -/
theorem dropConfiguration_get (hr : modeScope (Safety.part r) = true) :
    s.dropConfiguration.get r i = if r.isConfig i then r.dflt i else s.get r i := by
  have := fact_false
  unfold State.dropConfiguration
  extract_lets a
  rw [(kept_capacityCheck (κ := modeScope) (Kept.refl _)).get hr,
    ← (kept_flushAll (κ := modeScope) (Kept.refl s)).get hr]
  split
  · rename_i hc
    exact sget_filter_out _ (fun k : Reg × Nat => !k.1.isConfig k.2) _ (by simp [hc])
  · rename_i hc
    exact sget_filter _ (fun k : Reg × Nat => !k.1.isConfig k.2) _ (by simp [hc])

theorem not_isConfig (h : r.access = .ro) (h1 : r ∈ requestRegs ++ [.xPowered]) : r.isConfig i = false := by
  simp only [List.mem_append, List.mem_cons, List.not_mem_nil, or_false] at h1
  rcases h1 with (rfl | rfl | rfl | rfl) | rfl <;> simp [Reg.isConfig, h]

/-- Dropping configuration leaves what a request for Dormant writes. -/
theorem dropConfiguration_underWay (h : UnderWay 0 s t) : UnderWay 0 s t.dropConfiguration
    ∧ t.dropConfiguration.get .xPowered 0 = t.get .xPowered 0 := by
  obtain ⟨h1, h2, h3, h4⟩ := h
  refine ⟨⟨?_, ?_, ?_, ?_⟩, ?_⟩
  · rw [dropConfiguration_get rfl, h1]
    exact ite_self _
  all_goals
    rw [dropConfiguration_get rfl, not_isConfig rfl (by decide), if_neg (by decide)]
    try assumption

/-! ## The exit from Haven (R46) -/

/-- The state in which the exit's transition starts, its carriers Idle. -/
def settled (s : State) : State := (s.each carriers fun s c => s.toIdle c 4).calSettle

theorem settled_mode : Apart (beyond requestRegs) s (settled s) := by
  have := fact_false
  exact Kept.beyond (κ := modeScope) (kept_calSettle (kept_each (Kept.refl s) fun _ _ ht => kept_toIdle ht))

theorem leaveHaven_trim : UnderWay 1 s (s.leaveHaven 1) ∧ (s.leaveHaven 1).get .xPowered 0 = 1 := by
  have := fact_false
  have hm : (settled s).flushAll.get .deviceModeState 0 = s.get .deviceModeState 0 :=
    ((kept_flushAll (κ := modeScope) (Kept.refl (settled s))).get).trans settled_mode.get
  have he : s.leaveHaven 1 = ((settled s).flushAll.startTransition 1).startTrim := by
    unfold State.leaveHaven settled
    exact if_pos rfl
  rw [he]
  generalize (settled s).flushAll = x at hm
  have ha := apart_startTrim (s := x.startTransition 1)
  have hx : Apart (beyond requestRegs) (x.startTransition 1) ((x.startTransition 1).set .xPowered 0 1) :=
    apart_set (Apart.refl _)
  refine ⟨.of_apart (hx.trans ha.tail) hm, ?_⟩
  rw [ha.get, get_set_same]

theorem leaveHaven_dormant : UnderWay 0 s (s.leaveHaven 0) ∧ (s.leaveHaven 0).get .xPowered 0 = 0 := by
  have he : s.leaveHaven 0 = if s.bit .deviceHavenCauses 0 3 then ((settled s).startTransition 0).leaveTrim.dropConfiguration
      else ((settled s).startTransition 0).leaveTrim := by
    unfold State.leaveHaven settled
    exact if_neg (by decide)
  have hu : UnderWay 0 s ((settled s).startTransition 0).leaveTrim := .of_apart apart_leaveTrim settled_mode.get
  have hp : ((settled s).startTransition 0).leaveTrim.get .xPowered 0 = 0 := leaveTrim_powered
  rw [he]
  split
  · obtain ⟨h1, h2⟩ := dropConfiguration_underWay hu
    exact ⟨h1, h2.trans hp⟩
  · exact ⟨hu, hp⟩

/-! ## Requests accepted -/

/-- The scope that leaves nothing. -/
abbrev noScope : Scope := fun p => match p with
  | _ => false

theorem modeRequest_accepted (ha : Safety.allowed s cl .deviceModeRequest 0 (.int m))
    (hc : Safety.writeOf c = some (cl, .deviceModeRequest, 0, .int m))
    (hw : writeModeRequest m (ready s cl) = (u, accepted)) :
    ∃ t, exec c s = .next t ∧ Safety.acked s t cl
      ∧ (∀ r i, r ≠ .bdapAborts → r ≠ .mgtFramesTx → t.get r i = u.get r i)
      ∧ ∀ l, Safety.requestChanges l (ready s cl) u → Safety.requestChanges l s t := by
  have := fact_false
  have ho := (kept_writeModeRequest (κ := noScope) (v := m) (Kept.refl (ready s cl))).out
  rw [hw, ready_out] at ho
  obtain ⟨a, he, hack⟩ := write_acked ha (exec_modeRequest hc) hw ho
  exact ⟨_, he, hack, fun r i h1 h2 => reply_get h1 h2, fun l h => requestChanges_serving h⟩

theorem modeRequest_starts (ha : Safety.allowed s cl .deviceModeRequest 0 (.int m))
    (hc : Safety.writeOf c = some (cl, .deviceModeRequest, 0, .int m))
    (hw : writeModeRequest m (ready s cl) = (u, accepted)) (hu : UnderWay m (ready s cl) u) :
    ∃ t, exec c s = .next t ∧ Safety.acked s t cl ∧ UnderWay m s t
      ∧ (∀ r i, r ≠ .bdapAborts → r ≠ .mgtFramesTx → t.get r i = u.get r i)
      ∧ ∀ l, Safety.requestChanges l (ready s cl) u → Safety.requestChanges l s t := by
  obtain ⟨t, he, hack, hg, hch⟩ := modeRequest_accepted ha hc hw
  obtain ⟨h1, h2, h3, h4⟩ := hu
  refine ⟨t, he, hack, ⟨?_, ?_, ?_, ?_⟩, hg, hch⟩
  · rw [hg _ _ (by decide) (by decide), h1]
  · rw [hg _ _ (by decide) (by decide), h2]
  · rw [hg _ _ (by decide) (by decide), h3]
  · rw [hg _ _ (by decide) (by decide), h4, ready_get (by decide)]

/-- The exit from Haven to Trim is allowed (R46). -/
def MayTrim (s : State) : Prop :=
  s.get .deviceModeState 0 = 5 ∧ s.get .xHavenPeriod 0 ≠ s.loopPeriod ∧ s.get .xCausePeriod 0 ≠ s.loopPeriod
    ∧ s.bit .deviceHavenCauses 0 3 = false ∧ s.causePersists = false

theorem writeModeRequest_fromHaven (hb : s.flag .deviceModeBusy 0 = false) (h : MayTrim s) :
    writeModeRequest 1 s = (s.leaveHaven 1, accepted) := by
  obtain ⟨h5, hh, hp, h3, hc⟩ := h
  simp [writeModeRequest, hb, h5, hh, hp, h3, hc]

theorem writeModeRequest_dormant (hb : s.flag .deviceModeBusy 0 = false) (h5 : s.get .deviceModeState 0 = 5)
    (hh : s.get .xHavenPeriod 0 ≠ s.loopPeriod) : writeModeRequest 0 s = (s.leaveHaven 0, accepted) := by
  simp [writeModeRequest, hb, h5, hh]

theorem writeModeRequest_trim (hb : s.flag .deviceModeBusy 0 = false) (h0 : s.get .deviceModeState 0 = 0)
    (hi : s.get .bootStatus 0 = 1 ∨ s.get .bootStatus 0 = 6) (ht : s.flag .xHbmTrained 0 = true) :
    writeModeRequest 1 s = ((s.startTransition 1).startTrim, accepted) := by
  simp [writeModeRequest, hb, h0, hi, ht]

theorem writeModeRequest_catch (hb : s.flag .deviceModeBusy 0 = false) (h1 : s.get .deviceModeState 0 = 1) :
    writeModeRequest 2 s = ((s.startTransition 2).each carriers fun s c => s.calAbandon c true, accepted) := by
  simp [writeModeRequest, hb, h1]

theorem writeModeRequest_carry (hb : s.flag .deviceModeBusy 0 = false) (h2 : s.get .deviceModeState 0 = 2) :
    writeModeRequest 3 s = (s.startTransition 3, accepted) := by
  simp [writeModeRequest, hb, h2]

theorem writeModeRequest_pair (hb : s.flag .deviceModeBusy 0 = false) (h3 : s.get .deviceModeState 0 = 3)
    (hp : s.pairBlock = 0) : writeModeRequest 4 s
      = (((s.startTransition 4).set .pairRole 0 s.agreedRole).set .pairState 0 1, accepted) := by
  simp [writeModeRequest, hb, h3, hp]

/-- The state in which a fall to mode v starts its transition, what was received delivered (R41). -/
def received (v : Int) (s : State) : State :=
  s.when (decide (3 ≤ s.get .deviceModeState 0 ∧ v < 3)) State.finishReceive

theorem received_mode : Apart (beyond requestRegs) s (received v s) := by
  have := fact_false
  exact Kept.beyond (κ := modeScope) (kept_when (Kept.refl s) fun _ ht => kept_finishReceive ht)

theorem received_carriers {n : Nat} (hr : carriersScope (Safety.part r) = true) :
    (received v s).get r n = s.get r n := by
  have := fact_false
  exact (kept_when (κ := carriersScope) (Kept.refl s) fun _ ht => kept_finishReceive ht).get hr

theorem writeModeRequest_falls (hb : s.flag .deviceModeBusy 0 = false) (h5 : s.get .deviceModeState 0 ≠ 5)
    (hv : v < s.get .deviceModeState 0) (h4 : v < 5)
    (hp : ¬ (s.get .deviceModeState 0 = 4 ∧ v = 3 ∧ s.get .pairRole 0 = 2 ∧ s.get .xPartnerRole 0 = 1 ∧ s.tieUp = true)) :
    writeModeRequest v s = (((received v s).startTransition v).exitActions (s.get .deviceModeState 0) v, accepted) := by
  unfold writeModeRequest
  dsimp only
  rw [if_neg (by omega), if_neg (fun h => h5 h.1), if_neg (by simp [hb]), if_neg (by omega), if_neg h5, if_pos hv,
    if_neg hp]
  rfl

theorem falls_underWay {n : Int} : UnderWay v s (((received v s).startTransition v).exitActions n v) :=
  .of_apart apart_exitActions received_mode.get

/-- A fall below Catch leaves every carrier Idle. -/
theorem exitActions_idle {n : Int} {k : Nat} (hk : k < 12) (hn : 2 ≤ n) : (s.exitActions n 1).get .carrierState k = 0 := by
  simp only [State.exitActions, State.when]
  rw [if_neg (c := decide (1 ≤ n ∧ (1 : Int) < 1) = true) (by simp)]
  rw [if_pos (c := decide (2 ≤ n ∧ (1 : Int) < 2) = true) (by simpa using hn)]
  exact leaveCatch_idle hk

/-- A fall from Carry to Catch locks the Carrying carriers. -/
theorem exitActions_locked {n : Int} {k : Nat} (hk : k < 12) (hn : 3 ≤ n) (h4 : s.get .carrierState k = 4) :
    (s.exitActions n 2).get .carrierState k = 3 ∧ (s.exitActions n 2).get .carrierLastDrop k = 4 := by
  have := fact_false
  simp only [State.exitActions]
  generalize hx : s.when (decide (n = 4 ∧ (2 : Int) < 4)) State.leavePair = x
  have kx : Kept carriersScope s x := by
    rw [← hx]
    exact kept_when (Kept.refl s) fun _ ht => kept_leavePair ht
  have hc := leaveCarry_carrier (s := x) hk
  rw [kx.get, kx.get, h4] at hc
  simp only [State.when]
  rw [if_neg (c := decide (1 ≤ n ∧ (2 : Int) < 1) = true) (by simp),
    if_neg (c := decide (2 ≤ n ∧ (2 : Int) < 2) = true) (by simp),
    if_pos (c := decide (3 ≤ n ∧ (2 : Int) < 3) = true) (by simpa using hn)]
  exact Prod.mk.inj hc

theorem exitActions_powered {n : Int} (hn : 1 ≤ n) : (s.exitActions n 0).get .xPowered 0 = 0 := by
  simp only [State.exitActions, State.when]
  rw [if_pos (c := decide (1 ≤ n ∧ (0 : Int) < 1) = true) (by simpa using hn)]
  exact leaveTrim_powered

theorem ready_mayTrim : MayTrim (ready s cl) ↔ MayTrim s := by
  simp (disch := decide) only [MayTrim, ready_get, ready_loopPeriod, ready_bit, ready_causePersists]

theorem ready_agreedRole : (ready s cl).agreedRole = s.agreedRole := by
  simp (disch := decide) only [State.agreedRole, State.preferredRole, ready_get, ready_bit]

section Starts

variable (hb : s.flag .deviceModeBusy 0 = false)
include hb

theorem ready_notBusy : (ready s cl).flag .deviceModeBusy 0 = false := by rwa [ready_flag (by decide)]

theorem requestTrim_starts (ha : Safety.allowed s cl .deviceModeRequest 0 (.int 1))
    (h : s.get .deviceModeState 0 = 0 ∧ (s.get .bootStatus 0 = 1 ∨ s.get .bootStatus 0 = 6)
      ∧ s.flag .xHbmTrained 0 = true ∨ MayTrim s) :
    ∃ t, exec (.requestTrim cl) s = .next t ∧ Safety.acked s t cl ∧ UnderWay 1 s t ∧ t.get .xPowered 0 = 1 := by
  rcases h with ⟨h0, hi, ht⟩ | h
  · have hp := apart_startTrim (s := (ready s cl).startTransition 1)
    have hx : Apart (beyond requestRegs) ((ready s cl).startTransition 1)
        (((ready s cl).startTransition 1).set .xPowered 0 1) := apart_set (Apart.refl _)
    have hw := writeModeRequest_trim (s := ready s cl) (ready_notBusy hb) (by rwa [ready_get (by decide)])
      (by simpa (disch := decide) only [ready_get] using hi) (by rwa [ready_flag (by decide)])
    obtain ⟨t, he, hack, hu, hg, -⟩ := modeRequest_starts (c := .requestTrim cl) ha rfl hw
      (.of_apart (hx.trans hp.tail) rfl)
    refine ⟨t, he, hack, hu, ?_⟩
    rw [hg _ _ (by decide) (by decide), hp.get, get_set_same]
  · have hw := writeModeRequest_fromHaven (s := ready s cl) (ready_notBusy hb) (ready_mayTrim.2 h)
    obtain ⟨h1, h2⟩ := leaveHaven_trim (s := ready s cl)
    obtain ⟨t, he, hack, hu, hg, -⟩ := modeRequest_starts (c := .requestTrim cl) ha rfl hw h1
    refine ⟨t, he, hack, hu, ?_⟩
    rw [hg _ _ (by decide) (by decide), h2]

theorem requestCatch_starts (ha : Safety.allowed s cl .deviceModeRequest 0 (.int 2))
    (h1 : s.get .deviceModeState 0 = 1) :
    ∃ t, exec (.requestCatch cl) s = .next t ∧ Safety.acked s t cl ∧ UnderWay 2 s t := by
  have := fact_false
  have hw := writeModeRequest_catch (s := ready s cl) (ready_notBusy hb) (by rwa [ready_get (by decide)])
  have ho : Apart (beyond requestRegs) ((ready s cl).startTransition 2)
      (((ready s cl).startTransition 2).each carriers fun s c => s.calAbandon c true) :=
    Kept.beyond (κ := modeScope) (kept_each (Kept.refl _) fun _ _ ht => kept_calAbandon ht)
  obtain ⟨t, he, hack, hu, -, -⟩ := modeRequest_starts (c := .requestCatch cl) ha rfl hw (.of_apart ho rfl)
  exact ⟨t, he, hack, hu⟩

theorem requestCarry_starts (ha : Safety.allowed s cl .deviceModeRequest 0 (.int 3))
    (h2 : s.get .deviceModeState 0 = 2) :
    ∃ t, exec (.requestCarry cl) s = .next t ∧ Safety.acked s t cl ∧ UnderWay 3 s t
      ∧ Safety.requestChanges [.deviceModeRequest, .deviceModeBusy, .xTarget] s t := by
  have hw := writeModeRequest_carry (s := ready s cl) (ready_notBusy hb) (by rwa [ready_get (by decide)])
  obtain ⟨t, he, hack, hu, -, hc⟩ := modeRequest_starts (c := .requestCarry cl) ha rfl hw
    (.of_apart (Apart.refl _) rfl)
  exact ⟨t, he, hack, hu, hc _ (apart_iff.2 (apart_set (apart_set (apart_set (Apart.refl _)))))⟩

theorem requestPair_starts (ha : Safety.allowed s cl .deviceModeRequest 0 (.int 4))
    (h3 : s.get .deviceModeState 0 = 3) (hp : s.pairBlock = 0) :
    ∃ t, exec (.requestPair cl) s = .next t ∧ Safety.acked s t cl ∧ UnderWay 4 s t
      ∧ t.get .pairRole 0 = s.agreedRole ∧ t.get .pairState 0 = 1
      ∧ Safety.requestChanges [.deviceModeRequest, .deviceModeBusy, .xTarget, .pairRole, .pairState] s t := by
  have hw := writeModeRequest_pair (s := ready s cl) (ready_notBusy hb) (by rwa [ready_get (by decide)])
    (by rwa [ready_pairBlock])
  rw [ready_agreedRole] at hw
  obtain ⟨t, he, hack, hu, hg, hc⟩ := modeRequest_starts (c := .requestPair cl) ha rfl hw
    (.of_apart (apart_set (apart_set (Apart.refl _))) rfl)
  refine ⟨t, he, hack, hu, ?_, ?_, hc _ (apart_iff.2 ?_)⟩
  · simp (disch := decide) only [hg, get_set_reg, get_set_same]
  · simp (disch := decide) only [hg, get_set_same]
  · exact apart_set (apart_set (apart_set (apart_set (apart_set (Apart.refl _)))))

theorem requestDormant_starts (ha : Safety.allowed s cl .deviceModeRequest 0 (.int 0))
    (h1 : 1 ≤ s.get .deviceModeState 0) (hj : Judged s) :
    ∃ t, exec (.requestDormant cl) s = .next t ∧ Safety.acked s t cl ∧ UnderWay 0 s t ∧ t.get .xPowered 0 = 0 := by
  have hm : (ready s cl).get .deviceModeState 0 = s.get .deviceModeState 0 := ready_get (by decide)
  by_cases h5 : s.get .deviceModeState 0 = 5
  · have hw := writeModeRequest_dormant (s := ready s cl) (ready_notBusy hb) (hm.trans h5)
      (judged_ready.2 hj (hm.trans h5))
    obtain ⟨h1, h2⟩ := leaveHaven_dormant (s := ready s cl)
    obtain ⟨t, he, hack, hu, hg, -⟩ := modeRequest_starts (c := .requestDormant cl) ha rfl hw h1
    refine ⟨t, he, hack, hu, ?_⟩
    rw [hg _ _ (by decide) (by decide), h2]
  · have hw := writeModeRequest_falls (s := ready s cl) (v := 0) (ready_notBusy hb) (by rwa [hm]) (by omega)
      (by decide) (by simp)
    obtain ⟨t, he, hack, hu, hg, -⟩ := modeRequest_starts (c := .requestDormant cl) ha rfl hw falls_underWay
    refine ⟨t, he, hack, hu, ?_⟩
    rw [hg _ _ (by decide) (by decide), exitActions_powered (by omega)]

/-- A request for a lower mode than the one that stands. -/
theorem modeRequest_falls (ha : Safety.allowed s cl .deviceModeRequest 0 (.int v))
    (hc : Safety.writeOf c = some (cl, .deviceModeRequest, 0, .int v)) (hm : s.get .deviceModeState 0 ≤ 4)
    (hv : v < s.get .deviceModeState 0)
    (hp : ¬ (s.get .deviceModeState 0 = 4 ∧ v = 3 ∧ s.get .pairRole 0 = 2 ∧ s.get .xPartnerRole 0 = 1 ∧ s.tieUp = true)) :
    ∃ t, exec c s = .next t ∧ Safety.acked s t cl ∧ UnderWay v s t ∧ ∀ r i, r ≠ .bdapAborts → r ≠ .mgtFramesTx →
      t.get r i = (((received v (ready s cl)).startTransition v).exitActions (s.get .deviceModeState 0) v).get r i := by
  have he : (ready s cl).get .deviceModeState 0 = s.get .deviceModeState 0 := ready_get (by decide)
  have hw := writeModeRequest_falls (s := ready s cl) (v := v) (ready_notBusy hb) (by omega) (by omega) (by omega)
    (by simpa (disch := decide) only [ready_get, ready_tieUp] using hp)
  obtain ⟨t, hx, hack, hu, hg, -⟩ := modeRequest_starts ha hc hw falls_underWay
  exact ⟨t, hx, hack, hu, fun r i h1 h2 => by rw [hg r i h1 h2, he]⟩

end Starts

end Sys2Proof.Laws

namespace Sys2Proof

open Sys2Proof.Machine Sys2Proof.Laws

/-- Settles O14: each accepted request is one branch of writeModeRequest. -/
theorem modeTransitionsStart : Obligations.ModeTransitionsStart := by
  refine ⟨fun s cl ha hb h => ?_, fun s cl ha hb h => ?_, fun s cl ha hb h => ?_, fun s cl ha hb h hp => ?_,
    fun s cl hb hm => ⟨fun ha h => ?_, fun ha h => ?_, fun ha h hp => ?_⟩, fun s cl v ha hb h c hc => ?_,
    fun s cl ha hb h hj => ?_⟩
  · obtain ⟨t, he, hack, ⟨h1, h2, h3, h4⟩, hx⟩ := requestTrim_starts hb ha h
    exact ⟨t, he, hack, h1, h2, h3, h4, hx⟩
  · obtain ⟨t, he, hack, h1, h2, h3, h4⟩ := requestCatch_starts hb ha h
    exact ⟨t, he, hack, h1, h2, h3, h4.trans h⟩
  · obtain ⟨t, he, hack, ⟨h1, h2, h3, h4⟩, hx⟩ := requestCarry_starts hb ha h
    exact ⟨t, he, hack, h1, h2, h3, h4.trans h, hx⟩
  · obtain ⟨t, he, hack, ⟨h1, h2, h3, h4⟩, hx⟩ := requestPair_starts hb ha h hp
    exact ⟨t, he, hack, h1, h2, h3, h4.trans h, hx⟩
  · obtain ⟨t, he, hack, hu, hg⟩ := modeRequest_falls (c := .requestTrim cl) hb ha rfl hm h (by simp)
    refine ⟨t, he, ⟨hack, hu⟩, fun n hn => ?_⟩
    rw [hg _ _ (by decide) (by decide)]
    exact exitActions_idle hn (by omega)
  · obtain ⟨t, he, hack, hu, hg⟩ := modeRequest_falls (c := .requestCatch cl) hb ha rfl hm h (by simp)
    refine ⟨t, he, ⟨hack, hu⟩, fun n hn h4 => ?_⟩
    rw [hg _ _ (by decide) (by decide), hg _ _ (by decide) (by decide)]
    refine exitActions_locked hn (by omega) ?_
    rw [startTransition_get.2.2.2 _ _ (by decide), received_carriers rfl, ready_get (by decide), h4]
  · obtain ⟨t, he, hack, hu, -⟩ := modeRequest_falls (c := .requestCarry cl) hb ha rfl hm (by omega) (by tauto)
    exact ⟨t, he, hack, hu⟩
  · refine modeRequest_stored ha hc ?_
    have hv : ((v : Nat) : Int) = (ready s cl).get .deviceModeState 0 := by rw [ready_get (by decide), h]
    unfold writeModeRequest
    dsimp only
    rw [if_neg (by omega), if_neg (fun hx => by omega), if_neg (by rw [ready_flag (by decide), hb]; decide), if_pos hv]
  · obtain ⟨t, he, hack, ⟨h1, h2, h3, h4⟩, hx⟩ := requestDormant_starts hb ha h hj
    exact ⟨t, he, hack, h1, h2, h3, h4, hx⟩

end Sys2Proof

/-! # Haven, completion of transitions, carrier requests (R40 to R49) -/

namespace Sys2Proof.Laws

set_option Elab.async false

open Sys2Proof.Machine

variable {s t u : State} {cl : Client} {c : Instr} {r : Reg} {i : Nat} {m v : Int} {l : List Reg}

/-! ## Mute (R44, R45) -/

/-- What an entry to Haven tells beside its transmit policy. -/
abbrev havenRegs : List Reg :=
  [.deviceModeState, .deviceModeBusy, .deviceHavenCauses, .deviceHavenFirstCause, .deviceHavenEntries]

/-- The scope that leaves mode, carriers and guard loops. -/
abbrev muteScope : Scope := fun p => match p with
  | .mode => true
  | .carriers => true
  | .guard => true
  | _ => false

/-- The guard loops held at 620 mV. -/
def guardsHeld (s : State) : State := s.each (List.range 5) fun s g => (s.set .guardSetpoint g 6200).set .xGuardBase g 6200

/-- The carriers quiet as mute takes force. -/
def carriersMuted (s : State) : State :=
  (((s.set .xMute 0 1).set .xPowered 0 1).each carriers fun s c =>
    ((s.toIdle c 4).calAbandonOffline c).refreshConv c).calSettle.refreshBg

theorem muteOn_eq : s.muteOn = guardsHeld (carriersMuted s) := by
  unfold State.muteOn guardsHeld carriersMuted
  rfl

theorem guardsHeld_get (h1 : r ≠ .guardSetpoint) (h2 : r ≠ .xGuardBase) : (guardsHeld s).get r i = s.get r i :=
  get_each fun t a => by rw [get_set_reg _ _ h2, get_set_reg _ _ h1]

theorem guardsHeld_setpoint {g : Nat} (hg : g < 5) : (guardsHeld s).get .guardSetpoint g = 6200 := by
  have h := each_views (s := s) (i := g) (l := List.range 5) (view := fun t i => t.get .guardSetpoint i)
    (g := fun _ => 6200) (f := fun s g => (s.set .guardSetpoint g 6200).set .xGuardBase g 6200)
    (fun t a i => by rw [get_set_reg _ _ (by decide), get_set]; simp) List.nodup_range
  rwa [if_pos (List.mem_range.2 hg)] at h

theorem carriersMuted_mode : Apart (beyond (.xMute :: havenRegs)) (s.set .xMute 0 1) (carriersMuted s) := by
  have := fact_false
  have h : Apart (beyond (.xMute :: havenRegs)) (s.set .xMute 0 1) ((s.set .xMute 0 1).set .xPowered 0 1) :=
    apart_set (Apart.refl _)
  exact h.trans (Kept.beyond (κ := modeScope) (kept_refreshBg (kept_calSettle (kept_each (Kept.refl _) fun _ _ ht =>
    kept_refreshConv (kept_calAbandonOffline (kept_toIdle ht))))))

theorem carriersMuted_idle {n : Nat} (hn : n < 12) : (carriersMuted s).get .carrierState n = 0 := by
  have := fact_false
  unfold carriersMuted
  rw [(kept_refreshBg (κ := carriersScope) (kept_calSettle (Kept.refl _))).get]
  refine each_carriers_get (fun t a i => ?_) hn
  rw [(kept_refreshConv (κ := carriersScope) (kept_calAbandonOffline (Kept.refl _))).get, toIdle_carrierState]

/-- Mute as it stands. -/
def Muted (t : State) : Prop :=
  t.get .xMute 0 = 1 ∧ (∀ c < 12, t.get .carrierState c = 0) ∧ ∀ g < 5, t.get .guardSetpoint g = 6200

theorem muteOn_muted : Muted s.muteOn := by
  rw [muteOn_eq]
  refine ⟨?_, fun n hn => ?_, fun g hg => guardsHeld_setpoint hg⟩
  · rw [guardsHeld_get (by decide) (by decide), carriersMuted_mode.get, get_set_same]
  · rw [guardsHeld_get (by decide) (by decide), carriersMuted_idle hn]

theorem muteOn_mode : Apart (beyond havenRegs) s s.muteOn := by
  have h : Apart (beyond havenRegs) s (s.set .xMute 0 1) := apart_set (Apart.refl s)
  rw [muteOn_eq]
  refine (h.trans carriersMuted_mode.tail).trans (apart_each (Apart.refl _) fun _ _ ht => apart_set (apart_set ht))

theorem Kept.muted (h : Kept muteScope s t) (hm : Muted s) : Muted t := by
  obtain ⟨m1, m2, m3⟩ := hm
  exact ⟨h.get.trans m1, fun c hc => h.get.trans (m2 c hc), fun g hg => h.get.trans (m3 g hg)⟩

/-! ## The entry to Haven (R42, R44) -/

theorem apart_abandonTransition : Apart (beyond havenRegs) (s.set .deviceModeBusy 0 0) s.abandonTransition := by
  have := fact_false
  have h : Apart (beyond havenRegs) (s.set .deviceModeBusy 0 0) ((s.set .deviceModeBusy 0 0).set .xTrimReady 0 0) :=
    apart_set (Apart.refl _)
  exact h.trans (Kept.beyond (κ := modeScope) (kept_each (Kept.refl _) fun _ _ ht => kept_calAbandon ht))

/-- The scope that leaves mode, settings and what an orderly shutdown keeps. -/
abbrev policyScope : Scope := fun p => match p with
  | .mode => true
  | .settings => true
  | .thermal => true
  | _ => false

/-- The scope that leaves the settings. -/
abbrev settingsScope : Scope := fun p => match p with
  | .settings => true
  | _ => false

/-- The causes that are established: a running orderly shutdown gives bit 5 with those named. -/
def havenCauses (n : Nat) (s : State) : Nat := if s.flag .xShutdown 0 then n ||| 32 else n

/-- Causes that mute whatever the policy. -/
def hardCauses (bits : Nat) : Bool := bits &&& 0x32 != 0

/-- The entry to Haven up to its transmit policy. -/
def havenEntered (s : State) (bits : Nat) : State :=
  let s := s.abandonTransition
  let s := s.bump .deviceHavenEntries 0 |>.set .deviceHavenCauses 0 (bits : Nat)
    |>.set .deviceHavenFirstCause 0 (topBit bits : Nat)
  let s := if s.get .pairRole 0 = 0 then s else s.endRole
  (s.set .deviceModeState 0 5).set .xMute 0 0 |>.set .xHavenPeriod 0 s.loopPeriod |>.lanesUp

/-- The entry with its transmit policy in force. -/
def havenPolicy (s : State) (hard : Bool) : State :=
  if hard || s.get .deviceHavenTxPolicy 0 == 0 then s.muteOn else s.refreshBg

/-- The rest of an entry. -/
def havenTold (s : State) (was : Int) : State :=
  ((if s.get .deviceHavenKeyPolicy 0 = 1 then s.eraseAllSlots else s).raiseKept (evDev 0)
    ((if s.get .deviceHavenKeyPolicy 0 = 1 then s.eraseAllSlots else s).modeDetail was 5)).stopRecord

theorem repairsGoOn_shutdown : s.repairsGoOn.flag .xShutdown 0 = s.flag .xShutdown 0 := by
  have := fact_false
  simp only [State.flag, (kept_repairsGoOn (κ := policyScope) (Kept.refl s)).get (r := .xShutdown)]

theorem haven_enters {n : Nat} (h : s.get .deviceModeState 0 ≠ 5) : s.haven n
    = havenTold (havenPolicy (havenEntered s.repairsGoOn (havenCauses n s)) (hardCauses (havenCauses n s)))
      (s.repairsGoOn.get .deviceModeState 0) := by
  have := fact_false
  have h5 : s.repairsGoOn.get .deviceModeState 0 ≠ 5 := by
    rwa [(kept_repairsGoOn (κ := policyScope) (Kept.refl s)).get]
  unfold State.haven
  dsimp only
  rw [if_neg h5, repairsGoOn_shutdown]
  unfold havenTold havenPolicy havenEntered havenCauses hardCauses
  cases s.flag .xShutdown 0 <;> rfl

theorem havenEntered_get {bits : Nat} :
    let t := havenEntered s bits
    t.get .deviceModeState 0 = 5 ∧ t.get .deviceModeBusy 0 = 0 ∧ t.get .deviceHavenCauses 0 = bits
      ∧ t.get .deviceHavenFirstCause 0 = topBit bits ∧ Safety.countedBy s t .deviceHavenEntries 0 1
      ∧ t.get .deviceHavenTxPolicy 0 = s.get .deviceHavenTxPolicy 0 := by
  have := fact_false
  unfold havenEntered
  extract_lets a b d
  have ha : Apart (beyond havenRegs) (s.set .deviceModeBusy 0 0) a := apart_abandonTransition
  have kp : Kept policyScope b d := kept_ite (Kept.refl b) (kept_endRole (Kept.refl b))
  have kl : ∀ x : State, Kept policyScope x x.lanesUp := fun x => kept_lanesUp (Kept.refl x)
  have policy : a.get .deviceHavenTxPolicy 0 = s.get .deviceHavenTxPolicy 0 := by
    have hs : Kept settingsScope s a := kept_abandonTransition (Kept.refl s)
    exact hs.get
  have entries : b.get .deviceHavenEntries 0 = ((s.nat .deviceHavenEntries 0 + 1) % 2 ^ Reg.bits .deviceHavenEntries : Nat) := by
    have hn : a.nat .deviceHavenEntries 0 = s.nat .deviceHavenEntries 0 := by
      rw [State.nat, ha.get, get_set_reg _ _ (by decide), State.nat]
    rw [get_set_reg _ _ (by decide), get_set_reg _ _ (by decide), get_bump_same, hn]
  refine ⟨?_, ?_, ?_, ?_, ?_, ?_⟩
  · rw [(kl _).get, get_set_reg _ _ (by decide), get_set_reg _ _ (by decide), get_set_same]
  · rw [(kl _).get, get_set_reg _ _ (by decide), get_set_reg _ _ (by decide), get_set_reg _ _ (by decide), kp.get,
      get_set_reg _ _ (by decide), get_set_reg _ _ (by decide), get_bump_other (.inl (by decide)), ha.get, get_set_same]
  · rw [(kl _).get, get_set_reg _ _ (by decide), get_set_reg _ _ (by decide), get_set_reg _ _ (by decide), kp.get,
      get_set_reg _ _ (by decide), get_set_same]
  · rw [(kl _).get, get_set_reg _ _ (by decide), get_set_reg _ _ (by decide), get_set_reg _ _ (by decide), kp.get,
      get_set_same]
  · rw [Safety.countedBy, (kl _).get, get_set_reg _ _ (by decide), get_set_reg _ _ (by decide),
      get_set_reg _ _ (by decide), kp.get, entries]
  · rw [(kl _).get, get_set_reg _ _ (by decide), get_set_reg _ _ (by decide), get_set_reg _ _ (by decide), kp.get,
      get_set_reg _ _ (by decide), get_set_reg _ _ (by decide), get_bump_other (.inl (by decide)), policy]

theorem havenPolicy_mode {hard : Bool} : Apart (beyond havenRegs) s (havenPolicy s hard) := by
  have := fact_false
  exact apart_ite muteOn_mode (Kept.beyond (κ := modeScope) (kept_refreshBg (Kept.refl s)))

theorem havenTold_kept : Kept muteScope s (havenTold s v) := by
  have := fact_false
  exact kept_stopRecord (kept_raiseKept (kept_ite (kept_eraseAllSlots (Kept.refl s)) (Kept.refl s)))

/-- An entry to Haven (R42, R44, R45). -/
theorem haven_entry {n : Nat} (h : s.get .deviceModeState 0 ≠ 5) :
    let t := s.haven n
    t.get .deviceModeState 0 = 5 ∧ t.get .deviceModeBusy 0 = 0 ∧ t.get .deviceHavenCauses 0 = havenCauses n s
      ∧ t.get .deviceHavenFirstCause 0 = topBit (havenCauses n s) ∧ Safety.countedBy s t .deviceHavenEntries 0 1
      ∧ (s.get .deviceHavenTxPolicy 0 = 0 ∨ hardCauses (havenCauses n s) = true → Muted t) := by
  have := fact_false
  have kr : Kept policyScope s s.repairsGoOn := kept_repairsGoOn (Kept.refl s)
  obtain ⟨h1, h2, h3, h4, h5, h6⟩ := havenEntered_get (s := s.repairsGoOn) (bits := havenCauses n s)
  rw [haven_enters h]
  generalize havenEntered s.repairsGoOn (havenCauses n s) = x at *
  have hm : Apart (beyond havenRegs) x (havenPolicy x (hardCauses (havenCauses n s))) := havenPolicy_mode
  have muted : s.get .deviceHavenTxPolicy 0 = 0 ∨ hardCauses (havenCauses n s) = true →
      Muted (havenPolicy x (hardCauses (havenCauses n s))) := by
    intro hp
    unfold havenPolicy
    rw [if_pos]
    · exact muteOn_muted
    · rw [h6, kr.get]
      simpa [or_comm] using hp
  generalize havenPolicy x (hardCauses (havenCauses n s)) = y at hm muted
  have ky : Kept muteScope y (havenTold y (s.repairsGoOn.get .deviceModeState 0)) := havenTold_kept
  refine ⟨?_, ?_, ?_, ?_, ?_, fun hp => ky.muted (muted hp)⟩
  · rw [ky.get, hm.get, h1]
  · rw [ky.get, hm.get, h2]
  · rw [ky.get, hm.get, h3]
  · rw [ky.get, hm.get, h4]
  · rw [Safety.countedBy, ky.get, hm.get, h5, State.nat, State.nat, kr.get]

/-! ## Causes that join a stay in Haven (R42, R44) -/

theorem apart_backInHaven : Apart (beyond havenRegs) (s.set .deviceModeBusy 0 0) s.backInHaven := by
  have := fact_false
  have ha : Apart (beyond havenRegs) (s.set .deviceModeBusy 0 0) (s.abandonTransition.set .xPowered 0 1) :=
    apart_set apart_abandonTransition
  unfold State.backInHaven
  extract_lets a b
  have hb : Apart (beyond havenRegs) (s.set .deviceModeBusy 0 0) b := ha.trans (Kept.beyond (κ := modeScope)
    (kept_each (kept_lanesUp (Kept.refl _)) fun _ _ ht => kept_refreshConv ht))
  exact apart_ite (hb.trans muteOn_mode) (hb.trans (Kept.beyond (κ := modeScope) (kept_refreshBg (Kept.refl b))))

/-- Causes noted, and a transition in progress given up. -/
def causesJoined (s : State) (bits : Nat) : State :=
  let s := s.set .deviceHavenCauses 0 (s.nat .deviceHavenCauses 0 ||| bits : Nat)
  let s := if bits = 1 then s else s.set .xCausePeriod 0 s.loopPeriod
  if s.flag .deviceModeBusy 0 then s.backInHaven else s

theorem haven_joins {n : Nat} (h : s.get .deviceModeState 0 = 5) : s.haven n
    = ((causesJoined s.repairsGoOn (havenCauses n s)).when (hardCauses (havenCauses n s)
      && !(causesJoined s.repairsGoOn (havenCauses n s)).flag .xMute 0) State.muteOn).stopRecord := by
  have := fact_false
  have h5 : s.repairsGoOn.get .deviceModeState 0 = 5 := by
    rwa [(kept_repairsGoOn (κ := policyScope) (Kept.refl s)).get]
  unfold State.haven
  dsimp only
  rw [if_pos h5, repairsGoOn_shutdown]
  unfold causesJoined havenCauses hardCauses State.when
  cases s.flag .xShutdown 0 <;> rfl

theorem causesJoined_get {bits : Nat} :
    let t := causesJoined s bits
    t.get .deviceModeState 0 = s.get .deviceModeState 0 ∧ t.get .deviceModeBusy 0 = 0
      ∧ t.nat .deviceHavenCauses 0 = s.nat .deviceHavenCauses 0 ||| bits
      ∧ t.get .deviceHavenFirstCause 0 = s.get .deviceHavenFirstCause 0
      ∧ t.get .deviceHavenEntries 0 = s.get .deviceHavenEntries 0 := by
  unfold causesJoined
  extract_lets a b
  have hb : Apart (beyond havenRegs) a b := apart_ite (Apart.refl a) (apart_set (Apart.refl a))
  have given : Apart (beyond havenRegs) (b.set .deviceModeBusy 0 0) (if b.flag .deviceModeBusy 0 then b.backInHaven else b) := by
    split
    · exact apart_backInHaven
    · rename_i hn
      have h0 : b.get .deviceModeBusy 0 = 0 := by simpa [State.flag] using hn
      refine ⟨fun r i _ => ?_, fun r i _ => rfl⟩
      by_cases hr : r = .deviceModeBusy ∧ i = 0
      · obtain ⟨rfl, rfl⟩ := hr
        rw [h0, get_set_same]
      · rw [get_set, if_neg hr]
  refine ⟨?_, ?_, ?_, ?_, ?_⟩
  · rw [given.get, get_set_reg _ _ (by decide), hb.get, get_set_reg _ _ (by decide)]
  · rw [given.get, get_set_same]
  · rw [State.nat, given.get, get_set_reg _ _ (by decide), hb.get, get_set_same, Int.toNat_natCast]
  · rw [given.get, get_set_reg _ _ (by decide), hb.get, get_set_reg _ _ (by decide)]
  · rw [given.get, get_set_reg _ _ (by decide), hb.get, get_set_reg _ _ (by decide)]

theorem haven_stay {n : Nat} (h : s.get .deviceModeState 0 = 5) :
    let t := s.haven n
    t.get .deviceModeState 0 = 5 ∧ t.get .deviceModeBusy 0 = 0
      ∧ t.nat .deviceHavenCauses 0 = s.nat .deviceHavenCauses 0 ||| havenCauses n s
      ∧ t.get .deviceHavenFirstCause 0 = s.get .deviceHavenFirstCause 0
      ∧ t.get .deviceHavenEntries 0 = s.get .deviceHavenEntries 0 := by
  have := fact_false
  have kr : Kept policyScope s s.repairsGoOn := kept_repairsGoOn (Kept.refl s)
  obtain ⟨h1, h2, h3, h4, h5⟩ := causesJoined_get (s := s.repairsGoOn) (bits := havenCauses n s)
  rw [haven_joins h]
  generalize causesJoined s.repairsGoOn (havenCauses n s) = x at *
  have ht : Apart (beyond havenRegs) x ((x.when (hardCauses (havenCauses n s) && !x.flag .xMute 0) State.muteOn).stopRecord) :=
    (apart_when (Apart.refl x) fun _ => muteOn_mode).trans (Kept.beyond (κ := modeScope) (kept_stopRecord (Kept.refl _)))
  refine ⟨?_, ?_, ?_, ?_, ?_⟩
  · rw [ht.get, h1, kr.get, h]
  · rw [ht.get, h2]
  · rw [State.nat, ht.get, ← State.nat, h3, State.nat, State.nat, kr.get]
  · rw [ht.get, h4, kr.get]
  · rw [ht.get, h5, kr.get]

/-! ## Completion (R40) -/

/-- The state in which the completion of a transition raises source 0. -/
def completed (s : State) (failed : List Nat) : State :=
  let m := s.get .deviceModeState 0
  let t := s.get .xTarget 0
  let s := (s.set .deviceModeState 0 t).set .deviceModeBusy 0 0 |>.set .xTrimReady 0 0
  let s := if m = 5 then (s.set .deviceHavenCauses 0 0).set .xMute 0 0 else s
  let s := if t = 1 then
      let s := (s.lanesUp).coresTested failed
      if s.get .tieState 0 = 0 then s.set .tieState 0 1 else s
    else s
  let s := if m = 1 ∧ t = 2 then s.testsOff else s
  let s := if t = 4 then s.startRole else s
  s.refreshBg

/-- The scope that leaves what events were raised. -/
abbrev eventsScope : Scope := fun p => match p with
  | .events => true
  | _ => false

theorem get_each_mem {α : Type} {l : List α} {f : State → α → State}
    (h : ∀ t, ∀ a ∈ l, (f t a).get r i = t.get r i) : (s.each l f).get r i = s.get r i := by
  induction l generalizing s with
  | nil => rfl
  | cons a l ih =>
    rw [each_cons, ih fun t b hb => h t b (List.mem_cons_of_mem _ hb), h s a List.mem_cons_self]

/-- The count of source 0 of the device. -/
abbrev transitions (s : State) : Int := s.get .eventCount (evDev 0)

theorem transitions_raise {e : Nat} {d : List Item} (h : evDev 0 ≠ e) : transitions (s.raise e d) = transitions s :=
  count_raise_other (by decide) h

theorem transitions_capacityCheck : transitions s.capacityCheck = transitions s := by
  have := fact_false
  unfold State.capacityCheck
  extract_lets tx rx cores cap d order outTx left outRx same a b d' e f
  have ha : transitions a = transitions s := by
    simp (disch := decide) only [transitions, a, get_set_reg]
  split
  · exact ha
  · have kf : Kept eventsScope a (f.set .cipherShed 0 (outTx.length + outRx.length : Nat)) := by
      have kb : Kept eventsScope a b := kept_each (Kept.refl a) fun _ _ ht => kept_set ht (hr := rfl)
      have kd : Kept eventsScope a d' := kept_each kb fun _ _ ht => kept_set ht (hr := rfl)
      have ke : Kept eventsScope a e := kept_each kd fun _ _ ht => kept_set ht (hr := rfl)
      exact kept_set (kept_each ke fun _ _ ht => kept_set ht (hr := rfl)) (hr := rfl)
    rw [transitions_raise (by decide)]
    exact kf.get.trans ha

theorem transitions_coresTested {failed : List Nat} : transitions (s.coresTested failed) = transitions s :=
  transitions_capacityCheck.trans (get_set_reg _ _ (by decide))

theorem transitions_portLose {p n : Nat} {b : Bool} (hp : p < 48) : transitions (s.portLose p n b) = transitions s := by
  have := fact_false
  have hev : evDev 0 ≠ evPort p 0 := by unfold evDev evPort; omega
  have ev : ∀ x : State, transitions (x.portEval p) = transitions x := fun x =>
    (kept_portEval (κ := eventsScope) (Kept.refl x)).get
  unfold State.portLose
  split
  · rfl
  · split
    · extract_lets a d
      have kd : Kept eventsScope s d := by
        have ka : Kept eventsScope s a :=
          kept_setFlag (kept_bump (kept_set (kept_set (kept_set (Kept.refl s) (hr := rfl)) (hr := rfl)) (hr := rfl)) (hr := rfl))
            (hr := rfl)
        exact kept_ite (kept_bump ka (hr := rfl)) ka
      rw [ev]
      exact (show _ = _ from (count_raiseMarked (by decide)).trans (if_neg hev)).trans kd.get
    · rw [ev]
      exact Kept.get (κ := eventsScope) (kept_set (kept_ite (kept_set (Kept.refl s) (hr := rfl)) (Kept.refl s)) (hr := rfl))

theorem transitions_laneAgain {h : Nat} (hh : h < 96) : transitions (s.laneAgain h) = transitions s := by
  have := fact_false
  unfold State.laneAgain State.octetChanged
  split
  · rw [transitions, (kept_portsEval (κ := eventsScope) (Kept.refl _)).get]
    rw [get_each_mem fun t p hp => transitions_portLose ?_]
    · exact Kept.get (κ := eventsScope)
        (kept_laneStep (kept_set (kept_set (kept_set (Kept.refl s) (hr := rfl)) (hr := rfl)) (hr := rfl)))
    · simp only [State.enabledPorts, List.mem_filter, portsOf, List.mem_cons, List.not_mem_nil, or_false] at hp
      omega
  · rfl

theorem transitions_testsOff : transitions s.testsOff = transitions s := by
  unfold State.testsOff
  refine get_each_mem fun t h hh => ?_
  have h96 : h < 96 := List.mem_range.1 (List.mem_filter.1 hh).1
  dsimp only
  split
  · refine (transitions_laneAgain h96).trans ?_
    simp (disch := decide) only [transitions, get_set_reg]
  · simp (disch := decide) only [get_set_reg]

theorem transitions_setReady {b : Bool} : transitions (s.setReady b) = transitions s := by
  unfold State.setReady
  split
  · rfl
  · exact (transitions_raise (by decide)).trans (get_set_reg _ _ (by decide))

theorem transitions_startRole : transitions s.startRole = transitions s := by
  have := fact_false
  unfold State.startRole
  extract_lets a b
  have kb : Kept eventsScope s b :=
    kept_each (kept_set (Kept.refl s) (hr := rfl)) fun _ _ ht => kept_set (kept_setFlag ht (hr := rfl)) (hr := rfl)
  split
  · exact Kept.get (κ := eventsScope) (kept_each (kept_switchOut kb) fun _ _ ht => kept_leaseFirst ht)
  · unfold State.judgeReady
    split
    · exact transitions_setReady.trans kb.get
    · exact kb.get

/-- Neither the mode nor the count of transitions changes. -/
structure SameMode (s t : State) : Prop where
  mode : t.get .deviceModeState 0 = s.get .deviceModeState 0
  busy : t.get .deviceModeBusy 0 = s.get .deviceModeBusy 0
  count : transitions t = transitions s

theorem SameMode.refl : SameMode s s := ⟨rfl, rfl, rfl⟩

theorem SameMode.trans (h : SameMode s t) (g : SameMode t u) : SameMode s u :=
  ⟨g.mode.trans h.mode, g.busy.trans h.busy, g.count.trans h.count⟩

theorem SameMode.ite {p : Prop} [Decidable p] (ht : SameMode s t) (hu : SameMode s u) : SameMode s (if p then t else u) := by
  split <;> assumption

theorem SameMode.of_kept (h : Kept modeScope s t) (hc : transitions t = transitions s) : SameMode s t :=
  ⟨h.get, h.get, hc⟩

theorem SameMode.set (h : SameMode s t) (h1 : r ≠ .deviceModeState := by decide) (h2 : r ≠ .deviceModeBusy := by decide)
    (h3 : r ≠ .eventCount := by decide) : SameMode s (t.set r i v) :=
  h.trans ⟨get_set_reg _ _ h1.symm, get_set_reg _ _ h2.symm, get_set_reg _ _ h3.symm⟩

theorem completed_reports {failed : List Nat} :
    (completed s failed).get .deviceModeState 0 = s.get .xTarget 0 ∧ (completed s failed).get .deviceModeBusy 0 = 0
      ∧ transitions (completed s failed) = transitions s := by
  have := fact_false
  unfold completed
  extract_lets now next a b d e f g
  have hb : SameMode a b := SameMode.ite (SameMode.refl.set.set) SameMode.refl
  have hd : SameMode b d := by
    have hl : SameMode b b.lanesUp :=
      .of_kept (kept_lanesUp (Kept.refl b)) (kept_lanesUp (κ := eventsScope) (Kept.refl b)).get
    exact hl.trans (.of_kept (kept_coresTested (Kept.refl _)) transitions_coresTested)
  have he : SameMode b e := SameMode.ite (SameMode.ite hd.set hd) SameMode.refl
  have hf : SameMode e f := SameMode.ite (.of_kept (kept_testsOff (Kept.refl e)) transitions_testsOff) SameMode.refl
  have hg : SameMode f g := SameMode.ite (.of_kept (kept_startRole (Kept.refl f)) transitions_startRole) SameMode.refl
  have hx : SameMode g g.refreshBg :=
    .of_kept (kept_refreshBg (Kept.refl g)) (kept_refreshBg (κ := eventsScope) (Kept.refl g)).get
  have h : SameMode a g.refreshBg := hb.trans (he.trans (hf.trans (hg.trans hx)))
  refine ⟨h.mode.trans ?_, h.busy.trans ?_, h.count.trans ?_⟩
  · simp (disch := decide) only [a, get_set_reg, get_set_same]
    rfl
  · simp (disch := decide) only [a, get_set_reg, get_set_same]
  · simp (disch := decide) only [a, transitions, get_set_reg]

theorem transitionDone_eq {failed : List Nat} :
    ∃ d, s.transitionDone failed = (completed s failed).raise (evDev 0) d := by
  unfold State.transitionDone completed
  exact ⟨_, rfl⟩

/-! ## Requests for Haven -/

theorem writeModeRequest_haven : writeModeRequest 5 s = ((s.set .deviceModeRequest 0 5).haven 1, accepted) := by
  unfold writeModeRequest
  exact if_pos rfl

theorem requestHaven_acked (ha : Safety.allowed s cl .deviceModeRequest 0 (.int 5)) :
    ∃ t, exec (.requestHaven cl) s = .next t ∧ Safety.acked s t cl ∧ ∀ r i, r ≠ .bdapAborts → r ≠ .mgtFramesTx →
      t.get r i = (((ready s cl).set .deviceModeRequest 0 5).haven 1).get r i := by
  obtain ⟨t, he, hack, hg, -⟩ := modeRequest_accepted (c := .requestHaven cl) ha rfl writeModeRequest_haven
  exact ⟨t, he, hack, hg⟩

theorem ready_request_get (h1 : r ≠ .bdapRequests) (h2 : r ≠ .deviceModeRequest) :
    ((ready s cl).set .deviceModeRequest 0 5).get r i = s.get r i := by
  rw [get_set_reg _ _ h2, ready_get h1]

theorem ready_request_causes {n : Nat} :
    havenCauses n ((ready s cl).set .deviceModeRequest 0 5) = havenCauses n s := by
  rw [havenCauses, State.flag, ready_request_get (by decide) (by decide)]
  rfl

theorem requestCauses : havenCauses 1 s = (if s.flag .xShutdown 0 = true then 33 else 1)
    ∧ topBit (havenCauses 1 s) = (if s.flag .xShutdown 0 = true then 5 else 0)
    ∧ hardCauses (havenCauses 1 s) = s.flag .xShutdown 0 := by
  unfold havenCauses
  cases s.flag .xShutdown 0 <;> decide

/-! ## Carrier requests (R47, R49) -/

section Requests

variable {n k : Nat}

theorem toIdle_request : (s.toIdle n v).get .carrierRequest k = s.get .carrierRequest k := by
  have := fact_false
  cases hi : s.idle n with
  | true => rw [toIdle_of_idle hi, get_set_reg _ _ (by decide), get_set_reg _ _ (by decide)]
  | false =>
    rw [toIdle_eq hi, kept_idleLines.get, get_set_reg _ _ (by decide), kept_idleReceive.get, idleNoted,
      (kept_leaveHeld (κ := carriersScope) (kept_emptySlack (Kept.refl _))).get,
      setCarrierState_get_other (by decide) (by decide), (kept_bondDrop (κ := carriersScope) (Kept.refl _)).get,
      noteDrop_get (by decide), get_set_reg _ _ (by decide), get_set_reg _ _ (by decide)]

/-- A carrier in no group is in none after its entry to Idle. -/
theorem toIdle_noGroup (h : s.get .carrierBondGroup n = 0xFF) : (s.toIdle n v).get .carrierBondGroup n = 0xFF := by
  have := fact_false
  cases hi : s.idle n with
  | true => rw [toIdle_of_idle hi, get_set_reg _ _ (by decide), get_set_reg _ _ (by decide), h]
  | false =>
    have hg : (((s.set .xRaising n 0).set .xBondExit n 0).noteDrop n v).get .carrierBondGroup n = 0xFF := by
      rw [noteDrop_get (by decide), get_set_reg _ _ (by decide), get_set_reg _ _ (by decide), h]
    rw [toIdle_eq hi, kept_idleLines.get, get_set_reg _ _ (by decide), kept_idleReceive.get, idleNoted,
      (kept_leaveHeld (κ := membersScope) (kept_emptySlack (Kept.refl _))).get,
      setCarrierState_get_other (by decide) (by decide), State.bondDrop, if_pos hg, hg]

/-- What a request does to its carrier. -/
def carrierMoved (n : Nat) (v : Int) (s : State) : State :=
  if v = 0 then (s.toIdle n 3).calSettle
  else if v = 1 ∧ s.get .carrierState n = 4 then (s.setCarrierState n csLocked).set .carrierLastDrop n 3
  else s

theorem carrierMoved_request : (carrierMoved n v s).get .carrierRequest k = s.get .carrierRequest k := by
  have := fact_false
  unfold carrierMoved
  split
  · rw [(kept_calSettle (κ := carriersScope) (Kept.refl _)).get, toIdle_request]
  · split
    · rw [get_set_reg _ _ (by decide), setCarrierState_get_other (by decide) (by decide)]
    · rfl

theorem carrierMoved_noGroup (h : s.get .carrierBondGroup n = 0xFF) :
    (carrierMoved n v s).get .carrierBondGroup n = 0xFF := by
  have := fact_false
  unfold carrierMoved
  split
  · rw [(kept_calSettle (κ := membersScope) (Kept.refl _)).get, toIdle_noGroup h]
  · split
    · rw [get_set_reg _ _ (by decide), setCarrierState_get_other (by decide) (by decide), h]
    · exact h

theorem writeCarrierRequest_alone (h : s.get .carrierBondGroup n = 0xFF) :
    writeCarrierRequest n v s = (carrierMoved n v (s.set .carrierRequest n v), accepted) := by
  unfold writeCarrierRequest
  dsimp only
  refine if_pos (carrierMoved_noGroup ?_)
  rw [get_set_reg _ _ (by decide), h]

/-! ### The exit from Idle leaves every request -/

theorem seekEntry_kept :
    Kept carriersScope (((s.noteDrop n v).bondDrop n).setCarrierState n csSeeking) (s.seekEntry n v) := by
  have := fact_false
  unfold State.seekEntry
  extract_lets run a b d e f g h x
  have kb : Kept carriersScope (a.setCarrierState n csSeeking) b := kept_listTaken (Kept.refl _)
  have kd : Kept carriersScope (a.setCarrierState n csSeeking) d := kept_ite kb (kept_surveyAll kb)
  have ke : Kept carriersScope (a.setCarrierState n csSeeking) e := kept_set kd (hr := rfl)
  have kf : Kept carriersScope (a.setCarrierState n csSeeking) f :=
    kept_ite (kept_set (kept_set (kept_bankFinish ke) (hr := rfl)) (hr := rfl)) ke
  have kg : Kept carriersScope (a.setCarrierState n csSeeking) g :=
    kept_pageSettle (kept_defectsSeeking (kept_clearMonitors kf))
  clear_value g
  refine kept_polQueue (kept_setRx (kept_catchSettings ?_))
  repeat' first | with_reducible apply kept_set | with_reducible apply kept_setBlob | exact kg | exact rfl

theorem toSeeking_kept :
    Kept carriersScope (((s.noteDrop n v).bondDrop n).setCarrierState n csSeeking) (s.toSeeking n v) := by
  have := fact_false
  have h : Kept carriersScope (((s.noteDrop n v).bondDrop n).setCarrierState n csSeeking) (s.seekEntry n v) :=
    seekEntry_kept
  unfold State.toSeeking
  extract_lets a b
  have hb : Kept carriersScope (((s.noteDrop n v).bondDrop n).setCarrierState n csSeeking) b := kept_seekState (kept_retune h)
  exact kept_refreshRx (kept_refreshConv (kept_rxFigures hb))

theorem toSeeking_request : (s.toSeeking n v).get .carrierRequest k = s.get .carrierRequest k := by
  have := fact_false
  rw [toSeeking_kept.get, setCarrierState_get_other (by decide) (by decide),
    (kept_bondDrop (κ := carriersScope) (Kept.refl _)).get, noteDrop_get (by decide)]

theorem leaveIdle_request : (s.leaveIdle n).get .carrierRequest k = s.get .carrierRequest k := by
  have := fact_false
  unfold State.leaveIdle
  extract_lets prof target a b d e f g h
  have ka : Kept carriersScope s a := by
    refine kept_set (kept_set (kept_txRetune ?_) (hr := rfl)) (hr := rfl)
    repeat' first | with_reducible apply kept_set | exact Kept.refl s | exact rfl
  have kd : Kept carriersScope s d :=
    kept_refreshCap (kept_txFigures (kept_setRx (kept_setTx (kept_set (kept_emptySlack ka) (hr := rfl)))))
  have ke : Kept carriersScope s e := by
    unfold e
    clear_value d
    repeat' first | with_reducible apply kept_set | with_reducible apply kept_setBlob | exact kd | exact rfl
  have kf : Kept carriersScope s (f.blocksNow n) := kept_blocksNow (kept_bankRefit (kept_bankRefit ke))
  have kh : Kept carriersScope g h := kept_ite (Kept.refl g) (kept_bankRefit (Kept.refl g))
  rw [(kept_reportUnreciprocated (κ := carriersScope) (kept_reportUnreciprocated kh)).get, toSeeking_request, kf.get]

theorem leaveTogether_request {g : Nat} : (s.leaveTogether g).get .carrierRequest k = s.get .carrierRequest k :=
  get_each fun t a => by rw [get_set_reg _ _ (by decide), leaveIdle_request]

theorem writeCarrierRequest_stores : (writeCarrierRequest n v s).1.get .carrierRequest n = v
    ∧ (writeCarrierRequest n v s).2 = accepted := by
  have := fact_false
  have hm : (carrierMoved n v (s.set .carrierRequest n v)).get .carrierRequest n = v := by
    rw [carrierMoved_request, get_set_same]
  unfold writeCarrierRequest
  extract_lets a b g others d
  change b.get .carrierRequest n = v at hm
  have hd : d.get .carrierRequest n = v := by
    unfold d
    split
    · rw [leaveTogether_request, hm]
    · exact hm
  have kt : Kept carriersScope d (d.tryAlign g) := kept_tryAlign (Kept.refl d)
  split
  · exact ⟨hm, rfl⟩
  · split
    · exact ⟨kt.get.trans hd, rfl⟩
    · exact ⟨hd, rfl⟩

/-- What a request does to the carrier it names. -/
theorem carrierMoved_idle : (carrierMoved n 0 s).get .carrierState n = 0 := by
  have := fact_false
  unfold carrierMoved
  rw [if_pos rfl, (kept_calSettle (κ := carriersScope) (Kept.refl _)).get, toIdle_carrierState, if_pos rfl]

theorem carrierMoved_locked (h : s.get .carrierState n = 4) : (carrierMoved n 1 s).get .carrierState n = 3
    ∧ (carrierMoved n 1 s).get .carrierLastDrop n = 3 := by
  unfold carrierMoved
  rw [if_neg (by decide), if_pos ⟨rfl, h⟩]
  refine ⟨?_, get_set_same _ _ _ _⟩
  rw [get_set_reg _ _ (by decide), setCarrierState_get, if_pos rfl]
  rfl

end Requests

end Sys2Proof.Laws

namespace Sys2Proof

open Sys2Proof.Machine Sys2Proof.Laws

/-- Settles O15: an entry to Haven, a stay in it, and a transition that ends. -/
theorem havenIsEnteredAndTransitionsComplete : Obligations.HavenIsEnteredAndTransitionsComplete := by
  refine ⟨⟨fun s cl ha h => ?_, fun s cl ha h => ?_⟩, fun s failed hp hb => ?_⟩
  · obtain ⟨t, he, hack, hg⟩ := requestHaven_acked ha
    obtain ⟨h1, h2, h3, h4, h5, h6⟩ := haven_entry (s := (ready s cl).set .deviceModeRequest 0 5)
      (by rwa [ready_request_get (by decide) (by decide)])
    refine ⟨t, he, hack, ?_, ?_, ?_, ?_, ?_, fun hp => ?_⟩
    · rw [hg _ _ (by decide) (by decide), h1]
    · rw [hg _ _ (by decide) (by decide), h2]
    · rw [hg _ _ (by decide) (by decide), h3, ready_request_causes, requestCauses.1]
      split <;> rfl
    · rw [hg _ _ (by decide) (by decide), h4, ready_request_causes, requestCauses.2.1]
      split <;> rfl
    · rw [Safety.countedBy, hg _ _ (by decide) (by decide), h5, State.nat, State.nat,
        ready_request_get (by decide) (by decide)]
    · obtain ⟨m1, m2, m3⟩ := h6 (by
        rwa [ready_request_get (by decide) (by decide), ready_request_causes, requestCauses.2.2])
      refine ⟨?_, fun c hc => ?_, fun g hg5 => ?_⟩
      · rw [hg _ _ (by decide) (by decide), m1]
      · rw [hg _ _ (by decide) (by decide), m2 c hc]
      · rw [hg _ _ (by decide) (by decide), m3 g hg5]
  · obtain ⟨t, he, hack, hg⟩ := requestHaven_acked ha
    obtain ⟨h1, h2, h3, h4, h5⟩ := haven_stay (s := (ready s cl).set .deviceModeRequest 0 5)
      (by rwa [ready_request_get (by decide) (by decide)])
    refine ⟨t, he, hack, ?_, ?_, ?_, ?_, ?_⟩
    · rw [hg _ _ (by decide) (by decide), h1]
    · rw [hg _ _ (by decide) (by decide), h2]
    · rw [State.nat, hg _ _ (by decide) (by decide), ← State.nat, h3, ready_request_causes, requestCauses.1, State.nat,
        State.nat, ready_request_get (by decide) (by decide)]
    · rw [hg _ _ (by decide) (by decide), h4, ready_request_get (by decide) (by decide)]
    · rw [hg _ _ (by decide) (by decide), h5, ready_request_get (by decide) (by decide)]
  · have he : exec (.modeTransitionComplete failed) s
        = .next (if s.transitionReady then s.transitionDone (failed.map Fin.val) else s) := by
      refine (live_running (f := fun s => if s.flag .deviceModeBusy 0 && s.transitionReady then
        s.transitionDone (failed.map Fin.val) else s) hp).trans ?_
      rw [hb, Bool.true_and]
    refine ⟨_, he, fun hr => ?_, fun hr => if_neg (by simp [hr])⟩
    obtain ⟨h1, h2, h3⟩ := completed_reports (s := s) (failed := failed.map Fin.val)
    obtain ⟨d, hd⟩ := transitionDone_eq (s := s) (failed := failed.map Fin.val)
    rw [if_pos hr, hd]
    exact ⟨(get_raise (by decide)).trans h1, (get_raise (by decide)).trans h2, raised_raise h3 (by decide)⟩

/-- Settles O16: the request is stored before its carrier moves, and nothing after that writes a request. -/
theorem carrierRequestsAreStoredAndActedOn : Obligations.CarrierRequestsAreStoredAndActedOn := by
  intro s cl c v ha
  have := fact_false
  have hk := (kept_writeCarrierRequest (κ := noScope) (c := c) (v := v.val) (Kept.refl (ready s cl))).out
  rw [ready_out] at hk
  obtain ⟨hs, hr⟩ := writeCarrierRequest_stores (s := ready s cl) (n := c) (v := v.val)
  have alone : s.get .carrierBondGroup c = 0xFF → (writeCarrierRequest c v.val (ready s cl)).1
      = carrierMoved c v.val ((ready s cl).set .carrierRequest c v.val) := fun hg => by
    rw [writeCarrierRequest_alone (by rwa [ready_get (by decide)])]
  generalize hw : writeCarrierRequest c v.val (ready s cl) = p at *
  obtain ⟨u, b⟩ := p
  simp only at hr hs alone hk
  subst hr
  obtain ⟨a, he, hack⟩ := write_acked (c := .carrierRequest cl c v) ha rfl hw hk
  have hg : ∀ r i, r ≠ .bdapAborts → r ≠ .mgtFramesTx → (u.reply cl a).get r i = u.get r i :=
    fun r i h1 h2 => reply_get h1 h2
  refine ⟨_, he, hack, ?_, fun hf hv => ?_, fun hf hv h4 => ?_, fun hf hv hn => ?_⟩
  · rw [hg _ _ (by decide) (by decide), hs]
  · rw [hg _ _ (by decide) (by decide), alone hf, hv]
    exact carrierMoved_idle
  · rw [hg _ _ (by decide) (by decide), hg _ _ (by decide) (by decide), alone hf, hv]
    exact carrierMoved_locked (by rw [get_set_reg _ _ (by decide), ready_get (by decide), h4])
  · refine requestChanges_serving ?_
    rw [alone hf, carrierMoved, if_neg (by exact_mod_cast hv), if_neg]
    · exact apart_iff.2 (apart_set (Apart.refl _))
    · rw [get_set_reg _ _ (by decide), ready_get (by decide)]
      exact_mod_cast hn

end Sys2Proof

/-! # Which sources the falls of mode and carriers raise (R381)

Silent e s t: source e was not raised between s and t, but as often as its count wraps. -/

namespace Sys2Proof.Laws

set_option Elab.async false

open Sys2Proof.Machine

variable {s₀ s t u : State} {cl : Client} {c : Instr} {r : Reg} {i n e : Nat} {v : Int}

/-- The count of source e is as it was. -/
def Silent (e : Nat) (s t : State) : Prop := t.get .eventCount e = s.get .eventCount e

theorem Silent.refl : Silent e s s := rfl

theorem Silent.trans (h : Silent e s t) (g : Silent e t u) : Silent e s u := Eq.trans g h

theorem Silent.kept (h : Silent e s₀ s) (k : Kept eventsScope s t) : Silent e s₀ t := h.trans k.get

theorem silent_set (h : Silent e s₀ s) (hr : r ≠ .eventCount := by decide) : Silent e s₀ (s.set r i v) :=
  h.trans (get_set_reg _ _ hr.symm)

theorem silent_bump (h : Silent e s₀ s) (hr : r ≠ .eventCount := by decide) : Silent e s₀ (s.bump r i n) :=
  h.trans (get_bump_other (.inl hr.symm))

theorem silent_ite {p : Prop} [Decidable p] (ht : Silent e s₀ t) (hu : Silent e s₀ u) :
    Silent e s₀ (if p then t else u) := by
  split <;> assumption

theorem silent_each {α : Type} {l : List α} {f : State → α → State} (h : Silent e s₀ s)
    (hf : ∀ t, ∀ a ∈ l, Silent e s₀ t → Silent e s₀ (f t a)) : Silent e s₀ (s.each l f) := by
  induction l generalizing s with
  | nil => exact h
  | cons a l ih =>
    rw [each_cons]
    exact ih (hf s a List.mem_cons_self h) fun t b hb => hf t b (List.mem_cons_of_mem _ hb)

theorem silent_raise {e' : Nat} {d : List Item} (h : Silent e s₀ s) (h1 : e ≠ evDev 132) (h2 : e ≠ e') :
    Silent e s₀ (s.raise e' d) := h.trans (count_raise_other h1 h2)

theorem silent_raiseClear {e' : Nat} {d : List Item} {b : Bool} (h : Silent e s₀ s) (h1 : e ≠ evDev 132) (h2 : e ≠ e') :
    Silent e s₀ (s.raiseClear e' d b) := h.trans ((count_raiseMarked h1).trans (if_neg h2))

theorem Silent.raised (h : Silent e s t) {d : List Item} (h1 : e ≠ evDev 132) : Safety.raised s (t.raise e d) e :=
  raised_raise h h1

theorem raised_raiseClear {d : List Item} {b : Bool} (h : Silent e s t) (h1 : e ≠ evDev 132) :
    Safety.raised s (t.raiseClear e d b) e := by
  have hc : (t.raiseClear e d b).get .eventCount e = _ := count_raiseMarked h1
  rw [Safety.raised, Safety.countedBy, hc, if_pos rfl, State.nat, State.nat, h]

theorem Silent.raised_after (h : Silent e t u) (hr : Safety.raised s t e) : Safety.raised s u e := raised_of_count h hr

/-- A source that a fall of the mode, or of a carrier, does not raise. -/
structure Aside (e : Nat) : Prop where
  line : 480 ≤ e
  device : e ∉ [evDev 0, evDev 45, evDev 65, evDev 67, evDev 132, evDev 147]

section

variable (he : Aside e)
include he

theorem Aside.carrier {k : Nat} (hn : n < 12) (hk : k < 40) : e ≠ evCarrier n k := by
  have := he.line
  unfold evCarrier
  omega

theorem Aside.miss : e ≠ evDev 132 := fun h => he.device (by simp [h])

theorem silent_leaveHeld (hn : n < 12) (h : Silent e s₀ s) : Silent e s₀ (s.leaveHeld n) :=
  silent_ite (silent_raiseClear (silent_set h) he.miss (he.carrier hn (by decide))) h

theorem silent_setMember (hn : n < 12) (h : Silent e s₀ s) : Silent e s₀ (s.setMember n v) := by
  unfold State.setMember
  extract_lets was a b
  have hb : Silent e s₀ b := silent_ite (silent_set h) (silent_set (silent_set (silent_set (silent_set h))))
  exact silent_ite h (silent_ite (silent_raise (silent_bump hb) he.miss (he.carrier hn (by decide)))
    (silent_ite (silent_raise hb he.miss (he.carrier hn (by decide))) hb))

theorem silent_bondDrop (hn : n < 12) (h : Silent e s₀ s) : Silent e s₀ (s.bondDrop n) := by
  have := fact_false
  unfold State.bondDrop
  split
  · exact h
  · exact (silent_setMember he hn (silent_set (silent_set h))).kept (kept_refreshGroup (Kept.refl _))

theorem silent_monitorLevel {q : Nat} (hq : q < 7) (hn : n < 12) (h : Silent e s₀ s) :
    Silent e s₀ (s.monitorLevel q n) := by
  unfold State.monitorLevel
  extract_lets i v hi lo crossed cleared a
  have ha : Silent e s₀ a := silent_bump (silent_set h)
  exact silent_ite (silent_ite (silent_ite (silent_raise ha he.miss (he.carrier hn (by omega))) ha) h)
    (silent_ite (silent_set h) h)

theorem silent_trackDone (hn : n < 12) (h : Silent e s₀ s) : Silent e s₀ (s.trackDone n) := by
  unfold State.trackDone
  extract_lets d v a
  have ha : Silent e s₀ a := silent_ite h (silent_set h)
  exact silent_ite h (silent_monitorLevel he (by decide) hn
    (silent_bump (silent_set (silent_set (silent_set (silent_set (silent_set ha)))))))

theorem silent_cdSettle (hn : n < 12) (h : Silent e s₀ s) : Silent e s₀ (s.cdSettle n) := by
  have := fact_false
  have hf : Silent e s₀ (s.bankFinish (48 + n)) := h.kept (kept_bankFinish (Kept.refl s))
  have ha : Silent e s₀ (s.bankAbandon (48 + n)) := h.kept (kept_bankAbandon (Kept.refl s))
  exact silent_ite (silent_trackDone he hn hf) (silent_ite (silent_set (silent_set ha)) h)

theorem silent_pageFlip {d : Nat} (hn : n < 12) (h : Silent e s₀ s) : Silent e s₀ (s.pageFlip d n) := by
  unfold State.pageFlip
  extract_lets a b x
  have hb : Silent e s₀ b := silent_bump (silent_set (silent_each h fun _ _ _ ht => silent_set ht))
  exact silent_raise (silent_ite (silent_set (silent_set hb)) hb) he.miss (he.carrier hn (by decide))

theorem silent_pageSettle {d : Nat} (hn : n < 12) (h : Silent e s₀ s) : Silent e s₀ (s.pageSettle d n) :=
  silent_ite (silent_pageFlip he hn h) h

theorem silent_toIdle (hn : n < 12) (h : Silent e s₀ s) : Silent e s₀ (s.toIdle n v) := by
  have := fact_false
  cases hi : s.idle n with
  | true =>
    rw [toIdle_of_idle hi]
    exact silent_set (silent_set h)
  | false =>
    rw [toIdle_eq hi]
    have noted : Silent e s₀ (idleNoted n v s) := by
      have hd : Silent e s₀ (((s.set .xRaising n 0).set .xBondExit n 0).noteDrop n v) :=
        silent_ite (silent_set (silent_set (silent_set h))) (silent_set (silent_set h))
      have hs := silent_bondDrop he hn hd
      exact silent_leaveHeld he hn ((silent_ite hs (silent_bump (silent_set hs))).kept (kept_emptySlack (Kept.refl _)))
    generalize idleNoted n v s = x at noted
    have cleared : Silent e s₀ (idleCleared n x) := by
      have hd := silent_cdSettle he hn (noted.kept (kept_bankFinish (b := 12 + n) (Kept.refl x)))
      have hc := silent_pageSettle he (d := 1) hn (silent_pageSettle he (d := 0) hn
        (hd.kept (kept_defectsIdle (c := n) (kept_clearMonitors (c := n) (Kept.refl _)))))
      exact silent_set (silent_set hc)
    generalize idleCleared n x = y at cleared
    have received : Silent e s₀ (idleReceive n y) := by
      refine Silent.kept (s := (((((((((y.set .carrierRxTimingState n 0).set .carrierRxPolState n 0).set .carrierCrState n 0
        ).set .carrierCatchState n 0).set .carrierCatchGates n 0).set .xMatchPending n 0).set .xSearch n 0
        ).set .carrierNcInForce n 0).set .carrierNcSideState n 1).set .carrierNcSideState (12 + n) 1) ?_
        (kept_agcRestart (Kept.refl _))
      repeat' first | with_reducible apply silent_set | exact cleared | decide
    have lines : Kept eventsScope ((idleReceive n y).set .carrierBondTxInSequence n 0)
        (idleLines n (y.flag .xRelock n) ((idleReceive n y).set .carrierBondTxInSequence n 0)) :=
      kept_refreshRx (kept_refreshConv (kept_refreshReach (kept_setRx (kept_setTx
        (kept_when (Kept.refl _) fun u hu => kept_setLoops (kept_set hu (hr := rfl)))))))
    exact (silent_set received).kept lines

/-! ## The fall of a mode -/

theorem silent_calSettle (h : Silent e s₀ s) : Silent e s₀ s.calSettle := by
  have := fact_false
  unfold State.calSettle
  extract_lets wait a b d
  have ha : Silent e s₀ a := silent_each h fun _ _ _ ht => ht.kept (kept_calTake (Kept.refl _))
  have hb : Silent e s₀ b := ha.kept (kept_copyUnits (kept_copyUnits (Kept.refl a) (hdst := rfl) (hsrc := rfl)) (hdst := rfl) (hsrc := rfl))
  have hd : Silent e s₀ d := silent_each hb fun _ _ _ ht => silent_set ht
  have h67 : e ≠ evDev 67 := fun hx => he.device (by simp [hx])
  exact silent_ite h (silent_ite ha (silent_raise (silent_bump (silent_set hd)) he.miss h67))

omit he in
/-- A foreground calibration given up without a refusal raises nothing. -/
theorem silent_calAbandon (h : Silent e s₀ s) : Silent e s₀ (s.calAbandon n false) := by
  have := fact_false
  unfold State.calAbandon
  extract_lets a b d
  have ha : Silent e s₀ a := silent_ite (silent_each h fun _ _ _ ht => silent_set ht) h
  have hb : Silent e s₀ b := silent_set (silent_set ha)
  refine silent_ite (Silent.kept ?_ (kept_refreshConv (Kept.refl d))) h
  exact hb

omit he in
theorem silent_abandonTransition (h : Silent e s₀ s) : Silent e s₀ s.abandonTransition :=
  silent_each (silent_set (silent_set h)) fun _ _ _ ht => silent_calAbandon ht

theorem silent_muteOn (h : Silent e s₀ s) : Silent e s₀ s.muteOn := by
  have := fact_false
  rw [muteOn_eq]
  refine silent_each (Silent.kept (silent_calSettle he (silent_each (silent_set (silent_set h)) fun _ a ha ht => ?_))
    (kept_refreshBg (Kept.refl _))) fun _ _ _ ht => silent_set (silent_set ht)
  exact (silent_toIdle he (mem_carriers.1 ha) ht).kept (kept_refreshConv (kept_calAbandonOffline (Kept.refl _)))

theorem silent_poolMove {was used : Nat} (h : Silent e s₀ s) : Silent e s₀ (s.poolMove was used) := by
  have := fact_false
  unfold State.poolMove
  extract_lets a b low d pause
  have ha : Silent e s₀ b := (silent_set h).kept (kept_trough (Kept.refl a) (hr := rfl))
  have h65 : e ≠ evDev 65 := fun hx => he.device (by simp [hx])
  have hd : Silent e s₀ d := silent_ite (silent_raise (silent_set ha) he.miss h65) (silent_set ha)
  have pfc : ∀ v, Silent e s₀ ((d.set .xPoolPause 0 v).each (List.range 48) State.pfcEval) := fun v =>
    silent_each (silent_set hd) fun _ _ _ ht => ht.kept (kept_pfcEval (Kept.refl _))
  exact silent_ite (pfc 1) (silent_ite (pfc 0) hd)

theorem silent_putTribQueue {t k : Nat} {q : List Stored} (h : Silent e s₀ s) : Silent e s₀ (s.putTribQueue t q k) := by
  unfold State.putTribQueue
  exact silent_poolMove he (silent_set h)

theorem silent_setReady {b : Bool} (h : Silent e s₀ s) : Silent e s₀ (s.setReady b) :=
  silent_ite h (silent_raise (silent_set h) he.miss fun hx => he.device (by simp [hx]))

theorem silent_endRole (h : Silent e s₀ s) : Silent e s₀ s.endRole := by
  have := fact_false
  unfold State.endRole
  extract_lets a b d f
  have ha : Silent e s₀ a := silent_ite (h.kept (kept_tieSend (Kept.refl s))) h
  have hb : Silent e s₀ b := silent_each ha fun _ _ _ ht => silent_set (silent_set (silent_set (silent_set ht)))
  have hd : Silent e s₀ d := silent_each hb fun _ _ _ ht => silent_set ht
  have hf : Silent e s₀ f := silent_ite (silent_each hd fun _ _ _ ht => silent_putTribQueue he ht) hd
  exact silent_setReady he (silent_set (silent_set (silent_set hf)))

theorem silent_raiseKept {e' : Nat} {d : List Item} (h1 : e ≠ e') (h : Silent e s₀ s) : Silent e s₀ (s.raiseKept e' d) := by
  have hr : Silent e s₀ (s.raise e' d) := silent_raise h he.miss h1
  exact silent_ite hr (silent_bump (r := .historyWritten) hr)

theorem silent_stopRecord (h : Silent e s₀ s) : Silent e s₀ s.stopRecord := by
  have h45 : e ≠ evDev 45 := fun hx => he.device (by simp [hx])
  exact silent_ite (silent_raiseKept he h45 (silent_set (silent_set (silent_set h)))) h

theorem silent_backInHaven (h : Silent e s₀ s) : Silent e s₀ s.backInHaven := by
  have := fact_false
  unfold State.backInHaven
  extract_lets a b
  have hb : Silent e s₀ b := Silent.kept (silent_set (silent_abandonTransition h))
    (kept_each (kept_lanesUp (Kept.refl _)) fun _ _ ht => kept_refreshConv ht)
  exact silent_ite (silent_muteOn he hb) (hb.kept (kept_refreshBg (Kept.refl b)))

/-- An entry to Haven, or a cause that joins a stay, raises none of these sources. -/
theorem silent_haven {bits : Nat} (h : Silent e s₀ s) : Silent e s₀ (s.haven bits) := by
  have := fact_false
  unfold State.haven
  extract_lets a bits' was hard a1 a2 a3 b1 b2 b3 b4 b5 b6 x
  have ha : Silent e s₀ a := h.kept (kept_repairsGoOn (Kept.refl s))
  have h0 : e ≠ evDev 0 := fun hx => he.device (by simp [hx])
  have stay : Silent e s₀ (if (hard && !a3.flag .xMute 0) = true then a3.muteOn else a3) := by
    have h2 : Silent e s₀ a2 := silent_ite (silent_set ha) (silent_set (silent_set ha))
    have h3 : Silent e s₀ a3 := silent_ite (silent_backInHaven he h2) h2
    exact silent_ite (silent_muteOn he h3) h3
  have enter : Silent e s₀ (b6.raiseKept (evDev 0) (b6.modeDetail was 5)) := by
    have h2 : Silent e s₀ b2 := silent_set (silent_set (silent_bump (silent_abandonTransition ha)))
    have h3 : Silent e s₀ b3 := silent_ite h2 (silent_endRole he h2)
    have h4 : Silent e s₀ b4 :=
      (silent_set (silent_set (silent_set h3))).kept (kept_lanesUp (Kept.refl _))
    have h5 : Silent e s₀ b5 := silent_ite (silent_muteOn he h4) (h4.kept (kept_refreshBg (Kept.refl b4)))
    have h6 : Silent e s₀ b6 := silent_ite (h5.kept (kept_eraseAllSlots (Kept.refl b5))) h5
    exact silent_raiseKept he h0 h6
  exact silent_stopRecord he (silent_ite stay enter)

end

end Sys2Proof.Laws

/-! # Thermal sensors and the orderly shutdown (R425 to R434) -/

namespace Sys2Proof.Laws

set_option Elab.async false

open Sys2Proof.Machine

variable {s₀ s t u : State} {cl : Client} {c : Instr} {r : Reg} {i n e : Nat} {v : Int}

/-! ## Bits of a mask -/

theorem bitOf_eq (m b : Nat) : bitOf m b = m.testBit b := by
  rw [Nat.testBit_eq_decide_div_mod_eq, bitOf]
  rfl

theorem withBit_eq {m b : Nat} {x : Bool} : withBit m b x = 2 ^ b * (2 * (m / 2 ^ b / 2) + x.toNat) + m % 2 ^ b := by
  have hm := Nat.div_add_mod m (2 ^ b)
  have hd := Nat.div_add_mod (m / 2 ^ b) 2
  have h2 : m / 2 ^ b % 2 = (bitOf m b).toNat := by
    unfold bitOf
    have := Nat.mod_two_eq_zero_or_one (m / 2 ^ b)
    rcases this with h | h <;> simp [h]
  unfold withBit
  generalize m / 2 ^ b / 2 = q at *
  generalize m / 2 ^ b = d at *
  generalize m % 2 ^ b = k at *
  rw [h2] at hd
  rw [← hd] at hm
  generalize bitOf m b = y at *
  cases y <;> cases x <;> simp [Nat.mul_add] at hm ⊢ <;> omega

/-- A mask with one bit given a value. -/
theorem bitOf_withBit {m b k : Nat} {x : Bool} : bitOf (withBit m b x) k = if k = b then x else bitOf m k := by
  have hlt : m % 2 ^ b < 2 ^ b := Nat.mod_lt _ (Nat.two_pow_pos b)
  rw [bitOf_eq, bitOf_eq, withBit_eq, Nat.testBit_two_pow_mul_add _ hlt]
  have hs : m.testBit k = if k < b then (m % 2 ^ b).testBit k else (m / 2 ^ b).testBit (k - b) := by
    rw [← Nat.testBit_two_pow_mul_add _ hlt, Nat.div_add_mod]
  rw [hs]
  rcases Nat.lt_trichotomy k b with h | rfl | h
  · simp [h, h.ne]
  · simp only [lt_irrefl, if_false, Nat.sub_self, if_true, Nat.testBit_zero]
    cases x <;> simp
  · obtain ⟨j, hj⟩ : ∃ j, k - b = j + 1 := ⟨k - b - 1, by omega⟩
    rw [if_neg (by omega), if_neg (by omega), if_neg (by omega), hj, Nat.testBit_succ, Nat.testBit_succ]
    congr 1
    have hx := Bool.toNat_lt x
    omega

theorem bit_setBit {b j k : Nat} {x : Bool} : (s.setBit r i b x).bit r j k
    = if j = i ∧ k = b then x else s.bit r j k := by
  unfold State.setBit State.bit State.nat
  rw [get_set]
  by_cases hj : j = i
  · subst hj
    simp only [true_and, if_true, Int.toNat_natCast]
    exact bitOf_withBit
  · simp [hj]

/-! ## What Haven leaves of the sensors -/

/-- The scope that leaves sensors, throttling and the orderly shutdown. -/
abbrev thermalScope : Scope := fun p => match p with
  | .thermal => true
  | _ => false

/-- Causes of Haven leave the part thermal up to the record of an orderly shutdown. -/
theorem haven_thermal {n : Nat} : ∃ y, s.haven n = y.stopRecord ∧ Kept thermalScope s y := by
  have := fact_false
  unfold State.haven
  extract_lets a bits was hard a1 a2 a3 b1 b2 b3 b4 b5 b6
  have ka : Kept thermalScope s a := kept_repairsGoOn (Kept.refl s)
  have stay : Kept thermalScope s (if (hard && !a3.flag .xMute 0) = true then a3.muteOn else a3) := by
    have k1 : Kept thermalScope s a1 := kept_set ka (hr := rfl)
    have k2 : Kept thermalScope s a2 := kept_ite k1 (kept_set k1 (hr := rfl))
    have k3 : Kept thermalScope s a3 := kept_ite (kept_backInHaven k2) k2
    exact kept_ite (kept_muteOn k3) k3
  have enter : Kept thermalScope s (b6.raiseKept (evDev 0) (b6.modeDetail was 5)) := by
    have k2 : Kept thermalScope s b2 :=
      kept_set (kept_set (kept_bump (kept_abandonTransition ka) (hr := rfl)) (hr := rfl)) (hr := rfl)
    have k3 : Kept thermalScope s b3 := kept_ite k2 (kept_endRole k2)
    have k4 : Kept thermalScope s b4 :=
      kept_lanesUp (kept_set (kept_set (kept_set k3 (hr := rfl)) (hr := rfl)) (hr := rfl))
    have k5 : Kept thermalScope s b5 := kept_ite (kept_muteOn k4) (kept_refreshBg k4)
    exact kept_raiseKept (kept_ite (kept_eraseAllSlots k5) k5)
  exact ⟨_, rfl, kept_ite stay enter⟩

/-- What a sample tells of its sensor. -/
abbrev sensorRegs : List Reg := [.sensorRaw, .sensorState, .thermalFailed, .sensorValue]

theorem apart_stopRecord : Apart (beyond sensorRegs) s s.stopRecord := by
  have := fact_false
  unfold State.stopRecord
  extract_lets a
  have ha : Apart (beyond sensorRegs) s a := apart_set (apart_set (apart_set (Apart.refl s)))
  exact apart_ite (ha.trans (Kept.beyond (κ := thermalScope) (kept_raiseKept (Kept.refl a)))) (Apart.refl s)

theorem apart_haven {n : Nat} : Apart (beyond sensorRegs) s (s.haven n) := by
  obtain ⟨y, hy, k⟩ := haven_thermal (s := s) (n := n)
  rw [hy]
  exact k.beyond.trans apart_stopRecord

/-- An orderly shutdown that runs is recorded as Haven is reached (R433). -/
theorem haven_records {n : Nat} (h : s.flag .xShutdown 0 = true) : (s.haven n).get .thermalLastStop 0 = 1
    ∧ (s.haven n).flag .xShutdown 0 = false := by
  have := fact_false
  obtain ⟨y, hy, k⟩ := haven_thermal (s := s) (n := n)
  have hf : y.flag .xShutdown 0 = true := by rw [State.flag, k.get, ← State.flag, h]
  rw [hy, State.stopRecord, if_pos hf]
  have kr : ∀ (x : State) (d : List Item), Kept thermalScope x (x.raiseKept (evDev 45) d) :=
    fun x d => kept_raiseKept (Kept.refl x)
  refine ⟨?_, ?_⟩
  · rw [(kr _ _).get, get_set_reg _ _ (by decide), get_set_same]
  · rw [State.flag, (kr _ _).get, get_set_reg _ _ (by decide), get_set_reg _ _ (by decide), get_set_same]
    rfl

/-! ## A sample -/

theorem sensorValue_get (hr : r ∉ [Reg.xSenReal, .sensorValue, .sensorPeak, .sensorRate]) :
    (s.sensorValue n v).get r i = s.get r i := by
  simp only [List.mem_cons, List.not_mem_nil, or_false, not_or] at hr
  obtain ⟨h1, h2, h3, h4⟩ := hr
  unfold State.sensorValue
  extract_lets tp a b d
  have ha : a.get r i = s.get r i := by
    have hp : ((s.set .xSenReal n v).set .sensorValue n (tenths v)).get r i = s.get r i := by
      rw [get_set_reg _ _ h2, get_set_reg _ _ h1]
    unfold a State.peak
    split
    · rw [get_set_reg _ _ h3, hp]
    · exact hp
  have hb : b.get r i = s.get r i := by
    unfold b
    split
    · rw [get_set_reg _ _ h4, ha]
    · split
      · rw [get_set_reg _ _ h4, ha]
      · exact ha
  exact hb

theorem sensorValue_value : (s.sensorValue n v).get .sensorValue n = tenths v := by
  unfold State.sensorValue State.peak
  extract_lets tp a b d
  have ha : a.get .sensorValue n = tenths v := by
    unfold a
    split
    · rw [get_set_reg _ _ (by decide), get_set_same]
    · rw [get_set_same]
  have hb : b.get .sensorValue n = tenths v := by
    unfold b
    split
    · rw [get_set_reg _ _ (by decide), ha]
    · split
      · rw [get_set_reg _ _ (by decide), ha]
      · exact ha
  exact hb

/-- A sample as it is noted, its runs counted. -/
def sampleNoted (i : Nat) (code : Int) (s : State) : State :=
  let same := if s.get .xSenSame i ≠ 0 ∧ s.get .xSenSameVal i = code then s.get .xSenSame i + 1 else 1
  let off := s.disagrees i code
  let s := s |>.set .sensorRaw i (tenths code) |>.set .xSenSame i (min same 64) |>.set .xSenSameVal i code
  let s := if off && s.get .xSenDis i == 0 then s.set .xSenDisVal i code else s
  s.set .xSenDis i (if off then min 16 (s.get .xSenDis i + 1) else 0)

/-- The sample judged. -/
def sampleJudged (i : Nat) (code : Int) (s : State) : State :=
  if !s.sensorValid i then
    (s.when (s.sensorFault i code).isSome fun s => s.markTick .xSenPassAt i).sensorValue i (s.substitute i)
  else
    match s.sensorFault i code with
    | none => s.sensorValue i code
    | some f =>
      let s := s |>.set .sensorState i (f.1 : Nat) |>.set .xSenLast i f.2 |>.setBit .thermalFailed 0 i true
      (s.sensorValue i (s.substitute i)).raiseClear (evDev 44) [u16 i, u8 f.1] false

/-- What follows a sample. -/
def sampleFollowed (i : Nat) (s : State) : State :=
  let s := (s.refreshHottest).bandCheck i
  let s := if s.sensingLost && !(s.get .deviceModeState 0 == 5 && s.bit .deviceHavenCauses 0 2) then s.haven 4 else s
  s.shutdownCheck

theorem sensorSample_eq {code : Int} :
    s.sensorSample i code = sampleFollowed i (sampleJudged i code (sampleNoted i code s)) := by
  unfold State.sensorSample sampleFollowed sampleJudged sampleNoted
  rfl

theorem apart_shutdownCheck : Apart (beyond sensorRegs) s s.shutdownCheck := by
  unfold State.shutdownCheck
  extract_lets t h b slope a d
  refine apart_ite (apart_ite (Apart.refl s) (apart_set (Apart.refl s))) (apart_ite (apart_ite (Apart.refl s) ?_)
    (apart_ite (Apart.refl s) ?_))
  · have ha : Apart (beyond sensorRegs) s a := apart_set (apart_set (apart_set (apart_set (Apart.refl s))))
    exact apart_raise wide_beyond (ha.trans apart_haven)
  · have hd : Apart (beyond sensorRegs) s d := apart_set (Apart.refl s)
    exact apart_ite (apart_set (apart_set (apart_set hd))) hd

theorem apart_bandCheck : Apart (beyond sensorRegs) s (s.bandCheck n) := by
  have := fact_false
  have hf : Apart (beyond sensorRegs) s (s.followTemp n) :=
    apart_ite (apart_set (Apart.refl s)) (apart_ite (apart_set (apart_set (Apart.refl s))) (Apart.refl s))
  exact apart_ite (apart_ite (apart_when (Apart.refl s) fun _ =>
    Kept.beyond (κ := thermalScope) (kept_compensate (Kept.refl s))) hf) (Apart.refl s)

theorem sampleFollowed_keeps : Apart (beyond sensorRegs) s (sampleFollowed n s) := by
  unfold sampleFollowed
  extract_lets a b
  have hr : Apart (beyond sensorRegs) s s.refreshHottest := apart_set (apart_set (Apart.refl s))
  have ha : Apart (beyond sensorRegs) s a := hr.trans apart_bandCheck
  exact (apart_ite (ha.trans apart_haven) ha).trans apart_shutdownCheck

theorem aside_sensor : Aside (evDev 44) := ⟨by decide, by decide⟩

theorem silent_compensate (he : Aside e) (hn : n < 12) (h : Silent e s₀ s) : Silent e s₀ (s.compensate n) := by
  unfold State.compensate
  extract_lets val left a b
  have hb : Silent e s₀ b := silent_set (silent_each h fun _ _ _ ht => silent_set (silent_set ht))
  exact silent_ite (silent_raise hb he.miss (he.carrier hn (by decide))) hb

theorem silent_bandCheck (he : Aside e) (h : Silent e s₀ s) : Silent e s₀ (s.bandCheck n) := by
  have := fact_false
  have hf : Silent e s₀ (s.followTemp n) := silent_ite (silent_set h) (silent_ite (silent_set (silent_set h)) h)
  unfold State.bandCheck
  split
  · split
    · rename_i hn
      exact silent_ite (silent_compensate he (by omega) h) h
    · exact hf
  · exact h

theorem silent_shutdownCheck (he : Aside e) (h : Silent e s₀ s) : Silent e s₀ s.shutdownCheck := by
  unfold State.shutdownCheck
  extract_lets t m b slope a d
  have h45 : e ≠ evDev 45 := fun hx => he.device (by simp [hx])
  have ha : Silent e s₀ (a.haven 32) := silent_haven he (silent_set (silent_set (silent_set (silent_set h))))
  exact silent_ite (silent_ite h (silent_set h)) (silent_ite (silent_ite h (silent_raise ha he.miss h45))
    (silent_ite h (silent_ite (silent_set (silent_set (silent_set (silent_set h)))) (silent_set h))))

theorem silent_sampleFollowed (he : Aside e) (h : Silent e s₀ s) : Silent e s₀ (sampleFollowed n s) := by
  have hb : Silent e s₀ (s.refreshHottest.bandCheck n) := silent_bandCheck he (silent_set (silent_set h))
  exact silent_shutdownCheck he (silent_ite (silent_haven he hb) hb)

section Sample

variable {code : Int}

theorem sampleNoted_get (hr : r ∉ [Reg.sensorRaw, .xSenSame, .xSenSameVal, .xSenDisVal, .xSenDis]) :
    (sampleNoted n code s).get r i = s.get r i := by
  simp only [List.mem_cons, List.not_mem_nil, or_false, not_or] at hr
  obtain ⟨h1, h2, h3, h4, h5⟩ := hr
  unfold sampleNoted
  extract_lets same off a b
  have ha : a.get r i = s.get r i := by
    rw [get_set_reg _ _ h3, get_set_reg _ _ h2, get_set_reg _ _ h1]
  rw [get_set_reg _ _ h5, ← ha]
  unfold b
  split
  · rw [get_set_reg _ _ h4]
  · rfl

theorem sampleNoted_raw : (sampleNoted n code s).get .sensorRaw n = tenths code := by
  unfold sampleNoted
  extract_lets same off a b
  have ha : a.get .sensorRaw n = tenths code := by
    simp (disch := decide) only [a, get_set_reg, get_set_same]
  rw [get_set_reg _ _ (by decide), ← ha]
  unfold b
  split
  · rw [get_set_reg _ _ (by decide)]
  · rfl

theorem sampleNoted_valid {k : Nat} : (sampleNoted n code s).sensorValid k = s.sensorValid k := by
  simp only [State.sensorValid, sampleNoted_get (show Reg.sensorState ∉ _ by decide)]

/-- A sample in range that neither repeats its value for long nor disagrees fails no test. -/
theorem sampleNoted_passes (h1 : -720 ≤ code) (h2 : code ≤ 2400)
    (h3 : s.get .xSenSameVal n ≠ code ∨ s.get .xSenSame n < 63) (h4 : s.disagrees n code = false) :
    (sampleNoted n code s).sensorFault n code = none := by
  have same : (sampleNoted n code s).get .xSenSame n < 64 := by
    unfold sampleNoted
    extract_lets same off a b
    have ha : a.get .xSenSame n < 64 := by
      simp (disch := decide) only [a, get_set_reg, get_set_same]
      unfold same
      split <;> omega
    rw [get_set_reg _ _ (by decide)]
    unfold b
    split
    · rwa [get_set_reg _ _ (by decide)]
    · exact ha
  have dis : (sampleNoted n code s).get .xSenDis n = 0 := by
    unfold sampleNoted
    extract_lets same off a b
    rw [get_set_same]
    exact if_neg (by simp [off, h4])
  unfold State.sensorFault
  rw [if_neg (by omega), if_neg (by omega), if_neg (by omega)]

theorem sampleJudged_get (h1 : r ∉ [Reg.xSenReal, .sensorValue, .sensorPeak, .sensorRate])
    (h2 : r ∉ [Reg.xSenPassAt, .sensorState, .xSenLast, .thermalFailed]) (h3 : Safety.eventSide r = false) :
    (sampleJudged n code s).get r i = s.get r i := by
  simp only [List.mem_cons, List.not_mem_nil, or_false, not_or] at h2
  obtain ⟨g1, g2, g3, g4⟩ := h2
  unfold sampleJudged
  split
  · rw [sensorValue_get h1]
    unfold State.when
    split
    · exact get_set_reg _ _ g1
    · rfl
  · split
    · rw [sensorValue_get h1]
    · dsimp only
      rw [get_raiseClear h3, sensorValue_get h1, State.setBit, get_set_reg _ _ g4, get_set_reg _ _ g3,
        get_set_reg _ _ g2]

theorem sampleJudged_passed (hv : s.sensorValid n = true) (h : s.sensorFault n code = none) :
    sampleJudged n code s = s.sensorValue n code := by
  unfold sampleJudged
  rw [if_neg (by simp [hv]), h]

/-- A sample out of range fails its sensor. -/
theorem sampleJudged_failed (hv : s.sensorValid n = true) (h : code < -720 ∨ 2400 < code) :
    let t := sampleJudged n code s
    t.get .sensorState n = 1 ∧ t.bit .thermalFailed 0 n = true ∧ Safety.raised s t (evDev 44) := by
  have hf : s.sensorFault n code = some (1, code) := if_pos h
  unfold sampleJudged
  rw [if_neg (by simp [hv]), hf]
  dsimp only
  generalize hx : ((s.set .sensorState n (1 : Nat)).set .xSenLast n code).setBit .thermalFailed 0 n true = x
  have silent : Silent (evDev 44) s (x.sensorValue n (x.substitute n)) := by
    have h1 : Silent (evDev 44) s x := by
      rw [← hx]
      exact silent_set (silent_set (silent_set Silent.refl))
    exact h1.trans (sensorValue_get (by decide))
  refine ⟨?_, ?_, raised_raiseClear silent (by decide)⟩
  · rw [get_raiseClear (by decide), sensorValue_get (by decide), ← hx, State.setBit, get_set_reg _ _ (by decide),
      get_set_reg _ _ (by decide), get_set_same]
    rfl
  · rw [State.bit, State.nat, get_raiseClear (by decide), sensorValue_get (by decide), ← hx, ← State.nat, ← State.bit,
      bit_setBit, if_pos ⟨rfl, rfl⟩]

end Sample

/-- A sensor readmitted after its second without a failed test (R428). -/
def readmitted (i : Nat) (s : State) : State :=
  let s := ((s.set .sensorState i 0).setBit .thermalFailed 0 i false).sensorValue i (s.get .xSenSameVal i)
  s.refreshHottest.raiseClear (evDev 44) [u16 i, u8 0] true

abbrev readmitRegs : List Reg := [.sensorState, .thermalFailed, .xSenReal, .sensorValue, .sensorPeak, .sensorRate,
  .xSenHist, .thermalHottest, .thermalHottestSensor]

theorem apart_sensorValue (h : Apart (fun r => Safety.eventSide r || readmitRegs.contains r) s₀ s) :
    Apart (fun r => Safety.eventSide r || readmitRegs.contains r) s₀ (s.sensorValue n v) := by
  unfold State.sensorValue State.peak
  extract_lets tp a b d
  have ha : Apart (fun r => Safety.eventSide r || readmitRegs.contains r) s₀ a :=
    apart_ite (apart_set (apart_set (apart_set h))) (apart_set (apart_set h))
  exact apart_setBlob (apart_ite (apart_set ha) (apart_ite (apart_set ha) ha))

theorem readmitted_reports : (readmitted n s).get .sensorState n = 0 ∧ (readmitted n s).bit .thermalFailed 0 n = false
    ∧ (readmitted n s).get .sensorValue n = tenths (s.get .xSenSameVal n) ∧ Safety.raised s (readmitted n s) (evDev 44)
    ∧ Safety.eventChanges readmitRegs s (readmitted n s) := by
  unfold readmitted
  extract_lets a
  have hot : ∀ r j, r ∉ [Reg.thermalHottest, .thermalHottestSensor] → a.refreshHottest.get r j = a.get r j :=
    fun r j hr => by
      simp only [List.mem_cons, List.not_mem_nil, or_false, not_or] at hr
      rw [State.refreshHottest, get_set_reg _ _ hr.2, get_set_reg _ _ hr.1]
  have silent : Silent (evDev 44) s a.refreshHottest := by
    refine Eq.trans (hot _ _ (by decide)) (Eq.trans (sensorValue_get (by decide)) ?_)
    rw [State.setBit, get_set_reg _ _ (by decide), get_set_reg _ _ (by decide)]
  refine ⟨?_, ?_, ?_, raised_raiseClear silent (by decide), apart_iff.2 ?_⟩
  · rw [get_raiseClear (by decide), hot _ _ (by decide), sensorValue_get (by decide), State.setBit,
      get_set_reg _ _ (by decide), get_set_same]
  · rw [State.bit, State.nat, get_raiseClear (by decide), hot _ _ (by decide), sensorValue_get (by decide), ← State.nat,
      ← State.bit, bit_setBit, if_pos ⟨rfl, rfl⟩]
  · rw [get_raiseClear (by decide), hot _ _ (by decide), sensorValue_value]
  · have ha : Apart (fun r => Safety.eventSide r || readmitRegs.contains r) s a :=
      apart_sensorValue (apart_set (apart_set (Apart.refl s)))
    exact apart_raiseClear (wide_events _) (apart_set (apart_set ha))

/-! ## The orderly shutdown and shed carriers (R432, R433) -/

theorem unshed_bit {b : Nat} : (s.unshed n).bit .throttleShed 0 b
    = if b = n then false else s.bit .throttleShed 0 b := by
  unfold State.unshed
  split
  · dsimp only
    rw [State.bit, State.nat, get_raiseClear (by decide), ← State.nat, ← State.bit, bit_setBit]
    simp only [true_and]
    rfl
  · rename_i h
    split
    · rename_i hb
      rw [hb]
      simpa using h
    · rfl

theorem apart_unshed : Apart (fun r => Safety.requestSide r || [Reg.throttleShed, .xShedOrder].contains r) s (s.unshed n) := by
  unfold State.unshed
  exact apart_ite (apart_raiseClear (wide_requests _) (apart_set (apart_setBlob (Apart.refl s)))) (Apart.refl s)

theorem unshed_out : (s.unshed n).out = s.out := by
  unfold State.unshed
  split
  · exact raiseClear_out
  · rfl

theorem each_out {α : Type} {l : List α} {f : State → α → State} (h : ∀ t a, (f t a).out = t.out) :
    (s.each l f).out = s.out := by
  induction l generalizing s with
  | nil => rfl
  | cons a l ih => rw [each_cons, ih, h]

end Sys2Proof.Laws

namespace Sys2Proof

open Sys2Proof.Machine Sys2Proof.Laws

/-- Settles O18: a sample is noted, judged and followed, and what follows leaves what the sample told. -/
theorem sensorsFailAndShutdownIsRecorded : Obligations.SensorsFailAndShutdownIsRecorded := by
  refine ⟨⟨fun s i code hp => ?_, fun s cl i ha h0 h4 => ?_, fun s i h => ?_, fun s i hp h4 hu => ?_⟩,
    fun s hp hf => ?_, fun s cl mask ha => ?_⟩
  · have he := live_running (f := fun s => s.sensorSample i code) hp
    refine ⟨_, he, ?_, fun hv h1 h2 h3 h4 => ?_, fun hv h => ?_⟩ <;> rw [sensorSample_eq]
    · rw [sampleFollowed_keeps.get, sampleJudged_get (by decide) (by decide) (by decide), sampleNoted_raw]
    · have hv' : (sampleNoted i code s).sensorValid i = true := by rwa [sampleNoted_valid]
      rw [sampleFollowed_keeps.get, sampleFollowed_keeps.get, sampleJudged_passed hv' (sampleNoted_passes h1 h2 h3 h4)]
      refine ⟨sensorValue_value, ?_⟩
      rw [sensorValue_get (by decide)]
      simpa [State.sensorValid] using hv'
    · have hv' : (sampleNoted i code s).sensorValid i = true := by rwa [sampleNoted_valid]
      obtain ⟨h1, h2, h3⟩ := sampleJudged_failed hv' h
      refine ⟨?_, ?_, ?_⟩
      · rw [sampleFollowed_keeps.get, h1]
      · rw [State.bit, State.nat, sampleFollowed_keeps.get, ← State.nat, ← State.bit, h2]
      · refine (silent_sampleFollowed aside_sensor Silent.refl).raised_after ?_
        rw [Safety.raised, Safety.countedBy, h3, State.nat, State.nat, sampleNoted_get (by decide)]
  · have hs : ∀ r j, r ≠ .bdapRequests → (ready s cl).get r j = s.get r j := fun r j h => ready_get h
    have eff : writeReadmit i (ready s cl) = ((((ready s cl).set .sensorState i 4).set .xSenSame i 0
        |>.set .xSenDis i 0).markTick .xSenPassAt i, accepted) :=
      if_neg (by rw [hs _ _ (by decide)]; exact fun h => h.elim h0 h4)
    obtain ⟨a, he, hack⟩ := write_acked (c := .sensorReadmit cl i) ha rfl eff (out_of_ready rfl)
    refine ⟨_, he, hack, ?_, ?_, ?_, requestChanges_serving (apart_iff.2 ?_)⟩
    · simp (disch := decide) only [reply_get, State.markTick, get_set_reg, get_set_same]
    · simp (disch := decide) only [reply_get, State.markTick, get_set_reg, get_set_same]
    · simp (disch := decide) only [reply_get, State.markTick, get_set_reg, get_set_same]
    · exact apart_set (apart_set (apart_set (apart_set (Apart.refl _))))
  · show State.live s _ = _
    unfold State.live
    simp [h]
  · have he := live_running (f := fun s => if s.get .sensorState i = 4 ∧ s.usSince .xSenPassAt i 1000000 then
      readmitted i s else s) hp
    obtain ⟨h1, h2, h3, h4', h5⟩ := readmitted_reports (s := s) (n := i)
    rw [if_pos ⟨h4, hu⟩] at he
    exact ⟨_, he, h1, h2, h3, h4', h5⟩
  · have he := live_running (f := fun s => if s.flag .xShutdown 0 then s.haven 32 else s) hp
    rw [if_pos hf] at he
    have hc : havenCauses 32 s = 32 := by
      rw [havenCauses, hf]
      rfl
    obtain ⟨hl, hs⟩ := haven_records (n := 32) hf
    by_cases h5 : s.get .deviceModeState 0 = 5
    · obtain ⟨m1, m2, m3, m4, m5⟩ := haven_stay (n := 32) h5
      rw [hc] at m3
      exact ⟨_, he, m1, fun h => absurd h5 h, fun _ => m3, hl, hs⟩
    · obtain ⟨m1, m2, m3, m4, m5, m6⟩ := haven_entry (n := 32) h5
      rw [hc] at m3 m4
      exact ⟨_, he, m1, fun _ => ⟨m3, m4⟩, fun h => absurd h h5, hl, hs⟩
  · have ho : ((ready s cl).each (carriers.filter fun c => bitOf mask.val c) State.unshed).out = (ready s cl).out :=
      each_out fun _ _ => unshed_out
    obtain ⟨a, he, hack⟩ := write_acked (c := .shedRestore cl mask) (eff := writeShed mask.val) ha rfl rfl
      (out_of_ready ho)
    refine ⟨_, he, hack, fun c hc => ?_, requestChanges_serving (apart_iff.2 (apart_each (Apart.refl _)
      fun _ _ ht => ht.trans apart_unshed))⟩
    rw [State.bit, State.nat, reply_get (by decide) (by decide), ← State.nat, ← State.bit]
    have hv := each_views (s := ready s cl) (i := c) (l := carriers.filter fun c => bitOf mask.val c)
      (view := fun t i => t.bit .throttleShed 0 i) (g := fun _ => false) (fun t a i => unshed_bit)
      (nodup_carriers.filter _)
    refine hv.trans ?_
    rw [ready_bit (by decide)]
    simp only [List.mem_filter, mem_carriers, hc, true_and]
    cases bitOf mask.val c <;> simp

end Sys2Proof

/-! # References and the synthesiser loops (R63, R90) -/

namespace Sys2Proof.Laws

set_option Elab.async false

open Sys2Proof.Machine

variable {s₀ s t u : State} {cl : Client} {c : Instr} {r : Reg} {i n e k : Nat} {v : Int} {L : List Reg}

/-! ## What a loop over units does to one of them -/

/-- The registers L of unit i are the same in both states. -/
def Same (L : List Reg) (i : Nat) (s t : State) : Prop := ∀ r ∈ L, t.get r i = s.get r i

theorem Same.refl : Same L i s s := fun _ _ => rfl

theorem Same.trans (h : Same L i s t) (g : Same L i t u) : Same L i s u := fun r hr => (g r hr).trans (h r hr)

theorem Same.get (h : Same L i s t) (hr : r ∈ L := by decide) : t.get r i = s.get r i := h r hr

theorem Same.nat (h : Same L i s t) (hr : r ∈ L := by decide) : t.nat r i = s.nat r i := by
  rw [State.nat, h.get hr, ← State.nat]

/-- A register written at one unit, seen at another or beside it. -/
theorem get_set_beside {l : List Reg} {r' : Reg} (h : i ≠ n ∨ r ∉ l) (hr : r' ∈ l := by decide) :
    (s.set r' n v).get r i = s.get r i :=
  get_set_other _ _ fun he => by
    obtain ⟨h1, h2⟩ := Prod.mk.inj he
    exact h.elim (fun g => g h2) fun g => g (h1 ▸ hr)

/-- What no step of a loop changes, the loop does not change. -/
theorem each_view {α β : Type} {l : List α} {f : State → α → State} {view : State → β}
    (h : ∀ t, ∀ a ∈ l, view (f t a) = view t) : view (s.each l f) = view s := by
  induction l generalizing s with
  | nil => rfl
  | cons a l ih =>
    rw [each_cons]
    exact (ih fun t b hb => h t b (List.mem_cons_of_mem _ hb)).trans (h s a List.mem_cons_self)

/-- A loop over distinct units whose view only the step at unit i changes: it is what that step makes of a state that the
loop has reached with the view unchanged. -/
theorem each_view_at {β : Type} {l : List Nat} {f : State → Nat → State} {view : State → β} {I : State → Prop}
    (hl : l.Nodup) (hi : i ∈ l) (other : ∀ t a, a ∈ l → a ≠ i → view (f t a) = view t) (hs : I s)
    (hI : ∀ t a, a ∈ l → I t → I (f t a)) : ∃ x, I x ∧ view x = view s ∧ view (s.each l f) = view (f x i) := by
  induction l generalizing s with
  | nil => cases hi
  | cons a l ih =>
    obtain ⟨ha, hl⟩ := List.nodup_cons.1 hl
    have hf : ∀ t b, b ∈ l → b ≠ i → view (f t b) = view t := fun t b hb => other t b (List.mem_cons_of_mem _ hb)
    rw [each_cons]
    by_cases h : a = i
    · rw [h] at ha ⊢
      exact ⟨s, hs, rfl, each_view fun t b hb => hf t b hb fun he => ha (he ▸ hb)⟩
    · obtain ⟨x, hx, h1, h2⟩ := ih hl ((List.mem_cons.1 hi).resolve_left (Ne.symm h)) hf
        (hI s a List.mem_cons_self hs) fun t b hb => hI t b (List.mem_cons_of_mem _ hb)
      exact ⟨x, hx, h1.trans (other s a List.mem_cons_self h), h2⟩

/-- The same where the view is the registers L of unit i. -/
theorem each_at {l : List Nat} {f : State → Nat → State} {I : State → Prop} (hl : l.Nodup) (hi : i ∈ l)
    (other : ∀ t a, a ∈ l → a ≠ i → Same L i t (f t a)) (hs : I s) (hI : ∀ t a, a ∈ l → I t → I (f t a)) :
    ∃ x, I x ∧ Same L i s x ∧ Same L i (f x i) (s.each l f) := by
  obtain ⟨x, hx, h1, h2⟩ := each_view_at (view := fun t (r : { r // r ∈ L }) => t.get r.val i) hl hi
    (fun t a ha hne => funext fun r => other t a ha hne r.val r.property) hs hI
  exact ⟨x, hx, fun r hr => congrFun h1 ⟨r, hr⟩, fun r hr => congrFun h2 ⟨r, hr⟩⟩

/-- What a scope leaves, it leaves of every unit. -/
theorem Kept.same {κ : Scope} (h : Kept κ s t) (hL : ∀ r ∈ L, κ (Safety.part r) = true := by decide) : Same L i s t :=
  fun r hr => h.get (hL r hr)

/-- What changes nothing where the block lives changes nothing. -/
theorem live_still {f : State → State} (h : f s = s) : State.live s f = .next s := by
  rw [State.live, h, ite_self]

/-! ## The loops of a carrier -/

/-- The scope that leaves references and loops. -/
abbrev clocksScope : Scope := fun p => match p with
  | .clocks => true
  | _ => false

/-- What a carrier's loops are read from. -/
abbrev loopRegs : List Reg := [.carrierConvSynthState, .xRelock]

theorem Same.rxLoop (h : Same L i s t) (hr : Reg.carrierConvSynthState ∈ L := by decide) : t.rxLoop i = s.rxLoop i := by
  rw [State.rxLoop, State.nat, h _ hr, ← State.nat, ← State.rxLoop]

theorem Same.txLoop (h : Same L i s t) (hr : Reg.carrierConvSynthState ∈ L := by decide) : t.txLoop i = s.txLoop i := by
  rw [State.txLoop, State.nat, h _ hr, ← State.nat, ← State.txLoop]

theorem same_setLoops {tx rx : Nat} (h : n ≠ i) : Same L i s (s.setLoops n tx rx) :=
  fun _ _ => get_set_other _ _ (by simp [Ne.symm h])

theorem same_set (h : n ≠ i) : Same L i s (s.set r n v) := fun _ _ => get_set_other _ _ (by simp [Ne.symm h])

theorem setLoops_loops {tx rx : Nat} (h1 : tx < 4) (h2 : rx < 4) :
    (s.setLoops n tx rx).rxLoop n = rx ∧ (s.setLoops n tx rx).txLoop n = tx := by
  unfold State.rxLoop State.txLoop State.setLoops State.nat field
  rw [get_set_same, Int.toNat_natCast]
  omega

/-- The loops of a carrier and a relock given up, and nothing else of references and loops. -/
theorem toHoldover_loops (h : ¬(s.rxLoop n = 0 ∧ s.txLoop n = 0)) :
    Kept clocksScope ((s.setLoops n (if s.txLoop n = 0 then 0 else 3) (if s.rxLoop n = 0 then 0 else 3)).set .xRelock n 0)
      (s.toHoldover n) := by
  have := fact_false
  unfold State.toHoldover
  rw [if_neg h]
  extract_lets a b
  have ka : Kept clocksScope _ a := kept_calAbandonOffline (kept_agcRestart (Kept.refl _))
  exact kept_refreshRx (kept_refreshConv (kept_ite ka (kept_crHold (kept_set ka (hr := rfl)))))

theorem toHoldover_same (h : n ≠ i) (hL : ∀ r ∈ L, clocksScope (Safety.part r) = true) : Same L i s (s.toHoldover n) := by
  by_cases h0 : s.rxLoop n = 0 ∧ s.txLoop n = 0
  · rw [State.toHoldover, if_pos h0]
    exact Same.refl
  · exact ((same_setLoops h).trans (same_set h)).trans ((toHoldover_loops h0).same hL)

/-- References are not what a carrier's loops write. -/
theorem toHoldover_ref (hr : r ∉ loopRegs) (hc : clocksScope (Safety.part r) = true) :
    (s.toHoldover n).get r k = s.get r k := by
  by_cases h0 : s.rxLoop n = 0 ∧ s.txLoop n = 0
  · rw [State.toHoldover, if_pos h0]
  · simp only [List.mem_cons, List.not_mem_nil, or_false, not_or] at hr
    rw [(toHoldover_loops h0).get hc, get_set_reg _ _ hr.2, State.setLoops, get_set_reg _ _ hr.1]

/-- Every loop of carrier c that is on has state v. -/
abbrev LoopsGo (s t : State) (c v : Nat) : Prop :=
  t.rxLoop c = (if s.rxLoop c = 0 then 0 else v) ∧ t.txLoop c = (if s.txLoop c = 0 then 0 else v)

theorem setLoops_go {v : Nat} (h : v < 4) : LoopsGo s
    (s.setLoops n (if s.txLoop n = 0 then 0 else v) (if s.rxLoop n = 0 then 0 else v)) n v :=
  setLoops_loops (by split <;> omega) (by split <;> omega)

theorem LoopsGo.same {v : Nat} (h : LoopsGo s t n v) (hs : Same loopRegs n s₀ s) (ht : Same loopRegs n t u) :
    LoopsGo s₀ u n v := by
  obtain ⟨h1, h2⟩ := h
  exact ⟨by rw [ht.rxLoop, h1, hs.rxLoop], by rw [ht.txLoop, h2, hs.txLoop]⟩

theorem set_relock_same : Same [.carrierConvSynthState] n s (s.set .xRelock n v) := fun r hr => by
  rw [List.mem_singleton.1 hr, get_set_reg _ _ (by decide)]

theorem toHoldover_go (h : s.rxLoop n ≠ 0) : LoopsGo s (s.toHoldover n) n 3 := by
  have g := setLoops_go (s := s) (n := n) (v := 3) (by decide)
  have k : Same [.carrierConvSynthState] n _ _ := set_relock_same.trans ((toHoldover_loops (fun h0 => h h0.1)).same)
  exact ⟨k.rxLoop.trans g.1, k.txLoop.trans g.2⟩

theorem mem_crew {k c : Nat} : c ∈ crewCarriers k ↔ c / 3 = k := by
  simp only [crewCarriers, List.mem_cons, List.not_mem_nil, or_false]
  omega

theorem nodup_crew {k : Nat} : (crewCarriers k).Nodup := by simp [crewCarriers]

/-! ## A REFL input as measured -/

theorem reflMeasured_get {present : Bool} {offset : Int} :
    (s.reflMeasured k present offset).get .reflState k = reflStateOf present offset
      ∧ (s.reflMeasured k present offset).get .reflOffset k
        = (if present then reflOffsetOf offset else -2147483648)
      ∧ (s.reflMeasured k present offset).get .reflLosses k
        = (if reflStateOf present offset = 1 ∨ s.get .reflState k = reflStateOf present offset then s.get .reflLosses k
          else ((s.nat .reflLosses k + 1) % 2 ^ Reg.bits .reflLosses : Nat)) := by
  unfold State.reflMeasured
  extract_lets new a
  refine ⟨?_, get_set_same _ _ _ _, ?_⟩
  · rw [get_set_reg _ _ (by decide), get_set_same]
  · rw [get_set_reg _ _ (by decide), get_set_reg _ _ (by decide)]
    unfold a
    split
    · rfl
    · exact get_bump_same

theorem apart_reflMeasured {present : Bool} {offset : Int} :
    Safety.changesOnly [.reflState, .reflOffset, .reflLosses] s (s.reflMeasured k present offset) := by
  refine apart_iff.2 ?_
  unfold State.reflMeasured
  exact apart_set (apart_set (apart_ite (Apart.refl s) (apart_bump (Apart.refl s))))

theorem reflMeasured_within {present : Bool} {offset : Int} (h : reflStateOf present offset = 1) :
    Safety.changesOnly [.reflState, .reflOffset] s (s.reflMeasured k present offset) := by
  refine apart_iff.2 ?_
  unfold State.reflMeasured
  dsimp only
  rw [if_pos (.inl h)]
  exact apart_set (apart_set (Apart.refl s))

theorem reflMeasured_loops {present : Bool} {offset : Int} : Same [.carrierConvSynthState, .xRelock, .carrierState,
    .carrierLastDrop] i s (s.reflMeasured k present offset) := fun r hr =>
  (apart_iff.1 apart_reflMeasured).regs r i (by
    simp only [List.mem_cons, List.not_mem_nil, or_false] at hr
    rcases hr with rfl | rfl | rfl | rfl <;> rfl)

theorem reflLoss_within {present : Bool} {offset : Int} (h : reflStateOf present offset = 1) :
    s.reflLoss k present offset = s.reflMeasured k present offset := by
  unfold State.reflLoss
  dsimp only
  rw [reflMeasured_get.1, if_pos h]

/-- What a carrier does at the loss of its input. -/
def lossStep (s : State) (c : Nat) : State := if s.rxLoop c = 1 && !s.flag .xRelock c then s else s.toHoldover c

theorem reflLoss_lost {present : Bool} {offset : Int} (h : reflStateOf present offset ≠ 1) :
    s.reflLoss k present offset = (s.reflMeasured k present offset).each (crewCarriers k) lossStep := by
  unfold State.reflLoss
  dsimp only
  rw [reflMeasured_get.1, if_neg h]
  rfl

theorem lossStep_same (h : n ≠ i) : Same loopRegs i s (lossStep s n) := by
  unfold lossStep
  split
  · exact Same.refl
  · exact toHoldover_same h (by decide)

theorem reflLoss_ref {present : Bool} {offset : Int} (hr : r ∉ loopRegs) (hc : clocksScope (Safety.part r) = true) :
    (s.reflLoss k present offset).get r i = (s.reflMeasured k present offset).get r i := by
  by_cases h : reflStateOf present offset = 1
  · rw [reflLoss_within h]
  · rw [reflLoss_lost h]
    refine get_each fun t a => ?_
    unfold lossStep
    split
    · rfl
    · exact toHoldover_ref hr hc

theorem reflLoss_holds {present : Bool} {offset : Int} (h : reflStateOf present offset ≠ 1) (hm : n / 3 = k)
    (h2 : 2 ≤ s.rxLoop n) : LoopsGo s (s.reflLoss k present offset) n 3 := by
  rw [reflLoss_lost h]
  obtain ⟨x, -, h3, h4⟩ := each_at (s := s.reflMeasured k present offset) (L := loopRegs) (f := lossStep)
    (I := fun _ => True) nodup_crew (mem_crew.2 hm) (fun t a _ ha => lossStep_same ha) trivial fun _ _ _ _ => trivial
  have hx : Same loopRegs n s x := Same.trans (fun r hr => reflMeasured_loops r (by
    simp only [List.mem_cons, List.not_mem_nil, or_false] at hr ⊢
    tauto)) h3
  refine (toHoldover_go (s := x) ?_).same hx ?_
  · rw [hx.rxLoop]
    omega
  · have : lossStep x n = x.toHoldover n := by
      unfold lossStep
      rw [hx.rxLoop, if_neg (by simp; omega)]
    rwa [this] at h4

/-! ## A relock (R63 step 3) -/

theorem loopsLock_loops : Kept clocksScope (s.setLoops n (if s.txLoop n = 0 then 0 else 2) (if s.rxLoop n = 0 then 0 else 2))
    (s.loopsLock n) := by
  have := fact_false
  unfold State.loopsLock
  extract_lets tx rx a b
  have hb : Kept clocksScope a b := kept_ite (kept_bandChosen (Kept.refl a)) (Kept.refl a)
  exact kept_ite (kept_bandChosen hb) hb

theorem loopsLock_go : LoopsGo s (s.loopsLock n) n 2 := by
  have g := setLoops_go (s := s) (n := n) (v := 2) (by decide)
  have k : Same [.carrierConvSynthState] n _ (s.loopsLock n) := loopsLock_loops.same
  exact ⟨k.rxLoop.trans g.1, k.txLoop.trans g.2⟩

theorem loopsLock_carriers : Kept carriersScope s (s.loopsLock n) := by
  have := fact_false
  exact kept_loopsLock (Kept.refl s)

/-- What a relock may change of a carrier. -/
abbrev relockRegs : List Reg := [.carrierConvSynthState, .carrierState, .carrierLastDrop]

/-- Registers of two groups are the same where each group is. -/
theorem Same.of_parts (h1 : Same [.carrierConvSynthState] i s t) (h2 : Same [.carrierState, .carrierLastDrop] i s t) :
    Same relockRegs i s t := fun r hr => (List.mem_cons.1 hr).elim (fun h => h1 r (List.mem_singleton.2 h)) (h2 r)

theorem loopsLock_same (h : n ≠ i) : Same relockRegs i s (s.loopsLock n) :=
  ((same_setLoops h).trans loopsLock_loops.same).of_parts loopsLock_carriers.same

/-- The carriers' states are what an entry to Seeking notes. -/
theorem toSeeking_drop (h : n ≠ i) : Same [.carrierState, .carrierLastDrop] i s (s.toSeeking n v) := by
  have := fact_false
  have h1 : Same [.carrierState, .carrierLastDrop] i s (s.noteDrop n v) := by
    unfold State.noteDrop
    split
    · exact same_set h
    · exact Same.refl
  have h2 : Kept carriersScope (s.noteDrop n v) ((s.noteDrop n v).bondDrop n) := kept_bondDrop (Kept.refl _)
  refine ((h1.trans h2.same).trans fun r hr => ?_).trans toSeeking_kept.same
  rcases List.mem_cons.1 hr with rfl | hr
  · rw [setCarrierState_get, if_neg (Ne.symm h)]
  · rw [List.mem_singleton.1 hr, setCarrierState_get_other (by decide) (by decide)]

theorem toSeeking_state : (s.toSeeking n v).get .carrierState n = 1
    ∧ (3 ≤ s.get .carrierState n → (s.toSeeking n v).get .carrierLastDrop n = v) := by
  have := fact_false
  have kb : ∀ x : State, Kept carriersScope x (x.bondDrop n) := fun x => kept_bondDrop (Kept.refl x)
  refine ⟨?_, fun h => ?_⟩
  · rw [toSeeking_kept.get, setCarrierState_get, if_pos rfl]
    rfl
  · rw [toSeeking_kept.get, setCarrierState_get_other (by decide) (by decide), (kb _).get, State.noteDrop, if_pos ?_,
      get_set_same]
    exact decide_eq_true h

/-- A loop sent to another rate is its carrier's own, and no reference. -/
theorem retune_get {b : Nat} (h : i ≠ n ∨ r ∈ [Reg.reflState, .reflOffset]) (hc : clocksScope (Safety.part r) = true) :
    (s.retune n b).get r i = s.get r i := by
  have := fact_false
  have h : i ≠ n ∨ r ∉ [Reg.xRxRate, .carrierConvRxRate, .xRelock, .carrierConvSynthState] := h.imp_right fun hr => by
    simp only [List.mem_cons, List.not_mem_nil, or_false] at hr
    rcases hr with rfl | rfl <;> decide
  unfold State.retune
  split
  · rfl
  · extract_lets a d
    have ha : a.get r i = s.get r i := by
      refine (get_each fun _ _ => get_set_reg _ _ fun he => ?_).trans ((get_set_beside h).trans (get_set_beside h))
      rw [he] at hc
      exact absurd hc (by decide)
    have hd : d.get r i = a.get r i := by
      unfold d
      split
      · exact get_set_beside h
      · exact (get_set_beside h).trans (get_set_beside h)
    have ks : Kept clocksScope d (d.surveyAll n) := kept_surveyAll (Kept.refl d)
    rw [← ha, ← hd]
    clear_value d
    refine Kept.get (κ := clocksScope) ?_ hc
    refine kept_refreshRx (kept_refreshConv (kept_calAbandonAdcs (kept_agcRestart (kept_crHold ?_))))
    repeat' first | with_reducible apply kept_set | with_reducible apply kept_refreshBusy | exact ks | exact rfl

theorem retune_same {b : Nat} (h : n ≠ i) : Same [.carrierConvSynthState] i s (s.retune n b) := fun r hr => by
  rw [List.mem_singleton.1 hr]
  exact retune_get (.inl (Ne.symm h)) rfl

/-- The state at an entry to Seeking before and after its loop is sent to its rate. -/
theorem toSeeking_clocks : ∃ x b, Kept clocksScope s x ∧ Kept clocksScope (x.retune n b) (s.toSeeking n v) := by
  have := fact_false
  exact ⟨s.seekEntry n v, _, kept_seekEntry (Kept.refl s),
    kept_refreshRx (kept_refreshConv (kept_rxFigures (kept_seekState (Kept.refl _))))⟩

theorem toSeeking_loops (h : n ≠ i) : Same [.carrierConvSynthState] i s (s.toSeeking n v) := by
  obtain ⟨x, b, h1, h2⟩ := toSeeking_clocks (s := s) (n := n) (v := v)
  exact (h1.same.trans (retune_same h)).trans h2.same

theorem afterRelock_idle (h : s.idle n = true) : Same relockRegs n s (s.afterRelock n) := by
  have := fact_false
  unfold State.afterRelock
  extract_lets a b
  have ka : Kept clocksScope s a := kept_bankRefit (Kept.refl s)
  have kc : Kept carriersScope s a := kept_bankRefit (Kept.refl s)
  have hi : a.idle n = true := by rw [State.idle, kc.get, ← State.idle, h]
  rw [if_pos hi]
  exact Same.of_parts (Kept.same (κ := clocksScope) (kept_refreshRx (kept_refreshConv ka)))
    (Kept.same (κ := carriersScope) (kept_refreshRx (kept_refreshConv kc)))

theorem afterRelock_same (h : n ≠ i) : Same relockRegs i s (s.afterRelock n) := by
  have := fact_false
  unfold State.afterRelock
  extract_lets a b
  have ka : Kept clocksScope s a := kept_bankRefit (Kept.refl s)
  have kc : Kept carriersScope s a := kept_bankRefit (Kept.refl s)
  have kb : Kept clocksScope s b := kept_set (kept_surveyAll ka) (hr := rfl)
  have kd : Kept carriersScope s b := kept_set (kept_surveyAll kc) (hr := rfl)
  have ks : ∀ x : State, Kept clocksScope x (((x.seekState n).refreshConv n).refreshRx n) := fun x =>
    kept_refreshRx (kept_refreshConv (kept_seekState (Kept.refl x)))
  split
  · exact Same.of_parts (Kept.same (κ := clocksScope) (kept_refreshRx (kept_refreshConv ka)))
      (Kept.same (κ := carriersScope) (kept_refreshRx (kept_refreshConv kc)))
  · split
    · exact Same.of_parts ((kb.same.trans (retune_same h)).trans (ks _).same)
        (Kept.same (κ := carriersScope) (kept_refreshRx (kept_refreshConv (kept_seekState (kept_retune kd)))))
    · exact Same.of_parts (ka.same.trans (toSeeking_loops h)) (kc.same.trans (toSeeking_drop h))

theorem afterRelock_seeks (h : s.idle n = false) : (s.afterRelock n).get .carrierState n = 1
    ∧ (3 ≤ s.get .carrierState n → (s.afterRelock n).get .carrierLastDrop n = 5) := by
  have := fact_false
  unfold State.afterRelock
  extract_lets a b
  have kc : Kept carriersScope s a := kept_bankRefit (Kept.refl s)
  have hi : a.idle n = false := by rw [State.idle, kc.get, ← State.idle, h]
  have kd : Kept carriersScope s (((b.retune n (b.seekRate n)).seekState n).refreshConv n |>.refreshRx n) :=
    kept_refreshRx (kept_refreshConv (kept_seekState (kept_retune (kept_set (kept_surveyAll kc) (hr := rfl)))))
  have hs : a.get .carrierState n = s.get .carrierState n := kc.get
  rw [if_neg (by simp [hi])]
  split
  · rename_i h1
    refine ⟨by rw [kd.get, ← hs, h1], fun h3 => ?_⟩
    omega
  · exact ⟨toSeeking_state.1, fun h3 => toSeeking_state.2 (by omega)⟩

/-- What a carrier does at the return of its input. -/
def returnStep (s : State) (c : Nat) : State :=
  if s.rxLoop c = 3 || s.txLoop c = 3 then (s.loopsLock c).afterRelock c else s

theorem returnStep_same (h : n ≠ i) : Same relockRegs i s (returnStep s n) := by
  unfold returnStep
  split
  · exact (loopsLock_same h).trans (afterRelock_same h)
  · exact Same.refl

theorem reflRelock_back {offset : Int} (h : offset.natAbs ≤ 100000) : s.reflRelock k offset
    = (s.reflMeasured k true offset).each (crewCarriers k) returnStep := by
  unfold State.reflRelock
  dsimp only
  have h1 : reflStateOf true offset = 1 := if_pos h
  rw [reflMeasured_get.1, if_neg (not_not.2 h1)]
  rfl

theorem reflStateOf_beyond {offset : Int} (h : 100000 < offset.natAbs) : reflStateOf true offset = 2 :=
  if_neg (Nat.not_le.2 h)

theorem reflRelock_beyond {offset : Int} (h : 100000 < offset.natAbs) :
    s.reflRelock k offset = s.reflMeasured k true offset := by
  unfold State.reflRelock
  dsimp only
  rw [reflMeasured_get.1, reflStateOf_beyond h, if_pos (by decide)]

/-- The references are not what a relock writes. -/
theorem returnStep_ref (hr : r ∈ [Reg.reflState, .reflOffset]) : (returnStep s n).get r i = s.get r i := by
  have := fact_false
  have hc : clocksScope (Safety.part r) = true := by
    simp only [List.mem_cons, List.not_mem_nil, or_false] at hr
    rcases hr with rfl | rfl <;> rfl
  have hl : (s.loopsLock n).get r i = s.get r i := by
    refine (loopsLock_loops.get hc).trans (get_set_reg _ _ fun he => ?_)
    rw [he] at hr
    exact absurd hr (by decide)
  have ks : ∀ x : State, Kept clocksScope x (((x.seekState n).refreshConv n).refreshRx n) := fun x =>
    kept_refreshRx (kept_refreshConv (kept_seekState (Kept.refl x)))
  unfold returnStep
  split
  · rw [← hl]
    generalize s.loopsLock n = y
    unfold State.afterRelock
    extract_lets a b
    have ka : Kept clocksScope y a := kept_bankRefit (Kept.refl y)
    have kb : Kept clocksScope y b := kept_set (kept_surveyAll ka) (hr := rfl)
    split
    · exact (kept_refreshRx (κ := clocksScope) (kept_refreshConv ka)).get hc
    · split
      · rw [(ks _).get hc, retune_get (.inr hr) hc, kb.get hc]
      · obtain ⟨x, b, h1, h2⟩ := toSeeking_clocks (s := a) (n := n) (v := 5)
        rw [h2.get hc, retune_get (.inr hr) hc, h1.get hc, ka.get hc]
  · rfl

theorem reflRelock_carrier {offset : Int} (h : offset.natAbs ≤ 100000) (hm : n / 3 = k) (h3 : s.rxLoop n = 3) :
    (s.get .carrierState n = 0 → LoopsGo s (s.reflRelock k offset) n 2)
      ∧ (s.get .carrierState n ≠ 0 → (s.reflRelock k offset).get .carrierState n = 1)
      ∧ (3 ≤ s.get .carrierState n → (s.reflRelock k offset).get .carrierLastDrop n = 5) := by
  rw [reflRelock_back h]
  obtain ⟨x, -, hx, hy⟩ := each_at (s := s.reflMeasured k true offset) (L := relockRegs) (f := returnStep)
    (I := fun _ => True) nodup_crew (mem_crew.2 hm) (fun t a _ ha => returnStep_same ha) trivial fun _ _ _ _ => trivial
  have hx : Same relockRegs n s x := Same.trans (fun r hr => reflMeasured_loops r (by
    simp only [List.mem_cons, List.not_mem_nil, or_false] at hr ⊢
    tauto)) hx
  have hf : returnStep x n = (x.loopsLock n).afterRelock n := if_pos (by rw [hx.rxLoop, h3]; rfl)
  have hc : (x.loopsLock n).get .carrierState n = s.get .carrierState n := loopsLock_carriers.get.trans hx.get
  rw [hf] at hy
  refine ⟨fun h0 => ?_, fun h0 => ?_, fun h0 => ?_⟩
  · have hi : (x.loopsLock n).idle n = true := by simp [State.idle, hc, h0]
    have ht := (afterRelock_idle hi).trans hy
    obtain ⟨g1, g2⟩ := loopsLock_go (s := x) (n := n)
    exact ⟨by rw [ht.rxLoop, g1, hx.rxLoop], by rw [ht.txLoop, g2, hx.txLoop]⟩
  · have hi : (x.loopsLock n).idle n = false := by simp [State.idle, hc, h0]
    rw [hy.get, (afterRelock_seeks hi).1]
  · have hi : (x.loopsLock n).idle n = false := by
      simp only [State.idle, hc, decide_eq_false_iff_not]
      omega
    rw [hy.get, (afterRelock_seeks hi).2 (by rwa [hc])]

/-! ## Loops still locking (R63, R90) -/

/-- A loop that starts, and is not relocking. -/
def starting (s : State) (c : Nat) : Bool := (s.rxLoop c = 1 || s.txLoop c = 1) && !s.flag .xRelock c

/-- Loops that start take what `f` gives them; the others stay. -/
def startStep (f : State → Nat → State) (s : State) (c : Nat) : State :=
  if starting s c then (f s c).refreshConv c else s

theorem starting_each {f : State → Nat → State} (hs : ∀ t a, a ≠ n → Same loopRegs n t (f t a)) (hm : n / 3 = k)
    (h1 : s.rxLoop n = 1 ∨ s.txLoop n = 1) (h2 : s.flag .xRelock n = false) :
    ∃ x, Same loopRegs n s x ∧ Same loopRegs n (f x n) ((s.each (crewCarriers k) (startStep f)).calBegin) := by
  have := fact_false
  have conv : ∀ (x : State) a, Kept clocksScope x (x.refreshConv a) := fun x a => kept_refreshConv (Kept.refl x)
  have begin : ∀ x : State, Kept clocksScope x x.calBegin := fun x => kept_calBegin (Kept.refl x)
  obtain ⟨x, -, hx, hy⟩ := each_at (s := s) (L := loopRegs) (f := startStep f) (I := fun _ => True) nodup_crew
    (mem_crew.2 hm) (fun t a _ ha => by
      unfold startStep
      split
      · exact (hs t a ha).trans (conv _ _).same
      · exact Same.refl) trivial fun _ _ _ _ => trivial
  have hr : x.flag .xRelock n = false := by rw [State.flag, hx.get, ← State.flag, h2]
  have hf : startStep f x n = (f x n).refreshConv n := if_pos (by
    unfold starting
    rw [hx.rxLoop, hx.txLoop, hr]
    rcases h1 with h1 | h1 <;> simp [h1])
  rw [hf] at hy
  exact ⟨x, hx, ((conv _ _).same.trans hy).trans (begin _).same⟩

end Sys2Proof.Laws

namespace Sys2Proof

open Sys2Proof.Machine Sys2Proof.Laws

/-- Settles O20: each loop over a crew's carriers is followed at one carrier. -/
theorem referencesDriveTheirLoops : Obligations.ReferencesDriveTheirLoops := by
  refine ⟨fun s k present offset hp => ?_, fun s k offset hp ho => ?_, fun s k offset hp ho => ?_,
    fun s k hp h1 => ?_, fun s k h1 => ?_, fun s k hp h1 => ?_, fun s k h1 => ?_⟩
  · have he := live_running (f := fun s => s.reflLoss k present offset) hp
    have hn : reflStateOf present offset
        = (if present = false then 0 else if offset.natAbs ≤ 100000 then 1 else 2 : Int) := by
      cases present <;> rfl
    obtain ⟨h1, h2, h3⟩ := reflMeasured_get (s := s) (k := k) (present := present) (offset := offset)
    have ref : ∀ r, r ∈ [Reg.reflState, .reflOffset, .reflLosses] → (s.reflLoss k present offset).get r k
        = (s.reflMeasured k present offset).get r k := fun r hr => by
      simp only [List.mem_cons, List.not_mem_nil, or_false] at hr
      rcases hr with rfl | rfl | rfl <;> exact reflLoss_ref (by decide) rfl
    intro new
    have hn : reflStateOf present offset = new := hn
    clear_value new
    subst hn
    refine ⟨_, he, (ref _ (by decide)).trans h1, ?_, fun a b => ?_, fun a => ?_, fun a => ?_, fun a c hm hl => ?_⟩
    · rw [ref _ (by decide), h2]
      rfl
    · rw [Safety.countedBy, ref _ (by decide), h3, if_neg (not_or.2 ⟨a, b⟩)]
    · rw [ref _ (by decide), h3, if_pos a]
    · rw [reflLoss_within a]
      exact reflMeasured_within a
    · exact reflLoss_holds a hm hl
  · have he := live_running (f := fun s => s.reflRelock k offset) hp
    obtain ⟨h1, h2, -⟩ := reflMeasured_get (s := s) (k := k) (present := true) (offset := offset)
    have ref : ∀ r, r ∈ [Reg.reflState, .reflOffset] → (s.reflRelock k offset).get r k
        = (s.reflMeasured k true offset).get r k := fun r hr => by
      rw [reflRelock_back ho]
      exact get_each fun _ _ => returnStep_ref hr
    refine ⟨_, he, ?_, ?_, fun c hm hl => reflRelock_carrier ho hm hl⟩
    · rw [ref _ (by decide), h1]
      exact if_pos ho
    · rw [ref _ (by decide), h2, if_pos rfl, reflOffsetOf]
      omega
  · have he := live_running (f := fun s => s.reflRelock k offset) hp
    rw [reflRelock_beyond ho] at he
    obtain ⟨h1, h2, -⟩ := reflMeasured_get (s := s) (k := k) (present := true) (offset := offset)
    exact ⟨_, he, h1.trans (reflStateOf_beyond ho), h2, apart_reflMeasured⟩
  · have he := live_running (f := fun s => s.synthLock k) hp
    refine ⟨_, he, fun c hm hl hr => ?_⟩
    obtain ⟨x, hx, hy⟩ := starting_each (f := State.loopsLock)
      (fun t a ha => (same_setLoops ha).trans loopsLock_loops.same) hm hl hr
    rw [State.synthLock, if_neg (not_not.2 h1)]
    exact loopsLock_go.same hx hy
  · exact live_still (f := fun s => s.synthLock k) (if_pos h1)
  · have he := live_running (f := fun s => s.synthHoldover k) hp
    refine ⟨_, he, fun c hm hl hr => ?_⟩
    obtain ⟨x, hx, hy⟩ := starting_each (f := fun s c => s.setLoops c 3 3) (fun t a ha => same_setLoops ha) hm hl hr
    obtain ⟨g1, g2⟩ := setLoops_loops (s := x) (n := c) (tx := 3) (rx := 3) (by decide) (by decide)
    rw [State.synthHoldover, if_neg h1]
    exact ⟨hy.rxLoop.trans g1, hy.txLoop.trans g2⟩
  · exact live_still (f := fun s => s.synthHoldover k) (if_pos h1)

end Sys2Proof

/-! # Gain (R66 to R70, R83) -/

namespace Sys2Proof.Laws

set_option Elab.async false

open Sys2Proof.Machine

variable {s₀ s t u : State} {cl : Client} {c : Instr} {r : Reg} {i n e k : Nat} {v : Int} {L : List Reg}

theorem mem_channels {a c : Nat} : a ∈ channels c ↔ a / 4 = c := by
  simp only [channels, List.mem_cons, List.not_mem_nil, or_false]
  omega

theorem nodup_channels {c : Nat} : (channels c).Nodup := by simp [channels]

theorem channel_mem {c : Nat} (n : Fin 4) : 4 * c + n.val ∈ channels c := mem_channels.2 (by omega)

/-! ## The window of a channel -/

/-- What the window of a channel writes. -/
abbrev channelRegs : List Reg := [.adcRms, .xGainStep, .xAgcRun, .adcAgcAtLimit]

/-- The demand beyond the code range counted, or its end noted. -/
def demandNoted (a : Nat) (beyond : Bool) (s : State) : State :=
  if beyond then
    let s := s.set .xAgcRun a (s.get .xAgcRun a + 1)
    if 16 ≤ s.get .xAgcRun a ∧ s.get .adcAgcAtLimit a = 0 then (s.set .adcAgcAtLimit a 1).raise (evAdc a 1) [] else s
  else (s.set .xAgcRun a 0).set .adcAgcAtLimit a 0

theorem demandNoted_get {b : Bool} (hs : Safety.eventSide r = false) (h : i ≠ n ∨ r ∉ channelRegs) :
    (demandNoted n b s).get r i = s.get r i := by
  unfold demandNoted
  split
  · dsimp only
    split
    · rw [get_raise hs, get_set_beside h, get_set_beside h]
    · rw [get_set_beside h]
  · rw [get_set_beside h, get_set_beside h]

/-- The step a channel's window decides: whether its demand is beyond the code range, and the step. -/
def windowStep (gain : Int) (down up : Bool) : Bool × Int :=
  let beyond := (down && gain == 0) || (up && gain == 36)
  (beyond, if beyond then 0 else if down then -1 else if up then 1 else 0)

theorem agcChannel_eq {a : Nat} : s.agcChannel a n
    = let sum := s.nat .xAgcSum a
      let auto := s.get .adcAgcMode a == 1
      let w := windowStep (s.get .adcAgcGain a)
        (auto && aboveWindow sum n (s.nat .adcAgcTarget a) (s.nat .adcAgcHysteresis a))
        (auto && belowWindow sum n (s.nat .adcAgcTarget a) (s.nat .adcAgcHysteresis a))
      demandNoted a w.1 ((s.set .adcRms a (rmsOf sum n : Nat)).set .xGainStep a w.2) := by
  have h : ∀ r, r ≠ .adcRms → ∀ v : Int, (s.set .adcRms a v).get r a = s.get r a := fun r hr v => get_set_reg _ _ hr
  unfold State.agcChannel
  simp only [State.nat, h _ (show Reg.adcAgcTarget ≠ .adcRms by decide), h _ (show Reg.adcAgcHysteresis ≠ .adcRms by decide),
    h _ (show Reg.adcAgcGain ≠ .adcRms by decide), h _ (show Reg.adcAgcMode ≠ .adcRms by decide)]
  rfl

theorem agcChannel_get {a : Nat} (hs : Safety.eventSide r = false) (h : i ≠ a ∨ r ∉ channelRegs) :
    (s.agcChannel a n).get r i = s.get r i := by
  rw [agcChannel_eq]
  dsimp only
  rw [demandNoted_get hs h, get_set_beside h, get_set_beside h]

/-- A channel is above its window or below it, never both. -/
theorem above_not_below {sum m target h : Nat} (ha : aboveWindow sum m target h = true) :
    belowWindow sum m target h = false := by
  have h1 : 1 ≤ 10 ^ h := Nat.one_le_pow _ _ (by decide)
  unfold aboveWindow at ha
  unfold belowWindow
  rw [decide_eq_true_eq] at ha
  rw [decide_eq_false_iff_not, not_lt]
  generalize (m * target ^ 2) ^ 40 = x at *
  generalize sum ^ 40 = y at *
  generalize 10 ^ h = p at *
  calc x ≤ p * x := Nat.le_mul_of_pos_left _ h1
    _ ≤ y := ha.le
    _ ≤ p * y := Nat.le_mul_of_pos_left _ h1

theorem agcChannel_reports {a : Nat} : (s.agcChannel a n).get .adcRms a = (rmsOf (s.nat .xAgcSum a) n : Nat)
    ∧ (s.agcChannel a n).get .xGainStep a = (windowStep (s.get .adcAgcGain a)
      (s.get .adcAgcMode a == 1 && aboveWindow (s.nat .xAgcSum a) n (s.nat .adcAgcTarget a) (s.nat .adcAgcHysteresis a))
      (s.get .adcAgcMode a == 1
        && belowWindow (s.nat .xAgcSum a) n (s.nat .adcAgcTarget a) (s.nat .adcAgcHysteresis a))).2 := by
  have note : ∀ (x : State) b r, r ∈ [Reg.adcRms, .xGainStep] → (demandNoted a b x).get r a = x.get r a := fun x b r hr => by
    simp only [List.mem_cons, List.not_mem_nil, or_false] at hr
    unfold demandNoted
    dsimp only
    rcases hr with rfl | rfl <;> split <;> (try split) <;>
      simp (disch := decide) only [get_raise, get_set_reg]
  rw [agcChannel_eq]
  dsimp only
  rw [note _ _ _ (by decide), note _ _ _ (by decide), get_set_reg _ _ (by decide), get_set_same, get_set_same]
  exact ⟨rfl, rfl⟩

/-- The step of a channel in automatic mode, and in another. -/
theorem windowStep_reports {g m : Int} {above below : Bool} (h : above = true → below = false) :
    let w := (windowStep g (m == 1 && above) (m == 1 && below)).2
    (m = 1 → above = true → w = if g = 0 then 0 else -1) ∧ (m = 1 → above = false → below = true → g ≠ 36 → w = 1)
      ∧ (m = 1 → above = false → below = true → g = 36 → w = 0) ∧ (m ≠ 1 ∨ above = false ∧ below = false → w = 0) := by
  refine ⟨fun hm ha => ?_, fun hm ha hb hg => ?_, fun hm ha hb hg => ?_, fun hn => ?_⟩
  · rw [hm, h ha, ha]
    by_cases hg : g = 0 <;> simp [windowStep, hg]
  · rw [hm, ha, hb]
    simp [windowStep, hg]
  · rw [hm, ha, hb, hg]
    rfl
  · rcases hn with hm | ⟨ha, hb⟩
    · have hm : (m == 1) = false := by simpa using hm
      rw [hm]
      rfl
    · rw [ha, hb, Bool.and_false]
      rfl

/-! ## The window of a carrier -/

theorem each_set {l : List Nat} {f : Nat → Int} :
    (s.each l fun s a => s.set r a (f a)).get r i = if i ∈ l then f i else s.get r i := by
  induction l generalizing s with
  | nil => simp [State.each]
  | cons a l ih =>
    rw [each_cons, ih, get_set]
    by_cases h : i ∈ l
    · simp [h]
    · by_cases ha : i = a <;> simp [h, ha]

/-- What the start of a window clears of its carrier, the sums apart. -/
abbrev windowRegs : List Reg := [.xAgcSum, .xAgcSets, .xAgcGood, .xAgcSkip, .xAgcBelow, .xGainWait, .xGainDue]

theorem apart_agcRestart {K : Reg → Bool} (h : Apart K s₀ s) (hK : ∀ r ∈ windowRegs, K r = true) :
    Apart K s₀ (s.agcRestart n) := by
  have one : ∀ (x : State) r j v, Apart K s₀ x → r ∈ windowRegs → Apart K s₀ (x.set r j v) := fun _ r _ _ hx hr =>
    apart_set hx (hK r hr)
  have sums : Apart K s₀ (s.each (channels n) fun s a => s.set .xAgcSum a 0) :=
    apart_each h fun _ _ ht => one _ _ _ _ ht (by decide)
  unfold State.agcRestart
  exact one _ _ _ _ (one _ _ _ _ (one _ _ _ _ (one _ _ _ _ (one _ _ _ _ (one _ _ _ _ sums (by decide)) (by decide))
    (by decide)) (by decide)) (by decide)) (by decide)

theorem agcRestart_get (hr : r ∉ windowRegs) : (s.agcRestart n).get r i = s.get r i :=
  (apart_agcRestart (K := windowRegs.contains) (Apart.refl s) fun r h => by simpa using h).regs r i (by simpa using hr)

/-- A window of carrier c begins. -/
def Restarted (t : State) (c : Nat) : Prop := t.get .xAgcSets c = 0 ∧ t.get .xAgcGood c = 0
  ∧ ∀ n : Fin 4, t.get .xAgcSum (4 * c + n.val) = 0

theorem agcRestart_restarted : Restarted (s.agcRestart n) n := by
  unfold State.agcRestart
  refine ⟨?_, ?_, fun k => ?_⟩
  · simp (disch := decide) only [get_set_reg, get_set_same]
  · simp (disch := decide) only [get_set_reg, get_set_same]
  · simp (disch := decide) only [get_set_reg]
    rw [each_set, if_pos (channel_mem k)]

theorem agcRestart_due : (s.agcRestart n).get .xGainDue n = 0 ∧ (s.agcRestart n).get .xAgcSkip n = 0 := by
  unfold State.agcRestart
  constructor <;> simp (disch := decide) only [get_set_reg, get_set_same]

/-- The window of carrier c measured, where enough of its sets are unflagged. -/
def windowMeasured (c : Nat) (s : State) : State :=
  let full := !s.flag .xAgcBelow c
  let good := s.nat .xAgcGood c
  if good < 16 then s
  else
    let s := s.each (channels c) fun s a => s.agcChannel a (256 * good)
    s.setFlag .xAdcLos c (full && (channels c).all fun a => decide (s.nat .adcRms a < 256 * s.nat .carrierDefectLosFloor c))

/-- Some channel of a measured window steps. -/
def windowSteps (c : Nat) (s : State) : Bool :=
  decide (16 ≤ s.nat .xAgcGood c) && (channels c).any fun a => (windowMeasured c s).get .xGainStep a != 0

theorem agcWindow_eq (h : 256 ≤ s.nat .xAgcSets n) : s.agcWindow n
    = if windowSteps n s then
        ((windowMeasured n s).agcRestart n).set .xGainDue n 1 |>.set .xGainWait n 2 |>.set .xAgcSkip n 4
      else (windowMeasured n s).agcRestart n := by
  unfold State.agcWindow
  rw [if_neg (by omega)]
  rfl

theorem windowMeasured_few (h : s.nat .xAgcGood n < 16) : windowMeasured n s = s := if_pos h

/-- What the window of a channel reads, and what it tells. -/
abbrev readRegs : List Reg := [.xAgcSum, .adcAgcTarget, .adcAgcHysteresis, .adcAgcGain, .adcAgcMode, .adcRms, .xGainStep]

theorem windowMeasured_channel (h : 16 ≤ s.nat .xAgcGood n) (k : Fin 4) :
    ∃ x, Same readRegs (4 * n + k.val) s x
      ∧ Same readRegs (4 * n + k.val) (x.agcChannel (4 * n + k.val) (256 * s.nat .xAgcGood n)) (windowMeasured n s) := by
  obtain ⟨x, -, h1, h2⟩ := each_at (s := s) (f := fun t a => t.agcChannel a (256 * s.nat .xAgcGood n)) (I := fun _ => True)
    (L := readRegs) nodup_channels (channel_mem (c := n) k) (fun t a _ ha r hr => agcChannel_get (by
      simp only [List.mem_cons, List.not_mem_nil, or_false] at hr
      rcases hr with rfl | rfl | rfl | rfl | rfl | rfl | rfl <;> rfl) (.inl (Ne.symm ha))) trivial fun _ _ _ _ => trivial
  refine ⟨x, h1, ?_⟩
  unfold windowMeasured
  rw [if_neg (by omega)]
  refine Same.trans h2 fun r hr => ?_
  rw [State.setFlag, get_set_reg _ _ fun he => absurd (he ▸ hr) (by decide)]

theorem windowMeasured_reports {a many : Nat} {k : Fin 4} (h : 16 ≤ s.nat .xAgcGood n) (ha : a = 4 * n + k.val)
    (hm : many = 256 * s.nat .xAgcGood n) :
    (windowMeasured n s).get .adcRms a = (rmsOf (s.nat .xAgcSum a) many : Nat)
    ∧ (windowMeasured n s).get .xGainStep a = (windowStep (s.get .adcAgcGain a)
      (s.get .adcAgcMode a == 1
        && aboveWindow (s.nat .xAgcSum a) many (s.nat .adcAgcTarget a) (s.nat .adcAgcHysteresis a))
      (s.get .adcAgcMode a == 1
        && belowWindow (s.nat .xAgcSum a) many (s.nat .adcAgcTarget a) (s.nat .adcAgcHysteresis a))).2 := by
  obtain ⟨x, hx, hw⟩ := windowMeasured_channel h k
  rw [← ha, ← hm] at hw
  rw [← ha] at hx
  obtain ⟨h1, h2⟩ := agcChannel_reports (s := x) (a := a) (n := many)
  rw [hx.nat, hx.nat, hx.nat, hx.get, hx.get] at h2
  rw [hx.nat] at h1
  exact ⟨hw.get.trans h1, hw.get.trans h2⟩

/-- The window's end, once measured, leaves what it tells. -/
theorem agcWindow_get (h : 256 ≤ s.nat .xAgcSets n) (hr : r ∉ windowRegs) :
    (s.agcWindow n).get r i = (windowMeasured n s).get r i := by
  rw [agcWindow_eq h, ← agcRestart_get (s := windowMeasured n s) (n := n) hr]
  simp only [List.mem_cons, List.not_mem_nil, or_false, not_or] at hr
  obtain ⟨-, -, -, h4, -, h6, h7⟩ := hr
  split
  · rw [get_set_reg _ _ h4, get_set_reg _ _ h6, get_set_reg _ _ h7]
  · rfl

theorem agcWindow_restarted (h : 256 ≤ s.nat .xAgcSets n) : Restarted (s.agcWindow n) n := by
  have hr := agcRestart_restarted (s := windowMeasured n s) (n := n)
  rw [agcWindow_eq h]
  split
  · obtain ⟨h1, h2, h3⟩ := hr
    refine ⟨?_, ?_, fun k => ?_⟩ <;> simp (disch := decide) only [get_set_reg]
    · exact h1
    · exact h2
    · exact h3 k
  · exact hr

theorem agcWindow_due (h : 256 ≤ s.nat .xAgcSets n) : (s.agcWindow n).get .xGainDue n = ofFlag (windowSteps n s)
    ∧ (s.agcWindow n).get .xAgcSkip n = (if windowSteps n s then 4 else 0)
    ∧ (windowSteps n s = true → (s.agcWindow n).get .xGainWait n = 2) := by
  obtain ⟨h1, h2⟩ := agcRestart_due (s := windowMeasured n s) (n := n)
  rw [agcWindow_eq h]
  cases windowSteps n s
  · exact ⟨h1, h2, fun hf => absurd hf (by decide)⟩
  · refine ⟨?_, ?_, fun _ => ?_⟩ <;> simp (disch := decide) only [if_true, get_set_reg, get_set_same]
    rfl

theorem windowSteps_iff (hg : 16 ≤ s.nat .xAgcGood n) (h : 256 ≤ s.nat .xAgcSets n) :
    windowSteps n s = true ↔ ∃ k : Fin 4, (s.agcWindow n).get .xGainStep (4 * n + k.val) ≠ 0 := by
  simp only [windowSteps, hg, decide_true, Bool.true_and, List.any_eq_true, bne_iff_ne,
    agcWindow_get h (show Reg.xGainStep ∉ windowRegs by decide), mem_channels]
  constructor
  · rintro ⟨a, ha, hne⟩
    refine ⟨⟨a % 4, Nat.mod_lt _ (by decide)⟩, ?_⟩
    have hd : 4 * n + a % 4 = a := by omega
    rwa [hd]
  · rintro ⟨k, hk⟩
    exact ⟨_, by omega, hk⟩

theorem agcWindow_few (hg : s.nat .xAgcGood n < 16) : Safety.changesOnly windowRegs s (s.agcWindow n) := by
  refine apart_iff.2 ?_
  by_cases h : 256 ≤ s.nat .xAgcSets n
  · have ha : Apart (fun r => windowRegs.contains r) s (s.agcRestart n) :=
      apart_agcRestart (Apart.refl s) fun r hr => by simpa using hr
    rw [agcWindow_eq h, windowMeasured_few hg]
    exact apart_ite (apart_set (apart_set (apart_set ha))) ha
  · rw [State.agcWindow, if_pos (by omega)]
    exact Apart.refl s

/-! ## Steps of the gain (R67, R69) -/

theorem gainStep_get (h : i ≠ n ∨ r ∉ [Reg.adcAgcGain, .adcAgcSteps]) : (s.gainStep n v).get r i = s.get r i := by
  unfold State.gainStep
  split
  · rfl
  · rw [get_bump_other (h.symm.imp_left fun g he => g (by simp [he])), get_set_beside h]

theorem gainStep_gain : (s.gainStep n v).get .adcAgcGain n = s.get .adcAgcGain n + v := by
  unfold State.gainStep
  split
  · rename_i h
    rw [h, Int.add_zero]
  · rw [get_bump_other (.inl (by decide)), get_set_same]

theorem apart_gainStep {K : Reg → Bool} (h : Apart K s₀ s) (h1 : K .adcAgcGain = true) (h2 : K .adcAgcSteps = true) :
    Apart K s₀ (s.gainStep n v) := apart_ite h (apart_bump (apart_set h))

/-- What the steps of one channel read and write. -/
abbrev gainRegs : List Reg := [.adcAgcGain, .xGainStep, .adcAgcManualGain, .adcAgcMode]

/-- A loop over the channels that moves the gain of each. -/
theorem gainSteps_at {f : State → Nat → State} {c : Nat} (k : Fin 4)
    (hf : ∀ t a, a ≠ 4 * c + k.val → Same gainRegs (4 * c + k.val) t (f t a)) :
    ∃ x, Same gainRegs (4 * c + k.val) s x
      ∧ Same gainRegs (4 * c + k.val) (f x (4 * c + k.val)) (s.each (channels c) f) := by
  obtain ⟨x, -, h1, h2⟩ := each_at (s := s) (f := f) (I := fun _ => True) (L := gainRegs) nodup_channels (channel_mem k)
    (fun t a _ ha => hf t a ha) trivial fun _ _ _ _ => trivial
  exact ⟨x, h1, h2⟩

end Sys2Proof.Laws

namespace Sys2Proof

open Sys2Proof.Machine Sys2Proof.Laws

/-- Settles O21: a window is measured channel by channel, and steps are applied channel by channel. -/
theorem gainStepsFollowTheWindow : Obligations.GainStepsFollowTheWindow := by
  refine ⟨fun s c hp h hg => ?_, fun s c hp h hg => ?_, fun s c h => ?_, fun s c hp hc hr hd hw => ?_, fun s c h => ?_,
    fun s c n hp hc hr hd hf hm hl => ?_⟩
  · have he := live_running (f := fun s => s.agcWindow c) hp
    obtain ⟨d1, d2, d3⟩ := agcWindow_due h
    have steps := windowSteps_iff hg h
    refine ⟨_, he, agcWindow_restarted h, fun k => ?_, fun hs => ?_, fun hs => ?_⟩
    · intro a sum above below
      obtain ⟨r1, r2⟩ := windowMeasured_reports (a := a) (k := k) hg rfl rfl
      rw [agcWindow_get h (by decide), agcWindow_get h (by decide), r1, r2]
      exact ⟨rfl, windowStep_reports above_not_below⟩
    · have ht := steps.2 hs
      rw [d1, d2, ht]
      exact ⟨rfl, d3 ht, rfl⟩
    · have hf : windowSteps c s = false := by
        rw [← Bool.not_eq_true]
        exact fun ht => (steps.1 ht).elim fun k hk => hk (hs k)
      rw [d1, d2, hf]
      exact ⟨rfl, rfl⟩
  · have he := live_running (f := fun s => s.agcWindow c) hp
    refine ⟨_, he, agcWindow_restarted h, agcWindow_few hg⟩
  · exact live_still (f := fun s => s.agcWindow c) (if_pos h)
  · have he := live_running (f := fun s => s.gainApply c) hp
    have hn : s.gainApply c = ((s.each (channels c) fun s a => (s.gainStep a (s.get .xGainStep a)).set .xGainStep a 0).set
        .xGainDue c 0).set .xFlagNext c 2 := if_neg (by simp [State.idle, hc, hr, hd, hw])
    refine ⟨_, he, ?_, ?_, fun k => ?_, apart_iff.2 ?_⟩ <;> rw [hn]
    · rw [get_set_same]
    · rw [get_set_reg _ _ (by decide), get_set_same]
    · rw [get_set_reg _ _ (by decide), get_set_reg _ _ (by decide)]
      obtain ⟨x, hx, hy⟩ := gainSteps_at (s := s) (c := c) k
        (f := fun s a => (s.gainStep a (s.get .xGainStep a)).set .xGainStep a 0) fun t a ha r hr => by
          rw [get_set_other _ _ (by simp [Ne.symm ha]), gainStep_get (.inl (Ne.symm ha))]
      rw [hy.get, get_set_reg _ _ (by decide), gainStep_gain, hx.get, hx.get]
    · exact apart_set (apart_set (apart_each (Apart.refl s) fun _ _ ht => apart_set (apart_gainStep ht rfl rfl)))
  · refine live_still (f := fun s => s.gainApply c) (if_pos ?_)
    rcases h with h | h <;> simp [h]
  · have he := live_running (f := fun s => s.manualStep c) hp
    have due : s.manualDue (4 * c.val + n.val) = 1 := by
      unfold State.manualDue
      dsimp only
      rw [if_neg (not_not.2 hm), if_pos (by omega)]
    have hall : ((channels c).all fun a => s.manualDue a == 0) = false :=
      List.all_eq_false.2 ⟨_, channel_mem n, by simp [due]⟩
    have hn : s.manualStep c = (s.each (channels c) fun s a => s.gainStep a (s.manualDue a)).set .xFlagNext c 2 :=
      if_neg (by simp [State.idle, hc, hr, hd, hf, hall])
    refine ⟨_, he, ?_, ?_, apart_iff.2 ?_⟩ <;> rw [hn]
    · rw [get_set_same]
    · rw [get_set_reg _ _ (by decide)]
      obtain ⟨x, hx, hy⟩ := gainSteps_at (s := s) (c := c) n
        (f := fun s a => s.gainStep a (s.manualDue a)) fun t a ha r hr => gainStep_get (.inl (Ne.symm ha))
      rw [hy.get, gainStep_gain, State.manualDue, hx.get, hx.get, hx.get, ← State.manualDue, due]
    · exact apart_set (apart_each (Apart.refl s) fun _ _ ht => apart_gainStep ht rfl rfl)

end Sys2Proof

/-! # Converter tests (R71, R72, R80, R81) and stroke boundaries (R74 to R79, R113 to R129) -/

namespace Sys2Proof.Laws

set_option Elab.async false

open Sys2Proof.Machine

variable {s₀ s t u : State} {cl : Client} {c : Instr} {r : Reg} {i n e k d : Nat} {v : Int} {L : List Reg}
  {K : Reg → Bool}

/-! ## The open-input test -/

/-- The result code of legs that moved by sp and sn millivolts. -/
def openCode (sp sn : Nat) : Nat := 1 + (if 100 < sp then 2 else 0) + (if 100 < sn then 4 else 0)

/-- The result of a test on one channel. -/
def openNoted (s : State) (a sp sn : Nat) : State :=
  let r := openCode sp sn
  let s := s.set .adcOpenShiftP a sp |>.set .adcOpenShiftN a sn |>.set .adcOpenResult a r
  if r = 1 then s else s.raise (evAdc a 0) []

abbrev openRegs : List Reg := [.adcOpenShiftP, .adcOpenShiftN, .adcOpenResult]

theorem openNoted_reports {sp sn : Nat} : (openNoted s n sp sn).get .adcOpenShiftP n = sp
    ∧ (openNoted s n sp sn).get .adcOpenShiftN n = sn
    ∧ (openNoted s n sp sn).get .adcOpenResult n = (openCode sp sn : Nat) := by
  unfold openNoted
  dsimp only
  refine ⟨?_, ?_, ?_⟩ <;> split <;> simp (disch := decide) only [get_raise, get_set_reg, get_set_same]

theorem apart_openNoted {sp sn : Nat} (w : Wide K) (h : Apart K s₀ s) (hK : ∀ r ∈ openRegs, K r = true) :
    Apart K s₀ (openNoted s n sp sn) := by
  have ha := apart_set (i := n) (v := sn) (apart_set (i := n) (v := sp) h (hK .adcOpenShiftP (by decide)))
    (hK .adcOpenShiftN (by decide))
  have hb := fun v => apart_set (i := n) (v := v) ha (hK .adcOpenResult (by decide))
  unfold openNoted
  exact apart_ite (hb _) (apart_raise w (hb _))

theorem openNoted_other {sp sn : Nat} (h : n ≠ i) : Same openRegs i s (openNoted s n sp sn) := fun r hr => by
  have own : ∀ x : State, ∀ r' v, (x.set r' n v).get r i = x.get r i := fun x r' v => get_set_other _ _ (by simp [Ne.symm h])
  have hs : Safety.eventSide r = false := by
    simp only [List.mem_cons, List.not_mem_nil, or_false] at hr
    rcases hr with rfl | rfl | rfl <;> rfl
  unfold openNoted
  dsimp only
  split
  · simp only [own]
  · rw [get_raise hs]
    simp only [own]

theorem chan_channel {α : Type} {p : Vector α 4} {x : α} {k : Fin 4} {c : Nat} : chan p (4 * c + k.val) x = p[k] := by
  have hk : (4 * c + k.val) % 4 = k.val := by omega
  rw [chan, hk, List.getD_eq_getElem _ _ (by simp)]
  simp

/-! ## Protected legs -/

/-- Converter states follow, and nothing else. -/
theorem apart_refreshConv (h : Apart K s₀ s) (h1 : K .adcState = true) (h2 : K .dacState = true) :
    Apart K s₀ (s.refreshConv n) :=
  apart_each h fun _ _ ht => apart_ite (apart_set (apart_set ht)) (apart_set (apart_set ht))

theorem refreshConv_get (h1 : r ≠ .adcState) (h2 : r ≠ .dacState) : (s.refreshConv n).get r i = s.get r i :=
  (apart_refreshConv (K := fun r => r == .adcState || r == .dacState) (Apart.refl s) rfl rfl).regs r i (by simp [h1, h2])

/-! ## What a stroke boundary puts in force -/

theorem apart_setBankNumbers {b : Nat} {l : List Int} (h : Apart K s₀ s) (hr : K r = true) :
    Apart K s₀ (s.setBankNumbers r b l) := apart_each h fun _ _ ht => apart_set ht

theorem apart_bankSwap (h : Apart (beyond [.xRmsTarget]) s₀ s) : Apart (beyond [.xRmsTarget]) s₀ (s.bankSwap n) := by
  unfold State.bankSwap
  extract_lets act a b d
  have ha : Apart (beyond [.xRmsTarget]) s₀ a := apart_setBankNumbers (apart_setBlob h) rfl
  have hb : Apart (beyond [.xRmsTarget]) s₀ b := apart_setBankNumbers (apart_setBlob ha) rfl
  have hd : Apart (beyond [.xRmsTarget]) s₀ d :=
    apart_set (apart_set (apart_setBlob (apart_set (apart_set (apart_set (apart_bump (apart_set hb)))))))
  exact apart_ite (apart_set hd) hd

theorem apart_applyBank (h : Apart (beyond [.xRmsTarget]) s₀ s) : Apart (beyond [.xRmsTarget]) s₀ (s.applyBank n) := by
  unfold State.applyBank
  dsimp only
  have hs := fun x (hx : Apart (beyond [.xRmsTarget]) s₀ x) => apart_bankSwap (n := n) hx
  exact apart_ite (apart_ite (hs _ h) (apart_set (apart_set (apart_set (apart_set h)))))
    (apart_ite (apart_ite (apart_set (apart_setBlob (hs _ (apart_setBlob h)))) (hs _ h)) h)

/-- The scope that leaves settings, converters and the front end. -/
abbrev strokeScope : Scope := fun p => match p with
  | .settings => true
  | .converters => true
  | .frontEnd => true
  | _ => false

/-- The wiring map of a carrier, its RMS target and its transmit settings put in force. -/
def settingsApplied (c : Nat) (s : State) : State :=
  let s := s.set .xTxMap c (s.get .carrierWiringTxMap c) |>.set .xRmsTarget c (s.get .carrierTxRmsTarget c)
  s.each [0, 1, 2, 3] fun s j =>
    (s.set .xTxSkew (4 * c + j) (s.get (txSkewReg j) c)).set .xSwing (4 * c + j) (s.get .dacSwing (4 * c + j))

/-- The banks put in force. -/
def banksApplied (c : Nat) (s : State) : State :=
  (s.each [0, 1, 2, 3, 4, 5] fun s f => (s.setBlob .xBankHole (12 * f + c) []).applyBank (12 * f + c)).refreshRx c

theorem strokeBoundary_eq : s.strokeBoundary n
    = banksApplied n ((settingsApplied n ((s.dueMap n).set .xWiringDue n 0)).applyRxSkew n) := rfl

theorem banksApplied_kept : Kept strokeScope s (banksApplied n s) := by
  have := fact_false
  exact kept_refreshRx (kept_each (Kept.refl s) fun _ _ ht => kept_applyBank (kept_setBlob ht (hr := rfl)))

theorem banksApplied_target : (banksApplied n s).get .xRmsTarget i = s.get .xRmsTarget i := by
  have h : Apart (beyond [.xRmsTarget]) s (s.each [0, 1, 2, 3, 4, 5] fun s f =>
      (s.setBlob .xBankHole (12 * f + n) []).applyBank (12 * f + n)) :=
    apart_each (Apart.refl s) fun _ _ ht => apart_applyBank (apart_setBlob ht)
  have hr : ∀ x : State, Apart (beyond [.xRmsTarget]) x (x.refreshRx n) := fun x =>
    apart_ite (apart_set (apart_set (Apart.refl x))) (apart_set (apart_set (Apart.refl x)))
  exact (h.trans (hr _)).get

theorem applyRxSkew_get (hr : r ∉ [Reg.xRxSkew, .carrierRxSkewFlaggedSets, .xGapFlag]) :
    (s.applyRxSkew n).get r i = s.get r i := by
  simp only [List.mem_cons, List.not_mem_nil, or_false, not_or] at hr
  obtain ⟨h1, h2, h3⟩ := hr
  have hs : (s.each [0, 1, 2, 3] fun s j => s.set .xRxSkew (4 * n + j) (s.get (rxSkewReg j) n)).get r i = s.get r i :=
    get_each fun _ _ => get_set_reg _ _ h1
  unfold State.applyRxSkew
  extract_lets far a
  have ha : a.get r i = s.get r i := hs
  split
  · rw [get_set_reg _ _ h3, get_bump_other (.inl h2), ha]
  · exact ha

theorem applyRxSkew_skew (k : Fin 4) : (s.applyRxSkew n).get .xRxSkew (4 * n + k.val) = s.get (rxSkewReg k) n := by
  have hs : (s.each [0, 1, 2, 3] fun s j => s.set .xRxSkew (4 * n + j) (s.get (rxSkewReg j) n)).get .xRxSkew
      (4 * n + k.val) = s.get (rxSkewReg k) n := by
    fin_cases k <;> simp [State.each, rxSkewReg, get_set]
  unfold State.applyRxSkew
  extract_lets far a
  have ha : a.get .xRxSkew (4 * n + k.val) = s.get (rxSkewReg k) n := hs
  split
  · rw [get_set_reg _ _ (by decide), get_bump_other (.inl (by decide)), ha]
  · exact ha

/-- What the settings of a carrier come from. -/
theorem settingsApplied_get (hr : r ∉ [Reg.xTxMap, .xRmsTarget, .xTxSkew, .xSwing]) :
    (settingsApplied n s).get r i = s.get r i := by
  simp only [List.mem_cons, List.not_mem_nil, or_false, not_or] at hr
  obtain ⟨h1, h2, h3, h4⟩ := hr
  refine (get_each fun _ _ => ?_).trans ((get_set_reg _ _ h2).trans (get_set_reg _ _ h1))
  rw [get_set_reg _ _ h4, get_set_reg _ _ h3]

theorem settingsApplied_reports : (settingsApplied n s).get .xTxMap n = s.get .carrierWiringTxMap n
    ∧ (settingsApplied n s).get .xRmsTarget n = s.get .carrierTxRmsTarget n
    ∧ ∀ k : Fin 4, (settingsApplied n s).get .xTxSkew (4 * n + k.val) = s.get (txSkewReg k) n
      ∧ (settingsApplied n s).get .xSwing (4 * n + k.val) = s.get .dacSwing (4 * n + k.val) := by
  have loop : ∀ (x : State) r, r ∉ [Reg.xTxSkew, .xSwing] → (x.each [0, 1, 2, 3] fun s j =>
      (s.set .xTxSkew (4 * n + j) (s.get (txSkewReg j) n)).set .xSwing (4 * n + j) (s.get .dacSwing (4 * n + j))).get r n
        = x.get r n := fun x r hr => by
    simp only [List.mem_cons, List.not_mem_nil, or_false, not_or] at hr
    exact get_each fun _ _ => (get_set_reg _ _ hr.2).trans (get_set_reg _ _ hr.1)
  refine ⟨?_, ?_, fun k => ?_⟩
  · rw [settingsApplied, loop _ _ (by decide), get_set_reg _ _ (by decide), get_set_same]
  · rw [settingsApplied, loop _ _ (by decide), get_set_same]
  · fin_cases k <;> simp [settingsApplied, State.each, txSkewReg, get_set]

theorem dueMap_kept : Kept (fun p => match p with | .settings => true | .frontEnd => true | _ => false) s (s.dueMap n) := by
  have := fact_false
  exact kept_dueMap (Kept.refl s)

/-- A map asked for by a write is the one applied. -/
theorem dueMap_map {m : Nat} (hm : m < 8) (h : s.get .xWiringDue n = m + 1) :
    (s.dueMap n).get .carrierWiringAppliedMap n = m := by
  unfold State.dueMap State.applyMap
  dsimp only
  rw [h, if_neg (by omega), if_pos (by omega), Int.add_sub_cancel]
  split
  · assumption
  · rw [get_raise (by decide), get_set_same]

end Sys2Proof.Laws

namespace Sys2Proof

open Sys2Proof.Machine Sys2Proof.Laws

/-- Settles O22: a test reports leg by leg, and a leg is protected, tried and enabled again. -/
theorem converterTestsReport : Obligations.ConverterTestsReport := by
  refine ⟨fun s cl c ha hb hi => ?_, fun s c p n hp hb => ?_, fun s d leg hp hw hb => ?_, fun s d leg hp hw hb hr hx hu => ?_,
    fun s d leg h => ?_, fun s d leg engaged hp hx => ?_⟩
  · have eff : writeOpenTest c (ready s cl) = ((ready s cl).set .carrierOpenTestBusy c 1, accepted) := by
      have h1 : (ready s cl).flag .carrierOpenTestBusy c = false := by rw [ready_flag (by decide), hb]
      have h2 : (ready s cl).get .carrierState c = 0 := by rw [ready_get (by decide), hi]
      simp [writeOpenTest, h1, State.idle, h2]
    obtain ⟨a, he, hack⟩ := write_acked (c := .openTestRequest cl c) ha rfl eff (out_of_ready rfl)
    refine ⟨_, he, hack, ?_, requestChanges_serving (apart_iff.2 (apart_set (Apart.refl _)))⟩
    rw [reply_get (by decide) (by decide), get_set_same]
  · have he := live_running (f := fun s => s.openResult c p n) hp
    have hn : s.openResult c p n = (s.set .carrierOpenTestBusy c 0).each (channels c) fun s a =>
        openNoted s a (chan p a 0).val (chan n a 0).val := if_pos hb
    refine ⟨_, he, ?_, fun k => ?_, apart_iff.2 ?_⟩ <;> rw [hn]
    · refine (get_each fun t a => ?_).trans (get_set_same _ _ _ _)
      exact (apart_openNoted (K := fun r => Safety.eventSide r || openRegs.contains r) (wide_events _) (Apart.refl t)
        (by decide)).regs _ _ rfl
    · obtain ⟨x, -, -, hy⟩ := each_at (s := s.set .carrierOpenTestBusy c 0) (L := openRegs) (I := fun _ => True)
        (f := fun s a => openNoted s a (chan p a 0).val (chan n a 0).val) nodup_channels (channel_mem k)
        (fun t a _ ha => openNoted_other ha) trivial fun _ _ _ _ => trivial
      obtain ⟨h1, h2, h3⟩ := openNoted_reports (s := x) (n := 4 * c.val + k.val) (sp := (chan p (4 * c.val + k.val) 0).val)
        (sn := (chan n (4 * c.val + k.val) 0).val)
      rw [hy.get, hy.get, hy.get, h1, h2, h3, chan_channel, chan_channel]
      exact ⟨rfl, rfl, by simp [openCode]⟩
    · exact apart_each (apart_set (Apart.refl s)) fun _ _ ht => apart_openNoted (wide_events _) ht (by decide)
  · have he := live_running (f := fun s => s.shortDetect d leg) hp
    have hn : s.shortDetect d leg = (((s.legProtect d leg).bump .dacShortEpisodes d |>.set .xTrial (2 * d + leg) 0).markTick
        .xShortAt (2 * d + leg)).raise (evDac d 0) [] := if_neg (by simp [hw, hb])
    have conv : ∀ r i, r ≠ .adcState → r ≠ .dacState → (s.legProtect d leg).get r i
        = (s.setBit .dacShortState d leg true).get r i := fun r i h1 h2 => refreshConv_get h1 h2
    refine ⟨_, he, ?_, ?_, ?_, apart_iff.2 ?_⟩ <;> rw [hn]
    · rw [State.bit, State.nat, get_raise (by decide), State.markTick, get_set_reg _ _ (by decide),
        get_set_reg _ _ (by decide), get_bump_other (.inl (by decide)), conv _ _ (by decide) (by decide), ← State.nat,
        ← State.bit, bit_setBit, if_pos ⟨rfl, rfl⟩]
    · rw [Safety.countedBy, get_raise (by decide), State.markTick, get_set_reg _ _ (by decide), get_set_reg _ _ (by decide),
        get_bump_same, State.nat, conv _ _ (by decide) (by decide), State.setBit, get_set_reg _ _ (by decide), ← State.nat]
    · refine raised_raise ?_ (by unfold evDac evDev; omega)
      rw [State.markTick, get_set_reg _ _ (by decide), get_set_reg _ _ (by decide), get_bump_other (.inl (by decide)),
        conv _ _ (by decide) (by decide), State.setBit, get_set_reg _ _ (by decide)]
    · exact apart_raise (wide_events _) (apart_set (apart_set (apart_bump (apart_refreshConv (apart_set (Apart.refl s))
        rfl rfl))))
  · have he := live_running (f := fun s => s.shortTrial d leg) hp
    have hn : s.shortTrial d leg = ((s.set .xTrial (2 * d + leg) 1).bump .dacShortRetries d).markTick .xShortAt
        (2 * d + leg) := if_pos (by simp [hw, hb, hr, hx, hu])
    refine ⟨_, he, ?_, ?_, ?_, apart_iff.2 (?_)⟩ <;> rw [hn]
    · rw [State.markTick, get_set_reg _ _ (by decide), get_bump_other (.inl (by decide)), get_set_same]
    · rw [State.markTick, get_set_same, get_bump_other (.inl (by decide)), get_set_reg _ _ (by decide)]
    · rw [Safety.countedBy, State.markTick, get_set_reg _ _ (by decide), get_bump_same, State.nat, get_set_reg _ _ (by decide),
        ← State.nat]
    · exact apart_set (apart_bump (apart_set (Apart.refl s)))
  · exact live_still (f := fun s => s.shortTrial d leg) (if_neg (by simp [h]))
  · have he := live_running (f := fun s => s.shortTrialEnd d leg engaged) hp
    have hn : s.shortTrialEnd d leg engaged = if engaged then s.set .xTrial (2 * d + leg) 0 else
        (((s.set .xTrial (2 * d + leg) 0).setBit .dacShortState d leg false).refreshConv (d / 4)).raise (evDac d 1) [] :=
      if_pos hx
    refine ⟨_, he, ?_, fun h => ?_, fun h => ?_⟩ <;> rw [hn]
    · split
      · rw [get_set_same]
      · rw [get_raise (by decide), refreshConv_get (by decide) (by decide), State.setBit, get_set_reg _ _ (by decide),
          get_set_same]
    · rw [if_pos h]
      exact ⟨get_set_reg _ _ (by decide), apart_iff.2 (apart_set (Apart.refl s))⟩
    · rw [if_neg (by simp [h])]
      refine ⟨?_, raised_raise ?_ (by unfold evDac evDev; omega)⟩
      · rw [State.bit, State.nat, get_raise (by decide), refreshConv_get (by decide) (by decide), ← State.nat, ← State.bit,
          bit_setBit, if_pos ⟨rfl, rfl⟩]
      · rw [refreshConv_get (by decide) (by decide), State.setBit, get_set_reg _ _ (by decide), get_set_reg _ _ (by decide)]

end Sys2Proof

namespace Sys2Proof

open Sys2Proof.Machine Sys2Proof.Laws

/-- Settles O23: what is put in force comes from settings that the boundary leaves. -/
theorem strokeBoundariesPutSettingsInForce : Obligations.StrokeBoundariesPutSettingsInForce := by
  intro s c hp hw
  have he : exec (.strokeBoundaryApply c) s = .next (s.strokeBoundary c) := by
    refine (live_running (f := fun s => if s.flag .xPowered 0 then s.strokeBoundary c else s) hp).trans ?_
    rw [if_pos hw]
  generalize hx : (s.dueMap c).set .xWiringDue c 0 = x
  obtain ⟨h1, h2, h3⟩ := settingsApplied_reports (s := x) (n := c)
  have source : ∀ r i, Safety.part r = .settings ∨ Safety.part r = .frontEnd → r ≠ .xWiringDue → x.get r i = s.get r i :=
    fun r i h hr => by
      rw [← hx, get_set_reg _ _ hr, dueMap_kept.get (by rcases h with h | h <;> rw [h])]
  refine ⟨_, he, ?_, ?_, ?_, fun j => ⟨?_, ?_, ?_⟩, fun m h => ?_⟩ <;> rw [strokeBoundary_eq, hx]
  · rw [banksApplied_kept.get, applyRxSkew_get (by decide), h1, source _ _ (.inl rfl) (by decide)]
  · rw [banksApplied_target, applyRxSkew_get (by decide), h2, source _ _ (.inl rfl) (by decide)]
  · rw [banksApplied_kept.get, applyRxSkew_get (by decide), settingsApplied_get (by decide), ← hx, get_set_same]
  · rw [banksApplied_kept.get, applyRxSkew_get (by decide), (h3 j).1]
    refine source _ _ (.inl ?_) ?_
    · fin_cases j <;> rfl
    · fin_cases j <;> decide
  · rw [banksApplied_kept.get, applyRxSkew_skew, settingsApplied_get, source]
    · right
      fin_cases j <;> rfl
    · fin_cases j <;> decide
    · fin_cases j <;> decide
  · rw [banksApplied_kept.get, applyRxSkew_get (by decide), (h3 j).2, source _ _ (.inl rfl) (by decide)]
  · rw [banksApplied_kept.get, applyRxSkew_get (by decide), settingsApplied_get (by decide), ← hx, get_set_reg _ _ (by decide),
      dueMap_map m.isLt h]

end Sys2Proof

/-! # Events, latches and inputs (R379 to R391) -/

namespace Sys2Proof.Laws

set_option Elab.async false

open Sys2Proof.Machine

variable {s₀ s t u : State} {cl : Client} {c : Instr} {r : Reg} {i n e k d : Nat} {v : Int} {L : List Reg}
  {K : Reg → Bool}

/-! ## What a raise writes -/

/-- The records that are held, and for whom. -/
def records (s : State) : List EventRec × List EventRec × List Subscriber := (s.ring, s.history, s.subscribers)

theorem set_records : records (s.set r i v) = records s := rfl

theorem bump_records : records (s.bump r i n) = records s := by
  unfold State.bump
  dsimp only
  split <;> rfl

theorem captureTrigger_records : records (s.captureTrigger e) = records s :=
  each_view fun _ _ _ => by split <;> rfl

theorem ringPush_below {x : EventRec} (h : s.ring.length < 1024) :
    records (s.ringPush x) = (s.ring ++ [x], s.history, s.subscribers) := by
  have hp : s.ringPush x = ({ s with ring := s.ring ++ [x] } : State).bump .ringNextSeq 0 := by
    unfold State.ringPush
    split
    · rw [if_neg (by omega)]
    · rfl
  rw [hp, bump_records]
  rfl

theorem ringPush_full {x : EventRec} (h : 1024 ≤ s.ring.length) :
    (s.ringPush x).ring = s.ring.drop 1 ++ [x] ∧ (s.ringPush x).history = s.history
      ∧ Safety.countedBy s (s.ringPush x) .ringOverwritten 0 1 := by
  obtain ⟨o, l, hl⟩ : ∃ o l, s.ring = o :: l := List.exists_cons_of_length_pos (by omega)
  generalize hy : (({ s with ring := l, subscribers := s.subscribers.map fun (u : Subscriber) => u.lose o } : State).bump
    .ringOverwritten 0) = y
  have hr : records y = (l, s.history, s.subscribers.map fun u => u.lose o) := by
    rw [← hy, bump_records]
    rfl
  have hp : s.ringPush x = ({ y with ring := y.ring ++ [x] } : State).bump .ringNextSeq 0 := by
    rw [← hy]
    unfold State.ringPush
    rw [hl] at h ⊢
    dsimp only
    rw [if_pos h]
  have hb := bump_records (s := { y with ring := y.ring ++ [x] }) (r := .ringNextSeq) (i := 0) (n := 1)
  simp only [records, Prod.mk.injEq] at hr hb
  obtain ⟨h1, h2, -⟩ := hr
  obtain ⟨h3, h4, -⟩ := hb
  rw [hp]
  refine ⟨?_, h4.trans h2, ?_⟩
  · rw [h3, h1, hl]
    rfl
  · rw [Safety.countedBy, get_bump_other (.inl (by decide))]
    exact hy ▸ get_bump_same

theorem historyPush_records {x : EventRec} :
    records (s.historyPush x) = (s.ring, (s.history ++ [x]).drop (s.history.length + 1 - 64), s.subscribers) := by
  unfold State.historyPush
  dsimp only
  rw [bump_records, List.length_append]
  rfl

/-- The state at a raise, once the source is counted, timed and latched. -/
def sourceNoted (s : State) (e : Nat) : State :=
  ((s.bump .eventCount e).set .eventLastTime e (s.now : Nat)).set .eventLatched e 1

/-- The record put into the ring, and into the history where its severity asks for it. -/
def recordKept (x : EventRec) (critical : Prop) [Decidable critical] (s : State) : State :=
  if critical then (s.ringPush x).historyPush x else s.ringPush x

/-- The record that a raise makes. -/
abbrev recordOf (s : State) (e : Nat) (detail : List Item) (m : Mark) : EventRec :=
  ⟨e, m.flags (s.nat .eventSeverity e), s.nat .ringNextSeq 0, s.now, layout detail⟩

theorem raiseCore_disabled {detail : List Item} {m : Mark} (h : s.flag .eventEnable e = false) :
    s.raiseCore e detail m = (s.bump .eventCount e).set .eventLastTime e (s.now : Nat) := by
  have hf : ((s.bump .eventCount e).set .eventLastTime e (s.now : Nat)).flag .eventEnable e = false := by
    rw [State.flag, get_set_reg _ _ (by decide), get_bump_other (.inl (by decide)), ← State.flag, h]
  unfold State.raiseCore
  dsimp only
  rw [if_neg (by simp [hf])]

theorem raiseCore_enabled {detail : List Item} {m : Mark} (h : s.flag .eventEnable e = true) :
    s.raiseCore e detail m
      = (let y := recordKept (recordOf s e detail m) (s.nat .eventSeverity e = 3) (sourceNoted s e)
        ({ y with subscribers := y.subscribers.map fun (u : Subscriber) => u.enqueue (recordOf s e detail m) } : State
          ).captureTrigger e) := by
  generalize ha : (s.bump .eventCount e).set .eventLastTime e (s.now : Nat) = a
  have hg : ∀ r i, r ≠ .eventCount → r ≠ .eventLastTime → a.get r i = s.get r i := fun r i h1 h2 => by
    rw [← ha, get_set_reg _ _ h2, get_bump_other (.inl h1)]
  have h1 : a.nat .eventSeverity e = s.nat .eventSeverity e := congrArg Int.toNat (hg _ _ (by decide) (by decide))
  have h2 : a.nat .ringNextSeq 0 = s.nat .ringNextSeq 0 := congrArg Int.toNat (hg _ _ (by decide) (by decide))
  have h3 : a.now = s.now := by
    simp only [State.now, State.timeNs, State.nat, hg _ _ (show Reg.xTbSec ≠ .eventCount by decide) (by decide),
      hg _ _ (show Reg.xTbNs ≠ .eventCount by decide) (by decide)]
  have hf : a.flag .eventEnable e = true := by rw [State.flag, hg _ _ (by decide) (by decide), ← State.flag, h]
  unfold State.raiseCore sourceNoted recordKept recordOf
  dsimp only
  rw [ha, if_pos hf, h1, h2, h3]

theorem recordKept_get {x : EventRec} {p : Prop} [Decidable p] (hr : r ∉ [Reg.ringOverwritten, .ringNextSeq, .historyWritten]) :
    (recordKept x p s).get r i = s.get r i := by
  simp only [List.mem_cons, List.not_mem_nil, or_false, not_or] at hr
  obtain ⟨h1, h2, h3⟩ := hr
  have hp : (s.ringPush x).get r i = s.get r i := by
    unfold State.ringPush
    dsimp only
    rw [get_bump_other (.inl h2)]
    split
    · split
      · exact get_bump_other (.inl h1)
      · rfl
    · rfl
  unfold recordKept
  split
  · exact (get_bump_other (.inl h3)).trans hp
  · exact hp

theorem captureTrigger_get (h : r ≠ .xCaptureTriggered) : (s.captureTrigger e).get r i = s.get r i :=
  get_each fun t a => by
    split
    · exact get_set_reg _ _ h
    · rfl

/-- What a raise of an enabled source may write, its own triggers apart. -/
abbrev raiseRegs : List Reg := [.eventCount, .eventLastTime, .eventLatched, .ringNextSeq, .ringOverwritten, .historyWritten,
  .xCaptureTriggered]

theorem apart_ringPushed {x : EventRec} (h : Apart raiseRegs.contains s₀ s) : Apart raiseRegs.contains s₀ (s.ringPush x) := by
  have push : ∀ a : State, Apart raiseRegs.contains s₀ a →
      Apart raiseRegs.contains s₀ (({ a with ring := a.ring ++ [x] } : State).bump .ringNextSeq 0) :=
    fun a ha => apart_bump (ha.other rfl)
  unfold State.ringPush
  dsimp only
  split
  · split
    · exact push _ (apart_bump (h.other rfl))
    · exact push _ h
  · exact push _ h

theorem raiseCore_apart {detail : List Item} {m : Mark} (h : s.flag .eventEnable e = true) :
    Apart raiseRegs.contains s (s.raiseCore e detail m) := by
  have h1 : Apart raiseRegs.contains s (sourceNoted s e) := apart_set (apart_set (apart_bump (Apart.refl s)))
  have h2 : Apart raiseRegs.contains s (recordKept (recordOf s e detail m) (s.nat .eventSeverity e = 3) (sourceNoted s e)) :=
    apart_ite (apart_bump ((apart_ringPushed h1).other rfl)) (apart_ringPushed h1)
  rw [raiseCore_enabled h]
  exact apart_each (h2.other rfl) fun _ _ ht => apart_ite (apart_set ht) ht

theorem recordKept_records {x : EventRec} {p : Prop} [Decidable p] :
    (recordKept x p s).ring = (s.ringPush x).ring
    ∧ (recordKept x p s).subscribers = (s.ringPush x).subscribers
    ∧ (p → (recordKept x p s).history
      = ((s.ringPush x).history ++ [x]).drop ((s.ringPush x).history.length + 1 - 64))
    ∧ (¬p → (recordKept x p s).history = (s.ringPush x).history) := by
  have h := historyPush_records (s := s.ringPush x) (x := x)
  simp only [records, Prod.mk.injEq] at h
  obtain ⟨h1, h2, h3⟩ := h
  unfold recordKept
  by_cases hp : p
  · simp only [if_pos hp]
    exact ⟨h1, h3, fun _ => h2, fun hn => absurd hp hn⟩
  · simp only [if_neg hp]
    exact ⟨trivial, trivial, fun hn => absurd hn hp, fun _ => trivial⟩

theorem ringPush_history {x : EventRec} : (s.ringPush x).history = s.history := by
  by_cases h : s.ring.length < 1024
  · have hb := ringPush_below (x := x) h
    simp only [records, Prod.mk.injEq] at hb
    exact hb.2.1
  · exact (ringPush_full (by omega)).2.1

theorem raiseCore_quiet {detail : List Item} {m : Mark} (h : s.flag .eventEnable e = false) :
    records (s.raiseCore e detail m) = records s
      ∧ Safety.changesOnly [.eventCount, .eventLastTime] s (s.raiseCore e detail m) := by
  rw [raiseCore_disabled h]
  exact ⟨by rw [set_records, bump_records], apart_iff.2 (apart_set (apart_bump (Apart.refl s)))⟩

end Sys2Proof.Laws

namespace Sys2Proof

open Sys2Proof.Machine Sys2Proof.Laws

/-- Settles O54: a raise notes its source, keeps the record and hands it on. -/
theorem raisingAnEventRecordsIt : Obligations.RaisingAnEventRecordsIt := by
  intro s e detail m
  dsimp only
  have counted : Safety.raised s (s.raiseCore e detail m) e := by
    rw [Safety.raised, Safety.countedBy, count_raiseCore, if_pos rfl]
  refine ⟨counted, ?_, fun h => ?_, fun h => ?_⟩
  · cases h : s.flag .eventEnable e with
    | false => rw [raiseCore_disabled h, get_set_same]
    | true =>
      rw [raiseCore_enabled h]
      refine (captureTrigger_get (by decide)).trans ((recordKept_get (by decide)).trans ?_)
      rw [sourceNoted, get_set_reg _ _ (by decide), get_set_same]
  · obtain ⟨h1, h2⟩ := raiseCore_quiet (detail := detail) (m := m) h
    simp only [records, Prod.mk.injEq] at h1
    obtain ⟨r1, r2, r3⟩ := h1
    exact ⟨r1, r2, r3, h2⟩
  · have ha : Safety.changesOnly raiseRegs s (s.raiseCore e detail m) := apart_iff.2 (raiseCore_apart h)
    generalize hx : recordOf s e detail m = x
    have noted : records (sourceNoted s e) = records s := by rw [sourceNoted, set_records, set_records, bump_records]
    simp only [records, Prod.mk.injEq] at noted
    obtain ⟨n1, n2, n3⟩ := noted
    generalize hy : recordKept x (s.nat .eventSeverity e = 3) (sourceNoted s e) = y
    have ht : s.raiseCore e detail m = ({ y with subscribers := y.subscribers.map fun (u : Subscriber) => u.enqueue x } :
        State).captureTrigger e := by
      rw [raiseCore_enabled h, hx, hy]
    have capture := captureTrigger_records (e := e)
      (s := ({ y with subscribers := y.subscribers.map fun (u : Subscriber) => u.enqueue x } : State))
    rw [← ht] at capture
    simp only [records, Prod.mk.injEq] at capture
    obtain ⟨c1, c2, c3⟩ := capture
    obtain ⟨k1, k2, k3, k4⟩ := recordKept_records (s := sourceNoted s e) (x := x) (p := s.nat .eventSeverity e = 3)
    rw [hy] at k1 k2 k3 k4
    rw [ringPush_history, n2] at k3 k4
    refine ⟨?_, fun hr => ?_, fun hr => ?_, fun hs => ?_, fun hs => ?_, fun hr => ?_, ha⟩
    · rw [ht, captureTrigger_get (by decide)]
      have hl : y.get .eventLatched e = 1 := by
        rw [← hy, recordKept_get (by decide), sourceNoted, get_set_same]
      exact hl
    · have hb := ringPush_below (s := sourceNoted s e) (x := x) (by rwa [n1])
      simp only [records, Prod.mk.injEq] at hb
      rw [c1, k1, hb.1, n1, ← hx]
    · obtain ⟨f1, -, f3⟩ := ringPush_full (x := x) (show 1024 ≤ (sourceNoted s e).ring.length by rwa [n1])
      refine ⟨by rw [c1, k1, f1, n1, ← hx], ?_⟩
      have lost : y.get .ringOverwritten 0 = ((sourceNoted s e).ringPush x).get .ringOverwritten 0 := by
        rw [← hy]
        unfold recordKept
        split
        · exact get_bump_other (.inl (by decide))
        · rfl
      have before : (sourceNoted s e).nat .ringOverwritten 0 = s.nat .ringOverwritten 0 := congrArg Int.toNat (by
        rw [sourceNoted, get_set_reg _ _ (by decide), get_set_reg _ _ (by decide), get_bump_other (.inl (by decide))])
      rw [Safety.countedBy, before, ← lost] at f3
      rw [Safety.countedBy, ← f3, ht, captureTrigger_get (by decide)]
      rfl
    · rw [c2, k3 hs, ← hx]
    · rw [c2, k4 hs]
    · have hb := ringPush_below (s := sourceNoted s e) (x := x) (by rwa [n1])
      simp only [records, Prod.mk.injEq] at hb
      rw [c3, k2, hb.2.2, n3, ← hx]

end Sys2Proof

/-! # Latches and inputs (R382, R388 to R391) -/

namespace Sys2Proof.Laws

set_option Elab.async false

open Sys2Proof.Machine

variable {s₀ s t u : State} {cl : Client} {c : Instr} {r : Reg} {i n e k d : Nat} {v : Int} {L : List Reg}
  {K : Reg → Bool}

theorem apart_raiseMarked (w : Wide K) {detail : List Item} {m : Mark} (h : Apart K s₀ s) :
    Apart K s₀ (s.raiseMarked e detail m) := apart_raiseFuel w h

theorem get_raiseMarked {detail : List Item} {m : Mark} (h : Safety.eventSide r = false := by rfl) :
    (s.raiseMarked e detail m).get r i = s.get r i :=
  (apart_raiseMarked wide_eventSide (Apart.refl s)).regs r i h

theorem get_bump_beside {l : List Reg} {r' : Reg} {k : Nat} (h : i ≠ n ∨ r ∉ l) (hr : r' ∈ l := by decide) :
    (s.bump r' n k).get r i = s.get r i :=
  get_bump_other (h.symm.imp (fun g he => g (he ▸ hr)) id)

/-! ## Latches -/

theorem clearLatched_get : s.clearLatched.get r i = if r = .eventLatched then 0 else s.get r i := by
  unfold State.clearLatched State.get
  split
  · rename_i h
    refine (sget_filter_out _ (fun x : Reg × Nat => x.1 != .eventLatched) _ (by simp [h])).trans ?_
    rw [h]
    rfl
  · rename_i h
    exact sget_filter _ (fun x : Reg × Nat => x.1 != .eventLatched) _ (by simp [h])

/-! ## One input sampled -/

/-- What an input's sample writes at the input. -/
abbrev inputRegs : List Reg := [.xInRun, .inputState, .inputEdges, .xInWindow, .xInLastEdge]

/-- What it writes elsewhere, events apart. -/
abbrev edgeRegs : List Reg := [.xPpsEdge, .tbasePpsCaptures, .xEngLos]

theorem ppsCapture_get (h : r ≠ .tbasePpsCaptures) : (s.ppsCapture n).get r i = s.get r i :=
  get_each fun t a => by
    split
    · exact get_bump_other (.inl h)
    · rfl

/-- An edge as it is noted at its input. -/
def edgeNoted (i : Nat) (active : Bool) (s : State) : State :=
  let s := (s.bump .inputEdges i).set .xInWindow i (s.get .xInWindow i + 1) |>.set .xInLastEdge i (s.get .xInSamples 0)
    |>.set .xInRun i 0
  let limited := s.bit .inputState i 2 || decide (s.get .xInLimit i < 10 * s.get .xInWindow i)
  ((s.setBit .inputState i 0 active).setBit .inputState i 1 (s.bit .inputState i 1 && active)).setBit
    .inputState i 2 limited

/-- What an edge is told to. -/
def edgeTold (i : Nat) (active : Bool) (s : State) : State :=
  let s := if s.bit .inputState i 2 || s.bit .inputState i 1 then s else s.inputRecord i 0 [] { cleared := !active }
  let s := if 12 ≤ i ∧ i < 24 then s.setFlag .xEngLos (i - 12) active else s
  if 32 ≤ i ∧ active then s.ppsCapture (i - 32) else s

theorem inputEdge_eq {active : Bool} : s.inputEdge n active = edgeTold n active (edgeNoted n active s) := by
  have h : (edgeNoted n active s).bit .inputState n 2
      = (let s := (s.bump .inputEdges n).set .xInWindow n (s.get .xInWindow n + 1) |>.set .xInLastEdge n
          (s.get .xInSamples 0) |>.set .xInRun n 0
        s.bit .inputState n 2 || decide (s.get .xInLimit n < 10 * s.get .xInWindow n)) := by
    unfold edgeNoted
    rw [bit_setBit, if_pos ⟨rfl, rfl⟩]
  unfold edgeTold
  rw [h]
  rfl

theorem edgeTold_get {active : Bool} (h : r ∉ edgeRegs) (he : Safety.eventSide r = false) :
    (edgeTold n active s).get r i = s.get r i := by
  simp only [List.mem_cons, List.not_mem_nil, or_false, not_or] at h
  obtain ⟨-, h2, h3⟩ := h
  unfold edgeTold
  extract_lets a b
  have ha : a.get r i = s.get r i := by
    unfold a State.inputRecord
    split
    · rfl
    · exact get_raiseMarked he
  have hb : b.get r i = s.get r i := by
    unfold b
    split
    · exact (get_set_reg _ _ h3).trans ha
    · exact ha
  split
  · exact (ppsCapture_get h2).trans hb
  · exact hb

theorem edgeNoted_get {active : Bool} (h : i ≠ n ∨ r ∉ inputRegs) : (edgeNoted n active s).get r i = s.get r i := by
  unfold edgeNoted State.setBit
  rw [get_set_beside h, get_set_beside h, get_set_beside h, get_set_beside h, get_set_beside h, get_set_beside h,
    get_bump_beside h]

theorem edgeNoted_reports {active : Bool} : Safety.countedBy s (edgeNoted n active s) .inputEdges n 1
    ∧ (edgeNoted n active s).bit .inputState n 0 = active ∧ (edgeNoted n active s).get .xInRun n = 0 := by
  unfold edgeNoted
  dsimp only
  refine ⟨?_, ?_, ?_⟩
  · rw [Safety.countedBy]
    simp (disch := decide) only [State.setBit, get_set_reg, get_bump_same]
  · simp [bit_setBit]
  · simp (disch := decide) only [State.setBit, get_set_reg, get_set_same]

/-- The start of a run of samples that differ from the state of the input. -/
def runStarted (i ago : Nat) (s : State) : State :=
  if s.get .xInRun i ≠ 0 then s
  else
    let s := s.set .xInRun i (s.get .xInSamples 0 + 1)
    if 32 ≤ i then s.each (List.range 4) fun s t => s.set .xPpsEdge (4 * (i - 32) + t) (s.edgeTime t ago) else s

theorem inputSample_eq {level : Bool} {ago : Nat} : s.inputSample n level ago
    = if s.inputActive n level == s.bit .inputState n 0 then s.set .xInRun n 0
      else
        let x := runStarted n ago s
        if x.get .inputDebounce n ≤ x.get .xInSamples 0 - (x.get .xInRun n - 1) then x.inputEdge n (s.inputActive n level)
        else x := rfl

theorem runStarted_get {ago : Nat} (h : i ≠ n ∨ r ≠ .xInRun) (hr : r ≠ .xPpsEdge) :
    (runStarted n ago s).get r i = s.get r i := by
  have h : i ≠ n ∨ r ∉ [Reg.xInRun] := h.imp_right fun g => by simpa using g
  unfold runStarted
  split
  · rfl
  · split
    · exact (get_each fun _ _ => get_set_reg _ _ hr).trans (get_set_beside h)
    · exact get_set_beside h

theorem runStarted_run {ago : Nat} (h : s.get .xInRun n = 0) :
    (runStarted n ago s).get .xInRun n = s.get .xInSamples 0 + 1 := by
  unfold runStarted
  rw [if_neg (not_not.2 h)]
  split
  · exact (get_each fun _ _ => get_set_reg _ _ (by decide)).trans (get_set_same _ _ _ _)
  · exact get_set_same _ _ _ _

theorem inputSample_get {level : Bool} {ago : Nat} (h : i ≠ n ∨ r ∉ inputRegs) (h1 : r ∉ edgeRegs)
    (h2 : Safety.eventSide r = false) : (s.inputSample n level ago).get r i = s.get r i := by
  have hx : (runStarted n ago s).get r i = s.get r i :=
    runStarted_get (h.imp_right fun g he => g (by simp [he])) fun he => h1 (by simp [he])
  rw [inputSample_eq]
  split
  · exact get_set_beside h
  · dsimp only
    split
    · rw [inputEdge_eq, edgeTold_get h1 h2, edgeNoted_get h, hx]
    · exact hx

/-- What a sample of input i reads of it. -/
abbrev sampledRegs : List Reg := [.xInRun, .inputState, .inputEdges, .inputDebounce, .inputActiveHigh]

theorem inputSample_same {level : Bool} {ago : Nat} (h : n ≠ i) : Same sampledRegs i s (s.inputSample n level ago) :=
  fun r hr => by
    simp only [List.mem_cons, List.not_mem_nil, or_false] at hr
    rcases hr with rfl | rfl | rfl | rfl | rfl <;> exact inputSample_get (.inl (Ne.symm h)) (by decide) rfl

theorem Same.bit {b : Nat} (h : Same L i s t) (hr : r ∈ L := by decide) : t.bit r i b = s.bit r i b := by
  rw [State.bit, h.nat hr, ← State.bit]

theorem Same.flag (h : Same L i s t) (hr : r ∈ L := by decide) : t.flag r i = s.flag r i := by
  rw [State.flag, h.get hr, ← State.flag]

theorem Same.inputActive {level : Bool} (h : Same sampledRegs i s t) : t.inputActive i level = s.inputActive i level := by
  rw [State.inputActive, h.flag, ← State.inputActive]

theorem inputsSample_at {levels : Vector Bool 36} {ago : Vector Nat 4} (j : Fin 36) :
    ∃ x a, x.get .xInSamples 0 = s.get .xInSamples 0 + 1 ∧ Same sampledRegs j s x
      ∧ Same sampledRegs j (x.inputSample j levels[j] a) (s.inputsSample levels ago) := by
  obtain ⟨x, h1, h2, h3⟩ := each_at (s := s.set .xInSamples 0 (s.get .xInSamples 0 + 1)) (L := sampledRegs) (i := j)
    (I := fun x => x.get .xInSamples 0 = s.get .xInSamples 0 + 1)
    (f := fun s i => s.inputSample i (levels.toList.getD i false) (ago.toList.getD (i - 32) 0))
    List.nodup_range (List.mem_range.2 j.isLt) (fun t a _ ha => inputSample_same ha) (get_set_same _ _ _ _)
    (fun t a _ ht => (inputSample_get (.inr (by decide)) (by decide) rfl).trans ht)
  have hl : levels.toList.getD j.val false = levels[j] := by
    rw [List.getD_eq_getElem _ _ (by simp)]
    simp
  rw [hl] at h3
  refine ⟨x, _, h1, Same.trans (fun r hr => ?_) h2, h3⟩
  exact get_set_reg _ _ fun he => absurd (he ▸ hr) (by decide)

/-! ## A stuck input, and the end of a rate window -/

theorem inputSource_lt : inputSource n = evDev (n - 8) ∨ inputSource n < 480 := by
  unfold inputSource evCarrier
  split
  · right; omega
  · split
    · right; omega
    · exact .inl rfl

theorem inputSource_inj {m : Nat} (h1 : m < 36) (h2 : n < 36) (h : inputSource m = inputSource n) : m = n := by
  unfold inputSource evCarrier evDev at h
  split_ifs at h <;> omega

theorem inputSource_ne (h : n < 36) : inputSource n ≠ evDev 132 := by
  unfold inputSource evCarrier evDev
  split_ifs <;> omega

theorem raised_inputRecord {more : List Item} {m : Mark} (hn : n < 36) (h : t.get .eventCount (inputSource n)
    = s.get .eventCount (inputSource n)) : Safety.raised s (t.inputRecord n k more m) (inputSource n) := by
  unfold State.inputRecord
  rw [Safety.raised, Safety.countedBy, count_raiseMarked (inputSource_ne hn), if_pos rfl, State.nat, h, ← State.nat]

/-- What the end of its window makes of an input's state. -/
def windowJudged (i : Nat) (s : State) : State :=
  if s.bit .inputState i 2 then
    let n := s.get .xInWindow i
    let s := s.inputRecord i 2 [u32 n] { cleared := !s.bit .inputState i 0, summary := true }
    if 10 * n ≤ s.get .xInLimit i then s.setBit .inputState i 2 false else s
  else s

theorem inputWindow_eq : s.inputWindow n = ((windowJudged n s).set .xInWindow n 0).set .xInLimit n
    ((windowJudged n s).get .inputRateLimit n) := rfl

/-- What a window's end reads of an input. -/
abbrev rateRegs : List Reg := [.inputState, .xInWindow, .xInLimit, .inputRateLimit]

theorem windowJudged_get (h : i ≠ n ∨ r ∉ [Reg.inputState]) (he : Safety.eventSide r = false) :
    (windowJudged n s).get r i = s.get r i := by
  unfold windowJudged State.inputRecord
  split
  · dsimp only
    split
    · rw [State.setBit, get_set_beside h, get_raiseMarked he]
    · rw [get_raiseMarked he]
  · rfl

theorem windowJudged_bit (h : s.bit .inputState n 2 = true) : (windowJudged n s).bit .inputState n 2
    = decide (s.get .xInLimit n < 10 * s.get .xInWindow n) := by
  have hr : ∀ more m r, Safety.eventSide r = false → (s.inputRecord n 2 more m).get r n = s.get r n :=
    fun _ _ _ he => get_raiseMarked he
  unfold windowJudged
  rw [if_pos h]
  dsimp only
  rw [hr _ _ .xInLimit rfl]
  split
  · rw [bit_setBit, if_pos ⟨rfl, rfl⟩]
    simp only [Bool.false_eq, decide_eq_false_iff_not]
    omega
  · rw [State.bit, State.nat, hr _ _ _ rfl, ← State.nat, ← State.bit, h]
    simp only [Bool.true_eq, decide_eq_true_eq]
    omega

theorem windowJudged_counts (hn : n < 36) (h : s.bit .inputState n 2 = true) :
    Safety.raised s (windowJudged n s) (inputSource n) := by
  have hc : ∀ u : State, Safety.raised s u (inputSource n) → ∀ b x, Safety.raised s (u.setBit .inputState n b x) (inputSource n) :=
    fun u hu b x => raised_of_count (get_set_reg _ _ (by decide)) hu
  unfold windowJudged
  rw [if_pos h]
  dsimp only
  split
  · exact hc _ (raised_inputRecord hn rfl) _ _
  · exact raised_inputRecord hn rfl

theorem inputWindow_same (h : n ≠ i) : Same rateRegs i s (s.inputWindow n) := fun r hr => by
  have he : Safety.eventSide r = false := by
    simp only [List.mem_cons, List.not_mem_nil, or_false] at hr
    rcases hr with rfl | rfl | rfl | rfl <;> rfl
  rw [inputWindow_eq, get_set_other _ _ (by simp [Ne.symm h]), get_set_other _ _ (by simp [Ne.symm h]),
    windowJudged_get (.inl (Ne.symm h)) he]

theorem inputWindow_count {j : Nat} (hn : n < 36) (hj : j < 36) (h : n ≠ j) :
    (s.inputWindow n).get .eventCount (inputSource j) = s.get .eventCount (inputSource j) := by
  rw [inputWindow_eq, get_set_reg _ _ (by decide), get_set_reg _ _ (by decide)]
  unfold windowJudged State.inputRecord
  have hr : ∀ more m, (s.raiseMarked (inputSource n) more m).get .eventCount (inputSource j)
      = s.get .eventCount (inputSource j) := fun _ _ => by
    rw [count_raiseMarked (inputSource_ne hj), if_neg fun he => h (inputSource_inj hj hn he).symm]
  split
  · dsimp only
    split
    · rw [State.setBit, get_set_reg _ _ (by decide), hr]
    · exact hr _ _
  · rfl

theorem inputWindows_at (j : Fin 36) : ∃ x, Same rateRegs j s x
    ∧ x.get .eventCount (inputSource j) = s.get .eventCount (inputSource j)
    ∧ Same rateRegs j (x.inputWindow j) (s.each (List.range 36) State.inputWindow)
    ∧ (s.each (List.range 36) State.inputWindow).get .eventCount (inputSource j)
      = (x.inputWindow j).get .eventCount (inputSource j) := by
  obtain ⟨x, -, h1, h2⟩ := each_view_at (s := s) (i := j) (I := fun _ => True) (f := State.inputWindow)
    (view := fun t => (fun (r : { r // r ∈ rateRegs }) => t.get r.val j, t.get .eventCount (inputSource j)))
    List.nodup_range (List.mem_range.2 j.isLt) (fun t a ha hne => Prod.ext
      (funext fun r => inputWindow_same hne r.val r.property) (inputWindow_count (List.mem_range.1 ha) j.isLt hne)) trivial
    fun _ _ _ _ => trivial
  rw [Prod.mk.injEq] at h1 h2
  exact ⟨x, fun r hr => congrFun h1.1 ⟨r, hr⟩, h1.2, fun r hr => congrFun h2.1 ⟨r, hr⟩, h2.2⟩

end Sys2Proof.Laws

namespace Sys2Proof

open Sys2Proof.Machine Sys2Proof.Laws

/-- Settles O55: loops over the inputs are followed at one input. -/
theorem latchesClearAndInputsAreSampled : Obligations.LatchesClearAndInputsAreSampled := by
  refine ⟨fun s cl e ha => ?_, fun s cl ha => ?_, fun s levels ago hp => ?_, fun s i hp h0 h1 hl => ?_, fun s i h => ?_,
    fun s hp => ?_⟩
  · have eff : writeClear .eventLatched e 1 (ready s cl) = ((ready s cl).set .eventLatched e 0, accepted) := rfl
    obtain ⟨a, he, hack⟩ := write_acked (c := .eventLatchClear cl e) ha rfl eff (out_of_ready rfl)
    refine ⟨_, he, hack, ?_, fun i hi => ?_, requestChanges_serving (apart_iff.2 (apart_set (Apart.refl _)))⟩
    · rw [reply_get (by decide) (by decide), get_set_same]
    · rw [reply_get (by decide) (by decide), get_set_other _ _ (by simp [hi]), ready_get (by decide)]
  · have eff : writeClearLatched (ready s cl) = ((ready s cl).clearLatched, accepted) := rfl
    obtain ⟨a, he, hack⟩ := write_acked (c := .clearAllLatched cl) ha rfl eff (out_of_ready rfl)
    refine ⟨_, he, hack, fun e => ?_, requestChanges_serving (apart_iff.2 ⟨fun r i hr => ?_, fun r i hr => rfl⟩)⟩
    · rw [reply_get (by decide) (by decide), clearLatched_get, if_pos rfl]
    · rw [clearLatched_get, if_neg fun he => by rw [he] at hr; cases hr]
  · have he := live_running (f := fun s => s.inputsSample levels ago) hp
    refine ⟨_, he, ?_, fun i h => ?_, fun i h hd hr => ?_, fun i h hr hd => ?_⟩
    · exact (get_each fun _ _ => inputSample_get (.inr (by decide)) (by decide) rfl).trans (get_set_same _ _ _ _)
    all_goals
      obtain ⟨x, a, hs, hx, hy⟩ := inputsSample_at (s := s) (levels := levels) (ago := ago) i
      rw [← hx.inputActive, ← hx.bit] at h
    · have hn : x.inputSample i levels[i] a = x.set .xInRun i 0 := by rw [inputSample_eq, if_pos (by simpa using h)]
      rw [hn] at hy
      exact ⟨hy.get.trans (get_set_same _ _ _ _), hy.get.trans ((get_set_reg _ _ (by decide)).trans hx.get),
        hy.get.trans ((get_set_reg _ _ (by decide)).trans hx.get)⟩
    · have hn : x.inputSample i levels[i] a = (runStarted i a x).inputEdge i (x.inputActive i levels[i]) := by
        rw [inputSample_eq, if_neg (by simpa using h)]
        dsimp only
        rw [runStarted_run (hx.get.trans hr), runStarted_get (.inr (by decide)) (by decide),
          runStarted_get (.inr (by decide)) (by decide), hx.get, hd, if_pos (by omega)]
      obtain ⟨e1, e2, e3⟩ := edgeNoted_reports (s := runStarted i a x) (n := i) (active := x.inputActive i levels[i])
      rw [hn, inputEdge_eq] at hy
      refine ⟨?_, ?_, ?_⟩
      · rw [Safety.countedBy, hy.get, edgeTold_get (by decide) rfl, e1, State.nat, runStarted_get (.inr (by decide)) (by decide),
          ← State.nat, hx.nat]
      · rw [hy.bit, State.bit, State.nat, edgeTold_get (by decide) rfl, ← State.nat, ← State.bit, e2, hx.inputActive]
      · rw [hy.get, edgeTold_get (by decide) rfl, e3]
    · have hn : x.inputSample i levels[i] a = runStarted i a x := by
        rw [inputSample_eq, if_neg (by simpa using h)]
        dsimp only
        rw [runStarted_run (hx.get.trans hr), runStarted_get (.inr (by decide)) (by decide),
          runStarted_get (.inr (by decide)) (by decide), hx.get, if_neg (by omega)]
      rw [hn] at hy
      refine ⟨?_, ?_, ?_⟩
      · rw [hy.get, runStarted_get (.inr (by decide)) (by decide), hx.get]
      · rw [hy.get, runStarted_get (.inr (by decide)) (by decide), hx.get]
      · rw [hy.get, runStarted_run (hx.get.trans hr), hs]
        omega
  · have he := live_running (f := fun s => s.inputStuck i) hp
    have hn : s.inputStuck i = (s.setBit .inputState i 1 true).inputRecord i 1 [] {} := if_pos (by simp [h0, h1, hl])
    refine ⟨_, he, ?_, ?_, apart_iff.2 ?_⟩ <;> rw [hn]
    · rw [State.bit, State.nat, State.inputRecord, get_raiseMarked rfl, ← State.nat, ← State.bit, bit_setBit, if_pos ⟨rfl, rfl⟩]
    · exact raised_inputRecord i.isLt (get_set_reg _ _ (by decide))
    · exact apart_raiseMarked (wide_events _) (apart_set (Apart.refl s))
  · exact live_still (f := fun s => s.inputStuck i) (if_neg (by simp [h]))
  · have he := live_running (f := fun s => s.each (List.range 36) State.inputWindow) hp
    refine ⟨_, he, fun i => ?_⟩
    obtain ⟨x, hx, hc, hy, hd⟩ := inputWindows_at (s := s) i
    have hb : (s.each (List.range 36) State.inputWindow).bit .inputState i 2 = (windowJudged i x).bit .inputState i 2 := by
      rw [hy.bit, inputWindow_eq, State.bit, State.nat, get_set_reg _ _ (by decide), get_set_reg _ _ (by decide),
        ← State.nat, ← State.bit]
    refine ⟨?_, ?_, fun h hw => ?_, fun h hw => ?_, fun h => ?_⟩
    · rw [hy.get, inputWindow_eq, get_set_reg _ _ (by decide), get_set_same]
    · rw [hy.get, inputWindow_eq, get_set_same, windowJudged_get (.inr (by decide)) rfl, hx.get]
    · rw [hb, windowJudged_bit (by rw [hx.bit, h]), hx.get, hx.get]
      simpa using hw
    · rw [hb, windowJudged_bit (by rw [hx.bit, h]), hx.get, hx.get]
      simpa using hw
    · have hr := windowJudged_counts (s := x) i.isLt (by rw [hx.bit, h])
      rw [Safety.raised, Safety.countedBy, hd, inputWindow_eq, get_set_reg _ _ (by decide), get_set_reg _ _ (by decide), hr,
        State.nat, hc, ← State.nat]

end Sys2Proof

/-! # Snapshots and wrap bits (R351, R394, R395) -/

namespace Sys2Proof.Laws

set_option Elab.async false

open Sys2Proof.Machine

variable {s₀ s t u : State} {cl : Client} {c : Instr} {r : Reg} {i n e k d : Nat} {v : Int} {L : List Reg}
  {K : Reg → Bool}

/-! ## Requests that are no writes -/

/-- A fresh request whose action is accepted. -/
theorem serve_acked {addr : Nat × Nat} {act : State → State × Answer} {p : List Byte} (h : Safety.fresh s cl)
    (ha : act (ready s cl) = (u, .ack p)) : s.serve cl addr act = u.reply cl (.ack p) := by
  rw [serve_fresh h, ha]

/-- A fresh request whose action is refused. -/
theorem serve_aborted {addr : Nat × Nat} {act : State → State × Answer} {k d p : Nat} (h : Safety.fresh s cl)
    (ha : act (ready s cl) = (u, .abort k d p)) : s.serve cl addr act = u.reply cl (.abort addr.1 addr.2 k d p) := by
  rw [serve_fresh h, ha]

/-- A write that passes the checks and whose own effect is accepted, with its payload. -/
theorem serveWrite_acked {eff : State → State × Answer} {w : WVal} {p : List Byte} (h : Safety.allowed s cl r i w)
    (he : eff (ready s cl) = (u, .ack p)) : ∃ q, s.serveWrite cl r i w eff = u.reply cl (.ack q) := by
  obtain ⟨a, -, hs⟩ := serveWrite_allowed (eff := eff) h
  rw [he] at hs
  exact ⟨_, hs⟩

theorem ready_class {m : Nat} : (ready s cl).clientClass m = s.clientClass m := by
  have hn : ∀ i, (ready s cl).nat .registrationRow i = s.nat .registrationRow i := fun i => congrArg Int.toNat (ready_get (by decide))
  have hu : (ready s cl).nat .bdapUnregisteredClass 0 = s.nat .bdapUnregisteredClass 0 := congrArg Int.toNat (ready_get (by decide))
  unfold State.clientClass State.registrationOf State.anyRegistration
  simp only [hn, hu]

theorem reply_latches {a : Reply} : (s.reply cl a).latches = s.latches := by
  obtain ⟨b, w, l, o, h⟩ := reply_form (s := s) (cl := cl) a
  rw [h]

theorem ready_latches : (ready s cl).latches = s.latches := by
  obtain ⟨a, w, q, l, h⟩ := ready_form (s := s) (cl := cl)
  rw [h]

/-! ## The gather -/

/-- The state of a snapshot's gather. -/
abbrev gatherRegs : List Reg := [.snapBusy, .xSnapPending, .xSnapPendTime, .xSnapNumber]

theorem snapshot_starts {cause : Nat} (h : s.flag .snapBusy 0 = false) :
    (s.snapshot cause).latches = s.latchNow ∧ (s.snapshot cause).out = s.out ∧ (s.snapshot cause).get .snapBusy 0 = 1
    ∧ (s.snapshot cause).get .xSnapPending 0 = cause ∧ (s.snapshot cause).get .xSnapPendTime 0 = (s.now : Nat)
    ∧ (s.snapshot cause).get .xSnapNumber 0 = ((s.nat .xSnapNumber 0 + 1) % 2 ^ 32 : Nat)
    ∧ Apart gatherRegs.contains s (s.snapshot cause) := by
  have hs : s.snapshot cause = ((((({ s with latches := s.latchNow } : State).set .xSnapPending 0 (cause : Nat)).set
      .xSnapPendTime 0 (s.now : Nat)).set .xSnapNumber 0 ((s.nat .xSnapNumber 0 + 1) % 2 ^ 32 : Nat)).set .snapBusy 0 1) :=
    if_neg (by simp [h])
  have hx : Apart gatherRegs.contains s { s with latches := s.latchNow } := (Apart.refl s).other rfl
  have ho : ({ s with latches := s.latchNow } : State).out = s.out := rfl
  generalize hy : ({ s with latches := s.latchNow } : State) = y at hs hx ho
  rw [hs]
  refine ⟨?_, ?_, ?_, ?_, ?_, ?_, ?_⟩
  · simp only [set_latches, ← hy]
  · rw [set_out, set_out, set_out, set_out, ho]
  · rw [get_set_same]
  · simp (disch := decide) only [get_set_reg, get_set_same]
  · simp (disch := decide) only [get_set_reg, get_set_same]
  · simp (disch := decide) only [get_set_reg, get_set_same]
  · exact apart_set (apart_set (apart_set (apart_set hx)))

theorem snapshot_joins {cause : Nat} (h : s.flag .snapBusy 0 = true) :
    s.snapshot cause = s.set .xSnapPending 0 ((s.nat .xSnapPending 0 ||| cause : Nat) : Int) := if_pos h

/-- What a gather's end tells. -/
abbrev bankRegs : List Reg := [.snapBusy, .xBankCause, .xBankTime, .xBankNumber, .snapNumber, .snapTime, .snapCause,
  .snapQuarterNumber]

/-- Bank 0 set from the gather. -/
def bankGathered (s : State) : State :=
  let s := ({ s with bank0 := s.latches, latches := [] } : State).set .snapBusy 0 0
  s.bankHeader 0 |>.set .snapNumber 0 (s.get .xSnapNumber 0) |>.set .snapTime 0 (s.get .xSnapPendTime 0)
      |>.set .snapCause 0 (s.get .xSnapPending 0)

theorem bankGathered_apart : Apart (fun r => bankRegs.contains r && r != .snapQuarterNumber) s (bankGathered s) := by
  have h : Apart (fun r => bankRegs.contains r && r != .snapQuarterNumber) s
      (({ s with bank0 := s.latches, latches := [] } : State).set .snapBusy 0 0) := apart_set ((Apart.refl s).other rfl)
  exact apart_set (apart_set (apart_set (apart_set (apart_set (apart_set h)))))

theorem bankGathered_get (h : r ∉ bankRegs) : (bankGathered s).get r i = s.get r i :=
  bankGathered_apart.regs r i (by simp_all)

theorem gathered_eq (h : s.flag .snapBusy 0 = true) : s.gathered
    = if s.bit .xSnapPending 0 2 then
        (({ bankGathered s with bank1 := (bankGathered s).bank0 } : State).bankHeader 1).set .snapQuarterNumber 0
          ((bankGathered s).get .xSnapNumber 0)
      else bankGathered s := by
  have hb : (bankGathered s).bit .xSnapPending 0 2 = s.bit .xSnapPending 0 2 := by
    rw [State.bit, State.nat, bankGathered_get (by decide), ← State.nat, ← State.bit]
  rw [← hb]
  unfold State.gathered
  rw [if_neg (by simp [h])]
  rfl

theorem gathered_reports (h : s.flag .snapBusy 0 = true) : s.gathered.bank0 = s.latches ∧ s.gathered.latches = []
    ∧ s.gathered.get .snapBusy 0 = 0 ∧ s.gathered.get .snapNumber 0 = s.get .xSnapNumber 0
    ∧ s.gathered.get .snapTime 0 = s.get .xSnapPendTime 0 ∧ s.gathered.get .snapCause 0 = s.get .xSnapPending 0 := by
  have hx : (bankGathered s).bank0 = s.latches ∧ (bankGathered s).latches = [] := ⟨rfl, rfl⟩
  have hg : (bankGathered s).get .snapBusy 0 = 0 ∧ (bankGathered s).get .snapNumber 0 = s.get .xSnapNumber 0
      ∧ (bankGathered s).get .snapTime 0 = s.get .xSnapPendTime 0
      ∧ (bankGathered s).get .snapCause 0 = s.get .xSnapPending 0 := by
    refine ⟨?_, ?_, ?_, ?_⟩ <;> simp (disch := decide) only [bankGathered, State.bankHeader, get_set_reg, get_set_same] <;> rfl
  have hl : ∀ y : State, ∀ v, ((y.bankHeader 1).set .snapQuarterNumber 0 v).latches = y.latches := fun _ _ => rfl
  have hl0 : ∀ y : State, ∀ v, ((y.bankHeader 1).set .snapQuarterNumber 0 v).bank0 = y.bank0 := fun _ _ => rfl
  have hr : ∀ (y : State) v r, r ∈ [Reg.snapBusy, .snapNumber, .snapTime, .snapCause] →
      ((y.bankHeader 1).set .snapQuarterNumber 0 v).get r 0 = y.get r 0 := fun y v r hr => by
    simp only [List.mem_cons, List.not_mem_nil, or_false] at hr
    rcases hr with rfl | rfl | rfl | rfl <;> simp (disch := decide) only [State.bankHeader, get_set_reg]
  rw [gathered_eq h]
  split
  · rw [hl, hl0, hr _ _ _ (by decide), hr _ _ _ (by decide), hr _ _ _ (by decide), hr _ _ _ (by decide)]
    exact ⟨hx.1, hx.2, hg⟩
  · exact ⟨hx.1, hx.2, hg⟩

theorem gathered_apart (h : s.flag .snapBusy 0 = true) : Safety.changesOnly bankRegs s s.gathered := by
  have hb : Apart bankRegs.contains s (bankGathered s) := bankGathered_apart.mono fun r hr => by simp_all
  rw [gathered_eq h]
  exact apart_iff.2 (apart_ite (apart_set (apart_set (apart_set (apart_set (hb.other rfl))))) hb)

/-! ## Wrap bits -/

theorem bump_wraps {j : Nat} {r' : Reg} (h : r' ≠ r) : sget (s.bump r i n).wraps (r', j) false = sget s.wraps (r', j) false := by
  unfold State.bump
  dsimp only
  split
  · exact sget_sput_other regLt s.wraps (k := (r, i)) (j := (r', j)) true false false fun he => h (Prod.mk.inj he).1
  · rfl

theorem ready_wraps {j : Nat} (h : r ≠ .bdapRequests) : sget (ready s cl).wraps (r, j) false = sget s.wraps (r, j) false := by
  unfold ready State.dequeue
  split
  · rfl
  · unfold State.take
    rw [bump_wraps h]
    rfl

theorem reply_ack_wraps {p : List Byte} {j : Nat} (h : r ≠ .mgtFramesTx) :
    sget (s.reply cl (.ack p)).wraps (r, j) false = sget s.wraps (r, j) false := by
  unfold State.reply
  refine (each_view (view := fun t => sget t.wraps (r, j) false) fun t a _ => ?_).trans rfl
  rw [bump_wraps h]
  rfl

end Sys2Proof.Laws

namespace Sys2Proof

open Sys2Proof.Machine Sys2Proof.Laws

/-- Settles O56: a gather is started, joined and ended; a write clears the wrap bits of its groups. -/
theorem snapshotsAreGatheredAndWrapsCleared : Obligations.SnapshotsAreGatheredAndWrapsCleared := by
  refine ⟨fun s cl hf hc hb => ?_, fun s cl hf hc hb => ?_, fun s hp hb => ?_, fun s cl m ha => ?_⟩
  · have hb' : (ready s cl).flag .snapBusy 0 = false := by rw [ready_flag (by decide), hb]
    obtain ⟨h1, h2, h3, h4, h5, h6, h7⟩ := snapshot_starts (cause := 1) hb'
    generalize hp : leBytes 4 (((ready s cl).snapshot 1).get .xSnapNumber 0)
      ++ leBytes 6 ((((ready s cl).snapshot 1).nat .xSnapPendTime 0 / 1000000000 : Nat) : Int)
      ++ leBytes 4 ((((ready s cl).snapshot 1).nat .xSnapPendTime 0 % 1000000000 : Nat) : Int) = p
    have he : exec (.bdapSnapshot cl) s = .next (((ready s cl).snapshot 1).reply cl (.ack p)) :=
      congrArg Host.Outcome.next (serve_acked hf (by rw [if_neg (by rw [ready_class]; omega), ← hp]))
    have hn : (ready s cl).now = s.now := by
      simp only [State.now, State.timeNs, State.nat, ready_get (show Reg.xTbSec ≠ _ by decide),
        ready_get (show Reg.xTbNs ≠ _ by decide)]
    have hm : (ready s cl).nat .xSnapNumber 0 = s.nat .xSnapNumber 0 := congrArg Int.toNat (ready_get (by decide))
    rw [hn] at h5
    rw [hm] at h6
    refine ⟨_, he, ?_, ?_, ?_, ?_, ?_, ?_, requestChanges_serving (apart_iff.2 (h7.mono fun r hr => ?_))⟩
    · rw [reply_get (by decide) (by decide), h3]
    · rw [reply_latches, h1]
      rfl
    · rw [reply_get (by decide) (by decide), h4]
      rfl
    · rw [reply_get (by decide) (by decide), h5]
    · rw [reply_get (by decide) (by decide), h6]
    · have hr := replied_reply (cl := cl) (a := .ack p) (out_of_ready h2)
      rw [← hp] at hr ⊢
      rw [State.nat, h5, Int.toNat_natCast] at hr
      rw [State.nat, h5, Int.toNat_natCast, reply_get (by decide) (by decide)]
      exact hr
    · exact (Bool.or_eq_false_iff.1 hr).2
  · have hb' : (ready s cl).flag .snapBusy 0 = true := by rw [ready_flag (by decide), hb]
    have hs := snapshot_joins (cause := 1) hb'
    obtain ⟨p, he⟩ : ∃ p, exec (.bdapSnapshot cl) s = .next (((ready s cl).snapshot 1).reply cl (.ack p)) :=
      ⟨_, congrArg Host.Outcome.next (serve_acked hf (by rw [if_neg (by rw [ready_class]; omega)]))⟩
    rw [hs] at he
    refine ⟨_, he, ?_, ?_, ⟨_, replied_reply (out_of_ready rfl)⟩,
      requestChanges_serving (apart_iff.2 (apart_set (Apart.refl _)))⟩
    · rw [reply_latches, set_latches, ready_latches]
    · rw [State.nat, reply_get (by decide) (by decide), get_set_same, Int.toNat_natCast, State.nat, ready_get (by decide),
        ← State.nat]
  · have he := live_running (f := State.gathered) hp
    obtain ⟨h1, h2, h3, h4, h5, h6⟩ := gathered_reports hb
    refine ⟨_, he, h1, h2, h3, h4, h5, h6, fun h => ?_, fun h => ?_, gathered_apart hb⟩
    · rw [gathered_eq hb, if_pos h]
      refine ⟨rfl, ?_⟩
      rw [get_set_same, bankGathered_get (by decide)]
    · rw [gathered_eq hb, if_neg (by simp [h])]
      exact ⟨rfl, bankGathered_apart.regs _ _ rfl⟩
  · obtain ⟨p, hw⟩ := serveWrite_acked (eff := writeClearWraps m.val) ha rfl
    have he : exec (.clearWraps cl m) s = _ := congrArg Host.Outcome.next hw
    have group : ∀ r g, counterGroup r = some g → r ≠ .mgtFramesTx := fun r g h hr => by
      rw [hr] at h
      exact absurd h (by rw [show counterGroup .mgtFramesTx = none by decide]; simp)
    refine ⟨_, he, ⟨_, replied_reply (out_of_ready rfl)⟩, fun r i g hg hm hr => ?_, fun r i g hg hm hr => ?_,
      requestChanges_serving (apart_iff.2 ((Apart.refl _).other rfl))⟩
    · rw [reply_ack_wraps (group r g hg)]
      refine sget_filter_out _ (fun k : Reg × Nat => match counterGroup k.1 with
        | some g => !bitOf (m.val : Int).toNat g
        | none => true) _ ?_
      simp [hg, hm]
    · rw [reply_ack_wraps (group r g hg), ← ready_wraps (s := s) (cl := cl) hr]
      refine sget_filter _ (fun k : Reg × Nat => match counterGroup k.1 with
        | some g => !bitOf (m.val : Int).toNat g
        | none => true) _ ?_
      simp [hg, hm]

end Sys2Proof

/-! # Time bases (R399 to R405) -/

namespace Sys2Proof.Laws

set_option Elab.async false

open Sys2Proof.Machine

variable {s₀ s t u : State} {cl : Client} {c : Instr} {r : Reg} {i n e k d : Nat} {v : Int} {L : List Reg}
  {K : Reg → Bool}

/-! ## One time base -/

/-- What a time base is read from. -/
abbrev baseRegs : List Reg := [.xTbSec, .xTbNs, .xTbFrac, .tbaseIncrement, .xStepDue, .xStepPending]

theorem setTb_get (h : i ≠ n ∨ r ∉ [Reg.xTbSec, .xTbNs, .xTbFrac]) : (s.setTb n k).get r i = s.get r i := by
  unfold State.setTb
  rw [get_set_beside h, get_set_beside h, get_set_beside h]

/-- A time base set to a total that its accumulator holds. -/
theorem setTb_total (h : k < 2 ^ 48 * secondUnits) : (s.setTb n k).tbTotal n = k := by
  unfold State.tbTotal State.timeNs State.setTb State.nat
  simp (disch := decide) only [get_set_reg, get_set_same, Int.toNat_natCast]
  unfold secondUnits at *
  omega

theorem Same.tbTotal (h : Same L n s t) (h1 : Reg.xTbSec ∈ L := by decide) (h2 : Reg.xTbNs ∈ L := by decide)
    (h3 : Reg.xTbFrac ∈ L := by decide) : t.tbTotal n = s.tbTotal n := by
  unfold State.tbTotal State.timeNs
  rw [h.nat h1, h.nat h2, h.nat h3]

/-! ## A tick -/

/-- Every time base counted on. -/
def ticked (s : State) : State :=
  (s.set .xTicks 0 (s.get .xTicks 0 + 1)).each (List.range 4) fun x t => x.setTb t (s.tbTotal t + x.nat .tbaseIncrement t)

/-- What a time base will hold once counted on. -/
def countedTo (s : State) (t : Nat) : Nat := s.tbTotal t + s.nat .tbaseIncrement t

theorem ticked_get (h : r ∉ [Reg.xTicks, .xTbSec, .xTbNs, .xTbFrac]) : (ticked s).get r i = s.get r i := by
  simp only [List.mem_cons, List.not_mem_nil, or_false, not_or] at h
  refine (get_each fun t a => setTb_get (.inr ?_)).trans (get_set_reg _ _ h.1)
  simp only [List.mem_cons, List.not_mem_nil, or_false, not_or]
  exact h.2

theorem ticked_ticks : (ticked s).get .xTicks 0 = s.get .xTicks 0 + 1 :=
  (get_each fun t a => setTb_get (.inr (by decide))).trans (get_set_same _ _ _ _)

theorem ticked_total (j : Fin 4) (h : countedTo s j < 2 ^ 48 * secondUnits) : (ticked s).tbTotal j = countedTo s j := by
  obtain ⟨x, -, hx, hy⟩ := each_at (s := s.set .xTicks 0 (s.get .xTicks 0 + 1)) (L := baseRegs) (i := j) (I := fun _ => True)
    (f := fun x t => x.setTb t (s.tbTotal t + x.nat .tbaseIncrement t)) List.nodup_range (List.mem_range.2 j.isLt)
    (fun t a _ ha r _ => setTb_get (.inl (Ne.symm ha))) trivial fun _ _ _ _ => trivial
  have hi : x.nat .tbaseIncrement j = s.nat .tbaseIncrement j :=
    (hx.nat).trans (congrArg Int.toNat (get_set_reg _ _ (by decide)))
  rw [hi] at hy
  exact hy.tbTotal.trans (setTb_total h)

/-- The scope that leaves time bases, pulse outputs and settings. -/
abbrev timeScope : Scope := fun p => match p with
  | .time => true
  | .timing => true
  | .settings => true
  | _ => false

/-- What the boundaries that counting crosses bring. -/
def boundaries (s x : State) : State :=
  let ms := 1000000 * 2 ^ 32
  let x := if s.tbTotal 0 / ms < countedTo s 0 / ms then x.alignedMs else x
  if s.tbTotal 0 / secondUnits < countedTo s 0 / secondUnits then
    x.alignedSecond (decide (s.tbTotal 0 / (900 * secondUnits) < countedTo s 0 / (900 * secondUnits)))
  else x

theorem boundaries_kept : Kept timeScope t (boundaries s t) := by
  have := fact_false
  unfold boundaries
  extract_lets ms x
  have hx : Kept timeScope t x := kept_ite (kept_alignedMs (Kept.refl t)) (Kept.refl t)
  exact kept_ite (kept_alignedSecond hx) hx

theorem tick_eq : s.tick = (boundaries s ((ticked s).each (List.range 4) fun x j =>
    x.ppsRise j s.tbTotal (countedTo s))).each (List.range 4) State.stepApply := by
  have hi : (fun t => s.tbTotal t + (ticked s).nat .tbaseIncrement t) = countedTo s := funext fun t => by
    rw [countedTo, State.nat, ticked_get (by decide), ← State.nat]
  unfold boundaries
  rw [← hi]
  rfl

/-- What a pulse output is read from. -/
abbrev ppsRegs : List Reg := [.xPpsHigh, .xPpsUntil, .ppsOutSource, .ppsOutOffset, .ppsOutWidth]

theorem ppsRise_get {before after : Nat → Nat} (h : i ≠ n ∨ r ∉ [Reg.xPpsHigh, .xPpsUntil]) :
    (s.ppsRise n before after).get r i = s.get r i := by
  unfold State.ppsRise
  dsimp only
  split
  · rw [get_set_beside h, get_set_beside h]
  · rfl

theorem stepApply_get (h : i ≠ n ∨ r ∉ [Reg.xTbSec, .xTbNs, .xTbFrac, .xStepTick, .xStepBy, .xStepDue, .xStepPending]) :
    (s.stepApply n).get r i = s.get r i := by
  unfold State.stepApply
  split
  · rfl
  · dsimp only
    rw [get_set_beside h, get_set_beside h, setTb_get, get_set_beside h, get_set_beside h]
    exact h.imp_right fun g he => g (by revert he; simp; tauto)

theorem stepApply_reports (h : s.get .xStepDue n = 0 ∨ s.get .xStepDue n = 1 ∨ s.get .xStepDue n = 2)
    (hv : v = if s.get .xStepDue n = 2 then s.get .xStepPending n else if s.get .xStepDue n = 1 then
      s.tbTotal n + s.get .xStepPending n else s.tbTotal n) (h0 : 0 ≤ v) (h1 : v < 2 ^ 48 * (secondUnits : Int)) :
    ((s.stepApply n).tbTotal n : Int) = v ∧ (s.stepApply n).get .xStepDue n = 0 := by
  unfold State.stepApply
  by_cases h0' : s.get .xStepDue n = 0
  · rw [if_pos h0', hv, h0', if_neg (by decide), if_neg (by decide)]
    exact ⟨rfl, rfl⟩
  · rw [if_neg h0']
    have hw : (if s.get .xStepDue n = 2 then s.get .xStepPending n else s.tbTotal n + s.get .xStepPending n) = v := by
      rw [hv]
      rcases h with h | h | h
      · exact absurd h h0'
      · rw [h, if_neg (by decide), if_neg (by decide), if_pos rfl]
      · rw [h, if_pos rfl, if_pos rfl]
    dsimp only
    rw [hw]
    generalize (s.set .xStepTick n (s.get .xTicks 0)).set .xStepBy n _ = x
    have ht : (((x.setTb n v.toNat).set .xStepDue n 0).set .xStepPending n 0).tbTotal n = (x.setTb n v.toNat).tbTotal n := by
      simp (disch := decide) only [State.tbTotal, State.timeNs, State.nat, get_set_reg]
    rw [ht, setTb_total (by omega), get_set_reg _ _ (by decide), get_set_same]
    exact ⟨Int.toNat_of_nonneg h0, rfl⟩

/-- What comes between counting and the steps leaves the time bases. -/
theorem betweenSteps_same {j : Nat} : Same baseRegs j (ticked s) (boundaries s ((ticked s).each (List.range 4) fun x j =>
    x.ppsRise j s.tbTotal (countedTo s))) := by
  refine Same.trans (fun r hr => get_each fun t a => ppsRise_get (.inr fun he => ?_)) boundaries_kept.same
  simp only [List.mem_cons, List.not_mem_nil, or_false] at hr he
  rcases he with rfl | rfl <;> simp at hr

theorem tick_base (j : Fin 4) (hi : 0 ≤ s.get .tbaseIncrement j)
    (hd : s.get .xStepDue j = 0 ∨ s.get .xStepDue j = 1 ∨ s.get .xStepDue j = 2) (hc : countedTo s j < 2 ^ 48 * secondUnits)
    (h0 : 0 ≤ s.nextTotal j) (h1 : s.nextTotal j < 2 ^ 48 * (secondUnits : Int)) :
    (s.tick.tbTotal j : Int) = s.nextTotal j ∧ s.tick.get .xStepDue j = 0 := by
  rw [tick_eq]
  have hb := betweenSteps_same (s := s) (j := j)
  generalize boundaries s _ = y at *
  obtain ⟨x, -, hx, hy⟩ := each_at (s := y) (L := baseRegs) (i := j) (I := fun _ => True) (f := State.stepApply)
    List.nodup_range (List.mem_range.2 j.isLt) (fun t a _ ha r _ => stepApply_get (.inl (Ne.symm ha))) trivial
    fun _ _ _ _ => trivial
  have hs := hb.trans hx
  have due : x.get .xStepDue j = s.get .xStepDue j := hs.get.trans (ticked_get (by decide))
  have pending : x.get .xStepPending j = s.get .xStepPending j := hs.get.trans (ticked_get (by decide))
  have total : x.tbTotal j = countedTo s j := hs.tbTotal.trans (ticked_total j hc)
  have cast : (countedTo s j : Int) = s.tbTotal j + s.get .tbaseIncrement j := by
    rw [countedTo, State.nat]
    omega
  obtain ⟨r1, r2⟩ := stepApply_reports (s := x) (n := j) (v := s.nextTotal j) (by rwa [due]) (by
    rw [due, pending, total, cast]
    rfl) h0 h1
  rw [hy.tbTotal, hy.get]
  exact ⟨r1, r2⟩

theorem tick_pulse (j : Fin 4) (hs : s.nat .ppsOutSource j < 4) (hh : s.get .xPpsHigh j = 0)
    (hc : ((s.tbTotal (s.nat .ppsOutSource j) : Int) - s.get .ppsOutOffset j * 2 ^ 32) / (secondUnits : Int)
      < ((countedTo s (s.nat .ppsOutSource j) : Int) - s.get .ppsOutOffset j * 2 ^ 32) / (secondUnits : Int)) :
    s.tick.get .xPpsHigh j = 1 ∧ s.tick.get .xPpsUntil j = s.get .xTicks 0 + 1 + 250 * s.get .ppsOutWidth j := by
  have after : ∀ r, r ∈ [Reg.xPpsHigh, .xPpsUntil] → s.tick.get r j = ((ticked s).each (List.range 4) fun x j =>
      x.ppsRise j s.tbTotal (countedTo s)).get r j := fun r hr => by
    simp only [List.mem_cons, List.not_mem_nil, or_false] at hr
    rw [tick_eq]
    refine (get_each fun t a => stepApply_get (.inr ?_)).trans (boundaries_kept.get ?_)
    · rcases hr with rfl | rfl <;> decide
    · rcases hr with rfl | rfl <;> rfl
  obtain ⟨x, hx, h1, h2⟩ := each_at (s := ticked s) (L := ppsRegs) (i := j)
    (I := fun x => x.get .xTicks 0 = s.get .xTicks 0 + 1) (f := fun x j => x.ppsRise j s.tbTotal (countedTo s))
    List.nodup_range (List.mem_range.2 j.isLt) (fun t a _ ha r _ => ppsRise_get (.inl (Ne.symm ha))) ticked_ticks
    fun t a _ ht => (ppsRise_get (.inr (by decide))).trans ht
  have same : Same ppsRegs j s x := Same.trans (fun r hr => ticked_get fun he => by
    simp only [List.mem_cons, List.not_mem_nil, or_false] at hr he
    rcases he with rfl | rfl | rfl | rfl <;> simp at hr) h1
  have rises : x.ppsRise j s.tbTotal (countedTo s)
      = (x.set .xPpsHigh j 1).set .xPpsUntil j (x.get .xTicks 0 + 250 * x.get .ppsOutWidth j) := by
    unfold State.ppsRise
    dsimp only
    rw [same.nat, same.get, same.get, if_pos ⟨hs, hh, hc⟩]
  rw [rises] at h2
  rw [after _ (by decide), after _ (by decide), h2.get, h2.get, get_set_reg _ _ (by decide), get_set_same, get_set_same, hx,
    same.get]
  exact ⟨rfl, rfl⟩

theorem tick_ticks : s.tick.get .xTicks 0 = s.get .xTicks 0 + 1 := by
  rw [tick_eq]
  refine (get_each fun t a => stepApply_get (.inr (by decide))).trans (boundaries_kept.get.trans ?_)
  exact (get_each fun t a => ppsRise_get (.inr (by decide))).trans ticked_ticks

/-! ## Steps (R402) -/

theorem ready_total : (ready s cl).tbTotal n = s.tbTotal n := by
  unfold State.tbTotal State.timeNs State.nat
  rw [ready_get (by decide), ready_get (by decide), ready_get (by decide)]

theorem ready_nextTotal : (ready s cl).nextTotal n = s.nextTotal n := by
  unfold State.nextTotal
  rw [ready_total, ready_get (by decide), ready_get (by decide), ready_get (by decide)]

/-- A step over the threshold that is not forced, refused. -/
def stepRefused (t : Nat) (s : State) : State :=
  ((s.bump .tbaseStepsRefused t).set .tbaseRefusedFlag t 1).raise (evDev 32) [u16 t]

/-- A step accepted, once it is noted. -/
def stepTaken (t : Nat) (s : State) : State := ((s.bump .tbaseSteps t).raise (evDev 33) [u16 t]).set .tbaseForce t 0

theorem stepChecked_refused {take : State → State} (h : s.get .tbaseForce n = 0)
    (ht : s.get .tbaseStepThreshold n * 2 ^ 32 < (v.natAbs : Int)) :
    s.stepChecked n v take = (stepRefused n s, refusedFor 1) := if_pos ⟨h, ht⟩

theorem stepChecked_taken {take : State → State}
    (h : s.get .tbaseForce n ≠ 0 ∨ (v.natAbs : Int) ≤ s.get .tbaseStepThreshold n * 2 ^ 32) :
    s.stepChecked n v take = (stepTaken n (take s), accepted) := if_neg fun hn => by omega

theorem stepRefused_reports : Safety.countedBy s (stepRefused n s) .tbaseStepsRefused n 1
    ∧ (stepRefused n s).get .tbaseRefusedFlag n = 1 ∧ Safety.raised s (stepRefused n s) (evDev 32)
    ∧ (stepRefused n s).out = s.out
    ∧ Apart (fun r => Safety.requestSide r || [Reg.tbaseStepsRefused, .tbaseRefusedFlag].contains r) s (stepRefused n s) := by
  unfold stepRefused
  refine ⟨?_, ?_, raised_raise ?_ (by decide), ?_, apart_raise (wide_requests _) (apart_set (apart_bump (Apart.refl s)))⟩
  · rw [Safety.countedBy, get_raise (by decide), get_set_reg _ _ (by decide), get_bump_same]
  · rw [get_raise (by decide), get_set_same]
  · rw [get_set_reg _ _ (by decide), get_bump_other (.inl (by decide))]
  · rw [raise_out, set_out, bump_out]

theorem stepTaken_reports : (stepTaken n s).get .tbaseForce n = 0 ∧ Safety.countedBy s (stepTaken n s) .tbaseSteps n 1
    ∧ Safety.raised s (stepTaken n s) (evDev 33) ∧ (stepTaken n s).out = s.out
    ∧ ∀ r i, r ∉ [Reg.tbaseForce, .tbaseSteps] → Safety.eventSide r = false → (stepTaken n s).get r i = s.get r i := by
  unfold stepTaken
  refine ⟨get_set_same _ _ _ _, ?_, raised_of_count (get_set_reg _ _ (by decide)) (raised_raise ?_ (by decide)), ?_,
    fun r i hr he => ?_⟩
  · rw [Safety.countedBy, get_set_reg _ _ (by decide), get_raise (by decide), get_bump_same]
  · rw [get_bump_other (.inl (by decide))]
  · rw [set_out, raise_out, bump_out]
  · simp only [List.mem_cons, List.not_mem_nil, or_false, not_or] at hr
    rw [get_set_reg _ _ hr.1, get_raise he, get_bump_other (.inl hr.2)]

abbrev stepRegs : List Reg := [.tbaseForce, .xStepPending, .xStepDue, .tbaseSteps]

theorem apart_stepTaken (h : Apart (fun r => Safety.requestSide r || stepRegs.contains r) s₀ s) :
    Apart (fun r => Safety.requestSide r || stepRegs.contains r) s₀ (stepTaken n s) :=
  apart_set (apart_raise (wide_requests _) (apart_bump h))

/-- What a reply tells of a counter. -/
theorem countedBy_reply {a : Reply} (hr : r ≠ .bdapRequests) (h1 : r ≠ .bdapAborts) (h2 : r ≠ .mgtFramesTx)
    (h : Safety.countedBy (ready s cl) u r i k) : Safety.countedBy s (u.reply cl a) r i k := by
  rw [Safety.countedBy, reply_get h1 h2, h, State.nat, ready_get hr, ← State.nat]

/-- The write of a step, by an offset or to a value, that is refused for its size. -/
theorem step_refused {r : Reg} {w : WVal} {eff : State → State × Answer} {c : Instr} (ha : Safety.allowed s cl r n w)
    (hx : exec c s = .next (s.serveWrite cl r n w eff)) (he : eff (ready s cl) = (stepRefused n (ready s cl), refusedFor 1)) :
    ∃ t, exec c s = .next t ∧ Safety.aborted s t cl 0x08 ∧ Safety.countedBy s t .tbaseStepsRefused n 1
      ∧ t.get .tbaseRefusedFlag n = 1 ∧ Safety.raised s t (evDev 32)
      ∧ Safety.requestChanges [.tbaseStepsRefused, .tbaseRefusedFlag] s t := by
  obtain ⟨h1, h2, h3, h4, h5⟩ := stepRefused_reports (s := ready s cl) (n := n)
  obtain ⟨a, hn, hab⟩ := write_aborted ha hx he (out_of_ready h4)
  refine ⟨_, hn, hab, countedBy_reply (by decide) (by decide) (by decide) h1, ?_,
    countedBy_reply (by decide) (by decide) (by decide) h3, requestChanges_serving (apart_iff.2 h5)⟩
  rw [reply_get (by decide) (by decide), h2]

/-- One that is accepted, taken as `take` notes it. -/
theorem step_taken {r : Reg} {w : WVal} {eff : State → State × Answer} {c : Instr} {p d : Int}
    (ha : Safety.allowed s cl r n w) (hx : exec c s = .next (s.serveWrite cl r n w eff))
    (he : eff (ready s cl) = (stepTaken n (((ready s cl).set .xStepPending n p).set .xStepDue n d), accepted)) :
    ∃ t, exec c s = .next t ∧ Safety.acked s t cl ∧ t.get .tbaseForce n = 0 ∧ t.get .xStepPending n = p
      ∧ t.get .xStepDue n = d ∧ Safety.countedBy s t .tbaseSteps n 1 ∧ Safety.raised s t (evDev 33)
      ∧ Safety.requestChanges stepRegs s t := by
  obtain ⟨h1, h2, h3, h4, h5⟩ :=
    stepTaken_reports (s := ((ready s cl).set .xStepPending n p).set .xStepDue n d) (n := n)
  obtain ⟨a, hn, hack⟩ := write_acked ha hx he (out_of_ready h4)
  have count : ∀ r i k, r ∉ [Reg.xStepPending, .xStepDue] →
      Safety.countedBy (((ready s cl).set .xStepPending n p).set .xStepDue n d) (stepTaken n _) r i k →
      Safety.countedBy (ready s cl) (stepTaken n (((ready s cl).set .xStepPending n p).set .xStepDue n d)) r i k :=
    fun r i k hr h => by
      simp only [List.mem_cons, List.not_mem_nil, or_false, not_or] at hr
      rw [Safety.countedBy, h, State.nat, get_set_reg _ _ hr.2, get_set_reg _ _ hr.1, ← State.nat]
  refine ⟨_, hn, hack, ?_, ?_, ?_, countedBy_reply (by decide) (by decide) (by decide) (count _ _ _ (by decide) h2),
    countedBy_reply (by decide) (by decide) (by decide) (count _ _ _ (by decide) h3),
    requestChanges_serving (apart_iff.2 (apart_stepTaken (apart_set (apart_set (Apart.refl _)))))⟩
  · rw [reply_get (by decide) (by decide), h1]
  · rw [reply_get (by decide) (by decide), h5 _ _ (by decide) rfl, get_set_reg _ _ (by decide), get_set_same]
  · rw [reply_get (by decide) (by decide), h5 _ _ (by decide) rfl, get_set_same]

theorem step_range {r : Reg} {w : WVal} {eff : State → State × Answer} {c : Instr} (ha : Safety.allowed s cl r n w)
    (hx : exec c s = .next (s.serveWrite cl r n w eff)) (he : eff (ready s cl) = (ready s cl, refusedWith 0x07)) :
    ∃ t, exec c s = .next t ∧ Safety.aborted s t cl 0x07 ∧ Safety.requestChanges [] s t := by
  obtain ⟨a, hn, hab⟩ := write_aborted ha hx he (out_of_ready rfl)
  exact ⟨_, hn, hab, requestChanges_serving (apart_iff.2 (Apart.refl _))⟩

/-! ## The timing clock (R399) -/

abbrev trefRegs : List Reg := [.xTrefIn, .tclkTrefOffset, .tclkSource]

theorem timingSource_reports : (s.timingSource v).get .tclkSource 0 = v
    ∧ (s.get .tclkSource 0 ≠ v → Safety.raised s (s.timingSource v) (evDev 35))
    ∧ (∀ r i, r ≠ .tclkSource → Safety.eventSide r = false → (s.timingSource v).get r i = s.get r i)
    ∧ (∀ s₀, Apart (fun r => Safety.eventSide r || trefRegs.contains r) s₀ s →
      Apart (fun r => Safety.eventSide r || trefRegs.contains r) s₀ (s.timingSource v)) := by
  unfold State.timingSource
  split
  · rename_i h
    exact ⟨h, fun hn => absurd h hn, fun _ _ _ _ => rfl, fun _ h => h⟩
  · refine ⟨?_, fun _ => raised_raise (get_set_reg _ _ (by decide)) (by decide), fun r i hr he => ?_,
      fun _ h => apart_raise (wide_events _) (apart_set h)⟩
    · rw [get_raise (by decide), get_set_same]
    · rw [get_raise he, get_set_reg _ _ hr]

/-- TREF's state and offset as noted. -/
def trefNoted (on w : Int) (s : State) : State := (s.set .xTrefIn 0 on).set .tclkTrefOffset 0 w

/-- The offset that 8F00.03 tells. -/
def trefOffset (offset : Option Int) : Int :=
  match offset with
  | some o => max (-2147483647) (min 2147483647 o)
  | none => -2147483648

theorem trefOut_eq {offset : Option Int} : s.trefOut offset
    = if s.get .tclkSource 0 = 0 then
        (trefNoted 0 (trefOffset offset) s).timingSource (if s.get .tclkMode 0 = 1 then 1 else 2)
      else trefNoted 0 (trefOffset offset) s := by
  have h : ∀ r, r ∉ [Reg.xTrefIn, .tclkTrefOffset] → (trefNoted 0 (trefOffset offset) s).get r 0 = s.get r 0 := fun r hr => by
    simp only [List.mem_cons, List.not_mem_nil, or_false, not_or] at hr
    rw [trefNoted, get_set_reg _ _ hr.2, get_set_reg _ _ hr.1]
  rw [← h .tclkSource (by decide), ← h .tclkMode (by decide)]
  rfl

theorem trefReturn_eq {offset : Int} : s.trefReturn offset
    = if s.get .tclkMode 0 ≠ 2 then (trefNoted 1 (max (-2147483647) (min 2147483647 offset)) s).timingSource 0
      else trefNoted 1 (max (-2147483647) (min 2147483647 offset)) s := by
  have h : (trefNoted 1 (max (-2147483647) (min 2147483647 offset)) s).get .tclkMode 0 = s.get .tclkMode 0 := by
    rw [trefNoted, get_set_reg _ _ (by decide), get_set_reg _ _ (by decide)]
  rw [← h, ite_not]
  rfl

/-- TREF noted, and the source in force where it follows. -/
theorem tref_followed {p : Prop} [Decidable p] {on w v : Int} (h : t = if p then (trefNoted on w s).timingSource v
    else trefNoted on w s) : t.get .xTrefIn 0 = on ∧ t.get .tclkTrefOffset 0 = w
      ∧ (p → t.get .tclkSource 0 = v ∧ (s.get .tclkSource 0 ≠ v → Safety.raised s t (evDev 35)))
      ∧ (¬p → t.get .tclkSource 0 = s.get .tclkSource 0) ∧ Safety.eventChanges trefRegs s t := by
  have b1 : (trefNoted on w s).get .xTrefIn 0 = on := by rw [trefNoted, get_set_reg _ _ (by decide), get_set_same]
  have b2 : (trefNoted on w s).get .tclkTrefOffset 0 = w := get_set_same _ _ _ _
  have b3 : ∀ r i, r ∉ [Reg.xTrefIn, .tclkTrefOffset] → (trefNoted on w s).get r i = s.get r i := fun r i hr => by
    simp only [List.mem_cons, List.not_mem_nil, or_false, not_or] at hr
    rw [trefNoted, get_set_reg _ _ hr.2, get_set_reg _ _ hr.1]
  have b4 : Apart (fun r => Safety.eventSide r || trefRegs.contains r) s (trefNoted on w s) :=
    apart_set (apart_set (Apart.refl s))
  rw [h]
  generalize trefNoted on w s = x at *
  obtain ⟨t1, t2, t3, t4⟩ := timingSource_reports (s := x) (v := v)
  split
  · rename_i hp
    refine ⟨by rw [t3 _ _ (by decide) rfl, b1], by rw [t3 _ _ (by decide) rfl, b2], fun _ => ⟨t1, fun hs => ?_⟩,
      fun hn => absurd hp hn, apart_iff.2 (t4 s b4)⟩
    have hr := t2 (by rwa [b3 _ _ (by decide)])
    rw [Safety.raised, Safety.countedBy, hr, State.nat, b3 _ _ (by decide), ← State.nat]
  · rename_i hp
    exact ⟨b1, b2, fun hn => absurd hn hp, fun _ => b3 _ _ (by decide), apart_iff.2 b4⟩

end Sys2Proof.Laws

namespace Sys2Proof

open Sys2Proof.Machine Sys2Proof.Laws

/-- Settles O57: the loops of a tick are followed at one time base and at one pulse output. -/
theorem timeBasesCountAndStep : Obligations.TimeBasesCountAndStep := by
  refine ⟨fun s hp => ?_, fun s cl n v ha => ⟨fun hn => ?_, fun h0 h1 hf ht => ?_, fun h0 h1 hf => ?_⟩,
    fun s cl n b ha => ⟨fun hn => ?_, fun hn hf ht => ?_, fun hn hf => ?_⟩, fun s offset hp => ?_, fun s offset hp => ?_,
    fun s j => ⟨fun hp h => ?_, fun h => ?_⟩⟩
  · have he := live_running (f := State.tick) hp
    exact ⟨_, he, tick_ticks, fun n hi hd hc h0 h1 => tick_base n hi hd hc h0 h1, fun j hs hh hc => tick_pulse j hs hh hc⟩
  · refine step_range (c := .timeStepOffset cl n v) ha rfl ?_
    unfold writeTimeOffset
    rw [ready_nextTotal, if_pos hn]
  · have hr : ¬(s.nextTotal n + v * 2 ^ 32 < 0 ∨ 2 ^ 48 * (secondUnits : Int) ≤ s.nextTotal n + v * 2 ^ 32) := by omega
    obtain ⟨t, he, a1, a2, a3, a4, a5⟩ := step_refused (c := .timeStepOffset cl n v) ha rfl (by
      unfold writeTimeOffset
      rw [ready_nextTotal, if_neg hr, stepChecked_refused]
      · rw [ready_get (by decide), hf]
      · rwa [ready_get (by decide)])
    exact ⟨t, he, a1, a2, a3, a4, a5⟩
  · have hr : ¬(s.nextTotal n + v * 2 ^ 32 < 0 ∨ 2 ^ 48 * (secondUnits : Int) ≤ s.nextTotal n + v * 2 ^ 32) := by omega
    obtain ⟨t, he, a1, a2, a3, a4, a5, a6, a7⟩ := step_taken (c := .timeStepOffset cl n v) ha rfl (by
      unfold writeTimeOffset
      rw [ready_nextTotal, if_neg hr, stepChecked_taken (by rwa [ready_get (by decide), ready_get (by decide)]),
        ready_get (by decide), ready_get (by decide)])
    exact ⟨t, he, a1, a2, a3, a4, a5, a6, a7⟩
  · refine step_range (c := .timeSetAbsolute cl n b) ha rfl ?_
    unfold writeTimeSet
    rw [if_pos hn]
  · obtain ⟨t, he, a1, a2, a3, a4, a5⟩ := step_refused (c := .timeSetAbsolute cl n b) ha rfl (by
      unfold writeTimeSet
      dsimp only
      rw [if_neg (by omega), ready_nextTotal, stepChecked_refused]
      · rw [ready_get (by decide), hf]
      · rwa [ready_get (by decide)])
    exact ⟨t, he, a1, a2, a4, a5⟩
  · obtain ⟨t, he, a1, a2, a3, a4, a5, a6, a7⟩ := step_taken (c := .timeSetAbsolute cl n b) ha rfl (by
      unfold writeTimeSet
      dsimp only
      rw [if_neg (by omega), ready_nextTotal, stepChecked_taken (by rwa [ready_get (by decide), ready_get (by decide)])])
    exact ⟨t, he, a1, a3, a4, a2, a5, a6, a7⟩
  · have he := live_running (f := fun s => s.trefOut offset) hp
    obtain ⟨o1, o2, o3, o4, o5⟩ := tref_followed (trefOut_eq (s := s) (offset := offset))
    refine ⟨_, he, o1, fun h => ?_, fun o h => ?_, fun h => ⟨(o3 h).1, (o3 h).2 ?_⟩, o4, o5⟩
    · rw [o2, h]
      rfl
    · rw [o2, h]
      rfl
    · rw [h]
      split <;> decide
  · have he := live_running (f := fun s => s.trefReturn offset) hp
    obtain ⟨o1, o2, o3, o4, o5⟩ := tref_followed (trefReturn_eq (s := s) (offset := offset))
    exact ⟨_, he, o1, o2, fun h => o4 (not_not.2 h), o3, o5⟩
  · have he := live_running (f := fun s => s.ppsFall j) hp
    have hn : s.ppsFall j = s.set .xPpsHigh j 0 := if_pos h
    rw [hn] at he
    exact ⟨_, he, get_set_same _ _ _ _, apart_iff.2 (apart_set (Apart.refl s))⟩
  · exact live_still (f := fun s => s.ppsFall j) (if_neg (by omega))

end Sys2Proof

/-! # Housekeeping converters (R439 to R447) -/

namespace Sys2Proof.Laws

set_option Elab.async false

open Sys2Proof.Machine

variable {s₀ s t u : State} {cl : Client} {c : Instr} {r : Reg} {i n e k d : Nat} {v : Int} {L : List Reg}
  {K : Reg → Bool}

/-! ## What a raise does to a converter

A raise may be a trigger of a housekeeping converter, and a missed trigger a raise. -/

/-- A relation between states that the steps of a raise and of its triggers keep. -/
structure RaiseSteps (R : State → State → Prop) : Prop where
  refl : ∀ s, R s s
  trans : ∀ s t u, R s t → R t u → R s u
  core : ∀ s e d m, R s (s.raiseCore e d m)
  mark : ∀ s, R s (s.markSecond .xHkMissSecond 0)
  seqMissed : ∀ s k, s.get .hkSeqTrigger k = 3 → R s (s.bump .hkSeqMissed k)
  held : ∀ s k, R s (s.set .xHkHeld k 1)
  start : ∀ s k, s.flag .xHkSeqActive k = false → R s (s.hkStart k)
  injMissed : ∀ s k, s.get .hkInjTrigger k = 3 → R s (s.bump .hkInjMissed k)
  pending : ∀ s k, R s (s.set .xHkInjPending k 1)
  injected : ∀ s k, s.get .hkState k = 0 → R s (s.hkStartInjected k)

/-- The sequence trigger of a raise at converter k. -/
def seqStep (e : Nat) (raise : State → Nat → List Item → State) (s : State) (k : Nat) : State :=
  if s.get .hkSeqTrigger k = 3 ∧ s.get .hkSeqEvent k = e then s.hkSeqTrigger k raise else s

/-- The triggers of a raise at converter k. -/
def eventStep (e : Nat) (raise : State → Nat → List Item → State) (s : State) (k : Nat) : State :=
  let s := seqStep e raise s k
  if s.get .hkInjTrigger k = 3 ∧ s.get .hkInjEvent k = e then s.hkInjTrigger k raise else s

section

variable {R : State → State → Prop} (hR : RaiseSteps R)
include hR

theorem RaiseSteps.miss {raise : State → Nat → List Item → State} (hr : ∀ t e d, R t (raise t e d)) :
    R s (s.hkMiss k raise) := by
  unfold State.hkMiss
  split
  · exact hR.trans _ _ _ (hR.mark s) (hr _ _ _)
  · exact hR.refl s

theorem RaiseSteps.seqTrigger {raise : State → Nat → List Item → State} (hr : ∀ t e d, R t (raise t e d))
    (h : s.get .hkSeqTrigger k = 3) : R s (s.hkSeqTrigger k raise) := by
  have missed : R s ((s.bump .hkSeqMissed k).hkMiss k raise) := hR.trans _ _ _ (hR.seqMissed s k h) (hR.miss hr)
  unfold State.hkSeqTrigger
  split
  · exact missed
  · rename_i ha
    split
    · split
      · exact missed
      · exact hR.held s k
    · exact hR.start s k (by simpa using ha)

theorem RaiseSteps.injTrigger {raise : State → Nat → List Item → State} (hr : ∀ t e d, R t (raise t e d))
    (h : s.get .hkInjTrigger k = 3) : R s (s.hkInjTrigger k raise) := by
  unfold State.hkInjTrigger
  split
  · exact hR.trans _ _ _ (hR.injMissed s k h) (hR.miss hr)
  · dsimp only
    split
    · rename_i h0
      exact hR.trans _ _ _ (hR.pending s k) (hR.injected _ k h0)
    · exact hR.pending s k

theorem RaiseSteps.eventStep {raise : State → Nat → List Item → State} (hr : ∀ t e d, R t (raise t e d)) :
    R s (eventStep e raise s k) := by
  have seq : R s (seqStep e raise s k) := by
    unfold seqStep
    split
    · rename_i h
      exact hR.seqTrigger hr h.1
    · exact hR.refl s
  unfold Laws.eventStep
  dsimp only
  generalize seqStep e raise s k = x at *
  split
  · rename_i h
    exact hR.trans _ _ _ seq (hR.injTrigger hr h.1)
  · exact seq

theorem RaiseSteps.eventTrigger {raise : State → Nat → List Item → State} (hr : ∀ t e d, R t (raise t e d)) :
    R s (s.hkEventTrigger e raise) :=
  hR.trans _ _ _ (hR.eventStep (k := 0) hr) (hR.eventStep (s := Laws.eventStep e raise s 0) (k := 1) hr)

theorem RaiseSteps.fuel {detail : List Item} {m : Mark} : R s (State.raiseFuel n s e detail m) := by
  induction n generalizing s e detail m with
  | zero => exact hR.core s e detail m
  | succ n ih =>
    unfold State.raiseFuel
    dsimp only
    split
    · exact hR.core s e detail m
    · exact hR.trans _ _ _ (hR.core s e detail m) (hR.eventTrigger fun t e d => ih)

end

/-- What a raise writes apart from its triggers. -/
theorem raiseCore_get {detail : List Item} {m : Mark} (h : r ∉ raiseRegs) : (s.raiseCore e detail m).get r i = s.get r i := by
  cases hf : s.flag .eventEnable e with
  | true => exact (raiseCore_apart hf).regs r i (by simpa using h)
  | false =>
    rw [raiseCore_disabled hf, get_set_reg _ _ fun he => h (by simp [he]), get_bump_other (.inl fun he => h (by simp [he]))]

/-- What an entry that starts latches is its own converter's. -/
theorem hkLatch_get (h : i ≠ n ∨ r ∉ [Reg.xHkAverage, .xHkShift]) : (s.hkLatch n).get r i = s.get r i := by
  unfold State.hkLatch
  dsimp only
  split <;> rw [get_set_beside h, get_set_beside h]

theorem hkStart_get (h : i ≠ n ∨ r ∉ [Reg.xHkIndex, .xHkSeqActive, .hkState, .xHkAverage, .xHkShift]) :
    (s.hkStart n).get r i = s.get r i := by
  have hb : ((s.setBlob .xHkSequence n (s.hkEntries n)).set .xHkIndex n 0 |>.set .xHkSeqActive n 1).get r i = s.get r i := by
    rw [get_set_beside h, get_set_beside h]
    rfl
  unfold State.hkStart
  dsimp only
  split
  · rw [hkLatch_get (h.imp_right fun g he => g (by revert he; simp; tauto)), get_set_beside h, hb]
  · exact hb

theorem hkStartInjected_get (h : i ≠ n ∨ r ∉ [Reg.xHkInjPending, .xHkInjInForce, .hkState, .xHkAverage, .xHkShift]) :
    (s.hkStartInjected n).get r i = s.get r i := by
  unfold State.hkStartInjected
  rw [hkLatch_get (h.imp_right fun g he => g (by revert he; simp; tauto)), get_set_beside h, get_set_beside h,
    get_set_beside h]

theorem hkLatch_blob : (s.hkLatch n).blob r i = s.blob r i := by
  unfold State.hkLatch
  dsimp only
  split <;> rfl

theorem hkStart_blob (h : (r, i) ≠ (.xHkSequence, n)) : (s.hkStart n).blob r i = s.blob r i := by
  have hb : ∀ x : State, ((x.set .xHkIndex n 0).set .xHkSeqActive n 1).blob r i = x.blob r i := fun x => by
    rw [set_blob, set_blob]
  have hs : ((s.setBlob .xHkSequence n (s.hkEntries n)).set .xHkIndex n 0 |>.set .xHkSeqActive n 1).blob r i
      = s.blob r i := by rw [hb, blob_setBlob_other _ _ h]
  unfold State.hkStart
  extract_lets x
  have hx : x.blob r i = s.blob r i := hs
  clear_value x
  split
  · rw [hkLatch_blob, set_blob, hx]
  · exact hx

theorem bump_blob : (s.bump r n k).blob = s.blob := by
  unfold State.bump
  dsimp only
  split <;> rfl

theorem raiseCore_blob {detail : List Item} {m : Mark} (h : r ∉ raiseRegs) : (s.raiseCore e detail m).blob r i = s.blob r i := by
  cases hf : s.flag .eventEnable e with
  | true => exact (raiseCore_apart hf).blobs r i (by simpa using h)
  | false =>
    rw [raiseCore_disabled hf, set_blob, bump_blob]

theorem hkStartInjected_blob : (s.hkStartInjected n).blob r i = s.blob r i := by
  unfold State.hkStartInjected
  rw [hkLatch_blob]
  rfl

/-- The triggers of converter k are missed, and counted, only where they come from events. -/
theorem seqMissed_steps : RaiseSteps fun s t => t.get .hkSeqTrigger k = s.get .hkSeqTrigger k
    ∧ (s.get .hkSeqTrigger k ≠ 3 → t.get .hkSeqMissed k = s.get .hkSeqMissed k) where
  refl s := ⟨rfl, fun _ => rfl⟩
  trans s t u h g := ⟨g.1.trans h.1, fun hn => (g.2 (by rwa [h.1])).trans (h.2 hn)⟩
  core s e d m := ⟨raiseCore_get (by decide), fun _ => raiseCore_get (by decide)⟩
  mark s := ⟨get_set_reg _ _ (by decide), fun _ => get_set_reg _ _ (by decide)⟩
  seqMissed s j h := ⟨get_bump_other (.inl (by decide)), fun hn => get_bump_other (.inr fun he => hn (he ▸ h))⟩
  held s j := ⟨get_set_reg _ _ (by decide), fun _ => get_set_reg _ _ (by decide)⟩
  start s j h := ⟨hkStart_get (.inr (by decide)), fun _ => hkStart_get (.inr (by decide))⟩
  injMissed s j h := ⟨get_bump_other (.inl (by decide)), fun _ => get_bump_other (.inl (by decide))⟩
  pending s j := ⟨get_set_reg _ _ (by decide), fun _ => get_set_reg _ _ (by decide)⟩
  injected s j h := ⟨hkStartInjected_get (.inr (by decide)), fun _ => hkStartInjected_get (.inr (by decide))⟩

theorem injMissed_steps : RaiseSteps fun s t => t.get .hkInjTrigger k = s.get .hkInjTrigger k
    ∧ (s.get .hkInjTrigger k ≠ 3 → t.get .hkInjMissed k = s.get .hkInjMissed k) where
  refl s := ⟨rfl, fun _ => rfl⟩
  trans s t u h g := ⟨g.1.trans h.1, fun hn => (g.2 (by rwa [h.1])).trans (h.2 hn)⟩
  core s e d m := ⟨raiseCore_get (by decide), fun _ => raiseCore_get (by decide)⟩
  mark s := ⟨get_set_reg _ _ (by decide), fun _ => get_set_reg _ _ (by decide)⟩
  seqMissed s j h := ⟨get_bump_other (.inl (by decide)), fun _ => get_bump_other (.inl (by decide))⟩
  held s j := ⟨get_set_reg _ _ (by decide), fun _ => get_set_reg _ _ (by decide)⟩
  start s j h := ⟨hkStart_get (.inr (by decide)), fun _ => hkStart_get (.inr (by decide))⟩
  injMissed s j h := ⟨get_bump_other (.inl (by decide)), fun hn => get_bump_other (.inr fun he => hn (he ▸ h))⟩
  pending s j := ⟨get_set_reg _ _ (by decide), fun _ => get_set_reg _ _ (by decide)⟩
  injected s j h := ⟨hkStartInjected_get (.inr (by decide)), fun _ => hkStartInjected_get (.inr (by decide))⟩

/-- Where a sequence of converter k stands. -/
abbrev sequenceRegs : List Reg := [.xHkSeqActive, .xHkIndex, .hkState]

/-- A sequence that runs goes on as it stands. -/
theorem running_steps : RaiseSteps fun s t => s.flag .xHkSeqActive k = true → s.get .hkState k = 1 →
    Same sequenceRegs k s t ∧ t.blob .xHkSequence k = s.blob .xHkSequence k where
  refl s _ _ := ⟨Same.refl, rfl⟩
  trans s t u h g h1 h2 := by
    obtain ⟨a1, a2⟩ := h h1 h2
    obtain ⟨b1, b2⟩ := g (by rw [a1.flag, h1]) (a1.get.trans h2)
    exact ⟨a1.trans b1, b2.trans a2⟩
  core s e d m _ _ := ⟨fun r hr => raiseCore_get fun he => by
    simp only [List.mem_cons, List.not_mem_nil, or_false] at hr he
    rcases hr with rfl | rfl | rfl <;> simp at he, raiseCore_blob (by decide)⟩
  mark s _ _ := ⟨fun r hr => get_set_reg _ _ fun he => absurd (he ▸ hr) (by decide), rfl⟩
  seqMissed s j _ _ _ := ⟨fun r hr => get_bump_other (.inl fun he => absurd (he ▸ hr) (by decide)), congrFun (congrFun bump_blob _) _⟩
  held s j _ _ := ⟨fun r hr => get_set_reg _ _ fun he => absurd (he ▸ hr) (by decide), rfl⟩
  start s j h h1 h2 := by
    have hj : k ≠ j := fun he => by rw [he, h] at h1; cases h1
    exact ⟨fun r _ => hkStart_get (.inl hj), hkStart_blob (by simp [hj])⟩
  injMissed s j _ _ _ := ⟨fun r hr => get_bump_other (.inl fun he => absurd (he ▸ hr) (by decide)), congrFun (congrFun bump_blob _) _⟩
  pending s j _ _ := ⟨fun r hr => get_set_reg _ _ fun he => absurd (he ▸ hr) (by decide), rfl⟩
  injected s j h h1 h2 := by
    have hj : k ≠ j := fun he => by rw [he, h] at h2; cases h2
    exact ⟨fun r _ => hkStartInjected_get (.inl hj), hkStartInjected_blob⟩

theorem raise_running {detail : List Item} (h1 : s.flag .xHkSeqActive k = true) (h2 : s.get .hkState k = 1) :
    Same sequenceRegs k s (s.raise e detail) ∧ (s.raise e detail).blob .xHkSequence k = s.blob .xHkSequence k :=
  running_steps.fuel h1 h2

theorem raiseClear_running {detail : List Item} {b : Bool} (h1 : s.flag .xHkSeqActive k = true)
    (h2 : s.get .hkState k = 1) : Same sequenceRegs k s (s.raiseClear e detail b)
      ∧ (s.raiseClear e detail b).blob .xHkSequence k = s.blob .xHkSequence k := running_steps.fuel h1 h2

/-! ## A result -/

/-- The open state judged, and the difference from the other converter noted. -/
def hkJudged (k i entry : Nat) (m : HkReading) (uv : Nat) (s : State) : State :=
  let s := if bitOf entry 15 then s.hkOpen i (s.hkFoundOpen k m) else s
  let settling := bitOf entry 14 && decide (m.sinceMove < 1000 * s.nat .hkSettleTime 0)
  let bad := s.hkDiffers k i uv (settling || s.flag .monOpen i)
  if bad then
    (s.bump .monImplausible i).raise (evDev 130) [u16 i, u32 uv, u32 (s.get .xHkLastUv (64 * (1 - k) + i))]
  else s

/-- A result stored: word w and its value in microvolts, and what is kept of it. -/
def hkStored (k i w uv : Nat) (injected tagged : Bool) (s : State) : State :=
  let s := if s.bit .monResult i 30 then s.bump .monOverruns i else s
  let s := (s.hkStore .monResult i w).set .monMicrovolts i (uv : Nat)
  let s := if injected then s.hkStore .hkInjResult k w else s
  s |>.set .xHkLastUv (64 * k + i) (uv : Nat) |>.set .xHkLastTime (64 * k + i) (s.uptime + 1 : Nat)
    |>.set .xHkLastTagged (64 * k + i) (ofFlag tagged)

/-- A result is judged, stored with marks that its judgement gives, and held against its limits. -/
theorem hkInput_eq {m : HkReading} {injected : Bool} : ∃ settling bad open_ p tagged,
    s.hkInput k i e m injected
      = (let v := hkValue (s.hkSum k (s.nat .xHkAverage k) m.samples) (s.nat .xHkShift k)
        let uv := hkMicrovolts v (s.nat .xHkAverage k) (s.nat .xHkShift k)
        let y := hkStored k i (hkWord k v true settling bad open_) uv injected tagged (hkJudged k i e m uv s)
        if p = true then y else y.hkLimits i uv) := by
  unfold State.hkInput hkJudged hkStored
  exact ⟨_, _, _, _, _, rfl⟩

theorem hkOpen_get {b : Bool} (he : Safety.eventSide r = false) (hr : r ≠ .monOpen) : (s.hkOpen n b).get r i = s.get r i := by
  unfold State.hkOpen
  split
  · rfl
  · rw [get_raiseClear he, State.setFlag, get_set_reg _ _ hr]

theorem hkJudged_get {m : HkReading} {uv j : Nat} (he : Safety.eventSide r = false) (hr : r ∉ [Reg.monOpen, .monImplausible]) :
    (hkJudged k n e m uv s).get r j = s.get r j := by
  simp only [List.mem_cons, List.not_mem_nil, or_false, not_or] at hr
  unfold hkJudged
  extract_lets x settling bad
  have hx : x.get r j = s.get r j := by
    unfold x
    split
    · exact hkOpen_get he hr.1
    · rfl
  split
  · rw [get_raise he, get_bump_other (.inl hr.2), hx]
  · exact hx

theorem hkLimits_get {uv j : Nat} (he : Safety.eventSide r = false) (hr : r ≠ .monLimitState) :
    (s.hkLimits n uv).get r j = s.get r j := by
  unfold State.hkLimits
  extract_lets limit
  split
  · rfl
  · rw [get_raiseClear he, get_set_reg _ _ hr]

/-- A sequence of converter k that runs is where it was. -/
def Runs (k : Nat) (s t : State) : Prop := s.flag .xHkSeqActive k = true → s.get .hkState k = 1 →
  Same sequenceRegs k s t ∧ t.blob .xHkSequence k = s.blob .xHkSequence k

theorem Runs.refl : Runs k s s := fun _ _ => ⟨Same.refl, rfl⟩

theorem Runs.trans (h : Runs k s t) (g : Runs k t u) : Runs k s u := running_steps.trans s t u h g

theorem runs_set (h : r ∉ sequenceRegs) : Runs k s (s.set r n v) := fun _ _ =>
  ⟨fun _ hr' => get_set_reg _ _ fun he => h (he ▸ hr'), set_blob _ _ _ _ _ _⟩

theorem runs_bump (h : r ∉ sequenceRegs) : Runs k s (s.bump r n d) := fun _ _ =>
  ⟨fun _ hr' => get_bump_other (.inl fun he => h (he ▸ hr')), congrFun (congrFun bump_blob _) _⟩

theorem runs_raise {detail : List Item} : Runs k s (s.raise e detail) := running_steps.fuel

theorem runs_raiseClear {detail : List Item} {b : Bool} : Runs k s (s.raiseClear e detail b) := running_steps.fuel

theorem runs_ite {p : Prop} [Decidable p] (ht : Runs k s t) (hu : Runs k s u) : Runs k s (if p then t else u) := by
  split <;> assumption

theorem hkInput_runs {m : HkReading} {injected : Bool} : Runs k s (s.hkInput n i e m injected) := by
  obtain ⟨settling, bad, open_, p, tagged, hi⟩ := hkInput_eq (s := s) (k := n) (i := i) (e := e) (m := m) (injected := injected)
  rw [hi]
  dsimp only
  generalize hkMicrovolts _ _ _ = uv
  generalize hkWord n _ true settling bad open_ = w
  have judged : Runs k s (hkJudged n i e m uv s) := by
    unfold hkJudged State.hkOpen
    extract_lets x settling bad
    have hx : Runs k s x := runs_ite (runs_ite Runs.refl ((runs_set (by decide)).trans runs_raiseClear)) Runs.refl
    exact runs_ite ((hx.trans (runs_bump (by decide))).trans runs_raise) hx
  have stored : ∀ x : State, Runs k x (hkStored n i w uv injected tagged x) := fun x => by
    unfold hkStored State.hkStore
    extract_lets a b d
    have ha : Runs k x a := runs_ite (runs_bump (by decide)) Runs.refl
    have hb : Runs k x b := (ha.trans (runs_set (by decide))).trans (runs_set (by decide))
    have hd : Runs k x d := runs_ite (hb.trans (runs_set (by decide))) hb
    exact ((hd.trans (runs_set (by decide))).trans (runs_set (by decide))).trans (runs_set (by decide))
  have limits : ∀ x : State, Runs k x (x.hkLimits i uv) := fun x => by
    unfold State.hkLimits
    exact runs_ite Runs.refl ((runs_set (by decide)).trans runs_raiseClear)
  exact runs_ite (judged.trans (stored _)) ((judged.trans (stored _)).trans (limits _))

/-- The word of a result that is stored, with the mark of an unread one. -/
def marked (w : Nat) (unread : Bool) : Nat := w + if unread then 2 ^ 26 else 0

theorem hkStored_reports {w uv : Nat} {injected tagged : Bool} :
    (hkStored k n w uv injected tagged s).get .monMicrovolts n = uv
    ∧ (hkStored k n w uv injected tagged s).nat .monResult n = marked w (s.bit .monResult n 30)
    ∧ (s.bit .monResult n 30 = true → Safety.countedBy s (hkStored k n w uv injected tagged s) .monOverruns n 1)
    ∧ (injected = true → ∃ b, (hkStored k n w uv injected tagged s).nat .hkInjResult k = marked w b) := by
  unfold hkStored State.hkStore
  extract_lets a b d
  have ha : ∀ r j, r ≠ .monOverruns → a.get r j = s.get r j := fun r j hr => by
    unfold a
    split
    · exact get_bump_other (.inl hr)
    · rfl
  have hbit : a.bit .monResult n 30 = s.bit .monResult n 30 := by rw [State.bit, State.nat, ha _ _ (by decide), ← State.nat, ← State.bit]
  have hd : ∀ r j, r ≠ .hkInjResult → d.get r j = b.get r j := fun r j hr => by
    unfold d
    split
    · exact get_set_reg _ _ hr
    · rfl
  refine ⟨?_, ?_, fun hu => ?_, fun hi => ⟨b.bit .hkInjResult k 30, ?_⟩⟩
  · rw [get_set_reg _ _ (by decide), get_set_reg _ _ (by decide), get_set_reg _ _ (by decide), hd _ _ (by decide), get_set_same]
  · rw [State.nat, get_set_reg _ _ (by decide), get_set_reg _ _ (by decide), get_set_reg _ _ (by decide), hd _ _ (by decide),
      get_set_reg _ _ (by decide), get_set_same, Int.toNat_natCast, hbit]
    rfl
  · rw [Safety.countedBy, get_set_reg _ _ (by decide), get_set_reg _ _ (by decide), get_set_reg _ _ (by decide),
      hd _ _ (by decide), get_set_reg _ _ (by decide), get_set_reg _ _ (by decide)]
    unfold a
    rw [if_pos hu, get_bump_same]
  · rw [State.nat, get_set_reg _ _ (by decide), get_set_reg _ _ (by decide), get_set_reg _ _ (by decide)]
    unfold d
    rw [if_pos hi, get_set_same, Int.toNat_natCast]
    rfl

theorem marked_low {w : Nat} {b : Bool} : marked w b % 2 ^ 20 = w % 2 ^ 20 := by
  unfold marked
  split <;> omega

theorem hkWord_low {w : Nat} {f1 f2 f3 f4 : Bool} : hkWord k w f1 f2 f3 f4 % 2 ^ 20 = w % 2 ^ 20 := by
  unfold hkWord
  cases f1 <;> cases f2 <;> cases f3 <;> cases f4 <;> simp only [if_true, if_false, Bool.false_eq_true] <;> omega

/-- A new result is marked new, and as an overrun where the one before it was. -/
theorem marked_bits {w : Nat} {f2 f3 f4 b : Bool} (hk : k < 2) : bitOf (marked (hkWord k w true f2 f3 f4) b) 30 = true
    ∧ bitOf (marked (hkWord k w true f2 f3 f4) b) 26 = b := by
  unfold bitOf marked hkWord
  cases f2 <;> cases f3 <;> cases f4 <;> cases b <;> simp only [if_true, if_false, Bool.false_eq_true, beq_iff_eq] <;>
    (constructor <;> simp <;> omega)

/-! ## What follows a conversion -/

/-- What the next entry, a calibration or an injected entry writes of its converter. -/
abbrev followRegs : List Reg := [.xHkIndex, .xHkAverage, .xHkShift, .hkSeqCount, .xHkSeqActive, .hkState, .hkCalState,
  .xHkCalWait, .xHkInjPending, .xHkInjInForce]

theorem hkCalStart_get (h : i ≠ n ∨ r ∉ [Reg.hkState, .hkCalState, .xHkCalWait]) : (s.hkCalStart n).get r i = s.get r i := by
  unfold State.hkCalStart
  rw [get_set_beside h, get_set_beside h, get_set_beside h]

theorem hkResume_get (h : i ≠ n ∨ r ∉ [Reg.hkState, .xHkAverage, .xHkShift]) : (s.hkResume n).get r i = s.get r i := by
  unfold State.hkResume
  split
  · rw [hkLatch_get (h.imp_right fun g he => g (by revert he; simp; tauto)), get_set_beside h]
  · exact get_set_beside h

theorem hkBoundary_get (h : i ≠ n ∨ r ∉ [Reg.hkState, .hkCalState, .xHkCalWait, .xHkInjPending, .xHkInjInForce,
    .xHkAverage, .xHkShift]) : (s.hkBoundary n).get r i = s.get r i := by
  unfold State.hkBoundary
  split
  · rfl
  · split
    · exact hkCalStart_get (h.imp_right fun g he => g (by revert he; simp; tauto))
    · split
      · exact hkStartInjected_get (h.imp_right fun g he => g (by revert he; simp; tauto))
      · rfl

theorem hkNext_get (h : r ∉ followRegs) : (s.hkNext n).get r i = s.get r i := by
  have sub : ∀ l : List Reg, l ⊆ followRegs → i ≠ n ∨ r ∉ l := fun l hl => .inr fun he => h (hl he)
  have ne : ∀ r', r' ∈ followRegs → r ≠ r' := fun r' hr' he => h (he ▸ hr')
  unfold State.hkNext
  split
  · split
    · exact hkCalStart_get (sub _ (by decide))
    · exact hkResume_get (sub _ (by decide))
  · dsimp only
    split
    · rw [hkLatch_get (sub _ (by decide)), get_set_reg _ _ (ne _ (by decide))]
    · have hx : (((s.bump .hkSeqCount n).set .xHkSeqActive n 0).set .hkState n 0).get r i = s.get r i := by
        rw [get_set_reg _ _ (ne _ (by decide)), get_set_reg _ _ (ne _ (by decide)), get_bump_other (.inl (ne _ (by decide)))]
      split
      · rw [hkStart_get (sub _ (by decide)), hx]
      · exact hx

/-- A sequence goes on to its next entry, or ends. -/
theorem hkNext_sequence (h : s.get .hkState n = 1) :
    (s.nat .xHkIndex n + 1 < (s.blob .xHkSequence n).length / 2 →
      (s.hkNext n).get .xHkIndex n = (s.nat .xHkIndex n + 1 : Nat) ∧ (s.hkNext n).get .hkSeqCount n = s.get .hkSeqCount n)
    ∧ ((s.blob .xHkSequence n).length / 2 ≤ s.nat .xHkIndex n + 1 → Safety.countedBy s (s.hkNext n) .hkSeqCount n 1) := by
  unfold State.hkNext
  rw [h, if_neg (by decide)]
  refine ⟨fun hl => ?_, fun hl => ?_⟩
  · dsimp only
    rw [if_pos hl, hkLatch_get (.inr (by decide)), hkLatch_get (.inr (by decide)), get_set_same, get_set_reg _ _ (by decide)]
    exact ⟨rfl, rfl⟩
  · dsimp only
    rw [if_neg (by omega), Safety.countedBy]
    have hx : (((s.bump .hkSeqCount n).set .xHkSeqActive n 0).set .hkState n 0).get .hkSeqCount n
        = ((s.nat .hkSeqCount n + 1) % 2 ^ Reg.bits .hkSeqCount : Nat) := by
      rw [get_set_reg _ _ (by decide), get_set_reg _ _ (by decide), get_bump_same]
    split
    · rw [hkStart_get (.inr (by decide)), hx]
    · exact hx

/-- What a conversion stores, before the next entry. -/
def hkTaken (s : State) (k : Nat) (m : HkReading) : State :=
  if hkChannel (s.hkCurrent k) < 64 then
    s.hkInput k (hkChannel (s.hkCurrent k)) (s.hkCurrent k) m (s.get .hkState k == 2)
  else
    let settling := bitOf (s.hkCurrent k) 14 && decide (m.sinceMove < 1000 * s.nat .hkSettleTime 0)
    s.set (if hkChannel (s.hkCurrent k) = 64 then .hkRefResult else .hkGndResult) k
      (hkWord k (s.hkSum k 0 m.samples) false settling false false : Nat)

theorem hkConverted_eq {m : HkReading} (h : s.get .hkState k = 1 ∨ s.get .hkState k = 2) :
    s.hkConverted k m = ((hkTaken s k m).hkNext k).hkBoundary k := by
  unfold State.hkConverted
  dsimp only
  rw [if_neg (by omega)]
  rfl

theorem hkTaken_runs {m : HkReading} : Runs n s (hkTaken s k m) := by
  unfold hkTaken
  refine runs_ite hkInput_runs (runs_set ?_)
  split <;> decide

/-- What follows a conversion leaves its results. -/
theorem hkConverted_get {m : HkReading} (h : s.get .hkState k = 1 ∨ s.get .hkState k = 2) (hr : r ∉ followRegs) :
    (s.hkConverted k m).get r i = (hkTaken s k m).get r i := by
  have h2 : ∀ l : List Reg, l ⊆ followRegs → i ≠ k ∨ r ∉ l := fun l hl => .inr fun he => hr (hl he)
  rw [hkConverted_eq h, hkBoundary_get (h2 _ (by decide)), hkNext_get hr]

theorem hkTaken_input {m : HkReading} (hk : k < 2) (hc : hkChannel (s.hkCurrent k) < 64) :
    let ch := hkChannel (s.hkCurrent k)
    let v := hkValue (s.hkSum k (s.nat .xHkAverage k) m.samples) (s.nat .xHkShift k)
    let t := hkTaken s k m
    t.get .monMicrovolts ch = (hkMicrovolts v (s.nat .xHkAverage k) (s.nat .xHkShift k) : Nat)
      ∧ t.nat .monResult ch % 2 ^ 20 = v % 2 ^ 20 ∧ t.bit .monResult ch 30 = true
      ∧ t.bit .monResult ch 26 = s.bit .monResult ch 30
      ∧ (s.bit .monResult ch 30 = true → Safety.countedBy s t .monOverruns ch 1)
      ∧ (s.get .hkState k = 2 → t.nat .hkInjResult k % 2 ^ 20 = v % 2 ^ 20) := by
  intro ch v t
  obtain ⟨f2, f3, f4, p, tagged, hi⟩ := hkInput_eq (s := s) (k := k) (i := ch) (e := s.hkCurrent k) (m := m)
    (injected := s.get .hkState k == 2)
  have ht : t = s.hkInput k ch (s.hkCurrent k) m (s.get .hkState k == 2) := if_pos hc
  rw [← ht] at hi
  dsimp only at hi
  change t = _ at hi
  generalize hkMicrovolts _ (s.nat .xHkAverage k) (s.nat .xHkShift k) = uv at *
  have limits : ∀ r j, r ∈ [Reg.monMicrovolts, .monResult, .monOverruns, .hkInjResult] → t.get r j
      = (hkStored k ch (hkWord k v true f2 f3 f4) uv (s.get .hkState k == 2) tagged
        (hkJudged k ch (s.hkCurrent k) m uv s)).get r j := fun r j hr => by
    simp only [List.mem_cons, List.not_mem_nil, or_false] at hr
    rw [hi]
    split
    · rfl
    · rcases hr with rfl | rfl | rfl | rfl <;> exact hkLimits_get rfl (by decide)
  obtain ⟨r1, r2, r3, r4⟩ := hkStored_reports (s := hkJudged k ch (s.hkCurrent k) m uv s) (k := k) (n := ch)
    (w := hkWord k v true f2 f3 f4) (uv := uv) (injected := s.get .hkState k == 2) (tagged := tagged)
  have judged : ∀ r j, r ∈ [Reg.monResult, .monOverruns] → (hkJudged k ch (s.hkCurrent k) m uv s).get r j = s.get r j :=
    fun r j hr => by
      simp only [List.mem_cons, List.not_mem_nil, or_false] at hr
      rcases hr with rfl | rfl <;> exact hkJudged_get rfl (by decide)
  have hbit : (hkJudged k ch (s.hkCurrent k) m uv s).bit .monResult ch 30 = s.bit .monResult ch 30 := by
    rw [State.bit, State.nat, judged _ _ (by decide), ← State.nat, ← State.bit]
  have hres : t.nat .monResult ch = marked (hkWord k v true f2 f3 f4) (s.bit .monResult ch 30) := by
    rw [State.nat, limits _ _ (by decide), ← State.nat, r2, hbit]
  obtain ⟨m1, m2⟩ := marked_bits (k := k) (w := v) (f2 := f2) (f3 := f3) (f4 := f4) (b := s.bit .monResult ch 30) hk
  refine ⟨by rw [limits _ _ (by decide), r1], ?_, ?_, ?_, fun h => ?_, fun h => ?_⟩
  · rw [hres, marked_low, hkWord_low]
  · rw [State.bit, hres, m1]
  · rw [State.bit, hres, m2]
  · rw [Safety.countedBy, limits _ _ (by decide), r3 (by rw [hbit, h]), State.nat, judged _ _ (by decide), ← State.nat]
  · obtain ⟨b, hb⟩ := r4 (by rw [h]; rfl)
    rw [State.nat, limits _ _ (by decide), ← State.nat, hb, marked_low, hkWord_low]

/-- Words of inputs that are no results of sequences. -/
theorem hkTaken_word {m : HkReading} (hc : 64 ≤ hkChannel (s.hkCurrent k)) :
    (hkTaken s k m).nat (if hkChannel (s.hkCurrent k) = 64 then .hkRefResult else .hkGndResult) k % 2 ^ 20
      = s.hkSum k 0 m.samples % 2 ^ 20 := by
  unfold hkTaken
  rw [if_neg (by omega), State.nat, get_set_same, Int.toNat_natCast, hkWord_low]

theorem hkTaken_count {m : HkReading} : (hkTaken s k m).get .hkSeqCount n = s.get .hkSeqCount n := by
  have stored : ∀ (x : State) i w uv a b, (hkStored k i w uv a b x).get .hkSeqCount n = x.get .hkSeqCount n :=
    fun x i w uv a b => by
      unfold hkStored State.hkStore
      extract_lets y z d
      have hy : y.get .hkSeqCount n = x.get .hkSeqCount n := by
        unfold y
        split
        · exact get_bump_other (.inl (by decide))
        · rfl
      have hd : d.get .hkSeqCount n = z.get .hkSeqCount n := by
        unfold d
        split
        · exact get_set_reg _ _ (by decide)
        · rfl
      rw [get_set_reg _ _ (by decide), get_set_reg _ _ (by decide), get_set_reg _ _ (by decide), hd, get_set_reg _ _ (by decide),
        get_set_reg _ _ (by decide), hy]
  unfold hkTaken
  split
  · obtain ⟨f2, f3, f4, p, tagged, hi⟩ := hkInput_eq (s := s) (k := k) (i := hkChannel (s.hkCurrent k))
      (e := s.hkCurrent k) (m := m) (injected := s.get .hkState k == 2)
    rw [hi]
    dsimp only
    split
    · rw [stored, hkJudged_get rfl (by decide)]
    · rw [hkLimits_get rfl (by decide), stored, hkJudged_get rfl (by decide)]
  · exact get_set_reg _ _ (by split <;> decide)

/-! ## Triggers and calibrations by write -/

theorem hkMiss_get {raise : State → Nat → List Item → State} (hr : ∀ t e d, (raise t e d).get r i = t.get r i)
    (h : r ≠ .xHkMissSecond) : (s.hkMiss n raise).get r i = s.get r i := by
  unfold State.hkMiss
  split
  · exact (hr _ _ _).trans (get_set_reg _ _ h)
  · rfl

/-- A trigger of a sequence that is missed. -/
def seqMissed (k : Nat) (s : State) : State := (s.bump .hkSeqMissed k).hkMiss k State.raise

theorem seqMissed_count (h : s.get .hkSeqTrigger k = 0) : Safety.countedBy s (seqMissed k s) .hkSeqMissed k 1 := by
  have hm := (seqMissed_steps (k := k)).miss (k := k) (s := s.bump .hkSeqMissed k) (raise := State.raise) fun t e d =>
    (seqMissed_steps (k := k)).fuel
  have ht : (s.bump .hkSeqMissed k).get .hkSeqTrigger k = 0 := by rw [get_bump_other (.inl (by decide)), h]
  rw [Safety.countedBy, seqMissed, hm.2 (by rw [ht]; decide), get_bump_same]

/-- An injected trigger that is missed. -/
def injMissed (k : Nat) (s : State) : State := (s.bump .hkInjMissed k).hkMiss k State.raise

theorem injMissed_count (h : s.get .hkInjTrigger k = 0) : Safety.countedBy s (injMissed k s) .hkInjMissed k 1 := by
  have hm := (injMissed_steps (k := k)).miss (k := k) (s := s.bump .hkInjMissed k) (raise := State.raise) fun t e d =>
    (injMissed_steps (k := k)).fuel
  have ht : (s.bump .hkInjMissed k).get .hkInjTrigger k = 0 := by rw [get_bump_other (.inl (by decide)), h]
  rw [Safety.countedBy, injMissed, hm.2 (by rw [ht]; decide), get_bump_same]

theorem hkMiss_out : (s.hkMiss k State.raise).out = s.out := by
  unfold State.hkMiss
  split
  · rw [raise_out]
    rfl
  · rfl

theorem hkLatch_out : (s.hkLatch k).out = s.out := by
  unfold State.hkLatch
  dsimp only
  split <;> rw [set_out, set_out]

theorem hkStart_out : (s.hkStart k).out = s.out := by
  unfold State.hkStart
  extract_lets x
  have hx : x.out = s.out := by rw [set_out, set_out, setBlob_out]
  clear_value x
  split
  · rw [hkLatch_out, set_out, hx]
  · exact hx

theorem hkSeqTrigger_out : (s.hkSeqTrigger k State.raise).out = s.out := by
  unfold State.hkSeqTrigger
  split
  · rw [hkMiss_out, bump_out]
  · split
    · split
      · rw [hkMiss_out, bump_out]
      · rw [set_out]
    · exact hkStart_out

theorem hkInjTrigger_out : (s.hkInjTrigger k State.raise).out = s.out := by
  unfold State.hkInjTrigger
  split
  · rw [hkMiss_out, bump_out]
  · dsimp only
    split
    · unfold State.hkStartInjected
      rw [hkLatch_out, set_out, set_out, set_out, set_out]
    · rw [set_out]

/-- A sequence that starts, from its first entry with the entries then written. -/
theorem hkStart_reports : (s.hkStart k).get .xHkSeqActive k = 1 ∧ (s.hkStart k).get .xHkIndex k = 0
    ∧ (s.hkStart k).blob .xHkSequence k = s.hkEntries k
    ∧ (s.get .hkState k = 0 → (s.hkStart k).get .hkState k = 1) := by
  unfold State.hkStart
  extract_lets x
  have h1 : x.get .xHkSeqActive k = 1 := get_set_same _ _ _ _
  have h2 : x.get .xHkIndex k = 0 := by
    unfold x
    rw [get_set_reg _ _ (by decide), get_set_same]
  have h3 : x.blob .xHkSequence k = s.hkEntries k := by
    unfold x
    rw [set_blob, set_blob, blob_setBlob_same]
  have h4 : x.get .hkState k = s.get .hkState k := by
    unfold x
    rw [get_set_reg _ _ (by decide), get_set_reg _ _ (by decide), setBlob_get]
  clear_value x
  split
  · refine ⟨?_, ?_, ?_, fun _ => ?_⟩
    · rw [hkLatch_get (.inr (by decide)), get_set_reg _ _ (by decide), h1]
    · rw [hkLatch_get (.inr (by decide)), get_set_reg _ _ (by decide), h2]
    · rw [hkLatch_blob, set_blob, h3]
    · rw [hkLatch_get (.inr (by decide)), get_set_same]
  · rename_i hn
    exact ⟨h1, h2, h3, fun h0 => absurd (h4.trans h0) hn⟩

theorem hkStartInjected_reports : (s.hkStartInjected k).get .hkState k = 2
    ∧ (s.hkStartInjected k).get .xHkInjInForce k = s.get .hkInjEntry k ∧ (s.hkStartInjected k).get .xHkInjPending k = 0 := by
  unfold State.hkStartInjected
  refine ⟨?_, ?_, ?_⟩ <;> rw [hkLatch_get (.inr (by decide))]
  · exact get_set_same _ _ _ _
  · simp (disch := decide) only [get_set_reg, get_set_same]
  · simp (disch := decide) only [get_set_reg, get_set_same]

/-- What asking for a calibration writes. -/
abbrev askRegs : List Reg := [.hkState, .hkCalState, .xHkCalWait]

theorem hkCalStart_reports : (s.hkCalStart k).get .hkState k = 3 ∧ (s.hkCalStart k).get .hkCalState k = 2
    ∧ (s.hkCalStart k).get .xHkCalWait k = 0 := by
  unfold State.hkCalStart
  refine ⟨?_, ?_, ?_⟩ <;> simp (disch := decide) only [get_set_reg, get_set_same]

theorem apart_hkCalStart (h : Apart K s₀ s) (hK : ∀ r ∈ askRegs, K r = true) : Apart K s₀ (s.hkCalStart k) :=
  apart_set (apart_set (apart_set h (hK _ (by decide))) (hK _ (by decide))) (hK _ (by decide))

theorem hkCalAsk_reports : (s.flag .xHkInjPending k = true ∨ s.get .hkState k = 2 → (s.hkCalAsk k).get .hkCalState k = 1)
    ∧ (s.flag .xHkInjPending k = false → s.get .hkState k = 0 → (s.hkCalAsk k).get .hkState k = 3
      ∧ (s.hkCalAsk k).get .hkCalState k = 2)
    ∧ (s.flag .xHkInjPending k = false → s.get .hkState k = 1 → (s.hkCalAsk k).get .xHkCalWait k = 1) := by
  unfold State.hkCalAsk
  refine ⟨fun h => ?_, fun h h0 => ?_, fun h h1 => ?_⟩
  · rw [if_pos h, get_set_same]
  · rw [if_neg (by simp [h, h0]), if_pos h0]
    exact ⟨hkCalStart_reports.1, hkCalStart_reports.2.1⟩
  · rw [if_neg (by simp [h, h1]), if_neg (by simp [h1]), get_set_same]

theorem apart_hkCalAsk (h : Apart K s₀ s) (hK : ∀ r ∈ askRegs, K r = true) : Apart K s₀ (s.hkCalAsk k) :=
  apart_ite (apart_set h (hK _ (by decide))) (apart_ite (apart_hkCalStart h hK) (apart_set h (hK _ (by decide))))

theorem hkCalAsk_out : (s.hkCalAsk k).out = s.out := by
  unfold State.hkCalAsk State.hkCalStart
  split
  · rw [set_out]
  · split
    · rw [set_out, set_out, set_out]
    · rw [set_out]

/-! ## The end of a calibration -/

/-- A calibration's results, in force or refused. -/
def hkCalJudged (k : Nat) (m : HkCalReading) (s : State) : State :=
  if hkBroken m = 0 then (s.set .hkCalOffset k m.offset).set .hkCalGain k m.gain
  else ((s.bump .hkCalRefusals k).set .hkCalLastLimit k (hkBroken m : Nat)).raise (evDev 131) [u16 k, u8 (hkBroken m)]

/-- A calibration that no longer runs. -/
def hkCalEnded (k : Nat) (s : State) : State := ((s.set .hkCalState k 0).set .hkState k 0).markTick .xHkCalAt k

/-- The sequence that goes on, or starts, after a calibration. -/
def hkCalFollowed (k : Nat) (s : State) : State :=
  if s.flag .xHkSeqActive k then s.hkResume k
  else if s.flag .xHkHeld k || s.get .hkSeqTrigger k == 1 then (s.set .xHkHeld k 0).hkStart k
  else s

theorem hkCalDone_eq {m : HkCalReading} (h : s.get .hkState k = 3) :
    s.hkCalDone k m = (hkCalFollowed k (hkCalEnded k (hkCalJudged k m s))).hkBoundary k := if_neg (by simp [h])

theorem hkCalFollowed_get (h : r ∉ [Reg.xHkIndex, .xHkSeqActive, .hkState, .xHkAverage, .xHkShift, .xHkHeld]) :
    (hkCalFollowed k s).get r i = s.get r i := by
  unfold hkCalFollowed
  split
  · exact hkResume_get (.inr (by revert h; simp; tauto))
  · split
    · rw [hkStart_get (.inr (by revert h; simp; tauto)), get_set_reg _ _ (by revert h; simp)]
    · rfl

theorem hkCalEnded_get (h : r ∉ [Reg.hkState, .hkCalState, .xHkCalAt]) : (hkCalEnded k s).get r i = s.get r i := by
  simp only [List.mem_cons, List.not_mem_nil, or_false, not_or] at h
  unfold hkCalEnded State.markTick
  rw [get_set_reg _ _ h.2.2, get_set_reg _ _ h.1, get_set_reg _ _ h.2.1]

theorem hkCalEnded_reports : (hkCalEnded k s).get .hkCalState k = 0 ∧ (hkCalEnded k s).get .hkState k = 0 := by
  unfold hkCalEnded State.markTick
  constructor <;> simp (disch := decide) only [get_set_reg, get_set_same]

/-- Nothing that follows a calibration's end but a further one changes its state. -/
theorem hkBoundary_calState (h : s.flag .xHkCalWait k = false) : (s.hkBoundary k).get .hkCalState k = s.get .hkCalState k := by
  unfold State.hkBoundary
  split
  · rfl
  · rw [if_neg (by simp [h])]
    split
    · exact hkStartInjected_get (.inr (by decide))
    · rfl

/-- What the end of a calibration changes after its results are judged. -/
abbrev calEndRegs : List Reg := [.hkState, .hkCalState, .xHkCalWait, .xHkInjPending, .xHkInjInForce, .xHkAverage, .xHkShift,
  .xHkIndex, .xHkSeqActive, .xHkHeld, .xHkCalAt]

theorem hkCalDone_get {m : HkCalReading} (h : s.get .hkState k = 3) (hr : r ∉ calEndRegs) :
    (s.hkCalDone k m).get r i = (hkCalJudged k m s).get r i := by
  rw [hkCalDone_eq h, hkBoundary_get (.inr (by revert hr; simp; tauto)), hkCalFollowed_get (by revert hr; simp; tauto),
    hkCalEnded_get (by revert hr; simp; tauto)]

theorem hkCalJudged_get {m : HkCalReading} (he : Safety.eventSide r = false)
    (hr : r ∉ [Reg.hkCalOffset, .hkCalGain, .hkCalRefusals, .hkCalLastLimit]) : (hkCalJudged k m s).get r i = s.get r i := by
  simp only [List.mem_cons, List.not_mem_nil, or_false, not_or] at hr
  obtain ⟨h1, h2, h3, h4⟩ := hr
  unfold hkCalJudged
  split
  · rw [get_set_reg _ _ h2, get_set_reg _ _ h1]
  · rw [get_raise he, get_set_reg _ _ h4, get_bump_other (.inl h3)]

theorem hkCalJudged_accepted {m : HkCalReading} (h : hkBroken m = 0) : (hkCalJudged k m s).get .hkCalOffset k = m.offset
    ∧ (hkCalJudged k m s).get .hkCalGain k = m.gain
    ∧ (hkCalJudged k m s).get .hkCalRefusals k = s.get .hkCalRefusals k := by
  rw [hkCalJudged, if_pos h]
  refine ⟨?_, ?_, ?_⟩ <;> simp (disch := decide) only [get_set_reg, get_set_same]

theorem hkCalJudged_refused {m : HkCalReading} (h : hkBroken m ≠ 0) :
    Safety.countedBy s (hkCalJudged k m s) .hkCalRefusals k 1
    ∧ (hkCalJudged k m s).get .hkCalLastLimit k = (hkBroken m : Nat)
    ∧ Safety.raised s (hkCalJudged k m s) (evDev 131)
    ∧ (hkCalJudged k m s).get .hkCalOffset k = s.get .hkCalOffset k := by
  rw [hkCalJudged, if_neg h]
  refine ⟨?_, ?_, raised_raise ?_ (by decide), ?_⟩
  · rw [Safety.countedBy, get_raise rfl, get_set_reg _ _ (by decide), get_bump_same]
  · rw [get_raise rfl, get_set_same]
  · rw [get_set_reg _ _ (by decide), get_bump_other (.inl (by decide))]
  · rw [get_raise rfl, get_set_reg _ _ (by decide), get_bump_other (.inl (by decide))]

/-- With no further calibration asked for, the converter's calibration rests. -/
theorem hkCalDone_rests {m : HkCalReading} (h : s.get .hkState k = 3) (hw : s.flag .xHkCalWait k = false) :
    (s.hkCalDone k m).get .hkCalState k = 0 := by
  have wait : (hkCalFollowed k (hkCalEnded k (hkCalJudged k m s))).flag .xHkCalWait k = false := by
    rw [State.flag, hkCalFollowed_get (by decide), hkCalEnded_get (by decide), hkCalJudged_get rfl (by decide), ← State.flag, hw]
  rw [hkCalDone_eq h, hkBoundary_calState wait, hkCalFollowed_get (by decide), hkCalEnded_reports.1]

/-- The paused sequence goes on where nothing else waits. -/
theorem hkCalDone_resumes {m : HkCalReading} (h : s.get .hkState k = 3) (hb : hkBroken m = 0)
    (hw : s.flag .xHkCalWait k = false) (hi : s.flag .xHkInjPending k = false) (ha : s.flag .xHkSeqActive k = true) :
    (s.hkCalDone k m).get .hkState k = 1 := by
  have kept : ∀ r, r ∉ calEndRegs ∨ r ∈ [Reg.xHkCalWait, .xHkInjPending, .xHkSeqActive] → r ∉ [Reg.hkCalOffset, .hkCalGain] →
      (hkCalEnded k (hkCalJudged k m s)).get r k = s.get r k := fun r h1 h2 => by
    rw [hkCalEnded_get (by revert h1; simp; grind), hkCalJudged, if_pos hb, get_set_reg _ _ (by revert h2; simp),
      get_set_reg _ _ (by revert h2; simp; tauto)]
  have act : (hkCalEnded k (hkCalJudged k m s)).flag .xHkSeqActive k = true := by
    rw [State.flag, kept _ (by decide) (by decide), ← State.flag, ha]
  have followed : hkCalFollowed k (hkCalEnded k (hkCalJudged k m s)) = (hkCalEnded k (hkCalJudged k m s)).hkResume k := if_pos act
  have flags : ∀ r, r ∈ [Reg.xHkCalWait, .xHkInjPending] → ((hkCalEnded k (hkCalJudged k m s)).hkResume k).flag r k = s.flag r k :=
    fun r hr => by
      rw [State.flag, hkResume_get (.inr (by revert hr; simp; grind)), kept _ (.inr (by revert hr; simp; tauto))
        (by revert hr; simp; grind), ← State.flag]
  have state : ((hkCalEnded k (hkCalJudged k m s)).hkResume k).get .hkState k = 1 := by
    rw [State.hkResume, if_pos act, hkLatch_get (.inr (by decide)), get_set_same]
  rw [hkCalDone_eq h, followed, State.hkBoundary, if_neg (by rw [state]; decide), if_neg (by rw [flags _ (by decide), hw]; decide),
    if_neg (by rw [flags _ (by decide), hi]; decide), state]

end Sys2Proof.Laws

namespace Sys2Proof

open Sys2Proof.Machine Sys2Proof.Laws

/-- Settles O58: what a conversion, a trigger, a calibration writes outlasts what follows it. -/
theorem housekeepingConvertsAndCalibrates : Obligations.HousekeepingConvertsAndCalibrates := by
  refine ⟨fun s k m hp hs => ?_, fun s k m h1 h2 => ?_, fun s cl k ha => ?_, fun s cl k ha => ?_,
    fun s cl k ha => ⟨fun hb => ?_, fun hb => ?_⟩, fun s k => ⟨fun hp h0 hb hu => ?_, fun h => ?_⟩,
    fun s k => ⟨fun hp h2 hw => ?_, fun hp h2 hw hi => ?_, fun h => ?_⟩, fun s k m hp hs => ?_⟩
  · intro ch v
    have he := live_running (f := fun s => s.hkConverted k m) hp
    have keeps : ∀ r j, r ∉ followRegs → (s.hkConverted k m).get r j = (hkTaken s k m).get r j := fun r j hr =>
      hkConverted_get hs hr
    refine ⟨_, he, fun hc => ?_, fun hc => ?_, fun hc => ?_, fun h2 hc => ?_, fun h1 ha => ?_⟩
    · obtain ⟨r1, r2, r3, r4, r5, -⟩ := hkTaken_input (m := m) k.isLt hc
      refine ⟨?_, ?_, ?_, ?_, fun h => ?_⟩
      · rw [keeps _ _ (by decide), r1]
      · rw [State.nat, keeps _ _ (by decide)]
        exact r2
      · rw [State.bit, State.nat, keeps _ _ (by decide)]
        exact r3
      · rw [State.bit, State.nat, keeps _ _ (by decide)]
        exact r4
      · rw [Safety.countedBy, keeps _ _ (by decide)]
        exact r5 h
    · have hw := hkTaken_word (m := m) (k := k) (s := s) (show 64 ≤ ch by omega)
      rw [if_pos hc] at hw
      rw [State.nat, keeps _ _ (by decide), ← State.nat, hw]
    · have hw := hkTaken_word (m := m) (k := k) (s := s) (show 64 ≤ ch by omega)
      rw [if_neg (by show ¬ch = 64; omega)] at hw
      rw [State.nat, keeps _ _ (by decide), ← State.nat, hw]
    · obtain ⟨-, -, -, -, -, r6⟩ := hkTaken_input (m := m) k.isLt hc
      rw [State.nat, keeps _ _ (by decide), ← State.nat]
      exact r6 h2
    · obtain ⟨same, blob⟩ := hkTaken_runs (m := m) ha h1
      obtain ⟨n1, n2⟩ := hkNext_sequence (s := hkTaken s k m) (n := k) (same.get.trans h1)
      have count : (hkTaken s k m).get .hkSeqCount k = s.get .hkSeqCount k := hkTaken_count
      rw [blob, same.nat, count] at n1
      rw [blob, same.nat] at n2
      refine ⟨fun hl => ?_, fun hl => ?_⟩
      · rw [hkConverted_eq hs, hkBoundary_get (.inr (by decide)), hkBoundary_get (.inr (by decide))]
        exact n1 hl
      · rw [hkConverted_eq hs, Safety.countedBy, hkBoundary_get (.inr (by decide)), n2 hl, State.nat, count, ← State.nat]
  · exact live_still (f := fun s => s.hkConverted k m) (if_pos ⟨h1, h2⟩)
  · have trig : (ready s cl).get .hkSeqTrigger k = s.get .hkSeqTrigger k := ready_get (by decide)
    have act : (ready s cl).flag .xHkSeqActive k = s.flag .xHkSeqActive k := ready_flag (by decide)
    have state : (ready s cl).get .hkState k = s.get .hkState k := ready_get (by decide)
    have held : (ready s cl).flag .xHkHeld k = s.flag .xHkHeld k := ready_flag (by decide)
    generalize hu : (if (ready s cl).get .hkSeqTrigger k = 0 then (ready s cl).hkSeqTrigger k State.raise else ready s cl) = u
    have eff : writeHkSeqStart k (ready s cl) = (u, accepted) := by rw [← hu]; rfl
    have out : u.out = (ready s cl).out := by
      rw [← hu]
      split
      · exact hkSeqTrigger_out
      · rfl
    obtain ⟨a, he, hack⟩ := write_acked (c := .hkSeqStart cl k) ha rfl eff (out_of_ready out)
    refine ⟨_, he, hack, fun h => ?_, fun h0 h1 => ?_, fun h0 h1 h3 => ?_, fun h0 h1 h3 hh => ?_,
      requestChanges_serving (apart_iff.2 ?_)⟩
    · rw [reply_get (by decide) (by decide), reply_get (by decide) (by decide), ← hu, if_neg (by rwa [trig]),
        ready_get (by decide), ready_get (by decide)]
      exact ⟨rfl, rfl⟩
    · have hm : u = seqMissed k (ready s cl) := by
        rw [← hu, if_pos (trig.trans h0), State.hkSeqTrigger, if_pos (act.trans h1)]
        rfl
      rw [hm]
      exact countedBy_reply (by decide) (by decide) (by decide) (seqMissed_count (trig.trans h0))
    · have hm : u = (ready s cl).hkStart k := by
        rw [← hu, if_pos (trig.trans h0), State.hkSeqTrigger, if_neg (by rw [act, h1]; decide), if_neg (by rwa [state])]
      obtain ⟨r1, r2, r3, r4⟩ := hkStart_reports (s := ready s cl) (k := k)
      rw [hm, reply_get (by decide) (by decide), reply_get (by decide) (by decide), reply_get (by decide) (by decide),
        reply_blob (by decide) (by decide)]
      refine ⟨r1, r2, r3.trans ?_, fun h => r4 (state.trans h)⟩
      rw [State.hkEntries, ready_blob, ← State.hkEntries]
    · have hm : u = (ready s cl).set .xHkHeld k 1 := by
        rw [← hu, if_pos (trig.trans h0), State.hkSeqTrigger, if_neg (by rw [act, h1]; decide), if_pos (state.trans h3),
          if_neg (by rw [held, hh]; decide)]
      rw [hm, reply_get (by decide) (by decide), reply_get (by decide) (by decide), get_set_same, get_set_reg _ _ (by decide),
        ready_get (by decide)]
      exact ⟨rfl, rfl⟩
    · rw [← hu]
      exact apart_ite (apart_hkSeqTrigger (wide_requests _) (Apart.refl _) fun t e d ht => apart_raise (wide_requests _) ht)
        (Apart.refl _)
  · have trig : (ready s cl).get .hkInjTrigger k = s.get .hkInjTrigger k := ready_get (by decide)
    have pend : (ready s cl).flag .xHkInjPending k = s.flag .xHkInjPending k := ready_flag (by decide)
    have state : (ready s cl).get .hkState k = s.get .hkState k := ready_get (by decide)
    generalize hu : (if (ready s cl).get .hkInjTrigger k = 0 then (ready s cl).hkInjTrigger k State.raise else ready s cl) = u
    have eff : writeHkInjStart k (ready s cl) = (u, accepted) := by rw [← hu]; rfl
    have out : u.out = (ready s cl).out := by
      rw [← hu]
      split
      · exact hkInjTrigger_out
      · rfl
    obtain ⟨a, he, hack⟩ := write_acked (c := .hkInjectStart cl k) ha rfl eff (out_of_ready out)
    refine ⟨_, he, hack, fun h0 hi hs => ?_, fun h0 hi hs => ?_, fun h0 hi => ?_, requestChanges_serving (apart_iff.2 ?_)⟩
    · have hm : u = ((ready s cl).set .xHkInjPending k 1).hkStartInjected k := by
        rw [← hu, if_pos (trig.trans h0), State.hkInjTrigger, if_neg (by simp [pend, hi, state, hs])]
        exact if_pos ((get_set_reg _ _ (by decide)).trans (state.trans hs))
      obtain ⟨r1, r2, r3⟩ := hkStartInjected_reports (s := (ready s cl).set .xHkInjPending k 1) (k := k)
      rw [hm, reply_get (by decide) (by decide), reply_get (by decide) (by decide), reply_get (by decide) (by decide), r1, r2, r3,
        get_set_reg _ _ (by decide), ready_get (by decide)]
      exact ⟨rfl, rfl, rfl⟩
    · have hm : u = (ready s cl).set .xHkInjPending k 1 := by
        rw [← hu, if_pos (trig.trans h0), State.hkInjTrigger,
          if_neg (by rw [pend, hi, state]; rcases hs with hs | hs <;> simp [hs])]
        refine if_neg fun h => ?_
        rw [get_set_reg _ _ (by decide), state] at h
        omega
      rw [hm, reply_get (by decide) (by decide), reply_get (by decide) (by decide), get_set_same, get_set_reg _ _ (by decide),
        state]
      exact ⟨rfl, rfl⟩
    · have hm : u = injMissed k (ready s cl) := by
        rw [← hu, if_pos (trig.trans h0), State.hkInjTrigger, if_pos (.inl (pend.trans hi))]
        rfl
      rw [hm]
      exact countedBy_reply (by decide) (by decide) (by decide) (injMissed_count (trig.trans h0))
    · rw [← hu]
      exact apart_ite (apart_hkInjTrigger (wide_requests _) (Apart.refl _) fun t e d ht => apart_raise (wide_requests _) ht)
        (Apart.refl _)
  · have busy : (ready s cl).hkCalBusy k = true := by
      rw [State.hkCalBusy, ready_get (by decide), ready_flag (by decide), ← State.hkCalBusy, hb]
    obtain ⟨a, he, hab⟩ := write_aborted (c := .hkCalRequest cl k) ha rfl (if_pos busy) (out_of_ready rfl)
    exact ⟨_, he, hab, requestChanges_serving (apart_iff.2 (Apart.refl _))⟩
  · have busy : (ready s cl).hkCalBusy k = false := by
      rw [State.hkCalBusy, ready_get (by decide), ready_flag (by decide), ← State.hkCalBusy, hb]
    obtain ⟨a, he, hack⟩ := write_acked (c := .hkCalRequest cl k) ha rfl (if_neg (by rw [busy]; decide))
      (out_of_ready hkCalAsk_out)
    obtain ⟨r1, r2, r3⟩ := hkCalAsk_reports (s := ready s cl) (k := k)
    rw [ready_flag (by decide), ready_get (by decide)] at r1 r2 r3
    refine ⟨_, he, hack, fun h => ?_, fun h h0 => ?_, fun h h1 => ?_,
      requestChanges_serving (apart_iff.2 (apart_hkCalAsk (Apart.refl _) (by decide)))⟩
    · rw [reply_get (by decide) (by decide), r1 h]
    · rw [reply_get (by decide) (by decide), reply_get (by decide) (by decide)]
      exact r2 h h0
    · rw [reply_get (by decide) (by decide), r3 h h1]
  · have he : exec (.hkCalAuto k) s = .next (s.hkCalAsk k) := by
      refine (live_running (f := fun s => if s.get .hkCalInterval k.val = 0 || s.hkCalBusy k
        || !s.usSince .xHkCalAt k (1000000 * s.get .hkCalInterval k.val) then s else s.hkCalAsk k) hp).trans ?_
      rw [if_neg (by simp [h0, hb, hu])]
    obtain ⟨r1, r2, -⟩ := hkCalAsk_reports (s := s) (k := k)
    exact ⟨_, he, r1, r2, apart_iff.2 (apart_hkCalAsk (Apart.refl s) (by decide))⟩
  · refine live_still (f := fun s => if s.get .hkCalInterval k.val = 0 || s.hkCalBusy k
      || !s.usSince .xHkCalAt k (1000000 * s.get .hkCalInterval k.val) then s else s.hkCalAsk k) (if_pos ?_)
    rcases h with h | h | h <;> simp [h]
  · have he := live_running (f := fun s => s.hkBoundary k) hp
    have hn : s.hkBoundary k = s.hkCalStart k := by
      unfold State.hkBoundary
      rw [if_neg (by omega), if_pos hw]
    rw [hn] at he
    exact ⟨_, he, hkCalStart_reports.1, hkCalStart_reports.2.1, hkCalStart_reports.2.2,
      apart_iff.2 (apart_hkCalStart (Apart.refl s) (by decide))⟩
  · have he := live_running (f := fun s => s.hkBoundary k) hp
    have hn : s.hkBoundary k = s.hkStartInjected k := by
      unfold State.hkBoundary
      rw [if_neg (by omega), if_neg (by simp [hw]), if_pos hi]
    rw [hn] at he
    exact ⟨_, he, hkStartInjected_reports⟩
  · exact live_still (f := fun s => s.hkBoundary k) (if_pos h)
  · have he := live_running (f := fun s => s.hkCalDone k m) hp
    refine ⟨_, he, fun hb => ?_, fun hb => ?_, hkCalDone_rests hs, hkCalDone_resumes hs⟩
    · rw [hkCalDone_get hs (by decide), hkCalDone_get hs (by decide), hkCalDone_get hs (by decide)]
      exact hkCalJudged_accepted hb
    · obtain ⟨r1, r2, r3, r4⟩ := hkCalJudged_refused (s := s) (k := k) hb
      rw [Safety.countedBy, hkCalDone_get hs (by decide), hkCalDone_get hs (by decide), hkCalDone_get hs (by decide)]
      exact ⟨r1, r2, raised_of_count (hkCalDone_get hs (by decide)) r3, r4⟩

end Sys2Proof

/-! # Subscribers (R350) -/

namespace Sys2Proof.Laws

set_option Elab.async false

open Sys2Proof.Machine

variable {s₀ s t u : State} {cl : Client} {c : Instr} {r : Reg} {i n e k d : Nat} {v : Int} {L : List Reg}
  {K : Reg → Bool}

theorem ready_subscribers : (ready s cl).subscribers = s.subscribers := by
  obtain ⟨a, w, q, l, h⟩ := ready_form (s := s) (cl := cl)
  rw [h]

theorem ready_freeSlot : (ready s cl).freeSlot = s.freeSlot := by rw [State.freeSlot, ready_subscribers, ← State.freeSlot]

/-- A request of a fresh client that is accepted, and leaves the registers. -/
theorem serve_reports {addr : Nat × Nat} {act : State → State × Answer} {p : List Byte} (h : Safety.fresh s cl)
    (ha : act (ready s cl) = (u, .ack p)) (ho : u.out = (ready s cl).out) (hu : Apart (fun _ => false) (ready s cl) u) :
    Safety.replied s (s.serve cl addr act) cl (.ack p) ∧ (s.serve cl addr act).subscribers = u.subscribers
      ∧ Safety.requestChanges [] s (s.serve cl addr act) := by
  rw [serve_acked h ha]
  exact ⟨replied_reply (out_of_ready ho), reply_subscribers,
    requestChanges_serving (apart_iff.2 (hu.mono fun _ _ => rfl))⟩

/-! ## The subscriber of a slot -/

theorem setSubscriber_find {x y : Subscriber} (h : s.subscribers.find? (fun z => z.slot == n) = some y) (hx : x.slot = n) :
    (s.setSubscriber x).subscribers.find? (fun z => z.slot == n) = some x := by
  have hm := List.mem_of_find?_eq_some h
  have hn : y.slot = n := by simpa using List.find?_some h
  show (s.subscribers.map fun z => if z.slot = x.slot then x else z).find? (fun z => z.slot == n) = some x
  generalize s.subscribers = l at h hm
  induction l with
  | nil => cases hm
  | cons z l ih =>
    by_cases hz : z.slot = n
    · simp [hz, hx]
    · rw [List.find?_cons_of_neg (by simpa using hz)] at h
      rw [List.map_cons, if_neg (by rwa [hx]), List.find?_cons_of_neg (by simpa using hz)]
      exact ih h (List.mem_of_find?_eq_some h)

theorem sendEvent_sent {x : Subscriber} {a : Awaiting} : (s.sendEvent x a).out
    = s.out ++ [.event x.port x.mac x.fore a.seq a.records (messageFrame x.mac (s.station x.fore) 0x08 a.seq
      (leBytes 1 a.records.length ++ [0] ++ a.records.flatMap EventRec.bytes))] := bump_out

theorem sendEvent_subscribers {x : Subscriber} {a : Awaiting} : (s.sendEvent x a).subscribers = s.subscribers := by
  have h := bump_records (s := s.emit (.event x.port x.mac x.fore a.seq a.records (messageFrame x.mac (s.station x.fore) 0x08
    a.seq (leBytes 1 a.records.length ++ [0] ++ a.records.flatMap EventRec.bytes)))) (r := .mgtFramesTx) (i := x.port.val) (n := 1)
  exact congrArg (fun p => p.2.2) h

/-- An EVENT of a slot's subscriber, sent with what its slot holds from then on. -/
theorem sendEvent_reports {x y : Subscriber} {a : Awaiting} (h : s.subscribers.find? (fun z => z.slot == n) = some y)
    (hx : x.slot = n) :
    Safety.sent s ((s.setSubscriber x).sendEvent x a) (.event x.port x.mac x.fore a.seq a.records
        (messageFrame x.mac (s.station x.fore) 0x08 a.seq
          (leBytes 1 a.records.length ++ [0] ++ a.records.flatMap EventRec.bytes)))
      ∧ ((s.setSubscriber x).sendEvent x a).subscribers.find? (fun z => z.slot == n) = some x
      ∧ Safety.changesOnly [.mgtFramesTx] s ((s.setSubscriber x).sendEvent x a) := by
  refine ⟨⟨_, sendEvent_sent, List.mem_singleton.2 rfl⟩, ?_, apart_iff.2 (apart_bump (((Apart.refl s).other rfl).other rfl))⟩
  rw [sendEvent_subscribers, setSubscriber_find h hx]

/-- The scope that says of subscribers alone that they stay. -/
abbrev subscribersScope : Scope := fun p => match p with
  | .subscribers => true
  | _ => false

theorem raise_slots {detail : List Item} :
    (s.raise e detail).subscribers.map Subscriber.slot = s.subscribers.map Subscriber.slot :=
  have := fact_false
  (kept_raise (κ := subscribersScope) (Kept.refl s)).sameSubscribers rfl

/-- A subscriber's slot left free, and the lapse counted and reported. -/
def lapsed (n : Nat) (s : State) : State :=
  (({ s with subscribers := s.subscribers.filter fun x => x.slot != n } : State).bump .bdapLapses 0).raise (evDev 112) []

theorem lapsed_slots : n ∉ (lapsed n s).subscribers.map Subscriber.slot := by
  have h := bump_records (s := { s with subscribers := s.subscribers.filter fun x => x.slot != n }) (r := .bdapLapses) (i := 0)
    (n := 1)
  rw [lapsed, raise_slots, show (({ s with subscribers := s.subscribers.filter fun x => x.slot != n } : State).bump
    .bdapLapses 0).subscribers = s.subscribers.filter fun x => x.slot != n from congrArg (fun p => p.2.2) h]
  simp

theorem lapsed_reports : Safety.countedBy s (lapsed n s) .bdapLapses 0 1 ∧ Safety.raised s (lapsed n s) (evDev 112)
    ∧ Safety.eventChanges [.bdapLapses] s (lapsed n s) := by
  have hg : ∀ r i, ({ s with subscribers := s.subscribers.filter fun x => x.slot != n } : State).get r i = s.get r i :=
    fun _ _ => rfl
  have ha : Apart (fun r => Safety.eventSide r || [Reg.bdapLapses].contains r) s
      { s with subscribers := s.subscribers.filter fun x => x.slot != n } := (Apart.refl s).other rfl
  unfold lapsed
  generalize ({ s with subscribers := s.subscribers.filter fun x => x.slot != n } : State) = y at *
  refine ⟨?_, raised_raise ?_ (by decide), apart_iff.2 (apart_raise (wide_events _) (apart_bump ha))⟩
  · rw [Safety.countedBy, get_raise rfl, get_bump_same, State.nat, hg, ← State.nat]
  · rw [get_bump_other (.inl (by decide)), hg]

theorem hear_subscribers {m : Nat} : (s.hear m).subscribers = s.subscribers := rfl

end Sys2Proof.Laws

namespace Sys2Proof

open Sys2Proof.Machine Sys2Proof.Laws

/-- Settles O52: a slot is taken, freed, served and lapses. -/
theorem subscribersAreServedAndLapse : Obligations.SubscribersAreServedAndLapse := by
  refine ⟨fun s cl mask hf hu => ⟨fun n hn => ?_, fun hn => ?_⟩, fun s cl u hf hu => ?_, fun s n u hp hu ha hq hg hv => ?_,
    fun s n u a hp hu ha => ⟨fun h => ?_, fun h => ?_⟩, fun s cl u a ha hu hw => ⟨fun h => ?_, fun h => ?_⟩⟩
  · have none : (ready s cl).subscribers.find? (fun u => u.is cl.mac cl.fore) = none := by
      rw [ready_subscribers]
      exact List.find?_eq_none.2 fun u h => by simp [hu u h]
    have eff : (ready s cl).subscribe cl mask = ({ ready s cl with subscribers := (ready s cl).subscribers
        ++ [⟨n, cl.mac, cl.fore, cl.port, mask, [], 0, 0, 0, Option.none⟩] }, .ack (leBytes 1 n)) := by
      unfold State.subscribe
      rw [none]
      dsimp only
      rw [ready_freeSlot, hn]
    obtain ⟨h1, h2, h3⟩ := serve_reports (addr := (0, 0)) (act := fun s => s.subscribe cl mask) hf eff rfl
      ((Apart.refl _).other rfl)
    exact ⟨_, rfl, h1, h2.trans (by rw [ready_subscribers]), h3⟩
  · have none : (ready s cl).subscribers.find? (fun u => u.is cl.mac cl.fore) = none := by
      rw [ready_subscribers]
      exact List.find?_eq_none.2 fun u h => by simp [hu u h]
    have eff : (ready s cl).subscribe cl mask = (ready s cl, refusedWith 0x10) := by
      unfold State.subscribe
      rw [none]
      dsimp only
      rw [ready_freeSlot, hn]
    have he : exec (.bdapSubscribe cl mask) s = .next ((ready s cl).reply cl (.abort 0 0 0x10 0 0)) :=
      congrArg Host.Outcome.next (serve_aborted hf eff)
    exact ⟨_, he, ⟨_, _, _, _, replied_reply (out_of_ready rfl)⟩, reply_subscribers.trans ready_subscribers,
      requestChanges_serving (apart_iff.2 (Apart.refl _))⟩
  · have eff : (match (ready s cl).subscribers.find? fun u => u.is cl.mac cl.fore with
        | some u => ({ ready s cl with subscribers := (ready s cl).subscribers.filter fun x => x.slot != u.slot },
            Answer.ack (leBytes 1 u.slot))
        | none => (ready s cl, .ack [0xFF])) = ({ ready s cl with subscribers := (ready s cl).subscribers.filter fun x =>
          x.slot != u.slot }, .ack (leBytes 1 u.slot)) := by
      rw [ready_subscribers, hu]
    obtain ⟨h1, h2, h3⟩ := serve_reports (addr := (0, 0)) (act := fun s =>
      match s.subscribers.find? fun u => u.is cl.mac cl.fore with
      | some u => ({ s with subscribers := s.subscribers.filter fun x => x.slot != u.slot }, .ack (leBytes 1 u.slot))
      | none => (s, .ack [0xFF])) hf eff rfl ((Apart.refl _).other rfl)
    exact ⟨_, rfl, h1, h2.trans (by rw [ready_subscribers]), h3⟩
  · intro l
    have hn : u.slot = n := by simpa using List.find?_some hu
    obtain ⟨slot, mac, fore, port, mask, queue, gapSeq, gapCount, nextSeq, awaiting⟩ := u
    obtain rfl : fore = false := hv
    obtain rfl : gapCount = 0 := hg
    have seen : ∀ q : List EventRec, q.filterMap (fun r => r.seen false) = q := fun q => List.filterMap_some
    have eff : s.eventSend n = (s.setSubscriber ⟨slot, mac, false, port, mask, queue.drop 43, 0, 0, (nextSeq + 1) % 65536,
        some ⟨nextSeq, l, 1⟩⟩).sendEvent ⟨slot, mac, false, port, mask, queue.drop 43, 0, 0, (nextSeq + 1) % 65536,
        some ⟨nextSeq, l, 1⟩⟩ ⟨nextSeq, l, 1⟩ := by
      unfold State.eventSend
      rw [hu]
      dsimp only
      rw [if_neg (by simp_all), State.gapRecord, if_pos rfl]
      simp only [seen]
      rfl
    obtain ⟨h1, h2, h3⟩ := sendEvent_reports (a := ⟨nextSeq, l, 1⟩) (x := ⟨slot, mac, false, port, mask, queue.drop 43, 0, 0,
      (nextSeq + 1) % 65536, some ⟨nextSeq, l, 1⟩⟩) hu hn
    exact ⟨_, (live_running (f := fun s => s.eventSend n) hp).trans (congrArg _ eff), h1, h2, h3⟩
  · have hn : u.slot = n := by simpa using List.find?_some hu
    have eff : s.eventResend n = (s.setSubscriber { u with awaiting := some { a with tries := a.tries + 1 } }).sendEvent
        { u with awaiting := some { a with tries := a.tries + 1 } } a := by
      unfold State.eventResend
      rw [hu]
      dsimp only
      rw [ha]
      dsimp only
      rw [if_pos h]
      rfl
    obtain ⟨h1, h2, h3⟩ := sendEvent_reports (a := a) (x := { u with awaiting := some { a with tries := a.tries + 1 } }) hu hn
    exact ⟨_, (live_running (f := fun s => s.eventResend n) hp).trans (congrArg _ eff), h1, h2, h3⟩
  · have eff : s.eventResend n = lapsed n s := by
      unfold State.eventResend
      rw [hu]
      dsimp only
      rw [ha]
      dsimp only
      rw [if_neg (by omega)]
      rfl
    refine ⟨_, (live_running (f := fun s => s.eventResend n) hp).trans (congrArg _ eff), ?_, lapsed_reports⟩
    refine List.find?_eq_none.2 fun x hx => ?_
    have := lapsed_slots (n := n) (s := s)
    simp only [List.mem_map, not_exists, not_and] at this
    simpa using this x hx
  · have he : exec (.eventAckReceive cl) s = .next ((s.hear cl.mac).setSubscriber { u with awaiting := none }) := by
      show Host.Outcome.next (if s.answers cl then (s.hear cl.mac).eventAck cl else s) = _
      rw [if_pos ha, State.eventAck, hear_subscribers, hu]
      dsimp only
      rw [hw]
      dsimp only
      rw [if_pos h]
    obtain ⟨y, hy⟩ : ∃ y, (s.hear cl.mac).subscribers.find? (fun z => z.slot == u.slot) = some y :=
      Option.isSome_iff_exists.1 (List.find?_isSome.2 ⟨u, List.mem_of_find?_eq_some hu, by simp⟩)
    exact ⟨_, he, setSubscriber_find hy rfl, apart_iff.2 (((Apart.refl s).other rfl).other rfl)⟩
  · have he : exec (.eventAckReceive cl) s = .next ((s.hear cl.mac).bump .bdapDiscarded 0) := by
      show Host.Outcome.next (if s.answers cl then (s.hear cl.mac).eventAck cl else s) = _
      rw [if_pos ha, State.eventAck, hear_subscribers, hu]
      dsimp only
      rw [hw]
      dsimp only
      rw [if_neg h]
    have hr := bump_records (s := s.hear cl.mac) (r := .bdapDiscarded) (i := 0) (n := 1)
    have hg : (s.hear cl.mac).nat .bdapDiscarded 0 = s.nat .bdapDiscarded 0 := rfl
    have ha : Apart [Reg.bdapDiscarded].contains s (s.hear cl.mac) := (Apart.refl s).other rfl
    refine ⟨_, he, congrArg (fun p => p.2.2) hr, ?_, apart_iff.2 (apart_bump ha)⟩
    rw [Safety.countedBy, get_bump_same, hg]

end Sys2Proof

/-! # Management frames and PLCA (R342 to R346) -/

namespace Sys2Proof.Laws

set_option Elab.async false

open Sys2Proof.Machine

variable {s₀ s t u : State} {cl : Client} {c : Instr} {r : Reg} {i n e k d : Nat} {v : Int} {L : List Reg}
  {K : Reg → Bool}

/-! ## A frame at its station -/

/-- A frame at a station noted: the polarity of its port, and its count. -/
def frameNoted (port : Fin 2) (inverted : Bool) (s : State) : State :=
  (s.setFlag .mgtPolarityInverted port inverted).bump .mgtFramesRx port

section

variable {port : Fin 2} {inverted fore : Bool} {f : List Byte} {body : ReqBody}

theorem frameNoted_get (h1 : r ≠ .mgtPolarityInverted) (h2 : r ≠ .mgtFramesRx) :
    (frameNoted port inverted s).get r i = s.get r i := by
  rw [frameNoted, get_bump_other (.inl h2)]
  exact get_set_reg _ _ h1

theorem frameNoted_counted : Safety.countedBy s (frameNoted port inverted s) .mgtFramesRx port 1 := by
  rw [Safety.countedBy, frameNoted, get_bump_same, State.setFlag, State.nat, get_set_reg _ _ (by decide), ← State.nat]

theorem frameNoted_apart : Apart [Reg.mgtPolarityInverted, .mgtFramesRx].contains s (frameNoted port inverted s) :=
  apart_bump (apart_set (Apart.refl s))

/-- Beside registers, a frame that is noted changes nothing. -/
theorem frameNoted_form : ∃ a w, frameNoted port inverted s = { s with regs := a, wraps := w } := by
  obtain ⟨a, w, h⟩ := bump_form (s := s.setFlag .mgtPolarityInverted port inverted) .mgtFramesRx port 1
  exact ⟨a, w, h⟩

theorem frameNoted_requests : (frameNoted port inverted s).requests = s.requests := by
  obtain ⟨a, w, h⟩ := frameNoted_form (port := port) (inverted := inverted) (s := s)
  rw [h]

theorem frameNoted_out : (frameNoted port inverted s).out = s.out := by
  obtain ⟨a, w, h⟩ := frameNoted_form (port := port) (inverted := inverted) (s := s)
  rw [h]

theorem frameNoted_view : (frameNoted port inverted s).view cl = s.view cl := by
  obtain ⟨a, w, h⟩ := frameNoted_form (port := port) (inverted := inverted) (s := s)
  rw [h]
  rfl

theorem clientClass_congr {m : Nat} (h : ∀ r i, r ∈ [Reg.registrationRow, .bdapUnregisteredClass] → t.get r i = s.get r i) :
    t.clientClass m = s.clientClass m := by
  have hn : ∀ i, t.nat .registrationRow i = s.nat .registrationRow i := fun i => congrArg Int.toNat (h _ _ (by decide))
  have hu : t.nat .bdapUnregisteredClass 0 = s.nat .bdapUnregisteredClass 0 := congrArg Int.toNat (h _ _ (by decide))
  unfold State.clientClass State.registrationOf State.anyRegistration
  simp only [hn, hu]

theorem stationsFor_polarity : (s.setFlag .mgtPolarityInverted port inverted).stationsFor f = s.stationsFor f := by
  unfold State.stationsFor State.nat State.flag State.setFlag
  simp (disch := decide) only [get_set_reg]

theorem frameIn_elsewhere (h : s.stationsFor f = []) :
    s.frameIn port f inverted = s.setFlag .mgtPolarityInverted port inverted := by
  unfold State.frameIn
  dsimp only
  rw [stationsFor_polarity, h]
  rfl

/-- A frame with a request at one station: the request arrives. -/
theorem frameIn_request (h : s.stationsFor f = [fore]) (hl : 22 ≤ f.length) (ho : leNat ((f.drop 15).take 1) < 8) :
    s.frameIn port f inverted = (frameNoted port inverted s).arrive
      ⟨macOf (f.drop 6), port, fore, leNat ((f.drop 16).take 2)⟩ (parseMessage f.length (f.drop 14)) := by
  have one : ∀ (x : State) (g : State → Bool → State), x.each [fore] g = g x fore := fun _ _ => rfl
  unfold State.frameIn
  dsimp only
  rw [stationsFor_polarity, h, if_neg (by simp), one, State.message, if_neg (by rw [List.length_drop]; omega)]
  simp only [List.drop_drop, Nat.reduceAdd]
  rw [if_neg (by omega), if_neg (by omega)]
  rfl

/-! ## A request that arrives -/

theorem hear_form {m : Nat} : ∃ l, s.hear m = { s with sources := l } := ⟨_, rfl⟩

/-- A request taken, its source heard. -/
def arrived (cl : Client) (s : State) : State := (s.hear cl.mac).take cl

theorem arrived_form : ∃ a w l, arrived cl s = { s with regs := a, wraps := w, sources := l } := by
  unfold arrived State.take
  obtain ⟨a, w, h⟩ := bump_form (s := (s.hear cl.mac).setView cl _) .bdapRequests 0 1
  rw [h]
  exact ⟨_, _, _, rfl⟩

theorem arrived_requests : (arrived cl s).requests = s.requests := by
  obtain ⟨a, w, l, h⟩ := arrived_form (cl := cl) (s := s)
  rw [h]

theorem arrived_out : (arrived cl s).out = s.out := by
  obtain ⟨a, w, l, h⟩ := arrived_form (cl := cl) (s := s)
  rw [h]

theorem arrived_apart : Apart [Reg.bdapRequests].contains s (arrived cl s) := by
  unfold arrived State.take
  exact apart_bump (((Apart.refl s).other rfl).other rfl)

theorem arrived_counted : Safety.countedBy s (arrived cl s) .bdapRequests 0 1 := by
  unfold arrived State.take
  rw [Safety.countedBy, get_bump_same]
  rfl

variable (hc : s.clientClass cl.mac ≠ 3) (hv : (s.view cl).recent.find? (fun x => x.seq == cl.seq) = none)
include hc hv

theorem arrive_new : s.arrive cl body =
    if 32 ≤ s.requests.length then (s.hear cl.mac).bump .bdapDiscarded 0
    else if body = .malformed ∧ s.requests = [] then (arrived cl s).reply cl (.abort 0 0 0x0F 0 0)
    else { arrived cl s with requests := (arrived cl s).requests ++ [⟨cl, body⟩] } := by
  have hc' : ¬(s.hear cl.mac).clientClass cl.mac = 3 := hc
  unfold State.arrive
  dsimp only
  rw [if_neg hc', hear_view, hv]
  rfl

theorem arrive_queued (h : s.requests.length < 32) (hb : ¬(body = .malformed ∧ s.requests = [])) :
    (s.arrive cl body).requests = s.requests ++ [⟨cl, body⟩] ∧ (s.arrive cl body).out = s.out
      ∧ Safety.countedBy s (s.arrive cl body) .bdapRequests 0 1 ∧ Apart [Reg.bdapRequests].contains s (s.arrive cl body) := by
  rw [arrive_new hc hv, if_neg (by omega), if_neg hb]
  have hr := arrived_requests (cl := cl) (s := s)
  have ho := arrived_out (cl := cl) (s := s)
  have hn := arrived_counted (cl := cl) (s := s)
  have ha := arrived_apart (cl := cl) (s := s)
  generalize arrived cl s = x at *
  exact ⟨by rw [← hr], ho, hn, ha.other rfl⟩

theorem arrive_malformed (h : s.requests = []) :
    (s.arrive cl .malformed).requests = s.requests ∧ Safety.replied s (s.arrive cl .malformed) cl (.abort 0 0 0x0F 0 0) := by
  rw [arrive_new hc hv, if_neg (by rw [h]; decide), if_pos ⟨rfl, h⟩]
  obtain ⟨b, w, l, o, hf⟩ := reply_form (s := arrived cl s) (cl := cl) (.abort 0 0 0x0F 0 0)
  refine ⟨?_, replied_reply (by rw [arrived_out])⟩
  rw [hf]
  exact arrived_requests

theorem arrive_full (h : 32 ≤ s.requests.length) :
    (s.arrive cl body).requests = s.requests ∧ (s.arrive cl body).out = s.out
      ∧ Safety.countedBy s (s.arrive cl body) .bdapDiscarded 0 1
      ∧ Apart [Reg.bdapDiscarded].contains s (s.arrive cl body) := by
  rw [arrive_new hc hv, if_pos h]
  have ha : Apart [Reg.bdapDiscarded].contains s ((s.hear cl.mac).bump .bdapDiscarded 0) := apart_bump ((Apart.refl s).other rfl)
  have hn : Safety.countedBy s ((s.hear cl.mac).bump .bdapDiscarded 0) .bdapDiscarded 0 1 := by
    rw [Safety.countedBy, get_bump_same]
    rfl
  obtain ⟨a, w, hf⟩ := bump_form (s := s.hear cl.mac) .bdapDiscarded 0 1
  refine ⟨?_, bump_out, hn, ha⟩
  rw [hf]
  rfl

end

end Sys2Proof.Laws

namespace Sys2Proof

open Sys2Proof.Machine Sys2Proof.Laws

/-- Settles O53: a frame is noted, its request waits, is refused or discarded; a port's status is kept by its settings. -/
theorem managementFramesAreTakenOrDiscarded : Obligations.ManagementFramesAreTakenOrDiscarded := by
  refine ⟨fun s port f inverted hp hs => ?_, fun s port f inverted fore hp hs hl ho => ?_, fun s port status hp => ?_⟩
  · refine ⟨_, (live_running (f := fun s => s.frameIn port f inverted) hp).trans (congrArg _ (frameIn_elsewhere hs)), ?_, rfl,
      apart_iff.2 (apart_set (Apart.refl s))⟩
    rw [State.setFlag, get_set_same]
  · intro cl body hc hv
    have he := (live_running (f := fun s => s.frameIn port f inverted) hp).trans
      (congrArg _ (frameIn_request (port := port) (inverted := inverted) hs hl ho))
    have hc' : (frameNoted port inverted s).clientClass cl.mac ≠ 3 := by
      rwa [clientClass_congr fun r i hr => frameNoted_get (by rintro rfl; revert hr; decide) (by rintro rfl; revert hr; decide)]
    have hv' : ((frameNoted port inverted s).view cl).recent.find? (fun x => x.seq == cl.seq) = none := by
      rw [frameNoted_view, hv]
    have requests := frameNoted_requests (port := port) (inverted := inverted) (s := s)
    have out := frameNoted_out (port := port) (inverted := inverted) (s := s)
    have counted := frameNoted_counted (port := port) (inverted := inverted) (s := s)
    have noted := frameNoted_apart (port := port) (inverted := inverted) (s := s)
    have same : ∀ r, r ∈ [Reg.bdapRequests, .bdapDiscarded] → (frameNoted port inverted s).nat r 0 = s.nat r 0 := fun r hr =>
      congrArg Int.toNat (frameNoted_get (by rintro rfl; revert hr; decide) (by rintro rfl; revert hr; decide))
    refine ⟨fun hr hb => ?_, fun hr hq hb => ?_, fun hr hb => ?_, fun hr => ?_⟩
    · obtain ⟨h1, h2, h3, h4⟩ := arrive_queued (body := body) hc' hv' (by rwa [requests]) fun h => hb h.1
      refine ⟨_, he, h1.trans (by rw [requests]), h2.trans out, ?_, ?_,
        apart_iff.2 ((noted.mono fun r hr => ?_).trans (h4.mono fun r hr => ?_))⟩
      · rw [Safety.countedBy, ← same _ (by decide)]
        exact h3
      · exact (h4.regs _ _ rfl).trans counted
      · simp_all
      · simp_all
    · obtain ⟨h1, h2, h3, -⟩ := arrive_queued (body := body) hc' hv' (by rwa [requests]) fun h => hq (requests ▸ h.2)
      refine ⟨_, he, h1.trans (by rw [requests]), h2.trans out, ?_⟩
      rw [Safety.countedBy, ← same _ (by decide)]
      exact h3
    · obtain ⟨h1, h2⟩ := arrive_malformed hc' hv' (requests.trans hr)
      refine ⟨_, he, ?_, ?_⟩
      · change ((frameNoted port inverted s).arrive cl body).requests = s.requests
        rw [hb, h1, requests]
      · change Safety.replied s ((frameNoted port inverted s).arrive cl body) cl _
        rw [hb]
        obtain ⟨l, station, h3, h4⟩ := h2
        exact ⟨l, station, by rw [h3, out], h4⟩
    · obtain ⟨h1, h2, h3, h4⟩ := arrive_full (body := body) hc' hv' (by rwa [requests])
      refine ⟨_, he, h1.trans requests, h2.trans out, ?_,
        apart_iff.2 ((noted.mono fun r hr => ?_).trans (h4.mono fun r hr => ?_))⟩
      · rw [Safety.countedBy, ← same _ (by decide)]
        exact h3
      · simp_all
      · simp_all
  · intro allowed
    refine ⟨fun hs ha => ?_, fun h => ?_⟩
    · have eff : s.plcaStatus port status = (s.set .mgtStatus port (status.val : Nat)).raise (evDev 113) [u16 port] := by
        obtain ⟨h1, h2⟩ := ha
        rw [State.plcaStatus, if_neg (by rintro (h | ⟨h, h3⟩); exacts [h1 h, h3 (h2 h)]), State.setPlca, if_neg hs]
      refine ⟨_, (live_running (f := fun s => s.plcaStatus port status) hp).trans (congrArg _ eff), ?_,
        raised_raise (get_set_reg _ _ (by decide)) (by decide),
        apart_iff.2 (apart_raise (wide_events _) (apart_set (Apart.refl s)))⟩
      rw [get_raise rfl, get_set_same]
    · refine live_still (f := fun s => s.plcaStatus port status) ?_
      unfold State.plcaStatus
      split
      · rfl
      · rename_i hn
        refine if_pos (h.resolve_right fun ha => ha ⟨fun h1 => hn (.inl h1), fun h1 => ?_⟩)
        by_contra h2
        exact hn (.inr ⟨h1, h2⟩)

end Sys2Proof

/-! # The classifier (R239, R240) -/

namespace Sys2Proof.Laws

set_option Elab.async false

open Sys2Proof.Machine

variable {s₀ s t u : State} {cl : Client} {c : Instr} {r : Reg} {i n e k d : Nat} {v : Int} {L : List Reg}
  {K : Reg → Bool}

/-! ## Operations that start -/

theorem exec_clsOp {op : Int} (h : Safety.writeOf c = some (cl, .clsOp, 0, .int op)) :
    exec c s = .next (s.serveWrite cl .clsOp 0 (.int op) (writeClsOp op)) := by
  cases c with
  | clsInsert _ => cases h; rfl
  | clsDelete _ => cases h; rfl
  | clsLookup _ => cases h; rfl
  | clsClearAll _ => cases h; rfl
  | _ => cases h

/-- An operation that is written while none runs. -/
theorem clsOp_starts {op : Int} (h : Safety.writeOf c = some (cl, .clsOp, 0, .int op))
    (ha : Safety.allowed s cl .clsOp 0 (.int op)) (hb : s.flag .clsBusy 0 = false) :
    ∃ t, exec c s = .next t ∧ Safety.acked s t cl ∧ t.get .clsBusy 0 = 1 ∧ t.get .xClsOp 0 = op
      ∧ Safety.requestChanges [.clsBusy, .xClsOp] s t := by
  have hb' : (ready s cl).flag .clsBusy 0 = false := (ready_flag (by decide)).trans hb
  obtain ⟨a, he, hack⟩ := write_acked ha (exec_clsOp h) (if_neg (by simp [hb'])) (out_of_ready rfl)
  refine ⟨_, he, hack, ?_, ?_, requestChanges_serving (apart_iff.2 (apart_set (apart_set (Apart.refl _))))⟩
  · rw [reply_get (by decide) (by decide), get_set_reg _ _ (by decide), get_set_same]
  · rw [reply_get (by decide) (by decide), get_set_same]

/-- An operation that is written while one runs. -/
theorem clsOp_busy {op : Int} (h : Safety.writeOf c = some (cl, .clsOp, 0, .int op))
    (ha : Safety.allowed s cl .clsOp 0 (.int op)) (hb : s.flag .clsBusy 0 = true) :
    ∃ t, exec c s = .next t ∧ Safety.aborted s t cl 0x0A ∧ Safety.requestChanges [] s t := by
  have hb' : (ready s cl).flag .clsBusy 0 = true := (ready_flag (by decide)).trans hb
  obtain ⟨a, he, hab⟩ := write_aborted ha (exec_clsOp h) (if_pos hb') (out_of_ready rfl)
  exact ⟨_, he, hab, requestChanges_serving (apart_iff.2 (Apart.refl _))⟩

/-! ## The table -/

theorem lookup_congr {j : Nat} (h : t.classifier = s.classifier) : t.lookup j = s.lookup j := by
  rw [State.lookup, h, ← State.lookup]

theorem clsPut_classifier {f : Nat} : (s.clsPut k f).classifier = sput natLt 0 s.classifier k (f + 1) := rfl

theorem clsPut_lookup_same {f : Nat} : (s.clsPut k f).lookup k = some f := by
  rw [State.lookup, clsPut_classifier, sget_sput_same]
  simp

theorem clsPut_lookup_other {f j : Nat} (h : j ≠ k) : (s.clsPut k f).lookup j = s.lookup j := by
  rw [State.lookup, clsPut_classifier, sget_sput_other _ _ _ _ _ h, ← State.lookup]

theorem apart_clsPut {f : Nat} (h : Apart K s₀ s) (hK : K .clsEntries = true) : Apart K s₀ (s.clsPut k f) :=
  apart_set (h.other rfl) hK

/-- The keys of a list put into the table in turn. -/
theorem clsPuts_lookup {l : List (Nat × Nat)} (h : (l.map Prod.fst).Nodup) :
    (∀ e ∈ l, (s.each l fun s e => s.clsPut e.1 e.2).lookup e.1 = some e.2)
      ∧ ∀ k, k ∉ l.map Prod.fst → (s.each l fun s e => s.clsPut e.1 e.2).lookup k = s.lookup k := by
  induction l generalizing s with
  | nil => exact ⟨fun _ h => absurd h List.not_mem_nil, fun _ _ => rfl⟩
  | cons x l ih =>
    rw [List.map_cons, List.nodup_cons] at h
    obtain ⟨h1, h2⟩ := ih (s := s.clsPut x.1 x.2) h.2
    rw [each_cons]
    refine ⟨fun e he => ?_, fun k hk => ?_⟩
    · rcases List.mem_cons.1 he with rfl | he
      · rw [h2 _ h.1, clsPut_lookup_same]
      · exact h1 e he
    · rw [List.map_cons, List.mem_cons, not_or] at hk
      rw [h2 k hk.2, clsPut_lookup_other hk.1]

/-! ## Operations that complete -/

/-- An operation that has ended with a code. -/
def clsEnded (code : Nat) (s : State) : State := (s.set .clsBusy 0 0).set .clsResult 0 (code : Nat)

theorem clsEnded_reports {code : Nat} : (clsEnded code s).get .clsBusy 0 = 0 ∧ (clsEnded code s).get .clsResult 0 = code := by
  unfold clsEnded
  constructor <;> simp (disch := decide) only [get_set_reg, get_set_same]

/-- What an operation does to the table. -/
def clsDone (op k f : Nat) (s : State) : State :=
  if op = 1 then s.clsPut k f
  else if op = 2 then
    let s := { s with classifier := sdel s.classifier k }
    s.set .clsEntries 0 (s.classifier.length : Nat)
  else if op = 3 then s.set .clsFound 0 ((s.lookup k).getD 0xFFFF : Nat)
  else ({ s with classifier := [] } : State).set .clsEntries 0 0

theorem clsComplete_eq (h : s.flag .clsBusy 0 = true) : s.clsComplete =
    if s.clsCode (s.nat .xClsOp 0) (s.nat .clsKey 0) (s.nat .clsFlow 0) ≠ 0 then
      clsEnded (s.clsCode (s.nat .xClsOp 0) (s.nat .clsKey 0) (s.nat .clsFlow 0)) s
    else clsDone (s.nat .xClsOp 0) (s.nat .clsKey 0) (s.nat .clsFlow 0)
      (clsEnded (s.clsCode (s.nat .xClsOp 0) (s.nat .clsKey 0) (s.nat .clsFlow 0)) s) := by
  unfold State.clsComplete
  rw [if_neg (by simp [h])]
  rfl

/-- What an operation does writes neither that it runs nor its result. -/
theorem clsDone_get {op f : Nat} (h1 : r ≠ .clsEntries) (h2 : r ≠ .clsFound) : (clsDone op k f s).get r i = s.get r i := by
  have ha : Apart [Reg.clsEntries, .clsFound].contains s (clsDone op k f s) := by
    unfold clsDone
    dsimp only
    exact apart_ite (apart_clsPut (Apart.refl s) rfl) (apart_ite (apart_set ((Apart.refl s).other rfl))
      (apart_ite (apart_set (Apart.refl s)) (apart_set ((Apart.refl s).other rfl))))
  exact ha.regs r i (by simp [h1, h2])

theorem delete_lookup_same : ({ s with classifier := sdel s.classifier k } : State).lookup k = none := by
  rw [State.lookup, sget_sdel_same]
  rfl

theorem delete_lookup_other {j : Nat} (h : j ≠ k) : ({ s with classifier := sdel s.classifier k } : State).lookup j = s.lookup j := by
  rw [State.lookup, sget_sdel_other _ _ h, ← State.lookup]

end Sys2Proof.Laws

namespace Sys2Proof

open Sys2Proof.Machine Sys2Proof.Laws

/-- Settles O36: operations start, are refused while one runs and complete; a load replaces the table. -/
theorem classifierOperationsRunAndComplete : Obligations.ClassifierOperationsRunAndComplete := by
  refine ⟨?_, fun c s cl op h ha hb => clsOp_busy h ha hb, fun s hp hb => ?_, fun s cl b ha => ?_⟩
  · intro starts s cl hb
    exact ⟨fun ha => clsOp_starts rfl ha hb, fun ha => clsOp_starts rfl ha hb, fun ha => clsOp_starts rfl ha hb,
      fun ha => clsOp_starts rfl ha hb⟩
  · intro k f code
    have he := (live_running (f := State.clsComplete) hp).trans (congrArg _ (clsComplete_eq hb))
    obtain ⟨r1, r2⟩ := clsEnded_reports (code := code) (s := s)
    have same : (clsEnded code s).classifier = s.classifier := rfl
    have after : ∀ r, r ∈ [Reg.clsBusy, .clsResult] → ∀ op, (clsDone op k f (clsEnded code s)).get r 0 = (clsEnded code s).get r 0 :=
      fun r hr op => clsDone_get (by rintro rfl; revert hr; decide) (by rintro rfl; revert hr; decide)
    by_cases hc : code = 0
    · rw [if_neg (by simpa using hc)] at he
      refine ⟨_, he, ?_, ?_, fun h => absurd hc h, fun _ h => ?_, fun _ h => ?_, fun _ h => ?_, fun _ h => ?_⟩
      · rw [after _ (by decide), r1]
      · rw [after _ (by decide), r2]
      · rw [h]
        exact ⟨clsPut_lookup_same, fun j hj => (clsPut_lookup_other hj).trans (lookup_congr same), get_set_same _ _ _ _⟩
      · rw [h]
        exact ⟨delete_lookup_same (s := clsEnded code s), fun j hj =>
          (delete_lookup_other (s := clsEnded code s) hj).trans (lookup_congr same), get_set_same _ _ _ _⟩
      · rw [h]
        exact ⟨rfl, (get_set_same _ _ _ _).trans rfl⟩
      · rw [h]
        exact ⟨rfl, get_set_same _ _ _ _⟩
    · rw [if_pos hc] at he
      exact ⟨_, he, r1, r2, fun _ => ⟨rfl, apart_iff.2 (apart_set (apart_set (Apart.refl s)))⟩, fun h => absurd h hc,
        fun h => absurd h hc, fun h => absurd h hc, fun h => absurd h hc⟩
  · intro l hb hk hn
    have hb' : (ready s cl).flag .clsBusy 0 = false := (ready_flag (by decide)).trans hb
    have keys : ∀ k f, (ready s cl).keyFlowOk k f = s.keyFlowOk k f := fun k f => by
      rw [State.keyFlowOk, ready_nat (by decide), ← State.keyFlowOk]
    have eff : writeClsLoad b (ready s cl) = ((({ ready s cl with classifier := [] } : State).set .clsEntries 0 0).each l
        fun s e => s.clsPut e.1 e.2, accepted) := by
      unfold writeClsLoad
      dsimp only
      rw [if_neg, if_neg (by simp [hb']), if_neg]
      · simp only [Bool.not_eq_true, Bool.not_eq_false', List.all_eq_true]
        exact fun e he => (keys _ _).trans (hk e he).2
      · simp only [Bool.or_eq_true, Bool.not_eq_true', not_or, Bool.not_eq_false, List.all_eq_true, decide_eq_true_eq]
        exact ⟨fun e he => (hk e he).1, hn⟩
    have out : ∀ (l : List (Nat × Nat)) (y : State), (y.each l fun s e => s.clsPut e.1 e.2).out = y.out := fun l y =>
      each_out fun t a => rfl
    have cleared : ∀ k, (({ ready s cl with classifier := [] } : State).set .clsEntries 0 0).lookup k = none := fun k => rfl
    have changes : Apart [Reg.clsEntries].contains (ready s cl) ((({ ready s cl with classifier := [] } : State).set .clsEntries 0 0).each l
        fun s e => s.clsPut e.1 e.2) :=
      apart_each (apart_set ((Apart.refl _).other rfl)) fun t a ht => apart_clsPut ht rfl
    have looks : ∀ (x : State) a k, (x.reply cl a).lookup k = x.lookup k := fun x a k => by
      obtain ⟨b, w, l, o, h⟩ := reply_form (s := x) (cl := cl) a
      rw [h]
      rfl
    obtain ⟨h1, h2⟩ := clsPuts_lookup (s := ({ ready s cl with classifier := [] } : State).set .clsEntries 0 0) hn
    obtain ⟨q, hw⟩ := serveWrite_acked ha eff
    refine ⟨_, congrArg Host.Outcome.next hw, ⟨_, replied_reply (out_of_ready (out _ _))⟩, fun e he => ?_, fun k hk => ?_,
      requestChanges_serving (apart_iff.2 (changes.mono fun r hr => (Bool.or_eq_false_iff.1 hr).2))⟩
    · rw [looks, h1 e he]
    · rw [looks, h2 k hk, cleared]

end Sys2Proof

/-! # Fuses, pins and bindings (R275, R276, R281, R282) -/

namespace Sys2Proof.Laws

set_option Elab.async false

open Sys2Proof.Machine

variable {s₀ s t u : State} {cl : Client} {c : Instr} {r : Reg} {i n e k d : Nat} {v : Int} {L : List Reg}
  {K : Reg → Bool}

/-! ## Units that do not hold their reset value -/

theorem sget_mem {κ α : Type} [DecidableEq κ] {m : List (κ × α)} {k : κ} {d : α} (h : sget m k d ≠ d) : ∃ x, (k, x) ∈ m := by
  induction m with
  | nil => exact absurd rfl h
  | cons e m ih =>
    obtain ⟨j, x⟩ := e
    by_cases hj : j = k
    · exact ⟨x, by simp [hj]⟩
    · rw [sget, if_neg hj] at h
      obtain ⟨y, hy⟩ := ih h
      exact ⟨y, List.mem_cons_of_mem _ hy⟩

theorem mem_listed (h : s.get r i ≠ r.dflt i) : ∃ x, (i, x) ∈ s.listed r := by
  obtain ⟨x, hx⟩ := sget_mem h
  exact ⟨x.toNat, List.mem_filterMap.2 ⟨_, hx, by simp⟩⟩

theorem filterMap_sins {κ α β : Type} {lt : κ → κ → Bool} {m : List (κ × α)} {k : κ} {x : α} {f : κ × α → Option β}
    (h : f (k, x) = none) : (sins lt m k x).filterMap f = m.filterMap f := by
  induction m with
  | nil => simp [sins, h]
  | cons e m ih =>
    unfold sins
    split
    · rw [List.filterMap_cons_none h]
    · rw [List.filterMap_cons, List.filterMap_cons, ih]

/-- A write to one register leaves the list of another. -/
theorem listed_set_other {r' : Reg} (h : r' ≠ r) : (s.set r i v).listed r' = s.listed r' := by
  have gone : (sdel s.regs (r, i)).filterMap (fun e => if e.1.1 = r' then some (e.1.2, e.2.toNat) else none)
      = s.listed r' := by
    unfold sdel State.listed
    rw [List.filterMap_filter]
    refine List.filterMap_congr fun e _ => ?_
    by_cases he : e.1.1 = r'
    · rw [if_pos he, if_pos]
      exact decide_eq_true fun hk => h (by rw [← he, hk])
    · rw [if_neg he, ite_self]
  show (sput regLt (r.dflt i) s.regs (r, i) v).filterMap _ = _
  unfold sput
  split
  · exact gone
  · rw [filterMap_sins (if_neg (Ne.symm h)), gone]

theorem ready_listed (h : r ≠ .bdapRequests) : (ready s cl).listed r = s.listed r := by
  unfold ready State.dequeue
  split
  · rfl
  · unfold State.take State.bump
    dsimp only
    split <;> exact listed_set_other h

theorem ready_bindingOk {dir x : Nat} : (ready s cl).bindingOk dir x = s.bindingOk dir x := by
  rw [State.bindingOk, ready_listed (by decide), ← State.bindingOk]

/-! ## Erasing slots -/

/-- A property that one member of a list brings about, and no other takes away, holds after the list. -/
theorem each_reach {α : Type} {l : List α} {f : State → α → State} {P : State → Prop} {a : α} (hm : a ∈ l)
    (he : ∀ t, P (f t a)) (hs : ∀ t b, P t → P (f t b)) : P (s.each l f) := by
  have stays : ∀ (l : List α) t, P t → P (t.each l f) := fun l => by
    induction l with
    | nil => exact fun t h => h
    | cons b l ih => exact fun t h => ih _ (hs _ _ h)
  induction l generalizing s with
  | nil => cases hm
  | cons b l ih =>
    rw [each_cons]
    rcases List.mem_cons.1 hm with rfl | hm
    · exact stays _ _ (he _)
    · exact ih hm

theorem each_holds {α : Type} {l : List α} {f : State → α → State} {P : State → Prop} (h : P s)
    (hs : ∀ t b, P t → P (f t b)) : P (s.each l f) := by
  induction l generalizing s with
  | nil => exact h
  | cons b l ih => exact ih (hs _ _ h)

theorem eraseReg_reg : (s.eraseReg n).get .xSlotReg i = if i = n then 0 else s.get .xSlotReg i := by
  unfold State.eraseReg
  simp (disch := decide) only [get_set_reg, setBlob_get]
  split
  · rename_i h
    rw [h, get_set_same]
  · rename_i h
    exact get_set_other _ _ fun he => h (Prod.mk.inj he).2

theorem eraseReg_key : (s.eraseReg n).blob .xSlotKey i = if i = n then [] else s.blob .xSlotKey i := by
  unfold State.eraseReg
  simp only [set_blob]
  split
  · rename_i h
    rw [h, blob_setBlob_same]
  · rename_i h
    rw [blob_setBlob_other _ _ fun he => h (Prod.mk.inj he).2, set_blob]

theorem half_iff : i / 2 = n ↔ i = 2 * n + 1 ∨ i = 2 * n := by omega

theorem eraseSlot_reg : (s.eraseSlot n).get .xSlotReg i = if i / 2 = n then 0 else s.get .xSlotReg i := by
  unfold State.eraseSlot
  simp (disch := decide) only [get_set_reg, eraseReg_reg, half_iff, ite_or]

theorem eraseSlot_key : (s.eraseSlot n).blob .xSlotKey i = if i / 2 = n then [] else s.blob .xSlotKey i := by
  unfold State.eraseSlot
  simp only [set_blob, eraseReg_key, half_iff, ite_or]

/-- After all slots are erased no register holds a key. -/
theorem eraseAllSlots_reg : s.eraseAllSlots.get .xSlotReg i = 0 := by
  have stays : ∀ (t : State) b, t.get .xSlotReg i = 0 → (t.eraseSlot b).get .xSlotReg i = 0 := fun t b h => by
    rw [eraseSlot_reg, h, ite_self]
  by_cases h : s.get .xSlotReg i = 0
  · exact each_holds h stays
  · obtain ⟨x, hx⟩ := mem_listed (r := .xSlotReg) (i := i) h
    exact each_reach (a := i / 2) (by rw [List.mem_eraseDups]; exact List.mem_map.2 ⟨_, hx, rfl⟩)
      (fun t => by rw [eraseSlot_reg, if_pos rfl]) stays

theorem eraseAllSlots_key (h : s.get .xSlotReg i ≠ 0) : s.eraseAllSlots.blob .xSlotKey i = [] := by
  obtain ⟨x, hx⟩ := mem_listed (r := .xSlotReg) (i := i) h
  exact each_reach (P := fun t => t.blob .xSlotKey i = []) (a := i / 2)
    (by rw [List.mem_eraseDups]; exact List.mem_map.2 ⟨_, hx, rfl⟩)
    (fun t => by rw [eraseSlot_key, if_pos rfl]) fun t b h => by rw [eraseSlot_key, h, ite_self]

theorem blob_raise {detail : List Item} (h : Safety.eventSide r = false) : (s.raise e detail).blob r i = s.blob r i :=
  (apart_raise (wide_events []) (Apart.refl s)).blobs r i (by simp [h])

/-- What erasing slots writes. -/
abbrev eraseRegs : List Reg := [.xSlotReg, .xSlotKey, .xSlotKid, .xSlotCount, .xSlotWarned, .xLease, .xLeaseAck, .xLeaseNew,
  .xLeaseOut, .xSlotActive, .xSlotTxPend, .xSlotRxPend, .xSlotDone]

theorem apart_eraseReg (h : Apart K s₀ s) (hK : ∀ r ∈ eraseRegs, K r = true) : Apart K s₀ (s.eraseReg n) := by
  unfold State.eraseReg
  exact apart_set (apart_set (apart_set (apart_set (apart_set (apart_set (apart_set (apart_setBlob (apart_set h
    (hK _ (by decide))) (hK _ (by decide))) (hK _ (by decide))) (hK _ (by decide))) (hK _ (by decide))) (hK _ (by decide)))
    (hK _ (by decide))) (hK _ (by decide))) (hK _ (by decide))

theorem apart_eraseSlot (h : Apart K s₀ s) (hK : ∀ r ∈ eraseRegs, K r = true) : Apart K s₀ (s.eraseSlot n) := by
  unfold State.eraseSlot
  exact apart_set (apart_set (apart_set (apart_set (apart_eraseReg (apart_eraseReg h hK) hK) (hK _ (by decide))) (hK _ (by decide)))
    (hK _ (by decide))) (hK _ (by decide))

theorem eraseAllSlots_get (h : r ∉ eraseRegs) : s.eraseAllSlots.get r i = s.get r i :=
  (apart_each (Apart.refl s) fun _ _ ht => apart_eraseSlot ht (K := eraseRegs.contains) (by simp)).regs r i (by simpa using h)

/-- The slots of a standby marked unsynchronised. -/
def unsynced (s : State) : State :=
  if s.pairStandby then s.each ((s.listed .xSlotReg).map fun e => e.1 / 2).eraseDups fun s n => s.set .xSlotUnsync n 1 else s

theorem unsynced_get (h : r ≠ .xSlotUnsync) : (unsynced s).get r i = s.get r i := by
  unfold unsynced
  split
  · exact get_each fun t a => get_set_reg _ _ h
  · rfl

theorem zeroFall_eq : s.zeroFall = (((unsynced s).set .cipherZero 0 1).eraseAllSlots).raise (evDev 87) [] := rfl

/-- The pin's fall keeps no key. -/
theorem zeroed_reports : ((s.set .cipherZero 0 1).eraseAllSlots).get .cipherZero 0 = 1
    ∧ (∀ i, ((s.set .cipherZero 0 1).eraseAllSlots).get .xSlotReg i = 0)
    ∧ (∀ i, s.get .xSlotReg i ≠ 0 → ((s.set .cipherZero 0 1).eraseAllSlots).blob .xSlotKey i = []) := by
  refine ⟨?_, fun i => eraseAllSlots_reg, fun i h => eraseAllSlots_key ?_⟩
  · rw [eraseAllSlots_get (by decide), get_set_same]
  · rwa [get_set_reg _ _ (by decide)]

/-! ## Key-encryption keys -/

theorem ready_kekCode {op : Int} : (ready s cl).kekCode n op = s.kekCode n op := by
  unfold State.kekCode
  simp (disch := decide) only [ready_get, ready_flag, ready_blob]

/-- An operation on a key-encryption key that is refused. -/
theorem kek_refused {op : Int} (h : s.kekCode n op ≠ 0) : writeKek n op s
    = ((s.set .kekRefusal n (s.kekCode n op : Nat)).setBlob .kekValue n [],
      .abort (if s.kekCode n op = 1 then 0x06 else 0x08) (s.kekCode n op) 0) := by
  unfold writeKek
  dsimp only
  rw [if_pos h]
  split
  · rename_i h1
    rw [h1]
    rfl
  · rfl

/-- The refusal as the client sees it. -/
theorem kek_refusal {op : Int} (ha : Safety.allowed s cl .kekOp n (.int op)) (h : s.kekCode n op ≠ 0)
    (hx : exec c s = .next (s.serveWrite cl .kekOp n (.int op) (writeKek n op))) :
    ∃ t, exec c s = .next t ∧ Safety.aborted s t cl (if s.kekCode n op = 1 then 0x06 else 0x08)
      ∧ t.get .kekRefusal n = s.kekCode n op ∧ t.blob .kekValue n = []
      ∧ Safety.requestChanges [.kekRefusal, .kekValue] s t := by
  have hr := kek_refused (s := ready s cl) (n := n) (op := op) (by rwa [ready_kekCode])
  rw [ready_kekCode] at hr
  obtain ⟨a, he, hab⟩ := write_aborted ha hx hr (out_of_ready rfl)
  refine ⟨_, he, hab, ?_, ?_, requestChanges_serving (apart_iff.2 (apart_setBlob (apart_set (Apart.refl _))))⟩
  · rw [reply_get (by decide) (by decide), setBlob_get, get_set_same]
  · rw [reply_blob (by decide) (by decide), blob_setBlob_same]

end Sys2Proof.Laws

namespace Sys2Proof

open Sys2Proof.Machine Sys2Proof.Laws

/-- Settles O40: pins zero what they guard, fuses are programmed and revoked, bindings are checked. -/
theorem fusesPinsAndBindingsGuardKeys : Obligations.FusesPinsAndBindingsGuardKeys := by
  refine ⟨fun s => ?_, fun s => ⟨_, rfl, get_set_same _ _ _ _, apart_iff.2 (apart_set (Apart.refl s))⟩,
    fun s => ⟨_, rfl, get_set_same _ _ _ _, apart_iff.2 (apart_set (Apart.refl s))⟩, fun s => ?_, fun s cl n ha hc => ?_,
    fun s cl n ha hc => kek_refusal ha hc rfl, fun s cl n ha hc => kek_refusal ha hc rfl, fun s cl n ha hc => ?_,
    fun s n good hp h1 => ?_, fun s cl d x ha => ?_⟩
  · have he : exec .zeroNFall s = .next (if s.phase == .running then s.zeroFall else (s.set .cipherZero 0 1).eraseAllSlots) := rfl
    by_cases hp : s.phase = .running
    · rw [if_pos (by simp [hp]), zeroFall_eq] at he
      obtain ⟨r1, r2, r3⟩ := zeroed_reports (s := unsynced s)
      refine ⟨_, he, ?_, fun i => ?_, fun i h => ?_, fun _ => raised_raise ?_ (by decide)⟩
      · rw [get_raise rfl, r1]
      · rw [get_raise rfl, r2]
      · rw [blob_raise rfl]
        exact r3 i (by rwa [unsynced_get (by decide)])
      · rw [eraseAllSlots_get (by decide), get_set_reg _ _ (by decide), unsynced_get (by decide)]
    · rw [if_neg (by simp [hp])] at he
      obtain ⟨r1, r2, r3⟩ := zeroed_reports (s := s)
      exact ⟨_, he, r1, r2, r3, fun h => absurd h hp⟩
  · refine ⟨_, rfl, ?_, fun n => ?_, apart_iff.2 (apart_each (apart_set (Apart.refl s)) fun _ _ ht => apart_setBlob ht)⟩
    · exact (get_each (f := fun s n => s.setBlob .kekValue n []) fun t a => rfl).trans (get_set_same _ _ _ _)
    · refine each_reach (P := fun t => t.blob .kekValue n = []) (a := n.val) ?_ (fun t => blob_setBlob_same _ _ _ _)
        fun t b h => ?_
      · have := n.isLt
        simp only [List.mem_cons, List.not_mem_nil, or_false]
        omega
      · by_cases hb : n.val = b
        · rw [hb, blob_setBlob_same]
        · rw [blob_setBlob_other _ _ fun he => hb (Prod.mk.inj he).2, h]
  · have eff : writeKek n 1 (ready s cl) = (((ready s cl).set .kekState n 1).setBlob .xKekFuse n ((ready s cl).blob .kekValue n),
        accepted) := by
      unfold writeKek
      dsimp only
      rw [if_neg (by rw [ready_kekCode]; simpa using hc), if_pos rfl]
    obtain ⟨a, he, hack⟩ := write_acked (c := .kekProgram cl n) ha rfl eff (out_of_ready rfl)
    refine ⟨_, he, hack, ?_, ?_, requestChanges_serving (apart_iff.2 (apart_setBlob (apart_set (Apart.refl _))))⟩
    · rw [reply_get (by decide) (by decide), setBlob_get, get_set_same]
    · rw [reply_blob (by decide) (by decide), blob_setBlob_same, ready_blob]
  · have eff : writeKek n 2 (ready s cl) = ((((ready s cl).set .kekState n 3).setBlob .xKekFuse n []).set .kekKcv n 0 |>.raise
        (evDev 88) [], accepted) := by
      unfold writeKek
      dsimp only
      rw [if_neg (by rw [ready_kekCode]; simpa using hc), if_neg (by decide)]
    obtain ⟨a, he, hack⟩ := write_acked (c := .kekRevoke cl n) ha rfl eff (out_of_ready (by rw [raise_out]; rfl))
    refine ⟨_, he, hack, ?_, ?_, ?_, raised_of_count (reply_get (by decide) (by decide)) (raised_raise ?_ (by decide))⟩
    · rw [reply_get (by decide) (by decide), get_raise rfl, get_set_reg _ _ (by decide), setBlob_get, get_set_same]
    · rw [reply_blob (by decide) (by decide), blob_raise rfl, set_blob, blob_setBlob_same]
    · rw [reply_get (by decide) (by decide), get_raise rfl, get_set_same]
    · rw [get_set_reg _ _ (by decide), setBlob_get, get_set_reg _ _ (by decide), ready_get (by decide)]
  · have he := live_running (f := fun s => s.kekComplete n good) hp
    have ended : ∀ x : State, (x.setBlob .kekValue n []).raise (evDev 88) [] |>.blob .kekValue n |>.isEmpty := fun x => by
      rw [blob_raise rfl, blob_setBlob_same]
      rfl
    have kept : ∀ (x : State) r, r ∈ [Reg.kekState, .kekKcv] → ((x.setBlob .kekValue n []).raise (evDev 88) []).get r n = x.get r n :=
      fun x r hr => by
        rw [get_raise (by simp only [List.mem_cons, List.not_mem_nil, or_false] at hr; rcases hr with rfl | rfl <;> rfl),
          setBlob_get]
    have eff : s.kekComplete n good = ((if good then (s.set .kekState n 2).set .kekKcv n (kcvOf (s.blob .xKekFuse n) : Nat)
        else s.set .kekState n 4).setBlob .kekValue n []).raise (evDev 88) [] := if_neg (by simp [h1])
    rw [eff] at he
    refine ⟨_, he, List.isEmpty_iff.1 (ended _), raised_raise ?_ (by decide), fun hg => ?_, fun hg => ?_⟩
    · rw [setBlob_get]
      split
      · rw [get_set_reg _ _ (by decide), get_set_reg _ _ (by decide)]
      · rw [get_set_reg _ _ (by decide)]
    · rw [kept _ _ (by decide), kept _ _ (by decide), if_pos hg, get_set_reg _ _ (by decide), get_set_same, get_set_same]
      exact ⟨rfl, rfl⟩
    · rw [kept _ _ (by decide), kept _ _ (by decide), if_neg (by simp [hg]), get_set_same, get_set_reg _ _ (by decide)]
      exact ⟨rfl, rfl⟩
  · intro i
    refine ⟨fun hb => ?_, fun hb => ?_⟩
    · have eff : writeBinding i x (ready s cl) = ((ready s cl).set .bindEntry i x, accepted) :=
        if_pos (by rw [ready_bindingOk]; exact hb)
      obtain ⟨a, he, hack⟩ := write_acked (c := .cipherBindingWrite cl d x) ha rfl eff (out_of_ready rfl)
      refine ⟨_, he, hack, ?_, requestChanges_serving (apart_iff.2 (apart_set (Apart.refl _)))⟩
      rw [reply_get (by decide) (by decide), get_set_same]
    · have eff : writeBinding i x (ready s cl) = (ready s cl, refusedWith 0x08) :=
        if_neg (by rw [ready_bindingOk]; simpa using hb)
      obtain ⟨a, he, hab⟩ := write_aborted (c := .cipherBindingWrite cl d x) ha rfl eff (out_of_ready rfl)
      exact ⟨_, he, hab, requestChanges_serving (apart_iff.2 (Apart.refl _))⟩

end Sys2Proof

/-! # Faults of host lanes (R302 to R305) -/

namespace Sys2Proof.Laws

set_option Elab.async false

open Sys2Proof.Machine

variable {s₀ s t u : State} {cl : Client} {c : Instr} {r : Reg} {i n e k d h : Nat} {v : Int} {L : List Reg}
  {K : Reg → Bool}

/-! ## Ports that follow their lanes -/

/-- What the ports of an octet write as they follow their lanes. -/
abbrev portRegs : List Reg := [.portState, .xPortAligned]

theorem apart_portsEval (hs : Apart K s₀ s) (hK : ∀ r ∈ portRegs, K r = true) : Apart K s₀ (s.portsEval n) :=
  apart_each hs fun t p ht => by
    unfold State.portEval
    exact apart_ite ht (apart_ite (apart_ite ht (apart_set (apart_set ht (hK _ (by decide))) (hK _ (by decide))))
      (apart_set (apart_set ht (hK _ (by decide))) (hK _ (by decide))))

theorem portsEval_get (hr : r ∉ portRegs) : (s.portsEval n).get r i = s.get r i :=
  (apart_portsEval (K := portRegs.contains) (Apart.refl s) (by decide)).regs r i (by simpa using hr)

theorem portsEval_flag (hr : r ∉ portRegs) : (s.portsEval n).flag r i = s.flag r i := by
  rw [State.flag, portsEval_get hr, ← State.flag]

theorem portsEval_raised (hr : Safety.raised s t e) : Safety.raised s (t.portsEval n) e :=
  raised_of_count (portsEval_get (by decide)) hr

theorem flag_set_one : (s.set r i 1).flag r i = true := by
  rw [State.flag, get_set_same]
  rfl

theorem flag_raiseClear {detail : List Item} {b : Bool} (hr : Safety.eventSide r = false) :
    (s.raiseClear e detail b).flag r i = s.flag r i := by rw [State.flag, get_raiseClear hr, ← State.flag]

/-! ## Raw loss of signal -/

theorem losSet_eq (h1 : s.laneOn h = true) (h2 : s.flag .laneLosRaw h = false) :
    s.losSet h = ((s.set .laneLosRaw h 1).raiseClear (evLane h 0) [] false).portsEval (h / 8) := if_pos (by simp [h1, h2])

theorem losSet_get (hr : r ∉ [Reg.laneLosRaw, .portState, .xPortAligned]) (he : Safety.eventSide r = false) :
    (s.losSet h).get r i = s.get r i := by
  simp only [List.mem_cons, List.not_mem_nil, or_false, not_or] at hr
  unfold State.losSet
  split
  · rw [portsEval_get (by simp [hr]), get_raiseClear he, get_set_reg _ _ hr.1]
  · rfl

/-- On a powered lane raw LOS is set from then on. -/
theorem losSet_flag (h1 : s.laneOn h = true) : (s.losSet h).flag .laneLosRaw h = true := by
  cases h2 : s.flag .laneLosRaw h with
  | false => rw [losSet_eq h1 h2, portsEval_flag (by decide), flag_raiseClear rfl, flag_set_one]
  | true =>
    have : s.losSet h = s := if_neg (by simp [h2])
    rw [this, h2]

/-- Raw LOS is not what reports pair faults. -/
theorem losSet_silent (hs : Silent (evLane h 2) s₀ s) : Silent (evLane h 2) s₀ (s.losSet h) := by
  unfold State.losSet
  split
  · exact (silent_raiseClear (silent_set hs) (by unfold evLane evDev; omega) (by unfold evLane; omega)).trans
      (portsEval_get (by decide))
  · exact hs

/-! ## Pair faults -/

/-- A changed map of pair faults, with its event. -/
def pairNoted (s : State) (h map : Nat) : State :=
  let was := s.nat .lanePairFault h
  let s := s.set .lanePairFault h (map : Nat)
  let s := if map &&& was ≠ map then s.raiseClear (evLane h 2) [] false else s
  if map &&& was ≠ was then s.raiseClear (evLane h 2) [] true else s

theorem pairSet_changed {map : Nat} (hc : s.nat .lanePairFault h ≠ map) : s.pairSet h map
    = (if map = 0 then pairNoted s h map else (pairNoted s h map).losSet h).portsEval (h / 8) := if_neg hc

theorem pairSet_same {map : Nat} (hc : s.nat .lanePairFault h = map) :
    s.pairSet h map = if map = 0 then s else s.losSet h := if_pos hc

theorem pairNoted_get {map : Nat} (hr : r ≠ .lanePairFault) (he : Safety.eventSide r = false) :
    (pairNoted s h map).get r i = s.get r i := by
  unfold pairNoted
  dsimp only
  split <;> split
  · rw [get_raiseClear he, get_raiseClear he, get_set_reg _ _ hr]
  · rw [get_raiseClear he, get_set_reg _ _ hr]
  · rw [get_raiseClear he, get_set_reg _ _ hr]
  · exact get_set_reg _ _ hr

theorem pairNoted_map {map : Nat} : (pairNoted s h map).get .lanePairFault h = map := by
  unfold pairNoted
  dsimp only
  split <;> split
  · rw [get_raiseClear rfl, get_raiseClear rfl, get_set_same]
  · rw [get_raiseClear rfl, get_set_same]
  · rw [get_raiseClear rfl, get_set_same]
  · exact get_set_same _ _ _ _

/-- A map that only gains faults, or only loses some, is reported once. -/
theorem pairNoted_raised {map : Nat} (ho : map &&& s.nat .lanePairFault h ≠ map ↔ map &&& s.nat .lanePairFault h = s.nat .lanePairFault h) :
    Safety.raised s (pairNoted s h map) (evLane h 2) := by
  have noted : Silent (evLane h 2) s (s.set .lanePairFault h (map : Nat)) := silent_set Silent.refl
  have hd : evLane h 2 ≠ evDev 132 := by unfold evLane evDev; omega
  unfold pairNoted
  dsimp only
  by_cases hm : map &&& s.nat .lanePairFault h = map
  · rw [if_pos fun hw => ho.2 hw hm, if_neg (not_not.2 hm)]
    exact raised_raiseClear noted hd
  · rw [if_neg (not_not.2 (ho.1 hm)), if_pos hm]
    exact raised_raiseClear noted hd

/-- After a map is set it is the lane's, and the other registers of pair faults stay. -/
theorem pairSet_map {map : Nat} : (s.pairSet h map).get .lanePairFault h = map ∨ (s.pairSet h map).nat .lanePairFault h = map := by
  by_cases hc : s.nat .lanePairFault h = map
  · refine .inr ?_
    rw [pairSet_same hc]
    split
    · exact hc
    · rw [State.nat, losSet_get (by decide) rfl, ← State.nat, hc]
  · refine .inl ?_
    rw [pairSet_changed hc, portsEval_get (by decide)]
    split
    · exact pairNoted_map
    · rw [losSet_get (by decide) rfl, pairNoted_map]

theorem pairSet_nat {map : Nat} : (s.pairSet h map).nat .lanePairFault h = map :=
  pairSet_map.elim (fun he => by rw [State.nat, he, Int.toNat_natCast]) id

theorem pairSet_get {map : Nat} (hr : r ∉ [Reg.lanePairFault, .laneLosRaw, .portState, .xPortAligned])
    (he : Safety.eventSide r = false) : (s.pairSet h map).get r i = s.get r i := by
  simp only [List.mem_cons, List.not_mem_nil, or_false, not_or] at hr
  by_cases hc : s.nat .lanePairFault h = map
  · rw [pairSet_same hc]
    split
    · rfl
    · exact losSet_get (by simp [hr]) he
  · rw [pairSet_changed hc, portsEval_get (by simp [hr])]
    split
    · exact pairNoted_get hr.1 he
    · rw [losSet_get (by simp [hr]) he, pairNoted_get hr.1 he]

/-- A map that changes in one direction is reported once. -/
theorem pairSet_raised {map : Nat} (hc : s.nat .lanePairFault h ≠ map)
    (ho : map &&& s.nat .lanePairFault h ≠ map ↔ map &&& s.nat .lanePairFault h = s.nat .lanePairFault h) :
    Safety.raised s (s.pairSet h map) (evLane h 2) := by
  rw [pairSet_changed hc]
  refine portsEval_raised ?_
  split
  · exact pairNoted_raised ho
  · exact raised_of_count (losSet_silent Silent.refl) (pairNoted_raised ho)

/-- A pair fault holds raw LOS of a powered lane set. -/
theorem pairSet_los {map : Nat} (hm : map ≠ 0) (h1 : s.laneOn h = true) : (s.pairSet h map).flag .laneLosRaw h = true := by
  by_cases hc : s.nat .lanePairFault h = map
  · rw [pairSet_same hc, if_neg hm]
    exact losSet_flag h1
  · rw [pairSet_changed hc, if_neg hm, portsEval_flag (by decide)]
    refine losSet_flag ?_
    rwa [State.laneOn, pairNoted_get (by decide) rfl, ← State.laneOn]

theorem pairNoted_out {map : Nat} : (pairNoted s h map).out = s.out := by
  unfold pairNoted
  dsimp only
  split <;> split
  · rw [raiseClear_out, raiseClear_out, set_out]
  · rw [raiseClear_out, set_out]
  · rw [raiseClear_out, set_out]
  · exact set_out ..

theorem portsEval_out : (s.portsEval n).out = s.out := each_out fun t p => by
  unfold State.portEval
  split
  · rfl
  · split
    · split <;> rfl
    · rfl

theorem losSet_out : (s.losSet h).out = s.out := by
  unfold State.losSet
  split
  · rw [portsEval_out, raiseClear_out, set_out]
  · rfl

theorem pairSet_out {map : Nat} : (s.pairSet h map).out = s.out := by
  by_cases hc : s.nat .lanePairFault h = map
  · rw [pairSet_same hc]
    split
    · rfl
    · exact losSet_out
  · rw [pairSet_changed hc, portsEval_out]
    split
    · exact pairNoted_out
    · rw [losSet_out, pairNoted_out]

theorem raised_of_silent (hs : Silent e s₀ s) (hr : Safety.raised s t e) : Safety.raised s₀ t e := by
  rw [Safety.raised, Safety.countedBy] at hr ⊢
  rw [hr, State.nat, State.nat, hs]

theorem cmMap_inside {p q : Nat} (h1 : 300 ≤ p) (h2 : p ≤ 600) (h3 : 300 ≤ q) (h4 : q ≤ 600) : cmMap p q = 0 := by
  unfold cmMap
  rw [if_neg (by omega), if_neg (by omega), if_neg (by omega), if_neg (by omega)]

/-- The levels that the common-mode monitor has seen. -/
def cmSeen (s : State) (h p q : Nat) : State := (s.set .lanePairCmP h (p : Nat)).set .lanePairCmN h (q : Nat)

theorem cmSeen_get {p q : Nat} (h1 : r ≠ .lanePairCmP) (h2 : r ≠ .lanePairCmN) : (cmSeen s h p q).get r i = s.get r i := by
  rw [cmSeen, get_set_reg _ _ h2, get_set_reg _ _ h1]

theorem cmSeen_nat {p q : Nat} (h1 : r ≠ .lanePairCmP) (h2 : r ≠ .lanePairCmN) : (cmSeen s h p q).nat r i = s.nat r i := by
  rw [State.nat, cmSeen_get h1 h2, ← State.nat]

theorem cmSeen_on {p q : Nat} : (cmSeen s h p q).laneOn h = s.laneOn h := by
  rw [State.laneOn, cmSeen_get (by decide) (by decide), ← State.laneOn]

/-! ## Lock -/

theorem lockLoss_eq (hl : s.flag .laneLock h = true) : s.lockLoss h
    = ((((s.set .laneLock h 0).set .xLaneRelock h 1).laneStep h 3 3 |>.bump .laneLockLosses h).raise (evLane h 1) []).portsEval
      (h / 8) := if_neg (by simp [hl])

theorem lockLoss_reports (hl : s.flag .laneLock h = true) : (s.lockLoss h).get .laneLock h = 0
    ∧ (s.lockLoss h).get .xLaneRelock h = 1 ∧ (s.lockLoss h).get .laneState h = 3
    ∧ Safety.countedBy s (s.lockLoss h) .laneLockLosses h 1 ∧ Safety.raised s (s.lockLoss h) (evLane h 1) := by
  have hd : evLane h 1 ≠ evDev 132 := by unfold evLane evDev; omega
  rw [lockLoss_eq hl]
  unfold State.laneStep
  refine ⟨?_, ?_, ?_, ?_, portsEval_raised (Silent.raised (silent_bump (silent_set (silent_set (silent_set (silent_set
    Silent.refl))))) hd)⟩
  · rw [portsEval_get (by decide), get_raise rfl, get_bump_other (.inl (by decide))]
    simp (disch := decide) only [get_set_reg, get_set_same]
  · rw [portsEval_get (by decide), get_raise rfl, get_bump_other (.inl (by decide))]
    simp (disch := decide) only [get_set_reg, get_set_same]
  · rw [portsEval_get (by decide), get_raise rfl, get_bump_other (.inl (by decide)), get_set_same]
  · rw [Safety.countedBy, portsEval_get (by decide), get_raise rfl, get_bump_same, State.nat, State.nat]
    simp (disch := decide) only [get_set_reg]

/-- A lane's loss of lock is its own. -/
theorem lockLoss_same (hn : n ≠ i) : Same [.laneLock, .laneLockLosses] i s (s.lockLoss n) := fun r hr => by
  have beside : ∀ (x : State) (r' : Reg) v, (x.set r' n v).get r i = x.get r i := fun x r' v =>
    get_set_other _ _ fun he => hn (Prod.mk.inj he).2.symm
  unfold State.lockLoss
  split
  · rfl
  · unfold State.laneStep
    rw [portsEval_get (by revert hr; simp; rintro (rfl | rfl) <;> decide),
      get_raise (by simp only [List.mem_cons, List.not_mem_nil, or_false] at hr; rcases hr with rfl | rfl <;> rfl),
      get_bump_other (.inr hn.symm), beside, beside, beside, beside]

/-! ## Lanes of enabled ports -/

theorem ready_onEnabledPort : (ready s cl).onEnabledPort h = s.onEnabledPort h := by
  unfold State.onEnabledPort State.enabledPorts State.rxLanes State.txLanes State.logicalLanes State.rxReversed
  simp (disch := decide) only [ready_get, ready_flag, ready_nat]

theorem ready_laneOn : (ready s cl).laneOn h = s.laneOn h := by
  rw [State.laneOn, ready_get (by decide), ← State.laneOn]

end Sys2Proof.Laws

namespace Sys2Proof

open Sys2Proof.Machine Sys2Proof.Laws

/-- Settles O43: signal, lock, reference and pair faults as they come, go and are tested. -/
theorem laneFaultsAreReported : Obligations.LaneFaultsAreReported := by
  refine ⟨fun s h hp h1 h2 => ?_, fun s h hp h1 h2 h3 => ?_, fun s h hp hl =>
    ⟨_, live_running (f := fun s => s.lockLoss h) hp, lockLoss_reports hl⟩, fun s k hp => ?_, fun s k hp => ?_,
    fun s h p q hp h1 => ?_, fun s h p q hp h1 hp1 hp2 hq1 hq2 hf1 hf2 => ?_, fun s cl h x ha => ⟨fun h1 h2 => ?_, fun hn => ?_⟩⟩
  · have he := (live_running (f := fun s => s.losSet h) hp).trans (congrArg _ (losSet_eq h1 h2))
    refine ⟨_, he, ?_, portsEval_raised (raised_raiseClear (silent_set Silent.refl) (by unfold evLane evDev; omega)),
      apart_iff.2 (apart_portsEval (apart_raiseClear (wide_events _) (apart_set (Apart.refl s))) (by decide))⟩
    rw [portsEval_get (by decide), get_raiseClear rfl, get_set_same]
  · have he := live_running (f := fun s => if s.laneOn h && s.flag .laneLosRaw h && s.get .lanePairFault h == 0 then
      ((s.set .laneLosRaw h 0).raiseClear (evLane h 0) [] true).portsEval (h / 8) else s) hp
    rw [if_pos (by simp [h1, h2, h3])] at he
    refine ⟨_, he, ?_, portsEval_raised (raised_raiseClear (silent_set Silent.refl) (by unfold evLane evDev; omega)),
      apart_iff.2 (apart_portsEval (apart_raiseClear (wide_events _) (apart_set (Apart.refl s))) (by decide))⟩
    rw [portsEval_get (by decide), get_raiseClear rfl, get_set_same]
  · have he := live_running (f := fun s => (s.set .xRefh k 1).each ((List.range 48).map (48 * k.val + ·)) State.lockLoss) hp
    refine ⟨_, he, ?_, fun h hh hk hl => ?_⟩
    · refine (get_each fun t a => ?_).trans (get_set_same _ _ _ _)
      unfold State.lockLoss State.laneStep
      split
      · rfl
      · rw [portsEval_get (by decide), get_raise rfl, get_bump_other (.inl (by decide))]
        simp (disch := decide) only [get_set_reg]
    · have nodup : ((List.range 48).map (48 * k.val + ·)).Nodup :=
        List.nodup_range.map fun a b hab => by simpa using hab
      have mem : h ∈ (List.range 48).map (48 * k.val + ·) := by
        simp only [List.mem_map, List.mem_range]
        exact ⟨h % 48, by omega, by omega⟩
      obtain ⟨x, -, hx, hy⟩ := each_at (s := s.set .xRefh k 1) (L := [.laneLock, .laneLockLosses]) (i := h) (I := fun _ => True)
        (f := State.lockLoss) nodup mem (fun t a _ hne => lockLoss_same hne) trivial fun _ _ _ _ => trivial
      have hx' : Same [.laneLock, .laneLockLosses] h s x := Same.trans (fun r hr => get_set_reg _ _ (by
        simp only [List.mem_cons, List.not_mem_nil, or_false] at hr
        rcases hr with rfl | rfl <;> decide)) hx
      obtain ⟨r1, -, -, r4, -⟩ := lockLoss_reports (s := x) (h := h) (hx'.flag.trans hl)
      rw [Safety.countedBy, hx'.nat] at r4
      exact ⟨hy.get.trans r1, hy.get.trans r4⟩
  · exact ⟨_, live_running (f := fun s => s.set .xRefh k 0) hp, get_set_same _ _ _ _, apart_iff.2 (apart_set (Apart.refl s))⟩
  · have eff : s.cmFound h p q = (cmSeen s h p q).pairSet h (s.nat .lanePairFault h ||| cmMap p q) := by
      rw [← cmSeen_nat (p := p) (q := q) (s := s) (h := h) (by decide) (by decide)]
      exact if_neg (by simp [h1])
    have he := (live_running (f := fun s => s.cmFound h p q) hp).trans (congrArg _ eff)
    refine ⟨_, he, ?_, ?_, pairSet_nat, fun hc => ⟨pairSet_los (fun h0 => hc ?_) (cmSeen_on.trans h1), ?_⟩⟩
    · rw [pairSet_get (by decide) rfl, cmSeen, get_set_reg _ _ (by decide), get_set_same]
    · rw [pairSet_get (by decide) rfl, cmSeen, get_set_same]
    · rw [h0]
      exact ((Nat.or_eq_zero_iff.1 h0).1).symm
    · have same := cmSeen_nat (p := p) (q := q) (s := s) (h := h) (i := h) (r := .lanePairFault) (by decide) (by decide)
      have and : (s.nat .lanePairFault h ||| cmMap p q) &&& s.nat .lanePairFault h = s.nat .lanePairFault h := by
        refine Nat.eq_of_testBit_eq fun n => ?_
        rw [Nat.testBit_and, Nat.testBit_or]
        cases (s.nat .lanePairFault h).testBit n <;> simp
      have hr := pairSet_raised (s := cmSeen s h p q) (h := h) (map := s.nat .lanePairFault h ||| cmMap p q)
        (by rw [same]; exact Ne.symm hc) (by rw [same, and]; exact ⟨fun _ => rfl, fun _ he => hc he.symm⟩)
      exact raised_of_silent (silent_set (silent_set Silent.refl)) hr
  · have was : (cmSeen s h p q).nat .lanePairFault h = s.nat .lanePairFault h := cmSeen_nat (by decide) (by decide)
    have eff : s.cmCleared h p q = (cmSeen s h p q).pairSet h 0 := by
      have hz : (cmSeen s h p q).nat .lanePairFault h / 16 * 16 + ((cmSeen s h p q).nat .lanePairFault h % 16 &&& cmMap p q) = 0 := by
        rw [was, cmMap_inside hp1 hp2 hq1 hq2, Nat.and_zero]
        omega
      rw [← hz]
      exact if_neg (by simp [h1])
    have he := (live_running (f := fun s => s.cmCleared h p q) hp).trans (congrArg _ eff)
    have hne : (cmSeen s h p q).nat .lanePairFault h ≠ 0 := by omega
    refine ⟨_, he, ?_, raised_of_silent (silent_set (silent_set Silent.refl)) (pairSet_raised hne ?_)⟩
    · rw [pairSet_changed hne, portsEval_get (by decide), if_pos rfl, pairNoted_map]
      rfl
    · rw [Nat.zero_and]
      exact ⟨fun h => absurd rfl h, fun h => absurd h.symm hne⟩
  · have eff : writePairTest h x (ready s cl) = ((ready s cl).pairTest h x, accepted) :=
      if_neg (by simp [ready_onEnabledPort, ready_laneOn, h1, h2])
    obtain ⟨a, he, hack⟩ := write_acked (c := .pairTest cl h x) ha rfl eff (out_of_ready pairSet_out)
    refine ⟨_, he, hack, ?_, ?_⟩
    · rw [reply_get (by decide) (by decide), State.pairTest, pairSet_get (by decide) rfl, get_set_same]
    · rw [State.nat, reply_get (by decide) (by decide), ← State.nat, State.pairTest, pairSet_nat, State.nat,
        get_set_reg _ _ (by decide), ready_get (by decide), ← State.nat]
  · have eff : writePairTest h x (ready s cl) = (ready s cl, refusedWith 0x08) :=
      if_pos (by rw [ready_onEnabledPort, ready_laneOn]; rcases hn with hn | hn <;> simp [hn])
    obtain ⟨a, he, hab⟩ := write_aborted (c := .pairTest cl h x) ha rfl eff (out_of_ready rfl)
    exact ⟨_, he, hab, requestChanges_serving (apart_iff.2 (Apart.refl _))⟩

end Sys2Proof

/-! # Rings, windows and captures of the mover (R364, R366, R370, R372) -/

namespace Sys2Proof.Laws

set_option Elab.async false

open Sys2Proof.Machine

variable {s₀ s t u : State} {cl : Client} {c : Instr} {r : Reg} {i n e k d : Nat} {v : Int} {L : List Reg}
  {K : Reg → Bool}

/-! ## What a client's select holds -/

theorem setView_view {x : Source} {w : View} (h : s.sources.find? (fun y => y.mac == cl.mac) = some x) :
    (s.setView cl w).view cl = w := by
  have hx : x.mac = cl.mac := by simpa using List.find?_some h
  have same : ((fun y : Source => y.mac == cl.mac) ∘ fun y : Source =>
      if y.mac = cl.mac then (if cl.fore then { y with fore := w } else { y with native := w }) else y)
      = fun y => y.mac == cl.mac := funext fun y => by
    simp only [Function.comp]
    split
    · split <;> rfl
    · rfl
  have found : (s.setView cl w).sources.find? (fun y => y.mac == cl.mac)
      = some (if cl.fore then { x with fore := w } else { x with native := w }) := by
    show (s.sources.map _).find? _ = _
    rw [List.find?_map, same, h, Option.map_some, if_pos hx]
  unfold State.view
  rw [found]
  cases cl.fore <;> rfl

theorem bump_view : (s.bump r i n).view cl = s.view cl := by
  obtain ⟨a, w, h⟩ := bump_form (s := s) r i n
  rw [h]
  rfl

theorem ready_sel : (ready s cl).sel cl r i = s.sel cl r i := by
  have heard : (s.hear cl.mac).sel cl r i = s.sel cl r i := by rw [State.sel, hear_view, ← State.sel]
  unfold ready State.dequeue
  split
  · exact heard
  · rw [← heard, State.sel, State.take, bump_view, setView_view (find_hear cl.mac), ← State.sel]

/-! ## Rings -/

theorem ready_descriptors : (ready s cl).descriptors = s.descriptors := by
  obtain ⟨a, w, q, l, h⟩ := ready_form (s := s) (cl := cl)
  rw [h]

theorem reply_descriptors {a : Reply} : (s.reply cl a).descriptors = s.descriptors := by
  obtain ⟨b, w, l, o, h⟩ := reply_form (s := s) (cl := cl) a
  rw [h]

theorem ready_descs : (ready s cl).descs n = s.descs n := by rw [State.descs, ready_descriptors, ← State.descs]

theorem reply_descs {a : Reply} : (s.reply cl a).descs n = s.descs n := by rw [State.descs, reply_descriptors, ← State.descs]

theorem setDescs_descs {l : List Descriptor} : (s.setDescs n l).descs n = l := sget_sput_same _ _ _ _ _

theorem setDescs_apart {l : List Descriptor} : Apart K s (s.setDescs n l) := (Apart.refl s).other rfl

theorem transferClear_descs : (s.transferClear n).descs k = s.descs k := rfl

theorem transferClear_out {l : List Descriptor} : ((s.setDescs n l).transferClear n).out = s.out := by
  unfold State.transferClear
  rw [setBlob_out, set_out, set_out, set_out, set_out, set_out, set_out, set_out, set_out]
  rfl

theorem transferClear_get : (s.transferClear n).get .xRingHalted n = 0 ∧ (s.transferClear n).get .ringGranule n = 0 := by
  unfold State.transferClear
  constructor <;> simp (disch := decide) only [setBlob_get, get_set_reg, get_set_same]

theorem ready_ringState : (ready s cl).ringStateNow n = s.ringStateNow n := by
  unfold State.ringStateNow
  simp (disch := decide) only [ready_get, ready_flag, ready_descs]

/-- A ring whose descriptors are replaced and whose transfer starts from nothing, as its client sees it. -/
theorem transferCleared_reports {l : List Descriptor} {a : Reply} :
    ((((ready s cl).setDescs n l).transferClear n).reply cl a).get .xRingHalted n = 0
    ∧ ((((ready s cl).setDescs n l).transferClear n).reply cl a).descs n = l
    ∧ ((((ready s cl).setDescs n l).transferClear n).reply cl a).get .ringGranule n = 0 := by
  obtain ⟨r1, r2⟩ := transferClear_get (s := (ready s cl).setDescs n l) (n := n)
  exact ⟨(reply_get (by decide) (by decide)).trans r1, reply_descs.trans (transferClear_descs.trans setDescs_descs),
    (reply_get (by decide) (by decide)).trans r2⟩

/-! ## Windows and captures -/

/-- What marking transfers writes. -/
abbrev markRegs : List Reg := [.xRingMark, .xRingMarkPre, .xRingMarkDetail, .xRingMarkSide, .xRingMarkTime]

theorem apart_markRings {code detail : Nat} {hit : State → Nat → Option Nat} (h : Apart K s₀ s)
    (hK : ∀ r ∈ markRegs, K r = true) : Apart K s₀ (s.markRings code detail hit) :=
  apart_each h fun t n ht => by
    dsimp only
    split
    · split
      · exact apart_set (apart_set (apart_set (apart_set (apart_set ht (hK _ (by decide))) (hK _ (by decide)))
          (hK _ (by decide))) (hK _ (by decide))) (hK _ (by decide))
      · exact ht
    · exact ht

theorem markRings_get {code detail : Nat} {hit : State → Nat → Option Nat} (h : r ∉ markRegs) :
    (s.markRings code detail hit).get r i = s.get r i :=
  (apart_markRings (K := markRegs.contains) (Apart.refl s) (by decide)).regs r i (by simpa using h)

theorem markRings_blob {code detail : Nat} {hit : State → Nat → Option Nat} (h : r ∉ markRegs) :
    (s.markRings code detail hit).blob r i = s.blob r i :=
  (apart_markRings (K := markRegs.contains) (Apart.refl s) (by decide)).blobs r i (by simpa using h)

theorem markRings_out {code detail : Nat} {hit : State → Nat → Option Nat} : (s.markRings code detail hit).out = s.out :=
  each_out fun t n => by
    dsimp only
    split
    · split
      · rw [set_out, set_out, set_out, set_out, set_out]
      · rfl
    · rfl

theorem ready_window : (ready s cl).window n = s.window n := by
  rw [State.window, State.windowBytes, ready_blob, ← State.windowBytes, ← State.window]

/-- A capture with the settings that stand. -/
def captureSet (s : State) (c : Nat) : State :=
  let e := s.get .captureTrigger c
  let s := s.set .xCapturePoint c (s.get .capturePoint c) |>.set .xCaptureLength c (s.get .captureLength c)
    |>.set .xCaptureTrigger c e |>.set .xCaptureTriggered c (if e = 0xFFFF then 1 else 0) |>.set .xCaptureFilled c 0
    |>.set .captureState c 1
  s.bump .captureArms c

theorem captureArm_get {n : Nat} (h : r ∉ markRegs) : (s.captureArm n).get r i = (captureSet s n).get r i := by
  show (if _ then (captureSet s n).markRings 5 n _ else captureSet s n).get r i = _
  split
  · exact markRings_get h
  · rfl

theorem captureArm_out {n : Nat} : (s.captureArm n).out = s.out := by
  show (if _ then (captureSet s n).markRings 5 n _ else captureSet s n).out = _
  have h : (captureSet s n).out = s.out := bump_out
  split
  · rw [markRings_out, h]
  · exact h

theorem captureSet_reports : (captureSet s n).get .captureState n = 1 ∧ (captureSet s n).get .xCaptureFilled n = 0
    ∧ (captureSet s n).get .xCapturePoint n = s.get .capturePoint n
    ∧ (captureSet s n).get .xCaptureLength n = s.get .captureLength n
    ∧ Safety.countedBy s (captureSet s n) .captureArms n 1 := by
  unfold captureSet
  dsimp only
  refine ⟨?_, ?_, ?_, ?_, ?_⟩
  · rw [get_bump_other (.inl (by decide)), get_set_same]
  · rw [get_bump_other (.inl (by decide))]
    simp (disch := decide) only [get_set_reg, get_set_same]
  · rw [get_bump_other (.inl (by decide))]
    simp (disch := decide) only [get_set_reg, get_set_same]
  · rw [get_bump_other (.inl (by decide))]
    simp (disch := decide) only [get_set_reg, get_set_same]
  · rw [Safety.countedBy, get_bump_same, State.nat, State.nat]
    simp (disch := decide) only [get_set_reg]

/-- The state of a capture that is stopped. -/
def stoppedState (x : Int) : Int := if x = 2 then 3 else if x = 1 then 0 else x

theorem captureStop_reports : (writeCapture n 2 s).2 = accepted ∧ (writeCapture n 2 s).1.out = s.out
    ∧ (writeCapture n 2 s).1.get .captureState n = stoppedState (s.get .captureState n)
    ∧ Apart [Reg.captureState].contains s (writeCapture n 2 s).1 := by
  unfold writeCapture stoppedState
  rw [if_neg (by decide)]
  by_cases h2 : s.get .captureState n = 2
  · rw [if_pos h2, if_pos h2]
    exact ⟨rfl, rfl, get_set_same _ _ _ _, apart_set (Apart.refl s)⟩
  · rw [if_neg h2, if_neg h2]
    by_cases h1 : s.get .captureState n = 1
    · rw [if_pos h1, if_pos h1]
      exact ⟨rfl, rfl, get_set_same _ _ _ _, apart_set (Apart.refl s)⟩
    · rw [if_neg h1, if_neg h1]
      exact ⟨rfl, rfl, rfl, Apart.refl s⟩

end Sys2Proof.Laws

namespace Sys2Proof

open Sys2Proof.Machine Sys2Proof.Laws

/-- Settles O47: posts, controls, windows and captures as they are written. -/
theorem ringsWindowsAndCapturesAreControlled : Obligations.RingsWindowsAndCapturesAreControlled := by
  refine ⟨⟨fun s cl n b ha => ⟨fun h1 h2 => ?_, fun h1 => ?_, fun h1 h2 => ?_⟩, fun s cl n ha => ⟨fun hh => ?_, fun hh => ?_⟩,
    fun s cl n ha hh => ?_, fun s cl n ha => ⟨fun hh => ?_, fun hh => ?_⟩, fun s cl b ha => ?_⟩,
    fun s cl c ha => ?_, fun s cl c ha => ?_, fun s c hp h2 hl => ?_⟩
  · have eff : writeRingPost ((ready s cl).clientClass cl.mac) n b (ready s cl)
        = ((ready s cl).setDescs n (s.descs n ++ (pieces b).map (descriptorOf (s.clientClass cl.mac))), accepted) := by
      unfold writeRingPost
      dsimp only
      rw [ready_descs, ready_class, if_neg (by simpa using h1), if_neg (by omega)]
    obtain ⟨a, he, hack⟩ := write_acked (c := .ringPost cl n b)
      (eff := fun s => writeRingPost (s.clientClass cl.mac) n b s) ha rfl eff (out_of_ready rfl)
    exact ⟨_, he, hack, reply_descs.trans setDescs_descs, requestChanges_serving (apart_iff.2 setDescs_apart)⟩
  · have eff : writeRingPost ((ready s cl).clientClass cl.mac) n b (ready s cl) = (ready s cl, refusedWith 0x07) :=
      if_pos (by simpa using h1)
    obtain ⟨a, he, hab⟩ := write_aborted (c := .ringPost cl n b)
      (eff := fun s => writeRingPost (s.clientClass cl.mac) n b s) ha rfl eff (out_of_ready rfl)
    exact ⟨_, he, hab, reply_descriptors.trans ready_descriptors⟩
  · have eff : writeRingPost ((ready s cl).clientClass cl.mac) n b (ready s cl) = (ready s cl, refusedFor 1) := by
      unfold writeRingPost
      dsimp only
      rw [ready_descs, if_neg (by simpa using h1), if_pos h2]
    obtain ⟨a, he, hab⟩ := write_aborted (c := .ringPost cl n b)
      (eff := fun s => writeRingPost (s.clientClass cl.mac) n b s) ha rfl eff (out_of_ready rfl)
    exact ⟨_, he, hab, reply_descriptors.trans ready_descriptors⟩
  · have eff : writeRingControl n 1 (ready s cl) = ((ready s cl).set .xRingHalted n 0, accepted) := by
      unfold writeRingControl
      rw [if_pos (by rw [ready_flag (by decide), hh]), if_pos rfl]
    obtain ⟨a, he, hack⟩ := write_acked (c := .ringResume cl n) ha rfl eff (out_of_ready rfl)
    refine ⟨_, he, hack, ?_, reply_descriptors.trans ready_descriptors,
      requestChanges_serving (apart_iff.2 (apart_set (Apart.refl _)))⟩
    rw [reply_get (by decide) (by decide), get_set_same]
  · have eff : writeRingControl n 1 (ready s cl) = (ready s cl, refusedWith 0x08) := by
      unfold writeRingControl
      rw [if_neg (by rw [ready_flag (by decide), hh]; decide), if_neg (by simp)]
    obtain ⟨a, he, hab⟩ := write_aborted (c := .ringResume cl n) ha rfl eff (out_of_ready rfl)
    exact ⟨_, he, hab, requestChanges_serving (apart_iff.2 (Apart.refl _))⟩
  · have eff : writeRingControl n 2 (ready s cl)
        = (((ready s cl).setDescs n ((s.descs n).drop 1)).transferClear n, accepted) := by
      unfold writeRingControl
      rw [if_pos (by rw [ready_flag (by decide), hh]), if_neg (by decide), if_pos rfl, ready_descs]
    obtain ⟨a, he, hack⟩ := write_acked (c := .ringSkip cl n) ha rfl eff (out_of_ready transferClear_out)
    exact ⟨_, he, hack, transferCleared_reports⟩
  · have eff : writeRingControl n 3 (ready s cl) = (((ready s cl).setDescs n []).transferClear n, accepted) := by
      unfold writeRingControl
      rw [ready_ringState, ready_flag (by decide)]
      by_cases hf : s.flag .xRingHalted n = true
      · rw [if_pos hf, if_neg (by decide), if_neg (by decide)]
      · rw [if_neg hf, if_pos ⟨rfl, hh.resolve_left hf⟩]
    obtain ⟨a, he, hack⟩ := write_acked (c := .ringFlush cl n) ha rfl eff (out_of_ready transferClear_out)
    exact ⟨_, he, hack, transferCleared_reports⟩
  · have running : s.flag .xRingHalted n = false := by
      by_contra hf
      rw [State.ringStateNow, if_pos (by simpa using hf)] at hh
      omega
    have eff : writeRingControl n 3 (ready s cl) = (ready s cl, refusedWith 0x08) := by
      unfold writeRingControl
      rw [ready_ringState, ready_flag (by decide), if_neg (by simp [running]), if_neg (by omega)]
    obtain ⟨a, he, hab⟩ := write_aborted (c := .ringFlush cl n) ha rfl eff (out_of_ready rfl)
    exact ⟨_, he, hab, reply_descriptors.trans ready_descriptors⟩
  · intro w x
    have sel : ((ready s cl).sel cl .windowSelect).toNat = w := by rw [ready_sel]
    refine ⟨fun h1 => ?_, fun h1 h2 => ?_, fun h1 h2 h3 => ?_⟩
    · have eff : writeWindow ((ready s cl).sel cl .windowSelect).toNat b (ready s cl) = (ready s cl, refusedWith 0x07) := by
        unfold writeWindow
        dsimp only
        rw [if_pos h1]
      obtain ⟨a, he, hab⟩ := write_aborted (c := .windowWrite cl b)
        (eff := fun s => writeWindow (s.sel cl .windowSelect).toNat b s) ha rfl eff (out_of_ready rfl)
      exact ⟨_, he, hab, requestChanges_serving (apart_iff.2 (Apart.refl _))⟩
    · have eff : writeWindow ((ready s cl).sel cl .windowSelect).toNat b (ready s cl) = (ready s cl, refusedWith 0x08) := by
        unfold writeWindow
        dsimp only
        rw [if_neg (by simp [h1]), if_pos (Bool.or_eq_true_iff.2 (.inl h2))]
      obtain ⟨a, he, hab⟩ := write_aborted (c := .windowWrite cl b)
        (eff := fun s => writeWindow (s.sel cl .windowSelect).toNat b s) ha rfl eff (out_of_ready rfl)
      exact ⟨_, he, hab, requestChanges_serving (apart_iff.2 (Apart.refl _))⟩
    · have eff : writeWindow ((ready s cl).sel cl .windowSelect).toNat b (ready s cl)
          = (((ready s cl).setBlob .windowEntry w b).markRings 1 0 (State.windowSide · fun m => bitOf m w), accepted) := by
        rw [sel]
        unfold writeWindow
        dsimp only
        rw [if_neg (by simp [h1]), if_neg]
        simp only [ready_window, Bool.or_eq_true, not_or, Bool.and_eq_true, not_and, List.any_eq_true, List.mem_range, bne_iff_ne]
        refine ⟨by simpa using h2, fun hx => ?_⟩
        rintro ⟨k, hk, ⟨hkw, hkx⟩, hm⟩
        rw [h3 hx k hk hkw hkx] at hm
        cases hm
      obtain ⟨a, he, hack⟩ := write_acked (c := .windowWrite cl b)
        (eff := fun s => writeWindow (s.sel cl .windowSelect).toNat b s) ha rfl eff (out_of_ready markRings_out)
      refine ⟨_, he, hack, ?_⟩
      rw [reply_blob (by decide) (by decide), markRings_blob (by decide), blob_setBlob_same]
  · obtain ⟨a, he, hack⟩ := write_acked (c := .captureArm cl c) ha rfl (if_pos rfl) (out_of_ready captureArm_out)
    obtain ⟨r1, r2, r3, r4, r5⟩ := captureSet_reports (s := ready s cl) (n := c)
    have kept : ∀ r, r ∉ markRegs ++ [.bdapAborts, .mgtFramesTx] → (((ready s cl).captureArm c).reply cl a).get r c
        = (captureSet (ready s cl) c).get r c := fun r hr => by
      rw [reply_get (by rintro rfl; exact hr (by decide)) (by rintro rfl; exact hr (by decide)),
        captureArm_get fun h => hr (List.mem_append_left _ h)]
    refine ⟨_, he, hack, (kept _ (by decide)).trans r1, (kept _ (by decide)).trans r2, ?_, ?_, ?_⟩
    · rw [kept _ (by decide), r3, ready_get (by decide)]
    · rw [kept _ (by decide), r4, ready_get (by decide)]
    · rw [Safety.countedBy, kept _ (by decide), r5, ready_nat (by decide)]
  · obtain ⟨r1, r2, r3, r4⟩ := captureStop_reports (s := ready s cl) (n := c)
    obtain ⟨a, he, hack⟩ := write_acked (c := .captureStop cl c) ha rfl (Prod.ext rfl r1) (out_of_ready r2)
    refine ⟨_, he, hack, ?_, requestChanges_serving (apart_iff.2 (r4.mono fun r hr => (Bool.or_eq_false_iff.1 hr).2))⟩
    rw [reply_get (by decide) (by decide), r3, ready_get (by decide)]
    rfl
  · have eff : s.captureDone c = s.set .captureState c 3 := if_pos ⟨h2, hl⟩
    exact ⟨_, (live_running (f := fun s => s.captureDone c) hp).trans (congrArg _ eff), get_set_same _ _ _ _,
      apart_iff.2 (apart_set (Apart.refl s))⟩

end Sys2Proof

/-! # Messages of a tie link that is not powered (R454, R461)

A heartbeat that such a link brings is not taken, and yet health is judged anew. -/

namespace Sys2Proof.Laws

set_option Elab.async false

open Sys2Proof.Machine

variable {s : State} {m : HeartbeatReading} {bad : Fin 4}

/-- A running device alone, its tie link unpowered, that noted a moment from which health favoured the other module. -/
def healthNoted : State := ({ State.reset with phase := .running } : State).set .xHealthAt 0 1

/-- The heartbeat of a partner in Dormant that stands alone. -/
def idleHeartbeat : HeartbeatReading := ⟨0, false, 0, 0, 0, 0, false, .replicate 4 none, 0⟩

theorem tieTake_unpowered {f : State → State} {n : Nat} (h : s.get .tieState 0 = 0) : s.tieTake n f = s := if_pos (.inl h)

theorem judgeHealth_unfavoured (h : s.healthFavours = false) : s.judgeHealth.get .xHealthAt 0 = 0 := by
  rw [State.judgeHealth, if_pos (by simp [h]), get_set_same]

theorem healthNoted_unpowered : healthNoted.get .tieState 0 = 0 := by decide

theorem healthNoted_unfavoured : healthNoted.healthFavours = false := by decide +kernel

/-- The heartbeat takes the noted moment away. -/
theorem heartbeat_judged : exec (.tieHeartbeatRx idleHeartbeat 0) healthNoted = .next healthNoted.judgeHealth := by
  have he : exec (.tieHeartbeatRx idleHeartbeat 0) healthNoted = .next _ :=
    live_running (f := fun s => (s.tieTake 0 fun s => s.heartbeatTaken idleHeartbeat).judgeHealth) rfl
  rwa [tieTake_unpowered healthNoted_unpowered] at he

end Sys2Proof.Laws

namespace Sys2Proof

open Sys2Proof.Machine Sys2Proof.Laws

/-- Refutes O59: a heartbeat on an unpowered link is not without effect, for health is judged at each one that comes. -/
theorem not_tieMessagesAreTaken : ¬ Obligations.TieMessagesAreTaken := by
  rintro ⟨-, still, -⟩
  have same : healthNoted.judgeHealth = healthNoted := by
    have h := still healthNoted (.tieHeartbeatRx idleHeartbeat 0) 0 (.inl healthNoted_unpowered) (.inl ⟨_, rfl⟩)
    rw [heartbeat_judged] at h
    exact Host.Outcome.next.inj h
  have noted : healthNoted.get .xHealthAt 0 = 1 := get_set_same _ _ _ _
  rw [← same, judgeHealth_unfavoured healthNoted_unfavoured] at noted
  exact absurd noted (by decide)

end Sys2Proof

/-! # Switchovers of a pair (R461 to R464, R467) -/

namespace Sys2Proof.Laws

set_option Elab.async false

open Sys2Proof.Machine

variable {s₀ s t u : State} {cl : Client} {c : Instr} {r : Reg} {i n e k d : Nat} {v : Int} {L : List Reg}
  {K : Reg → Bool}

/-! ## Readiness and leases -/

theorem setReady_get {b : Bool} (hr : r ≠ .pairReady) (he : Safety.eventSide r = false) : (s.setReady b).get r i = s.get r i := by
  unfold State.setReady
  split
  · rfl
  · rw [get_raise he]
    exact get_set_reg _ _ hr

theorem setReady_false : (s.setReady false).get .pairReady 0 = 0 := by
  unfold State.setReady
  split
  · rename_i h
    simpa [State.flag] using h
  · rw [get_raise rfl, State.setFlag, get_set_same]
    rfl

theorem judgeReady_get (hr : r ≠ .pairReady) (he : Safety.eventSide r = false) : s.judgeReady.get r i = s.get r i := by
  unfold State.judgeReady
  split
  · exact setReady_get hr he
  · rfl

theorem silent_judgeReady (he : Aside e) (h : Silent e s₀ s) : Silent e s₀ s.judgeReady := by
  unfold State.judgeReady
  split
  · exact silent_setReady he h
  · exact h

theorem apart_tieSend {o : Output} (h : Apart K s₀ s) (hK : K .tieSent = true) : Apart K s₀ (s.tieSend o) :=
  apart_ite h ((apart_bump h hK).other rfl)

theorem apart_leaseGrant {l : Nat} (h : Apart K s₀ s) (h1 : K .xLease = true) (h2 : K .tieSent = true) :
    Apart K s₀ (s.leaseGrant i l) := apart_tieSend (apart_set h h1) h2

theorem apart_leaseFirst (h : Apart K s₀ s) (h1 : K .xLease = true) (h2 : K .tieSent = true) : Apart K s₀ (s.leaseFirst i) :=
  apart_ite (apart_leaseGrant h h1 h2) h

theorem tieSend_get {o : Output} (h : r ≠ .tieSent) : (s.tieSend o).get r i = s.get r i :=
  (apart_tieSend (K := fun x => decide (x = .tieSent)) (Apart.refl s) (by simp)).regs r i (by simp [h])

/-- A message leaves where a lane is locked. -/
theorem tieSend_sent {o : Output} (h : s.get .tieLanesLocked 0 ≠ 0) : (s.tieSend o).out = s.out ++ [o] := by
  rw [State.tieSend, if_neg h]
  show (s.bump .tieSent 0).out ++ [o] = _
  rw [bump_out]

/-! ## The active role taken -/

/-- The role, its switch output and its state at the moment the active role is taken. -/
def roleTaken (cause : Nat) (s : State) : State :=
  (s.set .pairRole 0 1).switchOut 1 |>.set .xSwitchTick 0 (s.get .xTicks 0 + 1)
    |>.set .pairState 0 (if cause = 3 ∨ cause = 5 then 3 else 2)

/-- Counts, delivery and leases at that moment. -/
def deliveryTaken (gens : List Nat) (s : State) : State :=
  let s := s.each gens fun s i =>
    let l := if s.get .xLeaseNew i = 0 then s.get .xLease i else s.get .xLeaseNew i
    s |>.set .xSlotCount i ((l + 2 ^ 32) % 2 ^ s.countBits) |>.set .xLease i 0 |>.set .xLeaseAck i 0
      |>.set .xLeaseNew i 0 |>.set .xLeaseOut i 0
  let s := s.each carriers fun s c =>
    (s.set .xDeliver c 0).set .xDeliverFrom c
      (if s.get .xDelivery c = 0 then (s.get .carrierBondBsq c + 1) % 2 ^ 24 else s.get .xDelivery c % 2 ^ 24)
  s.emptyTribQueues.each s.txGenerations State.leaseFirst

theorem becomeActive_eq {cause : Nat} : s.becomeActive cause
    = ((((deliveryTaken ((s.listed .xLease).map Prod.fst) (roleTaken cause s)).bump .pairSwitchovers 0).set .pairLastCause 0
      (cause : Nat)).setReady false).raise (evDev 144) [] := rfl

/-- The scope that leaves the registers of the pair. -/
abbrev pairScope : Scope := fun p => match p with
  | .pair => true
  | _ => false

/-- The registers that tell of the role. -/
abbrev roleRegs : List Reg := [.pairRole, .xSwitchOut, .pairState, .pairSwitchovers, .tieState, .tieReceived, .tieCrcErrors]

theorem deliveryTaken_get {gens : List Nat} (hr : r ∈ roleRegs) : (deliveryTaken gens s).get r i = s.get r i := by
  have := fact_false
  unfold deliveryTaken
  extract_lets a b
  have ha : Apart (beyond roleRegs) s a := apart_each (Apart.refl s) fun _ _ ht =>
    apart_set (apart_set (apart_set (apart_set (apart_set ht))))
  have hb : Apart (beyond roleRegs) s b := apart_each ha fun _ _ ht => apart_set (apart_set ht)
  have he : ∀ r i, r ∈ roleRegs → b.emptyTribQueues.get r i = b.get r i := fun r i hr =>
    (kept_emptyTribQueues (κ := pairScope) (Kept.refl b)).get
      (by simp only [List.mem_cons, List.not_mem_nil, or_false] at hr; rcases hr with rfl | rfl | rfl | rfl | rfl | rfl | rfl <;> rfl)
  have hf : Apart (beyond roleRegs) b.emptyTribQueues (b.emptyTribQueues.each b.txGenerations State.leaseFirst) :=
    apart_each (Apart.refl _) fun _ _ ht => apart_leaseFirst ht rfl rfl
  have hb' : beyond roleRegs r = false := by
    rw [beyond, List.contains_iff_mem.2 hr]
    rfl
  rw [hf.regs r i hb', he r i hr, hb.regs r i hb']

theorem silent_deliveryTaken {gens : List Nat} (he : Aside e) (h : Silent e s₀ s) : Silent e s₀ (deliveryTaken gens s) := by
  have := fact_false
  unfold deliveryTaken
  extract_lets a b
  have ha : Silent e s₀ a := silent_each h fun _ _ _ ht => silent_set (silent_set (silent_set (silent_set (silent_set ht))))
  have hb : Silent e s₀ b := silent_each ha fun _ _ _ ht => silent_set (silent_set ht)
  have hq : Silent e s₀ b.emptyTribQueues := silent_each hb fun _ _ _ ht => silent_putTribQueue he ht
  exact silent_each hq fun _ _ _ ht => ht.kept (kept_leaseFirst (Kept.refl _))

/-- What a module that has taken the active role shows. -/
theorem becomeActive_reports {cause : Nat} : (s.becomeActive cause).get .pairRole 0 = 1
    ∧ (s.becomeActive cause).get .xSwitchOut 0 = 1 ∧ (s.becomeActive cause).get .pairLastCause 0 = cause
    ∧ (s.becomeActive cause).get .pairReady 0 = 0
    ∧ (s.becomeActive cause).get .pairState 0 = (if cause = 3 ∨ cause = 5 then 3 else 2)
    ∧ Safety.countedBy s (s.becomeActive cause) .pairSwitchovers 0 1 ∧ Safety.raised s (s.becomeActive cause) (evDev 144) := by
  have he : Aside (evDev 144) := ⟨by decide, by decide⟩
  rw [becomeActive_eq]
  unfold roleTaken State.switchOut
  refine ⟨?_, ?_, ?_, ?_, ?_, ?_, Silent.raised ?_ (by decide)⟩
  · rw [get_raise rfl, setReady_get (by decide) rfl, get_set_reg _ _ (by decide), get_bump_other (.inl (by decide)),
      deliveryTaken_get (by decide)]
    simp (disch := decide) only [get_set_reg, get_set_same]
  · rw [get_raise rfl, setReady_get (by decide) rfl, get_set_reg _ _ (by decide), get_bump_other (.inl (by decide)),
      deliveryTaken_get (by decide)]
    simp (disch := decide) only [get_set_reg, get_set_same]
  · rw [get_raise rfl, setReady_get (by decide) rfl, get_set_same]
  · rw [get_raise rfl, setReady_false]
  · rw [get_raise rfl, setReady_get (by decide) rfl, get_set_reg _ _ (by decide), get_bump_other (.inl (by decide)),
      deliveryTaken_get (by decide), get_set_same]
  · rw [Safety.countedBy, get_raise rfl, setReady_get (by decide) rfl, get_set_reg _ _ (by decide), get_bump_same, State.nat,
      deliveryTaken_get (by decide)]
    simp (disch := decide) only [get_set_reg]
    rfl
  · exact silent_setReady he (silent_set (silent_bump (silent_deliveryTaken he (silent_set (silent_set (silent_set
      (silent_set Silent.refl)))))))

/-! ## The active role left -/

theorem becomeStandby_reports : s.becomeStandby.get .pairRole 0 = 2 ∧ s.becomeStandby.get .xSwitchOut 0 = 0 := by
  unfold State.becomeStandby State.switchOut
  extract_lets a b
  have ha : a.get .pairRole 0 = 2 ∧ a.get .xSwitchOut 0 = 0 := by
    unfold a
    constructor <;> simp (disch := decide) only [get_set_reg, get_set_same]
  have loops : Apart (beyond [.pairRole, .xSwitchOut]) a (b.each carriers fun s c => (s.set .xDeliver c 0).set .xDelivery c 0) :=
    apart_each (apart_each (Apart.refl a) fun _ _ ht => apart_set (apart_set ht)) fun _ _ ht => apart_set (apart_set ht)
  rw [judgeReady_get (by decide) rfl, judgeReady_get (by decide) rfl, loops.regs _ _ rfl, loops.regs _ _ rfl]
  exact ha

/-- Whether Pair stands is read from three registers. -/
theorem inPair_congr (h : ∀ r ∈ [Reg.deviceModeBusy, .xTarget, .deviceModeState], t.get r 0 = s.get r 0) :
    t.inPair = s.inPair := by
  unfold State.inPair State.mode
  rw [h _ (by decide), h _ (by decide), h _ (by decide)]

/-- A module is not active and standby at once. -/
theorem notActive_of_standby (h : s.pairStandby = true) : s.pairActive = false := by
  simp only [State.pairStandby, State.pairActive, Bool.and_eq_true, beq_iff_eq] at *
  simp [h.2]

theorem switchOver_active {cause : Nat} (h : s.pairActive = true) :
    s.switchOver cause = (s.tieSend (.tieSwitch cause)).becomeStandby := by
  have ha : (s.tieSend (.tieSwitch cause)).pairActive = true := by
    rw [State.pairActive, inPair_congr fun r hr => tieSend_get (by rintro rfl; revert hr; decide), tieSend_get (by decide),
      ← State.pairActive, h]
  exact if_pos ha

theorem switchOver_standby {cause : Nat} (h : s.pairStandby = true) :
    s.switchOver cause = (s.tieSend (.tieSwitch cause)).becomeActive cause := by
  have ha : (s.tieSend (.tieSwitch cause)).pairActive = false := by
    rw [State.pairActive, inPair_congr fun r hr => tieSend_get (by rintro rfl; revert hr; decide), tieSend_get (by decide),
      ← State.pairActive, notActive_of_standby h]
  exact if_neg (by simp [ha])

/-- The standby that switches over, as the active role shows it. -/
theorem switchOver_reports {cause : Nat} (h : s.pairStandby = true) : (s.switchOver cause).get .pairRole 0 = 1
    ∧ (s.switchOver cause).get .xSwitchOut 0 = 1 ∧ (s.switchOver cause).get .pairLastCause 0 = cause
    ∧ (s.switchOver cause).get .pairReady 0 = 0
    ∧ (s.switchOver cause).get .pairState 0 = (if cause = 3 ∨ cause = 5 then 3 else 2)
    ∧ Safety.countedBy s (s.switchOver cause) .pairSwitchovers 0 1 ∧ Safety.raised s (s.switchOver cause) (evDev 144) := by
  obtain ⟨r1, r2, r3, r4, r5, r6, r7⟩ := becomeActive_reports (s := s.tieSend (.tieSwitch cause)) (cause := cause)
  rw [switchOver_standby h]
  refine ⟨r1, r2, r3, r4, r5, ?_, raised_of_silent (tieSend_get (by decide)) r7⟩
  rw [Safety.countedBy, State.nat, tieSend_get (by decide), ← State.nat] at r6
  exact r6

/-- The active module that switches over leaves its role. -/
theorem switchOver_leaves {cause : Nat} (h : s.pairActive = true) :
    (s.switchOver cause).get .pairRole 0 = 2 ∧ (s.switchOver cause).get .xSwitchOut 0 = 0 := by
  rw [switchOver_active h]
  exact becomeStandby_reports

theorem switchOver_out {cause : Nat} : s.out <+: (s.switchOver cause).out :=
  have := fact_false
  (kept_switchOver (κ := noScope) (Kept.refl s)).out

/-- The partner is told of a switchover where a lane is locked. -/
theorem switchOver_sent {cause : Nat} (h : s.pairActive = true) (hl : s.get .tieLanesLocked 0 ≠ 0) :
    s.out ++ [.tieSwitch cause] <+: (s.switchOver cause).out := by
  have := fact_false
  rw [switchOver_active h, ← tieSend_sent hl]
  exact (kept_becomeStandby (κ := noScope) (Kept.refl _)).out

/-! ## Requests -/

theorem ready_inPair : (ready s cl).inPair = s.inPair :=
  inPair_congr fun r hr => ready_get (by rintro rfl; revert hr; decide)

theorem ready_pairActive : (ready s cl).pairActive = s.pairActive := by
  rw [State.pairActive, ready_inPair, ready_get (by decide), ← State.pairActive]

theorem ready_pairStandby : (ready s cl).pairStandby = s.pairStandby := by
  rw [State.pairStandby, ready_inPair, ready_get (by decide), ← State.pairStandby]

theorem ready_standbyReady : (ready s cl).standbyReady = s.standbyReady := by
  rw [State.standbyReady, ready_pairStandby, ready_pairActive, ready_flag (by decide), ready_flag (by decide),
    ← State.standbyReady]

/-- A standby's switchover as its client sees it. -/
theorem switched_reports {cause : Nat} {a : Reply} (h : s.pairStandby = true) :
    (((ready s cl).switchOver cause).reply cl a).get .pairRole 0 = 1
    ∧ (((ready s cl).switchOver cause).reply cl a).get .xSwitchOut 0 = 1
    ∧ (((ready s cl).switchOver cause).reply cl a).get .pairLastCause 0 = cause
    ∧ (((ready s cl).switchOver cause).reply cl a).get .pairReady 0 = 0
    ∧ (((ready s cl).switchOver cause).reply cl a).get .pairState 0 = (if cause = 3 ∨ cause = 5 then 3 else 2)
    ∧ Safety.countedBy s (((ready s cl).switchOver cause).reply cl a) .pairSwitchovers 0 1
    ∧ Safety.raised s (((ready s cl).switchOver cause).reply cl a) (evDev 144) := by
  obtain ⟨r1, r2, r3, r4, r5, r6, r7⟩ := switchOver_reports (s := ready s cl) (cause := cause) (ready_pairStandby.trans h)
  rw [Safety.countedBy, ready_nat (by decide)] at r6
  refine ⟨?_, ?_, ?_, ?_, ?_, ?_, raised_of_silent (ready_get (by decide)) (raised_of_count (reply_get (by decide) (by decide)) r7)⟩
  · rw [reply_get (by decide) (by decide), r1]
  · rw [reply_get (by decide) (by decide), r2]
  · rw [reply_get (by decide) (by decide), r3]
  · rw [reply_get (by decide) (by decide), r4]
  · rw [reply_get (by decide) (by decide), r5]
  · rw [Safety.countedBy, reply_get (by decide) (by decide), r6]

/-- An active module's switchover as its client sees it. -/
theorem switched_leaves {cause : Nat} {a : Reply} (h : s.pairActive = true) :
    (((ready s cl).switchOver cause).reply cl a).get .pairRole 0 = 2
    ∧ (((ready s cl).switchOver cause).reply cl a).get .xSwitchOut 0 = 0 := by
  obtain ⟨r1, r2⟩ := switchOver_leaves (s := ready s cl) (cause := cause) (ready_pairActive.trans h)
  rw [reply_get (by decide) (by decide), reply_get (by decide) (by decide)]
  exact ⟨r1, r2⟩

/-! ## Messages of the partner -/

/-- A message noted: counted with the copies discarded, the link up. -/
def tieNoted (bad : Nat) (s : State) : State :=
  let s := ((s.bump .tieReceived 0).bump .tieCrcErrors 0 bad).markTick .xTieMsgAt 0
  if s.tieUp then s else (s.set .tieState 0 2).raiseClear (evDev 145) [] true

theorem tieTake_eq {bad : Nat} {f : State → State} (h1 : s.get .tieState 0 ≠ 0) (h2 : s.get .tieLanesLocked 0 ≠ 0) :
    s.tieTake bad f = (f (tieNoted bad s)).judgeReady := if_neg (by simp [h1, h2])

theorem tieNoted_get {bad : Nat} (hr : r ∉ [Reg.tieReceived, .tieCrcErrors, .xTieMsgAt, .tieState])
    (he : Safety.eventSide r = false) : (tieNoted bad s).get r i = s.get r i := by
  simp only [List.mem_cons, List.not_mem_nil, or_false, not_or] at hr
  obtain ⟨h1, h2, h3, h4⟩ := hr
  have counted : (((s.bump .tieReceived 0).bump .tieCrcErrors 0 bad).markTick .xTieMsgAt 0).get r i = s.get r i := by
    rw [State.markTick, get_set_reg _ _ h3, get_bump_other (.inl h2), get_bump_other (.inl h1)]
  unfold tieNoted
  dsimp only
  split
  · exact counted
  · rw [get_raiseClear he, get_set_reg _ _ h4, counted]

theorem silent_tieNoted {bad : Nat} (he : Aside e) (h145 : e ≠ evDev 145) (h : Silent e s₀ s) : Silent e s₀ (tieNoted bad s) := by
  unfold tieNoted
  have counted : Silent e s₀ (((s.bump .tieReceived 0).bump .tieCrcErrors 0 bad).markTick .xTieMsgAt 0) :=
    silent_set (silent_bump (silent_bump h))
  exact silent_ite counted (silent_raiseClear (silent_set counted) he.miss h145)

theorem tieNoted_inPair {bad : Nat} : (tieNoted bad s).inPair = s.inPair :=
  inPair_congr fun r hr => by
    simp only [List.mem_cons, List.not_mem_nil, or_false] at hr
    rcases hr with rfl | rfl | rfl <;> exact tieNoted_get (by decide) rfl

theorem tieNoted_active {bad : Nat} : (tieNoted bad s).pairActive = s.pairActive := by
  rw [State.pairActive, tieNoted_inPair, tieNoted_get (by decide) rfl, ← State.pairActive]

theorem tieNoted_standby {bad : Nat} : (tieNoted bad s).pairStandby = s.pairStandby := by
  rw [State.pairStandby, tieNoted_inPair, tieNoted_get (by decide) rfl, ← State.pairStandby]

/-- The active role taken on a message. -/
theorem takenActive_reports {bad cause : Nat} :
    ((tieNoted bad s).becomeActive cause).judgeReady.get .pairRole 0 = 1
    ∧ ((tieNoted bad s).becomeActive cause).judgeReady.get .pairLastCause 0 = cause
    ∧ ((tieNoted bad s).becomeActive cause).judgeReady.get .pairState 0 = (if cause = 3 ∨ cause = 5 then 3 else 2)
    ∧ Safety.raised s ((tieNoted bad s).becomeActive cause).judgeReady (evDev 144) := by
  have he : Aside (evDev 144) := ⟨by decide, by decide⟩
  obtain ⟨r1, -, r3, -, r5, -, r7⟩ := becomeActive_reports (s := tieNoted bad s) (cause := cause)
  rw [judgeReady_get (by decide) rfl, judgeReady_get (by decide) rfl, judgeReady_get (by decide) rfl]
  exact ⟨r1, r3, r5, (silent_judgeReady he Silent.refl).raised_after
    (raised_of_silent (silent_tieNoted he (by decide) Silent.refl) r7)⟩

end Sys2Proof.Laws

namespace Sys2Proof

open Sys2Proof.Machine Sys2Proof.Laws

/-- Settles O60: roles change by write, health, request, release and loss. -/
theorem pairRolesSwitch : Obligations.PairRolesSwitch := by
  refine ⟨fun s cl ha => ⟨fun h => ?_, fun h hr => ?_, fun h hr => ?_⟩,
    fun s cl ha => ⟨fun h => ?_, fun h hr => ?_, fun h hr => ?_⟩, fun s => ?_,
    fun s cause bad hp h1 h2 => ⟨fun ht => ?_, fun h3 h4 => ?_⟩, fun s cause bad hp h1 h2 hr => ?_,
    fun s => ⟨fun hp hr h1 h2 h3 h4 => ?_, fun h => ?_⟩⟩
  · have eff : writePairSwitch 1 (ready s cl) = (ready s cl, refusedFor 1) := by
      rw [writePairSwitch, if_pos rfl, if_neg (by simp [ready_standbyReady, h])]
    obtain ⟨a, he, hab⟩ := write_aborted (c := .pairSwitch cl) ha rfl eff (out_of_ready rfl)
    exact ⟨_, he, hab, requestChanges_serving (apart_iff.2 (Apart.refl _))⟩
  · have eff : writePairSwitch 1 (ready s cl) = ((ready s cl).switchOver 1, accepted) := by
      rw [writePairSwitch, if_pos rfl, if_pos (by rw [ready_standbyReady, h])]
    obtain ⟨a, he, hack⟩ := write_acked (c := .pairSwitch cl) ha rfl eff (by rw [← ready_out (cl := cl)]; exact switchOver_out)
    obtain ⟨r1, r2⟩ := switched_leaves (cl := cl) (cause := 1) (a := a) hr
    refine ⟨_, he, hack, r1, r2, fun hl => ?_⟩
    have sent := switchOver_sent (s := ready s cl) (cause := 1) (ready_pairActive.trans hr) (by rwa [ready_get (by decide)])
    rw [ready_out] at sent
    obtain ⟨l, n, ho⟩ := reply_out (s := (ready s cl).switchOver 1) (cl := cl) (a := a)
    exact sent_of_prefix (sent.trans ⟨_, ho.symm⟩) (by simp)
  · have eff : writePairSwitch 1 (ready s cl) = ((ready s cl).switchOver 1, accepted) := by
      rw [writePairSwitch, if_pos rfl, if_pos (by rw [ready_standbyReady, h])]
    obtain ⟨a, he, hack⟩ := write_acked (c := .pairSwitch cl) ha rfl eff (by rw [← ready_out (cl := cl)]; exact switchOver_out)
    obtain ⟨r1, r2, r3, r4, -, r6, r7⟩ := switched_reports (cl := cl) (cause := 1) (a := a) hr
    exact ⟨_, he, hack, r1, r2, r3, r4, r6, r7⟩
  · have eff : writePairSwitch 2 (ready s cl) = (ready s cl, refusedFor 2) := by
      rw [writePairSwitch, if_neg (by decide), if_neg]
      rw [ready_inPair, State.tieUp, ready_get (by decide)]
      rcases h with h | h <;> simp [h]
    obtain ⟨a, he, hab⟩ := write_aborted (c := .pairSwitchForce cl) ha rfl eff (out_of_ready rfl)
    exact ⟨_, he, hab, requestChanges_serving (apart_iff.2 (Apart.refl _))⟩
  · have pair : s.inPair = true := (Bool.and_eq_true_iff.1 hr).1
    have eff : writePairSwitch 2 (ready s cl) = ((ready s cl).switchOver 2, accepted) := by
      rw [writePairSwitch, if_neg (by decide), if_pos (by rw [ready_inPair, State.tieUp, ready_get (by decide)]; simp [pair, h])]
    obtain ⟨a, he, hack⟩ := write_acked (c := .pairSwitchForce cl) ha rfl eff (by rw [← ready_out (cl := cl)]; exact switchOver_out)
    exact ⟨_, he, hack, switched_leaves hr⟩
  · have pair : s.inPair = true := (Bool.and_eq_true_iff.1 hr).1
    have eff : writePairSwitch 2 (ready s cl) = ((ready s cl).switchOver 2, accepted) := by
      rw [writePairSwitch, if_neg (by decide), if_pos (by rw [ready_inPair, State.tieUp, ready_get (by decide)]; simp [pair, h])]
    obtain ⟨a, he, hack⟩ := write_acked (c := .pairSwitchForce cl) ha rfl eff (by rw [← ready_out (cl := cl)]; exact switchOver_out)
    obtain ⟨r1, -, r3, -, r5, r6, r7⟩ := switched_reports (cl := cl) (cause := 2) (a := a) hr
    exact ⟨_, he, hack, r1, r3, r5, r6, r7⟩
  · intro held
    have step : s.phase = .running → s.healthFavours = true → held → exec .healthSwitch s = .next (s.switchOver 4) :=
      fun hp hf hh => by
        refine (live_running (f := fun s => if s.healthFavours && s.get .xHealthAt 0 != 0
          && decide (250000 * s.get .pairHoldOff 0 ≤ s.get .xTicks 0 - (s.get .xHealthAt 0 - 1)) then s.switchOver 4 else s)
          hp).trans ?_
        rw [if_pos (by simp [hf, hh.1, hh.2])]
    refine ⟨fun hp hf hh hr => ⟨_, step hp hf hh, switchOver_leaves hr⟩, fun hp hf hh hr => ?_, fun hn => ?_⟩
    · obtain ⟨r1, -, r3, -, -, -, r7⟩ := switchOver_reports (cause := 4) hr
      exact ⟨_, step hp hf hh, r1, r3, r7⟩
    · refine live_still (f := fun s => if s.healthFavours && s.get .xHealthAt 0 != 0
        && decide (250000 * s.get .pairHoldOff 0 ≤ s.get .xTicks 0 - (s.get .xHealthAt 0 - 1)) then s.switchOver 4 else s)
        (if_neg fun hc => ?_)
      simp only [Bool.and_eq_true, bne_iff_ne, decide_eq_true_eq] at hc
      obtain ⟨⟨hf, h1⟩, h2⟩ := hc
      rcases hn with hn | hn
      · rw [hn] at hf
        cases hf
      · exact hn ⟨h1, h2⟩
  · have he := (live_running (f := fun s => s.tieTake bad fun s => s.switchRequested cause) hp).trans (congrArg _ (tieTake_eq h1 h2))
    have go : ¬((tieNoted bad s).get .xSwitchTick 0 ≠ 0
        ∧ (tieNoted bad s).get .xTicks 0 < (tieNoted bad s).get .xSwitchTick 0 - 1 + 250) := by
      rw [tieNoted_get (by decide) rfl, tieNoted_get (by decide) rfl]
      omega
    refine ⟨_, he, fun hr => ?_, fun hr => ?_⟩
    · have eff : (tieNoted bad s).switchRequested cause = (tieNoted bad s).becomeStandby := by
        rw [State.switchRequested, if_neg go, if_pos (by rw [tieNoted_active, hr])]
      rw [eff, judgeReady_get (by decide) rfl, judgeReady_get (by decide) rfl]
      exact becomeStandby_reports
    · have eff : (tieNoted bad s).switchRequested cause = (tieNoted bad s).becomeActive cause := by
        rw [State.switchRequested, if_neg go, if_neg (by simp [tieNoted_active, notActive_of_standby hr]),
          if_pos (by rw [tieNoted_standby, hr])]
      obtain ⟨r1, r2, -, r4⟩ := takenActive_reports (s := s) (bad := bad) (cause := cause)
      rw [eff]
      exact ⟨r1, r2, r4⟩
  · have he := (live_running (f := fun s => s.tieTake bad fun s => s.switchRequested cause) hp).trans (congrArg _ (tieTake_eq h1 h2))
    have eff : (tieNoted bad s).switchRequested cause = tieNoted bad s := by
      rw [State.switchRequested, if_pos (by rw [tieNoted_get (by decide) rfl, tieNoted_get (by decide) rfl]; exact ⟨h3, h4⟩)]
    rw [eff] at he
    refine ⟨_, he, ?_⟩
    rw [judgeReady_get (by decide) rfl, tieNoted_get (by decide) rfl]
  · have he := (live_running (f := fun s => s.tieTake bad State.released) hp).trans (congrArg _ (tieTake_eq h1 h2))
    have ready : (tieNoted bad s).flag .pairReady 0 = s.flag .pairReady 0 := by
      rw [State.flag, tieNoted_get (by decide) rfl, ← State.flag]
    by_cases hq : s.flag .pairReady 0 = true
    · have eff : (tieNoted bad s).released = (tieNoted bad s).becomeActive 3 := by
        rw [State.released, if_neg (by simp [tieNoted_standby, hr]), if_pos (by rw [ready, hq])]
      rw [eff] at he
      obtain ⟨r1, r2, r3, r4⟩ := takenActive_reports (s := s) (bad := bad) (cause := 3)
      exact ⟨_, he, r3, fun _ => ⟨r1, r2, r4⟩, fun h => absurd hq (by simp [h])⟩
    · have eff : (tieNoted bad s).released = (tieNoted bad s).set .pairState 0 3 := by
        rw [State.released, if_neg (by simp [tieNoted_standby, hr]), if_neg (by rw [ready]; exact hq)]
      rw [eff] at he
      refine ⟨_, he, ?_, fun h => absurd h hq, fun _ => ?_⟩
      · rw [judgeReady_get (by decide) rfl, get_set_same]
      · rw [judgeReady_get (by decide) rfl, get_set_reg _ _ (by decide), tieNoted_get (by decide) rfl]
        exact beq_iff_eq.1 (Bool.and_eq_true_iff.1 hr).2
  · have he : exec .tieLossTakeover s = .next (s.becomeActive 5) := by
      refine (live_running (f := fun s => if s.pairStandby && s.get .tieState 0 == 1 && s.get .pairTieLossPolicy 0 == 1
        && s.usSince .xTieDownAt 0 20 && s.partnerOff then s.becomeActive 5 else s) hp).trans ?_
      rw [if_pos (by simp [hr, h1, h2, h3, h4])]
    obtain ⟨r1, -, r3, r4, r5, -, r7⟩ := becomeActive_reports (s := s) (cause := 5)
    exact ⟨_, he, r1, r5, r3, r4, r7⟩
  · refine live_still (f := fun s => if s.pairStandby && s.get .tieState 0 == 1 && s.get .pairTieLossPolicy 0 == 1
      && s.usSince .xTieDownAt 0 20 && s.partnerOff then s.becomeActive 5 else s) (if_neg ?_)
    rcases h with h | h <;> simp [h]

end Sys2Proof

/-! # Page flips (R221, R222) -/

namespace Sys2Proof.Laws

set_option Elab.async false

open Sys2Proof.Machine

variable {s₀ s t u : State} {cl : Client} {c : Instr} {r : Reg} {i n e k d : Nat} {v : Int} {L : List Reg}
  {K : Reg → Bool}

theorem ready_flipReason {dir mask : Nat} : (ready s cl).flipReason dir mask = s.flipReason dir mask := by
  unfold State.flipReason State.rowsAfter State.tableRows State.slotCount State.oneGroup
  simp (disch := decide) only [ready_listed, ready_bit, ready_nat, ready_get]

/-! ## The flip of one carrier -/

/-- Active rows taken from the standby rows. -/
def rowsTaken (b : Nat) (l : List Nat) (s : State) : State :=
  s.each l fun s r => s.set .tsiActiveRow (b + r) (s.get .tsiStandbyRow (b + r))

theorem rowsTaken_get {b : Nat} {l : List Nat} : (rowsTaken b l s).get .tsiActiveRow (b + i)
    = if i ∈ l then s.get .tsiStandbyRow (b + i) else s.get .tsiActiveRow (b + i) := by
  unfold rowsTaken
  induction l generalizing s with
  | nil => simp [State.each]
  | cons a l ih =>
    rw [each_cons, ih, get_set_reg _ _ (by decide)]
    by_cases h : i ∈ l
    · simp [h]
    · by_cases ha : i = a
      · rw [if_neg h, if_pos (by simp [ha]), ha, get_set_same]
      · rw [if_neg h, if_neg (by simp [h, ha]), get_set_other _ _ fun he => ha (Nat.add_left_cancel (Prod.mk.inj he).2)]

theorem rowsTaken_other {b : Nat} {l : List Nat} (h : r ≠ .tsiActiveRow) : (rowsTaken b l s).get r i = s.get r i :=
  get_each fun _ _ => get_set_reg _ _ h

/-- The pending bit cleared, the flip counted, a transmit flip no longer announced. -/
def flipNoted (dir c : Nat) (s : State) : State :=
  let s := (s.setBit .tsiPending dir c false).bump .tsiFlips dir
  if dir = 0 then (s.set .xTpgTx c (1 - s.get .xTpgTx c)).set .xAnnounce c 0 else s

theorem pageFlip_eq {dir : Nat} : s.pageFlip dir n = (flipNoted dir n (rowsTaken (3840 * dir) (rowsOf n) s)).raise (evCarrier n 11) [] :=
  rfl

theorem flipNoted_get {dir : Nat} (h : r ∉ [Reg.tsiPending, .tsiFlips, .xTpgTx, .xAnnounce]) :
    (flipNoted dir n s).get r i = s.get r i := by
  simp only [List.mem_cons, List.not_mem_nil, or_false, not_or] at h
  obtain ⟨h1, h2, h3, h4⟩ := h
  have hb : ((s.setBit .tsiPending dir n false).bump .tsiFlips dir).get r i = s.get r i := by
    rw [get_bump_other (.inl h2), State.setBit, get_set_reg _ _ h1]
  unfold flipNoted
  dsimp only
  split
  · rw [get_set_reg _ _ h4, get_set_reg _ _ h3, hb]
  · exact hb

theorem flipNoted_pending {dir : Nat} : (flipNoted dir n s).bit .tsiPending dir k
    = if k = n then false else s.bit .tsiPending dir k := by
  have hb : ((s.setBit .tsiPending dir n false).bump .tsiFlips dir).bit .tsiPending dir k
      = if k = n then false else s.bit .tsiPending dir k := by
    rw [State.bit, State.nat, get_bump_other (.inl (by decide)), ← State.nat, ← State.bit, bit_setBit]
    simp
  unfold flipNoted
  dsimp only
  split
  · rw [State.bit, State.nat, get_set_reg _ _ (by decide), get_set_reg _ _ (by decide), ← State.nat, ← State.bit, hb]
  · exact hb

theorem flipNoted_announce {dir : Nat} (h : k ≠ n) : (flipNoted dir n s).get .xAnnounce k = s.get .xAnnounce k := by
  have beside : ∀ (x : State) v, (x.set .xAnnounce n v).get .xAnnounce k = x.get .xAnnounce k := fun x v =>
    get_set_other _ _ fun he => h (Prod.mk.inj he).2
  unfold flipNoted
  dsimp only
  split
  · rw [beside, get_set_reg _ _ (by decide), get_bump_other (.inl (by decide)), State.setBit, get_set_reg _ _ (by decide)]
  · rw [get_bump_other (.inl (by decide)), State.setBit, get_set_reg _ _ (by decide)]

/-! ## A written flip at one carrier -/

/-- What a written flip does to a carrier of its mask. -/
def flipStep (dir : Nat) (s : State) (c : Nat) : State :=
  let s := s.setBit .tsiPending dir c true
  if s.idle c then s.pageFlip dir c else if dir = 0 then s.set .xAnnounce c 1 else s

theorem flipStep_get {dir : Nat} (he : Safety.eventSide r = false)
    (h : r ∉ [Reg.tsiActiveRow, .tsiPending, .tsiFlips, .xTpgTx, .xAnnounce]) : (flipStep dir s n).get r i = s.get r i := by
  simp only [List.mem_cons, List.not_mem_nil, or_false, not_or] at h
  obtain ⟨h0, h1, h2, h3, h4⟩ := h
  have hp : (s.setBit .tsiPending dir n true).get r i = s.get r i := get_set_reg _ _ h1
  unfold flipStep
  dsimp only
  split
  · rw [pageFlip_eq, get_raise he, flipNoted_get (by simp [h1, h2, h3, h4]), rowsTaken_other h0, hp]
  · split
    · rw [get_set_reg _ _ h4, hp]
    · exact hp

theorem setBit_idle {b : Bool} {dir : Nat} : (s.setBit .tsiPending dir n b).idle k = s.idle k := by
  rw [State.idle, State.setBit, get_set_reg _ _ (by decide), ← State.idle]

theorem flipStep_idle {dir : Nat} (h : s.idle n = true) : flipStep dir s n = (s.setBit .tsiPending dir n true).pageFlip dir n :=
  if_pos (setBit_idle.trans h)

/-- A carrier that is not Idle has its flip pending, on transmit with its announce. -/
theorem flipStep_pends {dir : Nat} (h : s.idle n = false) : (flipStep dir s n).bit .tsiPending dir n = true
    ∧ (dir = 0 → (flipStep dir s n).get .xAnnounce n = 1) := by
  have hb : (s.setBit .tsiPending dir n true).bit .tsiPending dir n = true := by
    rw [bit_setBit]
    simp
  have hs : flipStep dir s n = if dir = 0 then (s.setBit .tsiPending dir n true).set .xAnnounce n 1
      else s.setBit .tsiPending dir n true := if_neg (by rw [setBit_idle, h]; decide)
  rw [hs]
  split
  · refine ⟨?_, fun _ => get_set_same _ _ _ _⟩
    rw [State.bit, State.nat, get_set_reg _ _ (by decide), ← State.nat, ← State.bit, hb]
  · rename_i hd
    exact ⟨hb, fun h0 => absurd h0 hd⟩

/-- An Idle carrier has its standby rows active at once, and no other carrier does. -/
theorem flipStep_rows {dir : Nat} : (flipStep dir s n).get .tsiActiveRow (3840 * dir + i)
    = if s.idle n ∧ i ∈ rowsOf n then s.get .tsiStandbyRow (3840 * dir + i) else s.get .tsiActiveRow (3840 * dir + i) := by
  have pend : ∀ r j, r ≠ .tsiPending → (s.setBit .tsiPending dir n true).get r j = s.get r j := fun r j h => get_set_reg _ _ h
  cases h : s.idle n with
  | true =>
    rw [flipStep_idle h, pageFlip_eq, get_raise rfl, flipNoted_get (by decide), rowsTaken_get, pend _ _ (by decide), pend _ _ (by decide)]
    simp
  | false =>
    have hs : flipStep dir s n = if dir = 0 then (s.setBit .tsiPending dir n true).set .xAnnounce n 1
        else s.setBit .tsiPending dir n true := if_neg (by rw [setBit_idle, h]; decide)
    rw [hs, if_neg fun hf : false = true ∧ _ => Bool.false_ne_true hf.1]
    split
    · rw [get_set_reg _ _ (by decide), pend _ _ (by decide)]
    · exact pend _ _ (by decide)

/-- A flip of another carrier leaves a carrier's pending bit and announce. -/
theorem flipStep_beside {dir : Nat} (h : k ≠ n) : (flipStep dir s n).bit .tsiPending dir k = s.bit .tsiPending dir k
    ∧ (flipStep dir s n).get .xAnnounce k = s.get .xAnnounce k := by
  have hb : (s.setBit .tsiPending dir n true).bit .tsiPending dir k = s.bit .tsiPending dir k := by
    rw [bit_setBit]
    simp [h]
  have ha : (s.setBit .tsiPending dir n true).get .xAnnounce k = s.get .xAnnounce k := get_set_reg _ _ (by decide)
  unfold flipStep
  dsimp only
  split
  · rw [pageFlip_eq, State.bit, State.nat, get_raise rfl, get_raise rfl, ← State.nat, ← State.bit, flipNoted_pending, if_neg h,
      flipNoted_announce h, rowsTaken_other (by decide), State.bit, State.nat, rowsTaken_other (by decide), ← State.nat, ← State.bit]
    exact ⟨hb, ha⟩
  · split
    · rw [State.bit, State.nat, get_set_reg _ _ (by decide), ← State.nat, ← State.bit,
        get_set_other _ _ fun he => h (Prod.mk.inj he).2]
      exact ⟨hb, ha⟩
    · exact ⟨hb, ha⟩

theorem rowsOf_disjoint {a b : Nat} (h : i ∈ rowsOf a) (g : i ∈ rowsOf b) : a = b := by
  simp only [rowsOf, List.mem_map, List.mem_range] at h g
  obtain ⟨x, hx, rfl⟩ := h
  obtain ⟨y, hy, he⟩ := g
  omega

/-- A written flip as each carrier of its mask sees it. -/
theorem flips_report {dir : Nat} {l : List Nat} (hl : l.Nodup) (hn : n ∈ l) :
    (s.get .carrierState n ≠ 0 → (s.each l (flipStep dir)).bit .tsiPending dir n = true
      ∧ (dir = 0 → (s.each l (flipStep dir)).get .xAnnounce n = 1))
    ∧ (s.get .carrierState n = 0 → ∀ i ∈ rowsOf n, (s.each l (flipStep dir)).get .tsiActiveRow (3840 * dir + i)
      = s.get .tsiStandbyRow (3840 * dir + i)) := by
  refine ⟨fun h => ?_, fun h i hi => ?_⟩
  · obtain ⟨x, hx, -, hv⟩ := each_view_at (s := s) (f := flipStep dir) (i := n)
      (view := fun t => (t.bit .tsiPending dir n, t.get .xAnnounce n))
      (I := fun t => t.get .carrierState n = s.get .carrierState n) hl hn
      (fun t a _ ha => Prod.ext (flipStep_beside ha.symm).1 (flipStep_beside ha.symm).2) rfl
      fun t a _ ht => (flipStep_get rfl (by decide)).trans ht
    obtain ⟨h1, h2⟩ := Prod.mk.inj hv
    have idle : x.idle n = false := decide_eq_false (hx ▸ h)
    obtain ⟨p1, p2⟩ := flipStep_pends (dir := dir) idle
    exact ⟨h1.trans p1, fun hd => h2.trans (p2 hd)⟩
  · obtain ⟨x, ⟨hx1, hx2⟩, -, hv⟩ := each_view_at (s := s) (f := flipStep dir) (i := n)
      (view := fun t => t.get .tsiActiveRow (3840 * dir + i))
      (I := fun t => t.get .carrierState n = s.get .carrierState n
        ∧ t.get .tsiStandbyRow (3840 * dir + i) = s.get .tsiStandbyRow (3840 * dir + i)) hl hn
      (fun t a _ ha => by
        show (flipStep dir t a).get .tsiActiveRow (3840 * dir + i) = _
        rw [flipStep_rows, if_neg fun h => ha (rowsOf_disjoint h.2 hi)]) ⟨rfl, rfl⟩
      fun t a _ ht => ⟨(flipStep_get rfl (by decide)).trans ht.1, (flipStep_get rfl (by decide)).trans ht.2⟩
    have idle : x.idle n = true := decide_eq_true (hx1.trans h)
    rw [hv, flipStep_rows, if_pos ⟨idle, hi⟩, hx2]

theorem flips_out {dir : Nat} {l : List Nat} : (s.each l (flipStep dir)).out = s.out := each_out fun t c => by
  have taken : ∀ (x : State) l, (rowsTaken (3840 * dir) l x).out = x.out := fun x l => each_out fun _ _ => rfl
  have noted : ∀ x : State, (flipNoted dir c x).out = x.out := fun x => by
    unfold flipNoted
    dsimp only
    split
    · rw [set_out, set_out, bump_out]
      rfl
    · rw [bump_out]
      rfl
  unfold flipStep
  dsimp only
  split
  · rw [pageFlip_eq, raise_out, noted, taken]
    rfl
  · split
    · rw [set_out]
      rfl
    · rfl

/-! ## Flips as their client sees them -/

section

variable {dir : Nat} {m : Fin 65536}

theorem writeFlip_accepted (h : s.flipReason dir (m.val % 4096) = 0) :
    writeFlip dir m.val s = (s.each (carriers.filter (bitOf (m.val % 4096))) (flipStep dir), accepted) := if_neg (by simpa using h)

theorem writeFlip_refused (h : s.flipReason dir (m.val % 4096) ≠ 0) : writeFlip dir m.val s
    = (s.set .tsiRefusal dir (s.flipReason dir (m.val % 4096) : Nat), refusedFor (s.flipReason dir (m.val % 4096))) := if_pos h

theorem masked_mem {k : Fin 12} (h : bitOf m.val k = true) : k.val ∈ carriers.filter (bitOf (m.val % 4096)) := by
  refine List.mem_filter.2 ⟨mem_carriers.2 k.isLt, ?_⟩
  rw [bitOf_eq] at h ⊢
  rw [show 4096 = 2 ^ 12 from rfl, Nat.testBit_mod_two_pow, h]
  simp

variable (ha : Safety.allowed s cl .tsiFlip dir (.int m.val))
  (hx : exec c s = .next (s.serveWrite cl .tsiFlip dir (.int m.val) (writeFlip dir m.val)))
include ha hx

theorem flip_accepted (h : s.flipReason dir (m.val % 4096) = 0) :
    ∃ t, exec c s = .next t ∧ Safety.acked s t cl ∧ ∀ k : Fin 12, bitOf m.val k = true →
      (s.get .carrierState k ≠ 0 → t.bit .tsiPending dir k = true ∧ (dir = 0 → t.get .xAnnounce k = 1))
      ∧ (s.get .carrierState k = 0 → ∀ r ∈ rowsOf k, t.get .tsiActiveRow (3840 * dir + r)
        = s.get .tsiStandbyRow (3840 * dir + r)) := by
  obtain ⟨a, he, hack⟩ := write_acked ha hx (writeFlip_accepted (ready_flipReason.trans h)) (out_of_ready flips_out)
  refine ⟨_, he, hack, fun k hk => ?_⟩
  obtain ⟨h1, h2⟩ := flips_report (s := ready s cl) (dir := dir) (nodup_carriers.filter _) (masked_mem hk)
  rw [ready_get (by decide)] at h1 h2
  refine ⟨fun hs => ?_, fun hs r hr => ?_⟩
  · obtain ⟨p1, p2⟩ := h1 hs
    rw [State.bit, State.nat, reply_get (by decide) (by decide), ← State.nat, ← State.bit, reply_get (by decide) (by decide)]
    exact ⟨p1, p2⟩
  · rw [reply_get (by decide) (by decide), h2 hs r hr, ready_get (by decide)]

theorem flip_refused (h : s.flipReason dir (m.val % 4096) ≠ 0) :
    ∃ t, exec c s = .next t ∧ Safety.aborted s t cl 0x08 ∧ t.get .tsiRefusal dir = s.flipReason dir (m.val % 4096)
      ∧ Safety.requestChanges [.tsiRefusal] s t := by
  have eff := writeFlip_refused (s := ready s cl) (dir := dir) (m := m) (by rwa [ready_flipReason])
  rw [ready_flipReason] at eff
  obtain ⟨a, he, hab⟩ := write_aborted ha hx eff (out_of_ready rfl)
  refine ⟨_, he, hab, ?_, requestChanges_serving (apart_iff.2 (apart_set (Apart.refl _)))⟩
  rw [reply_get (by decide) (by decide), get_set_same]

end

end Sys2Proof.Laws

namespace Sys2Proof

open Sys2Proof.Machine Sys2Proof.Laws

/-- Settles O32: a flip pends, takes force at once in Idle, or is refused with its reason. -/
theorem pageFlipsAreCheckedAndScheduled : Obligations.PageFlipsAreCheckedAndScheduled := by
  refine ⟨fun s cl m ha h => ?_, fun s cl m ha h => ?_, fun s cl m ha h => flip_refused ha rfl h,
    fun s cl m ha h => flip_refused ha rfl h⟩
  · obtain ⟨t, he, hack, hr⟩ := flip_accepted (c := .txPageFlip cl m) ha rfl h
    refine ⟨t, he, hack, fun k hk => ⟨fun hs => ?_, fun hs r hr' => ?_⟩⟩
    · obtain ⟨p1, p2⟩ := (hr k hk).1 hs
      exact ⟨p1, p2 rfl⟩
    · have := (hr k hk).2 hs r hr'
      simpa using this
  · obtain ⟨t, he, hack, hr⟩ := flip_accepted (c := .rxPageFlip cl m) ha rfl h
    exact ⟨t, he, hack, fun k hk => ⟨fun hs => ((hr k hk).1 hs).1, (hr k hk).2⟩⟩

end Sys2Proof

/-! # Defects (R229 to R232) -/

namespace Sys2Proof.Laws

set_option Elab.async false

open Sys2Proof.Machine

variable {s₀ s t u : State} {cl : Client} {c : Instr} {r : Reg} {i n b e k d : Nat} {v : Int} {L : List Reg}
  {K : Reg → Bool}

/-! ## Bits of registers -/

theorem bit_congr (h : t.get r i = s.get r i) : t.bit r i k = s.bit r i k := by
  rw [State.bit, State.nat, h, ← State.nat, ← State.bit]

theorem bit_setBit_same {x : Bool} : (s.setBit r i b x).bit r i b = x := by rw [bit_setBit, if_pos ⟨rfl, rfl⟩]

theorem bit_setBit_other {x : Bool} (h : k ≠ b) : (s.setBit r i b x).bit r i k = s.bit r i k := by
  rw [bit_setBit, if_neg fun he => h he.2]

theorem setBit_get {r' : Reg} {j : Nat} {x : Bool} (h : r' ≠ r) : (s.setBit r i b x).get r' j = s.get r' j := get_set_reg _ _ h

theorem silent_setBit {x : Bool} (h : Silent e s₀ s) (hr : r ≠ .eventCount := by decide) : Silent e s₀ (s.setBit r i b x) :=
  silent_set h hr

/-! ## Raw conditions -/

theorem apart_refreshRaw (h : Apart K s₀ s) (h1 : K .xDefectAt = true) (h2 : K .carrierDefectRaw = true) :
    Apart K s₀ (s.refreshRaw n) :=
  apart_set (apart_each h fun _ _ ht => apart_ite (apart_set ht h1) ht) h2

theorem refreshRaw_get (h1 : r ≠ .xDefectAt) (h2 : r ≠ .carrierDefectRaw) : (s.refreshRaw n).get r i = s.get r i :=
  (apart_refreshRaw (K := fun x => decide (x = .xDefectAt) || decide (x = .carrierDefectRaw)) (Apart.refl s) (by simp)
    (by simp)).regs r i (by simp [h1, h2])

theorem silent_refreshRaw (h : Silent e s₀ s) : Silent e s₀ (s.refreshRaw n) :=
  h.trans (refreshRaw_get (by decide) (by decide))

theorem evCarrier_ne (h : b ≠ k) : evCarrier n b ≠ evCarrier n k := fun he => h (Nat.add_left_cancel he)

/-- What clearing a declared defect writes. -/
abbrev clearRegs : List Reg := [.carrierDefectDeclared, .carrierDefectRaw, .xDefectAt]

theorem defectCleared_eq {detail : List Item} (h : s.bit .carrierDefectDeclared n b = true) : s.defectCleared n b detail
    = ((s.setBit .carrierDefectDeclared n b false).raiseClear (evCarrier n b) detail true).refreshRaw n := if_pos h

theorem defectCleared_get {detail : List Item} (h : r ∉ clearRegs) (he : Safety.eventSide r = false) :
    (s.defectCleared n b detail).get r i = s.get r i := by
  simp only [List.mem_cons, List.not_mem_nil, or_false, not_or] at h
  unfold State.defectCleared
  split
  · rw [refreshRaw_get h.2.2 h.2.1, get_raiseClear he, setBit_get h.1]
  · rfl

theorem defectCleared_declared {detail : List Item} (h : k ≠ b) :
    (s.defectCleared n b detail).bit .carrierDefectDeclared n k = s.bit .carrierDefectDeclared n k := by
  unfold State.defectCleared
  split
  · rw [bit_congr (refreshRaw_get (by decide) (by decide)), bit_congr (get_raiseClear rfl), bit_setBit_other h]
  · rfl

theorem silent_defectCleared {detail : List Item} (h1 : e ≠ evDev 132) (h2 : e ≠ evCarrier n b) (h : Silent e s₀ s) :
    Silent e s₀ (s.defectCleared n b detail) := by
  unfold State.defectCleared
  split
  · exact silent_refreshRaw (silent_raiseClear (silent_setBit h) h1 h2)
  · exact h

theorem line_ne_miss (hn : n < 12) (hb : b < 40) : evCarrier n b ≠ evDev 132 := by
  unfold evCarrier evDev
  omega

/-! ## A defect declared -/

/-- A defect noted as declared, with its sticky bit and its event. -/
def declaredNoted (s : State) (c bit : Nat) (detail : List Item) : State :=
  let s := (s.setBit .carrierDefectDeclared c bit true).setBit .carrierDefectSticky c bit true
  (s.raiseClear (evCarrier c bit) detail false).refreshRaw c

/-- Declared defects that a declared one masks clear. -/
def maskedCleared (c bit : Nat) (s : State) : State :=
  s.each (List.range 10) fun s b => if bitOf (defectMasks bit) b then s.defectCleared c b [] else s

theorem defectDeclared_eq {detail : List Item} (h : s.bit .carrierDefectDeclared n b = false) :
    s.defectDeclared n b detail = maskedCleared n b (declaredNoted s n b detail) := if_neg (by simp [h])

theorem masks_others : bitOf (defectMasks b) b = false := by
  unfold defectMasks
  split_ifs with h0 h1 h2 h7
  · subst h0; decide
  · subst h1; decide
  · subst h2; decide
  · subst h7; decide
  · simp [bitOf]

theorem declaredNoted_reports {detail : List Item} : (declaredNoted s n b detail).bit .carrierDefectDeclared n b = true
    ∧ (declaredNoted s n b detail).bit .carrierDefectSticky n b = true := by
  unfold declaredNoted
  dsimp only
  rw [bit_congr (refreshRaw_get (by decide) (by decide)), bit_congr (refreshRaw_get (by decide) (by decide)),
    bit_congr (get_raiseClear rfl), bit_congr (get_raiseClear rfl), bit_setBit_same, bit_congr (setBit_get (by decide)), bit_setBit_same]
  exact ⟨rfl, rfl⟩

theorem declaredNoted_get {detail : List Item} (h : r ∉ .carrierDefectSticky :: clearRegs) (he : Safety.eventSide r = false) :
    (declaredNoted s n b detail).get r i = s.get r i := by
  simp only [List.mem_cons, List.not_mem_nil, or_false, not_or] at h
  obtain ⟨h1, h2, h3, h4⟩ := h
  unfold declaredNoted
  dsimp only
  rw [refreshRaw_get h4 h3, get_raiseClear he, setBit_get h1, setBit_get h2]

/-- The masking of others leaves the defect that masks. -/
theorem maskedCleared_own : (maskedCleared n b s).bit .carrierDefectDeclared n b = s.bit .carrierDefectDeclared n b :=
  each_view (view := fun t => t.bit .carrierDefectDeclared n b) fun t a _ => by
    split
    · rename_i ha
      exact defectCleared_declared fun he => by
        rw [← he, masks_others] at ha
        cases ha
    · rfl

theorem maskedCleared_get (h : r ∉ clearRegs) (he : Safety.eventSide r = false) : (maskedCleared n b s).get r i = s.get r i :=
  get_each fun t a => by
    split
    · exact defectCleared_get h he
    · rfl

theorem silent_maskedCleared (hn : n < 12) (hb : b < 40) (h : Silent (evCarrier n b) s₀ s) :
    Silent (evCarrier n b) s₀ (maskedCleared n b s) :=
  silent_each h fun t a _ ht => by
    split
    · rename_i ha
      exact silent_defectCleared (line_ne_miss hn hb) (evCarrier_ne fun he => by
        rw [← he, masks_others] at ha
        cases ha) ht
    · exact ht

/-- What a declared defect tells. -/
theorem defectDeclared_reports {detail : List Item} (hn : n < 12) (hb : b < 40) (h : s.bit .carrierDefectDeclared n b = false) :
    (s.defectDeclared n b detail).bit .carrierDefectDeclared n b = true
    ∧ (s.defectDeclared n b detail).bit .carrierDefectSticky n b = true
    ∧ Safety.raised s (s.defectDeclared n b detail) (evCarrier n b) := by
  obtain ⟨r1, r2⟩ := declaredNoted_reports (s := s) (n := n) (b := b) (detail := detail)
  rw [defectDeclared_eq h]
  refine ⟨maskedCleared_own.trans r1, (bit_congr (maskedCleared_get (by decide) rfl)).trans r2, ?_⟩
  refine (silent_maskedCleared hn hb Silent.refl).raised_after ?_
  exact raised_of_count (refreshRaw_get (by decide) (by decide))
    (raised_raiseClear (silent_setBit (silent_setBit Silent.refl)) (line_ne_miss hn hb))

theorem defectDeclared_state {detail : List Item} (h : s.bit .carrierDefectDeclared n b = false) :
    (s.defectDeclared n b detail).get .carrierState i = s.get .carrierState i := by
  rw [defectDeclared_eq h, maskedCleared_get (by decide) rfl, declaredNoted_get (by decide) rfl]

/-! ## CSF -/

theorem csfClear_get (h : r ∉ .tribRxCsf :: clearRegs) (he : Safety.eventSide r = false) : (s.csfClear n).get r i = s.get r i := by
  simp only [List.mem_cons, List.not_mem_nil, or_false, not_or] at h
  obtain ⟨h1, h2, h3, h4⟩ := h
  unfold State.csfClear
  split
  · rfl
  · dsimp only
    rw [refreshRaw_get h4 h3, setBit_get h2]
    exact get_each fun t a => by rw [get_raiseClear he, get_set_reg _ _ h1]

theorem csfClear_declared (h : b ≠ 9) : (s.csfClear n).bit .carrierDefectDeclared n b = s.bit .carrierDefectDeclared n b := by
  unfold State.csfClear
  split
  · rfl
  · dsimp only
    rw [bit_congr (refreshRaw_get (by decide) (by decide)), bit_setBit_other h]
    exact bit_congr (get_each fun t a => by rw [get_raiseClear rfl, get_set_reg _ _ (by decide)])

theorem silent_csfClear (hn : n < 12) (hb : b < 40) (h : b ≠ 9) : Silent (evCarrier n b) s (s.csfClear n) := by
  unfold State.csfClear
  split
  · exact Silent.refl
  · exact silent_refreshRaw (silent_setBit (silent_each Silent.refl fun t a _ ht =>
      silent_raiseClear (silent_set ht) (line_ne_miss hn hb) (evCarrier_ne h)))

/-! ## What an entry to Seeking leaves of defects -/

/-- The scope that leaves event records and defects. -/
abbrev defectScope : Scope := fun p => match p with
  | .events => true
  | .defects => true
  | _ => false

/-- The scope that leaves defects. -/
abbrev defectsScope : Scope := fun p => match p with
  | .defects => true
  | _ => false

/-- An entry to Seeking, but for what it does to the group, the raw conditions and a pending page, leaves events and defects. -/
theorem seekEntry_split : ∃ a, Kept defectScope ((s.noteDrop n v).bondDrop n) a
    ∧ Kept defectScope ((a.defectsSeeking n).pageSettle 1 n) (s.seekEntry n v) := by
  have := fact_false
  unfold State.seekEntry
  extract_lets running a b d e f x y z
  have kb : Kept defectScope a b := kept_listTaken (kept_setCarrierState (Kept.refl a))
  have kd : Kept defectScope a d := kept_ite kb (kept_surveyAll kb)
  have ke : Kept defectScope a e := kept_set kd (hr := rfl)
  have kf : Kept defectScope a f := kept_ite (kept_set (kept_set (kept_bankFinish ke) (hr := rfl)) (hr := rfl)) ke
  refine ⟨f.clearMonitors n, kept_clearMonitors kf, ?_⟩
  change Kept defectScope x _
  clear_value x
  refine kept_polQueue (kept_setRx (kept_catchSettings ?_))
  repeat' first | with_reducible apply kept_set | with_reducible apply kept_setBlob | exact Kept.refl x | exact rfl

theorem toSeeking_split : ∃ a, Kept defectScope ((s.noteDrop n v).bondDrop n) a
    ∧ Kept defectScope ((a.defectsSeeking n).pageSettle 1 n) (s.toSeeking n v) := by
  have := fact_false
  obtain ⟨a, h1, h2⟩ := seekEntry_split (s := s) (n := n) (v := v)
  exact ⟨a, h1, kept_refreshRx (kept_refreshConv (kept_rxFigures (kept_seekState (kept_retune h2))))⟩

theorem toSeeking_defects (h : r ∈ [Reg.carrierDefectDeclared, .carrierDefectSticky]) :
    (s.toSeeking n v).get r i = s.get r i := by
  have := fact_false
  obtain ⟨a, h1, h2⟩ := toSeeking_split (s := s) (n := n) (v := v)
  simp only [List.mem_cons, List.not_mem_nil, or_false] at h
  have part : Safety.part r = .defects := by rcases h with rfl | rfl <;> rfl
  have scope : defectsScope (Safety.part r) = true := by rw [part]
  have both : defectScope (Safety.part r) = true := by rw [part]
  have hd : (s.noteDrop n v).get r i = s.get r i := noteDrop_get (by rcases h with rfl | rfl <;> decide)
  have hs : (a.defectsSeeking n).get r i = a.get r i := by
    unfold State.defectsSeeking
    rw [refreshRaw_get (by rcases h with rfl | rfl <;> decide) (by rcases h with rfl | rfl <;> decide),
      get_set_reg _ _ (by rcases h with rfl | rfl <;> decide), get_set_reg _ _ (by rcases h with rfl | rfl <;> decide)]
  rw [h2.get both, (kept_pageSettle (κ := defectsScope) (Kept.refl _)).get scope, hs, h1.get both,
    (kept_bondDrop (κ := defectsScope) (Kept.refl _)).get scope, hd]

theorem silent_lineDrop (hn : n < 12) (hb : b < 11) (h : Silent (evCarrier n b) s₀ s) :
    Silent (evCarrier n b) s₀ (s.bondDrop n) := by
  have := fact_false
  have miss : evCarrier n b ≠ evDev 132 := line_ne_miss hn (by omega)
  have member : ∀ x : State, Silent (evCarrier n b) s₀ x → Silent (evCarrier n b) s₀ (x.setMember n 1) := fun x hx => by
    unfold State.setMember
    extract_lets was a d
    have hd : Silent (evCarrier n b) s₀ d := silent_ite (silent_set hx) (silent_set (silent_set (silent_set (silent_set hx))))
    exact silent_ite hx (silent_ite (silent_raise (silent_bump hd) miss (evCarrier_ne (by omega)))
      (silent_ite (silent_raise hd miss (evCarrier_ne (by omega))) hd))
  unfold State.bondDrop
  split
  · exact h
  · exact (member _ (silent_set (silent_set h))).kept (kept_refreshGroup (Kept.refl _))

theorem silent_lineSettle (hn : n < 12) (hb : b < 11) (h : Silent (evCarrier n b) s₀ s) :
    Silent (evCarrier n b) s₀ (s.pageSettle d n) := by
  unfold State.pageSettle
  split
  · rw [pageFlip_eq]
    refine silent_raise ?_ (line_ne_miss hn (by omega)) (evCarrier_ne (by omega))
    exact (h.trans (rowsTaken_other (by decide))).trans (flipNoted_get (by decide))
  · exact h

/-- An entry to Seeking reports no defect. -/
theorem silent_lineSeeking (hn : n < 12) (hb : b < 11) (h : Silent (evCarrier n b) s₀ s) :
    Silent (evCarrier n b) s₀ (s.toSeeking n v) := by
  have := fact_false
  obtain ⟨a, h1, h2⟩ := toSeeking_split (s := s) (n := n) (v := v)
  have dropped : Silent (evCarrier n b) s₀ a := (silent_lineDrop hn hb (silent_ite (silent_set h) h)).trans h1.get
  have seeking : Silent (evCarrier n b) s₀ (a.defectsSeeking n) := silent_refreshRaw (silent_set (silent_set dropped))
  exact (silent_lineSettle hn hb seeking).trans h2.get

/-! ## Commands of defects -/

/-- A defect is judged as one of the whole carrier. -/
abbrev whole (s : State) (c b : Nat) : Prop := b ≠ 9 ∨ s.nat .carrierFecProfileInForce c = 2

/-- The defects of the line declared, before the carrier goes to Seeking. -/
def lineDeclared (c bit : Nat) (s : State) : State := (if bitOf (defectMasks bit) 9 then s.csfClear c else s).defectDeclared c bit []

theorem declare_line (hw : whole s n b) (hi : s.get .carrierState n ≠ 0) (hr : s.bit .carrierDefectRaw n b = true)
    (ht : s.defectTime n b k true = true) : s.declare n b k
    = if b ≤ 1 ∧ (lineDeclared n b s).upLine n then (lineDeclared n b s).toSeeking n (b + 1) else lineDeclared n b s := by
  unfold State.declare
  rw [if_neg (by simp [State.idle, hi, hr, ht]), if_neg fun h => hw.elim (fun hb => hb h.1) h.2]
  rfl

/-- A defect of the line declared, as its carrier shows it. -/
theorem lineDeclared_reports (hn : n < 12) (hb : b < 10) (h : s.bit .carrierDefectDeclared n b = false) :
    (lineDeclared n b s).bit .carrierDefectDeclared n b = true ∧ (lineDeclared n b s).bit .carrierDefectSticky n b = true
    ∧ Safety.raised s (lineDeclared n b s) (evCarrier n b)
    ∧ (lineDeclared n b s).get .carrierState n = s.get .carrierState n := by
  unfold lineDeclared
  by_cases hm : bitOf (defectMasks b) 9 = true
  · have h9 : b ≠ 9 := fun he => by
      rw [he, masks_others] at hm
      cases hm
    rw [if_pos hm]
    have hd := (csfClear_declared (s := s) (n := n) h9).trans h
    obtain ⟨r1, r2, r3⟩ := defectDeclared_reports (detail := []) hn (by omega) hd
    exact ⟨r1, r2, raised_of_silent (silent_csfClear hn (by omega) h9) r3,
      (defectDeclared_state hd).trans (csfClear_get (by decide) rfl)⟩
  · rw [if_neg hm]
    obtain ⟨r1, r2, r3⟩ := defectDeclared_reports (detail := []) hn (by omega) h
    exact ⟨r1, r2, r3, defectDeclared_state h⟩

/-- CSF of one tributary noted. -/
def csfNoted (c t : Nat) (s : State) : State :=
  (((s.set .tribRxCsf t 1).setBit .carrierDefectDeclared c 9 true).setBit .carrierDefectSticky c 9 true).raiseClear
    (evCarrier c 9) [u16 t] false

theorem csfNoted_reports (hn : n < 12) (hs : Silent (evCarrier n 9) s₀ s) : (csfNoted n k s).get .tribRxCsf k = 1
    ∧ (csfNoted n k s).bit .carrierDefectDeclared n 9 = true ∧ Safety.raised s₀ (csfNoted n k s) (evCarrier n 9) := by
  unfold csfNoted
  refine ⟨?_, ?_, raised_raiseClear (silent_setBit (silent_setBit (silent_set hs))) (line_ne_miss hn (by decide))⟩
  · rw [get_raiseClear rfl, setBit_get (by decide), setBit_get (by decide), get_set_same]
  · rw [bit_congr (get_raiseClear rfl), bit_congr (setBit_get (by decide)), bit_setBit_same]

/-- The tributaries of a carrier have no CSF before one is declared. -/
def csfFresh (c : Nat) (s : State) : State :=
  if s.bit .carrierDefectDeclared c 9 then s else s.each (s.tribsTouching 1 c) fun s u => s.set .tribRxCsf u 0

theorem silent_csfFresh : Silent e s (csfFresh n s) := silent_ite Silent.refl (silent_each Silent.refl fun _ _ _ ht => silent_set ht)

theorem csfFresh_flag (h : s.flag .tribRxCsf k = false) : (csfFresh n s).flag .tribRxCsf k = false := by
  have h0 : s.get .tribRxCsf k = 0 := by simpa [State.flag] using h
  have hf : (csfFresh n s).get .tribRxCsf k = 0 := by
    unfold csfFresh
    split
    · exact h0
    · rw [each_set (f := fun _ => 0), h0, ite_self]
  rw [State.flag, hf]
  rfl

theorem declare_csf (hp : s.nat .carrierFecProfileInForce n ≠ 2) (hi : s.get .carrierState n ≠ 0)
    (hr : s.bit .carrierDefectRaw n 9 = true) (ht : s.defectTime n 9 k true = true) (hk : k ∈ s.tribsTouching 1 n)
    (h2 : s.get .xCsfRun k = 2) (hf : s.flag .tribRxCsf k = false) : s.declare n 9 k = csfNoted n k (csfFresh n s) := by
  have fresh : ¬(csfFresh n s).flag .tribRxCsf k = true := by simp [csfFresh_flag hf]
  unfold State.declare
  rw [if_neg (by simp [State.idle, hi, hr, ht]), if_pos ⟨rfl, hp⟩, if_neg (by simp [hk, h2])]
  exact if_neg fresh

/-- CSF of one tributary cleared, the carrier's with the last. -/
def csfEnded (c t : Nat) (s : State) : State :=
  let s := (s.set .tribRxCsf t 0).raiseClear (evCarrier c 9) [u16 t] true
  if (s.tribsTouching 1 c).any fun u => s.flag .tribRxCsf u then s else (s.setBit .carrierDefectDeclared c 9 false).refreshRaw c

theorem csfEnded_reports (hn : n < 12) : (csfEnded n k s).get .tribRxCsf k = 0
    ∧ Safety.raised s (csfEnded n k s) (evCarrier n 9)
    ∧ Safety.eventChanges (.tribRxCsf :: clearRegs) s (csfEnded n k s) := by
  have hr : Safety.raised s ((s.set .tribRxCsf k 0).raiseClear (evCarrier n 9) [u16 k] true) (evCarrier n 9) :=
    raised_raiseClear (silent_set Silent.refl) (line_ne_miss hn (by decide))
  have ha : Apart (fun r => Safety.eventSide r || (Reg.tribRxCsf :: clearRegs).contains r) s
      ((s.set .tribRxCsf k 0).raiseClear (evCarrier n 9) [u16 k] true) := apart_raiseClear (wide_events _) (apart_set (Apart.refl s))
  have hg : ((s.set .tribRxCsf k 0).raiseClear (evCarrier n 9) [u16 k] true).get .tribRxCsf k = 0 := by
    rw [get_raiseClear rfl, get_set_same]
  unfold csfEnded
  dsimp only
  generalize (s.set .tribRxCsf k 0).raiseClear (evCarrier n 9) [u16 k] true = x at *
  split
  · exact ⟨hg, hr, apart_iff.2 ha⟩
  · refine ⟨?_, raised_of_count ?_ hr, apart_iff.2 (apart_refreshRaw (apart_set ha rfl) rfl rfl)⟩
    · rw [refreshRaw_get (by decide) (by decide), setBit_get (by decide), hg]
    · rw [refreshRaw_get (by decide) (by decide), setBit_get (by decide)]

end Sys2Proof.Laws

namespace Sys2Proof

open Sys2Proof.Machine Sys2Proof.Laws

/-- Settles O33: defects are declared and cleared, of the carrier or of a tributary. -/
theorem defectsAreDeclaredAndCleared : Obligations.DefectsAreDeclaredAndCleared := by
  refine ⟨fun s c b u hp hw hi hr hd ht => ?_, fun s c b u h => ?_, fun s c b u h => ?_,
    fun s c u hp hi hw hr hk h2 hf ht => ?_, fun s c b u hp hw hd hr ht => ?_, fun s c u hp hw hd hf h2 ht => ?_⟩
  · have he := (live_running (f := fun s => s.declare c b u) hp).trans (congrArg _ (declare_line hw hi hr ht))
    obtain ⟨r1, r2, r3, r4⟩ := lineDeclared_reports c.isLt b.isLt hd
    have up : (lineDeclared c b s).upLine c = s.upLine c := by rw [State.upLine, r4, ← State.upLine]
    by_cases hs : b.val ≤ 1 ∧ (lineDeclared c b s).upLine c
    · rw [if_pos hs] at he
      obtain ⟨p1, p2⟩ := toSeeking_state (s := lineDeclared c b s) (n := c) (v := b.val + 1)
      refine ⟨_, he, (bit_congr (toSeeking_defects (by decide))).trans r1, (bit_congr (toSeeking_defects (by decide))).trans r2,
        (silent_lineSeeking c.isLt (by omega) Silent.refl).raised_after r3, fun _ _ => ⟨p1, p2 ?_⟩, fun h => absurd hs.1 (by omega)⟩
      exact of_decide_eq_true hs.2
    · rw [if_neg hs] at he
      exact ⟨_, he, r1, r2, r3, fun h1 h2 => absurd ⟨h1, up.trans h2⟩ hs, fun _ => r4⟩
  · refine live_still (f := fun s => s.declare c b u) (if_pos ?_)
    rcases h with h | h <;> simp [State.idle, h]
  · exact live_still (f := fun s => s.clearDefect c b u) (if_pos (by simp [h]))
  · have he := (live_running (f := fun s => s.declare c 9 u) hp).trans (congrArg _ (declare_csf hw hi hr ht hk h2 hf))
    exact ⟨_, he, csfNoted_reports c.isLt silent_csfFresh⟩
  · have eff : s.clearDefect c b u = s.defectCleared c b [] := by
      unfold State.clearDefect
      rw [if_neg (by simp [ht]), if_neg fun h => hw.elim (fun hb => hb h.1) h.2, if_neg (by simp [hr])]
    have he := (live_running (f := fun s => s.clearDefect c b u) hp).trans (congrArg _ (eff.trans (defectCleared_eq hd)))
    refine ⟨_, he, ?_, ?_, apart_iff.2 (apart_refreshRaw (apart_raiseClear (wide_events _) (apart_set (Apart.refl s))) rfl rfl)⟩
    · rw [bit_congr (refreshRaw_get (by decide) (by decide)), bit_congr (get_raiseClear rfl), bit_setBit_same]
    · exact raised_of_count (refreshRaw_get (by decide) (by decide))
        (raised_raiseClear (silent_setBit Silent.refl) (line_ne_miss c.isLt (by omega)))
  · have eff : s.clearDefect c 9 u = csfEnded c u s := by
      unfold State.clearDefect
      rw [if_neg (by simp [ht]), if_pos ⟨rfl, hw⟩, if_neg (by simp [hd, hf, h2])]
      rfl
    have he := (live_running (f := fun s => s.clearDefect c 9 u) hp).trans (congrArg _ eff)
    exact ⟨_, he, csfEnded_reports c.isLt⟩

end Sys2Proof

/-! # Keys of the slots (R277, R278, R280) -/

namespace Sys2Proof.Laws

set_option Elab.async false

open Sys2Proof.Machine

variable {s₀ s t u : State} {cl : Client} {c : Instr} {r : Reg} {i n b e k d : Nat} {v : Int} {L : List Reg}
  {K : Reg → Bool}

/-! ## Who uses a slot -/

/-- Two states agree about registers and about which of their units are listed. -/
def Alike (L : List Reg) (s t : State) : Prop := ∀ r ∈ L, t.listed r = s.listed r ∧ ∀ i, t.get r i = s.get r i

theorem Alike.refl (L : List Reg) (s : State) : Alike L s s := fun _ _ => ⟨rfl, fun _ => rfl⟩

theorem Alike.trans (h : Alike L s t) (h' : Alike L t u) : Alike L s u := fun r hr =>
  ⟨(h' r hr).1.trans (h r hr).1, fun i => ((h' r hr).2 i).trans ((h r hr).2 i)⟩

theorem alike_set (h : Alike L s₀ s) (hr : r ∉ L) : Alike L s₀ (s.set r i v) := fun r' hm =>
  have hn : r' ≠ r := fun he => hr (he ▸ hm)
  ⟨(listed_set_other hn).trans (h r' hm).1, fun _ => (get_set_reg _ _ hn).trans ((h r' hm).2 _)⟩

theorem alike_setBlob {x : List Byte} (h : Alike L s₀ s) : Alike L s₀ (s.setBlob r i x) := h

theorem alike_bump (h : Alike L s₀ s) (hr : r ∉ L) : Alike L s₀ (s.bump r i k) := by
  unfold State.bump
  dsimp only
  split
  · exact alike_set h hr
  · exact alike_set h hr

theorem alike_ready (h : Alike L s₀ s) (hr : .bdapRequests ∉ L) : Alike L s₀ (ready s cl) := fun r hm =>
  have hn : r ≠ .bdapRequests := fun he => hr (he ▸ hm)
  ⟨(ready_listed hn).trans (h r hm).1, fun _ => (ready_get hn).trans ((h r hm).2 _)⟩

/-- What tells who uses a slot. -/
abbrev userRegs : List Reg := [.bindInForce, .tsiActiveRow, .xTableLost, .carrierState, .carrierFecProfileInForce]

theorem slotUsers_congr {dir : Nat} (h : Alike userRegs s t) : t.slotUsers dir n = s.slotUsers dir n := by
  have hc : ∀ u, t.tribCarriers dir u = s.tribCarriers dir u := fun u => by
    unfold State.tribCarriers State.tribRows State.pageRows State.tableRows State.flag
    simp only [(h .tsiActiveRow (by decide)).1, (h .xTableLost (by decide)).2]
  have hb : ∀ u, t.binding dir u = s.binding dir u := fun u => by
    unfold State.binding State.working State.flag State.nat
    simp only [hc, (h .bindInForce (by decide)).2, (h .xTableLost (by decide)).2, (h .carrierFecProfileInForce (by decide)).2]
  unfold State.slotUsers State.idle
  simp only [hc, hb, (h .bindInForce (by decide)).1, (h .carrierState (by decide)).2]

theorem slotInUse_congr {dir : Nat} (h : Alike userRegs s t) : t.slotInUse dir n = s.slotInUse dir n := by
  rw [State.slotInUse, slotUsers_congr h, ← State.slotInUse]

/-! ## The registers of a slot -/

theorem eraseReg_get (h : r ∉ [Reg.xSlotReg, .xSlotKid, .xSlotCount, .xSlotWarned, .xLease, .xLeaseAck, .xLeaseNew, .xLeaseOut]) :
    (s.eraseReg n).get r i = s.get r i := by
  simp only [List.mem_cons, List.not_mem_nil, or_false, not_or] at h
  obtain ⟨h1, h2, h3, h4, h5, h6, h7, h8⟩ := h
  unfold State.eraseReg
  rw [get_set_reg _ _ h8, get_set_reg _ _ h7, get_set_reg _ _ h6, get_set_reg _ _ h5, get_set_reg _ _ h4, get_set_reg _ _ h3,
    get_set_reg _ _ h2, setBlob_get, get_set_reg _ _ h1]

theorem alike_eraseReg (h : Alike L s₀ s) (hL : ∀ r ∈ eraseRegs, r ∉ L) : Alike L s₀ (s.eraseReg n) := by
  unfold State.eraseReg
  exact alike_set (alike_set (alike_set (alike_set (alike_set (alike_set (alike_set (alike_setBlob (alike_set h
    (hL _ (by decide)))) (hL _ (by decide))) (hL _ (by decide))) (hL _ (by decide))) (hL _ (by decide)))
    (hL _ (by decide))) (hL _ (by decide))) (hL _ (by decide))

theorem eraseReg_count : (s.eraseReg n).get .xSlotCount i = if i = n then 0 else s.get .xSlotCount i := by
  unfold State.eraseReg
  simp (disch := decide) only [get_set_reg]
  split
  · rename_i h
    rw [h, get_set_same]
  · rename_i h
    rw [get_set_other _ _ fun he => h (Prod.mk.inj he).2, get_set_reg _ _ (by decide), setBlob_get, get_set_reg _ _ (by decide)]

theorem eraseSlot_count : (s.eraseSlot n).get .xSlotCount i = if i / 2 = n then 0 else s.get .xSlotCount i := by
  unfold State.eraseSlot
  simp (disch := decide) only [get_set_reg, eraseReg_count, half_iff, ite_or]

/-! ## A key taken -/

/-- The register of a slot that takes a key. -/
def keyRegister (s : State) (n : Nat) : Nat :=
  if s.regState n 0 == 0 && s.regState n 1 == 0 then 0 else 1 - s.nat .xSlotActive n

theorem keyRegister_le : keyRegister s n ≤ 1 := by
  unfold keyRegister
  split <;> omega

theorem keyRegister_eq : (if s.regState n 0 = 0 ∧ s.regState n 1 = 0 then 0 else 1 - s.nat .xSlotActive n) = keyRegister s n := by
  simp only [keyRegister, Bool.and_eq_true, beq_iff_eq]

/-- A key stored in its register, before it is known which generation it becomes. -/
def keyStored (s : State) (n : Nat) (key : List Byte) (kid count : Nat) : State :=
  let i := 2 * n + keyRegister s n
  (s.eraseReg i).setBlob .xSlotKey i key |>.set .xSlotKid i (kid : Nat)
    |>.set .xSlotCount i (count % 2 ^ s.countBits : Nat) |>.set .xSlotDone n 0 |>.set .xSlotSerial n (s.get .xSlotSerial n + 1)

variable {key : List Byte} {kid count : Nat}

theorem keyStored_alike : Alike userRegs s (keyStored s n key kid count) := by
  unfold keyStored
  exact alike_set (alike_set (alike_set (alike_set (alike_setBlob (alike_eraseReg (Alike.refl _ s) (by decide)))
    (by decide)) (by decide)) (by decide)) (by decide)

theorem keyStored_key : (keyStored s n key kid count).blob .xSlotKey (2 * n + keyRegister s n) = key := by
  unfold keyStored
  simp only [set_blob, blob_setBlob_same]

theorem keyStored_done : (keyStored s n key kid count).get .xSlotDone n = 0 := by
  unfold keyStored
  rw [get_set_reg _ _ (by decide), get_set_same]

/-- The stored key becomes the active generation of a slot not in use. -/
def keyActive (n r : Nat) (s : State) : State :=
  ((s.set .xSlotReg (2 * n + r) 1).set .xSlotActive n (r : Nat) |>.set .xSlotTxPend n 0 |>.set .xSlotRxPend n 0).eraseReg
    (2 * n + (1 - r))

/-- The stored key becomes the next generation of a slot in use. -/
def keyNext (n r : Nat) (tx rx : Bool) (s : State) : State :=
  ((s.set .xSlotReg (2 * n + r) 2).set .xSlotActive n ((1 - r : Nat) : Int)).setFlag .xSlotTxPend n tx |>.setFlag .xSlotRxPend n rx

theorem installKey_eq : s.installKey n key kid count = ((if !(s.slotInUse 0 n || s.slotInUse 1 n)
      then keyActive n (keyRegister s n) (keyStored s n key kid count)
      else keyNext n (keyRegister s n) (s.slotInUse 0 n) (s.slotInUse 1 n) (keyStored s n key kid count)).set .xSlotUnsync n 0).leaseFirst
        (2 * n + keyRegister s n) := by
  rw [← slotInUse_congr (s := s) (dir := 0) (keyStored_alike (key := key) (kid := kid) (count := count)),
    ← slotInUse_congr (s := s) (dir := 1) (keyStored_alike (key := key) (kid := kid) (count := count))]
  rfl

theorem leaseFirst_get (h1 : r ≠ .xLease) (h2 : r ≠ .tieSent) : (s.leaseFirst k).get r i = s.get r i :=
  (apart_leaseFirst (K := fun x => decide (x = .xLease) || decide (x = .tieSent)) (Apart.refl s) (by simp) (by simp)).regs
    r i (by simp [h1, h2])

theorem leaseFirst_blob : (s.leaseFirst k).blob .xSlotKey i = s.blob .xSlotKey i :=
  (apart_leaseFirst (K := fun x => decide (x = .xLease) || decide (x = .tieSent)) (Apart.refl s) (by simp) (by simp)).blobs
    _ i (by simp)

theorem keyActive_reports (hr : k ≤ 1) : (keyActive n k s).get .xSlotReg (2 * n + k) = 1
    ∧ (keyActive n k s).get .xSlotActive n = k ∧ (keyActive n k s).get .xSlotReg (2 * n + (1 - k)) = 0
    ∧ (keyActive n k s).get .xSlotTxPend n = 0 ∧ (keyActive n k s).get .xSlotRxPend n = 0 := by
  unfold keyActive
  refine ⟨?_, ?_, ?_, ?_, ?_⟩
  · rw [eraseReg_reg, if_neg (by omega)]
    simp (disch := decide) only [get_set_reg, get_set_same]
  · rw [eraseReg_get (by decide)]
    simp (disch := decide) only [get_set_reg, get_set_same]
  · rw [eraseReg_reg, if_pos rfl]
  · rw [eraseReg_get (by decide)]
    simp (disch := decide) only [get_set_reg, get_set_same]
  · rw [eraseReg_get (by decide)]
    simp (disch := decide) only [get_set_same]

theorem keyNext_reports {tx rx : Bool} : (keyNext n k tx rx s).get .xSlotReg (2 * n + k) = 2
    ∧ (keyNext n k tx rx s).get .xSlotActive n = (1 - k : Nat) ∧ (keyNext n k tx rx s).get .xSlotTxPend n = ofFlag tx
    ∧ (keyNext n k tx rx s).get .xSlotRxPend n = ofFlag rx := by
  unfold keyNext State.setFlag
  refine ⟨?_, ?_, ?_, ?_⟩ <;> simp (disch := decide) only [get_set_reg, get_set_same]

/-- The key of a load in its register: what both generations have in common. -/
theorem installKey_key : (s.installKey n key kid count).blob .xSlotKey (2 * n + keyRegister s n) = key
    ∧ (s.installKey n key kid count).get .xSlotDone n = 0 := by
  have hr := keyRegister_le (s := s) (n := n)
  rw [installKey_eq, leaseFirst_blob, leaseFirst_get (by decide) (by decide), set_blob, get_set_reg _ _ (by decide)]
  split
  · unfold keyActive
    rw [eraseReg_key, if_neg (by omega), eraseReg_get (by decide)]
    simp (disch := decide) only [set_blob, get_set_reg, keyStored_key, keyStored_done, and_self]
  · unfold keyNext State.setFlag
    simp (disch := decide) only [set_blob, get_set_reg, keyStored_key, keyStored_done, and_self]

theorem installKey_idle (h0 : s.slotInUse 0 n = false) (h1 : s.slotInUse 1 n = false) :
    (s.installKey n key kid count).get .xSlotReg (2 * n + keyRegister s n) = 1
    ∧ (s.installKey n key kid count).get .xSlotActive n = keyRegister s n
    ∧ (s.installKey n key kid count).get .xSlotReg (2 * n + (1 - keyRegister s n)) = 0
    ∧ (s.installKey n key kid count).get .xSlotTxPend n = 0 ∧ (s.installKey n key kid count).get .xSlotRxPend n = 0 := by
  rw [installKey_eq, if_pos (by simp [h0, h1])]
  simp (disch := decide) only [leaseFirst_get, get_set_reg]
  exact keyActive_reports keyRegister_le

theorem installKey_used (h : s.slotInUse 0 n = true ∨ s.slotInUse 1 n = true) :
    (s.installKey n key kid count).get .xSlotReg (2 * n + keyRegister s n) = 2
    ∧ (s.installKey n key kid count).get .xSlotActive n = (1 - keyRegister s n : Nat)
    ∧ (s.installKey n key kid count).get .xSlotTxPend n = ofFlag (s.slotInUse 0 n)
    ∧ (s.installKey n key kid count).get .xSlotRxPend n = ofFlag (s.slotInUse 1 n) := by
  rw [installKey_eq, if_neg (by rcases h with h | h <;> simp [h])]
  simp (disch := decide) only [leaseFirst_get, get_set_reg]
  exact keyNext_reports

/-- What a load writes besides its key, that a client may count on not to change. -/
theorem installKey_counts {r : Reg} (h : r ∉ [Reg.xSlotReg, .xSlotKid, .xSlotCount, .xSlotWarned, .xLease, .xLeaseAck, .xLeaseNew,
    .xLeaseOut, .xSlotDone, .xSlotSerial, .xSlotActive, .xSlotTxPend, .xSlotRxPend, .xSlotUnsync, .tieSent]) :
    (s.installKey n key kid count).get r i = s.get r i := by
  have he := h
  simp only [List.mem_cons, List.not_mem_nil, or_false, not_or] at h
  obtain ⟨h1, h2, h3, h4, h5, h6, h7, h8, h9, h10, h11, h12, h13, h14, h15⟩ := h
  have hx : r ∉ [Reg.xSlotReg, .xSlotKid, .xSlotCount, .xSlotWarned, .xLease, .xLeaseAck, .xLeaseNew, .xLeaseOut] := by
    simp [*]
  have hs : (keyStored s n key kid count).get r i = s.get r i := by
    unfold keyStored
    rw [get_set_reg _ _ h10, get_set_reg _ _ h9, get_set_reg _ _ h3, get_set_reg _ _ h2, setBlob_get, eraseReg_get hx]
  rw [installKey_eq, leaseFirst_get h5 h15, get_set_reg _ _ h14]
  split
  · unfold keyActive
    rw [eraseReg_get hx, get_set_reg _ _ h13, get_set_reg _ _ h12, get_set_reg _ _ h11, get_set_reg _ _ h1, hs]
  · unfold keyNext State.setFlag
    rw [get_set_reg _ _ h13, get_set_reg _ _ h12, get_set_reg _ _ h11, get_set_reg _ _ h1, hs]

/-! ## What the active module tells its partner -/

/-- A load or an erase forwarded over the tie link. -/
def keyForwarded (n : Nat) (d : Option (List Byte)) (s : State) : State :=
  if s.pairActive then (s.bump .xTieSlot 0).tieSend (.tieKey (s.nat .xTieSlot 0) n d) else s

theorem keyForwarded_get {d : Option (List Byte)} (h1 : r ≠ .xTieSlot) (h2 : r ≠ .tieSent) :
    (keyForwarded n d s).get r i = s.get r i := by
  unfold keyForwarded
  split
  · rw [tieSend_get h2, get_bump_other (.inl h1)]
  · rfl

theorem keyForwarded_blob {d : Option (List Byte)} : (keyForwarded n d s).blob .xSlotKey i = s.blob .xSlotKey i :=
  (apart_ite (K := fun x => decide (x = .xTieSlot) || decide (x = .tieSent)) (apart_tieSend (apart_bump (Apart.refl s) (by simp))
    (by simp)) (Apart.refl s)).blobs _ i (by simp)

theorem kept_keyForwarded {κ : Scope} [κ.Out .pair] {d : Option (List Byte)} (h : Kept κ s₀ s) : Kept κ s₀ (keyForwarded n d s) :=
  kept_ite (kept_tieSend (kept_bump h)) h

/-! ## Requests -/

theorem ready_unwrap {x : LoadDescriptor} : (ready s cl).unwrap x = s.unwrap x := by
  rw [State.unwrap, ready_blob, ← State.unwrap]

theorem ready_mode : (ready s cl).mode = s.mode := by
  unfold State.mode
  simp (disch := decide) only [ready_get]

theorem ready_loadCode {d : List Byte} {forwarded : Bool} : (ready s cl).loadCode n d forwarded = s.loadCode n d forwarded := by
  unfold State.loadCode
  simp (disch := decide) only [ready_mode, ready_unwrap, ready_pairStandby, ready_flag, ready_get]

theorem ready_slotInUse {dir : Nat} : (ready s cl).slotInUse dir n = s.slotInUse dir n :=
  slotInUse_congr (alike_ready (Alike.refl _ s) (by decide))

theorem ready_keyRegister : keyRegister (ready s cl) n = keyRegister s n := by
  unfold keyRegister State.regState
  simp (disch := decide) only [ready_nat]

/-- A refused load or erase as its client and its slot see it. -/
theorem slot_refusal {w : WVal} {k p : Nat} {r : Reg} {eff : State → State × Answer} (ha : Safety.allowed s cl r 0 w)
    (hx : exec c s = .next (s.serveWrite cl r 0 w eff))
    (he : eff (ready s cl) = (((ready s cl).set .slotRefusal n (d : Nat)).raise (evDev 86) [], .abort k e p)) :
    ∃ t, exec c s = .next t ∧ Safety.aborted s t cl k ∧ t.get .slotRefusal n = d ∧ Safety.raised s t (evDev 86)
      ∧ Safety.requestChanges [.slotRefusal] s t := by
  obtain ⟨a, hx, hab⟩ := write_aborted ha hx he (out_of_ready (by rw [raise_out]; rfl))
  refine ⟨_, hx, hab, ?_, ?_, requestChanges_serving (apart_iff.2 (apart_raise (wide_requests _) (apart_set (Apart.refl _))))⟩
  · rw [reply_get (by decide) (by decide), get_raise rfl, get_set_same]
  · refine raised_of_count (reply_get (by decide) (by decide)) (raised_raise ?_ (by decide))
    rw [get_set_reg _ _ (by decide), ready_get (by decide)]

/-! ## Switches -/

theorem nextActive_reports : (s.nextActive n).get .xSlotReg (2 * n + s.nat .xSlotActive n) = 0
    ∧ (s.nextActive n).blob .xSlotKey (2 * n + s.nat .xSlotActive n) = []
    ∧ (s.nextActive n).get .xSlotActive n = (1 - s.nat .xSlotActive n : Nat)
    ∧ (s.nextActive n).get .xSlotReg (2 * n + (1 - s.nat .xSlotActive n))
      = (if s.regState n (1 - s.nat .xSlotActive n) = 3 then 3 else 1) := by
  have hr : (s.eraseReg (2 * n + s.nat .xSlotActive n)).regState n (1 - s.nat .xSlotActive n)
      = s.regState n (1 - s.nat .xSlotActive n) := by
    unfold State.regState
    rw [State.nat, eraseReg_reg, if_neg (by omega), ← State.nat]
  unfold State.nextActive
  dsimp only
  refine ⟨?_, ?_, ?_, ?_⟩
  · rw [get_set_other _ _ (by simp; omega), get_set_reg _ _ (by decide), eraseReg_reg, if_pos rfl]
  · rw [set_blob, set_blob, eraseReg_key, if_pos rfl]
  · rw [get_set_reg _ _ (by decide), get_set_same]
  · rw [get_set_same]

/-- A switch that is done: nothing of it is pending any more, and source 81 tells of it. -/
def switchDone (n : Nat) (s : State) : State :=
  (s.set .xSlotTxPend n 0 |>.set .xSlotRxPend n 0 |>.set .xSlotDone n 0).raise (evDev 81) []

theorem switchDone_clear : (switchDone n s).get .xSlotTxPend n = 0 ∧ (switchDone n s).get .xSlotRxPend n = 0
    ∧ (switchDone n s).get .xSlotDone n = 0 := by
  unfold switchDone
  refine ⟨?_, ?_, ?_⟩ <;> rw [get_raise rfl] <;> simp (disch := decide) only [get_set_reg, get_set_same]

theorem switchDone_get (h : r ∉ [Reg.xSlotTxPend, .xSlotRxPend, .xSlotDone]) (he : Safety.eventSide r = false) :
    (switchDone n s).get r i = s.get r i := by
  simp only [List.mem_cons, List.not_mem_nil, or_false, not_or] at h
  obtain ⟨h1, h2, h3⟩ := h
  rw [switchDone, get_raise he, get_set_reg _ _ h3, get_set_reg _ _ h2, get_set_reg _ _ h1]

theorem switchDone_key : (switchDone n s).blob .xSlotKey i = s.blob .xSlotKey i := by
  rw [switchDone, blob_raise rfl, set_blob, set_blob, set_blob]

theorem switchDone_raised (h : Silent (evDev 81) s₀ s) : Safety.raised s₀ (switchDone n s) (evDev 81) := by
  refine raised_raise ?_ (by decide)
  rw [get_set_reg _ _ (by decide), get_set_reg _ _ (by decide), get_set_reg _ _ (by decide)]
  exact h

theorem switchComplete_eq : s.switchComplete n =
    if s.flag .xSlotTxPend n then (if s.txSwitched n then switchDone n (s.nextActive n) else s)
    else if !s.flag .xSlotRxPend n then s
    else if s.flag .xSlotDone n then switchDone n (s.eraseReg (2 * n + (1 - s.nat .xSlotActive n)))
    else if s.slotInUse 1 n then s
    else switchDone n (s.nextActive n) := rfl

theorem silent_eraseReg (h : Silent e s₀ s) : Silent e s₀ (s.eraseReg n) :=
  h.trans (eraseReg_get (by decide))

/-- A slot whose next register has taken over. -/
theorem switched_slot : (switchDone n (s.nextActive n)).get .xSlotReg (2 * n + s.nat .xSlotActive n) = 0
    ∧ (switchDone n (s.nextActive n)).blob .xSlotKey (2 * n + s.nat .xSlotActive n) = []
    ∧ (switchDone n (s.nextActive n)).get .xSlotActive n = (1 - s.nat .xSlotActive n : Nat)
    ∧ (switchDone n (s.nextActive n)).get .xSlotReg (2 * n + (1 - s.nat .xSlotActive n))
      = (if s.regState n (1 - s.nat .xSlotActive n) = 3 then 3 else 1)
    ∧ Safety.raised s (switchDone n (s.nextActive n)) (evDev 81) := by
  obtain ⟨h1, h2, h3, h4⟩ := nextActive_reports (s := s) (n := n)
  refine ⟨(switchDone_get (by decide) rfl).trans h1, switchDone_key.trans h2, (switchDone_get (by decide) rfl).trans h3,
    (switchDone_get (by decide) rfl).trans h4, switchDone_raised ?_⟩
  unfold State.nextActive
  exact silent_set (silent_set (silent_eraseReg Silent.refl))

end Sys2Proof.Laws

namespace Sys2Proof

open Sys2Proof.Machine Sys2Proof.Laws

/-- Settles O39: keys are loaded into their registers, switched to and erased; refusals are kept and reported. -/
theorem keysAreLoadedSwitchedAndErased : Obligations.KeysAreLoadedSwitchedAndErased := by
  have := fact_false
  refine ⟨fun s cl d ha => ?_, fun s cl ha hn hs => ?_, fun s cl ha hn => ?_, fun s n hp => ?_, fun s n => ?_⟩
  · intro n
    refine ⟨fun hc => ?_, fun k hc hk => ?_⟩
    · refine slot_refusal (c := .keyLoad cl d) (e := s.loadCode n d false) (p := 0) ha rfl ?_
      unfold writeSlotLoad
      dsimp only
      rw [ready_loadCode, if_pos hc]
      split
      · rename_i h5
        rw [show s.loadCode n d false = 5 from h5]
        rfl
      · rfl
    · have eff : writeSlotLoad (s.slotSel cl) d (ready s cl) = (keyForwarded n (some d) (((ready s cl).installKey n (k.take 36)
          (leNat ((k.drop 38).take 2)) (loadDescriptor d).count).bump .slotLoads 0), accepted) := by
        unfold writeSlotLoad
        dsimp only
        rw [if_neg (by rw [ready_loadCode]; simpa using hc), State.loadKey, ready_unwrap, hk]
        rfl
      have ho := (kept_keyForwarded (κ := noScope) (n := n) (d := some d) (kept_bump (r := .slotLoads) (i := 0) (n := 1)
        (kept_installKey (n := n) (key := k.take 36) (kid := leNat ((k.drop 38).take 2)) (count := (loadDescriptor d).count)
          (Kept.refl (ready s cl))))).out
      rw [ready_out] at ho
      obtain ⟨a, he, hack⟩ := write_acked (c := .keyLoad cl d) ha rfl eff ho
      obtain ⟨key, done⟩ := installKey_key (s := ready s cl) (n := n) (key := k.take 36) (kid := leNat ((k.drop 38).take 2))
        (count := (loadDescriptor d).count)
      have seen : ∀ r ∈ [Reg.xSlotReg, .xSlotActive, .xSlotTxPend, .xSlotRxPend, .xSlotDone], ∀ i, (State.reply
          (keyForwarded n (some d) (((ready s cl).installKey n (k.take 36) (leNat ((k.drop 38).take 2))
          (loadDescriptor d).count).bump .slotLoads 0)) cl a).get r i = ((ready s cl).installKey n (k.take 36)
          (leNat ((k.drop 38).take 2)) (loadDescriptor d).count).get r i := fun r hr i => by
        simp only [List.mem_cons, List.not_mem_nil, or_false] at hr
        rw [reply_get (by rintro rfl; simp at hr) (by rintro rfl; simp at hr), keyForwarded_get (by rintro rfl; simp at hr)
          (by rintro rfl; simp at hr), get_bump_other (.inl (by rintro rfl; simp at hr))]
      refine ⟨_, he, hack, ?_, ?_⟩
      · refine countedBy_reply (by decide) (by decide) (by decide) ?_
        rw [Safety.countedBy, keyForwarded_get (by decide) (by decide), get_bump_same, State.nat, State.nat,
          installKey_counts (by decide)]
      · dsimp only
        rw [keyRegister_eq, ← ready_keyRegister (cl := cl)]
        refine ⟨?_, ?_, fun h0 h1 => ?_, fun hu => ?_⟩
        · rw [reply_blob (by decide) (by decide), keyForwarded_blob, bump_blob, key]
        · rw [seen _ (by decide), done]
        · simp only [seen _ (by decide : Reg.xSlotReg ∈ _), seen _ (by decide : Reg.xSlotActive ∈ _),
            seen _ (by decide : Reg.xSlotTxPend ∈ _), seen _ (by decide : Reg.xSlotRxPend ∈ _)]
          exact installKey_idle (ready_slotInUse.trans h0) (ready_slotInUse.trans h1)
        · simp only [seen _ (by decide : Reg.xSlotReg ∈ _), seen _ (by decide : Reg.xSlotActive ∈ _),
            seen _ (by decide : Reg.xSlotTxPend ∈ _), seen _ (by decide : Reg.xSlotRxPend ∈ _)]
          rw [← ready_slotInUse (s := s) (cl := cl) (dir := 0), ← ready_slotInUse (s := s) (cl := cl) (dir := 1)] at hu ⊢
          exact installKey_used hu
  · have eff : writeSlotErase (s.slotSel cl) (ready s cl)
        = (keyForwarded (s.slotSel cl) none ((ready s cl).eraseSlot (s.slotSel cl)), accepted) := by
      unfold writeSlotErase
      rw [if_neg (by omega), if_neg (by rw [ready_pairStandby, hs]; decide)]
      rfl
    have ho := (kept_keyForwarded (κ := noScope) (n := s.slotSel cl) (d := none) (kept_eraseSlot (n := s.slotSel cl)
      (Kept.refl (ready s cl)))).out
    rw [ready_out] at ho
    obtain ⟨a, he, hack⟩ := write_acked (c := .keyErase cl) ha rfl eff ho
    have half : ∀ r : Fin 2, (2 * s.slotSel cl + r.val) / 2 = s.slotSel cl := fun r => by omega
    refine ⟨_, he, hack, fun r => ⟨?_, ?_, ?_⟩⟩
    · rw [reply_get (by decide) (by decide), keyForwarded_get (by decide) (by decide), eraseSlot_reg, if_pos (half r)]
    · rw [reply_blob (by decide) (by decide), keyForwarded_blob, eraseSlot_key, if_pos (half r)]
    · rw [reply_get (by decide) (by decide), keyForwarded_get (by decide) (by decide), eraseSlot_count, if_pos (half r)]
  · obtain ⟨t, hx, hab, hr, hs⟩ := slot_refusal (c := .keyErase cl) (n := s.slotSel cl) (k := 0x08) (p := 0)
      (d := if 8191 < s.slotSel cl then 1 else 8) (e := if 8191 < s.slotSel cl then 1 else 8) ha rfl (by
        unfold writeSlotErase
        by_cases h : 8191 < s.slotSel cl
        · rw [if_pos h, if_pos h]
          rfl
        · rw [if_neg h, if_neg h, if_pos (by rw [ready_pairStandby]; exact hn.resolve_left h)]
          rfl)
    exact ⟨t, hx, hab, by rw [hr]; split <;> rfl, hs⟩
  · intro a gone next
    have he := live_running (f := fun s => s.switchComplete n) hp
    have done : s.switchComplete n = switchDone n (s.nextActive n) → next (s.switchComplete n) := fun h => by
      obtain ⟨h1, h2, h3, h4, h5⟩ := switched_slot (s := s) (n := n)
      obtain ⟨c1, c2, c3⟩ := switchDone_clear (s := s.nextActive n) (n := n)
      rw [h]
      exact ⟨⟨h1, h2, c1, c2, c3, h5⟩, h3, h4⟩
    refine ⟨fun ht hs => ⟨_, he, done ?_⟩, fun ht hr hd => ⟨_, he, ?_⟩, fun ht hr hd hu => ⟨_, he, done ?_⟩⟩
    · rw [switchComplete_eq, if_pos ht, if_pos hs]
    · obtain ⟨c1, c2, c3⟩ := switchDone_clear (s := s.eraseReg (2 * n + (1 - a))) (n := n)
      have hc : s.switchComplete n = switchDone n (s.eraseReg (2 * n + (1 - a))) := by
        rw [switchComplete_eq, if_neg (by simp [ht]), if_neg (by simp [hr]), if_pos hd]
      rw [hc]
      refine ⟨⟨?_, ?_, c1, c2, c3, switchDone_raised (silent_eraseReg Silent.refl)⟩, ?_⟩
      · rw [switchDone_get (by decide) rfl, eraseReg_reg, if_pos rfl]
      · rw [switchDone_key, eraseReg_key, if_pos rfl]
      · rw [switchDone_get (by decide) rfl, eraseReg_get (by decide)]
    · rw [switchComplete_eq, if_neg (by simp [ht]), if_neg (by simp [hr]), if_neg (by simp [hd]), if_neg (by simp [hu])]
  · refine ⟨fun ht hs => live_still (f := fun s => s.switchComplete n) ?_, fun ht hr => live_still
      (f := fun s => s.switchComplete n) ?_, fun ht hd hu => live_still (f := fun s => s.switchComplete n) ?_⟩
    · rw [switchComplete_eq, if_pos ht, if_neg (by simp [hs])]
    · rw [switchComplete_eq, if_neg (by simp [ht]), if_pos (by simp [hr])]
    · rw [switchComplete_eq, if_neg (by simp [ht])]
      split
      · rfl
      · simp only [hd, Bool.false_eq_true, if_false]

end Sys2Proof

/-! # Lanes that lose their power, and injections into them (R305, R306, R314) -/

namespace Sys2Proof.Laws

set_option Elab.async false

open Sys2Proof.Machine

/-- A running device in Dormant whose lane 0 is on, with legs found shorted together. -/
def legsTogether : State := (({ State.reset with phase := .running } : State).set .laneState 0 2).set .lanePairFault 0 16

/-- A running device in Dormant with the generator of lane 0 enabled, the lane off. -/
def generatorOff : State := ({ State.reset with phase := .running } : State).set .lanePrbsGen 0 1

/-- A management client of the native station. -/
def anyClient : Client := ⟨0, 0, false, 0⟩

theorem legsTogether_down : legsTogether.lanePowerEval 0 = legsTogether.laneDown 0 := by
  rw [State.lanePowerEval, if_neg (by decide +kernel), if_pos (by decide +kernel)]

/-- Power taken from a lane leaves legs together noted until a test passes (R305). -/
theorem legsTogether_stay : (legsTogether.lanePowerEval 0).get .lanePairFault 0 = 16 := by
  rw [legsTogether_down]
  decide +kernel

theorem generatorOff_allowed : Safety.allowed generatorOff anyClient .lanePrbsInject 0 (.int 1) := by
  unfold Safety.allowed Safety.fresh
  decide +kernel

/-- A lane that is off sends no error. -/
theorem generatorOff_ignores : writeInject 0 (ready generatorOff anyClient) = (ready generatorOff anyClient, accepted) := by
  rw [writeInject, State.inject, ready_laneOn, show generatorOff.laneOn 0 = false by decide +kernel, Bool.and_false,
    if_neg Bool.false_ne_true]

end Sys2Proof.Laws

namespace Sys2Proof

open Sys2Proof.Machine Sys2Proof.Laws

/-- Refutes O42: a lane that loses its power keeps the fault of legs found shorted together (R305). -/
theorem not_lanesComeUpInSteps : ¬ Obligations.LanesComeUpInSteps := by
  rintro ⟨-, -, -, power, -⟩
  obtain ⟨t, he, -, -, down⟩ := power legsTogether 0 rfl
  obtain ⟨-, -, fault⟩ := down (by decide +kernel) (by decide +kernel)
  have hx : exec (.laneDeepLowPower 0) legsTogether = .next (legsTogether.lanePowerEval 0) :=
    live_running (f := fun s => s.lanePowerEval 0) rfl
  rw [hx] at he
  rw [← Host.Outcome.next.inj he] at fault
  exact absurd (legsTogether_stay.symm.trans fault) (by decide)

/-- Refutes O44: an injection asked of a generator whose lane is off is acknowledged and counts nothing (R314). -/
theorem not_lanePatternsAreCheckedAndInjected : ¬ Obligations.LanePatternsAreCheckedAndInjected := by
  rintro ⟨-, -, inject, -⟩
  obtain ⟨t, he, -, counted, -⟩ := inject generatorOff anyClient 0 generatorOff_allowed
  obtain ⟨a, hs, -⟩ := write_acked (c := .prbsInject anyClient 0) generatorOff_allowed rfl
    (show writeInject 0 (ready generatorOff anyClient) = (ready generatorOff anyClient, accepted) from generatorOff_ignores)
    (out_of_ready rfl)
  rw [he] at hs
  have h := (counted (by decide +kernel)).1
  rw [Host.Outcome.next.inj hs, Safety.countedBy, reply_get (by decide) (by decide), ready_get (by decide)] at h
  exact absurd h (by decide +kernel)

end Sys2Proof

/-! # Slips of a carrier whose counter stands outside its type (R167) -/

namespace Sys2Proof.Laws

set_option Elab.async false

open Sys2Proof.Machine

/-- A running device with carrier 0 Locked and no symbols held, its counter of resolved slips below 0. -/
def slipsBelow : State :=
  (({ State.reset with phase := .running } : State).set .carrierState 0 3).set .carrierCrSlipsResolved 0 (-1)

/-- A known-symbol group of no symbols leaves the counter of resolved slips. -/
theorem slipsBelow_stay : (slipsBelow.pilotCheck 0 0).get .carrierCrSlipsResolved 0 = -1 := by
  decide +kernel

end Sys2Proof.Laws

namespace Sys2Proof

open Sys2Proof.Machine Sys2Proof.Laws

/-- Refutes O26: a group that resolves no slip leaves the counter of resolved slips as it is, also where that stands outside
its type, so it is not the remainder that counting by 0 would give. -/
theorem not_receiveTapsAdaptAndSlipsResolve : ¬ Obligations.ReceiveTapsAdaptAndSlipsResolve := by
  rintro ⟨-, -, group, -⟩
  obtain ⟨t, he, -, -, -, -, -, -, up, -⟩ := group slipsBelow 0 0 0 rfl (by decide +kernel)
  obtain ⟨-, counted, -⟩ := up (by decide +kernel)
  have hx : exec (.pilotGroupCheck 0 0 0) slipsBelow = .next (slipsBelow.pilotCheck 0 0) :=
    live_running (f := fun s => s.pilotCheck 0 0) rfl
  rw [hx] at he
  rw [← Host.Outcome.next.inj he] at counted
  have below : (-1 : Int) = (_ : Nat) := slipsBelow_stay.symm.trans counted
  omega

end Sys2Proof

/-! # Reads answer their value and take their effect (R344, R347, R397, R407, R442) -/

namespace Sys2Proof.Laws

set_option Elab.async false

open Sys2Proof.Machine

variable {s₀ s t u : State} {cl : Client} {c : Instr} {r : Reg} {i n b e k d : Nat} {v : Int} {L : List Reg}
  {K : Reg → Bool}

/-! ## READ and READ_BLOCK -/

/-- A READ that its checks refuse. -/
theorem bdapRead_refused {ix : Fin 65536} {sub : Fin 256} {k d p : Nat} (hf : Safety.fresh s cl)
    (hfind : findObject cl ix sub = .ok (r, i)) (hc : (ready s cl).checkRead cl r = some (.abort k d p)) :
    exec (.bdapRead cl ix sub) s = .next ((ready s cl).reply cl (.abort ix sub k d p)) := by
  refine congrArg Host.Outcome.next (serve_aborted (u := ready s cl) hf ?_)
  simp only [hfind, hc]

/-- A READ of a value that does not fit a message. -/
theorem bdapRead_long {ix : Fin 65536} {sub : Fin 256} (hf : Safety.fresh s cl)
    (hfind : findObject cl ix sub = .ok (r, i)) (hc : (ready s cl).checkRead cl r = none)
    (hl : 1388 < ((ready s cl).valueBytes cl r ((ready s cl).unitOf cl r i)).length) :
    exec (.bdapRead cl ix sub) s = .next ((ready s cl).reply cl (.abort ix sub 0x0B 0 0)) := by
  refine congrArg Host.Outcome.next (serve_aborted (u := ready s cl) hf ?_)
  simp only [hfind, hc, hl, if_true]
  rfl

/-- A READ_BLOCK from an offset within the value answers the rest of the value. -/
theorem bdapReadBlock_answers {ix : Fin 65536} {sub : Fin 256} {offset : Fin 4294967296} {max : Fin 65536}
    {x : List Byte × State} (hf : Safety.fresh s cl) (hfind : findObject cl ix sub = .ok (r, i))
    (hw : r.wireAt i = .domain) (hc : (ready s cl).checkRead cl r = none)
    (hx : (ready s cl).blockValue cl r ((ready s cl).unitOf cl r i) offset = x) (hl : offset.val ≤ x.1.length) :
    exec (.bdapReadBlock cl ix sub offset max) s = .next (x.2.reply cl (.ack (leBytes 2 ix ++ leBytes 1 sub ++ [0]
      ++ leBytes 4 x.1.length ++ leBytes 4 offset ++ (x.1.drop offset).take (min max 1388)))) := by
  refine congrArg Host.Outcome.next (serve_acked (u := x.2) hf ?_)
  simp only [hfind, hw, hc, hx, ne_eq, not_true, if_false, blockAnswer, if_neg hl.not_gt]

/-! ## What reading does -/

/-- Keeping a view of its source changes neither registers nor what was sent. -/
theorem blockValue_apart : Apart K s (s.blockValue cl r i n).2 ∧ (s.blockValue cl r i n).2.out = s.out := by
  unfold State.blockValue State.filterRead
  split
  · split
    · exact ⟨(Apart.refl s).other rfl, rfl⟩
    · exact ⟨Apart.refl s, rfl⟩
  · split
    · exact ⟨(Apart.refl s).other rfl, rfl⟩
    · exact ⟨Apart.refl s, rfl⟩
  · exact ⟨Apart.refl s, rfl⟩

/-- Reading a housekeeping result changes that register alone. -/
theorem apart_hkRead (h : Apart K s₀ s) (hr : K r = true) : Apart K s₀ (s.hkRead r i) :=
  apart_set (apart_set h hr) hr

theorem hkRead_out : (s.hkRead r i).out = s.out := rfl

theorem hkRead_bits : (s.hkRead r i).bit r i 30 = false ∧ (s.hkRead r i).bit r i 26 = false :=
  ⟨(bit_setBit_other (by decide)).trans bit_setBit_same, bit_setBit_same⟩

/-- Beside removing a timestamp, a READ changes at most the housekeeping result that it reads. -/
theorem apart_readEffect (h : Apart K s₀ s) (hm : K .monResult = true) (hi : K .hkInjResult = true) :
    Apart K s₀ (s.readEffect r i) := by
  unfold State.readEffect
  split
  · exact h.other rfl
  · exact apart_hkRead h hm
  · exact apart_hkRead h hi
  · exact h

theorem readEffect_out : (s.readEffect r i).out = s.out := by
  unfold State.readEffect
  split <;> rfl

/-! ## What a source holds -/

/-- The block keeps a view of a client's source. -/
def Known (s : State) (cl : Client) : Prop := cl.mac ∈ s.sources.map Source.mac

theorem Known.found (h : Known s cl) : ∃ x, s.sources.find? (fun y => y.mac == cl.mac) = some x := by
  obtain ⟨x, hx, hm⟩ := List.mem_map.1 h
  exact Option.isSome_iff_exists.1 (List.find?_isSome.2 ⟨x, hx, by simp [hm]⟩)

theorem setView_known {w : View} (h : Known s cl) : Known (s.setView cl w) cl := by
  obtain ⟨x, hx, hm⟩ := List.mem_map.1 h
  refine List.mem_map.2 ⟨_, List.mem_map_of_mem hx, ?_⟩
  rw [if_pos hm]
  split <;> exact hm

/-- The source of a request that was taken is known. -/
theorem ready_known : Known (ready s cl) cl := by
  have hh : Known (s.hear cl.mac) cl :=
    List.mem_map.2 ⟨_, List.mem_of_find?_eq_some (find_hear cl.mac), by simpa using List.find?_some (find_hear cl.mac)⟩
  unfold ready State.dequeue
  split
  · exact hh
  · obtain ⟨a, w, hb⟩ := bump_form (s := (s.hear cl.mac).setView cl
      { (s.hear cl.mac).view cl with recent := _ }) .bdapRequests 0 1
    unfold State.take
    rw [hb]
    exact setView_known hh

/-- Sending a reply leaves what its source holds of the counter filter. -/
theorem reply_held {a : Reply} (h : Known s cl) : ((s.reply cl a).view cl).heldFilter = (s.view cl).heldFilter := by
  obtain ⟨x, h⟩ := h.found
  unfold State.reply
  refine (each_view (view := fun t => (t.view cl).heldFilter) fun t p _ => ?_).trans ?_
  · show (State.view (State.bump _ _ _ _) cl).heldFilter = _
    rw [bump_view]
    rfl
  · split
    · rw [bump_view, setView_view h]
    · rw [setView_view h]

/-- COUNTER_FILTER_READ answers the result that it fixes. -/
theorem counterFilterRead_answers {max : Fin 65536} {v : List Byte} (hf : Safety.fresh s cl)
    (hc : (ready s cl).checkRead cl .filterResult = none)
    (hv : (ready s cl).filterResult ((ready s cl).filterOf cl) = v) :
    exec (.counterFilterRead cl max) s
      = .next (((ready s cl).setView cl { (ready s cl).view cl with heldFilter := v }).reply cl
        (.ack (leBytes 2 (addressOf .filterResult 0).1 ++ leBytes 1 (addressOf .filterResult 0).2
          ++ [0] ++ leBytes 4 v.length ++ leBytes 4 0 ++ v.take (min max 1388)))) := by
  refine congrArg Host.Outcome.next
    (serve_acked (u := (ready s cl).setView cl { (ready s cl).view cl with heldFilter := v }) hf ?_)
  simp only [hc, State.filterRead, hv, if_true, blockAnswer, Nat.not_lt_zero, if_false, List.drop_zero]
  rfl

/-! ## Reads by their own command -/

/-- A READ of a short value by its own command. -/
theorem serveRead_answers {value : State → List Byte} {eff : State → State} {a : Nat × Nat} {l : List Byte}
    (hf : Safety.fresh s cl) (ha : clientAddress cl r i = some a) (hc : (ready s cl).checkRead cl r = none)
    (hv : value (ready s cl) = l) (hl : l.length ≤ 1388) :
    s.serveRead cl r i value eff = (eff (ready s cl)).reply cl
      (.ack (leBytes 2 a.1 ++ leBytes 1 a.2 ++ leBytes 1 (r.wireAt i).code ++ leBytes 2 l.length ++ l)) := by
  unfold State.serveRead
  rw [ha]
  refine serve_acked hf ?_
  simp only [hc, hv, readAnswer, if_neg hl.not_gt]

theorem ready_tsQueue : (ready s cl).tsQueue = s.tsQueue := by
  obtain ⟨a, w, q, l, h⟩ := ready_form (s := s) (cl := cl)
  rw [h]

theorem reply_tsQueue {a : Reply} : (s.reply cl a).tsQueue = s.tsQueue := by
  obtain ⟨b, w, l, o, h⟩ := reply_form (s := s) (cl := cl) a
  rw [h]

/-- Every client may read what has access to reads and no counters behind it. -/
theorem checkRead_none (ha : r.access ≠ .wo) (hd : s.counterDenied cl r = false) : s.checkRead cl r = none := by
  rw [State.checkRead, if_neg ha, hd]
  rfl

theorem tsQueuePop_answers {a : Nat × Nat} (hf : Safety.fresh s cl) (ha : clientAddress cl .tsqPop 0 = some a) :
    exec (.tsQueuePop cl) s = .next ((ready s cl).tsqDrop.reply cl (.ack (leBytes 2 a.1 ++ leBytes 1 a.2 ++ [11]
      ++ leBytes 2 16 ++ leBytes 16 (s.tsQueue.headD 0 : Nat)))) := by
  have hl : (leBytes 16 (s.tsQueue.headD 0 : Nat)).length = 16 := length_leBytes _ _
  have hv : (ready s cl).tsqOldest = leBytes 16 (s.tsQueue.headD 0 : Nat) := by rw [State.tsqOldest, ready_tsQueue]
  refine congrArg Host.Outcome.next
    ((serveRead_answers hf ha (checkRead_none (by decide) rfl) hv (by omega)).trans ?_)
  rw [hl]
  rfl

/-- A READ of a housekeeping result by its own command. -/
theorem hkResult_answers {a : Nat × Nat} (hr : r = .monResult ∨ r = .hkInjResult) (hf : Safety.fresh s cl)
    (ha : clientAddress cl r i = some a) :
    s.serveRead cl r i (fun s => leBytes 4 (s.get r i)) (fun s => s.hkRead r i)
      = ((ready s cl).hkRead r i).reply cl (.ack (leBytes 2 a.1 ++ leBytes 1 a.2 ++ [4] ++ leBytes 2 4
        ++ leBytes 4 (s.get r i))) := by
  have hl : (leBytes 4 (s.get r i)).length = 4 := length_leBytes _ _
  have hq : r ≠ .bdapRequests := by rcases hr with rfl | rfl <;> decide
  have hw : r.wireAt i = .u32 := by rcases hr with rfl | rfl <;> rfl
  have hk : leBytes 1 Wire.u32.code = [4] := by decide
  have hc : (ready s cl).checkRead cl r = none := by
    rcases hr with rfl | rfl <;> exact checkRead_none (by decide) rfl
  have hv : leBytes 4 ((ready s cl).get r i) = leBytes 4 (s.get r i) := by rw [ready_get hq]
  rw [serveRead_answers hf ha hc hv (by omega), hl, hw, hk]
  rfl

theorem hkRead_replied {a : Reply} (hr : r = .monResult ∨ r = .hkInjResult) :
    (((ready s cl).hkRead r i).reply cl a).bit r i 30 = false ∧ (((ready s cl).hkRead r i).reply cl a).bit r i 26 = false
    ∧ Safety.replied s (((ready s cl).hkRead r i).reply cl a) cl a
    ∧ Safety.requestChanges [r] s (((ready s cl).hkRead r i).reply cl a) := by
  have hg : (((ready s cl).hkRead r i).reply cl a).get r i = ((ready s cl).hkRead r i).get r i := by
    rcases hr with rfl | rfl <;> exact reply_get (by decide) (by decide)
  have hb : ∀ n, (((ready s cl).hkRead r i).reply cl a).bit r i n = ((ready s cl).hkRead r i).bit r i n := fun n => by
    rw [State.bit, State.nat, hg, ← State.nat, ← State.bit]
  obtain ⟨h30, h26⟩ := hkRead_bits (s := ready s cl) (r := r) (i := i)
  exact ⟨(hb 30).trans h30, (hb 26).trans h26, replied_reply (by rw [hkRead_out, ready_out]),
    apart_iff.2 (apart_reply (apart_hkRead (apart_ready rfl) (by simp)) rfl rfl)⟩

end Sys2Proof.Laws

namespace Sys2Proof

open Sys2Proof.Machine Sys2Proof.Laws

/-- Settles O49: a request that is taken runs its read on the state that has taken it; reading a housekeeping result or the
timestamp queue, and holding a filter result, are all that a read does. -/
theorem readsAnswerValuesAndTakeEffect : Obligations.ReadsAnswerValuesAndTakeEffect := by
  refine ⟨fun s cl ix sub r i hf hfind => ⟨fun k d p hc => ?_, fun hc hl => ?_, fun hc hl => ?_⟩,
    fun s cl ix sub offset max r i hf hfind hw => ?_, fun s cl max hf => ?_, fun s cl a hf ha => ?_,
    fun s cl n a hf => ?_⟩
  · exact ⟨_, bdapRead_refused hf hfind hc, replied_reply (by rw [ready_out]), requestChanges_reply_ready⟩
  · exact ⟨_, bdapRead_long hf hfind hc hl, ⟨_, _, _, _, replied_reply (by rw [ready_out])⟩,
      requestChanges_reply_ready⟩
  · exact ⟨_, bdapRead_answers hf hfind hc rfl hl, replied_reply (by rw [readEffect_out, ready_out]),
      apart_iff.2 (apart_reply (apart_readEffect (apart_ready rfl) rfl rfl) rfl rfl)⟩
  · intro u v hc hl
    have hx := blockValue_apart (K := Safety.requestSide) (s := ready s cl) (cl := cl) (r := r)
      (i := (ready s cl).unitOf cl r i) (n := offset)
    exact ⟨_, bdapReadBlock_answers hf hfind hw hc rfl hl, replied_reply (by rw [hx.2, ready_out]),
      apart_iff.2 (apart_reply (((apart_ready rfl).trans hx.1).mono fun r hr => by simp_all) rfl rfl)⟩
  · intro u v hc
    refine ⟨_, counterFilterRead_answers hf hc rfl, ?_, replied_reply ?_, apart_iff.2 (apart_reply ?_ rfl rfl)⟩
    · obtain ⟨x, hx⟩ := (ready_known (s := s) (cl := cl)).found
      rw [reply_held (setView_known ready_known), setView_view hx]
      rfl
    · exact (ready_out ▸ List.prefix_rfl : s.out <+: (ready s cl).out)
    · exact (apart_ready rfl).other rfl
  · have hq : (ready s cl).tsqDrop.tsQueue = s.tsQueue.drop 1 := congrArg (List.drop 1) ready_tsQueue
    exact ⟨_, tsQueuePop_answers hf ha, reply_tsQueue.trans hq,
      replied_reply (ready_out ▸ List.prefix_rfl : s.out <+: (ready s cl).out),
      apart_iff.2 (apart_reply ((apart_ready rfl).other rfl) rfl rfl)⟩
  · intro r i ha
    have hr : r = .monResult ∨ r = .hkInjResult := by
      by_cases hn : n.val < 64
      · exact .inl (if_pos hn)
      · exact .inr (if_neg hn)
    exact ⟨_, congrArg Host.Outcome.next (hkResult_answers hr hf ha), hkRead_replied hr⟩

end Sys2Proof

/-! # Codewords are decoded and counted (R197, R202, R206, R207, R210) -/

namespace Sys2Proof.Laws

set_option Elab.async false

open Sys2Proof.Machine

variable {s₀ s t u : State} {cl : Client} {r : Reg} {i n b c e k d : Nat} {v : Int} {L : List Reg}
  {K : Reg → Bool}

/-- A list of registers that holds another. -/
theorem Apart.widen {M : List Reg} (h : Apart L.contains s t) (hs : L ⊆ M := by decide) : Apart M.contains s t :=
  h.mono fun r hr => by
    simp only [List.contains_eq_mem, decide_eq_false_iff_not] at hr ⊢
    exact fun hm => hr (hs hm)

/-! ## The receive line under decoding -/

theorem rx_bump : (s.bump r i n).rx c = s.rx c := by
  obtain ⟨a, w, h⟩ := bump_form (s := s) r i n
  rw [h]
  rfl

theorem ladderIn_slots {l : LineSet} {info : List Bool} {x : RxLine} : (x.ladderIn l info).slots = x.slots := rfl

theorem infoOut_slots {info : List Bool} {x : RxLine} : (x.infoOut info).slots = x.slots := rfl

theorem rungOut_slots {decided was : List (List Bool)} {x : RxLine} : (x.rungOut decided was).slots = x.slots := rfl

theorem deliverFields_slots {l : LineSet} {x : RxLine} : (x.deliverFields l n).1.slots = x.slots := by
  induction n generalizing x with
  | zero => rfl
  | succ n ih =>
    unfold RxLine.deliverFields
    dsimp only
    split
    · rfl
    · exact ih

/-- The coding of a carrier rests on three of its registers. -/
theorem lineSet_congr (h : ∀ r ∈ [Reg.carrierFecProfileInForce, .carrierFecModulationInForce, .carrierFecTxKdm, .carrierFecRxKdm],
    t.get r c = s.get r c) : t.lineSet d c = s.lineSet d c := by
  have n : ∀ r ∈ [Reg.carrierFecProfileInForce, .carrierFecModulationInForce, .carrierFecTxKdm, .carrierFecRxKdm],
      t.nat r c = s.nat r c := fun r hr => congrArg Int.toNat (h r hr)
  unfold State.lineSet
  rw [n _ (by decide), n _ (by decide), n .carrierFecTxKdm (by decide), n .carrierFecRxKdm (by decide)]

/-! ## The outer code -/

/-- The counters of the ladder. -/
abbrev ladderCounts : List Reg := [.carrierFecLadderRowsCorrected, .carrierFecLadderBitsCorrected, .carrierFecUncorrectable]

theorem ladderOut_none {rung : List (List Bool)} (h : (s.rx c).leaving = none) : s.ladderOut c rung = s := by
  unfold State.ladderOut
  dsimp only
  rw [h]

theorem ladderOut_some {rung was : List (List Bool)} (h : (s.rx c).leaving = some was) : s.ladderOut c rung
    = (((s.setRx c ((s.rx c).rungOut rung was)).bump .carrierFecLadderRowsCorrected c
        (rungFigures (s.rx c).prev was rung).1).bump .carrierFecLadderBitsCorrected c
        (rungFigures (s.rx c).prev was rung).2.1).bump .carrierFecUncorrectable c
        (rungFigures (s.rx c).prev was rung).2.2 := by
  unfold State.ladderOut
  dsimp only
  rw [h]

theorem ladderOut_apart {rung : List (List Bool)} : Apart ladderCounts.contains s (s.ladderOut c rung) := by
  cases h : (s.rx c).leaving with
  | none => rw [ladderOut_none h]; exact Apart.refl s
  | some was =>
    rw [ladderOut_some h]
    exact apart_bump (apart_bump (apart_bump ((Apart.refl s).other rfl)))

theorem ladderOut_slots {rung : List (List Bool)} : ((s.ladderOut c rung).rx c).slots = (s.rx c).slots := by
  cases h : (s.rx c).leaving with
  | none => rw [ladderOut_none h]
  | some was => rw [ladderOut_some h, rx_bump, rx_bump, rx_bump, setRx_rx, rungOut_slots]

/-- The rung that leaves is counted (R210). -/
theorem ladderOut_counts {rung was : List (List Bool)} (h : (s.rx c).leaving = some was) :
    Safety.countedBy s (s.ladderOut c rung) .carrierFecLadderRowsCorrected c (rungFigures (s.rx c).prev was rung).1
    ∧ Safety.countedBy s (s.ladderOut c rung) .carrierFecLadderBitsCorrected c (rungFigures (s.rx c).prev was rung).2.1
    ∧ Safety.countedBy s (s.ladderOut c rung) .carrierFecUncorrectable c (rungFigures (s.rx c).prev was rung).2.2 := by
  rw [ladderOut_some h]
  refine ⟨?_, ?_, ?_⟩ <;>
    simp (disch := decide) only [Safety.countedBy, get_bump_other (.inl _), get_bump_same, State.nat, setRx_get]

/-- The Sprint profile has no ladder. -/
theorem outerDecode_sprint {info : List Bool} {rung : List (List Bool)} (h : s.nat .carrierFecProfileInForce c = 1) :
    s.outerDecode c info rung = s.setRx c ((s.rx c).infoOut info) := if_pos h

theorem outerDecode_long {info : List Bool} {rung : List (List Bool)} (h : s.nat .carrierFecProfileInForce c ≠ 1) :
    s.outerDecode c info rung = (s.setRx c ((s.rx c).ladderIn (s.lineSet 1 c) info)).ladderOut c rung := if_neg h

theorem outerDecode_apart {info : List Bool} {rung : List (List Bool)} :
    Apart ladderCounts.contains s (s.outerDecode c info rung) := by
  by_cases h : s.nat .carrierFecProfileInForce c = 1
  · exact outerDecode_sprint h ▸ (Apart.refl s).other rfl
  · rw [outerDecode_long h]
    have h0 : Apart ladderCounts.contains s (s.setRx c ((s.rx c).ladderIn (s.lineSet 1 c) info)) := (Apart.refl s).other rfl
    exact h0.trans ladderOut_apart

theorem outerDecode_slots {info : List Bool} {rung : List (List Bool)} :
    ((s.outerDecode c info rung).rx c).slots = (s.rx c).slots := by
  by_cases h : s.nat .carrierFecProfileInForce c = 1
  · rw [outerDecode_sprint h, setRx_rx, infoOut_slots]
  · rw [outerDecode_long h, ladderOut_slots, setRx_rx, ladderIn_slots]

theorem matcherOut_apart {q : Bool} : Apart [Reg.carrierFecDmMismatch].contains s (s.matcherOut c q) := by
  unfold State.matcherOut
  exact apart_ite (apart_bump ((Apart.refl s).other rfl)) ((Apart.refl s).other rfl)

theorem matcherOut_slots {q : Bool} : ((s.matcherOut c q).rx c).slots = (s.rx c).slots := by
  unfold State.matcherOut
  dsimp only
  split
  · rw [rx_bump, setRx_rx, deliverFields_slots]
  · rw [setRx_rx, deliverFields_slots]

/-! ## The inner code -/

/-- What a codeword of a carrier says once decided (R206, R210). -/
structure Decided where
  /-- it satisfies every check by the cap -/
  ok : Bool
  /-- the iterations run on it -/
  runs : Nat
  /-- its LLRs -/
  llr : List (Option Int)
  /-- its decisions -/
  word : List Bool
  /-- the profile is Sprint -/
  sprint : Bool

/-- The counters of the inner code. -/
abbrev innerCounts : List Reg := [.carrierFecCodewords, .carrierFecIterations, .carrierFecBits, .carrierFecCorrected,
  .carrierFecCwFailed, .carrierFecUncorrectable]

/-- A codeword counted, its slot gone from the receive line. -/
def codewordCounted (c : Nat) (x : RxLine) (m : Decided) (s : State) : State :=
  let s := (s.setRx c { x with slots := x.slots.drop 1 }).bump .carrierFecCodewords c
  if m.ok then
    ((s.bump .carrierFecIterations c m.runs).bump .carrierFecBits c
      (m.llr.filter Option.isSome).length).bump .carrierFecCorrected c
      ((List.zipWith llrDiffers m.llr m.word).filter id).length
  else (s.bump .carrierFecCwFailed c).when m.sprint fun s => s.bump .carrierFecUncorrectable c

theorem codewordCounted_rx {x : RxLine} {m : Decided} :
    (codewordCounted c x m s).rx c = { x with slots := x.slots.drop 1 } := by
  unfold codewordCounted State.when
  dsimp only
  split
  · rw [rx_bump, rx_bump, rx_bump, rx_bump, setRx_rx]
  · split
    · rw [rx_bump, rx_bump, rx_bump, setRx_rx]
    · rw [rx_bump, rx_bump, setRx_rx]

theorem codewordCounted_apart {x : RxLine} {m : Decided} : Apart innerCounts.contains s (codewordCounted c x m s) := by
  have h : Apart innerCounts.contains s ((s.setRx c { x with slots := x.slots.drop 1 }).bump .carrierFecCodewords c) :=
    apart_bump ((Apart.refl s).other rfl)
  exact apart_ite (apart_bump (apart_bump (apart_bump h))) (apart_ite (apart_bump (apart_bump h)) (apart_bump h))

theorem codewordCounted_count {x : RxLine} {m : Decided} :
    Safety.countedBy s (codewordCounted c x m s) .carrierFecCodewords c 1 := by
  unfold codewordCounted State.when
  split
  · simp (disch := decide) only [Safety.countedBy, get_bump_other (.inl _), get_bump_same, State.nat, setRx_get]
  · split <;> simp (disch := decide) only [Safety.countedBy, get_bump_other (.inl _), get_bump_same, State.nat, setRx_get]

/-- A codeword that converges. -/
theorem codewordCounted_ok {x : RxLine} {m : Decided} (h : m.ok = true) :
    Safety.countedBy s (codewordCounted c x m s) .carrierFecIterations c m.runs
    ∧ Safety.countedBy s (codewordCounted c x m s) .carrierFecBits c (m.llr.filter Option.isSome).length
    ∧ Safety.countedBy s (codewordCounted c x m s) .carrierFecCorrected c
      ((List.zipWith llrDiffers m.llr m.word).filter id).length
    ∧ (codewordCounted c x m s).get .carrierFecCwFailed c = s.get .carrierFecCwFailed c
    ∧ (codewordCounted c x m s).get .carrierFecUncorrectable c = s.get .carrierFecUncorrectable c := by
  unfold codewordCounted
  rw [if_pos h]
  refine ⟨?_, ?_, ?_, ?_, ?_⟩ <;>
    simp (disch := decide) only [Safety.countedBy, get_bump_other (.inl _), get_bump_same, State.nat, setRx_get]

/-- A codeword that does not converge. -/
theorem codewordCounted_failed {x : RxLine} {m : Decided} (h : m.ok = false) :
    Safety.countedBy s (codewordCounted c x m s) .carrierFecCwFailed c 1
    ∧ (codewordCounted c x m s).get .carrierFecIterations c = s.get .carrierFecIterations c
    ∧ (codewordCounted c x m s).get .carrierFecBits c = s.get .carrierFecBits c
    ∧ (codewordCounted c x m s).get .carrierFecCorrected c = s.get .carrierFecCorrected c
    ∧ (m.sprint = true → Safety.countedBy s (codewordCounted c x m s) .carrierFecUncorrectable c 1)
    ∧ (m.sprint = false →
      (codewordCounted c x m s).get .carrierFecUncorrectable c = s.get .carrierFecUncorrectable c) := by
  unfold codewordCounted
  rw [if_neg (by simp [h])]
  cases hs : m.sprint <;> refine ⟨?_, ?_, ?_, ?_, fun _ => ?_, fun _ => ?_⟩ <;>
    simp_all (maxSteps := 200000) [State.when, Safety.countedBy, get_bump_other, get_bump_same, State.nat]

/-! ## The whole -/

/-- What the decoder has decided about the codeword at hand. -/
def decidedBy (s : State) (c : Nat) (m : CodewordReading) (w : List Bool) : Decided where
  ok := converges (s.nat .carrierFecCapInForce c) m.satisfiedAt
    && innerOk (s.nat .carrierFecProfileInForce c) w
  runs := iterationsRun (s.nat .carrierFecCapInForce c) m.satisfiedAt
  llr := (s.rx c).atCodeword.codeword (s.nat .carrierFecProfileInForce c)
  word := w
  sprint := s.nat .carrierFecProfileInForce c == profSprint

theorem decidedBy_llr {m : CodewordReading} {w : List Bool} :
    (decidedBy s c m w).llr = (s.rx c).atCodeword.codeword (s.nat .carrierFecProfileInForce c) := by rw [decidedBy]

/-- A codeword counted and handed on to the outer code and the inverse matcher. -/
def codewordPassed (c : Nat) (m : CodewordReading) (w : List Bool) (s : State) : State :=
  let y := decidedBy s c m w
  ((codewordCounted c (s.rx c).atCodeword y s).outerDecode c (y.word.take (infoLength (s.nat .carrierFecProfileInForce c)))
    m.rung).matcherOut c (y.ok || s.nat .carrierFecProfileInForce c == profLong)

theorem decodeOne_passed {m : CodewordReading} (hs : 2 ≤ s.get .carrierState c) (hr : s.flag .xRelock c = false)
    (hp : s.nat .carrierFecProfileInForce c ≠ 2) : s.decodeOne c m = codewordPassed c m (fillTo 9216 false m.word) s := by
  unfold State.decodeOne codewordPassed
  generalize fillTo 9216 false m.word = w
  rw [if_neg (by simp [hr]; omega)]
  unfold codewordCounted decidedBy
  dsimp only
  rw [if_neg (show ¬ s.nat .carrierFecProfileInForce c = profCompatible from hp)]

theorem decodeOne_compatible {m : CodewordReading} (hs : 2 ≤ s.get .carrierState c) (hr : s.flag .xRelock c = false)
    (hp : s.nat .carrierFecProfileInForce c = 2) :
    s.decodeOne c m = s.decodeCompatible c (converges (s.nat .carrierFecCapInForce c) m.satisfiedAt) m := by
  unfold State.decodeOne
  rw [if_neg (by simp [hr]; omega)]
  exact if_pos hp

theorem codewordPassed_apart {m : CodewordReading} {w : List Bool} :
    Apart [Reg.carrierFecCodewords, .carrierFecIterations, .carrierFecBits, .carrierFecCorrected, .carrierFecCwFailed,
      .carrierFecUncorrectable, .carrierFecLadderRowsCorrected, .carrierFecLadderBitsCorrected, .carrierFecDmMismatch].contains s
      (codewordPassed c m w s) :=
  (codewordCounted_apart.widen.trans outerDecode_apart.widen).trans matcherOut_apart.widen

theorem codewordPassed_get {m : CodewordReading} {w : List Bool}
    (h : r ∈ [Reg.carrierFecCodewords, .carrierFecIterations, .carrierFecBits, .carrierFecCorrected, .carrierFecCwFailed]) :
    (codewordPassed c m w s).get r i = (codewordCounted c (s.rx c).atCodeword (decidedBy s c m w) s).get r i := by
  simp only [List.mem_cons, List.not_mem_nil, or_false] at h
  rw [codewordPassed, matcherOut_apart.regs _ _ (by rcases h with rfl | rfl | rfl | rfl | rfl <;> rfl),
    outerDecode_apart.regs _ _ (by rcases h with rfl | rfl | rfl | rfl | rfl <;> rfl)]

theorem codewordPassed_counted {m : CodewordReading} {w : List Bool}
    (h : r ∈ [Reg.carrierFecCodewords, .carrierFecIterations, .carrierFecBits, .carrierFecCorrected, .carrierFecCwFailed])
    (hc : Safety.countedBy s (codewordCounted c (s.rx c).atCodeword (decidedBy s c m w) s) r i n) :
    Safety.countedBy s (codewordPassed c m w s) r i n := (codewordPassed_get h).trans hc

theorem codewordPassed_slots {m : CodewordReading} {w : List Bool} :
    ((codewordPassed c m w s).rx c).slots = (s.rx c).atCodeword.slots.drop 1 := by
  rw [codewordPassed, matcherOut_slots, outerDecode_slots, codewordCounted_rx]

/-- Counting a codeword moves nothing that the coding rests on. -/
theorem codewordCounted_setting {x : RxLine} {m : Decided}
    (h : r ∈ [Reg.carrierFecProfileInForce, .carrierFecModulationInForce, .carrierFecTxKdm, .carrierFecRxKdm]) :
    (codewordCounted c x m s).get r i = s.get r i :=
  codewordCounted_apart.regs _ _ (by
    simp only [List.mem_cons, List.not_mem_nil, or_false] at h
    rcases h with rfl | rfl | rfl | rfl <;> rfl)

theorem codewordPassed_sprint {m : CodewordReading} {w : List Bool} (hp : s.nat .carrierFecProfileInForce c = 1) :
    (codewordPassed c m w s).get .carrierFecUncorrectable c
      = (codewordCounted c (s.rx c).atCodeword (decidedBy s c m w) s).get .carrierFecUncorrectable c := by
  have hq : (codewordCounted c (s.rx c).atCodeword (decidedBy s c m w) s).nat .carrierFecProfileInForce c = 1 :=
    (congrArg Int.toNat (codewordCounted_setting (by decide))).trans hp
  rw [codewordPassed, matcherOut_apart.regs _ _ rfl, outerDecode_sprint hq, setRx_get]

/-- In Long the rung that leaves the window is counted. -/
theorem codewordPassed_rung {m : CodewordReading} {w : List Bool} {was : List (List Bool)} {y : RxLine}
    (hp : s.nat .carrierFecProfileInForce c = 0)
    (hy : y = RxLine.ladderIn (s.lineSet 1 c) (w.take (infoLength (s.nat .carrierFecProfileInForce c)))
      { (s.rx c).atCodeword with slots := (s.rx c).atCodeword.slots.drop 1 })
    (hw : y.leaving = some was) :
    Safety.countedBy s (codewordPassed c m w s) .carrierFecLadderRowsCorrected c (rungFigures y.prev was m.rung).1
    ∧ Safety.countedBy s (codewordPassed c m w s) .carrierFecLadderBitsCorrected c (rungFigures y.prev was m.rung).2.1
    ∧ Safety.countedBy s (codewordPassed c m w s) .carrierFecUncorrectable c (rungFigures y.prev was m.rung).2.2 := by
  have hl := lineSet_congr (d := 1) fun r hr =>
    codewordCounted_setting (c := c) (i := c) (x := (s.rx c).atCodeword) (m := decidedBy s c m w) (s := s) hr
  have hq : (codewordCounted c (s.rx c).atCodeword (decidedBy s c m w) s).nat .carrierFecProfileInForce c ≠ 1 := fun h => by
    have := (congrArg Int.toNat (codewordCounted_setting (s := s) (c := c) (i := c) (x := (s.rx c).atCodeword)
      (m := decidedBy s c m w) (r := .carrierFecProfileInForce) (by decide))).symm.trans h
    exact absurd (hp.symm.trans this) (by decide)
  have hg : ∀ r ∈ ladderCounts, (codewordCounted c (s.rx c).atCodeword (decidedBy s c m w) s).get r c = s.get r c := by
    intro r hr
    simp only [List.mem_cons, List.not_mem_nil, or_false] at hr
    rcases hr with rfl | rfl | rfl
    · exact codewordCounted_apart.regs _ _ rfl
    · exact codewordCounted_apart.regs _ _ rfl
    · cases ho : (decidedBy s c m w).ok with
      | true => exact (codewordCounted_ok ho).2.2.2.2
      | false => exact (codewordCounted_failed ho).2.2.2.2.2 (by rw [decidedBy, hp]; rfl)
  rw [codewordPassed]
  generalize hu : codewordCounted c (s.rx c).atCodeword (decidedBy s c m w) s = u at hl hq hg
  have hx : (u.setRx c ((u.rx c).ladderIn (u.lineSet 1 c) ((decidedBy s c m w).word.take
      (infoLength (s.nat .carrierFecProfileInForce c))))).rx c = y := by
    rw [setRx_rx, hl, ← hu, codewordCounted_rx, hy]
    rfl
  obtain ⟨h1, h2, h3⟩ := ladderOut_counts (rung := m.rung) (hx ▸ hw)
  rw [hx] at h1 h2 h3
  unfold Safety.countedBy State.nat at *
  rw [setRx_get] at h1 h2 h3
  rw [outerDecode_long hq, matcherOut_apart.regs _ _ rfl, matcherOut_apart.regs _ _ rfl, matcherOut_apart.regs _ _ rfl, h1,
    h2, h3, hg _ (by decide), hg _ (by decide), hg _ (by decide)]
  exact ⟨rfl, rfl, rfl⟩

/-- A codeword that converges has run as long as its checks took, at least twice. -/
theorem runs_of_converges {cap : Nat} {at_ : Nat} (h : converges cap (some at_) = true) :
    iterationsRun cap (some at_) = max 2 at_ := Nat.min_eq_right (of_decide_eq_true h)

/-! ## The decoder of a Compatible carrier -/

theorem decodeCompatible_reports {ok : Bool} {m : CodewordReading} :
    Safety.countedBy s (s.decodeCompatible c ok m) .carrierFecCodewords c 1
    ∧ (ok = true → Safety.countedBy s (s.decodeCompatible c ok m) .carrierFecBits c m.softBits
      ∧ Safety.countedBy s (s.decodeCompatible c ok m) .carrierFecCorrected c m.softCorrected)
    ∧ (ok = false → Safety.countedBy s (s.decodeCompatible c ok m) .carrierFecCwFailed c 1
      ∧ (s.decodeCompatible c ok m).get .carrierFecBits c = s.get .carrierFecBits c)
    ∧ Safety.countedBy s (s.decodeCompatible c ok m) .carrierFecUncorrectable c m.blocksFailed := by
  unfold State.decodeCompatible
  cases ok
  · refine ⟨?_, (fun h => by cases h), fun _ => ⟨?_, ?_⟩, ?_⟩ <;>
      simp (disch := decide) only [Safety.countedBy, get_bump_other (.inl _), get_bump_same, State.nat,
        Bool.false_eq_true, if_false]
  · refine ⟨?_, fun _ => ⟨?_, ?_⟩, (fun h => by cases h), ?_⟩ <;>
      simp (disch := decide) only [Safety.countedBy, get_bump_other (.inl _), get_bump_same, State.nat, if_true]

theorem decodeCompatible_apart {ok : Bool} {m : CodewordReading} :
    Apart [Reg.carrierFecCodewords, .carrierFecBits, .carrierFecCorrected, .carrierFecCwFailed,
      .carrierFecUncorrectable].contains s (s.decodeCompatible c ok m) :=
  apart_bump (apart_ite (apart_bump (apart_bump (apart_bump (Apart.refl s)))) (apart_bump (apart_bump (Apart.refl s))))

end Sys2Proof.Laws

namespace Sys2Proof

open Sys2Proof.Machine Sys2Proof.Laws

/-- Settles O29: what the outer code and the inverse matcher write lies apart from the counters of the inner code, so each
counter is read off the one stage that counts it. -/
theorem codewordsAreDecodedAndCounted : Obligations.CodewordsAreDecodedAndCounted := by
  refine ⟨fun s c m hs => live_still (f := fun s => s.decodeOne c m) (if_pos (by simp [hs])),
    fun s c m hp hs hr hq => ?_, fun s c m hp hs hr hq => ?_⟩
  · intro prof w r llr after ok
    have he : exec (.codewordDecode c m) s = .next (codewordPassed c m w s) :=
      (live_running (f := fun s => s.decodeOne c m) hp).trans (congrArg Host.Outcome.next (decodeOne_passed hs hr hq))
    clear_value w
    refine ⟨codewordPassed c m w s, he, ?_, codewordPassed_slots, fun n ho hn => ?_, fun ho => ?_, fun h1 => ⟨fun ho => ?_, fun ho => ?_⟩, fun was h0 hw => ?_,
      apart_iff.2 (codewordPassed_apart)⟩
    · exact codewordPassed_counted (by decide) codewordCounted_count
    · obtain ⟨h2, h3, h4, h5, -⟩ := codewordCounted_ok (s := s) (c := c) (x := (s.rx c).atCodeword) (m := decidedBy s c m w) ho
      have hn' : (decidedBy s c m w).runs = max 2 n := by
        have hk : converges (s.nat .carrierFecCapInForce c) m.satisfiedAt = true := (Bool.and_eq_true_iff.1 ho).1
        show iterationsRun _ m.satisfiedAt = _
        rw [hn] at hk ⊢
        exact runs_of_converges hk
      rw [hn'] at h2
      rw [decidedBy_llr] at h3 h4
      exact ⟨codewordPassed_counted (by decide) h2, codewordPassed_counted (by decide) h3,
        codewordPassed_counted (by decide) h4, (codewordPassed_get (by decide)).trans h5⟩
    · obtain ⟨h2, h3, h4, h5, -⟩ := codewordCounted_failed (s := s) (c := c) (x := (s.rx c).atCodeword) (m := decidedBy s c m w) ho
      exact ⟨codewordPassed_counted (by decide) h2, (codewordPassed_get (by decide)).trans h3,
        (codewordPassed_get (by decide)).trans h4, (codewordPassed_get (by decide)).trans h5⟩
    · obtain ⟨-, -, -, -, hu, -⟩ := codewordCounted_failed (s := s) (c := c) (x := (s.rx c).atCodeword) (m := decidedBy s c m w) ho
      rw [Safety.countedBy, codewordPassed_sprint h1]
      exact hu (beq_iff_eq.2 h1)
    · obtain ⟨-, -, -, -, hu⟩ := codewordCounted_ok (s := s) (c := c) (x := (s.rx c).atCodeword) (m := decidedBy s c m w) ho
      rw [codewordPassed_sprint h1]
      exact hu
    · exact codewordPassed_rung h0 rfl hw
  · intro ok
    obtain ⟨h1, h2, h3, h4⟩ := decodeCompatible_reports (s := s) (c := c) (ok := ok) (m := m)
    exact ⟨_, (live_running (f := fun s => s.decodeOne c m) hp).trans
      (congrArg Host.Outcome.next (decodeOne_compatible hs hr hq)), h1, h2, h3, h4, apart_iff.2 decodeCompatible_apart⟩

end Sys2Proof

/-! # Host frames are classified, admitted or dropped, and counted (R238, R243, R244, R247) -/

namespace Sys2Proof.Laws

set_option Elab.async false

open Sys2Proof.Machine

variable {s₀ s t u : State} {cl : Client} {r : Reg} {i n b c e f p k d : Nat} {v : Int} {L : List Reg}
  {K : Reg → Bool}

/-! ## Queues and the tile pool -/

/-- What the flows hold: the frames of packet flows and the words of transparent ones. -/
def stockOf (s : State) : List (Nat × List Stored) × List (Nat × List Nat) := (s.flowQueue, s.flowWords)

theorem stock_bump : stockOf (s.bump r i n) = stockOf s := by
  obtain ⟨a, w, h⟩ := bump_form (s := s) r i n
  rw [h]
  rfl

/-- The flows' queues and the classifier. -/
abbrev stockScope : Scope := fun p => match p with
  | .flows => true
  | .classifier => true
  | _ => false

theorem stock_raise {detail : List Item} : stockOf (s.raise e detail) = stockOf s := by
  have := fact_false
  obtain ⟨hq, hw, -⟩ := (kept_raise (κ := stockScope) (e := e) (detail := detail) (Kept.refl s)).sameFlows rfl
  exact Prod.ext hq hw

theorem stock_ite {P : Prop} [Decidable P] (ht : stockOf t = stockOf s) (hu : stockOf u = stockOf s) :
    stockOf (if P then t else u) = stockOf s := by split <;> assumption

theorem stock_each {α : Type} {l : List α} {g : State → α → State} (h : ∀ t a, stockOf (g t a) = stockOf t) :
    stockOf (s.each l g) = stockOf s := each_view (view := stockOf) fun t a _ => h t a

theorem stock_sendPfc {x y : Nat} : stockOf (s.sendPfc p x y) = stockOf s :=
  stock_ite rfl (Eq.trans rfl stock_bump)

theorem stock_pfcEval : stockOf (s.pfcEval p) = stockOf s := by
  unfold State.pfcEval
  extract_lets was now s1 gone s2
  have h2 : stockOf s2 = stockOf s := stock_ite rfl stock_sendPfc
  exact stock_ite rfl (stock_ite rfl (stock_ite h2 (stock_sendPfc.trans h2)))

theorem stock_poolMove {was used : Nat} : stockOf (s.poolMove was used) = stockOf s := by
  unfold State.poolMove
  extract_lets s1 s2 low s3 pause
  have h2 : stockOf s2 = stockOf s := stock_ite rfl rfl
  have h3 : stockOf s3 = stockOf s := stock_ite (stock_raise.trans h2) h2
  exact stock_ite ((stock_each fun _ _ => stock_pfcEval).trans h3)
    (stock_ite ((stock_each fun _ _ => stock_pfcEval).trans h3) h3)

theorem stock_assertEval : stockOf (s.assertEval f) = stockOf s := by
  unfold State.assertEval
  exact stock_ite (stock_ite rfl (stock_ite rfl rfl)) rfl

theorem stock_setFill {o : Nat} : stockOf (s.setFill f o n) = stockOf s := by
  unfold State.setFill
  extract_lets was s1 o' s2 s3
  have h1 : stockOf s1 = stockOf s := stock_ite rfl (stock_ite rfl rfl)
  have h2 : stockOf s2 = stockOf s := (stock_ite rfl rfl : stockOf (State.peak _ _ _ _) = _).trans h1
  exact stock_pfcEval.trans (stock_assertEval.trans (stock_poolMove.trans h2))

/-- A packet flow's queue replaced, and no other. -/
theorem putQueue_stock {q : List Stored} : (s.putQueue f q n).queueOf f = q
    ∧ (∀ j, j ≠ f → (s.putQueue f q n).queueOf j = s.queueOf j) ∧ (s.putQueue f q n).flowWords = s.flowWords := by
  have h : stockOf (s.putQueue f q n) = (sput natLt [] s.flowQueue f q, s.flowWords) := stock_setFill
  have hq := congrArg Prod.fst h
  refine ⟨?_, fun j hj => ?_, congrArg Prod.snd h⟩
  · exact (congrArg (fun x => sget x f []) hq).trans (sget_sput_same _ _ _ _ _)
  · exact (congrArg (fun x => sget x j []) hq).trans (sget_sput_other _ _ _ _ _ hj)

/-- A transparent flow's words replaced. -/
theorem putWords_stock {q : List Nat} : (s.putWords f q n).wordsOf f = q
    ∧ (∀ j, j ≠ f → (s.putWords f q n).wordsOf j = s.wordsOf j) ∧ (s.putWords f q n).flowQueue = s.flowQueue := by
  have h : stockOf (s.putWords f q n) = (s.flowQueue, sput natLt [] s.flowWords f q) := stock_setFill
  have hq := congrArg Prod.snd h
  refine ⟨?_, fun j hj => ?_, congrArg Prod.fst h⟩
  · exact (congrArg (fun x => sget x f []) hq).trans (sget_sput_same _ _ _ _ _)
  · exact (congrArg (fun x => sget x j []) hq).trans (sget_sput_other _ _ _ _ _ hj)

/-- What a change of a flow's fill writes, beside events. -/
abbrev fillRegs : List Reg := [.poolFree, .poolLow, .xPoolLow, .xPoolPause, .portPfcAssertedMask, .portPfcSent,
  .flowAsserting, .flowFill, .flowPeak, .xFlowOffset, .xFlowMarks]

theorem apart_sendPfc {x y : Nat} (h : Apart K s₀ s) (hK : K .portPfcSent = true) : Apart K s₀ (s.sendPfc p x y) :=
  apart_ite h ((apart_bump h).other rfl)

theorem apart_pfcEval (h : Apart K s₀ s) (hK : ∀ r ∈ fillRegs, K r = true) : Apart K s₀ (s.pfcEval p) := by
  unfold State.pfcEval
  extract_lets was now s1 gone s2
  have h1 : Apart K s₀ s1 := apart_set h (hK _ (by decide))
  have h2 : Apart K s₀ s2 := apart_ite h1 (apart_sendPfc h1 (hK _ (by decide)))
  exact apart_ite (apart_set h (hK _ (by decide))) (apart_ite h (apart_ite h2 (apart_sendPfc h2 (hK _ (by decide)))))

theorem apart_poolMove (w : Wide K) {was used : Nat} (h : Apart K s₀ s) (hK : ∀ r ∈ fillRegs, K r = true) :
    Apart K s₀ (s.poolMove was used) := by
  unfold State.poolMove
  extract_lets s1 s2 low s3 pause
  have h1 : Apart K s₀ s1 := apart_set h (hK _ (by decide))
  have h2 : Apart K s₀ s2 := apart_ite (apart_set h1 (hK _ (by decide))) h1
  have h3 : Apart K s₀ s3 := apart_ite (apart_raise w (apart_set h2 (hK _ (by decide)))) (apart_set h2 (hK _ (by decide)))
  exact apart_ite (apart_each (apart_set h3 (hK _ (by decide))) fun _ _ ht => apart_pfcEval ht hK)
    (apart_ite (apart_each (apart_set h3 (hK _ (by decide))) fun _ _ ht => apart_pfcEval ht hK) h3)

theorem apart_assertEval (h : Apart K s₀ s) (hK : ∀ r ∈ fillRegs, K r = true) : Apart K s₀ (s.assertEval f) := by
  have hs : ∀ v, Apart K s₀ (s.set .flowAsserting f v) := fun v => apart_set h (hK _ (by decide))
  unfold State.assertEval
  exact apart_ite (apart_ite (hs _) (apart_ite (hs _) h)) (hs _)

theorem apart_setFill (w : Wide K) {o : Nat} (h : Apart K s₀ s) (hK : ∀ r ∈ fillRegs, K r = true) :
    Apart K s₀ (s.setFill f o n) := by
  unfold State.setFill
  extract_lets was s1 o' s2 s3
  have h1 : Apart K s₀ s1 := apart_ite (apart_setBlob h (hK _ (by decide)))
    (apart_ite h (apart_setBlob h (hK _ (by decide))))
  have hf : Apart K s₀ (s1.set .flowFill f (n : Nat)) := apart_set h1 (hK _ (by decide))
  have h2 : Apart K s₀ s2 := apart_set (apart_ite (apart_set hf (hK _ (by decide))) hf) (hK _ (by decide))
  exact apart_pfcEval (apart_assertEval (apart_poolMove w h2 hK) hK) hK

theorem apart_putQueue (w : Wide K) {q : List Stored} (h : Apart K s₀ s) (hK : ∀ r ∈ fillRegs, K r = true) :
    Apart K s₀ (s.putQueue f q n) := apart_setFill w (h.other rfl) hK

theorem apart_putWords (w : Wide K) {q : List Nat} (h : Apart K s₀ s) (hK : ∀ r ∈ fillRegs, K r = true) :
    Apart K s₀ (s.putWords f q n) := apart_setFill w (h.other rfl) hK

/-! ## What a frame's admission rests on -/

/-- The counters and notes that precede the decision on an arrival. -/
abbrev arrivalRegs : List Reg := [.portFecCorrected, .portFecUncorrected, .portFecSymbols, .tsqOverflow, .tsqDropped, .xTsqSecond]

/-- An arrival noted, its classification still to come. -/
structure Noted (s t : State) : Prop where
  apart : Apart (fun r => Safety.eventSide r || arrivalRegs.contains r) s t
  classifier : t.classifier = s.classifier
  stock : stockOf t = stockOf s

theorem Noted.get (h : Noted s t) (hr : (Safety.eventSide r || arrivalRegs.contains r) = false := by rfl) :
    t.get r i = s.get r i := h.apart.regs r i hr

theorem Noted.nat (h : Noted s t) (hr : (Safety.eventSide r || arrivalRegs.contains r) = false := by rfl) :
    t.nat r i = s.nat r i := congrArg Int.toNat (h.get hr)

theorem Noted.trans (h : Noted s t) (g : Noted t u) : Noted s u :=
  ⟨h.apart.trans g.apart, g.classifier.trans h.classifier, g.stock.trans h.stock⟩

theorem Noted.flow (h : Noted s t) : t.flow f = s.flow f := by
  unfold State.flow State.working State.flag
  rw [h.get, h.nat]

theorem Noted.frameSound (h : Noted s t) {l : List Byte} : t.frameSound p l = s.frameSound p l := by
  unfold State.frameSound
  rw [h.get]

theorem Noted.transparentPort (h : Noted s t) : t.transparentPort p = s.transparentPort p := by
  unfold State.transparentPort State.defaultTransparent
  rw [h.get, h.get, h.nat, h.flow]

theorem Noted.classify (h : Noted s t) {l : List Byte} : t.classify p l = s.classify p l := by
  unfold State.classify State.lookup
  rw [h.get, h.nat, h.nat, h.classifier]

theorem Noted.admits (h : Noted s t) : t.admits = s.admits := by
  unfold State.admits State.mode State.flag
  rw [h.get, h.get, h.get, h.get]

theorem Noted.queueOf (h : Noted s t) : t.queueOf f = s.queueOf f := congrArg (fun x : _ × _ => sget x.1 f []) h.stock

theorem Noted.wordsOf (h : Noted s t) : t.wordsOf f = s.wordsOf f := congrArg (fun x : _ × _ => sget x.2 f []) h.stock

theorem Noted.counted (h : Noted s t) (hc : Safety.countedBy t u r i n)
    (hr : (Safety.eventSide r || arrivalRegs.contains r) = false := by rfl) : Safety.countedBy s u r i n := by
  rw [Safety.countedBy, ← h.nat hr]
  exact hc

/-- The RS-FEC counts of an arrival (Table: Port objects). -/
def fecCounted (p : Nat) (fec : Vector Nat 3) (s : State) : State :=
  let n := fun k => fec.toList.getD k 0
  s.bump .portFecCorrected p (n 0) |>.bump .portFecUncorrected p (n 1) |>.bump .portFecSymbols p (n 2)

theorem fecCounted_noted {fec : Vector Nat 3} : Noted s (fecCounted p fec s) where
  apart := apart_bump (apart_bump (apart_bump (Apart.refl s)))
  classifier := by
    have h : ∀ (y : State) r m, (y.bump r p m).classifier = y.classifier := fun y r m => by
      obtain ⟨a, w, h⟩ := bump_form (s := y) r p m
      rw [h]
    exact ((h _ _ _).trans (h _ _ _)).trans (h _ _ _)
  stock := (stock_bump.trans stock_bump).trans stock_bump

theorem fecCounted_count {fec : Vector Nat 3} : Safety.countedBy s (fecCounted p fec s) .portFecCorrected p fec[0] := by
  have h : (fun k => fec.toList.getD k 0) 0 = fec[0] := by
    show fec.toList.getD 0 0 = _
    rw [List.getD_eq_getElem _ _ (by simp), Vector.getElem_toList]
  unfold fecCounted
  rw [Safety.countedBy, get_bump_other (.inl (by decide)), get_bump_other (.inl (by decide)), get_bump_same, h]

theorem hostFrame_eq {x : HostArrival} {fec : Vector Nat 3} (he : s.flag .portEnable p = true) (hd : s.portDown p = false) :
    s.hostFrame p x fec = match x with
      | .frame l => (fecCounted p fec s).frameArrives p l
      | .blocks l => (fecCounted p fec s).pcsIn p l := by
  have he' : (fecCounted p fec s).flag .portEnable p = true := by rw [State.flag, fecCounted_noted.get, ← State.flag, he]
  have hd' : (fecCounted p fec s).portDown p = false := by rw [State.portDown, fecCounted_noted.get, ← State.portDown, hd]
  have hc : ¬ (!(fecCounted p fec s).flag .portEnable p || (fecCounted p fec s).portDown p) = true := by simp [he', hd']
  unfold State.hostFrame
  exact if_neg hc

theorem raise_classifier {detail : List Item} : (s.raise e detail).classifier = s.classifier := by
  have := fact_false
  exact (kept_raise (κ := stockScope) (e := e) (detail := detail) (Kept.refl s)).sameClassifier rfl

theorem ptpArrive_noted {l : List Byte} : Noted s (s.ptpArrive p l) := by
  have w := wide_events arrivalRegs
  have self : Noted s s := ⟨Apart.refl s, rfl, rfl⟩
  unfold State.ptpArrive
  split
  · exact self
  split
  · exact self
  split
  · exact ⟨(Apart.refl s).other rfl, rfl, rfl⟩
  have h1 : Noted s ((s.set .tsqOverflow 0 1).bump .tsqDropped 0) := by
    refine ⟨apart_bump (apart_set (Apart.refl s)), ?_, stock_bump.trans rfl⟩
    obtain ⟨a, w, h⟩ := bump_form (s := s.set .tsqOverflow 0 1) .tsqDropped 0 1
    rw [h]
    rfl
  dsimp only
  generalize (s.set .tsqOverflow 0 1).bump .tsqDropped 0 = y at h1 ⊢
  split
  · exact ⟨apart_raise w (apart_markSecond h1.apart), raise_classifier.trans h1.classifier, stock_raise.trans h1.stock⟩
  · exact h1

/-! ## Admission to a packet flow -/

/-- The counts and notes that an admission makes. -/
abbrev admitRegs : List Reg := [.portClsErrored, .portPfcReceived, .xPfcUntil, .portClsUnclassified, .portClsDisabledFlow,
  .flowOverruns, .flowDepthDrops, .xFlowSecond, .flowPoolDrops, .poolDrops, .flowcountFrames, .flowcountBytes] ++ fillRegs

theorem apart_flowDiscard (w : Wide K) (h : Apart K s₀ s) (hK : K .xFlowSecond = true) : Apart K s₀ (s.flowDiscard f) :=
  apart_ite (apart_raise w (apart_markSecond h)) h

theorem stock_flowDiscard : stockOf (s.flowDiscard f) = stockOf s := stock_ite (stock_raise.trans rfl) rfl

theorem apart_takeIn (w : Wide K) {l : List Byte} (h : Apart K s₀ s) (hK : ∀ r ∈ admitRegs, K r = true) :
    Apart K s₀ (s.takeIn f l) := by
  have b : ∀ {y : State} {r i m}, Apart K s₀ y → r ∈ admitRegs → Apart K s₀ (y.bump r i m) := fun hy hr => apart_bump hy (hK _ hr)
  have hq : Apart K s₀ (s.putQueue f (s.queueOf f ++ [⟨false, l⟩]) 0) :=
    apart_putQueue w h fun r hr => hK r (List.mem_append_right _ hr)
  exact apart_ite (apart_flowDiscard w (apart_ite (b h (by decide)) (b h (by decide))) (hK _ (by decide)))
    (apart_ite (apart_flowDiscard w (b (b h (by decide)) (by decide)) (hK _ (by decide)))
      (apart_ite hq (b (b hq (by decide)) (by decide))))

/-- A frame beyond the depth of a flow without the pause policy is dropped and counted (R243). -/
theorem takeIn_drops {l : List Byte} (hd : 512 * fDepth (s.flow f) < s.nat .flowFill f + 8 + l.length)
    (hp : fPause (s.flow f) = false) :
    Safety.countedBy s (s.takeIn f l) .flowDepthDrops f 1 ∧ (s.takeIn f l).flowQueue = s.flowQueue := by
  have he : s.takeIn f l = (s.bump .flowDepthDrops f).flowDiscard f := by
    unfold State.takeIn
    dsimp only
    rw [if_pos hd, if_neg (by simp [hp])]
  have ha : Apart (fun r => Safety.eventSide r || [Reg.xFlowSecond].contains r) (s.bump .flowDepthDrops f)
      ((s.bump .flowDepthDrops f).flowDiscard f) := apart_flowDiscard (wide_events _) (Apart.refl _) rfl
  rw [he]
  refine ⟨?_, congrArg Prod.fst (stock_flowDiscard.trans stock_bump)⟩
  rw [Safety.countedBy, ha.regs _ _ rfl, get_bump_same]

/-- A frame that its flow and the pool have room for joins the queue. -/
theorem takeIn_appends {l : List Byte} (hd : s.nat .flowFill f + 8 + l.length ≤ 512 * fDepth (s.flow f))
    (hp : (8 + l.length + 511) / 512 ≤ s.nat .poolFree 0) :
    (s.takeIn f l).queueOf f = s.queueOf f ++ [⟨false, l⟩] := by
  have hq := (putQueue_stock (s := s) (f := f) (q := s.queueOf f ++ [⟨false, l⟩]) (n := 0)).1
  have hb : ∀ (y : State) r i m, (y.bump r i m).queueOf f = y.queueOf f := fun y r i m =>
    congrArg (fun x : _ × _ => sget x.1 f []) (stock_bump (s := y) (r := r) (i := i) (n := m))
  unfold State.takeIn
  dsimp only
  rw [if_neg (by omega), if_neg (by omega)]
  split
  · exact hq
  · exact ((hb _ _ _ _).trans (hb _ _ _ _)).trans hq

/-- An arriving frame, its RS-FEC counts taken. -/
theorem apart_frameArrives (w : Wide K) {l : List Byte} (h : Apart K s₀ s)
    (hK : ∀ r ∈ admitRegs ++ [Reg.tsqOverflow, .tsqDropped, .xTsqSecond], K r = true) : Apart K s₀ (s.frameArrives p l) := by
  have b : ∀ {y : State} {r i m}, Apart K s₀ y → r ∈ admitRegs → Apart K s₀ (y.bump r i m) :=
    fun hy hr => apart_bump hy (hK _ (List.mem_append_left _ hr))
  have hs : ∀ r ∈ [Reg.tsqOverflow, .tsqDropped, .xTsqSecond], K r = true := fun r hr => hK r (List.mem_append_right _ hr)
  have hp : Apart K s₀ (s.ptpArrive p l) := by
    have hy : Apart K s₀ ((s.set .tsqOverflow 0 1).bump .tsqDropped 0) :=
      apart_bump (apart_set h (hs _ (by decide))) (hs _ (by decide))
    unfold State.ptpArrive
    refine apart_ite h ?_
    split
    · exact h
    · exact apart_ite (h.other rfl) (apart_ite (apart_raise w (apart_markSecond hy (hs _ (by decide)))) hy)
  unfold State.frameArrives
  refine apart_ite h (apart_ite (b h (by decide)) ?_)
  dsimp only
  split
  · exact apart_each (b hp (by decide)) fun y x hy => apart_set hy (hK _ (by decide))
  · exact apart_ite (b hp (by decide)) (apart_ite (b hp (by decide))
      (apart_takeIn w hp fun r hr => hK r (List.mem_append_left _ hr)))

/-! ## A frame at a port that is not transparent -/

variable {l : List Byte}

theorem frameArrives_errored (ht : s.transparentPort p = false) (hs : s.frameSound p l = false) :
    s.frameArrives p l = s.bump .portClsErrored p := by
  unfold State.frameArrives
  rw [if_neg (by simp [ht]), if_pos (by simp [hs])]

theorem frameArrives_pause {q : List (Nat × Nat)} (ht : s.transparentPort p = false) (hs : s.frameSound p l = true)
    (hp : pauseOf l = some q) : s.frameArrives p l
      = ((s.ptpArrive p l).bump .portPfcReceived p).each q fun s e => s.holdPrio p e.1 e.2 := by
  unfold State.frameArrives
  rw [if_neg (by simp [ht]), if_neg (by simp [hs])]
  dsimp only
  rw [hp]

/-- What becomes of a client frame: no flow, a flow that takes none, or admission. -/
theorem frameArrives_client (ht : s.transparentPort p = false) (hs : s.frameSound p l = true) (hp : pauseOf l = none) :
    s.frameArrives p l = if s.classify p l = 0xFFFF then (s.ptpArrive p l).bump .portClsUnclassified p
      else if !fEnable (s.flow (s.classify p l)) || !s.admits then (s.ptpArrive p l).bump .portClsDisabledFlow p
      else (s.ptpArrive p l).takeIn (s.classify p l) l := by
  have h := ptpArrive_noted (s := s) (p := p) (l := l)
  unfold State.frameArrives
  rw [if_neg (by simp [ht]), if_neg (by simp [hs])]
  dsimp only
  rw [hp, ← h.classify, ← h.flow, ← h.admits]

theorem countedBy_bump (h : Noted s t) (hr : (Safety.eventSide r || arrivalRegs.contains r) = false := by rfl) :
    Safety.countedBy s (t.bump r i n) r i n := h.counted (by rw [Safety.countedBy, get_bump_same]) hr

/-- What a frame's arrival at a packet port does, its RS-FEC counts aside. -/
theorem frameArrives_reports (ht : s.transparentPort p = false) :
    (s.frameSound p l = false → Safety.countedBy s (s.frameArrives p l) .portClsErrored p 1
      ∧ (s.frameArrives p l).flowQueue = s.flowQueue)
    ∧ (s.frameSound p l = true → pauseOf l = none → s.classify p l = 0xFFFF →
      Safety.countedBy s (s.frameArrives p l) .portClsUnclassified p 1 ∧ (s.frameArrives p l).flowQueue = s.flowQueue)
    ∧ (s.frameSound p l = true → (pauseOf l).isSome = true → Safety.countedBy s (s.frameArrives p l) .portPfcReceived p 1)
    ∧ ∀ f, f ≠ 0xFFFF → s.frameSound p l = true → pauseOf l = none → s.classify p l = f →
      (fEnable (s.flow f) = false → Safety.countedBy s (s.frameArrives p l) .portClsDisabledFlow p 1)
      ∧ (fEnable (s.flow f) = true → s.admits = true → s.nat .flowFill f + 8 + l.length ≤ 512 * fDepth (s.flow f) →
        (8 + l.length + 511) / 512 ≤ s.nat .poolFree 0 → (s.frameArrives p l).queueOf f = s.queueOf f ++ [⟨false, l⟩])
      ∧ (fEnable (s.flow f) = true → s.admits = true → 512 * fDepth (s.flow f) < s.nat .flowFill f + 8 + l.length →
        fPause (s.flow f) = false → Safety.countedBy s (s.frameArrives p l) .flowDepthDrops f 1
          ∧ (s.frameArrives p l).flowQueue = s.flowQueue) := by
  have h := ptpArrive_noted (s := s) (p := p) (l := l)
  have self : Noted s s := ⟨Apart.refl s, rfl, rfl⟩
  refine ⟨fun hs => ?_, fun hs hp hc => ?_, fun hs hp => ?_, fun f hf hs hp hc => ⟨fun he => ?_, fun he ha hd hq => ?_,
    fun he ha hd hq => ?_⟩⟩
  · rw [frameArrives_errored ht hs]
    exact ⟨countedBy_bump self, congrArg Prod.fst stock_bump⟩
  · rw [frameArrives_client ht hs hp, if_pos hc]
    exact ⟨countedBy_bump h, congrArg Prod.fst (stock_bump.trans h.stock)⟩
  · obtain ⟨q, hq⟩ := Option.isSome_iff_exists.1 hp
    rw [frameArrives_pause ht hs hq]
    refine (each_view (view := fun y => y.get .portPfcReceived p) fun y x _ => ?_).trans (countedBy_bump h)
    exact get_set_reg _ _ (by decide)
  · rw [frameArrives_client ht hs hp, hc, if_neg hf, if_pos (by simp [he])]
    exact countedBy_bump h
  · rw [frameArrives_client ht hs hp, hc, if_neg hf, if_neg (by simp [he, ha]), ← h.queueOf]
    exact takeIn_appends (by rw [h.flow, h.nat]; exact hd) (by rw [h.nat]; exact hq)
  · rw [frameArrives_client ht hs hp, hc, if_neg hf, if_neg (by simp [he, ha])]
    obtain ⟨h1, h2⟩ := takeIn_drops (s := s.ptpArrive p l) (f := f) (l := l) (by rw [h.flow, h.nat]; exact hd)
      (by rw [h.flow]; exact hq)
    exact ⟨h.counted h1, h2.trans (congrArg Prod.fst h.stock)⟩

/-! ## Blocks at a transparent port -/

/-- The words that the blocks of a port complete, and the bits behind them. -/
def blockWords (s : State) (p : Nat) (l : List (BitVec 257)) : List Nat × List Bool :=
  pcsWords ((s.blob .xPcsTail (s.nat .portClsDefaultFlow p)).map fun b => b != 0) l

variable {x : List (BitVec 257)}

/-- The bits behind the last whole word are kept. -/
def tailKept (p : Nat) (x : List (BitVec 257)) (s : State) : State :=
  s.setBlob .xPcsTail (s.nat .portClsDefaultFlow p) ((blockWords s p x).2.map fun b => BitVec.ofNat 8 b.toNat)

/-- The room of a transparent flow in words: under its depth limit, and in the pool with the rest of its last tile. -/
def roomOf (s : State) (f v : Nat) : Nat :=
  min (64 * fDepth v - (s.wordsOf f).length)
    ((512 * (s.nat .poolFree 0 + tilesFor (s.nat .xFlowOffset f) (8 * (s.wordsOf f).length))
      - (s.nat .xFlowOffset f + 8 * (s.wordsOf f).length)) / 8)

/-- Words that come join the queue of a flow whose entry is v as far as there is room. -/
def wordsTaken (f v : Nat) (w : List Nat) (s : State) : State :=
  let s' := (s.bump .xFlowCame f w.length).putWords f (s.wordsOf f ++ w.take (roomOf s f v)) 0
  if fCountRx v then s' else s'.bump .flowcountBytes f (8 * min (roomOf s f v) w.length)

/-- n words that have no room are missing: their tile fails custody, and the slip is counted. -/
def wordsLost (f v o n : Nat) (s : State) : State :=
  let tile := (o + 8 * (s.wordsOf f).length - 1) / 512
  (if (s.flowMarks f).contains tile then s else s.setBlob .xFlowMarks f (numberBytes (s.flowMarks f ++ [tile]))).slip
    (fTrib v) n

/-- The words of blocks that come at a transparent port. -/
def wordsCome (f v : Nat) (w : List Nat) (s : State) : State :=
  if !s.admits then s.bump .flowFlushed f (8 * w.length)
  else if w.length ≤ roomOf s f v then wordsTaken f v w s
  else wordsLost f v (s.nat .xFlowOffset f) (w.length - roomOf s f v) (wordsTaken f v w s)

theorem pcsIn_eq (ht : s.transparentPort p = true) (he : fEnable (s.flow (s.nat .portClsDefaultFlow p)) = true) :
    s.pcsIn p x = wordsCome (s.nat .portClsDefaultFlow p) (s.flow (s.nat .portClsDefaultFlow p)) (blockWords s p x).1
      (tailKept p x s) := by
  unfold State.pcsIn
  dsimp only
  rw [if_neg (by simp [ht, he])]
  rfl

/-- What the words of a transparent port write, beside events. -/
abbrev wordRegs : List Reg := [.xPcsTail, .flowFlushed, .xFlowCame, .flowcountBytes, .calSlips] ++ fillRegs

theorem apart_wordsTaken (w : Wide K) {l : List Nat} (h : Apart K s₀ s) (hK : ∀ r ∈ wordRegs, K r = true) :
    Apart K s₀ (wordsTaken f k l s) := by
  have hp : Apart K s₀ ((s.bump .xFlowCame f l.length).putWords f (s.wordsOf f ++ l.take (roomOf s f k)) 0) :=
    apart_putWords w (apart_bump h (hK _ (by decide))) fun r hr => hK r (List.mem_append_right _ hr)
  exact apart_ite hp (apart_bump hp (hK _ (by decide)))

theorem apart_wordsLost (w : Wide K) {o : Nat} (h : Apart K s₀ s) (hK : ∀ r ∈ wordRegs, K r = true) :
    Apart K s₀ (wordsLost f k o n s) := by
  unfold wordsLost State.slip
  dsimp only
  have hm : Apart K s₀ (if (s.flowMarks f).contains ((o + 8 * (s.wordsOf f).length - 1) / 512) then s
      else s.setBlob .xFlowMarks f (numberBytes (s.flowMarks f ++ [(o + 8 * (s.wordsOf f).length - 1) / 512]))) :=
    apart_ite h (apart_setBlob h (hK _ (by decide)))
  exact apart_ite hm (apart_raise w (apart_bump hm (hK _ (by decide))))

theorem apart_wordsCome (w : Wide K) {l : List Nat} (h : Apart K s₀ s) (hK : ∀ r ∈ wordRegs, K r = true) :
    Apart K s₀ (wordsCome f k l s) :=
  apart_ite (apart_bump h (hK _ (by decide))) (apart_ite (apart_wordsTaken w h hK)
    (apart_wordsLost w (apart_wordsTaken w h hK) hK))

theorem wordsTaken_words {l : List Nat} (h : l.length ≤ roomOf s f k) :
    (wordsTaken f k l s).wordsOf f = s.wordsOf f ++ l := by
  have hp := (putWords_stock (s := s.bump .xFlowCame f l.length) (f := f) (q := s.wordsOf f ++ l.take (roomOf s f k)) (n := 0)).1
  unfold wordsTaken
  dsimp only
  rw [List.take_of_length_le h] at hp ⊢
  split
  · exact hp
  · exact (congrArg (fun y : _ × _ => sget y.2 f []) stock_bump).trans hp

/-- Words that have no place while client data is not admitted are counted, and no queue takes them. -/
theorem wordsCome_shut {l : List Nat} (h : s.admits = false) : (wordsCome f k l s).flowWords = s.flowWords
    ∧ Safety.countedBy s (wordsCome f k l s) .flowFlushed f (8 * l.length) := by
  rw [wordsCome, if_pos (by simp [h])]
  exact ⟨congrArg Prod.snd stock_bump, by rw [Safety.countedBy, get_bump_same]⟩

theorem wordsCome_fit {l : List Nat} (ha : s.admits = true) (h : l.length ≤ roomOf s f k) :
    (wordsCome f k l s).wordsOf f = s.wordsOf f ++ l := by
  rw [wordsCome, if_neg (by simp [ha]), if_pos h]
  exact wordsTaken_words h

theorem Noted.roomOf (h : Noted s t) : roomOf t f k = roomOf s f k := by
  unfold Sys2Proof.Laws.roomOf
  rw [h.wordsOf, h.nat, h.nat]

theorem Noted.blockWords (h : Noted s t) : blockWords t p x = blockWords s p x := by
  unfold Sys2Proof.Laws.blockWords
  rw [h.nat, h.apart.blobs _ _ rfl]

/-- What the arrival of blocks at a transparent port does, its RS-FEC counts aside. -/
theorem pcsIn_reports (h : Noted s t) (ht : s.transparentPort p = true)
    (he : fEnable (s.flow (s.nat .portClsDefaultFlow p)) = true) :
    (s.admits = true → (blockWords s p x).1.length ≤ roomOf s (s.nat .portClsDefaultFlow p)
        (s.flow (s.nat .portClsDefaultFlow p)) →
      (t.pcsIn p x).wordsOf (s.nat .portClsDefaultFlow p)
        = s.wordsOf (s.nat .portClsDefaultFlow p) ++ (blockWords s p x).1)
    ∧ (s.admits = false → (t.pcsIn p x).flowWords = s.flowWords
      ∧ Safety.countedBy s (t.pcsIn p x) .flowFlushed (s.nat .portClsDefaultFlow p) (8 * (blockWords s p x).1.length)) := by
  have hf : t.nat .portClsDefaultFlow p = s.nat .portClsDefaultFlow p := h.nat
  rw [pcsIn_eq (by rw [h.transparentPort, ht]) (by rw [hf, h.flow, he]), hf, h.flow, h.blockWords]
  refine ⟨fun ha hr => ?_, fun ha => ?_⟩
  · have hk : (tailKept p x t).admits = true := (show _ = t.admits from rfl).trans (h.admits.trans ha)
    have hw : (tailKept p x t).wordsOf (s.nat .portClsDefaultFlow p) = s.wordsOf (s.nat .portClsDefaultFlow p) :=
      (show _ = t.wordsOf _ from rfl).trans h.wordsOf
    rw [wordsCome_fit hk, hw]
    rw [← h.roomOf] at hr
    exact hr
  · have hk : (tailKept p x t).admits = false := (show _ = t.admits from rfl).trans (h.admits.trans ha)
    obtain ⟨h1, h2⟩ := wordsCome_shut (f := s.nat .portClsDefaultFlow p) (k := s.flow (s.nat .portClsDefaultFlow p))
      (l := (blockWords s p x).1) hk
    exact ⟨h1.trans (congrArg Prod.snd h.stock), h.counted (t := t) h2⟩

theorem roomOf_fits {m : Nat} (hd : (s.wordsOf f).length + m ≤ 64 * fDepth k)
    (hp : s.nat .xFlowOffset f + 8 * (s.wordsOf f).length + 8 * m
      ≤ 512 * (s.nat .poolFree 0 + tilesFor (s.nat .xFlowOffset f) (8 * (s.wordsOf f).length))) : m ≤ roomOf s f k := by
  unfold Sys2Proof.Laws.roomOf
  omega

end Sys2Proof.Laws

namespace Sys2Proof

open Sys2Proof.Machine Sys2Proof.Laws

/-- Settles O35: the RS-FEC counts and a timestamp leave what the decision on an arrival rests on; each decision then counts
or stores the one thing it names. -/
theorem hostFramesAreClassifiedAndAdmitted : Obligations.HostFramesAreClassifiedAndAdmitted := by
  refine ⟨fun s p l fec hp he hd ht => ?_, fun s p l fec hp he hd ht => ?_, fun s p hp hm hd => ?_, fun s p hm => ?_⟩
  · have h := fecCounted_noted (s := s) (p := p) (fec := fec)
    have hx : exec (.hostFrameReceive p (.frame l) fec) s = .next ((fecCounted p fec s).frameArrives p l) :=
      (live_running (f := fun s => s.hostFrame p (.frame l) fec) hp).trans (congrArg Host.Outcome.next (hostFrame_eq he hd))
    have ha : Apart (fun r => Safety.eventSide r || (admitRegs ++ [Reg.tsqOverflow, .tsqDropped, .xTsqSecond]).contains r)
        (fecCounted p fec s) ((fecCounted p fec s).frameArrives p l) :=
      apart_frameArrives (wide_events _) (Apart.refl _) (by decide)
    obtain ⟨h1, h2, h3, h4⟩ := frameArrives_reports (s := fecCounted p fec s) (p := p) (l := l) (h.transparentPort.trans ht)
    rw [h.frameSound, h.classify, h.admits] at *
    have hq : (fecCounted p fec s).flowQueue = s.flowQueue := congrArg Prod.fst h.stock
    refine ⟨_, hx, ?_, fun a => ?_, fun a b c => ?_, fun a b => ?_, fun f hf a b c => ⟨fun d => ?_, fun d e g k => ?_,
      fun d e g k => ?_⟩⟩
    · exact (ha.regs _ _ rfl).trans fecCounted_count
    · exact ⟨h.counted (h1 a).1, (h1 a).2.trans hq⟩
    · exact ⟨h.counted (h2 a b c).1, (h2 a b c).2.trans hq⟩
    · exact h.counted (h3 a b)
    · exact h.counted ((h4 f hf a b c).1 (by rw [h.flow]; exact d))
    · rw [(h4 f hf a b c).2.1 (by rw [h.flow]; exact d) e (by rw [h.flow, h.nat]; exact g) (by rw [h.nat]; exact k), h.queueOf]
    · obtain ⟨x, y⟩ := (h4 f hf a b c).2.2 (by rw [h.flow]; exact d) e (by rw [h.flow, h.nat]; exact g) (by rw [h.flow]; exact k)
      exact ⟨h.counted x, y.trans hq⟩
  · intro f w q o hf
    have h := fecCounted_noted (s := s) (p := p) (fec := fec)
    have hx : exec (.hostFrameReceive p (.blocks l) fec) s = .next ((fecCounted p fec s).pcsIn p l) :=
      (live_running (f := fun s => s.hostFrame p (.blocks l) fec) hp).trans (congrArg Host.Outcome.next (hostFrame_eq he hd))
    have ha : Apart (fun r => Safety.eventSide r || wordRegs.contains r) (fecCounted p fec s) ((fecCounted p fec s).pcsIn p l) := by
      rw [pcsIn_eq (h.transparentPort.trans ht) (by rw [h.nat, h.flow]; exact hf)]
      exact apart_wordsCome (wide_events _) (apart_setBlob (Apart.refl _)) (by decide)
    obtain ⟨h1, h2⟩ := pcsIn_reports (x := l) h ht hf
    exact ⟨_, hx, (ha.regs _ _ rfl).trans fecCounted_count, fun a b d => h1 a (roomOf_fits b d), h2⟩
  · have hx : (s.sendPfc p (s.nat .portPfcAssertedMask p) (s.nat .portPfcAssertedMask p))
        = (s.bump .portPfcSent p).emit (.pfc p (s.nat .portPfcAssertedMask p) (s.nat .portPfcAssertedMask p)) :=
      if_neg (by simp [hd])
    refine ⟨_, (live_running (f := fun s => _) hp).trans (congrArg Host.Outcome.next ((if_neg hm).trans hx)), ?_, ?_, ?_⟩
    · exact ⟨[_], congrArg (· ++ _) bump_out, List.mem_singleton.2 rfl⟩
    · rw [Safety.countedBy, emit_get, get_bump_same]
    · exact apart_iff.2 ((apart_bump (Apart.refl s)).other rfl)
  · exact live_still (f := fun s => _) (if_pos hm)

end Sys2Proof

/-! # Flow entries, the calendar and the mapper (R241, R242, R245, R251, R252) -/

namespace Sys2Proof.Laws

set_option Elab.async false

open Sys2Proof.Machine

variable {s₀ s t u : State} {cl : Client} {r : Reg} {i j n b c e f p k d : Nat} {v : Int} {L : List Reg}
  {K : Reg → Bool}

/-! ## Flow entries -/

theorem ready_stock : stockOf (ready s cl) = stockOf s := by
  obtain ⟨a, w, q, l, h⟩ := ready_form (s := s) (cl := cl)
  rw [h]
  rfl

theorem reply_stock {a : Reply} : stockOf (s.reply cl a) = stockOf s := by
  obtain ⟨b, w, l, o, h⟩ := reply_form (s := s) (cl := cl) a
  rw [h]
  rfl

theorem queueOf_congr (h : stockOf t = stockOf s) : t.queueOf f = s.queueOf f :=
  congrArg (fun x : _ × _ => sget x.1 f []) h

theorem wordsOf_congr (h : stockOf t = stockOf s) : t.wordsOf f = s.wordsOf f :=
  congrArg (fun x : _ × _ => sget x.2 f []) h

/-- What a flow entry that takes force writes beside itself and events. -/
abbrev flowSides : List Reg := [.flowFlushed, .xFlowMf, .xFlowArrived, .xFlowCame, .xPcsGone, .xPcsBad, .xPcsTail] ++ fillRegs

theorem apart_flushFlow (w : Wide K) (h : Apart K s₀ s) (hK : ∀ r ∈ flowSides, K r = true) : Apart K s₀ (s.flushFlow f) :=
  have hf : ∀ r ∈ fillRegs, K r = true := fun r hr => hK r (List.mem_append_right _ hr)
  apart_ite h (apart_putWords w (apart_putQueue w (apart_bump h (hK _ (by decide))) hf) hf)

/-- The contents of a flow that holds anything are gone, frames and words. -/
theorem flushFlow_empty (h : s.nat .flowFill f ≠ 0) :
    (s.flushFlow f).queueOf f = [] ∧ (s.flushFlow f).wordsOf f = [] := by
  have he : s.flushFlow f = ((s.bump .flowFlushed f (s.nat .flowFill f)).putQueue f [] 0).putWords f [] 0 := if_neg h
  obtain ⟨hw, -, hq⟩ := putWords_stock (s := (s.bump .flowFlushed f (s.nat .flowFill f)).putQueue f [] 0) (f := f) (q := [])
    (n := 0)
  rw [he]
  exact ⟨(congrArg (fun x => sget x f []) hq).trans putQueue_stock.1, hw⟩

/-- The contents of a flow whose entry loses its enable are discarded. -/
def flowShut (f x : Nat) (s : State) : State :=
  if fEnable (s.nat .flowEntry f) && !fEnable x then (s.set .flowEntry f (x : Nat)).flushFlow f else s.set .flowEntry f (x : Nat)

/-- A flow that becomes enabled starts anew. -/
def flowStart (f : Nat) (fresh : Bool) (s : State) : State :=
  if fresh then
    (s.set .xFlowMf f 0 |>.set .xFlowArrived f 0 |>.set .xFlowCame f 0 |>.set .xPcsGone f 0 |>.set .xPcsBad f 0).setBlob
      .xPcsTail f []
  else s

theorem setFlow_eq {x : Nat} : s.setFlow f x = (((flowStart f (!fEnable (s.nat .flowEntry f) && fEnable x)
    (flowShut f x s)).assertEval f).pfcEval (fPort (s.nat .flowEntry f))).pfcEval (fPort x) := rfl

theorem stock_flowStart {q : Bool} : stockOf (flowStart f q s) = stockOf s := stock_ite rfl rfl

theorem setFlow_stock {x : Nat} : stockOf (s.setFlow f x) = stockOf (flowShut f x s) := by
  rw [setFlow_eq]
  exact stock_pfcEval.trans (stock_pfcEval.trans (stock_assertEval.trans stock_flowStart))

theorem setFlow_apart {x : Nat} : Apart (fun r => Safety.eventSide r || flowSides.contains r) (s.set .flowEntry f (x : Nat))
    (s.setFlow f x) := by
  have w := wide_events flowSides
  have hK : ∀ r ∈ flowSides, (Safety.eventSide r || flowSides.contains r) = true := by decide
  have hf : ∀ r ∈ fillRegs, (Safety.eventSide r || flowSides.contains r) = true := by decide
  have h0 : Apart (fun r => Safety.eventSide r || flowSides.contains r) (s.set .flowEntry f (x : Nat)) (flowShut f x s) :=
    apart_ite (apart_flushFlow w (Apart.refl _) hK) (Apart.refl _)
  rw [setFlow_eq]
  exact apart_pfcEval (apart_pfcEval (apart_assertEval (apart_ite (apart_setBlob (apart_set (apart_set (apart_set (apart_set
    (apart_set h0)))))) h0) hf) hf) hf

theorem setFlow_entry {x : Nat} : (s.setFlow f x).get .flowEntry j = if j = f then (x : Int) else s.get .flowEntry j := by
  rw [setFlow_apart.regs _ _ rfl]
  split
  · next h => rw [h, get_set_same]
  · next h => exact get_set_other _ _ fun he => h (Prod.mk.inj he).2

theorem setFlow_nat {x : Nat} : (s.setFlow f x).nat .flowEntry j = if j = f then x else s.nat .flowEntry j := by
  rw [State.nat, setFlow_entry]
  split <;> rfl

/-- An entry that loses its enable loses its queue. -/
theorem setFlow_shut {x : Nat} (ho : fEnable (s.nat .flowEntry f) = true) (hn : fEnable x = false)
    (hf : s.nat .flowFill f ≠ 0) : (s.setFlow f x).queueOf f = [] ∧ (s.setFlow f x).wordsOf f = [] := by
  have he : flowShut f x s = (s.set .flowEntry f (x : Nat)).flushFlow f := if_pos (by simp [ho, hn])
  have hg : (s.set .flowEntry f (x : Nat)).nat .flowFill f ≠ 0 := by
    rw [State.nat, get_set_reg _ _ (by decide), ← State.nat]
    exact hf
  obtain ⟨hq, hw⟩ := flushFlow_empty hg
  have hs := (setFlow_stock (s := s) (f := f) (x := x)).trans (congrArg stockOf he)
  exact ⟨(queueOf_congr hs).trans hq, (wordsOf_congr hs).trans hw⟩

theorem setFlow_out {x : Nat} : s.out <+: (s.setFlow f x).out := by
  have := fact_false
  exact (kept_setFlow (κ := noScope) (Kept.refl s)).out

theorem ready_flowEntryCode {x : Nat} : (ready s cl).flowEntryCode f x = s.flowEntryCode f x := by
  have hc : (ready s cl).classifier = s.classifier := by
    obtain ⟨a, w, q, l, h⟩ := ready_form (s := s) (cl := cl)
    rw [h]
  unfold State.flowEntryCode
  rw [ready_nat (by decide), hc]

/-- Entries set in turn, no unit twice, all stand. -/
theorem setFlows_nat {l : List (Nat × Nat)} (hn : (l.map Prod.snd).Nodup) {a : Nat × Nat} (ha : a ∈ l) :
    (s.each l fun s e => s.setFlow e.2 e.1).nat .flowEntry a.2 = a.1 := by
  induction l generalizing s with
  | nil => cases ha
  | cons b l ih =>
    obtain ⟨hb, hl⟩ := List.nodup_cons.1 hn
    rw [each_cons]
    rcases List.mem_cons.1 ha with rfl | ha
    · have stays : ∀ (m : List (Nat × Nat)) (y : State), (∀ x ∈ m, x.2 ≠ a.2) →
          (y.each m fun s e => s.setFlow e.2 e.1).nat .flowEntry a.2 = y.nat .flowEntry a.2 := fun m y hm =>
        each_view (view := fun y => y.nat .flowEntry a.2) fun y x hx => by
          show (y.setFlow x.2 x.1).nat .flowEntry a.2 = _
          rw [setFlow_nat, if_neg fun h => hm x hx h.symm]
      rw [stays l _ fun x hx he => hb (List.mem_map.2 ⟨x, hx, he⟩), setFlow_nat, if_pos rfl]
    · exact ih hl ha

theorem zipIdx_nodup {α : Type} {l : List α} : (l.zipIdx.map Prod.snd).Nodup := by
  rw [List.zipIdx_map_snd]
  exact List.nodup_range'

theorem flowTable_find {l : List (Nat × Nat)} :
    (l.find? fun e => (ready s cl).flowEntryCode e.2 e.1 != 0) = l.find? fun e => s.flowEntryCode e.2 e.1 != 0 := by
  simp only [ready_flowEntryCode]

/-! ## Units copied -/

theorem alike_each {α : Type} {l : List α} {g : State → α → State} (h : Alike L s₀ s)
    (hg : ∀ t a, Alike L s₀ t → Alike L s₀ (g t a)) : Alike L s₀ (s.each l g) := each_holds (P := Alike L s₀) h hg

theorem copyUnits_apart {dst src : Reg} : Apart [dst].contains s (s.copyUnits dst src) :=
  apart_each (apart_each (Apart.refl s) fun _ _ ht => apart_set ht (by simp)) fun _ _ ht => apart_set ht (by simp)

/-- Where unit e reads v at its source, its copy reads v. -/
def Copied (dst src : Reg) (e : Nat) (v : Int) (t : State) : Prop := t.get src e = v → t.get dst e = v

theorem copied_set {dst src : Reg} (hn : src ≠ dst) {a : Nat} (h : Copied dst src e v t) :
    Copied dst src e v (t.set dst a (t.get src a)) := by
  intro hs
  rw [get_set_reg _ _ hn] at hs
  by_cases ha : e = a
  · subst ha
    rw [get_set_same, hs]
  · rw [get_set_other _ _ fun he => ha (Prod.mk.inj he).2]
    exact h hs

theorem copied_same {dst src : Reg} (hn : src ≠ dst) : Copied dst src e v (t.set dst e (t.get src e)) := fun hs => by
  rw [get_set_reg _ _ hn] at hs
  rw [get_set_same, hs]

/-- Units set in turn from their source, unit e among them or copied before. -/
theorem copied_each {dst src : Reg} (hn : src ≠ dst) {l : List Nat} (h : e ∈ l ∨ Copied dst src e v s) :
    Copied dst src e v (s.each l fun s i => s.set dst i (s.get src i)) := by
  rcases h with h | h
  · exact each_reach h (fun y => copied_same hn) fun y a h => copied_set hn h
  · exact each_holds h fun y a h => copied_set hn h

theorem copyUnits_get {dst src : Reg} (hn : src ≠ dst) (hd : dst.dflt e = src.dflt e) :
    (s.copyUnits dst src).get dst e = s.get src e := by
  have hsrc : (s.copyUnits dst src).get src e = s.get src e := copyUnits_apart.regs _ _ (by simpa using hn)
  have h1 : (s.each ((s.listed dst).map Prod.fst) fun s i => s.set dst i (s.get src i)).get src e = s.get src e :=
    each_view (view := fun y => y.get src e) fun y a _ => get_set_reg _ _ hn
  refine (copied_each hn ?_ : Copied dst src e (s.get src e) (s.copyUnits dst src)) hsrc
  by_cases hs : s.get src e = src.dflt e
  · refine .inr (copied_each hn ?_)
    by_cases hg : s.get dst e = dst.dflt e
    · exact .inr fun _ => hg.trans (hd.trans hs.symm)
    · obtain ⟨x, hx⟩ := mem_listed hg
      exact .inl (List.mem_map_of_mem hx)
  · obtain ⟨x, hx⟩ := mem_listed (show _ ≠ _ from h1 ▸ hs)
    exact .inl (List.mem_map_of_mem hx)

/-! ## The calendar -/

/-- What the calendar's settling rests on. -/
abbrev calRests : List Reg := [.tsiActiveRow, .xTableLost, .carrierState, .spanStandby, .spanActive, .calStandbyEntry,
  .calActiveEntry]

theorem orderZero_congr (h : Alike calRests s t) : t.orderZero d n = s.orderZero d n := by
  unfold State.orderZero State.tribRows State.pageRows State.tableRows State.flag
  simp only [(h .tsiActiveRow (by decide)).1, (h .xTableLost (by decide)).2]

theorem idle_congr (h : Alike calRests s t) : t.idle c = s.idle c := by
  unfold State.idle
  rw [(h .carrierState (by decide)).2]

theorem spanTribs_congr (h : Alike calRests s t) : t.spanTribs = s.spanTribs := by
  unfold State.spanTribs
  rw [(h .spanStandby (by decide)).1, (h .spanActive (by decide)).1]

/-- A tributary has to wait for its boundary before it takes the standby page. -/
def waits (s : State) (t : Nat) : Bool :=
  match s.orderZero 0 t with
  | some c => !s.idle c
  | none => false

theorem waits_congr (h : Alike calRests s t) : waits t n = waits s n := by
  unfold waits
  rw [orderZero_congr h]
  cases s.orderZero 0 n with
  | none => rfl
  | some c => exact congrArg (! ·) (idle_congr h)

/-- Tributaries that need not wait take the standby page. -/
def calTaken (s : State) : State := s.each (s.spanTribs.filter fun t => !waits s t) State.calTake

/-- The standby page becomes the active one. -/
def calFlipped (s : State) : State :=
  let s := (s.copyUnits .calActiveEntry .calStandbyEntry).copyUnits .spanActive .spanStandby
  let s := s.each ((s.listed .xCalTaken).map Prod.fst) fun s t => s.set .xCalTaken t 0
  ((s.set .calPending 0 0).bump .calFlips 0).raise (evDev 67) []

theorem calSettle_eq (h : s.flag .calPending 0 = true) : s.calSettle
    = if (calTaken s).spanTribs.any fun t => !(calTaken s).flag .xCalTaken t then calTaken s else calFlipped (calTaken s) := by
  unfold State.calSettle
  rw [if_neg (by simp [h])]
  rfl

/-- What taking the standby page writes. -/
abbrev takeRegs : List Reg := [.xCalCredit, .xCalPtr, .xCalTaken]

theorem calTake_apart (h : Apart takeRegs.contains s₀ s) : Apart takeRegs.contains s₀ (s.calTake n) :=
  apart_ite h (apart_set (apart_set (apart_each h fun _ _ ht => apart_set ht)))

theorem calTake_alike (h : Alike calRests s₀ s) : Alike calRests s₀ (s.calTake n) := by
  unfold State.calTake
  split
  · exact h
  · exact alike_set (alike_set (alike_each h fun _ _ ht => alike_set ht (by decide)) (by decide)) (by decide)

theorem calTake_taken : (s.calTake n).flag .xCalTaken i = (decide (i = n) || s.flag .xCalTaken i) := by
  have hc : ∀ v, ((s.clearCredits n).set .xCalTaken n v).get .xCalTaken i = if i = n then v else s.get .xCalTaken i := fun v => by
    split
    · next h => rw [h, get_set_same]
    · next h =>
      rw [get_set_other _ _ fun he => h (Prod.mk.inj he).2]
      unfold State.clearCredits
      rw [get_set_reg _ _ (by decide)]
      exact each_view (view := fun y => y.get .xCalTaken i) fun y a _ => get_set_reg _ _ (by decide)
  unfold State.calTake
  split
  · next h =>
    by_cases hi : i = n
    · rw [hi, h]; simp
    · simp [hi]
  · unfold State.flag
    rw [hc]
    split <;> simp_all

theorem calTaken_alike : Alike calRests s (calTaken s) := alike_each (Alike.refl _ s) fun _ _ ht => calTake_alike ht

theorem calTaken_apart : Apart takeRegs.contains s (calTaken s) := apart_each (Apart.refl s) fun _ _ ht => calTake_apart ht

theorem calTaken_out : (calTaken s).out = s.out := by
  refine each_view (view := State.out) fun y a _ => ?_
  unfold State.calTake State.clearCredits
  split
  · rfl
  · exact (show _ = State.out (State.each _ _ _) from rfl).trans (each_view (view := State.out) fun _ _ _ => rfl)

/-- A tributary that need not wait has taken the page. -/
theorem calTaken_now (hm : n ∈ s.spanTribs) (hw : waits s n = false) : (calTaken s).flag .xCalTaken n = true :=
  each_reach (P := fun y => y.flag .xCalTaken n = true) (List.mem_filter.2 ⟨hm, by simp [hw]⟩)
    (fun y => by rw [calTake_taken]; simp) fun y a h => by rw [calTake_taken, h]; simp

/-- One that waits has not, where it had not before. -/
theorem calTaken_later (hw : waits s n = true) (ht : s.flag .xCalTaken n = false) : (calTaken s).flag .xCalTaken n = false := by
  refine (each_view (view := fun y => y.flag .xCalTaken n) fun y a ha => ?_).trans ht
  have hn : n ≠ a := fun he => by
    rw [← he, List.mem_filter] at ha
    simp [hw] at ha
  rw [calTake_taken]
  simp [hn]

/-- What the flip writes, beside events. -/
abbrev flipRegs : List Reg := [.calActiveEntry, .spanActive, .xCalTaken, .calPending, .calFlips]

theorem calFlipped_apart : Apart (fun r => Safety.eventSide r || flipRegs.contains r) s (calFlipped s) := by
  have h1 : Apart (fun r => Safety.eventSide r || flipRegs.contains r) s
      ((s.copyUnits .calActiveEntry .calStandbyEntry).copyUnits .spanActive .spanStandby) :=
    (copyUnits_apart.mono fun r hr => by simp_all).trans (copyUnits_apart.mono fun r hr => by simp_all)
  exact apart_raise (wide_events _) (apart_bump (apart_set (apart_each h1 fun _ _ ht => apart_set ht)))

/-- The state before the flip is told. -/
def calCopied (s : State) : State :=
  let s := (s.copyUnits .calActiveEntry .calStandbyEntry).copyUnits .spanActive .spanStandby
  s.each ((s.listed .xCalTaken).map Prod.fst) fun s t => s.set .xCalTaken t 0

theorem calCopied_get (h : r ∉ [Reg.xCalTaken, .spanActive, .calActiveEntry]) : (calCopied s).get r i = s.get r i := by
  simp only [List.mem_cons, List.not_mem_nil, or_false, not_or] at h
  obtain ⟨h1, h2, h3⟩ := h
  refine (each_view (view := fun y => y.get r i) fun y a _ => get_set_reg _ _ h1).trans ?_
  rw [copyUnits_apart.regs _ _ (by simpa using h2), copyUnits_apart.regs _ _ (by simpa using h3)]

theorem calFlipped_reports : (calFlipped s).get .calPending 0 = 0 ∧ Safety.countedBy s (calFlipped s) .calFlips 0 1
    ∧ Safety.raised s (calFlipped s) (evDev 67) ∧ ∀ e, (calFlipped s).get .calActiveEntry e = s.get .calStandbyEntry e := by
  have hf : calFlipped s = (((calCopied s).set .calPending 0 0).bump .calFlips 0).raise (evDev 67) [] := rfl
  rw [hf]
  refine ⟨?_, ?_, raised_of_count rfl (raised_raise ?_ (by decide)), fun e => ?_⟩
  · simp (disch := decide) only [get_raise, get_bump_other (.inl _), get_set_same]
  · rw [Safety.countedBy, get_raise, get_bump_same, State.nat, get_set_reg _ _ (by decide), calCopied_get (by decide), ← State.nat]
  · rw [get_bump_other (.inl (by decide)), get_set_reg _ _ (by decide), calCopied_get (by decide)]
  · rw [get_raise, get_bump_other (.inl (by decide)), get_set_reg _ _ (by decide)]
    refine (each_view (view := fun y => y.get .calActiveEntry e) fun y a _ => get_set_reg _ _ (by decide)).trans ?_
    rw [copyUnits_apart.regs _ _ rfl, copyUnits_get (dst := .calActiveEntry) (src := .calStandbyEntry) (by decide) rfl]

/-- A pending calendar that no tributary holds back takes force. -/
theorem calSettle_flips (hp : s.flag .calPending 0 = true) (h : ∀ n ∈ s.spanTribs, waits s n = false) :
    s.calSettle = calFlipped (calTaken s) := by
  rw [calSettle_eq hp, if_neg]
  rw [spanTribs_congr calTaken_alike, Bool.not_eq_true, List.any_eq_false]
  exact fun n hn => by simp [calTaken_now hn (h n hn)]

/-- One that some tributary holds back stays pending. -/
theorem calSettle_pends (hp : s.flag .calPending 0 = true) (hm : n ∈ s.spanTribs) (hw : waits s n = true)
    (ht : s.flag .xCalTaken n = false) : s.calSettle = calTaken s := by
  rw [calSettle_eq hp, if_pos]
  rw [spanTribs_congr calTaken_alike, List.any_eq_true]
  exact ⟨n, hm, by simp [calTaken_later hw ht]⟩

theorem calReason_congr (hc : ∀ i, t.get .calPending i = s.get .calPending i) (hl : t.listed .spanStandby = s.listed .spanStandby)
    (he : ∀ i, t.get .calStandbyEntry i = s.get .calStandbyEntry i) (hf : ∀ i, t.get .flowEntry i = s.get .flowEntry i) :
    t.calReason = s.calReason := by
  unfold State.calReason State.standbySpans State.spanEntries State.flag State.nat
  simp only [hc, hl, he, hf]

theorem ready_calReason : (ready s cl).calReason = s.calReason :=
  calReason_congr (fun _ => ready_get (by decide)) (ready_listed (by decide)) (fun _ => ready_get (by decide))
    fun _ => ready_get (by decide)

/-! ## The mapper -/

theorem gfpPut_apart {l : List Byte} : Apart [Reg.xGfpBytes, .xClear].contains s (s.gfpPut n l) := by
  unfold State.gfpPut
  exact apart_ite (apart_setBlob (Apart.refl s)) (apart_setBlob ((Apart.refl s).other rfl))

theorem gfpPut_out {l : List Byte} : (s.gfpPut n l).out = s.out := by
  unfold State.gfpPut
  split <;> rfl

theorem mapOut_sent {x : Option (List Byte)} : (s.mapOut n x).out = s.out ++ [.mapped n x] := by
  unfold State.mapOut
  cases x with
  | none => exact gfpPut_out
  | some l => exact gfpPut_out

theorem mapOut_idle : Apart [Reg.xGfpBytes, .xClear].contains s (s.mapOut n none) :=
  ((Apart.refl s).other rfl : Apart _ s (s.emit _)).trans gfpPut_apart

/-- The mapper of a packet tributary sends an idle frame. -/
theorem mapNext_idle {reads : List (Nat × Nat × List Byte)} (ht : s.transparentFlow n = none) (hn : s.get .xTribFillNow n = 0)
    (h : s.fillCode n ≠ 0 ∨ ∀ f ∈ s.spanFlows n, s.queueOf f = []) : s.mapNext n reads = s.mapOut n none := by
  unfold State.mapNext
  dsimp only
  rw [if_neg (by simp [ht]), if_neg (by simp [hn])]
  split
  · rfl
  · next hz =>
    refine if_neg ?_
    rw [Bool.not_eq_true, List.any_eq_false]
    exact fun f hf => by simp [(h.resolve_left hz) f hf]

/-- A turn that has mapped a frame tells so at its end. -/
theorem mapTurn_got {bad : List Nat} {q : List Stored} {m skip credit : Nat} :
    (State.mapTurn n f bad q s m skip credit true).2.2.2 = true := by
  induction q generalizing s m skip credit with
  | nil => rfl
  | cons x q ih =>
    unfold State.mapTurn
    extract_lets out lost skip' s1 s2
    split
    · exact ih
    · split
      · rfl
      · exact ih

/-- A turn at a flow without failed tiles maps the head frame first. -/
theorem mapTurn_head {x : Stored} {q : List Stored} {m credit : Nat} (hc : x.bytes.length ≤ credit) :
    State.mapTurn n f [] (x :: q) s m 0 credit false = State.mapTurn n f [] q
      ((s.putQueue f q x.size).mapOut n (some x.bytes)) (m + x.size) 0 (credit - x.bytes.length) true := by
  have ho : mapOutcome (fTile (s.flow f)) [] m x = 0 := rfl
  have hl : ((tilesHit [] m x).any fun k => decide (k ≤ (m + 7) / 512)) = false := rfl
  rw [State.mapTurn]
  dsimp only
  rw [ho, hl, if_neg Bool.false_ne_true, if_neg (by simp), if_neg hc.not_gt]
  rfl

theorem sent_mapOut {x : List Byte} (ho : s₀.out <+: s.out) (h : (s.mapOut n (some x)).out <+: t.out) :
    Safety.sent s₀ t (.mapped n (some x)) := by
  obtain ⟨l, hl⟩ := ho
  rw [mapOut_sent, ← hl, List.append_assoc] at h
  exact sent_of_prefix h (by simp)

/-- What a turn of the coxswain leaves, once its flow has sent a frame. -/
def turnTold (n f k : Nat) (mine : List Nat) (r : State × Nat × Nat × Bool) (next : Nat) : State :=
  let s := r.1
  let taken := mine.filter fun i => decide (512 * (i + 1) ≤ r.2.1) || (s.queueOf f).isEmpty
  let s := s.custodyFailed 1 n taken.length (some f)
  let s := s.set .xCalCredit (1024 * n + k) (if (s.queueOf f).isEmpty then 0 else (r.2.2.1 : Nat))
  s.set .xCalPtr n (next : Nat)

theorem turnTold_out {mine : List Nat} {y : State × Nat × Nat × Bool} {next : Nat} :
    y.1.out <+: (turnTold n f k mine y next).out := by
  have := fact_false
  exact (kept_custodyFailed (κ := noScope) (Kept.refl y.1)).out

/-- The coxswain at a span of one flow that may be served and has a whole frame within the credit. -/
theorem coxswain_serves {fuel : Nat} {x : Stored} {q : List Stored} (hf : s.spanFlows n = [f]) (he : s.eligible n f = true)
    (hq : s.queueOf f = x :: q) (hc : x.bytes.length ≤ s.nat .xCalCredit (1024 * n) + 2048) :
    Safety.sent s (State.coxswain n [] (fuel + 1) s) (.mapped n (some x.bytes)) := by
  have := fact_false
  rw [show 1024 * n = 1024 * n + 0 from rfl] at hc
  have hk : s.nat .xCalPtr n % max 1 (s.spanFlows n).length = 0 := by rw [hf]; exact Nat.mod_one _
  have hg : (s.spanFlows n).getD (s.nat .xCalPtr n % max 1 (s.spanFlows n).length) 0 = f := by rw [hk, hf]; rfl
  have hw : ¬ (!(s.eligible n f && !(s.queueOf f).isEmpty)) = true := by simp [he, hq]
  have e : State.coxswain n [] (fuel + 1) s = turnTold n f 0 []
      (State.mapTurn n f [] (s.queueOf f) s (s.nat .xFlowOffset f) 0 (s.nat .xCalCredit (1024 * n + 0) + 2048) false)
      ((0 + 1) % max 1 (s.spanFlows n).length) := by
    rw [State.coxswain]
    dsimp only
    rw [hg, hk, if_neg hw]
    refine if_pos ?_
    show (State.mapTurn n f [] (s.queueOf f) s _ 0 _ false).2.2.2 = true
    rw [hq, mapTurn_head hc]
    exact mapTurn_got
  rw [e, hq, mapTurn_head hc]
  refine sent_mapOut (kept_putQueue (κ := noScope) (f := f) (q := q) (n := x.size) (Kept.refl s)).out
    (((kept_mapTurn (κ := noScope) (Kept.refl _)).out).trans turnTold_out)

end Sys2Proof.Laws

namespace Sys2Proof

open Sys2Proof.Machine Sys2Proof.Laws

/-- Settles O37: an entry's own effect is one register and its queue; the tributaries that need not wait take the calendar
before the flip asks whether any is left; the first frame within the credit leaves before the rest of its turn. -/
theorem flowsAndCalendarAreCheckedAndServed : Obligations.FlowsAndCalendarAreCheckedAndServed := by
  refine ⟨⟨fun s cl v ha hc => ?_, fun s cl v ha hc => ?_, fun s cl v ha hc => ?_, fun s cl v ha hc => ?_⟩,
    fun s cl ha hr => ?_, fun s cl ha hr => ?_, fun s u reads hp ht hn h => ?_, fun s u f x q hp hn hc ht hm hf he hq hl => ?_⟩
  · have eff : writeFlow (s.flowSel cl) v.toNat (ready s cl) = ((ready s cl).setFlow (s.flowSel cl) v.toNat, .ack []) := by
      rw [← ready_flowEntryCode (cl := cl)] at hc
      exact if_pos hc
    obtain ⟨a, hx, hk⟩ := write_acked (c := .flowEntryWrite cl v) ha rfl eff (ready_out ▸ setFlow_out)
    have hg : ∀ f, (((ready s cl).setFlow (s.flowSel cl) v.toNat).reply cl a).nat .flowEntry f
        = if f = s.flowSel cl then v.toNat else s.nat .flowEntry f := fun f => by
      rw [State.nat, reply_get (by decide) (by decide), ← State.nat, setFlow_nat, ready_nat (by decide)]
    refine ⟨_, hx, hk, (hg _).trans (if_pos rfl), fun f hf => (hg f).trans (if_neg hf), fun ho hv hn => ?_⟩
    obtain ⟨hq, hw⟩ := setFlow_shut (s := ready s cl) (f := s.flowSel cl) (x := v.toNat) (by rw [ready_nat (by decide)]; exact ho)
      hv (by rw [ready_nat (by decide)]; exact hn)
    exact ⟨(queueOf_congr reply_stock).trans hq, (wordsOf_congr reply_stock).trans hw⟩
  · have eff : writeFlow (s.flowSel cl) v.toNat (ready s cl)
        = (ready s cl, .abort (s.flowEntryCode (s.flowSel cl) v.toNat) 0 0) := by
      unfold writeFlow
      rw [ready_flowEntryCode]
      exact if_neg hc
    obtain ⟨a, hx, hk⟩ := write_aborted (c := .flowEntryWrite cl v) ha rfl eff (out_of_ready rfl)
    exact ⟨_, hx, hk, requestChanges_reply_ready⟩
  · have hn : ((entriesOf 8 v).zipIdx.find? fun e => s.flowEntryCode e.2 e.1 != 0) = none :=
      List.find?_eq_none.2 fun e he => by simp [hc e he]
    have eff : writeFlowTable v (ready s cl) = ((ready s cl).each (entriesOf 8 v).zipIdx fun s e => s.setFlow e.2 e.1, .ack []) := by
      unfold writeFlowTable
      dsimp only
      rw [flowTable_find, hn]
      rfl
    have ho : s.out <+: ((ready s cl).each (entriesOf 8 v).zipIdx fun s e => s.setFlow e.2 e.1).out :=
      each_holds (P := fun y => s.out <+: y.out) (ready_out ▸ List.prefix_rfl) fun y e h => h.trans setFlow_out
    obtain ⟨a, hx, hk⟩ := write_acked (c := .flowTableLoad cl v) ha rfl eff ho
    refine ⟨_, hx, hk, fun e he => ?_⟩
    rw [State.nat, reply_get (by decide) (by decide), ← State.nat]
    exact setFlows_nat zipIdx_nodup he
  · obtain ⟨e, he, hn⟩ := hc
    obtain ⟨y, hy⟩ : ∃ y, ((entriesOf 8 v).zipIdx.find? fun e => s.flowEntryCode e.2 e.1 != 0) = some y :=
      Option.isSome_iff_exists.1 (List.find?_isSome.2 ⟨e, he, by simp [hn]⟩)
    have eff : writeFlowTable v (ready s cl) = (ready s cl, .abort ((ready s cl).flowEntryCode y.2 y.1) 0 0) := by
      unfold writeFlowTable
      dsimp only
      rw [flowTable_find, hy]
      rfl
    obtain ⟨a, hx, hk⟩ := write_aborted (c := .flowTableLoad cl v) ha rfl eff (out_of_ready rfl)
    exact ⟨_, hx, ⟨_, hk⟩, requestChanges_reply_ready⟩
  · have eff : writeCalFlip (ready s cl) = ((ready s cl).set .calRefusal 0 (s.calReason : Nat), .abort 0x08 s.calReason 0) := by
      unfold writeCalFlip
      rw [ready_calReason]
      exact if_pos hr
    obtain ⟨a, hx, hk⟩ := write_aborted (c := .calendarFlip cl) ha rfl eff (out_of_ready rfl)
    exact ⟨_, hx, hk, by rw [reply_get (by decide) (by decide), get_set_same],
      apart_iff.2 (apart_reply (apart_set (apart_ready rfl)) rfl rfl)⟩
  · have eff : writeCalFlip (ready s cl) = (((ready s cl).set .calPending 0 1).calSettle, .ack []) := by
      unfold writeCalFlip
      rw [ready_calReason]
      exact if_neg (not_not.2 hr)
    have hp : ((ready s cl).set .calPending 0 1).flag .calPending 0 = true := flag_set_one
    have ho : s.out <+: ((ready s cl).set .calPending 0 1).calSettle.out := by
      have := fact_false
      exact ready_out ▸ (kept_calSettle (κ := noScope) (Kept.refl ((ready s cl).set .calPending 0 1))).out
    have al : Alike calRests s ((ready s cl).set .calPending 0 1) :=
      alike_set (alike_ready (Alike.refl _ s) (by decide)) (by decide)
    have gg : ∀ r i, r ≠ Reg.bdapRequests → r ≠ .calPending → ((ready s cl).set .calPending 0 1).get r i = s.get r i :=
      fun r i h1 h2 => (get_set_reg _ _ h2).trans (ready_get h1)
    obtain ⟨a, hx, hk⟩ := write_acked (c := .calendarFlip cl) ha rfl eff ho
    have hy : ((ready s cl).set .calPending 0 1).get .calPending 0 = 1 := get_set_same _ _ _ _
    generalize (ready s cl).set .calPending 0 1 = y at *
    refine ⟨_, hx, hk, fun hz => ?_, fun n hn c hc hi hl => ?_⟩
    · have hw : ∀ n ∈ y.spanTribs, waits y n = false := fun n hn => by
        rw [spanTribs_congr al] at hn
        rw [waits_congr al, waits, hz n hn]
      obtain ⟨h1, h2, h3, h4⟩ := calFlipped_reports (s := calTaken y)
      rw [calSettle_flips hp hw]
      have cg : ∀ r i, r ∉ takeRegs → (calTaken y).get r i = y.get r i := fun r i hr => calTaken_apart.regs r i (by simpa using hr)
      refine ⟨?_, ?_, ?_, fun e => ?_⟩
      · rw [reply_get (by decide) (by decide), h1]
      · rw [Safety.countedBy, reply_get (by decide) (by decide), h2, State.nat, cg _ _ (by decide), gg _ _ (by decide) (by decide),
          ← State.nat]
      · rw [Safety.raised, Safety.countedBy, reply_get (by decide) (by decide), h3, State.nat, cg _ _ (by decide),
          gg _ _ (by decide) (by decide), ← State.nat]
      · rw [reply_get (by decide) (by decide), h4, cg _ _ (by decide), gg _ _ (by decide) (by decide)]
    · have hw : waits y n = true := by
        rw [waits_congr al, waits, hc]
        simp [hi]
      rw [calSettle_pends hp (by rw [spanTribs_congr al]; exact hn) hw (by
        rw [State.flag, gg _ _ (by decide) (by decide), ← State.flag]; exact hl), reply_get (by decide) (by decide),
        calTaken_apart.regs _ _ rfl]
      exact hy
  · exact ⟨_, (live_running (f := fun s => s.mapNext u reads) hp).trans (congrArg Host.Outcome.next (mapNext_idle ht hn h)),
      ⟨_, mapOut_sent, List.mem_singleton.2 rfl⟩, apart_iff.2 mapOut_idle⟩
  · have e : s.mapNext u [] = State.coxswain u [] (8 + 1) s := by
      have hb : (([] : List (Nat × Nat × List Byte)).filter fun e => tileFails (s.flowTile e.1 e.2.1) e.2.2) = [] := rfl
      unfold State.mapNext
      dsimp only
      rw [if_neg (by simp [ht]), if_neg (by simp [hn]), if_neg (by simp [hc]), if_pos (by simp [hf, he, hq]), hf, hb]
      simp [hm]
    exact ⟨_, (live_running (f := fun s => s.mapNext u []) hp).trans (congrArg Host.Outcome.next e),
      coxswain_serves hf he hq hl⟩

end Sys2Proof

/-! # Cipher blocks are sent and checked (R265 to R273, R284) -/

namespace Sys2Proof.Laws

set_option Elab.async false

open Sys2Proof.Machine

variable {s₀ s t u : State} {cl : Client} {r : Reg} {i j n m b c e f g p k d : Nat} {v : Int} {L : List Reg}
  {K : Reg → Bool}

/-! ## A raise and what is listed -/

theorem alike_regs (h : Alike L s₀ s) (he : t.regs = s.regs) : Alike L s₀ t := fun r hr => by
  obtain ⟨h1, h2⟩ := h r hr
  refine ⟨?_, fun i => ?_⟩
  · rw [State.listed, he]
    exact h1
  · rw [State.get, he]
    exact h2 i

theorem alike_ite {P : Prop} [Decidable P] (ht : Alike L s₀ t) (hu : Alike L s₀ u) : Alike L s₀ (if P then t else u) := by
  split <;> assumption

/-- A list of registers that no raise writes. -/
def Quiet (L : List Reg) : Prop := ∀ r ∈ L, Safety.eventSide r = false

theorem Quiet.beside (hL : Quiet L) (h : Safety.eventSide r = true) : r ∉ L := fun hr => by
  rw [hL r hr] at h
  cases h

theorem alike_ringPush (hL : Quiet L) {x : EventRec} (h : Alike L s₀ s) : Alike L s₀ (s.ringPush x) := by
  have hd : ∀ w : State, Alike L s₀ w → Alike L s₀ (({ w with ring := w.ring ++ [x] } : State).bump .ringNextSeq 0) :=
    fun w hw => alike_bump (alike_regs hw rfl) (hL.beside rfl)
  unfold State.ringPush
  dsimp only
  split
  · split
    · exact hd _ (alike_bump (alike_regs h rfl) (hL.beside rfl))
    · exact hd _ h
  · exact hd _ h

theorem alike_captureTrigger (hL : Quiet L) (h : Alike L s₀ s) : Alike L s₀ (s.captureTrigger e) :=
  alike_each h fun _ _ ht => alike_ite (alike_set ht (hL.beside rfl)) ht

theorem alike_raiseCore (hL : Quiet L) {detail : List Item} {x : Mark} (h : Alike L s₀ s) :
    Alike L s₀ (s.raiseCore e detail x) := by
  have h0 : Alike L s₀ (s.bump .eventCount e) := alike_bump h (hL.beside rfl)
  cases hf : s.flag .eventEnable e with
  | false =>
    rw [raiseCore_disabled hf]
    exact alike_set h0 (hL.beside rfl)
  | true =>
    have h1 : Alike L s₀ (sourceNoted s e) := alike_set (alike_set h0 (hL.beside rfl)) (hL.beside rfl)
    have h2 : Alike L s₀ (recordKept (recordOf s e detail x) (s.nat .eventSeverity e = 3) (sourceNoted s e)) :=
      alike_ite (alike_bump (alike_regs (alike_ringPush hL h1) rfl) (hL.beside rfl)) (alike_ringPush hL h1)
    rw [raiseCore_enabled hf]
    exact alike_captureTrigger hL (alike_regs h2 rfl)

/-- What a raise writes is listed apart. -/
theorem alike_steps (hL : Quiet L) : RaiseSteps (Alike L) where
  refl s := Alike.refl L s
  trans s t u h g := h.trans g
  core s e d x := alike_raiseCore hL (Alike.refl L s)
  mark s := alike_set (Alike.refl L s) (hL.beside rfl)
  seqMissed s k h := alike_bump (Alike.refl L s) (hL.beside rfl)
  held s k := alike_set (Alike.refl L s) (hL.beside rfl)
  start s k h := by
    have h1 : Alike L s ((s.setBlob .xHkSequence k (s.hkEntries k)).set .xHkIndex k 0 |>.set .xHkSeqActive k 1) :=
      alike_set (alike_set (alike_setBlob (Alike.refl L s)) (hL.beside rfl)) (hL.beside rfl)
    have h2 := alike_set (r := .hkState) (i := k) (v := 1) h1 (hL.beside rfl)
    exact alike_ite (alike_ite (alike_set (alike_set h2 (hL.beside rfl)) (hL.beside rfl))
      (alike_set (alike_set h2 (hL.beside rfl)) (hL.beside rfl))) h1
  injMissed s k h := alike_bump (Alike.refl L s) (hL.beside rfl)
  pending s k := alike_set (Alike.refl L s) (hL.beside rfl)
  injected s k h := by
    have h1 : Alike L s (((s.set .xHkInjPending k 0).set .xHkInjInForce k (s.get .hkInjEntry k)).set .hkState k 2) :=
      alike_set (alike_set (alike_set (Alike.refl L s) (hL.beside rfl)) (hL.beside rfl)) (hL.beside rfl)
    exact alike_ite (alike_set (alike_set h1 (hL.beside rfl)) (hL.beside rfl))
      (alike_set (alike_set h1 (hL.beside rfl)) (hL.beside rfl))

theorem alike_raise (hL : Quiet L) {detail : List Item} (h : Alike L s₀ s) : Alike L s₀ (s.raise e detail) :=
  h.trans (alike_steps hL).fuel

/-! ## What a tributary's fill and binding rest on -/

/-- The tables, the calendar and the modes. -/
abbrev tribRests : List Reg := [.tsiActiveRow, .xTableLost, .deviceModeState, .xTarget, .deviceModeBusy, .xShutdown, .carrierState,
  .carrierRequest, .spanStandby, .spanActive, .calStandbyEntry, .calActiveEntry, .flowEntry, .xCalTaken, .portState,
  .carrierFecProfileInForce, .bindInForce, .pairRole, .bootStraps]

section
variable (h : Alike tribRests s t)
include h

theorem Alike.get (hr : r ∈ tribRests := by decide) : t.get r i = s.get r i := (h r hr).2 i

theorem Alike.nat (hr : r ∈ tribRests := by decide) : t.nat r i = s.nat r i := congrArg Int.toNat (h.get hr)

theorem Alike.flag (hr : r ∈ tribRests := by decide) : t.flag r i = s.flag r i := by rw [State.flag, h.get hr, ← State.flag]

theorem Alike.working (hr : r ∈ tribRests := by decide) : t.working r b i = s.working r b i := by
  unfold State.working
  rw [h.flag, h.nat hr]

theorem Alike.flow : t.flow f = s.flow f := h.working

theorem Alike.mode : t.mode = s.mode := by
  unfold State.mode
  rw [h.get, h.get, h.get]

theorem Alike.tribRows : t.tribRows d n = s.tribRows d n := by
  unfold State.tribRows State.pageRows State.tableRows State.flag
  simp only [(h .tsiActiveRow (by decide)).1, (h .xTableLost (by decide)).2]

theorem Alike.tribCarriers : t.tribCarriers d n = s.tribCarriers d n := by
  unfold State.tribCarriers
  rw [h.tribRows]

theorem Alike.orderZero : t.orderZero d n = s.orderZero d n := by
  unfold State.orderZero
  rw [h.tribRows]

theorem Alike.spanOf : t.spanOf n = s.spanOf n := by
  unfold State.spanOf
  rw [h.flag, h.working, h.working]

theorem Alike.spanFlows : t.spanFlows n = s.spanFlows n := by
  have hc : ∀ e, t.calEntry n e = s.calEntry n e := fun e => by
    unfold State.calEntry
    rw [h.flag, h.working, h.working]
  unfold State.spanFlows
  simp only [h.spanOf, hc]

theorem Alike.transparentFlow : t.transparentFlow n = s.transparentFlow n := by
  have hf : t.flow = s.flow := funext fun f => h.flow
  unfold State.transparentFlow
  rw [h.spanFlows, hf]

theorem Alike.carriesClients : t.carriesClients c = s.carriesClients c := by
  unfold State.carriesClients State.idle
  rw [h.mode, h.get, h.get]

theorem Alike.txFill : t.txFill n = s.txFill n := by
  have hc : t.carriesClients = s.carriesClients := funext fun c => h.carriesClients
  have hp : ∀ p, t.portDown p = s.portDown p := fun p => by rw [State.portDown, h.get, ← State.portDown]
  unfold State.txFill State.fillOn
  simp only [h.tribCarriers, h.spanFlows, h.get (r := .deviceModeState), h.flag (r := .xShutdown), h.flow, hp, hc]

theorem Alike.binding : t.binding d n = s.binding d n := by
  unfold State.binding
  simp only [h.tribCarriers, h.nat (r := .carrierFecProfileInForce), h.working (r := .bindInForce)]

theorem Alike.inPair : t.inPair = s.inPair := by rw [State.inPair, h.mode, ← State.inPair]

theorem Alike.countBits : t.countBits = s.countBits := by rw [State.countBits, h.inPair, ← State.countBits]

theorem Alike.pairStandby : t.pairStandby = s.pairStandby := by
  rw [State.pairStandby, h.inPair, h.get, ← State.pairStandby]

theorem Alike.pairActive : t.pairActive = s.pairActive := by
  rw [State.pairActive, h.inPair, h.get, ← State.pairActive]

theorem Alike.senderBit : t.senderBit = s.senderBit := by
  unfold State.senderBit State.bit
  rw [h.inPair, h.nat]

end

theorem quiet_tribRests : Quiet tribRests := by
  unfold Quiet
  decide

/-! ## Taking the payload -/

/-- What counting failed tiles writes, beside events. -/
abbrev custodyRegs : List Reg := [.custodyFail, .xPortSecond96]

theorem apart_custodyFailed (w : Wide K) {x : Option Nat} (h : Apart K s₀ s) (hK : ∀ r ∈ custodyRegs, K r = true) :
    Apart K s₀ (s.custodyFailed k m n x) := by
  have h1 : Apart K s₀ (s.bump .custodyFail (k - 1) n) := apart_bump h (hK _ (by decide))
  exact apart_ite h (apart_ite (apart_raise w (apart_markSecond h1 (hK _ (by decide)))) h1)

/-- What taking words of a transparent flow writes, beside events. -/
abbrev takeWordRegs : List Reg := [.xPcsGone, .xPcsBad, .custodyBlocksReplaced, .calSlips] ++ custodyRegs ++ fillRegs

theorem apart_slip (w : Wide K) (h : Apart K s₀ s) (hK : K .calSlips = true) : Apart K s₀ (s.slip m n) :=
  apart_ite h (apart_raise w (apart_bump h))

theorem apart_takeWords (w : Wide K) (h : Apart K s₀ s) (hK : ∀ r ∈ takeWordRegs, K r = true) :
    Apart K s₀ (s.takeWords f m n).1 := by
  have hf : ∀ r ∈ fillRegs, K r = true := fun r hr => hK r (List.mem_append_right _ hr)
  have hc : ∀ r ∈ custodyRegs, K r = true := fun r hr => hK r (List.mem_append_left _ (List.mem_append_right _ hr))
  unfold State.takeWords
  extract_lets q o marks got x short met s1 s2 s3
  have h1 : Apart K s₀ s1 := apart_set (apart_putWords w h hf) (hK _ (by decide))
  have h2 : Apart K s₀ s2 := apart_set h1 (hK _ (by decide))
  have h3 : Apart K s₀ s3 := apart_bump (apart_custodyFailed w h2 hc) (hK _ (by decide))
  exact apart_slip w h3 (hK _ (by decide))

/-- The words taken are those of the flow as it stands. -/
theorem takeWords_congr (hw : t.wordsOf f = s.wordsOf f) (ho : t.nat .xFlowOffset f = s.nat .xFlowOffset f)
    (hm : t.blob .xFlowMarks f = s.blob .xFlowMarks f) (hg : t.nat .xPcsGone f = s.nat .xPcsGone f)
    (hb : t.flag .xPcsBad f = s.flag .xPcsBad f) : (t.takeWords f m n).2 = (s.takeWords f m n).2 := by
  unfold State.takeWords State.flowMarks
  rw [hw, ho, hm, hg, hb]

abbrev contentRegs : List Reg := .xClear :: takeWordRegs

theorem apart_takeContent (w : Wide K) {l : List Byte} (h : Apart K s₀ s) (hK : ∀ r ∈ contentRegs, K r = true) :
    Apart K s₀ (s.takeContent m n l).1 := by
  unfold State.takeContent
  split
  · exact apart_takeWords w h fun r hr => hK r (List.mem_cons_of_mem _ hr)
  · exact apart_ite h (apart_setBlob h (hK _ (by decide)))

theorem takeContent_out {l : List Byte} : s.out <+: (s.takeContent m n l).1.out := by
  have := fact_false
  exact (kept_takeContent (κ := noScope) (Kept.refl s)).out

/-- Noting the generation in use leaves the payload that comes next. -/
theorem takeContent_gen {l : List Byte} : ((s.set .cryptTxGen i v).takeContent m n l).2 = (s.takeContent m n l).2 := by
  have hf : (s.set .cryptTxGen i v).transparentFlow m = s.transparentFlow m :=
    Alike.transparentFlow (alike_set (Alike.refl _ s) (by decide))
  have hn : ∀ r j, r ≠ Reg.cryptTxGen → (s.set .cryptTxGen i v).nat r j = s.nat r j := fun r j hr =>
    congrArg Int.toNat (get_set_reg _ _ hr)
  unfold State.takeContent
  rw [hf]
  cases s.transparentFlow m with
  | none => rfl
  | some f =>
    dsimp only
    rw [takeWords_congr (s := s) (t := s.set .cryptTxGen i v) rfl (hn _ _ (by decide)) rfl (hn _ _ (by decide))
      (by rw [State.flag, get_set_reg _ _ (by decide), ← State.flag])]

/-! ## Sending a block -/

theorem sendBlock_sent {l : List Byte} (ho : s₀.out <+: s.out) : Safety.sent s₀ (s.sendBlock m l) (.txBlock m l) := by
  obtain ⟨x, hx⟩ := ho
  exact ⟨x ++ [.txBlock m l], by rw [← List.append_assoc, hx]; rfl, by simp⟩

theorem sendBlock_get {l : List Byte} : (s.sendBlock m l).get r i = s.get r i := rfl

/-- What counting a block under a register writes, beside events. -/
abbrev countRegs : List Reg := [.slotLeaseOverruns, .xSlotReg, .xSlotCount, .xSlotWarned, .xLease, .tieSent]

/-- The leases of a generation run out unseen by the partner. -/
def overrun (s : State) (i : Nat) : State :=
  if s.pairActive && !s.tieUp && s.get .xLeaseAck i != 0 && decide (s.get .xLeaseAck i ≤ s.nat .xSlotCount i % 2 ^ s.countBits) then
    s.bump .slotLeaseOverruns (i / 2)
  else s

/-- A counter rises to x; half range warns. -/
def countRaised (half i x : Nat) (s : State) : State :=
  let s := s.set .xSlotCount i (x : Nat)
  if half ≤ x ∧ !s.flag .xSlotWarned i then (s.set .xSlotWarned i 1).raise (evDev 82) [] else s

theorem countBlock_eq (h : s.nat .xSlotCount i % 2 ^ s.countBits + 1 < 2 ^ s.countBits) : s.countBlock i
    = (countRaised (2 ^ (s.countBits - 1)) i (s.nat .xSlotCount i % 2 ^ s.countBits + 1) (overrun s i)).leaseDue i := by
  unfold State.countBlock
  dsimp only
  rw [if_neg h.ne]
  rfl

theorem apart_leaseDue (h : Apart K s₀ s) (h1 : K .xLease = true) (h2 : K .tieSent = true) : Apart K s₀ (s.leaseDue i) :=
  apart_ite h (apart_ite (apart_leaseFirst h h1 h2) (apart_ite (apart_leaseGrant h h1 h2) h))

/-- A counter below its last value rises by one, and no other register of its kind. -/
theorem countBlock_count (h : s.nat .xSlotCount i % 2 ^ s.countBits + 1 < 2 ^ s.countBits) :
    (s.countBlock i).get .xSlotCount i = (s.nat .xSlotCount i % 2 ^ s.countBits + 1 : Nat) := by
  have hl : ∀ y : State, Apart [Reg.xLease, .tieSent].contains y (y.leaseDue i) := fun y => apart_leaseDue (Apart.refl y) rfl rfl
  rw [countBlock_eq h, (hl _).regs _ _ rfl, countRaised]
  split
  · rw [get_raise, get_set_reg _ _ (by decide), get_set_same]
  · rw [get_set_same]

theorem countBlock_apart (h : s.nat .xSlotCount i % 2 ^ s.countBits + 1 < 2 ^ s.countBits) :
    Apart (fun r => Safety.eventSide r || countRegs.contains r) s (s.countBlock i) := by
  have w := wide_events countRegs
  have h1 : Apart (fun r => Safety.eventSide r || countRegs.contains r) s (overrun s i) :=
    apart_ite (apart_bump (Apart.refl s)) (Apart.refl s)
  have h2 := apart_set (r := .xSlotCount) (i := i) (v := (s.nat .xSlotCount i % 2 ^ s.countBits + 1 : Nat)) h1
  rw [countBlock_eq h]
  exact apart_leaseDue (apart_ite (apart_raise w (apart_set h2)) h2) rfl rfl

/-- Data may be sent under the active register: no switch pending, a key there, and all that the tributary needs. -/
structure Sending (s : State) (n i : Nat) : Prop where
  standby : s.pairStandby = false
  lease : s.leaseOk i = true
  pend : s.flag .xSlotTxPend n = false
  reg : s.nat .xSlotReg i = 1

/-- The generation in use noted, before a block. -/
abbrev genNoted (s : State) (m x : Nat) : State := s.set .cryptTxGen m (x : Nat)

theorem leaseTake_idle (h : s.pairStandby = false) : s.leaseTake i = s := if_neg (by simp [h])

theorem leaseOk_gen {x : Nat} : (genNoted s m x).leaseOk i = s.leaseOk i := by
  have hA : Alike tribRests s (genNoted s m x) := alike_set (Alike.refl _ s) (by decide)
  unfold State.leaseOk
  rw [hA.pairActive, hA.pairStandby]
  simp (disch := decide) only [State.tieUp, get_set_reg]

/-- Generation g of slot n is active or next. -/
def regAlive (s : State) (n g : Nat) : Bool := s.regState n g == 1 || s.regState n g == 2

/-- The standby whose lease has run out under a key in use tells so once. -/
def leaseTold (i : Nat) (alive : Bool) (s : State) : State :=
  if s.pairStandby && alive && !s.leaseOk i && s.get .xLease i != 0 && !s.flag .xLeaseOut i then
    (s.set .xLeaseOut i 1).raise (evDev 148) []
  else s

/-- A block that falls due leaves with data, or refused. -/
def blockLeaves (m i mode len : Nat) (alive : Bool) (given : List Byte) (reads : List TileRead) (x : TwinReading) (s : State) :
    State :=
  if s.txFill m == 0 && alive && !s.flag .xShedTx m && s.leaseOk i then s.txData m i len given reads x
  else s.txRefuse m mode len

section
variable {given : List Byte} {reads : List TileRead} {x : TwinReading}

theorem txBlock_eq (hb : bMode (s.binding 0 m) ≠ 0) (hl : 8 * blockPayload (s.binding 0 m) (s.blockRoom m) ≠ 0) {y z : State}
    (hy : s.txSwitch m (bSlot (s.binding 0 m)) = y) (hg : y.nat .cryptTxGen m = g)
    (hz : y.leaseTake (2 * bSlot (s.binding 0 m) + g) = z) : s.txBlock m given reads x
      = blockLeaves m (2 * bSlot (s.binding 0 m) + g) (bMode (s.binding 0 m)) (8 * blockPayload (s.binding 0 m) (s.blockRoom m))
        (regAlive z (bSlot (s.binding 0 m)) g) given reads x
        (leaseTold (2 * bSlot (s.binding 0 m) + g) (regAlive z (bSlot (s.binding 0 m)) g) z) := by
  have hr : s.blockRoom m ≠ 0 := fun h0 => hl (by rw [h0, blockPayload]; omega)
  unfold State.txBlock
  dsimp only
  rw [if_neg (by simp [hb, hr]), if_neg hl, hy, hg, hz]
  rfl

theorem txBlock_data
    (hb : bMode (s.binding 0 m) ≠ 0) (hl : 8 * blockPayload (s.binding 0 m) (s.blockRoom m) ≠ 0)
    (h : Sending s (bSlot (s.binding 0 m)) (2 * bSlot (s.binding 0 m) + s.nat .xSlotActive (bSlot (s.binding 0 m))))
    (hf : s.txFill m = 0) (hs : s.flag .xShedTx m = false) : s.txBlock m given reads x
      = (genNoted s m (s.nat .xSlotActive (bSlot (s.binding 0 m)))).txData m
        (2 * bSlot (s.binding 0 m) + s.nat .xSlotActive (bSlot (s.binding 0 m)))
        (8 * blockPayload (s.binding 0 m) (s.blockRoom m)) given reads x := by
  have hsw : s.txSwitch m (bSlot (s.binding 0 m)) = genNoted s m (s.nat .xSlotActive (bSlot (s.binding 0 m))) := by
    unfold State.txSwitch
    rw [h.pend]
    rfl
  have hA : Alike tribRests s (genNoted s m (s.nat .xSlotActive (bSlot (s.binding 0 m)))) := alike_set (Alike.refl _ s) (by decide)
  have hg : (genNoted s m (s.nat .xSlotActive (bSlot (s.binding 0 m)))).nat .cryptTxGen m
      = s.nat .xSlotActive (bSlot (s.binding 0 m)) := by rw [State.nat, get_set_same, Int.toNat_natCast]
  have hst := hA.pairStandby.trans h.standby
  rw [txBlock_eq hb hl hsw hg (leaseTake_idle hst)]
  have h2 : (genNoted s m (s.nat .xSlotActive (bSlot (s.binding 0 m)))).txFill m = 0 := hA.txFill.trans hf
  have h3 : regAlive (genNoted s m (s.nat .xSlotActive (bSlot (s.binding 0 m)))) (bSlot (s.binding 0 m))
      (s.nat .xSlotActive (bSlot (s.binding 0 m))) = true := by
    rw [regAlive, State.regState, State.nat, get_set_reg _ _ (by decide), ← State.nat, h.reg]
    rfl
  have h4 : (genNoted s m (s.nat .xSlotActive (bSlot (s.binding 0 m)))).flag .xShedTx m = false := by
    rw [State.flag, get_set_reg _ _ (by decide), ← State.flag, hs]
  have ht : ∀ i q, leaseTold i q (genNoted s m (s.nat .xSlotActive (bSlot (s.binding 0 m))))
      = genNoted s m (s.nat .xSlotActive (bSlot (s.binding 0 m))) := fun i q => if_neg (by rw [hst]; simp)
  rw [ht, blockLeaves, if_pos (by rw [h2, h3, h4, leaseOk_gen, h.lease]; rfl)]

/-- What the block's generation and lease settle before it leaves. -/
abbrev leaseRegs : List Reg := [.cryptTxGen, .xTxSwitched, .xLease, .xSlotCount, .xLeaseNew, .xLeaseOut]

/-- The generation in use and its lease, as they stand when a block leaves. -/
structure Due (s t : State) : Prop where
  apart : Apart (fun r => Safety.eventSide r || leaseRegs.contains r) s t
  alike : Alike (.xShedTx :: tribRests) s t
  out : t.out = s.out

theorem txSwitch_due : Due s (s.txSwitch m n) := by
  unfold State.txSwitch
  dsimp only
  split
  · exact ⟨apart_set (apart_set (Apart.refl s)), alike_set (alike_set (Alike.refl _ s) (by decide)) (by decide), rfl⟩
  · exact ⟨apart_set (Apart.refl s), alike_set (Alike.refl _ s) (by decide), rfl⟩

theorem Due.trans (h : Due s t) (g : Due t u) : Due s u :=
  ⟨h.apart.trans g.apart, h.alike.trans g.alike, g.out.trans h.out⟩

theorem leaseTake_due : Due s (s.leaseTake i) := by
  unfold State.leaseTake
  split
  · exact ⟨apart_set (apart_set (apart_set (apart_set (Apart.refl s)))), alike_set (alike_set (alike_set (alike_set
      (Alike.refl _ s) (by decide)) (by decide)) (by decide)) (by decide), rfl⟩
  · exact ⟨Apart.refl s, Alike.refl _ s, rfl⟩

theorem leaseTold_due {q : Bool} : Due s (leaseTold i q s) := by
  have hq : Quiet (.xShedTx :: tribRests) := by
    unfold Quiet
    decide
  unfold leaseTold
  split
  · exact ⟨apart_raise (wide_events _) (apart_set (Apart.refl s)), alike_raise hq (alike_set (Alike.refl _ s) (by decide)),
      raise_out⟩
  · exact ⟨Apart.refl s, Alike.refl _ s, rfl⟩

theorem Due.rests (h : Due s t) : Alike tribRests s t := fun r hr => h.alike r (List.mem_cons_of_mem _ hr)

theorem txRefuse_reports (h : Due s t) : Safety.countedBy s (t.txRefuse m b n) .cryptTxRefused m 1
    ∧ Safety.sent s (t.txRefuse m b n) (.txBlock m (byteList (refusedBlock b n))) := by
  refine ⟨?_, sendBlock_sent ?_⟩
  · show (State.get _ _ _) = _
    rw [State.txRefuse, sendBlock_get, get_bump_same, State.nat, h.apart.regs _ _ rfl, ← State.nat]
  · rw [bump_out, h.out]

/-- A block leaves refused where its tributary is not fed, is shed or has no key. -/
theorem txBlock_refused (hb : bMode (s.binding 0 m) ≠ 0) (hl : 8 * blockPayload (s.binding 0 m) (s.blockRoom m) ≠ 0)
    (h : s.txFill m ≠ 0 ∨ s.flag .xShedTx m = true ∨ s.flag .xSlotTxPend (bSlot (s.binding 0 m)) = false
      ∧ s.regState (bSlot (s.binding 0 m)) (s.nat .xSlotActive (bSlot (s.binding 0 m))) ≠ 1
      ∧ s.regState (bSlot (s.binding 0 m)) (s.nat .xSlotActive (bSlot (s.binding 0 m))) ≠ 2) :
    ∃ z, Due s z ∧ s.txBlock m given reads x
      = z.txRefuse m (bMode (s.binding 0 m)) (8 * blockPayload (s.binding 0 m) (s.blockRoom m)) := by
  have hy := txSwitch_due (s := s) (m := m) (n := bSlot (s.binding 0 m))
  have hz := hy.trans (leaseTake_due (i := 2 * bSlot (s.binding 0 m) + (s.txSwitch m (bSlot (s.binding 0 m))).nat .cryptTxGen m))
  have hw := hz.trans (leaseTold_due (i := 2 * bSlot (s.binding 0 m) + (s.txSwitch m (bSlot (s.binding 0 m))).nat .cryptTxGen m)
    (q := regAlive ((s.txSwitch m (bSlot (s.binding 0 m))).leaseTake (2 * bSlot (s.binding 0 m)
      + (s.txSwitch m (bSlot (s.binding 0 m))).nat .cryptTxGen m)) (bSlot (s.binding 0 m))
      ((s.txSwitch m (bSlot (s.binding 0 m))).nat .cryptTxGen m)))
  refine ⟨_, hw, ?_⟩
  rw [txBlock_eq hb hl rfl rfl rfl]
  refine if_neg fun hc => ?_
  simp only [Bool.and_eq_true, Bool.not_eq_true', beq_iff_eq] at hc
  obtain ⟨⟨⟨hf, ha⟩, hs⟩, -⟩ := hc
  rcases h with h | h | ⟨hp, h1, h2⟩
  · exact h (hw.rests.txFill.symm.trans hf)
  · have : s.flag .xShedTx m = false := by
      rw [State.flag, ← (hw.alike _ (by decide)).2, ← State.flag]
      exact hs
    rw [h] at this
    cases this
  · have hg : (s.txSwitch m (bSlot (s.binding 0 m))).nat .cryptTxGen m = s.nat .xSlotActive (bSlot (s.binding 0 m)) := by
      unfold State.txSwitch
      rw [hp]
      exact (congrArg Int.toNat (get_set_same _ _ _ _)).trans (Int.toNat_natCast _)
    rw [hg] at ha hz
    rw [regAlive, State.regState, State.nat, hz.apart.regs _ _ rfl, ← State.nat, ← State.regState] at ha
    simp [h1, h2] at ha

end

/-- The bytes of a data block: header, payload with its failed tiles complemented, and tag. -/
def dataBytes (s : State) (mode i n : Nat) (clear : List Byte) (failed : List Nat) : List Byte :=
  let key := natBytes (s.blob .xSlotKey i)
  let word0 := s.invocation i
  let header := headerBytes word0 (headerOne word0 (i % 2) mode n (s.nat .xSlotKid i))
  let w := cipherWords mode (key.take 32) (key.drop 32) header (natBytes clear)
  byteList (header ++ complementTiles failed w.1 ++ w.2)

/-- Failed tiles of a payload, by reading and by mark. -/
def failedTiles (s : State) (m : Nat) (clear : List Byte) (reads : List TileRead) : List Nat :=
  (failedReads clear reads ++ bytesNumbers (s.blob .xClearMarks m)).eraseDups

/-- Failed tiles counted at the cipher, and their marks gone. -/
def tilesCounted (m k : Nat) (s : State) : State :=
  ((s.custodyFailed 2 m k (s.transparentFlow m)).bump .custodyTilesComplemented 0 k).setBlob .xClearMarks m []

theorem twins_agree {x : TwinReading} (h : x.mismatch = false) : s.twins x = (s, true) := if_pos (by simp [h])

theorem txData_sends {given : List Byte} {reads : List TileRead} {x : TwinReading} (hx : x.mismatch = false) {z : State}
    (hz : (s.takeContent m n given).1 = z) : s.txData m i n given reads x
      = (((tilesCounted m (failedTiles z m (s.takeContent m n given).2 reads).length z).countBlock i).bump .cryptTxBlocks m).sendBlock m
        (dataBytes z (bMode (s.binding 0 m)) i n (s.takeContent m n given).2
          (failedTiles z m (s.takeContent m n given).2 reads)) := by
  unfold State.txData
  dsimp only
  rw [hz, twins_agree hx]
  rfl

abbrev tileRegs : List Reg := [.custodyTilesComplemented, .xClearMarks] ++ custodyRegs

theorem tilesCounted_apart : Apart (fun r => Safety.eventSide r || tileRegs.contains r) s (tilesCounted m k s) :=
  apart_setBlob (apart_bump (apart_custodyFailed (wide_events _) (Apart.refl s) (by decide)))

theorem dataBytes_congr {clear : List Byte} {failed : List Nat} (h1 : t.blob .xSlotKey i = s.blob .xSlotKey i)
    (h2 : t.invocation i = s.invocation i) (h3 : t.nat .xSlotKid i = s.nat .xSlotKid i) :
    dataBytes t b i n clear failed = dataBytes s b i n clear failed := by
  unfold dataBytes
  rw [h1, h2, h3]

theorem invocation_congr (h : ∀ r ∈ [Reg.xSlotCount, .deviceModeBusy, .xTarget, .deviceModeState, .bootStraps], ∀ i, t.get r i = s.get r i) :
    t.invocation i = s.invocation i ∧ t.countBits = s.countBits := by
  have hp : t.inPair = s.inPair := inPair_congr fun r hr => h r (by
    simp only [List.mem_cons, List.not_mem_nil, or_false] at hr ⊢
    tauto) 0
  have hc : t.countBits = s.countBits := by rw [State.countBits, hp, ← State.countBits]
  refine ⟨?_, hc⟩
  unfold State.invocation State.senderBit State.bit State.nat
  rw [hc, hp, h _ (by decide), h _ (by decide)]

/-- What a data block that leaves does. -/
theorem txData_reports {given : List Byte} {reads : List TileRead} {x : TwinReading} (hx : x.mismatch = false)
    (hc : s.nat .xSlotCount i % 2 ^ s.countBits + 1 < 2 ^ s.countBits) :
    Safety.countedBy s (s.txData m i n given reads x) .cryptTxBlocks m 1
    ∧ (s.txData m i n given reads x).get .xSlotCount i = (s.nat .xSlotCount i % 2 ^ s.countBits + 1 : Nat)
    ∧ Safety.sent s (s.txData m i n given reads x) (.txBlock m (dataBytes s (bMode (s.binding 0 m)) i n
      (s.takeContent m n given).2 (failedTiles s m (s.takeContent m n given).2 reads))) := by
  have := fact_false
  have ha : Apart (fun r => Safety.eventSide r || contentRegs.contains r) s (s.takeContent m n given).1 :=
    apart_takeContent (wide_events _) (Apart.refl s) (by decide)
  have ho := takeContent_out (s := s) (m := m) (n := n) (l := given)
  have hk : failedTiles (s.takeContent m n given).1 m (s.takeContent m n given).2 reads
      = failedTiles s m (s.takeContent m n given).2 reads := by rw [failedTiles, ha.blobs _ _ rfl, ← failedTiles]
  have hd := dataBytes_congr (b := bMode (s.binding 0 m)) (n := n) (clear := (s.takeContent m n given).2)
    (failed := failedTiles s m (s.takeContent m n given).2 reads) (ha.blobs .xSlotKey i rfl)
    (invocation_congr fun r hr j => ha.regs r j (by
      simp only [List.mem_cons, List.not_mem_nil, or_false] at hr
      rcases hr with rfl | rfl | rfl | rfl | rfl <;> rfl)).1 (congrArg Int.toNat (ha.regs .xSlotKid i rfl))
  rw [txData_sends hx rfl, hk, hd]
  generalize (s.takeContent m n given).1 = z at ha ho hk hd
  generalize (failedTiles s m (s.takeContent m n given).2 reads).length = q
  have hz : Apart (fun r => Safety.eventSide r || (contentRegs ++ tileRegs).contains r) s (tilesCounted m q z) :=
    (ha.mono fun r hr => by simp_all).trans (tilesCounted_apart.mono fun r hr => by simp_all)
  have hg : ∀ r ∈ [Reg.xSlotCount, .deviceModeBusy, .xTarget, .deviceModeState, .bootStraps], ∀ j,
      (tilesCounted m q z).get r j = s.get r j := fun r hr j => hz.regs r j (by
    simp only [List.mem_cons, List.not_mem_nil, or_false] at hr
    rcases hr with rfl | rfl | rfl | rfl | rfl <;> rfl)
  have hbits := (invocation_congr (i := i) hg).2
  have hn : (tilesCounted m q z).nat .xSlotCount i = s.nat .xSlotCount i := congrArg Int.toNat (hg _ (by decide) i)
  rw [← hbits, ← hn] at hc
  refine ⟨?_, ?_, sendBlock_sent ?_⟩
  · rw [Safety.countedBy, sendBlock_get, get_bump_same, State.nat, (countBlock_apart hc).regs _ _ rfl, hz.regs _ _ rfl, ← State.nat]
  · rw [sendBlock_get, get_bump_other (.inl (by decide)), countBlock_count hc, hbits, hn]
  · have h1 : z.out <+: (tilesCounted m q z).out := by
      refine (kept_custodyFailed (κ := noScope) (point := 2) (t := m) (n := q) (flow := z.transparentFlow m) (Kept.refl z)).out.trans ?_
      show _ <+: (State.setBlob (State.bump _ _ _ _) _ _ _).out
      rw [setBlob_out, bump_out]
    have h2 := (kept_countBlock (κ := noScope) (i := i) (Kept.refl (tilesCounted m q z))).out
    rw [bump_out]
    exact (ho.trans h1).trans h2

/-! ## Received blocks -/

theorem rxDeliver_sent {l : List Byte} {bad : List Nat} (ho : s₀.out <+: s.out) :
    Safety.sent s₀ (s.rxDeliver m l bad) (.rxBlock m l) := by
  obtain ⟨x, hx⟩ := ho
  exact ⟨x ++ [.rxBlock m l], by rw [← List.append_assoc, hx]; rfl, by simp⟩

theorem rxDeliver_get {l : List Byte} {bad : List Nat} : (s.rxDeliver m l bad).get r i = s.get r i := rfl

theorem rxReport_out {mark : Reg} : (s.rxReport k mark m n g c).out = s.out := by
  unfold State.rxReport
  split
  · exact raise_out
  · rfl

theorem rxReport_get {mark : Reg} (h : r ≠ mark) (he : Safety.eventSide r = false := by rfl) :
    (s.rxReport k mark m n g c).get r i = s.get r i := by
  unfold State.rxReport
  split
  · rw [get_raise he, State.markSecond, get_set_reg _ _ h]
  · rfl

theorem custodyFailed_out {x : Option Nat} : s.out <+: (s.custodyFailed k m n x).out := by
  have := fact_false
  exact (kept_custodyFailed (κ := noScope) (Kept.refl s)).out

theorem custodyFailed_get {x : Option Nat} (h : (Safety.eventSide r || custodyRegs.contains r) = false := by rfl) :
    (s.custodyFailed k m n x).get r i = s.get r i :=
  (apart_custodyFailed (wide_events custodyRegs) (Apart.refl s) (by decide)).regs r i h

section
variable {l : List Byte} {bad : List Nat} {x : Option Nat} {mark : Reg}

/-- A block that is counted and delivered, its failed tiles counted between. -/
theorem countedOut_reports (hr : (Safety.eventSide r || custodyRegs.contains r) = false := by rfl) :
    Safety.countedBy s (((s.bump r m).custodyFailed k m n x).rxDeliver m l bad) r m 1
    ∧ Safety.sent s (((s.bump r m).custodyFailed k m n x).rxDeliver m l bad) (.rxBlock m l) :=
  ⟨by rw [Safety.countedBy, rxDeliver_get, custodyFailed_get hr, get_bump_same],
    rxDeliver_sent (bump_out ▸ custodyFailed_out)⟩

/-- The report of a block's source leaves its count and what was sent. -/
theorem reported_reports (hm : r ≠ mark) (hr : Safety.eventSide r = false) (h : Safety.countedBy s t r m 1
    ∧ Safety.sent s t (.rxBlock m l)) : Safety.countedBy s (t.rxReport k mark i n g c) r m 1
    ∧ Safety.sent s (t.rxReport k mark i n g c) (.rxBlock m l) := by
  obtain ⟨hc, y, hy, hl⟩ := h
  exact ⟨(rxReport_get hm hr).trans hc, y, rxReport_out.trans hy, hl⟩

end

/-- A received block as the checks meet it: its key generation, the register that would open it, and what opens. -/
abbrev genOf (x : RxBlock) : Nat := x.word1 / 2 ^ 63 % 2

/-- The clear text of a received block under the register that its header names, where its tag holds. -/
def opened (s : State) (m : Nat) (x : RxBlock) : Option (List Nat) :=
  let key := natBytes (s.blob .xSlotKey (2 * bSlot (s.binding 1 m) + genOf x))
  decipher (bMode (s.binding 1 m)) (key.take 32) (key.drop 32) (headerBytes x.word0 x.word1) (natBytes x.payload) (natBytes x.tag)

section
variable {x : RxBlock} {reads : List TileRead} {w : TwinReading}

/-- The tiles of a block that failed, and with them the tile of its header and tag. -/
def badTiles (x : RxBlock) (reads : List TileRead) : List Nat := (x.bad ++ failedReads x.payload reads).eraseDups

/-- The payload of a block as zeros. -/
abbrev zeros (x : RxBlock) : List Byte := List.replicate x.payload.length 0

/-- A block delivered as zeros, its failed tiles counted. -/
def zeroed (m : Nat) (x : RxBlock) (reads : List TileRead) (s : State) : State :=
  (s.custodyFailed 4 m ((badTiles x reads).length + x.badEnds.toNat) none).rxDeliver m (zeros x) (badTiles x reads)

theorem rxCheck_unsound (h : headerSound x.word0 x.word1 = false) : s.rxCheck m x reads w
    = (zeroed m x reads (s.bump .cryptRxHeaderErrors m)).rxReport 89 .xCryptHdrSecond m (bSlot (s.binding 1 m)) (genOf x) x.word0 :=
  if_pos (by simp [h])

section
variable (hs : headerSound x.word0 x.word1 = true)
include hs

theorem rxCheck_refused (h : field x.word1 61 2 = 0) : s.rxCheck m x reads w
    = ((s.bump .cryptRxRefused m).rxDeliver m (zeros x) []).rxReport 89 .xCryptHdrSecond m (bSlot (s.binding 1 m)) (genOf x)
      x.word0 := (if_neg (by simp [hs])).trans (if_pos h)

theorem rxCheck_mode (h0 : field x.word1 61 2 ≠ 0) (h : field x.word1 61 2 ≠ bMode (s.binding 1 m)) : s.rxCheck m x reads w
    = (zeroed m x reads (s.bump .cryptRxModeMismatch m)).rxReport 80 .xCryptBadSecond m (bSlot (s.binding 1 m)) (genOf x)
      x.word0 := (if_neg (by simp [hs])).trans ((if_neg h0).trans (if_pos h))

variable (h0 : field x.word1 61 2 ≠ 0) (hm : field x.word1 61 2 = bMode (s.binding 1 m))
include h0 hm

theorem rxCheck_key (h : s.regState (bSlot (s.binding 1 m)) (genOf x) = 0
      ∨ s.nat .xSlotKid (2 * bSlot (s.binding 1 m) + genOf x) ≠ field x.word1 32 16) : s.rxCheck m x reads w
    = (zeroed m x reads (s.bump .cryptRxKeyMismatch m)).rxReport 80 .xCryptBadSecond m (bSlot (s.binding 1 m)) (genOf x)
      x.word0 :=
  (if_neg (by simp [hs])).trans ((if_neg h0).trans ((if_neg (not_not.2 hm)).trans (if_pos h)))

variable (hk : ¬ (s.regState (bSlot (s.binding 1 m)) (genOf x) = 0
      ∨ s.nat .xSlotKid (2 * bSlot (s.binding 1 m) + genOf x) ≠ field x.word1 32 16))
include hk

theorem rxCheck_shed (h : s.flag .xShedRx m = true) : s.rxCheck m x reads w = zeroed m x reads s :=
  (if_neg (by simp [hs])).trans ((if_neg h0).trans ((if_neg (not_not.2 hm)).trans ((if_neg hk).trans (if_pos h))))

variable (hd : s.flag .xShedRx m = false) (hw : w.mismatch = false)
include hd hw

theorem rxCheck_opened : s.rxCheck m x reads w =
    match opened s m x with
    | some p => (((s.custodyFailed 4 m ((badTiles x reads).length + x.badEnds.toNat) none).bump .cryptRxBlocks m).rxSwitch
        (bSlot (s.binding 1 m)) (genOf x)).rxDeliver m (byteList p) (badTiles x reads)
    | none => (((s.custodyFailed 4 m ((badTiles x reads).length + x.badEnds.toNat) none).bump .cryptRxTagFailures m).rxDeliver m
        (zeros x) (badTiles x reads)).rxReport 80 .xCryptBadSecond m (bSlot (s.binding 1 m)) (genOf x) x.word0 := by
  unfold State.rxCheck
  dsimp only
  rw [if_neg (by simp [hs]), if_neg h0, if_neg (not_not.2 hm), if_neg hk, if_neg (by simp [hd]), twins_agree hw]
  rfl

end

theorem rxSwitch_out : (s.rxSwitch n g).out = s.out := by
  unfold State.rxSwitch
  split <;> rfl

theorem rxSwitch_get (h : r ∉ [Reg.xSlotActive, .xSlotReg, .xSlotDone]) : (s.rxSwitch n g).get r i = s.get r i := by
  simp only [List.mem_cons, List.not_mem_nil, or_false, not_or] at h
  unfold State.rxSwitch
  split
  · rw [get_set_reg _ _ h.2.2, get_set_reg _ _ h.2.1, get_set_reg _ _ h.1]
  · rfl

/-- A block counted in r and delivered as zeros. -/
def ZeroedBy (s t : State) (m : Nat) (x : RxBlock) (r : Reg) : Prop :=
  Safety.countedBy s t r m 1 ∧ Safety.sent s t (.rxBlock m (zeros x))

theorem zeroed_by (hr : (Safety.eventSide r || custodyRegs.contains r) = false) :
    ZeroedBy s (zeroed m x reads (s.bump r m)) m x r := by
  unfold zeroed ZeroedBy
  exact countedOut_reports hr

theorem ZeroedBy.reported {mark : Reg} (h : ZeroedBy s t m x r) (hm : r ≠ mark) (hr : Safety.eventSide r = false := by rfl) :
    ZeroedBy s (t.rxReport k mark i n g c) m x r := reported_reports hm hr h

/-- The first check that applies decides what a received block counts and what goes on (R284). -/
theorem rxCheck_reports (hb : bMode (s.binding 1 m) ≠ 0) :
    let zeroedBy := ZeroedBy s (s.rxCheck m x reads w) m x
    let mine := s.regState (bSlot (s.binding 1 m)) (genOf x) ≠ 0
      ∧ s.nat .xSlotKid (2 * bSlot (s.binding 1 m) + genOf x) = field x.word1 32 16
    (headerSound x.word0 x.word1 = false → zeroedBy .cryptRxHeaderErrors)
    ∧ (headerSound x.word0 x.word1 = true → field x.word1 61 2 = 0 → zeroedBy .cryptRxRefused)
    ∧ (headerSound x.word0 x.word1 = true → field x.word1 61 2 ≠ 0 → field x.word1 61 2 ≠ bMode (s.binding 1 m) →
      zeroedBy .cryptRxModeMismatch)
    ∧ (headerSound x.word0 x.word1 = true → field x.word1 61 2 = bMode (s.binding 1 m) → ¬ mine → zeroedBy .cryptRxKeyMismatch)
    ∧ (headerSound x.word0 x.word1 = true → field x.word1 61 2 = bMode (s.binding 1 m) → mine → s.flag .xShedRx m = true →
      Safety.sent s (s.rxCheck m x reads w) (.rxBlock m (zeros x)))
    ∧ (headerSound x.word0 x.word1 = true → field x.word1 61 2 = bMode (s.binding 1 m) → mine → s.flag .xShedRx m = false →
      w.mismatch = false → (opened s m x = none → zeroedBy .cryptRxTagFailures)
      ∧ ∀ p, opened s m x = some p → Safety.countedBy s (s.rxCheck m x reads w) .cryptRxBlocks m 1
        ∧ Safety.sent s (s.rxCheck m x reads w) (.rxBlock m (byteList p))) := by
  intro zeroedBy mine
  have hmine : mine ↔ ¬ (s.regState (bSlot (s.binding 1 m)) (genOf x) = 0
      ∨ s.nat .xSlotKid (2 * bSlot (s.binding 1 m) + genOf x) ≠ field x.word1 32 16) := by
    rw [not_or, not_not]
  have count : ∀ r, (Safety.eventSide r || custodyRegs.contains r) = false →
      Safety.countedBy s ((s.custodyFailed 4 m ((badTiles x reads).length + x.badEnds.toNat) none).bump r m) r m 1 := fun r hr => by
    rw [Safety.countedBy, get_bump_same, State.nat, custodyFailed_get hr, ← State.nat]
  have conv : ∀ {y r}, s.rxCheck m x reads w = y → ZeroedBy s y m x r → zeroedBy r := fun he h => by
    show ZeroedBy s (s.rxCheck m x reads w) m x _
    rw [he]
    exact h
  refine ⟨fun hs => ?_, fun hs h0 => ?_, fun hs h0 hm => ?_, fun hs hm hk => ?_, fun hs hm hk hd => ?_,
    fun hs hm hk hd hw => ⟨fun ho => ?_, fun p ho => ?_⟩⟩
  · exact conv (rxCheck_unsound hs) ((zeroed_by rfl).reported (by decide))
  · have h : ZeroedBy s ((s.bump .cryptRxRefused m).rxDeliver m (zeros x) []) m x .cryptRxRefused :=
      ⟨by rw [Safety.countedBy, rxDeliver_get, get_bump_same], rxDeliver_sent (bump_out ▸ List.prefix_rfl)⟩
    exact conv (rxCheck_refused hs h0) (h.reported (by decide))
  · exact conv (rxCheck_mode hs h0 hm) ((zeroed_by rfl).reported (by decide))
  · exact conv (rxCheck_key hs (hm ▸ hb) hm (not_not.1 (mt hmine.2 hk))) ((zeroed_by rfl).reported (by decide))
  · rw [rxCheck_shed hs (hm ▸ hb) hm (hmine.1 hk) hd]
    exact rxDeliver_sent custodyFailed_out
  · have h : ZeroedBy s (((s.custodyFailed 4 m ((badTiles x reads).length + x.badEnds.toNat) none).bump .cryptRxTagFailures
        m).rxDeliver m (zeros x) (badTiles x reads)) m x .cryptRxTagFailures :=
      ⟨by rw [Safety.countedBy, rxDeliver_get]; exact count _ rfl, rxDeliver_sent (by rw [bump_out]; exact custodyFailed_out)⟩
    have he := rxCheck_opened (reads := reads) hs (hm ▸ hb) hm (hmine.1 hk) hd hw
    rw [ho] at he
    exact conv he (h.reported (by decide))
  · rw [rxCheck_opened hs (hm ▸ hb) hm (hmine.1 hk) hd hw, ho]
    refine ⟨?_, rxDeliver_sent (by rw [rxSwitch_out, bump_out]; exact custodyFailed_out)⟩
    rw [Safety.countedBy, rxDeliver_get, rxSwitch_get (by decide)]
    exact count _ rfl

end

theorem blockOf_nil {v : Nat} : blockOf v [] = none := rfl

end Sys2Proof.Laws

namespace Sys2Proof

open Sys2Proof.Machine Sys2Proof.Laws

/-- Settles O41: the counter, the key and the payload of a block are read where the tables and modes stand as they did; on
receipt the first check that applies decides. -/
theorem cipherBlocksAreSentAndChecked : Obligations.CipherBlocksAreSentAndChecked := by
  refine ⟨fun s m payload reads w hp => ?_, fun s m payload reads w hp => ?_, fun s m w0 w1 payload tag reads w hp => ?_⟩
  · intro b n a i key count word0 len header clear failed y hb hl hst hle hpe hre hf hs hx hc
    have hA : Alike tribRests s (genNoted s m (s.nat .xSlotActive (bSlot (s.binding 0 m)))) := alike_set (Alike.refl _ s) (by decide)
    have hg : ∀ r j, r ≠ Reg.cryptTxGen → (genNoted s m (s.nat .xSlotActive (bSlot (s.binding 0 m)))).get r j = s.get r j :=
      fun r j hr => get_set_reg _ _ hr
    have hn : (genNoted s m (s.nat .xSlotActive (bSlot (s.binding 0 m)))).nat .xSlotCount i = s.nat .xSlotCount i :=
      congrArg Int.toNat (hg _ _ (by decide))
    have he := txBlock_data (s := s) (m := m) (given := payload) (reads := reads) (x := w) hb hl ⟨hst, hle, hpe, hre⟩ hf hs
    have hcont := takeContent_gen (s := s) (i := m) (v := (s.nat .xSlotActive (bSlot (s.binding 0 m)) : Nat)) (m := m) (n := len)
      (l := payload)
    have hbytes := dataBytes_congr (s := s) (t := genNoted s m (s.nat .xSlotActive (bSlot (s.binding 0 m)))) (b := bMode b) (i := i)
      (n := len) (clear := clear) (failed := failed) rfl (invocation_congr fun r hr j => hg r j (by rintro rfl; simp at hr)).1
      (congrArg Int.toNat (hg _ _ (by decide)))
    obtain ⟨h1, h2, h3⟩ := txData_reports (s := genNoted s m (s.nat .xSlotActive (bSlot (s.binding 0 m)))) (m := m) (i := i)
      (n := len) (given := payload) (reads := reads) hx (by rw [hn, hA.countBits]; exact hc)
    refine ⟨_, (live_running (f := fun s => s.txBlock m payload reads w) hp).trans (congrArg Host.Outcome.next he), ?_, ?_, ?_⟩
    · rw [Safety.countedBy, h1, State.nat, hg _ _ (by decide), ← State.nat]
    · rw [h2, hn, hA.countBits]
    · rw [hA.binding, hcont] at h3
      have hd : dataBytes s (bMode b) i len clear failed = byteList (header ++ complementTiles failed y.1 ++ y.2) := rfl
      rw [← hd, ← hbytes]
      exact h3
  · intro b n room len
    refine ⟨fun h => ?_, fun hb hr hl => ?_, fun hb hl h => ?_⟩
    · exact live_still (f := fun s => s.txBlock m payload reads w) (if_pos h)
    · refine ⟨_, (live_running (f := fun s => s.txBlock m payload reads w) hp).trans (congrArg Host.Outcome.next
        ((if_neg (not_or.2 ⟨hb, hr⟩)).trans (if_pos hl))), ?_⟩
      exact sget_sput_same _ _ _ _ _
    · obtain ⟨z, hz, he⟩ := txBlock_refused (s := s) (m := m) (given := payload) (reads := reads) (x := w) hb hl h
      exact ⟨_, (live_running (f := fun s => s.txBlock m payload reads w) hp).trans (congrArg Host.Outcome.next he),
        txRefuse_reports hz⟩
  · intro b shares hb
    refine ⟨fun hn hz => ?_, fun x hx => ?_⟩
    · refine live_still (f := fun s => s.rxBlock m w0.toNat w1.toNat payload tag reads w) ?_
      unfold State.rxBlock
      dsimp only
      rw [if_neg hb, if_neg (by simpa using hn), hz]
    · have hy : ∃ y : State, (y = s ∨ ∃ z, y = s.setRxTrib m z)
          ∧ exec (.rxBlockCheck m w0 w1 payload tag reads w) s = .next (y.rxCheck m x reads w) := by
        have hl := live_running (f := fun s => s.rxBlock m w0.toNat w1.toNat payload tag reads w) hp
        rcases hx with ⟨hn, rfl⟩ | ⟨hn, a, ha, rfl⟩
        · refine ⟨s, .inl rfl, hl.trans (congrArg Host.Outcome.next ?_)⟩
          unfold State.rxBlock
          dsimp only
          rw [if_neg hb, if_pos (by simpa using hn)]
        · refine ⟨_, .inr ⟨{ s.rxTrib m with shares := a.2 }, rfl⟩, hl.trans (congrArg Host.Outcome.next ?_)⟩
          unfold State.rxBlock
          dsimp only
          rw [if_neg hb, if_neg (by simpa using hn), ha]
      obtain ⟨y, hy, he⟩ := hy
      have hA : Alike tribRests s y := by
        rcases hy with rfl | ⟨z, rfl⟩
        · exact Alike.refl _ _
        · exact alike_regs (Alike.refl _ s) rfl
      have hg : ∀ r i, y.get r i = s.get r i := by rcases hy with rfl | ⟨z, rfl⟩ <;> exact fun _ _ => rfl
      have ho : y.out = s.out := by rcases hy with rfl | ⟨z, rfl⟩ <;> rfl
      have hbl : ∀ r i, y.blob r i = s.blob r i := by rcases hy with rfl | ⟨z, rfl⟩ <;> exact fun _ _ => rfl
      have hbind : y.binding 1 m = s.binding 1 m := hA.binding
      have hop : opened y m x = opened s m x := by rw [opened, hbind, hbl, ← opened]
      have hcount : ∀ {t r}, Safety.countedBy y t r m 1 → Safety.countedBy s t r m 1 := fun h => by
        rw [Safety.countedBy, State.nat, ← hg]
        exact h
      have hsent : ∀ {t o}, Safety.sent y t o → Safety.sent s t o := fun ⟨l, hl, hm⟩ => ⟨l, ho ▸ hl, hm⟩
      have h := rxCheck_reports (s := y) (m := m) (x := x) (reads := reads) (w := w) (by rw [hbind]; exact hb)
      rw [hbind, hop] at h
      unfold State.regState State.nat State.flag at h
      simp only [hg] at h
      obtain ⟨a1, a2, a3, a4, a5, a6⟩ := h
      have hsound : headerSound x.word0 x.word1 = true ↔ x.word1 % 256 = crc8 120 (x.word0 * 2 ^ 56 + x.word1 / 256) := beq_iff_eq
      intro check mode g i mine key clear zeroed counted
      refine ⟨fun hc => ⟨_, he, ?_⟩, fun hc hm => ⟨_, he, ?_⟩, fun hc h0 hm => ⟨_, he, ?_⟩, fun hc hm hk => ⟨_, he, ?_⟩,
        fun hc hm hk hd => ⟨_, he, ?_⟩, fun hc hm hk hd hw => ⟨fun hn => ⟨_, he, ?_⟩, fun p hn => ⟨_, he, ?_⟩⟩⟩
      · obtain ⟨c1, c2⟩ := a1 (Bool.eq_false_iff.2 (mt hsound.1 hc))
        exact ⟨hcount c1, hsent c2⟩
      · obtain ⟨c1, c2⟩ := a2 (hsound.2 hc) hm
        exact ⟨hcount c1, hsent c2⟩
      · obtain ⟨c1, c2⟩ := a3 (hsound.2 hc) h0 hm
        exact ⟨hcount c1, hsent c2⟩
      · obtain ⟨c1, c2⟩ := a4 (hsound.2 hc) hm hk
        exact ⟨hcount c1, hsent c2⟩
      · exact hsent (a5 (hsound.2 hc) hm hk hd)
      · obtain ⟨c1, c2⟩ := (a6 (hsound.2 hc) hm hk hd hw).1 hn
        exact ⟨hcount c1, hsent c2⟩
      · obtain ⟨c1, c2⟩ := (a6 (hsound.2 hc) hm hk hd hw).2 p hn
        exact ⟨hcount c1, hsent c2⟩

end Sys2Proof

/-! # Ports align, fault and match rates (R307 to R311) -/

namespace Sys2Proof.Laws

set_option Elab.async false

open Sys2Proof.Machine

variable {s₀ s t u : State} {cl : Client} {r : Reg} {i j n m b c e f g p k d : Nat} {v : Int} {L : List Reg}
  {K : Reg → Bool}

/-! ## Port states -/

theorem port_ne_miss (hp : p < 48) (hn : n < 2) : evPort p n ≠ evDev 132 := by
  unfold evPort evDev
  omega

theorem lanesReady_congr (h : ∀ r ∈ [Reg.portRate, .octetOrderMode, .octetOrderFound, .laneLock, .laneLosRaw, .lanePairFault],
    ∀ i, t.get r i = s.get r i) : t.lanesReady p = s.lanesReady p := by
  unfold State.lanesReady State.rxLanes State.logicalLanes State.rxReversed State.flag State.nat
  simp only [h .portRate (by decide), h .octetOrderMode (by decide), h .octetOrderFound (by decide), h .laneLock (by decide),
    h .laneLosRaw (by decide), h .lanePairFault (by decide)]

/-- An up port that meets a cause of local fault. -/
def portDropped (p cause : Nat) (inFrame : Bool) (s : State) : State :=
  let s := s |>.set .portState p 4 |>.set .xPortFault p 1 |>.set .portFaultCause p (cause : Nat) |>.bump .portFaults p
    |>.setFlag .xPortPcs p (decide (16 ≤ cause))
  if inFrame then s.bump .portClsErrored p else s

theorem portLose_up {cause : Nat} {q : Bool} (hc : cause ≠ 0) (he : s.flag .portEnable p = true) (hs : s.get .portState p = 3) :
    s.portLose p cause q = ((portDropped p cause q s).raiseClear (evPort p 0) [] false).portEval p :=
  (if_neg (by simp [hc, he])).trans (if_pos hs)

/-- What an up port that drops writes, before it is judged. -/
abbrev dropRegs : List Reg := [.portState, .xPortFault, .portFaultCause, .portFaults, .xPortPcs, .portClsErrored]

theorem portDropped_apart {cause : Nat} {q : Bool} : Apart dropRegs.contains s (portDropped p cause q s) := by
  have h : Apart dropRegs.contains s (s |>.set .portState p 4 |>.set .xPortFault p 1 |>.set .portFaultCause p (cause : Nat)
      |>.bump .portFaults p |>.setFlag .xPortPcs p (decide (16 ≤ cause))) :=
    apart_set (apart_bump (apart_set (apart_set (apart_set (Apart.refl s)))))
  exact apart_ite (apart_bump h) h

theorem portDropped_reports {cause : Nat} {q : Bool} : (portDropped p cause q s).get .portState p = 4
    ∧ (portDropped p cause q s).get .xPortFault p = 1 ∧ (portDropped p cause q s).get .portFaultCause p = (cause : Nat)
    ∧ Safety.countedBy s (portDropped p cause q s) .portFaults p 1
    ∧ (portDropped p cause q s).flag .xPortPcs p = decide (16 ≤ cause)
    ∧ (q = true → Safety.countedBy s (portDropped p cause q s) .portClsErrored p 1) := by
  have hf : decide (ofFlag (decide (16 ≤ cause)) ≠ 0) = decide (16 ≤ cause) := by
    by_cases h : 16 ≤ cause <;> simp [ofFlag, h]
  cases q <;> refine ⟨?_, ?_, ?_, ?_, ?_, ?_⟩ <;>
    simp (disch := decide) only [portDropped, State.setFlag, Safety.countedBy, State.flag, get_bump_other (.inl _), get_bump_same,
      get_set_reg, get_set_same, State.nat, if_true, if_false, Bool.false_eq_true, hf, false_imp_iff, true_imp_iff]

/-- A port in local fault follows its lanes: it aligns anew where they are ready and have not lost the markers. -/
theorem portEval_fault (he : s.flag .portEnable p = true) (hs : s.get .portState p = 4) (hf : s.flag .xPortFault p = true) :
    (s.portEval p).get .portState p = if s.lanesReady p = true ∧ s.flag .xPortPcs p = false then 2 else 4 := by
  unfold State.portEval
  rw [if_neg (by simp [he, hs])]
  by_cases hl : s.lanesReady p = true
  · rw [if_pos hl]
    cases hm : s.flag .xPortPcs p
    · rw [if_neg (by simp [hs]), if_pos ⟨hl, rfl⟩, get_set_reg _ _ (by decide), get_set_same]
    · rw [if_pos (.inr rfl), if_neg (by simp), hs]
  · rw [if_neg hl, get_set_reg _ _ (by decide), get_set_same, if_pos hf,
      if_neg (show ¬ (s.lanesReady p = true ∧ _) from fun h => hl h.1)]

theorem portEval_apart : Apart [Reg.portState, .xPortAligned].contains s (s.portEval n) := by
  unfold State.portEval
  exact apart_ite (Apart.refl s) (apart_ite (apart_ite (Apart.refl s) (apart_set (apart_set (Apart.refl s))))
    (apart_set (apart_set (Apart.refl s))))

/-- An up port that meets causes of local fault (R308). -/
theorem portLose_reports {cause : Nat} {q : Bool} (hp : p < 48) (hc : cause ≠ 0) (he : s.flag .portEnable p = true)
    (hs : s.get .portState p = 3) :
    (s.portLose p cause q).get .portState p = (if s.lanesReady p = true ∧ cause < 16 then 2 else 4)
    ∧ (s.portLose p cause q).get .xPortFault p = 1 ∧ (s.portLose p cause q).get .portFaultCause p = (cause : Nat)
    ∧ Safety.countedBy s (s.portLose p cause q) .portFaults p 1 ∧ Safety.raised s (s.portLose p cause q) (evPort p 0)
    ∧ (q = true → Safety.countedBy s (s.portLose p cause q) .portClsErrored p 1) := by
  obtain ⟨h1, h2, h3, h4, h5, h6⟩ := portDropped_reports (s := s) (p := p) (cause := cause) (q := q)
  have ha := portDropped_apart (s := s) (p := p) (cause := cause) (q := q)
  rw [portLose_up hc he hs]
  generalize portDropped p cause q s = y at *
  have hg : ∀ r i, Safety.eventSide r = false → (y.raiseClear (evPort p 0) [] false).get r i = y.get r i :=
    fun r i h => get_raiseClear h
  have hl : (y.raiseClear (evPort p 0) [] false).lanesReady p = s.lanesReady p := lanesReady_congr fun r hr i => by
    simp only [List.mem_cons, List.not_mem_nil, or_false] at hr
    rcases hr with rfl | rfl | rfl | rfl | rfl | rfl <;> exact (hg _ i rfl).trans (ha.regs _ i rfl)
  have hfl : ∀ r i, Safety.eventSide r = false → (y.raiseClear (evPort p 0) [] false).flag r i = y.flag r i :=
    fun r i h => by rw [State.flag, hg r i h, ← State.flag]
  have hr : Safety.raised s (y.raiseClear (evPort p 0) [] false) (evPort p 0) :=
    raised_raiseClear (ha.regs .eventCount _ rfl) (port_ne_miss hp (by decide))
  refine ⟨?_, ?_, ?_, ?_, ?_, fun hq => ?_⟩
  · rw [portEval_fault, hl, hfl _ _ rfl, h5]
    · simp only [decide_eq_false_iff_not, Nat.not_le]
    · rw [hfl _ _ rfl, State.flag, ha.regs _ _ rfl, ← State.flag, he]
    · rw [hg _ _ rfl, h1]
    · rw [hfl _ _ rfl, State.flag, h2]
      rfl
  · rw [portEval_apart.regs _ _ rfl, hg _ _ rfl, h2]
  · rw [portEval_apart.regs _ _ rfl, hg _ _ rfl, h3]
  · rw [Safety.countedBy, portEval_apart.regs _ _ rfl, hg _ _ rfl, h4]
  · exact raised_of_count (portEval_apart.regs _ _ rfl) hr
  · rw [Safety.countedBy, portEval_apart.regs _ _ rfl, hg _ _ rfl, h6 hq]

/-- A port that has held its alignment comes up, and its local fault ends (R307). -/
theorem portUp_reports (hp : p < 48) (hs : s.get .portState p = 2) (hh : s.portHeld p = true) (hl : s.lanesReady p = true) :
    (s.portUp p).get .portState p = 3
    ∧ (s.flag .xPortFault p = true → (s.portUp p).get .xPortFault p = 0 ∧ Safety.raised s (s.portUp p) (evPort p 0)) := by
  have ha : ∀ y : State, Apart fillRegs.contains y (y.pfcEval p) := fun y => apart_pfcEval (Apart.refl y) (by decide)
  have hf : (s.set .portState p 3).flag .xPortFault p = s.flag .xPortFault p := by
    rw [State.flag, get_set_reg _ _ (by decide), ← State.flag]
  unfold State.portUp
  rw [if_pos ⟨hs, hh, hl⟩]
  dsimp only
  rw [hf]
  cases s.flag .xPortFault p with
  | false =>
    rw [if_neg (by decide), (ha _).regs _ _ rfl, get_set_same]
    exact ⟨rfl, fun h => by cases h⟩
  | true =>
    rw [if_pos rfl, (ha _).regs _ _ rfl, (ha _).regs _ _ rfl, get_raiseClear, get_raiseClear, get_set_same,
      get_set_reg _ _ (by decide), get_set_same]
    refine ⟨rfl, fun _ => ⟨rfl, raised_of_count ((ha _).regs _ _ rfl) (raised_raiseClear ?_ (port_ne_miss hp (by decide)))⟩⟩
    show State.get _ _ _ = _
    rw [get_set_reg _ _ (by decide), get_set_reg _ _ (by decide)]

/-! ## What a port sends toward the host rests on -/

/-- The tables and states that say what a port sends. -/
abbrev egressRests : List Reg := tribRests ++ [.portEnable, .xTribRow, .carrierDefectDeclared, .carrierDefectTimAction, .tribRxCsf,
  .xTribFail3, .carrierBondState, .xBondJoined, .pairHostMute, .xPortFault, .portClsMode, .portClsDefaultFlow]

theorem quiet_egressRests : Quiet egressRests := by
  unfold Quiet
  decide

section
variable (h : Alike egressRests s t)
include h

theorem Alike.trib : Alike tribRests s t := fun r hr => h r (List.mem_append_left _ hr)

theorem Alike.egressGet (hr : r ∈ egressRests := by decide) : t.get r i = s.get r i := (h r hr).2 i

theorem Alike.egressFlag (hr : r ∈ egressRests := by decide) : t.flag r i = s.flag r i := by
  rw [State.flag, h.egressGet hr, ← State.flag]

theorem Alike.lineFailed : t.lineFailed c = s.lineFailed c := by
  unfold State.lineFailed State.nat
  rw [h.egressGet, h.egressFlag]

theorem Alike.tribFailed : t.tribFailed n = s.tribFailed n := by
  unfold State.tribFailed State.csfOn State.bit State.nat
  simp only [h.trib.tribCarriers, h.lineFailed, h.egressGet (r := .carrierState), h.egressFlag (r := .tribRxCsf),
    h.egressGet (r := .carrierDefectDeclared), h.egressFlag (r := .xTribFail3), h.egressGet (r := .carrierBondState),
    h.egressFlag (r := .xBondJoined)]

theorem Alike.portTribs : t.portTribs p = s.portTribs p := by
  have hw : ∀ i, t.egressRow i = s.egressRow i := fun i => by
    unfold State.egressRow State.working State.nat
    rw [h.egressFlag, h.egressGet]
  unfold State.portTribs
  simp only [(h .xTribRow (by decide)).1, hw]

theorem Alike.sendingNow : t.sendingNow p = s.sendingNow p := by
  have hf : t.tribFailed = s.tribFailed := funext fun n => h.tribFailed
  have hp : t.transparentPort p = s.transparentPort p := by
    unfold State.transparentPort State.defaultTransparent State.nat
    rw [h.egressGet, h.egressGet, h.trib.flow]
  unfold State.sendingNow
  simp only [h.trib.mode, h.portTribs, h.egressFlag (r := .portEnable), hf, h.egressGet (r := .pairRole),
    h.egressGet (r := .pairHostMute), h.egressFlag (r := .xPortFault), hp]

end

/-! ## The egress buffer of a transparent port -/

/-- The bytes of a tributary on their way to the egress buffer: what counting them writes. -/
structure Read (s t : State) : Prop where
  apart : Apart (fun r => Safety.eventSide r || (.custodyBlocksReplaced :: custodyRegs).contains r) s t
  alike : Alike egressRests s t
  out : s.out <+: t.out
  count : ∀ e, e ≠ evDev 96 → e ≠ evDev 132 → t.get .eventCount e = s.get .eventCount e

theorem Read.refl : Read s s := ⟨Apart.refl s, Alike.refl _ s, List.prefix_rfl, fun _ _ _ => rfl⟩

theorem Read.trans (h : Read s t) (g : Read t u) : Read s u := ⟨h.apart.trans g.apart, h.alike.trans g.alike,
  h.out.trans g.out, fun e h1 h2 => (g.count e h1 h2).trans (h.count e h1 h2)⟩

theorem setRxTrib_read {x : RxTrib} : Read s (s.setRxTrib n x) :=
  ⟨(Apart.refl s).other rfl, alike_regs (Alike.refl _ s) rfl, List.prefix_rfl, fun _ _ _ => rfl⟩

theorem custodyFailed_read {x : Option Nat} : Read s (s.custodyFailed k m n x) where
  apart := apart_custodyFailed (wide_events _) (Apart.refl s) (by decide)
  alike := by
    have h1 : Alike egressRests s (s.bump .custodyFail (k - 1) n) := alike_bump (Alike.refl _ s) (by decide)
    exact alike_ite (Alike.refl _ s) (alike_ite (alike_raise quiet_egressRests (alike_set h1 (by decide))) h1)
  out := custodyFailed_out
  count e h1 h2 := by
    have hb : (s.bump .custodyFail (k - 1) n).get .eventCount e = s.get .eventCount e := get_bump_other (.inl (by decide))
    unfold State.custodyFailed State.custodyAt
    split
    · rfl
    · dsimp only
      split
      · rw [count_raise_other h2 h1, State.markSecond, get_set_reg _ _ (by decide), hb]
      · exact hb

theorem demapPlain_read : Read s (s.demapPlain n) := by
  unfold State.demapPlain
  dsimp only
  split
  · exact Read.refl
  · split
    · exact Read.refl
    · exact custodyFailed_read.trans setRxTrib_read

theorem demapReads_read {flow : Option Nat} {l : List TileRead} : Read s (s.demapReads n k flow l) :=
  each_holds (P := Read s) Read.refl fun y e h => by
    dsimp only
    split
    · exact h
    · exact h.trans (setRxTrib_read.trans custodyFailed_read)

theorem pcsEnter_read : Read s (s.pcsEnter p m n).1 := by
  refine ⟨apart_bump ((Apart.refl s).other rfl), alike_bump (alike_regs (Alike.refl _ s) rfl) (by decide), ?_,
    fun e _ _ => get_bump_other (.inl (by decide))⟩
  show s.out <+: (State.bump _ _ _ _).out
  rw [bump_out]
  exact List.prefix_rfl

/-- The buffer and its figures as the port has sent from it. -/
def bufferShown (p : Nat) (x : Egress) (s : State) : State :=
  (s.setEgress p x.waiting x.owed).bump .portRmInserted p x.inserted |>.bump .portRmDeleted p x.deleted |>.bump .portRmSlips p x.slips

/-- Slips raise the port's source 1, once each. -/
def slipsTold (p k : Nat) (s : State) : State := s.each (List.range k) fun s _ => s.raise (evPort p 1) []

theorem pcsSent_eq {x : Egress} : s.pcsSent p x
    = if x.sent.isEmpty ∨ (slipsTold p x.slips (bufferShown p x s)).pairStandby ∨ (slipsTold p x.slips (bufferShown p x s)).sendingNow p ≠ 0
      then slipsTold p x.slips (bufferShown p x s) else (slipsTold p x.slips (bufferShown p x s)).emit (.pcs p x.sent) := rfl

abbrev bufferRegs : List Reg := [.portRmFill, .xRmIdle, .portRmInserted, .portRmDeleted, .portRmSlips]

theorem bufferShown_apart {x : Egress} : Apart bufferRegs.contains s (bufferShown p x s) :=
  apart_bump (apart_bump (apart_bump (apart_set (apart_set ((Apart.refl s).other rfl)))))

theorem egress_bump : (s.bump r i n).egressBlocks = s.egressBlocks := by
  obtain ⟨a, w, h⟩ := bump_form (s := s) r i n
  rw [h]

theorem setEgress_blocks {l : List Block66} {q : Bool} : (s.setEgress p l q).egressOf p = l := sget_sput_same _ _ _ _ _

theorem setEgress_fill {l : List Block66} {q : Bool} : (s.setEgress p l q).get .portRmFill p = (l.length : Nat) := by
  unfold State.setEgress State.setFlag
  rw [get_set_reg _ _ (by decide), get_set_same]

theorem setEgress_get {l : List Block66} {q : Bool} (h : r ≠ .portRmFill) (h' : r ≠ .xRmIdle) :
    (s.setEgress p l q).get r i = s.get r i := by
  unfold State.setEgress State.setFlag
  rw [get_set_reg _ _ h', get_set_reg _ _ h]
  rfl

theorem bufferShown_reports {x : Egress} : (bufferShown p x s).egressOf p = x.waiting
    ∧ (bufferShown p x s).get .portRmFill p = (x.waiting.length : Nat)
    ∧ Safety.countedBy s (bufferShown p x s) .portRmInserted p x.inserted
    ∧ Safety.countedBy s (bufferShown p x s) .portRmDeleted p x.deleted
    ∧ Safety.countedBy s (bufferShown p x s) .portRmSlips p x.slips ∧ (bufferShown p x s).out = s.out := by
  refine ⟨?_, ?_, ?_, ?_, ?_, ?_⟩
  · rw [bufferShown, State.egressOf, egress_bump, egress_bump, egress_bump]
    exact setEgress_blocks
  · simp (disch := decide) only [bufferShown, get_bump_other (.inl _), setEgress_fill]
  · simp (disch := decide) only [bufferShown, Safety.countedBy, get_bump_other (.inl _), get_bump_same, State.nat, setEgress_get]
  · simp (disch := decide) only [bufferShown, Safety.countedBy, get_bump_other (.inl _), get_bump_same, State.nat, setEgress_get]
  · simp (disch := decide) only [bufferShown, Safety.countedBy, get_bump_other (.inl _), get_bump_same, State.nat, setEgress_get]
  · rw [bufferShown, bump_out, bump_out, bump_out]
    rfl

/-- The egress buffers, kept by raising events. -/
abbrev portsScope : Scope := fun p => match p with
  | .ports => true
  | _ => false

theorem slipsTold_egress : (slipsTold p k s).egressOf n = s.egressOf n := by
  have := fact_false
  refine each_view (view := fun y => y.egressOf n) fun y _ _ => ?_
  exact congrArg (fun l => sget l n []) ((kept_raise (κ := portsScope) (Kept.refl y)).sameEgress rfl)

theorem slipsTold_get (h : Safety.eventSide r = false) : (slipsTold p k s).get r i = s.get r i :=
  each_view (view := fun y => y.get r i) fun _ _ _ => get_raise h

theorem slipsTold_out : (slipsTold p k s).out = s.out := each_view (view := State.out) fun _ _ _ => raise_out

theorem slipsTold_alike (h : Alike egressRests s₀ s) : Alike egressRests s₀ (slipsTold p k s) :=
  alike_each h fun _ _ ht => alike_raise quiet_egressRests ht

theorem bufferShown_alike {x : Egress} (h : Alike egressRests s₀ s) : Alike egressRests s₀ (bufferShown p x s) :=
  alike_bump (alike_bump (alike_bump (alike_set (alike_set (alike_regs h rfl) (by decide)) (by decide)) (by decide)) (by decide))
    (by decide)

/-- What a port's PCS has sent from its buffer, shown and counted (R311). -/
theorem pcsSent_reports {x : Egress} (hp : p < 48) : (s.pcsSent p x).egressOf p = x.waiting
    ∧ (s.pcsSent p x).get .portRmFill p = (x.waiting.length : Nat)
    ∧ Safety.countedBy s (s.pcsSent p x) .portRmInserted p x.inserted ∧ Safety.countedBy s (s.pcsSent p x) .portRmDeleted p x.deleted
    ∧ Safety.countedBy s (s.pcsSent p x) .portRmSlips p x.slips
    ∧ (x.slips = 1 → Safety.raised s (s.pcsSent p x) (evPort p 1))
    ∧ (x.sent ≠ [] → s.pairStandby = false → s.sendingNow p = 0 → Safety.sent s (s.pcsSent p x) (.pcs p x.sent)) := by
  obtain ⟨h1, h2, h3, h4, h5, h6⟩ := bufferShown_reports (s := s) (p := p) (x := x)
  have hA : Alike egressRests s (slipsTold p x.slips (bufferShown p x s)) := slipsTold_alike (bufferShown_alike (Alike.refl _ s))
  have hr : x.slips = 1 → Safety.raised s (slipsTold p x.slips (bufferShown p x s)) (evPort p 1) := fun hx => by
    rw [hx]
    exact raised_raise (bufferShown_apart.regs _ _ rfl) (port_ne_miss hp (by decide))
  have ho : (slipsTold p x.slips (bufferShown p x s)).out = s.out := slipsTold_out.trans h6
  have he := slipsTold_egress (p := p) (k := x.slips) (s := bufferShown p x s) (n := p)
  have hg : ∀ r i, Safety.eventSide r = false → (slipsTold p x.slips (bufferShown p x s)).get r i = (bufferShown p x s).get r i :=
    fun r i h => slipsTold_get h
  rw [pcsSent_eq]
  generalize slipsTold p x.slips (bufferShown p x s) = y at *
  have hview : ∀ {α : Type} (w : State → α), (∀ z o, w (State.emit z o) = w z) →
      w (if x.sent.isEmpty ∨ y.pairStandby ∨ y.sendingNow p ≠ 0 then y else y.emit (.pcs p x.sent)) = w y := fun w hw => by
    split
    · rfl
    · exact hw _ _
  have hget : ∀ r i, State.get (if x.sent.isEmpty ∨ y.pairStandby ∨ y.sendingNow p ≠ 0 then y else y.emit (.pcs p x.sent)) r i
      = y.get r i := fun r i => hview (fun z => z.get r i) fun _ _ => rfl
  refine ⟨(hview (fun z => z.egressOf p) fun _ _ => rfl).trans (he.trans h1), ?_, ?_, ?_, ?_, fun hx => ?_, fun hx hs hn => ?_⟩
  · rw [hget, hg _ _ rfl, h2]
  · rw [Safety.countedBy, hget, hg _ _ rfl, h3]
  · rw [Safety.countedBy, hget, hg _ _ rfl, h4]
  · rw [Safety.countedBy, hget, hg _ _ rfl, h5]
  · exact raised_of_count (hget _ _) (hr hx)
  · rw [if_neg]
    · exact ⟨[.pcs p x.sent], congrArg (· ++ _) ho, List.mem_singleton.2 rfl⟩
    · rw [hA.trib.pairStandby, hs, hA.sendingNow, hn]
      simpa using hx

/-- What the bytes' way to the buffer leaves, the sending counts on. -/
theorem pcsSent_after_read {x : Egress} (hr : Read s t) (hp : p < 48) : (t.pcsSent p x).egressOf p = x.waiting
    ∧ (t.pcsSent p x).get .portRmFill p = (x.waiting.length : Nat)
    ∧ Safety.countedBy s (t.pcsSent p x) .portRmInserted p x.inserted ∧ Safety.countedBy s (t.pcsSent p x) .portRmDeleted p x.deleted
    ∧ Safety.countedBy s (t.pcsSent p x) .portRmSlips p x.slips
    ∧ (x.slips = 1 → Safety.raised s (t.pcsSent p x) (evPort p 1))
    ∧ (x.sent ≠ [] → s.pairStandby = false → s.sendingNow p = 0 → Safety.sent s (t.pcsSent p x) (.pcs p x.sent)) := by
  obtain ⟨h1, h2, h3, h4, h5, h6, h7⟩ := pcsSent_reports (s := t) (x := x) hp
  have hcount : ∀ r, r ∈ [Reg.portRmInserted, .portRmDeleted, .portRmSlips] → t.get r p = s.get r p := fun r hr' => by
    simp only [List.mem_cons, List.not_mem_nil, or_false] at hr'
    rcases hr' with rfl | rfl | rfl <;> exact hr.apart.regs _ _ rfl
  refine ⟨h1, h2, ?_, ?_, ?_, fun hx => ?_, fun hx hst hn => ?_⟩
  · rw [Safety.countedBy, State.nat, ← hcount _ (by decide)]
    exact h3
  · rw [Safety.countedBy, State.nat, ← hcount _ (by decide)]
    exact h4
  · rw [Safety.countedBy, State.nat, ← hcount _ (by decide)]
    exact h5
  · rw [Safety.raised, Safety.countedBy, State.nat, ← hr.count _ (by unfold evPort evDev; omega) (port_ne_miss hp (by decide))]
    exact h6 hx
  · obtain ⟨l, hl⟩ := hr.out
    obtain ⟨l', hl', hm⟩ := h7 hx (hr.alike.trib.pairStandby.trans hst) (hr.alike.sendingNow.trans hn)
    exact ⟨l ++ l', by rw [← List.append_assoc, hl]; exact hl', List.mem_append_right _ hm⟩

theorem rateMatch_works {demap egress : List TileRead} (ht : s.streamTrib p = some n) (ha : s.admits = true)
    (hf : s.tribFailed n = false) (hd : s.portDown p = false) {y : State × Egress}
    (hy : (((s.demapPlain n).demapReads n 5 (if s.get .portClsDefaultFlow p = 0xFFFF then none
      else some (s.nat .portClsDefaultFlow p)) demap).demapReads n 6 (if s.get .portClsDefaultFlow p = 0xFFFF then none
      else some (s.nat .portClsDefaultFlow p)) egress).pcsEnter p n m = y) :
    s.rateMatch p m k demap egress = y.1.pcsSent p (y.2.run k) := by
  unfold State.rateMatch
  rw [ht]
  dsimp only
  rw [if_neg (by simp [ha, hf, hd]), hy]

theorem rateMatch_empties {demap egress : List TileRead} (ht : s.streamTrib p = some n)
    (h : s.admits = false ∨ s.tribFailed n = true ∨ s.portDown p = true) :
    s.rateMatch p m k demap egress = (s.demapNone n).setEgress p [] false := by
  unfold State.rateMatch
  rw [ht]
  refine if_pos ?_
  simp only [Bool.or_eq_true, Bool.not_eq_true']
  tauto

/-! ## The buffer by itself -/

theorem trimIdles_keep {x : Block66} {l : List Block66} (h : l.length + 1 ≤ 2176 ∨ x ≠ idleBlock) :
    trimIdles (x :: l) = (0, x :: l) := if_neg fun hc => h.elim (fun h => by omega) fun h => h hc.2

theorem trimIdles_drop {l : List Block66} (h : 2176 < l.length + 1) :
    trimIdles (idleBlock :: l) = ((trimIdles l).1 + 1, (trimIdles l).2) := if_pos ⟨h, rfl⟩

theorem egress_empty {x : Egress} (ho : x.owed = false) (hw : x.waiting = []) :
    x.send = { x with sent := x.sent ++ [errorBlock], slips := x.slips + 1 } := by
  obtain ⟨w, o, z, a, d, q⟩ := x
  cases ho
  cases hw
  rfl

theorem egress_trims {x : Egress} {l : List Block66} (ho : x.owed = false) (hw : x.waiting = idleBlock :: l)
    (h : 2176 < x.waiting.length) : x.send = ({ x with waiting := l, deleted := x.deleted + 1 } : Egress).send := by
  obtain ⟨w, o, z, a, d, q⟩ := x
  cases ho
  cases hw
  have ht := trimIdles_drop (l := l) (by simpa using h)
  unfold Egress.send
  simp only [Bool.false_eq_true, if_false, ht]
  rw [Nat.add_right_comm, Nat.add_assoc]

theorem egress_sends {x : Egress} {y : Block66} {l : List Block66} (ho : x.owed = false) (hw : x.waiting = y :: l)
    (h : x.waiting.length ≤ 2176 ∨ y ≠ idleBlock) : x.send = { x with
      waiting := l, sent := x.sent ++ [y], owed := decide (l.length < 1920) && (y.ends || y == idleBlock) } := by
  obtain ⟨w, o, z, a, d, q⟩ := x
  cases ho
  cases hw
  have ht := trimIdles_keep (x := y) (l := l) (by simpa using h)
  unfold Egress.send
  simp only [Bool.false_eq_true, if_false, ht]
  rfl

end Sys2Proof.Laws

namespace Sys2Proof

open Sys2Proof.Machine Sys2Proof.Laws

/-- Settles O45: a port is judged by its lanes, which its own state does not move; the buffer's figures are counted after
what enters it is read. -/
theorem portsAlignFaultAndMatchRates : Obligations.PortsAlignFaultAndMatchRates := by
  refine ⟨fun s p hp ho hl ha => ?_, fun s p h => ?_, fun s p hp hs hh hl => ?_, fun s p markers skew q hp he hs => ?_,
    fun s p q hp he hn => ?_, fun s p enter send demap egress u hp ht ha hf hd => ?_,
    fun s p enter send demap egress u hp ht h => ?_, fun s p enter send demap egress h => ?_, fun x b => ?_,
    fun x ho => if_pos ho, fun x => egress_empty, fun x l => egress_trims, fun x b l => egress_sends⟩
  · refine ⟨_, (live_running (f := fun s => _) hp).trans (congrArg Host.Outcome.next (if_pos ⟨ho, hl, by rw [ha]; rfl⟩)), ?_, ?_, ?_, ?_,
      apart_iff.2 (apart_set (apart_set (apart_set (apart_set (Apart.refl s)))))⟩
    all_goals simp (disch := decide) only [State.markTick, get_set_reg, get_set_same]
  · exact live_still (f := fun s => s.portUp p) (if_neg (by simp [h]))
  · exact ⟨_, live_running (f := fun s => s.portUp p) hp, portUp_reports p.isLt hs hh hl⟩
  · intro cause hc
    exact ⟨_, live_running (f := fun s => s.portLose p cause q) hp, portLose_reports p.isLt hc he hs⟩
  · have hn' : (s.flag .portRfReceived p == q) = false := by simpa using hn
    have hx := live_running (s := s) (f := fun s =>
      if !s.flag .portEnable p || s.flag .portRfReceived p == q then s
      else if q then (s.set .portRfReceived p 1).raise (evPort p 1) []
      else s.set .portRfReceived p 0) hp
    rw [if_neg (by rw [he, hn']; decide)] at hx
    cases q with
    | false =>
      rw [if_neg (by decide)] at hx
      exact ⟨_, hx, get_set_same _ _ _ _, (fun h => by cases h), fun _ => apart_iff.2 (apart_set (Apart.refl s))⟩
    | true =>
      rw [if_pos rfl] at hx
      refine ⟨_, hx, ?_, fun _ => ⟨?_, apart_iff.2 (apart_raise (wide_events _) (apart_set (Apart.refl s)))⟩, fun h => by cases h⟩
      · rw [get_raise rfl, get_set_same]
        rfl
      · exact raised_raise (get_set_reg _ _ (by decide)) (port_ne_miss p.isLt (by decide))
  · intro flow x
    have hr : Read s ((((s.demapPlain u).demapReads u 5 flow demap).demapReads u 6 flow egress).pcsEnter p u enter).1 :=
      ((demapPlain_read.trans demapReads_read).trans demapReads_read).trans pcsEnter_read
    have hx := (live_running (f := fun s => s.rateMatch p enter send demap egress) hp).trans
      (congrArg Host.Outcome.next (rateMatch_works (k := send) ht ha hf hd rfl))
    exact ⟨_, hx, pcsSent_after_read hr p.isLt⟩
  · exact ⟨_, (live_running (f := fun s => s.rateMatch p enter send demap egress) hp).trans
      (congrArg Host.Outcome.next (rateMatch_empties ht h)), setEgress_blocks, setEgress_fill⟩
  · refine live_still (f := fun s => s.rateMatch p enter send demap egress) ?_
    unfold State.rateMatch
    rw [h]
  · unfold Egress.arrive
    by_cases h : x.waiting.length < 4096
    · rw [if_pos h, if_neg (by omega)]
    · rw [if_neg h, if_pos (by omega)]

end Sys2Proof

/-! # Memory errors (R325 to R332) -/

namespace Sys2Proof.Laws

set_option Elab.async false

open Sys2Proof.Machine

variable {s₀ s t u : State} {cl : Client} {r : Reg} {i j n m b c e f g p k d : Nat} {v : Int} {L : List Reg}
  {K : Reg → Bool} {line row : Nat} {h : HeldWord}

/-! ## What falls of the mode and lost words leave of a domain's figures -/

/-- The figures of a domain that reading its lines moves. -/
abbrev memRegs : List Reg := [.memCorrected, .memUncorrectable, .memWeak, .memLaps, .xScrubAt]

/-- The scope that leaves the memories' figures. -/
abbrev memScope : Scope := fun p => match p with
  | .integrity => true
  | _ => false

theorem mem_of_kept (h : Kept memScope s t) : Apart (beyond memRegs) s t := h.beyond (l := memRegs)

theorem haven_mem : Apart (beyond memRegs) s (s.haven n) := by
  have := fact_false
  have hr : Apart (beyond memRegs) s s.repairsGoOn :=
    apart_ite (each_holds (P := Apart (beyond memRegs) s) (Apart.refl s) fun y _ hy => apart_ite (apart_set hy) hy) (Apart.refl s)
  refine hr.trans (mem_of_kept ?_)
  by_cases h : s.get .deviceModeState 0 = 5
  · rw [haven_joins h]
    unfold causesJoined
    refine kept_stopRecord (kept_when ?_ fun _ => kept_muteOn)
    exact kept_ite (kept_backInHaven (kept_ite (kept_set (Kept.refl _) (hr := rfl))
      (kept_set (kept_set (Kept.refl _) (hr := rfl)) (hr := rfl)))) (kept_ite (kept_set (Kept.refl _) (hr := rfl))
      (kept_set (kept_set (Kept.refl _) (hr := rfl)) (hr := rfl)))
  · rw [haven_enters h]
    have ke : ∀ x k, Kept memScope x (havenEntered x k) := fun x k => by
      unfold havenEntered
      have k2 : Kept memScope x (x.abandonTransition.bump .deviceHavenEntries 0 |>.set .deviceHavenCauses 0 (k : Nat)
          |>.set .deviceHavenFirstCause 0 (topBit k : Nat)) :=
        kept_set (kept_set (kept_bump (kept_abandonTransition (Kept.refl x)) (hr := rfl)) (hr := rfl)) (hr := rfl)
      exact kept_lanesUp (kept_set (kept_set (kept_set (kept_ite k2 (kept_endRole k2)) (hr := rfl)) (hr := rfl)) (hr := rfl))
    have kp : ∀ x q, Kept memScope x (havenPolicy x q) := fun x q =>
      kept_ite (kept_muteOn (Kept.refl x)) (kept_refreshBg (Kept.refl x))
    have kt : ∀ x w, Kept memScope x (havenTold x w) := fun x w =>
      kept_stopRecord (kept_raiseKept (kept_ite (kept_eraseAllSlots (Kept.refl x)) (Kept.refl x)))
    exact ((ke _ _).trans (kp _ _)).trans (kt _ _)

/-- Haven by cause bit 3, the loss of a word of domain 0 (R44). -/
theorem haven_memory : (s.haven 8).get .deviceModeState 0 = 5 ∧ (s.haven 8).bit .deviceHavenCauses 0 3 = true := by
  have hc : (havenCauses 8 s).testBit 3 = true := by
    unfold havenCauses
    split <;> decide
  by_cases h : s.get .deviceModeState 0 = 5
  · obtain ⟨h1, -, h3, -, -⟩ := haven_stay (n := 8) h
    refine ⟨h1, ?_⟩
    rw [State.bit, bitOf_eq, h3, Nat.testBit_or, hc, Bool.or_true]
  · obtain ⟨h1, -, h3, -, -, -⟩ := haven_entry (n := 8) h
    refine ⟨h1, ?_⟩
    rw [State.bit, bitOf_eq, State.nat, h3, Int.toNat_natCast, hc]

/-- Nothing that reading lines tells of a domain is moved. -/
structure Spared (s t : State) : Prop where
  apart : Apart (beyond memRegs) s t
  count : ∀ e, e ∈ [evDev 97, evDev 99] → Silent e s t

theorem Spared.refl : Spared s s := ⟨Apart.refl s, fun _ _ => Silent.refl⟩

theorem Spared.trans (h : Spared s t) (g : Spared t u) : Spared s u :=
  ⟨h.apart.trans g.apart, fun e he => (h.count e he).trans (g.count e he)⟩

theorem Spared.ite {p : Prop} [Decidable p] (h : Spared s t) (g : Spared s u) : Spared s (if p then t else u) := by
  split <;> assumption

/-- The scope that leaves the memories' figures and the sources' counts. -/
abbrev wordScope : Scope := fun p => match p with
  | .integrity => true
  | .events => true
  | _ => false

theorem spared_of_kept (h : Kept wordScope s t) : Spared s t :=
  ⟨h.beyond (l := memRegs), fun _ _ => h.get (r := .eventCount)⟩

theorem aside_memory (he : e ∈ [evDev 97, evDev 99]) : Aside e := by
  simp only [List.mem_cons, List.not_mem_nil, or_false] at he
  rcases he with rfl | rfl <;> exact ⟨by decide, by decide⟩

theorem memory_ne_port (he : e ∈ [evDev 97, evDev 99]) (hp : p < 48) : e ≠ evPort p 0 := by
  simp only [List.mem_cons, List.not_mem_nil, or_false] at he
  rcases he with rfl | rfl <;> unfold evDev evPort <;> omega

theorem silent_portLose {cause : Nat} {q : Bool} (h1 : e ≠ evDev 132) (h2 : e ≠ evPort p 0) (h : Silent e s₀ s) :
    Silent e s₀ (s.portLose p cause q) := by
  have := fact_false
  have ev : ∀ x : State, Silent e x (x.portEval p) := fun x => Silent.refl.kept (kept_portEval (Kept.refl x))
  unfold State.portLose
  extract_lets a b d
  have ha : Silent e s₀ a := silent_set (silent_bump (silent_set (silent_set (silent_set h))))
  have hb : Silent e s₀ b := silent_ite (silent_bump ha) ha
  have hd : Silent e s₀ d := silent_ite (silent_set h) h
  exact silent_ite h (silent_ite ((silent_raiseClear hb h1 h2).trans (ev _)) (Silent.trans (silent_set hd) (ev _)))

theorem silent_octetChanged (he : e ∈ [evDev 97, evDev 99]) (ho : n < 12) (h : Silent e s₀ s) : Silent e s₀ (s.octetChanged n) := by
  have := fact_false
  refine (silent_each h fun y p hp hy => silent_portLose (aside_memory he).miss (memory_ne_port he ?_) hy).kept
    (kept_portsEval (Kept.refl _))
  simp only [State.enabledPorts, List.mem_filter, portsOf, List.mem_cons, List.not_mem_nil, or_false] at hp
  omega

theorem silent_setFill {o : Nat} (he : Aside e) (h : Silent e s₀ s) : Silent e s₀ (s.setFill f o n) := by
  have := fact_false
  unfold State.setFill
  extract_lets was a o' b d
  have ha : Silent e s₀ a := silent_ite (h.kept (kept_setBlob (Kept.refl s) (hr := rfl))) (h.kept (kept_passMarks (Kept.refl s)))
  have hb : Silent e s₀ b := silent_set (silent_ite (silent_set (silent_set ha)) (silent_set ha))
  have hd : Silent e s₀ d := Silent.kept (silent_poolMove he hb) (kept_assertEval (Kept.refl _))
  exact hd.kept (kept_pfcEval (Kept.refl d))

theorem flushFlow_spared : Spared s (s.flushFlow f) := by
  have := fact_false
  refine ⟨mem_of_kept (kept_flushFlow (Kept.refl s)), fun e he => ?_⟩
  have hb : Silent e s (s.bump .flowFlushed f (s.nat .flowFill f)) := silent_bump Silent.refl
  exact silent_ite Silent.refl (silent_setFill (aside_memory he) (silent_setFill (aside_memory he) hb))

theorem dropTribQueue_spared : Spared s (s.dropTribQueue n) := by
  have := fact_false
  exact ⟨mem_of_kept (kept_dropTribQueue (Kept.refl s)), fun e he => silent_putTribQueue (aside_memory he) (silent_bump Silent.refl)⟩

theorem lanesAgain_spared (hn : n < 96) : Spared s ((s.set .laneLock n 0 |>.set .xLaneRelock n 0 |>.set .xLaneLow n 0
    |>.laneStep n 2 2).octetChanged (n / 8)) := by
  have := fact_false
  have hl : Kept memScope s (s.set .laneLock n 0 |>.set .xLaneRelock n 0 |>.set .xLaneLow n 0) :=
    kept_set (kept_set (kept_set (Kept.refl s) (hr := rfl)) (hr := rfl)) (hr := rfl)
  exact ⟨mem_of_kept (kept_octetChanged (kept_laneStep hl)), fun e he => silent_octetChanged he (by omega)
    (silent_set (silent_set (silent_set (silent_set (silent_set Silent.refl)))))⟩

/-- What a lost word does to what it held leaves the domain's figures (R327). -/
theorem heldOutcome_spared : Spared s (s.heldOutcome h line) := by
  have := fact_false
  have hc : ∀ w, Spared s (s.clientLost w) := fun w => spared_of_kept (kept_clientLost (Kept.refl s))
  cases h with
  | moverData => exact Spared.refl
  | flowData f k => exact hc (.flowData f k)
  | tribData t k => exact hc (.tribData t k)
  | txClearData t k => exact hc (.txClearData t k)
  | txLineData t k => exact hc (.txLineData t k)
  | rxLineData t k => exact hc (.rxLineData t k)
  | rxClearData t k => exact hc (.rxClearData t k)
  | boatData c w => exact hc (.boatData c w)
  | tableCopy w => exact ⟨apart_set (Apart.refl s), fun _ _ => silent_set Silent.refl⟩
  | llr c slot first count => exact spared_of_kept (kept_setRx (Kept.refl s))
  | flowQueue f => exact flushFlow_spared
  | tribQueue t => exact dropTribQueue_spared
  | keySlot n => exact spared_of_kept (kept_eraseSlot (Kept.refl s))
  | bankCopy b k => exact spared_of_kept (kept_setBlob (Kept.refl s) (hr := rfl))
  | slackSet c k => exact spared_of_kept (kept_setSlack (Kept.refl s))
  | calRecord u k => exact spared_of_kept (kept_set (Kept.refl s) (hr := rfl))
  | laneTaps n => exact Spared.ite (lanesAgain_spared n.isLt) Spared.refl
  | ringEntry k => exact ⟨(Apart.refl s).other rfl, fun _ _ => rfl⟩
  | historyEntry k => exact ⟨(Apart.refl s).other rfl, fun _ _ => rfl⟩

theorem haven_spared : Spared s (s.haven n) := ⟨haven_mem, fun _ he => silent_haven (aside_memory he) Silent.refl⟩

/-! ## Weak lines and the tracker (R330, R331) -/

theorem Apart.widenEvents {M : List Reg} (h : Apart (fun r => Safety.eventSide r || L.contains r) s t)
    (hs : ∀ r ∈ L, r ∈ M := by decide) : Apart (fun r => Safety.eventSide r || M.contains r) s t :=
  h.mono fun r hr => by
    obtain ⟨h1, h2⟩ := Bool.or_eq_false_iff.1 hr
    rw [h1, Bool.false_or]
    refine Bool.eq_false_iff.2 fun hc => ?_
    rw [List.contains_iff_mem.2 (hs r (List.contains_iff_mem.1 hc))] at h2
    cases h2

theorem Apart.withEvents (h : Apart L.contains s t) : Apart (fun r => Safety.eventSide r || L.contains r) s t :=
  h.mono fun _ hr => (Bool.or_eq_false_iff.1 hr).2

/-- What marking a line weak writes. -/
abbrev weakRegs : List Reg := [.memWeak, .weakList]

theorem markWeak_apart : Apart (fun r => Safety.eventSide r || weakRegs.contains r) s (s.markWeak m line) := by
  have hb : Apart weakRegs.contains s ((s.bump .memWeak m).setBlob .weakList 0 (s.blob .weakList 0 ++ leBytes 1 (m : Nat)
      ++ leBytes 8 (line : Nat))) := apart_setBlob (apart_bump (Apart.refl s))
  have hr : Apart (fun r => Safety.eventSide r || weakRegs.contains r) s (State.raise _ (evDev 97) []) :=
    apart_raise (wide_events weakRegs) hb.withEvents
  exact apart_ite hr (apart_raise (wide_events _) hr)

/-- A line marked weak is counted and reported. -/
theorem markWeak_reports : Safety.countedBy s (s.markWeak m line) .memWeak m 1 ∧ Safety.raised s (s.markWeak m line) (evDev 97) := by
  have hw : ∀ x : List Byte, Safety.countedBy s (((s.bump .memWeak m).setBlob .weakList 0 x).raise (evDev 97) []) .memWeak m 1
      ∧ Safety.raised s (((s.bump .memWeak m).setBlob .weakList 0 x).raise (evDev 97) []) (evDev 97) := fun x =>
    ⟨(get_raise rfl).trans get_bump_same, raised_raise (get_bump_other (.inl (by decide))) (by decide)⟩
  unfold State.markWeak
  dsimp only
  split
  · exact hw _
  · obtain ⟨h1, h2⟩ := hw (s.blob .weakList 0 ++ leBytes 1 (m : Nat) ++ leBytes 8 (line : Nat))
    exact ⟨(get_raise rfl).trans h1, raised_of_count (count_raise_other (by decide) (by decide)) h2⟩

theorem silent_markWeak (h1 : e ≠ evDev 132) (h2 : e ≠ evDev 97) (h3 : e ≠ evDev 98) : Silent e s (s.markWeak m line) := by
  have hr : Silent e s (((s.bump .memWeak m).setBlob .weakList 0 (s.blob .weakList 0 ++ leBytes 1 (m : Nat)
    ++ leBytes 8 (line : Nat))).raise (evDev 97) []) := silent_raise (silent_bump Silent.refl) h1 h2
  exact silent_ite hr (silent_raise hr h1 h3)

theorem trackTaken_apart : Apart [Reg.trackerUsed, .trackerEvictions].contains s (s.trackTaken m line).1 := by
  have hs : ∀ {y : State} {l : List Track}, Apart [Reg.trackerUsed, .trackerEvictions].contains s y →
      Apart [Reg.trackerUsed, .trackerEvictions].contains s (y.setTracker l) := fun h => apart_set (h.other rfl)
  unfold State.trackTaken
  dsimp only
  split
  · exact hs (Apart.refl s)
  · refine hs (apart_ite (Apart.refl s) ?_)
    split
    · exact hs (apart_ite (apart_bump (Apart.refl s)) (Apart.refl s))
    · exact Apart.refl s

theorem trackTaken_counts {x : Track} (hx : s.tracker.find? (fun x => x.domain == m && x.line == line) = some x)
    (hl : s.inLap x = true) : (s.trackTaken m line).2 = x.count + 1 := by
  unfold State.trackTaken
  dsimp only
  rw [hx]
  dsimp only
  rw [if_pos hl]

theorem inLap_congr {x : Track} (h1 : t.get .xLapDone x.domain = s.get .xLapDone x.domain) (h2 : t.get .xTicks 0 = s.get .xTicks 0) :
    t.inLap x = s.inLap x := by
  unfold State.inLap State.uptime State.nat
  rw [h1, h2]

/-- What a correction writes. -/
abbrev correctionRegs : List Reg := [.memCorrected, .trackerUsed, .trackerEvictions, .memWeak, .weakList]

theorem correction_taken : Apart correctionRegs.contains s ((s.bump .memCorrected m).trackTaken m line).1 :=
  (apart_bump (Apart.refl s)).trans (trackTaken_apart.widen (M := correctionRegs))

theorem correction_apart : Apart (fun r => Safety.eventSide r || correctionRegs.contains r) s (s.correction m line) := by
  have ht := (correction_taken (s := s) (m := m) (line := line)).withEvents
  unfold State.correction
  generalize (s.bump .memCorrected m).trackTaken m line = q at ht
  have hs : ∀ l, Apart (fun r => Safety.eventSide r || correctionRegs.contains r) s (q.1.setTracker l) :=
    fun l => apart_set (ht.other rfl)
  exact apart_ite ((hs _).trans markWeak_apart.widenEvents) ht

/-- A correction is counted. -/
theorem correction_counts : Safety.countedBy s (s.correction m line) .memCorrected m 1 := by
  have ht : ((s.bump .memCorrected m).trackTaken m line).1.get .memCorrected m = (s.bump .memCorrected m).get .memCorrected m :=
    trackTaken_apart.regs _ _ rfl
  unfold State.correction
  dsimp only
  split
  · rw [Safety.countedBy, markWeak_apart.regs _ _ rfl, State.setTracker, get_set_reg _ _ (by decide)]
    exact ht.trans get_bump_same
  · exact ht.trans get_bump_same

/-- The third correction of a line within a lap marks it weak (R330). -/
theorem correction_third {x : Track} (hx : s.tracker.find? (fun x => x.domain == m && x.line == line) = some x)
    (hc : x.count = 2) (hl : s.inLap x = true) :
    Safety.countedBy s (s.correction m line) .memWeak m 1 ∧ Safety.raised s (s.correction m line) (evDev 97) := by
  have hy : (s.bump .memCorrected m).inLap x = true :=
    (inLap_congr (get_bump_other (.inl (by decide))) (get_bump_other (.inl (by decide)))).trans hl
  have hn : ((s.bump .memCorrected m).trackTaken m line).2 = 3 := by
    rw [trackTaken_counts (by rw [bump_tracker]; exact hx) hy, hc]
  have ht : ∀ {r i l}, r ∉ correctionRegs ∨ r = .memWeak →
      (((s.bump .memCorrected m).trackTaken m line).1.setTracker l).get r i = s.get r i := fun {r i l} hr => by
    have h1 : r ≠ .trackerUsed := by rintro rfl; simp at hr
    have h2 : r ≠ .memCorrected := by rintro rfl; simp at hr
    have h3 : r ≠ .trackerEvictions := by rintro rfl; simp at hr
    rw [State.setTracker, get_set_reg _ _ h1]
    refine (trackTaken_apart.regs _ _ ?_).trans (get_bump_other (.inl h2))
    simp [h1, h3]
  obtain ⟨h1, h2⟩ := markWeak_reports (s := ((s.bump .memCorrected m).trackTaken m line).1.setTracker
    (((s.bump .memCorrected m).trackTaken m line).1.tracker.filter fun x => !(x.domain == m && x.line == line))) (m := m) (line := line)
  unfold State.correction
  rw [if_pos hn]
  refine ⟨?_, raised_of_silent (ht (.inl (by decide))) h2⟩
  rw [Safety.countedBy, State.nat, ht (.inr rfl)] at h1
  exact h1

/-! ## Lost words -/

/-- An uncorrectable word counted and its line marked. -/
def wordLost (m line : Nat) (s : State) : State := ((s.bump .memUncorrectable m).set .xMemUncorrected 0 1).markWeak m line

theorem uncorrectable_eq : s.uncorrectable m line h = if m = 0 then (wordLost m line s).haven 8
    else (if heldIn h m then (wordLost m line s).heldOutcome h line else wordLost m line s).raise (evDev 99) [u16 m, u64 line] := rfl

abbrev lostRegs : List Reg := [.memUncorrectable, .xMemUncorrected, .memWeak, .weakList]

theorem wordLost_apart : Apart (fun r => Safety.eventSide r || lostRegs.contains r) s (wordLost m line s) :=
  Apart.trans (apart_set (apart_bump (Apart.refl s))) markWeak_apart.widenEvents

theorem wordLost_reports : Safety.countedBy s (wordLost m line s) .memUncorrectable m 1 ∧ Safety.countedBy s (wordLost m line s) .memWeak m 1
    ∧ Safety.raised s (wordLost m line s) (evDev 97) ∧ Silent (evDev 99) s (wordLost m line s) := by
  obtain ⟨h1, h2⟩ := markWeak_reports (s := (s.bump .memUncorrectable m).set .xMemUncorrected 0 1) (m := m) (line := line)
  have hg : ∀ {r i}, r ≠ .memUncorrectable → r ≠ .xMemUncorrected →
      ((s.bump .memUncorrectable m).set .xMemUncorrected 0 1).get r i = s.get r i := fun g1 g2 =>
    (get_set_reg _ _ g2).trans (get_bump_other (.inl g1))
  refine ⟨?_, ?_, raised_of_silent (hg (by decide) (by decide)) h2,
    Silent.trans (silent_set (silent_bump Silent.refl)) (silent_markWeak (by decide) (by decide) (by decide))⟩
  · rw [Safety.countedBy, wordLost, markWeak_apart.regs _ _ rfl, get_set_reg _ _ (by decide), get_bump_same]
  · rw [Safety.countedBy, State.nat, hg (by decide) (by decide)] at h1
    exact h1

theorem uncorrectable_spared : ∃ y, Spared (wordLost m line s) y ∧ (s.uncorrectable m line h = y ∨
    s.uncorrectable m line h = y.raise (evDev 99) [u16 m, u64 line]) := by
  rw [uncorrectable_eq]
  split
  · exact ⟨_, haven_spared, .inl rfl⟩
  · exact ⟨_, Spared.ite heldOutcome_spared Spared.refl, .inr rfl⟩

theorem mem_quiet (hr : r ∈ memRegs) : Safety.eventSide r = false := by
  revert r
  decide

/-- An uncorrectable word leaves the other figures of its domain. -/
theorem uncorrectable_get (hr : r ∈ memRegs) : (s.uncorrectable m line h).get r i = (wordLost m line s).get r i := by
  obtain ⟨y, hy, he⟩ := uncorrectable_spared (s := s) (m := m) (line := line) (h := h)
  have hk : y.get r i = (wordLost m line s).get r i := hy.apart.get hr
  rcases he with he | he
  · rw [he, hk]
  · rw [he, get_raise (mem_quiet hr), hk]

theorem uncorrectable_counts : Safety.countedBy s (s.uncorrectable m line h) .memUncorrectable m 1
    ∧ Safety.countedBy s (s.uncorrectable m line h) .memWeak m 1 ∧ Safety.raised s (s.uncorrectable m line h) (evDev 97) := by
  obtain ⟨h1, h2, h3, -⟩ := wordLost_reports (s := s) (m := m) (line := line)
  refine ⟨?_, ?_, ?_⟩
  · rw [Safety.countedBy, uncorrectable_get (by decide), h1]
  · rw [Safety.countedBy, uncorrectable_get (by decide), h2]
  · obtain ⟨y, hy, he⟩ := uncorrectable_spared (s := s) (m := m) (line := line) (h := h)
    have hk := raised_of_count (hy.count (evDev 97) (by decide)) h3
    rcases he with he | he
    · rwa [he]
    · rw [he]
      exact raised_of_count (count_raise_other (by decide) (by decide)) hk

theorem uncorrectable_told (hm : m ≠ 0) : Safety.raised s (s.uncorrectable m line h) (evDev 99) := by
  obtain ⟨-, -, -, h4⟩ := wordLost_reports (s := s) (m := m) (line := line)
  rw [uncorrectable_eq, if_neg hm]
  exact Silent.raised (h4.trans ((Spared.ite heldOutcome_spared Spared.refl).count _ (by decide))) (by decide)

theorem uncorrectable_haven : (s.uncorrectable 0 line h).get .deviceModeState 0 = 5
    ∧ (s.uncorrectable 0 line h).bit .deviceHavenCauses 0 3 = true := by
  rw [uncorrectable_eq, if_pos rfl]
  exact haven_memory

/-! ## A line read -/

/-- Register r of unit i counts n, or stands where n is 0. -/
def Rises (s t : State) (r : Reg) (i n : Nat) : Prop :=
  (0 < n → Safety.countedBy s t r i n) ∧ (n = 0 → t.get r i = s.get r i)

theorem Rises.none (h : t.get r i = s.get r i) : Rises s t r i 0 := ⟨fun h => absurd h (by decide), fun _ => h⟩

theorem Rises.one (h : Safety.countedBy s t r i 1) : Rises s t r i 1 := ⟨fun _ => h, fun h => absurd h (by decide)⟩

theorem Rises.next (h : Safety.countedBy s t r i 1) (g : Rises t u r i n) : Rises s u r i (n + 1) := by
  refine ⟨fun _ => ?_, fun h => absurd h (Nat.succ_ne_zero n)⟩
  have ht : t.nat r i = (s.nat r i + 1) % 2 ^ r.bits := by rw [State.nat, h, Int.toNat_natCast]
  rcases Nat.eq_zero_or_pos n with hn | hn
  · rw [Safety.countedBy, g.2 hn, h, hn]
  · rw [Safety.countedBy, g.1 hn, ht, Nat.mod_add_mod, Nat.add_assoc, Nat.add_comm 1 n]

theorem Rises.same (h : Rises s t r i n) (g : u.get r i = t.get r i) : Rises s u r i n :=
  ⟨fun hn => g.trans (h.1 hn), fun hn => g.trans (h.2 hn)⟩

theorem Rises.after (h : Rises t u r i n) (g : t.get r i = s.get r i) : Rises s u r i n := by
  refine ⟨fun hn => ?_, fun hn => (h.2 hn).trans g⟩
  rw [Safety.countedBy, h.1 hn, State.nat, State.nat, g]

/-- One word of a line read: a lost one has its outcome, a corrected one is noted. -/
def wordRead (m line : Nat) (a : State × Bool) (e : Nat × HeldWord) : State × Bool :=
  if (a.1.wordOutcome e.1).1 = 2 then ((a.1.wordOutcome e.1).2.uncorrectable m line e.2, a.2)
  else ((a.1.wordOutcome e.1).2, a.2 || (a.1.wordOutcome e.1).1 == 1)

theorem lineRead_eq {l : List (Nat × HeldWord)} : s.lineRead m line l
    = if ((l.take 8).foldl (wordRead m line) (s, false)).2 then ((l.take 8).foldl (wordRead m line) (s, false)).1.correction m line
      else ((l.take 8).foldl (wordRead m line) (s, false)).1 := rfl

theorem wordRead_lost {q : Bool} : wordRead m line (s, q) (2, h) = (s.uncorrectable m line h, q) := rfl

theorem wordRead_held {q : Bool} (hn : n ≤ 1) : wordRead m line (s, q) (n, h) = (s, q || n == 1) := by
  have ho : s.wordOutcome n = (n, s) := if_pos (by omega)
  unfold wordRead
  rw [ho, if_neg (by dsimp only; omega)]

/-- Lost words are counted one by one, and corrected ones noted; the rest stands. -/
theorem wordsRead {l : List (Nat × HeldWord)} {q : Bool} (hl : ∀ e ∈ l, e.1 ≤ 2) :
    Rises s (l.foldl (wordRead m line) (s, q)).1 .memUncorrectable m (l.filter fun e => e.1 == 2).length
    ∧ (l.foldl (wordRead m line) (s, q)).2 = (q || l.any fun e => e.1 == 1)
    ∧ (l.foldl (wordRead m line) (s, q)).1.get .memCorrected m = s.get .memCorrected m := by
  induction l generalizing s q with
  | nil => exact ⟨Rises.none rfl, (Bool.or_false q).symm, rfl⟩
  | cons x l ih =>
    obtain ⟨k, w⟩ := x
    have hk : k ≤ 2 := hl _ List.mem_cons_self
    rw [List.foldl_cons]
    rcases Nat.lt_or_ge k 2 with h2 | h2
    · obtain ⟨h1, h3, h4⟩ := ih (s := s) (q := q || k == 1) fun e he => hl e (List.mem_cons_of_mem _ he)
      rw [wordRead_held (by omega), List.filter_cons_of_neg (by simpa using by omega)]
      exact ⟨h1, by rw [h3, List.any_cons, Bool.or_assoc], h4⟩
    · obtain rfl : k = 2 := by omega
      obtain ⟨h1, h3, h4⟩ := ih (s := s.uncorrectable m line w) (q := q) fun e he => hl e (List.mem_cons_of_mem _ he)
      rw [wordRead_lost, List.filter_cons_of_pos (by rfl)]
      refine ⟨Rises.next uncorrectable_counts.1 h1, by rw [h3, List.any_cons]; rfl, h4.trans ?_⟩
      rw [uncorrectable_get (by decide), wordLost_apart.regs _ _ rfl]

theorem lineRead_counts {l : List (Nat × HeldWord)} (h8 : l.length ≤ 8) (hl : ∀ e ∈ l, e.1 ≤ 2) :
    Rises s (s.lineRead m line l) .memCorrected m (if l.any (fun e => e.1 == 1) then 1 else 0)
    ∧ Rises s (s.lineRead m line l) .memUncorrectable m (l.filter fun e => e.1 == 2).length := by
  obtain ⟨h1, h2, h3⟩ := wordsRead (s := s) (m := m) (line := line) (q := false) hl
  rw [lineRead_eq, List.take_of_length_le h8, h2, Bool.false_or]
  cases l.any fun e => e.1 == 1 with
  | false => exact ⟨Rises.none h3, h1⟩
  | true =>
    exact ⟨(Rises.one correction_counts).after h3, h1.same (correction_apart.regs _ _ rfl)⟩

/-- What a line read leaves for the scrubber's own figures. -/
theorem lineRead_scrub {l : List (Nat × HeldWord)} (hr : r = .memLaps ∨ r = .xScrubAt) :
    (s.lineRead m line l).get r i = s.get r i := by
  have hm : r ∈ memRegs := by rcases hr with rfl | rfl <;> decide
  have hu : ∀ (y : State) w, (y.uncorrectable m line w).get r i = y.get r i := fun y w => by
    rw [uncorrectable_get hm, wordLost_apart.regs _ _ (by rcases hr with rfl | rfl <;> rfl)]
  have hw : ∀ (l : List (Nat × HeldWord)) (a : State × Bool), (l.foldl (wordRead m line) a).1.get r i = a.1.get r i := fun l => by
    induction l with
    | nil => exact fun a => rfl
    | cons x l ih =>
      intro a
      have ho : (a.1.wordOutcome x.1).2.get r i = a.1.get r i := by
        unfold State.wordOutcome
        split <;> rfl
      rw [List.foldl_cons, ih, wordRead]
      split
      · exact (hu _ _).trans ho
      · exact ho
  rw [lineRead_eq]
  split
  · rw [correction_apart.regs _ _ (by rcases hr with rfl | rfl <;> rfl), hw]
  · exact hw _ _

theorem lineRead_corrected : s.lineRead m line [(1, h)] = s.correction m line := by
  rw [lineRead_eq, List.take_of_length_le (by simp), List.foldl_cons, List.foldl_nil, wordRead_held (le_refl 1)]
  exact if_pos rfl

theorem lineRead_lost : s.lineRead m line [(2, h)] = s.uncorrectable m line h := by
  rw [lineRead_eq, List.take_of_length_le (by simp), List.foldl_cons, List.foldl_nil, wordRead_lost]
  exact if_neg Bool.false_ne_true

/-! ## A scrub read -/

/-- The scrubber takes its next line. -/
def scrubTaken (m line : Nat) (s : State) : State :=
  (if s.get .xLapMark m = 0 then s.set .xLapMark m (s.uptime + 1 : Nat) else s).set .xScrubAt m
    (if decide (Config.memLines m ≤ line / 64 + 1) then 0 else line + 64 : Nat)

/-- The end of a lap with the last line of a domain. -/
def lapped (m line : Nat) (s : State) : State := if decide (Config.memLines m ≤ line / 64 + 1) then s.lapEnd m else s

/-- The line read, which an invalid one is not. -/
def lineTaken (m line : Nat) (x : LineReading) (s : State) : State := match x with
  | .invalid => s
  | .valid l => s.lineRead m line l

theorem scrubRead_eq {x : LineReading} (he : s.flag .scrubEnable 0 = true) (hl : line = s.nat .xScrubAt m) :
    s.scrubRead m line x true = lapped m line (lineTaken m line x (scrubTaken m line s)) := if_neg (by simp [he, hl])

theorem scrubTaken_apart : Apart [Reg.xLapMark, .xScrubAt].contains s (scrubTaken m line s) :=
  apart_set (apart_ite (apart_set (Apart.refl s)) (Apart.refl s))

theorem scrubTaken_tracker : (scrubTaken m line s).tracker = s.tracker := by
  unfold scrubTaken
  split <;> rfl

/-- What the end of a lap writes. -/
abbrev lapRegs : List Reg := [.memLaps, .memLapTime, .xLapDone, .xLapMark]

/-- The figures of a lap. -/
def lapTold (m : Nat) (s : State) : State :=
  (s.bump .memLaps m).set .memLapTime m (min ((s.uptime + 1 - s.nat .xLapMark m) / 1000000) (2 ^ 32 - 1) : Nat)
    |>.set .xLapDone m (max 1 (s.uptime + 1 - s.nat .xLapMark m) : Nat) |>.set .xLapMark m (s.uptime + 1 : Nat)

theorem lapEnd_cases : s.lapEnd m = lapTold m s ∨ s.lapEnd m = (lapTold m s).raise (evDev 100) [] := by
  unfold State.lapEnd
  extract_lets d ms a
  by_cases h : a.get .memLapLimit m ≠ 0 ∧ a.nat .memLapLimit m * 1000000 < d
  · exact .inr (if_pos h)
  · exact .inl (if_neg h)

theorem lapTold_apart : Apart lapRegs.contains s (lapTold m s) :=
  apart_set (apart_set (apart_set (apart_bump (Apart.refl s))))

theorem lapEnd_apart : Apart (fun r => Safety.eventSide r || lapRegs.contains r) s (s.lapEnd m) := by
  rcases lapEnd_cases (s := s) (m := m) with h | h
  · rw [h]
    exact lapTold_apart.withEvents
  · rw [h]
    exact apart_raise (wide_events lapRegs) lapTold_apart.withEvents

theorem lapEnd_counts : Safety.countedBy s (s.lapEnd m) .memLaps m 1 := by
  have hl : Safety.countedBy s (lapTold m s) .memLaps m 1 := by
    rw [Safety.countedBy, lapTold, get_set_reg _ _ (by decide), get_set_reg _ _ (by decide), get_set_reg _ _ (by decide), get_bump_same]
  rcases lapEnd_cases (s := s) (m := m) with h | h
  · rwa [h]
  · rw [h, Safety.countedBy, get_raise rfl, hl]

theorem silent_lapEnd (h1 : e ≠ evDev 132) (h2 : e ≠ evDev 100) : Silent e s (s.lapEnd m) := by
  have hl : Silent e s (lapTold m s) := silent_set (silent_set (silent_set (silent_bump Silent.refl)))
  rcases lapEnd_cases (s := s) (m := m) with h | h
  · rwa [h]
  · rw [h]
    exact silent_raise hl h1 h2

theorem lapped_apart : Apart (fun r => Safety.eventSide r || lapRegs.contains r) s (lapped m line s) :=
  apart_ite lapEnd_apart (Apart.refl s)

theorem lapped_raised (he : e ∈ [evDev 97, evDev 99]) (h : Safety.raised s₀ s e) : Safety.raised s₀ (lapped m line s) e := by
  have h100 : e ≠ evDev 100 := by
    simp only [List.mem_cons, List.not_mem_nil, or_false] at he
    rcases he with rfl | rfl <;> decide
  exact Silent.raised_after (silent_ite (silent_lapEnd (aside_memory he).miss h100) Silent.refl) h

theorem lineTaken_scrub {x : LineReading} (hr : r = .memLaps ∨ r = .xScrubAt) : (lineTaken m line x s).get r i = s.get r i := by
  cases x with
  | invalid => rfl
  | valid l => exact lineRead_scrub hr

/-! ## Redirects and repairs (R331, R332) -/

theorem bump_rows : (s.bump r i n).redirects = s.redirects ∧ (s.bump r i n).repairs = s.repairs := by
  obtain ⟨a, w, h⟩ := bump_form (s := s) r i n
  rw [h]
  exact ⟨rfl, rfl⟩

theorem raise_rows {d : List Item} : (s.raise e d).redirects = s.redirects ∧ (s.raise e d).repairs = s.repairs := by
  have := fact_false
  obtain ⟨-, h1, h2⟩ := (kept_raise (κ := memScope) (e := e) (detail := d) (Kept.refl s)).sameIntegrity rfl
  exact ⟨h2, h1⟩

/-- A row served from its spare. -/
def rowServed (m row : Nat) (s : State) : State :=
  { (s.set .memSparesLeft m (s.get .memSparesLeft m - 1)).bump .memRemaps m with
    redirects := ((s.set .memSparesLeft m (s.get .memSparesLeft m - 1)).bump .memRemaps m).redirects ++ [(m, row)] }

/-- A row queued for repair. -/
def repairQueued (m row : Nat) (s : State) : State :=
  ({ s with repairs := s.repairs ++ [(m - 6, row)] } : State).set .repairPending 0 (s.repairs.length + 1 : Nat)

theorem rowCopied_eq (h1 : s.spareFor m row = true) (h2 : (m, row) ∉ s.redirects) (h3 : s.rowWeak m row = true) :
    s.rowCopied m row = if isHbm m then repairQueued m row (rowServed m row s)
      else (rowServed m row s).bump .xMacroUsed (macroUnit m row) := if_neg (by simp [h1, h2, h3])

theorem rowServed_rows : (rowServed m row s).redirects = s.redirects ++ [(m, row)] ∧ (rowServed m row s).repairs = s.repairs :=
  ⟨congrArg (· ++ [(m, row)]) (bump_rows (s := s.set .memSparesLeft m (s.get .memSparesLeft m - 1)) (r := .memRemaps) (i := m) (n := 1)).1,
    (bump_rows (s := s.set .memSparesLeft m (s.get .memSparesLeft m - 1)) (r := .memRemaps) (i := m) (n := 1)).2⟩

theorem rowServed_spares : (rowServed m row s).get .memSparesLeft m = s.get .memSparesLeft m - 1 :=
  (get_bump_other (.inl (by decide))).trans (get_set_same _ _ _ _)

theorem rowServed_get (h1 : r ≠ .memSparesLeft) (h2 : r ≠ .memRemaps) : (rowServed m row s).get r i = s.get r i :=
  (get_bump_other (.inl h2)).trans (get_set_reg _ _ h1)

theorem rowServed_counts : Safety.countedBy s (rowServed m row s) .memRemaps m 1 := by
  have h : State.get _ _ _ = _ := get_bump_same (s := s.set .memSparesLeft m (s.get .memSparesLeft m - 1)) (r := .memRemaps) (i := m) (n := 1)
  rw [State.nat, get_set_reg _ _ (by decide)] at h
  exact h

theorem repairQueued_rows : (repairQueued m row s).redirects = s.redirects
    ∧ (repairQueued m row s).repairs = s.repairs ++ [(m - 6, row)] := ⟨rfl, rfl⟩

theorem repairQueued_get (h : r ≠ .repairPending) : (repairQueued m row s).get r i = s.get r i := get_set_reg _ _ h

theorem repairQueued_pending : (repairQueued m row s).get .repairPending 0 = (s.repairs.length + 1 : Nat) := get_set_same _ _ _ _

/-- A repair that ends leaves the queue. -/
def repairEnded (k : Nat) (x : Nat × Nat) (s : State) : State :=
  (({ s with repairs := s.repairs.erase x } : State).set .repairPending 0 ((s.repairs.erase x).length : Nat)).set .xRepairRun k 0

/-- The redirect of a repaired row goes, its spare is free again. -/
def rowRepaired (k row : Nat) (n : Int) (s : State) : State :=
  (({ s with redirects := s.redirects.filter fun y => y != (k + 6, row) } : State).bump .repairDone 0).set .memSparesLeft (k + 6) n

theorem repairDone_eq {x : Nat × Nat} {ok : Bool} (hx : s.repairRunning k = some x) : s.repairDone k ok
    = if ok then rowRepaired k x.2 ((repairEnded k x s).get .memSparesLeft (k + 6) + 1) (repairEnded k x s)
      else ((repairEnded k x s).bump .repairFailed 0).raise (evDev 101) [] := by
  unfold State.repairDone
  rw [hx]
  rfl

theorem repairEnded_get {x : Nat × Nat} (h1 : r ≠ .repairPending) (h2 : r ≠ .xRepairRun) :
    (repairEnded k x s).get r i = s.get r i := (get_set_reg _ _ h2).trans (get_set_reg _ _ h1)

theorem rowRepaired_reports : (k + 6, row) ∉ (rowRepaired k row v s).redirects ∧ (rowRepaired k row v s).repairs = s.repairs
    ∧ Safety.countedBy s (rowRepaired k row v s) .repairDone 0 1 ∧ (rowRepaired k row v s).get .memSparesLeft (k + 6) = v := by
  have h := bump_rows (s := { s with redirects := s.redirects.filter fun y => y != (k + 6, row) }) (r := .repairDone) (i := 0) (n := 1)
  refine ⟨?_, h.2, (get_set_reg _ _ (by decide)).trans get_bump_same, get_set_same _ _ _ _⟩
  rw [show (rowRepaired k row v s).redirects = s.redirects.filter fun y => y != (k + 6, row) from h.1]
  simp

end Sys2Proof.Laws

namespace Sys2Proof

open Sys2Proof.Machine Sys2Proof.Laws

/-- Settles O46: lost words are counted one by one in the order of the line, and neither what they held nor Haven touches
the domain's figures. -/
theorem memoryErrorsAreHandled : Obligations.MemoryErrorsAreHandled := by
  refine ⟨fun s m line x idle h => live_still (f := fun s => s.scrubRead m line x idle) (if_pos ?_), fun s m line x hp he hl => ?_,
    fun s m line q hp => ⟨_, live_running (f := fun s => if true then s.correction m line else s) hp, correction_counts⟩,
    fun s m line q => live_still (f := fun s => if false then s.correction m line else s) rfl, fun s m row hp h1 h2 h3 => ?_,
    fun s m row h => live_still (f := fun s => s.rowCopied m row) (if_pos ?_), fun s k ok x hp hx => ?_,
    fun s k ok h => live_still (f := fun s => s.repairDone k ok) (by unfold State.repairDone; rw [h])⟩
  · rcases h with h | h | h
    · exact .inl (by rw [h]; rfl)
    · exact .inr (.inl (by rw [h]; rfl))
    · exact .inr (.inr h)
  · intro last rises counts
    have hx := live_running (s := s) (f := fun s => s.scrubRead m line x true) hp
    rw [scrubRead_eq he hl] at hx
    refine ⟨_, hx, ?_⟩
    have hs : ∀ {r i}, r ≠ .xLapMark → r ≠ .xScrubAt → (scrubTaken m line s).get r i = s.get r i := fun {r i} g1 g2 =>
      scrubTaken_apart.regs r i (by simp [g1, g2])
    have hat : (scrubTaken m line s).get .xScrubAt m = (if last = true then 0 else line + 64 : Nat) := get_set_same _ _ _ _
    have hk := scrubTaken_tracker (s := s) (m := m) (line := line)
    generalize scrubTaken m line s = y at hs hat hk ⊢
    refine ⟨?_, fun hq => ?_, ?_, ?_, ?_, ?_⟩
    · rw [lapped_apart.regs _ _ rfl, lineTaken_scrub (.inr rfl), hat]
    · rw [lapped, if_pos hq, Safety.countedBy, lapEnd_counts, State.nat, lineTaken_scrub (.inl rfl), hs (by decide) (by decide)]
      rfl
    · rintro rfl
      have hg : ∀ {r}, r = .memCorrected ∨ r = .memUncorrectable ∨ r = .memWeak → (lapped m line y).get r m = s.get r m := fun {r} hr =>
        (lapped_apart.regs _ _ (by rcases hr with rfl | rfl | rfl <;> rfl)).trans
          (hs (by rcases hr with rfl | rfl | rfl <;> decide) (by rcases hr with rfl | rfl | rfl <;> decide))
      exact ⟨⟨Rises.none (hg (.inl rfl)), Rises.none (hg (.inr (.inl rfl)))⟩, hg (.inr (.inr rfl))⟩
    · rintro l rfl h8 hall
      obtain ⟨h1, h2⟩ := lineRead_counts (s := y) (m := m) (line := line) h8 hall
      exact ⟨(h1.same (lapped_apart.regs _ _ rfl)).after (hs (by decide) (by decide)),
        (h2.same (lapped_apart.regs _ _ rfl)).after (hs (by decide) (by decide))⟩
    · rintro held rfl z hz hc hi
      have hn : y.inLap z = true := (inLap_congr (hs (by decide) (by decide)) (hs (by decide) (by decide))).trans hi
      obtain ⟨h1, h2⟩ := correction_third (s := y) (m := m) (line := line) (by rw [hk]; exact hz) hc hn
      rw [lineTaken, lineRead_corrected]
      rw [Safety.countedBy, State.nat, hs (by decide) (by decide)] at h1
      exact ⟨(lapped_apart.regs _ _ rfl).trans h1, lapped_raised (by decide) (raised_of_silent (hs (by decide) (by decide)) h2)⟩
    · rintro held rfl
      obtain ⟨-, h1, h2⟩ := uncorrectable_counts (s := y) (m := m) (line := line) (h := held)
      rw [lineTaken, lineRead_lost]
      rw [Safety.countedBy, State.nat, hs (by decide) (by decide)] at h1
      refine ⟨(lapped_apart.regs _ _ rfl).trans h1, lapped_raised (by decide) (raised_of_silent (hs (by decide) (by decide)) h2),
        fun hm => lapped_raised (by decide) (raised_of_silent (hs (by decide) (by decide)) (uncorrectable_told hm)), fun hm => ?_⟩
      rw [hm, State.bit, State.nat, lapped_apart.regs _ _ rfl, lapped_apart.regs _ _ rfl]
      exact uncorrectable_haven
  · have hx := live_running (s := s) (f := fun s => s.rowCopied m row) hp
    refine ⟨_, hx, ?_⟩
    obtain ⟨g1, g2⟩ := rowServed_rows (s := s) (m := m) (row := row)
    rw [rowCopied_eq h1 h2 h3]
    cases isHbm m with
    | true =>
      rw [if_pos rfl]
      refine ⟨g1, ?_, ?_, fun _ => ⟨?_, ?_⟩, fun h => by cases h⟩
      · rw [repairQueued_get (by decide), rowServed_spares]
      · rw [Safety.countedBy, repairQueued_get (by decide), rowServed_counts]
      · rw [repairQueued_rows.2, g2]
      · rw [repairQueued_pending, g2]
    | false =>
      rw [if_neg (by decide)]
      refine ⟨bump_rows.1.trans g1, ?_, ?_, (fun h => by cases h), fun _ => ⟨bump_rows.2.trans g2, ?_⟩⟩
      · rw [get_bump_other (.inl (by decide)), rowServed_spares]
      · rw [Safety.countedBy, get_bump_other (.inl (by decide)), rowServed_counts]
      · rw [Safety.countedBy, get_bump_same, State.nat, rowServed_get (by decide) (by decide), ← State.nat]
  · simp only [List.contains_eq_mem, decide_eq_true_eq, Bool.not_eq_true']
    tauto
  · have hd := live_running (s := s) (f := fun s => s.repairDone k ok) hp
    refine ⟨_, hd, ?_⟩
    rw [repairDone_eq hx]
    cases ok with
    | true =>
      rw [if_pos rfl]
      obtain ⟨h1, h2, h3, h4⟩ := rowRepaired_reports (s := repairEnded k x s) (k := k) (row := x.2)
        (v := (repairEnded k x s).get .memSparesLeft (k + 6) + 1)
      refine ⟨h2, fun _ => ⟨h1, ?_, ?_⟩, fun h => by cases h⟩
      · rw [Safety.countedBy, h3, State.nat, State.nat, repairEnded_get (by decide) (by decide)]
      · rw [h4, repairEnded_get (by decide) (by decide)]
    | false =>
      rw [if_neg (by decide)]
      refine ⟨raise_rows.2.trans bump_rows.2, (fun h => by cases h), fun _ => ⟨raise_rows.1.trans bump_rows.1, ?_, raised_raise ?_ (by decide)⟩⟩
      · rw [Safety.countedBy, get_raise rfl, get_bump_same, State.nat, State.nat, repairEnded_get (by decide) (by decide)]
      · rw [get_bump_other (.inl (by decide)), repairEnded_get (by decide) (by decide)]

end Sys2Proof

/-! # Converter calibration (R86 to R99) -/

namespace Sys2Proof.Laws

set_option Elab.async false

open Sys2Proof.Machine

variable {s₀ s t u : State} {cl : Client} {r : Reg} {i j n m b c e f g p k d : Nat} {v : Int} {L : List Reg}
  {K : Reg → Bool}

/-! ## A recalibration (R94) -/

/-- The converters of carrier c. -/
abbrev converters (c : Nat) : List Nat := (channels c) ++ (channels c).map (48 + ·)

/-- The suspects of a carrier put by. -/
def suspectsCleared (c : Nat) (s : State) : State := s.each (converters c) fun s u =>
  (s.set .xCalSuspectWas u (s.get .convCalSuspect u)).set .convCalSuspect u 0xFF

/-- A carrier that recalibrates. -/
def recalStarted (s : State) (c : Nat) : State := (suspectsCleared c
  ((s.set .xFgCal c 1 |>.setBit .calFgBusy 0 c true).set .xFgCalTick c (s.get .xTicks 0))).refreshConv c

abbrev recalRegs : List Reg := [.xFgCal, .xFgCalTick, .calFgBusy, .convCalSuspect, .xCalSuspectWas, .adcState, .dacState]

theorem writeRecal_eq : writeRecal v s = if (carriers.filter fun c => bitOf v.toNat c).any fun c => s.flag .xFgCal c then
    (s, refusedWith 0x0A) else (s.each (carriers.filter fun c => bitOf v.toNat c) recalStarted, accepted) := rfl

theorem suspectsCleared_apart : Apart [Reg.convCalSuspect, .xCalSuspectWas].contains s (suspectsCleared c s) :=
  apart_each (Apart.refl s) fun _ _ ht => apart_set (apart_set ht)

theorem suspectsCleared_suspect : (suspectsCleared c s).get .convCalSuspect i
    = if i ∈ converters c then 0xFF else s.get .convCalSuspect i := by
  unfold suspectsCleared
  generalize converters c = l
  induction l generalizing s with
  | nil => rfl
  | cons a l ih =>
    rw [each_cons, ih]
    by_cases hi : i = a
    · rw [hi, get_set_same, if_pos List.mem_cons_self, ite_self]
    · rw [get_set_other _ _ (by simp [hi]), get_set_reg _ _ (by decide)]
      simp [hi]

theorem recalStarted_apart : Apart recalRegs.contains s (recalStarted s c) :=
  apart_refreshConv (Apart.trans (apart_set (apart_set (apart_set (Apart.refl s)))) suspectsCleared_apart.widen) rfl rfl

theorem recalStarted_get : (recalStarted s c).get .xFgCal c = 1 ∧ (recalStarted s c).get .xFgCalTick c = s.get .xTicks 0 := by
  unfold recalStarted
  rw [refreshConv_get (by decide) (by decide), refreshConv_get (by decide) (by decide), suspectsCleared_apart.regs _ _ rfl,
    suspectsCleared_apart.regs _ _ rfl, get_set_same, get_set_reg _ _ (by decide), setBit_get (by decide), get_set_same]
  exact ⟨rfl, rfl⟩

theorem recalStarted_suspect : (recalStarted s c).get .convCalSuspect i
    = if i ∈ converters c then 0xFF else s.get .convCalSuspect i := by
  unfold recalStarted
  rw [refreshConv_get (by decide) (by decide), suspectsCleared_suspect, get_set_reg _ _ (by decide), setBit_get (by decide),
    get_set_reg _ _ (by decide)]

/-- What a recalibration shows of carrier c. -/
def recalView (c : Nat) (s : State) : Int × Int × List Int :=
  (s.get .xFgCal c, s.get .xFgCalTick c, (converters c).map fun i => s.get .convCalSuspect i)

theorem mem_converters : i ∈ converters c ↔ i / 4 = c ∨ 12 ≤ i / 4 ∧ i / 4 - 12 = c := by
  simp only [converters, channels, List.map_cons, List.map_nil, List.mem_append, List.mem_cons, List.not_mem_nil, or_false]
  omega

theorem recalStarted_other (hn : n < 12) (hc : c < 12) (h : n ≠ c) : recalView c (recalStarted s n) = recalView c s := by
  have hg : ∀ r, r = .xFgCal ∨ r = .xFgCalTick → (recalStarted s n).get r c = s.get r c := fun r hr => by
    unfold recalStarted
    rw [refreshConv_get (by rcases hr with rfl | rfl <;> decide) (by rcases hr with rfl | rfl <;> decide),
      suspectsCleared_apart.regs _ _ (by rcases hr with rfl | rfl <;> rfl), get_set_other _ _ (by simp [Ne.symm h]),
      setBit_get (by rcases hr with rfl | rfl <;> decide), get_set_other _ _ (by simp [Ne.symm h])]
  have hs : ∀ i ∈ converters c, (recalStarted s n).get .convCalSuspect i = s.get .convCalSuspect i := fun i hi => by
    rw [recalStarted_suspect, if_neg]
    rw [mem_converters] at hi ⊢
    omega
  rw [recalView, hg _ (.inl rfl), hg _ (.inr rfl), List.map_congr_left hs, ← recalView]

/-- The carriers named recalibrate. -/
theorem recalStarted_all {l : List Nat} (hl : l.Nodup) (h12 : ∀ a ∈ l, a < 12) (hc : c ∈ l) :
    (s.each l recalStarted).get .xFgCal c = 1 ∧ (s.each l recalStarted).get .xFgCalTick c = s.get .xTicks 0
    ∧ ∀ i ∈ converters c, (s.each l recalStarted).get .convCalSuspect i = 0xFF := by
  obtain ⟨x, hx, -, hv⟩ := each_view_at (view := recalView c) (f := recalStarted) (I := fun y => y.get .xTicks 0 = s.get .xTicks 0) hl hc
    (fun y a ha hne => recalStarted_other (h12 a ha) (h12 c hc) hne) rfl (fun y a _ hy => (recalStarted_apart.regs _ _ rfl).trans hy)
  unfold recalView at hv
  obtain ⟨h1, h23⟩ := Prod.mk.inj hv
  obtain ⟨h2, h3⟩ := Prod.mk.inj h23
  obtain ⟨g1, g2⟩ := recalStarted_get (s := x) (c := c)
  refine ⟨h1.trans g1, h2.trans (g2.trans hx), fun i hi => ?_⟩
  rw [List.map_inj_left.1 h3 i hi, recalStarted_suspect, if_pos hi]

/-! ## A background step (R96) -/

/-- The step's unit rests, the resting one serves. -/
def unitTaken (n : Nat) (s : State) : State :=
  (s.setBlob .convCalSlotMap n ((s.calMap n).set (s.nat .xCalSlot n) (BitVec.ofNat 8 (s.nat .convCalResting n)))).calDropLost n
    |>.set .convCalResting n ((s.calMap n).getD (s.nat .xCalSlot n) 0).toNat |>.set .xCalBusy n 1 |>.set .convCalState n 2
    |>.set .xCalSlot n ((s.nat .xCalSlot n + 1) % slotsOf n : Nat)

/-- The next step is due an interval later. -/
def stepMarked (n : Nat) (s : State) : State :=
  (s.markTick .xCalStepAt n).set .xCalStepLen n (s.get (if n < 48 then .calBgAdcInterval else .calBgDacInterval) 0)

/-- The time of a lap that ends. -/
def lapTimed (n : Nat) (s : State) : State :=
  if s.flag .xCalLapStarted n then s.set .convCalLapTime n ((s.get .xTicks 0 - s.get .xCalLapTick n) / 250) else s

/-- A lap of the slots ends where the next begins. -/
def lapNoted (n : Nat) (s : State) : State :=
  ((lapTimed n s).set .xCalLapStarted n 1).set .xCalLapTick n ((lapTimed n s).get .xTicks 0)

theorem bgStep_starts (h1 : s.bgOn = true) (h2 : s.get .convCalState n = 1 ∨ s.get .convCalState n = 2)
    (h3 : s.flag .xCalBusy n = false) (h4 : s.bgDue n = true)
    (h5 : if n < 48 then s.rxHeld (convCarrier n) = false else s.txLoop (convCarrier n) = 2) :
    s.bgStep n = if s.nat .xCalSlot n = 0 then lapNoted n (stepMarked n (unitTaken n s)) else stepMarked n (unitTaken n s) := by
  have h5' : (if n < 48 then s.rxHeld (convCarrier n) else s.txLoop (convCarrier n) != 2) = false := by
    split at h5
    · rw [if_pos (by assumption), h5]
    · rw [if_neg (by assumption), h5]
      rfl
  have h2' : (s.get .convCalState n != 1 && s.get .convCalState n != 2) = false := by
    rcases h2 with h2 | h2 <;> rw [h2] <;> rfl
  unfold State.bgStep
  extract_lets c st held slot p a b d e
  rw [if_neg (by simp [c, st, held, h1, h2', h3, h4, h5'])]
  rfl

theorem calDropLost_apart : Apart [Reg.convCalRecords, .xCalLost].contains s (s.calDropLost n) :=
  apart_each (Apart.refl s) fun _ _ ht => apart_set (apart_setBlob ht)

theorem calDropLost_none (h : ∀ k < 65, s.flag .xCalLost (68 * n + k) = false) : s.calDropLost n = s := by
  have hn : (List.range (slotsOf n + 1)).filter (fun k => s.flag .xCalLost (68 * n + k)) = [] :=
    List.filter_eq_nil_iff.2 fun k hk => by
      have hk' : k < 65 := by
        have := List.mem_range.1 hk
        unfold slotsOf at this
        split at this <;> omega
      rw [h k hk']
      decide
  unfold State.calDropLost
  rw [hn]
  rfl

abbrev takenRegs : List Reg := [.convCalSlotMap, .convCalRecords, .xCalLost, .convCalResting, .xCalBusy, .convCalState, .xCalSlot]

theorem unitTaken_apart : Apart takenRegs.contains s (unitTaken n s) :=
  apart_set (apart_set (apart_set (apart_set ((apart_setBlob (Apart.refl s)).trans calDropLost_apart.widen))))

abbrev lapNoteRegs : List Reg := [.convCalLapTime, .xCalLapStarted, .xCalLapTick, .xCalStepAt, .xCalStepLen]

theorem stepMarked_apart : Apart lapNoteRegs.contains s (stepMarked n s) := apart_set (apart_set (Apart.refl s))

theorem lapNoted_apart : Apart lapNoteRegs.contains s (lapNoted n s) :=
  apart_set (apart_set (apart_ite (apart_set (Apart.refl s)) (Apart.refl s)))

/-- What a step in the background does (R96). -/
def bgStepped (n : Nat) (s : State) : State :=
  if s.nat .xCalSlot n = 0 then lapNoted n (stepMarked n (unitTaken n s)) else stepMarked n (unitTaken n s)

theorem bgStepped_marks : Apart lapNoteRegs.contains (unitTaken n s) (bgStepped n s) :=
  apart_ite (stepMarked_apart.trans lapNoted_apart) stepMarked_apart

theorem unitTaken_reports : (unitTaken n s).get .xCalBusy n = 1 ∧ (unitTaken n s).get .convCalState n = 2
    ∧ (unitTaken n s).get .convCalResting n = (((s.calMap n).getD (s.nat .xCalSlot n) 0).toNat : Int)
    ∧ (unitTaken n s).blob .convCalSlotMap n = (s.calMap n).set (s.nat .xCalSlot n) (BitVec.ofNat 8 (s.nat .convCalResting n))
    ∧ (unitTaken n s).get .xCalSlot n = ((s.nat .xCalSlot n + 1) % slotsOf n : Nat) := by
  refine ⟨?_, ?_, ?_, ?_, get_set_same _ _ _ _⟩
  · simp (disch := decide) only [unitTaken, get_set_reg, get_set_same]
  · simp (disch := decide) only [unitTaken, get_set_reg, get_set_same]
  · simp (disch := decide) only [unitTaken, get_set_reg, get_set_same]
  · exact (calDropLost_apart.blobs _ _ rfl).trans (blob_setBlob_same _ _ _ _)

theorem unitTaken_sound (h : ∀ k < 65, s.flag .xCalLost (68 * n + k) = false) :
    (unitTaken n s).blob .convCalRecords n = s.blob .convCalRecords n ∧ ∀ i, (unitTaken n s).get .xCalLost i = s.get .xCalLost i := by
  have hd : ∀ x, (s.setBlob .convCalSlotMap n x).calDropLost n = s.setBlob .convCalSlotMap n x := fun x => calDropLost_none h
  unfold unitTaken
  rw [hd]
  refine ⟨blob_setBlob_other _ _ (by simp), fun i => ?_⟩
  simp (disch := decide) only [get_set_reg]
  rfl

/-! ## The end of a background step -/

/-- The measurement of an ADC's slice is taken beside the unit that serves (R96). -/
def measuredUnit (n : Nat) (m : CalUnit) (s : State) : CalUnit :=
  if n < 48 then { m with skew := m.skew + recordSkew (s.recordAt n (s.calServing n)) } else m

/-- The step has ended. -/
def stepEnded (n : Nat) (s : State) : State := (s.set .xCalBusy n 0).bump .convCalSteps n

theorem bgResult_eq {m : CalUnit} (h : s.flag .xCalBusy n = true) : s.bgResult n m
    = ((stepEnded n s).bgJudge n (s.nat .convCalResting n) (measuredUnit n m s)).refreshBgAt n := if_pos h

theorem stepEnded_get (h1 : r ≠ .xCalBusy) (h2 : r ≠ .convCalSteps) : (stepEnded n s).get r i = s.get r i :=
  (get_bump_other (.inl h2)).trans (get_set_reg _ _ h1)

theorem stepEnded_apart : Apart [Reg.xCalBusy, .convCalSteps].contains s (stepEnded n s) := apart_bump (apart_set (Apart.refl s))

theorem calRecords_congr (h : t.blob .convCalRecords n = s.blob .convCalRecords n) : t.calRecords n = s.calRecords n := by
  unfold State.calRecords
  rw [h]

theorem recordAt_congr (h : t.blob .convCalRecords n = s.blob .convCalRecords n) : t.recordAt n k = s.recordAt n k := by
  unfold State.recordAt
  rw [calRecords_congr h]

theorem referenceAim_congr (h : t.get .xRefTrim c = s.get .xRefTrim c) : t.referenceAim c = s.referenceAim c := by
  unfold State.referenceAim
  rw [h]

theorem bgJudge_accepts {m : CalUnit} (h : brokenLimit (s.referenceAim (convCarrier n)) m (some (s.recordAt n p)) = none) :
    s.bgJudge n p m = ((s.setRecord n p (packRecord m)).set .xCalFailRun (68 * n + p) 0).set .xCalLost (68 * n + p) 0 := by
  unfold State.bgJudge
  rw [h]

/-- A measurement refused, and the run of refusals that it makes. -/
def bgRefused (n p k : Nat) (s : State) : State :=
  (s.calRefuse n p k).set .xCalFailRun (68 * n + p) (s.get .xCalFailRun (68 * n + p) + 1)

theorem bgJudge_refuses {m : CalUnit} (h : brokenLimit (s.referenceAim (convCarrier n)) m (some (s.recordAt n p)) = some k) :
    s.bgJudge n p m = if (bgRefused n p k s).get .xCalFailRun (68 * n + p) = 3 then ((bgRefused n p k s).set .convCalSuspect n p).calStop n 3
      else bgRefused n p k s := by
  unfold State.bgJudge
  rw [h]
  rfl

theorem refreshBgAt_apart : Apart [Reg.convCalState].contains s (s.refreshBgAt n) :=
  apart_ite (apart_set (Apart.refl s)) (Apart.refl s)

theorem refreshBgAt_still (h1 : s.get .convCalState n ≠ 1) (h2 : s.get .convCalState n ≠ 2) : s.refreshBgAt n = s :=
  if_neg fun h => h.elim h1 h2

/-- What a refused result writes. -/
abbrev refuseRegs : List Reg := [.convCalRefusals, .convCalLastLimit, .convCalLastSlice]

theorem calRefuse_apart {l : Nat} : Apart (fun r => Safety.eventSide r || refuseRegs.contains r) s (s.calRefuse n p l) :=
  apart_raise (wide_events refuseRegs) (Apart.withEvents (apart_set (apart_set (apart_bump (Apart.refl s)))))

theorem calRefuse_reports {l : Nat} (h : evCarrier (convCarrier n) 24 ≠ evDev 132) : Safety.countedBy s (s.calRefuse n p l) .convCalRefusals n 1
    ∧ (s.calRefuse n p l).get .convCalLastLimit n = l ∧ (s.calRefuse n p l).get .convCalLastSlice n = p
    ∧ Safety.raised s (s.calRefuse n p l) (evCarrier (convCarrier n) 24) := by
  unfold State.calRefuse
  refine ⟨?_, ?_, ?_, raised_raise ?_ h⟩
  · rw [Safety.countedBy, get_raise rfl, get_set_reg _ _ (by decide), get_set_reg _ _ (by decide), get_bump_same]
  · rw [get_raise rfl, get_set_reg _ _ (by decide), get_set_same]
  · rw [get_raise rfl, get_set_same]
  · rw [get_set_reg _ _ (by decide), get_set_reg _ _ (by decide), get_bump_other (.inl (by decide))]

theorem calStop_apart : Apart (fun r => Safety.eventSide r || [Reg.convCalState].contains r) s (s.calStop n v) :=
  apart_ite (Apart.refl s) (apart_raise (wide_events [Reg.convCalState]) (Apart.withEvents (apart_set (Apart.refl s))))

theorem calStop_state : (s.calStop n v).get .convCalState n = v := by
  unfold State.calStop
  split
  · rename_i h
    exact h.1
  · rw [get_raise rfl, get_set_same]

theorem silent_calStop (h1 : e ≠ evDev 132) (h2 : e ≠ evCarrier (convCarrier n) 25) : Silent e s (s.calStop n v) :=
  silent_ite Silent.refl (silent_raise (silent_set Silent.refl) h1 h2)

theorem convCarrier_event (hk : k < 40) : evCarrier (convCarrier n) k ≠ evDev 132 := by
  unfold evCarrier convCarrier evDev
  omega

theorem bgRefused_apart : Apart (fun r => Safety.eventSide r || (.xCalFailRun :: refuseRegs).contains r) s (bgRefused n p k s) :=
  apart_set (calRefuse_apart.widenEvents (M := .xCalFailRun :: refuseRegs))

/-- A measurement that is refused (R96). -/
theorem bgJudge_refused {m : CalUnit}
    (h : brokenLimit (s.referenceAim (convCarrier n)) m (some (s.recordAt n p)) = some k) :
    (s.bgJudge n p m).get .xCalBusy n = s.get .xCalBusy n ∧ Safety.countedBy s (s.bgJudge n p m) .convCalRefusals n 1
    ∧ (s.bgJudge n p m).get .convCalLastLimit n = k ∧ (s.bgJudge n p m).get .convCalLastSlice n = p
    ∧ Safety.raised s (s.bgJudge n p m) (evCarrier (convCarrier n) 24)
    ∧ (s.bgJudge n p m).blob .convCalRecords n = s.blob .convCalRecords n
    ∧ (s.get .xCalFailRun (68 * n + p) = 2 → (s.bgJudge n p m).get .convCalSuspect n = p ∧ (s.bgJudge n p m).get .convCalState n = 3)
    ∧ (s.get .xCalFailRun (68 * n + p) ≠ 2 → (s.bgJudge n p m).get .convCalSuspect n = s.get .convCalSuspect n) := by
  have h132 := convCarrier_event (n := n) (k := 24) (by decide)
  obtain ⟨h1, h2, h3, h4⟩ := calRefuse_reports (s := s) (n := n) (p := p) (l := k) h132
  have ha := bgRefused_apart (s := s) (n := n) (p := p) (k := k)
  have hf : (bgRefused n p k s).get .xCalFailRun (68 * n + p) = s.get .xCalFailRun (68 * n + p) + 1 := by
    rw [bgRefused, get_set_same]
  have hg : ∀ {r i}, r ≠ .xCalFailRun → (bgRefused n p k s).get r i = (s.calRefuse n p k).get r i := fun hr => get_set_reg _ _ hr
  rw [bgJudge_refuses h, hf]
  generalize bgRefused n p k s = y at *
  have hst : ∀ {r i}, r ≠ .convCalSuspect → Safety.eventSide r = false → r ≠ .convCalState →
      ((y.set .convCalSuspect n p).calStop n 3).get r i = y.get r i := fun {r i} g1 g2 g3 =>
    (calStop_apart.regs r i (by simp [g2, g3])).trans (get_set_reg _ _ g1)
  by_cases h2' : s.get .xCalFailRun (68 * n + p) = 2
  · rw [if_pos (by rw [h2']; rfl)]
    refine ⟨?_, ?_, ?_, ?_, ?_, ?_, fun _ => ⟨?_, calStop_state⟩, fun h => absurd h2' h⟩
    · rw [hst (by decide) rfl (by decide), ha.regs _ _ rfl]
    · rw [Safety.countedBy, hst (by decide) rfl (by decide), hg (by decide), h1]
    · rw [hst (by decide) rfl (by decide), hg (by decide), h2]
    · rw [hst (by decide) rfl (by decide), hg (by decide), h3]
    · refine raised_of_count (silent_calStop h132 ?_) (raised_of_count ?_ h4)
      · unfold evCarrier
        omega
      · exact (get_set_reg _ _ (by decide)).trans (hg (by decide))
    · exact (calStop_apart.blobs _ _ rfl).trans (ha.blobs _ _ rfl)
    · rw [calStop_apart.regs _ _ rfl, get_set_same]
  · rw [if_neg (by omega)]
    exact ⟨ha.regs _ _ rfl, (hg (by decide)).trans h1, (hg (by decide)).trans h2, (hg (by decide)).trans h3,
      raised_of_count (hg (by decide)) h4, ha.blobs _ _ rfl, fun h => absurd h h2', fun _ => ha.regs _ _ rfl⟩

/-! ## A foreground calibration (R91) -/

/-- The results of the units of converter n that break a limit refused. -/
def unitsJudged (n : Nat) (m : CalConverter) (s : State) : State :=
  s.each (List.range (slotsOf n + 1)) fun y k => match brokenLimit (s.referenceAim (convCarrier n)) (calUnitOf m k) none with
    | some l => y.calRefuse n k l
    | none => y

/-- The gain table of an ADC. -/
def vgaTaken (n : Nat) (m : CalConverter) (s : State) : State :=
  if n < 48 then
    (s.each (List.range 37) fun s k => if vgaOk m k then s else s.calRefuse n 0xFF 9).setBlob .convCalVgaTable n
      ((List.range 37).flatMap fun k => leBytes 2 (if vgaOk m k then m.vga.getD k (50 * k) else 50 * k))
  else s

/-- A new set of records, with its map and its resting unit. -/
def setCommitted (n : Nat) (m : CalConverter) (bad : List Nat) (s : State) : State :=
  s.setBlob .convCalRecords n ((List.range (slotsOf n + 1)).flatMap fun k =>
      if bad.contains k then ((s.calRecords n).drop (4 * k)).take 4 else leBytes 4 (packRecord (calUnitOf m k) : Nat))
    |>.setBlob .convCalSlotMap n ((List.range (slotsOf n)).map fun k => BitVec.ofNat 8 (if k < bad.headD (slotsOf n) then k else k + 1))
    |>.set .convCalResting n (bad.headD (slotsOf n)) |>.set .convCalSuspect n (if bad.isEmpty then 0xFF else bad.headD (slotsOf n))
    |>.set .xCalSlot n 0 |>.set .xCalLapStarted n 0
    |>.each (List.range (slotsOf n + 1)) fun s k => (s.set .xCalFailRun (68 * n + k) 0).set .xCalLost (68 * n + k) 0

/-- What the units that fail make of the converter. -/
def converterSettled (n : Nat) (m : CalConverter) (bad : List Nat) (s : State) : State :=
  match bad with
  | k :: _ :: _ => (s.set .convCalSuspect n (k : Nat)).calStop n 4
  | _ => if bad.isEmpty then (setCommitted n m bad s).set .convCalState n 1 else (setCommitted n m bad s).calStop n 3

theorem calConverter_eq {m : CalConverter} : s.calConverter n m = if (unitsJudged n m s).calFrozen n then unitsJudged n m s
    else converterSettled n m (s.calBad n m) (vgaTaken n m (unitsJudged n m s)) := rfl

/-- What the calibration of a converter writes. -/
abbrev calRegs : List Reg := [.convCalRefusals, .convCalLastLimit, .convCalLastSlice, .convCalVgaTable, .convCalSuspect,
  .convCalState, .convCalRecords, .convCalSlotMap, .convCalResting, .xCalSlot, .xCalLapStarted, .xCalFailRun, .xCalLost]

/-- What converter i shows of its calibration. -/
def convView (i : Nat) (s : State) : Int × Int × Int × List Byte :=
  (s.get .convCalState i, s.get .convCalResting i, s.get .convCalSuspect i, s.blob .convCalRecords i)

theorem convRegs_quiet : ∀ r ∈ [Reg.convCalState, .convCalResting, .convCalSuspect, .convCalRecords], Safety.eventSide r = false := by
  decide

theorem convView_of_apart (h : Apart (fun r => Safety.eventSide r || L.contains r) s t)
    (hL : ∀ r ∈ [Reg.convCalState, .convCalResting, .convCalSuspect, .convCalRecords], r ∉ L := by decide) :
    convView i t = convView i s := by
  have hk : ∀ r ∈ [Reg.convCalState, .convCalResting, .convCalSuspect, .convCalRecords],
      (Safety.eventSide r || L.contains r) = false := fun r hr => by
    have h1 : L.contains r = false := by simpa using hL r hr
    rw [h1, Bool.or_false, convRegs_quiet r hr]
  unfold convView
  rw [h.regs _ _ (hk _ (by decide)), h.regs _ _ (hk _ (by decide)), h.regs _ _ (hk _ (by decide)), h.blobs _ _ (hk _ (by decide))]

theorem unitsJudged_apart {m : CalConverter} : Apart (fun r => Safety.eventSide r || refuseRegs.contains r) s (unitsJudged n m s) :=
  apart_each (Apart.refl s) fun y k hy => by
    split
    · exact hy.trans calRefuse_apart
    · exact hy

theorem vgaTaken_apart {m : CalConverter} :
    Apart (fun r => Safety.eventSide r || (.convCalVgaTable :: refuseRegs).contains r) s (vgaTaken n m s) :=
  apart_ite (apart_setBlob (apart_each (Apart.refl s) fun y k hy =>
    apart_ite hy (hy.trans (calRefuse_apart.widenEvents (M := .convCalVgaTable :: refuseRegs))))) (Apart.refl s)

theorem setCommitted_apart {m : CalConverter} {bad : List Nat} : Apart (fun r => Safety.eventSide r || calRegs.contains r) s
    (setCommitted n m bad s) :=
  apart_each (apart_set (apart_set (apart_set (apart_set (apart_setBlob (apart_setBlob (Apart.refl s)))))))
    fun _ _ ht => apart_set (apart_set ht)

theorem converterSettled_apart {m : CalConverter} {bad : List Nat} : Apart (fun r => Safety.eventSide r || calRegs.contains r) s
    (converterSettled n m bad s) := by
  unfold converterSettled
  split
  · exact Apart.trans (apart_set (Apart.refl s)) (calStop_apart.widenEvents (M := calRegs))
  · exact apart_ite (apart_set setCommitted_apart) (setCommitted_apart.trans calStop_apart.widenEvents)

theorem calConverter_apart {m : CalConverter} : Apart (fun r => Safety.eventSide r || calRegs.contains r) s (s.calConverter n m) := by
  have hj : Apart (fun r => Safety.eventSide r || calRegs.contains r) s (unitsJudged n m s) := unitsJudged_apart.widenEvents
  rw [calConverter_eq]
  exact apart_ite hj ((hj.trans vgaTaken_apart.widenEvents).trans converterSettled_apart)

theorem calStop_other (h : n ≠ i) : convView i (s.calStop n v) = convView i s := by
  have hr : ∀ (y : State), convView i (y.raise (evCarrier (convCarrier n) 25) []) = convView i y := fun y =>
    convView_of_apart (L := []) (apart_raise (wide_events []) (Apart.refl y))
  unfold State.calStop
  split
  · rfl
  · rw [hr]
    unfold convView
    rw [get_set_other _ _ (by simp [Ne.symm h]), get_set_reg _ _ (by decide), get_set_reg _ _ (by decide), set_blob]

theorem setCommitted_other {m : CalConverter} {bad : List Nat} (h : n ≠ i) : convView i (setCommitted n m bad s) = convView i s := by
  unfold setCommitted
  rw [each_view (view := convView i) fun y k _ => by
    unfold convView
    simp (disch := decide) only [get_set_reg, set_blob]]
  have hi : ∀ {r r' : Reg}, (r', i) ≠ (r, n) := fun he => h (Prod.mk.inj he).2.symm
  unfold convView
  simp only [get_set_other _ _ hi, set_blob, setBlob_get, blob_setBlob_other _ _ hi]

theorem calConverter_other {m : CalConverter} (h : n ≠ i) : convView i (s.calConverter n m) = convView i s := by
  have hj : convView i (unitsJudged n m s) = convView i s := convView_of_apart unitsJudged_apart
  have hset : ∀ (y : State) w, convView i (y.set .convCalSuspect n w) = convView i y := fun y w => by
    unfold convView
    rw [get_set_reg _ _ (by decide), get_set_reg _ _ (by decide), get_set_other _ _ (by simp [Ne.symm h]), set_blob]
  have hst : ∀ (y : State) w, convView i (y.set .convCalState n w) = convView i y := fun y w => by
    unfold convView
    rw [get_set_other _ _ (by simp [Ne.symm h]), get_set_reg _ _ (by decide), get_set_reg _ _ (by decide), set_blob]
  rw [calConverter_eq]
  split
  · exact hj
  · refine Eq.trans ?_ ((convView_of_apart (vgaTaken_apart (n := n) (m := m))).trans hj)
    unfold converterSettled
    split
    · rw [calStop_other h, hset]
    · split
      · rw [hst, setCommitted_other h]
      · rw [calStop_other h, setCommitted_other h]

/-! ### One converter -/

theorem calFrozen_congr (h1 : t.get .convCalState n = s.get .convCalState n) (h2 : t.get .calFgBusy 0 = s.get .calFgBusy 0) :
    t.calFrozen n = s.calFrozen n := by
  unfold State.calFrozen State.bit State.nat
  rw [h1, h2]

theorem unitsJudged_frozen {m : CalConverter} : (unitsJudged n m s).calFrozen n = s.calFrozen n :=
  calFrozen_congr (unitsJudged_apart.regs _ _ rfl) (unitsJudged_apart.regs _ _ rfl)

theorem calConverter_frozen {m : CalConverter} (h : s.calFrozen n = true) : convView n (s.calConverter n m) = convView n s := by
  rw [calConverter_eq, unitsJudged_frozen, if_pos h]
  exact convView_of_apart unitsJudged_apart

/-- A converter all of whose units hold the limits has a new set in force. -/
theorem calConverter_sound {m : CalConverter} (h : s.calFrozen n = false) (hb : s.calBad n m = []) :
    convView n (s.calConverter n m) = ((1 : Int), ((slotsOf n : Nat) : Int), (0xFF : Int),
      (List.range (slotsOf n + 1)).flatMap fun k => leBytes 4 (packRecord (calUnitOf m k) : Nat)) := by
  have hv : ∀ y : State, ∀ l, convView n ((y.each l fun s k => (s.set .xCalFailRun (68 * n + k) 0).set .xCalLost (68 * n + k) 0).set
      .convCalState n 1) = convView n (y.set .convCalState n 1) := fun y l => by
    have hw : ∀ r i, r ≠ .xCalFailRun → r ≠ .xCalLost →
        (y.each l fun s k => (s.set .xCalFailRun (68 * n + k) 0).set .xCalLost (68 * n + k) 0).get r i = y.get r i := fun r i g1 g2 =>
      each_view (view := fun x => x.get r i) fun x k _ => (get_set_reg _ _ g2).trans (get_set_reg _ _ g1)
    have hx : (y.each l fun s k => (s.set .xCalFailRun (68 * n + k) 0).set .xCalLost (68 * n + k) 0).blob .convCalRecords n
        = y.blob .convCalRecords n := each_view (view := fun x => x.blob .convCalRecords n) fun x k _ => rfl
    unfold convView
    rw [get_set_same, get_set_same, get_set_reg _ _ (by decide), get_set_reg _ _ (by decide), get_set_reg _ _ (by decide),
      get_set_reg _ _ (by decide), set_blob, set_blob, hw _ _ (by decide) (by decide), hw _ _ (by decide) (by decide), hx]
  rw [calConverter_eq, unitsJudged_frozen, h, if_neg (by decide), hb]
  refine (hv _ _).trans ?_
  unfold convView
  simp only [set_blob]
  rw [blob_setBlob_other _ _ (by simp), blob_setBlob_same]
  simp (disch := decide) only [get_set_reg, get_set_same, List.headD_nil, List.isEmpty_nil, if_true,
    List.contains_nil, Bool.false_eq_true, if_false]

/-- A converter with two units beyond a limit stops, with its records as they were. -/
theorem calConverter_broken {m : CalConverter} {l : List Nat} (h : s.calFrozen n = false) (hb : s.calBad n m = j :: k :: l) :
    (s.calConverter n m).get .convCalState n = 4 ∧ (s.calConverter n m).get .convCalSuspect n = (j : Int)
    ∧ (s.calConverter n m).blob .convCalRecords n = s.blob .convCalRecords n := by
  have ha := (unitsJudged_apart (s := s) (n := n) (m := m)).widenEvents (M := .convCalVgaTable :: refuseRegs) |>.trans
    (vgaTaken_apart (n := n) (m := m))
  have he : s.calConverter n m = ((vgaTaken n m (unitsJudged n m s)).set .convCalSuspect n (j : Nat)).calStop n 4 := by
    rw [calConverter_eq, unitsJudged_frozen, h, if_neg (by decide), hb]
    rfl
  rw [he]
  exact ⟨calStop_state, (calStop_apart.regs _ _ rfl).trans (get_set_same _ _ _ _), (calStop_apart.blobs _ _ rfl).trans (ha.blobs _ _ rfl)⟩

/-- Unit k of a measurement breaks a limit. -/
def unitBroken (n : Nat) (m : CalConverter) (s : State) (k : Nat) : Bool :=
  (brokenLimit (s.referenceAim (convCarrier n)) (calUnitOf m k) none).isSome

theorem calBad_eq {m : CalConverter} : s.calBad n m = (List.range (slotsOf n + 1)).filter (unitBroken n m s) := rfl

theorem calBad_congr {m : CalConverter} (h : ∀ i, t.get .xRefTrim i = s.get .xRefTrim i) : t.calBad n m = s.calBad n m := by
  unfold State.calBad
  rw [referenceAim_congr (h _)]

theorem calBad_nil {m : CalConverter} (h : ∀ k < slotsOf n + 1, unitBroken n m s k = false) : s.calBad n m = [] :=
  List.filter_eq_nil_iff.2 fun k hk => Bool.eq_false_iff.1 (h k (List.mem_range.1 hk))

theorem calBad_two {m : CalConverter} (hjk : j < k) (hk : k < slotsOf n + 1) (h1 : unitBroken n m s j = true)
    (h2 : unitBroken n m s k = true) : ∃ a b l, s.calBad n m = a :: b :: l ∧ ((∀ i < j, unitBroken n m s i = false) → a = j) := by
  have hj : j ∈ s.calBad n m := List.mem_filter.2 ⟨List.mem_range.2 (by omega), h1⟩
  have hk' : k ∈ s.calBad n m := List.mem_filter.2 ⟨List.mem_range.2 hk, h2⟩
  have hs : (s.calBad n m).Pairwise (· < ·) := List.pairwise_lt_range.filter _
  have hb : ∀ i ∈ s.calBad n m, unitBroken n m s i = true := fun i hi => (List.mem_filter.1 hi).2
  generalize s.calBad n m = bad at *
  match bad with
  | [] => cases hj
  | [a] =>
    have h1 := List.mem_singleton.1 hj
    have h2 := List.mem_singleton.1 hk'
    omega
  | a :: b :: l =>
    refine ⟨a, b, l, rfl, fun hmin => ?_⟩
    have ha : ¬ a < j := fun h => by
      have h3 := hmin a h
      rw [hb a List.mem_cons_self] at h3
      cases h3
    rcases List.mem_cons.1 hj with h3 | h3
    · exact h3.symm
    · exact absurd ((List.pairwise_cons.1 hs).1 j h3) ha

/-! ### The converters of a carrier -/

/-- A loop over converters reaches each of them as it was. -/
theorem converter_reached {l : List Nat} {q : Nat → Nat} {w : Nat → CalConverter} (hl : l.Nodup) (hb : b ∈ l)
    (hq : ∀ a ∈ l, a ≠ b → q a ≠ q b) :
    ∃ x, Apart (fun r => Safety.eventSide r || calRegs.contains r) s x ∧ convView (q b) x = convView (q b) s
      ∧ convView (q b) (s.each l fun s a => s.calConverter (q a) (w a)) = convView (q b) (x.calConverter (q b) (w b)) :=
  each_view_at (view := convView (q b)) (f := fun s a => s.calConverter (q a) (w a)) hl hb
    (fun _ a ha hne => calConverter_other (hq a ha hne)) (Apart.refl s) (fun _ _ _ hy => hy.trans calConverter_apart)

theorem converters_apart {l : List Nat} {q : Nat → Nat} {w : Nat → CalConverter} :
    Apart (fun r => Safety.eventSide r || calRegs.contains r) s (s.each l fun s a => s.calConverter (q a) (w a)) :=
  apart_each (Apart.refl s) fun _ _ hy => hy.trans calConverter_apart

theorem converters_other {l : List Nat} {q : Nat → Nat} {w : Nat → CalConverter} (h : ∀ a ∈ l, q a ≠ i) :
    convView i (s.each l fun s a => s.calConverter (q a) (w a)) = convView i s :=
  each_view (view := convView i) fun _ a ha => calConverter_other (h a ha)

/-- The converters of carrier c calibrated. -/
def adcsCalibrated (c : Nat) (v : Vector CalConverter 4) (s : State) : State :=
  s.each (channels c) fun s a => s.calConverter a (chan v a ⟨[], [], []⟩)

def dacsCalibrated (c : Nat) (v : Vector CalConverter 4) (s : State) : State :=
  s.each (channels c) fun s d => s.calConverter (48 + d) (chan v d ⟨[], [], []⟩)

/-- The calibration ends with its open test (R71). -/
def calEnded (c : Nat) (s : State) : State := (s.repairsGoOn |>.set .xFgCal c 0 |>.setBit .calFgBusy 0 c false
  |>.set .calFgDuration 0 ((s.get .xTicks 0 - s.get .xFgCalTick c) / 250) |>.set .carrierOpenTestBusy c 1).refreshConv c

theorem calComplete_eq {adcs dacs : Vector CalConverter 4} (h : s.flag .xFgCal c = true) :
    s.calComplete c adcs dacs = calEnded c (dacsCalibrated c dacs (adcsCalibrated c adcs s)) := if_pos h

theorem repairsGoOn_apart : Apart [Reg.xRepairRun].contains s s.repairsGoOn :=
  apart_ite (each_holds (P := Apart [Reg.xRepairRun].contains s) (Apart.refl s) fun y _ hy => apart_ite (apart_set hy) hy) (Apart.refl s)

theorem calEnded_apart : Apart [Reg.xRepairRun, .xFgCal, .calFgBusy, .calFgDuration, .carrierOpenTestBusy, .adcState, .dacState].contains s
    (calEnded c s) :=
  apart_refreshConv (apart_set (apart_set (apart_set (apart_set repairsGoOn_apart.widen)))) rfl rfl

theorem calEnded_reports : (calEnded c s).get .xFgCal c = 0 ∧ (calEnded c s).get .carrierOpenTestBusy c = 1
    ∧ (calEnded c s).get .calFgDuration 0 = (s.get .xTicks 0 - s.get .xFgCalTick c) / 250 := by
  unfold calEnded
  refine ⟨?_, ?_, ?_⟩
  · rw [refreshConv_get (by decide) (by decide), get_set_reg _ _ (by decide), get_set_reg _ _ (by decide), setBit_get (by decide), get_set_same]
  · rw [refreshConv_get (by decide) (by decide), get_set_same]
  · rw [refreshConv_get (by decide) (by decide), get_set_reg _ _ (by decide), get_set_same]

/-- Converter i of a carrier is reached as it was, and what it makes of its measurement stands at the end. -/
def Reached (c i : Nat) (m : CalConverter) (s t : State) : Prop :=
  ∃ x, Apart (fun r => Safety.eventSide r || calRegs.contains r) s x ∧ convView i x = convView i s
    ∧ convView i t = convView i (x.calConverter i m) ∧ convCarrier i = c

theorem adc_reached {adcs dacs : Vector CalConverter 4} (hc : c < 12) (q : Fin 4) :
    Reached c (4 * c + q.val) adcs[q] s (calEnded c (dacsCalibrated c dacs (adcsCalibrated c adcs s))) := by
  obtain ⟨x, h1, h2, h3⟩ := converter_reached (s := s) (q := fun a => a) (w := fun a => chan adcs a ⟨[], [], []⟩) nodup_channels
    (channel_mem (c := c) q) (fun a _ h => h)
  refine ⟨x, h1, h2, ?_, by unfold convCarrier; omega⟩
  rw [convView_of_apart calEnded_apart.withEvents]
  refine (converters_other (q := fun d => 48 + d) fun a ha => ?_).trans ?_
  · rw [mem_channels] at ha
    omega
  · refine h3.trans ?_
    rw [chan_channel]

theorem dac_reached {adcs dacs : Vector CalConverter 4} (hc : c < 12) (q : Fin 4) :
    Reached c (48 + 4 * c + q.val) dacs[q] s (calEnded c (dacsCalibrated c dacs (adcsCalibrated c adcs s))) := by
  have ha : Apart (fun r => Safety.eventSide r || calRegs.contains r) s (adcsCalibrated c adcs s) := converters_apart (q := fun a => a)
  have hv : convView (48 + (4 * c + q.val)) (adcsCalibrated c adcs s) = convView (48 + (4 * c + q.val)) s :=
    converters_other (q := fun a => a) fun a ha => by
      rw [mem_channels] at ha
      omega
  obtain ⟨x, h1, h2, h3⟩ := converter_reached (s := adcsCalibrated c adcs s) (q := fun a => 48 + a)
    (w := fun a => chan dacs a ⟨[], [], []⟩) nodup_channels (channel_mem (c := c) q) (fun a _ h => by omega)
  rw [Nat.add_assoc]
  refine ⟨x, ha.trans h1, h2.trans hv, ?_, by unfold convCarrier; omega⟩
  rw [convView_of_apart calEnded_apart.withEvents]
  refine h3.trans ?_
  rw [chan_channel]

section
variable {m : CalConverter} (h : Reached c i m s t)
include h

theorem Reached.frozen (hf : s.calFrozen i = true) : convView i t = convView i s := by
  obtain ⟨x, h1, h2, h3, -⟩ := h
  have hx : x.calFrozen i = true := (calFrozen_congr (congrArg Prod.fst h2) (h1.regs _ _ rfl)).trans hf
  rw [h3, calConverter_frozen hx, h2]

theorem Reached.sound (hf : s.calFrozen i = false) (hb : ∀ k < slotsOf i + 1, unitBroken i m s k = false) :
    convView i t = ((1 : Int), ((slotsOf i : Nat) : Int), (0xFF : Int),
      (List.range (slotsOf i + 1)).flatMap fun k => leBytes 4 (packRecord (calUnitOf m k) : Nat)) := by
  obtain ⟨x, h1, h2, h3, -⟩ := h
  have hx : x.calFrozen i = false := (calFrozen_congr (congrArg Prod.fst h2) (h1.regs _ _ rfl)).trans hf
  rw [h3, calConverter_sound hx ((calBad_congr fun _ => h1.regs _ _ rfl).trans (calBad_nil hb))]

theorem Reached.broken {l : List Nat} (hf : s.calFrozen i = false) (hb : s.calBad i m = j :: k :: l) :
    t.get .convCalState i = 4 ∧ t.get .convCalSuspect i = (j : Int) ∧ t.blob .convCalRecords i = s.blob .convCalRecords i := by
  obtain ⟨x, h1, h2, h3, -⟩ := h
  have hx : x.calFrozen i = false := (calFrozen_congr (congrArg Prod.fst h2) (h1.regs _ _ rfl)).trans hf
  obtain ⟨g1, g2, g3⟩ := calConverter_broken hx ((calBad_congr fun _ => h1.regs _ _ rfl).trans hb)
  unfold convView at h2 h3
  simp only [Prod.mk.injEq] at h2 h3
  obtain ⟨e1, -, e3, e4⟩ := h3
  exact ⟨e1.trans g1, e3.trans g2, e4.trans (g3.trans h2.2.2.2)⟩

end

theorem calFrozen_free (h : s.get .convCalState i ≠ 3 ∨ s.bit .calFgBusy 0 (convCarrier i) = true) : s.calFrozen i = false := by
  unfold State.calFrozen
  rcases h with h | h <;> simp [h]

theorem calFrozen_stopped (h : ¬ (s.get .convCalState i ≠ 3 ∨ s.bit .calFgBusy 0 (convCarrier i) = true)) :
    s.calFrozen i = true ∧ s.get .convCalState i = 3 := by
  have h3 : s.get .convCalState i = 3 := by
    by_contra hc
    exact h (.inl hc)
  have hb : s.bit .calFgBusy 0 (convCarrier i) = false := Bool.eq_false_iff.2 fun hc => h (.inr hc)
  exact ⟨by unfold State.calFrozen; rw [h3, hb]; rfl, h3⟩

end Sys2Proof.Laws

namespace Sys2Proof

open Sys2Proof.Machine Sys2Proof.Laws

/-- Settles O24: converters are calibrated one by one, and none touches another's figures. -/
theorem calibrationCommitsRotatesAndRefuses : Obligations.CalibrationCommitsRotatesAndRefuses := by
  refine ⟨⟨fun s cl m ha hb => ?_, fun s cl m ha hb => ?_, fun s c adcs dacs hp hf => ?_⟩, fun s n hp h1 h2 h3 h4 h5 => ?_,
    fun s n h => live_still (f := fun s => s.bgStep n) (if_pos ?_), fun s n m hp hb hn => ?_, fun s n m k hp hb hn => ?_⟩
  · have hc : ∀ c ∈ carriers.filter (fun c => bitOf m.val c), c < 12 ∧ bitOf m.val c = true := fun c hc =>
      ⟨mem_carriers.1 (List.mem_filter.1 hc).1, (List.mem_filter.1 hc).2⟩
    have hn : ((carriers.filter fun c => bitOf m.val c).any fun c => (ready s cl).flag .xFgCal c) = false :=
      Bool.eq_false_iff.2 fun h => by
        obtain ⟨c, hm, hf⟩ := List.any_eq_true.1 h
        rw [ready_flag (by decide), hb c (hc c hm).1 (hc c hm).2] at hf
        cases hf
    have eff : writeRecal m.val (ready s cl) = ((ready s cl).each (carriers.filter fun c => bitOf m.val c) recalStarted, .ack []) := by
      rw [writeRecal_eq, Int.toNat_natCast, hn]
      rfl
    have ho : s.out <+: ((ready s cl).each (carriers.filter fun c => bitOf m.val c) recalStarted).out := by
      have := fact_false
      have hk := (kept_writeRecal (κ := noScope) (v := m.val) (Kept.refl (ready s cl))).out
      rw [eff, ready_out] at hk
      exact hk
    obtain ⟨a, hx, hk⟩ := write_acked (c := .recalRequest cl m) ha rfl eff ho
    have hall : ∀ c < 12, bitOf m.val c = true → _ := fun c h12 hcb => recalStarted_all (s := ready s cl)
      (l := carriers.filter fun c => bitOf m.val c) (nodup_carriers.filter _) (fun a h => (hc a h).1)
      (List.mem_filter.2 ⟨mem_carriers.2 h12, hcb⟩)
    refine ⟨_, hx, hk, fun c h12 hcb => ?_, apart_iff.2 (apart_reply (Apart.trans (apart_ready rfl) (apart_each (Apart.refl _)
      fun y c hy => hy.trans (recalStarted_apart.mono fun r hr => (Bool.or_eq_false_iff.1 hr).2))) rfl rfl), fun c h12 hcb n h4 => ?_⟩
    · obtain ⟨g1, g2, -⟩ := hall c h12 hcb
      rw [reply_get (by decide) (by decide), reply_get (by decide) (by decide), g1, g2, ready_get (by decide)]
      exact ⟨rfl, rfl⟩
    · obtain ⟨-, -, g3⟩ := hall c h12 hcb
      rw [reply_get (by decide) (by decide), reply_get (by decide) (by decide), g3 _ (mem_converters.2 (by omega)),
        g3 _ (mem_converters.2 (by omega))]
      exact ⟨rfl, rfl⟩
  · obtain ⟨c, h12, hcb, hcf⟩ := hb
    have eff : writeRecal m.val (ready s cl) = (ready s cl, .abort 0x0A 0 0) := by
      rw [writeRecal_eq, Int.toNat_natCast]
      exact if_pos (List.any_eq_true.2 ⟨c, List.mem_filter.2 ⟨mem_carriers.2 h12, hcb⟩, by rw [ready_flag (by decide), hcf]⟩)
    obtain ⟨a, hx, hk⟩ := write_aborted (c := .recalRequest cl m) ha rfl eff (out_of_ready rfl)
    exact ⟨_, hx, hk, requestChanges_reply_ready⟩
  · intro bad free
    have hx := (live_running (f := fun s => s.calComplete c adcs dacs) hp).trans (congrArg Host.Outcome.next (calComplete_eq hf))
    obtain ⟨g1, g2, g3⟩ := calEnded_reports (s := dacsCalibrated c dacs (adcsCalibrated c adcs s)) (c := c)
    have hd : ∀ {r i}, Safety.eventSide r = false → r ∉ calRegs →
        (dacsCalibrated c dacs (adcsCalibrated c adcs s)).get r i = s.get r i := fun {r i} e1 e2 => by
      have hK : (Safety.eventSide r || calRegs.contains r) = false := by rw [e1, Bool.false_or]; simpa using e2
      exact ((converters_apart (q := fun d => 48 + d)).regs r i hK).trans ((converters_apart (q := fun a => a)).regs r i hK)
    have hA : ∀ q : Fin 4, Reached c (4 * c.val + q.val) adcs[q] s _ := fun q => adc_reached (adcs := adcs) (dacs := dacs) c.isLt q
    have hD : ∀ q : Fin 4, Reached c (48 + 4 * c.val + q.val) dacs[q] s _ := fun q => dac_reached (adcs := adcs) (dacs := dacs) c.isLt q
    rw [hd rfl (by decide), hd rfl (by decide)] at g3
    generalize calEnded c (dacsCalibrated c dacs (adcsCalibrated c adcs s)) = y at *
    have cA : ∀ q : Fin 4, convCarrier (4 * c.val + q.val) = c ∧ slotsOf (4 * c.val + q.val) = 64 := fun q => by
      unfold convCarrier slotsOf
      constructor
      · omega
      · exact if_pos (by omega)
    have cD : ∀ q : Fin 4, convCarrier (48 + 4 * c.val + q.val) = c ∧ slotsOf (48 + 4 * c.val + q.val) = 16 := fun q => by
      unfold convCarrier slotsOf
      constructor
      · omega
      · exact if_neg (by omega)
    have bA : ∀ (q : Fin 4) k, unitBroken (4 * c.val + q.val) adcs[q] s k = bad adcs[q] k := fun q k => by rw [unitBroken, (cA q).1]
    have bD : ∀ (q : Fin 4) k, unitBroken (48 + 4 * c.val + q.val) dacs[q] s k = bad dacs[q] k := fun q k => by rw [unitBroken, (cD q).1]
    refine ⟨_, hx, g1, g2, g3, fun q hq hb => ?_, fun q hq hb => ?_, fun q j k hq hjk hk h1 h2 => ?_, fun q hq => ?_⟩
    · have hv := (hA q).sound (calFrozen_free (by rw [(cA q).1]; exact hq)) (fun k hk => (bA q k).trans (hb k (by rw [(cA q).2] at hk; exact hk)))
      unfold convView at hv
      rw [(cA q).2] at hv
      simp only [Prod.mk.injEq] at hv
      exact hv
    · have hv := (hD q).sound (calFrozen_free (by rw [(cD q).1]; exact hq)) (fun k hk => (bD q k).trans (hb k (by rw [(cD q).2] at hk; exact hk)))
      unfold convView at hv
      rw [(cD q).2] at hv
      simp only [Prod.mk.injEq] at hv
      exact ⟨hv.1, hv.2.1, hv.2.2.1⟩
    · obtain ⟨a, b, l, hbad, hmin⟩ := calBad_two (s := s) (n := 4 * c.val + q.val) (m := adcs[q]) hjk (by rw [(cA q).2]; exact hk)
        ((bA q j).trans h1) ((bA q k).trans h2)
      obtain ⟨e1, e2, e3⟩ := (hA q).broken (calFrozen_free (by rw [(cA q).1]; exact hq)) hbad
      exact ⟨e1, fun h => by rw [e2, hmin fun i hi => (bA q i).trans (h i hi)], e3⟩
    · obtain ⟨h1, h2⟩ := calFrozen_stopped (s := s) (i := 4 * c.val + q.val) (by rw [(cA q).1]; exact hq)
      have hv := (hA q).frozen h1
      unfold convView at hv
      simp only [Prod.mk.injEq] at hv
      exact ⟨hv.1.trans h2, hv.2.2.1, hv.2.2.2⟩
  · have hx := (live_running (f := fun s => s.bgStep n) hp).trans (congrArg Host.Outcome.next (bgStep_starts h1 h2 h3 h4 h5))
    obtain ⟨g1, g2, g3, g4, g5⟩ := unitTaken_reports (s := s) (n := n)
    have hk := bgStepped_marks (s := s) (n := n)
    refine ⟨bgStepped n s, hx, ?_, ?_, ?_, ?_, ?_, apart_iff.2 (unitTaken_apart.widen.trans hk.widen), fun hl => ?_⟩
    · rw [hk.regs _ _ rfl, g1]
    · rw [hk.regs _ _ rfl, g2]
    · rw [hk.regs _ _ rfl, g3]
    · rw [hk.blobs _ _ rfl, g4]
    · rw [hk.regs _ _ rfl, g5]
    · obtain ⟨g6, g7⟩ := unitTaken_sound hl
      exact ⟨by rw [hk.blobs _ _ rfl, g6], fun i => by rw [hk.regs _ _ rfl, g7]⟩
  · rcases h with h | h <;> simp [h]
  · have hx := (live_running (f := fun s => s.bgResult n m) hp).trans (congrArg Host.Outcome.next (bgResult_eq hb))
    have ha := stepEnded_apart (s := s) (n := n.val)
    have hr : (stepEnded n.val s).blob .convCalRecords n.val = s.blob .convCalRecords n.val := ha.blobs _ _ rfl
    have hj := bgJudge_accepts (s := stepEnded n.val s) (n := n) (p := s.nat .convCalResting n) (m := measuredUnit n m s) (by
      rw [referenceAim_congr (ha.regs _ _ rfl), recordAt_congr hr]
      exact hn)
    have hz : (stepEnded n.val s).get .xCalBusy n.val = 0 := (get_bump_other (.inl (by decide))).trans (get_set_same _ _ _ _)
    have hs : Safety.countedBy s (stepEnded n.val s) .convCalSteps n 1 := by
      rw [Safety.countedBy, stepEnded, get_bump_same, State.nat, get_set_reg _ _ (by decide), ← State.nat]
    rw [hj] at hx
    generalize stepEnded n.val s = y at *
    refine ⟨_, hx, ?_, ?_, ?_, ?_⟩
    · rw [refreshBgAt_apart.regs _ _ rfl, get_set_reg _ _ (by decide), get_set_reg _ _ (by decide)]
      exact hz
    · rw [Safety.countedBy, refreshBgAt_apart.regs _ _ rfl, get_set_reg _ _ (by decide), get_set_reg _ _ (by decide)]
      exact hs
    · rw [refreshBgAt_apart.blobs _ _ rfl, ← calRecords_congr hr]
      exact blob_setBlob_same _ _ _ _
    · exact apart_iff.2 (Apart.trans (apart_set (apart_set (apart_setBlob (ha.widen)))) refreshBgAt_apart.widen)
  · have hx := (live_running (f := fun s => s.bgResult n m) hp).trans (congrArg Host.Outcome.next (bgResult_eq hb))
    have ha := stepEnded_apart (s := s) (n := n.val)
    have hr : (stepEnded n.val s).blob .convCalRecords n.val = s.blob .convCalRecords n.val := ha.blobs _ _ rfl
    have hg : ∀ {r i}, r ≠ .xCalBusy → r ≠ .convCalSteps → (stepEnded n.val s).get r i = s.get r i := stepEnded_get
    have hz : (stepEnded n.val s).get .xCalBusy n.val = 0 := (get_bump_other (.inl (by decide))).trans (get_set_same _ _ _ _)
    obtain ⟨g1, g2, g3, g4, g5, g6, g7, g8⟩ := bgJudge_refused (s := stepEnded n.val s) (n := n) (p := s.nat .convCalResting n)
      (m := measuredUnit n m s) (k := k) (by
        rw [referenceAim_congr (hg (by decide) (by decide)), recordAt_congr hr]
        exact hn)
    generalize (stepEnded n.val s).bgJudge n (s.nat .convCalResting n) (measuredUnit n m s) = y at *
    refine ⟨_, hx, ?_, ?_, ?_, ?_, ?_, ?_, fun hq => ?_, fun hq => ?_⟩
    · rw [refreshBgAt_apart.regs _ _ rfl, g1, hz]
    · rw [Safety.countedBy, refreshBgAt_apart.regs _ _ rfl, g2, State.nat, State.nat, hg (by decide) (by decide)]
    · rw [refreshBgAt_apart.regs _ _ rfl, g3]
    · rw [refreshBgAt_apart.regs _ _ rfl, g4]
    · exact raised_of_count (refreshBgAt_apart.regs _ _ rfl) (raised_of_silent (hg (by decide) (by decide)) g5)
    · rw [refreshBgAt_apart.blobs _ _ rfl, g6, hr]
    · rw [hg (by decide) (by decide)] at g7
      obtain ⟨q1, q2⟩ := g7 hq
      rw [refreshBgAt_still (by rw [q2]; decide) (by rw [q2]; decide)]
      exact ⟨q1, q2⟩
    · rw [hg (by decide) (by decide)] at g8
      rw [refreshBgAt_apart.regs _ _ rfl, g8 hq, hg (by decide) (by decide)]

end Sys2Proof

/-! # Frame starts of a receiving carrier (R131 to R152, R161 to R165, R229) -/

namespace Sys2Proof.Laws

set_option Elab.async false

open Sys2Proof.Machine

variable {s₀ s t u : State} {cl : Client} {r : Reg} {i j n m b c e f g p k d : Nat} {v : Int} {L : List Reg}
  {K : Reg → Bool} {w : FrameReading}

/-! ## The parts that each step of a frame start may touch -/

/-- What judging a side leaves. -/
abbrev sideScope : Scope := fun p => match p with
  | .events | .neighbours | .housekeeping | .captures => false
  | _ => true

/-- What timing and front end leave. -/
abbrev frontScope : Scope := fun p => match p with
  | .events | .frontEnd | .equaliser | .housekeeping | .captures => false
  | _ => true

/-- What the monitors leave. -/
abbrev monitorScope : Scope := fun p => match p with
  | .events | .banks | .dispersion | .monitors | .housekeeping | .captures => false
  | _ => true

/-- What the upkeep of the equaliser leaves. -/
abbrev polScope : Scope := fun p => match p with
  | .events | .equaliser | .housekeeping | .captures => false
  | _ => true

/-- What the recovery of the carrier leaves. -/
abbrev recoveryScope : Scope := fun p => match p with
  | .events | .equaliser | .rxLine | .recovery | .housekeeping | .captures => false
  | _ => true

/-- What the end of a frame start leaves. -/
abbrev endScope : Scope := fun p => match p with
  | .defects | .equaliser | .recovery | .catching => false
  | _ => true

/-! ## The steps of a frame start -/

/-- Both sides judged, and the taps shown (R144, R162). -/
def sidesJudged (c : Nat) (s : State) : State :=
  ((s.sideEval c 0).sideEval c 1).setBlob .carrierRxPolTaps c (((s.sideEval c 0).sideEval c 1).blob .xPolTaps c)

/-- Timing and front end. -/
def frontMeasured (c : Nat) (w : FrameReading) (s : State) : State := ((s.timingEval c w.timingError).refreshRx c).frontEnd c w.frontEnd

/-- Both outputs on one sequence, told where the word was not erased. -/
def sequenceSeen (c : Nat) (w : FrameReading) (s : State) : State := if s.wordErased c w then s else s.polReinit c w.sameSequence

/-- The carrier's frequency taken. -/
def frequencyTaken (c : Nat) (s : State) : State := (s.polCentre c).frequencyEval c (rdiv (s.rx c).freq 1000000)

/-- The end of a frame start. -/
def frameEnded (c : Nat) (metric : Int) (q : Bool) (s : State) : State := ((s.frameDefects c metric q).frameSettings c).refreshRx c

/-- What a carrier past Seeking does at a frame start before its confirmation. -/
def frameTaken (c : Nat) (second : Bool) (w : FrameReading) (s : State) : State :=
  frequencyTaken c (sequenceSeen c w ((frontMeasured c w s).monitors c second w))

theorem sidesJudged_kept : Kept sideScope s ((s.sideEval c 0).sideEval c 1) := by
  have := fact_false
  exact kept_sideEval (kept_sideEval (Kept.refl s))

theorem frontMeasured_kept : Kept frontScope s (frontMeasured c w s) := by
  have := fact_false
  exact kept_frontEnd (kept_refreshRx (kept_timingEval (Kept.refl s)))

theorem monitors_kept {q : Bool} : Kept monitorScope s (s.monitors c q w) := by
  have := fact_false
  exact kept_monitors (Kept.refl s)

theorem sequenceSeen_kept : Kept polScope s (sequenceSeen c w s) := by
  have := fact_false
  exact kept_ite (Kept.refl s) (kept_polReinit (Kept.refl s))

theorem frequencyTaken_kept : Kept recoveryScope s (frequencyTaken c s) := by
  have := fact_false
  exact kept_frequencyEval (kept_polCentre (Kept.refl s))

theorem frameEnded_kept {metric : Int} {q : Bool} : Kept endScope s (frameEnded c metric q s) := by
  have := fact_false
  exact kept_refreshRx (kept_frameSettings (kept_frameDefects (Kept.refl s)))

theorem wordErased_congr (h : t.rx c = s.rx c) : t.wordErased c w = s.wordErased c w := by
  unfold State.wordErased
  rw [h]

theorem rx_congr (h : t.rxLine = s.rxLine) : t.rx c = s.rx c := by
  unfold State.rx
  rw [h]

theorem sidesJudged_get (h : sideScope (Safety.part r) = true := by rfl) : (sidesJudged c s).get r i = s.get r i :=
  sidesJudged_kept.get h

theorem sidesJudged_rx : (sidesJudged c s).rx n = s.rx n := rx_congr (sidesJudged_kept.sameRxLine rfl)

theorem rxStopped_congr (h1 : t.get .xRelock c = s.get .xRelock c) (h2 : t.get .carrierConvSynthState c = s.get .carrierConvSynthState c) :
    t.rxStopped c = s.rxStopped c := by
  unfold State.rxStopped State.flag State.rxLoop State.nat
  rw [h1, h2]

/-- A frame start of a carrier past Seeking whose receive side runs. -/
theorem frameStart_runs (h : 2 ≤ s.get .carrierState c) (hr : s.rxStopped c = false) :
    s.frameStart c w = frameEnded c w.metric (s.wordErased c w)
      (if (frameTaken c (s.sideLive c 0 || s.sideLive c 1) w (sidesJudged c s)).get .carrierState c = 2 then
          (frameTaken c (s.sideLive c 0 || s.sideLive c 1) w (sidesJudged c s)).confirmEval c w
        else frameTaken c (s.sideLive c 0 || s.sideLive c 1) w (sidesJudged c s)) := by
  have hi : s.idle c = false := decide_eq_false (by omega)
  have hs : (sidesJudged c s).rxStopped c = false := (rxStopped_congr sidesJudged_get sidesJudged_get).trans hr
  have h1 : (sidesJudged c s).get .carrierState c ≠ 1 := by
    rw [sidesJudged_get]
    omega
  unfold State.frameStart
  rw [hi, if_neg (by decide)]
  show frameEnded c w.metric (s.wordErased c w) (if (sidesJudged c s).rxStopped c then sidesJudged c s
    else (sidesJudged c s).frameMeasure c _ w) = _
  rw [hs, if_neg (by decide)]
  unfold State.frameMeasure
  rw [if_neg h1]
  rfl

theorem frameTaken_state {q : Bool} : (frameTaken c q w s).get .carrierState n = s.get .carrierState n := by
  rw [frameTaken, frequencyTaken_kept.get, sequenceSeen_kept.get, monitors_kept.get, frontMeasured_kept.get]

/-- A frame start of a Locked or Carrying carrier whose receive side runs. -/
theorem frameStart_up (h : s.upLine c = true) (hr : s.rxStopped c = false) : s.frameStart c w
    = frameEnded c w.metric (s.wordErased c w) (frameTaken c (s.sideLive c 0 || s.sideLive c 1) w (sidesJudged c s)) := by
  have h3 : 3 ≤ s.get .carrierState c := of_decide_eq_true h
  rw [frameStart_runs (by omega) hr, if_neg]
  rw [frameTaken_state, sidesJudged_get]
  omega

/-! ## Sides (R162) -/

/-- The figures of a side shown. -/
def sideShown (c side : Nat) (s : State) : State :=
  s.set .xNcLate (12 * side + c) 0 |>.setBlob .carrierNcSideTaps (12 * side + c) (s.blob .xNcTaps (12 * side + c))
    |>.set .carrierNcSideLeakage (12 * side + c) (leakageOf (s.blob .xNcTaps (12 * side + c)))

/-- A side that is out of use. -/
def sideOut (c side : Nat) (code : Int) (s : State) : State :=
  (s.set .xNcGuard (12 * side + c) 0).set .carrierNcSideState (12 * side + c) code

/-- What a side shows. -/
abbrev sideFigures : List Reg := [.xNcLate, .carrierNcSideLeakage, .xNcGuard, .carrierNcSideState]

theorem sideEval_some {side : Nat} {code : Int} (h : s.sideCode c side = some code) :
    s.sideEval c side = sideOut c side code (sideShown c side s)
    ∨ ∃ d, s.sideEval c side = ((sideOut c side code (sideShown c side s)).bump .carrierNcSideLosses (12 * side + c)).raise (evCarrier c 36) d := by
  unfold State.sideEval
  rw [h]
  dsimp only
  split
  · exact .inr ⟨_, rfl⟩
  · exact .inl rfl

theorem sideEval_none {side : Nat} (h : s.sideCode c side = none) :
    ∃ x y, s.sideEval c side = ((sideShown c side s).set .xNcGuard (12 * side + c) x).set .carrierNcSideState (12 * side + c) y := by
  unfold State.sideEval
  rw [h]
  exact ⟨_, _, rfl⟩

/-- What judging a side makes of the figures, none, or one of its sources raised. -/
theorem sideEval_cases {side : Nat} : ∃ x y, s.sideEval c side
      = ((sideShown c side s).set .xNcGuard (12 * side + c) x).set .carrierNcSideState (12 * side + c) y
    ∨ ∃ d, s.sideEval c side = ((((sideShown c side s).set .xNcGuard (12 * side + c) x).set .carrierNcSideState (12 * side + c) y).bump
      .carrierNcSideLosses (12 * side + c)).raise (evCarrier c 36) d := by
  cases h : s.sideCode c side with
  | none =>
    obtain ⟨x, y, he⟩ := sideEval_none h
    exact ⟨x, y, .inl he⟩
  | some code =>
    rcases sideEval_some h with he | ⟨d, he⟩
    · exact ⟨_, _, .inl he⟩
    · exact ⟨_, _, .inr ⟨d, he⟩⟩

theorem sideFigures_quiet : ∀ r ∈ sideFigures, Safety.eventSide r = false ∧ r ≠ .carrierNcSideLosses := by decide

/-- Judging a side leaves the figures of the other. -/
theorem sideEval_beside {side : Nat} (h : j ≠ 12 * side + c) (hr : r ∈ sideFigures := by decide) :
    (s.sideEval c side).get r j = s.get r j := by
  have hne : ∀ r' : Reg, (r, j) ≠ (r', 12 * side + c) := fun r' he => h (Prod.mk.inj he).2
  have hx : ∀ x y, (((sideShown c side s).set .xNcGuard (12 * side + c) x).set .carrierNcSideState (12 * side + c) y).get r j = s.get r j :=
    fun x y => by
      unfold sideShown
      simp only [get_set_other _ _ (hne _), setBlob_get]
  obtain ⟨x, y, he | ⟨d, he⟩⟩ := sideEval_cases (s := s) (c := c) (side := side)
  · rw [he, hx]
  · rw [he, get_raise (sideFigures_quiet r hr).1, get_bump_other (.inl (sideFigures_quiet r hr).2), hx]

theorem sideEval_leakage {side : Nat} : (s.sideEval c side).get .carrierNcSideLeakage (12 * side + c)
    = leakageOf (s.blob .xNcTaps (12 * side + c)) := by
  obtain ⟨x, y, he | ⟨d, he⟩⟩ := sideEval_cases (s := s) (c := c) (side := side)
  · rw [he, get_set_reg _ _ (by decide), get_set_reg _ _ (by decide), sideShown, get_set_same]
  · rw [he, get_raise rfl, get_bump_other (.inl (by decide)), get_set_reg _ _ (by decide), get_set_reg _ _ (by decide), sideShown,
      get_set_same]

theorem sideEval_out {side : Nat} {code : Int} (h : s.sideCode c side = some code) :
    (s.sideEval c side).get .carrierNcSideState (12 * side + c) = code ∧ (s.sideEval c side).get .xNcGuard (12 * side + c) = 0 := by
  have h1 : (sideOut c side code (sideShown c side s)).get .carrierNcSideState (12 * side + c) = code := get_set_same _ _ _ _
  have h2 : (sideOut c side code (sideShown c side s)).get .xNcGuard (12 * side + c) = 0 :=
    (get_set_reg _ _ (by decide)).trans (get_set_same _ _ _ _)
  rcases sideEval_some h with he | ⟨d, he⟩
  · rw [he]
    exact ⟨h1, h2⟩
  · rw [he, get_raise rfl, get_raise rfl, get_bump_other (.inl (by decide)), get_bump_other (.inl (by decide))]
    exact ⟨h1, h2⟩

theorem sideEval_apart {side : Nat} : Apart (fun r => Safety.eventSide r || [Reg.xNcLate, .carrierNcSideTaps, .carrierNcSideLeakage,
    .xNcGuard, .carrierNcSideState, .carrierNcSideLosses].contains r) s (s.sideEval c side) := by
  have ha : ∀ x y, Apart (fun r => Safety.eventSide r || [Reg.xNcLate, .carrierNcSideTaps, .carrierNcSideLeakage,
      .xNcGuard, .carrierNcSideState, .carrierNcSideLosses].contains r) s
      (((sideShown c side s).set .xNcGuard (12 * side + c) x).set .carrierNcSideState (12 * side + c) y) := fun x y =>
    apart_set (apart_set (apart_set (apart_setBlob (apart_set (Apart.refl s)))))
  obtain ⟨x, y, he | ⟨d, he⟩⟩ := sideEval_cases (s := s) (c := c) (side := side)
  · rw [he]
    exact ha x y
  · rw [he]
    exact apart_raise (wide_events _) (apart_bump (ha x y))

/-- The first side judged changes nothing that the second's code is read from. -/
theorem sideCode_second : (s.sideEval c 0).sideCode c 1 = s.sideCode c 1 := by
  have hg : ∀ {r i}, Safety.eventSide r = false → r ∉ [Reg.xNcLate, .carrierNcSideTaps, .carrierNcSideLeakage,
      .xNcGuard, .carrierNcSideState, .carrierNcSideLosses] → (s.sideEval c 0).get r i = s.get r i := fun {r i} h1 h2 =>
    sideEval_apart.regs r i (by rw [h1, Bool.false_or]; simpa using h2)
  have hl : (s.sideEval c 0).get .xNcLate (12 * 1 + c) = s.get .xNcLate (12 * 1 + c) := sideEval_beside (by omega)
  unfold State.sideCode State.neighbour State.reciprocates State.upLine State.ncParked State.flag State.nat
  simp only [hl, hg (r := .carrierNcInForce) rfl (by decide), hg (r := .carrierNcUpperInForce) rfl (by decide),
    hg (r := .carrierNcLowerInForce) rfl (by decide), hg (r := .carrierState) rfl (by decide),
    hg (r := .carrierFecProfileInForce) rfl (by decide), hg (r := .xRxRate) rfl (by decide),
    hg (r := .carrierRxTimingOffset) rfl (by decide), hg (r := .carrierMonFiltered) rfl (by decide),
    hg (r := .carrierNcQualityFloor) rfl (by decide), hg (r := .carrierNcPark) rfl (by decide), hg (r := .throttleStage) rfl (by decide)]

/-- Both sides are judged by the state in which the frame started. -/
theorem sidesJudged_out {code : Int} (hd : d < 2) (h : s.sideCode c d = some code) :
    (sidesJudged c s).get .carrierNcSideState (12 * d + c) = code ∧ (sidesJudged c s).get .xNcGuard (12 * d + c) = 0 := by
  unfold sidesJudged
  rw [setBlob_get, setBlob_get]
  obtain rfl | rfl : d = 0 ∨ d = 1 := by omega
  · rw [sideEval_beside (r := .carrierNcSideState) (by omega), sideEval_beside (r := .xNcGuard) (by omega)]
    exact sideEval_out h
  · exact sideEval_out (sideCode_second.trans h)

theorem sidesJudged_leakage (hd : d < 2) : (sidesJudged c s).get .carrierNcSideLeakage (12 * d + c)
    = leakageOf (s.blob .xNcTaps (12 * d + c)) := by
  unfold sidesJudged
  rw [setBlob_get]
  obtain rfl | rfl : d = 0 ∨ d = 1 := by omega
  · rw [sideEval_beside (by omega), sideEval_leakage]
  · rw [sideEval_leakage, sideEval_apart.blobs _ _ rfl]

/-! ## Monitors (R148) -/

/-- A quantity taken into its filter. -/
def quantityTaken (q c : Nat) (x : Int) (s : State) : State :=
  s.set .carrierMonRaw (12 * q + c) x
    |>.set .xMonV (12 * q + c) (if s.flag .xMonSeen (12 * q + c) then s.get .xMonV (12 * q + c)
      + (256 * x - s.get .xMonV (12 * q + c)) / 2 ^ s.nat .carrierMonShift (12 * q + c) else 256 * x)
    |>.set .carrierMonFiltered (12 * q + c) (((if s.flag .xMonSeen (12 * q + c) then s.get .xMonV (12 * q + c)
      + (256 * x - s.get .xMonV (12 * q + c)) / 2 ^ s.nat .carrierMonShift (12 * q + c) else 256 * x) + 128) / 256)
    |>.set .xMonSeen (12 * q + c) 1

theorem monitorTake_eq {q : Nat} : s.monitorTake q c v = (quantityTaken q c v s).monitorLevel q c := rfl

/-- What a quantity that is taken writes. -/
abbrev quantityRegs : List Reg := [.carrierMonRaw, .xMonV, .carrierMonFiltered, .xMonSeen]

theorem quantityTaken_apart {q : Nat} : Apart quantityRegs.contains s (quantityTaken q c v s) :=
  apart_set (apart_set (apart_set (apart_set (Apart.refl s))))

theorem monitorLevel_apart {q : Nat} :
    Apart (fun r => Safety.eventSide r || [Reg.carrierMonState, .carrierMonCrossings].contains r) s (s.monitorLevel q c) := by
  unfold State.monitorLevel
  extract_lets i x hi lo crossed cleared a
  have ha : Apart (fun r => Safety.eventSide r || [Reg.carrierMonState, .carrierMonCrossings].contains r) s a :=
    apart_bump (apart_set (Apart.refl s))
  exact apart_ite (apart_ite (apart_ite (apart_raise (wide_events _) ha) ha) (Apart.refl s))
    (apart_ite (apart_set (Apart.refl s)) (Apart.refl s))

/-- What monitoring writes. -/
abbrev monitorRegs : List Reg := quantityRegs ++ [.carrierMonState, .carrierMonCrossings]

theorem monitorTake_apart {q : Nat} : Apart (fun r => Safety.eventSide r || monitorRegs.contains r) s (s.monitorTake q c v) := by
  rw [monitorTake_eq]
  exact (quantityTaken_apart.withEvents.widenEvents).trans monitorLevel_apart.widenEvents

/-- What quantity q of a carrier shows. -/
def monitorView (i : Nat) (s : State) : Int × Int × Int × Int :=
  (s.get .carrierMonRaw i, s.get .xMonV i, s.get .carrierMonFiltered i, s.get .xMonSeen i)

theorem monitorView_level {q : Nat} : monitorView i (s.monitorLevel q c) = monitorView i s := by
  unfold monitorView
  rw [monitorLevel_apart.regs _ _ rfl, monitorLevel_apart.regs _ _ rfl, monitorLevel_apart.regs _ _ rfl, monitorLevel_apart.regs _ _ rfl]

theorem monitorTake_other {q : Nat} (h : i ≠ 12 * q + c) : monitorView i (s.monitorTake q c v) = monitorView i s := by
  have hne : ∀ r r' : Reg, (r, i) ≠ (r', 12 * q + c) := fun r r' he => h (Prod.mk.inj he).2
  rw [monitorTake_eq, monitorView_level]
  unfold monitorView quantityTaken
  simp only [get_set_other _ _ (hne _ _)]

/-- The filtered value of a quantity after raw value x (R148). -/
def filteredBy (i : Nat) (x : Int) (s : State) : Int :=
  if s.flag .xMonSeen i = true then s.get .xMonV i + (256 * x - s.get .xMonV i) / 2 ^ (s.nat .carrierMonShift i) else 256 * x

theorem monitorTake_view {q : Nat} : monitorView (12 * q + c) (s.monitorTake q c v)
    = (v, filteredBy (12 * q + c) v s, (filteredBy (12 * q + c) v s + 128) / 256, 1) := by
  rw [monitorTake_eq, monitorView_level]
  unfold monitorView quantityTaken
  simp (disch := decide) only [get_set_reg, get_set_same]
  rfl

theorem filteredBy_congr {x : Int} (h1 : monitorView i t = monitorView i s) (h2 : t.get .carrierMonShift i = s.get .carrierMonShift i) :
    filteredBy i x t = filteredBy i x s := by
  unfold monitorView at h1
  simp only [Prod.mk.injEq] at h1
  obtain ⟨-, hv, -, hs⟩ := h1
  unfold filteredBy State.flag State.nat
  rw [hv, hs, h2]

theorem trackEval_apart : Apart [Reg.xTrackRun, .xTrackStep, .xBankComputing, .bankBusy].contains s (s.trackEval c) :=
  Apart.trans (apart_set (Apart.refl s)) (apart_ite (apart_set (apart_set (apart_set (Apart.refl _)))) (Apart.refl _))

theorem rawQuantity_congr {q : Nat} {second : Bool} (h1 : t.get .carrierRxTimingOffset c = s.get .carrierRxTimingOffset c)
    (h2 : t.get .carrierRxFePhaseX c = s.get .carrierRxFePhaseX c) (h3 : t.get .carrierRxFePhaseY c = s.get .carrierRxFePhaseY c) :
    t.rawQuantity c second w q = s.rawQuantity c second w q := by
  unfold State.rawQuantity
  rw [h1, h2, h3]

/-- The quantities of a frame taken: quantity 0 unless a fade runs. -/
def quantitiesTaken (c : Nat) (second q0 : Bool) (w : FrameReading) (s : State) : State :=
  s.each (List.range 7) fun s q => if q = 0 ∧ !q0 then s else s.monitorTake q c (s.rawQuantity c second w q)

theorem monitors_takes {second : Bool} (h1 : s.get .xTrackWindow c = 0) (h2 : 2 ≤ s.get .carrierState c) : s.monitors c second w
    = if !(s.set .xTrackWindow c 0).cdFading c then
        (quantitiesTaken c second (!(s.set .xTrackWindow c 0).cdFading c) w (s.set .xTrackWindow c 0)).trackEval c
      else quantitiesTaken c second (!(s.set .xTrackWindow c 0).cdFading c) w (s.set .xTrackWindow c 0) := by
  have hb : s.flag .xTrackWindow c = false := by
    rw [State.flag, h1]
    rfl
  have hs : ¬ (s.set .xTrackWindow c 0).get .carrierState c < 2 := by
    rw [get_set_reg _ _ (by decide)]
    omega
  unfold State.monitors
  dsimp only
  rw [hb, Bool.false_or, if_neg (by simpa using hs)]
  rfl

/-- Quantities but the first are taken in every frame none of whose symbols was erased. -/
theorem monitors_view {q : Nat} {second : Bool} (h1 : s.get .xTrackWindow c = 0) (h2 : 2 ≤ s.get .carrierState c) (hq : 1 ≤ q)
    (hq7 : q < 7) : monitorView (12 * q + c) (s.monitors c second w) = (s.rawQuantity c second w q,
      filteredBy (12 * q + c) (s.rawQuantity c second w q) s, (filteredBy (12 * q + c) (s.rawQuantity c second w q) s + 128) / 256, 1) := by
  have ht : ∀ y : State, monitorView (12 * q + c) (y.trackEval c) = monitorView (12 * q + c) y := fun y => by
    unfold monitorView
    rw [trackEval_apart.regs _ _ rfl, trackEval_apart.regs _ _ rfl, trackEval_apart.regs _ _ rfl, trackEval_apart.regs _ _ rfl]
  have hv : ∀ q0, monitorView (12 * q + c) (quantitiesTaken c second q0 w (s.set .xTrackWindow c 0)) = (s.rawQuantity c second w q,
      filteredBy (12 * q + c) (s.rawQuantity c second w q) s, (filteredBy (12 * q + c) (s.rawQuantity c second w q) s + 128) / 256, 1) :=
    fun q0 => by
      obtain ⟨x, hx, h3, h4⟩ := each_view_at (view := monitorView (12 * q + c)) (s := s.set .xTrackWindow c 0) (i := q)
        (f := fun s q => if q = 0 ∧ !q0 then s else s.monitorTake q c (s.rawQuantity c second w q))
        (I := Apart (fun r => Safety.eventSide r || monitorRegs.contains r) (s.set .xTrackWindow c 0)) List.nodup_range
        (List.mem_range.2 hq7) (fun y a _ hne => by
          split
          · rfl
          · exact monitorTake_other (by omega)) (Apart.refl _) (fun y a _ hy => apart_ite hy (hy.trans monitorTake_apart))
      have hg : ∀ {r i}, (Safety.eventSide r || monitorRegs.contains r) = false → r ≠ .xTrackWindow → x.get r i = s.get r i :=
        fun {r i} g1 g2 => (hx.regs r i g1).trans (get_set_reg _ _ g2)
      have hm : monitorView (12 * q + c) (s.set .xTrackWindow c 0) = monitorView (12 * q + c) s := by
        unfold monitorView
        simp (disch := decide) only [get_set_reg]
      refine h4.trans ?_
      rw [if_neg (by omega), monitorTake_view, rawQuantity_congr (hg rfl (by decide)) (hg rfl (by decide)) (hg rfl (by decide)),
        filteredBy_congr (h3.trans hm) (hg rfl (by decide))]
  rw [monitors_takes h1 h2]
  split
  · rw [ht, hv]
  · exact hv _

/-! ## Timing, frequency, sequences and defects -/

theorem refreshRx_apart : Apart [Reg.carrierRxPolState, .carrierRxHolding].contains s (s.refreshRx c) :=
  apart_ite (apart_set (apart_set (Apart.refl s))) (apart_set (apart_set (Apart.refl s)))

theorem frontEnd_apart {x : Vector Int 4} : Apart [Reg.xFe, .carrierRxFePhaseX, .carrierRxFePhaseY, .carrierRxFeGainX, .carrierRxFeGainY].contains
    s (s.frontEnd c x) :=
  apart_ite (Apart.refl s) (apart_set (apart_set (apart_set (apart_set (apart_each (Apart.refl s) fun _ _ ht => apart_set ht)))))

/-- A timing error within a quarter of a symbol does not unlock the timing loop (R132). -/
theorem timingEval_keeps {x : Int} (h : s.flag .xTimLost c = false) (hx : x.natAbs ≤ 250) : (s.timingEval c x).flag .xTimLost c = false := by
  unfold State.timingEval
  split
  · exact h
  · extract_lets a b
    have hb : a.get .xTimBad c = 0 := by
      rw [get_set_reg _ _ (by decide), get_set_same, if_neg (by omega)]
    split
    · rw [State.flag, get_set_same]
      rfl
    · rw [if_neg (by rw [hb]; omega), State.flag, get_set_reg _ _ (by decide), get_set_reg _ _ (by decide), ← State.flag, h]

theorem timingEval_apart {x : Int} : Apart (fun r => Safety.eventSide r || [Reg.xTimBad, .xTimGood, .carrierRxTimingState, .xTimLost,
    .carrierRxTimingUnlocks].contains r) s (s.timingEval c x) := by
  unfold State.timingEval
  extract_lets a b
  have ha : Apart (fun r => Safety.eventSide r || [Reg.xTimBad, .xTimGood, .carrierRxTimingState, .xTimLost,
      .carrierRxTimingUnlocks].contains r) s a := apart_set (apart_set (Apart.refl s))
  have hb : Apart (fun r => Safety.eventSide r || [Reg.xTimBad, .xTimGood, .carrierRxTimingState, .xTimLost,
      .carrierRxTimingUnlocks].contains r) s b := apart_set (apart_set ha)
  exact apart_ite (Apart.refl s) (apart_ite (apart_set (apart_set ha)) (apart_ite (apart_ite (apart_raise (wide_events _) (apart_bump hb)) hb) ha))

theorem silent_timingEval {x : Int} (h1 : e ≠ evDev 132) (h2 : e ≠ evCarrier c 35) : Silent e s (s.timingEval c x) := by
  unfold State.timingEval
  extract_lets a b
  have ha : Silent e s a := silent_set (silent_set Silent.refl)
  have hb : Silent e s b := silent_set (silent_set ha)
  exact silent_ite Silent.refl (silent_ite (silent_set (silent_set ha)) (silent_ite (silent_ite (silent_raise (silent_bump hb) h1 h2) hb) ha))

theorem frontMeasured_keeps (h : s.flag .xTimLost c = false) (hx : w.timingError.natAbs ≤ 250) :
    (frontMeasured c w s).flag .xTimLost c = false := by
  rw [State.flag, frontMeasured, frontEnd_apart.regs _ _ rfl, refreshRx_apart.regs _ _ rfl, ← State.flag, timingEval_keeps h hx]

theorem silent_frontMeasured (h1 : e ≠ evDev 132) (h2 : e ≠ evCarrier c 35) : Silent e s (frontMeasured c w s) := by
  have := fact_false
  exact (silent_timingEval h1 h2).kept (kept_frontEnd (kept_refreshRx (Kept.refl _)))

theorem silent_monitors {q : Bool} (h1 : e ≠ evDev 132) (h2 : ∀ k < 7, e ≠ evCarrier c (27 + k)) : Silent e s (s.monitors c q w) := by
  have := fact_false
  have hl : ∀ (y : State) k, k < 7 → Silent e s y → Silent e s (y.monitorLevel k c) := fun y k hk hy => by
    unfold State.monitorLevel
    extract_lets i x hi lo crossed cleared a
    have ha : Silent e s a := silent_bump (silent_set hy)
    exact silent_ite (silent_ite (silent_ite (silent_raise ha h1 (h2 k hk)) ha) hy) (silent_ite (silent_set hy) hy)
  unfold State.monitors
  extract_lets bad a q0 y
  have ha : Silent e s a := silent_set Silent.refl
  have hy : Silent e s y := silent_each ha fun x k hk hx => silent_ite hx (by
    rw [monitorTake_eq]
    exact hl _ _ (List.mem_range.1 hk) (silent_set (silent_set (silent_set (silent_set hx)))))
  exact silent_ite ha (silent_ite (hy.kept (kept_trackEval (Kept.refl y))) hy)

theorem polCentre_apart : Apart [Reg.xPolTaps].contains s (s.polCentre c) := by
  unfold State.polCentre
  extract_lets m x move
  have hm : ∀ q, Apart [Reg.xPolTaps].contains s (move q) := fun q => (apart_setBlob (Apart.refl s)).other rfl
  exact apart_ite (apart_ite (hm true) (apart_ite (hm false) (Apart.refl s))) (Apart.refl s)

theorem frequencyEval_apart {x : Int} :
    Apart (fun r => Safety.eventSide r || [Reg.carrierCrState, .carrierCrFreqOffset].contains r) s (s.frequencyEval c x) := by
  have ha : Apart (fun r => Safety.eventSide r || [Reg.carrierCrState, .carrierCrFreqOffset].contains r) s
      ((s.set .carrierCrFreqOffset c (max (-6000000) (min 6000000 x))).set .carrierCrState c 4) := apart_set (apart_set (Apart.refl s))
  exact apart_ite (apart_set (Apart.refl s)) (apart_ite (apart_set (Apart.refl s)) (apart_ite (apart_ite (apart_raise (wide_events _) ha) ha)
    (apart_set (apart_set (Apart.refl s)))))

theorem silent_frequencyTaken (h1 : e ≠ evDev 132) (h2 : e ≠ evCarrier c 37) : Silent e s (frequencyTaken c s) := by
  have := fact_false
  have hc : Silent e s (s.polCentre c) := Silent.refl.kept (kept_polCentre (Kept.refl s))
  unfold frequencyTaken State.frequencyEval
  extract_lets was a b
  have hb : Silent e s b := silent_set (silent_set hc)
  exact silent_ite (silent_set hc) (silent_ite (silent_set hc) (silent_ite (silent_ite (silent_raise hb h1 h2) hb) (silent_set (silent_set hc))))

theorem frequencyTaken_apart : Apart (fun r => Safety.eventSide r || [Reg.xPolTaps, .carrierCrState, .carrierCrFreqOffset].contains r) s
    (frequencyTaken c s) := (polCentre_apart.withEvents.widenEvents).trans frequencyEval_apart.widenEvents

/-- The frequency estimate where the timing loop is locked (R165). -/
theorem frequencyTaken_offset (h1 : s.rxStopped c = false) (h2 : s.flag .xTimLost c = false) :
    (frequencyTaken c s).get .carrierCrFreqOffset c = max (-6000000) (min 6000000 (rdiv (s.rx c).freq 1000000)) := by
  have h3 : (s.polCentre c).rxStopped c = false := (rxStopped_congr (polCentre_apart.regs _ _ rfl) (polCentre_apart.regs _ _ rfl)).trans h1
  have h4 : (s.polCentre c).flag .xTimLost c = false := by rw [State.flag, polCentre_apart.regs _ _ rfl, ← State.flag, h2]
  unfold frequencyTaken State.frequencyEval
  rw [h3, h4, if_neg (by decide), if_neg (by decide)]
  dsimp only
  split
  · split
    · rw [get_raise rfl, get_set_reg _ _ (by decide), get_set_same]
    · rw [get_set_reg _ _ (by decide), get_set_same]
  · rw [get_set_reg _ _ (by decide), get_set_same]

/-- Both outputs on one sequence in a second frame rebuild Y (R144). -/
theorem polReinit_reports (h : s.get .xPolSame c = 1) (h132 : evCarrier c 34 ≠ evDev 132) :
    Safety.countedBy s (s.polReinit c true) .carrierRxPolReinits c 1 ∧ Safety.raised s (s.polReinit c true) (evCarrier c 34) := by
  unfold State.polReinit
  dsimp only
  rw [if_pos rfl, h, if_pos (by rw [get_set_same]; decide)]
  refine ⟨?_, raised_raise ?_ h132⟩
  · rw [Safety.countedBy, get_raise rfl, get_bump_same, State.nat, get_set_reg _ _ (by decide), setBlob_get, get_set_reg _ _ (by decide),
      ← State.nat]
  · rw [get_bump_other (.inl (by decide)), get_set_reg _ _ (by decide), setBlob_get, get_set_reg _ _ (by decide)]

abbrev rawRegs : List Reg := [.xRaw, .xDefectAt, .carrierDefectRaw]

theorem setRaw_apart {q : Bool} : Apart rawRegs.contains s (s.setRaw c b q) := by
  unfold State.setRaw State.refreshRaw State.setBit State.markTick
  exact apart_set (apart_each (apart_set (Apart.refl s)) fun _ _ ht => apart_when ht fun _ => apart_set (Apart.refl _))

/-- Frame words missed or confirmed in a row (R229 bit 1). -/
theorem lofEval_run {metric : Int} : (s.lofEval c metric false).get .xLofRun c = if s.get .carrierCatchConfirm c ≤ metric then
    (if 0 < s.get .xLofRun c then -1 else s.get .xLofRun c - 1) else (if s.get .xLofRun c < 0 then 1 else s.get .xLofRun c + 1) := by
  unfold State.lofEval
  rw [if_neg (by decide)]
  extract_lets k a
  have ha : a.get .xLofRun c = _ := get_set_same _ _ _ _
  have hr : ∀ q, (a.setRaw c 1 q).get .xLofRun c = a.get .xLofRun c := fun q => setRaw_apart.regs _ _ rfl
  split
  · rw [hr, ha]
  · split
    · rw [hr, ha]
    · exact ha

theorem lofEval_apart {metric : Int} {q : Bool} : Apart (.xLofRun :: rawRegs).contains s (s.lofEval c metric q) := by
  unfold State.lofEval
  extract_lets k a
  have ha : Apart (.xLofRun :: rawRegs).contains s a := apart_set (Apart.refl s)
  exact apart_ite (Apart.refl s) (apart_ite (ha.trans setRaw_apart.widen) (apart_ite (ha.trans setRaw_apart.widen) ha))

theorem frameDefects_apart {metric : Int} {q : Bool} : Apart (.xLofRun :: rawRegs).contains s (s.frameDefects c metric q) := by
  unfold State.frameDefects
  extract_lets a d
  have ha : Apart (.xLofRun :: rawRegs).contains s a := setRaw_apart.widen
  have hd : Apart (.xLofRun :: rawRegs).contains s d := apart_ite ha (ha.trans lofEval_apart)
  exact apart_ite (hd.trans setRaw_apart.widen) (ha.trans setRaw_apart.widen)

theorem frameDefects_run {metric : Int} (h1 : s.upLine c = true) (h2 : s.rxStopped c = false) (h3 : s.nat .carrierFecProfileInForce c ≠ 2) :
    (s.frameDefects c metric false).get .xLofRun c = if s.get .carrierCatchConfirm c ≤ metric then
      (if 0 < s.get .xLofRun c then -1 else s.get .xLofRun c - 1) else (if s.get .xLofRun c < 0 then 1 else s.get .xLofRun c + 1) := by
  unfold State.frameDefects
  extract_lets a d
  have ha : ∀ {r i}, r ∉ rawRegs → a.get r i = s.get r i := fun {r i} hr => setRaw_apart.regs r i (by simpa using hr)
  have hs : (a.rxStopped c || a.nat .carrierFecProfileInForce c == profCompatible) = false := by
    rw [rxStopped_congr (ha (by decide)) (ha (by decide)), h2, State.nat, ha (by decide), ← State.nat, Bool.false_or]
    exact beq_eq_false_iff_ne.2 h3
  have hd : d = a.lofEval c metric false := if_neg (by rw [hs]; decide)
  rw [if_pos (by rw [State.upLine, ha (by decide)]; exact h1), setRaw_apart.regs _ _ rfl, hd, lofEval_run, ha (by decide), ha (by decide)]

abbrev settingRegs : List Reg := [.xPolFrozen, .xCrWindow, .xCatchSet]

theorem catchSettings_apart : Apart [Reg.xCatchSet].contains s (s.catchSettings c) :=
  apart_each (Apart.refl s) fun _ _ ht => apart_set ht

theorem frameSettings_apart : Apart settingRegs.contains s (s.frameSettings c) := by
  unfold State.frameSettings State.setBit
  exact Apart.trans (apart_set (apart_each (Apart.refl s) fun _ _ ht => apart_set ht)) catchSettings_apart.widen

theorem frameSettings_window : (s.frameSettings c).get .xCrWindow c = s.get .carrierCrWindow c := by
  unfold State.frameSettings
  rw [catchSettings_apart.regs _ _ rfl, get_set_same]
  exact each_view (view := fun y => y.get .carrierCrWindow c) fun y a _ => setBit_get (by decide)

/-- What the end of a frame start writes. -/
abbrev frameEndRegs : List Reg := [.xLofRun, .xRaw, .xDefectAt, .carrierDefectRaw, .xPolFrozen, .xCrWindow, .xCatchSet, .carrierRxPolState,
  .carrierRxHolding]

theorem frameEnded_apart {metric : Int} {q : Bool} : Apart frameEndRegs.contains s (frameEnded c metric q s) :=
  (frameDefects_apart.widen.trans frameSettings_apart.widen).trans refreshRx_apart.widen

/-! ## A frame of a Locked or Carrying carrier -/

theorem frameTaken_get {q : Bool} (h1 : frontScope (Safety.part r) = true := by rfl) (h2 : monitorScope (Safety.part r) = true := by rfl)
    (h3 : polScope (Safety.part r) = true := by rfl) (h4 : recoveryScope (Safety.part r) = true := by rfl) :
    (frameTaken c q w s).get r i = s.get r i := by
  rw [frameTaken, frequencyTaken_kept.get h4, sequenceSeen_kept.get h3, monitors_kept.get h2, frontMeasured_kept.get h1]

section
variable {metric : Int} {er q0 : Bool}

/-- What judging the sides tells stands at the end of the frame start. -/
theorem frame_sides (h : r ∈ [Reg.carrierNcSideState, .xNcGuard, .carrierNcSideLeakage]) :
    (frameEnded c metric er (frameTaken c q0 w (sidesJudged c s))).get r i = (sidesJudged c s).get r i := by
  simp only [List.mem_cons, List.not_mem_nil, or_false] at h
  rcases h with rfl | rfl | rfl <;> rw [frameEnded_apart.regs _ _ rfl, frameTaken_get]

/-- The state in which the quantities are taken. -/
abbrev measured (c : Nat) (w : FrameReading) (s : State) : State := frontMeasured c w (sidesJudged c s)

/-- What timing and front end tell stands at the end of the frame start. -/
theorem frame_front (h : r ∈ [Reg.carrierRxTimingOffset, .carrierRxFePhaseX, .carrierRxFePhaseY]) :
    (frameEnded c metric er (frameTaken c q0 w (sidesJudged c s))).get r i = (measured c w s).get r i := by
  simp only [List.mem_cons, List.not_mem_nil, or_false] at h
  rcases h with rfl | rfl | rfl <;>
    rw [frameEnded_apart.regs _ _ rfl, frameTaken, frequencyTaken_kept.get, sequenceSeen_kept.get, monitors_kept.get]

/-- The quantities of a frame, as they stand at the end of the frame start. -/
theorem frame_quantity {q : Nat} (h1 : s.get .xTrackWindow c = 0) (h2 : 3 ≤ s.get .carrierState c) (hq : 1 ≤ q) (hq7 : q < 7) :
    (frameEnded c metric er (frameTaken c q0 w (sidesJudged c s))).get .carrierMonRaw (12 * q + c) = (measured c w s).rawQuantity c q0 w q
    ∧ (frameEnded c metric er (frameTaken c q0 w (sidesJudged c s))).get .xMonV (12 * q + c)
      = filteredBy (12 * q + c) ((measured c w s).rawQuantity c q0 w q) s
    ∧ (frameEnded c metric er (frameTaken c q0 w (sidesJudged c s))).get .carrierMonFiltered (12 * q + c)
      = (filteredBy (12 * q + c) ((measured c w s).rawQuantity c q0 w q) s + 128) / 256
    ∧ (frameEnded c metric er (frameTaken c q0 w (sidesJudged c s))).get .xMonSeen (12 * q + c) = 1 := by
  have hg : ∀ {r i}, r ∈ quantityRegs → (frameEnded c metric er (frameTaken c q0 w (sidesJudged c s))).get r i
      = ((measured c w s).monitors c q0 w).get r i := fun {r i} hr => by
    simp only [List.mem_cons, List.not_mem_nil, or_false] at hr
    rcases hr with rfl | rfl | rfl | rfl <;> rw [frameEnded_apart.regs _ _ rfl, frameTaken, frequencyTaken_kept.get, sequenceSeen_kept.get]
  have ha : ∀ {r i}, r ∈ Reg.carrierMonShift :: .xTrackWindow :: .carrierState :: quantityRegs → (measured c w s).get r i = s.get r i :=
    fun {r i} hr => by
      simp only [List.mem_cons, List.not_mem_nil, or_false] at hr
      rcases hr with rfl | rfl | rfl | rfl | rfl | rfl | rfl <;> rw [measured, frontMeasured_kept.get, sidesJudged_get]
  have hv := monitors_view (s := measured c w s) (c := c) (w := w) (second := q0) ((ha (by decide)).trans h1)
    (by rw [ha (by decide)]; omega) hq hq7
  have hm : monitorView (12 * q + c) (measured c w s) = monitorView (12 * q + c) s := by
    unfold monitorView
    rw [ha (by decide), ha (by decide), ha (by decide), ha (by decide)]
  rw [filteredBy_congr hm (ha (by decide))] at hv
  unfold monitorView at hv
  simp only [Prod.mk.injEq] at hv
  rw [hg (by decide), hg (by decide), hg (by decide), hg (by decide)]
  exact hv

theorem rawQuantity_line {q : Nat} (h : q < 4) : s.rawQuantity c q0 w q = w.raw[q] := by
  unfold State.rawQuantity
  rw [if_neg (by omega), if_neg (by omega), if_neg (by omega), List.getD_eq_getElem _ _ (by simp; omega)]
  simp

theorem rawQuantity_snr : s.rawQuantity c q0 w 4 = if q0 = true then w.snrSecond else w.raw[4] := by
  unfold State.rawQuantity
  cases q0 with
  | true => rfl
  | false =>
    rw [if_neg (by simp), if_neg (by decide), if_neg (by decide), List.getD_eq_getElem _ _ (by simp)]
    simp

theorem rawQuantity_timing : s.rawQuantity c q0 w 5 = s.get .carrierRxTimingOffset c := by
  unfold State.rawQuantity
  rw [if_neg (by simp), if_pos rfl]

theorem rawQuantity_front : s.rawQuantity c q0 w 6
    = (max (s.get .carrierRxFePhaseX c).natAbs (s.get .carrierRxFePhaseY c).natAbs : Nat) := by
  unfold State.rawQuantity
  rw [if_neg (by simp), if_neg (by decide), if_pos rfl]

theorem silent_sideEval {side : Nat} (h1 : e ≠ evDev 132) (h2 : e ≠ evCarrier c 36) : Silent e s (s.sideEval c side) := by
  have hs : Silent e s (sideShown c side s) :=
    (apart_set (K := [Reg.xNcLate, .carrierNcSideTaps, .carrierNcSideLeakage].contains) (apart_setBlob (apart_set (Apart.refl s)))).regs
      .eventCount e rfl
  have hx : ∀ x y, Silent e s (((sideShown c side s).set .xNcGuard (12 * side + c) x).set .carrierNcSideState (12 * side + c) y) :=
    fun x y => silent_set (silent_set hs)
  obtain ⟨x, y, he | ⟨d, he⟩⟩ := sideEval_cases (s := s) (c := c) (side := side)
  · rw [he]
    exact hx x y
  · rw [he]
    exact silent_raise (silent_bump (hx x y)) h1 h2

theorem silent_sidesJudged (h1 : e ≠ evDev 132) (h2 : e ≠ evCarrier c 36) : Silent e s (sidesJudged c s) :=
  (setBlob_get _ _ _ _ _ _).trans ((silent_sideEval h1 h2).trans (silent_sideEval h1 h2))

/-- A second frame on one sequence rebuilds Y, and is told. -/
theorem frame_sequence (h1 : s.wordErased c w = false) (h2 : w.sameSequence = true) (h3 : s.get .xPolSame c = 1) (hc : c < 12) :
    Safety.countedBy s (frameEnded c metric er (frameTaken c q0 w (sidesJudged c s))) .carrierRxPolReinits c 1
    ∧ Safety.raised s (frameEnded c metric er (frameTaken c q0 w (sidesJudged c s))) (evCarrier c 34) := by
  have hne : ∀ k, k ≠ 34 → evCarrier c 34 ≠ evCarrier c k := fun k hk => by
    unfold evCarrier
    omega
  have h132 : evCarrier c 34 ≠ evDev 132 := by
    unfold evCarrier evDev
    omega
  have hM : Silent (evCarrier c 34) s ((measured c w s).monitors c q0 w) :=
    ((silent_sidesJudged h132 (hne _ (by decide))).trans (silent_frontMeasured h132 (hne _ (by decide)))).trans
      (silent_monitors h132 fun k hk => hne _ (by omega))
  have hw : ((measured c w s).monitors c q0 w).wordErased c w = false :=
    (wordErased_congr (by rw [rx_congr (monitors_kept.sameRxLine rfl), rx_congr (frontMeasured_kept.sameRxLine rfl), sidesJudged_rx])).trans h1
  have hg : ∀ {r}, r = .xPolSame ∨ r = .carrierRxPolReinits → ((measured c w s).monitors c q0 w).get r c = s.get r c := fun {r} hr => by
    rcases hr with rfl | rfl <;>
      rw [monitors_kept.get, measured, frontMeasured, frontEnd_apart.regs _ _ rfl, refreshRx_apart.regs _ _ rfl,
        timingEval_apart.regs _ _ rfl, sidesJudged_get]
  obtain ⟨g1, g2⟩ := polReinit_reports (s := (measured c w s).monitors c q0 w) (c := c) ((hg (.inl rfl)).trans h3) h132
  have hS : sequenceSeen c w ((measured c w s).monitors c q0 w) = ((measured c w s).monitors c q0 w).polReinit c true := by
    unfold sequenceSeen
    rw [hw, h2]
    exact if_neg (by decide)
  have hk : ∀ {r i}, r ∈ [Reg.carrierRxPolReinits] → (frameEnded c metric er (frameTaken c q0 w (sidesJudged c s))).get r i
      = (((measured c w s).monitors c q0 w).polReinit c true).get r i := fun {r i} hr => by
    rw [List.mem_singleton.1 hr, frameEnded_apart.regs _ _ rfl, frameTaken, frequencyTaken_apart.regs _ _ rfl, hS]
  refine ⟨?_, ?_⟩
  · rw [Safety.countedBy, hk (by decide), g1, State.nat, hg (.inr rfl), ← State.nat]
  · refine raised_of_silent hM (Silent.raised_after ?_ g2)
    have he : Silent (evCarrier c 34) (sequenceSeen c w ((measured c w s).monitors c q0 w)) (frameTaken c q0 w (sidesJudged c s)) :=
      silent_frequencyTaken h132 (hne _ (by decide))
    rw [hS] at he
    exact he.trans (frameEnded_apart.regs _ _ rfl)

end

end Sys2Proof.Laws

namespace Sys2Proof

open Sys2Proof.Machine Sys2Proof.Laws

/-- Settles O27: each figure of a frame is written by one step of its frame start, and left by those after it. -/
theorem frameStartsUpdateTheReceiveChain : Obligations.FrameStartsUpdateTheReceiveChain := by
  refine ⟨fun s c m hp h => ?_, fun s c m hp hu hr => ?_⟩
  · refine live_still (f := fun s => s.frameStart c m) (if_pos ?_)
    exact decide_eq_true h
  · have hx := (live_running (f := fun s => s.frameStart c m) hp).trans (congrArg Host.Outcome.next (frameStart_up hu hr))
    have h3 : 3 ≤ s.get .carrierState c := of_decide_eq_true hu
    refine ⟨_, hx, fun q hw hq => ?_, fun d code hd => ?_, fun hl he => ?_, fun d => ?_, ?_, fun hw hf => ?_, fun hw hq hs => ?_⟩
    · obtain ⟨e1, e2, e3, e4⟩ := frame_quantity (s := s) (w := m) hw h3 hq q.isLt
      refine ⟨?_, ?_, fun h => ?_, fun h => ?_, fun h => ?_, fun h => ?_⟩
      · rw [e1, e2]
        rfl
      · rw [e2, e3]
      · rw [e1, rawQuantity_line h]
      · rw [e1, h, rawQuantity_snr]
        by_cases hl : s.sideLive c 0 = true ∨ s.sideLive c 1 = true
        · rw [if_pos hl, if_pos (by rcases hl with hl | hl <;> simp [hl])]
        · rw [if_neg hl, if_neg (by simpa using hl)]
      · rw [e1, h, rawQuantity_timing, frame_front (by decide)]
      · rw [e1, h, rawQuantity_front, frame_front (by decide), frame_front (by decide)]
    · obtain ⟨g1, g2⟩ := sidesJudged_out (s := s) (c := c) d.isLt hd
      rw [frame_sides (by decide), frame_sides (by decide)]
      exact ⟨g1, g2⟩
    · rw [frameEnded_apart.regs _ _ rfl, frameTaken, frequencyTaken_offset]
      · rw [rx_congr (sequenceSeen_kept.sameRxLine rfl), rx_congr (monitors_kept.sameRxLine rfl), rx_congr (frontMeasured_kept.sameRxLine rfl),
          sidesJudged_rx]
      · refine Eq.trans (rxStopped_congr ?_ ?_) hr
        · rw [sequenceSeen_kept.get, monitors_kept.get, frontMeasured_kept.get, sidesJudged_get]
        · rw [sequenceSeen_kept.get, monitors_kept.get, frontMeasured_kept.get, sidesJudged_get]
      · rw [State.flag, sequenceSeen_kept.get, monitors_kept.get, ← State.flag]
        refine frontMeasured_keeps ?_ he
        rw [State.flag, sidesJudged_get, ← State.flag, hl]
    · rw [frame_sides (by decide)]
      exact sidesJudged_leakage d.isLt
    · rw [frameEnded, refreshRx_apart.regs _ _ rfl, frameSettings_window, frameDefects_apart.regs _ _ rfl, frameTaken_get, sidesJudged_get]
    · have hF : (frameTaken c (s.sideLive c 0 || s.sideLive c 1) m (sidesJudged c s)).upLine c = true := by
        rw [State.upLine, frameTaken_state, sidesJudged_get]
        exact hu
      have hS : (frameTaken c (s.sideLive c 0 || s.sideLive c 1) m (sidesJudged c s)).rxStopped c = false := by
        refine Eq.trans (rxStopped_congr ?_ ?_) hr
        · rw [frameTaken_get, sidesJudged_get]
        · rw [frameTaken_get, sidesJudged_get]
      have hrun := frameDefects_run (metric := m.metric) hF hS (by rw [State.nat, frameTaken_get, sidesJudged_get]; exact hf)
      rw [frameTaken_get, sidesJudged_get, frameTaken_get, sidesJudged_get] at hrun
      rw [frameEnded, refreshRx_apart.regs _ _ rfl, frameSettings_apart.regs _ _ rfl, hw, hrun]
      refine ⟨fun g1 g2 => ?_, fun g1 g2 => ?_⟩
      · rw [if_pos g1, if_pos g2]
      · rw [if_neg (by omega), if_neg (by omega)]
    · exact frame_sequence hw hq hs c.isLt

end Sys2Proof

/-! # The catch (R172 to R188) -/

namespace Sys2Proof.Laws

set_option Elab.async false

open Sys2Proof.Machine

variable {s₀ s t u : State} {cl : Client} {r : Reg} {i j n m b c e f g p k d : Nat} {v : Int} {L : List Reg}
  {K : Reg → Bool} {w : FrameReading}

/-! ## Gates (R175) -/

/-- A mask of the bits that q names. -/
def maskOf (q : Nat → Bool) (n : Nat) : Nat := (List.range n).foldl (fun a i => if q i then a + 2 ^ i else a) 0

theorem maskOf_succ {q : Nat → Bool} : maskOf q (n + 1) = if q n then maskOf q n + 2 ^ n else maskOf q n := by
  rw [maskOf, List.range_succ, List.foldl_append]
  rfl

theorem maskOf_lt {q : Nat → Bool} : maskOf q n < 2 ^ n := by
  induction n with
  | zero => exact Nat.one_pos
  | succ n ih =>
    rw [maskOf_succ, Nat.pow_succ]
    split <;> omega

theorem testBit_maskOf {q : Nat → Bool} (h : i < n) : (maskOf q n).testBit i = q i := by
  induction n with
  | zero => exact absurd h (Nat.not_lt_zero i)
  | succ n ih =>
    have hl : maskOf q n < 2 ^ n := maskOf_lt
    rw [maskOf_succ]
    by_cases hi : i = n
    · rw [hi]
      cases hq : q n with
      | true => rw [if_pos rfl, Nat.add_comm, Nat.testBit_two_pow_add_eq, Nat.testBit_lt_two_pow hl]; rfl
      | false => rw [if_neg (by decide), Nat.testBit_lt_two_pow hl]
    · have hin : i < n := by omega
      split
      · rw [Nat.add_comm, Nat.testBit_two_pow_add_gt hin, ih hin]
      · exact ih hin

/-- What a survey shows while it restarts or refreshes. -/
abbrev surveyRegs : List Reg := [.xSurveyEnd, .xSurveyLen, .xSurveySeen, .carrierCatchLevel, .carrierCatchLevelValid,
  .carrierCatchLevelUpdates, .xCatchSet]

theorem levelTake_apart {l : List Nat} : Apart [Reg.carrierCatchLevel, .carrierCatchLevelValid, .carrierCatchLevelUpdates].contains s
    (s.levelTake c l) := apart_bump (apart_set (apart_set (Apart.refl s)))

theorem surveyWindow_apart {l : Vector (Fin 65536) 4} : Apart surveyRegs.contains s (s.surveyWindow c l) :=
  apart_ite (Apart.refl s) (apart_set (apart_set (apart_set (apart_ite levelTake_apart.widen (Apart.refl s)))))

/-- The gates of a survey set, and what follows from one that opens. -/
def gatesSet (c gates : Nat) (s : State) : State :=
  if gates = 0 then s.set .carrierCatchGates c (gates : Nat) else (s.set .carrierCatchGates c (gates : Nat)).set .xSurveySeen c 1

/-- The state of the survey in Seeking. -/
def surveyTold (c : Nat) (s : State) : State := if s.get .carrierState c = 1 then s.seekState c else s

theorem survey_eq {l : Vector SurveyReading 8} {x : Vector (Fin 65536) 4} (h : s.engineRuns c = true) : s.survey c l x
    = ((surveyTold c (gatesSet c (maskOf (s.gateOpens c l) 8) s)).surveyWindow c x).catchSettings c :=
  if_neg (by rw [h]; decide)

theorem gatesSet_gates {q : Nat} : (gatesSet c q s).get .carrierCatchGates c = (q : Nat) := by
  unfold gatesSet
  split
  · exact get_set_same _ _ _ _
  · rw [get_set_reg _ _ (by decide), get_set_same]

theorem gatesSet_apart {q : Nat} : Apart [Reg.carrierCatchGates, .xSurveySeen].contains s (gatesSet c q s) :=
  apart_ite (apart_set (Apart.refl s)) (apart_set (apart_set (Apart.refl s)))

theorem surveyTold_apart : Apart [Reg.carrierCatchState].contains s (surveyTold c s) := apart_ite (apart_set (Apart.refl s)) (Apart.refl s)

theorem seekState_get (h : s.flag .xRelock c = false) :
    (s.seekState c).get .carrierCatchState c = if s.get .carrierCatchGates c = 0 then 1 else 2 := by
  unfold State.seekState
  rw [get_set_same, h, if_neg (by decide)]

/-- What a refresh of the survey tells. -/
theorem survey_reports {l : Vector SurveyReading 8} {x : Vector (Fin 65536) 4} (h : s.engineRuns c = true) :
    (∀ i < 8, (s.survey c l x).bit .carrierCatchGates c i = s.gateOpens c l i)
    ∧ (s.get .carrierState c = 1 → (s.survey c l x).get .carrierCatchState c
      = if (s.survey c l x).get .carrierCatchGates c = 0 then 1 else 2) := by
  have ha : ∀ (y : State) {r}, r ∉ surveyRegs → ((y.surveyWindow c x).catchSettings c).get r c = y.get r c := fun y r hr => by
    rw [catchSettings_apart.regs _ _ (by simp at hr; simp [hr]), surveyWindow_apart.regs _ _ (by simpa using hr)]
  rw [survey_eq h]
  refine ⟨fun i hi => ?_, fun h1 => ?_⟩
  · rw [State.bit, State.nat, ha _ (by decide), surveyTold_apart.regs _ _ rfl, gatesSet_gates, Int.toNat_natCast, bitOf_eq, testBit_maskOf hi]
  · have hr : s.rxStopped c = false := by
      unfold State.engineRuns at h
      simpa using (Bool.and_eq_true_iff.1 h).2
    have hx : s.flag .xRelock c = false := (Bool.or_eq_false_iff.1 hr).1
    have hs : surveyTold c (gatesSet c (maskOf (s.gateOpens c l) 8) s) = (gatesSet c (maskOf (s.gateOpens c l) 8) s).seekState c :=
      if_pos (by rw [gatesSet_apart.regs _ _ rfl, h1])
    have hg : (gatesSet c (maskOf (s.gateOpens c l) 8) s).flag .xRelock c = false := by
      rw [State.flag, gatesSet_apart.regs _ _ rfl, ← State.flag, hx]
    rw [ha _ (by decide), ha _ (by decide), surveyTold_apart.regs .carrierCatchGates c rfl, hs, seekState_get hg]

theorem gateOpens_none {l : Vector SurveyReading 8} (h : s.candidateRate c i = none) : s.gateOpens c l i = false := by
  unfold State.gateOpens
  rw [h]

theorem gateOpens_some {l : Vector SurveyReading 8} {k : Fin 8} (h : s.candidateRate c k = some n) : s.gateOpens c l k
    = (decide (n ≤ s.nat .xRxRate c) && decide (s.get .xSurveyTick (8 * c + k.val) + 250 * s.get .xSurveyWin (8 * c + k.val) ≤ s.get .xTicks 0)
      && decide (s.catchSet c 0 ≤ l[k].strength) && decide ((l[k].offset.natAbs : Int) ≤ 1000 * s.catchSet c 1)) := by
  have hl : l.toList[k.val]? = some l[k] := by simp
  unfold State.gateOpens
  rw [h, hl]

/-! ## Matches (R176) -/

/-- One match weighed against the best so far. -/
def matchWeighed (s : State) (c : Nat) (a : Option (Nat × MatchReading)) (m : MatchReading) : Option (Nat × MatchReading) :=
  match s.matchCounts c m with
  | none => a
  | some rate =>
    if s.matchSame c rate m then a
    else match a with
      | none => some (rate, m)
      | some b => if matchBetter m b.2 then some (rate, m) else some b

theorem bestMatch_eq {l : List MatchReading} : s.bestMatch c l = l.foldl (matchWeighed s c) none := rfl

theorem matchWeighed_none {a : Option (Nat × MatchReading)} {x : MatchReading} (h : s.matchCounts c x = none) :
    matchWeighed s c a x = a := by
  unfold matchWeighed
  rw [h]

theorem bestMatch_none {l : List MatchReading} (h : ∀ x ∈ l, s.matchCounts c x = none) : s.bestMatch c l = none := by
  rw [bestMatch_eq]
  induction l with
  | nil => rfl
  | cons x l ih =>
    rw [List.foldl_cons, matchWeighed_none (h x List.mem_cons_self)]
    exact ih fun y hy => h y (List.mem_cons_of_mem _ hy)

/-- A match that is not preferred has no higher metric. -/
theorem matchBetter_metric {x y : MatchReading} :
    (matchBetter x y = true → matchMetric y ≤ matchMetric x) ∧ (matchBetter x y = false → matchMetric x ≤ matchMetric y) := by
  unfold matchBetter
  simp only [Bool.or_eq_true, Bool.and_eq_true, decide_eq_true_eq, Bool.or_eq_false_iff, Bool.and_eq_false_iff, decide_eq_false_iff_not]
  omega

/-- A is a best match of those of l that count. -/
def Best (s : State) (c : Nat) (l : List MatchReading) (a : Option (Nat × MatchReading)) : Prop :=
  match a with
  | none => ∀ x ∈ l, s.matchCounts c x = none
  | some b => b.2 ∈ l ∧ s.matchCounts c b.2 = some b.1 ∧ ∀ x ∈ l, (s.matchCounts c x).isSome = true → matchMetric x ≤ matchMetric b.2

theorem matchWeighed_best {l : List MatchReading} {a : Option (Nat × MatchReading)} {x : MatchReading}
    (h : Best s c l a) (hx : ∀ k, s.matchSame c k x = false) : Best s c (l ++ [x]) (matchWeighed s c a x) := by
  have hall : ∀ {P : MatchReading → Prop}, (∀ y ∈ l, P y) → P x → ∀ y ∈ l ++ [x], P y := fun h1 h2 y hy =>
    (List.mem_append.1 hy).elim (h1 y) fun hy => (List.mem_singleton.1 hy) ▸ h2
  unfold matchWeighed
  cases hc : s.matchCounts c x with
  | none =>
    cases a with
    | none => exact hall h hc
    | some y =>
      obtain ⟨h1, h2, h3⟩ := h
      exact ⟨List.mem_append_left _ h1, h2, hall h3 fun hq => by rw [hc] at hq; cases hq⟩
  | some rate =>
    dsimp only
    rw [hx rate, if_neg (by decide)]
    cases a with
    | none =>
      exact ⟨List.mem_append_right _ List.mem_cons_self, hc, hall (fun y hy hq => by rw [h y hy] at hq; cases hq) fun _ => le_refl _⟩
    | some y =>
      obtain ⟨h1, h2, h3⟩ := h
      obtain ⟨m1, m2⟩ := matchBetter_metric (x := x) (y := y.2)
      dsimp only
      cases hb : matchBetter x y.2 with
      | true =>
        exact ⟨List.mem_append_right _ List.mem_cons_self, hc, hall (fun z hz hq => (h3 z hz hq).trans (m1 hb)) fun _ => le_refl _⟩
      | false => exact ⟨List.mem_append_left _ h1, h2, hall h3 fun _ => m2 hb⟩

theorem bestMatch_best {l : List MatchReading} (h : ∀ x k, s.matchSame c k x = false) : Best s c l (s.bestMatch c l) := by
  rw [bestMatch_eq]
  induction l using List.reverseRecOn with
  | nil => exact fun x hx => by cases hx
  | append_singleton l x ih =>
    rw [List.foldl_append]
    exact matchWeighed_best ih (h x)

theorem matchSame_seeking {x : MatchReading} (h : s.get .carrierState c = 1) : s.matchSame c k x = false := by
  unfold State.matchSame
  rw [h]
  rfl

theorem matchFound_none {l : List MatchReading} (h : ∀ x ∈ l, s.matchCounts c x = none) : s.matchFound c l = s := by
  unfold State.matchFound
  rw [bestMatch_none h, ite_self]

abbrev matchRegs : List Reg := [.xMatchPending, .xMatchRate, .xMatchCand, .xMatchMetric, .xMatchKind, .xMatchStart, .xMatchFreq, .xMatchMap]

theorem keepMatch_apart {x : MatchReading} : Apart matchRegs.contains s (s.keepMatch c k x) :=
  apart_set (apart_set (apart_set (apart_set (apart_set (apart_set (apart_set (apart_set (Apart.refl s))))))))

theorem keepMatch_reports {x : MatchReading} : (s.keepMatch c k x).get .xMatchPending c = 1 ∧ (s.keepMatch c k x).get .xMatchRate c = (k : Int)
    ∧ (s.keepMatch c k x).get .xMatchMetric c = matchMetric x ∧ (s.keepMatch c k x).get .xMatchKind c = x.kind.val
    ∧ (s.keepMatch c k x).get .xMatchStart c = (matchStart x : Int) := by
  unfold State.keepMatch
  refine ⟨?_, ?_, ?_, ?_, ?_⟩ <;> simp (disch := decide) only [get_set_reg, get_set_same]

/-- The best match of an interval in Seeking becomes the pending one. -/
theorem matchFound_seeking {l : List MatchReading} {y : Nat × MatchReading} (h : s.engineRuns c = true) (h1 : s.get .carrierState c = 1)
    (hp : s.flag .xMatchPending c = false) (hb : s.bestMatch c l = some y) :
    s.matchFound c l = (s.set .xSurveySeen c 1).keepMatch c y.1 y.2 := by
  have h1' : (s.set .xSurveySeen c 1).get .carrierState c = 1 := (get_set_reg _ _ (by decide)).trans h1
  have hp' : (s.set .xSurveySeen c 1).flag .xMatchPending c = false := by rw [State.flag, get_set_reg _ _ (by decide), ← State.flag, hp]
  unfold State.matchFound
  rw [h, if_neg (by decide), hb]
  dsimp only
  rw [if_pos h1', hp', Bool.false_and, if_neg (by decide)]

/-! ## A loop sent to another rate, and an entry to Seeking -/

/-- What the survey restarts with. -/
abbrev restartRegs : List Reg := [.xSurveyTick, .xSurveyWin, .carrierCatchGates, .xSurveyLen, .xSurveyEnd, .xSurveySeen]

theorem surveyRestart_apart : Apart restartRegs.contains s (s.surveyRestart c i) := by
  unfold State.surveyRestart State.setBit
  exact apart_set (apart_set (apart_set (Apart.refl s)))

theorem surveyAll_apart : Apart restartRegs.contains s (s.surveyAll c) :=
  apart_set (apart_set (apart_set (apart_each (Apart.refl s) fun _ _ ht => ht.trans surveyRestart_apart)))

/-- Restarted, no gate is open. -/
theorem surveyAll_gates (hi : i < 8) : (s.surveyAll c).bit .carrierCatchGates c i = false := by
  have hb : ∀ (y : State) a, (y.surveyRestart c a).bit .carrierCatchGates c i = if i = a then false else y.bit .carrierCatchGates c i :=
    fun y a => by
      unfold State.surveyRestart
      rw [bit_setBit]
      simp only [true_and]
      rw [State.bit, State.nat, get_set_reg _ _ (by decide), get_set_reg _ _ (by decide), ← State.nat, ← State.bit]
  have hl : ∀ (l : List Nat) (y : State), (y.each l fun s i => s.surveyRestart c i).bit .carrierCatchGates c i
      = if i ∈ l then false else y.bit .carrierCatchGates c i := fun l => by
    induction l with
    | nil => exact fun y => rfl
    | cons a l ih =>
      intro y
      rw [each_cons, ih, hb]
      by_cases h1 : i ∈ l <;> by_cases h2 : i = a <;> simp [h1, h2]
  unfold State.surveyAll
  rw [State.bit, State.nat, get_set_reg _ _ (by decide), get_set_reg _ _ (by decide), get_set_reg _ _ (by decide), ← State.nat, ← State.bit,
    hl, if_pos (List.mem_range.2 hi)]

/-- The figures of a catch that no restart of the survey moves. -/
abbrev catchFigures : List Reg := [.carrierCatchPreemptions, .carrierCatchAbandons, .carrierCatchMetric, .carrierCatchMatchKind,
  .carrierCatchFreqHandover, .xFrameStart, .carrierCatchFrames, .carrierCatchEntries, .carrierCatchConfirmations, .xMatchPending]

/-- The scope that leaves the catch. -/
abbrev catchScope : Scope := fun p => match p with
  | .catching => true
  | _ => false

theorem Apart.spares {M : List Reg} (h : Apart L.contains s t) (hd : ∀ r ∈ M, r ∉ L := by decide) : Apart (beyond M) s t :=
  h.mono fun r hr => by simpa using hd r (beyond_eq_false.1 hr)

theorem catch_of_kept (h : Kept catchScope s t) : Apart (beyond catchFigures) s t := h.beyond (l := catchFigures)

theorem retune_catch : Apart (beyond catchFigures) s (s.retune c b) := by
  have := fact_false
  unfold State.retune
  extract_lets a d
  have ha : Kept catchScope s a := kept_serveRx (Kept.refl s)
  have hd : Kept catchScope s d := kept_ite (kept_setLoops ha) (kept_setLoops (kept_set ha (hr := rfl)))
  have hs : Apart (beyond catchFigures) d (d.surveyAll c) := surveyAll_apart.spares
  refine apart_ite (Apart.refl s) (((catch_of_kept hd).trans hs).trans (catch_of_kept ?_))
  refine kept_refreshRx (kept_refreshConv (kept_calAbandonAdcs (kept_agcRestart (kept_crHold ?_))))
  generalize d.surveyAll c = y
  repeat' first | with_reducible apply kept_set | with_reducible apply kept_refreshBusy | exact Kept.refl y | exact rfl

/-- The counts of the catch, which an entry to Seeking leaves. -/
abbrev catchCounts : List Reg := [.carrierCatchPreemptions, .carrierCatchAbandons]

theorem counts_of_kept (h : Kept catchScope s t) : Apart (beyond catchCounts) s t := h.beyond (l := catchCounts)

theorem Apart.counts (h : Apart (beyond catchFigures) s t) : Apart (beyond catchCounts) s t :=
  h.mono fun r hr => beyond_eq_false.2 ((show catchCounts ⊆ catchFigures by decide) (beyond_eq_false.1 hr))

abbrev listRegs : List Reg := [.xCatchBlind, .xCatchCount, .xCatchList, .carrierCatchListInForce] ++ restartRegs

theorem listTaken_apart : Apart listRegs.contains s (s.listTaken c) := by
  unfold State.listTaken
  extract_lets was a
  have ha : Apart listRegs.contains s a :=
    apart_setBlob (apart_each (apart_set (apart_set (Apart.refl s))) fun _ _ ht => apart_set ht)
  refine apart_each ha fun y i hy => ?_
  split
  · unfold State.setBit
    exact apart_set (apart_set (apart_set hy))
  · exact hy.trans surveyRestart_apart.widen

theorem seekEntry_counts : Apart (beyond catchCounts) s (s.seekEntry c v) := by
  have := fact_false
  unfold State.seekEntry
  extract_lets running a b d e f x y z
  have ka : Kept catchScope s a := kept_bondDrop (kept_noteDrop (Kept.refl s))
  have hb : Apart (beyond catchCounts) (a.setCarrierState c csSeeking) b := listTaken_apart.spares
  have hd : Apart (beyond catchCounts) b d := apart_ite (Apart.refl b) surveyAll_apart.spares
  have ke : Kept catchScope d e := kept_set (Kept.refl d) (hr := rfl)
  have kf : Kept catchScope d f := kept_ite (kept_set (kept_set (kept_bankFinish ke) (hr := rfl)) (hr := rfl)) ke
  have kx : Kept catchScope d x := kept_pageSettle (kept_defectsSeeking (kept_clearMonitors kf))
  have hx : Apart (beyond catchCounts) s x := (((counts_of_kept (kept_setCarrierState ka)).trans hb).trans hd).trans (counts_of_kept kx)
  refine Apart.trans hx ?_
  clear_value x
  have hz : Apart (beyond catchCounts) x y := by
    refine Apart.trans ?_ catchSettings_apart.spares
    repeat' first | with_reducible apply apart_set | with_reducible apply apart_setBlob | with_reducible exact Apart.refl x | decide
  clear_value y
  have hk : Apart (beyond catchCounts) x z := hz.other rfl
  exact hk.other rfl

theorem toSeeking_counts : Apart (beyond catchCounts) s (s.toSeeking c v) := by
  have := fact_false
  unfold State.toSeeking
  extract_lets a b
  have hr : Apart (beyond catchCounts) a (a.retune c (a.seekRate c)) := retune_catch.counts
  have hb : Apart (beyond catchCounts) a b := Apart.trans hr (apart_set (Apart.refl _))
  exact (seekEntry_counts.trans hb).trans (counts_of_kept (kept_refreshRx (kept_refreshConv (kept_rxFigures (Kept.refl b)))))

/-! ## Tentative (R177) -/

/-- The figures of a tentative catch (R177). -/
def catchNoted (c : Nat) (kind : Int) (rate : Nat) (x : Int) (s : State) : State :=
  s |>.set .catchCaughtRate c (rate / 250000 : Nat) |>.set .xCaughtRate c (rate : Nat)
    |>.set .carrierCatchMetric c (s.get .xMatchMetric c)
    |>.set .carrierCatchCandidate c (if s.flag .xCatchBlind c then s.get .xMatchCand c else 0xFF)
    |>.set .carrierCatchMatchKind c kind |>.set .carrierCatchFreqHandover c x
    |>.bump .carrierCatchEntries c |>.set .xFrameStart c (s.get .xMatchStart c)
    |>.set .carrierCatchConfirmations c (if kind = 0 then 1 else 0) |>.set .carrierCatchFrames c 0

/-- The counts of a tentative catch begin anew. -/
def catchBegun (c : Nat) (x : Int) (ref : Int) (s : State) : State :=
  s |>.set .xConfirmRef c ref |>.set .xSearch c 0 |>.set .carrierCatchState c 3
    |>.set .carrierCrState c 1 |>.set .carrierCrFreqOffset c x |>.set .carrierRxTimingState c 1
    |>.set .xTrackWindow c 0 |>.set .xTimGood c 0 |>.set .xTimBad c 0 |>.set .xSnrAt c 0
    |>.each (List.range 8) (fun s j => s.set .xSnrOk (8 * c + j) 0)
    |>.each (List.range 7) (fun s q => s.set .xMonSeen (12 * q + c) 0)

/-- The wiring that a match tells is due, where the mode takes it. -/
def wiringTaken (c : Nat) (s : State) : State :=
  if s.get .carrierWiringMode c = 1 then s.set .xWiringDue c (s.get .xMatchMap c + 17) else s

/-- The line of a tentative catch, its figures and its loop. -/
def catchServed (c rate : Nat) (x : Int) (s : State) : State :=
  (((s.setRx c { s.rx c with freq := 1000000 * x, ramp := 0, loop := none, since := 0, pilotPower := 0, pilotError := 0 }).rxFigures c
    rate).catchRetune c rate).refreshRx c

/-- The carrier is Tentative, and no match is pending. -/
def matchTaken (c : Nat) (s : State) : State := (s.setCarrierState c csTentative).set .xMatchPending c 0

theorem matchTaken_get (h1 : r ≠ .carrierState) (h2 : r ≠ .carrierStateChanges) (h3 : r ≠ .xMatchPending) :
    (matchTaken c s).get r i = s.get r i := (get_set_reg _ _ h3).trans (setCarrierState_get_other h1 h2)

theorem tentative_eq {x : Int} : s.tentative c x = catchServed c (s.nat .xMatchRate c) x (wiringTaken c (catchBegun c x
    ((matchTaken c s).get .xMatchMetric c) (catchNoted c (s.get .xMatchKind c) (s.nat .xMatchRate c) x (matchTaken c s)))) := rfl

theorem wiringTaken_apart : Apart [Reg.xWiringDue].contains s (wiringTaken c s) := apart_ite (apart_set (Apart.refl s)) (Apart.refl s)

abbrev begunRegs : List Reg := [.xConfirmRef, .xSearch, .carrierCatchState, .carrierCrState, .carrierCrFreqOffset, .carrierRxTimingState,
  .xTrackWindow, .xTimGood, .xTimBad, .xSnrAt, .xSnrOk, .xMonSeen]

theorem catchBegun_apart {x ref : Int} : Apart begunRegs.contains s (catchBegun c x ref s) := by
  unfold catchBegun
  refine apart_each (apart_each ?_ fun _ _ ht => apart_set ht) fun _ _ ht => apart_set ht
  exact apart_set (apart_set (apart_set (apart_set (apart_set (apart_set (apart_set (apart_set (apart_set (apart_set (Apart.refl s))))))))))

theorem catchServed_catch {x : Int} : Apart (beyond catchFigures) s (catchServed c k x s) := by
  have := fact_false
  have hs : Apart (beyond catchFigures) s ((s.setRx c { s.rx c with freq := 1000000 * x, ramp := 0, loop := none, since := 0, pilotPower := 0, pilotError := 0 }).rxFigures c k) :=
    catch_of_kept (kept_rxFigures (kept_setRx (Kept.refl s)))
  have hr : ∀ y : State, Apart (beyond catchFigures) y (y.catchRetune c k) := fun y =>
    apart_ite (Apart.refl y) (apart_set retune_catch)
  exact (hs.trans (hr _)).trans (catch_of_kept (kept_refreshRx (Kept.refl _)))

theorem catchServed_state {x : Int} : (catchServed c k x s).get .carrierState c = s.get .carrierState c := by
  have := fact_false
  have hr : ∀ y : State, Kept carriersScope y (y.catchRetune c k) := fun y =>
    kept_ite (Kept.refl y) (kept_set (kept_retune (Kept.refl y)) (hr := rfl))
  exact (kept_refreshRx (κ := carriersScope) ((kept_rxFigures (kept_setRx (Kept.refl s))).trans (hr _))).get

/-- The pending match becomes the tentative catch (R177). -/
theorem tentative_reports {x : Int} : (s.tentative c x).get .carrierState c = 2 ∧ (s.tentative c x).get .xMatchPending c = 0
    ∧ (s.tentative c x).get .carrierCatchMetric c = s.get .xMatchMetric c
    ∧ (s.tentative c x).get .carrierCatchMatchKind c = s.get .xMatchKind c
    ∧ (s.tentative c x).get .carrierCatchFreqHandover c = x ∧ (s.tentative c x).get .xFrameStart c = s.get .xMatchStart c
    ∧ (s.tentative c x).get .carrierCatchFrames c = 0 ∧ Safety.countedBy s (s.tentative c x) .carrierCatchEntries c 1
    ∧ (s.tentative c x).get .carrierCatchConfirmations c = (if s.get .xMatchKind c = 0 then 1 else 0)
    ∧ (s.tentative c x).get .carrierCatchPreemptions c = s.get .carrierCatchPreemptions c := by
  have hm : ∀ {r i}, r ≠ .carrierState → r ≠ .carrierStateChanges → r ≠ .xMatchPending → (matchTaken c s).get r i = s.get r i := matchTaken_get
  have hg : ∀ {r} , r ∈ catchFigures → (s.tentative c x).get r c
      = (catchNoted c (s.get .xMatchKind c) (s.nat .xMatchRate c) x (matchTaken c s)).get r c := fun {r} hr => by
    have h1 : r ∉ [Reg.xWiringDue] := by revert r; decide
    have h2 : r ∉ begunRegs := by revert r; decide
    rw [tentative_eq, catchServed_catch.get hr, wiringTaken_apart.regs _ _ (by simpa using h1), catchBegun_apart.regs _ _ (by simpa using h2)]
  refine ⟨?_, ?_, ?_, ?_, ?_, ?_, ?_, ?_, ?_, ?_⟩
  · rw [tentative_eq, catchServed_state, wiringTaken_apart.regs _ _ rfl, catchBegun_apart.regs _ _ rfl]
    simp (disch := decide) only [catchNoted, get_set_reg, get_bump_other (.inl _)]
    rw [matchTaken, get_set_reg _ _ (by decide), setCarrierState_get, if_pos rfl]
    rfl
  · rw [hg (by decide)]
    simp (disch := decide) only [catchNoted, get_set_reg, get_bump_other (.inl _)]
    exact get_set_same _ _ _ _
  · rw [hg (by decide)]
    simp (disch := decide) only [catchNoted, get_set_reg, get_set_same, get_bump_other (.inl _), matchTaken_get]
  · rw [hg (by decide)]
    simp (disch := decide) only [catchNoted, get_set_reg, get_set_same, get_bump_other (.inl _), matchTaken_get]
  · rw [hg (by decide)]
    simp (disch := decide) only [catchNoted, get_set_reg, get_set_same, get_bump_other (.inl _), matchTaken_get]
  · rw [hg (by decide)]
    simp (disch := decide) only [catchNoted, get_set_reg, get_set_same, matchTaken_get]
  · rw [hg (by decide)]
    simp (disch := decide) only [catchNoted, get_set_same, matchTaken_get]
  · rw [Safety.countedBy, hg (by decide)]
    simp (disch := decide) only [catchNoted, get_set_reg, get_bump_same, State.nat, matchTaken_get]
  · rw [hg (by decide)]
    simp (disch := decide) only [catchNoted, get_set_reg, get_set_same, matchTaken_get]
  · rw [hg (by decide)]
    simp (disch := decide) only [catchNoted, get_set_reg, get_bump_other (.inl _), matchTaken_get]

/-! ## Pre-emption (R182) -/

theorem matchWeighed_first {x : MatchReading} (h1 : s.matchCounts c x = some k) (h2 : s.matchSame c k x = false) :
    s.bestMatch c [x] = some (k, x) := by
  rw [bestMatch_eq, List.foldl_cons, List.foldl_nil, matchWeighed, h1]
  dsimp only
  rw [h2, if_neg (by decide)]

/-- A catch that begins anew for match x. -/
def preempted (c : Nat) (k : Nat) (x : MatchReading) (s : State) : State :=
  (((s.bump .carrierCatchPreemptions c).seekEntry c 0).keepMatch c k x).tentative c x.frequency

theorem matchFound_preempts {x : MatchReading} (h : s.engineRuns c = true) (h2 : s.get .carrierState c = 2) (hs : s.flag .xSearch c = false)
    (hc : s.matchCounts c x = some k) (hm : s.matchSame c k x = false) (hp : s.preemptReference c + s.catchSet c 5 ≤ matchMetric x) :
    s.matchFound c [x] = preempted c k x (s.set .xSurveySeen c 1) := by
  have hg : ∀ {r i}, r ≠ .xSurveySeen → (s.set .xSurveySeen c 1).get r i = s.get r i := fun hr => get_set_reg _ _ hr
  have h1' : (s.set .xSurveySeen c 1).get .carrierState c ≠ 1 := by
    rw [hg (by decide), h2]
    decide
  have hn : ((s.set .xSurveySeen c 1).flag .xSearch c
      || decide (matchMetric x < (s.set .xSurveySeen c 1).preemptReference c + (s.set .xSurveySeen c 1).catchSet c 5)) = false := by
    unfold State.preemptReference State.catchSet State.flag
    rw [hg (by decide), hg (by decide), hg (by decide), hg (by decide), hg (by decide), ← State.flag, hs, Bool.false_or]
    exact decide_eq_false (by unfold State.preemptReference State.catchSet at hp; omega)
  unfold State.matchFound
  rw [h, if_neg (by decide), matchWeighed_first hc hm]
  dsimp only
  rw [if_neg h1', hn, if_neg (by decide)]
  rfl

theorem preempted_reports {x : MatchReading} : Safety.countedBy s (preempted c k x s) .carrierCatchPreemptions c 1
    ∧ (preempted c k x s).get .carrierState c = 2 ∧ (preempted c k x s).get .carrierCatchMetric c = matchMetric x
    ∧ (preempted c k x s).get .xFrameStart c = (matchStart x : Int) ∧ (preempted c k x s).get .carrierCatchFrames c = 0 := by
  obtain ⟨h1, -, h3, -, -, h6, h7, -, -, h10⟩ := tentative_reports (s := ((s.bump .carrierCatchPreemptions c).seekEntry c 0).keepMatch c k x)
    (c := c) (x := x.frequency)
  obtain ⟨-, -, g3, -, g5⟩ := keepMatch_reports (s := (s.bump .carrierCatchPreemptions c).seekEntry c 0) (c := c) (k := k) (x := x)
  refine ⟨?_, h1, h3.trans g3, h6.trans g5, h7⟩
  rw [Safety.countedBy, preempted, h10, keepMatch_apart.regs _ _ rfl, seekEntry_counts.get, get_bump_same]

/-! ## A loop that relocks (R62) -/

theorem txRelocked_reports : (s.txRelocked c).rxLoop c = s.rxLoop c
    ∧ (s.txRelocked c).txLoop c = (if s.txLoop c = 1 ∧ s.get .carrierState c ≠ 0 then 2 else s.txLoop c)
    ∧ (∀ i, (s.txRelocked c).get .xRelock i = s.get .xRelock i) ∧ ∀ i, (s.txRelocked c).get .carrierState i = s.get .carrierState i := by
  have hi : (!s.idle c) = true ↔ s.get .carrierState c ≠ 0 := by
    unfold State.idle
    simp
  have hlt : s.rxLoop c < 4 := Nat.mod_lt _ (by decide)
  unfold State.txRelocked
  by_cases h : s.txLoop c = 1 ∧ s.get .carrierState c ≠ 0
  · rw [if_pos (show s.txLoop c = 1 ∧ (!s.idle c) = true from ⟨h.1, hi.2 h.2⟩), if_pos h]
    have hb : ∀ (y : State) {r i}, r ∉ [Reg.xCalBand, .xCalBandLeft, .xCalBandOn] → (y.bandChosen (12 + c)).get r i = y.get r i :=
      fun y {r i} hr => by
        unfold State.bandChosen
        simp only [List.mem_cons, List.not_mem_nil, or_false, not_or] at hr
        rw [get_set_reg _ _ hr.2.2, get_set_reg _ _ hr.2.1, get_set_reg _ _ hr.1]
    obtain ⟨l1, l2⟩ := setLoops_loops (s := s) (n := c) (tx := 2) (rx := s.rxLoop c) (by decide) hlt
    refine ⟨?_, ?_, fun i => ?_, fun i => ?_⟩
    · rw [State.rxLoop, State.nat, hb _ (by decide), ← State.nat, ← State.rxLoop, l1]
    · rw [State.txLoop, State.nat, hb _ (by decide), ← State.nat, ← State.txLoop, l2]
    · rw [hb _ (by decide), State.setLoops, get_set_reg _ _ (by decide)]
    · rw [hb _ (by decide), State.setLoops, get_set_reg _ _ (by decide)]
  · rw [if_neg (show ¬ (s.txLoop c = 1 ∧ (!s.idle c) = true) from fun hc => h ⟨hc.1, hi.1 hc.2⟩), if_neg h]
    exact ⟨rfl, rfl, fun _ => rfl, fun _ => rfl⟩

/-- The receive loop locked at its rate, with the dispersion bank for it. -/
def rateServed (c : Nat) (s : State) : State :=
  (((s.set .xRelock c 0).setLoops c (s.txLoop c) 2).bandChosen c).bankRefit (48 + c)
    ((((s.set .xRelock c 0).setLoops c (s.txLoop c) 2).bandChosen c).nat .xRxRate c)

/-- Survey and timing begin anew. -/
def lineRestarted (c : Nat) (s : State) : State :=
  let s := (s.surveyAll c).set .xTimGood c 0 |>.set .xTimBad c 0
    |>.setRx c { s.rx c with clock := none, pilotPower := 0, pilotError := 0 }
  if s.idle c then s else s.set .carrierRxTimingState c 1

/-- The catch goes on from its survey, or looks for the frame word. -/
def catchResumed (c : Nat) (s : State) : State :=
  if s.get .carrierState c = 2 then
    s.set .carrierCatchState c 3 |>.set .carrierCatchConfirmations c 0 |>.set .carrierCatchFrames c 0
      |>.set .xSearch c 1 |>.set .carrierCrState c 1
  else if s.get .carrierState c = 1 then s.seekState c
  else s

theorem loopRelocked_eq (h1 : s.flag .xRelock c = true) (h2 : s.rxLoop c ≠ 3) :
    s.loopRelocked c = ((catchResumed c (lineRestarted c (rateServed c (s.txRelocked c)))).refreshConv c).refreshRx c := by
  obtain ⟨g1, -, g3, -⟩ := txRelocked_reports (s := s) (c := c)
  have hn : ¬ (!(s.txRelocked c).flag .xRelock c || (s.txRelocked c).rxLoop c == 3) = true := by
    rw [State.flag, g3, ← State.flag, h1, g1]
    simpa using h2
  unfold State.loopRelocked
  dsimp only
  rw [if_neg hn]
  rfl

theorem rateServed_reports : (rateServed c s).rxLoop c = 2 ∧ (rateServed c s).txLoop c = s.txLoop c
    ∧ (rateServed c s).get .xRelock c = 0 ∧ (rateServed c s).get .carrierState c = s.get .carrierState c := by
  have := fact_false
  have hlt : s.txLoop c < 4 := Nat.mod_lt _ (by decide)
  obtain ⟨l1, l2⟩ := setLoops_loops (s := s.set .xRelock c 0) (n := c) (tx := s.txLoop c) (rx := 2) hlt (by decide)
  have hb : ∀ (y : State) k {r i}, r ∉ [Reg.xCalBand, .xCalBandLeft, .xCalBandOn] → clocksScope (Safety.part r) = true ∨
      carriersScope (Safety.part r) = true → ((y.bandChosen c).bankRefit (48 + c) k).get r i = y.get r i := fun y k {r i} hr hs => by
    have hg : ((y.bandChosen c).bankRefit (48 + c) k).get r i = (y.bandChosen c).get r i := hs.elim
      (fun h => (kept_bankRefit (κ := clocksScope) (Kept.refl _)).get h) fun h => (kept_bankRefit (κ := carriersScope) (Kept.refl _)).get h
    rw [hg]
    unfold State.bandChosen
    simp only [List.mem_cons, List.not_mem_nil, or_false, not_or] at hr
    rw [get_set_reg _ _ hr.2.2, get_set_reg _ _ hr.2.1, get_set_reg _ _ hr.1]
  refine ⟨?_, ?_, ?_, ?_⟩
  · rw [State.rxLoop, State.nat, rateServed, hb _ _ (by decide) (.inl rfl), ← State.nat, ← State.rxLoop, l1]
  · rw [State.txLoop, State.nat, rateServed, hb _ _ (by decide) (.inl rfl), ← State.nat, ← State.txLoop, l2]
  · rw [rateServed, hb _ _ (by decide) (.inl rfl), State.setLoops, get_set_reg _ _ (by decide), get_set_same]
  · rw [rateServed, hb _ _ (by decide) (.inr rfl), State.setLoops, get_set_reg _ _ (by decide), get_set_reg _ _ (by decide)]

/-- What a line that restarts writes. -/
abbrev lineRegs : List Reg := restartRegs ++ [.xTimGood, .xTimBad, .carrierRxTimingState]

theorem lineRestarted_apart : Apart lineRegs.contains s (lineRestarted c s) := by
  have hk : Apart lineRegs.contains s (((s.surveyAll c).set .xTimGood c 0).set .xTimBad c 0) :=
    apart_set (apart_set surveyAll_apart.widen)
  have hs : ∀ x : RxLine, Apart lineRegs.contains s ((((s.surveyAll c).set .xTimGood c 0).set .xTimBad c 0).setRx c x) := fun x => hk.other rfl
  exact apart_ite (hs _) (apart_set (hs _))

theorem lineRestarted_gates (hi : i < 8) : (lineRestarted c s).bit .carrierCatchGates c i = false := by
  have hs : ∀ x : RxLine, (((s.surveyAll c).set .xTimGood c 0 |>.set .xTimBad c 0).setRx c x).get .carrierCatchGates c
      = (s.surveyAll c).get .carrierCatchGates c := fun x => by
    rw [setRx_get, get_set_reg _ _ (by decide), get_set_reg _ _ (by decide)]
  have hg : (lineRestarted c s).get .carrierCatchGates c = (s.surveyAll c).get .carrierCatchGates c := by
    unfold lineRestarted
    dsimp only
    split
    · exact hs _
    · rw [get_set_reg _ _ (by decide), hs]
  rw [State.bit, State.nat, hg, ← State.nat, ← State.bit, surveyAll_gates hi]

abbrev resumedRegs : List Reg := [.carrierCatchState, .carrierCatchConfirmations, .carrierCatchFrames, .xSearch, .carrierCrState]

theorem catchResumed_apart : Apart resumedRegs.contains s (catchResumed c s) :=
  apart_ite (apart_set (apart_set (apart_set (apart_set (apart_set (Apart.refl s)))))) (apart_ite (apart_set (Apart.refl s)) (Apart.refl s))

/-- A relocked receive loop (R62, R175, R179). -/
theorem loopRelocked_reports (h1 : s.flag .xRelock c = true) (h2 : s.rxLoop c ≠ 3) : (s.loopRelocked c).get .xRelock c = 0
    ∧ (s.loopRelocked c).rxLoop c = 2
    ∧ (s.loopRelocked c).txLoop c = (if s.txLoop c = 1 ∧ s.get .carrierState c ≠ 0 then 2 else s.txLoop c)
    ∧ (s.get .carrierState c = 1 → (s.loopRelocked c).get .carrierCatchState c = (if (s.loopRelocked c).get .carrierCatchGates c = 0 then 1 else 2)
      ∧ ∀ i < 8, (s.loopRelocked c).bit .carrierCatchGates c i = false)
    ∧ (s.get .carrierState c = 2 → (s.loopRelocked c).get .carrierCatchState c = 3 ∧ (s.loopRelocked c).get .carrierCatchConfirmations c = 0
      ∧ (s.loopRelocked c).get .xSearch c = 1) := by
  obtain ⟨-, a2, -, a4⟩ := txRelocked_reports (s := s) (c := c)
  obtain ⟨b1, b2, b3, b4⟩ := rateServed_reports (s := s.txRelocked c) (c := c)
  rw [a2] at b2
  rw [a4] at b4
  have he : ∀ {r i}, r ∉ [Reg.carrierRxPolState, .carrierRxHolding, .adcState, .dacState] →
      (s.loopRelocked c).get r i = (catchResumed c (lineRestarted c (rateServed c (s.txRelocked c)))).get r i := fun {r i} hr => by
    simp only [List.mem_cons, List.not_mem_nil, or_false, not_or] at hr
    rw [loopRelocked_eq h1 h2, refreshRx_apart.regs _ _ (by simp [hr]), refreshConv_get hr.2.2.1 hr.2.2.2]
  generalize rateServed c (s.txRelocked c) = y at *
  have hl : ∀ {r i}, r ∉ lineRegs → (lineRestarted c y).get r i = y.get r i :=
    fun {r i} hr => lineRestarted_apart.regs r i (by simpa using hr)
  have hk : ∀ {r i}, r ∉ [Reg.carrierRxPolState, .carrierRxHolding, .adcState, .dacState] → r ∉ resumedRegs →
      r ∉ lineRegs → (s.loopRelocked c).get r i = y.get r i := fun {r i} g1 g2 g3 => by
    rw [he g1, catchResumed_apart.regs _ _ (by simpa using g2), hl g3]
  have hgate : ∀ {i}, (s.loopRelocked c).get .carrierCatchGates i = (lineRestarted c y).get .carrierCatchGates i := fun {i} => by
    rw [he (by decide), catchResumed_apart.regs _ _ rfl]
  refine ⟨?_, ?_, ?_, fun h => ⟨?_, fun i hi => ?_⟩, fun h => ?_⟩
  · rw [hk (by decide) (by decide) (by decide), b3]
  · rw [State.rxLoop, State.nat, hk (by decide) (by decide) (by decide), ← State.nat, ← State.rxLoop, b1]
  · rw [State.txLoop, State.nat, hk (by decide) (by decide) (by decide), ← State.nat, ← State.txLoop, b2]
  · have hst : (lineRestarted c y).get .carrierState c = 1 := by rw [hl (by decide), b4, h]
    have hr : (lineRestarted c y).flag .xRelock c = false := by
      rw [State.flag, hl (by decide), b3]
      rfl
    rw [hgate, he (by decide), catchResumed, if_neg (by rw [hst]; decide), if_pos hst, seekState_get hr]
  · rw [State.bit, State.nat, hgate, ← State.nat, ← State.bit, lineRestarted_gates hi]
  · have hst : (lineRestarted c y).get .carrierState c = 2 := by rw [hl (by decide), b4, h]
    rw [he (by decide), he (by decide), he (by decide), catchResumed, if_pos hst]
    refine ⟨?_, ?_, ?_⟩ <;> simp (disch := decide) only [get_set_reg, get_set_same]

/-! ## Confirmation (R179) -/

theorem polCentre_down (h : s.upLine c = false) : s.polCentre c = s := by
  unfold State.polCentre
  rw [h]
  rfl

/-- What the recovery of a carrier leaves but for its line. -/
abbrev polLineScope : Scope := fun p => match p with
  | .events | .recovery | .housekeeping | .captures => false
  | _ => true

/-- What a frame start leaves of a Tentative carrier's line up to its confirmation. -/
theorem frameTaken_rx {q : Bool} (h : s.get .carrierState c = 2) : (frameTaken c q w s).rx c = s.rx c := by
  have := fact_false
  have hu : (sequenceSeen c w ((frontMeasured c w s).monitors c q w)).upLine c = false := by
    refine decide_eq_false ?_
    rw [sequenceSeen_kept.get, monitors_kept.get, frontMeasured_kept.get, h]
    decide
  rw [frameTaken, frequencyTaken, polCentre_down hu, rx_congr ((kept_frequencyEval (κ := polLineScope) (Kept.refl _)).sameRxLine rfl),
    rx_congr (sequenceSeen_kept.sameRxLine rfl), rx_congr (monitors_kept.sameRxLine rfl), rx_congr (frontMeasured_kept.sameRxLine rfl)]

theorem pilotSnr_congr (h : t.rx c = s.rx c) : t.pilotSnr c w = s.pilotSnr c w := by
  unfold State.pilotSnr
  rw [h]

/-- The measured pilot powers begin anew with a frame. -/
def pilotCleared (c : Nat) (s : State) : State := s.setRx c { s.rx c with pilotPower := 0, pilotError := 0 }

/-- A frame word expected is counted, with its pilot SNR. -/
def wordExpected (c : Nat) (x : Option Int) (s : State) : State :=
  (s.set .carrierCatchFrames c (s.get .carrierCatchFrames c + 1)).snrTake c x

/-- A frame word confirmed. -/
def wordConfirmed (c : Nat) (metric : Int) (s : State) : State :=
  (s.set .carrierCatchConfirmations c (min 255 (s.get .carrierCatchConfirmations c + 1))).set .xConfirmRef c metric

/-- What a confirmation leads to. -/
def confirmJudged (c : Nat) (w : FrameReading) (s : State) : State :=
  if 8 ≤ s.get .carrierCatchConfirmations c ∧ s.snrList c ≠ [] ∧ s.catchSet c 4 * (s.snrList c).length ≤ (s.snrList c).sum then
    s.enterLocked c w.rms
  else if 32 ≤ s.get .carrierCatchFrames c then s.abandonCatch c
  else s

/-- What an expected frame word writes. -/
abbrev confirmRegs : List Reg := [.carrierCatchFrames, .carrierCatchPilotSnr, .xSnr, .xSnrOk, .xSnrAt]

theorem wordExpected_apart {x : Option Int} : Apart confirmRegs.contains s (wordExpected c x s) := by
  have hs : Apart confirmRegs.contains s (s.set .carrierCatchFrames c (s.get .carrierCatchFrames c + 1)) := apart_set (Apart.refl s)
  unfold wordExpected State.snrTake
  cases x with
  | none => exact apart_set (apart_set hs)
  | some v => exact apart_set (apart_set (apart_set (apart_set hs)))

theorem confirmEval_confirms (h1 : s.flag .xSearch c = false) (h2 : s.wordErased c w = false) (h3 : s.catchSet c 3 ≤ w.metric) :
    s.confirmEval c w = confirmJudged c w (wordConfirmed c w.metric (wordExpected c (some (s.pilotSnr c w)) (pilotCleared c s))) := by
  have hs : (s.setRx c { s.rx c with pilotPower := 0, pilotError := 0 }).flag .xSearch c = false := h1
  have hc : (wordExpected c (some (s.pilotSnr c w)) (pilotCleared c s)).catchSet c 3 ≤ w.metric := by
    unfold State.catchSet
    rw [wordExpected_apart.regs _ _ rfl]
    exact h3
  unfold State.confirmEval
  extract_lets er sn r a y x l
  have her : er = false := h2
  clear_value er
  subst her
  have hx : x = wordConfirmed c w.metric (wordExpected c (some sn) a) :=
    (if_neg (by rw [show a.flag .xSearch c = false from hs]; exact Bool.false_ne_true)).trans ((if_neg Bool.false_ne_true).trans (if_pos hc))
  clear_value x
  subst hx
  rfl

theorem confirmEval_erased (h1 : s.flag .xSearch c = false) (h2 : s.wordErased c w = true) :
    s.confirmEval c w = confirmJudged c w (wordExpected c none (pilotCleared c s)) := by
  have hs : (s.setRx c { s.rx c with pilotPower := 0, pilotError := 0 }).flag .xSearch c = false := h1
  unfold State.confirmEval
  extract_lets er sn r a y x l
  have her : er = true := h2
  clear_value er
  subst her
  have hx : x = wordExpected c none a :=
    (if_neg (by rw [show a.flag .xSearch c = false from hs]; exact Bool.false_ne_true)).trans (if_pos rfl)
  clear_value x
  subst hx
  rfl

theorem wordExpected_frames {x : Option Int} : (wordExpected c x s).get .carrierCatchFrames c = s.get .carrierCatchFrames c + 1 := by
  unfold wordExpected State.snrTake
  cases x <;> simp (disch := decide) only [get_set_reg, get_set_same]

theorem wordExpected_eq : ∃ x, wordExpected c (some v) s
    = ((((s.set .carrierCatchFrames c (s.get .carrierCatchFrames c + 1)).set .carrierCatchPilotSnr c v).set .xSnr (8 * c + s.nat .xSnrAt c % 8) v).set
        .xSnrOk (8 * c + s.nat .xSnrAt c % 8) 1).set .xSnrAt c x := by
  have hn : (s.set .carrierCatchFrames c (s.get .carrierCatchFrames c + 1)).nat .xSnrAt c = s.nat .xSnrAt c := by
    rw [State.nat, get_set_reg _ _ (by decide), ← State.nat]
  unfold wordExpected State.snrTake
  dsimp only
  rw [hn]
  exact ⟨_, rfl⟩

theorem wordExpected_ok : (wordExpected c (some v) s).get .xSnrOk i = if i = 8 * c + s.nat .xSnrAt c % 8 then 1 else s.get .xSnrOk i := by
  obtain ⟨x, hx⟩ := wordExpected_eq (s := s) (c := c) (v := v)
  rw [hx, get_set_reg _ _ (by decide)]
  split
  · rename_i h
    rw [h, get_set_same]
  · rename_i h
    rw [get_set_other _ _ (by simp [h])]
    simp (disch := decide) only [get_set_reg]

theorem wordExpected_snr : (wordExpected c (some v) s).get .xSnr (8 * c + s.nat .xSnrAt c % 8) = v := by
  obtain ⟨x, hx⟩ := wordExpected_eq (s := s) (c := c) (v := v)
  rw [hx]
  simp (disch := decide) only [get_set_reg, get_set_same]

theorem filter_range_one {q : Nat → Bool} {a : Nat} (ha : a < n) (hq : ∀ j < n, q j = true ↔ j = a) : (List.range n).filter q = [a] := by
  have h : (List.range n).filter q = (List.range n).filter (· == a) := List.filter_congr fun j hj => by
    rw [Bool.eq_iff_iff, hq j (List.mem_range.1 hj), beq_iff_eq]
  rw [h, List.filter_beq, List.count_eq_one_of_mem List.nodup_range (List.mem_range.2 ha)]
  rfl

/-- The first pilot SNR of a catch counts alone. -/
theorem wordExpected_list (h : ∀ j : Fin 8, s.flag .xSnrOk (8 * c + j.val) = false) : (wordExpected c (some v) s).snrList c = [v] := by
  have hq : ∀ j < 8, (wordExpected c (some v) s).flag .xSnrOk (8 * c + j) = true ↔ j = s.nat .xSnrAt c % 8 := fun j hj => by
    unfold State.flag
    rw [wordExpected_ok]
    by_cases he : j = s.nat .xSnrAt c % 8
    · rw [if_pos (by rw [he])]
      simp [he]
    · rw [if_neg (by omega)]
      have hf := h ⟨j, hj⟩
      unfold State.flag at hf
      simp [he, hf]
  unfold State.snrList
  rw [filter_range_one (a := s.nat .xSnrAt c % 8) (Nat.mod_lt _ (by decide)) hq, List.map_cons, List.map_nil, wordExpected_snr]

theorem snrList_congr (h1 : ∀ i, t.get .xSnrOk i = s.get .xSnrOk i) (h2 : ∀ i, t.get .xSnr i = s.get .xSnr i) :
    t.snrList c = s.snrList c := by
  unfold State.snrList State.flag
  simp only [h1, h2]

/-! ## Lock and abandonment (R179, R181) -/

/-- What a lock writes before its defects and its group. -/
abbrev lockRegs : List Reg := [.carrierCatchLevel, .carrierCatchLevelValid, .carrierCatchLevelUpdates, .carrierCatchState, .carrierCatchGates,
  .carrierCatchTime, .xAbandonRun, .xFailRaised, .carrierCrState, .xTpgKnown, .carrierTtiValid, .xTtiRun, .xGroupErased, .xMfArrival]

/-- The figures of a lock (R179, R185). -/
def lockNoted (c : Nat) (l : List Int) (s : State) : State :=
  (s.setCarrierState c csLocked).set .carrierCatchLockSnr c (l.sum / max 1 (l.length : Int))

/-- The level latched and the catch ended. -/
def lockTold (c : Nat) (rms : Vector (Fin 65536) 4) (s : State) : State :=
  let s := if s.get .carrierCatchQualityMode c = 0 then s.levelTake c ((channels c).map fun a => (chan rms a 0).val)
    else s
  s |>.set .carrierCatchState c 0 |>.set .carrierCatchGates c 0
    |>.set .carrierCatchTime c ((s.get .xTicks 0 - s.get .xSeekTick c + 249) / 250)
    |>.set .xAbandonRun c 0 |>.set .xFailRaised c 0 |>.set .carrierCrState c 2
    |>.set .xTpgKnown c 0 |>.set .carrierTtiValid c 0 |>.set .xTtiRun c 0 |>.set .xGroupErased c 0 |>.set .xMfArrival c 0

/-- Defects and bonding start. -/
def lockJoined (c : Nat) (s : State) : State :=
  let s := s.defectsLocked c
  if s.get .carrierBondGroup c = 0xFF then s else (s.set .xBondRun c 0).setMember c (if s.rateApart c then 5 else 2)

theorem enterLocked_eq {l : Vector (Fin 65536) 4} : ∃ x : List Item, s.enterLocked c l
    = ((lockJoined c (lockTold c l (lockNoted c (s.snrList c) s))).raise (evCarrier c 38) x).refreshRx c := ⟨_, rfl⟩

theorem lockTold_apart {l : Vector (Fin 65536) 4} : Apart lockRegs.contains s (lockTold c l s) := by
  unfold lockTold
  extract_lets a
  have ha : Apart lockRegs.contains s a := apart_ite levelTake_apart.widen (Apart.refl s)
  exact apart_set (apart_set (apart_set (apart_set (apart_set (apart_set (apart_set (apart_set (apart_set (apart_set (apart_set ha))))))))))

/-- What joining after a lock leaves. -/
abbrev lockScope : Scope := fun p => match p with
  | .defects | .overhead | .events | .bonding | .housekeeping | .captures => false
  | _ => true

theorem lockJoined_kept : Kept lockScope s (lockJoined c s) := by
  have := fact_false
  have hd : Kept lockScope s (s.defectsLocked c) := kept_defectsLocked (Kept.refl s)
  exact kept_ite hd (kept_setMember (kept_set hd (hr := rfl)))

theorem silent_lockJoined (h1 : e ≠ evDev 132) (h2 : e ≠ evCarrier c 13) (h3 : e ≠ evCarrier c 14) : Silent e s (lockJoined c s) := by
  have hm : ∀ (y : State) v, Silent e y (y.setMember c v) := fun y v => by
    unfold State.setMember
    extract_lets was a b
    have hb : Silent e y b := silent_ite (silent_set Silent.refl) (silent_set (silent_set (silent_set (silent_set Silent.refl))))
    exact silent_ite Silent.refl (silent_ite (silent_raise (silent_bump hb) h1 h2) (silent_ite (silent_raise hb h1 h3) hb))
  have := fact_false
  have hd : Silent e s (s.defectsLocked c) := Silent.refl.kept (kept_defectsLocked (Kept.refl s))
  exact silent_ite hd ((silent_set hd).trans (hm _ _))

/-- A lock (R179): the carrier is Locked, its pilot SNR latched and told. -/
theorem enterLocked_reports {l : Vector (Fin 65536) 4} (hs : s.snrList c = [v]) : (s.enterLocked c l).get .carrierState c = 3
    ∧ (s.enterLocked c l).get .carrierCatchLockSnr c = v ∧ (s.enterLocked c l).get .carrierCatchState c = 0
    ∧ Safety.raised s (s.enterLocked c l) (evCarrier c 38) := by
  obtain ⟨x, hx⟩ := enterLocked_eq (s := s) (c := c) (l := l)
  have h132 : evCarrier c 38 ≠ evDev 132 := by
    unfold evCarrier evDev
    omega
  have hne : ∀ k, k < 15 → evCarrier c 38 ≠ evCarrier c k := fun k hk => by
    unfold evCarrier
    omega
  have hg : ∀ {r i}, r ∉ [Reg.carrierRxPolState, .carrierRxHolding] → lockScope (Safety.part r) = true →
      ((lockJoined c (lockTold c l (lockNoted c (s.snrList c) s))).raise (evCarrier c 38) x).get r i
        = (lockJoined c (lockTold c l (lockNoted c (s.snrList c) s))).get r i →
      (s.enterLocked c l).get r i = (lockTold c l (lockNoted c (s.snrList c) s)).get r i := fun {r i} h1 h2 h3 => by
    rw [hx, refreshRx_apart.regs _ _ (by simpa using h1), h3, lockJoined_kept.get h2]
  have hn : Silent (evCarrier c 38) s (lockTold c l (lockNoted c (s.snrList c) s)) := by
    refine Silent.trans ?_ (lockTold_apart.regs _ _ rfl)
    exact (get_set_reg _ _ (by decide)).trans (setCarrierState_get_other (by decide) (by decide))
  refine ⟨?_, ?_, ?_, ?_⟩
  · rw [hg (by decide) rfl (get_raise rfl), lockTold_apart.regs _ _ rfl, lockNoted, get_set_reg _ _ (by decide), setCarrierState_get, if_pos rfl]
    rfl
  · rw [hg (by decide) rfl (get_raise rfl), lockTold_apart.regs _ _ rfl, lockNoted, get_set_same, hs]
    simp
  · rw [hg (by decide) rfl (get_raise rfl), lockTold]
    simp (disch := decide) only [get_set_reg, get_set_same]
  · rw [hx]
    refine Silent.raised_after (refreshRx_apart.regs _ _ rfl) (Silent.raised (hn.trans ?_) h132)
    exact silent_lockJoined h132 (hne _ (by decide)) (hne _ (by decide))

/-! ## Frame starts of a Tentative carrier -/

theorem raised_of_before {e : Nat} (hs : Silent e s t) (ht : Silent e u s₀) (hr : Safety.raised t u e) : Safety.raised s s₀ e :=
  raised_of_silent hs (ht.raised_after hr)

/-- What a frame start of a Tentative carrier leads to. -/
theorem frameStart_tentative (h : s.get .carrierState c = 2) (hr : s.rxStopped c = false) :
    s.frameStart c w = frameEnded c w.metric (s.wordErased c w)
      ((frameTaken c (s.sideLive c 0 || s.sideLive c 1) w (sidesJudged c s)).confirmEval c w) := by
  rw [frameStart_runs (by rw [h]) hr, if_pos]
  rw [frameTaken_state, sidesJudged_get, h]

/-- What stands when a frame word is judged. -/
theorem frameTaken_judges {q : Bool} (h : s.get .carrierState c = 2) :
    (frameTaken c q w (sidesJudged c s)).wordErased c w = s.wordErased c w
    ∧ (frameTaken c q w (sidesJudged c s)).pilotSnr c w = s.pilotSnr c w
    ∧ ∀ r i, Safety.part r = .catching → (frameTaken c q w (sidesJudged c s)).get r i = s.get r i := by
  have hx : (frameTaken c q w (sidesJudged c s)).rx c = s.rx c := by
    rw [frameTaken_rx (by rw [sidesJudged_get, h]), sidesJudged_rx]
  refine ⟨wordErased_congr hx, pilotSnr_congr hx, fun r i hr => ?_⟩
  have hs : ∀ κ : Scope, κ .catching = true → κ (Safety.part r) = true := fun κ hk => by rw [hr, hk]
  rw [frameTaken_get (hs _ rfl) (hs _ rfl) (hs _ rfl) (hs _ rfl), sidesJudged_get (hs _ rfl)]

theorem silent_sequenceSeen (h1 : e ≠ evDev 132) (h2 : e ≠ evCarrier c 34) : Silent e s (sequenceSeen c w s) := by
  unfold sequenceSeen State.polReinit
  extract_lets a
  have ha : Silent e s a := silent_set Silent.refl
  have hb : ∀ x, Silent e s (a.setBlob .xPolTaps c x) := fun x => ha.trans (setBlob_get _ _ _ _ _ _)
  exact silent_ite Silent.refl (silent_ite (silent_raise (silent_bump (silent_set (hb _))) h1 h2) ha)

theorem silent_frameTaken {q : Bool} (h1 : e ≠ evDev 132) (h2 : ∀ k < 11, e ≠ evCarrier c (27 + k)) :
    Silent e s (frameTaken c q w (sidesJudged c s)) :=
  (((silent_sidesJudged h1 (h2 9 (by decide))).trans (silent_frontMeasured h1 (h2 8 (by decide)))).trans
    (silent_monitors h1 fun k hk => h2 k (by omega))).trans ((silent_sequenceSeen h1 (h2 7 (by decide))).trans
      (silent_frequencyTaken h1 (h2 10 (by decide))))

/-- The carrier's eighth confirmation locks it (R179). -/
theorem confirmEval_locks (h1 : s.flag .xSearch c = false) (h2 : s.wordErased c w = false) (h3 : s.catchSet c 3 ≤ w.metric)
    (h4 : 7 ≤ s.get .carrierCatchConfirmations c) (h5 : ∀ j : Fin 8, s.flag .xSnrOk (8 * c + j.val) = false)
    (h6 : s.catchSet c 4 ≤ s.pilotSnr c w) : (s.confirmEval c w).get .carrierState c = 3
    ∧ (s.confirmEval c w).get .carrierCatchLockSnr c = s.pilotSnr c w ∧ (s.confirmEval c w).get .carrierCatchState c = 0
    ∧ Safety.raised s (s.confirmEval c w) (evCarrier c 38) := by
  have hx := confirmEval_confirms h1 h2 h3
  have hp : ∀ r i, (pilotCleared c s).get r i = s.get r i := fun r i => setRx_get _ _ _ _ _
  have hl : (wordExpected c (some (s.pilotSnr c w)) (pilotCleared c s)).snrList c = [s.pilotSnr c w] :=
    wordExpected_list fun j => by rw [State.flag, hp, ← State.flag, h5 j]
  have hw : ∀ {r i}, r ∉ confirmRegs → (wordExpected c (some (s.pilotSnr c w)) (pilotCleared c s)).get r i = s.get r i :=
    fun {r i} hr => (wordExpected_apart.regs _ _ (by simpa using hr)).trans (hp _ _)
  generalize wordExpected c (some (s.pilotSnr c w)) (pilotCleared c s) = y at *
  have hk : ∀ {r i}, r ≠ .carrierCatchConfirmations → r ≠ .xConfirmRef → (wordConfirmed c w.metric y).get r i = y.get r i :=
    fun h1 h2 => (get_set_reg _ _ h2).trans (get_set_reg _ _ h1)
  have hl' : (wordConfirmed c w.metric y).snrList c = [s.pilotSnr c w] :=
    (snrList_congr (fun _ => hk (by decide) (by decide)) fun _ => hk (by decide) (by decide)).trans hl
  have hc : (wordConfirmed c w.metric y).catchSet c 4 = s.catchSet c 4 := by
    unfold State.catchSet
    rw [hk (by decide) (by decide), hw (by decide)]
  have h8 : 8 ≤ (wordConfirmed c w.metric y).get .carrierCatchConfirmations c := by
    rw [wordConfirmed, get_set_reg _ _ (by decide), get_set_same, hw (by decide)]
    omega
  have he : s.confirmEval c w = (wordConfirmed c w.metric y).enterLocked c w.rms := by
    rw [hx, confirmJudged, if_pos]
    rw [hl', hc]
    exact ⟨h8, by simp, by simpa using h6⟩
  obtain ⟨g1, g2, g3, g4⟩ := enterLocked_reports (l := w.rms) hl'
  rw [he]
  exact ⟨g1, g2, g3, raised_of_silent ((hk (by decide) (by decide)).trans (hw (by decide))) g4⟩

/-- The 32nd frame start without a lock abandons the catch (R181). -/
theorem confirmEval_abandons (h1 : s.flag .xSearch c = false) (h2 : s.wordErased c w = true) (h3 : s.get .carrierCatchConfirmations c < 8)
    (h4 : s.get .carrierCatchFrames c = 31) : (s.confirmEval c w).get .carrierState c = 1
    ∧ Safety.countedBy s (s.confirmEval c w) .carrierCatchAbandons c 1 := by
  have hw : ∀ {r i}, r ∉ confirmRegs → (wordExpected c none (pilotCleared c s)).get r i = s.get r i :=
    fun {r i} hr => (wordExpected_apart.regs _ _ (by simpa using hr)).trans (setRx_get _ _ _ _ _)
  have hf : (wordExpected c none (pilotCleared c s)).get .carrierCatchFrames c = 32 := by
    rw [wordExpected_frames, pilotCleared, setRx_get, h4]
    rfl
  have he : s.confirmEval c w = (wordExpected c none (pilotCleared c s)).abandonCatch c := by
    rw [confirmEval_erased h1 h2, confirmJudged, if_neg, if_pos (by rw [hf])]
    rw [hw (by decide)]
    omega
  rw [he]
  generalize wordExpected c none (pilotCleared c s) = y at *
  unfold State.abandonCatch
  extract_lets a b
  have ha : a.get .carrierCatchAbandons c = ((s.nat .carrierCatchAbandons c + 1) % 2 ^ Reg.bits .carrierCatchAbandons : Nat) := by
    rw [get_set_reg _ _ (by decide), get_bump_same, State.nat, hw (by decide), ← State.nat]
  have hb : b.get .carrierCatchAbandons c = a.get .carrierCatchAbandons c := by
    dsimp only [b]
    split
    · rw [get_raise rfl, get_set_reg _ _ (by decide)]
    · rfl
  refine ⟨toSeeking_state.1, ?_⟩
  rw [Safety.countedBy, toSeeking_counts.get (by decide), hb, ha]

end Sys2Proof.Laws

namespace Sys2Proof

open Sys2Proof.Machine Sys2Proof.Laws

/-- Settles O28: a survey writes the gates last, a match kept in Seeking is one of the highest metric, and a frame start
judges a confirmation after everything that could change what it reads. -/
theorem theCatchLeadsToLockOrIsAbandoned : Obligations.TheCatchLeadsToLockOrIsAbandoned := by
  refine ⟨⟨fun s c l x y hp h => ?_, fun s c l m hp h h1 h2 hm hc => ?_, fun s c l h => ?_, fun s c m r hp h h1 h2 h3 h4 h5 => ?_,
    fun s c f hp h1 h2 h3 => ?_, fun s c hp h1 h2 => ?_⟩, fun s c m hp h1 h2 h3 h4 h5 h6 h7 h8 => ?_,
    fun s c m hp h1 h2 h3 h4 h5 h6 => ?_⟩
  · have hx := live_running (f := fun s => s.survey c l (x ++ y)) hp
    obtain ⟨g1, g2⟩ := survey_reports (l := l) (x := x ++ y) h
    exact ⟨_, hx, fun i hi => (g1 i i.isLt).trans (gateOpens_none hi), fun i r hr => (g1 i i.isLt).trans (gateOpens_some hr), g2⟩
  · have hb := bestMatch_best (l := l) fun x k => matchSame_seeking (x := x) (k := k) h1
    cases he : s.bestMatch c l with
    | none =>
      rw [he] at hb
      rw [hb m hm] at hc
      cases hc
    | some y =>
      rw [he] at hb
      obtain ⟨b1, b2, b3⟩ := hb
      obtain ⟨k1, k2, k3, k4, k5⟩ := keepMatch_reports (s := s.set .xSurveySeen c 1) (c := c) (k := y.1) (x := y.2)
      refine ⟨_, y.2, y.1, (live_running (f := fun s => s.matchFound c l) hp).trans
        (congrArg Host.Outcome.next (matchFound_seeking h h1 h2 he)), b1, b2, b3, k1, k2, k3, k4, k5, ?_⟩
      have hk : Apart (List.contains (.xSurveySeen :: matchRegs)) s (s.set .xSurveySeen c 1) := apart_set (Apart.refl s)
      have ha : Apart (List.contains [Reg.xMatchPending, .xMatchRate, .xMatchCand, .xMatchMetric, .xMatchKind, .xMatchStart, .xMatchFreq,
          .xMatchMap, .xSurveySeen]) s ((s.set .xSurveySeen c 1).keepMatch c y.1 y.2) := hk.widen.trans keepMatch_apart.widen
      exact apart_iff.2 ha
  · exact live_still (f := fun s => s.matchFound c l) (matchFound_none h)
  · obtain ⟨g1, g2, g3, g4, g5⟩ := preempted_reports (s := s.set .xSurveySeen c 1) (c := c) (k := r) (x := m)
    refine ⟨_, (live_running (f := fun s => s.matchFound c [m]) hp).trans
      (congrArg Host.Outcome.next (matchFound_preempts h h1 h2 h3 h4 h5)), ?_, g2, g3, g4, g5⟩
    rw [Safety.countedBy, g1, State.nat, get_set_reg _ _ (by decide), ← State.nat]
  · have hx : exec (.tentativeEntry c f) s = .next (if s.get .carrierState c = 1 ∧ s.flag .xMatchPending c ∧ !s.rxStopped c then
        s.tentative c f else s) := live_running hp
    rw [if_pos ⟨h1, h2, by rw [h3]; rfl⟩] at hx
    obtain ⟨g1, g2, g3, g4, g5, g6, g7, g8, g9, -⟩ := tentative_reports (s := s) (c := c) (x := f)
    exact ⟨_, hx, g1, g2, g3, g4, g5, g6, g7, g8, g9⟩
  · obtain ⟨g1, g2, g3, g4, g5⟩ := loopRelocked_reports h1 h2
    exact ⟨_, live_running (f := fun s => s.loopRelocked c) hp, g1, g2, g3, g4, g5⟩
  · obtain ⟨k1, k2, k3⟩ := frameTaken_judges (w := m) (q := s.sideLive c 0 || s.sideLive c 1) h1
    have hs : ∀ n, (frameTaken c (s.sideLive c 0 || s.sideLive c 1) m (sidesJudged c s)).catchSet c n = s.catchSet c n := fun n => k3 _ _ rfl
    have hf : ∀ r i, Safety.part r = .catching →
        (frameTaken c (s.sideLive c 0 || s.sideLive c 1) m (sidesJudged c s)).flag r i = s.flag r i := fun r i hr => by
      rw [State.flag, k3 _ _ hr, ← State.flag]
    obtain ⟨g1, g2, g3, g4⟩ := confirmEval_locks ((hf _ _ rfl).trans h3) (k1.trans h4) ((hs 3).trans_le h5)
      (h6.trans_eq (k3 _ _ rfl).symm) (fun j => (hf _ _ rfl).trans (h7 j)) (((hs 4).trans_le h8).trans_eq k2.symm)
    refine ⟨_, (live_running (f := fun s => s.frameStart c m) hp).trans (congrArg Host.Outcome.next (frameStart_tentative h1 h2)),
      ?_, ?_, ?_, ?_⟩
    · rw [frameEnded_apart.regs _ _ rfl, g1]
    · rw [frameEnded_apart.regs _ _ rfl, g2, k2]
    · rw [frameEnded_apart.regs _ _ rfl, g3]
    · refine raised_of_before (silent_frameTaken ?_ fun k hk => ?_) (frameEnded_apart.regs _ _ rfl) g4
      · unfold evCarrier evDev
        omega
      · unfold evCarrier
        omega
  · obtain ⟨k1, k2, k3⟩ := frameTaken_judges (w := m) (q := s.sideLive c 0 || s.sideLive c 1) h1
    obtain ⟨g1, g2⟩ := confirmEval_abandons (s := frameTaken c (s.sideLive c 0 || s.sideLive c 1) m (sidesJudged c s))
      (by rw [State.flag, k3 _ _ rfl, ← State.flag, h3]) (k1.trans h4) ((k3 _ _ rfl).trans_lt h5) ((k3 _ _ rfl).trans h6)
    refine ⟨_, (live_running (f := fun s => s.frameStart c m) hp).trans (congrArg Host.Outcome.next (frameStart_tentative h1 h2)), ?_, ?_⟩
    · rw [frameEnded_apart.regs _ _ rfl, g1]
    · rw [Safety.countedBy, frameEnded_apart.regs _ _ rfl, g2, State.nat, k3 _ _ rfl, ← State.nat]

end Sys2Proof

/-! # Logical frames (R213 to R215, R225 to R229) -/

namespace Sys2Proof.Laws

set_option Elab.async false

open Sys2Proof.Machine

variable {s₀ s t u : State} {cl : Client} {r : Reg} {i j n m b c e f g p k d : Nat} {v : Int} {L : List Reg}
  {K : Reg → Bool} {gcc : List Byte}

/-! ## Bits of a frame -/

theorem length_flatMap_const {α β : Type} {l : List α} {x : α → List β} {n : Nat} (h : ∀ a ∈ l, (x a).length = n) :
    (l.flatMap x).length = l.length * n := by
  rw [List.length_flatMap, List.map_congr_left h, List.map_const', List.sum_replicate, smul_eq_mul]

theorem length_byteBits {l : List Byte} : (byteBits l).length = l.length * 8 := length_flatMap_const fun _ _ => by simp [bitsOf]

theorem length_scrambleBits : (scrambleBits n k).length = n := by
  induction n generalizing k with
  | zero => rfl
  | succ n ih => exact congrArg (· + 1) ih

theorem length_scramble {l : List Bool} : (scramble l).length = l.length := by
  unfold scramble xorBits
  rw [List.length_zipWith, length_scrambleBits, Nat.min_self]

theorem length_areaTags {x y : Nat → Nat} : (areaTags k n x).length = (areaBits k n y).length := by
  unfold areaTags areaBits
  dsimp only
  rw [List.length_take, List.length_take, List.length_drop, List.length_drop, length_flatMap_const (n := 64) fun _ _ => by simp,
    length_flatMap_const (n := 64) fun _ _ => by simp [bitsOf]]

theorem length_headBytes {h : FrameHead} : h.bytes.length = 256 := by
  have hb : ∀ n v, (bigEndian n v).length = n := fun n v => by simp [bigEndian]
  have hf : ∀ {α : Type} n (z : α) l, (fillTo n z l).length = n := fun n z l => by simp [fillTo]
  unfold FrameHead.bytes
  simp only [List.length_append, hb, hf, List.length_cons, List.length_nil, List.length_replicate,
    length_flatMap_const (x := bigEndian 8) (n := 8) fun _ _ => hb _ _]

/-- A frame with its tags is the frame. -/
theorem frame_tagged {h : FrameHead} {x y : Nat → Nat} :
    ((scramble (byteBits h.bytes ++ areaBits k n x ++ List.replicate m false)).zip
      (List.replicate 2048 0 ++ areaTags k n y ++ List.replicate m 0)).map Prod.fst
    = scramble (byteBits h.bytes ++ areaBits k n x ++ List.replicate m false) := by
  refine List.map_fst_zip ?_
  simp only [length_scramble, List.length_append, length_byteBits, length_headBytes, List.length_replicate, length_areaTags (y := x)]
  exact le_refl _

/-! ## Transmitted frames -/

/-- BEI of the next transmitted frame (R226). -/
def beiSent (c : Nat) (s : State) : Nat := if s.bdiSent c then 0 else min (s.nat .xBeiStore c) 15

/-- A frame begins: BEI leaves its store, the trace and a burst are taken. -/
def frameBegun (c : Nat) (gcc : List Byte) (s : State) : State :=
  let n := s.nat .xTxFnum c
  let y := s.set .xBeiStore c (if s.bdiSent c then 0 else s.get .xBeiStore c - beiSent c s)
  let y := if n % 64 = 0 then y.setBlob .xTtiSent c (y.traceOf .carrierTtiTransmit c) else y
  (y.gccTake c gcc).set .xTxFnum c (((n + 1) % 256 : Nat) : Int)

/-- The overhead of a frame that has begun; s is the state before it, which gives BEI, BDI and the rows of the next multiframe. -/
def headSent (c : Nat) (s y : State) : FrameHead :=
  ⟨s.nat .xTxFnum c, y.nat .xTxBsq c, (y.traceOf .xTtiSent c).getD (s.nat .xTxFnum c % 64) 0, (y.tx c).bip, beiSent c s, s.bdiSent c,
    y.statSent c, y.flag .xTpgTx c, y.get .xAnnounce c == 2, padTo 10 (y.blob .xOhpIn c),
    (entrySlots (s.nat .xTxFnum c)).map fun j => y.entryFor c j (s.rowsNext c)⟩

/-- What a sent frame tells. -/
def headTold (c : Nat) (h : FrameHead) : Output := .overhead c h.fnum h.bsq h.tti h.bei h.bdi h.stat h.tpg h.fann h.gcc

theorem txLogical_eq {x : Vector Byte 10} (h1 : s.get .carrierState c ≠ 0) (h2 : s.nat .carrierFecProfileInForce c ≠ 2) :
    s.txLogical c x = ((frameBegun c x.toList s).frameOut c (headSent c s (frameBegun c x.toList s))).emit
      (headTold c (headSent c s (frameBegun c x.toList s))) := by
  have hi : ¬ s.idle c = true := by simpa [State.idle] using h1
  unfold State.txLogical
  rw [if_neg hi, if_neg (show ¬ _ = profCompatible from h2)]
  rfl

theorem txLogical_compatible {x : Vector Byte 10} (h1 : s.get .carrierState c ≠ 0) (h2 : s.nat .carrierFecProfileInForce c = 2) :
    s.txLogical c x = s.gccTake c x.toList := by
  have hi : ¬ s.idle c = true := by simpa [State.idle] using h1
  unfold State.txLogical
  rw [if_neg hi, if_pos (show _ = profCompatible from h2)]

abbrev burstRegs : List Reg := [.xOhpOn, .xOhpOut, .xOhpIn, .carrierOhpInBursts]

theorem portTake_apart : Apart [Reg.xOhpOn, .xOhpOut].contains s (s.portTake c) :=
  apart_ite (apart_set (Apart.refl s)) (apart_setBlob (apart_set (Apart.refl s)))

theorem portTake_on : (s.portTake c).get .xOhpOn c = s.get .carrierOhpEnable c := by
  unfold State.portTake
  dsimp only
  split
  · exact get_set_same _ _ _ _
  · exact (setBlob_get _ _ _ _ _ _).trans (get_set_same _ _ _ _)

theorem gccTake_apart : Apart burstRegs.contains s (s.gccTake c gcc) := by
  unfold State.gccTake
  extract_lets y
  have hy : Apart burstRegs.contains s y := portTake_apart.widen
  exact apart_ite (apart_bump (apart_setBlob hy)) (apart_setBlob hy)

/-- The port that is disabled takes no burst and holds none (R225). -/
theorem gccTake_off (h : s.get .carrierOhpEnable c = 0) :
    (s.gccTake c gcc).get .carrierOhpInBursts c = s.get .carrierOhpInBursts c ∧ (s.gccTake c gcc).blob .xOhpOut c = [] := by
  have hf : (s.portTake c).flag .xOhpOn c = false := by
    rw [State.flag, portTake_on, h]
    rfl
  have hb : (s.portTake c).blob .xOhpOut c = [] := by
    unfold State.portTake
    dsimp only
    rw [State.flag, get_set_same, h, if_neg (by decide), blob_setBlob_same]
  have he : s.gccTake c gcc = (s.portTake c).setBlob .xOhpIn c [] := if_neg (by rw [hf]; decide)
  rw [he, setBlob_get, blob_setBlob_other _ _ (by simp), hb]
  exact ⟨portTake_apart.regs _ _ rfl, rfl⟩

/-- The port that is enabled takes a burst (R225). -/
theorem gccTake_on (h : s.get .carrierOhpEnable c ≠ 0) : Safety.countedBy s (s.gccTake c gcc) .carrierOhpInBursts c 1 := by
  have hf : (s.portTake c).flag .xOhpOn c = true := by
    rw [State.flag, portTake_on]
    simpa using h
  have he : s.gccTake c gcc = ((s.portTake c).setBlob .xOhpIn c ((s.portTake c).gccOf c gcc)).bump .carrierOhpInBursts c := if_pos hf
  rw [he, Safety.countedBy, get_bump_same, State.nat, setBlob_get, portTake_apart.regs _ _ rfl, ← State.nat]

abbrev begunFrameRegs : List Reg := [.xBeiStore, .xTtiSent, .xTxFnum] ++ burstRegs

theorem frameBegun_apart : Apart begunFrameRegs.contains s (frameBegun c gcc s) := by
  unfold frameBegun
  extract_lets n x y
  have hx : Apart begunFrameRegs.contains s x := apart_set (Apart.refl s)
  have hy : Apart begunFrameRegs.contains s y := apart_ite (apart_setBlob hx) hx
  exact apart_set (hy.trans gccTake_apart.widen)

theorem frameBegun_fnum : (frameBegun c gcc s).get .xTxFnum c = (((s.nat .xTxFnum c + 1) % 256 : Nat) : Int) := get_set_same _ _ _ _

/-- The burst is as the port takes it at the frame. -/
theorem frameBegun_burst : (s.get .carrierOhpEnable c = 0 → (frameBegun c gcc s).get .carrierOhpInBursts c = s.get .carrierOhpInBursts c
      ∧ (frameBegun c gcc s).blob .xOhpOut c = [])
    ∧ (s.get .carrierOhpEnable c ≠ 0 → Safety.countedBy s (frameBegun c gcc s) .carrierOhpInBursts c 1) := by
  unfold frameBegun
  extract_lets n x y
  have hy : Apart [Reg.xBeiStore, .xTtiSent].contains s y := apart_ite (apart_setBlob (apart_set (Apart.refl s))) (apart_set (Apart.refl s))
  clear_value y
  have he : y.get .carrierOhpEnable c = s.get .carrierOhpEnable c := hy.regs _ _ rfl
  have hc : y.get .carrierOhpInBursts c = s.get .carrierOhpInBursts c := hy.regs _ _ rfl
  refine ⟨fun h => ?_, fun h => ?_⟩
  · obtain ⟨g1, g2⟩ := gccTake_off (gcc := gcc) (he.trans h)
    rw [get_set_reg _ _ (by decide), g1, hc, set_blob, g2]
    exact ⟨rfl, rfl⟩
  · have g := gccTake_on (gcc := gcc) (he.trans_ne h)
    rw [Safety.countedBy] at g ⊢
    rw [get_set_reg _ _ (by decide), g, State.nat, hc, ← State.nat]

/-- The scope that leaves the overhead of the carriers. -/
abbrev overheadScope : Scope := fun p => match p with
  | .overhead => false
  | _ => true

theorem frameBegun_kept : Kept overheadScope s (frameBegun c gcc s) := by
  have := fact_false
  unfold frameBegun
  extract_lets n x y
  have hx : Kept overheadScope s x := kept_set (Kept.refl s) (hr := rfl)
  have hy : Kept overheadScope s y := kept_ite (kept_setBlob hx (hr := rfl)) hx
  exact kept_set (kept_gccTake hy) (hr := rfl)

theorem frameBegun_tx : (frameBegun c gcc s).tx c = s.tx c := by
  unfold State.tx
  rw [frameBegun_kept.sameTxLine rfl]

theorem frameBegun_stat : (frameBegun c gcc s).statSent c = s.statSent c := by
  unfold State.statSent State.carriesClients State.mode State.idle State.flag
  simp only [frameBegun_apart.regs .carrierState c rfl, frameBegun_apart.regs .deviceModeState 0 rfl, frameBegun_apart.regs .xTarget 0 rfl,
    frameBegun_apart.regs .deviceModeBusy 0 rfl, frameBegun_apart.regs .carrierRequest c rfl, frameBegun_apart.regs .carrierOhForceAis c rfl]

/-- The overhead that a frame sends, as the state before it has it (R215, R226, R227). -/
theorem headSent_reports : (headSent c s (frameBegun c gcc s)).fnum = s.nat .xTxFnum c
    ∧ (headSent c s (frameBegun c gcc s)).bsq = s.nat .xTxBsq c ∧ (headSent c s (frameBegun c gcc s)).bip = (s.tx c).bip
    ∧ (headSent c s (frameBegun c gcc s)).stat = s.statSent c ∧ (headSent c s (frameBegun c gcc s)).tpg = s.flag .xTpgTx c
    ∧ (headSent c s (frameBegun c gcc s)).fann = (s.get .xAnnounce c == 2) := by
  refine ⟨rfl, ?_, congrArg TxLine.bip frameBegun_tx, frameBegun_stat, ?_, ?_⟩
  · exact congrArg Int.toNat (frameBegun_apart.regs .xTxBsq c rfl)
  · exact congrArg (fun x : Int => decide (x ≠ 0)) (frameBegun_apart.regs .xTpgTx c rfl)
  · exact congrArg (fun x : Int => x == 2) (frameBegun_apart.regs .xAnnounce c rfl)

/-- What sending a frame leaves besides its line. -/
abbrev frameOutScope : Scope := fun p => match p with
  | .events | .txLine | .ports | .flows | .calendar | .tributaries | .housekeeping | .custody | .captures => false
  | _ => true

theorem frameOut_kept {h : FrameHead} : Kept frameOutScope s (s.frameOut c h) := by
  have := fact_false
  exact kept_frameOut (Kept.refl s)

theorem emit_sent {o : Output} (h : s.out <+: t.out) : Safety.sent s (t.emit o) o := by
  obtain ⟨l, hl⟩ := h
  exact ⟨l ++ [o], by rw [emit_out, ← hl, List.append_assoc], List.mem_append_right _ List.mem_cons_self⟩

theorem frameSent_get {h : FrameHead} {o : Output} (hr : frameOutScope (Safety.part r) = true) :
    ((s.frameOut c h).emit o).get r i = s.get r i ∧ ((s.frameOut c h).emit o).blob r i = s.blob r i := by
  rw [emit_get, emit_blob]
  exact frameOut_kept.sameRegs r i hr

theorem emit_tx {o : Output} : (s.emit o).tx c = s.tx c := rfl

/-- A frame's bits follow those that wait (R213, R214). -/
theorem frameOut_reports {h : FrameHead} : ∃ word tail,
    (((s.frameOut c h).emit (headTold c h)).tx c).bits.map Prod.fst = (s.tx c).bits.map Prod.fst
      ++ scramble (byteBits h.bytes ++ areaBits (s.nat .carrierFecTxNeed c - 2048) h.fnum word ++ tail)
    ∧ (h.fnum ≠ 255 → tail = [])
    ∧ (((s.frameOut c h).emit (headTold c h)).tx c).bip = bipOf (areaBits (s.nat .carrierFecTxNeed c - 2048) h.fnum word) := by
  rw [emit_tx]
  unfold State.frameOut
  extract_lets t l n y area tags tail bits
  refine ⟨fun w => (y.payloadWord c w).1, List.replicate tail false, ?_, fun hn => ?_, ?_⟩
  · rw [setTx_tx, List.map_append]
    exact congrArg _ frame_tagged
  · rw [show tail = 0 from if_neg hn]
    rfl
  · rw [setTx_tx]

/-! ## Received frames -/

/-- A frame whose overhead is known comes in: the port takes its enable, FNUM is judged and the frame is heard. -/
def frameHeard (c : Nat) (x : LogicalFrame) (a : State × List (Bool × Bool)) : State :=
  let y := (a.1.portTake c).fnumEval c x.fnum
  y.hearFrame c ((y.nat .xFnum c + 255) % 256) a.2

/-- Parity errors, BEI and reserved codes counted (R226, R227). -/
def frameCounted (c : Nat) (x : LogicalFrame) (s : State) : State :=
  let y := (s.bump .carrierOhBipErrors c x.bipErrors).set .xBeiStore c (s.get .xBeiStore c + x.bipErrors.val)
  let y := y.bump .carrierOhBeiReceived c x.bei
  if 2 ≤ x.stat.val ∧ x.stat.val ≤ 6 then y.bump .carrierOhBadStat c else y

/-- BDI and AIS judged, trace and burst taken. -/
def frameFollowed (c : Nat) (x : LogicalFrame) (s : State) : State :=
  (((s.judge c 6 .xBdiRun x.bdi 5 5).judge c 7 .xAisRun (x.stat.val == 7) 3 3).traceEval c x.fnum x.tti).gccIn c x.gcc.toList

theorem rxLogical_eq {x : LineFrameReading} (h1 : s.upLine c = true) (h2 : s.rxStopped c = false) (h3 : s.nat .carrierFecProfileInForce c ≠ 2) :
    s.rxLogical c x = frameFollowed c (parseFrame (s.rx c).bip ((s.lineFrameIn c x.bits).2.map Prod.fst))
      (frameCounted c (parseFrame (s.rx c).bip ((s.lineFrameIn c x.bits).2.map Prod.fst))
        (frameHeard c (parseFrame (s.rx c).bip ((s.lineFrameIn c x.bits).2.map Prod.fst)) (s.lineFrameIn c x.bits))) := by
  unfold State.rxLogical
  rw [if_neg (by rw [h1, h2]; decide), if_neg (show ¬ _ = profCompatible from h3)]
  unfold frameFollowed frameCounted frameHeard
  dsimp only

theorem rxLogical_compatible {x : LineFrameReading} (h1 : s.upLine c = true) (h2 : s.rxStopped c = false)
    (h3 : s.nat .carrierFecProfileInForce c = 2) : s.rxLogical c x = s.rxOtuc c x.otuc := by
  unfold State.rxLogical
  rw [if_neg (by rw [h1, h2]; decide), if_pos (show _ = profCompatible from h3)]

theorem judge_apart {q : Bool} {x y : Int} : Apart (List.contains (r :: rawRegs)) s (s.judge c b r q x y) := by
  have hs : ∀ z : Int, Apart (List.contains (r :: rawRegs)) s (s.set r c z) := fun z => apart_set (Apart.refl s) (hr := by simp)
  have hr : ∀ (z : State) q, Apart (List.contains (r :: rawRegs)) z (z.setRaw c b q) := fun z q =>
    setRaw_apart.mono fun a ha => by
      rw [List.contains_cons] at ha
      exact (Bool.or_eq_false_iff.1 ha).2
  exact apart_ite ((hs _).trans (hr _ _)) (apart_ite ((hs _).trans (hr _ _)) (apart_ite ((hs _).trans (hr _ _)) (hs _)))

theorem judgeNow_apart {q : Bool} : Apart rawRegs.contains s (s.judgeNow c b q) := setRaw_apart

abbrev traceRegs : List Reg := [.xTtiRun, .xTtiLast, .xTtiCycle, .carrierTtiAccepted, .carrierTtiValid] ++ rawRegs

theorem traceEval_apart {x : Byte} : Apart traceRegs.contains s (s.traceEval c f x) := by
  unfold State.traceEval
  extract_lets k cyc a l d same y z
  have ha : Apart traceRegs.contains s a := apart_when (Apart.refl s) fun _ => apart_setBlob (apart_set (Apart.refl s))
  have hd : Apart traceRegs.contains s d := apart_setBlob ha
  have hy : Apart traceRegs.contains s y := apart_set (apart_setBlob (apart_setBlob hd))
  have hz : Apart traceRegs.contains s z := apart_ite (apart_set (apart_setBlob hy)) hy
  exact apart_ite hd (hz.trans judgeNow_apart.widen)

theorem gccIn_apart : Apart [Reg.xOhpOut, .carrierOhpOutDropped].contains s (s.gccIn c gcc) :=
  apart_ite (Apart.refl s) (apart_ite (apart_setBlob (Apart.refl s)) (apart_bump (Apart.refl s)))

/-- What a frame's followers write. -/
abbrev followedRegs : List Reg := [.xBdiRun, .xAisRun] ++ traceRegs ++ [.xOhpOut, .carrierOhpOutDropped]

theorem frameFollowed_apart {x : LogicalFrame} : Apart followedRegs.contains s (frameFollowed c x s) :=
  ((judge_apart.widen.trans judge_apart.widen).trans traceEval_apart.widen).trans gccIn_apart.widen

theorem wordIn_apart {w : Nat × Nat × Bool} : Apart L.contains s (s.wordIn c w) := by
  have hr : ∀ x : RxLine, Apart L.contains s (s.setRx c x) := fun x => (Apart.refl s).other rfl
  have ht : ∀ n x, Apart L.contains s (s.setRxTrib n x) := fun n x => (Apart.refl s).other rfl
  unfold State.wordIn
  extract_lets n m x
  split
  · exact Apart.refl s
  · split
    · exact Apart.refl s
    · extract_lets a i y
      split
      · exact hr _
      · split
        · exact Apart.refl s
        · exact apart_ite (ht _ _) (Apart.refl s)

theorem hearFrame_apart {l : List (Bool × Bool)} : Apart L.contains s (s.hearFrame c f l) := by
  unfold State.hearFrame
  extract_lets x a
  exact apart_each ((Apart.refl s).other rfl) fun _ _ ht => ht.trans wordIn_apart

theorem lineFrameIn_apart {l : List Bool} : Apart L.contains s (s.lineFrameIn c l).1 := (Apart.refl s).other rfl

abbrev heardRegs : List Reg := [.xOhpOn, .xOhpOut, .xLomRun, .xFnum] ++ rawRegs

theorem fnumEval_apart : Apart (List.contains (.xFnum :: .xLomRun :: rawRegs)) s (s.fnumEval c f) := by
  unfold State.fnumEval
  exact apart_set judge_apart.widen

theorem frameHeard_apart {x : LogicalFrame} {a : State × List (Bool × Bool)} : Apart heardRegs.contains a.1 (frameHeard c x a) :=
  (portTake_apart.widen.trans fnumEval_apart.widen).trans hearFrame_apart

/-- FNUM as expected is expected one on (R229). -/
theorem fnumEval_good (h : s.get .xFnum c = (f : Int)) : (s.fnumEval c f).get .xFnum c = ((f + 1) % 256 : Nat) := by
  have hf : s.nat .xFnum c = f := by
    rw [State.nat, h]
    rfl
  unfold State.fnumEval
  dsimp only
  rw [get_set_same, hf, beq_self_eq_true, Bool.or_true, Bool.true_or, if_pos rfl]

theorem frameHeard_good {x : LogicalFrame} {a : State × List (Bool × Bool)} (h : a.1.get .xFnum c = (x.fnum.val : Int)) :
    (frameHeard c x a).get .xFnum c = ((x.fnum.val + 1) % 256 : Nat) := by
  have hp : (a.1.portTake c).get .xFnum c = (x.fnum.val : Int) := (portTake_apart.regs _ _ rfl).trans h
  exact ((hearFrame_apart (L := [])).regs _ _ rfl).trans (fnumEval_good hp)

abbrev countedRegs : List Reg := [.carrierOhBipErrors, .xBeiStore, .carrierOhBeiReceived, .carrierOhBadStat]

theorem frameCounted_apart {x : LogicalFrame} : Apart countedRegs.contains s (frameCounted c x s) := by
  have hy : Apart countedRegs.contains s ((s.bump .carrierOhBipErrors c x.bipErrors).set .xBeiStore c
      (s.get .xBeiStore c + x.bipErrors.val)) := apart_set (apart_bump (Apart.refl s))
  exact apart_ite (apart_bump (apart_bump hy)) (apart_bump hy)

theorem frameCounted_reports {x : LogicalFrame} : Safety.countedBy s (frameCounted c x s) .carrierOhBipErrors c x.bipErrors.val
    ∧ Safety.countedBy s (frameCounted c x s) .carrierOhBeiReceived c x.bei.val
    ∧ (frameCounted c x s).get .xBeiStore c = s.get .xBeiStore c + x.bipErrors.val
    ∧ (2 ≤ x.stat.val → x.stat.val ≤ 6 → Safety.countedBy s (frameCounted c x s) .carrierOhBadStat c 1) := by
  have hn : ∀ y : State, ∀ {r}, r ≠ .carrierOhBadStat → (if 2 ≤ x.stat.val ∧ x.stat.val ≤ 6 then y.bump .carrierOhBadStat c else y).get r c
      = y.get r c := fun y r hr => by
    split
    · exact get_bump_other (.inl hr)
    · rfl
  unfold frameCounted
  extract_lets y z
  refine ⟨?_, ?_, ?_, fun h1 h2 => ?_⟩
  · rw [Safety.countedBy, hn _ (by decide), get_bump_other (.inl (by decide)), get_set_reg _ _ (by decide), get_bump_same]
  · rw [Safety.countedBy, hn _ (by decide), get_bump_same, State.nat, get_set_reg _ _ (by decide), get_bump_other (.inl (by decide)), ← State.nat]
  · rw [hn _ (by decide), get_bump_other (.inl (by decide)), get_set_same]
  · rw [Safety.countedBy, if_pos ⟨h1, h2⟩, get_bump_same, State.nat, get_bump_other (.inl (by decide)), get_set_reg _ _ (by decide),
      get_bump_other (.inl (by decide)), ← State.nat]

/-- The scope that leaves the line of a carrier. -/
abbrev otucScope : Scope := fun p => match p with
  | .defects | .overhead => false
  | _ => true

/-- The overhead of a Compatible frame (R235). -/
theorem rxOtuc_reports {x : OtucReading} : Safety.countedBy s (s.rxOtuc c x) .carrierOhBeiReceived c x.bei.val
    ∧ (s.rxOtuc c x).get .carrierOhBipErrors c = s.get .carrierOhBipErrors c ∧ (s.rxOtuc c x).rx c = s.rx c := by
  have := fact_false
  unfold State.rxOtuc
  extract_lets y z u
  have hb : Apart ([Reg.xOhpOn, .xOhpOut] ++ rawRegs).contains s (((s.portTake c).judgeNow c 1 x.lof).judgeNow c 2 x.lom) :=
    (portTake_apart.widen.trans judgeNow_apart.widen).trans judgeNow_apart.widen
  have hy : Apart (List.contains (.carrierOhBeiReceived :: [Reg.xOhpOn, .xOhpOut] ++ rawRegs)) s y := apart_bump hb.widen
  have hu : Apart followedRegs.contains y (u.gccIn c (List.replicate 8 0 ++ x.gcc.toList)) :=
    (((judge_apart.widen.trans judge_apart.widen).trans traceEval_apart.widen).trans judgeNow_apart.widen).trans gccIn_apart.widen
  refine ⟨?_, ?_, ?_⟩
  · rw [Safety.countedBy, hu.regs _ _ rfl, get_bump_same, State.nat, hb.regs _ _ rfl, ← State.nat]
  · rw [hu.regs _ _ rfl, hy.regs _ _ rfl]
  · exact rx_congr ((kept_rxOtuc (κ := otucScope) (Kept.refl s)).sameRxLine rfl)

end Sys2Proof.Laws

namespace Sys2Proof

open Sys2Proof.Machine Sys2Proof.Laws

/-- Settles O31: a frame's counts are written once, and what follows them in the frame writes other registers. -/
theorem logicalFramesCarryOverhead : Obligations.LogicalFramesCarryOverhead := by
  refine ⟨fun s c x hp h1 h2 h3 => ?_, fun s c x hp h1 h2 h3 => ?_, fun s c gcc hp h => ?_, fun s c hp h => ?_⟩
  · have hx := (live_running (f := fun s => s.rxLogical c x) hp).trans (congrArg Host.Outcome.next (rxLogical_compatible h1 h2 h3))
    obtain ⟨g1, g2, g3⟩ := rxOtuc_reports (s := s) (c := c) (x := x.otuc)
    exact ⟨_, hx, g3, g1, g2⟩
  · intro m
    have hx := (live_running (f := fun s => s.rxLogical c x) hp).trans (congrArg Host.Outcome.next (rxLogical_eq h1 h2 h3))
    refine ⟨_, hx, ?_⟩
    have hh : Apart heardRegs.contains s (frameHeard c m (s.lineFrameIn c x.bits)) := (lineFrameIn_apart (L := heardRegs)).trans frameHeard_apart
    obtain ⟨g1, g2, g3, g4⟩ := frameCounted_reports (s := frameHeard c m (s.lineFrameIn c x.bits)) (c := c) (x := m)
    have hg : ∀ {r n}, heardRegs.contains r = false → followedRegs.contains r = false →
        Safety.countedBy (frameHeard c m (s.lineFrameIn c x.bits)) (frameCounted c m (frameHeard c m (s.lineFrameIn c x.bits))) r c n →
        Safety.countedBy s (frameFollowed c m (frameCounted c m (frameHeard c m (s.lineFrameIn c x.bits)))) r c n := fun {r n} k1 k2 h => by
      rw [Safety.countedBy] at h ⊢
      rw [frameFollowed_apart.regs _ _ k2, h, State.nat, hh.regs _ _ k1, ← State.nat]
    refine ⟨hg rfl rfl g1, hg rfl rfl g2, ?_, fun k1 k2 => hg rfl rfl (g4 k1 k2), fun k => ?_⟩
    · rw [frameFollowed_apart.regs _ _ rfl, g3, hh.regs _ _ rfl]
    · rw [frameFollowed_apart.regs _ _ rfl, frameCounted_apart.regs _ _ rfl]
      exact frameHeard_good (((lineFrameIn_apart (L := [])).regs _ _ rfl).trans k)
  · have hx := live_running (f := fun s => s.txLogical c gcc) hp
    by_cases h2 : s.nat .carrierFecProfileInForce c = 2
    · rw [txLogical_compatible h h2] at hx
      refine ⟨_, hx, ?_, gccTake_off, gccTake_on, fun k => absurd h2 k⟩
      rw [gccTake_apart.regs _ _ rfl, if_pos h2]
    · rw [txLogical_eq h h2] at hx
      obtain ⟨b1, b2⟩ := frameBegun_burst (s := s) (c := c) (gcc := gcc.toList)
      have hn : (frameBegun c gcc.toList s).nat .carrierFecTxNeed c = s.nat .carrierFecTxNeed c := by
        rw [State.nat, frameBegun_apart.regs _ _ rfl, ← State.nat]
      obtain ⟨w, l, w1, w2, w3⟩ := frameOut_reports (s := frameBegun c gcc.toList s) (c := c) (h := headSent c s (frameBegun c gcc.toList s))
      rw [hn, frameBegun_tx] at w1
      rw [hn] at w3
      have hs := emit_sent (o := headTold c (headSent c s (frameBegun c gcc.toList s)))
        ((frameBegun_kept (s := s) (c := c) (gcc := gcc.toList)).out.trans (frameOut_kept (h := headSent c s (frameBegun c gcc.toList s)) (c := c)).out)
      obtain ⟨h1, h2', h3, h4, h5, h6⟩ := headSent_reports (s := s) (c := c) (gcc := gcc.toList)
      have hg : ∀ {r i} h, frameOutScope (Safety.part r) = true →
          (((frameBegun c gcc.toList s).frameOut c h).emit (headTold c h)).get r i = (frameBegun c gcc.toList s).get r i
          ∧ (((frameBegun c gcc.toList s).frameOut c h).emit (headTold c h)).blob r i = (frameBegun c gcc.toList s).blob r i :=
        fun h hr => frameSent_get hr
      generalize headSent c s (frameBegun c gcc.toList s) = h at *
      refine ⟨_, hx, ?_, fun k => ?_, fun k => ?_, fun _ => ⟨h, h1, h2', h3, h4, h5, h6, hs, w, l, w1, w2, w3⟩⟩
      · rw [(hg _ rfl).1, frameBegun_fnum, if_neg h2]
      · obtain ⟨k1, k2⟩ := b1 k
        rw [(hg _ rfl).1, (hg _ rfl).2, k1, k2]
        exact ⟨rfl, rfl⟩
      · rw [Safety.countedBy, (hg _ rfl).1, b2 k]
  · have hl : (s.blob .xOhpOut c).isEmpty = false := by simpa using h
    have he : s.burstOut c = ((s.setBlob .xOhpOut c ((s.blob .xOhpOut c).drop 10)).bump .carrierOhpOutBursts c).emit
        (.burst c ((s.blob .xOhpOut c).take 10)) := if_neg (by rw [hl]; decide)
    refine ⟨_, (live_running (f := fun s => s.burstOut c) hp).trans (congrArg Host.Outcome.next he), ?_, ?_, ?_, ?_⟩
    · rw [emit_blob, bump_blob, blob_setBlob_same]
    · rw [Safety.countedBy, emit_get, get_bump_same, State.nat, setBlob_get, ← State.nat]
    · exact emit_sent (by rw [bump_out, setBlob_out])
    · have ha : Apart (List.contains [Reg.xOhpOut, .carrierOhpOutBursts]) s ((s.setBlob .xOhpOut c ((s.blob .xOhpOut c).drop 10)).bump
          .carrierOhpOutBursts c) := apart_bump (apart_setBlob (Apart.refl s))
      exact apart_iff.2 (ha.other rfl)

end Sys2Proof

/-! # Received multiframe boundaries (R209, R219, R222, R235) -/

namespace Sys2Proof.Laws

set_option Elab.async false

open Sys2Proof.Machine

variable {s₀ s t u : State} {cl : Client} {r : Reg} {i j n m b c e f g p k d : Nat} {v : Int} {L : List Reg}
  {K : Reg → Bool}

/-! ## A page that flips -/

/-- The scope that leaves the pages. -/
abbrev pageScope : Scope := fun p => match p with
  | .pages => true
  | _ => false

theorem flipNoted_count {dir : Nat} : Safety.countedBy s (flipNoted dir n s) .tsiFlips dir 1 := by
  have hb : Safety.countedBy s ((s.setBit .tsiPending dir n false).bump .tsiFlips dir) .tsiFlips dir 1 := by
    rw [Safety.countedBy, get_bump_same, State.nat, State.setBit, get_set_reg _ _ (by decide), ← State.nat]
  unfold flipNoted
  dsimp only
  split
  · rw [Safety.countedBy, get_set_reg _ _ (by decide), get_set_reg _ _ (by decide), hb]
  · exact hb

/-- A flip of carrier n's page (R221). -/
theorem pageFlip_reports {dir : Nat} : (s.pageFlip dir n).bit .tsiPending dir n = false
    ∧ Safety.countedBy s (s.pageFlip dir n) .tsiFlips dir 1
    ∧ ∀ r ∈ rowsOf n, (s.pageFlip dir n).get .tsiActiveRow (3840 * dir + r) = s.get .tsiStandbyRow (3840 * dir + r) := by
  rw [pageFlip_eq]
  refine ⟨?_, ?_, fun r hr => ?_⟩
  · rw [State.bit, State.nat, get_raise rfl, ← State.nat, ← State.bit, flipNoted_pending, if_pos rfl]
  · have h := flipNoted_count (s := rowsTaken (3840 * dir) (rowsOf n) s) (n := n) (dir := dir)
    rw [Safety.countedBy] at h ⊢
    rw [get_raise rfl, h, State.nat, rowsTaken_other (by decide), ← State.nat]
  · rw [get_raise rfl, flipNoted_get (by decide), rowsTaken_get, if_pos hr]

/-- What a flip writes, beside events. -/
abbrev pageRegs : List Reg := [.tsiActiveRow, .tsiPending, .tsiFlips, .xTpgTx, .xAnnounce]

theorem pageFlip_apart {dir : Nat} : Apart (fun r => Safety.eventSide r || pageRegs.contains r) s (s.pageFlip dir n) := by
  have hr : Apart (fun r => Safety.eventSide r || pageRegs.contains r) s (rowsTaken (3840 * dir) (rowsOf n) s) :=
    apart_each (Apart.refl s) fun _ _ ht => apart_set ht
  have hb : Apart (fun r => Safety.eventSide r || pageRegs.contains r) s
      (((rowsTaken (3840 * dir) (rowsOf n) s).setBit .tsiPending dir n false).bump .tsiFlips dir) := by
    unfold State.setBit
    exact apart_bump (apart_set hr)
  exact apart_raise (wide_events _) (apart_ite (apart_set (apart_set hb)) hb)

/-- Working copies loaded again. -/
theorem reloadTables_apart : Apart [Reg.xTableLost].contains s s.reloadTables := apart_each (Apart.refl s) fun _ _ ht => apart_set ht

theorem reloadTables_rx : s.reloadTables.rx c = s.rx c := by
  have := fact_false
  have k : Kept (fun p => p != .integrity) s s.reloadTables := by
    have : Scope.Out (fun p => p != .integrity) .integrity := ⟨rfl⟩
    exact kept_reloadTables (Kept.refl s)
  exact rx_congr (k.sameRxLine rfl)

/-! ## What a page flip rests on -/

/-- The tables, the bonding groups and the payloads. -/
abbrev flipRests : List Reg := [.tsiStandbyRow, .tsiActiveRow, .tsiPending, .xPayload, .carrierBondGroup]

theorem flipReason_congr {dir mask : Nat} (h : Alike flipRests s t) : t.flipReason dir mask = s.flipReason dir mask := by
  unfold State.flipReason State.rowsAfter State.tableRows State.slotCount State.oneGroup State.bit State.nat
  simp only [(h .tsiStandbyRow (by decide)).1, (h .tsiActiveRow (by decide)).1, (h .tsiPending (by decide)).2,
    (h .xPayload (by decide)).2, (h .carrierBondGroup (by decide)).2]

theorem reloadTables_alike (hL : .xTableLost ∉ L) : Alike L s s.reloadTables := alike_each (Alike.refl L s) fun _ _ ht => alike_set ht hL

/-! ## Receive pages (R222) -/

/-- What the parity of the pages writes. -/
abbrev parityRegs : List Reg := [.xTpgKnown, .xTpgRef, .xTpgRun]

/-- The reference that the announced parity is held against, known. -/
def parityKnown (c : Nat) (parity : Int) (s : State) : State :=
  if s.flag .xTpgKnown c then s else (s.set .xTpgKnown c 1).set .xTpgRef c parity |>.set .xTpgRun c 0

/-- The parity of a multiframe held against its reference. -/
def parityRun (c : Nat) (x : RxMulti) (s : State) : State :=
  let parity := if x.frames = 0 then s.get .xTpgRef c else ofFlag (decide (x.frames < 2 * x.parity))
  let s := parityKnown c parity s
  s.set .xTpgRun c (if s.get .xTpgRef c = parity then 0 else min 2 (s.get .xTpgRun c + 1))

theorem parityRun_apart {x : RxMulti} : Apart parityRegs.contains s (parityRun c x s) :=
  apart_set (apart_ite (Apart.refl s) (apart_set (apart_set (apart_set (Apart.refl s)))))

theorem parityRun_alike {x : RxMulti} : Alike flipRests s (parityRun c x s) :=
  alike_set (alike_ite (Alike.refl _ s) (alike_set (alike_set (alike_set (Alike.refl _ s) (by decide)) (by decide)) (by decide))) (by decide)

/-- The carrier may not follow an announce: its frame is lost, or held. -/
def pageBlind (c : Nat) (s : State) : Bool :=
  s.bit .carrierDefectDeclared c 1 || s.bit .carrierDefectDeclared c 2 || s.flag .carrierSlackHeld c

/-- An announced page followed, or one that has gone by. -/
def pageFollowed (c : Nat) (x : RxMulti) (s : State) : State :=
  if !s.flag .tsiRxFollow 0 then s.set .xTpgRun c 0
  else if 128 ≤ x.announced ∧ !pageBlind c s then s.followFlip c false
  else if s.get .xTpgRun c = 2 then s.followFlip c true
  else s

theorem rxPages_eq {x : RxMulti} : s.rxPages c x
    = if (parityRun c x s).bit .tsiPending 1 c then (parityRun c x s).pageFlip 1 c else pageFollowed c x (parityRun c x s) := rfl

theorem rxPages_flips {x : RxMulti} (h : s.bit .tsiPending 1 c = true) : s.rxPages c x = (parityRun c x s).pageFlip 1 c := by
  rw [rxPages_eq, if_pos]
  rw [State.bit, State.nat, parityRun_apart.regs _ _ rfl, ← State.nat, ← State.bit, h]

/-- What following a page writes, beside events. -/
abbrev pageFollowRegs : List Reg := parityRegs ++ pageRegs ++ [.tsiRefusal, .carrierOhLateFlips]

theorem followFlip_apart {q : Bool} : Apart (fun r => Safety.eventSide r || pageFollowRegs.contains r) s (s.followFlip c q) := by
  have hp : Apart (fun r => Safety.eventSide r || pageFollowRegs.contains r) s (s.pageFlip 1 c) := pageFlip_apart.widenEvents
  have hq : Apart (fun r => Safety.eventSide r || pageFollowRegs.contains r) s
      ((s.pageFlip 1 c).set .xTpgRef c (1 - s.get .xTpgRef c) |>.set .xTpgRun c 0) := apart_set (apart_set hp)
  exact apart_ite (apart_set (Apart.refl s)) (apart_ite (apart_bump hq) hq)

theorem rxPages_apart {x : RxMulti} : Apart (fun r => Safety.eventSide r || pageFollowRegs.contains r) s (s.rxPages c x) := by
  have hp : Apart (fun r => Safety.eventSide r || pageFollowRegs.contains r) s (parityRun c x s) := parityRun_apart.withEvents.widenEvents
  rw [rxPages_eq]
  exact apart_ite (hp.trans pageFlip_apart.widenEvents) (apart_ite (apart_set hp) (apart_ite (hp.trans followFlip_apart)
    (apart_ite (hp.trans followFlip_apart) hp)))

theorem followFlip_rows {q : Bool} (h : s.flipReason 1 (2 ^ c) = 0) :
    ∀ r ∈ rowsOf c, (s.followFlip c q).get .tsiActiveRow (3840 + r) = s.get .tsiStandbyRow (3840 + r) := fun r hr => by
  obtain ⟨-, -, h3⟩ := pageFlip_reports (s := s) (n := c) (dir := 1)
  have hp : ∀ y : State, (if q then y.bump .carrierOhLateFlips c else y).get .tsiActiveRow (3840 + r) = y.get .tsiActiveRow (3840 + r) := fun y => by
    split
    · exact get_bump_other (.inl (by decide))
    · rfl
  unfold State.followFlip
  dsimp only
  rw [if_neg (by rw [h]; decide), hp, get_set_reg _ _ (by decide), get_set_reg _ _ (by decide)]
  simpa using h3 r hr

/-- An announced page is followed (R222). -/
theorem rxPages_follows {x : RxMulti} (h1 : s.bit .tsiPending 1 c = false) (h2 : s.flag .tsiRxFollow 0 = true) (h3 : 128 ≤ x.announced)
    (h4 : pageBlind c s = false) (h5 : s.flipReason 1 (2 ^ c) = 0) :
    ∀ r ∈ rowsOf c, (s.rxPages c x).get .tsiActiveRow (3840 + r) = s.get .tsiStandbyRow (3840 + r) := fun r hr => by
  have hp := parityRun_apart (s := s) (c := c) (x := x)
  have hb : pageBlind c (parityRun c x s) = false := by
    unfold pageBlind State.bit State.flag State.nat at h4 ⊢
    rw [hp.regs .carrierDefectDeclared c rfl, hp.regs .carrierSlackHeld c rfl, h4]
  have hx : s.rxPages c x = (parityRun c x s).followFlip c false := by
    rw [rxPages_eq, if_neg, pageFollowed, if_neg, if_pos ⟨h3, by rw [hb]; rfl⟩]
    · rw [State.flag, hp.regs _ _ rfl, ← State.flag, h2]
      decide
    · rw [State.bit, State.nat, hp.regs _ _ rfl, ← State.nat, ← State.bit, h1]
      decide
  rw [hx, followFlip_rows ((flipReason_congr parityRun_alike).trans h5) r hr, hp.regs _ _ rfl]

/-! ## Carrying (R47) -/

theorem setCarrierState_apart : Apart [Reg.carrierState, .carrierStateChanges].contains s (s.setCarrierState c v) :=
  apart_ite (Apart.refl s) (apart_bump (apart_set (Apart.refl s)))

theorem advance_apart : Apart [Reg.carrierState, .carrierStateChanges].contains s (s.advance c) :=
  apart_ite setCarrierState_apart (Apart.refl s)

theorem advance_carries (h1 : s.get .carrierState c = 3) (h2 : s.get .carrierRequest c = 2) (h3 : s.mode = 3 ∨ s.mode = 4) :
    (s.advance c).get .carrierState c = 4 := by
  have hx : s.advance c = s.setCarrierState c csCarrying := if_pos ⟨h1, h2, h3⟩
  rw [hx, setCarrierState_get, if_pos rfl]
  rfl

/-! ## Phase (R209) -/

/-- A disagreeing phase word is counted. -/
theorem phaseEval_counts {w : Nat} (h1 : s.nat .carrierFecProfileInForce c ≠ 2) (h2 : s.flag .xPhaseKnown c = true)
    (h3 : s.nat .xPhaseWord c ≠ w) : Safety.countedBy s (s.phaseEval c w) .carrierFecPhaseMismatch c 1 := by
  unfold State.phaseEval
  extract_lets prof next a
  have ha : a.get .carrierFecPhaseMismatch c = (s.bump .carrierFecPhaseMismatch c).get .carrierFecPhaseMismatch c := get_set_reg _ _ (by decide)
  rw [if_neg (show ¬ prof = profCompatible from h1), if_neg (by rw [h2]; decide), if_neg h3, Safety.countedBy]
  split
  · rw [setRx_get, get_set_reg _ _ (by decide), get_set_reg _ _ (by decide), ha, get_bump_same]
  · rw [get_set_reg _ _ (by decide), ha, get_bump_same]

abbrev phaseRegs : List Reg := [.xPhaseKnown, .xPhaseWord, .xPhaseBad, .carrierFecPhaseMismatch]

theorem phaseEval_apart {w : Nat} : Apart phaseRegs.contains s (s.phaseEval c w) := by
  unfold State.phaseEval
  extract_lets prof next a
  have ha : Apart phaseRegs.contains s a := apart_set (apart_bump (Apart.refl s))
  have hb : ∀ x y z, Apart phaseRegs.contains s (((a.set .xPhaseWord c x).set .xPhaseBad c y).setRx c z) := fun x y z => by
    have h : Apart phaseRegs.contains s ((a.set .xPhaseWord c x).set .xPhaseBad c y) := apart_set (apart_set ha)
    exact h.other rfl
  exact apart_ite (Apart.refl s) (apart_ite (apart_set (apart_set (apart_set (Apart.refl s)))) (apart_ite (apart_set (apart_set (Apart.refl s)))
    (apart_ite (hb _ _ _) (apart_set ha))))

/-! ## Slot overhead (R219, R223) -/

/-- What slot overhead writes, beside events. -/
abbrev slotRegs : List Reg := [.carrierOhSlotMismatch, .xSlotBad, .tribRxCm, .xCmLost, .carrierOhCmLost, .tribRxCmLost, .tribRxFill, .xCsfAt,
  .xCsfRun, .xTribFail3, .cryptRxOverheadGen, .tribRxCapacity]

theorem csfRun_apart : Apart [Reg.xCsfAt, .xCsfRun].contains s (s.csfRun n v) := apart_set (apart_when (Apart.refl s) fun _ => apart_set (Apart.refl s))

theorem overheadTake_apart {l : List Nat} : Apart (fun r => Safety.eventSide r || slotRegs.contains r) s (s.overheadTake c n l) := by
  have w := wide_events slotRegs
  have hc : ∀ (y : State) v, Apart (fun r => Safety.eventSide r || slotRegs.contains r) y (y.csfRun n v) :=
    fun y v => csfRun_apart.withEvents.widenEvents
  have ht : ∀ (y : State) x v q, Apart (fun r => Safety.eventSide r || slotRegs.contains r) y
      (((y.set .tribRxFill n x).csfRun n v).setFlag .xTribFail3 n q) := fun y x v q => apart_set ((apart_set (Apart.refl y)).trans (hc _ _))
  unfold State.overheadTake
  extract_lets x y z
  have hx : Apart (fun r => Safety.eventSide r || slotRegs.contains r) s x := by
    dsimp only [x]
    split
    · exact apart_set (apart_set (Apart.refl s))
    · exact apart_raise w (apart_bump (apart_bump (apart_set (Apart.refl s))))
  have hy : Apart (fun r => Safety.eventSide r || slotRegs.contains r) x y := by
    dsimp only [y]
    split
    · exact ht _ _ _ _
    · exact hc _ _
  have hz : Apart (fun r => Safety.eventSide r || slotRegs.contains r) y z := by
    dsimp only [z]
    split
    · exact apart_set (Apart.refl y)
    · exact Apart.refl y
  exact apart_set ((hx.trans hy).trans hz)

theorem slotsTake_apart {l : List (Nat × List (BitVec 64))} : Apart (fun r => Safety.eventSide r || slotRegs.contains r) s (s.slotsTake c l) := by
  have hb : Apart (fun r => Safety.eventSide r || slotRegs.contains r) s (s.bump .carrierOhSlotMismatch c) := apart_bump (Apart.refl s)
  refine apart_each (s := s.slotsEval c l) ?_ fun y a hy => hy.trans overheadTake_apart
  exact apart_ite (apart_ite hb (apart_raise (wide_events _) (apart_set hb))) (apart_set (Apart.refl s))

/-! ## Bonding at a boundary (R258, R260) -/

/-- What bonding writes at a boundary, beside events, after the measured BSQ. -/
abbrev boundRegs : List Reg := [.carrierBondState, .carrierBondHold, .xBondHoldPs, .xBondJoined, .carrierBondAlignments, .groupState, .groupSkew,
  .groupHeadroomLeft, .groupLongestHold, .xGroupWait, .xGroupWaitAt, .groupRealigns, .xBondArrival, .xBondRun, .xBondMeasured,
  .carrierBondWindowExits]

/-- What bonding may write at a boundary. -/
abbrev boundSide (r : Reg) : Bool := Safety.eventSide r || boundRegs.contains r

theorem setMember_apart : Apart boundSide s (s.setMember c v) := by
  have w : Wide boundSide := wide_events boundRegs
  unfold State.setMember
  extract_lets was a b
  have ha : Apart boundSide s a := apart_set (Apart.refl s)
  have hb : Apart boundSide s b := apart_ite ha (apart_set (apart_set (apart_set ha)))
  exact apart_ite (Apart.refl s) (apart_ite (apart_raise w (apart_bump hb)) (apart_ite (apart_raise w hb) hb))

theorem refreshGroup_apart : Apart boundSide s (s.refreshGroup g) := by
  unfold State.refreshGroup
  extract_lets x l st a
  have ha : Apart boundSide s a := apart_set (Apart.refl s)
  clear_value a l
  cases l with
  | nil => exact apart_set (apart_set (apart_set ha))
  | cons h l => exact apart_set (apart_set (apart_set ha))

theorem align_apart : Apart boundSide s (s.align g) := by
  unfold State.align
  extract_lets all l y
  have hy : Apart boundSide s y := apart_set (Apart.refl s)
  clear_value l
  cases l with
  | nil => exact hy
  | cons e l =>
    dsimp -zeta only
    extract_lets late release a
    have ha : Apart boundSide s a := apart_each hy fun z k hz => by
      split
      · exact apart_set (apart_set (hz.trans setMember_apart))
      · exact hz.trans setMember_apart
    exact ha.trans refreshGroup_apart

theorem realign_apart : Apart boundSide s (s.realign g) :=
  apart_raise (wide_events boundRegs) (apart_bump ((apart_each (Apart.refl s) fun _ _ ht => apart_set ht).trans align_apart))

theorem tryAlign_apart : Apart boundSide s (s.tryAlign g) := by
  unfold State.tryAlign
  extract_lets a need
  have ha : Apart boundSide s a := apart_ite (Apart.refl s) (apart_set (apart_set (Apart.refl s)))
  exact apart_ite (ha.trans align_apart) ha

theorem absorb_apart : Apart boundSide s (s.absorb g c v) := by
  have ho : Apart boundSide s ((s.setMember c 4).refreshGroup g) := setMember_apart.trans refreshGroup_apart
  exact apart_ite (Apart.trans (apart_set (apart_set setMember_apart)) refreshGroup_apart)
    (apart_ite (apart_ite realign_apart (Apart.refl s)) (apart_ite (ho.trans realign_apart) ho))

/-- A measured arrival noted (R258). -/
def arrivalNoted (c : Nat) (bsq arrival run : Int) (s : State) : State :=
  s.set .carrierBondBsq c bsq |>.set .xBondArrival c arrival |>.set .xBondRun c (min run 3)

/-- What a noted arrival leads to in a group. -/
def arrivalJudged (c g : Nat) (bsq : Int) (s : State) : State :=
  let st := s.get .carrierBondState c
  if s.rateApart c then
    ((s.set .xBondMeasured c 0).setMember c 5).refreshGroup g
  else if st = 3 then
    if s.inWindow g c bsq then s.refreshGroup g
    else
      let s := ((s.bump .carrierBondWindowExits c).setMember c 4).refreshGroup g
      if s.get .groupPolicy g = 1 then s.realign g else s
  else
    let s := if st = 1 ∨ st = 5 then (s.setMember c 2).set .xBondRun c 1 else s
    let s := if 3 ≤ s.get .xBondRun c then s.set .xBondMeasured c 1 else s
    if !s.flag .xBondMeasured c then s
    else if (s.alignedList g).isEmpty then s.tryAlign g
    else s.absorb g c bsq

theorem bondBoundary_eq {x : Int} : ∃ run, s.bondBoundary c v x = if (arrivalNoted c v x run s).get .carrierBondGroup c = 0xFF then
    arrivalNoted c v x run s
  else arrivalJudged c ((arrivalNoted c v x run s).nat .carrierBondGroup c) v (arrivalNoted c v x run s) := ⟨_, rfl⟩

theorem arrivalJudged_apart : Apart boundSide s (arrivalJudged c g v s) := by
  unfold arrivalJudged
  extract_lets st a b d
  have ha : Apart boundSide s a := Apart.trans (Apart.trans (apart_bump (Apart.refl s)) setMember_apart) refreshGroup_apart
  have hb : Apart boundSide s b := apart_ite (apart_set setMember_apart) (Apart.refl s)
  have hd : Apart boundSide s d := apart_ite (apart_set hb) hb
  exact apart_ite ((Apart.trans (apart_set (Apart.refl s)) setMember_apart).trans refreshGroup_apart)
    (apart_ite (apart_ite refreshGroup_apart (apart_ite (ha.trans realign_apart) ha))
      (apart_ite hd (apart_ite (hd.trans tryAlign_apart) (hd.trans absorb_apart))))

/-- The BSQ measured at a boundary stands (R258). -/
theorem bondBoundary_bsq {x : Int} : (s.bondBoundary c v x).get .carrierBondBsq c = v := by
  obtain ⟨run, hx⟩ := bondBoundary_eq (s := s) (c := c) (v := v) (x := x)
  have ha : (arrivalNoted c v x run s).get .carrierBondBsq c = v := by
    simp (disch := decide) only [arrivalNoted, get_set_reg, get_set_same]
  rw [hx]
  split
  · exact ha
  · rw [arrivalJudged_apart.regs _ _ rfl, ha]

/-! ## A received multiframe ends -/

section
variable {x : RxMultiframe} {q : Option Nat}

/-- Pages and slot overhead of the multiframe that ends. -/
def multiPaged (c : Nat) (h : RxMulti) (s : State) : State := ((s.reloadTables.rxPages c h).advance c).slotsTake c (copiesByEntry h.entries)

/-- The phase word of the multiframe taken. -/
def multiPhased (c word : Nat) (s : State) : State := (s.setRx c { s.rx c with phase := none }).phaseEval c word

/-- Bindings and rows of the carrier's tributaries in force. -/
def multiRows (c : Nat) (l : List Nat) (s : State) : State :=
  ((s.bindingsTake 1 l).rowsTake ((s.bindingsTake 1 l).tribsOn 1 c)).multiframeDefects c

/-- Bonding, and the next multiframe. -/
def multiEnded (c : Nat) (q : Option Nat) (arrival : Nat) (s : State) : State :=
  ((s.boundaryBonds c q).stow c q).set .xMfArrival c (arrival + 1 : Nat) |>.set .xFnum c 0

/-- Shares of the next multiframe. -/
def sharesOpened (c : Nat) (s : State) : State := s.each ((s.tribsOn 1 c).filter fun t => !s.bonded 1 t) State.openShare

theorem rxBoundary_eq (h1 : s.upLine c = true) (h2 : s.rxStopped c = false) (h3 : s.nat .carrierFecProfileInForce c ≠ 2) :
    s.rxBoundary c x = sharesOpened c (multiEnded c (majority (s.rx c).multi.bsqs) x.arrival
      (multiRows c (((multiPaged c (s.rx c).multi s).setRx c { (multiPaged c (s.rx c).multi s).rx c with phase := none }).tribsOn 1 c)
        (multiPhased c ((s.rx c).phase.getD (phaseWordOf x.signs)) (multiPaged c (s.rx c).multi s)))) := by
  unfold State.rxBoundary
  rw [if_neg (by rw [h1, h2]; decide), if_neg (show ¬ _ = profCompatible from h3)]
  rfl

theorem rxBoundary_compatible (h1 : s.upLine c = true) (h2 : s.rxStopped c = false) (h3 : s.nat .carrierFecProfileInForce c = 2) :
    s.rxBoundary c x = s.rxBoundaryCompatible c := by
  unfold State.rxBoundary
  rw [if_neg (by rw [h1, h2]; decide), if_pos (show _ = profCompatible from h3)]

/-- What pages and slot overhead write, beside events. -/
abbrev pagedRegs : List Reg := .xTableLost :: pageFollowRegs ++ [.carrierState, .carrierStateChanges] ++ slotRegs

theorem multiPaged_apart {h : RxMulti} : Apart (fun r => Safety.eventSide r || pagedRegs.contains r) s (multiPaged c h s) :=
  ((reloadTables_apart.withEvents.widenEvents.trans rxPages_apart.widenEvents).trans advance_apart.withEvents.widenEvents).trans
    slotsTake_apart.widenEvents

theorem multiPhased_apart {k : Nat} : Apart phaseRegs.contains s (multiPhased c k s) := by
  have h : Apart phaseRegs.contains s (s.setRx c { s.rx c with phase := none }) := (Apart.refl s).other rfl
  exact h.trans phaseEval_apart

theorem multiPhased_counts (h1 : s.nat .carrierFecProfileInForce c ≠ 2) (h2 : s.flag .xPhaseKnown c = true) (h3 : s.nat .xPhaseWord c ≠ k) :
    Safety.countedBy s (multiPhased c k s) .carrierFecPhaseMismatch c 1 :=
  phaseEval_counts (s := s.setRx c { s.rx c with phase := none }) h1 h2 h3

/-- What the tributaries' rows leave. -/
abbrev rowScope : Scope := fun p => match p with
  | .events | .ports | .flows | .tributaries | .cores | .bindings | .defects | .housekeeping | .captures => false
  | _ => true

theorem multiRows_kept {l : List Nat} : Kept rowScope s (multiRows c l s) := by
  have := fact_false
  exact kept_multiframeDefects (kept_rowsTake (kept_bindingsTake (Kept.refl s)))

/-- What bonding at a boundary leaves. -/
abbrev boundScope : Scope := fun p => match p with
  | .events | .rxLine | .overhead | .bonding | .housekeeping | .pair | .captures => false
  | _ => true

theorem multiEnded_kept {k : Nat} : Kept boundScope s (multiEnded c q k s) := by
  have := fact_false
  have hs : Kept boundScope s ((s.boundaryBonds c q).stow c q) := kept_stow (kept_boundaryBonds (Kept.refl s))
  exact kept_set (kept_set hs (hr := rfl)) (hr := rfl)

theorem sharesOpened_regs : Apart L.contains s (sharesOpened c s) := apart_each (Apart.refl s) fun y a hy => by
  unfold State.openShare
  extract_lets z l
  have ht : ∀ w, Apart L.contains s (y.setRxTrib a w) := fun w => hy.other rfl
  exact apart_ite (apart_ite hy (ht _)) (ht _)

theorem sharesOpened_rx : (sharesOpened c s).rx n = s.rx n := each_view (view := fun y => y.rx n) fun y a _ => by
  unfold State.openShare
  dsimp only
  split
  · split <;> rfl
  · rfl

theorem multiEnded_multi {k : Nat} : ((multiEnded c q k s).rx c).multi = RxMulti.start := by
  have h : ∀ y : State, ((y.stow c q).rx c).multi = RxMulti.start := fun y => by
    unfold State.stow
    cases q with
    | none => exact congrArg RxLine.multi (setRx_rx _ _ _)
    | some b =>
      dsimp only
      split
      · exact congrArg RxLine.multi (setRx_rx _ _ _)
      · exact congrArg RxLine.multi (setRx_rx _ _ _)
  exact h _

theorem deliveryEval_apart : Apart [Reg.xDeliver, .tieSent].contains s (s.deliveryEval c v) := by
  unfold State.deliveryEval
  extract_lets a
  have ha : Apart [Reg.xDeliver, .tieSent].contains s a := apart_ite (apart_set (Apart.refl s)) (Apart.refl s)
  have ht : ∀ o, Apart [Reg.xDeliver, .tieSent].contains s (a.tieSend o) := fun o => apart_ite ha ((apart_bump ha).other rfl)
  exact apart_ite (Apart.refl s) (apart_ite (ht _) ha)

/-- The BSQ of a multiframe that began at a boundary is measured (R258). -/
theorem multiEnded_bsq {k : Nat} (h : s.flag .xMfArrival c = true) : (multiEnded c (some b) k s).get .carrierBondBsq c = (b : Nat) := by
  have hs : ∀ y : State, (y.stow c (some b)).get .carrierBondBsq c = y.get .carrierBondBsq c := fun y => by
    unfold State.stow
    dsimp only
    split <;> exact setRx_get _ _ _ _ _
  unfold multiEnded State.boundaryBonds
  dsimp only
  rw [get_set_reg _ _ (by decide), get_set_reg _ _ (by decide), hs, deliveryEval_apart.regs _ _ rfl, if_pos h, bondBoundary_bsq]

/-- What stands when the pages of a multiframe are judged stands at its end. -/
theorem multiDone_get {k : Nat} {l : List Nat} (h1 : rowScope (Safety.part r) = true := by rfl)
    (h2 : boundScope (Safety.part r) = true := by rfl) : (sharesOpened c (multiEnded c q k (multiRows c l s))).get r i = s.get r i := by
  rw [(sharesOpened_regs (L := [])).regs _ _ rfl, multiEnded_kept.get h2, multiRows_kept.get h1]

theorem mode_of_get (h : ∀ r ∈ [Reg.deviceModeState, .xTarget, .deviceModeBusy], t.get r 0 = s.get r 0) : t.mode = s.mode := by
  unfold State.mode
  rw [h .deviceModeState (by decide), h .xTarget (by decide), h .deviceModeBusy (by decide)]

/-- Pages and state that a received multiframe leaves (R47, R222). -/
theorem multiPaged_pages {h : RxMulti} :
    (s.bit .tsiPending 1 c = true → (multiPaged c h s).bit .tsiPending 1 c = false ∧ Safety.countedBy s (multiPaged c h s) .tsiFlips 1 1
      ∧ ∀ r ∈ rowsOf c, (multiPaged c h s).get .tsiActiveRow (3840 + r) = s.get .tsiStandbyRow (3840 + r))
    ∧ (s.bit .tsiPending 1 c = false → s.flag .tsiRxFollow 0 = true → 128 ≤ h.announced → pageBlind c s = false → s.flipReason 1 (2 ^ c) = 0 →
      ∀ r ∈ rowsOf c, (multiPaged c h s).get .tsiActiveRow (3840 + r) = s.get .tsiStandbyRow (3840 + r)) := by
  have hR := reloadTables_apart (s := s)
  have hg : ∀ {r i}, [Reg.tsiActiveRow, .tsiPending, .tsiFlips].contains r = true → (multiPaged c h s).get r i = (s.reloadTables.rxPages c h).get r i :=
    fun {r i} hr => by
      have h1 : (Safety.eventSide r || slotRegs.contains r) = false := by
        revert hr
        cases r <;> decide
      have h2 : [Reg.carrierState, .carrierStateChanges].contains r = false := by
        revert hr
        cases r <;> decide
      rw [multiPaged, slotsTake_apart.regs _ _ h1, advance_apart.regs _ _ h2]
  have hp : s.reloadTables.bit .tsiPending 1 c = s.bit .tsiPending 1 c := by
    rw [State.bit, State.nat, hR.regs _ _ rfl, ← State.nat, ← State.bit]
  refine ⟨fun k => ?_, fun k1 k2 k3 k4 k5 r hr => ?_⟩
  · have hY := parityRun_apart (s := s.reloadTables) (c := c) (x := h)
    obtain ⟨g1, g2, g3⟩ := pageFlip_reports (s := parityRun c h s.reloadTables) (n := c) (dir := 1)
    rw [← rxPages_flips (hp.trans k)] at g1 g2 g3
    refine ⟨?_, ?_, fun r hr => ?_⟩
    · rw [State.bit, State.nat, hg rfl, ← State.nat, ← State.bit, g1]
    · rw [Safety.countedBy] at g2 ⊢
      rw [hg rfl, g2, State.nat, hY.regs _ _ rfl, hR.regs _ _ rfl, ← State.nat]
    · rw [hg rfl, ← hR.regs _ _ rfl, ← hY.regs .tsiStandbyRow _ rfl]
      simpa using g3 r hr
  · have hb : pageBlind c s.reloadTables = false := by
      unfold pageBlind State.bit State.flag State.nat at k4 ⊢
      rw [hR.regs .carrierDefectDeclared c rfl, hR.regs .carrierSlackHeld c rfl, k4]
    rw [hg rfl, rxPages_follows (hp.trans k1) (by rw [State.flag, hR.regs _ _ rfl, ← State.flag, k2]) k3 hb
      ((flipReason_congr (reloadTables_alike (by decide))).trans k5) r hr, hR.regs _ _ rfl]

theorem multiPaged_carries {h : RxMulti} (h1 : s.get .carrierState c = 3) (h2 : s.get .carrierRequest c = 2) (h3 : s.mode = 3 ∨ s.mode = 4) :
    (multiPaged c h s).get .carrierState c = 4 := by
  have hg : ∀ {r i}, [Reg.carrierState, .carrierRequest, .deviceModeState, .xTarget, .deviceModeBusy].contains r = true →
      (s.reloadTables.rxPages c h).get r i = s.get r i := fun {r i} hr => by
    have h1 : (Safety.eventSide r || pageFollowRegs.contains r) = false := by
      revert hr
      cases r <;> decide
    have h2 : [Reg.xTableLost].contains r = false := by
      revert hr
      cases r <;> decide
    rw [rxPages_apart.regs _ _ h1, reloadTables_apart.regs _ _ h2]
  have hm : (s.reloadTables.rxPages c h).mode = s.mode := mode_of_get fun r hr => hg (by
    revert hr
    cases r <;> decide)
  rw [multiPaged, slotsTake_apart.regs _ _ rfl, advance_carries ((hg rfl).trans h1) ((hg rfl).trans h2) (by rw [hm]; exact h3)]

/-! ## Boundaries of a Compatible carrier (R205, R235) -/

theorem pageSettle_flips (h : s.bit .tsiPending d c = true) : s.pageSettle d c = s.pageFlip d c := if_pos h

theorem pageSettle_apart : Apart (fun r => Safety.eventSide r || pageRegs.contains r) s (s.pageSettle d c) := apart_ite pageFlip_apart (Apart.refl s)

/-- Tables and page of memory d at a boundary. -/
theorem settled_pages (h : s.bit .tsiPending d c = true) : (s.reloadTables.pageSettle d c).bit .tsiPending d c = false
    ∧ Safety.countedBy s (s.reloadTables.pageSettle d c) .tsiFlips d 1
    ∧ ∀ r ∈ rowsOf c, (s.reloadTables.pageSettle d c).get .tsiActiveRow (3840 * d + r) = s.get .tsiStandbyRow (3840 * d + r) := by
  have hR := reloadTables_apart (s := s)
  obtain ⟨g1, g2, g3⟩ := pageFlip_reports (s := s.reloadTables) (n := c) (dir := d)
  rw [pageSettle_flips (by rw [State.bit, State.nat, hR.regs _ _ rfl, ← State.nat, ← State.bit, h])]
  refine ⟨g1, ?_, fun r hr => ?_⟩
  · rw [Safety.countedBy] at g2 ⊢
    rw [g2, State.nat, hR.regs _ _ rfl, ← State.nat]
  · rw [g3 r hr, hR.regs _ _ rfl]

/-- What a Compatible carrier's receive boundary leaves. -/
abbrev compatibleScope : Scope := fun p => match p with
  | .events | .carriers | .defects | .overhead | .pages | .tributaries | .housekeeping | .integrity | .captures => false
  | _ => true

/-- What the defects of a multiframe leave. -/
abbrev multiDefectScope : Scope := fun p => match p with
  | .defects | .tributaries => false
  | _ => true

theorem rxBoundaryCompatible_reports : (s.rxBoundaryCompatible c).rx c = s.rx c
    ∧ (s.bit .tsiPending 1 c = true → (s.rxBoundaryCompatible c).bit .tsiPending 1 c = false
      ∧ Safety.countedBy s (s.rxBoundaryCompatible c) .tsiFlips 1 1
      ∧ ∀ r ∈ rowsOf c, (s.rxBoundaryCompatible c).get .tsiActiveRow (3840 + r) = s.get .tsiStandbyRow (3840 + r))
    ∧ (s.get .carrierState c = 3 → s.get .carrierRequest c = 2 → (s.mode = 3 ∨ s.mode = 4) →
      (s.rxBoundaryCompatible c).get .carrierState c = 4) := by
  have := fact_false
  have hk : ∀ y : State, Kept multiDefectScope y (y.multiframeDefects c) := fun y => kept_multiframeDefects (Kept.refl y)
  have hg : ∀ {r i}, [Reg.tsiPending, .tsiFlips, .tsiActiveRow].contains r = true →
      (s.rxBoundaryCompatible c).get r i = (s.reloadTables.pageSettle 1 c).get r i := fun {r i} hr => by
    have h1 : multiDefectScope (Safety.part r) = true := by
      revert hr
      cases r <;> decide
    have h2 : [Reg.carrierState, .carrierStateChanges].contains r = false := by
      revert hr
      cases r <;> decide
    rw [State.rxBoundaryCompatible, (hk _).get h1, advance_apart.regs _ _ h2]
  refine ⟨rx_congr ((kept_rxBoundaryCompatible (κ := compatibleScope) (Kept.refl s)).sameRxLine rfl), fun k => ?_, fun k1 k2 k3 => ?_⟩
  · obtain ⟨g1, g2, g3⟩ := settled_pages k
    refine ⟨?_, ?_, fun r hr => ?_⟩
    · rw [State.bit, State.nat, hg rfl, ← State.nat, ← State.bit, g1]
    · rw [Safety.countedBy, hg rfl, g2]
    · rw [hg rfl]
      simpa using g3 r hr
  · have hs : ∀ {r i}, [Reg.carrierState, .carrierRequest, .deviceModeState, .xTarget, .deviceModeBusy].contains r = true →
        (s.reloadTables.pageSettle 1 c).get r i = s.get r i := fun {r i} hr => by
      have h1 : (Safety.eventSide r || pageRegs.contains r) = false := by
        revert hr
        cases r <;> decide
      have h2 : [Reg.xTableLost].contains r = false := by
        revert hr
        cases r <;> decide
      rw [pageSettle_apart.regs _ _ h1, reloadTables_apart.regs _ _ h2]
    have hm : (s.reloadTables.pageSettle 1 c).mode = s.mode := mode_of_get fun r hr => hs (by
      revert hr
      cases r <;> decide)
    rw [State.rxBoundaryCompatible, (hk _).get, advance_carries ((hs rfl).trans k1) ((hs rfl).trans k2) (by rw [hm]; exact k3)]

theorem txBoundary_compatible {l : List StreamReading} (h1 : s.get .carrierState c ≠ 0) (h2 : s.nat .carrierFecProfileInForce c = 2) :
    s.txBoundary c l = s.reloadTables.pageSettle 0 c := by
  have hi : ¬ s.idle c = true := by simpa [State.idle] using h1
  unfold State.txBoundary
  rw [if_neg hi, if_pos (show _ = profCompatible from h2)]


end

end Sys2Proof.Laws

/-! # Transmitted multiframe boundaries (R215, R221, R248) -/

namespace Sys2Proof.Laws

set_option Elab.async false

open Sys2Proof.Machine

variable {s₀ s t u : State} {cl : Client} {r : Reg} {i j n m b c e f g p k d : Nat} {v : Int} {L : List Reg}
  {K : Reg → Bool} {q : Bool}

/-! ## What the flows of a boundary leave -/

/-- Pages, numbering and Cm of the transmit lines. -/
abbrev txRests : List Reg := [.tsiActiveRow, .tsiStandbyRow, .xTableLost, .xTxMf, .xTxBsq, .xAnnounce, .xTpgTx, .xTribCm, .xTribFill,
  .xTribCmNow, .xTribFillNow]

/-- From s to t the pages and the lines' numbering stand, and no source of a carrier is raised. -/
structure Aloof (s t : State) : Prop where
  alike : Alike txRests s t
  silent : ∀ e < 480, Silent e s t

theorem Aloof.refl (s : State) : Aloof s s := ⟨Alike.refl _ s, fun _ _ => Silent.refl⟩

theorem Aloof.trans (h : Aloof s t) (h' : Aloof t u) : Aloof s u :=
  ⟨h.alike.trans h'.alike, fun e he => (h.silent e he).trans (h'.silent e he)⟩

theorem Aloof.get (h : Aloof s t) (hr : r ∈ txRests := by decide) : t.get r i = s.get r i := (h.alike r hr).2 i

theorem aloof_set (h : Aloof s₀ s) (hr : r ∉ txRests := by decide) (he : r ≠ .eventCount := by decide) : Aloof s₀ (s.set r i v) :=
  ⟨alike_set h.alike hr, fun e hl => silent_set (h.silent e hl) he⟩

theorem aloof_bump (h : Aloof s₀ s) (hr : r ∉ txRests := by decide) (he : r ≠ .eventCount := by decide) : Aloof s₀ (s.bump r i n) :=
  ⟨alike_bump h.alike hr, fun e hl => silent_bump (h.silent e hl) he⟩

theorem aloof_regs (h : Aloof s₀ s) (hr : t.regs = s.regs := by rfl) : Aloof s₀ t :=
  ⟨alike_regs h.alike hr, fun e hl => (h.silent e hl).trans (by rw [Silent, State.get, hr, ← State.get])⟩

theorem aloof_ite {P : Prop} [Decidable P] (ht : Aloof s₀ t) (hu : Aloof s₀ u) : Aloof s₀ (if P then t else u) := by
  split <;> assumption

theorem aloof_when {f : State → State} (h : Aloof s₀ s) (hf : Aloof s₀ (f s)) : Aloof s₀ (s.when q f) := aloof_ite hf h

theorem aloof_each {α : Type} {l : List α} {f : State → α → State} (h : Aloof s₀ s) (hf : ∀ t a, Aloof s₀ t → Aloof s₀ (f t a)) :
    Aloof s₀ (s.each l f) := each_holds (P := Aloof s₀) h hf

theorem quiet_txRests : Quiet txRests := by
  unfold Quiet
  decide

theorem aloof_raise {l : List Item} (h : Aloof s₀ s) : Aloof s₀ (s.raise (evDev n) l) := by
  have hn : ∀ e < 480, ∀ n, e ≠ evDev n := fun e he n => by
    unfold evDev
    omega
  exact ⟨alike_raise quiet_txRests h.alike, fun e he => silent_raise (h.silent e he) (hn e he 132) (hn e he n)⟩

/-! ## Fill and custody -/

theorem aloof_pfcEval (h : Aloof s₀ s) : Aloof s₀ (s.pfcEval p) := by
  have hp : ∀ {y : State} {a b : Nat}, Aloof s₀ y → Aloof s₀ (y.sendPfc p a b) := fun hy =>
    aloof_ite hy (aloof_regs (aloof_bump (r := .portPfcSent) hy))
  unfold State.pfcEval
  extract_lets was now a gone b
  have ha : Aloof s₀ a := aloof_set h
  have hb : Aloof s₀ b := aloof_ite ha (hp ha)
  exact aloof_ite (aloof_set h) (aloof_ite h (aloof_ite hb (hp hb)))

theorem aloof_poolMove (h : Aloof s₀ s) : Aloof s₀ (s.poolMove n k) := by
  unfold State.poolMove
  extract_lets a b low d pause
  have ha : Aloof s₀ a := aloof_set h
  have hb : Aloof s₀ b := aloof_ite (aloof_set ha) ha
  have hd : Aloof s₀ d := aloof_ite (aloof_raise (aloof_set hb)) (aloof_set hb)
  have hp : ∀ v, Aloof s₀ ((d.set .xPoolPause 0 v).each (List.range 48) State.pfcEval) := fun v =>
    aloof_each (aloof_set hd) fun _ _ ht => aloof_pfcEval ht
  exact aloof_ite (hp 1) (aloof_ite (hp 0) hd)

theorem aloof_putWords {l : List Nat} (h : Aloof s₀ s) : Aloof s₀ (s.putWords f l n) := by
  have hs : ∀ {y : State} {o n}, Aloof s₀ y → Aloof s₀ (y.setFill f o n) := fun {y o n} hy => by
    unfold State.setFill
    extract_lets was a o' b d
    have ha : Aloof s₀ a := aloof_ite (aloof_regs hy) (aloof_ite hy (aloof_regs hy))
    have hb : Aloof s₀ b := aloof_set (aloof_ite (aloof_set (aloof_set ha)) (aloof_set ha))
    have he : ∀ {z : State} {v}, Aloof s₀ z → Aloof s₀ (z.set .flowAsserting f v) := fun hz => aloof_set hz
    have hd : Aloof s₀ d := by
      have hp := aloof_poolMove (n := was) (k := tilesFor o' n) hb
      exact aloof_ite (aloof_ite (he hp) (aloof_ite (he hp) hp)) (he hp)
    exact aloof_pfcEval hd
  exact hs (aloof_regs h)

theorem aloof_custodyFailed {x : Option Nat} (h : Aloof s₀ s) : Aloof s₀ (s.custodyFailed k m n x) :=
  aloof_ite h (aloof_ite (aloof_raise (aloof_set (aloof_bump h))) (aloof_bump h))

theorem aloof_takeWords (h : Aloof s₀ s) : Aloof s₀ (s.takeWords f m n).1 := by
  unfold State.takeWords
  extract_lets x o marks got y short met a b d
  have ha : Aloof s₀ a := aloof_set (aloof_putWords h)
  have hb : Aloof s₀ b := aloof_set ha
  have hd : Aloof s₀ d := aloof_bump (aloof_custodyFailed hb)
  exact aloof_ite hd (aloof_raise (aloof_bump hd))

theorem aloof_putStream (h : Aloof s₀ s) : Aloof s₀ (s.putStream m f n q) :=
  aloof_ite h (aloof_ite (aloof_regs h) (aloof_regs (aloof_takeWords h)))

theorem aloof_gfpPut {l : List Byte} (h : Aloof s₀ s) : Aloof s₀ (s.gfpPut m l) := aloof_ite (aloof_regs h) (aloof_regs h)

theorem aloof_fallDue (h : Aloof s₀ s) : Aloof s₀ (s.fallDue m n) := by
  unfold State.fallDue
  extract_lets has k
  refine aloof_ite h ?_
  split
  · exact aloof_putStream (aloof_when (aloof_putStream h) (aloof_set (aloof_putStream h)))
  · exact aloof_gfpPut h

theorem aloof_streamEnd (h : Aloof s₀ s) : Aloof s₀ (s.streamEnd m) := by
  unfold State.streamEnd
  extract_lets a
  have ha : Aloof s₀ a := aloof_fallDue h
  split
  · exact aloof_set (aloof_set ha)
  · exact ha

theorem aloof_readWords {l : List TileRead} (h : Aloof s₀ s) : Aloof s₀ (s.readWords f l) :=
  aloof_each h fun _ _ ht => aloof_ite ht (aloof_regs ht)

/-! ## Calendar, bindings and line -/

theorem aloof_calTake (h : Aloof s₀ s) : Aloof s₀ (s.calTake m) :=
  aloof_ite h (aloof_set (aloof_set (aloof_each h fun _ _ ht => aloof_set ht)))

theorem aloof_calSettle (h : Aloof s₀ s) : Aloof s₀ s.calSettle := by
  cases hp : s.flag .calPending 0 with
  | false =>
    rw [show s.calSettle = s from if_pos (by rw [hp]; rfl)]
    exact h
  | true =>
    have hc : ∀ {y : State} {dst src : Reg}, dst ∉ txRests → dst ≠ .eventCount → Aloof s₀ y → Aloof s₀ (y.copyUnits dst src) :=
      fun h1 h2 hy => aloof_each (aloof_each hy fun _ _ ht => aloof_set ht h1 h2) fun _ _ ht => aloof_set ht h1 h2
    have ht : Aloof s₀ (calTaken s) := aloof_each h fun _ _ ht => aloof_calTake ht
    rw [calSettle_eq hp]
    exact aloof_ite ht (aloof_raise (aloof_bump (aloof_set (aloof_each (hc (by decide) (by decide) (hc (by decide) (by decide) ht))
      fun _ _ ht => aloof_set ht))))

theorem aloof_bindingsTake {l : List Nat} (h : Aloof s₀ s) : Aloof s₀ (s.bindingsTake d l) := by
  have hc : ∀ {y : State}, Aloof s₀ y → Aloof s₀ y.capacityCheck := fun {y} hy => by
    unfold State.capacityCheck
    extract_lets tx rx cores cap x order outTx left outRx same a z1 z2 z3 z4
    have ha : Aloof s₀ a := aloof_set (aloof_set (aloof_set hy))
    have h1 : Aloof s₀ z1 := aloof_each ha fun _ _ ht => aloof_set ht
    have h2 : Aloof s₀ z2 := aloof_each h1 fun _ _ ht => aloof_set ht
    have h3 : Aloof s₀ z3 := aloof_each h2 fun _ _ ht => aloof_set ht
    have h4 : Aloof s₀ z4 := aloof_each h3 fun _ _ ht => aloof_set ht
    exact aloof_ite ha (aloof_raise (aloof_set h4))
  exact aloof_ite h (hc (aloof_each h fun _ _ ht => aloof_set ht))

theorem aloof_dropWords (h : Aloof s₀ s) : Aloof s₀ (s.dropWords m q) :=
  aloof_ite (aloof_set (aloof_regs h)) (aloof_regs h)

theorem aloof_lineBoundary (h : Aloof s₀ s) : Aloof s₀ (s.lineBoundary c q) := by
  unfold State.lineBoundary
  extract_lets x f y
  have hy : Aloof s₀ y := aloof_regs h
  clear_value y
  exact aloof_regs hy

/-! ## The stages of a boundary -/

/-- The streams of the multiframe that ends, and the tiles read for them. -/
def streamsEnded (c : Nat) (l : List StreamReading) (s : State) : State :=
  (s.each (if s.get .xTxMf c == 0 then [] else s.tribsOn 0 c) State.streamEnd).each l fun s r => s.readWords r.flow r.reads

/-- The calendar taken. -/
def calendarMet (c : Nat) (s : State) : State :=
  if s.flag .calPending 0 then (s.each ((s.tribsOn 0 c).filter fun t => s.spanTribs.contains t) State.calTake).calSettle else s

/-- Bindings in force, words dropped, and the line's next field. -/
def lineBegun (c : Nat) (first : Bool) (s : State) : State :=
  let s := s.bindingsTake 0 (s.tribsOn 0 c)
  (s.each (s.tribsOn 0 c) fun s t => s.dropWords t first).lineBoundary c first

/-- The multiframe numbered (R215). -/
def multiNumbered (c : Nat) (first : Bool) (s : State) : State :=
  s |>.set .xTxBsq c (if first then 0 else (s.get .xTxBsq c + 1) % 2 ^ 24)
    |>.set .xTxMf c (s.get .xTxMf c + 1) |>.set .xTxFnum c 0

/-- The tributaries whose Cm is fixed at a boundary of carrier c. -/
def cmTribs (c : Nat) (s : State) : List Nat :=
  (s.tribsOn 0 c ++ (s.rowsNext c |>.filter fun r => r.order == 0 && r.carrier == c).map Row.trib).eraseDups

/-- Cm of the next multiframe fixed (R248). -/
def cmFixed (c : Nat) (first : Bool) (s : State) : State := s.each (cmTribs c s) fun y t => y.fixCm (s.rowsNext c) first t

/-- The pair's lines aligned. -/
def tieAligned (c : Nat) (s : State) : State :=
  if s.pairActive && c == 0 then s.tieSend (.tieAlign (s.nat .xTxBsq 0) s.now) else s

/-- What the boundary does once the page has been announced. -/
def lineAnew (c : Nat) (first : Bool) (s : State) : State := tieAligned c (cmFixed c first (multiNumbered c first (lineBegun c first (calendarMet c s))))

theorem txBoundary_eq {l : List StreamReading} (h1 : s.get .carrierState c ≠ 0) (h2 : s.nat .carrierFecProfileInForce c ≠ 2) :
    s.txBoundary c l = lineAnew c (s.get .xTxMf c == 0) ((streamsEnded c l s).reloadTables.announce c) := by
  have hi : ¬ s.idle c = true := by simpa [State.idle] using h1
  unfold State.txBoundary
  rw [if_neg hi, if_neg (show ¬ _ = profCompatible from h2)]
  rfl

theorem streamsEnded_aloof {l : List StreamReading} : Aloof s (streamsEnded c l s) :=
  aloof_each (aloof_each (Aloof.refl s) fun _ _ ht => aloof_streamEnd ht) fun _ _ ht => aloof_readWords ht

theorem lineBegun_aloof : Aloof s (lineBegun c q (calendarMet c s)) := by
  have hc : Aloof s (calendarMet c s) := aloof_ite (aloof_calSettle (aloof_each (Aloof.refl s) fun _ _ ht => aloof_calTake ht)) (Aloof.refl s)
  unfold lineBegun
  extract_lets y
  have hy : Aloof s y := aloof_bindingsTake hc
  exact aloof_lineBoundary (aloof_each hy fun _ _ ht => aloof_dropWords ht)

/-! ## Cm (R248) -/

theorem nodup_eraseDups {α : Type} [BEq α] [LawfulBEq α] (l : List α) : l.eraseDups.Nodup := by
  induction h : l.length using Nat.strong_induction_on generalizing l with
  | _ n ih =>
    cases l with
    | nil => exact List.nodup_nil
    | cons a l =>
      rw [List.eraseDups_cons, List.nodup_cons]
      have hl : (l.filter fun b => !b == a).length < n := (List.length_filter_le _ _).trans_lt (by rw [← h, List.length_cons]; omega)
      exact ⟨fun hm => by simp at hm, ih _ hl _ rfl⟩

abbrev cmRegs : List Reg := [.xTribCmNow, .xTribFillNow, .xTribCm, .xTribFill, .xFlowMf]

/-- Cm fixed, before the flow's first multiframe is noted. -/
def cmPut (cm fill : Nat) (first : Bool) (t : Nat) (s : State) : State :=
  s |>.set .xTribCmNow t (if first then 0 else s.get .xTribCm t)
    |>.set .xTribFillNow t (if first then 1 else s.get .xTribFill t)
    |>.set .xTribCm t (cm : Nat) |>.set .xTribFill t (fill : Nat)

theorem fixCm_get {rows : List Row} : ∃ cm fill, ∀ r i, r ≠ .xFlowMf → (s.fixCm rows q n).get r i = (cmPut cm fill q n s).get r i := by
  unfold State.fixCm
  extract_lets cap fill cm y
  refine ⟨cm, fill, fun r i hr => ?_⟩
  have hy : y = cmPut cm fill q n s := rfl
  rw [← hy]
  split
  · split
    · exact get_set_reg _ _ hr
    · rfl
  · rfl

theorem cmPut_apart {cm fill : Nat} : Apart cmRegs.contains s (cmPut cm fill q n s) :=
  apart_set (apart_set (apart_set (apart_set (Apart.refl s))))

theorem fixCm_left {rows : List Row} (hr : cmRegs.contains r = false) : (s.fixCm rows q n).get r i = s.get r i := by
  obtain ⟨cm, fill, h⟩ := fixCm_get (s := s) (q := q) (n := n) (rows := rows)
  rw [h _ _ (fun he => by rw [he] at hr; cases hr), cmPut_apart.regs _ _ hr]

/-- What is fixed for a tributary, and what is in force of it. -/
def cmOf (n : Nat) (s : State) : Int × Int × Int × Int :=
  (s.get .xTribCmNow n, s.get .xTribFillNow n, s.get .xTribCm n, s.get .xTribFill n)

/-- Fixing Cm of another tributary leaves this one's. -/
theorem fixCm_beside {rows : List Row} (hn : n ≠ m) : cmOf n (s.fixCm rows q m) = cmOf n s := by
  obtain ⟨cm, fill, h⟩ := fixCm_get (s := s) (q := q) (n := m) (rows := rows)
  have ho : ∀ r, r ∈ [Reg.xTribCmNow, .xTribFillNow, .xTribCm, .xTribFill] → (cmPut cm fill q m s).get r n = s.get r n := fun r _ => by
    have hs : ∀ (y : State) a v, (y.set a m v).get r n = y.get r n := fun y a v => get_set_other _ _ fun he => hn (Prod.mk.inj he).2
    rw [cmPut, hs, hs, hs, hs]
  unfold cmOf
  rw [h _ _ (by decide), h _ _ (by decide), h _ _ (by decide), h _ _ (by decide), ho _ (by decide), ho _ (by decide), ho _ (by decide),
    ho _ (by decide)]

/-- What was fixed takes force (R248). -/
theorem fixCm_takes {rows : List Row} : (s.fixCm rows false n).get .xTribCmNow n = s.get .xTribCm n
    ∧ (s.fixCm rows false n).get .xTribFillNow n = s.get .xTribFill n := by
  obtain ⟨cm, fill, h⟩ := fixCm_get (s := s) (q := false) (n := n) (rows := rows)
  rw [h _ _ (by decide), h _ _ (by decide), cmPut]
  simp (disch := decide) only [get_set_reg, get_set_same]
  exact ⟨rfl, rfl⟩

theorem cmFixed_left (hr : cmRegs.contains r = false) : (cmFixed c q s).get r i = s.get r i :=
  each_view (view := fun y => y.get r i) fun _ _ _ => fixCm_left hr

theorem cmFixed_takes (h : n ∈ cmTribs c s) : (cmFixed c false s).get .xTribCmNow n = s.get .xTribCm n
    ∧ (cmFixed c false s).get .xTribFillNow n = s.get .xTribFill n := by
  obtain ⟨x, -, h1, h2⟩ := each_view_at (s := s) (view := cmOf n) (I := fun _ => True) (f := fun y t => y.fixCm (s.rowsNext c) false t)
    (nodup_eraseDups _) h (fun y a _ ha => fixCm_beside ha.symm) trivial fun _ _ _ _ => trivial
  obtain ⟨t1, t2⟩ := fixCm_takes (s := x) (n := n) (rows := s.rowsNext c)
  obtain ⟨a1, a2, a3, a4⟩ : _ ∧ _ ∧ _ ∧ _ := by simpa only [cmOf, Prod.mk.injEq] using h1
  obtain ⟨b1, b2, -, -⟩ : _ ∧ _ ∧ _ ∧ _ := by simpa only [cmOf, Prod.mk.injEq] using h2
  exact ⟨b1.trans (t1.trans a3), b2.trans (t2.trans a4)⟩

theorem tieAligned_apart : Apart [Reg.tieSent].contains s (tieAligned c s) := by
  have ht : ∀ o, Apart [Reg.tieSent].contains s (s.tieSend o) := fun o => apart_ite (Apart.refl s) ((apart_bump (Apart.refl s)).other rfl)
  exact apart_ite (ht _) (Apart.refl s)

/-! ## The tributaries of a carrier -/

/-- The tributaries of a carrier stay its own while its rows stand and no more table words are lost. -/
theorem tribsOn_mono (h1 : t.listed .tsiActiveRow = s.listed .tsiActiveRow)
    (h2 : ∀ i, s.flag .xTableLost i = false → t.flag .xTableLost i = false) (hm : n ∈ s.tribsOn d c) : n ∈ t.tribsOn d c := by
  unfold State.tribsOn State.pageRows State.tableRows at hm ⊢
  rw [h1]
  simp only [List.mem_map, List.mem_filter, Bool.not_eq_true'] at hm ⊢
  obtain ⟨r, ⟨⟨hr, hl⟩, hc⟩, hn⟩ := hm
  exact ⟨r, ⟨⟨hr, h2 _ hl⟩, hc⟩, hn⟩

theorem reloadTables_lost (h : s.flag .xTableLost i = false) : s.reloadTables.flag .xTableLost i = false :=
  each_holds (P := fun y => y.flag .xTableLost i = false) h fun y a hy => by
    by_cases ha : i = a
    · rw [ha, State.flag, get_set_same]
      rfl
    · rw [State.flag, get_set_other _ _ fun he => ha (Prod.mk.inj he).2, ← State.flag, hy]

/-! ## A line begins anew -/

theorem multiNumbered_left (h : r ∉ [Reg.xTxBsq, .xTxMf, .xTxFnum]) : (multiNumbered c q s).get r i = s.get r i := by
  simp only [List.mem_cons, List.not_mem_nil, or_false, not_or] at h
  obtain ⟨h1, h2, h3⟩ := h
  rw [multiNumbered, get_set_reg _ _ h3, get_set_reg _ _ h2, get_set_reg _ _ h1]

/-- What the numbering and Cm of a line leave. -/
theorem lineAnew_left (h : r ∈ [Reg.xAnnounce, .xTpgTx, .tsiActiveRow] ∨ r = .eventCount ∧ i < 480) : (lineAnew c q s).get r i = s.get r i := by
  have hk : (lineBegun c q (calendarMet c s)).get r i = s.get r i := by
    rcases h with h | ⟨rfl, hi⟩
    · exact lineBegun_aloof.get ((show [Reg.xAnnounce, .xTpgTx, .tsiActiveRow] ⊆ txRests by decide) h)
    · exact lineBegun_aloof.silent i hi
  have hr : r ∈ [Reg.xAnnounce, .xTpgTx, .tsiActiveRow, .eventCount] := by
    rcases h with h | ⟨rfl, -⟩
    · exact (show [Reg.xAnnounce, .xTpgTx, .tsiActiveRow] ⊆ _ by decide) h
    · decide
  obtain ⟨h1, h2, h3⟩ := (show ∀ r ∈ [Reg.xAnnounce, .xTpgTx, .tsiActiveRow, .eventCount], [Reg.tieSent].contains r = false
    ∧ cmRegs.contains r = false ∧ r ∉ [Reg.xTxBsq, .xTxMf, .xTxFnum] by decide) r hr
  rw [lineAnew, tieAligned_apart.regs _ _ h1, cmFixed_left h2, multiNumbered_left h3, hk]

/-- The numbers of the multiframe that begins (R215). -/
theorem lineAnew_numbers : (lineAnew c q s).get .xTxMf c = s.get .xTxMf c + 1 ∧ (lineAnew c q s).get .xTxFnum c = 0
    ∧ (lineAnew c q s).get .xTxBsq c = if q then 0 else (s.get .xTxBsq c + 1) % 2 ^ 24 := by
  have hA : Aloof s (lineBegun c q (calendarMet c s)) := lineBegun_aloof
  refine ⟨?_, ?_, ?_⟩
  · rw [lineAnew, tieAligned_apart.regs _ _ rfl, cmFixed_left rfl, multiNumbered, get_set_reg _ _ (by decide), get_set_same, hA.get]
  · rw [lineAnew, tieAligned_apart.regs _ _ rfl, cmFixed_left rfl, multiNumbered, get_set_same]
  · rw [lineAnew, tieAligned_apart.regs _ _ rfl, cmFixed_left rfl, multiNumbered, get_set_reg _ _ (by decide), get_set_reg _ _ (by decide),
      get_set_same, hA.get]

/-- What was fixed for a tributary of the carrier takes force (R248). -/
theorem lineAnew_takes (hm : n ∈ s.tribsOn 0 c) : (lineAnew c false s).get .xTribCmNow n = s.get .xTribCm n
    ∧ (lineAnew c false s).get .xTribFillNow n = s.get .xTribFill n := by
  have hA : Aloof s (lineBegun c false (calendarMet c s)) := lineBegun_aloof
  have hM : Alike [.tsiActiveRow, .xTableLost] (lineBegun c false (calendarMet c s)) (multiNumbered c false (lineBegun c false (calendarMet c s))) :=
    alike_set (alike_set (alike_set (Alike.refl _ _) (by decide)) (by decide)) (by decide)
  have hn : n ∈ cmTribs c (multiNumbered c false (lineBegun c false (calendarMet c s))) := by
    refine List.mem_eraseDups.2 (List.mem_append_left _ (tribsOn_mono ?_ (fun i hi => ?_) hm))
    · rw [(hM .tsiActiveRow (by decide)).1, (hA.alike .tsiActiveRow (by decide)).1]
    · rw [State.flag, (hM .xTableLost (by decide)).2, hA.get, ← State.flag, hi]
  obtain ⟨t1, t2⟩ := cmFixed_takes hn
  rw [lineAnew, tieAligned_apart.regs _ _ rfl, tieAligned_apart.regs _ _ rfl, t1, t2, multiNumbered_left (by decide), multiNumbered_left (by decide),
    hA.get, hA.get]
  exact ⟨rfl, rfl⟩

/-! ## Announce and flip of a transmit page (R221) -/

theorem announce_starts (h : s.get .xAnnounce c = 1) : (s.announce c).get .xAnnounce c = 2 := by
  rw [State.announce, if_pos h, get_set_same]

theorem announce_flips (h : s.get .xAnnounce c = 2) : s.announce c = s.pageFlip 0 c := by
  rw [State.announce, if_neg (by rw [h]; decide), if_pos h]

/-- A page not due to flip is at most announced. -/
theorem announce_alike (h : s.get .xAnnounce c ≠ 2) (hL : .xAnnounce ∉ L) : Alike L s (s.announce c) := by
  rw [State.announce, if_neg h]
  exact alike_ite (alike_set (Alike.refl _ s) hL) (Alike.refl _ s)

theorem announce_apart : Apart (fun r => Safety.eventSide r || pageRegs.contains r) s (s.announce c) :=
  apart_ite (apart_set (Apart.refl s)) (apart_ite pageFlip_apart (Apart.refl s))

/-- The flip of an announced page (R221). -/
theorem announced_flip : (s.pageFlip 0 c).get .xAnnounce c = 0 ∧ (s.pageFlip 0 c).get .xTpgTx c = 1 - s.get .xTpgTx c := by
  have hx : ∀ y : State, (flipNoted 0 c y).get .xAnnounce c = 0 ∧ (flipNoted 0 c y).get .xTpgTx c = 1 - y.get .xTpgTx c := fun y => by
    unfold flipNoted State.setBit
    dsimp only
    rw [if_pos rfl]
    simp (disch := decide) only [get_set_reg, get_set_same, get_bump_other (.inl _), and_self]
  rw [pageFlip_eq, get_raise, get_raise, (hx _).1, (hx _).2, rowsTaken_other (by decide)]
  exact ⟨rfl, rfl⟩

theorem pageFlip_raises (hc : c < 12) (hs : Silent (evCarrier c 11) s₀ s) : Safety.raised s₀ (s.pageFlip d c) (evCarrier c 11) := by
  rw [pageFlip_eq]
  refine Silent.raised (hs.trans ?_) ?_
  · exact (flipNoted_get (by decide)).trans (rowsTaken_other (by decide))
  · unfold evCarrier evDev
    omega

end Sys2Proof.Laws

namespace Sys2Proof

open Sys2Proof.Machine Sys2Proof.Laws

/-- Settles O30: what a boundary does before and after its pages leaves the pages, the numbering and the state of the carrier. -/
theorem multiframesFlipPagesAndAdvance : Obligations.MultiframesFlipPagesAndAdvance := by
  refine ⟨⟨fun s c l hp h => ?_, fun s c l hp h1 h2 => ?_, fun s c l hp h1 h2 => ?_⟩, fun s c m h => ?_, fun s c m hp h1 h2 h3 => ?_,
    fun s c m hp h1 h2 h3 => ?_⟩
  · refine live_still (f := fun s => s.txBoundary c l) (if_pos ?_)
    exact decide_eq_true h
  · refine ⟨_, (live_running (f := fun s => s.txBoundary c l) hp).trans (congrArg Host.Outcome.next (txBoundary_compatible h1 h2)), ?_, fun k => ?_⟩
    · rw [pageSettle_apart.regs _ _ rfl, reloadTables_apart.regs _ _ rfl]
    · obtain ⟨g1, g2, g3⟩ := settled_pages k
      exact ⟨g1, g2, fun r hr => by simpa using g3 r hr⟩
  · have hx := (live_running (f := fun s => s.txBoundary c l) hp).trans (congrArg Host.Outcome.next (txBoundary_eq (l := l) h1 h2))
    have hA := streamsEnded_aloof (s := s) (c := c) (l := l)
    have hR := reloadTables_apart (s := streamsEnded c l s)
    have hg : ∀ {r i}, r ∈ txRests → [Reg.xTableLost].contains r = false → (streamsEnded c l s).reloadTables.get r i = s.get r i :=
      fun k1 k2 => (hR.regs _ _ k2).trans (hA.get k1)
    have hB := announce_apart (s := (streamsEnded c l s).reloadTables) (c := c)
    obtain ⟨n1, n2, n3⟩ := lineAnew_numbers (s := (streamsEnded c l s).reloadTables.announce c) (c := c) (q := s.get .xTxMf c == 0)
    refine ⟨_, hx, ?_, n2, ?_, fun k => ?_, fun k => ?_, fun k1 k2 k3 u hu => ?_⟩
    · rw [n1, hB.regs _ _ rfl, hg (by decide) rfl]
    · rw [n3, hB.regs _ _ rfl, hg (by decide) rfl]
      simp only [beq_iff_eq]
    · rw [lineAnew_left (.inl (by decide)), announce_starts ((hg (by decide) rfl).trans k)]
    · have hf := announce_flips (s := (streamsEnded c l s).reloadTables) (c := c) ((hg (by decide) rfl).trans k)
      obtain ⟨f1, f2⟩ := announced_flip (s := (streamsEnded c l s).reloadTables) (c := c)
      obtain ⟨-, -, f3⟩ := pageFlip_reports (s := (streamsEnded c l s).reloadTables) (n := c) (dir := 0)
      rw [hf]
      have h480 : evCarrier c 11 < 480 := by
        unfold evCarrier
        omega
      refine ⟨?_, ?_, ?_, fun r hr => ?_⟩
      · rw [lineAnew_left (.inl (by decide)), f1]
      · rw [lineAnew_left (.inl (by decide)), f2, hg (by decide) rfl]
      · refine raised_of_count (lineAnew_left (.inr ⟨rfl, h480⟩)) (pageFlip_raises c.isLt ?_)
        exact (hA.silent _ h480).trans (hR.regs _ _ rfl)
      · rw [lineAnew_left (.inl (by decide)), ← hg (by decide) rfl]
        simpa using f3 r hr
    · have hn : (streamsEnded c l s).reloadTables.get .xAnnounce c ≠ 2 := by
        rw [hg (by decide) rfl]
        exact k1
      have hL := announce_alike (L := [.tsiActiveRow, .xTableLost]) hn (by decide)
      have hT : Alike [.tsiActiveRow] (streamsEnded c l s) (streamsEnded c l s).reloadTables := reloadTables_alike (by decide)
      have hu' : u ∈ ((streamsEnded c l s).reloadTables.announce c).tribsOn 0 c := by
        refine tribsOn_mono ?_ (fun i hi => ?_) hu
        · rw [(hL .tsiActiveRow (by decide)).1, (hT .tsiActiveRow (by decide)).1, (hA.alike .tsiActiveRow (by decide)).1]
        · rw [State.flag, (hL .xTableLost (by decide)).2, ← State.flag]
          exact reloadTables_lost (by rw [State.flag, hA.get, ← State.flag, hi])
      have h0 : (s.get .xTxMf c == 0) = false := by simpa using k3
      obtain ⟨t1, t2⟩ := lineAnew_takes hu'
      rw [h0, t1, t2, hB.regs _ _ rfl, hB.regs _ _ rfl, hg (by decide) rfl, hg (by decide) rfl]
      exact ⟨rfl, rfl⟩
  · refine live_still (f := fun s => s.rxBoundary c m) (if_pos ?_)
    rw [h]
    rfl
  · obtain ⟨g1, g2, g3⟩ := rxBoundaryCompatible_reports (s := s) (c := c)
    exact ⟨_, (live_running (f := fun s => s.rxBoundary c m) hp).trans (congrArg Host.Outcome.next (rxBoundary_compatible h1 h2 h3)), g1, g2, g3⟩
  · have hx := (live_running (f := fun s => s.rxBoundary c m) hp).trans (congrArg Host.Outcome.next (rxBoundary_eq (x := m) h1 h2 h3))
    have hP := multiPaged_apart (s := s) (c := c) (h := (s.rx c).multi)
    obtain ⟨p1, p2⟩ := multiPaged_pages (s := s) (c := c) (h := (s.rx c).multi)
    have p3 := multiPaged_carries (s := s) (c := c) (h := (s.rx c).multi)
    have hA : ∀ {r i}, phaseRegs.contains r = false →
        (multiPhased c ((s.rx c).phase.getD (phaseWordOf m.signs)) (multiPaged c (s.rx c).multi s)).get r i
          = (multiPaged c (s.rx c).multi s).get r i := fun k => multiPhased_apart.regs _ _ k
    have hn : ∀ {r i}, pagedRegs.contains r = false → Safety.eventSide r = false → (multiPaged c (s.rx c).multi s).get r i = s.get r i :=
      fun k1 k2 => hP.regs _ _ (by rw [k1, k2]; rfl)
    have hF := multiPhased_counts (s := multiPaged c (s.rx c).multi s) (c := c) (k := (s.rx c).phase.getD (phaseWordOf m.signs))
    have hN : ∀ {r}, pagedRegs.contains r = false → Safety.eventSide r = false → (multiPaged c (s.rx c).multi s).nat r c = s.nat r c :=
      fun k1 k2 => congrArg Int.toNat (hn k1 k2)
    rw [hN rfl rfl, hN rfl rfl, State.flag, hn rfl rfl, ← State.flag, Safety.countedBy, hN rfl rfl] at hF
    generalize multiPhased c ((s.rx c).phase.getD (phaseWordOf m.signs)) (multiPaged c (s.rx c).multi s) = y at *
    generalize (State.setRx _ _ _).tribsOn 1 c = l at *
    refine ⟨_, hx, ?_, ?_, fun b hb hf => ?_, ?_, fun k => ?_, fun k1 k2 k3 k4 k5 k6 k7 r hr => ?_, fun k1 k2 k3 => ?_, fun k1 k2 => ?_⟩
    · rw [(sharesOpened_regs (L := [])).regs _ _ rfl]
      exact get_set_same _ _ _ _
    · rw [(sharesOpened_regs (L := [])).regs _ _ rfl, multiEnded, get_set_reg _ _ (by decide), get_set_same]
    · rw [(sharesOpened_regs (L := [])).regs _ _ rfl, hb, multiEnded_bsq]
      rw [State.flag, multiRows_kept.get, hA rfl, hP.regs _ _ rfl, ← State.flag, hf]
    · rw [sharesOpened_rx, multiEnded_multi]
    · obtain ⟨g1, g2, g3⟩ := p1 k
      refine ⟨?_, ?_, fun r hr => ?_⟩
      · rw [State.bit, State.nat, multiDone_get, hA rfl, ← State.nat, ← State.bit, g1]
      · rw [Safety.countedBy, multiDone_get, hA rfl, g2]
      · rw [multiDone_get, hA rfl, g3 r hr]
    · rw [multiDone_get, hA rfl, p2 k1 k2 k3 (by unfold pageBlind; rw [k4, k5, k6]; rfl) k7 r hr]
    · rw [multiDone_get, hA rfl, p3 k1 k2 k3]
    · rw [Safety.countedBy, multiDone_get, hF h3 k1 k2]

end Sys2Proof

/-! # Stroke sets at the slack buffers (R16 to R22, R59, R67, R126) -/

namespace Sys2Proof.Laws

set_option Elab.async false

open Sys2Proof.Machine

variable {s₀ s t u : State} {cl : Client} {r : Reg} {i j n m b c e f g p k d : Nat} {v : Int} {L : List Reg}
  {K : Reg → Bool} {q : Bool}

/-! ## What stands in the buffers and on the lines -/

/-- The buffers, lines and queues beside the registers. -/
def linesOf (s : State) :=
  (s.rxSlack, s.txSlack, s.txLine, s.rxLine, s.mem, s.polQueue)

theorem linesOf_bump : linesOf (s.bump r i n) = linesOf s := by
  unfold State.bump
  dsimp only
  split <;> rfl

/-- What a raise leaves. -/
abbrev raiseScope : Scope := fun p => match p with
  | .events | .housekeeping | .captures => false
  | _ => true

theorem linesOf_kept {κ : Scope} (h : Kept κ s t) (h1 : κ .slack = true := by rfl) (h2 : κ .txLine = true := by rfl)
    (h3 : κ .rxLine = true := by rfl) (h4 : κ .memory = true := by rfl) (h5 : κ .equaliser = true := by rfl) : linesOf t = linesOf s := by
  obtain ⟨a, b⟩ := h.sameSlack h1
  unfold linesOf
  rw [a, b, h.sameTxLine h2, h.sameRxLine h3, h.sameMem h4, h.samePol h5]

theorem linesOf_raiseClear {l : List Item} : linesOf (s.raiseClear e l q) = linesOf s := by
  have := fact_false
  exact linesOf_kept (kept_raiseClear (κ := raiseScope) (Kept.refl s))

/-- Two states agree about buffers, lines and queues. -/
theorem lines_eq (h : linesOf t = linesOf s) : t.rxSlack = s.rxSlack ∧ t.txSlack = s.txSlack ∧ t.txLine = s.txLine ∧ t.rxLine = s.rxLine
    ∧ t.mem = s.mem ∧ t.polQueue = s.polQueue := by
  simpa only [linesOf, Prod.mk.injEq] using h

theorem slack_of (h : linesOf t = linesOf s) : t.slack c = s.slack c := by rw [State.slack, (lines_eq h).1, ← State.slack]

theorem strokes_of (h : linesOf t = linesOf s) : t.strokes c = s.strokes c := by rw [State.strokes, (lines_eq h).2.1, ← State.strokes]

theorem tx_of (h : linesOf t = linesOf s) : t.tx c = s.tx c := by
  obtain ⟨-, -, hx, -⟩ := lines_eq h
  rw [State.tx, hx, ← State.tx]

theorem rx_of (h : linesOf t = linesOf s) : t.rx c = s.rx c := by
  obtain ⟨-, -, -, hx, -⟩ := lines_eq h
  exact rx_congr hx

theorem mem_of (h : linesOf t = linesOf s) : t.mem = s.mem := by
  obtain ⟨-, -, -, -, hx, -⟩ := lines_eq h
  exact hx

theorem pol_of (h : linesOf t = linesOf s) : t.polQueue = s.polQueue := by
  obtain ⟨-, -, -, -, -, hx⟩ := lines_eq h
  exact hx

theorem setSlack_same {l : List SlackItem} : (s.setSlack c l).slack c = l := sget_sput_same _ _ _ _ _

theorem setSlack_beside {l : List SlackItem} (h : d ≠ c) : (s.setSlack c l).slack d = s.slack d := sget_sput_other _ _ _ _ _ h

/-! ## A carrier held (R20, R21) -/

/-- What holding a carrier writes, beside events. -/
abbrev heldRegs : List Reg := [.carrierSlackHeld, .carrierSlackHoldEpisodes]

theorem enterHeld_apart : Apart (fun r => Safety.eventSide r || heldRegs.contains r) s (s.enterHeld c) :=
  apart_ite (Apart.refl s) (apart_raiseClear (wide_events _) (apart_bump (apart_set (Apart.refl s))))

theorem leaveHeld_apart : Apart (fun r => Safety.eventSide r || heldRegs.contains r) s (s.leaveHeld c) :=
  apart_ite (apart_raiseClear (wide_events _) (apart_set (Apart.refl s))) (Apart.refl s)

theorem settleHeld_apart : Apart (fun r => Safety.eventSide r || heldRegs.contains r) s (s.settleHeld c) :=
  apart_ite leaveHeld_apart (Apart.refl s)

theorem enterHeld_lines : linesOf (s.enterHeld c) = linesOf s := by
  unfold State.enterHeld
  split
  · rfl
  · rw [linesOf_raiseClear, linesOf_bump]
    rfl

theorem settleHeld_lines : linesOf (s.settleHeld c) = linesOf s := by
  unfold State.settleHeld State.leaveHeld
  split
  · split
    · rw [linesOf_raiseClear]
      rfl
    · rfl
  · rfl

theorem enterHeld_out : s.out <+: (s.enterHeld c).out := by
  have := fact_false
  exact (kept_enterHeld (κ := noScope) (Kept.refl s)).out

theorem settleHeld_get (h : Safety.eventSide r = false := by rfl) (hr : heldRegs.contains r = false := by rfl) :
    (s.settleHeld c).get r i = s.get r i := settleHeld_apart.regs _ _ (by rw [h, hr]; rfl)

theorem enterHeld_get (h : Safety.eventSide r = false := by rfl) (hr : heldRegs.contains r = false := by rfl) :
    (s.enterHeld c).get r i = s.get r i := enterHeld_apart.regs _ _ (by rw [h, hr]; rfl)

/-- A carrier that is held reads so. -/
theorem enterHeld_held : (s.enterHeld c).get .carrierSlackHeld c ≠ 0 := by
  unfold State.enterHeld
  split
  · rename_i h
    simpa [State.flag] using h
  · rw [get_raiseClear rfl, get_bump_other (.inl (by decide)), get_set_same]
    decide

/-! ## A set arrives (R19, R59, R67) -/

theorem countClips_counts {codes : Stroke} (k : Fin 4) :
    Safety.countedBy s (s.countClips c codes) .adcClipCount (4 * c + k.val) (adcClips codes k.val) := by
  obtain ⟨x, -, h1, h2⟩ := each_view_at (s := s) (view := fun y => y.get .adcClipCount (4 * c + k.val)) (I := fun _ => True)
    (f := fun y a => y.bump .adcClipCount a (adcClips codes (a % 4))) nodup_channels (channel_mem (c := c) k)
    (fun y a _ ha => get_bump_other (.inr ha.symm)) trivial fun _ _ _ _ => trivial
  have hk : (4 * c + k.val) % 4 = k.val := by omega
  have hx : (s.countClips c codes).get .adcClipCount (4 * c + k.val)
      = (x.bump .adcClipCount (4 * c + k.val) (adcClips codes ((4 * c + k.val) % 4))).get .adcClipCount (4 * c + k.val) := h2
  rw [Safety.countedBy, hx, hk, get_bump_same, State.nat, h1, ← State.nat]

theorem countClips_apart {codes : Stroke} : Apart [Reg.adcClipCount].contains s (s.countClips c codes) :=
  apart_each (Apart.refl s) fun _ _ ht => apart_bump ht

theorem countClips_lines {codes : Stroke} : linesOf (s.countClips c codes) = linesOf s := each_view (view := linesOf) fun _ _ _ => linesOf_bump

/-- What a window's end writes, beside events. -/
abbrev windowSide : List Reg := windowRegs ++ channelRegs ++ [.xAdcLos]

theorem agcChannel_apart (h : Apart (fun r => Safety.eventSide r || windowSide.contains r) s₀ s) :
    Apart (fun r => Safety.eventSide r || windowSide.contains r) s₀ (s.agcChannel i n) := by
  rw [agcChannel_eq]
  dsimp only
  unfold demandNoted
  extract_lets y
  have hy : Apart (fun r => Safety.eventSide r || windowSide.contains r) s₀ y := apart_set (apart_set (apart_set h))
  exact apart_ite (apart_ite (apart_raise (wide_events _) (apart_set hy)) hy) (apart_set (apart_set (apart_set (apart_set h))))

theorem agcWindow_apart : Apart (fun r => Safety.eventSide r || windowSide.contains r) s (s.agcWindow c) := by
  have hm : Apart (fun r => Safety.eventSide r || windowSide.contains r) s (windowMeasured c s) :=
    apart_ite (Apart.refl s) (apart_set (apart_each (Apart.refl s) fun _ _ ht => agcChannel_apart ht))
  have hr : Apart (fun r => Safety.eventSide r || windowSide.contains r) s ((windowMeasured c s).agcRestart c) :=
    apart_agcRestart hm (by decide)
  by_cases h : 256 ≤ s.nat .xAgcSets c
  · rw [agcWindow_eq h]
    exact apart_ite (apart_set (apart_set (apart_set hr))) hr
  · rw [State.agcWindow, if_pos (by omega)]
    exact Apart.refl s

/-- What a window's end leaves of buffers and lines. -/
abbrev windowScope : Scope := fun p => match p with
  | .events | .converters | .defects | .housekeeping | .captures => false
  | _ => true

theorem agcWindow_lines : linesOf (s.agcWindow c) = linesOf s := by
  have := fact_false
  exact linesOf_kept (kept_agcWindow (κ := windowScope) (Kept.refl s))

/-- Steps decided by a window wait; a carrier that owes none has none applied (R67). -/
theorem window_waits (h : s.flag .xGainDue c = false) : (s.agcWindow c).gainApply c = s.agcWindow c := by
  refine if_pos ?_
  by_cases h2 : 256 ≤ s.nat .xAgcSets c
  · obtain ⟨d1, -, d3⟩ := agcWindow_due h2
    cases hw : windowSteps c s with
    | false =>
      rw [hw] at d1
      have : (s.agcWindow c).flag .xGainDue c = false := by
        rw [State.flag, d1]
        rfl
      simp [this]
    | true => simp [d3 hw]
  · have hs : s.agcWindow c = s := if_pos (by omega)
    rw [hs, h]
    simp

/-- The wait for steps goes on (R67). -/
def stepWaited (c : Nat) (s : State) : State := s.when (s.get .xGainWait c != 0) fun s => s.set .xGainWait c (s.get .xGainWait c - 1)

/-- A set flagged behind steps (R67). -/
def setFlagged (c : Nat) (s : State) : State :=
  if s.get .xFlagNext c ≠ 0 then (s.set .xFlagNext c (s.get .xFlagNext c - 1)).bump .carrierConvErasedSets c else s

/-- A set carries the erasure flag (R63, R67). -/
def setErased (c : Nat) (s : State) : Bool := decide ((stepWaited c s).get .xFlagNext c ≠ 0) || (setFlagged c (stepWaited c s)).rxLoop c == 3

/-- A set taken by the window. -/
def setTaken (c : Nat) (codes : Stroke) (s : State) : State := (setFlagged c (stepWaited c s)).agcTake c (setErased c s) codes

abbrev flaggedRegs : List Reg := [.xGainWait, .xFlagNext, .carrierConvErasedSets]

theorem setFlagged_apart : Apart flaggedRegs.contains s (setFlagged c (stepWaited c s)) := by
  have hw : Apart flaggedRegs.contains s (stepWaited c s) := apart_when (Apart.refl s) fun _ => apart_set (Apart.refl s)
  exact apart_ite (apart_bump (apart_set hw)) hw

theorem setErased_eq : setErased c s = (decide (s.get .xFlagNext c ≠ 0) || decide (s.rxLoop c = 3)) := by
  have hw : Apart [Reg.xGainWait].contains s (stepWaited c s) := apart_when (Apart.refl s) fun _ => apart_set (Apart.refl s)
  rw [setErased, hw.regs _ _ rfl, State.rxLoop, State.nat, setFlagged_apart.regs _ _ rfl, ← State.nat, ← State.rxLoop]
  rfl

abbrev setTakenRegs : List Reg := flaggedRegs ++ windowRegs

theorem setTaken_apart {codes : Stroke} : Apart setTakenRegs.contains s (setTaken c codes s) := by
  have hf : Apart setTakenRegs.contains s (setFlagged c (stepWaited c s)) := setFlagged_apart.widen
  unfold setTaken State.agcTake
  extract_lets low a
  have ha : Apart setTakenRegs.contains s a := apart_when (apart_set hf) fun _ => apart_set (Apart.refl _)
  exact apart_ite hf (apart_ite (apart_set hf) (apart_ite ha (apart_each (apart_set ha) fun _ _ ht => apart_set ht)))

theorem setTaken_lines {codes : Stroke} : linesOf (setTaken c codes s) = linesOf s := by
  have := fact_false
  have hf : linesOf (setFlagged c (stepWaited c s)) = linesOf s := by
    have hw : linesOf (stepWaited c s) = linesOf s := by
      unfold stepWaited State.when
      split <;> rfl
    unfold setFlagged
    split
    · rw [linesOf_bump]
      exact hw
    · exact hw
  exact (linesOf_kept (kept_agcTake (κ := windowScope) (Kept.refl _))).trans hf

/-- A set that finds the buffer full (R19). -/
def setDiscarded (c : Nat) (s : State) : State :=
  ((s.bump .carrierSlackRxDiscarded c).set .xRxLost c (s.get .xRxLost c + 1)).enterHeld c

/-- A set stored at the end of the buffer (R19). -/
def setStored (c : Nat) (erased : Bool) (codes : Stroke) (s : State) : State :=
  let s := s.writeGap c
  let f := s.get .carrierSlackRxFill c + 1
  ((s.setSlack c (s.slack c ++ [.set erased (codes.map (List.map adcCode))])).set .carrierSlackRxFill c f).peak .carrierSlackRxPeak c f

theorem rxArrival_eq {codes : Stroke} (h1 : 2 ≤ s.rxLoop c) (h2 : s.flag .xGainDue c = false) (h3 : s.get .carrierState c ≠ 0)
    (h4 : s.flag .xRelock c = false) : s.rxArrival c codes
      = if 1024 ≤ (setTaken c codes ((s.countClips c codes).agcWindow c)).get .carrierSlackRxFill c then
          setDiscarded c (setTaken c codes ((s.countClips c codes).agcWindow c))
        else setStored c (setErased c ((s.countClips c codes).agcWindow c)) codes
          (setTaken c codes ((s.countClips c codes).agcWindow c)) := by
  have hc := countClips_apart (s := s) (c := c) (codes := codes)
  have hl : (s.countClips c codes).rxLoop c = s.rxLoop c := congrArg (fun x => field (Int.toNat x) 0 2) (hc.regs _ _ rfl)
  have hn : ¬ ((s.countClips c codes).idle c || (s.countClips c codes).flag .xRelock c || (s.countClips c codes).rxLoop c < 2) = true := by
    rw [State.idle, State.flag, hc.regs _ _ rfl, hc.regs _ _ rfl, ← State.flag, hl, h4]
    simp only [h3, decide_false, Bool.false_or, decide_eq_true_eq]
    omega
  have hw := window_waits (s := s.countClips c codes) (c := c) (by rw [State.flag, hc.regs _ _ rfl, ← State.flag, h2])
  unfold State.rxArrival
  rw [if_pos h1]
  refine (if_neg hn).trans ?_
  rw [hw]
  rfl

theorem writeGap_eq (h : s.get .carrierSlackRxFill c < 1024) : s.writeGap c = if s.get .xRxLost c = 0 then s
    else (s.setSlack c (s.slack c ++ [.gap (s.nat .xRxLost c)])).set .xRxLost c 0 := by
  unfold State.writeGap
  by_cases h0 : s.get .xRxLost c = 0
  · rw [if_pos h0, if_neg fun hf => hf.1 h0]
  · rw [if_neg h0, if_pos ⟨h0, h⟩]

/-- A gap marker follows the sets that stand, where sets were discarded (R19). -/
theorem writeGap_reports (h : s.get .carrierSlackRxFill c < 1024) : (s.writeGap c).get .xRxLost c = 0
    ∧ (s.writeGap c).slack c = s.slack c ++ (if s.get .xRxLost c = 0 then [] else [.gap (s.nat .xRxLost c)])
    ∧ ∀ d, d ≠ c → (s.writeGap c).slack d = s.slack d := by
  rw [writeGap_eq h]
  by_cases h0 : s.get .xRxLost c = 0
  · rw [if_pos h0, if_pos h0, List.append_nil]
    exact ⟨h0, rfl, fun _ _ => rfl⟩
  · rw [if_neg h0, if_neg h0]
    exact ⟨get_set_same _ _ _ _, setSlack_same, fun d hd => setSlack_beside hd⟩

theorem writeGap_apart : Apart [Reg.xRxLost].contains s (s.writeGap c) := by
  have hs : Apart [Reg.xRxLost].contains s (s.setSlack c (s.slack c ++ [.gap (s.nat .xRxLost c)])) := (Apart.refl s).other rfl
  exact apart_ite (apart_set hs) (Apart.refl s)

theorem get_peak : (s.peak r i v).get r i = max (s.get r i) v := by
  unfold State.peak
  split
  · rw [get_set_same]
    omega
  · omega

/-- A stored set (R19). -/
theorem setStored_reports {codes : Stroke} (h : s.get .carrierSlackRxFill c < 1024) :
    (setStored c q codes s).slack c = s.slack c ++ (if s.get .xRxLost c = 0 then [] else [.gap (s.nat .xRxLost c)])
      ++ [.set q (codes.map (List.map adcCode))]
    ∧ (setStored c q codes s).get .carrierSlackRxFill c = s.get .carrierSlackRxFill c + 1
    ∧ (setStored c q codes s).get .carrierSlackRxPeak c = max (s.get .carrierSlackRxPeak c) (s.get .carrierSlackRxFill c + 1)
    ∧ (setStored c q codes s).get .xRxLost c = 0 ∧ (∀ d, d ≠ c → (setStored c q codes s).slack d = s.slack d) := by
  obtain ⟨g1, g2, g3⟩ := writeGap_reports h
  have hg := writeGap_apart (s := s) (c := c)
  have hp : ∀ (y : State) v, linesOf (y.peak .carrierSlackRxPeak c v) = linesOf y := fun y v => by
    unfold State.peak
    split <;> rfl
  have hr : ∀ (y : State) v {r}, r ≠ .carrierSlackRxPeak → (y.peak .carrierSlackRxPeak c v).get r c = y.get r c := fun y v r hr => by
    unfold State.peak
    split
    · exact get_set_reg _ _ hr
    · rfl
  unfold setStored
  refine ⟨?_, ?_, ?_, ?_, fun d hd => ?_⟩
  · rw [slack_of (hp _ _)]
    exact setSlack_same.trans (congrArg (· ++ _) g2)
  · rw [hr _ _ (by decide), get_set_same, hg.regs _ _ rfl]
  · rw [get_peak, get_set_reg _ _ (by decide), hg.regs _ _ rfl]
    exact congrArg (max · _) (hg.regs _ _ rfl)
  · rw [hr _ _ (by decide), get_set_reg _ _ (by decide)]
    exact g1
  · rw [slack_of (hp _ _)]
    exact (setSlack_beside hd).trans (g3 d hd)

/-- A discarded set (R19). -/
theorem setDiscarded_reports : linesOf (setDiscarded c s) = linesOf s ∧ Safety.countedBy s (setDiscarded c s) .carrierSlackRxDiscarded c 1
    ∧ (setDiscarded c s).get .xRxLost c = s.get .xRxLost c + 1 ∧ (setDiscarded c s).get .carrierSlackHeld c ≠ 0 := by
  refine ⟨?_, ?_, ?_, enterHeld_held⟩
  · rw [setDiscarded, enterHeld_lines]
    exact linesOf_bump
  · rw [Safety.countedBy, setDiscarded, enterHeld_get, get_set_reg _ _ (by decide), get_bump_same]
  · rw [setDiscarded, enterHeld_get, get_set_same]

/-- What a set's arrival leaves up to the buffer. -/
abbrev arrivedRegs : List Reg := .adcClipCount :: windowSide ++ setTakenRegs

theorem setArrived_apart {codes : Stroke} :
    Apart (fun r => Safety.eventSide r || arrivedRegs.contains r) s (setTaken c codes ((s.countClips c codes).agcWindow c)) :=
  (countClips_apart.withEvents.widenEvents.trans agcWindow_apart.widenEvents).trans setTaken_apart.withEvents.widenEvents

theorem setArrived_lines {codes : Stroke} : linesOf (setTaken c codes ((s.countClips c codes).agcWindow c)) = linesOf s := by
  rw [setTaken_lines, agcWindow_lines, countClips_lines]

theorem setArrived_erased {codes : Stroke} : setErased c ((s.countClips c codes).agcWindow c)
    = (decide (s.get .xFlagNext c ≠ 0) || decide (s.rxLoop c = 3)) := by
  have h : Apart (fun r => Safety.eventSide r || arrivedRegs.contains r) s ((s.countClips c codes).agcWindow c) :=
    countClips_apart.withEvents.widenEvents.trans agcWindow_apart.widenEvents
  have hf : ((s.countClips c codes).agcWindow c).get .xFlagNext c = s.get .xFlagNext c := by
    rw [agcWindow_apart.regs _ _ rfl, countClips_apart.regs _ _ rfl]
  rw [setErased_eq, hf, State.rxLoop, State.nat, h.regs _ _ rfl, ← State.nat, ← State.rxLoop]

/-- A carrier in Idle or in relock takes no set (R62). -/
theorem rxArrival_passes {codes : Stroke} (h1 : 2 ≤ s.rxLoop c) (h : s.get .carrierState c = 0 ∨ s.flag .xRelock c = true) :
    s.rxArrival c codes = s.countClips c codes := by
  have hc := countClips_apart (s := s) (c := c) (codes := codes)
  unfold State.rxArrival
  rw [if_pos h1]
  refine if_pos ?_
  rw [State.idle, State.flag, hc.regs _ _ rfl, hc.regs _ _ rfl, ← State.flag]
  rcases h with h | h <;> simp [h]

theorem setStored_apart {codes : Stroke} : Apart [Reg.xRxLost, .carrierSlackRxFill, .carrierSlackRxPeak].contains s (setStored c q codes s) := by
  unfold setStored
  extract_lets y f
  have hy : Apart [Reg.xRxLost, .carrierSlackRxFill, .carrierSlackRxPeak].contains s y := writeGap_apart.widen
  have hz : Apart [Reg.xRxLost, .carrierSlackRxFill, .carrierSlackRxPeak].contains s
      (y.setSlack c (y.slack c ++ [.set q (codes.map (List.map adcCode))])) := hy.other rfl
  exact apart_ite (apart_set (apart_set hz)) (apart_set hz)

/-- The clips of a set that arrives stand (R59). -/
theorem rxArrival_clips {codes : Stroke} (h1 : 2 ≤ s.rxLoop c) (h2 : s.flag .xGainDue c = false) (k : Fin 4) :
    Safety.countedBy s (s.rxArrival c codes) .adcClipCount (4 * c + k.val) (adcClips codes k.val) := by
  have hk := countClips_counts (s := s) (c := c) (codes := codes) k
  by_cases h : s.get .carrierState c = 0 ∨ s.flag .xRelock c = true
  · rw [rxArrival_passes h1 h]
    exact hk
  · have h4 : s.flag .xRelock c = false := by
      rw [← Bool.not_eq_true]
      exact fun hf => h (.inr hf)
    have hg : (setTaken c codes ((s.countClips c codes).agcWindow c)).get .adcClipCount (4 * c + k.val)
        = (s.countClips c codes).get .adcClipCount (4 * c + k.val) := by
      rw [setTaken_apart.regs _ _ rfl, agcWindow_apart.regs _ _ rfl]
    rw [Safety.countedBy, rxArrival_eq h1 h2 (fun h0 => h (.inl h0)) h4]
    split
    · rw [setDiscarded, enterHeld_get, get_set_reg _ _ (by decide), get_bump_other (.inl (by decide)), hg, hk]
    · rw [setStored_apart.regs _ _ rfl, hg, hk]

/-- The buffers of other carriers stand. -/
theorem rxArrival_beside {codes : Stroke} (h1 : 2 ≤ s.rxLoop c) (h2 : s.flag .xGainDue c = false) (hd : d ≠ c) :
    (s.rxArrival c codes).slack d = s.slack d := by
  by_cases h : s.get .carrierState c = 0 ∨ s.flag .xRelock c = true
  · rw [rxArrival_passes h1 h, slack_of countClips_lines]
  · have h4 : s.flag .xRelock c = false := by
      rw [← Bool.not_eq_true]
      exact fun hf => h (.inr hf)
    rw [rxArrival_eq h1 h2 (fun h0 => h (.inl h0)) h4]
    split
    · rw [slack_of setDiscarded_reports.1, slack_of setArrived_lines]
    · rename_i hf
      obtain ⟨-, -, -, -, g⟩ := setStored_reports (q := setErased c ((s.countClips c codes).agcWindow c)) (codes := codes) (not_le.1 hf)
      rw [g d hd, slack_of setArrived_lines]

/-! ## A transmit stroke period (R20) -/

/-- A hold set goes out, counted and owed. -/
def holdSent (c : Nat) (s : State) : State :=
  ((s.bump .carrierSlackTxHoldSets c).set .xTxOwed c (s.get .xTxOwed c + 1)).emit (.stroke c (s.swings c) (s.dacCodes c midScale))

theorem txPeriod_holds (h1 : s.get .carrierState c ≠ 0) (h2 : s.get .carrierSlackTxFill c = 0) : s.txPeriod c = (holdSent c s).enterHeld c := by
  have hi : ¬ s.idle c = true := by simpa [State.idle] using h1
  unfold State.txPeriod
  rw [if_neg hi, if_pos h2]
  rfl

theorem holdSent_reports : Safety.countedBy s ((holdSent c s).enterHeld c) .carrierSlackTxHoldSets c 1
    ∧ ((holdSent c s).enterHeld c).get .xTxOwed c = s.get .xTxOwed c + 1
    ∧ ((holdSent c s).enterHeld c).get .carrierSlackTxFill c = s.get .carrierSlackTxFill c
    ∧ Safety.sent s ((holdSent c s).enterHeld c) (.stroke c (s.swings c) (s.dacCodes c midScale)) := by
  refine ⟨?_, ?_, ?_, ?_⟩
  · rw [Safety.countedBy, enterHeld_get, holdSent, emit_get, get_set_reg _ _ (by decide), get_bump_same]
  · rw [enterHeld_get, holdSent, emit_get, get_set_same]
  · rw [enterHeld_get, holdSent, emit_get, get_set_reg _ _ (by decide), get_bump_other (.inl (by decide))]
  · refine sent_of_prefix (l := [.stroke c (s.swings c) (s.dacCodes c midScale)]) ?_ List.mem_cons_self
    have ho : (holdSent c s).out = s.out ++ [.stroke c (s.swings c) (s.dacCodes c midScale)] := by
      rw [holdSent, emit_out, set_out, bump_out]
    rw [← ho]
    exact enterHeld_out

/-- The oldest set leaves (R20): its codes, where the buffer holds them, else mid-scale. -/
def setLeaves (c : Nat) (x : Stroke) (s : State) : State :=
  let y := s.emit (.stroke c (s.swings c) (s.dacCodes c x))
  if ((s.strokes c).length : Int) = s.get .carrierSlackTxFill c - 1 + 1 then y.setStrokes c (s.strokes c).tail else y

theorem txPeriod_leaves (h1 : s.get .carrierState c ≠ 0) (h2 : s.get .carrierSlackTxFill c ≠ 0) : s.txPeriod c
    = ((setLeaves c (if ((s.strokes c).length : Int) = s.get .carrierSlackTxFill c - 1 + 1 then (s.strokes c).headD midScale else midScale) s).set
      .carrierSlackTxFill c (s.get .carrierSlackTxFill c - 1)).trough .carrierSlackTxLow c (s.get .carrierSlackTxFill c - 1) := by
  have hi : ¬ s.idle c = true := by simpa [State.idle] using h1
  unfold State.txPeriod
  rw [if_neg hi, if_neg h2]
  rfl

theorem setLeaves_apart {x : Stroke} : Apart L.contains s (setLeaves c x s) := by
  have he : Apart L.contains s (s.emit (.stroke c (s.swings c) (s.dacCodes c x))) := (Apart.refl s).other rfl
  exact apart_ite (he.other rfl) he

theorem get_trough : (s.trough r i v).get r i = min (s.get r i) v := by
  unfold State.trough
  split
  · rw [get_set_same]
    omega
  · omega

theorem trough_apart : Apart [r].contains s (s.trough r i v) := apart_ite (apart_set (Apart.refl s) (by simp)) (Apart.refl s)

/-- What a set that leaves tells, and what it writes. -/
theorem txPeriod_leaving (h1 : s.get .carrierState c ≠ 0) (h2 : s.get .carrierSlackTxFill c ≠ 0) :
    (s.txPeriod c).get .carrierSlackTxFill c = s.get .carrierSlackTxFill c - 1
    ∧ (s.txPeriod c).get .carrierSlackTxLow c = min (s.get .carrierSlackTxLow c) (s.get .carrierSlackTxFill c - 1)
    ∧ Apart [Reg.carrierSlackTxFill, .carrierSlackTxLow].contains s (s.txPeriod c) := by
  rw [txPeriod_leaves h1 h2]
  have hA : ∀ x, Apart [Reg.carrierSlackTxFill, .carrierSlackTxLow].contains s (setLeaves c x s) := fun x => setLeaves_apart
  refine ⟨?_, ?_, (apart_set (hA _)).trans trough_apart.widen⟩
  · rw [trough_apart.regs _ _ rfl, get_set_same]
  · rw [get_trough, get_set_reg _ _ (by decide), (setLeaves_apart (L := [])).regs _ _ rfl]

/-- Codes that the buffer holds leave it (R20). -/
theorem txPeriod_codes {x : Stroke} {l : List Stroke} (h1 : s.get .carrierState c ≠ 0) (h2 : s.strokes c = x :: l)
    (h3 : s.get .carrierSlackTxFill c = ((x :: l).length : Nat)) :
    (s.txPeriod c).strokes c = l ∧ Safety.sent s (s.txPeriod c) (.stroke c (s.swings c) (s.dacCodes c x)) := by
  have h0 : s.get .carrierSlackTxFill c ≠ 0 := by
    rw [h3, List.length_cons]
    omega
  have hl : ((s.strokes c).length : Int) = s.get .carrierSlackTxFill c - 1 + 1 := by
    rw [h2, h3]
    omega
  have ht : ∀ (y : State) v, linesOf (y.trough .carrierSlackTxLow c v) = linesOf y ∧ (y.trough .carrierSlackTxLow c v).out = y.out := fun y v => by
    unfold State.trough
    split <;> exact ⟨rfl, rfl⟩
  rw [txPeriod_leaves h1 h0, if_pos hl, h2]
  have he : setLeaves c ((x :: l).headD midScale) s = (s.emit (.stroke c (s.swings c) (s.dacCodes c x))).setStrokes c l := by
    rw [setLeaves, if_pos hl, h2]
    rfl
  rw [he]
  refine ⟨?_, [.stroke c (s.swings c) (s.dacCodes c x)], ?_, List.mem_cons_self⟩
  · rw [strokes_of (ht _ _).1]
    exact setStrokes_strokes _ _ _
  · rw [(ht _ _).2]
    rfl

/-! ## The core delivers a set (R16, R20, R104) -/

/-- The failed line tiles of a set, marked (R322). -/
def strokesMarked (reads : List (Nat × TileRead)) (s : State) : State :=
  s.each (reads.filter fun e => tileFails (s.lineTileBytes e.1 e.2.tile) e.2.bytes) fun s e => s.markTx e.1 e.2.tile

/-- A set goes into the buffer, or one owed is discarded (R20). -/
def strokeGiven (c : Nat) (owed : Int) (codes : Stroke) (s : State) : State :=
  if owed = 0 then (s.setStrokes c (s.strokes c ++ [codes])).set .carrierSlackTxFill c (s.get .carrierSlackTxFill c + 1)
  else s.set .xTxOwed c (owed - 1)

/-- Behind a set that is made: custody at the encoder, and the fade. -/
def strokeEncoded (c : Nat) (s : State) : State := (s.encoderCount c).fadePass (12 + c) 1

theorem coreGive_eq {msa : List Cx2} {reads : List (Nat × TileRead)} (h1 : s.get .carrierState c ≠ 0)
    (h2 : s.get .xHandTx (c / 3) ≠ 0) (h3 : s.get .xTxOwed c ≠ 0 ∨ s.get .carrierSlackTxFill c < s.get .carrierSlackTxTarget c) :
    s.coreGive c msa reads = (strokeGiven c (s.get .xTxOwed c) ((strokesMarked reads s).makeStroke c msa).2
      (strokeEncoded c ((strokesMarked reads s).makeStroke c msa).1)).settleHeld c := by
  have ha : ¬ (s.idle c || s.handTxEmpty c) = true := by simp [State.idle, State.handTxEmpty, h1, h2]
  have hb : ¬ (s.get .xTxOwed c = 0 ∧ s.get .carrierSlackTxTarget c ≤ s.get .carrierSlackTxFill c) := by omega
  unfold State.coreGive
  rw [if_neg ha]
  exact (if_neg hb).trans rfl

/-- What marking writes. -/
abbrev markScope : Scope := fun p => match p with
  | .tributaries => false
  | _ => true

theorem strokesMarked_kept {reads : List (Nat × TileRead)} : Kept markScope s (strokesMarked reads s) := by
  have := fact_false
  exact kept_each (Kept.refl s) fun _ _ ht => kept_markTx ht

/-- What making a set writes. -/
abbrev makeScope : Scope := fun p => match p with
  | .txLine | .banks => false
  | _ => true

theorem makeStroke_kept {msa : List Cx2} : Kept makeScope s (s.makeStroke c msa).1 := by
  have := fact_false
  exact kept_makeStroke (Kept.refl s)

/-- A set that is made: the line after it, its clips, its codes (R104, R115). -/
theorem makeStroke_reports {msa : List Cx2} : ((s.makeStroke c msa).1).tx c = ((s.tx c).stroke (s.txSet c msa)).1
    ∧ Safety.countedBy s (s.makeStroke c msa).1 .carrierTxClips c (clipsOf ((s.tx c).stroke (s.txSet c msa)).2)
    ∧ (s.makeStroke c msa).2 = codesOf ((s.tx c).stroke (s.txSet c msa)).2 := by
  unfold State.makeStroke
  dsimp only
  generalize (s.tx c).stroke (s.txSet c msa) = a
  have hx : ((s.setTx c a.1).bump .carrierTxClips c (clipsOf a.2)).tx c = a.1 := (tx_of linesOf_bump).trans (setTx_tx _ _ _)
  refine ⟨?_, ?_, rfl⟩
  · split <;> exact hx
  · unfold Safety.countedBy
    split
    · exact (get_set_reg _ _ (by decide)).trans get_bump_same
    · exact get_bump_same

/-- What stands behind a set that is made: custody and the fade alone. -/
abbrev encodeScope : Scope := fun p => match p with
  | .events | .tributaries | .housekeeping | .custody | .captures => false
  | _ => true

theorem encoderCount_kept : Kept encodeScope s (s.encoderCount c) := by
  have := fact_false
  exact kept_encoderCount (Kept.refl s)

theorem fadePass_apart : Apart [Reg.xFadeSets].contains s (s.fadePass b n) := apart_ite (apart_set (Apart.refl s)) (Apart.refl s)

theorem fadePass_lines : linesOf (s.fadePass b n) = linesOf s := by
  unfold State.fadePass
  split <;> rfl

theorem strokeEncoded_lines : linesOf (strokeEncoded c s) = linesOf s := fadePass_lines.trans (linesOf_kept encoderCount_kept)

theorem strokeEncoded_get (h1 : [Reg.xFadeSets].contains r = false := by rfl) (h2 : encodeScope (Safety.part r) = true := by rfl) :
    (strokeEncoded c s).get r i = s.get r i :=
  (fadePass_apart.regs _ _ h1).trans (encoderCount_kept.get h2)

/-- Where a set that is made goes (R20). -/
theorem strokeGiven_reports {codes : Stroke} {x : Int} : (strokeGiven c x codes s).tx c = s.tx c
    ∧ (strokeGiven c x codes s).get .carrierTxClips c = s.get .carrierTxClips c
    ∧ (x = 0 → (strokeGiven c x codes s).get .carrierSlackTxFill c = s.get .carrierSlackTxFill c + 1
      ∧ (strokeGiven c x codes s).strokes c = s.strokes c ++ [codes])
    ∧ (x ≠ 0 → (strokeGiven c x codes s).get .xTxOwed c = x - 1 ∧ (strokeGiven c x codes s).strokes c = s.strokes c
      ∧ (strokeGiven c x codes s).get .carrierSlackTxFill c = s.get .carrierSlackTxFill c) := by
  by_cases h : x = 0
  · rw [strokeGiven, if_pos h]
    exact ⟨rfl, get_set_reg _ _ (by decide), fun _ => ⟨get_set_same _ _ _ _, setStrokes_strokes _ _ _⟩, fun h' => absurd h h'⟩
  · rw [strokeGiven, if_neg h]
    exact ⟨rfl, get_set_reg _ _ (by decide), fun h' => absurd h' h, fun _ => ⟨get_set_same _ _ _ _, rfl, get_set_reg _ _ (by decide)⟩⟩

/-- A set that the core delivers (R16, R20, R104, R115). -/
theorem coreGive_reports {msa : List Cx2} {reads : List (Nat × TileRead)} {made : TxLine × List (List Int)} (h1 : s.get .carrierState c ≠ 0)
    (h2 : s.get .xHandTx (c / 3) ≠ 0) (h3 : s.get .xTxOwed c ≠ 0 ∨ s.get .carrierSlackTxFill c < s.get .carrierSlackTxTarget c)
    (hm : (s.tx c).stroke ((strokesMarked reads s).txSet c msa) = made) :
    (s.coreGive c msa reads).tx c = made.1 ∧ Safety.countedBy s (s.coreGive c msa reads) .carrierTxClips c (clipsOf made.2)
    ∧ (s.get .xTxOwed c = 0 → (s.coreGive c msa reads).get .carrierSlackTxFill c = s.get .carrierSlackTxFill c + 1
      ∧ (s.coreGive c msa reads).strokes c = s.strokes c ++ [codesOf made.2])
    ∧ (s.get .xTxOwed c ≠ 0 → (s.coreGive c msa reads).get .xTxOwed c = s.get .xTxOwed c - 1
      ∧ (s.coreGive c msa reads).strokes c = s.strokes c
      ∧ (s.coreGive c msa reads).get .carrierSlackTxFill c = s.get .carrierSlackTxFill c) := by
  rw [coreGive_eq h1 h2 h3]
  have hk := strokesMarked_kept (s := s) (reads := reads)
  have hl : linesOf (strokesMarked reads s) = linesOf s := linesOf_kept hk
  rw [← tx_of hl] at hm
  have hc : (strokesMarked reads s).get .carrierTxClips c = s.get .carrierTxClips c := hk.get rfl
  have hf : (strokesMarked reads s).get .carrierSlackTxFill c = s.get .carrierSlackTxFill c := hk.get rfl
  have hs : (strokesMarked reads s).strokes c = s.strokes c := strokes_of hl
  generalize strokesMarked reads s = y at *
  obtain ⟨m1, m2, m3⟩ := makeStroke_reports (s := y) (c := c) (msa := msa)
  rw [hm] at m1 m2 m3
  have mk := makeStroke_kept (s := y) (c := c) (msa := msa)
  have mf : (y.makeStroke c msa).1.get .carrierSlackTxFill c = y.get .carrierSlackTxFill c := mk.get rfl
  have ms : (y.makeStroke c msa).1.strokes c = y.strokes c := by rw [State.strokes, (mk.sameSlack rfl).2, ← State.strokes]
  rw [m3]
  generalize (y.makeStroke c msa).1 = z at *
  obtain ⟨g1, g2, g3, g4⟩ := strokeGiven_reports (s := strokeEncoded c z) (c := c) (codes := codesOf made.2) (x := s.get .xTxOwed c)
  have el := strokeEncoded_lines (s := z) (c := c)
  rw [strokeEncoded_get, mf, hf, strokes_of el, ms, hs] at g3 g4
  rw [tx_of el, m1] at g1
  rw [strokeEncoded_get, m2, State.nat, hc, ← State.nat] at g2
  rw [tx_of settleHeld_lines, strokes_of settleHeld_lines, Safety.countedBy, settleHeld_get, settleHeld_get, settleHeld_get]
  exact ⟨g1, g2, g3, g4⟩

/-! ## The core takes a set (R16, R124, R126) -/

/-- The settings of stages 1 to 5 rest on registers that the buffer's bookkeeping leaves. -/
theorem rxSet_apart (h : Apart [Reg.carrierSlackRxFill, .xRxSets].contains s t) : t.rxSet c = s.rxSet c := by
  have hb : ∀ b, t.activeOf b = s.activeOf b ∧ t.standbyOf b = s.standbyOf b := fun b => by
    simp (disch := decide) only [State.activeOf, State.standbyOf, State.bankNumbers, h.regs, h.blobs, and_self]
  simp (disch := decide) only [State.rxSet, State.nat, State.flag, State.bit, State.cdFading, h.regs, hb] <;> rfl

/-- A capture that is neither armed nor filling takes nothing (R372). -/
theorem captures_rest {point : Nat} {data : List Byte} (h1 : s.get .captureState c ≠ 1) (h2 : s.get .captureState c ≠ 2) :
    s.captureBegin c = s ∧ s.capturePut c point data = s := ⟨if_neg fun h => h1 h.1, if_neg fun h => h2 h.1⟩

/-- What a capture and a fade write. -/
abbrev behindScope : Scope := fun p => match p with
  | .memory | .banks | .captures => false
  | _ => true

/-- What the passing of a set writes. -/
abbrev passScope : Scope := fun p => match p with
  | .memory | .rxLine | .banks | .captures => false
  | _ => true

theorem passStroke_kept {codes : Stroke} : Kept passScope s (s.passStroke c q codes) := by
  have := fact_false
  exact kept_passStroke (Kept.refl s)

theorem passStroke_slack {codes : Stroke} : (s.passStroke c q codes).slack d = s.slack d := by
  rw [State.slack, (passStroke_kept.sameSlack rfl).1, ← State.slack]

/-- A set passes stages 1 to 5 (R124). -/
theorem passStroke_rx {codes : Stroke} : (s.passStroke c q codes).rx c = (s.rx c).stroke (s.rxSet c) q codes := by
  have := fact_false
  unfold State.passStroke
  extract_lets x
  have hk : Kept behindScope (s.setRx c x) (((((s.setRx c x).captureBegin c).capturePut c 0 (stageOneBytes q codes)).capturePut c 1
      (stageFiveBytes x)).fadePass (48 + c) 1) :=
    kept_fadePass (kept_capturePut (kept_capturePut (kept_captureBegin (Kept.refl _))))
  rw [rx_congr (hk.sameRxLine rfl), setRx_rx]

theorem passStroke_mem {codes : Stroke} (h1 : s.get .captureState c ≠ 1) (h2 : s.get .captureState c ≠ 2) :
    (s.passStroke c q codes).mem = s.mem := by
  unfold State.passStroke
  extract_lets x
  have hx : (s.setRx c x).get .captureState c = s.get .captureState c := setRx_get _ _ _ _ _
  rw [← hx] at h1 h2
  rw [(captures_rest (point := 0) (data := []) h1 h2).1, (captures_rest h1 h2).2, (captures_rest h1 h2).2, mem_of fadePass_lines]
  rfl

/-- The oldest set leaves the buffer (R16). -/
def setGone (c : Nat) (rest : List SlackItem) (s : State) : State :=
  ((s.setSlack c rest).set .carrierSlackRxFill c (s.get .carrierSlackRxFill c - 1)).bump .xRxSets c

theorem setGone_apart {rest : List SlackItem} : Apart [Reg.carrierSlackRxFill, .xRxSets].contains s (setGone c rest s) := by
  have h : Apart [Reg.carrierSlackRxFill, .xRxSets].contains s (s.setSlack c rest) := (Apart.refl s).other rfl
  exact apart_bump (apart_set h)

theorem setGone_reports {rest : List SlackItem} : (setGone c rest s).slack c = rest ∧ (setGone c rest s).rx c = s.rx c
    ∧ (setGone c rest s).mem = s.mem ∧ (setGone c rest s).get .carrierSlackRxFill c = s.get .carrierSlackRxFill c - 1
    ∧ Safety.countedBy s (setGone c rest s) .xRxSets c 1 := by
  unfold setGone
  refine ⟨?_, ?_, ?_, ?_, ?_⟩
  · exact (slack_of linesOf_bump).trans setSlack_same
  · exact (rx_of linesOf_bump).trans rfl
  · exact (mem_of linesOf_bump).trans rfl
  · rw [get_bump_other (.inl (by decide)), get_set_same]
  · rw [Safety.countedBy, get_bump_same, State.nat, get_set_reg _ _ (by decide)]
    rfl

/-- Behind a set that has passed: the gap's flags run down (R126), and erased symbols count (R127). -/
def setPassed (c n : Nat) (late : Prop) [Decidable late] (erased : Bool) (s : State) : State :=
  let s := if late then s.set .xGapFlag c (s.get .xGapFlag c - 1) else s
  if erased then s.eraseSymbols c n else s

theorem coreTake_eq {codes : Stroke} {rest : List SlackItem} (h1 : s.get .carrierState c ≠ 0) (h2 : s.get .xHandRx (c / 3) < 128)
    (h3 : s.get .carrierSlackRxTarget c < s.get .carrierSlackRxFill c) (h4 : s.slack c = .set q codes :: rest) :
    s.coreTake c n = (setPassed c n (s.get .xGapFlag c ≠ 0) (q || decide (s.get .xGapFlag c ≠ 0))
      ((setGone c rest s).passStroke c (q || decide (s.get .xGapFlag c ≠ 0)) codes)).settleHeld c := by
  have ha : ¬ (s.idle c || s.handRxFull c || s.get .carrierSlackRxFill c ≤ s.get .carrierSlackRxTarget c) = true := by
    simp only [State.idle, State.handRxFull, h1, decide_false, Bool.false_or, Bool.or_eq_true, decide_eq_true_eq]
    omega
  unfold State.coreTake
  rw [if_neg ha, h4]
  rfl

theorem eraseSymbols_counts : Safety.countedBy s (s.eraseSymbols c n) .carrierRxErasedSymbols c n := by
  rw [Safety.countedBy, State.eraseSymbols, get_set_reg _ _ (by decide), get_set_reg _ _ (by decide), get_bump_same]

theorem eraseSymbols_apart : Apart [Reg.carrierRxErasedSymbols, .xTrackWindow, .xDeskewErased].contains s (s.eraseSymbols c n) :=
  apart_set (apart_set (apart_bump (Apart.refl s)))

theorem eraseSymbols_lines : linesOf (s.eraseSymbols c n) = linesOf s :=
  (rfl : linesOf (s.eraseSymbols c n) = linesOf (s.bump .carrierRxErasedSymbols c n)).trans linesOf_bump

theorem setPassed_lines {late : Prop} [Decidable late] : linesOf (setPassed c n late q s) = linesOf s := by
  unfold setPassed
  extract_lets y
  have hy : linesOf y = linesOf s := by
    unfold y
    split <;> rfl
  split
  · exact eraseSymbols_lines.trans hy
  · exact hy

theorem setPassed_apart {late : Prop} [Decidable late] :
    Apart [Reg.xGapFlag, .carrierRxErasedSymbols, .xTrackWindow, .xDeskewErased].contains s (setPassed c n late q s) := by
  unfold setPassed
  extract_lets y
  have hy : Apart [Reg.xGapFlag, .carrierRxErasedSymbols, .xTrackWindow, .xDeskewErased].contains s y :=
    apart_ite (apart_set (Apart.refl s)) (Apart.refl s)
  exact apart_ite (hy.trans eraseSymbols_apart.widen) hy

theorem setPassed_counts {late : Prop} [Decidable late] (h : q = true) : Safety.countedBy s (setPassed c n late q s) .carrierRxErasedSymbols c n := by
  unfold setPassed
  extract_lets y
  have hy : Apart [Reg.xGapFlag].contains s y := apart_ite (apart_set (Apart.refl s)) (Apart.refl s)
  have hg : y.get .carrierRxErasedSymbols c = s.get .carrierRxErasedSymbols c := hy.regs _ _ rfl
  have he := eraseSymbols_counts (s := y) (c := c) (n := n)
  rw [Safety.countedBy, State.nat, hg] at he
  rw [if_pos h]
  exact he

/-- A set that the core takes (R16, R124, R127). -/
theorem coreTake_reports {codes : Stroke} {rest : List SlackItem} (h1 : s.get .carrierState c ≠ 0) (h2 : s.get .xHandRx (c / 3) < 128)
    (h3 : s.get .carrierSlackRxTarget c < s.get .carrierSlackRxFill c) (h4 : s.slack c = .set q codes :: rest) :
    (s.coreTake c n).slack c = rest ∧ (s.coreTake c n).get .carrierSlackRxFill c = s.get .carrierSlackRxFill c - 1
    ∧ Safety.countedBy s (s.coreTake c n) .xRxSets c 1
    ∧ (s.coreTake c n).rx c = (s.rx c).stroke (s.rxSet c) (q || decide (s.get .xGapFlag c ≠ 0)) codes
    ∧ (q = true → Safety.countedBy s (s.coreTake c n) .carrierRxErasedSymbols c n)
    ∧ (s.get .captureState c ≠ 1 → s.get .captureState c ≠ 2 → (s.coreTake c n).mem = s.mem) := by
  rw [coreTake_eq h1 h2 h3 h4]
  obtain ⟨g1, g2, g3, g4, g5⟩ := setGone_reports (s := s) (c := c) (rest := rest)
  have ga := setGone_apart (s := s) (c := c) (rest := rest)
  have gr : (setGone c rest s).rxSet c = s.rxSet c := rxSet_apart ga
  have gm : (setGone c rest s).get .captureState c = s.get .captureState c := ga.regs _ _ rfl
  have ge : (setGone c rest s).get .carrierRxErasedSymbols c = s.get .carrierRxErasedSymbols c := ga.regs _ _ rfl
  generalize setGone c rest s = y at *
  generalize hx : (q || decide (s.get .xGapFlag c ≠ 0)) = x
  have pk := passStroke_kept (s := y) (c := c) (q := x) (codes := codes)
  have hl : linesOf ((setPassed c n (s.get .xGapFlag c ≠ 0) x (y.passStroke c x codes)).settleHeld c) = linesOf (y.passStroke c x codes) :=
    settleHeld_lines.trans setPassed_lines
  rw [slack_of hl, rx_of hl, mem_of hl, passStroke_slack, passStroke_rx, g1, g2, gr, Safety.countedBy, Safety.countedBy, settleHeld_get,
    settleHeld_get, settleHeld_get, setPassed_apart.regs _ _ rfl, setPassed_apart.regs _ _ rfl, pk.get rfl, pk.get rfl]
  refine ⟨rfl, g4, g5, rfl, fun hq => ?_, fun ha hb => ?_⟩
  · have hc := setPassed_counts (s := y.passStroke c x codes) (c := c) (n := n) (late := s.get .xGapFlag c ≠ 0) (q := x) (by rw [← hx, hq]; rfl)
    rw [Safety.countedBy, State.nat, pk.get rfl, ge] at hc
    exact hc
  · rw [passStroke_mem (by rw [gm]; exact ha) (by rw [gm]; exact hb), g3]

/-! ## The core reaches a gap marker (R126) -/

/-- The marker leaves the buffer. -/
def gapGone (c n : Nat) (rest : List SlackItem) (s : State) : State := (s.setSlack c rest).bump .xRxSets c n

theorem gapGone_reports {rest : List SlackItem} : (gapGone c n rest s).slack c = rest ∧ Safety.countedBy s (gapGone c n rest s) .xRxSets c n
    ∧ (gapGone c n rest s).get .carrierRxErasedSymbols c = s.get .carrierRxErasedSymbols c :=
  ⟨(slack_of linesOf_bump).trans setSlack_same, get_bump_same, get_bump_other (.inl (by decide))⟩

/-- The break that a long gap is: histories, waiting blocks and the delay line go (R126, R171). -/
def gapBroken (c n : Nat) (s : State) : State :=
  let s := s.set .xGapFlag c 32 |>.set .xTrackWindow c 1 |>.set .xDeskewErased c 1 |>.setRx c { (s.rx c).gap n with delay := [] }
  { s with polQueue := sput natLt [] s.polQueue c [] }

/-- A fade under way completes at a break (R152). -/
def gapFaded (c : Nat) (s : State) : State := if s.cdFading c then ((s.bankFinish (48 + c)).trackDone c).refreshRx c else s

theorem gapReached_eq {rest : List SlackItem} (h : s.slack c = .gap n :: rest) : s.gapReached c m
    = if n ≤ 32 then ((gapGone c n rest s).each (List.range n) fun s _ => s.passStroke c true []).eraseSymbols c m
      else gapFaded c (gapBroken c n (gapGone c n rest s)) := by
  unfold State.gapReached
  rw [h]
  rfl

theorem gapBroken_get : (gapBroken c n s).get r i
    = (((s.set .xGapFlag c 32).set .xTrackWindow c 1).set .xDeskewErased c 1).get r i := rfl

theorem gapBroken_reports : (gapBroken c n s).slack c = s.slack c ∧ (gapBroken c n s).get .xRxSets c = s.get .xRxSets c
    ∧ (gapBroken c n s).get .xGapFlag c = 32 ∧ sget (gapBroken c n s).polQueue c [] = [] ∧ ((gapBroken c n s).rx c).delay = [] := by
  refine ⟨rfl, ?_, ?_, ?_, congrArg RxLine.delay (setRx_rx _ _ _)⟩
  · rw [gapBroken_get, get_set_reg _ _ (by decide), get_set_reg _ _ (by decide), get_set_reg _ _ (by decide)]
  · rw [gapBroken_get, get_set_reg _ _ (by decide), get_set_reg _ _ (by decide), get_set_same]
  · exact (sget_sput_same _ _ _ _ _ : sget (sput natLt [] s.polQueue c []) c [] = [])

/-- What the completion of a fade writes. -/
abbrev fadedScope : Scope := fun p => match p with
  | .banks | .dispersion | .events | .monitors | .housekeeping | .captures => false
  | _ => true

theorem refreshRx_lines : linesOf (s.refreshRx c) = linesOf s := by
  unfold State.refreshRx
  split <;> rfl

theorem gapFaded_get (h : r ≠ .carrierRxPolState ∧ r ≠ .carrierRxHolding) (hr : fadedScope (Safety.part r) = true) :
    (gapFaded c s).get r i = s.get r i := by
  have := fact_false
  have hk : Kept fadedScope s ((s.bankFinish (48 + c)).trackDone c) := kept_trackDone (kept_bankFinish (Kept.refl s))
  have hf : ∀ y : State, (y.refreshRx c).get r i = y.get r i := fun y => by
    unfold State.refreshRx
    split <;> rw [get_set_reg _ _ h.2, get_set_reg _ _ h.1]
  unfold gapFaded
  split
  · rw [hf, hk.get hr]
  · rfl

theorem gapFaded_lines : linesOf (gapFaded c s) = linesOf s := by
  have := fact_false
  have hk : Kept fadedScope s ((s.bankFinish (48 + c)).trackDone c) := kept_trackDone (kept_bankFinish (Kept.refl s))
  unfold gapFaded
  split
  · exact refreshRx_lines.trans (linesOf_kept hk)
  · rfl

/-- A marker that the core reaches (R126). -/
theorem gapReached_reports {rest : List SlackItem} (h : s.slack c = .gap n :: rest) : (s.gapReached c m).slack c = rest
    ∧ Safety.countedBy s (s.gapReached c m) .xRxSets c n
    ∧ (n ≤ 32 → Safety.countedBy s (s.gapReached c m) .carrierRxErasedSymbols c m)
    ∧ (32 < n → (s.gapReached c m).get .xGapFlag c = 32 ∧ sget (s.gapReached c m).polQueue c [] = []
      ∧ ((s.gapReached c m).rx c).delay = []) := by
  obtain ⟨g1, g2, g3⟩ := gapGone_reports (s := s) (c := c) (n := n) (rest := rest)
  rw [gapReached_eq h]
  generalize gapGone c n rest s = y at *
  by_cases hn : n ≤ 32
  · have := fact_false
    have hk : Kept passScope y (y.each (List.range n) fun s _ => s.passStroke c true []) :=
      kept_each (Kept.refl y) fun _ _ ht => kept_passStroke ht
    have hs : (y.each (List.range n) fun s _ => s.passStroke c true []).slack c = rest := by
      rw [State.slack, (hk.sameSlack rfl).1, ← State.slack, g1]
    have he := eraseSymbols_counts (s := y.each (List.range n) fun s _ => s.passStroke c true []) (c := c) (n := m)
    rw [Safety.countedBy, State.nat, hk.get rfl, g3] at he
    rw [if_pos hn]
    refine ⟨(slack_of eraseSymbols_lines).trans hs, ?_, fun _ => he, fun hm => absurd hn (by omega)⟩
    rw [Safety.countedBy, eraseSymbols_apart.regs _ _ rfl, hk.get rfl]
    exact g2
  · obtain ⟨b1, b2, b3, b4, b5⟩ := gapBroken_reports (s := y) (c := c) (n := n)
    rw [if_neg hn]
    refine ⟨(slack_of gapFaded_lines).trans (b1.trans g1), ?_, fun hm => absurd hm hn, fun _ => ⟨?_, ?_, ?_⟩⟩
    · rw [Safety.countedBy, gapFaded_get (by decide) rfl, b2]
      exact g2
    · rw [gapFaded_get (by decide) rfl, b3]
    · rw [pol_of gapFaded_lines, b4]
    · rw [rx_of gapFaded_lines, b5]

end Sys2Proof.Laws

namespace Sys2Proof

open Sys2Proof.Machine Sys2Proof.Laws

/-- Settles O19: each operation is written as the buffer's part followed by what it runs behind it, and the parts behind leave the buffers
and the counts named. -/
theorem strokesPassTheSlackBuffers : Obligations.StrokesPassTheSlackBuffers := by
  unfold Obligations.StrokesPassTheSlackBuffers
  refine ⟨fun s c codes hp h1 h2 => ⟨_, live_running (f := fun s => s.rxArrival c codes) hp, rxArrival_clips h1 h2, fun h0 => ?_, fun h3 h4 hf => ?_,
    fun h3 h4 hf => ?_, fun d hd => rxArrival_beside h1 h2 hd⟩, fun s c hp h1 => ⟨_, live_running (f := fun s => s.txPeriod c) hp, fun h2 => ?_,
    fun h2 => ?_, fun x l h2 h3 => txPeriod_codes h1 h2 h3⟩, fun s c msaX msaY reads hp h1 h2 h3 =>
    ⟨_, live_running (f := fun s => s.coreGive c (msaX.zip msaY) reads) hp, coreGive_reports h1 h2 h3 rfl⟩,
    fun s c first next codes erased rest hp h1 h2 h3 h4 =>
    ⟨_, live_running (f := fun s => s.coreTake c (min 214 (next - first))) hp, coreTake_reports h1 h2 h3 h4⟩,
    fun s c symbols n rest hp h => ⟨_, live_running (f := fun s => s.gapReached c symbols) hp, gapReached_reports h⟩,
    fun s c hp h1 h2 => ⟨_, live_running (f := fun s => s.writeGap c) hp, ?_⟩⟩
  · rw [rxArrival_passes h1 (.inl h0), slack_of countClips_lines]
  · have ha := setArrived_apart (s := s) (c := c) (codes := codes)
    have hf' : (setTaken c codes ((s.countClips c codes).agcWindow c)).get .carrierSlackRxFill c = s.get .carrierSlackRxFill c := ha.regs _ _ rfl
    rw [rxArrival_eq h1 h2 h3 h4, hf', if_neg (not_le.2 hf)]
    obtain ⟨r1, r2, r3, r4, -⟩ := setStored_reports (q := setErased c ((s.countClips c codes).agcWindow c)) (codes := codes)
      (s := setTaken c codes ((s.countClips c codes).agcWindow c)) (c := c) (by rw [hf']; exact hf)
    rw [slack_of setArrived_lines, State.nat, ha.regs _ _ rfl, ← State.nat, setArrived_erased] at r1
    rw [setArrived_erased] at r2 r3 r4 ⊢
    rw [hf'] at r2 r3
    rw [ha.regs _ _ rfl] at r3
    exact ⟨r1, r2, r3, r4⟩
  · have ha := setArrived_apart (s := s) (c := c) (codes := codes)
    rw [rxArrival_eq h1 h2 h3 h4, ha.regs _ _ rfl, if_pos hf]
    obtain ⟨r1, r2, r3, r4⟩ := setDiscarded_reports (s := setTaken c codes ((s.countClips c codes).agcWindow c)) (c := c)
    rw [Safety.countedBy, State.nat, ha.regs _ _ rfl] at r2
    rw [ha.regs _ _ rfl] at r3
    exact ⟨(slack_of r1).trans (slack_of setArrived_lines), r2, r3, r4⟩
  · rw [txPeriod_holds h1 h2]
    obtain ⟨r1, r2, r3, r4⟩ := holdSent_reports (s := s) (c := c)
    exact ⟨r1, r2, enterHeld_held, r3.trans h2, r4⟩
  · obtain ⟨r1, r2, r3⟩ := txPeriod_leaving h1 h2
    exact ⟨r1, r2, apart_iff.2 r3⟩
  · obtain ⟨r1, r2, -⟩ := writeGap_reports h2
    rw [if_neg h1] at r2
    exact ⟨r2, r1, apart_iff.2 writeGap_apart⟩

end Sys2Proof
